-- ==== Sys2Proof/Word.lean ====
section
/-! DEFINITION. The word types of the machine: 32-bit register words and bytes (R8, R9, R10). -/

namespace Sys2Proof

/-- A 32-bit word: register contents, addresses while they are computed, instruction words. -/
abbrev Word := BitVec 32

/-- One byte. -/
abbrev Byte := BitVec 8

end Sys2Proof
end

