-- ==== Sys2Proof/Syntax.lean ====
section
/-! DEFINITION. The commands of the block: one constructor of `Instr` per row of spec/opcode_table.json, in the
table's order, with the row's operands. What only the environment decides (whether the two copies of a pair agree, a
sampled level, bytes read from host memory, the outcome of a BIST) is an operand of the command (log entry 4). -/

namespace Sys2Proof

/-! ### Names of the units -/

abbrev TenantId := Fin 256
/-- A mailbox page: 0–255 the tenants' pages, 256 the administration page (R288). -/
abbrev PageId := Fin 257
abbrev ClusterId := Fin 16
abbrev PhysId := Fin 17
abbrev DevId := Fin 16
abbrev PadId := Fin 1024
abbrev PortId := Fin 1024
abbrev ThreadNo := Fin 12
abbrev ChanId := Fin 128
abbrev GroupId := Fin 16
abbrev LockId := Fin 64
abbrev TagId := Fin 16384
abbrev DrnPort := Fin 3
abbrev Reg := BitVec 4

/-- A processor position (R230, R231 CORE_ID): a barrel thread, a lane-core position of a logical cluster, or the
control processor. -/
inductive CoreId where
  | thread (n : ClusterId) (s : ThreadNo)
  | lane (n : ClusterId) (x : Fin 4)
  | cp
  deriving DecidableEq, Repr

/-- Who makes an access: a core, or the host through the PCI Express endpoint. -/
inductive Requester where
  | core (c : CoreId)
  | host
  deriving DecidableEq, Repr

/-- The issue of one instruction word by a core: who issues it, the word's condition field (R235), whether the two
copies of a pair agree on what they compare (R356; always true for a single core), and whether the fetch or the data
access meets an uncorrectable word (R213, R271), and how many words that it reads are corrected (R213). -/
structure Issue where
  core : CoreId
  cond : BitVec 4
  agree : Bool
  eccFetch : Bool
  eccData : Bool
  corrected : Nat := 0
  deriving DecidableEq, Repr

/-- A tenant command slot (R290): the tenant, the slot's TAG, DEVICE and FLAGS bytes and its payload. -/
structure TCmd where
  tenant : TenantId
  tag : BitVec 16
  device : Byte
  flags : Byte
  payload : List Byte
  deriving DecidableEq, Repr

/-- An administration command slot (R307), with the bytes the command's host-memory read returns (`none`: the
transfer fails) for the commands that read host memory. -/
structure ACmd where
  tag : BitVec 16
  payload : List Byte
  hostBytes : Option (List Byte)
  deriving DecidableEq, Repr

/-- A received Draren frame (R333): the port it arrives on, its sequence number, whether its CRC holds, the
acknowledgement it carries, its DST and ROUTED bit, whether a reserved bit is set, and its payload. -/
structure Frame where
  port : DrnPort
  seq : BitVec 16
  crcOk : Bool
  ack : BitVec 16
  dst : BitVec 16
  routed : Bool
  reservedBit : Bool
  payload : List Byte
  deriving DecidableEq, Repr

/-- What a training of a Draren link finds (R329): the partner's port kind (true: a U port), its MAXRATE and MAXWIDTH,
and the lanes good at each rate, lowest rate first. -/
structure TrainInfo where
  partnerU : Bool
  maxRate : BitVec 2
  maxWidth : BitVec 4
  good1 : BitVec 5
  good2 : BitVec 5
  good3 : BitVec 5
  deriving DecidableEq, Repr

/-- An SMBus management command (R427): its data bytes, and whether its Packet Error Code holds; `none`: it carries none. -/
structure MCmd where
  data : List Byte
  pec : Option Bool
  deriving DecidableEq, Repr

/-- Where a register write goes: an address of the internal map, or an offset of a mailbox page (R288). -/
inductive Target where
  | addr (a : Word)
  | page (p : PageId) (off : BitVec 16)
  deriving DecidableEq, Repr

/-- The commands, one constructor per row of spec/opcode_table.json in its order. The level, the word, the span and the
head of START_BIT_CHECK, RX_WORD_COMPLETE, SYNC_RX_WORD_COMPLETE and CHAIN_HEAD_FOUND are what their sender observed; the
chip's own samples and search decide, and no meaning reads them (log entry 103). -/
inductive Instr where
  | pllLock
  | refLost
  | pllRelock
  | frameTick
  | frameCtrlWrite (c : CoreId) (v : Word)
  | frameCountLoRead (r : Requester)
  | turnAbsLoRead (r : Requester)
  | clFrameDone (c : CoreId) (n : ClusterId) (v : Word) (agree : Bool)
  | calCycle
  | calStepRequest (c : CoreId) (v : Word)
  | calStepApply
  | alarmFire
  | oscFail
  | oscRestart
  | calendarReset
  | calPipRead (r : Requester)
  | mailboxPlace (t : TenantId)
  | backlogMove (p : PageId)
  | handoffProcess (t : TenantId)
  | seqTimeout (t : TenantId) (d : DevId)
  | machineTimerExpiry (t : TenantId) (d : DevId) (side : Fin 2) (timer : Fin 4)
  | attachWindowEnd (p : PortId)
  | attachTry (p : PortId)
  | probeWindowEnd (p : PortId)
  | switchGuardEnd (p : PortId)
  | pollDue (p : PortId)
  | replyWindowEnd (p : PortId)
  | lossPadWindowEnd (p : PortId)
  | gapWindowEnd (p : PortId)
  | portProgramChange (p : PortId)
  | pgRelease (n : ClusterId)
  | vioFail (n : ClusterId)
  | pgSupplyMismatch (n : ClusterId) (high : Bool)
  | padIoWrite (c : CoreId) (p : PadId) (v : Word)
  | rxStartEdge (p : PadId) (level : Bool)
  | startBitCheck (p : PadId) (level : Bool)
  | rxWordComplete (p : PadId) (w : Word)
  | syncRxWordComplete (p : PadId) (w : Word) (span : Nat)
  | edgeEntry (p : PadId) (level : Bool)
  | saTxdataWrite (c : CoreId) (p : PadId) (v : Word)
  | txWordLaunch (p : PadId)
  | txWordEnd (p : PadId)
  | deRelease (p : PadId)
  | saRxdataRead (c : CoreId) (p : PadId)
  | saCtrlWrite (c : CoreId) (p : PadId) (v : Word)
  | saStatWrite (c : CoreId) (p : PadId) (v : Word)
  | bypassApply (p : PortId)
  | bypassReleaseApply (p : PortId)
  | lcCmdStage (c : CoreId) (ch : ChanId) (v : Word)
  | lcNop (ch : ChanId)
  | lcOn (ch : ChanId)
  | lcOff (ch : ChanId)
  | lcKick (ch : ChanId)
  | lcBlink (ch : ChanId)
  | lcTest (ch : ChanId)
  | lcClear (ch : ChanId)
  | shortTrip (ch : ChanId)
  | inrushOverTrip (ch : ChanId)
  | overloadTrip (ch : ChanId)
  | stuckOnDetect (ch : ChanId)
  | inrushGrant (g : GroupId)
  | inrushEnd (ch : ChanId)
  | sagAssert (g : GroupId)
  | sagDeassert (g : GroupId)
  | dischargeEnd (ch : ChanId)
  | kickEnd (ch : ChanId)
  | blinkOnEnd (ch : ChanId)
  | blinkOffEnd (ch : ChanId)
  | testOffEnd (ch : ChanId) (above : Bool)
  | testWindowEnd (ch : ChanId) (first : Option (Fin 48000))
  | autoRetry (ch : ChanId)
  | lcConfigWrite (c : CoreId) (ch : ChanId) (off : Fin 32) (v : Word)
  | lcGcfgWrite (c : CoreId) (g : GroupId) (v : Word)
  | lcCtrlDisable (c : CoreId) (ch : ChanId)
  | traceSample (ch : ChanId) (reading : BitVec 12)
  | segmentTimeClose
  | jnlCtrlClose (c : CoreId)
  | segmentSign
  | segmentCommit
  | jnlEnable (c : CoreId) (identified : Bool)
  | chainHeadFound (head : Option Nat)
  | jnlDisable (c : CoreId)
  | driveFail (e : Fin 16)
  | rebuildComplete (e : Fin 16)
  | jnlEntryWrite (c : CoreId) (e : Fin 16) (reg : Fin 3) (v : Word)
  | jnlArchWrite (c : CoreId) (v : Word)
  | jnlWptrLoRead (r : Requester)
  | jnlSeqLoRead (r : Requester)
  | slotApplyRequest (c : CoreId) (n : ClusterId) (v : Word)
  | slotTableApply (n : ClusterId)
  | greedyOn (c : CoreId) (n : ClusterId) (v : Word)
  | greedyOff (c : CoreId) (n : ClusterId) (v : Word)
  | threadStart (c : CoreId) (n : ClusterId) (s : ThreadNo)
  | threadStop (c : CoreId) (n : ClusterId) (s : ThreadNo)
  | threadResume (c : CoreId) (n : ClusterId) (s : ThreadNo)
  | faultPortLoss (n : ClusterId) (s : ThreadNo)
  | lockAcquire (c : CoreId) (n : ClusterId) (l : LockId)
  | lockRelease (c : CoreId) (n : ClusterId) (l : LockId)
  | lockForce (c : CoreId) (n : ClusterId) (v : Word)
  | chipLockAcquire (c : CoreId) (l : Fin 256)
  | chipLockRelease (c : CoreId) (l : Fin 256)
  | chipLockForce (c : CoreId) (v : Word)
  | thrAlarmArm (c : CoreId) (v : Word)
  | threadAlarm (n : ClusterId) (s : ThreadNo)
  | rxfPush (c : CoreId) (v : Word)
  | rxfEnd (c : CoreId) (v : Word)
  | rxfEvent (c : CoreId) (v : Word)
  | rxfFree (c : CoreId) (v : Word)
  | txfStage (c : CoreId) (v : Word)
  | txfPop (c : CoreId) (j : Fin 8)
  | txfNote (c : CoreId) (v : Word)
  | add (i : Issue) (sf : Bool) (rd ra rb : Reg)
  | adc (i : Issue) (sf : Bool) (rd ra rb : Reg)
  | sub (i : Issue) (sf : Bool) (rd ra rb : Reg)
  | sbc (i : Issue) (sf : Bool) (rd ra rb : Reg)
  | andR (i : Issue) (sf : Bool) (rd ra rb : Reg)
  | orR (i : Issue) (sf : Bool) (rd ra rb : Reg)
  | xorR (i : Issue) (sf : Bool) (rd ra rb : Reg)
  | andn (i : Issue) (sf : Bool) (rd ra rb : Reg)
  | lsl (i : Issue) (sf : Bool) (rd ra rb : Reg)
  | lsr (i : Issue) (sf : Bool) (rd ra rb : Reg)
  | asr (i : Issue) (sf : Bool) (rd ra rb : Reg)
  | ror (i : Issue) (sf : Bool) (rd ra rb : Reg)
  | mov (i : Issue) (sf : Bool) (rd rb : Reg)
  | mvn (i : Issue) (sf : Bool) (rd rb : Reg)
  | neg (i : Issue) (sf : Bool) (rd rb : Reg)
  | cmp (i : Issue) (ra rb : Reg)
  | tst (i : Issue) (ra rb : Reg)
  | mul (i : Issue) (sf : Bool) (rd ra rb : Reg)
  | mull (i : Issue) (sf : Bool) (rd ra rb : Reg)
  | mullu (i : Issue) (sf : Bool) (rd ra rb : Reg)
  | div (i : Issue) (sf : Bool) (rd ra rb : Reg)
  | divu (i : Issue) (sf : Bool) (rd ra rb : Reg)
  | clz (i : Issue) (sf : Bool) (rd ra : Reg)
  | rev (i : Issue) (sf : Bool) (rd ra : Reg)
  | sxb (i : Issue) (sf : Bool) (rd ra : Reg)
  | sxh (i : Issue) (sf : Bool) (rd ra : Reg)
  | addi (i : Issue) (sf : Bool) (rd ra : Reg) (imm : BitVec 11)
  | subi (i : Issue) (sf : Bool) (rd ra : Reg) (imm : BitVec 11)
  | andi (i : Issue) (sf : Bool) (rd ra : Reg) (imm : BitVec 11)
  | ori (i : Issue) (sf : Bool) (rd ra : Reg) (imm : BitVec 11)
  | xori (i : Issue) (sf : Bool) (rd ra : Reg) (imm : BitVec 11)
  | lsli (i : Issue) (sf : Bool) (rd ra : Reg) (imm : BitVec 11)
  | lsri (i : Issue) (sf : Bool) (rd ra : Reg) (imm : BitVec 11)
  | asri (i : Issue) (sf : Bool) (rd ra : Reg) (imm : BitVec 11)
  | rori (i : Issue) (sf : Bool) (rd ra : Reg) (imm : BitVec 11)
  | cmpi (i : Issue) (ra : Reg) (imm : BitVec 11)
  | tsti (i : Issue) (ra : Reg) (imm : BitVec 11)
  | movi (i : Issue) (rd : Reg) (imm : BitVec 16)
  | movn (i : Issue) (rd : Reg) (imm : BitVec 16)
  | movhi (i : Issue) (rd : Reg) (imm : BitVec 16)
  | ld (i : Issue) (sz : BitVec 2) (sx : Bool) (rd ra : Reg) (off : BitVec 12)
  | st (i : Issue) (sz : BitVec 2) (rd ra : Reg) (off : BitVec 12)
  | cmpm (i : Issue) (ra rb : Reg) (off : BitVec 12)
  | tstm (i : Issue) (ra rb : Reg) (off : BitVec 12)
  | b (i : Issue) (off : BitVec 24)
  | bl (i : Issue) (off : BitVec 24)
  | nop (i : Issue) (bits : BitVec 28)
  | jr (i : Issue) (ra : Reg)
  | jlr (i : Issue) (rd ra : Reg)
  | mfs (i : Issue) (rd : Reg) (spr : BitVec 4)
  | mts (i : Issue) (spr : BitVec 4) (ra : Reg)
  | rete (i : Issue)
  | fli (i : Issue) (ra : Reg)
  | fence (i : Issue)
  | wait (i : Issue)
  | waitWake (c : CoreId)
  | svc (i : Issue) (imm : BitVec 8)
  | rep (i : Issue) (rc : Reg) (next : Word)
  | repl (i : Issue) (rc : Reg) (next : Word)
  | loop (i : Issue) (rc : Reg) (off : BitVec 12)
  | bcopy (i : Issue) (sz : BitVec 2) (rd ra : Reg)
  | bfill (i : Issue) (sz : BitVec 2) (rd rb : Reg)
  | crcb (i : Issue) (k : BitVec 4) (rd ra : Reg)
  | tstep (i : Issue) (rd ra rb : Reg)
  | interruptDelivery (c : CoreId) (agree : Bool) (vecEcc : Bool)
  | coreVbaseWrite (c : CoreId) (v : Word)
  | lineFill (c : CoreId) (a : Word) (wrongPath : Bool)
  | thrCtxWrite (c : CoreId) (n : ClusterId) (s : ThreadNo) (w : Fin 32) (v : Word)
  | submitCommit (r : Requester) (p : PageId) (bytes : List Byte)
  | outHeadWrite (r : Requester) (p : PageId) (v : Word)
  | doorbellInWrite (r : Requester) (p : PageId) (v : Word)
  | outMaskWrite (r : Requester) (p : PageId) (v : Word)
  | clOutboxWrite (c : CoreId) (n : ClusterId) (v : Word)
  | kysanNop (x : TCmd)
  | identify (x : TCmd)
  | tenantStatus (x : TCmd)
  | deviceQuery (x : TCmd)
  | bind (x : TCmd)
  | unbind (x : TCmd)
  | dataSend (x : TCmd)
  | tenantReset (x : TCmd)
  | clearDegraded (x : TCmd)
  | loadClear (x : TCmd)
  | scannerEnable (x : TCmd)
  | scannerDisable (x : TCmd)
  | scannerBeep (x : TCmd)
  | units (x : TCmd)
  | tare (x : TCmd)
  | zero (x : TCmd)
  | weigh (x : TCmd)
  | text (x : TCmd)
  | brightness (x : TCmd)
  | cursor (x : TCmd)
  | attention (x : TCmd)
  | drawerKick (x : TCmd)
  | codepage (x : TCmd)
  | density (x : TCmd)
  | printSeg (x : TCmd)
  | cut (x : TCmd)
  | logo (x : TCmd)
  | pattern (x : TCmd)
  | keyLeds (x : TCmd)
  | keyLock (x : TCmd)
  | keypadBeep (x : TCmd)
  | tenantConfig (x : ACmd)
  | adminTenantReset (x : ACmd)
  | tenantResetGo (c : CoreId) (v : Word)
  | tenantResetComplete (t : TenantId)
  | portDefine (x : ACmd)
  | portRemove (x : ACmd)
  | portGrant (x : ACmd)
  | portSuspend (x : ACmd)
  | portResume (x : ACmd)
  | portBypass (x : ACmd)
  | portRelease (x : ACmd)
  | settleDiscard (x : ACmd)
  | settleRead (x : ACmd)
  | aptStage (x : ACmd)
  | aptActivate (x : ACmd)
  | aptRemove (x : ACmd)
  | aptList (x : ACmd)
  | portApt (x : ACmd)
  | frameSet (x : ACmd)
  | timeGet (x : ACmd)
  | timeTrim (x : ACmd)
  | timeStep (x : ACmd)
  | timeAlarm (x : ACmd)
  | lcConfig (x : ACmd)
  | lcProfile (x : ACmd)
  | lcAttach (x : ACmd)
  | lcDetach (x : ACmd)
  | lcCommand (x : ACmd)
  | jnlEntry (x : ACmd)
  | jnlControl (x : ACmd)
  | jnlClose (x : ACmd)
  | jnlRead (x : ACmd)
  | jnlArchive (x : ACmd)
  | jnlStatus (x : ACmd)
  | codeWrite (x : ACmd)
  | codeCommit (x : ACmd)
  | keyInstall (x : ACmd)
  | castle (x : ACmd)
  | faultRead (x : ACmd)
  | powerDark (x : ACmd)
  | powerWake (x : ACmd)
  | powerStandby (x : ACmd)
  | powerDeep (x : ACmd)
  | regRead (x : ACmd)
  | movDbWrite (c : CoreId) (m : Fin 4) (v : Word)
  | transferAccept (g : TagId)
  | transferReadChunk (g : TagId) (data : Option (List Byte)) (ecc : Bool)
  | transferWriteChunk (g : TagId) (ok : Bool)
  | transferComplete (g : TagId)
  | completionTimeout (g : TagId)
  | arbitrationPeriod (target : Fin 17) (tags : List (Nat × Nat))
  | linkTrain (p : DrnPort) (info : TrainInfo)
  | trainRetry (p : DrnPort)
  | drnRetrain (c : CoreId) (p : DrnPort)
  | drnDisable (c : CoreId) (p : DrnPort)
  | heartbeatSend (p : DrnPort)
  | heartbeat (f : Frame)
  | address (f : Frame)
  | admitReq (f : Frame)
  | admitFrame (f : Frame)
  | admissionTick
  | detach (f : Frame)
  | tick (f : Frame)
  | mmio (f : Frame)
  | hostdma (f : Frame)
  | queue (f : Frame)
  | drnAdmin (f : Frame)
  | drnJournal (f : Frame)
  | capacity (f : Frame)
  | laneFail (p : DrnPort) (lane : Fin 5)
  | laneSwapDone (p : DrnPort)
  | linkLoss (p : DrnPort)
  | headElection
  | delayMeasure (p : DrnPort) (roundTrip : BitVec 24)
  | clCkptWrite (c : CoreId) (n : ClusterId) (v : Word) (agree : Bool)
  | pairBistDone (n : ClusterId) (pair : Fin 2) (passA passB : Bool)
  | checkerError (n : ClusterId) (x : Fin 5)
  | stallSentinel (n : ClusterId) (x : Fin 5)
  | shadowMismatch (n : ClusterId) (s : ThreadNo)
  | voteDisagree (block : Nat)
  | clusterCastling (n : ClusterId)
  | handoverEnd (imageOk : Bool)
  | castleReqCluster (c : CoreId) (n : ClusterId)
  | castleReqLaneCore (c : CoreId) (n : ClusterId) (x : Fin 8)
  | castleReqCp (c : CoreId) (x : Fin 8)
  | clDoublesWrite (c : CoreId) (n : ClusterId) (v : Word)
  | pairForm (n : ClusterId)
  | cpCheckpoint (agree : Bool)
  | cpCastling (failA failB : Bool)
  | scrubPassComplete (corrected : List Word) (uncorr : List Word)
  | rotationVisit (cpOk : BitVec 3)
  | clusterBistDone (pass : Bool) (coresOk : BitVec 5)
  | repairOverdue
  | icEoi (c : CoreId)
  | icRaise (c : CoreId) (v : Word)
  | icSet (c : CoreId) (n : ClusterId) (hi : Bool) (v : Word)
  | icSrcWrite (c : CoreId) (n : ClusterId) (k : Fin 64) (v : Word)
  | holdoffEnd (n : ClusterId) (g : Fin 8)
  | coreTimerArm (c : CoreId) (v : Word)
  | coreTimerDue (c : CoreId)
  | routerEvent (n : ClusterId) (k : Fin 32)
  | eventTrigger (c : CoreId) (n : ClusterId) (v : Word)
  | evrCfgWrite (c : CoreId) (n : ClusterId) (k : Fin 32) (v : Word)
  | evrLock (c : CoreId) (n : ClusterId) (k : Fin 32) (v : Word)
  | sentryFire (k : Fin 16) (level : Bool)
  | clusterDarkEntry (n : ClusterId)
  | clusterDarkDone (n : ClusterId)
  | wakeRequest (n : ClusterId)
  | clusterWakeTick (n : ClusterId)
  | governorDecision (n : ClusterId)
  | lowPowerEntryEnd
  | nvmeShutdownTimeout (rp : Fin 4)
  | lowPowerExit
  | smbusAddressMatch
  | powerOnReset (vaon : Bool)
  | resetPin
  | softReset (c : CoreId) (v : Word)
  | endpointReset
  | resetRelease (bootsel head : Bool)
  | crossingResync (x : Fin 24)
  | supplyDip (i : Fin 4)
  | boot
  | vfFlr (t : TenantId)
  | pfFlr
  | vfEnableClear
  | driveRemoved (rp : Fin 4)
  | driveInserted (rp : Fin 4)
  | rootPortRetrain (rp : Fin 4)
  | getId (m : MCmd)
  | getStatus (m : MCmd)
  | mgmtReset (m : MCmd)
  | mgmtCodeWrite (m : MCmd)
  | mgmtCodeCommit (m : MCmd)
  | codeRead (m : MCmd)
  | adminSubmit (m : MCmd)
  | adminFetch (m : MCmd)
  | mgmtReplyRead
  | tapReset
  | jtagBypass
  | idcode
  | samplePreload
  | extest
  | clamp
  | highz
  | registerWrite (r : Requester) (a : Target) (v : Word)
  | vfEnableSet (num : BitVec 16)
  | clusterResetRelease (n : ClusterId)
  | scrubAgeLimit
  | standaloneDecision
  deriving DecidableEq, Repr

end Sys2Proof
end

