-- ==== Sys2Proof/Decode.lean ====
section
/-! DEFINITION. The decoder of the command table. No row of spec/opcode_table.json gives bits (every row's list of
fields is empty, and a block's commands are not words of a memory), so no word spells a command (log entry 13). -/

namespace Sys2Proof

/-- The command that a word of `nbits` bits spells by the table's bits: the table gives none, so no word spells one. -/
def decodeTableWord (nbits w : Nat) : Option Instr :=
  match nbits, w with
  | _, _ => none

end Sys2Proof
end

