-- ==== Sys2Proof/Config.lean ====
section
/-! DEFINITION. What one implementation fixes, and the values the spec leaves open, as constants without a body:
nothing can be proved about the value of any of them. Each names its entry of the assumption log. -/

namespace Sys2Proof

/-- Grade of the part: `false` is ISM-G1920-C, `true` is ISM-G1920-I (R1, R3).  Log entry 8. -/
opaque Config.gradeI : Bool

/-- OTP contents the part was made with (R183, R430, R431): the serial, the device key's private scalar, the device public
key's bytes, the anti-rollback counter when the run begins, and the boot root public key.  Log entry 10. -/
opaque Config.otpSerial : BitVec 64
opaque Config.otpKey : Nat
opaque Config.otpPubKey : Nat → Byte
opaque Config.otpSvn : BitVec 6
opaque Config.otpRootKey : List Byte

/-- A free word: a value the spec leaves open.  The argument is the model's own counter `State.fresh`.  Log entry 6. -/
opaque Config.freeWord : Nat → Word
opaque Config.freeByte : Nat → Byte
opaque Config.freeNat : Nat → Nat
opaque Config.freeBytes : Nat → List Byte

/-- The dictionary coder's choice of tokens (R185 leaves the matches to the chip; a reader relies on decoding): a body for a
record stream, taken where it decodes to the stream and keeps the bound of R185.  Log entry 11. -/
opaque Config.bodyCode : List Byte → List Byte

/-- The payload an EMIT action builds from a machine's variables and buffers (R110 states no layout of variables in
the class message): a function of the message code, the variables and the buffers.  Log entry 12. -/
opaque Config.emitPayload : Nat → List (BitVec 32) → List (List Byte) → List Byte

/-- The variables a class operation's payload is loaded into before a machine sees it (R109 states none): a function
of the message code and the payload, as (variable, value) pairs.  Log entry 12. -/
opaque Config.opVars : Nat → List Byte → List (Nat × BitVec 32)

/-- The buffers a class operation's or event's payload is loaded into, as (buffer 0–7, bytes) pairs.  Log entry 12. -/
opaque Config.opBufs : Nat → List Byte → List (Nat × List Byte)

/-- The value a numeric text or BCD field parses to when its bytes are no number of its encoding, or one that no 32-bit
variable holds (R465 states none): a function of the encoding and the bytes.  Log entry 17. -/
opaque Config.badDigits : Nat → List Byte → BitVec 32

/-- What another chip of the group answers to a bind of one of its ports (R70, R341 state no exchange): a function of a
fresh number, the group port number and the tenant; `none` where the port does not exist, is bound or is not granted to
the tenant, else the port's state.  Log entry 80. -/
opaque Config.farPort : Nat → Nat → Nat → Option Nat

/-- The table (identifier, major version) of a port of another chip (R69, R341).  Log entry 80. -/
opaque Config.farApt : Nat → Nat × Nat

/-- The namespace named by (root port, NSID) uses 4,096-byte LBAs (R202): a property of the attached drive.  Log entry 90. -/
opaque Config.lba4k : Nat → Nat → Bool

end Sys2Proof
end

