-- ==== Sys2Proof/Machine/Tab.lean ====
section
/-! DEFINITION. Sparse tables: lists of (key, value) pairs with rising keys, the plain-data form of the machine's
register files, memories and unit tables. A table in canonical form over a default lists no pair that equals what an
unlisted key reads as. -/

namespace Sys2Proof.Machine

/-- A sparse table from natural-number keys. -/
abbrev Tab (α : Type) := List (Nat × α)

/-- The entry under a key, if listed. -/
def Tab.find {α : Type} : Tab α → Nat → Option α
  | [], _ => none
  | (k', v) :: t, k => if k' = k then some v else Tab.find t k

/-- The entry under a key, or what an unlisted key reads as. -/
def Tab.getD {α : Type} (t : Tab α) (k : Nat) (d : α) : α :=
  match Tab.find t k with
  | some v => v
  | none => d

/-- List a value under a key, in place of what was listed there. -/
def Tab.put {α : Type} : Tab α → Nat → α → Tab α
  | [], k, v => [(k, v)]
  | (k', v') :: t, k, v =>
    if k < k' then (k, v) :: (k', v') :: t
    else if k = k' then (k, v) :: t
    else (k', v') :: Tab.put t k v

/-- Remove a key's entry. -/
def Tab.del {α : Type} : Tab α → Nat → Tab α
  | [], _ => []
  | (k', v') :: t, k => if k = k' then Tab.del t k else (k', v') :: Tab.del t k

/-- Write a value under a key, keeping the canonical form over the default `d`: the default itself is not listed. -/
def Tab.store {α : Type} [DecidableEq α] (t : Tab α) (k : Nat) (d v : α) : Tab α :=
  if v = d then Tab.del t k else Tab.put t k v

/-- The keys rise strictly from `lo` on. -/
def Tab.rising {α : Type} : Nat → Tab α → Bool
  | _, [] => true
  | lo, (k, _) :: t => decide (lo ≤ k) && Tab.rising (k + 1) t

/-- Canonical form: strictly rising keys, and no entry that equals its default. -/
def Tab.wf {α : Type} [DecidableEq α] (d : Nat → α) (t : Tab α) : Bool :=
  Tab.rising 0 t && t.all (fun p => decide (p.2 ≠ d p.1))

/-- Drop every entry whose key satisfies `f` (a reset of a block of registers). -/
def Tab.clear {α : Type} (t : Tab α) (f : Nat → Bool) : Tab α :=
  t.filter (fun p => !f p.1)

end Sys2Proof.Machine
end

