-- ==== Sys2Proof/Machine/TimeState.lean ====
section
/-! DEFINITION. The state of the time block and of the calendar clock (spec/02_frames_turns_and_time.md). -/

namespace Sys2Proof.Machine

/-- A 20-byte time stamp (R55), as its parts. -/
structure Stamp where
  cal : Nat        -- SEC × 65,536 + PIP
  frame : Nat
  turn : Nat       -- turn within the frame
  hold : Bool
  stale : Bool
  deriving DecidableEq, Repr

/-- One frame: its number, the TURN_ABS of its turn 0, its length in rounds, and what its tick latched: the calendar
value, HOLD and CALSTALE (R43, R44, R55, R59). -/
structure FrameRec where
  frame : Nat
  start : Nat
  rounds : Nat
  cal : Nat
  hold : Bool
  stale : Bool
  deriving DecidableEq, Repr

/-- The frame sequencer and the metronome (R42–R50). -/
structure TimeSt where
  turn : Nat                       -- TURN_ABS (R47)
  cur : FrameRec                   -- the frame in progress; its number is FRAME_COUNT (R47)
  past : List FrameRec             -- earlier frames, newest first: a stamp names the frame of its turn (R55, R56)
  pendLen : Option (Nat × Nat)     -- pending LEN_ROUNDS and the tick it takes effect at (R44)
  fcHi : Tab Word                  -- FRAME_COUNT_HI latch per requester (R48)
  taHi : Tab Word                  -- TURN_ABS_HI latch per requester (R48)
  deriving DecidableEq, Repr

/-- The calendar clock (R60–R63). -/
structure CalSt where
  val : Nat                        -- SEC × 65,536 + PIP, 64 bits
  acc : Int                        -- the signed trim accumulator
  step : Option Nat                -- the value a pending step loads
  stepTag : Option (BitVec 16)     -- the TIME_STEP command that waits for the step (R307)
  latch : Tab Nat                  -- calendar seconds latch per requester (R64)
  deriving DecidableEq, Repr

end Sys2Proof.Machine
end

