-- ==== Sys2Proof/Machine/TenantState.lean ====
section
/-! DEFINITION. The state of tenants, virtual devices and mailbox pages (spec/03_tenants_and_virtual_devices.md,
spec/11_kysan_command_interface.md) and of the instances of personality machines (spec/04_personality_tables.md). -/

namespace Sys2Proof.Machine

/-- One 64-byte ring slot (R290). -/
abbrev Slot := List Byte

/-- One received byte: value, ninth bit, error mark, start stamp (R224, R179). -/
structure RxByte where
  val : Byte
  ninth : Bool
  err : Bool
  stamp : Nat
  deriving DecidableEq, Repr

/-- A completed packet: its port and bytes, its PK flags (R179), the turn of its first start edge and its completion
turn (R87, R224). -/
structure Packet where
  port : Nat
  bytes : List RxByte
  pk : Nat
  first : Nat
  turn : Nat
  held : List RxByte               -- bytes not yet journaled: held back for a settle trace (R189)
  base : Nat                       -- the flags of pk that its end gave, before it was parsed (R87, R132)
  deriving DecidableEq, Repr

/-- A port event (R226, R78) or another item of R76 step 1. Port codes 1–6 are those of R226; 7 suspended, 8 resumed by
administration, 9 bypassed, 10 released from bypass, 11 discarded by administration are the model's names for the
other transitions of R78, 12 the return to PROBING of a port whose verification failed or whose settlement is stale, and 13 a
settling, verified return or resume that a loss overtook before its tick. -/
inductive Item where
  | packet (p : Packet)
  | port (port code arg : Nat)                   -- arg: fingerprint of a PARTNER_CHANGED, the released state, or 1 for an
                                                 -- attach that takes the fresh path
  | load (ch kind arg : Nat)                     -- load-channel event (R170), kinds of Load.lean
  | report (tag sent : Nat)                      -- discard report (R88, R91); sent 0x10000 is a full launch, told to a
                                                 -- tenant of another chip (R343)
  | timer (side timer : Nat)                     -- machine timer expiry (R111)
  | seqEnd                                       -- exclusive sequence timeout (R85)
  deriving DecidableEq, Repr

/-- An item on its way to a tenant: its recorded turn, the order key among equal turns (R76: the port's lowest pad;
load channels after ports, R170), its device, whether it crosses from another cluster (R28), and the generation it was
recorded under (R92). -/
structure HItem where
  turn : Nat
  key : Nat
  dev : Nat
  remote : Bool
  gen : Nat
  item : Item
  deriving DecidableEq, Repr

/-- What one tick hands to a tenant: the frame, the items of R76 step 1, the command slots and the doorbells (R295,
R296). -/
structure HandSet where
  frame : Nat
  items : List HItem
  slots : List Slot
  bells : Word
  deriving DecidableEq, Repr

/-- An output staged toward a partner (R77): the port, the device, the tag of a one-shot (`none` for a level), the
9-bit bytes and whether it is LATE. -/
structure OutMsg where
  port : Nat
  tenant : Nat
  dev : Nat
  gen : Nat
  tag : Option Nat
  bytes : List (BitVec 9)
  fin : Bool                       -- its last byte ends a message (R227)
  near : Bool                      -- staged by a lane core of the port's own cluster (R227)
  late : Bool
  deriving DecidableEq, Repr

/-- What crosses a remote-port queue (R309): an item toward the tenant, or an output toward the port. -/
inductive Crossing where
  | inItem (tenant : Nat) (h : HItem)
  | output (o : OutMsg)
  deriving DecidableEq, Repr

/-- One tenant (R66–R95, R289–R300) beyond its registers. -/
structure TenantSt where
  configured : Bool                -- TENANT_CONFIG ENABLE (R307)
  done : Bool                      -- done mark of the frame in progress (R51)
  limSeen : Nat                    -- OVR_LIMIT that the last count of an overrun was judged by (R54)
  hadWork : Bool
  outbox : Option Nat              -- last CL_OUTBOX COUNT of the frame (R296)
  outFill : Nat                    -- slots staged in the outbox (R296)
  incoming : List HItem            -- recorded, not yet handed
  handed : List HandSet            -- handed at the tick and not yet processed, oldest first
  held : List HandSet              -- held for an overrunning tenant (R52, R53)
  staged : List Slot               -- outbound slots staged, in order, beyond those in the outbox
  outs : List OutMsg               -- port outputs staged in the frame (R77)
  released : List Slot             -- slots passed to the mailbox block, not yet placed (R25)
  relTurn : Nat                    -- turn of the release tick
  backlog : List (Nat × Slot)      -- backlog of 240 slots with their release ticks (R297)
  gapNext : Bool                   -- the next slot placed carries GAP (R298)
  backAt : Nat                     -- place of the next backlog slot in the commons (R308)
  again : List (Nat × Nat)         -- DOORBELL_OUT bits set again while set, with the turn (R15, R301)
  submit : List Byte               -- the 64-byte submit buffer (R293)
  resetAt : Option Nat             -- turn of the reset request (R93)
  resetDisc : Nat                  -- one-shots the reset discarded (R94)
  cleared : Bool                   -- a reset's idle levels wait for the first tick (R94)
  deriving DecidableEq, Repr

/-- A machine timer (R111): off, waiting for the release tick that opens its window, running to its end turn, or
expired and not yet processed. -/
inductive Timer where
  | off
  | start (us : Nat)
  | run (ends : Nat)
  | expired
  deriving DecidableEq, Repr

/-- An instance of a personality machine (R108): state number, 24 scalar variables, 8 buffers, 4 timers. -/
structure MachSt where
  state : Nat
  vars : List (BitVec 32)
  bufs : List (List Byte)
  timers : List Timer
  deriving DecidableEq, Repr

/-- An exclusive sequence (R85, R305): the command's tag and code, and its timeout window. -/
structure SeqSt where
  tag : Nat
  code : Nat
  timeoutUs : Nat
  sent : Bool                      -- a byte toward the partner has been staged (R85)
  ends : Option Nat                -- end of the window, once its release tick has passed
  deriving DecidableEq, Repr

/-- An input of a machine: the machine's side, the source and argument of R109, the class payload and the tag of the
tenant command it comes from. -/
structure MachIn where
  side : Nat
  source : Nat
  arg : Nat
  payload : List Byte
  tag : Option Nat
  deriving DecidableEq, Repr

/-- A piece of a device's work in the order of R76: an item, a command slot, bytes of the tenant's X stream, an input
of a machine, level state still to be applied, and the checks that follow a port item. -/
inductive Work where
  | item (h : HItem)
  | slot (s : Slot)
  | stream (bytes : List Byte) (last : Bool) (tag : Nat)
  | mach (m : MachIn)
  | levels (ls : List (Nat × List Byte))
  | after
  deriving DecidableEq, Repr

/-- A virtual device (R69) and the broker's state for it. -/
structure DeviceSt where
  bound : Bool
  cls : Nat
  present : Nat
  port : Nat                       -- 0xFFFF = unbound; from 0x10000 on a port of another chip (R341)
  tapt : Nat                       -- TENANT_APT
  tmajor : Nat                     -- version the tenant-side table is bound in (R130)
  flags : Nat
  windowUs : Nat
  pst : Nat                        -- port state as processed, with the codes of PortSt.state
  byp : Bool                       -- the port is bypassed, as processed
  trip : Bool                      -- the attached channel is TRIPPED, as processed (R170)
  kick : Bool                      -- a kick of the attached channel runs, as processed (R172)
  view : Nat                       -- partner view: 0x02 or a READY sub-state (R82)
  shown : Nat                      -- device state code last told to the tenant (R91)
  pv : Nat                         -- partner-view code last presented as SOURCE 5 (R109)
  desired : List (Nat × List Byte) -- desired level state, by 256 × code + line (R71, R114)
  seq : Option SeqSt
  pm : MachSt                      -- partner-side machine
  tm : MachSt                      -- tenant-side machine
  drdEnd : Option Nat              -- window of the last accepted read (R58)
  reading : Option (Nat × List Byte)  -- last reading event (R303)
  xbuf : List Byte                 -- bytes of the X stream not yet ended as a packet (R74)
  carried : List Work              -- work carried past the transition limit (R113)
  trans : Nat                      -- transitions performed in frame `transAt` (R113)
  transAt : Nat
  reapply : Bool                   -- level state is to be applied at R76 step 2
  turn : Nat                       -- recorded turn of the item in process
  unexpected : Nat                 -- packets no transition took (R112)
  chan : Option Nat                -- attached load channel (R172)
  deriving DecidableEq, Repr

end Sys2Proof.Machine
end

