-- ==== Sys2Proof/Machine/PortState.lean ====
section
/-! DEFINITION. The state of ports, pads, shift assists and thread FIFOs (spec/03_tenants_and_virtual_devices.md,
spec/04_personality_tables.md, spec/05_lane_pads_and_port_assists.md, spec/08_barrel_engines_and_threads.md). -/

namespace Sys2Proof.Machine

/-- A settlement record (R123). -/
structure Settle where
  apt : Nat
  major : Nat
  mode : Nat
  valid : Bool
  fp : Nat                         -- FINGERPRINT (R124)
  epoch : Nat
  baud : Nat
  data : Nat
  parity : Nat
  stop : Nat
  cmdset : Nat
  vprint : Nat                     -- VERIFY_PRINT (R124)
  deriving DecidableEq, Repr

/-- Where a running probing stands in the Sequence of R122, or in R126. -/
inductive Phase where
  | contact (p : Nat)              -- exchanging CONTACT probe p
  | switch (m : Nat)               -- exchanging mode m's switch probe
  | guardOk (m : Nat)              -- SWITCH_US guard before the confirm probe
  | confirm (m : Nat)              -- exchanging mode m's confirm probe
  | guardBack (m : Nat)            -- SWITCH_US guard before the fallback exchange
  | fallback (m : Nat)             -- exchanging the contact probe again
  | ident (p : Nat)                -- exchanging IDENT probe p
  | tryAttach (p : Nat)            -- an ATTACH 1 try (R467)
  | verify                         -- the VERIFY probe (R126)
  | vSwitch | vGuard | vConfirm    -- the settled mode's switch, guard and confirm (R126)
  deriving DecidableEq, Repr

/-- A running probing (R121, R122, R126). -/
structure Probing where
  phase : Phase
  probe : Nat                      -- probe of the running exchange
  inMode : Nat                     -- mode it is exchanged in
  left : Nat                       -- retries left
  win : Option Nat                 -- end turn of its reply window, or of the guard
  cur : Nat                        -- mode in use
  contact : Nat
  caps : Nat
  restarts : Nat
  doneAt : List (Nat × Nat)        -- (probe, mode) succeeded in this pass
  resp : List (Nat × List Byte)    -- last successful response of each IDENT probe in this pass, fingerprint bytes
  kept : Bool                      -- a stored fingerprint is compared on settling (R127)
  deriving DecidableEq, Repr

/-- A port (R151, R78) beyond its settlement in the commons. -/
structure PortSt where
  defined : Bool
  group : Nat
  pads : List Nat                  -- PAD[0..]: pad indexes in the group
  gapFrames : Nat
  thread : Nat
  slot : Nat                       -- port slot of the thread (R223)
  apt : Nat
  major : Nat
  state : Nat                      -- 0 ABSENT 1 PROBING 2 SETTLED 3 ACTIVE 4 SUSPENDED 5 LOST 6 RETURNED (R78)
  bypassed : Bool
  bypassReq : Bool                 -- bypass takes effect at the next tick (R152)
  releaseReq : Bool
  before : Nat                     -- port state when bypassed
  resumeReq : Bool                 -- PORT_RESUME accepted (R78)
  toActive : Bool                  -- verified return: ACTIVE at the next tick (R126)
  grant : Option Nat               -- tenant granted (R307)
  bound : Option Nat               -- 16 × tenant + device
  lossAt : Option Nat              -- recorded loss since the port was last ACTIVE (R88)
  attachEnd : Option Nat           -- open attach window (R467)
  tryAt : Option Nat               -- next attach try (R467)
  probing : Option Probing
  pollBase : Option Nat            -- turn A of R468
  pollK : Nat                      -- last poll sent or skipped
  replyEnd : Option Nat
  missed : Nat
  lossPadEnd : Option Nat
  changed : Option Nat             -- PARTNER_CHANGED is due when ACTIVE, with this fingerprint once settled (R126)
  discards : Nat                   -- the port's discard counter (R87)
  newProg : Option Nat             -- switch tick T of a minor replacement not yet taken (R132)
  progMinor : Nat                  -- minor version of the port program the thread runs
  prog : Nat                       -- its image in the code store (R118, R132)
  sending : Nat                    -- 1: a probe request is being sent; 2: a link poll (R121, R468)
  sendLeft : List Byte             -- its bytes that have not launched, in order
  sendWin : Nat                    -- length of the window that opens at its end
  deriving DecidableEq, Repr

/-- An entry of a shift assist's receive queue (R140): a word, its 64-bit stamp and its end turn (R224). -/
abbrev QEntry := Word × Nat × Nat

/-- A released byte (R227): 9-bit value, LAST, the output message it belongs to, and its release tick (R179). -/
structure TxByte where
  val : BitVec 9
  last : Bool
  msg : Nat
  rel : Nat
  deriving DecidableEq, Repr

/-- A word of a transmit queue (R143), with the port byte it carries in the journal (R227). -/
structure TxWord where
  word : Word
  port : Option Nat                -- journaled as a PORT_TX byte of this port
  byte : TxByte
  err : Bool                       -- bits [8:1] of the word stand in for a byte
  own : Bool                       -- a byte the port thread originates itself (R227)
  deriving DecidableEq, Repr

/-- A lane pad and its shift assist (R133–R154), beyond its registers. -/
structure PadSt where
  level : Bool                     -- filtered input level (R138)
  hist : List (Nat × Nat × Bool)   -- filtered edges, latest first: sample turn s, recorded turn s − N (R139), level after
  filtAt : Nat                     -- first sample that counts for FILT as it stands (R138)
  outLevel : Bool                  -- level of PAD_IO.OUT at the pad's latch
  outPend : List (Nat × Bool)      -- writes of OUT on their way (R137)
  rxq : List QEntry
  txq : List TxWord
  cand : Option Nat                -- start turn E of the candidate or word being received (R142)
  candOk : Bool                    -- its start bit has been sampled good
  candCfg : Nat × Nat              -- (COUNT, SA_BITCLK) in force for it (R144)
  noStart : Nat                    -- an edge recorded before this turn begins no candidate (R142)
  sync : List Nat                  -- active clock edges of the word in SYNC_RX or SYNC_TX, oldest first (R145)
  cur : Option TxWord              -- word being shifted out
  launch : Option Nat              -- turn at which the first queued word's first bit begins (R143)
  streamS : Nat                    -- S of the continuous stream (R141)
  streamK : Nat                    -- bits of the stream before the word being shifted
  curBits : Nat                    -- bits of the word being shifted (COUNT + 1 at its launch)
  streamClk : Nat                  -- SA_BITCLK in force for the stream
  deAt : Option Nat                -- assertion turn of driver-enable, while asserted
  deEnd : Option Nat               -- end of a running LAG interval
  deLast : Nat × Nat × Nat         -- its last interval that ended: assertion, release, LINKPAD (R150)
  safe : List Nat                  -- why it is in its safe state (R152): 0 its port bypassed, 1 cluster dark, 2 chip out of the group
  removed : Tab (QEntry × Bool)    -- by thread: the entry it removed last, and whether that still is pending (R224)
  scan : Option Bool               -- level the boundary register drives (R440)
  rxGone : Nat × Nat               -- entries that left rxq in a turn: the turn, and how many that it held when the turn began
  txGone : Nat × Nat               -- entries that left txq in a turn (R218)
  deriving DecidableEq, Repr

/-- A port's open packet (R224). -/
structure OpenPkt where
  bytes : List RxByte
  lastEnd : Nat                    -- b of R87
  gapEnd : Bool                    -- the last push carried GAPEND
  bad : Bool                       -- a push was ignored for a full pool (R225)
  orphan : Bool                    -- the packet before it ended TRUNCATED (R87)
  held : Bool                      -- its bytes are held back from the journal (R189)
  raw : List RxByte                -- the bytes held back
  chunks : List Nat                -- its chunks of the receive pool, in order
  deriving DecidableEq, Repr

/-- A notice of a thread's FIFO block (R226), with the packet it names. -/
structure Notice where
  slot : Nat
  kind : Nat
  code : Nat
  len : Nat
  pk : Nat
  turn : Nat
  chunks : List Nat
  deriving DecidableEq, Repr

/-- The FIFO block of a barrel thread (R222–R228). -/
structure FifoSt where
  open_ : Tab OpenPkt              -- open packet by port slot
  notices : Tab Notice
  part : Tab (List (BitVec 9))     -- bytes staged by TXF_STAGE of a message not yet ended, by slot
  cont : List Nat                  -- slots whose message begun by TXF_STAGE was released in part (R227)
  tx : Tab (List TxByte)           -- released bytes, by slot
  txc : Tab (Nat × List Nat)       -- their chunks of the transmit pool, with the bytes of the first already popped (R222)
  cut : List Nat                   -- slots whose last packet ended TRUNCATED by the gap window (R87)
  popped : Tab (List TxByte)      -- popped bytes not yet bound to a SA_TXDATA write (R227)
  note : Option (BitVec 9)
  launched : Tab Nat               -- launched bytes of each staged one-shot, by message (R226)
  msgs : Tab (Nat × Nat × Nat × Nat) -- one-shots in the FIFO: message → (tenant, device, tag, length)
  nextMsg : Nat
  area : List (Nat × Nat × Nat)    -- the thread's port-program area (R118): offset, bytes and key of each run, rising
  deriving DecidableEq, Repr

/-- A personality image in the code store (R96, R129). -/
structure ImageSt where
  bytes : List Byte
  active : Bool
  swapAt : Option Nat              -- frame T at which a minor replacement takes effect (R132)
  old : Bool                       -- replaced; erased once no thread runs its code (R132)
  deriving DecidableEq, Repr

end Sys2Proof.Machine
end

