-- ==== Sys2Proof/Machine/LoadState.lean ====
section
/-! DEFINITION. The state of the load channels (spec/06_load_channels.md) and of the journal engine
(spec/07_journal.md), beyond their registers. -/

namespace Sys2Proof.Machine

/-- A staged LC_CMD write (R162): the command word, the tenant that staged it with its generation (`none`: the control
processor), the tag of the tenant command or of the Kysan LC_COMMAND that waits for it, and whether it is released. -/
structure LcStaged where
  word : Word
  tenant : Option (Nat × Nat)
  tag : Option Nat
  admin : Bool
  due : Option Nat                 -- turn at which it acts; `none` while its tenant's outputs are not released
  deriving DecidableEq, Repr

/-- What a channel is commanded to do: steady, a kick, or a blink with on-time and off-time in ms. -/
inductive LcMode where
  | steady
  | kick
  | blink (onMs offMs : Nat)
  deriving DecidableEq, Repr

/-- One load channel (R155–R174). -/
structure ChanSt where
  written : Bool                   -- LC_CTRL has been written: LDRV drives (R173)
  staged : Option LcStaged
  mode : LcMode
  next : Option LcMode             -- pattern taken at the next phase boundary, or after a test
  grant : Nat                      -- grant turn G (R164)
  phaseEnd : Option Nat            -- end of the pulse, of the on-phase or of the off-phase
  onAt : Nat                       -- turn at which the drive last went on (R158)
  overAt : Nat                     -- first turn whose sample counts toward the present over run (R159, R160)
  waitAt : Option Nat              -- turn at which it entered WAIT; `none`: placed at the head by an abort (R165)
  outAt : Option Nat               -- turn of its last trip, abort or inrush end (R168)
  test : Option (Nat × Nat × Bool) -- (t0, off-time in µs, drive on again) of a running pulse test (R169)
  tripAt : Nat                     -- turn of the last trip
  tripKick : Bool                  -- it was tripped during a kick (R171)
  kickTag : Option Nat             -- tenant command of the running kick (R170)
  pulsed : Bool                    -- the drive has been on for the running kick (R170)
  trace : Option (List (BitVec 12)) -- samples of a running trace, newest first (R187)
  deriving DecidableEq, Repr

/-- One supply group (R165, R166). -/
structure LGroupSt where
  queue : List Nat                 -- channels in WAIT, head first
  lastEnd : Option Nat             -- turn the group's last inrush ended, was aborted or cut
  sagFrom : Nat                    -- first turn whose sample counts toward the sag filter's present run (R166)
  deriving DecidableEq, Repr

/-- A journal record (R176): type, stamp and payload bytes. -/
structure JRec where
  type : Nat
  stamp : Stamp
  payload : List Byte
  deriving DecidableEq, Repr

/-- A segment (R180, R181): open, closed and waiting, or committed. -/
structure Seg where
  seq : Nat
  jaddr : Nat
  openTurn : Nat
  openStamp : Stamp
  closeTurn : Nat
  closeStamp : Stamp
  close : Nat                      -- 0 size, 1 time, 2 CLOSE write, 3 disable or shutdown
  loss : Nat                       -- LOSS byte
  epoch : Nat
  seat : Nat
  lenRounds : Nat
  recs : List JRec                 -- newest first
  ext : List (List Byte)           -- records that a group member sent, newest first (R200)
  raw : Nat                        -- bytes of the record stream
  chain : Option Nat               -- the member's seat, where it belongs to a member's chain (R200)
  members : List Nat               -- entries whose drives hold it, once committed (R196, R197)
  header : Option (List Byte)      -- the signed 256-byte header (R181, R182)
  deriving DecidableEq, Repr

/-- A PORT_RX or PORT_TX record under construction (R179). -/
structure JRun where
  tx : Bool
  port : Nat
  bytes : List RxByte              -- newest first
  deriving DecidableEq, Repr

/-- A settle trace (R189): readings newest first, as (status, weight, division, completion turn, acted on, packet). -/
structure STrace where
  tenant : Nat
  dev : Nat
  port : Nat
  reads : List (Nat × Int × Int × Nat × Bool × Packet)
  deriving DecidableEq, Repr

/-- The chain of a group member that this chip writes (R200): its seat, next SEQ, digest of its last header, and the segment
that is open. -/
structure JChain where
  seat : Nat
  seq : Nat
  digest : List Byte
  seg : Option Seg
  deriving DecidableEq, Repr

/-- The journal engine (R175–R203). -/
structure JournalSt where
  openSeg : Option Seg
  closed : List Seg                -- oldest first, not yet committed
  committed : List Seg             -- newest first
  runs : List JRun
  prevDigest : List Byte           -- digest of the last signed header in the chain
  stage : Nat                      -- bytes held in staging (R196)
  gap : Option (Nat × Stamp × Stamp) -- records lost, stamps of the first and the last (R196)
  traces : List STrace
  anchors : List (Nat × List Byte) -- the anchor blocks that were written, by their number (R194)
  seekTag : Option (BitVec 16)     -- JNL_CONTROL command waiting for the chain head (R307)
  archLo : Word                    -- ARCH_LO written, waiting for the HI write (R195)
  wptr : Nat                       -- journal address of the next segment
  arch : Nat                       -- archive pointer
  seq : Nat                        -- SEQ of the next segment to be placed
  chains : List JChain             -- chains of group members (R200)
  waiting : List (Nat × Nat × List Byte × List Byte) -- records that wait for their frame's TICK (R345): type, turn, payloads
  flight : List Stamp              -- stamps of records sent to the ancestor, newest first (R349)
  latchW : Tab Word                -- WPTR upper half latched per requester (R202)
  latchS : Tab Word                -- SEQ upper half latched per requester
  deriving DecidableEq, Repr

end Sys2Proof.Machine
end

