-- ==== Sys2Proof/Machine/CoreState.lean ====
section
/-! DEFINITION. The state of the processors (spec/09_instruction_set.md, spec/10_execution_and_exceptions.md), of the
barrel engines' control (spec/08_barrel_engines_and_threads.md) and of the doubles (spec/14_fault_tolerance.md). -/

namespace Sys2Proof.Machine

/-- A repeat unit that is armed (R251–R254): the word it repeats, its count register, and the uninterruptible
iterations left of a REPL unit. -/
structure RepUnit where
  word : Word
  rc : BitVec 4
  left : Nat
  deriving DecidableEq, Repr

/-- A processor's context (R286). -/
structure Ctx where
  g : Vector Word 16
  pc : Word
  npc : Word
  psw : Word                       -- SUP (bit 4) is a copy of MODE.SUP (R231)
  epsw : Word
  epc : Word
  enpc : Word
  mode : Word
  lstart : Word
  lend : Word
  lcount : Word
  slot : Bool                      -- the word at PC is a delay slot (R250)
  begun : Bool                     -- XSTATE.UNIT: PC names a prefix whose repetition has begun
  left : Nat                       -- XSTATE.REPL_LEFT
  unit : Option RepUnit            -- the armed unit at PC
  parked : Bool
  waiting : Bool
  entry : Bool                     -- the word at PC is the first of an entry (R280)
  taken : Bool                     -- the word at PC is the slot of a branch whose condition held (R258)
  back : List Word                 -- prefixes whose repetition an entry has cut and a return goes on with (R254, R276)
  deriving DecidableEq, Repr

/-- A write held in the side-effect buffer (R357): address, size in bytes, data. -/
structure SideWrite where
  addr : Word
  size : Nat
  data : Word
  deriving DecidableEq, Repr

/-- A lock that has been acquired (R214, R326): its owner code, and the turn of its release, after which it is free (R215). -/
structure LockSt where
  owner : Nat
  freed : Option Nat
  deriving DecidableEq, Repr

/-- An access that the fabric holds during a handover (R34): the core that made it, and whether it reads. -/
structure HeldAcc where
  core : Nat
  read : Bool
  acc : SideWrite
  deriving DecidableEq, Repr

/-- One entry of a branch-target buffer (R268). -/
structure BtbEntry where
  tag : Nat
  target : Word
  count : Nat
  deriving DecidableEq, Repr

/-- A processor position: a barrel thread, a lane-core position or the control processor. -/
structure CoreSt where
  ctx : Ctx
  ckpt : Option Ctx                -- checkpoint context (R357)
  undo : List (Nat × Nat × Word)   -- (address, bytes, old value), newest first
  side : List SideWrite            -- oldest first
  taken : List Nat                 -- locks acquired since the checkpoint, by lock key
  work : Option Nat                -- local index of the tenant whose work is in progress (R357)
  mism : Nat                       -- mismatches since the last verified checkpoint (R360)
  bistEnd : Option Nat             -- end of the pair's BIST (R360)
  frozen : Bool                    -- thread frozen (R362)
  failed : Bool                    -- core stopped as a core fault (R280) or by a checker (R361)
  faultTurn : Option Nat           -- turn of the fault of a FAULTED thread (R221)
  issueAt : Nat                    -- first turn of a thread at which its next word may issue (R205, R211)
  owed : Nat                       -- turns of its own that the word before still counts from there (R205)
  stopAt : Option Nat              -- turn from which a STOP takes effect at a boundary (R211)
  long : Option Ctx                -- context before the multiply or divide that a thread is counting (R254, R277)
  risen : Bool                     -- the thread's armed alarm has risen (R218)
  alarm : Option Nat               -- armed thread alarm (R218) or core timer (R384)
  vline : List Byte                -- vector line register (R274)
  btb : Tab BtbEntry
  stack : List (Nat × Nat)         -- (level, source), top first (R380)
  prev : Option (Word × Word)      -- address and word of the last word a lane core issued, as a first of a pair (R265)
  deriving DecidableEq, Repr

/-- A logical cluster's control state beyond its registers; index 16 is the control processor's. -/
structure ClusterSt where
  applyAt : Option Nat             -- an apply requested; the first tick number it may take effect at (R206)
  greedyAt : Option (Nat × Bool)   -- turn from which greedy mode is as given (R209)
  lines : List (Word × List Byte)  -- line buffer, least recently used last (R267)
  lastDone : Nat                   -- turn of the last done mark of the frame in progress (R51)
  held : List HeldAcc              -- accesses that a handover holds, oldest first (R34)
  frameHold : List Nat             -- router channels whose events a handover holds (R394)
  coming : List (Nat × Nat)        -- occurrences of the router's consumers in the turns to come: turn, source (R390, R391)
  commits : Nat × List Nat         -- the last turn in which deliveries committed, and their sources (R379)
  grpPend : List (Nat × Nat × Bool) -- group actions of the router: turn, group, enable (R392)
  fired : List (Nat × Nat)         -- channels that have an event in this turn or a later one: turn, channel (R389)
  deriving DecidableEq, Repr

end Sys2Proof.Machine
end

