-- ==== Sys2Proof/Machine/LinkState.lean ====
section
/-! DEFINITION. The state of the movers and of the arbiters (spec/12_transfer_engines_and_arbitration.md) and of the
Draren ports and the group (spec/13_draren_chain_and_groups.md). -/

namespace Sys2Proof.Machine

/-- A transfer descriptor (R315). -/
structure Desc where
  tenant : Nat
  gen : Nat
  op : Nat
  flags : Nat
  next : Nat
  src : Nat
  dst : Nat
  len : Nat
  spaces : Nat
  pad : Nat                        -- bytes 29–31
  deriving DecidableEq, Repr

/-- A transfer in flight, or a tag held after FENCED (R312–R321). -/
structure Xfer where
  stage : Nat                      -- 0 ACCEPT, 1 READ, 2 WRITE, 3 COMPLETE
  desc : Desc
  order : Nat                      -- order of submission
  data : List Byte                 -- source bytes read and not yet written
  read : Nat
  moved : Nat
  reads : Nat                      -- reads of host memory or the journal outstanding
  readAt : Option Nat              -- turn of the oldest outstanding host read (R424)
  flush : Nat                      -- flush marker of a member's host writes: 1 sent, 2 returned (R342)
  status : Option Nat              -- the status it ends with
  held : Bool                      -- tag held after FENCED
  deriving DecidableEq, Repr

/-- One port of an arbitration (R323): its number, tag, what is owed to it and its counter d. -/
structure ArbPort where
  port : Nat
  n : Nat
  owed : Nat
  d : Int
  deriving DecidableEq, Repr

/-- An arbitration at one target: the latched ports, the grants given this period, and each port's requester chosen
last. -/
structure ArbSt where
  ports : List ArbPort
  grants : List Nat                -- ports granted in the last period, in order
  last : Tab Nat
  deriving DecidableEq, Repr

/-- A Draren frame as sent or kept for replay (R330, R333). -/
structure OutFrame where
  type : Nat
  routed : Bool
  dst : Nat
  seq : Nat
  payload : List Byte
  deriving DecidableEq, Repr

/-- One Draren port (R328–R333, R344). -/
structure DrnSt where
  txSeq : Nat
  rxSeq : Nat                      -- next sequence number expected
  replay : List OutFrame           -- sent and not acknowledged, oldest first
  lastValid : Option Nat           -- turn the last valid frame ended, while the link is up (R332)
  swapEnd : Option Nat             -- end bound of a lane swap
  retryAt : Option Nat             -- training restarts then (R329 step 5)
  good : Nat                       -- lanes good at the settled rate, a bit set
  order : List Nat                 -- lanes in position order
  beat : Option Nat                -- turn of the last frame sent (R332)
  replayReq : Bool                 -- the receiver has asked for replay
  trained : Bool                   -- the port has trained since reset (R335, R341)
  caps : Nat × Nat × Nat           -- capacity below the port (R340)
  deriving DecidableEq, Repr

/-- The head's record of a seat (R339, R348). -/
structure Seat where
  seat : Nat
  serial : Nat
  epoch : Nat                      -- admission epoch
  occupied : Bool
  admitAt : Option Nat             -- admission tick A
  deriving DecidableEq, Repr

/-- Group state of this chip (R335–R349). -/
structure GroupSt where
  headSerial : Nat                 -- HEAD_SERIAL taken from ADDRESS
  lastHead : Nat                   -- HEAD_SERIAL held at the last admission
  seats : List Seat                -- at the head
  admitTick : Option Nat           -- this chip's admission tick A
  admitConf : List Byte            -- ADMIT and the configuration entries that followed it (log entry 33)
  conf : List (Nat × Nat × List Byte) -- at the head: configuration entries by seat index, oldest first: code and data (R339)
  sentConf : Option (Nat × Nat × List Byte) -- a configuration command that another chip is asked to run: seat index, code, data
  lastImage : List Byte            -- an image that ADMIT entries have brought so far (R339)
  heard : List Byte                -- payload of the last TICK received (R345)
  tickFrame : Option Nat           -- FRAME of the last TICK received
  lastTick : List Byte             -- payload of the last TICK sent (R346)
  caps : Nat × Nat × Nat           -- this subtree's capacity last sent
  totalVfs : Nat                   -- R341
  electedAt : Option Nat           -- turn of this chip's election as head (R335, R341)
  uDisabled : Bool                 -- U disabled until the next reset (R335)
  inQueue : List (Nat × List Byte) -- QUEUE entries received: (tick to hand at, entry)
  hostWrites : List (List Byte)    -- host-memory requests forwarded for members (R342)
  fwd : List (Nat × Bool)           -- forwarded administration commands: inbound index, taken (R341)
  farOut : List (Nat × OutMsg)     -- outputs sent to ports of other chips, with the tick they enter the FIFO (R343, R348)
  farLost : List Nat               -- seat indexes of chips that dropped out (R348)
  outItems : List (Nat × HItem)    -- items of this chip's ports for tenants of other chips (R343)
  farGen : Tab Nat                 -- newest generation seen of a tenant of another chip (R92)
  deriving DecidableEq, Repr

end Sys2Proof.Machine
end

