-- ==== Sys2Proof/Machine/GuardState.lean ====
section
/-! DEFINITION. The state of the fault block (spec/14_fault_tolerance.md), of the hold-off windows
(spec/15_interrupts_and_event_routing.md), of the power block (spec/16_power_reset_and_crossings.md) and of the host
link, management port, boot and test access port (spec/17_host_link_management_and_boot.md). -/

namespace Sys2Proof.Machine

/-- A castling: unit (0 cluster, 1 lane core, 2 control-processor core), reason (R375), logical cluster, position. -/
structure CastReq where
  unit : Nat
  reason : Nat
  cluster : Nat
  pos : Nat
  deriving DecidableEq, Repr

/-- A cluster castling in its handover (R367): the request, the physical clusters, its sequence number, tick turn and
frame, and whether the image's header stood at capture. -/
structure CastRun where
  req : CastReq
  old : Nat
  new : Nat
  seq : Nat
  turn : Nat
  frame : Nat
  epoch : Nat
  deriving DecidableEq, Repr

/-- The fault block beyond its registers. -/
structure GuardSt where
  faults : List (List Byte)        -- FAULT records written, newest first (R374)
  run : Option CastRun
  reqs : List CastReq              -- waiting, oldest first; taken by reason (R369)
  rotAt : Nat                      -- turn of the last visit or retest (R371)
  rotStep : Nat                    -- step of the visit in progress (R371), 0 = none
  rotCl : Nat                      -- logical cluster of the visit
  retest : Option Nat              -- physical cluster being retested while OUT
  outAt : Option Nat               -- turn the reserve became OUT (R353)
  scrubAt : Option Nat             -- turn the oldest last pass completed (R365)
  passCorr : List Word             -- addresses corrected in the previous pass (R364)
  spareCommons : Nat               -- spare words used
  spareCluster : Tab Nat           -- spare words used by physical cluster
  cpMism : Nat                     -- mismatches of the control-processor pair since its checkpoint
  deriving DecidableEq, Repr

/-- A latched wake event (R409): source, index, calendar value. -/
structure WakeEv where
  source : Nat
  index : Nat
  cal : Nat
  deriving DecidableEq, Repr

/-- Power state of one logical cluster (R400–R406). -/
structure PwrCl where
  darkReq : Bool                   -- dark request accepted, tick T not yet reached
  darkTick : Option Nat            -- turn of tick T
  wake : Option Nat                -- first wake source (R402)
  latched : Option Nat             -- wake request latched in ENTERING
  reset : Bool                     -- cluster reset released (R403)
  wokeBell : Option Nat            -- tenant whose doorbell started the wake
  hist : List (Nat × Bool)         -- (MARGIN, overrun) of the latest frames, newest first (R404)
  saved : List (Nat × Word)        -- slot tables and interrupt configuration that a wake restores (R403)
  deriving DecidableEq, Repr

/-- The power block beyond its registers. -/
structure PowerSt where
  cl : Tab PwrCl
  e0 : Option Nat                  -- turn E0 of an entry under way (R407)
  wakes : List WakeEv              -- events latched since E0, oldest first
  exiting : Bool                   -- an exit is under way (R410)
  shutdown : List Nat              -- root ports that have not reported shutdown complete (R408)
  shutAt : Option Nat              -- turn at which they were given the notification
  released : Bool                  -- RESET_N and the power-on condition are released (R414)
  deep : Bool                      -- the chip domain is off (R407)
  deriving DecidableEq, Repr

/-- A root port (R426). -/
structure RootPort where
  present : Bool
  perst : Bool                     -- PERST# driven low
  up : Bool
  since : Nat                      -- turn of the last change
  deriving DecidableEq, Repr

/-- The endpoint, management port, OTP counter and test access port. -/
structure HostSt where
  vfEnable : Bool
  numVfs : Nat
  svn : Nat                        -- anti-rollback counter
  slot : Nat                       -- physical slot that the active window shows (R432)
  nextSlot : Option Nat            -- slot the next boot selects, while not the active one (R435)
  mgmt : Option (Nat × List Byte)  -- last accepted management command and its reply (R427)
  mgmtSubs : List (Nat × Bool)     -- ADMIN_SUBMIT slots not yet answered: inbound index, taken (R428)
  mgmtResp : List Slot             -- responses kept for the port, oldest first (R428)
  rp : Vector RootPort 4           -- the root ports
  tap : Nat                        -- instruction register (R439)
  preload : List (Nat × Bool)      -- boundary register: lane pads 0–1023, LDRVc at 1024 + c
  scan : Bool                      -- the pads follow the boundary register (R440)
  scanLc : List (Nat × Bool)       -- levels it drives on the load-channel drive pads, key 1024 + channel
  msix : List (Nat × Nat)          -- messages issued: (function, vector), newest first (R301)
  aer : List (Nat × Nat)           -- errors reported: (function, kind), newest first (R424)
  cpRun : Bool                     -- the control processor is released (R434)
  cpEntry : Word
  deriving DecidableEq, Repr

/-- An administration command whose response waits (R307): command code, tag, what it waits for. -/
structure AdmPend where
  op : Nat
  tag : BitVec 16
  key : Nat                        -- the tenant, cluster, port, channel or address it waits for
  drop : Bool                      -- its response is discarded (R423)
  deriving DecidableEq, Repr

end Sys2Proof.Machine
end

