-- ==== Sys2Proof/Machine/Regs.lean ====
section
/-! DEFINITION. The register map: every register of the spec with its key, its reset value and its fields with their
access codes (R14), from the register tables of spec/*.md. One bank holds all of them: a register of the internal map
stands under its address; a register that is private to a core, or that each core sees as its own, stands under
`privK`; a mailbox page register stands under `pageK`. -/

namespace Sys2Proof.Machine

/-- Field access codes (R14); a bit no field lists is RSV. -/
inductive Acc where
  | rw | ro | w1c | w1s | wo
  deriving DecidableEq, Repr

/-- A field: its bits, its access code and the encodings a write may store; another leaves the field (R17, R20). -/
structure Fd where
  hi : Nat
  lo : Nat
  acc : Acc
  vmin : Nat := 0
  vmax : Nat := 0xFFFFFFFF
  deriving DecidableEq, Repr

/-- A row of the register map: `count` registers from key `base`, `stride` apart, with their reset values. -/
structure RegRow where
  base : Nat
  stride : Nat
  count : Nat
  reset : Nat
  fields : List Fd
  deriving DecidableEq, Repr

/-- Key of the register at `off` of logical cluster `n`'s register window (R30). -/
def winK (n off : Nat) : Nat := 0x20000000 + n * 0x01000000 + 0x00800000 + off

/-- Key of the register at `off` that core `i` sees as its own (R274, R384, and the self-relative registers of R218,
R223 and R228). -/
def privK (i off : Nat) : Nat := 0x100000000 + i * 0x1000 + off

/-- Key of the register at `off` of mailbox page `p` (R288, R289). -/
def pageK (p off : Nat) : Nat := 0x200000000 + p * 0x10000 + off

def rw (hi lo : Nat) : Fd := { hi := hi, lo := lo, acc := .rw }
def rwR (hi lo a b : Nat) : Fd := { hi := hi, lo := lo, acc := .rw, vmin := a, vmax := b }
def ro (hi lo : Nat) : Fd := { hi := hi, lo := lo, acc := .ro }
def w1c (hi lo : Nat) : Fd := { hi := hi, lo := lo, acc := .w1c }
def w1s (hi lo : Nat) : Fd := { hi := hi, lo := lo, acc := .w1s }
def wo (hi lo : Nat) : Fd := { hi := hi, lo := lo, acc := .wo }

def rg (base reset : Nat) (fields : List Fd) : RegRow :=
  { base := base, stride := 4, count := 1, reset := reset, fields := fields }
def rgs (base stride count reset : Nat) (fields : List Fd) : RegRow :=
  { base := base, stride := stride, count := count, reset := reset, fields := fields }

/-- Journal block (R201, R202). JNL_PUBKEY comes from OTP and is computed where it is read. -/
def rowsJnl : List RegRow :=
  [rg 0x40000000 0 [wo 4 4, rw 3 3, rw 2 2, rw 0 0],
   rg 0x40000004 0 [w1c 6 6, w1c 5 5, w1c 4 4, ro 3 3, ro 2 2, ro 1 1, ro 0 0],
   rg 0x40000008 0 [ro 31 0], rg 0x4000000C 0 [ro 15 0],
   rg 0x40000010 0 [rw 31 0], rg 0x40000014 0 [rw 15 0],
   rg 0x40000018 0 [ro 31 0], rg 0x4000001C 0 [ro 31 0],
   rg 0x40000020 0 [ro 31 0], rg 0x40000024 0 [ro 23 0],
   rgs 0x40000030 4 4 0 [rw 31 0], rgs 0x40000040 4 16 0 [ro 31 0],
   rgs 0x40000100 16 16 0 [rw 31 0], rgs 0x40000104 16 16 0 [rw 31 0],
   rgs 0x40000108 16 16 0 [rw 11 11, ro 10 10, ro 9 8, rw 7 4, rw 3 3, rw 2 1, rw 0 0]]

/-- Fabric block (R326, R327). The chip locks at 0x4100_1000 have their own access rule. -/
def rowsFab : List RegRow :=
  [rgs 0x41000000 0x100 4 0 [wo 11 0],
   rgs 0x41000004 0x100 4 0 [ro 28 16, ro 12 0],
   rgs 0x41000008 0x100 4 0 [ro 31 0],
   rgs 0x4100000C 0x100 4 0 [w1c 0 0, w1c 1 1, w1c 2 2, w1c 3 3],
   rgs 0x41000800 4 16 0 [ro 31 0],
   rg 0x41001400 0 [wo 8 8, wo 7 0],
   rg 0x41002000 0x1111 [rwR 15 12 1 15, rwR 11 8 1 15, rwR 7 4 1 15, rwR 3 0 1 15]]

/-- Draren block (R349, R350). -/
def rowsDrn : List RegRow :=
  [rgs 0x42000000 0x100 3 0x0F31 [wo 12 12, rwR 11 8 1 15, rwR 5 4 1 3, rw 0 0],
   rgs 0x42000004 0x100 3 0 [w1c 25 25, w1c 24 24, ro 20 16, ro 15 12, ro 11 8, ro 5 4, ro 1 0],
   rgs 0x42000008 0x100 3 0 [ro 23 0],
   rgs 0x4200000C 0x100 3 0 [ro 31 16, ro 15 0],
   rg 0x42000400 0 [ro 31 31, ro 30 30, ro 24 16, ro 15 0],
   rg 0x42000404 0 [ro 31 0], rg 0x42000408 0 [ro 31 0],
   rg 0x4200040C 0 [ro 13 13, ro 12 12, ro 8 0]]

/-- Time block (R43–R64). -/
def rowsTime : List RegRow :=
  [rg 0x45000000 0 [w1c 2 2, ro 1 1, ro 0 0],
   rg 0x45000010 0x00080190 [rw 23 16, rwR 11 0 200 4000],
   rg 0x45000014 0x190 [ro 14 14, ro 13 13, w1c 12 12, ro 11 0],
   rg 0x45000018 0 [ro 31 0], rg 0x4500001C 0 [ro 31 0],
   rg 0x45000020 0 [ro 31 0], rg 0x45000024 0 [ro 31 0],
   rg 0x45000028 0 [ro 16 0],
   rg 0x45000040 0 [ro 31 0], rg 0x45000044 0 [ro 15 0], rg 0x45000048 0 [ro 15 0],
   rg 0x45000050 0 [rw 31 0], rg 0x45000054 0 [rw 15 0], rg 0x45000058 0 [rw 15 0],
   rg 0x45000060 0 [rw 31 0], rg 0x45000064 0 [rw 15 0], rg 0x45000068 0 [rw 15 0],
   rg 0x4500006C 0 [rw 15 0],
   rg 0x45000070 0 [rw 1 1, wo 0 0],
   rg 0x45000074 0 [ro 3 3, w1c 2 2, ro 1 1, ro 0 0],
   rgs 0x45000400 4 256 0 [w1c 31 31, ro 30 30, ro 23 8, ro 7 0]]

/-- Fault and castling block (R34, R35, R353, R365, R371, R376). -/
def rowsFault : List RegRow :=
  [rg 0x46000000 0 [ro 31 31, ro 8 8, ro 6 6, ro 5 5, ro 4 4, ro 3 3, ro 2 2, ro 1 1, ro 0 0],
   rg 0x46000004 0x80000E10 [rw 31 31, rw 27 24, rwR 23 0 60 86400],
   rg 0x46000008 0 [wo 31 31, wo 17 16, wo 11 8, wo 2 0],
   rg 0x4600000C 0 [ro 31 31, w1c 30 30, w1c 29 29, ro 28 16],
   rg 0x46000010 0 [ro 31 0], rg 0x46000014 0 [ro 31 0], rg 0x46000018 0 [ro 31 0],
   rg 0x46000020 1 [rwR 2 0 1 4],
   rg 0x46000024 0 [ro 31 16, ro 15 0],
   rg 0x46000028 0 [ro 31 0], rg 0x4600002C 0 [ro 31 0],
   rg 0x46000040 0x03020100 [ro 28 24, ro 20 16, ro 12 8, ro 4 0],
   rg 0x46000044 0x07060504 [ro 28 24, ro 20 16, ro 12 8, ro 4 0],
   rg 0x46000048 0x0B0A0908 [ro 28 24, ro 20 16, ro 12 8, ro 4 0],
   rg 0x4600004C 0x0F0E0D0C [ro 28 24, ro 20 16, ro 12 8, ro 4 0],
   rg 0x46000050 0x001F0010 [ro 20 16, ro 9 8, ro 4 0],
   rgs 0x46000080 4 17 0x00043210 [ro 28 24, ro 18 16, ro 14 0],
   rg 0x460000D0 0x210 [ro 14 12, ro 9 8, ro 5 4, ro 1 0]]

/-- Power block and sentry (R398, R418). -/
def rowsPwr : List RegRow :=
  [rg 0x47000000 0 [ro 2 0],
   rg 0x47000010 0x8000050F [rw 31 31, rwR 15 8 1 20, rwR 7 0 5 50],
   rg 0x47000020 0 [ro 3 0],
   rg 0x47000024 0 [wo 15 8, wo 0 0],
   rg 0x47000030 0 [ro 17 17, ro 16 16, ro 15 8, ro 3 0],
   rg 0x47000034 0 [ro 31 0], rg 0x47000038 0 [ro 15 0], rg 0x4700003C 0 [ro 15 0],
   rg 0x47000040 0 [rw 0 0], rg 0x47000044 0 [rw 6 0],
   rgs 0x47000100 4 16 2 [ro 22 16, ro 1 0],
   rgs 0x47000200 4 16 0x5A [rwR 6 0 55 90],
   rgs 0x47000300 4 16 0 [ro 31 20, ro 19 8, ro 7 0],
   rgs 0x47000400 4 24 0 [ro 31 31, ro 23 0],
   rgs 0x47000800 4 16 0 [rw 31 31, rw 30 30, rw 29 29, rw 27 24, rw 17 16, rw 9 0],
   rg 0x47000840 0 [rw 0 0],
   rg 0x47000844 0 [w1c 15 0, w1c 16 16]]

/-- Mailbox block registers outside the pages (R67). -/
def rowsMbx : List RegRow :=
  [rgs 0x4800C000 4 256 0 [ro 31 16, ro 8 8, ro 2 0],
   rg 0x4800C400 0 [wo 8 8, wo 7 0]]

/-- Load-channel block (R174). -/
def rowsLc : List RegRow :=
  [rgs 0x49000000 0x80 128 0x00640004 [rwR 27 16 1 4095, rw 3 3, rw 2 2, rw 1 1, rw 0 0],
   rgs 0x49000004 0x80 128 0x0000FFFF [rw 27 24, rw 23 16, rw 15 8, rw 7 0],
   rgs 0x49000008 0x80 128 0x00080A00 [rw 23 16, rwR 15 8 1 255, rwR 7 0 0 239],
   rgs 0x4900000C 0x80 128 0 [wo 27 16, wo 15 4, wo 3 0],
   rgs 0x49000010 0x80 128 0
     [ro 23 22, ro 20 20, w1c 19 19, w1c 18 18, w1c 17 17, w1c 16 16, ro 15 12, ro 10 8, ro 2 0],
   rgs 0x4900003C 0x80 128 0 [rw 3 0]] ++
  (List.range 16).map (fun i => rgs (0x49000040 + 4 * i) 0x80 128 0 [rw 23 16, rw 15 0]) ++
  [rgs 0x49004000 0x10 16 0x30000000 [rwR 31 28 1 15, rw 27 16, rw 15 8, rw 7 0],
   rgs 0x49004004 0x10 16 0x0000FF00 [ro 23 16, ro 15 8, w1c 1 1, ro 0 0]]

/-- Device, boot and code-store control (R3, R388, R441, R449). The values from grade, boot and OTP are computed. -/
def rowsDev : List RegRow :=
  [rg 0x4A000000 0 [ro 31 16, ro 15 12, ro 7 4, ro 3 0],
   rg 0x4A000004 0 [ro 0 0, ro 1 1, ro 2 2, ro 3 3, ro 4 4, ro 5 5],
   rg 0x4A000008 0 [ro 0 0, ro 1 1, ro 15 8],
   rg 0x4A000010 0x3A [rwR 6 0 0x08 0x77, rw 8 8],
   rg 0x4A000014 0 [ro 5 0],
   rg 0x4A000018 0xF [w1c 11 11, w1c 10 10, w1c 9 9, w1c 8 8, ro 3 3, ro 2 2, ro 1 1, ro 0 0]]

/-- Interrupt controller registers at `b` (R385): a cluster's at window offset 0x4000, the control processor's at
0x4A00_1000 (R388). -/
def rowsIc (b : Nat) : List RegRow :=
  [rgs b 4 64 0 [rw 31 31, rw 19 16, rw 10 8, rw 2 0],
   rgs (b + 0x100) 4 8 0 [ro 31 31, rw 15 0],
   rg (b + 0x180) 0 [w1c 31 0], rg (b + 0x184) 0 [w1c 31 0],
   rg (b + 0x188) 0 [wo 31 0], rg (b + 0x18C) 0 [wo 31 0],
   rg (b + 0x190) 0 [w1c 31 0], rg (b + 0x194) 0 [w1c 31 0],
   rg (b + 0x198) 0 [ro 31 0], rg (b + 0x19C) 0 [ro 31 0]]

/-- A logical cluster's register window, keyed by offset (R51, R207, R211, R221, R269, R274, R296, R354, R357, R360,
R395, R418); THR_CTX (R287) and the locks (R216) have their own access rules. -/
def rowsWin : List RegRow :=
  [rg 0x0000 0x76543210 [ro 31 0], rg 0x0004 0x3210BA98 [ro 31 0], rg 0x0008 0xBA987654 [ro 31 0],
   rg 0x0010 0x76543210 [rw 31 0], rg 0x0014 0x3210BA98 [rw 31 0], rg 0x0018 0xBA987654 [rw 31 0],
   rg 0x001C 0 [ro 16 16, rwR 15 12 0 11, rw 8 8, w1c 2 2, w1c 1 1, wo 0 0],
   rg 0x0020 0 [w1c 11 1],
   rg 0x0100 0 [wo 3 0],
   rg 0x0104 0 [ro 31 24, ro 16 0],
   rg 0x0120 0 [ro 31 0], rg 0x0124 0 [ro 31 0],
   rg 0x0140 0 [wo 11 8, wo 5 0],
   rg 0x0150 0 [ro 9 9, ro 8 8, rw 1 1, rw 0 0],
   rg 0x0154 0 [wo 3 0],
   rg 0x0158 0 [ro 31 24, ro 23 16, ro 15 8, ro 7 0],
   rg 0x0160 0 [ro 11 8, ro 0 0],
   rgs 0x0200 0x20 12 0 [ro 10 8, wo 2 0],
   rgs 0x0204 0x20 12 0x8000 [rw 15 0],
   rgs 0x0208 0x20 12 0x8004 [rw 15 0],
   rgs 0x0210 0x20 12 0 [ro 31 16, ro 9 9, ro 8 8, ro 7 0],
   rgs 0x0214 0x20 12 0 [ro 31 0], rgs 0x0218 0x20 12 0 [ro 31 0], rgs 0x021C 0x20 12 0 [ro 31 0],
   rg 0x0500 0 [wo 5 0],
   rgs 0x0800 4 96 0 [rw 31 31, rw 27 16, rw 12 10, rw 9 0],
   rgs 0x2000 0x40 64 0x00010104
     [rw 31 24, rwR 23 20 0 11, rw 17 16, rw 11 10, rwR 9 8 0 2, rw 3 3, rw 2 2, rwR 1 0 0 2],
   rgs 0x2004 0x40 64 0 [ro 1 1, rw 0 0],
   rgs 0x2008 0x40 64 0
     [rw 29 24, rw 21 16, rw 14 14, rw 13 13, rw 12 8, rw 7 7, rw 6 6, rw 5 5, rw 4 4, rw 3 3, rwR 2 0 0 5],
   rgs 0x200C 0x40 64 0x00C35000 [rwR 31 8 16 16777215, rw 7 0],
   rgs 0x2010 0x40 64 0 [rw 31 16, rw 15 0],
   rgs 0x2014 0x40 64 0
     [ro 31 24, ro 23 16, w1c 12 12, w1c 11 11, w1c 10 10, w1c 9 9, w1c 8 8, ro 7 7, ro 6 6, ro 5 3, ro 2 0],
   rgs 0x2018 0x40 64 0 [wo 31 0],
   rgs 0x2020 0x40 64 0 [ro 31 0], rgs 0x2024 0x40 64 0 [ro 31 0],
   rgs 0x2028 0x40 64 0 [ro 31 0], rgs 0x202C 0x40 64 0 [ro 31 0], rgs 0x2030 0x40 64 0 [ro 31 0],
   rg 0x3000 0 [rw 1 1, rw 0 0],
   rg 0x3004 0 [ro 4 4, w1c 3 3, ro 2 2, ro 1 1, ro 0 0]] ++
  rowsIc 0x4000 ++
  [rgs 0x5000 8 32 0 [rw 31 31, rw 29 24, rw 21 16, rw 15 14, rw 12 8, rwR 7 6 0 2, rw 5 4, rw 3 2, rw 1 1],
   rgs 0x5004 8 32 0x100 [w1s 31 31, rw 30 30, w1c 29 29, rw 21 16, rwR 8 0 0 0x100],
   rg 0x5100 0xF [rw 3 0],
   rg 0x5104 0 [wo 8 8, wo 4 0],
   rg 0x5108 0 [w1c 0 0]]

/-- Registers a core sees as its own, keyed by offset: the private view (R274, R384) and the self-relative registers
of the cluster window (R218, R228). -/
def rowsPriv : List RegRow :=
  [rg 0x000 0x007F0008 [w1c 31 31, w1c 30 30, ro 22 16, ro 7 4, ro 3 0],
   rg 0x004 8 [rwR 3 0 0 8],
   rg 0x008 0 [wo 31 0], rg 0x00C 0 [wo 2 0],
   rg 0x010 0 [rw 31 0], rg 0x014 0 [rw 31 0],
   rg 0x018 0x7F [ro 10 8, ro 6 0],
   rg 0x020 0 [rw 31 0], rg 0x024 0 [rw 31 0],
   rg 0x600 0 [ro 31 0], rg 0x604 0 [ro 31 0], rg 0x608 0 [ro 31 0], rg 0x60C 0 [ro 31 0],
   rg 0x610 0 [ro 9 0],
   rg 0x614 0 [rw 31 0], rg 0x618 0 [rw 31 0],
   rg 0x700 0 [wo 21 16, wo 11 11, wo 10 10, wo 9 9, wo 8 8, wo 7 0],
   rg 0x704 0 [wo 21 16, wo 2 2, wo 1 1],
   rg 0x708 0 [wo 21 16, wo 3 0],
   rg 0x70C 0x60600000 [ro 31 24, ro 22 16, w1c 8 8, w1c 7 0],
   rg 0x710 0 [wo 8 0],
   rgs 0x720 4 8 0x80000000 [ro 31 31, ro 16 16, ro 8 0],
   rg 0x740 0 [wo 30 28, wo 27 24, wo 16 16, wo 8 0],
   rg 0x744 0 [wo 11 8, wo 6 0],
   rg 0x800 0 [rw 31 8],
   rg 0x804 0 [ro 18 18, ro 17 17, ro 16 16, ro 15 8, ro 7 0],
   rg 0x808 0 [ro 31 0]]

/-- Mailbox page registers, keyed by offset (R289). -/
def rowsPage : List RegRow :=
  [rg 0x0000 0 [ro 31 0],
   rg 0x0004 0 [ro 31 16, ro 9 9, ro 8 8, ro 2 0],
   rg 0x0008 0 [ro 31 16, ro 15 0],
   rg 0x000C 0 [ro 15 0],
   rg 0x0010 0 [rw 15 0],
   rg 0x0014 0 [w1s 31 0], rg 0x0018 0 [rw 31 0],
   rg 0x001C 0 [w1c 31 0], rg 0x0020 0 [rw 31 0],
   rg 0x0024 0 [ro 31 0], rg 0x0028 0 [ro 31 0], rg 0x002C 0 [ro 31 16, ro 15 0],
   rg 0x0030 0 [ro 7 0],
   rgs 0x0100 4 16 0 [wo 31 0],
   rgs 0x0400 4 256 0 [ro 31 0], rgs 0x0800 4 256 0 [ro 31 0],
   rgs 0xF000 16 4 0 [rw 31 2], rgs 0xF004 16 4 0 [rw 31 0], rgs 0xF008 16 4 0 [rw 31 0], rgs 0xF00C 16 4 1 [rw 0 0],
   rg 0xF800 0 [ro 3 0], rg 0xF804 0 []]

/-- The row of a list that holds offset `a`, and the register's index in it. -/
def findRow : List RegRow → Nat → Option (RegRow × Nat)
  | [], _ => none
  | r :: rs, a =>
    if r.base ≤ a ∧ (a - r.base) % r.stride = 0 ∧ (a - r.base) / r.stride < r.count
    then some (r, (a - r.base) / r.stride) else findRow rs a

/-- The register rows of a chip block by bits [31:24] of its address (R462). -/
def rowsChip (top : Nat) : List RegRow :=
  match top with
  | 0x40 => rowsJnl
  | 0x41 => rowsFab
  | 0x42 => rowsDrn
  | 0x45 => rowsTime
  | 0x46 => rowsFault
  | 0x47 => rowsPwr
  | 0x48 => rowsMbx
  | 0x49 => rowsLc
  | 0x4A => rowsDev ++ rowsIc 0x4A001000
  | _ => []

/-- The register under a key. -/
def regRow (key : Nat) : Option (RegRow × Nat) :=
  if key < 0x100000000 then
    let top := key / 0x1000000
    if 0x20 ≤ top ∧ top < 0x30 then
      if key % 0x1000000 / 0x10000 = 0x80 then findRow rowsWin (key % 0x10000) else none
    else findRow (rowsChip top) key
  else if key < 0x200000000 then findRow rowsPriv (key % 0x1000)
  else findRow rowsPage (key % 0x10000)

/-- What a register holds at reset. -/
def regReset (key : Nat) : Word :=
  match regRow key with
  | some (r, _) => BitVec.ofNat 32 r.reset
  | none => 0

/-- A named field of a register: its key and its bits. -/
structure Fld where
  key : Nat
  hi : Nat
  lo : Nat
  deriving DecidableEq, Repr

/-- Bits [hi:lo] of a word, as a number. -/
def bitsOf (w : Word) (hi lo : Nat) : Nat := w.toNat / 2 ^ lo % 2 ^ (hi + 1 - lo)

/-- The word with bits [hi:lo] set to `v` (taken modulo the field's width). -/
def withBits (w : Word) (hi lo v : Nat) : Word :=
  BitVec.ofNat 32 (w.toNat - bitsOf w hi lo * 2 ^ lo + v % 2 ^ (hi + 1 - lo) * 2 ^ lo)

/-- What a software write of `new` leaves of the register word `old` in one field (R14, R17, R20). -/
def writeField (f : Fd) (new : Word) (old : Word) : Word :=
  let v := bitsOf new f.hi f.lo
  match f.acc with
  | .rw => if f.vmin ≤ v ∧ v ≤ f.vmax then withBits old f.hi f.lo v else old
  | .w1c => withBits old f.hi f.lo (bitsOf (old &&& ~~~new) f.hi f.lo)
  | .w1s => withBits old f.hi f.lo (bitsOf (old ||| new) f.hi f.lo)
  | .ro | .wo => old

/-- What a software write leaves of a register word (R14, R17). -/
def writeFields (fs : List Fd) (new old : Word) : Word :=
  fs.foldl (fun w f => writeField f new w) old

/-- Two's-complement value of the low `n` bits of a number. -/
def signedOf (n v : Nat) : Int :=
  let m := v % 2 ^ n
  if m < 2 ^ (n - 1) then (m : Int) else (m : Int) - (2 ^ n : Nat)

/-- Increase, saturating at `cap`. -/
def satAdd (cap a b : Nat) : Nat := if a + b ≤ cap then a + b else cap

end Sys2Proof.Machine
end

