-- ==== Sys2Proof/Machine/State.lean ====
section
/-! DEFINITION. The state of the block: the queue of waiting commands, the register bank, the addressed memories and
the state of each unit, as plain data; the reasons a step can stop; and the state right after reset. -/

namespace Sys2Proof.Machine

/-- The state of the block. -/
structure State where
  /-- Commands that wait, first in, first out. -/
  pending : List Instr
  /-- Every register of the map (Regs.lean), canonical over `regReset`. -/
  regs : Tab Word
  /-- Bytes of the code store, the commons and the cluster SRAMs; an unlisted address reads 0 (log entry 5). -/
  mem : List Host.Cell
  time : TimeSt
  cal : CalSt
  tenants : Tab TenantSt           -- by tenant
  devices : Tab DeviceSt           -- by 16 × tenant + device
  ports : Tab PortSt
  images : Tab ImageSt             -- personality images by table slot (R129)
  pads : Tab PadSt
  pgOn : Tab Bool                  -- pad groups released from the hold of R135
  fifos : Tab FifoSt               -- by 12 × cluster + thread
  chans : Tab ChanSt
  lgroups : Tab LGroupSt
  journal : JournalSt
  clusters : Tab ClusterSt         -- by logical cluster; 16: the control processor
  cores : Tab CoreSt               -- by core index (coreIx)
  locks : Tab LockSt               -- key 64 × cluster + lock; chip lock l at 0x10000 + l (R214, R326)
  remote : List (Nat × Nat × Nat × Crossing)  -- remote-port queues: (from, to, frame, entry), oldest first (R309)
  delayed : List (Nat × Nat × Crossing)       -- entries that did not fit (R310)
  xfers : Tab Xfer                 -- by global tag
  xferNext : Nat                   -- order of the next submission (R313)
  arbs : Tab ArbSt
  links : Tab DrnSt                -- by port, U 0, D0 1, D1 2
  group : GroupSt
  guard : GuardSt
  holds : Tab Nat                  -- ends of open hold-off windows, by 8 × controller + group (R383)
  power : PowerSt
  host : HostSt
  admin : Option AdmPend           -- the administration command whose response waits (R307)
  hot : Tab (Nat × Word)           -- by register: W1C bits set and W1S bits cleared by hardware, and in which turn (R15)
  /-- The MODEL's own counter for free values (log entry 6). -/
  fresh : Nat
  deriving DecidableEq, Repr

/-- Reasons for which the machine could stop with a fault. No meaning of this model raises one: what the spec calls a
fault or an error is a change of State. The type has the one constructor that the outcome of a malformed machine word
would need. -/
inductive Fault where
  /-- Raised by nobody: every command has an effect on every state (safe: the type is inhabited and never used). -/
  | halted
  deriving DecidableEq, Repr

/-- Reasons for which a command is refused. -/
inductive Refusal where
  /-- Raised by Dispatch.lean alone, for a command whose meaning is not written yet (safe: nothing is claimed of it). -/
  | notModelled (mnemonic : String)
  deriving DecidableEq, Repr

/-- Outcome of one command. -/
abbrev Outcome := Host.Outcome State Fault Refusal

/-- An empty segment: the one that is open from reset on (R180, R201: records are accepted from reset). -/
def Seg.first : Seg :=
  { seq := 0, jaddr := 0x10000, openTurn := 0,
    openStamp := { cal := 0, frame := 0, turn := 0, hold := false, stale := true },
    closeTurn := 0, closeStamp := { cal := 0, frame := 0, turn := 0, hold := false, stale := true },
    close := 0, loss := 0, epoch := 0, seat := 0, lenRounds := 400, recs := [], ext := [], raw := 0,
    chain := none, members := [], header := none }

/-- A root port at reset: PERST# held low (R426). -/
def RootPort.first : RootPort := { present := true, perst := true, up := false, since := 0 }

/-- The machine right after a power-on reset, before any command: turn 0 of frame 0, nothing locked (R33, R42, R63,
R210, R400, R414). -/
def State.reset : State :=
  { pending := []
    regs := []
    mem := []
    time := { turn := 0, cur := { frame := 0, start := 0, rounds := 400, cal := 0, hold := false, stale := true },
              past := [], pendLen := none, fcHi := [], taHi := [] }
    cal := { val := 0, acc := 0, step := none, stepTag := none, latch := [] }
    tenants := []
    devices := []
    ports := []
    images := []
    pads := []
    pgOn := []
    fifos := []
    chans := []
    lgroups := []
    journal := { openSeg := some Seg.first, closed := [], committed := [], runs := [], prevDigest := [], stage := 0,
                 gap := none, traces := [], anchors := [],
                 seekTag := none, archLo := 0, wptr := 0, arch := 0, seq := 0, chains := [], waiting := [], flight := [],
                 latchW := [], latchS := [] }
    clusters := []
    cores := []
    locks := []
    remote := []
    delayed := []
    xfers := []
    xferNext := 0
    arbs := []
    links := []
    group := { headSerial := 0, lastHead := 0, seats := [], admitTick := none, admitConf := [], conf := [], sentConf := none, lastImage := [], heard := [], tickFrame := none,
               lastTick := [], caps := (0, 0, 0), totalVfs := 256, electedAt := none, uDisabled := false, inQueue := [],
               hostWrites := [], fwd := [], farOut := [], farLost := [], outItems := [], farGen := [] }
    guard := { faults := [], run := none, reqs := [], rotAt := 0, rotStep := 0, rotCl := 0, retest := none, outAt := none,
               scrubAt := none, passCorr := [], spareCommons := 0, spareCluster := [], cpMism := 0 }
    holds := []
    power := { cl := [], e0 := none, wakes := [], exiting := false, shutdown := [], shutAt := none, released := false, deep := false }
    host := { vfEnable := false, numVfs := 0, svn := Config.otpSvn.toNat, slot := 0, nextSlot := none, mgmt := none,
              mgmtSubs := [], mgmtResp := [], rp := Vector.replicate 4 RootPort.first,
              tap := 1, preload := [], scan := false, scanLc := [], msix := [], aer := [], cpRun := false, cpEntry := 0 }
    admin := none
    hot := []
    fresh := 0 }

end Sys2Proof.Machine
end

