-- ==== Sys2Proof/Machine/Ops.lean ====
section
/-! DEFINITION. The named operations over the state that every family uses: registers and their fields, memory bytes,
time and stamps, and the accessors of the unit tables with what an unlisted unit reads as. -/

namespace Sys2Proof.Machine

/-! ### Byte strings (R10: least significant byte first) -/

/-- A number as `n` bytes, least significant first. -/
def le : Nat → Nat → List Byte
  | 0, _ => []
  | n + 1, v => BitVec.ofNat 8 v :: le n (v / 256)

/-- The number that bytes hold, least significant first. -/
def ofLe : List Byte → Nat
  | [] => 0
  | b :: bs => b.toNat + 256 * ofLe bs

/-- Bytes `lo`, …, `lo + n - 1` of a string; a byte beyond its end counts as absent. -/
def slice (bs : List Byte) (lo n : Nat) : List Byte := (bs.drop lo).take n

/-- Bytes lo … lo + n - 1 are 0. -/
def zeroAt (img : List Byte) (lo n : Nat) : Bool := (slice img lo n).all (fun b => b = 0)

/-- The `n`-byte number at offset `lo`. -/
def leAt (bs : List Byte) (lo n : Nat) : Nat := ofLe (slice bs lo n)

/-- A string cut or padded with zero bytes to `n` bytes. -/
def padTo (n : Nat) (bs : List Byte) : List Byte := bs.take n ++ List.replicate (n - bs.length) 0

/-- A string with the bytes from `lo` on replaced. -/
def patch (bs : List Byte) (lo : Nat) (new : List Byte) : List Byte :=
  bs.take lo ++ new ++ bs.drop (lo + new.length)

/-- Element `i` of a list, or a default. -/
def nth {α : Type} (d : α) : List α → Nat → α
  | [], _ => d
  | x :: _, 0 => x
  | _ :: xs, i + 1 => nth d xs i

/-- Byte `i` of an image as a number. -/
def imgB (img : List Byte) (i : Nat) : Nat := (nth 0 img i).toNat

/-- A list with element `i` replaced. -/
def setNth {α : Type} : List α → Nat → α → List α
  | [], _, _ => []
  | _ :: xs, 0, v => v :: xs
  | x :: xs, i + 1, v => x :: setNth xs i v

/-- Apply a state change for each element of a list, in order. -/
def each {α : Type} (xs : List α) (f : α → State → State) (s : State) : State :=
  xs.foldl (fun s x => f x s) s

/-- Turn an outcome-free effect into the outcome of a command. -/
def done (s : State) : Outcome := .next s

/-! ### Registers -/

/-- A register word (R14): what the bank lists, or its reset value. -/
def reg (s : State) (key : Nat) : Word := Tab.getD s.regs key (regReset key)

/-- Set a register word. -/
def setReg (key : Nat) (w : Word) (s : State) : State :=
  { s with regs := Tab.store s.regs key (regReset key) w }

/-- A field's value. -/
def getF (s : State) (f : Fld) : Nat := bitsOf (reg s f.key) f.hi f.lo

/-- Set a field. -/
def setF (f : Fld) (v : Nat) (s : State) : State := setReg f.key (withBits (reg s f.key) f.hi f.lo v) s

/-- A field is not 0. -/
def isSet (s : State) (f : Fld) : Bool := getF s f ≠ 0

/-- Increase a field, saturating at its greatest value. -/
def addF (f : Fld) (k : Nat) (s : State) : State := setF f (satAdd (2 ^ (f.hi + 1 - f.lo) - 1) (getF s f) k) s

/-- A field at bits [hi:lo] of a register. -/
def fld (key hi lo : Nat) : Fld := { key := key, hi := hi, lo := lo }

/-- A one-bit field. -/
def bit (key i : Nat) : Fld := { key := key, hi := i, lo := i }

/-- Bits of a register that hardware has set (W1C) or cleared (W1S) in the present turn (R15). -/
def hotBits (s : State) (key : Nat) : Word :=
  match Tab.find s.hot key with
  | some (t, m) => if t = s.time.turn then m else 0
  | none => 0

/-- A hardware event touches a field in this turn; what other turns left is forgotten. -/
def mark (f : Fld) (s : State) : State :=
  { s with hot := Tab.put (s.hot.filter (fun q => q.2.1 = s.time.turn)) f.key
                          (s.time.turn, hotBits s f.key ||| withBits 0 f.hi f.lo (2 ^ (f.hi + 1 - f.lo) - 1)) }

/-- A hardware event sets a W1C flag: a write of software in the same turn does not clear it (R15). -/
def flag (f : Fld) (s : State) : State := mark f (setF f 1 s)

/-- The write of a W1C flag by software: it clears the flag unless a hardware event has set it in this turn (R14, R15). -/
def clearFlag (f : Fld) (s : State) : State := if bitsOf (hotBits s f.key) f.hi f.lo = 0 then setF f 0 s else s

/-- What a write of software presents to W1C and W1S fields: nothing where a hardware event won this turn (R15). -/
def coolWrite (fs : List Fd) (hot v : Word) : Word :=
  fs.foldl (fun w f => match f.acc with
    | .w1c | .w1s => withBits w f.hi f.lo (bitsOf (w &&& ~~~hot) f.hi f.lo)
    | .rw | .ro | .wo => w) v

/-- The write of a register by software, by its fields' access codes (R14, R15, R17, R20). -/
def softWrite (key : Nat) (v : Word) (s : State) : State :=
  match regRow key with
  | some (r, _) => setReg key (writeFields r.fields (coolWrite r.fields (hotBits s key) v) (reg s key)) s
  | none => s

/-! ### Memory (R10, R30, R308, R432) -/

/-- The byte at an address; what nothing has written reads 0 (R403, R414; log entry 5 for the code store). -/
def readB (s : State) (a : Nat) : Byte := Tab.getD s.mem a 0

/-- Store one byte, keeping the canonical form. -/
def writeB (a : Nat) (b : Byte) (s : State) : State := { s with mem := Tab.store s.mem a 0 b }

/-- `n` bytes from address `a` on. -/
def readBytes (s : State) (a : Nat) : Nat → List Byte
  | 0 => []
  | n + 1 => readB s a :: readBytes s (a + 1) n

/-- Store bytes from address `a` on. -/
def writeBytes (a : Nat) : List Byte → State → State
  | [], s => s
  | b :: bs, s => writeBytes (a + 1) bs (writeB a b s)

/-- The `n`-byte number at an address. -/
def readN (s : State) (a n : Nat) : Nat := ofLe (readBytes s a n)

/-- Clear memory where `f` holds (R403, R414). -/
def clearMem (f : Nat → Bool) (s : State) : State := { s with mem := Tab.clear s.mem f }

/-- Clear registers where `f` holds: each reads its reset value again. -/
def clearRegs (f : Nat → Bool) (s : State) : State := { s with regs := Tab.clear s.regs f }

/-! ### The tables and parts of the state that have no numbered units -/

def updTime (f : TimeSt → TimeSt) (s : State) : State := { s with time := f s.time }
def updCal (f : CalSt → CalSt) (s : State) : State := { s with cal := f s.cal }
def mapPorts (f : Tab PortSt → Tab PortSt) (s : State) : State := { s with ports := f s.ports }
def mapDevices (f : Tab DeviceSt → Tab DeviceSt) (s : State) : State := { s with devices := f s.devices }
def mapImages (f : Tab ImageSt → Tab ImageSt) (s : State) : State := { s with images := f s.images }
def mapPads (f : Tab PadSt → Tab PadSt) (s : State) : State := { s with pads := f s.pads }
def mapPgOn (f : Tab Bool → Tab Bool) (s : State) : State := { s with pgOn := f s.pgOn }
def mapFifos (f : Tab FifoSt → Tab FifoSt) (s : State) : State := { s with fifos := f s.fifos }
def mapChans (f : Tab ChanSt → Tab ChanSt) (s : State) : State := { s with chans := f s.chans }
def mapClusters (f : Tab ClusterSt → Tab ClusterSt) (s : State) : State := { s with clusters := f s.clusters }
def mapCores (f : Tab CoreSt → Tab CoreSt) (s : State) : State := { s with cores := f s.cores }
def mapLocks (f : Tab LockSt → Tab LockSt) (s : State) : State := { s with locks := f s.locks }
def mapRemote (f : List (Nat × Nat × Nat × Crossing) → List (Nat × Nat × Nat × Crossing)) (s : State) : State :=
  { s with remote := f s.remote }
def mapDelayed (f : List (Nat × Nat × Crossing) → List (Nat × Nat × Crossing)) (s : State) : State :=
  { s with delayed := f s.delayed }
def mapXfers (f : Tab Xfer → Tab Xfer) (s : State) : State := { s with xfers := f s.xfers }
def setXferNext (n : Nat) (s : State) : State := { s with xferNext := n }
def mapArbs (f : Tab ArbSt → Tab ArbSt) (s : State) : State := { s with arbs := f s.arbs }
def mapHolds (f : Tab Nat → Tab Nat) (s : State) : State := { s with holds := f s.holds }
def mapHot (f : Tab (Nat × Word) → Tab (Nat × Word)) (s : State) : State := { s with hot := f s.hot }

def setAdmin (a : Option AdmPend) (s : State) : State := { s with admin := a }

/-! ### Time (R42–R57) -/

/-- The present turn, TURN_ABS. -/
def now (s : State) : Nat := s.time.turn

/-- FRAME_COUNT. -/
def frameNo (s : State) : Nat := s.time.cur.frame

/-- Length in turns of the frame in progress (R11: a round is 24 turns). -/
def frameTurns (s : State) : Nat := 24 * s.time.cur.rounds

/-- Turn 0 of the next frame. -/
def nextTick (s : State) : Nat := s.time.cur.start + frameTurns s

/-- The turn within the frame in progress. -/
def turnInFrame (s : State) : Nat := now s - s.time.cur.start

/-- METRO_STATUS (R43), FRAME_CTRL and FRAME_STATUS (R46). -/
def fLock : Fld := bit 0x45000000 0
def fHold : Fld := bit 0x45000000 1
def fRefLost : Fld := bit 0x45000000 2
def fOvrLimit : Fld := fld 0x45000010 23 16
def fLenRounds : Fld := fld 0x45000010 11 0
def fLenPending : Fld := bit 0x45000014 14
def fGroupLock : Fld := bit 0x45000014 13
def fLenRej : Fld := bit 0x45000014 12
def fLenActive : Fld := fld 0x45000014 11 0

/-- Let time pass to turn `t`; it never runs back. -/
def goTo (t : Nat) (s : State) : State :=
  updTime (fun x => { x with turn := max x.turn t }) s

/-- An event due at turn `e` falls in the frame in progress: it is not past the next tick (log entry 3). -/
def dueNow (s : State) (e : Nat) : Bool := isSet s fLock && decide (e < nextTick s)

/-- The frame in which a turn falls. -/
def frameAt (s : State) (t : Nat) : FrameRec :=
  if s.time.cur.start ≤ t then s.time.cur
  else match s.time.past.find? (fun r => decide (r.start ≤ t)) with
    | some r => r
    | none => s.time.cur

/-- The stamp of a turn (R55). -/
def stampAt (s : State) (t : Nat) : Stamp :=
  let r := frameAt s t
  { cal := r.cal, frame := r.frame, turn := t - r.start, hold := r.hold, stale := r.stale }

/-- The stamp of the present turn. -/
def stamp (s : State) : Stamp := stampAt s (now s)

/-- A stamp's 20 bytes (R55). -/
def stampBytes (p : Stamp) : List Byte :=
  le 6 (p.cal / 65536) ++ le 2 (p.cal % 65536) ++ le 8 p.frame ++
  le 4 (p.turn % 131072 + (if p.hold then 131072 else 0) + (if p.stale then 262144 else 0))

/-- The stamp that 20 bytes carry. -/
def stampOf (b : List Byte) : Stamp :=
  let v := leAt b 16 4
  { cal := leAt b 0 6 * 65536 + leAt b 6 2, frame := leAt b 8 8, turn := v % 131072, hold := v / 131072 % 2 = 1,
    stale := v / 262144 % 2 = 1 }

/-- Turns in `us` microseconds (R57). -/
def usTurns (us : Nat) : Nat := 480 * us

/-- Turns in `ms` milliseconds. -/
def msTurns (ms : Nat) : Nat := 480000 * ms

/-- A fresh number for a value the spec leaves open (log entry 6). -/
def fresh (s : State) : Nat := s.fresh

def useFresh (s : State) : State := { s with fresh := s.fresh + 1 }

/-! ### Cores -/

/-- Index of a processor position: 16 n + s for thread s, 16 n + 12 + x for position x, 256 for the control
processor. -/
def coreIx : CoreId → Nat
  | .thread n t => 16 * n.val + t.val
  | .lane n x => 16 * n.val + 12 + x.val
  | .cp => 256

/-- Index of a requester: a core's, or 257 for the PCI Express endpoint (R48). -/
def reqIx : Requester → Nat
  | .core c => coreIx c
  | .host => 257

/-- The logical cluster of a core; 16 for the control processor. -/
def coreCl : CoreId → Nat
  | .thread n _ => n.val
  | .lane n _ => n.val
  | .cp => 16

/-- A core is a barrel thread. -/
def isThread : CoreId → Bool
  | .thread _ _ => true
  | .lane _ _ => false
  | .cp => false

def isLane : CoreId → Bool
  | .lane _ _ => true
  | .thread _ _ => false
  | .cp => false

def isCp : CoreId → Bool
  | .cp => true
  | .thread _ _ => false
  | .lane _ _ => false

/-- Thread T0 of its cluster. -/
def isT0 : CoreId → Bool
  | .thread _ t => t.val = 0
  | .lane _ _ => false
  | .cp => false

/-- Position code (R214, CORE_ID of R231): 0x00–0x0B threads, 0x10–0x13 lane cores, 0x20 the control processor. -/
def posCode : CoreId → Nat
  | .thread _ t => t.val
  | .lane _ x => 0x10 + x.val
  | .cp => 0x20

/-- Owner code of a chip lock (R326). -/
def chipCode : CoreId → Nat
  | .thread n t => 256 * n.val + t.val
  | .lane n x => 256 * n.val + 0x10 + x.val
  | .cp => 0x020

/-- Slice base of a thread (R30, R212). -/
def sliceBase (n t : Nat) : Nat := 0x20000000 + n * 0x01000000 + t * 0x10000

/-- Special registers at reset (R231, R232): supervisor mode on T0 and the control processor. -/
def initCtx (sup : Bool) (pc : Nat) : Ctx :=
  { g := Vector.replicate 16 0
    pc := BitVec.ofNat 32 pc
    npc := BitVec.ofNat 32 (pc + 4)
    psw := if sup then 0x50 else 0x40
    epsw := 0
    epc := 0
    enpc := 0
    mode := if sup then 1 else 0
    lstart := 0
    lend := 0
    lcount := 0
    slot := false
    begun := false
    left := 0
    unit := none
    parked := false
    waiting := false
    entry := false
    taken := false
    back := [] }

/-- A core at cluster reset (R210): a thread STOPPED; a lane core or the control processor in supervisor runtime is
started by its runtime (log entry 20). -/
def initCore (i : Nat) : CoreSt :=
  { ctx := if i = 256 then initCtx true 0x10000
           else if i % 16 < 12 then initCtx (i % 16 = 0) (sliceBase (i / 16) (i % 16) + 0x8000)
           else initCtx false 0x10000
    ckpt := none
    undo := []
    side := []
    taken := []
    work := none
    mism := 0
    bistEnd := none
    frozen := false
    failed := false
    faultTurn := none
    issueAt := 0
    owed := 0
    stopAt := none
    long := none
    risen := false
    alarm := none
    vline := []
    btb := []
    stack := []
    prev := none }

def core (s : State) (i : Nat) : CoreSt := Tab.getD s.cores i (initCore i)
def setCore (i : Nat) (c : CoreSt) (s : State) : State := { s with cores := Tab.put s.cores i c }
def updCore (i : Nat) (f : CoreSt → CoreSt) (s : State) : State := setCore i (f (core s i)) s

/-- A core runs in supervisor mode (R232). -/
def isSup (s : State) (i : Nat) : Bool := (core s i).ctx.mode.getLsbD 0

/-! ### Clusters -/

def initCluster : ClusterSt :=
  { applyAt := none, greedyAt := none, lines := [], lastDone := 0, held := [], frameHold := [], coming := [],
    commits := (0, []), grpPend := [], fired := [] }

def clus (s : State) (n : Nat) : ClusterSt := Tab.getD s.clusters n initCluster
def updClus (n : Nat) (f : ClusterSt → ClusterSt) (s : State) : State :=
  { s with clusters := Tab.put s.clusters n (f (clus s n)) }

/-- State of thread t of cluster n (R210): 0 STOPPED, 1 RUNNING, 2 PARKED, 3 FAULTED. -/
def fThrState (n t : Nat) : Fld := fld (winK n (0x200 + 0x20 * t)) 10 8
/-- State of barrel thread t of cluster n (R210): a STOP takes effect at the first boundary at or after its turn (R211). -/
def thrState (s : State) (n t : Nat) : Nat :=
  if getF s (fThrState n t) = 1 ∧ (core s (16 * n + t)).stopAt.elim false (fun u => decide (u ≤ now s)) then 0
  else getF s (fThrState n t)

def fUp01 (n : Nat) : Fld := bit (winK n 0x150) 8
def fUp23 (n : Nat) : Fld := bit (winK n 0x150) 9

/-- Position x of cluster n runs in a pair, which its first position stands for (R355). -/
def paired (s : State) (n x : Nat) : Bool := if x < 2 then isSet s (fUp01 n) else isSet s (fUp23 n)

/-- First position of the pair that position x is of, or x itself. -/
def firstPos (s : State) (n x : Nat) : Nat := if paired s n x then x / 2 * 2 else x

/-- Power state of cluster n (R400): 0 LIT, 1 ENTERING, 2 DARK, 3 WAKING. -/
def fPwr (n : Nat) : Fld := fld (0x47000100 + 4 * n) 1 0
def fRail (n : Nat) : Fld := fld (0x47000100 + 4 * n) 22 16

/-- Physical cluster that serves logical cluster n (R32, CLUSTER_MAPi). -/
def fMap (n : Nat) : Fld := fld (0x46000040 + 4 * (n / 4)) (8 * (n % 4) + 4) (8 * (n % 4))
def fOffhome : Fld := fld 0x46000050 20 16
def fResState : Fld := fld 0x46000050 9 8
def fResPhys : Fld := fld 0x46000050 4 0

/-- The 16 logical clusters, and other index lists. -/
def clusterIds : List Nat := List.range 16

/-! ### Tenants and devices -/

def initTenant : TenantSt :=
  { configured := false, done := false, limSeen := 8, hadWork := false, outbox := none, incoming := [], handed := [], held := [],
    outFill := 0, staged := [], outs := [], released := [], relTurn := 0, backlog := [], gapNext := false, backAt := 0, again := [], submit := [], resetAt := none, resetDisc := 0, cleared := false }

def ten (s : State) (t : Nat) : TenantSt := Tab.getD s.tenants t initTenant
def updTen (t : Nat) (f : TenantSt → TenantSt) (s : State) : State :=
  { s with tenants := Tab.put s.tenants t (f (ten s t)) }

/-- TENANT_STATUS_n (R67) and TENANT_FRAME_n (R54). -/
def fGen (t : Nat) : Fld := fld (0x4800C000 + 4 * t) 31 16
def fGuarded (t : Nat) : Fld := bit (0x4800C000 + 4 * t) 8
def fTState (t : Nat) : Fld := fld (0x4800C000 + 4 * t) 2 0
def fDegraded (t : Nat) : Fld := bit (0x45000400 + 4 * t) 31
def fLate (t : Nat) : Fld := bit (0x45000400 + 4 * t) 30
def fTotal (t : Nat) : Fld := fld (0x45000400 + 4 * t) 23 8
def fConsec (t : Nat) : Fld := fld (0x45000400 + 4 * t) 7 0

/-- Tenant states (R66): DISABLED 0, ACTIVE 1, RESETTING 2, DORMANT 3. -/
def tActive (s : State) (t : Nat) : Bool := getF s (fTState t) = 1

def tenantIds : List Nat := List.range 256

def initMach : MachSt :=
  { state := 0, vars := List.replicate 24 0, bufs := List.replicate 8 [],
    timers := [Timer.off, Timer.off, Timer.off, Timer.off] }

def initDev : DeviceSt :=
  { bound := false, cls := 0, present := 0, port := 0xFFFF, tapt := 0, tmajor := 0, flags := 0, windowUs := 300000,
    pst := 0, byp := false, trip := false, kick := false, view := 2, shown := 0, pv := 0, desired := [], seq := none, pm := initMach,
    tm := initMach, drdEnd := none, reading := none, xbuf := [], carried := [], trans := 0, transAt := 0, reapply := false,
    turn := 0, unexpected := 0, chan := none }

def devIx (t d : Nat) : Nat := 16 * t + d
def dev (s : State) (t d : Nat) : DeviceSt := Tab.getD s.devices (devIx t d) initDev
def updDev (t d : Nat) (f : DeviceSt → DeviceSt) (s : State) : State :=
  { s with devices := Tab.put s.devices (devIx t d) (f (dev s t d)) }

/-! ### Ports, pads and FIFOs -/

def initPort : PortSt :=
  { defined := false, group := 0, pads := [], gapFrames := 0, thread := 0, slot := 0, apt := 0, major := 0, state := 0,
    bypassed := false, bypassReq := false, releaseReq := false, before := 0, resumeReq := false, toActive := false,
    grant := none, bound := none, lossAt := none, attachEnd := none, tryAt := none,
    probing := none, pollBase := none, pollK := 0, replyEnd := none, missed := 0, lossPadEnd := none, changed := none,
    discards := 0, newProg := none, progMinor := 0, prog := 0, sending := 0, sendLeft := [],
    sendWin := 0 }

def port (s : State) (p : Nat) : PortSt := Tab.getD s.ports p initPort
def updPort (p : Nat) (f : PortSt → PortSt) (s : State) : State :=
  { s with ports := Tab.put s.ports p (f (port s p)) }

def initPad : PadSt :=
  { level := false, hist := [], filtAt := 0, outLevel := false, outPend := [], rxq := [], txq := [], cand := none,
    candOk := false, candCfg := (0, 0), noStart := 0, sync := [], cur := none, launch := none, streamS := 0, streamK := 0,
    curBits := 0, streamClk := 0, deAt := none, deEnd := none, deLast := (0, 0, 0), safe := [], removed := [],
    scan := none, rxGone := (0, 0), txGone := (0, 0) }

def pad (s : State) (p : Nat) : PadSt := Tab.getD s.pads p initPad
def updPad (p : Nat) (f : PadSt → PadSt) (s : State) : State :=
  { s with pads := Tab.put s.pads p (f (pad s p)) }

/-- Key of a register of pad p (R136): group p / 64, pad index p % 64. -/
def padK (p off : Nat) : Nat := winK (p / 64) (0x2000 + 0x40 * (p % 64) + off)

def initFifo : FifoSt :=
  { open_ := [], notices := [], part := [], cont := [], tx := [], txc := [], cut := [], popped := [], note := none,
    launched := [], msgs := [], nextMsg := 0, area := [] }

/-- FIFO block of thread t of cluster n. -/
def fifoIx (n t : Nat) : Nat := 12 * n + t
def fifo (s : State) (i : Nat) : FifoSt := Tab.getD s.fifos i initFifo
def updFifo (i : Nat) (f : FifoSt → FifoSt) (s : State) : State :=
  { s with fifos := Tab.put s.fifos i (f (fifo s i)) }

/-- PSLOT_s_j (R223). -/
def pslotK (n t j : Nat) : Nat := winK n (0x800 + 4 * (8 * t + j))
def fSlotValid (n t j : Nat) : Fld := bit (pslotK n t j) 31
def fSlotGap (n t j : Nat) : Fld := fld (pslotK n t j) 27 16
def fSlotTxpad (n t j : Nat) : Fld := fld (pslotK n t j) 12 10
def fSlotPort (n t j : Nat) : Fld := fld (pslotK n t j) 9 0

/-! ### Load channels -/

def initChan : ChanSt :=
  { written := false, staged := none, mode := .steady, next := none, grant := 0, phaseEnd := none, onAt := 0,
    overAt := 48000, waitAt := none, outAt := none, test := none, tripAt := 0, tripKick := false, kickTag := none, pulsed := false, trace := none }

def chan (s : State) (c : Nat) : ChanSt := Tab.getD s.chans c initChan
def updChan (c : Nat) (f : ChanSt → ChanSt) (s : State) : State :=
  { s with chans := Tab.put s.chans c (f (chan s c)) }

def initLGroup : LGroupSt := { queue := [], lastEnd := none, sagFrom := 0 }
def lgroup (s : State) (g : Nat) : LGroupSt := Tab.getD s.lgroups g initLGroup
def updLGroup (g : Nat) (f : LGroupSt → LGroupSt) (s : State) : State :=
  { s with lgroups := Tab.put s.lgroups g (f (lgroup s g)) }

/-! ### Links, power and host -/

def initDrn : DrnSt :=
  { txSeq := 0, rxSeq := 0, replay := [], lastValid := none, swapEnd := none, retryAt := none, good := 0, order := [],
    beat := none, replayReq := false, trained := false, caps := (0, 0, 0) }

def drn (s : State) (p : Nat) : DrnSt := Tab.getD s.links p initDrn
def updDrn (p : Nat) (f : DrnSt → DrnSt) (s : State) : State :=
  { s with links := Tab.put s.links p (f (drn s p)) }

def initPwrCl : PwrCl :=
  { darkReq := false, darkTick := none, wake := none, latched := none, reset := false, wokeBell := none, hist := [], saved := [] }

def pwrCl (s : State) (n : Nat) : PwrCl := Tab.getD s.power.cl n initPwrCl
def updPwrCl (n : Nat) (f : PwrCl → PwrCl) (s : State) : State :=
  { s with power := { s.power with cl := Tab.put s.power.cl n (f (pwrCl s n)) } }

def updHost (f : HostSt → HostSt) (s : State) : State := { s with host := f s.host }
def updGuard (f : GuardSt → GuardSt) (s : State) : State := { s with guard := f s.guard }
def updGroup (f : GroupSt → GroupSt) (s : State) : State := { s with group := f s.group }
def updJnl (f : JournalSt → JournalSt) (s : State) : State := { s with journal := f s.journal }
def updPower (f : PowerSt → PowerSt) (s : State) : State := { s with power := f s.power }

/-! ### Accesses during a handover (R34, R153, R154) -/

/-- Cluster n is in the handover of a castling (R34, R394). -/
def inHandover (s : State) (n : Nat) : Bool :=
  match s.guard.run with
  | some r => r.req.unit = 0 && r.req.cluster = n
  | none => false

/-- The cluster whose handover holds an access that core c makes to the window of cluster n: that of the window, or that of
the core itself, which issues the access only when it resumes (R34, R153). -/
def castHolds (c : CoreId) (n : Nat) (s : State) : Option Nat :=
  if inHandover s n then some n
  else if !isCp c && inHandover s (coreCl c) then some (coreCl c)
  else none

/-- Hold an access for the end of the handover of cluster n. -/
def castHold (n : Nat) (c : CoreId) (read : Bool) (w : SideWrite) (s : State) : State :=
  updClus n (fun x => { x with held := x.held ++ [{ core := coreIx c, read := read, acc := w }] }) s

/-- A word write of core c at address `a` in the window of cluster n: at once, or held. -/
def castWrite (c : CoreId) (n a : Nat) (v : Word) (k : State → Outcome) (s : State) : Outcome :=
  match castHolds c n s with
  | some m => done (castHold m c false { addr := BitVec.ofNat 32 a, size := 4, data := v } s)
  | none => k s

/-- A word read, with an effect, of core c at address `a` in the window of cluster n: at once, or held. -/
def castRead (c : CoreId) (n a : Nat) (k : State → Outcome) (s : State) : Outcome :=
  match castHolds c n s with
  | some m => done (castHold m c true { addr := BitVec.ofNat 32 a, size := 4, data := 0 } s)
  | none => k s

end Sys2Proof.Machine
end

