-- ==== Sys2Proof/Machine/DrnPort.lean ====
section
/-! DEFINITION. The Draren ports' registers, seats and sending (spec/13_draren_chain_and_groups.md R330, R333–R336, R350).
Payload layouts that the spec does not state are the model's (log entry 33). -/

namespace Sys2Proof.Machine

/-! ### Registers (R350) -/

def drnK (p off : Nat) : Nat := 0x42000000 + 0x100 * p + off
def fDrnEnable (p : Nat) : Fld := bit (drnK p 0) 0
def fDrnMaxRate (p : Nat) : Fld := fld (drnK p 0) 5 4
def fDrnMaxWidth (p : Nat) : Fld := fld (drnK p 0) 11 8
def fDrnState (p : Nat) : Fld := fld (drnK p 4) 1 0
def fDrnRate (p : Nat) : Fld := fld (drnK p 4) 5 4
def fDrnWidth (p : Nat) : Fld := fld (drnK p 4) 11 8
def fDrnSpare (p : Nat) : Fld := fld (drnK p 4) 15 12
def fDrnLaneFail (p : Nat) : Fld := fld (drnK p 4) 20 16
def fDrnSpareUsed (p : Nat) : Fld := bit (drnK p 4) 24
def fDrnMiswire (p : Nat) : Fld := bit (drnK p 4) 25
def fDrnDelay (p : Nat) : Fld := fld (drnK p 8) 23 0
def fDrnBad (p : Nat) : Fld := fld (drnK p 0xC) 31 16
def fDrnReplays (p : Nat) : Fld := fld (drnK p 0xC) 15 0
def fGrpValid : Fld := bit 0x42000400 31
def fGrpHead : Fld := bit 0x42000400 30
def fGrpIndex : Fld := fld 0x42000400 24 16
def fGrpSeat : Fld := fld 0x42000400 15 0
def fGrpEpoch : Fld := fld 0x42000404 31 0
def fGrpAdmit : Fld := fld 0x42000408 31 0
def fGrpAdmitted : Fld := bit 0x4200040C 13
def fGrpStandalone : Fld := bit 0x4200040C 12
def fGrpChips : Fld := fld 0x4200040C 8 0
def fHeadStrap : Fld := bit 0x4A000004 5

def drnUp (s : State) (p : Nat) : Bool := getF s (fDrnState p) = 2
def isHead (s : State) : Bool := isSet s fGrpHead
def ownSeat (s : State) : Nat := getF s fGrpSeat

/-! ### Seats (R335) -/

def seatDepth (seat : Nat) : Nat := seat % 16
def seatBit (seat i : Nat) : Nat := seat / 2 ^ (4 + i) % 2

/-- Σ path[h − 1] × 2^(depth − h), h = 1 to depth. -/
def pathSum (seat : Nat) : Nat → Nat
  | 0 => 0
  | h + 1 => 2 * pathSum seat h + seatBit seat h

/-- Seat index (R335): breadth-first. -/
def seatIndex (seat : Nat) : Nat := 2 ^ seatDepth seat - 1 + pathSum seat (seatDepth seat)

/-- Seat of the child on D port 0 or 1 (R336). -/
def childSeat (seat d : Nat) : Nat := seat + 1 + d * 2 ^ (4 + seatDepth seat)

/-- `dst` lies in the subtree of `seat`: it agrees with its path and is deeper. -/
def inSubtree (seat dst : Nat) : Bool :=
  decide (seatDepth seat < seatDepth dst) && (List.range (seatDepth seat)).all (fun i => seatBit seat i = seatBit dst i)

/-- The seat with seat index i (R335). -/
def seatFor (i : Nat) : Nat :=
  let n := Nat.log2 (i + 1)
  n + (List.range n).foldl (fun v h => v + (i + 1) / 2 ^ (n - 1 - h) % 2 * 2 ^ (4 + h)) 0

/-! ### Group numbers (R341) -/

/-- A port of another chip stands in a device as 0x10000 + its group port number; a tenant of another chip as 0x10000 + its
group tenant number (log entry 80). -/
def isFar (n : Nat) : Bool := decide (0x10000 ≤ n)

/-- The port that a PORT field names (R69, R341): a chip with a seat takes it as a group port number. -/
def portOf (s : State) (v : Nat) : Nat :=
  if v = 0xFFFF ∨ !isSet s fGrpValid then v
  else if v / 1024 = getF s fGrpIndex then v % 1024 else 0x10000 + v

/-- The number that names a port in a PORT field. -/
def portNo (s : State) (p : Nat) : Nat :=
  if isFar p then p - 0x10000 else if p = 0xFFFF ∨ !isSet s fGrpValid then p else 1024 * getF s fGrpIndex + p

/-- The tenant of another chip, from its seat and its number there. -/
def farTenant (seat t : Nat) : Nat := 0x10000 + 256 * seatIndex seat + t % 256

/-- Seat of the chip of a far port, or of a far tenant. -/
def portSeat (p : Nat) : Nat := seatFor ((p - 0x10000) / 1024)
def tenantSeat (t : Nat) : Nat := seatFor ((t - 0x10000) / 256)

/-- The chip of a far port has dropped out (R348). -/
def farIsLost (s : State) (p : Nat) : Bool := s.group.farLost.contains ((p - 0x10000) / 1024)

/-- Seat of an admitted chip with seat index i, at the head. -/
def seatOfIndex (s : State) (i : Nat) : Option Nat :=
  (s.group.seats.find? (fun x => x.occupied && seatIndex x.seat = i)).map (fun x => x.seat)

/-- Current generation of a tenant, or the newest one seen of a tenant of another chip (R92). -/
def genOf (s : State) (t : Nat) : Nat := if isFar t then Tab.getD s.group.farGen t 0 else getF s (fGen t)

/-- An item of a port for a tenant of another chip waits for the next tick (R343). -/
def sendFar (t d turn : Nat) (it : Item) (s : State) : State :=
  let h : HItem := { turn := turn, key := 0, dev := d, remote := true, gen := genOf s t, item := it }
  updGroup (fun g => { g with outItems := g.outItems ++ [(t, h)] }) s

/-! ### Sending (R330, R333, R334) -/

/-- Send a frame on a port: it stays in the replay buffer until it is acknowledged. -/
def drnSend (p type : Nat) (routed : Bool) (dst : Nat) (payload : List Byte) (s : State) : State :=
  let t := now s
  updDrn p (fun x => { x with
                       replay := x.replay ++ [{ type := type, routed := routed, dst := dst, seq := x.txSeq,
                                                payload := payload }],
                       txSeq := (x.txSeq + 1) % 65536, beat := some t }) s

/-- Port that a routed frame leaves by (R334). -/
def routePort (s : State) (dst : Nat) : Nat :=
  if inSubtree (ownSeat s) dst then 1 + seatBit dst (seatDepth (ownSeat s)) else 0

/-- Send a routed frame toward a seat. -/
def drnRoute (type dst : Nat) (payload : List Byte) (s : State) : State :=
  drnSend (routePort s dst) type true dst payload s

/-- This chip is a member: it has a seat and is not the head (R335). -/
def isMember (s : State) : Bool := isSet s fGrpValid && !isHead s

/-- The head's seat (R335). -/
def headSeat : Nat := 0

end Sys2Proof.Machine
end

