-- ==== Sys2Proof/Machine/Crypto.lean ====
section
/-! DEFINITION. SHA-256 (FIPS 180-4), HMAC-SHA-256 (RFC 2104), and ECDSA over P-256 (FIPS 186) with the deterministic
nonces of RFC 6979: the standards that R98, R182, R194, R201, R434 and R438 name. -/

namespace Sys2Proof.Machine

/-! ### Numbers as bytes, most significant first -/

/-- `n` bytes of a number. -/
def be : Nat → Nat → List Byte
  | 0, _ => []
  | n + 1, v => BitVec.ofNat 8 (v / 256 ^ n) :: be n v

/-- The number that bytes hold. -/
def ofBe (bs : List Byte) : Nat := bs.foldl (fun v b => 256 * v + b.toNat) 0

/-! ### SHA-256 -/

/-- The round constants. -/
def shaK : List (BitVec 32) :=
  ([0x428a2f98, 0x71374491, 0xb5c0fbcf, 0xe9b5dba5, 0x3956c25b, 0x59f111f1, 0x923f82a4, 0xab1c5ed5,
    0xd807aa98, 0x12835b01, 0x243185be, 0x550c7dc3, 0x72be5d74, 0x80deb1fe, 0x9bdc06a7, 0xc19bf174] ++
   [0xe49b69c1, 0xefbe4786, 0x0fc19dc6, 0x240ca1cc, 0x2de92c6f, 0x4a7484aa, 0x5cb0a9dc, 0x76f988da,
    0x983e5152, 0xa831c66d, 0xb00327c8, 0xbf597fc7, 0xc6e00bf3, 0xd5a79147, 0x06ca6351, 0x14292967] ++
   [0x27b70a85, 0x2e1b2138, 0x4d2c6dfc, 0x53380d13, 0x650a7354, 0x766a0abb, 0x81c2c92e, 0x92722c85,
    0xa2bfe8a1, 0xa81a664b, 0xc24b8b70, 0xc76c51a3, 0xd192e819, 0xd6990624, 0xf40e3585, 0x106aa070] ++
   [0x19a4c116, 0x1e376c08, 0x2748774c, 0x34b0bcb5, 0x391c0cb3, 0x4ed8aa4a, 0x5b9cca4f, 0x682e6ff3,
    0x748f82ee, 0x78a5636f, 0x84c87814, 0x8cc70208, 0x90befffa, 0xa4506ceb, 0xbef9a3f7, 0xc67178f2])

/-- The eight working variables. -/
structure Sha where
  a : BitVec 32
  b : BitVec 32
  c : BitVec 32
  d : BitVec 32
  e : BitVec 32
  f : BitVec 32
  g : BitVec 32
  h : BitVec 32
  deriving DecidableEq, Repr

/-- The initial hash value. -/
def shaInit : Sha :=
  { a := 0x6a09e667, b := 0xbb67ae85, c := 0x3c6ef372, d := 0xa54ff53a, e := 0x510e527f, f := 0x9b05688c, g := 0x1f83d9ab,
    h := 0x5be0cd19 }

/-- A message padded to whole blocks of 64 bytes. -/
def shaPad (m : List Byte) : List Byte :=
  m ++ 0x80 :: List.replicate ((119 - m.length % 64) % 64) 0 ++ be 8 (8 * m.length)

/-- One word more of the message schedule, newest first. -/
def shaExtend (w : List (BitVec 32)) : List (BitVec 32) :=
  let at_ := fun i => (w[i]?).elim 0#32 (fun x => x)
  let x := at_ 1
  let y := at_ 14
  ((x.rotateRight 17 ^^^ x.rotateRight 19 ^^^ x >>> 10) + at_ 6 + (y.rotateRight 7 ^^^ y.rotateRight 18 ^^^ y >>> 3) + at_ 15) :: w

/-- The 64 words of a block's schedule. -/
def shaSchedule (block : List Byte) : List (BitVec 32) :=
  let w := ((List.range 16).map (fun i => BitVec.ofNat 32 (ofBe ((block.drop (4 * i)).take 4)))).reverse
  ((List.range 48).foldl (fun w _ => shaExtend w) w).reverse

/-- One round. -/
def shaRound (s : Sha) (kw : BitVec 32 × BitVec 32) : Sha :=
  let t1 := s.h + (s.e.rotateRight 6 ^^^ s.e.rotateRight 11 ^^^ s.e.rotateRight 25) + ((s.e &&& s.f) ^^^ (~~~s.e &&& s.g)) + kw.1 + kw.2
  let t2 := (s.a.rotateRight 2 ^^^ s.a.rotateRight 13 ^^^ s.a.rotateRight 22) + ((s.a &&& s.b) ^^^ (s.a &&& s.c) ^^^ (s.b &&& s.c))
  { a := t1 + t2, b := s.a, c := s.b, d := s.c, e := s.d + t1, f := s.e, g := s.f, h := s.g }

/-- The hash value after a block. -/
def shaBlock (s : Sha) (block : List Byte) : Sha :=
  let r := (shaK.zip (shaSchedule block)).foldl shaRound s
  { a := s.a + r.a, b := s.b + r.b, c := s.c + r.c, d := s.d + r.d, e := s.e + r.e, f := s.f + r.f, g := s.g + r.g, h := s.h + r.h }

/-- The hash value after a number of blocks. -/
def shaBlocks : Nat → List Byte → Sha → Sha
  | 0, _, s => s
  | n + 1, m, s => shaBlocks n (m.drop 64) (shaBlock s (m.take 64))

/-- SHA-256 of a byte string. -/
def sha256 (m : List Byte) : List Byte :=
  let p := shaPad m
  let s := shaBlocks (p.length / 64) p shaInit
  (([s.a, s.b, s.c, s.d, s.e, s.f, s.g, s.h]).map (fun w => be 4 w.toNat)).flatten

/-- HMAC-SHA-256 with a key of at most 64 bytes. -/
def hmac (key m : List Byte) : List Byte :=
  let k := key ++ List.replicate (64 - key.length) 0
  sha256 (k.map (fun b => b ^^^ 0x5C) ++ sha256 (k.map (fun b => b ^^^ 0x36) ++ m))

/-! ### P-256 -/

def p256P : Nat := 0xFFFFFFFF00000001000000000000000000000000FFFFFFFFFFFFFFFFFFFFFFFF
def p256N : Nat := 0xFFFFFFFF00000000FFFFFFFFFFFFFFFFBCE6FAADA7179E84F3B9CAC2FC632551
def p256B : Nat := 0x5AC635D8AA3A93E7B3EBBD55769886BC651D06B0CC53B0F63BCE3C3E27D2604B
def p256G : Nat × Nat :=
  (0x6B17D1F2E12C4247F8BCE6E563A440F277037D812DEB33A0F4A13945D898C296,
   0x4FE342E2FE1A7F9B8EE7EB4A7C0F9E162BCE33576B315ECECBB6406837BF51F5)

/-- a to the power of e modulo m, by `n` bits of e from the top. -/
def powMod (m a e : Nat) : Nat → Nat
  | 0 => 1 % m
  | n + 1 => let h := powMod m a (e / 2) n
             if e % 2 = 1 then h * h % m * a % m else h * h % m

/-- The inverse of a modulo a prime. -/
def invMod (m a : Nat) : Nat := powMod m (a % m) (m - 2) 256

/-- Sum of two points of the curve; `none` is the point at infinity. -/
def ecAdd : Option (Nat × Nat) → Option (Nat × Nat) → Option (Nat × Nat)
  | none, q => q
  | p, none => p
  | some (x1, y1), some (x2, y2) =>
    if x1 = x2 ∧ (y1 + y2) % p256P = 0 then none
    else
      let l := if x1 = x2 then (3 * x1 * x1 + (p256P - 3)) * invMod p256P (2 * y1) % p256P
        else (y2 + p256P - y1) * invMod p256P (x2 + p256P - x1) % p256P
      let x3 := (l * l + 2 * p256P - x1 - x2) % p256P
      some (x3, (l * (x1 + p256P - x3) + p256P - y1) % p256P)

/-- k times a point, by `n` bits of k. -/
def ecMul (q : Option (Nat × Nat)) (k : Nat) : Nat → Option (Nat × Nat)
  | 0 => none
  | n + 1 =>
    let h := ecMul q (k / 2) n
    let d := ecAdd h h
    if k % 2 = 1 then ecAdd d q else d

/-- X ‖ Y is a point of P-256: y² = x³ − 3x + b modulo p. -/
def onCurve (k : List Byte) : Bool :=
  let x := ofBe (k.take 32)
  let y := ofBe ((k.drop 32).take 32)
  decide (x < p256P ∧ y < p256P) && decide (y * y % p256P = (x * x % p256P * x + (p256P - 3) * x + p256B) % p256P)

/-- The next candidate of RFC 6979's generator and its state (K, V) after the candidate is refused. -/
def nonceStep (k v : List Byte) : Nat × List Byte × List Byte :=
  let v := hmac k v
  let k' := hmac k (v ++ [0])
  (ofBe v, k', hmac k' v)

/-- The signature of a digest with the candidates of RFC 6979; the fuel bounds the refused ones. -/
def signWith (d z : Nat) : Nat → List Byte → List Byte → Nat × Nat
  | 0, _, _ => (0, 0)
  | n + 1, k, v =>
    let c := nonceStep k v
    let r := (ecMul (some p256G) c.1 256).elim 0 (fun q => q.1 % p256N)
    let s := invMod p256N c.1 * ((z + r * d) % p256N) % p256N
    if 0 < c.1 ∧ c.1 < p256N ∧ r ≠ 0 ∧ s ≠ 0 then (r, s) else signWith d z n c.2.1 c.2.2

/-- ECDSA P-256 signature (r, s) of a digest with private scalar d and RFC 6979's nonce (R182). -/
def ecdsaSignWith (d : Nat) (digest : List Byte) : List Byte × List Byte :=
  let z := ofBe digest
  let x := be 32 d ++ be 32 (z % p256N)
  let v := List.replicate 32 1
  let k := hmac (List.replicate 32 0) (v ++ [0] ++ x)
  let v := hmac k v
  let k := hmac k (v ++ [1] ++ x)
  let v := hmac k v
  let r := signWith d z 64 k v
  (be 32 r.1, be 32 r.2)

/-- The chip's signature with its device key (R182, R183). -/
def ecdsaSign (digest : List Byte) : List Byte × List Byte := ecdsaSignWith Config.otpKey digest

/-- d × G is the stored public key X ‖ Y (R431). -/
def otpKeyOk : Bool :=
  match ecMul (some p256G) Config.otpKey 256 with
  | some (x, y) => be 32 x ++ be 32 y = (List.range 64).map Config.otpPubKey
  | none => false

/-- ECDSA P-256 verification of (public key, digest, r, s) (R98, R201, R434). -/
def ecdsaVerify (key digest rb sb : List Byte) : Bool :=
  let r := ofBe rb
  let s := ofBe sb
  let q := (ofBe (key.take 32), ofBe ((key.drop 32).take 32))
  if !onCurve key || r = 0 || s = 0 || decide (p256N ≤ r) || decide (p256N ≤ s) then false
  else
    let w := invMod p256N s
    match ecAdd (ecMul (some p256G) (ofBe digest * w % p256N) 256) (ecMul (some q) (r * w % p256N) 256) with
    | some x => x.1 % p256N = r
    | none => false

end Sys2Proof.Machine
end

