-- ==== Sys2Proof/Machine/Intr.lean ====
section
/-! DEFINITION. Interrupt controllers (spec/15_interrupts_and_event_routing.md R378–R388): occurrences, the candidate
of a target, presentation, the running-priority stack and the hold-off windows; and wake requests (R402). Controller
`c` is logical cluster `c`'s for c < 16, and the control processor's for c = 16. -/

namespace Sys2Proof.Machine

/-- Key of a shared register of controller `c` (R385, R388). -/
def icK (c off : Nat) : Nat := if c = 16 then 0x4A001000 + off else winK c (0x4000 + off)

def fSrcEn (c k : Nat) : Fld := bit (icK c (4 * k)) 31
def fSrcTarget (c k : Nat) : Fld := fld (icK c (4 * k)) 19 16
def fSrcLevel (c k : Nat) : Fld := fld (icK c (4 * k)) 10 8
def fSrcGroup (c k : Nat) : Fld := fld (icK c (4 * k)) 2 0
def fHoldRounds (c g : Nat) : Fld := fld (icK c (0x100 + 4 * g)) 15 0
def fPend (c k : Nat) : Fld := bit (icK c (0x180 + 4 * (k / 32))) (k % 32)
def fLatch (c k : Nat) : Fld := bit (icK c (0x190 + 4 * (k / 32))) (k % 32)

/-- Sources that the rules reserve (R378, R388). -/
def icReserved (c k : Nat) : Bool := if c = 16 then decide (28 ≤ k) else decide (25 ≤ k ∧ k ≤ 31)

/-- Level sources (R378, R388). -/
def icLevel (c k : Nat) : Bool := if c = 16 then k = 0 else decide (k = 0 ∨ k = 22)

/-- Sources with an asynchronous latch (R378). -/
def icLatched (c k : Nat) : Bool := decide (c < 16) && decide (k = 23 ∨ k = 24 ∨ 32 ≤ k)

/-- A pad's SA_STAT shows RXOVR, TXOVR, FSTART or CFGERR (source 22). -/
def padErr (s : State) (p : Nat) : Bool := (reg s (padK p 0x14) &&& 0x1700) ≠ 0

/-- The condition of a level source (R378, R388). -/
def icCond (s : State) (c k : Nat) : Bool :=
  if c = 16 then bitsOf (reg s (pageK 256 8)) 31 16 ≠ bitsOf (reg s (pageK 256 8)) 15 0
  else if k = 0 then reg s (winK c 0x20) ≠ 0
  else (List.range 64).any (fun i => padErr s (64 * c + i))

/-- Set the latch bit of a source for an occurrence of turn t; the first latched occurrence gives IC_LATCH_TURN (R386). -/
def icLatchSet (t c k : Nat) (s : State) : State :=
  let s := if reg s (icK c 0x190) = 0 ∧ reg s (icK c 0x194) = 0
    then setReg (icK c 0x19C) (BitVec.ofNat 32 (t / 2 ^ 32)) (setReg (icK c 0x198) (BitVec.ofNat 32 t) s)
    else s
  if t = now s then flag (fLatch c k) s else setF (fLatch c k) 1 s

/-- The cluster of a controller is dark or waking: only its latches work (R386). -/
def icDark (s : State) (c : Nat) : Bool := decide (c < 16 ∧ 2 ≤ getF s (fPwr c))

/-- An occurrence of a source recorded at turn t (R379, R386): it sets PEND of an enabled edge source, but where a delivery
of the source committed in that turn; a latched source whose EN is 0, or whose cluster is dark, sets its latch bit. -/
def occurAt (t c k : Nat) (s : State) : State :=
  if icLevel c k || icReserved c k then s
  else if isSet s (fSrcEn c k) && !icDark s c then
    (if (clus s c).commits.1 = t ∧ (clus s c).commits.2.contains k then s
     else if t = now s then flag (fPend c k) s else setF (fPend c k) 1 s)
  else if icLatched c k then icLatchSet t c k s
  else s

/-- An occurrence of a source in this turn. -/
def occur (c k : Nat) (s : State) : State := occurAt (now s) c k s

/-- The occurrences that a router's consumers have made by this turn (R391). -/
def icSettle (c : Nat) (s : State) : State :=
  let t := now s
  let q := (clus s c).coming
  if q.isEmpty then s
  else each (q.filter (fun e => decide (e.1 ≤ t))) (fun e => occurAt e.1 c e.2)
    (updClus c (fun x => { x with coming := q.filter (fun e => decide (t < e.1)) }) s)

/-- PEND of a source (R379): held at 0 while EN is 0. -/
def icPend (s : State) (c k : Nat) : Bool :=
  let s := icSettle c s
  isSet s (fSrcEn c k) && (if icLevel c k then icCond s c k else isSet s (fPend c k))

/-- An occurrence at the control processor's controller (R388). -/
def occurCp (k : Nat) (s : State) : State := occur 16 k s

/-- Controller and target of a core (R378, R380, R388): a pair is the target of its first position. -/
def icOf : CoreId → Nat
  | .thread n _ => n.val
  | .lane n _ => n.val
  | .cp => 16

/-- The core whose stack, mask and threshold a core uses (R380). -/
def icCore (s : State) : CoreId → Nat
  | .thread n t => 16 * n.val + t.val
  | .lane n x => 16 * n.val + 12 + firstPos s n.val x.val
  | .cp => 256

/-- A source's TARGET names the core (R380). -/
def icTargets (s : State) (k : Nat) (c : CoreId) : Bool :=
  match c with
  | .cp => true
  | .thread n t => getF s (fSrcTarget n.val k) = t.val
  | .lane n x =>
    let tg := getF s (fSrcTarget n.val k)
    decide (12 ≤ tg) && firstPos s n.val (tg - 12) = firstPos s n.val x.val

/-- A hold-off window of group g of controller c is open (R383). -/
def heldOff (s : State) (c g : Nat) : Bool := decide (now s < Tab.getD s.holds (8 * c + g) 0)

/-- The mask bit of source k at core index i (R384). -/
def icMasked (s : State) (i k : Nat) : Bool := isSet s (bit (privK i (0x10 + 4 * (k / 32))) (k % 32))

/-- Source k is eligible for a core (R380). -/
def eligible (s : State) (c : CoreId) (k : Nat) : Bool :=
  let n := icOf c
  isSet s (fSrcEn n k) && icTargets s k c && icPend s n k && !icMasked s (icCore s c) k &&
    !heldOff s n (getF s (fSrcGroup n k))

/-- The better of a candidate found so far and source k: the lower level, then the lower number (R380). -/
def icBest (s : State) (c : CoreId) (best : Option (Nat × Nat)) (k : Nat) : Option (Nat × Nat) :=
  if eligible s c k then
    match best with
    | some (lv, k') => if getF s (fSrcLevel (icOf c) k) < lv then some (getF s (fSrcLevel (icOf c) k), k)
                       else some (lv, k')
    | none => some (getF s (fSrcLevel (icOf c) k), k)
  else best

/-- The candidate of a core: (level, source) (R380). -/
def candidate (s : State) (c : CoreId) : Option (Nat × Nat) := (List.range 64).foldl (icBest s c) none

/-- Running priority (R380). -/
def runPri (s : State) (i : Nat) : Nat :=
  match (core s i).stack with
  | [] => 8
  | (lv, _) :: _ => lv

/-- The request presented to a core, if any: the candidate whose level is below RP and THR (R380). -/
def presented (s : State) (c : CoreId) : Option (Nat × Nat) :=
  let i := icCore s c
  match candidate s c with
  | some (lv, k) => if lv < runPri s i ∧ lv < getF s (fld (privK i 4) 3 0) then some (lv, k) else none
  | none => none

/-- What the controller does at commit (R381): push, clear PEND of an edge source, start the hold-off. -/
def icCommit (c : CoreId) (lv k : Nat) (s : State) : State :=
  let n := icOf c
  let t := now s
  let s := icSettle n s
  let s := updClus n (fun x => { x with commits := (t, if x.commits.1 = t then k :: x.commits.2 else [k]) }) s
  let g := getF s (fSrcGroup n k)
  let h := getF s (fHoldRounds n g)
  let s := updCore (icCore s c) (fun x => { x with stack := (lv, k) :: x.stack }) s
  let s := if icLevel n k then s else setF (fPend n k) 0 s
  if h = 0 then s else mapHolds (fun t => Tab.put t (8 * n + g) (now s + 24 * h)) s

/-- IC_RP of a core index as its bits show it (R384). -/
def icRp (s : State) (i : Nat) : Word :=
  let st := (core s i).stack
  let top := match st with
    | [] => 0x7F
    | (_, k) :: _ => k
  withBits (withBits (withBits (reg s (privK i 0)) 3 0 (runPri s i)) 7 4 st.length) 22 16 top

/-! ### Wake events (R409, R418) -/

def fChip : Fld := fld 0x47000000 2 0
def fWakeSource : Fld := fld 0x47000030 3 0
def fWakeIndex : Fld := fld 0x47000030 15 8
def fWakeReplay : Fld := bit 0x47000030 16
def fWakeMore : Fld := bit 0x47000030 17

/-- An entry to a low-power state is under way (R407, R418). -/
def chipEntering (s : State) : Bool := getF s fChip = 1 || getF s fChip = 3

/-- The wake record takes an event (R409). -/
def wakeRecord (e : WakeEv) (replay : Bool) (s : State) : State :=
  let s := setF fWakeMore 0 (setF fWakeReplay replay.toNat (setF fWakeIndex e.index (setF fWakeSource e.source s)))
  let sec := e.cal / 65536
  setReg 0x4700003C (BitVec.ofNat 32 (e.cal % 65536)) (setReg 0x47000038 (BitVec.ofNat 32 (sec / 2 ^ 32 % 65536))
    (setReg 0x47000034 (BitVec.ofNat 32 sec) s))

/-- A wake event outside RUN (R409): latched in [E0, E1), starting the exit in STANDBY or DEEP, else only MORE. -/
def wakeEvent (source index : Nat) (s : State) : State :=
  let e : WakeEv := { source := source, index := index, cal := s.cal.val }
  if s.power.exiting then setF fWakeMore 1 s
  else if chipEntering s then updPower (fun p => { p with wakes := p.wakes ++ [e] }) s
  else if getF s fChip = 2 || s.power.deep then updPower (fun p => { p with exiting := true }) (wakeRecord e false s)
  else s

/-- Start the wake of a DARK cluster (R402, R403): WAKING, with its first source. -/
def wakeStart (n src : Nat) (s : State) : State :=
  setF (fPwr n) 3 (updPwrCl n (fun p => { p with wake := some src, latched := none, reset := false }) s)

/-- A wake request for cluster n (R402): it starts the wake of a DARK cluster, is latched in ENTERING, and has no
further effect otherwise. Sources: 1 POWER command, 2 wake-class doorbell, 3 event router, 4 sentry. In STANDBY the first
two are wake events of the chip (R409): the doorbell with its tenant. -/
def wakeRequest (n src : Nat) (s : State) : State :=
  let s := if getF s fChip = 2 ∧ (src = 1 ∨ src = 2) then
      (if src = 2 then wakeEvent 4 ((pwrCl s n).wokeBell.elim 0 (fun t => t)) s else wakeEvent 5 0 s)
    else s
  if getF s (fPwr n) = 2 then wakeStart n src s
  else if getF s (fPwr n) = 1 then
    updPwrCl n (fun p => if p.latched.isNone then { p with latched := some src } else p) s
  else s

/-- Pop a core's stack; on an empty stack IC_RP.EOIERR is set (R382). -/
def icPop (i : Nat) (s : State) : State :=
  match (core s i).stack with
  | [] => flag (bit (privK i 0) 31) s
  | _ :: st => updCore i (fun x => { x with stack := st }) s


/-- Push a raised level, or set RAISEREJ (R382). -/
def icRaise (i : Nat) (v : Word) (s : State) : State :=
  if bitsOf v 2 0 < runPri s i then updCore i (fun x => { x with stack := (bitsOf v 2 0, 0x7F) :: x.stack }) s
  else flag (bit (privK i 0) 30) s


/-- The sources 32 h + b of the bits b set in a word. -/
def bitsSet (v : Word) : List Nat := (List.range 32).filter (fun b => v.getLsbD b)

/-- IC_SET: an occurrence of each named edge source (R379). -/
def icSet (n : Nat) (hi : Bool) (v : Word) (s : State) : State :=
  each (bitsSet v) (fun b => occur n (if hi then 32 + b else b)) (icSettle n s)

/-- A configuration write of a source (R379, R386): EN cleared holds PEND at 0; EN set with the latch bit at 1 sets
PEND and clears the latch. Reserved sources keep 0; at the control processor's controller another TARGET than 0 leaves
the field (R388). -/
def icSrcWrite (n k : Nat) (v : Word) (s : State) : State :=
  if icReserved n k then s
  else
    let v := if n = 16 then withBits v 19 16 (if bitsOf v 19 16 = 0 then 0 else getF s (fSrcTarget n k)) else v
    let s := icSettle n s
    let was := isSet s (fSrcEn n k)
    let s := softWrite (icK n (4 * k)) v s
    if isSet s (fSrcEn n k) then
      if !was && isSet s (fLatch n k) then setF (fLatch n k) 0 (flag (fPend n k) s) else s
    else setF (fPend n k) 0 s

/-- A hold-off window's end (R383): the group's sources become eligible again. -/
def execHoldoffEnd (n : ClusterId) (g : Fin 8) (s : State) : Outcome :=
  match Tab.find s.holds (8 * n.val + g.val) with
  | some e =>
    if dueNow s e then done (mapHolds (fun t => Tab.del t (8 * n.val + g.val)) (goTo e s)) else done s
  | none => done s

/-- Arm a core timer (R384): a write of CT_HI with the CT_LO value last written; a value that is not ahead falls due at the
next turn. -/
def timerArm (i : Nat) (v : Word) (s : State) : State :=
  let s := setReg (privK i 0x24) v s
  let t := now s
  updCore i (fun x => { x with alarm := some (max (t + 1) ((reg s (privK i 0x20)).toNat + 2 ^ 32 * v.toNat)) }) s

/-- CORE_TIMER_DUE (R384): the first turn at or past the compare value; the source rises and the timer disarms. -/
def execCoreTimerDue (c : CoreId) (s : State) : Outcome :=
  match c with
  | .thread _ _ => done s
  | .lane n x =>
    match (core s (coreIx c)).alarm with
    | some e =>
      if dueNow s e then
        done (occur n.val (13 + x.val) (updCore (coreIx c) (fun y => { y with alarm := none }) (goTo e s)))
      else done s
    | none => done s
  | .cp =>
    match (core s 256).alarm with
    | some e =>
      if dueNow s e then done (occurCp 9 (updCore 256 (fun y => { y with alarm := none }) (goTo e s))) else done s
    | none => done s

/-- THREAD_ALARM (R218): TURN_ABS reaches the armed alarm, so THR_WAKE.ALARM rises; source 1 + s occurs (R378). -/
def execThreadAlarm (n : ClusterId) (th : ThreadNo) (s : State) : Outcome :=
  match (core s (16 * n.val + th.val)).alarm with
  | some e =>
    let i := 16 * n.val + th.val
    if dueNow s e ∧ !(core s i).risen then
      done (occur n.val (1 + th.val) (updCore i (fun x => { x with risen := true }) (goTo e s)))
    else done s
  | none => done s

/-- Arm a thread alarm (R218): a write of THR_ALARM_HI with the LO value last written. An alarm at or below the present
turn rises at once. -/
def alarmArm (n t : Nat) (v : Word) (s : State) : State :=
  let i := 16 * n + t
  let s := setReg (privK i 0x618) v s
  let e := (reg s (privK i 0x614)).toNat + 2 ^ 32 * v.toNat
  let was := match (core s i).alarm with
    | some e' => decide (e' ≤ now s)
    | none => false
  let rise := decide (e ≤ now s)
  let s := updCore i (fun x => { x with alarm := some e, risen := rise }) s
  if rise && !was then occur n (1 + t) s else s

end Sys2Proof.Machine
end

