-- ==== Sys2Proof/Machine/Journal.lean ====
section
/-! DEFINITION. The journal engine's operations (spec/07_journal.md): the record encoding, accepting a record, opening,
closing, placing, signing and committing segments, the trace codecs. -/

namespace Sys2Proof.Machine

/-! ### Record encoding (R176, R177, R179) -/

/-- Unsigned LEB128 of at most `n` bytes (R176). -/
def varintN : Nat → Nat → List Byte
  | 0, _ => []
  | n + 1, v => if v < 128 then [BitVec.ofNat 8 v] else BitVec.ofNat 8 (128 + v % 128) :: varintN n (v / 128)

/-- A varint: at most 10 bytes (R176). -/
def varint (v : Nat) : List Byte := varintN 10 v

/-- Read a varint back: the value and the rest. -/
def unvarint : List Byte → Option (Nat × List Byte)
  | [] => none
  | b :: bs =>
    if b.toNat < 128 then some (b.toNat, bs)
    else match unvarint bs with
      | some (v, rest) => some (b.toNat - 128 + 128 * v, rest)
      | none => none

/-- (n << 1) XOR (n >> 63), computed on 64 bits (R176). -/
def zigzag (n : Int) : Nat :=
  let m := n.bmod (2 ^ 64)
  if 0 ≤ m then 2 * m.toNat else 2 * (-m).toNat - 1

/-- The signed value of a zigzag number. -/
def unzigzag (v : Nat) : Int := if v % 2 = 0 then (v / 2 : Nat) else -(((v + 1) / 2 : Nat) : Int)

def zvarint (n : Int) : List Byte := varint (zigzag n)

/-- A record as bytes, after a record stamped `prev` (R176, R177). -/
def recBytes (prev : Stamp) (r : JRec) : List Byte :=
  let cal := r.stamp.cal ≠ prev.cal
  let df : Int := (r.stamp.frame : Int) - prev.frame
  [BitVec.ofNat 8 r.type,
   BitVec.ofNat 8 ((if r.stamp.hold then 1 else 0) + (if r.stamp.stale then 2 else 0) + (if cal then 4 else 0))] ++
  varint r.payload.length ++ zvarint df ++
  (if df = 0 then zvarint ((r.stamp.turn : Int) - prev.turn) else varint r.stamp.turn) ++
  (if cal then zvarint ((r.stamp.cal : Int) - prev.cal) else []) ++ r.payload

/-- The record stream of records given oldest first. -/
def stream (prev : Stamp) : List JRec → List Byte
  | [] => []
  | r :: rs => recBytes prev r ++ stream r.stamp rs

/-- Stamp that the next record's deltas count from. -/
def Seg.prev (g : Seg) : Stamp :=
  match g.recs with
  | [] => g.openStamp
  | r :: _ => r.stamp

/-- Bits packed least significant first into bytes. -/
def packBits : List Bool → List Byte
  | b0 :: b1 :: b2 :: b3 :: b4 :: b5 :: b6 :: b7 :: bs =>
    BitVec.ofNat 8 (b0.toNat + 2 * b1.toNat + 4 * b2.toNat + 8 * b3.toNat + 16 * b4.toNat + 32 * b5.toNat +
      64 * b6.toNat + 128 * b7.toNat) :: packBits bs
  | [] => []
  | bs => [BitVec.ofNat 8 (bs.foldr (fun b v => b.toNat + 2 * v) 0)]

/-- The entries of a PORT_RX or PORT_TX record: VALUE, then DT (R179). -/
def runEntries : Nat → List RxByte → List Byte
  | _, [] => []
  | prev, b :: bs => b.val :: varint (b.stamp - prev) ++ runEntries b.stamp bs

/-- Payload of a PORT_RX or PORT_TX record of bytes given oldest first (R179). -/
def runPayload (port : Nat) (bs : List RxByte) : List Byte :=
  let ninth := bs.any (fun b => b.ninth)
  let err := bs.any (fun b => b.err)
  let t0 := match bs with
    | [] => 0
    | b :: _ => b.stamp
  le 2 port ++ [BitVec.ofNat 8 (ninth.toNat + 2 * err.toNat), BitVec.ofNat 8 bs.length] ++ runEntries t0 bs ++
  (if ninth then packBits (bs.map (fun b => b.ninth)) else []) ++
  (if err then packBits (bs.map (fun b => b.err)) else [])

/-! ### Settle traces: knots and payload (R189–R191) -/

/-- A reading of a settle trace (R189): status, weight, division, completion turn, acted on, packet. -/
abbrev Reading := Nat × Int × Int × Nat × Bool × Packet

def Reading.status (r : Reading) : Nat := r.1
def Reading.w (r : Reading) : Int := r.2.1
def Reading.d (r : Reading) : Int := r.2.2.1
def Reading.turn (r : Reading) : Nat := r.2.2.2.1
def Reading.acted (r : Reading) : Bool := r.2.2.2.2.1
def Reading.pkt (r : Reading) : Packet := r.2.2.2.2.2

/-- The line from reading a to reading c lies within d ÷ 2 of reading i (R190), in exact arithmetic. -/
def fitsOne (d : Int) (a c i : Reading) : Bool :=
  let den : Int := (Reading.turn c : Int) - Reading.turn a
  decide (2 * ((((Reading.w a - Reading.w i) * den + (Reading.w c - Reading.w a) *
    ((Reading.turn i : Int) - Reading.turn a)).natAbs : Nat) : Int) ≤ d * den)

/-- Reading i of a trace is forced to be a knot (R190). -/
def forcedAt (rs : List Reading) (i : Nat) : Bool :=
  match rs[i]? with
  | some r => Reading.acted r || Reading.status r ≠ 1 || i + 1 = rs.length
  | none => true

/-- fits(a, c) of R190. -/
def fitsSpan (d : Int) (rs : List Reading) (a c : Nat) : Bool :=
  match rs[a]?, rs[c]? with
  | some ra, some rc => (List.range c).all (fun i => decide (i ≤ a) || (!forcedAt rs i && (match rs[i]? with
      | some ri => fitsOne d ra rc ri
      | none => false)))
  | _, _ => false

/-- The knot after knot a, from candidate b on (R190); the fuel is the number of readings. -/
def nextKnot (d : Int) (rs : List Reading) (a : Nat) : Nat → Nat → Nat
  | 0, b => b
  | n + 1, b => if b + 1 < rs.length ∧ !forcedAt rs b ∧ fitsSpan d rs a (b + 1) then nextKnot d rs a n (b + 1) else b

/-- The knots from knot a on (R190). -/
def knotsFrom (d : Int) (rs : List Reading) : Nat → Nat → List Nat
  | 0, a => [a]
  | n + 1, a => if a + 1 < rs.length then a :: knotsFrom d rs n (nextKnot d rs a rs.length (a + 1)) else [a]

def knots (d : Int) (rs : List Reading) : List Nat := knotsFrom d rs rs.length 0

/-- The entries of a SETTLE_TRACE payload (R191). -/
def settleEntries (ks : List Nat) : Nat → Nat → List Reading → List Byte
  | _, _, [] => []
  | i, prev, r :: rs =>
    let k := Reading.pkt r
    let kn := ks.contains i
    let pk := k.pk % 65536
    varint (if i = 0 then 0 else Reading.turn r - prev) ++ varint (Reading.turn r - k.first) ++
    [BitVec.ofNat 8 k.bytes.length, BitVec.ofNat 8 (Reading.status r),
     BitVec.ofNat 8 ((if kn then 1 else 0) + (if Reading.acted r then 2 else 0) + (if pk ≠ 0 then 4 else 0))] ++
    (if kn then (BitVec.ofInt 32 (Reading.w r)).toNat |> le 4 |> fun w => w ++ runEntries k.first k.bytes ++
        (if pk ≠ 0 then le 2 pk else [])
      else []) ++
    settleEntries ks (i + 1) (Reading.turn r) rs

/-- The SETTLE_TRACE payload of a trace's readings, oldest first (R191). -/
def settlePayload (t : STrace) : List Byte :=
  let rs := t.reads.reverse
  let d : Int := match rs with
    | [] => 0
    | r :: _ => Reading.d r
  le 2 t.port ++ [BitVec.ofNat 8 t.tenant, BitVec.ofNat 8 t.dev] ++ le 4 (BitVec.ofInt 32 d).toNat ++
  [BitVec.ofNat 8 rs.length] ++ settleEntries (knots d rs) 0 0 rs

/-! ### Current traces (R187, R188) -/

/-- K(q) = round(2³² × 2^((q − 63) ÷ 11)), q = 0–63 (R188). -/
def logK : List Nat :=
  [81073510, 86346620, 91962698, 97944052, 104314440, 111099165, 118325175, 126021174] ++
  [134217728, 142947395, 152244850, 162147020, 172693239, 183925396, 195888104, 208628880] ++
  [222198329, 236650351, 252042347, 268435456, 285894791, 304489699, 324294041, 345386479] ++
  [367850791, 391776208, 417257759, 444396658, 473300701, 504084694, 536870912, 571789581] ++
  [608979398, 648588082, 690772957, 735701583, 783552415, 834515518, 888793317, 946601402] ++
  [1008169389, 1073741824, 1143579162, 1217958797, 1297176164, 1381545914, 1471403166, 1567104831] ++
  [1669031036, 1777586633, 1893202804, 2016338777, 2147483648, 2287158324, 2435917593, 2594352327] ++
  [2763091829, 2942806332, 3134209662, 3338062072, 3555173266, 3786405609, 4032677554, 4294967296]

/-- The log code of a reading in a block whose largest reading is t > 0 (R188). -/
def logCode (t r : Nat) : Nat :=
  match (List.range 64).find? (fun q => decide (r * 2 ^ 32 ≤ t * nth 0 logK q)) with
  | some q => q
  | none => 63

/-- The low `n` bits of a number, least significant first. -/
def bitsLsb : Nat → Nat → List Bool
  | 0, _ => []
  | n + 1, v => (v % 2 = 1) :: bitsLsb n (v / 2)

/-- One block of up to 32 samples in FORM 1 (R188). -/
def logBlock (rs : List Nat) : List Byte :=
  let t := rs.foldl max 0
  le 2 t ++ (if t = 0 then [] else packBits ((rs.map (fun r => bitsLsb 6 (logCode t r))).flatten))

/-- Cut a list into blocks of 32; the fuel is the list's length. -/
def blocks32 : Nat → List Nat → List (List Nat)
  | 0, _ => []
  | _ + 1, [] => []
  | n + 1, rs => rs.take 32 :: blocks32 n (rs.drop 32)

/-- Samples in FORM 0: two in three bytes (R187). -/
def pack12 : List Nat → List Byte
  | a :: b :: rs => le 3 (a % 4096 + 4096 * (b % 4096)) ++ pack12 rs
  | [a] => le 2 (a % 4096)
  | [] => []

/-- Payload of a CURRENT_TRACE record of samples given oldest first (R187). -/
def tracePayload (ch endCode : Nat) (log : Bool) (rs : List Nat) : List Byte :=
  [BitVec.ofNat 8 ch, BitVec.ofNat 8 endCode] ++ le 2 rs.length ++ [if log then 1 else 0] ++
  (if log then ((blocks32 rs.length rs).map logBlock).flatten else pack12 rs)

/-! ### The dictionary coder (R184, R185) -/

/-- Copy `n` bytes one at a time from `d` back in an output given newest first. -/
def copyBack (d : Nat) : Nat → List Byte → List Byte
  | 0, out => out
  | n + 1, out => copyBack d n (nth 0 out (d - 1) :: out)

/-- Decode tokens onto an output given newest first (R184); `none` where a token is cut short or a match reaches before the
output's start. The fuel bounds the number of tokens. -/
def decodeToks : Nat → List Byte → List Byte → Option (List Byte)
  | _, [], out => some out
  | 0, _ :: _, _ => none
  | n + 1, b :: bs, out =>
    let k := b.toNat
    if k < 128 then
      if bs.length < k + 1 then none else decodeToks n (bs.drop (k + 1)) ((bs.take (k + 1)).reverse ++ out)
    else match bs with
      | lo :: hi :: rest =>
        let d := lo.toNat + 256 * hi.toNat + 1
        if out.length < d then none else decodeToks n rest (copyBack d (k - 124) out)
      | _ => none

/-- The record stream that a body decodes to (R184). -/
def decodeBody (body : List Byte) : Option (List Byte) := (decodeToks body.length body []).map List.reverse

/-- A stream as literal tokens only; the fuel is its length. -/
def literals : Nat → List Byte → List Byte
  | 0, _ => []
  | n + 1, bs => if bs.isEmpty then [] else
      BitVec.ofNat 8 ((bs.take 128).length - 1) :: bs.take 128 ++ literals n (bs.drop 128)

/-- The greatest body of a stream of n bytes (R185). -/
def bodyMax (n : Nat) : Nat := n + (n + 127) / 128

/-- The body that the chip stores for a stream (R184, R185): one of its own choice that decodes to the stream and is not too
long, else literals. -/
def encodeBody (str : List Byte) : List Byte :=
  let b := Config.bodyCode str
  if decodeBody b = some str ∧ b.length ≤ bodyMax str.length then b else literals str.length str

/-! ### Segments (R180, R181, R186, R193–R196) -/

/-- JNL_CTRL and JNL_STAT (R201). -/
def fJnlEnable : Fld := bit 0x40000000 0
def fJnlRunning : Fld := bit 0x40000004 0
def fJnlDegraded : Fld := bit 0x40000004 1
def fJnlFull : Fld := bit 0x40000004 2
def fJnlDropping : Fld := bit 0x40000004 3
def fJnlGap : Fld := bit 0x40000004 4
def fJnlDrive : Fld := bit 0x40000004 5
def fJnlCfgerr : Fld := bit 0x40000004 6
def fJnlDrops : Fld := fld 0x40000020 31 0
def fNsCfg (n hi lo : Nat) : Fld := fld (0x40000108 + 16 * n) hi lo
def fNsValid (n : Nat) : Fld := fNsCfg n 0 0
def fNsMirrored (n : Nat) : Fld := fNsCfg n 3 3
def fNsMirror (n : Nat) : Fld := fNsCfg n 7 4
def fNsState (n : Nat) : Fld := fNsCfg n 9 8
def fNsIsMirror (n : Nat) : Fld := fNsCfg n 11 11
def fNsPort (n : Nat) : Fld := fNsCfg n 2 1

/-- BOOT_STAT.KEYFAIL (R431): the engine accepts no record. -/
def fKeyfail : Fld := bit 0x4A000004 3

/-- Staging capacity: 8 MiB (R196). -/
def stageMax : Nat := 8388608

/-- Greatest record stream of a segment (R180). -/
def rawMax : Nat := 1048576

/-- Turns of a second: a segment's time limit (R180). -/
def segTurns : Nat := 480000000

/-- The record stream of a segment: its own records, or those that a group member sent (R200). -/
def segStream (g : Seg) : List Byte := stream g.openStamp g.recs.reverse ++ g.ext.reverse.flatten

/-- A segment's stored body (R184, R185), and its bytes with the header. -/
def segBody (g : Seg) : List Byte := encodeBody (segStream g)
def segSize (g : Seg) : Nat := 256 + (segBody g).length

/-- A group member whose entries are all invalid sends its record stream over U (R200, R349). -/
def streams (s : State) : Bool :=
  isMember s && isSet s fGrpAdmitted && (List.range 16).all (fun n => !isSet s (fNsValid n))

/-- JOURNAL frames that the ancestor has not acknowledged. -/
def inFlight (s : State) : List OutFrame := (drn s 0).replay.filter (fun f => f.type = 0x0A)

/-- Bytes held in staging (R196): closed segments not yet committed and the open segment's stream; of a member that sends
its stream, what the ancestor has not taken (R349). -/
def staged (s : State) : Nat :=
  s.journal.stage + (if streams s then (inFlight s).foldl (fun n f => n + f.payload.length) 0
    else match s.journal.openSeg with
      | some g => g.raw
      | none => 0)

/-- Send a piece of this member's record stream (R349; layout: log entry 33): KIND 0 a segment opens, 1 a record, 2 the
segment closes. -/
def streamOut (kind : Nat) (data : List Byte) (s : State) : State :=
  if streams s then drnSend 0 0x0A false 0xFFFF (le 2 (ownSeat s) ++ [BitVec.ofNat 8 kind] ++ data) s else s

/-- A segment that opens at a turn (R180, R181, R186). -/
def newSeg (s : State) (t : Nat) : Seg :=
  { seq := 0, jaddr := 0, openTurn := t, openStamp := stampAt s t, closeTurn := 0, closeStamp := stampAt s t,
    close := 0, loss := bitsOf (reg s 0x40000000) 3 2, epoch := (reg s 0x42000404).toNat,
    seat := bitsOf (reg s 0x42000400) 15 0, lenRounds := getF s fLenActive, recs := [], ext := [], raw := 0, chain := none,
    members := [], header := none }

/-- What a member tells of a segment that opens: OPEN_STAMP, LOSS, EPOCH and LEN_ROUNDS. -/
def openInfo (g : Seg) : List Byte := stampBytes g.openStamp ++ [BitVec.ofNat 8 g.loss] ++ le 4 g.epoch ++ le 4 g.lenRounds

/-- Add a record to a segment. -/
def segAdd (r : JRec) (g : Seg) : Seg :=
  { g with recs := r :: g.recs, raw := g.raw + (recBytes g.prev r).length }

/-- Codes of a JOURNAL record (R175; the numbers and the payload layouts are the model's, log entry 14). -/
def gapPayload (n : Nat) (a b : Stamp) : List Byte := [2] ++ le 4 n ++ stampBytes a ++ stampBytes b

/-- Lose a record (R196): counted in JNL_DROPS, DROPPING and GAP set. -/
def loseRec (st : Stamp) (s : State) : State :=
  let gap := match s.journal.gap with
    | some (n, a, _) => (n + 1, a, st)
    | none => (1, st, st)
  let s := if isSet s fJnlGap then s else occurCp 4 s
  updJnl (fun j => { j with gap := some gap }) (flag fJnlGap (setF fJnlDropping 1 (addF fJnlDrops 1 s)))

/-- Append a record to the open segment, or lose it for a full staging (R196). -/
def appendRec (r : JRec) (s : State) : State :=
  match s.journal.openSeg with
  | none => loseRec r.stamp s
  | some g =>
    let b := recBytes g.prev r
    if stageMax < staged s + b.length then loseRec r.stamp s
    else
      let s := updJnl (fun j => { j with openSeg := some (segAdd r g) }) s
      if streams s then
        let n := (inFlight s).length
        streamOut 1 b (updJnl (fun j => { j with flight := r.stamp :: j.flight.take n }) s)
      else s

/-- Open a segment; the first one opened after space returns begins with a GAP record (R196). -/
def openNew (t : Nat) (s : State) : State :=
  let g := newSeg s t
  let s := streamOut 0 (openInfo g) (updJnl (fun j => { j with openSeg := some g }) s)
  match s.journal.gap with
  | some (n, a, b) =>
    if staged s < stageMax then
      appendRec { type := 0x12, stamp := stampAt s t, payload := gapPayload n a b }
        (updJnl (fun j => { j with gap := none }) (setF fJnlDropping 0 s))
    else s
  | none => s

/-! ### Placement (R193–R195, R197) -/

/-- Entry n is a valid primary (R193). -/
def nsPrimary (s : State) (n : Nat) : Bool := isSet s (fNsValid n) && !isSet s (fNsIsMirror n)

/-- Size of the journal address space (R193). -/
def jnlSpace (s : State) : Nat :=
  min (2 ^ 48) ((List.range 16).foldl
    (fun a n => if nsPrimary s n then a + (reg s (0x40000104 + 16 * n)).toNat * 4096 else a) 0)

/-- The 4,096-aligned address from `a` on. -/
def align4k (a : Nat) : Nat := (a + 4095) / 4096 * 4096

/-- Where the segment after one at `a` of `n` bytes begins (R194). -/
def nextPlace (s : State) (a n : Nat) : Nat :=
  let b := align4k (a + n)
  if jnlSpace s < b + 0x103000 then 0x10000 else b

/-- A segment of `n` bytes can be placed at the write pointer without reaching the archive pointer (R195); a failed
unmirrored entry stops placement (R197). -/
def canPlace (s : State) (n : Nat) : Bool :=
  let w := s.journal.wptr
  let a := s.journal.arch
  let nx := nextPlace s w n
  decide (w + n ≤ jnlSpace s) && (if w = a then true else if a < w then decide (w < nx ∨ nx < a) else decide (w < nx ∧ nx < a)) &&
  (List.range 16).all (fun e => !(nsPrimary s e && getF s (fNsState e) = 1 &&
    !(isSet s (fNsMirrored e) && getF s (fNsState (getF s (fNsMirror e))) = 0)))

/-- JNL_STAT.FULL (R195): the next segment to place cannot be placed. -/
def jnlFull (s : State) : State :=
  setF fJnlFull (match s.journal.closed.find? (fun g => g.header.isNone) with
    | some g => if canPlace s (segSize g) then 0 else 1
    | none => 0) s

/-! ### Closing and accepting (R175, R179, R180, R189) -/

/-- The record of a run of port bytes (R179). -/
def runRec (s : State) (r : JRun) : List JRec :=
  match r.bytes.reverse with
  | [] => []
  | b :: bs => [{ type := if r.tx then 0x02 else 0x01, stamp := stampAt s b.stamp, payload := runPayload r.port (b :: bs) }]

/-- The record of a settle trace (R189, R191). -/
def traceRec (s : State) (t : STrace) : List JRec :=
  match t.reads.reverse with
  | [] => []
  | r :: _ => [{ type := 0x0C, stamp := stampAt s (Reading.turn r), payload := settlePayload t }]

/-- How many of some records fit in a segment (R180). -/
def fitCount (g : Seg) : List JRec → Nat
  | [] => 0
  | r :: rs => if g.raw + (recBytes g.prev r).length ≤ rawMax then fitCount (segAdd r g) rs + 1 else 0

/-- Close the open segment at a turn with a CLOSE code, and open the next there (R180). Open settle traces and runs close
with it (R179, R189); what does not fit in it opens the next. -/
def closeSeg (code t : Nat) (s : State) : State :=
  let rs := (s.journal.traces.map (traceRec s)).flatten ++ (s.journal.runs.map (runRec s)).flatten
  let s := updJnl (fun j => { j with runs := [], traces := [] }) s
  let k := s.journal.openSeg.elim 0 (fun g => fitCount g rs)
  let s := each (rs.take k) appendRec s
  match s.journal.openSeg with
  | none => each rs appendRec s
  | some g =>
    let g' := { g with close := code, closeTurn := t, closeStamp := stampAt s t }
    let s := if streams s then streamOut 2 ([BitVec.ofNat 8 code] ++ stampBytes g'.closeStamp) s
      else updJnl (fun j => { j with closed := j.closed ++ [g'], stage := j.stage + segSize g' }) s
    each (rs.drop k) appendRec (openNew t (jnlFull (updJnl (fun j => { j with openSeg := none }) s)))

/-- Segments are closed by size and time: the engine runs, or the stream is sent to an ancestor (R180, R200). -/
def limited (s : State) : Bool := isSet s fJnlRunning || streams s

/-- Close every segment whose second has passed (R180): a record accepted then belongs to a later one. -/
def timeClose : Nat → State → State
  | 0, s => s
  | n + 1, s =>
    match s.journal.openSeg with
    | some g => if limited s && decide (g.openTurn + segTurns ≤ now s) then timeClose n (closeSeg 1 (g.openTurn + segTurns) s) else s
    | none => s

/-- Seconds since the open segment opened. -/
def segAge (s : State) : Nat := s.journal.openSeg.elim 0 (fun g => (now s - g.openTurn) / segTurns)

/-- The LOSS of the open segment (R186): what is accepted now is kept in its lossy form. -/
def lossSet (s : State) : Nat := s.journal.openSeg.elim 0 (fun g => g.loss)

/-- Append the record that `r` gives for the LOSS of its segment, closing the segment before it whose second has passed or
whose stream it would make longer than 1,048,576 bytes (R180, R187, R196). -/
def accept (r : Nat → JRec) (s : State) : State :=
  let s := timeClose (segAge s) s
  let of_ := fun (s : State) => r (lossSet s)
  match s.journal.openSeg with
  | none => loseRec (of_ s).stamp s
  | some g =>
    if limited s && decide (rawMax < g.raw + (recBytes g.prev (of_ s)).length) then
      let s := closeSeg 0 (now s) s
      appendRec (of_ s) s
    else appendRec (of_ s) s

/-- A member journals no record of a frame before that frame's TICK has arrived (R345). -/
def awaitsTick (s : State) (turn : Nat) : Bool :=
  isMember s && isSet s fGrpAdmitted && s.group.tickFrame.elim true (fun k => decide (k < (frameAt s turn).frame))

/-- Accept a record of a type at a turn (R175), with its payload and the payload it has where LOSS[0] is set (R187); none is
accepted after a failed key check (R431). -/
def jnlBy (type turn : Nat) (exact log : List Byte) (s : State) : State :=
  if isSet s fKeyfail then s
  else if awaitsTick s turn then updJnl (fun j => { j with waiting := j.waiting ++ [(type, turn, exact, log)] }) s
  else
    let st := stampAt s turn
    accept (fun loss => { type := type, stamp := st, payload := if loss % 2 = 1 then log else exact }) s

/-- Accept a record whose payload depends on no codec. -/
def jnlAt (type turn : Nat) (payload : List Byte) (s : State) : State := jnlBy type turn payload payload s

/-- Accept a record stamped with the present turn. -/
def jnl (type : Nat) (payload : List Byte) (s : State) : State := jnlAt type (now s) payload s

/-- Records that waited for a TICK (R345) are accepted, or wait on. -/
def jnlFlush (s : State) : State :=
  each s.journal.waiting (fun w => jnlBy w.1 w.2.1 w.2.2.1 w.2.2.2) (updJnl (fun j => { j with waiting := [] }) s)

/-! ### Records by type (R175). Layouts that the spec does not state are the model's (log entry 14). -/

/-- PACKET record: PORT, PK, LENGTH (R179). -/
def jPacket (turn port pk len : Nat) : State → State := jnlAt 0x03 turn (le 2 port ++ le 2 pk ++ le 2 len)
def jSlotIn (slot : Slot) : State → State := jnl 0x04 slot
def jSlotOut (turn : Nat) (slot : Slot) : State → State := jnlAt 0x05 turn slot
/-- TENANT_EVENT: 0 overrun, 1 degraded, 2 LATE release, 3 reset start, 4 reset completion, 5 queue delay, 6 slot
discard. -/
def jTenant (ev t frame : Nat) : State → State := jnl 0x06 ([BitVec.ofNat 8 ev, BitVec.ofNat 8 t] ++ le 8 frame)
/-- DEVICE_EVENT: 0 STATE_CONFLICT, 1 DROPPED_ONESHOT, 2 sequence timeout, 3 PARTNER_CHANGED, 4 UNEXPECTED,
5 RENDER_FAIL, 6 CASCADE_LIMIT, 7 HOLD, 8 JOURNAL action, 9 unbind discard, 10 discarded by a reset or dark entry. -/
def jDevice (ev t d tag : Nat) (data : List Byte) : State → State :=
  jnl 0x07 ([BitVec.ofNat 8 ev, BitVec.ofNat 8 t, BitVec.ofNat 8 d] ++ le 2 tag ++ data)
/-- PORT_EVENT: 0 state change (data the new state), 1 probe exchange, 2 switch, 3 attach, 4 loss, 5 VIO_FAIL. -/
def jPort (ev p : Nat) (data : List Byte) : State → State := jnl 0x08 ([BitVec.ofNat 8 ev] ++ le 2 p ++ data)
def jSettle (p : Nat) (discarded : Bool) (data : List Byte) : State → State :=
  jnl 0x09 (le 2 p ++ [if discarded then 1 else 0] ++ data)
def jLoad (ch ev : Nat) (data : List Byte) : State → State :=
  jnl 0x0A ([BitVec.ofNat 8 ch, BitVec.ofNat 8 ev] ++ data)
/-- TIME: 0 calendar step, 1 frame length, 2 holdover entry, 3 holdover exit, 4 admission jump. -/
def jTime (ev : Nat) (data : List Byte) : State → State := jnl 0x0F ([BitVec.ofNat 8 ev] ++ data)
/-- PERSONALITY: 0 staging, 1 verification, 2 activation, 3 removal, 4 minor switch tick, 5 change turn, 6 key. -/
def jPers (ev : Nat) (data : List Byte) : State → State := jnl 0x10 ([BitVec.ofNat 8 ev] ++ data)
def jAdmin (slot : Slot) : State → State := jnl 0x11 slot
/-- JOURNAL: 1 RESTART, 2 GAP, 3 drive failure, 4 replacement, 5 rebuild, 6 archive move. -/
def jJournal (code : Nat) (data : List Byte) : State → State := jnl 0x12 ([BitVec.ofNat 8 code] ++ data)

/-! ### Byte runs (R22, R179) and traces -/

/-- Accept records as they are. -/
def acceptAll (rs : List JRec) (s : State) : State := each rs (fun r => accept (fun _ => r)) s

/-- Close a run: its record is accepted (R179). -/
def runClose (tx : Bool) (p : Nat) (s : State) : State :=
  match s.journal.runs.find? (fun r => r.tx = tx && r.port = p) with
  | none => s
  | some r =>
    let s := updJnl (fun j => { j with runs := j.runs.filter (fun q => !(q.tx = tx && q.port = p)) }) s
    match r.bytes.reverse with
    | [] => s
    | b :: bs => jnlAt (if tx then 0x02 else 0x01) b.stamp (runPayload p (b :: bs)) s

/-- Hand a port byte to the journal; a run closes at 255 bytes (R22, R179). -/
def runByte (tx : Bool) (p : Nat) (b : RxByte) (s : State) : State :=
  let old := match s.journal.runs.find? (fun r => r.tx = tx && r.port = p) with
    | some r => r.bytes
    | none => []
  let s := updJnl (fun j => { j with runs := { tx := tx, port := p, bytes := b :: old } ::
                                       j.runs.filter (fun q => !(q.tx = tx && q.port = p)) }) s
  if old.length + 1 = 255 then runClose tx p s else s

/-- Close the settle trace of a device, if one is open (R189, R190). -/
def settleClose (tn dv : Nat) (s : State) : State :=
  match s.journal.traces.find? (fun t => t.tenant = tn && t.dev = dv) with
  | none => s
  | some t =>
    let s := updJnl (fun j => { j with traces := j.traces.filter (fun u => !(u.tenant = tn && u.dev = dv)) }) s
    match t.reads.reverse with
    | [] => s
    | r :: _ => jnlAt 0x0C (Reading.turn r) (settlePayload t) s

/-- Record a channel's running trace at its end: 0 window end, 1 sag abort, 2 trip, 3 OFF (R187). -/
def traceEnd (ch endCode : Nat) (s : State) : State :=
  match (chan s ch).trace with
  | none => s
  | some rs =>
    let s := updChan ch (fun c => { c with trace := none }) s
    let vs := rs.reverse.map (fun r => r.toNat)
    if rs.isEmpty then s
    else jnlBy 0x0B (chan s ch).grant (tracePayload ch endCode false vs) (tracePayload ch endCode true vs) s

/-- FRAME_LEN_EFFECT, the frame-length change, as a TIME record (R56). -/
def jFrameLen (rounds frame : Nat) : State → State := jTime 1 (le 2 rounds ++ le 8 frame)

/-! ### Signing and commit (R181, R182, R194, R196, R197, R200) -/

/-- Next SEQ and digest of the last header of a chain: this chip's own, or a member's by seat (R182, R200). -/
def chainOf (s : State) (c : Option Nat) : Nat × List Byte :=
  match c with
  | none => (s.journal.seq, s.journal.prevDigest)
  | some seat => (s.journal.chains.find? (fun x => x.seat = seat)).elim (0, []) (fun x => (x.seq, x.digest))

/-- A chain's next SEQ and last digest after a header is signed. -/
def chainNext (c : Option Nat) (seq : Nat) (digest : List Byte) (s : State) : State :=
  updJnl (fun j => match c with
    | none => { j with seq := seq, prevDigest := digest }
    | some seat => { j with chains := j.chains.map (fun x => if x.seat = seat then { x with seq := seq, digest := digest } else x) }) s

/-- Header bytes 0–191 of a segment (R181), after a header with digest `prev`. -/
def headBytes (s : State) (g : Seg) (prev : List Byte) : List Byte :=
  let body := segBody g
  [0x4A, 0x53, 0x47, 0x31] ++ le 2 1 ++ le 2 256 ++ le 8 g.seq ++ le 8 g.jaddr ++ le 4 body.length ++ le 4 g.raw ++
  le 4 (g.recs.length + g.ext.length) ++ [BitVec.ofNat 8 g.loss, 1, BitVec.ofNat 8 g.close, 0] ++ stampBytes g.openStamp ++
  stampBytes g.closeStamp ++ le 2 g.seat ++ le 2 (bitsOf (reg s 0x42000400) 15 0) ++ le 4 g.epoch ++
  le 8 Config.otpSerial.toNat ++ (if g.seq = 0 then List.replicate 32 0 else padTo 32 prev) ++
  padTo 32 (sha256 body) ++ le 4 g.lenRounds ++ List.replicate 28 0

/-- The signed 256-byte header (R182). -/
def signedHead (s : State) (g : Seg) (prev : List Byte) : List Byte :=
  let h := headBytes s g prev
  let sg := ecdsaSign (sha256 h)
  h ++ padTo 32 sg.1 ++ padTo 32 sg.2

/-- Sign the oldest closed segment that is not signed, placing it at the write pointer (R182, R194, R195). -/
def signFirst (s : State) : State :=
  match s.journal.closed.findIdx? (fun g => g.header.isNone) with
  | none => s
  | some i =>
    match s.journal.closed[i]? with
    | none => s
    | some g =>
      if canPlace s (segSize g) then
        let c := chainOf s g.chain
        let g := { g with seq := c.1, jaddr := s.journal.wptr }
        let h := signedHead s g c.2
        let g := { g with header := some h }
        let nx := nextPlace s s.journal.wptr (segSize g)
        jnlFull (chainNext g.chain (g.seq + 1) (sha256 h) (updJnl (fun j => { j with closed := setNth j.closed i g, wptr := nx }) s))
      else jnlFull s

/-- The stored bytes of a segment: header, body, and zeros up to a multiple of 4,096 (R181). -/
def segBytes (g : Seg) : List Byte :=
  let b := g.header.elim [] (fun h => h) ++ segBody g
  b ++ List.replicate (align4k b.length - b.length) 0

/-- The fields of an anchor (R194): "JAN1", its count, and SEQ, JADDR, header digest and archive pointer. -/
def anchorBody (count seq jaddr : Nat) (digest : List Byte) (arch : Nat) : List Byte :=
  [0x4A, 0x41, 0x4E, 0x31] ++ le 8 count ++ le 8 seq ++ le 8 jaddr ++ padTo 32 digest ++ le 8 arch

/-- The count of an anchor, 0 where its digest does not hold. -/
def anchorCount (b : List Byte) : Nat :=
  if slice b 0 4 = [0x4A, 0x41, 0x4E, 0x31] ∧ slice b 68 32 = sha256 (b.take 68) then leAt b 4 8 else 0

/-- The anchor of block 0 or 1. -/
def anchorAt (s : State) (i : Nat) : List Byte := (s.journal.anchors.find? (fun a => a.1 = i)).elim [] (fun a => a.2)

/-- Write an anchor to the older of the two blocks (R194), for this chip's last committed segment; where none was ever
committed, its fields are free values (log entry 89). -/
def writeAnchor (s : State) : State :=
  let c0 := anchorCount (anchorAt s 0)
  let c1 := anchorCount (anchorAt s 1)
  let i := if c0 ≤ c1 then 0 else 1
  let k := fresh s
  let b := match s.journal.committed.find? (fun g => g.chain.isNone) with
    | some g => anchorBody (max c0 c1 + 1) g.seq g.jaddr (sha256 (g.header.elim [] (fun h => h))) s.journal.arch
    | none => anchorBody (max c0 c1 + 1) (Config.freeNat k) (Config.freeNat (k + 1)) (Config.freeBytes (k + 2)) s.journal.arch
  updJnl (fun j => { j with anchors := (i, b ++ sha256 b) :: j.anchors.filter (fun a => a.1 ≠ i) }) (useFresh (useFresh (useFresh s)))

/-- The primary entries with their ranges of journal addresses (R193). -/
def primaries (s : State) : List (Nat × Nat × Nat) :=
  ((List.range 16).foldl (fun (r : Nat × List (Nat × Nat × Nat)) e =>
    if nsPrimary s e then
      let hi := r.1 + (reg s (0x40000104 + 16 * e)).toNat * 4096
      (hi, r.2 ++ [(e, r.1, hi)])
    else r) (0, [])).2

/-- The members of a primary entry: itself and its mirror. -/
def membersOf (s : State) (e : Nat) : List Nat := if isSet s (fNsMirrored e) then [e, getF s (fNsMirror e)] else [e]

/-- The primary entries that a segment's range touches. -/
def segEntries (s : State) (g : Seg) : List Nat :=
  let hi := g.jaddr + align4k (segSize g)
  ((primaries s).filter (fun r => decide (g.jaddr < r.2.2 ∧ r.2.1 < hi))).map (fun r => r.1)

/-- Members that take the writes of an entry: all but FAILED ones (R196, R197). -/
def takers (s : State) (e : Nat) : List Nat := (membersOf s e).filter (fun m => getF s (fNsState m) ≠ 1)

/-- Two segments share a journal address. -/
def overlaps (g h : Seg) : Bool :=
  decide (g.jaddr < h.jaddr + align4k (segSize h) ∧ h.jaddr < g.jaddr + align4k (segSize g))

/-- Commit the oldest segment once it is signed and every entry it touches has a member that takes it, with an anchor every
1,024 segments (R194, R196, R197); what it overwrites is gone. -/
def commitFirst (s : State) : State :=
  match s.journal.closed with
  | g :: gs =>
    let es := segEntries s g
    if g.header.isSome && es.all (fun e => !(takers s e).isEmpty) then
      let g' := { g with members := (es.map (takers s)).flatten }
      let s := updJnl (fun j => { j with closed := gs, committed := g' :: j.committed.filter (fun h => !overlaps g h),
                                         stage := j.stage - segSize g }) s
      let s := if staged s < stageMax then setF fJnlDropping 0 s else s
      if g.chain.isNone ∧ (g.seq + 1) % 1024 = 0 then writeAnchor s else s
    else s
  | [] => s

/-- Commit everything in staging (R201 ENABLE 0, R408): sign and commit each closed segment in order. -/
def commitAll (s : State) : State :=
  each s.journal.closed (fun _ s => commitFirst (signFirst s)) s

/-- JNL_STAT.DEGRADED (R201): an entry FAILED or REBUILDING, or a valid primary with no mirror. -/
def jnlHealth (s : State) : State :=
  setF fJnlDegraded (if (List.range 16).any (fun n => isSet s (fNsValid n) &&
    (getF s (fNsState n) ≠ 0 || (!isSet s (fNsIsMirror n) && !isSet s (fNsMirrored n)))) then 1 else 0) s

/-- Mark a member FAILED (R197). -/
def markFailed (n : Nat) (s : State) : State :=
  if isSet s (fNsValid n) && getF s (fNsState n) ≠ 1 then
    let s := setF (fNsState n) 1 s
    let s := if isSet s fJnlDrive then s else occurCp 4 s
    jnlFull (jnlHealth (jJournal 3 [BitVec.ofNat 8 n] (flag fJnlDrive s)))
  else s

end Sys2Proof.Machine
end

