-- ==== Sys2Proof/Machine/Fault.lean ====
section
/-! DEFINITION. Fault records (R374), the fault of a barrel thread (R219–R221), exception entry (R272–R276) and the
requests for castlings (R369). A write that a rule does not permit ends here, as a bus-error exception of the core
that made it (R19). -/

namespace Sys2Proof.Machine

def fFaultCount : Fld := fld 0x46000010 31 0
def fCastSeq : Fld := fld 0x46000018 31 0
def fT0Bell (n t : Nat) : Fld := bit (winK n 0x20) t
def fFaultRec (n t k hi lo : Nat) : Fld := fld (winK n (0x210 + 0x20 * t + 4 * k)) hi lo

/-- A FAULT record (R374): it is kept, counted, journaled, and raises control-processor source 1. -/
def faultRec (mech outcome unit lcl phys pos tenant addr detail cast : Nat) (s : State) : State :=
  let r := [mech, outcome, unit, lcl, phys, pos].map (BitVec.ofNat 8) ++ le 2 tenant ++ le 8 (now s) ++ le 4 addr ++
    le 4 detail ++ le 4 (getF s fFaultCount) ++ le 4 cast
  occurCp 1 (jnl 0x0D r (addF fFaultCount 1 (updGuard (fun g => { g with faults := r :: g.faults }) s)))

/-- An uncorrectable word found by the scrub or by a thread's read (R213, R364, R374): its syndrome, whose code the spec
does not give, is a free value (log entry 100). -/
def eccRec (lcl phys addr : Nat) (s : State) : State :=
  useFresh (faultRec 7 4 4 lcl phys 0xFF 0xFFFF addr (Config.freeNat (fresh s)) 0 s)

/-- Physical cluster of a logical one, 0xFF for none (R374). -/
def physOf (s : State) (n : Nat) : Nat := if n < 16 then getF s (fMap n) else 0xFF

/-- ENPC of a word (R276): the pending target when the word is a delay slot, else its address + 4. -/
def enpcOf (c : Ctx) : Word := if c.slot then c.npc else c.pc + 4

/-- Uninterruptible iterations left of the repeat unit at PC (R252, R286). -/
def unitLeft (c : Ctx) : Nat := c.unit.elim c.left (fun u => u.left)

/-- The fault of a barrel thread (R219): nothing of the instruction completes; FAULT_REC_s is written, T0's doorbell
bit set (not for T0 itself), and a FAULT record journaled. A repeat unit that had begun continues on RESUME (R254). A
first fetch of an entry that fails keeps the special registers of the interrupted state (R280). -/
def threadFault (n t cause : Nat) (bad : Word) (s : State) : State :=
  let i := 16 * n + t
  let c := (core s i).ctx
  let enpc := enpcOf c
  let keep := c.entry && (cause = 6 || cause = 7)
  let s := updCore i (fun x => { x with
                                 ctx := { x.ctx with epc := if keep then c.epc else c.pc, enpc := if keep then c.enpc else enpc,
                                                     npc := enpc, unit := none, begun := c.unit.isSome || c.begun,
                                                     left := unitLeft c, parked := false },
                                 faultTurn := some (now s), stopAt := none }) s
  let s := setF (fFaultRec n t 0 7 0) cause s
  let s := setF (fFaultRec n t 0 8 8) (if c.slot then 1 else 0) s
  let s := setF (fFaultRec n t 0 9 9) (bitsOf c.mode 0 0) s
  let s := addF (fFaultRec n t 0 31 16) 1 s
  let s := setF (fFaultRec n t 1 31 0) c.pc.toNat s
  let s := setF (fFaultRec n t 2 31 0) enpc.toNat s
  let s := setF (fFaultRec n t 3 31 0) bad.toNat s
  let s := setF (fThrState n t) 3 s
  let s := if t = 0 then s else flag (fT0Bell n t) s
  faultRec 0x0A 4 0 n (physOf s n) t 0xFFFF c.pc.toNat cause 0 s

/-- PSW at entry (R272): PM takes the mode in force, SUP 1, IE 0; the flags are kept. -/
def pswEntry (psw mode : Word) : Word := withBits (withBits (withBits psw 5 5 (bitsOf mode 0 0)) 4 4 1) 6 6 0

/-- PSW as software reads it (R231): bit 4 is a copy of MODE.SUP. -/
def pswView (c : Ctx) : Word := withBits c.psw 4 4 (bitsOf c.mode 0 0)

/-- The context at an entry (R272): saved registers written, supervisor mode, interrupts masked, PC at the vector. A
repeat unit that it cuts is noted for the return (R254). -/
def ctxEntry (c : Ctx) (epc enpc vec : Word) : Ctx :=
  { c with epsw := pswView c, epc := epc, enpc := enpc, psw := pswEntry (pswView c) c.mode, mode := 1, pc := vec,
           npc := vec + 4, slot := false, begun := false, left := 0, unit := none, waiting := false,
           parked := false, entry := true, taken := false,
           back := if c.unit.isSome || c.begun then c.pc :: c.back else c.back }

/-- CORE_VBASE of a core (R274). -/
def vbase (s : State) (i : Nat) : Word := reg s (privK i 0x800)

/-- Exception entry of a lane core or of the control processor (R272–R276). -/
def coreEntry (i cause detail : Nat) (bad : Word) (s : State) : State :=
  let c := (core s i).ctx
  let vec := vbase s i + (if cause = 8 then 0x20 else 0)
  let ec := cause + 256 * detail + (if c.slot then 0x10000 else 0) + (if bitsOf c.mode 0 0 = 1 then 0x20000 else 0)
  let s := setReg (privK i 0x804) (BitVec.ofNat 32 ec) (setReg (privK i 0x808) bad s)
  updCore i (fun x => { x with ctx := ctxEntry c c.pc (enpcOf c) vec }) s

/-- The index of the core whose context a core's instructions run in: a pair runs in its first position's (R355). -/
def runIx (s : State) : CoreId → Nat
  | .thread n t => 16 * n.val + t.val
  | .lane n x => 16 * n.val + 12 + firstPos s n.val x.val
  | .cp => 256

/-- Raise an exception in a core (R219, R270, R272). -/
def raiseExc (c : CoreId) (cause detail : Nat) (bad : Word) (s : State) : State :=
  match c with
  | .thread n t => threadFault n.val t.val cause bad s
  | .lane n x => coreEntry (runIx s (.lane n x)) cause detail bad s
  | .cp => coreEntry 256 cause detail bad s

/-- A bus-error exception (R19, R270). -/
def busErr (c : CoreId) (a : Nat) (s : State) : State := raiseExc c 2 0 (BitVec.ofNat 32 a) s

/-- An access that only supervisor mode may make (R270 PRIV). -/
def privErr (c : CoreId) (s : State) : State := raiseExc c 5 0 0 s

/-- A core is in supervisor mode. -/
def supCore (s : State) (c : CoreId) : Bool := isSup s (runIx s c)

/-- The control processor's registers: any other writer takes a bus error. -/
def cpOnly (c : CoreId) (a : Nat) (k : State → State) (s : State) : State :=
  if isCp c then k s else busErr c a s

/-- A core may reach the registers of cluster n's window: a core of that cluster or the control processor (R31). -/
def inWindow (n : Nat) (c : CoreId) : Bool := isCp c || coreCl c = n


/-- T0 of logical cluster n, or the control processor. -/
def isT0OrCp (n : Nat) : CoreId → Bool
  | .thread m t => decide (m.val = n ∧ t.val = 0)
  | .lane _ _ => false
  | .cp => true

def t0OrCp (n : Nat) (c : CoreId) (a : Nat) (k : State → State) (s : State) : State :=
  if isT0OrCp n c then k s else busErr c a s

/-- Registers of the private view: an access from user mode raises PRIV (R274, R384). -/
def supOnly (c : CoreId) (k : State → State) (s : State) : State := if supCore s c then k s else privErr c s

/-- Queue a castling request (R369); one that already waits is not queued again. -/
def castReq (r : CastReq) (s : State) : State :=
  if s.guard.reqs.contains r then s else updGuard (fun g => { g with reqs := g.reqs ++ [r] }) s

/-! ### The interrupt controllers' commands -/

/-- IC_EOI: pop the writer's stack (R382). -/
def execIcEoi (c : CoreId) (s : State) : Outcome :=
  castWrite c (coreCl c) (0xF0000008) (0) (fun s =>
    done (supOnly c (fun s => icPop (icCore s c) s) s)) s

/-- IC_RAISE (R382). -/
def execIcRaise (c : CoreId) (v : Word) (s : State) : Outcome :=
  castWrite c (coreCl c) (0xF000000C) v (fun s =>
    done (supOnly c (fun s => icRaise (icCore s c) v s) s)) s

/-- IC_SET of a cluster controller (R379, R385). -/
def execIcSet (c : CoreId) (n : ClusterId) (hi : Bool) (v : Word) (s : State) : Outcome :=
  castWrite c (n.val) (icK n.val (if hi then 0x18C else 0x188)) v (fun s =>
    done (t0OrCp n.val c (icK n.val (if hi then 0x18C else 0x188)) (icSet n.val hi v) s)) s

/-- A configuration write of a source (R379, R385, R386). -/
def execIcSrcWrite (c : CoreId) (n : ClusterId) (k : Fin 64) (v : Word) (s : State) : Outcome :=
  castWrite c (n.val) (icK n.val (4 * k.val)) v (fun s =>
    done (t0OrCp n.val c (icK n.val (4 * k.val)) (icSrcWrite n.val k.val v) s)) s

/-- A write of CT_HI (R384): the timer exists on lane cores and the control processor; a thread's offsets are
undecoded. -/
def execCoreTimerArm (c : CoreId) (v : Word) (s : State) : Outcome :=
  castWrite c (coreCl c) (0xF0000024) v (fun s =>
    if isThread c then done (busErr c 0xF0000024 s)
    else done (supOnly c (fun s => timerArm (runIx s c) v s) s)) s

/-- A write of THR_ALARM_HI (R218): barrel threads only. -/
def execThrAlarmArm (c : CoreId) (v : Word) (s : State) : Outcome :=
  castWrite c (coreCl c) (winK (coreCl c) 0x618) v (fun s =>
    match c with
    | .thread n t => done (alarmArm n.val t.val v s)
    | .lane n x => done (busErr (.lane n x) (winK n.val 0x618) s)
    | .cp => done (busErr .cp 0x20800618 s)) s

/-- A write of CORE_VBASE (R274): bits [31:8] below 0x0100_0000; it loads the vector line, the 32 bytes at the base +
0x40. -/
def vbaseWrite (i : Nat) (v : Word) (s : State) : State :=
  let s := if v.toNat < 0x01000000 then softWrite (privK i 0x800) v s else s
  updCore i (fun x => { x with vline := readBytes s ((vbase s i).toNat + 0x40) 32 }) s

/-- CORE_VBASE_WRITE (R274). -/
def execCoreVbaseWrite (c : CoreId) (v : Word) (s : State) : Outcome :=
  castWrite c (coreCl c) (0xF0000800) v (fun s =>
    if isThread c then done (busErr c 0xF0000800 s)
    else done (supOnly c (fun s => vbaseWrite (runIx s c) v s) s)) s

end Sys2Proof.Machine
end

