-- ==== Sys2Proof/Machine/Mailbox.lean ====
section
/-! DEFINITION. The mailbox block (spec/11_kysan_command_interface.md R288–R301): slots, rings, backlog, doorbells and
MSI-X messages. Page p < 256 is tenant p's; page 256 is the administration page. -/

namespace Sys2Proof.Machine

/-! ### Slots (R290, R292) -/

/-- A slot of up to 52 payload bytes. -/
def mkSlot (op kind tag dev flags status state : Nat) (payload : List Byte) : Slot :=
  [BitVec.ofNat 8 op, BitVec.ofNat 8 kind] ++ le 2 tag ++ [BitVec.ofNat 8 dev, BitVec.ofNat 8 flags, BitVec.ofNat 8 status,
    BitVec.ofNat 8 state, BitVec.ofNat 8 (min 52 payload.length), 0, 0, 0] ++ padTo 52 payload

def slotOp (s : Slot) : Nat := (nth 0 s 0).toNat
def slotKind (s : Slot) : Nat := (nth 0 s 1).toNat
def slotTag (s : Slot) : Nat := leAt s 2 2
def slotDev (s : Slot) : Nat := (nth 0 s 4).toNat
def slotFlags (s : Slot) : Nat := (nth 0 s 5).toNat
def slotLen (s : Slot) : Nat := (nth 0 s 8).toNat
def slotPayload (s : Slot) : List Byte := slice s 12 (min 52 (slotLen s))

/-- A slot's FLAGS with a bit set. -/
def slotFlag (k : Nat) (s : Slot) : Slot :=
  patch s 5 [BitVec.ofNat 8 (if slotFlags s / 2 ^ k % 2 = 1 then slotFlags s else slotFlags s + 2 ^ k)]

/-- The continuation slots of a message from offset `o` on (R292), 50 bytes each. -/
def contSlots : Nat → Slot → Nat → List Byte → List Slot
  | 0, _, _, _ => []
  | _ + 1, _, _, [] => []
  | n + 1, s, o, bs =>
    let more := if bs.length ≤ 50 then 0 else 1
    mkSlot (slotOp s) (slotKind s) (slotTag s) (slotDev s) more (nth 0 s 6).toNat (nth 0 s 7).toNat
      (le 2 o ++ bs.take 50) :: contSlots n s (o + 50) (bs.drop 50)

/-- A message as slots: the first with its payload, the rest as continuations (R292). -/
def msgSlots (op kind tag dev status state : Nat) (first rest : List Byte) (o : Nat) : List Slot :=
  let s := mkSlot op kind tag dev (if rest.isEmpty then 0 else 1) status state first
  s :: contSlots (rest.length + 1) s o rest

/-- A data slot and its continuations (R292). -/
def dataSlots (dev tag : Nat) (st : Stamp) (pk : Nat) (bs : List Byte) : List Slot :=
  msgSlots 0 3 tag dev 0 0 (stampBytes st ++ le 2 pk ++ le 2 bs.length ++ le 4 0 ++ bs.take 24) (bs.drop 24) 24

/-! ### Page registers (R289) -/

def fInHead (p : Nat) : Fld := fld (pageK p 0x08) 31 16
def fInTail (p : Nat) : Fld := fld (pageK p 0x08) 15 0
def fOutTail (p : Nat) : Fld := fld (pageK p 0x0C) 15 0
def fOutHead (p : Nat) : Fld := fld (pageK p 0x10) 15 0
def fBellOut (p b : Nat) : Fld := bit (pageK p 0x1C) b
def fOutMask (p b : Nat) : Fld := bit (pageK p 0x20) b
def fRejects (p : Nat) : Fld := fld (pageK p 0x24) 31 0
def fOutLost (p : Nat) : Fld := fld (pageK p 0x28) 31 0
def fBacklog (p : Nat) : Fld := fld (pageK p 0x30) 7 0

/-- Number of entries between two 16-bit ring indices. -/
def ringCount (head tail : Nat) : Nat := (tail + 65536 - head) % 65536

/-- Store a 64-byte slot in the ring at `off` of a page. -/
def ringPut (p off i : Nat) (sl : Slot) (s : State) : State :=
  each (List.range 16) (fun w s => setReg (pageK p (off + 64 * (i % 16) + 4 * w)) (BitVec.ofNat 32 (leAt sl (4 * w) 4)) s) s

/-- The slot at an index of the ring at `off` of a page. -/
def ringGet (s : State) (p off i : Nat) : Slot :=
  ((List.range 16).map (fun w => le 4 (reg s (pageK p (off + 64 * (i % 16) + 4 * w))).toNat)).flatten

/-! ### Doorbells and messages (R301) -/

/-- MSI-X vector of a DOORBELL_OUT bit. -/
def bellVector (b : Nat) : Nat := if b = 0 then 0 else if b ≤ 2 then 1 else if b ≤ 5 then 2 else 3

/-- Issue a vector's message: while its table entry is masked the message becomes its pending bit. -/
def issueVector (p v : Nat) (s : State) : State :=
  if isSet s (bit (pageK p (0xF00C + 16 * v)) 0) then setF (bit (pageK p 0xF800) v) 1 s
  else if isMember s then drnRoute 7 headSeat ([4] ++ le 2 (ownSeat s) ++ le 2 (256 * seatIndex (ownSeat s) + p) ++ le 2 v) s
  else updHost (fun h => { h with msix := (p, v) :: h.msix }) s

/-- A DOORBELL_OUT bit that is set again raises no message; that it was, in this turn, is kept for R15. -/
def bellAgain (p b : Nat) (s : State) : State :=
  let t := now s
  updTen p (fun x => { x with again := (b, t) :: x.again.filter (fun q => q.2 = t) }) s

/-- Set a DOORBELL_OUT bit; the answer tells whether it is an unmasked transition from 0 to 1. -/
def bellSet (p b : Nat) (s : State) : Bool × State :=
  (!isSet s (fBellOut p b) && !isSet s (fOutMask p b), flag (fBellOut p b) (if isSet s (fBellOut p b) then bellAgain p b s else s))

/-- Set a DOORBELL_OUT bit and issue its message. -/
def ringBell (p b : Nat) (s : State) : State :=
  let r := bellSet p b s
  if r.1 then issueVector p (bellVector b) r.2 else r.2

/-! ### Placement (R297, R298) -/

/-- DOORBELL_OUT bit of a slot's KIND: response, notice, data. -/
def kindBell (sl : Slot) : Nat := if slotKind sl = 1 then 0 else if slotKind sl = 2 then 1 else 2

/-- Put a slot in the visible ring, journaled with its release tick; the answer is the vector to issue, if any. -/
def placeRing (p rel : Nat) (sl : Slot) (s : State) : Option Nat × State :=
  let t := getF s (fOutTail p)
  let s := setF (fOutTail p) (t + 1) (ringPut p 0x800 t sl s)
  let s := if p = 256 then jAdmin sl s else jSlotOut rel sl s
  let r := bellSet p (kindBell sl) s
  (if r.1 then some (bellVector (kindBell sl)) else none, r.2)

/-- Free positions of the visible ring. -/
def ringFree (s : State) (p : Nat) : Nat := 16 - min 16 (ringCount (getF s (fOutHead p)) (getF s (fOutTail p)))

/-- Place one slot: in the visible ring while it has room and the backlog is empty, else at the backlog's tail. -/
def placeSlot (p rel : Nat) (sl : Slot) (s : State) : Option Nat × State :=
  let sl := if (ten s p).gapNext then slotFlag 2 sl else sl
  let s := if (ten s p).gapNext then updTen p (fun x => { x with gapNext := false }) s else s
  if (ten s p).backlog.isEmpty && decide (0 < ringFree s p) then placeRing p rel sl s
  else (none, setF (fBacklog p) ((ten s p).backlog.length + 1)
    (updTen p (fun x => { x with backlog := x.backlog ++ [(rel, sl)] }) s))

/-- Place slots one after another, collecting the vectors to issue. -/
def placeSlots (p rel : Nat) : List Slot → State → List Nat × State
  | [], s => ([], s)
  | sl :: sls, s =>
    let r := placeSlot p rel sl s
    let q := placeSlots p rel sls r.2
    (match r.1 with
      | some v => v :: q.1
      | none => q.1, q.2)

/-- A message's slots: the first of a list up to the one without MORE. -/
def headMsg : List Slot → List Slot × List Slot
  | [] => ([], [])
  | sl :: sls => if slotFlags sl % 2 = 1 then let r := headMsg sls; (sl :: r.1, r.2) else ([sl], sls)

/-- Place messages in order: a message that finds no room for all its slots is discarded whole (R298). The fuel is the
number of slots. -/
def placeMsgs (p rel : Nat) : Nat → List Slot → State → List Nat × State
  | 0, _, s => ([], s)
  | n + 1, sls, s =>
    match headMsg sls with
    | ([], _) => ([], s)
    | (m, rest) =>
      let free := (if (ten s p).backlog.isEmpty then ringFree s p else 0) + (240 - (ten s p).backlog.length)
      let r := if m.length ≤ free then placeSlots p rel m s
        else ([], ringBell p 4 (jTenant 6 p (frameNo s) (addF (fOutLost p) m.length
          (updTen p (fun x => { x with gapNext := true }) s))))
      let q := placeMsgs p rel n rest r.2
      (r.1 ++ q.1, q.2)

/-- Place a batch: each vector's message is issued once, after its last slot (R301). -/
def placeBatch (p rel : Nat) (sls : List Slot) (s : State) : State :=
  let r := placeMsgs p rel sls.length sls s
  each r.1.eraseDups (issueVector p) r.2

/-- Write the slots that joined a tenant's backlog behind its first `k` to the backlog's area in the commons, a ring of 240
slots (R297, R308). -/
def backlogStore (t k : Nat) (s : State) : State :=
  let new := (ten s t).backlog.drop k
  let at_ := (ten s t).backAt
  let s := each (List.range new.length) (fun i s =>
    writeBytes (0x10100000 + 0x4000 * t + 64 * ((at_ + i) % 240)) (padTo 64 ((nth (0, []) new i).2)) s) s
  updTen t (fun x => { x with backAt := (at_ + new.length) % 240 }) s

/-- MAILBOX_PLACE (R297): the slots released at the last tick, from turn 24 of the frame on (R50). -/
def execMailboxPlace (t : TenantId) (s : State) : Outcome :=
  let x := ten s t.val
  done (if x.released.isEmpty then s
        else backlogStore t.val x.backlog.length (placeBatch t.val x.relTurn x.released
               (updTen t.val (fun x => { x with released := [] }) (goTo (s.time.cur.start + 24) s))))

/-- Move backlog slots into free ring positions, in order. The fuel is the ring's length. -/
def backlogRun (p : Nat) : Nat → State → List Nat × State
  | 0, s => ([], s)
  | n + 1, s =>
    match (ten s p).backlog with
    | [] => ([], s)
    | (rel, sl) :: rest =>
      if ringFree s p = 0 then ([], s)
      else
        let r := placeRing p rel sl (setF (fBacklog p) rest.length (updTen p (fun x => { x with backlog := rest }) s))
        let q := backlogRun p n r.2
        (match r.1 with
          | some v => v :: q.1
          | none => q.1, q.2)

/-- BACKLOG_MOVE (R297): a batch of its own. -/
def execBacklogMove (p : PageId) (s : State) : Outcome :=
  let r := backlogRun p.val 16 s
  done (each r.1.eraseDups (issueVector p.val) r.2)

/-! ### Accesses to a page (R66, R289, R299) -/

/-- What a host write to a page meets: acts, discarded, or only wake doorbells (R66). The administration page always
acts (log entry 61). -/
inductive PageSt where
  | acts | discard | dormant
  deriving DecidableEq, Repr

def pageSt (s : State) (p : Nat) : PageSt :=
  if p = 256 then .acts
  else if getF s (fTState p) = 1 then .acts
  else if getF s (fTState p) = 3 then .dormant
  else .discard

/-- A write to a page as the tenant's state lets it act (R66, R289). -/
def pageState (p : Nat) (act dormant : State → State) (s : State) : State :=
  match pageSt s p with
  | .acts => act s
  | .dormant => dormant s
  | .discard => s

/-- A write to a page by the host, or by the control processor through its view (R299), which covers offsets up to 0xBFF; the
view is excepted from R66 for reads alone (log entry 96). Another core's write is a bus error (R308, R19). -/
def pageWrite (r : Requester) (p off : Nat) (act dormant : State → State) (s : State) : State :=
  match r with
  | .host => pageState p act dormant s
  | .core c => if isCp c ∧ p < 256 ∧ off < 0xC00 then pageState p act dormant s
    else busErr c (0x48100000 + 0x1000 * p + off) s

/-! ### Administration responses (R307) -/

/-- Keep a response for the management port (R428): up to 16 slots. -/
def mgmtKeep (sls : List Slot) (s : State) : State :=
  updHost (fun h => { h with mgmtResp := (h.mgmtResp ++ sls).take 16, mgmtSubs := h.mgmtSubs.filter (fun m => !m.2) }) s

/-- Send a response to the head that forwarded the command (R341). -/
def fwdBack (sls : List Slot) (s : State) : State :=
  let s := updGroup (fun g => { g with fwd := g.fwd.filter (fun m => !m.2) }) s
  each sls (fun sl => drnRoute 9 headSeat (1 :: sl)) s

/-- Place a response of the administration page: the response message of an opcode and tag; one to a command of the
management port is kept for it (R428), one to a forwarded command returns to the head (R341). -/
def admAnswer (op tag status state : Nat) (payload : List Byte) (s : State) : State :=
  let sls := msgSlots op 1 tag 0xFF status state (payload.take 52) (payload.drop 52) 52
  if s.host.mgmtSubs.any (fun m => m.2) then mgmtKeep sls (each sls jAdmin s)
  else if s.group.fwd.any (fun m => m.2) then fwdBack sls (each sls jAdmin s)
  else placeBatch 256 (now s) sls s

/-- The control processor takes the slot at IN_HEAD (R307); one that came from the management port or from the head is
marked. -/
def admTakeHead (s : State) : State :=
  let h := getF s (fInHead 256)
  let mark := fun (m : Nat × Bool) => if m.1 = h then (h, true) else m
  let s := updGroup (fun g => { g with fwd := g.fwd.map mark }) s
  updHost (fun y => { y with mgmtSubs := y.mgmtSubs.map mark }) (setF (fInHead 256) (h + 1) s)

/-- DEVICE_ID (R3). -/
def deviceId : Word := if Config.gradeI then 0x19201012 else 0x19200012

/-- Payload of IDENTIFY (R303, R183, R341), with a tenant number and a bound-device bitmap: `none` for a PART that does not
exist. -/
def idPayload (s : State) (tenant map part : Nat) : Option (List Byte) :=
  match part with
  | 0 => some (le 4 deviceId.toNat ++ le 2 (bitsOf (reg s 0x42000400) 15 0) ++ le 2 tenant ++ le 8 Config.otpSerial.toNat ++ le 2 map ++ le 2 1)
  | 1 => some ((List.range 32).map Config.otpPubKey)
  | 2 => some ((List.range 32).map (fun i => Config.otpPubKey (32 + i)))
  | _ => none

/-- Reserved fields of a command slot that are not 0 (R290, R291). -/
def slotRsv (sl : Slot) : Bool := !zeroAt sl 9 3 || !zeroAt sl 6 2 || decide (16 ≤ slotFlags sl)

/-- A slot of the administration page that is no administration command, or that fails a check of R291: its STATUS and
payload (R18, R303). NOP and IDENTIFY are valid there; the page has no tenant number (log entry 88). -/
def admSelf (s : State) (sl : Slot) : Option (Nat × List Byte) :=
  let op := slotOp sl
  if slotKind sl ≠ 0 ∨ !(op = 1 || op = 2 || decide (0x40 ≤ op ∧ op ≤ 0x66)) then some (1, [])
  else if slotRsv sl ∨ 52 < slotLen sl ∨ (op = 2 ∧ slotLen sl = 0) then some (2, [])
  else if op = 1 then some (0, [])
  else if op = 2 then
    some ((idPayload s (Config.freeNat (fresh s)) 0 (imgB (slotPayload sl) 0)).elim (2, []) (fun pl => (0, pl)))
  else none

/-- Answer the slots at the head of the administration ring that need no command of their own, until one does or a command
waits (R291, R307). -/
def admSkip : Nat → State → State
  | 0, s => s
  | n + 1, s =>
    let h := getF s (fInHead 256)
    if s.admin.isSome ∨ h = getF s (fInTail 256) then s
    else
      let sl := ringGet s 256 0x400 h
      match admSelf s sl with
      | some r => admSkip n (admAnswer (slotOp sl) (slotTag sl) r.1 0 r.2 (admTakeHead (useFresh s)))
      | none => s

/-- Place a response, and answer what follows it in the ring. -/
def admRespond (op tag status state : Nat) (payload : List Byte) (s : State) : State :=
  admSkip 16 (admAnswer op tag status state payload s)

/-- Complete the waiting administration command of an opcode and key, if it is the one that waits; a dropped response
is journaled alone (R423). -/
def admDone (op key status state : Nat) (payload : List Byte) (s : State) : State :=
  match s.admin with
  | some a =>
    if a.op = op ∧ a.key = key then
      let s := setAdmin none s
      if a.drop then admSkip 16 (jAdmin (mkSlot op 1 a.tag.toNat 0xFF 0 status state payload) s)
      else admRespond op a.tag.toNat status state payload s
    else s
  | none => s

/-- Commit the submit buffer (R293): the slot at IN_TAIL, journaled as SLOT_IN, or ADMIN on the administration page. -/
def commitSlot (p : Nat) (s : State) : State :=
  let sl := padTo 64 (ten s p).submit
  let t := getF s (fInTail p)
  let s := setF (fInTail p) (t + 1) (ringPut p 0x400 t sl s)
  if p = 256 then admSkip 16 (jAdmin sl (occurCp 0 s)) else jSlotIn sl s

/-- The inbound ring is full (R294). -/
def inFull (s : State) (p : Nat) : Bool := ringCount (getF s (fInHead p)) (getF s (fInTail p)) = 16

/-- A write to the submit window that ends with byte 63 (R293, R294): its bytes are applied, then the buffer is
committed, or the commit is dropped for a full ring. -/
def submitCommit (r : Requester) (p : Nat) (bytes : List Byte) (s : State) : State :=
  let bs := bytes.take 64
  if bs.isEmpty then s
  else
    let put := updTen p (fun x => { x with submit := patch (padTo 64 x.submit) (64 - bs.length) bs }) s
    match r with
    | .host =>
      if inFull s p then
        updHost (fun h => { h with aer := (p, 1) :: h.aer }) (ringBell p 5 (addF (fRejects p) 1 put))
      else commitSlot p put
    | .core c => if inFull s p then busErr c (0x48100000 + 0x1000 * p + 0x100) s else commitSlot p put

/-- SUBMIT_COMMIT (R293, R294, R299). -/
def execSubmitCommit (r : Requester) (p : PageId) (bytes : List Byte) (s : State) : Outcome :=
  done (pageWrite r p.val 0x100 (submitCommit r p.val bytes) id s)

/-- A write of OUT_HEAD (R297): accepted up to OUT_TAIL. -/
def outHeadWrite (p : Nat) (v : Word) (s : State) : State :=
  let h := getF s (fOutHead p)
  if ringCount h (bitsOf v 15 0) ≤ ringCount h (getF s (fOutTail p)) then setF (fOutHead p) (bitsOf v 15 0) s else s

def execOutHeadWrite (r : Requester) (p : PageId) (v : Word) (s : State) : Outcome :=
  done (pageWrite r p.val 0x10 (outHeadWrite p.val v) id s)

/-- A write of DOORBELL_IN while DORMANT (R300): data-class bits are discarded; an unmasked wake-class bit starts the
wake of the tenant's cluster. -/
def bellInDormant (p : Nat) (v : Word) (s : State) : State :=
  let v := v &&& 0xFF000000
  let s := softWrite (pageK p 0x14) v s
  if v &&& ~~~reg s (pageK p 0x18) = 0 then s
  else
    let n := p / 16
    wakeRequest n 2 (updPwrCl n (fun c => if c.wokeBell.isNone then { c with wokeBell := some p } else c) s)

/-- DOORBELL_IN_WRITE (R300). -/
def execDoorbellInWrite (r : Requester) (p : PageId) (v : Word) (s : State) : Outcome :=
  done (pageWrite r p.val 0x14 (softWrite (pageK p.val 0x14) v) (bellInDormant p.val v) s)

/-- A write of DOORBELL_OUT (R301): a bit that an event set again in this turn stays, and its setting counts as a transition from
0 to 1. -/
def bellOutWrite (p : Nat) (v : Word) (s : State) : State :=
  let t := now s
  let bs := (List.range 8).filter (fun b => v.getLsbD b && (ten s p).again.contains (b, t) && !isSet s (fOutMask p b))
  let s := softWrite (pageK p 0x1C) v (if bs.isEmpty then s
    else updTen p (fun x => { x with again := x.again.filter (fun q => !bs.contains q.1) }) s)
  each (bs.map bellVector).eraseDups (issueVector p) s

/-- A write of OUT_MASK (R301): a bit written 0 whose DOORBELL_OUT bit is set issues its vector's message. -/
def outMaskWrite (p : Nat) (v : Word) (s : State) : State :=
  let s := softWrite (pageK p 0x20) v s
  each (((List.range 8).filter (fun b => !v.getLsbD b && isSet s (fBellOut p b))).map bellVector).eraseDups (issueVector p) s

def execOutMaskWrite (r : Requester) (p : PageId) (v : Word) (s : State) : Outcome :=
  done (pageWrite r p.val 0x20 (outMaskWrite p.val v) id s)

/-- CL_OUTBOX (R296): the slots staged in the outbox of a tenant; the last write of the frame stands. -/
def execClOutboxWrite (c : CoreId) (n : ClusterId) (v : Word) (s : State) : Outcome :=
  castWrite c (n.val) (winK n.val 0x140) v (fun s =>
    done (if inWindow n.val c then
            (if supCore s c then updTen (16 * n.val + bitsOf v 11 8)
                (fun x => { x with outbox := some (min 32 (bitsOf v 5 0)) }) s
             else busErr c (winK n.val 0x140) s)
          else busErr c (winK n.val 0x140) s)) s

end Sys2Proof.Machine
end

