-- ==== Sys2Proof/Machine/PadOps.lean ====
section
/-! DEFINITION. Operations on pads and shift assists (spec/05_lane_pads_and_port_assists.md R133–R152): what a pad reads
and drives, transmission on the bit clock, driver-enable, and the states that force a shift assist to OFF. Pad p is global
pad p: pad index p % 64 of group p / 64. -/

namespace Sys2Proof.Machine

def fFilt (p : Nat) : Fld := fld (padK p 0) 31 24
def fOwner (p : Nat) : Fld := fld (padK p 0) 23 20
def fSafe (p : Nat) : Fld := fld (padK p 0) 17 16
def fPull (p : Nat) : Fld := fld (padK p 0) 9 8
def fInv (p : Nat) : Fld := bit (padK p 0) 3
def fOmode (p : Nat) : Fld := fld (padK p 0) 1 0
def fOut (p : Nat) : Fld := bit (padK p 4) 0
def fLinkpad (p : Nat) : Fld := fld (padK p 8) 29 24
def fClkpad (p : Nat) : Fld := fld (padK p 8) 21 16
def fDeEn (p : Nat) : Fld := bit (padK p 8) 14
def fClkedge (p : Nat) : Fld := bit (padK p 8) 13
def fCount (p : Nat) : Fld := fld (padK p 8) 12 8
def fEcho (p : Nat) : Fld := bit (padK p 8) 7
def fMaj3 (p : Nat) : Fld := bit (padK p 8) 6
def fStartPol (p : Nat) : Fld := bit (padK p 8) 5
def fIdle (p : Nat) : Fld := bit (padK p 8) 4
def fMsbFirst (p : Nat) : Fld := bit (padK p 8) 3
def fMode (p : Nat) : Fld := fld (padK p 8) 2 0
def fLag (p : Nat) : Fld := fld (padK p 0x10) 31 16
def fLead (p : Nat) : Fld := fld (padK p 0x10) 15 0
def fTxabort (p : Nat) : Fld := fld (padK p 0x14) 31 24
def fDrops (p : Nat) : Fld := fld (padK p 0x14) 23 16
def fCfgerr (p : Nat) : Fld := bit (padK p 0x14) 12
def fBlanked (p : Nat) : Fld := bit (padK p 0x14) 11
def fFstart (p : Nat) : Fld := bit (padK p 0x14) 10
def fTxovr (p : Nat) : Fld := bit (padK p 0x14) 9
def fRxovr (p : Nat) : Fld := bit (padK p 0x14) 8
def fPgEnable (n : Nat) : Fld := bit (winK n 0x3000) 0
def fVio18 (n : Nat) : Fld := bit (winK n 0x3000) 1
def fOnReserve (n : Nat) : Fld := bit (winK n 0x3004) 4
def fVioFail (n : Nat) : Fld := bit (winK n 0x3004) 3
def fMismatch (n : Nat) : Fld := bit (winK n 0x3004) 2
def fVioHigh (n : Nat) : Fld := bit (winK n 0x3004) 1
def fVioOk (n : Nat) : Fld := bit (winK n 0x3004) 0

/-! ### The hold of a group and the mode in effect -/

/-- This chip waits for its admission: it has a seat and is not admitted, or has HEAD high and no seat (R335, R337). -/
def awaitsGroup (s : State) : Bool :=
  if isSet s fGrpValid then !isSet s fGrpAdmitted else isSet s fHeadStrap

/-- Some condition of R135 or R337 holds the group. -/
def holdCond (s : State) (n : Nat) : Bool :=
  !isSet s (fPgEnable n) || !isSet s (fVioOk n) || isSet s (fMismatch n) || awaitsGroup s

/-- The group is held: a condition holds, or it has not been released at a tick since (R135). -/
def pgHeld (s : State) (n : Nat) : Bool := holdCond s n || !Tab.getD s.pgOn n false

/-- The pad is in its safe state (R152). -/
def padIsSafe (s : State) (p : Nat) : Bool := !(pad s p).safe.isEmpty

/-- The shift assist's mode in effect: forced to OFF by the hold and by the safe state (R135, R152). -/
def saMode (s : State) (p : Nat) : Nat := if pgHeld s (p / 64) || padIsSafe s p then 0 else getF s (fMode p)

/-! ### What a pad reads (R137, R138) -/

/-- The level that a list of edges leaves at a turn, by each edge's turn `at_`; before the first edge the level is the
opposite of that edge's, and without edges it is `lvl`. -/
def levelBy (at_ : Nat × Nat × Bool → Nat) (lvl : Bool) (es : List (Nat × Nat × Bool)) (t : Nat) : Bool :=
  match es.find? (fun e => decide (at_ e ≤ t)) with
  | some e => e.2.2
  | none => match es.getLast? with
    | some e => !e.2.2
    | none => lvl

/-- The filtered level at a recorded turn (R139): what a sample at that turn takes. -/
def levelAt (x : PadSt) (t : Nat) : Bool := levelBy (fun e => e.2.1) x.level x.hist t

/-- The filtered level as it stood 2 turns ago (R137). -/
def inNow (s : State) (p : Nat) : Bool := levelBy (fun e => e.1 + 2) (pad s p).level (pad s p).hist (now s)

/-- A received bit whose sample turn is c: the level there, or with MAJ3 the majority at c − 1, c and c + 1 (R142; log
entry 72). -/
def bitAt (s : State) (p c : Nat) : Bool :=
  let x := pad s p
  if isSet s (fMaj3 p) then
    decide (2 ≤ (levelAt x (c - 1)).toNat + (levelAt x c).toNat + (levelAt x (c + 1)).toNat)
  else levelAt x c

/-- The turn at which a received bit with sample turn c is known: its samples have passed the filter (R138). -/
def knownAt (s : State) (p c : Nat) : Nat := c + getF s (fFilt p) + getF s (fMaj3 p)

/-- Words shifted in or out, first bit first (MSB_FIRST of SA_CTRL). -/
def wordOf (msb : Bool) (bits : List Bool) : Word :=
  BitVec.ofNat 32 ((if msb then bits else bits.reverse).foldl (fun w b => 2 * w + b.toNat) 0)

/-- Bit k, in the order of the line, of a word of `n` bits. -/
def lineBit (msb : Bool) (n : Nat) (w : Word) (k : Nat) : Bool := w.getLsbD (if msb then n - 1 - k else k)

/-! ### Bit positions (R141) -/

/-- SA_BITCLK as P × 256 (R141). -/
def bitClk (s : State) (p : Nat) : Nat := (reg s (padK p 0xC)).toNat

/-- ⌊k × P⌋ for P given in units of 1/256 turn (R141). -/
def bitsTurns (clk k : Nat) : Nat := k * clk / 256

/-- Sample turn of bit k of a word that started at E: k = 0 is the start bit (R142). -/
def sampleTurn (e : Nat) (cfg : Nat × Nat) (k : Nat) : Nat := e + (2 * k + 1) * cfg.2 / 512

/-- Turn of the start bit's sample (R142). -/
def startCheck (e : Nat) (cfg : Nat × Nat) : Nat := sampleTurn e cfg 0

/-- Completion turn of a word that started at E (R142). -/
def wordEnd (e : Nat) (cfg : Nat × Nat) : Nat := e + bitsTurns cfg.2 (cfg.1 + 2)

/-- End turn of the word being shifted: in ASYNC_TX by the bit clock (R141, R143); in SYNC_TX 2 turns after the active
clock edge that ends its last bit, `none` before that edge (R145; log entry 72). -/
def shiftEnd (s : State) (p : Nat) : Option Nat :=
  let x := pad s p
  if saMode s p = 4 then (x.sync[x.curBits - 1]?).map (fun e => e + 2)
  else some (x.streamS + bitsTurns x.streamClk (x.streamK + x.curBits))

/-! ### What a pad drives (R135, R137, R149, R152) -/

/-- Driver-enable of pad p is asserted now (R149). -/
def deOn (s : State) (p : Nat) : Bool :=
  match (pad s p).deAt with
  | some a => decide (a ≤ now s)
  | none => false

/-- Pad i of a group drives pad index l as driver-enable (R149). -/
def drivesDe (s : State) (p l : Nat) : Bool := saMode s p = 2 && isSet s (fDeEn p) && getF s (fLinkpad p) = l

/-- A transmit pad drives pad p as its driver-enable pad (R149). -/
def isDePad (s : State) (p : Nat) : Bool := (List.range 64).any (fun i => drivesDe s (p / 64 * 64 + i) (p % 64))

/-- The level of driver-enable on pad p (R149). -/
def deLevel (s : State) (p : Nat) : Bool :=
  (List.range 64).any (fun i => drivesDe s (p / 64 * 64 + i) (p % 64) && deOn s (p / 64 * 64 + i))

/-- The shift assist drives the pad: it transmits on it, or another pad drives it as driver-enable (R137, R149). -/
def saDrives (s : State) (p : Nat) : Bool := saMode s p = 2 || saMode s p = 4 || isDePad s p

/-- Level of PAD_IO.OUT at the pad: as written at least 2 turns ago (R137). -/
def outNow (s : State) (p : Nat) : Bool :=
  match (pad s p).outPend.find? (fun w => decide (w.1 ≤ now s)) with
  | some w => w.2
  | none => (pad s p).outLevel

/-- The bit of the word being shifted that is on the line at a turn: by the bit clock (R141, R143), or 2 turns after
the active clock edges so far (R145). -/
def lineIndex (s : State) (p t : Nat) : Nat :=
  let x := pad s p
  if saMode s p = 4 then (x.sync.filter (fun e => decide (e + 2 ≤ t))).length
  else ((List.range x.curBits).filter (fun k => decide (x.streamS + bitsTurns x.streamClk (x.streamK + k + 1) ≤ t))).length

/-- Level of the shift assist of a transmit pad: the bit on the line, or IDLE (R143, R145). -/
def saLevel (s : State) (p : Nat) : Bool :=
  let x := pad s p
  match x.cur with
  | some w =>
    if lineIndex s p (now s) < x.curBits then lineBit (isSet s (fMsbFirst p)) x.curBits w.word (lineIndex s p (now s))
    else isSet s (fIdle p)
  | none => isSet s (fIdle p)

/-- What a pad puts on its line. -/
inductive Drive where
  | none_                          -- high impedance, no pull
  | pullDown | pullUp              -- the weak pull alone
  | low | high                     -- driven
  deriving DecidableEq, Repr

/-- The weak pull that PULL selects. -/
def pullOf (v : Nat) : Drive := if v = 1 then .pullDown else if v = 2 then .pullUp else .none_

/-- The level a pad drives from its latch: the shift assist's, driver-enable's or OUT, inverted where INV is set. -/
def padLatch (s : State) (p : Nat) : Bool :=
  (if isDePad s p then deLevel s p else if saDrives s p then saLevel s p else outNow s p) ^^ isSet s (fInv p)

/-- What pad p puts on its line now: its reset pull while the group is held (R135), SAFE in the safe state (R152), else
by OMODE (R137); the boundary register's level while the TAP holds the pads (R440). -/
def padDrive (s : State) (p : Nat) : Drive :=
  if s.host.scan then match (pad s p).scan with
    | some true => .high
    | some false => .low
    | none => .none_
  else if pgHeld s (p / 64) then .pullDown
  else if padIsSafe s p then
    (let v := getF s (fSafe p); if v = 3 then .low else pullOf v)
  else match getF s (fOmode p) with
    | 1 => if padLatch s p then .high else .low
    | 2 => if padLatch s p then pullOf (getF s (fPull p)) else .low
    | _ => pullOf (getF s (fPull p))

/-- A write of OUT issued at turn t: stored, and on the pad 2 turns later (R137). -/
def outWriteAt (t p : Nat) (v : Bool) (s : State) : State :=
  let lvl := outNow s p
  updPad p (fun x => { x with outLevel := lvl, outPend := (t + 2, v) :: x.outPend.filter (fun w => decide (now s < w.1)) })
    (setF (fOut p) v.toNat s)

def outWrite (p : Nat) (v : Bool) (s : State) : State := outWriteAt (now s) p v s

/-! ### Receive entries -/

/-- Note that `k` entries leave a queue in turn t (R218). -/
def goneAt (g : Nat × Nat) (t k : Nat) : Nat × Nat := if g.1 = t then (t, g.2 + k) else (t, k)

/-- Entries that were complete before turn t (R218). -/
def agedBefore (t : Nat) (q : List QEntry) : Nat := (q.filter (fun e => decide (e.2.2 < t))).length

/-- Queue a receive entry, or discard it when 4 are queued (R144, R146). -/
def rxQueue (p : Nat) (e : QEntry) (s : State) : State :=
  if (pad s p).rxq.length < 4 then updPad p (fun x => { x with rxq := x.rxq ++ [e] }) s
  else addF (fDrops p) 1 (flag (fRxovr p) s)

/-! ### Transmission (R143, R145, R149, R226, R227) -/

/-- Release driver-enable of pad p at a turn (R149). -/
def deRelease (p t : Nat) (s : State) : State :=
  match (pad s p).deAt with
  | some a => updPad p (fun x => { x with deAt := none, deEnd := none,
                                          deLast := if a < t then (a, t, getF s (fLinkpad p)) else x.deLast }) s
  | none => s

/-- A byte of a one-shot has left the pad (R226). The last one is its full launch: a tenant of another chip is told (R343). -/
def countByte (i m : Nat) (s : State) : State :=
  let n := Tab.getD (fifo s i).launched m 0 + 1
  let s := updFifo i (fun f => { f with launched := Tab.put f.launched m n }) s
  match Tab.find (fifo s i).msgs m with
  | some (t, d, tag, len) =>
    if n < len then s
    else
      let s := updFifo i (fun f => { f with msgs := Tab.del f.msgs m, launched := Tab.del f.launched m }) s
      if isFar t then sendFar t d (now s) (.report tag 0x10000) s else s
  | none => s

/-- One-shots' launched bytes (R226); a byte of a probe request or poll is off the list of those to send (R121, R468). -/
def countLaunch (p : Nat) (w : TxWord) (s : State) : State :=
  match w.port with
  | some q =>
    let s := if w.own then updPort q (fun x => { x with sendLeft := x.sendLeft.drop 1 }) s else s
    if w.byte.msg = 0 then s else countByte (fifoIx (p / 64) (port s q).thread) w.byte.msg s
  | none => s

/-- The next byte of a port that is still to launch: queued in the shift assist, popped, or in the FIFO. -/
def nextTx (s : State) (p q : Nat) : Option TxByte :=
  let x := port s q
  let f := fifo s (fifoIx (p / 64) x.thread)
  (((pad s p).txq.filter (fun w => w.port = some q)).map (fun w => w.byte) ++ Tab.getD f.popped x.slot [] ++
    Tab.getD f.tx x.slot []).head?

/-- Journal a launched port byte; the run closes when the bytes of one release are exhausted (R179). -/
def txJournal (p q : Nat) (w : TxWord) (e : Nat) (s : State) : State :=
  let s := runByte true q { val := BitVec.ofNat 8 w.byte.val.toNat, ninth := w.byte.val.getLsbD 8, err := w.err,
                            stamp := e } s
  if w.own then s
  else match nextTx s p q with
    | some b => if b.rel = w.byte.rel then s else runClose true q s
    | none => runClose true q s

/-- The first queued word's first bit begins at turn e: SA_TXSTAMP takes the turn, and a port byte is journaled (R143,
R227). -/
def txLaunch (p e : Nat) (s : State) : State :=
  match (pad s p).txq with
  | [] => updPad p (fun x => { x with launch := none }) s
  | w :: ws =>
    let clk := bitClk s p
    let s := updPad p (fun x => { x with txq := ws, txGone := goneAt x.txGone e 1, cur := some w, launch := none, sync := [],
                                         curBits := getF s (fCount p) + 1,
                                         streamS := if clk = x.streamClk then x.streamS else e,
                                         streamK := if clk = x.streamClk then x.streamK else 0,
                                         streamClk := clk }) s
    let s := setReg (padK p 0x20) (BitVec.ofNat 32 e) (setReg (padK p 0x24) (BitVec.ofNat 32 (e / 2 ^ 32)) s)
    let s := countLaunch p w s
    match w.port with
    | some q => txJournal p q w e s
    | none => s

/-- The last stop bit of a request or poll of the word's port has ended at turn e: its window opens (R121, R468). -/
def sendEnd (w : TxWord) (e : Nat) (s : State) : State :=
  match w.port with
  | none => s
  | some q =>
    let x := port s q
    if w.own && x.sendLeft.isEmpty then
      if x.sending = 1 then
        updPort q (fun x => { x with sending := 0, probing := x.probing.map
                                       (fun b => { b with win := some (e + x.sendWin) }) }) s
      else if x.sending = 2 then updPort q (fun x => { x with sending := 0, replyEnd := some (e + x.sendWin) }) s
      else s
    else s

/-- The word being shifted ends at turn e: the next queued word follows at once, or the line returns to IDLE and the LAG
interval runs (R143, R145, R149). -/
def txEnd (p e : Nat) (w : TxWord) (s : State) : State :=
  let s := sendEnd w e s
  if (pad s p).txq.isEmpty then
    updPad p (fun x => { x with cur := none, deEnd := match x.deAt with
                                  | some _ => some (e + getF s (fLag p))
                                  | none => none }) s
  else updPad p (fun x => { x with cur := none, launch := some e, streamK := x.streamK + x.curBits }) s

/-- One launch, word end or driver-enable release of pad p that is due at or before turn t; `none` when nothing is. -/
def txNext (p t : Nat) (s : State) : Option State :=
  let x := pad s p
  match x.launch with
  | some e => if e ≤ t then some (txLaunch p e s) else none
  | none => match x.cur with
    | some w => match shiftEnd s p with
      | some e => if e ≤ t then some (txEnd p e w s) else none
      | none => none
    | none => match x.deEnd with
      | some e => if e ≤ t then some (deRelease p e s) else none
      | none => none

/-- What the shift assist has done by turn t whatever commands of it wait (R13): at most 5 words, each launched and
ended, and one release. -/
def txCatch (p t : Nat) (s : State) : State := go 11 s
where
  go : Nat → State → State
    | 0, s => s
    | k + 1, s => match txNext p t s with
      | some s => go k s
      | none => s

/-! ### Forced to OFF, emptied, safe, held -/

/-- Empty both queues and abandon every word in progress; each abandoned or emptied transmit word counts in TXABORT
and driver-enable is released at once (R144, R149, R151, R152). -/
def saFlush (p : Nat) (s : State) : State :=
  let s := txCatch p (now s) s
  let x := pad s p
  let s := addF (fTxabort p) (x.txq.length + (if x.cur.isSome then 1 else 0)) s
  let s := deRelease p (now s) s
  let t := now s
  updPad p (fun x => { x with rxGone := goneAt x.rxGone t (agedBefore t x.rxq), txGone := goneAt x.txGone t x.txq.length,
                              rxq := [], txq := [], cand := none, candOk := false, sync := [], cur := none,
                              launch := none }) s

/-- Empty the transmit queue while MODE stays (loss R88, tenant reset R93, R149): a word being shifted completes;
driver-enable asserted for a word not yet begun is released at once. -/
def saEmpty (p : Nat) (s : State) : State :=
  let s := txCatch p (now s) s
  let x := pad s p
  let s := addF (fTxabort p) x.txq.length s
  let s := if x.launch.isSome && x.deEnd.isNone && x.cur.isNone then deRelease p (now s) s else s
  let t := now s
  updPad p (fun x => { x with txGone := goneAt x.txGone t x.txq.length, txq := [], launch := none }) s

/-- Put a pad in its safe state for a reason (R152). -/
def padSafe (why p : Nat) (s : State) : State :=
  updPad p (fun x => { x with safe := if x.safe.contains why then x.safe else why :: x.safe }) (setF (fMode p) 0 (saFlush p s))

/-- A reason for the safe state ends: with none left PAD_CFG and PAD_IO apply again; MODE stays OFF (R152). -/
def padUnsafe (why p : Nat) (s : State) : State := updPad p (fun x => { x with safe := x.safe.filter (fun w => w ≠ why) }) s

/-- A received word keeps its COUNT + 1 bits. -/
def maskWord (count : Nat) (w : Word) : Word := BitVec.ofNat 32 (w.toNat % 2 ^ (count + 1))

/-- A core may write the owner-restricted registers of pad p (R134): T0 of the group's cluster and the owner thread. -/
def padWriter (s : State) (c : CoreId) (p : Nat) : Bool :=
  match c with
  | .thread n t => decide (n.val = p / 64) && (t.val = 0 || t.val = getF s (fOwner p))
  | .lane _ _ => false
  | .cp => false

/-- A core's read of SA_RXDATA returns the oldest entry and removes it (R134): T0's, the owner's, or the control
processor's. -/
def rxReader (s : State) (c : CoreId) (p : Nat) : Bool := isCp c || padWriter s c p

/-- Registers of a pad whose port is removed (R151): back to reset, queues emptied, driver-enable released; SA_STAT
stays. -/
def padReset (p : Nat) (s : State) : State :=
  let s := saFlush p s
  let s := clearRegs (fun k => decide (k = padK p 0 ∨ k = padK p 4 ∨ k = padK p 8 ∨ k = padK p 0xC ∨ k = padK p 0x10)) s
  updPad p (fun x => { x with outPend := [], outLevel := false, filtAt := now s + 1 }) s

/-- Hold a group (R135): every shift assist idle with empty queues. -/
def pgHold (n : Nat) (s : State) : State :=
  let s := mapPgOn (fun t => Tab.store t n false false) s
  each ((List.range 64).map (fun i => 64 * n + i)) saFlush s

/-- A write of PAD_CFG (R138): a change of FILT counts its run from the next sample. -/
def padCfgWrite (p : Nat) (v : Word) (s : State) : State :=
  let n := getF s (fFilt p)
  let s := softWrite (padK p 0) v s
  if getF s (fFilt p) = n then s else updPad p (fun x => { x with filtAt := now s + 1 }) s

end Sys2Proof.Machine
end

