-- ==== Sys2Proof/Machine/Router.lean ====
section
/-! DEFINITION. The event router (R389–R395): events of channels, and their consumers, which act one turn after the event:
what they do in the turns to come is kept with its turn (log entry 15). -/

namespace Sys2Proof.Machine

def evrCfgK (n c : Nat) : Nat := winK n (0x5000 + 8 * c)
def evrOwnK (n c : Nat) : Nat := winK n (0x5004 + 8 * c)
def fEvrEn (n c : Nat) : Fld := bit (evrCfgK n c) 31
/-- Producer enables (R395): 24 P_SW, 25 P_PAD, 26 P_TICK, 27 P_LC, 28 P_MOVER, 29 P_CHAIN. -/
def fEvrProd (n c k : Nat) : Fld := bit (evrCfgK n c) k
def fEvrPadsel (n c : Nat) : Fld := fld (evrCfgK n c) 21 16
def fEvrPedge (n c : Nat) : Fld := fld (evrCfgK n c) 15 14
def fEvrChsrc (n c : Nat) : Fld := fld (evrCfgK n c) 12 8
def fEvrGact (n c : Nat) : Fld := fld (evrCfgK n c) 7 6
def fEvrGsel (n c : Nat) : Fld := fld (evrCfgK n c) 5 4
def fEvrOutact (n c : Nat) : Fld := fld (evrCfgK n c) 3 2
def fEvrWake (n c : Nat) : Fld := bit (evrCfgK n c) 1
def fEvrLock (n c : Nat) : Fld := bit (evrOwnK n c) 31
def fEvrSecure (n c : Nat) : Fld := bit (evrOwnK n c) 30
def fEvrOvr (n c : Nat) : Fld := bit (evrOwnK n c) 29
def fEvrOutpad (n c : Nat) : Fld := fld (evrOwnK n c) 21 16
def fEvrOwner (n c : Nat) : Fld := fld (evrOwnK n c) 8 0
def fEvrGrp (n g : Nat) : Fld := bit (winK n 0x5100) g
def fEvrErr (n : Nat) : Fld := bit (winK n 0x5108) 0

/-- EVR_GRP at turn u, with the group actions that have acted by then (R392). -/
def grpWord (s : State) (n u : Nat) : Word :=
  ((clus s n).grpPend.filter (fun e => decide (e.1 ≤ u))).foldl (fun w e => withBits w e.2.1 e.2.1 e.2.2.toNat) (reg s (winK n 0x5100))

/-- An event of channel c exists at turn u: the channel is enabled and so is its group (R390). -/
def evExists (s : State) (n u c : Nat) : Bool := isSet s (fEvrEn n c) && (grpWord s n u).getLsbD (c / 8)

/-- The interrupt consumer at turn t (R391): busy when PEND is already 1; while the source's EN is 0, or the cluster is dark,
only the latch records it. -/
def evIntr (n t c : Nat) (s : State) : State :=
  let k := 32 + c
  let busy := isSet s (fSrcEn n k) && !icDark s n &&
    (isSet s (fPend n k) || (clus s n).coming.any (fun e => decide (e.1 ≤ t) && e.2 = k))
  if busy then flag (fEvrOvr n c) s
  else if t ≤ now s then occurAt t n k s
  else updClus n (fun x => { x with coming := x.coming ++ [(t, k)] }) s

/-- The output consumer at turn t (R391): sets, clears or toggles PAD_IO.OUT, unless the pad is held, safe or driven by its
shift assist. -/
def evOut (n t c : Nat) (s : State) : State :=
  let a := getF s (fEvrOutact n c)
  let p := 64 * n + getF s (fEvrOutpad n c)
  if a = 0 then s
  else if pgHeld s n || padIsSafe s p || saDrives s p then flag (fEvrOvr n c) s
  else outWriteAt t p (if a = 1 then true else if a = 2 then false else !isSet s (fOut p)) s

/-- The wake consumer (R391). -/
def evWake (n c : Nat) (s : State) : State := if isSet s (fEvrWake n c) then wakeRequest n 3 s else s

/-- Group actions at turn t of the events `cs` (R392): where two reach one bit and one disables, the group is disabled. -/
def evGroups (n t : Nat) (cs : List Nat) (s : State) : State :=
  let acts := fun (a g : Nat) => cs.any (fun c => getF s (fEvrGact n c) = a && getF s (fEvrGsel n c) = g)
  let new := (List.range 4).filterMap (fun g =>
    if acts 2 g || (acts 1 g && (clus s n).grpPend.contains (t, g, false)) then some (t, g, false)
    else if acts 1 g then some (t, g, true) else none)
  if new.isEmpty then s else updClus n (fun x => { x with grpPend := x.grpPend ++ new }) s

/-- A write of EVR_GRP (R392): an action of an event in the same turn wins. -/
def grpWrite (n : Nat) (v : Word) (s : State) : State :=
  let t := now s
  let w := if t = 0 then reg s (winK n 0x5100) else grpWord s n (t - 1)
  let s := updClus n (fun x => { x with grpPend := x.grpPend.filter (fun e => decide (t ≤ e.1)) }) (setReg (winK n 0x5100) w s)
  softWrite (winK n 0x5100) v s

/-- Events of the channels `cs` at turn u, one for each channel, their consumers at turn u + 1, and the chained events of the
next turns (R389–R391). A chain is at most 32 long because CHSRC is below its channel. -/
def evFire : Nat → Nat → Nat → List Nat → State → State
  | 0, _, _, _, s => s
  | fuel + 1, n, u, cs, s =>
    let live := cs.filter (fun c => evExists s n u c && !(clus s n).fired.contains (u, c))
    if live.isEmpty then s
    else
      let t := now s
      let s := updClus n (fun x => { x with fired := x.fired.filter (fun e => decide (t ≤ e.1)) ++ live.map (fun c => (u, c)) }) s
      let s := each live (fun c s => evWake n c (evOut n (u + 1) c (evIntr n (u + 1) c s))) s
      let s := evGroups n (u + 1) live s
      evFire fuel n (u + 1) ((List.range 32).filter
        (fun c => isSet s (fEvrProd n c 29) && live.contains (getF s (fEvrChsrc n c)))) s

/-- Hold an event of channel c for the end of a handover (R394): one per channel, in the order of their first turns; a
second one sets OVR. -/
def evHold (n c : Nat) (s : State) : State :=
  if (clus s n).frameHold.contains c then flag (fEvrOvr n c) s
  else updClus n (fun x => { x with frameHold := x.frameHold ++ [c] }) s

/-- Events of channels from their producers: at once, or held by a handover (R389, R394). -/
def evStart (n : Nat) (cs : List Nat) (s : State) : State :=
  if inHandover s n then each (cs.filter (evExists s n (now s))) (evHold n) s else evFire 32 n (now s) cs s

/-- Events of every channel of cluster n whose producer `k` is enabled and meets `f` (R389). -/
def evProduce (n k : Nat) (f : Nat → Bool) (s : State) : State :=
  evStart n ((List.range 32).filter (fun c => isSet s (fEvrProd n c k) && f c)) s

/-- A filtered edge of pad p to a level: the P_PAD producers that take its polarity (R389). -/
def padEdgeEvent (p : Nat) (level : Bool) (s : State) : State :=
  evProduce (p / 64) 25 (fun c => getF s (fEvrPadsel (p / 64) c) = p % 64 &&
    (if level then getF s (fEvrPedge (p / 64) c) % 2 = 1 else 2 ≤ getF s (fEvrPedge (p / 64) c))) s

/-- ROUTER_EVENT: an event of channel k at this turn, from a producer of its (R389, R390). -/
def execRouterEvent (n : ClusterId) (k : Fin 32) (s : State) : Outcome := done (evStart n.val [k.val] s)

/-- A requester may write the channel's configuration (R393). -/
def evrMayWrite (s : State) (c : CoreId) (n k : Nat) : Bool :=
  match c with
  | .cp => true
  | .thread m t => decide (m.val = n ∧ t.val = 0) && decide (getF s (fEvrOwner n k) < 256) && !isSet s (fEvrSecure n k)
  | .lane m _ => decide (m.val = n) && supCore s c && decide (getF s (fEvrOwner n k) < 256) &&
    getF s (fEvrOwner n k) / 16 = n && !isSet s (fEvrSecure n k)

/-- A write of EVR_CFG_c (R389, R393): nothing changes while the channel is locked; a CHSRC that names the channel or a
higher one leaves CHSRC and sets CFGERR. -/
def evrCfgWrite (n k : Nat) (v : Word) (s : State) : State :=
  if isSet s (fEvrLock n k) then s
  else if bitsOf v 12 8 < k then softWrite (evrCfgK n k) v s
  else flag (fEvrErr n) (softWrite (evrCfgK n k) (withBits v 12 8 (getF s (fEvrChsrc n k))) s)

/-- EVR_CFG_WRITE (R389, R393). -/
def execEvrCfgWrite (c : CoreId) (n : ClusterId) (k : Fin 32) (v : Word) (s : State) : Outcome :=
  castWrite c (n.val) (evrCfgK n.val k.val) v (fun s =>
    done (if evrMayWrite s c n.val k.val then evrCfgWrite n.val k.val v s else busErr c (evrCfgK n.val k.val) s)) s

/-- A requester that may write EVR_OWN_c writes it so (R393): OWNER and SECURE are changed by the control processor only. -/
def evrOwnMay (s : State) (c : CoreId) (n k : Nat) (v : Word) : Bool :=
  evrMayWrite s c n k && (isCp c || (bitsOf v 30 30 = getF s (fEvrSecure n k) && bitsOf v 8 0 = getF s (fEvrOwner n k)))

/-- A write of EVR_OWN_c (R393): OVR is W1C also on a locked channel. -/
def evrOwnWrite (n k : Nat) (v : Word) (s : State) : State :=
  if isSet s (fEvrLock n k) then (if bitsOf v 29 29 = 1 then clearFlag (fEvrOvr n k) s else s)
  else softWrite (evrOwnK n k) v s

/-- EVR_LOCK: a write of EVR_OWN_c with LOCK (R393). -/
def execEvrLock (c : CoreId) (n : ClusterId) (k : Fin 32) (v : Word) (s : State) : Outcome :=
  castWrite c (n.val) (evrOwnK n.val k.val) v (fun s =>
    done (if evrOwnMay s c n.val k.val v then evrOwnWrite n.val k.val v s else busErr c (evrOwnK n.val k.val) s)) s

/-- EVENT_TRIGGER: a write of EVR_TRIG; with GO an event of P_SW on the named channel (R389). A locked channel takes
the trigger: it changes none of its fields. -/
def execEventTrigger (c : CoreId) (n : ClusterId) (v : Word) (s : State) : Outcome :=
  castWrite c (n.val) (winK n.val 0x5104) v (fun s =>
    let k := bitsOf v 4 0
    done (if evrMayWrite s c n.val k then
            (if bitsOf v 8 8 = 1 ∧ isSet s (fEvrProd n.val k 24) then evStart n.val [k] s else s)
          else busErr c (winK n.val 0x5104) s)) s

end Sys2Proof.Machine
end

