-- ==== Sys2Proof/Machine/Pads.lean ====
section
/-! DEFINITION. The commands of pads and shift assists (R137–R150). The turn of an edge command is the edge's recorded
turn (R139; log entry 16). -/

namespace Sys2Proof.Machine

/-! ### Echo blanking (R150) -/

/-- Intervals of driver-enable [assertion, release) on pad index l of group n; the release is absent while it runs. -/
def deSpans (s : State) (n l : Nat) : List (Nat × Option Nat) :=
  ((List.range 64).map (fun i =>
    let x := pad s (64 * n + i)
    (match x.deAt with
      | some a => if drivesDe s (64 * n + i) l then [(a, none)] else []
      | none => []) ++ (if x.deLast.2.2 = l ∧ x.deLast.1 < x.deLast.2.1 then [(x.deLast.1, some x.deLast.2.1)] else []))).flatten

/-- A start edge recorded at E on pad p is ignored, or the word that it begins is abandoned at an assertion. -/
def echoHit (s : State) (p e : Nat) (cfg : Nat × Nat) : Bool :=
  isSet s (fEcho p) && (deSpans s (p / 64) (getF s (fLinkpad p))).any (fun d =>
    decide ((d.1 ≤ e ∧ (d.2.elim true (fun r => decide (e < r))) = true) ∨ (e < d.1 ∧ d.1 < wordEnd e cfg)))

/-- Driver-enable of pad index l of group n is asserted at turn a: words being received then are abandoned. -/
def echoAbandon (n l a : Nat) (s : State) : State :=
  each ((List.range 64).map (fun i => 64 * n + i)) (fun r s =>
    match (pad s r).cand with
    | some e =>
      if saMode s r = 1 && isSet s (fEcho r) && getF s (fLinkpad r) = l && decide (e ≤ a ∧ a < wordEnd e (pad s r).candCfg) then
        flag (fBlanked r) (updPad r (fun x => { x with cand := none, candOk := false }) s)
      else s
    | none => s) s

/-! ### Reception (R142, R144, R145) -/

/-- The start bit of the candidate is sampled (R142): a level other than the edge's discards it, and edges up to the
sample turn begin no other. -/
def rxCheck (p e : Nat) (s : State) : State :=
  let c := startCheck e (pad s p).candCfg
  if bitAt s p c = isSet s (fStartPol p) then updPad p (fun x => { x with candOk := true }) s
  else flag (fFstart p) (updPad p (fun x => { x with cand := none, noStart := c + 1 }) s)

/-- The word bits of a word that started at E, first received first (R142). -/
def rxBits (s : State) (p e : Nat) (cfg : Nat × Nat) : List Bool :=
  (List.range (cfg.1 + 1)).map (fun k => bitAt s p (sampleTurn e cfg (k + 1)))

/-- The word completes (R142, R144): it is queued with stamp E, or discarded for a full queue. -/
def rxComplete (p e : Nat) (s : State) : State :=
  let cfg := (pad s p).candCfg
  rxQueue p (wordOf (isSet s (fMsbFirst p)) (rxBits s p e cfg), e, wordEnd e cfg)
    (updPad p (fun x => { x with cand := none, candOk := false }) s)

/-- The turn at which the start bit's sample is known, and the turn at which the word is queued. -/
def rxCheckAt (s : State) (p e : Nat) : Nat := knownAt s p (startCheck e (pad s p).candCfg)
def rxCompleteAt (s : State) (p e : Nat) : Nat :=
  let cfg := (pad s p).candCfg
  max (wordEnd e cfg) (knownAt s p (sampleTurn e cfg (cfg.1 + 1)))

/-- What the receiver has done by turn t whatever commands of it wait (R13). -/
def rxCatch (p t : Nat) (s : State) : State :=
  match (pad s p).cand with
  | none => s
  | some e =>
    let s := if !(pad s p).candOk && decide (rxCheckAt s p e ≤ t) then rxCheck p e s else s
    if (pad s p).cand.isSome && (pad s p).candOk && decide (rxCompleteAt s p e ≤ t) then rxComplete p e s else s

/-- An edge recorded at E ends what an earlier start had begun: a false start before E, or a word complete by E (R142). -/
def rxBefore (p e : Nat) (s : State) : State :=
  match (pad s p).cand with
  | none => s
  | some e0 =>
    let cfg := (pad s p).candCfg
    let s := if !(pad s p).candOk && decide (startCheck e0 cfg < e) then rxCheck p e0 s else s
    if (pad s p).cand.isSome && (pad s p).candOk && decide (wordEnd e0 cfg ≤ e) then rxComplete p e0 s else s

/-- An active edge on clock pad g, recorded at turn E, for the shift assists that it clocks (R145). -/
def clkEdge (g : Nat) (level : Bool) (e : Nat) (s : State) : State :=
  each ((List.range 64).map (fun i => g / 64 * 64 + i)) (fun p s =>
    if getF s (fClkpad p) = g % 64 && level ≠ isSet s (fClkedge p) then
      if saMode s p = 3 then
        updPad p (fun x => { x with sync := x.sync ++ [e],
                                    candCfg := if x.sync.isEmpty then (getF s (fCount p), 0) else x.candCfg }) s
      else if saMode s p = 4 then
        let s := txCatch p (now s) s
        if (pad s p).cur.isSome then updPad p (fun x => { x with sync := x.sync ++ [e] }) s else s
      else s
    else s) s

/-- The sample of a change of level passes the filter (R138): N + 1 samples since the last filtered edge and since FILT was
last changed, and a level that is new. -/
def filterPass (s : State) (p : Nat) (level : Bool) : Bool :=
  let x := pad s p
  let n := getF s (fFilt p)
  level ≠ x.level && decide (x.filtAt + n ≤ now s) && (match x.hist with
    | e :: _ => decide (e.1 + n + 1 ≤ now s)
    | [] => true)

/-- A filtered edge of pad p at the present sample (R138, R139, R142, R145, R146): its recorded turn is s − N. Router
channels see it, clocked shift assists sample or shift, EDGE mode queues it, and ASYNC_RX begins a candidate. -/
def filteredEdge (p : Nat) (level : Bool) (s : State) : State :=
  let e := now s - getF s (fFilt p)
  let s := padEdgeEvent p level (updPad p (fun x => { x with level := level, hist := (now s, e, level) ::
                                                               (if x.cand.isNone && x.sync.isEmpty then x.hist.take 256 else x.hist) }) s)
  let s := clkEdge p level e s
  if saMode s p = 5 then rxQueue p (if level then 1 else 0, e, e) s
  else if saMode s p = 1 then
    let s := rxBefore p e s
    if level = isSet s (fStartPol p) && (pad s p).cand.isNone && decide ((pad s p).noStart ≤ e) then
      let cfg := (getF s (fCount p), bitClk s p)
      if echoHit s p e cfg then flag (fBlanked p) s
      else updPad p (fun x => { x with cand := some e, candOk := false, candCfg := cfg }) s
    else s
  else s

/-- PAD_IO_WRITE (R134, R137). -/
def execPadIoWrite (c : CoreId) (p : PadId) (v : Word) (s : State) : Outcome :=
  castWrite c (p.val / 64) (padK p.val 4) v (fun s =>
    done (if padWriter s c p.val then outWrite p.val (v.getLsbD 0) s else busErr c (padK p.val 4) s)) s

/-- START_BIT_CHECK (R142): the start bit is sampled at E + ⌊P ÷ 2⌋, which is known once the sample has passed the
filter; a false start is discarded. The level named by the sender is not read (log entry 103). -/
def execStartBitCheck (p : PadId) (_level : Bool) (s : State) : Outcome :=
  match (pad s p.val).cand with
  | some e =>
    if !(pad s p.val).candOk && dueNow s (rxCheckAt s p.val e) then done (rxCheck p.val e (goTo (rxCheckAt s p.val e) s))
    else done s
  | none => done s

/-- RX_WORD_COMPLETE (R142, R144): the word is the one sampled (log entry 103). -/
def execRxWordComplete (p : PadId) (_w : Word) (s : State) : Outcome :=
  match (pad s p.val).cand with
  | some e =>
    if dueNow s (rxCompleteAt s p.val e) then
      let s := rxCatch p.val (rxCheckAt s p.val e) s
      (match (pad s p.val).cand with
        | some _ => done (rxComplete p.val e (goTo (rxCompleteAt s p.val e) s))
        | none => done s)
    else done s
  | none => done s

/-- SYNC_RX_WORD_COMPLETE (R145): once COUNT + 1 clock edges have sampled the pad, the word is queued with the turn of
the first. It is the word sampled (log entry 103). -/
def execSyncRxWordComplete (p : PadId) (_w : Word) (_span : Nat) (s : State) : Outcome :=
  let x := pad s p.val
  let n := x.candCfg.1 + 1
  match x.sync[n - 1]? with
  | some e =>
    if saMode s p.val = 3 && dueNow s (e + getF s (fFilt p.val)) then
      let s := goTo (e + getF s (fFilt p.val)) s
      let w := wordOf (isSet s (fMsbFirst p.val)) ((x.sync.take n).map (levelAt (pad s p.val)))
      done (rxQueue p.val (w, nth 0 x.sync 0, e)
        (updPad p.val (fun x => { x with sync := x.sync.drop n, candCfg := (getF s (fCount p.val), 0) }) s))
    else done s
  | none => done s

/-- Port slot of a thread whose port's TXPAD is pad p: (slot, port) (R223, R227). -/
def txpadSlot (s : State) (n t p : Nat) : Option (Nat × Nat) :=
  (List.range 8).findSome? (fun j =>
    if isSet s (fSlotValid n t j) &&
       nth 64 (port s (getF s (fSlotPort n t j))).pads (getF s (fSlotTxpad n t j)) = p % 64 && p / 64 = n
    then some (j, getF s (fSlotPort n t j)) else none)

/-- The byte a SA_TXDATA write on a port's TXPAD is journaled as (R227): the oldest popped byte not yet bound, else the
byte last written to TXF_NOTE, else bits [8:1] of the word marked ERR. -/
def bindTx (c : CoreId) (p : Nat) (v : Word) (s : State) : TxWord × State :=
  match c with
  | .thread n t =>
    match txpadSlot s n.val t.val p with
    | some (j, q) =>
      let f := fifo s (fifoIx n.val t.val)
      match Tab.getD f.popped j [] with
      | b :: bs =>
        ({ word := v, port := some q, byte := b, err := false, own := false },
         updFifo (fifoIx n.val t.val) (fun f => { f with popped := Tab.put f.popped j bs }) s)
      | [] =>
        match f.note with
        | some b => ({ word := v, port := some q, byte := { val := b, last := false, msg := 0, rel := 0 }, err := false, own := true },
                     updFifo (fifoIx n.val t.val) (fun f => { f with note := none }) s)
        | none => ({ word := v, port := some q,
                     byte := { val := BitVec.ofNat 9 (bitsOf v 8 1), last := false, msg := 0, rel := 0 }, err := true, own := true }, s)
    | none => ({ word := v, port := none, byte := { val := 0, last := false, msg := 0, rel := 0 }, err := false, own := false }, s)
  | .lane _ _ => ({ word := v, port := none, byte := { val := 0, last := false, msg := 0, rel := 0 }, err := false, own := false }, s)
  | .cp => ({ word := v, port := none, byte := { val := 0, last := false, msg := 0, rel := 0 }, err := false, own := false }, s)

/-- Queue a transmit word (R143, R144, R149). Driver-enable asserted for it abandons words being received (R150). -/
def txWrite (c : CoreId) (p : Nat) (v : Word) (s : State) : State :=
  let s := txCatch p (now s) s
  if !(saMode s p = 2 || saMode s p = 4) then flag (fCfgerr p) s
  else if 4 ≤ (pad s p).txq.length then flag (fTxovr p) s
  else
    let (w, s) := bindTx c p v s
    let x := pad s p
    let de := saMode s p = 2 && isSet s (fDeEn p)
    if x.cur.isNone && x.launch.isNone then
      let rise := de && x.deAt.isNone
      let at_ := now s + 2 + (if rise then getF s (fLead p) else 0)
      let s := updPad p (fun x => { x with txq := x.txq ++ [w], launch := some at_, streamS := at_, streamK := 0,
                                           streamClk := bitClk s p, deEnd := none,
                                           deAt := if rise then some (now s + 2) else x.deAt }) s
      if rise then echoAbandon (p / 64) (getF s (fLinkpad p)) (now s + 2) s else s
    else updPad p (fun x => { x with txq := x.txq ++ [w] }) s

/-- SA_TXDATA_WRITE (R134, R143, R144). -/
def execSaTxdataWrite (c : CoreId) (p : PadId) (v : Word) (s : State) : Outcome :=
  castWrite c (p.val / 64) (padK p.val 0x18) v (fun s =>
    done (if padWriter s c p.val then txWrite c p.val v s else busErr c (padK p.val 0x18) s)) s

/-- TX_WORD_LAUNCH (R143, R227). -/
def execTxWordLaunch (p : PadId) (s : State) : Outcome :=
  match (pad s p.val).launch with
  | some e => if dueNow s e then done (txLaunch p.val e (goTo e s)) else done s
  | none => done s

/-- TX_WORD_END (R143, R145, R149). -/
def execTxWordEnd (p : PadId) (s : State) : Outcome :=
  match (pad s p.val).cur, shiftEnd s p.val with
  | some w, some e => if dueNow s e then done (txEnd p.val e w (goTo e s)) else done s
  | _, _ => done s

/-- DE_RELEASE (R149). -/
def execDeRelease (p : PadId) (s : State) : Outcome :=
  match (pad s p.val).deEnd with
  | some e => if dueNow s e then done (deRelease p.val e (goTo e s)) else done s
  | none => done s

/-- Remove the oldest receive entry (R144, R224): it is the one the thread removed last, and pending until it is pushed;
the one it removed before is pending no more. -/
def rxPop (c : CoreId) (p : Nat) (s : State) : State :=
  let s := rxCatch p (now s) s
  match (pad s p).rxq with
  | e :: es =>
    let t := now s
    updPad p (fun x => { x with rxq := es, rxGone := goneAt x.rxGone t (agedBefore t [e]), removed := if isThread c then Tab.put x.removed (coreIx c % 16) (e, true)
                                             else x.removed }) s
  | [] => s

/-- SA_RXDATA_READ (R134, R144): a thread that is neither the owner nor T0 reads 0 and pops nothing. -/
def execSaRxdataRead (c : CoreId) (p : PadId) (s : State) : Outcome :=
  castRead c (p.val / 64) (padK p.val 0x28) (fun s =>
    match c with
    | .lane n x => done (busErr (.lane n x) (padK p.val 0x28) s)
    | .thread n t =>
      if n.val = p.val / 64 then done (if rxReader s (.thread n t) p.val then rxPop (.thread n t) p.val s else s)
      else done (busErr (.thread n t) (padK p.val 0x28) s)
    | .cp => done (rxPop .cp p.val s)) s

/-- A CLKPAD or LINKPAD value is taken only where that pad has this pad's owner (R147). -/
def sameOwner (s : State) (p i : Nat) : Bool := getF s (fOwner (p / 64 * 64 + i)) = getF s (fOwner p)

/-- A write of SA_CTRL (R140, R144, R147, R149). -/
def saCtrlWrite (p : Nat) (v : Word) (s : State) : State :=
  let okL := sameOwner s p (bitsOf v 29 24)
  let okC := sameOwner s p (bitsOf v 21 16)
  let v := if okL then v else withBits v 29 24 (getF s (fLinkpad p))
  let v := if okC then v else withBits v 21 16 (getF s (fClkpad p))
  let m := getF s (fMode p)
  let d := isSet s (fDeEn p)
  let s := softWrite (padK p 8) v s
  let s := if okL && okC then s else flag (fCfgerr p) s
  let s := if getF s (fMode p) = m then s else saFlush p s
  if d && !isSet s (fDeEn p) then deRelease p (now s) s else s

/-- SA_CTRL_WRITE (R134, R144, R147). -/
def execSaCtrlWrite (c : CoreId) (p : PadId) (v : Word) (s : State) : Outcome :=
  castWrite c (p.val / 64) (padK p.val 8) v (fun s =>
    done (if padWriter s c p.val then saCtrlWrite p.val v s else busErr c (padK p.val 8) s)) s

/-- A write of SA_STAT (R147): W1C bits; TXOVR also clears TXABORT, RXOVR also DROPS. -/
def saStatWrite (p : Nat) (v : Word) (s : State) : State :=
  let s := softWrite (padK p 0x14) v s
  let s := if v.getLsbD 9 then setF (fTxabort p) 0 s else s
  if v.getLsbD 8 then setF (fDrops p) 0 s else s

/-- SA_STAT_WRITE (R134, R147). -/
def execSaStatWrite (c : CoreId) (p : PadId) (v : Word) (s : State) : Outcome :=
  castWrite c (p.val / 64) (padK p.val 0x14) v (fun s =>
    done (if padWriter s c p.val then saStatWrite p.val v s else busErr c (padK p.val 0x14) s)) s

end Sys2Proof.Machine
end

