-- ==== Sys2Proof/Machine/Barrel.lean ====
section
/-! DEFINITION. The barrel engines' control (spec/08_barrel_engines_and_threads.md R204–R216, R287): slot table, greedy
mode, thread states, locks, context records; and the chip locks (R326). -/

namespace Sys2Proof.Machine

/-- BARREL_CTRL (R207). -/
def fGreedyAct (n : Nat) : Fld := bit (winK n 0x1C) 16
def fGthread (n : Nat) : Fld := fld (winK n 0x1C) 15 12
def fGreedy (n : Nat) : Fld := bit (winK n 0x1C) 8
def fGrej (n : Nat) : Fld := bit (winK n 0x1C) 2
def fSlotrej (n : Nat) : Fld := bit (winK n 0x1C) 1

/-- A command of the tick acts at turn 0 of a frame (log entry 3). -/
def atTick (s : State) : Bool := isSet s fLock && decide (turnInFrame s = 0)

/-- Greedy mode is in effect at turn t (R209). -/
def greedyOn (s : State) (n t : Nat) : Bool :=
  match (clus s n).greedyAt with
  | some (u, on) => if u ≤ t then on else isSet s (fGreedyAct n)
  | none => isSet s (fGreedyAct n)
def greedyAct (s : State) (n : Nat) : Bool := greedyOn s n (now s)

/-- Turn u is one of thread t's (R204, R205): entry u mod 24 of the slot table names it, or greedy mode gives it every
turn (R209). -/
def ownsTurn (s : State) (n t u : Nat) : Bool :=
  if greedyOn s n u then getF s (fGthread n) = t
  else bitsOf (reg s (winK n (4 * (u % 24 / 8)))) (4 * (u % 8) + 3) (4 * (u % 8)) = t

/-- The thread's first turn at or after turn u; a thread without an entry has none (R211). -/
def nextOwn (s : State) (n t u : Nat) : Option Nat := ((List.range 48).map (fun i => u + i)).find? (ownsTurn s n t)

/-- The thread's turn after `k` of its turns from turn u on (R205). -/
def ownAfter (s : State) (n t : Nat) : Nat → Nat → Option Nat
  | 0, u => nextOwn s n t u
  | k + 1, u => match nextOwn s n t u with
    | some v => ownAfter s n t k (v + 1)
    | none => none

/-- The turn at which thread t issues its next word: not before the turns that the word before it counts (R204, R205). -/
def issueTurn (s : State) (n t : Nat) : Option Nat :=
  let x := core s (16 * n + t)
  match ownAfter s n t x.owed x.issueAt with
  | some v => if v < now s then nextOwn s n t (now s) else some v
  | none => none

/-- The next turn whose TURN_ABS modulo 24 is 0 (R209). -/
def nextRound (s : State) : Nat := (now s / 24 + 1) * 24

/-- Greedy mode takes a value at the next round boundary. -/
def greedySet (n : Nat) (on : Bool) (s : State) : State :=
  let cur := greedyAct s n
  updClus n (fun c => { c with greedyAt := some (nextRound s, on) }) (setF (fGreedyAct n) cur.toNat s)

/-- Every thread other than t is STOPPED or FAULTED (R209). -/
def othersStopped (s : State) (n t : Nat) : Bool :=
  (List.range 12).all (fun u => u = t || thrState s n u = 0 || thrState s n u = 3)

/-- A write of BARREL_CTRL (R206, R207, R209): GTHREAD, unless greedy mode is in effect; GREEDY on or off; the W1C
bits; APPLY. -/
def barrelCtrlWrite (n : Nat) (v : Word) (s : State) : State :=
  let s := if greedyAct s n || decide (11 < bitsOf v 15 12) then s else setF (fGthread n) (bitsOf v 15 12) s
  let s := if v.getLsbD 2 then clearFlag (fGrej n) s else s
  let s := if v.getLsbD 1 then clearFlag (fSlotrej n) s else s
  let s := if v.getLsbD 8 then
      (if othersStopped s n (getF s (fGthread n)) then
        (if isSet s (fGreedy n) then s else greedySet n true (setF (fGreedy n) 1 s))
       else flag (fGrej n) (if isSet s (fGreedy n) then greedySet n false (setF (fGreedy n) 0 s) else s))
    else if isSet s (fGreedy n) then greedySet n false (setF (fGreedy n) 0 s) else s
  if v.getLsbD 0 then updClus n (fun c => { c with applyAt := some (frameNo s + 1) }) s else s

/-- SLOT_APPLY_REQUEST: a write of BARREL_CTRL with APPLY (R206). -/
def execSlotApplyRequest (c : CoreId) (n : ClusterId) (v : Word) (s : State) : Outcome :=
  castWrite c (n.val) (winK n.val 0x1C) (withBits v 0 0 1) (fun s =>
    done (t0OrCp n.val c (winK n.val 0x1C) (barrelCtrlWrite n.val (withBits v 0 0 1)) s)) s

/-- GREEDY_ON: a write of BARREL_CTRL with GREEDY = 1 (R209). -/
def execGreedyOn (c : CoreId) (n : ClusterId) (v : Word) (s : State) : Outcome :=
  castWrite c (n.val) (winK n.val 0x1C) (withBits v 8 8 1) (fun s =>
    done (t0OrCp n.val c (winK n.val 0x1C) (barrelCtrlWrite n.val (withBits v 8 8 1)) s)) s

/-- GREEDY_OFF: a write of BARREL_CTRL with GREEDY = 0 (R209). -/
def execGreedyOff (c : CoreId) (n : ClusterId) (v : Word) (s : State) : Outcome :=
  castWrite c (n.val) (winK n.val 0x1C) (withBits v 8 8 0) (fun s =>
    done (t0OrCp n.val c (winK n.val 0x1C) (barrelCtrlWrite n.val (withBits v 8 8 0)) s)) s

/-- A write of BARREL_NEXTk (R207): each 4-bit entry on its own; 12–14 leave the entry. -/
def nextWrite (key : Nat) (v : Word) (s : State) : State :=
  setReg key ((List.range 8).foldl (fun w e =>
    let x := bitsOf v (4 * e + 3) (4 * e)
    if 12 ≤ x ∧ x ≤ 14 then w else withBits w (4 * e + 3) (4 * e) x) (reg s key)) s

/-- The NEXT table gives T0 an entry (R206). -/
def nextHasT0 (s : State) (n : Nat) : Bool :=
  (List.range 3).any (fun k => (List.range 8).any (fun e =>
    bitsOf (reg s (winK n (0x10 + 4 * k))) (4 * e + 3) (4 * e) = 0))

/-- SLOT_TABLE_APPLY (R206): at the first tick after the request, the NEXT table becomes active, or the apply is
refused. -/
def execSlotTableApply (n : ClusterId) (s : State) : Outcome :=
  match (clus s n.val).applyAt with
  | some k =>
    if atTick s && decide (k ≤ frameNo s) then
      let s := updClus n.val (fun c => { c with applyAt := none }) s
      if nextHasT0 s n.val then
        done (each (List.range 3) (fun i s => setReg (winK n.val (4 * i)) (reg s (winK n.val (0x10 + 4 * i))) s) s)
      else done (flag (fSlotrej n.val) s)
    else done s
  | none => done s

/-- The control processor for every thread, T0 of the cluster for s = 1–11 (R211, R287). -/
def thrWriter (n t : Nat) : CoreId → Bool
  | .thread m u => decide (m.val = n ∧ u.val = 0 ∧ t ≠ 0)
  | .lane _ _ => false
  | .cp => true

/-- START (R211): the first word issues at the thread's first turn at or after the write's turn + 2. -/
def thrStart (n t : Nat) (s : State) : State :=
  let turn := now s
  let st := thrState s n t
  if greedyAct s n && getF s (fGthread n) ≠ t then flag (fGrej n) s
  else if st = 0 ∨ st = 3 then
    let pc := sliceBase n t + bitsOf (reg s (winK n (0x204 + 0x20 * t))) 15 0
    let r := initCtx (t = 0) pc
    setF (fThrState n t) 1 (updCore (16 * n + t) (fun x => { x with
                                                             ctx := { x.ctx with pc := r.pc, npc := r.npc, psw := r.psw, mode := r.mode, lstart := 0, lend := 0, lcount := 0,
                                                                                 slot := false, begun := false, left := 0, unit := none, parked := false, entry := false,
                                                                                 taken := false, back := [] },
                                                             faultTurn := none, stopAt := none, issueAt := turn + 2, owed := 0 }) s)
  else s

/-- RESUME (R211): the thread continues from its saved state; a parked one parks again (R286). -/
def thrResume (n t : Nat) (s : State) : State :=
  let turn := now s
  let st := thrState s n t
  if greedyAct s n && getF s (fGthread n) ≠ t then flag (fGrej n) s
  else if st = 0 ∨ st = 3 then
    setF (fThrState n t) (if (core s (16 * n + t)).ctx.parked then 2 else 1)
      (updCore (16 * n + t) (fun x => { x with faultTurn := none, stopAt := none, issueAt := max turn x.issueAt, owed := 0 }) s)
  else s

/-- The last turn that the thread's multiply or divide counts (R205); `none`: it counts none. -/
def longLast (s : State) (n t : Nat) : Option Nat :=
  let x := core s (16 * n + t)
  if x.long.isSome ∧ x.owed ≠ 0 then ownAfter s n t (x.owed - 1) x.issueAt else none

/-- A multiply or divide in progress at turn u is abandoned: nothing of it is written (R211, R254, R277). -/
def longCut (n t u : Nat) (s : State) : State :=
  match longLast s n t, (core s (16 * n + t)).long with
  | some v, some c =>
    if u ≤ v then updCore (16 * n + t) (fun x => { x with ctx := c, long := none, issueAt := u, owed := 0 }) s else s
  | _, _ => s

/-- STOP (R211): at the first boundary at or after the write's turn + 2, where a multiply or divide in progress is abandoned;
a parked thread stops at once. -/
def thrStop (n t : Nat) (s : State) : State :=
  let st := thrState s n t
  let u := now s
  if st = 2 then setF (fThrState n t) 0 s
  else if st = 1 then
    longCut n t (u + 2) (updCore (16 * n + t) (fun x => { x with stopAt := some (x.stopAt.elim (u + 2) (fun v => v)) }) s)
  else s

/-- A write of THR_CTRL_s (R211). -/
def thrCtrlWrite (n t : Nat) (v : Word) (s : State) : State :=
  let cmd := bitsOf v 2 0
  if cmd = 1 then thrStart n t s else if cmd = 2 then thrStop n t s else if cmd = 3 then thrResume n t s else s

/-- Key of THR_CTRL_s. -/
def thrCtrlK (n t : Nat) : Nat := winK n (0x200 + 0x20 * t)

/-- THREAD_START (R211). -/
def execThreadStart (c : CoreId) (n : ClusterId) (th : ThreadNo) (s : State) : Outcome :=
  castWrite c (n.val) (thrCtrlK n.val th.val) (1) (fun s =>
    done (if thrWriter n.val th.val c then thrStart n.val th.val s else busErr c (thrCtrlK n.val th.val) s)) s

/-- THREAD_STOP (R211). -/
def execThreadStop (c : CoreId) (n : ClusterId) (th : ThreadNo) (s : State) : Outcome :=
  castWrite c (n.val) (thrCtrlK n.val th.val) (2) (fun s =>
    done (if thrWriter n.val th.val c then thrStop n.val th.val s else busErr c (thrCtrlK n.val th.val) s)) s

/-- THREAD_RESUME (R211). -/
def execThreadResume (c : CoreId) (n : ClusterId) (th : ThreadNo) (s : State) : Outcome :=
  castWrite c (n.val) (thrCtrlK n.val th.val) 3 (fun s =>
    done (if thrWriter n.val th.val c then thrResume n.val th.val s else busErr c (thrCtrlK n.val th.val) s)) s

/-! ### Locks (R214–R216, R326) -/

/-- Owner code of a core: a pair's copies carry the first position's code (R355). -/
def ownerCode (s : State) : CoreId → Nat
  | .thread _ t => t.val
  | .lane n x => 0x10 + firstPos s n.val x.val
  | .cp => 0x20

/-- Owner of a lock at the present turn; its release at turn t is seen from turn t + 1 on (R215). -/
def lockOwner (s : State) (k : Nat) : Option Nat :=
  match Tab.find s.locks k with
  | some l => if l.freed.elim true (fun t => decide (now s ≤ t)) then some l.owner else none
  | none => none

/-- The requester owns the lock and has not released it. -/
def ownsLock (s : State) (k o : Nat) : Bool :=
  match Tab.find s.locks k with
  | some l => l.owner = o && l.freed.isNone
  | none => false

/-- The value a read of lock `k` returns (R214). -/
def lockValue (s : State) (k : Nat) : Word :=
  match lockOwner s k with
  | some o => BitVec.ofNat 32 (0x80000000 + o)
  | none => 0

/-- Free a lock. -/
def lockFree (k : Nat) (s : State) : State :=
  let t := now s
  mapLocks (fun q => match Tab.find q k with
    | some l => if l.freed.isNone then Tab.put q k { l with freed := some t } else q
    | none => q) s

/-- A read attempts to acquire: a free lock takes its reader as owner (R214); a lane core's checkpoint records it
(R357). -/
def lockRead (c : CoreId) (k o : Nat) (s : State) : State :=
  match lockOwner s k with
  | some _ => s
  | none =>
    let s := mapLocks (fun t => Tab.put t k { owner := o, freed := none }) s
    if isLane c then updCore (runIx s c) (fun x => { x with taken := k :: x.taken }) s else s

/-- A write by the owner frees the lock; by any other requester it is a bus error (R214). -/
def lockWrite (c : CoreId) (a k o : Nat) (s : State) : State := if ownsLock s k o then lockFree k s else busErr c a s

/-- Key of lock l of cluster n in `State.locks`; chip lock l stands at 0x10000 + l. -/
def lockK (n l : Nat) : Nat := 64 * n + l
def chipK (l : Nat) : Nat := 0x10000 + l

/-- Owner code of a core for a chip lock (R326): a pair's copies carry the first position's. -/
def chipOwner (s : State) : CoreId → Nat
  | .thread n t => 256 * n.val + t.val
  | .lane n x => 256 * n.val + 0x10 + firstPos s n.val x.val
  | .cp => 0x020

/-- The order in which requesters of one fabric cycle are taken (R215): barrel, lane cores by position, control processor. -/
def lockRank : CoreId → Nat
  | .thread _ _ => 0
  | .lane _ x => 1 + x.val
  | .cp => 9

/-- Who attempts lock l of cluster n. -/
def attempts (n : ClusterId) (l : LockId) : Instr → Option CoreId
  | .lockAcquire c m k => if m = n ∧ k = l then some c else none
  | _ => none

/-- An attempt for the same lock waits next in the queue, from a requester that is taken first (R215). -/
def lockYields (s : State) (c : CoreId) (n : ClusterId) (l : LockId) : Bool :=
  (s.pending.takeWhile (fun i => (attempts n l i).isSome)).any
    (fun i => (attempts n l i).elim false (fun d => decide (lockRank d < lockRank c)))

/-- LOCK_ACQUIRE (R214, R215). -/
def execLockAcquire (c : CoreId) (n : ClusterId) (l : LockId) (s : State) : Outcome :=
  castRead c (n.val) (winK n.val (0x400 + 4 * l.val)) (fun s =>
    done (if inWindow n.val c then
            (if lockYields s c n l then s else lockRead c (lockK n.val l.val) (ownerCode s c) s)
          else busErr c (winK n.val (0x400 + 4 * l.val)) s)) s

/-- LOCK_RELEASE (R214). -/
def execLockRelease (c : CoreId) (n : ClusterId) (l : LockId) (s : State) : Outcome :=
  castWrite c (n.val) (winK n.val (0x400 + 4 * l.val)) (0) (fun s =>
    done (if inWindow n.val c then lockWrite c (winK n.val (0x400 + 4 * l.val)) (lockK n.val l.val) (ownerCode s c) s
          else busErr c (winK n.val (0x400 + 4 * l.val)) s)) s

/-- A write of LOCK_FORCE (R216). -/
def lockForce (n : Nat) (v : Word) (s : State) : State :=
  if v.getLsbD 8 then lockFree (lockK n (bitsOf v 5 0)) s else s

/-- LOCK_FORCE (R216). -/
def execLockForce (c : CoreId) (n : ClusterId) (v : Word) (s : State) : Outcome :=
  castWrite c (n.val) (winK n.val 0x500) v (fun s =>
    done (t0OrCp n.val c (winK n.val 0x500) (lockForce n.val v) s)) s

/-- CHIP_LOCK_ACQUIRE (R326). -/
def execChipLockAcquire (c : CoreId) (l : Fin 256) (s : State) : Outcome :=
  done (lockRead c (chipK l.val) (chipOwner s c) s)

/-- CHIP_LOCK_RELEASE (R326). -/
def execChipLockRelease (c : CoreId) (l : Fin 256) (s : State) : Outcome :=
  done (lockWrite c (0x41001000 + 4 * l.val) (chipK l.val) (chipOwner s c) s)

/-- A write of CHIP_LOCK_FORCE (R326). -/
def chipForce (v : Word) (s : State) : State :=
  if v.getLsbD 8 then lockFree (chipK (bitsOf v 7 0)) s else s

/-- CHIP_LOCK_FORCE (R326): the control processor only. -/
def execChipLockForce (c : CoreId) (v : Word) (s : State) : Outcome := done (cpOnly c 0x41001400 (chipForce v) s)

/-- Free every chip lock owned by a position of cluster n; each release is a FAULT record (R326). -/
def freeChipLocks (n : Nat) (s : State) : State :=
  each (s.locks.filter (fun p => decide (0x10000 ≤ p.1 ∧ p.2.freed.isNone ∧ p.2.owner / 256 = n ∧ p.2.owner % 256 ≠ 0x20)))
    (fun p s => faultRec 0x0C 4 5 n (physOf s n) (p.2.owner % 256) 0xFFFF 0 (p.1 - 0x10000) 0
      (lockFree p.1 s)) s

/-! ### Context records (R286, R287) -/

/-- XSTATE of a context (R286). -/
def xstate (c : Ctx) (parked : Bool) : Word :=
  BitVec.ofNat 32 ((if c.unit.isSome || c.begun then 1 else 0) + 2 * unitLeft c + (if parked then 256 else 0) +
    (if c.waiting then 512 else 0))

/-- Word w of the context record of core index i (R286). -/
def ctxWord (s : State) (i w : Nat) : Word :=
  let x := core s i
  let c := x.ctx
  if w < 16 then c.g.toList.getD w 0
  else match w with
    | 16 => c.pc
    | 17 => if c.slot then c.npc else enpcOf c
    | 18 => pswView c
    | 19 => c.epsw
    | 20 => c.epc
    | 21 => c.enpc
    | 22 => c.mode
    | 23 => c.lstart
    | 24 => c.lend
    | 25 => c.lcount
    | 26 => xstate c c.parked
    | 27 => if i % 16 < 12 && i ≠ 256 then reg s (privK i 0x614) else vbase s i
    | 28 => if i % 16 < 12 && i ≠ 256 then withBits (reg s (privK i 0x618)) 31 31 (if x.alarm.isSome then 1 else 0)
            else reg s (privK i 0x804)
    | 29 => if i % 16 < 12 && i ≠ 256 then 0 else reg s (privK i 0x808)
    | _ => 0

/-- Replace a word of a thread's context record (R287). -/
def ctxSet (i w : Nat) (v : Word) (s : State) : State :=
  let upd := fun (f : Ctx → Ctx) => updCore i (fun x => { x with ctx := f x.ctx }) s
  if h : w < 16 then upd (fun c => { c with g := c.g.set w v })
  else match w with
    | 16 => upd (fun c => { c with pc := v, entry := false })
    | 17 => upd (fun c => { c with npc := v, slot := decide (v ≠ c.pc + 4) })
    | 18 => upd (fun c => { c with psw := v &&& 0xF00001F0, mode := BitVec.ofNat 32 (bitsOf v 4 4) })
    | 19 => upd (fun c => { c with epsw := v &&& 0xF00001F0 })
    | 20 => upd (fun c => { c with epc := v })
    | 21 => upd (fun c => { c with enpc := v })
    | 22 => upd (fun c => { c with mode := BitVec.ofNat 32 (bitsOf v 0 0) })
    | 23 => upd (fun c => { c with lstart := v })
    | 24 => upd (fun c => { c with lend := v })
    | 25 => upd (fun c => { c with lcount := v })
    | 26 => upd (fun c => { c with begun := v.getLsbD 0, left := min 64 (bitsOf v 7 1), unit := none,
                                   parked := v.getLsbD 8, waiting := v.getLsbD 9 })
    | 27 => setReg (privK i 0x614) v s
    | 28 => updCore i (fun x => { x with alarm := if v.getLsbD 31
                                           then some ((reg s (privK i 0x614)).toNat + 2 ^ 32 * bitsOf v 30 0) else none })
        (setReg (privK i 0x618) (withBits v 31 31 0) s)
    | _ => s

/-- An armed repeat unit held as its record holds it (R286). -/
def unarm (c : Ctx) : Ctx := { c with unit := none, begun := c.unit.isSome || c.begun, left := unitLeft c }

/-- A write of THR_CTX_s word w (R287): taken while the thread is STOPPED or FAULTED. -/
def thrCtxWrite (n t w : Nat) (v : Word) (s : State) : State :=
  if thrState s n t = 0 ∨ thrState s n t = 3 then
    ctxSet (16 * n + t) w v (updCore (16 * n + t) (fun x => { x with ctx := unarm x.ctx }) s)
  else s

/-- THR_CTX_WRITE (R287). -/
def execThrCtxWrite (c : CoreId) (n : ClusterId) (th : ThreadNo) (w : Fin 32) (v : Word) (s : State) : Outcome :=
  castWrite c (n.val) (winK n.val (0x1000 + 0x80 * th.val + 4 * w.val)) v (fun s =>
    done (if thrWriter n.val th.val c then thrCtxWrite n.val th.val w.val v s
          else busErr c (winK n.val (0x1000 + 0x80 * th.val + 4 * w.val)) s)) s

end Sys2Proof.Machine
end

