-- ==== Sys2Proof/Machine/Image.lean ====
section
/-! DEFINITION. Personality images (spec/04_personality_tables.md R96–R120): the fields of an image, its formats with
parsing and rendering (R100–R107, R465, R466), its machines, operation map, curves and probe list, and the checks at
load (R129). An image is the byte string it is; every part is read out of it. -/

namespace Sys2Proof.Machine

/-! ### Header and directory (R96, R97) -/

def aptRole (img : List Byte) : Nat := leAt img 6 2
def aptId (img : List Byte) : Nat := leAt img 8 4
def aptMinor (img : List Byte) : Nat := leAt img 12 2
def aptMajor (img : List Byte) : Nat := leAt img 14 2
def aptClass (img : List Byte) : Nat := imgB img 16
def aptKey (img : List Byte) : Nat := imgB img 17
def aptLen (img : List Byte) : Nat := leAt img 20 4
def aptPartner (img : List Byte) : Bool := aptRole img % 2 = 1
def aptTenant (img : List Byte) : Bool := aptRole img / 2 % 2 = 1

/-- A directory entry: type, count, offset, length. -/
structure DirEnt where
  type : Nat
  count : Nat
  off : Nat
  len : Nat
  deriving DecidableEq, Repr

def dirEnt (img : List Byte) (i : Nat) : DirEnt :=
  { type := imgB img (32 + 12 * i), count := leAt img (34 + 12 * i) 2, off := leAt img (36 + 12 * i) 4,
    len := leAt img (40 + 12 * i) 4 }

def dirEnts (img : List Byte) : List DirEnt := (List.range 8).map (dirEnt img)

/-- The directory entry of a section type. -/
def secOf (img : List Byte) (t : Nat) : Option DirEnt := (dirEnts img).find? (fun e => e.type = t)

/-- A section's bytes; empty where the image has none. -/
def sec (img : List Byte) (t : Nat) : List Byte :=
  match secOf img t with
  | some e => slice img e.off e.len
  | none => []

def secCount (img : List Byte) (t : Nat) : Nat :=
  match secOf img t with
  | some e => e.count
  | none => 0

/-! ### Constants (R99) -/

def constWord (img : List Byte) (i : Nat) : BitVec 32 := BitVec.ofNat 32 (leAt (sec img 7) (4 * i) 4)

/-! ### Formats (R100–R102) -/

/-- A field entry (R102). -/
structure Field where
  off : Nat
  width : Nat
  enc : Nat
  var : Nat
  dec : Nat
  fflags : Nat
  c0 : Byte
  c1 : Byte
  deriving DecidableEq, Repr

/-- A format descriptor with its fields (R101). -/
structure Fmt where
  flags : Nat
  lenrule : Nat
  minlen : Nat
  maxlen : Nat
  delim : Byte
  trail : Nat
  hdrLen : Nat
  nfields : Nat
  lenfPos : Nat
  lenfAdj : Int
  hdr : List Byte
  esc : Byte
  escXor : Byte
  nesc : Nat
  check : Nat
  escSet : List Byte
  checkFrom : Nat
  checkTail : Nat
  checkEnc : Nat
  rsv : Nat
  fields : List Field
  deriving DecidableEq, Repr

def fieldAt (b : List Byte) (o : Nat) : Field :=
  { off := imgB b o, width := imgB b (o + 1), enc := imgB b (o + 2), var := imgB b (o + 3), dec := imgB b (o + 4),
    fflags := imgB b (o + 5), c0 := nth 0 b (o + 6), c1 := nth 0 b (o + 7) }

def fmtAt (b : List Byte) (o : Nat) : Fmt :=
  let nf := imgB b (o + 9)
  { flags := imgB b o, lenrule := imgB b (o + 1), minlen := leAt b (o + 2) 2, maxlen := leAt b (o + 4) 2,
    delim := nth 0 b (o + 6), trail := imgB b (o + 7), hdrLen := imgB b (o + 8), nfields := nf,
    lenfPos := imgB b (o + 10), lenfAdj := signedOf 8 (imgB b (o + 11)), hdr := slice b (o + 12) 8,
    esc := nth 0 b (o + 20), escXor := nth 0 b (o + 21), nesc := imgB b (o + 22), check := imgB b (o + 23),
    escSet := slice b (o + 24) (imgB b (o + 22)), checkFrom := imgB b (o + 28), checkTail := imgB b (o + 29),
    checkEnc := imgB b (o + 30), rsv := imgB b (o + 31),
    fields := (List.range nf).map (fun i => fieldAt b (o + 32 + 8 * i)) }

/-- Formats from offset `o` of the FORMAT section on. -/
def fmtsFrom : Nat → List Byte → Nat → List Fmt
  | 0, _, _ => []
  | n + 1, b, o => let f := fmtAt b o; f :: fmtsFrom n b (o + 32 + 8 * f.nfields)

def formats (img : List Byte) : List Fmt := fmtsFrom (secCount img 3) (sec img 3) 8

/-- FORMAT header FLAGS and GAP_FRAMES (R100). -/
def fmtFlags (img : List Byte) : Nat := imgB (sec img 3) 1
def fmtGap (img : List Byte) : Nat := leAt (sec img 3) 2 2
def discardTrunc (img : List Byte) : Bool := fmtFlags img % 2 = 1
def discardOrphan (img : List Byte) : Bool := fmtFlags img / 2 % 2 = 1

def Fmt.isIn (f : Fmt) : Bool := f.flags % 2 = 1
def Fmt.isOut (f : Fmt) : Bool := f.flags / 2 % 2 = 1
def Fmt.onWire (f : Fmt) : Bool := f.flags / 4 % 2 = 1
def Fmt.head (f : Fmt) : List Byte := f.hdr.take f.hdrLen

/-! ### Checks (R103) -/

/-- One bit step of a reflected CRC with reflected polynomial `p`. -/
def crcBitR (p c : Nat) : Nat := if c % 2 = 1 then (c / 2) ^^^ p else c / 2

/-- One bit step of an unreflected 16-bit CRC. -/
def crcBitL (p c : Nat) : Nat := if 0x8000 ≤ c then (2 * c % 0x10000) ^^^ p else 2 * c % 0x10000

def iter8 (f : Nat → Nat) (c : Nat) : Nat := f (f (f (f (f (f (f (f c)))))))

def crcR (p init : Nat) (bs : List Byte) : Nat := bs.foldl (fun c b => iter8 (crcBitR p) (c ^^^ b.toNat)) init
def crcL (p init : Nat) (bs : List Byte) : Nat := bs.foldl (fun c b => iter8 (crcBitL p) (c ^^^ (b.toNat * 256))) init

/-- Width in bytes of a check kind's value. -/
def checkWidth (kind : Nat) : Nat :=
  if kind = 0 then 0 else if kind ≤ 3 then 1 else if kind ≤ 8 then 2 else if kind = 9 then 4 else 0

/-- The check value of a kind over bytes (R103). -/
def checkValue (kind : Nat) (bs : List Byte) : Nat :=
  match kind with
  | 1 => bs.foldl (fun c b => (c + b.toNat) % 256) 0
  | 2 => (256 - bs.foldl (fun c b => (c + b.toNat) % 256) 0) % 256
  | 3 => bs.foldl (fun c b => c ^^^ b.toNat) 0
  | 4 => crcL 0x1021 0xFFFF bs
  | 5 => crcL 0x1021 0 bs
  | 6 => crcR 0x8408 0 bs
  | 7 => crcR 0xA001 0 bs
  | 8 => crcR 0xA001 0xFFFF bs
  | 9 => crcR 0xEDB88320 0xFFFFFFFF bs ^^^ 0xFFFFFFFF
  | _ => 0

/-- CRC-64 of R124. -/
def crc64 (bs : List Byte) : Nat := crcR 0xC96C5795D7870F42 0xFFFFFFFFFFFFFFFF bs ^^^ 0xFFFFFFFFFFFFFFFF

/-- Upper-case hexadecimal digit of a number below 16. -/
def hexDigit (d : Nat) : Byte := BitVec.ofNat 8 (if d < 10 then 0x30 + d else 0x37 + d)

/-- Digits of a number in base 2 or more, most significant first, at least `n`. -/
def digits (base : Nat) : Nat → Nat → List Nat
  | 0, _ => []
  | n + 1, v => digits base n (v / base) ++ [v % base]

/-- A check value as its field's bytes (R101 CHECK_ENC). -/
def checkBytes (f : Fmt) (v : Nat) : List Byte :=
  let w := checkWidth f.check
  if f.checkEnc = 0 then le w v else if f.checkEnc = 1 then (le w v).reverse else (digits 16 (2 * w) v).map hexDigit

def checkFieldLen (f : Fmt) : Nat := checkWidth f.check * (if f.checkEnc = 2 then 2 else 1)

/-! ### Escapes (R104) -/

/-- Bytes as received turned to (unescaped byte, its bytes on the wire): ESC and a byte y are y XOR ESC_XOR (R104). An
ESC whose second byte has not been received yields nothing yet. -/
def unescapeW (f : Fmt) : Nat → List Byte → List (Byte × List Byte)
  | _, [] => []
  | i, b :: bs =>
    if f.nesc = 0 || i < f.hdrLen || b ≠ f.esc then (b, [b]) :: unescapeW f (i + 1) bs
    else match bs with
      | [] => []
      | y :: bs => (y ^^^ f.escXor, [b, y]) :: unescapeW f (i + 1) bs

/-- An escape is broken: it yields a byte outside ESC_SET (R104), or the bytes end in it. -/
def escBad (f : Fmt) : Nat → List Byte → Bool
  | _, [] => false
  | i, b :: bs =>
    if f.nesc = 0 || i < f.hdrLen || b ≠ f.esc then escBad f (i + 1) bs
    else match bs with
      | [] => true
      | y :: bs => !f.escSet.contains (y ^^^ f.escXor) || escBad f (i + 1) bs

/-- Bytes of a packet escaped for the line; `plain` is the index of a delimiter that is sent unescaped. -/
def escapeFrom (f : Fmt) (plain : Option Nat) : Nat → List Byte → List (List Byte)
  | _, [] => []
  | i, b :: bs =>
    (if f.nesc = 0 || i < f.hdrLen || plain = some i || !f.escSet.contains b then [b] else [f.esc, b ^^^ f.escXor]) ::
      escapeFrom f plain (i + 1) bs

/-! ### Parsing (R105, R465) -/

/-- A parsed value: a scalar or a buffer. -/
inductive FVal where
  | num (v : BitVec 32)
  | buf (b : List Byte)
  deriving DecidableEq, Repr

/-- Index of the delimiter that ends a DELIM packet: the first unescaped DELIM after the header. -/
def delimIx (f : Fmt) (ws : List (Byte × List Byte)) : Option Nat :=
  (List.range ws.length).find? (fun i => decide (f.hdrLen ≤ i) && (match ws[i]? with
    | some (b, w) => b = f.delim && w.length = 1
    | none => false))

/-- The length in unescaped bytes meets the format's length rule (R101). -/
def lenOk (f : Fmt) (ws : List (Byte × List Byte)) : Bool :=
  let n := ws.length
  let bs := ws.map (fun w => w.1)
  match f.lenrule with
  | 0 => n = f.minlen
  | 1 => decide (f.minlen ≤ n ∧ n ≤ f.maxlen) && (match delimIx f ws with
      | some i => i + 1 + f.trail = n
      | none => false)
  | 2 => decide (f.minlen ≤ n ∧ n ≤ f.maxlen) && decide (f.lenfPos < n) &&
      decide ((n : Int) = (imgB bs f.lenfPos : Int) + f.lenfAdj)
  | _ => decide (f.minlen ≤ n ∧ n ≤ f.maxlen)

/-- The check field agrees (R103). -/
def checkOk (f : Fmt) (ws : List (Byte × List Byte)) : Bool :=
  let cw := checkFieldLen f
  if cw = 0 then true
  else
    let n := ws.length
    let pos := n - f.checkTail - cw
    decide (cw + f.checkTail ≤ n) &&
    (let cov := (ws.take pos).drop f.checkFrom
     let bytes := if f.onWire then (cov.map (fun w => w.2)).flatten else cov.map (fun w => w.1)
     (((ws.drop pos).take cw).map (fun w => w.1)) = checkBytes f (checkValue f.check bytes))

def isDigit (b : Byte) : Bool := decide (0x30 ≤ b.toNat ∧ b.toNat ≤ 0x39)

/-- Value of a hexadecimal digit, upper or lower case. -/
def hexVal (b : Byte) : Option Nat :=
  let v := b.toNat
  if 0x30 ≤ v ∧ v ≤ 0x39 then some (v - 0x30)
  else if 0x41 ≤ v ∧ v ≤ 0x46 then some (v - 0x37)
  else if 0x61 ≤ v ∧ v ≤ 0x66 then some (v - 0x57)
  else none

/-- A number in a base from its digits; `none` where one is no digit. -/
def fromDigits (base : Nat) (dig : Byte → Option Nat) : Nat → List Byte → Option Nat
  | acc, [] => some acc
  | acc, b :: bs => match dig b with
    | some d => fromDigits base dig (base * acc + d) bs
    | none => none

def decVal (b : Byte) : Option Nat := if isDigit b then some (b.toNat - 0x30) else none

/-- A signed value in a 32-bit variable, or the open value of log entry 17. -/
def fitNum (enc : Nat) (raw : List Byte) (v : Option Int) : BitVec 32 :=
  match v with
  | some v => if -2147483648 ≤ v ∧ v ≤ 2147483647 then BitVec.ofInt 32 v else Config.badDigits enc raw
  | none => Config.badDigits enc raw

/-- Decimal text without its point, spaces and sign (R102, R465). -/
def decText (enc : Nat) (raw : List Byte) : Option Int :=
  let ds := raw.filter (fun b => b ≠ 0x20 && b ≠ 0x2E && !(enc = 4 && (b = 0x2D || b = 0x2B)))
  let neg := enc = 4 && raw.contains 0x2D
  if ds.isEmpty then none
  else (fromDigits 10 decVal 0 ds).map (fun (v : Nat) => if neg then -(v : Int) else (v : Int))

/-- A field's value from its bytes (R465); packed BCD is read high digit first (log entry 18), and a number that no
32-bit variable holds is the open value of log entry 17. -/
def parseField (enc : Nat) (raw : List Byte) : FVal :=
  match enc with
  | 1 => .num (BitVec.ofNat 32 (ofLe (raw.take 4)))
  | 2 => .num (BitVec.ofNat 32 (ofLe (raw.reverse.take 4)))
  | 3 => .num (fitNum 3 raw (decText 3 raw))
  | 4 => .num (fitNum 4 raw (decText 4 raw))
  | 5 =>
    let ds := raw.filter (fun b => b ≠ 0x20)
    .num (fitNum 5 raw (if ds.isEmpty then none
      else match fromDigits 16 hexVal 0 ds with
        | some v => if v < 4294967296 then some (BitVec.ofNat 32 v).toInt else none
        | none => none))
  | 6 =>
    let ds := (raw.map (fun b => [BitVec.ofNat 8 (0x30 + b.toNat / 16), BitVec.ofNat 8 (0x30 + b.toNat % 16)])).flatten
    .num (fitNum 6 raw ((fromDigits 10 decVal 0 ds).map (fun (v : Nat) => (v : Int))))
  | _ => .buf raw

/-- Where a field of WIDTH 0 that starts at `o` ends: at the delimiter, else at the check field (R102). -/
def fieldEnd (f : Fmt) (ws : List (Byte × List Byte)) : Nat :=
  match f.lenrule, delimIx f ws with
  | 1, some i => i
  | _, _ => ws.length - f.checkTail - checkFieldLen f

/-- The fields of a packet in order, each with its offset and bytes. A field that reaches past the end of a short packet
has the bytes that exist (log entry 70). -/
def fieldSpans (f : Fmt) (ws : List (Byte × List Byte)) : Nat → List Field → List (Field × Nat × List Byte)
  | _, [] => []
  | prev, g :: gs =>
    let o := if g.off = 0xFF then prev else g.off
    let n := if g.width = 0 then fieldEnd f ws - o else g.width
    (g, o, ((ws.drop o).take n).map (fun w => w.1)) :: fieldSpans f ws (o + n) gs

/-- The bytes of an ENC 0 field. -/
def constField (g : Field) : List Byte := if g.width = 2 then [g.c0, g.c1] else [g.c0]

/-- Format whose header the packet's leading bytes match, first in format order (R105), with its number. -/
def matchFmt : Nat → List Fmt → List Byte → Option (Nat × Fmt)
  | _, [], _ => none
  | i, f :: fs, bs => if f.isIn && f.head = bs.take f.hdrLen && decide (f.hdrLen ≤ bs.length) then some (i, f)
                      else matchFmt (i + 1) fs bs

/-- A parsed packet: its format (if one matches), its flags BADFRAME (4) and UNMATCHED (8), and the values of its
fields with a VAR (R105). -/
structure Parsed where
  fmt : Option Nat
  flags : Nat
  vals : List (Nat × FVal)
  deriving DecidableEq, Repr

/-- Parse a packet as received against the input formats (R105). A literal field (ENC 0) is compared and writes no
variable, whatever its VAR (log entry 69). -/
def parsePkt (fs : List Fmt) (bs : List Byte) : Parsed :=
  match matchFmt 0 fs bs with
  | none => { fmt := none, flags := 8, vals := [] }
  | some (i, f) =>
    let ws := unescapeW f 0 bs
    let spans := fieldSpans f ws 0 f.fields
    if !escBad f 0 bs && lenOk f ws && checkOk f ws && spans.all (fun p => p.1.enc ≠ 0 || p.2.2 = constField p.1) then
      { fmt := some i, flags := 0,
        vals := (spans.filter (fun p => p.1.enc ≠ 0 && p.1.var ≠ 0xFF)).map
          (fun p => (p.1.var, parseField p.1.enc p.2.2)) }
    else { fmt := some i, flags := 4, vals := [] }

/-- Value of field number `k` of a packet of format `f`, as an unsigned number (R120 CAP_FIELD). -/
def fieldNum (f : Fmt) (bs : List Byte) (k : Nat) : Nat :=
  match (fieldSpans f (unescapeW f 0 bs) 0 f.fields)[k]? with
  | some (g, _, raw) => (match parseField g.enc raw with
      | .num v => v.toNat
      | .buf _ => 0)
  | none => 0

/-- Bytes of a response that a fingerprint is fed (R124): the unescaped packet without its VOLATILE fields and its check
field. -/
def printBytes (f : Fmt) (bs : List Byte) : List Byte :=
  let ws := unescapeW f 0 bs
  let cw := checkFieldLen f
  let cpos := ws.length - f.checkTail - cw
  let vol := (fieldSpans f ws 0 f.fields).filter (fun p => p.1.fflags % 2 = 1)
  ((List.range ws.length).filter (fun i => !(decide (cw ≠ 0 ∧ cpos ≤ i ∧ i < cpos + cw)) &&
    !vol.any (fun p => decide (p.2.1 ≤ i ∧ i < p.2.1 + p.2.2.length)))).map
    (fun i => match ws[i]? with
      | some w => w.1
      | none => 0)

/-! ### Where a packet ends (R106, R107) -/

/-- How the received bytes stand to a format's header: matched, still a beginning of it, or failed. -/
inductive HdrSt where
  | matched | pending | failed
  deriving DecidableEq, Repr

def hdrSt (f : Fmt) (bs : List Byte) : HdrSt :=
  if f.hdrLen ≤ bs.length then (if bs.take f.hdrLen = f.head then .matched else .failed)
  else if f.head.take bs.length = bs then .pending else .failed

/-- The packet's format once decided: `some (some f)`; `some none` when no header can match; `none` while undecided. -/
def decideFmt : List Fmt → List Byte → Option (Option Fmt)
  | [], _ => some none
  | f :: fs, bs => match hdrSt f bs with
    | .matched => some (some f)
    | .pending => none
    | .failed => decideFmt fs bs

/-- A packet of format `f` ends with its last byte here: (ends, flagged BADFRAME for MAXLEN). -/
def endsNow (f : Fmt) (bs : List Byte) : Bool × Bool :=
  let ws := unescapeW f 0 bs
  let n := ws.length
  let ended : Bool := match f.lenrule with
    | 0 => n = f.minlen
    | 1 => (match delimIx f ws with
        | some i => i + 1 + f.trail = n
        | none => false)
    | 2 => decide (f.lenfPos < n) && decide ((n : Int) = (imgB (ws.map (fun w => w.1)) f.lenfPos : Int) + f.lenfAdj)
    | _ => false
  if ended then (true, false) else (n = f.maxlen, n = f.maxlen)

/-- The fallback end rule (R107) is met with the last byte. -/
def fallbackEnds (fs : List Fmt) (bs : List Byte) : Bool :=
  (match fs.find? (fun f => f.lenrule = 1) with
    | some f =>
      let f := { f with hdrLen := 0 }
      let ws := unescapeW f 0 bs
      (match delimIx f ws with
        | some i => i + 1 + f.trail = ws.length
        | none => false)
    | none => false) || bs.length = fs.foldl (fun m f => max m f.maxlen) 0

/-- The first packet that ends within received bytes: its length and whether MAXLEN flagged it BADFRAME. -/
def firstEnd (fs : List Fmt) (bs : List Byte) : Option (Nat × Bool) :=
  (List.range (bs.length + 1)).findSome? (fun n =>
    match decideFmt fs (bs.take n) with
    | none => none
    | some (some f) => (List.range (n + 1)).findSome? (fun k =>
        if 0 < k ∧ (endsNow f (bs.take k)).1 then some (k, (endsNow f (bs.take k)).2) else none)
    | some none => if 0 < n ∧ fallbackEnds fs (bs.take n) then some (n, false) else none)

/-- The leading bytes are a valid start (R87, R106): those of an input format's header. -/
def validStart (fs : List Fmt) (bs : List Byte) : Bool := (matchFmt 0 fs bs).isSome

/-- The packet's format is decided and ends by the gap window as its normal end (LENRULE 3, R87). -/
def gapEnded (fs : List Fmt) (bs : List Byte) : Bool :=
  (decideFmt fs bs).elim false (fun f => f.elim false (fun f => f.lenrule = 3))

/-- The input formats of an image. -/
def inFormats (img : List Byte) : List Fmt := (formats img).filter (fun f => f.isIn)

/-! ### Rendering (R465, R466) -/

/-- The decimal digits of a number, without leading zeros but at least `k`. -/
def decDigits (k v : Nat) : List Byte :=
  let ds := (digits 10 20 v).map (fun d => BitVec.ofNat 8 (0x30 + d))
  let n := (ds.dropWhile (fun b => b = 0x30)).length
  ds.drop (20 - max (max n 1) k)

/-- Decimal text of a number with a point before its last `d` digits (R102). -/
def decBody (d v : Nat) : List Byte :=
  if d = 0 then decDigits 1 v
  else
    let ds := decDigits (d + 1) v
    ds.take (ds.length - d) ++ [0x2E] ++ ds.drop (ds.length - d)

/-- Text right-aligned in a width; `none` where it does not fit. -/
def alignR (w : Nat) (padb : Byte) (bs : List Byte) : Option (List Byte) :=
  if w = 0 then some bs
  else if bs.length ≤ w then some (List.replicate (w - bs.length) padb ++ bs) else none

/-- The least number of bytes, at least one, that hold a value. -/
def needBytes : Nat → Nat → Nat
  | 0, _ => 1
  | k + 1, v => if v < 256 then 1 else 1 + needBytes k (v / 256)

/-- A field rendered from a value and a buffer (R465); `none` is a render failure. -/
def renderField (g : Field) (v : BitVec 32) (buf : List Byte) : Option (List Byte) :=
  let zero := g.fflags / 2 % 2 = 1
  let x := v.toInt
  match g.enc with
  | 0 => some (constField g)
  | 1 | 2 =>
    let w := if g.width = 0 then needBytes 4 v.toNat else g.width
    let b := if 0 ≤ x then (if x.toNat < 256 ^ w then some (le w x.toNat) else none)
      else if 4 ≤ w then some (le 4 v.toNat ++ List.replicate (w - 4) 0xFF) else none
    if g.enc = 1 then b else b.map List.reverse
  | 3 => if x < 0 then none else alignR g.width (if zero then 0x30 else 0x20) (decBody g.dec x.toNat)
  | 4 =>
    let sign : Byte := if x < 0 then 0x2D else 0x2B
    let body := decBody g.dec x.natAbs
    if zero ∧ g.width ≠ 0 then (if body.length + 1 ≤ g.width then some (sign :: (List.replicate (g.width - 1 - body.length) 0x30 ++ body)) else none)
    else alignR g.width 0x20 (sign :: body)
  | 5 =>
    let ds := (digits 16 8 v.toNat).dropWhile (fun d => d = 0)
    alignR g.width (if zero then 0x30 else 0x20) ((if ds.isEmpty then [0] else ds).map hexDigit)
  | 6 =>
    if x < 0 then none
    else
      let w := if g.width = 0 then (((digits 10 10 x.toNat).dropWhile (fun d => d = 0)).length + 1) / 2 else g.width
      if x.toNat < 100 ^ w then some ((digits 100 w x.toNat).map (fun p => BitVec.ofNat 8 (p / 10 * 16 + p % 10))) else none
  | _ =>
    if g.width = 0 then some buf
    else if buf.length ≤ g.width then some (buf ++ List.replicate (g.width - buf.length) (if zero then 0 else 0x20))
    else none

/-- A machine's variable or buffer by a field's VAR; 0xFF is the value 0 and the empty buffer (log entry 18). -/
def varOf (vars : List (BitVec 32)) (i : Nat) : BitVec 32 := if i < 24 then nth 0 vars i else 0
def bufOf (bufs : List (List Byte)) (i : Nat) : List Byte := if 0x80 ≤ i ∧ i ≤ 0x87 then nth [] bufs (i - 0x80) else []

/-- The fields of a format rendered in order. -/
def renderFields (vars : List (BitVec 32)) (bufs : List (List Byte)) : List Field → Option (List Byte)
  | [] => some []
  | g :: gs => match renderField g (varOf vars g.var) (bufOf bufs g.var), renderFields vars bufs gs with
    | some a, some b => some (a ++ b)
    | _, _ => none

/-- Insert bytes at an index. -/
def insertAt (i : Nat) (x : List Byte) (bs : List Byte) : List Byte := bs.take i ++ x ++ bs.drop i

/-- An OUT format rendered to line bytes (R466); `none` is a render failure. -/
def renderFmt (f : Fmt) (vars : List (BitVec 32)) (bufs : List (List Byte)) : Option (List Byte) :=
  match renderFields vars bufs f.fields with
  | none => none
  | some body =>
    let cw := checkFieldLen f
    let n := body.length + cw + (if f.lenrule = 1 then 1 else 0)
    if n < cw + f.checkTail ∨ (f.lenrule = 1 ∧ n < f.trail + 1) then none
    else
      let cpos := n - f.checkTail - cw
      let dpos := n - 1 - f.trail
      if f.lenrule = 1 ∧ cw ≠ 0 ∧ cpos ≤ dpos ∧ dpos < cpos + cw then none
      else
        let bare := if f.lenrule = 1 then insertAt (if dpos < cpos ∨ cw = 0 then dpos else dpos - cw) [f.delim] body else body
        let plain := if f.lenrule = 1 then some (if dpos < cpos ∨ cw = 0 then dpos else dpos - cw) else none
        let cov := if f.onWire then (((escapeFrom f plain 0 bare).take cpos).drop f.checkFrom).flatten
          else (bare.take cpos).drop f.checkFrom
        let full := insertAt cpos (if cw = 0 then [] else checkBytes f (checkValue f.check cov)) bare
        let plain := if f.lenrule = 1 then some dpos else none
        let lenOK := match f.lenrule with
          | 0 => n = f.minlen
          | 2 => decide (f.minlen ≤ n ∧ n ≤ f.maxlen ∧ f.lenfPos < n) && decide ((n : Int) = (imgB full f.lenfPos : Int) + f.lenfAdj)
          | _ => decide (f.minlen ≤ n ∧ n ≤ f.maxlen)
        let delimOK := f.lenrule ≠ 1 || f.escSet.contains f.delim || !(full.take dpos).contains f.delim
        if lenOK && delimOK then some (escapeFrom f plain 0 full).flatten else none

/-- Render format number `k` of an image. -/
def renderNo (img : List Byte) (k : Nat) (vars : List (BitVec 32)) (bufs : List (List Byte)) : Option (List Byte) :=
  match (formats img)[k]? with
  | some f => if f.isOut then renderFmt f vars bufs else none
  | none => none

end Sys2Proof.Machine
end

