-- ==== Sys2Proof/Machine/Table.lean ====
section
/-! DEFINITION. The machines, operation map, curves, probe list and port program of a personality image
(spec/04_personality_tables.md R108–R120), the class messages (R304), and the checks of an image (R96–R120, R129,
R131). -/

namespace Sys2Proof.Machine

/-! ### Class messages (R71, R304) -/

/-- A class message: its class (`none`: all), whether the tenant sends it, and its kind: 0 level, 1 one-shot,
2 exclusive (R304). -/
structure MsgInfo where
  cls : Option Nat
  isOp : Bool
  kind : Nat
  deriving DecidableEq, Repr

def op (c k : Nat) : Option MsgInfo := some { cls := some c, isOp := true, kind := k }
def ev (c : Nat) : Option MsgInfo := some { cls := some c, isOp := false, kind := 1 }

/-- The table of R304; `none` is a reserved code. -/
def msgInfo (code : Nat) : Option MsgInfo :=
  match code with
  | 0x01 | 0x02 | 0x03 | 0x04 | 0x05 => some { cls := none, isOp := false, kind := 1 }
  | 0x10 => op 0 0 | 0x11 => op 0 0 | 0x12 => op 0 1 | 0x13 => ev 0
  | 0x20 => op 1 0 | 0x21 => op 1 2 | 0x22 => op 1 2 | 0x23 => op 1 1 | 0x24 => ev 1
  | 0x30 => op 2 0 | 0x31 => op 2 0 | 0x32 => op 2 0 | 0x33 => op 2 1
  | 0x40 => op 3 2 | 0x41 => ev 3
  | 0x50 => op 4 0 | 0x51 => op 4 0 | 0x52 => op 4 1 | 0x53 => op 4 2 | 0x54 => op 4 1 | 0x55 => ev 4
  | 0x60 => op 5 0
  | 0x70 => op 6 0 | 0x71 => op 6 0 | 0x72 => op 6 1 | 0x73 => ev 6
  | _ => none

/-- Least payload of a class operation (R304). -/
def msgLen (code : Nat) : Nat :=
  match code with
  | 0x20 => 1 | 0x30 => 3 | 0x31 => 1 | 0x32 => 3 | 0x50 => 2 | 0x51 => 1 | 0x52 => 1 | 0x53 => 1 | 0x54 => 1
  | 0x60 => 3 | 0x70 => 4 | 0x71 => 1
  | _ => 0

/-- A class operation's payload lies in its range (R304). -/
def msgArgOk (code : Nat) (p : List Byte) : Bool :=
  match code with
  | 0x20 => decide (imgB p 0 ≤ 3)
  | 0x30 => decide (imgB p 2 ≤ 40 ∧ imgB p 2 + 3 ≤ p.length)
  | 0x32 => decide (imgB p 2 ≤ 2)
  | 0x52 => decide (imgB p 0 ≤ 51 ∧ imgB p 0 + 1 ≤ p.length)
  | 0x53 => decide (imgB p 0 ≤ 1)
  | 0x60 => decide (imgB p 0 ≤ 2) &&
      (imgB p 0 ≠ 2 || decide (2 ≤ leAt p 1 2 ∧ leAt p 1 2 ≤ 8190 ∧ leAt p 1 2 % 2 = 0))
  | _ => true

/-! ### Machines (R108–R111) -/

structure MInput where
  source : Nat
  rsv : Nat
  arg : Nat
  deriving DecidableEq, Repr

structure MTrans where
  src : Nat
  input : Nat
  dst : Nat
  nact : Nat
  rsv : Nat
  act : Nat
  deriving DecidableEq, Repr

structure Mach where
  side : Nat
  nstates : Nat
  initial : Nat
  rsv : Nat                        -- sum of the reserved bytes
  inputs : List MInput
  trans : List MTrans
  acts : List Word
  deriving DecidableEq, Repr

/-- A machine's length in bytes at offset `o` of the section. -/
def machLen (b : List Byte) (o : Nat) : Nat :=
  16 + 4 * imgB b (o + 2) + 8 * leAt b (o + 4) 2 + 4 * leAt b (o + 6) 2

def machAt (b : List Byte) (o : Nat) : Mach :=
  let ni := imgB b (o + 2)
  let nt := leAt b (o + 4) 2
  let na := leAt b (o + 6) 2
  let ti := o + 16 + 4 * ni
  let ai := ti + 8 * nt
  { side := imgB b o, nstates := (if imgB b (o + 1) = 0 then 256 else imgB b (o + 1)), initial := imgB b (o + 3),
    rsv := leAt b (o + 8) 8,
    inputs := (List.range ni).map (fun i => { source := imgB b (o + 16 + 4 * i), rsv := imgB b (o + 17 + 4 * i),
                                              arg := leAt b (o + 18 + 4 * i) 2 }),
    trans := (List.range nt).map (fun i => { src := imgB b (ti + 8 * i), input := imgB b (ti + 8 * i + 1),
                                             dst := imgB b (ti + 8 * i + 2), nact := imgB b (ti + 8 * i + 3),
                                             rsv := leAt b (ti + 8 * i + 4) 2, act := leAt b (ti + 8 * i + 6) 2 }),
    acts := (List.range na).map (fun i => BitVec.ofNat 32 (leAt b (ai + 4 * i) 4)) }

/-- The machines of an image, in section order. -/
def machines (img : List Byte) : List Mach :=
  let b := sec img 4
  let n := secCount img 4
  if n = 0 then [] else if n = 1 then [machAt b 0] else [machAt b 0, machAt b (machLen b 0)]

/-- The machine of a side (R108). -/
def machOf (img : List Byte) (side : Nat) : Option Mach := (machines img).find? (fun m => m.side = side)

/-- Input number of a source and argument: the first input entry that names them (R109). -/
def Mach.inputNo (m : Mach) (source arg : Nat) : Option Nat :=
  m.inputs.findIdx? (fun i => i.source = source && i.arg = arg)

/-- Input number a packet is presented as: the lowest that its format or its flags fire (R109). -/
def Mach.packetInput (m : Mach) (fmt : Option Nat) (pk : Nat) : Option Nat :=
  m.inputs.findIdx? (fun i => (i.source = 0 && pk = 0 && fmt = some i.arg) ||
    (i.source = 1 && (i.arg &&& pk) ≠ 0))

def Mach.transFor (m : Mach) (state input : Nat) : Option MTrans :=
  m.trans.find? (fun t => t.src = state && t.input = input)

/-- The action words of a transition in order. -/
def Mach.actions (m : Mach) (t : MTrans) : List Word := slice32 m.acts t.act t.nact
where
  slice32 (ws : List Word) (lo n : Nat) : List Word := (ws.drop lo).take n

/-! ### Operation map (R115), curves (R117), port program (R119) -/

structure OpEnt where
  kind : Nat
  code : Nat
  outkind : Nat
  form1 : Nat
  form2 : Nat
  timeout : Nat
  deriving DecidableEq, Repr

def opEnts (img : List Byte) : List OpEnt :=
  let b := sec img 5
  (List.range (secCount img 5)).map (fun i =>
    { kind := imgB b (16 * i), code := imgB b (16 * i + 1), outkind := imgB b (16 * i + 2),
      form1 := imgB b (16 * i + 4), form2 := imgB b (16 * i + 5), timeout := leAt b (16 * i + 8) 4 })

def opEnt (img : List Byte) (kind code : Nat) : Option OpEnt :=
  (opEnts img).find? (fun e => e.kind = kind && e.code = code)

/-- Curve `i` of an image as its 68 bytes. -/
def curveBytes (img : List Byte) (i : Nat) : List Byte := slice (sec img 6) (68 * i) 68

/-- Points of a curve entry. -/
def curvePts (c : List Byte) : List (Nat × Nat) :=
  (List.range (imgB c 0)).map (fun i => (leAt c (4 + 4 * i) 2, leAt c (6 + 4 * i) 2))

/-- x rises strictly over the points. -/
def ptsRise : List (Nat × Nat) → Bool
  | (x0, _) :: (x1, y1) :: ps => decide (x0 < x1) && ptsRise ((x1, y1) :: ps)
  | _ => true

/-- Points 0 to NPTS − 1 obey R117 with given units. -/
def ptsOk (xunit yunit : Nat) (ps : List (Nat × Nat)) : Bool :=
  decide (2 ≤ ps.length ∧ ps.length ≤ 16) && (match ps with
    | (x0, _) :: _ => x0 = 0
    | [] => false) && ptsRise ps &&
  (xunit ≠ 0 || ps.all (fun p => decide (p.1 ≤ 20000))) && (yunit ≠ 0 || ps.all (fun p => decide (p.2 ≤ 255)))

/-- A curve entry obeys R117, but for its reserved byte and units. -/
def curveOk (c : List Byte) : Bool :=
  ptsOk (imgB c 1) (imgB c 2) (curvePts c) && zeroAt c (4 + 4 * imgB c 0) (64 - 4 * imgB c 0)

/-- Value of a curve at x (R117). -/
def curveAt : List (Nat × Nat) → Nat → Int
  | (x0, y0) :: (x1, y1) :: ps, x =>
    if x < x1 then (y0 : Int) + ((((y1 : Int) - y0) * ((x : Int) - x0)).tdiv ((x1 : Int) - x0))
    else curveAt ((x1, y1) :: ps) x
  | [(_, y)], _ => y
  | [], _ => 0

/-- The CURVE action's value: a negative input gives y₀ (R117). -/
def curveInt (ps : List (Nat × Nat)) (x : Int) : Int :=
  if x < 0 then (match ps with
    | (_, y) :: _ => y
    | [] => 0) else curveAt ps x.toNat

def progLen (img : List Byte) : Nat := leAt (sec img 1) 0 4
def progData (img : List Byte) : Nat := leAt (sec img 1) 4 4

/-! ### Probe list (R120) -/

def nmodes (img : List Byte) : Nat := imgB (sec img 2) 0
def nprobes (img : List Byte) : Nat := imgB (sec img 2) 1
def attachKind (img : List Byte) : Nat := imgB (sec img 2) 2
def attachPad (img : List Byte) : Nat := imgB (sec img 2) 3
def attachUs (img : List Byte) : Nat := leAt (sec img 2) 4 4
def lossMisses (img : List Byte) : Nat := imgB (sec img 2) 8
def lossPad (img : List Byte) : Nat := imgB (sec img 2) 9
def pollFmt (img : List Byte) : Nat := imgB (sec img 2) 10
def replyFmt (img : List Byte) : Nat := imgB (sec img 2) 11
def pollUs (img : List Byte) : Nat := leAt (sec img 2) 12 4
def replyUs (img : List Byte) : Nat := leAt (sec img 2) 16 4
def lossPadUs (img : List Byte) : Nat := leAt (sec img 2) 20 4
def verifyProbe (img : List Byte) : Nat := imgB (sec img 2) 24

/-- A mode entry's offset in the section, and its fields. -/
def modeOff (m : Nat) : Nat := 32 + 16 * m
def modeBaud (img : List Byte) (m : Nat) : Nat := leAt (sec img 2) (modeOff m) 4
def modeB (img : List Byte) (m k : Nat) : Nat := imgB (sec img 2) (modeOff m + k)
def modeCapbit (img : List Byte) (m : Nat) : Nat := modeB img m 7
def modeCmdset (img : List Byte) (m : Nat) : Nat := modeB img m 8
def modeSwitch (img : List Byte) (m : Nat) : Nat := modeB img m 9
def modeConfirm (img : List Byte) (m : Nat) : Nat := modeB img m 10
def modeSwitchUs (img : List Byte) (m : Nat) : Nat := leAt (sec img 2) (modeOff m + 12) 4

def probeOff (img : List Byte) (p : Nat) : Nat := 32 + 16 * nmodes img + 16 * p
def probeB (img : List Byte) (p k : Nat) : Nat := imgB (sec img 2) (probeOff img p + k)
def probeFlags (img : List Byte) (p : Nat) : Nat := probeB img p 0
def probeContact (img : List Byte) (p : Nat) : Bool := probeFlags img p % 2 = 1
def probeIdent (img : List Byte) (p : Nat) : Bool := probeFlags img p / 2 % 2 = 1
def probeCaps (img : List Byte) (p : Nat) : Bool := probeFlags img p / 4 % 2 = 1
def probeReq (img : List Byte) (p : Nat) : Nat := probeB img p 1
def probeResp (img : List Byte) (p : Nat) : Nat := probeB img p 2
def probeCapField (img : List Byte) (p : Nat) : Nat := probeB img p 3
def probeMode (img : List Byte) (p : Nat) : Nat := probeB img p 4
def probeRetries (img : List Byte) (p : Nat) : Nat := probeB img p 5
def probeWinUs (img : List Byte) (p : Nat) : Nat := leAt (sec img 2) (probeOff img p + 8) 4

def probes (img : List Byte) : List Nat := List.range (nprobes img)

/-! ### Checks of an image (R129, in the order of its reason table) -/

/-- Reason 0x01: a header field out of range (R96). -/
def hdrBad (img : List Byte) : Bool :=
  slice img 0 4 ≠ [0x41, 0x50, 0x54, 0x31] || leAt img 4 2 ≠ 1 || aptRole img % 4 = 0 || aptId img = 0 ||
  aptId img = 0xFFFFFFFF || decide (7 < aptKey img) || aptLen img ≠ img.length || aptLen img % 4 ≠ 0 ||
  decide (aptLen img < 256) || decide (262144 < aptLen img)

/-- Reason 0x04: the section directory is invalid (R97). -/
def dirBad (img : List Byte) : Bool :=
  let es := dirEnts img
  let live := es.filter (fun e => e.type ≠ 0)
  es.any (fun e => e.type = 0 && (e.count ≠ 0 || e.off ≠ 0 || e.len ≠ 0)) ||
  live.any (fun e => e.off % 4 ≠ 0 || decide (e.off < 128) ||
    decide (aptLen img < e.off + e.len + 64) || decide (1 < (live.filter (fun f => f.type = e.type)).length) ||
    live.any (fun f => f.type ≠ e.type && decide (e.off < f.off + f.len ∧ f.off < e.off + e.len))) ||
  (let has := fun t => live.any (fun e => e.type = t)
   let cnt := fun t lo hi => live.any (fun e => e.type = t && !(decide (lo ≤ e.count ∧ e.count ≤ hi)))
   !has 3 || !has 4 || (aptPartner img && (!has 1 || !has 2)) || (aptTenant img && !has 5) ||
   cnt 1 1 1 || cnt 2 1 1 || cnt 3 1 64 || cnt 4 1 2 || cnt 5 1 128 || cnt 6 1 16 || cnt 7 1 256)

/-- An action's operands that are out of range (R110), given the image. -/
def actBad (img : List Byte) (m : Mach) (w : Word) : Bool :=
  let nc := secCount img 7
  let out := fun k => match (formats img)[k]? with
    | some f => f.isOut
    | none => false
  match bitsOf w 31 24 with
  | 0x00 => bitsOf w 23 0 ≠ 0
  | 0x01 => !out (bitsOf w 5 0)
  | 0x02 => (msgInfo (bitsOf w 7 0)).isNone
  | 0x03 => decide (23 < bitsOf w 20 16) || decide (nc ≤ bitsOf w 7 0)
  | 0x04 => decide (nc ≤ bitsOf w 7 0) ||
      !(decide (1 ≤ (constWord img (bitsOf w 7 0)).toNat ∧ (constWord img (bitsOf w 7 0)).toNat ≤ 10000000))
  | 0x05 => false
  | 0x06 => m.side ≠ 0 || !(bitsOf w 7 0 = 2 || decide (0x10 ≤ bitsOf w 7 0 ∧ bitsOf w 7 0 ≤ 0x7F))
  | 0x07 | 0x08 => m.side ≠ 1 || bitsOf w 23 0 ≠ 0
  | 0x09 => bitsOf w 23 0 ≠ 0
  | 0x0A => decide (secCount img 6 ≤ bitsOf w 19 16) || decide (23 < bitsOf w 12 8) || decide (23 < bitsOf w 4 0)
  | 0x0B => decide (23 < bitsOf w 20 16) || decide (nc ≤ bitsOf w 15 8) || decide (nc ≤ bitsOf w 7 0)
  | _ => false

/-- Reserved fields and encodings of the FORMAT section (R100–R102). -/
def rsvFormats (img : List Byte) : Bool :=
  decide (4 ≤ fmtFlags img) || !zeroAt (sec img 3) 4 4 || (!aptPartner img && !zeroAt (sec img 3) 1 3) ||
  (formats img).any (fun f => decide (8 ≤ f.flags) || decide (3 < f.lenrule) || decide (9 < f.check) ||
    decide (2 < f.checkEnc) || f.rsv ≠ 0 ||
    f.fields.any (fun g => decide (7 < g.enc) || decide (4 ≤ g.fflags)))

/-- Reserved fields and encodings of the machines (R108–R110). -/
def rsvMachines (img : List Byte) : Bool :=
  (machines img).any (fun m => m.rsv ≠ 0 || m.inputs.any (fun i => i.rsv ≠ 0 || decide (5 < i.source) ||
      (i.source = 3 && (msgInfo i.arg).isNone)) ||
    m.trans.any (fun t => t.rsv ≠ 0) || m.acts.any (fun w => decide (0x0C < bitsOf w 31 24) ||
      (bitsOf w 31 24 = 2 && (msgInfo (bitsOf w 7 0)).isNone)))

/-- Reserved fields and encodings of the operation map and the curves (R115, R117). -/
def rsvMaps (img : List Byte) : Bool :=
  (List.range (secCount img 5)).any (fun i => let b := sec img 5
    decide (2 < imgB b (16 * i)) || !zeroAt b (16 * i + 3) 1 || !zeroAt b (16 * i + 6) 2 || !zeroAt b (16 * i + 12) 4 ||
    (imgB b (16 * i) = 0 && (msgInfo (imgB b (16 * i + 1))).isNone)) ||
  (List.range (secCount img 6)).any (fun i => let c := curveBytes img i
    imgB c 3 ≠ 0 || decide (2 < imgB c 1) || decide (1 < imgB c 2))

/-- Reserved fields and encodings of the probe list, where the image has one (R120). -/
def rsvProbes (img : List Byte) : Bool :=
  (secOf img 2).isSome &&
  (!zeroAt (sec img 2) 25 7 || decide (1 < attachKind img) || (List.range (nmodes img)).any (fun m => modeB img m 11 ≠ 0) ||
    (probes img).any (fun p => decide (8 ≤ probeFlags img p) || probeB img p 6 ≠ 0 || probeB img p 7 ≠ 0 ||
      !zeroAt (sec img 2) (probeOff img p + 12) 4))

/-- Reason 0x03: a reserved field is not 0, or a reserved encoding is used. It is checked before the directory (R129), so
a section is read where its directory entry says, whatever else the directory holds. -/
def rsvBad (img : List Byte) : Bool :=
  decide (4 ≤ aptRole img) || !zeroAt img 18 2 || !zeroAt img 24 8 || decide (8 < aptClass img) ||
  (List.range 8).any (fun i => imgB img (33 + 12 * i) ≠ 0) || (dirEnts img).any (fun e => decide (7 < e.type)) ||
  rsvFormats img || rsvMachines img || rsvMaps img || rsvProbes img

/-- A format's limits (R101, R102). -/
def fmtBad (f : Fmt) : Bool :=
  f.flags % 4 = 0 || f.minlen = 0 || decide (4096 < f.minlen) || decide (f.maxlen < f.minlen) ||
  decide (4096 < f.maxlen) || (f.lenrule = 0 && f.minlen ≠ f.maxlen) || (f.lenrule ≠ 1 && f.delim ≠ 0) ||
  decide (4 < f.trail) || decide (8 < f.hdrLen) || decide (16 < f.nfields) || decide (15 < f.lenfPos) ||
  !(f.hdr.drop f.hdrLen).all (fun b => b = 0) || decide (4 < f.nesc) || decide (8 < f.checkTail) ||
  (f.nesc ≠ 0 && !f.escSet.contains f.esc) ||
  f.fields.any (fun g => (g.enc = 0 && g.width ≠ 1 && g.width ≠ 2) || decide (6 < g.dec) ||
    !(decide (g.var ≤ 23) || (decide (0x80 ≤ g.var ∧ g.var ≤ 0x87) && g.enc = 7) || g.var = 0xFF))

/-- Reason 0x05: a limit or cross-reference is broken in a format, machine, operation map, curve or constant. R129 names no
reason for a PORT_PROGRAM header out of the ranges of R119; it is given this one (log entry 71). -/
def limitBad (img : List Byte) : Bool :=
  let fs := formats img
  let ins := fs.filter (fun f => f.isIn)
  imgB (sec img 3) 0 ≠ secCount img 3 || decide (4095 < fmtGap img) || fs.any fmtBad ||
  (decide (1 < ins.length) && ins.any (fun f => f.hdrLen = 0)) ||
  (machines img).any (fun m =>
    decide (1 < m.side) || (m.side = 0 && !aptPartner img) || (m.side = 1 && !aptTenant img) ||
    m.inputs.isEmpty || decide (32 < m.inputs.length) || decide (m.nstates ≤ m.initial) || m.trans.isEmpty ||
    decide (4096 < m.trans.length) || decide (16384 < m.acts.length) ||
    m.trans.any (fun t => decide (m.nstates ≤ t.src) || decide (m.nstates ≤ t.dst) || decide (m.inputs.length ≤ t.input) ||
      decide (16 < t.nact) || decide (m.acts.length < t.act + t.nact)) ||
    m.trans.any (fun t => decide (1 < (m.trans.filter (fun u => u.src = t.src && u.input = t.input)).length)) ||
    m.acts.any (actBad img m) ||
    m.inputs.any (fun i => (i.source = 0 && decide (fs.length ≤ i.arg)) || (i.source = 2 && decide (3 < i.arg)) ||
      (i.source = 5 && m.side = 0))) ||
  (match machines img with
    | [a, b] => a.side = b.side
    | _ => false) ||
  (opEnts img).any (fun e => (e.kind = 0 && decide (2 < e.outkind)) || (e.kind ≠ 0 && e.outkind ≠ 0) ||
    (e.kind = 2 && e.code ≠ 0) ||
    decide (10000000 < e.timeout) || (e.form1 ≠ 0xFF && !(e.kind = 1 && e.form1 = 0xFE) && decide (fs.length ≤ e.form1)) ||
    (e.form2 ≠ 0xFF && (e.outkind ≠ 2 || decide (fs.length ≤ e.form2))) ||
    decide (1 < ((opEnts img).filter (fun f => f.kind = e.kind && f.code = e.code)).length)) ||
  (List.range (secCount img 6)).any (fun i => !curveOk (curveBytes img i)) ||
  ((secOf img 1).isSome && (progLen img < 4 || decide (16384 < progLen img) || progLen img % 4 ≠ 0 || decide (4096 < progData img) ||
    leAt (sec img 1) 8 4 % 4 ≠ 0 || leAt (sec img 1) 12 4 % 4 ≠ 0 || decide (progLen img ≤ leAt (sec img 1) 8 4) ||
    decide (progLen img ≤ leAt (sec img 1) 12 4) || decide ((sec img 1).length < 16 + progLen img)))

/-- Reason 0x06: the probe list is invalid (R120). -/
def probeBad (img : List Byte) : Bool :=
  let rng := fun v lo hi => !(decide (lo ≤ v ∧ v ≤ hi))
  let nf := (formats img).length
  let isOut := fun k => match (formats img)[k]? with
    | some f => f.isOut
    | none => false
  let isIn := fun k => match (formats img)[k]? with
    | some f => f.isIn
    | none => false
  (secOf img 2).isSome &&
  (rng (nmodes img) 1 16 || rng (nprobes img) 1 32 || decide (7 < attachPad img) ||
   rng (attachUs img) 1000 10000000 || (decide (7 < lossPad img) && lossPad img ≠ 0xFF) ||
   (lossMisses img ≠ 0 && (!isOut (pollFmt img) || !isIn (replyFmt img) || rng (pollUs img) 10000 10000000 ||
     rng (replyUs img) 1000 (pollUs img))) ||
   (lossPad img ≠ 0xFF && rng (lossPadUs img) 1000 10000000) ||
   decide (nprobes img ≤ verifyProbe img) || !probeIdent img (verifyProbe img) ||
   (List.range (nmodes img)).any (fun m => rng (modeBaud img m) 300 1000000 || rng (modeB img m 4) 5 9 ||
     decide (4 < modeB img m 5) || rng (modeB img m 6) 1 2 || (decide (31 < modeCapbit img m) && modeCapbit img m ≠ 0xFF) ||
     (modeSwitch img m ≠ 0xFF && (decide (nprobes img ≤ modeSwitch img m) || decide (nprobes img ≤ modeConfirm img m))) ||
     decide (1000000 < modeSwitchUs img m)) ||
   (probes img).any (fun p => (probeReq img p ≠ 0xFF && !isOut (probeReq img p)) || !isIn (probeResp img p) ||
     (probeMode img p ≠ 0xFE && decide (nmodes img ≤ probeMode img p)) || decide (7 < probeRetries img p) ||
     rng (probeWinUs img p) 1000 10000000 ||
     (probeCaps img p && (match (formats img)[probeResp img p]? with
       | some f => decide (f.nfields ≤ probeCapField img p)
       | none => true))) ||
   decide (nf = 0))

/-- A key list entry is present (R432), and its public key. -/
def keyPresent (s : State) (k : Nat) : Bool := (readB s (0x1000 + 128 * k)).toNat = 1
def keyBytes (s : State) (k : Nat) : List Byte := readBytes s (0x1040 + 128 * k) 64

/-- Reason 0x02: the signature fails, or KEY_INDEX names an empty key (R98). -/
def sigBad (s : State) (img : List Byte) : Bool :=
  let n := img.length - 64
  !keyPresent s (aptKey img) ||
  !ecdsaVerify (keyBytes s (aptKey img)) (sha256 (img.take n)) (slice img n 32) (slice img (n + 32) 32)

/-- Bytes of the personality-table area in use (R129). -/
def areaUsed (s : State) : Nat := s.images.foldl (fun n p => n + p.2.bytes.length) 0

/-- Verification of a staged image (R129): the reason of the first failing check, or `none`. -/
def verifyImage (s : State) (img : List Byte) : Option Nat :=
  if hdrBad img then some 1
  else if sigBad s img then some 2
  else if rsvBad img then some 3
  else if dirBad img then some 4
  else if limitBad img then some 5
  else if probeBad img then some 6
  else if 256 ≤ s.images.length ∨ 4194304 < areaUsed s + img.length then some 8
  else none

/-- A minor replacement is compatible (R131). -/
def minorOk (old new : List Byte) : Bool :=
  aptRole old = aptRole new && aptClass old = aptClass new && sec old 2 = sec new 2 &&
  imgB (sec old 3) 0 = imgB (sec new 3) 0 &&
  (machines old).map (fun m => (m.side, m.nstates, m.inputs.length)) =
    (machines new).map (fun m => (m.side, m.nstates, m.inputs.length))

/-! ### Images held (R129, R130) -/

/-- The active image of an identifier and major version. -/
def activeImg (s : State) (id major : Nat) : Option (List Byte) :=
  (s.images.find? (fun p => p.2.active && aptId p.2.bytes = id && aptMajor p.2.bytes = major)).map (fun p => p.2.bytes)

/-- The image of an identifier, major and minor version, with its slot. -/
def findImg (s : State) (id major minor : Nat) : Option (Nat × ImageSt) :=
  s.images.find? (fun p => aptId p.2.bytes = id && aptMajor p.2.bytes = major && aptMinor p.2.bytes = minor)

/-- The partner table of a port. -/
def portImg (s : State) (p : Nat) : Option (List Byte) := activeImg s (port s p).apt (port s p).major

/-- The first active image of an identifier that is tenant-side (R70). -/
def tenantImg (s : State) (id : Nat) : Option (List Byte) :=
  (s.images.find? (fun p => p.2.active && aptId p.2.bytes = id && aptTenant p.2.bytes)).map (fun p => p.2.bytes)

end Sys2Proof.Machine
end

