-- ==== Sys2Proof/Machine/Fifo.lean ====
section
/-! DEFINITION. The receive and transmit FIFOs of the port threads (spec/08_barrel_engines_and_threads.md R222–R228),
the completion of packets (R87, R224) and the way of items to tenants (R23, R28, R92). -/

namespace Sys2Proof.Machine

/-! ### Items on their way to a tenant -/

/-- The lowest pad number of a port (R76): its order among items of one turn, and its cluster is key ÷ 64. Ports of other
chips come after those of this one, by their group numbers (log entry 80). -/
def portKey (s : State) (p : Nat) : Nat :=
  let x := port s p
  if isFar p then 1024 + (p - 0x10000) else 64 * x.group + x.pads.foldl min 63

/-- Logical cluster of a port. -/
def portCl (s : State) (p : Nat) : Nat := (port s p).group

/-- Send an item to a device of a tenant (R23, R92): it waits for its tick. -/
def sendItem (t d turn key : Nat) (remote : Bool) (it : Item) (s : State) : State :=
  if isFar t then sendFar t d turn it s
  else
    let h : HItem := { turn := turn, key := key, dev := d, remote := remote, gen := getF s (fGen t), item := it }
    updTen t (fun x => { x with incoming := x.incoming ++ [h] }) s

/-- Send an item of a port to the device bound to it, if any (R23, R28). -/
def sendPort (p turn : Nat) (it : Item) (s : State) : State :=
  match (port s p).bound with
  | some ix => sendItem (ix / 16) (ix % 16) turn (portKey s p) (decide (portCl s p ≠ ix / 16 / 16)) it s
  | none => s

/-- The device bound to a port is a PAYTUNNEL (R75). -/
def isPaytunnel (s : State) (p : Nat) : Bool :=
  match (port s p).bound with
  | some ix => (dev s (ix / 16) (ix % 16)).cls = 7
  | none => false

/-! ### The FIFO block (R222, R225) -/

/-- Address of the FIFO block of thread t of cluster n. -/
def fifoBase (n t : Nat) : Nat := 0x20000000 + n * 0x01000000 + 0xC0000 + 0x3000 * t

/-- FIFO_STAT of a thread (R228). -/
def fFifoCut (n t j : Nat) : Fld := bit (privK (16 * n + t) 0x70C) j
def fFifoRxovr (n t : Nat) : Fld := bit (privK (16 * n + t) 0x70C) 8
def fFreeChunks (n t : Nat) : Fld := fld (privK (16 * n + t) 0x70C) 22 16
def fFreeNotices (n t : Nat) : Fld := fld (privK (16 * n + t) 0x70C) 31 24

/-- Receive chunks in use. -/
def chunksUsed (f : FifoSt) : List Nat :=
  (f.open_.map (fun p => p.2.chunks)).flatten ++ (f.notices.map (fun p => p.2.chunks)).flatten

/-- The lowest free receive chunk and notice (log entry 19). -/
def freeChunk (f : FifoSt) : Option Nat := (List.range 96).find? (fun c => !(chunksUsed f).contains c)
def freeNotice (f : FifoSt) : Option Nat := (List.range 96).find? (fun k => (Tab.find f.notices k).isNone)

/-- FIFO_STAT shows the free chunks and notices. -/
def fifoStat (n t : Nat) (s : State) : State :=
  let f := fifo s (fifoIx n t)
  setF (fFreeNotices n t) (96 - f.notices.length) (setF (fFreeChunks n t) (96 - (chunksUsed f).length) s)

/-- Port slot of thread t of cluster n whose port has pad index i of the group: (slot, port) (R224). -/
def slotOfPad (s : State) (n t i : Nat) : Option (Nat × Nat) :=
  (List.range 8).findSome? (fun j =>
    let p := getF s (fSlotPort n t j)
    if isSet s (fSlotValid n t j) && (port s p).defined && (port s p).group = n && (port s p).pads.contains i
    then some (j, p) else none)

/-- The 16 bytes of a notice (R226). -/
def noticeBytes (x : Notice) : List Byte :=
  [BitVec.ofNat 8 x.kind, BitVec.ofNat 8 x.slot] ++ le 2 (if x.kind = 0 then x.len else x.code) ++ le 2 x.pk ++
  [match x.chunks with
    | [] => 0xFF
    | c :: _ => BitVec.ofNat 8 c, 0] ++ le 8 x.turn

/-- Write a notice; where none is free RXOVR is set and the notice is ignored (R225). The answer tells which. -/
def putNotice (n t : Nat) (x : Notice) (s : State) : Bool × State :=
  match freeNotice (fifo s (fifoIx n t)) with
  | some k =>
    (true, fifoStat n t (writeBytes (fifoBase n t + 0x2800 + 16 * k) (noticeBytes x)
      (updFifo (fifoIx n t) (fun f => { f with notices := Tab.put f.notices k x }) s)))
  | none => (false, fifoStat n t (flag (fFifoRxovr n t) s))

/-- Settle traces hold back the bytes of SCALE packets (R189): LOSS[1] of the open segment, class or emulated
presentation. -/
def tracedScale (s : State) (p : Nat) : Bool :=
  match (port s p).bound with
  | some ix => decide (lossSet s / 2 % 2 = 1) && (dev s (ix / 16) (ix % 16)).cls = 1 &&
      (dev s (ix / 16) (ix % 16)).present ≠ 0
  | none => false

/-- A packet that is opened: ORPHAN is due after a TRUNCATED end (R87), and whether its bytes are held back from the
journal is decided here for all of them (R22, R189). -/
def newOpen (s : State) (n t j p ends : Nat) : OpenPkt :=
  { bytes := [], lastEnd := ends, gapEnd := false, bad := false, orphan := (fifo s (fifoIx n t)).cut.contains j,
    held := tracedScale s p, raw := [], chunks := [] }

/-- The chunk that the next byte of a packet goes to: a new one at each 64th byte. A packet holds at most 4,096 bytes
(R226): one that is full takes no more (log entry 73). -/
def nextChunk (f : FifoSt) (o : OpenPkt) : Option Nat :=
  if 4096 ≤ o.bytes.length then none
  else if o.bytes.length % 64 = 0 then freeChunk f else o.chunks.getLast?

/-- Append a byte to a slot's open packet, or open one (R224, R225). The byte is handed to the journal first (unless it
was before: `jr` is false), or held back with its packet. One that needs a chunk when none is free sets RXOVR and is ignored: an open packet stays open,
flagged BADFRAME, and none is opened. -/
def pushByte (n t j p : Nat) (b : RxByte) (ends : Nat) (gapEnd jr : Bool) (s : State) : State :=
  let f := fifo s (fifoIx n t)
  let cur := Tab.find f.open_ j
  let o := cur.elim (newOpen s n t j p ends) (fun o => o)
  match nextChunk f o with
  | none =>
    let s := flag (fFifoRxovr n t) (if (o.held && cur.isSome) || !jr then s else runByte false p b s)
    if cur.isSome then
      updFifo (fifoIx n t) (fun f => { f with open_ := Tab.put f.open_ j
                                                { o with bad := true, raw := if o.held then o.raw ++ [b] else o.raw } }) s
    else s
  | some c =>
    let k := o.bytes.length
    let s := if o.held || !jr then s else runByte false p b s
    let s := if k % 64 = 0 then
        writeB (fifoBase n t + 0x2E00 + c) 0xFF (match o.chunks.getLast? with
          | some l => writeB (fifoBase n t + 0x2E00 + l) (BitVec.ofNat 8 c) s
          | none => s)
      else s
    let s := writeB (fifoBase n t + 64 * c + k % 64) b.val s
    let o := { o with bytes := o.bytes ++ [b], lastEnd := ends, gapEnd := gapEnd,
                      raw := if o.held then o.raw ++ [b] else o.raw,
                      chunks := if k % 64 = 0 then o.chunks ++ [c] else o.chunks }
    fifoStat n t (updFifo (fifoIx n t) (fun f => { f with open_ := Tab.put f.open_ j o, cut := f.cut.filter (fun i => i ≠ j) }) s)

/-! ### Packet completion (R87, R224–R226, R463) -/

/-- The input formats of a port's table that end its packets (R106, R107); a PAYTUNNEL port's are ended by its program
alone (R75). -/
def endFormats (s : State) (p : Nat) : List Fmt := if isPaytunnel s p then [] else (portImg s p).elim [] inFormats

/-- Flags of a completed packet beyond those its end carries: BADFRAME and UNMATCHED by the port's table (R105–R107). -/
def parseFlags (s : State) (p pk : Nat) (bs : List Byte) : Nat :=
  if isPaytunnel s p then pk
  else match portImg s p with
    | none => pk
    | some img => pk ||| (parsePkt (formats img) bs).flags

/-- The port's table discards a packet with these flags (R87, R106). -/
def discards (s : State) (p pk : Nat) : Bool :=
  if isPaytunnel s p then false
  else match portImg s p with
    | none => false
    | some img => (discardTrunc img && pk &&& 0xD ≠ 0) || (discardOrphan img && pk &&& 2 ≠ 0)

/-- Journal the bytes of a packet that was held back (R189). -/
def jHeld (p : Nat) (bs : List RxByte) (s : State) : State :=
  runClose false p (each bs (fun b s => runByte false p b s) s)

/-- Free the chunks of notice k (R225). -/
def freeNoticeAt (n t k : Nat) (s : State) : State :=
  fifoStat n t (updFifo (fifoIx n t) (fun f => { f with notices := Tab.del f.notices k }) s)

/-- The open packet of a slot, taken out of the pool. -/
def takeOpen (n t j : Nat) (s : State) : State :=
  updFifo (fifoIx n t) (fun f => { f with open_ := Tab.del f.open_ j }) s

/-- Journal a packet that reaches no device: bytes that were held back, then its PACKET record with a mark (R179). -/
def jUndelivered (p : Nat) (k : Packet) (mark : Nat) (s : State) : State :=
  jPacket k.turn p (k.pk ||| mark) k.bytes.length (if k.held.isEmpty then s else jHeld p k.held s)

/-- Journal a packet among what reaches no device, with a mark (R175, R179). -/
def itemUnheard (mark : Nat) (h : HItem) (s : State) : State :=
  match h.item with
  | .packet k => jUndelivered k.port k mark s
  | .port _ _ _ | .load _ _ _ | .report _ _ | .timer _ _ | .seqEnd => s

/-- What becomes of a completed packet beyond its notice: handed to the device, discarded, or not presented (R87, R463).
Its PACKET record is accepted here unless the lane core still has to judge it. -/
def routePacket (p : Nat) (k : Packet) (s : State) : State :=
  let st := (port s p).state
  if st = 0 ∨ st = 1 ∨ st = 5 ∨ st = 6 ∨ (port s p).bound.isNone then
    jUndelivered p k 0x80 s
  else if discards s p k.pk then
    jUndelivered p k 0x10 (updPort p (fun x => { x with discards := x.discards + 1 }) s)
  else sendPort p k.turn (.packet k) s

/-- Flags that a packet's end gives, before it is parsed (R87, R106): after a TRUNCATED end it is ORPHAN unless it begins with a valid start; it is
not TRUNCATED once its length rule is met, and BADFRAME where MAXLEN ends it. -/
def endBase (s : State) (p pk : Nat) (o : OpenPkt) : Nat :=
  let fs := endFormats s p
  let vals := o.bytes.map (fun b => b.val)
  let pk := if o.bad then pk ||| 4 else pk
  let pk := if o.orphan && !fs.isEmpty && !validStart fs vals then pk ||| 2 else pk
  let met := firstEnd fs vals
  let pk := if pk % 2 = 1 && met.isSome then pk - 1 else pk
  if met.elim false (fun m => m.2) then pk ||| 4 else pk

/-- A slot's open packet completes at a turn with its end's flags: the packet, for the caller to route, and the state
with the notice written. `none` without an open packet, or when no notice was free (the packet is then journaled
DISCARDED). -/
def pktEnd (n t j p turn pk : Nat) (s : State) : Option Packet × State :=
  match Tab.find (fifo s (fifoIx n t)).open_ j with
  | none => (none, s)
  | some o =>
    let s := takeOpen n t j s
    let base := endBase s p pk o
    let pk := parseFlags s p base (o.bytes.map (fun b => b.val))
    let k : Packet := { port := p, bytes := o.bytes, pk := pk, base := base, turn := turn, held := if o.held then o.raw else [],
                        first := match o.bytes with
                          | [] => turn
                          | b :: _ => b.stamp }
    let s := if o.held then s else runClose false p s
    let r := putNotice n t { slot := j, kind := 0, code := 0, len := o.bytes.length, pk := pk &&& 0xF, turn := turn,
                             chunks := o.chunks } s
    if r.1 then (some k, r.2) else (none, jUndelivered p k 0x10 r.2)

/-- The notice that announced an item of a port is freed with its chunks once the item was copied to another cluster
(R225). -/
def freeCopied (h : HItem) (s : State) : State :=
  let go := fun (p kind turn : Nat) (s : State) =>
    let x := port s p
    match (fifo s (fifoIx x.group x.thread)).notices.find? (fun q => q.2.slot = x.slot && q.2.kind = kind && q.2.turn = turn) with
    | some q => freeNoticeAt x.group x.thread q.1 s
    | none => s
  match h.item with
  | .packet k => go k.port 0 k.turn s
  | .port p _ _ => go p 1 h.turn s
  | .load _ _ _ | .report _ _ | .timer _ _ | .seqEnd => s

/-! ### Transmit side (R227, R228, R88) -/

/-- Chunks of the transmit pool that the released bytes of a thread hold (R222). -/
def txChunks (f : FifoSt) : Nat := f.txc.foldl (fun n p => n + p.2.2.length) 0

/-- The lowest free transmit chunk (log entry 19). -/
def freeTx (f : FifoSt) : Option Nat :=
  (List.range 64).find? (fun c => !((f.txc.map (fun p => p.2.2)).flatten).contains c)

/-- Put one released byte of slot j into the transmit pool (R222): the chunk holds its bits [7:0], the link table the
order of the chunks (log entry 19). -/
def txPut (n t j : Nat) (b : TxByte) (s : State) : State :=
  let f := fifo s (fifoIx n t)
  let q := Tab.getD f.txc j (0, [])
  let pos := q.1 + (Tab.getD f.tx j []).length
  let keep := fun (cs : List Nat) (s : State) =>
    updFifo (fifoIx n t) (fun f => { f with tx := Tab.put f.tx j (Tab.getD f.tx j [] ++ [b]), txc := Tab.put f.txc j (q.1, cs) }) s
  let new := decide (pos % 64 = 0)
  match if new then freeTx f else q.2.getLast? with
  | none => keep q.2 s
  | some c =>
    let s := if new then
        writeB (fifoBase n t + 0x2E60 + c) 0xFF (match q.2.getLast? with
          | some l => writeB (fifoBase n t + 0x2E60 + l) (BitVec.ofNat 8 c) s
          | none => s)
      else s
    keep (if new then q.2 ++ [c] else q.2)
      (writeB (fifoBase n t + 0x1800 + 64 * c + pos % 64) (BitVec.ofNat 8 b.val.toNat) s)

/-- Slot j's bytes without the oldest one; a chunk whose bytes are all popped is free. -/
def txDrop (j : Nat) (f : FifoSt) : FifoSt :=
  let bs := (Tab.getD f.tx j []).drop 1
  let q := Tab.getD f.txc j (0, [])
  { f with tx := Tab.put f.tx j bs,
           txc := if bs.isEmpty then Tab.del f.txc j
             else if q.1 + 1 = 64 then Tab.put f.txc j (0, q.2.drop 1) else Tab.put f.txc j (q.1 + 1, q.2) }

/-- Chunks that staged messages toward the ports of thread t of cluster n hold. -/
def stagedChunks (s : State) (n t : Nat) : Nat :=
  s.tenants.foldl (fun k x => k + x.2.outs.foldl (fun k o =>
    if (port s o.port).group = n && (port s o.port).thread = t then k + (o.bytes.length + 63) / 64 else k) 0) 0

/-- The transmit pool of a port's thread has room for a message of `len` bytes (R227); that of another chip's port is not
judged here (log entry 80). -/
def txRoom (s : State) (p len : Nat) : Bool :=
  let n := (port s p).group
  let t := (port s p).thread
  isFar p || decide (txChunks (fifo s (fifoIx n t)) + stagedChunks s n t + (len + 63) / 64 ≤ 64)

/-- Bytes of a message, the last one marked where it ends the message. -/
def txBytes (msg rel : Nat) (fin : Bool) : List (BitVec 9) → List TxByte
  | [] => []
  | [b] => [{ val := b, last := fin, msg := msg, rel := rel }]
  | b :: bs => { val := b, last := false, msg := msg, rel := rel } :: txBytes msg rel fin bs

/-- A released output enters the transmit FIFO of its port (R25, R28). -/
def enterFifo (o : OutMsg) (s : State) : State :=
  let x := port s o.port
  let i := fifoIx x.group x.thread
  let id := (fifo s i).nextMsg + 1
  let s := each (txBytes (if o.tag.isSome then id else 0) (now s) o.fin o.bytes) (txPut x.group x.thread x.slot) s
  updFifo i (fun f =>
    { f with nextMsg := id,
             msgs := match o.tag with
               | some g => Tab.put f.msgs id (o.tenant, o.dev, g, o.bytes.length)
               | none => f.msgs }) s

/-- Messages that have bytes of a slot still to launch: in its FIFO, popped, or in the shift assist. -/
def slotMsgs (s : State) (p : Nat) : List Nat :=
  let x := port s p
  let f := fifo s (fifoIx x.group x.thread)
  ((Tab.getD f.tx x.slot [] ++ Tab.getD f.popped x.slot []).map (fun b => b.msg) ++
    ((x.pads.map (fun i => (pad s (64 * x.group + i)).txq)).flatten.map (fun w => w.byte.msg))).filter (fun m => m ≠ 0)

/-- Flush a port's bytes (R88, R93): its FIFO is emptied and its shift assists' transmit queues are. -/
def flushPort (p : Nat) (s : State) : State :=
  let x := port s p
  let s := updFifo (fifoIx x.group x.thread) (fun f => { f with tx := Tab.del f.tx x.slot, txc := Tab.del f.txc x.slot,
                                                                popped := Tab.del f.popped x.slot }) s
  each x.pads (fun i s => saEmpty (64 * x.group + i) s) s

/-- Report the one-shots of a port with a byte still unsent, with the bytes that left the pad (R88). -/
def dropOneshots (p turn : Nat) (s : State) : State :=
  let x := port s p
  let i := fifoIx x.group x.thread
  each ((slotMsgs s p).eraseDups) (fun m s =>
    match Tab.find (fifo s i).msgs m with
    | some (t, d, tag, _) =>
      let sent := Tab.getD (fifo s i).launched m 0
      sendItem t d turn (portKey s p) (decide (x.group ≠ t / 16)) (.report tag sent)
        (updFifo i (fun f => { f with msgs := Tab.del f.msgs m, launched := Tab.del f.launched m }) s)
    | none => s) s

/-! ### The commands of the lane cores -/

/-- A core is a lane core in supervisor mode of cluster n (R228). -/
def supLane (s : State) (n : Nat) : CoreId → Bool
  | .lane m x => decide (m.val = n) && supCore s (.lane m x)
  | .thread _ _ => false
  | .cp => false

/-- RXF_FREE (R225, R228). -/
def rxfFree (n : Nat) (v : Word) (s : State) : State :=
  let k := bitsOf v 6 0
  let t := bitsOf v 11 8
  if k < 96 ∧ t < 12 then freeNoticeAt n t k s else s

def execRxfFree (c : CoreId) (v : Word) (s : State) : Outcome :=
  castWrite c (coreCl c) (winK (coreCl c) 0x744) v (fun s =>
    done (if supLane s (coreCl c) c then rxfFree (coreCl c) v s else busErr c (winK (coreCl c) 0x744) s)) s

/-- Stage an output toward a port (R77, R227): a message with no room in the thread's transmit pool is discarded whole.
The answer tells whether it was staged. -/
def stageMsg (o : OutMsg) (s : State) : Bool × State :=
  if txRoom s o.port o.bytes.length then (true, updTen o.tenant (fun x => { x with outs := x.outs ++ [o] }) s) else (false, s)

def stageOut (t d p : Nat) (tag : Option Nat) (fin : Bool) (bytes : List (BitVec 9)) (s : State) : Bool × State :=
  stageMsg { port := p, tenant := t, dev := d, gen := getF s (fGen t), tag := tag, bytes := bytes, fin := fin, near := false,
             late := false } s

/-- A message of TXF_STAGE, or its part staged before a tick, becomes an output of the tenant that the port is bound to.
Without room it is discarded whole, as a failed SEND; a message the block knows to be a one-shot is reported. -/
def stageRaw (p : Nat) (tag : Option Nat) (fin : Bool) (bytes : List (BitVec 9)) (s : State) : State :=
  match (port s p).bound with
  | none => s
  | some ix =>
    let t := ix / 16
    let d := ix % 16
    let r := stageMsg { port := p, tenant := t, dev := d, gen := getF s (fGen t), tag := tag, bytes := bytes, fin := fin,
                        near := true, late := false } s
    if r.1 then r.2
    else
      let s := jDevice 5 t d 0 [] r.2
      match tag with
      | some g => sendItem t d (now s) (portKey s p) false (.report g 0) s
      | none => s

/-- TXF_STAGE (R227, R228): a byte of a message toward a thread's slot; LAST ends the message. A slot that is not in use
takes nothing. -/
def txfStage (n : Nat) (v : Word) (s : State) : State :=
  let t := bitsOf v 27 24
  let j := bitsOf v 30 28
  let i := fifoIx n t
  if !isSet s (fSlotValid n t j) then s
  else
    let bytes := Tab.getD (fifo s i).part j [] ++ [BitVec.ofNat 9 (bitsOf v 8 0)]
    if bitsOf v 16 16 = 0 then updFifo i (fun f => { f with part := Tab.put f.part j bytes }) s
    else
      let tag := if (fifo s i).cont.contains j then none else some 0
      stageRaw (getF s (fSlotPort n t j)) tag true bytes
        (updFifo i (fun f => { f with part := Tab.del f.part j, cont := f.cont.filter (fun k => k ≠ j) }) s)

/-- At a release: the bytes of a message that TXF_STAGE has not ended are released to the port too (R227). -/
def cutPart (p : Nat) (s : State) : State :=
  let x := port s p
  let i := fifoIx x.group x.thread
  match Tab.getD (fifo s i).part x.slot [] with
  | [] => s
  | b :: bs => stageRaw p none false (b :: bs)
      (updFifo i (fun f => { f with part := Tab.del f.part x.slot, cont := if f.cont.contains x.slot then f.cont else x.slot :: f.cont }) s)

def execTxfStage (c : CoreId) (v : Word) (s : State) : Outcome :=
  castWrite c (coreCl c) (winK (coreCl c) 0x740) v (fun s =>
    done (if supLane s (coreCl c) c && decide (bitsOf v 27 24 < 12) then txfStage (coreCl c) v s
          else busErr c (winK (coreCl c) 0x740) s)) s

/-! ### The commands of the threads -/

/-- The oldest released byte of a slot that the thread may take at turn u: bytes of a release set are its from turn 24 of
the frame on (R50). -/
def poppableAt (s : State) (n t j u : Nat) : Option TxByte :=
  match Tab.getD (fifo s (fifoIx n t)).tx j [] with
  | [] => none
  | b :: _ => if s.time.cur.start ≤ b.rel ∧ u < s.time.cur.start + 24 then none else some b
def poppable (s : State) (n t j : Nat) : Option TxByte := poppableAt s n t j (now s)

/-- TXF_POP_j (R228): the oldest released byte of the slot, or EMPTY. -/
def txfPopValue (s : State) (n t j : Nat) : Word :=
  match poppable s n t j with
  | none => 0x80000000
  | some b => BitVec.ofNat 32 (b.val.toNat + (if b.last then 0x10000 else 0))

def txfPop (n t j : Nat) (s : State) : State :=
  match poppable s n t j with
  | none => s
  | some b => updFifo (fifoIx n t) (fun f => let g := txDrop j f
                                             { g with popped := Tab.put g.popped j (Tab.getD g.popped j [] ++ [b]) }) s

def execTxfPop (c : CoreId) (j : Fin 8) (s : State) : Outcome :=
  castRead c (coreCl c) (winK (coreCl c) (0x720 + 4 * j.val)) (fun s =>
    match c with
    | .thread n t => done (txfPop n.val t.val j.val s)
    | .lane n x => done (busErr (.lane n x) (winK n.val (0x720 + 4 * j.val)) s)
    | .cp => done (busErr .cp (0x20800720 + 4 * j.val) s)) s

/-- TXF_NOTE (R227). -/
def txfNote (n t : Nat) (v : Word) (s : State) : State :=
  updFifo (fifoIx n t) (fun f => { f with note := some (BitVec.ofNat 9 (bitsOf v 8 0)) }) s

def execTxfNote (c : CoreId) (v : Word) (s : State) : Outcome :=
  castWrite c (coreCl c) (winK (coreCl c) 0x710) v (fun s =>
    match c with
    | .thread n t => done (txfNote n.val t.val v s)
    | .lane n x => done (busErr (.lane n x) (winK n.val 0x710) s)
    | .cp => done (busErr .cp 0x20800710 s)) s

end Sys2Proof.Machine
end

