-- ==== Sys2Proof/Machine/Ports.lean ====
section
/-! DEFINITION. The life of a port (spec/03_tenants_and_virtual_devices.md R78, R463, R464, R87–R90; R151, R152): its
states and events, attach and loss, probing, settlement and returning partners (spec/04_personality_tables.md
R120–R128, R467, R468), and bypass. -/

namespace Sys2Proof.Machine

/-! ### States and events -/

/-- Gap limit G of a port (R87, R75): GAP_FRAMES, else the format section's, else 2 frames; a PAYTUNNEL port has none but
GAP_FRAMES. -/
def portGap (s : State) (p : Nat) : Nat :=
  let x := port s p
  if x.gapFrames ≠ 0 then x.gapFrames
  else if isPaytunnel s p then 0
  else
    let g := (portImg s p).elim 0 fmtGap
    if g = 0 then 2 else g

/-- The gap limit of a port's slot (R223). -/
def pslotGap (p : Nat) (s : State) : State :=
  let x := port s p
  setF (fSlotGap x.group x.thread x.slot) (portGap s p) s

/-- The slot of a port (R223). -/
def pslotSet (p : Nat) (s : State) : State :=
  let x := port s p
  pslotGap p (setReg (pslotK x.group x.thread x.slot) (withBits (withBits 0 31 31 1) 9 0 p) s)

/-- Take a port to a state (R78), journaled. -/
def portState (p st : Nat) (s : State) : State :=
  jPort 0 p [BitVec.ofNat 8 st] (updPort p (fun x => { x with state := st }) s)

/-- Record a port event (R226): a notice of its own, and the item for the bound device. Where no notice is free the
notice and its item are lost and RXOVR is set (R225); what the port's own conditions record changes its state all the same
(log entry 74). -/
def portEvent (p code arg turn : Nat) (s : State) : State :=
  let x := port s p
  let r := putNotice x.group x.thread { slot := x.slot, kind := 1, code := code, len := 0, pk := 0, turn := turn,
                                        chunks := [] } s
  if r.1 then sendPort p turn (.port p code arg) r.2 else r.2

/-- Level of a port's pad index j. -/
def portPadLevel (s : State) (p j : Nat) : Bool :=
  (pad s (64 * (port s p).group + nth 0 (port s p).pads j)).level

/-! ### The settlement record (R123, R124): bytes 0–39 of the port's record in the commons (R308) -/

def portRecAt (p : Nat) : Nat := 0x10500000 + 0x80 * p

/-- The settlement that a port record's bytes hold. -/
def settleOf (s : State) (p : Nat) : Settle :=
  let b := readBytes s (portRecAt p) 40
  { apt := leAt b 0 4, major := leAt b 4 2, mode := imgB b 6, valid := imgB b 7 % 2 = 1, fp := leAt b 8 8,
    epoch := leAt b 16 4, baud := leAt b 20 4, data := imgB b 24, parity := imgB b 25, stop := imgB b 26,
    cmdset := imgB b 27, vprint := leAt b 32 8 }

def settleBytes (x : Settle) : List Byte :=
  le 4 x.apt ++ le 2 x.major ++ [BitVec.ofNat 8 x.mode, if x.valid then 1 else 0] ++ le 8 x.fp ++ le 4 x.epoch ++
  le 4 x.baud ++ [BitVec.ofNat 8 x.data, BitVec.ofNat 8 x.parity, BitVec.ofNat 8 x.stop, BitVec.ofNat 8 x.cmdset] ++
  le 4 0 ++ le 8 x.vprint

/-- Discard a port's settlement (R128): VALID is cleared and the discard journaled. -/
def settleDiscard (p : Nat) (s : State) : State :=
  let x := settleOf s p
  if x.valid then jSettle p true (settleBytes x) (writeBytes (portRecAt p) (settleBytes { x with valid := false }) s) else s

/-- A fingerprint, with 0 recorded as 1 (R124). -/
def printOf (img : List Byte) (resp : List (Nat × List Byte)) (ps : List Nat) : Nat :=
  let f := crc64 (le 4 (aptId img) ++ (ps.map (fun q =>
    let b := (resp.find? (fun r => r.1 = q)).elim [] (fun r => r.2)
    BitVec.ofNat 8 q :: (le 2 b.length ++ b))).flatten)
  if f = 0 then 1 else f

/-- The group epoch as held by this chip, and its admission epoch (R338, R350). -/
def groupEpoch (s : State) : Nat := (reg s 0x42000404).toNat
def admEpoch (s : State) : Nat := (reg s 0x42000408).toNat

/-! ### Attach windows and tries (R467) -/

/-- A window that opens at turn e: of those open at once the first to end is the one that matters (R467). -/
def openWindow (p e : Nat) (img : List Byte) (s : State) : State :=
  let t := e + usTurns (attachUs img)
  updPort p (fun x => { x with attachEnd := some (match x.attachEnd with
                                 | some w => if e < w then min w t else t
                                 | none => t) }) s

/-- Open an attach window where ATTACH is 0 and the pad reads high; schedule a try where ATTACH is 1. -/
def attachOpen (p delay : Nat) (s : State) : State :=
  match portImg s p with
  | none => s
  | some img =>
    if attachKind img = 0 then
      if portPadLevel s p (attachPad img) then openWindow p (now s) img s else s
    else updPort p (fun x => { x with tryAt := some (now s + delay * usTurns (attachUs img)) }) s

/-- After a probing ends in ABSENT tries continue; a window that a rising edge has opened runs on, and one that is over
counts no more (R467). -/
def attachAgain (p : Nat) (s : State) : State :=
  match portImg s p with
  | none => s
  | some img =>
    if attachKind img = 0 then
      (match (port s p).attachEnd with
        | some w => if w ≤ now s then updPort p (fun x => { x with attachEnd := none }) s else s
        | none => s)
    else updPort p (fun x => { x with tryAt := some (now s + usTurns (attachUs img)) }) s

/-- Open the window of LOSS_PAD where it reads low (R120). -/
def lossOpen (p : Nat) (s : State) : State :=
  match portImg s p with
  | none => s
  | some img =>
    if lossPad img ≠ 0xFF && !portPadLevel s p (lossPad img) then
      updPort p (fun x => { x with lossPadEnd := some (now s + usTurns (lossPadUs img)) }) s
    else s

/-! ### Loss (R88, R464) -/

/-- The port's open packet, if any, is complete at a turn, TRUNCATED (R87, R226). -/
def truncateOpen (p turn : Nat) (s : State) : State :=
  let x := port s p
  let r := pktEnd x.group x.thread x.slot p turn 1 s
  match r.1 with
  | some k => routePacket p k r.2
  | none => r.2

/-- Forget what a port's thread is waiting for: probing, polls and windows, and a change not yet told (R127). -/
def portQuiet (p : Nat) (s : State) : State :=
  updPort p (fun x => { x with probing := none, attachEnd := none, tryAt := none, pollBase := none, pollK := 0,
                               replyEnd := none, missed := 0, lossPadEnd := none, sending := 0, sendLeft := [],
                               toActive := false, resumeReq := false, changed := none }) s

/-- No removed entry of the port's pads is pending any more, of thread t's or of any thread's (R224). -/
def clearPending (p : Nat) (t : Option Nat) (s : State) : State :=
  each (port s p).pads (fun i s => updPad (64 * (port s p).group + i) (fun x =>
    { x with removed := x.removed.map (fun r => if t.elim true (fun k => k = r.1) then (r.1, (r.2.1, false)) else r) }) s) s

/-- The effects of a loss on what is under way (R88): the open packet ends, bytes are flushed, one-shots reported. -/
def lossEffects (p turn : Nat) (s : State) : State :=
  let s := clearPending p none (truncateOpen p turn s)
  let s := dropOneshots p turn s
  updPort p (fun x => { x with lossAt := some turn }) (flushPort p s)

/-- A settling, a verified return or a resume that has not met its tick does not make the port ACTIVE any more (R78,
R464). -/
def overtake (p : Nat) (s : State) : State :=
  match (port s p).bound with
  | none => s
  | some ix => updTen (ix / 16) (fun x => { x with incoming := x.incoming.map (fun h => match h.item with
                                                     | .port q c _ => if q = p ∧ (c = 2 ∨ c = 5 ∨ c = 8) then { h with item := .port p 13 0 } else h
                                                     | .packet _ | .load _ _ _ | .report _ _ | .timer _ _ | .seqEnd => h) }) s

/-- Record the loss of a port at the present turn (R88, R464): the items of the turn are the open packet, the discard
reports, then the loss (log entry 75). -/
def lossRecorded (p : Nat) (s : State) : State :=
  let x := port s p
  let st := x.state
  if !x.defined || x.bypassed || st = 0 || st = 5 then s
  else
    let t := now s
    let s := lossEffects p t (jPort 4 p [] (overtake p s))
    let s := updPort p (fun y => { y with attachEnd := x.attachEnd }) (portQuiet p s)
    let s := portState p (if st = 1 then 0 else 5) s
    let s := portEvent p 4 0 t s
    if st = 1 then attachAgain p s else attachOpen p 1 s

/-! ### Probing (R121, R122) -/

/-- Mode in which probe q is exchanged while mode `cur` is in use (R122 mode_of). -/
def modeOf (img : List Byte) (q cur : Nat) : Nat := if probeMode img q = 0xFE then cur else probeMode img q

/-- Variables with v0 set and every other 0 (R121). -/
def varsV0 (v0 : Nat) : List (BitVec 32) := BitVec.ofNat 32 v0 :: List.replicate 23 0

/-- A continuation of the Sequence of R122 or of R126. -/
inductive PStep where
  | exch (ph : Phase) (probe mode v0 : Nat)   -- begin an exchange
  | ok (bytes : List Byte)                    -- the running exchange succeeded with this response
  | fail                                      -- it failed
  | pass                                      -- `again`
  | contactFrom (k : Nat)
  | modes (m : Nat)
  | idents (k : Nat)
  | settle
  | restart
  | absent
  deriving DecidableEq, Repr

def updProbe (p : Nat) (f : Probing → Probing) (s : State) : State :=
  updPort p (fun x => { x with probing := x.probing.map f }) s

/-- Send an exchange's request, or wait at once where there is none (R121): its bytes wait for the port thread's writes
of SA_TXDATA. `none`: rendering failed. -/
def sendReq (p probe v0 : Nat) (img : List Byte) (s : State) : Option State :=
  if probeReq img probe = 0xFF then
    some (updProbe p (fun b => { b with win := some (now s + usTurns (probeWinUs img probe)) }) s)
  else match renderNo img (probeReq img probe) (varsV0 v0) (List.replicate 8 []) with
    | none => none
    | some bs => some (updPort p (fun x => { x with sending := 1, sendLeft := bs,
                                                     sendWin := usTurns (probeWinUs img probe),
                                                     probing := x.probing.map (fun b => { b with win := none }) }) s)

/-- v0 of the running exchange, by its phase (R122, R126). -/
def phaseV0 (img : List Byte) (b : Probing) (settled : Nat) : Nat :=
  match b.phase with
  | .contact _ => modeCmdset img b.inMode
  | .switch m => modeCmdset img m
  | .confirm m => modeCmdset img m
  | .fallback _ => modeCmdset img b.cur
  | .ident _ => modeCmdset img b.cur
  | .tryAttach _ => modeCmdset img b.inMode
  | .verify => modeCmdset img b.inMode
  | .vSwitch | .vConfirm => modeCmdset img settled
  | .guardOk _ | .guardBack _ | .vGuard => 0

def noProbing : Probing :=
  { phase := .verify, probe := 0, inMode := 0, left := 0, win := none, cur := 0, contact := 0, caps := 0, restarts := 0,
    doneAt := [], resp := [], kept := false }

/-- Probing of a port, or an empty one. -/
def probingOf (s : State) (p : Nat) : Probing :=
  match (port s p).probing with
  | some b => b
  | none => noProbing

/-- The running exchange succeeded with a response: it counts as done at its mode, and an IDENT probe's response is
kept (R121, R122). -/
def probeDone (img : List Byte) (bytes : List Byte) (b : Probing) : Probing :=
  let pr := match (formats img)[probeResp img b.probe]? with
    | some f => printBytes f bytes
    | none => []
  { b with doneAt := (b.probe, b.inMode) :: b.doneAt,
           resp := if probeIdent img b.probe then (b.probe, pr) :: b.resp.filter (fun r => r.1 ≠ b.probe) else b.resp }

/-- Record a settlement in mode `cur` (R122–R124): SETTLED with its fingerprint; PARTNER_CHANGED is due where R126 and
R127 say so. EPOCH is the group epoch that the chip holds (log entry 76). -/
def settleNow (p : Nat) (img : List Byte) (s : State) : State :=
  let b := probingOf s p
  let old := settleOf s p
  let fp := printOf img b.resp ((probes img).filter (probeIdent img))
  let x : Settle := { apt := aptId img, major := aptMajor img, mode := b.cur, valid := true, fp := fp,
                      epoch := groupEpoch s, baud := modeBaud img b.cur, data := modeB img b.cur 4,
                      parity := modeB img b.cur 5, stop := modeB img b.cur 6, cmdset := modeCmdset img b.cur,
                      vprint := printOf img b.resp [verifyProbe img] }
  let chg := if (port s p).changed.isSome || (b.kept && old.fp ≠ fp) then some fp else none
  let s := jSettle p false (settleBytes x) (writeBytes (portRecAt p) (settleBytes x) s)
  let s := portState p 2 (updPort p (fun y => { y with probing := none, changed := none, sending := 0 }) s)
  portEvent p 2 (chg.elim 0 (fun f => f)) (now s) s

/-- Attach is recorded (R125): the fresh path, or the verify path for a settlement that is VALID, of this table and of
the current epoch. The answer is the state and the step to go on with. -/
def attachRecorded (p : Nat) (img : List Byte) (s : State) : PStep × State :=
  let st := (port s p).state
  let x := settleOf s p
  let known := x.valid && x.apt = aptId img && x.major = aptMajor img && decide (admEpoch s ≤ x.epoch)
  let s := portEvent p 1 (if known then 0 else 1) (now s) (jPort 3 p [] s)
  let s := portState p (if st = 5 then 6 else 1) (updPort p (fun y => { y with attachEnd := none, tryAt := none, changed := none,
                                                                                probing := some noProbing }) s)
  if known then
    let m := modeOf img (verifyProbe img) x.mode
    (.exch .verify (verifyProbe img) m (modeCmdset img m), s)
  else (.pass, portState p 1 s)

/-- A verified return (R126): the port is ACTIVE at the next tick, and nothing is told as changed (R127). -/
def verified (p : Nat) (s : State) : State :=
  portEvent p 5 0 (now s) (updPort p (fun y => { y with probing := none, toActive := true, changed := none }) s)

/-- The steps of the Sequence of R122 and of R126, one after another until an exchange is under way or the probing
ends. A settled mode whose table names no switch probe counts as a failed switch (log entry 77). The fuel bounds the steps taken at once, each of which ends an exchange that cannot be rendered. -/
def probeRun : Nat → Nat → List Byte → PStep → State → State
  | 0, _, _, _, s => s
  | fuel + 1, p, img, st, s =>
    let b := probingOf s p
    let next := probeRun fuel p img
    match st with
    | .exch ph q m v0 =>
      let s := updPort p (fun x => { x with probing := some { b with phase := ph, probe := q, inMode := m,
                                                                      left := probeRetries img q, win := none } }) s
      let s := jPort 1 p [BitVec.ofNat 8 q, BitVec.ofNat 8 m, 0] s
      match sendReq p q v0 img s with
      | some s => s
      | none => next .fail (jPort 1 p [BitVec.ofNat 8 q, BitVec.ofNat 8 m, 3] s)
    | .ok bytes =>
      let s := jPort 1 p [BitVec.ofNat 8 b.probe, BitVec.ofNat 8 b.inMode, 1] s
      let s := updProbe p (fun b => { probeDone img bytes b with win := none }) s
      match b.phase with
      | .contact q =>
        let caps := if probeCaps img q then (match (formats img)[probeResp img q]? with
            | some f => fieldNum f bytes (probeCapField img q)
            | none => 0) else 0
        next (.modes 0) (updProbe p (fun b => { b with contact := q, cur := b.inMode, caps := caps }) s)
      | .switch m => jPort 2 p [BitVec.ofNat 8 m] (updProbe p (fun b =>
          { b with phase := .guardOk m, win := some (now s + usTurns (modeSwitchUs img m)) }) s)
      | .confirm m => next (.idents 0) (updProbe p (fun b => { b with cur := m }) s)
      | .fallback m => next (.modes (m + 1)) s
      | .ident q => next (.idents (q + 1)) s
      | .tryAttach _ => let r := attachRecorded p img s; next r.1 r.2
      | .verify =>
        let x := settleOf s p
        if printOf img (probingOf s p).resp [verifyProbe img] = x.vprint then
          if b.inMode = x.mode then
            verified p s
          else if modeSwitch img x.mode = 0xFF then next .fail s
          else next (.exch .vSwitch (modeSwitch img x.mode) b.inMode (modeCmdset img x.mode)) s
        else
          next .pass (portEvent p 6 0 (now s) (portState p 1 (updPort p (fun y => { y with changed := some 0 }) s)))
      | .vSwitch => jPort 2 p [BitVec.ofNat 8 (settleOf s p).mode] (updProbe p (fun b =>
          { b with phase := .vGuard, win := some (now s + usTurns (modeSwitchUs img (settleOf s p).mode)) }) s)
      | .vConfirm => verified p s
      | .guardOk _ | .guardBack _ | .vGuard => s
    | .fail =>
      let s := jPort 1 p [BitVec.ofNat 8 b.probe, BitVec.ofNat 8 b.inMode, 2] (updProbe p (fun b => { b with win := none }) s)
      match b.phase with
      | .contact q => next (.contactFrom (q + 1)) s
      | .switch m | .confirm m => updProbe p (fun b => { b with phase := .guardBack m,
                                                                win := some (now s + usTurns (modeSwitchUs img m)) }) s
      | .fallback _ | .ident _ => next .restart s
      | .tryAttach _ => updPort p (fun y => { y with probing := none }) s
      | .verify | .vSwitch | .vConfirm =>
        next .pass (updProbe p (fun b => { b with kept := true, restarts := 0 }) (sendPort p (now s) (.port p 12 0) (portState p 1 s)))
      | .guardOk _ | .guardBack _ | .vGuard => s
    | .pass =>
      next (.contactFrom 0) (updPort p (fun x => { x with probing := some { b with cur := nmodes img - 1, doneAt := [],
                                                                                    resp := [] } }) s)
    | .contactFrom k =>
      match (probes img).find? (fun q => decide (k ≤ q) && probeContact img q) with
      | some q => next (.exch (.contact q) q (modeOf img q b.cur) (modeCmdset img (modeOf img q b.cur))) s
      | none => next .absent s
    | .modes m =>
      if m < nmodes img ∧ m ≠ b.cur then
        if (modeCapbit img m ≠ 0xFF && b.caps / 2 ^ modeCapbit img m % 2 = 0) || modeSwitch img m = 0xFF then
          next (.modes (m + 1)) s
        else next (.exch (.switch m) (modeSwitch img m) b.cur (modeCmdset img m)) s
      else next (.idents 0) s
    | .idents k =>
      match (probes img).find? (fun q => decide (k ≤ q) && probeIdent img q &&
          !b.doneAt.contains (q, modeOf img q b.cur)) with
      | some q => next (.exch (.ident q) q (modeOf img q b.cur) (modeCmdset img b.cur)) s
      | none => next .settle s
    | .settle => settleNow p img s
    | .restart =>
      if 3 < b.restarts + 1 then next .absent s
      else next .pass (updProbe p (fun b => { b with restarts := b.restarts + 1 }) s)
    | .absent =>
      let s := portState p 0 (updPort p (fun x => { x with probing := none, changed := none, sending := 0 }) s)
      attachAgain p (portEvent p 3 0 (now s) s)

/-- Fuel enough for any run of steps between two exchanges: four passes over 32 probes and 16 modes. -/
def probeFuel : Nat := 1000

/-- The phase is an exchange under way, with its window open (R121). -/
def inExchange (b : Probing) : Bool :=
  match b.phase with
  | .guardOk _ | .guardBack _ | .vGuard => false
  | .contact _ | .switch _ | .confirm _ | .fallback _ | .ident _ | .tryAttach _ | .verify | .vSwitch | .vConfirm =>
    b.win.isSome

/-- A packet parses without a flag as format k of an image (R105), whatever the port's own flags of it say (R75). -/
def parsesAs (img : List Byte) (k : Packet) (f : Nat) : Bool :=
  let r := parsePkt (formats img) (k.bytes.map (fun b => b.val))
  k.pk % 16 = 0 && r.flags = 0 && r.fmt = some f

/-- A running exchange takes a packet (R121): it parses without a flag as RESP_FMT and completes inside the window. -/
def probeTakes (s : State) (p : Nat) (k : Packet) : Bool :=
  match (port s p).probing, portImg s p with
  | some b, some img =>
    inExchange b && (match b.win with
      | some e => decide (k.turn < e)
      | none => false) && parsesAs img k (probeResp img b.probe)
  | _, _ => false

/-- A poll's reply window takes a packet (R468). -/
def pollTakes (s : State) (p : Nat) (k : Packet) : Bool :=
  match (port s p).replyEnd, portImg s p with
  | some e, some img => decide (k.turn < e) && parsesAs img k (replyFmt img)
  | _, _ => false

/-- Route a completed packet (R463): to a running exchange, as a poll's reply, and to the device. -/
def deliverPacket (p : Nat) (k : Packet) (s : State) : State :=
  if probeTakes s p k then
    match portImg s p with
    | some img => probeRun probeFuel p img (.ok (k.bytes.map (fun b => b.val))) (jUndelivered p k 0 s)
    | none => s
  else
    let s := if pollTakes s p k then updPort p (fun x => { x with replyEnd := none, missed := 0 }) s else s
    routePacket p k s

/-! ### The commands of ports -/

/-- Act on a port at a due turn (log entry 3). -/
def atDue (e : Option Nat) (k : State → State) (s : State) : Outcome :=
  match e with
  | some e => done (if dueNow s e then k (goTo e s) else s)
  | none => done s

/-- ATTACH_WINDOW_END (R467, R125). -/
def execAttachWindowEnd (p : PortId) (s : State) : Outcome :=
  let x := port s p.val
  if x.bypassed || !(x.state = 0 || x.state = 5) then done s
  else atDue x.attachEnd (fun s => match portImg s p.val with
    | some img => let r := attachRecorded p.val img s; probeRun probeFuel p.val img r.1 r.2
    | none => s) s

/-- ATTACH_TRY (R467): an exchange of the first CONTACT probe in list order, with its retries. -/
def execAttachTry (p : PortId) (s : State) : Outcome :=
  let x := port s p.val
  if x.bypassed || x.probing.isSome || !(x.state = 0 || x.state = 5) then done s
  else atDue x.tryAt (fun s => match portImg s p.val with
    | some img => match (probes img).find? (probeContact img) with
        | some q =>
          let m := modeOf img q (nmodes img - 1)
          probeRun probeFuel p.val img (.exch (.tryAttach q) q m (modeCmdset img m))
            (updPort p.val (fun x => { x with tryAt := some (now s + usTurns (attachUs img)) }) s)
        | none => s
    | none => s) s

/-- PROBE_WINDOW_END (R121): the request is retried, or the exchange fails. -/
def execProbeWindowEnd (p : PortId) (s : State) : Outcome :=
  match (port s p.val).probing, portImg s p.val with
  | some b, some img =>
    if inExchange b then
      atDue b.win (fun s =>
        if b.left = 0 then probeRun probeFuel p.val img .fail s
        else
          let s := jPort 1 p.val [BitVec.ofNat 8 b.probe, BitVec.ofNat 8 b.inMode, 2]
            (updProbe p.val (fun b => { b with left := b.left - 1 }) s)
          match sendReq p.val b.probe (phaseV0 img b (settleOf s p.val).mode) img s with
          | some s => s
          | none => probeRun probeFuel p.val img .fail s) s
    else done s
  | _, _ => done s

/-- SWITCH_GUARD_END (R122, R126): the confirm probe or the fallback exchange follows. -/
def execSwitchGuardEnd (p : PortId) (s : State) : Outcome :=
  match (port s p.val).probing, portImg s p.val with
  | some b, some img =>
    match b.phase with
    | .guardOk m => atDue b.win (probeRun probeFuel p.val img
        (.exch (.confirm m) (modeConfirm img m) m (modeCmdset img m))) s
    | .guardBack m => atDue b.win (probeRun probeFuel p.val img
        (.exch (.fallback m) b.contact b.cur (modeCmdset img b.cur))) s
    | .vGuard =>
      let m := (settleOf s p.val).mode
      atDue b.win (probeRun probeFuel p.val img (.exch .vConfirm (modeConfirm img m) m (modeCmdset img m))) s
    | .contact _ | .switch _ | .confirm _ | .fallback _ | .ident _ | .tryAttach _ | .verify | .vSwitch | .vConfirm =>
      done s
  | _, _ => done s

/-- POLL_DUE (R468): poll k falls due at A + k × 480 × POLL_US. -/
def execPollDue (p : PortId) (s : State) : Outcome :=
  let x := port s p.val
  match portImg s p.val, x.pollBase with
  | some img, some a =>
    if lossMisses img ≠ 0 && (x.state = 3 || x.state = 4) && !x.bypassed then
      atDue (some (a + (x.pollK + 1) * usTurns (pollUs img))) (fun s =>
        let s := updPort p.val (fun x => { x with pollK := x.pollK + 1 }) s
        match renderNo img (pollFmt img) (varsV0 0) (List.replicate 8 []) with
        | some bs => updPort p.val (fun x => { x with sending := 2, sendLeft := bs,
                                                       sendWin := usTurns (replyUs img) }) s
        | none => jPort 1 p.val [0xFF, 0xFF, 3] s) s
    else done s
  | _, _ => done s

/-- REPLY_WINDOW_END (R468): a missed reply, which may record loss. -/
def execReplyWindowEnd (p : PortId) (s : State) : Outcome :=
  match portImg s p.val with
  | none => done s
  | some img =>
    atDue (port s p.val).replyEnd (fun s =>
      let m := (port s p.val).missed + 1
      let s := updPort p.val (fun x => { x with replyEnd := none, missed := m }) s
      if lossMisses img ≤ m then lossRecorded p.val s else s) s

/-- LOSS_PAD_WINDOW_END (R120, R464). -/
def execLossPadWindowEnd (p : PortId) (s : State) : Outcome :=
  atDue (port s p.val).lossPadEnd (fun s =>
    lossRecorded p.val (updPort p.val (fun x => { x with lossPadEnd := none }) s)) s

/-- The gap window of a slot's open packet ends at this turn (R87, R224). -/
def gapEndAt (s : State) (n t j : Nat) (o : OpenPkt) : Nat :=
  o.lastEnd + getF s (fSlotGap n t j) * 24 * (frameAt s o.lastEnd).rounds

/-- Some character whose stamp lies inside the window [b, e) is pending on a pad of the port (R224). -/
def charPending (s : State) (p b e : Nat) : Bool :=
  let x := port s p
  let inside := fun (t : Nat) => decide (b ≤ t ∧ t < e)
  x.pads.any (fun i =>
    let d := pad s (64 * x.group + i)
    d.cand.elim false inside || (saMode s (64 * x.group + i) = 3 && d.sync.head?.elim false inside) ||
    d.rxq.any (fun q => inside q.2.1) || d.removed.any (fun r => r.2.2 && inside r.2.1.2.1))

/-- The largest PAD_CFG.FILT among a port's pads (R87, R224). -/
def portFilt (s : State) (p : Nat) : Nat := (port s p).pads.foldl (fun m i => max m (getF s (fFilt (64 * (port s p).group + i)))) 0

/-- The controller completes a slot's open packet by its window at a turn (R224): CUT is set, and the packet is TRUNCATED
unless the window is its format's normal end. -/
def gapComplete (n t j p turn : Nat) (o : OpenPkt) (s : State) : State :=
  let cut := !(o.gapEnd || gapEnded (endFormats s p) (o.bytes.map (fun b => b.val)))
  let s := flag (fFifoCut n t j) s
  let s := if cut then updFifo (fifoIx n t) (fun f => { f with cut := if f.cut.contains j then f.cut else j :: f.cut }) s else s
  let r := pktEnd n t j p turn cut.toNat s
  match r.1 with
  | some k => deliverPacket p k r.2
  | none => r.2

/-- GAP_WINDOW_END (R224): the controller completes the packet at e + F, or once no character is pending. -/
def execGapWindowEnd (p : PortId) (s : State) : Outcome :=
  let x := port s p.val
  let n := x.group
  let t := x.thread
  match Tab.find (fifo s (fifoIx n t)).open_ x.slot with
  | none => done s
  | some o =>
    let e := gapEndAt s n t x.slot o
    let s := each x.pads (fun i => rxCatch (64 * n + i) (now s)) s
    if getF s (fSlotGap n t x.slot) = 0 || charPending s p.val o.lastEnd e then done s
    else atDue (some (e + portFilt s p.val)) (fun s => gapComplete n t x.slot p.val (now s) o s) s

/-- Complete an open packet of a slot at the present turn, with flags of its end. -/
def endOpen (n t j p pk : Nat) (s : State) : State :=
  let r := pktEnd n t j p (now s) pk s
  match r.1 with
  | some k => deliverPacket p k r.2
  | none => r.2

/-- Before a byte whose start is recorded at E is pushed: the open packet is complete where its window ended by E (R87) or
its length rule is met (R106, R107). -/
def closeBefore (n t j p e : Nat) (s : State) : State :=
  match Tab.find (fifo s (fifoIx n t)).open_ j with
  | none => s
  | some o =>
    let w := gapEndAt s n t j o
    if getF s (fSlotGap n t j) ≠ 0 ∧ w ≤ e then
      gapComplete n t j p (if charPending s p o.lastEnd w then now s else min (now s) (w + portFilt s p)) o s
    else if (firstEnd (endFormats s p) (o.bytes.map (fun b => b.val))).isSome then endOpen n t j p 0 s
    else s

/-- After a push: where the byte decides the format and its rule was met at an earlier byte, the packet is complete at that
byte and those after it begin a new one (R106). -/
def splitOpen (n t j p : Nat) (s : State) : State :=
  match Tab.find (fifo s (fifoIx n t)).open_ j with
  | none => s
  | some o =>
    match firstEnd (endFormats s p) (o.bytes.map (fun b => b.val)) with
    | none => s
    | some (k, _) =>
      if o.bytes.length ≤ k then s
      else
        let cut := { o with bytes := o.bytes.take k, chunks := o.chunks.take ((k + 63) / 64), raw := o.raw.take k }
        let s := endOpen n t j p 0 (updFifo (fifoIx n t) (fun f => { f with open_ := Tab.put f.open_ j cut }) s)
        each (o.bytes.drop k) (fun b => pushByte n t j p b o.lastEnd o.gapEnd o.held) s

/-- RXF_PUSH (R224): one byte of the packet of the pad's port, stamped from the entry that the thread last removed from
the pad's receive queue; where it has removed none, with the present turn (log entry 78). -/
def rxfPush (n t : Nat) (v : Word) (s : State) : State :=
  let i := bitsOf v 21 16
  match slotOfPad s n t i with
  | none => threadFault n t 2 (BitVec.ofNat 32 (winK n 0x700)) s
  | some (j, p) =>
    let e := match Tab.find (pad s (64 * n + i)).removed t with
      | some e => e.1.2
      | none => (now s, now s)
    let b : RxByte := { val := BitVec.ofNat 8 (bitsOf v 7 0), ninth := v.getLsbD 10,
                        err := !v.getLsbD 8 || v.getLsbD 9, stamp := e.1 }
    let s := closeBefore n t j p e.1 s
    let s := updPad (64 * n + i) (fun x => { x with removed := x.removed.map (fun r => if r.1 = t then (t, (r.2.1, false)) else r) }) s
    splitOpen n t j p (pushByte n t j p b e.2 (v.getLsbD 11) true s)

def execRxfPush (c : CoreId) (v : Word) (s : State) : Outcome :=
  castWrite c (coreCl c) (winK (coreCl c) 0x700) v (fun s =>
    match c with
    | .thread n t => done (rxfPush n.val t.val v s)
    | .lane n x => done (busErr (.lane n x) (winK n.val 0x700) s)
    | .cp => done (busErr .cp 0x20800700 s)) s

/-- RXF_END (R224, R225): the open packet is complete at this turn. -/
def rxfEnd (n t : Nat) (v : Word) (s : State) : State :=
  match slotOfPad s n t (bitsOf v 21 16) with
  | none => threadFault n t 2 (BitVec.ofNat 32 (winK n 0x704)) s
  | some (j, p) => endOpen n t j p (2 * bitsOf v 1 1 + 4 * bitsOf v 2 2) (clearPending p (some t) s)

def execRxfEnd (c : CoreId) (v : Word) (s : State) : Outcome :=
  castWrite c (coreCl c) (winK (coreCl c) 0x704) v (fun s =>
    match c with
    | .thread n t => done (rxfEnd n.val t.val v s)
    | .lane n x => done (busErr (.lane n x) (winK n.val 0x704) s)
    | .cp => done (busErr .cp 0x20800704 s)) s

/-- A port event recorded by its thread with RXF_EVENT (R226): the transition of R78 that the code names, where the
port's state has it, and the event's notice. -/
def rxfEventAct (p code : Nat) (s : State) : State :=
  let st := (port s p).state
  if (port s p).bypassed then s
  else match code, portImg s p with
    | 1, some img =>
      if st = 0 ∨ st = 5 then let r := attachRecorded p img s; probeRun probeFuel p img r.1 r.2
      else portEvent p 1 0 (now s) s
    | 2, _ =>
      let s := if st = 1 then portState p 2 (updPort p (fun x => { x with probing := none, sending := 0 }) s) else s
      let fp := match (port s p).changed with
        | some _ => (settleOf s p).fp
        | none => 0
      portEvent p 2 fp (now s) (updPort p (fun x => { x with changed := none }) s)
    | 3, _ =>
      let s := if st = 1 then portState p 0 (updPort p (fun x => { x with probing := none, sending := 0 }) s) else s
      portEvent p 3 0 (now s) s
    | 4, _ => if st = 0 ∨ st = 5 then portEvent p 4 0 (now s) (truncateOpen p (now s) s) else lossRecorded p s
    | 5, _ =>
      let s := if st = 6 then updPort p (fun x => { x with probing := none, toActive := true }) s else s
      portEvent p 5 0 (now s) s
    | 6, _ =>
      let s := if st = 6 then portState p 1 (updPort p (fun x => { x with changed := some 0 }) s) else s
      portEvent p 6 0 (now s) s
    | _, _ => s

def rxfEvent (n t : Nat) (v : Word) (s : State) : State :=
  let code := bitsOf v 3 0
  match slotOfPad s n t (bitsOf v 21 16) with
  | none => threadFault n t 2 (BitVec.ofNat 32 (winK n 0x708)) s
  | some (_, p) =>
    if code = 0 ∨ 7 ≤ code then threadFault n t 2 (BitVec.ofNat 32 (winK n 0x708)) s
    else if (freeNotice (fifo s (fifoIx n t))).isNone then fifoStat n t (flag (fFifoRxovr n t) (clearPending p (some t) s))
    else rxfEventAct p code (clearPending p (some t) s)

/-- RXF_EVENT (R224–R226, R228); one that finds no free notice is ignored. -/
def execRxfEvent (c : CoreId) (v : Word) (s : State) : Outcome :=
  castWrite c (coreCl c) (winK (coreCl c) 0x708) v (fun s =>
    match c with
    | .thread n t => done (rxfEvent n.val t.val v s)
    | .lane n x => done (busErr (.lane n x) (winK n.val 0x708) s)
    | .cp => done (busErr .cp 0x20800708 s)) s

/-- The indexes of the listed ports. -/
def portIds (s : State) : List Nat := (s.ports.filter (fun q => q.2.defined)).map (fun q => q.1)

/-- A filtered edge of pad g, recorded at turn e, as its port's ATTACH_PAD or LOSS_PAD (R467, R120): windows open with it,
and one still open at e ends. -/
def portEdge (g : Nat) (level : Bool) (e : Nat) (s : State) : State :=
  each (portIds s) (fun p s =>
    let x := port s p
    match portImg s p with
    | none => s
    | some img =>
      let ix := fun j => decide (64 * x.group + nth 64 x.pads j = g)
      let ended := fun (w : Option Nat) => if w.elim false (fun t => decide (t ≤ e)) then w else none
      if x.bypassed then s
      else
        let s := if attachKind img = 0 && ix (attachPad img) then
            (if level then openWindow p e img s else updPort p (fun y => { y with attachEnd := ended y.attachEnd }) s)
          else s
        if lossPad img ≠ 0xFF && ix (lossPad img) then
          updPort p (fun y => { y with lossPadEnd := if level then ended y.lossPadEnd else some (e + usTurns (lossPadUs img)) }) s
        else s) s

/-- An edge at a pad's input, at the present sample (R138): one that the filter rejects has no effect. -/
def padInput (p : Nat) (level : Bool) (s : State) : State :=
  if filterPass s p level then filteredEdge p level (portEdge p level (now s - getF s (fFilt p)) s) else s

/-- RX_START_EDGE (R142, R150): an edge of the start polarity begins a candidate word, unless a word is being received
or the edge is blanked. -/
def execRxStartEdge (p : PadId) (level : Bool) (s : State) : Outcome := done (padInput p.val level s)

/-- EDGE_ENTRY (R146): in EDGE mode every filtered edge is queued with its level and turn. -/
def execEdgeEntry (p : PadId) (level : Bool) (s : State) : Outcome := done (padInput p.val level s)

/-- Ports of a pad group. -/
def groupPorts (s : State) (n : Nat) : List Nat := (portIds s).filter (fun p => (port s p).group = n)

/-- VIO_FAIL (R136): VIO_OK falls, every port of the group is lost, and the group is held. -/
def execVioFail (n : ClusterId) (s : State) : Outcome :=
  if isSet s (fVioOk n.val) then
    let s := flag (fVioFail n.val) (setF (fVioOk n.val) 0 s)
    done (pgHold n.val (each (groupPorts s n.val) (fun p s => lossRecorded p (jPort 5 p [] s)) (occur n.val 23 s)))
  else done s

/-- MISMATCH follows the sensed and the declared supply while VIO_OK is 1 (R136); a new mismatch raises source 23, and a
hold condition holds the group (R135). -/
def pgSense (n : Nat) (s : State) : State :=
  let bad := isSet s (fVioOk n) && isSet s (fVioHigh n) = isSet s (fVio18 n)
  let s := if bad && !isSet s (fMismatch n) then occur n 23 s else s
  let s := if isSet s (fVioOk n) then setF (fMismatch n) bad.toNat s else s
  if holdCond s n then pgHold n s else s

/-- PG_SUPPLY_MISMATCH (R136): the supply of the group is sensed, at power-up or on a change: VIO_OK and VIO_HIGH tell what
is found, and one other than the declared supply sets MISMATCH and holds the group. -/
def execPgSupplyMismatch (n : ClusterId) (high : Bool) (s : State) : Outcome :=
  done (pgSense n.val (setF (fVioHigh n.val) high.toNat (setF (fVioOk n.val) 1 s)))

/-- PG_RELEASE (R135): at a tick at which no hold condition remains the group takes its stored configuration. -/
def execPgRelease (n : ClusterId) (s : State) : Outcome :=
  done (if atTick s && !holdCond s n.val then mapPgOn (fun t => Tab.store t n.val false true) s else s)

/-- FAULT_PORT_LOSS (R221): the thread is still FAULTED at the second tick after its fault turn. -/
def execFaultPortLoss (n : ClusterId) (th : ThreadNo) (s : State) : Outcome :=
  match (core s (16 * n.val + th.val)).faultTurn with
  | some f =>
    if thrState s n.val th.val = 3 && atTick s && decide ((frameAt s f).frame + 2 ≤ frameNo s) then
      done (each ((groupPorts s n.val).filter (fun p => (port s p).thread = th.val)) lossRecorded
        (updCore (16 * n.val + th.val) (fun c => { c with faultTurn := none }) s))
    else done s
  | none => done s

/-- The port's thread is neither receiving nor sending a character of the port (R132). -/
def portIdle (s : State) (p : Nat) : Bool :=
  let x := port s p
  x.pads.all (fun i => let d := pad s (64 * x.group + i)
    d.cand.isNone && d.cur.isNone && d.launch.isNone && d.sync.isEmpty)

/-! ### Port-program areas (R118, R119, R132, R212) -/

/-- The key of a port's data in a thread's area; the code of an image has its number in the code store. -/
def dataKey (p : Nat) : Nat := 256 + p

/-- The lowest gap of `len` bytes in an area, from an offset on; code begins at a multiple of 4 (log entry 87). -/
def areaGap (code : Bool) (len : Nat) : Nat → List (Nat × Nat × Nat) → Option Nat
  | o, [] =>
    let o := if code then (o + 3) / 4 * 4 else o
    if o + len ≤ 32768 then some o else none
  | o, r :: rs =>
    let o' := if code then (o + 3) / 4 * 4 else o
    if o' + len ≤ r.1 then some o' else areaGap code len (r.1 + r.2.1) rs

/-- Put a run among runs in rising order. -/
def areaInsert (r : Nat × Nat × Nat) : List (Nat × Nat × Nat) → List (Nat × Nat × Nat)
  | [] => [r]
  | q :: qs => if r.1 ≤ q.1 then r :: q :: qs else q :: areaInsert r qs

/-- Bytes that an area's runs take. -/
def progUsed (f : FifoSt) : Nat := f.area.foldl (fun n r => n + r.2.1) 0

/-- Close the gaps of a thread's area: its runs are copied in order, code first (log entry 87). -/
def areaPack (n t : Nat) (s : State) : State :=
  let rs := (fifo s (fifoIx n t)).area
  let runs := (rs.filter (fun r => decide (r.2.2 < 256)) ++ rs.filter (fun r => decide (256 ≤ r.2.2))).map
    (fun r => (r, readBytes s (sliceBase n t + r.1) r.2.1))
  let q := runs.foldl (fun (q : Nat × List (Nat × Nat × Nat) × State) r =>
    (q.1 + r.1.2.1, q.2.1 ++ [(q.1, r.1.2)], writeBytes (sliceBase n t + q.1) r.2 q.2.2)) (0, [], s)
  updFifo (fifoIx n t) (fun f => { f with area := q.2.1 }) q.2.2

/-- Place a run of `len` bytes under a key, unless the area holds it, and load its bytes into the slice. -/
def areaPut (n t key len : Nat) (bytes : List Byte) (s : State) : State :=
  let f := fifo s (fifoIx n t)
  if f.area.any (fun r => r.2.2 = key) then s
  else
    let code := decide (key < 256)
    let s := if (areaGap code len 0 f.area).isSome then s else areaPack n t s
    match areaGap code len 0 (fifo s (fifoIx n t)).area with
    | some o => updFifo (fifoIx n t) (fun f => { f with area := areaInsert (o, len, key) f.area }) (writeBytes (sliceBase n t + o) bytes s)
    | none => s

/-- Take runs out of a thread's area. -/
def areaDrop (n t : Nat) (gone : Nat → Bool) : State → State :=
  updFifo (fifoIx n t) (fun f => { f with area := f.area.filter (fun r => !gone r.2.2) })

/-- Make a port's data run at least `len` bytes long; its bytes are kept. -/
def areaGrow (n t p len : Nat) (s : State) : State :=
  match (fifo s (fifoIx n t)).area.find? (fun r => r.2.2 = dataKey p) with
  | some r =>
    if len ≤ r.2.1 then s
    else areaPut n t (dataKey p) len (readBytes s (sliceBase n t + r.1) r.2.1) (areaDrop n t (fun k => k = dataKey p) s)
  | none => s

/-- Bytes that the program of image j and a port's data would add to a thread's area (R118, R119). -/
def areaNeed (s : State) (n t j p : Nat) : Nat :=
  let f := fifo s (fifoIx n t)
  let img := (Tab.find s.images j).elim [] (fun im => im.bytes)
  (if f.area.any (fun r => r.2.2 = j) then 0 else progLen img) +
  (progData img - (f.area.find? (fun r => r.2.2 = dataKey p)).elim 0 (fun r => r.2.1))

/-- Load the program of image j for a port into its thread's area (R118, R119): the code once, and room for the port's data. -/
def areaLoad (n t j p : Nat) (s : State) : State :=
  let img := (Tab.find s.images j).elim [] (fun im => im.bytes)
  let s := areaPut n t j (progLen img) (slice (sec img 1) 16 (progLen img)) s
  areaGrow n t p (progData img) (areaPut n t (dataKey p) (progData img) [] s)

/-- Some port of a thread runs the code of image j, or will at its next change (R132). -/
def codeInUse (s : State) (n t j : Nat) : Bool :=
  match Tab.find s.images j with
  | none => false
  | some im => (groupPorts s n).any (fun p => let x := port s p
      x.thread = t && (x.prog = j || ((im.active || im.swapAt.isSome) && x.apt = aptId im.bytes && x.major = aptMajor im.bytes)))

/-- Take code that no port of a thread runs out of its area. -/
def areaSweep (n t : Nat) (s : State) : State := areaDrop n t (fun k => decide (k < 256) && !codeInUse s n t k) s

/-- Erase replaced images that no thread runs (R132). -/
def eraseOld (s : State) : State :=
  let s := each (((portIds s).map (fun p => ((port s p).group, (port s p).thread))).eraseDups) (fun g => areaSweep g.1 g.2) s
  mapImages (fun t => t.filter (fun q => !q.2.old || (portIds s).any (fun p => (port s p).prog = q.1))) s

/-- The number of the active image of a table in the code store. -/
def activeIx (s : State) (id mj : Nat) : Nat :=
  (s.images.find? (fun q => q.2.active && aptId q.2.bytes = id && aptMajor q.2.bytes = mj)).elim 0 (fun q => q.1)

/-- PORT_PROGRAM_CHANGE (R132): at the first idle turn at or after the switch tick's turn. -/
def execPortProgramChange (p : PortId) (s : State) : Outcome :=
  match (port s p.val).newProg, portImg s p.val with
  | some t, some img =>
    if decide (t ≤ frameNo s) && portIdle s p.val then
      let j := activeIx s (port s p.val).apt (port s p.val).major
      done (eraseOld (jPers 5 (le 2 p.val ++ le 8 (now s))
        (updPort p.val (fun x => { x with newProg := none, progMinor := aptMinor img, prog := j }) s)))
    else done s
  | _, _ => done s

/-! ### Bypass (R152) -/

/-- BYPASS_APPLY: at the tick at which the bypass command's outputs are released. -/
def bypassNow (p : Nat) (s : State) : State :=
  let x := port s p
  let t := now s
  let s := truncateOpen p t s
  let s := dropOneshots p t s
  let s := flushPort p s
  let s := each x.pads (fun i s => padSafe 0 (64 * x.group + i) s) s
  let s := portState p 4 (updPort p (fun y => { y with bypassed := true, bypassReq := false,
                                                       before := if x.bypassed then x.before else x.state,
                                                       lossAt := some t }) (portQuiet p s))
  sendPort p t (.port p 9 0) s

/-- The port state on release (R152). -/
def releaseState (before : Nat) : Nat :=
  if before = 3 ∨ before = 4 then 4 else if before = 5 ∨ before = 6 then 5 else 0

/-- BYPASS_RELEASE_APPLY: the pads leave the safe state that the bypass put them in, and attach windows, tries and polls
begin afresh (R152, R467, R468): the first try of an ATTACH 1 port comes ATTACH_US after the release (log entry 79). -/
def releaseNow (p : Nat) (s : State) : State :=
  let x := port s p
  let st := releaseState x.before
  let s := each x.pads (fun i s => padUnsafe 0 (64 * x.group + i) s) s
  let s := portState p st (updPort p (fun y => { y with bypassed := false, releaseReq := false,
                                                        pollBase := some (now s), pollK := 0 }) s)
  let s := sendPort p (now s) (.port p 10 st) s
  let s := lossOpen p s
  if st = 4 then s else attachOpen p 1 s

/-- BYPASS_APPLY (R152). -/
def execBypassApply (p : PortId) (s : State) : Outcome :=
  if atTick s && (port s p.val).bypassReq then done (admDone 0x47 p.val 0 0 [] (bypassNow p.val s)) else done s

/-- BYPASS_RELEASE_APPLY (R152). -/
def execBypassReleaseApply (p : PortId) (s : State) : Outcome :=
  if atTick s && (port s p.val).releaseReq then done (admDone 0x48 p.val 0 0 [] (releaseNow p.val s)) else done s

end Sys2Proof.Machine
end

