-- ==== Sys2Proof/Machine/Load.lean ====
section
/-! DEFINITION. The load channels (spec/06_load_channels.md R155–R174) and their traces (R187). Channel states are
0 OFF, 1 WAIT, 2 INRUSH, 3 RUN, 4 TEST, 5 TRIPPED, 6 PAUSE. -/

namespace Sys2Proof.Machine

/-! ### Registers (R173, R174) -/

def lcK (c off : Nat) : Nat := 0x49000000 + 0x80 * c + off
def fLcPulse (c : Nat) : Fld := fld (lcK c 0) 27 16
def fLcPol (c : Nat) : Fld := bit (lcK c 0) 1
def fLcRetry (c : Nat) : Fld := bit (lcK c 0) 3
def fLcOwnCp (c : Nat) : Fld := bit (lcK c 0) 2
def fLcEnable (c : Nat) : Fld := bit (lcK c 0) 0
def fLcDevice (c : Nat) : Fld := fld (lcK c 4) 27 24
def fLcTenant (c : Nat) : Fld := fld (lcK c 4) 23 16
def fLcTestCode (c : Nat) : Fld := fld (lcK c 8) 23 16
def fLcOverFilt (c : Nat) : Fld := fld (lcK c 8) 15 8
def fLcShortFilt (c : Nat) : Fld := fld (lcK c 8) 7 0
def fLcRetries (c : Nat) : Fld := fld (lcK c 0x10) 23 22
def fLcDischarging (c : Nat) : Fld := bit (lcK c 0x10) 20
def fLcTestfail (c : Nat) : Fld := bit (lcK c 0x10) 19
def fLcTestpass (c : Nat) : Fld := bit (lcK c 0x10) 18
def fLcProferr (c : Nat) : Fld := bit (lcK c 0x10) 17
def fLcCmdrej (c : Nat) : Fld := bit (lcK c 0x10) 16
def fLcAborts (c : Nat) : Fld := fld (lcK c 0x10) 15 12
def fLcCause (c : Nat) : Fld := fld (lcK c 0x10) 10 8
def fLcState (c : Nat) : Fld := fld (lcK c 0x10) 2 0
def fLcNptsm1 (c : Nat) : Fld := fld (lcK c 0x3C) 3 0
def lgK (g off : Nat) : Nat := 0x49004000 + 0x10 * g + off
def fLgAbortMax (g : Nat) : Fld := fld (lgK g 0) 31 28
def fLgGap (g : Nat) : Fld := fld (lgK g 0) 27 16
def fLgSagFilt (g : Nat) : Fld := fld (lgK g 0) 15 8
def fLgSagCode (g : Nat) : Fld := fld (lgK g 0) 7 0
def fLgWaiting (g : Nat) : Fld := fld (lgK g 4) 23 16
def fLgInrush (g : Nat) : Fld := fld (lgK g 4) 15 8
def fLgSagSeen (g : Nat) : Fld := bit (lgK g 4) 1
def fLgSag (g : Nat) : Fld := bit (lgK g 4) 0

def lcState (s : State) (c : Nat) : Nat := getF s (fLcState c)

/-- Channels of a supply group (R155). -/
def groupChans (g : Nat) : List Nat := (List.range 8).map (fun i => 8 * g + i)

/-- The profile in force: points 0 to NPTSM1 (R164). -/
def lcProfile (s : State) (c : Nat) : List (Nat × Nat) :=
  (List.range (getF s (fLcNptsm1 c) + 1)).map (fun i =>
    (bitsOf (reg s (lcK c (0x40 + 4 * i))) 15 0, bitsOf (reg s (lcK c (0x40 + 4 * i))) 23 16))

/-- x of the profile's last point (R164). -/
def lcLastX (s : State) (c : Nat) : Nat := (lcProfile s c).getLast?.elim 0 (fun p => p.1)

/-- The drive is on: in INRUSH and RUN, and in TEST after its off-time (R161, R169). -/
def lcDrive (s : State) (c : Nat) : Bool :=
  lcState s c = 2 || lcState s c = 3 || (lcState s c = 4 && (match (chan s c).test with
    | some (_, _, on) => on
    | none => false))

/-- The channel is attached to a device: LC_CTRL.OWN_CP is 0 (R156, R172). -/
def lcAttached (s : State) (c : Nat) : Bool := !isSet s (fLcOwnCp c)

/-- Level of LDRVn (R155, R173): `none` is high impedance, until LC_CTRL is first written; then POL gives the level of the
drive, and its opposite while the drive is off. While the TAP holds the pads, the boundary register's level (R440). -/
def ldrv (s : State) (c : Nat) : Option Bool :=
  if s.host.scan then Tab.find s.host.scanLc (1024 + c)
  else if (chan s c).written then some (lcDrive s c != isSet s (fLcPol c)) else none

/-- Code in the profile DAC (R164, R169): the curve in INRUSH, TEST_CODE in a pulse test; `none` where no comparison uses it. -/
def profileDac (s : State) (c : Nat) : Option Nat :=
  if lcState s c = 2 then some (curveAt (lcProfile s c) ((now s - (chan s c).grant) / 4800)).toNat
  else if lcState s c = 4 then some (getF s (fLcTestCode c))
  else none

/-- End of the inrush window (R164). -/
def inrushEnds (s : State) (c : Nat) : Nat := (chan s c).grant + 4800 * lcLastX s c

/-- The first turn at which SHORT_FILT + 1 samples can have read over with the drive on (R158). -/
def shortAt (s : State) (c : Nat) : Nat := (chan s c).onAt + getF s (fLcShortFilt c)

/-- The first turn at which samples can have read over for OVER_FILT × 4,800 turns (R159, R160). -/
def overDue (s : State) (c : Nat) : Nat := (chan s c).overAt + 4800 * getF s (fLcOverFilt c) - 1

/-- The first turn at which SAG_FILT + 1 samples can have agreed (R166). -/
def sagAt (s : State) (g : Nat) : Nat := (lgroup s g).sagFrom + getF s (fLgSagFilt g)

/-! ### Outcomes of one turn (R168) -/

/-- The earliest turn of a waiting comparator outcome; `none`: the command is none. -/
def outcomeAt (s : State) : Instr → Option Nat
  | .shortTrip d => some (shortAt s d.val)
  | .sagAssert g => some (sagAt s g.val)
  | .inrushOverTrip d => some (overDue s d.val)
  | .overloadTrip d => some (overDue s d.val)
  | _ => none

/-- The rank of what a waiting command does to a channel in this turn: 1 SHORT, 2 abort by sag, 3 INRUSH_OVER or OVERLOAD,
9 nothing. -/
def outcomeRank (s : State) (c : Nat) : Instr → Nat
  | .shortTrip d => if d.val = c ∧ lcDrive s c then 1 else 9
  | .sagAssert g => if g.val = c / 8 ∧ lcState s c = 2 ∧ now s < inrushEnds s c ∧ getF s (fLgSagCode (c / 8)) ≠ 0 ∧
      !isSet s (fLgSag (c / 8)) then 2 else 9
  | .inrushOverTrip d => if d.val = c ∧ lcState s c = 2 ∧ now s < inrushEnds s c then 3 else 9
  | .overloadTrip d => if d.val = c ∧ lcState s c = 3 then 3 else 9
  | _ => 9

/-- An outcome of rank `r` on a channel does not occur, because an outcome of the same turn that ranks before it waits with
the commands that come next (R168). -/
def outranked (s : State) (c r : Nat) : Bool :=
  (s.pending.takeWhile (fun i => (outcomeAt s i).elim false (fun t => decide (t ≤ now s)))).any
    (fun i => decide (outcomeRank s c i < r))

/-! ### Events (R170) -/

/-- Hand an item of the channel to the attached device, for a tenant that is ACTIVE (R170). -/
def loadHand (c kind arg : Nat) (s : State) : State :=
  let t := getF s (fLcTenant c)
  if lcAttached s c && tActive s t then
    sendItem t (getF s (fLcDevice c)) (now s) (0x10000 + c) false (.load c kind arg) s
  else s

/-- A load-channel event: journaled; an interrupt of the control processor and of the tenant's cluster (R378, R388); a
producer of the supply group's router (R389); and an item of the attached device. Kinds: 1 trip (cause), 2 abort, 3 sag,
4 test passed, 5 test failed (cause), 6 kick end, 7 PROFERR, 8 stuck on. What the device is handed besides, and no event of
R170: 9 left TRIPPED, 10 a kick runs, 11 a kick is cut. -/
def loadEvent (c kind arg : Nat) (s : State) : State :=
  let s := jLoad c kind [BitVec.ofNat 8 arg] s
  let s := evProduce (c / 8) 27 (fun _ => true) (occurCp (12 + c / 8) s)
  loadHand c kind arg (if lcAttached s c then occur (getF s (fLcTenant c) / 16) 24 s else s)

/-- Report a one-shot of the channel's tenant dropped (R170, R162). -/
def loadReport (c : Nat) (tag : Option Nat) (sent : Nat) (s : State) : State :=
  match tag with
  | some g =>
    let t := getF s (fLcTenant c)
    if lcAttached s c && tActive s t then
      sendItem t (getF s (fLcDevice c)) (now s) (0x10000 + c) false (.report g sent) s
    else s
  | none => s

/-! ### State changes -/

/-- LC_GSTAT.WAITING (R174). -/
def lcWaiting (g : Nat) (s : State) : State :=
  setF (fLgWaiting g) ((groupChans g).filter (fun c => lcState s c = 1)).length s

/-- Enter a state that has no drive or keeps it (R161). -/
def lcEnter (c st : Nat) (s : State) : State := lcWaiting (c / 8) (setF (fLcState c) st s)

/-- Leave what the channel is doing: the queue, the inrush slot with its trace, a running test; the drive goes off
(R163, R165, R187). -/
def lcLeave (c endCode : Nat) (s : State) : State :=
  let g := c / 8
  let on := lcDrive s c
  let s := if lcState s c = 2 then
      setF (fLgInrush g) 0xFF (updLGroup g (fun x => { x with lastEnd := some (now s) }) (traceEnd c endCode s))
    else s
  let s := updLGroup g (fun x => { x with queue := x.queue.filter (fun d => d ≠ c) }) s
  let t := now s
  updChan c (fun x => { x with phaseEnd := none, test := none, overAt := if on then t + 48000 else x.overAt }) s

/-- Place a channel that enters WAIT at turn t in the queue: behind all, but before channels of higher numbers that enter
in the same turn (R165). -/
def queueIn (s : State) (c t : Nat) : List Nat → List Nat
  | [] => [c]
  | d :: q => if (chan s d).waitAt = some t ∧ c < d then c :: d :: q else d :: queueIn s c t q

/-- Enter WAIT in the order of R165; an aborted channel at the head. -/
def lcWait (c : Nat) (head : Bool) (s : State) : State :=
  let t := now s
  let s := updLGroup (c / 8) (fun x => { x with queue := if head then c :: x.queue else queueIn s c t x.queue }) s
  lcEnter c 1 (updChan c (fun x => { x with waitAt := if head then none else some t }) s)

/-- A running or waiting kick is cut (R170): reported with 1 when the drive had been on. -/
def kickCut (c : Nat) (s : State) : State :=
  let x := chan s c
  match x.mode with
  | .kick => updChan c (fun x => { x with kickTag := none, mode := .steady, pulsed := false })
      (loadHand c 11 0 (loadReport c x.kickTag (if x.pulsed then 1 else 0) s))
  | .steady | .blink _ _ => s

/-- Trip a channel (R158–R160, R167). -/
def lcTrip (c cause : Nat) (s : State) : State :=
  let kick := match (chan s c).mode with
    | .kick => decide (lcState s c ≠ 0)
    | .steady | .blink _ _ => false
  let s := lcLeave c 2 s
  let s := lcEnter c 5 (setF (fLcCause c) cause s)
  let t := now s
  let s := updChan c (fun x => { x with tripAt := t, tripKick := kick, outAt := if cause = 4 then x.outAt else some t }) s
  let s := if kick then kickCut c s else s
  loadEvent c 1 cause (if cause = 1 then setF (fLcDischarging c) 1 s else s)

/-- Take the channel to OFF (R161). -/
def lcToOff (c : Nat) (s : State) : State := lcEnter c 0 (lcLeave c 3 s)

/-- Reject (R163). -/
def lcReject (c : Nat) (s : State) : State := flag (fLcCmdrej c) s

/-! ### Staging (R156, R162) -/

/-- Drop a staged command that another replaces (R162). -/
def lcReplace (c : Nat) (s : State) : State :=
  match (chan s c).staged with
  | none => s
  | some x =>
    let s := updChan c (fun y => { y with staged := none }) s
    let s := if x.admin then admDone 0x59 c 3 (lcState s c) [] s else s
    if bitsOf x.word 3 0 = 3 ∧ x.tenant.isSome then loadReport c x.tag 0 s else s

/-- Stage a command word. -/
def lcStage (c : Nat) (x : LcStaged) (s : State) : State :=
  let s := lcReplace c (jLoad c 0x10 (le 4 x.word.toNat) s)
  updChan c (fun y => { y with staged := some x }) s

/-- LC_CMD written by the control processor: it acts at turn 24 of the frame of the next tick (R162). -/
def lcStageCp (c : Nat) (v : Word) (admin : Bool) (s : State) : State :=
  lcStage c { word := v, tenant := none, tag := none, admin := admin, due := some (nextTick s + 24) } s

/-- LC_CMD staged for the channel's tenant: it is released with the tenant's outputs (R162). -/
def lcStageTenant (c : Nat) (v : Word) (tag : Option Nat) (s : State) : State :=
  let t := getF s (fLcTenant c)
  lcStage c { word := v, tenant := some (t, getF s (fGen t)), tag := tag, admin := false, due := none } s

/-- LC_CMD_STAGE (R156, R162). -/
def execLcCmdStage (c : CoreId) (ch : ChanId) (v : Word) (s : State) : Outcome :=
  match c with
  | .cp => done (lcStageCp ch.val v false s)
  | .lane n x =>
    done (if supCore s (.lane n x) && lcAttached s ch.val && getF s (fLcTenant ch.val) / 16 = n.val
          then lcStageTenant ch.val v none s else busErr (.lane n x) (lcK ch.val 0xC) s)
  | .thread n t => done (busErr (.thread n t) (lcK ch.val 0xC) s)

/-! ### Commands (R163, R169, R171) -/

/-- The staged command's source is a lane core (R171). -/
def fromTenant (x : LcStaged) : Bool := x.tenant.isSome

/-- A BLINK that acts on a channel (R163). -/
def lcBlinkAct (c a b : Nat) (s : State) : State :=
  let x := chan s c
  let st := lcState s c
  let m := LcMode.blink a b
  if st = 0 then lcWait c false (updChan c (fun x => { x with mode := m, next := none }) s)
  else if st = 4 then updChan c (fun x => { x with next := some m }) s
  else match x.mode with
    | .steady =>
      if st = 1 then updChan c (fun x => { x with mode := m }) s
      else if st = 2 then updChan c (fun x => { x with mode := m, phaseEnd := some (x.grant + msTurns a) }) s
      else
        let s := lcEnter c 6 (lcLeave c 3 s)
        let t := now s
        updChan c (fun x => { x with mode := m, phaseEnd := some (t + msTurns b) }) s
    | .kick | .blink _ _ => updChan c (fun x => { x with next := some m }) s

/-- What a command does when it acts (R163): `none` where it is rejected. -/
def lcDo (c : Nat) (x : LcStaged) (s : State) : Option State :=
  let cmd := bitsOf x.word 3 0
  let a := bitsOf x.word 15 4
  let b := bitsOf x.word 27 16
  let st := lcState s c
  if cmd = 0 then some s
  else if !isSet s (fLcEnable c) then none
  else match cmd with
    | 1 =>
      if st = 5 then none
      else if st = 0 then some (lcWait c false (updChan c (fun x => { x with mode := .steady, next := none }) s))
      else if st = 4 then some (updChan c (fun x => { x with next := some .steady }) s)
      else if st = 6 then some (lcWait c false (updChan c (fun x => { x with mode := .steady, next := none,
                                                                               phaseEnd := none }) s))
      else some (updChan c (fun x => { x with mode := .steady, next := none, phaseEnd := none }) s)
    | 2 =>
      if st = 5 then none
      else if st = 0 then some s
      else some (updChan c (fun x => { x with mode := .steady, next := none }) (lcToOff c (kickCut c s)))
    | 3 =>
      if st = 0 then some (loadHand c 10 0 (lcWait c false
        (updChan c (fun y => { y with mode := .kick, next := none, kickTag := x.tag, pulsed := false }) s)))
      else none
    | 4 => if st = 5 ∨ a = 0 ∨ b = 0 then none else some (lcBlinkAct c a b s)
    | 5 =>
      let steady : Bool := match (chan s c).mode with
        | .steady => true
        | .kick | .blink _ _ => false
      if st = 3 ∧ steady ∧ 10 ≤ a ∧ a ≤ 100 ∧ !isSet s (fLgSag (c / 8)) then
        let t := now s
        some (updChan c (fun y => { y with test := some (t, a, false), overAt := t + 48000 }) (lcEnter c 4 s))
      else none
    | 6 =>
      if st ≠ 5 then some s
      else if fromTenant x ∧ !(getF s (fLcCause c) = 2 ∨ getF s (fLcCause c) = 3 ∨ getF s (fLcCause c) = 5) then none
      else some (loadHand c 9 0 (setF (fLcRetries c) 0 (setF (fLcAborts c) 0 (lcEnter c 0 s))))
    | _ => none

/-- The answers of a command that does not take effect: to the Kysan LC_COMMAND that waits for it, and to the tenant whose
KICK it is (R162, R163, R170). -/
def lcRefused (c : Nat) (x : LcStaged) (s : State) : State :=
  let s := if x.admin then admDone 0x59 c 3 (lcState s c) [] s else s
  if bitsOf x.word 3 0 = 3 then loadReport c x.tag 0 s else s

/-- A staged command of one of the given codes acts at its turn (R162, R163, R92). Where another outcome of the channel has
that turn the command does not occur (R168); it is answered as a rejected one, without CMDREJ (log entry 91). -/
def lcAct (c : Nat) (f : Nat → Bool) (s : State) : Outcome :=
  match (chan s c).staged with
  | none => done s
  | some x =>
    if f (bitsOf x.word 3 0) then
      atDue x.due (fun s =>
        let s := updChan c (fun y => { y with staged := none }) s
        let stale : Bool := match x.tenant with
          | some (t, g) => getF s (fGen t) ≠ g
          | none => false
        if stale then s
        else if outranked s c 5 || (chan s c).outAt = some (now s) then lcRefused c x s
        else match lcDo c x s with
          | some s => if x.admin then admDone 0x59 c 0 0 [] s else s
          | none => lcRefused c x (lcReject c s)) s
    else done s

/-- LC_NOP: NOP, and the reserved codes 7–15, which are rejected (R163). -/
def execLcNop (ch : ChanId) (s : State) : Outcome := lcAct ch.val (fun k => k = 0 || decide (7 ≤ k)) s
def execLcOn (ch : ChanId) (s : State) : Outcome := lcAct ch.val (fun k => k = 1) s
def execLcOff (ch : ChanId) (s : State) : Outcome := lcAct ch.val (fun k => k = 2) s
def execLcKick (ch : ChanId) (s : State) : Outcome := lcAct ch.val (fun k => k = 3) s
def execLcBlink (ch : ChanId) (s : State) : Outcome := lcAct ch.val (fun k => k = 4) s
def execLcTest (ch : ChanId) (s : State) : Outcome := lcAct ch.val (fun k => k = 5) s
def execLcClear (ch : ChanId) (s : State) : Outcome := lcAct ch.val (fun k => k = 6) s

/-! ### Trips and sag (R158–R160, R166–R168) -/

/-- SHORT_TRIP (R158): SHORT_FILT + 1 samples have read over while the drive is on. -/
def execShortTrip (ch : ChanId) (s : State) : Outcome :=
  if lcDrive s ch.val then atDue (some (shortAt s ch.val)) (lcTrip ch.val 1) s else done s

/-- INRUSH_OVER_TRIP (R159): OVER_FILT × 4,800 samples of the inrush window have read over. -/
def execInrushOverTrip (ch : ChanId) (s : State) : Outcome :=
  let c := ch.val
  if lcState s c = 2 ∧ max (now s) (overDue s c) < inrushEnds s c then
    atDue (some (overDue s c)) (fun s => if outranked s c 3 then s else lcTrip c 2 s) s
  else done s

/-- OVERLOAD_TRIP (R159): OVER_FILT × 4,800 samples in RUN have read over, counted from its first turn. -/
def execOverloadTrip (ch : ChanId) (s : State) : Outcome :=
  let c := ch.val
  if lcState s c = 3 then atDue (some (overDue s c)) (fun s => if outranked s c 3 then s else lcTrip c 3 s) s else done s

/-- STUCK_ON_DETECT (R160): OVER_FILT × 4,800 samples have read over after the drive has been off for 48,000 turns. A later
run can begin only after a sample that does not read over. -/
def execStuckOnDetect (ch : ChanId) (s : State) : Outcome :=
  let c := ch.val
  let st := lcState s c
  if st = 0 ∨ st = 1 ∨ st = 5 ∨ st = 6 then
    atDue (some (overDue s c)) (fun s =>
      let t := now s
      updChan c (fun x => { x with overAt := t + 2 })
        (if st = 1 ∨ st = 6 ∨ (st = 0 ∧ isSet s (fLcEnable c)) then lcTrip c 4 s else loadEvent c 8 4 (setF (fLcCause c) 4 s))) s
  else done s

/-- Abort an inrush by sag (R167): back to the head of the queue, or TRIPPED at ABORT_MAX. -/
def lcAbort (c : Nat) (s : State) : State :=
  let s := addF (fLcAborts c) 1 (lcLeave c 1 s)
  let s := loadEvent c 2 (getF s (fLcAborts c)) s
  if getF s (fLgAbortMax (c / 8)) ≤ getF s (fLcAborts c) then lcTrip c 5 s
  else
    let t := now s
    updChan c (fun x => { x with outAt := some t }) (lcWait c true s)

/-- SAG_ASSERT (R166, R167): SAG_FILT + 1 samples have read low. It aborts an inrush whose window has not ended. -/
def execSagAssert (g : GroupId) (s : State) : Outcome :=
  let g := g.val
  if getF s (fLgSagCode g) ≠ 0 ∧ !isSet s (fLgSag g) then
    atDue (some (sagAt s g)) (fun s =>
      let t := now s
      let s := updLGroup g (fun x => { x with sagFrom := t + 1 }) s
      let s := loadEvent (8 * g) 3 g (flag (fLgSagSeen g) (setF (fLgSag g) 1 s))
      each ((groupChans g).filter (fun c => lcState s c = 2 && decide (t < inrushEnds s c) && !outranked s c 2)) lcAbort s) s
  else done s

/-- SAG_DEASSERT (R166): SAG_FILT + 1 samples have not read low. -/
def execSagDeassert (g : GroupId) (s : State) : Outcome :=
  let g := g.val
  if isSet s (fLgSag g) then
    atDue (some (sagAt s g)) (fun s =>
      let t := now s
      updLGroup g (fun x => { x with sagFrom := t + 1 }) (setF (fLgSag g) 0 s)) s
  else done s

/-- DISCHARGE_END (R165). -/
def execDischargeEnd (ch : ChanId) (s : State) : Outcome := done (setF (fLcDischarging ch.val) 0 s)

/-! ### Inrush (R164, R165) -/

/-- The channel's trace bit (R201 JNL_LCT). -/
def lcTraced (s : State) (c : Nat) : Bool := isSet s (bit (0x40000030 + 4 * (c / 32)) (c % 32))

/-- Grant the inrush slot (R164, R165): the drive goes on, or a bad profile takes the channel to OFF with PROFERR. -/
def lcGrant (c : Nat) (s : State) : State :=
  let g := c / 8
  let s := updLGroup g (fun x => { x with queue := x.queue.filter (fun d => d ≠ c) }) s
  if ptsOk 0 0 (lcProfile s c) then
    let t := now s
    let pulse := msTurns (getF s (fLcPulse c))
    let tr := lcTraced s c
    lcEnter c 2 (setF (fLgInrush g) c (updChan c (fun x => { x with
                                                             grant := t,
                                                             onAt := t,
                                                             overAt := t,
                                                             pulsed := true,
                                                             phaseEnd := match x.mode with
                                                               | .steady => none
                                                               | .kick => some (t + pulse)
                                                               | .blink a _ => some (t + msTurns a),
                                                             trace := if tr then some [] else none }) s))
  else
    let k := (chan s c).kickTag
    let s := updChan c (fun x => { x with mode := .steady, kickTag := none }) s
    loadEvent c 7 0 (loadReport c k 0 (flag (fLcProferr c) (lcEnter c 0 s)))

/-- INRUSH_GRANT (R165): the head of the queue, once every condition holds. -/
def execInrushGrant (g : GroupId) (s : State) : Outcome :=
  let g := g.val
  let cs := groupChans g
  match (lgroup s g).queue with
  | [] => done s
  | c :: _ =>
    if cs.any (fun d => lcState s d = 2) || isSet s (fLgSag g) || cs.any (fun d => isSet s (fLcDischarging d)) then done s
    else match (lgroup s g).lastEnd with
      | some e => atDue (some (e + 4800 * getF s (fLgGap g))) (lcGrant c) s
      | none => done (lcGrant c s)

/-- INRUSH_END (R164, R167): RUN, ABORTS 0, the slot released; a pulse or on-phase that ends earlier comes first. -/
def execInrushEnd (ch : ChanId) (s : State) : Outcome :=
  let c := ch.val
  let e := inrushEnds s c
  let first := match (chan s c).phaseEnd with
    | some q => decide (q < e)
    | none => false
  if lcState s c = 2 && !first then
    atDue (some e) (fun s =>
      if outranked s c 4 then s
      else
        let t := now s
        let s := updLGroup (c / 8) (fun x => { x with lastEnd := some t }) (setF (fLgInrush (c / 8)) 0xFF (traceEnd c 0 s))
        lcEnter c 3 (setF (fLcAborts c) 0 (updChan c (fun x => { x with overAt := t, outAt := some t }) s))) s
  else done s

/-- TRACE_SAMPLE (R187): sample k of the inrush at G + 4,800 × k. -/
def execTraceSample (ch : ChanId) (reading : BitVec 12) (s : State) : Outcome :=
  let c := ch.val
  match (chan s c).trace with
  | some rs =>
    if lcState s c = 2 && decide (rs.length < 20000) then
      atDue (some ((chan s c).grant + 4800 * rs.length)) (updChan c (fun x => { x with trace := some (reading :: rs) })) s
    else done s
  | none => done s

/-- KICK_END (R163, R170). -/
def execKickEnd (ch : ChanId) (s : State) : Outcome :=
  let c := ch.val
  match (chan s c).mode with
  | .kick =>
    if lcState s c = 2 ∨ lcState s c = 3 then
      atDue (chan s c).phaseEnd (fun s => loadEvent c 6 0 (updChan c (fun x => { x with mode := .steady, next := none,
                                                                                        kickTag := none, pulsed := false }) (lcToOff c s))) s
    else done s
  | .steady | .blink _ _ => done s

/-- The pattern taken at a phase boundary (R163). -/
def lcNext (x : ChanSt) : LcMode := x.next.elim x.mode (fun m => m)

/-- Length of a blink's off-phase. -/
def offMs : LcMode → Nat
  | .blink _ b => b
  | .steady | .kick => 0

/-- BLINK_ON_END (R163): PAUSE; the off-phase is counted from this turn. -/
def execBlinkOnEnd (ch : ChanId) (s : State) : Outcome :=
  let c := ch.val
  match (chan s c).mode with
  | .blink _ _ =>
    if lcState s c = 2 ∨ lcState s c = 3 then
      atDue (chan s c).phaseEnd (fun s =>
        let s := lcEnter c 6 (lcLeave c 3 s)
        let t := now s
        updChan c (fun x => { x with mode := lcNext x, next := none, phaseEnd := some (t + msTurns (offMs (lcNext x))) }) s) s
    else done s
  | .steady | .kick => done s

/-- BLINK_OFF_END (R161): WAIT for the next on-phase. -/
def execBlinkOffEnd (ch : ChanId) (s : State) : Outcome :=
  let c := ch.val
  if lcState s c = 6 then
    atDue (chan s c).phaseEnd (fun s => lcWait c false (updChan c (fun x => { x with mode := lcNext x, next := none,
                                                                                     phaseEnd := none }) s)) s
  else done s

/-- Back to RUN after a test, with the pattern commanded meanwhile (R163, R169). -/
def lcTestDone (c : Nat) (s : State) : State :=
  let x := chan s c
  let t := now s
  let s := lcEnter c 3 (updChan c (fun x => { x with test := none, next := none, overAt := t }) s)
  match x.next with
  | some (.blink a b) => lcBlinkAct c a b s
  | some .steady | some .kick | none => s

/-- TEST_OFF_END (R169): a sample of the off-time's last turn that reads over fails the test with STUCK_ON, recorded at that
sample; the drive goes on again. -/
def execTestOffEnd (ch : ChanId) (above : Bool) (s : State) : Outcome :=
  let c := ch.val
  match (chan s c).test with
  | some (t0, a, false) =>
    let on := t0 + 480 * a
    if dueNow s on then
      let s := if above then loadEvent c 5 4 (flag (fLcTestfail c) (setF (fLcCause c) 4 (goTo (on - 1) s))) else s
      let s := goTo on s
      let t := now s
      let s := updChan c (fun x => { x with test := some (t0, a, true), onAt := t }) s
      done (if above then lcTestDone c s else s)
    else done s
  | some (_, _, true) => done s
  | none => done s

/-- TEST_WINDOW_END (R169): `first` is the first turn of the window whose sample reads over; the test passes at that sample,
and fails with OPEN_LOAD where there is none. The channel returns to RUN at the window's end. -/
def execTestWindowEnd (ch : ChanId) (first : Option (Fin 48000)) (s : State) : Outcome :=
  let c := ch.val
  match (chan s c).test with
  | some (t0, a, true) =>
    let on := t0 + 480 * a
    if dueNow s (on + 48000) then
      let s := match first with
        | some k => goTo (on + 48000) (loadEvent c 4 0 (flag (fLcTestpass c) (goTo (on + k.val) s)))
        | none => loadEvent c 5 6 (flag (fLcTestfail c) (setF (fLcCause c) 6 (goTo (on + 48000) s)))
      done (lcTestDone c s)
    else done s
  | some (_, _, false) => done s
  | none => done s

/-- AUTO_RETRY (R171). -/
def execAutoRetry (ch : ChanId) (s : State) : Outcome :=
  let c := ch.val
  let x := chan s c
  if lcState s c = 5 && isSet s (fLcRetry c) && (getF s (fLcCause c) = 2 || getF s (fLcCause c) = 3) &&
      decide (getF s (fLcRetries c) < 3) then
    atDue (some (x.tripAt + msTurns 1000)) (fun s =>
      let s := addF (fLcRetries c) 1 s
      loadHand c 9 0 (if x.tripKick then lcEnter c 0 s else lcWait c false s)) s
  else done s

/-! ### Configuration (R156, R172, R173) -/

/-- The device that a channel is attached to (R172). -/
def lcDevice (s : State) (c : Nat) : Option (Nat × Nat) :=
  if lcAttached s c then some (getF s (fLcTenant c), getF s (fLcDevice c)) else none

/-- The device bindings follow OWN_CP, TENANT and DEVICE (R172, R174): a device that gains the channel shows FAULT while it
is TRIPPED, and one that loses it shows the channel no longer. -/
def lcSyncAttach (c : Nat) (s : State) : State :=
  let s := mapDevices (fun t => t.map (fun q =>
    if q.2.chan = some c ∧ lcDevice s c ≠ some (q.1 / 16, q.1 % 16) then (q.1, { q.2 with chan := none, trip := false, kick := false })
    else q)) s
  match lcDevice s c with
  | some (t, d) =>
    if (dev s t d).chan = some c then s
    else
      let tr := decide (lcState s c = 5)
      updDev t d (fun x => { x with chan := some c, trip := tr }) s
  | none => s

/-- ENABLE falls to 0 (R173): OFF at once, with a queued or running command ended. A staged command stays, and is rejected
when it acts (R161). -/
def lcDisable (c : Nat) (s : State) : State :=
  let was := lcState s c = 5
  let s := updChan c (fun x => { x with mode := .steady, next := none }) (lcToOff c (kickCut c s))
  if was then loadHand c 9 0 s else s

/-- Classes whose devices take a load channel (R172). -/
def lcClass (cls : Nat) : Bool := cls = 2 || cls = 3 || cls = 5 || cls = 6 || cls = 8

/-- A direct write changes the attachment as LC_ATTACH and LC_DETACH would (R172, R174). Where it names a device that takes
no channel or has another one, OWN_CP, TENANT and DEVICE keep their values (log entry 92). -/
def lcReattach (c : Nat) (old : State) (s : State) : State :=
  let fit : Bool := match lcDevice s c with
    | some (t, d) =>
      let x := dev s t d
      lcDevice old c = some (t, d) || (x.bound && lcClass x.cls && (x.chan.isNone || x.chan = some c))
    | none => true
  lcSyncAttach c (if fit then s
    else setF (fLcOwnCp c) (getF old (fLcOwnCp c)) (setF (fLcTenant c) (getF old (fLcTenant c))
      (setF (fLcDevice c) (getF old (fLcDevice c)) s)))

/-- LC_CTRL as a write would leave it. -/
def lcCtrlAfter (s : State) (c : Nat) (v : Word) : Word :=
  match regRow (lcK c 0) with
  | some (r, _) => writeFields r.fields v (reg s (lcK c 0))
  | none => v

/-- The channel is OFF or TRIPPED (R156). -/
def lcCfgOk (s : State) (c : Nat) : Bool := lcState s c = 0 || lcState s c = 5

/-- A control-processor write of a configuration register (R156, R173): word offset `w` of the channel's block. -/
def lcCfgWrite (c w : Nat) (v : Word) (s : State) : State :=
  let off := 4 * w
  if off = 0x10 then softWrite (lcK c off) v s
  else if off = 0x0C then lcStageCp c v false s
  else if off = 0 then
    let new := lcCtrlAfter s c v
    let old := reg s (lcK c 0)
    let falls := old.getLsbD 0 && !new.getLsbD 0
    if lcCfgOk s c || (falls && withBits new 0 0 1 = old) then
      let t := updChan c (fun x => { x with written := true }) (setReg (lcK c 0) new s)
      lcReattach c s (if falls then lcDisable c t else t)
    else lcReject c s
  else if lcCfgOk s c then
    let t := softWrite (lcK c off) v s
    if off = 4 then lcReattach c s t else t
  else lcReject c s

/-- Word offsets of a channel's block that hold a register (R173). -/
def lcDecoded (w : Nat) : Bool := decide (w ≤ 4) || decide (15 ≤ w ∧ w ≤ 31)

/-- LC_CONFIG_WRITE (R156, R173). -/
def execLcConfigWrite (c : CoreId) (ch : ChanId) (off : Fin 32) (v : Word) (s : State) : Outcome :=
  done (if isCp c && lcDecoded off.val then lcCfgWrite ch.val off.val v s else busErr c (lcK ch.val (4 * off.val)) s)

/-- LC_CTRL_DISABLE (R173): a write of LC_CTRL that clears ENABLE and changes no other field. -/
def execLcCtrlDisable (c : CoreId) (ch : ChanId) (s : State) : Outcome :=
  done (if isCp c then lcCfgWrite ch.val 0 (withBits (reg s (lcK ch.val 0)) 0 0 0) s else busErr c (lcK ch.val 0) s)

/-- A write of LC_GCFG (R166, R173): it restarts the sag filter. -/
def lcGcfgWrite (g : Nat) (v : Word) (s : State) : State :=
  let bad := (groupChans g).filter (fun c => !lcCfgOk s c)
  if bad.isEmpty then
    let t := now s
    let s := updLGroup g (fun x => { x with sagFrom := t + 1 }) (softWrite (lgK g 0) v s)
    if getF s (fLgSagCode g) = 0 then setF (fLgSag g) 0 s else s
  else each bad lcReject s

/-- LC_GCFG_WRITE (R173). -/
def execLcGcfgWrite (c : CoreId) (g : GroupId) (v : Word) (s : State) : Outcome :=
  done (cpOnly c (lgK g.val 0) (lcGcfgWrite g.val v) s)

end Sys2Proof.Machine
end

