-- ==== Sys2Proof/Machine/Tenant.lean ====
section
/-! DEFINITION. Tenants as a whole (spec/03_tenants_and_virtual_devices.md R66–R68, R92–R95): their states, tenant
reset, and the staging of slots toward the mailbox block (R296). -/

namespace Sys2Proof.Machine

/-! ### States (R66) -/

/-- Virtual function t is enabled, and its chip does not wait for its admission (R66, R337, R341, R421). -/
def vfOn (s : State) (t : Nat) : Bool := s.host.vfEnable && decide (t < s.host.numVfs) && !awaitsGroup s

/-- Devices of a tenant. -/
def devIds : List Nat := List.range 16

/-- The devices of a tenant that is served again show the present state of their ports and channels (R78, R79). -/
def resyncDevs (t : Nat) (s : State) : State :=
  each devIds (fun d s =>
    let x := dev s t d
    if x.bound then
      let q := port s x.port
      let trip := x.chan.elim false (fun c => lcState s c = 5)
      let kick := x.chan.elim false (fun c => (chan s c).mode = .kick && lcState s c ≠ 0)
      let here := decide (x.port < 0xFFFF)
      updDev t d (fun x => { x with pst := if here then q.state else x.pst, byp := if here then q.bypassed else isFar x.port && x.byp,
                                    trip := trip, kick := kick }) s
    else s) s

/-- The tenant is served again when it is configured and its virtual function is enabled: ACTIVE, or DORMANT while its
cluster is dark or waking (R400); else DISABLED. -/
def tenantEnable (t : Nat) (s : State) : State :=
  if (ten s t).configured && vfOn s t then
    (if 2 ≤ getF s (fPwr (t / 16)) then setF (fTState t) 3 s else resyncDevs t (setF (fTState t) 1 s))
  else setF (fTState t) 0 s

/-! ### Slots staged by the lane core (R77, R296) -/

/-- Address of slot k of the outbox of tenant t. -/
def outboxAt (t k : Nat) : Nat := 0x20000000 + t / 16 * 0x01000000 + 0xE8400 + 0x800 * (t % 16) + 64 * k

/-- Address of the inbox of tenant t. -/
def inboxAt (t : Nat) : Nat := 0x20000000 + t / 16 * 0x01000000 + 0xE4000 + 0x440 * (t % 16)

/-- Stage one slot: in the outbox while it holds fewer than 32, else behind it for a later frame. -/
def stageSlot (t : Nat) (sl : Slot) (s : State) : State :=
  let x := ten s t
  if x.outFill < 32 ∧ x.staged.isEmpty then
    writeBytes (outboxAt t x.outFill) (padTo 64 sl) (updTen t (fun x => { x with outFill := x.outFill + 1 }) s)
  else updTen t (fun x => { x with staged := x.staged ++ [sl] }) s

/-- Stage slots in order. -/
def stageSlots (t : Nat) (sls : List Slot) (s : State) : State := each sls (stageSlot t) s

/-- At a tick: the outbox starts empty, and slots that did not fit before go in first. -/
def refill (t : Nat) (s : State) : State :=
  let sls := (ten s t).staged
  stageSlots t sls (updTen t (fun x => { x with staged := [], outFill := 0 }) s)

/-- The slots that a COUNT releases from the outbox (R296). -/
def outboxSlots (s : State) (t k : Nat) : List Slot :=
  (List.range (min k (ten s t).outFill)).map (fun i => readBytes s (outboxAt t i) 64)

/-! ### Discards -/

/-- The ports bound to devices of a tenant. -/
def tenantPorts (s : State) (t : Nat) : List Nat :=
  (portIds s).filter (fun p => match (port s p).bound with
    | some ix => ix / 16 = t
    | none => false)

/-- A crossing belongs to a tenant. -/
def crossTenant : Crossing → Nat
  | .inItem t _ => t
  | .output o => o.tenant

/-- The output a crossing carries. -/
def crossOut : Crossing → List OutMsg
  | .inItem _ _ => []
  | .output o => [o]

/-- Outputs of a tenant that are staged, or on their way to their ports, on this chip or another. -/
def tenantOuts (s : State) (t : Nat) : List OutMsg :=
  (ten s t).outs ++ ((s.remote.map (fun r => crossOut r.2.2.2)).flatten ++
    (s.delayed.map (fun r => crossOut r.2.2)).flatten ++
    (s.group.farOut.filter (fun q => decide (frameNo s < q.1))).map (fun q => q.2)).filter (fun o => o.tenant = t)

/-- Items of a tenant that are on their way to it, wait in its hand-off sets or in its devices' carried work. -/
def tenantItems (s : State) (t : Nat) : List HItem :=
  let item := fun (c : Crossing) => match c with
    | .inItem u h => if u = t then [h] else []
    | .output _ => []
  let work := fun (w : Work) => match w with
    | .item h => [h]
    | .slot _ | .stream _ _ _ | .mach _ | .levels _ | .after => []
  (devIds.map (fun d => ((dev s t d).carried.map work).flatten)).flatten ++
  (((ten s t).handed ++ (ten s t).held).map (fun h => h.items)).flatten ++
  (s.remote.map (fun r => item r.2.2.2)).flatten ++ (s.delayed.map (fun r => item r.2.2)).flatten

/-- Journal a one-shot that a reset or a dark entry discards, with its tag (R94, R401). -/
def jDiscard (t d tag : Nat) : State → State := jDevice 10 t d tag []

/-- One-shots of a tenant that have bytes in the FIFO of port p: (message, device, tag) (R93). -/
def fifoOneshots (s : State) (t p : Nat) : List (Nat × Nat × Nat) :=
  let x := port s p
  ((slotMsgs s p).eraseDups).filterMap (fun m =>
    match Tab.find (fifo s (fifoIx x.group x.thread)).msgs m with
    | some (t', d, tag, _) => if t' = t then some (m, d, tag) else none
    | none => none)

/-- Drop the one-shots of a tenant in the FIFO of port p, journaled, and flush the port's bytes (R93). -/
def flushTenantPort (t p : Nat) (s : State) : State :=
  let x := port s p
  let i := fifoIx x.group x.thread
  let s := each (fifoOneshots s t p) (fun m s =>
    jDiscard t m.2.1 m.2.2 (updFifo i (fun f => { f with msgs := Tab.del f.msgs m.1, launched := Tab.del f.launched m.1 }) s)) s
  flushPort p s

/-- Channels with a command staged by a tenant. -/
def tenantStagedChans (s : State) (t : Nat) : List Nat :=
  (List.range 128).filter (fun c => match (chan s c).staged with
    | some x => (match x.tenant with
        | some (u, _) => u = t
        | none => false)
    | none => false)

/-- A KICK among them (R162). -/
def kickStaged (s : State) (c : Nat) : Bool :=
  match (chan s c).staged with
  | some x => bitsOf x.word 3 0 = 3
  | none => false

/-- One-shots that an abandonment of the tenant's work discards (R94). -/
def discardCount (s : State) (t : Nat) : Nat :=
  ((tenantOuts s t).filter (fun o => o.tag.isSome)).length +
  ((tenantPorts s t).map (fun p => (fifoOneshots s t p).length)).foldl (· + ·) 0 +
  ((tenantStagedChans s t).filter (kickStaged s)).length

/-- A device's unfinished work ends: carried work, sequence, timers and partial messages; its record, its binding and
its machines' states and variables stay (R94). -/
def dropWork (x : DeviceSt) : DeviceSt :=
  { x with carried := [], seq := none, xbuf := [], trans := 0, reapply := false,
           pm := { x.pm with timers := List.replicate 4 Timer.off }, tm := { x.tm with timers := List.replicate 4 Timer.off } }

/-- Abandon the work of a tenant (R93): its outputs, hand-off sets and commons entries are discarded, the bytes of its
ports flushed, its settle traces closed; the one-shots and the packets among them are journaled. -/
def abandon (t : Nat) (s : State) : State :=
  let s := each ((tenantOuts s t).filter (fun o => o.tag.isSome)) (fun o s =>
    jDiscard t o.dev (o.tag.elim 0 (fun g => g)) s) s
  let s := each (tenantPorts s t) (flushTenantPort t) s
  let s := each (tenantStagedChans s t) (fun c s =>
    let tag := (chan s c).staged.elim 0 (fun x => x.tag.elim 0 (fun g => g))
    let s := if kickStaged s c then jDiscard t (getF s (fLcDevice c)) tag s else s
    updChan c (fun x => { x with staged := none }) s) s
  let s := each (tenantItems s t) (itemUnheard 0x10) s
  let s := each devIds (fun d s => updDev t d dropWork (settleClose t d s)) s
  let s := updGroup (fun g => { g with farOut := g.farOut.filter (fun q => q.2.tenant ≠ t) }) s
  let s := mapRemote (fun q => q.filter (fun r => crossTenant r.2.2.2 ≠ t))
    (mapDelayed (fun q => q.filter (fun r => crossTenant r.2.2 ≠ t)) s)
  updTen t (fun x => { x with done := false, hadWork := false, outbox := none, outFill := 0, handed := [], held := [],
                              staged := [], outs := [], released := [], backlog := [], gapNext := false, backAt := 0, again := [] }) s

/-! ### Tenant reset (R68, R93, R94) -/

/-- Clear EN and OVR of every unlocked router channel that the tenant owns (R394). -/
def clearOwned (t : Nat) (s : State) : State :=
  each clusterIds (fun n s => each (List.range 32) (fun c s =>
    if getF s (fEvrOwner n c) = t ∧ !isSet s (fEvrLock n c) then setF (fEvrOvr n c) 0 (setF (fEvrEn n c) 0 s) else s) s) s

/-- Start a tenant reset (R93): an ACTIVE tenant's GEN is incremented, it becomes RESETTING and its work is abandoned;
a request for a RESETTING tenant is merged; DISABLED and DORMANT tenants are left (R68). -/
def resetStart (t : Nat) (s : State) : State :=
  if getF s (fTState t) = 1 then
    let n := discardCount s t
    let s := jTenant 3 t (frameNo s) s
    let s := setF (fTState t) 2 (setF (fGen t) (getF s (fGen t) + 1) s)
    let at_ := now s
    updTen t (fun x => { x with resetAt := some at_, resetDisc := n }) (clearOwned t (abandon t s))
  else s

/-- The class idle level of a device (R94, R172): lamp off, display blank, scanner enabled, key LEDs and backlight
off. Levels that R94 does not name are kept. -/
def idleLevels (x : DeviceSt) : DeviceSt :=
  if x.present = 0 then { x with desired := [] }
  else
    let d := x.desired
    let d := match x.cls with
      | 0 => Tab.put (Tab.del d (256 * 0x11)) (256 * 0x10) []
      | 5 => Tab.put d (256 * 0x60) [0, 0, 0]
      | 2 =>
        let lines := (d.filter (fun p => p.1 / 256 = 0x30)).map (fun p => p.1 % 256)
        (if lines.isEmpty then [0] else lines).foldl (fun d l =>
          Tab.put d (256 * 0x30 + l) ([BitVec.ofNat 8 l, 0, 40] ++ List.replicate 40 0x20)) d
      | 6 => Tab.put d (256 * 0x70) [0, 0, 0, 0]
      | _ => d
    { x with desired := if x.chan.isSome && (x.cls = 2 || x.cls = 6) then Tab.put d (256 * 0x31) [0] else d }

/-- The registers of a mailbox page at reset, but for TSTAT, RESET_INFO, PAGE_ID and the MSI-X table (R289). -/
def pageReset (p : Nat) (s : State) : State :=
  clearRegs (fun k => decide (pageK p 0x08 ≤ k ∧ k < pageK p 0xF000 ∨ k = pageK p 0xF800) && decide (k ≠ pageK p 0x2C)) s

/-- Rebuild a tenant's state block (R94): empty rings, reset doorbells, TENANT_FRAME cleared, class idle levels. -/
def rebuild (t : Nat) (s : State) : State :=
  let s := setReg (0x45000400 + 4 * t) 0 (pageReset t s)
  let s := setReg (pageK t 0x2C) (BitVec.ofNat 32 (65536 * getF s (fGen t) + min 65535 (ten s t).resetDisc)) s
  let s := each devIds (fun d s => if (dev s t d).bound then updDev t d idleLevels s else s) s
  updTen t (fun x => { x with resetAt := none, submit := [], cleared := true, backlog := [], gapNext := false }) s

/-- TENANT_RESET_COMPLETE (R93–R95): the state block is rebuilt, the tenant is ACTIVE, and completion is reported. -/
def resetComplete (t : Nat) (s : State) : State :=
  let s := jTenant 4 t (frameNo s) (tenantEnable t (rebuild t s))
  let s := ringBell t 6 s
  admDone 0x41 t 0 0 (le 2 (getF s (fGen t)) ++ le 2 (min 65535 (ten s t).resetDisc)) s

/-- Every transfer of an older generation of the tenant has been fenced in the movers (R93, R95, R320), and a member's host
writes of it have been transmitted (R342). -/
def fencedAll (s : State) (t : Nat) : Bool :=
  s.xfers.all (fun p => p.2.desc.tenant ≠ t || p.2.desc.gen = getF s (fGen t) || p.2.held ||
    (p.2.status = some 1 && (!isMember s || p.2.moved = 0 || p.2.desc.spaces / 4 % 4 ≠ 1 || p.2.flush = 2)))

/-- TENANT_RESET_COMPLETE (R93, R95): while the tenant is RESETTING, once its stale transfers are fenced; a host write is
performed in the step that moves it (R319), so none is left to flush. -/
def execTenantResetComplete (t : TenantId) (s : State) : Outcome :=
  done (if getF s (fTState t.val) = 2 ∧ fencedAll s t.val then resetComplete t.val s else s)

/-- TENANT_RESET_GO: a write of TENANT_RESET (R67, R68). -/
def tenantResetWrite (v : Word) (s : State) : State := if v.getLsbD 8 then resetStart (bitsOf v 7 0) s else s

/-- TENANT_RESET_GO (R68): a write from user mode is a bus error. -/
def execTenantResetGo (c : CoreId) (v : Word) (s : State) : Outcome :=
  done (if supCore s c then tenantResetWrite v s else busErr c 0x4800C400 s)

end Sys2Proof.Machine
end

