-- ==== Sys2Proof/Machine/Broker.lean ====
section
/-! DEFINITION. The broker of a tenant's virtual devices (spec/03_tenants_and_virtual_devices.md R69–R91,
spec/04_personality_tables.md R105–R116, spec/11_kysan_command_interface.md R303–R306): device states and legality,
the two machines of a device, and its items, levels and byte streams. -/

namespace Sys2Proof.Machine

/-! ### Device states (R79, R172) and legality (R81) -/

/-- READY or a class sub-state (R79). -/
def isReady (st : Nat) : Bool := st = 2 || decide (0x10 ≤ st)

/-- Device state without a running sequence, from the partner view alone (R82, R109 SOURCE 5). -/
def pvCode (x : DeviceSt) : Nat :=
  if x.port = 0xFFFF ∧ x.chan.isNone then 0
  else if x.trip then 6
  else if x.port = 0xFFFF then 2
  else if x.byp then 6
  else match x.pst with
    | 3 => x.view
    | 4 => 4
    | 5 | 6 => 5
    | _ => 1

/-- Device state code (R79): BUSY while a sequence or a kick runs (R172), SCANNER_DISABLED where the tenant's desired state says so. -/
def stateCode (x : DeviceSt) : Nat :=
  let c := pvCode x
  if !isReady c then c
  else if x.seq.isSome || x.kick then 3
  else if c = 2 ∧ x.cls = 0 ∧ (Tab.find x.desired (256 * 0x11)).isSome then 0x40
  else c

/-- Tenant-side image of a device (R130). -/
def tenantSide (s : State) (x : DeviceSt) : Option (List Byte) :=
  if x.present = 2 then activeImg s x.tapt x.tmajor else none

/-- The table of a port; that of another chip's port is a value of the implementation (log entry 80). -/
def imgOf (s : State) (p : Nat) : Option (List Byte) :=
  if isFar p then activeImg s (Config.farApt (p - 0x10000)).1 (Config.farApt (p - 0x10000)).2 else portImg s p

/-- Image of a side's machine of a device: 0 the port's table, 1 the tenant-side table. -/
def sideImg (s : State) (x : DeviceSt) (side : Nat) : Option (List Byte) :=
  if side = 0 then (if x.present = 0 ∨ x.port = 0xFFFF then none else imgOf s x.port) else tenantSide s x

/-- Kind of a class operation at a device: 0 level, 1 one-shot, 2 exclusive; `none` where its class has none (R71,
R81, R115, R172). -/
def kindOf (s : State) (x : DeviceSt) (code : Nat) : Option Nat :=
  match msgInfo code with
  | none => none
  | some m =>
    if !m.isOp then none
    else match tenantSide s x with
      | some img => some ((opEnt img 0 code).elim 1 (fun e => e.outkind))
      | none =>
        if m.cls = some x.cls then some m.kind
        else if code = 0x31 ∧ x.cls = 6 ∧ x.chan.isSome then some 0
        else none

/-- Sub-states in which a one-shot is not legal (R81). -/
def bannedIn (code st : Nat) : Bool :=
  match code with
  | 0x21 => st = 0x10 || st = 0x11 || st = 0x12
  | 0x22 => st = 0x10 || st = 0x11
  | 0x52 | 0x53 | 0x54 => st = 0x20 || st = 0x21
  | 0x40 => st = 0x30
  | _ => false

/-- Status that legality gives a class operation (R81, R85): 0 legal, 2 BAD_ARGUMENT, 3 STATE_CONFLICT. -/
def legalOp (s : State) (x : DeviceSt) (code : Nat) : Nat :=
  let st := stateCode x
  if st = 0 then 3
  else if x.present = 0 then 2
  else match kindOf s x code with
    | none => 2
    | some k => if st = 3 then 3 else if k = 0 then 0 else if isReady st && !bannedIn code st then 0 else 3

/-! ### Slots toward the tenant -/

/-- A staged slot computed from the last reading marks it as acted on (R189). -/
def markActed (t d : Nat) (s : State) : State :=
  updJnl (fun j => { j with traces := j.traces.map (fun tr =>
                              if tr.tenant = t ∧ tr.dev = d then { tr with reads := match tr.reads with
                                                                             | (a, b, c, e, _, p) :: rs => (a, b, c, e, true, p) :: rs
                                                                             | [] => [] }
                              else tr) }) s

/-- Stage a response (R290, R303). One that carries the partner view's state code is computed from the status of the last
reading (R189, log entry 81). -/
def respond (t op tag dv status state : Nat) (payload : List Byte) (s : State) : State :=
  stageSlots t (msgSlots op 1 tag dv status state (payload.take 52) (payload.drop 52) 52)
    (if dv < 16 ∧ isReady state then markActed t dv s else s)

/-- Stage a notice of a class message (R304). -/
def notice (t d code tag : Nat) (payload : List Byte) (s : State) : State :=
  stageSlots t (msgSlots (0x80 + code) 2 tag d 0 0 (payload.take 52) (payload.drop 52) 52) s

/-- Stage a rendering in family X as a data slot (R292). -/
def xSlot (t d : Nat) (bs : List Byte) (s : State) : State :=
  stageSlots t (dataSlots d 0 (stampAt s (dev s t d).turn) 0 bs) (markActed t d s)

/-- Render a format of the tenant-side table from the tenant-side machine and stage it; 0xFF is none (R115). -/
def xForm (t d fmt : Nat) (s : State) : State :=
  let x := dev s t d
  if 0xFE ≤ fmt then s
  else match tenantSide s x with
    | none => s
    | some img => match renderNo img fmt x.tm.vars x.tm.bufs with
      | some bs => xSlot t d bs s
      | none => jDevice 5 t d 0 [BitVec.ofNat 8 fmt] s

/-! ### Exclusive sequences (R85, R305) -/

/-- How a sequence ends. -/
inductive SeqEnd where
  | ok | fail | timeout | dropped
  deriving DecidableEq, Repr

/-- End the running exclusive sequence of a device (R85, R110, R305). -/
def seqFinish (t d : Nat) (how : SeqEnd) (s : State) : State :=
  let x := dev s t d
  match x.seq with
  | none => s
  | some q =>
    let s := updDev t d (fun x => { x with seq := none }) s
    let s := if how = .timeout then jDevice 2 t d q.tag [BitVec.ofNat 8 q.code] s else s
    match tenantSide s x with
    | some img =>
      if how = .timeout ∨ how = .fail then xForm t d ((opEnt img 0 q.code).elim 0xFF (fun e => e.form2)) s else s
    | none =>
      if how = .dropped then s
      else notice t d 5 q.tag (le 2 q.tag ++ [if how = .ok then 0 else 7]) (markActed t d s)

/-- Start an exclusive sequence; its window opens at the release tick of the first byte toward the partner, whether it is
staged already or later (R85). -/
def seqStart (t d tag code us : Nat) (sent : Bool) (s : State) : State :=
  updDev t d (fun x => { x with seq := some { tag := tag, code := code, timeoutUs := us, sent := sent, ends := none } }) s

/-- A byte toward the partner has been staged. -/
def seqSent (t d : Nat) : State → State :=
  updDev t d (fun x => { x with seq := x.seq.map (fun q => { q with sent := true }) })

/-- DROPPED_ONESHOT (R88, R91, R305). -/
def dropNotice (t d tag sent : Nat) (s : State) : State :=
  let s := notice t d 3 tag (le 2 tag ++ le 2 sent) (jDevice 1 t d tag (le 2 sent) s)
  match (dev s t d).seq with
  | some q => if q.tag = tag then seqFinish t d .dropped s else s
  | none => s

/-! ### Outputs toward the partner (R72, R77, R172, R227) -/

/-- Stage bytes toward the device's port; a message without room is a render failure, and a one-shot in it is reported.
`fin` tells whether the last byte ends the message. The answer tells whether it was staged. -/
def stagePort (t d : Nat) (tag : Option Nat) (fin : Bool) (bytes : List Byte) (s : State) : Bool × State :=
  let x := dev s t d
  let r := if x.port = 0xFFFF then (false, s) else stageOut t d x.port tag fin (bytes.map (fun b => BitVec.ofNat 9 b.toNat)) s
  if r.1 then (true, seqSent t d r.2)
  else
    let s := jDevice 5 t d (tag.elim 0 (fun g => g)) [] r.2
    (false, match tag with
      | some g => dropNotice t d g 0 s
      | none => s)

/-- The LC_CMD word of a class operation at a device with a load channel (R172); `none` where it maps to none. -/
def lcWord (cls code : Nat) (p : List Byte) : Option Word :=
  if code = 0x40 ∧ (cls = 3 ∨ cls = 8) then some 3
  else if code = 0x60 ∧ (cls = 5 ∨ cls = 8) then
    let half := leAt p 1 2 / 2
    some (if imgB p 0 = 0 then 2 else if imgB p 0 = 1 then 1 else BitVec.ofNat 32 (4 + 16 * half + 65536 * half))
  else if code = 0x31 ∧ (cls = 2 ∨ cls = 6 ∨ cls = 8) then some (if imgB p 0 = 0 then 2 else 1)
  else none

/-- Stage the channel command of a class operation, if it has one. -/
def lcOp (t d code : Nat) (p : List Byte) (tag : Option Nat) (s : State) : Option State :=
  let x := dev s t d
  match x.chan with
  | none => none
  | some c => (lcWord x.cls code p).map (fun w => lcStageTenant c w tag s)

/-! ### Machines (R108–R112) -/

/-- The state of a side's machine. -/
def machSt (x : DeviceSt) (side : Nat) : MachSt := if side = 0 then x.pm else x.tm

def updMach (t d side : Nat) (f : MachSt → MachSt) (s : State) : State :=
  updDev t d (fun x => if side = 0 then { x with pm := f x.pm } else { x with tm := f x.tm }) s

/-- Set a variable or buffer by its VAR number (R102): a buffer holds 256 bytes, the first ones of a longer field (log
entry 82). -/
def setVar (v : Nat × FVal) (m : MachSt) : MachSt :=
  match v.2 with
  | .num w => if v.1 < 24 then { m with vars := setNth m.vars v.1 w } else m
  | .buf b => if 0x80 ≤ v.1 ∧ v.1 ≤ 0x87 then { m with bufs := setNth m.bufs (v.1 - 0x80) (b.take 256) } else m

def setVars (vs : List (Nat × FVal)) (m : MachSt) : MachSt := vs.foldl (fun m v => setVar v m) m

/-- Load a class message's payload into a machine's variables and buffers (log entry 12). -/
def loadOp (t d side code : Nat) (p : List Byte) (s : State) : State :=
  updMach t d side (fun m => setVars ((Config.opVars code p).map (fun v => (v.1, FVal.num v.2)) ++
    (Config.opBufs code p).map (fun b => (0x80 + b.1, FVal.buf b.2))) m) s

/-- What a firing knows: the device, the machine's side and image, the input, the tag of the one-shot it carries out
(`none` otherwise), whether its transition holds (R110 HOLD) and whether it answers a message of the tenant. -/
structure FCtx where
  t : Nat
  d : Nat
  side : Nat
  img : List Byte
  src : Nat
  arg : Nat
  tag : Option Nat
  hold : Bool
  xin : Bool
  deriving DecidableEq, Repr

/-- What a firing has done so far: the state, the inputs passed on, a suppressed read, a weight message, whether an output
was dropped at staging, whether a byte toward the partner was staged, and whether it held (R110 HOLD). -/
structure FAcc where
  s : State
  out : List Work
  sup : Bool
  wt : Option (List Byte)
  lost : Bool
  sent : Bool
  held : Bool
  deriving DecidableEq, Repr

/-- A firing that has done nothing yet. -/
def FAcc.start (s : State) : FAcc := { s := s, out := [], sup := false, wt := none, lost := false, sent := false, held := false }

/-- Events that begin with a stamp and are kept as the last reading (R303, R304). -/
def isReading (code : Nat) : Bool := code = 0x13 || code = 0x24 || code = 0x41 || code = 0x55 || code = 0x73

/-- SEND (R110): toward the partner, or toward the tenant with the substitution of the present partner view where the
table declares one and no SOURCE 5 input of its own (R83, R84). Where it declares HOLD, the machine's format is rendered
from its variables as they stand (log entry 83). -/
def actSend (c : FCtx) (fmt : Nat) (a : FAcc) : FAcc :=
  let x := dev a.s c.t c.d
  let m := machSt x c.side
  match renderNo c.img fmt m.vars m.bufs with
  | none => { a with s := jDevice 5 c.t c.d 0 [BitVec.ofNat 8 fmt] a.s }
  | some bs =>
    if c.side = 0 then
      let r := stagePort c.t c.d c.tag true bs a.s
      { a with s := r.2, lost := a.lost || (!r.1 && c.tag.isSome), sent := a.sent || r.1 }
    else if c.hold then a
    else
      let pv := pvCode x
      let sub := match machOf c.img 1 with
        | some mm => if c.xin && (mm.inputNo 5 pv).isNone then (opEnt c.img 1 pv).elim 0xFF (fun e => e.form1) else 0xFF
        | none => 0xFF
      if sub < 0xFE then { a with s := xForm c.t c.d sub a.s } else { a with s := xSlot c.t c.d bs a.s }

/-- A scanner read inside the window of the last accepted read (R58). -/
def readSuppressed (x : DeviceSt) (code : Nat) : Bool :=
  x.cls = 0 && x.flags % 2 = 1 && code = 0x13 && (match x.drdEnd with
    | some e => decide (x.turn < e)
    | none => false)

/-- EMIT (R110, R111). -/
def actEmit (c : FCtx) (code : Nat) (a : FAcc) : FAcc :=
  let x := dev a.s c.t c.d
  let m := machSt x c.side
  let body := Config.emitPayload code m.vars m.bufs
  let p := (if isReading code then stampBytes (stampAt a.s x.turn) else []) ++ body
  if c.side = 1 then
    { a with out := a.out ++ [.mach { side := 0, source := 3, arg := code, payload := body, tag := c.tag }] }
  else if readSuppressed x code then { a with sup := true }
  else
    let s := if x.cls = 0 ∧ x.flags % 2 = 1 ∧ code = 0x13 then
        updDev c.t c.d (fun x => { x with drdEnd := some (x.turn + usTurns x.windowUs) }) a.s else a.s
    let s := if isReading code then updDev c.t c.d (fun x => { x with reading := some (code, p) }) s else s
    let a := { a with s := s, wt := if code = 0x24 then some body else a.wt }
    if x.present = 2 then
      { a with out := a.out ++ [.mach { side := 1, source := 3, arg := code, payload := p, tag := none }] }
    else if c.hold then a
    else { a with s := notice c.t c.d code 0 p a.s }

/-- DSTATE (R82, R110): it also ends a running sequence of a device in class presentation (R305). -/
def actDstate (c : FCtx) (code : Nat) (s : State) : State :=
  let s := updDev c.t c.d (fun x => { x with view := code }) s
  if (dev s c.t c.d).present = 1 then seqFinish c.t c.d .ok s else s

/-- SCALE's value (R110): `none` where the variable stays. -/
def scaled (v num den : Word) : Option Word :=
  if den.toInt = 0 then none
  else
    let r := (v.toInt * num.toInt).tdiv den.toInt
    if -2147483648 ≤ r ∧ r ≤ 2147483647 then some (BitVec.ofInt 32 r) else none

/-- One action word (R110). -/
def act (c : FCtx) (a : FAcc) (w : Word) : FAcc :=
  let m := machSt (dev a.s c.t c.d) c.side
  let up := fun (f : MachSt → MachSt) => { a with s := updMach c.t c.d c.side f a.s }
  match bitsOf w 31 24 with
  | 0x01 => actSend c (bitsOf w 5 0) a
  | 0x02 => actEmit c (bitsOf w 7 0) a
  | 0x03 => up (fun m => { m with vars := setNth m.vars (bitsOf w 20 16) (constWord c.img (bitsOf w 7 0)) })
  | 0x04 => up (fun m => { m with timers := setNth m.timers (bitsOf w 17 16) (.start (constWord c.img (bitsOf w 7 0)).toNat) })
  | 0x05 => up (fun m => { m with timers := setNth m.timers (bitsOf w 1 0) .off })
  | 0x06 => { a with s := actDstate c (bitsOf w 7 0) a.s }
  | 0x07 => { a with s := seqFinish c.t c.d .ok a.s }
  | 0x08 => { a with s := seqFinish c.t c.d .fail a.s }
  | 0x09 => { a with s := jDevice 7 c.t c.d 0 [BitVec.ofNat 8 c.src, BitVec.ofNat 8 c.arg] a.s }
  | 0x0A => up (fun m => { m with vars := setNth m.vars (bitsOf w 4 0)
                                    (BitVec.ofInt 32 (curveInt (curvePts (curveBytes c.img (bitsOf w 19 16)))
                                      (varOf m.vars (bitsOf w 12 8)).toInt)) })
  | 0x0B =>
    let v := bitsOf w 20 16
    match scaled (varOf m.vars v) (constWord c.img (bitsOf w 15 8)) (constWord c.img (bitsOf w 7 0)) with
    | some r => up (fun m => { m with vars := setNth m.vars v r })
    | none => { a with s := jDevice 8 c.t c.d 0 (le 4 w.toNat) a.s }
  | 0x0C => { a with s := jDevice 8 c.t c.d 0 (le 2 (bitsOf w 15 0) ++ [BitVec.ofNat 8 c.src, BitVec.ofNat 8 c.arg]) a.s }
  | _ => a

/-- Transitions that a device has performed in frame f (R113). -/
def transNow (f : Nat) (x : DeviceSt) : Nat := if x.transAt = f then x.trans else 0

/-- Present input number `i` to the machine of a context (R111): whether a transition took it, and what it did. -/
def fireNo (c : FCtx) (m : Mach) (i : Nat) (s : State) : Bool × FAcc :=
  let a := FAcc.start s
  match m.transFor (machSt (dev s c.t c.d) c.side).state i with
  | none => (false, a)
  | some tr =>
    let ws := m.actions tr
    let c := { c with hold := ws.any (fun w => bitsOf w 31 24 = 9) }
    let a := ws.foldl (act c) a
    let f := frameNo s
    let s := updDev c.t c.d (fun x => { x with trans := transNow f x + 1, transAt := f })
      (updMach c.t c.d c.side (fun m => { m with state := tr.dst }) a.s)
    (true, { a with s := s, held := c.hold })

/-- A context for a device's side. -/
def ctxOf (t d side : Nat) (img : List Byte) (src arg : Nat) (tag : Option Nat) : FCtx :=
  { t := t, d := d, side := side, img := img, src := src, arg := arg, tag := tag, hold := false, xin := false }

/-- Present a source and argument to a side's machine: `none` where it has no such input, else as `fireNo`. -/
def fireSrc (t d side src arg : Nat) (tag : Option Nat) (s : State) : Option (Bool × FAcc) :=
  match sideImg s (dev s t d) side with
  | none => none
  | some img => match machOf img side with
    | none => none
    | some m => (m.inputNo src arg).map (fun i => fireNo (ctxOf t d side img src arg tag) m i s)

/-- Journal an input that no transition takes (R112). -/
def jIgnored (t d side src arg : Nat) : State → State :=
  jDevice 4 t d 0 [BitVec.ofNat 8 side, BitVec.ofNat 8 src, BitVec.ofNat 8 arg]

/-- Present an input whose absence is only journaled (R112). -/
def fireJ (t d side src arg : Nat) (tag : Option Nat) (s : State) : State × List Work :=
  match fireSrc t d side src arg tag s with
  | some (true, a) => (a.s, a.out)
  | some (false, _) => (jIgnored t d side src arg s, [])
  | none => (jIgnored t d side src arg s, [])

/-! ### Class operations (R80, R81, R112, R304–R306) -/

/-- Key of a desired level: one per code, one TEXT per line (R304). -/
def levelKey (code : Nat) (p : List Byte) : Nat := 256 * code + (if code = 0x30 then imgB p 0 else 0)

/-- Keep a desired level; ENABLE and DISABLE are one level (R304). -/
def setLevel (code : Nat) (p : List Byte) (x : DeviceSt) : DeviceSt :=
  let d := if code = 0x10 then Tab.del x.desired (256 * 0x11) else if code = 0x11 then Tab.del x.desired (256 * 0x10)
    else x.desired
  { x with desired := Tab.put d (levelKey code p) p }

/-- Carry out a legal class operation of a kind: what came of it, or `none` where nothing takes it (R112). A level set
in a state other than READY and its sub-states is only stored (R81). -/
def runOp (t d code kind tag : Nat) (p : List Byte) (s : State) : Option FAcc :=
  let x := dev s t d
  let g := if kind = 0 then none else some tag
  if kind = 0 ∧ !isReady (stateCode x) then some (FAcc.start s)
  else match lcOp t d code p g s with
    | some s => some { FAcc.start s with sent := true }
    | none => match fireSrc t d 0 3 code g (loadOp t d 0 code p s) with
      | some (true, a) => some a
      | some (false, _) | none => none

/-- What follows a class operation that was carried out: the desired level is kept, or the exclusive sequence starts
unless its output was dropped (R305). A command to the device's load channel counts as a byte toward the partner (log
entry 84). -/
def afterOp (t d code kind tag us : Nat) (p : List Byte) (a : FAcc) : State :=
  if kind = 0 then updDev t d (setLevel code p) a.s
  else if kind = 2 ∧ !a.lost then seqStart t d tag code us a.sent a.s
  else a.s

/-- Journal a state conflict (R80, R86). -/
def jConflict (t d tag op st : Nat) : State → State := jDevice 0 t d tag [BitVec.ofNat 8 op, BitVec.ofNat 8 st]

/-- A class operation that the tenant-side machine emits (R74, R86, R111). -/
def judgeX (t d code : Nat) (p : List Byte) (tag : Option Nat) (s : State) : State × List Work :=
  let x := dev s t d
  let tg := tag.elim 0 (fun g => g)
  let img := (tenantSide s x).elim [] (fun i => i)
  let ent := opEnt img 0 code
  let refuse := fun (st : Nat) (s : State) =>
    let s := jConflict t d tg code st s
    let f := ent.elim 0xFF (fun e => e.form1)
    if f = 0xFF then respond t (0x80 + code) tg d 3 st [] s else xForm t d f s
  if legalOp s x code ≠ 0 then (refuse (stateCode x) s, [])
  else
    let kind := ent.elim 1 (fun e => e.outkind)
    match runOp t d code kind tg p s with
    | some a =>
      let us := ent.elim 0 (fun e => e.timeout)
      (afterOp t d code kind tg (if us = 0 then 500000 else us) p a, a.out)
    | none =>
      let known := (sideImg s x 0).elim false (fun i => (machOf i 0).elim false (fun m => (m.inputNo 3 code).isSome))
      (refuse (if known then stateCode x else 2) s, [])

/-- A class message slot in class presentation (R303–R306): its status, the state and the works that follow. -/
def classOp (t d code tag : Nat) (p : List Byte) (s : State) : Nat × State × List Work :=
  let x := dev s t d
  if x.present ≠ 1 ∧ stateCode x ≠ 0 then (2, s, [])
  else if !msgArgOk code p then (2, s, [])
  else
    let l := legalOp s x code
    if l ≠ 0 then (l, if l = 3 then jConflict t d tag (0x80 + code) (stateCode x) s else s, [])
    else
      let kind := (kindOf s x code).elim 1 (fun k => k)
      match runOp t d code kind tag p s with
      | some a =>
        let s := afterOp t d code kind tag 500000 p a
        (0, updDev t d (fun x => { x with shown := stateCode x }) s, a.out)
      | none => (3, jConflict t d tag (0x80 + code) (stateCode x) s, [])

/-! ### Items of R76 step 1 -/

/-- Add a reading to the settle trace of a device (R189): the answer tells whether it joined one. -/
def addReading (t d : Nat) (k : Packet) (body : List Byte) (s : State) : Bool × State :=
  let x := dev s t d
  let r : Reading := (imgB body 9, signedOf 32 (leAt body 0 4), signedOf 32 (leAt body 4 4), k.turn, x.present = 1, k)
  let is_ := fun (tr : STrace) => tr.tenant = t && tr.dev = d
  if s.journal.traces.any is_ then
    (true, updJnl (fun j => { j with traces := j.traces.map (fun tr =>
                                       if is_ tr then { tr with reads := r :: tr.reads } else tr) }) s)
  else if Reading.status r = 1 then
    (true, updJnl (fun j => { j with traces := j.traces ++ [{ tenant := t, dev := d, port := k.port, reads := [r] }] }) s)
  else (false, s)

/-- Close the settle trace of a device at its first reading without motion, or its 64th (R189). -/
def settleCheck (t d : Nat) (s : State) : State :=
  match s.journal.traces.find? (fun tr => tr.tenant = t && tr.dev = d) with
  | some tr => match tr.reads with
    | r :: _ => if Reading.status r ≠ 1 ∨ 64 ≤ tr.reads.length then settleClose t d s else s
    | [] => s
  | none => s

/-- The partner-side machine takes a parsed packet: whether a transition fired, and what it did (R72, R105). -/
def packetFire (t d pk : Nat) (img : List Byte) (ps : Parsed) (s : State) : Bool × FAcc :=
  let s := if pk = 0 then updMach t d 0 (setVars ps.vals) s else s
  match machOf img 0 with
  | some m => match m.packetInput ps.fmt pk with
    | some i => fireNo (ctxOf t d 0 img (if pk = 0 then 0 else 1) i none) m i s
    | none => (false, FAcc.start s)
  | none => (false, FAcc.start s)

/-- The packet was expected by no transition (R109): an input exists or the packet is well formed, and nothing fired. -/
def packetOdd (pk : Nat) (img : List Byte) (ps : Parsed) (fired : Bool) : Bool :=
  !fired && ((match machOf img 0 with
    | some m => m.packetInput ps.fmt pk
    | none => none).isSome || pk = 0)

/-- A reading joins the settle trace (R189), where the packet's bytes were held back for it. -/
def packetTrace (t d : Nat) (k : Packet) (wt : Option (List Byte)) (s : State) : Bool × State :=
  match wt with
  | some body => if k.held.isEmpty then (false, s) else addReading t d k body s
  | none => (false, s)

/-- Flags of a packet as the tables of the frame give them: those of its end, and the parse's (R105, R132). -/
def pkNow (s : State) (k : Packet) (ps : Parsed) : Nat :=
  if isFar k.port || isPaytunnel s k.port || (portImg s k.port).isNone then k.pk else k.base ||| ps.flags

/-- What the tenant is shown of a flagged packet (R87); nothing where the transition held (R110). -/
def packetShow (t d : Nat) (k : Packet) (x : DeviceSt) (s : State) : State :=
  let pk := k.pk % 16
  if pk = 0 then s
  else if x.present = 1 then
    notice t d 2 0 (stampBytes (stampAt s k.turn) ++ le 2 pk ++ le 2 k.bytes.length ++ le 4 0 ++ k.bytes.map (fun b => b.val)) s
  else xForm t d ((opEnt ((tenantSide s x).elim [] (fun i => i)) 2 0).elim 0xFF (fun e => e.form1)) s

/-- A packet (R72–R76, R87, R105, R109, R112): in raw presentation a data slot; else the partner-side machine takes it,
and a flagged one is shown as its presentation says. -/
def packetItem (t d : Nat) (k : Packet) (s : State) : State × List Work :=
  let x := dev s t d
  let raw := k.bytes.map (fun b => b.val)
  let pk := k.pk % 16
  if x.present = 0 then
    (jPacket k.turn k.port k.pk k.bytes.length (stageSlots t (dataSlots d 0 (stampAt s k.turn) pk raw) s), [])
  else
    let img := (imgOf s k.port).elim [] (fun i => i)
    let ps := parsePkt (formats img) raw
    let k := { k with pk := pkNow s k ps }
    let pk := k.pk % 16
    let r := packetFire t d pk img ps s
    let a := r.2
    let odd := packetOdd pk img ps r.1
    let s := if odd then jIgnored t d 0 (if pk = 0 then 0 else 1) pk (updDev t d (fun x => { x with unexpected := x.unexpected + 1 }) a.s)
      else a.s
    let tr := packetTrace t d k a.wt s
    let s := if a.held then tr.2 else packetShow t d k x tr.2
    let s := if tr.1 then s
      else jPacket k.turn k.port (k.pk + (if a.sup then 0x20 else 0) + (if odd then 0x40 else 0)) k.bytes.length
        (if k.held.isEmpty then s else jHeld k.port k.held s)
    (s, a.out)

/-- The port became ACTIVE (R90, R114): SOURCE 4 is presented to both machines, and the level state re-applied. -/
def becameActive (t d : Nat) (s : State) : State × List Work :=
  let s := updDev t d (fun x => { x with pst := 3, reapply := true }) s
  let x := dev s t d
  let src4 := fun side => if (sideImg s x side).isSome then
    [Work.mach { side := side, source := 4, arg := 0, payload := [], tag := none }] else []
  (s, src4 0 ++ src4 1)

/-- A port event (R78, R90, R126): the device's port state follows. -/
def portItem (t d code arg : Nat) (s : State) : State × List Work :=
  let pst := fun (f : Nat → Nat) (s : State) => updDev t d (fun x => { x with pst := f x.pst }) s
  match code with
  | 1 => (pst (fun p => if p = 5 ∧ arg = 0 then 6 else 1) s, [])
  | 2 =>
    let s := if arg = 0 then s
      else updDev t d (fun x => { x with view := 2 })
        (notice t d 4 0 (le 8 arg ++ stampBytes (stampAt s (dev s t d).turn)) (jDevice 3 t d 0 (le 8 arg) s))
    becameActive t d s
  | 3 => (pst (fun _ => 0) s, [])
  | 4 => (pst (fun p => if p = 1 then 0 else 5) (settleClose t d s), [])
  | 5 => becameActive t d s
  | 6 => (pst (fun _ => 1) s, [])
  | 7 => (pst (fun _ => 4) s, [])
  | 8 => becameActive t d s
  | 9 => (updDev t d (fun x => { x with byp := true }) s, [])
  | 10 => (updDev t d (fun x => { x with byp := false, pst := arg }) s, [])
  | 11 => (pst (fun _ => 0) (settleClose t d s), [])
  | 12 => (pst (fun _ => 1) s, [])
  | _ => (s, [])

/-- A load-channel event (R170, R172, R305). -/
def loadItem (t d kind : Nat) (s : State) : State :=
  match kind with
  | 1 => updDev t d (fun x => { x with trip := true, kick := false }) s
  | 7 | 11 => updDev t d (fun x => { x with kick := false }) s
  | 10 => updDev t d (fun x => { x with kick := true }) s
  | 6 =>
    let s := updDev t d (fun x => { x with kick := false }) s
    match (dev s t d).seq with
    | some q => if q.code = 0x40 then seqFinish t d .ok s else s
    | none => s
  | 9 => updDev t d (fun x => { x with trip := false, reapply := true }) s
  | _ => s

/-- A machine timer's expiry, unless it was stopped or restarted since (R111). -/
def timerItem (t d side i : Nat) (s : State) : State × List Work :=
  if (machSt (dev s t d) side).timers[i]? = some Timer.expired then
    fireJ t d side 2 i none (updMach t d side (fun m => { m with timers := setNth m.timers i .off }) s)
  else (s, [])

/-- An item (R76 step 1), with the checks that follow it. -/
def itemWork (t d : Nat) (h : HItem) (s : State) : State × List Work :=
  let s := updDev t d (fun x => { x with turn := h.turn }) s
  let r : State × List Work := match h.item with
    | .packet k => packetItem t d k s
    | .port _ code arg => portItem t d code arg s
    | .load _ kind _ => (loadItem t d kind s, [])
    | .report tag sent => (dropNotice t d tag sent s, [])
    | .timer side i => timerItem t d side i s
    | .seqEnd => (match (dev s t d).seq with
        | some q => if q.timeoutUs = 0 then seqFinish t d .timeout s else s
        | none => s, [])
  (r.1, r.2 ++ [.after])

/-- After an item: the partner view's change is presented as SOURCE 5, or held as the table declares (R83, R109); a
STATE notice tells the tenant a new device state (R91). -/
def afterWork (t d : Nat) (s : State) : State × List Work :=
  let s := settleCheck t d s
  let x := dev s t d
  if pvCode x ≠ x.pv ∧ x.present = 2 then
    (updDev t d (fun x => { x with pv := pvCode x }) s,
     [.mach { side := 1, source := 5, arg := pvCode x, payload := [], tag := none }, .after])
  else
    let s := updDev t d (fun x => { x with pv := pvCode x }) s
    let st := stateCode x
    if st = x.shown then (s, [])
    else (updDev t d (fun x => { x with shown := st })
      (notice t d 1 0 ([BitVec.ofNat 8 st, BitVec.ofNat 8 x.shown] ++ stampBytes (stampAt s x.turn))
        (if isReady st then markActed t d s else s)), [])

/-! ### Levels, streams and passed inputs -/

/-- Apply the first of a list of desired levels (R90, R114), the rest following. -/
def levelWork (t d : Nat) : List (Nat × List Byte) → State → State × List Work
  | [], s => (s, [])
  | (k, p) :: ls, s =>
    let code := k / 256
    match lcOp t d code p none s with
    | some s => (s, [.levels ls])
    | none =>
      if pvCode (dev s t d) = 1 ∨ !isReady (pvCode (dev s t d)) then (s, [.levels ls])
      else
        let r := fireJ t d 0 3 code none (loadOp t d 0 code p s)
        (r.1, r.2 ++ [.levels ls])

/-- A record of an X stream ends after `buf`'s first bytes: the tenant-side machine takes it (R72, R74, R105); one that no
transition takes is unexpected and counted (R112). -/
def streamRecord (t d : Nat) (img cut rest : List Byte) (fl : Nat) (last : Bool) (tag : Nat) (s : State) : State × List Work :=
  let ps := parsePkt (formats img) cut
  let pk := fl ||| ps.flags
  let s := updDev t d (fun x => { x with xbuf := [] }) s
  let s := if pk = 0 then updMach t d 1 (setVars ps.vals) s else s
  let more := if rest.isEmpty then [] else [Work.stream rest last tag]
  let odd := fun (s : State) =>
    jIgnored t d 1 (if pk = 0 then 0 else 1) pk (updDev t d (fun x => { x with unexpected := x.unexpected + 1 }) s)
  match machOf img 1 with
  | none => (s, more)
  | some m => match m.packetInput ps.fmt pk with
    | none => (if pk = 0 then odd s else s, more)
    | some i =>
      let r := fireNo { ctxOf t d 1 img (if pk = 0 then 0 else 1) i (some tag) with xin := true } m i s
      if r.1 then (r.2.s, r.2.out ++ more) else (odd s, more)

/-- Bytes of the tenant's X stream (R74, R105, R106): the first message that ends in them is presented to the
tenant-side machine, the rest follows; LAST ends a message that is still open. -/
def streamWork (t d : Nat) (bytes : List Byte) (last : Bool) (tag : Nat) (s : State) : State × List Work :=
  let x := dev s t d
  match tenantSide s x with
  | none => (s, [])
  | some img =>
    let buf := x.xbuf ++ bytes
    let cut : Option (Nat × Nat) := match firstEnd (inFormats img) buf with
      | some (n, bad) => some (n, if bad then 4 else 0)
      | none => if last && !buf.isEmpty then some (buf.length,
          if (decideFmt (inFormats img) buf).elim false (fun f => f.elim false (fun f => f.lenrule = 3)) then 0 else 1) else none
    match cut with
    | none => (updDev t d (fun x => { x with xbuf := buf }) s, [])
    | some (n, fl) => streamRecord t d img (buf.take n) (buf.drop n) fl last tag s

/-- An input passed to a machine (R109, R111): a class operation from the tenant-side machine is judged; a class event
is presented with its values; a change of partner view that is no input follows the operation map. -/
def machWork (t d : Nat) (m : MachIn) (s : State) : State × List Work :=
  if m.side = 0 ∧ m.source = 3 then judgeX t d m.arg m.payload m.tag s
  else if m.side = 1 ∧ m.source = 5 then
    match fireSrc t d 1 5 m.arg none s with
    | some (true, a) => (a.s, a.out)
    | some (false, _) => (jIgnored t d 1 5 m.arg s, [])
    | none =>
      let f := (tenantSide s (dev s t d)).elim 0xFF (fun i => (opEnt i 1 m.arg).elim 0xFF (fun e => e.form1))
      (if f = 0xFE then jDevice 7 t d 0 [BitVec.ofNat 8 m.arg] s else jIgnored t d 1 5 m.arg s, [])
  else fireJ t d m.side m.source m.arg m.tag (if m.source = 3 then loadOp t d m.side m.arg m.payload s else s)

/-! ### Tenant commands on a device (R69, R70, R81, R303) -/

/-- The 32-byte virtual device record (R69). -/
def devRecord (s : State) (x : DeviceSt) : List Byte :=
  [BitVec.ofNat 8 x.cls, BitVec.ofNat 8 x.present] ++ le 2 (portNo s x.port) ++ le 4 x.tapt ++
  [BitVec.ofNat 8 (stateCode x), BitVec.ofNat 8 x.flags] ++ le 2 0 ++ le 4 x.windowUs ++ List.replicate 16 0

/-- The state codes a partner-side table can set: its DSTATE operands and 0x02 (R116). -/
def dstates (img : List Byte) : List Nat :=
  2 :: ((machOf img 0).elim [] (fun m => (m.acts.filter (fun w => bitsOf w 31 24 = 6)).map (fun w => bitsOf w 7 0)))

/-- A tenant-side table covers the codes of a partner-side table (R116). -/
def covers (timg pimg : List Byte) : Bool :=
  (dstates pimg).all (fun c => (machOf timg 1).elim false (fun m => (m.inputNo 5 c).isSome) || (opEnt timg 1 c).isSome)

/-- A presentation is allowed for a class (R71). -/
def allowed (cls present : Nat) : Bool :=
  if cls = 7 then present = 0 else if cls = 8 then present = 0 || present = 2 else true

/-- What the chip of a far port answers to a bind (R70, R341, log entry 80): its port's state, or `none`. No device of this
chip may have the port, and a head knows which chips it has admitted. -/
def farAnswer (s : State) (t p : Nat) : Option Nat :=
  if 64512 ≤ p - 0x10000 ∨ !isSet s fGrpAdmitted ∨ farIsLost s p ∨ (isHead s ∧ (seatOfIndex s ((p - 0x10000) / 1024)).isNone) ∨
      s.devices.any (fun q => q.2.bound && q.2.port = p) then none
  else Config.farPort (fresh s) (p - 0x10000) t

/-- The port of a bind exists, is bound to no other device and is granted to the tenant (R70, R303). -/
def portFree (s : State) (t p : Nat) : Bool :=
  if isFar p then (farAnswer s t p).isSome
  else decide (p < 1024) && (port s p).defined && (port s p).bound.isNone && (port s p).grant = some t

/-- The conditions of a bind (R70, R116, R303). PORT 0xFFFF binds no port, for the classes of R172 (log entry 21). The
fields that R69 gives as 0 for the class or presentation must be 0 (log entry 85). -/
def bindOk (s : State) (t : Nat) (r : List Byte) : Bool :=
  let cls := imgB r 0
  let present := imgB r 1
  let p := portOf s (leAt r 2 2)
  let tapt := leAt r 4 4
  let win := leAt r 12 4
  decide (cls ≤ 8 ∧ present ≤ 2) && allowed cls present && imgB r 9 / 2 = 0 && zeroAt r 10 2 && zeroAt r 16 16 &&
  (if cls = 0 then decide (1 ≤ win ∧ win ≤ 10000000) else win = 0 && imgB r 9 = 0) &&
  (if present = 2 then (tenantImg s tapt).elim false (fun i => aptClass i = cls) else tapt = 0) &&
  (if p = 0xFFFF then lcClass cls
   else portFree s t p && (present ≠ 2 || (tenantImg s tapt).elim false (fun ti => (imgOf s p).elim true (covers ti))))

/-- A message to the chip of a far port (R343, log entry 33): KIND 5 tells it that a device is bound to the port, KIND 6
that it is not any more. -/
def tellFar (kind t d p : Nat) (s : State) : State :=
  if isFar p then
    drnRoute 8 (portSeat p) ([BitVec.ofNat 8 kind, BitVec.ofNat 8 d] ++ le 2 t ++ le 2 (getF s (fGen t)) ++ le 2 4 ++ le 8 (frameNo s + 2) ++
      le 2 (p - 0x10000) ++ le 2 (ownSeat s)) s
  else s

/-- Initial state of a machine of an image (R108). -/
def startMach (img : Option (List Byte)) (side : Nat) : MachSt :=
  { initMach with state := img.elim 0 (fun i => (machOf i side).elim 0 (fun m => m.initial)) }

/-- A bind that is accepted (R69, R70): the record is kept, the port's present state is taken, levels are idle. -/
def bindNow (t d : Nat) (r : List Byte) (s : State) : State :=
  let p := portOf s (leAt r 2 2)
  let ti := tenantImg s (leAt r 4 4)
  let q := port s p
  let st := if isFar p then (farAnswer s t p).elim 0 (fun n => n) else q.state
  let s := updDev t d (fun x => idleLevels { x with
                                             bound := true, cls := imgB r 0, present := imgB r 1, port := p, tapt := leAt r 4 4,
                                             tmajor := (if imgB r 1 = 2 then ti.elim 0 aptMajor else 0), flags := imgB r 9, windowUs := leAt r 12 4,
                                             pst := (if p = 0xFFFF then 0 else st), byp := (p ≠ 0xFFFF && q.bypassed), view := 2, seq := none,
                                             pm := startMach (if p = 0xFFFF then none else imgOf s p) 0, tm := startMach (if imgB r 1 = 2 then ti else none) 1,
                                             drdEnd := none, reading := none, xbuf := [], carried := [], reapply := false, desired := [] }) s
  let s := updDev t d (fun x => { x with shown := stateCode x, pv := pvCode x }) s
  if p = 0xFFFF then s
  else if isFar p then tellFar 5 t d p s
  else
    let s := updPort p (fun x => { x with bound := some (devIx t d) }) s
    if imgB r 0 = 7 then pslotGap p s else s

/-- One-shots of a device that have not entered the FIFO of its port (R81). -/
def pendingOneshots (s : State) (t d : Nat) : List OutMsg := (tenantOuts s t).filter (fun o => o.dev = d && o.tag.isSome)

/-- Take a device's one-shots that have not entered the FIFO out of the machine (R81). -/
def takeOneshots (t d : Nat) (s : State) : State :=
  let mine := fun (o : OutMsg) => decide (o.tenant = t ∧ o.dev = d) && o.tag.isSome
  let keep := fun (c : Crossing) => !(crossOut c).any mine
  let s := mapRemote (fun q => q.filter (fun r => keep r.2.2.2)) (mapDelayed (fun q => q.filter (fun r => keep r.2.2)) s)
  let f := frameNo s
  let s := updGroup (fun g => { g with farOut := g.farOut.filter (fun q => !(mine q.2 && decide (f < q.1))) }) s
  updTen t (fun x => { x with outs := x.outs.filter (fun o => !mine o) }) s

/-- The device without its port (R81): an attached load channel stays, with the device's class. -/
def unboundDev (x : DeviceSt) : DeviceSt :=
  { dropWork x with port := 0xFFFF, bound := x.chan.isSome, pst := 0, byp := false, view := 2, desired := [],
                    reading := none, drdEnd := none, tapt := (if x.chan.isSome then x.tapt else 0) }

/-- Unbind a device from its port: its one-shots not yet in the FIFO are journaled and taken out; `report` tells
whether the tenant is told of each (R81, R88). -/
def unbindDev (t d : Nat) (report : Bool) (s : State) : State :=
  let x := dev s t d
  let os := pendingOneshots s t d
  let s := settleClose t d (takeOneshots t d s)
  let s := each os (fun o s =>
    let g := o.tag.elim 0 (fun g => g)
    let s := jDevice 9 t d g [] s
    if report then dropNotice t d g 0 s else s) s
  let here := decide (x.port < 0xFFFF)
  let s := if here then updPort x.port (fun y => { y with bound := none }) s else tellFar 6 t d x.port s
  let s := if x.cls = 7 && here then pslotGap x.port s else s
  let s := updDev t d unboundDev s
  updDev t d (fun x => { x with shown := stateCode x, pv := pvCode x }) s

/-- LOAD_CLEAR (R171, R303). -/
def loadClear (t d tag : Nat) (s : State) : Nat × Nat × State :=
  let x := dev s t d
  match x.chan with
  | none => (2, stateCode x, s)
  | some c =>
    let cause := getF s (fLcCause c)
    if lcState s c = 5 ∧ !(cause = 2 ∨ cause = 3 ∨ cause = 5) then (3, 6, jConflict t d tag 0x0A 6 s)
    else (0, stateCode x, lcStageTenant c 6 (some tag) s)

/-- DATA_SEND in raw presentation (R71, R72, R303): its bytes are a one-shot with its tag, staged in the frame in which it is
processed; LAST ends the message (log entry 45). -/
def rawSend (t d tag : Nat) (last : Bool) (p : List Byte) (s : State) : State :=
  if p.isEmpty then s else (stagePort t d (some tag) last p s).2

/-- DATA_SEND (R303): status, state and what follows. -/
def dataSendOp (t d tag : Nat) (last : Bool) (p : List Byte) (s : State) : Nat × State × List Work :=
  let x := dev s t d
  let st := stateCode x
  if st = 0 then (3, jConflict t d tag 7 st s, [])
  else if x.present = 1 then (2, s, [])
  else if x.present = 2 then (0, s, [.stream p last tag])
  else if isReady st then (0, rawSend t d tag last p s, [])
  else (3, jConflict t d tag 7 st s, [])

/-- A device's command slot, judged and well formed: it is carried out and its response staged (R303). During BUSY, UNBIND
and LOAD_CLEAR are judged as in any other bound state (R81, R171), not as state conflicts (R85; log entry 86). -/
def devCommand (t d : Nat) (sl : Slot) (s : State) : State × List Work :=
  let op := slotOp sl
  let tag := slotTag sl
  let p := slotPayload sl
  let st := stateCode (dev s t d)
  let say := fun (status state : Nat) (pl : List Byte) (s : State) => respond t op tag d status state pl s
  if 0x80 ≤ op then
    let r := classOp t d (op - 0x80) tag p s
    (say r.1 st [] r.2.1, r.2.2)
  else match op with
    | 0x04 =>
      if imgB p 0 = 0 then (say 0 st (devRecord s (dev s t d)) s, [])
      else if imgB p 0 = 1 then (say 0 st ((dev s t d).reading.elim [] (fun r => r.2)) s, [])
      else (say 2 st [] s, [])
    | 0x05 =>
      if st ≠ 0 then (say 3 st [] (jConflict t d tag 5 st s), [])
      else
        let asked := if isFar (portOf s (leAt p 2 2)) then useFresh else fun s => s
        if bindOk s t (padTo 32 p) then (say 0 st [] (asked (bindNow t d (padTo 32 p) s)), [])
        else (say 2 st [] (asked s), [])
    | 0x06 =>
      if st = 0 then (say 3 st [] (jConflict t d tag 6 st s), [])
      else
        let n := (pendingOneshots s t d).length
        (say 0 st (le 2 n) (unbindDev t d true s), [])
    | 0x07 =>
      let r := dataSendOp t d tag (slotFlags sl / 2 % 2 = 1) p s
      (say r.1 st [] r.2.1, r.2.2)
    | _ =>
      let r := loadClear t d tag s
      (say r.1 r.2.1 [] r.2.2, [])

/-- One piece of a device's work. -/
def workStep (t d : Nat) (w : Work) (s : State) : State × List Work :=
  match w with
  | .item h => itemWork t d h s
  | .slot sl => devCommand t d sl s
  | .stream bs last tag => streamWork t d bs last tag s
  | .mach m => machWork t d m s
  | .levels ls => levelWork t d ls s
  | .after => afterWork t d s

/-- Carry work to the next frame (R113). -/
def carry (t d : Nat) (ws : List Work) (s : State) : State :=
  match ws with
  | [] => s
  | _ :: _ => updDev t d (fun x => { x with carried := x.carried ++ ws }) (jDevice 6 t d 0 [] s)

/-- Work through a device's works in order, each one's inputs before the next (R76, R111); the frame ends for the
device at its 64th transition (R113). What the fuel does not reach is carried. -/
def runWork : Nat → Nat → Nat → List Work → State → State
  | 0, t, d, ws, s => carry t d ws s
  | n + 1, t, d, ws, s =>
    match ws with
    | [] => s
    | w :: rest =>
      if 64 ≤ transNow (frameNo s) (dev s t d) then carry t d (w :: rest) s
      else
        let r := workStep t d w s
        runWork n t d (r.2 ++ rest) r.1

/-- Fuel for one piece of work: its transitions emit at most 64 × 16 inputs. -/
def workFuel : Nat := 4096

/-- Give a device a piece of work: behind what it carries, or at once. -/
def giveWork (t d : Nat) (w : Work) (s : State) : State :=
  if (dev s t d).carried.isEmpty then runWork workFuel t d [w] s
  else updDev t d (fun x => { x with carried := x.carried ++ [w] }) s

/-! ### Tenant commands (R291, R303) -/

/-- TSTAT of a tenant (R289). -/
def tstat (s : State) (t : Nat) : Word :=
  BitVec.ofNat 32 (65536 * getF s (fGen t) + 512 * getF s (fGuarded t) + 256 * getF s (fDegraded t) + getF s (fTState t))

/-- Payload of IDENTIFY (R303, R183, R341): `none` for a PART that does not exist. -/
def identify (s : State) (t part : Nat) : Option (List Byte) :=
  idPayload s (256 * bitsOf (reg s 0x42000400) 24 16 + t)
    (devIds.foldl (fun n d => if stateCode (dev s t d) = 0 then n else n + 2 ^ d) 0) part

/-- Payload of TENANT_STATUS (R303). -/
def statusPayload (s : State) (t : Nat) : List Byte :=
  le 4 (tstat s t).toNat ++ le 4 (reg s (0x45000400 + 4 * t)).toNat ++ le 4 (getF s (fRejects t)) ++
  le 4 (getF s (fOutLost t)) ++ le 8 (frameNo s)

/-- Opcodes a virtual function takes (R303). -/
def isTenantOp (op : Nat) : Bool := decide (1 ≤ op ∧ op ≤ 0x0A) || (decide (0x80 ≤ op) && (msgInfo (op - 0x80)).isSome)

/-- Opcodes that act on a device. -/
def isDevOp (op : Nat) : Bool := decide (0x80 ≤ op) || op = 4 || op = 5 || op = 6 || op = 7 || op = 0x0A

/-- Least payload of a tenant command. -/
def needLen (op : Nat) : Nat := if op = 2 ∨ op = 4 then 1 else if op = 5 then 32 else if 0x80 ≤ op then msgLen (op - 0x80) else 0

/-- The checks of R291 on a virtual function: the status of the first that fails, or 0. -/
def judgeSlot (sl : Slot) : Nat :=
  let op := slotOp sl
  if slotKind sl ≠ 0 ∨ !(isTenantOp op || decide (0x40 ≤ op ∧ op ≤ 0x66)) then 1
  else if 0x40 ≤ op ∧ op ≤ 0x66 then 6
  else if slotRsv sl ∨ 52 < slotLen sl ∨ slotLen sl < needLen op then 2
  else 0

/-- STATE of a response that is not a device's (R290). -/
def failState (s : State) (t dv : Nat) : Nat := if dv < 16 then stateCode (dev s t dv) else getF s (fTState t)

/-- A command slot of a tenant that acts on no device. -/
def tenantCommand (t : Nat) (sl : Slot) (s : State) : State :=
  let dv := slotDev sl
  let ok := fun (pl : List Byte) (s : State) =>
    respond t (slotOp sl) (slotTag sl) dv 0 (if dv < 16 then stateCode (dev s t dv) else 0) pl s
  match slotOp sl with
  | 2 => match identify s t (imgB (slotPayload sl) 0) with
    | some pl => ok pl s
    | none => respond t 2 (slotTag sl) dv 2 (failState s t dv) [] s
  | 3 => ok (statusPayload s t) s
  | 8 => resetStart t s
  | 9 => ok [] (setF (fDegraded t) 0 s)
  | _ => ok [] s

/-- Process a command slot of a tenant (R76 step 3, R291). -/
def processSlot (t : Nat) (sl : Slot) (s : State) : State :=
  let dv := slotDev sl
  let st := judgeSlot sl
  if st ≠ 0 then respond t (slotOp sl) (slotTag sl) dv st (failState s t dv) [] s
  else if isDevOp (slotOp sl) then
    (if dv < 16 then giveWork t dv (.slot sl) s
     else respond t (slotOp sl) (slotTag sl) dv 2 (failState s t dv) [] s)
  else tenantCommand t sl s

/-! ### The hand-off set (R76) -/

/-- Insert an item by its turn and key, behind its equals. -/
def insertItem (h : HItem) : List HItem → List HItem
  | [] => [h]
  | g :: gs => if h.turn < g.turn ∨ (h.turn = g.turn ∧ h.key < g.key) then h :: g :: gs else g :: insertItem h gs

/-- Items in the order of R76: recorded turns, then lowest pad numbers, then the order of recording. -/
def sortItems (hs : List HItem) : List HItem := hs.foldl (fun l h => insertItem h l) []

/-- R76 step 2: the desired levels of a device that is due re-application. -/
def reapplyDev (t d : Nat) (s : State) : State :=
  if (dev s t d).reapply then
    let s := updDev t d (fun x => { x with reapply := false }) s
    giveWork t d (.levels (dev s t d).desired) s
  else s

/-- A tenant's work goes on only while it is ACTIVE (R93: a reset abandons it). -/
def whileActive (t : Nat) (f : State → State) (s : State) : State := if tActive s t then f s else s

/-- Process a hand-off set: carried work first, unless the frame has ended for the device (R113), then the three steps of
R76. -/
def processSet (t : Nat) (h : HandSet) (s : State) : State :=
  let s := each devIds (fun d s =>
    let ws := (dev s t d).carried
    if ws.isEmpty || decide (64 ≤ transNow (frameNo s) (dev s t d)) then s else runWork workFuel t d ws (updDev t d (fun x => { x with carried := [] }) s)) s
  let s := each (sortItems h.items) (fun i => whileActive t (giveWork t i.dev (.item i))) s
  let s := each devIds (fun d => whileActive t (reapplyDev t d)) s
  each h.slots (fun sl => whileActive t (processSlot t sl)) s

/-- HANDOFF_PROCESS (R50, R76): from turn 24, the sets handed to the tenant are processed in frame order. -/
def execHandoffProcess (t : TenantId) (s : State) : Outcome :=
  match (ten s t.val).handed with
  | [] => done s
  | hs =>
    if tActive s t.val then
      let s := goTo (s.time.cur.start + 24) s
      done (each hs (processSet t.val) (updTen t.val (fun x => { x with handed := [], hadWork := true }) s))
    else done s

/-- SEQ_TIMEOUT (R85): the window of the device's exclusive sequence ends; the expiry is a port event. -/
def execSeqTimeout (t : TenantId) (d : DevId) (s : State) : Outcome :=
  match (dev s t.val d.val).seq with
  | some q => atDue q.ends (fun s =>
      sendItem t.val d.val (now s) (portKey s (dev s t.val d.val).port) false .seqEnd
        (updDev t.val d.val (fun x => { x with seq := some { q with timeoutUs := 0, ends := none } }) s)) s
  | none => done s

/-- MACHINE_TIMER_EXPIRY (R111). -/
def execMachineTimerExpiry (t : TenantId) (d : DevId) (side : Fin 2) (timer : Fin 4) (s : State) : Outcome :=
  match (machSt (dev s t.val d.val) side.val).timers[timer.val]? with
  | some (.run e) => atDue (some e) (fun s =>
      sendItem t.val d.val (now s) (portKey s (dev s t.val d.val).port) false (.timer side.val timer.val)
        (updMach t.val d.val side.val (fun m => { m with timers := setNth m.timers timer.val .expired }) s)) s
  | some .off | some (.start _) | some .expired | none => done s

/-! ### The tenant commands as commands of the block -/

/-- The slot of a tenant command. -/
def cmdSlot (op : Nat) (x : TCmd) : Slot :=
  [BitVec.ofNat 8 op, 0] ++ le 2 x.tag.toNat ++ [x.device, x.flags, 0, 0, BitVec.ofNat 8 (min 255 x.payload.length), 0, 0, 0] ++
  padTo 52 x.payload

/-- A tenant command reaches the lane core (R76 step 3, R303): it is processed while the tenant is ACTIVE. -/
def tenantOp (op : Nat) (x : TCmd) (s : State) : Outcome :=
  done (whileActive x.tenant.val (processSlot x.tenant.val (cmdSlot op x)) s)

def execKysanNop (x : TCmd) (s : State) : Outcome := tenantOp 0x01 x s
def execIdentify (x : TCmd) (s : State) : Outcome := tenantOp 0x02 x s
def execTenantStatus (x : TCmd) (s : State) : Outcome := tenantOp 0x03 x s
def execDeviceQuery (x : TCmd) (s : State) : Outcome := tenantOp 0x04 x s
def execBind (x : TCmd) (s : State) : Outcome := tenantOp 0x05 x s
def execUnbind (x : TCmd) (s : State) : Outcome := tenantOp 0x06 x s
def execDataSend (x : TCmd) (s : State) : Outcome := tenantOp 0x07 x s
def execTenantReset (x : TCmd) (s : State) : Outcome := tenantOp 0x08 x s
def execClearDegraded (x : TCmd) (s : State) : Outcome := tenantOp 0x09 x s
def execLoadClear (x : TCmd) (s : State) : Outcome := tenantOp 0x0A x s
def execScannerEnable (x : TCmd) (s : State) : Outcome := tenantOp 0x90 x s
def execScannerDisable (x : TCmd) (s : State) : Outcome := tenantOp 0x91 x s
def execScannerBeep (x : TCmd) (s : State) : Outcome := tenantOp 0x92 x s
def execUnits (x : TCmd) (s : State) : Outcome := tenantOp 0xA0 x s
def execTare (x : TCmd) (s : State) : Outcome := tenantOp 0xA1 x s
def execZero (x : TCmd) (s : State) : Outcome := tenantOp 0xA2 x s
def execWeigh (x : TCmd) (s : State) : Outcome := tenantOp 0xA3 x s
def execText (x : TCmd) (s : State) : Outcome := tenantOp 0xB0 x s
def execBrightness (x : TCmd) (s : State) : Outcome := tenantOp 0xB1 x s
def execCursor (x : TCmd) (s : State) : Outcome := tenantOp 0xB2 x s
def execAttention (x : TCmd) (s : State) : Outcome := tenantOp 0xB3 x s
def execDrawerKick (x : TCmd) (s : State) : Outcome := tenantOp 0xC0 x s
def execCodepage (x : TCmd) (s : State) : Outcome := tenantOp 0xD0 x s
def execDensity (x : TCmd) (s : State) : Outcome := tenantOp 0xD1 x s
def execPrintSeg (x : TCmd) (s : State) : Outcome := tenantOp 0xD2 x s
def execCut (x : TCmd) (s : State) : Outcome := tenantOp 0xD3 x s
def execLogo (x : TCmd) (s : State) : Outcome := tenantOp 0xD4 x s
def execPattern (x : TCmd) (s : State) : Outcome := tenantOp 0xE0 x s
def execKeyLeds (x : TCmd) (s : State) : Outcome := tenantOp 0xF0 x s
def execKeyLock (x : TCmd) (s : State) : Outcome := tenantOp 0xF1 x s
def execKeypadBeep (x : TCmd) (s : State) : Outcome := tenantOp 0xF2 x s

end Sys2Proof.Machine
end

