-- ==== Sys2Proof/Machine/JnlCmd.lean ====
section
/-! DEFINITION. The commands of the journal engine (spec/07_journal.md R180–R203): segment close, signing and commit,
enable, chain head and disable, members and their rebuild, and the register writes. -/

namespace Sys2Proof.Machine

/-- SEGMENT_TIME_CLOSE (R180): the open segment of a running engine, or of a member that sends its stream, closes 480,000,000
turns after its open turn. -/
def execSegmentTimeClose (s : State) : Outcome :=
  match s.journal.openSeg with
  | some g =>
    let e := g.openTurn + segTurns
    if limited s then atDue (some e) (closeSeg 1 e) s else done s
  | none => done s

/-- A write of JNL_CTRL.CLOSE (R180): a running engine closes its open segment. -/
def jnlCloseNow (s : State) : State := if isSet s fJnlRunning then closeSeg 2 (now s) s else s

/-- JNL_CTRL_CLOSE (R180, R201). -/
def execJnlCtrlClose (c : CoreId) (s : State) : Outcome := done (cpOnly c 0x40000000 jnlCloseNow s)

/-- SEGMENT_SIGN (R182, R194, R195). -/
def execSegmentSign (s : State) : Outcome := done (if isSet s fJnlRunning then signFirst s else s)

/-- SEGMENT_COMMIT (R196). -/
def execSegmentCommit (s : State) : Outcome := done (if isSet s fJnlRunning then commitFirst s else s)

/-- A mirrored primary names a valid mirror entry on another root port, with at least its capacity (R202). -/
def mirrorOk (s : State) (n : Nat) : Bool :=
  let m := getF s (fNsMirror n)
  !(nsPrimary s n && isSet s (fNsMirrored n)) ||
    (isSet s (fNsValid m) && isSet s (fNsIsMirror m) && getF s (fNsPort m) ≠ getF s (fNsPort n) &&
      decide ((reg s (0x40000104 + 16 * n)).toNat ≤ (reg s (0x40000104 + 16 * m)).toNat))

/-- Set JNL_STAT.CFGERR; control-processor source 4 occurs when it rises (R388). -/
def jnlCfgerr (s : State) : State := flag fJnlCfgerr (if isSet s fJnlCfgerr then s else occurCp 4 s)

/-- A write of 1 to JNL_CTRL.ENABLE (R198, R199, R201, R431): the entries pass identification, or ENABLE stays 0 and
CFGERR is set. -/
def jnlEnableNow (identified : Bool) (s : State) : State :=
  if isSet s fJnlEnable then s
  else if identified && !isSet s fKeyfail && (List.range 16).all (mirrorOk s) then jnlHealth (setF fJnlEnable 1 s)
  else jnlCfgerr s

/-- JNL_ENABLE (R199). `identified`: every controller and namespace named by a valid entry passes R198. -/
def execJnlEnable (c : CoreId) (identified : Bool) (s : State) : Outcome :=
  done (cpOnly c 0x40000000 (jnlEnableNow identified) s)

/-! ### The search for the chain head (R199) -/

/-- Where the search stands: the next address, each chain's next SEQ and last digest (the own chain under `none`), and the last
header that passed. -/
structure Walk where
  at_ : Nat
  chains : List (Option Nat × Nat × List Byte)
  last : List Byte
  deriving DecidableEq, Repr

/-- The chain of a header (R200): a member's where SEAT is not the SIGNER. -/
def headChain (h : List Byte) : Option Nat := if leAt h 80 2 = leAt h 82 2 then none else some (leAt h 80 2)

/-- The device public key X ‖ Y (R183). -/
def devKey : List Byte := (List.range 64).map Config.otpPubKey

/-- The checks of R199 and R201 that a header passes by itself: magic, address, signature and body digest. -/
def headSound (g : Seg) (h : List Byte) (a : Nat) : Bool :=
  slice h 0 4 = [0x4A, 0x53, 0x47, 0x31] && leAt h 16 8 = a &&
  ecdsaVerify devKey (sha256 (h.take 192)) (slice h 192 32) (slice h 224 32) && sha256 (segBody g) = slice h 128 32

/-- The segment at a journal address. -/
def segAt (s : State) (a : Nat) : Option Seg := s.journal.committed.find? (fun g => g.jaddr = a)

/-- A header that passes is taken. -/
def walkTake (s : State) (w : Walk) (g : Seg) (h : List Byte) : Walk :=
  { at_ := nextPlace s w.at_ (segSize g), last := h,
    chains := (headChain h, leAt h 8 8 + 1, sha256 h) :: w.chains.filter (fun c => c.1 ≠ headChain h) }

/-- Follow the placement rule through at most `n` headers (R199): each has the SEQ and PREV_DIGEST that its chain expects; a
member's chain is taken up at its first header (log entry 89). -/
def walkOn (s : State) : Nat → Walk → Walk
  | 0, w => w
  | n + 1, w => match segAt s w.at_ with
    | none => w
    | some g =>
      let h := g.header.elim [] (fun h => h)
      let fits := match w.chains.find? (fun c => c.1 = headChain h) with
        | some c => decide (leAt h 8 8 = c.2.1 ∧ slice h 96 32 = c.2.2)
        | none => (headChain h).isSome
      if headSound g h w.at_ && fits then walkOn s n (walkTake s w g h) else w

/-- The anchor that the engine takes (R199): the valid one with the higher count. -/
def bestAnchor (s : State) : Option (List Byte) :=
  let a := anchorAt s 0
  let b := anchorAt s 1
  let k := max (anchorCount a) (anchorCount b)
  if k = 0 then none else if anchorCount a = k then some a else some b

/-- The chain head (R199), from the anchor's segment on, with the anchor. Where that segment itself does not pass, no head is
found (log entry 89). -/
def findHead (s : State) : Option (List Byte × Walk) :=
  match bestAnchor s with
  | none => none
  | some a =>
    let at_ := leAt a 20 8
    match segAt s at_ with
    | none => none
    | some g =>
      let h := g.header.elim [] (fun h => h)
      if headSound g h at_ && decide (leAt h 8 8 = leAt a 12 8 ∧ sha256 h = slice a 28 32) then
        some (a, walkOn s 1023 (walkTake s { at_ := at_, chains := [], last := [] } g h))
      else none

/-- The JOURNAL record of code RESTART (R199): the reset cause, the head's CLOSE_STAMP and the present stamp. -/
def restartRec (s : State) (h : List Byte) : JRec :=
  { type := 0x12, stamp := stamp s, payload := [1, BitVec.ofNat 8 (reg s 0x47000020).toNat] ++ slice h 60 20 ++ stampBytes (stamp s) }

/-- The chains go on where the search ended (R199, R200); without a head a new journal begins. -/
def resumeChains (h : Option (List Byte × Walk)) (s : State) : State :=
  match h with
  | some (a, w) =>
    let own := (w.chains.find? (fun c => c.1.isNone)).elim (0, []) (fun c => c.2)
    updJnl (fun j => { j with seq := own.1, prevDigest := own.2, wptr := w.at_, arch := leAt a 60 8,
                              chains := w.chains.filterMap (fun c => c.1.map (fun seat =>
                                { seat := seat, seq := c.2.1, digest := c.2.2, seg := none })) }) s
  | none => updJnl (fun j => { j with seq := 0, wptr := 0x10000, prevDigest := List.replicate 32 0, chains := [] }) s

/-- LBA4K of each valid entry, valid while RUNNING (R202). -/
def lbaShow (s : State) : State :=
  each (List.range 16) (fun n s =>
    if isSet s (fNsValid n) then
      setF (fNsCfg n 10 10) (if Config.lba4k (getF s (fNsPort n)) (reg s (0x40000100 + 16 * n)).toNat then 1 else 0) s
    else s) s

/-- The chain head is found (R199): the placement pointer, SEQ and digest follow it, the first new segment opens, with a
RESTART record after a head, and the records accepted since reset follow in it. -/
def headFound (s : State) : State :=
  let old := match s.journal.openSeg with
    | some g => g.recs.reverse
    | none => []
  let h := findHead s
  let s := resumeChains h s
  let g := newSeg s (now s)
  let s := lbaShow (setF fJnlRunning 1 (updJnl (fun j => { j with openSeg := some g }) s))
  let s := match h with
    | some (_, w) => appendRec (restartRec s w.last) s
    | none => s
  let s := acceptAll old s
  match s.journal.seekTag with
  | some _ => admDone 0x5B 0 0 0 [] (updJnl (fun j => { j with seekTag := none }) s)
  | none => s

/-- CHAIN_HEAD_FOUND (R199): while the enabled engine seeks it; the head is the one its search finds (log entry 103). -/
def execChainHeadFound (_head : Option Nat) (s : State) : Outcome :=
  done (if isSet s fJnlEnable && !isSet s fJnlRunning then headFound s else s)

/-- A write of 0 to JNL_CTRL.ENABLE (R194, R199, R201): the open segment closes, staging is committed, an anchor is
written. -/
def jnlDisableNow (s : State) : State :=
  if isSet s fJnlRunning then
    setF fJnlRunning 0 (setF fJnlEnable 0 (writeAnchor (commitAll (closeSeg 3 (now s) s))))
  else setF fJnlEnable 0 s

/-- JNL_DISABLE (R199). -/
def execJnlDisable (c : CoreId) (s : State) : Outcome := done (cpOnly c 0x40000000 jnlDisableNow s)

/-- A write of JNL_CTRL (R186, R201): the lossy bits, then CLOSE, then ENABLE. -/
def jnlCtrlWrite (identified : Bool) (v : Word) (s : State) : State :=
  let s := setF (fld 0x40000000 3 2) (bitsOf v 3 2) s
  let s := if v.getLsbD 4 then jnlCloseNow s else s
  if v.getLsbD 0 then jnlEnableNow identified s else if isSet s fJnlEnable then jnlDisableNow s else s

/-- DRIVE_FAIL (R197): a member is marked FAILED. -/
def execDriveFail (e : Fin 16) (s : State) : Outcome := done (markFailed e.val s)

/-- The primary entry of a member. -/
def primaryOf (s : State) (e : Nat) : Nat :=
  ((primaries s).find? (fun r => (membersOf s r.1).contains e)).elim e (fun r => r.1)

/-- The rebuild of a member has copied its entry's written range from the survivor (R197): what another member holds of it,
it holds too. -/
def rebuilt (e : Nat) (s : State) : State :=
  let p := primaryOf s e
  let others := (membersOf s p).filter (fun m => m ≠ e)
  let copy := fun (g : Seg) => if (segEntries s g).contains p && others.any (fun m => g.members.contains m) && !g.members.contains e
    then { g with members := e :: g.members } else g
  updJnl (fun j => { j with committed := j.committed.map copy }) s

/-- REBUILD_COMPLETE (R197). -/
def execRebuildComplete (e : Fin 16) (s : State) : Outcome :=
  done (if getF s (fNsState e.val) = 2 then
          jnlFull (jnlHealth (jJournal 5 [BitVec.ofNat 8 e.val] (rebuilt e.val (setF (fNsState e.val) 0 s)))) else s)

/-- The drive of a member is another one, which holds nothing. -/
def newDrive (e : Nat) : State → State :=
  updJnl (fun j => { j with committed := j.committed.map (fun g => { g with members := g.members.filter (fun m => m ≠ e) }) })

/-- A write of word `r` (0 NSID, 1 CAP, 2 configuration) of entry e (R203): refused while enabled, except a new NSID on
a FAILED entry, which starts the rebuild (R197). -/
def jnlEntrySet (e r : Nat) (v : Word) (s : State) : State :=
  let k := 0x40000100 + 16 * e + 4 * r
  if r = 0 ∧ getF s (fNsState e) = 1 then
    jnlFull (jnlHealth (jJournal 4 [BitVec.ofNat 8 e] (newDrive e (setF (fNsState e) 2 (setReg k v s)))))
  else if isSet s fJnlEnable then jnlCfgerr s
  else softWrite k v s

/-- JNL_ENTRY_WRITE (R203). -/
def execJnlEntryWrite (c : CoreId) (e : Fin 16) (reg : Fin 3) (v : Word) (s : State) : Outcome :=
  done (cpOnly c (0x40000100 + 16 * e.val + 4 * reg.val) (jnlEntrySet e.val reg.val v) s)

/-- Distance from address a to address b in placement order (R194, R195). -/
def placeDist (s : State) (a b : Nat) : Nat := if a ≤ b then b - a else jnlSpace s - a + b

/-- A move of the archive pointer (R195): neither backward nor past the write pointer; each move is journaled. -/
def archMove (v : Nat) (s : State) : State :=
  let a := s.journal.arch
  if v ≠ a ∧ v < jnlSpace s ∧ placeDist s a v ≤ placeDist s a s.journal.wptr then
    jnlFull (jJournal 6 (le 8 a ++ le 8 v) (updJnl (fun j => { j with arch := v }) s))
  else s

/-- A write of JNL_ARCH_HI (R195, R202): it takes the LO value last written. -/
def archHiWrite (v : Word) (s : State) : State := archMove (s.journal.archLo.toNat + 2 ^ 32 * bitsOf v 15 0) s

/-- A write of JNL_ARCH_LO (R202). -/
def archLoWrite (v : Word) (s : State) : State := updJnl (fun j => { j with archLo := v }) s

/-- JNL_ARCH_WRITE: the HI write (R195). -/
def execJnlArchWrite (c : CoreId) (v : Word) (s : State) : Outcome := done (cpOnly c 0x40000014 (archHiWrite v) s)

/-- SEQ of the open segment (R181, R202): closed segments that are not yet placed come before it. -/
def openSeq (s : State) : Nat := s.journal.seq + (s.journal.closed.filter (fun g => g.header.isNone)).length

/-- A read of JNL_WPTR_LO latches the upper half for the requester (R202). -/
def wptrRead (r : Nat) (s : State) : State :=
  updJnl (fun j => { j with latchW := Tab.put j.latchW r (BitVec.ofNat 32 (j.wptr / 2 ^ 32)) }) s

/-- A read of JNL_SEQ_LO latches the upper half for the requester (R202). -/
def seqRead (r : Nat) (s : State) : State :=
  updJnl (fun j => { j with latchS := Tab.put j.latchS r (BitVec.ofNat 32 (openSeq s / 2 ^ 32)) }) s

/-- JNL_WPTR_LO_READ (R202). -/
def execJnlWptrLoRead (r : Requester) (s : State) : Outcome := done (wptrRead (reqIx r) s)

/-- JNL_SEQ_LO_READ (R202). -/
def execJnlSeqLoRead (r : Requester) (s : State) : Outcome := done (seqRead (reqIx r) s)

end Sys2Proof.Machine
end

