-- ==== Sys2Proof/Machine/Time.lean ====
section
/-! DEFINITION. The metronome, the frame registers and the calendar clock (spec/02_frames_turns_and_time.md R41–R64);
the tick itself stands in Tick.lean. -/

namespace Sys2Proof.Machine

/-! ### The metronome (R42, R43) -/

/-- PLL_LOCK (R42): the first lock; turn 0 of frame 0 begins. -/
def execPllLock (s : State) : Outcome :=
  done (if isSet s fLock then s
        else
          let s := setF fLock 1 s
          updTime (fun x => { x with turn := 0, past := [],
                                     cur := { frame := 0, start := 0, rounds := getF s fLenActive, cal := s.cal.val,
                                              hold := isSet s fHold, stale := reg s 0x45000074 &&& 3 ≠ 1 } }) s)

/-- REF_LOST (R43): the reference is declared lost, also while a relock after an earlier loss runs: holdover. -/
def execRefLost (s : State) : Outcome :=
  done (if isSet s fLock then occurCp 6 (jTime 2 [] (flag fRefLost (setF fHold 1 s))) else s)

/-- PLL_RELOCK (R43): HOLD clears; REF_LOST stays. -/
def execPllRelock (s : State) : Outcome := done (if isSet s fHold then jTime 3 [] (setF fHold 0 s) else s)

/-! ### Frame length (R44–R46, R346) -/

/-- The tick at which a length written now takes effect (R44). -/
def lenTick (s : State) : Nat := frameNo s + 2

/-- A write of FRAME_CTRL (R44, R45): OVR_LIMIT always; LEN_ROUNDS becomes pending, is rejected, or is ignored by a
group member. A write of the length in force while none is pending waits for its tick as any other does. -/
def frameCtrl (tick : Nat) (v : Word) (s : State) : State :=
  let s := setF fOvrLimit (bitsOf v 23 16) s
  let len := bitsOf v 11 0
  if isSet s fGroupLock then s
  else if len < 200 ∨ 4000 < len then flag fLenRej s
  else setF fLenPending 1 (setF fLenRounds len (updTime (fun x => { x with pendLen := some (len, tick) }) s))

/-- Writes to the time block: supervisor mode only (R41). -/
def timeWriter (c : CoreId) (a : Nat) (k : State → State) (s : State) : State :=
  if supCore s c then k s else busErr c a s

/-- The tick at which a length written at this chip takes effect: R44's; at a head with other chips (R346) at least the first
one that lies 48,000 turns after the next tick, whose TICK frames are the first to carry the length. -/
def lenTickAt (s : State) : Nat :=
  if getF s fGrpChips ≤ 1 then lenTick s else max (lenTick s) (frameNo s + 1 + (48000 + frameTurns s - 1) / frameTurns s)

/-- FRAME_CTRL_WRITE (R44, R45). -/
def execFrameCtrlWrite (c : CoreId) (v : Word) (s : State) : Outcome :=
  done (timeWriter c 0x45000010 (fun s => frameCtrl (lenTickAt s) v s) s)

/-! ### Latched reads (R48, R64) -/

/-- A read of FRAME_COUNT_LO latches FRAME_COUNT_HI for the requester (R48). -/
def frameCountRead (r : Nat) (s : State) : State :=
  updTime (fun x => { x with fcHi := Tab.put x.fcHi r (BitVec.ofNat 32 (frameNo s / 2 ^ 32)) }) s

/-- A read of TURN_ABS_LO latches TURN_ABS_HI for the requester (R48). -/
def turnAbsRead (r : Nat) (s : State) : State :=
  updTime (fun x => { x with taHi := Tab.put x.taHi r (BitVec.ofNat 32 (now s / 2 ^ 32)) }) s

/-- A read of CAL_PIP latches the seconds for the requester (R64). -/
def calPipRead (r : Nat) (s : State) : State :=
  updCal (fun x => { x with latch := Tab.put x.latch r (x.val / 65536) }) s

/-- FRAME_COUNT_LO_READ (R48). -/
def execFrameCountLoRead (r : Requester) (s : State) : Outcome := done (frameCountRead (reqIx r) s)

/-- TURN_ABS_LO_READ (R48). -/
def execTurnAbsLoRead (r : Requester) (s : State) : Outcome := done (turnAbsRead (reqIx r) s)

/-- CAL_PIP_READ (R64). -/
def execCalPipRead (r : Requester) (s : State) : Outcome := done (calPipRead (reqIx r) s)

/-! ### The calendar (R59–R64) -/

def fCalTrim : Fld := fld 0x4500006C 15 0
def fAlarmEn : Fld := bit 0x45000070 1
def fStepPending : Fld := bit 0x45000074 3
def fAlarmFired : Fld := bit 0x45000074 2
def fOscFail : Fld := bit 0x45000074 1
def fCalValid : Fld := bit 0x45000074 0

/-- TRIM as a signed number (R60). -/
def calTrim (s : State) : Int := signedOf 16 (getF s fCalTrim)

/-- CAL_SET and CAL_ALARM as calendar values (R64). -/
def calSetVal (s : State) : Nat :=
  ((reg s 0x45000050).toNat + 2 ^ 32 * bitsOf (reg s 0x45000054) 15 0) * 65536 + bitsOf (reg s 0x45000058) 15 0
def calAlarmVal (s : State) : Nat :=
  ((reg s 0x45000060).toNat + 2 ^ 32 * bitsOf (reg s 0x45000064) 15 0) * 65536 + bitsOf (reg s 0x45000068) 15 0

/-- Calendar values are 48-bit seconds and 16-bit pips. -/
def calMask (v : Nat) : Nat := v % 2 ^ 64

/-- A TIME_STEP command that waits for a step another replaces completes unapplied (R61, R307). -/
def stepReplaced (s : State) : State :=
  match s.cal.stepTag with
  | some _ => admDone 0x53 0 3 0 [] (updCal (fun c => { c with stepTag := none }) s)
  | none => s

/-- Request a step to the CAL_SET value (R61): a pending one is replaced. -/
def calStep (s : State) : State :=
  setF fStepPending 1 (updCal (fun c => { c with step := some (calSetVal s) }) s)

/-- A write of CAL_CTRL leaves ALARM_EN 0 in the turn in which the alarm fires (R15, R64). -/
def alarmCool (s : State) (v : Word) : Word := if (hotBits s 0x45000070).getLsbD 1 then v &&& ~~~2#32 else v

/-- A write of CAL_CTRL (R61, R62). -/
def calCtrlWrite (v : Word) (s : State) : State :=
  let s := softWrite 0x45000070 (alarmCool s v) s
  if v.getLsbD 0 then calStep (stepReplaced s) else s

/-- CAL_STEP_REQUEST: a write of CAL_CTRL with STEP (R61). -/
def execCalStepRequest (c : CoreId) (v : Word) (s : State) : Outcome :=
  done (timeWriter c 0x45000070 (calCtrlWrite (v ||| 1)) s)

/-- The sentry's enable of a wake source (R398): bit of SENTRY_EN. -/
def fSentryEn (i : Nat) : Fld := bit 0x47000840 i

/-- OSC_FAIL (R63). -/
def execOscFail (s : State) : Outcome := done (if isSet s fOscFail then s else occurCp 6 (setF fOscFail 1 s))

/-- OSC_RESTART (R63). -/
def execOscRestart (s : State) : Outcome := done (setF fOscFail 0 s)

/-- CALENDAR_RESET (R63, R64): SEC and PIP 0, TRIM 0, VALID 0, and the resets of R64. -/
def calReset (s : State) : State :=
  let s := clearRegs (fun k => decide (0x45000040 ≤ k ∧ k < 0x45000078)) s
  updCal (fun _ => { val := 0, acc := 0, step := none, stepTag := none, latch := [] }) s

def execCalendarReset (s : State) : Outcome := done (calReset s)

end Sys2Proof.Machine
end

