-- ==== Sys2Proof/Machine/Guard.lean ====
section
/-! DEFINITION. The fault block and the castling controller (spec/14_fault_tolerance.md): the guarded configuration,
checkpoints and rollback, castlings of cores and clusters, the rotating test and the scrub. -/

namespace Sys2Proof.Machine

/-! ### Registers (R353, R365, R376) -/

def fCastBusy : Fld := bit 0x4600000C 31
def fCastRej : Fld := bit 0x4600000C 30
def fCastAbort : Fld := bit 0x4600000C 29
def fLastC : Fld := fld 0x4600000C 28 16
def fRotEn : Fld := bit 0x46000004 31
def fRotNext : Fld := fld 0x46000004 27 24
def fRotPeriod : Fld := fld 0x46000004 23 0
def fScrubPasses : Fld := fld 0x46000024 15 0
def fScrubCorr : Fld := fld 0x46000028 31 0
def fScrubHard : Fld := fld 0x4600002C 31 0
def lmK (p : Nat) : Nat := 0x46000080 + 4 * p
def fLmPos (p x : Nat) : Fld := fld (lmK p) (4 * x + 2) (4 * x)
def fLmSpare (p : Nat) : Fld := fld (lmK p) 18 16
def fLmOut (p c : Nat) : Fld := bit (lmK p) (24 + c)
def fCpActA : Fld := fld 0x460000D0 1 0
def fCpActB : Fld := fld 0x460000D0 5 4
def fCpSpare : Fld := fld 0x460000D0 9 8
def fCpOut (c : Nat) : Fld := bit 0x460000D0 (12 + c)
def fDblAutockpt (n : Nat) : Fld := fld (winK n 0x158) 31 24
def fDblBist (n : Nat) : Fld := fld (winK n 0x158) 23 16
def fDblRollback (n : Nat) : Fld := fld (winK n 0x158) 15 8
def fDblMismatch (n : Nat) : Fld := fld (winK n 0x158) 7 0
def fPairReq (n k : Nat) : Fld := bit (winK n 0x150) k
def fPairUp (n k : Nat) : Fld := bit (winK n 0x150) (8 + k)

/-- A second in turns. -/
def secTurns (n : Nat) : Nat := 480000000 * n

/-- SCRUB_STAT.AGE (R365): whole minutes since the oldest last pass completed, or since turn 0 before the first. -/
def scrubAge (s : State) : Nat := (now s - s.guard.scrubAt.elim 0 (fun t => t)) / secTurns 60

/-- REPAIR_CLOCK (R376): whole seconds since the reserve became OUT; 0 when it is not OUT. -/
def repairClock (s : State) : Nat := s.guard.outAt.elim 0 (fun t => (now s - t) / secTurns 1)

/-- Guarded tenants that are ACTIVE, of cluster n. -/
def guardedIn (s : State) (n : Nat) : Bool :=
  (List.range 16).any (fun i => tActive s (16 * n + i) && isSet s (fGuarded (16 * n + i)))

/-- The conditions of the guarded configuration, GUARD_STAT bits 0–6 in order (R352). A Draren link's spare lane:
DRN_STAT.STATE 2 is UP, and SPARE_LANE 0xF is none. -/
def guardConds (s : State) : List Bool :=
  [decide (getF s fLenActive ≤ 400) && (match s.time.pendLen with
      | some (l, _) => decide (l ≤ 400)
      | none => true),
   getF s fCpActA ≠ getF s fCpActB && getF s fCpSpare ≠ 3,
   clusterIds.all (fun n => !guardedIn s n || isSet s (fUp01 n) || isSet s (fUp23 n)),
   isSet s fJnlRunning && !isSet s fJnlDegraded,
   getF s fResState = 0 || (getF s fResState = 1 && getF s fOffhome = 0x1F),
   (List.range 3).all (fun p => bitsOf (reg s (0x42000004 + 0x100 * p)) 1 0 ≠ 2 ||
      bitsOf (reg s (0x42000004 + 0x100 * p)) 15 12 ≠ 0xF),
   decide (scrubAge s < 240 ∧ 1 ≤ getF s fScrubPasses)]

/-- GUARD_STAT as it reads (R353). -/
def guardStat (s : State) : Word :=
  let cs := guardConds s
  BitVec.ofNat 32 ((if cs.all (fun b => b) then 2 ^ 31 else 0) + (if 259200 < repairClock s then 256 else 0) +
    (cs.foldr (fun b v => b.toNat + 2 * v) 0))

/-! ### Checkpoints and rollback (R357–R359) -/

/-- The context a core restores (R357): its checkpoint, or the context it was released with. -/
def ckptCtx (s : State) (i : Nat) : Ctx := (core s i).ckpt.elim (initCore i).ctx (fun c => c)

/-- Write back an undo log, newest first. -/
def undoAll (us : List (Nat × Nat × Word)) (s : State) : State :=
  each us (fun u s => writeBytes u.1 (le u.2.1 u.2.2.toNat) s) s

/-- Roll a core or pair back (R359): context, undo log, side-effect buffer, locks. -/
def rollbackCtx (i : Nat) (s : State) : State :=
  let x := core s i
  let s := undoAll x.undo s
  let s := each x.taken lockFree s
  let c := ckptCtx s i
  updCore i (fun x => { x with ctx := c, undo := [], side := [], taken := [], prev := none }) s

/-- Unit code and logical cluster of core index i in FAULT records (R374). -/
def coreUnit (i : Nat) : Nat := if i = 256 then 2 else 1
def coreLcl (i : Nat) : Nat := if i = 256 then 0xFF else i / 16
def corePos (i : Nat) : Nat := if i = 256 then 0x20 else 0x10 + (i % 16 - 12)

/-- A mismatch of a pair (R356, R358–R360): counted, rolled back and recorded; a second one before the next verified
checkpoint starts the BIST of both copies. The control processor's BIST is CP_CASTLING. -/
def mismatch (i mech : Nat) (s : State) : State :=
  let n := i / 16
  let s := if i = 256 then s else addF (fDblRollback n) 1 (addF (fDblMismatch n) 1 s)
  let epc := (core s i).ctx.pc.toNat
  let s := faultRec mech 1 (coreUnit i) (coreLcl i) (physOf s (coreLcl i)) (corePos i)
    ((core s i).work.elim 0xFFFF (fun w => 16 * n + w)) epc 0 0 (rollbackCtx i s)
  let m := (core s i).mism + 1
  let t := now s
  let s := updCore i (fun x => { x with mism := m }) s
  if i = 256 then updGuard (fun g => { g with cpMism := m }) s
  else
    let s := occur n 21 s
    if 2 ≤ m then addF (fDblBist n) 1 (updCore i (fun x => { x with bistEnd := some (t + 3840) }) s) else s

/-- A core i runs as a pair (R355, R370). -/
def isPair (s : State) (i : Nat) : Bool := i = 256 || paired s (i / 16) (i % 16 - 12)

/-! ### CASTLING records (R375) -/

def jCastling (unit reason lcl pos old new result seq len frame : Nat) : State → State :=
  jnl 0x0E ([unit, reason, lcl, pos, old, new, result, 0].map (BitVec.ofNat 8) ++ le 4 seq ++ le 4 len ++ le 8 frame)

/-- The next CAST_SEQ. -/
def castBegin (s : State) : State := setF fCastSeq (getF s fCastSeq + 1) s

/-! ### Lane-core and control-processor castlings (R366, R370) -/

/-- C4 is available for a position of cluster n. -/
def spareCore (s : State) (n : Nat) : Bool := getF s (fLmSpare (getF s (fMap n))) ≠ 7

/-- Move position x of cluster n onto the spare core (R366): it runs again from its checkpoint. The handover length of
the record, at most 480 turns, is a free value (log entry 6). -/
def laneCastle (n x reason : Nat) (s : State) : State :=
  let p := getF s (fMap n)
  let old := getF s (fLmPos p x)
  let new := getF s (fLmSpare p)
  let s := setF (fLmOut p old) 1 (setF (fLmSpare p) 7 (setF (fLmPos p x) new (castBegin s)))
  let i := 16 * n + 12 + firstPos s n x
  let s := updCore i (fun c => { c with failed := false, mism := 0, bistEnd := none }) (rollbackCtx i s)
  let len := Config.freeNat (fresh s) % 481
  jCastling 1 reason n (0x10 + x) old new 0 (getF s fCastSeq) len (frameNo s) (useFresh s)

/-- A lane core of a position is faulty (R280, R360, R361): its FAULT record, and C4 takes the position, or the core stays
stopped and the cluster is castled at the next tick (R366). In a handover under way the new cluster fills it. -/
def laneFail (n x mech detail : Nat) (s : State) : State :=
  let i := 16 * n + 12 + firstPos s n x
  let ok := spareCore s n && !inHandover s n
  let s := faultRec mech 2 1 n (physOf s n) (0x10 + x) ((core s i).work.elim 0xFFFF (fun w => 16 * n + w))
    (core s i).ctx.pc.toNat detail (getF s fCastSeq + (if ok then 1 else 0)) s
  if ok then laneCastle n x 2 s
  else
    let s := updCore i (fun c => { c with failed := true }) s
    if inHandover s n then s else castReq { unit := 0, reason := 2, cluster := n, pos := 0 } s

/-- A fault of a lane core that carries no cause. -/
def laneFault (n x mech : Nat) (s : State) : State := laneFail n x mech 0 s

/-- A dual-rail error or a stall in the thread-select stage of a cluster's barrel (R361, R362): every thread freezes, and
a castling of the cluster is requested. -/
def barrelFault (n mech : Nat) (s : State) : State :=
  let s := each (List.range 12) (fun t s => updCore (16 * n + t) (fun x => { x with frozen := true }) s) s
  castReq { unit := 0, reason := 2, cluster := n, pos := 0 }
    (faultRec mech 2 0 n (physOf s n) 0xFF 0xFFFF 0 0 (getF s fCastSeq + 1) s)

/-- A check of a pipeline: positions 0–3 of the lane cores, 4 the barrel engine. -/
def checkFault (n : Nat) (x : Fin 5) (mech : Nat) (s : State) : State :=
  if x.val = 4 then barrelFault n mech s else laneFault n x.val mech s

/-- CHECKER_ERROR (R361, R362). -/
def execCheckerError (n : ClusterId) (x : Fin 5) (s : State) : Outcome := done (checkFault n.val x 3 s)

/-- STALL_SENTINEL (R361, R362). -/
def execStallSentinel (n : ClusterId) (x : Fin 5) (s : State) : Outcome := done (checkFault n.val x 4 s)

/-- PAIR_BIST_DONE (R360): the end of the BIST of both copies. -/
def execPairBistDone (n : ClusterId) (pair : Fin 2) (passA passB : Bool) (s : State) : Outcome :=
  let a := 2 * pair.val
  let i := 16 * n.val + 12 + a
  atDue (core s i).bistEnd (fun s =>
    let s := updCore i (fun c => { c with bistEnd := none }) s
    if passA && passB then
      updCore i (fun c => { c with mism := 0 })
        (faultRec 9 1 1 n.val (physOf s n.val) (0x10 + a) 0xFFFF 0 0 0 s)
    else if (passA || passB) && spareCore s n.val then laneFault n.val (if passA then a + 1 else a) 9 s
    else castReq { unit := 0, reason := 2, cluster := n.val, pos := 0 }
      (updCore i (fun c => { c with failed := true })
        (faultRec 9 2 1 n.val (physOf s n.val) (0x10 + a) 0xFFFF 0 0 (getF s fCastSeq + 1) s))) s

/-- SHADOW_MISMATCH (R362): the thread freezes and a castling of its cluster is requested. -/
def execShadowMismatch (n : ClusterId) (t : ThreadNo) (s : State) : Outcome :=
  let i := 16 * n.val + t.val
  let s := updCore i (fun c => { c with frozen := true }) s
  done (castReq { unit := 0, reason := 2, cluster := n.val, pos := 0 }
    (faultRec 5 2 0 n.val (physOf s n.val) t.val 0xFFFF (core s i).ctx.pc.toNat 0 (getF s fCastSeq + 1) s))

/-- VOTE_DISAGREE (R363): masked, counted and journaled. -/
def execVoteDisagree (block : Nat) (s : State) : Outcome :=
  done (faultRec 6 0 5 0xFF 0xFF (block % 256) 0xFFFF 0 0 0 s)

/-- Replace the core of a control-processor position (0 CP-A, 1 CP-B) by the reserve core (R370). -/
def cpCastle (pos reason : Nat) (s : State) : State :=
  let f := if pos = 0 then fCpActA else fCpActB
  let old := getF s f
  let new := getF s fCpSpare
  let s := setF (fCpOut old) 1 (setF fCpSpare 3 (setF f new (castBegin s)))
  let s := updGuard (fun g => { g with cpMism := 0 }) (updCore 256 (fun c => { c with mism := 0 }) (rollbackCtx 256 s))
  let len := Config.freeNat (fresh s) % 481
  jCastling 2 reason 0xFF pos old new 0 (getF s fCastSeq) len (frameNo s) (useFresh s)

/-- CP_CASTLING (R370): the BIST that a repeated mismatch of the control-processor pair runs. -/
def execCpCastling (failA failB : Bool) (s : State) : Outcome :=
  if s.guard.cpMism < 2 then done s
  else if failA = failB || getF s fCpSpare = 3 then
    done (updGuard (fun g => { g with cpMism := 0 }) (faultRec 9 1 2 0xFF 0xFF 0x20 0xFFFF 0 0 0 s))
  else
    let pos := if failA then 0 else 1
    done (cpCastle pos 2 (faultRec 9 2 2 0xFF 0xFF pos 0xFFFF 0 0 (getF s fCastSeq + 1) s))

/-! ### Cluster castlings (R34, R366–R369) -/

/-- The request that comes next (R369): faults in order of detection, then administration, then rotation. Only cluster
castlings wait for a tick. -/
def firstReq (s : State) : Option CastReq :=
  let rs := s.guard.reqs.filter (fun r => r.unit = 0)
  match rs.find? (fun r => r.reason = 2) with
  | some r => some r
  | none => match rs.find? (fun r => r.reason = 3) with
    | some r => some r
    | none => rs.head?

/-- The castling that the next tick begins (R33, R369): for a fault, a cluster that is off-home is first brought home. -/
def nextCast (s : State) : Option CastReq :=
  match firstReq s with
  | none => none
  | some r =>
    let o := getF s fOffhome
    if r.reason = 2 ∧ o < 16 ∧ o ≠ r.cluster then some { unit := 0, reason := 1, cluster := o, pos := 0 } else some r

/-- The physical cluster a castling of logical n goes to: home from off-home, else the reserve while it is IDLE and no
other cluster is off-home (R33). -/
def castDest (s : State) (n : Nat) : Option Nat :=
  if getF s fOffhome = n then (if getF s fResState = 2 then none else some n)
  else if getF s fResState = 0 ∧ getF s fOffhome = 0x1F then some (getF s fResPhys) else none

/-- Address of the castling image of a sequence number (R368). -/
def imageAt (seq : Nat) : Nat := if seq % 2 = 0 then 0x10800000 else 0x10A00000

/-- The epoch an image carries (R368): the admission epoch, or the group epoch at a head. -/
def castEpoch (s : State) : Nat :=
  if bitsOf (reg s 0x42000400) 30 30 = 1 then groupEpoch s else admEpoch s

/-- Image header (R368). -/
def imageHead (r : CastRun) : List Byte :=
  padTo 256 ([0x43, 0x49, 0x4D, 0x31] ++ le 4 r.seq ++ le 4 r.epoch ++
    [BitVec.ofNat 8 r.req.cluster, BitVec.ofNat 8 r.old, BitVec.ofNat 8 r.new, 0] ++ le 8 r.frame)

/-- The context record of core index i as bytes (R286). -/
def ctxBytes (s : State) (i : Nat) : List Byte := ((List.range 32).map (fun w => le 4 (ctxWord s i w).toNat)).flatten

/-- Keys of the registers of a cluster's window that stand below offset 0xF000. -/
def winKeys (n : Nat) : List Nat :=
  ((rowsWin.map (fun r => (List.range r.count).map (fun i => r.base + r.stride * i))).flatten.filter (fun o => decide (o < 0xF000))).map
    (fun o => winK n o)

/-- The cluster register state of an image: each register at its window offset, and each lock as a read returns it (R216;
the place is the model's, log entry 94). -/
def imageRegs (b n : Nat) (s : State) : State :=
  let s := each (winKeys n) (fun k s => writeBytes (b + 0x1000 + (k - winK n 0)) (le 4 (reg s k).toNat) s) s
  each (List.range 64) (fun l s => writeBytes (b + 0x1400 + 4 * l) (le 4 (lockValue s (lockK n l)).toNat) s) s

/-- Context of core c of physical cluster p, which serves logical n: that of the position it fills, zeros for a core
that fills none (R286, R368). -/
def physCtx (s : State) (p n c : Nat) : List Byte :=
  match (List.range 4).find? (fun x => getF s (fLmPos p x) = c) with
  | some x => ctxBytes s (16 * n + 12 + firstPos s n x)
  | none => List.replicate 128 0

/-- Write the image: header, contexts of the threads and positions, registers and locks, and the local SRAM (R368). -/
def imageWrite (r : CastRun) (s : State) : State :=
  let b := imageAt r.seq
  let n := r.req.cluster
  let base := 0x20000000 + n * 0x01000000
  let ram := s.mem.filter (fun c => decide (base ≤ c.1 ∧ c.1 < base + 0x100000))
  let s := clearMem (fun a => decide (b ≤ a ∧ a < b + 0x200000)) s
  let s := writeBytes b (imageHead r) s
  let s := each (List.range 12) (fun t s => writeBytes (b + 0x100 + 128 * t) (ctxBytes s (16 * n + t)) s) s
  let s := each (List.range 5) (fun c s => writeBytes (b + 0x700 + 128 * c) (physCtx s r.old n c) s) s
  each ram (fun c s => writeB (b + 0x10000 + (c.1 - base)) c.2 s) (imageRegs b n s)

/-- Begin the castling of a cluster at a tick (R367). -/
def castStart (r : CastReq) (new : Nat) (s : State) : State :=
  let s := setF fCastBusy 1 (castBegin s)
  let run : CastRun := { req := r, old := getF s (fMap r.cluster), new := new, seq := getF s fCastSeq, turn := now s,
                         frame := frameNo s, epoch := castEpoch s }
  imageWrite run (updGuard (fun g => { g with run := some run, reqs := g.reqs.filter (fun q => q ≠ r) }) s)

/-- CLUSTER_CASTLING (R367, R369). -/
def execClusterCastling (n : ClusterId) (s : State) : Outcome :=
  if atTick s && s.guard.run.isNone then
    match nextCast s with
    | some r =>
      if r.unit = 0 ∧ r.cluster = n.val then
        match castDest s n.val with
        | some d => done (castStart r d s)
        | none => done s
      else done s
    | none => done s
  else done s

/-- Read the image's header back (R368): its sequence number and epoch are current. -/
def imageOkNow (s : State) (r : CastRun) : Bool :=
  let b := imageAt r.seq
  readN s (b + 4) 4 = getF s fCastSeq && readN s (b + 8) 4 = castEpoch s

/-- The reserve after a castling from `old` to `new` of logical n: the freed cluster, under test, or IDLE while a fault
waits for it (R369, R371). -/
def reserveAfter (n old new : Nat) (s : State) : State :=
  let wait := s.guard.reqs.any (fun q => q.reason = 2)
  setF fOffhome (if new = n then 0x1F else n) (setF fResState (if new = n ∧ wait then 0 else 1) (setF fResPhys old s))

/-- Cores of cluster n resume on the new cluster: frozen threads run their instruction again, stopped positions run
from their checkpoints (R362, R366). -/
def castResume (n : Nat) (s : State) : State :=
  let s := each (List.range 12) (fun t s => updCore (16 * n + t) (fun c => { c with frozen := false }) s) s
  each (List.range 4) (fun x s =>
    let i := 16 * n + 12 + x
    if (core s i).failed then updCore i (fun c => { c with failed := false, mism := 0, bistEnd := none }) (rollbackCtx i s)
    else s) s

/-- Replay the router events a handover held (R394). -/
def castReplay (n : Nat) (s : State) : State :=
  let cs := (clus s n).frameHold
  each cs (fun c s => evFire 32 n (now s) [c] s) (updClus n (fun x => { x with frameHold := [] }) s)

/-- Step of the rotating test after a castling (R369, R371): a castling for a fault or for administration, and the forced
return home before one, end the visit in progress. -/
def rotAfter (r : CastReq) (ok : Bool) (s : State) : State :=
  if r.reason = 0 then updGuard (fun g => { g with rotStep := if ok then 2 else 0 }) s
  else if r.reason = 1 ∧ s.guard.rotStep = 3 then updGuard (fun g => { g with rotStep := if ok then 4 else 0 }) s
  else updGuard (fun g => { g with rotStep := 0, reqs := g.reqs.filter (fun q => decide (2 ≤ q.reason)) }) s

/-- The handover ends well (R35, R367): map, reserve and multiplexer switch at once. -/
def castDone (r : CastRun) (s : State) : State :=
  let n := r.req.cluster
  let len := now s - r.turn
  let s := setF (fMap n) r.new (updGuard (fun g => { g with run := none }) (setF fCastBusy 0 (setF fLastC len s)))
  let s := reserveAfter n r.old r.new s
  let s := setF (fOnReserve n) (if r.new = n then 0 else 1) s
  let s := jCastling 0 r.req.reason n 0xFF r.old r.new 0 r.seq len r.frame s
  rotAfter r.req true (castReplay n (castResume n s))

/-- The castling is aborted (R367, R368): the old cluster resumes; a fault's request waits again (log entry 23). -/
def castAborted (r : CastRun) (s : State) : State :=
  let n := r.req.cluster
  let s := updGuard (fun g => { g with run := none }) (setF fCastBusy 0 (flag fCastAbort s))
  let s := jCastling 0 r.req.reason n 0xFF r.old r.new 1 r.seq (now s - r.turn) r.frame s
  let s := rotAfter r.req false (castReplay n s)
  if r.req.reason = 2 then castReq r.req s else s

/-! ### Requests (R372, R376) -/

/-- A request of CASTLE_REQ can be served (R372): its unit has a reserve available. -/
def castServable (s : State) (unit n pos : Nat) : Bool :=
  match unit with
  | 0 => (castDest s n).isSome
  | 1 => decide (pos < 4) && spareCore s n
  | 2 => decide (pos < 2) && getF s fCpSpare ≠ 3
  | _ => false

/-- Take an administration request, or answer `none` (R369, R372): a cluster's castling waits for a tick; one of a core
runs at once, unless a castling runs, whose end it then waits for. -/
def castServe (unit n pos : Nat) (s : State) : Option State :=
  if castServable s unit n pos then
    some (if unit = 0 ∨ s.guard.run.isSome then castReq { unit := unit, reason := 3, cluster := n, pos := pos } s
      else if unit = 1 then laneCastle n pos 3 s
      else cpCastle pos 3 s)
  else none

/-- Key under which a CASTLE command waits for its castling. -/
def castKey (r : CastReq) : Nat := if r.unit = 1 then 0x100 + 4 * r.cluster + r.pos else if r.unit = 2 then 0x200 + r.pos else r.cluster

/-- Serve the core castlings that waited for a castling's end, at the first tick after it (R369); one whose reserve core
is no longer available is refused (R372). -/
def castCores (s : State) : State :=
  if s.guard.run.isSome then s
  else
    let rs := s.guard.reqs.filter (fun r => r.unit ≠ 0)
    let s := updGuard (fun g => { g with reqs := g.reqs.filter (fun r => r.unit = 0) }) s
    each rs (fun r s =>
      if castServable s r.unit r.cluster r.pos then
        admDone 0x63 (castKey r) 0 0 [] (if r.unit = 1 then laneCastle r.cluster r.pos 3 s else cpCastle r.pos 3 s)
      else admDone 0x63 (castKey r) 6 0 [] (flag fCastRej s)) s

/-- A write of CASTLE_REQ (R376). -/
def castleReqWrite (v : Word) (s : State) : State :=
  if v.getLsbD 31 then
    match castServe (bitsOf v 17 16) (bitsOf v 11 8) (bitsOf v 2 0) s with
    | some s => s
    | none => flag fCastRej s
  else s

/-- CASTLE_REQ with UNIT 0, 1 and 2 (R372, R376). -/
def castleReqWord (unit n pos : Nat) : Word := BitVec.ofNat 32 (2 ^ 31 + unit * 0x10000 + n * 0x100 + pos)

def execCastleReqCluster (c : CoreId) (n : ClusterId) (s : State) : Outcome :=
  done (cpOnly c 0x46000008 (castleReqWrite (castleReqWord 0 n.val 0)) s)

def execCastleReqLaneCore (c : CoreId) (n : ClusterId) (x : Fin 8) (s : State) : Outcome :=
  done (cpOnly c 0x46000008 (castleReqWrite (castleReqWord 1 n.val x.val)) s)

def execCastleReqCp (c : CoreId) (x : Fin 8) (s : State) : Outcome :=
  done (cpOnly c 0x46000008 (castleReqWrite (castleReqWord 2 0 x.val)) s)

/-! ### Pairs (R355) -/

/-- A write of CL_DOUBLES: the requested pairs. -/
def clDoublesWrite (n : Nat) (v : Word) (s : State) : State := softWrite (winK n 0x150) v s

def execClDoublesWrite (c : CoreId) (n : ClusterId) (v : Word) (s : State) : Outcome :=
  castWrite c (n.val) (winK n.val 0x150) v (fun s =>
    done (cpOnly c (winK n.val 0x150) (clDoublesWrite n.val v) s)) s

/-- Position x of cluster n has work in progress. -/
def working (s : State) (n x : Nat) : Bool := (core s (16 * n + 12 + x)).work.isSome

/-- PAIR_FORM (R355): at a tick at which neither position has work in progress, UP follows the request. -/
def pairForm (n k : Nat) (s : State) : State :=
  if isSet s (fPairReq n k) ≠ isSet s (fPairUp n k) && !working s n (2 * k) && !working s n (2 * k + 1) then
    let i := 16 * n + 12 + 2 * k
    let s := updCore i (fun c => { c with mism := 0 }) s
    let s := if isSet s (fPairReq n k) then s
      else setCore (i + 1) { core s i with work := none, taken := [], stack := [], alarm := none } s
    setF (fPairUp n k) (if isSet s (fPairReq n k) then 1 else 0) s
  else s

def execPairForm (n : ClusterId) (s : State) : Outcome :=
  done (if atTick s then pairForm n.val 1 (pairForm n.val 0 s) else s)

/-! ### Scrub (R364, R365) -/

/-- A hard word (R364): counted; remapped to a spare word of the commons or of its cluster SRAM, or recorded where none
is left; a word of the code store is rewritten. -/
def hardWord (a : Word) (s : State) : State :=
  let s := addF fScrubHard 1 s
  let top := a.toNat / 0x1000000
  let none_ := faultRec 8 4 4 0xFF 0xFF 0xFF 0xFFFF a.toNat 0 0
  if top = 0x10 ∨ top = 0x11 then
    (if s.guard.spareCommons < 256 then updGuard (fun g => { g with spareCommons := g.spareCommons + 1 }) s else none_ s)
  else if 0x20 ≤ top ∧ top < 0x30 then
    let p := physOf s (top - 0x20)
    let k := Tab.getD s.guard.spareCluster p 0
    if k < 32 then updGuard (fun g => { g with spareCluster := Tab.put g.spareCluster p (k + 1) }) s else none_ s
  else s

/-- SCRUB_PASS_COMPLETE (R364, R365). -/
def execScrubPassComplete (corrected uncorr : List Word) (s : State) : Outcome :=
  let hard := corrected.filter (fun a => s.guard.passCorr.contains a)
  let s := each hard hardWord (addF fScrubCorr corrected.length (addF fScrubPasses 1 s))
  let s := each uncorr (fun a s => eccRec 0xFF 0xFF a.toNat s) s
  let t := now s
  done (updGuard (fun g => { g with passCorr := corrected, scrubAt := some t }) s)

/-- SCRUB_AGE_LIMIT (R352, R365): AGE reaches 240 minutes, so GUARD_STAT.SCRUB falls. -/
def execScrubAgeLimit (s : State) : Outcome :=
  atDue (some (s.guard.scrubAt.elim 0 (fun t => t) + secTurns 14400)) (fun s => s) s

/-- REPAIR_OVERDUE (R353): REPAIR_CLOCK passes 259,200 s, so GUARD_STAT.OVERDUE rises. -/
def execRepairOverdue (s : State) : Outcome :=
  atDue (s.guard.outAt.map (fun t => t + secTurns 259201)) (fun s => s) s

/-! ### The rotating test (R371) -/

/-- The control processor's reserve cores are retested: an OUT core that passes is the reserve again (R370, R371). -/
def cpRetest (ok : BitVec 3) (s : State) : State :=
  each (List.range 3) (fun c s =>
    if isSet s (fCpOut c) && ok.getLsbD c then
      let s := setF (fCpOut c) 0 s
      if getF s fCpSpare = 3 then setF fCpSpare c s else s
    else s) s

/-- The visit falls due PERIOD seconds after the last one. -/
def visitDue (s : State) : Nat := s.guard.rotAt + secTurns (getF s fRotPeriod)

/-- ROTATION_VISIT (R371): a castling of NEXT is requested; a DARK cluster is skipped, and the skip journaled; an OUT
reserve is retested instead. -/
def rotationVisit (cpOk : BitVec 3) (s : State) : State :=
  let t := now s
  let n := getF s fRotNext
  let s := updGuard (fun g => { g with rotAt := t }) s
  if getF s fResState = 2 then updGuard (fun g => { g with retest := some (getF s fResPhys) }) s
  else if getF s fResPhys = 16 ∧ getF s fOffhome = 0x1F ∧ getF s fResState = 0 then
    let s := cpRetest cpOk s
    if getF s (fPwr n) = 2 then
      setF fRotNext (n + 1) (jCastling 0 0 n 0xFF n n 1 (getF s fCastSeq) 0 (frameNo s) s)
    else castReq { unit := 0, reason := 0, cluster := n, pos := 0 }
      (updGuard (fun g => { g with rotStep := 1, rotCl := n }) s)
  else s

def execRotationVisit (cpOk : BitVec 3) (s : State) : Outcome :=
  if isSet s fRotEn && s.guard.rotStep = 0 && s.guard.run.isNone then atDue (some (visitDue s)) (rotationVisit cpOk) s
  else done s

/-- LANE_MAP of a physical cluster after its cores' BIST (R371): a core that was out and passes becomes the in-cluster
reserve; then a core that fails is marked out, and the reserve takes its position. -/
def laneBist (p : Nat) (ok : BitVec 5) (s : State) : State :=
  let s := each (List.range 5) (fun c s =>
    if ok.getLsbD c && isSet s (fLmOut p c) then
      let s := setF (fLmOut p c) 0 s
      if (List.range 4).any (fun x => getF s (fLmPos p x) = c) then s else setF (fLmSpare p) c s
    else s) s
  each (List.range 5) (fun c s =>
    if ok.getLsbD c then s
    else
      let s := setF (fLmOut p c) 1 s
      if getF s (fLmSpare p) = c then setF (fLmSpare p) 7 s
      else match (List.range 4).find? (fun x => getF s (fLmPos p x) = c) with
        | some x => if getF s (fLmSpare p) = 7 then s
                    else setF (fLmSpare p) 7 (setF (fLmPos p x) (getF s (fLmSpare p)) s)
        | none => s) s

/-- CLUSTER_BIST_DONE (R371): the BIST of the cluster under test, or the retest of an OUT one, has ended. -/
def bistDone (pass : Bool) (ok : BitVec 5) (s : State) : State :=
  let p := getF s fResPhys
  let good := pass && decide (4 ≤ ((List.range 5).filter (fun c => ok.getLsbD c)).length)
  let s := updGuard (fun g => { g with retest := none }) (laneBist p ok s)
  if good then
    let s := updGuard (fun g => { g with outAt := none }) (setF fResState 0 s)
    if s.guard.rotStep = 2 then
      castReq { unit := 0, reason := 1, cluster := s.guard.rotCl, pos := 0 } (updGuard (fun g => { g with rotStep := 3 }) s)
    else if s.guard.rotStep = 4 then
      updGuard (fun g => { g with rotStep := 0 }) (setF fRotNext (s.guard.rotCl + 1) s)
    else s
  else
    let t := now s
    let out := getF s fResState = 2
    let s := faultRec 9 4 3 0xFF p 0xFF 0xFFFF 0 0 0 s
    if out then s else updGuard (fun g => { g with outAt := some t, rotStep := 0 }) (setF fResState 2 s)

def execClusterBistDone (pass : Bool) (coresOk : BitVec 5) (s : State) : Outcome :=
  done (if getF s fResState = 1 ∨ (getF s fResState = 2 ∧ s.guard.retest.isSome) then bistDone pass coresOk s else s)

end Sys2Proof.Machine
end

