-- ==== Sys2Proof/Machine/Mover.lean ====
section
/-! DEFINITION. The movers and the fabric arbiters (spec/12_transfer_engines_and_arbitration.md R312–R325). -/

namespace Sys2Proof.Machine

/-! ### Tags and issuers (R314) -/

/-- Who issues a tag: the lane-core runtime, frame sequencer or mailbox block of a cluster, or the control
processor. -/
inductive Issuer where
  | runtime (n : Nat) | sequencer (n : Nat) | mailbox (n : Nat) | cp
  deriving DecidableEq, Repr

/-- Issuer of global tag g (R314). -/
def issuerOf (g : Nat) : Issuer :=
  let m := g / 4096
  let t := g % 4096
  if 3072 ≤ t then .cp
  else
    let n := 4 * m + t / 768
    if t % 768 < 512 then .runtime n else if t % 768 < 640 then .sequencer n else .mailbox n

/-- A core may submit tag g (R314): its runtime in supervisor mode, or the control processor. -/
def maySubmit (s : State) (c : CoreId) (g : Nat) : Bool :=
  match issuerOf g, c with
  | .cp, .cp => true
  | .runtime n, .lane m x => decide (m.val = n) && supCore s (.lane m x)
  | _, _ => false

def descAt (g : Nat) : Nat := 0x10520000 + 32 * g
def complAt (g : Nat) : Nat := 0x105A0000 + 16 * g

/-- The descriptor of tag g in the commons (R315). -/
def descOf (s : State) (g : Nat) : Desc :=
  let b := readBytes s (descAt g) 32
  { tenant := leAt b 0 2, gen := leAt b 2 2, op := leAt b 4 1, flags := leAt b 5 1, next := leAt b 6 2, src := leAt b 8 8,
    dst := leAt b 16 8, len := leAt b 24 4, spaces := leAt b 28 1, pad := leAt b 29 3 }

def Desc.srcSpace (d : Desc) : Nat := d.spaces % 4
def Desc.dstSpace (d : Desc) : Nat := d.spaces / 4 % 4
def Desc.ordered (d : Desc) : Bool := d.flags / 2 % 2 = 1
def Desc.notify (d : Desc) : Bool := d.flags % 2 = 1

/-- MOV_STAT, MOV_FENCED and MOV_ERR of mover m (R327). -/
def movK (m off : Nat) : Nat := 0x41000000 + 0x100 * m + off
def fMovErr (m k : Nat) : Fld := bit (movK m 0xC) k

def xfer (s : State) (g : Nat) : Option Xfer := Tab.find s.xfers g

/-- Transfers of a mover that are in flight, and tags it holds, as MOV_STAT shows them. -/
def movCount (m : Nat) (s : State) : State :=
  let xs := s.xfers.filter (fun p => p.1 / 4096 = m)
  setF (fld (movK m 4) 28 16) (xs.filter (fun p => p.2.held)).length
    (setF (fld (movK m 4) 12 0) (xs.filter (fun p => !p.2.held)).length s)

def setXfer (g : Nat) (x : Xfer) (s : State) : State := movCount (g / 4096) (mapXfers (fun t => Tab.put t g x) s)
def delXfer (g : Nat) (s : State) : State := movCount (g / 4096) (mapXfers (fun t => Tab.del t g) s)

/-- Submit a tag (R314): its transfer stands before ACCEPT. -/
def submitTag (g : Nat) (s : State) : State :=
  setXfer g { stage := 0, desc := descOf s g, order := s.xferNext, data := [], read := 0, moved := 0, reads := 0,
              readAt := none, flush := 0, status := none, held := false } (setXferNext (s.xferNext + 1) s)

/-- A write of MOV_DB (R314). -/
def movDbWrite (c : CoreId) (m : Nat) (v : Word) (s : State) : State :=
  let g := 4096 * m + bitsOf v 11 0
  if maySubmit s c g && (xfer s g).isNone then submitTag g s else busErr c (movK m 0) s

/-- MOV_DB_WRITE (R314). -/
def execMovDbWrite (c : CoreId) (m : Fin 4) (v : Word) (s : State) : Outcome := done (movDbWrite c m.val v s)

/-! ### ACCEPT (R308, R316) -/

/-- `n` bytes from `a` lie in [lo, hi). -/
def inRange (a n lo hi : Nat) : Bool := decide (lo ≤ a ∧ a + n ≤ hi)

/-- The bytes lie wholly in decoded memory: the code store, the commons, or one cluster's local SRAM (R30, R308). -/
def decodedMem (a n : Nat) : Bool :=
  inRange a n 0 0x01000000 || inRange a n 0x10000000 0x12000000 ||
  (decide (0x20000000 ≤ a ∧ a < 0x30000000) && inRange (a % 0x01000000) n 0 0x100000)

/-- Descriptors of an issuer's own tags. -/
def ownDescs (g a n : Nat) : Bool :=
  let m := g / 4096
  match issuerOf g with
  | .cp => inRange a n (descAt (4096 * m + 3072)) (descAt (4096 * m + 4096))
  | .runtime k => let b := 4096 * m + 768 * (k % 4); inRange a n (descAt b) (descAt (b + 512))
  | .sequencer k => let b := 4096 * m + 768 * (k % 4) + 512; inRange a n (descAt b) (descAt (b + 128))
  | .mailbox k => let b := 4096 * m + 768 * (k % 4) + 640; inRange a n (descAt b) (descAt (b + 128))

/-- Regions that the control processor writes (R308). -/
def cpCommons (a n : Nat) : Bool :=
  inRange a n 0x10000000 0x10100000 || inRange a n 0x10500000 0x10520000 || inRange a n 0x11400000 0x12000000

/-- The issuer of tag g may write the bytes (R308, R316). -/
def mayStore (g a n : Nat) : Bool :=
  ownDescs g a n || (match issuerOf g with
    | .cp => cpCommons a n || (decide (0x20000000 ≤ a) && decodedMem a n)
    | .runtime k => inRange a n (0x200C0000 + k * 0x01000000) (0x20100000 + k * 0x01000000)
    | .sequencer _ => inRange a n 0x10600000 0x10800000
    | .mailbox k => inRange a n (0x10100000 + 0x40000 * k) (0x10100000 + 0x40000 * (k + 1)))

/-- Host memory may be named (R316). -/
def mayHost (g : Nat) (d : Desc) : Bool :=
  d.tenant = 0x100 || (match issuerOf g with
    | .runtime _ => true
    | .sequencer _ | .mailbox _ | .cp => false)

/-- One side of a transfer names what R316 permits. -/
def spaceOk (s : State) (g : Nat) (d : Desc) (sp a : Nat) (isDst : Bool) : Bool :=
  match sp with
  | 0 => decodedMem a d.len && (!isDst || mayStore g a d.len)
  | 1 => mayHost g d
  | 2 => d.tenant = 0x100 && decide (a + d.len ≤ jnlSpace s)
  | _ => false

/-- The checks of R316. -/
def descOk (s : State) (g : Nat) (d : Desc) : Bool :=
  decide (d.tenant ≤ 0x100) && decide (d.op ≤ 1) && decide (d.flags < 4) && decide (d.spaces < 16) && d.pad = 0 &&
  decide (1 ≤ d.len ∧ d.len ≤ 16777216) && spaceOk s g d d.dstSpace d.dst true &&
  (if d.op = 1 then d.dstSpace ≠ 2 else spaceOk s g d d.srcSpace d.src false)

/-- The descriptor's generation is stale (R320). -/
def staleDesc (s : State) (d : Desc) : Bool := decide (d.tenant < 256) && getF s (fGen d.tenant) ≠ d.gen

/-- End a transfer with a status in its present stage (R318, R321): nothing more is requested or issued. -/
def xferEnd (g st : Nat) (x : Xfer) : State → State := setXfer g { x with status := some st, data := [] }

/-- A function may issue requests to host memory (R422): the physical function, or a virtual function that is enabled. Bus
Master Enable and VF MSE are settings of the host, which no command of the block carries: a request that they refuse is one
that fails (log entry 98). -/
def hostUp (s : State) (d : Desc) : Bool := decide (256 ≤ d.tenant) || vfOn s d.tenant

/-- A write to host memory for a function (R317): performed at the link, or carried to the head's endpoint by a member (R342;
layout: log entry 33). -/
def hostPut (fn addr : Nat) (data : List Byte) (s : State) : State :=
  let b := le 2 fn ++ le 8 addr ++ data
  if isMember s then drnRoute 7 headSeat (0 :: le 2 (ownSeat s) ++ b) s
  else updGroup (fun g => { g with hostWrites := b :: g.hostWrites }) s

/-- The function whose requester ID a transfer carries (R317): the group tenant number, or 0xFFFF for the physical function. -/
def reqFn (s : State) (d : Desc) : Nat := if 256 ≤ d.tenant then 0xFFFF else 256 * getF s fGrpIndex + d.tenant

/-- Start the next read of a transfer from host memory or the journal, if bytes remain (R312, R321, R424); a function that may
not issue requests issues none (R317). -/
def nextRead (s : State) (x : Xfer) : Xfer :=
  if x.desc.op = 0 ∧ x.read < x.desc.len ∧ ((x.desc.srcSpace = 1 ∧ hostUp s x.desc = true) ∨ x.desc.srcSpace = 2) then
    { x with reads := 1, readAt := (if x.desc.srcSpace = 1 then some (now s) else none) }
  else { x with reads := 0, readAt := none }

/-- The read that a transfer of a member has started is asked of the head (R342; layout: log entry 33). -/
def askHost (x : Xfer) (s : State) : State :=
  let a := x.desc.src + x.read
  if isMember s && decide (x.reads = 1 ∧ x.desc.srcSpace = 1) then
    drnRoute 7 headSeat (1 :: le 2 (ownSeat s) ++ le 8 a ++ le 2 (min (x.desc.len - x.read) (min 512 (4096 - a % 4096))) ++
      le 2 (reqFn s x.desc)) s
  else s

/-- TRANSFER_ACCEPT (R312, R316, R321). -/
def execTransferAccept (g : TagId) (s : State) : Outcome :=
  match xfer s g.val with
  | some x =>
    if x.stage = 0 ∧ x.status.isNone then
      let d := descOf s g.val
      let x := { x with desc := d }
      if staleDesc s d then done (xferEnd g.val 1 x s)
      else if descOk s g.val d then
        let x := nextRead s { x with stage := if d.op = 1 then 2 else 1 }
        done (askHost x (setXfer g.val x s))
      else done (xferEnd g.val 3 x s)
    else done s
  | none => done s

/-! ### READ and WRITE (R312) -/

/-- Greatest chunk in a space at an address: 64 bytes internal; `h` bytes of host memory within a 4 KiB page; 4,096
bytes of the journal (R312). -/
def chunkMax (sp a h : Nat) : Nat := if sp = 0 then 64 else if sp = 1 then min h (4096 - a % 4096) else 4096

/-- The bytes a read chunk returns: from memory for an internal source, else what the command carries, cut to one chunk; none
where the request fails or the function may issue none (R317, R318). -/
def readData (s : State) (x : Xfer) (data : Option (List Byte)) : Option (List Byte) :=
  let a := x.desc.src + x.read
  let n := min (x.desc.len - x.read) (chunkMax x.desc.srcSpace a 512)
  if x.desc.srcSpace = 0 then some (readBytes s a n)
  else if x.desc.srcSpace = 1 ∧ hostUp s x.desc = false then none
  else data.map (fun b => b.take n)

/-- TRANSFER_READ_CHUNK (R312, R321): a fenced transfer's read data is discarded as it returns. -/
def execTransferReadChunk (g : TagId) (data : Option (List Byte)) (ecc : Bool) (s : State) : Outcome :=
  match xfer s g.val with
  | some x =>
    if x.held then done (delXfer g.val s)
    else if x.status.isSome then done (setXfer g.val { x with reads := 0, readAt := none } s)
    else if (x.stage = 1 ∨ x.stage = 2) ∧ x.desc.op = 0 ∧ x.read < x.desc.len then
      if staleDesc s x.desc then done (xferEnd g.val 1 { x with reads := 0, readAt := none } s)
      else match readData s x data with
        | none => done (xferEnd g.val (if x.desc.srcSpace = 2 then 5 else 2) { x with reads := 0, readAt := none } s)
        | some b =>
          if ecc ∧ x.desc.srcSpace = 0 then done (xferEnd g.val 4 x s)
          else
            let x := nextRead s { x with data := x.data ++ b, read := x.read + b.length }
            done (askHost x (setXfer g.val x s))
    else done s
  | none => done s

/-- Every transfer submitted earlier by the same issuer to the same mover has written its completion record (R313). -/
def orderOk (s : State) (g : Nat) (x : Xfer) : Bool :=
  !x.desc.ordered || s.xfers.all (fun p => p.1 / 4096 ≠ g / 4096 || issuerOf p.1 ≠ issuerOf g || p.2.held ||
    decide (x.order ≤ p.2.order))

/-- The bytes of the next write chunk (R312, R315): of the data read, or of the fill pattern. -/
def writeData (x : Xfer) : List Byte :=
  let a := x.desc.dst + x.moved
  let n := min (x.desc.len - x.moved) (chunkMax x.desc.dstSpace a 256)
  if x.desc.op = 1 then (List.range n).map (fun i => nth 0 (le 4 x.desc.src) ((x.moved + i) % 4)) else x.data.take n

/-- TRANSFER_WRITE_CHUNK (R312, R313, R321). `ok`: the host or journal write is performed. -/
def execTransferWriteChunk (g : TagId) (ok : Bool) (s : State) : Outcome :=
  match xfer s g.val with
  | some x =>
    let b := writeData x
    if x.status.isNone ∧ (x.stage = 1 ∨ x.stage = 2) ∧ orderOk s g.val x ∧ !b.isEmpty then
      let x := { x with stage := 2 }
      if staleDesc s x.desc then done (xferEnd g.val 1 x s)
      else if (x.desc.dstSpace = 1 ∧ hostUp s x.desc = false) ∨ (!ok ∧ x.desc.dstSpace ≠ 0) then done (xferEnd g.val (if x.desc.dstSpace = 2 then 5 else 2) x s)
      else
        let s := if x.desc.dstSpace = 0 then writeBytes (x.desc.dst + x.moved) b s
          else if x.desc.dstSpace = 1 then hostPut (reqFn s x.desc) (x.desc.dst + x.moved) b s else s
        let x := { x with data := x.data.drop b.length, moved := x.moved + b.length }
        done (setXfer g.val (if x.moved = x.desc.len then { x with stage := 3, status := some 0 } else x) s)
    else done s
  | none => done s

/-! ### COMPLETE (R318–R321) -/

/-- Raise the issuer's mover sources of a NOTIFY transfer (R315, R378, R388), and the router's P_MOVER (R389). -/
def movNotify (g st : Nat) (s : State) : State :=
  match issuerOf g with
  | .runtime n =>
    let s := evProduce n 28 (fun _ => true) (occur n 17 s)
    if st = 0 then s else occur n 18 s
  | .cp => let s := occurCp 2 s; if st = 0 then s else occurCp 3 s
  | .sequencer _ | .mailbox _ => s

/-- Count an end: MOV_FENCED and MOV_ERR (R318, R327). -/
def movErr (m st : Nat) (s : State) : State :=
  match st with
  | 1 => addF (fld (movK m 8) 31 0) 1 s
  | 2 => flag (fMovErr m 0) s
  | 3 => flag (fMovErr m 1) s
  | 4 => flag (fMovErr m 2) s
  | 5 => flag (fMovErr m 3) s
  | _ => s

/-- The completion record (R319). -/
def complBytes (s : State) (x : Xfer) (st : Nat) : List Byte :=
  [BitVec.ofNat 8 st, BitVec.ofNat 8 x.stage] ++ le 2 x.desc.tenant ++ le 2 x.desc.gen ++ le 2 0 ++ le 4 x.moved ++
  le 4 (now s)

/-- A member's host writes of a transfer are not yet known to be transmitted (R342). -/
def unflushed (s : State) (x : Xfer) : Bool := isMember s && decide (x.desc.dstSpace = 1 ∧ 0 < x.moved ∧ x.flush ≠ 2)

/-- TRANSFER_COMPLETE (R318–R321): the record is written, the tag freed, or held for the reads of a fenced transfer;
NEXT is submitted after OK. A member's host writes are performed once the flush marker sent after them has returned (R342). -/
def execTransferComplete (g : TagId) (s : State) : Outcome :=
  match xfer s g.val with
  | some x =>
    match x.status with
    | some st =>
      if x.held then done s
      else if unflushed s x then
        done (if x.flush = 1 then s
          else drnRoute 7 headSeat (3 :: le 2 (ownSeat s) ++ le 2 g.val) (setXfer g.val { x with flush := 1 } s))
      else
        let st := if st = 0 ∧ staleDesc s x.desc then 1 else st
        let s := movErr (g.val / 4096) st (writeBytes (complAt g.val) (complBytes s x st) s)
        let s := if st = 1 ∧ x.reads ≠ 0 then setXfer g.val { x with status := some 1, held := true } s else delXfer g.val s
        let s := if x.desc.notify then movNotify g.val st s else s
        let nx := g.val / 4096 * 4096 + x.desc.next
        done (if st = 0 ∧ x.desc.next < 4096 ∧ issuerOf nx = issuerOf g.val ∧ (xfer s nx).isNone then submitTag nx s else s)
    | none => done s
  | none => done s

/-- COMPLETION_TIMEOUT (R424): 50 ms after a host read was issued. -/
def execCompletionTimeout (g : TagId) (s : State) : Outcome :=
  match xfer s g.val with
  | some x =>
    match x.readAt with
    | some t => atDue (some (t + msTurns 50)) (fun s =>
        let s := updHost (fun h => { h with aer := (x.desc.tenant, 3) :: h.aer }) s
        if x.held then delXfer g.val s
        else if x.status.isSome then setXfer g.val { x with reads := 0, readAt := none } s
        else xferEnd g.val 2 { x with reads := 0, readAt := none } s) s
    | none => done s
  | none => done s

/-! ### Arbitration (R322–R325) -/

/-- Population tag of a port (R322): FAB_WEIGHT for ports 16 and 21–23, else the number of requesters that wait. -/
def popTag (s : State) (p n : Nat) : Nat :=
  match p with
  | 16 => getF s (fld 0x41002000 3 0)
  | 21 => getF s (fld 0x41002000 7 4)
  | 22 => getF s (fld 0x41002000 11 8)
  | 23 => getF s (fld 0x41002000 15 12)
  | _ => n

/-- The port of a period with grants still owed and the largest d; the lowest port on ties (R323). -/
def bestPort (ps : List ArbPort) : Option ArbPort :=
  ps.foldl (fun b p => if p.owed = 0 then b else match b with
    | none => some p
    | some q => if q.d < p.d ∨ (p.d = q.d ∧ p.port < q.port) then some p else some q) none

/-- One fabric cycle of a period with total `total` (R323). -/
def arbCycle (total : Nat) (a : ArbSt) : ArbSt :=
  let ps := a.ports.map (fun p => { p with d := p.d + p.n })
  match bestPort ps with
  | none => a
  | some g =>
    { ports := ps.map (fun p => if p.port = g.port then { p with d := p.d - total, owed := p.owed - 1 } else p),
      grants := a.grants ++ [g.port],
      last := Tab.put a.last g.port ((Tab.getD a.last g.port 0 + 1) % (max 1 g.n)) }

/-- The cycles of a period: one per grant owed. -/
def arbRun (total : Nat) : Nat → ArbSt → ArbSt
  | 0, a => a
  | n + 1, a => arbRun total n (arbCycle total a)

def initArb : ArbSt := { ports := [], grants := [], last := [] }

/-- A whole period at a target, from the ports and tags latched at its first cycle (R323). -/
def arbPeriod (tags : List (Nat × Nat)) (a : ArbSt) : ArbSt :=
  let ps := tags.map (fun t => ({ port := t.1, n := t.2, owed := t.2, d := 0 } : ArbPort))
  let total := (tags.map (fun t => t.2)).foldl (· + ·) 0
  arbRun total total { a with ports := ps, grants := [] }

/-- ARBITRATION_PERIOD (R322, R323, R325): the ports with a request keep it waiting through the period; a bank is
suspended during a handover. -/
def execArbitrationPeriod (target : Fin 17) (tags : List (Nat × Nat)) (s : State) : Outcome :=
  if target.val < 16 && s.guard.run.isSome then done s
  else
    let ts := tags.map (fun t => (t.1, popTag s t.1 t.2))
    done (mapArbs (fun t => Tab.put t target.val (arbPeriod ts (Tab.getD t target.val initArb))) s)

end Sys2Proof.Machine
end

