-- ==== Sys2Proof/Machine/Draren.lean ====
section
/-! DEFINITION. Draren links, seats, admission and drop-out (spec/13_draren_chain_and_groups.md R328–R350), as one chip
of a group sees them. Payload layouts that the spec does not state are the model's (log entry 33). -/

namespace Sys2Proof.Machine

/-- A DRN_STAT W1C bit is set (R388). -/
def drnBit (f : Fld) (s : State) : State := flag f (if isSet s f then s else occurCp 5 s)

/-- A GROUP record (R350). -/
def jGroup (ev seat serial presented detail : Nat) (s : State) : State :=
  occurCp 11 (jnl 0x13 ([BitVec.ofNat 8 ev] ++ le 2 seat ++ le 8 serial ++ le 4 (groupEpoch s) ++ le 4 presented ++
    le 4 detail) s)

/-- DETAIL of events 4 and 5: port, lane, rate and width, one byte each (log entry 33). -/
def linkDetail (s : State) (p lane : Nat) : Nat :=
  p + 0x100 * lane + 0x10000 * getF s (fDrnRate p) + 0x1000000 * getF s (fDrnWidth p)

/-! ### Addressing (R336) -/

/-- ADDRESS to the child of D port p (R336). -/
def sendAddress (p : Nat) (s : State) : State :=
  drnSend p 1 false 0xFFFF (le 2 (childSeat (ownSeat s) (p - 1)) ++ [1, 0] ++ le 4 (groupEpoch s) ++
    le 8 s.group.headSerial ++ le 8 (frameNo s) ++ le 2 (getF s fLenActive) ++ List.replicate 6 0) s

/-- An addressed chip sends ADDRESS when a D port comes up (R336); a member addresses its children once admitted
(R339). -/
def mayAddress (s : State) : Bool := isSet s fGrpValid && isSet s fGrpAdmitted && decide (seatDepth (ownSeat s) < 8)

/-! ### Capacity (R340) -/

/-- This chip's own share: chips, tenants, ports. A chip of seat index 16 or more contributes no tenants, one of index 63 or
more no ports (R341). -/
def ownCaps (s : State) : Nat × Nat × Nat :=
  let i := getF s fGrpIndex
  if isSet s fGrpAdmitted then
    (1, if i < 16 then (tenantIds.filter (fun t => (ten s t).configured)).length else 0, if i < 63 then (portIds s).length else 0)
  else (0, 0, 0)

/-- Sum over the subtree; a changed sum is shown and sent up. -/
def capsUpdate (s : State) : State :=
  let a := ownCaps s
  let b := (drn s 1).caps
  let c := (drn s 2).caps
  let sum := (a.1 + b.1 + c.1, a.2.1 + b.2.1 + c.2.1, a.2.2 + b.2.2 + c.2.2)
  let old := s.group.caps
  let s := updGroup (fun g => { g with caps := sum }) (setF fGrpChips sum.1 s)
  if sum ≠ old ∧ !isHead s ∧ drnUp s 0 then drnSend 0 0x0B false 0xFFFF (le 2 sum.1 ++ le 4 sum.2.1 ++ le 4 sum.2.2) s
  else s

/-! ### Drop-out and leaving (R347, R348) -/

/-- Take a link down. -/
def drnDown (p : Nat) (s : State) : State :=
  updDrn p (fun x => { x with swapEnd := none, order := [] })
    (setF (fDrnState p) 0 (setF (fDrnRate p) 0 (setF (fDrnWidth p) 0 s)))

/-- Forget a link's sequence state: the partner behind it is gone. -/
def drnForget (p : Nat) (s : State) : State :=
  updDrn p (fun x => { x with txSeq := 0, rxSeq := 0, replay := [], lastValid := none, beat := none, replayReq := false,
                              caps := (0, 0, 0) }) s

/-- Indexes of the seats with ports in the subtree that begins with a seat. -/
def subIndexes (seat : Nat) : List Nat := (List.range 63).filter (fun i => seatFor i = seat || inSubtree seat (seatFor i))

/-- The ports of a subtree are lost (R89, R348): the devices here that are bound to them are told, as are one-shots that
entered their FIFOs and were not reported; the present turn is D, and the reports count as discards at the next tick. A
chip issues the events of its own tenants' devices: which others are bound stands in no state of it (log entry 80). -/
def loseFar (seat : Nat) (s : State) : State :=
  let l := subIndexes seat
  let gone := fun (p : Nat) => isFar p && l.contains ((p - 0x10000) / 1024)
  let t := now s
  let f := frameNo s
  let d := nextTick s
  let sent := fun (q : Nat × OutMsg) => gone q.2.port && decide (q.1 ≤ f)
  let out := s.group.farOut.filter sent
  let s := updGroup (fun g => { g with farLost := l ++ g.farLost.filter (fun i => !l.contains i),
                                       farOut := g.farOut.filter (fun q => !sent q) }) s
  let s := each (s.devices.filter (fun q => q.2.bound && gone q.2.port)) (fun q s =>
    sendItem (q.1 / 16) (q.1 % 16) t (portKey s q.2.port) true (.port q.2.port 4 0) s) s
  each out (fun q s => match q.2.tag with
    | some g => sendItem q.2.tenant q.2.dev d (portKey s q.2.port) true (.report g 0xFFFF) s
    | none => s) s

/-- A drop-out of the subtree below a seat is recorded (R348). -/
def dropOut (seat : Nat) (s : State) : State :=
  let s := if isHead s then setF fGrpEpoch (groupEpoch s + 1) s else s
  let serial := (s.group.seats.find? (fun x => x.seat = seat)).elim 0 (fun x => x.serial)
  let s := updGroup (fun g => { g with seats := g.seats.map (fun x =>
                                         if x.seat = seat || inSubtree seat x.seat then { x with occupied := false, admitAt := none } else x) }) s
  loseFar seat (jGroup 2 seat serial 0 0 s)

/-- Chips of a subtree are back. -/
def regain (l : List Nat) : State → State := updGroup (fun g => { g with farLost := g.farLost.filter (fun i => !l.contains i) })

/-- D port p is lost (R332, R348). -/
def loseChild (p : Nat) (s : State) : State :=
  if (drn s p).lastValid.isSome then capsUpdate (drnForget p (dropOut (childSeat (ownSeat s) (p - 1)) (drnDown p s)))
  else drnDown p s

/-- Records sent to the ancestor and not taken are lost when U is lost (R349): counted, and told by the GAP record that opens the
next segment; records that waited for a TICK are accepted. -/
def loseStream (s : State) : State :=
  let n := ((inFlight s).filter (fun f => imgB f.payload 2 = 1)).length
  let fl := s.journal.flight.take n
  let sent := streams s
  let s := match fl.getLast?, fl with
    | some a, z :: _ => updJnl (fun j => { j with gap := match j.gap with
                                                    | some (k, a', _) => some (k + n, a', z)
                                                    | none => some (n, a, z) })
                          (flag fJnlGap (setF fJnlDropping 1 (addF fJnlDrops n (if isSet s fJnlGap then s else occurCp 4 s))))
    | _, _ => s
  if sent then
    let g := newSeg s (now s)
    updJnl (fun j => { j with openSeg := some g, flight := [] }) s
  else s

/-- A member that sends its stream begins it at its admission (R200): a segment opens, with the GAP record where one is due, and
the records accepted before follow in it. -/
def streamStart (s : State) : State :=
  if streams s then
    let old := s.journal.openSeg.elim [] (fun g => g.recs.reverse)
    each old appendRec (openNew (now s) (updJnl (fun j => { j with openSeg := none }) s))
  else s

/-- This chip leaves the group (R347): every port is lost, every pad safe, its tenants are served no more, its
children are detached, and it has no seat. -/
def leaveGroup (s : State) : State :=
  let s := loseStream s
  let s := each (portIds s) lossRecorded s
  let s := each (List.range 1024) (padSafe 2) s
  let s := each (tenantIds.filter (fun t => getF s (fTState t) ≠ 0)) (fun t s => setF (fTState t) 0 (abandon t s)) s
  let s := each [1, 2] (fun p s => if drnUp s p then drnSend p 4 false 0xFFFF [] s else s) s
  let s := updHost (fun h => { h with vfEnable := false, numVfs := 0 }) s
  let s := jnlFlush (setF fGroupLock 0 (setF fGrpAdmitted 0 (setReg 0x42000400 0 s)))
  capsUpdate (updGroup (fun g => { g with lastHead := g.headSerial, admitTick := none, tickFrame := none, heard := [], farOut := [], farLost := [],
                                          outItems := [] }) s)

/-! ### Training (R329) -/

/-- Number of lanes in a set. -/
def laneCount (m : Nat) : Nat := ((List.range 5).filter (fun l => m / 2 ^ l % 2 = 1)).length

/-- Widest width that both masks allow, at most `n` and 4. -/
def widthFor (own partner n : Nat) : Nat :=
  ((List.range 5).filter (fun w => decide (1 ≤ w ∧ w ≤ n) && own / 2 ^ (w - 1) % 2 = 1 &&
    partner / 2 ^ (w - 1) % 2 = 1)).foldl max 0

/-- The settled mode: (rate code, width, good lanes), the largest product, the wider on equal products. -/
def settleMode (own partner top : Nat) (good : Nat → Nat) : Nat × Nat × Nat :=
  [3, 2, 1].foldl (fun (b : Nat × Nat × Nat) r =>
    let w := if r ≤ top then widthFor own partner (min 4 (laneCount (good r))) else 0
    let p := 2 ^ (r - 1) * w
    let q := 2 ^ (b.1 - 1) * b.2.1
    if p > q ∨ (p = q ∧ w > b.2.1) then (r, w, good r) else b) (1, 0, 0)

/-- A port may train (R329, R335, R336): a chip without a seat, or of depth 8, holds its D ports down; a head's U is
disabled. -/
def mayTrain (s : State) (p : Nat) : Bool :=
  isSet s (fDrnEnable p) && decide (getF s (fDrnState p) < 2) && (if p = 0 then !s.group.uDisabled else mayAddress s)

/-- A training that settled on rate `rate` and width `width` over the good lanes `lanes` (a mask): the link is up, and the
head or an addressed chip addresses its new neighbour. -/
def linkUp (p rate width mask : Nat) (s : State) : State :=
  let t := now s
  let lanes := (List.range 5).filter (fun l => mask / 2 ^ l % 2 = 1)
  let s := setF (fDrnSpare p) (if lanes.length = 5 then 4 else 0xF) (setF (fDrnWidth p) width
    (setF (fDrnRate p) rate (setF (fDrnState p) 2 s)))
  let was := (drn s p).trained
  let s := updDrn p (fun x => { x with good := mask, order := lanes.take width, trained := true, retryAt := none,
                                       lastValid := some t, beat := some t }) s
  let s := if was then jGroup 5 (ownSeat s) 0 0 (linkDetail s p 0) s else s
  if p ≠ 0 ∧ mayAddress s then sendAddress p s else s

/-- LINK_TRAIN (R329). -/
def linkTrain (p : Nat) (i : TrainInfo) (s : State) : State :=
  if i.partnerU = decide (p = 0) then drnBit (fDrnMiswire p) (drnDown p s)
  else
    let s := if getF s (fDrnState p) = 0 then setF (fDrnLaneFail p) 0 s else s
    let ok := fun g => g - (g &&& getF s (fDrnLaneFail p))
    let good := fun r => ok (if r = 3 then i.good3.toNat else if r = 2 then i.good2.toNat else i.good1.toNat)
    let m := settleMode (getF s (fDrnMaxWidth p)) i.maxWidth.toNat (min (getF s (fDrnMaxRate p)) i.maxRate.toNat) good
    if m.2.1 = 0 then
      updDrn p (fun x => { x with retryAt := some (now s + msTurns 10) }) (setF (fDrnState p) 1 s)
    else linkUp p m.1 m.2.1 m.2.2 s

def execLinkTrain (p : DrnPort) (info : TrainInfo) (s : State) : Outcome :=
  done (if mayTrain s p.val then linkTrain p.val info s else s)

/-- TRAIN_RETRY (R329 step 5): training restarts 10 ms after no rate had a good lane. -/
def execTrainRetry (p : DrnPort) (s : State) : Outcome :=
  atDue (drn s p.val).retryAt (fun s =>
    updDrn p.val (fun x => { x with retryAt := none }) (setF (fDrnState p.val) 1 s)) s

/-- A write of DRN_CTRL (R350). -/
def drnCtrlWrite (p : Nat) (v : Word) (s : State) : State :=
  let was := isSet s (fDrnEnable p)
  let s := softWrite (drnK p 0) v s
  if was && !isSet s (fDrnEnable p) then (if p = 0 then drnDown p s else loseChild p s)
  else if v.getLsbD 12 then drnDown p s else s

/-- DRN_RETRAIN: RETRAIN is written (R350). -/
def execDrnRetrain (c : CoreId) (p : DrnPort) (s : State) : Outcome :=
  done (cpOnly c (drnK p.val 0) (fun s => drnCtrlWrite p.val (reg s (drnK p.val 0) ||| 0x1000) s) s)

/-- DRN_DISABLE: ENABLE is written 0 (R350). -/
def execDrnDisable (c : CoreId) (p : DrnPort) (s : State) : Outcome :=
  done (cpOnly c (drnK p.val 0) (fun s => drnCtrlWrite p.val (withBits (reg s (drnK p.val 0)) 0 0 0) s) s)

/-- HEARTBEAT_SEND (R332): 2 µs after the last frame sent. -/
def execHeartbeatSend (p : DrnPort) (s : State) : Outcome :=
  if drnUp s p.val then atDue ((drn s p.val).beat.map (fun t => t + 960)) (drnSend p.val 0 false 0xFFFF []) s else done s

/-! ### Reception (R330, R333, R334) -/

/-- Drop acknowledged frames from the replay buffer. -/
def drnAck (p ack : Nat) (s : State) : State :=
  updDrn p (fun x => { x with replay := x.replay.filter (fun f => decide (32768 ≤ (ack + 65536 - f.seq) % 65536)) }) s

/-- A frame of a type is received (R330, R333, R334): checked, acknowledged, delivered in order once, discarded where
a reserved bit is set, forwarded, or consumed by `k`. -/
def drnRx (type : Nat) (f : Frame) (k : State → State) (s : State) : State :=
  let p := f.port.val
  let x := drn s p
  let q := f.seq.toNat
  if !drnUp s p then s
  else if !f.crcOk then updDrn p (fun x => { x with replayReq := true }) (addF (fDrnReplays p) 1 s)
  else
    let t := now s
    let s := updDrn p (fun x => { x with lastValid := some t }) s
    if q ≠ x.rxSeq then
      (if (q + 65536 - x.rxSeq) % 65536 < 32768 then
        updDrn p (fun x => { x with replayReq := true }) (addF (fDrnReplays p) 1 s) else s)
    else
      let s := drnAck p f.ack.toNat (updDrn p (fun x => { x with rxSeq := (x.rxSeq + 1) % 65536, replayReq := false }) s)
      if f.reservedBit then addF (fDrnBad p) 1 s
      else if p = 0 ∧ !isSet s fGrpValid ∧ !(type = 0 ∨ type = 1 ∨ type = 4) then s
      else if f.routed ∧ f.dst.toNat ≠ ownSeat s then drnRoute type f.dst.toNat f.payload s
      else k s

/-- HEARTBEAT (R332, R333). -/
def execHeartbeat (f : Frame) (s : State) : Outcome := done (drnRx 0 f (fun s => s) s)

/-- ADDRESS (R336, R337): the seat is taken, and admission is requested of the head. -/
def takeAddress (b : List Byte) (s : State) : State :=
  let seat := leAt b 0 2
  let old := s.group.lastHead
  let s := setF fGrpIndex (seatIndex seat) (setF fGrpSeat seat (setF fGrpValid 1 s))
  let s := updGroup (fun g => { g with headSerial := leAt b 8 8 }) (setF fGrpEpoch (leAt b 4 4) s)
  let held := admEpoch s
  drnRoute 2 0 (le 2 seat ++ le 8 Config.otpSerial.toNat ++ le 8 (if held = 0 then 0 else old) ++ le 4 held ++
    [if isSet s fJnlRunning then 1 else 0]) s

def execAddress (f : Frame) (s : State) : Outcome :=
  done (drnRx 1 f (fun s => if f.port.val = 0 && !isHead s && leAt f.payload 2 1 = 1 then takeAddress f.payload s else s) s)

/-- The first tick at least 2 ms from now (R339). -/
def admitTickAt (s : State) : Nat := frameNo s + 1 + (now s + msTurns 2 - nextTick s + frameTurns s - 1) / frameTurns s

/-- A configuration entry as ADMIT carries it (log entry 33): code, length, data; epoch 0 marks a frame that continues one. -/
def confFrame (e : Nat × List Byte) : List Byte := le 4 0 ++ [BitVec.ofNat 8 e.1] ++ le 2 e.2.length ++ e.2

/-- An image in pieces of at most 4,000 bytes (code 0x4B), then its name (code 0x4C). The fuel is its length. -/
def confImage (name : List Byte) : Nat → List Byte → List (Nat × List Byte)
  | 0, _ => [(0x4C, name)]
  | n + 1, bs => if bs.isEmpty then [(0x4C, name)] else (0x4B, bs.take 4000) :: confImage name n (bs.drop 4000)

/-- The configuration that the head sends to a seat (R339): the active images that its ports need, then its entries. -/
def confOf (s : State) (i : Nat) : List (Nat × List Byte) :=
  let es := (s.group.conf.filter (fun e => e.1 = i)).map (fun e => e.2)
  let tables := ((es.filter (fun e => e.1 = 0x42)).map (fun e => (leAt e.2 16 4, leAt e.2 20 2))).eraseDups
  (tables.map (fun q => (activeImg s q.1 q.2).elim [] (fun img =>
    confImage (le 4 (aptId img) ++ le 2 (aptMajor img) ++ le 2 (aptMinor img)) (img.length / 4000 + 1) img))).flatten ++ es

/-- ADMIT_REQ at the head (R339). -/
def takeAdmitReq (b : List Byte) (s : State) : State :=
  let seat := leAt b 0 2
  let serial := leAt b 2 8
  let s := if s.group.seats.any (fun x => x.seat = seat && x.occupied) then dropOut seat s else s
  let ep := if leAt b 10 8 = s.group.headSerial then leAt b 18 4 else 0
  let a := admitTickAt s
  let r : Seat := { seat := seat, serial := serial, epoch := groupEpoch s, occupied := true, admitAt := some a }
  let s := regain [seatIndex seat] (updGroup (fun g => { g with seats := r :: g.seats.filter (fun x => x.seat ≠ seat) }) s)
  let s := jGroup 1 seat serial ep 0 (jGroup 0 seat serial ep 0 s)
  let s := if ep < groupEpoch s then jGroup 3 seat serial ep 0 s else s
  let s := drnRoute 3 seat (le 4 (groupEpoch s) ++ le 8 a ++ le 2 (getF s fLenActive) ++ le 1 (getF s fOvrLimit) ++
    [if s.host.vfEnable then 1 else 0] ++ le 2 s.host.numVfs) s
  each (confOf s (seatIndex seat)) (fun e => drnRoute 3 seat (confFrame e)) s

def execAdmitReq (f : Frame) (s : State) : Outcome :=
  done (drnRx 2 f (fun s => if isHead s then takeAdmitReq f.payload s else s) s)

/-- ADMIT at the member (R339): the admission tick, and then the configuration to take at it. -/
def execAdmitFrame (f : Frame) (s : State) : Outcome :=
  done (drnRx 3 f (fun s =>
    if isSet s fGrpValid && !isHead s then
      updGroup (fun g => if leAt f.payload 0 4 = 0 then { g with admitConf := g.admitConf ++ f.payload.drop 4 }
                         else { g with admitTick := some (leAt f.payload 4 8), admitConf := f.payload }) s
    else s) s)

/-- DETACH (R333, R347): the parent withdraws the seat. -/
def execDetach (f : Frame) (s : State) : Outcome :=
  done (drnRx 4 f (fun s => if f.port.val = 0 && isSet s fGrpValid && !isHead s then leaveGroup s else s) s)

/-! ### Ticks (R345, R346) -/

/-- Payload of a TICK frame of the head (R345): FRAME, LEN, pending length and its tick, epoch, calendar, offset 0. -/
def tickPayload (s : State) : List Byte :=
  let pd := s.time.pendLen.elim (0, 0) (fun p => p)
  le 8 (frameNo s) ++ le 2 (getF s fLenActive) ++ le 2 pd.1 ++ le 8 pd.2 ++ le 4 (groupEpoch s) ++
  le 6 (s.time.cur.cal / 65536) ++ le 2 (s.time.cur.cal % 65536) ++ le 2 0

/-- Send a TICK frame on each D port that is up (R345). -/
def sendTicks (b : List Byte) (s : State) : State :=
  if isSet s fGrpValid then
    each [1, 2] (fun p s => if drnUp s p then drnSend p 5 false 0xFFFF b s else s)
      (updGroup (fun g => { g with lastTick := b }) s)
  else s

/-- Put the head's calendar fields into the record of frame k (R65, R346). -/
def tickCalendar (k cal : Nat) (s : State) : State :=
  updTime (fun x => { x with cur := if x.cur.frame = k then { x.cur with cal := cal } else x.cur,
                             past := x.past.map (fun r => if r.frame = k then { r with cal := cal } else r) }) s

/-- What an admitted member takes of a TICK frame for its frame records (R65, R345): the head's calendar, and the length of the
frame in progress. -/
def tickFields (b : List Byte) (s : State) : State :=
  let k := leAt b 0 8
  let len := leAt b 8 2
  if isSet s fGrpAdmitted then
    let s := tickCalendar k (leAt b 24 6 * 65536 + leAt b 30 2) s
    if k = frameNo s ∧ len ≠ 0 ∧ len ≠ s.time.cur.rounds then
      setF fLenActive len (updTime (fun x => { x with cur := { x.cur with rounds := len } }) s)
    else s
  else s

/-- A member sends TICK k to its children once its tick k has fallen and the head's fields of it are there (R345). Its own offset
from the head's tick is a free value (log entry 99). -/
def passTick (b : List Byte) (s : State) : State :=
  sendTicks (b.take 32 ++ le 2 (Config.freeNat (fresh s))) (useFresh s)

/-- TICK (R345, R346): frame state, pending length and calendar of the head; a changed pending length is relayed at
once. -/
def takeTick (b : List Byte) (s : State) : State :=
  let k := leAt b 0 8
  let pd := (leAt b 10 2, leAt b 12 8)
  let new : Option (Nat × Nat) := if pd.1 = 0 then none else some pd
  let changed := decide (new ≠ s.time.pendLen)
  let s := setF fGrpEpoch (leAt b 20 4) (updGroup (fun g => { g with tickFrame := some k, heard := b }) s)
  let s := jnlFlush (tickFields b s)
  let s := if changed then setF fLenPending (if new.isSome then 1 else 0) (updTime (fun x => { x with pendLen := new }) s) else s
  if k = frameNo s then passTick b s
  else if changed then sendTicks (patch s.group.lastTick 10 (slice b 10 10)) s
  else s

/-- At a member's tick: the fields of a TICK frame that came before it are taken for the frame that begins. -/
def heardFields (s : State) : State :=
  if isMember s && decide (leAt s.group.heard 0 8 = frameNo s ∧ s.group.heard ≠ []) then tickFields s.group.heard s else s

/-- The TICK frames of this tick (R345): a member that has not heard its parent's sends them when it does. -/
def tickOut (s : State) : State :=
  if isMember s then
    (if leAt s.group.heard 0 8 = frameNo s ∧ s.group.heard ≠ [] then passTick s.group.heard s else s)
  else sendTicks (tickPayload s) s

def execTick (f : Frame) (s : State) : Outcome :=
  done (drnRx 5 f (fun s => if f.port.val = 0 && !isHead s then takeTick f.payload s else s) s)

/-- A piece of a member's stream (R200, R349; layout: log entry 33): its chain's segment opens, takes a record, or closes and
waits to be signed and placed. -/
def chainTake (b : List Byte) (s : State) : State :=
  let seat := leAt b 0 2
  let c := (s.journal.chains.find? (fun x => x.seat = seat)).elim { seat := seat, seq := 0, digest := [], seg := none } (fun x => x)
  let keep := fun (g : Option Seg) => updJnl (fun j => { j with chains := { c with seg := g } :: j.chains.filter (fun x => x.seat ≠ seat) })
  let d := b.drop 3
  match imgB b 2 with
  | 0 => keep (some { newSeg s (now s) with openStamp := stampOf d, loss := imgB d 20, epoch := leAt d 21 4, lenRounds := leAt d 25 4,
                                            seat := seat, chain := some seat }) s
  | 1 => match c.seg with
    | some g => keep (some { g with ext := d :: g.ext, raw := g.raw + d.length }) s
    | none => s
  | _ => match c.seg with
    | some g =>
      let g := { g with close := imgB d 0, closeTurn := now s, closeStamp := stampOf (d.drop 1) }
      jnlFull (updJnl (fun j => { j with closed := j.closed ++ [g], stage := j.stage + segSize g }) (keep none s))
    | none => s

/-- JOURNAL (R200, R349): the nearest ancestor with a running journal writes the stream of the seat in bytes 0–1 as a separate
chain; another sends it on. -/
def takeStream (b : List Byte) (s : State) : State :=
  if isSet s fJnlRunning then chainTake b s else drnSend 0 0x0A false 0xFFFF b s

def execDrnJournal (f : Frame) (s : State) : Outcome := done (drnRx 0x0A f (takeStream f.payload) s)

/-- CAPACITY (R340): the sum of the subtree below a D port. -/
def execCapacity (f : Frame) (s : State) : Outcome :=
  let b := f.payload
  done (drnRx 0x0B f (fun s => if f.port.val = 0 then s
    else
      let s := if leAt b 0 2 = 0 ∨ isHead s then s else regain (subIndexes (childSeat (ownSeat s) (f.port.val - 1))) s
      capsUpdate (updDrn f.port.val (fun x => { x with caps := (leAt b 0 2, leAt b 2 4, leAt b 6 4) }) s)) s)

/-! ### Lanes and loss (R331, R332) -/

/-- LANE_FAIL (R331). -/
def laneFailed (p l : Nat) (s : State) : State :=
  let t := now s
  let sp := getF s (fDrnSpare p)
  let s := setF (bit (drnK p 4) (16 + l)) 1 s
  let s := faultRec 0x0D 0 6 0xFF 0xFF l 0xFFFF 0 0 0 s
  if sp = l then setF (fDrnSpare p) 0xF s
  else if (drn s p).order.contains l then
    if sp = 0xF then setF (fDrnState p) 1 s
    else
      let s := updDrn p (fun x => { x with order := x.order.map (fun k => if k = l then sp else k),
                                           swapEnd := some (t + 9600) }) s
      let s := drnBit (fDrnSpareUsed p) (setF (fDrnSpare p) 0xF (setF (fDrnState p) 3 s))
      jGroup 4 (ownSeat s) 0 0 (linkDetail s p l) s
  else s

def execLaneFail (p : DrnPort) (lane : Fin 5) (s : State) : Outcome :=
  done (if drnUp s p.val then laneFailed p.val lane.val s else s)

/-- LANE_SWAP_DONE (R331): the link resumes within 20 µs, and every frame in flight is replayed. -/
def execLaneSwapDone (p : DrnPort) (s : State) : Outcome :=
  match (drn s p.val).swapEnd with
  | some e =>
    done (if getF s (fDrnState p.val) = 3 ∧ now s ≤ e then
            updDrn p.val (fun x => { x with swapEnd := none }) (addF (fDrnReplays p.val) 1 (setF (fDrnState p.val) 2 s))
          else s)
  | none => done s

/-- LINK_LOSS (R332): no valid frame for 19,200 turns. -/
def execLinkLoss (p : DrnPort) (s : State) : Outcome :=
  atDue ((drn s p.val).lastValid.map (fun t => t + 19200)) (fun s =>
    let s := occurCp 5 s
    if p.val = 0 then
      let s := drnForget 0 (drnDown 0 s)
      if isSet s fGrpValid && !isHead s then leaveGroup s else s
    else loseChild p.val s) s

/-- HEAD_ELECTION (R335): U has not trained within 100 ms of reset release, and HEAD reads low. -/
def electHead (s : State) : State :=
  let s := setF fGrpHead 1 (setF fGrpSeat 0 (setF fGrpIndex 0 (setF fGrpValid 1 s)))
  let s := setF fGrpEpoch 1 (setF fGrpAdmitted 1 s)
  let t := now s
  capsUpdate (updGroup (fun g => { g with headSerial := Config.otpSerial.toNat, uDisabled := true, electedAt := some t })
    (drnDown 0 s))

def execHeadElection (s : State) : Outcome :=
  if isSet s fGrpValid || (drn s 0).trained || isSet s fHeadStrap then done s
  else atDue (some (msTurns 100)) electHead s

/-- STANDALONE_DECISION (R341): 100 ms after its election the head fixes TotalVFs. -/
def execStandaloneDecision (s : State) : Outcome :=
  atDue (s.group.electedAt.map (fun t => t + msTurns 100)) (fun s =>
    let many := (drn s 1).trained || (drn s 2).trained
    setF fGrpStandalone (if many then 0 else 1)
      (updGroup (fun g => { g with totalVfs := if many then 4096 else 256, electedAt := none }) s)) s

/-- DELAY_MEASURE (R344): half the round trip, in 1/16 turn. -/
def execDelayMeasure (p : DrnPort) (roundTrip : BitVec 24) (s : State) : Outcome :=
  done (if drnUp s p.val then setF (fDrnDelay p.val) (roundTrip.toNat / 2) s else s)

end Sys2Proof.Machine
end

