-- ==== Sys2Proof/Machine/Power.lean ====
section
/-! DEFINITION. Cluster power, the slack governor, STANDBY and DEEP, the sentry, resets, crossings, and boot
(spec/16_power_reset_and_crossings.md, spec/15_interrupts_and_event_routing.md R396–R398,
spec/17_host_link_management_and_boot.md R426, R429–R436). -/

namespace Sys2Proof.Machine

/-! ### Registers (R418) -/

def fGovEn : Fld := bit 0x47000010 31
def fGovBand : Fld := fld 0x47000010 15 8
def fGovTarget : Fld := fld 0x47000010 7 0
def fRstCause : Fld := fld 0x47000020 3 0
def fWakeSmbus : Fld := bit 0x47000040 0
def fSmbWake : Fld := fld 0x47000044 6 0
def fMv10 (n : Nat) : Fld := fld (0x47000200 + 4 * n) 6 0
def fGovLast (n : Nat) : Fld := fld (0x47000300 + 4 * n) 7 0
def fGovRaises (n : Nat) : Fld := fld (0x47000300 + 4 * n) 19 8
def fGovLowers (n : Nat) : Fld := fld (0x47000300 + 4 * n) 31 20
def fXcQuiesced (x : Nat) : Fld := bit (0x47000400 + 4 * x) 31
def fXcDrop (x : Nat) : Fld := fld (0x47000400 + 4 * x) 23 0
def fSentryHit (k : Nat) : Fld := bit 0x47000844 k
def fRstInfoSrc (n : Nat) : Fld := fld (winK n 0x160) 11 8
def fRstInfoWoke (n : Nat) : Fld := bit (winK n 0x160) 0
def fSlotStat : Fld := bit 0x4A000004 0
def fFallback : Fld := bit 0x4A000004 1
def fRecovery : Fld := bit 0x4A000004 2
def fBootsel : Fld := bit 0x4A000004 4
def fCommitBusy : Fld := bit 0x4A000008 0
def fNextSet : Fld := bit 0x4A000008 1
def fLastReason : Fld := fld 0x4A000008 15 8
def fMgmtAddr : Fld := fld 0x4A000010 6 0
def fPecReq : Fld := bit 0x4A000010 8

/-- Chip states (R407, R418): RUN 0, ENTERING_STANDBY 1, STANDBY 2, ENTERING_DEEP 3; DEEP is `PowerSt.deep`. -/
def chipRun (s : State) : Bool := getF s fChip = 0 && !s.power.deep
/-- Every cluster is DARK, or has been and wakes again from a request that its entry latched (R402, R408). -/
def allDark (s : State) : Bool := clusterIds.all (fun n => decide (2 ≤ getF s (fPwr n)))

/-! ### Crossings (R417) -/

/-- One side of a crossing is reset: QUIESCED, and the entries in flight are discarded and counted. -/
def xcReset (x drops : Nat) (s : State) : State := addF (fXcDrop x) drops (setF (fXcQuiesced x) 1 s)

/-- Root port i; past the last one, the first state of a root port. -/
def rootPort (s : State) (i : Nat) : RootPort := if h : i < 4 then s.host.rp[i] else RootPort.first

/-- The reset of crossing x's other side is released (R417): the cluster's, the endpoint's, a root port's, a link's. -/
def xcReady (s : State) (x : Nat) : Bool :=
  if x < 16 then getF s (fPwr x) = 0 || (pwrCl s x).reset
  else if 17 ≤ x ∧ x < 21 then !(rootPort s (x - 17)).perst
  else true

/-- CROSSING_RESYNC (R417): the resynchronisation is journaled as a FAULT record with the XDROP count (the mechanism
code is the model's choice, log entry 24). -/
def execCrossingResync (x : Fin 24) (s : State) : Outcome :=
  done (if isSet s (fXcQuiesced x.val) && xcReady s x.val then
          let mech := if x.val < 17 then 6 else if x.val < 21 then 0x0E else 0x0D
          faultRec mech 4 5 (if x.val < 16 then x.val else 0xFF) 0xFF 0xFF 0xFFFF 0 (getF s (fXcDrop x.val)) 0
            (setF (fXcQuiesced x.val) 0 s)
        else s)

/-! ### CLUSTER-DARK (R400–R403) -/

/-- A dark request for a LIT cluster is accepted (R401). -/
def darkAccept (n : Nat) (s : State) : State :=
  updPwrCl n (fun p => { p with darkReq := true, darkTick := none }) (setF (fPwr n) 1 s)

/-- A castling of n runs or a tenant of n is RESETTING (R401). -/
def darkBlocked (s : State) (n : Nat) : Bool :=
  inHandover s n || (List.range 16).any (fun i => getF s (fTState (16 * n + i)) = 2)

/-- The tick at hand is tick T of a dark entry of n (R401). -/
def goesDark (s : State) (n : Nat) : Bool := getF s (fPwr n) = 1 && (pwrCl s n).darkReq && !darkBlocked s n

/-- The OFF that the control processor writes to a channel of a tenant of n; it acts at turn 24 of the frame (R401). -/
def darkChannels (n : Nat) (s : State) : State :=
  let due := now s + 24
  each ((List.range 128).filter (fun c => lcAttached s c && getF s (fLcTenant c) / 16 = n)) (fun c s =>
    lcStage c { word := 2, tenant := none, tag := none, admin := false, due := some due } s) s

/-- Tick T of a dark entry (R401). -/
def darkTick (n : Nat) (s : State) : State :=
  let s := each ((List.range 16).filter (fun i => tActive s (16 * n + i))) (fun i s =>
    ringBell (16 * n + i) 3 (setF (fTState (16 * n + i)) 3 (abandon (16 * n + i) s))) s
  let s := each (groupPorts s n) lossRecorded s
  let s := each (List.range 64) (fun i s => padSafe 1 (64 * n + i) s) s
  let s := darkChannels n (freeChipLocks n s)
  let t := now s
  updPwrCl n (fun p => { p with darkReq := false, darkTick := some t }) s

/-- CLUSTER_DARK_ENTRY (R401): the first tick at which no castling and no tenant reset is in progress. -/
def execClusterDarkEntry (n : ClusterId) (s : State) : Outcome :=
  done (if goesDark s n.val && atTick s then darkTick n.val s else s)

/-- Registers of logical cluster n that its reset clears (R386, R394, R412): those of its window but the pad group's,
the event router's and IC_LATCH, and what its cores see as their own. -/
def clusterReg (n k : Nat) : Bool :=
  (decide (winK n 0 ≤ k ∧ k < winK n 0x10000) &&
    (let o := k - winK n 0
     !(decide (0x2000 ≤ o ∧ o < 0x4000) || decide (0x5000 ≤ o ∧ o < 0x6000) || decide (0x4190 ≤ o ∧ o < 0x41A0)))) ||
  decide (privK (16 * n) 0 ≤ k ∧ k < privK (16 * n + 16) 0)

/-- Registers that a wake restores (R403): the slot tables, the sources of the interrupt controller and its hold-offs. -/
def savedKeys (n : Nat) : List Nat :=
  [0x00, 0x04, 0x08, 0x10, 0x14, 0x18].map (winK n) ++ (List.range 8).map (fun g => icK n (0x100 + 4 * g))

/-- Note what a wake of cluster n restores (R403). -/
def saveConfig (n : Nat) (s : State) : State :=
  let r := (savedKeys n ++ (List.range 64).map (fun k => icK n (4 * k))).map (fun k => (k, reg s k))
  updPwrCl n (fun p => { p with saved := r }) s

/-- Restore the configuration of cluster n (R403): port programs and slots, slot tables, hold-offs and sources. A source
that is enabled again takes its latch (R386). -/
def restoreConfig (n : Nat) (s : State) : State :=
  let r := (pwrCl s n).saved
  let s := each (groupPorts s n) (fun p s => areaLoad (port s p).group (port s p).thread (port s p).prog p (pslotSet p s)) s
  let s := each (r.take 14) (fun q s => setReg q.1 q.2 s) s
  updPwrCl n (fun p => { p with saved := [] })
    (each ((List.range 64).zip (r.drop 14)) (fun q s => icSrcWrite n q.1 q.2.2 s) s)

/-- Reset the cluster and lane domains of logical n (R399, R403, R412). -/
def clusterReset (n : Nat) (s : State) : State :=
  let base := 0x20000000 + n * 0x01000000
  let s := clearMem (fun a => decide (base ≤ a ∧ a < base + 0x100000)) (clearRegs (clusterReg n) s)
  mapCores (fun t => Tab.clear t (fun i => decide (i / 16 = n)))
    (mapFifos (fun t => Tab.clear t (fun i => decide (i / 12 = n)))
      (mapLocks (fun t => Tab.clear t (fun k => decide (k < 0x10000 ∧ k / 64 = n)))
        (mapHolds (fun t => Tab.clear t (fun k => decide (k / 8 = n))) (mapClusters (fun t => Tab.del t n) s))))

/-- The journal engine and the root ports are shut down once every cluster is DARK (R408 steps 3–4, R411). -/
def deepSteps (s : State) : State :=
  if getF s fChip = 3 && allDark s && s.power.shutAt.isNone then
    let t := now s
    let up := (List.range 4).filter (fun i => (rootPort s i).up)
    let s := setF fSmbWake (getF s fMgmtAddr) (jnlDisableNow s)
    updPower (fun p => { p with shutdown := up, shutAt := some t }) s
  else s

/-- The domains of cluster n are off (R399, R400, R402): DARK; a latched wake request starts the wake. -/
def darkDone (n : Nat) (s : State) : State :=
  let s := setF (fRail n) 0 (setF (fPwr n) 2 (xcReset n (clus s n).held.length s))
  let s := updPwrCl n (fun p => { p with darkTick := none, hist := [] }) (clusterReset n (saveConfig n s))
  let s := admDone 0x65 n 0 0 [] s
  let s := match (pwrCl s n).latched with
    | some src => wakeStart n src s
    | none => s
  deepSteps s

/-- CLUSTER_DARK_DONE (R400): no later than 10 µs after T. -/
def execClusterDarkDone (n : ClusterId) (s : State) : Outcome :=
  done (match (pwrCl s n.val).darkTick with
    | some t => if getF s (fPwr n.val) = 1 ∧ now s ≤ t + usTurns 10 then darkDone n.val s else s
    | none => s)

/-- WAKE_REQUEST (R402): it starts the wake of a DARK cluster from the latched source, or from the POWER command. -/
def execWakeRequest (n : ClusterId) (s : State) : Outcome :=
  done (if getF s (fPwr n.val) = 2 then
          wakeStart n.val (match (pwrCl s n.val).latched with
            | some k => k
            | none => 1) s
        else s)

/-- CLUSTER_RESET_RELEASE (R403): the cluster's reset is released, its rail at 0.90 V, its history restarted (R406). -/
def execClusterResetRelease (n : ClusterId) (s : State) : Outcome :=
  done (if getF s (fPwr n.val) = 3 && !(pwrCl s n.val).reset then
          let src := match (pwrCl s n.val).wake with
            | some k => k
            | none => 0
          let s := updPwrCl n.val (fun p => { p with reset := true, hist := [] }) (clusterReset n.val s)
          setF (fRail n.val) 90 (setF (fRstInfoSrc n.val) src (setF (fRstInfoWoke n.val) 1 s))
        else s)

/-- Unmasked DOORBELL_IN bits of a tenant, cleared as they are handed, and written to the inbox DB word (R15, R295, R300). -/
def takeBells (t : Nat) (s : State) : Word × State :=
  let v := reg s (pageK t 0x14) &&& ~~~reg s (pageK t 0x18)
  let s := setReg (pageK t 0x14) (reg s (pageK t 0x14) &&& ~~~v) s
  (v, each ((List.range 32).filter (fun b => v.getLsbD b)) (fun b => mark (bit (pageK t 0x14) b)) s)

/-- A DORMANT tenant is ACTIVE again at tick W (R403, R94): as after a tenant reset, with WAKE_DONE in place of
RESET_DONE; the wake-class bits that stand are handed (R300). -/
def wakeTenant (t : Nat) (s : State) : State :=
  let b := takeBells t s
  let s := tenantEnable t (rebuild t (setF (fGen t) (getF s (fGen t) + 1) b.2))
  let s := setReg (pageK t 0x14) (reg b.2 (pageK t 0x14)) s
  let f := frameNo s
  let s := if b.1 = 0 then s
    else updTen t (fun x => { x with handed := x.handed ++ [{ frame := f, items := [], slots := [], bells := b.1 }],
                                     hadWork := true }) s
  ringBell t 7 s

/-- Tick W of a wake (R403): the cluster is LIT. -/
def wakeTick (n : Nat) (s : State) : State :=
  let s := restoreConfig n (setF (fPwr n) 0 s)
  let s := each ((List.range 16).filter (fun i => getF s (fTState (16 * n + i)) = 3)) (fun i s => wakeTenant (16 * n + i) s) s
  let s := each (List.range 64) (fun i s => padUnsafe 1 (64 * n + i) s) s
  let s := each (groupPorts s n) (fun p s => if (port s p).bypassed || (portImg s p).isNone then s
    else attachOpen p 1 (portState p 5 (portQuiet p s))) s
  let s := updPwrCl n (fun p => { p with wake := none, reset := false, wokeBell := none }) s
  admDone 0x65 (16 + n) 0 0 [] s

/-- CLUSTER_WAKE_TICK (R403). -/
def execClusterWakeTick (n : ClusterId) (s : State) : Outcome :=
  done (if getF s (fPwr n.val) = 3 && (pwrCl s n.val).reset && atTick s then wakeTick n.val s else s)

/-! ### The slack governor (R404–R406) -/

/-- Rail after a raise of `k` × 10 mV, capped at 0.90 V; counted. -/
def railRaise (n k : Nat) (s : State) : State :=
  if getF s (fRail n) < 90 then addF (fGovRaises n) 1 (setF (fRail n) (min 90 (getF s (fRail n) + k)) s) else s

/-- The decision of R404 over the latest 64 frames. -/
def govern (n : Nat) (s : State) : State :=
  let h := (pwrCl s n).hist
  let m := (h.take 64).foldl (fun m x => min m x.1) 100
  let s := setF (fGovLast n) m s
  if (h.take 128).any (fun x => x.2) then s
  else if m < getF s fGovTarget then railRaise n 1 s
  else if getF s fGovTarget + getF s fGovBand ≤ m ∧ 5 ≤ m ∧ 55 < getF s (fRail n) then
    addF (fGovLowers n) 1 (setF (fRail n) (getF s (fRail n) - 1) s)
  else s

/-- GOVERNOR_DECISION (R404). -/
def execGovernorDecision (n : ClusterId) (s : State) : Outcome :=
  done (if isSet s fGovEn && getF s (fPwr n.val) = 0 && atTick s && frameNo s % 64 = 0 then govern n.val s else s)

/-- A write of PWR_GOV or PWR_RAIL_n (R406, R418): with EN 0 each LIT cluster's rail is its PWR_RAIL_n; a raise of R405 and a
wake's 0.90 V stand until the next write (log entry 101). -/
def govWrite (a : Nat) (v : Word) (s : State) : State :=
  let s := softWrite a v s
  if isSet s fGovEn then s
  else each (clusterIds.filter (fun n => getF s (fPwr n) = 0)) (fun n s => setF (fRail n) (getF s (fMv10 n)) s) s

/-! ### The calendar, resets (R412–R414) -/

/-- Registers that a full reset keeps (R412): the calendar's, the wake record, PWR_WAKE_EN and SMB_WAKE. -/
def keptReg (k : Nat) : Bool :=
  decide (0x45000040 ≤ k ∧ k < 0x45000078) || decide (0x47000030 ≤ k ∧ k < 0x47000048)

/-- The state after a reset of the chip (R412): what survives is the code store, the personality images, OTP, the
drives with their committed segments and anchors, the calendar, the pads' outside levels, and what `keep` names. -/
def resetTo (keep : Nat → Bool) (s : State) : State :=
  { State.reset with
    pending := s.pending
    regs := s.regs.filter (fun r => keep r.1)
    mem := s.mem.filter (fun c => decide (c.1 < 0x01000000))
    cal := { s.cal with stepTag := none }
    images := s.images.map (fun q => (q.1, { q.2 with active := false, swapAt := none, old := false }))
    pads := s.pads.map (fun q => (q.1, { initPad with level := q.2.level }))
    journal := { State.reset.journal with committed := s.journal.committed, anchors := s.journal.anchors }
    host := { State.reset.host with svn := s.host.svn, slot := s.host.slot,
                                    rp := s.host.rp.map (fun r => { r with perst := true, up := false, since := 0 }) }
    fresh := s.fresh }

/-- A full reset with its cause (R412, R413). -/
def fullReset (cause : Nat) (s : State) : State := setF fRstCause cause (resetTo keptReg s)

/-- POWER_ON_RESET (R412, R451): everything but the calendar, which R63 resets on its own, whichever of VAON and
VCORE_MET fell. -/
def execPowerOnReset (_vaon : Bool) (s : State) : Outcome :=
  done (setF fRstCause 1 (resetTo (fun k => decide (0x45000040 ≤ k ∧ k < 0x45000078)) s))

/-- RESET_PIN (R412). -/
def execResetPin (s : State) : Outcome := done (fullReset 2 s)

/-- A write of PWR_RST (R418). -/
def pwrRstWrite (v : Word) (s : State) : State :=
  if v.getLsbD 0 ∧ bitsOf v 15 8 = 0x5A then fullReset 3 s else s

/-- SOFT_RESET (R412, R418). -/
def execSoftReset (c : CoreId) (v : Word) (s : State) : Outcome := done (cpOnly c 0x47000024 (pwrRstWrite v) s)

/-- RESET_RELEASE (R414, R426, R429): the straps are sampled; each root port holds PERST# low for 100 ms. -/
def execResetRelease (bootsel head : Bool) (s : State) : Outcome :=
  done (if s.power.released || s.power.deep then s
        else
          let t := now s
          let s := setF fHeadStrap head.toNat (setF fBootsel bootsel.toNat s)
          let s := updHost (fun h => { h with rp := h.rp.map (fun r => { r with perst := true, up := false, since := t }) }) s
          updPower (fun p => { p with released := true }) s)

/-- SUPPLY_DIP (R449): 0 VIN_LC, 1 VSER085, 2 VSER12, 3 VNVM. -/
def execSupplyDip (i : Fin 4) (s : State) : Outcome :=
  done (if s.power.released then flag (bit 0x4A000018 (8 + i.val)) (setF (bit 0x4A000018 i.val) 0 s) else s)

/-! ### Boot (R430–R436) -/

/-- A boot record copy is valid (R432): magic and CRC. -/
def bootValid (b : List Byte) : Bool :=
  b.take 4 = [0x42, 0x52, 0x43, 0x31] && leAt b 28 4 = checkValue 9 (b.take 28)

def bootCopy (s : State) (i : Nat) : List Byte := readBytes s (0x800 * i) 32

/-- The record that counts: the valid copy with the higher count, as (copy, count, SEL). -/
def bootRec (s : State) : Option (Nat × Nat × Nat) :=
  let a := bootCopy s 0
  let b := bootCopy s 1
  match bootValid a, bootValid b with
  | true, true => if leAt a 4 4 < leAt b 4 4 then some (1, leAt b 4 4, leAt b 8 1) else some (0, leAt a 4 4, leAt a 8 1)
  | true, false => some (0, leAt a 4 4, leAt a 8 1)
  | false, true => some (1, leAt b 4 4, leAt b 8 1)
  | false, false => none

/-- Windows of the code store (R432). -/
def activeWin : Nat := 0x00010000
def inactiveWin : Nat := 0x00600000

/-- Why a firmware image at a window is refused (R433, R436), with the SVN it is held against. -/
def fwReason (s : State) (w : Nat) : Option Nat :=
  let h := readBytes s w 64
  let len := leAt h 12 4
  if !(h.take 4 = [0x49, 0x46, 0x57, 0x31] && leAt h 4 2 = 1 && decide (leAt h 6 2 ≤ 63) && len % 32 = 0 &&
      decide (256 ≤ len ∧ len ≤ 0x005F0000) && leAt h 16 4 % 4 = 0 && decide (leAt h 16 4 < len - 64)) then some 1
  else if !zeroAt h 20 44 then some 3
  else if leAt h 6 2 < s.host.svn then some 9
  else
    let body := readBytes s w (len - 64)
    let sg := readBytes s (w + (len - 64)) 64
    if ecdsaVerify Config.otpRootKey (sha256 body) (sg.take 32) (sg.drop 32) then none else some 2

/-- Swap the two windows of the code store: the other slot appears as the active window. -/
def swapWindows (s : State) : State :=
  let size := 0x005F0000
  let a := s.mem.filter (fun c => decide (activeWin ≤ c.1 ∧ c.1 < activeWin + size))
  let b := s.mem.filter (fun c => decide (inactiveWin ≤ c.1 ∧ c.1 < inactiveWin + size))
  let s := clearMem (fun a => decide (activeWin ≤ a ∧ a < activeWin + size) ||
    decide (inactiveWin ≤ a ∧ a < inactiveWin + size)) s
  let s := each a (fun c s => writeB (c.1 - activeWin + inactiveWin) c.2 s) s
  each b (fun c s => writeB (c.1 - inactiveWin + activeWin) c.2 s) s

/-- Show a slot in the active window (R432). -/
def mapSlot (k : Nat) (s : State) : State :=
  if s.host.slot = k then s else updHost (fun h => { h with slot := k }) (swapWindows s)

/-- Release the control processor with the image in the active window (R434). -/
def bootRelease (k fb : Nat) (s : State) : State :=
  let entry := activeWin + readN s (activeWin + 16) 4
  let svn := readN s (activeWin + 6) 2
  let s := setF fFallback fb (setF fSlotStat k s)
  updHost (fun h => { h with svn := max h.svn svn, cpRun := true, cpEntry := BitVec.ofNat 32 entry })
    (updCore 256 (fun c => { c with ctx := initCtx true entry }) s)

/-- One try of the boot sequence: `none` where the slot does not verify. -/
def bootTry (k fb : Nat) (s : State) : Option State :=
  let s := mapSlot k s
  match fwReason s activeWin with
  | none => some (bootRelease k fb s)
  | some _ => none

/-- The sequence of R434. -/
def bootRun (s : State) : State :=
  let s := setF fKeyfail (if otpKeyOk then 0 else 1) s
  if isSet s fBootsel then setF fRecovery 1 s
  else
    let sel := match bootRec s with
      | some r => r.2.2 % 2
      | none => 0
    match bootTry sel 0 s with
    | some s => s
    | none => match bootTry (1 - sel) 1 s with
      | some s => s
      | none => setF fRecovery 1 (mapSlot (1 - sel) s)

/-- BOOT (R434): once, after release. -/
def execBoot (s : State) : Outcome :=
  done (if s.power.released && !s.host.cpRun && !isSet s fRecovery then bootRun s else s)

/-! ### Endpoint and root ports (R412, R417, R426) -/

/-- Every tenant becomes DISABLED, with its device records and bindings kept (R66, R421). -/
def disableAll (s : State) : State :=
  each (tenantIds.filter (fun t => getF s (fTState t) ≠ 0)) (fun t s => setF (fTState t) 0 (abandon t s)) s

/-- The head tells its members with tenants the SR-IOV settings of its endpoint (R341; layout: log entry 33). -/
def tellVfs (s : State) : State :=
  if isHead s then
    each (s.group.seats.filter (fun x => x.occupied && decide (seatIndex x.seat < 16))) (fun x =>
      drnRoute 6 x.seat ([3, if s.host.vfEnable then 1 else 0] ++ le 2 s.host.numVfs)) s
  else s

/-- SR-IOV is disabled; a member has none of its own (R340). -/
def sriovOff (s : State) : State :=
  if isMember s then s else tellVfs (disableAll (updHost (fun h => { h with vfEnable := false, numVfs := 0 }) s))

/-- A transfer names host memory. -/
def hostXfer (x : Xfer) : Bool := x.desc.srcSpace = 1 || x.desc.dstSpace = 1

/-- The endpoint is reset (R412, R417): its crossing is quiesced, host transfers end HOST_ERROR, MSI-X state is reset,
and SR-IOV is disabled. -/
def endpointReset (s : State) : State :=
  let xs := s.xfers.filter (fun q => hostXfer q.2 && q.2.status.isNone && decide (1 ≤ q.2.stage))
  let s := xcReset 16 (xs.filter (fun q => q.2.reads ≠ 0)).length s
  let s := each xs (fun q s => xferEnd q.1 2 { q.2 with reads := 0, readAt := none } s) s
  let s := clearRegs (fun k => decide (pageK 0 0 ≤ k ∧ k < pageK 257 0) && decide (0xF000 ≤ k % 0x10000 ∧ k % 0x10000 < 0xF900)) s
  sriovOff s

/-- ENDPOINT_RESET (R412, R417). -/
def execEndpointReset (s : State) : Outcome := done (endpointReset s)

def updRootPort (i : Fin 4) (f : RootPort → RootPort) (s : State) : State :=
  updHost (fun h => { h with rp := h.rp.set i.val (f h.rp[i.val]) }) s

/-- The members on a root port are marked FAILED (R197, R426). -/
def failMembers (i : Nat) (s : State) : State :=
  each ((List.range 16).filter (fun e => isSet s (fNsValid e) && getF s (fNsPort e) = i)) markFailed s

/-- DRIVE_REMOVED (R426, R417). -/
def execDriveRemoved (i : Fin 4) (s : State) : Outcome :=
  done (if (rootPort s i.val).present then
          let t := now s
          failMembers i.val (xcReset (17 + i.val) 0
            (updRootPort i (fun _ => { present := false, perst := true, up := false, since := t }) s))
        else s)

/-- DRIVE_INSERTED (R426): PERST# is released 100 ms later, by ROOT_PORT_RETRAIN. -/
def execDriveInserted (i : Fin 4) (s : State) : Outcome :=
  done (if (rootPort s i.val).present then s
        else
          let t := now s
          updRootPort i (fun _ => { present := true, perst := true, up := false, since := t }) s)

/-- ROOT_PORT_RETRAIN (R426): the link of a present drive trains, 100 ms after PERST# went low. On a port whose link is up
it is the retraining after a link-down without removal (log entry 102): the members stay FAILED. -/
def execRootPortRetrain (i : Fin 4) (s : State) : Outcome :=
  let r := rootPort s i.val
  if r.present && !r.up then
    atDue (some (r.since + msTurns (if r.perst then 100 else 10))) (fun s =>
      updRootPort i (fun r => { r with perst := false, up := true }) s) s
  else if r.present then done (failMembers i.val (xcReset (17 + i.val) 0 s))
  else done s

/-! ### STANDBY and DEEP (R407–R411) -/

/-- A sentry entry or the sentry's alarm is enabled (R407). -/
def sentryArmed (s : State) : Bool :=
  isSet s (bit 0x47000840 0) || (List.range 16).any (fun k => isSet s (bit (0x47000800 + 4 * k) 31))

/-- POWER with argument 2 or 3 can be accepted (R407). -/
def lowPowerOk (s : State) (deep : Bool) : Bool :=
  chipRun s && !(isHead s && decide (1 < getF s fGrpChips)) && (!deep || isSet s fWakeSmbus || sentryArmed s)

/-- Entry begins at E0 (R407, R408): every LIT cluster receives a dark request. -/
def lowPowerBegin (deep : Bool) (s : State) : State :=
  let t := now s
  let s := updPower (fun p => { p with e0 := some t, wakes := [], exiting := false, shutAt := none, shutdown := [] })
    (setF fChip (if deep then 3 else 1) s)
  deepSteps (each (clusterIds.filter (fun n => getF s (fPwr n) = 0)) darkAccept s)

/-- At E1 a latched event starts the exit at once, recorded with REPLAY 1 (R409). -/
def atE1 (s : State) : State :=
  match s.power.wakes with
  | [] => s
  | e :: es => updPower (fun p => { p with exiting := true, wakes := [] })
      (setF fWakeMore (if es.isEmpty then 0 else 1) (wakeRecord e true s))

/-- E1 of DEEP (R399, R407, R408): the domains are off and keep no state. -/
def deepOff (s : State) : State :=
  let w := s.power.wakes
  let c := getF s fRstCause
  let s := setF fRstCause c (resetTo (fun k => keptReg k || decide (0x47000800 ≤ k ∧ k < 0x47000848)) s)
  updPower (fun p => { p with deep := true, wakes := w }) s

/-- LOW_POWER_ENTRY_END (R408, R409): E1, at most 20 ms after E0 for STANDBY and 1.1 s for DEEP. -/
def execLowPowerEntryEnd (s : State) : Outcome :=
  let upTo := fun t => s.power.e0.elim true (fun e => decide (now s ≤ e + t))
  done (if getF s fChip = 1 && allDark s && upTo (msTurns 20) then
          atE1 (updPower (fun p => { p with e0 := none }) (setF fChip 2 s))
        else if getF s fChip = 3 && allDark s && s.power.shutAt.isSome && upTo (msTurns 1100) then atE1 (deepOff s)
        else s)

/-- NVME_SHUTDOWN_TIMEOUT (R408): 1 s after the notification the wait for a controller ends. -/
def execNvmeShutdownTimeout (i : Fin 4) (s : State) : Outcome :=
  if s.power.shutdown.contains i.val then
    atDue (s.power.shutAt.map (fun t => t + secTurns 1)) (fun s =>
      updPower (fun p => { p with shutdown := p.shutdown.filter (fun k => k ≠ i.val) }) s) s
  else done s

/-- A wake-class doorbell or a POWER wake that a cluster latched while it entered darkness has begun its wake (R402, R409):
the event, with its tenant. -/
def standbyWake (s : State) : Option (Nat × Nat) :=
  match clusterIds.find? (fun n => getF s (fPwr n) = 3 && ((pwrCl s n).wake = some 1 || (pwrCl s n).wake = some 2)) with
  | some n => if (pwrCl s n).wake = some 2 then some (4, (pwrCl s n).wokeBell.elim 0 (fun t => t)) else some (5, 0)
  | none => none

/-- LOW_POWER_EXIT (R409, R410): from STANDBY nothing is reset; from DEEP the exit is a full reset with cause WAKE. -/
def execLowPowerExit (s : State) : Outcome :=
  done (if s.power.deep then (if s.power.exiting then fullReset 5 s else s)
        else if getF s fChip = 2 then
          (if s.power.exiting then updPower (fun p => { p with exiting := false }) (setF fChip 0 s)
           else match standbyWake s with
             | some (src, ix) => setF fChip 0 (wakeRecord { source := src, index := ix, cal := s.cal.val } false s)
             | none => s)
        else s)

/-- SMBUS_ADDRESS_MATCH (R409, R411, R418). -/
def execSmbusAddressMatch (s : State) : Outcome := done (if isSet s fWakeSmbus then wakeEvent 1 0 s else s)

/-! ### The sentry (R62, R396, R397) -/

def senK (k : Nat) : Nat := 0x47000800 + 4 * k

/-- Entry k takes a change to `level`: EDGE bit 0 rising, bit 1 falling. -/
def sentryTakes (s : State) (k : Nat) (level : Bool) : Bool :=
  isSet s (bit (senK k) 31) && (if level then isSet s (bit (senK k) 16) else isSet s (bit (senK k) 17))

/-- A firing of entry k (R397). -/
def sentryFire (k : Nat) (s : State) : State :=
  let s := flag (fSentryHit k) s
  if chipRun s then
    let s := if isSet s (bit (senK k) 30) then occurCp 8 s else s
    if isSet s (bit (senK k) 29) then wakeRequest (getF s (fld (senK k) 9 0) / 64) 4 s else s
  else wakeEvent 2 k s

/-- SENTRY_FIRE (R396, R397): the pad's level changed to `level` and held for FILT + 1 crystal cycles. -/
def execSentryFire (k : Fin 16) (level : Bool) (s : State) : Outcome :=
  done (if sentryTakes s k.val level then sentryFire k.val s else s)

end Sys2Proof.Machine
end

