-- ==== Sys2Proof/Machine/HostPort.lean ====
section
/-! DEFINITION. The endpoint's functions, the management port, the code store's programming and the test access port
(spec/17_host_link_management_and_boot.md R419–R441). -/

namespace Sys2Proof.Machine

/-! ### SR-IOV and function-level resets (R421, R423) -/

/-- The endpoint is there to train (R335, R340): this chip is no member and does not wait for a seat with HEAD high. -/
def endpointOn (s : State) : Bool :=
  !s.power.deep && (isHead s || (!isSet s fGrpValid && !isSet s fHeadStrap))

/-- VF_ENABLE_SET (R421, R434): NumVFs above TotalVFs is ignored, and a set VF Enable keeps NumVFs; each configured
tenant whose function is now enabled leaves DISABLED. -/
def vfEnable (num : Nat) (s : State) : State :=
  if endpointOn s && !isSet s fRecovery && !s.host.vfEnable then
    let s := updHost (fun h => { h with vfEnable := true, numVfs := if num ≤ s.group.totalVfs then num else h.numVfs }) s
    tellVfs (each (tenantIds.filter (fun t => getF s (fTState t) = 0)) tenantEnable s)
  else s

def execVfEnableSet (num : BitVec 16) (s : State) : Outcome := done (vfEnable num.toNat s)

/-- VF_ENABLE_CLEAR (R421). -/
def execVfEnableClear (s : State) : Outcome :=
  done (if isMember s then s else tellVfs (disableAll (updHost (fun h => { h with vfEnable := false }) s)))

/-- VF_FLR (R423): the tenant reset of R93. -/
def execVfFlr (t : TenantId) (s : State) : Outcome := done (if vfOn s t.val then resetStart t.val s else s)

/-- PF_FLR (R423): the administration page is reset and SR-IOV disabled; a command in progress runs to its end and its
response is discarded. -/
def execPfFlr (s : State) : Outcome :=
  let s := setAdmin (s.admin.map (fun a => { a with drop := true })) s
  let s := updTen 256 (fun x => { x with submit := [], backlog := [], gapNext := false }) (pageReset 256 s)
  let s := clearRegs (fun k => decide (pageK 256 0xF000 ≤ k ∧ k < pageK 256 0xF900)) s
  done (sriovOff s)

/-! ### Programming the code store (R435, R436) -/

/-- Result of a code-store command: 0 OK, 1 busy, 2 bad argument, 3 state conflict, 4 bad image with a reason. -/
inductive CodeRes where
  | ok | busy | badArg | conflict
  | badImage (reason : Nat)
  deriving DecidableEq, Repr

/-- Why a CODE_WRITE of `n` bytes at a core address is refused, if it is (R435). -/
def codeRefuse (off n : Nat) (s : State) : Option CodeRes :=
  if !(inRange off n inactiveWin 0x00BF0000 && off % 32 = 0 && n % 32 = 0 && n ≠ 0) then some .badArg
  else if isSet s fCommitBusy || isSet s fNextSet then some .conflict
  else none

/-- A CODE_WRITE of bytes at a core address (R435). -/
def codePut (off : Nat) (bs : List Byte) (s : State) : CodeRes × State :=
  match codeRefuse off bs.length s with
  | some r => (r, s)
  | none => (.ok, writeBytes off bs s)

/-- The boot record that a commit writes (R432, R436). -/
def bootRecord (count sel : Nat) : List Byte :=
  let b := [0x42, 0x52, 0x43, 0x31] ++ le 4 count ++ [BitVec.ofNat 8 sel] ++ List.replicate 19 0
  b ++ le 4 (checkValue 9 b)

/-- A CODE_COMMIT (R436). -/
def codeCommitNow (s : State) : CodeRes × State :=
  if isSet s fCommitBusy then (.busy, s)
  else if isSet s fNextSet then (.ok, s)
  else match fwReason s inactiveWin with
    | some r => (.badImage r, setF fLastReason r s)
    | none =>
      let sel := 1 - s.host.slot
      let r := match bootRec s with
        | some (i, n, _) => (1 - i, n + 1)
        | none => (0, 1)
      (.ok, updHost (fun h => { h with nextSlot := some sel }) (setF fNextSet 1 (writeBytes (0x800 * r.1) (bootRecord r.2 sel) s)))

/-! ### The management port (R427, R428) -/

/-- Status byte of a reply (R427). -/
def codeStatus : CodeRes → List Byte
  | .ok => [0]
  | .busy => [1]
  | .badArg => [3]
  | .conflict => [4]
  | .badImage r => [5, BitVec.ofNat 8 r]

/-- The port takes a write (R427): it answers, and the Packet Error Code holds, or none is needed. -/
def mgmtTakes (s : State) (m : MCmd) : Bool :=
  s.power.released && !s.power.deep && (match m.pec with
    | some ok => ok
    | none => !isSet s fPecReq)

/-- A command is accepted unless its Packet Error Code is wrong or missing or the port does not answer; its reply stands
until the next one (R427). Source 10 occurs at the control processor (R388). -/
def mgmt (code : Nat) (m : MCmd) (k : List Byte → State → List Byte × State) (s : State) : State :=
  if mgmtTakes s m then
    let r := k m.data s
    occurCp 10 (updHost (fun h => { h with mgmt := some (code, r.1) }) r.2)
  else s

/-- GET_ID. -/
def execGetId (m : MCmd) (s : State) : Outcome :=
  done (mgmt 0x01 m (fun _ s => ([0] ++ le 4 deviceId.toNat ++ le 8 Config.otpSerial.toNat ++ le 4 (reg s 0x4A000004).toNat, s)) s)

/-- GET_STATUS. -/
def execGetStatus (m : MCmd) (s : State) : Outcome :=
  done (mgmt 0x02 m (fun _ s => ([0] ++ le 4 (reg s 0x47000000).toNat ++ le 4 (guardStat s).toNat ++
    le 4 (reg s 0x47000020).toNat ++ le 4 (reg s 0x47000030).toNat, s)) s)

/-- RESET: a full reset with CAUSE MGMT, after the reply is ready (R412, R428). -/
def execMgmtReset (m : MCmd) (s : State) : Outcome :=
  if mgmtTakes s m && m.data = [0x5A] then done (fullReset 4 s)
  else done (mgmt 0x03 m (fun _ s => ([3], s)) s)

/-- CODE_WRITE of the management port. -/
def execMgmtCodeWrite (m : MCmd) (s : State) : Outcome :=
  done (mgmt 0x10 m (fun d s =>
    let bs := d.drop 4
    if decide (32 ≤ bs.length ∧ bs.length ≤ 224) then let r := codePut (leAt d 0 4) bs s; (codeStatus r.1, r.2)
    else ([3], s)) s)

/-- CODE_COMMIT of the management port. -/
def execMgmtCodeCommit (m : MCmd) (s : State) : Outcome :=
  done (mgmt 0x11 m (fun _ s => let r := codeCommitNow s; (codeStatus r.1, r.2)) s)

/-- CODE_READ. -/
def execCodeRead (m : MCmd) (s : State) : Outcome :=
  done (mgmt 0x12 m (fun d s =>
    let n := leAt d 4 1
    if decide (1 ≤ n ∧ n ≤ 240) && decide (5 ≤ d.length) && decide (leAt d 0 4 + n ≤ 0x01000000) then
      (0 :: readBytes s (leAt d 0 4) n, s)
    else ([3], s)) s)

/-- ADMIN_SUBMIT: a commit to the administration ring as an on-chip sender (R294, R428). -/
def execAdminSubmit (m : MCmd) (s : State) : Outcome :=
  done (mgmt 0x20 m (fun d s =>
    if !s.host.cpRun then ([6], s)
    else if d.length ≠ 64 then ([3], s)
    else if inFull s 256 then ([1], s)
    else
      let t := getF s (fInTail 256)
      let s := occurCp 0 (jAdmin d (setF (fInTail 256) (t + 1) (ringPut 256 0x400 t d s)))
      ([0], admSkip 16 (updHost (fun h => { h with mgmtSubs := h.mgmtSubs ++ [(t, false)] }) s))) s)

/-- ADMIN_FETCH: the oldest unread response. -/
def execAdminFetch (m : MCmd) (s : State) : Outcome :=
  done (mgmt 0x21 m (fun _ s =>
    if !s.host.cpRun then ([6], s)
    else match s.host.mgmtResp with
      | [] => ([6], s)
      | r :: rs => (0 :: r, updHost (fun h => { h with mgmtResp := rs }) s)) s)

/-- MGMT_REPLY_READ: a Block Read returns the kept reply and changes nothing of it (R427). -/
def execMgmtReplyRead (s : State) : Outcome :=
  done (if s.power.released && !s.power.deep then occurCp 10 s else s)

/-! ### The test access port (R439, R440) -/

/-- Load an instruction of the TAP. -/
def tapLoad (code : Nat) (s : State) : State := updHost (fun h => { h with tap := code }) s

/-- EXTEST, CLAMP or HIGHZ takes the pads of a running chip at Update-IR (R440). -/
def tapTake (code : Nat) (s : State) : State :=
  let s := tapLoad code s
  if s.power.released then
    let s := each (portIds s) lossRecorded s
    let s := each (List.range 128) (fun c s => if isSet s (fLcEnable c) then setF (fLcEnable c) 0 (lcDisable c s) else s) s
    let s := each clusterIds (fun n s => pgHold n (setF (fPgEnable n) 0 s)) s
    let s := faultRec 6 4 5 0xFF 0xFF 0xFF 0xFFFF 0 0 0 s
    let drive := if code = 4 then [] else s.host.preload
    let s := each (List.range 1024) (fun p s => updPad p (fun x => { x with scan := Tab.find drive p }) s) s
    updHost (fun h => { h with scan := true, scanLc := drive.filter (fun q => decide (1024 ≤ q.1)) }) s
  else s

/-- TAP_RESET (R439, R440): IDCODE is loaded, and the pads are released from the boundary register. -/
def execTapReset (s : State) : Outcome :=
  done (updHost (fun h => { h with tap := 1, scan := false, scanLc := [] })
    (mapPads (fun t => t.map (fun q => (q.1, { q.2 with scan := none }))) s))

def execJtagBypass (s : State) : Outcome := done (tapLoad 0xFF s)
def execIdcode (s : State) : Outcome := done (tapLoad 0x01 s)

/-- SAMPLE/PRELOAD: the boundary register holds the pads' levels and those of the load-channel drives. -/
def execSamplePreload (s : State) : Outcome :=
  done (updHost (fun h => { h with preload := (List.range 1024).map (fun p => (p, (pad s p).level)) ++
                                     (List.range 128).filterMap (fun c => (ldrv s c).map (fun l => (1024 + c, l))) }) (tapLoad 0x02 s))

def execExtest (s : State) : Outcome := done (tapTake 0x00 s)
def execClamp (s : State) : Outcome := done (tapTake 0x03 s)
def execHighz (s : State) : Outcome := done (tapTake 0x04 s)

end Sys2Proof.Machine
end

