-- ==== Sys2Proof/Machine/Bus.lean ====
section
/-! DEFINITION. The cores' accesses to the internal map (R19, R30, R31, R134, R308, R432, R462): where an address leads,
who may read and write there, what a read returns and what a write does. A data register with a rule of its own is
reached through the operation of its family. -/

namespace Sys2Proof.Machine

/-- The core of an index (coreIx). -/
def coreOf (i : Nat) : CoreId :=
  if i = 256 then .cp
  else
    let n : ClusterId := Fin.ofNat 16 (i / 16)
    if i % 16 < 12 then .thread n (Fin.ofNat 12 (i % 16)) else .lane n (Fin.ofNat 4 (i % 16 - 12))

/-! ### Where an address leads -/

/-- Where an aligned address leads. -/
inductive Place where
  | mem
  | lock (n l : Nat)
  | chipLock (l : Nat)
  | ctx (n t w : Nat)
  | win (n o : Nat)
  | self (n o : Nat)
  | laneReg (n o : Nat)
  | chip
  | page (p o : Nat)
  | priv (o : Nat)
  | undecoded
  deriving DecidableEq, Repr

/-- An address of memory: the code store, the commons, or a cluster's local SRAM. -/
def memAddr (a : Nat) : Bool :=
  decide (a < 0x01000000) || decide (0x10000000 ≤ a ∧ a < 0x12000000) ||
  decide (0x20000000 ≤ a ∧ a < 0x30000000 ∧ a % 0x01000000 < 0x100000)

/-- Register windows (R246): an unaligned access to one raises ALIGN. -/
def regAddr (a : Nat) : Bool :=
  decide (0x20000000 ≤ a ∧ a < 0x30000000 ∧ a % 0x01000000 / 0x10000 = 0x80) ||
  decide (0x40000000 ≤ a ∧ a < 0x4B000000) || decide (0xF0000000 ≤ a)

/-- Offset `o` of cluster n's register window. -/
def winPlace (n o : Nat) : Place :=
  if 0x400 ≤ o ∧ o < 0x500 then .lock n ((o - 0x400) / 4)
  else if 0x600 ≤ o ∧ o < 0x740 then (if (findRow rowsPriv o).isSome then .self n o else .undecoded)
  else if o = 0x740 ∨ o = 0x744 then .laneReg n o
  else if 0x1000 ≤ o ∧ o < 0x1600 then .ctx n ((o - 0x1000) / 0x80) ((o - 0x1000) % 0x80 / 4)
  else if (findRow rowsWin o).isSome then .win n o else .undecoded

/-- Offsets of the per-core private view (R274, R384). -/
def privDecoded (o : Nat) : Bool := (decide (o < 0x600) || decide (0x800 ≤ o)) && (findRow rowsPriv o).isSome

def placeOf (a : Nat) : Place :=
  if memAddr a then .mem
  else if 0x20000000 ≤ a ∧ a < 0x30000000 then
    (if a % 0x01000000 / 0x10000 = 0x80 then winPlace (a / 0x01000000 - 0x20) (a % 0x10000) else .undecoded)
  else if 0x41001000 ≤ a ∧ a < 0x41001400 then .chipLock ((a - 0x41001000) / 4)
  else if 0x48100000 ≤ a ∧ a < 0x48200000 then
    (if a % 0x1000 < 0xC00 ∧ ((findRow rowsPage (a % 0x1000)).isSome ∨ (0x100 ≤ a % 0x1000 ∧ a % 0x1000 < 0x140))
     then .page ((a - 0x48100000) / 0x1000) (a % 0x1000) else .undecoded)
  else if 0xF0000000 ≤ a ∧ a < 0xF0001000 then (if privDecoded (a % 0x1000) then .priv (a % 0x1000) else .undecoded)
  else if 0x40000000 ≤ a ∧ a < 0x4B000000 ∧ (regRow a).isSome then .chip
  else .undecoded

/-! ### Who may access memory (R31, R212, R222, R308) -/

/-- A lane core in user mode, or a barrel thread T1–T11 (R308). -/
def restricted (s : State) (c : CoreId) : Bool :=
  match c with
  | .thread _ t => t.val ≠ 0
  | .lane n x => !supCore s (.lane n x)
  | .cp => false

/-- Tag of a descriptor or completion record at an address of the commons. -/
def tagAt (a : Nat) : Option Nat :=
  if 0x10520000 ≤ a ∧ a < 0x105A0000 then some ((a - 0x10520000) / 32)
  else if 0x105A0000 ≤ a ∧ a < 0x105E0000 then some ((a - 0x105A0000) / 16) else none

/-- Tag g is of the tag range of cluster n (R314). -/
def tagOf (n g : Nat) : Bool :=
  match issuerOf g with
  | .runtime k | .sequencer k | .mailbox k => k = n
  | .cp => false

/-- The reserved 352 bytes of a FIFO block (R222). -/
def fifoReserved (o : Nat) : Bool := decide (0xC0000 ≤ o ∧ o < 0xE4000 ∧ 0x2EA0 ≤ (o - 0xC0000) % 0x3000)

/-- Access to offset `o` of cluster n's local SRAM. -/
def sramOk (s : State) (c : CoreId) (n o : Nat) (write : Bool) : Bool :=
  match c with
  | .cp => true
  | .thread m t => decide (m.val = n) && (t.val = 0 || (decide (o < 0xC0000) && t.val = o / 0x10000))
  | .lane m x => decide (m.val = n ∧ 0xC0000 ≤ o) &&
    (decide (0xE4000 ≤ o) || (!write && supCore s (.lane m x)))

/-- A core may read memory at an address. -/
def memRead (s : State) (c : CoreId) (a : Nat) : Bool :=
  if a < 0x01000000 then true
  else if a < 0x12000000 then
    !restricted s c || (match tagAt a with
      | some g => tagOf (coreCl c) g
      | none => false)
  else sramOk s c (a / 0x01000000 - 0x20) (a % 0x01000000) false

/-- A core may write memory at an address (R245: not the code store). -/
def memWrite (s : State) (c : CoreId) (a : Nat) : Bool :=
  if a < 0x01000000 then false
  else if a < 0x12000000 then
    if 0x105E0000 ≤ a ∧ a < 0x10600000 then true
    else if 0x10520000 ≤ a ∧ a < 0x105A0000 then maySubmit s c ((a - 0x10520000) / 32)
    else if 0x10500000 ≤ a ∧ a < 0x10520000 then isT0OrCp ((a - 0x10500000) / 0x80 / 64) c
    else isCp c && cpCommons a 1
  else sramOk s c (a / 0x01000000 - 0x20) (a % 0x01000000) true

/-- Bytes that read 0 and take no write (R222, R308). -/
def memDead (a : Nat) : Bool :=
  decide (0x105E0000 ≤ a ∧ a < 0x10600000) ||
  (decide (0x20000000 ≤ a ∧ a < 0x30000000) && fifoReserved (a % 0x01000000))

/-! ### What a read returns -/

/-- Bits i of a list of truth values as a word. -/
def bitWord : List Bool → Nat
  | [] => 0
  | b :: bs => b.toNat + 2 * bitWord bs

/-- THR_SIG_RX and THR_SIG_TX of thread t of cluster n (R218): pads 32 h to 32 h + 31 that it owns, their queues as the turn
before this one left them. -/
def sigWord (s : State) (n t h : Nat) (f : PadSt → Bool) : Word :=
  BitVec.ofNat 32 (bitWord ((List.range 32).map (fun i =>
    let p := 64 * n + 32 * h + i
    getF s (fOwner p) = t && f (pad (rxCatch p (now s) (txCatch p (now s) s)) p))))

/-- A receive queue held an entry at the end of the turn before t. -/
def rxHeld (t : Nat) (x : PadSt) : Bool := decide (0 < agedBefore t x.rxq + (if x.rxGone.1 = t then x.rxGone.2 else 0))

/-- A transmit queue held fewer than 4 entries at the end of the turn before t. -/
def txSigRoom (t : Nat) (x : PadSt) : Bool := decide (x.txq.length + (if x.txGone.1 = t then x.txGone.2 else 0) < 4)

/-- THR_WAKE (R218), as the turn before this one left it. -/
def wakeWord (s : State) (n t : Nat) : Word :=
  BitVec.ofNat 32
    (bitWord ((List.range 8).map (fun j => (poppableAt s n t j (now s - 1)).isSome)) +
      256 * (match (core s (16 * n + t)).alarm with
        | some e => (decide (e < now s)).toNat
        | none => 0) +
      512 * (decide (t = 0 ∧ reg s (winK n 0x20) &&& ~~~hotBits s (winK n 0x20) ≠ 0)).toNat)

/-- Self-relative registers of thread t of cluster n (R218, R228). -/
def selfView (s : State) (n t o : Nat) : Word :=
  match o with
  | 0x600 => sigWord s n t 0 (rxHeld (now s))
  | 0x604 => sigWord s n t 1 (rxHeld (now s))
  | 0x608 => sigWord s n t 0 (txSigRoom (now s))
  | 0x60C => sigWord s n t 1 (txSigRoom (now s))
  | 0x610 => wakeWord s n t
  | _ => if 0x720 ≤ o then txfPopValue s n t ((o - 0x720) / 4) else reg s (privK (16 * n + t) o)

/-- Pad registers at offset `o` of pad p's block (R137, R144, R147, R148). -/
def padView (s : State) (c : CoreId) (p o : Nat) : Word :=
  let w := reg s (padK p o)
  let s := rxCatch p (now s) (txCatch p (now s) s)
  let x := pad s p
  match o with
  | 0x04 => withBits w 1 1 (inNow s p).toNat
  | 0x14 => withBits (withBits (withBits (withBits w 7 7 (deOn s p).toNat) 6 6 x.cur.isSome.toNat) 5 3 x.txq.length)
      2 0 x.rxq.length
  | 0x28 => match x.rxq with
    | e :: _ => if rxReader s c p then e.1 else 0
    | [] => 0
  | 0x2C => match x.rxq with
    | e :: _ => BitVec.ofNat 32 e.2.1
    | [] => 0
  | 0x30 => match x.rxq with
    | e :: _ => BitVec.ofNat 32 (e.2.1 / 2 ^ 32)
    | [] => 0
  | _ => w

/-- Shared registers of controller n at offset `o` (R385, R388). -/
def icView (s : State) (n o : Nat) : Word :=
  if 0x100 ≤ o ∧ o < 0x120 then withBits (reg s (icK n o)) 31 31 (heldOff s n ((o - 0x100) / 4)).toNat
  else if o = 0x180 ∨ o = 0x184 then
    BitVec.ofNat 32 (bitWord ((List.range 32).map (fun b => icPend s n (8 * (o - 0x180) + b))))
  else reg (icSettle n s) (icK n o)

/-- Registers of cluster n's window that every core of the cluster reads alike. -/
def winView (s : State) (c : CoreId) (n o : Nat) : Word :=
  if o = 0x1C then withBits (reg s (winK n o)) 16 16 (greedyAct s n).toNat
  else if 0x200 ≤ o ∧ o < 0x380 ∧ o % 0x20 = 0 then withBits (reg s (winK n o)) 10 8 (thrState s n ((o - 0x200) / 0x20))
  else if 0x2000 ≤ o ∧ o < 0x3000 then padView s c (64 * n + (o - 0x2000) / 0x40) (o % 0x40)
  else if 0x4000 ≤ o ∧ o < 0x5000 then icView s n (o - 0x4000)
  else if 0x5000 ≤ o ∧ o < 0x5100 then
    (if isSet s (fEvrSecure n ((o - 0x5000) / 8)) && !isCp c then 0 else reg s (winK n o))
  else if o = 0x5100 then grpWord s n (now s)
  else reg s (winK n o)

/-- Registers of the chip's blocks; r is the requester's index, for the latched halves (R48, R64, R202). -/
def chipView (s : State) (r a : Nat) : Word :=
  let w32 := fun (v : Nat) => BitVec.ofNat 32 v
  if 0x40000040 ≤ a ∧ a < 0x40000080 then
    if isSet s fKeyfail then 0 else w32 (ofLe ((List.range 4).map (fun i => Config.otpPubKey (a - 0x40000040 + i))))
  else if 0x4A001000 ≤ a ∧ a < 0x4A002000 then icView s 16 (a - 0x4A001000)
  else match a with
    | 0x40000008 => w32 s.journal.wptr
    | 0x4000000C => Tab.getD s.journal.latchW r 0 &&& 0xFFFF
    | 0x40000010 => w32 s.journal.arch
    | 0x40000014 => w32 (s.journal.arch / 2 ^ 32) &&& 0xFFFF
    | 0x40000018 => w32 (openSeq s)
    | 0x4000001C => Tab.getD s.journal.latchS r 0
    | 0x40000024 => w32 (min 0xFFFFFF (staged s))
    | 0x45000018 => w32 (frameNo s)
    | 0x4500001C => Tab.getD s.time.fcHi r 0
    | 0x45000020 => w32 (now s)
    | 0x45000024 => Tab.getD s.time.taHi r 0
    | 0x45000028 => w32 (turnInFrame s)
    | 0x45000040 => w32 (Tab.getD s.cal.latch r 0)
    | 0x45000044 => w32 (Tab.getD s.cal.latch r 0 / 2 ^ 32) &&& 0xFFFF
    | 0x45000048 => w32 (s.cal.val % 65536)
    | 0x46000000 => guardStat s
    | 0x46000014 => w32 (repairClock s)
    | 0x46000024 => withBits (reg s a) 31 16 (min 65535 (scrubAge s))
    | 0x4A000000 => deviceId
    | 0x4A000014 => w32 s.host.svn &&& 0x3F
    | _ => reg s a

/-- Mailbox page registers that are not stored (R289): PAGE_ID and TSTAT. The administration page reads STATE ACTIVE and
GEN 0 (R307). -/
def pageView (s : State) (p o : Nat) : Word :=
  if o = 0 then 0x4B590001
  else if o = 4 then (if p = 256 then 1 else tstat s p)
  else if 0x100 ≤ o ∧ o < 0x140 then 0
  else reg s (pageK p o)

/-- What the host reads of a page (R66, R289): 0 while the tenant is DISABLED or RESETTING; while DORMANT only PAGE_ID, TSTAT and
DOORBELL_IN read as stated. -/
def hostView (s : State) (p o : Nat) : Word :=
  match pageSt s p with
  | .acts => pageView s p o
  | .dormant => if o = 0 ∨ o = 4 ∨ o = 0x14 then pageView s p o else 0
  | .discard => 0

/-- The private view of core index i (R274, R384). -/
def privView (s : State) (c : CoreId) (o : Nat) : Word :=
  let i := icCore s c
  match o with
  | 0x000 => icRp s i
  | 0x018 => match candidate s c with
    | some (lv, k) => BitVec.ofNat 32 (k + 256 * lv)
    | none => 0x7F
  | _ => reg s (privK i o)

/-! ### Reads -/

/-- The exception that an aligned read raises, if any: BUS or PRIV (R19, R31, R134, R274, R384). -/
def loadCause (s : State) (c : CoreId) (a : Nat) : Option Nat :=
  let bus := fun (ok : Bool) => if ok then none else some 2
  match placeOf a with
  | .mem => bus (memRead s c a)
  | .lock n _ => bus (inWindow n c)
  | .chipLock _ => none
  | .ctx n t _ => bus (inWindow n c && thrWriter n t c)
  | .self n _ => bus (isThread c && coreCl c = n)
  | .laneReg n _ => bus (supLane s n c)
  | .win n o => bus (inWindow n c && !(isLane c && decide (0x2000 ≤ o ∧ o < 0x4000)))
  | .chip => bus (isCp c || !decide (0x4A001000 ≤ a ∧ a < 0x4A002000))
  | .page _ _ => bus (isCp c)
  | .priv o => if isThread c && decide (0x20 ≤ o) then some 2 else if supCore s c then none else some 5
  | .undecoded => some 2

/-- The word that an aligned read of a register returns. -/
def regValue (s : State) (c : CoreId) (a : Nat) : Word :=
  match placeOf a with
  | .mem | .undecoded | .laneReg _ _ => 0
  | .lock n l => lockValue s (lockK n l)
  | .chipLock l => lockValue s (chipK l)
  | .ctx n t w => if thrState s n t = 0 ∨ thrState s n t = 3 then ctxWord s (16 * n + t) w else 0
  | .self n o => selfView s n (coreIx c % 16) o
  | .win n o => winView s c n o
  | .chip => chipView s (coreIx c) a
  | .page p o => pageView s p o
  | .priv o => privView s c o

/-- What the read does besides (R48, R64, R144, R202, R214, R228). -/
def readEffect (c : CoreId) (a : Nat) (s : State) : State :=
  match placeOf a with
  | .mem | .undecoded | .laneReg _ _ | .ctx _ _ _ | .page _ _ | .priv _ => s
  | .lock n l => lockRead c (lockK n l) (ownerCode s c) s
  | .chipLock l => lockRead c (chipK l) (chipOwner s c) s
  | .self n o => if 0x720 ≤ o then txfPop n (coreIx c % 16) ((o - 0x720) / 4) s else s
  | .win n o =>
    if 0x2000 ≤ o ∧ o < 0x3000 ∧ o % 0x40 = 0x28 then
      let p := 64 * n + (o - 0x2000) / 0x40
      if rxReader s c p then rxPop c p s else s
    else s
  | .chip => match a with
    | 0x40000008 => wptrRead (coreIx c) s
    | 0x40000018 => seqRead (coreIx c) s
    | 0x45000018 => frameCountRead (coreIx c) s
    | 0x45000020 => turnAbsRead (coreIx c) s
    | 0x45000048 => calPipRead (coreIx c) s
    | _ => s

/-! ### Writes -/

/-- A core that may write a channel of the router by the first three rules of R393: the control processor, T0, or a
lane core in supervisor mode of the cluster. -/
def routerCore (s : State) (n : Nat) (c : CoreId) : Bool := isT0OrCp n c || supLane s n c

/-- A write of EVR_GRP changes a bit of a group that holds a secure channel (R393). -/
def grpGuarded (s : State) (n : Nat) (v : Word) : Bool :=
  (List.range 4).any (fun g => v.getLsbD g ≠ (grpWord s n (now s)).getLsbD g &&
    (List.range 8).any (fun i => isSet s (fEvrSecure n (8 * g + i))))

/-- A core may write offset `o` of cluster n's window (R41, R51, R134, R207, R211, R216, R221, R223, R274, R296, R355,
R357, R385, R393). Read-only registers take any core's write, without effect. -/
def winWriteOk (s : State) (c : CoreId) (n o : Nat) (v : Word) : Bool :=
  if o < 0x100 then isT0OrCp n c
  else if o = 0x100 ∨ o = 0x140 ∨ o = 0x154 then supCore s c
  else if o = 0x150 then isCp c
  else if o < 0x200 then true
  else if o < 0x400 then decide (0xC ≤ o % 0x20) || thrWriter n ((o - 0x200) / 0x20) c
  else if o < 0x1000 then isT0OrCp n c
  else if o < 0x3000 then
    !isLane c && (if o % 0x40 = 0 then isT0OrCp n c else padWriter s c (64 * n + (o - 0x2000) / 0x40))
  else if o < 0x5000 then isT0OrCp n c
  else if o < 0x5100 then
    (if o % 8 = 0 then evrMayWrite s c n ((o - 0x5000) / 8) else evrOwnMay s c n ((o - 0x5000) / 8) v)
  else if o = 0x5104 then evrMayWrite s c n (bitsOf v 4 0)
  else if o = 0x5100 then isCp c || (routerCore s n c && !grpGuarded s n v)
  else routerCore s n c

/-- A lane core may write LC_CMD of channel k (R156). -/
def lcCmdOk (s : State) (c : CoreId) (k : Nat) : Bool :=
  match c with
  | .cp => true
  | .lane n x => supCore s (.lane n x) && lcAttached s k && decide (getF s (fLcTenant k) / 16 = n.val)
  | .thread _ _ => false

/-- A core may write a register of a chip block (R41, R68, R156, R201, R314, R327, R349, R376, R388, R398, R418, R441,
R449). -/
def chipWriteOk (s : State) (c : CoreId) (a : Nat) (v : Word) : Bool :=
  match a / 0x01000000 with
  | 0x41 =>
    if a < 0x41000400 ∧ a % 0x100 = 0 then
      let g := 4096 * (a % 0x1000 / 0x100) + bitsOf v 11 0
      maySubmit s c g && (xfer s g).isNone
    else isCp c
  | 0x45 => supCore s c
  | 0x48 => supCore s c || decide (a < 0x4800C400)
  | 0x49 => if a < 0x49004000 ∧ a % 0x80 = 0xC then lcCmdOk s c ((a - 0x49000000) / 0x80) else isCp c
  | _ => isCp c

/-- The exception that an aligned word write raises, if any. -/
def storeCause (s : State) (c : CoreId) (a : Nat) (v : Word) : Option Nat :=
  let bus := fun (ok : Bool) => if ok then none else some 2
  match placeOf a with
  | .mem => bus (memWrite s c a)
  | .lock n l => bus (inWindow n c && ownsLock s (lockK n l) (ownerCode s c))
  | .chipLock l => bus (ownsLock s (chipK l) (chipOwner s c))
  | .ctx n t _ => bus (inWindow n c && thrWriter n t c)
  | .self n o =>
    bus (isThread c && coreCl c = n &&
      (!decide (0x700 ≤ o ∧ o ≤ 0x708) || (slotOfPad s n (coreIx c % 16) (bitsOf v 21 16)).isSome) &&
      (o ≠ 0x708 || decide (1 ≤ bitsOf v 3 0 ∧ bitsOf v 3 0 ≤ 6)))
  | .laneReg n o => bus (supLane s n c && (o ≠ 0x740 || decide (bitsOf v 27 24 < 12)))
  | .win n o => bus (inWindow n c && winWriteOk s c n o v)
  | .chip => bus (chipWriteOk s c a v)
  | .page p o => bus (isCp c && !(decide (0x13C = o ∧ pageSt s p = .acts) && inFull s p))
  | .priv o => if isThread c && decide (0x20 ≤ o) then some 2 else if supCore s c then none else some 5
  | .undecoded => some 2

/-- Write a register whose field holds addresses of words: a value with bits [1:0] set leaves it (R211, R274). -/
def wordOffset (key : Nat) (v : Word) (s : State) : State := if bitsOf v 1 0 = 0 then softWrite key v s else s

/-- PG_CTRL (R135, R136): a declared supply other than the sensed one is a mismatch, and a new hold condition holds the
group. -/
def pgCtrlWrite (n : Nat) (v : Word) (s : State) : State := pgSense n (softWrite (winK n 0x3000) v s)

/-- Pad registers. -/
def padDo (c : CoreId) (p o : Nat) (v : Word) (s : State) : State :=
  match o with
  | 0x00 => padCfgWrite p v s
  | 0x04 => outWrite p (v.getLsbD 0) s
  | 0x08 => saCtrlWrite p v s
  | 0x14 => saStatWrite p v s
  | 0x18 => txWrite c p v s
  | _ => softWrite (padK p o) v s

/-- Shared registers of controller n (R379, R385, R386). -/
def icDo (n o : Nat) (v : Word) (s : State) : State :=
  if o < 0x100 then icSrcWrite n (o / 4) v s
  else if o = 0x188 ∨ o = 0x18C then icSet n (o = 0x18C) v s
  else softWrite (icK n o) v (icSettle n s)

/-- A done mark (R51, R358): the first of a frame counts. -/
def doneMark (n : Nat) (v : Word) (s : State) : State :=
  let t := 16 * n + bitsOf v 3 0
  if (ten s t).done then s
  else
    let at_ := turnInFrame s
    updClus n (fun c => { c with lastDone := max c.lastDone at_ }) (updTen t (fun x => { x with done := true }) s)

/-- A register write in cluster n's window takes effect. -/
def winDo (c : CoreId) (n o : Nat) (v : Word) (s : State) : State :=
  if o = 0x10 ∨ o = 0x14 ∨ o = 0x18 then nextWrite (winK n o) v s
  else if o = 0x1C then barrelCtrlWrite n v s
  else if o = 0x100 then doneMark n v s
  else if o = 0x140 then updTen (16 * n + bitsOf v 11 8) (fun x => { x with outbox := some (min 32 (bitsOf v 5 0)) }) s
  else if o = 0x150 then clDoublesWrite n v s
  else if 0x200 ≤ o ∧ o < 0x400 then
    (if o % 0x20 = 0 then thrCtrlWrite n ((o - 0x200) / 0x20) v s
     else if o % 0x20 = 4 ∨ o % 0x20 = 8 then wordOffset (winK n o) v s else s)
  else if o = 0x500 then lockForce n v s
  else if 0x2000 ≤ o ∧ o < 0x3000 then padDo c (64 * n + (o - 0x2000) / 0x40) (o % 0x40) v s
  else if o = 0x3000 then pgCtrlWrite n v s
  else if 0x4000 ≤ o ∧ o < 0x5000 then icDo n (o - 0x4000) v s
  else if 0x5000 ≤ o ∧ o < 0x5100 then
    (if o % 8 = 0 then evrCfgWrite n ((o - 0x5000) / 8) v s else evrOwnWrite n ((o - 0x5000) / 8) v s)
  else if o = 0x5100 then grpWrite n v s
  else if o = 0x5104 then
    (if bitsOf v 8 8 = 1 ∧ isSet s (fEvrProd n (bitsOf v 4 0) 24) then evStart n [bitsOf v 4 0] s else s)
  else softWrite (winK n o) v s

/-- Self-relative registers of thread t (R218, R224–R228). -/
def selfDo (n t o : Nat) (v : Word) (s : State) : State :=
  match o with
  | 0x614 => setReg (privK (16 * n + t) 0x614) v s
  | 0x618 => alarmArm n t v s
  | 0x700 => rxfPush n t v s
  | 0x704 => rxfEnd n t v s
  | 0x708 => rxfEvent n t v s
  | 0x710 => txfNote n t v s
  | _ => softWrite (privK (16 * n + t) o) v s

/-- CAL_TRIM (R64): a value beyond ±2,000 leaves it. -/
def calTrimWrite (v : Word) (s : State) : State :=
  let x := signedOf 16 (bitsOf v 15 0)
  if -2000 ≤ x ∧ x ≤ 2000 then setF fCalTrim (bitsOf v 15 0) s else s

/-- Load-channel registers (R156). -/
def lcRegDo (c : CoreId) (a : Nat) (v : Word) (s : State) : State :=
  if 0x49004000 ≤ a then
    let g := (a - 0x49004000) / 0x10
    if a % 0x10 = 0 then lcGcfgWrite g v s else softWrite a v s
  else
    let k := (a - 0x49000000) / 0x80
    if isCp c then lcCfgWrite k (a % 0x80 / 4) v s else lcStageTenant k v none s

/-- A register write in a chip block takes effect. Whether a journal enable passes its identification (R198) is outside
the write: a free truth value. -/
def chipDo (c : CoreId) (a : Nat) (v : Word) (s : State) : State :=
  match a / 0x01000000 with
  | 0x40 =>
    if a = 0x40000000 then jnlCtrlWrite (Config.freeNat (fresh s) % 2 = 1) v (useFresh s)
    else if a = 0x40000010 then archLoWrite v s
    else if a = 0x40000014 then archHiWrite v s
    else if 0x40000100 ≤ a ∧ a % 16 < 12 then jnlEntrySet ((a - 0x40000100) / 16) (a % 16 / 4) v s
    else softWrite a v s
  | 0x41 =>
    if a < 0x41000400 ∧ a % 0x100 = 0 then movDbWrite c (a % 0x1000 / 0x100) v s
    else if a = 0x41001400 then chipForce v s
    else softWrite a v s
  | 0x42 => if a < 0x42000300 ∧ a % 0x100 = 0 then drnCtrlWrite (a % 0x1000 / 0x100) v s else softWrite a v s
  | 0x45 =>
    if a = 0x45000010 then frameCtrl (lenTickAt s) v s
    else if a = 0x4500006C then calTrimWrite v s
    else if a = 0x45000070 then calCtrlWrite v s
    else softWrite a v s
  | 0x46 => if a = 0x46000008 then castleReqWrite v s else softWrite a v s
  | 0x47 => if a = 0x47000024 then pwrRstWrite v s else govWrite a v s
  | 0x48 => if a = 0x4800C400 then tenantResetWrite v s else s
  | 0x49 => lcRegDo c a v s
  | 0x4A => if 0x4A001000 ≤ a then icDo 16 (a - 0x4A001000) v s else softWrite a v s
  | _ => s

/-- Unmasking an MSI-X vector issues its pending message (R301). -/
def msixWrite (p o : Nat) (v : Word) (s : State) : State :=
  let s := softWrite (pageK p o) v s
  let k := (o - 0xF000) / 16
  if o % 16 = 0xC ∧ !v.getLsbD 0 ∧ isSet s (bit (pageK p 0xF800) k) then
    issueVector p k (setF (bit (pageK p 0xF800) k) 0 s)
  else s

/-- A word write to a mailbox page takes effect (R289, R293, R297, R300, R301). -/
def pageDo (r : Requester) (p o : Nat) (v : Word) (s : State) : State :=
  if o = 0x10 then outHeadWrite p v s
  else if o = 0x20 then outMaskWrite p v s
  else if o = 0x1C then bellOutWrite p v s
  else if o = 0x13C then submitCommit r p (le 4 v.toNat) s
  else if 0x100 ≤ o ∧ o < 0x13C then
    updTen p (fun x => { x with submit := patch (padTo 64 x.submit) (o - 0x100) (le 4 v.toNat) }) s
  else if 0xF000 ≤ o ∧ o < 0xF040 then msixWrite p o v s
  else softWrite (pageK p o) v s

/-- The private view (R274, R382, R384). -/
def privDo (i o : Nat) (v : Word) (s : State) : State :=
  match o with
  | 0x008 => icPop i s
  | 0x00C => icRaise i v s
  | 0x024 => timerArm i v s
  | 0x800 => vbaseWrite i v s
  | _ => softWrite (privK i o) v s

/-- A word write to a register takes effect. -/
def regDo (c : CoreId) (a : Nat) (v : Word) (s : State) : State :=
  match placeOf a with
  | .mem | .undecoded => s
  | .lock n l => lockWrite c a (lockK n l) (ownerCode s c) s
  | .chipLock l => lockWrite c a (chipK l) (chipOwner s c) s
  | .ctx n t w => thrCtxWrite n t w v s
  | .self n o => selfDo n (coreIx c % 16) o v s
  | .laneReg n o => if o = 0x740 then txfStage n v s else rxfFree n v s
  | .win n o => winDo c n o v s
  | .chip => chipDo c a v s
  | .page p o => pageState p (pageDo (.core c) p o v) (if o = 0x14 then bellInDormant p v else id) s
  | .priv o => privDo (icCore s c) o v s

/-- Bytes stored in memory, but where they are dead. -/
def memStore (a : Nat) (bs : List Byte) (s : State) : State := if memDead a then s else writeBytes a bs s

/-! ### Checkpoints (R357, R358, R370) -/

/-- What the RW fields of a register hold; its other bits 0. -/
def rwKeep (s : State) (key : Nat) : Word :=
  match regRow key with
  | some (r, _) => (r.fields.filter (fun f => f.acc = .rw)).foldl (fun w f => withBits w f.hi f.lo (bitsOf (reg s key) f.hi f.lo)) 0
  | none => 0

/-- The word that a byte or halfword write of a register writes: its other bytes keep what RW fields hold and write 0
elsewhere (log entry 25). -/
def mergeWord (s : State) (c : CoreId) (a size : Nat) (data : Word) : Word :=
  if size = 4 then data
  else
    let keep := match placeOf (a / 4 * 4) with
      | .win n o => rwKeep s (winK n o)
      | .chip => rwKeep s (a / 4 * 4)
      | .ctx n t w => ctxWord s (16 * n + t) w
      | .page p o => rwKeep s (pageK p o)
      | .priv o => rwKeep s (privK (icCore s c) o)
      | .mem | .lock _ _ | .chipLock _ | .self _ _ | .laneReg _ _ | .undecoded => 0
    withBits keep (8 * (a % 4) + 8 * size - 1) (8 * (a % 4)) data.toNat

/-- Perform a write that was held in the side-effect buffer. One that is no longer permitted has no effect. -/
def perform (c : CoreId) (w : SideWrite) (s : State) : State :=
  let a := w.addr.toNat
  if memAddr a then (if memWrite s c a then memStore a (le w.size w.data.toNat) s else s)
  else
    let v := mergeWord s c a w.size w.data
    match storeCause s c (a / 4 * 4) v with
    | none => regDo c (a / 4 * 4) v s
    | some _ => s

/-- The logical cluster whose window holds an address (R30). -/
def winOf (a : Nat) : Nat := if 0x20000000 ≤ a ∧ a < 0x30000000 then a / 0x01000000 - 0x20 else 17

/-- Perform the side-effect buffer of core index i, in order (R357); the fabric holds what meets a handover (R34). -/
def performSide (i : Nat) (s : State) : State :=
  let ws := (core s i).side
  let c := coreOf i
  each ws (fun w s => match castHolds c (winOf w.addr.toNat) s with
    | some m => castHold m c false w s
    | none => perform c w s) (updCore i (fun x => { x with side := [] }) s)

/-- A verified checkpoint of core index i (R357): the context record is saved, the undo log emptied, and the
side-effect buffer emptied after its writes are performed. -/
def takeCkpt (i : Nat) (work : Option Nat) (s : State) : State :=
  let s := updCore i (fun x => { x with ckpt := some x.ctx, undo := [], taken := [], mism := 0,
                                        work := match work with
                                          | some w => some w
                                          | none => x.work }) s
  performSide i (if i = 256 then updGuard (fun g => { g with cpMism := 0 }) s else s)

/-- An automatic checkpoint before a buffer would overflow (R357). -/
def autoCkpt (i : Nat) (s : State) : State :=
  let s := takeCkpt i none s
  if i = 256 then s else addF (fDblAutockpt (i / 16)) 1 s

/-- Cores that keep a checkpoint: lane cores and the control processor (R357, R370). -/
def keepsCkpt (c : CoreId) : Bool := !isThread c

/-- The write names CL_CKPT, which is itself the checkpoint. -/
def isCkptAddr (a : Nat) : Bool := decide (0x20000000 ≤ a ∧ a < 0x30000000 ∧ a % 0x01000000 = 0x800154)
def isDoneAddr (a : Nat) : Bool := decide (0x20000000 ≤ a ∧ a < 0x30000000 ∧ a % 0x01000000 = 0x800100)

/-- The registers of the core's own interrupt view, whose writes take effect at once (R283, R382). -/
def ownIc (a : Nat) : Bool := decide (0xF0000000 ≤ a ∧ a < 0xF0000020)

/-- An automatic checkpoint where the writes of a store of `parts` parts would overflow the undo log or the side-effect
buffer (R357). -/
def makeRoom (c : CoreId) (a parts : Nat) (s : State) : State :=
  let i := runIx s c
  if keepsCkpt c && (if memAddr a then decide (1024 < (core s i).undo.length + parts)
      else !ownIc a && decide (256 < (core s i).side.length + parts)) then autoCkpt i s else s

/-- A permitted write by a core, aligned, of `size` bytes (R34, R357): memory at once, with its old value in the undo
log; a register at once for a thread, and through the side-effect buffer otherwise, which a done mark performs. During a
handover of the window's cluster another core's write is held. -/
def coreWrite (c : CoreId) (a size : Nat) (data : Word) (s : State) : State :=
  let i := runIx s c
  let w : SideWrite := { addr := BitVec.ofNat 32 a, size := size, data := data }
  if inHandover s (winOf a) then castHold (winOf a) c false w s
  else if memAddr a then
    if keepsCkpt c then
      let old := BitVec.ofNat 32 (readN s a size)
      memStore a (le size data.toNat) (updCore i (fun x => { x with undo := (a, size, old) :: x.undo }) s)
    else memStore a (le size data.toNat) s
  else if keepsCkpt c && !ownIc a then
    if isCkptAddr (a / 4 * 4) then s
    else
      let s := updCore i (fun x => { x with side := x.side ++ [w] }) s
      if isDoneAddr (a / 4 * 4) then performSide i s else s
  else perform c w s

/-! ### REGISTER_WRITE -/

/-- A register write by a core: permitted, or its exception (R19). A write of CL_CKPT is the checkpoint. -/
def regWrite (c : CoreId) (a : Nat) (v : Word) (s : State) : State :=
  if a % 4 ≠ 0 then raiseExc c 3 0 (BitVec.ofNat 32 a) s
  else match storeCause s c a v with
    | some k => raiseExc c k 0 (if k = 2 then BitVec.ofNat 32 a else 0) s
    | none => if isCkptAddr a && keepsCkpt c then takeCkpt (runIx s c) (some (bitsOf v 3 0)) s else regDo c a v s

/-- REGISTER_WRITE: a word write to any register of the map by a core, to a mailbox page by the host or the control
processor. Memory and undecoded addresses are no registers: there the write ends as R19 states. -/
def execRegisterWrite (r : Requester) (a : Target) (v : Word) (s : State) : Outcome :=
  match r, a with
  | .core c, .addr x =>
    castWrite c (winOf x.toNat) x.toNat v
      (fun s => done (if memAddr x.toNat then busErr c x.toNat s else regWrite c x.toNat v s)) s
  | .core c, .page p o =>
    done (if isCp c ∧ p.val < 256 ∧ o.toNat < 0xC00 ∧ o.toNat % 4 = 0 then regWrite c (0x48100000 + 0x1000 * p.val + o.toNat) v s
          else busErr c (0x48100000 + 0x1000 * p.val + o.toNat) s)
  | .host, .page p o =>
    done (if o.toNat % 4 = 0 then
            pageWrite .host p.val o.toNat (pageDo .host p.val o.toNat v) (if o.toNat = 0x14 then bellInDormant p.val v else id) s
          else s)
  | .host, .addr _ => done s

end Sys2Proof.Machine
end

