-- ==== Sys2Proof/Machine/Doubles.lean ====
section
/-! DEFINITION. The commands of the doubles that perform held writes: the done mark and its digest, checkpoints, and the
end of a handover (R34, R51, R357, R358, R367, R370). -/

namespace Sys2Proof.Machine

/-- CL_FRAME_DONE (R51, R357, R358): a pair whose copies' digests differ rolls back; otherwise the side-effect buffer is
performed, then the done mark is recorded. A thread's write marks at once. -/
def execClFrameDone (c : CoreId) (n : ClusterId) (v : Word) (agree : Bool) (s : State) : Outcome :=
  castWrite c (n.val) (winK n.val 0x100) v (fun s =>
    let i := runIx s c
    done (if !(inWindow n.val c && supCore s c) then busErr c (winK n.val 0x100) s
          else if isThread c then doneMark n.val v s
          else if isPair s i && !agree then mismatch i 2 s
          else doneMark n.val v (performSide i s))) s

/-- CL_CKPT (R356, R357): a pair whose copies differ on the store rolls back; otherwise a checkpoint is taken and the
work of the named tenant begins. A thread keeps no checkpoint. -/
def execClCkptWrite (c : CoreId) (n : ClusterId) (v : Word) (agree : Bool) (s : State) : Outcome :=
  castWrite c (n.val) (winK n.val 0x154) v (fun s =>
    let i := runIx s c
    done (if !(inWindow n.val c && supCore s c) then busErr c (winK n.val 0x154) s
          else if isThread c then s
          else if isPair s i && !agree then mismatch i 1 s
          else takeCkpt i (some (bitsOf v 3 0)) s)) s

/-- CP_CHECKPOINT (R358, R370): at a command boundary or after 4,096 steps; a pair whose digests differ rolls back. -/
def execCpCheckpoint (agree : Bool) (s : State) : Outcome :=
  done (if agree then takeCkpt 256 none s else mismatch 256 2 s)

/-- A held access completes (R34): with its effect, or with the exception it meets. -/
def heldEnd (h : HeldAcc) (s : State) : State :=
  let c := coreOf h.core
  let a := h.acc.addr.toNat
  if h.read then
    match loadCause s c a with
    | none => readEffect c a s
    | some k => raiseExc c k 0 (if k = 2 then BitVec.ofNat 32 a else 0) s
  else if memAddr a || h.acc.size ≠ 4 then perform c h.acc s
  else regWrite c a h.acc.data s

/-- Complete the accesses a handover held (R34), in order. -/
def performHeld (n : Nat) (s : State) : State :=
  each (clus s n).held heldEnd (updClus n (fun x => { x with held := [] }) s)

/-- The addresses REG_READ may read (R307): the chip's registers and the cluster register windows (R30). -/
def regReadOk (a : Nat) : Bool :=
  a % 4 = 0 && (decide (0x40000000 ≤ a ∧ a < 0x4B000000) ||
    decide (0x20000000 ≤ a ∧ a < 0x30000000 ∧ a / 65536 % 256 = 0x80))

/-- What a REG_READ of an address answers: status, word, and what the read does (R307, log entry 34). -/
def regReadAns (a : Nat) (s : State) : Nat × List Byte × State :=
  if !regReadOk a then (6, [], s)
  else match loadCause s .cp a with
    | some _ => (2, [], s)
    | none => (0, le 4 (regValue s .cp a).toNat, readEffect .cp a s)

/-- A REG_READ that a handover held is answered when it ends (R34). -/
def regReadEnd (s : State) : State :=
  match s.admin with
  | some q =>
    if q.op = 0x66 then
      let r := regReadAns q.key s
      admDone 0x66 q.key r.1 0 r.2.1 r.2.2
    else s
  | none => s

/-- HANDOVER_END (R34, R35, R367, R368, R372): within 4,800 turns of the tick, the image is checked; the map switches, or
the castling is aborted; held accesses complete and a CASTLE command is answered. -/
def execHandoverEnd (imageOk : Bool) (s : State) : Outcome :=
  match s.guard.run with
  | none => done s
  | some r =>
    if now s ≤ r.turn + 4800 then
      let s := if imageOk && imageOkNow s r then castDone r s else castAborted r s
      let s := performHeld r.req.cluster s
      let s := regReadEnd s
      done (if r.req.reason = 3 then admDone 0x63 (castKey r.req) 0 0 [] s else s)
    else done s

end Sys2Proof.Machine
end

