-- ==== Sys2Proof/Machine/Admin.lean ====
section
/-! DEFINITION. The administration commands of tenants, ports and personality tables (spec/11_kysan_command_interface.md
R307; spec/03, spec/04, spec/05), and what every administration command shares: its slot is taken, it is executed to
its end, and its response is placed. -/

namespace Sys2Proof.Machine

/-- What executing a command comes to: an answer with its STATUS, STATE and payload, or a wait for the event that
completes it, named by a key. -/
inductive Adm where
  | ans (status state : Nat) (payload : List Byte) (s : State)
  | wait (key : Nat) (s : State)

/-- OK with a payload; the failures of R302. -/
def admOk (payload : List Byte) (s : State) : Adm := .ans 0 0 payload s
def badArg (s : State) : Adm := .ans 2 0 [] s
def conflict (state : Nat) (s : State) : Adm := .ans 3 state [] s
def noResource (s : State) : Adm := .ans 4 0 [] s
def badImage (reason : Nat) (s : State) : Adm := .ans 5 0 [BitVec.ofNat 8 reason] s
def mediaError (s : State) : Adm := .ans 8 0 [] s

/-- The control processor takes the slot (R307). A command that stands in no slot of the ring is journaled here. -/
def admTake (op : Nat) (x : ACmd) (s : State) : State :=
  if getF s (fInHead 256) = getF s (fInTail 256) then jAdmin (mkSlot op 0 x.tag.toNat 0xFF 0 0 0 x.payload) s
  else admTakeHead s

/-- Answer a command, or let it wait. -/
def admEnd (op : Nat) (x : ACmd) : Adm → State
  | .ans st sc b s => admRespond op x.tag.toNat st sc b s
  | .wait key s => setAdmin (some { op := op, tag := x.tag, key := key, drop := false }) s

/-- Execute a command that needs `need` payload bytes (R291, R307). While an earlier command waits, none is taken. -/
def admRun (op : Nat) (x : ACmd) (need : Nat) (k : List Byte → State → Adm) (s : State) : Outcome :=
  done (if s.admin.isSome then s
    else
      let s := admTake op x s
      admEnd op x (if x.payload.length ≤ 52 ∧ need ≤ x.payload.length then k x.payload s else badArg s))

/-- The first `n` bytes that a command's host read returns; `none` where the read fails. -/
def hostRead (x : ACmd) (n : Nat) : Option (List Byte) :=
  match x.hostBytes with
  | some b => if n ≤ b.length then some (b.take n) else none
  | none => none

/-- Key of a command that waits for another chip's response. -/
def fwdKey : Nat := 0x100000

/-- Commands that configure a chip, which the head keeps for its next admission (R339). -/
def isConf (op : Nat) : Bool := op = 0x40 || op = 0x43 || op = 0x44 || op = 0x4F

/-- A command whose payload begins with a group tenant or port number, `unit` of them to a chip (R341): at the head, one
that names another chip's is forwarded to it under its local number, and answered with its response. -/
def admGroup (op : Nat) (x : ACmd) (unit : Nat) (k : List Byte → State → Adm) (b : List Byte) (s : State) : Adm :=
  let v := leAt b 0 2
  if isHead s && decide (unit ≤ v) then
    match seatOfIndex s (v / unit) with
    | some seat =>
      let data := le 2 (v % unit) ++ b.drop 2
      let s := updGroup (fun g => { g with sentConf := if isConf op then some (v / unit, op, data) else none }) s
      .wait fwdKey (drnRoute 9 seat (0 :: mkSlot op 0 x.tag.toNat 0xFF 0 0 0 data) s)
    | none => k b s
  else k b s

/-! ### Tenants -/

/-- Disable a tenant (R307): its devices are unbound, its one-shots discarded and journaled. -/
def tenantDisable (t : Nat) (s : State) : State :=
  let s := abandon t s
  let s := each devIds (fun d s => if (dev s t d).bound then unbindDev t d false s else s) s
  let s := updTen t (fun x => { x with configured := false, incoming := [], submit := [], resetAt := none }) s
  setF (fTState t) 0 s

/-- TENANT_CONFIG. -/
def tenantConfig (b : List Byte) (s : State) : Adm :=
  let t := leAt b 0 2
  let en := imgB b 2
  let gd := imgB b 3
  if 256 ≤ t ∨ 1 < en ∨ 1 < gd then badArg s
  else
    let st := getF s (fTState t)
    if st = 2 ∨ st = 3 then conflict st s
    else if en = 1 ∧ gd ≠ getF s (fGuarded t) ∧ st ≠ 0 then conflict st s
    else if en = 0 then admOk [] (setF (fGuarded t) gd (if st = 0 ∧ !(ten s t).configured then s else capsUpdate (tenantDisable t s)))
    else
      let s := setF (fGuarded t) gd (updTen t (fun x => { x with configured := true }) s)
      admOk [] (capsUpdate (if st = 0 then tenantEnable t s else s))

def execTenantConfig (x : ACmd) (s : State) : Outcome := admRun 0x40 x 4 (admGroup 0x40 x 256 tenantConfig) s

/-- TENANT_RESET of administration (R68, R93): answered when the reset completes; a request for a RESETTING tenant is
merged. -/
def adminReset (b : List Byte) (s : State) : Adm :=
  let t := leAt b 0 2
  if 256 ≤ t then badArg s
  else
    let st := getF s (fTState t)
    if st = 0 ∨ st = 3 then conflict st s else .wait t (resetStart t s)

def execAdminTenantReset (x : ACmd) (s : State) : Outcome := admRun 0x41 x 2 (admGroup 0x41 x 256 adminReset) s

/-! ### Ports -/

/-- State code of a port as an object (R307, R79): that of its device; for an unbound port the code a device of it would
show (log entry 34). -/
def portCode (s : State) (p : Nat) : Nat :=
  let x := port s p
  match x.bound with
  | some ix => stateCode (dev s (ix / 16) (ix % 16))
  | none => if x.bypassed then 6 else match x.state with
    | 3 => 2
    | 4 => 4
    | 5 => 5
    | 6 => 5
    | _ => 1

/-- A command about a port that is defined. -/
def withPort (k : Nat → State → Adm) (b : List Byte) (s : State) : Adm :=
  let p := leAt b 0 2
  if p < 1024 ∧ (port s p).defined = true then k p s else badArg s

/-- A port definition record is well-formed (R151, R27). -/
def defOk (b : List Byte) : Bool :=
  let n := imgB b 1
  let used := (slice b 2 n).map (fun x => x.toNat)
  decide (imgB b 0 ≤ 15) && decide (1 ≤ n ∧ n ≤ 8) && used.all (fun i => decide (i < 64)) &&
  decide (used.eraseDups.length = n) && (slice b (2 + n) (8 - n)).all (fun x => x = 0xFF) && decide (leAt b 10 2 ≤ 4095) &&
  decide (imgB b 12 ≤ 11) && zeroAt b 13 3

/-- A personality's pad numbers lie below NPADS (R151). -/
def padsCover (img : List Byte) (n : Nat) : Bool :=
  (attachKind img ≠ 0 || decide (attachPad img < n)) && (lossPad img = 0xFF || decide (lossPad img < n))

/-- The free port slot of a thread with the lowest number (R223). -/
def freeSlot (s : State) (g th : Nat) : Option Nat :=
  (List.range 8).find? (fun j => !isSet s (fSlotValid g th j))

/-- A thread's area takes the program and data of image j for a port. -/
def areaFits (s : State) (n t j p : Nat) : Bool := decide (progUsed (fifo s (fifoIx n t)) + areaNeed s n t j p ≤ 32768)

/-- PORT_DEFINE (R151): the port starts ABSENT. Where its number was defined before with other pads, its settlement is
discarded (R128). -/
def portDefine (b : List Byte) (s : State) : Adm :=
  let g := imgB b 0
  let n := imgB b 1
  let used := (slice b 2 n).map (fun x => x.toNat)
  let th := imgB b 12
  let id := leAt b 16 4
  let mj := leAt b 20 2
  match activeImg s id mj with
  | none => badArg s
  | some img =>
    if !(defOk b && aptPartner img && padsCover img n) ||
        (groupPorts s g).any (fun p => (port s p).pads.any (fun i => used.contains i)) then badArg s
    else match freeSlot s g th with
      | none => noResource s
      | some j =>
        let p := 64 * g + nth 0 used 0
        let ji := activeIx s id mj
        if !areaFits s g th ji p then noResource s
        else
          let was := (port s p).pads
          let new : PortSt := { initPort with defined := true, group := g, pads := used, gapFrames := leAt b 10 2, thread := th,
                                              slot := j, apt := id, major := mj, progMinor := aptMinor img, prog := ji }
          let s := if was.isEmpty || was = used then s else settleDiscard p s
          let s := areaLoad g th ji p (updPort p (fun _ => new) s)
          let s := each used (fun i s => setF (fOwner (64 * g + i)) th s) s
          let s := attachOpen p 0 (portState p 0 (pslotSet p s))
          admOk (le 2 p) (capsUpdate s)

def execPortDefine (x : ACmd) (s : State) : Outcome := admRun 0x42 x 22 portDefine s

/-- Remove a port (R151): its pads return to reset values, its thread forgets it and frees its program. Which pads the number
named is kept for R128. -/
def portDrop (p : Nat) (s : State) : State :=
  let x := port s p
  let s := flushPort p s
  let s := each x.pads (fun i s => padReset (64 * x.group + i) s) s
  let s := setReg (pslotK x.group x.thread x.slot) 0 s
  let s := updPort p (fun _ => { initPort with group := x.group, pads := x.pads }) s
  capsUpdate (eraseOld (areaSweep x.group x.thread (areaDrop x.group x.thread (fun k => k = dataKey p) s)))

/-- PORT_REMOVE. -/
def portRemove (p : Nat) (s : State) : Adm :=
  if (port s p).bound.isSome then conflict (portCode s p) s else admOk [] (portDrop p s)

def execPortRemove (x : ACmd) (s : State) : Outcome := admRun 0x43 x 2 (admGroup 0x43 x 1024 (withPort portRemove)) s

/-- The tenant that a group tenant number names (R341). -/
def tenantOf (s : State) (v : Nat) : Nat :=
  if !isSet s fGrpValid || v / 256 = getF s fGrpIndex then v % 256 else 0x10000 + v

/-- PORT_GRANT. -/
def portGrant (b : List Byte) (p : Nat) (s : State) : Adm :=
  let t := leAt b 2 2
  let most := if isSet s fGrpValid then 4096 else 256
  if most ≤ t ∧ t ≠ 0xFFFF then badArg s
  else if (port s p).bound.isSome then conflict (portCode s p) s
  else admOk [] (updPort p (fun x => { x with grant := if t = 0xFFFF then none else some (tenantOf s t) }) s)

def execPortGrant (x : ACmd) (s : State) : Outcome := admRun 0x44 x 4 (admGroup 0x44 x 1024 (fun b => withPort (portGrant b) b)) s

/-- PORT_SUSPEND (R78): from ACTIVE. -/
def portSuspend (p : Nat) (s : State) : Adm :=
  if (port s p).state = 3 then admOk [] (sendPort p (now s) (.port p 7 0) (portState p 4 s))
  else conflict (portCode s p) s

def execPortSuspend (x : ACmd) (s : State) : Outcome := admRun 0x45 x 2 (admGroup 0x45 x 1024 (withPort portSuspend)) s

/-- PORT_RESUME (R78, R90): from SUSPENDED and not bypassed; ACTIVE at the next tick. -/
def portResume (p : Nat) (s : State) : Adm :=
  let x := port s p
  if x.state = 4 ∧ x.bypassed = false then
    admOk [] (if x.resumeReq then s
      else sendPort p (now s) (.port p 8 0) (updPort p (fun x => { x with resumeReq := true }) s))
  else conflict (portCode s p) s

def execPortResume (x : ACmd) (s : State) : Outcome := admRun 0x46 x 2 (admGroup 0x46 x 1024 (withPort portResume)) s

/-- PORT_BYPASS (R152): in any state; answered after the tick. -/
def portBypass (p : Nat) (s : State) : Adm := .wait p (updPort p (fun x => { x with bypassReq := true }) s)

def execPortBypass (x : ACmd) (s : State) : Outcome := admRun 0x47 x 2 (admGroup 0x47 x 1024 (withPort portBypass)) s

/-- PORT_RELEASE (R152). -/
def portRelease (p : Nat) (s : State) : Adm :=
  if (port s p).bypassed then .wait p (updPort p (fun x => { x with releaseReq := true }) s)
  else conflict (portCode s p) s

def execPortRelease (x : ACmd) (s : State) : Outcome := admRun 0x48 x 2 (admGroup 0x48 x 1024 (withPort portRelease)) s

/-- A settlement discarded by administration (R128): the port goes to ABSENT, as at a loss where it was in service, and
an attach window opens. -/
def discardPort (p : Nat) (s : State) : State :=
  let s := settleDiscard p s
  let x := port s p
  if x.bypassed then updPort p (fun x => { x with before := 0 }) s
  else
    let t := now s
    let s := overtake p s
    let s := if 2 ≤ x.state ∧ x.state ≤ 4 then lossEffects p t s else s
    let s := sendPort p t (.port p 11 0) (portState p 0 (portQuiet p s))
    attachOpen p 1 s

def execSettleDiscard (x : ACmd) (s : State) : Outcome :=
  admRun 0x49 x 2 (admGroup 0x49 x 1024 (withPort (fun p s => admOk [] (discardPort p s)))) s

/-- SETTLE_READ (R123): the 40-byte record. -/
def settleRead (p : Nat) (s : State) : Adm := admOk (readBytes s (portRecAt p) 40) s

def execSettleRead (x : ACmd) (s : State) : Outcome := admRun 0x4A x 2 (admGroup 0x4A x 1024 (withPort settleRead)) s

/-! ### Personality tables (R129–R132) -/

/-- The identifier bytes of an image. -/
def aptName (img : List Byte) : List Byte := le 4 (aptId img) ++ le 2 (aptMajor img) ++ le 2 (aptMinor img)

/-- APT_STAGE (R129): the image is written, verified, and erased again where it fails. -/
def aptStage (x : ACmd) (b : List Byte) (s : State) : Adm :=
  let n := leAt b 8 4
  match hostRead x n with
  | none => mediaError s
  | some img =>
    let s := jPers 0 (slice img 8 4 ++ slice img 14 2 ++ slice img 12 2 ++ le 4 n) s
    let bad : Option Nat := if n ≠ aptLen img then some 1 else verifyImage s img
    let s := jPers 1 [BitVec.ofNat 8 (bad.elim 0 (fun r => r))] s
    match bad with
    | some r => badImage r s
    | none =>
      let j := ((List.range 256).find? (fun j => (Tab.find s.images j).isNone)).elim 256 (fun j => j)
      admOk (aptName img) (mapImages (fun t => Tab.put t j { bytes := img, active := false, swapAt := none, old := false }) s)

def execAptStage (x : ACmd) (s : State) : Outcome := admRun 0x4B x 12 (aptStage x) s

/-- The verified image a command names; one that a replacement has retired is none (R132). -/
def namedImg (s : State) (b : List Byte) : Option (Nat × ImageSt) :=
  s.images.find? (fun q => !q.2.old && aptId q.2.bytes = leAt b 0 4 && aptMajor q.2.bytes = leAt b 4 2 &&
    aptMinor q.2.bytes = leAt b 6 2)

/-- The ports that use a table, and their threads (cluster, thread). -/
def tablePorts (s : State) (id mj : Nat) : List Nat := (portIds s).filter (fun p => (port s p).apt = id && (port s p).major = mj)
def tableThreads (s : State) (id mj : Nat) : List (Nat × Nat) :=
  ((tablePorts s id mj).map (fun p => ((port s p).group, (port s p).thread))).eraseDups

/-- Bytes that a replacement adds to a thread's area (R119, R132): its code beside the old one, and what its data takes
beyond the old data of each port. -/
def replaceNeed (s : State) (n t : Nat) (img : List Byte) : Nat :=
  let ps := (tablePorts s (aptId img) (aptMajor img)).filter (fun p => (port s p).group = n && (port s p).thread = t)
  ps.foldl (fun k p => k + (progData img -
    ((fifo s (fifoIx n t)).area.find? (fun r => r.2.2 = dataKey p)).elim 0 (fun r => r.2.1))) (progLen img)

/-- Settlements of ports bound to another major version of an activated table are discarded (R128). -/
def discardOthers (id mj : Nat) (s : State) : State :=
  each ((portIds s).filter (fun p => (port s p).apt = id && (port s p).major ≠ mj)) settleDiscard s

/-- APT_ACTIVATE (R130–R132): a first version becomes active at once; the program of a minor replacement is loaded beside
the old one, and it takes effect at tick T and is answered then. -/
def aptActivate (b : List Byte) (s : State) : Adm :=
  match namedImg s b with
  | none => badArg s
  | some (j, im) =>
    let id := aptId im.bytes
    let mj := aptMajor im.bytes
    if im.active then admOk [] s
    else match activeImg s id mj with
      | none =>
        let s := mapImages (fun t => Tab.put t j { im with active := true }) s
        admOk [] (discardOthers id mj (jPers 2 (aptName im.bytes) s))
      | some old =>
        if !minorOk old im.bytes then badImage 7 (jPers 1 [7] s)
        else if (tableThreads s id mj).any (fun g =>
            decide (32768 < progUsed (fifo s (fifoIx g.1 g.2)) + replaceNeed s g.1 g.2 im.bytes)) then noResource s
        else
          let t := frameNo s + 1
          let s := each (tablePorts s id mj) (fun p => areaLoad (port s p).group (port s p).thread j p) s
          let s := mapImages (fun y => Tab.put y j { im with swapAt := some t }) s
          .wait j (jPers 4 (aptName im.bytes ++ le 8 t) (jPers 2 (aptName im.bytes) s))

def execAptActivate (x : ACmd) (s : State) : Outcome := admRun 0x4C x 8 aptActivate s

/-- A port or a device is bound to a table version. -/
def tableUsed (s : State) (id mj : Nat) : Bool :=
  (portIds s).any (fun p => (port s p).apt = id && (port s p).major = mj) ||
  s.devices.any (fun q => q.2.bound && q.2.present = 2 && q.2.tapt = id && q.2.tmajor = mj)

/-- APT_REMOVE (R130). -/
def aptRemove (b : List Byte) (s : State) : Adm :=
  match namedImg s b with
  | none => badArg s
  | some (j, im) =>
    if im.swapAt.isSome || (im.active && tableUsed s (aptId im.bytes) (aptMajor im.bytes)) then conflict 0 s
    else admOk [] (jPers 3 (aptName im.bytes) (mapImages (fun t => Tab.del t j) s))

def execAptRemove (x : ACmd) (s : State) : Outcome := admRun 0x4D x 8 aptRemove s

/-- APT_LIST: up to four entries from a position of the list. -/
def aptList (b : List Byte) (s : State) : Adm :=
  let es := (s.images.map (fun q => q.2)).drop (imgB b 0)
  admOk ((es.take 4).map (fun im => aptName im.bytes ++ [if im.active then 1 else 0] ++ le 3 im.bytes.length)).flatten s

def execAptList (x : ACmd) (s : State) : Outcome := admRun 0x4E x 1 aptList s

/-- PORT_APT (R130, R151): rebind to a major version, taking the fresh path. -/
def portApt (b : List Byte) (p : Nat) (s : State) : Adm :=
  let x := port s p
  let mj := leAt b 2 2
  match activeImg s x.apt mj with
  | none => badArg s
  | some img =>
    if !(aptPartner img && padsCover img x.pads.length) then badArg s
    else if mj = x.major then admOk [] (discardPort p s)
    else
      let j := activeIx s x.apt mj
      let s' := updPort p (fun x => { x with major := mj, newProg := none, progMinor := aptMinor img, prog := j }) s
      let s' := areaSweep x.group x.thread (areaDrop x.group x.thread (fun k => k = dataKey p) s')
      if !areaFits s' x.group x.thread j p then noResource s
      else admOk [] (discardPort p (pslotGap p (eraseOld (areaLoad x.group x.thread j p s'))))

def execPortApt (x : ACmd) (s : State) : Outcome := admRun 0x4F x 4 (admGroup 0x4F x 1024 (fun b => withPort (portApt b) b)) s

end Sys2Proof.Machine
end

