-- ==== Sys2Proof/Machine/AdminHw.lean ====
section
/-! DEFINITION. The administration commands of time, load channels, the journal, the code store, castling, faults, power
and registers (spec/11_kysan_command_interface.md R307). -/

namespace Sys2Proof.Machine

/-! ### Frame and time (R44, R45, R60–R62) -/

/-- FRAME_SET: the answer carries the tick at which the length takes effect; one that sets no length answers a free value there
(log entry 97). -/
def frameSet (b : List Byte) (s : State) : Adm :=
  let len := leAt b 0 2
  let w := imgB b 3
  if 3 < w then badArg s
  else if isSet s fGroupLock then conflict 0 s
  else
    let s := if w / 2 = 1 then setF fOvrLimit (imgB b 2) s else s
    if w % 2 = 0 then admOk (le 8 (Config.freeNat (fresh s))) (useFresh s)
    else if len < 200 ∨ 4000 < len then badArg (flag fLenRej s)
    else admOk (le 8 (lenTickAt s)) (frameCtrl (lenTickAt s) (BitVec.ofNat 32 (getF s fOvrLimit * 65536 + len)) s)

def execFrameSet (x : ACmd) (s : State) : Outcome := admRun 0x50 x 4 frameSet s

/-- TIME_GET. -/
def timeGet (_b : List Byte) (s : State) : Adm :=
  admOk (stampBytes (stamp s) ++ le 4 (reg s 0x45000074).toNat ++ le 4 (reg s 0x45000000).toNat ++
    le 4 (reg s 0x4500006C).toNat) s

def execTimeGet (x : ACmd) (s : State) : Outcome := admRun 0x51 x 0 timeGet s

/-- TIME_TRIM. -/
def timeTrim (b : List Byte) (s : State) : Adm :=
  let v := leAt b 0 2
  let t := signedOf 16 v
  if -2000 ≤ t ∧ t ≤ 2000 then admOk [] (setF fCalTrim v s) else badArg s

def execTimeTrim (x : ACmd) (s : State) : Outcome := admRun 0x52 x 2 timeTrim s

/-- Write a calendar value of 6 bytes of seconds and 2 of pips into three registers. -/
def calRegs (a : Nat) (b : List Byte) (s : State) : State :=
  setReg (a + 8) (BitVec.ofNat 32 (leAt b 6 2)) (setReg (a + 4) (BitVec.ofNat 32 (leAt b 4 2))
    (setReg a (BitVec.ofNat 32 (leAt b 0 4)) s))

/-- TIME_STEP (R61): answered when the step takes effect. -/
def timeStep (tag : BitVec 16) (b : List Byte) (s : State) : Adm :=
  let s := calStep (stepReplaced (calRegs 0x45000050 b s))
  .wait 0 (updCal (fun c => { c with stepTag := some tag }) s)

def execTimeStep (x : ACmd) (s : State) : Outcome := admRun 0x53 x 8 (timeStep x.tag) s

/-- TIME_ALARM (R62). -/
def timeAlarm (b : List Byte) (s : State) : Adm :=
  if 1 < imgB b 8 then badArg s else admOk [] (setF fAlarmEn (imgB b 8) (calRegs 0x45000060 b s))

def execTimeAlarm (x : ACmd) (s : State) : Outcome := admRun 0x54 x 9 timeAlarm s

/-! ### Load channels (R156, R162, R172, R174) -/

/-- A 32-bit word of a payload. -/
def wordAt (b : List Byte) (o : Nat) : Word := BitVec.ofNat 32 (leAt b o 4)

/-- LC_CONFIG (R174): OWN_CP, TENANT and DEVICE keep their values. -/
def lcConfig (b : List Byte) (s : State) : Adm :=
  let c := imgB b 0
  let g := imgB b 1
  if 128 ≤ c ∨ 1 < g then badArg s
  else if !lcCfgOk s c then conflict (lcState s c) s
  else match (if g = 1 then (groupChans (c / 8)).find? (fun d => !lcCfgOk s d) else none) with
    | some d => conflict (lcState s d) s
    | none =>
      let s := lcCfgWrite c 0 (withBits (wordAt b 4) 2 2 (bitsOf (reg s (lcK c 0)) 2 2)) s
      let s := lcCfgWrite c 1 (withBits (wordAt b 8) 27 16 (bitsOf (reg s (lcK c 4)) 27 16)) s
      let s := lcCfgWrite c 2 (wordAt b 12) s
      admOk [] (if g = 1 then lcGcfgWrite (c / 8) (wordAt b 16) s else s)

def execLcConfig (x : ACmd) (s : State) : Outcome := admRun 0x55 x 20 lcConfig s

/-- Write a channel's profile from a curve entry (R174). -/
def lcProfileSet (c : Nat) (e : List Byte) (s : State) : State :=
  let ps := curvePts e
  let s := each (List.range 16) (fun i s =>
    let q := nth (0, 0) ps i
    setReg (lcK c (0x40 + 4 * i)) (BitVec.ofNat 32 (q.2 % 256 * 65536 + q.1)) s) s
  setF (fLcNptsm1 c) (ps.length - 1) s

/-- The curve entry that LC_PROFILE names: read from host memory, or of an active image. -/
def profileEntry (x : ACmd) (b : List Byte) (s : State) : Adm ⊕ List Byte :=
  if imgB b 1 = 0 then
    match hostRead x 68 with
    | some e => .inr e
    | none => .inl (mediaError s)
  else match activeImg s (leAt b 4 4) (leAt b 8 2) with
    | some img => if imgB b 10 < secCount img 6 then .inr (curveBytes img (imgB b 10)) else .inl (badArg s)
    | none => .inl (badArg s)

/-- LC_PROFILE (R174, R117). -/
def lcProfileCmd (x : ACmd) (b : List Byte) (s : State) : Adm :=
  let c := imgB b 0
  if 128 ≤ c ∨ 1 < imgB b 1 then badArg s
  else match profileEntry x b s with
    | .inl a => a
    | .inr e =>
      if !(curveOk e && imgB e 1 = 0 && imgB e 2 = 0 && imgB e 3 = 0) then badArg s
      else if !lcCfgOk s c then conflict (lcState s c) s
      else admOk [] (lcProfileSet c e s)

def execLcProfile (x : ACmd) (s : State) : Outcome := admRun 0x56 x 12 (lcProfileCmd x) s

/-- LC_ATTACH (R172). -/
def lcAttach (b : List Byte) (s : State) : Adm :=
  let c := imgB b 0
  let t := leAt b 1 2
  let d := imgB b 3
  if 128 ≤ c ∨ 256 ≤ t ∨ 16 ≤ d then badArg s
  else
    let x := dev s t d
    if !x.bound || !(lcClass x.cls) then badArg s
    else if lcAttached s c || !lcCfgOk s c then conflict (lcState s c) s
    else if x.chan.isSome then conflict (stateCode x) s
    else admOk [] (lcSyncAttach c (setF (fLcOwnCp c) 0 (setF (fLcDevice c) d (setF (fLcTenant c) t s))))

def execLcAttach (x : ACmd) (s : State) : Outcome := admRun 0x57 x 4 lcAttach s

/-- LC_DETACH (R174): a write of LC_CTRL, taken while the channel is OFF or TRIPPED (R156). -/
def lcDetach (b : List Byte) (s : State) : Adm :=
  let c := imgB b 0
  if 128 ≤ c then badArg s
  else if !lcCfgOk s c then conflict (lcState s c) s
  else admOk [] (lcSyncAttach c (setF (fLcOwnCp c) 1 s))

def execLcDetach (x : ACmd) (s : State) : Outcome := admRun 0x58 x 1 lcDetach s

/-- LC_COMMAND (R162, R163): answered when the command acts or is replaced. -/
def lcCommand (b : List Byte) (s : State) : Adm :=
  let c := imgB b 0
  let p := leAt b 2 2
  let q := leAt b 4 2
  if 128 ≤ c ∨ 16 ≤ imgB b 1 ∨ 4096 ≤ p ∨ 4096 ≤ q then badArg s
  else .wait c (lcStageCp c (BitVec.ofNat 32 (q * 65536 + p * 16 + imgB b 1)) true s)

def execLcCommand (x : ACmd) (s : State) : Outcome := admRun 0x59 x 6 lcCommand s

/-! ### The journal (R186, R193–R203) -/

/-- JNL_ENTRY (R203, R197): while the engine is enabled, only the new NSID of a FAILED entry with its other words
unchanged is accepted. -/
def jnlEntry (b : List Byte) (s : State) : Adm :=
  let n := imgB b 0
  let k := 0x40000100 + 16 * n
  if 16 ≤ n then badArg s
  else if isSet s fJnlEnable then
    if getF s (fNsState n) = 1 ∧ wordAt b 8 = reg s (k + 4) ∧ (wordAt b 12 &&& 0x8FF) = (reg s (k + 8) &&& 0x8FF) then
      admOk [] (jnlEntrySet n 0 (wordAt b 4) s)
    else badArg (jnlCfgerr s)
  else admOk [] (jnlEntrySet n 2 (wordAt b 12) (jnlEntrySet n 1 (wordAt b 8) (jnlEntrySet n 0 (wordAt b 4) s)))

def execJnlEntry (x : ACmd) (s : State) : Outcome := admRun 0x5A x 16 jnlEntry s

/-- JNL_CONTROL (R186, R199): enabling is answered once the chain head is found. Whether the entries pass R198 is a free
value (log entry 6). -/
def jnlControl (tag : BitVec 16) (b : List Byte) (s : State) : Adm :=
  let v := imgB b 0
  let s := each (List.range 4) (fun g s => setReg (0x40000030 + 4 * g) (wordAt b (4 + 4 * g)) s) s
  let s := setF (fld 0x40000000 3 2) (v / 4 % 4) s
  if v % 2 = 0 then admOk [] (if isSet s fJnlEnable then jnlDisableNow s else s)
  else if isSet s fJnlRunning then admOk [] s
  else
    let r := jnlEnableNow (Config.freeNat (fresh s) % 2 = 1) (useFresh s)
    if isSet r fJnlEnable then .wait 0 (updJnl (fun j => { j with seekTag := some tag }) r) else badArg r

def execJnlControl (x : ACmd) (s : State) : Outcome := admRun 0x5B x 20 (jnlControl x.tag) s

/-- JNL_CLOSE (R180). -/
def execJnlClose (x : ACmd) (s : State) : Outcome := admRun 0x5C x 0 (fun _ s => admOk [] (jnlCloseNow s)) s

/-- Put bytes at an offset of a string, cut at its ends; a negative offset drops the bytes before it. -/
def overlay (bs : List Byte) (at_ from_ : Nat) (new : List Byte) : List Byte :=
  let new := new.drop (from_ - at_)
  let o := at_ - from_
  if o < bs.length then patch bs o (new.take (bs.length - o)) else bs

/-- The part of a string at journal address `a` that lies in [lo, hi), with its address. -/
def clip (lo hi a : Nat) (bs : List Byte) : Nat × List Byte := (max a lo, (bs.take (hi - a)).drop (lo - a))

/-- The member that a primary entry is read from (R307 JNL_READ): the primary, or its mirror where the primary has FAILED. -/
def reader (s : State) (e : Nat) : Nat := if getF s (fNsState e) = 1 then getF s (fNsMirror e) else e

/-- Journal bytes [a, a + n): the segments that the member read from holds, and the anchors; bytes that hold none are free
values (log entry 6). -/
def journalBytes (s : State) (a n : Nat) : List Byte :=
  let put := fun (bs : List Byte) (q : Nat × List Byte) => overlay bs q.1 a q.2
  let bs := s.journal.committed.reverse.foldl (fun bs g =>
    ((primaries s).filter (fun r => g.members.contains (reader s r.1))).foldl (fun bs r => put bs (clip r.2.1 r.2.2 g.jaddr (segBytes g))) bs)
    (padTo n (Config.freeBytes (fresh s)))
  s.journal.anchors.foldl (fun bs x => put bs (0x8000 * x.1, x.2)) bs

/-- Some byte of the range lies in an entry whose copies have all FAILED (R193, R197). -/
def journalLost (s : State) (a n : Nat) : Bool :=
  ((List.range 16).foldl (fun (r : Nat × Bool) e =>
    if nsPrimary s e then
      let hi := r.1 + (reg s (0x40000104 + 16 * e)).toNat * 4096
      let dead := getF s (fNsState e) = 1 && !(isSet s (fNsMirrored e) && getF s (fNsState (getF s (fNsMirror e))) = 0)
      (hi, r.2 || (dead && decide (a < hi ∧ r.1 < a + n)))
    else r) (0, false)).2

/-- JNL_READ: the bytes go to host memory. -/
def jnlRead (b : List Byte) (s : State) : Adm :=
  let a := leAt b 0 6
  let n := leAt b 8 4
  if n % 4 ≠ 0 ∨ n < 4 ∨ 16777216 < n ∨ jnlSpace s < a + n then badArg s
  else if journalLost s a n then mediaError s
  else admOk (le 4 n) (useFresh (hostPut 0xFFFF (leAt b 12 8) (journalBytes s a n) s))

def execJnlRead (x : ACmd) (s : State) : Outcome := admRun 0x5D x 20 jnlRead s

/-- JNL_ARCHIVE (R195). -/
def jnlArchive (b : List Byte) (s : State) : Adm :=
  let v := leAt b 0 6
  let r := archMove v s
  if r.journal.arch = v then admOk [] r else badArg s

def execJnlArchive (x : ACmd) (s : State) : Outcome := admRun 0x5E x 6 jnlArchive s

/-- JNL_STATUS. -/
def jnlStatus (_b : List Byte) (s : State) : Adm :=
  admOk (le 4 (reg s 0x40000004).toNat ++ le 8 s.journal.wptr ++ le 8 s.journal.arch ++ le 8 (openSeq s) ++
    le 4 (getF s fJnlDrops) ++ le 4 (min 0xFFFFFF (staged s)) ++
    (List.range 16).map (fun n => BitVec.ofNat 8 (getF s (fNsState n)))) s

def execJnlStatus (x : ACmd) (s : State) : Outcome := admRun 0x5F x 0 jnlStatus s

/-! ### The code store (R435–R438) -/

/-- Answer of a code-store command. -/
def codeAns (r : CodeRes) (s : State) : Adm :=
  match r with
  | .ok => admOk [] s
  | .busy | .conflict => conflict 0 s
  | .badArg => badArg s
  | .badImage n => badImage n s

/-- CODE_WRITE (R435). -/
def codeWrite (x : ACmd) (b : List Byte) (s : State) : Adm :=
  let n := leAt b 4 4
  if 1048576 < n then badArg s
  else match codeRefuse (leAt b 0 4) n s with
    | some r => codeAns r s
    | none => match hostRead x n with
      | none => mediaError s
      | some bs => let r := codePut (leAt b 0 4) bs s; codeAns r.1 r.2

def execCodeWrite (x : ACmd) (s : State) : Outcome := admRun 0x60 x 16 (codeWrite x) s

/-- CODE_COMMIT (R436). -/
def execCodeCommit (x : ACmd) (s : State) : Outcome :=
  admRun 0x61 x 0 (fun _ s => let r := codeCommitNow s; codeAns r.1 r.2) s

/-- Check of a key record (R438): a reason of BAD_IMAGE. -/
def keyReason (r : List Byte) : Option Nat :=
  let key := slice r 12 64
  if !ecdsaVerify Config.otpRootKey (sha256 (r.take 96)) (slice r 96 32) (slice r 128 32) then some 2
  else if !zeroAt r 2 2 || !zeroAt r 76 20 || decide (1 < imgB r 1) then some 3
  else if (if imgB r 1 = 0 then !onCurve key else !zeroAt r 12 64) then some 5
  else none

/-- KEY_INSTALL (R438): every outcome is journaled; where no record was read its OP byte is a free value (log entry 97). -/
def keyInstall (x : ACmd) (b : List Byte) (s : State) : Adm :=
  let k := imgB b 0
  let journal := fun (op st : Nat) (s : State) => jPers 6 [BitVec.ofNat 8 k, BitVec.ofNat 8 op, BitVec.ofNat 8 st] s
  if 8 ≤ k then badArg (journal (Config.freeNat (fresh s)) 2 (useFresh s))
  else match hostRead x 160 with
    | none => mediaError (journal (Config.freeNat (fresh s)) 8 (useFresh s))
    | some r =>
      let j := journal (imgB r 1)
      match keyReason r with
      | some n => badImage n (j 5 s)
      | none =>
        if imgB r 0 ≠ k ∨ (leAt r 4 8 ≠ 0 ∧ leAt r 4 8 ≠ Config.otpSerial.toNat) then badArg (j 2 s)
        else if s.images.any (fun q => aptKey q.2.bytes = k) then conflict 0 (j 3 s)
        else
          let e := if imgB r 1 = 0 then [1] ++ List.replicate 63 0 ++ slice r 12 64 else List.replicate 128 0
          admOk [] (j 0 (writeBytes (0x1000 + 128 * k) e s))

def execKeyInstall (x : ACmd) (s : State) : Outcome := admRun 0x62 x 12 (keyInstall x) s

/-! ### Castling, faults and power (R369, R372–R376, R401, R402, R407) -/

/-- CASTLE: the request of CASTLE_REQ, with a rotation period. A cluster's castling is answered at its handover's end, a
core's once it has run. -/
def castle (b : List Byte) (s : State) : Adm :=
  let u := imgB b 0
  let n := imgB b 1
  let c := imgB b 2
  let per := leAt b 4 4
  if 2 < u ∨ 15 < n ∨ (u = 1 ∧ 3 < c) ∨ (u = 2 ∧ 1 < c) ∨ (per ≠ 0 ∧ (per < 60 ∨ 86400 < per)) then badArg s
  else match castServe u n c s with
    | none => conflict 0 (flag fCastRej s)
    | some s =>
      let r : CastReq := { unit := u, reason := 3, cluster := n, pos := c }
      let s := if per = 0 then s else setF fRotPeriod per s
      if u = 0 ∨ s.guard.run.isSome then .wait (castKey r) s else admOk [] s

def execCastle (x : ACmd) (s : State) : Outcome := admRun 0x63 x 8 castle s

/-- FAULT_READ (R374). -/
def faultRead (b : List Byte) (s : State) : Adm :=
  match s.guard.faults.find? (fun r => leAt r 24 4 = leAt b 0 4) with
  | some r => admOk r s
  | none => badArg s

def execFaultRead (x : ACmd) (s : State) : Outcome := admRun 0x64 x 4 faultRead s

/-- A POWER command whose argument is `k`. -/
def powerCmd (k : Nat) (f : Nat → State → Adm) (b : List Byte) (s : State) : Adm :=
  if imgB b 0 = k ∧ (2 ≤ k ∨ imgB b 1 ≤ 15) then f (imgB b 1) s else badArg s

/-- POWER dark (R401): accepted in LIT; answered once the state is DARK. -/
def powerDark (n : Nat) (s : State) : Adm :=
  if getF s (fPwr n) = 0 then .wait n (darkAccept n s) else conflict (getF s (fPwr n)) s

def execPowerDark (x : ACmd) (s : State) : Outcome := admRun 0x65 x 2 (powerCmd 0 powerDark) s

/-- POWER wake (R402): answered at the wake's tick. -/
def powerWake (n : Nat) (s : State) : Adm :=
  if getF s (fPwr n) = 0 then conflict 0 s else .wait (16 + n) (wakeRequest n 1 s)

def execPowerWake (x : ACmd) (s : State) : Outcome := admRun 0x65 x 2 (powerCmd 1 powerWake) s

/-- POWER STANDBY or DEEP (R407): the response is placed, and entry begins at the turn of that placement. -/
def lowPowerCmd (k : Nat) (x : ACmd) (s : State) : Outcome :=
  done (if s.admin.isSome then s
    else
      let s := admTake 0x65 x s
      if !(decide (1 ≤ x.payload.length ∧ x.payload.length ≤ 52) && imgB x.payload 0 = k) then admEnd 0x65 x (badArg s)
      else if lowPowerOk s (k = 3) then lowPowerBegin (k = 3) (admEnd 0x65 x (admOk [] s))
      else admEnd 0x65 x (conflict (getF s fChip) s))

def execPowerStandby (x : ACmd) (s : State) : Outcome := lowPowerCmd 2 x s
def execPowerDeep (x : ACmd) (s : State) : Outcome := lowPowerCmd 3 x s

/-! ### Registers -/

/-- REG_READ: a read as the control processor makes it (R307); a read of a window in handover waits for its end (R34). -/
def regReadCmd (b : List Byte) (s : State) : Adm :=
  let a := leAt b 0 4
  if regReadOk a && inHandover s (winOf a) then .wait a s
  else
    let r := regReadAns a s
    .ans r.1 0 r.2.1 r.2.2

def execRegRead (x : ACmd) (s : State) : Outcome := admRun 0x66 x 4 regReadCmd s

end Sys2Proof.Machine
end

