-- ==== Sys2Proof/Machine/Operands.lean ====
section
/-! DEFINITION. The instruction words (spec/09_instruction_set.md R230–R260): their forms, fields and codes, which
operand values are legal, what an instruction reads and writes, its immediates, and the special registers. -/

namespace Sys2Proof.Machine

/-! ### The forms of a word (R237, R260) -/

/-- Functions of the R format, in the order of their codes 0x00–0x19. -/
inductive RFn where
  | add | adc | sub | sbc | and | or | xor | andn | lsl | lsr | asr | ror | mov | mvn | neg | cmp | tst
  | mul | mull | mullu | div | divu | clz | rev | sxb | sxh
  deriving DecidableEq, Repr

/-- Functions of the I format, codes 0x0–0xA. -/
inductive IFn where
  | add | sub | and | or | xor | lsl | lsr | asr | ror | cmp | tst
  deriving DecidableEq, Repr

/-- Functions of the W format, codes 0–2. -/
inductive WFn where
  | movi | movn | movhi
  deriving DecidableEq, Repr

/-- Block operations, codes 0–3. -/
inductive BFn where
  | copy | fill | crc | step
  deriving DecidableEq, Repr

/-- An instruction without its condition. -/
inductive Isi where
  | r (f : RFn) (sf : Bool) (rd ra rb : Reg)
  | i (f : IFn) (sf : Bool) (rd ra : Reg) (imm : BitVec 11)
  | w (f : WFn) (rd : Reg) (imm : BitVec 16)
  | ld (sz : BitVec 2) (sx : Bool) (rd ra : Reg) (off : BitVec 12)
  | st (sz : BitVec 2) (rd ra : Reg) (off : BitVec 12)
  | cmpx (t : Bool) (ra rb : Reg) (off : BitVec 12)
  | br (link : Bool) (off : BitVec 24)
  | nop
  | jr (ra : Reg)
  | jlr (rd ra : Reg)
  | mfs (rd : Reg) (spr : BitVec 4)
  | mts (spr : BitVec 4) (ra : Reg)
  | rete
  | fli (ra : Reg)
  | fence
  | wait
  | svc (imm : BitVec 8)
  | rep (l : Bool) (rc : Reg)
  | loop (rc : Reg) (off : BitVec 12)
  | blk (f : BFn) (sz : BitVec 2) (kind rd ra rb : BitVec 4)
  deriving DecidableEq, Repr

/-! ### Codes -/

def RFn.code : RFn → BitVec 6
  | .add => 0x00 | .adc => 0x01 | .sub => 0x02 | .sbc => 0x03 | .and => 0x04 | .or => 0x05 | .xor => 0x06
  | .andn => 0x07 | .lsl => 0x08 | .lsr => 0x09 | .asr => 0x0A | .ror => 0x0B | .mov => 0x0C | .mvn => 0x0D
  | .neg => 0x0E | .cmp => 0x0F | .tst => 0x10 | .mul => 0x11 | .mull => 0x12 | .mullu => 0x13 | .div => 0x14
  | .divu => 0x15 | .clz => 0x16 | .rev => 0x17 | .sxb => 0x18 | .sxh => 0x19

def RFn.ofCode (n : BitVec 6) : Option RFn :=
  match n.toNat with
  | 0x00 => some .add | 0x01 => some .adc | 0x02 => some .sub | 0x03 => some .sbc | 0x04 => some .and
  | 0x05 => some .or | 0x06 => some .xor | 0x07 => some .andn | 0x08 => some .lsl | 0x09 => some .lsr
  | 0x0A => some .asr | 0x0B => some .ror | 0x0C => some .mov | 0x0D => some .mvn | 0x0E => some .neg
  | 0x0F => some .cmp | 0x10 => some .tst | 0x11 => some .mul | 0x12 => some .mull | 0x13 => some .mullu
  | 0x14 => some .div | 0x15 => some .divu | 0x16 => some .clz | 0x17 => some .rev | 0x18 => some .sxb
  | 0x19 => some .sxh
  | _ => none

def IFn.code : IFn → BitVec 4
  | .add => 0x0 | .sub => 0x1 | .and => 0x2 | .or => 0x3 | .xor => 0x4 | .lsl => 0x5 | .lsr => 0x6 | .asr => 0x7
  | .ror => 0x8 | .cmp => 0x9 | .tst => 0xA

def IFn.ofCode (n : BitVec 4) : Option IFn :=
  match n.toNat with
  | 0x0 => some .add | 0x1 => some .sub | 0x2 => some .and | 0x3 => some .or | 0x4 => some .xor
  | 0x5 => some .lsl | 0x6 => some .lsr | 0x7 => some .asr | 0x8 => some .ror | 0x9 => some .cmp
  | 0xA => some .tst
  | _ => none

def WFn.code : WFn → BitVec 2
  | .movi => 0 | .movn => 1 | .movhi => 2

def WFn.ofCode (n : BitVec 2) : Option WFn :=
  match n.toNat with
  | 0 => some .movi | 1 => some .movn | 2 => some .movhi
  | _ => none

def BFn.code : BFn → BitVec 4
  | .copy => 0 | .fill => 1 | .crc => 2 | .step => 3

def BFn.ofCode (n : BitVec 4) : Option BFn :=
  match n.toNat with
  | 0 => some .copy | 1 => some .fill | 2 => some .crc | 3 => some .step
  | _ => none

/-! ### Words -/

/-- A truth value as one bit. -/
def b1 (b : Bool) : BitVec 1 := BitVec.ofBool b

/-- The word of the S format: FN, rd, ra and the low byte. -/
def sysWord (cond : BitVec 4) (fn : BitVec 6) (rd ra : BitVec 4) (low : BitVec 8) : Word :=
  cond ++ 0x8#4 ++ fn ++ 0#2 ++ rd ++ ra ++ low

/-- The word of an instruction under a condition (R237). -/
def encode (cond : BitVec 4) : Isi → Word
  | .r f sf rd ra rb => cond ++ 0x0#4 ++ f.code ++ b1 sf ++ 0#1 ++ rd ++ ra ++ rb ++ 0#4
  | .i f sf rd ra imm => cond ++ 0x1#4 ++ f.code ++ rd ++ ra ++ b1 sf ++ imm
  | .w f rd imm => cond ++ 0x2#4 ++ rd ++ f.code ++ 0#2 ++ imm
  | .ld sz sx rd ra off => cond ++ 0x3#4 ++ sz ++ b1 sx ++ 0#1 ++ rd ++ ra ++ off
  | .st sz rd ra off => cond ++ 0x4#4 ++ sz ++ 0#2 ++ rd ++ ra ++ off
  | .cmpx t ra rb off => cond ++ 0x5#4 ++ b1 t ++ 0#3 ++ ra ++ rb ++ off
  | .br link off => cond ++ 0x3#3 ++ b1 link ++ off
  | .nop => sysWord cond 0x00 0 0 0
  | .jr ra => sysWord cond 0x01 0 ra 0
  | .jlr rd ra => sysWord cond 0x02 rd ra 0
  | .mfs rd spr => sysWord cond 0x03 rd 0 (0#4 ++ spr)
  | .mts spr ra => sysWord cond 0x04 0 ra (0#4 ++ spr)
  | .rete => sysWord cond 0x05 0 0 0
  | .fli ra => sysWord cond 0x06 0 ra 0
  | .fence => sysWord cond 0x07 0 0 0
  | .wait => sysWord cond 0x08 0 0 0
  | .svc imm => sysWord cond 0x09 0 0 imm
  | .rep l rc => cond ++ 0x9#4 ++ b1 l ++ 0#3 ++ rc ++ 0#16
  | .loop rc off => cond ++ 0xA#4 ++ rc ++ 0#8 ++ off
  | .blk f sz kind rd ra rb => cond ++ 0xB#4 ++ f.code ++ sz ++ kind ++ 0#2 ++ rd ++ ra ++ rb

/-- A function of the S format by its code. -/
def sysOf (fn : BitVec 6) (rd ra : BitVec 4) (low : BitVec 8) : Option Isi :=
  match fn.toNat with
  | 0x00 => some .nop
  | 0x01 => some (.jr ra)
  | 0x02 => some (.jlr rd ra)
  | 0x03 => some (.mfs rd (low.setWidth 4))
  | 0x04 => some (.mts (low.setWidth 4) ra)
  | 0x05 => some .rete
  | 0x06 => some (.fli ra)
  | 0x07 => some .fence
  | 0x08 => some .wait
  | 0x09 => some (.svc low)
  | _ => none

/-- The form a word's MAJ and function code name, with its operand fields. -/
def fieldsOf (w : Word) : Option Isi :=
  let f4 := fun (lo : Nat) => w.extractLsb' lo 4
  match (f4 24).toNat with
  | 0x0 => (RFn.ofCode (w.extractLsb' 18 6)).map (fun f => .r f (w.getLsbD 17) (f4 12) (f4 8) (f4 4))
  | 0x1 => (IFn.ofCode (f4 20)).map (fun f => .i f (w.getLsbD 11) (f4 16) (f4 12) (w.extractLsb' 0 11))
  | 0x2 => (WFn.ofCode (w.extractLsb' 18 2)).map (fun f => .w f (f4 20) (w.extractLsb' 0 16))
  | 0x3 => some (.ld (w.extractLsb' 22 2) (w.getLsbD 21) (f4 16) (f4 12) (w.extractLsb' 0 12))
  | 0x4 => some (.st (w.extractLsb' 22 2) (f4 16) (f4 12) (w.extractLsb' 0 12))
  | 0x5 => some (.cmpx (w.getLsbD 23) (f4 16) (f4 12) (w.extractLsb' 0 12))
  | 0x6 | 0x7 => some (.br (w.getLsbD 24) (w.extractLsb' 0 24))
  | 0x8 => sysOf (w.extractLsb' 18 6) (f4 12) (f4 8) (w.extractLsb' 0 8)
  | 0x9 => some (.rep (w.getLsbD 23) (f4 16))
  | 0xA => some (.loop (f4 20) (w.extractLsb' 0 12))
  | 0xB => (BFn.ofCode (f4 20)).map (fun f => .blk f (w.extractLsb' 18 2) (f4 14) (f4 8) (f4 4) (w.extractLsb' 0 4))
  | _ => none

/-! ### Legal operand values (R234, R239, R243, R244, R255, R257, R260) -/

def RFn.legal (sf : Bool) (rd ra rb : Reg) : RFn → Bool
  | .mov | .mvn | .neg => ra = 0
  | .cmp | .tst => sf && rd = 0
  | .mull | .mullu | .div | .divu => !rd.getLsbD 0
  | .clz | .rev | .sxb | .sxh => rb = 0
  | .add | .adc | .sub | .sbc | .and | .or | .xor | .andn | .lsl | .lsr | .asr | .ror | .mul => true

def IFn.legal (sf : Bool) (rd : Reg) : IFn → Bool
  | .cmp | .tst => sf && rd = 0
  | .add | .sub | .and | .or | .xor | .lsl | .lsr | .asr | .ror => true

def BFn.legal (sz : BitVec 2) (kind rd ra rb : BitVec 4) : BFn → Bool
  | .copy => sz ≠ 3 && rd ≠ ra && rb = 0 && kind = 0
  | .fill => sz ≠ 3 && rd ≠ rb && ra = 0 && kind = 0
  | .crc => decide (1 ≤ kind.toNat ∧ kind.toNat ≤ 9) && rd ≠ ra && rb = 0 && sz = 0
  | .step => rd ≠ ra && rd ≠ rb && ra ≠ rb && sz = 0 && kind = 0

def Isi.legal : Isi → Bool
  | .r f sf rd ra rb => f.legal sf rd ra rb
  | .i f sf rd _ _ => f.legal sf rd
  | .ld sz sx _ _ _ => sz ≠ 3 && !(sz = 2 && sx)
  | .st sz _ _ _ => sz ≠ 3
  | .mfs _ spr => spr.toNat ≤ 8
  | .mts spr _ => spr.toNat ≤ 8
  | .loop _ off => off ≠ 0
  | .blk f sz kind rd ra rb => f.legal sz kind rd ra rb
  | .w _ _ _ | .cmpx _ _ _ _ | .br _ _ | .nop | .jr _ | .jlr _ _ | .rete | .fli _ | .fence | .wait | .svc _ | .rep _ _ =>
    true

/-- The condition and instruction of a word; `none` for one that raises ILLEGAL by its encoding (R234): a reserved code,
a field shown as 0 that is not 0, or an illegal operand value. -/
def decodeWord (w : Word) : Option (BitVec 4 × Isi) :=
  match fieldsOf w with
  | some x => if x.legal && encode (w.extractLsb' 28 4) x = w then some (w.extractLsb' 28 4, x) else none
  | none => none

/-! ### What an instruction reads and writes (R250, R253, R258, R265) -/

/-- Branches and jumps. -/
def Isi.isBranch : Isi → Bool
  | .br _ _ | .jr _ | .jlr _ _ => true
  | _ => false

/-- What no delay slot may hold (R250). -/
def Isi.slotBanned : Isi → Bool
  | .br _ _ | .jr _ | .jlr _ _ | .loop _ _ | .rete | .svc _ | .wait | .rep _ _ => true
  | _ => false

/-- What may not stand at LEND while LCOUNT is not 0 (R258). -/
def Isi.lendBanned : Isi → Bool
  | .br _ _ | .jr _ | .jlr _ _ | .loop _ _ | .rete | .rep _ _ => true
  | _ => false

/-- What only stands behind a repeat prefix (R253). -/
def Isi.isBlock : Isi → Bool
  | .blk _ _ _ _ _ _ => true
  | _ => false

/-- What a repeat prefix may repeat (R253). -/
def Isi.repeatable : Isi → Bool
  | .nop | .cmpx _ _ _ _ | .blk _ _ _ _ _ _ => true
  | _ => false

/-- Memory instructions of the pair check (R265). -/
def Isi.isMem : Isi → Bool
  | .ld _ _ _ _ _ | .st _ _ _ _ | .cmpx _ _ _ _ => true
  | _ => false

/-- The instructions whose execution is abandoned for an interrupt (R254, R277). -/
def Isi.isLong : Isi → Bool
  | .r .mul _ _ _ _ | .r .mull _ _ _ _ | .r .mullu _ _ _ _ | .r .div _ _ _ _ | .r .divu _ _ _ _ => true
  | _ => false

/-- The general registers an instruction writes. -/
def Isi.writes : Isi → List Reg
  | .r f _ rd _ _ =>
    (match f with
     | .cmp | .tst => []
     | .mull | .mullu | .div | .divu => [rd, rd + 1]
     | _ => [rd])
  | .i f _ rd _ _ =>
    (match f with
     | .cmp | .tst => []
     | _ => [rd])
  | .w _ rd _ | .ld _ _ rd _ _ | .jlr rd _ | .mfs rd _ => [rd]
  | .br link _ => if link then [15] else []
  | .blk f _ _ rd ra _ =>
    (match f with
     | .fill => [rd]
     | _ => [rd, ra])
  | .st _ _ _ _ | .cmpx _ _ _ _ | .nop | .jr _ | .mts _ _ | .rete | .fli _ | .fence | .wait | .svc _ | .rep _ _ |
    .loop _ _ => []

/-- The general registers an instruction reads. -/
def Isi.reads : Isi → List Reg
  | .r f _ _ ra rb =>
    (match f with
     | .mov | .mvn | .neg => [rb]
     | .clz | .rev | .sxb | .sxh => [ra]
     | _ => [ra, rb])
  | .i _ _ _ ra _ | .jr ra | .jlr _ ra | .mts _ ra | .fli ra => [ra]
  | .w f rd _ => if f = .movhi then [rd] else []
  | .ld _ _ _ ra _ => [ra]
  | .st _ rd ra _ => [rd, ra]
  | .cmpx _ ra rb _ => [ra, rb]
  | .rep _ rc | .loop rc _ => [rc]
  | .blk _ _ _ rd ra rb => [rd, ra, rb]
  | .br _ _ | .nop | .mfs _ _ | .rete | .fence | .wait | .svc _ => []

/-- An instruction may write a flag; NEG may set V whatever S holds (R241). -/
def Isi.writesFlag : Isi → Bool
  | .r f sf _ _ _ => sf || f = .neg
  | .i _ sf _ _ _ => sf
  | .cmpx _ _ _ _ => true
  | _ => false

/-- An instruction tests a flag beside its condition: ADC, SBC, and a shift whose count may be 0 (R265). -/
def Isi.testsFlag : Isi → Bool
  | .r f _ _ _ _ =>
    (match f with
     | .adc | .sbc | .lsl | .lsr | .asr | .ror => true
     | _ => false)
  | .i f _ _ _ imm =>
    (match f with
     | .lsl | .lsr | .asr | .ror => imm.extractLsb' 0 8 = 0
     | _ => false)
  | _ => false

/-- Words that may be of a pair (R265). -/
def Isi.pairable : Isi → Bool
  | .r f _ _ _ _ =>
    (match f with
     | .mull | .mullu | .div | .divu => false
     | _ => true)
  | .nop | .jr _ | .jlr _ _ | .i _ _ _ _ _ | .w _ _ _ | .ld _ _ _ _ _ | .st _ _ _ _ | .cmpx _ _ _ _ | .br _ _ => true
  | .mfs _ _ | .mts _ _ | .rete | .fli _ | .fence | .wait | .svc _ | .rep _ _ | .loop _ _ | .blk _ _ _ _ _ _ => false

/-- Two consecutive words, the first at an address that is a multiple of 8, issue as a pair (R265). -/
def pairs (a : Isi) (condB : BitVec 4) (b : Isi) : Bool :=
  a.pairable && b.pairable && !a.isBranch && !(a.isMem && b.isMem) &&
  a.writes.all (fun g => !b.reads.contains g && !b.writes.contains g) &&
  !(a.writesFlag && (decide (2 ≤ condB.toNat) || b.testsFlag))

/-! ### General and special registers (R230–R233) -/

def gr (c : Ctx) (g : Reg) : Word := c.g[g.toNat]'(by have := g.isLt; omega)

def setG (g : Reg) (v : Word) (c : Ctx) : Ctx := { c with g := c.g.set g.toNat v (by have := g.isLt; omega) }

/-- CORE_ID (R231): the kind, the logical cluster and the position code, a pair's of its first member. -/
def coreId (s : State) : CoreId → Word
  | .thread n t => BitVec.ofNat 32 (0x100 * n.val + t.val)
  | .lane n x => BitVec.ofNat 32 (0x1000 + 0x100 * n.val + 0x10 + firstPos s n.val x.val)
  | .cp => 0x2020

/-- A special register as MFS reads it. -/
def sprRead (s : State) (k : CoreId) (c : Ctx) (spr : BitVec 4) : Word :=
  match spr.toNat with
  | 0 => pswView c
  | 1 => c.epc
  | 2 => c.enpc
  | 3 => c.epsw
  | 4 => c.mode
  | 5 => c.lstart
  | 6 => c.lend
  | 7 => c.lcount
  | _ => coreId s k

/-- Reading the register needs supervisor mode. -/
def sprReadPriv (spr : BitVec 4) : Bool := spr = 1 || spr = 2 || spr = 3

/-- Writing it does. -/
def sprWritePriv (spr : BitVec 4) : Bool := spr = 1 || spr = 2 || spr = 3 || spr = 4

/-- The bits MTS writes of PSW: N, Z, C, V, DZ, DZT, and IE in supervisor mode (R232). -/
def pswMask (sup : Bool) : Word := if sup then 0xF00001C0 else 0xF0000180

/-- MTS to a permitted special register; CORE_ID takes no write (R231–R233). -/
def sprWrite (spr : BitVec 4) (v : Word) (c : Ctx) : Ctx :=
  match spr.toNat with
  | 0 => let m := pswMask (c.mode.getLsbD 0)
         { c with psw := (v &&& m) ||| (c.psw &&& ~~~m) }
  | 1 => { c with epc := v }
  | 2 => { c with enpc := v }
  | 3 => { c with epsw := v &&& 0xF00001F0 }
  | 4 => { c with mode := v &&& 1 }
  | 5 => { c with lstart := v &&& 0xFFFFFFFC }
  | 6 => { c with lend := v &&& 0xFFFFFFFC }
  | 7 => { c with lcount := v }
  | _ => c

/-! ### Memory operands (R238, R244, R246) -/

/-- The sum of a base register and a signed byte offset. -/
def memAt (c : Ctx) (ra : Reg) (off : BitVec 12) : Word := gr c ra + off.signExtend 32

/-- Bytes of a size code (R238). -/
def szBytes (sz : BitVec 2) : Nat := 2 ^ sz.toNat

/-- The bytes of an access in the aligned parts that make it up, lower first: address and count (R246). -/
def accParts (a size : Nat) : List (Nat × Nat) :=
  if a % size = 0 then [(a, size)]
  else if size = 2 then [(a, 1), (a + 1, 1)]
  else [(a, 4 - a % 4), (a + (4 - a % 4), a % 4)]

/-- The address of the aligned access that covers a part: three bytes are covered by their whole word. -/
def partAddr (p : Nat × Nat) : Nat := if p.2 = 3 then p.1 / 4 * 4 else p.1

end Sys2Proof.Machine
end

