-- ==== Sys2Proof/Machine/Flags.lean ====
section
/-! DEFINITION. Conditions and flags (R235, R239–R243): the results of the arithmetic with the flags they give. -/

namespace Sys2Proof.Machine

def pswN (p : Word) : Bool := p.getLsbD 31
def pswZ (p : Word) : Bool := p.getLsbD 30
def pswC (p : Word) : Bool := p.getLsbD 29
def pswV (p : Word) : Bool := p.getLsbD 28

/-- A condition code holds of a PSW (R235). -/
def condHolds (p : Word) (cond : BitVec 4) : Bool :=
  match cond.toNat with
  | 0x0 => true
  | 0x1 => false
  | 0x2 => pswZ p
  | 0x3 => !pswZ p
  | 0x4 => pswC p
  | 0x5 => !pswC p
  | 0x6 => pswN p
  | 0x7 => !pswN p
  | 0x8 => pswV p
  | 0x9 => !pswV p
  | 0xA => pswC p && !pswZ p
  | 0xB => !pswC p || pswZ p
  | 0xC => pswN p == pswV p
  | 0xD => pswN p != pswV p
  | 0xE => !pswZ p && pswN p == pswV p
  | _ => pswZ p || pswN p != pswV p

/-- A PSW with one bit set to a value. -/
def pswSet (b : Nat) (v : Bool) (p : Word) : Word :=
  if v then p ||| BitVec.twoPow 32 b else p &&& ~~~BitVec.twoPow 32 b

/-- A result with the flags it gives; `none` leaves a flag as it is. -/
structure Alu where
  res : Word
  n : Bool
  z : Bool
  c : Option Bool
  v : Option Bool
  deriving DecidableEq, Repr

/-- The flags of a result, written into a PSW. -/
def aluFlags (a : Alu) (p : Word) : Word :=
  let p := pswSet 30 a.z (pswSet 31 a.n p)
  let p := match a.c with
    | some b => pswSet 29 b p
    | none => p
  match a.v with
  | some b => pswSet 28 b p
  | none => p

/-- A result with N and Z of its own, and the carry and overflow given. -/
def aluOf (r : Word) (c v : Option Bool) : Alu := { res := r, n := r.msb, z := r = 0, c := c, v := v }

/-- Logical operations and moves: N and Z only. -/
def logicAlu (r : Word) : Alu := aluOf r none none

/-- The signed value does not fit 32 bits. -/
def overflows (t : Int) : Bool := decide (t < -2147483648 ∨ 2147483647 < t)

/-- a + b + carry (R239): C is the carry out of bit 31. -/
def addAlu (a b : Word) (ci : Bool) : Alu :=
  aluOf (BitVec.ofNat 32 (a.toNat + b.toNat + ci.toNat)) (some (decide (2 ^ 32 ≤ a.toNat + b.toNat + ci.toNat)))
    (some (overflows (a.toInt + b.toInt + ci.toNat)))

/-- a − b − borrow (R239): C is 1 when no borrow occurs. -/
def subAlu (a b : Word) (bi : Bool) : Alu :=
  aluOf (a - b - BitVec.ofNat 32 bi.toNat) (some (decide (b.toNat + bi.toNat ≤ a.toNat)))
    (some (overflows (a.toInt - b.toInt - bi.toNat)))

/-- LSL (R240). -/
def lslAlu (a : Word) (n : Nat) : Alu :=
  if n = 0 then aluOf a none none
  else if n ≤ 32 then aluOf (a <<< n) (some (a.getLsbD (32 - n))) none
  else aluOf 0 (some false) none

/-- LSR (R240). -/
def lsrAlu (a : Word) (n : Nat) : Alu :=
  if n = 0 then aluOf a none none
  else if n ≤ 32 then aluOf (a >>> n) (some (a.getLsbD (n - 1))) none
  else aluOf 0 (some false) none

/-- ASR (R240). -/
def asrAlu (a : Word) (n : Nat) : Alu :=
  if n = 0 then aluOf a none none
  else if n ≤ 31 then aluOf (a.sshiftRight n) (some (a.getLsbD (n - 1))) none
  else aluOf (if a.msb then 0xFFFFFFFF else 0) (some a.msb) none

/-- ROR (R240). -/
def rorAlu (a : Word) (n : Nat) : Alu :=
  if n = 0 then aluOf a none none
  else
    let r := a.rotateRight (n % 32)
    aluOf r (some r.msb) none

/-- Leading zero bits among bits [k−1:0]. -/
def clzFrom (a : Word) : Nat → Nat
  | 0 => 0
  | k + 1 => if a.getLsbD k then 0 else 1 + clzFrom a k

/-- Count of leading zero bits, 0–32. -/
def clzOf (a : Word) : Word := BitVec.ofNat 32 (clzFrom a 32)

/-- Byte order reversed. -/
def revOf (a : Word) : Word :=
  a.extractLsb' 0 8 ++ a.extractLsb' 8 8 ++ a.extractLsb' 16 8 ++ a.extractLsb' 24 8

/-- Write a result to rd, and its flags where S = 1. -/
def wrAlu (sf : Bool) (rd : Reg) (a : Alu) (c : Ctx) : Ctx :=
  setG rd a.res { c with psw := if sf then aluFlags a c.psw else c.psw }

/-- Write a result's flags alone (CMP, TST, CMPM, TSTM). -/
def wrFlags (a : Alu) (c : Ctx) : Ctx := { c with psw := aluFlags a c.psw }

/-- NEG (R241): the overflow case sets V whatever S holds. -/
def negCtx (sf : Bool) (rd : Reg) (b : Word) (c : Ctx) : Ctx :=
  let c := wrAlu sf rd (subAlu 0 b false) c
  if b = 0x80000000 then { c with psw := pswSet 28 true c.psw } else c

/-- A 64-bit product into the register pair rd, rd + 1 (R243); N and Z of the 64 bits. -/
def mulPair (sf : Bool) (rd : Reg) (p : BitVec 64) (c : Ctx) : Ctx :=
  let c := if sf then { c with psw := pswSet 30 (p = 0) (pswSet 31 p.msb c.psw) } else c
  setG (rd + 1) (p.extractLsb' 32 32) (setG rd (p.extractLsb' 0 32) c)

/-- A quotient and remainder into the register pair (R241–R243): flags where S = 1; the signed overflow sets V and a
division by zero sets DZ, whatever S holds. -/
def divPair (sf ovf dz : Bool) (rd : Reg) (q r : Word) (c : Ctx) : Ctx :=
  let p := if sf then pswSet 28 false (pswSet 30 (q = 0) (pswSet 31 q.msb c.psw)) else c.psw
  let p := if ovf then pswSet 28 true p else p
  let p := if dz then pswSet 8 true p else p
  setG (rd + 1) r (setG rd q { c with psw := p })

/-- DIV (R241, R242). -/
def divS (sf : Bool) (rd : Reg) (a b : Word) (c : Ctx) : Ctx :=
  if b = 0 then divPair sf false true rd (if a.msb then 0x80000000 else 0x7FFFFFFF) a c
  else if a = 0x80000000 ∧ b = 0xFFFFFFFF then divPair sf true false rd 0x80000000 0 c
  else divPair sf false false rd (a.sdiv b) (a.srem b) c

/-- DIVU (R242). -/
def divU (sf : Bool) (rd : Reg) (a b : Word) (c : Ctx) : Ctx :=
  if b = 0 then divPair sf false true rd 0xFFFFFFFF a c else divPair sf false false rd (a / b) (a % b) c

/-! ### One element of a check value (R256) -/

/-- One bit of a CRC that shifts left over 16 bits by polynomial 0x1021. -/
def crcUp : Nat → Word → Word
  | 0, r => r
  | k + 1, r => crcUp k ((if r.getLsbD 15 then (r <<< 1) ^^^ 0x1021 else r <<< 1) &&& 0xFFFF)

/-- Bits of a reflected CRC. -/
def crcDown (p : Word) : Nat → Word → Word
  | 0, r => r
  | k + 1, r => crcDown p k (if r.getLsbD 0 then (r >>> 1) ^^^ p else r >>> 1)

/-- The running register after one byte of kind k (R256). -/
def crcElem (k : Nat) (r : Word) (b : Byte) : Word :=
  let x := b.setWidth 32
  match k with
  | 1 | 2 => (r + x) &&& 0xFF
  | 3 => (r ^^^ x) &&& 0xFF
  | 4 | 5 => crcUp 8 ((r &&& 0xFFFF) ^^^ (x <<< 8))
  | 6 => crcDown 0x8408 8 ((r &&& 0xFFFF) ^^^ x)
  | 7 | 8 => crcDown 0xA001 8 ((r &&& 0xFFFF) ^^^ x)
  | _ => crcDown 0xEDB88320 8 (r ^^^ x)

end Sys2Proof.Machine
end

