-- ==== Sys2Proof/Machine/Issue.lean ====
section
/-! DEFINITION. The issue of one word (spec/10_execution_and_exceptions.md R262–R280): who may issue, the checks in the
order of R271, the advance of PC and NPC with the hardware loop, exceptions, the iterations of a repeat unit, and what
the copies of a pair compare (R356). -/

namespace Sys2Proof.Machine

/-! ### Who issues -/

/-- The core runs: a thread RUNNING or PARKED and not frozen (R210, R362); a lane core or the control processor that is not
stopped, waiting or in its BIST (R280, R285, R360, R361); its cluster powered and not handed over (R34, R400). -/
def canRun (s : State) (c : CoreId) : Bool :=
  let x := core s (runIx s c)
  match c with
  | .thread n t =>
    (thrState s n.val t.val = 1 || thrState s n.val t.val = 2) && !x.frozen &&
      decide (getF s (fPwr n.val) ≤ 1) && !inHandover s n.val
  | .lane n _ =>
    !x.failed && !x.ctx.waiting && x.bistEnd.isNone && decide (getF s (fPwr n.val) ≤ 1) && !inHandover s n.val
  | .cp => s.host.cpRun && !x.failed && !x.ctx.waiting && decide (s.guard.cpMism < 2)

/-- The core issues a word: a core that runs; a thread at the next of its turns, if that comes before the next tick and
before a STOP takes effect (R204, R205, R211). -/
def canIssue (s : State) (c : CoreId) : Bool :=
  canRun s c && (match c with
    | .thread n t => match issueTurn s n.val t.val with
      | some u => dueNow s u && (core s (16 * n.val + t.val)).stopAt.elim true (fun e => decide (u < e))
      | none => false
    | .lane _ _ | .cp => true)

/-- A word of `k` thread turns begins to issue: a thread waits for its turn, and its next word for `k` of them (R205); the
words corrected by its reads are counted (R213, R365). `long`: the context to which an interrupt or a STOP abandons it. -/
def startIssue (i : Issue) (k : Nat) (long : Option Ctx) (s : State) : State :=
  let s := addF fScrubCorr i.corrected s
  match i.core with
  | .thread n t => match issueTurn s n.val t.val with
    | some u => updCore (16 * n.val + t.val) (fun x => { x with issueAt := u + 1, owed := k - 1, long := long }) (goTo u s)
    | none => s
  | .lane _ _ | .cp => s

/-- Thread turns of one access by thread t of cluster n (R208, R245). -/
def accTurns (n t : Nat) (store : Bool) (a : Nat) : Nat :=
  if sliceBase n t ≤ a ∧ a < sliceBase n t + 0x10000 then 1
  else if winOf a = n ∧ memAddr a then 2
  else if store then 1
  else if winOf a = n ∨ 0xF0000000 ≤ a then 2
  else 3

/-- Thread turns of an access in its parts (R246). -/
def memTurns (n t : Nat) (store : Bool) (a size : Nat) : Nat :=
  ((accParts a size).map (fun p => accTurns n t store p.1)).foldl (· + ·) 0

/-- Thread turns of a word, or of one iteration of it (R245, R251, R260); of lane cores the model counts none. -/
def wordTurns (k : CoreId) (c : Ctx) (x : Isi) : Nat :=
  match k with
  | .thread n t =>
    let m := memTurns n.val t.val
    (match x with
     | .r .mul _ _ _ _ => 2
     | .r .mull _ _ _ _ | .r .mullu _ _ _ _ => 4
     | .r .div _ _ _ _ | .r .divu _ _ _ _ => 18
     | .rete => 2
     | .ld sz _ _ ra off => m false (memAt c ra off).toNat (szBytes sz)
     | .st sz _ ra off => m true (memAt c ra off).toNat (szBytes sz)
     | .cmpx _ _ rb off => m false (memAt c rb off).toNat 4
     | .blk .copy sz _ rd ra _ => m false (gr c ra).toNat (szBytes sz) + m true (gr c rd).toNat (szBytes sz)
     | .blk .fill sz _ rd _ _ => m true (gr c rd).toNat (szBytes sz)
     | .blk .crc _ _ _ ra _ => m false (gr c ra).toNat 1
     | .blk .step _ _ rd ra rb =>
       m false (gr c ra).toNat 1 + m false (gr c rb + BitVec.ofNat 32 (256 * bitsOf (gr c rd) 7 0)).toNat 1
     | _ => 1)
  | .lane _ _ | .cp => 1

/-- A STOP takes effect before a word of `k` turns that issues now has counted them: it would be abandoned (R211). -/
def stopsWithin (c : CoreId) (k : Nat) (s : State) : Bool :=
  match c with
  | .thread n t => match (core s (16 * n.val + t.val)).stopAt, issueTurn s n.val t.val with
    | some e, some u => (ownAfter s n.val t.val (k - 2) (u + 1)).elim true (fun v => decide (e ≤ v))
    | _, _ => false
  | .lane _ _ | .cp => false

/-- The core runs as a pair whose copies are compared (R356, R370). -/
def compared (s : State) (c : CoreId) : Bool := keepsCkpt c && isPair s (runIx s c)

/-- The address lies where the core fetches: its own slice, or the code store (R212, R270). -/
def fetchOk (c : CoreId) (a : Nat) : Bool :=
  match c with
  | .thread n t => decide (sliceBase n.val t.val ≤ a ∧ a < sliceBase n.val t.val + 0x10000)
  | .lane _ _ | .cp => decide (a < 0x01000000)

/-- The word may stand where it is (R229, R234, R250, R253, R258). -/
def legalHere (k : CoreId) (c : Ctx) (x : Isi) : Bool :=
  x.legal &&
  (match x with
   | .wait | .svc _ => !isThread k
   | _ => true) &&
  !(c.slot && x.slotBanned) && !(c.pc = c.lend && c.lcount ≠ 0 && x.lendBanned)

/-- What a word meets before its condition is tested, with the bad address (R271): FETCH, ECC on the fetch, ILLEGAL. -/
def fetchTrap (i : Issue) (c : Ctx) (legal : Bool) : Option (Nat × Word) :=
  if !fetchOk i.core c.pc.toNat then some (6, c.pc)
  else if i.eccFetch then some (7, c.pc)
  else if !legal then some (1, 0)
  else none

/-! ### The advance of PC and NPC (R257, R262, R276) -/

/-- The end of the hardware loop, after the word at `last` completed and PC took its next value. The target of a branch
whose slot stood there, and whose condition held, is taken (R258). -/
def loopEnd (taken : Bool) (last : Word) (c : Ctx) : Ctx :=
  if last = c.lend ∧ c.lcount ≠ 0 then
    let c := { c with lcount := c.lcount - 1 }
    if c.pc = last + 4 ∧ c.lcount ≠ 0 ∧ !taken then { c with pc := c.lstart, npc := c.lstart + 4 } else c
  else c

/-- PC and NPC after a word completes (R262); a branch gives the address that follows its slot, and whether its condition
held. -/
def advance (branch : Option (Word × Bool)) (c : Ctx) : Ctx :=
  let next := enpcOf c
  loopEnd c.taken c.pc { c with pc := next, npc := branch.elim (next + 4) (fun t => t.1), slot := branch.isSome, begun := false,
                                left := 0, unit := none, parked := false, entry := false,
                                taken := branch.elim false (fun t => t.2) }

/-- PC and NPC after a repeat unit at PC completes: the word after the unit issues (R251, R262). -/
def unitDone (c : Ctx) : Ctx :=
  loopEnd false (c.pc + 4) { c with pc := c.pc + 8, npc := c.pc + 12, slot := false, begun := false, left := 0, unit := none,
                                    parked := false, entry := false }

/-- PC and NPC set outright (RETE, LOOP). A return to a prefix whose repetition an entry has cut goes on with it, a REPL
with a new run of 64 (R252, R254, R276). -/
def placeCtx (ret : Bool) (pc npc : Word) (c : Ctx) : Ctx :=
  let b := ret && c.back.contains pc
  { c with pc := pc, npc := npc, slot := decide (npc ≠ pc + 4), begun := b, left := if b then 64 else 0, unit := none,
           parked := false, entry := false, taken := false, back := if b then c.back.erase pc else c.back }

/-! ### What an instruction's own effect is -/

/-- The effect of a word whose condition holds. -/
inductive Result where
  /-- The core's context becomes `c`, the next word follows, and then `post` happens. -/
  | fin (c : Ctx) (post : State → State)
  /-- A store: room is made for it first (R357). -/
  | store (c : Ctx) (pre post : State → State)
  /-- A branch or jump goes to `t` after its slot. -/
  | jump (c : Ctx) (t : Word)
  /-- PC and NPC are set outright; `ret`: by a return. -/
  | place (ret : Bool) (c : Ctx) (pc npc : Word)
  /-- An exception, with what R246 performed before it. -/
  | trap (cause detail : Nat) (bad : Word) (pre : State → State)
  /-- The access is held (R34): nothing happens yet. -/
  | held

/-- Set the context of a core. -/
def setCtx (k : Nat) (c : Ctx) (s : State) : State := updCore k (fun x => { x with ctx := c }) s

/-! ### Fetch buffers (R267, R268) -/

/-- A fetch of a line in the line buffer makes it the most recently used. -/
def touchLine (c : CoreId) (pc : Word) (s : State) : State :=
  if isThread c then s
  else
    let a := BitVec.ofNat 32 (pc.toNat / 32 * 32)
    let n := coreCl c
    match (clus s n).lines.find? (fun l => l.1 = a) with
    | some l => updClus n (fun x => { x with lines := l :: x.lines.filter (fun m => m.1 ≠ a) }) s
    | none => s

/-- Index and tag of a branch word in a branch-target buffer. -/
def btbIx (pc : Word) : Nat := bitsOf pc 7 2
def btbTag (pc : Word) : Nat := bitsOf pc 31 8

/-- A branch resolves (R268): a taken one installs or updates its entry, a not-taken one that hits counts down. -/
def btbResolve (c : CoreId) (k : Nat) (pc : Word) (target : Option Word) (s : State) : State :=
  if isLane c then
    updCore k (fun x =>
      let hit := match Tab.find x.btb (btbIx pc) with
        | some e => if e.tag = btbTag pc then some e else none
        | none => none
      match target, hit with
      | some t, some e => { x with btb := Tab.put x.btb (btbIx pc) { tag := e.tag, target := t, count := min 3 (e.count + 1) } }
      | some t, none => { x with btb := Tab.put x.btb (btbIx pc) { tag := btbTag pc, target := t, count := 2 } }
      | none, some e => { x with btb := Tab.put x.btb (btbIx pc) { tag := e.tag, target := e.target, count := e.count - 1 } }
      | none, none => x) s
  else s

/-! ### Pairs of words (R265, R266) -/

/-- The word at PC issues as the second of a pair. -/
def second (x : CoreSt) (cond : BitVec 4) (w : Isi) : Bool :=
  match x.prev with
  | some (a, v) =>
    x.ctx.pc = a + 4 && a.toNat % 8 = 0 && (match decodeWord v with
      | some (_, y) => pairs y cond w
      | none => false)
  | none => false

/-- A lane core remembers the word it issued, unless it stands at LEND with LCOUNT not 0. -/
def notePrev (c : CoreId) (k : Nat) (w : Word) (s : State) : State :=
  if isLane c then
    updCore k (fun x => { x with prev := if x.ctx.pc = x.ctx.lend ∧ x.ctx.lcount ≠ 0 then none else some (x.ctx.pc, w) }) s
  else s

/-! ### Exceptions (R219, R271–R280) -/

/-- The first fetch of an entry fails on a lane core or the control processor (R280): it stops as a core fault, with the
vector address. -/
def coreFail (c : CoreId) (cause : Nat) (s : State) : State :=
  match c with
  | .thread n t => threadFault n.val t.val cause (core s (16 * n.val + t.val)).ctx.pc s
  | .lane n x => laneFail n.val (firstPos s n.val x.val) 0x0B cause s
  | .cp => updCore 256 (fun x => { x with failed := true })
      (faultRec 0x0B 4 2 0xFF 0xFF 0x20 0xFFFF (core s 256).ctx.pc.toNat cause 0 s)

/-- An uncorrectable word that a thread reads is reported to the fault block (R213). -/
def reportEcc (c : CoreId) (cause : Nat) (bad : Word) (s : State) : State :=
  if isThread c ∧ cause = 7 then eccRec (coreCl c) (physOf s (coreCl c)) bad.toNat s else s

/-- An exception of the word at PC (R270–R276); the copies of a pair compare it (R356). -/
def trapIn (i : Issue) (x : Isi) (cause detail : Nat) (bad : Word) (s : State) : State :=
  let k := runIx s i.core
  if compared s i.core && !i.agree then mismatch k 1 s
  else
    let two := second (core s k) i.cond x && isLane i.core
    let s := raiseExc i.core cause detail bad (reportEcc i.core cause bad s)
    let s := if two then setF (bit (privK k 0x804) 18) 1 s else s
    if isLane i.core then updCore k (fun y => { y with prev := none }) s else s

/-- An exception of the fetch: a core whose entry's first fetch fails stops (R280). -/
def fetchFail (i : Issue) (x : Isi) (cause : Nat) (bad : Word) (s : State) : State :=
  if keepsCkpt i.core && (core s (runIx s i.core)).ctx.entry && decide (6 ≤ cause) then coreFail i.core cause s
  else trapIn i x cause 0 bad s

/-! ### Completion -/

/-- What the copies of a pair compare when the word completes (R356). -/
def Isi.observed : Isi → Bool
  | .ld _ _ _ _ _ | .st _ _ _ _ | .cmpx _ _ _ _ | .br _ _ | .jr _ | .jlr _ _ | .mts _ _ | .blk _ _ _ _ _ _ => true
  | _ => false

/-- The copies of a pair differ on what this word shows. -/
def differs (s : State) (i : Issue) (x : Isi) : Bool := compared s i.core && !i.agree && x.observed

/-- A word's fetch and its place as the first of a pair. -/
def fetched (i : Issue) (x : Isi) (s : State) : State :=
  let k := runIx s i.core
  notePrev i.core k (encode i.cond x) (touchLine i.core (core s k).ctx.pc s)

/-- A word takes its effect and the next one follows. -/
def finish (i : Issue) (x : Isi) (r : Result) (s : State) : State :=
  let k := runIx s i.core
  let c0 := (core s k).ctx
  match r with
  | .trap cause detail bad pre => trapIn i x cause detail bad (if compared s i.core && !i.agree then s else pre s)
  | .held => s
  | .fin c post => if differs s i x then mismatch k 1 s else post (setCtx k (advance none c) (fetched i x s))
  | .store c pre post =>
    if differs s i x then mismatch k 1 s
    else
      let s := pre s
      if (core s k).ctx = c0 then post (setCtx k (advance none c) (fetched i x s)) else s
  | .jump c t =>
    if differs s i x then mismatch k 1 s
    else btbResolve i.core k c0.pc (some t) (setCtx k (advance (some (t, true)) c) (fetched i x s))
  | .place ret c pc npc => if differs s i x then mismatch k 1 s else setCtx k (placeCtx ret pc npc c) (fetched i x s)

/-- A word whose condition does not hold (R236): the next one follows; a branch's slot still executes (R248). -/
def skip (i : Issue) (x : Isi) (s : State) : State :=
  let k := runIx s i.core
  let c := (core s k).ctx
  if x.isBranch then
    if differs s i x then mismatch k 1 s
    else btbResolve i.core k c.pc none (setCtx k (advance (some (c.pc + 8, false)) c) (fetched i x s))
  else setCtx k (advance none c) (fetched i x s)

/-! ### Repeat units (R251–R254) -/

/-- A thread leaves PARKED when its repetition ends or its core is interrupted (R210, R217). -/
def unpark (k : CoreId) (s : State) : State :=
  match k with
  | .thread n t => if thrState s n.val t.val = 2 then setF (fThrState n.val t.val) 1 s else s
  | .lane _ _ | .cp => s

/-- One completed iteration: rc counts down; the repetition ends when rc is 0 or the repeated word's condition holds of
the flags it left. -/
def iterCtx (u : RepUnit) (cond : BitVec 4) (c : Ctx) : Ctx :=
  let c := setG u.rc (gr c u.rc - 1) c
  if gr c u.rc = 0 || condHolds c.psw cond then unitDone c
  else { c with unit := some { u with left := u.left - 1 }, entry := false }

/-- After an iteration: a thread whose unit ended leaves PARKED. -/
def iterEnd (i : Issue) (s : State) : State :=
  if (core s (runIx s i.core)).ctx.unit.isNone then unpark i.core s else s

/-- One iteration of the armed unit (R251, R254). -/
def iterate (i : Issue) (x : Isi) (u : RepUnit) (r : Result) (s : State) : State :=
  let k := runIx s i.core
  let c0 := (core s k).ctx
  match r with
  | .trap cause detail bad pre => trapIn i x cause detail bad (if compared s i.core && !i.agree then s else pre s)
  | .held | .jump _ _ | .place _ _ _ _ => s
  | .fin c post =>
    if differs s i x then mismatch k 1 s else post (iterEnd i (setCtx k (iterCtx u i.cond c) s))
  | .store c pre post =>
    if differs s i x then mismatch k 1 s
    else
      let s := pre s
      if (core s k).ctx = c0 then post (iterEnd i (setCtx k (iterCtx u i.cond c) s)) else s

/-! ### Issue -/

/-- Issue of an instruction: as an iteration of the armed unit that repeats this very word, or as the word at PC. A
command that names another word than the armed unit's has no effect (log entry 4). -/
def issue (i : Issue) (x : Isi) (run : Ctx → State → Result) (s : State) : Outcome :=
  let c := (core s (runIx s i.core)).ctx
  done (
    if !canIssue s i.core then s
    else match c.unit with
      | some u =>
        if u.word = encode i.cond x then
          let s := startIssue i (wordTurns i.core c x) none s
          iterate i x u (run c s) s
        else s
      | none =>
        if c.parked then s
        else match fetchTrap i c (legalHere i.core c x && !x.isBlock) with
          | some (cause, bad) => fetchFail i x cause bad (startIssue i 1 none s)
          | none =>
            if condHolds c.psw i.cond then
              (if x.isLong && stopsWithin i.core (wordTurns i.core c x) s then s
               else
                 let s := startIssue i (wordTurns i.core c x) (if x.isLong then some c else none) s
                 finish i x (run c s) s)
            else skip i x (startIssue i 1 none s))

end Sys2Proof.Machine
end

