-- ==== Sys2Proof/Machine/Alu.lean ====
section
/-! DEFINITION. The register instructions (spec/09_instruction_set.md R239–R243, R260): the R, I and W formats. -/

namespace Sys2Proof.Machine

/-- An instruction whose whole effect is on the core's registers and flags. -/
def coreRow (i : Issue) (x : Isi) (f : Ctx → Ctx) : State → Outcome := issue i x (fun c _ => .fin (f c) id)

/-- R format: rd from ra, rb and the carry. -/
def rRow (i : Issue) (fn : RFn) (sf : Bool) (rd ra rb : Reg) (f : Bool → Word → Word → Alu) : State → Outcome :=
  coreRow i (.r fn sf rd ra rb) (fun c => wrAlu sf rd (f (pswC c.psw) (gr c ra) (gr c rb)) c)

/-- I format: rd from ra and the immediate. -/
def iRow (i : Issue) (fn : IFn) (sf : Bool) (rd ra : Reg) (imm : BitVec 11) (f : Word → Alu) : State → Outcome :=
  coreRow i (.i fn sf rd ra imm) (fun c => wrAlu sf rd (f (gr c ra)) c)

/-- imm11 sign-extended, zero-extended, and as a shift count (R238, R240). -/
def simm (imm : BitVec 11) : Word := imm.signExtend 32
def uimm (imm : BitVec 11) : Word := imm.setWidth 32
def shimm (imm : BitVec 11) : Nat := bitsOf (uimm imm) 7 0

/-! ### R format -/

/-- ADD (R260). -/
def execAdd (i : Issue) (sf : Bool) (rd ra rb : Reg) (s : State) : Outcome :=
  rRow i .add sf rd ra rb (fun _ a b => addAlu a b false) s

/-- ADC (R260). -/
def execAdc (i : Issue) (sf : Bool) (rd ra rb : Reg) (s : State) : Outcome :=
  rRow i .adc sf rd ra rb (fun ci a b => addAlu a b ci) s

/-- SUB (R260). -/
def execSub (i : Issue) (sf : Bool) (rd ra rb : Reg) (s : State) : Outcome :=
  rRow i .sub sf rd ra rb (fun _ a b => subAlu a b false) s

/-- SBC (R260). -/
def execSbc (i : Issue) (sf : Bool) (rd ra rb : Reg) (s : State) : Outcome :=
  rRow i .sbc sf rd ra rb (fun ci a b => subAlu a b (!ci)) s

/-- AND (R260). -/
def execAndR (i : Issue) (sf : Bool) (rd ra rb : Reg) (s : State) : Outcome :=
  rRow i .and sf rd ra rb (fun _ a b => logicAlu (a &&& b)) s

/-- OR (R260). -/
def execOrR (i : Issue) (sf : Bool) (rd ra rb : Reg) (s : State) : Outcome :=
  rRow i .or sf rd ra rb (fun _ a b => logicAlu (a ||| b)) s

/-- XOR (R260). -/
def execXorR (i : Issue) (sf : Bool) (rd ra rb : Reg) (s : State) : Outcome :=
  rRow i .xor sf rd ra rb (fun _ a b => logicAlu (a ^^^ b)) s

/-- ANDN (R260). -/
def execAndn (i : Issue) (sf : Bool) (rd ra rb : Reg) (s : State) : Outcome :=
  rRow i .andn sf rd ra rb (fun _ a b => logicAlu (a &&& ~~~b)) s

/-- LSL (R260). -/
def execLsl (i : Issue) (sf : Bool) (rd ra rb : Reg) (s : State) : Outcome :=
  rRow i .lsl sf rd ra rb (fun _ a b => lslAlu a (bitsOf b 7 0)) s

/-- LSR (R260). -/
def execLsr (i : Issue) (sf : Bool) (rd ra rb : Reg) (s : State) : Outcome :=
  rRow i .lsr sf rd ra rb (fun _ a b => lsrAlu a (bitsOf b 7 0)) s

/-- ASR (R260). -/
def execAsr (i : Issue) (sf : Bool) (rd ra rb : Reg) (s : State) : Outcome :=
  rRow i .asr sf rd ra rb (fun _ a b => asrAlu a (bitsOf b 7 0)) s

/-- ROR (R260). -/
def execRor (i : Issue) (sf : Bool) (rd ra rb : Reg) (s : State) : Outcome :=
  rRow i .ror sf rd ra rb (fun _ a b => rorAlu a (bitsOf b 7 0)) s

/-- MUL (R260). -/
def execMul (i : Issue) (sf : Bool) (rd ra rb : Reg) (s : State) : Outcome :=
  rRow i .mul sf rd ra rb (fun _ a b => logicAlu (a * b)) s

/-- MOV (R260). -/
def execMov (i : Issue) (sf : Bool) (rd rb : Reg) (s : State) : Outcome :=
  rRow i .mov sf rd 0 rb (fun _ _ b => logicAlu b) s

/-- MVN (R260). -/
def execMvn (i : Issue) (sf : Bool) (rd rb : Reg) (s : State) : Outcome :=
  rRow i .mvn sf rd 0 rb (fun _ _ b => logicAlu (~~~b)) s

/-- NEG (R241). -/
def execNeg (i : Issue) (sf : Bool) (rd rb : Reg) (s : State) : Outcome :=
  coreRow i (.r .neg sf rd 0 rb) (fun c => negCtx sf rd (gr c rb) c) s

/-- CMP (R239). -/
def execCmp (i : Issue) (ra rb : Reg) (s : State) : Outcome :=
  coreRow i (.r .cmp true 0 ra rb) (fun c => wrFlags (subAlu (gr c ra) (gr c rb) false) c) s

/-- TST (R239). -/
def execTst (i : Issue) (ra rb : Reg) (s : State) : Outcome :=
  coreRow i (.r .tst true 0 ra rb) (fun c => wrFlags (logicAlu (gr c ra &&& gr c rb)) c) s

/-- MULL (R243): the signed 64-bit product. -/
def execMull (i : Issue) (sf : Bool) (rd ra rb : Reg) (s : State) : Outcome :=
  coreRow i (.r .mull sf rd ra rb)
    (fun c => mulPair sf rd ((gr c ra).signExtend 64 * (gr c rb).signExtend 64) c) s

/-- MULLU (R243): the unsigned 64-bit product. -/
def execMullu (i : Issue) (sf : Bool) (rd ra rb : Reg) (s : State) : Outcome :=
  coreRow i (.r .mullu sf rd ra rb)
    (fun c => mulPair sf rd ((gr c ra).setWidth 64 * (gr c rb).setWidth 64) c) s

/-- A division by zero with PSW.DZT = 1 raises DIVZERO before it writes anything (R242). -/
def divRow (i : Issue) (x : Isi) (rb : Reg) (f : Ctx → Ctx) : State → Outcome :=
  issue i x (fun c _ => if gr c rb = 0 ∧ c.psw.getLsbD 7 then .trap 4 0 0 id else .fin (f c) id)

/-- DIV (R241, R242). -/
def execDiv (i : Issue) (sf : Bool) (rd ra rb : Reg) (s : State) : Outcome :=
  divRow i (.r .div sf rd ra rb) rb (fun c => divS sf rd (gr c ra) (gr c rb) c) s

/-- DIVU (R242). -/
def execDivu (i : Issue) (sf : Bool) (rd ra rb : Reg) (s : State) : Outcome :=
  divRow i (.r .divu sf rd ra rb) rb (fun c => divU sf rd (gr c ra) (gr c rb) c) s

/-- CLZ (R260). -/
def execClz (i : Issue) (sf : Bool) (rd ra : Reg) (s : State) : Outcome :=
  rRow i .clz sf rd ra 0 (fun _ a _ => logicAlu (clzOf a)) s

/-- REV (R260). -/
def execRev (i : Issue) (sf : Bool) (rd ra : Reg) (s : State) : Outcome :=
  rRow i .rev sf rd ra 0 (fun _ a _ => logicAlu (revOf a)) s

/-- SXB (R260). -/
def execSxb (i : Issue) (sf : Bool) (rd ra : Reg) (s : State) : Outcome :=
  rRow i .sxb sf rd ra 0 (fun _ a _ => logicAlu ((a.setWidth 8).signExtend 32)) s

/-- SXH (R260). -/
def execSxh (i : Issue) (sf : Bool) (rd ra : Reg) (s : State) : Outcome :=
  rRow i .sxh sf rd ra 0 (fun _ a _ => logicAlu ((a.setWidth 16).signExtend 32)) s

/-! ### I format -/

/-- ADDI (R238, R260). -/
def execAddi (i : Issue) (sf : Bool) (rd ra : Reg) (imm : BitVec 11) (s : State) : Outcome :=
  iRow i .add sf rd ra imm (fun a => addAlu a (simm imm) false) s

/-- SUBI (R238, R260). -/
def execSubi (i : Issue) (sf : Bool) (rd ra : Reg) (imm : BitVec 11) (s : State) : Outcome :=
  iRow i .sub sf rd ra imm (fun a => subAlu a (simm imm) false) s

/-- ANDI (R238, R260). -/
def execAndi (i : Issue) (sf : Bool) (rd ra : Reg) (imm : BitVec 11) (s : State) : Outcome :=
  iRow i .and sf rd ra imm (fun a => logicAlu (a &&& uimm imm)) s

/-- ORI (R238, R260). -/
def execOri (i : Issue) (sf : Bool) (rd ra : Reg) (imm : BitVec 11) (s : State) : Outcome :=
  iRow i .or sf rd ra imm (fun a => logicAlu (a ||| uimm imm)) s

/-- XORI (R238, R260). -/
def execXori (i : Issue) (sf : Bool) (rd ra : Reg) (imm : BitVec 11) (s : State) : Outcome :=
  iRow i .xor sf rd ra imm (fun a => logicAlu (a ^^^ uimm imm)) s

/-- LSLI (R238, R260). -/
def execLsli (i : Issue) (sf : Bool) (rd ra : Reg) (imm : BitVec 11) (s : State) : Outcome :=
  iRow i .lsl sf rd ra imm (fun a => lslAlu a (shimm imm)) s

/-- LSRI (R238, R260). -/
def execLsri (i : Issue) (sf : Bool) (rd ra : Reg) (imm : BitVec 11) (s : State) : Outcome :=
  iRow i .lsr sf rd ra imm (fun a => lsrAlu a (shimm imm)) s

/-- ASRI (R238, R260). -/
def execAsri (i : Issue) (sf : Bool) (rd ra : Reg) (imm : BitVec 11) (s : State) : Outcome :=
  iRow i .asr sf rd ra imm (fun a => asrAlu a (shimm imm)) s

/-- RORI (R238, R260). -/
def execRori (i : Issue) (sf : Bool) (rd ra : Reg) (imm : BitVec 11) (s : State) : Outcome :=
  iRow i .ror sf rd ra imm (fun a => rorAlu a (shimm imm)) s

/-- CMPI (R239). -/
def execCmpi (i : Issue) (ra : Reg) (imm : BitVec 11) (s : State) : Outcome :=
  coreRow i (.i .cmp true 0 ra imm) (fun c => wrFlags (subAlu (gr c ra) (simm imm) false) c) s

/-- TSTI (R239). -/
def execTsti (i : Issue) (ra : Reg) (imm : BitVec 11) (s : State) : Outcome :=
  coreRow i (.i .tst true 0 ra imm) (fun c => wrFlags (logicAlu (gr c ra &&& uimm imm)) c) s

/-! ### W format -/

/-- MOVI (R260). -/
def execMovi (i : Issue) (rd : Reg) (imm : BitVec 16) (s : State) : Outcome :=
  coreRow i (.w .movi rd imm) (setG rd (imm.setWidth 32)) s

/-- MOVN (R260). -/
def execMovn (i : Issue) (rd : Reg) (imm : BitVec 16) (s : State) : Outcome :=
  coreRow i (.w .movn rd imm) (setG rd (~~~(imm.setWidth 32))) s

/-- MOVHI (R260): the low half is kept. -/
def execMovhi (i : Issue) (rd : Reg) (imm : BitVec 16) (s : State) : Outcome :=
  coreRow i (.w .movhi rd imm) (fun c => setG rd (imm ++ (gr c rd).extractLsb' 0 16) c) s

end Sys2Proof.Machine
end

