-- ==== Sys2Proof/Machine/Calendar.lean ====
section
/-! DEFINITION. The updates of the calendar and the alarm they fire (spec/02_frames_turns_and_time.md R60–R63). -/

namespace Sys2Proof.Machine

/-- The calendar's update at a crystal cycle with no step pending (R60): 2 pips, or 3 or 1 by the threshold. -/
def calCycle (c : CalSt) (trim : Int) : CalSt :=
  let a := c.acc + 2 * trim
  if 10000000 ≤ a then { c with val := calMask (c.val + 3), acc := a - 10000000 }
  else if a ≤ -10000000 then { c with val := calMask (c.val + 1), acc := a + 10000000 }
  else { c with val := calMask (c.val + 2), acc := a }

/-- The update at a crystal cycle that takes a step (R61): the set value, the accumulator without a threshold. -/
def calStepped (c : CalSt) (trim : Int) (v : Nat) : CalSt :=
  { c with val := calMask v, acc := c.acc + 2 * trim, step := none, stepTag := none }

/-- The calendar after its next crystal cycle. -/
def calNext (s : State) : CalSt :=
  match s.cal.step with
  | some v => calStepped s.cal (calTrim s) v
  | none => calCycle s.cal (calTrim s)

/-- The alarm fires at this update (R62, R396, R397): ALARM_FIRED, ALARM_EN cleared, and the sentry's alarm entry. Outside RUN
an alarm that the sentry watches is a wake event and raises no source (R409). -/
def alarmFire (s : State) : State :=
  let s := mark fAlarmEn (setF fAlarmEn 0 (flag fAlarmFired s))
  if isSet s (bit 0x47000840 0) then
    let s := flag (fSentryHit 16) s
    if chipRun s then occurCp 6 s else wakeEvent 3 0 s
  else occurCp 6 s

/-- An armed alarm fires at the first update after which the calendar is at its value or past it (R62). -/
def alarmCheck (s : State) : State :=
  if isSet s fAlarmEn && decide (calAlarmVal s ≤ s.cal.val) then alarmFire s else s

/-- What a step's record and answer carry (R61): the old value, the new value and the first frame with it. -/
def stepBytes (old v f : Nat) : List Byte :=
  le 6 (old / 65536) ++ le 2 (old % 65536) ++ le 6 (v / 65536) ++ le 2 (v % 65536) ++ le 8 f

/-- One crystal cycle (R60–R62): the calendar's advance, or the step that waits for the cycle; then the alarm. -/
def calUpdate (s : State) : State :=
  let old := s.cal.val
  match s.cal.step with
  | some v =>
    let s := setF fCalValid 1 (setF fStepPending 0 (updCal (fun _ => calNext s) s))
    let b := stepBytes old v (frameNo s + 1)
    alarmCheck (admDone 0x53 0 0 0 b (occurCp 6 (jTime 0 b s)))
  | none => alarmCheck (updCal (fun _ => calNext s) s)

/-- CAL_CYCLE (R60): one crystal cycle with no step pending. The calendar stands still while OSC_FAIL is 1 (R63). -/
def execCalCycle (s : State) : Outcome := done (if isSet s fOscFail || s.cal.step.isSome then s else calUpdate s)

/-- CAL_STEP_APPLY (R61): the crystal cycle that takes the set value. -/
def execCalStepApply (s : State) : Outcome := done (if isSet s fOscFail || s.cal.step.isNone then s else calUpdate s)

/-- ALARM_FIRE (R62): the crystal cycle whose update reaches the armed value. -/
def execAlarmFire (s : State) : Outcome :=
  done (if !isSet s fOscFail && isSet s fAlarmEn && decide (calAlarmVal s ≤ (calNext s).val) then calUpdate s else s)

end Sys2Proof.Machine
end

