-- ==== Sys2Proof/Machine/Control.lean ====
section
/-! DEFINITION. Branches, system instructions, repeat prefixes and the hardware loop (spec/09_instruction_set.md
R248–R259), interrupt delivery and the line buffer (spec/10_execution_and_exceptions.md R267, R275–R285). -/

namespace Sys2Proof.Machine

/-! ### Branches and jumps (R248, R249) -/

/-- B: to the branch's address + 4 × off24. -/
def brTarget (c : Ctx) (off : BitVec 24) : Word := c.pc + (off.signExtend 32 <<< 2)

/-- B (R248). -/
def execB (i : Issue) (off : BitVec 24) (s : State) : Outcome :=
  issue i (.br false off) (fun c _ => .jump c (brTarget c off)) s

/-- BL (R249): the link value is the branch's address + 8. -/
def execBl (i : Issue) (off : BitVec 24) (s : State) : Outcome :=
  issue i (.br true off) (fun c _ => .jump (setG 15 (c.pc + 8) c) (brTarget c off)) s

/-- A jump to a register's value (R248): it raises ALIGN unless the value is a multiple of 4. -/
def jumpTo (t : Word) (c : Ctx) : Result := if t.toNat % 4 ≠ 0 then .trap 3 0 t id else .jump c t

/-- JR (R248). -/
def execJr (i : Issue) (ra : Reg) (s : State) : Outcome :=
  issue i (.jr ra) (fun c _ => jumpTo (gr c ra) c) s

/-- JLR (R249). -/
def execJlr (i : Issue) (rd ra : Reg) (s : State) : Outcome :=
  issue i (.jlr rd ra) (fun c _ => jumpTo (gr c ra) (setG rd (c.pc + 8) c)) s

/-! ### System instructions -/

/-- NOP (R260), and every word that raises ILLEGAL by its encoding (R234): `bits` are the word's bits [27:0]. A word of
another instruction is that instruction's command. -/
def execNop (i : Issue) (bits : BitVec 28) (s : State) : Outcome :=
  match decodeWord (i.cond ++ bits) with
  | some (_, .nop) => issue i .nop (fun c _ => .fin c id) s
  | some (_, _) => done s
  | none =>
    let c := (core s (runIx s i.core)).ctx
    done (if !canIssue s i.core || c.unit.isSome || c.parked then s
          else match fetchTrap i c false with
            | some (cause, bad) => fetchFail i .nop cause bad (startIssue i 1 none s)
            | none => s)

/-- MFS (R231). -/
def execMfs (i : Issue) (rd : Reg) (spr : BitVec 4) (s : State) : Outcome :=
  issue i (.mfs rd spr) (fun c s =>
    if sprReadPriv spr && !c.mode.getLsbD 0 then .trap 5 0 0 id
    else .fin (setG rd (sprRead s i.core c spr) c) id) s

/-- MTS (R231–R233). -/
def execMts (i : Issue) (spr : BitVec 4) (ra : Reg) (s : State) : Outcome :=
  issue i (.mts spr ra) (fun c _ =>
    if sprWritePriv spr && !c.mode.getLsbD 0 then .trap 5 0 0 id else .fin (sprWrite spr (gr c ra) c) id) s

/-- What RETE restores of the status (R275). -/
def reteCtx (c : Ctx) : Ctx := { c with psw := c.epsw &&& 0xF00001E0, mode := BitVec.ofNat 32 (bitsOf c.epsw 4 4) }

/-- RETE (R275). -/
def execRete (i : Issue) (s : State) : Outcome :=
  issue i .rete (fun c _ => if c.mode.getLsbD 0 then .place true (reteCtx c) c.epc c.enpc else .trap 5 0 0 id) s

/-- The line that holds an address. -/
def lineOf (a : Word) : Word := BitVec.ofNat 32 (a.toNat / 32 * 32)

/-- The entry under an index names a branch word in the line (R268). -/
def btbInLine (a : Word) (p : Nat × BtbEntry) : Bool := decide ((p.2.tag * 256 + 4 * p.1) / 32 = a.toNat / 32)

/-- FLI's effect (R259, R268, R274): the line leaves the line buffer; on a lane core the cluster's branch-target buffers
lose its entries; the issuer's vector line is loaded again where it is this line. -/
def flushLine (k : CoreId) (a : Word) (s : State) : State :=
  if isThread k || decide (0x01000000 ≤ a.toNat) then s
  else
    let n := coreCl k
    let s := updClus n (fun x => { x with lines := x.lines.filter (fun l => l.1 ≠ lineOf a) }) s
    let s := if isLane k then
        each (List.range 4) (fun x => updCore (16 * n + 12 + x) (fun y => { y with btb := y.btb.filter (fun p => !btbInLine a p) })) s
      else s
    let i := runIx s k
    if ((vbase s i).toNat + 0x40) / 32 = a.toNat / 32 then
      updCore i (fun x => { x with vline := readBytes s ((vbase s i).toNat + 0x40) 32 }) s
    else s

/-- FLI (R259). -/
def execFli (i : Issue) (ra : Reg) (s : State) : Outcome :=
  issue i (.fli ra) (fun c _ => .fin c (flushLine i.core (gr c ra))) s

/-- FENCE (R260): it holds issue while the fabric holds a store of the core in a handover (R34). A write in the side-effect
buffer has left the core, and R357 performs it at a checkpoint that only a later word of the core takes (log entry 93). -/
def execFence (i : Issue) (s : State) : Outcome :=
  issue i .fence (fun c s =>
    if (List.range 16).any (fun n => (clus s n).held.any (fun h => !h.read && h.core = coreIx i.core)) then .held else .fin c id) s

/-- WAIT (R285): supervisor only; it completes where a request is presented, and otherwise issue stops. -/
def execWait (i : Issue) (s : State) : Outcome :=
  issue i .wait (fun c s =>
    if !c.mode.getLsbD 0 then .trap 5 0 0 id
    else .fin c (if (presented s i.core).isSome then id
                 else updCore (runIx s i.core) (fun x => { x with ctx := { x.ctx with waiting := true } }))) s

/-- SVC (R270, R273). -/
def execSvc (i : Issue) (imm : BitVec 8) (s : State) : Outcome :=
  issue i (.svc imm) (fun _ _ => .trap 8 imm.toNat 0 id) s

/-! ### Repeat prefixes (R217, R251–R253) -/

/-- The word behind the prefix may be repeated with this count register (R253). -/
def repOk (rc : Reg) (next : Word) : Bool :=
  match decodeWord next with
  | some (_, y) => y.repeatable && !y.writes.contains rc
  | none => false

/-- Addresses whose compare parks a thread (R217): its cluster's locks and its own signal registers. -/
def parkAddr (n a : Nat) : Bool :=
  decide (winK n 0x400 ≤ a ∧ a < winK n 0x500 ∧ a % 4 = 0) || decide (winK n 0x600 ≤ a ∧ a ≤ winK n 0x610 ∧ a % 4 = 0)

/-- The unit parks its thread (R217). -/
def parks (k : CoreId) (c : Ctx) (next : Word) : Bool :=
  isThread k && (match decodeWord next with
    | some (_, .cmpx _ _ rb off) => parkAddr (coreCl k) (memAt c rb off).toNat
    | _ => false)

/-- Begin the unit: the prefix's condition is tested once; a count of 0 performs no iteration (R251). A restored unit
that had begun goes on (R286). -/
def repBegin (i : Issue) (l : Bool) (rc : Reg) (next : Word) (s : State) : State :=
  let k := runIx s i.core
  let c := (core s k).ctx
  let s := touchLine i.core c.pc s
  if (!c.begun && !condHolds c.psw i.cond) || gr c rc = 0 then unpark i.core (setCtx k (unitDone c) s)
  else
    let park := parks i.core c next
    let left := if !l then 0 else if c.begun then c.left else 64
    let s := setCtx k { c with unit := some { word := next, rc := rc, left := left }, begun := true, left := 0,
                               parked := park, entry := false } s
    if park then setF (fThrState (coreCl i.core) (coreIx i.core % 16)) 2 s else unpark i.core s

/-- REP and REPL issue (R251–R253): an illegal unit raises ILLEGAL at the prefix, and the prefix may not lie at LEND. Both
words are fetched. -/
def repRow (i : Issue) (l : Bool) (rc : Reg) (next : Word) (s : State) : Outcome :=
  let c := (core s (runIx s i.core)).ctx
  let legal := legalHere i.core c (.rep l rc) && decide (c.pc ≠ c.lend) && repOk rc next
  done (
    if !canIssue s i.core || c.unit.isSome then s
    else if fetchOk i.core c.pc.toNat && !fetchOk i.core (c.pc + 4).toNat then fetchFail i (.rep l rc) 6 (c.pc + 4) (startIssue i 1 none s)
    else match fetchTrap i c legal with
      | some (cause, bad) => fetchFail i (.rep l rc) cause bad (startIssue i 1 none s)
      | none => repBegin i l rc next (startIssue i 1 none s))

/-- REP (R251). -/
def execRep (i : Issue) (rc : Reg) (next : Word) (s : State) : Outcome := repRow i false rc next s

/-- REPL (R252). -/
def execRepl (i : Issue) (rc : Reg) (next : Word) (s : State) : Outcome := repRow i true rc next s

/-! ### The hardware loop (R257) -/

/-- LOOP (R257). -/
def execLoop (i : Issue) (rc : Reg) (off : BitVec 12) (s : State) : Outcome :=
  issue i (.loop rc off) (fun c _ =>
    let lend := c.pc + (off.setWidth 32 <<< 2)
    let c' := { c with lstart := c.pc + 4, lend := lend, lcount := gr c rc }
    if gr c rc = 0 then .place false c' (lend + 4) (lend + 8) else .fin c' id) s

/-! ### Interrupts (R281–R285) -/

/-- The point is a recognition point (R277, R281): not between a branch and its slot, unless the slot holds a multiply
or divide; not within the first 64 iterations of a REPL unit; not between the words of a pair (R266). -/
def recognition (s : State) (k : CoreId) (c : Ctx) : Bool :=
  let next := decodeWord (BitVec.ofNat 32 (readN s c.pc.toNat 4))
  unitLeft c = 0 &&
  (!c.slot || (match next with
    | some (_, x) => x.isLong
    | none => false)) &&
  !(isLane k && (match next with
    | some (cond, x) => second (core s (runIx s k)) cond x
    | none => false))

/-- The vector of an interrupt (R273). -/
def intVector (s : State) (k : CoreId) : Word :=
  match k with
  | .thread n t => BitVec.ofNat 32 (sliceBase n.val t.val + bitsOf (reg s (winK n.val (0x208 + 0x20 * t.val))) 15 0)
  | .lane _ _ | .cp => vbase s (runIx s k) + 0x40

/-- Entry of an interrupt (R272, R276): the saved registers, and CORE_ECAUSE and CORE_EBADADDR off the barrel. -/
def intEntry (k : CoreId) (s : State) : State :=
  let i := runIx s k
  let c := (core s i).ctx
  let ec := (if c.slot then 0x10000 else 0) + (if bitsOf c.mode 0 0 = 1 then 0x20000 else 0)
  let vec := intVector s k
  let s := if isThread k then s else setReg (privK i 0x804) (BitVec.ofNat 32 ec) (setReg (privK i 0x808) 0 s)
  setCtx i (ctxEntry c c.pc (enpcOf c) vec) s

/-- The first turn at which a request can be visible (R281): the next one, for a source that became pending in this. -/
def visibleFrom (s : State) (n src : Nat) : Nat :=
  let f := fPend n src
  if bitsOf (hotBits s f.key) f.hi f.lo = 1 then now s + 1 else now s

/-- The turn of a thread's recognition point (R281): its next turn while it counts a multiply or divide, else the turn at
which its next word would issue. -/
def recogTurn (s : State) (n t src : Nat) : Option Nat :=
  let f := visibleFrom s n src
  match nextOwn s n t f, ownAfter s n t (core s (16 * n + t)).owed (core s (16 * n + t)).issueAt with
  | some u, some v => some (if (longLast s n t).elim false (fun w => decide (u ≤ w)) then u else if v < f then u else v)
  | _, _ => none

/-- The entry of a thread takes 4 of its turns (R282), from its recognition point; a multiply or divide is abandoned. -/
def threadRecog (k : CoreId) (src : Nat) (s : State) : State :=
  match k with
  | .thread n t => match recogTurn s n.val t.val src with
    | some u => updCore (16 * n.val + t.val) (fun x => { x with issueAt := u + 1, owed := 3, long := none })
        (longCut n.val t.val u (goTo u s))
    | none => s
  | .lane _ _ | .cp => s

/-- Delivery commits (R283): the entry begins and the controller pushes the priority; both happen. A failing first fetch
of the entry follows it (R280). -/
def deliver (k : CoreId) (lv src : Nat) (vecEcc : Bool) (s : State) : State :=
  let s := threadRecog k src s
  let s := unpark k (intEntry k (icCommit k lv src s))
  if vecEcc then
    (if isThread k then coreFail k 7 (reportEcc k 7 (core s (runIx s k)).ctx.pc s) else coreFail k 7 s)
  else s

/-- The core runs, or it waits (R285); a thread reaches a recognition point before the next tick and before a STOP takes
effect. -/
def canRecognise (s : State) (k : CoreId) (src : Nat) : Bool :=
  (match k with
   | .thread n t => match recogTurn s n.val t.val src with
     | some u => dueNow s u && (core s (16 * n.val + t.val)).stopAt.elim true (fun e => decide (u < e))
     | none => false
   | .lane _ _ | .cp => true) &&
  canRun (updCore (runIx s k) (fun x => { x with ctx := { x.ctx with waiting := false } }) s) k

/-- INTERRUPT_DELIVERY (R281, R283): a presented request is recognised where PSW.IE is 1. The copies of a pair compare
the entry (R356). -/
def execInterruptDelivery (k : CoreId) (agree vecEcc : Bool) (s : State) : Outcome :=
  let i := runIx s k
  let c := (core s i).ctx
  done (match presented s k with
    | some (lv, src) =>
      if canRecognise s k src && c.psw.getLsbD 6 && recognition s k c then
        (if compared s k && !agree then mismatch i 1 s else deliver k lv src vecEcc s)
      else s
    | none => s)

/-- WAIT_WAKE (R285): a presented request ends the wait; with IE = 1 it is recognised there, with IE = 0 issue goes on
and the request stays pending. -/
def execWaitWake (k : CoreId) (s : State) : Outcome :=
  let i := runIx s k
  let c := (core s i).ctx
  done (match presented s k with
    | some (lv, src) =>
      if c.waiting && canRecognise s k src then
        (if c.psw.getLsbD 6 then deliver k lv src false s else setCtx i { c with waiting := false } s)
      else s
    | none => s)

/-! ### The line buffer (R267, R269) -/

/-- LINE_FILL (R267, R269): the missing line of the code store replaces the least recently used of 8. -/
def execLineFill (k : CoreId) (a : Word) (wrongPath : Bool) (s : State) : Outcome :=
  let n := coreCl k
  done (
    if isThread k || decide (0x01000000 ≤ a.toNat) || (clus s n).lines.any (fun l => l.1 = lineOf a) then s
    else
      let s := if isLane k then
          (let r := winK n (if wrongPath then 0x124 else 0x120)
           setReg r (reg s r + 1) s)
        else s
      updClus n (fun x => { x with lines := ((lineOf a, readBytes s (lineOf a).toNat 32) :: x.lines).take 8 }) s)

end Sys2Proof.Machine
end

