-- ==== Sys2Proof/Machine/DrnTraffic.lean ====
section
/-! DEFINITION. Traffic that a Draren link carries for the host and between chips (spec/13_draren_chain_and_groups.md
R341–R343): MMIO, HOSTDMA, QUEUE and ADMIN frames. Their payload layouts are the model's (log entry 33). -/

namespace Sys2Proof.Machine

/-! ### Admission of a member (R339) -/

/-- The state that a command leaves. -/
def Adm.state : Adm → State
  | .ans _ _ _ s => s
  | .wait _ s => s

/-- The configuration entries in a string: code, length and data of each (log entry 33). The fuel is its length. -/
def confEntries : Nat → List Byte → List (Nat × List Byte)
  | 0, _ => []
  | n + 1, b => if b.length < 3 then [] else (imgB b 0, slice b 3 (leAt b 1 2)) :: confEntries n (b.drop (3 + leAt b 1 2))

/-- A member takes a configuration entry: what the administration command of that code does to it, or code 0x05, the record of
a device. An image is staged and verified under R129 and made active; a port whose table is not there stays undefined. -/
def confTake (e : Nat × List Byte) (s : State) : State :=
  let b := e.2
  match e.1 with
  | 0x05 =>
    let t := imgB b 0
    let d := imgB b 1 % 16
    if bindOk s t (padTo 32 (b.drop 2)) then bindNow t d (padTo 32 (b.drop 2)) s else s
  | 0x40 => (tenantConfig b s).state
  | 0x42 => (portDefine b s).state
  | 0x43 => (withPort portRemove b s).state
  | 0x44 => (withPort (portGrant b) b s).state
  | 0x4B => updGroup (fun g => { g with lastImage := g.lastImage ++ b }) s
  | 0x4C =>
    let img := s.group.lastImage
    let s := updGroup (fun g => { g with lastImage := [] }) s
    let x : ACmd := { tag := 0, payload := [], hostBytes := some img }
    if (namedImg s b).isSome then s
    else (aptActivate b (aptStage x (le 8 0 ++ le 4 img.length) s).state).state
  | 0x4F => (withPort (portApt b) b s).state
  | 0x55 => (lcConfig b s).state
  | 0x57 => (lcAttach b s).state
  | _ => s

/-- Every state block that a member held is discarded (R338, R339): tenants, their devices, ports, settlements and the
attachments of load channels. -/
def dropBlocks (s : State) : State :=
  let s := each tenantIds (fun t s => if (ten s t).configured then tenantDisable t s else s) s
  let s := each (portIds s) (fun p s => portDrop p (settleDiscard p s)) s
  each (List.range 128) (fun c s => if lcAttached s c then lcSyncAttach c (setF (fLcOwnCp c) 1 s) else s) s

/-- The head's SR-IOV settings at a member (R341, R421): its own tenants are those of its virtual functions. -/
def takeVfs (en num : Nat) (s : State) : State :=
  let i := getF s fGrpIndex
  let s := updHost (fun h => { h with vfEnable := decide (en = 1), numVfs := min 256 (num - 256 * i) }) s
  let s := each (tenantIds.filter (fun t => getF s (fTState t) ≠ 0 && !vfOn s t)) (fun t s => setF (fTState t) 0 (abandon t s)) s
  each (tenantIds.filter (fun t => getF s (fTState t) = 0)) tenantEnable s

/-- Admission at tick A (R339, R338, R65): older state is discarded, FRAME_COUNT and the frame length are the head's, the
configuration sent is taken, its tenants start as after a tenant reset, every port starts ABSENT, and the children are
addressed. -/
def admitNow (a : Nat) (s : State) : State :=
  let b := s.group.admitConf
  let s := dropBlocks s
  let s := each (List.range 1024) (padUnsafe 2) s
  let len := leAt b 12 2
  let s := if len = 0 then s else setF fLenActive len (updTime (fun x => { x with cur := { x.cur with rounds := len } }) s)
  let s := updTime (fun x => { x with cur := { x.cur with frame := a } }) s
  let s := setF fGrpAdmitted 1 (setF fGroupLock 1 (setF fGrpAdmit (leAt b 0 4) (setF fOvrLimit (leAt b 14 1) s)))
  let s := streamStart (jTime 4 (le 8 a) s)
  let s := takeVfs (imgB b 15) (leAt b 16 2) s
  let s := each (confEntries b.length (b.drop 18)) confTake s
  let s := each (tenantIds.filter (fun t => (ten s t).configured)) (fun t s =>
    resetComplete t (setF (fGen t) (getF s (fGen t) + 1) (setF (fTState t) 2 s))) s
  let s := updGroup (fun g => { g with admitTick := none, lastHead := g.headSerial }) s
  let s := each [1, 2] (fun p s => if drnUp s p && mayAddress s then sendAddress p s else s) s
  capsUpdate s

/-- ADMISSION_TICK (R339): the member's tick at which the head's frame count reaches A. -/
def execAdmissionTick (s : State) : Outcome :=
  match s.group.admitTick, s.group.tickFrame with
  | some a, some k => done (if atTick s && decide (a ≤ k + 1) then admitNow a s else s)
  | _, _ => done s

/-! ### What the links carry (R342, R343) -/

/-- MMIO: byte 0 is 0 write, 1 read, 2 completion; then the page, the offset and a word. A member applies the write as
the host's, and answers a read with a completion; one that reaches the head ends the host's access. 3 tells a member the SR-IOV
settings of the head's endpoint. -/
def takeMmio (b : List Byte) (s : State) : State :=
  let k := imgB b 0
  let p := leAt b 1 2
  let o := leAt b 3 2
  let v := wordAt b 5
  let back := fun (w : Word) (s : State) => drnRoute 6 headSeat (2 :: le 2 p ++ le 2 o ++ le 4 w.toNat) s
  if k = 3 then (if isMember s then takeVfs (imgB b 1) (leAt b 2 2) s else s)
  else if 256 < p ∨ o % 4 ≠ 0 ∨ 2 ≤ k then s
  else if k = 0 then
    (pageWrite .host p o (pageDo .host p o v) (if o = 0x14 then bellInDormant p v else id) s)
  else back (hostView s p o) s

/-- MMIO (R342). -/
def execMmio (f : Frame) (s : State) : Outcome := done (drnRx 6 f (takeMmio f.payload) s)

/-- HOSTDMA: byte 0 is 0 write, 1 read, 2 completion, 3 flush marker, 4 MSI-X message; then the member's seat. The head's
endpoint performs the member's request; it answers a read with the bytes the host gives (a free value, log entry 6) and
returns a flush marker, which tells the member that its writes before it are transmitted (R342). The bytes of a completion reach
the member's transfer with its next TRANSFER_READ_CHUNK. -/
def takeHostDma (b : List Byte) (s : State) : State :=
  let seat := leAt b 1 2
  if !isHead s then
    (if imgB b 0 = 3 then match xfer s (leAt b 3 2) with
      | some x => setXfer (leAt b 3 2) { x with flush := 2 } s
      | none => s
     else s)
  else match imgB b 0 with
    | 0 => updGroup (fun g => { g with hostWrites := b.drop 3 :: g.hostWrites }) s
    | 1 => drnRoute 7 seat (2 :: le 2 seat ++ padTo (leAt b 11 2) (Config.freeBytes (fresh s))) (useFresh s)
    | 3 => drnRoute 7 seat b s
    | 4 => updHost (fun h => { h with msix := (leAt b 3 2, leAt b 5 2) :: h.msix }) s
    | _ => s

/-- HOSTDMA (R342). -/
def execHostdma (f : Frame) (s : State) : Outcome := done (drnRx 7 f (takeHostDma f.payload) s)

/-- A device of another chip's tenant is bound to a port of this one, or not any more (KIND 5 and 6, log entry 33). -/
def farBind (b : List Byte) (s : State) : State :=
  let p := portOf s (leAt b 16 2)
  let t := farTenant (leAt b 18 2) (leAt b 2 2)
  let ix := 16 * t + imgB b 1 % 16
  let x := port s p
  let s := updGroup (fun g => { g with farGen := Tab.put g.farGen t (leAt b 4 2) }) s
  if isFar p || !x.defined then s
  else if imgB b 0 = 5 then (if x.bound.isNone && x.grant = some t then updPort p (fun x => { x with bound := some ix }) s else s)
  else if x.bound = some ix then updPort p (fun x => { x with bound := none }) s else s

/-- A report of a one-shot sent to another chip, its discard or its full launch: nothing is owed for it any more. -/
def farReported (b : List Byte) (s : State) : State :=
  let t := leAt b 2 2 % 256
  let d := imgB b 1 % 16
  let tag := leAt b 28 2
  updGroup (fun g => { g with farOut := g.farOut.filter (fun q => !(q.2.tenant = t && q.2.dev = d && q.2.tag = some tag)) }) s

/-- QUEUE (R343): an entry is handed at the tick its header's FRAME names, or at the next tick where that is past. The report
of a full launch (KIND 4 in this layout) is taken at once. -/
def takeQueue (b : List Byte) (s : State) : State :=
  let k := imgB b 0
  let s := if k = 3 ∨ k = 4 then farReported b s else s
  let s := if k ≤ 3 ∧ leAt b 8 8 ≤ frameNo s then jTenant 5 (leAt b 2 2) (frameNo s) s else s
  if k ≤ 3 then updGroup (fun g => { g with inQueue := g.inQueue ++ [(max (leAt b 8 8) (frameNo s + 1), b)] }) s
  else if k = 5 ∨ k = 6 then farBind b s
  else s

/-- QUEUE (R343). -/
def execQueue (f : Frame) (s : State) : Outcome := done (drnRx 8 f (takeQueue f.payload) s)

/-- The head keeps a configuration command that another chip has carried out (R339). -/
def confKeep (ok : Bool) (s : State) : State :=
  match s.group.sentConf with
  | some c => updGroup (fun g => { g with sentConf := none, conf := if ok then g.conf ++ [c] else g.conf }) s
  | none => s

/-- ADMIN: byte 0 is 0 a forwarded command, 1 its response; then the slot. A command enters the administration ring of
this chip, or is answered NO_RESOURCE where the ring is full; a response completes the command that waits for it. -/
def takeAdmin (b : List Byte) (s : State) : State :=
  let sl := padTo 64 (b.drop 1)
  if imgB b 0 = 0 then
    if inFull s 256 then drnRoute 9 headSeat (1 :: mkSlot (slotOp sl) 1 (slotTag sl) 0xFF 0 4 0 []) s
    else
      let t := getF s (fInTail 256)
      let s := occurCp 0 (jAdmin sl (setF (fInTail 256) (t + 1) (ringPut 256 0x400 t sl s)))
      admSkip 16 (updGroup (fun g => { g with fwd := g.fwd ++ [(t, false)] }) s)
  else admDone (slotOp sl) fwdKey (imgB sl 6) (imgB sl 7) (slotPayload sl) (confKeep (decide (imgB sl 6 = 0)) s)

/-- ADMIN (R341). -/
def execDrnAdmin (f : Frame) (s : State) : Outcome := done (drnRx 9 f (takeAdmin f.payload) s)

end Sys2Proof.Machine
end

