-- ==== Sys2Proof/Machine/MemOps.lean ====
section
/-! DEFINITION. Memory access instructions (spec/09_instruction_set.md R244–R247) and the block operations (R255,
R256). -/

namespace Sys2Proof.Machine

/-! ### What an access meets (R214, R246, R271) -/

/-- Lock words: an access that is not of an aligned word raises ALIGN (R214, R326). -/
def lockAddr (a : Nat) : Bool :=
  match placeOf (a / 4 * 4) with
  | .lock _ _ | .chipLock _ => true
  | _ => false

/-- The first part of an access that is refused, with its cause and bad address. -/
def partTrap (a size : Nat) (cause : Nat → Option Nat) : Option (Nat × Word) :=
  (accParts a size).findSome? (fun p => (cause (p.1 / 4 * 4)).map (fun k => (k, BitVec.ofNat 32 (partAddr p))))

/-- The exception an access raises before it is performed: PRIV, then ALIGN, then BUS (R271). `aligned`: the instruction
takes aligned words only. -/
def accTrap (aligned : Bool) (a size : Nat) (cause : Nat → Option Nat) : Option (Nat × Word) :=
  match partTrap a size cause with
  | some (5, _) => some (5, 0)
  | f => if (decide (a % size ≠ 0) && (aligned || regAddr a)) || (lockAddr a && decide (a % 4 ≠ 0 ∨ size ≠ 4))
         then some (3, BitVec.ofNat 32 a) else f

/-- The exception a read raises. -/
def readTrap (s : State) (k : CoreId) (aligned : Bool) (a size : Nat) : Option (Nat × Word) :=
  accTrap aligned a size (loadCause s k)

/-- The word a write of `size` bytes gives a register. -/
def storeWord (s : State) (k : CoreId) (a size : Nat) (d : Word) : Word := if memAddr a then d else mergeWord s k a size d

/-- The exception a write raises. -/
def writeTrap (s : State) (k : CoreId) (a size : Nat) (d : Word) : Option (Nat × Word) :=
  accTrap false a size (fun w => storeCause s k w (storeWord s k a size d))

/-- The access is held while a handover of its window's cluster is under way (R34). -/
def heldAt (s : State) (a : Nat) : Bool :=
  decide (0x20000000 ≤ a ∧ a < 0x30000000) && inHandover s (a / 0x01000000 - 0x20)

/-- Which part of a split access meets the uncorrectable word: a free choice (log entry 6). -/
def eccPart (s : State) (a size : Nat) : Nat × Nat :=
  match accParts a size with
  | [p, q] => if Config.freeNat (fresh s) % 2 = 0 then p else q
  | _ => (a, size)

/-- The exception of an uncorrectable word of a read: memory only. -/
def readEcc (i : Issue) (s : State) (a size : Nat) : Option (Nat × Word) :=
  if i.eccData && memAddr a then some (7, BitVec.ofNat 32 (partAddr (eccPart s a size))) else none

/-! ### Reads and writes -/

/-- The number a read of `size` bytes gives. -/
def loadN (s : State) (k : CoreId) (a size : Nat) : Nat :=
  if memAddr a then readN s a size
  else (regValue s k (a / 4 * 4)).toNat / 2 ^ (8 * (a % 4)) % 2 ^ (8 * size)

/-- What the read does besides. -/
def loadFx (k : CoreId) (a : Nat) (s : State) : State := if memAddr a then s else readEffect k (a / 4 * 4) s

/-- One part of a store. -/
def storePart (k : CoreId) (a : Nat) (d : Word) (p : Nat × Nat) (s : State) : State :=
  coreWrite k p.1 p.2 (BitVec.ofNat 32 (d.toNat / 2 ^ (8 * (p.1 - a)) % 2 ^ (8 * p.2))) s

/-- A store is performed: its parts in order; a store to CL_CKPT is the checkpoint (R357). -/
def storeFx (k : CoreId) (a size : Nat) (d : Word) (s : State) : State :=
  let v := storeWord s k a size d
  let s := each (accParts a size) (storePart k a d) s
  if isCkptAddr (a / 4 * 4) && keepsCkpt k then takeCkpt (runIx s k) (some (bitsOf v 3 0)) s else s

/-- Room for a store's writes. -/
def storeRoom (k : CoreId) (a size : Nat) (s : State) : State := makeRoom k a (accParts a size).length s

/-- An uncorrectable word of a store: of a word that it writes only in part, or of a part of a split access. When the
second part meets it, the first is already performed (R246). -/
def writeEcc (i : Issue) (s : State) (a size : Nat) (d : Word) : Option Result :=
  if i.eccData && memAddr a && !(decide (size = 4 ∧ a % 4 = 0)) then
    let p := eccPart s a size
    let pre := if p.1 = a then useFresh else fun s => storePart i.core a d (a, p.1 - a) (storeRoom i.core a size (useFresh s))
    some (.trap 7 0 (BitVec.ofNat 32 (partAddr p)) pre)
  else none

/-- A read, and what follows it. -/
def reading (i : Issue) (s : State) (aligned : Bool) (a size : Nat) (k : Nat → Result) : Result :=
  if heldAt s a then .held
  else match readTrap s i.core aligned a size with
    | some (e, bad) => .trap e 0 bad id
    | none => match readEcc i s a size with
      | some (e, bad) => .trap e 0 bad useFresh
      | none => k (loadN s i.core a size)

/-- A write of `d`, and the context that follows it; `fx` happens before the write. -/
def writing (i : Issue) (s : State) (a size : Nat) (d : Word) (c : Ctx) (fx : State → State) : Result :=
  match writeTrap s i.core a size d with
  | some (e, bad) => .trap e 0 bad id
  | none => match writeEcc i s a size d with
    | some r => r
    | none => .store c (storeRoom i.core a size) (fun s => storeFx i.core a size d (fx s))

/-! ### Loads, stores and memory compares -/

/-- The value a load gives rd (R244). -/
def loadExt (sx : Bool) (size v : Nat) : Word :=
  if sx then (BitVec.ofNat (8 * size) v).signExtend 32 else BitVec.ofNat 32 v

/-- LD (R244–R246). -/
def execLd (i : Issue) (sz : BitVec 2) (sx : Bool) (rd ra : Reg) (off : BitVec 12) (s : State) : Outcome :=
  issue i (.ld sz sx rd ra off) (fun c s =>
    let a := (memAt c ra off).toNat
    reading i s false a (szBytes sz) (fun v => .fin (setG rd (loadExt sx (szBytes sz) v) c) (loadFx i.core a))) s

/-- ST (R244–R246). -/
def execSt (i : Issue) (sz : BitVec 2) (rd ra : Reg) (off : BitVec 12) (s : State) : Outcome :=
  issue i (.st sz rd ra off) (fun c s => writing i s (memAt c ra off).toNat (szBytes sz) (gr c rd) c id) s

/-- A memory compare (R247): one aligned word at rb + off. -/
def cmpRow (i : Issue) (t : Bool) (ra rb : Reg) (off : BitVec 12) (f : Word → Word → Alu) : State → Outcome :=
  issue i (.cmpx t ra rb off) (fun c s =>
    let a := (memAt c rb off).toNat
    reading i s true a 4 (fun v => .fin (wrFlags (f (gr c ra) (BitVec.ofNat 32 v)) c) (loadFx i.core a)))

/-- CMPM (R247). -/
def execCmpm (i : Issue) (ra rb : Reg) (off : BitVec 12) (s : State) : Outcome :=
  cmpRow i false ra rb off (fun x w => subAlu x w false) s

/-- TSTM (R247). -/
def execTstm (i : Issue) (ra rb : Reg) (off : BitVec 12) (s : State) : Outcome :=
  cmpRow i true ra rb off (fun x w => logicAlu (x &&& w)) s

/-! ### Block operations (R255, R256) -/

/-- The exception of an element that makes two accesses: PRIV before ALIGN before BUS, the first access before the
second (R271). -/
def firstTrap (x y : Option (Nat × Word)) : Option (Nat × Word) :=
  match x, y with
  | some (k, b), some (m, d) => if m = 5 ∧ k ≠ 5 ∨ (m = 3 ∧ k = 2) then some (m, d) else some (k, b)
  | some t, none => some t
  | none, o => o

/-- BCOPY (R255): the element at ra is stored at rd. -/
def execBcopy (i : Issue) (sz : BitVec 2) (rd ra : Reg) (s : State) : Outcome :=
  issue i (.blk .copy sz 0 rd ra 0) (fun c s =>
    let n := szBytes sz
    let src := (gr c ra).toNat
    let dst := (gr c rd).toNat
    let d := BitVec.ofNat 32 (loadN s i.core src n)
    if heldAt s src then .held
    else match firstTrap (readTrap s i.core false src n) (writeTrap s i.core dst n d) with
      | some (e, bad) => .trap e 0 bad id
      | none => match readEcc i s src n with
        | some (e, bad) => .trap e 0 bad useFresh
        | none => writing i s dst n d
            (setG ra (gr c ra + BitVec.ofNat 32 n) (setG rd (gr c rd + BitVec.ofNat 32 n) c)) (loadFx i.core src)) s

/-- BFILL (R255): the low bytes of rb are stored at rd. -/
def execBfill (i : Issue) (sz : BitVec 2) (rd rb : Reg) (s : State) : Outcome :=
  issue i (.blk .fill sz 0 rd 0 rb) (fun c s =>
    let n := szBytes sz
    writing i s (gr c rd).toNat n (gr c rb) (setG rd (gr c rd + BitVec.ofNat 32 n) c) id) s

/-- CRCB (R256): the byte at ra is folded into rd by kind k. -/
def execCrcb (i : Issue) (k : BitVec 4) (rd ra : Reg) (s : State) : Outcome :=
  issue i (.blk .crc 0 k rd ra 0) (fun c s =>
    let a := (gr c ra).toNat
    reading i s false a 1 (fun v =>
      .fin (setG ra (gr c ra + 1) (setG rd (crcElem k.toNat (gr c rd) (BitVec.ofNat 8 v)) c)) (loadFx i.core a))) s

/-- TSTEP (R255): one step of a state table of 256 bytes a state. -/
def execTstep (i : Issue) (rd ra rb : Reg) (s : State) : Outcome :=
  issue i (.blk .step 0 0 rd ra rb) (fun c s =>
    let a := (gr c ra).toNat
    reading i s false a 1 (fun v =>
      let t := (gr c rb + BitVec.ofNat 32 (256 * bitsOf (gr c rd) 7 0 + v)).toNat
      reading i s false t 1 (fun w =>
        let r := BitVec.ofNat 32 w
        .fin (setG ra (gr c ra + 1) (setG rd r
          { c with psw := pswSet 30 (r = 0) (pswSet 31 (r.getLsbD 7) c.psw) }))
          (fun s => loadFx i.core t (loadFx i.core a s))))) s

end Sys2Proof.Machine
end

