-- ==== Sys2Proof/Machine/Tick.lean ====
section
/-! DEFINITION. The tick (spec/02_frames_turns_and_time.md R44, R50–R59; spec/03 R76, R78, R88, R91; spec/12 R309, R310):
the next frame begins, ports become ACTIVE, outputs are released and hand-off sets handed. -/

namespace Sys2Proof.Machine

/-! ### The new frame (R44, R55, R59) -/

/-- The length in rounds of the frame that begins: a pending length whose tick has come, or the one in force. -/
def nextLen (s : State) : Nat :=
  match s.time.pendLen with
  | some (len, tick) => if tick ≤ frameNo s + 1 then len else s.time.cur.rounds
  | none => s.time.cur.rounds

/-- Turn 0 of the next frame: FRAME_COUNT advances, the calendar is latched, a pending length takes effect. -/
def newFrame (s : State) : State :=
  let len := nextLen s
  let due : Bool := s.time.pendLen.elim false (fun p => decide (p.2 ≤ frameNo s + 1))
  let r : FrameRec := { frame := frameNo s + 1, start := nextTick s, rounds := len, cal := s.cal.val, hold := isSet s fHold,
                        stale := reg s 0x45000074 &&& 3 ≠ 1 }
  let changed := decide (len ≠ s.time.cur.rounds)
  let s := updTime (fun x => { x with turn := max x.turn (nextTick s), past := x.cur :: x.past, cur := r,
                                      pendLen := if due then none else x.pendLen }) s
  let s := setF fLenActive len (if due then setF fLenPending 0 s else s)
  if changed then jFrameLen len (frameNo s) s else s

/-- A SETTLED port, one whose return is verified, and one that is resumed become ACTIVE (R78, R126, R468). -/
def activate (p : Nat) (s : State) : State :=
  let x := port s p
  if x.state = 2 ∨ x.toActive = true ∨ x.resumeReq = true then
    let t := now s
    portState p 3 (updPort p (fun x => { x with toActive := false, resumeReq := false, pollBase := some t, pollK := 0,
                                                missed := 0, lossAt := none }) s)
  else s

/-! ### Frame accounting (R51, R52, R54, R404, R405) -/

/-- A tenant that is not done when the tick falls has overrun. -/
def overran (s : State) (t : Nat) : Bool := tActive s t && !(ten s t).done

/-- DEGRADED is set by an increase of CONSEC from c to c' (R54): where CONSEC becomes equal to OVR_LIMIT, or passes a limit
that was changed since the last increase. -/
def degrades (s : State) (t c c' : Nat) : Bool :=
  let lim := getF s fOvrLimit
  decide (lim ≠ 0 ∧ c < c' ∧ (c' = lim ∨ (lim < c' ∧ (ten s t).limSeen ≠ lim)))

/-- TENANT_FRAME of an ACTIVE tenant (R54); `f` is the frame that ended. -/
def countFrame (f t : Nat) (s : State) : State :=
  if overran s t then
    let c := getF s (fConsec t)
    let s := setF (fLate t) 1 (addF (fConsec t) 1 (addF (fTotal t) 1 (occur (t / 16) 20 (jTenant 0 t f s))))
    let now1 := degrades s t c (getF s (fConsec t))
    let s := updTen t (fun x => { x with limSeen := getF s fOvrLimit }) s
    if now1 && getF s (fDegraded t) = 0 then ringBell t 3 (jTenant 1 t f (flag (fDegraded t) s)) else s
  else if tActive s t then setF (fConsec t) 0 (updTen t (fun x => { x with limSeen := getF s fOvrLimit }) s)
  else s

/-- Marks of the frame that ended that no release used count for no later frame (R51). -/
def clearMark (t : Nat) (s : State) : State :=
  if (ten s t).done then updTen t (fun x => { x with done := false }) s else s

/-- CL_FRAME_MARGIN of the frame that ended, with `turns` turns (R51). -/
def fMargin (n : Nat) : Fld := fld (winK n 0x104) 31 24
def fLastDone (n : Nat) : Fld := fld (winK n 0x104) 16 0

/-- The tenants of cluster n. -/
def clTenants (n : Nat) : List Nat := (List.range 16).map (fun i => 16 * n + i)

/-- Margin, its history for the governor, and the rail raise of an overrun. -/
def countCluster (turns n : Nat) (s : State) : State :=
  let ovr := (clTenants n).any (overran s)
  let last := if (clTenants n).any (fun t => (ten s t).hadWork) then (clus s n).lastDone else 0
  let m := if ovr then 0 else (turns - last) * 100 / turns
  let s := updClus n (fun c => { c with lastDone := 0 }) (setF (fLastDone n) last (setF (fMargin n) m s))
  if getF s (fPwr n) = 0 then
    let s := updPwrCl n (fun p => { p with hist := ((m, ovr) :: p.hist).take 128 }) s
    if ovr then railRaise n 5 s else s
  else s

/-! ### Release (R25, R28, R52, R53, R88) -/

/-- An output enters its port's transmit FIFO, or is discarded because the port is lost or bypassed (R88, R152); one of a
stale generation is abandoned (R92). -/
def enterPort (o : OutMsg) (s : State) : State :=
  let x := port s o.port
  if genOf s o.tenant ≠ o.gen then s
  else if !x.defined || x.bypassed || x.lossAt.isSome then
    match o.tag with
    | some g => sendItem o.tenant o.dev (now s) (portKey s o.port) (decide (x.group ≠ o.tenant / 16)) (.report g 0) s
    | none => s
  else enterFifo o s

/-- Timers opened in the frame start at its release tick (R111); a sequence's timeout starts at the release tick of the
first partner byte (R85). -/
def startTimers (t : Nat) (s : State) : State :=
  let e := fun us => now s + usTurns us
  let go := fun (x : Timer) => match x with
    | .start us => Timer.run (e us)
    | .off => .off
    | .run r => .run r
    | .expired => .expired
  each devIds (fun d s => updDev t d (fun x =>
    { x with pm := { x.pm with timers := x.pm.timers.map go }, tm := { x.tm with timers := x.tm.timers.map go },
             seq := x.seq.map (fun q => if q.sent && q.ends.isNone && q.timeoutUs ≠ 0 then { q with ends := some (e q.timeoutUs) } else q) }) s) s

/-- Load-channel commands of the tenant act at turn 24 of this frame (R162). -/
def releaseChans (t : Nat) (s : State) : State :=
  let e := now s + 24
  mapChans (fun y => y.map (fun q => (q.1, { q.2 with staged := q.2.staged.map (fun x =>
                                                        if x.due.isNone && x.tenant.elim false (fun g => g.1 = t) then { x with due := some e } else x) }))) s

/-- A crossing with its sending and its receiving cluster. -/
abbrev Cross := Nat × Nat × Crossing

/-- An output toward a port of another chip is released: it enters that port's FIFO two ticks later (R343). Where the chip
has dropped out it is only remembered, to be discarded at that tick (R348). -/
def sendAway (o : OutMsg) (s : State) : State :=
  let k := frameNo s + 2
  let s := updGroup (fun g => { g with farOut := g.farOut ++ [(k, o)] }) s
  if farIsLost s o.port then s
  else drnRoute 8 (portSeat o.port) ([1, BitVec.ofNat 8 o.dev] ++ le 2 o.tenant ++ le 2 o.gen ++ le 2 0 ++ le 8 k ++
    le 2 (o.port - 0x10000) ++ le 2 (ownSeat s) ++ le 3 (o.tag.elim 0 (fun g => g + 1)) ++ (o.bytes.map (fun w => le 2 w.toNat)).flatten) s

/-- Release what a done tenant staged, with what TXF_STAGE left unended for its ports (R227); the answer holds its outputs
toward remote ports. -/
def release (t : Nat) (s : State) : List Cross × State :=
  let s := each (tenantPorts s t) cutPart s
  let x := ten s t
  let late := isSet s (fLate t)
  let sls := outboxSlots s t (x.outbox.elim 0 (fun k => k))
  let sls := if late then sls.map (slotFlag 3) else sls
  let outs := x.outs.map (fun o => { o with late := o.late || late })
  let s := if late then setF (fLate t) 0 (jTenant 2 t (frameNo s) s) else s
  let e := now s
  let s := updTen t (fun x => { x with released := x.released ++ sls, relTurn := e, outs := [], outbox := none, done := false,
                                       hadWork := false }) s
  let s := releaseChans t (startTimers t (refill t s))
  let here := outs.filter (fun o => !isFar o.port)
  let far := here.filter (fun o => !o.near && (port s o.port).group ≠ t / 16)
  let near := here.filter (fun o => o.near || (port s o.port).group = t / 16)
  (far.map (fun o => (t / 16, (port s o.port).group, Crossing.output o)),
   each (outs.filter (fun o => isFar o.port)) sendAway (each near enterPort s))

/-- Release for every tenant that is done. -/
def releaseAll : List Nat → State → List Cross × State
  | [], s => ([], s)
  | t :: ts, s =>
    let r := release t s
    let q := releaseAll ts r.2
    (r.1 ++ q.1, q.2)

/-! ### Hand-off (R23, R24, R52, R53, R66, R295, R296) -/

/-- The inbox of R296. -/
def writeInbox (t : Nat) (sls : List Slot) (bells : Word) (s : State) : State :=
  writeBytes (inboxAt t) (le 4 sls.length ++ le 4 bells.toNat ++ le 8 (frameNo s) ++ List.replicate 48 0 ++
    (sls.map (padTo 64)).flatten) s

/-- Slots committed and not yet in a set that is held. -/
def newSlots (s : State) (t : Nat) : List Slot :=
  let h := getF s (fInHead t)
  let n := ringCount h (getF s (fInTail t))
  let k := ((ten s t).held.map (fun x => x.slots.length)).foldl (· + ·) 0
  (List.range (n - k)).map (fun i => ringGet s t 0x400 (h + k + i))

/-- A device has work that waits for a hand-off. -/
def devWaits (s : State) (t : Nat) : Bool :=
  devIds.any (fun d => !(dev s t d).carried.isEmpty || (dev s t d).reapply)

/-- The levels of a completed reset are due (R94). -/
def reapplyAll (t : Nat) (s : State) : State :=
  if (ten s t).cleared then
    each devIds (fun d s => if (dev s t d).bound then updDev t d (fun x => { x with reapply := true }) s else s)
      (updTen t (fun x => { x with cleared := false }) s)
  else s

/-- Hand a tenant its set, with every set held before; or hold the set of a tenant that overran. Items of a stale
generation are fenced (R92); what is handed to a tenant that is not served, or whose cluster goes dark at this tick, is
journaled as not presented (R66, R94, R401). -/
def handTenant (t : Nat) (late : Bool) (items : List HItem) (s : State) : State :=
  if tActive s t && !goesDark s (t / 16) then
    let gen := getF s (fGen t)
    let s := each (items.filter (fun h => h.gen ≠ gen)) (itemUnheard 0x10) s
    let items := items.filter (fun h => h.gen = gen)
    let sls := newSlots s t
    let f := frameNo s
    if late then
      if items.isEmpty && sls.isEmpty then s
      else updTen t (fun x => { x with held := x.held ++ [{ frame := f, items := items, slots := sls, bells := 0 }] }) s
    else
      let s := reapplyAll t s
      let b := takeBells t s
      let s := b.2
      let hs := (ten s t).held
      let all := (hs.map (fun h => h.slots)).flatten ++ sls
      let s := writeInbox t all b.1 (setF (fInHead t) (getF s (fInHead t) + all.length) s)
      let last : List HandSet :=
        if items.isEmpty && sls.isEmpty && b.1 = 0 && !devWaits s t then []
        else [{ frame := f, items := items, slots := sls, bells := b.1 }]
      updTen t (fun x => { x with handed := x.handed ++ hs ++ last, held := [] }) s
  else each items (itemUnheard 0x80) s

/-! ### Crossings between clusters and chips (R28, R309, R310, R343) -/

/-- Chunks of 64 bytes that an entry takes. -/
def chunks (c : Crossing) : Nat :=
  let n := match c with
    | .output o => 2 * o.bytes.length
    | .inItem _ h => match h.item with
      | .packet k => k.bytes.length
      | .port _ _ _ | .load _ _ _ | .report _ _ | .timer _ _ | .seqEnd => 16
  (16 + n + 63) / 64

/-- Data of an item or an output in a remote-port queue (log entry 41). -/
def crossData : Crossing → List Byte
  | .output o => (o.bytes.map (fun w => le 2 w.toNat)).flatten
  | .inItem _ h => match h.item with
    | .packet k => k.bytes.map (fun b => b.val)
    | .port p c a => le 2 p ++ [BitVec.ofNat 8 c] ++ le 8 a
    | .load c k a => le 2 c ++ [BitVec.ofNat 8 k] ++ le 8 a
    | .report tag sent => le 2 tag ++ le 2 sent
    | .timer _ _ | .seqEnd => []

/-- An entry of a remote-port queue (R309): its header, then its data. -/
def crossBytes (frame : Nat) (c : Crossing) : List Byte :=
  let data := crossData c
  let kd : Nat × Nat × Nat × Nat := match c with
    | .output o => (1, o.dev, o.tenant, o.gen)
    | .inItem t h => (match h.item with
        | .packet _ => 0
        | .port _ _ _ | .load _ _ _ | .timer _ _ | .seqEnd => 2
        | .report _ _ => 3, h.dev, t, h.gen)
  [BitVec.ofNat 8 kd.1, BitVec.ofNat 8 kd.2.1] ++ le 2 kd.2.2.1 ++ le 2 kd.2.2.2 ++ le 2 data.length ++ le 8 frame ++ data

/-- An entry that did not fit waits for the next tick (R310). -/
def delay (c : Cross) (s : State) : State :=
  let s := addF (fld (0x41000800 + 4 * c.1) 31 0) 1 s
  let e := match c.2.2 with
    | .output o => Crossing.output { o with late := true }
    | .inItem t h => .inItem t h
  mapDelayed (fun q => q ++ [(c.1, c.2.1, e)]) (jTenant 5 (crossTenant e) (frameNo s) s)

/-- Chunks used so far of each pair's queue; `none` once an entry did not fit. -/
abbrev Used := Tab (Option Nat)

/-- Send entries in order: each pair's queue holds 8 KiB, and what follows an entry that does not fit waits too. An entry sent is
written to the queue in the commons (R308, R309), the first of a tick at its beginning (log entry 41). -/
def sendCross : List Cross → Used → State → State
  | [], _, s => s
  | c :: cs, u, s =>
    let k := 16 * c.1 + c.2.1
    match Tab.getD u k (some 0) with
    | some n =>
      if n + chunks c.2.2 ≤ 128 then
        let f := frameNo s
        sendCross cs (Tab.put u k (some (n + chunks c.2.2)))
          (writeBytes (0x10600000 + 0x2000 * k + 64 * n) (crossBytes f c.2.2) (mapRemote (fun q => q ++ [(c.1, c.2.1, f, c.2.2)]) s))
      else sendCross cs (Tab.put u k none) (delay c s)
    | none => sendCross cs u (delay c s)

/-- Turn of this chip for a frame and a turn in it: the sender's frame begins with this chip's frame of that number (R65). -/
def turnAt (s : State) (f k : Nat) : Nat :=
  match (s.time.cur :: s.time.past).find? (fun r => r.frame = f) with
  | some r => r.start + k
  | none => now s

/-- An entry that another chip sent (layout: log entry 33), as an item of a tenant here. -/
def queueItem (s : State) (b : List Byte) : Option (Nat × HItem) :=
  let d := b.drop 16
  let p := portOf s (leAt d 0 2)
  let t := turnAt s (leAt d 2 8) (leAt d 10 2 + 65536 * imgB b 6)
  let x := d.drop 12
  let it : Option Item := match imgB b 0 with
    | 0 => some (.packet { port := p, pk := leAt x 0 2, base := leAt x 0 2, first := t, turn := t, held := [],
                           bytes := (x.drop 2).map (fun v => { val := v, ninth := false, err := false, stamp := t }) })
    | 2 => some (.port p (imgB x 0) (leAt x 1 8))
    | 3 => some (.report (leAt x 0 2) (leAt x 2 2))
    | _ => none
  it.map (fun i => (leAt b 2 2 % 256, { turn := t, key := portKey s p, dev := imgB b 1 % 16, remote := false,
                                        gen := leAt b 4 2, item := i }))

/-- KIND and data of an item for a tenant of another chip (R343): a packet, a port event, a discard report or the report of a
full launch. -/
def itemEntry (h : HItem) : Option (Nat × Nat × List Byte) :=
  match h.item with
  | .packet k => some (0, k.port, le 2 k.pk ++ k.bytes.map (fun b => b.val))
  | .port p c a => some (2, p, [BitVec.ofNat 8 c] ++ le 8 a)
  | .report tag sent => some (if 0x10000 ≤ sent then 4 else 3, 0, le 2 tag ++ le 2 sent)
  | .load _ _ _ | .timer _ _ | .seqEnd => none

/-- Send an item to the chip of its tenant: it is handed there two ticks later (R343). -/
def sendEntry (t : Nat) (h : HItem) (s : State) : State :=
  match itemEntry h with
  | none => s
  | some (kind, p, data) =>
    let st := stampAt s h.turn
    drnRoute 8 (tenantSeat t) ([BitVec.ofNat 8 kind, BitVec.ofNat 8 h.dev] ++ le 2 ((t - 0x10000) % 256) ++ le 2 h.gen ++
      [BitVec.ofNat 8 (st.turn / 65536), 0] ++ le 8 (frameNo s + 2) ++ le 2 (portNo s p) ++ le 8 st.frame ++ le 2 st.turn ++ data) s

/-- At a tick: outputs that enter a port of another chip now. One toward a chip that dropped out is discarded and reported
(R88, R348); a one-shot of the others stays until its launch or discard is reported. -/
def farEnter (s : State) : State :=
  let f := frameNo s
  let due := s.group.farOut.filter (fun q => decide (q.1 ≤ f) && farIsLost s q.2.port)
  let s := updGroup (fun g => { g with farOut := g.farOut.filter (fun q =>
                                         !(decide (q.1 ≤ f) && (q.2.tag.isNone || g.farLost.contains ((q.2.port - 0x10000) / 1024)))) }) s
  each due (fun q s => match q.2.tag with
    | some g => sendItem q.2.tenant q.2.dev (now s) (portKey s q.2.port) true (.report g 0) s
    | none => s) s

/-- 9-bit values of two bytes each. -/
def words9 : List Byte → List (BitVec 9)
  | a :: b :: bs => BitVec.ofNat 9 (a.toNat + 256 * b.toNat) :: words9 bs
  | _ => []

/-- Generation a is older than b (R92), of two 16-bit generations. -/
def genOlder (a b : Nat) : Bool := a ≠ b && decide ((b + 65536 - a) % 65536 < 32768)

/-- An output that another chip sent enters its port's FIFO, or is discarded and reported (R88, R343); one of an older
generation than the newest seen of its tenant is fenced (R92). -/
def queueOutput (b : List Byte) (s : State) : State :=
  let p := portOf s (leAt b 16 2)
  let t := farTenant (leAt b 18 2) (leAt b 2 2)
  let gen := leAt b 4 2
  let tag := leAt b 20 3
  if imgB b 0 ≠ 1 ∨ isFar p ∨ genOlder gen (genOf s t) then s
  else enterPort { port := p, tenant := t, dev := imgB b 1 % 16, gen := gen, tag := if tag = 0 then none else some (tag - 1),
                   bytes := words9 (b.drop 23), fin := true, near := true, late := decide (leAt b 8 8 < frameNo s) }
    (updGroup (fun g => { g with farGen := Tab.put g.farGen t gen }) s)

/-- Items that crossed and are handed now. -/
def crossItem : Crossing → List (Nat × HItem)
  | .inItem t h => [(t, h)]
  | .output _ => []

/-! ### Minor replacements (R132) -/

/-- The switch tick of a replacement: the new image is active, the old one is erased once no thread runs it, and the
command is answered. -/
def swapImage (j : Nat) (s : State) : State :=
  match Tab.find s.images j with
  | none => s
  | some im =>
    match im.swapAt with
    | none => s
    | some t =>
      if frameNo s < t then s
      else
        let id := aptId im.bytes
        let mj := aptMajor im.bytes
        let retire := fun (q : Nat × ImageSt) =>
          if q.2.active && aptId q.2.bytes = id && aptMajor q.2.bytes = mj then (q.1, { q.2 with active := false, old := true }) else q
        let s := mapImages (fun y => Tab.put (y.map retire) j { im with active := true, swapAt := none }) s
        let s := each ((portIds s).filter (fun p => (port s p).apt = id && (port s p).major = mj))
          (fun p s => updPort p (fun x => { x with newProg := some t }) s) s
        admDone 0x4C j 0 0 (le 8 t) (eraseOld s)

/-! ### FRAME_TICK -/

/-- What a tick does to one cluster beside its tenants: interrupt source TICK and the router's P_TICK. -/
def tickCluster (n : Nat) (s : State) : State :=
  evProduce n 26 (fun _ => true) (if getF s (fPwr n) < 2 then occur n 19 s else s)

/-- The tick. -/
def frameTick (s : State) : State :=
  let f := frameNo s
  let turns := frameTurns s
  let late := tenantIds.filter (overran s)
  let ready := tenantIds.filter (fun t => tActive s t && (ten s t).done && !goesDark s (t / 16))
  let s := heardFields (newFrame s)
  let s := each (portIds s) activate s
  let s := each clusterIds (countCluster turns) s
  let s := each tenantIds (countFrame f) s
  -- what crossed in the last frame
  let came := s.remote.map (fun r => r.2.2.2)
  let due := (s.group.inQueue.filter (fun q => decide (q.1 ≤ frameNo s))).map (fun q => q.2)
  let k := frameNo s
  let s := mapRemote (fun _ => []) (updGroup (fun g => { g with inQueue := g.inQueue.filter (fun q => decide (k < q.1)) }) s)
  let s := each ((came.map crossOut).flatten) enterPort s
  let s := farEnter (each due queueOutput s)
  -- release
  let r := releaseAll ready s
  let s := r.2
  let s := each tenantIds clearMark s
  -- hand-off
  let here := (came.map crossItem).flatten ++ due.filterMap (queueItem s)
  let inc := tenantIds.map (fun t => (t, (ten s t).incoming))
  let far : List Cross := (inc.map (fun p => (p.2.filter (fun h => h.remote)).map (fun h =>
    (h.key / 64 % 16, p.1 / 16, Crossing.inItem p.1 h)))).flatten
  let away := s.group.outItems
  let s := each inc (fun p s => if p.2.isEmpty then s else updTen p.1 (fun x => { x with incoming := [] }) s) s
  let s := each inc (fun p s => handTenant p.1 (late.contains p.1)
    (p.2.filter (fun h => !h.remote) ++ (here.filter (fun q => q.1 = p.1)).map (fun q => q.2)) s) s
  -- crossings of this frame: those delayed before come first
  let held := s.delayed
  let s := sendCross (held ++ far ++ r.1) [] (mapDelayed (fun _ => []) s)
  let s := each (far.map (fun c => c.2.2)) (fun c s => each (crossItem c) (fun q => freeCopied q.2) s) s
  let s := each away (fun q s => freeCopied q.2 (sendEntry q.1 q.2 s)) (updGroup (fun g => { g with outItems := [] }) s)
  let s := each (s.images.map (fun q => q.1)) swapImage s
  let s := each clusterIds tickCluster (occurCp 7 s)
  tickOut (castCores s)

/-- FRAME_TICK (R50): the frame in progress runs to its end, and the next one begins. -/
def execFrameTick (s : State) : Outcome := done (if isSet s fLock then frameTick s else s)

end Sys2Proof.Machine
end

