-- ==== Sys2Proof/Machine/Dispatch.lean ====
section
/-! DEFINITION. What each command does: one arm per constructor of `Instr`, each a direct call of its meaning. -/

namespace Sys2Proof.Machine

def exec (i : Instr) (s : State) : Host.Outcome State Fault Refusal :=
  match i with
  | .pllLock => Sys2Proof.Machine.execPllLock s
  | .refLost => Sys2Proof.Machine.execRefLost s
  | .pllRelock => Sys2Proof.Machine.execPllRelock s
  | .frameTick => Sys2Proof.Machine.execFrameTick s
  | .frameCtrlWrite c v => Sys2Proof.Machine.execFrameCtrlWrite c v s
  | .frameCountLoRead r => Sys2Proof.Machine.execFrameCountLoRead r s
  | .turnAbsLoRead r => Sys2Proof.Machine.execTurnAbsLoRead r s
  | .clFrameDone c n v agree => Sys2Proof.Machine.execClFrameDone c n v agree s
  | .calCycle => Sys2Proof.Machine.execCalCycle s
  | .calStepRequest c v => Sys2Proof.Machine.execCalStepRequest c v s
  | .calStepApply => Sys2Proof.Machine.execCalStepApply s
  | .alarmFire => Sys2Proof.Machine.execAlarmFire s
  | .oscFail => Sys2Proof.Machine.execOscFail s
  | .oscRestart => Sys2Proof.Machine.execOscRestart s
  | .calendarReset => Sys2Proof.Machine.execCalendarReset s
  | .calPipRead r => Sys2Proof.Machine.execCalPipRead r s
  | .mailboxPlace t => Sys2Proof.Machine.execMailboxPlace t s
  | .backlogMove p => Sys2Proof.Machine.execBacklogMove p s
  | .handoffProcess t => Sys2Proof.Machine.execHandoffProcess t s
  | .seqTimeout t d => Sys2Proof.Machine.execSeqTimeout t d s
  | .machineTimerExpiry t d side timer => Sys2Proof.Machine.execMachineTimerExpiry t d side timer s
  | .attachWindowEnd p => Sys2Proof.Machine.execAttachWindowEnd p s
  | .attachTry p => Sys2Proof.Machine.execAttachTry p s
  | .probeWindowEnd p => Sys2Proof.Machine.execProbeWindowEnd p s
  | .switchGuardEnd p => Sys2Proof.Machine.execSwitchGuardEnd p s
  | .pollDue p => Sys2Proof.Machine.execPollDue p s
  | .replyWindowEnd p => Sys2Proof.Machine.execReplyWindowEnd p s
  | .lossPadWindowEnd p => Sys2Proof.Machine.execLossPadWindowEnd p s
  | .gapWindowEnd p => Sys2Proof.Machine.execGapWindowEnd p s
  | .portProgramChange p => Sys2Proof.Machine.execPortProgramChange p s
  | .pgRelease n => Sys2Proof.Machine.execPgRelease n s
  | .vioFail n => Sys2Proof.Machine.execVioFail n s
  | .pgSupplyMismatch n high => Sys2Proof.Machine.execPgSupplyMismatch n high s
  | .padIoWrite c p v => Sys2Proof.Machine.execPadIoWrite c p v s
  | .rxStartEdge p level => Sys2Proof.Machine.execRxStartEdge p level s
  | .startBitCheck p level => Sys2Proof.Machine.execStartBitCheck p level s
  | .rxWordComplete p w => Sys2Proof.Machine.execRxWordComplete p w s
  | .syncRxWordComplete p w span => Sys2Proof.Machine.execSyncRxWordComplete p w span s
  | .edgeEntry p level => Sys2Proof.Machine.execEdgeEntry p level s
  | .saTxdataWrite c p v => Sys2Proof.Machine.execSaTxdataWrite c p v s
  | .txWordLaunch p => Sys2Proof.Machine.execTxWordLaunch p s
  | .txWordEnd p => Sys2Proof.Machine.execTxWordEnd p s
  | .deRelease p => Sys2Proof.Machine.execDeRelease p s
  | .saRxdataRead c p => Sys2Proof.Machine.execSaRxdataRead c p s
  | .saCtrlWrite c p v => Sys2Proof.Machine.execSaCtrlWrite c p v s
  | .saStatWrite c p v => Sys2Proof.Machine.execSaStatWrite c p v s
  | .bypassApply p => Sys2Proof.Machine.execBypassApply p s
  | .bypassReleaseApply p => Sys2Proof.Machine.execBypassReleaseApply p s
  | .lcCmdStage c ch v => Sys2Proof.Machine.execLcCmdStage c ch v s
  | .lcNop ch => Sys2Proof.Machine.execLcNop ch s
  | .lcOn ch => Sys2Proof.Machine.execLcOn ch s
  | .lcOff ch => Sys2Proof.Machine.execLcOff ch s
  | .lcKick ch => Sys2Proof.Machine.execLcKick ch s
  | .lcBlink ch => Sys2Proof.Machine.execLcBlink ch s
  | .lcTest ch => Sys2Proof.Machine.execLcTest ch s
  | .lcClear ch => Sys2Proof.Machine.execLcClear ch s
  | .shortTrip ch => Sys2Proof.Machine.execShortTrip ch s
  | .inrushOverTrip ch => Sys2Proof.Machine.execInrushOverTrip ch s
  | .overloadTrip ch => Sys2Proof.Machine.execOverloadTrip ch s
  | .stuckOnDetect ch => Sys2Proof.Machine.execStuckOnDetect ch s
  | .inrushGrant g => Sys2Proof.Machine.execInrushGrant g s
  | .inrushEnd ch => Sys2Proof.Machine.execInrushEnd ch s
  | .sagAssert g => Sys2Proof.Machine.execSagAssert g s
  | .sagDeassert g => Sys2Proof.Machine.execSagDeassert g s
  | .dischargeEnd ch => Sys2Proof.Machine.execDischargeEnd ch s
  | .kickEnd ch => Sys2Proof.Machine.execKickEnd ch s
  | .blinkOnEnd ch => Sys2Proof.Machine.execBlinkOnEnd ch s
  | .blinkOffEnd ch => Sys2Proof.Machine.execBlinkOffEnd ch s
  | .testOffEnd ch above => Sys2Proof.Machine.execTestOffEnd ch above s
  | .testWindowEnd ch first => Sys2Proof.Machine.execTestWindowEnd ch first s
  | .autoRetry ch => Sys2Proof.Machine.execAutoRetry ch s
  | .lcConfigWrite c ch off v => Sys2Proof.Machine.execLcConfigWrite c ch off v s
  | .lcGcfgWrite c g v => Sys2Proof.Machine.execLcGcfgWrite c g v s
  | .lcCtrlDisable c ch => Sys2Proof.Machine.execLcCtrlDisable c ch s
  | .traceSample ch reading => Sys2Proof.Machine.execTraceSample ch reading s
  | .segmentTimeClose => Sys2Proof.Machine.execSegmentTimeClose s
  | .jnlCtrlClose c => Sys2Proof.Machine.execJnlCtrlClose c s
  | .segmentSign => Sys2Proof.Machine.execSegmentSign s
  | .segmentCommit => Sys2Proof.Machine.execSegmentCommit s
  | .jnlEnable c identified => Sys2Proof.Machine.execJnlEnable c identified s
  | .chainHeadFound head => Sys2Proof.Machine.execChainHeadFound head s
  | .jnlDisable c => Sys2Proof.Machine.execJnlDisable c s
  | .driveFail e => Sys2Proof.Machine.execDriveFail e s
  | .rebuildComplete e => Sys2Proof.Machine.execRebuildComplete e s
  | .jnlEntryWrite c e reg v => Sys2Proof.Machine.execJnlEntryWrite c e reg v s
  | .jnlArchWrite c v => Sys2Proof.Machine.execJnlArchWrite c v s
  | .jnlWptrLoRead r => Sys2Proof.Machine.execJnlWptrLoRead r s
  | .jnlSeqLoRead r => Sys2Proof.Machine.execJnlSeqLoRead r s
  | .slotApplyRequest c n v => Sys2Proof.Machine.execSlotApplyRequest c n v s
  | .slotTableApply n => Sys2Proof.Machine.execSlotTableApply n s
  | .greedyOn c n v => Sys2Proof.Machine.execGreedyOn c n v s
  | .greedyOff c n v => Sys2Proof.Machine.execGreedyOff c n v s
  | .threadStart c n th => Sys2Proof.Machine.execThreadStart c n th s
  | .threadStop c n th => Sys2Proof.Machine.execThreadStop c n th s
  | .threadResume c n th => Sys2Proof.Machine.execThreadResume c n th s
  | .faultPortLoss n th => Sys2Proof.Machine.execFaultPortLoss n th s
  | .lockAcquire c n l => Sys2Proof.Machine.execLockAcquire c n l s
  | .lockRelease c n l => Sys2Proof.Machine.execLockRelease c n l s
  | .lockForce c n v => Sys2Proof.Machine.execLockForce c n v s
  | .chipLockAcquire c l => Sys2Proof.Machine.execChipLockAcquire c l s
  | .chipLockRelease c l => Sys2Proof.Machine.execChipLockRelease c l s
  | .chipLockForce c v => Sys2Proof.Machine.execChipLockForce c v s
  | .thrAlarmArm c v => Sys2Proof.Machine.execThrAlarmArm c v s
  | .threadAlarm n th => Sys2Proof.Machine.execThreadAlarm n th s
  | .rxfPush c v => Sys2Proof.Machine.execRxfPush c v s
  | .rxfEnd c v => Sys2Proof.Machine.execRxfEnd c v s
  | .rxfEvent c v => Sys2Proof.Machine.execRxfEvent c v s
  | .rxfFree c v => Sys2Proof.Machine.execRxfFree c v s
  | .txfStage c v => Sys2Proof.Machine.execTxfStage c v s
  | .txfPop c j => Sys2Proof.Machine.execTxfPop c j s
  | .txfNote c v => Sys2Proof.Machine.execTxfNote c v s
  | .add iw sf rd ra rb => Sys2Proof.Machine.execAdd iw sf rd ra rb s
  | .adc iw sf rd ra rb => Sys2Proof.Machine.execAdc iw sf rd ra rb s
  | .sub iw sf rd ra rb => Sys2Proof.Machine.execSub iw sf rd ra rb s
  | .sbc iw sf rd ra rb => Sys2Proof.Machine.execSbc iw sf rd ra rb s
  | .andR iw sf rd ra rb => Sys2Proof.Machine.execAndR iw sf rd ra rb s
  | .orR iw sf rd ra rb => Sys2Proof.Machine.execOrR iw sf rd ra rb s
  | .xorR iw sf rd ra rb => Sys2Proof.Machine.execXorR iw sf rd ra rb s
  | .andn iw sf rd ra rb => Sys2Proof.Machine.execAndn iw sf rd ra rb s
  | .lsl iw sf rd ra rb => Sys2Proof.Machine.execLsl iw sf rd ra rb s
  | .lsr iw sf rd ra rb => Sys2Proof.Machine.execLsr iw sf rd ra rb s
  | .asr iw sf rd ra rb => Sys2Proof.Machine.execAsr iw sf rd ra rb s
  | .ror iw sf rd ra rb => Sys2Proof.Machine.execRor iw sf rd ra rb s
  | .mov iw sf rd rb => Sys2Proof.Machine.execMov iw sf rd rb s
  | .mvn iw sf rd rb => Sys2Proof.Machine.execMvn iw sf rd rb s
  | .neg iw sf rd rb => Sys2Proof.Machine.execNeg iw sf rd rb s
  | .cmp iw ra rb => Sys2Proof.Machine.execCmp iw ra rb s
  | .tst iw ra rb => Sys2Proof.Machine.execTst iw ra rb s
  | .mul iw sf rd ra rb => Sys2Proof.Machine.execMul iw sf rd ra rb s
  | .mull iw sf rd ra rb => Sys2Proof.Machine.execMull iw sf rd ra rb s
  | .mullu iw sf rd ra rb => Sys2Proof.Machine.execMullu iw sf rd ra rb s
  | .div iw sf rd ra rb => Sys2Proof.Machine.execDiv iw sf rd ra rb s
  | .divu iw sf rd ra rb => Sys2Proof.Machine.execDivu iw sf rd ra rb s
  | .clz iw sf rd ra => Sys2Proof.Machine.execClz iw sf rd ra s
  | .rev iw sf rd ra => Sys2Proof.Machine.execRev iw sf rd ra s
  | .sxb iw sf rd ra => Sys2Proof.Machine.execSxb iw sf rd ra s
  | .sxh iw sf rd ra => Sys2Proof.Machine.execSxh iw sf rd ra s
  | .addi iw sf rd ra imm => Sys2Proof.Machine.execAddi iw sf rd ra imm s
  | .subi iw sf rd ra imm => Sys2Proof.Machine.execSubi iw sf rd ra imm s
  | .andi iw sf rd ra imm => Sys2Proof.Machine.execAndi iw sf rd ra imm s
  | .ori iw sf rd ra imm => Sys2Proof.Machine.execOri iw sf rd ra imm s
  | .xori iw sf rd ra imm => Sys2Proof.Machine.execXori iw sf rd ra imm s
  | .lsli iw sf rd ra imm => Sys2Proof.Machine.execLsli iw sf rd ra imm s
  | .lsri iw sf rd ra imm => Sys2Proof.Machine.execLsri iw sf rd ra imm s
  | .asri iw sf rd ra imm => Sys2Proof.Machine.execAsri iw sf rd ra imm s
  | .rori iw sf rd ra imm => Sys2Proof.Machine.execRori iw sf rd ra imm s
  | .cmpi iw ra imm => Sys2Proof.Machine.execCmpi iw ra imm s
  | .tsti iw ra imm => Sys2Proof.Machine.execTsti iw ra imm s
  | .movi iw rd imm => Sys2Proof.Machine.execMovi iw rd imm s
  | .movn iw rd imm => Sys2Proof.Machine.execMovn iw rd imm s
  | .movhi iw rd imm => Sys2Proof.Machine.execMovhi iw rd imm s
  | .ld iw sz sx rd ra off => Sys2Proof.Machine.execLd iw sz sx rd ra off s
  | .st iw sz rd ra off => Sys2Proof.Machine.execSt iw sz rd ra off s
  | .cmpm iw ra rb off => Sys2Proof.Machine.execCmpm iw ra rb off s
  | .tstm iw ra rb off => Sys2Proof.Machine.execTstm iw ra rb off s
  | .b iw off => Sys2Proof.Machine.execB iw off s
  | .bl iw off => Sys2Proof.Machine.execBl iw off s
  | .nop iw bits => Sys2Proof.Machine.execNop iw bits s
  | .jr iw ra => Sys2Proof.Machine.execJr iw ra s
  | .jlr iw rd ra => Sys2Proof.Machine.execJlr iw rd ra s
  | .mfs iw rd spr => Sys2Proof.Machine.execMfs iw rd spr s
  | .mts iw spr ra => Sys2Proof.Machine.execMts iw spr ra s
  | .rete iw => Sys2Proof.Machine.execRete iw s
  | .fli iw ra => Sys2Proof.Machine.execFli iw ra s
  | .fence iw => Sys2Proof.Machine.execFence iw s
  | .wait iw => Sys2Proof.Machine.execWait iw s
  | .waitWake c => Sys2Proof.Machine.execWaitWake c s
  | .svc iw imm => Sys2Proof.Machine.execSvc iw imm s
  | .rep iw rc next => Sys2Proof.Machine.execRep iw rc next s
  | .repl iw rc next => Sys2Proof.Machine.execRepl iw rc next s
  | .loop iw rc off => Sys2Proof.Machine.execLoop iw rc off s
  | .bcopy iw sz rd ra => Sys2Proof.Machine.execBcopy iw sz rd ra s
  | .bfill iw sz rd rb => Sys2Proof.Machine.execBfill iw sz rd rb s
  | .crcb iw k rd ra => Sys2Proof.Machine.execCrcb iw k rd ra s
  | .tstep iw rd ra rb => Sys2Proof.Machine.execTstep iw rd ra rb s
  | .interruptDelivery c agree vecEcc => Sys2Proof.Machine.execInterruptDelivery c agree vecEcc s
  | .coreVbaseWrite c v => Sys2Proof.Machine.execCoreVbaseWrite c v s
  | .lineFill c a wrongPath => Sys2Proof.Machine.execLineFill c a wrongPath s
  | .thrCtxWrite c n th w v => Sys2Proof.Machine.execThrCtxWrite c n th w v s
  | .submitCommit r p bytes => Sys2Proof.Machine.execSubmitCommit r p bytes s
  | .outHeadWrite r p v => Sys2Proof.Machine.execOutHeadWrite r p v s
  | .doorbellInWrite r p v => Sys2Proof.Machine.execDoorbellInWrite r p v s
  | .outMaskWrite r p v => Sys2Proof.Machine.execOutMaskWrite r p v s
  | .clOutboxWrite c n v => Sys2Proof.Machine.execClOutboxWrite c n v s
  | .kysanNop x => Sys2Proof.Machine.execKysanNop x s
  | .identify x => Sys2Proof.Machine.execIdentify x s
  | .tenantStatus x => Sys2Proof.Machine.execTenantStatus x s
  | .deviceQuery x => Sys2Proof.Machine.execDeviceQuery x s
  | .bind x => Sys2Proof.Machine.execBind x s
  | .unbind x => Sys2Proof.Machine.execUnbind x s
  | .dataSend x => Sys2Proof.Machine.execDataSend x s
  | .tenantReset x => Sys2Proof.Machine.execTenantReset x s
  | .clearDegraded x => Sys2Proof.Machine.execClearDegraded x s
  | .loadClear x => Sys2Proof.Machine.execLoadClear x s
  | .scannerEnable x => Sys2Proof.Machine.execScannerEnable x s
  | .scannerDisable x => Sys2Proof.Machine.execScannerDisable x s
  | .scannerBeep x => Sys2Proof.Machine.execScannerBeep x s
  | .units x => Sys2Proof.Machine.execUnits x s
  | .tare x => Sys2Proof.Machine.execTare x s
  | .zero x => Sys2Proof.Machine.execZero x s
  | .weigh x => Sys2Proof.Machine.execWeigh x s
  | .text x => Sys2Proof.Machine.execText x s
  | .brightness x => Sys2Proof.Machine.execBrightness x s
  | .cursor x => Sys2Proof.Machine.execCursor x s
  | .attention x => Sys2Proof.Machine.execAttention x s
  | .drawerKick x => Sys2Proof.Machine.execDrawerKick x s
  | .codepage x => Sys2Proof.Machine.execCodepage x s
  | .density x => Sys2Proof.Machine.execDensity x s
  | .printSeg x => Sys2Proof.Machine.execPrintSeg x s
  | .cut x => Sys2Proof.Machine.execCut x s
  | .logo x => Sys2Proof.Machine.execLogo x s
  | .pattern x => Sys2Proof.Machine.execPattern x s
  | .keyLeds x => Sys2Proof.Machine.execKeyLeds x s
  | .keyLock x => Sys2Proof.Machine.execKeyLock x s
  | .keypadBeep x => Sys2Proof.Machine.execKeypadBeep x s
  | .tenantConfig x => Sys2Proof.Machine.execTenantConfig x s
  | .adminTenantReset x => Sys2Proof.Machine.execAdminTenantReset x s
  | .tenantResetGo c v => Sys2Proof.Machine.execTenantResetGo c v s
  | .tenantResetComplete t => Sys2Proof.Machine.execTenantResetComplete t s
  | .portDefine x => Sys2Proof.Machine.execPortDefine x s
  | .portRemove x => Sys2Proof.Machine.execPortRemove x s
  | .portGrant x => Sys2Proof.Machine.execPortGrant x s
  | .portSuspend x => Sys2Proof.Machine.execPortSuspend x s
  | .portResume x => Sys2Proof.Machine.execPortResume x s
  | .portBypass x => Sys2Proof.Machine.execPortBypass x s
  | .portRelease x => Sys2Proof.Machine.execPortRelease x s
  | .settleDiscard x => Sys2Proof.Machine.execSettleDiscard x s
  | .settleRead x => Sys2Proof.Machine.execSettleRead x s
  | .aptStage x => Sys2Proof.Machine.execAptStage x s
  | .aptActivate x => Sys2Proof.Machine.execAptActivate x s
  | .aptRemove x => Sys2Proof.Machine.execAptRemove x s
  | .aptList x => Sys2Proof.Machine.execAptList x s
  | .portApt x => Sys2Proof.Machine.execPortApt x s
  | .frameSet x => Sys2Proof.Machine.execFrameSet x s
  | .timeGet x => Sys2Proof.Machine.execTimeGet x s
  | .timeTrim x => Sys2Proof.Machine.execTimeTrim x s
  | .timeStep x => Sys2Proof.Machine.execTimeStep x s
  | .timeAlarm x => Sys2Proof.Machine.execTimeAlarm x s
  | .lcConfig x => Sys2Proof.Machine.execLcConfig x s
  | .lcProfile x => Sys2Proof.Machine.execLcProfile x s
  | .lcAttach x => Sys2Proof.Machine.execLcAttach x s
  | .lcDetach x => Sys2Proof.Machine.execLcDetach x s
  | .lcCommand x => Sys2Proof.Machine.execLcCommand x s
  | .jnlEntry x => Sys2Proof.Machine.execJnlEntry x s
  | .jnlControl x => Sys2Proof.Machine.execJnlControl x s
  | .jnlClose x => Sys2Proof.Machine.execJnlClose x s
  | .jnlRead x => Sys2Proof.Machine.execJnlRead x s
  | .jnlArchive x => Sys2Proof.Machine.execJnlArchive x s
  | .jnlStatus x => Sys2Proof.Machine.execJnlStatus x s
  | .codeWrite x => Sys2Proof.Machine.execCodeWrite x s
  | .codeCommit x => Sys2Proof.Machine.execCodeCommit x s
  | .keyInstall x => Sys2Proof.Machine.execKeyInstall x s
  | .castle x => Sys2Proof.Machine.execCastle x s
  | .faultRead x => Sys2Proof.Machine.execFaultRead x s
  | .powerDark x => Sys2Proof.Machine.execPowerDark x s
  | .powerWake x => Sys2Proof.Machine.execPowerWake x s
  | .powerStandby x => Sys2Proof.Machine.execPowerStandby x s
  | .powerDeep x => Sys2Proof.Machine.execPowerDeep x s
  | .regRead x => Sys2Proof.Machine.execRegRead x s
  | .movDbWrite c m v => Sys2Proof.Machine.execMovDbWrite c m v s
  | .transferAccept g => Sys2Proof.Machine.execTransferAccept g s
  | .transferReadChunk g data ecc => Sys2Proof.Machine.execTransferReadChunk g data ecc s
  | .transferWriteChunk g ok => Sys2Proof.Machine.execTransferWriteChunk g ok s
  | .transferComplete g => Sys2Proof.Machine.execTransferComplete g s
  | .completionTimeout g => Sys2Proof.Machine.execCompletionTimeout g s
  | .arbitrationPeriod target tags => Sys2Proof.Machine.execArbitrationPeriod target tags s
  | .linkTrain p info => Sys2Proof.Machine.execLinkTrain p info s
  | .trainRetry p => Sys2Proof.Machine.execTrainRetry p s
  | .drnRetrain c p => Sys2Proof.Machine.execDrnRetrain c p s
  | .drnDisable c p => Sys2Proof.Machine.execDrnDisable c p s
  | .heartbeatSend p => Sys2Proof.Machine.execHeartbeatSend p s
  | .heartbeat f => Sys2Proof.Machine.execHeartbeat f s
  | .address f => Sys2Proof.Machine.execAddress f s
  | .admitReq f => Sys2Proof.Machine.execAdmitReq f s
  | .admitFrame f => Sys2Proof.Machine.execAdmitFrame f s
  | .admissionTick => Sys2Proof.Machine.execAdmissionTick s
  | .detach f => Sys2Proof.Machine.execDetach f s
  | .tick f => Sys2Proof.Machine.execTick f s
  | .mmio f => Sys2Proof.Machine.execMmio f s
  | .hostdma f => Sys2Proof.Machine.execHostdma f s
  | .queue f => Sys2Proof.Machine.execQueue f s
  | .drnAdmin f => Sys2Proof.Machine.execDrnAdmin f s
  | .drnJournal f => Sys2Proof.Machine.execDrnJournal f s
  | .capacity f => Sys2Proof.Machine.execCapacity f s
  | .laneFail p lane => Sys2Proof.Machine.execLaneFail p lane s
  | .laneSwapDone p => Sys2Proof.Machine.execLaneSwapDone p s
  | .linkLoss p => Sys2Proof.Machine.execLinkLoss p s
  | .headElection => Sys2Proof.Machine.execHeadElection s
  | .delayMeasure p roundTrip => Sys2Proof.Machine.execDelayMeasure p roundTrip s
  | .clCkptWrite c n v agree => Sys2Proof.Machine.execClCkptWrite c n v agree s
  | .pairBistDone n pair passA passB => Sys2Proof.Machine.execPairBistDone n pair passA passB s
  | .checkerError n x => Sys2Proof.Machine.execCheckerError n x s
  | .stallSentinel n x => Sys2Proof.Machine.execStallSentinel n x s
  | .shadowMismatch n th => Sys2Proof.Machine.execShadowMismatch n th s
  | .voteDisagree block => Sys2Proof.Machine.execVoteDisagree block s
  | .clusterCastling n => Sys2Proof.Machine.execClusterCastling n s
  | .handoverEnd imageOk => Sys2Proof.Machine.execHandoverEnd imageOk s
  | .castleReqCluster c n => Sys2Proof.Machine.execCastleReqCluster c n s
  | .castleReqLaneCore c n x => Sys2Proof.Machine.execCastleReqLaneCore c n x s
  | .castleReqCp c x => Sys2Proof.Machine.execCastleReqCp c x s
  | .clDoublesWrite c n v => Sys2Proof.Machine.execClDoublesWrite c n v s
  | .pairForm n => Sys2Proof.Machine.execPairForm n s
  | .cpCheckpoint agree => Sys2Proof.Machine.execCpCheckpoint agree s
  | .cpCastling failA failB => Sys2Proof.Machine.execCpCastling failA failB s
  | .scrubPassComplete corrected uncorr => Sys2Proof.Machine.execScrubPassComplete corrected uncorr s
  | .rotationVisit cpOk => Sys2Proof.Machine.execRotationVisit cpOk s
  | .clusterBistDone pass coresOk => Sys2Proof.Machine.execClusterBistDone pass coresOk s
  | .repairOverdue => Sys2Proof.Machine.execRepairOverdue s
  | .icEoi c => Sys2Proof.Machine.execIcEoi c s
  | .icRaise c v => Sys2Proof.Machine.execIcRaise c v s
  | .icSet c n hi v => Sys2Proof.Machine.execIcSet c n hi v s
  | .icSrcWrite c n k v => Sys2Proof.Machine.execIcSrcWrite c n k v s
  | .holdoffEnd n g => Sys2Proof.Machine.execHoldoffEnd n g s
  | .coreTimerArm c v => Sys2Proof.Machine.execCoreTimerArm c v s
  | .coreTimerDue c => Sys2Proof.Machine.execCoreTimerDue c s
  | .routerEvent n k => Sys2Proof.Machine.execRouterEvent n k s
  | .eventTrigger c n v => Sys2Proof.Machine.execEventTrigger c n v s
  | .evrCfgWrite c n k v => Sys2Proof.Machine.execEvrCfgWrite c n k v s
  | .evrLock c n k v => Sys2Proof.Machine.execEvrLock c n k v s
  | .sentryFire k level => Sys2Proof.Machine.execSentryFire k level s
  | .clusterDarkEntry n => Sys2Proof.Machine.execClusterDarkEntry n s
  | .clusterDarkDone n => Sys2Proof.Machine.execClusterDarkDone n s
  | .wakeRequest n => Sys2Proof.Machine.execWakeRequest n s
  | .clusterWakeTick n => Sys2Proof.Machine.execClusterWakeTick n s
  | .governorDecision n => Sys2Proof.Machine.execGovernorDecision n s
  | .lowPowerEntryEnd => Sys2Proof.Machine.execLowPowerEntryEnd s
  | .nvmeShutdownTimeout rp => Sys2Proof.Machine.execNvmeShutdownTimeout rp s
  | .lowPowerExit => Sys2Proof.Machine.execLowPowerExit s
  | .smbusAddressMatch => Sys2Proof.Machine.execSmbusAddressMatch s
  | .powerOnReset vaon => Sys2Proof.Machine.execPowerOnReset vaon s
  | .resetPin => Sys2Proof.Machine.execResetPin s
  | .softReset c v => Sys2Proof.Machine.execSoftReset c v s
  | .endpointReset => Sys2Proof.Machine.execEndpointReset s
  | .resetRelease bootsel head => Sys2Proof.Machine.execResetRelease bootsel head s
  | .crossingResync x => Sys2Proof.Machine.execCrossingResync x s
  | .supplyDip iw => Sys2Proof.Machine.execSupplyDip iw s
  | .boot => Sys2Proof.Machine.execBoot s
  | .vfFlr t => Sys2Proof.Machine.execVfFlr t s
  | .pfFlr => Sys2Proof.Machine.execPfFlr s
  | .vfEnableClear => Sys2Proof.Machine.execVfEnableClear s
  | .driveRemoved rp => Sys2Proof.Machine.execDriveRemoved rp s
  | .driveInserted rp => Sys2Proof.Machine.execDriveInserted rp s
  | .rootPortRetrain rp => Sys2Proof.Machine.execRootPortRetrain rp s
  | .getId m => Sys2Proof.Machine.execGetId m s
  | .getStatus m => Sys2Proof.Machine.execGetStatus m s
  | .mgmtReset m => Sys2Proof.Machine.execMgmtReset m s
  | .mgmtCodeWrite m => Sys2Proof.Machine.execMgmtCodeWrite m s
  | .mgmtCodeCommit m => Sys2Proof.Machine.execMgmtCodeCommit m s
  | .codeRead m => Sys2Proof.Machine.execCodeRead m s
  | .adminSubmit m => Sys2Proof.Machine.execAdminSubmit m s
  | .adminFetch m => Sys2Proof.Machine.execAdminFetch m s
  | .mgmtReplyRead => Sys2Proof.Machine.execMgmtReplyRead s
  | .tapReset => Sys2Proof.Machine.execTapReset s
  | .jtagBypass => Sys2Proof.Machine.execJtagBypass s
  | .idcode => Sys2Proof.Machine.execIdcode s
  | .samplePreload => Sys2Proof.Machine.execSamplePreload s
  | .extest => Sys2Proof.Machine.execExtest s
  | .clamp => Sys2Proof.Machine.execClamp s
  | .highz => Sys2Proof.Machine.execHighz s
  | .registerWrite r a v => Sys2Proof.Machine.execRegisterWrite r a v s
  | .vfEnableSet num => Sys2Proof.Machine.execVfEnableSet num s
  | .clusterResetRelease n => Sys2Proof.Machine.execClusterResetRelease n s
  | .scrubAgeLimit => Sys2Proof.Machine.execScrubAgeLimit s
  | .standaloneDecision => Sys2Proof.Machine.execStandaloneDecision s

end Sys2Proof.Machine
end

