-- ==== Sys2Proof/Machine/Idle.lean ====
section
/-! DEFINITION. What the block does with no command waiting. -/

namespace Sys2Proof.Machine

/-- With an empty queue one turn passes while turns are counted (METRO_STATUS.LOCK, R42); the turn that ends a frame
brings the tick (log entry 2). -/
def idle (s : State) : Outcome :=
  .next (if isSet s fLock then (if nextTick s ≤ now s + 1 then frameTick s else goTo (now s + 1) s) else s)

end Sys2Proof.Machine
end

