-- ==== Sys2Proof/Safety.lean ====
section
/-! DEFINITION. The terms in which claims about runs are made: the canonical form of the sparse tables that hold memory
and registers, and a command's completion. -/

namespace Sys2Proof.Machine

/-- Memory lists strictly rising addresses, and no byte that reads as an unlisted one does. -/
abbrev Memory.wf (m : List Host.Cell) : Prop := Tab.wf (fun _ => (0 : Byte)) m = true

/-- The register bank lists strictly rising keys, and no register at its reset value. -/
abbrev Bank.wf (t : Tab Word) : Prop := Tab.wf regReset t = true

/-- Both are in canonical form, so that equal contents are equal data. -/
def State.canonical (s : State) : Prop := Memory.wf s.mem ∧ Bank.wf s.regs

/-- The parts of the state (all but the queue). -/
inductive Part where
  | regs
  | mem
  | time
  | cal
  | tenants
  | devices
  | ports
  | images
  | pads
  | pgOn
  | fifos
  | chans
  | lgroups
  | journal
  | clusters
  | cores
  | locks
  | remote
  | delayed
  | xfers
  | xferNext
  | arbs
  | links
  | group
  | guard
  | holds
  | power
  | host
  | admin
  | hot
  | fresh
  deriving DecidableEq, Repr

/-- The parts of the state that a command may change (all but the queue, which `step` alone changes): for most families
the registers, and the tables of the units that the family acts on; a command that resets the chip, every part. -/
def footprint : Instr → List Part
  | .pllLock =>
    [.regs, .time]
  | .refLost | .pllRelock | .driveFail .. | .rebuildComplete .. | .linkTrain .. =>
    [.regs, .journal, .links, .hot]
  | .frameTick =>
    [.regs, .mem, .time, .tenants, .devices, .ports, .images, .pads, .fifos, .chans, .journal, .clusters, .cores,
    .locks, .remote, .delayed, .links, .group, .guard, .power, .host, .admin, .hot, .fresh]
  | .frameCtrlWrite .. =>
    [.regs, .time, .journal, .cores, .links, .guard, .hot]
  | .frameCountLoRead .. | .turnAbsLoRead .. | .repairOverdue | .scrubAgeLimit =>
    [.time]
  | .clFrameDone .. | .st .. | .bcopy .. | .bfill .. | .clCkptWrite .. | .handoverEnd .. | .cpCheckpoint ..
  | .lowPowerEntryEnd | .lowPowerExit | .powerOnReset .. | .resetPin | .softReset .. | .mgmtReset ..
  | .registerWrite .. =>
    [.regs, .mem, .time, .cal, .tenants, .devices, .ports, .images, .pads, .pgOn, .fifos, .chans, .lgroups,
    .journal, .clusters, .cores, .locks, .remote, .delayed, .xfers, .xferNext, .arbs, .links, .group, .guard,
    .holds, .power, .host, .admin, .hot, .fresh]
  | .calCycle | .calStepApply | .alarmFire =>
    [.regs, .cal, .tenants, .journal, .links, .group, .power, .host, .admin, .hot, .fresh]
  | .calStepRequest .. =>
    [.regs, .cal, .tenants, .journal, .cores, .links, .group, .guard, .host, .admin, .hot, .fresh]
  | .oscFail | .supplyDip .. | .mgmtReplyRead =>
    [.regs, .hot]
  | .oscRestart | .dischargeEnd .. | .delayMeasure .. | .governorDecision .. =>
    [.regs]
  | .calendarReset =>
    [.regs, .cal]
  | .calPipRead .. =>
    [.cal]
  | .mailboxPlace .. =>
    [.regs, .mem, .time, .tenants, .journal, .links, .host, .hot]
  | .backlogMove .. =>
    [.regs, .tenants, .journal, .links, .host, .hot]
  | .handoffProcess .. =>
    [.regs, .mem, .time, .tenants, .devices, .ports, .pads, .fifos, .chans, .journal, .remote, .delayed, .links,
    .group, .host, .admin, .hot, .fresh]
  | .seqTimeout .. | .machineTimerExpiry .. =>
    [.time, .tenants, .devices, .group]
  | .attachWindowEnd .. | .attachTry .. | .probeWindowEnd .. | .switchGuardEnd .. =>
    [.regs, .mem, .time, .tenants, .ports, .fifos, .journal, .links, .group, .hot]
  | .pollDue .. =>
    [.regs, .time, .ports, .journal, .links, .hot]
  | .replyWindowEnd .. | .lossPadWindowEnd .. | .gapWindowEnd .. =>
    [.regs, .mem, .time, .tenants, .ports, .pads, .fifos, .journal, .links, .group, .hot]
  | .portProgramChange .. =>
    [.regs, .ports, .images, .fifos, .journal, .links, .hot]
  | .pgRelease .. =>
    [.pgOn]
  | .vioFail .. =>
    [.regs, .mem, .tenants, .ports, .pads, .pgOn, .fifos, .journal, .links, .group, .hot]
  | .pgSupplyMismatch .. =>
    [.regs, .ports, .pads, .pgOn, .fifos, .journal, .links, .group, .hot]
  | .padIoWrite .. | .saRxdataRead .. =>
    [.regs, .pads, .journal, .clusters, .cores, .links, .guard, .hot]
  | .rxStartEdge .. | .edgeEntry .. =>
    [.regs, .ports, .pads, .fifos, .journal, .clusters, .links, .group, .power, .hot]
  | .startBitCheck .. | .rxWordComplete .. | .syncRxWordComplete .. =>
    [.regs, .time, .pads, .hot]
  | .saTxdataWrite .. | .saCtrlWrite .. =>
    [.regs, .ports, .pads, .fifos, .journal, .clusters, .cores, .links, .group, .guard, .hot]
  | .txWordLaunch .. =>
    [.regs, .time, .ports, .pads, .fifos, .journal, .links, .group, .hot]
  | .txWordEnd .. =>
    [.time, .ports, .pads]
  | .deRelease .. =>
    [.time, .pads]
  | .saStatWrite .. | .slotApplyRequest .. | .greedyOn .. | .greedyOff .. | .threadStart .. | .threadStop ..
  | .threadResume .. | .thrAlarmArm .. | .coreVbaseWrite .. | .thrCtxWrite .. | .clDoublesWrite .. | .icEoi ..
  | .icRaise .. | .icSet .. | .icSrcWrite .. | .coreTimerArm .. | .evrCfgWrite .. | .evrLock .. =>
    [.regs, .journal, .clusters, .cores, .links, .guard, .hot]
  | .bypassApply .. | .settleDiscard .. =>
    [.regs, .mem, .tenants, .ports, .pads, .fifos, .journal, .links, .group, .host, .admin, .hot, .fresh]
  | .bypassReleaseApply .. =>
    [.regs, .tenants, .ports, .pads, .journal, .links, .group, .host, .admin, .hot, .fresh]
  | .lcCmdStage .. =>
    [.regs, .tenants, .chans, .journal, .cores, .links, .group, .guard, .host, .admin, .hot, .fresh]
  | .lcNop .. | .lcOn .. | .lcOff .. | .lcKick .. | .lcBlink .. | .lcTest .. | .lcClear .. =>
    [.regs, .time, .tenants, .chans, .lgroups, .journal, .links, .group, .host, .admin, .hot, .fresh]
  | .shortTrip .. | .inrushOverTrip .. | .overloadTrip .. | .stuckOnDetect .. | .inrushGrant .. | .sagAssert ..
  | .kickEnd .. | .testOffEnd .. | .testWindowEnd .. =>
    [.regs, .time, .tenants, .pads, .chans, .lgroups, .journal, .clusters, .links, .group, .power, .hot]
  | .inrushEnd .. | .blinkOnEnd .. =>
    [.regs, .time, .chans, .lgroups, .journal, .links, .hot]
  | .sagDeassert .. =>
    [.regs, .time, .lgroups]
  | .blinkOffEnd .. =>
    [.regs, .time, .chans, .lgroups]
  | .autoRetry .. =>
    [.regs, .time, .tenants, .chans, .lgroups, .group]
  | .lcConfigWrite .. | .lcCtrlDisable .. =>
    [.regs, .tenants, .devices, .chans, .lgroups, .journal, .cores, .links, .group, .guard, .host, .admin, .hot,
    .fresh]
  | .lcGcfgWrite .. =>
    [.regs, .lgroups, .journal, .cores, .links, .guard, .hot]
  | .traceSample .. =>
    [.time, .chans]
  | .segmentTimeClose =>
    [.regs, .time, .journal, .links, .hot]
  | .jnlCtrlClose .. | .jnlEnable .. | .jnlEntryWrite .. | .jnlArchWrite .. | .outHeadWrite .. | .shadowMismatch .. =>
    [.regs, .journal, .cores, .links, .guard, .hot]
  | .segmentSign =>
    [.regs, .journal]
  | .segmentCommit =>
    [.regs, .journal, .fresh]
  | .chainHeadFound .. | .settleRead .. | .aptList .. | .timeGet .. | .timeTrim .. | .timeAlarm .. | .lcProfile ..
  | .jnlEntry .. | .jnlControl .. | .jnlClose .. | .jnlRead .. | .jnlArchive .. | .jnlStatus .. | .faultRead ..
  | .drnAdmin .. =>
    [.regs, .tenants, .journal, .links, .group, .host, .admin, .hot, .fresh]
  | .jnlDisable .. =>
    [.regs, .journal, .cores, .links, .guard, .hot, .fresh]
  | .jnlWptrLoRead .. | .jnlSeqLoRead .. =>
    [.journal]
  | .slotTableApply .. =>
    [.regs, .clusters, .hot]
  | .faultPortLoss .. =>
    [.regs, .mem, .tenants, .ports, .pads, .fifos, .journal, .cores, .links, .group, .hot]
  | .lockAcquire .. | .lockRelease .. | .lockForce .. =>
    [.regs, .journal, .clusters, .cores, .locks, .links, .guard, .hot]
  | .chipLockAcquire .. =>
    [.cores, .locks]
  | .chipLockRelease .. | .chipLockForce .. =>
    [.regs, .journal, .cores, .locks, .links, .guard, .hot]
  | .threadAlarm .. | .coreTimerDue .. =>
    [.regs, .time, .cores, .hot]
  | .rxfPush .. | .rxfEnd .. | .rxfEvent .. =>
    [.regs, .mem, .tenants, .ports, .pads, .fifos, .journal, .clusters, .cores, .links, .group, .guard, .hot]
  | .rxfFree .. | .txfPop .. | .txfNote .. =>
    [.regs, .fifos, .journal, .clusters, .cores, .links, .guard, .hot]
  | .txfStage .. =>
    [.regs, .tenants, .fifos, .journal, .clusters, .cores, .links, .group, .guard, .hot]
  | .add .. | .adc .. | .sub .. | .sbc .. | .andR .. | .orR .. | .xorR .. | .andn .. | .lsl .. | .lsr .. | .asr ..
  | .ror .. | .mov .. | .mvn .. | .neg .. | .cmp .. | .tst .. | .mul .. | .mull .. | .mullu .. | .div ..
  | .divu .. | .clz .. | .rev .. | .sxb .. | .sxh .. | .addi .. | .subi .. | .andi .. | .ori .. | .xori ..
  | .lsli .. | .lsri .. | .asri .. | .rori .. | .cmpi .. | .tsti .. | .movi .. | .movn .. | .movhi .. | .b ..
  | .bl .. | .nop .. | .jr .. | .jlr .. | .mfs .. | .mts .. | .rete .. | .fli .. | .fence .. | .wait .. | .svc ..
  | .rep .. | .repl .. | .loop .. =>
    [.regs, .mem, .time, .journal, .clusters, .cores, .locks, .links, .guard, .hot, .fresh]
  | .ld .. | .cmpm .. | .tstm .. | .crcb .. | .tstep .. =>
    [.regs, .mem, .time, .cal, .pads, .fifos, .journal, .clusters, .cores, .locks, .links, .guard, .hot, .fresh]
  | .waitWake .. | .interruptDelivery .. =>
    [.regs, .mem, .time, .journal, .clusters, .cores, .locks, .links, .guard, .holds, .hot, .fresh]
  | .lineFill .. =>
    [.regs, .clusters]
  | .submitCommit .. =>
    [.regs, .tenants, .journal, .cores, .links, .group, .guard, .host, .hot, .fresh]
  | .doorbellInWrite .. =>
    [.regs, .journal, .cores, .links, .guard, .power, .hot]
  | .outMaskWrite .. =>
    [.regs, .journal, .cores, .links, .guard, .host, .hot]
  | .clOutboxWrite .. =>
    [.regs, .tenants, .journal, .clusters, .cores, .links, .guard, .hot]
  | .kysanNop .. | .identify .. | .tenantStatus .. | .deviceQuery .. | .bind .. | .unbind .. | .dataSend ..
  | .tenantReset .. | .clearDegraded .. | .loadClear .. | .scannerEnable .. | .scannerDisable .. | .scannerBeep ..
  | .units .. | .tare .. | .zero .. | .weigh .. | .text .. | .brightness .. | .cursor .. | .attention ..
  | .drawerKick .. | .codepage .. | .density .. | .printSeg .. | .cut .. | .logo .. | .pattern .. | .keyLeds ..
  | .keyLock .. | .keypadBeep .. | .tenantConfig .. =>
    [.regs, .mem, .tenants, .devices, .ports, .pads, .fifos, .chans, .journal, .remote, .delayed, .links, .group,
    .host, .admin, .hot, .fresh]
  | .adminTenantReset .. =>
    [.regs, .tenants, .devices, .ports, .pads, .fifos, .chans, .journal, .remote, .delayed, .links, .group, .host,
    .admin, .hot, .fresh]
  | .tenantResetGo .. =>
    [.regs, .tenants, .devices, .ports, .pads, .fifos, .chans, .journal, .cores, .remote, .delayed, .links, .group,
    .guard, .hot]
  | .tenantResetComplete .. | .lcAttach .. | .lcDetach .. =>
    [.regs, .tenants, .devices, .journal, .links, .group, .host, .admin, .hot, .fresh]
  | .portDefine .. =>
    [.regs, .mem, .tenants, .ports, .fifos, .journal, .links, .group, .host, .admin, .hot, .fresh]
  | .portRemove .. =>
    [.regs, .tenants, .ports, .images, .pads, .fifos, .journal, .links, .group, .host, .admin, .hot, .fresh]
  | .portGrant .. | .portSuspend .. | .portResume .. | .portBypass .. | .portRelease .. =>
    [.regs, .tenants, .ports, .journal, .links, .group, .host, .admin, .hot, .fresh]
  | .aptStage .. | .aptRemove .. =>
    [.regs, .tenants, .images, .journal, .links, .group, .host, .admin, .hot, .fresh]
  | .aptActivate .. =>
    [.regs, .mem, .tenants, .images, .fifos, .journal, .links, .group, .host, .admin, .hot, .fresh]
  | .portApt .. =>
    [.regs, .mem, .tenants, .ports, .images, .pads, .fifos, .journal, .links, .group, .host, .admin, .hot, .fresh]
  | .frameSet .. =>
    [.regs, .time, .tenants, .journal, .links, .group, .host, .admin, .hot, .fresh]
  | .timeStep .. =>
    [.regs, .cal, .tenants, .journal, .links, .group, .host, .admin, .hot, .fresh]
  | .lcConfig .. =>
    [.regs, .tenants, .devices, .chans, .lgroups, .journal, .links, .group, .host, .admin, .hot, .fresh]
  | .lcCommand .. =>
    [.regs, .tenants, .chans, .journal, .links, .group, .host, .admin, .hot, .fresh]
  | .codeWrite .. | .codeCommit .. | .keyInstall .. =>
    [.regs, .mem, .tenants, .journal, .links, .group, .host, .admin, .hot, .fresh]
  | .castle .. =>
    [.regs, .mem, .tenants, .journal, .cores, .locks, .links, .group, .guard, .host, .admin, .hot, .fresh]
  | .powerDark .. | .powerStandby .. | .powerDeep .. | .clusterDarkEntry .. =>
    [.regs, .mem, .tenants, .devices, .ports, .pads, .fifos, .chans, .journal, .locks, .remote, .delayed, .links,
    .group, .guard, .power, .host, .admin, .hot, .fresh]
  | .powerWake .. =>
    [.regs, .tenants, .journal, .links, .group, .power, .host, .admin, .hot, .fresh]
  | .regRead .. =>
    [.regs, .time, .cal, .tenants, .pads, .fifos, .journal, .cores, .locks, .links, .group, .host, .admin, .hot,
    .fresh]
  | .movDbWrite .. =>
    [.regs, .journal, .cores, .xfers, .xferNext, .links, .guard, .hot]
  | .transferAccept .. | .transferReadChunk .. =>
    [.regs, .xfers, .links]
  | .transferWriteChunk .. =>
    [.regs, .mem, .xfers, .links, .group]
  | .transferComplete .. =>
    [.regs, .mem, .pads, .clusters, .xfers, .xferNext, .links, .power, .hot]
  | .completionTimeout .. =>
    [.regs, .time, .xfers, .host]
  | .arbitrationPeriod .. =>
    [.arbs]
  | .trainRetry .. =>
    [.regs, .time, .links]
  | .drnRetrain .. | .drnDisable .. =>
    [.regs, .tenants, .journal, .cores, .links, .group, .guard, .hot]
  | .heartbeatSend .. =>
    [.time, .links]
  | .heartbeat .. | .laneSwapDone .. =>
    [.regs, .links]
  | .address .. | .admitFrame .. | .capacity .. =>
    [.regs, .links, .group]
  | .admitReq .. =>
    [.regs, .tenants, .journal, .links, .group, .hot]
  | .admissionTick =>
    [.regs, .mem, .time, .tenants, .devices, .ports, .images, .pads, .fifos, .chans, .lgroups, .journal, .remote,
    .delayed, .links, .group, .host, .admin, .hot, .fresh]
  | .detach .. =>
    [.regs, .mem, .tenants, .devices, .ports, .pads, .fifos, .chans, .journal, .remote, .delayed, .links, .group,
    .host, .hot]
  | .tick .. =>
    [.regs, .time, .journal, .links, .group, .hot, .fresh]
  | .mmio .. =>
    [.regs, .tenants, .devices, .ports, .pads, .fifos, .chans, .journal, .cores, .remote, .delayed, .links, .group,
    .guard, .power, .host, .hot, .fresh]
  | .hostdma .. =>
    [.regs, .xfers, .links, .group, .host, .fresh]
  | .queue .. =>
    [.regs, .ports, .journal, .links, .group, .hot]
  | .drnJournal .. =>
    [.regs, .journal, .links]
  | .laneFail .. | .voteDisagree .. | .clusterBistDone .. | .crossingResync .. =>
    [.regs, .journal, .links, .guard, .hot]
  | .linkLoss .. =>
    [.regs, .mem, .time, .tenants, .devices, .ports, .pads, .fifos, .chans, .journal, .remote, .delayed, .links,
    .group, .host, .hot]
  | .headElection =>
    [.regs, .time, .links, .group]
  | .pairBistDone .. =>
    [.regs, .mem, .time, .journal, .cores, .locks, .links, .guard, .hot, .fresh]
  | .checkerError .. | .stallSentinel .. | .castleReqCluster .. | .castleReqLaneCore .. | .castleReqCp ..
  | .cpCastling .. =>
    [.regs, .mem, .journal, .cores, .locks, .links, .guard, .hot, .fresh]
  | .clusterCastling .. =>
    [.regs, .mem, .guard]
  | .pairForm .. =>
    [.regs, .cores]
  | .scrubPassComplete .. =>
    [.regs, .journal, .links, .guard, .hot, .fresh]
  | .rotationVisit .. =>
    [.regs, .time, .journal, .links, .guard, .hot]
  | .holdoffEnd .. =>
    [.time, .holds]
  | .routerEvent .. =>
    [.regs, .pads, .clusters, .power, .hot]
  | .eventTrigger .. =>
    [.regs, .pads, .journal, .clusters, .cores, .links, .guard, .power, .hot]
  | .sentryFire .. =>
    [.regs, .power, .hot]
  | .clusterDarkDone .. =>
    [.regs, .mem, .tenants, .devices, .ports, .pads, .fifos, .chans, .journal, .clusters, .cores, .locks, .remote,
    .delayed, .links, .group, .guard, .holds, .power, .host, .admin, .hot, .fresh]
  | .wakeRequest .. | .smbusAddressMatch =>
    [.regs, .power]
  | .clusterWakeTick .. =>
    [.regs, .mem, .tenants, .devices, .ports, .pads, .fifos, .journal, .clusters, .links, .group, .power, .host,
    .admin, .hot, .fresh]
  | .nvmeShutdownTimeout .. =>
    [.time, .power]
  | .endpointReset =>
    [.regs, .tenants, .devices, .ports, .pads, .fifos, .chans, .journal, .remote, .delayed, .xfers, .links, .group,
    .host, .hot]
  | .resetRelease .. =>
    [.regs, .power, .host]
  | .boot =>
    [.regs, .mem, .cores, .host]
  | .vfFlr .. =>
    [.regs, .tenants, .devices, .ports, .pads, .fifos, .chans, .journal, .remote, .delayed, .links, .group, .hot]
  | .pfFlr =>
    [.regs, .tenants, .devices, .ports, .pads, .fifos, .chans, .journal, .remote, .delayed, .links, .group, .host,
    .admin, .hot]
  | .vfEnableClear =>
    [.regs, .tenants, .devices, .ports, .pads, .fifos, .chans, .journal, .remote, .delayed, .links, .group, .host,
    .hot]
  | .driveRemoved .. =>
    [.regs, .journal, .links, .host, .hot]
  | .driveInserted .. | .jtagBypass | .idcode | .samplePreload =>
    [.host]
  | .rootPortRetrain .. =>
    [.regs, .time, .journal, .links, .host, .hot]
  | .getId .. | .getStatus .. | .codeRead .. | .adminFetch .. =>
    [.regs, .host, .hot]
  | .mgmtCodeWrite .. | .mgmtCodeCommit .. =>
    [.regs, .mem, .host, .hot]
  | .adminSubmit .. =>
    [.regs, .tenants, .journal, .links, .group, .host, .hot, .fresh]
  | .tapReset =>
    [.pads, .host]
  | .extest | .clamp | .highz =>
    [.regs, .mem, .tenants, .ports, .pads, .pgOn, .fifos, .chans, .lgroups, .journal, .links, .group, .guard, .host,
    .hot]
  | .vfEnableSet .. =>
    [.regs, .devices, .links, .host]
  | .clusterResetRelease .. =>
    [.regs, .mem, .fifos, .clusters, .cores, .locks, .holds, .power]
  | .standaloneDecision =>
    [.regs, .time, .group]

/-- A command completes: it answers a next state with the given property. -/
def Completes (c : Instr) (s : State) (P : State → Prop) : Prop := ∃ t, exec c s = .next t ∧ P t

/-! ### Terms of the statements (Certificates/Slice0/Obligations.lean) -/

/-- Who may write a mailbox page: the host, or the control processor through its view, which covers the tenants' pages (R299). -/
def pageUser : Requester → Nat → Bool
  | .host, _ => true
  | .core c, p => isCp c && decide (p < 256)

/-- Positions of tenant t's outbound ring that a released slot may take: none while slots wait in the backlog (R297). -/
def ringRoom (s : State) (t : Nat) : Nat := if (ten s t).backlog = [] then ringFree s t else 0

/-- The outbox of tenant t has room for one more slot, and no slot waits behind it. -/
abbrev Room (s : State) (t : Nat) : Prop := (ten s t).outFill < 32 ∧ (ten s t).staged = []

/-- Between `s` and `u` one slot was staged toward tenant t, and it is the slot given: in the outbox while it has room, else
behind it for a later frame. -/
abbrev Staged (s u : State) (t : Nat) (sl : Slot) : Prop :=
  (Room s t → (ten u t).outFill = (ten s t).outFill + 1 ∧ (ten u t).staged = [] ∧
    readBytes u (outboxAt t (ten s t).outFill) 64 = sl) ∧
  (¬ Room s t → (ten u t).outFill = (ten s t).outFill ∧ (ten u t).staged = (ten s t).staged ++ [sl])

/-- A tenant command whose slot passes the checks of R291 on its reserved fields and length, for an ACTIVE tenant. -/
abbrev CmdOk (s : State) (x : TCmd) (len : Nat) : Prop :=
  tActive s x.tenant.val = true ∧ x.flags.toNat < 16 ∧ len ≤ x.payload.length ∧ x.payload.length ≤ 52

/-- The device that a command names carries no work from earlier frames, and may still perform transitions (R113). -/
abbrev DevFree (s : State) (x : TCmd) : Prop :=
  x.device.toNat < 16 ∧ (dev s x.tenant.val x.device.toNat).carried = [] ∧
  transNow (frameNo s) (dev s x.tenant.val x.device.toNat) < 64

/-- The device that a command names. -/
def cmdDev (s : State) (x : TCmd) : DeviceSt := dev s x.tenant.val x.device.toNat

/-- A class operation of a code, well formed, at a device of its class in class presentation (R303, R304). -/
abbrev ClassOk (s : State) (x : TCmd) (code : Nat) (m : MsgInfo) : Prop :=
  CmdOk s x (msgLen code) ∧ DevFree s x ∧ (cmdDev s x).present = 1 ∧ msgInfo code = some m ∧
  m.cls = some (cmdDev s x).cls ∧ msgArgOk code x.payload = true

/-- What the partner-side machine of the device makes of a class operation of a kind (R112). -/
def opFire (s : State) (x : TCmd) (code kind : Nat) : Option (Bool × FAcc) :=
  fireSrc x.tenant.val x.device.toNat 0 3 code (if kind = 0 then none else some x.tag.toNat)
    (loadOp x.tenant.val x.device.toNat 0 code x.payload s)

/-- The response slot to a command. -/
def answer (x : TCmd) (op status state : Nat) (payload : List Byte) : Slot :=
  mkSlot op 1 x.tag.toNat x.device.toNat 0 status state payload

/-- The context that a core's instructions run in. -/
def runCtx (s : State) (k : CoreId) : Ctx := (core s (runIx s k)).ctx

/-- The core may issue a word, and no repeat unit is armed there. -/
abbrev Free (s : State) (i : Issue) : Prop :=
  canIssue s i.core = true ∧ (runCtx s i.core).unit = none ∧ (runCtx s i.core).parked = false

/-- The word at PC issues and executes: it may stand there, its fetch succeeds, its condition holds, the copies of a pair
agree, and no STOP takes effect while a multiply or divide runs (R211, R236, R250, R258, R271, R356). -/
abbrev Ready (s : State) (i : Issue) (x : Isi) : Prop :=
  Free s i ∧ fetchTrap i (runCtx s i.core) (legalHere i.core (runCtx s i.core) x) = none ∧
  condHolds (runCtx s i.core).psw i.cond = true ∧ differs s i x = false ∧
  (x.isLong = true → stopsWithin i.core (wordTurns i.core (runCtx s i.core) x) s = false)

/-- A word that raises an exception of its own issues there, and the copies of a pair agree. -/
abbrev Agreed (s : State) (i : Issue) : Prop := (compared s i.core && !i.agree) = false

/-- General registers but those of `ws` hold what they held. -/
abbrev RegsKept (x y : Ctx) (ws : List Reg) : Prop := ∀ g, g ∉ ws → gr y g = gr x g

/-- The special registers but PSW, PC, NPC and LCOUNT hold what they held. -/
abbrev SpecKept (x y : Ctx) : Prop :=
  y.epsw = x.epsw ∧ y.epc = x.epc ∧ y.enpc = x.enpc ∧ y.mode = x.mode ∧ y.lstart = x.lstart ∧ y.lend = x.lend

/-- The bits of PSW but N, Z, C and V hold what they held. -/
abbrev StatusKept (x y : Ctx) : Prop := y.psw &&& 0x0FFFFFFF = x.psw &&& 0x0FFFFFFF

/-- The next word in sequence follows; at LEND with LCOUNT not 0 the hardware loop acts, but the target of a branch whose slot
stands there is taken (R257, R258, R262). -/
abbrev Stepped (x y : Ctx) : Prop :=
  (x.pc ≠ x.lend ∨ x.lcount = 0 → y.pc = enpcOf x ∧ y.npc = y.pc + 4 ∧ y.lcount = x.lcount) ∧
  (x.pc = x.lend → x.lcount ≠ 0 →
    y.lcount = x.lcount - 1 ∧
      y.pc = (if enpcOf x = x.pc + 4 ∧ x.lcount ≠ 1 ∧ x.taken = false then x.lstart else enpcOf x))

/-- Every register outside the cores holds what it held, but SCRUB_CORR, which counts the words that reads correct (R213). -/
abbrev RegisterKept (s u : State) : Prop := ∀ k, k ≠ fScrubCorr.key → reg u k = reg s k

/-- Memory, every register outside the core, and every other core hold what they held. -/
abbrev RestKept (s u : State) (k : CoreId) : Prop :=
  u.mem = s.mem ∧ RegisterKept s u ∧ ∀ j, j ≠ runIx s k → core u j = core s j

/-- What a register instruction leaves: all but the registers `ws`, the flags, and where the core goes on. -/
abbrev Frame1 (s u : State) (k : CoreId) (ws : List Reg) : Prop :=
  RegsKept (runCtx s k) (runCtx u k) ws ∧ SpecKept (runCtx s k) (runCtx u k) ∧ Stepped (runCtx s k) (runCtx u k) ∧ RestKept s u k

/-- The flags of a result `r` with a carry and an overflow, where the word writes flags; otherwise PSW is as before. -/
abbrev FlagsAre (sf : Bool) (x y : Ctx) (r : Word) (c v : Bool) : Prop :=
  StatusKept x y ∧ (if sf then pswN y.psw = r.msb ∧ pswZ y.psw = decide (r = 0) ∧ pswC y.psw = c ∧ pswV y.psw = v
    else y.psw = x.psw)

/-- A register instruction has completed: rd holds r, with these flags, and nothing else changed. -/
abbrev Wrote (s u : State) (i : Issue) (sf : Bool) (rd : Reg) (r : Word) (c v : Bool) : Prop :=
  gr (runCtx u i.core) rd = r ∧ FlagsAre sf (runCtx s i.core) (runCtx u i.core) r c v ∧ Frame1 s u i.core [rd]

/-- A compare has completed: the flags of r, and nothing else changed. -/
abbrev Compared (s u : State) (i : Issue) (r : Word) (c v : Bool) : Prop :=
  FlagsAre true (runCtx s i.core) (runCtx u i.core) r c v ∧ Frame1 s u i.core []

/-- A signed value fits 32 bits. -/
abbrev Fits (t : Int) : Prop := -2147483648 ≤ t ∧ t ≤ 2147483647

/-- The core has taken an exception (R219, R220, R272, R273): a thread is FAULTED with its record written; a lane core or
the control processor is at its vector in supervisor mode with the saved registers written. -/
abbrev Entered (s u : State) (k : CoreId) (cause : Nat) : Prop :=
  (∀ n t, k = .thread n t →
    getF u (fThrState n.val t.val) = 3 ∧ getF u (fFaultRec n.val t.val 0 7 0) = cause ∧
    (runCtx u k).epc = (runCtx s k).pc ∧ (runCtx u k).g = (runCtx s k).g) ∧
  (isThread k = false →
    (runCtx u k).pc = vbase s (runIx s k) + (if cause = 8 then 0x20 else 0) ∧ (runCtx u k).epc = (runCtx s k).pc ∧
    (runCtx u k).enpc = enpcOf (runCtx s k) ∧ (runCtx u k).epsw = pswView (runCtx s k) ∧ (runCtx u k).mode = 1 ∧
    bitsOf (runCtx u k).psw 6 6 = 0 ∧ getF u (fld (privK (runIx s k) 0x804) 7 0) = cause ∧ (runCtx u k).g = (runCtx s k).g)

/-- A repeat unit `w` is armed at PC, and `x` is the word that it repeats. -/
abbrev Armed (s : State) (i : Issue) (x : Isi) (w : RepUnit) : Prop :=
  canIssue s i.core = true ∧ (runCtx s i.core).unit = some w ∧ w.word = encode i.cond x ∧ differs s i x = false

/-- One iteration has completed (R251): rc counts down; the repetition ends when rc is 0 or the repeated word's condition
holds, and then the word after the unit follows. -/
abbrev Iterated (x y : Ctx) (i : Issue) (w : RepUnit) : Prop :=
  gr y w.rc = gr x w.rc - 1 ∧ SpecKept x y ∧
  (if gr x w.rc = 1 ∨ condHolds y.psw i.cond = true
    then y.unit = none ∧ (x.pc + 4 ≠ x.lend ∨ x.lcount = 0 → y.pc = x.pc + 8)
    else y.unit = some { w with left := w.left - 1 } ∧ y.pc = x.pc)

/-- A read of `size` bytes of memory at `a` succeeds. -/
abbrev Readable (s : State) (i : Issue) (aligned : Bool) (a size : Nat) : Prop :=
  memAddr a = true ∧ heldAt s a = false ∧ readTrap s i.core aligned a size = none ∧ i.eccData = false

/-- A write of `size` bytes of `d` to memory at `a` succeeds, and needs no automatic checkpoint first. -/
abbrev Storable (s : State) (i : Issue) (a size : Nat) (d : Word) : Prop :=
  memAddr a = true ∧ heldAt s a = false ∧ writeTrap s i.core a size d = none ∧ i.eccData = false ∧
  (∀ j, j < size → memDead (a + j) = false) ∧
  (isThread i.core = true ∨ (core s (runIx s i.core)).undo.length + 2 ≤ 1024)

/-- The bytes of `d` stand at `a`, least significant first, and every other byte of memory is as before. -/
abbrev Stored (s u : State) (a size : Nat) (d : Word) : Prop :=
  (∀ j, j < size → readB u (a + j) = BitVec.ofNat 8 (d.toNat / 256 ^ j)) ∧
  ∀ b, b < a ∨ a + size ≤ b → readB u b = readB s b

/-- An administration command slot of the right length, while no earlier command waits (R291, R307). -/
abbrev AdmOk (s : State) (x : ACmd) (need : Nat) : Prop := s.admin = none ∧ need ≤ x.payload.length ∧ x.payload.length ≤ 52

/-- The tenant or port that the command names is this chip's (R341). -/
abbrev Local (s : State) (x : ACmd) (unit : Nat) : Prop := isHead s = false ∨ leAt x.payload 0 2 < unit

/-- The administration page's ring has room, and no command came from the management port or another chip. -/
abbrev AdmRoom (s : State) : Prop :=
  s.host.mgmtSubs = [] ∧ s.group.fwd = [] ∧ (ten s 256).backlog = [] ∧ (ten s 256).gapNext = false ∧ 0 < ringFree s 256

/-- Where there is room, the response stands in the administration page's ring (R297, R302). -/
abbrev Replied (s u : State) (op : Nat) (x : ACmd) (status state : Nat) (payload : List Byte) : Prop :=
  AdmRoom s → ringGet u 256 0x800 (getF s (fOutTail 256)) = mkSlot op 1 x.tag.toNat 0xFF 0 status state payload ∧
    getF u (fOutTail 256) = (getF s (fOutTail 256) + 1) % 65536

/-- The command waits for the event that completes it. -/
abbrev Waits (u : State) (op : Nat) (x : ACmd) (key : Nat) : Prop :=
  u.admin = some { op := op, tag := x.tag, key := key, drop := false }

/-- What a refused or forwarded command leaves: the ports, devices, tables and clocks as they were. -/
abbrev Kept (s u : State) : Prop :=
  u.ports = s.ports ∧ u.devices = s.devices ∧ u.images = s.images ∧ u.time = s.time ∧ u.cal = s.cal

/-- A replacement's program and data fit the areas of the threads that run its table (R119, R132). -/
def Replaceable (s : State) (img : List Byte) : Bool :=
  (tableThreads s (aptId img) (aptMajor img)).all (fun g =>
    decide (progUsed (fifo s (fifoIx g.1 g.2)) + replaceNeed s g.1 g.2 img ≤ 32768))

/-- Once a port's old program has left its thread's area, that of the active image of a major version fits (R118, R119). -/
abbrev Rebinds (s : State) (p mj : Nat) (img : List Byte) : Prop :=
  areaFits (areaSweep (port s p).group (port s p).thread (areaDrop (port s p).group (port s p).thread (fun k => k = dataKey p)
    (updPort p (fun x => { x with major := mj, newProg := none, progMinor := aptMinor img,
                                  prog := activeIx s (port s p).apt mj }) s)))
    (port s p).group (port s p).thread (activeIx s (port s p).apt mj) p = true

/-- The port that a command names. -/
def admPort (s : State) (x : ACmd) : PortSt := port s (leAt x.payload 0 2)

/-- A frame of a type arrives on a link that is up, whole and in order, for this chip (R330, R333, R334). -/
abbrev RxOk (s : State) (type : Nat) (f : Frame) : Prop :=
  drnUp s f.port.val = true ∧ f.crcOk = true ∧ f.seq.toNat = (drn s f.port.val).rxSeq ∧ f.reservedBit = false ∧
  (f.port.val ≠ 0 ∨ isSet s fGrpValid = true ∨ type = 0 ∨ type = 1 ∨ type = 4) ∧
  (f.routed = true → f.dst.toNat = ownSeat s)

/-- Nothing but a link's own state has changed. -/
abbrev OnlyLink (s u : State) : Prop :=
  u.regs = s.regs ∧ u.mem = s.mem ∧ u.group = s.group ∧ u.journal = s.journal ∧ u.tenants = s.tenants ∧
  u.devices = s.devices ∧ u.ports = s.ports ∧ u.host = s.host

/-- The mode that a training settles on (R329): rate code, width and good lanes. A port whose link is down forgets its failed
lanes; one that trains anew leaves them out. -/
def trainMode (s : State) (p : Nat) (i : TrainInfo) : Nat × Nat × Nat :=
  settleMode (getF s (fDrnMaxWidth p)) i.maxWidth.toNat (min (getF s (fDrnMaxRate p)) i.maxRate.toNat) (fun r =>
    let g := if r = 3 then i.good3.toNat else if r = 2 then i.good2.toNat else i.good1.toNat
    if getF s (fDrnState p) = 0 then g else g - (g &&& getF s (fDrnLaneFail p)))

/-- A frame of this content stands in the replay buffer of a port. -/
def InReplay (u : State) (p type : Nat) (routed : Bool) (dst : Nat) (payload : List Byte) : Prop :=
  ∃ f ∈ (drn u p).replay, (f.type, f.routed, f.dst, f.payload) = (type, routed, dst, payload)

/-- The last frame sent on a port and not yet acknowledged: its type, whether it is routed, its destination, its payload. -/
def lastSent (s : State) (p : Nat) : Option (Nat × Bool × Nat × List Byte) :=
  (drn s p).replay.getLast?.map (fun f => (f.type, f.routed, f.dst, f.payload))

/-- The newest FAULT record names this mechanism, outcome and unit (R374). -/
def faultIs (s : State) (mech outcome unit : Nat) : Prop :=
  s.guard.faults.head?.map (fun r => (imgB r 0, imgB r 1, imgB r 2)) = some (mech, outcome, unit)

/-- C4 of the physical cluster that runs n has taken position x, and the position runs from its checkpoint (R359, R366). -/
def LaneCastled (s u : State) (n x : Nat) : Prop :=
  getF u (fLmPos (getF s (fMap n)) x) = getF s (fLmSpare (getF s (fMap n))) ∧ getF u (fLmSpare (getF s (fMap n))) = 7 ∧
  getF u (fLmOut (getF s (fMap n)) (getF s (fLmPos (getF s (fMap n)) x))) = 1 ∧
  getF u fCastSeq = (getF s fCastSeq + 1) % 2 ^ 32 ∧
  (core u (16 * n + 12 + firstPos s n x)).ctx = ckptCtx s (16 * n + 12 + firstPos s n x) ∧
  (core u (16 * n + 12 + firstPos s n x)).undo = [] ∧ (core u (16 * n + 12 + firstPos s n x)).side = []

/-- The reserve core has taken a position of the control processor (R370). -/
def CpCastled (s u : State) (pos : Nat) : Prop :=
  getF u (if pos = 0 then fCpActA else fCpActB) = getF s fCpSpare ∧ getF u fCpSpare = 3 ∧
  getF u (fCpOut (getF s (if pos = 0 then fCpActA else fCpActB))) = 1 ∧
  getF u (if pos = 0 then fCpActB else fCpActA) = getF s (if pos = 0 then fCpActB else fCpActA) ∧
  getF u fCastSeq = (getF s fCastSeq + 1) % 2 ^ 32 ∧ (core u 256).ctx = ckptCtx s 256

/-- A port that a table serves and no bypass covers. -/
abbrev Served (s : State) (p : Nat) (img : List Byte) : Prop :=
  (port s p).defined = true ∧ (port s p).bypassed = false ∧ portImg s p = some img

/-- The request of probe q, in variable v0, can be sent, or there is none to send (R121). -/
abbrev Sendable (img : List Byte) (q v0 : Nat) : Prop :=
  probeReq img q = 0xFF ∨ (renderNo img (probeReq img q) (varsV0 v0) (List.replicate 8 [])).isSome = true

/-- The pads of a port with the words that are due received (R142). -/
def caughtUp (s : State) (p : Nat) : State :=
  each (port s p).pads (fun i => rxCatch (64 * (port s p).group + i) (now s)) s

/-- The port's settlement is VALID, of this table and not older than the chip's admission (R125). -/
def Known (s : State) (p : Nat) (img : List Byte) : Bool :=
  (settleOf s p).valid && (settleOf s p).apt = aptId img && (settleOf s p).major = aptMajor img &&
  decide (admEpoch s ≤ (settleOf s p).epoch)

/-- The first CONTACT probe of a table. -/
def firstContact (img : List Byte) : Option Nat := (probes img).find? (probeContact img)

/-- The staged command x, of code cmd, is due at channel c at turn e of the frame in progress, its tenant has not been reset
since it was staged, and no other outcome of the channel has its turn (R92, R162, R168). -/
abbrev ActsAt (s : State) (c : Nat) (x : LcStaged) (e cmd : Nat) : Prop :=
  (chan s c).staged = some x ∧ x.due = some e ∧ dueNow s e = true ∧ bitsOf x.word 3 0 = cmd ∧
  x.tenant.all (fun q => decide (getF s (fGen q.1) = q.2)) = true ∧
  outranked (goTo e s) c 5 = false ∧ (chan s c).outAt ≠ some (max (now s) e)

/-- R163 rejects the staged command: the channel is not enabled, or the command has no effect in its state. -/
abbrev Rejected (s : State) (c : Nat) (x : LcStaged) (cmd : Nat) : Prop :=
  (cmd ≠ 0 ∧ isSet s (fLcEnable c) = false) ∨ 7 ≤ cmd ∨ ((cmd = 1 ∨ cmd = 2 ∨ cmd = 4) ∧ lcState s c = 5) ∨
  (cmd = 3 ∧ lcState s c ≠ 0) ∨ (cmd = 4 ∧ (bitsOf x.word 15 4 = 0 ∨ bitsOf x.word 27 16 = 0)) ∨
  (cmd = 5 ∧ (lcState s c ≠ 3 ∨ (chan s c).mode ≠ .steady ∨ bitsOf x.word 15 4 < 10 ∨ 100 < bitsOf x.word 15 4 ∨
    isSet s (fLgSag (c / 8)) = true)) ∨
  (cmd = 6 ∧ lcState s c = 5 ∧ x.tenant.isSome = true ∧ getF s (fLcCause c) ∉ [2, 3, 5])

/-- The constructors that let a staged command act, and the command codes of each. -/
def actForms : List ((ChanId → Instr) × (Nat → Bool)) :=
  [(.lcNop, fun k => k = 0 || decide (7 ≤ k)), (.lcOn, fun k => k = 1), (.lcOff, fun k => k = 2), (.lcKick, fun k => k = 3),
   (.lcBlink, fun k => k = 4), (.lcTest, fun k => k = 5), (.lcClear, fun k => k = 6)]

/-- Channel c has tripped with a cause at turn t: TRIPPED, out of the queue, and drive, phase and test ended. -/
abbrev Tripped (u : State) (c cause t : Nat) : Prop :=
  lcState u c = 5 ∧ getF u (fLcCause c) = cause ∧ lcDrive u c = false ∧ (chan u c).phaseEnd = none ∧ (chan u c).test = none ∧
  (chan u c).tripAt = t ∧ c ∉ (lgroup u (c / 8)).queue

/-- No delivery of source k of controller n committed at turn t (R379). -/
abbrev Unserved (s : State) (n k t : Nat) : Prop := ¬ ((clus s n).commits.1 = t ∧ (clus s n).commits.2.contains k = true)

/-- The owner of lock k of the table releases it at turn t: it stays taken for attempts of that turn (R215). -/
abbrev Released (s u : State) (k t : Nat) : Prop :=
  Tab.find u.locks k = (Tab.find s.locks k).map (fun l => { l with freed := some (l.freed.getD t) }) ∧
  ∀ j, j ≠ k → Tab.find u.locks j = Tab.find s.locks j

/-- The message that a write of TXF_STAGE ends. -/
def msgOf (s : State) (n : Nat) (v : Word) : List (BitVec 9) :=
  Tab.getD (fifo s (fifoIx n (bitsOf v 27 24))).part (bitsOf v 30 28) [] ++ [BitVec.ofNat 9 (bitsOf v 8 0)]

/-- The port that a write of TXF_STAGE names. -/
def msgPort (s : State) (n : Nat) (v : Word) : Nat := getF s (fSlotPort n (bitsOf v 27 24) (bitsOf v 30 28))

/-- An occurrence of edge source k of controller n at turn t sets its PEND (R379, R386): the source is enabled, its cluster is
not dark, and no delivery of it committed in that turn. -/
abbrev Rises (s : State) (n k t : Nat) : Prop :=
  icLevel n k = false ∧ icReserved n k = false ∧ isSet s (fSrcEn n k) = true ∧ icDark s n = false ∧
  ¬ ((clus s n).commits.1 = t ∧ (clus s n).commits.2.contains k = true)

/-- The multiplies and divides, each with its word. -/
def longForms (i : Issue) (sf : Bool) (rd ra rb : Reg) : List (Instr × Isi) :=
  [(.mul i sf rd ra rb, .r .mul sf rd ra rb), (.mull i sf rd ra rb, .r .mull sf rd ra rb),
   (.mullu i sf rd ra rb, .r .mullu sf rd ra rb), (.div i sf rd ra rb, .r .div sf rd ra rb),
   (.divu i sf rd ra rb, .r .divu sf rd ra rb)]

/-- The entry of an interrupt at level lv from source src, into context y (R272, R276, R281–R283): a multiply or divide of a
thread that the recognition point finds running is abandoned, and is the next word again. -/
abbrev Delivered (s u : State) (k : CoreId) (lv src : Nat) : Prop :=
  let x := runCtx (threadRecog k src s) k
  (runCtx u k).pc = intVector s k ∧ (runCtx u k).epc = x.pc ∧ (runCtx u k).enpc = enpcOf x ∧
  (runCtx u k).epsw = pswView x ∧ (runCtx u k).mode = 1 ∧ bitsOf (runCtx u k).psw 6 6 = 0 ∧
  (core u (icCore s k)).stack = (lv, src) :: (core s (icCore s k)).stack ∧
  (runCtx u k).g = x.g ∧ (runCtx u k).lcount = x.lcount ∧ u.mem = s.mem

end Sys2Proof.Machine
end

