-- ==== Sys2Proof/WellFormed.lean ====
section
/-! DEFINITION. Which commands the environment can send: the bounds that the spec puts on a command's bytes and that the
types of Syntax.lean do not. Every meaning is defined for the others too. -/

namespace Sys2Proof

/-- A tenant command slot: at most 52 payload bytes, FLAGS bits [7:4] reserved (R290). -/
def TCmd.wf (x : TCmd) : Bool := decide (x.payload.length ≤ 52) && decide (x.flags.toNat < 16)

/-- An administration command slot (R290, R307). -/
def ACmd.wf (x : ACmd) : Bool := decide (x.payload.length ≤ 52)

/-- A frame: at most 4,096 payload bytes (R333). -/
def Frame.wf (f : Frame) : Bool := decide (f.payload.length ≤ 4096)

/-- A block write: at most 255 data bytes (R427). -/
def MCmd.wf (m : MCmd) : Bool := decide (m.data.length ≤ 255)

/-- A command that the environment can send. -/
def Instr.wf : Instr → Bool
  | .kysanNop x | .identify x | .tenantStatus x | .deviceQuery x | .bind x | .unbind x | .dataSend x | .tenantReset x
  | .clearDegraded x | .loadClear x | .scannerEnable x | .scannerDisable x | .scannerBeep x | .units x | .tare x
  | .zero x | .weigh x | .text x | .brightness x | .cursor x | .attention x | .drawerKick x | .codepage x | .density x
  | .printSeg x | .cut x | .logo x | .pattern x | .keyLeds x | .keyLock x | .keypadBeep x => x.wf
  | .tenantConfig x | .adminTenantReset x | .portDefine x | .portRemove x | .portGrant x | .portSuspend x
  | .portResume x | .portBypass x | .portRelease x | .settleDiscard x | .settleRead x | .aptStage x | .aptActivate x
  | .aptRemove x | .aptList x | .portApt x | .frameSet x | .timeGet x | .timeTrim x | .timeStep x | .timeAlarm x
  | .lcConfig x | .lcProfile x | .lcAttach x | .lcDetach x | .lcCommand x | .jnlEntry x | .jnlControl x | .jnlClose x
  | .jnlRead x | .jnlArchive x | .jnlStatus x | .codeWrite x | .codeCommit x | .keyInstall x | .castle x
  | .faultRead x | .powerDark x | .powerWake x | .powerStandby x | .powerDeep x | .regRead x => x.wf
  | .heartbeat f | .address f | .admitReq f | .admitFrame f | .detach f | .tick f | .mmio f | .hostdma f | .queue f
  | .drnAdmin f | .drnJournal f | .capacity f => f.wf
  | .getId m | .getStatus m | .mgmtReset m | .mgmtCodeWrite m | .mgmtCodeCommit m | .codeRead m | .adminSubmit m
  | .adminFetch m => m.wf
  | .submitCommit _ _ bytes => decide (1 ≤ bytes.length ∧ bytes.length ≤ 64)
  | .registerWrite .host (.addr _) _ => false
  | _ => true

end Sys2Proof
end

