-- ==== Sys2Proof/Certificates/Slice0/Obligations.lean ====
section
/-! DEFINITION. The statements about this machine. A condition under which a command acts is a hypothesis; what it does is
the conclusion, that the command answers a next state with the properties listed (`Completes`, Safety.lean). -/

open Sys2Proof Sys2Proof.Machine

/-- Log entry 2: the queue is first in, first out, and a step is the front command's effect with the queue's rest. -/
def Obligations.StepRunsFront : Prop :=
  ∀ (c : Instr) (cs : List Instr) (s : State), s.pending = c :: cs → step s = exec c { s with pending := cs }

/-- Every command completes, in every state, and none touches the queue behind it: a step on a queue takes exactly its front
command. -/
def Obligations.StepTakesFront : Prop :=
  ∀ (s : State) (c : Instr) (cs : List Instr), s.pending = c :: cs → ∃ t, step s = .next t ∧ t.pending = cs

/-- Memory and the register bank keep their canonical form (log entry 5) in every step. -/
def Obligations.StepKeepsCanonical : Prop :=
  ∀ s t : State, s.canonical → step s = .next t → t.canonical

/-- R42, R43, R44, R46, R47, R67: the values at a power-on reset. -/
def Obligations.ResetValues : Prop :=
  State.reset.canonical ∧ State.reset.pending = [] ∧ now State.reset = 0 ∧ frameNo State.reset = 0 ∧
  getF State.reset fLock = 0 ∧ getF State.reset fHold = 0 ∧ getF State.reset fRefLost = 0 ∧
  getF State.reset fLenRounds = 400 ∧ getF State.reset fLenActive = 400 ∧ getF State.reset fOvrLimit = 8 ∧
  State.reset.cal.acc = 0 ∧ (∀ t, t < 256 → getF State.reset (fTState t) = 0) ∧ (∀ a, readB State.reset a = 0)

/-- A command leaves every part of the state outside its footprint (Safety.lean) as it was. -/
def Obligations.CommandFrame : Prop :=
  ∀ (c : Instr) (s t : State), exec c s = .next t →
    (.regs ∉ footprint c → t.regs = s.regs) ∧ (.mem ∉ footprint c → t.mem = s.mem) ∧
    (.time ∉ footprint c → t.time = s.time) ∧ (.cal ∉ footprint c → t.cal = s.cal) ∧
    (.tenants ∉ footprint c → t.tenants = s.tenants) ∧ (.devices ∉ footprint c → t.devices = s.devices) ∧
    (.ports ∉ footprint c → t.ports = s.ports) ∧ (.images ∉ footprint c → t.images = s.images) ∧
    (.pads ∉ footprint c → t.pads = s.pads) ∧ (.pgOn ∉ footprint c → t.pgOn = s.pgOn) ∧
    (.fifos ∉ footprint c → t.fifos = s.fifos) ∧ (.chans ∉ footprint c → t.chans = s.chans) ∧
    (.lgroups ∉ footprint c → t.lgroups = s.lgroups) ∧ (.journal ∉ footprint c → t.journal = s.journal) ∧
    (.clusters ∉ footprint c → t.clusters = s.clusters) ∧ (.cores ∉ footprint c → t.cores = s.cores) ∧
    (.locks ∉ footprint c → t.locks = s.locks) ∧ (.remote ∉ footprint c → t.remote = s.remote) ∧
    (.delayed ∉ footprint c → t.delayed = s.delayed) ∧ (.xfers ∉ footprint c → t.xfers = s.xfers) ∧
    (.xferNext ∉ footprint c → t.xferNext = s.xferNext) ∧ (.arbs ∉ footprint c → t.arbs = s.arbs) ∧
    (.links ∉ footprint c → t.links = s.links) ∧ (.group ∉ footprint c → t.group = s.group) ∧
    (.guard ∉ footprint c → t.guard = s.guard) ∧ (.holds ∉ footprint c → t.holds = s.holds) ∧
    (.power ∉ footprint c → t.power = s.power) ∧ (.host ∉ footprint c → t.host = s.host) ∧
    (.admin ∉ footprint c → t.admin = s.admin) ∧ (.hot ∉ footprint c → t.hot = s.hot) ∧
    (.fresh ∉ footprint c → t.fresh = s.fresh) ∧
    t.pending = s.pending

/-- Log entry 2 (DESIGN CHOICE): with no command waiting, nothing happens before lock; after it a turn passes, and the turn
that ends a frame begins the next one. R44, R50, R55, R65: the tick begins the next frame at the turn that follows the
last one of the frame in progress, with the calendar and the states of HOLD and CALSTALE latched; a pending length whose
tick has come takes effect, and no other. A group member that has heard its parent's TICK of the frame latches the
head's calendar from it. Before lock there is no tick. -/
def Obligations.TimePasses : Prop :=
  (∀ s : State, s.pending = [] →
    (isSet s fLock = false → step s = .next s) ∧
    (isSet s fLock = true → now s + 1 < nextTick s → step s = .next (goTo (now s + 1) s)) ∧
    (isSet s fLock = true → nextTick s ≤ now s + 1 → step s = .next (frameTick s))) ∧
  ((∀ s : State, isSet s fLock = true → now s ≤ nextTick s → Completes .frameTick s (fun t =>
    now t = nextTick s ∧ t.time.cur.start = nextTick s ∧ frameNo t = frameNo s + 1 ∧ t.time.cur.hold = isSet s fHold ∧
    t.time.cur.stale = decide (reg s 0x45000074 &&& 3 ≠ 1) ∧ t.cal = s.cal ∧
    (isMember s = false ∨ s.group.heard = [] →
      t.time.cur.cal = s.cal.val ∧
      (s.time.pendLen = none → t.time.cur.rounds = s.time.cur.rounds) ∧
      (∀ len k, s.time.pendLen = some (len, k) → k ≤ frameNo s + 1 → t.time.cur.rounds = len ∧ t.time.pendLen = none) ∧
      (∀ len k, s.time.pendLen = some (len, k) → frameNo s + 1 < k →
        t.time.cur.rounds = s.time.cur.rounds ∧ t.time.pendLen = some (len, k))) ∧
    (isMember s = true → isSet s fGrpAdmitted = true → s.group.heard ≠ [] → leAt s.group.heard 0 8 = frameNo s + 1 →
      t.time.cur.cal = leAt s.group.heard 24 6 * 65536 + leAt s.group.heard 30 2))) ∧
  (∀ s : State, isSet s fLock = false → Completes .frameTick s (fun t => t = s)))

/-- R45: a supervisor's write of LEN_ROUNDS outside 200–4,000 at a chip whose length is its own. -/
def Obligations.FrameLengthRejected : Prop :=
  ∀ (s : State) (c : CoreId) (v : Word), supCore s c = true → isSet s fGroupLock = false →
    (bitsOf v 11 0 < 200 ∨ 4000 < bitsOf v 11 0) →
    Completes (.frameCtrlWrite c v) s (fun t =>
      getF t fLenRounds = getF s fLenRounds ∧ t.time = s.time ∧
      getF t fLenPending = getF s fLenPending ∧ getF t fLenRej = 1 ∧ getF t fOvrLimit = bitsOf v 23 16)

/-- R42, R43: the first lock sets LOCK and begins turn 0 of frame 0, with a frame of the active length; a lock reported
while turns are counted changes nothing. The loss of the reference, also in a holdover, sets HOLD and REF_LOST; before
the first lock there is none. The relock clears HOLD and leaves REF_LOST; without a holdover it changes nothing. Neither
drops a turn, changes the frame in progress or touches the calendar. R17, R41, R44, R45: a supervisor's write of a
length in range is pending, replaces one that was pending, and leaves the frame in progress as it is. On a chip that
leads no other it takes effect with the second tick after the write. Where the length is the group's (GROUP_LOCK), the
length is ignored without LEN_REJ. OVR_LIMIT takes its value in each case. Any other core's write is a bus error and
changes neither. (The tick at a head with other chips follows R346.) -/
def Obligations.FrameLengthAndMetronome : Prop :=
  ((∀ s, isSet s fLock = false → Completes .pllLock s (fun t =>
    getF t fLock = 1 ∧ getF t fHold = getF s fHold ∧ getF t fRefLost = getF s fRefLost ∧ now t = 0 ∧ frameNo t = 0 ∧
    t.time.cur.start = 0 ∧ t.time.cur.rounds = getF s fLenActive ∧ t.cal = s.cal)) ∧
  (∀ s, isSet s fLock = true → Completes .pllLock s (fun t => t = s)) ∧
  (∀ s, isSet s fLock = true → Completes .refLost s (fun t =>
    getF t fHold = 1 ∧ getF t fRefLost = 1 ∧ getF t fLock = 1 ∧ t.time = s.time ∧ t.cal = s.cal)) ∧
  (∀ s, isSet s fLock = false → Completes .refLost s (fun t => t = s)) ∧
  (∀ s, isSet s fHold = true → Completes .pllRelock s (fun t =>
    getF t fHold = 0 ∧ getF t fRefLost = getF s fRefLost ∧ getF t fLock = getF s fLock ∧ t.time = s.time ∧ t.cal = s.cal)) ∧
  (∀ s, isSet s fHold = false → Completes .pllRelock s (fun t => t = s))) ∧
  ((∀ (s : State) (c : CoreId) (v : Word), supCore s c = true → isSet s fGroupLock = false →
    200 ≤ bitsOf v 11 0 → bitsOf v 11 0 ≤ 4000 →
    Completes (.frameCtrlWrite c v) s (fun t =>
      (getF s fGrpChips ≤ 1 → t.time.pendLen = some (bitsOf v 11 0, frameNo s + 2)) ∧
      t.time.pendLen = some (bitsOf v 11 0, lenTickAt s) ∧ frameNo s + 2 ≤ lenTickAt s ∧
      getF t fLenPending = 1 ∧ getF t fLenRounds = bitsOf v 11 0 ∧ getF t fLenRej = getF s fLenRej ∧
      getF t fOvrLimit = bitsOf v 23 16 ∧ t.time.cur = s.time.cur ∧ now t = now s)) ∧
  (∀ (s : State) (c : CoreId) (v : Word), supCore s c = true → isSet s fGroupLock = true →
    Completes (.frameCtrlWrite c v) s (fun t =>
      t.time = s.time ∧ getF t fLenRounds = getF s fLenRounds ∧ getF t fLenPending = getF s fLenPending ∧
      getF t fLenRej = getF s fLenRej ∧ getF t fOvrLimit = bitsOf v 23 16)) ∧
  (∀ (s : State) (c : CoreId) (v : Word), supCore s c = false →
    exec (.frameCtrlWrite c v) s = .next (busErr c 0x45000010 s) ∧ (busErr c 0x45000010 s).time = s.time))

/-- R60: one crystal cycle, with no step pending and the oscillator running. -/
def Obligations.CalendarCycle : Prop :=
  State.reset.cal.acc = 0 ∧
  ∀ s : State, isSet s fOscFail = false → s.cal.step = none →
    Completes .calCycle s (fun t =>
      (10000000 ≤ s.cal.acc + 2 * calTrim s →
        t.cal.val = (s.cal.val + 3) % 2 ^ 64 ∧ t.cal.acc = s.cal.acc + 2 * calTrim s - 10000000) ∧
      (s.cal.acc + 2 * calTrim s ≤ -10000000 →
        t.cal.val = (s.cal.val + 1) % 2 ^ 64 ∧ t.cal.acc = s.cal.acc + 2 * calTrim s + 10000000) ∧
      (-10000000 < s.cal.acc + 2 * calTrim s → s.cal.acc + 2 * calTrim s < 10000000 →
        t.cal.val = (s.cal.val + 2) % 2 ^ 64 ∧ t.cal.acc = s.cal.acc + 2 * calTrim s))

/-- R61–R64: a step is requested by a supervisor core (another core's write is a bus error) and taken at the next crystal
cycle: the calendar takes the set value, the accumulator takes 2 × TRIM without a threshold, STEP_PENDING clears and
VALID is set. The oscillator's failure and restart. The calendar's own reset. R48, R64: a read of a low word latches the
high words for that requester, and for no other. -/
def Obligations.CalendarAndLatches : Prop :=
  ((∀ (s : State) (c : CoreId) (v : Word), supCore s c = true → Completes (.calStepRequest c v) s (fun t =>
    t.cal.step = some (calSetVal t) ∧ getF t fStepPending = 1 ∧ t.cal.val = s.cal.val ∧ t.cal.acc = s.cal.acc ∧
    t.time = s.time)) ∧
  (∀ (s : State) (c : CoreId) (v : Word), supCore s c = false →
    exec (.calStepRequest c v) s = .next (busErr c 0x45000070 s) ∧ (busErr c 0x45000070 s).cal = s.cal) ∧
  (∀ (s : State) (v : Nat), s.cal.step = some v → isSet s fOscFail = false → Completes .calStepApply s (fun t =>
    t.cal.val = v % 2 ^ 64 ∧ t.cal.acc = s.cal.acc + 2 * calTrim s ∧ t.cal.step = none ∧ t.time = s.time ∧
    getF t fStepPending = 0 ∧ getF t fCalValid = 1)) ∧
  (∀ s : State, (isSet s fOscFail = true ∨ s.cal.step = none) → Completes .calStepApply s (fun t => t = s)) ∧
  (∀ s : State, Completes .oscFail s (fun t => getF t fOscFail = 1 ∧ t.cal = s.cal ∧ t.time = s.time)) ∧
  (∀ s : State, isSet s fOscFail = true → Completes .calCycle s (fun t => t = s)) ∧
  (∀ s : State, Completes .oscRestart s (fun t => getF t fOscFail = 0 ∧ t.cal = s.cal ∧ t.time = s.time)) ∧
  (∀ s : State, Completes .calendarReset s (fun t =>
    t.cal.val = 0 ∧ t.cal.acc = 0 ∧ t.cal.step = none ∧ (∀ r, Tab.getD t.cal.latch r 0 = 0) ∧ getF t fCalValid = 0 ∧
    getF t fCalTrim = 0 ∧ getF t fAlarmEn = 0 ∧ t.time = s.time))) ∧
  ((∀ (s : State) (r : Requester), Completes (.frameCountLoRead r) s (fun t =>
    Tab.getD t.time.fcHi (reqIx r) 0 = BitVec.ofNat 32 (frameNo s / 2 ^ 32) ∧
    ∀ k, k ≠ reqIx r → Tab.getD t.time.fcHi k 0 = Tab.getD s.time.fcHi k 0)) ∧
  (∀ (s : State) (r : Requester), Completes (.turnAbsLoRead r) s (fun t =>
    Tab.getD t.time.taHi (reqIx r) 0 = BitVec.ofNat 32 (now s / 2 ^ 32) ∧
    ∀ k, k ≠ reqIx r → Tab.getD t.time.taHi k 0 = Tab.getD s.time.taHi k 0)) ∧
  (∀ (s : State) (r : Requester), Completes (.calPipRead r) s (fun t =>
    Tab.getD t.cal.latch (reqIx r) 0 = s.cal.val / 65536 ∧ t.cal.val = s.cal.val ∧
    ∀ k, k ≠ reqIx r → Tab.getD t.cal.latch k 0 = Tab.getD s.cal.latch k 0)))

/-- R293, R294: a submission to a page that accepts writes, by the host or through the control processor's view, enters the
inbound ring at IN_TAIL, which advances; the slot is the submit buffer with the bytes written. Into a full ring a host
submission is dropped and counted in REJECTS, its REJECT doorbell bit is set, it is reported as an error of function p
and the buffer keeps the bytes; a submission through the view is then a bus error. R297, R299, R300, R301: writes of
OUT_HEAD (accepted up to OUT_TAIL), DOORBELL_IN (bits are set; a bit that the tick cleared in the same turn stays clear,
R15) and OUT_MASK, by the host or through the control processor's view. A bit of OUT_MASK written 0 whose DOORBELL_OUT
bit is set issues its vector's message, or makes it pending while the vector is masked. R66, R300: a write to the page
of a tenant that is neither ACTIVE nor DORMANT has no effect; at a DORMANT tenant only a doorbell acts, and of it only
the wake-class bits. R308: a page is no other core's. R50, R296–R298: the slots a tick released are placed from turn 24
of the frame on: in the outbound ring, in order, as long as the backlog is empty and the ring has room, and behind it in
the backlog, also in its area of the commons. The first slot after a loss carries GAP. A message for which there is no
room is discarded whole and counted in OUT_LOST; its tenant's OVERFLOW doorbell bit is set. Slots of the backlog take
freed positions in order. CL_OUTBOX states how many slots of a tenant a tick releases; it is written in supervisor mode
within the cluster's window. -/
def Obligations.MailboxPages : Prop :=
  ((∀ (s : State) (r : Requester) (p : PageId) (bytes : List Byte), pageUser r p.val = true → pageSt s p.val = .acts →
    bytes ≠ [] → inFull s p.val = false →
    Completes (.submitCommit r p bytes) s (fun t =>
      getF t (fInTail p.val) = (getF s (fInTail p.val) + 1) % 65536 ∧ getF t (fInHead p.val) = getF s (fInHead p.val) ∧
      getF t (fRejects p.val) = getF s (fRejects p.val) ∧
      ringGet t p.val 0x400 (getF s (fInTail p.val)) =
        padTo 64 (patch (padTo 64 (ten s p.val).submit) (64 - min 64 bytes.length) (bytes.take 64)) ∧
      (∀ a, readB t a = readB s a) ∧ t.devices = s.devices)) ∧
  (∀ (s : State) (p : PageId) (bytes : List Byte), pageSt s p.val = .acts → bytes ≠ [] → inFull s p.val = true →
    Completes (.submitCommit .host p bytes) s (fun t =>
      getF t (fInTail p.val) = getF s (fInTail p.val) ∧ getF t (fRejects p.val) = satAdd (2 ^ 32 - 1) (getF s (fRejects p.val)) 1 ∧
      isSet t (fBellOut p.val 5) = true ∧ t.host.aer = (p.val, 1) :: s.host.aer ∧ t.journal = s.journal ∧
      (ten t p.val).submit = patch (padTo 64 (ten s p.val).submit) (64 - min 64 bytes.length) (bytes.take 64))) ∧
  (∀ (s : State) (p : PageId) (bytes : List Byte), p.val < 256 → pageSt s p.val = .acts → bytes ≠ [] → inFull s p.val = true →
    exec (.submitCommit (.core .cp) p bytes) s = .next (busErr .cp (0x48100000 + 0x1000 * p.val + 0x100) s))) ∧
  ((∀ (s : State) (r : Requester) (p : PageId) (v : Word), pageUser r p.val = true → pageSt s p.val = .acts →
    Completes (.outHeadWrite r p v) s (fun t =>
      getF t (fOutHead p.val) = (if ringCount (getF s (fOutHead p.val)) (bitsOf v 15 0) ≤
          ringCount (getF s (fOutHead p.val)) (getF s (fOutTail p.val)) then bitsOf v 15 0 else getF s (fOutHead p.val)) ∧
      getF t (fOutTail p.val) = getF s (fOutTail p.val))) ∧
  (∀ (s : State) (r : Requester) (p : PageId) (v : Word), pageUser r p.val = true → pageSt s p.val = .acts →
    Completes (.doorbellInWrite r p v) s (fun t =>
      reg t (pageK p.val 0x14) = reg s (pageK p.val 0x14) ||| (v &&& ~~~hotBits s (pageK p.val 0x14)) ∧
      getF t (fInTail p.val) = getF s (fInTail p.val))) ∧
  (∀ (s : State) (r : Requester) (p : PageId) (v : Word), pageUser r p.val = true → pageSt s p.val = .acts →
    Completes (.outMaskWrite r p v) s (fun t =>
      bitsOf (reg t (pageK p.val 0x20)) 7 0 = bitsOf v 7 0 ∧ getF t (fOutTail p.val) = getF s (fOutTail p.val) ∧
      ∀ b, b < 8 → v.getLsbD b = false → isSet s (fBellOut p.val b) = true → isMember s = false →
        (isSet s (bit (pageK p.val (0xF00C + 16 * bellVector b)) 0) = false → (p.val, bellVector b) ∈ t.host.msix) ∧
        (isSet s (bit (pageK p.val (0xF00C + 16 * bellVector b)) 0) = true →
          isSet t (bit (pageK p.val 0xF800) (bellVector b)) = true)))) ∧
  ((∀ (s : State) (r : Requester) (p : PageId) (bytes : List Byte) (v : Word), pageUser r p.val = true →
    pageSt s p.val ≠ .acts →
    exec (.submitCommit r p bytes) s = .next s ∧ exec (.outHeadWrite r p v) s = .next s ∧
    exec (.outMaskWrite r p v) s = .next s) ∧
  (∀ (s : State) (r : Requester) (p : PageId) (v : Word), pageUser r p.val = true → pageSt s p.val = .discard →
    exec (.doorbellInWrite r p v) s = .next s) ∧
  (∀ (s : State) (r : Requester) (p : PageId) (v : Word), pageUser r p.val = true → pageSt s p.val = .dormant →
    Completes (.doorbellInWrite r p v) s (fun t =>
      reg t (pageK p.val 0x14) =
        reg s (pageK p.val 0x14) ||| (v &&& 0xFF000000 &&& ~~~hotBits s (pageK p.val 0x14)))) ∧
  (∀ (s : State) (c : CoreId) (p : PageId) (bytes : List Byte) (v : Word), c ≠ .cp →
    exec (.submitCommit (.core c) p bytes) s = .next (busErr c (0x48100000 + 0x1000 * p.val + 0x100) s) ∧
    exec (.outHeadWrite (.core c) p v) s = .next (busErr c (0x48100000 + 0x1000 * p.val + 0x10) s) ∧
    exec (.doorbellInWrite (.core c) p v) s = .next (busErr c (0x48100000 + 0x1000 * p.val + 0x14) s) ∧
    exec (.outMaskWrite (.core c) p v) s = .next (busErr c (0x48100000 + 0x1000 * p.val + 0x20) s))) ∧
  ((∀ (s : State) (t : TenantId), (ten s t.val).released ≠ [] → (ten s t.val).gapNext = false →
    (ten s t.val).released.length ≤ ringRoom s t.val + (240 - (ten s t.val).backlog.length) →
    Completes (.mailboxPlace t) s (fun u =>
      now u = max (now s) (s.time.cur.start + 24) ∧ getF u (fOutHead t.val) = getF s (fOutHead t.val) ∧
      getF u (fOutLost t.val) = getF s (fOutLost t.val) ∧ (ten u t.val).released = [] ∧
      (let n := min (ten s t.val).released.length (ringRoom s t.val)
       getF u (fOutTail t.val) = (getF s (fOutTail t.val) + n) % 65536 ∧
       (∀ i, i < n → ringGet u t.val 0x800 (getF s (fOutTail t.val) + i) = padTo 64 (nth [] (ten s t.val).released i) ∧
         isSet u (fBellOut t.val (kindBell (nth [] (ten s t.val).released i))) = true) ∧
       (ten u t.val).backlog =
         (ten s t.val).backlog ++ ((ten s t.val).released.drop n).map (fun sl => ((ten s t.val).relTurn, sl)) ∧
       ∀ i, i < (ten s t.val).released.length - n →
         readBytes u (0x10100000 + 0x4000 * t.val + 64 * (((ten s t.val).backAt + i) % 240)) 64 =
           padTo 64 (nth [] (ten s t.val).released (n + i))))) ∧
  (∀ (s : State) (t : TenantId) (sl : Slot), (ten s t.val).released = [sl] → (ten s t.val).gapNext = true →
    0 < ringRoom s t.val →
    Completes (.mailboxPlace t) s (fun u =>
      getF u (fOutTail t.val) = (getF s (fOutTail t.val) + 1) % 65536 ∧ (ten u t.val).gapNext = false ∧
      ringGet u t.val 0x800 (getF s (fOutTail t.val)) = padTo 64 (slotFlag 2 sl))) ∧
  (∀ (s : State) (t : TenantId), (ten s t.val).released ≠ [] → headMsg (ten s t.val).released = ((ten s t.val).released, []) →
    ringRoom s t.val + (240 - (ten s t.val).backlog.length) < (ten s t.val).released.length →
    Completes (.mailboxPlace t) s (fun u =>
      getF u (fOutLost t.val) = satAdd (2 ^ 32 - 1) (getF s (fOutLost t.val)) (ten s t.val).released.length ∧
      isSet u (fBellOut t.val 4) = true ∧ (ten u t.val).gapNext = true ∧ (ten u t.val).released = [] ∧
      (ten u t.val).backlog = (ten s t.val).backlog ∧ getF u (fOutTail t.val) = getF s (fOutTail t.val))) ∧
  (∀ (s : State) (t : TenantId), (ten s t.val).released = [] → Completes (.mailboxPlace t) s (fun u => u = s)) ∧
  (∀ (s : State) (p : PageId), Completes (.backlogMove p) s (fun u =>
    let n := min (ten s p.val).backlog.length (ringFree s p.val)
    (ten u p.val).backlog = (ten s p.val).backlog.drop n ∧ getF u (fOutHead p.val) = getF s (fOutHead p.val) ∧
    getF u (fOutTail p.val) = (getF s (fOutTail p.val) + n) % 65536 ∧
    (n ≠ 0 → getF u (fBacklog p.val) = ((ten s p.val).backlog.length - n) % 256) ∧
    ∀ i, i < n → ringGet u p.val 0x800 (getF s (fOutTail p.val) + i) =
      padTo 64 (nth (0, []) (ten s p.val).backlog i).2)) ∧
  (∀ (s : State) (c : CoreId) (n : ClusterId) (v : Word), castHolds c n.val s = none →
    (inWindow n.val c = true → supCore s c = true → Completes (.clOutboxWrite c n v) s (fun u =>
      (ten u (16 * n.val + bitsOf v 11 8)).outbox = some (min 32 (bitsOf v 5 0)) ∧
      ∀ k, k ≠ 16 * n.val + bitsOf v 11 8 → ten u k = ten s k)) ∧
    (inWindow n.val c = false ∨ supCore s c = false →
      exec (.clOutboxWrite c n v) s = .next (busErr c (winK n.val 0x140) s))))

/-- R303: the tenant commands that act on no device, and DEVICE_QUERY, with their responses; each response is staged behind
what is staged already. A PART that does not exist, and a SELECT that does not, is BAD_ARGUMENT. R291, R303: a command
slot with a reserved FLAGS bit, with a payload that is too short or too long, or that names a device which does not
exist, is answered BAD_ARGUMENT and has no other effect on a device, a port or a register. R66: a tenant that is not
ACTIVE is handed nothing. -/
def Obligations.TenantCommands : Prop :=
  ((∀ (s : State) (x : TCmd), CmdOk s x 0 → Completes (.kysanNop x) s (fun u =>
    Staged s u x.tenant.val (answer x 1 0 (if x.device.toNat < 16 then stateCode (cmdDev s x) else 0) []))) ∧
  (∀ (s : State) (x : TCmd) (pl : List Byte), CmdOk s x 1 → identify s x.tenant.val (imgB x.payload 0) = some pl →
    Completes (.identify x) s (fun u =>
      Staged s u x.tenant.val (answer x 2 0 (if x.device.toNat < 16 then stateCode (cmdDev s x) else 0) pl))) ∧
  (∀ (s : State) (x : TCmd), CmdOk s x 1 → 2 < imgB x.payload 0 →
    Completes (.identify x) s (fun u =>
      Staged s u x.tenant.val (answer x 2 2 (failState s x.tenant.val x.device.toNat) []))) ∧
  (∀ (s : State) (x : TCmd), CmdOk s x 0 → Completes (.tenantStatus x) s (fun u =>
    Staged s u x.tenant.val (answer x 3 0 (if x.device.toNat < 16 then stateCode (cmdDev s x) else 0)
      (statusPayload s x.tenant.val)))) ∧
  (∀ (s : State) (x : TCmd), CmdOk s x 1 → DevFree s x → Completes (.deviceQuery x) s (fun u =>
    Staged s u x.tenant.val
      (if imgB x.payload 0 = 0 then answer x 4 0 (stateCode (cmdDev s x)) (devRecord s (cmdDev s x))
       else if imgB x.payload 0 = 1 then
        answer x 4 0 (stateCode (cmdDev s x)) (((cmdDev s x).reading.elim [] (fun r => r.2)).take 52)
       else answer x 4 2 (stateCode (cmdDev s x)) []) ∨ 52 < ((cmdDev s x).reading.elim [] (fun r => r.2)).length)) ∧
  (∀ (s : State) (x : TCmd), CmdOk s x 0 → Completes (.clearDegraded x) s (fun u =>
    getF u (fDegraded x.tenant.val) = 0 ∧ getF u (fTotal x.tenant.val) = getF s (fTotal x.tenant.val) ∧
    Staged s u x.tenant.val (answer x 9 0 (if x.device.toNat < 16 then stateCode (cmdDev s x) else 0) [])))) ∧
  (∀ q ∈ ([(.kysanNop, 1, 0), (.identify, 2, 1), (.tenantStatus, 3, 0), (.deviceQuery, 4, 1), (.bind, 5, 32), (.unbind, 6, 0),
   (.dataSend, 7, 0), (.tenantReset, 8, 0), (.clearDegraded, 9, 0), (.loadClear, 0x0A, 0), (.scannerEnable, 0x90, 0),
   (.scannerDisable, 0x91, 0), (.scannerBeep, 0x92, 0), (.units, 0xA0, 1), (.tare, 0xA1, 0), (.zero, 0xA2, 0),
   (.weigh, 0xA3, 0), (.text, 0xB0, 3), (.brightness, 0xB1, 1), (.cursor, 0xB2, 3), (.attention, 0xB3, 0),
   (.drawerKick, 0xC0, 0), (.codepage, 0xD0, 2), (.density, 0xD1, 1), (.printSeg, 0xD2, 1), (.cut, 0xD3, 1),
   (.logo, 0xD4, 1), (.pattern, 0xE0, 3), (.keyLeds, 0xF0, 4), (.keyLock, 0xF1, 1), (.keypadBeep, 0xF2, 0)] : List ((TCmd → Instr) × Nat × Nat)), ∀ (s : State) (x : TCmd),
    (tActive s x.tenant.val = true →
      (16 ≤ x.flags.toNat ∨ 52 < x.payload.length ∨ x.payload.length < q.2.2 ∨ (isDevOp q.2.1 = true ∧ 16 ≤ x.device.toNat)) →
      Completes (q.1 x) s (fun u =>
        Staged s u x.tenant.val (answer x q.2.1 2 (failState s x.tenant.val x.device.toNat) []) ∧
        u.devices = s.devices ∧ u.ports = s.ports ∧ u.regs = s.regs)) ∧
    (tActive s x.tenant.val = false → exec (q.1 x) s = .next s))

/-- R69, R70, R81, R303: a bind that is allowed keeps the record and takes the port, and one that is not is BAD_ARGUMENT, or
a state conflict at a device that is bound. Unbinding frees the port and reports how many one-shots it discards. Raw
bytes are staged toward the port as a one-shot with the command's tag; at a device that is not READY they are a state
conflict. -/
def Obligations.DeviceBinding : Prop :=
  (∀ (s : State) (x : TCmd), CmdOk s x 32 → DevFree s x → stateCode (cmdDev s x) = 0 →
    bindOk s x.tenant.val (padTo 32 x.payload) = true →
    Completes (.bind x) s (fun u =>
      (cmdDev u x).bound = true ∧ (cmdDev u x).cls = imgB x.payload 0 ∧ (cmdDev u x).present = imgB x.payload 1 ∧
      (cmdDev u x).port = portOf s (leAt x.payload 2 2) ∧ (cmdDev u x).tapt = leAt x.payload 4 4 ∧
      (cmdDev u x).flags = imgB x.payload 9 ∧ (cmdDev u x).windowUs = leAt x.payload 12 4 ∧
      (portOf s (leAt x.payload 2 2) < 0xFFFF →
        (port u (portOf s (leAt x.payload 2 2))).bound = some (devIx x.tenant.val x.device.toNat)) ∧
      Staged s u x.tenant.val (answer x 5 0 0 []))) ∧
  (∀ (s : State) (x : TCmd), CmdOk s x 32 → DevFree s x → stateCode (cmdDev s x) = 0 →
    bindOk s x.tenant.val (padTo 32 x.payload) = false →
    Completes (.bind x) s (fun u => Staged s u x.tenant.val (answer x 5 2 0 []) ∧ u.devices = s.devices ∧ u.ports = s.ports)) ∧
  (∀ (s : State) (x : TCmd), CmdOk s x 32 → DevFree s x → stateCode (cmdDev s x) ≠ 0 →
    Completes (.bind x) s (fun u =>
      Staged s u x.tenant.val (answer x 5 3 (stateCode (cmdDev s x)) []) ∧ u.devices = s.devices ∧ u.ports = s.ports)) ∧
  (∀ (s : State) (x : TCmd), CmdOk s x 0 → DevFree s x → stateCode (cmdDev s x) ≠ 0 →
    Completes (.unbind x) s (fun u =>
      (cmdDev u x).port = 0xFFFF ∧ (cmdDev u x).desired = [] ∧ (cmdDev u x).seq = none ∧
      (cmdDev u x).bound = (cmdDev s x).chan.isSome ∧
      ((cmdDev s x).port < 0xFFFF → (port u (cmdDev s x).port).bound = none) ∧
      (pendingOneshots s x.tenant.val x.device.toNat = [] →
        Staged s u x.tenant.val (answer x 6 0 (stateCode (cmdDev s x)) [0, 0])))) ∧
  (∀ (s : State) (x : TCmd), CmdOk s x 0 → DevFree s x → stateCode (cmdDev s x) = 0 →
    Completes (.unbind x) s (fun u => Staged s u x.tenant.val (answer x 6 3 0 []) ∧ u.devices = s.devices)) ∧
  (∀ (s : State) (x : TCmd), CmdOk s x 0 → DevFree s x → (cmdDev s x).present = 0 → isReady (stateCode (cmdDev s x)) = true →
    (cmdDev s x).port ≠ 0xFFFF → x.payload ≠ [] → txRoom s (cmdDev s x).port x.payload.length = true →
    Completes (.dataSend x) s (fun u =>
      (ten u x.tenant.val).outs = (ten s x.tenant.val).outs ++
        [{ port := (cmdDev s x).port, tenant := x.tenant.val, dev := x.device.toNat, gen := getF s (fGen x.tenant.val),
           tag := some x.tag.toNat, bytes := x.payload.map (fun b => BitVec.ofNat 9 b.toNat),
           fin := decide (x.flags.toNat / 2 % 2 = 1), near := false, late := false }] ∧
      Staged s u x.tenant.val (answer x 7 0 (stateCode (cmdDev s x)) []))) ∧
  (∀ (s : State) (x : TCmd), CmdOk s x 0 → DevFree s x → (cmdDev s x).present = 0 →
    isReady (stateCode (cmdDev s x)) = false →
    Completes (.dataSend x) s (fun u =>
      Staged s u x.tenant.val (answer x 7 3 (stateCode (cmdDev s x)) []) ∧ u.devices = s.devices)) ∧
  (∀ (s : State) (x : TCmd), CmdOk s x 0 → DevFree s x → (cmdDev s x).present = 1 → stateCode (cmdDev s x) ≠ 0 →
    Completes (.dataSend x) s (fun u =>
      Staged s u x.tenant.val (answer x 7 2 (stateCode (cmdDev s x)) []) ∧ u.devices = s.devices)) ∧
  (∀ (s : State) (x : TCmd) (img : List Byte), CmdOk s x 0 → DevFree s x → (cmdDev s x).present = 2 →
    stateCode (cmdDev s x) ≠ 0 → tenantSide s (cmdDev s x) = some img → x.flags.toNat / 2 % 2 = 0 →
    firstEnd (inFormats img) ((cmdDev s x).xbuf ++ x.payload) = none →
    Completes (.dataSend x) s (fun u =>
      (cmdDev u x).xbuf = (cmdDev s x).xbuf ++ x.payload ∧
      Staged s u x.tenant.val (answer x 7 0 (stateCode (cmdDev s x)) [])))

/-- R68, R93–R95: a tenant's own reset: GEN advances, the tenant is RESETTING, and its waiting work is gone. A supervisor's
write of TENANT_RESET.GO does the same (another core's is a bus error); a tenant that is not ACTIVE is left as it is.
The reset completes once its older transfers are fenced: the page is rebuilt, RESET_INFO and the doorbell report it, and
the tenant is ACTIVE, or DORMANT in a dark cluster, or DISABLED without its function. -/
def Obligations.TenantResets : Prop :=
  (∀ (s : State) (x : TCmd), tActive s x.tenant.val = true → x.flags.toNat < 16 → x.payload.length ≤ 52 →
    Completes (.tenantReset x) s (fun u =>
      getF u (fTState x.tenant.val) = 2 ∧ getF u (fGen x.tenant.val) = (getF s (fGen x.tenant.val) + 1) % 65536 ∧
      (ten u x.tenant.val).resetAt = some (now s) ∧ (ten u x.tenant.val).backlog = [] ∧ (ten u x.tenant.val).outs = [] ∧
      (ten u x.tenant.val).handed = [] ∧ (ten u x.tenant.val).released = [] ∧ (ten u x.tenant.val).outFill = 0)) ∧
  (∀ (s : State) (c : CoreId) (v : Word), supCore s c = true → v.getLsbD 8 = true → tActive s (bitsOf v 7 0) = true →
    Completes (.tenantResetGo c v) s (fun u =>
      getF u (fTState (bitsOf v 7 0)) = 2 ∧ getF u (fGen (bitsOf v 7 0)) = (getF s (fGen (bitsOf v 7 0)) + 1) % 65536 ∧
      (ten u (bitsOf v 7 0)).resetAt = some (now s) ∧ (ten u (bitsOf v 7 0)).outs = [] ∧
      (ten u (bitsOf v 7 0)).handed = [])) ∧
  (∀ (s : State) (c : CoreId) (v : Word),
    (supCore s c = true → v.getLsbD 8 = false ∨ tActive s (bitsOf v 7 0) = false → exec (.tenantResetGo c v) s = .next s) ∧
    (supCore s c = false → exec (.tenantResetGo c v) s = .next (busErr c 0x4800C400 s))) ∧
  (∀ (s : State) (t : TenantId), getF s (fTState t.val) = 2 → fencedAll s t.val = true →
    Completes (.tenantResetComplete t) s (fun u =>
      getF u (fTState t.val) = (if ((ten s t.val).configured && vfOn s t.val) = false then 0
        else if 2 ≤ getF s (fPwr (t.val / 16)) then 3 else 1) ∧
      getF u (fGen t.val) = getF s (fGen t.val) ∧ reg u (0x45000400 + 4 * t.val) = 0 ∧
      getF u (fInHead t.val) = 0 ∧ getF u (fInTail t.val) = 0 ∧ getF u (fOutHead t.val) = 0 ∧ getF u (fOutTail t.val) = 0 ∧
      reg u (pageK t.val 0x2C) =
        BitVec.ofNat 32 (65536 * getF s (fGen t.val) + min 65535 (ten s t.val).resetDisc) ∧
      isSet u (fBellOut t.val 6) = true ∧ (ten u t.val).resetAt = none)) ∧
  (∀ (s : State) (t : TenantId), getF s (fTState t.val) ≠ 2 ∨ fencedAll s t.val = false →
    exec (.tenantResetComplete t) s = .next s)

/-- R80, R81, R304: a level set on a device in class presentation while its port is away is kept as desired state and
answered OK; a one-shot or an exclusive command is then a state conflict. R81, R112, R304, R305: a class operation at a
READY device in class presentation whose partner-side machine takes it is answered OK: a level is kept as desired state,
and an exclusive command leaves its sequence running. Where no transition takes it, it is a state conflict. (The
machine's own actions are `a`; those that pass an input on, or lose the message, are left to the device's further work.)
R81, R86, R303: a class operation at a device that a sequence keeps BUSY, or at one that is not bound, is answered
STATE_CONFLICT, at a bound device in another presentation BAD_ARGUMENT, and nothing of the device changes. -/
def Obligations.ClassOperations : Prop :=
  (∀ p ∈ ([(.scannerEnable, 0x10, 0), (.scannerDisable, 0x11, 0), (.units, 0x20, 0), (.text, 0x30, 0), (.brightness, 0x31, 0),
   (.cursor, 0x32, 0), (.codepage, 0x50, 0), (.density, 0x51, 0), (.pattern, 0x60, 0), (.keyLeds, 0x70, 0),
   (.keyLock, 0x71, 0), (.scannerBeep, 0x12, 1), (.weigh, 0x23, 1), (.attention, 0x33, 1), (.printSeg, 0x52, 1),
   (.logo, 0x54, 1), (.keypadBeep, 0x72, 1), (.tare, 0x21, 2), (.zero, 0x22, 2), (.drawerKick, 0x40, 2), (.cut, 0x53, 2)] : List ((TCmd → Instr) × Nat × Nat)), ∀ (s : State) (x : TCmd) (m : MsgInfo), ClassOk s x p.2.1 m →
    stateCode (cmdDev s x) ≠ 0 → stateCode (cmdDev s x) ≠ 3 → isReady (stateCode (cmdDev s x)) = false →
    (p.2.2 = 0 → Completes (p.1 x) s (fun u =>
      Tab.find (cmdDev u x).desired (levelKey p.2.1 x.payload) = some x.payload ∧
      Staged s u x.tenant.val (answer x (0x80 + p.2.1) 0 (stateCode (cmdDev s x)) []))) ∧
    (p.2.2 ≠ 0 → Completes (p.1 x) s (fun u =>
      Staged s u x.tenant.val (answer x (0x80 + p.2.1) 3 (stateCode (cmdDev s x)) []) ∧ u.devices = s.devices))) ∧
  (∀ p ∈ ([(.scannerEnable, 0x10, 0), (.scannerDisable, 0x11, 0), (.units, 0x20, 0), (.text, 0x30, 0), (.brightness, 0x31, 0),
   (.cursor, 0x32, 0), (.codepage, 0x50, 0), (.density, 0x51, 0), (.pattern, 0x60, 0), (.keyLeds, 0x70, 0),
   (.keyLock, 0x71, 0), (.scannerBeep, 0x12, 1), (.weigh, 0x23, 1), (.attention, 0x33, 1), (.printSeg, 0x52, 1),
   (.logo, 0x54, 1), (.keypadBeep, 0x72, 1), (.tare, 0x21, 2), (.zero, 0x22, 2), (.drawerKick, 0x40, 2), (.cut, 0x53, 2)] : List ((TCmd → Instr) × Nat × Nat)), ∀ (s : State) (x : TCmd) (m : MsgInfo), ClassOk s x p.2.1 m → stateCode (cmdDev s x) = 2 →
    (cmdDev s x).chan = none →
    (∀ a : FAcc, opFire s x p.2.1 p.2.2 = some (true, a) → a.out = [] → a.lost = false →
      Completes (p.1 x) s (fun u =>
        Staged a.s u x.tenant.val (answer x (0x80 + p.2.1) 0 2 []) ∧
        (p.2.2 = 0 → Tab.find (cmdDev u x).desired (levelKey p.2.1 x.payload) = some x.payload) ∧
        (p.2.2 = 2 → (cmdDev u x).seq =
          some { tag := x.tag.toNat, code := p.2.1, timeoutUs := 500000, sent := a.sent, ends := none }) ∧
        (p.2.2 ≠ 2 → (cmdDev u x).seq = (cmdDev a.s x).seq))) ∧
    ((∀ a : FAcc, opFire s x p.2.1 p.2.2 ≠ some (true, a)) →
      Completes (p.1 x) s (fun u =>
        Staged s u x.tenant.val (answer x (0x80 + p.2.1) 3 2 []) ∧ (cmdDev u x).desired = (cmdDev s x).desired ∧
        (cmdDev u x).seq = (cmdDev s x).seq))) ∧
  (∀ p ∈ ([(.scannerEnable, 0x10, 0), (.scannerDisable, 0x11, 0), (.units, 0x20, 0), (.text, 0x30, 0), (.brightness, 0x31, 0),
   (.cursor, 0x32, 0), (.codepage, 0x50, 0), (.density, 0x51, 0), (.pattern, 0x60, 0), (.keyLeds, 0x70, 0),
   (.keyLock, 0x71, 0), (.scannerBeep, 0x12, 1), (.weigh, 0x23, 1), (.attention, 0x33, 1), (.printSeg, 0x52, 1),
   (.logo, 0x54, 1), (.keypadBeep, 0x72, 1), (.tare, 0x21, 2), (.zero, 0x22, 2), (.drawerKick, 0x40, 2), (.cut, 0x53, 2)] : List ((TCmd → Instr) × Nat × Nat)), ∀ (s : State) (x : TCmd) (m : MsgInfo),
    (ClassOk s x p.2.1 m → stateCode (cmdDev s x) = 3 →
      Completes (p.1 x) s (fun u => Staged s u x.tenant.val (answer x (0x80 + p.2.1) 3 3 []) ∧ u.devices = s.devices)) ∧
    (CmdOk s x (msgLen p.2.1) → DevFree s x → msgArgOk p.2.1 x.payload = true → stateCode (cmdDev s x) = 0 →
      Completes (p.1 x) s (fun u => Staged s u x.tenant.val (answer x (0x80 + p.2.1) 3 0 []) ∧ u.devices = s.devices)) ∧
    (CmdOk s x (msgLen p.2.1) → DevFree s x → (cmdDev s x).present ≠ 1 → stateCode (cmdDev s x) ≠ 0 →
      Completes (p.1 x) s (fun u =>
        Staged s u x.tenant.val (answer x (0x80 + p.2.1) 2 (stateCode (cmdDev s x)) []) ∧ u.devices = s.devices)))

/-- R171, R172, R303: a device with a load channel: LOAD_CLEAR stages CLEAR at the channel, or is a state conflict after a
trip whose cause it may not clear; without a channel it is BAD_ARGUMENT. A drawer's kick stages KICK and begins its
sequence. -/
def Obligations.LoadChannelDevices : Prop :=
  (∀ (s : State) (x : TCmd) (c : Nat), CmdOk s x 0 → DevFree s x → (cmdDev s x).chan = some c →
    (lcState s c ≠ 5 ∨ getF s (fLcCause c) = 2 ∨ getF s (fLcCause c) = 3 ∨ getF s (fLcCause c) = 5) →
    Completes (.loadClear x) s (fun u =>
      ((chan u c).staged.map (fun w => w.word)) = some 6 ∧
      Staged s u x.tenant.val (answer x 0x0A 0 (stateCode (cmdDev s x)) []))) ∧
  (∀ (s : State) (x : TCmd) (c : Nat), CmdOk s x 0 → DevFree s x → (cmdDev s x).chan = some c → lcState s c = 5 →
    getF s (fLcCause c) ≠ 2 → getF s (fLcCause c) ≠ 3 → getF s (fLcCause c) ≠ 5 →
    Completes (.loadClear x) s (fun u => Staged s u x.tenant.val (answer x 0x0A 3 6 []) ∧ u.chans = s.chans)) ∧
  (∀ (s : State) (x : TCmd), CmdOk s x 0 → DevFree s x → (cmdDev s x).chan = none →
    Completes (.loadClear x) s (fun u =>
      Staged s u x.tenant.val (answer x 0x0A 2 (stateCode (cmdDev s x)) []) ∧ u.chans = s.chans)) ∧
  (∀ (s : State) (x : TCmd) (c : Nat), CmdOk s x 0 → DevFree s x → (cmdDev s x).present = 1 → (cmdDev s x).cls = 3 →
    (cmdDev s x).chan = some c → stateCode (cmdDev s x) = 2 →
    Completes (.drawerKick x) s (fun u =>
      ((chan u c).staged.map (fun w => w.word)) = some 3 ∧
      (cmdDev u x).seq = some { tag := x.tag.toNat, code := 0x40, timeoutUs := 500000, sent := true, ends := none } ∧
      Staged s u x.tenant.val (answer x 0xC0 0 2 [])))

/-- R50, R76, R85, R111: the work of a tick: hand-off sets are processed from turn 24 of the frame; a command slot that is
handed acts as the command does. A machine timer and a sequence's window that end become items for the tenant. R51: a
done mark is recorded for the tenant named, after the side-effect buffer of a lane core; a pair whose copies' digests
differ rolls back instead; a write from user mode or from outside the cluster's window is a bus error. -/
def Obligations.HandoffAndTimers : Prop :=
  (∀ (s : State) (t : TenantId), (ten s t.val).handed ≠ [] → tActive s t.val = true →
    Completes (.handoffProcess t) s (fun u => now u = max (now s) (s.time.cur.start + 24))) ∧
  (∀ (s : State) (t : TenantId), (ten s t.val).handed ≠ [] → tActive s t.val = true →
    (∀ h ∈ (ten s t.val).handed, h.items = [] ∧ h.slots = []) →
    (∀ d, d < 16 → (dev s t.val d).carried = [] ∧ (dev s t.val d).reapply = false) →
    Completes (.handoffProcess t) s (fun u =>
      (ten u t.val).handed = [] ∧ (ten u t.val).hadWork = true ∧ u.devices = s.devices)) ∧
  (∀ q ∈ ([(.kysanNop, 1, 0), (.identify, 2, 1), (.tenantStatus, 3, 0), (.deviceQuery, 4, 1), (.bind, 5, 32), (.unbind, 6, 0),
   (.dataSend, 7, 0), (.tenantReset, 8, 0), (.clearDegraded, 9, 0), (.loadClear, 0x0A, 0), (.scannerEnable, 0x90, 0),
   (.scannerDisable, 0x91, 0), (.scannerBeep, 0x92, 0), (.units, 0xA0, 1), (.tare, 0xA1, 0), (.zero, 0xA2, 0),
   (.weigh, 0xA3, 0), (.text, 0xB0, 3), (.brightness, 0xB1, 1), (.cursor, 0xB2, 3), (.attention, 0xB3, 0),
   (.drawerKick, 0xC0, 0), (.codepage, 0xD0, 2), (.density, 0xD1, 1), (.printSeg, 0xD2, 1), (.cut, 0xD3, 1),
   (.logo, 0xD4, 1), (.pattern, 0xE0, 3), (.keyLeds, 0xF0, 4), (.keyLock, 0xF1, 1), (.keypadBeep, 0xF2, 0)] : List ((TCmd → Instr) × Nat × Nat)), ∀ (s : State) (t : TenantId) (x : TCmd) (f : Nat) (b : Word), x.tenant = t →
    (ten s t.val).handed = [{ frame := f, items := [], slots := [cmdSlot q.2.1 x], bells := b }] → tActive s t.val = true →
    (∀ d, d < 16 → (dev s t.val d).carried = [] ∧ (dev s t.val d).reapply = false) →
    exec (.handoffProcess t) s = exec (q.1 x)
      (updTen t.val (fun y => { y with handed := [], hadWork := true }) (goTo (s.time.cur.start + 24) s))) ∧
  (∀ (s : State) (t : TenantId), (ten s t.val).handed = [] ∨ tActive s t.val = false →
    exec (.handoffProcess t) s = .next s) ∧
  (∀ (s : State) (t : TenantId) (d : DevId) (q : SeqSt) (e : Nat), (dev s t.val d.val).seq = some q → q.ends = some e →
    dueNow s e = true →
    Completes (.seqTimeout t d) s (fun u =>
      now u = max (now s) e ∧ (dev u t.val d.val).seq = some { q with timeoutUs := 0, ends := none } ∧
      ∃ h : HItem, (ten u t.val).incoming = (ten s t.val).incoming ++ [h] ∧ h.item = .seqEnd ∧ h.dev = d.val ∧
        h.turn = max (now s) e)) ∧
  (∀ (s : State) (t : TenantId) (d : DevId) (side : Fin 2) (k : Fin 4) (e : Nat),
    (machSt (dev s t.val d.val) side.val).timers[k.val]? = some (.run e) → dueNow s e = true →
    Completes (.machineTimerExpiry t d side k) s (fun u =>
      now u = max (now s) e ∧ (machSt (dev u t.val d.val) side.val).timers[k.val]? = some .expired ∧
      ∃ h : HItem, (ten u t.val).incoming = (ten s t.val).incoming ++ [h] ∧ h.item = .timer side.val k.val ∧ h.dev = d.val ∧
        h.turn = max (now s) e)) ∧
  (∀ (s : State) (c : CoreId) (n : ClusterId) (v : Word) (agree : Bool), castHolds c n.val s = none →
    (inWindow n.val c = true → supCore s c = true →
      (isThread c = true ∨ isPair s (runIx s c) = false ∨ agree = true →
        Completes (.clFrameDone c n v agree) s (fun u => (ten u (16 * n.val + bitsOf v 3 0)).done = true)) ∧
      (isThread c = false → isPair s (runIx s c) = true → agree = false →
        exec (.clFrameDone c n v agree) s = .next (mismatch (runIx s c) 2 s))) ∧
    (inWindow n.val c = false ∨ supCore s c = false →
      exec (.clFrameDone c n v agree) s = .next (busErr c (winK n.val 0x100) s)))

/-- R121, R122, R125, R467: an attach window that ends at an ABSENT or LOST port records attach: without a settlement of its
table that is VALID and current, probing begins with the first CONTACT probe, and otherwise the verify probe is
exchanged. An attach try is an exchange of the first CONTACT probe, and schedules the next try. Neither acts in another
state of the port, while it is bypassed, or before its turn. R121, R122, R126, R467: a window that ends without a reply
repeats the request while retries are left; when none is left, an attach try is over, and the last CONTACT probe of a
probing leaves the port ABSENT. The guard after a switch is followed by the confirm probe, in a verification by the
verify probe in the settled mode, and that after a failed switch by the fallback to the contact probe. -/
def Obligations.AttachAndProbing : Prop :=
  ((∀ (s : State) (p : PortId) (img : List Byte) (e q : Nat), Served s p.val img →
    (port s p.val).state = 0 ∨ (port s p.val).state = 5 → (port s p.val).attachEnd = some e → dueNow s e = true →
    Known s p.val img = false →
    firstContact img = some q → Sendable img q (modeCmdset img (modeOf img q (nmodes img - 1))) →
    Completes (.attachWindowEnd p) s (fun u =>
      now u = max (now s) e ∧ (port u p.val).state = 1 ∧ (port u p.val).attachEnd = none ∧
      (port u p.val).probing.map (fun b => b.phase) = some (.contact q) ∧
      (port u p.val).probing.map (fun b => b.left) = some (probeRetries img q))) ∧
  (∀ (s : State) (p : PortId) (img : List Byte) (e : Nat), Served s p.val img →
    (port s p.val).state = 0 ∨ (port s p.val).state = 5 → (port s p.val).attachEnd = some e → dueNow s e = true →
    Known s p.val img = true →
    Sendable img (verifyProbe img) (modeCmdset img (modeOf img (verifyProbe img) (settleOf s p.val).mode)) →
    Completes (.attachWindowEnd p) s (fun u =>
      (port u p.val).state = (if (port s p.val).state = 5 then 6 else 1) ∧ (port u p.val).attachEnd = none ∧
      (port u p.val).probing.map (fun b => (b.phase, b.probe, b.left)) =
        some (.verify, verifyProbe img, probeRetries img (verifyProbe img)))) ∧
  (∀ (s : State) (p : PortId),
    (port s p.val).bypassed = true ∨ ((port s p.val).state ≠ 0 ∧ (port s p.val).state ≠ 5) ∨
      (∀ e, (port s p.val).attachEnd = some e → dueNow s e = false) →
    exec (.attachWindowEnd p) s = .next s) ∧
  (∀ (s : State) (p : PortId),
    (port s p.val).bypassed = true ∨ ((port s p.val).state ≠ 0 ∧ (port s p.val).state ≠ 5) ∨
      (port s p.val).probing ≠ none ∨ (∀ e, (port s p.val).tryAt = some e → dueNow s e = false) →
    exec (.attachTry p) s = .next s) ∧
  (∀ (s : State) (p : PortId) (img : List Byte) (e q : Nat), Served s p.val img →
    (port s p.val).state = 0 ∨ (port s p.val).state = 5 →
    (port s p.val).probing = none → (port s p.val).tryAt = some e → dueNow s e = true →
    firstContact img = some q → Sendable img q (modeCmdset img (modeOf img q (nmodes img - 1))) →
    Completes (.attachTry p) s (fun u =>
      (port u p.val).state = (port s p.val).state ∧ (port u p.val).tryAt = some (max (now s) e + usTurns (attachUs img)) ∧
      (port u p.val).probing.map (fun b => b.phase) = some (.tryAttach q)))) ∧
  ((∀ (s : State) (p : PortId) (img : List Byte) (b : Probing) (e n : Nat), portImg s p.val = some img →
    (port s p.val).probing = some b → inExchange b = true → b.win = some e → dueNow s e = true → b.left = n + 1 →
    Sendable img b.probe (phaseV0 img b (settleOf s p.val).mode) →
    Completes (.probeWindowEnd p) s (fun u =>
      (port u p.val).probing.map (fun x => (x.phase, x.probe, x.left)) = some (b.phase, b.probe, n) ∧
      (port u p.val).state = (port s p.val).state)) ∧
  (∀ (s : State) (p : PortId) (img : List Byte) (b : Probing) (e m : Nat), portImg s p.val = some img →
    (port s p.val).probing = some b → b.phase = .guardOk m → b.win = some e → dueNow s e = true →
    Sendable img (modeConfirm img m) (modeCmdset img m) →
    Completes (.switchGuardEnd p) s (fun u =>
      (port u p.val).probing.map (fun x => (x.phase, x.probe, x.inMode)) = some (.confirm m, modeConfirm img m, m) ∧
      (port u p.val).state = (port s p.val).state)) ∧
  (∀ (s : State) (p : PortId) (img : List Byte) (b : Probing) (e m : Nat), portImg s p.val = some img →
    (port s p.val).probing = some b → b.phase = .guardBack m → b.win = some e → dueNow s e = true →
    Sendable img b.contact (modeCmdset img b.cur) →
    Completes (.switchGuardEnd p) s (fun u =>
      (port u p.val).probing.map (fun x => (x.phase, x.probe, x.inMode)) = some (.fallback m, b.contact, b.cur) ∧
      (port u p.val).state = (port s p.val).state)) ∧
  (∀ (s : State) (p : PortId) (img : List Byte) (b : Probing) (e : Nat), portImg s p.val = some img →
    (port s p.val).probing = some b → b.phase = .vGuard → b.win = some e → dueNow s e = true →
    Sendable img (modeConfirm img (settleOf s p.val).mode) (modeCmdset img (settleOf s p.val).mode) →
    Completes (.switchGuardEnd p) s (fun u =>
      (port u p.val).probing.map (fun x => (x.phase, x.probe, x.inMode)) =
        some (.vConfirm, modeConfirm img (settleOf s p.val).mode, (settleOf s p.val).mode) ∧
      (port u p.val).state = (port s p.val).state)) ∧
  (∀ (s : State) (p : PortId) (img : List Byte) (b : Probing) (e q : Nat), portImg s p.val = some img →
    (port s p.val).probing = some b → inExchange b = true → b.win = some e → dueNow s e = true → b.left = 0 →
    (b.phase = .tryAttach q →
      Completes (.probeWindowEnd p) s (fun u =>
        (port u p.val).probing = none ∧ (port u p.val).state = (port s p.val).state)) ∧
    (b.phase = .contact q → (∀ r, q < r → r ∈ probes img → probeContact img r = false) →
      Completes (.probeWindowEnd p) s (fun u => (port u p.val).probing = none ∧ (port u p.val).state = 0))) ∧
  (∀ (s : State) (p : PortId), (port s p.val).probing = none →
    exec (.probeWindowEnd p) s = .next s ∧ exec (.switchGuardEnd p) s = .next s))

/-- R120, R221, R464, R468: a poll of an ACTIVE or SUSPENDED port is rendered and sent (one that cannot be rendered is not);
missed replies, a low LOSS_PAD, and a thread that is FAULTED at the second tick after its fault record the port's loss:
it is LOST, and its probing is over. R87, R132, R224: a gap completes the open packet of a port, at its end and FILT,
once no character of the port is pending; the packet is TRUNCATED unless the gap is its format's end. A port thread
takes its new program at the turn of its change when it is idle, and not while a character is being received or sent. -/
def Obligations.LossAndPortTimers : Prop :=
  ((∀ (s : State) (p : PortId) (img bs : List Byte) (a : Nat), Served s p.val img → (port s p.val).pollBase = some a →
    lossMisses img ≠ 0 → (port s p.val).state = 3 ∨ (port s p.val).state = 4 →
    dueNow s (a + ((port s p.val).pollK + 1) * usTurns (pollUs img)) = true →
    renderNo img (pollFmt img) (varsV0 0) (List.replicate 8 []) = some bs →
    Completes (.pollDue p) s (fun u =>
      (port u p.val).pollK = (port s p.val).pollK + 1 ∧ (port u p.val).sending = 2 ∧ (port u p.val).sendLeft = bs ∧
      (port u p.val).state = (port s p.val).state)) ∧
  (∀ (s : State) (p : PortId) (img : List Byte) (a : Nat), Served s p.val img → (port s p.val).pollBase = some a →
    lossMisses img ≠ 0 → (port s p.val).state = 3 ∨ (port s p.val).state = 4 →
    dueNow s (a + ((port s p.val).pollK + 1) * usTurns (pollUs img)) = true →
    renderNo img (pollFmt img) (varsV0 0) (List.replicate 8 []) = none →
    Completes (.pollDue p) s (fun u =>
      (port u p.val).pollK = (port s p.val).pollK + 1 ∧ (port u p.val).sending = (port s p.val).sending ∧
      (port u p.val).state = (port s p.val).state)) ∧
  (∀ (s : State) (p : PortId) (img : List Byte) (e : Nat), Served s p.val img → (port s p.val).replyEnd = some e →
    dueNow s e = true → (port s p.val).state = 3 ∨ (port s p.val).state = 4 →
    Completes (.replyWindowEnd p) s (fun u =>
      ((port s p.val).missed + 1 < lossMisses img →
        (port u p.val).missed = (port s p.val).missed + 1 ∧ (port u p.val).replyEnd = none ∧
        (port u p.val).state = (port s p.val).state) ∧
      (lossMisses img ≤ (port s p.val).missed + 1 →
        (port u p.val).state = 5 ∧ (port u p.val).lossAt = some (max (now s) e)))) ∧
  (∀ (s : State) (p : PortId) (img : List Byte) (e : Nat), Served s p.val img → (port s p.val).lossPadEnd = some e →
    dueNow s e = true → 2 ≤ (port s p.val).state → (port s p.val).state ≠ 5 →
    Completes (.lossPadWindowEnd p) s (fun u =>
      (port u p.val).state = 5 ∧ (port u p.val).lossAt = some (max (now s) e) ∧ (port u p.val).probing = none)) ∧
  (∀ (s : State) (p : PortId),
    ((∀ e, (port s p.val).replyEnd = some e → dueNow s e = false) → exec (.replyWindowEnd p) s = .next s) ∧
    ((∀ e, (port s p.val).lossPadEnd = some e → dueNow s e = false) → exec (.lossPadWindowEnd p) s = .next s)) ∧
  (∀ (s : State) (n : ClusterId) (th : ThreadNo) (p : PortId) (img : List Byte) (f : Nat), Served s p.val img →
    2 ≤ (port s p.val).state → (port s p.val).state ≠ 5 → (Machine.core s (16 * n.val + th.val)).faultTurn = some f → getF s (fThrState n.val th.val) = 3 →
    atTick s = true → (frameAt s f).frame + 2 ≤ frameNo s →
    (groupPorts s n.val).filter (fun q => (port s q).thread = th.val) = [p.val] →
    Completes (.faultPortLoss n th) s (fun u =>
      (port u p.val).state = 5 ∧ (Machine.core u (16 * n.val + th.val)).faultTurn = none))) ∧
  ((∀ (s : State) (p : PortId) (o : OpenPkt),
    Tab.find (fifo s (fifoIx (port s p.val).group (port s p.val).thread)).open_ (port s p.val).slot = some o →
    getF s (fSlotGap (port s p.val).group (port s p.val).thread (port s p.val).slot) ≠ 0 →
    charPending (caughtUp s p.val) p.val o.lastEnd (gapEndAt s (port s p.val).group (port s p.val).thread (port s p.val).slot o) = false →
    dueNow s (gapEndAt s (port s p.val).group (port s p.val).thread (port s p.val).slot o + portFilt s p.val) = true →
    Completes (.gapWindowEnd p) s (fun u =>
      Tab.find (fifo u (fifoIx (port s p.val).group (port s p.val).thread)).open_ (port s p.val).slot = none ∧
      getF u (fFifoCut (port s p.val).group (port s p.val).thread (port s p.val).slot) = 1 ∧
      now u = max (now s) (gapEndAt s (port s p.val).group (port s p.val).thread (port s p.val).slot o +
        portFilt s p.val))) ∧
  (∀ (s : State) (p : PortId),
    Tab.find (fifo s (fifoIx (port s p.val).group (port s p.val).thread)).open_ (port s p.val).slot = none →
    exec (.gapWindowEnd p) s = .next s) ∧
  (∀ (s : State) (p : PortId) (img : List Byte) (t : Nat), (port s p.val).newProg = some t → portImg s p.val = some img →
    t ≤ frameNo s → portIdle s p.val = true →
    Completes (.portProgramChange p) s (fun u =>
      (port u p.val).newProg = none ∧ (port u p.val).progMinor = aptMinor img ∧
      (port u p.val).prog = activeIx s (port s p.val).apt (port s p.val).major ∧
      (port u p.val).state = (port s p.val).state)) ∧
  (∀ (s : State) (p : PortId),
    (port s p.val).newProg = none ∨ portIdle s p.val = false ∨ (∃ t, (port s p.val).newProg = some t ∧ frameNo s < t) →
    exec (.portProgramChange p) s = .next s))

/-- R135, R136: a pad group is released at the first tick at which no hold condition remains, and stays held otherwise. A
supply that fails sets VIO_FAIL, records the loss of the group's ports and holds the group. A supply that is sensed sets
VIO_OK, VIO_HIGH and MISMATCH, and a mismatch holds the group. R152: a bypass that is asked for takes effect at a tick,
with the port SUSPENDED and its pads in their safe state; its release gives the port the state that follows from the one
it had, and takes its pads out of that safe state. At another turn, or where none is asked for, neither acts. -/
def Obligations.PadGroupsAndBypass : Prop :=
  ((∀ (s : State) (n : ClusterId), atTick s = true → holdCond s n.val = false →
    Completes (.pgRelease n) s (fun u =>
      Tab.getD u.pgOn n.val false = true ∧ pgHeld u n.val = false ∧
      ∀ k, k ≠ n.val → Tab.getD u.pgOn k false = Tab.getD s.pgOn k false)) ∧
  (∀ (s : State) (n : ClusterId), atTick s = false ∨ holdCond s n.val = true → exec (.pgRelease n) s = .next s) ∧
  (∀ (s : State) (n : ClusterId), isSet s (fVioOk n.val) = true →
    Completes (.vioFail n) s (fun u =>
      Tab.getD u.pgOn n.val false = false ∧ getF u (fVioOk n.val) = 0 ∧ getF u (fVioFail n.val) = 1 ∧
      ∀ p ∈ groupPorts s n.val, (port s p).defined = true → (port s p).bypassed = false → 2 ≤ (port s p).state →
        (port u p).state = 5)) ∧
  (∀ (s : State) (n : ClusterId), isSet s (fVioOk n.val) = false → exec (.vioFail n) s = .next s) ∧
  (∀ (s : State) (n : ClusterId) (high : Bool), Completes (.pgSupplyMismatch n high) s (fun u =>
    getF u (fVioOk n.val) = 1 ∧ getF u (fVioHigh n.val) = high.toNat ∧
    getF u (fMismatch n.val) = (if high = isSet s (fVio18 n.val) then 1 else 0) ∧
    (high = isSet s (fVio18 n.val) → Tab.getD u.pgOn n.val false = false) ∧
    ∀ k, k ≠ n.val → Tab.getD u.pgOn k false = Tab.getD s.pgOn k false))) ∧
  ((∀ (s : State) (p : PortId), atTick s = true → (port s p.val).bypassReq = true →
    Completes (.bypassApply p) s (fun u =>
      (port u p.val).bypassed = true ∧ (port u p.val).bypassReq = false ∧ (port u p.val).state = 4 ∧
      (port u p.val).probing = none ∧
      ∀ i ∈ (port s p.val).pads, 0 ∈ (pad u (64 * (port s p.val).group + i)).safe)) ∧
  (∀ (s : State) (p : PortId), atTick s = true → (port s p.val).releaseReq = true →
    Completes (.bypassReleaseApply p) s (fun u =>
      (port u p.val).bypassed = false ∧ (port u p.val).releaseReq = false ∧
      (port u p.val).state = releaseState (port s p.val).before ∧
      ∀ i ∈ (port s p.val).pads, 0 ∉ (pad u (64 * (port s p.val).group + i)).safe)) ∧
  (∀ (s : State) (p : PortId),
    (atTick s = false ∨ (port s p.val).bypassReq = false → exec (.bypassApply p) s = .next s) ∧
    (atTick s = false ∨ (port s p.val).releaseReq = false → exec (.bypassReleaseApply p) s = .next s)))

/-- R138, R142, R144–R146, R150: reception. A change of level passes the filter, or has no effect (the command's turn is the
sample's, log entry 16); its recorded turn is FILT turns earlier. In ASYNC_RX an edge of the start polarity begins a
candidate word, unless it is blanked; the start bit is sampled half a bit later, and the word bits at their middle; in
EDGE mode the edge is queued; in SYNC_RX COUNT + 1 clock edges sample a word. A full queue drops what completes, and
counts it. -/
def Obligations.PadReceive : Prop :=
  (∀ (s : State) (p : PadId) (level : Bool), filterPass s p.val level = false →
    exec (.rxStartEdge p level) s = .next s ∧ exec (.edgeEntry p level) s = .next s) ∧
  (∀ (s : State) (p : PadId) (level : Bool), filterPass s p.val level = true → saMode s p.val = 1 →
    level = isSet s (fStartPol p.val) → (pad s p.val).cand = none → (pad s p.val).noStart ≤ now s - getF s (fFilt p.val) →
    echoHit s p.val (now s - getF s (fFilt p.val)) (getF s (fCount p.val), bitClk s p.val) = false →
    Completes (.rxStartEdge p level) s (fun u =>
      (pad u p.val).cand = some (now s - getF s (fFilt p.val)) ∧ (pad u p.val).candOk = false ∧
      (pad u p.val).candCfg = (getF s (fCount p.val), bitClk s p.val) ∧ (pad u p.val).level = level ∧
      (pad u p.val).rxq = (pad s p.val).rxq)) ∧
  (∀ (s : State) (p : PadId) (level : Bool), filterPass s p.val level = true → saMode s p.val = 5 →
    Completes (.edgeEntry p level) s (fun u =>
      (pad u p.val).level = level ∧
      ((pad s p.val).rxq.length < 4 → (pad u p.val).rxq = (pad s p.val).rxq ++
        [(if level then 1 else 0, now s - getF s (fFilt p.val), now s - getF s (fFilt p.val))]) ∧
      (4 ≤ (pad s p.val).rxq.length → (pad u p.val).rxq = (pad s p.val).rxq ∧ getF u (fRxovr p.val) = 1 ∧
        getF u (fDrops p.val) = satAdd 255 (getF s (fDrops p.val)) 1))) ∧
  (∀ (s : State) (p : PadId) (lv : Bool) (e : Nat), (pad s p.val).cand = some e → (pad s p.val).candOk = false →
    dueNow s (rxCheckAt s p.val e) = true →
    Completes (.startBitCheck p lv) s (fun u =>
      now u = max (now s) (rxCheckAt s p.val e) ∧
      (bitAt s p.val (startCheck e (pad s p.val).candCfg) = isSet s (fStartPol p.val) →
        (pad u p.val).candOk = true ∧ (pad u p.val).cand = some e) ∧
      (bitAt s p.val (startCheck e (pad s p.val).candCfg) ≠ isSet s (fStartPol p.val) →
        (pad u p.val).cand = none ∧ (pad u p.val).noStart = startCheck e (pad s p.val).candCfg + 1 ∧
        getF u (fFstart p.val) = 1))) ∧
  (∀ (s : State) (p : PadId) (w : Word) (e : Nat), (pad s p.val).cand = some e → dueNow s (rxCompleteAt s p.val e) = true →
    (pad s p.val).candOk = true ∨ bitAt s p.val (startCheck e (pad s p.val).candCfg) = isSet s (fStartPol p.val) →
    Completes (.rxWordComplete p w) s (fun u =>
      (pad u p.val).cand = none ∧
      ((pad s p.val).rxq.length < 4 → (pad u p.val).rxq = (pad s p.val).rxq ++
        [(wordOf (isSet s (fMsbFirst p.val)) (rxBits s p.val e (pad s p.val).candCfg), e, wordEnd e (pad s p.val).candCfg)]) ∧
      (4 ≤ (pad s p.val).rxq.length → (pad u p.val).rxq = (pad s p.val).rxq ∧ getF u (fRxovr p.val) = 1 ∧
        getF u (fDrops p.val) = satAdd 255 (getF s (fDrops p.val)) 1))) ∧
  (∀ (s : State) (p : PadId) (w : Word) (span e : Nat), saMode s p.val = 3 → (pad s p.val).sync[(pad s p.val).candCfg.1]? = some e →
    dueNow s (e + getF s (fFilt p.val)) = true → (pad s p.val).rxq.length < 4 →
    Completes (.syncRxWordComplete p w span) s (fun u =>
      now u = max (now s) (e + getF s (fFilt p.val)) ∧
      (pad u p.val).sync = (pad s p.val).sync.drop ((pad s p.val).candCfg.1 + 1) ∧
      (pad u p.val).rxq = (pad s p.val).rxq ++
        [(wordOf (isSet s (fMsbFirst p.val))
            (((pad s p.val).sync.take ((pad s p.val).candCfg.1 + 1)).map (levelAt (pad s p.val))),
          nth 0 (pad s p.val).sync 0, e)])) ∧
  (∀ (s : State) (p : PadId) (lv : Bool) (w : Word) (span : Nat),
    ((pad s p.val).cand = none → exec (.startBitCheck p lv) s = .next s ∧ exec (.rxWordComplete p w) s = .next s) ∧
    ((pad s p.val).sync[(pad s p.val).candCfg.1]? = none → exec (.syncRxWordComplete p w span) s = .next s))

/-- R134, R137, R144, R147: the registers of a pad, written and read by a core that may, outside a handover: OUT is stored
and on the pad 2 turns later; a read of SA_RXDATA removes the oldest entry; a write of SA_CTRL that changes MODE empties
the shift assist, and one that names another owner's pad sets CFGERR and leaves that field; SA_STAT's flags are cleared
by writing 1 (not one that is set in the same turn, R15), RXOVR with DROPS and TXOVR with TXABORT. R19, R134: the
registers of a pad are refused to a core that may not write them, the control processor among them, and SA_RXDATA to a
lane core or a thread of another cluster: a bus error, and no change of the pad. -/
def Obligations.PadRegisters : Prop :=
  ((∀ (s : State) (c : CoreId) (p : PadId) (v : Word), castHolds c (p.val / 64) s = none → padWriter s c p.val = true →
    Completes (.padIoWrite c p v) s (fun u =>
      getF u (fOut p.val) = (v.getLsbD 0).toNat ∧ (pad u p.val).outPend.head? = some (now s + 2, v.getLsbD 0))) ∧
  (∀ (s : State) (c : CoreId) (p : PadId) (e : QEntry) (es : List QEntry), castHolds c (p.val / 64) s = none →
    rxReader s c p.val = true → (pad (rxCatch p.val (now s) s) p.val).rxq = e :: es →
    Completes (.saRxdataRead c p) s (fun u =>
      (pad u p.val).rxq = es ∧ (pad u p.val).txq = (pad s p.val).txq ∧
      ∀ n t, c = .thread n t → Tab.find (pad u p.val).removed t.val = some (e, true))) ∧
  (∀ (s : State) (n : ClusterId) (t : ThreadNo) (p : PadId), castHolds (.thread n t) (p.val / 64) s = none →
    n.val = p.val / 64 → rxReader s (.thread n t) p.val = false → exec (.saRxdataRead (.thread n t) p) s = .next s) ∧
  (∀ (s : State) (c : CoreId) (p : PadId) (v : Word), castHolds c (p.val / 64) s = none → padWriter s c p.val = true →
    sameOwner s p.val (bitsOf v 29 24) = true → sameOwner s p.val (bitsOf v 21 16) = true → bitsOf v 2 0 ≤ 5 →
    Completes (.saCtrlWrite c p v) s (fun u =>
      getF u (fMode p.val) = bitsOf v 2 0 ∧ getF u (fLinkpad p.val) = bitsOf v 29 24 ∧
      (bitsOf v 2 0 ≠ getF s (fMode p.val) → (pad u p.val).rxq = [] ∧ (pad u p.val).txq = [] ∧ (pad u p.val).cur = none ∧
        (pad u p.val).cand = none ∧ (pad u p.val).deAt = none) ∧
      (bitsOf v 2 0 = getF s (fMode p.val) → (pad u p.val).rxq = (pad s p.val).rxq ∧ (pad u p.val).txq = (pad s p.val).txq))) ∧
  (∀ (s : State) (c : CoreId) (p : PadId) (v : Word), castHolds c (p.val / 64) s = none → padWriter s c p.val = true →
    sameOwner s p.val (bitsOf v 29 24) = false →
    Completes (.saCtrlWrite c p v) s (fun u =>
      getF u (fCfgerr p.val) = 1 ∧ getF u (fLinkpad p.val) = getF s (fLinkpad p.val))) ∧
  (∀ (s : State) (c : CoreId) (p : PadId) (v : Word), castHolds c (p.val / 64) s = none → padWriter s c p.val = true →
    Completes (.saStatWrite c p v) s (fun u =>
      (v.getLsbD 8 = true → getF u (fDrops p.val) = 0 ∧
        ((hotBits s (padK p.val 0x14)).getLsbD 8 = false → getF u (fRxovr p.val) = 0)) ∧
      (v.getLsbD 8 = false → getF u (fDrops p.val) = getF s (fDrops p.val) ∧ getF u (fRxovr p.val) = getF s (fRxovr p.val)) ∧
      (v.getLsbD 9 = true → getF u (fTxabort p.val) = 0 ∧
        ((hotBits s (padK p.val 0x14)).getLsbD 9 = false → getF u (fTxovr p.val) = 0)) ∧
      (v.getLsbD 9 = false → getF u (fTxabort p.val) = getF s (fTxabort p.val) ∧ getF u (fTxovr p.val) = getF s (fTxovr p.val))))) ∧
  ((∀ (s : State) (c : CoreId) (p : PadId) (v : Word), castHolds c (p.val / 64) s = none → padWriter s c p.val = false →
    exec (.padIoWrite c p v) s = .next (busErr c (padK p.val 4) s) ∧
    exec (.saCtrlWrite c p v) s = .next (busErr c (padK p.val 8) s) ∧
    exec (.saTxdataWrite c p v) s = .next (busErr c (padK p.val 0x18) s) ∧
    exec (.saStatWrite c p v) s = .next (busErr c (padK p.val 0x14) s)) ∧
  (∀ (s : State) (c : CoreId) (p : PadId), castHolds c (p.val / 64) s = none → isCp c = false →
    isThread c = false ∨ coreCl c ≠ p.val / 64 →
    exec (.saRxdataRead c p) s = .next (busErr c (padK p.val 0x28) s)) ∧
  (∀ (s : State) (c : CoreId) (p : PadId) (a : Nat), (busErr c a s).pads = s.pads ∧
    getF (busErr c a s) (fOut p.val) = getF s (fOut p.val) ∧ getF (busErr c a s) (fMode p.val) = getF s (fMode p.val) ∧
    getF (busErr c a s) (fDrops p.val) = getF s (fDrops p.val)))

/-- R143–R145, R149: transmission. A word is queued in a transmit mode, and launched 2 turns later (LEAD after driver-enable
is asserted for it) where none is on the line; into a full queue it is dropped with TXOVR; in another mode it sets
CFGERR. The first queued word is launched with its stamp, ends with its last bit, the next one follows at once, and
after the last one driver-enable is released when LAG has passed. -/
def Obligations.PadTransmit : Prop :=
  (∀ (s t : State) (c : CoreId) (p : PadId) (v : Word), castHolds c (p.val / 64) s = none → padWriter s c p.val = true →
    t = txCatch p.val (now s) s → saMode t p.val = 2 ∨ saMode t p.val = 4 →
    Completes (.saTxdataWrite c p v) s (fun u =>
      ((pad t p.val).txq.length < 4 →
        (pad u p.val).txq.map (fun w => w.word) = (pad t p.val).txq.map (fun w => w.word) ++ [v] ∧
        ((pad t p.val).cur = none → (pad t p.val).launch = none →
          (pad u p.val).launch = some (now t + 2 +
            (if saMode t p.val = 2 ∧ isSet t (fDeEn p.val) = true ∧ (pad t p.val).deAt = none then getF t (fLead p.val) else 0)) ∧
          (saMode t p.val = 2 → isSet t (fDeEn p.val) = true → (pad t p.val).deAt = none →
            (pad u p.val).deAt = some (now t + 2)))) ∧
      (4 ≤ (pad t p.val).txq.length → (pad u p.val).txq = (pad t p.val).txq ∧ getF u (fTxovr p.val) = 1))) ∧
  (∀ (s t : State) (c : CoreId) (p : PadId) (v : Word), castHolds c (p.val / 64) s = none → padWriter s c p.val = true →
    t = txCatch p.val (now s) s → saMode t p.val ≠ 2 → saMode t p.val ≠ 4 →
    Completes (.saTxdataWrite c p v) s (fun u => u.pads = t.pads ∧ getF u (fCfgerr p.val) = 1)) ∧
  (∀ (s : State) (p : PadId) (e : Nat) (w : TxWord) (ws : List TxWord), (pad s p.val).launch = some e →
    (pad s p.val).txq = w :: ws → dueNow s e = true →
    Completes (.txWordLaunch p) s (fun u =>
      now u = max (now s) e ∧ (pad u p.val).cur = some w ∧ (pad u p.val).txq = ws ∧ (pad u p.val).launch = none ∧
      reg u (padK p.val 0x20) = BitVec.ofNat 32 e ∧ reg u (padK p.val 0x24) = BitVec.ofNat 32 (e / 2 ^ 32) ∧
      (pad u p.val).curBits = getF s (fCount p.val) + 1)) ∧
  (∀ (s : State) (p : PadId) (w : TxWord) (e : Nat), (pad s p.val).cur = some w → shiftEnd s p.val = some e →
    dueNow s e = true →
    Completes (.txWordEnd p) s (fun u =>
      now u = max (now s) e ∧ (pad u p.val).cur = none ∧
      ((pad s p.val).txq ≠ [] → (pad u p.val).launch = some e) ∧
      ((pad s p.val).txq = [] → (pad s p.val).deAt ≠ none → (pad u p.val).deEnd = some (e + getF s (fLag p.val))))) ∧
  (∀ (s : State) (p : PadId) (e : Nat), (pad s p.val).deEnd = some e → (pad s p.val).deAt ≠ none → dueNow s e = true →
    Completes (.deRelease p) s (fun u =>
      now u = max (now s) e ∧ (pad u p.val).deAt = none ∧ (pad u p.val).deEnd = none)) ∧
  (∀ (s : State) (p : PadId),
    ((∀ e, (pad s p.val).launch = some e → dueNow s e = false) → exec (.txWordLaunch p) s = .next s) ∧
    ((pad s p.val).cur = none → exec (.txWordEnd p) s = .next s) ∧
    ((∀ e, (pad s p.val).deEnd = some e → dueNow s e = false) → exec (.deRelease p) s = .next s))

/-- R156, R162, R163, R169, R171: LC_CMD is staged by the control processor for turn 24 of the frame of the next tick, by a
core of the attached tenant's cluster for that tenant's release, and by no other. NOP, ON, OFF, KICK, BLINK, TEST and
CLEAR then act on an enabled channel as its state has it; a command of another turn or another code is left alone. R92,
R163, R168, R171: a staged command that the channel's state rejects sets CMDREJ and changes nothing else of the channel;
one whose turn another outcome of the channel has (which then does not occur: what it is answered is the model's choice,
log entry 91), or whose tenant was reset, changes nothing but that it is no longer staged. -/
def Obligations.LoadCommands : Prop :=
  ((∀ (s : State) (ch : ChanId) (v : Word), Completes (.lcCmdStage .cp ch v) s (fun u =>
    (chan u ch.val).staged.map (fun x => (x.word, x.tenant, x.due)) = some (v, none, some (nextTick s + 24)) ∧
    lcState u ch.val = lcState s ch.val)) ∧
  (∀ (s : State) (ch : ChanId) (n : ClusterId) (c : CoreId) (v : Word), (∃ k, c = .lane n k) → supCore s c = true →
    lcAttached s ch.val = true → getF s (fLcTenant ch.val) / 16 = n.val → Completes (.lcCmdStage c ch v) s (fun u =>
      (chan u ch.val).staged.map (fun x => (x.word, x.tenant, x.due)) =
        some (v, some (getF s (fLcTenant ch.val), getF s (fGen (getF s (fLcTenant ch.val)))), none) ∧
      lcState u ch.val = lcState s ch.val)) ∧
  (∀ (s : State) (ch : ChanId) (n : ClusterId) (c : CoreId) (v : Word), (∃ k, c = .lane n k) →
    ¬ (supCore s c = true ∧ lcAttached s ch.val = true ∧ getF s (fLcTenant ch.val) / 16 = n.val) →
    exec (.lcCmdStage c ch v) s = .next (busErr c (lcK ch.val 0xC) s)) ∧
  (∀ (s : State) (ch : ChanId) (n : ClusterId) (t : ThreadNo) (v : Word),
    exec (.lcCmdStage (.thread n t) ch v) s = .next (busErr (.thread n t) (lcK ch.val 0xC) s)) ∧
  (∀ p ∈ actForms, ∀ (s : State) (ch : ChanId),
    ((chan s ch.val).staged = none → exec (p.1 ch) s = .next s) ∧
    (∀ x, (chan s ch.val).staged = some x → p.2 (bitsOf x.word 3 0) = false ∨ x.due = none ∨
      (∃ e, x.due = some e ∧ dueNow s e = false) → exec (p.1 ch) s = .next s)) ∧
  (∀ (s : State) (ch : ChanId) (x : LcStaged) (e : Nat), ActsAt s ch.val x e 0 → Completes (.lcNop ch) s (fun u =>
    now u = max (now s) e ∧ (chan u ch.val).staged = none ∧ lcState u ch.val = lcState s ch.val ∧
    (chan u ch.val).mode = (chan s ch.val).mode ∧ u.lgroups = s.lgroups)) ∧
  (∀ (s : State) (ch : ChanId) (x : LcStaged) (e : Nat), ActsAt s ch.val x e 1 → isSet s (fLcEnable ch.val) = true →
    lcState s ch.val ≠ 5 → Completes (.lcOn ch) s (fun u =>
      (chan u ch.val).staged = none ∧
      (lcState s ch.val = 4 → lcState u ch.val = 4 ∧ (chan u ch.val).next = some .steady ∧
        (chan u ch.val).mode = (chan s ch.val).mode) ∧
      (lcState s ch.val ≠ 4 → (chan u ch.val).mode = .steady ∧ (chan u ch.val).next = none) ∧
      (lcState s ch.val = 0 ∨ lcState s ch.val = 6 → lcState u ch.val = 1 ∧ (lgroup u (ch.val / 8)).queue =
        queueIn s ch.val (max (now s) e) (lgroup s (ch.val / 8)).queue) ∧
      (lcState s ch.val = 1 ∨ lcState s ch.val = 2 ∨ lcState s ch.val = 3 →
        lcState u ch.val = lcState s ch.val ∧ (chan u ch.val).phaseEnd = none ∧ u.lgroups = s.lgroups))) ∧
  (∀ (s : State) (ch : ChanId) (x : LcStaged) (e : Nat), ActsAt s ch.val x e 2 → isSet s (fLcEnable ch.val) = true →
    lcState s ch.val ≠ 5 → Completes (.lcOff ch) s (fun u =>
      lcState u ch.val = 0 ∧ (chan u ch.val).staged = none ∧
      (lcState s ch.val ≠ 0 → (chan u ch.val).mode = .steady ∧ (chan u ch.val).next = none ∧
        (chan u ch.val).phaseEnd = none ∧ (chan u ch.val).test = none ∧ ch.val ∉ (lgroup u (ch.val / 8)).queue ∧
        (lcState s ch.val = 2 → getF u (fLgInrush (ch.val / 8)) = 255 ∧
          (lgroup u (ch.val / 8)).lastEnd = some (max (now s) e))))) ∧
  (∀ (s : State) (ch : ChanId) (x : LcStaged) (e : Nat), ActsAt s ch.val x e 3 → isSet s (fLcEnable ch.val) = true →
    lcState s ch.val = 0 → Completes (.lcKick ch) s (fun u =>
      lcState u ch.val = 1 ∧ (chan u ch.val).mode = .kick ∧ (chan u ch.val).pulsed = false ∧
      (chan u ch.val).kickTag = x.tag ∧ (chan u ch.val).staged = none ∧
      (lgroup u (ch.val / 8)).queue = queueIn s ch.val (max (now s) e) (lgroup s (ch.val / 8)).queue)) ∧
  (∀ (s : State) (ch : ChanId) (x : LcStaged) (e : Nat), ActsAt s ch.val x e 4 → isSet s (fLcEnable ch.val) = true →
    lcState s ch.val ≠ 5 → bitsOf x.word 15 4 ≠ 0 → bitsOf x.word 27 16 ≠ 0 → Completes (.lcBlink ch) s (fun u =>
      (chan u ch.val).staged = none ∧
      (lcState s ch.val = 0 → lcState u ch.val = 1 ∧
        (chan u ch.val).mode = .blink (bitsOf x.word 15 4) (bitsOf x.word 27 16) ∧
        (lgroup u (ch.val / 8)).queue = queueIn s ch.val (max (now s) e) (lgroup s (ch.val / 8)).queue) ∧
      (lcState s ch.val = 4 ∨ (lcState s ch.val ≠ 0 ∧ (chan s ch.val).mode ≠ .steady) →
        lcState u ch.val = lcState s ch.val ∧ (chan u ch.val).mode = (chan s ch.val).mode ∧
        (chan u ch.val).next = some (.blink (bitsOf x.word 15 4) (bitsOf x.word 27 16))) ∧
      ((chan s ch.val).mode = .steady → lcState s ch.val = 1 ∨ lcState s ch.val = 2 →
        lcState u ch.val = lcState s ch.val ∧
        (chan u ch.val).mode = .blink (bitsOf x.word 15 4) (bitsOf x.word 27 16) ∧
        (lcState s ch.val = 2 →
          (chan u ch.val).phaseEnd = some ((chan s ch.val).grant + msTurns (bitsOf x.word 15 4)))) ∧
      ((chan s ch.val).mode = .steady → lcState s ch.val = 3 → lcState u ch.val = 6 ∧
        (chan u ch.val).mode = .blink (bitsOf x.word 15 4) (bitsOf x.word 27 16) ∧
        (chan u ch.val).phaseEnd = some (max (now s) e + msTurns (bitsOf x.word 27 16))))) ∧
  (∀ (s : State) (ch : ChanId) (x : LcStaged) (e : Nat), ActsAt s ch.val x e 5 → isSet s (fLcEnable ch.val) = true →
    lcState s ch.val = 3 → (chan s ch.val).mode = .steady → 10 ≤ bitsOf x.word 15 4 → bitsOf x.word 15 4 ≤ 100 →
    isSet s (fLgSag (ch.val / 8)) = false → Completes (.lcTest ch) s (fun u =>
      lcState u ch.val = 4 ∧ lcDrive u ch.val = false ∧ (chan u ch.val).staged = none ∧
      (chan u ch.val).test = some (max (now s) e, bitsOf x.word 15 4, false))) ∧
  (∀ (s : State) (ch : ChanId) (x : LcStaged) (e : Nat), ActsAt s ch.val x e 6 → isSet s (fLcEnable ch.val) = true →
    Completes (.lcClear ch) s (fun u =>
      (chan u ch.val).staged = none ∧
      (lcState s ch.val = 5 → x.tenant = none ∨ getF s (fLcCause ch.val) ∈ [2, 3, 5] →
        lcState u ch.val = 0 ∧ getF u (fLcRetries ch.val) = 0 ∧ getF u (fLcAborts ch.val) = 0) ∧
      (lcState s ch.val ≠ 5 → lcState u ch.val = lcState s ch.val ∧
        getF u (fLcRetries ch.val) = getF s (fLcRetries ch.val) ∧ getF u (fLcAborts ch.val) = getF s (fLcAborts ch.val))))) ∧
  (∀ p ∈ actForms, ∀ (s : State) (ch : ChanId) (x : LcStaged) (e cmd : Nat), p.2 cmd = true →
    (ActsAt s ch.val x e cmd → Rejected s ch.val x cmd → Completes (p.1 ch) s (fun u =>
      getF u (fLcCmdrej ch.val) = 1 ∧ lcState u ch.val = lcState s ch.val ∧ (chan u ch.val).staged = none ∧
      (chan u ch.val).mode = (chan s ch.val).mode ∧ u.lgroups = s.lgroups)) ∧
    ((chan s ch.val).staged = some x → x.due = some e → dueNow s e = true → bitsOf x.word 3 0 = cmd →
      x.tenant.all (fun q => decide (getF s (fGen q.1) = q.2)) = false ∨ outranked (goTo e s) ch.val 5 = true ∨
        (chan s ch.val).outAt = some (max (now s) e) →
      Completes (p.1 ch) s (fun u =>
        getF u (fLcCmdrej ch.val) = getF s (fLcCmdrej ch.val) ∧ lcState u ch.val = lcState s ch.val ∧
        (chan u ch.val).staged = none ∧ (chan u ch.val).mode = (chan s ch.val).mode ∧ u.lgroups = s.lgroups)))

/-- R158–R160, R165–R168: the trips of a channel at the first turn their filters allow, the end of its discharge, and the
group's sag, which aborts an inrush whose window has not ended (at most one channel of a group is in INRUSH, R165). An
outcome that another of the same turn ranks before does not occur; a command that no state or turn allows has no effect.
R156, R172–R174: configuration writes of the control processor: taken while the channel is OFF or TRIPPED, rejected in
any other state; clearing ENABLE turns the channel off in any state; LC_ATTR attaches the channel to a device that takes
it; a supply group's are taken while none of its channels runs, and restart its sag filter. Any other core, and an
offset that holds no register, gets a bus error. -/
def Obligations.LoadTripsAndConfiguration : Prop :=
  ((∀ (s : State) (ch : ChanId), lcState s ch.val = 2 → max (now s) (overDue s ch.val) < inrushEnds s ch.val →
    dueNow s (overDue s ch.val) = true →
    (outranked (goTo (overDue s ch.val) s) ch.val 3 = false → Completes (.inrushOverTrip ch) s (fun u =>
      Tripped u ch.val 2 (max (now s) (overDue s ch.val)) ∧ getF u (fLgInrush (ch.val / 8)) = 255 ∧
      (lgroup u (ch.val / 8)).lastEnd = some (max (now s) (overDue s ch.val)))) ∧
    (outranked (goTo (overDue s ch.val) s) ch.val 3 = true →
      exec (.inrushOverTrip ch) s = .next (goTo (overDue s ch.val) s))) ∧
  (∀ (s : State) (ch : ChanId), lcState s ch.val = 3 → dueNow s (overDue s ch.val) = true →
    (outranked (goTo (overDue s ch.val) s) ch.val 3 = false → Completes (.overloadTrip ch) s (fun u =>
      Tripped u ch.val 3 (max (now s) (overDue s ch.val)))) ∧
    (outranked (goTo (overDue s ch.val) s) ch.val 3 = true →
      exec (.overloadTrip ch) s = .next (goTo (overDue s ch.val) s))) ∧
  (∀ (s : State) (ch : ChanId), lcDrive s ch.val = true → dueNow s (shortAt s ch.val) = true →
    Completes (.shortTrip ch) s (fun u =>
      Tripped u ch.val 1 (max (now s) (shortAt s ch.val)) ∧ getF u (fLcDischarging ch.val) = 1)) ∧
  (∀ (s : State) (ch : ChanId), dueNow s (overDue s ch.val) = true →
    (lcState s ch.val = 1 ∨ lcState s ch.val = 6 ∨ (lcState s ch.val = 0 ∧ isSet s (fLcEnable ch.val) = true) →
      Completes (.stuckOnDetect ch) s (fun u => Tripped u ch.val 4 (max (now s) (overDue s ch.val)))) ∧
    (lcState s ch.val = 5 ∨ (lcState s ch.val = 0 ∧ isSet s (fLcEnable ch.val) = false) →
      Completes (.stuckOnDetect ch) s (fun u =>
        now u = max (now s) (overDue s ch.val) ∧ lcState u ch.val = lcState s ch.val ∧ getF u (fLcCause ch.val) = 4))) ∧
  (∀ (s : State) (ch : ChanId),
    (lcState s ch.val ≠ 2 ∨ inrushEnds s ch.val ≤ max (now s) (overDue s ch.val) ∨ dueNow s (overDue s ch.val) = false →
      exec (.inrushOverTrip ch) s = .next s) ∧
    (lcState s ch.val ≠ 3 ∨ dueNow s (overDue s ch.val) = false → exec (.overloadTrip ch) s = .next s) ∧
    (lcDrive s ch.val = false ∨ dueNow s (shortAt s ch.val) = false → exec (.shortTrip ch) s = .next s) ∧
    (lcState s ch.val ∉ [0, 1, 5, 6] ∨ dueNow s (overDue s ch.val) = false → exec (.stuckOnDetect ch) s = .next s)) ∧
  (∀ (s : State) (ch : ChanId), Completes (.dischargeEnd ch) s (fun u =>
    getF u (fLcDischarging ch.val) = 0 ∧ lcState u ch.val = lcState s ch.val)) ∧
  (∀ (s : State) (g : GroupId), getF s (fLgSagCode g.val) ≠ 0 → isSet s (fLgSag g.val) = false → dueNow s (sagAt s g.val) = true →
    (groupChans g.val).filter (fun c => lcState s c = 2 && decide (max (now s) (sagAt s g.val) < inrushEnds s c) &&
      !outranked (goTo (sagAt s g.val) s) c 2) = [] → Completes (.sagAssert g) s (fun u =>
      now u = max (now s) (sagAt s g.val) ∧ getF u (fLgSag g.val) = 1 ∧ getF u (fLgSagSeen g.val) = 1 ∧ u.chans = s.chans)) ∧
  (∀ (s : State) (g : GroupId) (c : Nat), getF s (fLgSagCode g.val) ≠ 0 → isSet s (fLgSag g.val) = false →
    dueNow s (sagAt s g.val) = true →
    (groupChans g.val).filter (fun c => lcState s c = 2 && decide (max (now s) (sagAt s g.val) < inrushEnds s c) &&
      !outranked (goTo (sagAt s g.val) s) c 2) = [c] →
    Completes (.sagAssert g) s (fun u =>
      getF u (fLgSag g.val) = 1 ∧ getF u (fLgSagSeen g.val) = 1 ∧ getF u (fLgInrush g.val) = 255 ∧
      getF u (fLcAborts c) = satAdd 15 (getF s (fLcAborts c)) 1 ∧
      (satAdd 15 (getF s (fLcAborts c)) 1 < getF s (fLgAbortMax g.val) →
        lcState u c = 1 ∧ (chan u c).mode = (chan s c).mode ∧ (lgroup u g.val).queue.head? = some c) ∧
      (getF s (fLgAbortMax g.val) ≤ satAdd 15 (getF s (fLcAborts c)) 1 →
        Tripped u c 5 (max (now s) (sagAt s g.val))))) ∧
  (∀ (s : State) (g : GroupId), isSet s (fLgSag g.val) = true → dueNow s (sagAt s g.val) = true →
    Completes (.sagDeassert g) s (fun u =>
      now u = max (now s) (sagAt s g.val) ∧ getF u (fLgSag g.val) = 0 ∧
      getF u (fLgSagSeen g.val) = getF s (fLgSagSeen g.val) ∧ u.chans = s.chans)) ∧
  (∀ (s : State) (g : GroupId),
    (getF s (fLgSagCode g.val) = 0 ∨ isSet s (fLgSag g.val) = true ∨ dueNow s (sagAt s g.val) = false →
      exec (.sagAssert g) s = .next s) ∧
    (isSet s (fLgSag g.val) = false ∨ dueNow s (sagAt s g.val) = false → exec (.sagDeassert g) s = .next s))) ∧
  ((∀ (s : State) (ch : ChanId) (off : Fin 32) (v : Word), off.val = 2 ∨ 15 ≤ off.val →
    (lcCfgOk s ch.val = true →
      exec (.lcConfigWrite .cp ch off v) s = .next (softWrite (lcK ch.val (4 * off.val)) v s)) ∧
    (lcCfgOk s ch.val = false →
      Completes (.lcConfigWrite .cp ch off v) s (fun u =>
        getF u (fLcCmdrej ch.val) = 1 ∧ reg u (lcK ch.val (4 * off.val)) = reg s (lcK ch.val (4 * off.val)) ∧
        lcState u ch.val = lcState s ch.val ∧ u.chans = s.chans))) ∧
  (∀ (s : State) (ch : ChanId) (v : Word), exec (.lcConfigWrite .cp ch 4 v) s = .next (softWrite (lcK ch.val 0x10) v s) ∧
    Completes (.lcConfigWrite .cp ch 3 v) s (fun u =>
      (chan u ch.val).staged.map (fun x => (x.word, x.tenant, x.due)) = some (v, none, some (nextTick s + 24)))) ∧
  (∀ (s : State) (ch : ChanId) (v : Word), lcCfgOk s ch.val = true →
    (lcAttached s ch.val = false → Completes (.lcConfigWrite .cp ch 1 v) s (fun u =>
      getF u (fLcDevice ch.val) = bitsOf v 27 24 ∧ getF u (fLcTenant ch.val) = bitsOf v 23 16 ∧ lcAttached u ch.val = false)) ∧
    (lcAttached s ch.val = true → (dev s (bitsOf v 23 16) (bitsOf v 27 24)).bound = true →
      lcClass (dev s (bitsOf v 23 16) (bitsOf v 27 24)).cls = true → (dev s (bitsOf v 23 16) (bitsOf v 27 24)).chan = none →
      Completes (.lcConfigWrite .cp ch 1 v) s (fun u =>
        getF u (fLcDevice ch.val) = bitsOf v 27 24 ∧ getF u (fLcTenant ch.val) = bitsOf v 23 16 ∧
        (dev u (bitsOf v 23 16) (bitsOf v 27 24)).chan = some ch.val ∧
        (dev u (bitsOf v 23 16) (bitsOf v 27 24)).trip = decide (lcState s ch.val = 5)))) ∧
  (∀ (s : State) (ch : ChanId) (v : Word), lcCfgOk s ch.val = true → lcAttached s ch.val = false → v.getLsbD 2 = true →
    Completes (.lcConfigWrite .cp ch 0 v) s (fun u =>
      getF u (fLcEnable ch.val) = (v.getLsbD 0).toNat ∧ getF u (fLcPol ch.val) = (v.getLsbD 1).toNat ∧
      getF u (fLcRetry ch.val) = (v.getLsbD 3).toNat ∧ (chan u ch.val).written = true ∧
      lcState u ch.val = (if isSet s (fLcEnable ch.val) && !v.getLsbD 0 then 0 else lcState s ch.val))) ∧
  (∀ (s : State) (ch : ChanId), isSet s (fLcEnable ch.val) = true →
    Completes (.lcCtrlDisable .cp ch) s (fun u =>
      getF u (fLcEnable ch.val) = 0 ∧ lcState u ch.val = 0 ∧ lcDrive u ch.val = false ∧
      (chan u ch.val).staged = (chan s ch.val).staged)) ∧
  (∀ (s : State) (g : GroupId) (v : Word), (∀ c ∈ groupChans g.val, lcCfgOk s c = true) →
    Completes (.lcGcfgWrite .cp g v) s (fun u =>
      getF u (fLgSagCode g.val) = bitsOf v 7 0 ∧ (bitsOf v 7 0 = 0 → getF u (fLgSag g.val) = 0) ∧
      (lgroup u g.val).sagFrom = now s + 1 ∧ u.chans = s.chans)) ∧
  (∀ (s : State) (g : GroupId) (v : Word), (∃ c ∈ groupChans g.val, lcCfgOk s c = false) →
    Completes (.lcGcfgWrite .cp g v) s (fun u =>
      reg u (lgK g.val 0) = reg s (lgK g.val 0) ∧ u.chans = s.chans ∧
      ∀ c ∈ groupChans g.val, lcCfgOk s c = false → getF u (fLcCmdrej c) = 1)) ∧
  (∀ (s : State) (c : CoreId) (ch : ChanId) (g : GroupId) (off : Fin 32) (v : Word),
    (isCp c = false ∨ lcDecoded off.val = false →
      exec (.lcConfigWrite c ch off v) s = .next (busErr c (lcK ch.val (4 * off.val)) s)) ∧
    (isCp c = false → exec (.lcCtrlDisable c ch) s = .next (busErr c (lcK ch.val 0) s) ∧
      exec (.lcGcfgWrite c g v) s = .next (busErr c (lgK g.val 0) s))))

/-- R161, R163–R165, R167–R169, R171, R187: the grant and the end of an inrush, the phases of kicks, blinks and tests, the
automatic retry, and the samples of a trace; where a condition is not met the command has no effect. -/
def Obligations.LoadPhases : Prop :=
  (∀ (s : State) (g : GroupId) (c t : Nat) (q : List Nat), (lgroup s g.val).queue = c :: q → c / 8 = g.val →
    (∀ d ∈ groupChans g.val, lcState s d ≠ 2 ∧ isSet s (fLcDischarging d) = false) → isSet s (fLgSag g.val) = false →
    ((lgroup s g.val).lastEnd = none ∧ t = now s ∨ ∃ e, (lgroup s g.val).lastEnd = some e ∧
      dueNow s (e + 4800 * getF s (fLgGap g.val)) = true ∧ t = max (now s) (e + 4800 * getF s (fLgGap g.val))) →
    Completes (.inrushGrant g) s (fun u =>
      now u = t ∧ (lgroup u g.val).queue = q.filter (fun d => d ≠ c) ∧
      (ptsOk 0 0 (lcProfile s c) = true → lcState u c = 2 ∧ (chan u c).grant = t ∧ getF u (fLgInrush g.val) = c ∧
        lcDrive u c = true ∧
        (chan u c).phaseEnd = (match (chan s c).mode with
          | .steady => none
          | .kick => some (t + msTurns (getF s (fLcPulse c)))
          | .blink a _ => some (t + msTurns a)) ∧
        (chan u c).trace = (if lcTraced s c then some [] else none)) ∧
      (ptsOk 0 0 (lcProfile s c) = false → lcState u c = 0 ∧ getF u (fLcProferr c) = 1 ∧ (chan u c).mode = .steady))) ∧
  (∀ (s : State) (g : GroupId),
    ((lgroup s g.val).queue = [] ∨ (∃ d ∈ groupChans g.val, lcState s d = 2 ∨ isSet s (fLcDischarging d) = true) ∨
      isSet s (fLgSag g.val) = true ∨
      (∃ e, (lgroup s g.val).lastEnd = some e ∧ dueNow s (e + 4800 * getF s (fLgGap g.val)) = false) →
    exec (.inrushGrant g) s = .next s)) ∧
  (∀ (s : State) (ch : ChanId), lcState s ch.val = 2 →
    (∀ q, (chan s ch.val).phaseEnd = some q → inrushEnds s ch.val ≤ q) → dueNow s (inrushEnds s ch.val) = true →
    (outranked (goTo (inrushEnds s ch.val) s) ch.val 4 = false → Completes (.inrushEnd ch) s (fun u =>
      lcState u ch.val = 3 ∧ getF u (fLcAborts ch.val) = 0 ∧ getF u (fLgInrush (ch.val / 8)) = 255 ∧
      (chan u ch.val).mode = (chan s ch.val).mode ∧ (chan u ch.val).trace = none ∧
      (lgroup u (ch.val / 8)).lastEnd = some (max (now s) (inrushEnds s ch.val)))) ∧
    (outranked (goTo (inrushEnds s ch.val) s) ch.val 4 = true →
      exec (.inrushEnd ch) s = .next (goTo (inrushEnds s ch.val) s))) ∧
  (∀ (s : State) (ch : ChanId) (e : Nat), (chan s ch.val).mode = .kick → lcState s ch.val = 2 ∨ lcState s ch.val = 3 →
    (chan s ch.val).phaseEnd = some e → dueNow s e = true → Completes (.kickEnd ch) s (fun u =>
      now u = max (now s) e ∧ lcState u ch.val = 0 ∧ (chan u ch.val).mode = .steady ∧ (chan u ch.val).phaseEnd = none ∧
      (lcState s ch.val = 2 → getF u (fLgInrush (ch.val / 8)) = 255 ∧
        (lgroup u (ch.val / 8)).lastEnd = some (max (now s) e)))) ∧
  (∀ (s : State) (ch : ChanId) (a b e : Nat), (chan s ch.val).mode = .blink a b →
    lcState s ch.val = 2 ∨ lcState s ch.val = 3 → (chan s ch.val).phaseEnd = some e → dueNow s e = true →
    Completes (.blinkOnEnd ch) s (fun u =>
      lcState u ch.val = 6 ∧ (chan u ch.val).mode = lcNext (chan s ch.val) ∧ (chan u ch.val).next = none ∧
      (chan u ch.val).phaseEnd = some (max (now s) e + msTurns (offMs (lcNext (chan s ch.val)))) ∧
      (lcState s ch.val = 2 → getF u (fLgInrush (ch.val / 8)) = 255 ∧
        (lgroup u (ch.val / 8)).lastEnd = some (max (now s) e)))) ∧
  (∀ (s : State) (ch : ChanId) (e : Nat), lcState s ch.val = 6 → (chan s ch.val).phaseEnd = some e → dueNow s e = true →
    Completes (.blinkOffEnd ch) s (fun u =>
      lcState u ch.val = 1 ∧ (chan u ch.val).phaseEnd = none ∧ (chan u ch.val).mode = lcNext (chan s ch.val) ∧
      (lgroup u (ch.val / 8)).queue = queueIn s ch.val (max (now s) e) (lgroup s (ch.val / 8)).queue)) ∧
  (∀ (s : State) (ch : ChanId),
    (lcState s ch.val ≠ 2 ∨ dueNow s (inrushEnds s ch.val) = false ∨
      (∃ q, (chan s ch.val).phaseEnd = some q ∧ q < inrushEnds s ch.val) → exec (.inrushEnd ch) s = .next s) ∧
    ((chan s ch.val).phaseEnd = none ∨ (∃ e, (chan s ch.val).phaseEnd = some e ∧ dueNow s e = false) →
      exec (.kickEnd ch) s = .next s ∧ exec (.blinkOnEnd ch) s = .next s ∧ exec (.blinkOffEnd ch) s = .next s) ∧
    (lcState s ch.val ≠ 2 → lcState s ch.val ≠ 3 → exec (.kickEnd ch) s = .next s ∧ exec (.blinkOnEnd ch) s = .next s) ∧
    ((chan s ch.val).mode ≠ .kick → exec (.kickEnd ch) s = .next s) ∧
    ((chan s ch.val).mode = .steady ∨ (chan s ch.val).mode = .kick → exec (.blinkOnEnd ch) s = .next s) ∧
    (lcState s ch.val ≠ 6 → exec (.blinkOffEnd ch) s = .next s)) ∧
  (∀ (s : State) (ch : ChanId) (t0 a : Nat), (chan s ch.val).test = some (t0, a, false) → dueNow s (t0 + 480 * a) = true →
    Completes (.testOffEnd ch false) s (fun u =>
      (chan u ch.val).test = some (t0, a, true) ∧ now u = max (now s) (t0 + 480 * a) ∧ lcState u ch.val = lcState s ch.val) ∧
    ((chan s ch.val).next = none ∨ (chan s ch.val).next = some .steady →
      Completes (.testOffEnd ch true) s (fun u =>
        (chan u ch.val).test = none ∧ lcState u ch.val = 3 ∧ getF u (fLcTestfail ch.val) = 1 ∧
        getF u (fLcCause ch.val) = 4 ∧ now u = max (now s) (t0 + 480 * a)))) ∧
  (∀ (s : State) (ch : ChanId) (first : Option (Fin 48000)) (t0 a : Nat), (chan s ch.val).test = some (t0, a, true) →
    dueNow s (t0 + 480 * a + 48000) = true → Completes (.testWindowEnd ch first) s (fun u =>
      (chan u ch.val).test = none ∧ now u = max (now s) (t0 + 480 * a + 48000) ∧
      ((chan s ch.val).next = none ∨ (chan s ch.val).next = some .steady → lcState u ch.val = 3) ∧
      (∀ x y, (chan s ch.val).mode = .steady → (chan s ch.val).next = some (.blink x y) →
        lcState u ch.val = 6 ∧ (chan u ch.val).mode = .blink x y) ∧
      (first.isSome = true → getF u (fLcTestpass ch.val) = 1) ∧
      (first = none → getF u (fLcTestfail ch.val) = 1 ∧ getF u (fLcCause ch.val) = 6))) ∧
  (∀ (s : State) (ch : ChanId) (above : Bool) (first : Option (Fin 48000)),
    ((∀ t0 a, (chan s ch.val).test = some (t0, a, false) → dueNow s (t0 + 480 * a) = false) →
      exec (.testOffEnd ch above) s = .next s) ∧
    ((∀ t0 a, (chan s ch.val).test = some (t0, a, true) → dueNow s (t0 + 480 * a + 48000) = false) →
      exec (.testWindowEnd ch first) s = .next s)) ∧
  (∀ (s : State) (ch : ChanId),
    (lcState s ch.val = 5 → isSet s (fLcRetry ch.val) = true → getF s (fLcCause ch.val) = 2 ∨ getF s (fLcCause ch.val) = 3 →
      getF s (fLcRetries ch.val) < 3 → dueNow s ((chan s ch.val).tripAt + msTurns 1000) = true →
      Completes (.autoRetry ch) s (fun u =>
        getF u (fLcRetries ch.val) = getF s (fLcRetries ch.val) + 1 ∧
        lcState u ch.val = (if (chan s ch.val).tripKick then 0 else 1) ∧
        ((chan s ch.val).tripKick = false → (lgroup u (ch.val / 8)).queue = queueIn s ch.val
          (max (now s) ((chan s ch.val).tripAt + msTurns 1000)) (lgroup s (ch.val / 8)).queue))) ∧
    (lcState s ch.val ≠ 5 ∨ isSet s (fLcRetry ch.val) = false ∨ getF s (fLcCause ch.val) ∉ [2, 3] ∨
      3 ≤ getF s (fLcRetries ch.val) ∨ dueNow s ((chan s ch.val).tripAt + msTurns 1000) = false →
      exec (.autoRetry ch) s = .next s)) ∧
  (∀ (s : State) (ch : ChanId) (r : BitVec 12),
    (∀ rs, (chan s ch.val).trace = some rs → lcState s ch.val = 2 → rs.length < 20000 →
      dueNow s ((chan s ch.val).grant + 4800 * rs.length) = true →
      Completes (.traceSample ch r) s (fun u => (chan u ch.val).trace = some (r :: rs))) ∧
    ((chan s ch.val).trace = none ∨ lcState s ch.val ≠ 2 ∨ (∃ rs, (chan s ch.val).trace = some rs ∧
        (20000 ≤ rs.length ∨ dueNow s ((chan s ch.val).grant + 4800 * rs.length) = false)) →
      exec (.traceSample ch r) s = .next s))

/-- R180, R182, R184, R185, R194–R197: the life of a segment. A running engine's (or sending member's) closes after 1 s, a
running engine's on a write of CLOSE, and the next one opens at the same turn; the first closed segment without a header
is signed with its chain's SEQ and placed at the write pointer, or FULL is set; the first one is committed once signed,
while each entry that it touches has a member that takes it. Whatever its records, its body decodes to exactly their
stream and is not too long. Where a condition is not met the command has no effect. -/
def Obligations.Segments : Prop :=
  (∀ str : List Byte, decodeBody (encodeBody str) = some str ∧ (encodeBody str).length ≤ bodyMax str.length) ∧
  (∀ (s : State) (g : Seg), s.journal.openSeg = some g → limited s = true → dueNow s (g.openTurn + segTurns) = true →
    Completes .segmentTimeClose s (fun u =>
      now u = max (now s) (g.openTurn + segTurns) ∧
      u.journal.openSeg.map (fun h => h.openTurn) = some (g.openTurn + segTurns) ∧
      (streams s = false → u.journal.closed.getLast?.map (fun h => (h.close, h.closeTurn)) = some (1, g.openTurn + segTurns)) ∧
      u.journal.runs = [] ∧ u.journal.traces = [])) ∧
  (∀ s : State, s.journal.openSeg = none ∨ limited s = false ∨
    (∃ g, s.journal.openSeg = some g ∧ dueNow s (g.openTurn + segTurns) = false) → exec .segmentTimeClose s = .next s) ∧
  (∀ (s : State) (g : Seg), s.journal.openSeg = some g → isSet s fJnlRunning = true →
    Completes (.jnlCtrlClose .cp) s (fun u =>
      u.journal.openSeg.map (fun h => h.openTurn) = some (now s) ∧
      (streams s = false → u.journal.closed.getLast?.map (fun h => (h.close, h.closeTurn)) = some (2, now s)))) ∧
  (∀ (s : State) (g : Seg) (ps gs : List Seg), s.journal.closed = ps ++ g :: gs → g.header = none →
    (∀ p ∈ ps, p.header.isSome = true) → isSet s fJnlRunning = true →
    Completes .segmentSign s (fun u =>
      (canPlace s (segSize g) = true →
        u.journal.closed = ps ++ { g with
                                   seq := (chainOf s g.chain).1, jaddr := s.journal.wptr,
                                   header := some (signedHead s { g with seq := (chainOf s g.chain).1, jaddr := s.journal.wptr } (chainOf s g.chain).2) } :: gs ∧
        u.journal.wptr = nextPlace s s.journal.wptr (segSize g) ∧
        (g.chain = none → u.journal.seq = s.journal.seq + 1)) ∧
      (canPlace s (segSize g) = false → getF u fJnlFull = 1 ∧ u.journal = s.journal))) ∧
  (∀ (s : State) (g : Seg) (gs : List Seg), s.journal.closed = g :: gs → g.header.isSome = true →
    (∀ e ∈ segEntries s g, takers s e ≠ []) → isSet s fJnlRunning = true →
    Completes .segmentCommit s (fun u =>
      u.journal.closed = gs ∧ u.journal.stage = s.journal.stage - segSize g ∧
      u.journal.committed = { g with members := ((segEntries s g).map (takers s)).flatten } ::
        s.journal.committed.filter (fun h => !overlaps g h) ∧
      (¬ (g.chain = none ∧ (g.seq + 1) % 1024 = 0) → u.journal.anchors = s.journal.anchors))) ∧
  (∀ s : State,
    (isSet s fJnlRunning = false ∨ (∀ g ∈ s.journal.closed, g.header.isSome = true) → exec .segmentSign s = .next s) ∧
    (isSet s fJnlRunning = false ∨ s.journal.closed = [] ∨ (∃ g gs, s.journal.closed = g :: gs ∧
      (g.header = none ∨ ∃ e ∈ segEntries s g, takers s e = [])) → exec .segmentCommit s = .next s) ∧
    (isSet s fJnlRunning = false → exec (.jnlCtrlClose .cp) s = .next s) ∧
    (∀ c, isCp c = false → exec (.jnlCtrlClose c) s = .next (busErr c 0x40000000 s)))

/-- R194, R197, R199, R202, R203: enabling the engine, the search for its chain heads, disabling it; a member's failure,
replacement and rebuild; the writes of an entry. Registers of the engine are the control processor's. R195, R202: the
archive pointer moves forward, at most to the write pointer; a read of a low word latches the high one for the
requester. -/
def Obligations.JournalEngine : Prop :=
  ((∀ (s : State) (identified : Bool), isSet s fJnlEnable = false →
    Completes (.jnlEnable .cp identified) s (fun u =>
      getF u fJnlRunning = getF s fJnlRunning ∧
      (identified = true → isSet s fKeyfail = false → (∀ n, n < 16 → mirrorOk s n = true) → getF u fJnlEnable = 1) ∧
      (identified = false ∨ isSet s fKeyfail = true ∨ (∃ n, n < 16 ∧ mirrorOk s n = false) →
        getF u fJnlEnable = 0 ∧ getF u fJnlCfgerr = 1))) ∧
  (∀ (s : State) (identified : Bool), isSet s fJnlEnable = true → exec (.jnlEnable .cp identified) s = .next s) ∧
  (∀ (s : State) (head : Option Nat), isSet s fJnlEnable = true → isSet s fJnlRunning = false →
    Completes (.chainHeadFound head) s (fun u =>
      getF u fJnlRunning = 1 ∧ u.journal.openSeg.isSome = true ∧
      (u.journal.seq, u.journal.prevDigest, u.journal.wptr, u.journal.arch) = (match findHead s with
        | some (a, w) =>
          let own := (w.chains.find? (fun c => c.1.isNone)).elim (0, []) (fun c => c.2)
          (own.1, own.2, w.at_, leAt a 60 8)
        | none => (0, List.replicate 32 0, 0x10000, s.journal.arch)))) ∧
  (∀ (s : State) (head : Option Nat), isSet s fJnlEnable = false ∨ isSet s fJnlRunning = true → exec (.chainHeadFound head) s = .next s) ∧
  (∀ s : State, Completes (.jnlDisable .cp) s (fun u =>
    getF u fJnlEnable = 0 ∧ (isSet s fJnlRunning = true → getF u fJnlRunning = 0 ∧
      ∃ i b, u.journal.anchors.head? = some (i, b ++ sha256 b) ∧ i < 2 ∧ b.length = 68 ∧ b.take 4 = [0x4A, 0x41, 0x4E, 0x31]) ∧
    (isSet s fJnlRunning = false → u = setF fJnlEnable 0 s))) ∧
  (∀ (s : State) (e : Fin 16), isSet s (fNsValid e.val) = true → getF s (fNsState e.val) ≠ 1 →
    Completes (.driveFail e) s (fun u =>
      getF u (fNsState e.val) = 1 ∧ getF u fJnlDrive = 1 ∧ getF u fJnlDegraded = 1)) ∧
  (∀ (s : State) (e : Fin 16), isSet s (fNsValid e.val) = false ∨ getF s (fNsState e.val) = 1 →
    exec (.driveFail e) s = .next s) ∧
  (∀ (s : State) (e : Fin 16),
    (getF s (fNsState e.val) = 2 → Completes (.rebuildComplete e) s (fun u =>
      getF u (fNsState e.val) = 0 ∧ ∀ k : Fin 16, k ≠ e → getF u (fNsState k.val) = getF s (fNsState k.val))) ∧
    (getF s (fNsState e.val) ≠ 2 → exec (.rebuildComplete e) s = .next s)) ∧
  (∀ (s : State) (e : Fin 16) (r : Fin 3) (v : Word),
    (r.val = 0 → getF s (fNsState e.val) = 1 → Completes (.jnlEntryWrite .cp e r v) s (fun u =>
      getF u (fNsState e.val) = 2 ∧ reg u (0x40000100 + 16 * e.val) = v)) ∧
    (r.val ≠ 0 ∨ getF s (fNsState e.val) ≠ 1 → isSet s fJnlEnable = true →
      Completes (.jnlEntryWrite .cp e r v) s (fun u =>
        getF u fJnlCfgerr = 1 ∧
        reg u (0x40000100 + 16 * e.val + 4 * r.val) = reg s (0x40000100 + 16 * e.val + 4 * r.val))) ∧
    (r.val ≠ 0 ∨ getF s (fNsState e.val) ≠ 1 → isSet s fJnlEnable = false →
      exec (.jnlEntryWrite .cp e r v) s = .next (softWrite (0x40000100 + 16 * e.val + 4 * r.val) v s))) ∧
  (∀ (s : State) (c : CoreId) (identified : Bool) (e : Fin 16) (r : Fin 3) (v : Word), isCp c = false →
    exec (.jnlEnable c identified) s = .next (busErr c 0x40000000 s) ∧
    exec (.jnlDisable c) s = .next (busErr c 0x40000000 s) ∧
    exec (.jnlEntryWrite c e r v) s = .next (busErr c (0x40000100 + 16 * e.val + 4 * r.val) s))) ∧
  ((∀ (s : State) (v : Word), Completes (.jnlArchWrite .cp v) s (fun u =>
    u.journal.arch =
      (if s.journal.archLo.toNat + 2 ^ 32 * bitsOf v 15 0 < jnlSpace s ∧
          placeDist s s.journal.arch (s.journal.archLo.toNat + 2 ^ 32 * bitsOf v 15 0) ≤
            placeDist s s.journal.arch s.journal.wptr
        then s.journal.archLo.toNat + 2 ^ 32 * bitsOf v 15 0 else s.journal.arch) ∧
    u.journal.wptr = s.journal.wptr ∧ u.journal.seq = s.journal.seq)) ∧
  (∀ (s : State) (c : CoreId) (v : Word), isCp c = false →
    exec (.jnlArchWrite c v) s = .next (busErr c 0x40000014 s)) ∧
  (∀ (s : State) (r : Requester), Completes (.jnlWptrLoRead r) s (fun u =>
    Tab.getD u.journal.latchW (reqIx r) 0 = BitVec.ofNat 32 (s.journal.wptr / 2 ^ 32) ∧ u.journal.wptr = s.journal.wptr ∧
    ∀ k, k ≠ reqIx r → Tab.getD u.journal.latchW k 0 = Tab.getD s.journal.latchW k 0)) ∧
  (∀ (s : State) (r : Requester), Completes (.jnlSeqLoRead r) s (fun u =>
    Tab.getD u.journal.latchS (reqIx r) 0 = BitVec.ofNat 32 (openSeq s / 2 ^ 32) ∧ u.journal.seq = s.journal.seq ∧
    ∀ k, k ≠ reqIx r → Tab.getD u.journal.latchS k 0 = Tab.getD s.journal.latchS k 0)))

/-- R206, R209: an apply is taken at the first tick after it is requested, and needs an entry for T0; greedy mode is taken
when every other thread is STOPPED or FAULTED, and starts and ends at a round boundary. T0 of the cluster and the
control processor command it; any other core gets a bus error. R214–R216, R326: a read of a free lock takes it for its
reader, but for an attempt of the same turn by a requester that is taken first; a lock that is taken stays its owner's.
Its owner alone frees it by a write, seen from the next turn on; LOCK_FORCE frees the lock that it names. -/
def Obligations.BarrelControl : Prop :=
  ((∀ (s : State) (c : CoreId) (n : ClusterId) (v : Word), castHolds c n.val s = none → isT0OrCp n.val c = true →
    Completes (.slotApplyRequest c n v) s (fun u =>
      (clus u n.val).applyAt = some (frameNo s + 1) ∧
      ∀ k, k < 6 → reg u (winK n.val (4 * k)) = reg s (winK n.val (4 * k)))) ∧
  (∀ (s : State) (n : ClusterId) (k : Nat), (clus s n.val).applyAt = some k → atTick s = true → k ≤ frameNo s →
    Completes (.slotTableApply n) s (fun u =>
      (clus u n.val).applyAt = none ∧
      (nextHasT0 s n.val = true → ∀ i, i < 3 → reg u (winK n.val (4 * i)) = reg s (winK n.val (0x10 + 4 * i))) ∧
      (nextHasT0 s n.val = false → getF u (fSlotrej n.val) = 1 ∧
        ∀ i, i < 3 → reg u (winK n.val (4 * i)) = reg s (winK n.val (4 * i))))) ∧
  (∀ (s : State) (n : ClusterId), (clus s n.val).applyAt = none ∨ atTick s = false ∨
    (∃ k, (clus s n.val).applyAt = some k ∧ frameNo s < k) → exec (.slotTableApply n) s = .next s) ∧
  (∀ (s : State) (c : CoreId) (n : ClusterId) (v : Word), castHolds c n.val s = none → isT0OrCp n.val c = true →
    Completes (.greedyOn c n v) s (fun u =>
      getF u (fGthread n.val) =
        (if greedyAct s n.val = false ∧ bitsOf v 15 12 ≤ 11 then bitsOf v 15 12 else getF s (fGthread n.val)) ∧
      (othersStopped s n.val (getF u (fGthread n.val)) = true →
        getF u (fGreedy n.val) = 1 ∧
        (clus u n.val).greedyAt = (if isSet s (fGreedy n.val) then (clus s n.val).greedyAt else some (nextRound s, true))) ∧
      (othersStopped s n.val (getF u (fGthread n.val)) = false →
        getF u (fGreedy n.val) = 0 ∧ getF u (fGrej n.val) = 1 ∧
        (clus u n.val).greedyAt = (if isSet s (fGreedy n.val) then some (nextRound s, false) else (clus s n.val).greedyAt)))) ∧
  (∀ (s : State) (c : CoreId) (n : ClusterId) (v : Word), castHolds c n.val s = none → isT0OrCp n.val c = true →
    Completes (.greedyOff c n v) s (fun u =>
      getF u (fGreedy n.val) = 0 ∧
      (clus u n.val).greedyAt = (if isSet s (fGreedy n.val) then some (nextRound s, false) else (clus s n.val).greedyAt))) ∧
  (∀ (s : State) (c : CoreId) (n : ClusterId) (v : Word), castHolds c n.val s = none → isT0OrCp n.val c = false →
    exec (.slotApplyRequest c n v) s = .next (busErr c (winK n.val 0x1C) s) ∧
    exec (.greedyOn c n v) s = .next (busErr c (winK n.val 0x1C) s) ∧
    exec (.greedyOff c n v) s = .next (busErr c (winK n.val 0x1C) s))) ∧
  ((∀ (s : State) (c : CoreId) (n : ClusterId) (l : LockId), castHolds c n.val s = none →
    (inWindow n.val c = true → lockYields s c n l = false → lockOwner s (lockK n.val l.val) = none →
      Completes (.lockAcquire c n l) s (fun u =>
        Tab.find u.locks (lockK n.val l.val) = some { owner := ownerCode s c, freed := none } ∧
        ∀ k, k ≠ lockK n.val l.val → Tab.find u.locks k = Tab.find s.locks k)) ∧
    (inWindow n.val c = true → lockYields s c n l = true ∨ (lockOwner s (lockK n.val l.val)).isSome = true →
      exec (.lockAcquire c n l) s = .next s) ∧
    (inWindow n.val c = true → ownsLock s (lockK n.val l.val) (ownerCode s c) = true →
      Completes (.lockRelease c n l) s (fun u => Released s u (lockK n.val l.val) (now s))) ∧
    (inWindow n.val c = true → ownsLock s (lockK n.val l.val) (ownerCode s c) = false →
      exec (.lockRelease c n l) s = .next (busErr c (winK n.val (0x400 + 4 * l.val)) s)) ∧
    (inWindow n.val c = false →
      exec (.lockAcquire c n l) s = .next (busErr c (winK n.val (0x400 + 4 * l.val)) s) ∧
      exec (.lockRelease c n l) s = .next (busErr c (winK n.val (0x400 + 4 * l.val)) s))) ∧
  (∀ (s : State) (c : CoreId) (n : ClusterId) (v : Word), castHolds c n.val s = none →
    (isT0OrCp n.val c = true → v.getLsbD 8 = true →
      Completes (.lockForce c n v) s (fun u => Released s u (lockK n.val (bitsOf v 5 0)) (now s))) ∧
    (isT0OrCp n.val c = true → v.getLsbD 8 = false → exec (.lockForce c n v) s = .next s) ∧
    (isT0OrCp n.val c = false → exec (.lockForce c n v) s = .next (busErr c (winK n.val 0x500) s))) ∧
  (∀ (s : State) (c : CoreId) (l : Fin 256),
    (lockOwner s (chipK l.val) = none → Completes (.chipLockAcquire c l) s (fun u =>
      Tab.find u.locks (chipK l.val) = some { owner := chipOwner s c, freed := none } ∧
      ∀ k, k ≠ chipK l.val → Tab.find u.locks k = Tab.find s.locks k)) ∧
    ((lockOwner s (chipK l.val)).isSome = true → exec (.chipLockAcquire c l) s = .next s) ∧
    (ownsLock s (chipK l.val) (chipOwner s c) = true →
      Completes (.chipLockRelease c l) s (fun u => Released s u (chipK l.val) (now s))) ∧
    (ownsLock s (chipK l.val) (chipOwner s c) = false →
      exec (.chipLockRelease c l) s = .next (busErr c (0x41001000 + 4 * l.val) s))) ∧
  (∀ (s : State) (c : CoreId) (v : Word),
    (v.getLsbD 8 = true → Completes (.chipLockForce .cp v) s (fun u => Released s u (chipK (bitsOf v 7 0)) (now s))) ∧
    (v.getLsbD 8 = false → exec (.chipLockForce .cp v) s = .next s) ∧
    (isCp c = false → exec (.chipLockForce c v) s = .next (busErr c 0x41001400 s))))

/-- R209, R211, R212, R286, R287: START begins a STOPPED or FAULTED thread at its start offset with its general registers
kept, from the second turn after it on; RESUME continues it where it stopped, or parked; STOP stops a parked thread, and
an active one at its first boundary two turns later; another state is left alone, and greedy mode refuses all but its
thread. A stopped thread's context record is written word by word. T0 commands the threads of its cluster but itself,
the control processor all. R218, R274, R384: a thread's alarm is armed with the high word and rises when its turn is
reached, which occurs at its source; CORE_VBASE takes an aligned base below 0x0100_0000, and the vector line is loaded
from it. The registers of the other kind of core are a bus error, a user-mode access to CORE_VBASE raises PRIV. -/
def Obligations.ThreadControl : Prop :=
  ((∀ (s : State) (c : CoreId) (n : ClusterId) (th : ThreadNo), castHolds c n.val s = none → thrWriter n.val th.val c = true →
    greedyAct s n.val = false ∨ getF s (fGthread n.val) = th.val →
    thrState s n.val th.val = 0 ∨ thrState s n.val th.val = 3 →
    Completes (.threadStart c n th) s (fun u =>
      thrState u n.val th.val = 1 ∧ (Machine.core u (16 * n.val + th.val)).issueAt = now s + 2 ∧
      (Machine.core u (16 * n.val + th.val)).ctx.pc =
        BitVec.ofNat 32 (sliceBase n.val th.val + bitsOf (reg s (winK n.val (0x204 + 0x20 * th.val))) 15 0) ∧
      (Machine.core u (16 * n.val + th.val)).ctx.g = (Machine.core s (16 * n.val + th.val)).ctx.g ∧
      (Machine.core u (16 * n.val + th.val)).ctx.lcount = 0 ∧ (Machine.core u (16 * n.val + th.val)).ctx.parked = false ∧
      (∀ i, i ≠ 16 * n.val + th.val → Machine.core u i = Machine.core s i) ∧ u.mem = s.mem)) ∧
  (∀ (s : State) (c : CoreId) (n : ClusterId) (th : ThreadNo), castHolds c n.val s = none → thrWriter n.val th.val c = true →
    (thrState s n.val th.val = 2 → Completes (.threadStop c n th) s (fun u =>
      thrState u n.val th.val = 0 ∧ (∀ i, Machine.core u i = Machine.core s i) ∧ u.mem = s.mem)) ∧
    (thrState s n.val th.val = 1 → Completes (.threadStop c n th) s (fun u =>
      thrState u n.val th.val = 1 ∧
      (Machine.core u (16 * n.val + th.val)).stopAt = some ((Machine.core s (16 * n.val + th.val)).stopAt.getD (now s + 2)) ∧
      (longLast s n.val th.val = none → (Machine.core u (16 * n.val + th.val)).ctx = (Machine.core s (16 * n.val + th.val)).ctx) ∧
      (∀ i, i ≠ 16 * n.val + th.val → Machine.core u i = Machine.core s i) ∧ u.mem = s.mem)) ∧
    (thrState s n.val th.val = 0 ∨ thrState s n.val th.val = 3 → exec (.threadStop c n th) s = .next s)) ∧
  (∀ (s : State) (c : CoreId) (n : ClusterId) (th : ThreadNo), castHolds c n.val s = none → thrWriter n.val th.val c = true →
    greedyAct s n.val = false ∨ getF s (fGthread n.val) = th.val →
    thrState s n.val th.val = 0 ∨ thrState s n.val th.val = 3 →
    Completes (.threadResume c n th) s (fun u =>
      thrState u n.val th.val = (if (Machine.core s (16 * n.val + th.val)).ctx.parked then 2 else 1) ∧
      (∀ i, (Machine.core u i).ctx = (Machine.core s i).ctx) ∧ u.mem = s.mem)) ∧
  (∀ (s : State) (c : CoreId) (n : ClusterId) (th : ThreadNo), castHolds c n.val s = none → thrWriter n.val th.val c = true →
    (greedyAct s n.val = false ∨ getF s (fGthread n.val) = th.val →
      thrState s n.val th.val = 1 ∨ thrState s n.val th.val = 2 →
      exec (.threadStart c n th) s = .next s ∧ exec (.threadResume c n th) s = .next s) ∧
    (greedyAct s n.val = true → getF s (fGthread n.val) ≠ th.val →
      exec (.threadStart c n th) s = .next (flag (fGrej n.val) s) ∧
      exec (.threadResume c n th) s = .next (flag (fGrej n.val) s))) ∧
  (∀ (s : State) (c : CoreId) (n : ClusterId) (th : ThreadNo) (w : Fin 32) (v : Word), castHolds c n.val s = none →
    thrWriter n.val th.val c = true → thrState s n.val th.val = 0 ∨ thrState s n.val th.val = 3 →
    Completes (.thrCtxWrite c n th w v) s (fun u =>
      (w.val < 18 ∨ w.val = 20 ∨ w.val = 21 ∨ w.val = 23 ∨ w.val = 24 ∨ w.val = 25 ∨ w.val = 27 ∨ w.val = 28 →
        ctxWord u (16 * n.val + th.val) w.val = v) ∧
      (w.val = 18 ∨ w.val = 19 → ctxWord u (16 * n.val + th.val) w.val = v &&& 0xF00001F0) ∧
      (w.val = 22 → ctxWord u (16 * n.val + th.val) 22 = v &&& 1) ∧
      (w.val = 26 → bitsOf v 7 1 ≤ 64 → ctxWord u (16 * n.val + th.val) 26 = v &&& 0x3FF) ∧
      (29 ≤ w.val → ctxWord u (16 * n.val + th.val) w.val = 0) ∧
      (∀ i, i ≠ 16 * n.val + th.val → Machine.core u i = Machine.core s i) ∧
      ∀ x, x < 16 → x ≠ w.val → ctxWord u (16 * n.val + th.val) x = ctxWord s (16 * n.val + th.val) x)) ∧
  (∀ (s : State) (c : CoreId) (n : ClusterId) (th : ThreadNo) (w : Fin 32) (v : Word), castHolds c n.val s = none →
    (thrWriter n.val th.val c = true → thrState s n.val th.val = 1 ∨ thrState s n.val th.val = 2 →
      exec (.thrCtxWrite c n th w v) s = .next s) ∧
    (thrWriter n.val th.val c = false →
      exec (.threadStart c n th) s = .next (busErr c (thrCtrlK n.val th.val) s) ∧
      exec (.threadStop c n th) s = .next (busErr c (thrCtrlK n.val th.val) s) ∧
      exec (.threadResume c n th) s = .next (busErr c (thrCtrlK n.val th.val) s) ∧
      exec (.thrCtxWrite c n th w v) s = .next (busErr c (winK n.val (0x1000 + 0x80 * th.val + 4 * w.val)) s)))) ∧
  ((∀ (s : State) (n : ClusterId) (th : ThreadNo) (v : Word), castHolds (.thread n th) n.val s = none →
    Completes (.thrAlarmArm (.thread n th) v) s (fun u =>
      (Machine.core u (16 * n.val + th.val)).alarm = some ((reg s (privK (16 * n.val + th.val) 0x614)).toNat + 2 ^ 32 * v.toNat) ∧
      (Machine.core u (16 * n.val + th.val)).risen =
        decide ((reg s (privK (16 * n.val + th.val) 0x614)).toNat + 2 ^ 32 * v.toNat ≤ now s) ∧
      (Machine.core u (16 * n.val + th.val)).ctx = (Machine.core s (16 * n.val + th.val)).ctx ∧
      ((Machine.core s (16 * n.val + th.val)).alarm = none → isSet s (fSrcEn n.val (1 + th.val)) = true →
        icDark s n.val = false → Unserved s n.val (1 + th.val) (now s) →
        (reg s (privK (16 * n.val + th.val) 0x614)).toNat + 2 ^ 32 * v.toNat ≤ now s →
        getF u (fPend n.val (1 + th.val)) = 1))) ∧
  (∀ (s : State) (n : ClusterId) (th : ThreadNo) (e : Nat), (Machine.core s (16 * n.val + th.val)).alarm = some e →
    dueNow s e = true → (Machine.core s (16 * n.val + th.val)).risen = false →
    Completes (.threadAlarm n th) s (fun u =>
      now u = max (now s) e ∧ (Machine.core u (16 * n.val + th.val)).risen = true ∧
      (isSet s (fSrcEn n.val (1 + th.val)) = true → icDark s n.val = false →
        Unserved s n.val (1 + th.val) (max (now s) e) →
        getF u (fPend n.val (1 + th.val)) = 1))) ∧
  (∀ (s : State) (n : ClusterId) (th : ThreadNo), (Machine.core s (16 * n.val + th.val)).alarm = none ∨
    (Machine.core s (16 * n.val + th.val)).risen = true ∨
    (∃ e, (Machine.core s (16 * n.val + th.val)).alarm = some e ∧ dueNow s e = false) → exec (.threadAlarm n th) s = .next s) ∧
  (∀ (s : State) (c : CoreId) (v : Word), castHolds c (coreCl c) s = none → isThread c = false → supCore s c = true →
    Completes (.coreVbaseWrite c v) s (fun u =>
      getF u (fld (privK (runIx s c) 0x800) 31 8) =
        (if v.toNat < 0x01000000 then bitsOf v 31 8 else getF s (fld (privK (runIx s c) 0x800) 31 8)) ∧
      (Machine.core u (runIx s c)).vline = readBytes u ((vbase u (runIx s c)).toNat + 0x40) 32 ∧
      (Machine.core u (runIx s c)).ctx = (Machine.core s (runIx s c)).ctx)) ∧
  (∀ (s : State) (c : CoreId) (v : Word), castHolds c (coreCl c) s = none →
    (isThread c = true → exec (.coreVbaseWrite c v) s = .next (busErr c 0xF0000800 s)) ∧
    (isThread c = false → supCore s c = false → exec (.coreVbaseWrite c v) s = .next (privErr c s)) ∧
    (∀ n x, c = .lane n x → exec (.thrAlarmArm c v) s = .next (busErr c (winK n.val 0x618) s)) ∧
    (c = .cp → exec (.thrAlarmArm c v) s = .next (busErr c 0x20800618 s))))

/-- R87, R224–R226, R228: the first byte of a packet of the pad's port, its end with a notice, port events, and a freed
notice; a pad of no slot of the thread, and an event code that is none, fault; another core's access is a bus error.
R50, R77, R222, R227, R228: bytes staged by the supervisor runtime, the last one making an output of the bound tenant
while the transmit pool has room; a pop takes the oldest byte that the slot may send; TXF_NOTE holds one data value. A
slot that is not in use takes nothing, and another core's access is a bus error. -/
def Obligations.ThreadFifos : Prop :=
  ((∀ (s : State) (n : ClusterId) (th : ThreadNo) (v : Word) (j p : Nat), castHolds (.thread n th) n.val s = none →
    slotOfPad s n.val th.val (bitsOf v 21 16) = some (j, p) →
    Tab.find (fifo s (fifoIx n.val th.val)).open_ j = none →
    Completes (.rxfPush (.thread n th) v) s (fun u =>
      (∀ c, freeChunk (fifo s (fifoIx n.val th.val)) = some c →
        (Tab.find (fifo u (fifoIx n.val th.val)).open_ j).map (fun o =>
            (o.bytes.map (fun b => (b.val, b.ninth, b.err)), o.chunks, o.gapEnd)) =
          some ([(BitVec.ofNat 8 (bitsOf v 7 0), v.getLsbD 10, !v.getLsbD 8 || v.getLsbD 9)], [c], v.getLsbD 11) ∧
        readB u (fifoBase n.val th.val + 64 * c) = BitVec.ofNat 8 (bitsOf v 7 0) ∧
        readB u (fifoBase n.val th.val + 0x2E00 + c) = 0xFF) ∧
      (freeChunk (fifo s (fifoIx n.val th.val)) = none → getF u (fFifoRxovr n.val th.val) = 1 ∧
        Tab.find (fifo u (fifoIx n.val th.val)).open_ j = none))) ∧
  (∀ (s : State) (n : ClusterId) (th : ThreadNo) (v : Word), castHolds (.thread n th) n.val s = none →
    slotOfPad s n.val th.val (bitsOf v 21 16) = none →
    exec (.rxfPush (.thread n th) v) s = .next (threadFault n.val th.val 2 (BitVec.ofNat 32 (winK n.val 0x700)) s) ∧
    exec (.rxfEnd (.thread n th) v) s = .next (threadFault n.val th.val 2 (BitVec.ofNat 32 (winK n.val 0x704)) s) ∧
    exec (.rxfEvent (.thread n th) v) s = .next (threadFault n.val th.val 2 (BitVec.ofNat 32 (winK n.val 0x708)) s)) ∧
  (∀ (s : State) (n : ClusterId) (th : ThreadNo) (v : Word) (j p : Nat), castHolds (.thread n th) n.val s = none →
    slotOfPad s n.val th.val (bitsOf v 21 16) = some (j, p) →
    (∀ o, Tab.find (fifo s (fifoIx n.val th.val)).open_ j = some o → (port s p).probing = none →
      Completes (.rxfEnd (.thread n th) v) s (fun u =>
        Tab.find (fifo u (fifoIx n.val th.val)).open_ j = none ∧
        (∀ k, freeNotice (fifo s (fifoIx n.val th.val)) = some k →
          (Tab.find (fifo u (fifoIx n.val th.val)).notices k).map (fun x => (x.slot, x.kind, x.len, x.turn, x.chunks)) =
            some (j, 0, o.bytes.length, now s, o.chunks)) ∧
        (freeNotice (fifo s (fifoIx n.val th.val)) = none → getF u (fFifoRxovr n.val th.val) = 1 ∧
          (fifo u (fifoIx n.val th.val)).notices = (fifo s (fifoIx n.val th.val)).notices))) ∧
    (Tab.find (fifo s (fifoIx n.val th.val)).open_ j = none → Completes (.rxfEnd (.thread n th) v) s (fun u =>
      fifo u (fifoIx n.val th.val) = fifo s (fifoIx n.val th.val) ∧ u.mem = s.mem))) ∧
  (∀ (s : State) (n : ClusterId) (th : ThreadNo) (v : Word) (j p : Nat), castHolds (.thread n th) n.val s = none →
    slotOfPad s n.val th.val (bitsOf v 21 16) = some (j, p) →
    (bitsOf v 3 0 = 0 ∨ 7 ≤ bitsOf v 3 0 →
      exec (.rxfEvent (.thread n th) v) s = .next (threadFault n.val th.val 2 (BitVec.ofNat 32 (winK n.val 0x708)) s)) ∧
    (1 ≤ bitsOf v 3 0 → bitsOf v 3 0 ≤ 6 → (freeNotice (fifo s (fifoIx n.val th.val))).isNone = true →
      Completes (.rxfEvent (.thread n th) v) s (fun u =>
        getF u (fFifoRxovr n.val th.val) = 1 ∧ u.ports = s.ports ∧
        (fifo u (fifoIx n.val th.val)).notices = (fifo s (fifoIx n.val th.val)).notices)) ∧
    (2 ≤ bitsOf v 3 0 → bitsOf v 3 0 ≤ 6 → (freeNotice (fifo s (fifoIx n.val th.val))).isNone = false →
      (port s p).bypassed = false → Completes (.rxfEvent (.thread n th) v) s (fun u =>
        (bitsOf v 3 0 = 2 → (port u p).state = (if (port s p).state = 1 then 2 else (port s p).state)) ∧
        (bitsOf v 3 0 = 3 → (port u p).state = (if (port s p).state = 1 then 0 else (port s p).state)) ∧
        (bitsOf v 3 0 = 4 → (port s p).state ≠ 0 → (port s p).state ≠ 5 → (port u p).lossAt = some (now s)) ∧
        (bitsOf v 3 0 = 5 → (port u p).state = (port s p).state ∧
          ((port s p).state = 6 → (port u p).toActive = true ∧ (port u p).probing = none)) ∧
        (bitsOf v 3 0 = 6 → (port u p).state = (if (port s p).state = 6 then 1 else (port s p).state))))) ∧
  (∀ (s : State) (c : CoreId) (v : Word), castHolds c (coreCl c) s = none → supLane s (coreCl c) c = true →
    (bitsOf v 6 0 < 96 → bitsOf v 11 8 < 12 → Completes (.rxfFree c v) s (fun u =>
      Tab.find (fifo u (fifoIx (coreCl c) (bitsOf v 11 8))).notices (bitsOf v 6 0) = none ∧
      (fifo u (fifoIx (coreCl c) (bitsOf v 11 8))).open_ = (fifo s (fifoIx (coreCl c) (bitsOf v 11 8))).open_ ∧
      ∀ k, k ≠ bitsOf v 6 0 → Tab.find (fifo u (fifoIx (coreCl c) (bitsOf v 11 8))).notices k =
        Tab.find (fifo s (fifoIx (coreCl c) (bitsOf v 11 8))).notices k)) ∧
    (96 ≤ bitsOf v 6 0 ∨ 12 ≤ bitsOf v 11 8 → exec (.rxfFree c v) s = .next s)) ∧
  (∀ (s : State) (c : CoreId) (v : Word), castHolds c (coreCl c) s = none →
    (supLane s (coreCl c) c = false → exec (.rxfFree c v) s = .next (busErr c (winK (coreCl c) 0x744) s)) ∧
    (∀ n x, c = .lane n x →
      exec (.rxfPush c v) s = .next (busErr c (winK n.val 0x700) s) ∧
      exec (.rxfEnd c v) s = .next (busErr c (winK n.val 0x704) s) ∧
      exec (.rxfEvent c v) s = .next (busErr c (winK n.val 0x708) s)) ∧
    (c = .cp → exec (.rxfPush c v) s = .next (busErr c 0x20800700 s) ∧ exec (.rxfEnd c v) s = .next (busErr c 0x20800704 s) ∧
      exec (.rxfEvent c v) s = .next (busErr c 0x20800708 s)))) ∧
  ((∀ (s : State) (c : CoreId) (v : Word), castHolds c (coreCl c) s = none → supLane s (coreCl c) c = true →
    bitsOf v 27 24 < 12 →
    (isSet s (fSlotValid (coreCl c) (bitsOf v 27 24) (bitsOf v 30 28)) = false → exec (.txfStage c v) s = .next s) ∧
    (isSet s (fSlotValid (coreCl c) (bitsOf v 27 24) (bitsOf v 30 28)) = true → Completes (.txfStage c v) s (fun u =>
      (bitsOf v 16 16 = 0 →
        Tab.find (fifo u (fifoIx (coreCl c) (bitsOf v 27 24))).part (bitsOf v 30 28) = some (msgOf s (coreCl c) v) ∧
        u.tenants = s.tenants) ∧
      (bitsOf v 16 16 = 1 →
        Tab.find (fifo u (fifoIx (coreCl c) (bitsOf v 27 24))).part (bitsOf v 30 28) = none ∧
        ∀ ix, (port s (msgPort s (coreCl c) v)).bound = some ix →
          (ten u (ix / 16)).outs.map (fun o => (o.port, o.tenant, o.dev, o.bytes, o.fin)) =
            (ten s (ix / 16)).outs.map (fun o => (o.port, o.tenant, o.dev, o.bytes, o.fin)) ++
            (if txRoom s (msgPort s (coreCl c) v) (msgOf s (coreCl c) v).length
              then [(msgPort s (coreCl c) v, ix / 16, ix % 16, msgOf s (coreCl c) v, true)] else []))))) ∧
  (∀ (s : State) (n : ClusterId) (th : ThreadNo) (j : Fin 8), castHolds (.thread n th) n.val s = none →
    (∀ b bs, Tab.getD (fifo s (fifoIx n.val th.val)).tx j.val [] = b :: bs →
      b.rel < s.time.cur.start ∨ s.time.cur.start + 24 ≤ now s →
      Completes (.txfPop (.thread n th) j) s (fun u =>
        txfPopValue s n.val th.val j.val = BitVec.ofNat 32 (b.val.toNat + (if b.last then 0x10000 else 0)) ∧
        Tab.getD (fifo u (fifoIx n.val th.val)).tx j.val [] = bs ∧
        Tab.getD (fifo u (fifoIx n.val th.val)).popped j.val [] =
          Tab.getD (fifo s (fifoIx n.val th.val)).popped j.val [] ++ [b] ∧
        ∀ k, k ≠ j.val → Tab.getD (fifo u (fifoIx n.val th.val)).tx k [] =
          Tab.getD (fifo s (fifoIx n.val th.val)).tx k [])) ∧
    (Tab.getD (fifo s (fifoIx n.val th.val)).tx j.val [] = [] ∨
      (now s < s.time.cur.start + 24 ∧ ∃ b bs, Tab.getD (fifo s (fifoIx n.val th.val)).tx j.val [] = b :: bs ∧
        s.time.cur.start ≤ b.rel) →
      txfPopValue s n.val th.val j.val = 0x80000000 ∧ exec (.txfPop (.thread n th) j) s = .next s)) ∧
  (∀ (s : State) (n : ClusterId) (th : ThreadNo) (v : Word), castHolds (.thread n th) n.val s = none →
    Completes (.txfNote (.thread n th) v) s (fun u =>
      (fifo u (fifoIx n.val th.val)).note = some (BitVec.ofNat 9 (bitsOf v 8 0)) ∧
      (fifo u (fifoIx n.val th.val)).tx = (fifo s (fifoIx n.val th.val)).tx)) ∧
  (∀ (s : State) (c : CoreId) (j : Fin 8) (v : Word), castHolds c (coreCl c) s = none →
    (supLane s (coreCl c) c = false ∨ 12 ≤ bitsOf v 27 24 →
      exec (.txfStage c v) s = .next (busErr c (winK (coreCl c) 0x740) s)) ∧
    (∀ n x, c = .lane n x → exec (.txfPop c j) s = .next (busErr c (winK n.val (0x720 + 4 * j.val)) s) ∧
      exec (.txfNote c v) s = .next (busErr c (winK n.val 0x710) s)) ∧
    (c = .cp → exec (.txfPop c j) s = .next (busErr c (0x20800720 + 4 * j.val) s) ∧
      exec (.txfNote c v) s = .next (busErr c 0x20800710 s))))

/-- R379, R382–R386: EOI pops the writer's stack, RAISE pushes a level below the running priority, IC_SET raises edge
sources, a source's configuration clears or takes its pending state, a hold-off window ends, a core timer is armed and
falls due. The private view's registers are refused in user mode, the cluster's to all but T0 and the control processor.
R389–R394: an event of an enabled channel reaches its interrupt and output consumers one turn later, once in a turn, or
is held by a handover; a trigger is such an event of its channel; a channel's configuration and lock are written by its
permitted writers, and others get a bus error. -/
def Obligations.InterruptsAndEvents : Prop :=
  ((∀ (s : State) (c : CoreId), castHolds c (coreCl c) s = none → supCore s c = true →
    Completes (.icEoi c) s (fun u =>
      (Machine.core u (icCore s c)).stack = (Machine.core s (icCore s c)).stack.tail ∧
      ((Machine.core s (icCore s c)).stack = [] → getF u (bit (privK (icCore s c) 0) 31) = 1) ∧
      ∀ i, (Machine.core u i).ctx = (Machine.core s i).ctx)) ∧
  (∀ (s : State) (c : CoreId) (v : Word), castHolds c (coreCl c) s = none → supCore s c = true →
    Completes (.icRaise c v) s (fun u =>
      (bitsOf v 2 0 < runPri s (icCore s c) →
        (Machine.core u (icCore s c)).stack = (bitsOf v 2 0, 0x7F) :: (Machine.core s (icCore s c)).stack ∧
        runPri u (icCore s c) = bitsOf v 2 0) ∧
      (runPri s (icCore s c) ≤ bitsOf v 2 0 →
        (Machine.core u (icCore s c)).stack = (Machine.core s (icCore s c)).stack ∧ getF u (bit (privK (icCore s c) 0) 30) = 1))) ∧
  (∀ (s : State) (c : CoreId) (n : ClusterId) (hi : Bool) (v : Word), castHolds c n.val s = none → isT0OrCp n.val c = true →
    Completes (.icSet c n hi v) s (fun u => ∀ b, b < 32 →
      (v.getLsbD b = true → Rises s n.val ((if hi then 32 else 0) + b) (now s) →
        icPend u n.val ((if hi then 32 else 0) + b) = true) ∧
      (v.getLsbD b = false → icLevel n.val ((if hi then 32 else 0) + b) = false →
        icPend u n.val ((if hi then 32 else 0) + b) = icPend s n.val ((if hi then 32 else 0) + b)))) ∧
  (∀ (s : State) (c : CoreId) (n : ClusterId) (k : Fin 64) (v : Word), castHolds c n.val s = none → isT0OrCp n.val c = true →
    (icReserved n.val k.val = true → exec (.icSrcWrite c n k v) s = .next s) ∧
    (icReserved n.val k.val = false → Completes (.icSrcWrite c n k v) s (fun u =>
      getF u (fSrcEn n.val k.val) = bitsOf v 31 31 ∧ getF u (fSrcTarget n.val k.val) = bitsOf v 19 16 ∧
      getF u (fSrcLevel n.val k.val) = bitsOf v 10 8 ∧ getF u (fSrcGroup n.val k.val) = bitsOf v 2 0 ∧
      (bitsOf v 31 31 = 0 → getF u (fPend n.val k.val) = 0) ∧
      (bitsOf v 31 31 = 1 → getF s (fSrcEn n.val k.val) = 0 → isSet s (fLatch n.val k.val) = true →
        getF u (fPend n.val k.val) = 1 ∧ getF u (fLatch n.val k.val) = 0)))) ∧
  (∀ (s : State) (n : ClusterId) (g : Fin 8),
    (∀ e, Tab.find s.holds (8 * n.val + g.val) = some e → dueNow s e = true →
      Completes (.holdoffEnd n g) s (fun u =>
        now u = max (now s) e ∧ Tab.find u.holds (8 * n.val + g.val) = none ∧
        ∀ k, k ≠ 8 * n.val + g.val → Tab.find u.holds k = Tab.find s.holds k)) ∧
    ((∀ e, Tab.find s.holds (8 * n.val + g.val) = some e → dueNow s e = false) →
      exec (.holdoffEnd n g) s = .next s)) ∧
  (∀ (s : State) (c : CoreId) (v : Word), castHolds c (coreCl c) s = none → isThread c = false → supCore s c = true →
    Completes (.coreTimerArm c v) s (fun u =>
      (Machine.core u (runIx s c)).alarm = some (max (now s + 1) ((reg s (privK (runIx s c) 0x20)).toNat + 2 ^ 32 * v.toNat)) ∧
      reg u (privK (runIx s c) 0x24) = v)) ∧
  (∀ (s : State) (c : CoreId), isThread c = false →
    (∀ e, (Machine.core s (coreIx c)).alarm = some e → dueNow s e = true →
      Completes (.coreTimerDue c) s (fun u =>
        now u = max (now s) e ∧ (Machine.core u (coreIx c)).alarm = none ∧
        ∀ k, k = (match c with
          | .lane _ x => 13 + x.val
          | _ => 9) → Rises s (icOf c) k (max (now s) e) → getF u (fPend (icOf c) k) = 1)) ∧
    ((∀ e, (Machine.core s (coreIx c)).alarm = some e → dueNow s e = false) → exec (.coreTimerDue c) s = .next s)) ∧
  (∀ (s : State) (c : CoreId) (n : ClusterId) (k : Fin 64) (hi : Bool) (v : Word),
    (castHolds c (coreCl c) s = none → supCore s c = false →
      exec (.icEoi c) s = .next (privErr c s) ∧ exec (.icRaise c v) s = .next (privErr c s) ∧
      (isThread c = false → exec (.coreTimerArm c v) s = .next (privErr c s))) ∧
    (castHolds c (coreCl c) s = none → isThread c = true → exec (.coreTimerArm c v) s = .next (busErr c 0xF0000024 s)) ∧
    (isThread c = true → exec (.coreTimerDue c) s = .next s) ∧
    (castHolds c n.val s = none → isT0OrCp n.val c = false →
      exec (.icSet c n hi v) s = .next (busErr c (icK n.val (if hi then 0x18C else 0x188)) s) ∧
      exec (.icSrcWrite c n k v) s = .next (busErr c (icK n.val (4 * k.val)) s)))) ∧
  ((∀ (s : State) (n : ClusterId) (k : Fin 32),
    (inHandover s n.val = true → evExists s n.val (now s) k.val = true → Completes (.routerEvent n k) s (fun u =>
      ((clus s n.val).frameHold.contains k.val = false →
        (clus u n.val).frameHold = (clus s n.val).frameHold ++ [k.val]) ∧
      ((clus s n.val).frameHold.contains k.val = true →
        (clus u n.val).frameHold = (clus s n.val).frameHold ∧ getF u (fEvrOvr n.val k.val) = 1))) ∧
    (evExists s n.val (now s) k.val = false ∨
      (inHandover s n.val = false ∧ (clus s n.val).fired.contains (now s, k.val) = true) →
      exec (.routerEvent n k) s = .next s) ∧
    (inHandover s n.val = false → evExists s n.val (now s) k.val = true →
      (clus s n.val).fired.contains (now s, k.val) = false →
      Completes (.routerEvent n k) s (fun u =>
        (clus u n.val).fired.contains (now s, k.val) = true ∧
        (Rises s n.val (32 + k.val) (now s + 1) → icPend (goTo (now s + 1) u) n.val (32 + k.val) = true) ∧
        (Rises s n.val (32 + k.val) (now s + 1) → isSet s (fPend n.val (32 + k.val)) = true →
          getF u (fEvrOvr n.val k.val) = 1) ∧
        ((∀ c, c < 32 → isSet s (fEvrProd n.val c 29) = true → getF s (fEvrChsrc n.val c) ≠ k.val) →
          pgHeld s n.val = false → padIsSafe s (64 * n.val + getF s (fEvrOutpad n.val k.val)) = false →
          saDrives s (64 * n.val + getF s (fEvrOutpad n.val k.val)) = false →
          getF u (fOut (64 * n.val + getF s (fEvrOutpad n.val k.val))) =
            (match getF s (fEvrOutact n.val k.val) with
              | 0 => getF s (fOut (64 * n.val + getF s (fEvrOutpad n.val k.val)))
              | 1 => 1
              | 2 => 0
              | _ => 1 - getF s (fOut (64 * n.val + getF s (fEvrOutpad n.val k.val)))))))) ∧
  (∀ (s : State) (c : CoreId) (n : ClusterId) (k : Fin 32) (v : Word), castHolds c n.val s = none → bitsOf v 4 0 = k.val →
    (evrMayWrite s c n.val k.val = true → bitsOf v 8 8 = 1 → isSet s (fEvrProd n.val k.val 24) = true →
      Completes (.eventTrigger c n v) s (fun u => exec (.routerEvent n k) s = .next u)) ∧
    (evrMayWrite s c n.val k.val = true → bitsOf v 8 8 = 0 ∨ isSet s (fEvrProd n.val k.val 24) = false →
      exec (.eventTrigger c n v) s = .next s) ∧
    (evrMayWrite s c n.val k.val = false → exec (.eventTrigger c n v) s = .next (busErr c (winK n.val 0x5104) s))) ∧
  (∀ (s : State) (c : CoreId) (n : ClusterId) (k : Fin 32) (v : Word), castHolds c n.val s = none →
    (evrMayWrite s c n.val k.val = true → isSet s (fEvrLock n.val k.val) = true → exec (.evrCfgWrite c n k v) s = .next s) ∧
    (evrMayWrite s c n.val k.val = false →
      exec (.evrCfgWrite c n k v) s = .next (busErr c (evrCfgK n.val k.val) s)) ∧
    (evrMayWrite s c n.val k.val = true → isSet s (fEvrLock n.val k.val) = false →
      Completes (.evrCfgWrite c n k v) s (fun u =>
        getF u (fEvrEn n.val k.val) = bitsOf v 31 31 ∧ getF u (fEvrPadsel n.val k.val) = bitsOf v 21 16 ∧
        getF u (fEvrPedge n.val k.val) = bitsOf v 15 14 ∧ getF u (fEvrOutact n.val k.val) = bitsOf v 3 2 ∧
        (∀ j, 24 ≤ j → j ≤ 29 → getF u (fEvrProd n.val k.val j) = bitsOf v j j) ∧
        (bitsOf v 12 8 < k.val → getF u (fEvrChsrc n.val k.val) = bitsOf v 12 8) ∧
        (k.val ≤ bitsOf v 12 8 → getF u (fEvrChsrc n.val k.val) = getF s (fEvrChsrc n.val k.val) ∧
          getF u (fEvrErr n.val) = 1)))) ∧
  (∀ (s : State) (c : CoreId) (n : ClusterId) (k : Fin 32) (v : Word), castHolds c n.val s = none →
    (evrOwnMay s c n.val k.val v = false → exec (.evrLock c n k v) s = .next (busErr c (evrOwnK n.val k.val) s)) ∧
    (evrOwnMay s c n.val k.val v = true → bitsOf (hotBits s (evrOwnK n.val k.val)) 29 29 = 0 →
      Completes (.evrLock c n k v) s (fun u =>
        getF u (fEvrOvr n.val k.val) = (if bitsOf v 29 29 = 1 then 0 else getF s (fEvrOvr n.val k.val)) ∧
        (isSet s (fEvrLock n.val k.val) = false →
          getF u (fEvrLock n.val k.val) = bitsOf v 31 31 ∧ getF u (fEvrOutpad n.val k.val) = bitsOf v 21 16 ∧
          getF u (fEvrSecure n.val k.val) = bitsOf v 30 30 ∧
          (bitsOf v 8 0 ≤ 0x100 → getF u (fEvrOwner n.val k.val) = bitsOf v 8 0)) ∧
        (isSet s (fEvrLock n.val k.val) = true →
          getF u (fEvrLock n.val k.val) = 1 ∧ getF u (fEvrOutpad n.val k.val) = getF s (fEvrOutpad n.val k.val) ∧
          getF u (fEvrOwner n.val k.val) = getF s (fEvrOwner n.val k.val))))))

/-- R238, R239, R260: the sums, differences and logical operations of two registers, and the moves, with the flags the
instruction table gives; CMP and TST write flags alone. R238, R239, R260: arithmetic with a sign-extended immediate,
logic with a zero-extended one, and the wide moves, which write no flag. -/
def Obligations.RegisterArithmetic : Prop :=
  (∀ (s : State) (i : Issue) (sf : Bool) (rd ra rb : Reg) (a b : Word) (ci v : Bool),
    a = gr (runCtx s i.core) ra → b = gr (runCtx s i.core) rb → ci = pswC (runCtx s i.core).psw →
    v = pswV (runCtx s i.core).psw →
    (Ready s i (.r .add sf rd ra rb) → Completes (.add i sf rd ra rb) s (fun u =>
      Wrote s u i sf rd (a + b) (decide (2 ^ 32 ≤ a.toNat + b.toNat)) (decide (¬Fits (a.toInt + b.toInt))))) ∧
    (Ready s i (.r .adc sf rd ra rb) → Completes (.adc i sf rd ra rb) s (fun u =>
      Wrote s u i sf rd (a + b + BitVec.ofNat 32 ci.toNat) (decide (2 ^ 32 ≤ a.toNat + b.toNat + ci.toNat))
        (decide (¬Fits (a.toInt + b.toInt + ci.toNat))))) ∧
    (Ready s i (.r .sub sf rd ra rb) → Completes (.sub i sf rd ra rb) s (fun u =>
      Wrote s u i sf rd (a - b) (decide (b.toNat ≤ a.toNat)) (decide (¬Fits (a.toInt - b.toInt))))) ∧
    (Ready s i (.r .sbc sf rd ra rb) → Completes (.sbc i sf rd ra rb) s (fun u =>
      Wrote s u i sf rd (a - b - BitVec.ofNat 32 (!ci).toNat) (decide (b.toNat + (!ci).toNat ≤ a.toNat))
        (decide (¬Fits (a.toInt - b.toInt - (!ci).toNat))))) ∧
    (Ready s i (.r .and sf rd ra rb) → Completes (.andR i sf rd ra rb) s (fun u => Wrote s u i sf rd (a &&& b) ci v)) ∧
    (Ready s i (.r .or sf rd ra rb) → Completes (.orR i sf rd ra rb) s (fun u => Wrote s u i sf rd (a ||| b) ci v)) ∧
    (Ready s i (.r .xor sf rd ra rb) → Completes (.xorR i sf rd ra rb) s (fun u => Wrote s u i sf rd (a ^^^ b) ci v)) ∧
    (Ready s i (.r .andn sf rd ra rb) → Completes (.andn i sf rd ra rb) s (fun u => Wrote s u i sf rd (a &&& ~~~b) ci v)) ∧
    (Ready s i (.r .mul sf rd ra rb) → Completes (.mul i sf rd ra rb) s (fun u => Wrote s u i sf rd (a * b) ci v)) ∧
    (Ready s i (.r .mov sf rd 0 rb) → Completes (.mov i sf rd rb) s (fun u => Wrote s u i sf rd b ci v)) ∧
    (Ready s i (.r .mvn sf rd 0 rb) → Completes (.mvn i sf rd rb) s (fun u => Wrote s u i sf rd (~~~b) ci v)) ∧
    (Ready s i (.r .cmp true 0 ra rb) → Completes (.cmp i ra rb) s (fun u =>
      Compared s u i (a - b) (decide (b.toNat ≤ a.toNat)) (decide (¬Fits (a.toInt - b.toInt))))) ∧
    (Ready s i (.r .tst true 0 ra rb) → Completes (.tst i ra rb) s (fun u => Compared s u i (a &&& b) ci v)) ∧
    (Ready s i (.r .clz sf rd ra 0) → Completes (.clz i sf rd ra) s (fun u =>
      Wrote s u i sf rd (BitVec.ofNat 32 (if a = 0 then 32 else 31 - a.toNat.log2)) ci v)) ∧
    (Ready s i (.r .rev sf rd ra 0) → Completes (.rev i sf rd ra) s (fun u =>
      Wrote s u i sf rd (BitVec.ofNat 32 (ofLe (le 4 a.toNat).reverse)) ci v)) ∧
    (Ready s i (.r .sxb sf rd ra 0) → Completes (.sxb i sf rd ra) s (fun u =>
      Wrote s u i sf rd (BitVec.ofInt 32 ((BitVec.ofNat 8 a.toNat).toInt)) ci v)) ∧
    (Ready s i (.r .sxh sf rd ra 0) → Completes (.sxh i sf rd ra) s (fun u =>
      Wrote s u i sf rd (BitVec.ofInt 32 ((BitVec.ofNat 16 a.toNat).toInt)) ci v))) ∧
  (∀ (s : State) (i : Issue) (sf : Bool) (rd ra : Reg) (imm : BitVec 11) (w : BitVec 16) (a m : Word) (ci v : Bool),
    a = gr (runCtx s i.core) ra → ci = pswC (runCtx s i.core).psw → v = pswV (runCtx s i.core).psw →
    m = BitVec.ofInt 32 imm.toInt →
    (Ready s i (.i .add sf rd ra imm) → Completes (.addi i sf rd ra imm) s (fun u =>
      Wrote s u i sf rd (a + m) (decide (2 ^ 32 ≤ a.toNat + m.toNat)) (decide (¬Fits (a.toInt + imm.toInt))))) ∧
    (Ready s i (.i .sub sf rd ra imm) → Completes (.subi i sf rd ra imm) s (fun u =>
      Wrote s u i sf rd (a - m) (decide (m.toNat ≤ a.toNat)) (decide (¬Fits (a.toInt - imm.toInt))))) ∧
    (Ready s i (.i .and sf rd ra imm) → Completes (.andi i sf rd ra imm) s (fun u =>
      Wrote s u i sf rd (a &&& BitVec.ofNat 32 imm.toNat) ci v)) ∧
    (Ready s i (.i .or sf rd ra imm) → Completes (.ori i sf rd ra imm) s (fun u =>
      Wrote s u i sf rd (a ||| BitVec.ofNat 32 imm.toNat) ci v)) ∧
    (Ready s i (.i .xor sf rd ra imm) → Completes (.xori i sf rd ra imm) s (fun u =>
      Wrote s u i sf rd (a ^^^ BitVec.ofNat 32 imm.toNat) ci v)) ∧
    (Ready s i (.i .cmp true 0 ra imm) → Completes (.cmpi i ra imm) s (fun u =>
      Compared s u i (a - m) (decide (m.toNat ≤ a.toNat)) (decide (¬Fits (a.toInt - imm.toInt))))) ∧
    (Ready s i (.i .tst true 0 ra imm) → Completes (.tsti i ra imm) s (fun u =>
      Compared s u i (a &&& BitVec.ofNat 32 imm.toNat) ci v)) ∧
    (Ready s i (.w .movi rd w) → Completes (.movi i rd w) s (fun u =>
      Wrote s u i false rd (BitVec.ofNat 32 w.toNat) ci v)) ∧
    (Ready s i (.w .movn rd w) → Completes (.movn i rd w) s (fun u =>
      Wrote s u i false rd (BitVec.ofNat 32 (2 ^ 32 - 1 - w.toNat)) ci v)) ∧
    (Ready s i (.w .movhi rd w) → Completes (.movhi i rd w) s (fun u =>
      Wrote s u i false rd (BitVec.ofNat 32 (2 ^ 16 * w.toNat + (gr (runCtx s i.core) rd).toNat % 2 ^ 16)) ci v)))

/-- R240: the shifts and rotates of both formats, by the eight-bit count of rb or of the immediate. -/
def Obligations.ShiftsAndRotates : Prop :=
  ∀ (s : State) (i : Issue) (sf : Bool) (rd ra rb : Reg) (imm : BitVec 11) (a : Word) (ci v : Bool),
    a = gr (runCtx s i.core) ra → ci = pswC (runCtx s i.core).psw → v = pswV (runCtx s i.core).psw →
    (∀ n, n = bitsOf (gr (runCtx s i.core) rb) 7 0 →
      (Ready s i (.r .lsl sf rd ra rb) → Completes (.lsl i sf rd ra rb) s (fun u =>
        Wrote s u i sf rd (a <<< n) (if n = 0 then ci else decide (n ≤ 32) && a.getLsbD (32 - n)) v)) ∧
      (Ready s i (.r .lsr sf rd ra rb) → Completes (.lsr i sf rd ra rb) s (fun u =>
        Wrote s u i sf rd (a >>> n) (if n = 0 then ci else a.getLsbD (n - 1)) v)) ∧
      (Ready s i (.r .asr sf rd ra rb) → Completes (.asr i sf rd ra rb) s (fun u =>
        Wrote s u i sf rd (a.sshiftRight n) (if n = 0 then ci else a.getLsbD (min (n - 1) 31)) v)) ∧
      (Ready s i (.r .ror sf rd ra rb) → Completes (.ror i sf rd ra rb) s (fun u =>
        Wrote s u i sf rd (a.rotateRight (n % 32)) (if n = 0 then ci else (a.rotateRight (n % 32)).msb) v))) ∧
    (∀ n, n = imm.toNat % 256 →
      (Ready s i (.i .lsl sf rd ra imm) → Completes (.lsli i sf rd ra imm) s (fun u =>
        Wrote s u i sf rd (a <<< n) (if n = 0 then ci else decide (n ≤ 32) && a.getLsbD (32 - n)) v)) ∧
      (Ready s i (.i .lsr sf rd ra imm) → Completes (.lsri i sf rd ra imm) s (fun u =>
        Wrote s u i sf rd (a >>> n) (if n = 0 then ci else a.getLsbD (n - 1)) v)) ∧
      (Ready s i (.i .asr sf rd ra imm) → Completes (.asri i sf rd ra imm) s (fun u =>
        Wrote s u i sf rd (a.sshiftRight n) (if n = 0 then ci else a.getLsbD (min (n - 1) 31)) v)) ∧
      (Ready s i (.i .ror sf rd ra imm) → Completes (.rori i sf rd ra imm) s (fun u =>
        Wrote s u i sf rd (a.rotateRight (n % 32)) (if n = 0 then ci else (a.rotateRight (n % 32)).msb) v)))

/-- R241: NEG and its overflow; DIV truncates toward zero, its remainder takes the sign of the dividend, and its overflow
sets V whatever S holds; in every other case DIV and DIVU with S = 1 clear V. -/
def Obligations.NegateAndDivide : Prop :=
  ∀ (s : State) (i : Issue) (sf : Bool) (rd ra rb : Reg) (x : Ctx) (a b : Word),
    x = runCtx s i.core → a = gr x ra → b = gr x rb →
    (Ready s i (.r .neg sf rd 0 rb) → Completes (.neg i sf rd rb) s (fun u =>
      gr (runCtx u i.core) rd = 0 - b ∧ Frame1 s u i.core [rd] ∧ StatusKept x (runCtx u i.core) ∧
      pswV (runCtx u i.core).psw = (if b = 0x80000000 then true else if sf then false else pswV x.psw) ∧
      pswN (runCtx u i.core).psw = (if sf then (0 - b).msb else pswN x.psw) ∧
      pswZ (runCtx u i.core).psw = (if sf then decide (b = 0) else pswZ x.psw) ∧
      pswC (runCtx u i.core).psw = (if sf then decide (b = 0) else pswC x.psw))) ∧
    (Ready s i (.r .div sf rd ra rb) → b ≠ 0 → Completes (.div i sf rd ra rb) s (fun u =>
      gr (runCtx u i.core) rd = BitVec.ofInt 32 (a.toInt.tdiv b.toInt) ∧
      gr (runCtx u i.core) (rd + 1) = BitVec.ofInt 32 (a.toInt.tmod b.toInt) ∧
      Frame1 s u i.core [rd, rd + 1] ∧ StatusKept x (runCtx u i.core) ∧
      pswV (runCtx u i.core).psw = (if ¬Fits (a.toInt.tdiv b.toInt) then true else if sf then false else pswV x.psw) ∧
      pswN (runCtx u i.core).psw = (if sf then (BitVec.ofInt 32 (a.toInt.tdiv b.toInt)).msb else pswN x.psw) ∧
      pswZ (runCtx u i.core).psw = (if sf then decide (a.toInt.tdiv b.toInt = 0) else pswZ x.psw) ∧
      pswC (runCtx u i.core).psw = pswC x.psw)) ∧
    (Ready s i (.r .divu sf rd ra rb) → b ≠ 0 → Completes (.divu i sf rd ra rb) s (fun u =>
      gr (runCtx u i.core) rd = BitVec.ofNat 32 (a.toNat / b.toNat) ∧
      gr (runCtx u i.core) (rd + 1) = BitVec.ofNat 32 (a.toNat % b.toNat) ∧
      Frame1 s u i.core [rd, rd + 1] ∧ StatusKept x (runCtx u i.core) ∧
      pswV (runCtx u i.core).psw = (if sf then false else pswV x.psw) ∧
      pswN (runCtx u i.core).psw = (if sf then (BitVec.ofNat 32 (a.toNat / b.toNat)).msb else pswN x.psw) ∧
      pswZ (runCtx u i.core).psw = (if sf then decide (a.toNat / b.toNat = 0) else pswZ x.psw) ∧
      pswC (runCtx u i.core).psw = pswC x.psw))

/-- R211, R242, R243: products and quotients go to a register pair, whose first register is even, or ILLEGAL is raised; a
division by zero has the results of the table and sets DZ with DZT = 0, and raises DIVZERO before it writes anything
with DZT = 1. A multiply or divide that a STOP abandons has no effect. -/
def Obligations.ProductsAndDivisionByZero : Prop :=
  (∀ (s : State) (i : Issue) (sf : Bool) (rd ra rb : Reg), Free s i → rd.getLsbD 0 = true → Agreed s i →
    fetchTrap i (runCtx s i.core) true = none → ∀ p ∈ (longForms i sf rd ra rb).drop 1,
      Completes p.1 s (fun u => Entered s u i.core 1 ∧ u.mem = s.mem)) ∧
  (∀ (s : State) (i : Issue) (sf : Bool) (rd ra rb : Reg), Free s i → ∀ p ∈ longForms i sf rd ra rb,
    fetchTrap i (runCtx s i.core) (legalHere i.core (runCtx s i.core) p.2) = none →
    condHolds (runCtx s i.core).psw i.cond = true →
    stopsWithin i.core (wordTurns i.core (runCtx s i.core) p.2) s = true → exec p.1 s = .next s) ∧
  (∀ (s : State) (i : Issue) (sf : Bool) (rd ra rb : Reg) (x : Ctx) (a b : Word),
    x = runCtx s i.core → a = gr x ra → b = gr x rb →
    (Ready s i (.r .mull sf rd ra rb) → Completes (.mull i sf rd ra rb) s (fun u =>
      gr (runCtx u i.core) (rd + 1) ++ gr (runCtx u i.core) rd = BitVec.ofInt 64 (a.toInt * b.toInt) ∧
      Frame1 s u i.core [rd, rd + 1] ∧ StatusKept x (runCtx u i.core) ∧
      pswC (runCtx u i.core).psw = pswC x.psw ∧ pswV (runCtx u i.core).psw = pswV x.psw ∧
      pswN (runCtx u i.core).psw = (if sf then decide (a.toInt * b.toInt < 0) else pswN x.psw) ∧
      pswZ (runCtx u i.core).psw = (if sf then decide (a.toInt * b.toInt = 0) else pswZ x.psw))) ∧
    (Ready s i (.r .mullu sf rd ra rb) → Completes (.mullu i sf rd ra rb) s (fun u =>
      gr (runCtx u i.core) (rd + 1) ++ gr (runCtx u i.core) rd = BitVec.ofNat 64 (a.toNat * b.toNat) ∧
      Frame1 s u i.core [rd, rd + 1] ∧ StatusKept x (runCtx u i.core) ∧
      pswC (runCtx u i.core).psw = pswC x.psw ∧ pswV (runCtx u i.core).psw = pswV x.psw ∧
      pswN (runCtx u i.core).psw = (if sf then decide (2 ^ 63 ≤ a.toNat * b.toNat) else pswN x.psw) ∧
      pswZ (runCtx u i.core).psw = (if sf then decide (a.toNat * b.toNat = 0) else pswZ x.psw))) ∧
    (Ready s i (.r .div sf rd ra rb) → b = 0 → x.psw.getLsbD 7 = false → Completes (.div i sf rd ra rb) s (fun u =>
      gr (runCtx u i.core) rd = (if 0 ≤ a.toInt then 0x7FFFFFFF else 0x80000000) ∧ gr (runCtx u i.core) (rd + 1) = a ∧
      (runCtx u i.core).psw.getLsbD 8 = true ∧ Frame1 s u i.core [rd, rd + 1] ∧
      (sf = true → pswV (runCtx u i.core).psw = false ∧ pswN (runCtx u i.core).psw = a.msb ∧
        pswZ (runCtx u i.core).psw = false))) ∧
    (Ready s i (.r .divu sf rd ra rb) → b = 0 → x.psw.getLsbD 7 = false → Completes (.divu i sf rd ra rb) s (fun u =>
      gr (runCtx u i.core) rd = 0xFFFFFFFF ∧ gr (runCtx u i.core) (rd + 1) = a ∧
      (runCtx u i.core).psw.getLsbD 8 = true ∧ Frame1 s u i.core [rd, rd + 1] ∧
      (sf = true → pswV (runCtx u i.core).psw = false ∧ pswN (runCtx u i.core).psw = true ∧
        pswZ (runCtx u i.core).psw = false))) ∧
    (Ready s i (.r .div sf rd ra rb) → Agreed s i → b = 0 → x.psw.getLsbD 7 = true →
      Completes (.div i sf rd ra rb) s (fun u => Entered s u i.core 4)) ∧
    (Ready s i (.r .divu sf rd ra rb) → Agreed s i → b = 0 → x.psw.getLsbD 7 = true →
      Completes (.divu i sf rd ra rb) s (fun u => Entered s u i.core 4)))

/-- R213, R244, R246, R247: a load extends the bytes it reads, of memory or of a register word; a store writes only its
bytes, at the sum of the base and the offset; a memory compare takes an aligned word; the words that a load corrects are
counted. -/
def Obligations.LoadsStoresCompares : Prop :=
  ∀ (s : State) (i : Issue) (sz : BitVec 2) (sx : Bool) (rd ra rb : Reg) (off : BitVec 12) (x : Ctx) (a b : Nat),
    x = runCtx s i.core → a = (gr x ra + BitVec.ofInt 32 off.toInt).toNat →
    b = (gr x rb + BitVec.ofInt 32 off.toInt).toNat →
    (Ready s i (.ld sz sx rd ra off) → Readable s i false a (2 ^ sz.toNat) → Completes (.ld i sz sx rd ra off) s (fun u =>
      Wrote s u i false rd (if sx then BitVec.ofInt 32 (BitVec.ofNat (8 * 2 ^ sz.toNat) (readN s a (2 ^ sz.toNat))).toInt
        else BitVec.ofNat 32 (readN s a (2 ^ sz.toNat))) false false ∧
      getF u fScrubCorr = satAdd 4294967295 (getF s fScrubCorr) i.corrected)) ∧
    (Ready s i (.ld 2 false rd ra off) → memAddr a = false → heldAt s a = false → readTrap s i.core false a 4 = none →
      Completes (.ld i 2 false rd ra off) s (fun u =>
        gr (runCtx u i.core) rd = regValue s i.core a ∧ RegsKept x (runCtx u i.core) [rd] ∧
        (runCtx u i.core).psw = x.psw ∧ u.mem = s.mem)) ∧
    (∀ e bad, Ready s i (.ld sz sx rd ra off) → Agreed s i → heldAt s a = false →
      readTrap s i.core false a (2 ^ sz.toNat) = some (e, bad) →
      Completes (.ld i sz sx rd ra off) s (fun u => Entered s u i.core e ∧ u.mem = s.mem)) ∧
    (Ready s i (.st sz rd ra off) → Storable s i a (2 ^ sz.toNat) (gr x rd) → Completes (.st i sz rd ra off) s (fun u =>
      Stored s u a (2 ^ sz.toNat) (gr x rd) ∧ (runCtx u i.core).psw = x.psw ∧
      RegsKept x (runCtx u i.core) [] ∧ SpecKept x (runCtx u i.core) ∧ Stepped x (runCtx u i.core) ∧ RegisterKept s u ∧
      ∀ j, j ≠ runIx s i.core → Machine.core u j = Machine.core s j)) ∧
    (Ready s i (.cmpx false ra rb off) → Readable s i true b 4 → Completes (.cmpm i ra rb off) s (fun u =>
      Compared s u i (gr x ra - BitVec.ofNat 32 (readN s b 4)) (decide (readN s b 4 ≤ (gr x ra).toNat))
        (decide (¬Fits ((gr x ra).toInt - (BitVec.ofNat 32 (readN s b 4)).toInt))))) ∧
    (Ready s i (.cmpx true ra rb off) → Readable s i true b 4 → Completes (.tstm i ra rb off) s (fun u =>
      Compared s u i (gr x ra &&& BitVec.ofNat 32 (readN s b 4)) (pswC x.psw) (pswV x.psw))) ∧
    (∀ (t : Bool) e bad, Ready s i (.cmpx t ra rb off) → Agreed s i → heldAt s b = false →
      readTrap s i.core true b 4 = some (e, bad) →
      Completes (if t then .tstm i ra rb off else .cmpm i ra rb off) s (fun u => Entered s u i.core e ∧ u.mem = s.mem))

/-- R251, R255, R256: an iteration of a repeat unit performs one element of a block operation at its pointers, then counts
rc down and tests the stop condition. -/
def Obligations.BlockOperations : Prop :=
  ∀ (s : State) (i : Issue) (w : RepUnit) (sz : BitVec 2) (k rd ra rb : BitVec 4) (x : Ctx) (n src dst : Nat),
    x = runCtx s i.core → n = 2 ^ sz.toNat → src = (gr x ra).toNat → dst = (gr x rd).toNat → w.rc ≠ rd → w.rc ≠ ra →
    rd ≠ ra →
    (∀ d, d = BitVec.ofNat 32 (readN s src n) → Armed s i (.blk .copy sz 0 rd ra 0) w → Readable s i false src n →
      Storable s i dst n d → Completes (.bcopy i sz rd ra) s (fun u =>
        Stored s u dst n d ∧ gr (runCtx u i.core) ra = gr x ra + BitVec.ofNat 32 n ∧
        gr (runCtx u i.core) rd = gr x rd + BitVec.ofNat 32 n ∧ (runCtx u i.core).psw = x.psw ∧
        RegsKept x (runCtx u i.core) [rd, ra, w.rc] ∧ Iterated x (runCtx u i.core) i w)) ∧
    (Armed s i (.blk .fill sz 0 rd 0 rb) w → Storable s i dst n (gr x rb) → Completes (.bfill i sz rd rb) s (fun u =>
        Stored s u dst n (gr x rb) ∧ gr (runCtx u i.core) rd = gr x rd + BitVec.ofNat 32 n ∧
        (runCtx u i.core).psw = x.psw ∧ RegsKept x (runCtx u i.core) [rd, w.rc] ∧ Iterated x (runCtx u i.core) i w)) ∧
    (Armed s i (.blk .crc 0 k rd ra 0) w → Readable s i false src 1 → Completes (.crcb i k rd ra) s (fun u =>
        gr (runCtx u i.core) rd = crcElem k.toNat (gr x rd) (readB s src) ∧ gr (runCtx u i.core) ra = gr x ra + 1 ∧
        (runCtx u i.core).psw = x.psw ∧ RegsKept x (runCtx u i.core) [rd, ra, w.rc] ∧
        Iterated x (runCtx u i.core) i w ∧ u.mem = s.mem)) ∧
    (∀ t r, t = (gr x rb + BitVec.ofNat 32 (256 * bitsOf (gr x rd) 7 0 + (readB s src).toNat)).toNat → r = readB s t →
      Armed s i (.blk .step 0 0 rd ra rb) w → Readable s i false src 1 → Readable s i false t 1 →
      Completes (.tstep i rd ra rb) s (fun u =>
        gr (runCtx u i.core) rd = BitVec.ofNat 32 r.toNat ∧ gr (runCtx u i.core) ra = gr x ra + 1 ∧
        pswN (runCtx u i.core).psw = r.msb ∧ pswZ (runCtx u i.core).psw = decide (r = 0) ∧
        pswC (runCtx u i.core).psw = pswC x.psw ∧ pswV (runCtx u i.core).psw = pswV x.psw ∧
        StatusKept x (runCtx u i.core) ∧ RegsKept x (runCtx u i.core) [rd, ra, w.rc] ∧
        Iterated x (runCtx u i.core) i w ∧ u.mem = s.mem))

/-- R230, R234, R237, R260: the word of every instruction decodes to it under its condition, with every operand at every
legal value; and a word that decodes is that instruction's word. -/
def Obligations.WordsDecode : Prop :=
  (∀ (cond : BitVec 4) (x : Isi), x.legal = true → decodeWord (encode cond x) = some (cond, x)) ∧
  (∀ (w : Word) (cond : BitVec 4) (x : Isi), decodeWord w = some (cond, x) → encode cond x = w ∧ x.legal = true)

/-- R248, R249, R262: the slot follows a branch, then its target if its condition held and the word after the slot
otherwise; the link value is the branch's address + 8, and is written only where the condition holds. -/
def Obligations.Branches : Prop :=
  ∀ (s : State) (i : Issue) (off : BitVec 24) (rd ra : Reg) (x : Ctx), x = runCtx s i.core →
    (Ready s i (.br false off) → Completes (.b i off) s (fun u =>
      (runCtx u i.core).pc = x.pc + 4 ∧ (runCtx u i.core).npc = x.pc + BitVec.ofInt 32 (4 * off.toInt) ∧
      (runCtx u i.core).slot = true ∧ (runCtx u i.core).psw = x.psw ∧ RegsKept x (runCtx u i.core) [] ∧
      SpecKept x (runCtx u i.core) ∧ RestKept s u i.core)) ∧
    (Ready s i (.br true off) → Completes (.bl i off) s (fun u =>
      (runCtx u i.core).pc = x.pc + 4 ∧ (runCtx u i.core).npc = x.pc + BitVec.ofInt 32 (4 * off.toInt) ∧
      (runCtx u i.core).slot = true ∧ gr (runCtx u i.core) 15 = x.pc + 8 ∧ (runCtx u i.core).psw = x.psw ∧
      RegsKept x (runCtx u i.core) [15] ∧ SpecKept x (runCtx u i.core) ∧ RestKept s u i.core)) ∧
    (Ready s i (.jr ra) → (gr x ra).toNat % 4 = 0 → Completes (.jr i ra) s (fun u =>
      (runCtx u i.core).pc = x.pc + 4 ∧ (runCtx u i.core).npc = gr x ra ∧ (runCtx u i.core).slot = true ∧
      (runCtx u i.core).psw = x.psw ∧ RegsKept x (runCtx u i.core) [] ∧ SpecKept x (runCtx u i.core) ∧
      RestKept s u i.core)) ∧
    (Ready s i (.jlr rd ra) → (gr x ra).toNat % 4 = 0 → Completes (.jlr i rd ra) s (fun u =>
      (runCtx u i.core).pc = x.pc + 4 ∧ (runCtx u i.core).npc = gr x ra ∧ (runCtx u i.core).slot = true ∧
      gr (runCtx u i.core) rd = x.pc + 8 ∧ (runCtx u i.core).psw = x.psw ∧ RegsKept x (runCtx u i.core) [rd] ∧
      SpecKept x (runCtx u i.core) ∧ RestKept s u i.core)) ∧
    (Ready s i (.jr ra) → Agreed s i → (gr x ra).toNat % 4 ≠ 0 →
      Completes (.jr i ra) s (fun u => Entered s u i.core 3)) ∧
    (Ready s i (.jlr rd ra) → Agreed s i → (gr x ra).toNat % 4 ≠ 0 →
      Completes (.jlr i rd ra) s (fun u => Entered s u i.core 3)) ∧
    (∀ link : Bool, Free s i → fetchTrap i x (legalHere i.core x (.br link off)) = none → condHolds x.psw i.cond = false →
      differs s i (.br link off) = false → Completes (if link then .bl i off else .b i off) s (fun u =>
        (runCtx u i.core).pc = x.pc + 4 ∧ (runCtx u i.core).npc = x.pc + 8 ∧ (runCtx u i.core).slot = true ∧
        RegsKept x (runCtx u i.core) []))

/-- R231–R234, R259, R260, R270, R272, R275, R285: moves to and from the special registers with their privilege, RETE, FLI,
FENCE (which waits for the core's stores that a handover holds), WAIT, SVC and NOP; a word that decodes to nothing
raises ILLEGAL. -/
def Obligations.SystemInstructions : Prop :=
  ∀ (s : State) (i : Issue) (rd ra : Reg) (spr : BitVec 4) (x : Ctx), x = runCtx s i.core →
    (∀ bits, bits = (0x8000000 : BitVec 28) → Ready s i .nop → Completes (.nop i bits) s (fun u =>
      Frame1 s u i.core [] ∧ (runCtx u i.core).psw = x.psw)) ∧
    (∀ bits, decodeWord (i.cond ++ bits) = none → Free s i → Agreed s i → fetchTrap i x true = none →
      Completes (.nop i bits) s (fun u => Entered s u i.core 1)) ∧
    (Ready s i (.mfs rd spr) → (spr = 1 ∨ spr = 2 ∨ spr = 3 → x.mode.getLsbD 0 = true) →
      Completes (.mfs i rd spr) s (fun u =>
        gr (runCtx u i.core) rd = nth 0 [pswView x, x.epc, x.enpc, x.epsw, x.mode, x.lstart, x.lend, x.lcount,
          coreId s i.core] spr.toNat ∧ (runCtx u i.core).psw = x.psw ∧ Frame1 s u i.core [rd])) ∧
    (Ready s i (.mts spr ra) → (1 ≤ spr.toNat ∧ spr.toNat ≤ 4 → x.mode.getLsbD 0 = true) → x.pc ≠ x.lend →
      Completes (.mts i spr ra) s (fun u =>
        (spr = 0 → (runCtx u i.core).psw &&& 0xF0000180 = gr x ra &&& 0xF0000180 ∧
          (runCtx u i.core).psw &&& 0x0FFFFE3F = x.psw &&& 0x0FFFFE3F ∧
          (runCtx u i.core).psw.getLsbD 6 = (if x.mode.getLsbD 0 then (gr x ra).getLsbD 6 else x.psw.getLsbD 6)) ∧
        (spr ≠ 0 → (runCtx u i.core).psw = x.psw) ∧
        (runCtx u i.core).epc = (if spr = 1 then gr x ra else x.epc) ∧
        (runCtx u i.core).enpc = (if spr = 2 then gr x ra else x.enpc) ∧
        (runCtx u i.core).epsw = (if spr = 3 then gr x ra &&& 0xF00001F0 else x.epsw) ∧
        (runCtx u i.core).mode = (if spr = 4 then gr x ra &&& 1 else x.mode) ∧
        (runCtx u i.core).lstart = (if spr = 5 then gr x ra &&& 0xFFFFFFFC else x.lstart) ∧
        (runCtx u i.core).lend = (if spr = 6 then gr x ra &&& 0xFFFFFFFC else x.lend) ∧
        (spr = 7 → (runCtx u i.core).lcount = gr x ra) ∧ RegsKept x (runCtx u i.core) [] ∧
        RestKept s u i.core)) ∧
    (∀ e, e = (Isi.mfs rd spr) → Ready s i e → Agreed s i → (spr = 1 ∨ spr = 2 ∨ spr = 3) → x.mode.getLsbD 0 = false →
      Completes (.mfs i rd spr) s (fun u => Entered s u i.core 5)) ∧
    (Ready s i .rete → x.mode.getLsbD 0 = true → Completes (.rete i) s (fun u =>
      (runCtx u i.core).pc = x.epc ∧ (runCtx u i.core).npc = x.enpc ∧
      (runCtx u i.core).slot = decide (x.enpc ≠ x.epc + 4) ∧ (runCtx u i.core).psw = x.epsw &&& 0xF00001E0 ∧
      bitsOf (runCtx u i.core).mode 0 0 = bitsOf x.epsw 4 4 ∧ RegsKept x (runCtx u i.core) [] ∧ RestKept s u i.core)) ∧
    (Ready s i (.fli ra) → Completes (.fli i ra) s (fun u =>
      (isThread i.core = false → (gr x ra).toNat < 0x01000000 →
        (clus u (coreCl i.core)).lines.any (fun l => l.1 = lineOf (gr x ra)) = false) ∧
      RegsKept x (runCtx u i.core) [] ∧ (runCtx u i.core).psw = x.psw ∧ u.mem = s.mem ∧ RegisterKept s u)) ∧
    (Ready s i .fence →
      ((∀ n, n < 16 → ∀ h ∈ (clus s n).held, h.read = true ∨ h.core ≠ coreIx i.core) → Completes (.fence i) s (fun u =>
        Frame1 s u i.core [] ∧ (runCtx u i.core).psw = x.psw)) ∧
      ((∃ n, n < 16 ∧ ∃ h ∈ (clus s n).held, h.read = false ∧ h.core = coreIx i.core) → Completes (.fence i) s (fun u =>
        (runCtx u i.core).pc = x.pc ∧ (runCtx u i.core).slot = x.slot ∧ RegsKept x (runCtx u i.core) [] ∧ RestKept s u i.core))) ∧
    (Ready s i .wait → x.mode.getLsbD 0 = true → Completes (.wait i) s (fun u =>
      (runCtx u i.core).waiting = (presented s i.core).isNone ∧
      (runCtx u i.core).psw = x.psw ∧ Frame1 s u i.core [])) ∧
    (x.mode.getLsbD 0 = false → Agreed s i →
      (Ready s i .wait → Completes (.wait i) s (fun u => Entered s u i.core 5)) ∧
      (Ready s i .rete → Completes (.rete i) s (fun u => Entered s u i.core 5)) ∧
      (Ready s i (.mts spr ra) → 1 ≤ spr.toNat → spr.toNat ≤ 4 →
        Completes (.mts i spr ra) s (fun u => Entered s u i.core 5 ∧ (runCtx u i.core).g = x.g))) ∧
    (∀ imm, Ready s i (.svc imm) → Agreed s i → Completes (.svc i imm) s (fun u =>
      Entered s u i.core 8 ∧ getF u (fld (privK (runIx s i.core) 0x804) 15 8) = imm.toNat))

/-- R251–R253, R257, R262: a prefix begins a repetition, or passes over its unit; LOOP sets the loop registers; the word at
LEND goes back while LCOUNT has more to count. -/
def Obligations.RepeatsAndLoops : Prop :=
  ∀ (s : State) (i : Issue) (rc : Reg) (next : Word) (off : BitVec 12) (x : Ctx), x = runCtx s i.core →
    (∀ l : Bool, Free s i → fetchOk i.core x.pc.toNat = true → fetchOk i.core (x.pc + 4).toNat = true → i.eccFetch = false →
      x.slot = false → x.pc ≠ x.lend → repOk rc next = true → x.begun = false →
      Completes (if l then .repl i rc next else .rep i rc next) s (fun u =>
        (condHolds x.psw i.cond = true → gr x rc ≠ 0 →
          (runCtx u i.core).unit = some { word := next, rc := rc, left := if l then 64 else 0 } ∧
          (runCtx u i.core).pc = x.pc) ∧
        (condHolds x.psw i.cond = false ∨ gr x rc = 0 →
          (runCtx u i.core).unit = none ∧ (x.pc + 4 ≠ x.lend ∨ x.lcount = 0 → (runCtx u i.core).pc = x.pc + 8)) ∧
        (runCtx u i.core).psw = x.psw ∧ RegsKept x (runCtx u i.core) [] ∧ u.mem = s.mem)) ∧
    (Ready s i (.loop rc off) → Completes (.loop i rc off) s (fun u =>
      (runCtx u i.core).lstart = x.pc + 4 ∧ (runCtx u i.core).lend = x.pc + BitVec.ofNat 32 (4 * off.toNat) ∧
      (runCtx u i.core).lcount = gr x rc ∧
      (runCtx u i.core).pc = (if gr x rc = 0 then x.pc + BitVec.ofNat 32 (4 * off.toNat) + 4 else x.pc + 4) ∧
      (runCtx u i.core).psw = x.psw ∧ RegsKept x (runCtx u i.core) [] ∧ RestKept s u i.core))

/-- R272, R273, R276, R280–R283, R285, R356: a presented request is delivered where PSW.IE is 1 at a recognition point: the
entry and the push of the priority both happen, a failing fetch of the entry's first word follows it; a waiting core
goes on when a request is presented. Copies of a pair that differ enter nothing. Without a request, or where the core
cannot recognise one, the commands have no effect. R267, R269: a missing line of the code store becomes the most
recently used of 8, and a lane core's miss is counted; for a thread, an address outside the code store, or a line that
is held, nothing happens. -/
def Obligations.DeliveryAndLineFill : Prop :=
  (∀ (s : State) (k : CoreId) (agree vecEcc : Bool),
    (∀ lv src, presented s k = some (lv, src) → canRecognise s k src = true →
      ((runCtx s k).psw.getLsbD 6 = true → recognition s k (runCtx s k) = true →
        ((compared s k && !agree) = false →
          Completes (.interruptDelivery k agree false) s (fun u => Delivered s u k lv src) ∧
          Completes (.interruptDelivery k agree true) s (fun u =>
            (Machine.core u (icCore s k)).stack = (lv, src) :: (Machine.core s (icCore s k)).stack ∧
            (∀ n t, k = .thread n t → thrState u n.val t.val = 3 ∧ getF u (fFaultRec n.val t.val 0 7 0) = 7) ∧
            (k = .cp → (Machine.core u 256).failed = true))) ∧
        ((compared s k && !agree) = true →
          exec (.interruptDelivery k agree vecEcc) s = .next (mismatch (runIx s k) 1 s))) ∧
      ((runCtx s k).waiting = true →
        Completes (.waitWake k) s (fun u =>
          (runCtx u k).waiting = false ∧ ((runCtx s k).psw.getLsbD 6 = true → Delivered s u k lv src) ∧
          ((runCtx s k).psw.getLsbD 6 = false → (runCtx u k).pc = (runCtx s k).pc ∧
            ∀ i, (Machine.core u i).stack = (Machine.core s i).stack)))) ∧
    (presented s k = none ∨ (∃ lv src, presented s k = some (lv, src) ∧ canRecognise s k src = false) →
      exec (.interruptDelivery k agree vecEcc) s = .next s ∧ exec (.waitWake k) s = .next s) ∧
    ((runCtx s k).psw.getLsbD 6 = false ∨ recognition s k (runCtx s k) = false →
      exec (.interruptDelivery k agree vecEcc) s = .next s) ∧
    ((runCtx s k).waiting = false → exec (.waitWake k) s = .next s)) ∧
  ((∀ (s : State) (k : CoreId) (a : Word) (wrong : Bool), isThread k = true ∨ 0x01000000 ≤ a.toNat ∨
    (clus s (coreCl k)).lines.any (fun l => l.1 = lineOf a) = true → exec (.lineFill k a wrong) s = .next s) ∧
  ∀ (s : State) (k : CoreId) (a : Word) (wrong : Bool), isThread k = false → a.toNat < 0x01000000 →
    (clus s (coreCl k)).lines.any (fun l => l.1 = lineOf a) = false →
    Completes (.lineFill k a wrong) s (fun u =>
      (clus u (coreCl k)).lines = (lineOf a, readBytes s (lineOf a).toNat 32) :: (clus s (coreCl k)).lines.take 7 ∧
      (isLane k = true → reg u (winK (coreCl k) (if wrong then 0x124 else 0x120)) =
        reg s (winK (coreCl k) (if wrong then 0x124 else 0x120)) + 1) ∧
      u.mem = s.mem ∧ u.cores = s.cores))

/-- R66, R68, R93, R291, R307, R341: administration takes one command at a time and refuses one of a wrong length; the head
forwards one that names another chip's tenant or port; tenants are enabled and disabled, and one is reset. R78, R79,
R128, R151, R152, R307: administration defines, removes, grants, suspends, resumes, bypasses and releases ports, binds
them to a version, and discards and reads their settlements; what it cannot do it refuses. -/
def Obligations.TenantAndPortAdministration : Prop :=
  ((∀ f ∈ ([
      (.tenantConfig, 0x40, 4), (.adminTenantReset, 0x41, 2), (.portDefine, 0x42, 22), (.portRemove, 0x43, 2),
      (.portGrant, 0x44, 4), (.portSuspend, 0x45, 2), (.portResume, 0x46, 2), (.portBypass, 0x47, 2), (.portRelease, 0x48, 2),
      (.settleDiscard, 0x49, 2), (.settleRead, 0x4A, 2), (.aptStage, 0x4B, 12), (.aptActivate, 0x4C, 8),
      (.aptRemove, 0x4D, 8), (.aptList, 0x4E, 1), (.portApt, 0x4F, 4), (.frameSet, 0x50, 4), (.timeGet, 0x51, 0),
      (.timeTrim, 0x52, 2), (.timeStep, 0x53, 8), (.timeAlarm, 0x54, 9), (.lcConfig, 0x55, 20), (.lcProfile, 0x56, 12),
      (.lcAttach, 0x57, 4), (.lcDetach, 0x58, 1), (.lcCommand, 0x59, 6), (.jnlEntry, 0x5A, 16), (.jnlControl, 0x5B, 20),
      (.jnlClose, 0x5C, 0), (.jnlRead, 0x5D, 20), (.jnlArchive, 0x5E, 6), (.jnlStatus, 0x5F, 0), (.codeWrite, 0x60, 16),
      (.codeCommit, 0x61, 0), (.keyInstall, 0x62, 12), (.castle, 0x63, 8), (.faultRead, 0x64, 4), (.powerDark, 0x65, 2),
      (.powerWake, 0x65, 2), (.powerStandby, 0x65, 1), (.powerDeep, 0x65, 1), (.regRead, 0x66, 4)] :
      List ((ACmd → Instr) × Nat × Nat)), ∀ (s : State) (x : ACmd),
    (s.admin.isSome = true → exec (f.1 x) s = .next s) ∧
    (s.admin = none → x.payload.length < f.2.2 ∨ 52 < x.payload.length →
      Completes (f.1 x) s (fun u => Kept s u ∧ Replied s u f.2.1 x 2 0 []))) ∧
  (∀ f ∈ ([
      (.tenantConfig, 0x40, 4, 256), (.adminTenantReset, 0x41, 2, 256), (.portRemove, 0x43, 2, 1024), (.portGrant, 0x44, 4, 1024),
      (.portSuspend, 0x45, 2, 1024), (.portResume, 0x46, 2, 1024), (.portBypass, 0x47, 2, 1024),
      (.portRelease, 0x48, 2, 1024), (.settleDiscard, 0x49, 2, 1024), (.settleRead, 0x4A, 2, 1024), (.portApt, 0x4F, 4, 1024)] :
      List ((ACmd → Instr) × Nat × Nat × Nat)), ∀ (s : State) (x : ACmd) (seat : Nat), AdmOk s x f.2.2.1 → isHead s = true →
    f.2.2.2 ≤ leAt x.payload 0 2 → seatOfIndex s (leAt x.payload 0 2 / f.2.2.2) = some seat →
    Completes (f.1 x) s (fun u => Kept s u ∧ Waits u f.2.1 x fwdKey ∧
      lastSent u (routePort s seat) = some (9, true, seat,
        0 :: mkSlot f.2.1 0 x.tag.toNat 0xFF 0 0 0 (le 2 (leAt x.payload 0 2 % f.2.2.2) ++ x.payload.drop 2)))) ∧
  (∀ (s : State) (x : ACmd), AdmOk s x 4 → Local s x 256 →
    (256 ≤ leAt x.payload 0 2 ∨ 1 < imgB x.payload 2 ∨ 1 < imgB x.payload 3 →
      Completes (.tenantConfig x) s (fun u => Kept s u ∧ Replied s u 0x40 x 2 0 [])) ∧
    (leAt x.payload 0 2 < 256 → imgB x.payload 2 ≤ 1 → imgB x.payload 3 ≤ 1 →
      (2 ≤ getF s (fTState (leAt x.payload 0 2)) → Completes (.tenantConfig x) s (fun u =>
        Kept s u ∧ Replied s u 0x40 x 3 (getF s (fTState (leAt x.payload 0 2))) [])) ∧
      (getF s (fTState (leAt x.payload 0 2)) = 1 → imgB x.payload 2 = 1 →
        imgB x.payload 3 ≠ getF s (fGuarded (leAt x.payload 0 2)) → Completes (.tenantConfig x) s (fun u =>
          Kept s u ∧ Replied s u 0x40 x 3 1 [])) ∧
      (getF s (fTState (leAt x.payload 0 2)) = 1 → imgB x.payload 2 = 1 →
        imgB x.payload 3 = getF s (fGuarded (leAt x.payload 0 2)) → Completes (.tenantConfig x) s (fun u =>
          getF u (fTState (leAt x.payload 0 2)) = 1 ∧ u.devices = s.devices ∧ Replied s u 0x40 x 0 0 [])) ∧
      (getF s (fTState (leAt x.payload 0 2)) = 0 → imgB x.payload 2 = 1 → Completes (.tenantConfig x) s (fun u =>
        (ten u (leAt x.payload 0 2)).configured = true ∧ getF u (fGuarded (leAt x.payload 0 2)) = imgB x.payload 3 ∧
        getF u (fTState (leAt x.payload 0 2)) =
          (if vfOn s (leAt x.payload 0 2) then (if 2 ≤ getF s (fPwr (leAt x.payload 0 2 / 16)) then 3 else 1) else 0) ∧
        Replied s u 0x40 x 0 0 [])) ∧
      (getF s (fTState (leAt x.payload 0 2)) ≤ 1 → imgB x.payload 2 = 0 → Completes (.tenantConfig x) s (fun u =>
        ((ten s (leAt x.payload 0 2)).configured = true ∨ getF s (fTState (leAt x.payload 0 2)) = 1 →
          (ten u (leAt x.payload 0 2)).incoming = []) ∧
        (ten u (leAt x.payload 0 2)).configured = false ∧ getF u (fTState (leAt x.payload 0 2)) = 0 ∧
        getF u (fGuarded (leAt x.payload 0 2)) = imgB x.payload 3 ∧ Replied s u 0x40 x 0 0 [])))) ∧
  (∀ (s : State) (x : ACmd), AdmOk s x 2 → Local s x 256 →
    (256 ≤ leAt x.payload 0 2 → Completes (.adminTenantReset x) s (fun u => Kept s u ∧ Replied s u 0x41 x 2 0 [])) ∧
    (leAt x.payload 0 2 < 256 →
      (getF s (fTState (leAt x.payload 0 2)) = 0 ∨ getF s (fTState (leAt x.payload 0 2)) = 3 →
        Completes (.adminTenantReset x) s (fun u =>
          Kept s u ∧ Replied s u 0x41 x 3 (getF s (fTState (leAt x.payload 0 2))) [])) ∧
      (getF s (fTState (leAt x.payload 0 2)) = 2 → Completes (.adminTenantReset x) s (fun u =>
        Kept s u ∧ getF u (fGen (leAt x.payload 0 2)) = getF s (fGen (leAt x.payload 0 2)) ∧
        (ten u (leAt x.payload 0 2)).resetAt = (ten s (leAt x.payload 0 2)).resetAt ∧
        Waits u 0x41 x (leAt x.payload 0 2))) ∧
      (getF s (fTState (leAt x.payload 0 2)) = 1 → Completes (.adminTenantReset x) s (fun u =>
        getF u (fTState (leAt x.payload 0 2)) = 2 ∧
        getF u (fGen (leAt x.payload 0 2)) = (getF s (fGen (leAt x.payload 0 2)) + 1) % 65536 ∧
        (ten u (leAt x.payload 0 2)).resetAt = some (now s) ∧ Waits u 0x41 x (leAt x.payload 0 2)))))) ∧
  ((∀ (s : State) (x : ACmd) (g th p : Nat) (used : List Nat), AdmOk s x 22 → g = imgB x.payload 0 → th = imgB x.payload 12 →
    used = (slice x.payload 2 (imgB x.payload 1)).map (fun b => b.toNat) → p = 64 * g + imgB x.payload 2 →
    (activeImg s (leAt x.payload 16 4) (leAt x.payload 20 2) = none →
      Completes (.portDefine x) s (fun u => Kept s u ∧ Replied s u 0x42 x 2 0 [])) ∧
    ∀ img, activeImg s (leAt x.payload 16 4) (leAt x.payload 20 2) = some img →
      (defOk x.payload = false ∨ aptPartner img = false ∨ padsCover img (imgB x.payload 1) = false ∨
          (groupPorts s g).any (fun q => (port s q).pads.any (fun i => used.contains i)) = true →
        Completes (.portDefine x) s (fun u => Kept s u ∧ Replied s u 0x42 x 2 0 [])) ∧
      (defOk x.payload = true → aptPartner img = true → padsCover img (imgB x.payload 1) = true →
        (groupPorts s g).any (fun q => (port s q).pads.any (fun i => used.contains i)) = false →
        (freeSlot s g th = none ∨ (∃ j, freeSlot s g th = some j ∧
            areaFits s g th (activeIx s (leAt x.payload 16 4) (leAt x.payload 20 2)) p = false) →
          Completes (.portDefine x) s (fun u => Kept s u ∧ Replied s u 0x42 x 4 0 [])) ∧
        ∀ j, freeSlot s g th = some j → areaFits s g th (activeIx s (leAt x.payload 16 4) (leAt x.payload 20 2)) p = true →
          Completes (.portDefine x) s (fun u =>
            (port u p).defined = true ∧ (port u p).group = g ∧ (port u p).pads = used ∧ (port u p).thread = th ∧
            (port u p).slot = j ∧ (port u p).gapFrames = leAt x.payload 10 2 ∧ (port u p).apt = leAt x.payload 16 4 ∧
            (port u p).major = leAt x.payload 20 2 ∧ (port u p).state = 0 ∧ (port u p).bound = none ∧
            isSet u (fSlotValid g th j) = true ∧ (∀ i ∈ used, getF u (fOwner (64 * g + i)) = th) ∧
            ((port s p).pads ≠ [] → (port s p).pads ≠ used → (settleOf u p).valid = false) ∧
            Replied s u 0x42 x 0 0 (le 2 p)))) ∧
  (∀ f ∈ ([
      (.portRemove, 0x43, 2), (.portGrant, 0x44, 4), (.portSuspend, 0x45, 2), (.portResume, 0x46, 2),
      (.portBypass, 0x47, 2), (.portRelease, 0x48, 2), (.settleDiscard, 0x49, 2), (.settleRead, 0x4A, 2), (.portApt, 0x4F, 4)] :
      List ((ACmd → Instr) × Nat × Nat)), ∀ (s : State) (x : ACmd), AdmOk s x f.2.2 → Local s x 1024 →
    1024 ≤ leAt x.payload 0 2 ∨ (admPort s x).defined = false →
    Completes (f.1 x) s (fun u => Kept s u ∧ Replied s u f.2.1 x 2 0 [])) ∧
  (∀ (s : State) (x : ACmd), Local s x 1024 → leAt x.payload 0 2 < 1024 → (admPort s x).defined = true →
    (AdmOk s x 2 → (admPort s x).bound = none →
      Completes (.portRemove x) s (fun u =>
        admPort u x = { initPort with group := (admPort s x).group, pads := (admPort s x).pads } ∧
        (∀ i ∈ (admPort s x).pads, reg u (padK (64 * (admPort s x).group + i) 0) =
          reg State.reset (padK (64 * (admPort s x).group + i) 0)) ∧
        isSet u (fSlotValid (admPort s x).group (admPort s x).thread (admPort s x).slot) = false ∧
        Replied s u 0x43 x 0 0 [])) ∧
    (AdmOk s x 2 → (admPort s x).bound ≠ none → Completes (.portRemove x) s (fun u =>
      Kept s u ∧ Replied s u 0x43 x 3 (portCode s (leAt x.payload 0 2)) [])) ∧
    (AdmOk s x 4 → (leAt x.payload 2 2 < (if isSet s fGrpValid then 4096 else 256) ∨ leAt x.payload 2 2 = 0xFFFF) →
      ((admPort s x).bound = none → Completes (.portGrant x) s (fun u =>
        (admPort u x).grant = (if leAt x.payload 2 2 = 0xFFFF then none else some (tenantOf s (leAt x.payload 2 2))) ∧
        (admPort u x).state = (admPort s x).state ∧ Replied s u 0x44 x 0 0 [])) ∧
      ((admPort s x).bound ≠ none → Completes (.portGrant x) s (fun u =>
        Kept s u ∧ Replied s u 0x44 x 3 (portCode s (leAt x.payload 0 2)) []))) ∧
    (AdmOk s x 4 → (if isSet s fGrpValid then 4096 else 256) ≤ leAt x.payload 2 2 → leAt x.payload 2 2 ≠ 0xFFFF →
      Completes (.portGrant x) s (fun u => Kept s u ∧ Replied s u 0x44 x 2 0 [])) ∧
    (AdmOk s x 2 →
      ((admPort s x).state = 3 → Completes (.portSuspend x) s (fun u =>
        (admPort u x).state = 4 ∧ Replied s u 0x45 x 0 0 [])) ∧
      ((admPort s x).state ≠ 3 → Completes (.portSuspend x) s (fun u =>
        Kept s u ∧ Replied s u 0x45 x 3 (portCode s (leAt x.payload 0 2)) [])) ∧
      ((admPort s x).state = 4 → (admPort s x).bypassed = false → Completes (.portResume x) s (fun u =>
        (admPort u x).resumeReq = true ∧ (admPort u x).state = 4 ∧ Replied s u 0x46 x 0 0 [])) ∧
      ((admPort s x).state ≠ 4 ∨ (admPort s x).bypassed = true → Completes (.portResume x) s (fun u =>
        Kept s u ∧ Replied s u 0x46 x 3 (portCode s (leAt x.payload 0 2)) [])) ∧
      Completes (.portBypass x) s (fun u => (admPort u x).bypassReq = true ∧ Waits u 0x47 x (leAt x.payload 0 2)) ∧
      ((admPort s x).bypassed = true → Completes (.portRelease x) s (fun u =>
        (admPort u x).releaseReq = true ∧ Waits u 0x48 x (leAt x.payload 0 2))) ∧
      ((admPort s x).bypassed = false → Completes (.portRelease x) s (fun u =>
        Kept s u ∧ Replied s u 0x48 x 3 (portCode s (leAt x.payload 0 2)) [])) ∧
      ((admPort s x).bypassed = false → Completes (.settleDiscard x) s (fun u =>
        (admPort u x).state = 0 ∧ (settleOf u (leAt x.payload 0 2)).valid = false ∧ Replied s u 0x49 x 0 0 [])) ∧
      ((admPort s x).bypassed = true → Completes (.settleDiscard x) s (fun u =>
        (admPort u x).bypassed = true ∧ (admPort u x).before = 0 ∧ (settleOf u (leAt x.payload 0 2)).valid = false ∧
        Replied s u 0x49 x 0 0 [])) ∧
      Completes (.settleRead x) s (fun u =>
        Kept s u ∧ Replied s u 0x4A x 0 0 (readBytes s (portRecAt (leAt x.payload 0 2)) 40))) ∧
    (AdmOk s x 4 → activeImg s (admPort s x).apt (leAt x.payload 2 2) = none →
      Completes (.portApt x) s (fun u => Kept s u ∧ Replied s u 0x4F x 2 0 [])) ∧
    (∀ img, AdmOk s x 4 → activeImg s (admPort s x).apt (leAt x.payload 2 2) = some img →
      (aptPartner img = false ∨ padsCover img (admPort s x).pads.length = false →
        Completes (.portApt x) s (fun u => Kept s u ∧ Replied s u 0x4F x 2 0 [])) ∧
      (aptPartner img = true → padsCover img (admPort s x).pads.length = true →
        (leAt x.payload 2 2 = (admPort s x).major ∨ Rebinds s (leAt x.payload 0 2) (leAt x.payload 2 2) img →
          Completes (.portApt x) s (fun u =>
            (admPort u x).major = leAt x.payload 2 2 ∧ (settleOf u (leAt x.payload 0 2)).valid = false ∧
            ((admPort s x).bypassed = false → (admPort u x).state = 0) ∧
            ((admPort s x).bypassed = true → (admPort u x).before = 0) ∧ Replied s u 0x4F x 0 0 [])) ∧
        (leAt x.payload 2 2 ≠ (admPort s x).major → ¬ Rebinds s (leAt x.payload 0 2) (leAt x.payload 2 2) img →
          Completes (.portApt x) s (fun u => Kept s u ∧ Replied s u 0x4F x 4 0 []))))))

/-- R128–R132, R307: an image is staged where it verifies, activated, removed and listed; what administration cannot do with
one it refuses. R45, R57, R61, R62, R64, R307: the frame length is set from a tick, time is read, trimmed and stepped,
and the alarm set; values out of range are refused. -/
def Obligations.ImageAndTimeAdministration : Prop :=
  ((∀ (s : State) (x : ACmd), AdmOk s x 12 →
    (x.hostBytes = none ∨ (∃ bs, x.hostBytes = some bs ∧ bs.length < leAt x.payload 8 4) →
      Completes (.aptStage x) s (fun u => Kept s u ∧ Replied s u 0x4B x 8 0 [])) ∧
    ∀ bs, x.hostBytes = some bs → leAt x.payload 8 4 ≤ bs.length →
      Completes (.aptStage x) s (fun u =>
        match (if leAt x.payload 8 4 ≠ aptLen (bs.take (leAt x.payload 8 4)) then some 1
               else verifyImage s (bs.take (leAt x.payload 8 4))) with
        | some r => Kept s u ∧ Replied s u 0x4B x 5 0 [BitVec.ofNat 8 r]
        | none => (∃ j, Tab.find s.images j = none ∧ Tab.find u.images j =
            some { bytes := bs.take (leAt x.payload 8 4), active := false, swapAt := none, old := false }) ∧
          Replied s u 0x4B x 0 0 (aptName (bs.take (leAt x.payload 8 4))))) ∧
  (∀ (s : State) (x : ACmd), AdmOk s x 8 → namedImg s x.payload = none →
    Completes (.aptActivate x) s (fun u => Kept s u ∧ Replied s u 0x4C x 2 0 []) ∧
    Completes (.aptRemove x) s (fun u => Kept s u ∧ Replied s u 0x4D x 2 0 [])) ∧
  (∀ (s : State) (x : ACmd) (j : Nat) (im : ImageSt), AdmOk s x 8 → namedImg s x.payload = some (j, im) →
    (im.active = true → Completes (.aptActivate x) s (fun u => Kept s u ∧ Replied s u 0x4C x 0 0 [])) ∧
    (im.active = false → activeImg s (aptId im.bytes) (aptMajor im.bytes) = none →
      Completes (.aptActivate x) s (fun u =>
        Tab.find u.images j = some { im with active := true } ∧
        (∀ p ∈ portIds s, (port s p).apt = aptId im.bytes → (port s p).major ≠ aptMajor im.bytes →
          (settleOf u p).valid = false) ∧ Replied s u 0x4C x 0 0 [])) ∧
    (∀ old, im.active = false → activeImg s (aptId im.bytes) (aptMajor im.bytes) = some old →
      (minorOk old im.bytes = false → Completes (.aptActivate x) s (fun u => Kept s u ∧ Replied s u 0x4C x 5 0 [7])) ∧
      (minorOk old im.bytes = true → Replaceable s im.bytes = false →
        Completes (.aptActivate x) s (fun u => Kept s u ∧ Replied s u 0x4C x 4 0 [])) ∧
      (minorOk old im.bytes = true → Replaceable s im.bytes = true → Completes (.aptActivate x) s (fun u =>
        Tab.find u.images j = some { im with swapAt := some (frameNo s + 1) } ∧ Waits u 0x4C x j))) ∧
    (im.swapAt ≠ none ∨ (im.active = true ∧ tableUsed s (aptId im.bytes) (aptMajor im.bytes) = true) →
      Completes (.aptRemove x) s (fun u => Kept s u ∧ Replied s u 0x4D x 3 0 [])) ∧
    (im.swapAt = none → (im.active = false ∨ tableUsed s (aptId im.bytes) (aptMajor im.bytes) = false) →
      Completes (.aptRemove x) s (fun u => Tab.find u.images j = none ∧ Replied s u 0x4D x 0 0 []))) ∧
  (∀ (s : State) (x : ACmd), AdmOk s x 1 → Completes (.aptList x) s (fun u =>
    Kept s u ∧ Replied s u 0x4E x 0 0 ((((s.images.map (fun q => q.2)).drop (imgB x.payload 0)).take 4).map (fun im =>
      aptName im.bytes ++ [if im.active then 1 else 0] ++ le 3 im.bytes.length)).flatten))) ∧
  ((∀ (s : State) (x : ACmd), AdmOk s x 4 →
    (3 < imgB x.payload 3 → Completes (.frameSet x) s (fun u => Kept s u ∧ Replied s u 0x50 x 2 0 [])) ∧
    (imgB x.payload 3 ≤ 3 → isSet s fGroupLock = true → Completes (.frameSet x) s (fun u =>
      Kept s u ∧ getF u fOvrLimit = getF s fOvrLimit ∧ Replied s u 0x50 x 3 0 [])) ∧
    (imgB x.payload 3 % 2 = 1 → imgB x.payload 3 ≤ 3 → isSet s fGroupLock = false →
      (200 ≤ leAt x.payload 0 2 → leAt x.payload 0 2 ≤ 4000 → Completes (.frameSet x) s (fun u =>
        u.time.pendLen = some (leAt x.payload 0 2, lenTickAt s) ∧ getF u fLenPending = 1 ∧
        getF u fLenRounds = leAt x.payload 0 2 ∧ getF u fLenActive = getF s fLenActive ∧
        getF u fOvrLimit = (if imgB x.payload 3 = 3 then imgB x.payload 2 else getF s fOvrLimit) ∧
        Replied s u 0x50 x 0 0 (le 8 (lenTickAt s)))) ∧
      (leAt x.payload 0 2 < 200 ∨ 4000 < leAt x.payload 0 2 → Completes (.frameSet x) s (fun u =>
        u.time.pendLen = s.time.pendLen ∧ getF u fLenRej = 1 ∧ Replied s u 0x50 x 2 0 []))) ∧
    (imgB x.payload 3 = 0 ∨ imgB x.payload 3 = 2 → isSet s fGroupLock = false → Completes (.frameSet x) s (fun u =>
      u.time.pendLen = s.time.pendLen ∧
      getF u fOvrLimit = (if imgB x.payload 3 = 2 then imgB x.payload 2 else getF s fOvrLimit) ∧
      ∃ k, Replied s u 0x50 x 0 0 (le 8 k)))) ∧
  (∀ (s : State) (x : ACmd), AdmOk s x 0 → Completes (.timeGet x) s (fun u =>
    Replied s u 0x51 x 0 0 (stampBytes (stamp s) ++ le 4 (reg s 0x45000074).toNat ++ le 4 (reg s 0x45000000).toNat ++
      le 4 (reg s 0x4500006C).toNat) ∧ Kept s u)) ∧
  (∀ (s : State) (x : ACmd), AdmOk s x 2 →
    (-2000 ≤ signedOf 16 (leAt x.payload 0 2) → signedOf 16 (leAt x.payload 0 2) ≤ 2000 →
      Completes (.timeTrim x) s (fun u => getF u fCalTrim = leAt x.payload 0 2 ∧ Replied s u 0x52 x 0 0 [])) ∧
    (signedOf 16 (leAt x.payload 0 2) < -2000 ∨ 2000 < signedOf 16 (leAt x.payload 0 2) →
      Completes (.timeTrim x) s (fun u => getF u fCalTrim = getF s fCalTrim ∧ Replied s u 0x52 x 2 0 []))) ∧
  (∀ (s : State) (x : ACmd), AdmOk s x 8 → Completes (.timeStep x) s (fun u =>
    u.cal.step = some (65536 * leAt x.payload 0 6 + leAt x.payload 6 2) ∧ getF u fStepPending = 1 ∧
    u.cal.stepTag = some x.tag ∧ u.cal.val = s.cal.val ∧ Waits u 0x53 x 0)) ∧
  (∀ (s : State) (x : ACmd), AdmOk s x 9 →
    (imgB x.payload 8 ≤ 1 → Completes (.timeAlarm x) s (fun u =>
      getF u fAlarmEn = imgB x.payload 8 ∧ (reg u 0x45000060).toNat = leAt x.payload 0 4 ∧
      (reg u 0x45000064).toNat = leAt x.payload 4 2 ∧ (reg u 0x45000068).toNat = leAt x.payload 6 2 ∧
      Replied s u 0x54 x 0 0 [])) ∧
    (1 < imgB x.payload 8 → Completes (.timeAlarm x) s (fun u => Kept s u ∧ Replied s u 0x54 x 2 0 []))))

/-- R17, R156, R162, R172, R174, R307: a channel is configured, given a profile, attached and detached, and commanded; what
a channel cannot take is refused. R180, R186, R193, R195, R197, R199, R203, R307: administration writes namespace
entries, enables and disables the engine, closes a segment, reads the journal, moves the archive pointer and reads the
status; what it cannot do it refuses. -/
def Obligations.LoadAndJournalAdministration : Prop :=
  ((∀ (s : State) (x : ACmd) (c : Nat), AdmOk s x 20 → c = imgB x.payload 0 →
    (128 ≤ c ∨ 1 < imgB x.payload 1 → Completes (.lcConfig x) s (fun u => Kept s u ∧ Replied s u 0x55 x 2 0 [])) ∧
    (c < 128 → imgB x.payload 1 ≤ 1 → lcCfgOk s c = false → Completes (.lcConfig x) s (fun u =>
      Kept s u ∧ Replied s u 0x55 x 3 (lcState s c) [])) ∧
    (∀ d, c < 128 → imgB x.payload 1 = 1 → lcCfgOk s c = true → (groupChans (c / 8)).find? (fun d => !lcCfgOk s d) = some d →
      Completes (.lcConfig x) s (fun u => Kept s u ∧ Replied s u 0x55 x 3 (lcState s d) [])) ∧
    (c < 128 → lcCfgOk s c = true →
      imgB x.payload 1 = 0 ∨ (imgB x.payload 1 = 1 ∧ ∀ d ∈ groupChans (c / 8), lcCfgOk s d = true) →
      Completes (.lcConfig x) s (fun u =>
        (chan u c).written = true ∧ getF u (fLcEnable c) = bitsOf (wordAt x.payload 4) 0 0 ∧
        getF u (fLcPol c) = bitsOf (wordAt x.payload 4) 1 1 ∧ getF u (fLcRetry c) = bitsOf (wordAt x.payload 4) 3 3 ∧
        getF u (fLcPulse c) = (if bitsOf (wordAt x.payload 4) 27 16 = 0 then getF s (fLcPulse c)
          else bitsOf (wordAt x.payload 4) 27 16) ∧
        getF u (fld (lcK c 4) 15 8) = bitsOf (wordAt x.payload 8) 15 8 ∧
        getF u (fld (lcK c 4) 7 0) = bitsOf (wordAt x.payload 8) 7 0 ∧
        getF u (fLcTestCode c) = bitsOf (wordAt x.payload 12) 23 16 ∧
        getF u (fLcOverFilt c) = (if bitsOf (wordAt x.payload 12) 15 8 = 0 then getF s (fLcOverFilt c)
          else bitsOf (wordAt x.payload 12) 15 8) ∧
        getF u (fLcShortFilt c) = (if 239 < bitsOf (wordAt x.payload 12) 7 0 then getF s (fLcShortFilt c)
          else bitsOf (wordAt x.payload 12) 7 0) ∧
        (imgB x.payload 1 = 1 → getF u (fLgSagCode (c / 8)) = bitsOf (wordAt x.payload 16) 7 0 ∧
          getF u (fLgSagFilt (c / 8)) = bitsOf (wordAt x.payload 16) 15 8 ∧
          getF u (fLgGap (c / 8)) = bitsOf (wordAt x.payload 16) 27 16) ∧
        getF u (fLcOwnCp c) = getF s (fLcOwnCp c) ∧ getF u (fLcTenant c) = getF s (fLcTenant c) ∧
        getF u (fLcDevice c) = getF s (fLcDevice c) ∧ Replied s u 0x55 x 0 0 []))) ∧
  (∀ (s : State) (x : ACmd) (c : Nat), AdmOk s x 12 → c = imgB x.payload 0 →
    (128 ≤ c ∨ 1 < imgB x.payload 1 → Completes (.lcProfile x) s (fun u => Kept s u ∧ Replied s u 0x56 x 2 0 [])) ∧
    (c < 128 → imgB x.payload 1 = 0 → (x.hostBytes = none ∨ ∃ e, x.hostBytes = some e ∧ e.length < 68) →
      Completes (.lcProfile x) s (fun u => Kept s u ∧ Replied s u 0x56 x 8 0 [])) ∧
    (c < 128 → imgB x.payload 1 = 1 → (activeImg s (leAt x.payload 4 4) (leAt x.payload 8 2) = none ∨
        ∃ img, activeImg s (leAt x.payload 4 4) (leAt x.payload 8 2) = some img ∧ secCount img 6 ≤ imgB x.payload 10) →
      Completes (.lcProfile x) s (fun u => Kept s u ∧ Replied s u 0x56 x 2 0 [])) ∧
    ∀ e, c < 128 → ((imgB x.payload 1 = 0 ∧ ∃ b, x.hostBytes = some b ∧ 68 ≤ b.length ∧ e = b.take 68) ∨
        (imgB x.payload 1 = 1 ∧ ∃ img, activeImg s (leAt x.payload 4 4) (leAt x.payload 8 2) = some img ∧
          imgB x.payload 10 < secCount img 6 ∧ e = curveBytes img (imgB x.payload 10))) →
      (curveOk e = false ∨ imgB e 1 ≠ 0 ∨ imgB e 2 ≠ 0 ∨ imgB e 3 ≠ 0 →
        Completes (.lcProfile x) s (fun u => Kept s u ∧ Replied s u 0x56 x 2 0 [])) ∧
      (curveOk e = true → imgB e 1 = 0 → imgB e 2 = 0 → imgB e 3 = 0 →
        (lcCfgOk s c = false → Completes (.lcProfile x) s (fun u => Kept s u ∧ Replied s u 0x56 x 3 (lcState s c) [])) ∧
        (lcCfgOk s c = true → Completes (.lcProfile x) s (fun u =>
          getF u (fLcNptsm1 c) = ((curvePts e).length - 1) % 16 ∧
          (∀ i, i < 16 → reg u (lcK c (0x40 + 4 * i)) =
            BitVec.ofNat 32 ((nth (0, 0) (curvePts e) i).2 % 256 * 65536 + (nth (0, 0) (curvePts e) i).1)) ∧
          Replied s u 0x56 x 0 0 [])))) ∧
  (∀ (s : State) (x : ACmd) (c t d : Nat), AdmOk s x 4 → c = imgB x.payload 0 → t = leAt x.payload 1 2 → d = imgB x.payload 3 →
    (128 ≤ c ∨ 256 ≤ t ∨ 16 ≤ d ∨ (dev s t d).bound = false ∨ lcClass (dev s t d).cls = false →
      Completes (.lcAttach x) s (fun u => Kept s u ∧ Replied s u 0x57 x 2 0 [])) ∧
    (c < 128 → t < 256 → d < 16 → (dev s t d).bound = true → lcClass (dev s t d).cls = true →
      (lcAttached s c = true ∨ lcCfgOk s c = false → Completes (.lcAttach x) s (fun u =>
        Kept s u ∧ Replied s u 0x57 x 3 (lcState s c) [])) ∧
      (lcAttached s c = false → lcCfgOk s c = true → (dev s t d).chan ≠ none → Completes (.lcAttach x) s (fun u =>
        Kept s u ∧ Replied s u 0x57 x 3 (stateCode (dev s t d)) [])) ∧
      (lcAttached s c = false → lcCfgOk s c = true → (dev s t d).chan = none → Completes (.lcAttach x) s (fun u =>
        getF u (fLcTenant c) = t ∧ getF u (fLcDevice c) = d ∧ lcAttached u c = true ∧
        (dev u t d).chan = some c ∧ ((dev u t d).trip = decide (lcState s c = 5)) ∧ Replied s u 0x57 x 0 0 [])))) ∧
  (∀ (s : State) (x : ACmd) (c : Nat), AdmOk s x 1 → c = imgB x.payload 0 →
    (128 ≤ c → Completes (.lcDetach x) s (fun u => Kept s u ∧ Replied s u 0x58 x 2 0 [])) ∧
    (c < 128 → lcCfgOk s c = false → Completes (.lcDetach x) s (fun u => Kept s u ∧ Replied s u 0x58 x 3 (lcState s c) [])) ∧
    (c < 128 → lcCfgOk s c = true → Completes (.lcDetach x) s (fun u =>
      lcAttached u c = false ∧ (∀ t d, (dev u t d).chan ≠ some c) ∧ Replied s u 0x58 x 0 0 []))) ∧
  (∀ (s : State) (x : ACmd) (c : Nat), AdmOk s x 6 → c = imgB x.payload 0 →
    (128 ≤ c ∨ 16 ≤ imgB x.payload 1 ∨ 4096 ≤ leAt x.payload 2 2 ∨ 4096 ≤ leAt x.payload 4 2 →
      Completes (.lcCommand x) s (fun u => Kept s u ∧ Replied s u 0x59 x 2 0 [])) ∧
    (c < 128 → imgB x.payload 1 < 16 → leAt x.payload 2 2 < 4096 → leAt x.payload 4 2 < 4096 →
      Completes (.lcCommand x) s (fun u =>
        (chan u c).staged.map (fun y => (y.word, y.admin, y.due)) =
          some (BitVec.ofNat 32 (leAt x.payload 4 2 * 65536 + leAt x.payload 2 2 * 16 + imgB x.payload 1), true,
            some (nextTick s + 24)) ∧ Waits u 0x59 x c)))) ∧
  ((∀ (s : State) (x : ACmd) (n : Nat), AdmOk s x 16 → n = imgB x.payload 0 →
    (16 ≤ n → Completes (.jnlEntry x) s (fun u => Kept s u ∧ Replied s u 0x5A x 2 0 [])) ∧
    (n < 16 → isSet s fJnlEnable = false → Completes (.jnlEntry x) s (fun u =>
      reg u (0x40000100 + 16 * n) = wordAt x.payload 4 ∧ reg u (0x40000104 + 16 * n) = wordAt x.payload 8 ∧
      (reg u (0x40000108 + 16 * n) &&& 0x8FF) = (wordAt x.payload 12 &&& 0x8FF) ∧ Replied s u 0x5A x 0 0 [])) ∧
    (n < 16 → isSet s fJnlEnable = true → getF s (fNsState n) = 1 → wordAt x.payload 8 = reg s (0x40000104 + 16 * n) →
      (wordAt x.payload 12 &&& 0x8FF) = (reg s (0x40000108 + 16 * n) &&& 0x8FF) →
      Completes (.jnlEntry x) s (fun u =>
        reg u (0x40000100 + 16 * n) = wordAt x.payload 4 ∧ getF u (fNsState n) = 2 ∧ Replied s u 0x5A x 0 0 [])) ∧
    (n < 16 → isSet s fJnlEnable = true → (getF s (fNsState n) ≠ 1 ∨ wordAt x.payload 8 ≠ reg s (0x40000104 + 16 * n) ∨
        (wordAt x.payload 12 &&& 0x8FF) ≠ (reg s (0x40000108 + 16 * n) &&& 0x8FF)) →
      Completes (.jnlEntry x) s (fun u =>
        isSet u fJnlCfgerr = true ∧ reg u (0x40000100 + 16 * n) = reg s (0x40000100 + 16 * n) ∧
        Replied s u 0x5A x 2 0 []))) ∧
  (∀ (s : State) (x : ACmd), AdmOk s x 20 →
    (imgB x.payload 0 % 2 = 0 → Completes (.jnlControl x) s (fun u =>
      getF u fJnlEnable = 0 ∧ (isSet s fJnlEnable = true → getF u fJnlRunning = 0) ∧
      (∀ g, g < 4 → reg u (0x40000030 + 4 * g) = wordAt x.payload (4 + 4 * g)) ∧
      getF u (fld 0x40000000 3 2) = imgB x.payload 0 / 4 % 4 ∧ Replied s u 0x5B x 0 0 [])) ∧
    (imgB x.payload 0 % 2 = 1 → isSet s fJnlRunning = true → Completes (.jnlControl x) s (fun u =>
      getF u fJnlEnable = getF s fJnlEnable ∧ isSet u fJnlRunning = true ∧
      (∀ g, g < 4 → reg u (0x40000030 + 4 * g) = wordAt x.payload (4 + 4 * g)) ∧ Replied s u 0x5B x 0 0 [])) ∧
    (imgB x.payload 0 % 2 = 1 → isSet s fJnlRunning = false → Completes (.jnlControl x) s (fun u =>
      (isSet u fJnlEnable = true ∧ u.journal.seekTag = some x.tag ∧ Waits u 0x5B x 0) ∨
      (isSet u fJnlEnable = false ∧ isSet u fJnlCfgerr = true ∧ Replied s u 0x5B x 2 0 [])))) ∧
  (∀ (s : State) (x : ACmd), AdmOk s x 0 → Completes (.jnlClose x) s (fun u =>
    (isSet s fJnlRunning = true → s.journal.openSeg.isSome = true →
      ∃ g ∈ u.journal.closed, g.close = 2 ∧ g.closeTurn = now s) ∧
    (isSet s fJnlRunning = false → u.journal.closed = s.journal.closed) ∧ Replied s u 0x5C x 0 0 [])) ∧
  (∀ (s : State) (x : ACmd) (a n : Nat), AdmOk s x 20 → a = leAt x.payload 0 6 → n = leAt x.payload 8 4 →
    (n % 4 ≠ 0 ∨ n < 4 ∨ 16777216 < n ∨ jnlSpace s < a + n → Completes (.jnlRead x) s (fun u =>
      Kept s u ∧ u.group.hostWrites = s.group.hostWrites ∧ Replied s u 0x5D x 2 0 [])) ∧
    (n % 4 = 0 → 4 ≤ n → n ≤ 16777216 → a + n ≤ jnlSpace s →
      (journalLost s a n = true → Completes (.jnlRead x) s (fun u =>
        Kept s u ∧ u.group.hostWrites = s.group.hostWrites ∧ Replied s u 0x5D x 8 0 [])) ∧
      (journalLost s a n = false → Completes (.jnlRead x) s (fun u =>
        (isMember s = false → u.group.hostWrites =
          (le 2 0xFFFF ++ le 8 (leAt x.payload 12 8) ++ journalBytes s a n) :: s.group.hostWrites) ∧
        Replied s u 0x5D x 0 0 (le 4 n))))) ∧
  (∀ (s : State) (x : ACmd) (a : Nat), AdmOk s x 6 → a = leAt x.payload 0 6 →
    (a = s.journal.arch ∨ (a < jnlSpace s ∧ placeDist s s.journal.arch a ≤ placeDist s s.journal.arch s.journal.wptr) →
      Completes (.jnlArchive x) s (fun u => u.journal.arch = a ∧ Replied s u 0x5E x 0 0 [])) ∧
    (a ≠ s.journal.arch → (jnlSpace s ≤ a ∨ placeDist s s.journal.arch s.journal.wptr < placeDist s s.journal.arch a) →
      Completes (.jnlArchive x) s (fun u => u.journal.arch = s.journal.arch ∧ Replied s u 0x5E x 2 0 []))) ∧
  (∀ (s r : State) (x : ACmd), AdmOk s x 0 → r = admTake 0x5F x s → Completes (.jnlStatus x) s (fun u =>
    Replied s u 0x5F x 0 0 (le 4 (reg r 0x40000004).toNat ++ le 8 s.journal.wptr ++ le 8 s.journal.arch ++
      le 8 (openSeq r) ++ le 4 (getF r fJnlDrops) ++ le 4 (min 0xFFFFFF (staged r)) ++
      (List.range 16).map (fun n => BitVec.ofNat 8 (getF s (fNsState n)))))))

/-- R432, R435, R436, R438, R307: the inactive code image is written and committed where it verifies, and a key record is
installed where it is in order; each refusal is answered. R34, R369, R370, R372, R374, R401, R402, R407, R307: a
castling is requested, a FAULT record read, clusters and the chip are darkened and woken, and a register is read as the
control processor reads it; what cannot be done is refused. -/
def Obligations.CodeAndHardwareAdministration : Prop :=
  ((∀ (s : State) (x : ACmd) (a n : Nat), AdmOk s x 16 → a = leAt x.payload 0 4 → n = leAt x.payload 4 4 →
    (1048576 < n ∨ ¬ (inactiveWin ≤ a ∧ a + n ≤ 0x00BF0000 ∧ a % 32 = 0 ∧ n % 32 = 0 ∧ n ≠ 0) →
      Completes (.codeWrite x) s (fun u => u.mem = s.mem ∧ Replied s u 0x60 x 2 0 [])) ∧
    (n ≤ 1048576 → inactiveWin ≤ a → a + n ≤ 0x00BF0000 → a % 32 = 0 → n % 32 = 0 → n ≠ 0 →
      (isSet s fCommitBusy = true ∨ isSet s fNextSet = true →
        Completes (.codeWrite x) s (fun u => u.mem = s.mem ∧ Replied s u 0x60 x 3 0 [])) ∧
      (isSet s fCommitBusy = false → isSet s fNextSet = false →
        (x.hostBytes = none ∨ (∃ bs, x.hostBytes = some bs ∧ bs.length < n) →
          Completes (.codeWrite x) s (fun u => u.mem = s.mem ∧ Replied s u 0x60 x 8 0 [])) ∧
        ∀ bs, x.hostBytes = some bs → n ≤ bs.length → Completes (.codeWrite x) s (fun u =>
          readBytes u a n = bs.take n ∧ (∀ b, b < a ∨ a + n ≤ b → readB u b = readB s b) ∧
          Replied s u 0x60 x 0 0 [])))) ∧
  (∀ (s : State) (x : ACmd), AdmOk s x 0 →
    (isSet s fCommitBusy = true → Completes (.codeCommit x) s (fun u => u.host.nextSlot = s.host.nextSlot ∧
      u.mem = s.mem ∧ Replied s u 0x61 x 3 0 [])) ∧
    (isSet s fCommitBusy = false → isSet s fNextSet = true → Completes (.codeCommit x) s (fun u =>
      u.host.nextSlot = s.host.nextSlot ∧ u.mem = s.mem ∧ Replied s u 0x61 x 0 0 [])) ∧
    (isSet s fCommitBusy = false → isSet s fNextSet = false → Completes (.codeCommit x) s (fun u =>
      match fwReason s inactiveWin with
      | some r => u.host.nextSlot = s.host.nextSlot ∧ getF u fLastReason = r % 16 ∧ u.mem = s.mem ∧
          Replied s u 0x61 x 5 0 [BitVec.ofNat 8 r]
      | none => u.host.nextSlot = some (1 - s.host.slot) ∧ getF u fNextSet = 1 ∧
          (match bootRec s with
            | some (i, n, _) => readBytes u (0x800 * (1 - i)) 32 = bootRecord (n + 1) (1 - s.host.slot)
            | none => readBytes u 0 32 = bootRecord 1 (1 - s.host.slot)) ∧ Replied s u 0x61 x 0 0 []))) ∧
  (∀ (s : State) (x : ACmd) (k : Nat), AdmOk s x 12 → k = imgB x.payload 0 →
    (8 ≤ k → Completes (.keyInstall x) s (fun u => u.mem = s.mem ∧ Replied s u 0x62 x 2 0 [])) ∧
    (k < 8 → (x.hostBytes = none ∨ ∃ bs, x.hostBytes = some bs ∧ bs.length < 160) →
      Completes (.keyInstall x) s (fun u => u.mem = s.mem ∧ Replied s u 0x62 x 8 0 [])) ∧
    ∀ bs, k < 8 → x.hostBytes = some bs → 160 ≤ bs.length → Completes (.keyInstall x) s (fun u =>
      match keyReason (bs.take 160) with
      | some n => u.mem = s.mem ∧ Replied s u 0x62 x 5 0 [BitVec.ofNat 8 n]
      | none =>
        if imgB bs 0 ≠ k ∨ (leAt bs 4 8 ≠ 0 ∧ leAt bs 4 8 ≠ Config.otpSerial.toNat) then
          u.mem = s.mem ∧ Replied s u 0x62 x 2 0 []
        else if s.images.any (fun q => aptKey q.2.bytes = k) = true then u.mem = s.mem ∧ Replied s u 0x62 x 3 0 []
        else readBytes u (0x1000 + 128 * k) 128 = (if imgB bs 1 = 0 then [1] ++ List.replicate 63 0 ++ slice bs 12 64
            else List.replicate 128 0) ∧ Replied s u 0x62 x 0 0 []))) ∧
  ((∀ (s : State) (x : ACmd) (un n c per : Nat), AdmOk s x 8 → un = imgB x.payload 0 → n = imgB x.payload 1 →
    c = imgB x.payload 2 → per = leAt x.payload 4 4 →
    (2 < un ∨ 15 < n ∨ (un = 1 ∧ 3 < c) ∨ (un = 2 ∧ 1 < c) ∨ (per ≠ 0 ∧ (per < 60 ∨ 86400 < per)) →
      Completes (.castle x) s (fun u => u.guard.reqs = s.guard.reqs ∧ getF u fRotPeriod = getF s fRotPeriod ∧
        Replied s u 0x63 x 2 0 [])) ∧
    (un ≤ 2 → n ≤ 15 → (un = 1 → c ≤ 3) → (un = 2 → c ≤ 1) → (per = 0 ∨ (60 ≤ per ∧ per ≤ 86400)) →
      (castServable s un n c = false → Completes (.castle x) s (fun u =>
        getF u fCastRej = 1 ∧ u.guard.reqs = s.guard.reqs ∧ getF u fRotPeriod = getF s fRotPeriod ∧
        Replied s u 0x63 x 3 0 [])) ∧
      (castServable s un n c = true →
        (un = 0 ∨ s.guard.run ≠ none → Completes (.castle x) s (fun u =>
          ({ unit := un, reason := 3, cluster := n, pos := c } : CastReq) ∈ u.guard.reqs ∧
          getF u fRotPeriod = (if per = 0 then getF s fRotPeriod else per) ∧
          Waits u 0x63 x (castKey { unit := un, reason := 3, cluster := n, pos := c }))) ∧
        (un = 1 → s.guard.run = none → Completes (.castle x) s (fun u =>
          LaneCastled s u n c ∧ getF u fRotPeriod = (if per = 0 then getF s fRotPeriod else per) ∧
          Replied s u 0x63 x 0 0 [])) ∧
        (un = 2 → s.guard.run = none → Completes (.castle x) s (fun u =>
          CpCastled s u c ∧ getF u fRotPeriod = (if per = 0 then getF s fRotPeriod else per) ∧
          Replied s u 0x63 x 0 0 []))))) ∧
  (∀ (s : State) (x : ACmd), AdmOk s x 4 →
    (∀ r, s.guard.faults.find? (fun y => leAt y 24 4 = leAt x.payload 0 4) = some r →
      Completes (.faultRead x) s (fun u => u.guard = s.guard ∧ Replied s u 0x64 x 0 0 r)) ∧
    (s.guard.faults.find? (fun y => leAt y 24 4 = leAt x.payload 0 4) = none →
      Completes (.faultRead x) s (fun u => u.guard = s.guard ∧ Replied s u 0x64 x 2 0 []))) ∧
  (∀ (s : State) (x : ACmd) (n : Nat), AdmOk s x 2 → n = imgB x.payload 1 →
    (imgB x.payload 0 ≠ 0 ∨ 15 < n → Completes (.powerDark x) s (fun u => u.power = s.power ∧ Replied s u 0x65 x 2 0 [])) ∧
    (imgB x.payload 0 = 0 → n ≤ 15 →
      (getF s (fPwr n) = 0 → Completes (.powerDark x) s (fun u =>
        getF u (fPwr n) = 1 ∧ (pwrCl u n).darkReq = true ∧ Waits u 0x65 x n)) ∧
      (getF s (fPwr n) ≠ 0 → Completes (.powerDark x) s (fun u =>
        u.power = s.power ∧ getF u (fPwr n) = getF s (fPwr n) ∧ Replied s u 0x65 x 3 (getF s (fPwr n)) []))) ∧
    (imgB x.payload 0 ≠ 1 ∨ 15 < n → Completes (.powerWake x) s (fun u => u.power = s.power ∧ Replied s u 0x65 x 2 0 [])) ∧
    (imgB x.payload 0 = 1 → n ≤ 15 →
      (getF s (fPwr n) = 0 → Completes (.powerWake x) s (fun u => u.power = s.power ∧ Replied s u 0x65 x 3 0 [])) ∧
      (getF s (fPwr n) = 1 → Completes (.powerWake x) s (fun u =>
        getF u (fPwr n) = 1 ∧ (pwrCl u n).latched = ((pwrCl s n).latched.elim (some 1) some) ∧ Waits u 0x65 x (16 + n))) ∧
      (getF s (fPwr n) = 2 → Completes (.powerWake x) s (fun u =>
        getF u (fPwr n) = 3 ∧ (pwrCl u n).wake = some 1 ∧ Waits u 0x65 x (16 + n))) ∧
      (getF s (fPwr n) = 3 → Completes (.powerWake x) s (fun u =>
        getF u (fPwr n) = 3 ∧ (pwrCl u n).wake = (pwrCl s n).wake ∧ Waits u 0x65 x (16 + n))))) ∧
  (∀ (s : State) (x : ACmd), AdmOk s x 1 →
    (imgB x.payload 0 ≠ 2 → Completes (.powerStandby x) s (fun u => u.power = s.power ∧ Replied s u 0x65 x 2 0 [])) ∧
    (imgB x.payload 0 = 2 → lowPowerOk s false = false → Completes (.powerStandby x) s (fun u =>
      u.power = s.power ∧ Replied s u 0x65 x 3 (getF s fChip) [])) ∧
    (imgB x.payload 0 = 2 → lowPowerOk s false = true → Completes (.powerStandby x) s (fun u =>
      getF u fChip = 1 ∧ u.power.e0 = some (now s) ∧ Replied s u 0x65 x 0 0 [] ∧
      ∀ n, n < 16 → getF s (fPwr n) = 0 → getF u (fPwr n) = 1)) ∧
    (imgB x.payload 0 ≠ 3 → Completes (.powerDeep x) s (fun u => u.power = s.power ∧ Replied s u 0x65 x 2 0 [])) ∧
    (imgB x.payload 0 = 3 → lowPowerOk s true = false → Completes (.powerDeep x) s (fun u =>
      u.power = s.power ∧ Replied s u 0x65 x 3 (getF s fChip) [])) ∧
    (imgB x.payload 0 = 3 → lowPowerOk s true = true → Completes (.powerDeep x) s (fun u =>
      getF u fChip = 3 ∧ u.power.e0 = some (now s) ∧ Replied s u 0x65 x 0 0 [] ∧
      ∀ n, n < 16 → getF s (fPwr n) = 0 → getF u (fPwr n) = 1))) ∧
  (∀ (s r : State) (x : ACmd) (a : Nat), AdmOk s x 4 → a = leAt x.payload 0 4 → r = admTake 0x66 x s →
    (regReadOk a = false → Completes (.regRead x) s (fun u => Kept s u ∧ Replied s u 0x66 x 6 0 [])) ∧
    (regReadOk a = true →
      (inHandover s (winOf a) = true → Completes (.regRead x) s (fun u => Kept s u ∧ Waits u 0x66 x a)) ∧
      (inHandover s (winOf a) = false →
        (loadCause r .cp a ≠ none → Completes (.regRead x) s (fun u => Kept s u ∧ Replied s u 0x66 x 2 0 [])) ∧
        (loadCause r .cp a = none → Completes (.regRead x) s (fun u =>
          Replied s u 0x66 x 0 0 (le 4 (regValue r .cp a).toNat)))))))

/-- R312–R318, R320, R321: a tag is submitted by its issuer and by nobody else; its descriptor is checked at ACCEPT; the
source is read and the destination written chunk by chunk, each after a check of the generation. R318–R321, R327, R342,
R424: at COMPLETE the record of 16 bytes is written and the tag freed, or held while reads of a fenced transfer are
outstanding; NEXT is submitted only after OK; a member's host writes are flushed first; 50 ms after a host read was
issued it times out. -/
def Obligations.Transfers : Prop :=
  ((∀ (s : State) (c : CoreId) (m : Fin 4) (v : Word),
    (maySubmit s c (4096 * m.val + bitsOf v 11 0) = true → xfer s (4096 * m.val + bitsOf v 11 0) = none →
      Completes (.movDbWrite c m v) s (fun u =>
        (xfer u (4096 * m.val + bitsOf v 11 0)).map (fun y => (y.stage, y.order, y.data, y.moved)) =
          some (0, s.xferNext, [], 0) ∧
        (xfer u (4096 * m.val + bitsOf v 11 0)).map (fun y => (y.status, y.held)) = some (none, false) ∧
        u.xferNext = s.xferNext + 1 ∧ u.mem = s.mem)) ∧
    ((maySubmit s c (4096 * m.val + bitsOf v 11 0) = false ∨ (xfer s (4096 * m.val + bitsOf v 11 0)).isSome = true) →
      exec (.movDbWrite c m v) s = .next (busErr c (0x41000000 + 0x100 * m.val) s))) ∧
  (∀ (s : State) (g : TagId), xfer s g.val = none →
    exec (.transferAccept g) s = .next s ∧ (∀ d e, exec (.transferReadChunk g d e) s = .next s) ∧
    (∀ ok, exec (.transferWriteChunk g ok) s = .next s)) ∧
  (∀ (s : State) (g : TagId) (x : Xfer), xfer s g.val = some x →
    (x.stage ≠ 0 ∨ x.status ≠ none → exec (.transferAccept g) s = .next s) ∧
    (x.stage = 0 → x.status = none → Completes (.transferAccept g) s (fun u => u.mem = s.mem ∧
      (staleDesc s (descOf s g.val) = true → (xfer u g.val).map (fun y => (y.stage, y.status)) = some (0, some 1)) ∧
      (staleDesc s (descOf s g.val) = false → descOk s g.val (descOf s g.val) = false →
        (xfer u g.val).map (fun y => (y.stage, y.status)) = some (0, some 3)) ∧
      (staleDesc s (descOf s g.val) = false → descOk s g.val (descOf s g.val) = true →
        (xfer u g.val).map (fun y => (y.stage, y.status, y.desc)) =
          some (if (descOf s g.val).op = 1 then 2 else 1, none, descOf s g.val) ∧
        ((descOf s g.val).op = 0 → (descOf s g.val).srcSpace = 1 → hostUp s (descOf s g.val) = true → x.read = 0 →
          (xfer u g.val).map (fun y => (y.reads, y.readAt)) = some (1, some (now s))))))) ∧
  (∀ (s : State) (g : TagId) (x : Xfer) (d : Option (List Byte)) (e : Bool), xfer s g.val = some x →
    (x.held = true → Completes (.transferReadChunk g d e) s (fun u => xfer u g.val = none ∧ u.mem = s.mem)) ∧
    (x.held = false → x.status ≠ none → Completes (.transferReadChunk g d e) s (fun u =>
      xfer u g.val = some { x with reads := 0, readAt := none } ∧ u.mem = s.mem)) ∧
    (x.held = false → x.status = none → ((x.stage ≠ 1 ∧ x.stage ≠ 2) ∨ x.desc.op ≠ 0 ∨ x.desc.len ≤ x.read) →
      exec (.transferReadChunk g d e) s = .next s) ∧
    (x.held = false → x.status = none → (x.stage = 1 ∨ x.stage = 2) → x.desc.op = 0 → x.read < x.desc.len →
      Completes (.transferReadChunk g d e) s (fun u => u.mem = s.mem ∧
        (staleDesc s x.desc = true → (xfer u g.val).map (fun y => (y.status, y.data)) = some (some 1, [])) ∧
        (staleDesc s x.desc = false →
          (x.desc.srcSpace = 0 → e = false → (xfer u g.val).map (fun y => (y.read, y.data, y.status)) =
            some (x.read + min (x.desc.len - x.read) 64,
              x.data ++ readBytes s (x.desc.src + x.read) (min (x.desc.len - x.read) 64), none)) ∧
          (x.desc.srcSpace = 0 → e = true → (xfer u g.val).map (fun y => y.status) = some (some 4)) ∧
          (x.desc.srcSpace = 1 → d = none ∨ hostUp s x.desc = false →
            (xfer u g.val).map (fun y => y.status) = some (some 2)) ∧
          (x.desc.srcSpace = 2 → d = none → (xfer u g.val).map (fun y => y.status) = some (some 5)) ∧
          (∀ b, d = some b → x.desc.srcSpace = 1 → hostUp s x.desc = true →
            (xfer u g.val).map (fun y => (y.data, y.status)) =
              some (x.data ++ b.take (min (x.desc.len - x.read) (min 512 (4096 - (x.desc.src + x.read) % 4096))), none)) ∧
          (∀ b, d = some b → x.desc.srcSpace = 2 → (xfer u g.val).map (fun y => (y.data, y.status)) =
            some (x.data ++ b.take (min (x.desc.len - x.read) 4096), none)))))) ∧
  (∀ (s : State) (g : TagId) (x : Xfer) (ok : Bool), xfer s g.val = some x →
    (x.status ≠ none ∨ (x.stage ≠ 1 ∧ x.stage ≠ 2) ∨ orderOk s g.val x = false ∨ writeData x = [] →
      exec (.transferWriteChunk g ok) s = .next s) ∧
    (x.status = none → (x.stage = 1 ∨ x.stage = 2) → orderOk s g.val x = true → writeData x ≠ [] →
      Completes (.transferWriteChunk g ok) s (fun u =>
        (staleDesc s x.desc = true → u.mem = s.mem ∧ (xfer u g.val).map (fun y => (y.stage, y.status)) = some (2, some 1)) ∧
        (staleDesc s x.desc = false →
          (x.desc.dstSpace = 0 → readBytes u (x.desc.dst + x.moved) (writeData x).length = writeData x ∧
            ∀ a, a < x.desc.dst + x.moved ∨ x.desc.dst + x.moved + (writeData x).length ≤ a → readB u a = readB s a) ∧
          (x.desc.dstSpace ≠ 0 → u.mem = s.mem) ∧
          (x.desc.dstSpace = 1 → ok = true → hostUp s x.desc = true → isMember s = false →
            u.group.hostWrites = (le 2 (reqFn s x.desc) ++ le 8 (x.desc.dst + x.moved) ++ writeData x) :: s.group.hostWrites) ∧
          (x.desc.dstSpace = 1 → ok = false ∨ hostUp s x.desc = false →
            (xfer u g.val).map (fun y => (y.stage, y.status, y.moved)) = some (2, some 2, x.moved)) ∧
          (x.desc.dstSpace = 2 → ok = false →
            (xfer u g.val).map (fun y => (y.stage, y.status, y.moved)) = some (2, some 5, x.moved)) ∧
          (x.desc.dstSpace = 0 ∨ (ok = true ∧ (x.desc.dstSpace = 1 → hostUp s x.desc = true)) →
            (xfer u g.val).map (fun y => (y.moved, y.data, y.stage, y.status)) =
              some (x.moved + (writeData x).length, x.data.drop (writeData x).length,
                if x.moved + (writeData x).length = x.desc.len then (3, some 0) else (2, none)))))))) ∧
  ((∀ (s : State) (g : TagId), xfer s g.val = none ∨ (∃ x, xfer s g.val = some x ∧ (x.status = none ∨ x.held = true)) →
    exec (.transferComplete g) s = .next s) ∧
  (∀ (s : State) (g : TagId) (x : Xfer) (st : Nat), xfer s g.val = some x → x.status = some st → x.held = false →
    (unflushed s x = true → x.flush = 1 → exec (.transferComplete g) s = .next s) ∧
    (unflushed s x = true → x.flush ≠ 1 → Completes (.transferComplete g) s (fun u =>
      xfer u g.val = some { x with flush := 1 } ∧ u.mem = s.mem ∧
      (lastSent u (routePort s 0) =
        some (7, true, 0, 3 :: le 2 (ownSeat s) ++ le 2 g.val)))) ∧
    (unflushed s x = false → Completes (.transferComplete g) s (fun u =>
      ∃ e, e = (if st = 0 ∧ staleDesc s x.desc = true then 1 else st) ∧
        readBytes u (0x105A0000 + 16 * g.val) 16 =
          [BitVec.ofNat 8 e, BitVec.ofNat 8 x.stage] ++ le 2 x.desc.tenant ++ le 2 x.desc.gen ++ le 2 0 ++ le 4 x.moved ++
            le 4 (now s) ∧
        (∀ a, a < 0x105A0000 + 16 * g.val ∨ 0x105A0000 + 16 * g.val + 16 ≤ a → readB u a = readB s a) ∧
        (e = 1 → getF u (fld (0x41000008 + 0x100 * (g.val / 4096)) 31 0) =
          min 0xFFFFFFFF (getF s (fld (0x41000008 + 0x100 * (g.val / 4096)) 31 0) + 1)) ∧
        (2 ≤ e → e ≤ 5 → isSet u (fMovErr (g.val / 4096) (e - 2)) = true) ∧
        (e = 1 → x.reads ≠ 0 → (xfer u g.val).map (fun y => y.held) = some true) ∧
        (e ≠ 0 ∧ (e ≠ 1 ∨ x.reads = 0) ∨ 4096 ≤ x.desc.next ∧ e = 0 → xfer u g.val = none) ∧
        (e ≠ 0 → u.xferNext = s.xferNext) ∧
        (e = 0 → x.desc.next < 4096 → ∀ k, k = g.val / 4096 * 4096 + x.desc.next →
          issuerOf k = issuerOf g.val → xfer s k = none →
          (xfer u k).map (fun y => (y.stage, y.order)) = some (0, s.xferNext))))) ∧
  (∀ (s : State) (g : TagId), xfer s g.val = none ∨ (∃ x, xfer s g.val = some x ∧
      (x.readAt = none ∨ ∃ t, x.readAt = some t ∧ dueNow s (t + msTurns 50) = false)) →
    exec (.completionTimeout g) s = .next s) ∧
  (∀ (s : State) (g : TagId) (x : Xfer) (t : Nat), xfer s g.val = some x → x.readAt = some t →
    dueNow s (t + msTurns 50) = true →
    Completes (.completionTimeout g) s (fun u =>
      u.host.aer = (x.desc.tenant, 3) :: s.host.aer ∧ u.mem = s.mem ∧
      (x.held = true → xfer u g.val = none) ∧
      (x.held = false → x.status ≠ none → xfer u g.val = some { x with reads := 0, readAt := none }) ∧
      (x.held = false → x.status = none → (xfer u g.val).map (fun y => (y.status, y.reads)) = some (some 2, 0)))))

/-- R322–R325: over one period every port that was latched receives exactly as many grants as its tag, all counters end at
0, and nothing but the target's arbiter changes; a commons bank is suspended during a handover. -/
def Obligations.FabricPeriod : Prop :=
  (∀ (s : State) (x : Fin 17) (tags : List (Nat × Nat)), (x.val < 16 → s.guard.run = none) →
    (tags.map (fun t => t.1)).Nodup →
    Completes (.arbitrationPeriod x tags) s (fun u => ∃ a, Tab.find u.arbs x.val = some a ∧
      (∀ t ∈ tags, a.grants.count t.1 = popTag s t.1 t.2) ∧
      a.grants.length = (tags.map (fun t => popTag s t.1 t.2)).sum ∧
      (∀ p ∈ a.ports, p.d = 0 ∧ p.owed = 0) ∧
      (∀ y, y ≠ x.val → Tab.find u.arbs y = Tab.find s.arbs y) ∧ u.mem = s.mem ∧ u.regs = s.regs ∧ u.xfers = s.xfers)) ∧
  (∀ (s : State) (x : Fin 17) (tags : List (Nat × Nat)), x.val < 16 → s.guard.run.isSome = true →
    exec (.arbitrationPeriod x tags) s = .next s)

/-- R329, R331, R332, R336, R344, R348, R350: training, its retry, the control register, a failed lane and the spare, the
end of a swap, the loss of a link, the heartbeat and the delay. R330, R333, R334: a frame of every type is checked,
acknowledged, taken in order once, discarded on a reserved bit or without a seat, or forwarded; HEARTBEAT has no effect
of its own. -/
def Obligations.DrarenLinks : Prop :=
  ((∀ (s : State) (p : DrnPort) (i : TrainInfo) (m : Nat × Nat × Nat), m = trainMode s p.val i →
    (mayTrain s p.val = false → exec (.linkTrain p i) s = .next s) ∧
    (mayTrain s p.val = true → Completes (.linkTrain p i) s (fun u =>
      (i.partnerU = decide (p.val = 0) → getF u (fDrnMiswire p.val) = 1 ∧ getF u (fDrnState p.val) = 0) ∧
      (i.partnerU ≠ decide (p.val = 0) → m.2.1 = 0 →
        getF u (fDrnState p.val) = 1 ∧ (drn u p.val).retryAt = some (now s + msTurns 10)) ∧
      (i.partnerU ≠ decide (p.val = 0) → m.2.1 ≠ 0 →
        getF u (fDrnState p.val) = 2 ∧ getF u (fDrnRate p.val) = m.1 % 4 ∧ getF u (fDrnWidth p.val) = m.2.1 % 16 ∧
        getF u (fDrnSpare p.val) = (if laneCount m.2.2 = 5 then 4 else 15) ∧ (drn u p.val).trained = true ∧
        (drn u p.val).order = ((List.range 5).filter (fun l => m.2.2 / 2 ^ l % 2 = 1)).take m.2.1 ∧
        (drn u p.val).lastValid = some (now s) ∧
        (p.val ≠ 0 → mayAddress s = true → lastSent u p.val = some (1, false, 0xFFFF,
          le 2 (childSeat (ownSeat s) (p.val - 1)) ++ [1, 0] ++ le 4 (groupEpoch s) ++ le 8 s.group.headSerial ++
            le 8 (frameNo s) ++ le 2 (getF s fLenActive) ++ List.replicate 6 0)) ∧
        (4 ≤ laneCount i.good3.toNat → getF s (fDrnState p.val) = 0 → getF s (fDrnMaxRate p.val) = 3 → i.maxRate = 3 →
          8 ≤ getF s (fDrnMaxWidth p.val) → 8 ≤ i.maxWidth.toNat → m.1 = 3 ∧ m.2.1 = 4))))) ∧
  (∀ (s : State) (p : DrnPort),
    ((drn s p.val).retryAt = none → exec (.trainRetry p) s = .next s) ∧
    (∀ t, (drn s p.val).retryAt = some t →
      (dueNow s t = false → exec (.trainRetry p) s = .next s) ∧
      (dueNow s t = true → Completes (.trainRetry p) s (fun u =>
        getF u (fDrnState p.val) = 1 ∧ (drn u p.val).retryAt = none)))) ∧
  (∀ (s : State) (p : DrnPort), Completes (.drnRetrain .cp p) s (fun u =>
    getF u (fDrnState p.val) = 0 ∧ getF u (fDrnRate p.val) = 0 ∧ getF u (fDrnWidth p.val) = 0 ∧
    getF u (fDrnEnable p.val) = getF s (fDrnEnable p.val))) ∧
  (∀ (s : State) (p : DrnPort), Completes (.drnDisable .cp p) s (fun u =>
    getF u (fDrnEnable p.val) = 0 ∧
    getF u (fDrnState p.val) = (if getF s (fDrnEnable p.val) = 1 then 0 else getF s (fDrnState p.val)))) ∧
  (∀ (s : State) (c : CoreId) (p : DrnPort), isCp c = false →
    exec (.drnRetrain c p) s = .next (busErr c (drnK p.val 0) s) ∧
    exec (.drnDisable c p) s = .next (busErr c (drnK p.val 0) s)) ∧
  (∀ (s : State) (p : DrnPort) (l : Fin 5),
    (drnUp s p.val = false → exec (.laneFail p l) s = .next s) ∧
    (drnUp s p.val = true → Completes (.laneFail p l) s (fun u =>
      getF u (bit (drnK p.val 4) (16 + l.val)) = 1 ∧
      (getF s (fDrnSpare p.val) = l.val → getF u (fDrnSpare p.val) = 15 ∧ getF u (fDrnState p.val) = 2) ∧
      (getF s (fDrnSpare p.val) ≠ l.val → (drn s p.val).order.contains l.val = false →
        getF u (fDrnState p.val) = 2 ∧ getF u (fDrnSpare p.val) = getF s (fDrnSpare p.val)) ∧
      (getF s (fDrnSpare p.val) = 15 → (drn s p.val).order.contains l.val = true → getF u (fDrnState p.val) = 1) ∧
      (getF s (fDrnSpare p.val) ≠ 15 → getF s (fDrnSpare p.val) ≠ l.val → (drn s p.val).order.contains l.val = true →
        getF u (fDrnState p.val) = 3 ∧ getF u (fDrnSpare p.val) = 15 ∧ getF u (fDrnSpareUsed p.val) = 1 ∧
        (drn u p.val).swapEnd = some (now s + 9600) ∧
        (drn u p.val).order = (drn s p.val).order.map (fun k => if k = l.val then getF s (fDrnSpare p.val) else k))))) ∧
  (∀ (s : State) (p : DrnPort),
    ((drn s p.val).swapEnd = none → exec (.laneSwapDone p) s = .next s) ∧
    (∀ e, (drn s p.val).swapEnd = some e →
      (getF s (fDrnState p.val) ≠ 3 ∨ e < now s → exec (.laneSwapDone p) s = .next s) ∧
      (getF s (fDrnState p.val) = 3 → now s ≤ e → Completes (.laneSwapDone p) s (fun u =>
        getF u (fDrnState p.val) = 2 ∧ (drn u p.val).swapEnd = none ∧ (drn u p.val).replay = (drn s p.val).replay ∧
        getF u (fDrnReplays p.val) = min 65535 (getF s (fDrnReplays p.val) + 1))))) ∧
  (∀ (s : State) (p : DrnPort),
    ((drn s p.val).lastValid = none → exec (.linkLoss p) s = .next s) ∧
    (∀ t, (drn s p.val).lastValid = some t →
      (dueNow s (t + 19200) = false → exec (.linkLoss p) s = .next s) ∧
      (dueNow s (t + 19200) = true → Completes (.linkLoss p) s (fun u =>
        getF u (fDrnState p.val) = 0 ∧ (drn u p.val).lastValid = none ∧ (drn u p.val).caps = (0, 0, 0) ∧
        (p.val = 0 → isSet s fGrpValid = true → isHead s = false →
          getF u fGrpValid = 0 ∧ getF u fGrpAdmitted = 0 ∧ ∀ k, k < 256 → getF u (fTState k) = 0) ∧
        (p.val = 0 → (isSet s fGrpValid = false ∨ isHead s = true) → u.group = s.group) ∧
        (p.val ≠ 0 → groupEpoch u = (if isHead s = true then (groupEpoch s + 1) % 2 ^ 32 else groupEpoch s) ∧
          ∀ x ∈ u.group.seats, x.seat = childSeat (ownSeat s) (p.val - 1) ∨
            inSubtree (childSeat (ownSeat s) (p.val - 1)) x.seat = true → x.occupied = false))))) ∧
  (∀ (s : State) (p : DrnPort),
    (drnUp s p.val = false ∨ (drn s p.val).beat = none ∨ (∃ t, (drn s p.val).beat = some t ∧ dueNow s (t + 960) = false) →
      exec (.heartbeatSend p) s = .next s) ∧
    (∀ t, drnUp s p.val = true → (drn s p.val).beat = some t → dueNow s (t + 960) = true →
      Completes (.heartbeatSend p) s (fun u =>
        lastSent u p.val = some (0, false, 0xFFFF, []) ∧ (drn u p.val).replay.length = (drn s p.val).replay.length + 1 ∧
        (drn u p.val).txSeq = ((drn s p.val).txSeq + 1) % 65536 ∧ (drn u p.val).beat = some (now u)))) ∧
  (∀ (s : State) (p : DrnPort) (r : BitVec 24),
    (drnUp s p.val = false → exec (.delayMeasure p r) s = .next s) ∧
    (drnUp s p.val = true → Completes (.delayMeasure p r) s (fun u =>
      getF u (fDrnDelay p.val) = r.toNat / 2 ∧ u.links = s.links)))) ∧
  ((∀ q ∈ ([(.heartbeat, 0), (.address, 1), (.admitReq, 2), (.admitFrame, 3), (.detach, 4), (.tick, 5), (.mmio, 6), (.hostdma, 7),
      (.queue, 8), (.drnAdmin, 9), (.drnJournal, 0x0A), (.capacity, 0x0B)] : List ((Frame → Instr) × Nat)),
    ∀ (s : State) (f : Frame),
      (drnUp s f.port.val = false → exec (q.1 f) s = .next s) ∧
      (drnUp s f.port.val = true → Completes (q.1 f) s (fun u =>
        (f.crcOk = false →
          getF u (fDrnReplays f.port.val) = min 65535 (getF s (fDrnReplays f.port.val) + 1) ∧
          (drn u f.port.val).replayReq = true ∧ (drn u f.port.val).rxSeq = (drn s f.port.val).rxSeq ∧
          (drn u f.port.val).replay = (drn s f.port.val).replay ∧ (drn u f.port.val).lastValid = (drn s f.port.val).lastValid) ∧
        (f.crcOk = true → f.seq.toNat ≠ (drn s f.port.val).rxSeq →
          (drn u f.port.val).rxSeq = (drn s f.port.val).rxSeq ∧ (drn u f.port.val).lastValid = some (now s) ∧
          ((f.seq.toNat + 65536 - (drn s f.port.val).rxSeq) % 65536 < 32768 → (drn u f.port.val).replayReq = true)) ∧
        (f.crcOk = true → f.seq.toNat = (drn s f.port.val).rxSeq → f.reservedBit = true →
          getF u (fDrnBad f.port.val) = min 65535 (getF s (fDrnBad f.port.val) + 1) ∧
          (drn u f.port.val).rxSeq = ((drn s f.port.val).rxSeq + 1) % 65536) ∧
        (f.crcOk = true → f.seq.toNat = (drn s f.port.val).rxSeq → f.reservedBit = false → f.port.val = 0 →
          isSet s fGrpValid = false → q.2 ≠ 0 → q.2 ≠ 1 → q.2 ≠ 4 →
          OnlyLink s u ∧ (drn u f.port.val).rxSeq = ((drn s f.port.val).rxSeq + 1) % 65536) ∧
        (f.crcOk = true → f.seq.toNat = (drn s f.port.val).rxSeq → f.reservedBit = false →
          (f.port.val ≠ 0 ∨ isSet s fGrpValid = true ∨ q.2 = 0 ∨ q.2 = 1 ∨ q.2 = 4) → f.routed = true →
          f.dst.toNat ≠ ownSeat s →
          OnlyLink s u ∧ lastSent u (routePort s f.dst.toNat) = some (q.2, true, f.dst.toNat, f.payload))))) ∧
  (∀ (s : State) (f : Frame), RxOk s 0 f → Completes (.heartbeat f) s (fun u =>
    OnlyLink s u ∧ (drn u f.port.val).rxSeq = ((drn s f.port.val).rxSeq + 1) % 65536 ∧
    (drn u f.port.val).lastValid = some (now s) ∧ (drn u f.port.val).replayReq = false ∧
    (drn u f.port.val).replay = (drn s f.port.val).replay.filter (fun x =>
      decide (32768 ≤ (f.ack.toNat + 65536 - x.seq) % 65536)) ∧
    (drn u f.port.val).txSeq = (drn s f.port.val).txSeq)))

/-- R200, R335–R341, R345–R349: election, addressing, admission and leaving; ticks, journal streams and capacity along the
chain. Payloads are as log entry 33 lays them out. -/
def Obligations.GroupMembership : Prop :=
  (∀ s : State,
    (isSet s fGrpValid = true ∨ (drn s 0).trained = true ∨ isSet s fHeadStrap = true ∨ dueNow s (msTurns 100) = false →
      exec .headElection s = .next s) ∧
    (isSet s fGrpValid = false → (drn s 0).trained = false → isSet s fHeadStrap = false →
      dueNow s (msTurns 100) = true → Completes .headElection s (fun u =>
        getF u fGrpHead = 1 ∧ getF u fGrpValid = 1 ∧ getF u fGrpSeat = 0 ∧ getF u fGrpIndex = 0 ∧ groupEpoch u = 1 ∧
        getF u fGrpAdmitted = 1 ∧ u.group.headSerial = Config.otpSerial.toNat ∧ u.group.uDisabled = true ∧
        getF u (fDrnState 0) = 0))) ∧
  (∀ s : State,
    (s.group.electedAt = none ∨ (∃ t, s.group.electedAt = some t ∧ dueNow s (t + msTurns 100) = false) →
      exec .standaloneDecision s = .next s) ∧
    (∀ t, s.group.electedAt = some t → dueNow s (t + msTurns 100) = true → Completes .standaloneDecision s (fun u =>
      ((drn s 1).trained = false → (drn s 2).trained = false → getF u fGrpStandalone = 1 ∧ u.group.totalVfs = 256) ∧
      ((drn s 1).trained = true ∨ (drn s 2).trained = true → getF u fGrpStandalone = 0 ∧ u.group.totalVfs = 4096)))) ∧
  (∀ (s : State) (f : Frame), RxOk s 1 f →
    (f.port.val ≠ 0 ∨ isHead s = true ∨ leAt f.payload 2 1 ≠ 1 → Completes (.address f) s (fun u => OnlyLink s u)) ∧
    (f.port.val = 0 → isHead s = false → leAt f.payload 2 1 = 1 → Completes (.address f) s (fun u =>
      getF u fGrpValid = 1 ∧ getF u fGrpSeat = leAt f.payload 0 2 ∧ getF u fGrpIndex = seatIndex (leAt f.payload 0 2) % 512 ∧
      groupEpoch u = leAt f.payload 4 4 ∧ u.group.headSerial = leAt f.payload 8 8 ∧
      lastSent u 0 = some (2, true, 0, le 2 (leAt f.payload 0 2) ++ le 8 Config.otpSerial.toNat ++
        le 8 (if admEpoch s = 0 then 0 else s.group.lastHead) ++ le 4 (admEpoch s) ++
        [if isSet s fJnlRunning = true then 1 else 0])))) ∧
  (∀ (s : State) (f : Frame) (seat : Nat), RxOk s 2 f → seat = leAt f.payload 0 2 →
    (isHead s = false → Completes (.admitReq f) s (fun u => OnlyLink s u)) ∧
    (isHead s = true → Completes (.admitReq f) s (fun u =>
      ∃ ep, ep = (if s.group.seats.any (fun x => x.seat = seat && x.occupied) = true then (groupEpoch s + 1) % 2 ^ 32
          else groupEpoch s) ∧ groupEpoch u = ep ∧
        u.group.seats.head? = some { seat := seat, serial := leAt f.payload 2 8, epoch := ep, occupied := true,
                                     admitAt := some (admitTickAt s) } ∧
        InReplay u (routePort s seat) 3 true seat (le 4 ep ++ le 8 (admitTickAt s) ++ le 2 (getF s fLenActive) ++
          le 1 (getF s fOvrLimit) ++ [if s.host.vfEnable then 1 else 0] ++ le 2 s.host.numVfs) ∧
        ∀ e ∈ confOf s (seatIndex seat), InReplay u (routePort s seat) 3 true seat (confFrame e)))) ∧
  (∀ (s : State) (f : Frame), RxOk s 3 f →
    (isMember s = false → Completes (.admitFrame f) s (fun u => OnlyLink s u)) ∧
    (isMember s = true → Completes (.admitFrame f) s (fun u => u.regs = s.regs ∧
      (leAt f.payload 0 4 ≠ 0 → u.group.admitTick = some (leAt f.payload 4 8) ∧ u.group.admitConf = f.payload) ∧
      (leAt f.payload 0 4 = 0 → u.group.admitTick = s.group.admitTick ∧
        u.group.admitConf = s.group.admitConf ++ f.payload.drop 4)))) ∧
  (∀ s : State,
    (s.group.admitTick = none ∨ s.group.tickFrame = none ∨ atTick s = false ∨
      (∃ a k, s.group.admitTick = some a ∧ s.group.tickFrame = some k ∧ k + 1 < a) → exec .admissionTick s = .next s) ∧
    (∀ a k, s.group.admitTick = some a → s.group.tickFrame = some k → a ≤ k + 1 → atTick s = true →
      Completes .admissionTick s (fun u =>
        frameNo u = a ∧ getF u fGrpAdmitted = 1 ∧ getF u fGroupLock = 1 ∧ admEpoch u = leAt s.group.admitConf 0 4 ∧
        (leAt s.group.admitConf 12 2 ≠ 0 → getF u fLenActive = leAt s.group.admitConf 12 2 % 4096) ∧
        getF u fOvrLimit = leAt s.group.admitConf 14 1 ∧ u.group.admitTick = none ∧
        u.group.lastHead = s.group.headSerial))) ∧
  (∀ (s : State) (f : Frame), RxOk s 4 f →
    (f.port.val ≠ 0 ∨ isMember s = false → Completes (.detach f) s (fun u => OnlyLink s u)) ∧
    (f.port.val = 0 → isMember s = true → Completes (.detach f) s (fun u =>
      getF u fGrpValid = 0 ∧ getF u fGrpAdmitted = 0 ∧ getF u fGroupLock = 0 ∧ u.group.lastHead = s.group.headSerial ∧
      u.host.vfEnable = false ∧ ∀ k, k < 256 → getF u (fTState k) = 0))) ∧
  (∀ (s : State) (f : Frame), RxOk s 5 f →
    (f.port.val ≠ 0 ∨ isHead s = true → Completes (.tick f) s (fun u => OnlyLink s u)) ∧
    (f.port.val = 0 → isHead s = false → Completes (.tick f) s (fun u =>
      u.group.tickFrame = some (leAt f.payload 0 8) ∧ groupEpoch u = leAt f.payload 20 4 ∧
      u.time.pendLen = (if leAt f.payload 10 2 = 0 then none else some (leAt f.payload 10 2, leAt f.payload 12 8)) ∧
      (isSet s fGrpAdmitted = true → leAt f.payload 0 8 = frameNo s →
        u.time.cur.cal = leAt f.payload 24 6 * 65536 + leAt f.payload 30 2 ∧
        (leAt f.payload 8 2 ≠ 0 → u.time.cur.rounds = leAt f.payload 8 2))))) ∧
  (∀ (s : State) (f : Frame) (seat : Nat) (d : List Byte), RxOk s 0x0A f → seat = leAt f.payload 0 2 → d = f.payload.drop 3 →
    (isSet s fJnlRunning = false → Completes (.drnJournal f) s (fun u =>
      lastSent u 0 = some (0x0A, false, 0xFFFF, f.payload) ∧ u.journal = s.journal)) ∧
    (isSet s fJnlRunning = true → imgB f.payload 2 = 0 → Completes (.drnJournal f) s (fun u =>
      (u.journal.chains.head?.bind (fun c => c.seg.map (fun g => (c.seat, g.chain, g.loss, g.epoch, g.lenRounds, g.raw)))) =
        some (seat, some seat, imgB d 20, leAt d 21 4, leAt d 25 4, 0) ∧ u.journal.closed = s.journal.closed)) ∧
    (isSet s fJnlRunning = true → imgB f.payload 2 ≠ 0 →
      (∀ x, s.journal.chains.find? (fun x => x.seat = seat) = some x → x.seg = none) →
      Completes (.drnJournal f) s (fun u => OnlyLink s u)) ∧
    (∀ x g, isSet s fJnlRunning = true → s.journal.chains.find? (fun x => x.seat = seat) = some x → x.seg = some g →
      (imgB f.payload 2 = 1 → Completes (.drnJournal f) s (fun u =>
        u.journal.chains.head? = some { x with seg := some { g with ext := d :: g.ext, raw := g.raw + d.length } } ∧
        u.journal.closed = s.journal.closed)) ∧
      (2 ≤ imgB f.payload 2 → Completes (.drnJournal f) s (fun u =>
        u.journal.chains.head? = some { x with seg := none } ∧
        u.journal.closed = s.journal.closed ++
          [{ g with close := imgB d 0, closeTurn := now s, closeStamp := stampOf (d.drop 1) }])))) ∧
  (∀ (s : State) (f : Frame), RxOk s 0x0B f →
    (f.port.val = 0 → Completes (.capacity f) s (fun u => OnlyLink s u)) ∧
    (f.port.val ≠ 0 → Completes (.capacity f) s (fun u =>
      (drn u f.port.val).caps = (leAt f.payload 0 2, leAt f.payload 2 4, leAt f.payload 6 4) ∧
      u.group.caps.1 = (ownCaps s).1 + leAt f.payload 0 2 + (drn s (3 - f.port.val)).caps.1 ∧
      u.group.caps.2.1 = (ownCaps s).2.1 + leAt f.payload 2 4 + (drn s (3 - f.port.val)).caps.2.1 ∧
      u.group.caps.2.2 = (ownCaps s).2.2 + leAt f.payload 6 4 + (drn s (3 - f.port.val)).caps.2.2 ∧
      getF u fGrpChips = u.group.caps.1 % 512 ∧
      (u.group.caps ≠ s.group.caps → isHead s = false → drnUp s 0 = true → lastSent u 0 =
        some (0x0B, false, 0xFFFF, le 2 u.group.caps.1 ++ le 4 u.group.caps.2.1 ++ le 4 u.group.caps.2.2)))))

/-- R341–R343, R421 (payloads as log entry 33 lays them out): the host's accesses, host memory, queue entries and
administration commands cross a link. -/
def Obligations.DrarenTraffic : Prop :=
  (∀ (s : State) (f : Frame) (p o : Nat), RxOk s 6 f → p = leAt f.payload 1 2 → o = leAt f.payload 3 2 →
    (imgB f.payload 0 ≠ 3 → (256 < p ∨ o % 4 ≠ 0 ∨ 2 ≤ imgB f.payload 0) → Completes (.mmio f) s (fun u => OnlyLink s u)) ∧
    (p ≤ 256 → o % 4 = 0 →
      (imgB f.payload 0 = 1 → Completes (.mmio f) s (fun u => OnlyLink s u ∧
        lastSent u (routePort s 0) = some (6, true, 0, 2 :: le 2 p ++ le 2 o ++ le 4 (hostView s p o).toNat))) ∧
      (imgB f.payload 0 = 0 → pageSt s p = .discard → Completes (.mmio f) s (fun u => OnlyLink s u)) ∧
      (imgB f.payload 0 = 0 → pageSt s p = .dormant → o ≠ 0x14 → Completes (.mmio f) s (fun u => OnlyLink s u)) ∧
      (imgB f.payload 0 = 0 → pageSt s p = .acts → o = 0x18 → Completes (.mmio f) s (fun u =>
        reg u (pageK p 0x18) = wordAt f.payload 5 ∧ ∀ k, k ≠ pageK p 0x18 → reg u k = reg s k))) ∧
    (imgB f.payload 0 = 3 → isMember s = false → Completes (.mmio f) s (fun u => OnlyLink s u)) ∧
    (imgB f.payload 0 = 3 → isMember s = true → Completes (.mmio f) s (fun u =>
      u.host.vfEnable = decide (imgB f.payload 1 = 1) ∧
      u.host.numVfs = min 256 (leAt f.payload 2 2 - 256 * getF s fGrpIndex) ∧
      ∀ t, t < 256 → vfOn u t = false → getF u (fTState t) = 0))) ∧
  (∀ (s : State) (f : Frame), RxOk s 7 f →
    (isHead s = false → imgB f.payload 0 = 3 → ∀ x, xfer s (leAt f.payload 3 2) = some x →
      Completes (.hostdma f) s (fun u => u.group = s.group ∧ u.mem = s.mem ∧
        xfer u (leAt f.payload 3 2) = some { x with flush := 2 })) ∧
    (isHead s = false → (imgB f.payload 0 ≠ 3 ∨ xfer s (leAt f.payload 3 2) = none) →
      Completes (.hostdma f) s (fun u => OnlyLink s u ∧ u.xfers = s.xfers)) ∧
    (isHead s = true → imgB f.payload 0 = 0 →
      Completes (.hostdma f) s (fun u => u.group.hostWrites = f.payload.drop 3 :: s.group.hostWrites)) ∧
    (isHead s = true → imgB f.payload 0 = 1 → Completes (.hostdma f) s (fun u =>
      ∃ b, b.length = leAt f.payload 11 2 ∧ lastSent u (routePort s (leAt f.payload 1 2)) =
        some (7, true, leAt f.payload 1 2, 2 :: le 2 (leAt f.payload 1 2) ++ b))) ∧
    (isHead s = true → imgB f.payload 0 = 3 → Completes (.hostdma f) s (fun u => OnlyLink s u ∧
      lastSent u (routePort s (leAt f.payload 1 2)) = some (7, true, leAt f.payload 1 2, f.payload))) ∧
    (isHead s = true → imgB f.payload 0 = 4 → Completes (.hostdma f) s (fun u =>
      u.host.msix = (leAt f.payload 3 2, leAt f.payload 5 2) :: s.host.msix)) ∧
    (isHead s = true → (imgB f.payload 0 = 2 ∨ 4 < imgB f.payload 0) → Completes (.hostdma f) s (fun u => OnlyLink s u))) ∧
  (∀ (s : State) (f : Frame), RxOk s 8 f → Completes (.queue f) s (fun u =>
    (imgB f.payload 0 ≤ 3 →
      u.group.inQueue = s.group.inQueue ++ [(max (leAt f.payload 8 8) (frameNo s + 1), f.payload)]) ∧
    (imgB f.payload 0 = 3 ∨ imgB f.payload 0 = 4 → ∀ q ∈ u.group.farOut,
      ¬ (q.2.tenant = leAt f.payload 2 2 % 256 ∧ q.2.dev = imgB f.payload 1 % 16 ∧ q.2.tag = some (leAt f.payload 28 2))) ∧
    (4 ≤ imgB f.payload 0 → u.group.inQueue = s.group.inQueue) ∧
    (imgB f.payload 0 = 5 → ∀ p t, p = portOf s (leAt f.payload 16 2) → t = farTenant (leAt f.payload 18 2) (leAt f.payload 2 2) →
      isFar p = false → (port s p).defined = true → (port s p).bound = none → (port s p).grant = some t →
      (port u p).bound = some (16 * t + imgB f.payload 1 % 16)) ∧
    (imgB f.payload 0 = 6 → ∀ p t, p = portOf s (leAt f.payload 16 2) → t = farTenant (leAt f.payload 18 2) (leAt f.payload 2 2) →
      isFar p = false → (port s p).defined = true → (port s p).bound = some (16 * t + imgB f.payload 1 % 16) →
      (port u p).bound = none))) ∧
  (∀ (s : State) (f : Frame), RxOk s 9 f → imgB f.payload 0 = 0 →
    (inFull s 256 = true → Completes (.drnAdmin f) s (fun u => OnlyLink s u ∧
      lastSent u (routePort s 0) = some (9, true, 0, 1 :: mkSlot (imgB (padTo 64 (f.payload.drop 1)) 0) 1
        (leAt (padTo 64 (f.payload.drop 1)) 2 2) 0xFF 0 4 0 []))) ∧
    (inFull s 256 = false → Completes (.drnAdmin f) s (fun u =>
      ringGet u 256 0x400 (getF s (fInTail 256)) = padTo 64 (f.payload.drop 1) ∧
      getF u (fInTail 256) = (getF s (fInTail 256) + 1) % 65536 ∧
      (s.admin.isSome = true → u.group.fwd = s.group.fwd ++ [(getF s (fInTail 256), false)])))) ∧
  (∀ (s : State) (f : Frame), RxOk s 9 f → imgB f.payload 0 ≠ 0 →
    (∀ a, s.admin = some a → a.op = imgB (padTo 64 (f.payload.drop 1)) 0 → a.key = fwdKey →
      Completes (.drnAdmin f) s (fun u => u.admin = none)) ∧
    ((s.admin = none ∨ ∃ a, s.admin = some a ∧ (a.op ≠ imgB (padTo 64 (f.payload.drop 1)) 0 ∨ a.key ≠ fwdKey)) →
      Completes (.drnAdmin f) s (fun u => u.admin = s.admin ∧ u.regs = s.regs ∧ u.mem = s.mem)))

/-- R280, R360–R363, R366, R369, R370, R372, R376: what each detector and each request of a core castling does. R355–R359:
pairs are requested, formed and split; checkpoints are taken, or the pair rolls back to its last one. -/
def Obligations.CoreCastlingsAndPairs : Prop :=
  ((∀ (s : State) (n : ClusterId) (x : Fin 5) (c : Bool),
    Completes (if c then .checkerError n x else .stallSentinel n x) s (fun u =>
      (x.val < 4 → spareCore s n.val = true → inHandover s n.val = false →
        LaneCastled s u n.val x.val ∧ faultIs u (if c then 3 else 4) 2 1) ∧
      (x.val < 4 → spareCore s n.val = false ∨ inHandover s n.val = true →
        (Machine.core u (16 * n.val + 12 + firstPos s n.val x.val)).failed = true ∧ faultIs u (if c then 3 else 4) 2 1 ∧
        (inHandover s n.val = false → ({ unit := 0, reason := 2, cluster := n.val, pos := 0 } : CastReq) ∈ u.guard.reqs)) ∧
      (x.val = 4 → (∀ t, t < 12 → (Machine.core u (16 * n.val + t)).frozen = true) ∧ faultIs u (if c then 3 else 4) 2 0 ∧
        ({ unit := 0, reason := 2, cluster := n.val, pos := 0 } : CastReq) ∈ u.guard.reqs))) ∧
  (∀ (s : State) (n : ClusterId) (p : Fin 2) (a b : Bool),
    ((Machine.core s (16 * n.val + 12 + 2 * p.val)).bistEnd = none ∨
        (∃ e, (Machine.core s (16 * n.val + 12 + 2 * p.val)).bistEnd = some e ∧ dueNow s e = false) →
      exec (.pairBistDone n p a b) s = .next s) ∧
    (∀ e, (Machine.core s (16 * n.val + 12 + 2 * p.val)).bistEnd = some e → dueNow s e = true →
      Completes (.pairBistDone n p a b) s (fun u =>
        (Machine.core u (16 * n.val + 12 + 2 * p.val)).bistEnd = none ∧
        (a = true → b = true → (Machine.core u (16 * n.val + 12 + 2 * p.val)).mism = 0 ∧ faultIs u 9 1 1) ∧
        (a ≠ b → spareCore s n.val = true → inHandover s n.val = false →
          LaneCastled s u n.val (2 * p.val + a.toNat) ∧ faultIs u 9 2 1) ∧
        (a ≠ b → spareCore s n.val = true → inHandover s n.val = true → faultIs u 9 2 1 ∧
          (Machine.core u (16 * n.val + 12 + firstPos s n.val (2 * p.val + a.toNat))).failed = true) ∧
        ((a = false ∧ b = false) ∨ (a ≠ b ∧ spareCore s n.val = false) →
          (Machine.core u (16 * n.val + 12 + 2 * p.val)).failed = true ∧ faultIs u 9 2 1 ∧
          ({ unit := 0, reason := 2, cluster := n.val, pos := 0 } : CastReq) ∈ u.guard.reqs)))) ∧
  (∀ (s : State) (n : ClusterId) (t : ThreadNo), Completes (.shadowMismatch n t) s (fun u =>
    (Machine.core u (16 * n.val + t.val)).frozen = true ∧ faultIs u 5 2 0 ∧
    ({ unit := 0, reason := 2, cluster := n.val, pos := 0 } : CastReq) ∈ u.guard.reqs)) ∧
  (∀ (s : State) (b : Nat), Completes (.voteDisagree b) s (fun u =>
    faultIs u 6 0 5 ∧ u.guard.faults.length = s.guard.faults.length + 1 ∧ u.cores = s.cores ∧ u.mem = s.mem)) ∧
  (∀ (s : State) (a b : Bool),
    (s.guard.cpMism < 2 → exec (.cpCastling a b) s = .next s) ∧
    (2 ≤ s.guard.cpMism → Completes (.cpCastling a b) s (fun u =>
      u.guard.cpMism = 0 ∧
      (a ≠ b → getF s fCpSpare ≠ 3 → CpCastled s u b.toNat ∧ faultIs u 9 2 2) ∧
      (a = b ∨ getF s fCpSpare = 3 → faultIs u 9 1 2 ∧ u.cores = s.cores ∧ getF u fCpActA = getF s fCpActA)))) ∧
  (∀ (s : State) (n : ClusterId), Completes (.castleReqCluster .cp n) s (fun u =>
    ((castDest s n.val).isSome = true → ({ unit := 0, reason := 3, cluster := n.val, pos := 0 } : CastReq) ∈ u.guard.reqs) ∧
    (castDest s n.val = none → getF u fCastRej = 1 ∧ u.guard = s.guard))) ∧
  (∀ (s : State) (n : ClusterId) (x : Fin 8), Completes (.castleReqLaneCore .cp n x) s (fun u =>
    (x.val < 4 → spareCore s n.val = true → s.guard.run = none → LaneCastled s u n.val x.val) ∧
    (x.val < 4 → spareCore s n.val = true → s.guard.run ≠ none → u.cores = s.cores ∧
      ({ unit := 1, reason := 3, cluster := n.val, pos := x.val } : CastReq) ∈ u.guard.reqs) ∧
    (4 ≤ x.val ∨ spareCore s n.val = false → getF u fCastRej = 1 ∧ u.cores = s.cores))) ∧
  (∀ (s : State) (x : Fin 8), Completes (.castleReqCp .cp x) s (fun u =>
    (x.val < 2 → getF s fCpSpare ≠ 3 → s.guard.run = none → CpCastled s u x.val) ∧
    (x.val < 2 → getF s fCpSpare ≠ 3 → s.guard.run ≠ none → u.cores = s.cores ∧
      ({ unit := 2, reason := 3, cluster := 0, pos := x.val } : CastReq) ∈ u.guard.reqs) ∧
    (2 ≤ x.val ∨ getF s fCpSpare = 3 → getF u fCastRej = 1 ∧ u.cores = s.cores))) ∧
  (∀ (s : State) (c : CoreId) (n : ClusterId) (x y : Fin 8), isCp c = false →
    exec (.castleReqCluster c n) s = .next (busErr c 0x46000008 s) ∧
    exec (.castleReqLaneCore c n x) s = .next (busErr c 0x46000008 s) ∧
    exec (.castleReqCp c y) s = .next (busErr c 0x46000008 s))) ∧
  ((∀ (s : State) (c : CoreId) (n : ClusterId) (v : Word), castHolds c n.val s = none →
    (isCp c = false → exec (.clDoublesWrite c n v) s = .next (busErr c (winK n.val 0x150) s)) ∧
    (isCp c = true → Completes (.clDoublesWrite c n v) s (fun u =>
      getF u (fPairReq n.val 0) = bitsOf v 0 0 ∧ getF u (fPairReq n.val 1) = bitsOf v 1 1 ∧
      getF u (fPairUp n.val 0) = getF s (fPairUp n.val 0) ∧ getF u (fPairUp n.val 1) = getF s (fPairUp n.val 1)))) ∧
  (∀ (s : State) (n : ClusterId), atTick s = false → exec (.pairForm n) s = .next s) ∧
  (∀ (s : State) (n : ClusterId) (k : Fin 2), atTick s = true → Completes (.pairForm n) s (fun u =>
    (working s n.val (2 * k.val) = false → working s n.val (2 * k.val + 1) = false →
      getF u (fPairUp n.val k.val) = getF s (fPairReq n.val k.val) ∧
      (getF s (fPairReq n.val k.val) = 0 → getF s (fPairUp n.val k.val) = 1 →
        (Machine.core u (16 * n.val + 12 + 2 * k.val + 1)).ctx = (Machine.core s (16 * n.val + 12 + 2 * k.val)).ctx)) ∧
    (working s n.val (2 * k.val) = true ∨ working s n.val (2 * k.val + 1) = true →
      getF u (fPairUp n.val k.val) = getF s (fPairUp n.val k.val)))) ∧
  (∀ (s : State) (c : CoreId) (n : ClusterId) (v : Word) (ok : Bool), castHolds c n.val s = none →
    (inWindow n.val c = false ∨ supCore s c = false →
      exec (.clCkptWrite c n v ok) s = .next (busErr c (winK n.val 0x154) s)) ∧
    (inWindow n.val c = true → supCore s c = true → isThread c = true → exec (.clCkptWrite c n v ok) s = .next s) ∧
    (inWindow n.val c = true → supCore s c = true → isThread c = false →
      (ok = true ∨ isPair s (runIx s c) = false → (Machine.core s (runIx s c)).side = [] → Completes (.clCkptWrite c n v ok) s (fun u =>
        (Machine.core u (runIx s c)).ckpt = some (Machine.core s (runIx s c)).ctx ∧ (Machine.core u (runIx s c)).undo = [] ∧
        (Machine.core u (runIx s c)).work = some (bitsOf v 3 0) ∧ (Machine.core u (runIx s c)).ctx = (Machine.core s (runIx s c)).ctx ∧
        u.mem = s.mem)) ∧
      (∀ a d, ok = true ∨ isPair s (runIx s c) = false →
        (Machine.core s (runIx s c)).side = [{ addr := a, size := 4, data := d }] → memAddr a.toNat = false →
        castHolds (coreOf (runIx s c)) (winOf a.toNat) s = none → winOf a.toNat = 17 →
        Completes (.clCkptWrite c n v ok) s (fun u => (Machine.core u (runIx s c)).side = [])) ∧
      (ok = false → isPair s (runIx s c) = true → Completes (.clCkptWrite c n v ok) s (fun u =>
        (Machine.core u (runIx s c)).ctx = ckptCtx s (runIx s c) ∧ (Machine.core u (runIx s c)).undo = [] ∧ (Machine.core u (runIx s c)).side = [] ∧
        faultIs u 1 1 (coreUnit (runIx s c)) ∧
        (runIx s c ≠ 256 → 1 ≤ (Machine.core s (runIx s c)).mism → (Machine.core u (runIx s c)).bistEnd = some (now s + 3840)))))) ∧
  (∀ s : State, (Machine.core s 256).side = [] →
    Completes (.cpCheckpoint true) s (fun u =>
      (Machine.core u 256).ckpt = some (Machine.core s 256).ctx ∧ (Machine.core u 256).undo = [] ∧ u.guard.cpMism = 0 ∧ u.mem = s.mem)) ∧
  (∀ s : State, Completes (.cpCheckpoint false) s (fun u =>
    (Machine.core u 256).ctx = ckptCtx s 256 ∧ (Machine.core u 256).undo = [] ∧ (Machine.core u 256).side = [] ∧
    u.guard.cpMism = (Machine.core s 256).mism + 1 ∧ faultIs u 2 1 2 ∧
    ((Machine.core s 256).undo = [] → u.mem = s.mem) ∧
    ∀ a w, (Machine.core s 256).undo = [(a, 4, w)] → readN u a 4 = w.toNat ∧
      ∀ b, b < a ∨ a + 4 ≤ b → readB u b = readB s b)))

/-- R33–R35, R153, R154, R367–R369: a castling begins at a tick, with the cluster's state written into its image; accesses
to its window, and its cores' own, are held until the handover ends; then the map switches, or the castling is aborted. -/
def Obligations.ClusterCastling : Prop :=
  (∀ (s : State) (n : ClusterId), (atTick s = false ∨ s.guard.run ≠ none ∨ nextCast s = none ∨ castDest s n.val = none ∨
      (∃ r, nextCast s = some r ∧ (r.unit ≠ 0 ∨ r.cluster ≠ n.val))) → exec (.clusterCastling n) s = .next s) ∧
  (∀ (s : State) (n : ClusterId) (r : CastReq) (d : Nat), Memory.wf s.mem → atTick s = true → s.guard.run = none →
    nextCast s = some r → r.unit = 0 → r.cluster = n.val → castDest s n.val = some d →
    Completes (.clusterCastling n) s (fun u =>
      getF u fCastBusy = 1 ∧ getF u fCastSeq = (getF s fCastSeq + 1) % 2 ^ 32 ∧ r ∉ u.guard.reqs ∧
      u.guard.run.map (fun w => (w.req, w.old, w.new, w.seq, w.turn)) =
        some (r, getF s (fMap n.val), d, getF u fCastSeq, now s) ∧
      readBytes u (imageAt (getF u fCastSeq)) 4 = [0x43, 0x49, 0x4D, 0x31] ∧
      (∀ a, a < 0x100000 → readB u (imageAt (getF u fCastSeq) + 0x10000 + a) = readB s (0x20000000 + n.val * 0x01000000 + a)) ∧
      (∀ a, a < imageAt (getF u fCastSeq) ∨ imageAt (getF u fCastSeq) + 0x200000 ≤ a → readB u a = readB s a))) ∧
  (∀ (s : State) (c : CoreId) (n : ClusterId) (v : Word) (m : Nat) (th : ThreadNo) (w : Fin 32) (l : LockId) (hi ok : Bool)
      (k : Fin 64) (e : Fin 32), castHolds c n.val s = some m →
    (∀ q ∈ ([(.slotApplyRequest c n v, 0x1C, withBits v 0 0 1), (.greedyOn c n v, 0x1C, withBits v 8 8 1),
        (.greedyOff c n v, 0x1C, withBits v 8 8 0), (.threadStart c n th, thrCtrlK n.val th.val - winK n.val 0, 1),
        (.threadStop c n th, thrCtrlK n.val th.val - winK n.val 0, 2), (.threadResume c n th, thrCtrlK n.val th.val - winK n.val 0, 3),
        (.thrCtxWrite c n th w v, 0x1000 + 0x80 * th.val + 4 * w.val, v), (.lockRelease c n l, 0x400 + 4 * l.val, 0),
        (.lockForce c n v, 0x500, v), (.clFrameDone c n v ok, 0x100, v), (.clOutboxWrite c n v, 0x140, v),
        (.clCkptWrite c n v ok, 0x154, v), (.clDoublesWrite c n v, 0x150, v), (.eventTrigger c n v, 0x5104, v),
        (.icSet c n hi v, icK n.val (if hi then 0x18C else 0x188) - winK n.val 0, v),
        (.icSrcWrite c n k v, icK n.val (4 * k.val) - winK n.val 0, v),
        (.evrCfgWrite c n e v, evrCfgK n.val e.val - winK n.val 0, v),
        (.evrLock c n e v, evrOwnK n.val e.val - winK n.val 0, v)] : List (Instr × Nat × Word)),
      exec q.1 s = .next (castHold m c false { addr := BitVec.ofNat 32 (winK n.val q.2.1), size := 4, data := q.2.2 } s)) ∧
    exec (.lockAcquire c n l) s =
      .next (castHold m c true { addr := BitVec.ofNat 32 (winK n.val (0x400 + 4 * l.val)), size := 4, data := 0 } s)) ∧
  (∀ (s : State) (c : CoreId) (p : PadId) (v : Word) (m : Nat), castHolds c (p.val / 64) s = some m →
    (∀ q ∈ ([(.padIoWrite c p v, 4), (.saTxdataWrite c p v, 0x18), (.saCtrlWrite c p v, 8), (.saStatWrite c p v, 0x14)] :
        List (Instr × Nat)),
      exec q.1 s = .next (castHold m c false { addr := BitVec.ofNat 32 (padK p.val q.2), size := 4, data := v } s)) ∧
    exec (.saRxdataRead c p) s =
      .next (castHold m c true { addr := BitVec.ofNat 32 (padK p.val 0x28), size := 4, data := 0 } s)) ∧
  (∀ (s : State) (c : CoreId) (v : Word) (j : Fin 8) (m : Nat), castHolds c (coreCl c) s = some m →
    (∀ q ∈ ([(.rxfPush c v, winK (coreCl c) 0x700, v), (.rxfEnd c v, winK (coreCl c) 0x704, v),
        (.rxfEvent c v, winK (coreCl c) 0x708, v), (.rxfFree c v, winK (coreCl c) 0x744, v),
        (.txfStage c v, winK (coreCl c) 0x740, v), (.txfNote c v, winK (coreCl c) 0x710, v),
        (.thrAlarmArm c v, winK (coreCl c) 0x618, v), (.coreTimerArm c v, 0xF0000024, v), (.icEoi c, 0xF0000008, 0),
        (.icRaise c v, 0xF000000C, v), (.coreVbaseWrite c v, 0xF0000800, v)] : List (Instr × Nat × Word)),
      exec q.1 s = .next (castHold m c false { addr := BitVec.ofNat 32 q.2.1, size := 4, data := q.2.2 } s)) ∧
    exec (.txfPop c j) s = .next (castHold m c true
      { addr := BitVec.ofNat 32 (winK (coreCl c) (0x720 + 4 * j.val)), size := 4, data := 0 } s)) ∧
  (∀ (s : State) (c : CoreId) (a v : Word) (m : Nat), castHolds c (winOf a.toNat) s = some m →
    exec (.registerWrite (.core c) (.addr a) v) s = .next (castHold m c false { addr := BitVec.ofNat 32 a.toNat, size := 4, data := v } s)) ∧
  (∀ (s : State) (b : Bool), (s.guard.run = none ∨ (∃ r, s.guard.run = some r ∧ r.turn + 4800 < now s)) →
    exec (.handoverEnd b) s = .next s) ∧
  (∀ (s : State) (r : CastRun) (b : Bool), s.guard.run = some r → now s ≤ r.turn + 4800 → r.req.cluster < 16 → r.old < 32 →
    r.new < 32 → (clus s r.req.cluster).held = [] → (clus s r.req.cluster).frameHold = [] →
    Completes (.handoverEnd b) s (fun u => getF u fCastBusy = 0 ∧ u.guard.run = none ∧
      (b = true → imageOkNow s r = true →
        getF u (fMap r.req.cluster) = r.new ∧ getF u fResPhys = r.old ∧ getF u fLastC = (now s - r.turn) % 8192 ∧
        getF u (fOnReserve r.req.cluster) = (if r.new = r.req.cluster then 0 else 1) ∧
        getF u fOffhome = (if r.new = r.req.cluster then 31 else r.req.cluster) ∧
        ∀ t, t < 12 → (Machine.core u (16 * r.req.cluster + t)).frozen = false) ∧
      (b = false ∨ imageOkNow s r = false →
        getF u (fMap r.req.cluster) = getF s (fMap r.req.cluster) ∧ getF u fCastAbort = 1 ∧
        (r.req.reason = 2 → r.req ∈ u.guard.reqs)))) ∧
  (∀ (s : State) (r : CastRun) (b : Bool) (n : ClusterId) (l : LockId), s.guard.run = some r → now s ≤ r.turn + 4800 →
    r.req.cluster = n.val → (clus s n.val).frameHold = [] →
    (clus s n.val).held = [{ core := 256, read := true,
                             acc := { addr := BitVec.ofNat 32 (winK n.val (0x400 + 4 * l.val)), size := 4, data := 0 } }] →
    lockValue s (lockK n.val l.val) = 0 →
    Completes (.handoverEnd b) s (fun u => u.guard.run = none ∧ (clus u n.val).held = [] ∧
      lockValue u (lockK n.val l.val) ≠ 0))

/-- R352, R353, R364, R365, R371: a scrub pass, the age limits, and the rotating test. -/
def Obligations.ScrubAndRotation : Prop :=
  (∀ (s : State) (cs us : List Word), Completes (.scrubPassComplete cs us) s (fun u =>
    getF u fScrubPasses = min 65535 (getF s fScrubPasses + 1) ∧
    getF u fScrubCorr = min 0xFFFFFFFF (getF s fScrubCorr + cs.length) ∧
    u.guard.passCorr = cs ∧ u.guard.scrubAt = some (now s) ∧
    ((∀ a ∈ cs, a ∉ s.guard.passCorr) → getF u fScrubHard = getF s fScrubHard ∧
      u.guard.faults.length = s.guard.faults.length + us.length))) ∧
  (∀ (s : State) (a : Word), a ∈ s.guard.passCorr → Completes (.scrubPassComplete [a] []) s (fun u =>
    getF u fScrubHard = min 0xFFFFFFFF (getF s fScrubHard + 1) ∧
    (a.toNat / 0x1000000 = 0x10 ∨ a.toNat / 0x1000000 = 0x11 →
      (s.guard.spareCommons < 256 → u.guard.spareCommons = s.guard.spareCommons + 1 ∧ u.guard.faults = s.guard.faults) ∧
      (256 ≤ s.guard.spareCommons → faultIs u 8 4 4)) ∧
    (∀ k, 0x20 ≤ a.toNat / 0x1000000 → a.toNat / 0x1000000 < 0x30 →
      k = Tab.getD s.guard.spareCluster (physOf s (a.toNat / 0x1000000 - 0x20)) 0 →
      (k < 32 → Tab.getD u.guard.spareCluster (physOf s (a.toNat / 0x1000000 - 0x20)) 0 = k + 1) ∧
      (32 ≤ k → faultIs u 8 4 4)))) ∧
  (∀ s : State,
    (dueNow s (s.guard.scrubAt.elim 0 (fun t => t) + secTurns 14400) = false → exec .scrubAgeLimit s = .next s) ∧
    (dueNow s (s.guard.scrubAt.elim 0 (fun t => t) + secTurns 14400) = true → Completes .scrubAgeLimit s (fun u =>
      240 ≤ scrubAge u ∧ (guardStat u).getLsbD 6 = false)) ∧
    (s.guard.outAt = none → exec .repairOverdue s = .next s) ∧
    (∀ t, s.guard.outAt = some t →
      (dueNow s (t + secTurns 259201) = false → exec .repairOverdue s = .next s) ∧
      (dueNow s (t + secTurns 259201) = true →
        Completes .repairOverdue s (fun u => 259200 < repairClock u ∧ (guardStat u).getLsbD 8 = true)))) ∧
  (∀ (s : State) (ok : BitVec 3),
    (isSet s fRotEn = false ∨ s.guard.rotStep ≠ 0 ∨ s.guard.run ≠ none ∨ dueNow s (visitDue s) = false →
      exec (.rotationVisit ok) s = .next s) ∧
    (isSet s fRotEn = true → s.guard.rotStep = 0 → s.guard.run = none → dueNow s (visitDue s) = true →
      Completes (.rotationVisit ok) s (fun u =>
        u.guard.rotAt = now u ∧
        (getF s fResState = 2 → u.guard.retest = some (getF s fResPhys)) ∧
        (getF s fResState ≠ 2 → (getF s fResState ≠ 0 ∨ getF s fResPhys ≠ 16 ∨ getF s fOffhome ≠ 31) →
          u.regs = s.regs ∧ u.guard.reqs = s.guard.reqs ∧ u.guard.rotStep = 0) ∧
        (getF s fResState = 0 → getF s fResPhys = 16 → getF s fOffhome = 31 →
          (getF s (fPwr (getF s fRotNext)) = 2 → getF u fRotNext = (getF s fRotNext + 1) % 16) ∧
          (getF s (fPwr (getF s fRotNext)) ≠ 2 → u.guard.rotStep = 1 ∧
            ({ unit := 0, reason := 0, cluster := getF s fRotNext, pos := 0 } : CastReq) ∈ u.guard.reqs) ∧
          ∀ c, c < 3 → isSet s (fCpOut c) = true → ok.getLsbD c = true → isSet u (fCpOut c) = false)))) ∧
  (∀ (s : State) (p : Bool) (ok : BitVec 5),
    (getF s fResState ≠ 1 → (getF s fResState ≠ 2 ∨ s.guard.retest = none) → exec (.clusterBistDone p ok) s = .next s) ∧
    (getF s fResState = 1 ∨ (getF s fResState = 2 ∧ s.guard.retest ≠ none) → Completes (.clusterBistDone p ok) s (fun u =>
      u.guard.retest = none ∧
      (∀ c, c < 5 → isSet u (fLmOut (getF s fResPhys) c) = !ok.getLsbD c) ∧
      (p = true → 4 ≤ ((List.range 5).filter (fun c => ok.getLsbD c)).length →
        getF u fResState = 0 ∧ u.guard.outAt = none ∧
        (s.guard.rotStep = 2 → u.guard.rotStep = 3 ∧
          ({ unit := 0, reason := 1, cluster := s.guard.rotCl, pos := 0 } : CastReq) ∈ u.guard.reqs) ∧
        (s.guard.rotStep = 4 → u.guard.rotStep = 0 ∧ getF u fRotNext = (s.guard.rotCl + 1) % 16)) ∧
      (p = false ∨ ((List.range 5).filter (fun c => ok.getLsbD c)).length < 4 →
        getF u fResState = 2 ∧ faultIs u 9 4 3 ∧
        u.guard.outAt = (if getF s fResState = 2 then s.guard.outAt else some (now s))))))

/-- R399–R406, R417: a cluster goes dark and wakes again with its configuration restored; the slack governor decides every
64 frames. In any other state of the cluster these events change nothing. -/
def Obligations.ClusterPower : Prop :=
  (∀ (s : State) (n : ClusterId), getF s (fPwr n.val) = 1 → (pwrCl s n.val).darkReq = true → atTick s = true →
    darkBlocked s n.val = false → Completes (.clusterDarkEntry n) s (fun u =>
      (pwrCl u n.val).darkReq = false ∧ (pwrCl u n.val).darkTick = some (now s) ∧ getF u (fPwr n.val) = 1 ∧
      (∀ i, i < 16 → tActive s (16 * n.val + i) = true → getF u (fTState (16 * n.val + i)) = 3) ∧
      (∀ i, i < 64 → 1 ∈ (pad u (64 * n.val + i)).safe ∧ getF u (fMode (64 * n.val + i)) = 0) ∧
      ∀ l o, o / 256 = n.val → o % 256 ≠ 0x20 → ownsLock u (chipK l) o = false)) ∧
  (∀ (s : State) (n : ClusterId), getF s (fPwr n.val) ≠ 1 ∨ (pwrCl s n.val).darkReq = false ∨ atTick s = false ∨
    darkBlocked s n.val = true → exec (.clusterDarkEntry n) s = .next s) ∧
  (∀ (s : State) (n : ClusterId) (t : Nat), (pwrCl s n.val).darkTick = some t → getF s (fPwr n.val) = 1 →
    now s ≤ t + usTurns 10 → Completes (.clusterDarkDone n) s (fun u =>
      ((pwrCl s n.val).latched = none → getF u (fPwr n.val) = 2 ∧ getF u (fRail n.val) = 0) ∧
      (∀ k, (pwrCl s n.val).latched = some k → getF u (fPwr n.val) = 3 ∧ (pwrCl u n.val).wake = some k) ∧
      isSet u (fXcQuiesced n.val) = true ∧
      (∀ k ∈ savedKeys n.val, (k, reg s k) ∈ (pwrCl u n.val).saved) ∧
      (∀ a, a < 0x100000 → readB u (0x20000000 + n.val * 0x01000000 + a) = 0) ∧
      (∀ i, i / 16 = n.val → Machine.core u i = initCore i))) ∧
  (∀ (s : State) (n : ClusterId), (pwrCl s n.val).darkTick = none ∨ getF s (fPwr n.val) ≠ 1 →
    exec (.clusterDarkDone n) s = .next s) ∧
  (∀ (s : State) (n : ClusterId), (getF s (fPwr n.val) = 2 → Completes (.wakeRequest n) s (fun u =>
      getF u (fPwr n.val) = 3 ∧ (pwrCl u n.val).reset = false ∧ (pwrCl u n.val).latched = none ∧
      (pwrCl u n.val).wake = some (match (pwrCl s n.val).latched with | some k => k | none => 1) ∧
      (pwrCl u n.val).saved = (pwrCl s n.val).saved)) ∧
    (getF s (fPwr n.val) ≠ 2 → exec (.wakeRequest n) s = .next s)) ∧
  (∀ (s : State) (n : ClusterId) (k : Nat), getF s (fPwr n.val) = 3 → (pwrCl s n.val).reset = false →
    (pwrCl s n.val).wake = some k → Completes (.clusterResetRelease n) s (fun u =>
      (pwrCl u n.val).reset = true ∧ (pwrCl u n.val).hist = [] ∧ getF u (fRail n.val) = 90 ∧
      isSet u (fRstInfoWoke n.val) = true ∧ getF u (fRstInfoSrc n.val) = k % 16 ∧
      ∀ a, a < 0x100000 → readB u (0x20000000 + n.val * 0x01000000 + a) = 0)) ∧
  (∀ (s : State) (n : ClusterId), getF s (fPwr n.val) ≠ 3 ∨ (pwrCl s n.val).reset = true →
    exec (.clusterResetRelease n) s = .next s) ∧
  (∀ (s : State) (n : ClusterId), getF s (fPwr n.val) = 3 → (pwrCl s n.val).reset = true → atTick s = true →
    Completes (.clusterWakeTick n) s (fun u =>
      getF u (fPwr n.val) = 0 ∧ (pwrCl u n.val).wake = none ∧ (pwrCl u n.val).reset = false ∧ (pwrCl u n.val).saved = [] ∧
      (∀ i, i < 64 → ∀ w, w ∈ (pad u (64 * n.val + i)).safe ↔ w ≠ 1 ∧ w ∈ (pad s (64 * n.val + i)).safe) ∧
      (∀ (f : Nat → Word) (r : List (Nat × Word)), (pwrCl s n.val).saved = (savedKeys n.val).map (fun k => (k, f k)) ++ r →
        ∀ k ∈ savedKeys n.val, reg u k = f k) ∧
      ∀ i, i < 16 → getF s (fTState (16 * n.val + i)) = 3 → (ten s (16 * n.val + i)).configured = true →
        vfOn s (16 * n.val + i) = true →
        getF u (fTState (16 * n.val + i)) = 1 ∧ getF u (fGen (16 * n.val + i)) = (getF s (fGen (16 * n.val + i)) + 1) % 65536)) ∧
  (∀ (s : State) (n : ClusterId), getF s (fPwr n.val) ≠ 3 ∨ (pwrCl s n.val).reset = false ∨ atTick s = false →
    exec (.clusterWakeTick n) s = .next s) ∧
  (∀ (s : State) (n : ClusterId) (m : Nat), isSet s fGovEn = true → getF s (fPwr n.val) = 0 → atTick s = true →
    frameNo s % 64 = 0 → m = ((pwrCl s n.val).hist.take 64).foldl (fun m x => min m x.1) 100 →
    Completes (.governorDecision n) s (fun u => getF u (fGovLast n.val) = m ∧
      (((pwrCl s n.val).hist.take 128).any (fun x => x.2) = true → getF u (fRail n.val) = getF s (fRail n.val)) ∧
      (((pwrCl s n.val).hist.take 128).any (fun x => x.2) = false →
        (m < getF s fGovTarget → getF s (fRail n.val) < 90 → getF u (fRail n.val) = getF s (fRail n.val) + 1 ∧
          getF u (fGovRaises n.val) = min 4095 (getF s (fGovRaises n.val) + 1)) ∧
        (m < getF s fGovTarget → 90 ≤ getF s (fRail n.val) → getF u (fRail n.val) = getF s (fRail n.val)) ∧
        (getF s fGovTarget + getF s fGovBand ≤ m → 5 ≤ m → 55 < getF s (fRail n.val) →
          getF u (fRail n.val) = getF s (fRail n.val) - 1 ∧
          getF u (fGovLowers n.val) = min 4095 (getF s (fGovLowers n.val) + 1)) ∧
        (getF s fGovTarget ≤ m → m < getF s fGovTarget + getF s fGovBand ∨ m < 5 ∨ getF s (fRail n.val) ≤ 55 →
          getF u (fRail n.val) = getF s (fRail n.val))))) ∧
  (∀ (s : State) (n : ClusterId), isSet s fGovEn = false ∨ getF s (fPwr n.val) ≠ 0 ∨ atTick s = false ∨
    frameNo s % 64 ≠ 0 → exec (.governorDecision n) s = .next s)

/-- R396, R397, R407–R411, R62: the ends of entry into STANDBY and DEEP, the wake events of the sentry, its alarm and the
SMBus, and the exits. -/
def Obligations.StandbyAndDeep : Prop :=
  (∀ s : State, getF s fChip = 1 → allDark s = true → (∀ e, s.power.e0 = some e → now s ≤ e + msTurns 20) →
    Completes .lowPowerEntryEnd s (fun u =>
      getF u fChip = 2 ∧ u.mem = s.mem ∧ u.power.exiting = (if s.power.wakes = [] then s.power.exiting else true) ∧
      ∀ e es, s.power.wakes = e :: es → getF u fWakeSource = e.source % 16 ∧ getF u fWakeIndex = e.index % 256 ∧
        getF u fWakeReplay = 1 ∧ getF u fWakeMore = (if es = [] then 0 else 1))) ∧
  (∀ s : State, getF s fChip = 3 → allDark s = true → s.power.shutAt.isSome = true →
    (∀ e, s.power.e0 = some e → now s ≤ e + msTurns 1100) → Completes .lowPowerEntryEnd s (fun u =>
      u.power.deep = true ∧ u.cal.val = s.cal.val ∧ u.cores = [] ∧ u.tenants = [] ∧
      (∀ a, a < 0x01000000 → readB u a = readB s a) ∧ (∀ a, 0x01000000 ≤ a → readB u a = 0) ∧
      ∀ e es, s.power.wakes = e :: es → u.power.exiting = true ∧ getF u fWakeSource = e.source % 16 ∧
        getF u fWakeReplay = 1)) ∧
  (∀ s : State, getF s fChip ≠ 1 → getF s fChip ≠ 3 → exec .lowPowerEntryEnd s = .next s) ∧
  (∀ (s : State) (i : Fin 4) (t : Nat), s.power.shutdown.contains i.val = true → s.power.shutAt = some t →
    dueNow s (t + secTurns 1) = true → Completes (.nvmeShutdownTimeout i) s (fun u =>
      i.val ∉ u.power.shutdown ∧ ∀ k, k ≠ i.val → (k ∈ u.power.shutdown ↔ k ∈ s.power.shutdown))) ∧
  (∀ (s : State) (i : Fin 4), s.power.shutdown.contains i.val = false → exec (.nvmeShutdownTimeout i) s = .next s) ∧
  (∀ s : State, s.power.deep = true → s.power.exiting = true → Completes .lowPowerExit s (fun u =>
    getF u fRstCause = 5 ∧ u.power.deep = false ∧ getF u fChip = 0 ∧ u.cal.val = s.cal.val)) ∧
  (∀ s : State, s.power.deep = false → getF s fChip = 2 → s.power.exiting = true → Completes .lowPowerExit s (fun u =>
    getF u fChip = 0 ∧ u.power.exiting = false ∧ u.mem = s.mem ∧ u.cores = s.cores)) ∧
  (∀ (s : State) (src ix : Nat), s.power.deep = false → getF s fChip = 2 → s.power.exiting = false →
    standbyWake s = some (src, ix) → Completes .lowPowerExit s (fun u =>
      getF u fChip = 0 ∧ getF u fWakeSource = src % 16 ∧ getF u fWakeIndex = ix % 256 ∧ getF u fWakeReplay = 0 ∧
      u.mem = s.mem ∧ u.cores = s.cores)) ∧
  (∀ s : State, s.power.exiting = false → s.power.deep = true ∨ getF s fChip ≠ 2 ∨ standbyWake s = none →
    exec .lowPowerExit s = .next s) ∧
  (∀ s : State, isSet s fWakeSmbus = true →
    (s.power.exiting = false → getF s fChip = 2 ∨ (s.power.deep = true ∧ getF s fChip = 0) →
      Completes .smbusAddressMatch s (fun u =>
        u.power.exiting = true ∧ getF u fWakeSource = 1 ∧ getF u fWakeReplay = 0 ∧ getF u fWakeMore = 0)) ∧
    (s.power.exiting = false → getF s fChip = 1 ∨ getF s fChip = 3 → Completes .smbusAddressMatch s (fun u =>
      u.power.exiting = false ∧ u.power.wakes = s.power.wakes ++ [{ source := 1, index := 0, cal := s.cal.val }])) ∧
    (s.power.exiting = true → Completes .smbusAddressMatch s (fun u =>
      getF u fWakeMore = 1 ∧ getF u fWakeSource = getF s fWakeSource))) ∧
  (∀ s : State, isSet s fWakeSmbus = false → exec .smbusAddressMatch s = .next s) ∧
  (∀ (s : State) (k : Fin 16) (l : Bool), sentryTakes s k.val l = true → Completes (.sentryFire k l) s (fun u =>
    isSet u (fSentryHit k.val) = true ∧
    (getF s fChip = 2 → s.power.exiting = false → s.power.deep = false →
      u.power.exiting = true ∧ getF u fWakeSource = 2 ∧ getF u fWakeIndex = k.val) ∧
    (∀ n, chipRun s = true → isSet s (bit (senK k.val) 29) = true → n = getF s (fld (senK k.val) 9 0) / 64 →
      (getF s (fPwr n) = 2 → getF u (fPwr n) = 3 ∧ (pwrCl u n).wake = some 4) ∧
      (getF s (fPwr n) = 1 → (pwrCl s n).latched = none → (pwrCl u n).latched = some 4)) ∧
    (chipRun s = true → isSet s (bit (senK k.val) 30) = true → isSet s (fSrcEn 16 8) = true →
      isSet u (fPend 16 8) = true))) ∧
  (∀ (s : State) (k : Fin 16) (l : Bool), sentryTakes s k.val l = false → exec (.sentryFire k l) s = .next s) ∧
  (∀ s : State, isSet s fOscFail = false → isSet s fAlarmEn = true → calAlarmVal s ≤ (calNext s).val →
    Completes .alarmFire s (fun u =>
      getF u fAlarmEn = 0 ∧ getF u fAlarmFired = 1 ∧ u.cal.val = (calNext s).val ∧
      (isSet s (bit 0x47000840 0) = true → isSet u (fSentryHit 16) = true ∧
        (getF s fChip = 2 → s.power.exiting = false → s.power.deep = false →
          u.power.exiting = true ∧ getF u fWakeSource = 3)))) ∧
  (∀ s : State, isSet s fOscFail = true ∨ isSet s fAlarmEn = false ∨ (calNext s).val < calAlarmVal s →
    exec .alarmFire s = .next s)

/-- R63, R412–R414, R418, R449: what each reset leaves, the release of the reset, and a dip of a supply. R412, R417, R426,
R433, R434: boot takes the selected slot, else the other, else recovery; the endpoint is reset; a crossing
resynchronises; drives leave, return and train. The retraining of a link that is up is the model's reading (log entry
102). -/
def Obligations.ResetsAndBoot : Prop :=
  ((∀ (s : State) (b : Bool), Completes (.powerOnReset b) s (fun u =>
    getF u fRstCause = 1 ∧ u.cores = [] ∧ u.tenants = [] ∧ u.ports = [] ∧ u.time = State.reset.time ∧
    u.cal.val = s.cal.val ∧ u.pending = s.pending ∧ u.power = State.reset.power ∧
    u.journal.committed = s.journal.committed ∧ u.journal.anchors = s.journal.anchors ∧ u.host.svn = s.host.svn ∧
    (∀ a, a < 0x01000000 → readB u a = readB s a) ∧ (∀ a, 0x01000000 ≤ a → readB u a = 0) ∧
    (∀ k, 0x45000040 ≤ k → k < 0x45000078 → reg u k = reg s k) ∧
    ∀ k, k ≠ 0x47000020 → k < 0x45000040 ∨ 0x45000078 ≤ k → reg u k = regReset k)) ∧
  (∀ s : State, Completes .resetPin s (fun u =>
    getF u fRstCause = 2 ∧ u.cores = [] ∧ u.tenants = [] ∧ u.ports = [] ∧ u.time = State.reset.time ∧
    u.cal.val = s.cal.val ∧ u.journal.committed = s.journal.committed ∧ u.journal.anchors = s.journal.anchors ∧
    u.host.svn = s.host.svn ∧ (∀ a, a < 0x01000000 → readB u a = readB s a) ∧ (∀ a, 0x01000000 ≤ a → readB u a = 0) ∧
    (∀ k, keptReg k = true → reg u k = reg s k) ∧ ∀ k, k ≠ 0x47000020 → keptReg k = false → reg u k = regReset k)) ∧
  (∀ (s : State) (v : Word), (v.getLsbD 0 = true → bitsOf v 15 8 = 0x5A →
      Completes (.softReset .cp v) s (fun u => getF u fRstCause = 3 ∧ u.cores = [] ∧ u.tenants = [] ∧
        u.time = State.reset.time ∧ (∀ k, keptReg k = true → reg u k = reg s k) ∧
        ∀ k, k ≠ 0x47000020 → keptReg k = false → reg u k = regReset k)) ∧
    (v.getLsbD 0 = false ∨ bitsOf v 15 8 ≠ 0x5A → exec (.softReset .cp v) s = .next s)) ∧
  (∀ (s : State) (c : CoreId) (v : Word), isCp c = false → exec (.softReset c v) s = .next (busErr c 0x47000024 s)) ∧
  (∀ (s : State) (b h : Bool), (s.power.released = false → s.power.deep = false → Completes (.resetRelease b h) s (fun u =>
      u.power.released = true ∧ getF u fBootsel = b.toNat ∧ getF u fHeadStrap = h.toNat ∧
      ∀ i, i < 4 → (rootPort u i).perst = true ∧ (rootPort u i).up = false ∧ (rootPort u i).since = now s ∧
        (rootPort u i).present = (rootPort s i).present)) ∧
    (s.power.released = true ∨ s.power.deep = true → exec (.resetRelease b h) s = .next s)) ∧
  (∀ (s : State) (i : Fin 4), (s.power.released = true → Completes (.supplyDip i) s (fun u =>
      getF u (bit 0x4A000018 i.val) = 0 ∧ getF u (bit 0x4A000018 (8 + i.val)) = 1)) ∧
    (s.power.released = false → exec (.supplyDip i) s = .next s))) ∧
  ((∀ s : State, s.power.released = true → s.host.cpRun = false → isSet s fRecovery = false → Completes .boot s (fun u =>
    getF u fKeyfail = (if otpKeyOk then 0 else 1) ∧
    (isSet s fBootsel = true → getF u fRecovery = 1 ∧ u.host.cpRun = false) ∧
    (isSet s fBootsel = false → ∀ k, k = (match bootRec s with | some r => r.2.2 % 2 | none => 0) →
      (fwReason (mapSlot k s) activeWin = none →
        u.host.cpRun = true ∧ u.host.slot = k ∧ getF u fSlotStat = k ∧ getF u fFallback = 0 ∧
        (Machine.core u 256).ctx.pc = u.host.cpEntry ∧
        u.host.cpEntry = BitVec.ofNat 32 (activeWin + readN (mapSlot k s) (activeWin + 16) 4)) ∧
      (fwReason (mapSlot k s) activeWin ≠ none → fwReason (mapSlot (1 - k) (mapSlot k s)) activeWin = none →
        u.host.cpRun = true ∧ u.host.slot = 1 - k ∧ getF u fSlotStat = 1 - k ∧ getF u fFallback = 1) ∧
      (fwReason (mapSlot k s) activeWin ≠ none → fwReason (mapSlot (1 - k) (mapSlot k s)) activeWin ≠ none →
        u.host.cpRun = false ∧ getF u fRecovery = 1)))) ∧
  (∀ s : State, s.power.released = false ∨ s.host.cpRun = true ∨ isSet s fRecovery = true → exec .boot s = .next s) ∧
  (∀ s : State, Completes .endpointReset s (fun u =>
    isSet u (fXcQuiesced 16) = true ∧
    (isMember s = false → u.host.vfEnable = false ∧ u.host.numVfs = 0 ∧ ∀ t, t < 256 → getF u (fTState t) = 0) ∧
    ∀ g x, xfer s g = some x → hostXfer x = true → x.status = none → 1 ≤ x.stage →
      (xfer u g).map (fun y => y.status) = some (some 2))) ∧
  (∀ (s : State) (x : Fin 24), (isSet s (fXcQuiesced x.val) = true → xcReady s x.val = true →
      Completes (.crossingResync x) s (fun u =>
        isSet u (fXcQuiesced x.val) = false ∧ getF u (fXcDrop x.val) = getF s (fXcDrop x.val) ∧
        u.guard.faults.length = s.guard.faults.length + 1 ∧
        u.guard.faults.head?.map (fun r => (imgB r 0, imgB r 1, leAt r 20 4)) =
          some (if x.val < 17 then 6 else if x.val < 21 then 0x0E else 0x0D, 4, getF s (fXcDrop x.val)))) ∧
    (isSet s (fXcQuiesced x.val) = false ∨ xcReady s x.val = false → exec (.crossingResync x) s = .next s)) ∧
  (∀ (s : State) (i : Fin 4),
    ((rootPort s i.val).present = true → Completes (.driveRemoved i) s (fun u =>
      rootPort u i.val = { present := false, perst := true, up := false, since := now s } ∧
      isSet u (fXcQuiesced (17 + i.val)) = true ∧
      ∀ e, e < 16 → isSet s (fNsValid e) = true → getF s (fNsPort e) = i.val → getF u (fNsState e) = 1)) ∧
    ((rootPort s i.val).present = false → exec (.driveRemoved i) s = .next s) ∧
    ((rootPort s i.val).present = false → Completes (.driveInserted i) s (fun u =>
      rootPort u i.val = { present := true, perst := true, up := false, since := now s })) ∧
    ((rootPort s i.val).present = true → exec (.driveInserted i) s = .next s) ∧
    ((rootPort s i.val).present = true → (rootPort s i.val).up = false →
      dueNow s ((rootPort s i.val).since + msTurns (if (rootPort s i.val).perst then 100 else 10)) = true →
      Completes (.rootPortRetrain i) s (fun u => (rootPort u i.val).up = true ∧ (rootPort u i.val).perst = false)) ∧
    ((rootPort s i.val).present = true → (rootPort s i.val).up = true → Completes (.rootPortRetrain i) s (fun u =>
      rootPort u i.val = rootPort s i.val ∧ isSet u (fXcQuiesced (17 + i.val)) = true ∧
      ∀ e, e < 16 → isSet s (fNsValid e) = true → getF s (fNsPort e) = i.val → getF u (fNsState e) = 1)) ∧
    ((rootPort s i.val).present = false → exec (.rootPortRetrain i) s = .next s)))

/-- R421, R423, R434: VF Enable set and cleared, a function-level reset of a virtual and of the physical function. R439,
R440: the instructions of the test access port; EXTEST, CLAMP and HIGHZ take the pads of a running chip. -/
def Obligations.EndpointAndTestPort : Prop :=
  ((∀ (s : State) (k : BitVec 16) (m : Nat), endpointOn s = true → isSet s fRecovery = false → s.host.vfEnable = false →
    m = (if k.toNat ≤ s.group.totalVfs then k.toNat else s.host.numVfs) → Completes (.vfEnableSet k) s (fun u =>
      u.host.vfEnable = true ∧ u.host.numVfs = m ∧
      (∀ t, t < 256 → getF s (fTState t) ≠ 0 → getF u (fTState t) = getF s (fTState t)) ∧
      ∀ t, t < 256 → getF s (fTState t) = 0 → getF u (fTState t) =
        if (ten s t).configured = true ∧ t < m ∧ awaitsGroup s = false then (if 2 ≤ getF s (fPwr (t / 16)) then 3 else 1) else 0)) ∧
  (∀ (s : State) (k : BitVec 16), s.host.vfEnable = true ∨ isSet s fRecovery = true ∨ endpointOn s = false →
    exec (.vfEnableSet k) s = .next s) ∧
  (∀ s : State, (isMember s = false → Completes .vfEnableClear s (fun u =>
      u.host.vfEnable = false ∧ u.host.numVfs = s.host.numVfs ∧ (∀ t, t < 256 → getF u (fTState t) = 0) ∧
      ∀ t, (ten u t).configured = (ten s t).configured)) ∧
    (isMember s = true → exec .vfEnableClear s = .next s)) ∧
  (∀ (s : State) (t : TenantId), (vfOn s t.val = true → getF s (fTState t.val) = 1 → Completes (.vfFlr t) s (fun u =>
      getF u (fTState t.val) = 2 ∧ getF u (fGen t.val) = (getF s (fGen t.val) + 1) % 65536 ∧
      (ten u t.val).resetAt = some (now s) ∧ (ten u t.val).outs = [] ∧ (ten u t.val).handed = [])) ∧
    (vfOn s t.val = false ∨ getF s (fTState t.val) ≠ 1 → exec (.vfFlr t) s = .next s)) ∧
  (∀ s : State, Completes .pfFlr s (fun u =>
    (isMember s = false → u.host.vfEnable = false ∧ u.host.numVfs = 0 ∧ ∀ t, t < 256 → getF u (fTState t) = 0) ∧
    (isMember s = true → u.host = s.host ∧ ∀ t, t < 256 → getF u (fTState t) = getF s (fTState t)) ∧
    getF u (fInTail 256) = 0 ∧ getF u (fInHead 256) = 0 ∧ getF u (fOutTail 256) = 0 ∧
    u.admin = s.admin.map (fun a => { a with drop := true })))) ∧
  ((∀ s : State, Completes .tapReset s (fun u => u.host.tap = 1 ∧ u.host.scan = false ∧ (∀ p, (pad u p).scan = none) ∧
      u.regs = s.regs)) ∧
  (∀ s : State, Completes .jtagBypass s (fun u => u.host.tap = 0xFF ∧ u.pads = s.pads ∧ u.regs = s.regs)) ∧
  (∀ s : State, Completes .idcode s (fun u => u.host.tap = 1 ∧ u.pads = s.pads ∧ u.regs = s.regs)) ∧
  (∀ s : State, Completes .samplePreload s (fun u => u.host.tap = 2 ∧ u.pads = s.pads ∧ u.regs = s.regs ∧
    (∀ p, p < 1024 → Tab.find u.host.preload p = some (pad s p).level) ∧
    ∀ c, c < 128 → Tab.find u.host.preload (1024 + c) = ldrv s c)) ∧
  (∀ (s : State) (i : Instr) (k : Nat), (i, k) ∈ [(Instr.extest, 0), (.clamp, 3), (.highz, 4)] →
    (s.power.released = false → Completes i s (fun u => u.host.tap = k ∧ u.pads = s.pads ∧ u.regs = s.regs)) ∧
    (s.power.released = true → Completes i s (fun u =>
      u.host.tap = k ∧ u.host.scan = true ∧ (∀ n, n < 16 → isSet u (fPgEnable n) = false) ∧
      (∀ c, c < 128 → isSet u (fLcEnable c) = false) ∧ u.guard.faults.length = s.guard.faults.length + 1 ∧
      (∀ p, p < 1024 → (pad u p).scan = if k = 4 then none else Tab.find s.host.preload p) ∧
      ∀ c, c < 128 → ldrv u c = if k = 4 then none else Tab.find s.host.preload (1024 + c)))))

/-- R427, R428, R432, R435, R436, R294: the commands of the management port: what each answers and what each does; a wrong
Packet Error Code, or a missing one where the port requires it, discards any of them. R19, R34, R288, R291, R299, R306,
R402, R409: a register write is performed, held for the end of a handover, or refused with the exception R19 names; the
host's write of a mailbox page acts, wakes a dark cluster's tenant, or is discarded. -/
def Obligations.ManagementAndRegisterWrites : Prop :=
  ((∀ (s : State) (m : MCmd), mgmtTakes s m = true →
    Completes (.getId m) s (fun u => u.host.mgmt =
      some (1, [0] ++ le 4 deviceId.toNat ++ le 8 Config.otpSerial.toNat ++ le 4 (reg s 0x4A000004).toNat)) ∧
    Completes (.getStatus m) s (fun u => u.host.mgmt = some (2, [0] ++ le 4 (reg s 0x47000000).toNat ++
      le 4 (guardStat s).toNat ++ le 4 (reg s 0x47000020).toNat ++ le 4 (reg s 0x47000030).toNat)) ∧
    (m.data = [0x5A] → Completes (.mgmtReset m) s (fun u => getF u fRstCause = 4 ∧ u.cores = [] ∧ u.host.mgmt = none)) ∧
    (m.data ≠ [0x5A] → Completes (.mgmtReset m) s (fun u => u.host.mgmt = some (3, [3]) ∧ getF u fRstCause = getF s fRstCause)) ∧
    (36 ≤ m.data.length → m.data.length ≤ 228 → codeRefuse (leAt m.data 0 4) (m.data.length - 4) s = none →
      Completes (.mgmtCodeWrite m) s (fun u => u.host.mgmt = some (0x10, [0]) ∧
        readBytes u (leAt m.data 0 4) (m.data.length - 4) = m.data.drop 4)) ∧
    (∀ r, 36 ≤ m.data.length → m.data.length ≤ 228 → codeRefuse (leAt m.data 0 4) (m.data.length - 4) s = some r →
      Completes (.mgmtCodeWrite m) s (fun u => u.mem = s.mem ∧ u.host.mgmt = some (0x10, codeStatus r))) ∧
    (m.data.length < 36 ∨ 228 < m.data.length →
      Completes (.mgmtCodeWrite m) s (fun u => u.mem = s.mem ∧ u.host.mgmt = some (0x10, [3]))) ∧
    (isSet s fCommitBusy = true → Completes (.mgmtCodeCommit m) s (fun u => u.host.mgmt = some (0x11, [1]) ∧ u.mem = s.mem)) ∧
    (isSet s fCommitBusy = false → isSet s fNextSet = true → Completes (.mgmtCodeCommit m) s (fun u =>
      u.host.mgmt = some (0x11, [0]) ∧ u.mem = s.mem ∧ u.host.nextSlot = s.host.nextSlot)) ∧
    (isSet s fCommitBusy = false → isSet s fNextSet = false → Completes (.mgmtCodeCommit m) s (fun u =>
      match fwReason s inactiveWin with
      | some r => u.host.mgmt = some (0x11, [5, BitVec.ofNat 8 r]) ∧ u.host.nextSlot = s.host.nextSlot ∧ u.mem = s.mem ∧
          getF u fLastReason = r % 256
      | none => u.host.mgmt = some (0x11, [0]) ∧ u.host.nextSlot = some (1 - s.host.slot) ∧ getF u fNextSet = 1 ∧
          readBytes u (match bootRec s with | some (i, _, _) => 0x800 * (1 - i) | none => 0) 32 =
            bootRecord (match bootRec s with | some (_, n, _) => n + 1 | none => 1) (1 - s.host.slot))) ∧
    (5 ≤ m.data.length → 1 ≤ leAt m.data 4 1 → leAt m.data 4 1 ≤ 240 → leAt m.data 0 4 + leAt m.data 4 1 ≤ 0x01000000 →
      Completes (.codeRead m) s (fun u =>
        u.host.mgmt = some (0x12, 0 :: readBytes s (leAt m.data 0 4) (leAt m.data 4 1)) ∧ u.mem = s.mem)) ∧
    (m.data.length < 5 ∨ leAt m.data 4 1 = 0 ∨ 240 < leAt m.data 4 1 ∨ 0x01000000 < leAt m.data 0 4 + leAt m.data 4 1 →
      Completes (.codeRead m) s (fun u => u.host.mgmt = some (0x12, [3]) ∧ u.mem = s.mem)) ∧
    (s.host.cpRun = true → m.data.length = 64 → inFull s 256 = false → Completes (.adminSubmit m) s (fun u =>
      u.host.mgmt = some (0x20, [0]) ∧ ringGet u 256 0x400 (getF s (fInTail 256)) = m.data ∧
      getF u (fInTail 256) = (getF s (fInTail 256) + 1) % 65536 ∧
      (s.admin.isSome = true ∨ (getF s (fInHead 256) = getF s (fInTail 256) ∧ admSelf s m.data = none) →
        u.host.mgmtSubs = s.host.mgmtSubs ++ [(getF s (fInTail 256), false)] ∧
        getF u (fInHead 256) = getF s (fInHead 256)) ∧
      (∀ st, s.admin = none → getF s (fInHead 256) = getF s (fInTail 256) → admSelf s m.data = some (st, []) →
        slotOp m.data ≠ 2 → s.host.mgmtSubs = [] →
        u.host.mgmtResp = (s.host.mgmtResp ++ [mkSlot (slotOp m.data) 1 (slotTag m.data) 0xFF 0 st 0 []]).take 16 ∧
        u.host.mgmtSubs = [] ∧ getF u (fInHead 256) = (getF s (fInHead 256) + 1) % 65536))) ∧
    (s.host.cpRun = true → m.data.length = 64 → inFull s 256 = true → Completes (.adminSubmit m) s (fun u =>
      u.host.mgmt = some (0x20, [1]) ∧ getF u (fInTail 256) = getF s (fInTail 256))) ∧
    (s.host.cpRun = true → m.data.length ≠ 64 → Completes (.adminSubmit m) s (fun u =>
      u.host.mgmt = some (0x20, [3]) ∧ getF u (fInTail 256) = getF s (fInTail 256))) ∧
    (s.host.cpRun = false → Completes (.adminSubmit m) s (fun u => u.host.mgmt = some (0x20, [6]))) ∧
    (∀ r rs, s.host.cpRun = true → s.host.mgmtResp = r :: rs → Completes (.adminFetch m) s (fun u =>
      u.host.mgmt = some (0x21, 0 :: r) ∧ u.host.mgmtResp = rs)) ∧
    (s.host.cpRun = false ∨ s.host.mgmtResp = [] → Completes (.adminFetch m) s (fun u =>
      u.host.mgmt = some (0x21, [6]) ∧ u.host.mgmtResp = s.host.mgmtResp)) ∧
    (isSet s (fSrcEn 16 10) = true → ∀ i ∈ [Instr.getId m, .getStatus m, .mgmtCodeWrite m, .mgmtCodeCommit m, .codeRead m,
      .adminFetch m], Completes i s (fun u => isSet u (fPend 16 10) = true))) ∧
  (∀ (s : State) (m : MCmd), mgmtTakes s m = false → ∀ i ∈ [Instr.getId m, .getStatus m, .mgmtReset m, .mgmtCodeWrite m,
    .mgmtCodeCommit m, .codeRead m, .adminSubmit m, .adminFetch m], exec i s = .next s) ∧
  (∀ (s : State) (m : MCmd), (m.pec = some false → mgmtTakes s m = false) ∧
    (m.pec = none → isSet s fPecReq = true → mgmtTakes s m = false) ∧
    (s.power.released = true → s.power.deep = false → m.pec = some true ∨ (m.pec = none ∧ isSet s fPecReq = false) →
      mgmtTakes s m = true)) ∧
  (∀ s : State, (s.power.released = true → s.power.deep = false → Completes .mgmtReplyRead s (fun u =>
      u.host = s.host ∧ (isSet s (fSrcEn 16 10) = true → isSet u (fPend 16 10) = true))) ∧
    (s.power.released = false ∨ s.power.deep = true → exec .mgmtReplyRead s = .next s))) ∧
  ((∀ (s : State) (c : CoreId) (a : Word) (v : Word), castHolds c (winOf a.toNat) s = none →
    (memAddr a.toNat = true → exec (.registerWrite (.core c) (.addr a) v) s = .next (raiseExc c 2 0 a s)) ∧
    (memAddr a.toNat = false → a.toNat % 4 ≠ 0 → exec (.registerWrite (.core c) (.addr a) v) s = .next (raiseExc c 3 0 a s)) ∧
    (memAddr a.toNat = false → a.toNat % 4 = 0 → ∀ k, storeCause s c a.toNat v = some k →
      exec (.registerWrite (.core c) (.addr a) v) s = .next (raiseExc c k 0 (if k = 2 then a else 0) s)) ∧
    (memAddr a.toNat = false → a.toNat % 4 = 0 → storeCause s c a.toNat v = none → isCkptAddr a.toNat = false →
      exec (.registerWrite (.core c) (.addr a) v) s = .next (regDo c a.toNat v s)) ∧
    (memAddr a.toNat = false → a.toNat % 4 = 0 → storeCause s c a.toNat v = none → isCkptAddr a.toNat = true →
      isThread c = false → exec (.registerWrite (.core c) (.addr a) v) s =
        .next (takeCkpt (runIx s c) (some (bitsOf v 3 0)) s))) ∧
  (∀ (s : State) (c : CoreId) (a : Word) (v : Word) (m : Nat), castHolds c (winOf a.toNat) s = some m →
    Completes (.registerWrite (.core c) (.addr a) v) s (fun u =>
      (clus u m).held = (clus s m).held ++ [{ core := coreIx c, read := false, acc := { addr := a, size := 4, data := v } }] ∧
      u.mem = s.mem ∧ u.regs = s.regs ∧ u.cores = s.cores ∧ u.pads = s.pads)) ∧
  (∀ (s : State) (v : Word), Completes (.registerWrite (.core .cp) (.addr 0x41002000) v) s (fun u =>
    (∀ i, i < 4 → getF u (fld 0x41002000 (4 * i + 3) (4 * i)) =
      if bitsOf v (4 * i + 3) (4 * i) = 0 then getF s (fld 0x41002000 (4 * i + 3) (4 * i)) else bitsOf v (4 * i + 3) (4 * i)) ∧
    (∀ k, k ≠ 0x41002000 → reg u k = reg s k) ∧ u.mem = s.mem ∧ u.cores = s.cores)) ∧
  (∀ (s : State) (p : PageId) (v : Word),
    (pageSt s p.val = .acts → Completes (.registerWrite .host (.page p 0x18) v) s (fun u =>
      reg u (pageK p.val 0x18) = v ∧ (∀ k, k ≠ pageK p.val 0x18 → reg u k = reg s k))) ∧
    (pageSt s p.val = .discard → ∀ o, exec (.registerWrite .host (.page p o) v) s = .next s) ∧
    (pageSt s p.val = .dormant → ∀ o, o ≠ 0x14 → exec (.registerWrite .host (.page p o) v) s = .next s) ∧
    (pageSt s p.val = .dormant → getF s (fPwr (p.val / 16)) = 2 →
      v &&& 0xFF000000 &&& ~~~ reg s (pageK p.val 0x18) ≠ 0 →
      Completes (.registerWrite .host (.page p 0x14) v) s (fun u =>
        getF u (fPwr (p.val / 16)) = 3 ∧ (pwrCl u (p.val / 16)).wake = some 2 ∧
        ((pwrCl s (p.val / 16)).wokeBell = none → (pwrCl u (p.val / 16)).wokeBell = some p.val ∧
          (getF s fChip = 2 → s.power.exiting = false → s.power.deep = false →
            u.power.exiting = true ∧ getF u fWakeSource = 4 ∧ getF u fWakeIndex = p.val))))) ∧
  (∀ (s : State) (p : PageId) (o : BitVec 16) (v : Word), p.val < 256 → o.toNat < 0xC00 → o.toNat % 4 = 0 →
    exec (.registerWrite (.core .cp) (.page p o) v) s =
      exec (.registerWrite (.core .cp) (.addr (BitVec.ofNat 32 (0x48100000 + 0x1000 * p.val + o.toNat))) v) s) ∧
  (∀ (s : State) (c : CoreId) (p : PageId) (o : BitVec 16) (v : Word), isCp c = false ∨ p.val = 256 ∨ 0xC00 ≤ o.toNat ∨ o.toNat % 4 ≠ 0 →
    exec (.registerWrite (.core c) (.page p o) v) s =
      .next (raiseExc c 2 0 (BitVec.ofNat 32 (0x48100000 + 0x1000 * p.val + o.toNat)) s)) ∧
  (∀ (s : State) (p : PageId) (o : BitVec 16) (v : Word), o.toNat % 4 ≠ 0 → exec (.registerWrite .host (.page p o) v) s = .next s))
end

