-- ==== Sys2Proof/Laws/Tab.lean ====
section
/-! SUPPORT. The laws of the sparse tables: read after write, and the canonical form that every operation keeps. -/

namespace Sys2Proof.Machine

variable {α : Type}

@[simp] theorem Tab.find_put_self (t : Tab α) (k : Nat) (v : α) : Tab.find (Tab.put t k v) k = some v := by
  induction t with
  | nil => simp [Tab.put, Tab.find]
  | cons p t ih =>
    obtain ⟨k', v'⟩ := p
    simp only [Tab.put]
    split
    · simp [Tab.find]
    · split
      · simp [Tab.find]
      · rename_i h; simp [Tab.find, Ne.symm h, ih]

theorem Tab.find_put_ne (t : Tab α) {k j : Nat} (v : α) (h : j ≠ k) : Tab.find (Tab.put t k v) j = Tab.find t j := by
  induction t with
  | nil => simp [Tab.put, Tab.find, Ne.symm h]
  | cons p t ih =>
    obtain ⟨k', v'⟩ := p
    simp only [Tab.put]
    split
    · simp [Tab.find, Ne.symm h]
    · split
      · rename_i e; subst e; simp [Tab.find, Ne.symm h]
      · simp [Tab.find, ih]

@[simp] theorem Tab.find_del_self (t : Tab α) (k : Nat) : Tab.find (Tab.del t k) k = none := by
  induction t with
  | nil => simp [Tab.del, Tab.find]
  | cons p t ih =>
    obtain ⟨k', v'⟩ := p
    simp only [Tab.del]
    split
    · exact ih
    · rename_i h; simp [Tab.find, Ne.symm h, ih]

theorem Tab.find_del_ne (t : Tab α) {k j : Nat} (h : j ≠ k) : Tab.find (Tab.del t k) j = Tab.find t j := by
  induction t with
  | nil => simp [Tab.del, Tab.find]
  | cons p t ih =>
    obtain ⟨k', v'⟩ := p
    simp only [Tab.del]
    split
    · rename_i e; subst e; simp [Tab.find, Ne.symm h, ih]
    · simp [Tab.find, ih]

@[simp] theorem Tab.getD_put_self (t : Tab α) (k : Nat) (v d : α) : Tab.getD (Tab.put t k v) k d = v := by
  simp [Tab.getD]

theorem Tab.getD_put_ne (t : Tab α) {k j : Nat} (v d : α) (h : j ≠ k) :
    Tab.getD (Tab.put t k v) j d = Tab.getD t j d := by
  simp [Tab.getD, Tab.find_put_ne t v h]

@[simp] theorem Tab.getD_nil (k : Nat) (d : α) : Tab.getD ([] : Tab α) k d = d := rfl

@[simp] theorem Tab.getD_store_self [DecidableEq α] (t : Tab α) (k : Nat) (d v : α) :
    Tab.getD (Tab.store t k d v) k d = v := by
  unfold Tab.store
  split
  · rename_i h; simp [Tab.getD, h]
  · simp

theorem Tab.getD_store_ne [DecidableEq α] (t : Tab α) {k j : Nat} (d e v : α) (h : j ≠ k) :
    Tab.getD (Tab.store t k d v) j e = Tab.getD t j e := by
  unfold Tab.store
  split
  · simp [Tab.getD, Tab.find_del_ne t h]
  · exact Tab.getD_put_ne t v e h

/-! ### Canonical form -/

theorem Tab.rising_mono {lo lo' : Nat} (h : lo' ≤ lo) : ∀ {t : Tab α}, Tab.rising lo t = true → Tab.rising lo' t = true
  | [], _ => rfl
  | (k, _) :: t, ht => by
    simp only [Tab.rising, Bool.and_eq_true, decide_eq_true_eq] at ht ⊢
    exact ⟨by omega, ht.2⟩

theorem Tab.rising_put : ∀ {lo : Nat} {t : Tab α} {k : Nat} (v : α), lo ≤ k → Tab.rising lo t = true →
    Tab.rising lo (Tab.put t k v) = true
  | lo, [], k, v, hk, _ => by simp [Tab.put, Tab.rising, hk]
  | lo, (k', v') :: t, k, v, hk, ht => by
    simp only [Tab.rising, Bool.and_eq_true, decide_eq_true_eq] at ht
    simp only [Tab.put]
    split
    · simp only [Tab.rising, Bool.and_eq_true, decide_eq_true_eq]
      exact ⟨hk, by omega, ht.2⟩
    · split
      · rename_i e; subst e; simp only [Tab.rising, Bool.and_eq_true, decide_eq_true_eq]; exact ⟨hk, ht.2⟩
      · simp only [Tab.rising, Bool.and_eq_true, decide_eq_true_eq]
        exact ⟨ht.1, Tab.rising_put v (by omega) ht.2⟩

theorem Tab.rising_filter (f : Nat × α → Bool) : ∀ {lo : Nat} {t : Tab α}, Tab.rising lo t = true →
    Tab.rising lo (t.filter f) = true
  | _, [], _ => rfl
  | lo, (k, v) :: t, ht => by
    simp only [Tab.rising, Bool.and_eq_true, decide_eq_true_eq] at ht
    have h := Tab.rising_filter f ht.2
    rw [List.filter_cons]
    split
    · simp only [Tab.rising, Bool.and_eq_true, decide_eq_true_eq]; exact ⟨ht.1, h⟩
    · exact Tab.rising_mono (by omega) h

theorem Tab.del_eq_filter (t : Tab α) (k : Nat) : Tab.del t k = t.filter (fun p => decide (p.1 ≠ k)) := by
  induction t with
  | nil => rfl
  | cons p t ih =>
    obtain ⟨k', v'⟩ := p
    simp only [Tab.del, List.filter_cons]
    by_cases h : k = k'
    · subst h; simp [ih]
    · simp [h, Ne.symm h, ih]

theorem Tab.mem_put {t : Tab α} {k : Nat} {v : α} {p : Nat × α} (h : p ∈ Tab.put t k v) : p = (k, v) ∨ p ∈ t := by
  induction t with
  | nil => simp [Tab.put] at h; exact .inl h
  | cons q t ih =>
    obtain ⟨k', v'⟩ := q
    simp only [Tab.put] at h
    split at h
    · simp only [List.mem_cons] at h ⊢; exact h
    · split at h
      · simp only [List.mem_cons] at h ⊢
        rcases h with h | h
        · exact .inl h
        · exact .inr (.inr h)
      · simp only [List.mem_cons] at h ⊢
        rcases h with h | h
        · exact .inr (.inl h)
        · rcases ih h with h | h
          · exact .inl h
          · exact .inr (.inr h)

theorem Tab.wf_filter [DecidableEq α] {d : Nat → α} {t : Tab α} (f : Nat × α → Bool) (h : Tab.wf d t = true) :
    Tab.wf d (t.filter f) = true := by
  simp only [Tab.wf, Bool.and_eq_true, List.all_eq_true] at h ⊢
  exact ⟨Tab.rising_filter f h.1, fun p hp => h.2 p (List.mem_of_mem_filter hp)⟩

theorem Tab.wf_clear [DecidableEq α] {d : Nat → α} {t : Tab α} (f : Nat → Bool) (h : Tab.wf d t = true) :
    Tab.wf d (Tab.clear t f) = true := Tab.wf_filter _ h

/-- Writing a value keeps the canonical form. -/
theorem Tab.wf_store [DecidableEq α] {d : Nat → α} {t : Tab α} (k : Nat) (v : α) (h : Tab.wf d t = true) :
    Tab.wf d (Tab.store t k (d k) v) = true := by
  unfold Tab.store
  split
  · rw [Tab.del_eq_filter]; exact Tab.wf_filter _ h
  · rename_i hv
    simp only [Tab.wf, Bool.and_eq_true, List.all_eq_true, decide_eq_true_eq] at h ⊢
    refine ⟨Tab.rising_put v (Nat.zero_le k) h.1, fun p hp => ?_⟩
    rcases Tab.mem_put hp with e | e
    · subst e; exact hv
    · exact h.2 p e

end Sys2Proof.Machine
end

