-- ==== Sys2Proof/Laws/Bits.lean ====
section
/-! SUPPORT. The laws of register bits and fields: what a field reads after a field, a register or an accessor's table
is written. -/

namespace Sys2Proof.Machine

theorem bitsOf_lt (w : Word) (hi lo : Nat) : bitsOf w hi lo < 2 ^ (hi + 1 - lo) := Nat.mod_lt _ (Nat.two_pow_pos _)

/-- The number a word becomes when a field of it is replaced. -/
theorem withBits_toNat (w : Word) {hi lo : Nat} (v : Nat) (hl : lo ≤ hi) (hh : hi < 32) :
    (withBits w hi lo v).toNat =
      w.toNat / 2 ^ (hi + 1) * 2 ^ (hi + 1) + v % 2 ^ (hi + 1 - lo) * 2 ^ lo + w.toNat % 2 ^ lo := by
  have e : 2 ^ (hi + 1) = 2 ^ (hi + 1 - lo) * 2 ^ lo := by rw [← Nat.pow_add]; congr 1; omega
  have h32 : 2 ^ 32 = 2 ^ (31 - hi) * 2 ^ (hi + 1) := by rw [← Nat.pow_add]; congr 1; omega
  have hlt := w.isLt
  simp only [withBits, bitsOf, BitVec.toNat_ofNat]
  generalize w.toNat = x at *
  generalize hm : hi + 1 - lo = m at *
  have d1 := Nat.div_add_mod x (2 ^ lo)
  have d2 := Nat.div_add_mod (x / 2 ^ lo) (2 ^ m)
  have dd : x / 2 ^ (hi + 1) = x / 2 ^ lo / 2 ^ m := by rw [e, Nat.mul_comm, Nat.div_div_eq_div_mul]
  rw [dd, e]
  have hq : x / 2 ^ lo / 2 ^ m < 2 ^ (31 - hi) := by
    rw [← dd]; rw [Nat.div_lt_iff_lt_mul (Nat.two_pow_pos _)]; omega
  have hv : v % 2 ^ m < 2 ^ m := Nat.mod_lt _ (Nat.two_pow_pos _)
  have hr : x % 2 ^ lo < 2 ^ lo := Nat.mod_lt _ (Nat.two_pow_pos _)
  generalize x / 2 ^ lo / 2 ^ m = q at *
  generalize hA : x / 2 ^ lo % 2 ^ m = A at *
  generalize hB : x % 2 ^ lo = B at *
  generalize hV : v % 2 ^ m = V at *
  have hx : x = q * (2 ^ m * 2 ^ lo) + A * 2 ^ lo + B := by
    rw [← d1, ← d2]; ring
  have hsub : x - A * 2 ^ lo + V * 2 ^ lo = q * (2 ^ m * 2 ^ lo) + V * 2 ^ lo + B := by
    rw [hx]; omega
  rw [hsub]
  apply Nat.mod_eq_of_lt
  have h1 : V * 2 ^ lo + B < 2 ^ m * 2 ^ lo := by
    have : (V + 1) * 2 ^ lo ≤ 2 ^ m * 2 ^ lo := Nat.mul_le_mul_right _ hv
    rw [Nat.add_mul] at this; omega
  have h2 : (q + 1) * (2 ^ m * 2 ^ lo) ≤ 2 ^ (31 - hi) * (2 ^ m * 2 ^ lo) := Nat.mul_le_mul_right _ hq
  rw [Nat.add_mul] at h2
  have h3 : 2 ^ 32 = 2 ^ (31 - hi) * (2 ^ m * 2 ^ lo) := by rw [h32, e]
  omega

/-- A field reads what was written to it. -/
theorem bitsOf_withBits_self (w : Word) {hi lo : Nat} (v : Nat) (hl : lo ≤ hi) (hh : hi < 32) :
    bitsOf (withBits w hi lo v) hi lo = v % 2 ^ (hi + 1 - lo) := by
  have e : 2 ^ (hi + 1) = 2 ^ (hi + 1 - lo) * 2 ^ lo := by rw [← Nat.pow_add]; congr 1; omega
  rw [bitsOf, withBits_toNat w v hl hh, e, ← Nat.mul_assoc, ← Nat.add_mul]
  rw [Nat.mul_comm (_ + _) (2 ^ lo), Nat.mul_add_div (Nat.two_pow_pos _),
    Nat.div_eq_of_lt (Nat.mod_lt _ (Nat.two_pow_pos _)), Nat.add_zero, Nat.mul_comm (w.toNat / _), Nat.mul_add_mod]
  exact Nat.mod_mod _ _

theorem bitsOf_below (x : Nat) {hi lo n : Nat} (h : hi < n) :
    x / 2 ^ lo % 2 ^ (hi + 1 - lo) = x % 2 ^ n / 2 ^ lo % 2 ^ (hi + 1 - lo) := by
  apply Nat.eq_of_testBit_eq
  intro j
  simp only [Nat.testBit_mod_two_pow, Nat.testBit_div_two_pow]
  by_cases hj : j < hi + 1 - lo
  · have : j + lo < n := by omega
    simp [hj, this]
  · simp [hj]

theorem bitsOf_above (x : Nat) {hi lo n : Nat} (h : n ≤ lo) :
    x / 2 ^ lo % 2 ^ (hi + 1 - lo) = x / 2 ^ n / 2 ^ (lo - n) % 2 ^ (hi + 1 - lo) := by
  rw [Nat.div_div_eq_div_mul, ← Nat.pow_add]
  congr 3
  omega

/-- A field that lies beside the one written reads as before. -/
theorem bitsOf_withBits_ne (w : Word) {hi lo hi' lo' : Nat} (v : Nat) (hl : lo ≤ hi) (hh : hi < 32)
    (h : hi < lo' ∨ hi' < lo) : bitsOf (withBits w hi lo v) hi' lo' = bitsOf w hi' lo' := by
  have e : 2 ^ (hi + 1) = 2 ^ (hi + 1 - lo) * 2 ^ lo := by rw [← Nat.pow_add]; congr 1; omega
  have hV : v % 2 ^ (hi + 1 - lo) < 2 ^ (hi + 1 - lo) := Nat.mod_lt _ (Nat.two_pow_pos _)
  have hR : w.toNat % 2 ^ lo < 2 ^ lo := Nat.mod_lt _ (Nat.two_pow_pos _)
  simp only [bitsOf, withBits_toNat w v hl hh]
  generalize w.toNat = x at *
  rcases h with h | h
  · rw [bitsOf_above _ (n := hi + 1) (by omega), bitsOf_above x (n := hi + 1) (by omega)]
    congr 2
    have hlow : v % 2 ^ (hi + 1 - lo) * 2 ^ lo + x % 2 ^ lo < 2 ^ (hi + 1) := by
      have := Nat.mul_le_mul_right (2 ^ lo) (Nat.succ_le_of_lt hV)
      rw [Nat.succ_mul] at this
      rw [e]
      omega
    rw [Nat.add_assoc, Nat.mul_comm, Nat.mul_add_div (Nat.two_pow_pos _), Nat.div_eq_of_lt hlow, Nat.add_zero]
  · rw [bitsOf_below _ h, bitsOf_below x h]
    congr 2
    rw [e, ← Nat.mul_assoc, ← Nat.add_mul, Nat.mul_comm, Nat.mul_add_mod]
    exact Nat.mod_mod _ _

/-! ### Registers and fields -/

@[simp] theorem reg_setReg_self (k : Nat) (w : Word) (s : State) : reg (setReg k w s) k = w := by
  simp [reg, setReg]

theorem reg_setReg_ne {k j : Nat} (w : Word) (s : State) (h : j ≠ k) : reg (setReg k w s) j = reg s j := by
  simp [reg, setReg, Tab.getD_store_ne _ _ _ _ h]

/-- A field that can hold a value: its bits lie in a register. -/
def Fld.ok (f : Fld) : Bool := decide (f.lo ≤ f.hi ∧ f.hi < 32)

theorem getF_setF_self (f : Fld) (v : Nat) (s : State) (h : f.ok = true) :
    getF (setF f v s) f = v % 2 ^ (f.hi + 1 - f.lo) := by
  simp only [Fld.ok, decide_eq_true_eq] at h
  simp [getF, setF, bitsOf_withBits_self _ _ h.1 h.2]

theorem getF_setF_key (f g : Fld) (v : Nat) (s : State) (h : g.key ≠ f.key) : getF (setF f v s) g = getF s g := by
  simp [getF, setF, reg_setReg_ne _ _ h]

theorem getF_setF_bits (f g : Fld) (v : Nat) (s : State) (hf : f.ok = true) (h : f.hi < g.lo ∨ g.hi < f.lo) :
    getF (setF f v s) g = getF s g := by
  simp only [Fld.ok, decide_eq_true_eq] at hf
  by_cases hk : g.key = f.key
  · simp only [getF, setF, hk, reg_setReg_self]
    exact bitsOf_withBits_ne _ _ hf.1 hf.2 h
  · exact getF_setF_key f g v s hk

theorem reg_setF_ne {k : Nat} (f : Fld) (v : Nat) (s : State) (h : k ≠ f.key) : reg (setF f v s) k = reg s k :=
  reg_setReg_ne _ _ h

theorem getF_setReg_ne {k : Nat} (f : Fld) (w : Word) (s : State) (h : f.key ≠ k) :
    getF (setReg k w s) f = getF s f := by simp [getF, reg_setReg_ne _ _ h]

theorem getF_lt (s : State) (f : Fld) : getF s f < 2 ^ (f.hi + 1 - f.lo) := bitsOf_lt _ _ _

/-! ### Memory -/

@[simp] theorem readB_writeB_self (a : Nat) (b : Byte) (s : State) : readB (writeB a b s) a = b := by
  simp [readB, writeB]

theorem readB_writeB_ne {a c : Nat} (b : Byte) (s : State) (h : c ≠ a) : readB (writeB a b s) c = readB s c := by
  simp [readB, writeB, Tab.getD_store_ne _ _ _ _ h]

/-- A byte outside the stored ones reads as before. -/
theorem readB_writeBytes_ne : ∀ (bs : List Byte) (a c : Nat) (s : State), c < a ∨ a + bs.length ≤ c →
    readB (writeBytes a bs s) c = readB s c
  | [], _, _, _, _ => rfl
  | b :: bs, a, c, s, h => by
    simp only [List.length_cons] at h
    rw [writeBytes, readB_writeBytes_ne bs (a + 1) c _ (by omega), readB_writeB_ne _ _ (by omega)]

/-- A byte stored reads back. -/
theorem readB_writeBytes_mem : ∀ (bs : List Byte) (a i : Nat) (s : State) (h : i < bs.length),
    readB (writeBytes a bs s) (a + i) = bs[i]
  | [], _, _, _, h => absurd h (Nat.not_lt_zero _)
  | b :: bs, a, 0, s, _ => by
    rw [writeBytes, readB_writeBytes_ne bs (a + 1) (a + 0) _ (by omega)]; simp
  | b :: bs, a, i + 1, s, h => by
    have := readB_writeBytes_mem bs (a + 1) i (writeB a b s) (by simpa using h)
    rw [writeBytes]
    simpa [Nat.add_assoc, Nat.add_comm 1 i] using this

end Sys2Proof.Machine
end

