-- ==== Sys2Proof/Laws/State.lean ====
section
/-! SUPPORT. One lemma for each field of State and each named update: the update leaves the field. Then, for each table
of units, what its accessor reads after the table is updated. -/

namespace Sys2Proof.Machine

variable (s : State)

/-! ### setReg -/

@[simp] theorem setReg_pending (k : Nat) (w : Word) : (setReg k w s).pending = s.pending := (rfl)
@[simp] theorem setReg_mem (k : Nat) (w : Word) : (setReg k w s).mem = s.mem := (rfl)
@[simp] theorem setReg_time (k : Nat) (w : Word) : (setReg k w s).time = s.time := (rfl)
@[simp] theorem setReg_cal (k : Nat) (w : Word) : (setReg k w s).cal = s.cal := (rfl)
@[simp] theorem setReg_tenants (k : Nat) (w : Word) : (setReg k w s).tenants = s.tenants := (rfl)
@[simp] theorem setReg_devices (k : Nat) (w : Word) : (setReg k w s).devices = s.devices := (rfl)
@[simp] theorem setReg_ports (k : Nat) (w : Word) : (setReg k w s).ports = s.ports := (rfl)
@[simp] theorem setReg_images (k : Nat) (w : Word) : (setReg k w s).images = s.images := (rfl)
@[simp] theorem setReg_pads (k : Nat) (w : Word) : (setReg k w s).pads = s.pads := (rfl)
@[simp] theorem setReg_pgOn (k : Nat) (w : Word) : (setReg k w s).pgOn = s.pgOn := (rfl)
@[simp] theorem setReg_fifos (k : Nat) (w : Word) : (setReg k w s).fifos = s.fifos := (rfl)
@[simp] theorem setReg_chans (k : Nat) (w : Word) : (setReg k w s).chans = s.chans := (rfl)
@[simp] theorem setReg_lgroups (k : Nat) (w : Word) : (setReg k w s).lgroups = s.lgroups := (rfl)
@[simp] theorem setReg_journal (k : Nat) (w : Word) : (setReg k w s).journal = s.journal := (rfl)
@[simp] theorem setReg_clusters (k : Nat) (w : Word) : (setReg k w s).clusters = s.clusters := (rfl)
@[simp] theorem setReg_cores (k : Nat) (w : Word) : (setReg k w s).cores = s.cores := (rfl)
@[simp] theorem setReg_locks (k : Nat) (w : Word) : (setReg k w s).locks = s.locks := (rfl)
@[simp] theorem setReg_remote (k : Nat) (w : Word) : (setReg k w s).remote = s.remote := (rfl)
@[simp] theorem setReg_delayed (k : Nat) (w : Word) : (setReg k w s).delayed = s.delayed := (rfl)
@[simp] theorem setReg_xfers (k : Nat) (w : Word) : (setReg k w s).xfers = s.xfers := (rfl)
@[simp] theorem setReg_xferNext (k : Nat) (w : Word) : (setReg k w s).xferNext = s.xferNext := (rfl)
@[simp] theorem setReg_arbs (k : Nat) (w : Word) : (setReg k w s).arbs = s.arbs := (rfl)
@[simp] theorem setReg_links (k : Nat) (w : Word) : (setReg k w s).links = s.links := (rfl)
@[simp] theorem setReg_group (k : Nat) (w : Word) : (setReg k w s).group = s.group := (rfl)
@[simp] theorem setReg_guard (k : Nat) (w : Word) : (setReg k w s).guard = s.guard := (rfl)
@[simp] theorem setReg_holds (k : Nat) (w : Word) : (setReg k w s).holds = s.holds := (rfl)
@[simp] theorem setReg_power (k : Nat) (w : Word) : (setReg k w s).power = s.power := (rfl)
@[simp] theorem setReg_host (k : Nat) (w : Word) : (setReg k w s).host = s.host := (rfl)
@[simp] theorem setReg_admin (k : Nat) (w : Word) : (setReg k w s).admin = s.admin := (rfl)
@[simp] theorem setReg_hot (k : Nat) (w : Word) : (setReg k w s).hot = s.hot := (rfl)
@[simp] theorem setReg_fresh (k : Nat) (w : Word) : (setReg k w s).fresh = s.fresh := (rfl)

/-! ### setF -/

@[simp] theorem setF_pending (f : Fld) (v : Nat) : (setF f v s).pending = s.pending := (rfl)
@[simp] theorem setF_mem (f : Fld) (v : Nat) : (setF f v s).mem = s.mem := (rfl)
@[simp] theorem setF_time (f : Fld) (v : Nat) : (setF f v s).time = s.time := (rfl)
@[simp] theorem setF_cal (f : Fld) (v : Nat) : (setF f v s).cal = s.cal := (rfl)
@[simp] theorem setF_tenants (f : Fld) (v : Nat) : (setF f v s).tenants = s.tenants := (rfl)
@[simp] theorem setF_devices (f : Fld) (v : Nat) : (setF f v s).devices = s.devices := (rfl)
@[simp] theorem setF_ports (f : Fld) (v : Nat) : (setF f v s).ports = s.ports := (rfl)
@[simp] theorem setF_images (f : Fld) (v : Nat) : (setF f v s).images = s.images := (rfl)
@[simp] theorem setF_pads (f : Fld) (v : Nat) : (setF f v s).pads = s.pads := (rfl)
@[simp] theorem setF_pgOn (f : Fld) (v : Nat) : (setF f v s).pgOn = s.pgOn := (rfl)
@[simp] theorem setF_fifos (f : Fld) (v : Nat) : (setF f v s).fifos = s.fifos := (rfl)
@[simp] theorem setF_chans (f : Fld) (v : Nat) : (setF f v s).chans = s.chans := (rfl)
@[simp] theorem setF_lgroups (f : Fld) (v : Nat) : (setF f v s).lgroups = s.lgroups := (rfl)
@[simp] theorem setF_journal (f : Fld) (v : Nat) : (setF f v s).journal = s.journal := (rfl)
@[simp] theorem setF_clusters (f : Fld) (v : Nat) : (setF f v s).clusters = s.clusters := (rfl)
@[simp] theorem setF_cores (f : Fld) (v : Nat) : (setF f v s).cores = s.cores := (rfl)
@[simp] theorem setF_locks (f : Fld) (v : Nat) : (setF f v s).locks = s.locks := (rfl)
@[simp] theorem setF_remote (f : Fld) (v : Nat) : (setF f v s).remote = s.remote := (rfl)
@[simp] theorem setF_delayed (f : Fld) (v : Nat) : (setF f v s).delayed = s.delayed := (rfl)
@[simp] theorem setF_xfers (f : Fld) (v : Nat) : (setF f v s).xfers = s.xfers := (rfl)
@[simp] theorem setF_xferNext (f : Fld) (v : Nat) : (setF f v s).xferNext = s.xferNext := (rfl)
@[simp] theorem setF_arbs (f : Fld) (v : Nat) : (setF f v s).arbs = s.arbs := (rfl)
@[simp] theorem setF_links (f : Fld) (v : Nat) : (setF f v s).links = s.links := (rfl)
@[simp] theorem setF_group (f : Fld) (v : Nat) : (setF f v s).group = s.group := (rfl)
@[simp] theorem setF_guard (f : Fld) (v : Nat) : (setF f v s).guard = s.guard := (rfl)
@[simp] theorem setF_holds (f : Fld) (v : Nat) : (setF f v s).holds = s.holds := (rfl)
@[simp] theorem setF_power (f : Fld) (v : Nat) : (setF f v s).power = s.power := (rfl)
@[simp] theorem setF_host (f : Fld) (v : Nat) : (setF f v s).host = s.host := (rfl)
@[simp] theorem setF_admin (f : Fld) (v : Nat) : (setF f v s).admin = s.admin := (rfl)
@[simp] theorem setF_hot (f : Fld) (v : Nat) : (setF f v s).hot = s.hot := (rfl)
@[simp] theorem setF_fresh (f : Fld) (v : Nat) : (setF f v s).fresh = s.fresh := (rfl)

/-! ### addF -/

@[simp] theorem addF_pending (f : Fld) (v : Nat) : (addF f v s).pending = s.pending := (rfl)
@[simp] theorem addF_mem (f : Fld) (v : Nat) : (addF f v s).mem = s.mem := (rfl)
@[simp] theorem addF_time (f : Fld) (v : Nat) : (addF f v s).time = s.time := (rfl)
@[simp] theorem addF_cal (f : Fld) (v : Nat) : (addF f v s).cal = s.cal := (rfl)
@[simp] theorem addF_tenants (f : Fld) (v : Nat) : (addF f v s).tenants = s.tenants := (rfl)
@[simp] theorem addF_devices (f : Fld) (v : Nat) : (addF f v s).devices = s.devices := (rfl)
@[simp] theorem addF_ports (f : Fld) (v : Nat) : (addF f v s).ports = s.ports := (rfl)
@[simp] theorem addF_images (f : Fld) (v : Nat) : (addF f v s).images = s.images := (rfl)
@[simp] theorem addF_pads (f : Fld) (v : Nat) : (addF f v s).pads = s.pads := (rfl)
@[simp] theorem addF_pgOn (f : Fld) (v : Nat) : (addF f v s).pgOn = s.pgOn := (rfl)
@[simp] theorem addF_fifos (f : Fld) (v : Nat) : (addF f v s).fifos = s.fifos := (rfl)
@[simp] theorem addF_chans (f : Fld) (v : Nat) : (addF f v s).chans = s.chans := (rfl)
@[simp] theorem addF_lgroups (f : Fld) (v : Nat) : (addF f v s).lgroups = s.lgroups := (rfl)
@[simp] theorem addF_journal (f : Fld) (v : Nat) : (addF f v s).journal = s.journal := (rfl)
@[simp] theorem addF_clusters (f : Fld) (v : Nat) : (addF f v s).clusters = s.clusters := (rfl)
@[simp] theorem addF_cores (f : Fld) (v : Nat) : (addF f v s).cores = s.cores := (rfl)
@[simp] theorem addF_locks (f : Fld) (v : Nat) : (addF f v s).locks = s.locks := (rfl)
@[simp] theorem addF_remote (f : Fld) (v : Nat) : (addF f v s).remote = s.remote := (rfl)
@[simp] theorem addF_delayed (f : Fld) (v : Nat) : (addF f v s).delayed = s.delayed := (rfl)
@[simp] theorem addF_xfers (f : Fld) (v : Nat) : (addF f v s).xfers = s.xfers := (rfl)
@[simp] theorem addF_xferNext (f : Fld) (v : Nat) : (addF f v s).xferNext = s.xferNext := (rfl)
@[simp] theorem addF_arbs (f : Fld) (v : Nat) : (addF f v s).arbs = s.arbs := (rfl)
@[simp] theorem addF_links (f : Fld) (v : Nat) : (addF f v s).links = s.links := (rfl)
@[simp] theorem addF_group (f : Fld) (v : Nat) : (addF f v s).group = s.group := (rfl)
@[simp] theorem addF_guard (f : Fld) (v : Nat) : (addF f v s).guard = s.guard := (rfl)
@[simp] theorem addF_holds (f : Fld) (v : Nat) : (addF f v s).holds = s.holds := (rfl)
@[simp] theorem addF_power (f : Fld) (v : Nat) : (addF f v s).power = s.power := (rfl)
@[simp] theorem addF_host (f : Fld) (v : Nat) : (addF f v s).host = s.host := (rfl)
@[simp] theorem addF_admin (f : Fld) (v : Nat) : (addF f v s).admin = s.admin := (rfl)
@[simp] theorem addF_hot (f : Fld) (v : Nat) : (addF f v s).hot = s.hot := (rfl)
@[simp] theorem addF_fresh (f : Fld) (v : Nat) : (addF f v s).fresh = s.fresh := (rfl)

/-! ### writeB -/

@[simp] theorem writeB_pending (a : Nat) (b : Byte) : (writeB a b s).pending = s.pending := (rfl)
@[simp] theorem writeB_regs (a : Nat) (b : Byte) : (writeB a b s).regs = s.regs := (rfl)
@[simp] theorem writeB_time (a : Nat) (b : Byte) : (writeB a b s).time = s.time := (rfl)
@[simp] theorem writeB_cal (a : Nat) (b : Byte) : (writeB a b s).cal = s.cal := (rfl)
@[simp] theorem writeB_tenants (a : Nat) (b : Byte) : (writeB a b s).tenants = s.tenants := (rfl)
@[simp] theorem writeB_devices (a : Nat) (b : Byte) : (writeB a b s).devices = s.devices := (rfl)
@[simp] theorem writeB_ports (a : Nat) (b : Byte) : (writeB a b s).ports = s.ports := (rfl)
@[simp] theorem writeB_images (a : Nat) (b : Byte) : (writeB a b s).images = s.images := (rfl)
@[simp] theorem writeB_pads (a : Nat) (b : Byte) : (writeB a b s).pads = s.pads := (rfl)
@[simp] theorem writeB_pgOn (a : Nat) (b : Byte) : (writeB a b s).pgOn = s.pgOn := (rfl)
@[simp] theorem writeB_fifos (a : Nat) (b : Byte) : (writeB a b s).fifos = s.fifos := (rfl)
@[simp] theorem writeB_chans (a : Nat) (b : Byte) : (writeB a b s).chans = s.chans := (rfl)
@[simp] theorem writeB_lgroups (a : Nat) (b : Byte) : (writeB a b s).lgroups = s.lgroups := (rfl)
@[simp] theorem writeB_journal (a : Nat) (b : Byte) : (writeB a b s).journal = s.journal := (rfl)
@[simp] theorem writeB_clusters (a : Nat) (b : Byte) : (writeB a b s).clusters = s.clusters := (rfl)
@[simp] theorem writeB_cores (a : Nat) (b : Byte) : (writeB a b s).cores = s.cores := (rfl)
@[simp] theorem writeB_locks (a : Nat) (b : Byte) : (writeB a b s).locks = s.locks := (rfl)
@[simp] theorem writeB_remote (a : Nat) (b : Byte) : (writeB a b s).remote = s.remote := (rfl)
@[simp] theorem writeB_delayed (a : Nat) (b : Byte) : (writeB a b s).delayed = s.delayed := (rfl)
@[simp] theorem writeB_xfers (a : Nat) (b : Byte) : (writeB a b s).xfers = s.xfers := (rfl)
@[simp] theorem writeB_xferNext (a : Nat) (b : Byte) : (writeB a b s).xferNext = s.xferNext := (rfl)
@[simp] theorem writeB_arbs (a : Nat) (b : Byte) : (writeB a b s).arbs = s.arbs := (rfl)
@[simp] theorem writeB_links (a : Nat) (b : Byte) : (writeB a b s).links = s.links := (rfl)
@[simp] theorem writeB_group (a : Nat) (b : Byte) : (writeB a b s).group = s.group := (rfl)
@[simp] theorem writeB_guard (a : Nat) (b : Byte) : (writeB a b s).guard = s.guard := (rfl)
@[simp] theorem writeB_holds (a : Nat) (b : Byte) : (writeB a b s).holds = s.holds := (rfl)
@[simp] theorem writeB_power (a : Nat) (b : Byte) : (writeB a b s).power = s.power := (rfl)
@[simp] theorem writeB_host (a : Nat) (b : Byte) : (writeB a b s).host = s.host := (rfl)
@[simp] theorem writeB_admin (a : Nat) (b : Byte) : (writeB a b s).admin = s.admin := (rfl)
@[simp] theorem writeB_hot (a : Nat) (b : Byte) : (writeB a b s).hot = s.hot := (rfl)
@[simp] theorem writeB_fresh (a : Nat) (b : Byte) : (writeB a b s).fresh = s.fresh := (rfl)

/-! ### clearMem -/

@[simp] theorem clearMem_pending (f : Nat → Bool) : (clearMem f s).pending = s.pending := (rfl)
@[simp] theorem clearMem_regs (f : Nat → Bool) : (clearMem f s).regs = s.regs := (rfl)
@[simp] theorem clearMem_time (f : Nat → Bool) : (clearMem f s).time = s.time := (rfl)
@[simp] theorem clearMem_cal (f : Nat → Bool) : (clearMem f s).cal = s.cal := (rfl)
@[simp] theorem clearMem_tenants (f : Nat → Bool) : (clearMem f s).tenants = s.tenants := (rfl)
@[simp] theorem clearMem_devices (f : Nat → Bool) : (clearMem f s).devices = s.devices := (rfl)
@[simp] theorem clearMem_ports (f : Nat → Bool) : (clearMem f s).ports = s.ports := (rfl)
@[simp] theorem clearMem_images (f : Nat → Bool) : (clearMem f s).images = s.images := (rfl)
@[simp] theorem clearMem_pads (f : Nat → Bool) : (clearMem f s).pads = s.pads := (rfl)
@[simp] theorem clearMem_pgOn (f : Nat → Bool) : (clearMem f s).pgOn = s.pgOn := (rfl)
@[simp] theorem clearMem_fifos (f : Nat → Bool) : (clearMem f s).fifos = s.fifos := (rfl)
@[simp] theorem clearMem_chans (f : Nat → Bool) : (clearMem f s).chans = s.chans := (rfl)
@[simp] theorem clearMem_lgroups (f : Nat → Bool) : (clearMem f s).lgroups = s.lgroups := (rfl)
@[simp] theorem clearMem_journal (f : Nat → Bool) : (clearMem f s).journal = s.journal := (rfl)
@[simp] theorem clearMem_clusters (f : Nat → Bool) : (clearMem f s).clusters = s.clusters := (rfl)
@[simp] theorem clearMem_cores (f : Nat → Bool) : (clearMem f s).cores = s.cores := (rfl)
@[simp] theorem clearMem_locks (f : Nat → Bool) : (clearMem f s).locks = s.locks := (rfl)
@[simp] theorem clearMem_remote (f : Nat → Bool) : (clearMem f s).remote = s.remote := (rfl)
@[simp] theorem clearMem_delayed (f : Nat → Bool) : (clearMem f s).delayed = s.delayed := (rfl)
@[simp] theorem clearMem_xfers (f : Nat → Bool) : (clearMem f s).xfers = s.xfers := (rfl)
@[simp] theorem clearMem_xferNext (f : Nat → Bool) : (clearMem f s).xferNext = s.xferNext := (rfl)
@[simp] theorem clearMem_arbs (f : Nat → Bool) : (clearMem f s).arbs = s.arbs := (rfl)
@[simp] theorem clearMem_links (f : Nat → Bool) : (clearMem f s).links = s.links := (rfl)
@[simp] theorem clearMem_group (f : Nat → Bool) : (clearMem f s).group = s.group := (rfl)
@[simp] theorem clearMem_guard (f : Nat → Bool) : (clearMem f s).guard = s.guard := (rfl)
@[simp] theorem clearMem_holds (f : Nat → Bool) : (clearMem f s).holds = s.holds := (rfl)
@[simp] theorem clearMem_power (f : Nat → Bool) : (clearMem f s).power = s.power := (rfl)
@[simp] theorem clearMem_host (f : Nat → Bool) : (clearMem f s).host = s.host := (rfl)
@[simp] theorem clearMem_admin (f : Nat → Bool) : (clearMem f s).admin = s.admin := (rfl)
@[simp] theorem clearMem_hot (f : Nat → Bool) : (clearMem f s).hot = s.hot := (rfl)
@[simp] theorem clearMem_fresh (f : Nat → Bool) : (clearMem f s).fresh = s.fresh := (rfl)

/-! ### clearRegs -/

@[simp] theorem clearRegs_pending (f : Nat → Bool) : (clearRegs f s).pending = s.pending := (rfl)
@[simp] theorem clearRegs_mem (f : Nat → Bool) : (clearRegs f s).mem = s.mem := (rfl)
@[simp] theorem clearRegs_time (f : Nat → Bool) : (clearRegs f s).time = s.time := (rfl)
@[simp] theorem clearRegs_cal (f : Nat → Bool) : (clearRegs f s).cal = s.cal := (rfl)
@[simp] theorem clearRegs_tenants (f : Nat → Bool) : (clearRegs f s).tenants = s.tenants := (rfl)
@[simp] theorem clearRegs_devices (f : Nat → Bool) : (clearRegs f s).devices = s.devices := (rfl)
@[simp] theorem clearRegs_ports (f : Nat → Bool) : (clearRegs f s).ports = s.ports := (rfl)
@[simp] theorem clearRegs_images (f : Nat → Bool) : (clearRegs f s).images = s.images := (rfl)
@[simp] theorem clearRegs_pads (f : Nat → Bool) : (clearRegs f s).pads = s.pads := (rfl)
@[simp] theorem clearRegs_pgOn (f : Nat → Bool) : (clearRegs f s).pgOn = s.pgOn := (rfl)
@[simp] theorem clearRegs_fifos (f : Nat → Bool) : (clearRegs f s).fifos = s.fifos := (rfl)
@[simp] theorem clearRegs_chans (f : Nat → Bool) : (clearRegs f s).chans = s.chans := (rfl)
@[simp] theorem clearRegs_lgroups (f : Nat → Bool) : (clearRegs f s).lgroups = s.lgroups := (rfl)
@[simp] theorem clearRegs_journal (f : Nat → Bool) : (clearRegs f s).journal = s.journal := (rfl)
@[simp] theorem clearRegs_clusters (f : Nat → Bool) : (clearRegs f s).clusters = s.clusters := (rfl)
@[simp] theorem clearRegs_cores (f : Nat → Bool) : (clearRegs f s).cores = s.cores := (rfl)
@[simp] theorem clearRegs_locks (f : Nat → Bool) : (clearRegs f s).locks = s.locks := (rfl)
@[simp] theorem clearRegs_remote (f : Nat → Bool) : (clearRegs f s).remote = s.remote := (rfl)
@[simp] theorem clearRegs_delayed (f : Nat → Bool) : (clearRegs f s).delayed = s.delayed := (rfl)
@[simp] theorem clearRegs_xfers (f : Nat → Bool) : (clearRegs f s).xfers = s.xfers := (rfl)
@[simp] theorem clearRegs_xferNext (f : Nat → Bool) : (clearRegs f s).xferNext = s.xferNext := (rfl)
@[simp] theorem clearRegs_arbs (f : Nat → Bool) : (clearRegs f s).arbs = s.arbs := (rfl)
@[simp] theorem clearRegs_links (f : Nat → Bool) : (clearRegs f s).links = s.links := (rfl)
@[simp] theorem clearRegs_group (f : Nat → Bool) : (clearRegs f s).group = s.group := (rfl)
@[simp] theorem clearRegs_guard (f : Nat → Bool) : (clearRegs f s).guard = s.guard := (rfl)
@[simp] theorem clearRegs_holds (f : Nat → Bool) : (clearRegs f s).holds = s.holds := (rfl)
@[simp] theorem clearRegs_power (f : Nat → Bool) : (clearRegs f s).power = s.power := (rfl)
@[simp] theorem clearRegs_host (f : Nat → Bool) : (clearRegs f s).host = s.host := (rfl)
@[simp] theorem clearRegs_admin (f : Nat → Bool) : (clearRegs f s).admin = s.admin := (rfl)
@[simp] theorem clearRegs_hot (f : Nat → Bool) : (clearRegs f s).hot = s.hot := (rfl)
@[simp] theorem clearRegs_fresh (f : Nat → Bool) : (clearRegs f s).fresh = s.fresh := (rfl)

/-! ### goTo -/

@[simp] theorem goTo_pending (n : Nat) : (goTo n s).pending = s.pending := (rfl)
@[simp] theorem goTo_regs (n : Nat) : (goTo n s).regs = s.regs := (rfl)
@[simp] theorem goTo_mem (n : Nat) : (goTo n s).mem = s.mem := (rfl)
@[simp] theorem goTo_cal (n : Nat) : (goTo n s).cal = s.cal := (rfl)
@[simp] theorem goTo_tenants (n : Nat) : (goTo n s).tenants = s.tenants := (rfl)
@[simp] theorem goTo_devices (n : Nat) : (goTo n s).devices = s.devices := (rfl)
@[simp] theorem goTo_ports (n : Nat) : (goTo n s).ports = s.ports := (rfl)
@[simp] theorem goTo_images (n : Nat) : (goTo n s).images = s.images := (rfl)
@[simp] theorem goTo_pads (n : Nat) : (goTo n s).pads = s.pads := (rfl)
@[simp] theorem goTo_pgOn (n : Nat) : (goTo n s).pgOn = s.pgOn := (rfl)
@[simp] theorem goTo_fifos (n : Nat) : (goTo n s).fifos = s.fifos := (rfl)
@[simp] theorem goTo_chans (n : Nat) : (goTo n s).chans = s.chans := (rfl)
@[simp] theorem goTo_lgroups (n : Nat) : (goTo n s).lgroups = s.lgroups := (rfl)
@[simp] theorem goTo_journal (n : Nat) : (goTo n s).journal = s.journal := (rfl)
@[simp] theorem goTo_clusters (n : Nat) : (goTo n s).clusters = s.clusters := (rfl)
@[simp] theorem goTo_cores (n : Nat) : (goTo n s).cores = s.cores := (rfl)
@[simp] theorem goTo_locks (n : Nat) : (goTo n s).locks = s.locks := (rfl)
@[simp] theorem goTo_remote (n : Nat) : (goTo n s).remote = s.remote := (rfl)
@[simp] theorem goTo_delayed (n : Nat) : (goTo n s).delayed = s.delayed := (rfl)
@[simp] theorem goTo_xfers (n : Nat) : (goTo n s).xfers = s.xfers := (rfl)
@[simp] theorem goTo_xferNext (n : Nat) : (goTo n s).xferNext = s.xferNext := (rfl)
@[simp] theorem goTo_arbs (n : Nat) : (goTo n s).arbs = s.arbs := (rfl)
@[simp] theorem goTo_links (n : Nat) : (goTo n s).links = s.links := (rfl)
@[simp] theorem goTo_group (n : Nat) : (goTo n s).group = s.group := (rfl)
@[simp] theorem goTo_guard (n : Nat) : (goTo n s).guard = s.guard := (rfl)
@[simp] theorem goTo_holds (n : Nat) : (goTo n s).holds = s.holds := (rfl)
@[simp] theorem goTo_power (n : Nat) : (goTo n s).power = s.power := (rfl)
@[simp] theorem goTo_host (n : Nat) : (goTo n s).host = s.host := (rfl)
@[simp] theorem goTo_admin (n : Nat) : (goTo n s).admin = s.admin := (rfl)
@[simp] theorem goTo_hot (n : Nat) : (goTo n s).hot = s.hot := (rfl)
@[simp] theorem goTo_fresh (n : Nat) : (goTo n s).fresh = s.fresh := (rfl)

/-! ### useFresh -/

@[simp] theorem useFresh_pending  : (useFresh  s).pending = s.pending := (rfl)
@[simp] theorem useFresh_regs  : (useFresh  s).regs = s.regs := (rfl)
@[simp] theorem useFresh_mem  : (useFresh  s).mem = s.mem := (rfl)
@[simp] theorem useFresh_time  : (useFresh  s).time = s.time := (rfl)
@[simp] theorem useFresh_cal  : (useFresh  s).cal = s.cal := (rfl)
@[simp] theorem useFresh_tenants  : (useFresh  s).tenants = s.tenants := (rfl)
@[simp] theorem useFresh_devices  : (useFresh  s).devices = s.devices := (rfl)
@[simp] theorem useFresh_ports  : (useFresh  s).ports = s.ports := (rfl)
@[simp] theorem useFresh_images  : (useFresh  s).images = s.images := (rfl)
@[simp] theorem useFresh_pads  : (useFresh  s).pads = s.pads := (rfl)
@[simp] theorem useFresh_pgOn  : (useFresh  s).pgOn = s.pgOn := (rfl)
@[simp] theorem useFresh_fifos  : (useFresh  s).fifos = s.fifos := (rfl)
@[simp] theorem useFresh_chans  : (useFresh  s).chans = s.chans := (rfl)
@[simp] theorem useFresh_lgroups  : (useFresh  s).lgroups = s.lgroups := (rfl)
@[simp] theorem useFresh_journal  : (useFresh  s).journal = s.journal := (rfl)
@[simp] theorem useFresh_clusters  : (useFresh  s).clusters = s.clusters := (rfl)
@[simp] theorem useFresh_cores  : (useFresh  s).cores = s.cores := (rfl)
@[simp] theorem useFresh_locks  : (useFresh  s).locks = s.locks := (rfl)
@[simp] theorem useFresh_remote  : (useFresh  s).remote = s.remote := (rfl)
@[simp] theorem useFresh_delayed  : (useFresh  s).delayed = s.delayed := (rfl)
@[simp] theorem useFresh_xfers  : (useFresh  s).xfers = s.xfers := (rfl)
@[simp] theorem useFresh_xferNext  : (useFresh  s).xferNext = s.xferNext := (rfl)
@[simp] theorem useFresh_arbs  : (useFresh  s).arbs = s.arbs := (rfl)
@[simp] theorem useFresh_links  : (useFresh  s).links = s.links := (rfl)
@[simp] theorem useFresh_group  : (useFresh  s).group = s.group := (rfl)
@[simp] theorem useFresh_guard  : (useFresh  s).guard = s.guard := (rfl)
@[simp] theorem useFresh_holds  : (useFresh  s).holds = s.holds := (rfl)
@[simp] theorem useFresh_power  : (useFresh  s).power = s.power := (rfl)
@[simp] theorem useFresh_host  : (useFresh  s).host = s.host := (rfl)
@[simp] theorem useFresh_admin  : (useFresh  s).admin = s.admin := (rfl)
@[simp] theorem useFresh_hot  : (useFresh  s).hot = s.hot := (rfl)

/-! ### setCore -/

@[simp] theorem setCore_pending (i : Nat) (c : CoreSt) : (setCore i c s).pending = s.pending := (rfl)
@[simp] theorem setCore_regs (i : Nat) (c : CoreSt) : (setCore i c s).regs = s.regs := (rfl)
@[simp] theorem setCore_mem (i : Nat) (c : CoreSt) : (setCore i c s).mem = s.mem := (rfl)
@[simp] theorem setCore_time (i : Nat) (c : CoreSt) : (setCore i c s).time = s.time := (rfl)
@[simp] theorem setCore_cal (i : Nat) (c : CoreSt) : (setCore i c s).cal = s.cal := (rfl)
@[simp] theorem setCore_tenants (i : Nat) (c : CoreSt) : (setCore i c s).tenants = s.tenants := (rfl)
@[simp] theorem setCore_devices (i : Nat) (c : CoreSt) : (setCore i c s).devices = s.devices := (rfl)
@[simp] theorem setCore_ports (i : Nat) (c : CoreSt) : (setCore i c s).ports = s.ports := (rfl)
@[simp] theorem setCore_images (i : Nat) (c : CoreSt) : (setCore i c s).images = s.images := (rfl)
@[simp] theorem setCore_pads (i : Nat) (c : CoreSt) : (setCore i c s).pads = s.pads := (rfl)
@[simp] theorem setCore_pgOn (i : Nat) (c : CoreSt) : (setCore i c s).pgOn = s.pgOn := (rfl)
@[simp] theorem setCore_fifos (i : Nat) (c : CoreSt) : (setCore i c s).fifos = s.fifos := (rfl)
@[simp] theorem setCore_chans (i : Nat) (c : CoreSt) : (setCore i c s).chans = s.chans := (rfl)
@[simp] theorem setCore_lgroups (i : Nat) (c : CoreSt) : (setCore i c s).lgroups = s.lgroups := (rfl)
@[simp] theorem setCore_journal (i : Nat) (c : CoreSt) : (setCore i c s).journal = s.journal := (rfl)
@[simp] theorem setCore_clusters (i : Nat) (c : CoreSt) : (setCore i c s).clusters = s.clusters := (rfl)
@[simp] theorem setCore_locks (i : Nat) (c : CoreSt) : (setCore i c s).locks = s.locks := (rfl)
@[simp] theorem setCore_remote (i : Nat) (c : CoreSt) : (setCore i c s).remote = s.remote := (rfl)
@[simp] theorem setCore_delayed (i : Nat) (c : CoreSt) : (setCore i c s).delayed = s.delayed := (rfl)
@[simp] theorem setCore_xfers (i : Nat) (c : CoreSt) : (setCore i c s).xfers = s.xfers := (rfl)
@[simp] theorem setCore_xferNext (i : Nat) (c : CoreSt) : (setCore i c s).xferNext = s.xferNext := (rfl)
@[simp] theorem setCore_arbs (i : Nat) (c : CoreSt) : (setCore i c s).arbs = s.arbs := (rfl)
@[simp] theorem setCore_links (i : Nat) (c : CoreSt) : (setCore i c s).links = s.links := (rfl)
@[simp] theorem setCore_group (i : Nat) (c : CoreSt) : (setCore i c s).group = s.group := (rfl)
@[simp] theorem setCore_guard (i : Nat) (c : CoreSt) : (setCore i c s).guard = s.guard := (rfl)
@[simp] theorem setCore_holds (i : Nat) (c : CoreSt) : (setCore i c s).holds = s.holds := (rfl)
@[simp] theorem setCore_power (i : Nat) (c : CoreSt) : (setCore i c s).power = s.power := (rfl)
@[simp] theorem setCore_host (i : Nat) (c : CoreSt) : (setCore i c s).host = s.host := (rfl)
@[simp] theorem setCore_admin (i : Nat) (c : CoreSt) : (setCore i c s).admin = s.admin := (rfl)
@[simp] theorem setCore_hot (i : Nat) (c : CoreSt) : (setCore i c s).hot = s.hot := (rfl)
@[simp] theorem setCore_fresh (i : Nat) (c : CoreSt) : (setCore i c s).fresh = s.fresh := (rfl)

/-! ### updCore -/

@[simp] theorem updCore_pending (i : Nat) (f : CoreSt → CoreSt) : (updCore i f s).pending = s.pending := (rfl)
@[simp] theorem updCore_regs (i : Nat) (f : CoreSt → CoreSt) : (updCore i f s).regs = s.regs := (rfl)
@[simp] theorem updCore_mem (i : Nat) (f : CoreSt → CoreSt) : (updCore i f s).mem = s.mem := (rfl)
@[simp] theorem updCore_time (i : Nat) (f : CoreSt → CoreSt) : (updCore i f s).time = s.time := (rfl)
@[simp] theorem updCore_cal (i : Nat) (f : CoreSt → CoreSt) : (updCore i f s).cal = s.cal := (rfl)
@[simp] theorem updCore_tenants (i : Nat) (f : CoreSt → CoreSt) : (updCore i f s).tenants = s.tenants := (rfl)
@[simp] theorem updCore_devices (i : Nat) (f : CoreSt → CoreSt) : (updCore i f s).devices = s.devices := (rfl)
@[simp] theorem updCore_ports (i : Nat) (f : CoreSt → CoreSt) : (updCore i f s).ports = s.ports := (rfl)
@[simp] theorem updCore_images (i : Nat) (f : CoreSt → CoreSt) : (updCore i f s).images = s.images := (rfl)
@[simp] theorem updCore_pads (i : Nat) (f : CoreSt → CoreSt) : (updCore i f s).pads = s.pads := (rfl)
@[simp] theorem updCore_pgOn (i : Nat) (f : CoreSt → CoreSt) : (updCore i f s).pgOn = s.pgOn := (rfl)
@[simp] theorem updCore_fifos (i : Nat) (f : CoreSt → CoreSt) : (updCore i f s).fifos = s.fifos := (rfl)
@[simp] theorem updCore_chans (i : Nat) (f : CoreSt → CoreSt) : (updCore i f s).chans = s.chans := (rfl)
@[simp] theorem updCore_lgroups (i : Nat) (f : CoreSt → CoreSt) : (updCore i f s).lgroups = s.lgroups := (rfl)
@[simp] theorem updCore_journal (i : Nat) (f : CoreSt → CoreSt) : (updCore i f s).journal = s.journal := (rfl)
@[simp] theorem updCore_clusters (i : Nat) (f : CoreSt → CoreSt) : (updCore i f s).clusters = s.clusters := (rfl)
@[simp] theorem updCore_locks (i : Nat) (f : CoreSt → CoreSt) : (updCore i f s).locks = s.locks := (rfl)
@[simp] theorem updCore_remote (i : Nat) (f : CoreSt → CoreSt) : (updCore i f s).remote = s.remote := (rfl)
@[simp] theorem updCore_delayed (i : Nat) (f : CoreSt → CoreSt) : (updCore i f s).delayed = s.delayed := (rfl)
@[simp] theorem updCore_xfers (i : Nat) (f : CoreSt → CoreSt) : (updCore i f s).xfers = s.xfers := (rfl)
@[simp] theorem updCore_xferNext (i : Nat) (f : CoreSt → CoreSt) : (updCore i f s).xferNext = s.xferNext := (rfl)
@[simp] theorem updCore_arbs (i : Nat) (f : CoreSt → CoreSt) : (updCore i f s).arbs = s.arbs := (rfl)
@[simp] theorem updCore_links (i : Nat) (f : CoreSt → CoreSt) : (updCore i f s).links = s.links := (rfl)
@[simp] theorem updCore_group (i : Nat) (f : CoreSt → CoreSt) : (updCore i f s).group = s.group := (rfl)
@[simp] theorem updCore_guard (i : Nat) (f : CoreSt → CoreSt) : (updCore i f s).guard = s.guard := (rfl)
@[simp] theorem updCore_holds (i : Nat) (f : CoreSt → CoreSt) : (updCore i f s).holds = s.holds := (rfl)
@[simp] theorem updCore_power (i : Nat) (f : CoreSt → CoreSt) : (updCore i f s).power = s.power := (rfl)
@[simp] theorem updCore_host (i : Nat) (f : CoreSt → CoreSt) : (updCore i f s).host = s.host := (rfl)
@[simp] theorem updCore_admin (i : Nat) (f : CoreSt → CoreSt) : (updCore i f s).admin = s.admin := (rfl)
@[simp] theorem updCore_hot (i : Nat) (f : CoreSt → CoreSt) : (updCore i f s).hot = s.hot := (rfl)
@[simp] theorem updCore_fresh (i : Nat) (f : CoreSt → CoreSt) : (updCore i f s).fresh = s.fresh := (rfl)

/-! ### updClus -/

@[simp] theorem updClus_pending (n : Nat) (f : ClusterSt → ClusterSt) : (updClus n f s).pending = s.pending := (rfl)
@[simp] theorem updClus_regs (n : Nat) (f : ClusterSt → ClusterSt) : (updClus n f s).regs = s.regs := (rfl)
@[simp] theorem updClus_mem (n : Nat) (f : ClusterSt → ClusterSt) : (updClus n f s).mem = s.mem := (rfl)
@[simp] theorem updClus_time (n : Nat) (f : ClusterSt → ClusterSt) : (updClus n f s).time = s.time := (rfl)
@[simp] theorem updClus_cal (n : Nat) (f : ClusterSt → ClusterSt) : (updClus n f s).cal = s.cal := (rfl)
@[simp] theorem updClus_tenants (n : Nat) (f : ClusterSt → ClusterSt) : (updClus n f s).tenants = s.tenants := (rfl)
@[simp] theorem updClus_devices (n : Nat) (f : ClusterSt → ClusterSt) : (updClus n f s).devices = s.devices := (rfl)
@[simp] theorem updClus_ports (n : Nat) (f : ClusterSt → ClusterSt) : (updClus n f s).ports = s.ports := (rfl)
@[simp] theorem updClus_images (n : Nat) (f : ClusterSt → ClusterSt) : (updClus n f s).images = s.images := (rfl)
@[simp] theorem updClus_pads (n : Nat) (f : ClusterSt → ClusterSt) : (updClus n f s).pads = s.pads := (rfl)
@[simp] theorem updClus_pgOn (n : Nat) (f : ClusterSt → ClusterSt) : (updClus n f s).pgOn = s.pgOn := (rfl)
@[simp] theorem updClus_fifos (n : Nat) (f : ClusterSt → ClusterSt) : (updClus n f s).fifos = s.fifos := (rfl)
@[simp] theorem updClus_chans (n : Nat) (f : ClusterSt → ClusterSt) : (updClus n f s).chans = s.chans := (rfl)
@[simp] theorem updClus_lgroups (n : Nat) (f : ClusterSt → ClusterSt) : (updClus n f s).lgroups = s.lgroups := (rfl)
@[simp] theorem updClus_journal (n : Nat) (f : ClusterSt → ClusterSt) : (updClus n f s).journal = s.journal := (rfl)
@[simp] theorem updClus_cores (n : Nat) (f : ClusterSt → ClusterSt) : (updClus n f s).cores = s.cores := (rfl)
@[simp] theorem updClus_locks (n : Nat) (f : ClusterSt → ClusterSt) : (updClus n f s).locks = s.locks := (rfl)
@[simp] theorem updClus_remote (n : Nat) (f : ClusterSt → ClusterSt) : (updClus n f s).remote = s.remote := (rfl)
@[simp] theorem updClus_delayed (n : Nat) (f : ClusterSt → ClusterSt) : (updClus n f s).delayed = s.delayed := (rfl)
@[simp] theorem updClus_xfers (n : Nat) (f : ClusterSt → ClusterSt) : (updClus n f s).xfers = s.xfers := (rfl)
@[simp] theorem updClus_xferNext (n : Nat) (f : ClusterSt → ClusterSt) : (updClus n f s).xferNext = s.xferNext := (rfl)
@[simp] theorem updClus_arbs (n : Nat) (f : ClusterSt → ClusterSt) : (updClus n f s).arbs = s.arbs := (rfl)
@[simp] theorem updClus_links (n : Nat) (f : ClusterSt → ClusterSt) : (updClus n f s).links = s.links := (rfl)
@[simp] theorem updClus_group (n : Nat) (f : ClusterSt → ClusterSt) : (updClus n f s).group = s.group := (rfl)
@[simp] theorem updClus_guard (n : Nat) (f : ClusterSt → ClusterSt) : (updClus n f s).guard = s.guard := (rfl)
@[simp] theorem updClus_holds (n : Nat) (f : ClusterSt → ClusterSt) : (updClus n f s).holds = s.holds := (rfl)
@[simp] theorem updClus_power (n : Nat) (f : ClusterSt → ClusterSt) : (updClus n f s).power = s.power := (rfl)
@[simp] theorem updClus_host (n : Nat) (f : ClusterSt → ClusterSt) : (updClus n f s).host = s.host := (rfl)
@[simp] theorem updClus_admin (n : Nat) (f : ClusterSt → ClusterSt) : (updClus n f s).admin = s.admin := (rfl)
@[simp] theorem updClus_hot (n : Nat) (f : ClusterSt → ClusterSt) : (updClus n f s).hot = s.hot := (rfl)
@[simp] theorem updClus_fresh (n : Nat) (f : ClusterSt → ClusterSt) : (updClus n f s).fresh = s.fresh := (rfl)

/-! ### updTen -/

@[simp] theorem updTen_pending (n : Nat) (f : TenantSt → TenantSt) : (updTen n f s).pending = s.pending := (rfl)
@[simp] theorem updTen_regs (n : Nat) (f : TenantSt → TenantSt) : (updTen n f s).regs = s.regs := (rfl)
@[simp] theorem updTen_mem (n : Nat) (f : TenantSt → TenantSt) : (updTen n f s).mem = s.mem := (rfl)
@[simp] theorem updTen_time (n : Nat) (f : TenantSt → TenantSt) : (updTen n f s).time = s.time := (rfl)
@[simp] theorem updTen_cal (n : Nat) (f : TenantSt → TenantSt) : (updTen n f s).cal = s.cal := (rfl)
@[simp] theorem updTen_devices (n : Nat) (f : TenantSt → TenantSt) : (updTen n f s).devices = s.devices := (rfl)
@[simp] theorem updTen_ports (n : Nat) (f : TenantSt → TenantSt) : (updTen n f s).ports = s.ports := (rfl)
@[simp] theorem updTen_images (n : Nat) (f : TenantSt → TenantSt) : (updTen n f s).images = s.images := (rfl)
@[simp] theorem updTen_pads (n : Nat) (f : TenantSt → TenantSt) : (updTen n f s).pads = s.pads := (rfl)
@[simp] theorem updTen_pgOn (n : Nat) (f : TenantSt → TenantSt) : (updTen n f s).pgOn = s.pgOn := (rfl)
@[simp] theorem updTen_fifos (n : Nat) (f : TenantSt → TenantSt) : (updTen n f s).fifos = s.fifos := (rfl)
@[simp] theorem updTen_chans (n : Nat) (f : TenantSt → TenantSt) : (updTen n f s).chans = s.chans := (rfl)
@[simp] theorem updTen_lgroups (n : Nat) (f : TenantSt → TenantSt) : (updTen n f s).lgroups = s.lgroups := (rfl)
@[simp] theorem updTen_journal (n : Nat) (f : TenantSt → TenantSt) : (updTen n f s).journal = s.journal := (rfl)
@[simp] theorem updTen_clusters (n : Nat) (f : TenantSt → TenantSt) : (updTen n f s).clusters = s.clusters := (rfl)
@[simp] theorem updTen_cores (n : Nat) (f : TenantSt → TenantSt) : (updTen n f s).cores = s.cores := (rfl)
@[simp] theorem updTen_locks (n : Nat) (f : TenantSt → TenantSt) : (updTen n f s).locks = s.locks := (rfl)
@[simp] theorem updTen_remote (n : Nat) (f : TenantSt → TenantSt) : (updTen n f s).remote = s.remote := (rfl)
@[simp] theorem updTen_delayed (n : Nat) (f : TenantSt → TenantSt) : (updTen n f s).delayed = s.delayed := (rfl)
@[simp] theorem updTen_xfers (n : Nat) (f : TenantSt → TenantSt) : (updTen n f s).xfers = s.xfers := (rfl)
@[simp] theorem updTen_xferNext (n : Nat) (f : TenantSt → TenantSt) : (updTen n f s).xferNext = s.xferNext := (rfl)
@[simp] theorem updTen_arbs (n : Nat) (f : TenantSt → TenantSt) : (updTen n f s).arbs = s.arbs := (rfl)
@[simp] theorem updTen_links (n : Nat) (f : TenantSt → TenantSt) : (updTen n f s).links = s.links := (rfl)
@[simp] theorem updTen_group (n : Nat) (f : TenantSt → TenantSt) : (updTen n f s).group = s.group := (rfl)
@[simp] theorem updTen_guard (n : Nat) (f : TenantSt → TenantSt) : (updTen n f s).guard = s.guard := (rfl)
@[simp] theorem updTen_holds (n : Nat) (f : TenantSt → TenantSt) : (updTen n f s).holds = s.holds := (rfl)
@[simp] theorem updTen_power (n : Nat) (f : TenantSt → TenantSt) : (updTen n f s).power = s.power := (rfl)
@[simp] theorem updTen_host (n : Nat) (f : TenantSt → TenantSt) : (updTen n f s).host = s.host := (rfl)
@[simp] theorem updTen_admin (n : Nat) (f : TenantSt → TenantSt) : (updTen n f s).admin = s.admin := (rfl)
@[simp] theorem updTen_hot (n : Nat) (f : TenantSt → TenantSt) : (updTen n f s).hot = s.hot := (rfl)
@[simp] theorem updTen_fresh (n : Nat) (f : TenantSt → TenantSt) : (updTen n f s).fresh = s.fresh := (rfl)

/-! ### updDev -/

@[simp] theorem updDev_pending (n d : Nat) (f : DeviceSt → DeviceSt) : (updDev n d f s).pending = s.pending := (rfl)
@[simp] theorem updDev_regs (n d : Nat) (f : DeviceSt → DeviceSt) : (updDev n d f s).regs = s.regs := (rfl)
@[simp] theorem updDev_mem (n d : Nat) (f : DeviceSt → DeviceSt) : (updDev n d f s).mem = s.mem := (rfl)
@[simp] theorem updDev_time (n d : Nat) (f : DeviceSt → DeviceSt) : (updDev n d f s).time = s.time := (rfl)
@[simp] theorem updDev_cal (n d : Nat) (f : DeviceSt → DeviceSt) : (updDev n d f s).cal = s.cal := (rfl)
@[simp] theorem updDev_tenants (n d : Nat) (f : DeviceSt → DeviceSt) : (updDev n d f s).tenants = s.tenants := (rfl)
@[simp] theorem updDev_ports (n d : Nat) (f : DeviceSt → DeviceSt) : (updDev n d f s).ports = s.ports := (rfl)
@[simp] theorem updDev_images (n d : Nat) (f : DeviceSt → DeviceSt) : (updDev n d f s).images = s.images := (rfl)
@[simp] theorem updDev_pads (n d : Nat) (f : DeviceSt → DeviceSt) : (updDev n d f s).pads = s.pads := (rfl)
@[simp] theorem updDev_pgOn (n d : Nat) (f : DeviceSt → DeviceSt) : (updDev n d f s).pgOn = s.pgOn := (rfl)
@[simp] theorem updDev_fifos (n d : Nat) (f : DeviceSt → DeviceSt) : (updDev n d f s).fifos = s.fifos := (rfl)
@[simp] theorem updDev_chans (n d : Nat) (f : DeviceSt → DeviceSt) : (updDev n d f s).chans = s.chans := (rfl)
@[simp] theorem updDev_lgroups (n d : Nat) (f : DeviceSt → DeviceSt) : (updDev n d f s).lgroups = s.lgroups := (rfl)
@[simp] theorem updDev_journal (n d : Nat) (f : DeviceSt → DeviceSt) : (updDev n d f s).journal = s.journal := (rfl)
@[simp] theorem updDev_clusters (n d : Nat) (f : DeviceSt → DeviceSt) : (updDev n d f s).clusters = s.clusters := (rfl)
@[simp] theorem updDev_cores (n d : Nat) (f : DeviceSt → DeviceSt) : (updDev n d f s).cores = s.cores := (rfl)
@[simp] theorem updDev_locks (n d : Nat) (f : DeviceSt → DeviceSt) : (updDev n d f s).locks = s.locks := (rfl)
@[simp] theorem updDev_remote (n d : Nat) (f : DeviceSt → DeviceSt) : (updDev n d f s).remote = s.remote := (rfl)
@[simp] theorem updDev_delayed (n d : Nat) (f : DeviceSt → DeviceSt) : (updDev n d f s).delayed = s.delayed := (rfl)
@[simp] theorem updDev_xfers (n d : Nat) (f : DeviceSt → DeviceSt) : (updDev n d f s).xfers = s.xfers := (rfl)
@[simp] theorem updDev_xferNext (n d : Nat) (f : DeviceSt → DeviceSt) : (updDev n d f s).xferNext = s.xferNext := (rfl)
@[simp] theorem updDev_arbs (n d : Nat) (f : DeviceSt → DeviceSt) : (updDev n d f s).arbs = s.arbs := (rfl)
@[simp] theorem updDev_links (n d : Nat) (f : DeviceSt → DeviceSt) : (updDev n d f s).links = s.links := (rfl)
@[simp] theorem updDev_group (n d : Nat) (f : DeviceSt → DeviceSt) : (updDev n d f s).group = s.group := (rfl)
@[simp] theorem updDev_guard (n d : Nat) (f : DeviceSt → DeviceSt) : (updDev n d f s).guard = s.guard := (rfl)
@[simp] theorem updDev_holds (n d : Nat) (f : DeviceSt → DeviceSt) : (updDev n d f s).holds = s.holds := (rfl)
@[simp] theorem updDev_power (n d : Nat) (f : DeviceSt → DeviceSt) : (updDev n d f s).power = s.power := (rfl)
@[simp] theorem updDev_host (n d : Nat) (f : DeviceSt → DeviceSt) : (updDev n d f s).host = s.host := (rfl)
@[simp] theorem updDev_admin (n d : Nat) (f : DeviceSt → DeviceSt) : (updDev n d f s).admin = s.admin := (rfl)
@[simp] theorem updDev_hot (n d : Nat) (f : DeviceSt → DeviceSt) : (updDev n d f s).hot = s.hot := (rfl)
@[simp] theorem updDev_fresh (n d : Nat) (f : DeviceSt → DeviceSt) : (updDev n d f s).fresh = s.fresh := (rfl)

/-! ### updPort -/

@[simp] theorem updPort_pending (n : Nat) (f : PortSt → PortSt) : (updPort n f s).pending = s.pending := (rfl)
@[simp] theorem updPort_regs (n : Nat) (f : PortSt → PortSt) : (updPort n f s).regs = s.regs := (rfl)
@[simp] theorem updPort_mem (n : Nat) (f : PortSt → PortSt) : (updPort n f s).mem = s.mem := (rfl)
@[simp] theorem updPort_time (n : Nat) (f : PortSt → PortSt) : (updPort n f s).time = s.time := (rfl)
@[simp] theorem updPort_cal (n : Nat) (f : PortSt → PortSt) : (updPort n f s).cal = s.cal := (rfl)
@[simp] theorem updPort_tenants (n : Nat) (f : PortSt → PortSt) : (updPort n f s).tenants = s.tenants := (rfl)
@[simp] theorem updPort_devices (n : Nat) (f : PortSt → PortSt) : (updPort n f s).devices = s.devices := (rfl)
@[simp] theorem updPort_images (n : Nat) (f : PortSt → PortSt) : (updPort n f s).images = s.images := (rfl)
@[simp] theorem updPort_pads (n : Nat) (f : PortSt → PortSt) : (updPort n f s).pads = s.pads := (rfl)
@[simp] theorem updPort_pgOn (n : Nat) (f : PortSt → PortSt) : (updPort n f s).pgOn = s.pgOn := (rfl)
@[simp] theorem updPort_fifos (n : Nat) (f : PortSt → PortSt) : (updPort n f s).fifos = s.fifos := (rfl)
@[simp] theorem updPort_chans (n : Nat) (f : PortSt → PortSt) : (updPort n f s).chans = s.chans := (rfl)
@[simp] theorem updPort_lgroups (n : Nat) (f : PortSt → PortSt) : (updPort n f s).lgroups = s.lgroups := (rfl)
@[simp] theorem updPort_journal (n : Nat) (f : PortSt → PortSt) : (updPort n f s).journal = s.journal := (rfl)
@[simp] theorem updPort_clusters (n : Nat) (f : PortSt → PortSt) : (updPort n f s).clusters = s.clusters := (rfl)
@[simp] theorem updPort_cores (n : Nat) (f : PortSt → PortSt) : (updPort n f s).cores = s.cores := (rfl)
@[simp] theorem updPort_locks (n : Nat) (f : PortSt → PortSt) : (updPort n f s).locks = s.locks := (rfl)
@[simp] theorem updPort_remote (n : Nat) (f : PortSt → PortSt) : (updPort n f s).remote = s.remote := (rfl)
@[simp] theorem updPort_delayed (n : Nat) (f : PortSt → PortSt) : (updPort n f s).delayed = s.delayed := (rfl)
@[simp] theorem updPort_xfers (n : Nat) (f : PortSt → PortSt) : (updPort n f s).xfers = s.xfers := (rfl)
@[simp] theorem updPort_xferNext (n : Nat) (f : PortSt → PortSt) : (updPort n f s).xferNext = s.xferNext := (rfl)
@[simp] theorem updPort_arbs (n : Nat) (f : PortSt → PortSt) : (updPort n f s).arbs = s.arbs := (rfl)
@[simp] theorem updPort_links (n : Nat) (f : PortSt → PortSt) : (updPort n f s).links = s.links := (rfl)
@[simp] theorem updPort_group (n : Nat) (f : PortSt → PortSt) : (updPort n f s).group = s.group := (rfl)
@[simp] theorem updPort_guard (n : Nat) (f : PortSt → PortSt) : (updPort n f s).guard = s.guard := (rfl)
@[simp] theorem updPort_holds (n : Nat) (f : PortSt → PortSt) : (updPort n f s).holds = s.holds := (rfl)
@[simp] theorem updPort_power (n : Nat) (f : PortSt → PortSt) : (updPort n f s).power = s.power := (rfl)
@[simp] theorem updPort_host (n : Nat) (f : PortSt → PortSt) : (updPort n f s).host = s.host := (rfl)
@[simp] theorem updPort_admin (n : Nat) (f : PortSt → PortSt) : (updPort n f s).admin = s.admin := (rfl)
@[simp] theorem updPort_hot (n : Nat) (f : PortSt → PortSt) : (updPort n f s).hot = s.hot := (rfl)
@[simp] theorem updPort_fresh (n : Nat) (f : PortSt → PortSt) : (updPort n f s).fresh = s.fresh := (rfl)

/-! ### updPad -/

@[simp] theorem updPad_pending (n : Nat) (f : PadSt → PadSt) : (updPad n f s).pending = s.pending := (rfl)
@[simp] theorem updPad_regs (n : Nat) (f : PadSt → PadSt) : (updPad n f s).regs = s.regs := (rfl)
@[simp] theorem updPad_mem (n : Nat) (f : PadSt → PadSt) : (updPad n f s).mem = s.mem := (rfl)
@[simp] theorem updPad_time (n : Nat) (f : PadSt → PadSt) : (updPad n f s).time = s.time := (rfl)
@[simp] theorem updPad_cal (n : Nat) (f : PadSt → PadSt) : (updPad n f s).cal = s.cal := (rfl)
@[simp] theorem updPad_tenants (n : Nat) (f : PadSt → PadSt) : (updPad n f s).tenants = s.tenants := (rfl)
@[simp] theorem updPad_devices (n : Nat) (f : PadSt → PadSt) : (updPad n f s).devices = s.devices := (rfl)
@[simp] theorem updPad_ports (n : Nat) (f : PadSt → PadSt) : (updPad n f s).ports = s.ports := (rfl)
@[simp] theorem updPad_images (n : Nat) (f : PadSt → PadSt) : (updPad n f s).images = s.images := (rfl)
@[simp] theorem updPad_pgOn (n : Nat) (f : PadSt → PadSt) : (updPad n f s).pgOn = s.pgOn := (rfl)
@[simp] theorem updPad_fifos (n : Nat) (f : PadSt → PadSt) : (updPad n f s).fifos = s.fifos := (rfl)
@[simp] theorem updPad_chans (n : Nat) (f : PadSt → PadSt) : (updPad n f s).chans = s.chans := (rfl)
@[simp] theorem updPad_lgroups (n : Nat) (f : PadSt → PadSt) : (updPad n f s).lgroups = s.lgroups := (rfl)
@[simp] theorem updPad_journal (n : Nat) (f : PadSt → PadSt) : (updPad n f s).journal = s.journal := (rfl)
@[simp] theorem updPad_clusters (n : Nat) (f : PadSt → PadSt) : (updPad n f s).clusters = s.clusters := (rfl)
@[simp] theorem updPad_cores (n : Nat) (f : PadSt → PadSt) : (updPad n f s).cores = s.cores := (rfl)
@[simp] theorem updPad_locks (n : Nat) (f : PadSt → PadSt) : (updPad n f s).locks = s.locks := (rfl)
@[simp] theorem updPad_remote (n : Nat) (f : PadSt → PadSt) : (updPad n f s).remote = s.remote := (rfl)
@[simp] theorem updPad_delayed (n : Nat) (f : PadSt → PadSt) : (updPad n f s).delayed = s.delayed := (rfl)
@[simp] theorem updPad_xfers (n : Nat) (f : PadSt → PadSt) : (updPad n f s).xfers = s.xfers := (rfl)
@[simp] theorem updPad_xferNext (n : Nat) (f : PadSt → PadSt) : (updPad n f s).xferNext = s.xferNext := (rfl)
@[simp] theorem updPad_arbs (n : Nat) (f : PadSt → PadSt) : (updPad n f s).arbs = s.arbs := (rfl)
@[simp] theorem updPad_links (n : Nat) (f : PadSt → PadSt) : (updPad n f s).links = s.links := (rfl)
@[simp] theorem updPad_group (n : Nat) (f : PadSt → PadSt) : (updPad n f s).group = s.group := (rfl)
@[simp] theorem updPad_guard (n : Nat) (f : PadSt → PadSt) : (updPad n f s).guard = s.guard := (rfl)
@[simp] theorem updPad_holds (n : Nat) (f : PadSt → PadSt) : (updPad n f s).holds = s.holds := (rfl)
@[simp] theorem updPad_power (n : Nat) (f : PadSt → PadSt) : (updPad n f s).power = s.power := (rfl)
@[simp] theorem updPad_host (n : Nat) (f : PadSt → PadSt) : (updPad n f s).host = s.host := (rfl)
@[simp] theorem updPad_admin (n : Nat) (f : PadSt → PadSt) : (updPad n f s).admin = s.admin := (rfl)
@[simp] theorem updPad_hot (n : Nat) (f : PadSt → PadSt) : (updPad n f s).hot = s.hot := (rfl)
@[simp] theorem updPad_fresh (n : Nat) (f : PadSt → PadSt) : (updPad n f s).fresh = s.fresh := (rfl)

/-! ### updFifo -/

@[simp] theorem updFifo_pending (n : Nat) (f : FifoSt → FifoSt) : (updFifo n f s).pending = s.pending := (rfl)
@[simp] theorem updFifo_regs (n : Nat) (f : FifoSt → FifoSt) : (updFifo n f s).regs = s.regs := (rfl)
@[simp] theorem updFifo_mem (n : Nat) (f : FifoSt → FifoSt) : (updFifo n f s).mem = s.mem := (rfl)
@[simp] theorem updFifo_time (n : Nat) (f : FifoSt → FifoSt) : (updFifo n f s).time = s.time := (rfl)
@[simp] theorem updFifo_cal (n : Nat) (f : FifoSt → FifoSt) : (updFifo n f s).cal = s.cal := (rfl)
@[simp] theorem updFifo_tenants (n : Nat) (f : FifoSt → FifoSt) : (updFifo n f s).tenants = s.tenants := (rfl)
@[simp] theorem updFifo_devices (n : Nat) (f : FifoSt → FifoSt) : (updFifo n f s).devices = s.devices := (rfl)
@[simp] theorem updFifo_ports (n : Nat) (f : FifoSt → FifoSt) : (updFifo n f s).ports = s.ports := (rfl)
@[simp] theorem updFifo_images (n : Nat) (f : FifoSt → FifoSt) : (updFifo n f s).images = s.images := (rfl)
@[simp] theorem updFifo_pads (n : Nat) (f : FifoSt → FifoSt) : (updFifo n f s).pads = s.pads := (rfl)
@[simp] theorem updFifo_pgOn (n : Nat) (f : FifoSt → FifoSt) : (updFifo n f s).pgOn = s.pgOn := (rfl)
@[simp] theorem updFifo_chans (n : Nat) (f : FifoSt → FifoSt) : (updFifo n f s).chans = s.chans := (rfl)
@[simp] theorem updFifo_lgroups (n : Nat) (f : FifoSt → FifoSt) : (updFifo n f s).lgroups = s.lgroups := (rfl)
@[simp] theorem updFifo_journal (n : Nat) (f : FifoSt → FifoSt) : (updFifo n f s).journal = s.journal := (rfl)
@[simp] theorem updFifo_clusters (n : Nat) (f : FifoSt → FifoSt) : (updFifo n f s).clusters = s.clusters := (rfl)
@[simp] theorem updFifo_cores (n : Nat) (f : FifoSt → FifoSt) : (updFifo n f s).cores = s.cores := (rfl)
@[simp] theorem updFifo_locks (n : Nat) (f : FifoSt → FifoSt) : (updFifo n f s).locks = s.locks := (rfl)
@[simp] theorem updFifo_remote (n : Nat) (f : FifoSt → FifoSt) : (updFifo n f s).remote = s.remote := (rfl)
@[simp] theorem updFifo_delayed (n : Nat) (f : FifoSt → FifoSt) : (updFifo n f s).delayed = s.delayed := (rfl)
@[simp] theorem updFifo_xfers (n : Nat) (f : FifoSt → FifoSt) : (updFifo n f s).xfers = s.xfers := (rfl)
@[simp] theorem updFifo_xferNext (n : Nat) (f : FifoSt → FifoSt) : (updFifo n f s).xferNext = s.xferNext := (rfl)
@[simp] theorem updFifo_arbs (n : Nat) (f : FifoSt → FifoSt) : (updFifo n f s).arbs = s.arbs := (rfl)
@[simp] theorem updFifo_links (n : Nat) (f : FifoSt → FifoSt) : (updFifo n f s).links = s.links := (rfl)
@[simp] theorem updFifo_group (n : Nat) (f : FifoSt → FifoSt) : (updFifo n f s).group = s.group := (rfl)
@[simp] theorem updFifo_guard (n : Nat) (f : FifoSt → FifoSt) : (updFifo n f s).guard = s.guard := (rfl)
@[simp] theorem updFifo_holds (n : Nat) (f : FifoSt → FifoSt) : (updFifo n f s).holds = s.holds := (rfl)
@[simp] theorem updFifo_power (n : Nat) (f : FifoSt → FifoSt) : (updFifo n f s).power = s.power := (rfl)
@[simp] theorem updFifo_host (n : Nat) (f : FifoSt → FifoSt) : (updFifo n f s).host = s.host := (rfl)
@[simp] theorem updFifo_admin (n : Nat) (f : FifoSt → FifoSt) : (updFifo n f s).admin = s.admin := (rfl)
@[simp] theorem updFifo_hot (n : Nat) (f : FifoSt → FifoSt) : (updFifo n f s).hot = s.hot := (rfl)
@[simp] theorem updFifo_fresh (n : Nat) (f : FifoSt → FifoSt) : (updFifo n f s).fresh = s.fresh := (rfl)

/-! ### updChan -/

@[simp] theorem updChan_pending (n : Nat) (f : ChanSt → ChanSt) : (updChan n f s).pending = s.pending := (rfl)
@[simp] theorem updChan_regs (n : Nat) (f : ChanSt → ChanSt) : (updChan n f s).regs = s.regs := (rfl)
@[simp] theorem updChan_mem (n : Nat) (f : ChanSt → ChanSt) : (updChan n f s).mem = s.mem := (rfl)
@[simp] theorem updChan_time (n : Nat) (f : ChanSt → ChanSt) : (updChan n f s).time = s.time := (rfl)
@[simp] theorem updChan_cal (n : Nat) (f : ChanSt → ChanSt) : (updChan n f s).cal = s.cal := (rfl)
@[simp] theorem updChan_tenants (n : Nat) (f : ChanSt → ChanSt) : (updChan n f s).tenants = s.tenants := (rfl)
@[simp] theorem updChan_devices (n : Nat) (f : ChanSt → ChanSt) : (updChan n f s).devices = s.devices := (rfl)
@[simp] theorem updChan_ports (n : Nat) (f : ChanSt → ChanSt) : (updChan n f s).ports = s.ports := (rfl)
@[simp] theorem updChan_images (n : Nat) (f : ChanSt → ChanSt) : (updChan n f s).images = s.images := (rfl)
@[simp] theorem updChan_pads (n : Nat) (f : ChanSt → ChanSt) : (updChan n f s).pads = s.pads := (rfl)
@[simp] theorem updChan_pgOn (n : Nat) (f : ChanSt → ChanSt) : (updChan n f s).pgOn = s.pgOn := (rfl)
@[simp] theorem updChan_fifos (n : Nat) (f : ChanSt → ChanSt) : (updChan n f s).fifos = s.fifos := (rfl)
@[simp] theorem updChan_lgroups (n : Nat) (f : ChanSt → ChanSt) : (updChan n f s).lgroups = s.lgroups := (rfl)
@[simp] theorem updChan_journal (n : Nat) (f : ChanSt → ChanSt) : (updChan n f s).journal = s.journal := (rfl)
@[simp] theorem updChan_clusters (n : Nat) (f : ChanSt → ChanSt) : (updChan n f s).clusters = s.clusters := (rfl)
@[simp] theorem updChan_cores (n : Nat) (f : ChanSt → ChanSt) : (updChan n f s).cores = s.cores := (rfl)
@[simp] theorem updChan_locks (n : Nat) (f : ChanSt → ChanSt) : (updChan n f s).locks = s.locks := (rfl)
@[simp] theorem updChan_remote (n : Nat) (f : ChanSt → ChanSt) : (updChan n f s).remote = s.remote := (rfl)
@[simp] theorem updChan_delayed (n : Nat) (f : ChanSt → ChanSt) : (updChan n f s).delayed = s.delayed := (rfl)
@[simp] theorem updChan_xfers (n : Nat) (f : ChanSt → ChanSt) : (updChan n f s).xfers = s.xfers := (rfl)
@[simp] theorem updChan_xferNext (n : Nat) (f : ChanSt → ChanSt) : (updChan n f s).xferNext = s.xferNext := (rfl)
@[simp] theorem updChan_arbs (n : Nat) (f : ChanSt → ChanSt) : (updChan n f s).arbs = s.arbs := (rfl)
@[simp] theorem updChan_links (n : Nat) (f : ChanSt → ChanSt) : (updChan n f s).links = s.links := (rfl)
@[simp] theorem updChan_group (n : Nat) (f : ChanSt → ChanSt) : (updChan n f s).group = s.group := (rfl)
@[simp] theorem updChan_guard (n : Nat) (f : ChanSt → ChanSt) : (updChan n f s).guard = s.guard := (rfl)
@[simp] theorem updChan_holds (n : Nat) (f : ChanSt → ChanSt) : (updChan n f s).holds = s.holds := (rfl)
@[simp] theorem updChan_power (n : Nat) (f : ChanSt → ChanSt) : (updChan n f s).power = s.power := (rfl)
@[simp] theorem updChan_host (n : Nat) (f : ChanSt → ChanSt) : (updChan n f s).host = s.host := (rfl)
@[simp] theorem updChan_admin (n : Nat) (f : ChanSt → ChanSt) : (updChan n f s).admin = s.admin := (rfl)
@[simp] theorem updChan_hot (n : Nat) (f : ChanSt → ChanSt) : (updChan n f s).hot = s.hot := (rfl)
@[simp] theorem updChan_fresh (n : Nat) (f : ChanSt → ChanSt) : (updChan n f s).fresh = s.fresh := (rfl)

/-! ### updLGroup -/

@[simp] theorem updLGroup_pending (n : Nat) (f : LGroupSt → LGroupSt) : (updLGroup n f s).pending = s.pending := (rfl)
@[simp] theorem updLGroup_regs (n : Nat) (f : LGroupSt → LGroupSt) : (updLGroup n f s).regs = s.regs := (rfl)
@[simp] theorem updLGroup_mem (n : Nat) (f : LGroupSt → LGroupSt) : (updLGroup n f s).mem = s.mem := (rfl)
@[simp] theorem updLGroup_time (n : Nat) (f : LGroupSt → LGroupSt) : (updLGroup n f s).time = s.time := (rfl)
@[simp] theorem updLGroup_cal (n : Nat) (f : LGroupSt → LGroupSt) : (updLGroup n f s).cal = s.cal := (rfl)
@[simp] theorem updLGroup_tenants (n : Nat) (f : LGroupSt → LGroupSt) : (updLGroup n f s).tenants = s.tenants := (rfl)
@[simp] theorem updLGroup_devices (n : Nat) (f : LGroupSt → LGroupSt) : (updLGroup n f s).devices = s.devices := (rfl)
@[simp] theorem updLGroup_ports (n : Nat) (f : LGroupSt → LGroupSt) : (updLGroup n f s).ports = s.ports := (rfl)
@[simp] theorem updLGroup_images (n : Nat) (f : LGroupSt → LGroupSt) : (updLGroup n f s).images = s.images := (rfl)
@[simp] theorem updLGroup_pads (n : Nat) (f : LGroupSt → LGroupSt) : (updLGroup n f s).pads = s.pads := (rfl)
@[simp] theorem updLGroup_pgOn (n : Nat) (f : LGroupSt → LGroupSt) : (updLGroup n f s).pgOn = s.pgOn := (rfl)
@[simp] theorem updLGroup_fifos (n : Nat) (f : LGroupSt → LGroupSt) : (updLGroup n f s).fifos = s.fifos := (rfl)
@[simp] theorem updLGroup_chans (n : Nat) (f : LGroupSt → LGroupSt) : (updLGroup n f s).chans = s.chans := (rfl)
@[simp] theorem updLGroup_journal (n : Nat) (f : LGroupSt → LGroupSt) : (updLGroup n f s).journal = s.journal := (rfl)
@[simp] theorem updLGroup_clusters (n : Nat) (f : LGroupSt → LGroupSt) : (updLGroup n f s).clusters = s.clusters := (rfl)
@[simp] theorem updLGroup_cores (n : Nat) (f : LGroupSt → LGroupSt) : (updLGroup n f s).cores = s.cores := (rfl)
@[simp] theorem updLGroup_locks (n : Nat) (f : LGroupSt → LGroupSt) : (updLGroup n f s).locks = s.locks := (rfl)
@[simp] theorem updLGroup_remote (n : Nat) (f : LGroupSt → LGroupSt) : (updLGroup n f s).remote = s.remote := (rfl)
@[simp] theorem updLGroup_delayed (n : Nat) (f : LGroupSt → LGroupSt) : (updLGroup n f s).delayed = s.delayed := (rfl)
@[simp] theorem updLGroup_xfers (n : Nat) (f : LGroupSt → LGroupSt) : (updLGroup n f s).xfers = s.xfers := (rfl)
@[simp] theorem updLGroup_xferNext (n : Nat) (f : LGroupSt → LGroupSt) : (updLGroup n f s).xferNext = s.xferNext := (rfl)
@[simp] theorem updLGroup_arbs (n : Nat) (f : LGroupSt → LGroupSt) : (updLGroup n f s).arbs = s.arbs := (rfl)
@[simp] theorem updLGroup_links (n : Nat) (f : LGroupSt → LGroupSt) : (updLGroup n f s).links = s.links := (rfl)
@[simp] theorem updLGroup_group (n : Nat) (f : LGroupSt → LGroupSt) : (updLGroup n f s).group = s.group := (rfl)
@[simp] theorem updLGroup_guard (n : Nat) (f : LGroupSt → LGroupSt) : (updLGroup n f s).guard = s.guard := (rfl)
@[simp] theorem updLGroup_holds (n : Nat) (f : LGroupSt → LGroupSt) : (updLGroup n f s).holds = s.holds := (rfl)
@[simp] theorem updLGroup_power (n : Nat) (f : LGroupSt → LGroupSt) : (updLGroup n f s).power = s.power := (rfl)
@[simp] theorem updLGroup_host (n : Nat) (f : LGroupSt → LGroupSt) : (updLGroup n f s).host = s.host := (rfl)
@[simp] theorem updLGroup_admin (n : Nat) (f : LGroupSt → LGroupSt) : (updLGroup n f s).admin = s.admin := (rfl)
@[simp] theorem updLGroup_hot (n : Nat) (f : LGroupSt → LGroupSt) : (updLGroup n f s).hot = s.hot := (rfl)
@[simp] theorem updLGroup_fresh (n : Nat) (f : LGroupSt → LGroupSt) : (updLGroup n f s).fresh = s.fresh := (rfl)

/-! ### updDrn -/

@[simp] theorem updDrn_pending (n : Nat) (f : DrnSt → DrnSt) : (updDrn n f s).pending = s.pending := (rfl)
@[simp] theorem updDrn_regs (n : Nat) (f : DrnSt → DrnSt) : (updDrn n f s).regs = s.regs := (rfl)
@[simp] theorem updDrn_mem (n : Nat) (f : DrnSt → DrnSt) : (updDrn n f s).mem = s.mem := (rfl)
@[simp] theorem updDrn_time (n : Nat) (f : DrnSt → DrnSt) : (updDrn n f s).time = s.time := (rfl)
@[simp] theorem updDrn_cal (n : Nat) (f : DrnSt → DrnSt) : (updDrn n f s).cal = s.cal := (rfl)
@[simp] theorem updDrn_tenants (n : Nat) (f : DrnSt → DrnSt) : (updDrn n f s).tenants = s.tenants := (rfl)
@[simp] theorem updDrn_devices (n : Nat) (f : DrnSt → DrnSt) : (updDrn n f s).devices = s.devices := (rfl)
@[simp] theorem updDrn_ports (n : Nat) (f : DrnSt → DrnSt) : (updDrn n f s).ports = s.ports := (rfl)
@[simp] theorem updDrn_images (n : Nat) (f : DrnSt → DrnSt) : (updDrn n f s).images = s.images := (rfl)
@[simp] theorem updDrn_pads (n : Nat) (f : DrnSt → DrnSt) : (updDrn n f s).pads = s.pads := (rfl)
@[simp] theorem updDrn_pgOn (n : Nat) (f : DrnSt → DrnSt) : (updDrn n f s).pgOn = s.pgOn := (rfl)
@[simp] theorem updDrn_fifos (n : Nat) (f : DrnSt → DrnSt) : (updDrn n f s).fifos = s.fifos := (rfl)
@[simp] theorem updDrn_chans (n : Nat) (f : DrnSt → DrnSt) : (updDrn n f s).chans = s.chans := (rfl)
@[simp] theorem updDrn_lgroups (n : Nat) (f : DrnSt → DrnSt) : (updDrn n f s).lgroups = s.lgroups := (rfl)
@[simp] theorem updDrn_journal (n : Nat) (f : DrnSt → DrnSt) : (updDrn n f s).journal = s.journal := (rfl)
@[simp] theorem updDrn_clusters (n : Nat) (f : DrnSt → DrnSt) : (updDrn n f s).clusters = s.clusters := (rfl)
@[simp] theorem updDrn_cores (n : Nat) (f : DrnSt → DrnSt) : (updDrn n f s).cores = s.cores := (rfl)
@[simp] theorem updDrn_locks (n : Nat) (f : DrnSt → DrnSt) : (updDrn n f s).locks = s.locks := (rfl)
@[simp] theorem updDrn_remote (n : Nat) (f : DrnSt → DrnSt) : (updDrn n f s).remote = s.remote := (rfl)
@[simp] theorem updDrn_delayed (n : Nat) (f : DrnSt → DrnSt) : (updDrn n f s).delayed = s.delayed := (rfl)
@[simp] theorem updDrn_xfers (n : Nat) (f : DrnSt → DrnSt) : (updDrn n f s).xfers = s.xfers := (rfl)
@[simp] theorem updDrn_xferNext (n : Nat) (f : DrnSt → DrnSt) : (updDrn n f s).xferNext = s.xferNext := (rfl)
@[simp] theorem updDrn_arbs (n : Nat) (f : DrnSt → DrnSt) : (updDrn n f s).arbs = s.arbs := (rfl)
@[simp] theorem updDrn_group (n : Nat) (f : DrnSt → DrnSt) : (updDrn n f s).group = s.group := (rfl)
@[simp] theorem updDrn_guard (n : Nat) (f : DrnSt → DrnSt) : (updDrn n f s).guard = s.guard := (rfl)
@[simp] theorem updDrn_holds (n : Nat) (f : DrnSt → DrnSt) : (updDrn n f s).holds = s.holds := (rfl)
@[simp] theorem updDrn_power (n : Nat) (f : DrnSt → DrnSt) : (updDrn n f s).power = s.power := (rfl)
@[simp] theorem updDrn_host (n : Nat) (f : DrnSt → DrnSt) : (updDrn n f s).host = s.host := (rfl)
@[simp] theorem updDrn_admin (n : Nat) (f : DrnSt → DrnSt) : (updDrn n f s).admin = s.admin := (rfl)
@[simp] theorem updDrn_hot (n : Nat) (f : DrnSt → DrnSt) : (updDrn n f s).hot = s.hot := (rfl)
@[simp] theorem updDrn_fresh (n : Nat) (f : DrnSt → DrnSt) : (updDrn n f s).fresh = s.fresh := (rfl)

/-! ### updPwrCl -/

@[simp] theorem updPwrCl_pending (n : Nat) (f : PwrCl → PwrCl) : (updPwrCl n f s).pending = s.pending := (rfl)
@[simp] theorem updPwrCl_regs (n : Nat) (f : PwrCl → PwrCl) : (updPwrCl n f s).regs = s.regs := (rfl)
@[simp] theorem updPwrCl_mem (n : Nat) (f : PwrCl → PwrCl) : (updPwrCl n f s).mem = s.mem := (rfl)
@[simp] theorem updPwrCl_time (n : Nat) (f : PwrCl → PwrCl) : (updPwrCl n f s).time = s.time := (rfl)
@[simp] theorem updPwrCl_cal (n : Nat) (f : PwrCl → PwrCl) : (updPwrCl n f s).cal = s.cal := (rfl)
@[simp] theorem updPwrCl_tenants (n : Nat) (f : PwrCl → PwrCl) : (updPwrCl n f s).tenants = s.tenants := (rfl)
@[simp] theorem updPwrCl_devices (n : Nat) (f : PwrCl → PwrCl) : (updPwrCl n f s).devices = s.devices := (rfl)
@[simp] theorem updPwrCl_ports (n : Nat) (f : PwrCl → PwrCl) : (updPwrCl n f s).ports = s.ports := (rfl)
@[simp] theorem updPwrCl_images (n : Nat) (f : PwrCl → PwrCl) : (updPwrCl n f s).images = s.images := (rfl)
@[simp] theorem updPwrCl_pads (n : Nat) (f : PwrCl → PwrCl) : (updPwrCl n f s).pads = s.pads := (rfl)
@[simp] theorem updPwrCl_pgOn (n : Nat) (f : PwrCl → PwrCl) : (updPwrCl n f s).pgOn = s.pgOn := (rfl)
@[simp] theorem updPwrCl_fifos (n : Nat) (f : PwrCl → PwrCl) : (updPwrCl n f s).fifos = s.fifos := (rfl)
@[simp] theorem updPwrCl_chans (n : Nat) (f : PwrCl → PwrCl) : (updPwrCl n f s).chans = s.chans := (rfl)
@[simp] theorem updPwrCl_lgroups (n : Nat) (f : PwrCl → PwrCl) : (updPwrCl n f s).lgroups = s.lgroups := (rfl)
@[simp] theorem updPwrCl_journal (n : Nat) (f : PwrCl → PwrCl) : (updPwrCl n f s).journal = s.journal := (rfl)
@[simp] theorem updPwrCl_clusters (n : Nat) (f : PwrCl → PwrCl) : (updPwrCl n f s).clusters = s.clusters := (rfl)
@[simp] theorem updPwrCl_cores (n : Nat) (f : PwrCl → PwrCl) : (updPwrCl n f s).cores = s.cores := (rfl)
@[simp] theorem updPwrCl_locks (n : Nat) (f : PwrCl → PwrCl) : (updPwrCl n f s).locks = s.locks := (rfl)
@[simp] theorem updPwrCl_remote (n : Nat) (f : PwrCl → PwrCl) : (updPwrCl n f s).remote = s.remote := (rfl)
@[simp] theorem updPwrCl_delayed (n : Nat) (f : PwrCl → PwrCl) : (updPwrCl n f s).delayed = s.delayed := (rfl)
@[simp] theorem updPwrCl_xfers (n : Nat) (f : PwrCl → PwrCl) : (updPwrCl n f s).xfers = s.xfers := (rfl)
@[simp] theorem updPwrCl_xferNext (n : Nat) (f : PwrCl → PwrCl) : (updPwrCl n f s).xferNext = s.xferNext := (rfl)
@[simp] theorem updPwrCl_arbs (n : Nat) (f : PwrCl → PwrCl) : (updPwrCl n f s).arbs = s.arbs := (rfl)
@[simp] theorem updPwrCl_links (n : Nat) (f : PwrCl → PwrCl) : (updPwrCl n f s).links = s.links := (rfl)
@[simp] theorem updPwrCl_group (n : Nat) (f : PwrCl → PwrCl) : (updPwrCl n f s).group = s.group := (rfl)
@[simp] theorem updPwrCl_guard (n : Nat) (f : PwrCl → PwrCl) : (updPwrCl n f s).guard = s.guard := (rfl)
@[simp] theorem updPwrCl_holds (n : Nat) (f : PwrCl → PwrCl) : (updPwrCl n f s).holds = s.holds := (rfl)
@[simp] theorem updPwrCl_host (n : Nat) (f : PwrCl → PwrCl) : (updPwrCl n f s).host = s.host := (rfl)
@[simp] theorem updPwrCl_admin (n : Nat) (f : PwrCl → PwrCl) : (updPwrCl n f s).admin = s.admin := (rfl)
@[simp] theorem updPwrCl_hot (n : Nat) (f : PwrCl → PwrCl) : (updPwrCl n f s).hot = s.hot := (rfl)
@[simp] theorem updPwrCl_fresh (n : Nat) (f : PwrCl → PwrCl) : (updPwrCl n f s).fresh = s.fresh := (rfl)

/-! ### updHost -/

@[simp] theorem updHost_pending (f : HostSt → HostSt) : (updHost f s).pending = s.pending := (rfl)
@[simp] theorem updHost_regs (f : HostSt → HostSt) : (updHost f s).regs = s.regs := (rfl)
@[simp] theorem updHost_mem (f : HostSt → HostSt) : (updHost f s).mem = s.mem := (rfl)
@[simp] theorem updHost_time (f : HostSt → HostSt) : (updHost f s).time = s.time := (rfl)
@[simp] theorem updHost_cal (f : HostSt → HostSt) : (updHost f s).cal = s.cal := (rfl)
@[simp] theorem updHost_tenants (f : HostSt → HostSt) : (updHost f s).tenants = s.tenants := (rfl)
@[simp] theorem updHost_devices (f : HostSt → HostSt) : (updHost f s).devices = s.devices := (rfl)
@[simp] theorem updHost_ports (f : HostSt → HostSt) : (updHost f s).ports = s.ports := (rfl)
@[simp] theorem updHost_images (f : HostSt → HostSt) : (updHost f s).images = s.images := (rfl)
@[simp] theorem updHost_pads (f : HostSt → HostSt) : (updHost f s).pads = s.pads := (rfl)
@[simp] theorem updHost_pgOn (f : HostSt → HostSt) : (updHost f s).pgOn = s.pgOn := (rfl)
@[simp] theorem updHost_fifos (f : HostSt → HostSt) : (updHost f s).fifos = s.fifos := (rfl)
@[simp] theorem updHost_chans (f : HostSt → HostSt) : (updHost f s).chans = s.chans := (rfl)
@[simp] theorem updHost_lgroups (f : HostSt → HostSt) : (updHost f s).lgroups = s.lgroups := (rfl)
@[simp] theorem updHost_journal (f : HostSt → HostSt) : (updHost f s).journal = s.journal := (rfl)
@[simp] theorem updHost_clusters (f : HostSt → HostSt) : (updHost f s).clusters = s.clusters := (rfl)
@[simp] theorem updHost_cores (f : HostSt → HostSt) : (updHost f s).cores = s.cores := (rfl)
@[simp] theorem updHost_locks (f : HostSt → HostSt) : (updHost f s).locks = s.locks := (rfl)
@[simp] theorem updHost_remote (f : HostSt → HostSt) : (updHost f s).remote = s.remote := (rfl)
@[simp] theorem updHost_delayed (f : HostSt → HostSt) : (updHost f s).delayed = s.delayed := (rfl)
@[simp] theorem updHost_xfers (f : HostSt → HostSt) : (updHost f s).xfers = s.xfers := (rfl)
@[simp] theorem updHost_xferNext (f : HostSt → HostSt) : (updHost f s).xferNext = s.xferNext := (rfl)
@[simp] theorem updHost_arbs (f : HostSt → HostSt) : (updHost f s).arbs = s.arbs := (rfl)
@[simp] theorem updHost_links (f : HostSt → HostSt) : (updHost f s).links = s.links := (rfl)
@[simp] theorem updHost_group (f : HostSt → HostSt) : (updHost f s).group = s.group := (rfl)
@[simp] theorem updHost_guard (f : HostSt → HostSt) : (updHost f s).guard = s.guard := (rfl)
@[simp] theorem updHost_holds (f : HostSt → HostSt) : (updHost f s).holds = s.holds := (rfl)
@[simp] theorem updHost_power (f : HostSt → HostSt) : (updHost f s).power = s.power := (rfl)
@[simp] theorem updHost_admin (f : HostSt → HostSt) : (updHost f s).admin = s.admin := (rfl)
@[simp] theorem updHost_hot (f : HostSt → HostSt) : (updHost f s).hot = s.hot := (rfl)
@[simp] theorem updHost_fresh (f : HostSt → HostSt) : (updHost f s).fresh = s.fresh := (rfl)

/-! ### updGuard -/

@[simp] theorem updGuard_pending (f : GuardSt → GuardSt) : (updGuard f s).pending = s.pending := (rfl)
@[simp] theorem updGuard_regs (f : GuardSt → GuardSt) : (updGuard f s).regs = s.regs := (rfl)
@[simp] theorem updGuard_mem (f : GuardSt → GuardSt) : (updGuard f s).mem = s.mem := (rfl)
@[simp] theorem updGuard_time (f : GuardSt → GuardSt) : (updGuard f s).time = s.time := (rfl)
@[simp] theorem updGuard_cal (f : GuardSt → GuardSt) : (updGuard f s).cal = s.cal := (rfl)
@[simp] theorem updGuard_tenants (f : GuardSt → GuardSt) : (updGuard f s).tenants = s.tenants := (rfl)
@[simp] theorem updGuard_devices (f : GuardSt → GuardSt) : (updGuard f s).devices = s.devices := (rfl)
@[simp] theorem updGuard_ports (f : GuardSt → GuardSt) : (updGuard f s).ports = s.ports := (rfl)
@[simp] theorem updGuard_images (f : GuardSt → GuardSt) : (updGuard f s).images = s.images := (rfl)
@[simp] theorem updGuard_pads (f : GuardSt → GuardSt) : (updGuard f s).pads = s.pads := (rfl)
@[simp] theorem updGuard_pgOn (f : GuardSt → GuardSt) : (updGuard f s).pgOn = s.pgOn := (rfl)
@[simp] theorem updGuard_fifos (f : GuardSt → GuardSt) : (updGuard f s).fifos = s.fifos := (rfl)
@[simp] theorem updGuard_chans (f : GuardSt → GuardSt) : (updGuard f s).chans = s.chans := (rfl)
@[simp] theorem updGuard_lgroups (f : GuardSt → GuardSt) : (updGuard f s).lgroups = s.lgroups := (rfl)
@[simp] theorem updGuard_journal (f : GuardSt → GuardSt) : (updGuard f s).journal = s.journal := (rfl)
@[simp] theorem updGuard_clusters (f : GuardSt → GuardSt) : (updGuard f s).clusters = s.clusters := (rfl)
@[simp] theorem updGuard_cores (f : GuardSt → GuardSt) : (updGuard f s).cores = s.cores := (rfl)
@[simp] theorem updGuard_locks (f : GuardSt → GuardSt) : (updGuard f s).locks = s.locks := (rfl)
@[simp] theorem updGuard_remote (f : GuardSt → GuardSt) : (updGuard f s).remote = s.remote := (rfl)
@[simp] theorem updGuard_delayed (f : GuardSt → GuardSt) : (updGuard f s).delayed = s.delayed := (rfl)
@[simp] theorem updGuard_xfers (f : GuardSt → GuardSt) : (updGuard f s).xfers = s.xfers := (rfl)
@[simp] theorem updGuard_xferNext (f : GuardSt → GuardSt) : (updGuard f s).xferNext = s.xferNext := (rfl)
@[simp] theorem updGuard_arbs (f : GuardSt → GuardSt) : (updGuard f s).arbs = s.arbs := (rfl)
@[simp] theorem updGuard_links (f : GuardSt → GuardSt) : (updGuard f s).links = s.links := (rfl)
@[simp] theorem updGuard_group (f : GuardSt → GuardSt) : (updGuard f s).group = s.group := (rfl)
@[simp] theorem updGuard_holds (f : GuardSt → GuardSt) : (updGuard f s).holds = s.holds := (rfl)
@[simp] theorem updGuard_power (f : GuardSt → GuardSt) : (updGuard f s).power = s.power := (rfl)
@[simp] theorem updGuard_host (f : GuardSt → GuardSt) : (updGuard f s).host = s.host := (rfl)
@[simp] theorem updGuard_admin (f : GuardSt → GuardSt) : (updGuard f s).admin = s.admin := (rfl)
@[simp] theorem updGuard_hot (f : GuardSt → GuardSt) : (updGuard f s).hot = s.hot := (rfl)
@[simp] theorem updGuard_fresh (f : GuardSt → GuardSt) : (updGuard f s).fresh = s.fresh := (rfl)

/-! ### updGroup -/

@[simp] theorem updGroup_pending (f : GroupSt → GroupSt) : (updGroup f s).pending = s.pending := (rfl)
@[simp] theorem updGroup_regs (f : GroupSt → GroupSt) : (updGroup f s).regs = s.regs := (rfl)
@[simp] theorem updGroup_mem (f : GroupSt → GroupSt) : (updGroup f s).mem = s.mem := (rfl)
@[simp] theorem updGroup_time (f : GroupSt → GroupSt) : (updGroup f s).time = s.time := (rfl)
@[simp] theorem updGroup_cal (f : GroupSt → GroupSt) : (updGroup f s).cal = s.cal := (rfl)
@[simp] theorem updGroup_tenants (f : GroupSt → GroupSt) : (updGroup f s).tenants = s.tenants := (rfl)
@[simp] theorem updGroup_devices (f : GroupSt → GroupSt) : (updGroup f s).devices = s.devices := (rfl)
@[simp] theorem updGroup_ports (f : GroupSt → GroupSt) : (updGroup f s).ports = s.ports := (rfl)
@[simp] theorem updGroup_images (f : GroupSt → GroupSt) : (updGroup f s).images = s.images := (rfl)
@[simp] theorem updGroup_pads (f : GroupSt → GroupSt) : (updGroup f s).pads = s.pads := (rfl)
@[simp] theorem updGroup_pgOn (f : GroupSt → GroupSt) : (updGroup f s).pgOn = s.pgOn := (rfl)
@[simp] theorem updGroup_fifos (f : GroupSt → GroupSt) : (updGroup f s).fifos = s.fifos := (rfl)
@[simp] theorem updGroup_chans (f : GroupSt → GroupSt) : (updGroup f s).chans = s.chans := (rfl)
@[simp] theorem updGroup_lgroups (f : GroupSt → GroupSt) : (updGroup f s).lgroups = s.lgroups := (rfl)
@[simp] theorem updGroup_journal (f : GroupSt → GroupSt) : (updGroup f s).journal = s.journal := (rfl)
@[simp] theorem updGroup_clusters (f : GroupSt → GroupSt) : (updGroup f s).clusters = s.clusters := (rfl)
@[simp] theorem updGroup_cores (f : GroupSt → GroupSt) : (updGroup f s).cores = s.cores := (rfl)
@[simp] theorem updGroup_locks (f : GroupSt → GroupSt) : (updGroup f s).locks = s.locks := (rfl)
@[simp] theorem updGroup_remote (f : GroupSt → GroupSt) : (updGroup f s).remote = s.remote := (rfl)
@[simp] theorem updGroup_delayed (f : GroupSt → GroupSt) : (updGroup f s).delayed = s.delayed := (rfl)
@[simp] theorem updGroup_xfers (f : GroupSt → GroupSt) : (updGroup f s).xfers = s.xfers := (rfl)
@[simp] theorem updGroup_xferNext (f : GroupSt → GroupSt) : (updGroup f s).xferNext = s.xferNext := (rfl)
@[simp] theorem updGroup_arbs (f : GroupSt → GroupSt) : (updGroup f s).arbs = s.arbs := (rfl)
@[simp] theorem updGroup_links (f : GroupSt → GroupSt) : (updGroup f s).links = s.links := (rfl)
@[simp] theorem updGroup_guard (f : GroupSt → GroupSt) : (updGroup f s).guard = s.guard := (rfl)
@[simp] theorem updGroup_holds (f : GroupSt → GroupSt) : (updGroup f s).holds = s.holds := (rfl)
@[simp] theorem updGroup_power (f : GroupSt → GroupSt) : (updGroup f s).power = s.power := (rfl)
@[simp] theorem updGroup_host (f : GroupSt → GroupSt) : (updGroup f s).host = s.host := (rfl)
@[simp] theorem updGroup_admin (f : GroupSt → GroupSt) : (updGroup f s).admin = s.admin := (rfl)
@[simp] theorem updGroup_hot (f : GroupSt → GroupSt) : (updGroup f s).hot = s.hot := (rfl)
@[simp] theorem updGroup_fresh (f : GroupSt → GroupSt) : (updGroup f s).fresh = s.fresh := (rfl)

/-! ### updJnl -/

@[simp] theorem updJnl_pending (f : JournalSt → JournalSt) : (updJnl f s).pending = s.pending := (rfl)
@[simp] theorem updJnl_regs (f : JournalSt → JournalSt) : (updJnl f s).regs = s.regs := (rfl)
@[simp] theorem updJnl_mem (f : JournalSt → JournalSt) : (updJnl f s).mem = s.mem := (rfl)
@[simp] theorem updJnl_time (f : JournalSt → JournalSt) : (updJnl f s).time = s.time := (rfl)
@[simp] theorem updJnl_cal (f : JournalSt → JournalSt) : (updJnl f s).cal = s.cal := (rfl)
@[simp] theorem updJnl_tenants (f : JournalSt → JournalSt) : (updJnl f s).tenants = s.tenants := (rfl)
@[simp] theorem updJnl_devices (f : JournalSt → JournalSt) : (updJnl f s).devices = s.devices := (rfl)
@[simp] theorem updJnl_ports (f : JournalSt → JournalSt) : (updJnl f s).ports = s.ports := (rfl)
@[simp] theorem updJnl_images (f : JournalSt → JournalSt) : (updJnl f s).images = s.images := (rfl)
@[simp] theorem updJnl_pads (f : JournalSt → JournalSt) : (updJnl f s).pads = s.pads := (rfl)
@[simp] theorem updJnl_pgOn (f : JournalSt → JournalSt) : (updJnl f s).pgOn = s.pgOn := (rfl)
@[simp] theorem updJnl_fifos (f : JournalSt → JournalSt) : (updJnl f s).fifos = s.fifos := (rfl)
@[simp] theorem updJnl_chans (f : JournalSt → JournalSt) : (updJnl f s).chans = s.chans := (rfl)
@[simp] theorem updJnl_lgroups (f : JournalSt → JournalSt) : (updJnl f s).lgroups = s.lgroups := (rfl)
@[simp] theorem updJnl_clusters (f : JournalSt → JournalSt) : (updJnl f s).clusters = s.clusters := (rfl)
@[simp] theorem updJnl_cores (f : JournalSt → JournalSt) : (updJnl f s).cores = s.cores := (rfl)
@[simp] theorem updJnl_locks (f : JournalSt → JournalSt) : (updJnl f s).locks = s.locks := (rfl)
@[simp] theorem updJnl_remote (f : JournalSt → JournalSt) : (updJnl f s).remote = s.remote := (rfl)
@[simp] theorem updJnl_delayed (f : JournalSt → JournalSt) : (updJnl f s).delayed = s.delayed := (rfl)
@[simp] theorem updJnl_xfers (f : JournalSt → JournalSt) : (updJnl f s).xfers = s.xfers := (rfl)
@[simp] theorem updJnl_xferNext (f : JournalSt → JournalSt) : (updJnl f s).xferNext = s.xferNext := (rfl)
@[simp] theorem updJnl_arbs (f : JournalSt → JournalSt) : (updJnl f s).arbs = s.arbs := (rfl)
@[simp] theorem updJnl_links (f : JournalSt → JournalSt) : (updJnl f s).links = s.links := (rfl)
@[simp] theorem updJnl_group (f : JournalSt → JournalSt) : (updJnl f s).group = s.group := (rfl)
@[simp] theorem updJnl_guard (f : JournalSt → JournalSt) : (updJnl f s).guard = s.guard := (rfl)
@[simp] theorem updJnl_holds (f : JournalSt → JournalSt) : (updJnl f s).holds = s.holds := (rfl)
@[simp] theorem updJnl_power (f : JournalSt → JournalSt) : (updJnl f s).power = s.power := (rfl)
@[simp] theorem updJnl_host (f : JournalSt → JournalSt) : (updJnl f s).host = s.host := (rfl)
@[simp] theorem updJnl_admin (f : JournalSt → JournalSt) : (updJnl f s).admin = s.admin := (rfl)
@[simp] theorem updJnl_hot (f : JournalSt → JournalSt) : (updJnl f s).hot = s.hot := (rfl)
@[simp] theorem updJnl_fresh (f : JournalSt → JournalSt) : (updJnl f s).fresh = s.fresh := (rfl)

/-! ### updPower -/

@[simp] theorem updPower_pending (f : PowerSt → PowerSt) : (updPower f s).pending = s.pending := (rfl)
@[simp] theorem updPower_regs (f : PowerSt → PowerSt) : (updPower f s).regs = s.regs := (rfl)
@[simp] theorem updPower_mem (f : PowerSt → PowerSt) : (updPower f s).mem = s.mem := (rfl)
@[simp] theorem updPower_time (f : PowerSt → PowerSt) : (updPower f s).time = s.time := (rfl)
@[simp] theorem updPower_cal (f : PowerSt → PowerSt) : (updPower f s).cal = s.cal := (rfl)
@[simp] theorem updPower_tenants (f : PowerSt → PowerSt) : (updPower f s).tenants = s.tenants := (rfl)
@[simp] theorem updPower_devices (f : PowerSt → PowerSt) : (updPower f s).devices = s.devices := (rfl)
@[simp] theorem updPower_ports (f : PowerSt → PowerSt) : (updPower f s).ports = s.ports := (rfl)
@[simp] theorem updPower_images (f : PowerSt → PowerSt) : (updPower f s).images = s.images := (rfl)
@[simp] theorem updPower_pads (f : PowerSt → PowerSt) : (updPower f s).pads = s.pads := (rfl)
@[simp] theorem updPower_pgOn (f : PowerSt → PowerSt) : (updPower f s).pgOn = s.pgOn := (rfl)
@[simp] theorem updPower_fifos (f : PowerSt → PowerSt) : (updPower f s).fifos = s.fifos := (rfl)
@[simp] theorem updPower_chans (f : PowerSt → PowerSt) : (updPower f s).chans = s.chans := (rfl)
@[simp] theorem updPower_lgroups (f : PowerSt → PowerSt) : (updPower f s).lgroups = s.lgroups := (rfl)
@[simp] theorem updPower_journal (f : PowerSt → PowerSt) : (updPower f s).journal = s.journal := (rfl)
@[simp] theorem updPower_clusters (f : PowerSt → PowerSt) : (updPower f s).clusters = s.clusters := (rfl)
@[simp] theorem updPower_cores (f : PowerSt → PowerSt) : (updPower f s).cores = s.cores := (rfl)
@[simp] theorem updPower_locks (f : PowerSt → PowerSt) : (updPower f s).locks = s.locks := (rfl)
@[simp] theorem updPower_remote (f : PowerSt → PowerSt) : (updPower f s).remote = s.remote := (rfl)
@[simp] theorem updPower_delayed (f : PowerSt → PowerSt) : (updPower f s).delayed = s.delayed := (rfl)
@[simp] theorem updPower_xfers (f : PowerSt → PowerSt) : (updPower f s).xfers = s.xfers := (rfl)
@[simp] theorem updPower_xferNext (f : PowerSt → PowerSt) : (updPower f s).xferNext = s.xferNext := (rfl)
@[simp] theorem updPower_arbs (f : PowerSt → PowerSt) : (updPower f s).arbs = s.arbs := (rfl)
@[simp] theorem updPower_links (f : PowerSt → PowerSt) : (updPower f s).links = s.links := (rfl)
@[simp] theorem updPower_group (f : PowerSt → PowerSt) : (updPower f s).group = s.group := (rfl)
@[simp] theorem updPower_guard (f : PowerSt → PowerSt) : (updPower f s).guard = s.guard := (rfl)
@[simp] theorem updPower_holds (f : PowerSt → PowerSt) : (updPower f s).holds = s.holds := (rfl)
@[simp] theorem updPower_host (f : PowerSt → PowerSt) : (updPower f s).host = s.host := (rfl)
@[simp] theorem updPower_admin (f : PowerSt → PowerSt) : (updPower f s).admin = s.admin := (rfl)
@[simp] theorem updPower_hot (f : PowerSt → PowerSt) : (updPower f s).hot = s.hot := (rfl)
@[simp] theorem updPower_fresh (f : PowerSt → PowerSt) : (updPower f s).fresh = s.fresh := (rfl)

/-! ### updTime -/

@[simp] theorem updTime_pending (f : TimeSt → TimeSt) : (updTime f s).pending = s.pending := (rfl)
@[simp] theorem updTime_regs (f : TimeSt → TimeSt) : (updTime f s).regs = s.regs := (rfl)
@[simp] theorem updTime_mem (f : TimeSt → TimeSt) : (updTime f s).mem = s.mem := (rfl)
@[simp] theorem updTime_cal (f : TimeSt → TimeSt) : (updTime f s).cal = s.cal := (rfl)
@[simp] theorem updTime_tenants (f : TimeSt → TimeSt) : (updTime f s).tenants = s.tenants := (rfl)
@[simp] theorem updTime_devices (f : TimeSt → TimeSt) : (updTime f s).devices = s.devices := (rfl)
@[simp] theorem updTime_ports (f : TimeSt → TimeSt) : (updTime f s).ports = s.ports := (rfl)
@[simp] theorem updTime_images (f : TimeSt → TimeSt) : (updTime f s).images = s.images := (rfl)
@[simp] theorem updTime_pads (f : TimeSt → TimeSt) : (updTime f s).pads = s.pads := (rfl)
@[simp] theorem updTime_pgOn (f : TimeSt → TimeSt) : (updTime f s).pgOn = s.pgOn := (rfl)
@[simp] theorem updTime_fifos (f : TimeSt → TimeSt) : (updTime f s).fifos = s.fifos := (rfl)
@[simp] theorem updTime_chans (f : TimeSt → TimeSt) : (updTime f s).chans = s.chans := (rfl)
@[simp] theorem updTime_lgroups (f : TimeSt → TimeSt) : (updTime f s).lgroups = s.lgroups := (rfl)
@[simp] theorem updTime_journal (f : TimeSt → TimeSt) : (updTime f s).journal = s.journal := (rfl)
@[simp] theorem updTime_clusters (f : TimeSt → TimeSt) : (updTime f s).clusters = s.clusters := (rfl)
@[simp] theorem updTime_cores (f : TimeSt → TimeSt) : (updTime f s).cores = s.cores := (rfl)
@[simp] theorem updTime_locks (f : TimeSt → TimeSt) : (updTime f s).locks = s.locks := (rfl)
@[simp] theorem updTime_remote (f : TimeSt → TimeSt) : (updTime f s).remote = s.remote := (rfl)
@[simp] theorem updTime_delayed (f : TimeSt → TimeSt) : (updTime f s).delayed = s.delayed := (rfl)
@[simp] theorem updTime_xfers (f : TimeSt → TimeSt) : (updTime f s).xfers = s.xfers := (rfl)
@[simp] theorem updTime_xferNext (f : TimeSt → TimeSt) : (updTime f s).xferNext = s.xferNext := (rfl)
@[simp] theorem updTime_arbs (f : TimeSt → TimeSt) : (updTime f s).arbs = s.arbs := (rfl)
@[simp] theorem updTime_links (f : TimeSt → TimeSt) : (updTime f s).links = s.links := (rfl)
@[simp] theorem updTime_group (f : TimeSt → TimeSt) : (updTime f s).group = s.group := (rfl)
@[simp] theorem updTime_guard (f : TimeSt → TimeSt) : (updTime f s).guard = s.guard := (rfl)
@[simp] theorem updTime_holds (f : TimeSt → TimeSt) : (updTime f s).holds = s.holds := (rfl)
@[simp] theorem updTime_power (f : TimeSt → TimeSt) : (updTime f s).power = s.power := (rfl)
@[simp] theorem updTime_host (f : TimeSt → TimeSt) : (updTime f s).host = s.host := (rfl)
@[simp] theorem updTime_admin (f : TimeSt → TimeSt) : (updTime f s).admin = s.admin := (rfl)
@[simp] theorem updTime_hot (f : TimeSt → TimeSt) : (updTime f s).hot = s.hot := (rfl)
@[simp] theorem updTime_fresh (f : TimeSt → TimeSt) : (updTime f s).fresh = s.fresh := (rfl)

/-! ### updCal -/

@[simp] theorem updCal_pending (f : CalSt → CalSt) : (updCal f s).pending = s.pending := (rfl)
@[simp] theorem updCal_regs (f : CalSt → CalSt) : (updCal f s).regs = s.regs := (rfl)
@[simp] theorem updCal_mem (f : CalSt → CalSt) : (updCal f s).mem = s.mem := (rfl)
@[simp] theorem updCal_time (f : CalSt → CalSt) : (updCal f s).time = s.time := (rfl)
@[simp] theorem updCal_tenants (f : CalSt → CalSt) : (updCal f s).tenants = s.tenants := (rfl)
@[simp] theorem updCal_devices (f : CalSt → CalSt) : (updCal f s).devices = s.devices := (rfl)
@[simp] theorem updCal_ports (f : CalSt → CalSt) : (updCal f s).ports = s.ports := (rfl)
@[simp] theorem updCal_images (f : CalSt → CalSt) : (updCal f s).images = s.images := (rfl)
@[simp] theorem updCal_pads (f : CalSt → CalSt) : (updCal f s).pads = s.pads := (rfl)
@[simp] theorem updCal_pgOn (f : CalSt → CalSt) : (updCal f s).pgOn = s.pgOn := (rfl)
@[simp] theorem updCal_fifos (f : CalSt → CalSt) : (updCal f s).fifos = s.fifos := (rfl)
@[simp] theorem updCal_chans (f : CalSt → CalSt) : (updCal f s).chans = s.chans := (rfl)
@[simp] theorem updCal_lgroups (f : CalSt → CalSt) : (updCal f s).lgroups = s.lgroups := (rfl)
@[simp] theorem updCal_journal (f : CalSt → CalSt) : (updCal f s).journal = s.journal := (rfl)
@[simp] theorem updCal_clusters (f : CalSt → CalSt) : (updCal f s).clusters = s.clusters := (rfl)
@[simp] theorem updCal_cores (f : CalSt → CalSt) : (updCal f s).cores = s.cores := (rfl)
@[simp] theorem updCal_locks (f : CalSt → CalSt) : (updCal f s).locks = s.locks := (rfl)
@[simp] theorem updCal_remote (f : CalSt → CalSt) : (updCal f s).remote = s.remote := (rfl)
@[simp] theorem updCal_delayed (f : CalSt → CalSt) : (updCal f s).delayed = s.delayed := (rfl)
@[simp] theorem updCal_xfers (f : CalSt → CalSt) : (updCal f s).xfers = s.xfers := (rfl)
@[simp] theorem updCal_xferNext (f : CalSt → CalSt) : (updCal f s).xferNext = s.xferNext := (rfl)
@[simp] theorem updCal_arbs (f : CalSt → CalSt) : (updCal f s).arbs = s.arbs := (rfl)
@[simp] theorem updCal_links (f : CalSt → CalSt) : (updCal f s).links = s.links := (rfl)
@[simp] theorem updCal_group (f : CalSt → CalSt) : (updCal f s).group = s.group := (rfl)
@[simp] theorem updCal_guard (f : CalSt → CalSt) : (updCal f s).guard = s.guard := (rfl)
@[simp] theorem updCal_holds (f : CalSt → CalSt) : (updCal f s).holds = s.holds := (rfl)
@[simp] theorem updCal_power (f : CalSt → CalSt) : (updCal f s).power = s.power := (rfl)
@[simp] theorem updCal_host (f : CalSt → CalSt) : (updCal f s).host = s.host := (rfl)
@[simp] theorem updCal_admin (f : CalSt → CalSt) : (updCal f s).admin = s.admin := (rfl)
@[simp] theorem updCal_hot (f : CalSt → CalSt) : (updCal f s).hot = s.hot := (rfl)
@[simp] theorem updCal_fresh (f : CalSt → CalSt) : (updCal f s).fresh = s.fresh := (rfl)

/-! ### mapPorts -/

@[simp] theorem mapPorts_pending (f : Tab PortSt → Tab PortSt) : (mapPorts f s).pending = s.pending := (rfl)
@[simp] theorem mapPorts_regs (f : Tab PortSt → Tab PortSt) : (mapPorts f s).regs = s.regs := (rfl)
@[simp] theorem mapPorts_mem (f : Tab PortSt → Tab PortSt) : (mapPorts f s).mem = s.mem := (rfl)
@[simp] theorem mapPorts_time (f : Tab PortSt → Tab PortSt) : (mapPorts f s).time = s.time := (rfl)
@[simp] theorem mapPorts_cal (f : Tab PortSt → Tab PortSt) : (mapPorts f s).cal = s.cal := (rfl)
@[simp] theorem mapPorts_tenants (f : Tab PortSt → Tab PortSt) : (mapPorts f s).tenants = s.tenants := (rfl)
@[simp] theorem mapPorts_devices (f : Tab PortSt → Tab PortSt) : (mapPorts f s).devices = s.devices := (rfl)
@[simp] theorem mapPorts_images (f : Tab PortSt → Tab PortSt) : (mapPorts f s).images = s.images := (rfl)
@[simp] theorem mapPorts_pads (f : Tab PortSt → Tab PortSt) : (mapPorts f s).pads = s.pads := (rfl)
@[simp] theorem mapPorts_pgOn (f : Tab PortSt → Tab PortSt) : (mapPorts f s).pgOn = s.pgOn := (rfl)
@[simp] theorem mapPorts_fifos (f : Tab PortSt → Tab PortSt) : (mapPorts f s).fifos = s.fifos := (rfl)
@[simp] theorem mapPorts_chans (f : Tab PortSt → Tab PortSt) : (mapPorts f s).chans = s.chans := (rfl)
@[simp] theorem mapPorts_lgroups (f : Tab PortSt → Tab PortSt) : (mapPorts f s).lgroups = s.lgroups := (rfl)
@[simp] theorem mapPorts_journal (f : Tab PortSt → Tab PortSt) : (mapPorts f s).journal = s.journal := (rfl)
@[simp] theorem mapPorts_clusters (f : Tab PortSt → Tab PortSt) : (mapPorts f s).clusters = s.clusters := (rfl)
@[simp] theorem mapPorts_cores (f : Tab PortSt → Tab PortSt) : (mapPorts f s).cores = s.cores := (rfl)
@[simp] theorem mapPorts_locks (f : Tab PortSt → Tab PortSt) : (mapPorts f s).locks = s.locks := (rfl)
@[simp] theorem mapPorts_remote (f : Tab PortSt → Tab PortSt) : (mapPorts f s).remote = s.remote := (rfl)
@[simp] theorem mapPorts_delayed (f : Tab PortSt → Tab PortSt) : (mapPorts f s).delayed = s.delayed := (rfl)
@[simp] theorem mapPorts_xfers (f : Tab PortSt → Tab PortSt) : (mapPorts f s).xfers = s.xfers := (rfl)
@[simp] theorem mapPorts_xferNext (f : Tab PortSt → Tab PortSt) : (mapPorts f s).xferNext = s.xferNext := (rfl)
@[simp] theorem mapPorts_arbs (f : Tab PortSt → Tab PortSt) : (mapPorts f s).arbs = s.arbs := (rfl)
@[simp] theorem mapPorts_links (f : Tab PortSt → Tab PortSt) : (mapPorts f s).links = s.links := (rfl)
@[simp] theorem mapPorts_group (f : Tab PortSt → Tab PortSt) : (mapPorts f s).group = s.group := (rfl)
@[simp] theorem mapPorts_guard (f : Tab PortSt → Tab PortSt) : (mapPorts f s).guard = s.guard := (rfl)
@[simp] theorem mapPorts_holds (f : Tab PortSt → Tab PortSt) : (mapPorts f s).holds = s.holds := (rfl)
@[simp] theorem mapPorts_power (f : Tab PortSt → Tab PortSt) : (mapPorts f s).power = s.power := (rfl)
@[simp] theorem mapPorts_host (f : Tab PortSt → Tab PortSt) : (mapPorts f s).host = s.host := (rfl)
@[simp] theorem mapPorts_admin (f : Tab PortSt → Tab PortSt) : (mapPorts f s).admin = s.admin := (rfl)
@[simp] theorem mapPorts_hot (f : Tab PortSt → Tab PortSt) : (mapPorts f s).hot = s.hot := (rfl)
@[simp] theorem mapPorts_fresh (f : Tab PortSt → Tab PortSt) : (mapPorts f s).fresh = s.fresh := (rfl)

/-! ### mapDevices -/

@[simp] theorem mapDevices_pending (f : Tab DeviceSt → Tab DeviceSt) : (mapDevices f s).pending = s.pending := (rfl)
@[simp] theorem mapDevices_regs (f : Tab DeviceSt → Tab DeviceSt) : (mapDevices f s).regs = s.regs := (rfl)
@[simp] theorem mapDevices_mem (f : Tab DeviceSt → Tab DeviceSt) : (mapDevices f s).mem = s.mem := (rfl)
@[simp] theorem mapDevices_time (f : Tab DeviceSt → Tab DeviceSt) : (mapDevices f s).time = s.time := (rfl)
@[simp] theorem mapDevices_cal (f : Tab DeviceSt → Tab DeviceSt) : (mapDevices f s).cal = s.cal := (rfl)
@[simp] theorem mapDevices_tenants (f : Tab DeviceSt → Tab DeviceSt) : (mapDevices f s).tenants = s.tenants := (rfl)
@[simp] theorem mapDevices_ports (f : Tab DeviceSt → Tab DeviceSt) : (mapDevices f s).ports = s.ports := (rfl)
@[simp] theorem mapDevices_images (f : Tab DeviceSt → Tab DeviceSt) : (mapDevices f s).images = s.images := (rfl)
@[simp] theorem mapDevices_pads (f : Tab DeviceSt → Tab DeviceSt) : (mapDevices f s).pads = s.pads := (rfl)
@[simp] theorem mapDevices_pgOn (f : Tab DeviceSt → Tab DeviceSt) : (mapDevices f s).pgOn = s.pgOn := (rfl)
@[simp] theorem mapDevices_fifos (f : Tab DeviceSt → Tab DeviceSt) : (mapDevices f s).fifos = s.fifos := (rfl)
@[simp] theorem mapDevices_chans (f : Tab DeviceSt → Tab DeviceSt) : (mapDevices f s).chans = s.chans := (rfl)
@[simp] theorem mapDevices_lgroups (f : Tab DeviceSt → Tab DeviceSt) : (mapDevices f s).lgroups = s.lgroups := (rfl)
@[simp] theorem mapDevices_journal (f : Tab DeviceSt → Tab DeviceSt) : (mapDevices f s).journal = s.journal := (rfl)
@[simp] theorem mapDevices_clusters (f : Tab DeviceSt → Tab DeviceSt) : (mapDevices f s).clusters = s.clusters := (rfl)
@[simp] theorem mapDevices_cores (f : Tab DeviceSt → Tab DeviceSt) : (mapDevices f s).cores = s.cores := (rfl)
@[simp] theorem mapDevices_locks (f : Tab DeviceSt → Tab DeviceSt) : (mapDevices f s).locks = s.locks := (rfl)
@[simp] theorem mapDevices_remote (f : Tab DeviceSt → Tab DeviceSt) : (mapDevices f s).remote = s.remote := (rfl)
@[simp] theorem mapDevices_delayed (f : Tab DeviceSt → Tab DeviceSt) : (mapDevices f s).delayed = s.delayed := (rfl)
@[simp] theorem mapDevices_xfers (f : Tab DeviceSt → Tab DeviceSt) : (mapDevices f s).xfers = s.xfers := (rfl)
@[simp] theorem mapDevices_xferNext (f : Tab DeviceSt → Tab DeviceSt) : (mapDevices f s).xferNext = s.xferNext := (rfl)
@[simp] theorem mapDevices_arbs (f : Tab DeviceSt → Tab DeviceSt) : (mapDevices f s).arbs = s.arbs := (rfl)
@[simp] theorem mapDevices_links (f : Tab DeviceSt → Tab DeviceSt) : (mapDevices f s).links = s.links := (rfl)
@[simp] theorem mapDevices_group (f : Tab DeviceSt → Tab DeviceSt) : (mapDevices f s).group = s.group := (rfl)
@[simp] theorem mapDevices_guard (f : Tab DeviceSt → Tab DeviceSt) : (mapDevices f s).guard = s.guard := (rfl)
@[simp] theorem mapDevices_holds (f : Tab DeviceSt → Tab DeviceSt) : (mapDevices f s).holds = s.holds := (rfl)
@[simp] theorem mapDevices_power (f : Tab DeviceSt → Tab DeviceSt) : (mapDevices f s).power = s.power := (rfl)
@[simp] theorem mapDevices_host (f : Tab DeviceSt → Tab DeviceSt) : (mapDevices f s).host = s.host := (rfl)
@[simp] theorem mapDevices_admin (f : Tab DeviceSt → Tab DeviceSt) : (mapDevices f s).admin = s.admin := (rfl)
@[simp] theorem mapDevices_hot (f : Tab DeviceSt → Tab DeviceSt) : (mapDevices f s).hot = s.hot := (rfl)
@[simp] theorem mapDevices_fresh (f : Tab DeviceSt → Tab DeviceSt) : (mapDevices f s).fresh = s.fresh := (rfl)

/-! ### mapImages -/

@[simp] theorem mapImages_pending (f : Tab ImageSt → Tab ImageSt) : (mapImages f s).pending = s.pending := (rfl)
@[simp] theorem mapImages_regs (f : Tab ImageSt → Tab ImageSt) : (mapImages f s).regs = s.regs := (rfl)
@[simp] theorem mapImages_mem (f : Tab ImageSt → Tab ImageSt) : (mapImages f s).mem = s.mem := (rfl)
@[simp] theorem mapImages_time (f : Tab ImageSt → Tab ImageSt) : (mapImages f s).time = s.time := (rfl)
@[simp] theorem mapImages_cal (f : Tab ImageSt → Tab ImageSt) : (mapImages f s).cal = s.cal := (rfl)
@[simp] theorem mapImages_tenants (f : Tab ImageSt → Tab ImageSt) : (mapImages f s).tenants = s.tenants := (rfl)
@[simp] theorem mapImages_devices (f : Tab ImageSt → Tab ImageSt) : (mapImages f s).devices = s.devices := (rfl)
@[simp] theorem mapImages_ports (f : Tab ImageSt → Tab ImageSt) : (mapImages f s).ports = s.ports := (rfl)
@[simp] theorem mapImages_pads (f : Tab ImageSt → Tab ImageSt) : (mapImages f s).pads = s.pads := (rfl)
@[simp] theorem mapImages_pgOn (f : Tab ImageSt → Tab ImageSt) : (mapImages f s).pgOn = s.pgOn := (rfl)
@[simp] theorem mapImages_fifos (f : Tab ImageSt → Tab ImageSt) : (mapImages f s).fifos = s.fifos := (rfl)
@[simp] theorem mapImages_chans (f : Tab ImageSt → Tab ImageSt) : (mapImages f s).chans = s.chans := (rfl)
@[simp] theorem mapImages_lgroups (f : Tab ImageSt → Tab ImageSt) : (mapImages f s).lgroups = s.lgroups := (rfl)
@[simp] theorem mapImages_journal (f : Tab ImageSt → Tab ImageSt) : (mapImages f s).journal = s.journal := (rfl)
@[simp] theorem mapImages_clusters (f : Tab ImageSt → Tab ImageSt) : (mapImages f s).clusters = s.clusters := (rfl)
@[simp] theorem mapImages_cores (f : Tab ImageSt → Tab ImageSt) : (mapImages f s).cores = s.cores := (rfl)
@[simp] theorem mapImages_locks (f : Tab ImageSt → Tab ImageSt) : (mapImages f s).locks = s.locks := (rfl)
@[simp] theorem mapImages_remote (f : Tab ImageSt → Tab ImageSt) : (mapImages f s).remote = s.remote := (rfl)
@[simp] theorem mapImages_delayed (f : Tab ImageSt → Tab ImageSt) : (mapImages f s).delayed = s.delayed := (rfl)
@[simp] theorem mapImages_xfers (f : Tab ImageSt → Tab ImageSt) : (mapImages f s).xfers = s.xfers := (rfl)
@[simp] theorem mapImages_xferNext (f : Tab ImageSt → Tab ImageSt) : (mapImages f s).xferNext = s.xferNext := (rfl)
@[simp] theorem mapImages_arbs (f : Tab ImageSt → Tab ImageSt) : (mapImages f s).arbs = s.arbs := (rfl)
@[simp] theorem mapImages_links (f : Tab ImageSt → Tab ImageSt) : (mapImages f s).links = s.links := (rfl)
@[simp] theorem mapImages_group (f : Tab ImageSt → Tab ImageSt) : (mapImages f s).group = s.group := (rfl)
@[simp] theorem mapImages_guard (f : Tab ImageSt → Tab ImageSt) : (mapImages f s).guard = s.guard := (rfl)
@[simp] theorem mapImages_holds (f : Tab ImageSt → Tab ImageSt) : (mapImages f s).holds = s.holds := (rfl)
@[simp] theorem mapImages_power (f : Tab ImageSt → Tab ImageSt) : (mapImages f s).power = s.power := (rfl)
@[simp] theorem mapImages_host (f : Tab ImageSt → Tab ImageSt) : (mapImages f s).host = s.host := (rfl)
@[simp] theorem mapImages_admin (f : Tab ImageSt → Tab ImageSt) : (mapImages f s).admin = s.admin := (rfl)
@[simp] theorem mapImages_hot (f : Tab ImageSt → Tab ImageSt) : (mapImages f s).hot = s.hot := (rfl)
@[simp] theorem mapImages_fresh (f : Tab ImageSt → Tab ImageSt) : (mapImages f s).fresh = s.fresh := (rfl)

/-! ### mapPads -/

@[simp] theorem mapPads_pending (f : Tab PadSt → Tab PadSt) : (mapPads f s).pending = s.pending := (rfl)
@[simp] theorem mapPads_regs (f : Tab PadSt → Tab PadSt) : (mapPads f s).regs = s.regs := (rfl)
@[simp] theorem mapPads_mem (f : Tab PadSt → Tab PadSt) : (mapPads f s).mem = s.mem := (rfl)
@[simp] theorem mapPads_time (f : Tab PadSt → Tab PadSt) : (mapPads f s).time = s.time := (rfl)
@[simp] theorem mapPads_cal (f : Tab PadSt → Tab PadSt) : (mapPads f s).cal = s.cal := (rfl)
@[simp] theorem mapPads_tenants (f : Tab PadSt → Tab PadSt) : (mapPads f s).tenants = s.tenants := (rfl)
@[simp] theorem mapPads_devices (f : Tab PadSt → Tab PadSt) : (mapPads f s).devices = s.devices := (rfl)
@[simp] theorem mapPads_ports (f : Tab PadSt → Tab PadSt) : (mapPads f s).ports = s.ports := (rfl)
@[simp] theorem mapPads_images (f : Tab PadSt → Tab PadSt) : (mapPads f s).images = s.images := (rfl)
@[simp] theorem mapPads_pgOn (f : Tab PadSt → Tab PadSt) : (mapPads f s).pgOn = s.pgOn := (rfl)
@[simp] theorem mapPads_fifos (f : Tab PadSt → Tab PadSt) : (mapPads f s).fifos = s.fifos := (rfl)
@[simp] theorem mapPads_chans (f : Tab PadSt → Tab PadSt) : (mapPads f s).chans = s.chans := (rfl)
@[simp] theorem mapPads_lgroups (f : Tab PadSt → Tab PadSt) : (mapPads f s).lgroups = s.lgroups := (rfl)
@[simp] theorem mapPads_journal (f : Tab PadSt → Tab PadSt) : (mapPads f s).journal = s.journal := (rfl)
@[simp] theorem mapPads_clusters (f : Tab PadSt → Tab PadSt) : (mapPads f s).clusters = s.clusters := (rfl)
@[simp] theorem mapPads_cores (f : Tab PadSt → Tab PadSt) : (mapPads f s).cores = s.cores := (rfl)
@[simp] theorem mapPads_locks (f : Tab PadSt → Tab PadSt) : (mapPads f s).locks = s.locks := (rfl)
@[simp] theorem mapPads_remote (f : Tab PadSt → Tab PadSt) : (mapPads f s).remote = s.remote := (rfl)
@[simp] theorem mapPads_delayed (f : Tab PadSt → Tab PadSt) : (mapPads f s).delayed = s.delayed := (rfl)
@[simp] theorem mapPads_xfers (f : Tab PadSt → Tab PadSt) : (mapPads f s).xfers = s.xfers := (rfl)
@[simp] theorem mapPads_xferNext (f : Tab PadSt → Tab PadSt) : (mapPads f s).xferNext = s.xferNext := (rfl)
@[simp] theorem mapPads_arbs (f : Tab PadSt → Tab PadSt) : (mapPads f s).arbs = s.arbs := (rfl)
@[simp] theorem mapPads_links (f : Tab PadSt → Tab PadSt) : (mapPads f s).links = s.links := (rfl)
@[simp] theorem mapPads_group (f : Tab PadSt → Tab PadSt) : (mapPads f s).group = s.group := (rfl)
@[simp] theorem mapPads_guard (f : Tab PadSt → Tab PadSt) : (mapPads f s).guard = s.guard := (rfl)
@[simp] theorem mapPads_holds (f : Tab PadSt → Tab PadSt) : (mapPads f s).holds = s.holds := (rfl)
@[simp] theorem mapPads_power (f : Tab PadSt → Tab PadSt) : (mapPads f s).power = s.power := (rfl)
@[simp] theorem mapPads_host (f : Tab PadSt → Tab PadSt) : (mapPads f s).host = s.host := (rfl)
@[simp] theorem mapPads_admin (f : Tab PadSt → Tab PadSt) : (mapPads f s).admin = s.admin := (rfl)
@[simp] theorem mapPads_hot (f : Tab PadSt → Tab PadSt) : (mapPads f s).hot = s.hot := (rfl)
@[simp] theorem mapPads_fresh (f : Tab PadSt → Tab PadSt) : (mapPads f s).fresh = s.fresh := (rfl)

/-! ### mapPgOn -/

@[simp] theorem mapPgOn_pending (f : Tab Bool → Tab Bool) : (mapPgOn f s).pending = s.pending := (rfl)
@[simp] theorem mapPgOn_regs (f : Tab Bool → Tab Bool) : (mapPgOn f s).regs = s.regs := (rfl)
@[simp] theorem mapPgOn_mem (f : Tab Bool → Tab Bool) : (mapPgOn f s).mem = s.mem := (rfl)
@[simp] theorem mapPgOn_time (f : Tab Bool → Tab Bool) : (mapPgOn f s).time = s.time := (rfl)
@[simp] theorem mapPgOn_cal (f : Tab Bool → Tab Bool) : (mapPgOn f s).cal = s.cal := (rfl)
@[simp] theorem mapPgOn_tenants (f : Tab Bool → Tab Bool) : (mapPgOn f s).tenants = s.tenants := (rfl)
@[simp] theorem mapPgOn_devices (f : Tab Bool → Tab Bool) : (mapPgOn f s).devices = s.devices := (rfl)
@[simp] theorem mapPgOn_ports (f : Tab Bool → Tab Bool) : (mapPgOn f s).ports = s.ports := (rfl)
@[simp] theorem mapPgOn_images (f : Tab Bool → Tab Bool) : (mapPgOn f s).images = s.images := (rfl)
@[simp] theorem mapPgOn_pads (f : Tab Bool → Tab Bool) : (mapPgOn f s).pads = s.pads := (rfl)
@[simp] theorem mapPgOn_fifos (f : Tab Bool → Tab Bool) : (mapPgOn f s).fifos = s.fifos := (rfl)
@[simp] theorem mapPgOn_chans (f : Tab Bool → Tab Bool) : (mapPgOn f s).chans = s.chans := (rfl)
@[simp] theorem mapPgOn_lgroups (f : Tab Bool → Tab Bool) : (mapPgOn f s).lgroups = s.lgroups := (rfl)
@[simp] theorem mapPgOn_journal (f : Tab Bool → Tab Bool) : (mapPgOn f s).journal = s.journal := (rfl)
@[simp] theorem mapPgOn_clusters (f : Tab Bool → Tab Bool) : (mapPgOn f s).clusters = s.clusters := (rfl)
@[simp] theorem mapPgOn_cores (f : Tab Bool → Tab Bool) : (mapPgOn f s).cores = s.cores := (rfl)
@[simp] theorem mapPgOn_locks (f : Tab Bool → Tab Bool) : (mapPgOn f s).locks = s.locks := (rfl)
@[simp] theorem mapPgOn_remote (f : Tab Bool → Tab Bool) : (mapPgOn f s).remote = s.remote := (rfl)
@[simp] theorem mapPgOn_delayed (f : Tab Bool → Tab Bool) : (mapPgOn f s).delayed = s.delayed := (rfl)
@[simp] theorem mapPgOn_xfers (f : Tab Bool → Tab Bool) : (mapPgOn f s).xfers = s.xfers := (rfl)
@[simp] theorem mapPgOn_xferNext (f : Tab Bool → Tab Bool) : (mapPgOn f s).xferNext = s.xferNext := (rfl)
@[simp] theorem mapPgOn_arbs (f : Tab Bool → Tab Bool) : (mapPgOn f s).arbs = s.arbs := (rfl)
@[simp] theorem mapPgOn_links (f : Tab Bool → Tab Bool) : (mapPgOn f s).links = s.links := (rfl)
@[simp] theorem mapPgOn_group (f : Tab Bool → Tab Bool) : (mapPgOn f s).group = s.group := (rfl)
@[simp] theorem mapPgOn_guard (f : Tab Bool → Tab Bool) : (mapPgOn f s).guard = s.guard := (rfl)
@[simp] theorem mapPgOn_holds (f : Tab Bool → Tab Bool) : (mapPgOn f s).holds = s.holds := (rfl)
@[simp] theorem mapPgOn_power (f : Tab Bool → Tab Bool) : (mapPgOn f s).power = s.power := (rfl)
@[simp] theorem mapPgOn_host (f : Tab Bool → Tab Bool) : (mapPgOn f s).host = s.host := (rfl)
@[simp] theorem mapPgOn_admin (f : Tab Bool → Tab Bool) : (mapPgOn f s).admin = s.admin := (rfl)
@[simp] theorem mapPgOn_hot (f : Tab Bool → Tab Bool) : (mapPgOn f s).hot = s.hot := (rfl)
@[simp] theorem mapPgOn_fresh (f : Tab Bool → Tab Bool) : (mapPgOn f s).fresh = s.fresh := (rfl)

/-! ### mapFifos -/

@[simp] theorem mapFifos_pending (f : Tab FifoSt → Tab FifoSt) : (mapFifos f s).pending = s.pending := (rfl)
@[simp] theorem mapFifos_regs (f : Tab FifoSt → Tab FifoSt) : (mapFifos f s).regs = s.regs := (rfl)
@[simp] theorem mapFifos_mem (f : Tab FifoSt → Tab FifoSt) : (mapFifos f s).mem = s.mem := (rfl)
@[simp] theorem mapFifos_time (f : Tab FifoSt → Tab FifoSt) : (mapFifos f s).time = s.time := (rfl)
@[simp] theorem mapFifos_cal (f : Tab FifoSt → Tab FifoSt) : (mapFifos f s).cal = s.cal := (rfl)
@[simp] theorem mapFifos_tenants (f : Tab FifoSt → Tab FifoSt) : (mapFifos f s).tenants = s.tenants := (rfl)
@[simp] theorem mapFifos_devices (f : Tab FifoSt → Tab FifoSt) : (mapFifos f s).devices = s.devices := (rfl)
@[simp] theorem mapFifos_ports (f : Tab FifoSt → Tab FifoSt) : (mapFifos f s).ports = s.ports := (rfl)
@[simp] theorem mapFifos_images (f : Tab FifoSt → Tab FifoSt) : (mapFifos f s).images = s.images := (rfl)
@[simp] theorem mapFifos_pads (f : Tab FifoSt → Tab FifoSt) : (mapFifos f s).pads = s.pads := (rfl)
@[simp] theorem mapFifos_pgOn (f : Tab FifoSt → Tab FifoSt) : (mapFifos f s).pgOn = s.pgOn := (rfl)
@[simp] theorem mapFifos_chans (f : Tab FifoSt → Tab FifoSt) : (mapFifos f s).chans = s.chans := (rfl)
@[simp] theorem mapFifos_lgroups (f : Tab FifoSt → Tab FifoSt) : (mapFifos f s).lgroups = s.lgroups := (rfl)
@[simp] theorem mapFifos_journal (f : Tab FifoSt → Tab FifoSt) : (mapFifos f s).journal = s.journal := (rfl)
@[simp] theorem mapFifos_clusters (f : Tab FifoSt → Tab FifoSt) : (mapFifos f s).clusters = s.clusters := (rfl)
@[simp] theorem mapFifos_cores (f : Tab FifoSt → Tab FifoSt) : (mapFifos f s).cores = s.cores := (rfl)
@[simp] theorem mapFifos_locks (f : Tab FifoSt → Tab FifoSt) : (mapFifos f s).locks = s.locks := (rfl)
@[simp] theorem mapFifos_remote (f : Tab FifoSt → Tab FifoSt) : (mapFifos f s).remote = s.remote := (rfl)
@[simp] theorem mapFifos_delayed (f : Tab FifoSt → Tab FifoSt) : (mapFifos f s).delayed = s.delayed := (rfl)
@[simp] theorem mapFifos_xfers (f : Tab FifoSt → Tab FifoSt) : (mapFifos f s).xfers = s.xfers := (rfl)
@[simp] theorem mapFifos_xferNext (f : Tab FifoSt → Tab FifoSt) : (mapFifos f s).xferNext = s.xferNext := (rfl)
@[simp] theorem mapFifos_arbs (f : Tab FifoSt → Tab FifoSt) : (mapFifos f s).arbs = s.arbs := (rfl)
@[simp] theorem mapFifos_links (f : Tab FifoSt → Tab FifoSt) : (mapFifos f s).links = s.links := (rfl)
@[simp] theorem mapFifos_group (f : Tab FifoSt → Tab FifoSt) : (mapFifos f s).group = s.group := (rfl)
@[simp] theorem mapFifos_guard (f : Tab FifoSt → Tab FifoSt) : (mapFifos f s).guard = s.guard := (rfl)
@[simp] theorem mapFifos_holds (f : Tab FifoSt → Tab FifoSt) : (mapFifos f s).holds = s.holds := (rfl)
@[simp] theorem mapFifos_power (f : Tab FifoSt → Tab FifoSt) : (mapFifos f s).power = s.power := (rfl)
@[simp] theorem mapFifos_host (f : Tab FifoSt → Tab FifoSt) : (mapFifos f s).host = s.host := (rfl)
@[simp] theorem mapFifos_admin (f : Tab FifoSt → Tab FifoSt) : (mapFifos f s).admin = s.admin := (rfl)
@[simp] theorem mapFifos_hot (f : Tab FifoSt → Tab FifoSt) : (mapFifos f s).hot = s.hot := (rfl)
@[simp] theorem mapFifos_fresh (f : Tab FifoSt → Tab FifoSt) : (mapFifos f s).fresh = s.fresh := (rfl)

/-! ### mapChans -/

@[simp] theorem mapChans_pending (f : Tab ChanSt → Tab ChanSt) : (mapChans f s).pending = s.pending := (rfl)
@[simp] theorem mapChans_regs (f : Tab ChanSt → Tab ChanSt) : (mapChans f s).regs = s.regs := (rfl)
@[simp] theorem mapChans_mem (f : Tab ChanSt → Tab ChanSt) : (mapChans f s).mem = s.mem := (rfl)
@[simp] theorem mapChans_time (f : Tab ChanSt → Tab ChanSt) : (mapChans f s).time = s.time := (rfl)
@[simp] theorem mapChans_cal (f : Tab ChanSt → Tab ChanSt) : (mapChans f s).cal = s.cal := (rfl)
@[simp] theorem mapChans_tenants (f : Tab ChanSt → Tab ChanSt) : (mapChans f s).tenants = s.tenants := (rfl)
@[simp] theorem mapChans_devices (f : Tab ChanSt → Tab ChanSt) : (mapChans f s).devices = s.devices := (rfl)
@[simp] theorem mapChans_ports (f : Tab ChanSt → Tab ChanSt) : (mapChans f s).ports = s.ports := (rfl)
@[simp] theorem mapChans_images (f : Tab ChanSt → Tab ChanSt) : (mapChans f s).images = s.images := (rfl)
@[simp] theorem mapChans_pads (f : Tab ChanSt → Tab ChanSt) : (mapChans f s).pads = s.pads := (rfl)
@[simp] theorem mapChans_pgOn (f : Tab ChanSt → Tab ChanSt) : (mapChans f s).pgOn = s.pgOn := (rfl)
@[simp] theorem mapChans_fifos (f : Tab ChanSt → Tab ChanSt) : (mapChans f s).fifos = s.fifos := (rfl)
@[simp] theorem mapChans_lgroups (f : Tab ChanSt → Tab ChanSt) : (mapChans f s).lgroups = s.lgroups := (rfl)
@[simp] theorem mapChans_journal (f : Tab ChanSt → Tab ChanSt) : (mapChans f s).journal = s.journal := (rfl)
@[simp] theorem mapChans_clusters (f : Tab ChanSt → Tab ChanSt) : (mapChans f s).clusters = s.clusters := (rfl)
@[simp] theorem mapChans_cores (f : Tab ChanSt → Tab ChanSt) : (mapChans f s).cores = s.cores := (rfl)
@[simp] theorem mapChans_locks (f : Tab ChanSt → Tab ChanSt) : (mapChans f s).locks = s.locks := (rfl)
@[simp] theorem mapChans_remote (f : Tab ChanSt → Tab ChanSt) : (mapChans f s).remote = s.remote := (rfl)
@[simp] theorem mapChans_delayed (f : Tab ChanSt → Tab ChanSt) : (mapChans f s).delayed = s.delayed := (rfl)
@[simp] theorem mapChans_xfers (f : Tab ChanSt → Tab ChanSt) : (mapChans f s).xfers = s.xfers := (rfl)
@[simp] theorem mapChans_xferNext (f : Tab ChanSt → Tab ChanSt) : (mapChans f s).xferNext = s.xferNext := (rfl)
@[simp] theorem mapChans_arbs (f : Tab ChanSt → Tab ChanSt) : (mapChans f s).arbs = s.arbs := (rfl)
@[simp] theorem mapChans_links (f : Tab ChanSt → Tab ChanSt) : (mapChans f s).links = s.links := (rfl)
@[simp] theorem mapChans_group (f : Tab ChanSt → Tab ChanSt) : (mapChans f s).group = s.group := (rfl)
@[simp] theorem mapChans_guard (f : Tab ChanSt → Tab ChanSt) : (mapChans f s).guard = s.guard := (rfl)
@[simp] theorem mapChans_holds (f : Tab ChanSt → Tab ChanSt) : (mapChans f s).holds = s.holds := (rfl)
@[simp] theorem mapChans_power (f : Tab ChanSt → Tab ChanSt) : (mapChans f s).power = s.power := (rfl)
@[simp] theorem mapChans_host (f : Tab ChanSt → Tab ChanSt) : (mapChans f s).host = s.host := (rfl)
@[simp] theorem mapChans_admin (f : Tab ChanSt → Tab ChanSt) : (mapChans f s).admin = s.admin := (rfl)
@[simp] theorem mapChans_hot (f : Tab ChanSt → Tab ChanSt) : (mapChans f s).hot = s.hot := (rfl)
@[simp] theorem mapChans_fresh (f : Tab ChanSt → Tab ChanSt) : (mapChans f s).fresh = s.fresh := (rfl)

/-! ### mapClusters -/

@[simp] theorem mapClusters_pending (f : Tab ClusterSt → Tab ClusterSt) : (mapClusters f s).pending = s.pending := (rfl)
@[simp] theorem mapClusters_regs (f : Tab ClusterSt → Tab ClusterSt) : (mapClusters f s).regs = s.regs := (rfl)
@[simp] theorem mapClusters_mem (f : Tab ClusterSt → Tab ClusterSt) : (mapClusters f s).mem = s.mem := (rfl)
@[simp] theorem mapClusters_time (f : Tab ClusterSt → Tab ClusterSt) : (mapClusters f s).time = s.time := (rfl)
@[simp] theorem mapClusters_cal (f : Tab ClusterSt → Tab ClusterSt) : (mapClusters f s).cal = s.cal := (rfl)
@[simp] theorem mapClusters_tenants (f : Tab ClusterSt → Tab ClusterSt) : (mapClusters f s).tenants = s.tenants := (rfl)
@[simp] theorem mapClusters_devices (f : Tab ClusterSt → Tab ClusterSt) : (mapClusters f s).devices = s.devices := (rfl)
@[simp] theorem mapClusters_ports (f : Tab ClusterSt → Tab ClusterSt) : (mapClusters f s).ports = s.ports := (rfl)
@[simp] theorem mapClusters_images (f : Tab ClusterSt → Tab ClusterSt) : (mapClusters f s).images = s.images := (rfl)
@[simp] theorem mapClusters_pads (f : Tab ClusterSt → Tab ClusterSt) : (mapClusters f s).pads = s.pads := (rfl)
@[simp] theorem mapClusters_pgOn (f : Tab ClusterSt → Tab ClusterSt) : (mapClusters f s).pgOn = s.pgOn := (rfl)
@[simp] theorem mapClusters_fifos (f : Tab ClusterSt → Tab ClusterSt) : (mapClusters f s).fifos = s.fifos := (rfl)
@[simp] theorem mapClusters_chans (f : Tab ClusterSt → Tab ClusterSt) : (mapClusters f s).chans = s.chans := (rfl)
@[simp] theorem mapClusters_lgroups (f : Tab ClusterSt → Tab ClusterSt) : (mapClusters f s).lgroups = s.lgroups := (rfl)
@[simp] theorem mapClusters_journal (f : Tab ClusterSt → Tab ClusterSt) : (mapClusters f s).journal = s.journal := (rfl)
@[simp] theorem mapClusters_cores (f : Tab ClusterSt → Tab ClusterSt) : (mapClusters f s).cores = s.cores := (rfl)
@[simp] theorem mapClusters_locks (f : Tab ClusterSt → Tab ClusterSt) : (mapClusters f s).locks = s.locks := (rfl)
@[simp] theorem mapClusters_remote (f : Tab ClusterSt → Tab ClusterSt) : (mapClusters f s).remote = s.remote := (rfl)
@[simp] theorem mapClusters_delayed (f : Tab ClusterSt → Tab ClusterSt) : (mapClusters f s).delayed = s.delayed := (rfl)
@[simp] theorem mapClusters_xfers (f : Tab ClusterSt → Tab ClusterSt) : (mapClusters f s).xfers = s.xfers := (rfl)
@[simp] theorem mapClusters_xferNext (f : Tab ClusterSt → Tab ClusterSt) : (mapClusters f s).xferNext = s.xferNext := (rfl)
@[simp] theorem mapClusters_arbs (f : Tab ClusterSt → Tab ClusterSt) : (mapClusters f s).arbs = s.arbs := (rfl)
@[simp] theorem mapClusters_links (f : Tab ClusterSt → Tab ClusterSt) : (mapClusters f s).links = s.links := (rfl)
@[simp] theorem mapClusters_group (f : Tab ClusterSt → Tab ClusterSt) : (mapClusters f s).group = s.group := (rfl)
@[simp] theorem mapClusters_guard (f : Tab ClusterSt → Tab ClusterSt) : (mapClusters f s).guard = s.guard := (rfl)
@[simp] theorem mapClusters_holds (f : Tab ClusterSt → Tab ClusterSt) : (mapClusters f s).holds = s.holds := (rfl)
@[simp] theorem mapClusters_power (f : Tab ClusterSt → Tab ClusterSt) : (mapClusters f s).power = s.power := (rfl)
@[simp] theorem mapClusters_host (f : Tab ClusterSt → Tab ClusterSt) : (mapClusters f s).host = s.host := (rfl)
@[simp] theorem mapClusters_admin (f : Tab ClusterSt → Tab ClusterSt) : (mapClusters f s).admin = s.admin := (rfl)
@[simp] theorem mapClusters_hot (f : Tab ClusterSt → Tab ClusterSt) : (mapClusters f s).hot = s.hot := (rfl)
@[simp] theorem mapClusters_fresh (f : Tab ClusterSt → Tab ClusterSt) : (mapClusters f s).fresh = s.fresh := (rfl)

/-! ### mapCores -/

@[simp] theorem mapCores_pending (f : Tab CoreSt → Tab CoreSt) : (mapCores f s).pending = s.pending := (rfl)
@[simp] theorem mapCores_regs (f : Tab CoreSt → Tab CoreSt) : (mapCores f s).regs = s.regs := (rfl)
@[simp] theorem mapCores_mem (f : Tab CoreSt → Tab CoreSt) : (mapCores f s).mem = s.mem := (rfl)
@[simp] theorem mapCores_time (f : Tab CoreSt → Tab CoreSt) : (mapCores f s).time = s.time := (rfl)
@[simp] theorem mapCores_cal (f : Tab CoreSt → Tab CoreSt) : (mapCores f s).cal = s.cal := (rfl)
@[simp] theorem mapCores_tenants (f : Tab CoreSt → Tab CoreSt) : (mapCores f s).tenants = s.tenants := (rfl)
@[simp] theorem mapCores_devices (f : Tab CoreSt → Tab CoreSt) : (mapCores f s).devices = s.devices := (rfl)
@[simp] theorem mapCores_ports (f : Tab CoreSt → Tab CoreSt) : (mapCores f s).ports = s.ports := (rfl)
@[simp] theorem mapCores_images (f : Tab CoreSt → Tab CoreSt) : (mapCores f s).images = s.images := (rfl)
@[simp] theorem mapCores_pads (f : Tab CoreSt → Tab CoreSt) : (mapCores f s).pads = s.pads := (rfl)
@[simp] theorem mapCores_pgOn (f : Tab CoreSt → Tab CoreSt) : (mapCores f s).pgOn = s.pgOn := (rfl)
@[simp] theorem mapCores_fifos (f : Tab CoreSt → Tab CoreSt) : (mapCores f s).fifos = s.fifos := (rfl)
@[simp] theorem mapCores_chans (f : Tab CoreSt → Tab CoreSt) : (mapCores f s).chans = s.chans := (rfl)
@[simp] theorem mapCores_lgroups (f : Tab CoreSt → Tab CoreSt) : (mapCores f s).lgroups = s.lgroups := (rfl)
@[simp] theorem mapCores_journal (f : Tab CoreSt → Tab CoreSt) : (mapCores f s).journal = s.journal := (rfl)
@[simp] theorem mapCores_clusters (f : Tab CoreSt → Tab CoreSt) : (mapCores f s).clusters = s.clusters := (rfl)
@[simp] theorem mapCores_locks (f : Tab CoreSt → Tab CoreSt) : (mapCores f s).locks = s.locks := (rfl)
@[simp] theorem mapCores_remote (f : Tab CoreSt → Tab CoreSt) : (mapCores f s).remote = s.remote := (rfl)
@[simp] theorem mapCores_delayed (f : Tab CoreSt → Tab CoreSt) : (mapCores f s).delayed = s.delayed := (rfl)
@[simp] theorem mapCores_xfers (f : Tab CoreSt → Tab CoreSt) : (mapCores f s).xfers = s.xfers := (rfl)
@[simp] theorem mapCores_xferNext (f : Tab CoreSt → Tab CoreSt) : (mapCores f s).xferNext = s.xferNext := (rfl)
@[simp] theorem mapCores_arbs (f : Tab CoreSt → Tab CoreSt) : (mapCores f s).arbs = s.arbs := (rfl)
@[simp] theorem mapCores_links (f : Tab CoreSt → Tab CoreSt) : (mapCores f s).links = s.links := (rfl)
@[simp] theorem mapCores_group (f : Tab CoreSt → Tab CoreSt) : (mapCores f s).group = s.group := (rfl)
@[simp] theorem mapCores_guard (f : Tab CoreSt → Tab CoreSt) : (mapCores f s).guard = s.guard := (rfl)
@[simp] theorem mapCores_holds (f : Tab CoreSt → Tab CoreSt) : (mapCores f s).holds = s.holds := (rfl)
@[simp] theorem mapCores_power (f : Tab CoreSt → Tab CoreSt) : (mapCores f s).power = s.power := (rfl)
@[simp] theorem mapCores_host (f : Tab CoreSt → Tab CoreSt) : (mapCores f s).host = s.host := (rfl)
@[simp] theorem mapCores_admin (f : Tab CoreSt → Tab CoreSt) : (mapCores f s).admin = s.admin := (rfl)
@[simp] theorem mapCores_hot (f : Tab CoreSt → Tab CoreSt) : (mapCores f s).hot = s.hot := (rfl)
@[simp] theorem mapCores_fresh (f : Tab CoreSt → Tab CoreSt) : (mapCores f s).fresh = s.fresh := (rfl)

/-! ### mapLocks -/

@[simp] theorem mapLocks_pending (f : Tab LockSt → Tab LockSt) : (mapLocks f s).pending = s.pending := (rfl)
@[simp] theorem mapLocks_regs (f : Tab LockSt → Tab LockSt) : (mapLocks f s).regs = s.regs := (rfl)
@[simp] theorem mapLocks_mem (f : Tab LockSt → Tab LockSt) : (mapLocks f s).mem = s.mem := (rfl)
@[simp] theorem mapLocks_time (f : Tab LockSt → Tab LockSt) : (mapLocks f s).time = s.time := (rfl)
@[simp] theorem mapLocks_cal (f : Tab LockSt → Tab LockSt) : (mapLocks f s).cal = s.cal := (rfl)
@[simp] theorem mapLocks_tenants (f : Tab LockSt → Tab LockSt) : (mapLocks f s).tenants = s.tenants := (rfl)
@[simp] theorem mapLocks_devices (f : Tab LockSt → Tab LockSt) : (mapLocks f s).devices = s.devices := (rfl)
@[simp] theorem mapLocks_ports (f : Tab LockSt → Tab LockSt) : (mapLocks f s).ports = s.ports := (rfl)
@[simp] theorem mapLocks_images (f : Tab LockSt → Tab LockSt) : (mapLocks f s).images = s.images := (rfl)
@[simp] theorem mapLocks_pads (f : Tab LockSt → Tab LockSt) : (mapLocks f s).pads = s.pads := (rfl)
@[simp] theorem mapLocks_pgOn (f : Tab LockSt → Tab LockSt) : (mapLocks f s).pgOn = s.pgOn := (rfl)
@[simp] theorem mapLocks_fifos (f : Tab LockSt → Tab LockSt) : (mapLocks f s).fifos = s.fifos := (rfl)
@[simp] theorem mapLocks_chans (f : Tab LockSt → Tab LockSt) : (mapLocks f s).chans = s.chans := (rfl)
@[simp] theorem mapLocks_lgroups (f : Tab LockSt → Tab LockSt) : (mapLocks f s).lgroups = s.lgroups := (rfl)
@[simp] theorem mapLocks_journal (f : Tab LockSt → Tab LockSt) : (mapLocks f s).journal = s.journal := (rfl)
@[simp] theorem mapLocks_clusters (f : Tab LockSt → Tab LockSt) : (mapLocks f s).clusters = s.clusters := (rfl)
@[simp] theorem mapLocks_cores (f : Tab LockSt → Tab LockSt) : (mapLocks f s).cores = s.cores := (rfl)
@[simp] theorem mapLocks_remote (f : Tab LockSt → Tab LockSt) : (mapLocks f s).remote = s.remote := (rfl)
@[simp] theorem mapLocks_delayed (f : Tab LockSt → Tab LockSt) : (mapLocks f s).delayed = s.delayed := (rfl)
@[simp] theorem mapLocks_xfers (f : Tab LockSt → Tab LockSt) : (mapLocks f s).xfers = s.xfers := (rfl)
@[simp] theorem mapLocks_xferNext (f : Tab LockSt → Tab LockSt) : (mapLocks f s).xferNext = s.xferNext := (rfl)
@[simp] theorem mapLocks_arbs (f : Tab LockSt → Tab LockSt) : (mapLocks f s).arbs = s.arbs := (rfl)
@[simp] theorem mapLocks_links (f : Tab LockSt → Tab LockSt) : (mapLocks f s).links = s.links := (rfl)
@[simp] theorem mapLocks_group (f : Tab LockSt → Tab LockSt) : (mapLocks f s).group = s.group := (rfl)
@[simp] theorem mapLocks_guard (f : Tab LockSt → Tab LockSt) : (mapLocks f s).guard = s.guard := (rfl)
@[simp] theorem mapLocks_holds (f : Tab LockSt → Tab LockSt) : (mapLocks f s).holds = s.holds := (rfl)
@[simp] theorem mapLocks_power (f : Tab LockSt → Tab LockSt) : (mapLocks f s).power = s.power := (rfl)
@[simp] theorem mapLocks_host (f : Tab LockSt → Tab LockSt) : (mapLocks f s).host = s.host := (rfl)
@[simp] theorem mapLocks_admin (f : Tab LockSt → Tab LockSt) : (mapLocks f s).admin = s.admin := (rfl)
@[simp] theorem mapLocks_hot (f : Tab LockSt → Tab LockSt) : (mapLocks f s).hot = s.hot := (rfl)
@[simp] theorem mapLocks_fresh (f : Tab LockSt → Tab LockSt) : (mapLocks f s).fresh = s.fresh := (rfl)

/-! ### mapRemote -/

@[simp] theorem mapRemote_pending (f : List (Nat × Nat × Nat × Crossing) → List (Nat × Nat × Nat × Crossing)) : (mapRemote f s).pending = s.pending := (rfl)
@[simp] theorem mapRemote_regs (f : List (Nat × Nat × Nat × Crossing) → List (Nat × Nat × Nat × Crossing)) : (mapRemote f s).regs = s.regs := (rfl)
@[simp] theorem mapRemote_mem (f : List (Nat × Nat × Nat × Crossing) → List (Nat × Nat × Nat × Crossing)) : (mapRemote f s).mem = s.mem := (rfl)
@[simp] theorem mapRemote_time (f : List (Nat × Nat × Nat × Crossing) → List (Nat × Nat × Nat × Crossing)) : (mapRemote f s).time = s.time := (rfl)
@[simp] theorem mapRemote_cal (f : List (Nat × Nat × Nat × Crossing) → List (Nat × Nat × Nat × Crossing)) : (mapRemote f s).cal = s.cal := (rfl)
@[simp] theorem mapRemote_tenants (f : List (Nat × Nat × Nat × Crossing) → List (Nat × Nat × Nat × Crossing)) : (mapRemote f s).tenants = s.tenants := (rfl)
@[simp] theorem mapRemote_devices (f : List (Nat × Nat × Nat × Crossing) → List (Nat × Nat × Nat × Crossing)) : (mapRemote f s).devices = s.devices := (rfl)
@[simp] theorem mapRemote_ports (f : List (Nat × Nat × Nat × Crossing) → List (Nat × Nat × Nat × Crossing)) : (mapRemote f s).ports = s.ports := (rfl)
@[simp] theorem mapRemote_images (f : List (Nat × Nat × Nat × Crossing) → List (Nat × Nat × Nat × Crossing)) : (mapRemote f s).images = s.images := (rfl)
@[simp] theorem mapRemote_pads (f : List (Nat × Nat × Nat × Crossing) → List (Nat × Nat × Nat × Crossing)) : (mapRemote f s).pads = s.pads := (rfl)
@[simp] theorem mapRemote_pgOn (f : List (Nat × Nat × Nat × Crossing) → List (Nat × Nat × Nat × Crossing)) : (mapRemote f s).pgOn = s.pgOn := (rfl)
@[simp] theorem mapRemote_fifos (f : List (Nat × Nat × Nat × Crossing) → List (Nat × Nat × Nat × Crossing)) : (mapRemote f s).fifos = s.fifos := (rfl)
@[simp] theorem mapRemote_chans (f : List (Nat × Nat × Nat × Crossing) → List (Nat × Nat × Nat × Crossing)) : (mapRemote f s).chans = s.chans := (rfl)
@[simp] theorem mapRemote_lgroups (f : List (Nat × Nat × Nat × Crossing) → List (Nat × Nat × Nat × Crossing)) : (mapRemote f s).lgroups = s.lgroups := (rfl)
@[simp] theorem mapRemote_journal (f : List (Nat × Nat × Nat × Crossing) → List (Nat × Nat × Nat × Crossing)) : (mapRemote f s).journal = s.journal := (rfl)
@[simp] theorem mapRemote_clusters (f : List (Nat × Nat × Nat × Crossing) → List (Nat × Nat × Nat × Crossing)) : (mapRemote f s).clusters = s.clusters := (rfl)
@[simp] theorem mapRemote_cores (f : List (Nat × Nat × Nat × Crossing) → List (Nat × Nat × Nat × Crossing)) : (mapRemote f s).cores = s.cores := (rfl)
@[simp] theorem mapRemote_locks (f : List (Nat × Nat × Nat × Crossing) → List (Nat × Nat × Nat × Crossing)) : (mapRemote f s).locks = s.locks := (rfl)
@[simp] theorem mapRemote_delayed (f : List (Nat × Nat × Nat × Crossing) → List (Nat × Nat × Nat × Crossing)) : (mapRemote f s).delayed = s.delayed := (rfl)
@[simp] theorem mapRemote_xfers (f : List (Nat × Nat × Nat × Crossing) → List (Nat × Nat × Nat × Crossing)) : (mapRemote f s).xfers = s.xfers := (rfl)
@[simp] theorem mapRemote_xferNext (f : List (Nat × Nat × Nat × Crossing) → List (Nat × Nat × Nat × Crossing)) : (mapRemote f s).xferNext = s.xferNext := (rfl)
@[simp] theorem mapRemote_arbs (f : List (Nat × Nat × Nat × Crossing) → List (Nat × Nat × Nat × Crossing)) : (mapRemote f s).arbs = s.arbs := (rfl)
@[simp] theorem mapRemote_links (f : List (Nat × Nat × Nat × Crossing) → List (Nat × Nat × Nat × Crossing)) : (mapRemote f s).links = s.links := (rfl)
@[simp] theorem mapRemote_group (f : List (Nat × Nat × Nat × Crossing) → List (Nat × Nat × Nat × Crossing)) : (mapRemote f s).group = s.group := (rfl)
@[simp] theorem mapRemote_guard (f : List (Nat × Nat × Nat × Crossing) → List (Nat × Nat × Nat × Crossing)) : (mapRemote f s).guard = s.guard := (rfl)
@[simp] theorem mapRemote_holds (f : List (Nat × Nat × Nat × Crossing) → List (Nat × Nat × Nat × Crossing)) : (mapRemote f s).holds = s.holds := (rfl)
@[simp] theorem mapRemote_power (f : List (Nat × Nat × Nat × Crossing) → List (Nat × Nat × Nat × Crossing)) : (mapRemote f s).power = s.power := (rfl)
@[simp] theorem mapRemote_host (f : List (Nat × Nat × Nat × Crossing) → List (Nat × Nat × Nat × Crossing)) : (mapRemote f s).host = s.host := (rfl)
@[simp] theorem mapRemote_admin (f : List (Nat × Nat × Nat × Crossing) → List (Nat × Nat × Nat × Crossing)) : (mapRemote f s).admin = s.admin := (rfl)
@[simp] theorem mapRemote_hot (f : List (Nat × Nat × Nat × Crossing) → List (Nat × Nat × Nat × Crossing)) : (mapRemote f s).hot = s.hot := (rfl)
@[simp] theorem mapRemote_fresh (f : List (Nat × Nat × Nat × Crossing) → List (Nat × Nat × Nat × Crossing)) : (mapRemote f s).fresh = s.fresh := (rfl)

/-! ### mapDelayed -/

@[simp] theorem mapDelayed_pending (f : List (Nat × Nat × Crossing) → List (Nat × Nat × Crossing)) : (mapDelayed f s).pending = s.pending := (rfl)
@[simp] theorem mapDelayed_regs (f : List (Nat × Nat × Crossing) → List (Nat × Nat × Crossing)) : (mapDelayed f s).regs = s.regs := (rfl)
@[simp] theorem mapDelayed_mem (f : List (Nat × Nat × Crossing) → List (Nat × Nat × Crossing)) : (mapDelayed f s).mem = s.mem := (rfl)
@[simp] theorem mapDelayed_time (f : List (Nat × Nat × Crossing) → List (Nat × Nat × Crossing)) : (mapDelayed f s).time = s.time := (rfl)
@[simp] theorem mapDelayed_cal (f : List (Nat × Nat × Crossing) → List (Nat × Nat × Crossing)) : (mapDelayed f s).cal = s.cal := (rfl)
@[simp] theorem mapDelayed_tenants (f : List (Nat × Nat × Crossing) → List (Nat × Nat × Crossing)) : (mapDelayed f s).tenants = s.tenants := (rfl)
@[simp] theorem mapDelayed_devices (f : List (Nat × Nat × Crossing) → List (Nat × Nat × Crossing)) : (mapDelayed f s).devices = s.devices := (rfl)
@[simp] theorem mapDelayed_ports (f : List (Nat × Nat × Crossing) → List (Nat × Nat × Crossing)) : (mapDelayed f s).ports = s.ports := (rfl)
@[simp] theorem mapDelayed_images (f : List (Nat × Nat × Crossing) → List (Nat × Nat × Crossing)) : (mapDelayed f s).images = s.images := (rfl)
@[simp] theorem mapDelayed_pads (f : List (Nat × Nat × Crossing) → List (Nat × Nat × Crossing)) : (mapDelayed f s).pads = s.pads := (rfl)
@[simp] theorem mapDelayed_pgOn (f : List (Nat × Nat × Crossing) → List (Nat × Nat × Crossing)) : (mapDelayed f s).pgOn = s.pgOn := (rfl)
@[simp] theorem mapDelayed_fifos (f : List (Nat × Nat × Crossing) → List (Nat × Nat × Crossing)) : (mapDelayed f s).fifos = s.fifos := (rfl)
@[simp] theorem mapDelayed_chans (f : List (Nat × Nat × Crossing) → List (Nat × Nat × Crossing)) : (mapDelayed f s).chans = s.chans := (rfl)
@[simp] theorem mapDelayed_lgroups (f : List (Nat × Nat × Crossing) → List (Nat × Nat × Crossing)) : (mapDelayed f s).lgroups = s.lgroups := (rfl)
@[simp] theorem mapDelayed_journal (f : List (Nat × Nat × Crossing) → List (Nat × Nat × Crossing)) : (mapDelayed f s).journal = s.journal := (rfl)
@[simp] theorem mapDelayed_clusters (f : List (Nat × Nat × Crossing) → List (Nat × Nat × Crossing)) : (mapDelayed f s).clusters = s.clusters := (rfl)
@[simp] theorem mapDelayed_cores (f : List (Nat × Nat × Crossing) → List (Nat × Nat × Crossing)) : (mapDelayed f s).cores = s.cores := (rfl)
@[simp] theorem mapDelayed_locks (f : List (Nat × Nat × Crossing) → List (Nat × Nat × Crossing)) : (mapDelayed f s).locks = s.locks := (rfl)
@[simp] theorem mapDelayed_remote (f : List (Nat × Nat × Crossing) → List (Nat × Nat × Crossing)) : (mapDelayed f s).remote = s.remote := (rfl)
@[simp] theorem mapDelayed_xfers (f : List (Nat × Nat × Crossing) → List (Nat × Nat × Crossing)) : (mapDelayed f s).xfers = s.xfers := (rfl)
@[simp] theorem mapDelayed_xferNext (f : List (Nat × Nat × Crossing) → List (Nat × Nat × Crossing)) : (mapDelayed f s).xferNext = s.xferNext := (rfl)
@[simp] theorem mapDelayed_arbs (f : List (Nat × Nat × Crossing) → List (Nat × Nat × Crossing)) : (mapDelayed f s).arbs = s.arbs := (rfl)
@[simp] theorem mapDelayed_links (f : List (Nat × Nat × Crossing) → List (Nat × Nat × Crossing)) : (mapDelayed f s).links = s.links := (rfl)
@[simp] theorem mapDelayed_group (f : List (Nat × Nat × Crossing) → List (Nat × Nat × Crossing)) : (mapDelayed f s).group = s.group := (rfl)
@[simp] theorem mapDelayed_guard (f : List (Nat × Nat × Crossing) → List (Nat × Nat × Crossing)) : (mapDelayed f s).guard = s.guard := (rfl)
@[simp] theorem mapDelayed_holds (f : List (Nat × Nat × Crossing) → List (Nat × Nat × Crossing)) : (mapDelayed f s).holds = s.holds := (rfl)
@[simp] theorem mapDelayed_power (f : List (Nat × Nat × Crossing) → List (Nat × Nat × Crossing)) : (mapDelayed f s).power = s.power := (rfl)
@[simp] theorem mapDelayed_host (f : List (Nat × Nat × Crossing) → List (Nat × Nat × Crossing)) : (mapDelayed f s).host = s.host := (rfl)
@[simp] theorem mapDelayed_admin (f : List (Nat × Nat × Crossing) → List (Nat × Nat × Crossing)) : (mapDelayed f s).admin = s.admin := (rfl)
@[simp] theorem mapDelayed_hot (f : List (Nat × Nat × Crossing) → List (Nat × Nat × Crossing)) : (mapDelayed f s).hot = s.hot := (rfl)
@[simp] theorem mapDelayed_fresh (f : List (Nat × Nat × Crossing) → List (Nat × Nat × Crossing)) : (mapDelayed f s).fresh = s.fresh := (rfl)

/-! ### mapXfers -/

@[simp] theorem mapXfers_pending (f : Tab Xfer → Tab Xfer) : (mapXfers f s).pending = s.pending := (rfl)
@[simp] theorem mapXfers_regs (f : Tab Xfer → Tab Xfer) : (mapXfers f s).regs = s.regs := (rfl)
@[simp] theorem mapXfers_mem (f : Tab Xfer → Tab Xfer) : (mapXfers f s).mem = s.mem := (rfl)
@[simp] theorem mapXfers_time (f : Tab Xfer → Tab Xfer) : (mapXfers f s).time = s.time := (rfl)
@[simp] theorem mapXfers_cal (f : Tab Xfer → Tab Xfer) : (mapXfers f s).cal = s.cal := (rfl)
@[simp] theorem mapXfers_tenants (f : Tab Xfer → Tab Xfer) : (mapXfers f s).tenants = s.tenants := (rfl)
@[simp] theorem mapXfers_devices (f : Tab Xfer → Tab Xfer) : (mapXfers f s).devices = s.devices := (rfl)
@[simp] theorem mapXfers_ports (f : Tab Xfer → Tab Xfer) : (mapXfers f s).ports = s.ports := (rfl)
@[simp] theorem mapXfers_images (f : Tab Xfer → Tab Xfer) : (mapXfers f s).images = s.images := (rfl)
@[simp] theorem mapXfers_pads (f : Tab Xfer → Tab Xfer) : (mapXfers f s).pads = s.pads := (rfl)
@[simp] theorem mapXfers_pgOn (f : Tab Xfer → Tab Xfer) : (mapXfers f s).pgOn = s.pgOn := (rfl)
@[simp] theorem mapXfers_fifos (f : Tab Xfer → Tab Xfer) : (mapXfers f s).fifos = s.fifos := (rfl)
@[simp] theorem mapXfers_chans (f : Tab Xfer → Tab Xfer) : (mapXfers f s).chans = s.chans := (rfl)
@[simp] theorem mapXfers_lgroups (f : Tab Xfer → Tab Xfer) : (mapXfers f s).lgroups = s.lgroups := (rfl)
@[simp] theorem mapXfers_journal (f : Tab Xfer → Tab Xfer) : (mapXfers f s).journal = s.journal := (rfl)
@[simp] theorem mapXfers_clusters (f : Tab Xfer → Tab Xfer) : (mapXfers f s).clusters = s.clusters := (rfl)
@[simp] theorem mapXfers_cores (f : Tab Xfer → Tab Xfer) : (mapXfers f s).cores = s.cores := (rfl)
@[simp] theorem mapXfers_locks (f : Tab Xfer → Tab Xfer) : (mapXfers f s).locks = s.locks := (rfl)
@[simp] theorem mapXfers_remote (f : Tab Xfer → Tab Xfer) : (mapXfers f s).remote = s.remote := (rfl)
@[simp] theorem mapXfers_delayed (f : Tab Xfer → Tab Xfer) : (mapXfers f s).delayed = s.delayed := (rfl)
@[simp] theorem mapXfers_xferNext (f : Tab Xfer → Tab Xfer) : (mapXfers f s).xferNext = s.xferNext := (rfl)
@[simp] theorem mapXfers_arbs (f : Tab Xfer → Tab Xfer) : (mapXfers f s).arbs = s.arbs := (rfl)
@[simp] theorem mapXfers_links (f : Tab Xfer → Tab Xfer) : (mapXfers f s).links = s.links := (rfl)
@[simp] theorem mapXfers_group (f : Tab Xfer → Tab Xfer) : (mapXfers f s).group = s.group := (rfl)
@[simp] theorem mapXfers_guard (f : Tab Xfer → Tab Xfer) : (mapXfers f s).guard = s.guard := (rfl)
@[simp] theorem mapXfers_holds (f : Tab Xfer → Tab Xfer) : (mapXfers f s).holds = s.holds := (rfl)
@[simp] theorem mapXfers_power (f : Tab Xfer → Tab Xfer) : (mapXfers f s).power = s.power := (rfl)
@[simp] theorem mapXfers_host (f : Tab Xfer → Tab Xfer) : (mapXfers f s).host = s.host := (rfl)
@[simp] theorem mapXfers_admin (f : Tab Xfer → Tab Xfer) : (mapXfers f s).admin = s.admin := (rfl)
@[simp] theorem mapXfers_hot (f : Tab Xfer → Tab Xfer) : (mapXfers f s).hot = s.hot := (rfl)
@[simp] theorem mapXfers_fresh (f : Tab Xfer → Tab Xfer) : (mapXfers f s).fresh = s.fresh := (rfl)

/-! ### setXferNext -/

@[simp] theorem setXferNext_pending (n : Nat) : (setXferNext n s).pending = s.pending := (rfl)
@[simp] theorem setXferNext_regs (n : Nat) : (setXferNext n s).regs = s.regs := (rfl)
@[simp] theorem setXferNext_mem (n : Nat) : (setXferNext n s).mem = s.mem := (rfl)
@[simp] theorem setXferNext_time (n : Nat) : (setXferNext n s).time = s.time := (rfl)
@[simp] theorem setXferNext_cal (n : Nat) : (setXferNext n s).cal = s.cal := (rfl)
@[simp] theorem setXferNext_tenants (n : Nat) : (setXferNext n s).tenants = s.tenants := (rfl)
@[simp] theorem setXferNext_devices (n : Nat) : (setXferNext n s).devices = s.devices := (rfl)
@[simp] theorem setXferNext_ports (n : Nat) : (setXferNext n s).ports = s.ports := (rfl)
@[simp] theorem setXferNext_images (n : Nat) : (setXferNext n s).images = s.images := (rfl)
@[simp] theorem setXferNext_pads (n : Nat) : (setXferNext n s).pads = s.pads := (rfl)
@[simp] theorem setXferNext_pgOn (n : Nat) : (setXferNext n s).pgOn = s.pgOn := (rfl)
@[simp] theorem setXferNext_fifos (n : Nat) : (setXferNext n s).fifos = s.fifos := (rfl)
@[simp] theorem setXferNext_chans (n : Nat) : (setXferNext n s).chans = s.chans := (rfl)
@[simp] theorem setXferNext_lgroups (n : Nat) : (setXferNext n s).lgroups = s.lgroups := (rfl)
@[simp] theorem setXferNext_journal (n : Nat) : (setXferNext n s).journal = s.journal := (rfl)
@[simp] theorem setXferNext_clusters (n : Nat) : (setXferNext n s).clusters = s.clusters := (rfl)
@[simp] theorem setXferNext_cores (n : Nat) : (setXferNext n s).cores = s.cores := (rfl)
@[simp] theorem setXferNext_locks (n : Nat) : (setXferNext n s).locks = s.locks := (rfl)
@[simp] theorem setXferNext_remote (n : Nat) : (setXferNext n s).remote = s.remote := (rfl)
@[simp] theorem setXferNext_delayed (n : Nat) : (setXferNext n s).delayed = s.delayed := (rfl)
@[simp] theorem setXferNext_xfers (n : Nat) : (setXferNext n s).xfers = s.xfers := (rfl)
@[simp] theorem setXferNext_arbs (n : Nat) : (setXferNext n s).arbs = s.arbs := (rfl)
@[simp] theorem setXferNext_links (n : Nat) : (setXferNext n s).links = s.links := (rfl)
@[simp] theorem setXferNext_group (n : Nat) : (setXferNext n s).group = s.group := (rfl)
@[simp] theorem setXferNext_guard (n : Nat) : (setXferNext n s).guard = s.guard := (rfl)
@[simp] theorem setXferNext_holds (n : Nat) : (setXferNext n s).holds = s.holds := (rfl)
@[simp] theorem setXferNext_power (n : Nat) : (setXferNext n s).power = s.power := (rfl)
@[simp] theorem setXferNext_host (n : Nat) : (setXferNext n s).host = s.host := (rfl)
@[simp] theorem setXferNext_admin (n : Nat) : (setXferNext n s).admin = s.admin := (rfl)
@[simp] theorem setXferNext_hot (n : Nat) : (setXferNext n s).hot = s.hot := (rfl)
@[simp] theorem setXferNext_fresh (n : Nat) : (setXferNext n s).fresh = s.fresh := (rfl)

/-! ### mapArbs -/

@[simp] theorem mapArbs_pending (f : Tab ArbSt → Tab ArbSt) : (mapArbs f s).pending = s.pending := (rfl)
@[simp] theorem mapArbs_regs (f : Tab ArbSt → Tab ArbSt) : (mapArbs f s).regs = s.regs := (rfl)
@[simp] theorem mapArbs_mem (f : Tab ArbSt → Tab ArbSt) : (mapArbs f s).mem = s.mem := (rfl)
@[simp] theorem mapArbs_time (f : Tab ArbSt → Tab ArbSt) : (mapArbs f s).time = s.time := (rfl)
@[simp] theorem mapArbs_cal (f : Tab ArbSt → Tab ArbSt) : (mapArbs f s).cal = s.cal := (rfl)
@[simp] theorem mapArbs_tenants (f : Tab ArbSt → Tab ArbSt) : (mapArbs f s).tenants = s.tenants := (rfl)
@[simp] theorem mapArbs_devices (f : Tab ArbSt → Tab ArbSt) : (mapArbs f s).devices = s.devices := (rfl)
@[simp] theorem mapArbs_ports (f : Tab ArbSt → Tab ArbSt) : (mapArbs f s).ports = s.ports := (rfl)
@[simp] theorem mapArbs_images (f : Tab ArbSt → Tab ArbSt) : (mapArbs f s).images = s.images := (rfl)
@[simp] theorem mapArbs_pads (f : Tab ArbSt → Tab ArbSt) : (mapArbs f s).pads = s.pads := (rfl)
@[simp] theorem mapArbs_pgOn (f : Tab ArbSt → Tab ArbSt) : (mapArbs f s).pgOn = s.pgOn := (rfl)
@[simp] theorem mapArbs_fifos (f : Tab ArbSt → Tab ArbSt) : (mapArbs f s).fifos = s.fifos := (rfl)
@[simp] theorem mapArbs_chans (f : Tab ArbSt → Tab ArbSt) : (mapArbs f s).chans = s.chans := (rfl)
@[simp] theorem mapArbs_lgroups (f : Tab ArbSt → Tab ArbSt) : (mapArbs f s).lgroups = s.lgroups := (rfl)
@[simp] theorem mapArbs_journal (f : Tab ArbSt → Tab ArbSt) : (mapArbs f s).journal = s.journal := (rfl)
@[simp] theorem mapArbs_clusters (f : Tab ArbSt → Tab ArbSt) : (mapArbs f s).clusters = s.clusters := (rfl)
@[simp] theorem mapArbs_cores (f : Tab ArbSt → Tab ArbSt) : (mapArbs f s).cores = s.cores := (rfl)
@[simp] theorem mapArbs_locks (f : Tab ArbSt → Tab ArbSt) : (mapArbs f s).locks = s.locks := (rfl)
@[simp] theorem mapArbs_remote (f : Tab ArbSt → Tab ArbSt) : (mapArbs f s).remote = s.remote := (rfl)
@[simp] theorem mapArbs_delayed (f : Tab ArbSt → Tab ArbSt) : (mapArbs f s).delayed = s.delayed := (rfl)
@[simp] theorem mapArbs_xfers (f : Tab ArbSt → Tab ArbSt) : (mapArbs f s).xfers = s.xfers := (rfl)
@[simp] theorem mapArbs_xferNext (f : Tab ArbSt → Tab ArbSt) : (mapArbs f s).xferNext = s.xferNext := (rfl)
@[simp] theorem mapArbs_links (f : Tab ArbSt → Tab ArbSt) : (mapArbs f s).links = s.links := (rfl)
@[simp] theorem mapArbs_group (f : Tab ArbSt → Tab ArbSt) : (mapArbs f s).group = s.group := (rfl)
@[simp] theorem mapArbs_guard (f : Tab ArbSt → Tab ArbSt) : (mapArbs f s).guard = s.guard := (rfl)
@[simp] theorem mapArbs_holds (f : Tab ArbSt → Tab ArbSt) : (mapArbs f s).holds = s.holds := (rfl)
@[simp] theorem mapArbs_power (f : Tab ArbSt → Tab ArbSt) : (mapArbs f s).power = s.power := (rfl)
@[simp] theorem mapArbs_host (f : Tab ArbSt → Tab ArbSt) : (mapArbs f s).host = s.host := (rfl)
@[simp] theorem mapArbs_admin (f : Tab ArbSt → Tab ArbSt) : (mapArbs f s).admin = s.admin := (rfl)
@[simp] theorem mapArbs_hot (f : Tab ArbSt → Tab ArbSt) : (mapArbs f s).hot = s.hot := (rfl)
@[simp] theorem mapArbs_fresh (f : Tab ArbSt → Tab ArbSt) : (mapArbs f s).fresh = s.fresh := (rfl)

/-! ### mapHolds -/

@[simp] theorem mapHolds_pending (f : Tab Nat → Tab Nat) : (mapHolds f s).pending = s.pending := (rfl)
@[simp] theorem mapHolds_regs (f : Tab Nat → Tab Nat) : (mapHolds f s).regs = s.regs := (rfl)
@[simp] theorem mapHolds_mem (f : Tab Nat → Tab Nat) : (mapHolds f s).mem = s.mem := (rfl)
@[simp] theorem mapHolds_time (f : Tab Nat → Tab Nat) : (mapHolds f s).time = s.time := (rfl)
@[simp] theorem mapHolds_cal (f : Tab Nat → Tab Nat) : (mapHolds f s).cal = s.cal := (rfl)
@[simp] theorem mapHolds_tenants (f : Tab Nat → Tab Nat) : (mapHolds f s).tenants = s.tenants := (rfl)
@[simp] theorem mapHolds_devices (f : Tab Nat → Tab Nat) : (mapHolds f s).devices = s.devices := (rfl)
@[simp] theorem mapHolds_ports (f : Tab Nat → Tab Nat) : (mapHolds f s).ports = s.ports := (rfl)
@[simp] theorem mapHolds_images (f : Tab Nat → Tab Nat) : (mapHolds f s).images = s.images := (rfl)
@[simp] theorem mapHolds_pads (f : Tab Nat → Tab Nat) : (mapHolds f s).pads = s.pads := (rfl)
@[simp] theorem mapHolds_pgOn (f : Tab Nat → Tab Nat) : (mapHolds f s).pgOn = s.pgOn := (rfl)
@[simp] theorem mapHolds_fifos (f : Tab Nat → Tab Nat) : (mapHolds f s).fifos = s.fifos := (rfl)
@[simp] theorem mapHolds_chans (f : Tab Nat → Tab Nat) : (mapHolds f s).chans = s.chans := (rfl)
@[simp] theorem mapHolds_lgroups (f : Tab Nat → Tab Nat) : (mapHolds f s).lgroups = s.lgroups := (rfl)
@[simp] theorem mapHolds_journal (f : Tab Nat → Tab Nat) : (mapHolds f s).journal = s.journal := (rfl)
@[simp] theorem mapHolds_clusters (f : Tab Nat → Tab Nat) : (mapHolds f s).clusters = s.clusters := (rfl)
@[simp] theorem mapHolds_cores (f : Tab Nat → Tab Nat) : (mapHolds f s).cores = s.cores := (rfl)
@[simp] theorem mapHolds_locks (f : Tab Nat → Tab Nat) : (mapHolds f s).locks = s.locks := (rfl)
@[simp] theorem mapHolds_remote (f : Tab Nat → Tab Nat) : (mapHolds f s).remote = s.remote := (rfl)
@[simp] theorem mapHolds_delayed (f : Tab Nat → Tab Nat) : (mapHolds f s).delayed = s.delayed := (rfl)
@[simp] theorem mapHolds_xfers (f : Tab Nat → Tab Nat) : (mapHolds f s).xfers = s.xfers := (rfl)
@[simp] theorem mapHolds_xferNext (f : Tab Nat → Tab Nat) : (mapHolds f s).xferNext = s.xferNext := (rfl)
@[simp] theorem mapHolds_arbs (f : Tab Nat → Tab Nat) : (mapHolds f s).arbs = s.arbs := (rfl)
@[simp] theorem mapHolds_links (f : Tab Nat → Tab Nat) : (mapHolds f s).links = s.links := (rfl)
@[simp] theorem mapHolds_group (f : Tab Nat → Tab Nat) : (mapHolds f s).group = s.group := (rfl)
@[simp] theorem mapHolds_guard (f : Tab Nat → Tab Nat) : (mapHolds f s).guard = s.guard := (rfl)
@[simp] theorem mapHolds_power (f : Tab Nat → Tab Nat) : (mapHolds f s).power = s.power := (rfl)
@[simp] theorem mapHolds_host (f : Tab Nat → Tab Nat) : (mapHolds f s).host = s.host := (rfl)
@[simp] theorem mapHolds_admin (f : Tab Nat → Tab Nat) : (mapHolds f s).admin = s.admin := (rfl)
@[simp] theorem mapHolds_hot (f : Tab Nat → Tab Nat) : (mapHolds f s).hot = s.hot := (rfl)
@[simp] theorem mapHolds_fresh (f : Tab Nat → Tab Nat) : (mapHolds f s).fresh = s.fresh := (rfl)

/-! ### setAdmin -/

@[simp] theorem setAdmin_pending (a : Option AdmPend) : (setAdmin a s).pending = s.pending := (rfl)
@[simp] theorem setAdmin_regs (a : Option AdmPend) : (setAdmin a s).regs = s.regs := (rfl)
@[simp] theorem setAdmin_mem (a : Option AdmPend) : (setAdmin a s).mem = s.mem := (rfl)
@[simp] theorem setAdmin_time (a : Option AdmPend) : (setAdmin a s).time = s.time := (rfl)
@[simp] theorem setAdmin_cal (a : Option AdmPend) : (setAdmin a s).cal = s.cal := (rfl)
@[simp] theorem setAdmin_tenants (a : Option AdmPend) : (setAdmin a s).tenants = s.tenants := (rfl)
@[simp] theorem setAdmin_devices (a : Option AdmPend) : (setAdmin a s).devices = s.devices := (rfl)
@[simp] theorem setAdmin_ports (a : Option AdmPend) : (setAdmin a s).ports = s.ports := (rfl)
@[simp] theorem setAdmin_images (a : Option AdmPend) : (setAdmin a s).images = s.images := (rfl)
@[simp] theorem setAdmin_pads (a : Option AdmPend) : (setAdmin a s).pads = s.pads := (rfl)
@[simp] theorem setAdmin_pgOn (a : Option AdmPend) : (setAdmin a s).pgOn = s.pgOn := (rfl)
@[simp] theorem setAdmin_fifos (a : Option AdmPend) : (setAdmin a s).fifos = s.fifos := (rfl)
@[simp] theorem setAdmin_chans (a : Option AdmPend) : (setAdmin a s).chans = s.chans := (rfl)
@[simp] theorem setAdmin_lgroups (a : Option AdmPend) : (setAdmin a s).lgroups = s.lgroups := (rfl)
@[simp] theorem setAdmin_journal (a : Option AdmPend) : (setAdmin a s).journal = s.journal := (rfl)
@[simp] theorem setAdmin_clusters (a : Option AdmPend) : (setAdmin a s).clusters = s.clusters := (rfl)
@[simp] theorem setAdmin_cores (a : Option AdmPend) : (setAdmin a s).cores = s.cores := (rfl)
@[simp] theorem setAdmin_locks (a : Option AdmPend) : (setAdmin a s).locks = s.locks := (rfl)
@[simp] theorem setAdmin_remote (a : Option AdmPend) : (setAdmin a s).remote = s.remote := (rfl)
@[simp] theorem setAdmin_delayed (a : Option AdmPend) : (setAdmin a s).delayed = s.delayed := (rfl)
@[simp] theorem setAdmin_xfers (a : Option AdmPend) : (setAdmin a s).xfers = s.xfers := (rfl)
@[simp] theorem setAdmin_xferNext (a : Option AdmPend) : (setAdmin a s).xferNext = s.xferNext := (rfl)
@[simp] theorem setAdmin_arbs (a : Option AdmPend) : (setAdmin a s).arbs = s.arbs := (rfl)
@[simp] theorem setAdmin_links (a : Option AdmPend) : (setAdmin a s).links = s.links := (rfl)
@[simp] theorem setAdmin_group (a : Option AdmPend) : (setAdmin a s).group = s.group := (rfl)
@[simp] theorem setAdmin_guard (a : Option AdmPend) : (setAdmin a s).guard = s.guard := (rfl)
@[simp] theorem setAdmin_holds (a : Option AdmPend) : (setAdmin a s).holds = s.holds := (rfl)
@[simp] theorem setAdmin_power (a : Option AdmPend) : (setAdmin a s).power = s.power := (rfl)
@[simp] theorem setAdmin_host (a : Option AdmPend) : (setAdmin a s).host = s.host := (rfl)
@[simp] theorem setAdmin_hot (a : Option AdmPend) : (setAdmin a s).hot = s.hot := (rfl)
@[simp] theorem setAdmin_fresh (a : Option AdmPend) : (setAdmin a s).fresh = s.fresh := (rfl)

/-! ### mark -/

@[simp] theorem mark_pending (f : Fld) : (mark f s).pending = s.pending := (rfl)
@[simp] theorem mark_regs (f : Fld) : (mark f s).regs = s.regs := (rfl)
@[simp] theorem mark_mem (f : Fld) : (mark f s).mem = s.mem := (rfl)
@[simp] theorem mark_time (f : Fld) : (mark f s).time = s.time := (rfl)
@[simp] theorem mark_cal (f : Fld) : (mark f s).cal = s.cal := (rfl)
@[simp] theorem mark_tenants (f : Fld) : (mark f s).tenants = s.tenants := (rfl)
@[simp] theorem mark_devices (f : Fld) : (mark f s).devices = s.devices := (rfl)
@[simp] theorem mark_ports (f : Fld) : (mark f s).ports = s.ports := (rfl)
@[simp] theorem mark_images (f : Fld) : (mark f s).images = s.images := (rfl)
@[simp] theorem mark_pads (f : Fld) : (mark f s).pads = s.pads := (rfl)
@[simp] theorem mark_pgOn (f : Fld) : (mark f s).pgOn = s.pgOn := (rfl)
@[simp] theorem mark_fifos (f : Fld) : (mark f s).fifos = s.fifos := (rfl)
@[simp] theorem mark_chans (f : Fld) : (mark f s).chans = s.chans := (rfl)
@[simp] theorem mark_lgroups (f : Fld) : (mark f s).lgroups = s.lgroups := (rfl)
@[simp] theorem mark_journal (f : Fld) : (mark f s).journal = s.journal := (rfl)
@[simp] theorem mark_clusters (f : Fld) : (mark f s).clusters = s.clusters := (rfl)
@[simp] theorem mark_cores (f : Fld) : (mark f s).cores = s.cores := (rfl)
@[simp] theorem mark_locks (f : Fld) : (mark f s).locks = s.locks := (rfl)
@[simp] theorem mark_remote (f : Fld) : (mark f s).remote = s.remote := (rfl)
@[simp] theorem mark_delayed (f : Fld) : (mark f s).delayed = s.delayed := (rfl)
@[simp] theorem mark_xfers (f : Fld) : (mark f s).xfers = s.xfers := (rfl)
@[simp] theorem mark_xferNext (f : Fld) : (mark f s).xferNext = s.xferNext := (rfl)
@[simp] theorem mark_arbs (f : Fld) : (mark f s).arbs = s.arbs := (rfl)
@[simp] theorem mark_links (f : Fld) : (mark f s).links = s.links := (rfl)
@[simp] theorem mark_group (f : Fld) : (mark f s).group = s.group := (rfl)
@[simp] theorem mark_guard (f : Fld) : (mark f s).guard = s.guard := (rfl)
@[simp] theorem mark_holds (f : Fld) : (mark f s).holds = s.holds := (rfl)
@[simp] theorem mark_power (f : Fld) : (mark f s).power = s.power := (rfl)
@[simp] theorem mark_host (f : Fld) : (mark f s).host = s.host := (rfl)
@[simp] theorem mark_admin (f : Fld) : (mark f s).admin = s.admin := (rfl)
@[simp] theorem mark_fresh (f : Fld) : (mark f s).fresh = s.fresh := (rfl)

/-! ### mapHot -/

@[simp] theorem mapHot_pending (f : Tab (Nat × Word) → Tab (Nat × Word)) : (mapHot f s).pending = s.pending := (rfl)
@[simp] theorem mapHot_regs (f : Tab (Nat × Word) → Tab (Nat × Word)) : (mapHot f s).regs = s.regs := (rfl)
@[simp] theorem mapHot_mem (f : Tab (Nat × Word) → Tab (Nat × Word)) : (mapHot f s).mem = s.mem := (rfl)
@[simp] theorem mapHot_time (f : Tab (Nat × Word) → Tab (Nat × Word)) : (mapHot f s).time = s.time := (rfl)
@[simp] theorem mapHot_cal (f : Tab (Nat × Word) → Tab (Nat × Word)) : (mapHot f s).cal = s.cal := (rfl)
@[simp] theorem mapHot_tenants (f : Tab (Nat × Word) → Tab (Nat × Word)) : (mapHot f s).tenants = s.tenants := (rfl)
@[simp] theorem mapHot_devices (f : Tab (Nat × Word) → Tab (Nat × Word)) : (mapHot f s).devices = s.devices := (rfl)
@[simp] theorem mapHot_ports (f : Tab (Nat × Word) → Tab (Nat × Word)) : (mapHot f s).ports = s.ports := (rfl)
@[simp] theorem mapHot_images (f : Tab (Nat × Word) → Tab (Nat × Word)) : (mapHot f s).images = s.images := (rfl)
@[simp] theorem mapHot_pads (f : Tab (Nat × Word) → Tab (Nat × Word)) : (mapHot f s).pads = s.pads := (rfl)
@[simp] theorem mapHot_pgOn (f : Tab (Nat × Word) → Tab (Nat × Word)) : (mapHot f s).pgOn = s.pgOn := (rfl)
@[simp] theorem mapHot_fifos (f : Tab (Nat × Word) → Tab (Nat × Word)) : (mapHot f s).fifos = s.fifos := (rfl)
@[simp] theorem mapHot_chans (f : Tab (Nat × Word) → Tab (Nat × Word)) : (mapHot f s).chans = s.chans := (rfl)
@[simp] theorem mapHot_lgroups (f : Tab (Nat × Word) → Tab (Nat × Word)) : (mapHot f s).lgroups = s.lgroups := (rfl)
@[simp] theorem mapHot_journal (f : Tab (Nat × Word) → Tab (Nat × Word)) : (mapHot f s).journal = s.journal := (rfl)
@[simp] theorem mapHot_clusters (f : Tab (Nat × Word) → Tab (Nat × Word)) : (mapHot f s).clusters = s.clusters := (rfl)
@[simp] theorem mapHot_cores (f : Tab (Nat × Word) → Tab (Nat × Word)) : (mapHot f s).cores = s.cores := (rfl)
@[simp] theorem mapHot_locks (f : Tab (Nat × Word) → Tab (Nat × Word)) : (mapHot f s).locks = s.locks := (rfl)
@[simp] theorem mapHot_remote (f : Tab (Nat × Word) → Tab (Nat × Word)) : (mapHot f s).remote = s.remote := (rfl)
@[simp] theorem mapHot_delayed (f : Tab (Nat × Word) → Tab (Nat × Word)) : (mapHot f s).delayed = s.delayed := (rfl)
@[simp] theorem mapHot_xfers (f : Tab (Nat × Word) → Tab (Nat × Word)) : (mapHot f s).xfers = s.xfers := (rfl)
@[simp] theorem mapHot_xferNext (f : Tab (Nat × Word) → Tab (Nat × Word)) : (mapHot f s).xferNext = s.xferNext := (rfl)
@[simp] theorem mapHot_arbs (f : Tab (Nat × Word) → Tab (Nat × Word)) : (mapHot f s).arbs = s.arbs := (rfl)
@[simp] theorem mapHot_links (f : Tab (Nat × Word) → Tab (Nat × Word)) : (mapHot f s).links = s.links := (rfl)
@[simp] theorem mapHot_group (f : Tab (Nat × Word) → Tab (Nat × Word)) : (mapHot f s).group = s.group := (rfl)
@[simp] theorem mapHot_guard (f : Tab (Nat × Word) → Tab (Nat × Word)) : (mapHot f s).guard = s.guard := (rfl)
@[simp] theorem mapHot_holds (f : Tab (Nat × Word) → Tab (Nat × Word)) : (mapHot f s).holds = s.holds := (rfl)
@[simp] theorem mapHot_power (f : Tab (Nat × Word) → Tab (Nat × Word)) : (mapHot f s).power = s.power := (rfl)
@[simp] theorem mapHot_host (f : Tab (Nat × Word) → Tab (Nat × Word)) : (mapHot f s).host = s.host := (rfl)
@[simp] theorem mapHot_admin (f : Tab (Nat × Word) → Tab (Nat × Word)) : (mapHot f s).admin = s.admin := (rfl)
@[simp] theorem mapHot_fresh (f : Tab (Nat × Word) → Tab (Nat × Word)) : (mapHot f s).fresh = s.fresh := (rfl)

/-! ### What an update of a whole part leaves there -/

@[simp] theorem updHost_self (f : HostSt → HostSt) : (updHost f s).host = f s.host := (rfl)
@[simp] theorem updGuard_self (f : GuardSt → GuardSt) : (updGuard f s).guard = f s.guard := (rfl)
@[simp] theorem updGroup_self (f : GroupSt → GroupSt) : (updGroup f s).group = f s.group := (rfl)
@[simp] theorem updJnl_self (f : JournalSt → JournalSt) : (updJnl f s).journal = f s.journal := (rfl)
@[simp] theorem updPower_self (f : PowerSt → PowerSt) : (updPower f s).power = f s.power := (rfl)
@[simp] theorem updTime_self (f : TimeSt → TimeSt) : (updTime f s).time = f s.time := (rfl)
@[simp] theorem updCal_self (f : CalSt → CalSt) : (updCal f s).cal = f s.cal := (rfl)
@[simp] theorem mapPorts_self (f : Tab PortSt → Tab PortSt) : (mapPorts f s).ports = f s.ports := (rfl)
@[simp] theorem mapDevices_self (f : Tab DeviceSt → Tab DeviceSt) : (mapDevices f s).devices = f s.devices := (rfl)
@[simp] theorem mapImages_self (f : Tab ImageSt → Tab ImageSt) : (mapImages f s).images = f s.images := (rfl)
@[simp] theorem mapPads_self (f : Tab PadSt → Tab PadSt) : (mapPads f s).pads = f s.pads := (rfl)
@[simp] theorem mapPgOn_self (f : Tab Bool → Tab Bool) : (mapPgOn f s).pgOn = f s.pgOn := (rfl)
@[simp] theorem mapFifos_self (f : Tab FifoSt → Tab FifoSt) : (mapFifos f s).fifos = f s.fifos := (rfl)
@[simp] theorem mapChans_self (f : Tab ChanSt → Tab ChanSt) : (mapChans f s).chans = f s.chans := (rfl)
@[simp] theorem mapClusters_self (f : Tab ClusterSt → Tab ClusterSt) : (mapClusters f s).clusters = f s.clusters := (rfl)
@[simp] theorem mapCores_self (f : Tab CoreSt → Tab CoreSt) : (mapCores f s).cores = f s.cores := (rfl)
@[simp] theorem mapLocks_self (f : Tab LockSt → Tab LockSt) : (mapLocks f s).locks = f s.locks := (rfl)
@[simp] theorem mapRemote_self (f : List (Nat × Nat × Nat × Crossing) → List (Nat × Nat × Nat × Crossing)) : (mapRemote f s).remote = f s.remote := (rfl)
@[simp] theorem mapDelayed_self (f : List (Nat × Nat × Crossing) → List (Nat × Nat × Crossing)) : (mapDelayed f s).delayed = f s.delayed := (rfl)
@[simp] theorem mapXfers_self (f : Tab Xfer → Tab Xfer) : (mapXfers f s).xfers = f s.xfers := (rfl)
@[simp] theorem mapArbs_self (f : Tab ArbSt → Tab ArbSt) : (mapArbs f s).arbs = f s.arbs := (rfl)
@[simp] theorem mapHolds_self (f : Tab Nat → Tab Nat) : (mapHolds f s).holds = f s.holds := (rfl)
@[simp] theorem mapHot_self (f : Tab (Nat × Word) → Tab (Nat × Word)) : (mapHot f s).hot = f s.hot := (rfl)
@[simp] theorem setAdmin_self (a : Option AdmPend) : (setAdmin a s).admin = a := (rfl)
@[simp] theorem setXferNext_self (n : Nat) : (setXferNext n s).xferNext = n := (rfl)
@[simp] theorem useFresh_self : (useFresh s).fresh = s.fresh + 1 := (rfl)

/-! ### Accessors -/

@[simp] theorem core_updCore_self (i : Nat) (f : CoreSt → CoreSt) : core (updCore i f s) i = f (core s i) := by
  simp [core, updCore, setCore]

theorem core_updCore_ne (i : Nat) (f : CoreSt → CoreSt) {j : Nat} (h : j ≠ i) : core (updCore i f s) j = core s j := by
  simp [core, updCore, setCore, Tab.getD_put_ne _ _ _ h]

@[simp] theorem clus_updClus_self (i : Nat) (f : ClusterSt → ClusterSt) : clus (updClus i f s) i = f (clus s i) := by
  simp [clus, updClus]

theorem clus_updClus_ne (i : Nat) (f : ClusterSt → ClusterSt) {j : Nat} (h : j ≠ i) : clus (updClus i f s) j = clus s j := by
  simp [clus, updClus, Tab.getD_put_ne _ _ _ h]

@[simp] theorem ten_updTen_self (i : Nat) (f : TenantSt → TenantSt) : ten (updTen i f s) i = f (ten s i) := by
  simp [ten, updTen]

theorem ten_updTen_ne (i : Nat) (f : TenantSt → TenantSt) {j : Nat} (h : j ≠ i) : ten (updTen i f s) j = ten s j := by
  simp [ten, updTen, Tab.getD_put_ne _ _ _ h]

@[simp] theorem port_updPort_self (i : Nat) (f : PortSt → PortSt) : port (updPort i f s) i = f (port s i) := by
  simp [port, updPort]

theorem port_updPort_ne (i : Nat) (f : PortSt → PortSt) {j : Nat} (h : j ≠ i) : port (updPort i f s) j = port s j := by
  simp [port, updPort, Tab.getD_put_ne _ _ _ h]

@[simp] theorem pad_updPad_self (i : Nat) (f : PadSt → PadSt) : pad (updPad i f s) i = f (pad s i) := by
  simp [pad, updPad]

theorem pad_updPad_ne (i : Nat) (f : PadSt → PadSt) {j : Nat} (h : j ≠ i) : pad (updPad i f s) j = pad s j := by
  simp [pad, updPad, Tab.getD_put_ne _ _ _ h]

@[simp] theorem fifo_updFifo_self (i : Nat) (f : FifoSt → FifoSt) : fifo (updFifo i f s) i = f (fifo s i) := by
  simp [fifo, updFifo]

theorem fifo_updFifo_ne (i : Nat) (f : FifoSt → FifoSt) {j : Nat} (h : j ≠ i) : fifo (updFifo i f s) j = fifo s j := by
  simp [fifo, updFifo, Tab.getD_put_ne _ _ _ h]

@[simp] theorem chan_updChan_self (i : Nat) (f : ChanSt → ChanSt) : chan (updChan i f s) i = f (chan s i) := by
  simp [chan, updChan]

theorem chan_updChan_ne (i : Nat) (f : ChanSt → ChanSt) {j : Nat} (h : j ≠ i) : chan (updChan i f s) j = chan s j := by
  simp [chan, updChan, Tab.getD_put_ne _ _ _ h]

@[simp] theorem lgroup_updLGroup_self (i : Nat) (f : LGroupSt → LGroupSt) : lgroup (updLGroup i f s) i = f (lgroup s i) := by
  simp [lgroup, updLGroup]

theorem lgroup_updLGroup_ne (i : Nat) (f : LGroupSt → LGroupSt) {j : Nat} (h : j ≠ i) : lgroup (updLGroup i f s) j = lgroup s j := by
  simp [lgroup, updLGroup, Tab.getD_put_ne _ _ _ h]

@[simp] theorem drn_updDrn_self (i : Nat) (f : DrnSt → DrnSt) : drn (updDrn i f s) i = f (drn s i) := by
  simp [drn, updDrn]

theorem drn_updDrn_ne (i : Nat) (f : DrnSt → DrnSt) {j : Nat} (h : j ≠ i) : drn (updDrn i f s) j = drn s j := by
  simp [drn, updDrn, Tab.getD_put_ne _ _ _ h]

@[simp] theorem dev_updDev_self (t d : Nat) (f : DeviceSt → DeviceSt) : dev (updDev t d f s) t d = f (dev s t d) := by
  simp [dev, updDev]

theorem dev_updDev_ne (t d : Nat) (f : DeviceSt → DeviceSt) {u e : Nat} (h : devIx u e ≠ devIx t d) :
    dev (updDev t d f s) u e = dev s u e := by
  simp [dev, updDev, Tab.getD_put_ne _ _ _ h]

@[simp] theorem pwrCl_updPwrCl_self (i : Nat) (f : PwrCl → PwrCl) : pwrCl (updPwrCl i f s) i = f (pwrCl s i) := by
  simp [pwrCl, updPwrCl]

theorem pwrCl_updPwrCl_ne (i : Nat) (f : PwrCl → PwrCl) {j : Nat} (h : j ≠ i) :
    pwrCl (updPwrCl i f s) j = pwrCl s j := by
  simp [pwrCl, updPwrCl, Tab.getD_put_ne _ _ _ h]

/-! ### Reads that an update of another field leaves -/

@[simp] theorem readB_setReg (k : Nat) (w : Word) (x : Nat) : readB (setReg k w s) x = readB s x := (rfl)
@[simp] theorem core_setReg (k : Nat) (w : Word) (x : Nat) : core (setReg k w s) x = core s x := (rfl)
@[simp] theorem clus_setReg (k : Nat) (w : Word) (x : Nat) : clus (setReg k w s) x = clus s x := (rfl)
@[simp] theorem ten_setReg (k : Nat) (w : Word) (x : Nat) : ten (setReg k w s) x = ten s x := (rfl)
@[simp] theorem port_setReg (k : Nat) (w : Word) (x : Nat) : port (setReg k w s) x = port s x := (rfl)
@[simp] theorem pad_setReg (k : Nat) (w : Word) (x : Nat) : pad (setReg k w s) x = pad s x := (rfl)
@[simp] theorem fifo_setReg (k : Nat) (w : Word) (x : Nat) : fifo (setReg k w s) x = fifo s x := (rfl)
@[simp] theorem chan_setReg (k : Nat) (w : Word) (x : Nat) : chan (setReg k w s) x = chan s x := (rfl)
@[simp] theorem lgroup_setReg (k : Nat) (w : Word) (x : Nat) : lgroup (setReg k w s) x = lgroup s x := (rfl)
@[simp] theorem drn_setReg (k : Nat) (w : Word) (x : Nat) : drn (setReg k w s) x = drn s x := (rfl)
@[simp] theorem dev_setReg (k : Nat) (w : Word) (x y : Nat) : dev (setReg k w s) x y = dev s x y := (rfl)
@[simp] theorem pwrCl_setReg (k : Nat) (w : Word) (x : Nat) : pwrCl (setReg k w s) x = pwrCl s x := (rfl)
@[simp] theorem now_setReg (k : Nat) (w : Word)  : now (setReg k w s) = now s := (rfl)
@[simp] theorem frameNo_setReg (k : Nat) (w : Word)  : frameNo (setReg k w s) = frameNo s := (rfl)
@[simp] theorem turnInFrame_setReg (k : Nat) (w : Word)  : turnInFrame (setReg k w s) = turnInFrame s := (rfl)
@[simp] theorem nextTick_setReg (k : Nat) (w : Word)  : nextTick (setReg k w s) = nextTick s := (rfl)
@[simp] theorem readB_setF (f : Fld) (v : Nat) (x : Nat) : readB (setF f v s) x = readB s x := (rfl)
@[simp] theorem core_setF (f : Fld) (v : Nat) (x : Nat) : core (setF f v s) x = core s x := (rfl)
@[simp] theorem clus_setF (f : Fld) (v : Nat) (x : Nat) : clus (setF f v s) x = clus s x := (rfl)
@[simp] theorem ten_setF (f : Fld) (v : Nat) (x : Nat) : ten (setF f v s) x = ten s x := (rfl)
@[simp] theorem port_setF (f : Fld) (v : Nat) (x : Nat) : port (setF f v s) x = port s x := (rfl)
@[simp] theorem pad_setF (f : Fld) (v : Nat) (x : Nat) : pad (setF f v s) x = pad s x := (rfl)
@[simp] theorem fifo_setF (f : Fld) (v : Nat) (x : Nat) : fifo (setF f v s) x = fifo s x := (rfl)
@[simp] theorem chan_setF (f : Fld) (v : Nat) (x : Nat) : chan (setF f v s) x = chan s x := (rfl)
@[simp] theorem lgroup_setF (f : Fld) (v : Nat) (x : Nat) : lgroup (setF f v s) x = lgroup s x := (rfl)
@[simp] theorem drn_setF (f : Fld) (v : Nat) (x : Nat) : drn (setF f v s) x = drn s x := (rfl)
@[simp] theorem dev_setF (f : Fld) (v : Nat) (x y : Nat) : dev (setF f v s) x y = dev s x y := (rfl)
@[simp] theorem pwrCl_setF (f : Fld) (v : Nat) (x : Nat) : pwrCl (setF f v s) x = pwrCl s x := (rfl)
@[simp] theorem now_setF (f : Fld) (v : Nat)  : now (setF f v s) = now s := (rfl)
@[simp] theorem frameNo_setF (f : Fld) (v : Nat)  : frameNo (setF f v s) = frameNo s := (rfl)
@[simp] theorem turnInFrame_setF (f : Fld) (v : Nat)  : turnInFrame (setF f v s) = turnInFrame s := (rfl)
@[simp] theorem nextTick_setF (f : Fld) (v : Nat)  : nextTick (setF f v s) = nextTick s := (rfl)
@[simp] theorem readB_addF (f : Fld) (v : Nat) (x : Nat) : readB (addF f v s) x = readB s x := (rfl)
@[simp] theorem core_addF (f : Fld) (v : Nat) (x : Nat) : core (addF f v s) x = core s x := (rfl)
@[simp] theorem clus_addF (f : Fld) (v : Nat) (x : Nat) : clus (addF f v s) x = clus s x := (rfl)
@[simp] theorem ten_addF (f : Fld) (v : Nat) (x : Nat) : ten (addF f v s) x = ten s x := (rfl)
@[simp] theorem port_addF (f : Fld) (v : Nat) (x : Nat) : port (addF f v s) x = port s x := (rfl)
@[simp] theorem pad_addF (f : Fld) (v : Nat) (x : Nat) : pad (addF f v s) x = pad s x := (rfl)
@[simp] theorem fifo_addF (f : Fld) (v : Nat) (x : Nat) : fifo (addF f v s) x = fifo s x := (rfl)
@[simp] theorem chan_addF (f : Fld) (v : Nat) (x : Nat) : chan (addF f v s) x = chan s x := (rfl)
@[simp] theorem lgroup_addF (f : Fld) (v : Nat) (x : Nat) : lgroup (addF f v s) x = lgroup s x := (rfl)
@[simp] theorem drn_addF (f : Fld) (v : Nat) (x : Nat) : drn (addF f v s) x = drn s x := (rfl)
@[simp] theorem dev_addF (f : Fld) (v : Nat) (x y : Nat) : dev (addF f v s) x y = dev s x y := (rfl)
@[simp] theorem pwrCl_addF (f : Fld) (v : Nat) (x : Nat) : pwrCl (addF f v s) x = pwrCl s x := (rfl)
@[simp] theorem now_addF (f : Fld) (v : Nat)  : now (addF f v s) = now s := (rfl)
@[simp] theorem frameNo_addF (f : Fld) (v : Nat)  : frameNo (addF f v s) = frameNo s := (rfl)
@[simp] theorem turnInFrame_addF (f : Fld) (v : Nat)  : turnInFrame (addF f v s) = turnInFrame s := (rfl)
@[simp] theorem nextTick_addF (f : Fld) (v : Nat)  : nextTick (addF f v s) = nextTick s := (rfl)
@[simp] theorem reg_writeB (a : Nat) (b : Byte) (x : Nat) : reg (writeB a b s) x = reg s x := (rfl)
@[simp] theorem getF_writeB (a : Nat) (b : Byte) (g : Fld) : getF (writeB a b s) g = getF s g := (rfl)
@[simp] theorem isSet_writeB (a : Nat) (b : Byte) (g : Fld) : isSet (writeB a b s) g = isSet s g := (rfl)
@[simp] theorem core_writeB (a : Nat) (b : Byte) (x : Nat) : core (writeB a b s) x = core s x := (rfl)
@[simp] theorem clus_writeB (a : Nat) (b : Byte) (x : Nat) : clus (writeB a b s) x = clus s x := (rfl)
@[simp] theorem ten_writeB (a : Nat) (b : Byte) (x : Nat) : ten (writeB a b s) x = ten s x := (rfl)
@[simp] theorem port_writeB (a : Nat) (b : Byte) (x : Nat) : port (writeB a b s) x = port s x := (rfl)
@[simp] theorem pad_writeB (a : Nat) (b : Byte) (x : Nat) : pad (writeB a b s) x = pad s x := (rfl)
@[simp] theorem fifo_writeB (a : Nat) (b : Byte) (x : Nat) : fifo (writeB a b s) x = fifo s x := (rfl)
@[simp] theorem chan_writeB (a : Nat) (b : Byte) (x : Nat) : chan (writeB a b s) x = chan s x := (rfl)
@[simp] theorem lgroup_writeB (a : Nat) (b : Byte) (x : Nat) : lgroup (writeB a b s) x = lgroup s x := (rfl)
@[simp] theorem drn_writeB (a : Nat) (b : Byte) (x : Nat) : drn (writeB a b s) x = drn s x := (rfl)
@[simp] theorem dev_writeB (a : Nat) (b : Byte) (x y : Nat) : dev (writeB a b s) x y = dev s x y := (rfl)
@[simp] theorem pwrCl_writeB (a : Nat) (b : Byte) (x : Nat) : pwrCl (writeB a b s) x = pwrCl s x := (rfl)
@[simp] theorem now_writeB (a : Nat) (b : Byte)  : now (writeB a b s) = now s := (rfl)
@[simp] theorem frameNo_writeB (a : Nat) (b : Byte)  : frameNo (writeB a b s) = frameNo s := (rfl)
@[simp] theorem turnInFrame_writeB (a : Nat) (b : Byte)  : turnInFrame (writeB a b s) = turnInFrame s := (rfl)
@[simp] theorem nextTick_writeB (a : Nat) (b : Byte)  : nextTick (writeB a b s) = nextTick s := (rfl)
@[simp] theorem reg_clearMem (f : Nat → Bool) (x : Nat) : reg (clearMem f s) x = reg s x := (rfl)
@[simp] theorem getF_clearMem (f : Nat → Bool) (g : Fld) : getF (clearMem f s) g = getF s g := (rfl)
@[simp] theorem isSet_clearMem (f : Nat → Bool) (g : Fld) : isSet (clearMem f s) g = isSet s g := (rfl)
@[simp] theorem core_clearMem (f : Nat → Bool) (x : Nat) : core (clearMem f s) x = core s x := (rfl)
@[simp] theorem clus_clearMem (f : Nat → Bool) (x : Nat) : clus (clearMem f s) x = clus s x := (rfl)
@[simp] theorem ten_clearMem (f : Nat → Bool) (x : Nat) : ten (clearMem f s) x = ten s x := (rfl)
@[simp] theorem port_clearMem (f : Nat → Bool) (x : Nat) : port (clearMem f s) x = port s x := (rfl)
@[simp] theorem pad_clearMem (f : Nat → Bool) (x : Nat) : pad (clearMem f s) x = pad s x := (rfl)
@[simp] theorem fifo_clearMem (f : Nat → Bool) (x : Nat) : fifo (clearMem f s) x = fifo s x := (rfl)
@[simp] theorem chan_clearMem (f : Nat → Bool) (x : Nat) : chan (clearMem f s) x = chan s x := (rfl)
@[simp] theorem lgroup_clearMem (f : Nat → Bool) (x : Nat) : lgroup (clearMem f s) x = lgroup s x := (rfl)
@[simp] theorem drn_clearMem (f : Nat → Bool) (x : Nat) : drn (clearMem f s) x = drn s x := (rfl)
@[simp] theorem dev_clearMem (f : Nat → Bool) (x y : Nat) : dev (clearMem f s) x y = dev s x y := (rfl)
@[simp] theorem pwrCl_clearMem (f : Nat → Bool) (x : Nat) : pwrCl (clearMem f s) x = pwrCl s x := (rfl)
@[simp] theorem now_clearMem (f : Nat → Bool)  : now (clearMem f s) = now s := (rfl)
@[simp] theorem frameNo_clearMem (f : Nat → Bool)  : frameNo (clearMem f s) = frameNo s := (rfl)
@[simp] theorem turnInFrame_clearMem (f : Nat → Bool)  : turnInFrame (clearMem f s) = turnInFrame s := (rfl)
@[simp] theorem nextTick_clearMem (f : Nat → Bool)  : nextTick (clearMem f s) = nextTick s := (rfl)
@[simp] theorem readB_clearRegs (f : Nat → Bool) (x : Nat) : readB (clearRegs f s) x = readB s x := (rfl)
@[simp] theorem core_clearRegs (f : Nat → Bool) (x : Nat) : core (clearRegs f s) x = core s x := (rfl)
@[simp] theorem clus_clearRegs (f : Nat → Bool) (x : Nat) : clus (clearRegs f s) x = clus s x := (rfl)
@[simp] theorem ten_clearRegs (f : Nat → Bool) (x : Nat) : ten (clearRegs f s) x = ten s x := (rfl)
@[simp] theorem port_clearRegs (f : Nat → Bool) (x : Nat) : port (clearRegs f s) x = port s x := (rfl)
@[simp] theorem pad_clearRegs (f : Nat → Bool) (x : Nat) : pad (clearRegs f s) x = pad s x := (rfl)
@[simp] theorem fifo_clearRegs (f : Nat → Bool) (x : Nat) : fifo (clearRegs f s) x = fifo s x := (rfl)
@[simp] theorem chan_clearRegs (f : Nat → Bool) (x : Nat) : chan (clearRegs f s) x = chan s x := (rfl)
@[simp] theorem lgroup_clearRegs (f : Nat → Bool) (x : Nat) : lgroup (clearRegs f s) x = lgroup s x := (rfl)
@[simp] theorem drn_clearRegs (f : Nat → Bool) (x : Nat) : drn (clearRegs f s) x = drn s x := (rfl)
@[simp] theorem dev_clearRegs (f : Nat → Bool) (x y : Nat) : dev (clearRegs f s) x y = dev s x y := (rfl)
@[simp] theorem pwrCl_clearRegs (f : Nat → Bool) (x : Nat) : pwrCl (clearRegs f s) x = pwrCl s x := (rfl)
@[simp] theorem now_clearRegs (f : Nat → Bool)  : now (clearRegs f s) = now s := (rfl)
@[simp] theorem frameNo_clearRegs (f : Nat → Bool)  : frameNo (clearRegs f s) = frameNo s := (rfl)
@[simp] theorem turnInFrame_clearRegs (f : Nat → Bool)  : turnInFrame (clearRegs f s) = turnInFrame s := (rfl)
@[simp] theorem nextTick_clearRegs (f : Nat → Bool)  : nextTick (clearRegs f s) = nextTick s := (rfl)
@[simp] theorem reg_goTo (n : Nat) (x : Nat) : reg (goTo n s) x = reg s x := (rfl)
@[simp] theorem getF_goTo (n : Nat) (g : Fld) : getF (goTo n s) g = getF s g := (rfl)
@[simp] theorem isSet_goTo (n : Nat) (g : Fld) : isSet (goTo n s) g = isSet s g := (rfl)
@[simp] theorem readB_goTo (n : Nat) (x : Nat) : readB (goTo n s) x = readB s x := (rfl)
@[simp] theorem core_goTo (n : Nat) (x : Nat) : core (goTo n s) x = core s x := (rfl)
@[simp] theorem clus_goTo (n : Nat) (x : Nat) : clus (goTo n s) x = clus s x := (rfl)
@[simp] theorem ten_goTo (n : Nat) (x : Nat) : ten (goTo n s) x = ten s x := (rfl)
@[simp] theorem port_goTo (n : Nat) (x : Nat) : port (goTo n s) x = port s x := (rfl)
@[simp] theorem pad_goTo (n : Nat) (x : Nat) : pad (goTo n s) x = pad s x := (rfl)
@[simp] theorem fifo_goTo (n : Nat) (x : Nat) : fifo (goTo n s) x = fifo s x := (rfl)
@[simp] theorem chan_goTo (n : Nat) (x : Nat) : chan (goTo n s) x = chan s x := (rfl)
@[simp] theorem lgroup_goTo (n : Nat) (x : Nat) : lgroup (goTo n s) x = lgroup s x := (rfl)
@[simp] theorem drn_goTo (n : Nat) (x : Nat) : drn (goTo n s) x = drn s x := (rfl)
@[simp] theorem dev_goTo (n : Nat) (x y : Nat) : dev (goTo n s) x y = dev s x y := (rfl)
@[simp] theorem pwrCl_goTo (n : Nat) (x : Nat) : pwrCl (goTo n s) x = pwrCl s x := (rfl)
@[simp] theorem reg_useFresh  (x : Nat) : reg (useFresh  s) x = reg s x := (rfl)
@[simp] theorem getF_useFresh  (g : Fld) : getF (useFresh  s) g = getF s g := (rfl)
@[simp] theorem isSet_useFresh  (g : Fld) : isSet (useFresh  s) g = isSet s g := (rfl)
@[simp] theorem readB_useFresh  (x : Nat) : readB (useFresh  s) x = readB s x := (rfl)
@[simp] theorem core_useFresh  (x : Nat) : core (useFresh  s) x = core s x := (rfl)
@[simp] theorem clus_useFresh  (x : Nat) : clus (useFresh  s) x = clus s x := (rfl)
@[simp] theorem ten_useFresh  (x : Nat) : ten (useFresh  s) x = ten s x := (rfl)
@[simp] theorem port_useFresh  (x : Nat) : port (useFresh  s) x = port s x := (rfl)
@[simp] theorem pad_useFresh  (x : Nat) : pad (useFresh  s) x = pad s x := (rfl)
@[simp] theorem fifo_useFresh  (x : Nat) : fifo (useFresh  s) x = fifo s x := (rfl)
@[simp] theorem chan_useFresh  (x : Nat) : chan (useFresh  s) x = chan s x := (rfl)
@[simp] theorem lgroup_useFresh  (x : Nat) : lgroup (useFresh  s) x = lgroup s x := (rfl)
@[simp] theorem drn_useFresh  (x : Nat) : drn (useFresh  s) x = drn s x := (rfl)
@[simp] theorem dev_useFresh  (x y : Nat) : dev (useFresh  s) x y = dev s x y := (rfl)
@[simp] theorem pwrCl_useFresh  (x : Nat) : pwrCl (useFresh  s) x = pwrCl s x := (rfl)
@[simp] theorem now_useFresh   : now (useFresh  s) = now s := (rfl)
@[simp] theorem frameNo_useFresh   : frameNo (useFresh  s) = frameNo s := (rfl)
@[simp] theorem turnInFrame_useFresh   : turnInFrame (useFresh  s) = turnInFrame s := (rfl)
@[simp] theorem nextTick_useFresh   : nextTick (useFresh  s) = nextTick s := (rfl)
@[simp] theorem reg_setCore (i : Nat) (c : CoreSt) (x : Nat) : reg (setCore i c s) x = reg s x := (rfl)
@[simp] theorem getF_setCore (i : Nat) (c : CoreSt) (g : Fld) : getF (setCore i c s) g = getF s g := (rfl)
@[simp] theorem isSet_setCore (i : Nat) (c : CoreSt) (g : Fld) : isSet (setCore i c s) g = isSet s g := (rfl)
@[simp] theorem readB_setCore (i : Nat) (c : CoreSt) (x : Nat) : readB (setCore i c s) x = readB s x := (rfl)
@[simp] theorem clus_setCore (i : Nat) (c : CoreSt) (x : Nat) : clus (setCore i c s) x = clus s x := (rfl)
@[simp] theorem ten_setCore (i : Nat) (c : CoreSt) (x : Nat) : ten (setCore i c s) x = ten s x := (rfl)
@[simp] theorem port_setCore (i : Nat) (c : CoreSt) (x : Nat) : port (setCore i c s) x = port s x := (rfl)
@[simp] theorem pad_setCore (i : Nat) (c : CoreSt) (x : Nat) : pad (setCore i c s) x = pad s x := (rfl)
@[simp] theorem fifo_setCore (i : Nat) (c : CoreSt) (x : Nat) : fifo (setCore i c s) x = fifo s x := (rfl)
@[simp] theorem chan_setCore (i : Nat) (c : CoreSt) (x : Nat) : chan (setCore i c s) x = chan s x := (rfl)
@[simp] theorem lgroup_setCore (i : Nat) (c : CoreSt) (x : Nat) : lgroup (setCore i c s) x = lgroup s x := (rfl)
@[simp] theorem drn_setCore (i : Nat) (c : CoreSt) (x : Nat) : drn (setCore i c s) x = drn s x := (rfl)
@[simp] theorem dev_setCore (i : Nat) (c : CoreSt) (x y : Nat) : dev (setCore i c s) x y = dev s x y := (rfl)
@[simp] theorem pwrCl_setCore (i : Nat) (c : CoreSt) (x : Nat) : pwrCl (setCore i c s) x = pwrCl s x := (rfl)
@[simp] theorem now_setCore (i : Nat) (c : CoreSt)  : now (setCore i c s) = now s := (rfl)
@[simp] theorem frameNo_setCore (i : Nat) (c : CoreSt)  : frameNo (setCore i c s) = frameNo s := (rfl)
@[simp] theorem turnInFrame_setCore (i : Nat) (c : CoreSt)  : turnInFrame (setCore i c s) = turnInFrame s := (rfl)
@[simp] theorem nextTick_setCore (i : Nat) (c : CoreSt)  : nextTick (setCore i c s) = nextTick s := (rfl)
@[simp] theorem reg_updCore (i : Nat) (f : CoreSt → CoreSt) (x : Nat) : reg (updCore i f s) x = reg s x := (rfl)
@[simp] theorem getF_updCore (i : Nat) (f : CoreSt → CoreSt) (g : Fld) : getF (updCore i f s) g = getF s g := (rfl)
@[simp] theorem isSet_updCore (i : Nat) (f : CoreSt → CoreSt) (g : Fld) : isSet (updCore i f s) g = isSet s g := (rfl)
@[simp] theorem readB_updCore (i : Nat) (f : CoreSt → CoreSt) (x : Nat) : readB (updCore i f s) x = readB s x := (rfl)
@[simp] theorem clus_updCore (i : Nat) (f : CoreSt → CoreSt) (x : Nat) : clus (updCore i f s) x = clus s x := (rfl)
@[simp] theorem ten_updCore (i : Nat) (f : CoreSt → CoreSt) (x : Nat) : ten (updCore i f s) x = ten s x := (rfl)
@[simp] theorem port_updCore (i : Nat) (f : CoreSt → CoreSt) (x : Nat) : port (updCore i f s) x = port s x := (rfl)
@[simp] theorem pad_updCore (i : Nat) (f : CoreSt → CoreSt) (x : Nat) : pad (updCore i f s) x = pad s x := (rfl)
@[simp] theorem fifo_updCore (i : Nat) (f : CoreSt → CoreSt) (x : Nat) : fifo (updCore i f s) x = fifo s x := (rfl)
@[simp] theorem chan_updCore (i : Nat) (f : CoreSt → CoreSt) (x : Nat) : chan (updCore i f s) x = chan s x := (rfl)
@[simp] theorem lgroup_updCore (i : Nat) (f : CoreSt → CoreSt) (x : Nat) : lgroup (updCore i f s) x = lgroup s x := (rfl)
@[simp] theorem drn_updCore (i : Nat) (f : CoreSt → CoreSt) (x : Nat) : drn (updCore i f s) x = drn s x := (rfl)
@[simp] theorem dev_updCore (i : Nat) (f : CoreSt → CoreSt) (x y : Nat) : dev (updCore i f s) x y = dev s x y := (rfl)
@[simp] theorem pwrCl_updCore (i : Nat) (f : CoreSt → CoreSt) (x : Nat) : pwrCl (updCore i f s) x = pwrCl s x := (rfl)
@[simp] theorem now_updCore (i : Nat) (f : CoreSt → CoreSt)  : now (updCore i f s) = now s := (rfl)
@[simp] theorem frameNo_updCore (i : Nat) (f : CoreSt → CoreSt)  : frameNo (updCore i f s) = frameNo s := (rfl)
@[simp] theorem turnInFrame_updCore (i : Nat) (f : CoreSt → CoreSt)  : turnInFrame (updCore i f s) = turnInFrame s := (rfl)
@[simp] theorem nextTick_updCore (i : Nat) (f : CoreSt → CoreSt)  : nextTick (updCore i f s) = nextTick s := (rfl)
@[simp] theorem reg_updClus (n : Nat) (f : ClusterSt → ClusterSt) (x : Nat) : reg (updClus n f s) x = reg s x := (rfl)
@[simp] theorem getF_updClus (n : Nat) (f : ClusterSt → ClusterSt) (g : Fld) : getF (updClus n f s) g = getF s g := (rfl)
@[simp] theorem isSet_updClus (n : Nat) (f : ClusterSt → ClusterSt) (g : Fld) : isSet (updClus n f s) g = isSet s g := (rfl)
@[simp] theorem readB_updClus (n : Nat) (f : ClusterSt → ClusterSt) (x : Nat) : readB (updClus n f s) x = readB s x := (rfl)
@[simp] theorem core_updClus (n : Nat) (f : ClusterSt → ClusterSt) (x : Nat) : core (updClus n f s) x = core s x := (rfl)
@[simp] theorem ten_updClus (n : Nat) (f : ClusterSt → ClusterSt) (x : Nat) : ten (updClus n f s) x = ten s x := (rfl)
@[simp] theorem port_updClus (n : Nat) (f : ClusterSt → ClusterSt) (x : Nat) : port (updClus n f s) x = port s x := (rfl)
@[simp] theorem pad_updClus (n : Nat) (f : ClusterSt → ClusterSt) (x : Nat) : pad (updClus n f s) x = pad s x := (rfl)
@[simp] theorem fifo_updClus (n : Nat) (f : ClusterSt → ClusterSt) (x : Nat) : fifo (updClus n f s) x = fifo s x := (rfl)
@[simp] theorem chan_updClus (n : Nat) (f : ClusterSt → ClusterSt) (x : Nat) : chan (updClus n f s) x = chan s x := (rfl)
@[simp] theorem lgroup_updClus (n : Nat) (f : ClusterSt → ClusterSt) (x : Nat) : lgroup (updClus n f s) x = lgroup s x := (rfl)
@[simp] theorem drn_updClus (n : Nat) (f : ClusterSt → ClusterSt) (x : Nat) : drn (updClus n f s) x = drn s x := (rfl)
@[simp] theorem dev_updClus (n : Nat) (f : ClusterSt → ClusterSt) (x y : Nat) : dev (updClus n f s) x y = dev s x y := (rfl)
@[simp] theorem pwrCl_updClus (n : Nat) (f : ClusterSt → ClusterSt) (x : Nat) : pwrCl (updClus n f s) x = pwrCl s x := (rfl)
@[simp] theorem now_updClus (n : Nat) (f : ClusterSt → ClusterSt)  : now (updClus n f s) = now s := (rfl)
@[simp] theorem frameNo_updClus (n : Nat) (f : ClusterSt → ClusterSt)  : frameNo (updClus n f s) = frameNo s := (rfl)
@[simp] theorem turnInFrame_updClus (n : Nat) (f : ClusterSt → ClusterSt)  : turnInFrame (updClus n f s) = turnInFrame s := (rfl)
@[simp] theorem nextTick_updClus (n : Nat) (f : ClusterSt → ClusterSt)  : nextTick (updClus n f s) = nextTick s := (rfl)
@[simp] theorem reg_updTen (n : Nat) (f : TenantSt → TenantSt) (x : Nat) : reg (updTen n f s) x = reg s x := (rfl)
@[simp] theorem getF_updTen (n : Nat) (f : TenantSt → TenantSt) (g : Fld) : getF (updTen n f s) g = getF s g := (rfl)
@[simp] theorem isSet_updTen (n : Nat) (f : TenantSt → TenantSt) (g : Fld) : isSet (updTen n f s) g = isSet s g := (rfl)
@[simp] theorem readB_updTen (n : Nat) (f : TenantSt → TenantSt) (x : Nat) : readB (updTen n f s) x = readB s x := (rfl)
@[simp] theorem core_updTen (n : Nat) (f : TenantSt → TenantSt) (x : Nat) : core (updTen n f s) x = core s x := (rfl)
@[simp] theorem clus_updTen (n : Nat) (f : TenantSt → TenantSt) (x : Nat) : clus (updTen n f s) x = clus s x := (rfl)
@[simp] theorem port_updTen (n : Nat) (f : TenantSt → TenantSt) (x : Nat) : port (updTen n f s) x = port s x := (rfl)
@[simp] theorem pad_updTen (n : Nat) (f : TenantSt → TenantSt) (x : Nat) : pad (updTen n f s) x = pad s x := (rfl)
@[simp] theorem fifo_updTen (n : Nat) (f : TenantSt → TenantSt) (x : Nat) : fifo (updTen n f s) x = fifo s x := (rfl)
@[simp] theorem chan_updTen (n : Nat) (f : TenantSt → TenantSt) (x : Nat) : chan (updTen n f s) x = chan s x := (rfl)
@[simp] theorem lgroup_updTen (n : Nat) (f : TenantSt → TenantSt) (x : Nat) : lgroup (updTen n f s) x = lgroup s x := (rfl)
@[simp] theorem drn_updTen (n : Nat) (f : TenantSt → TenantSt) (x : Nat) : drn (updTen n f s) x = drn s x := (rfl)
@[simp] theorem dev_updTen (n : Nat) (f : TenantSt → TenantSt) (x y : Nat) : dev (updTen n f s) x y = dev s x y := (rfl)
@[simp] theorem pwrCl_updTen (n : Nat) (f : TenantSt → TenantSt) (x : Nat) : pwrCl (updTen n f s) x = pwrCl s x := (rfl)
@[simp] theorem now_updTen (n : Nat) (f : TenantSt → TenantSt)  : now (updTen n f s) = now s := (rfl)
@[simp] theorem frameNo_updTen (n : Nat) (f : TenantSt → TenantSt)  : frameNo (updTen n f s) = frameNo s := (rfl)
@[simp] theorem turnInFrame_updTen (n : Nat) (f : TenantSt → TenantSt)  : turnInFrame (updTen n f s) = turnInFrame s := (rfl)
@[simp] theorem nextTick_updTen (n : Nat) (f : TenantSt → TenantSt)  : nextTick (updTen n f s) = nextTick s := (rfl)
@[simp] theorem reg_updDev (n d : Nat) (f : DeviceSt → DeviceSt) (x : Nat) : reg (updDev n d f s) x = reg s x := (rfl)
@[simp] theorem getF_updDev (n d : Nat) (f : DeviceSt → DeviceSt) (g : Fld) : getF (updDev n d f s) g = getF s g := (rfl)
@[simp] theorem isSet_updDev (n d : Nat) (f : DeviceSt → DeviceSt) (g : Fld) : isSet (updDev n d f s) g = isSet s g := (rfl)
@[simp] theorem readB_updDev (n d : Nat) (f : DeviceSt → DeviceSt) (x : Nat) : readB (updDev n d f s) x = readB s x := (rfl)
@[simp] theorem core_updDev (n d : Nat) (f : DeviceSt → DeviceSt) (x : Nat) : core (updDev n d f s) x = core s x := (rfl)
@[simp] theorem clus_updDev (n d : Nat) (f : DeviceSt → DeviceSt) (x : Nat) : clus (updDev n d f s) x = clus s x := (rfl)
@[simp] theorem ten_updDev (n d : Nat) (f : DeviceSt → DeviceSt) (x : Nat) : ten (updDev n d f s) x = ten s x := (rfl)
@[simp] theorem port_updDev (n d : Nat) (f : DeviceSt → DeviceSt) (x : Nat) : port (updDev n d f s) x = port s x := (rfl)
@[simp] theorem pad_updDev (n d : Nat) (f : DeviceSt → DeviceSt) (x : Nat) : pad (updDev n d f s) x = pad s x := (rfl)
@[simp] theorem fifo_updDev (n d : Nat) (f : DeviceSt → DeviceSt) (x : Nat) : fifo (updDev n d f s) x = fifo s x := (rfl)
@[simp] theorem chan_updDev (n d : Nat) (f : DeviceSt → DeviceSt) (x : Nat) : chan (updDev n d f s) x = chan s x := (rfl)
@[simp] theorem lgroup_updDev (n d : Nat) (f : DeviceSt → DeviceSt) (x : Nat) : lgroup (updDev n d f s) x = lgroup s x := (rfl)
@[simp] theorem drn_updDev (n d : Nat) (f : DeviceSt → DeviceSt) (x : Nat) : drn (updDev n d f s) x = drn s x := (rfl)
@[simp] theorem pwrCl_updDev (n d : Nat) (f : DeviceSt → DeviceSt) (x : Nat) : pwrCl (updDev n d f s) x = pwrCl s x := (rfl)
@[simp] theorem now_updDev (n d : Nat) (f : DeviceSt → DeviceSt)  : now (updDev n d f s) = now s := (rfl)
@[simp] theorem frameNo_updDev (n d : Nat) (f : DeviceSt → DeviceSt)  : frameNo (updDev n d f s) = frameNo s := (rfl)
@[simp] theorem turnInFrame_updDev (n d : Nat) (f : DeviceSt → DeviceSt)  : turnInFrame (updDev n d f s) = turnInFrame s := (rfl)
@[simp] theorem nextTick_updDev (n d : Nat) (f : DeviceSt → DeviceSt)  : nextTick (updDev n d f s) = nextTick s := (rfl)
@[simp] theorem reg_updPort (n : Nat) (f : PortSt → PortSt) (x : Nat) : reg (updPort n f s) x = reg s x := (rfl)
@[simp] theorem getF_updPort (n : Nat) (f : PortSt → PortSt) (g : Fld) : getF (updPort n f s) g = getF s g := (rfl)
@[simp] theorem isSet_updPort (n : Nat) (f : PortSt → PortSt) (g : Fld) : isSet (updPort n f s) g = isSet s g := (rfl)
@[simp] theorem readB_updPort (n : Nat) (f : PortSt → PortSt) (x : Nat) : readB (updPort n f s) x = readB s x := (rfl)
@[simp] theorem core_updPort (n : Nat) (f : PortSt → PortSt) (x : Nat) : core (updPort n f s) x = core s x := (rfl)
@[simp] theorem clus_updPort (n : Nat) (f : PortSt → PortSt) (x : Nat) : clus (updPort n f s) x = clus s x := (rfl)
@[simp] theorem ten_updPort (n : Nat) (f : PortSt → PortSt) (x : Nat) : ten (updPort n f s) x = ten s x := (rfl)
@[simp] theorem pad_updPort (n : Nat) (f : PortSt → PortSt) (x : Nat) : pad (updPort n f s) x = pad s x := (rfl)
@[simp] theorem fifo_updPort (n : Nat) (f : PortSt → PortSt) (x : Nat) : fifo (updPort n f s) x = fifo s x := (rfl)
@[simp] theorem chan_updPort (n : Nat) (f : PortSt → PortSt) (x : Nat) : chan (updPort n f s) x = chan s x := (rfl)
@[simp] theorem lgroup_updPort (n : Nat) (f : PortSt → PortSt) (x : Nat) : lgroup (updPort n f s) x = lgroup s x := (rfl)
@[simp] theorem drn_updPort (n : Nat) (f : PortSt → PortSt) (x : Nat) : drn (updPort n f s) x = drn s x := (rfl)
@[simp] theorem dev_updPort (n : Nat) (f : PortSt → PortSt) (x y : Nat) : dev (updPort n f s) x y = dev s x y := (rfl)
@[simp] theorem pwrCl_updPort (n : Nat) (f : PortSt → PortSt) (x : Nat) : pwrCl (updPort n f s) x = pwrCl s x := (rfl)
@[simp] theorem now_updPort (n : Nat) (f : PortSt → PortSt)  : now (updPort n f s) = now s := (rfl)
@[simp] theorem frameNo_updPort (n : Nat) (f : PortSt → PortSt)  : frameNo (updPort n f s) = frameNo s := (rfl)
@[simp] theorem turnInFrame_updPort (n : Nat) (f : PortSt → PortSt)  : turnInFrame (updPort n f s) = turnInFrame s := (rfl)
@[simp] theorem nextTick_updPort (n : Nat) (f : PortSt → PortSt)  : nextTick (updPort n f s) = nextTick s := (rfl)
@[simp] theorem reg_updPad (n : Nat) (f : PadSt → PadSt) (x : Nat) : reg (updPad n f s) x = reg s x := (rfl)
@[simp] theorem getF_updPad (n : Nat) (f : PadSt → PadSt) (g : Fld) : getF (updPad n f s) g = getF s g := (rfl)
@[simp] theorem isSet_updPad (n : Nat) (f : PadSt → PadSt) (g : Fld) : isSet (updPad n f s) g = isSet s g := (rfl)
@[simp] theorem readB_updPad (n : Nat) (f : PadSt → PadSt) (x : Nat) : readB (updPad n f s) x = readB s x := (rfl)
@[simp] theorem core_updPad (n : Nat) (f : PadSt → PadSt) (x : Nat) : core (updPad n f s) x = core s x := (rfl)
@[simp] theorem clus_updPad (n : Nat) (f : PadSt → PadSt) (x : Nat) : clus (updPad n f s) x = clus s x := (rfl)
@[simp] theorem ten_updPad (n : Nat) (f : PadSt → PadSt) (x : Nat) : ten (updPad n f s) x = ten s x := (rfl)
@[simp] theorem port_updPad (n : Nat) (f : PadSt → PadSt) (x : Nat) : port (updPad n f s) x = port s x := (rfl)
@[simp] theorem fifo_updPad (n : Nat) (f : PadSt → PadSt) (x : Nat) : fifo (updPad n f s) x = fifo s x := (rfl)
@[simp] theorem chan_updPad (n : Nat) (f : PadSt → PadSt) (x : Nat) : chan (updPad n f s) x = chan s x := (rfl)
@[simp] theorem lgroup_updPad (n : Nat) (f : PadSt → PadSt) (x : Nat) : lgroup (updPad n f s) x = lgroup s x := (rfl)
@[simp] theorem drn_updPad (n : Nat) (f : PadSt → PadSt) (x : Nat) : drn (updPad n f s) x = drn s x := (rfl)
@[simp] theorem dev_updPad (n : Nat) (f : PadSt → PadSt) (x y : Nat) : dev (updPad n f s) x y = dev s x y := (rfl)
@[simp] theorem pwrCl_updPad (n : Nat) (f : PadSt → PadSt) (x : Nat) : pwrCl (updPad n f s) x = pwrCl s x := (rfl)
@[simp] theorem now_updPad (n : Nat) (f : PadSt → PadSt)  : now (updPad n f s) = now s := (rfl)
@[simp] theorem frameNo_updPad (n : Nat) (f : PadSt → PadSt)  : frameNo (updPad n f s) = frameNo s := (rfl)
@[simp] theorem turnInFrame_updPad (n : Nat) (f : PadSt → PadSt)  : turnInFrame (updPad n f s) = turnInFrame s := (rfl)
@[simp] theorem nextTick_updPad (n : Nat) (f : PadSt → PadSt)  : nextTick (updPad n f s) = nextTick s := (rfl)
@[simp] theorem reg_updFifo (n : Nat) (f : FifoSt → FifoSt) (x : Nat) : reg (updFifo n f s) x = reg s x := (rfl)
@[simp] theorem getF_updFifo (n : Nat) (f : FifoSt → FifoSt) (g : Fld) : getF (updFifo n f s) g = getF s g := (rfl)
@[simp] theorem isSet_updFifo (n : Nat) (f : FifoSt → FifoSt) (g : Fld) : isSet (updFifo n f s) g = isSet s g := (rfl)
@[simp] theorem readB_updFifo (n : Nat) (f : FifoSt → FifoSt) (x : Nat) : readB (updFifo n f s) x = readB s x := (rfl)
@[simp] theorem core_updFifo (n : Nat) (f : FifoSt → FifoSt) (x : Nat) : core (updFifo n f s) x = core s x := (rfl)
@[simp] theorem clus_updFifo (n : Nat) (f : FifoSt → FifoSt) (x : Nat) : clus (updFifo n f s) x = clus s x := (rfl)
@[simp] theorem ten_updFifo (n : Nat) (f : FifoSt → FifoSt) (x : Nat) : ten (updFifo n f s) x = ten s x := (rfl)
@[simp] theorem port_updFifo (n : Nat) (f : FifoSt → FifoSt) (x : Nat) : port (updFifo n f s) x = port s x := (rfl)
@[simp] theorem pad_updFifo (n : Nat) (f : FifoSt → FifoSt) (x : Nat) : pad (updFifo n f s) x = pad s x := (rfl)
@[simp] theorem chan_updFifo (n : Nat) (f : FifoSt → FifoSt) (x : Nat) : chan (updFifo n f s) x = chan s x := (rfl)
@[simp] theorem lgroup_updFifo (n : Nat) (f : FifoSt → FifoSt) (x : Nat) : lgroup (updFifo n f s) x = lgroup s x := (rfl)
@[simp] theorem drn_updFifo (n : Nat) (f : FifoSt → FifoSt) (x : Nat) : drn (updFifo n f s) x = drn s x := (rfl)
@[simp] theorem dev_updFifo (n : Nat) (f : FifoSt → FifoSt) (x y : Nat) : dev (updFifo n f s) x y = dev s x y := (rfl)
@[simp] theorem pwrCl_updFifo (n : Nat) (f : FifoSt → FifoSt) (x : Nat) : pwrCl (updFifo n f s) x = pwrCl s x := (rfl)
@[simp] theorem now_updFifo (n : Nat) (f : FifoSt → FifoSt)  : now (updFifo n f s) = now s := (rfl)
@[simp] theorem frameNo_updFifo (n : Nat) (f : FifoSt → FifoSt)  : frameNo (updFifo n f s) = frameNo s := (rfl)
@[simp] theorem turnInFrame_updFifo (n : Nat) (f : FifoSt → FifoSt)  : turnInFrame (updFifo n f s) = turnInFrame s := (rfl)
@[simp] theorem nextTick_updFifo (n : Nat) (f : FifoSt → FifoSt)  : nextTick (updFifo n f s) = nextTick s := (rfl)
@[simp] theorem reg_updChan (n : Nat) (f : ChanSt → ChanSt) (x : Nat) : reg (updChan n f s) x = reg s x := (rfl)
@[simp] theorem getF_updChan (n : Nat) (f : ChanSt → ChanSt) (g : Fld) : getF (updChan n f s) g = getF s g := (rfl)
@[simp] theorem isSet_updChan (n : Nat) (f : ChanSt → ChanSt) (g : Fld) : isSet (updChan n f s) g = isSet s g := (rfl)
@[simp] theorem readB_updChan (n : Nat) (f : ChanSt → ChanSt) (x : Nat) : readB (updChan n f s) x = readB s x := (rfl)
@[simp] theorem core_updChan (n : Nat) (f : ChanSt → ChanSt) (x : Nat) : core (updChan n f s) x = core s x := (rfl)
@[simp] theorem clus_updChan (n : Nat) (f : ChanSt → ChanSt) (x : Nat) : clus (updChan n f s) x = clus s x := (rfl)
@[simp] theorem ten_updChan (n : Nat) (f : ChanSt → ChanSt) (x : Nat) : ten (updChan n f s) x = ten s x := (rfl)
@[simp] theorem port_updChan (n : Nat) (f : ChanSt → ChanSt) (x : Nat) : port (updChan n f s) x = port s x := (rfl)
@[simp] theorem pad_updChan (n : Nat) (f : ChanSt → ChanSt) (x : Nat) : pad (updChan n f s) x = pad s x := (rfl)
@[simp] theorem fifo_updChan (n : Nat) (f : ChanSt → ChanSt) (x : Nat) : fifo (updChan n f s) x = fifo s x := (rfl)
@[simp] theorem lgroup_updChan (n : Nat) (f : ChanSt → ChanSt) (x : Nat) : lgroup (updChan n f s) x = lgroup s x := (rfl)
@[simp] theorem drn_updChan (n : Nat) (f : ChanSt → ChanSt) (x : Nat) : drn (updChan n f s) x = drn s x := (rfl)
@[simp] theorem dev_updChan (n : Nat) (f : ChanSt → ChanSt) (x y : Nat) : dev (updChan n f s) x y = dev s x y := (rfl)
@[simp] theorem pwrCl_updChan (n : Nat) (f : ChanSt → ChanSt) (x : Nat) : pwrCl (updChan n f s) x = pwrCl s x := (rfl)
@[simp] theorem now_updChan (n : Nat) (f : ChanSt → ChanSt)  : now (updChan n f s) = now s := (rfl)
@[simp] theorem frameNo_updChan (n : Nat) (f : ChanSt → ChanSt)  : frameNo (updChan n f s) = frameNo s := (rfl)
@[simp] theorem turnInFrame_updChan (n : Nat) (f : ChanSt → ChanSt)  : turnInFrame (updChan n f s) = turnInFrame s := (rfl)
@[simp] theorem nextTick_updChan (n : Nat) (f : ChanSt → ChanSt)  : nextTick (updChan n f s) = nextTick s := (rfl)
@[simp] theorem reg_updLGroup (n : Nat) (f : LGroupSt → LGroupSt) (x : Nat) : reg (updLGroup n f s) x = reg s x := (rfl)
@[simp] theorem getF_updLGroup (n : Nat) (f : LGroupSt → LGroupSt) (g : Fld) : getF (updLGroup n f s) g = getF s g := (rfl)
@[simp] theorem isSet_updLGroup (n : Nat) (f : LGroupSt → LGroupSt) (g : Fld) : isSet (updLGroup n f s) g = isSet s g := (rfl)
@[simp] theorem readB_updLGroup (n : Nat) (f : LGroupSt → LGroupSt) (x : Nat) : readB (updLGroup n f s) x = readB s x := (rfl)
@[simp] theorem core_updLGroup (n : Nat) (f : LGroupSt → LGroupSt) (x : Nat) : core (updLGroup n f s) x = core s x := (rfl)
@[simp] theorem clus_updLGroup (n : Nat) (f : LGroupSt → LGroupSt) (x : Nat) : clus (updLGroup n f s) x = clus s x := (rfl)
@[simp] theorem ten_updLGroup (n : Nat) (f : LGroupSt → LGroupSt) (x : Nat) : ten (updLGroup n f s) x = ten s x := (rfl)
@[simp] theorem port_updLGroup (n : Nat) (f : LGroupSt → LGroupSt) (x : Nat) : port (updLGroup n f s) x = port s x := (rfl)
@[simp] theorem pad_updLGroup (n : Nat) (f : LGroupSt → LGroupSt) (x : Nat) : pad (updLGroup n f s) x = pad s x := (rfl)
@[simp] theorem fifo_updLGroup (n : Nat) (f : LGroupSt → LGroupSt) (x : Nat) : fifo (updLGroup n f s) x = fifo s x := (rfl)
@[simp] theorem chan_updLGroup (n : Nat) (f : LGroupSt → LGroupSt) (x : Nat) : chan (updLGroup n f s) x = chan s x := (rfl)
@[simp] theorem drn_updLGroup (n : Nat) (f : LGroupSt → LGroupSt) (x : Nat) : drn (updLGroup n f s) x = drn s x := (rfl)
@[simp] theorem dev_updLGroup (n : Nat) (f : LGroupSt → LGroupSt) (x y : Nat) : dev (updLGroup n f s) x y = dev s x y := (rfl)
@[simp] theorem pwrCl_updLGroup (n : Nat) (f : LGroupSt → LGroupSt) (x : Nat) : pwrCl (updLGroup n f s) x = pwrCl s x := (rfl)
@[simp] theorem now_updLGroup (n : Nat) (f : LGroupSt → LGroupSt)  : now (updLGroup n f s) = now s := (rfl)
@[simp] theorem frameNo_updLGroup (n : Nat) (f : LGroupSt → LGroupSt)  : frameNo (updLGroup n f s) = frameNo s := (rfl)
@[simp] theorem turnInFrame_updLGroup (n : Nat) (f : LGroupSt → LGroupSt)  : turnInFrame (updLGroup n f s) = turnInFrame s := (rfl)
@[simp] theorem nextTick_updLGroup (n : Nat) (f : LGroupSt → LGroupSt)  : nextTick (updLGroup n f s) = nextTick s := (rfl)
@[simp] theorem reg_updDrn (n : Nat) (f : DrnSt → DrnSt) (x : Nat) : reg (updDrn n f s) x = reg s x := (rfl)
@[simp] theorem getF_updDrn (n : Nat) (f : DrnSt → DrnSt) (g : Fld) : getF (updDrn n f s) g = getF s g := (rfl)
@[simp] theorem isSet_updDrn (n : Nat) (f : DrnSt → DrnSt) (g : Fld) : isSet (updDrn n f s) g = isSet s g := (rfl)
@[simp] theorem readB_updDrn (n : Nat) (f : DrnSt → DrnSt) (x : Nat) : readB (updDrn n f s) x = readB s x := (rfl)
@[simp] theorem core_updDrn (n : Nat) (f : DrnSt → DrnSt) (x : Nat) : core (updDrn n f s) x = core s x := (rfl)
@[simp] theorem clus_updDrn (n : Nat) (f : DrnSt → DrnSt) (x : Nat) : clus (updDrn n f s) x = clus s x := (rfl)
@[simp] theorem ten_updDrn (n : Nat) (f : DrnSt → DrnSt) (x : Nat) : ten (updDrn n f s) x = ten s x := (rfl)
@[simp] theorem port_updDrn (n : Nat) (f : DrnSt → DrnSt) (x : Nat) : port (updDrn n f s) x = port s x := (rfl)
@[simp] theorem pad_updDrn (n : Nat) (f : DrnSt → DrnSt) (x : Nat) : pad (updDrn n f s) x = pad s x := (rfl)
@[simp] theorem fifo_updDrn (n : Nat) (f : DrnSt → DrnSt) (x : Nat) : fifo (updDrn n f s) x = fifo s x := (rfl)
@[simp] theorem chan_updDrn (n : Nat) (f : DrnSt → DrnSt) (x : Nat) : chan (updDrn n f s) x = chan s x := (rfl)
@[simp] theorem lgroup_updDrn (n : Nat) (f : DrnSt → DrnSt) (x : Nat) : lgroup (updDrn n f s) x = lgroup s x := (rfl)
@[simp] theorem dev_updDrn (n : Nat) (f : DrnSt → DrnSt) (x y : Nat) : dev (updDrn n f s) x y = dev s x y := (rfl)
@[simp] theorem pwrCl_updDrn (n : Nat) (f : DrnSt → DrnSt) (x : Nat) : pwrCl (updDrn n f s) x = pwrCl s x := (rfl)
@[simp] theorem now_updDrn (n : Nat) (f : DrnSt → DrnSt)  : now (updDrn n f s) = now s := (rfl)
@[simp] theorem frameNo_updDrn (n : Nat) (f : DrnSt → DrnSt)  : frameNo (updDrn n f s) = frameNo s := (rfl)
@[simp] theorem turnInFrame_updDrn (n : Nat) (f : DrnSt → DrnSt)  : turnInFrame (updDrn n f s) = turnInFrame s := (rfl)
@[simp] theorem nextTick_updDrn (n : Nat) (f : DrnSt → DrnSt)  : nextTick (updDrn n f s) = nextTick s := (rfl)
@[simp] theorem reg_updPwrCl (n : Nat) (f : PwrCl → PwrCl) (x : Nat) : reg (updPwrCl n f s) x = reg s x := (rfl)
@[simp] theorem getF_updPwrCl (n : Nat) (f : PwrCl → PwrCl) (g : Fld) : getF (updPwrCl n f s) g = getF s g := (rfl)
@[simp] theorem isSet_updPwrCl (n : Nat) (f : PwrCl → PwrCl) (g : Fld) : isSet (updPwrCl n f s) g = isSet s g := (rfl)
@[simp] theorem readB_updPwrCl (n : Nat) (f : PwrCl → PwrCl) (x : Nat) : readB (updPwrCl n f s) x = readB s x := (rfl)
@[simp] theorem core_updPwrCl (n : Nat) (f : PwrCl → PwrCl) (x : Nat) : core (updPwrCl n f s) x = core s x := (rfl)
@[simp] theorem clus_updPwrCl (n : Nat) (f : PwrCl → PwrCl) (x : Nat) : clus (updPwrCl n f s) x = clus s x := (rfl)
@[simp] theorem ten_updPwrCl (n : Nat) (f : PwrCl → PwrCl) (x : Nat) : ten (updPwrCl n f s) x = ten s x := (rfl)
@[simp] theorem port_updPwrCl (n : Nat) (f : PwrCl → PwrCl) (x : Nat) : port (updPwrCl n f s) x = port s x := (rfl)
@[simp] theorem pad_updPwrCl (n : Nat) (f : PwrCl → PwrCl) (x : Nat) : pad (updPwrCl n f s) x = pad s x := (rfl)
@[simp] theorem fifo_updPwrCl (n : Nat) (f : PwrCl → PwrCl) (x : Nat) : fifo (updPwrCl n f s) x = fifo s x := (rfl)
@[simp] theorem chan_updPwrCl (n : Nat) (f : PwrCl → PwrCl) (x : Nat) : chan (updPwrCl n f s) x = chan s x := (rfl)
@[simp] theorem lgroup_updPwrCl (n : Nat) (f : PwrCl → PwrCl) (x : Nat) : lgroup (updPwrCl n f s) x = lgroup s x := (rfl)
@[simp] theorem drn_updPwrCl (n : Nat) (f : PwrCl → PwrCl) (x : Nat) : drn (updPwrCl n f s) x = drn s x := (rfl)
@[simp] theorem dev_updPwrCl (n : Nat) (f : PwrCl → PwrCl) (x y : Nat) : dev (updPwrCl n f s) x y = dev s x y := (rfl)
@[simp] theorem now_updPwrCl (n : Nat) (f : PwrCl → PwrCl)  : now (updPwrCl n f s) = now s := (rfl)
@[simp] theorem frameNo_updPwrCl (n : Nat) (f : PwrCl → PwrCl)  : frameNo (updPwrCl n f s) = frameNo s := (rfl)
@[simp] theorem turnInFrame_updPwrCl (n : Nat) (f : PwrCl → PwrCl)  : turnInFrame (updPwrCl n f s) = turnInFrame s := (rfl)
@[simp] theorem nextTick_updPwrCl (n : Nat) (f : PwrCl → PwrCl)  : nextTick (updPwrCl n f s) = nextTick s := (rfl)
@[simp] theorem reg_updHost (f : HostSt → HostSt) (x : Nat) : reg (updHost f s) x = reg s x := (rfl)
@[simp] theorem getF_updHost (f : HostSt → HostSt) (g : Fld) : getF (updHost f s) g = getF s g := (rfl)
@[simp] theorem isSet_updHost (f : HostSt → HostSt) (g : Fld) : isSet (updHost f s) g = isSet s g := (rfl)
@[simp] theorem readB_updHost (f : HostSt → HostSt) (x : Nat) : readB (updHost f s) x = readB s x := (rfl)
@[simp] theorem core_updHost (f : HostSt → HostSt) (x : Nat) : core (updHost f s) x = core s x := (rfl)
@[simp] theorem clus_updHost (f : HostSt → HostSt) (x : Nat) : clus (updHost f s) x = clus s x := (rfl)
@[simp] theorem ten_updHost (f : HostSt → HostSt) (x : Nat) : ten (updHost f s) x = ten s x := (rfl)
@[simp] theorem port_updHost (f : HostSt → HostSt) (x : Nat) : port (updHost f s) x = port s x := (rfl)
@[simp] theorem pad_updHost (f : HostSt → HostSt) (x : Nat) : pad (updHost f s) x = pad s x := (rfl)
@[simp] theorem fifo_updHost (f : HostSt → HostSt) (x : Nat) : fifo (updHost f s) x = fifo s x := (rfl)
@[simp] theorem chan_updHost (f : HostSt → HostSt) (x : Nat) : chan (updHost f s) x = chan s x := (rfl)
@[simp] theorem lgroup_updHost (f : HostSt → HostSt) (x : Nat) : lgroup (updHost f s) x = lgroup s x := (rfl)
@[simp] theorem drn_updHost (f : HostSt → HostSt) (x : Nat) : drn (updHost f s) x = drn s x := (rfl)
@[simp] theorem dev_updHost (f : HostSt → HostSt) (x y : Nat) : dev (updHost f s) x y = dev s x y := (rfl)
@[simp] theorem pwrCl_updHost (f : HostSt → HostSt) (x : Nat) : pwrCl (updHost f s) x = pwrCl s x := (rfl)
@[simp] theorem now_updHost (f : HostSt → HostSt)  : now (updHost f s) = now s := (rfl)
@[simp] theorem frameNo_updHost (f : HostSt → HostSt)  : frameNo (updHost f s) = frameNo s := (rfl)
@[simp] theorem turnInFrame_updHost (f : HostSt → HostSt)  : turnInFrame (updHost f s) = turnInFrame s := (rfl)
@[simp] theorem nextTick_updHost (f : HostSt → HostSt)  : nextTick (updHost f s) = nextTick s := (rfl)
@[simp] theorem reg_updGuard (f : GuardSt → GuardSt) (x : Nat) : reg (updGuard f s) x = reg s x := (rfl)
@[simp] theorem getF_updGuard (f : GuardSt → GuardSt) (g : Fld) : getF (updGuard f s) g = getF s g := (rfl)
@[simp] theorem isSet_updGuard (f : GuardSt → GuardSt) (g : Fld) : isSet (updGuard f s) g = isSet s g := (rfl)
@[simp] theorem readB_updGuard (f : GuardSt → GuardSt) (x : Nat) : readB (updGuard f s) x = readB s x := (rfl)
@[simp] theorem core_updGuard (f : GuardSt → GuardSt) (x : Nat) : core (updGuard f s) x = core s x := (rfl)
@[simp] theorem clus_updGuard (f : GuardSt → GuardSt) (x : Nat) : clus (updGuard f s) x = clus s x := (rfl)
@[simp] theorem ten_updGuard (f : GuardSt → GuardSt) (x : Nat) : ten (updGuard f s) x = ten s x := (rfl)
@[simp] theorem port_updGuard (f : GuardSt → GuardSt) (x : Nat) : port (updGuard f s) x = port s x := (rfl)
@[simp] theorem pad_updGuard (f : GuardSt → GuardSt) (x : Nat) : pad (updGuard f s) x = pad s x := (rfl)
@[simp] theorem fifo_updGuard (f : GuardSt → GuardSt) (x : Nat) : fifo (updGuard f s) x = fifo s x := (rfl)
@[simp] theorem chan_updGuard (f : GuardSt → GuardSt) (x : Nat) : chan (updGuard f s) x = chan s x := (rfl)
@[simp] theorem lgroup_updGuard (f : GuardSt → GuardSt) (x : Nat) : lgroup (updGuard f s) x = lgroup s x := (rfl)
@[simp] theorem drn_updGuard (f : GuardSt → GuardSt) (x : Nat) : drn (updGuard f s) x = drn s x := (rfl)
@[simp] theorem dev_updGuard (f : GuardSt → GuardSt) (x y : Nat) : dev (updGuard f s) x y = dev s x y := (rfl)
@[simp] theorem pwrCl_updGuard (f : GuardSt → GuardSt) (x : Nat) : pwrCl (updGuard f s) x = pwrCl s x := (rfl)
@[simp] theorem now_updGuard (f : GuardSt → GuardSt)  : now (updGuard f s) = now s := (rfl)
@[simp] theorem frameNo_updGuard (f : GuardSt → GuardSt)  : frameNo (updGuard f s) = frameNo s := (rfl)
@[simp] theorem turnInFrame_updGuard (f : GuardSt → GuardSt)  : turnInFrame (updGuard f s) = turnInFrame s := (rfl)
@[simp] theorem nextTick_updGuard (f : GuardSt → GuardSt)  : nextTick (updGuard f s) = nextTick s := (rfl)
@[simp] theorem reg_updGroup (f : GroupSt → GroupSt) (x : Nat) : reg (updGroup f s) x = reg s x := (rfl)
@[simp] theorem getF_updGroup (f : GroupSt → GroupSt) (g : Fld) : getF (updGroup f s) g = getF s g := (rfl)
@[simp] theorem isSet_updGroup (f : GroupSt → GroupSt) (g : Fld) : isSet (updGroup f s) g = isSet s g := (rfl)
@[simp] theorem readB_updGroup (f : GroupSt → GroupSt) (x : Nat) : readB (updGroup f s) x = readB s x := (rfl)
@[simp] theorem core_updGroup (f : GroupSt → GroupSt) (x : Nat) : core (updGroup f s) x = core s x := (rfl)
@[simp] theorem clus_updGroup (f : GroupSt → GroupSt) (x : Nat) : clus (updGroup f s) x = clus s x := (rfl)
@[simp] theorem ten_updGroup (f : GroupSt → GroupSt) (x : Nat) : ten (updGroup f s) x = ten s x := (rfl)
@[simp] theorem port_updGroup (f : GroupSt → GroupSt) (x : Nat) : port (updGroup f s) x = port s x := (rfl)
@[simp] theorem pad_updGroup (f : GroupSt → GroupSt) (x : Nat) : pad (updGroup f s) x = pad s x := (rfl)
@[simp] theorem fifo_updGroup (f : GroupSt → GroupSt) (x : Nat) : fifo (updGroup f s) x = fifo s x := (rfl)
@[simp] theorem chan_updGroup (f : GroupSt → GroupSt) (x : Nat) : chan (updGroup f s) x = chan s x := (rfl)
@[simp] theorem lgroup_updGroup (f : GroupSt → GroupSt) (x : Nat) : lgroup (updGroup f s) x = lgroup s x := (rfl)
@[simp] theorem drn_updGroup (f : GroupSt → GroupSt) (x : Nat) : drn (updGroup f s) x = drn s x := (rfl)
@[simp] theorem dev_updGroup (f : GroupSt → GroupSt) (x y : Nat) : dev (updGroup f s) x y = dev s x y := (rfl)
@[simp] theorem pwrCl_updGroup (f : GroupSt → GroupSt) (x : Nat) : pwrCl (updGroup f s) x = pwrCl s x := (rfl)
@[simp] theorem now_updGroup (f : GroupSt → GroupSt)  : now (updGroup f s) = now s := (rfl)
@[simp] theorem frameNo_updGroup (f : GroupSt → GroupSt)  : frameNo (updGroup f s) = frameNo s := (rfl)
@[simp] theorem turnInFrame_updGroup (f : GroupSt → GroupSt)  : turnInFrame (updGroup f s) = turnInFrame s := (rfl)
@[simp] theorem nextTick_updGroup (f : GroupSt → GroupSt)  : nextTick (updGroup f s) = nextTick s := (rfl)
@[simp] theorem reg_updJnl (f : JournalSt → JournalSt) (x : Nat) : reg (updJnl f s) x = reg s x := (rfl)
@[simp] theorem getF_updJnl (f : JournalSt → JournalSt) (g : Fld) : getF (updJnl f s) g = getF s g := (rfl)
@[simp] theorem isSet_updJnl (f : JournalSt → JournalSt) (g : Fld) : isSet (updJnl f s) g = isSet s g := (rfl)
@[simp] theorem readB_updJnl (f : JournalSt → JournalSt) (x : Nat) : readB (updJnl f s) x = readB s x := (rfl)
@[simp] theorem core_updJnl (f : JournalSt → JournalSt) (x : Nat) : core (updJnl f s) x = core s x := (rfl)
@[simp] theorem clus_updJnl (f : JournalSt → JournalSt) (x : Nat) : clus (updJnl f s) x = clus s x := (rfl)
@[simp] theorem ten_updJnl (f : JournalSt → JournalSt) (x : Nat) : ten (updJnl f s) x = ten s x := (rfl)
@[simp] theorem port_updJnl (f : JournalSt → JournalSt) (x : Nat) : port (updJnl f s) x = port s x := (rfl)
@[simp] theorem pad_updJnl (f : JournalSt → JournalSt) (x : Nat) : pad (updJnl f s) x = pad s x := (rfl)
@[simp] theorem fifo_updJnl (f : JournalSt → JournalSt) (x : Nat) : fifo (updJnl f s) x = fifo s x := (rfl)
@[simp] theorem chan_updJnl (f : JournalSt → JournalSt) (x : Nat) : chan (updJnl f s) x = chan s x := (rfl)
@[simp] theorem lgroup_updJnl (f : JournalSt → JournalSt) (x : Nat) : lgroup (updJnl f s) x = lgroup s x := (rfl)
@[simp] theorem drn_updJnl (f : JournalSt → JournalSt) (x : Nat) : drn (updJnl f s) x = drn s x := (rfl)
@[simp] theorem dev_updJnl (f : JournalSt → JournalSt) (x y : Nat) : dev (updJnl f s) x y = dev s x y := (rfl)
@[simp] theorem pwrCl_updJnl (f : JournalSt → JournalSt) (x : Nat) : pwrCl (updJnl f s) x = pwrCl s x := (rfl)
@[simp] theorem now_updJnl (f : JournalSt → JournalSt)  : now (updJnl f s) = now s := (rfl)
@[simp] theorem frameNo_updJnl (f : JournalSt → JournalSt)  : frameNo (updJnl f s) = frameNo s := (rfl)
@[simp] theorem turnInFrame_updJnl (f : JournalSt → JournalSt)  : turnInFrame (updJnl f s) = turnInFrame s := (rfl)
@[simp] theorem nextTick_updJnl (f : JournalSt → JournalSt)  : nextTick (updJnl f s) = nextTick s := (rfl)
@[simp] theorem reg_updPower (f : PowerSt → PowerSt) (x : Nat) : reg (updPower f s) x = reg s x := (rfl)
@[simp] theorem getF_updPower (f : PowerSt → PowerSt) (g : Fld) : getF (updPower f s) g = getF s g := (rfl)
@[simp] theorem isSet_updPower (f : PowerSt → PowerSt) (g : Fld) : isSet (updPower f s) g = isSet s g := (rfl)
@[simp] theorem readB_updPower (f : PowerSt → PowerSt) (x : Nat) : readB (updPower f s) x = readB s x := (rfl)
@[simp] theorem core_updPower (f : PowerSt → PowerSt) (x : Nat) : core (updPower f s) x = core s x := (rfl)
@[simp] theorem clus_updPower (f : PowerSt → PowerSt) (x : Nat) : clus (updPower f s) x = clus s x := (rfl)
@[simp] theorem ten_updPower (f : PowerSt → PowerSt) (x : Nat) : ten (updPower f s) x = ten s x := (rfl)
@[simp] theorem port_updPower (f : PowerSt → PowerSt) (x : Nat) : port (updPower f s) x = port s x := (rfl)
@[simp] theorem pad_updPower (f : PowerSt → PowerSt) (x : Nat) : pad (updPower f s) x = pad s x := (rfl)
@[simp] theorem fifo_updPower (f : PowerSt → PowerSt) (x : Nat) : fifo (updPower f s) x = fifo s x := (rfl)
@[simp] theorem chan_updPower (f : PowerSt → PowerSt) (x : Nat) : chan (updPower f s) x = chan s x := (rfl)
@[simp] theorem lgroup_updPower (f : PowerSt → PowerSt) (x : Nat) : lgroup (updPower f s) x = lgroup s x := (rfl)
@[simp] theorem drn_updPower (f : PowerSt → PowerSt) (x : Nat) : drn (updPower f s) x = drn s x := (rfl)
@[simp] theorem dev_updPower (f : PowerSt → PowerSt) (x y : Nat) : dev (updPower f s) x y = dev s x y := (rfl)
@[simp] theorem now_updPower (f : PowerSt → PowerSt)  : now (updPower f s) = now s := (rfl)
@[simp] theorem frameNo_updPower (f : PowerSt → PowerSt)  : frameNo (updPower f s) = frameNo s := (rfl)
@[simp] theorem turnInFrame_updPower (f : PowerSt → PowerSt)  : turnInFrame (updPower f s) = turnInFrame s := (rfl)
@[simp] theorem nextTick_updPower (f : PowerSt → PowerSt)  : nextTick (updPower f s) = nextTick s := (rfl)
@[simp] theorem reg_updTime (f : TimeSt → TimeSt) (x : Nat) : reg (updTime f s) x = reg s x := (rfl)
@[simp] theorem getF_updTime (f : TimeSt → TimeSt) (g : Fld) : getF (updTime f s) g = getF s g := (rfl)
@[simp] theorem isSet_updTime (f : TimeSt → TimeSt) (g : Fld) : isSet (updTime f s) g = isSet s g := (rfl)
@[simp] theorem readB_updTime (f : TimeSt → TimeSt) (x : Nat) : readB (updTime f s) x = readB s x := (rfl)
@[simp] theorem core_updTime (f : TimeSt → TimeSt) (x : Nat) : core (updTime f s) x = core s x := (rfl)
@[simp] theorem clus_updTime (f : TimeSt → TimeSt) (x : Nat) : clus (updTime f s) x = clus s x := (rfl)
@[simp] theorem ten_updTime (f : TimeSt → TimeSt) (x : Nat) : ten (updTime f s) x = ten s x := (rfl)
@[simp] theorem port_updTime (f : TimeSt → TimeSt) (x : Nat) : port (updTime f s) x = port s x := (rfl)
@[simp] theorem pad_updTime (f : TimeSt → TimeSt) (x : Nat) : pad (updTime f s) x = pad s x := (rfl)
@[simp] theorem fifo_updTime (f : TimeSt → TimeSt) (x : Nat) : fifo (updTime f s) x = fifo s x := (rfl)
@[simp] theorem chan_updTime (f : TimeSt → TimeSt) (x : Nat) : chan (updTime f s) x = chan s x := (rfl)
@[simp] theorem lgroup_updTime (f : TimeSt → TimeSt) (x : Nat) : lgroup (updTime f s) x = lgroup s x := (rfl)
@[simp] theorem drn_updTime (f : TimeSt → TimeSt) (x : Nat) : drn (updTime f s) x = drn s x := (rfl)
@[simp] theorem dev_updTime (f : TimeSt → TimeSt) (x y : Nat) : dev (updTime f s) x y = dev s x y := (rfl)
@[simp] theorem pwrCl_updTime (f : TimeSt → TimeSt) (x : Nat) : pwrCl (updTime f s) x = pwrCl s x := (rfl)
@[simp] theorem reg_updCal (f : CalSt → CalSt) (x : Nat) : reg (updCal f s) x = reg s x := (rfl)
@[simp] theorem getF_updCal (f : CalSt → CalSt) (g : Fld) : getF (updCal f s) g = getF s g := (rfl)
@[simp] theorem isSet_updCal (f : CalSt → CalSt) (g : Fld) : isSet (updCal f s) g = isSet s g := (rfl)
@[simp] theorem readB_updCal (f : CalSt → CalSt) (x : Nat) : readB (updCal f s) x = readB s x := (rfl)
@[simp] theorem core_updCal (f : CalSt → CalSt) (x : Nat) : core (updCal f s) x = core s x := (rfl)
@[simp] theorem clus_updCal (f : CalSt → CalSt) (x : Nat) : clus (updCal f s) x = clus s x := (rfl)
@[simp] theorem ten_updCal (f : CalSt → CalSt) (x : Nat) : ten (updCal f s) x = ten s x := (rfl)
@[simp] theorem port_updCal (f : CalSt → CalSt) (x : Nat) : port (updCal f s) x = port s x := (rfl)
@[simp] theorem pad_updCal (f : CalSt → CalSt) (x : Nat) : pad (updCal f s) x = pad s x := (rfl)
@[simp] theorem fifo_updCal (f : CalSt → CalSt) (x : Nat) : fifo (updCal f s) x = fifo s x := (rfl)
@[simp] theorem chan_updCal (f : CalSt → CalSt) (x : Nat) : chan (updCal f s) x = chan s x := (rfl)
@[simp] theorem lgroup_updCal (f : CalSt → CalSt) (x : Nat) : lgroup (updCal f s) x = lgroup s x := (rfl)
@[simp] theorem drn_updCal (f : CalSt → CalSt) (x : Nat) : drn (updCal f s) x = drn s x := (rfl)
@[simp] theorem dev_updCal (f : CalSt → CalSt) (x y : Nat) : dev (updCal f s) x y = dev s x y := (rfl)
@[simp] theorem pwrCl_updCal (f : CalSt → CalSt) (x : Nat) : pwrCl (updCal f s) x = pwrCl s x := (rfl)
@[simp] theorem now_updCal (f : CalSt → CalSt)  : now (updCal f s) = now s := (rfl)
@[simp] theorem frameNo_updCal (f : CalSt → CalSt)  : frameNo (updCal f s) = frameNo s := (rfl)
@[simp] theorem turnInFrame_updCal (f : CalSt → CalSt)  : turnInFrame (updCal f s) = turnInFrame s := (rfl)
@[simp] theorem nextTick_updCal (f : CalSt → CalSt)  : nextTick (updCal f s) = nextTick s := (rfl)
@[simp] theorem reg_mapPorts (f : Tab PortSt → Tab PortSt) (x : Nat) : reg (mapPorts f s) x = reg s x := (rfl)
@[simp] theorem getF_mapPorts (f : Tab PortSt → Tab PortSt) (g : Fld) : getF (mapPorts f s) g = getF s g := (rfl)
@[simp] theorem isSet_mapPorts (f : Tab PortSt → Tab PortSt) (g : Fld) : isSet (mapPorts f s) g = isSet s g := (rfl)
@[simp] theorem readB_mapPorts (f : Tab PortSt → Tab PortSt) (x : Nat) : readB (mapPorts f s) x = readB s x := (rfl)
@[simp] theorem core_mapPorts (f : Tab PortSt → Tab PortSt) (x : Nat) : core (mapPorts f s) x = core s x := (rfl)
@[simp] theorem clus_mapPorts (f : Tab PortSt → Tab PortSt) (x : Nat) : clus (mapPorts f s) x = clus s x := (rfl)
@[simp] theorem ten_mapPorts (f : Tab PortSt → Tab PortSt) (x : Nat) : ten (mapPorts f s) x = ten s x := (rfl)
@[simp] theorem pad_mapPorts (f : Tab PortSt → Tab PortSt) (x : Nat) : pad (mapPorts f s) x = pad s x := (rfl)
@[simp] theorem fifo_mapPorts (f : Tab PortSt → Tab PortSt) (x : Nat) : fifo (mapPorts f s) x = fifo s x := (rfl)
@[simp] theorem chan_mapPorts (f : Tab PortSt → Tab PortSt) (x : Nat) : chan (mapPorts f s) x = chan s x := (rfl)
@[simp] theorem lgroup_mapPorts (f : Tab PortSt → Tab PortSt) (x : Nat) : lgroup (mapPorts f s) x = lgroup s x := (rfl)
@[simp] theorem drn_mapPorts (f : Tab PortSt → Tab PortSt) (x : Nat) : drn (mapPorts f s) x = drn s x := (rfl)
@[simp] theorem dev_mapPorts (f : Tab PortSt → Tab PortSt) (x y : Nat) : dev (mapPorts f s) x y = dev s x y := (rfl)
@[simp] theorem pwrCl_mapPorts (f : Tab PortSt → Tab PortSt) (x : Nat) : pwrCl (mapPorts f s) x = pwrCl s x := (rfl)
@[simp] theorem now_mapPorts (f : Tab PortSt → Tab PortSt)  : now (mapPorts f s) = now s := (rfl)
@[simp] theorem frameNo_mapPorts (f : Tab PortSt → Tab PortSt)  : frameNo (mapPorts f s) = frameNo s := (rfl)
@[simp] theorem turnInFrame_mapPorts (f : Tab PortSt → Tab PortSt)  : turnInFrame (mapPorts f s) = turnInFrame s := (rfl)
@[simp] theorem nextTick_mapPorts (f : Tab PortSt → Tab PortSt)  : nextTick (mapPorts f s) = nextTick s := (rfl)
@[simp] theorem reg_mapDevices (f : Tab DeviceSt → Tab DeviceSt) (x : Nat) : reg (mapDevices f s) x = reg s x := (rfl)
@[simp] theorem getF_mapDevices (f : Tab DeviceSt → Tab DeviceSt) (g : Fld) : getF (mapDevices f s) g = getF s g := (rfl)
@[simp] theorem isSet_mapDevices (f : Tab DeviceSt → Tab DeviceSt) (g : Fld) : isSet (mapDevices f s) g = isSet s g := (rfl)
@[simp] theorem readB_mapDevices (f : Tab DeviceSt → Tab DeviceSt) (x : Nat) : readB (mapDevices f s) x = readB s x := (rfl)
@[simp] theorem core_mapDevices (f : Tab DeviceSt → Tab DeviceSt) (x : Nat) : core (mapDevices f s) x = core s x := (rfl)
@[simp] theorem clus_mapDevices (f : Tab DeviceSt → Tab DeviceSt) (x : Nat) : clus (mapDevices f s) x = clus s x := (rfl)
@[simp] theorem ten_mapDevices (f : Tab DeviceSt → Tab DeviceSt) (x : Nat) : ten (mapDevices f s) x = ten s x := (rfl)
@[simp] theorem port_mapDevices (f : Tab DeviceSt → Tab DeviceSt) (x : Nat) : port (mapDevices f s) x = port s x := (rfl)
@[simp] theorem pad_mapDevices (f : Tab DeviceSt → Tab DeviceSt) (x : Nat) : pad (mapDevices f s) x = pad s x := (rfl)
@[simp] theorem fifo_mapDevices (f : Tab DeviceSt → Tab DeviceSt) (x : Nat) : fifo (mapDevices f s) x = fifo s x := (rfl)
@[simp] theorem chan_mapDevices (f : Tab DeviceSt → Tab DeviceSt) (x : Nat) : chan (mapDevices f s) x = chan s x := (rfl)
@[simp] theorem lgroup_mapDevices (f : Tab DeviceSt → Tab DeviceSt) (x : Nat) : lgroup (mapDevices f s) x = lgroup s x := (rfl)
@[simp] theorem drn_mapDevices (f : Tab DeviceSt → Tab DeviceSt) (x : Nat) : drn (mapDevices f s) x = drn s x := (rfl)
@[simp] theorem pwrCl_mapDevices (f : Tab DeviceSt → Tab DeviceSt) (x : Nat) : pwrCl (mapDevices f s) x = pwrCl s x := (rfl)
@[simp] theorem now_mapDevices (f : Tab DeviceSt → Tab DeviceSt)  : now (mapDevices f s) = now s := (rfl)
@[simp] theorem frameNo_mapDevices (f : Tab DeviceSt → Tab DeviceSt)  : frameNo (mapDevices f s) = frameNo s := (rfl)
@[simp] theorem turnInFrame_mapDevices (f : Tab DeviceSt → Tab DeviceSt)  : turnInFrame (mapDevices f s) = turnInFrame s := (rfl)
@[simp] theorem nextTick_mapDevices (f : Tab DeviceSt → Tab DeviceSt)  : nextTick (mapDevices f s) = nextTick s := (rfl)
@[simp] theorem reg_mapImages (f : Tab ImageSt → Tab ImageSt) (x : Nat) : reg (mapImages f s) x = reg s x := (rfl)
@[simp] theorem getF_mapImages (f : Tab ImageSt → Tab ImageSt) (g : Fld) : getF (mapImages f s) g = getF s g := (rfl)
@[simp] theorem isSet_mapImages (f : Tab ImageSt → Tab ImageSt) (g : Fld) : isSet (mapImages f s) g = isSet s g := (rfl)
@[simp] theorem readB_mapImages (f : Tab ImageSt → Tab ImageSt) (x : Nat) : readB (mapImages f s) x = readB s x := (rfl)
@[simp] theorem core_mapImages (f : Tab ImageSt → Tab ImageSt) (x : Nat) : core (mapImages f s) x = core s x := (rfl)
@[simp] theorem clus_mapImages (f : Tab ImageSt → Tab ImageSt) (x : Nat) : clus (mapImages f s) x = clus s x := (rfl)
@[simp] theorem ten_mapImages (f : Tab ImageSt → Tab ImageSt) (x : Nat) : ten (mapImages f s) x = ten s x := (rfl)
@[simp] theorem port_mapImages (f : Tab ImageSt → Tab ImageSt) (x : Nat) : port (mapImages f s) x = port s x := (rfl)
@[simp] theorem pad_mapImages (f : Tab ImageSt → Tab ImageSt) (x : Nat) : pad (mapImages f s) x = pad s x := (rfl)
@[simp] theorem fifo_mapImages (f : Tab ImageSt → Tab ImageSt) (x : Nat) : fifo (mapImages f s) x = fifo s x := (rfl)
@[simp] theorem chan_mapImages (f : Tab ImageSt → Tab ImageSt) (x : Nat) : chan (mapImages f s) x = chan s x := (rfl)
@[simp] theorem lgroup_mapImages (f : Tab ImageSt → Tab ImageSt) (x : Nat) : lgroup (mapImages f s) x = lgroup s x := (rfl)
@[simp] theorem drn_mapImages (f : Tab ImageSt → Tab ImageSt) (x : Nat) : drn (mapImages f s) x = drn s x := (rfl)
@[simp] theorem dev_mapImages (f : Tab ImageSt → Tab ImageSt) (x y : Nat) : dev (mapImages f s) x y = dev s x y := (rfl)
@[simp] theorem pwrCl_mapImages (f : Tab ImageSt → Tab ImageSt) (x : Nat) : pwrCl (mapImages f s) x = pwrCl s x := (rfl)
@[simp] theorem now_mapImages (f : Tab ImageSt → Tab ImageSt)  : now (mapImages f s) = now s := (rfl)
@[simp] theorem frameNo_mapImages (f : Tab ImageSt → Tab ImageSt)  : frameNo (mapImages f s) = frameNo s := (rfl)
@[simp] theorem turnInFrame_mapImages (f : Tab ImageSt → Tab ImageSt)  : turnInFrame (mapImages f s) = turnInFrame s := (rfl)
@[simp] theorem nextTick_mapImages (f : Tab ImageSt → Tab ImageSt)  : nextTick (mapImages f s) = nextTick s := (rfl)
@[simp] theorem reg_mapPads (f : Tab PadSt → Tab PadSt) (x : Nat) : reg (mapPads f s) x = reg s x := (rfl)
@[simp] theorem getF_mapPads (f : Tab PadSt → Tab PadSt) (g : Fld) : getF (mapPads f s) g = getF s g := (rfl)
@[simp] theorem isSet_mapPads (f : Tab PadSt → Tab PadSt) (g : Fld) : isSet (mapPads f s) g = isSet s g := (rfl)
@[simp] theorem readB_mapPads (f : Tab PadSt → Tab PadSt) (x : Nat) : readB (mapPads f s) x = readB s x := (rfl)
@[simp] theorem core_mapPads (f : Tab PadSt → Tab PadSt) (x : Nat) : core (mapPads f s) x = core s x := (rfl)
@[simp] theorem clus_mapPads (f : Tab PadSt → Tab PadSt) (x : Nat) : clus (mapPads f s) x = clus s x := (rfl)
@[simp] theorem ten_mapPads (f : Tab PadSt → Tab PadSt) (x : Nat) : ten (mapPads f s) x = ten s x := (rfl)
@[simp] theorem port_mapPads (f : Tab PadSt → Tab PadSt) (x : Nat) : port (mapPads f s) x = port s x := (rfl)
@[simp] theorem fifo_mapPads (f : Tab PadSt → Tab PadSt) (x : Nat) : fifo (mapPads f s) x = fifo s x := (rfl)
@[simp] theorem chan_mapPads (f : Tab PadSt → Tab PadSt) (x : Nat) : chan (mapPads f s) x = chan s x := (rfl)
@[simp] theorem lgroup_mapPads (f : Tab PadSt → Tab PadSt) (x : Nat) : lgroup (mapPads f s) x = lgroup s x := (rfl)
@[simp] theorem drn_mapPads (f : Tab PadSt → Tab PadSt) (x : Nat) : drn (mapPads f s) x = drn s x := (rfl)
@[simp] theorem dev_mapPads (f : Tab PadSt → Tab PadSt) (x y : Nat) : dev (mapPads f s) x y = dev s x y := (rfl)
@[simp] theorem pwrCl_mapPads (f : Tab PadSt → Tab PadSt) (x : Nat) : pwrCl (mapPads f s) x = pwrCl s x := (rfl)
@[simp] theorem now_mapPads (f : Tab PadSt → Tab PadSt)  : now (mapPads f s) = now s := (rfl)
@[simp] theorem frameNo_mapPads (f : Tab PadSt → Tab PadSt)  : frameNo (mapPads f s) = frameNo s := (rfl)
@[simp] theorem turnInFrame_mapPads (f : Tab PadSt → Tab PadSt)  : turnInFrame (mapPads f s) = turnInFrame s := (rfl)
@[simp] theorem nextTick_mapPads (f : Tab PadSt → Tab PadSt)  : nextTick (mapPads f s) = nextTick s := (rfl)
@[simp] theorem reg_mapPgOn (f : Tab Bool → Tab Bool) (x : Nat) : reg (mapPgOn f s) x = reg s x := (rfl)
@[simp] theorem getF_mapPgOn (f : Tab Bool → Tab Bool) (g : Fld) : getF (mapPgOn f s) g = getF s g := (rfl)
@[simp] theorem isSet_mapPgOn (f : Tab Bool → Tab Bool) (g : Fld) : isSet (mapPgOn f s) g = isSet s g := (rfl)
@[simp] theorem readB_mapPgOn (f : Tab Bool → Tab Bool) (x : Nat) : readB (mapPgOn f s) x = readB s x := (rfl)
@[simp] theorem core_mapPgOn (f : Tab Bool → Tab Bool) (x : Nat) : core (mapPgOn f s) x = core s x := (rfl)
@[simp] theorem clus_mapPgOn (f : Tab Bool → Tab Bool) (x : Nat) : clus (mapPgOn f s) x = clus s x := (rfl)
@[simp] theorem ten_mapPgOn (f : Tab Bool → Tab Bool) (x : Nat) : ten (mapPgOn f s) x = ten s x := (rfl)
@[simp] theorem port_mapPgOn (f : Tab Bool → Tab Bool) (x : Nat) : port (mapPgOn f s) x = port s x := (rfl)
@[simp] theorem pad_mapPgOn (f : Tab Bool → Tab Bool) (x : Nat) : pad (mapPgOn f s) x = pad s x := (rfl)
@[simp] theorem fifo_mapPgOn (f : Tab Bool → Tab Bool) (x : Nat) : fifo (mapPgOn f s) x = fifo s x := (rfl)
@[simp] theorem chan_mapPgOn (f : Tab Bool → Tab Bool) (x : Nat) : chan (mapPgOn f s) x = chan s x := (rfl)
@[simp] theorem lgroup_mapPgOn (f : Tab Bool → Tab Bool) (x : Nat) : lgroup (mapPgOn f s) x = lgroup s x := (rfl)
@[simp] theorem drn_mapPgOn (f : Tab Bool → Tab Bool) (x : Nat) : drn (mapPgOn f s) x = drn s x := (rfl)
@[simp] theorem dev_mapPgOn (f : Tab Bool → Tab Bool) (x y : Nat) : dev (mapPgOn f s) x y = dev s x y := (rfl)
@[simp] theorem pwrCl_mapPgOn (f : Tab Bool → Tab Bool) (x : Nat) : pwrCl (mapPgOn f s) x = pwrCl s x := (rfl)
@[simp] theorem now_mapPgOn (f : Tab Bool → Tab Bool)  : now (mapPgOn f s) = now s := (rfl)
@[simp] theorem frameNo_mapPgOn (f : Tab Bool → Tab Bool)  : frameNo (mapPgOn f s) = frameNo s := (rfl)
@[simp] theorem turnInFrame_mapPgOn (f : Tab Bool → Tab Bool)  : turnInFrame (mapPgOn f s) = turnInFrame s := (rfl)
@[simp] theorem nextTick_mapPgOn (f : Tab Bool → Tab Bool)  : nextTick (mapPgOn f s) = nextTick s := (rfl)
@[simp] theorem reg_mapFifos (f : Tab FifoSt → Tab FifoSt) (x : Nat) : reg (mapFifos f s) x = reg s x := (rfl)
@[simp] theorem getF_mapFifos (f : Tab FifoSt → Tab FifoSt) (g : Fld) : getF (mapFifos f s) g = getF s g := (rfl)
@[simp] theorem isSet_mapFifos (f : Tab FifoSt → Tab FifoSt) (g : Fld) : isSet (mapFifos f s) g = isSet s g := (rfl)
@[simp] theorem readB_mapFifos (f : Tab FifoSt → Tab FifoSt) (x : Nat) : readB (mapFifos f s) x = readB s x := (rfl)
@[simp] theorem core_mapFifos (f : Tab FifoSt → Tab FifoSt) (x : Nat) : core (mapFifos f s) x = core s x := (rfl)
@[simp] theorem clus_mapFifos (f : Tab FifoSt → Tab FifoSt) (x : Nat) : clus (mapFifos f s) x = clus s x := (rfl)
@[simp] theorem ten_mapFifos (f : Tab FifoSt → Tab FifoSt) (x : Nat) : ten (mapFifos f s) x = ten s x := (rfl)
@[simp] theorem port_mapFifos (f : Tab FifoSt → Tab FifoSt) (x : Nat) : port (mapFifos f s) x = port s x := (rfl)
@[simp] theorem pad_mapFifos (f : Tab FifoSt → Tab FifoSt) (x : Nat) : pad (mapFifos f s) x = pad s x := (rfl)
@[simp] theorem chan_mapFifos (f : Tab FifoSt → Tab FifoSt) (x : Nat) : chan (mapFifos f s) x = chan s x := (rfl)
@[simp] theorem lgroup_mapFifos (f : Tab FifoSt → Tab FifoSt) (x : Nat) : lgroup (mapFifos f s) x = lgroup s x := (rfl)
@[simp] theorem drn_mapFifos (f : Tab FifoSt → Tab FifoSt) (x : Nat) : drn (mapFifos f s) x = drn s x := (rfl)
@[simp] theorem dev_mapFifos (f : Tab FifoSt → Tab FifoSt) (x y : Nat) : dev (mapFifos f s) x y = dev s x y := (rfl)
@[simp] theorem pwrCl_mapFifos (f : Tab FifoSt → Tab FifoSt) (x : Nat) : pwrCl (mapFifos f s) x = pwrCl s x := (rfl)
@[simp] theorem now_mapFifos (f : Tab FifoSt → Tab FifoSt)  : now (mapFifos f s) = now s := (rfl)
@[simp] theorem frameNo_mapFifos (f : Tab FifoSt → Tab FifoSt)  : frameNo (mapFifos f s) = frameNo s := (rfl)
@[simp] theorem turnInFrame_mapFifos (f : Tab FifoSt → Tab FifoSt)  : turnInFrame (mapFifos f s) = turnInFrame s := (rfl)
@[simp] theorem nextTick_mapFifos (f : Tab FifoSt → Tab FifoSt)  : nextTick (mapFifos f s) = nextTick s := (rfl)
@[simp] theorem reg_mapChans (f : Tab ChanSt → Tab ChanSt) (x : Nat) : reg (mapChans f s) x = reg s x := (rfl)
@[simp] theorem getF_mapChans (f : Tab ChanSt → Tab ChanSt) (g : Fld) : getF (mapChans f s) g = getF s g := (rfl)
@[simp] theorem isSet_mapChans (f : Tab ChanSt → Tab ChanSt) (g : Fld) : isSet (mapChans f s) g = isSet s g := (rfl)
@[simp] theorem readB_mapChans (f : Tab ChanSt → Tab ChanSt) (x : Nat) : readB (mapChans f s) x = readB s x := (rfl)
@[simp] theorem core_mapChans (f : Tab ChanSt → Tab ChanSt) (x : Nat) : core (mapChans f s) x = core s x := (rfl)
@[simp] theorem clus_mapChans (f : Tab ChanSt → Tab ChanSt) (x : Nat) : clus (mapChans f s) x = clus s x := (rfl)
@[simp] theorem ten_mapChans (f : Tab ChanSt → Tab ChanSt) (x : Nat) : ten (mapChans f s) x = ten s x := (rfl)
@[simp] theorem port_mapChans (f : Tab ChanSt → Tab ChanSt) (x : Nat) : port (mapChans f s) x = port s x := (rfl)
@[simp] theorem pad_mapChans (f : Tab ChanSt → Tab ChanSt) (x : Nat) : pad (mapChans f s) x = pad s x := (rfl)
@[simp] theorem fifo_mapChans (f : Tab ChanSt → Tab ChanSt) (x : Nat) : fifo (mapChans f s) x = fifo s x := (rfl)
@[simp] theorem lgroup_mapChans (f : Tab ChanSt → Tab ChanSt) (x : Nat) : lgroup (mapChans f s) x = lgroup s x := (rfl)
@[simp] theorem drn_mapChans (f : Tab ChanSt → Tab ChanSt) (x : Nat) : drn (mapChans f s) x = drn s x := (rfl)
@[simp] theorem dev_mapChans (f : Tab ChanSt → Tab ChanSt) (x y : Nat) : dev (mapChans f s) x y = dev s x y := (rfl)
@[simp] theorem pwrCl_mapChans (f : Tab ChanSt → Tab ChanSt) (x : Nat) : pwrCl (mapChans f s) x = pwrCl s x := (rfl)
@[simp] theorem now_mapChans (f : Tab ChanSt → Tab ChanSt)  : now (mapChans f s) = now s := (rfl)
@[simp] theorem frameNo_mapChans (f : Tab ChanSt → Tab ChanSt)  : frameNo (mapChans f s) = frameNo s := (rfl)
@[simp] theorem turnInFrame_mapChans (f : Tab ChanSt → Tab ChanSt)  : turnInFrame (mapChans f s) = turnInFrame s := (rfl)
@[simp] theorem nextTick_mapChans (f : Tab ChanSt → Tab ChanSt)  : nextTick (mapChans f s) = nextTick s := (rfl)
@[simp] theorem reg_mapClusters (f : Tab ClusterSt → Tab ClusterSt) (x : Nat) : reg (mapClusters f s) x = reg s x := (rfl)
@[simp] theorem getF_mapClusters (f : Tab ClusterSt → Tab ClusterSt) (g : Fld) : getF (mapClusters f s) g = getF s g := (rfl)
@[simp] theorem isSet_mapClusters (f : Tab ClusterSt → Tab ClusterSt) (g : Fld) : isSet (mapClusters f s) g = isSet s g := (rfl)
@[simp] theorem readB_mapClusters (f : Tab ClusterSt → Tab ClusterSt) (x : Nat) : readB (mapClusters f s) x = readB s x := (rfl)
@[simp] theorem core_mapClusters (f : Tab ClusterSt → Tab ClusterSt) (x : Nat) : core (mapClusters f s) x = core s x := (rfl)
@[simp] theorem ten_mapClusters (f : Tab ClusterSt → Tab ClusterSt) (x : Nat) : ten (mapClusters f s) x = ten s x := (rfl)
@[simp] theorem port_mapClusters (f : Tab ClusterSt → Tab ClusterSt) (x : Nat) : port (mapClusters f s) x = port s x := (rfl)
@[simp] theorem pad_mapClusters (f : Tab ClusterSt → Tab ClusterSt) (x : Nat) : pad (mapClusters f s) x = pad s x := (rfl)
@[simp] theorem fifo_mapClusters (f : Tab ClusterSt → Tab ClusterSt) (x : Nat) : fifo (mapClusters f s) x = fifo s x := (rfl)
@[simp] theorem chan_mapClusters (f : Tab ClusterSt → Tab ClusterSt) (x : Nat) : chan (mapClusters f s) x = chan s x := (rfl)
@[simp] theorem lgroup_mapClusters (f : Tab ClusterSt → Tab ClusterSt) (x : Nat) : lgroup (mapClusters f s) x = lgroup s x := (rfl)
@[simp] theorem drn_mapClusters (f : Tab ClusterSt → Tab ClusterSt) (x : Nat) : drn (mapClusters f s) x = drn s x := (rfl)
@[simp] theorem dev_mapClusters (f : Tab ClusterSt → Tab ClusterSt) (x y : Nat) : dev (mapClusters f s) x y = dev s x y := (rfl)
@[simp] theorem pwrCl_mapClusters (f : Tab ClusterSt → Tab ClusterSt) (x : Nat) : pwrCl (mapClusters f s) x = pwrCl s x := (rfl)
@[simp] theorem now_mapClusters (f : Tab ClusterSt → Tab ClusterSt)  : now (mapClusters f s) = now s := (rfl)
@[simp] theorem frameNo_mapClusters (f : Tab ClusterSt → Tab ClusterSt)  : frameNo (mapClusters f s) = frameNo s := (rfl)
@[simp] theorem turnInFrame_mapClusters (f : Tab ClusterSt → Tab ClusterSt)  : turnInFrame (mapClusters f s) = turnInFrame s := (rfl)
@[simp] theorem nextTick_mapClusters (f : Tab ClusterSt → Tab ClusterSt)  : nextTick (mapClusters f s) = nextTick s := (rfl)
@[simp] theorem reg_mapCores (f : Tab CoreSt → Tab CoreSt) (x : Nat) : reg (mapCores f s) x = reg s x := (rfl)
@[simp] theorem getF_mapCores (f : Tab CoreSt → Tab CoreSt) (g : Fld) : getF (mapCores f s) g = getF s g := (rfl)
@[simp] theorem isSet_mapCores (f : Tab CoreSt → Tab CoreSt) (g : Fld) : isSet (mapCores f s) g = isSet s g := (rfl)
@[simp] theorem readB_mapCores (f : Tab CoreSt → Tab CoreSt) (x : Nat) : readB (mapCores f s) x = readB s x := (rfl)
@[simp] theorem clus_mapCores (f : Tab CoreSt → Tab CoreSt) (x : Nat) : clus (mapCores f s) x = clus s x := (rfl)
@[simp] theorem ten_mapCores (f : Tab CoreSt → Tab CoreSt) (x : Nat) : ten (mapCores f s) x = ten s x := (rfl)
@[simp] theorem port_mapCores (f : Tab CoreSt → Tab CoreSt) (x : Nat) : port (mapCores f s) x = port s x := (rfl)
@[simp] theorem pad_mapCores (f : Tab CoreSt → Tab CoreSt) (x : Nat) : pad (mapCores f s) x = pad s x := (rfl)
@[simp] theorem fifo_mapCores (f : Tab CoreSt → Tab CoreSt) (x : Nat) : fifo (mapCores f s) x = fifo s x := (rfl)
@[simp] theorem chan_mapCores (f : Tab CoreSt → Tab CoreSt) (x : Nat) : chan (mapCores f s) x = chan s x := (rfl)
@[simp] theorem lgroup_mapCores (f : Tab CoreSt → Tab CoreSt) (x : Nat) : lgroup (mapCores f s) x = lgroup s x := (rfl)
@[simp] theorem drn_mapCores (f : Tab CoreSt → Tab CoreSt) (x : Nat) : drn (mapCores f s) x = drn s x := (rfl)
@[simp] theorem dev_mapCores (f : Tab CoreSt → Tab CoreSt) (x y : Nat) : dev (mapCores f s) x y = dev s x y := (rfl)
@[simp] theorem pwrCl_mapCores (f : Tab CoreSt → Tab CoreSt) (x : Nat) : pwrCl (mapCores f s) x = pwrCl s x := (rfl)
@[simp] theorem now_mapCores (f : Tab CoreSt → Tab CoreSt)  : now (mapCores f s) = now s := (rfl)
@[simp] theorem frameNo_mapCores (f : Tab CoreSt → Tab CoreSt)  : frameNo (mapCores f s) = frameNo s := (rfl)
@[simp] theorem turnInFrame_mapCores (f : Tab CoreSt → Tab CoreSt)  : turnInFrame (mapCores f s) = turnInFrame s := (rfl)
@[simp] theorem nextTick_mapCores (f : Tab CoreSt → Tab CoreSt)  : nextTick (mapCores f s) = nextTick s := (rfl)
@[simp] theorem reg_mapLocks (f : Tab LockSt → Tab LockSt) (x : Nat) : reg (mapLocks f s) x = reg s x := (rfl)
@[simp] theorem getF_mapLocks (f : Tab LockSt → Tab LockSt) (g : Fld) : getF (mapLocks f s) g = getF s g := (rfl)
@[simp] theorem isSet_mapLocks (f : Tab LockSt → Tab LockSt) (g : Fld) : isSet (mapLocks f s) g = isSet s g := (rfl)
@[simp] theorem readB_mapLocks (f : Tab LockSt → Tab LockSt) (x : Nat) : readB (mapLocks f s) x = readB s x := (rfl)
@[simp] theorem core_mapLocks (f : Tab LockSt → Tab LockSt) (x : Nat) : core (mapLocks f s) x = core s x := (rfl)
@[simp] theorem clus_mapLocks (f : Tab LockSt → Tab LockSt) (x : Nat) : clus (mapLocks f s) x = clus s x := (rfl)
@[simp] theorem ten_mapLocks (f : Tab LockSt → Tab LockSt) (x : Nat) : ten (mapLocks f s) x = ten s x := (rfl)
@[simp] theorem port_mapLocks (f : Tab LockSt → Tab LockSt) (x : Nat) : port (mapLocks f s) x = port s x := (rfl)
@[simp] theorem pad_mapLocks (f : Tab LockSt → Tab LockSt) (x : Nat) : pad (mapLocks f s) x = pad s x := (rfl)
@[simp] theorem fifo_mapLocks (f : Tab LockSt → Tab LockSt) (x : Nat) : fifo (mapLocks f s) x = fifo s x := (rfl)
@[simp] theorem chan_mapLocks (f : Tab LockSt → Tab LockSt) (x : Nat) : chan (mapLocks f s) x = chan s x := (rfl)
@[simp] theorem lgroup_mapLocks (f : Tab LockSt → Tab LockSt) (x : Nat) : lgroup (mapLocks f s) x = lgroup s x := (rfl)
@[simp] theorem drn_mapLocks (f : Tab LockSt → Tab LockSt) (x : Nat) : drn (mapLocks f s) x = drn s x := (rfl)
@[simp] theorem dev_mapLocks (f : Tab LockSt → Tab LockSt) (x y : Nat) : dev (mapLocks f s) x y = dev s x y := (rfl)
@[simp] theorem pwrCl_mapLocks (f : Tab LockSt → Tab LockSt) (x : Nat) : pwrCl (mapLocks f s) x = pwrCl s x := (rfl)
@[simp] theorem now_mapLocks (f : Tab LockSt → Tab LockSt)  : now (mapLocks f s) = now s := (rfl)
@[simp] theorem frameNo_mapLocks (f : Tab LockSt → Tab LockSt)  : frameNo (mapLocks f s) = frameNo s := (rfl)
@[simp] theorem turnInFrame_mapLocks (f : Tab LockSt → Tab LockSt)  : turnInFrame (mapLocks f s) = turnInFrame s := (rfl)
@[simp] theorem nextTick_mapLocks (f : Tab LockSt → Tab LockSt)  : nextTick (mapLocks f s) = nextTick s := (rfl)
@[simp] theorem reg_mapRemote (f : List (Nat × Nat × Nat × Crossing) → List (Nat × Nat × Nat × Crossing)) (x : Nat) : reg (mapRemote f s) x = reg s x := (rfl)
@[simp] theorem getF_mapRemote (f : List (Nat × Nat × Nat × Crossing) → List (Nat × Nat × Nat × Crossing)) (g : Fld) : getF (mapRemote f s) g = getF s g := (rfl)
@[simp] theorem isSet_mapRemote (f : List (Nat × Nat × Nat × Crossing) → List (Nat × Nat × Nat × Crossing)) (g : Fld) : isSet (mapRemote f s) g = isSet s g := (rfl)
@[simp] theorem readB_mapRemote (f : List (Nat × Nat × Nat × Crossing) → List (Nat × Nat × Nat × Crossing)) (x : Nat) : readB (mapRemote f s) x = readB s x := (rfl)
@[simp] theorem core_mapRemote (f : List (Nat × Nat × Nat × Crossing) → List (Nat × Nat × Nat × Crossing)) (x : Nat) : core (mapRemote f s) x = core s x := (rfl)
@[simp] theorem clus_mapRemote (f : List (Nat × Nat × Nat × Crossing) → List (Nat × Nat × Nat × Crossing)) (x : Nat) : clus (mapRemote f s) x = clus s x := (rfl)
@[simp] theorem ten_mapRemote (f : List (Nat × Nat × Nat × Crossing) → List (Nat × Nat × Nat × Crossing)) (x : Nat) : ten (mapRemote f s) x = ten s x := (rfl)
@[simp] theorem port_mapRemote (f : List (Nat × Nat × Nat × Crossing) → List (Nat × Nat × Nat × Crossing)) (x : Nat) : port (mapRemote f s) x = port s x := (rfl)
@[simp] theorem pad_mapRemote (f : List (Nat × Nat × Nat × Crossing) → List (Nat × Nat × Nat × Crossing)) (x : Nat) : pad (mapRemote f s) x = pad s x := (rfl)
@[simp] theorem fifo_mapRemote (f : List (Nat × Nat × Nat × Crossing) → List (Nat × Nat × Nat × Crossing)) (x : Nat) : fifo (mapRemote f s) x = fifo s x := (rfl)
@[simp] theorem chan_mapRemote (f : List (Nat × Nat × Nat × Crossing) → List (Nat × Nat × Nat × Crossing)) (x : Nat) : chan (mapRemote f s) x = chan s x := (rfl)
@[simp] theorem lgroup_mapRemote (f : List (Nat × Nat × Nat × Crossing) → List (Nat × Nat × Nat × Crossing)) (x : Nat) : lgroup (mapRemote f s) x = lgroup s x := (rfl)
@[simp] theorem drn_mapRemote (f : List (Nat × Nat × Nat × Crossing) → List (Nat × Nat × Nat × Crossing)) (x : Nat) : drn (mapRemote f s) x = drn s x := (rfl)
@[simp] theorem dev_mapRemote (f : List (Nat × Nat × Nat × Crossing) → List (Nat × Nat × Nat × Crossing)) (x y : Nat) : dev (mapRemote f s) x y = dev s x y := (rfl)
@[simp] theorem pwrCl_mapRemote (f : List (Nat × Nat × Nat × Crossing) → List (Nat × Nat × Nat × Crossing)) (x : Nat) : pwrCl (mapRemote f s) x = pwrCl s x := (rfl)
@[simp] theorem now_mapRemote (f : List (Nat × Nat × Nat × Crossing) → List (Nat × Nat × Nat × Crossing))  : now (mapRemote f s) = now s := (rfl)
@[simp] theorem frameNo_mapRemote (f : List (Nat × Nat × Nat × Crossing) → List (Nat × Nat × Nat × Crossing))  : frameNo (mapRemote f s) = frameNo s := (rfl)
@[simp] theorem turnInFrame_mapRemote (f : List (Nat × Nat × Nat × Crossing) → List (Nat × Nat × Nat × Crossing))  : turnInFrame (mapRemote f s) = turnInFrame s := (rfl)
@[simp] theorem nextTick_mapRemote (f : List (Nat × Nat × Nat × Crossing) → List (Nat × Nat × Nat × Crossing))  : nextTick (mapRemote f s) = nextTick s := (rfl)
@[simp] theorem reg_mapDelayed (f : List (Nat × Nat × Crossing) → List (Nat × Nat × Crossing)) (x : Nat) : reg (mapDelayed f s) x = reg s x := (rfl)
@[simp] theorem getF_mapDelayed (f : List (Nat × Nat × Crossing) → List (Nat × Nat × Crossing)) (g : Fld) : getF (mapDelayed f s) g = getF s g := (rfl)
@[simp] theorem isSet_mapDelayed (f : List (Nat × Nat × Crossing) → List (Nat × Nat × Crossing)) (g : Fld) : isSet (mapDelayed f s) g = isSet s g := (rfl)
@[simp] theorem readB_mapDelayed (f : List (Nat × Nat × Crossing) → List (Nat × Nat × Crossing)) (x : Nat) : readB (mapDelayed f s) x = readB s x := (rfl)
@[simp] theorem core_mapDelayed (f : List (Nat × Nat × Crossing) → List (Nat × Nat × Crossing)) (x : Nat) : core (mapDelayed f s) x = core s x := (rfl)
@[simp] theorem clus_mapDelayed (f : List (Nat × Nat × Crossing) → List (Nat × Nat × Crossing)) (x : Nat) : clus (mapDelayed f s) x = clus s x := (rfl)
@[simp] theorem ten_mapDelayed (f : List (Nat × Nat × Crossing) → List (Nat × Nat × Crossing)) (x : Nat) : ten (mapDelayed f s) x = ten s x := (rfl)
@[simp] theorem port_mapDelayed (f : List (Nat × Nat × Crossing) → List (Nat × Nat × Crossing)) (x : Nat) : port (mapDelayed f s) x = port s x := (rfl)
@[simp] theorem pad_mapDelayed (f : List (Nat × Nat × Crossing) → List (Nat × Nat × Crossing)) (x : Nat) : pad (mapDelayed f s) x = pad s x := (rfl)
@[simp] theorem fifo_mapDelayed (f : List (Nat × Nat × Crossing) → List (Nat × Nat × Crossing)) (x : Nat) : fifo (mapDelayed f s) x = fifo s x := (rfl)
@[simp] theorem chan_mapDelayed (f : List (Nat × Nat × Crossing) → List (Nat × Nat × Crossing)) (x : Nat) : chan (mapDelayed f s) x = chan s x := (rfl)
@[simp] theorem lgroup_mapDelayed (f : List (Nat × Nat × Crossing) → List (Nat × Nat × Crossing)) (x : Nat) : lgroup (mapDelayed f s) x = lgroup s x := (rfl)
@[simp] theorem drn_mapDelayed (f : List (Nat × Nat × Crossing) → List (Nat × Nat × Crossing)) (x : Nat) : drn (mapDelayed f s) x = drn s x := (rfl)
@[simp] theorem dev_mapDelayed (f : List (Nat × Nat × Crossing) → List (Nat × Nat × Crossing)) (x y : Nat) : dev (mapDelayed f s) x y = dev s x y := (rfl)
@[simp] theorem pwrCl_mapDelayed (f : List (Nat × Nat × Crossing) → List (Nat × Nat × Crossing)) (x : Nat) : pwrCl (mapDelayed f s) x = pwrCl s x := (rfl)
@[simp] theorem now_mapDelayed (f : List (Nat × Nat × Crossing) → List (Nat × Nat × Crossing))  : now (mapDelayed f s) = now s := (rfl)
@[simp] theorem frameNo_mapDelayed (f : List (Nat × Nat × Crossing) → List (Nat × Nat × Crossing))  : frameNo (mapDelayed f s) = frameNo s := (rfl)
@[simp] theorem turnInFrame_mapDelayed (f : List (Nat × Nat × Crossing) → List (Nat × Nat × Crossing))  : turnInFrame (mapDelayed f s) = turnInFrame s := (rfl)
@[simp] theorem nextTick_mapDelayed (f : List (Nat × Nat × Crossing) → List (Nat × Nat × Crossing))  : nextTick (mapDelayed f s) = nextTick s := (rfl)
@[simp] theorem reg_mapXfers (f : Tab Xfer → Tab Xfer) (x : Nat) : reg (mapXfers f s) x = reg s x := (rfl)
@[simp] theorem getF_mapXfers (f : Tab Xfer → Tab Xfer) (g : Fld) : getF (mapXfers f s) g = getF s g := (rfl)
@[simp] theorem isSet_mapXfers (f : Tab Xfer → Tab Xfer) (g : Fld) : isSet (mapXfers f s) g = isSet s g := (rfl)
@[simp] theorem readB_mapXfers (f : Tab Xfer → Tab Xfer) (x : Nat) : readB (mapXfers f s) x = readB s x := (rfl)
@[simp] theorem core_mapXfers (f : Tab Xfer → Tab Xfer) (x : Nat) : core (mapXfers f s) x = core s x := (rfl)
@[simp] theorem clus_mapXfers (f : Tab Xfer → Tab Xfer) (x : Nat) : clus (mapXfers f s) x = clus s x := (rfl)
@[simp] theorem ten_mapXfers (f : Tab Xfer → Tab Xfer) (x : Nat) : ten (mapXfers f s) x = ten s x := (rfl)
@[simp] theorem port_mapXfers (f : Tab Xfer → Tab Xfer) (x : Nat) : port (mapXfers f s) x = port s x := (rfl)
@[simp] theorem pad_mapXfers (f : Tab Xfer → Tab Xfer) (x : Nat) : pad (mapXfers f s) x = pad s x := (rfl)
@[simp] theorem fifo_mapXfers (f : Tab Xfer → Tab Xfer) (x : Nat) : fifo (mapXfers f s) x = fifo s x := (rfl)
@[simp] theorem chan_mapXfers (f : Tab Xfer → Tab Xfer) (x : Nat) : chan (mapXfers f s) x = chan s x := (rfl)
@[simp] theorem lgroup_mapXfers (f : Tab Xfer → Tab Xfer) (x : Nat) : lgroup (mapXfers f s) x = lgroup s x := (rfl)
@[simp] theorem drn_mapXfers (f : Tab Xfer → Tab Xfer) (x : Nat) : drn (mapXfers f s) x = drn s x := (rfl)
@[simp] theorem dev_mapXfers (f : Tab Xfer → Tab Xfer) (x y : Nat) : dev (mapXfers f s) x y = dev s x y := (rfl)
@[simp] theorem pwrCl_mapXfers (f : Tab Xfer → Tab Xfer) (x : Nat) : pwrCl (mapXfers f s) x = pwrCl s x := (rfl)
@[simp] theorem now_mapXfers (f : Tab Xfer → Tab Xfer)  : now (mapXfers f s) = now s := (rfl)
@[simp] theorem frameNo_mapXfers (f : Tab Xfer → Tab Xfer)  : frameNo (mapXfers f s) = frameNo s := (rfl)
@[simp] theorem turnInFrame_mapXfers (f : Tab Xfer → Tab Xfer)  : turnInFrame (mapXfers f s) = turnInFrame s := (rfl)
@[simp] theorem nextTick_mapXfers (f : Tab Xfer → Tab Xfer)  : nextTick (mapXfers f s) = nextTick s := (rfl)
@[simp] theorem reg_setXferNext (n : Nat) (x : Nat) : reg (setXferNext n s) x = reg s x := (rfl)
@[simp] theorem getF_setXferNext (n : Nat) (g : Fld) : getF (setXferNext n s) g = getF s g := (rfl)
@[simp] theorem isSet_setXferNext (n : Nat) (g : Fld) : isSet (setXferNext n s) g = isSet s g := (rfl)
@[simp] theorem readB_setXferNext (n : Nat) (x : Nat) : readB (setXferNext n s) x = readB s x := (rfl)
@[simp] theorem core_setXferNext (n : Nat) (x : Nat) : core (setXferNext n s) x = core s x := (rfl)
@[simp] theorem clus_setXferNext (n : Nat) (x : Nat) : clus (setXferNext n s) x = clus s x := (rfl)
@[simp] theorem ten_setXferNext (n : Nat) (x : Nat) : ten (setXferNext n s) x = ten s x := (rfl)
@[simp] theorem port_setXferNext (n : Nat) (x : Nat) : port (setXferNext n s) x = port s x := (rfl)
@[simp] theorem pad_setXferNext (n : Nat) (x : Nat) : pad (setXferNext n s) x = pad s x := (rfl)
@[simp] theorem fifo_setXferNext (n : Nat) (x : Nat) : fifo (setXferNext n s) x = fifo s x := (rfl)
@[simp] theorem chan_setXferNext (n : Nat) (x : Nat) : chan (setXferNext n s) x = chan s x := (rfl)
@[simp] theorem lgroup_setXferNext (n : Nat) (x : Nat) : lgroup (setXferNext n s) x = lgroup s x := (rfl)
@[simp] theorem drn_setXferNext (n : Nat) (x : Nat) : drn (setXferNext n s) x = drn s x := (rfl)
@[simp] theorem dev_setXferNext (n : Nat) (x y : Nat) : dev (setXferNext n s) x y = dev s x y := (rfl)
@[simp] theorem pwrCl_setXferNext (n : Nat) (x : Nat) : pwrCl (setXferNext n s) x = pwrCl s x := (rfl)
@[simp] theorem now_setXferNext (n : Nat)  : now (setXferNext n s) = now s := (rfl)
@[simp] theorem frameNo_setXferNext (n : Nat)  : frameNo (setXferNext n s) = frameNo s := (rfl)
@[simp] theorem turnInFrame_setXferNext (n : Nat)  : turnInFrame (setXferNext n s) = turnInFrame s := (rfl)
@[simp] theorem nextTick_setXferNext (n : Nat)  : nextTick (setXferNext n s) = nextTick s := (rfl)
@[simp] theorem reg_mapArbs (f : Tab ArbSt → Tab ArbSt) (x : Nat) : reg (mapArbs f s) x = reg s x := (rfl)
@[simp] theorem getF_mapArbs (f : Tab ArbSt → Tab ArbSt) (g : Fld) : getF (mapArbs f s) g = getF s g := (rfl)
@[simp] theorem isSet_mapArbs (f : Tab ArbSt → Tab ArbSt) (g : Fld) : isSet (mapArbs f s) g = isSet s g := (rfl)
@[simp] theorem readB_mapArbs (f : Tab ArbSt → Tab ArbSt) (x : Nat) : readB (mapArbs f s) x = readB s x := (rfl)
@[simp] theorem core_mapArbs (f : Tab ArbSt → Tab ArbSt) (x : Nat) : core (mapArbs f s) x = core s x := (rfl)
@[simp] theorem clus_mapArbs (f : Tab ArbSt → Tab ArbSt) (x : Nat) : clus (mapArbs f s) x = clus s x := (rfl)
@[simp] theorem ten_mapArbs (f : Tab ArbSt → Tab ArbSt) (x : Nat) : ten (mapArbs f s) x = ten s x := (rfl)
@[simp] theorem port_mapArbs (f : Tab ArbSt → Tab ArbSt) (x : Nat) : port (mapArbs f s) x = port s x := (rfl)
@[simp] theorem pad_mapArbs (f : Tab ArbSt → Tab ArbSt) (x : Nat) : pad (mapArbs f s) x = pad s x := (rfl)
@[simp] theorem fifo_mapArbs (f : Tab ArbSt → Tab ArbSt) (x : Nat) : fifo (mapArbs f s) x = fifo s x := (rfl)
@[simp] theorem chan_mapArbs (f : Tab ArbSt → Tab ArbSt) (x : Nat) : chan (mapArbs f s) x = chan s x := (rfl)
@[simp] theorem lgroup_mapArbs (f : Tab ArbSt → Tab ArbSt) (x : Nat) : lgroup (mapArbs f s) x = lgroup s x := (rfl)
@[simp] theorem drn_mapArbs (f : Tab ArbSt → Tab ArbSt) (x : Nat) : drn (mapArbs f s) x = drn s x := (rfl)
@[simp] theorem dev_mapArbs (f : Tab ArbSt → Tab ArbSt) (x y : Nat) : dev (mapArbs f s) x y = dev s x y := (rfl)
@[simp] theorem pwrCl_mapArbs (f : Tab ArbSt → Tab ArbSt) (x : Nat) : pwrCl (mapArbs f s) x = pwrCl s x := (rfl)
@[simp] theorem now_mapArbs (f : Tab ArbSt → Tab ArbSt)  : now (mapArbs f s) = now s := (rfl)
@[simp] theorem frameNo_mapArbs (f : Tab ArbSt → Tab ArbSt)  : frameNo (mapArbs f s) = frameNo s := (rfl)
@[simp] theorem turnInFrame_mapArbs (f : Tab ArbSt → Tab ArbSt)  : turnInFrame (mapArbs f s) = turnInFrame s := (rfl)
@[simp] theorem nextTick_mapArbs (f : Tab ArbSt → Tab ArbSt)  : nextTick (mapArbs f s) = nextTick s := (rfl)
@[simp] theorem reg_mapHolds (f : Tab Nat → Tab Nat) (x : Nat) : reg (mapHolds f s) x = reg s x := (rfl)
@[simp] theorem getF_mapHolds (f : Tab Nat → Tab Nat) (g : Fld) : getF (mapHolds f s) g = getF s g := (rfl)
@[simp] theorem isSet_mapHolds (f : Tab Nat → Tab Nat) (g : Fld) : isSet (mapHolds f s) g = isSet s g := (rfl)
@[simp] theorem readB_mapHolds (f : Tab Nat → Tab Nat) (x : Nat) : readB (mapHolds f s) x = readB s x := (rfl)
@[simp] theorem core_mapHolds (f : Tab Nat → Tab Nat) (x : Nat) : core (mapHolds f s) x = core s x := (rfl)
@[simp] theorem clus_mapHolds (f : Tab Nat → Tab Nat) (x : Nat) : clus (mapHolds f s) x = clus s x := (rfl)
@[simp] theorem ten_mapHolds (f : Tab Nat → Tab Nat) (x : Nat) : ten (mapHolds f s) x = ten s x := (rfl)
@[simp] theorem port_mapHolds (f : Tab Nat → Tab Nat) (x : Nat) : port (mapHolds f s) x = port s x := (rfl)
@[simp] theorem pad_mapHolds (f : Tab Nat → Tab Nat) (x : Nat) : pad (mapHolds f s) x = pad s x := (rfl)
@[simp] theorem fifo_mapHolds (f : Tab Nat → Tab Nat) (x : Nat) : fifo (mapHolds f s) x = fifo s x := (rfl)
@[simp] theorem chan_mapHolds (f : Tab Nat → Tab Nat) (x : Nat) : chan (mapHolds f s) x = chan s x := (rfl)
@[simp] theorem lgroup_mapHolds (f : Tab Nat → Tab Nat) (x : Nat) : lgroup (mapHolds f s) x = lgroup s x := (rfl)
@[simp] theorem drn_mapHolds (f : Tab Nat → Tab Nat) (x : Nat) : drn (mapHolds f s) x = drn s x := (rfl)
@[simp] theorem dev_mapHolds (f : Tab Nat → Tab Nat) (x y : Nat) : dev (mapHolds f s) x y = dev s x y := (rfl)
@[simp] theorem pwrCl_mapHolds (f : Tab Nat → Tab Nat) (x : Nat) : pwrCl (mapHolds f s) x = pwrCl s x := (rfl)
@[simp] theorem now_mapHolds (f : Tab Nat → Tab Nat)  : now (mapHolds f s) = now s := (rfl)
@[simp] theorem frameNo_mapHolds (f : Tab Nat → Tab Nat)  : frameNo (mapHolds f s) = frameNo s := (rfl)
@[simp] theorem turnInFrame_mapHolds (f : Tab Nat → Tab Nat)  : turnInFrame (mapHolds f s) = turnInFrame s := (rfl)
@[simp] theorem nextTick_mapHolds (f : Tab Nat → Tab Nat)  : nextTick (mapHolds f s) = nextTick s := (rfl)
@[simp] theorem reg_setAdmin (a : Option AdmPend) (x : Nat) : reg (setAdmin a s) x = reg s x := (rfl)
@[simp] theorem getF_setAdmin (a : Option AdmPend) (g : Fld) : getF (setAdmin a s) g = getF s g := (rfl)
@[simp] theorem isSet_setAdmin (a : Option AdmPend) (g : Fld) : isSet (setAdmin a s) g = isSet s g := (rfl)
@[simp] theorem readB_setAdmin (a : Option AdmPend) (x : Nat) : readB (setAdmin a s) x = readB s x := (rfl)
@[simp] theorem core_setAdmin (a : Option AdmPend) (x : Nat) : core (setAdmin a s) x = core s x := (rfl)
@[simp] theorem clus_setAdmin (a : Option AdmPend) (x : Nat) : clus (setAdmin a s) x = clus s x := (rfl)
@[simp] theorem ten_setAdmin (a : Option AdmPend) (x : Nat) : ten (setAdmin a s) x = ten s x := (rfl)
@[simp] theorem port_setAdmin (a : Option AdmPend) (x : Nat) : port (setAdmin a s) x = port s x := (rfl)
@[simp] theorem pad_setAdmin (a : Option AdmPend) (x : Nat) : pad (setAdmin a s) x = pad s x := (rfl)
@[simp] theorem fifo_setAdmin (a : Option AdmPend) (x : Nat) : fifo (setAdmin a s) x = fifo s x := (rfl)
@[simp] theorem chan_setAdmin (a : Option AdmPend) (x : Nat) : chan (setAdmin a s) x = chan s x := (rfl)
@[simp] theorem lgroup_setAdmin (a : Option AdmPend) (x : Nat) : lgroup (setAdmin a s) x = lgroup s x := (rfl)
@[simp] theorem drn_setAdmin (a : Option AdmPend) (x : Nat) : drn (setAdmin a s) x = drn s x := (rfl)
@[simp] theorem dev_setAdmin (a : Option AdmPend) (x y : Nat) : dev (setAdmin a s) x y = dev s x y := (rfl)
@[simp] theorem pwrCl_setAdmin (a : Option AdmPend) (x : Nat) : pwrCl (setAdmin a s) x = pwrCl s x := (rfl)
@[simp] theorem now_setAdmin (a : Option AdmPend)  : now (setAdmin a s) = now s := (rfl)
@[simp] theorem frameNo_setAdmin (a : Option AdmPend)  : frameNo (setAdmin a s) = frameNo s := (rfl)
@[simp] theorem turnInFrame_setAdmin (a : Option AdmPend)  : turnInFrame (setAdmin a s) = turnInFrame s := (rfl)
@[simp] theorem nextTick_setAdmin (a : Option AdmPend)  : nextTick (setAdmin a s) = nextTick s := (rfl)
@[simp] theorem reg_mark (f : Fld) (x : Nat) : reg (mark f s) x = reg s x := (rfl)
@[simp] theorem getF_mark (f : Fld) (g : Fld) : getF (mark f s) g = getF s g := (rfl)
@[simp] theorem isSet_mark (f : Fld) (g : Fld) : isSet (mark f s) g = isSet s g := (rfl)
@[simp] theorem readB_mark (f : Fld) (x : Nat) : readB (mark f s) x = readB s x := (rfl)
@[simp] theorem core_mark (f : Fld) (x : Nat) : core (mark f s) x = core s x := (rfl)
@[simp] theorem clus_mark (f : Fld) (x : Nat) : clus (mark f s) x = clus s x := (rfl)
@[simp] theorem ten_mark (f : Fld) (x : Nat) : ten (mark f s) x = ten s x := (rfl)
@[simp] theorem port_mark (f : Fld) (x : Nat) : port (mark f s) x = port s x := (rfl)
@[simp] theorem pad_mark (f : Fld) (x : Nat) : pad (mark f s) x = pad s x := (rfl)
@[simp] theorem fifo_mark (f : Fld) (x : Nat) : fifo (mark f s) x = fifo s x := (rfl)
@[simp] theorem chan_mark (f : Fld) (x : Nat) : chan (mark f s) x = chan s x := (rfl)
@[simp] theorem lgroup_mark (f : Fld) (x : Nat) : lgroup (mark f s) x = lgroup s x := (rfl)
@[simp] theorem drn_mark (f : Fld) (x : Nat) : drn (mark f s) x = drn s x := (rfl)
@[simp] theorem dev_mark (f : Fld) (x y : Nat) : dev (mark f s) x y = dev s x y := (rfl)
@[simp] theorem pwrCl_mark (f : Fld) (x : Nat) : pwrCl (mark f s) x = pwrCl s x := (rfl)
@[simp] theorem now_mark (f : Fld)  : now (mark f s) = now s := (rfl)
@[simp] theorem frameNo_mark (f : Fld)  : frameNo (mark f s) = frameNo s := (rfl)
@[simp] theorem turnInFrame_mark (f : Fld)  : turnInFrame (mark f s) = turnInFrame s := (rfl)
@[simp] theorem nextTick_mark (f : Fld)  : nextTick (mark f s) = nextTick s := (rfl)
@[simp] theorem reg_mapHot (f : Tab (Nat × Word) → Tab (Nat × Word)) (x : Nat) : reg (mapHot f s) x = reg s x := (rfl)
@[simp] theorem getF_mapHot (f : Tab (Nat × Word) → Tab (Nat × Word)) (g : Fld) : getF (mapHot f s) g = getF s g := (rfl)
@[simp] theorem isSet_mapHot (f : Tab (Nat × Word) → Tab (Nat × Word)) (g : Fld) : isSet (mapHot f s) g = isSet s g := (rfl)
@[simp] theorem readB_mapHot (f : Tab (Nat × Word) → Tab (Nat × Word)) (x : Nat) : readB (mapHot f s) x = readB s x := (rfl)
@[simp] theorem core_mapHot (f : Tab (Nat × Word) → Tab (Nat × Word)) (x : Nat) : core (mapHot f s) x = core s x := (rfl)
@[simp] theorem clus_mapHot (f : Tab (Nat × Word) → Tab (Nat × Word)) (x : Nat) : clus (mapHot f s) x = clus s x := (rfl)
@[simp] theorem ten_mapHot (f : Tab (Nat × Word) → Tab (Nat × Word)) (x : Nat) : ten (mapHot f s) x = ten s x := (rfl)
@[simp] theorem port_mapHot (f : Tab (Nat × Word) → Tab (Nat × Word)) (x : Nat) : port (mapHot f s) x = port s x := (rfl)
@[simp] theorem pad_mapHot (f : Tab (Nat × Word) → Tab (Nat × Word)) (x : Nat) : pad (mapHot f s) x = pad s x := (rfl)
@[simp] theorem fifo_mapHot (f : Tab (Nat × Word) → Tab (Nat × Word)) (x : Nat) : fifo (mapHot f s) x = fifo s x := (rfl)
@[simp] theorem chan_mapHot (f : Tab (Nat × Word) → Tab (Nat × Word)) (x : Nat) : chan (mapHot f s) x = chan s x := (rfl)
@[simp] theorem lgroup_mapHot (f : Tab (Nat × Word) → Tab (Nat × Word)) (x : Nat) : lgroup (mapHot f s) x = lgroup s x := (rfl)
@[simp] theorem drn_mapHot (f : Tab (Nat × Word) → Tab (Nat × Word)) (x : Nat) : drn (mapHot f s) x = drn s x := (rfl)
@[simp] theorem dev_mapHot (f : Tab (Nat × Word) → Tab (Nat × Word)) (x y : Nat) : dev (mapHot f s) x y = dev s x y := (rfl)
@[simp] theorem pwrCl_mapHot (f : Tab (Nat × Word) → Tab (Nat × Word)) (x : Nat) : pwrCl (mapHot f s) x = pwrCl s x := (rfl)
@[simp] theorem now_mapHot (f : Tab (Nat × Word) → Tab (Nat × Word))  : now (mapHot f s) = now s := (rfl)
@[simp] theorem frameNo_mapHot (f : Tab (Nat × Word) → Tab (Nat × Word))  : frameNo (mapHot f s) = frameNo s := (rfl)
@[simp] theorem turnInFrame_mapHot (f : Tab (Nat × Word) → Tab (Nat × Word))  : turnInFrame (mapHot f s) = turnInFrame s := (rfl)
@[simp] theorem nextTick_mapHot (f : Tab (Nat × Word) → Tab (Nat × Word))  : nextTick (mapHot f s) = nextTick s := (rfl)

/-! ### A flag set by an event reads as a field that is written (R15) -/

@[simp] theorem reg_flag (f : Fld) (k : Nat) : reg (flag f s) k = reg (setF f 1 s) k := (rfl)
@[simp] theorem getF_flag (f g : Fld) : getF (flag f s) g = getF (setF f 1 s) g := (rfl)
@[simp] theorem isSet_flag (f g : Fld) : isSet (flag f s) g = isSet (setF f 1 s) g := (rfl)
@[simp] theorem flag_pending (f : Fld) : (flag f s).pending = s.pending := (rfl)
@[simp] theorem flag_mem (f : Fld) : (flag f s).mem = s.mem := (rfl)
@[simp] theorem flag_time (f : Fld) : (flag f s).time = s.time := (rfl)
@[simp] theorem flag_cal (f : Fld) : (flag f s).cal = s.cal := (rfl)
@[simp] theorem flag_tenants (f : Fld) : (flag f s).tenants = s.tenants := (rfl)
@[simp] theorem flag_devices (f : Fld) : (flag f s).devices = s.devices := (rfl)
@[simp] theorem flag_ports (f : Fld) : (flag f s).ports = s.ports := (rfl)
@[simp] theorem flag_images (f : Fld) : (flag f s).images = s.images := (rfl)
@[simp] theorem flag_pads (f : Fld) : (flag f s).pads = s.pads := (rfl)
@[simp] theorem flag_pgOn (f : Fld) : (flag f s).pgOn = s.pgOn := (rfl)
@[simp] theorem flag_fifos (f : Fld) : (flag f s).fifos = s.fifos := (rfl)
@[simp] theorem flag_chans (f : Fld) : (flag f s).chans = s.chans := (rfl)
@[simp] theorem flag_lgroups (f : Fld) : (flag f s).lgroups = s.lgroups := (rfl)
@[simp] theorem flag_journal (f : Fld) : (flag f s).journal = s.journal := (rfl)
@[simp] theorem flag_clusters (f : Fld) : (flag f s).clusters = s.clusters := (rfl)
@[simp] theorem flag_cores (f : Fld) : (flag f s).cores = s.cores := (rfl)
@[simp] theorem flag_locks (f : Fld) : (flag f s).locks = s.locks := (rfl)
@[simp] theorem flag_remote (f : Fld) : (flag f s).remote = s.remote := (rfl)
@[simp] theorem flag_delayed (f : Fld) : (flag f s).delayed = s.delayed := (rfl)
@[simp] theorem flag_xfers (f : Fld) : (flag f s).xfers = s.xfers := (rfl)
@[simp] theorem flag_xferNext (f : Fld) : (flag f s).xferNext = s.xferNext := (rfl)
@[simp] theorem flag_arbs (f : Fld) : (flag f s).arbs = s.arbs := (rfl)
@[simp] theorem flag_links (f : Fld) : (flag f s).links = s.links := (rfl)
@[simp] theorem flag_group (f : Fld) : (flag f s).group = s.group := (rfl)
@[simp] theorem flag_guard (f : Fld) : (flag f s).guard = s.guard := (rfl)
@[simp] theorem flag_holds (f : Fld) : (flag f s).holds = s.holds := (rfl)
@[simp] theorem flag_power (f : Fld) : (flag f s).power = s.power := (rfl)
@[simp] theorem flag_host (f : Fld) : (flag f s).host = s.host := (rfl)
@[simp] theorem flag_admin (f : Fld) : (flag f s).admin = s.admin := (rfl)
@[simp] theorem flag_fresh (f : Fld) : (flag f s).fresh = s.fresh := (rfl)

end Sys2Proof.Machine
end

