-- ==== Sys2Proof/Laws/View.lean ====
section
/-! SUPPORT. What each operation of the machine leaves unchanged: a view is any reading of the state; an operation
changes no view that does not depend on the parts it writes. One lemma for each operation. -/

set_option linter.unusedTactic false
set_option linter.unreachableTactic false
set_option linter.unusedSimpArgs false
set_option linter.unusedVariables false

namespace Sys2Proof.Machine

/-- A reading of the state. -/
structure View (α : Type) where
  get : State → α

/-- What the view reads. -/
def View.at {α : Type} (v : View α) (s : State) : α := v.get s

/-- The view does not depend on a part of the state. -/
def View.free {α : Type} (v : View α) : Part → Prop
  | .regs => ∀ (s : State) x, v.get { s with regs := x } = v.get s
  | .mem => ∀ (s : State) x, v.get { s with mem := x } = v.get s
  | .time => ∀ (s : State) x, v.get { s with time := x } = v.get s
  | .cal => ∀ (s : State) x, v.get { s with cal := x } = v.get s
  | .tenants => ∀ (s : State) x, v.get { s with tenants := x } = v.get s
  | .devices => ∀ (s : State) x, v.get { s with devices := x } = v.get s
  | .ports => ∀ (s : State) x, v.get { s with ports := x } = v.get s
  | .images => ∀ (s : State) x, v.get { s with images := x } = v.get s
  | .pads => ∀ (s : State) x, v.get { s with pads := x } = v.get s
  | .pgOn => ∀ (s : State) x, v.get { s with pgOn := x } = v.get s
  | .fifos => ∀ (s : State) x, v.get { s with fifos := x } = v.get s
  | .chans => ∀ (s : State) x, v.get { s with chans := x } = v.get s
  | .lgroups => ∀ (s : State) x, v.get { s with lgroups := x } = v.get s
  | .journal => ∀ (s : State) x, v.get { s with journal := x } = v.get s
  | .clusters => ∀ (s : State) x, v.get { s with clusters := x } = v.get s
  | .cores => ∀ (s : State) x, v.get { s with cores := x } = v.get s
  | .locks => ∀ (s : State) x, v.get { s with locks := x } = v.get s
  | .remote => ∀ (s : State) x, v.get { s with remote := x } = v.get s
  | .delayed => ∀ (s : State) x, v.get { s with delayed := x } = v.get s
  | .xfers => ∀ (s : State) x, v.get { s with xfers := x } = v.get s
  | .xferNext => ∀ (s : State) x, v.get { s with xferNext := x } = v.get s
  | .arbs => ∀ (s : State) x, v.get { s with arbs := x } = v.get s
  | .links => ∀ (s : State) x, v.get { s with links := x } = v.get s
  | .group => ∀ (s : State) x, v.get { s with group := x } = v.get s
  | .guard => ∀ (s : State) x, v.get { s with guard := x } = v.get s
  | .holds => ∀ (s : State) x, v.get { s with holds := x } = v.get s
  | .power => ∀ (s : State) x, v.get { s with power := x } = v.get s
  | .host => ∀ (s : State) x, v.get { s with host := x } = v.get s
  | .admin => ∀ (s : State) x, v.get { s with admin := x } = v.get s
  | .hot => ∀ (s : State) x, v.get { s with hot := x } = v.get s
  | .fresh => ∀ (s : State) x, v.get { s with fresh := x } = v.get s

/-- The outcome is a next state with the property. -/
def NextP (P : State → Prop) : Outcome → Prop
  | .next t => P t
  | .fault _ => False
  | .refused _ => False

@[simp] theorem nextP_done (P : State → Prop) (s : State) : NextP P (done s) = P s := (rfl)
@[simp] theorem nextP_next (P : State → Prop) (s : State) : NextP P (.next s) = P s := (rfl)

/-- The state an administration command's effect leaves. -/
def Adm.st : Adm → State
  | .ans _ _ _ s => s
  | .wait _ s => s

@[simp] theorem Adm.st_ans (a b : Nat) (p : List Byte) (s : State) : (Adm.ans a b p s).st = s := (rfl)
@[simp] theorem Adm.st_wait (k : Nat) (s : State) : (Adm.wait k s).st = s := (rfl)

@[simp] theorem Adm.state_st (a : Adm) : a.state = a.st := by cases a <;> rfl

variable {α : Type} (vw : View α)

@[simp] theorem each_view {β : Type} (xs : List β) (f : β → State → State) (h : ∀ x s, vw.at (f x s) = vw.at s)
    (s : State) : vw.at (each xs f s) = vw.at s := by
  induction xs generalizing s with
  | nil => rfl
  | cons x xs ih => exact (ih (f x s)).trans (h x s)

@[simp] theorem view_ite (p : Prop) [Decidable p] (x y : State) : vw.at (if p then x else y) = if p then vw.at x else vw.at y := by
  split <;> rfl

@[simp] theorem setReg_view (k : Nat) (w : Word) (hx_regs : vw.free .regs) (s : State) : vw.at (setReg k w s) = vw.at s := hx_regs s _
@[simp] theorem setF_view (f : Fld) (v : Nat) (hx_regs : vw.free .regs) (s : State) : vw.at (setF f v s) = vw.at s := hx_regs s _
@[simp] theorem addF_view (f : Fld) (v : Nat) (hx_regs : vw.free .regs) (s : State) : vw.at (addF f v s) = vw.at s := hx_regs s _
@[simp] theorem writeB_view (a : Nat) (b : Byte) (hx_mem : vw.free .mem) (s : State) : vw.at (writeB a b s) = vw.at s := hx_mem s _
@[simp] theorem clearMem_view (f : Nat → Bool) (hx_mem : vw.free .mem) (s : State) : vw.at (clearMem f s) = vw.at s := hx_mem s _
@[simp] theorem clearRegs_view (f : Nat → Bool) (hx_regs : vw.free .regs) (s : State) : vw.at (clearRegs f s) = vw.at s := hx_regs s _
@[simp] theorem goTo_view (n : Nat) (hx_time : vw.free .time) (s : State) : vw.at (goTo n s) = vw.at s := hx_time s _
@[simp] theorem useFresh_view  (hx_fresh : vw.free .fresh) (s : State) : vw.at (useFresh  s) = vw.at s := hx_fresh s _
@[simp] theorem setCore_view (i : Nat) (c : CoreSt) (hx_cores : vw.free .cores) (s : State) : vw.at (setCore i c s) = vw.at s := hx_cores s _
@[simp] theorem updCore_view (i : Nat) (f : CoreSt → CoreSt) (hx_cores : vw.free .cores) (s : State) : vw.at (updCore i f s) = vw.at s := hx_cores s _
@[simp] theorem updClus_view (n : Nat) (f : ClusterSt → ClusterSt) (hx_clusters : vw.free .clusters) (s : State) : vw.at (updClus n f s) = vw.at s := hx_clusters s _
@[simp] theorem updTen_view (n : Nat) (f : TenantSt → TenantSt) (hx_tenants : vw.free .tenants) (s : State) : vw.at (updTen n f s) = vw.at s := hx_tenants s _
@[simp] theorem updDev_view (n d : Nat) (f : DeviceSt → DeviceSt) (hx_devices : vw.free .devices) (s : State) : vw.at (updDev n d f s) = vw.at s := hx_devices s _
@[simp] theorem updPort_view (n : Nat) (f : PortSt → PortSt) (hx_ports : vw.free .ports) (s : State) : vw.at (updPort n f s) = vw.at s := hx_ports s _
@[simp] theorem updPad_view (n : Nat) (f : PadSt → PadSt) (hx_pads : vw.free .pads) (s : State) : vw.at (updPad n f s) = vw.at s := hx_pads s _
@[simp] theorem updFifo_view (n : Nat) (f : FifoSt → FifoSt) (hx_fifos : vw.free .fifos) (s : State) : vw.at (updFifo n f s) = vw.at s := hx_fifos s _
@[simp] theorem updChan_view (n : Nat) (f : ChanSt → ChanSt) (hx_chans : vw.free .chans) (s : State) : vw.at (updChan n f s) = vw.at s := hx_chans s _
@[simp] theorem updLGroup_view (n : Nat) (f : LGroupSt → LGroupSt) (hx_lgroups : vw.free .lgroups) (s : State) : vw.at (updLGroup n f s) = vw.at s := hx_lgroups s _
@[simp] theorem updDrn_view (n : Nat) (f : DrnSt → DrnSt) (hx_links : vw.free .links) (s : State) : vw.at (updDrn n f s) = vw.at s := hx_links s _
@[simp] theorem updPwrCl_view (n : Nat) (f : PwrCl → PwrCl) (hx_power : vw.free .power) (s : State) : vw.at (updPwrCl n f s) = vw.at s := hx_power s _
@[simp] theorem updHost_view (f : HostSt → HostSt) (hx_host : vw.free .host) (s : State) : vw.at (updHost f s) = vw.at s := hx_host s _
@[simp] theorem updGuard_view (f : GuardSt → GuardSt) (hx_guard : vw.free .guard) (s : State) : vw.at (updGuard f s) = vw.at s := hx_guard s _
@[simp] theorem updGroup_view (f : GroupSt → GroupSt) (hx_group : vw.free .group) (s : State) : vw.at (updGroup f s) = vw.at s := hx_group s _
@[simp] theorem updJnl_view (f : JournalSt → JournalSt) (hx_journal : vw.free .journal) (s : State) : vw.at (updJnl f s) = vw.at s := hx_journal s _
@[simp] theorem updPower_view (f : PowerSt → PowerSt) (hx_power : vw.free .power) (s : State) : vw.at (updPower f s) = vw.at s := hx_power s _
@[simp] theorem updTime_view (f : TimeSt → TimeSt) (hx_time : vw.free .time) (s : State) : vw.at (updTime f s) = vw.at s := hx_time s _
@[simp] theorem updCal_view (f : CalSt → CalSt) (hx_cal : vw.free .cal) (s : State) : vw.at (updCal f s) = vw.at s := hx_cal s _
@[simp] theorem mapPorts_view (f : Tab PortSt → Tab PortSt) (hx_ports : vw.free .ports) (s : State) : vw.at (mapPorts f s) = vw.at s := hx_ports s _
@[simp] theorem mapDevices_view (f : Tab DeviceSt → Tab DeviceSt) (hx_devices : vw.free .devices) (s : State) : vw.at (mapDevices f s) = vw.at s := hx_devices s _
@[simp] theorem mapImages_view (f : Tab ImageSt → Tab ImageSt) (hx_images : vw.free .images) (s : State) : vw.at (mapImages f s) = vw.at s := hx_images s _
@[simp] theorem mapPads_view (f : Tab PadSt → Tab PadSt) (hx_pads : vw.free .pads) (s : State) : vw.at (mapPads f s) = vw.at s := hx_pads s _
@[simp] theorem mapPgOn_view (f : Tab Bool → Tab Bool) (hx_pgOn : vw.free .pgOn) (s : State) : vw.at (mapPgOn f s) = vw.at s := hx_pgOn s _
@[simp] theorem mapFifos_view (f : Tab FifoSt → Tab FifoSt) (hx_fifos : vw.free .fifos) (s : State) : vw.at (mapFifos f s) = vw.at s := hx_fifos s _
@[simp] theorem mapChans_view (f : Tab ChanSt → Tab ChanSt) (hx_chans : vw.free .chans) (s : State) : vw.at (mapChans f s) = vw.at s := hx_chans s _
@[simp] theorem mapClusters_view (f : Tab ClusterSt → Tab ClusterSt) (hx_clusters : vw.free .clusters) (s : State) : vw.at (mapClusters f s) = vw.at s := hx_clusters s _
@[simp] theorem mapCores_view (f : Tab CoreSt → Tab CoreSt) (hx_cores : vw.free .cores) (s : State) : vw.at (mapCores f s) = vw.at s := hx_cores s _
@[simp] theorem mapLocks_view (f : Tab LockSt → Tab LockSt) (hx_locks : vw.free .locks) (s : State) : vw.at (mapLocks f s) = vw.at s := hx_locks s _
@[simp] theorem mapRemote_view (f : List (Nat × Nat × Nat × Crossing) → List (Nat × Nat × Nat × Crossing)) (hx_remote : vw.free .remote) (s : State) : vw.at (mapRemote f s) = vw.at s := hx_remote s _
@[simp] theorem mapDelayed_view (f : List (Nat × Nat × Crossing) → List (Nat × Nat × Crossing)) (hx_delayed : vw.free .delayed) (s : State) : vw.at (mapDelayed f s) = vw.at s := hx_delayed s _
@[simp] theorem mapXfers_view (f : Tab Xfer → Tab Xfer) (hx_xfers : vw.free .xfers) (s : State) : vw.at (mapXfers f s) = vw.at s := hx_xfers s _
@[simp] theorem setXferNext_view (n : Nat) (hx_xferNext : vw.free .xferNext) (s : State) : vw.at (setXferNext n s) = vw.at s := hx_xferNext s _
@[simp] theorem mapArbs_view (f : Tab ArbSt → Tab ArbSt) (hx_arbs : vw.free .arbs) (s : State) : vw.at (mapArbs f s) = vw.at s := hx_arbs s _
@[simp] theorem mapHolds_view (f : Tab Nat → Tab Nat) (hx_holds : vw.free .holds) (s : State) : vw.at (mapHolds f s) = vw.at s := hx_holds s _
@[simp] theorem setAdmin_view (a : Option AdmPend) (hx_admin : vw.free .admin) (s : State) : vw.at (setAdmin a s) = vw.at s := hx_admin s _
@[simp] theorem mark_view (f : Fld) (hx_hot : vw.free .hot) (s : State) : vw.at (mark f s) = vw.at s := hx_hot s _
@[simp] theorem mapHot_view (f : Tab (Nat × Word) → Tab (Nat × Word)) (hx_hot : vw.free .hot) (s : State) : vw.at (mapHot f s) = vw.at s := hx_hot s _

/-- A view that depends on the queue alone reads the same in states with the same queue. -/
theorem view_all (h : ∀ p, vw.free p) {s t : State} (e : t.pending = s.pending) : vw.at t = vw.at s := by
  obtain ⟨q, s0, s1, s2, s3, s4, s5, s6, s7, s8, s9, s10, s11, s12, s13, s14, s15, s16, s17, s18, s19, s20, s21, s22, s23, s24, s25, s26, s27, s28, s29, s30⟩ := s
  obtain ⟨q1, t0, t1, t2, t3, t4, t5, t6, t7, t8, t9, t10, t11, t12, t13, t14, t15, t16, t17, t18, t19, t20, t21, t22, t23, t24, t25, t26, t27, t28, t29, t30⟩ := t
  cases e
  refine Eq.symm ?_
  refine ((h .regs) ⟨q, s0, s1, s2, s3, s4, s5, s6, s7, s8, s9, s10, s11, s12, s13, s14, s15, s16, s17, s18, s19, s20, s21, s22, s23, s24, s25, s26, s27, s28, s29, s30⟩ t0).symm.trans ?_
  refine ((h .mem) ⟨q, t0, s1, s2, s3, s4, s5, s6, s7, s8, s9, s10, s11, s12, s13, s14, s15, s16, s17, s18, s19, s20, s21, s22, s23, s24, s25, s26, s27, s28, s29, s30⟩ t1).symm.trans ?_
  refine ((h .time) ⟨q, t0, t1, s2, s3, s4, s5, s6, s7, s8, s9, s10, s11, s12, s13, s14, s15, s16, s17, s18, s19, s20, s21, s22, s23, s24, s25, s26, s27, s28, s29, s30⟩ t2).symm.trans ?_
  refine ((h .cal) ⟨q, t0, t1, t2, s3, s4, s5, s6, s7, s8, s9, s10, s11, s12, s13, s14, s15, s16, s17, s18, s19, s20, s21, s22, s23, s24, s25, s26, s27, s28, s29, s30⟩ t3).symm.trans ?_
  refine ((h .tenants) ⟨q, t0, t1, t2, t3, s4, s5, s6, s7, s8, s9, s10, s11, s12, s13, s14, s15, s16, s17, s18, s19, s20, s21, s22, s23, s24, s25, s26, s27, s28, s29, s30⟩ t4).symm.trans ?_
  refine ((h .devices) ⟨q, t0, t1, t2, t3, t4, s5, s6, s7, s8, s9, s10, s11, s12, s13, s14, s15, s16, s17, s18, s19, s20, s21, s22, s23, s24, s25, s26, s27, s28, s29, s30⟩ t5).symm.trans ?_
  refine ((h .ports) ⟨q, t0, t1, t2, t3, t4, t5, s6, s7, s8, s9, s10, s11, s12, s13, s14, s15, s16, s17, s18, s19, s20, s21, s22, s23, s24, s25, s26, s27, s28, s29, s30⟩ t6).symm.trans ?_
  refine ((h .images) ⟨q, t0, t1, t2, t3, t4, t5, t6, s7, s8, s9, s10, s11, s12, s13, s14, s15, s16, s17, s18, s19, s20, s21, s22, s23, s24, s25, s26, s27, s28, s29, s30⟩ t7).symm.trans ?_
  refine ((h .pads) ⟨q, t0, t1, t2, t3, t4, t5, t6, t7, s8, s9, s10, s11, s12, s13, s14, s15, s16, s17, s18, s19, s20, s21, s22, s23, s24, s25, s26, s27, s28, s29, s30⟩ t8).symm.trans ?_
  refine ((h .pgOn) ⟨q, t0, t1, t2, t3, t4, t5, t6, t7, t8, s9, s10, s11, s12, s13, s14, s15, s16, s17, s18, s19, s20, s21, s22, s23, s24, s25, s26, s27, s28, s29, s30⟩ t9).symm.trans ?_
  refine ((h .fifos) ⟨q, t0, t1, t2, t3, t4, t5, t6, t7, t8, t9, s10, s11, s12, s13, s14, s15, s16, s17, s18, s19, s20, s21, s22, s23, s24, s25, s26, s27, s28, s29, s30⟩ t10).symm.trans ?_
  refine ((h .chans) ⟨q, t0, t1, t2, t3, t4, t5, t6, t7, t8, t9, t10, s11, s12, s13, s14, s15, s16, s17, s18, s19, s20, s21, s22, s23, s24, s25, s26, s27, s28, s29, s30⟩ t11).symm.trans ?_
  refine ((h .lgroups) ⟨q, t0, t1, t2, t3, t4, t5, t6, t7, t8, t9, t10, t11, s12, s13, s14, s15, s16, s17, s18, s19, s20, s21, s22, s23, s24, s25, s26, s27, s28, s29, s30⟩ t12).symm.trans ?_
  refine ((h .journal) ⟨q, t0, t1, t2, t3, t4, t5, t6, t7, t8, t9, t10, t11, t12, s13, s14, s15, s16, s17, s18, s19, s20, s21, s22, s23, s24, s25, s26, s27, s28, s29, s30⟩ t13).symm.trans ?_
  refine ((h .clusters) ⟨q, t0, t1, t2, t3, t4, t5, t6, t7, t8, t9, t10, t11, t12, t13, s14, s15, s16, s17, s18, s19, s20, s21, s22, s23, s24, s25, s26, s27, s28, s29, s30⟩ t14).symm.trans ?_
  refine ((h .cores) ⟨q, t0, t1, t2, t3, t4, t5, t6, t7, t8, t9, t10, t11, t12, t13, t14, s15, s16, s17, s18, s19, s20, s21, s22, s23, s24, s25, s26, s27, s28, s29, s30⟩ t15).symm.trans ?_
  refine ((h .locks) ⟨q, t0, t1, t2, t3, t4, t5, t6, t7, t8, t9, t10, t11, t12, t13, t14, t15, s16, s17, s18, s19, s20, s21, s22, s23, s24, s25, s26, s27, s28, s29, s30⟩ t16).symm.trans ?_
  refine ((h .remote) ⟨q, t0, t1, t2, t3, t4, t5, t6, t7, t8, t9, t10, t11, t12, t13, t14, t15, t16, s17, s18, s19, s20, s21, s22, s23, s24, s25, s26, s27, s28, s29, s30⟩ t17).symm.trans ?_
  refine ((h .delayed) ⟨q, t0, t1, t2, t3, t4, t5, t6, t7, t8, t9, t10, t11, t12, t13, t14, t15, t16, t17, s18, s19, s20, s21, s22, s23, s24, s25, s26, s27, s28, s29, s30⟩ t18).symm.trans ?_
  refine ((h .xfers) ⟨q, t0, t1, t2, t3, t4, t5, t6, t7, t8, t9, t10, t11, t12, t13, t14, t15, t16, t17, t18, s19, s20, s21, s22, s23, s24, s25, s26, s27, s28, s29, s30⟩ t19).symm.trans ?_
  refine ((h .xferNext) ⟨q, t0, t1, t2, t3, t4, t5, t6, t7, t8, t9, t10, t11, t12, t13, t14, t15, t16, t17, t18, t19, s20, s21, s22, s23, s24, s25, s26, s27, s28, s29, s30⟩ t20).symm.trans ?_
  refine ((h .arbs) ⟨q, t0, t1, t2, t3, t4, t5, t6, t7, t8, t9, t10, t11, t12, t13, t14, t15, t16, t17, t18, t19, t20, s21, s22, s23, s24, s25, s26, s27, s28, s29, s30⟩ t21).symm.trans ?_
  refine ((h .links) ⟨q, t0, t1, t2, t3, t4, t5, t6, t7, t8, t9, t10, t11, t12, t13, t14, t15, t16, t17, t18, t19, t20, t21, s22, s23, s24, s25, s26, s27, s28, s29, s30⟩ t22).symm.trans ?_
  refine ((h .group) ⟨q, t0, t1, t2, t3, t4, t5, t6, t7, t8, t9, t10, t11, t12, t13, t14, t15, t16, t17, t18, t19, t20, t21, t22, s23, s24, s25, s26, s27, s28, s29, s30⟩ t23).symm.trans ?_
  refine ((h .guard) ⟨q, t0, t1, t2, t3, t4, t5, t6, t7, t8, t9, t10, t11, t12, t13, t14, t15, t16, t17, t18, t19, t20, t21, t22, t23, s24, s25, s26, s27, s28, s29, s30⟩ t24).symm.trans ?_
  refine ((h .holds) ⟨q, t0, t1, t2, t3, t4, t5, t6, t7, t8, t9, t10, t11, t12, t13, t14, t15, t16, t17, t18, t19, t20, t21, t22, t23, t24, s25, s26, s27, s28, s29, s30⟩ t25).symm.trans ?_
  refine ((h .power) ⟨q, t0, t1, t2, t3, t4, t5, t6, t7, t8, t9, t10, t11, t12, t13, t14, t15, t16, t17, t18, t19, t20, t21, t22, t23, t24, t25, s26, s27, s28, s29, s30⟩ t26).symm.trans ?_
  refine ((h .host) ⟨q, t0, t1, t2, t3, t4, t5, t6, t7, t8, t9, t10, t11, t12, t13, t14, t15, t16, t17, t18, t19, t20, t21, t22, t23, t24, t25, t26, s27, s28, s29, s30⟩ t27).symm.trans ?_
  refine ((h .admin) ⟨q, t0, t1, t2, t3, t4, t5, t6, t7, t8, t9, t10, t11, t12, t13, t14, t15, t16, t17, t18, t19, t20, t21, t22, t23, t24, t25, t26, t27, s28, s29, s30⟩ t28).symm.trans ?_
  refine ((h .hot) ⟨q, t0, t1, t2, t3, t4, t5, t6, t7, t8, t9, t10, t11, t12, t13, t14, t15, t16, t17, t18, t19, t20, t21, t22, t23, t24, t25, t26, t27, t28, s29, s30⟩ t29).symm.trans ?_
  refine ((h .fresh) ⟨q, t0, t1, t2, t3, t4, t5, t6, t7, t8, t9, t10, t11, t12, t13, t14, t15, t16, t17, t18, t19, t20, t21, t22, t23, t24, t25, t26, t27, t28, t29, s30⟩ t30).symm.trans ?_
  rfl

@[simp] theorem flag_view (hx_regs : vw.free .regs) (hx_hot : vw.free .hot) (f : Fld) (s : State)  : vw.at (flag f s) = vw.at s := by
  simp [flag, *]

@[simp] theorem clearFlag_view (hx_regs : vw.free .regs) (f : Fld) (s : State)  : vw.at (clearFlag f s) = vw.at s := by
  simp [clearFlag, *]

@[simp] theorem softWrite_view (hx_regs : vw.free .regs) (key : Nat) (v : Word) (s : State)  : vw.at (softWrite key v s) = vw.at s := by
  unfold softWrite
  split <;> simp [*]

@[simp] theorem writeBytes_view (hx_mem : vw.free .mem) (a : Nat) (bs : List Byte) (s : State) : vw.at (writeBytes a bs s) = vw.at s := by
  induction bs generalizing a s with
  | nil => simp [*, writeBytes, *]
  | cons b bs ih => simp [*, writeBytes, *]

@[simp] theorem castHold_view (hx_clusters : vw.free .clusters) (n : Nat) (c : CoreId) (read : Bool) (w : SideWrite) (s : State)  : vw.at (castHold n c read w s) = vw.at s := by
  simp [castHold, *]

@[simp] theorem castWrite_view (hx_clusters : vw.free .clusters) (c : CoreId) (n a : Nat) (v : Word) (k : State → Outcome) (hk : ∀ s, NextP (fun t => vw.at t = vw.at s) (k s)) (s : State) : NextP (fun t => vw.at t = vw.at s) (castWrite c n a v k s) := by
  unfold castWrite
  split
  · simp [*]
  · exact hk s

@[simp] theorem castRead_view (hx_clusters : vw.free .clusters) (c : CoreId) (n a : Nat) (k : State → Outcome) (hk : ∀ s, NextP (fun t => vw.at t = vw.at s) (k s)) (s : State) : NextP (fun t => vw.at t = vw.at s) (castRead c n a k s) := by
  unfold castRead
  split
  · simp [*]
  · exact hk s

@[simp] theorem sendFar_view (hx_group : vw.free .group) (t : Nat) (d : Nat) (turn : Nat) (it : Item) (s : State)  : vw.at (sendFar t d turn it s) = vw.at s := by
  simp [sendFar, *]

@[simp] theorem drnSend_view (hx_links : vw.free .links) (p : Nat) (type : Nat) (routed : Bool) (dst : Nat) (payload : List Byte) (s : State)  : vw.at (drnSend p type routed dst payload s) = vw.at s := by
  simp [drnSend, *]

@[simp] theorem drnRoute_view (hx_links : vw.free .links) (type : Nat) (dst : Nat) (payload : List Byte) (s : State)  : vw.at (drnRoute type dst payload s) = vw.at s := by
  simp [drnRoute, *]

@[simp] theorem icLatchSet_view (hx_regs : vw.free .regs) (hx_hot : vw.free .hot) (t : Nat) (c : Nat) (k : Nat) (s : State)  : vw.at (icLatchSet t c k s) = vw.at s := by
  unfold icLatchSet
  split <;> simp [*]

@[simp] theorem occurAt_view (hx_regs : vw.free .regs) (hx_hot : vw.free .hot) (t : Nat) (c : Nat) (k : Nat) (s : State)  : vw.at (occurAt t c k s) = vw.at s := by
  simp [occurAt, *]

@[simp] theorem occur_view (hx_regs : vw.free .regs) (hx_hot : vw.free .hot) (c : Nat) (k : Nat) (s : State)  : vw.at (occur c k s) = vw.at s := by
  unfold occur
  repeat' split
  all_goals simp [*]

@[simp] theorem icSettle_view (hx_regs : vw.free .regs) (hx_clusters : vw.free .clusters) (hx_hot : vw.free .hot) (c : Nat) (s : State)  : vw.at (icSettle c s) = vw.at s := by
  simp [icSettle, *]

@[simp] theorem occurCp_view (hx_regs : vw.free .regs) (hx_hot : vw.free .hot) (k : Nat) (s : State)  : vw.at (occurCp k s) = vw.at s := by
  simp [occurCp, *]

@[simp] theorem icCommit_view (hx_regs : vw.free .regs) (hx_clusters : vw.free .clusters) (hx_cores : vw.free .cores) (hx_holds : vw.free .holds) (hx_hot : vw.free .hot) (c : CoreId) (lv : Nat) (k : Nat) (s : State)  : vw.at (icCommit c lv k s) = vw.at s := by
  simp only [icCommit]
  repeat' split
  all_goals simp [*]

@[simp] theorem wakeRecord_view (hx_regs : vw.free .regs) (e : WakeEv) (replay : Bool) (s : State)  : vw.at (wakeRecord e replay s) = vw.at s := by
  simp [wakeRecord, *]

@[simp] theorem wakeEvent_view (hx_regs : vw.free .regs) (hx_power : vw.free .power) (source : Nat) (index : Nat) (s : State)  : vw.at (wakeEvent source index s) = vw.at s := by
  unfold wakeEvent
  repeat' split
  all_goals simp [*]

@[simp] theorem wakeStart_view (hx_regs : vw.free .regs) (hx_power : vw.free .power) (n : Nat) (src : Nat) (s : State)  : vw.at (wakeStart n src s) = vw.at s := by
  simp [wakeStart, *]

@[simp] theorem wakeRequest_view (hx_regs : vw.free .regs) (hx_power : vw.free .power) (n : Nat) (src : Nat) (s : State)  : vw.at (wakeRequest n src s) = vw.at s := by
  unfold wakeRequest
  repeat' split
  all_goals simp [*]

@[simp] theorem icPop_view (hx_regs : vw.free .regs) (hx_cores : vw.free .cores) (hx_hot : vw.free .hot) (i : Nat) (s : State)  : vw.at (icPop i s) = vw.at s := by
  unfold icPop
  split <;> simp [*]

@[simp] theorem icRaise_view (hx_regs : vw.free .regs) (hx_cores : vw.free .cores) (hx_hot : vw.free .hot) (i : Nat) (v : Word) (s : State)  : vw.at (icRaise i v s) = vw.at s := by
  unfold icRaise
  split <;> simp [*]

@[simp] theorem icSet_view (hx_regs : vw.free .regs) (hx_clusters : vw.free .clusters) (hx_hot : vw.free .hot) (n : Nat) (hi : Bool) (v : Word) (s : State)  : vw.at (icSet n hi v s) = vw.at s := by
  simp [icSet, *]

@[simp] theorem icSrcWrite_view (hx_regs : vw.free .regs) (hx_clusters : vw.free .clusters) (hx_hot : vw.free .hot) (n : Nat) (k : Nat) (v : Word) (s : State)  : vw.at (icSrcWrite n k v s) = vw.at s := by
  simp only [icSrcWrite]
  repeat' split
  all_goals simp [*]

@[simp] theorem execHoldoffEnd_view (hx_time : vw.free .time) (hx_holds : vw.free .holds) (n : ClusterId) (g : Fin 8) (s : State)  : NextP (fun t => vw.at t = vw.at s) (execHoldoffEnd n g s) := by
  unfold execHoldoffEnd
  try dsimp only
  repeat' split
  all_goals first | (simp [*]; done) | (split_ifs <;> simp [*]; done) | (simp [apply_ite (View.at vw), *]; done) | (simp; split_ifs <;> simp [*]; done)

@[simp] theorem timerArm_view (hx_regs : vw.free .regs) (hx_cores : vw.free .cores) (i : Nat) (v : Word) (s : State)  : vw.at (timerArm i v s) = vw.at s := by
  simp [timerArm, *]

@[simp] theorem execCoreTimerDue_view (hx_regs : vw.free .regs) (hx_time : vw.free .time) (hx_cores : vw.free .cores) (hx_hot : vw.free .hot) (c : CoreId) (s : State)  : NextP (fun t => vw.at t = vw.at s) (execCoreTimerDue c s) := by
  unfold execCoreTimerDue
  repeat' split
  all_goals simp [*]

@[simp] theorem execThreadAlarm_view (hx_regs : vw.free .regs) (hx_time : vw.free .time) (hx_cores : vw.free .cores) (hx_hot : vw.free .hot) (n : ClusterId) (th : ThreadNo) (s : State)  : NextP (fun t => vw.at t = vw.at s) (execThreadAlarm n th s) := by
  simp only [execThreadAlarm]
  repeat' split
  all_goals simp [*]

@[simp] theorem alarmArm_view (hx_regs : vw.free .regs) (hx_cores : vw.free .cores) (hx_hot : vw.free .hot) (n : Nat) (t : Nat) (v : Word) (s : State)  : vw.at (alarmArm n t v s) = vw.at s := by
  simp only [alarmArm]
  repeat' split
  all_goals simp [*]

@[simp] theorem streamOut_view (hx_links : vw.free .links) (kind : Nat) (data : List Byte) (s : State)  : vw.at (streamOut kind data s) = vw.at s := by
  simp [streamOut, *]

@[simp] theorem loseRec_view (hx_regs : vw.free .regs) (hx_journal : vw.free .journal) (hx_hot : vw.free .hot) (st : Stamp) (s : State)  : vw.at (loseRec st s) = vw.at s := by
  unfold loseRec
  repeat' split
  all_goals simp [*]

@[simp] theorem appendRec_view (hx_regs : vw.free .regs) (hx_journal : vw.free .journal) (hx_links : vw.free .links) (hx_hot : vw.free .hot) (r : JRec) (s : State)  : vw.at (appendRec r s) = vw.at s := by
  unfold appendRec
  split <;> simp [*]

@[simp] theorem openNew_view (hx_regs : vw.free .regs) (hx_journal : vw.free .journal) (hx_links : vw.free .links) (hx_hot : vw.free .hot) (t : Nat) (s : State)  : vw.at (openNew t s) = vw.at s := by
  simp only [openNew]
  repeat' split
  all_goals simp [*]

@[simp] theorem jnlFull_view (hx_regs : vw.free .regs) (s : State)  : vw.at (jnlFull s) = vw.at s := by
  simp [jnlFull, *]

@[simp] theorem closeSeg_view (hx_regs : vw.free .regs) (hx_journal : vw.free .journal) (hx_links : vw.free .links) (hx_hot : vw.free .hot) (code : Nat) (t : Nat) (s : State)  : vw.at (closeSeg code t s) = vw.at s := by
  simp only [closeSeg]
  repeat' split
  all_goals simp [*]

@[simp] theorem timeClose_view (hx_regs : vw.free .regs) (hx_journal : vw.free .journal) (hx_links : vw.free .links) (hx_hot : vw.free .hot) (k : Nat) (s : State) : vw.at (timeClose k s) = vw.at s := by
  induction k generalizing s with
  | zero => simp [timeClose]
  | succ k ih =>
    simp only [timeClose]
    split
    · split
      · rw [ih]; simp [*]
      · rfl
    · rfl

@[simp] theorem accept_view (hx_regs : vw.free .regs) (hx_journal : vw.free .journal) (hx_links : vw.free .links) (hx_hot : vw.free .hot) (r : Nat → JRec) (s : State)  : vw.at (accept r s) = vw.at s := by
  simp only [accept]
  repeat' split
  all_goals simp [*]

@[simp] theorem jnlBy_view (hx_regs : vw.free .regs) (hx_journal : vw.free .journal) (hx_links : vw.free .links) (hx_hot : vw.free .hot) (type : Nat) (turn : Nat) (exact : List Byte) (log : List Byte) (s : State)  : vw.at (jnlBy type turn exact log s) = vw.at s := by
  simp [jnlBy, *]

@[simp] theorem jnlAt_view (hx_regs : vw.free .regs) (hx_journal : vw.free .journal) (hx_links : vw.free .links) (hx_hot : vw.free .hot) (type : Nat) (turn : Nat) (payload : List Byte) (s : State)  : vw.at (jnlAt type turn payload s) = vw.at s := by
  unfold jnlAt
  repeat' split
  all_goals simp [*]

@[simp] theorem jnl_view (hx_regs : vw.free .regs) (hx_journal : vw.free .journal) (hx_links : vw.free .links) (hx_hot : vw.free .hot) (type : Nat) (payload : List Byte) (s : State)  : vw.at (jnl type payload s) = vw.at s := by
  simp [jnl, *]

@[simp] theorem jnlFlush_view (hx_regs : vw.free .regs) (hx_journal : vw.free .journal) (hx_links : vw.free .links) (hx_hot : vw.free .hot) (s : State)  : vw.at (jnlFlush s) = vw.at s := by
  simp [jnlFlush, *]

@[simp] theorem jPacket_view (hx_regs : vw.free .regs) (hx_journal : vw.free .journal) (hx_links : vw.free .links) (hx_hot : vw.free .hot) (turn : Nat) (port : Nat) (pk : Nat) (len : Nat) (s : State)  : vw.at (jPacket turn port pk len s) = vw.at s := by
  simp [jPacket, *]

@[simp] theorem jSlotIn_view (hx_regs : vw.free .regs) (hx_journal : vw.free .journal) (hx_links : vw.free .links) (hx_hot : vw.free .hot) (slot : Slot) (s : State)  : vw.at (jSlotIn slot s) = vw.at s := by
  simp [jSlotIn, *]

@[simp] theorem jSlotOut_view (hx_regs : vw.free .regs) (hx_journal : vw.free .journal) (hx_links : vw.free .links) (hx_hot : vw.free .hot) (turn : Nat) (slot : Slot) (s : State)  : vw.at (jSlotOut turn slot s) = vw.at s := by
  simp [jSlotOut, *]

@[simp] theorem jTenant_view (hx_regs : vw.free .regs) (hx_journal : vw.free .journal) (hx_links : vw.free .links) (hx_hot : vw.free .hot) (ev : Nat) (t : Nat) (frame : Nat) (s : State)  : vw.at (jTenant ev t frame s) = vw.at s := by
  simp [jTenant, *]

@[simp] theorem jDevice_view (hx_regs : vw.free .regs) (hx_journal : vw.free .journal) (hx_links : vw.free .links) (hx_hot : vw.free .hot) (ev : Nat) (t : Nat) (d : Nat) (tag : Nat) (data : List Byte) (s : State)  : vw.at (jDevice ev t d tag data s) = vw.at s := by
  simp [jDevice, *]

@[simp] theorem jPort_view (hx_regs : vw.free .regs) (hx_journal : vw.free .journal) (hx_links : vw.free .links) (hx_hot : vw.free .hot) (ev : Nat) (p : Nat) (data : List Byte) (s : State)  : vw.at (jPort ev p data s) = vw.at s := by
  simp [jPort, *]

@[simp] theorem jSettle_view (hx_regs : vw.free .regs) (hx_journal : vw.free .journal) (hx_links : vw.free .links) (hx_hot : vw.free .hot) (p : Nat) (discarded : Bool) (data : List Byte) (s : State)  : vw.at (jSettle p discarded data s) = vw.at s := by
  simp [jSettle, *]

@[simp] theorem jLoad_view (hx_regs : vw.free .regs) (hx_journal : vw.free .journal) (hx_links : vw.free .links) (hx_hot : vw.free .hot) (ch : Nat) (ev : Nat) (data : List Byte) (s : State)  : vw.at (jLoad ch ev data s) = vw.at s := by
  simp [jLoad, *]

@[simp] theorem jTime_view (hx_regs : vw.free .regs) (hx_journal : vw.free .journal) (hx_links : vw.free .links) (hx_hot : vw.free .hot) (ev : Nat) (data : List Byte) (s : State)  : vw.at (jTime ev data s) = vw.at s := by
  simp [jTime, *]

@[simp] theorem jPers_view (hx_regs : vw.free .regs) (hx_journal : vw.free .journal) (hx_links : vw.free .links) (hx_hot : vw.free .hot) (ev : Nat) (data : List Byte) (s : State)  : vw.at (jPers ev data s) = vw.at s := by
  simp [jPers, *]

@[simp] theorem jAdmin_view (hx_regs : vw.free .regs) (hx_journal : vw.free .journal) (hx_links : vw.free .links) (hx_hot : vw.free .hot) (slot : Slot) (s : State)  : vw.at (jAdmin slot s) = vw.at s := by
  simp [jAdmin, *]

@[simp] theorem jJournal_view (hx_regs : vw.free .regs) (hx_journal : vw.free .journal) (hx_links : vw.free .links) (hx_hot : vw.free .hot) (code : Nat) (data : List Byte) (s : State)  : vw.at (jJournal code data s) = vw.at s := by
  simp [jJournal, *]

@[simp] theorem acceptAll_view (hx_regs : vw.free .regs) (hx_journal : vw.free .journal) (hx_links : vw.free .links) (hx_hot : vw.free .hot) (rs : List JRec) (s : State)  : vw.at (acceptAll rs s) = vw.at s := by
  simp [acceptAll, *]

@[simp] theorem runClose_view (hx_regs : vw.free .regs) (hx_journal : vw.free .journal) (hx_links : vw.free .links) (hx_hot : vw.free .hot) (tx : Bool) (p : Nat) (s : State)  : vw.at (runClose tx p s) = vw.at s := by
  unfold runClose
  repeat' split
  all_goals simp [*]

@[simp] theorem runByte_view (hx_regs : vw.free .regs) (hx_journal : vw.free .journal) (hx_links : vw.free .links) (hx_hot : vw.free .hot) (tx : Bool) (p : Nat) (b : RxByte) (s : State)  : vw.at (runByte tx p b s) = vw.at s := by
  simp only [runByte]
  repeat' split
  all_goals simp [*]

@[simp] theorem settleClose_view (hx_regs : vw.free .regs) (hx_journal : vw.free .journal) (hx_links : vw.free .links) (hx_hot : vw.free .hot) (tn : Nat) (dv : Nat) (s : State)  : vw.at (settleClose tn dv s) = vw.at s := by
  unfold settleClose
  repeat' split
  all_goals simp [*]

@[simp] theorem traceEnd_view (hx_regs : vw.free .regs) (hx_chans : vw.free .chans) (hx_journal : vw.free .journal) (hx_links : vw.free .links) (hx_hot : vw.free .hot) (ch : Nat) (endCode : Nat) (s : State)  : vw.at (traceEnd ch endCode s) = vw.at s := by
  unfold traceEnd
  repeat' split
  all_goals simp [*]

@[simp] theorem jFrameLen_view (hx_regs : vw.free .regs) (hx_journal : vw.free .journal) (hx_links : vw.free .links) (hx_hot : vw.free .hot) (rounds : Nat) (frame : Nat) (s : State)  : vw.at (jFrameLen rounds frame s) = vw.at s := by
  simp [jFrameLen, *]

@[simp] theorem chainNext_view (hx_journal : vw.free .journal) (c : Option Nat) (seq : Nat) (digest : List Byte) (s : State)  : vw.at (chainNext c seq digest s) = vw.at s := by
  simp [chainNext, *]

@[simp] theorem signFirst_view (hx_regs : vw.free .regs) (hx_journal : vw.free .journal) (s : State)  : vw.at (signFirst s) = vw.at s := by
  unfold signFirst
  repeat' split
  all_goals simp [*]

@[simp] theorem writeAnchor_view (hx_journal : vw.free .journal) (hx_fresh : vw.free .fresh) (s : State)  : vw.at (writeAnchor s) = vw.at s := by
  unfold writeAnchor
  split <;> simp [*]

@[simp] theorem commitFirst_view (hx_regs : vw.free .regs) (hx_journal : vw.free .journal) (hx_fresh : vw.free .fresh) (s : State)  : vw.at (commitFirst s) = vw.at s := by
  simp only [commitFirst]
  repeat' split
  all_goals simp [*]

@[simp] theorem commitAll_view (hx_regs : vw.free .regs) (hx_journal : vw.free .journal) (hx_fresh : vw.free .fresh) (s : State)  : vw.at (commitAll s) = vw.at s := by
  simp [commitAll, *]

@[simp] theorem jnlHealth_view (hx_regs : vw.free .regs) (s : State)  : vw.at (jnlHealth s) = vw.at s := by
  simp [jnlHealth, *]

@[simp] theorem markFailed_view (hx_regs : vw.free .regs) (hx_journal : vw.free .journal) (hx_links : vw.free .links) (hx_hot : vw.free .hot) (n : Nat) (s : State)  : vw.at (markFailed n s) = vw.at s := by
  simp only [markFailed]
  repeat' split
  all_goals simp [*]

@[simp] theorem faultRec_view (hx_regs : vw.free .regs) (hx_journal : vw.free .journal) (hx_links : vw.free .links) (hx_guard : vw.free .guard) (hx_hot : vw.free .hot) (mech : Nat) (outcome : Nat) (unit : Nat) (lcl : Nat) (phys : Nat) (pos : Nat) (tenant : Nat) (addr : Nat) (detail : Nat) (cast : Nat) (s : State)  : vw.at (faultRec mech outcome unit lcl phys pos tenant addr detail cast s) = vw.at s := by
  simp [faultRec, *]

@[simp] theorem eccRec_view (hx_regs : vw.free .regs) (hx_journal : vw.free .journal) (hx_links : vw.free .links) (hx_guard : vw.free .guard) (hx_hot : vw.free .hot) (hx_fresh : vw.free .fresh) (lcl : Nat) (phys : Nat) (addr : Nat) (s : State)  : vw.at (eccRec lcl phys addr s) = vw.at s := by
  simp [eccRec, *]

@[simp] theorem threadFault_view (hx_regs : vw.free .regs) (hx_journal : vw.free .journal) (hx_cores : vw.free .cores) (hx_links : vw.free .links) (hx_guard : vw.free .guard) (hx_hot : vw.free .hot) (n : Nat) (t : Nat) (cause : Nat) (bad : Word) (s : State)  : vw.at (threadFault n t cause bad s) = vw.at s := by
  unfold threadFault
  split <;> simp [*]

@[simp] theorem coreEntry_view (hx_regs : vw.free .regs) (hx_cores : vw.free .cores) (i : Nat) (cause : Nat) (detail : Nat) (bad : Word) (s : State)  : vw.at (coreEntry i cause detail bad s) = vw.at s := by
  simp [coreEntry, *]

@[simp] theorem raiseExc_view (hx_regs : vw.free .regs) (hx_journal : vw.free .journal) (hx_cores : vw.free .cores) (hx_links : vw.free .links) (hx_guard : vw.free .guard) (hx_hot : vw.free .hot) (c : CoreId) (cause : Nat) (detail : Nat) (bad : Word) (s : State)  : vw.at (raiseExc c cause detail bad s) = vw.at s := by
  unfold raiseExc
  split <;> simp [*]

@[simp] theorem busErr_view (hx_regs : vw.free .regs) (hx_journal : vw.free .journal) (hx_cores : vw.free .cores) (hx_links : vw.free .links) (hx_guard : vw.free .guard) (hx_hot : vw.free .hot) (c : CoreId) (a : Nat) (s : State)  : vw.at (busErr c a s) = vw.at s := by
  simp [busErr, *]

@[simp] theorem privErr_view (hx_regs : vw.free .regs) (hx_journal : vw.free .journal) (hx_cores : vw.free .cores) (hx_links : vw.free .links) (hx_guard : vw.free .guard) (hx_hot : vw.free .hot) (c : CoreId) (s : State)  : vw.at (privErr c s) = vw.at s := by
  simp [privErr, *]

@[simp] theorem cpOnly_view (hx_regs : vw.free .regs) (hx_journal : vw.free .journal) (hx_cores : vw.free .cores) (hx_links : vw.free .links) (hx_guard : vw.free .guard) (hx_hot : vw.free .hot) (c : CoreId) (a : Nat) (k : State → State) (s : State) (hk : ∀ y0, vw.at (k y0) = vw.at y0)  : vw.at (cpOnly c a k s) = vw.at s := by
  unfold cpOnly
  split <;> simp [*]

@[simp] theorem t0OrCp_view (hx_regs : vw.free .regs) (hx_journal : vw.free .journal) (hx_cores : vw.free .cores) (hx_links : vw.free .links) (hx_guard : vw.free .guard) (hx_hot : vw.free .hot) (n : Nat) (c : CoreId) (a : Nat) (k : State → State) (s : State) (hk : ∀ y0, vw.at (k y0) = vw.at y0)  : vw.at (t0OrCp n c a k s) = vw.at s := by
  unfold t0OrCp
  split <;> simp [*]

@[simp] theorem supOnly_view (hx_regs : vw.free .regs) (hx_journal : vw.free .journal) (hx_cores : vw.free .cores) (hx_links : vw.free .links) (hx_guard : vw.free .guard) (hx_hot : vw.free .hot) (c : CoreId) (k : State → State) (s : State) (hk : ∀ y0, vw.at (k y0) = vw.at y0)  : vw.at (supOnly c k s) = vw.at s := by
  unfold supOnly
  split <;> simp [*]

@[simp] theorem castReq_view (hx_guard : vw.free .guard) (r : CastReq) (s : State)  : vw.at (castReq r s) = vw.at s := by
  unfold castReq
  split <;> simp [*]

@[simp] theorem execIcEoi_view (hx_regs : vw.free .regs) (hx_journal : vw.free .journal) (hx_clusters : vw.free .clusters) (hx_cores : vw.free .cores) (hx_links : vw.free .links) (hx_guard : vw.free .guard) (hx_hot : vw.free .hot) (c : CoreId) (s : State)  : NextP (fun t => vw.at t = vw.at s) (execIcEoi c s) := by
  unfold execIcEoi
  (refine castWrite_view vw (by assumption) _ _ _ _ _ (fun s => ?_) _; (try dsimp only); (repeat' split); all_goals simp [*])

@[simp] theorem execIcRaise_view (hx_regs : vw.free .regs) (hx_journal : vw.free .journal) (hx_clusters : vw.free .clusters) (hx_cores : vw.free .cores) (hx_links : vw.free .links) (hx_guard : vw.free .guard) (hx_hot : vw.free .hot) (c : CoreId) (v : Word) (s : State)  : NextP (fun t => vw.at t = vw.at s) (execIcRaise c v s) := by
  unfold execIcRaise
  (refine castWrite_view vw (by assumption) _ _ _ _ _ (fun s => ?_) _; (try dsimp only); (repeat' split); all_goals simp [*])

@[simp] theorem execIcSet_view (hx_regs : vw.free .regs) (hx_journal : vw.free .journal) (hx_clusters : vw.free .clusters) (hx_cores : vw.free .cores) (hx_links : vw.free .links) (hx_guard : vw.free .guard) (hx_hot : vw.free .hot) (c : CoreId) (n : ClusterId) (hi : Bool) (v : Word) (s : State)  : NextP (fun t => vw.at t = vw.at s) (execIcSet c n hi v s) := by
  unfold execIcSet
  (refine castWrite_view vw (by assumption) _ _ _ _ _ (fun s => ?_) _; (try dsimp only); (repeat' split); all_goals simp [*])

@[simp] theorem execIcSrcWrite_view (hx_regs : vw.free .regs) (hx_journal : vw.free .journal) (hx_clusters : vw.free .clusters) (hx_cores : vw.free .cores) (hx_links : vw.free .links) (hx_guard : vw.free .guard) (hx_hot : vw.free .hot) (c : CoreId) (n : ClusterId) (k : Fin 64) (v : Word) (s : State)  : NextP (fun t => vw.at t = vw.at s) (execIcSrcWrite c n k v s) := by
  unfold execIcSrcWrite
  (refine castWrite_view vw (by assumption) _ _ _ _ _ (fun s => ?_) _; (try dsimp only); (repeat' split); all_goals simp [*])

@[simp] theorem execCoreTimerArm_view (hx_regs : vw.free .regs) (hx_journal : vw.free .journal) (hx_clusters : vw.free .clusters) (hx_cores : vw.free .cores) (hx_links : vw.free .links) (hx_guard : vw.free .guard) (hx_hot : vw.free .hot) (c : CoreId) (v : Word) (s : State)  : NextP (fun t => vw.at t = vw.at s) (execCoreTimerArm c v s) := by
  unfold execCoreTimerArm
  (refine castWrite_view vw (by assumption) _ _ _ _ _ (fun s => ?_) _; (try dsimp only); (repeat' split); all_goals simp [*])

@[simp] theorem execThrAlarmArm_view (hx_regs : vw.free .regs) (hx_journal : vw.free .journal) (hx_clusters : vw.free .clusters) (hx_cores : vw.free .cores) (hx_links : vw.free .links) (hx_guard : vw.free .guard) (hx_hot : vw.free .hot) (c : CoreId) (v : Word) (s : State)  : NextP (fun t => vw.at t = vw.at s) (execThrAlarmArm c v s) := by
  unfold execThrAlarmArm
  split <;> simp [*]

@[simp] theorem vbaseWrite_view (hx_regs : vw.free .regs) (hx_cores : vw.free .cores) (i : Nat) (v : Word) (s : State)  : vw.at (vbaseWrite i v s) = vw.at s := by
  unfold vbaseWrite
  split <;> simp [*]

@[simp] theorem execCoreVbaseWrite_view (hx_regs : vw.free .regs) (hx_journal : vw.free .journal) (hx_clusters : vw.free .clusters) (hx_cores : vw.free .cores) (hx_links : vw.free .links) (hx_guard : vw.free .guard) (hx_hot : vw.free .hot) (c : CoreId) (v : Word) (s : State)  : NextP (fun t => vw.at t = vw.at s) (execCoreVbaseWrite c v s) := by
  unfold execCoreVbaseWrite
  (refine castWrite_view vw (by assumption) _ _ _ _ _ (fun s => ?_) _; (try dsimp only); (repeat' split); all_goals simp [*])

@[simp] theorem ringPut_view (hx_regs : vw.free .regs) (p : Nat) (off : Nat) (i : Nat) (sl : Slot) (s : State)  : vw.at (ringPut p off i sl s) = vw.at s := by
  simp [ringPut, *]

@[simp] theorem issueVector_view (hx_regs : vw.free .regs) (hx_links : vw.free .links) (hx_host : vw.free .host) (p : Nat) (v : Nat) (s : State)  : vw.at (issueVector p v s) = vw.at s := by
  unfold issueVector
  repeat' split
  all_goals simp [*]

@[simp] theorem bellAgain_view (hx_tenants : vw.free .tenants) (p : Nat) (b : Nat) (s : State)  : vw.at (bellAgain p b s) = vw.at s := by
  simp [bellAgain, *]

@[simp] theorem bellSet_view (hx_regs : vw.free .regs) (hx_tenants : vw.free .tenants) (hx_hot : vw.free .hot) (p : Nat) (b : Nat) (s : State)  : vw.at (bellSet p b s).2 = vw.at s := by
  simp [bellSet, *]

@[simp] theorem ringBell_view (hx_regs : vw.free .regs) (hx_tenants : vw.free .tenants) (hx_links : vw.free .links) (hx_host : vw.free .host) (hx_hot : vw.free .hot) (p : Nat) (b : Nat) (s : State)  : vw.at (ringBell p b s) = vw.at s := by
  simp only [ringBell]
  repeat' split
  all_goals simp [*]

@[simp] theorem placeRing_view (hx_regs : vw.free .regs) (hx_tenants : vw.free .tenants) (hx_journal : vw.free .journal) (hx_links : vw.free .links) (hx_hot : vw.free .hot) (p : Nat) (rel : Nat) (sl : Slot) (s : State)  : vw.at (placeRing p rel sl s).2 = vw.at s := by
  unfold placeRing
  split <;> simp [*]

@[simp] theorem placeSlot_view (hx_regs : vw.free .regs) (hx_tenants : vw.free .tenants) (hx_journal : vw.free .journal) (hx_links : vw.free .links) (hx_hot : vw.free .hot) (p : Nat) (rel : Nat) (sl : Slot) (s : State)  : vw.at (placeSlot p rel sl s).2 = vw.at s := by
  simp only [placeSlot]
  repeat' split
  all_goals simp [*]

@[simp] theorem placeSlots_view (hx_regs : vw.free .regs) (hx_tenants : vw.free .tenants) (hx_journal : vw.free .journal) (hx_links : vw.free .links) (hx_hot : vw.free .hot) (p rel : Nat) (sls : List Slot) (s : State) : vw.at (placeSlots p rel sls s).2 = vw.at s := by
  induction sls generalizing s with
  | nil => simp [*, placeSlots, *]
  | cons b bs ih => simp [*, placeSlots, *]

@[simp] theorem placeMsgs_view (hx_regs : vw.free .regs) (hx_tenants : vw.free .tenants) (hx_journal : vw.free .journal) (hx_links : vw.free .links) (hx_host : vw.free .host) (hx_hot : vw.free .hot) (p rel n : Nat) (sls : List Slot) (s : State) : vw.at (placeMsgs p rel n sls s).2 = vw.at s := by
  induction n generalizing sls s with
  | zero => simp [*, placeMsgs, *]
  | succ n ih =>
    simp only [placeMsgs]
    split
    · simp [*]
    · simp only []
      split_ifs <;> simp [*]

@[simp] theorem placeBatch_view (hx_regs : vw.free .regs) (hx_tenants : vw.free .tenants) (hx_journal : vw.free .journal) (hx_links : vw.free .links) (hx_host : vw.free .host) (hx_hot : vw.free .hot) (p : Nat) (rel : Nat) (sls : List Slot) (s : State)  : vw.at (placeBatch p rel sls s) = vw.at s := by
  simp [placeBatch, *]

@[simp] theorem backlogStore_view (hx_mem : vw.free .mem) (hx_tenants : vw.free .tenants) (t : Nat) (k : Nat) (s : State)  : vw.at (backlogStore t k s) = vw.at s := by
  simp [backlogStore, *]

@[simp] theorem execMailboxPlace_view (hx_regs : vw.free .regs) (hx_mem : vw.free .mem) (hx_time : vw.free .time) (hx_tenants : vw.free .tenants) (hx_journal : vw.free .journal) (hx_links : vw.free .links) (hx_host : vw.free .host) (hx_hot : vw.free .hot) (t : TenantId) (s : State)  : NextP (fun t => vw.at t = vw.at s) (execMailboxPlace t s) := by
  simp [execMailboxPlace, *]

@[simp] theorem backlogRun_view (hx_regs : vw.free .regs) (hx_tenants : vw.free .tenants) (hx_journal : vw.free .journal) (hx_links : vw.free .links) (hx_hot : vw.free .hot) (p n : Nat) (s : State) : vw.at (backlogRun p n s).2 = vw.at s := by
  induction n generalizing s with
  | zero => simp [*, backlogRun, *]
  | succ n ih =>
    simp only [backlogRun]
    split
    · simp [*]
    · split_ifs <;> simp [*]

@[simp] theorem execBacklogMove_view (hx_regs : vw.free .regs) (hx_tenants : vw.free .tenants) (hx_journal : vw.free .journal) (hx_links : vw.free .links) (hx_host : vw.free .host) (hx_hot : vw.free .hot) (p : PageId) (s : State)  : NextP (fun t => vw.at t = vw.at s) (execBacklogMove p s) := by
  simp [execBacklogMove, *]

@[simp] theorem pageState_view (p : Nat) (act : State → State) (dormant : State → State) (s : State) (hact : ∀ y0, vw.at (act y0) = vw.at y0) (hdormant : ∀ y0, vw.at (dormant y0) = vw.at y0)  : vw.at (pageState p act dormant s) = vw.at s := by
  unfold pageState
  split <;> simp [*]

@[simp] theorem pageWrite_view (hx_regs : vw.free .regs) (hx_journal : vw.free .journal) (hx_cores : vw.free .cores) (hx_links : vw.free .links) (hx_guard : vw.free .guard) (hx_hot : vw.free .hot) (r : Requester) (p : Nat) (off : Nat) (act : State → State) (dormant : State → State) (s : State) (hact : ∀ y0, vw.at (act y0) = vw.at y0) (hdormant : ∀ y0, vw.at (dormant y0) = vw.at y0)  : vw.at (pageWrite r p off act dormant s) = vw.at s := by
  unfold pageWrite
  repeat' split
  all_goals simp [*]

@[simp] theorem mgmtKeep_view (hx_host : vw.free .host) (sls : List Slot) (s : State)  : vw.at (mgmtKeep sls s) = vw.at s := by
  simp [mgmtKeep, *]

@[simp] theorem fwdBack_view (hx_links : vw.free .links) (hx_group : vw.free .group) (sls : List Slot) (s : State)  : vw.at (fwdBack sls s) = vw.at s := by
  simp [fwdBack, *]

@[simp] theorem admAnswer_view (hx_regs : vw.free .regs) (hx_tenants : vw.free .tenants) (hx_journal : vw.free .journal) (hx_links : vw.free .links) (hx_group : vw.free .group) (hx_host : vw.free .host) (hx_hot : vw.free .hot) (op : Nat) (tag : Nat) (status : Nat) (state : Nat) (payload : List Byte) (s : State)  : vw.at (admAnswer op tag status state payload s) = vw.at s := by
  simp [admAnswer, *]

@[simp] theorem admTakeHead_view (hx_regs : vw.free .regs) (hx_group : vw.free .group) (hx_host : vw.free .host) (hx_hot : vw.free .hot) (s : State)  : vw.at (admTakeHead s) = vw.at s := by
  simp [admTakeHead, *]

@[simp] theorem admSkip_view (hx_regs : vw.free .regs) (hx_tenants : vw.free .tenants) (hx_journal : vw.free .journal) (hx_links : vw.free .links) (hx_group : vw.free .group) (hx_host : vw.free .host) (hx_hot : vw.free .hot) (hx_fresh : vw.free .fresh) (k : Nat) (s : State) : vw.at (admSkip k s) = vw.at s := by
  induction k generalizing s with
  | zero => simp [admSkip]
  | succ k ih =>
    simp only [admSkip]
    split
    · rfl
    · split
      · rw [ih]; simp [*]
      · rfl

@[simp] theorem admRespond_view (hx_regs : vw.free .regs) (hx_tenants : vw.free .tenants) (hx_journal : vw.free .journal) (hx_links : vw.free .links) (hx_group : vw.free .group) (hx_host : vw.free .host) (hx_hot : vw.free .hot) (hx_fresh : vw.free .fresh) (op : Nat) (tag : Nat) (status : Nat) (state : Nat) (payload : List Byte) (s : State)  : vw.at (admRespond op tag status state payload s) = vw.at s := by
  unfold admRespond
  repeat' split
  all_goals simp [*]

@[simp] theorem admDone_view (hx_regs : vw.free .regs) (hx_tenants : vw.free .tenants) (hx_journal : vw.free .journal) (hx_links : vw.free .links) (hx_group : vw.free .group) (hx_host : vw.free .host) (hx_admin : vw.free .admin) (hx_hot : vw.free .hot) (hx_fresh : vw.free .fresh) (op : Nat) (key : Nat) (status : Nat) (state : Nat) (payload : List Byte) (s : State)  : vw.at (admDone op key status state payload s) = vw.at s := by
  unfold admDone
  repeat' split
  all_goals simp [*]

@[simp] theorem commitSlot_view (hx_regs : vw.free .regs) (hx_tenants : vw.free .tenants) (hx_journal : vw.free .journal) (hx_links : vw.free .links) (hx_group : vw.free .group) (hx_host : vw.free .host) (hx_hot : vw.free .hot) (hx_fresh : vw.free .fresh) (p : Nat) (s : State)  : vw.at (commitSlot p s) = vw.at s := by
  unfold commitSlot
  split <;> simp [*]

@[simp] theorem submitCommit_view (hx_regs : vw.free .regs) (hx_tenants : vw.free .tenants) (hx_journal : vw.free .journal) (hx_cores : vw.free .cores) (hx_links : vw.free .links) (hx_group : vw.free .group) (hx_guard : vw.free .guard) (hx_host : vw.free .host) (hx_hot : vw.free .hot) (hx_fresh : vw.free .fresh) (r : Requester) (p : Nat) (bytes : List Byte) (s : State)  : vw.at (submitCommit r p bytes s) = vw.at s := by
  simp only [submitCommit]
  repeat' split
  all_goals simp [*]

@[simp] theorem execSubmitCommit_view (hx_regs : vw.free .regs) (hx_tenants : vw.free .tenants) (hx_journal : vw.free .journal) (hx_cores : vw.free .cores) (hx_links : vw.free .links) (hx_group : vw.free .group) (hx_guard : vw.free .guard) (hx_host : vw.free .host) (hx_hot : vw.free .hot) (hx_fresh : vw.free .fresh) (r : Requester) (p : PageId) (bytes : List Byte) (s : State)  : NextP (fun t => vw.at t = vw.at s) (execSubmitCommit r p bytes s) := by
  simp [execSubmitCommit, *]

@[simp] theorem outHeadWrite_view (hx_regs : vw.free .regs) (p : Nat) (v : Word) (s : State)  : vw.at (outHeadWrite p v s) = vw.at s := by
  simp only [outHeadWrite]
  repeat' split
  all_goals simp [*]

@[simp] theorem execOutHeadWrite_view (hx_regs : vw.free .regs) (hx_journal : vw.free .journal) (hx_cores : vw.free .cores) (hx_links : vw.free .links) (hx_guard : vw.free .guard) (hx_hot : vw.free .hot) (r : Requester) (p : PageId) (v : Word) (s : State)  : NextP (fun t => vw.at t = vw.at s) (execOutHeadWrite r p v s) := by
  simp [execOutHeadWrite, *]

@[simp] theorem bellInDormant_view (hx_regs : vw.free .regs) (hx_power : vw.free .power) (p : Nat) (v : Word) (s : State)  : vw.at (bellInDormant p v s) = vw.at s := by
  simp only [bellInDormant]
  repeat' split
  all_goals simp [*]

@[simp] theorem execDoorbellInWrite_view (hx_regs : vw.free .regs) (hx_journal : vw.free .journal) (hx_cores : vw.free .cores) (hx_links : vw.free .links) (hx_guard : vw.free .guard) (hx_power : vw.free .power) (hx_hot : vw.free .hot) (r : Requester) (p : PageId) (v : Word) (s : State)  : NextP (fun t => vw.at t = vw.at s) (execDoorbellInWrite r p v s) := by
  simp [execDoorbellInWrite, *]

@[simp] theorem bellOutWrite_view (hx_regs : vw.free .regs) (hx_tenants : vw.free .tenants) (hx_links : vw.free .links) (hx_host : vw.free .host) (p : Nat) (v : Word) (s : State)  : vw.at (bellOutWrite p v s) = vw.at s := by
  simp [bellOutWrite, *]

@[simp] theorem outMaskWrite_view (hx_regs : vw.free .regs) (hx_links : vw.free .links) (hx_host : vw.free .host) (p : Nat) (v : Word) (s : State)  : vw.at (outMaskWrite p v s) = vw.at s := by
  simp [outMaskWrite, *]

@[simp] theorem execOutMaskWrite_view (hx_regs : vw.free .regs) (hx_journal : vw.free .journal) (hx_cores : vw.free .cores) (hx_links : vw.free .links) (hx_guard : vw.free .guard) (hx_host : vw.free .host) (hx_hot : vw.free .hot) (r : Requester) (p : PageId) (v : Word) (s : State)  : NextP (fun t => vw.at t = vw.at s) (execOutMaskWrite r p v s) := by
  simp [execOutMaskWrite, *]

@[simp] theorem execClOutboxWrite_view (hx_regs : vw.free .regs) (hx_tenants : vw.free .tenants) (hx_journal : vw.free .journal) (hx_clusters : vw.free .clusters) (hx_cores : vw.free .cores) (hx_links : vw.free .links) (hx_guard : vw.free .guard) (hx_hot : vw.free .hot) (c : CoreId) (n : ClusterId) (v : Word) (s : State)  : NextP (fun t => vw.at t = vw.at s) (execClOutboxWrite c n v s) := by
  unfold execClOutboxWrite
  repeat' split
  all_goals simp [*]

@[simp] theorem outWriteAt_view (hx_regs : vw.free .regs) (hx_pads : vw.free .pads) (t : Nat) (p : Nat) (v : Bool) (s : State)  : vw.at (outWriteAt t p v s) = vw.at s := by
  simp [outWriteAt, *]

@[simp] theorem outWrite_view (hx_regs : vw.free .regs) (hx_pads : vw.free .pads) (p : Nat) (v : Bool) (s : State)  : vw.at (outWrite p v s) = vw.at s := by
  simp [outWrite, *]

@[simp] theorem rxQueue_view (hx_regs : vw.free .regs) (hx_pads : vw.free .pads) (hx_hot : vw.free .hot) (p : Nat) (e : QEntry) (s : State)  : vw.at (rxQueue p e s) = vw.at s := by
  unfold rxQueue
  split <;> simp [*]

@[simp] theorem deRelease_view (hx_pads : vw.free .pads) (p : Nat) (t : Nat) (s : State)  : vw.at (deRelease p t s) = vw.at s := by
  unfold deRelease
  split <;> simp [*]

@[simp] theorem countByte_view (hx_fifos : vw.free .fifos) (hx_group : vw.free .group) (i : Nat) (m : Nat) (s : State)  : vw.at (countByte i m s) = vw.at s := by
  simp only [countByte]
  repeat' split
  all_goals simp [*]

@[simp] theorem countLaunch_view (hx_ports : vw.free .ports) (hx_fifos : vw.free .fifos) (hx_group : vw.free .group) (p : Nat) (w : TxWord) (s : State)  : vw.at (countLaunch p w s) = vw.at s := by
  unfold countLaunch
  repeat' split
  all_goals simp [*]

@[simp] theorem txJournal_view (hx_regs : vw.free .regs) (hx_journal : vw.free .journal) (hx_links : vw.free .links) (hx_hot : vw.free .hot) (p : Nat) (q : Nat) (w : TxWord) (e : Nat) (s : State)  : vw.at (txJournal p q w e s) = vw.at s := by
  simp only [txJournal]
  repeat' split
  all_goals simp [*]

@[simp] theorem txLaunch_view (hx_regs : vw.free .regs) (hx_ports : vw.free .ports) (hx_pads : vw.free .pads) (hx_fifos : vw.free .fifos) (hx_journal : vw.free .journal) (hx_links : vw.free .links) (hx_group : vw.free .group) (hx_hot : vw.free .hot) (p : Nat) (e : Nat) (s : State)  : vw.at (txLaunch p e s) = vw.at s := by
  unfold txLaunch
  repeat' split
  all_goals simp [*]

@[simp] theorem sendEnd_view (hx_ports : vw.free .ports) (w : TxWord) (e : Nat) (s : State)  : vw.at (sendEnd w e s) = vw.at s := by
  simp only [sendEnd]
  repeat' split
  all_goals simp [*]

@[simp] theorem txEnd_view (hx_ports : vw.free .ports) (hx_pads : vw.free .pads) (p : Nat) (e : Nat) (w : TxWord) (s : State)  : vw.at (txEnd p e w s) = vw.at s := by
  simp [txEnd, *]

theorem txNext_view (hx_regs : vw.free .regs) (hx_ports : vw.free .ports) (hx_pads : vw.free .pads) (hx_fifos : vw.free .fifos) (hx_journal : vw.free .journal) (hx_links : vw.free .links) (hx_group : vw.free .group) (hx_hot : vw.free .hot) (p t : Nat) (s u : State) (h : txNext p t s = some u) : vw.at u = vw.at s := by
  unfold txNext at h
  dsimp only at h
  (repeat' split at h) <;> simp only [Option.some.injEq, reduceCtorEq] at h <;> subst h <;> simp [*]

@[simp] theorem txCatchGo_view (hx_regs : vw.free .regs) (hx_ports : vw.free .ports) (hx_pads : vw.free .pads) (hx_fifos : vw.free .fifos) (hx_journal : vw.free .journal) (hx_links : vw.free .links) (hx_group : vw.free .group) (hx_hot : vw.free .hot) (p t k : Nat) (s : State) : vw.at (txCatch.go p t k s) = vw.at s := by
  induction k generalizing s with
  | zero => simp [txCatch.go]
  | succ k ih =>
    simp only [txCatch.go]
    split
    · rename_i h; rw [ih]; exact txNext_view vw (by assumption) (by assumption) (by assumption) (by assumption) (by assumption) (by assumption) (by assumption) (by assumption) p t s _ h
    · rfl

@[simp] theorem txCatch_view (hx_regs : vw.free .regs) (hx_ports : vw.free .ports) (hx_pads : vw.free .pads) (hx_fifos : vw.free .fifos) (hx_journal : vw.free .journal) (hx_links : vw.free .links) (hx_group : vw.free .group) (hx_hot : vw.free .hot) (p t : Nat) (s : State) : vw.at (txCatch p t s) = vw.at s := by
  simp [txCatch, *]

@[simp] theorem saFlush_view (hx_regs : vw.free .regs) (hx_ports : vw.free .ports) (hx_pads : vw.free .pads) (hx_fifos : vw.free .fifos) (hx_journal : vw.free .journal) (hx_links : vw.free .links) (hx_group : vw.free .group) (hx_hot : vw.free .hot) (p : Nat) (s : State)  : vw.at (saFlush p s) = vw.at s := by
  simp [saFlush, *]

@[simp] theorem saEmpty_view (hx_regs : vw.free .regs) (hx_ports : vw.free .ports) (hx_pads : vw.free .pads) (hx_fifos : vw.free .fifos) (hx_journal : vw.free .journal) (hx_links : vw.free .links) (hx_group : vw.free .group) (hx_hot : vw.free .hot) (p : Nat) (s : State)  : vw.at (saEmpty p s) = vw.at s := by
  simp [saEmpty, *]

@[simp] theorem padSafe_view (hx_regs : vw.free .regs) (hx_ports : vw.free .ports) (hx_pads : vw.free .pads) (hx_fifos : vw.free .fifos) (hx_journal : vw.free .journal) (hx_links : vw.free .links) (hx_group : vw.free .group) (hx_hot : vw.free .hot) (why : Nat) (p : Nat) (s : State)  : vw.at (padSafe why p s) = vw.at s := by
  simp [padSafe, *]

@[simp] theorem padUnsafe_view (hx_pads : vw.free .pads) (why : Nat) (p : Nat) (s : State)  : vw.at (padUnsafe why p s) = vw.at s := by
  simp [padUnsafe, *]

@[simp] theorem padReset_view (hx_regs : vw.free .regs) (hx_ports : vw.free .ports) (hx_pads : vw.free .pads) (hx_fifos : vw.free .fifos) (hx_journal : vw.free .journal) (hx_links : vw.free .links) (hx_group : vw.free .group) (hx_hot : vw.free .hot) (p : Nat) (s : State)  : vw.at (padReset p s) = vw.at s := by
  simp [padReset, *]

@[simp] theorem pgHold_view (hx_regs : vw.free .regs) (hx_ports : vw.free .ports) (hx_pads : vw.free .pads) (hx_pgOn : vw.free .pgOn) (hx_fifos : vw.free .fifos) (hx_journal : vw.free .journal) (hx_links : vw.free .links) (hx_group : vw.free .group) (hx_hot : vw.free .hot) (n : Nat) (s : State)  : vw.at (pgHold n s) = vw.at s := by
  simp [pgHold, *]

@[simp] theorem padCfgWrite_view (hx_regs : vw.free .regs) (hx_pads : vw.free .pads) (p : Nat) (v : Word) (s : State)  : vw.at (padCfgWrite p v s) = vw.at s := by
  simp [padCfgWrite, *]

@[simp] theorem evIntr_view (hx_regs : vw.free .regs) (hx_clusters : vw.free .clusters) (hx_hot : vw.free .hot) (n : Nat) (t : Nat) (c : Nat) (s : State)  : vw.at (evIntr n t c s) = vw.at s := by
  unfold evIntr
  split <;> simp [*]

@[simp] theorem evOut_view (hx_regs : vw.free .regs) (hx_pads : vw.free .pads) (hx_hot : vw.free .hot) (n : Nat) (t : Nat) (c : Nat) (s : State)  : vw.at (evOut n t c s) = vw.at s := by
  simp only [evOut]
  repeat' split
  all_goals simp [*]

@[simp] theorem evWake_view (hx_regs : vw.free .regs) (hx_power : vw.free .power) (n : Nat) (c : Nat) (s : State)  : vw.at (evWake n c s) = vw.at s := by
  unfold evWake
  split <;> simp [*]

@[simp] theorem evGroups_view (hx_clusters : vw.free .clusters) (n : Nat) (t : Nat) (cs : List Nat) (s : State)  : vw.at (evGroups n t cs s) = vw.at s := by
  unfold evGroups
  try dsimp only
  repeat' split
  all_goals first | (simp [*]; done) | (split_ifs <;> simp [*]; done) | (simp [apply_ite (View.at vw), *]; done) | (simp; split_ifs <;> simp [*]; done)

@[simp] theorem grpWrite_view (hx_regs : vw.free .regs) (hx_clusters : vw.free .clusters) (n : Nat) (v : Word) (s : State)  : vw.at (grpWrite n v s) = vw.at s := by
  simp [grpWrite, *]

@[simp] theorem evFire_view (hx_regs : vw.free .regs) (hx_pads : vw.free .pads) (hx_clusters : vw.free .clusters) (hx_power : vw.free .power) (hx_hot : vw.free .hot) (k n u : Nat) (cs : List Nat) (s : State) : vw.at (evFire k n u cs s) = vw.at s := by
  induction k generalizing u cs s with
  | zero => simp [evFire]
  | succ k ih =>
    simp only [evFire]
    split
    · rfl
    · rw [ih]; simp [*]

@[simp] theorem evHold_view (hx_regs : vw.free .regs) (hx_clusters : vw.free .clusters) (hx_hot : vw.free .hot) (n : Nat) (c : Nat) (s : State)  : vw.at (evHold n c s) = vw.at s := by
  unfold evHold
  split <;> simp [*]

@[simp] theorem evStart_view (hx_regs : vw.free .regs) (hx_pads : vw.free .pads) (hx_clusters : vw.free .clusters) (hx_power : vw.free .power) (hx_hot : vw.free .hot) (n : Nat) (cs : List Nat) (s : State)  : vw.at (evStart n cs s) = vw.at s := by
  unfold evStart
  try dsimp only
  repeat' split
  all_goals first | (simp [*]; done) | (split_ifs <;> simp [*]; done) | (simp [apply_ite (View.at vw), *]; done) | (simp; split_ifs <;> simp [*]; done)

@[simp] theorem evProduce_view (hx_regs : vw.free .regs) (hx_pads : vw.free .pads) (hx_clusters : vw.free .clusters) (hx_power : vw.free .power) (hx_hot : vw.free .hot) (n : Nat) (k : Nat) (f : Nat → Bool) (s : State)  : vw.at (evProduce n k f s) = vw.at s := by
  simp [evProduce, *]

@[simp] theorem padEdgeEvent_view (hx_regs : vw.free .regs) (hx_pads : vw.free .pads) (hx_clusters : vw.free .clusters) (hx_power : vw.free .power) (hx_hot : vw.free .hot) (p : Nat) (level : Bool) (s : State)  : vw.at (padEdgeEvent p level s) = vw.at s := by
  simp [padEdgeEvent, *]

@[simp] theorem execRouterEvent_view (hx_regs : vw.free .regs) (hx_pads : vw.free .pads) (hx_clusters : vw.free .clusters) (hx_power : vw.free .power) (hx_hot : vw.free .hot) (n : ClusterId) (k : Fin 32) (s : State)  : NextP (fun t => vw.at t = vw.at s) (execRouterEvent n k s) := by
  simp [execRouterEvent, *]

@[simp] theorem evrCfgWrite_view (hx_regs : vw.free .regs) (hx_hot : vw.free .hot) (n : Nat) (k : Nat) (v : Word) (s : State)  : vw.at (evrCfgWrite n k v s) = vw.at s := by
  unfold evrCfgWrite
  repeat' split
  all_goals simp [*]

@[simp] theorem execEvrCfgWrite_view (hx_regs : vw.free .regs) (hx_journal : vw.free .journal) (hx_clusters : vw.free .clusters) (hx_cores : vw.free .cores) (hx_links : vw.free .links) (hx_guard : vw.free .guard) (hx_hot : vw.free .hot) (c : CoreId) (n : ClusterId) (k : Fin 32) (v : Word) (s : State)  : NextP (fun t => vw.at t = vw.at s) (execEvrCfgWrite c n k v s) := by
  unfold execEvrCfgWrite
  repeat' split
  all_goals simp [*]

@[simp] theorem evrOwnWrite_view (hx_regs : vw.free .regs) (n : Nat) (k : Nat) (v : Word) (s : State)  : vw.at (evrOwnWrite n k v s) = vw.at s := by
  simp only [evrOwnWrite]
  repeat' split
  all_goals simp [*]

@[simp] theorem execEvrLock_view (hx_regs : vw.free .regs) (hx_journal : vw.free .journal) (hx_clusters : vw.free .clusters) (hx_cores : vw.free .cores) (hx_links : vw.free .links) (hx_guard : vw.free .guard) (hx_hot : vw.free .hot) (c : CoreId) (n : ClusterId) (k : Fin 32) (v : Word) (s : State)  : NextP (fun t => vw.at t = vw.at s) (execEvrLock c n k v s) := by
  unfold execEvrLock
  repeat' split
  all_goals simp [*]

@[simp] theorem execEventTrigger_view (hx_regs : vw.free .regs) (hx_pads : vw.free .pads) (hx_journal : vw.free .journal) (hx_clusters : vw.free .clusters) (hx_cores : vw.free .cores) (hx_links : vw.free .links) (hx_guard : vw.free .guard) (hx_power : vw.free .power) (hx_hot : vw.free .hot) (c : CoreId) (n : ClusterId) (v : Word) (s : State)  : NextP (fun t => vw.at t = vw.at s) (execEventTrigger c n v s) := by
  simp only [execEventTrigger]
  repeat' split
  all_goals simp [*]

@[simp] theorem echoAbandon_view (hx_regs : vw.free .regs) (hx_pads : vw.free .pads) (hx_hot : vw.free .hot) (n l a : Nat) (s : State) : vw.at (echoAbandon n l a s) = vw.at s := by
  unfold echoAbandon
  refine each_view vw _ _ (fun x s => ?_) _
  repeat' split
  all_goals simp [*]

@[simp] theorem rxCheck_view (hx_regs : vw.free .regs) (hx_pads : vw.free .pads) (hx_hot : vw.free .hot) (p : Nat) (e : Nat) (s : State)  : vw.at (rxCheck p e s) = vw.at s := by
  simp [rxCheck, *]

@[simp] theorem rxComplete_view (hx_regs : vw.free .regs) (hx_pads : vw.free .pads) (hx_hot : vw.free .hot) (p : Nat) (e : Nat) (s : State)  : vw.at (rxComplete p e s) = vw.at s := by
  simp [rxComplete, *]

@[simp] theorem rxCatch_view (hx_regs : vw.free .regs) (hx_pads : vw.free .pads) (hx_hot : vw.free .hot) (p : Nat) (t : Nat) (s : State)  : vw.at (rxCatch p t s) = vw.at s := by
  unfold rxCatch
  split <;> simp [*]

@[simp] theorem rxBefore_view (hx_regs : vw.free .regs) (hx_pads : vw.free .pads) (hx_hot : vw.free .hot) (p : Nat) (e : Nat) (s : State)  : vw.at (rxBefore p e s) = vw.at s := by
  unfold rxBefore
  split <;> simp [*]

@[simp] theorem clkEdge_view (hx_regs : vw.free .regs) (hx_ports : vw.free .ports) (hx_pads : vw.free .pads) (hx_fifos : vw.free .fifos) (hx_journal : vw.free .journal) (hx_links : vw.free .links) (hx_group : vw.free .group) (hx_hot : vw.free .hot) (g : Nat) (level : Bool) (e : Nat) (s : State)  : vw.at (clkEdge g level e s) = vw.at s := by
  simp [clkEdge, *]

@[simp] theorem filteredEdge_view (hx_regs : vw.free .regs) (hx_ports : vw.free .ports) (hx_pads : vw.free .pads) (hx_fifos : vw.free .fifos) (hx_journal : vw.free .journal) (hx_clusters : vw.free .clusters) (hx_links : vw.free .links) (hx_group : vw.free .group) (hx_power : vw.free .power) (hx_hot : vw.free .hot) (p : Nat) (level : Bool) (s : State)  : vw.at (filteredEdge p level s) = vw.at s := by
  simp [filteredEdge, *]

@[simp] theorem execPadIoWrite_view (hx_regs : vw.free .regs) (hx_pads : vw.free .pads) (hx_journal : vw.free .journal) (hx_clusters : vw.free .clusters) (hx_cores : vw.free .cores) (hx_links : vw.free .links) (hx_guard : vw.free .guard) (hx_hot : vw.free .hot) (c : CoreId) (p : PadId) (v : Word) (s : State)  : NextP (fun t => vw.at t = vw.at s) (execPadIoWrite c p v s) := by
  unfold execPadIoWrite
  repeat' split
  all_goals simp [*]

@[simp] theorem execStartBitCheck_view (hx_regs : vw.free .regs) (hx_time : vw.free .time) (hx_pads : vw.free .pads) (hx_hot : vw.free .hot) (p : PadId) (level : Bool) (s : State)  : NextP (fun t => vw.at t = vw.at s) (execStartBitCheck p level s) := by
  simp only [execStartBitCheck]
  repeat' split
  all_goals simp [*]

@[simp] theorem execRxWordComplete_view (hx_regs : vw.free .regs) (hx_time : vw.free .time) (hx_pads : vw.free .pads) (hx_hot : vw.free .hot) (p : PadId) (w : Word) (s : State)  : NextP (fun t => vw.at t = vw.at s) (execRxWordComplete p w s) := by
  simp only [execRxWordComplete]
  repeat' split
  all_goals simp [*]

@[simp] theorem execSyncRxWordComplete_view (hx_regs : vw.free .regs) (hx_time : vw.free .time) (hx_pads : vw.free .pads) (hx_hot : vw.free .hot) (p : PadId) (w : Word) (span : Nat) (s : State)  : NextP (fun t => vw.at t = vw.at s) (execSyncRxWordComplete p w span s) := by
  simp only [execSyncRxWordComplete]
  repeat' split
  all_goals simp [*]

@[simp] theorem bindTx_view (hx_fifos : vw.free .fifos) (c : CoreId) (p : Nat) (v : Word) (s : State)  : vw.at (bindTx c p v s).2 = vw.at s := by
  simp only [bindTx]
  repeat' split
  all_goals simp [*]

@[simp] theorem txWrite_view (hx_regs : vw.free .regs) (hx_ports : vw.free .ports) (hx_pads : vw.free .pads) (hx_fifos : vw.free .fifos) (hx_journal : vw.free .journal) (hx_links : vw.free .links) (hx_group : vw.free .group) (hx_hot : vw.free .hot) (c : CoreId) (p : Nat) (v : Word) (s : State)  : vw.at (txWrite c p v s) = vw.at s := by
  simp only [txWrite]
  repeat' split
  all_goals simp [*]

@[simp] theorem execSaTxdataWrite_view (hx_regs : vw.free .regs) (hx_ports : vw.free .ports) (hx_pads : vw.free .pads) (hx_fifos : vw.free .fifos) (hx_journal : vw.free .journal) (hx_clusters : vw.free .clusters) (hx_cores : vw.free .cores) (hx_links : vw.free .links) (hx_group : vw.free .group) (hx_guard : vw.free .guard) (hx_hot : vw.free .hot) (c : CoreId) (p : PadId) (v : Word) (s : State)  : NextP (fun t => vw.at t = vw.at s) (execSaTxdataWrite c p v s) := by
  unfold execSaTxdataWrite
  repeat' split
  all_goals simp [*]

@[simp] theorem execTxWordLaunch_view (hx_regs : vw.free .regs) (hx_time : vw.free .time) (hx_ports : vw.free .ports) (hx_pads : vw.free .pads) (hx_fifos : vw.free .fifos) (hx_journal : vw.free .journal) (hx_links : vw.free .links) (hx_group : vw.free .group) (hx_hot : vw.free .hot) (p : PadId) (s : State)  : NextP (fun t => vw.at t = vw.at s) (execTxWordLaunch p s) := by
  simp only [execTxWordLaunch]
  repeat' split
  all_goals simp [*]

@[simp] theorem execTxWordEnd_view (hx_time : vw.free .time) (hx_ports : vw.free .ports) (hx_pads : vw.free .pads) (p : PadId) (s : State)  : NextP (fun t => vw.at t = vw.at s) (execTxWordEnd p s) := by
  simp only [execTxWordEnd]
  repeat' split
  all_goals simp [*]

@[simp] theorem execDeRelease_view (hx_time : vw.free .time) (hx_pads : vw.free .pads) (p : PadId) (s : State)  : NextP (fun t => vw.at t = vw.at s) (execDeRelease p s) := by
  unfold execDeRelease
  repeat' split
  all_goals simp [*]

@[simp] theorem rxPop_view (hx_regs : vw.free .regs) (hx_pads : vw.free .pads) (hx_hot : vw.free .hot) (c : CoreId) (p : Nat) (s : State)  : vw.at (rxPop c p s) = vw.at s := by
  simp only [rxPop]
  repeat' split
  all_goals simp [*]

@[simp] theorem execSaRxdataRead_view (hx_regs : vw.free .regs) (hx_pads : vw.free .pads) (hx_journal : vw.free .journal) (hx_clusters : vw.free .clusters) (hx_cores : vw.free .cores) (hx_links : vw.free .links) (hx_guard : vw.free .guard) (hx_hot : vw.free .hot) (c : CoreId) (p : PadId) (s : State)  : NextP (fun t => vw.at t = vw.at s) (execSaRxdataRead c p s) := by
  unfold execSaRxdataRead
  repeat' split
  all_goals simp [*]

@[simp] theorem saCtrlWrite_view (hx_regs : vw.free .regs) (hx_ports : vw.free .ports) (hx_pads : vw.free .pads) (hx_fifos : vw.free .fifos) (hx_journal : vw.free .journal) (hx_links : vw.free .links) (hx_group : vw.free .group) (hx_hot : vw.free .hot) (p : Nat) (v : Word) (s : State)  : vw.at (saCtrlWrite p v s) = vw.at s := by
  simp only [saCtrlWrite]
  repeat' split
  all_goals simp [*]

@[simp] theorem execSaCtrlWrite_view (hx_regs : vw.free .regs) (hx_ports : vw.free .ports) (hx_pads : vw.free .pads) (hx_fifos : vw.free .fifos) (hx_journal : vw.free .journal) (hx_clusters : vw.free .clusters) (hx_cores : vw.free .cores) (hx_links : vw.free .links) (hx_group : vw.free .group) (hx_guard : vw.free .guard) (hx_hot : vw.free .hot) (c : CoreId) (p : PadId) (v : Word) (s : State)  : NextP (fun t => vw.at t = vw.at s) (execSaCtrlWrite c p v s) := by
  unfold execSaCtrlWrite
  repeat' split
  all_goals simp [*]

@[simp] theorem saStatWrite_view (hx_regs : vw.free .regs) (p : Nat) (v : Word) (s : State)  : vw.at (saStatWrite p v s) = vw.at s := by
  simp only [saStatWrite]
  repeat' split
  all_goals simp [*]

@[simp] theorem execSaStatWrite_view (hx_regs : vw.free .regs) (hx_journal : vw.free .journal) (hx_clusters : vw.free .clusters) (hx_cores : vw.free .cores) (hx_links : vw.free .links) (hx_guard : vw.free .guard) (hx_hot : vw.free .hot) (c : CoreId) (p : PadId) (v : Word) (s : State)  : NextP (fun t => vw.at t = vw.at s) (execSaStatWrite c p v s) := by
  unfold execSaStatWrite
  repeat' split
  all_goals simp [*]

@[simp] theorem greedySet_view (hx_regs : vw.free .regs) (hx_clusters : vw.free .clusters) (n : Nat) (on : Bool) (s : State)  : vw.at (greedySet n on s) = vw.at s := by
  simp [greedySet, *]

@[simp] theorem barrelCtrlWrite_view (hx_regs : vw.free .regs) (hx_clusters : vw.free .clusters) (hx_hot : vw.free .hot) (n : Nat) (v : Word) (s : State) : vw.at (barrelCtrlWrite n v s) = vw.at s := by
  have hi : ∀ (p : Prop) [Decidable p] (x y : State), vw.at x = vw.at s → vw.at y = vw.at s → vw.at (if p then x else y) = vw.at s := by
    intro p _ x y hx hy; split <;> assumption
  unfold barrelCtrlWrite
  extract_lets a b c d
  have ha : vw.at a = vw.at s := hi _ _ _ rfl (by simp [*])
  have hb : vw.at b = vw.at s := hi _ _ _ (by simp [*]) ha
  have hc : vw.at c = vw.at s := hi _ _ _ (by simp [*]) hb
  have he : vw.at (if isSet c (fGreedy n) then greedySet n false (setF (fGreedy n) 0 c) else c) = vw.at s :=
    hi _ _ _ (by simp [*]) hc
  have hd : vw.at d = vw.at s := by
    refine hi _ _ _ (hi _ _ _ (hi _ _ _ hc (by simp [*])) ?_) he
    rw [flag_view vw (by assumption) (by assumption)]; exact he
  exact hi _ _ _ (by simp [*]) hd

@[simp] theorem execSlotApplyRequest_view (hx_regs : vw.free .regs) (hx_journal : vw.free .journal) (hx_clusters : vw.free .clusters) (hx_cores : vw.free .cores) (hx_links : vw.free .links) (hx_guard : vw.free .guard) (hx_hot : vw.free .hot) (c : CoreId) (n : ClusterId) (v : Word) (s : State)  : NextP (fun t => vw.at t = vw.at s) (execSlotApplyRequest c n v s) := by
  unfold execSlotApplyRequest
  (refine castWrite_view vw (by assumption) _ _ _ _ _ (fun s => ?_) _; (try dsimp only); (repeat' split); all_goals simp [*])

@[simp] theorem execGreedyOn_view (hx_regs : vw.free .regs) (hx_journal : vw.free .journal) (hx_clusters : vw.free .clusters) (hx_cores : vw.free .cores) (hx_links : vw.free .links) (hx_guard : vw.free .guard) (hx_hot : vw.free .hot) (c : CoreId) (n : ClusterId) (v : Word) (s : State)  : NextP (fun t => vw.at t = vw.at s) (execGreedyOn c n v s) := by
  unfold execGreedyOn
  (refine castWrite_view vw (by assumption) _ _ _ _ _ (fun s => ?_) _; (try dsimp only); (repeat' split); all_goals simp [*])

@[simp] theorem execGreedyOff_view (hx_regs : vw.free .regs) (hx_journal : vw.free .journal) (hx_clusters : vw.free .clusters) (hx_cores : vw.free .cores) (hx_links : vw.free .links) (hx_guard : vw.free .guard) (hx_hot : vw.free .hot) (c : CoreId) (n : ClusterId) (v : Word) (s : State)  : NextP (fun t => vw.at t = vw.at s) (execGreedyOff c n v s) := by
  unfold execGreedyOff
  (refine castWrite_view vw (by assumption) _ _ _ _ _ (fun s => ?_) _; (try dsimp only); (repeat' split); all_goals simp [*])

@[simp] theorem nextWrite_view (hx_regs : vw.free .regs) (key : Nat) (v : Word) (s : State)  : vw.at (nextWrite key v s) = vw.at s := by
  simp [nextWrite, *]

@[simp] theorem execSlotTableApply_view (hx_regs : vw.free .regs) (hx_clusters : vw.free .clusters) (hx_hot : vw.free .hot) (n : ClusterId) (s : State)  : NextP (fun t => vw.at t = vw.at s) (execSlotTableApply n s) := by
  simp only [execSlotTableApply]
  repeat' split
  all_goals simp [*]

@[simp] theorem thrStart_view (hx_regs : vw.free .regs) (hx_cores : vw.free .cores) (hx_hot : vw.free .hot) (n : Nat) (t : Nat) (s : State)  : vw.at (thrStart n t s) = vw.at s := by
  simp only [thrStart]
  repeat' split
  all_goals simp [*]

@[simp] theorem thrResume_view (hx_regs : vw.free .regs) (hx_cores : vw.free .cores) (hx_hot : vw.free .hot) (n : Nat) (t : Nat) (s : State)  : vw.at (thrResume n t s) = vw.at s := by
  simp only [thrResume]
  repeat' split
  all_goals simp [*]

@[simp] theorem longCut_view (hx_cores : vw.free .cores) (n : Nat) (t : Nat) (u : Nat) (s : State)  : vw.at (longCut n t u s) = vw.at s := by
  unfold longCut
  split <;> simp [*]

@[simp] theorem thrStop_view (hx_regs : vw.free .regs) (hx_cores : vw.free .cores) (n : Nat) (t : Nat) (s : State)  : vw.at (thrStop n t s) = vw.at s := by
  simp only [thrStop]
  repeat' split
  all_goals simp [*]

@[simp] theorem thrCtrlWrite_view (hx_regs : vw.free .regs) (hx_cores : vw.free .cores) (hx_hot : vw.free .hot) (n : Nat) (t : Nat) (v : Word) (s : State)  : vw.at (thrCtrlWrite n t v s) = vw.at s := by
  simp only [thrCtrlWrite]
  repeat' split
  all_goals simp [*]

@[simp] theorem execThreadStart_view (hx_regs : vw.free .regs) (hx_journal : vw.free .journal) (hx_clusters : vw.free .clusters) (hx_cores : vw.free .cores) (hx_links : vw.free .links) (hx_guard : vw.free .guard) (hx_hot : vw.free .hot) (c : CoreId) (n : ClusterId) (th : ThreadNo) (s : State)  : NextP (fun t => vw.at t = vw.at s) (execThreadStart c n th s) := by
  unfold execThreadStart
  split <;> simp [*]

@[simp] theorem execThreadStop_view (hx_regs : vw.free .regs) (hx_journal : vw.free .journal) (hx_clusters : vw.free .clusters) (hx_cores : vw.free .cores) (hx_links : vw.free .links) (hx_guard : vw.free .guard) (hx_hot : vw.free .hot) (c : CoreId) (n : ClusterId) (th : ThreadNo) (s : State)  : NextP (fun t => vw.at t = vw.at s) (execThreadStop c n th s) := by
  unfold execThreadStop
  split <;> simp [*]

@[simp] theorem execThreadResume_view (hx_regs : vw.free .regs) (hx_journal : vw.free .journal) (hx_clusters : vw.free .clusters) (hx_cores : vw.free .cores) (hx_links : vw.free .links) (hx_guard : vw.free .guard) (hx_hot : vw.free .hot) (c : CoreId) (n : ClusterId) (th : ThreadNo) (s : State)  : NextP (fun t => vw.at t = vw.at s) (execThreadResume c n th s) := by
  unfold execThreadResume
  split <;> simp [*]

@[simp] theorem lockFree_view (hx_locks : vw.free .locks) (k : Nat) (s : State)  : vw.at (lockFree k s) = vw.at s := by
  simp [lockFree, *]

@[simp] theorem lockRead_view (hx_cores : vw.free .cores) (hx_locks : vw.free .locks) (c : CoreId) (k : Nat) (o : Nat) (s : State)  : vw.at (lockRead c k o s) = vw.at s := by
  unfold lockRead
  repeat' split
  all_goals simp [*]

@[simp] theorem lockWrite_view (hx_regs : vw.free .regs) (hx_journal : vw.free .journal) (hx_cores : vw.free .cores) (hx_locks : vw.free .locks) (hx_links : vw.free .links) (hx_guard : vw.free .guard) (hx_hot : vw.free .hot) (c : CoreId) (a : Nat) (k : Nat) (o : Nat) (s : State)  : vw.at (lockWrite c a k o s) = vw.at s := by
  unfold lockWrite
  split <;> simp [*]

@[simp] theorem execLockAcquire_view (hx_regs : vw.free .regs) (hx_journal : vw.free .journal) (hx_clusters : vw.free .clusters) (hx_cores : vw.free .cores) (hx_locks : vw.free .locks) (hx_links : vw.free .links) (hx_guard : vw.free .guard) (hx_hot : vw.free .hot) (c : CoreId) (n : ClusterId) (l : LockId) (s : State)  : NextP (fun t => vw.at t = vw.at s) (execLockAcquire c n l s) := by
  unfold execLockAcquire
  split <;> simp [*]

@[simp] theorem execLockRelease_view (hx_regs : vw.free .regs) (hx_journal : vw.free .journal) (hx_clusters : vw.free .clusters) (hx_cores : vw.free .cores) (hx_locks : vw.free .locks) (hx_links : vw.free .links) (hx_guard : vw.free .guard) (hx_hot : vw.free .hot) (c : CoreId) (n : ClusterId) (l : LockId) (s : State)  : NextP (fun t => vw.at t = vw.at s) (execLockRelease c n l s) := by
  unfold execLockRelease
  split <;> simp [*]

@[simp] theorem lockForce_view (hx_locks : vw.free .locks) (n : Nat) (v : Word) (s : State)  : vw.at (lockForce n v s) = vw.at s := by
  unfold lockForce
  split <;> simp [*]

@[simp] theorem execLockForce_view (hx_regs : vw.free .regs) (hx_journal : vw.free .journal) (hx_clusters : vw.free .clusters) (hx_cores : vw.free .cores) (hx_locks : vw.free .locks) (hx_links : vw.free .links) (hx_guard : vw.free .guard) (hx_hot : vw.free .hot) (c : CoreId) (n : ClusterId) (v : Word) (s : State)  : NextP (fun t => vw.at t = vw.at s) (execLockForce c n v s) := by
  unfold execLockForce
  (refine castWrite_view vw (by assumption) _ _ _ _ _ (fun s => ?_) _; (try dsimp only); (repeat' split); all_goals simp [*])

@[simp] theorem execChipLockAcquire_view (hx_cores : vw.free .cores) (hx_locks : vw.free .locks) (c : CoreId) (l : Fin 256) (s : State)  : NextP (fun t => vw.at t = vw.at s) (execChipLockAcquire c l s) := by
  simp [execChipLockAcquire, *]

@[simp] theorem execChipLockRelease_view (hx_regs : vw.free .regs) (hx_journal : vw.free .journal) (hx_cores : vw.free .cores) (hx_locks : vw.free .locks) (hx_links : vw.free .links) (hx_guard : vw.free .guard) (hx_hot : vw.free .hot) (c : CoreId) (l : Fin 256) (s : State)  : NextP (fun t => vw.at t = vw.at s) (execChipLockRelease c l s) := by
  simp [execChipLockRelease, *]

@[simp] theorem chipForce_view (hx_locks : vw.free .locks) (v : Word) (s : State)  : vw.at (chipForce v s) = vw.at s := by
  unfold chipForce
  split <;> simp [*]

@[simp] theorem execChipLockForce_view (hx_regs : vw.free .regs) (hx_journal : vw.free .journal) (hx_cores : vw.free .cores) (hx_locks : vw.free .locks) (hx_links : vw.free .links) (hx_guard : vw.free .guard) (hx_hot : vw.free .hot) (c : CoreId) (v : Word) (s : State)  : NextP (fun t => vw.at t = vw.at s) (execChipLockForce c v s) := by
  simp [execChipLockForce, *]

@[simp] theorem freeChipLocks_view (hx_regs : vw.free .regs) (hx_journal : vw.free .journal) (hx_locks : vw.free .locks) (hx_links : vw.free .links) (hx_guard : vw.free .guard) (hx_hot : vw.free .hot) (n : Nat) (s : State)  : vw.at (freeChipLocks n s) = vw.at s := by
  simp [freeChipLocks, *]

@[simp] theorem ctxSet_view (hx_regs : vw.free .regs) (hx_cores : vw.free .cores) (i : Nat) (w : Nat) (v : Word) (s : State)  : vw.at (ctxSet i w v s) = vw.at s := by
  unfold ctxSet
  repeat' split
  all_goals simp [*]

@[simp] theorem thrCtxWrite_view (hx_regs : vw.free .regs) (hx_cores : vw.free .cores) (n : Nat) (t : Nat) (w : Nat) (v : Word) (s : State)  : vw.at (thrCtxWrite n t w v s) = vw.at s := by
  unfold thrCtxWrite
  split <;> simp [*]

@[simp] theorem execThrCtxWrite_view (hx_regs : vw.free .regs) (hx_journal : vw.free .journal) (hx_clusters : vw.free .clusters) (hx_cores : vw.free .cores) (hx_links : vw.free .links) (hx_guard : vw.free .guard) (hx_hot : vw.free .hot) (c : CoreId) (n : ClusterId) (th : ThreadNo) (w : Fin 32) (v : Word) (s : State)  : NextP (fun t => vw.at t = vw.at s) (execThrCtxWrite c n th w v s) := by
  unfold execThrCtxWrite
  split <;> simp [*]

@[simp] theorem sendItem_view (hx_tenants : vw.free .tenants) (hx_group : vw.free .group) (t : Nat) (d : Nat) (turn : Nat) (key : Nat) (remote : Bool) (it : Item) (s : State)  : vw.at (sendItem t d turn key remote it s) = vw.at s := by
  simp [sendItem, *]

@[simp] theorem sendPort_view (hx_tenants : vw.free .tenants) (hx_group : vw.free .group) (p : Nat) (turn : Nat) (it : Item) (s : State)  : vw.at (sendPort p turn it s) = vw.at s := by
  unfold sendPort
  split <;> simp [*]

@[simp] theorem fifoStat_view (hx_regs : vw.free .regs) (n : Nat) (t : Nat) (s : State)  : vw.at (fifoStat n t s) = vw.at s := by
  simp [fifoStat, *]

@[simp] theorem putNotice_view (hx_regs : vw.free .regs) (hx_mem : vw.free .mem) (hx_fifos : vw.free .fifos) (hx_hot : vw.free .hot) (n : Nat) (t : Nat) (x : Notice) (s : State)  : vw.at (putNotice n t x s).2 = vw.at s := by
  unfold putNotice
  split <;> simp [*]

@[simp] theorem pushByte_view (hx_regs : vw.free .regs) (hx_mem : vw.free .mem) (hx_fifos : vw.free .fifos) (hx_journal : vw.free .journal) (hx_links : vw.free .links) (hx_hot : vw.free .hot) (n : Nat) (t : Nat) (j : Nat) (p : Nat) (b : RxByte) (ends : Nat) (gapEnd : Bool) (jr : Bool) (s : State)  : vw.at (pushByte n t j p b ends gapEnd jr s) = vw.at s := by
  simp only [pushByte]
  repeat' split
  all_goals simp [*]

@[simp] theorem jHeld_view (hx_regs : vw.free .regs) (hx_journal : vw.free .journal) (hx_links : vw.free .links) (hx_hot : vw.free .hot) (p : Nat) (bs : List RxByte) (s : State)  : vw.at (jHeld p bs s) = vw.at s := by
  simp [jHeld, *]

@[simp] theorem freeNoticeAt_view (hx_regs : vw.free .regs) (hx_fifos : vw.free .fifos) (n : Nat) (t : Nat) (k : Nat) (s : State)  : vw.at (freeNoticeAt n t k s) = vw.at s := by
  simp [freeNoticeAt, *]

@[simp] theorem takeOpen_view (hx_fifos : vw.free .fifos) (n : Nat) (t : Nat) (j : Nat) (s : State)  : vw.at (takeOpen n t j s) = vw.at s := by
  simp [takeOpen, *]

@[simp] theorem jUndelivered_view (hx_regs : vw.free .regs) (hx_journal : vw.free .journal) (hx_links : vw.free .links) (hx_hot : vw.free .hot) (p : Nat) (k : Packet) (mark : Nat) (s : State)  : vw.at (jUndelivered p k mark s) = vw.at s := by
  unfold jUndelivered
  split <;> simp [*]

@[simp] theorem itemUnheard_view (hx_regs : vw.free .regs) (hx_journal : vw.free .journal) (hx_links : vw.free .links) (hx_hot : vw.free .hot) (mark : Nat) (h : HItem) (s : State)  : vw.at (itemUnheard mark h s) = vw.at s := by
  unfold itemUnheard
  split <;> simp [*]

@[simp] theorem routePacket_view (hx_regs : vw.free .regs) (hx_tenants : vw.free .tenants) (hx_ports : vw.free .ports) (hx_journal : vw.free .journal) (hx_links : vw.free .links) (hx_group : vw.free .group) (hx_hot : vw.free .hot) (p : Nat) (k : Packet) (s : State)  : vw.at (routePacket p k s) = vw.at s := by
  simp only [routePacket]
  repeat' split
  all_goals simp [*]

@[simp] theorem pktEnd_view (hx_regs : vw.free .regs) (hx_mem : vw.free .mem) (hx_fifos : vw.free .fifos) (hx_journal : vw.free .journal) (hx_links : vw.free .links) (hx_hot : vw.free .hot) (n : Nat) (t : Nat) (j : Nat) (p : Nat) (turn : Nat) (pk : Nat) (s : State)  : vw.at (pktEnd n t j p turn pk s).2 = vw.at s := by
  simp only [pktEnd]
  repeat' split
  all_goals simp [*]

@[simp] theorem freeCopied_view (hx_regs : vw.free .regs) (hx_fifos : vw.free .fifos) (h : HItem) (s : State)  : vw.at (freeCopied h s) = vw.at s := by
  simp only [freeCopied]
  repeat' split
  all_goals simp [*]

@[simp] theorem txPut_view (hx_mem : vw.free .mem) (hx_fifos : vw.free .fifos) (n : Nat) (t : Nat) (j : Nat) (b : TxByte) (s : State)  : vw.at (txPut n t j b s) = vw.at s := by
  simp only [txPut]
  repeat' split
  all_goals simp [*]

@[simp] theorem enterFifo_view (hx_mem : vw.free .mem) (hx_fifos : vw.free .fifos) (o : OutMsg) (s : State)  : vw.at (enterFifo o s) = vw.at s := by
  simp [enterFifo, *]

@[simp] theorem flushPort_view (hx_regs : vw.free .regs) (hx_ports : vw.free .ports) (hx_pads : vw.free .pads) (hx_fifos : vw.free .fifos) (hx_journal : vw.free .journal) (hx_links : vw.free .links) (hx_group : vw.free .group) (hx_hot : vw.free .hot) (p : Nat) (s : State)  : vw.at (flushPort p s) = vw.at s := by
  simp [flushPort, *]

@[simp] theorem dropOneshots_view (hx_tenants : vw.free .tenants) (hx_fifos : vw.free .fifos) (hx_group : vw.free .group) (p turn : Nat) (s : State) : vw.at (dropOneshots p turn s) = vw.at s := by
  unfold dropOneshots
  refine each_view vw _ _ (fun x s => ?_) _
  dsimp only
  split <;> simp [*]

@[simp] theorem rxfFree_view (hx_regs : vw.free .regs) (hx_fifos : vw.free .fifos) (n : Nat) (v : Word) (s : State)  : vw.at (rxfFree n v s) = vw.at s := by
  simp only [rxfFree]
  repeat' split
  all_goals simp [*]

@[simp] theorem execRxfFree_view (hx_regs : vw.free .regs) (hx_fifos : vw.free .fifos) (hx_journal : vw.free .journal) (hx_clusters : vw.free .clusters) (hx_cores : vw.free .cores) (hx_links : vw.free .links) (hx_guard : vw.free .guard) (hx_hot : vw.free .hot) (c : CoreId) (v : Word) (s : State)  : NextP (fun t => vw.at t = vw.at s) (execRxfFree c v s) := by
  unfold execRxfFree
  repeat' split
  all_goals simp [*]

@[simp] theorem stageMsg_view (hx_tenants : vw.free .tenants) (o : OutMsg) (s : State)  : vw.at (stageMsg o s).2 = vw.at s := by
  unfold stageMsg
  split <;> simp [*]

@[simp] theorem stageOut_view (hx_tenants : vw.free .tenants) (t : Nat) (d : Nat) (p : Nat) (tag : Option Nat) (fin : Bool) (bytes : List (BitVec 9)) (s : State)  : vw.at (stageOut t d p tag fin bytes s).2 = vw.at s := by
  unfold stageOut
  repeat' split
  all_goals simp [*]

@[simp] theorem stageRaw_view (hx_regs : vw.free .regs) (hx_tenants : vw.free .tenants) (hx_journal : vw.free .journal) (hx_links : vw.free .links) (hx_group : vw.free .group) (hx_hot : vw.free .hot) (p : Nat) (tag : Option Nat) (fin : Bool) (bytes : List (BitVec 9)) (s : State)  : vw.at (stageRaw p tag fin bytes s) = vw.at s := by
  unfold stageRaw
  repeat' split
  all_goals simp [*]

@[simp] theorem txfStage_view (hx_regs : vw.free .regs) (hx_tenants : vw.free .tenants) (hx_fifos : vw.free .fifos) (hx_journal : vw.free .journal) (hx_links : vw.free .links) (hx_group : vw.free .group) (hx_hot : vw.free .hot) (n : Nat) (v : Word) (s : State)  : vw.at (txfStage n v s) = vw.at s := by
  simp only [txfStage]
  repeat' split
  all_goals simp [*]

@[simp] theorem cutPart_view (hx_regs : vw.free .regs) (hx_tenants : vw.free .tenants) (hx_fifos : vw.free .fifos) (hx_journal : vw.free .journal) (hx_links : vw.free .links) (hx_group : vw.free .group) (hx_hot : vw.free .hot) (p : Nat) (s : State)  : vw.at (cutPart p s) = vw.at s := by
  simp only [cutPart]
  repeat' split
  all_goals simp [*]

@[simp] theorem execTxfStage_view (hx_regs : vw.free .regs) (hx_tenants : vw.free .tenants) (hx_fifos : vw.free .fifos) (hx_journal : vw.free .journal) (hx_clusters : vw.free .clusters) (hx_cores : vw.free .cores) (hx_links : vw.free .links) (hx_group : vw.free .group) (hx_guard : vw.free .guard) (hx_hot : vw.free .hot) (c : CoreId) (v : Word) (s : State)  : NextP (fun t => vw.at t = vw.at s) (execTxfStage c v s) := by
  unfold execTxfStage
  repeat' split
  all_goals simp [*]

@[simp] theorem txfPop_view (hx_fifos : vw.free .fifos) (n : Nat) (t : Nat) (j : Nat) (s : State)  : vw.at (txfPop n t j s) = vw.at s := by
  unfold txfPop
  split <;> simp [*]

@[simp] theorem execTxfPop_view (hx_regs : vw.free .regs) (hx_fifos : vw.free .fifos) (hx_journal : vw.free .journal) (hx_clusters : vw.free .clusters) (hx_cores : vw.free .cores) (hx_links : vw.free .links) (hx_guard : vw.free .guard) (hx_hot : vw.free .hot) (c : CoreId) (j : Fin 8) (s : State)  : NextP (fun t => vw.at t = vw.at s) (execTxfPop c j s) := by
  unfold execTxfPop
  split <;> simp [*]

@[simp] theorem txfNote_view (hx_fifos : vw.free .fifos) (n : Nat) (t : Nat) (v : Word) (s : State)  : vw.at (txfNote n t v s) = vw.at s := by
  simp [txfNote, *]

@[simp] theorem execTxfNote_view (hx_regs : vw.free .regs) (hx_fifos : vw.free .fifos) (hx_journal : vw.free .journal) (hx_clusters : vw.free .clusters) (hx_cores : vw.free .cores) (hx_links : vw.free .links) (hx_guard : vw.free .guard) (hx_hot : vw.free .hot) (c : CoreId) (v : Word) (s : State)  : NextP (fun t => vw.at t = vw.at s) (execTxfNote c v s) := by
  unfold execTxfNote
  split <;> simp [*]

@[simp] theorem pslotGap_view (hx_regs : vw.free .regs) (p : Nat) (s : State)  : vw.at (pslotGap p s) = vw.at s := by
  simp [pslotGap, *]

@[simp] theorem pslotSet_view (hx_regs : vw.free .regs) (p : Nat) (s : State)  : vw.at (pslotSet p s) = vw.at s := by
  simp [pslotSet, *]

@[simp] theorem portState_view (hx_regs : vw.free .regs) (hx_ports : vw.free .ports) (hx_journal : vw.free .journal) (hx_links : vw.free .links) (hx_hot : vw.free .hot) (p : Nat) (st : Nat) (s : State)  : vw.at (portState p st s) = vw.at s := by
  simp [portState, *]

@[simp] theorem portEvent_view (hx_regs : vw.free .regs) (hx_mem : vw.free .mem) (hx_tenants : vw.free .tenants) (hx_fifos : vw.free .fifos) (hx_group : vw.free .group) (hx_hot : vw.free .hot) (p : Nat) (code : Nat) (arg : Nat) (turn : Nat) (s : State)  : vw.at (portEvent p code arg turn s) = vw.at s := by
  simp only [portEvent]
  repeat' split
  all_goals simp [*]

@[simp] theorem settleDiscard_view (hx_regs : vw.free .regs) (hx_mem : vw.free .mem) (hx_journal : vw.free .journal) (hx_links : vw.free .links) (hx_hot : vw.free .hot) (p : Nat) (s : State)  : vw.at (settleDiscard p s) = vw.at s := by
  simp only [settleDiscard]
  repeat' split
  all_goals simp [*]

@[simp] theorem openWindow_view (hx_ports : vw.free .ports) (p : Nat) (e : Nat) (img : List Byte) (s : State)  : vw.at (openWindow p e img s) = vw.at s := by
  simp [openWindow, *]

@[simp] theorem attachOpen_view (hx_ports : vw.free .ports) (p : Nat) (delay : Nat) (s : State)  : vw.at (attachOpen p delay s) = vw.at s := by
  unfold attachOpen
  repeat' split
  all_goals simp [*]

@[simp] theorem attachAgain_view (hx_ports : vw.free .ports) (p : Nat) (s : State)  : vw.at (attachAgain p s) = vw.at s := by
  unfold attachAgain
  repeat' split
  all_goals simp [*]

@[simp] theorem lossOpen_view (hx_ports : vw.free .ports) (p : Nat) (s : State)  : vw.at (lossOpen p s) = vw.at s := by
  unfold lossOpen
  repeat' split
  all_goals simp [*]

@[simp] theorem truncateOpen_view (hx_regs : vw.free .regs) (hx_mem : vw.free .mem) (hx_tenants : vw.free .tenants) (hx_ports : vw.free .ports) (hx_fifos : vw.free .fifos) (hx_journal : vw.free .journal) (hx_links : vw.free .links) (hx_group : vw.free .group) (hx_hot : vw.free .hot) (p : Nat) (turn : Nat) (s : State)  : vw.at (truncateOpen p turn s) = vw.at s := by
  simp only [truncateOpen]
  repeat' split
  all_goals simp [*]

@[simp] theorem portQuiet_view (hx_ports : vw.free .ports) (p : Nat) (s : State)  : vw.at (portQuiet p s) = vw.at s := by
  simp [portQuiet, *]

@[simp] theorem clearPending_view (hx_pads : vw.free .pads) (p : Nat) (t : Option Nat) (s : State)  : vw.at (clearPending p t s) = vw.at s := by
  simp [clearPending, *]

@[simp] theorem lossEffects_view (hx_regs : vw.free .regs) (hx_mem : vw.free .mem) (hx_tenants : vw.free .tenants) (hx_ports : vw.free .ports) (hx_pads : vw.free .pads) (hx_fifos : vw.free .fifos) (hx_journal : vw.free .journal) (hx_links : vw.free .links) (hx_group : vw.free .group) (hx_hot : vw.free .hot) (p : Nat) (turn : Nat) (s : State)  : vw.at (lossEffects p turn s) = vw.at s := by
  simp [lossEffects, *]

@[simp] theorem overtake_view (hx_tenants : vw.free .tenants) (p : Nat) (s : State)  : vw.at (overtake p s) = vw.at s := by
  unfold overtake
  split <;> simp [*]

@[simp] theorem lossRecorded_view (hx_regs : vw.free .regs) (hx_mem : vw.free .mem) (hx_tenants : vw.free .tenants) (hx_ports : vw.free .ports) (hx_pads : vw.free .pads) (hx_fifos : vw.free .fifos) (hx_journal : vw.free .journal) (hx_links : vw.free .links) (hx_group : vw.free .group) (hx_hot : vw.free .hot) (p : Nat) (s : State)  : vw.at (lossRecorded p s) = vw.at s := by
  simp only [lossRecorded]
  repeat' split
  all_goals simp [*]

@[simp] theorem updProbe_view (hx_ports : vw.free .ports) (p : Nat) (f : Probing → Probing) (s : State)  : vw.at (updProbe p f s) = vw.at s := by
  simp [updProbe, *]

theorem sendReq_view (hx_ports : vw.free .ports) (p : Nat) (probe : Nat) (v0 : Nat) (img : List Byte) (s : State)  : ∀ t, (sendReq p probe v0 img s) = some t → vw.at t = vw.at s := by
  intro t h
  unfold sendReq at h
  (repeat' split at h) <;> simp_all <;> (try subst h) <;> simp_all

@[simp] theorem settleNow_view (hx_regs : vw.free .regs) (hx_mem : vw.free .mem) (hx_tenants : vw.free .tenants) (hx_ports : vw.free .ports) (hx_fifos : vw.free .fifos) (hx_journal : vw.free .journal) (hx_links : vw.free .links) (hx_group : vw.free .group) (hx_hot : vw.free .hot) (p : Nat) (img : List Byte) (s : State)  : vw.at (settleNow p img s) = vw.at s := by
  simp [settleNow, *]

@[simp] theorem attachRecorded_view (hx_regs : vw.free .regs) (hx_mem : vw.free .mem) (hx_tenants : vw.free .tenants) (hx_ports : vw.free .ports) (hx_fifos : vw.free .fifos) (hx_journal : vw.free .journal) (hx_links : vw.free .links) (hx_group : vw.free .group) (hx_hot : vw.free .hot) (p : Nat) (img : List Byte) (s : State)  : vw.at (attachRecorded p img s).2 = vw.at s := by
  simp only [attachRecorded]
  repeat' split
  all_goals simp [*]

@[simp] theorem verified_view (hx_regs : vw.free .regs) (hx_mem : vw.free .mem) (hx_tenants : vw.free .tenants) (hx_ports : vw.free .ports) (hx_fifos : vw.free .fifos) (hx_group : vw.free .group) (hx_hot : vw.free .hot) (p : Nat) (s : State)  : vw.at (verified p s) = vw.at s := by
  simp [verified, *]

@[simp] theorem probeRun_view (hx_regs : vw.free .regs) (hx_mem : vw.free .mem) (hx_tenants : vw.free .tenants) (hx_ports : vw.free .ports) (hx_fifos : vw.free .fifos) (hx_journal : vw.free .journal) (hx_links : vw.free .links) (hx_group : vw.free .group) (hx_hot : vw.free .hot) (k p : Nat) (img : List Byte) (st : PStep) (s : State) : vw.at (probeRun k p img st s) = vw.at s := by
  induction k generalizing st s with
  | zero => simp [*, probeRun]
  | succ k ih =>
    unfold probeRun
    dsimp only
    repeat' split
    all_goals first
      | (simp [ih, hx_regs, hx_mem, hx_tenants, hx_ports, hx_fifos, hx_journal, hx_links, hx_group, hx_hot]; done)
      | (rename_i h; simp [ih, hx_regs, hx_mem, hx_tenants, hx_ports, hx_fifos, hx_journal, hx_links, hx_group, hx_hot, sendReq_view vw (by assumption) _ _ _ _ _ _ h]; done)

@[simp] theorem deliverPacket_view (hx_regs : vw.free .regs) (hx_mem : vw.free .mem) (hx_tenants : vw.free .tenants) (hx_ports : vw.free .ports) (hx_fifos : vw.free .fifos) (hx_journal : vw.free .journal) (hx_links : vw.free .links) (hx_group : vw.free .group) (hx_hot : vw.free .hot) (p : Nat) (k : Packet) (s : State)  : vw.at (deliverPacket p k s) = vw.at s := by
  unfold deliverPacket
  repeat' split
  all_goals simp [*]

@[simp] theorem atDue_view (hx_time : vw.free .time) (e : Option Nat) (k : State → State) (s : State) (hk : ∀ y0, vw.at (k y0) = vw.at y0)  : NextP (fun t => vw.at t = vw.at s) (atDue e k s) := by
  unfold atDue
  repeat' split
  all_goals simp [*]

@[simp] theorem execAttachWindowEnd_view (hx_regs : vw.free .regs) (hx_mem : vw.free .mem) (hx_time : vw.free .time) (hx_tenants : vw.free .tenants) (hx_ports : vw.free .ports) (hx_fifos : vw.free .fifos) (hx_journal : vw.free .journal) (hx_links : vw.free .links) (hx_group : vw.free .group) (hx_hot : vw.free .hot) (p : PortId) (s : State) : NextP (fun t => vw.at t = vw.at s) (execAttachWindowEnd p s) := by
  unfold execAttachWindowEnd
  dsimp only
  repeat' split
  all_goals first
    | (simp [*]; done)
    | (refine atDue_view vw (by assumption) _ _ _ (fun s => ?_)
       try dsimp only
       repeat' split
       all_goals simp [*])

@[simp] theorem execAttachTry_view (hx_regs : vw.free .regs) (hx_mem : vw.free .mem) (hx_time : vw.free .time) (hx_tenants : vw.free .tenants) (hx_ports : vw.free .ports) (hx_fifos : vw.free .fifos) (hx_journal : vw.free .journal) (hx_links : vw.free .links) (hx_group : vw.free .group) (hx_hot : vw.free .hot) (p : PortId) (s : State) : NextP (fun t => vw.at t = vw.at s) (execAttachTry p s) := by
  unfold execAttachTry
  dsimp only
  repeat' split
  all_goals first
    | (simp [*]; done)
    | (refine atDue_view vw (by assumption) _ _ _ (fun s => ?_)
       try dsimp only
       repeat' split
       all_goals simp [*])

@[simp] theorem execProbeWindowEnd_view (hx_regs : vw.free .regs) (hx_mem : vw.free .mem) (hx_time : vw.free .time) (hx_tenants : vw.free .tenants) (hx_ports : vw.free .ports) (hx_fifos : vw.free .fifos) (hx_journal : vw.free .journal) (hx_links : vw.free .links) (hx_group : vw.free .group) (hx_hot : vw.free .hot) (p : PortId) (s : State) : NextP (fun t => vw.at t = vw.at s) (execProbeWindowEnd p s) := by
  unfold execProbeWindowEnd
  split
  · split
    · refine atDue_view vw (by assumption) _ _ _ (fun s => ?_)
      dsimp only
      split
      · simp [*]
      · split
        · rename_i h; simp [*, sendReq_view vw (by assumption) _ _ _ _ _ _ h]
        · simp [*]
    · simp [*]
  · simp [*]

@[simp] theorem execSwitchGuardEnd_view (hx_regs : vw.free .regs) (hx_mem : vw.free .mem) (hx_time : vw.free .time) (hx_tenants : vw.free .tenants) (hx_ports : vw.free .ports) (hx_fifos : vw.free .fifos) (hx_journal : vw.free .journal) (hx_links : vw.free .links) (hx_group : vw.free .group) (hx_hot : vw.free .hot) (p : PortId) (s : State)  : NextP (fun t => vw.at t = vw.at s) (execSwitchGuardEnd p s) := by
  unfold execSwitchGuardEnd
  repeat' split
  all_goals simp [*]

@[simp] theorem execPollDue_view (hx_regs : vw.free .regs) (hx_time : vw.free .time) (hx_ports : vw.free .ports) (hx_journal : vw.free .journal) (hx_links : vw.free .links) (hx_hot : vw.free .hot) (p : PortId) (s : State)  : NextP (fun t => vw.at t = vw.at s) (execPollDue p s) := by
  simp only [execPollDue]
  repeat' split
  all_goals simp [*]

@[simp] theorem execReplyWindowEnd_view (hx_regs : vw.free .regs) (hx_mem : vw.free .mem) (hx_time : vw.free .time) (hx_tenants : vw.free .tenants) (hx_ports : vw.free .ports) (hx_pads : vw.free .pads) (hx_fifos : vw.free .fifos) (hx_journal : vw.free .journal) (hx_links : vw.free .links) (hx_group : vw.free .group) (hx_hot : vw.free .hot) (p : PortId) (s : State)  : NextP (fun t => vw.at t = vw.at s) (execReplyWindowEnd p s) := by
  unfold execReplyWindowEnd
  try dsimp only
  repeat' split
  all_goals first | (simp [*]; done) | (split_ifs <;> simp [*]; done) | (simp [apply_ite (View.at vw), *]; done) | (simp; split_ifs <;> simp [*]; done)

@[simp] theorem execLossPadWindowEnd_view (hx_regs : vw.free .regs) (hx_mem : vw.free .mem) (hx_time : vw.free .time) (hx_tenants : vw.free .tenants) (hx_ports : vw.free .ports) (hx_pads : vw.free .pads) (hx_fifos : vw.free .fifos) (hx_journal : vw.free .journal) (hx_links : vw.free .links) (hx_group : vw.free .group) (hx_hot : vw.free .hot) (p : PortId) (s : State)  : NextP (fun t => vw.at t = vw.at s) (execLossPadWindowEnd p s) := by
  simp [execLossPadWindowEnd, *]

@[simp] theorem gapComplete_view (hx_regs : vw.free .regs) (hx_mem : vw.free .mem) (hx_tenants : vw.free .tenants) (hx_ports : vw.free .ports) (hx_fifos : vw.free .fifos) (hx_journal : vw.free .journal) (hx_links : vw.free .links) (hx_group : vw.free .group) (hx_hot : vw.free .hot) (n : Nat) (t : Nat) (j : Nat) (p : Nat) (turn : Nat) (o : OpenPkt) (s : State)  : vw.at (gapComplete n t j p turn o s) = vw.at s := by
  simp only [gapComplete]
  repeat' split
  all_goals simp [*]

@[simp] theorem execGapWindowEnd_view (hx_regs : vw.free .regs) (hx_mem : vw.free .mem) (hx_time : vw.free .time) (hx_tenants : vw.free .tenants) (hx_ports : vw.free .ports) (hx_pads : vw.free .pads) (hx_fifos : vw.free .fifos) (hx_journal : vw.free .journal) (hx_links : vw.free .links) (hx_group : vw.free .group) (hx_hot : vw.free .hot) (p : PortId) (s : State) : NextP (fun t => vw.at t = vw.at s) (execGapWindowEnd p s) := by
  unfold execGapWindowEnd
  dsimp only
  split
  · rfl
  · have h : ∀ xs : List Nat, vw.at (each xs (fun i => rxCatch (64 * (port s p.val).group + i) (now s)) s) = vw.at s :=
      fun xs => each_view vw _ _ (fun i s => by simp [*]) _
    split
    · exact h _
    · rw [← h (port s p.val).pads]
      exact atDue_view vw (by assumption) _ _ _ (fun s => by simp [*])

@[simp] theorem endOpen_view (hx_regs : vw.free .regs) (hx_mem : vw.free .mem) (hx_tenants : vw.free .tenants) (hx_ports : vw.free .ports) (hx_fifos : vw.free .fifos) (hx_journal : vw.free .journal) (hx_links : vw.free .links) (hx_group : vw.free .group) (hx_hot : vw.free .hot) (n : Nat) (t : Nat) (j : Nat) (p : Nat) (pk : Nat) (s : State)  : vw.at (endOpen n t j p pk s) = vw.at s := by
  simp only [endOpen]
  repeat' split
  all_goals simp [*]

@[simp] theorem closeBefore_view (hx_regs : vw.free .regs) (hx_mem : vw.free .mem) (hx_tenants : vw.free .tenants) (hx_ports : vw.free .ports) (hx_fifos : vw.free .fifos) (hx_journal : vw.free .journal) (hx_links : vw.free .links) (hx_group : vw.free .group) (hx_hot : vw.free .hot) (n : Nat) (t : Nat) (j : Nat) (p : Nat) (e : Nat) (s : State)  : vw.at (closeBefore n t j p e s) = vw.at s := by
  unfold closeBefore
  split <;> simp [*]

@[simp] theorem splitOpen_view (hx_regs : vw.free .regs) (hx_mem : vw.free .mem) (hx_tenants : vw.free .tenants) (hx_ports : vw.free .ports) (hx_fifos : vw.free .fifos) (hx_journal : vw.free .journal) (hx_links : vw.free .links) (hx_group : vw.free .group) (hx_hot : vw.free .hot) (n : Nat) (t : Nat) (j : Nat) (p : Nat) (s : State)  : vw.at (splitOpen n t j p s) = vw.at s := by
  unfold splitOpen
  repeat' split
  all_goals simp [*]

@[simp] theorem rxfPush_view (hx_regs : vw.free .regs) (hx_mem : vw.free .mem) (hx_tenants : vw.free .tenants) (hx_ports : vw.free .ports) (hx_pads : vw.free .pads) (hx_fifos : vw.free .fifos) (hx_journal : vw.free .journal) (hx_cores : vw.free .cores) (hx_links : vw.free .links) (hx_group : vw.free .group) (hx_guard : vw.free .guard) (hx_hot : vw.free .hot) (n : Nat) (t : Nat) (v : Word) (s : State)  : vw.at (rxfPush n t v s) = vw.at s := by
  simp only [rxfPush]
  repeat' split
  all_goals simp [*]

@[simp] theorem execRxfPush_view (hx_regs : vw.free .regs) (hx_mem : vw.free .mem) (hx_tenants : vw.free .tenants) (hx_ports : vw.free .ports) (hx_pads : vw.free .pads) (hx_fifos : vw.free .fifos) (hx_journal : vw.free .journal) (hx_clusters : vw.free .clusters) (hx_cores : vw.free .cores) (hx_links : vw.free .links) (hx_group : vw.free .group) (hx_guard : vw.free .guard) (hx_hot : vw.free .hot) (c : CoreId) (v : Word) (s : State)  : NextP (fun t => vw.at t = vw.at s) (execRxfPush c v s) := by
  unfold execRxfPush
  split <;> simp [*]

@[simp] theorem rxfEnd_view (hx_regs : vw.free .regs) (hx_mem : vw.free .mem) (hx_tenants : vw.free .tenants) (hx_ports : vw.free .ports) (hx_pads : vw.free .pads) (hx_fifos : vw.free .fifos) (hx_journal : vw.free .journal) (hx_cores : vw.free .cores) (hx_links : vw.free .links) (hx_group : vw.free .group) (hx_guard : vw.free .guard) (hx_hot : vw.free .hot) (n : Nat) (t : Nat) (v : Word) (s : State)  : vw.at (rxfEnd n t v s) = vw.at s := by
  simp only [rxfEnd]
  repeat' split
  all_goals simp [*]

@[simp] theorem execRxfEnd_view (hx_regs : vw.free .regs) (hx_mem : vw.free .mem) (hx_tenants : vw.free .tenants) (hx_ports : vw.free .ports) (hx_pads : vw.free .pads) (hx_fifos : vw.free .fifos) (hx_journal : vw.free .journal) (hx_clusters : vw.free .clusters) (hx_cores : vw.free .cores) (hx_links : vw.free .links) (hx_group : vw.free .group) (hx_guard : vw.free .guard) (hx_hot : vw.free .hot) (c : CoreId) (v : Word) (s : State)  : NextP (fun t => vw.at t = vw.at s) (execRxfEnd c v s) := by
  unfold execRxfEnd
  split <;> simp [*]

@[simp] theorem rxfEventAct_view (hx_regs : vw.free .regs) (hx_mem : vw.free .mem) (hx_tenants : vw.free .tenants) (hx_ports : vw.free .ports) (hx_pads : vw.free .pads) (hx_fifos : vw.free .fifos) (hx_journal : vw.free .journal) (hx_links : vw.free .links) (hx_group : vw.free .group) (hx_hot : vw.free .hot) (p : Nat) (code : Nat) (s : State)  : vw.at (rxfEventAct p code s) = vw.at s := by
  simp only [rxfEventAct]
  repeat' split
  all_goals simp [*]

@[simp] theorem rxfEvent_view (hx_regs : vw.free .regs) (hx_mem : vw.free .mem) (hx_tenants : vw.free .tenants) (hx_ports : vw.free .ports) (hx_pads : vw.free .pads) (hx_fifos : vw.free .fifos) (hx_journal : vw.free .journal) (hx_cores : vw.free .cores) (hx_links : vw.free .links) (hx_group : vw.free .group) (hx_guard : vw.free .guard) (hx_hot : vw.free .hot) (n : Nat) (t : Nat) (v : Word) (s : State)  : vw.at (rxfEvent n t v s) = vw.at s := by
  simp only [rxfEvent]
  repeat' split
  all_goals simp [*]

@[simp] theorem execRxfEvent_view (hx_regs : vw.free .regs) (hx_mem : vw.free .mem) (hx_tenants : vw.free .tenants) (hx_ports : vw.free .ports) (hx_pads : vw.free .pads) (hx_fifos : vw.free .fifos) (hx_journal : vw.free .journal) (hx_clusters : vw.free .clusters) (hx_cores : vw.free .cores) (hx_links : vw.free .links) (hx_group : vw.free .group) (hx_guard : vw.free .guard) (hx_hot : vw.free .hot) (c : CoreId) (v : Word) (s : State)  : NextP (fun t => vw.at t = vw.at s) (execRxfEvent c v s) := by
  unfold execRxfEvent
  split <;> simp [*]

@[simp] theorem portEdge_view (hx_ports : vw.free .ports) (g : Nat) (level : Bool) (e : Nat) (s : State) : vw.at (portEdge g level e s) = vw.at s := by
  unfold portEdge
  refine each_view vw _ _ (fun x s => ?_) _
  dsimp only
  split
  · rfl
  · split_ifs <;> simp [*]

@[simp] theorem padInput_view (hx_regs : vw.free .regs) (hx_ports : vw.free .ports) (hx_pads : vw.free .pads) (hx_fifos : vw.free .fifos) (hx_journal : vw.free .journal) (hx_clusters : vw.free .clusters) (hx_links : vw.free .links) (hx_group : vw.free .group) (hx_power : vw.free .power) (hx_hot : vw.free .hot) (p : Nat) (level : Bool) (s : State)  : vw.at (padInput p level s) = vw.at s := by
  unfold padInput
  try dsimp only
  repeat' split
  all_goals first | (simp [*]; done) | (split_ifs <;> simp [*]; done) | (simp [apply_ite (View.at vw), *]; done) | (simp; split_ifs <;> simp [*]; done)

@[simp] theorem execRxStartEdge_view (hx_regs : vw.free .regs) (hx_ports : vw.free .ports) (hx_pads : vw.free .pads) (hx_fifos : vw.free .fifos) (hx_journal : vw.free .journal) (hx_clusters : vw.free .clusters) (hx_links : vw.free .links) (hx_group : vw.free .group) (hx_power : vw.free .power) (hx_hot : vw.free .hot) (p : PadId) (level : Bool) (s : State)  : NextP (fun t => vw.at t = vw.at s) (execRxStartEdge p level s) := by
  simp only [execRxStartEdge]
  repeat' split
  all_goals simp [*]

@[simp] theorem execEdgeEntry_view (hx_regs : vw.free .regs) (hx_ports : vw.free .ports) (hx_pads : vw.free .pads) (hx_fifos : vw.free .fifos) (hx_journal : vw.free .journal) (hx_clusters : vw.free .clusters) (hx_links : vw.free .links) (hx_group : vw.free .group) (hx_power : vw.free .power) (hx_hot : vw.free .hot) (p : PadId) (level : Bool) (s : State)  : NextP (fun t => vw.at t = vw.at s) (execEdgeEntry p level s) := by
  simp only [execEdgeEntry]
  repeat' split
  all_goals simp [*]

@[simp] theorem execVioFail_view (hx_regs : vw.free .regs) (hx_mem : vw.free .mem) (hx_tenants : vw.free .tenants) (hx_ports : vw.free .ports) (hx_pads : vw.free .pads) (hx_pgOn : vw.free .pgOn) (hx_fifos : vw.free .fifos) (hx_journal : vw.free .journal) (hx_links : vw.free .links) (hx_group : vw.free .group) (hx_hot : vw.free .hot) (n : ClusterId) (s : State)  : NextP (fun t => vw.at t = vw.at s) (execVioFail n s) := by
  unfold execVioFail
  split <;> simp [*]

@[simp] theorem pgSense_view (hx_regs : vw.free .regs) (hx_ports : vw.free .ports) (hx_pads : vw.free .pads) (hx_pgOn : vw.free .pgOn) (hx_fifos : vw.free .fifos) (hx_journal : vw.free .journal) (hx_links : vw.free .links) (hx_group : vw.free .group) (hx_hot : vw.free .hot) (n : Nat) (s : State)  : vw.at (pgSense n s) = vw.at s := by
  simp [pgSense, *]

@[simp] theorem execPgSupplyMismatch_view (hx_regs : vw.free .regs) (hx_ports : vw.free .ports) (hx_pads : vw.free .pads) (hx_pgOn : vw.free .pgOn) (hx_fifos : vw.free .fifos) (hx_journal : vw.free .journal) (hx_links : vw.free .links) (hx_group : vw.free .group) (hx_hot : vw.free .hot) (n : ClusterId) (high : Bool) (s : State)  : NextP (fun t => vw.at t = vw.at s) (execPgSupplyMismatch n high s) := by
  unfold execPgSupplyMismatch
  repeat' split
  all_goals simp [*]

@[simp] theorem execPgRelease_view (hx_pgOn : vw.free .pgOn) (n : ClusterId) (s : State)  : NextP (fun t => vw.at t = vw.at s) (execPgRelease n s) := by
  unfold execPgRelease
  split <;> simp [*]

@[simp] theorem execFaultPortLoss_view (hx_regs : vw.free .regs) (hx_mem : vw.free .mem) (hx_tenants : vw.free .tenants) (hx_ports : vw.free .ports) (hx_pads : vw.free .pads) (hx_fifos : vw.free .fifos) (hx_journal : vw.free .journal) (hx_cores : vw.free .cores) (hx_links : vw.free .links) (hx_group : vw.free .group) (hx_hot : vw.free .hot) (n : ClusterId) (th : ThreadNo) (s : State)  : NextP (fun t => vw.at t = vw.at s) (execFaultPortLoss n th s) := by
  unfold execFaultPortLoss
  repeat' split
  all_goals simp [*]

@[simp] theorem areaPack_view (hx_mem : vw.free .mem) (hx_fifos : vw.free .fifos) (n t : Nat) (s : State) : vw.at (areaPack n t s) = vw.at s := by
  have h : ∀ (rs : List ((Nat × Nat × Nat) × List Byte)) (q : Nat × List (Nat × Nat × Nat) × State),
      vw.at (rs.foldl (fun (q : Nat × List (Nat × Nat × Nat) × State) r =>
        (q.1 + r.1.2.1, q.2.1 ++ [(q.1, r.1.2)], writeBytes (sliceBase n t + q.1) r.2 q.2.2)) q).2.2 = vw.at q.2.2 := by
    intro rs
    induction rs with
    | nil => intro q; rfl
    | cons r rs ih => intro q; rw [List.foldl_cons, ih]; simp [*]
  unfold areaPack
  dsimp only
  rw [updFifo_view vw _ _ (by assumption), h]

@[simp] theorem areaPut_view (hx_mem : vw.free .mem) (hx_fifos : vw.free .fifos) (n : Nat) (t : Nat) (key : Nat) (len : Nat) (bytes : List Byte) (s : State)  : vw.at (areaPut n t key len bytes s) = vw.at s := by
  simp only [areaPut]
  repeat' split
  all_goals simp [*]

@[simp] theorem areaDrop_view (hx_fifos : vw.free .fifos) (n : Nat) (t : Nat) (gone : Nat → Bool) (s : State)  : vw.at (areaDrop n t gone s) = vw.at s := by
  simp [areaDrop, *]

@[simp] theorem areaGrow_view (hx_mem : vw.free .mem) (hx_fifos : vw.free .fifos) (n : Nat) (t : Nat) (p : Nat) (len : Nat) (s : State)  : vw.at (areaGrow n t p len s) = vw.at s := by
  unfold areaGrow
  split <;> simp [*]

@[simp] theorem areaLoad_view (hx_mem : vw.free .mem) (hx_fifos : vw.free .fifos) (n : Nat) (t : Nat) (j : Nat) (p : Nat) (s : State)  : vw.at (areaLoad n t j p s) = vw.at s := by
  simp [areaLoad, *]

@[simp] theorem areaSweep_view (hx_fifos : vw.free .fifos) (n : Nat) (t : Nat) (s : State)  : vw.at (areaSweep n t s) = vw.at s := by
  simp [areaSweep, *]

@[simp] theorem eraseOld_view (hx_images : vw.free .images) (hx_fifos : vw.free .fifos) (s : State)  : vw.at (eraseOld s) = vw.at s := by
  simp [eraseOld, *]

@[simp] theorem execPortProgramChange_view (hx_regs : vw.free .regs) (hx_ports : vw.free .ports) (hx_images : vw.free .images) (hx_fifos : vw.free .fifos) (hx_journal : vw.free .journal) (hx_links : vw.free .links) (hx_hot : vw.free .hot) (p : PortId) (s : State)  : NextP (fun t => vw.at t = vw.at s) (execPortProgramChange p s) := by
  unfold execPortProgramChange
  repeat' split
  all_goals simp [*]

@[simp] theorem bypassNow_view (hx_regs : vw.free .regs) (hx_mem : vw.free .mem) (hx_tenants : vw.free .tenants) (hx_ports : vw.free .ports) (hx_pads : vw.free .pads) (hx_fifos : vw.free .fifos) (hx_journal : vw.free .journal) (hx_links : vw.free .links) (hx_group : vw.free .group) (hx_hot : vw.free .hot) (p : Nat) (s : State)  : vw.at (bypassNow p s) = vw.at s := by
  simp [bypassNow, *]

@[simp] theorem releaseNow_view (hx_regs : vw.free .regs) (hx_tenants : vw.free .tenants) (hx_ports : vw.free .ports) (hx_pads : vw.free .pads) (hx_journal : vw.free .journal) (hx_links : vw.free .links) (hx_group : vw.free .group) (hx_hot : vw.free .hot) (p : Nat) (s : State)  : vw.at (releaseNow p s) = vw.at s := by
  simp only [releaseNow]
  repeat' split
  all_goals simp [*]

@[simp] theorem execBypassApply_view (hx_regs : vw.free .regs) (hx_mem : vw.free .mem) (hx_tenants : vw.free .tenants) (hx_ports : vw.free .ports) (hx_pads : vw.free .pads) (hx_fifos : vw.free .fifos) (hx_journal : vw.free .journal) (hx_links : vw.free .links) (hx_group : vw.free .group) (hx_host : vw.free .host) (hx_admin : vw.free .admin) (hx_hot : vw.free .hot) (hx_fresh : vw.free .fresh) (p : PortId) (s : State)  : NextP (fun t => vw.at t = vw.at s) (execBypassApply p s) := by
  unfold execBypassApply
  split <;> simp [*]

@[simp] theorem execBypassReleaseApply_view (hx_regs : vw.free .regs) (hx_tenants : vw.free .tenants) (hx_ports : vw.free .ports) (hx_pads : vw.free .pads) (hx_journal : vw.free .journal) (hx_links : vw.free .links) (hx_group : vw.free .group) (hx_host : vw.free .host) (hx_admin : vw.free .admin) (hx_hot : vw.free .hot) (hx_fresh : vw.free .fresh) (p : PortId) (s : State)  : NextP (fun t => vw.at t = vw.at s) (execBypassReleaseApply p s) := by
  unfold execBypassReleaseApply
  split <;> simp [*]

@[simp] theorem loadHand_view (hx_tenants : vw.free .tenants) (hx_group : vw.free .group) (c : Nat) (kind : Nat) (arg : Nat) (s : State)  : vw.at (loadHand c kind arg s) = vw.at s := by
  simp [loadHand, *]

@[simp] theorem loadEvent_view (hx_regs : vw.free .regs) (hx_tenants : vw.free .tenants) (hx_pads : vw.free .pads) (hx_journal : vw.free .journal) (hx_clusters : vw.free .clusters) (hx_links : vw.free .links) (hx_group : vw.free .group) (hx_power : vw.free .power) (hx_hot : vw.free .hot) (c : Nat) (kind : Nat) (arg : Nat) (s : State)  : vw.at (loadEvent c kind arg s) = vw.at s := by
  simp only [loadEvent]
  repeat' split
  all_goals simp [*]

@[simp] theorem loadReport_view (hx_tenants : vw.free .tenants) (hx_group : vw.free .group) (c : Nat) (tag : Option Nat) (sent : Nat) (s : State)  : vw.at (loadReport c tag sent s) = vw.at s := by
  simp only [loadReport]
  repeat' split
  all_goals simp [*]

@[simp] theorem lcWaiting_view (hx_regs : vw.free .regs) (g : Nat) (s : State)  : vw.at (lcWaiting g s) = vw.at s := by
  simp [lcWaiting, *]

@[simp] theorem lcEnter_view (hx_regs : vw.free .regs) (c : Nat) (st : Nat) (s : State)  : vw.at (lcEnter c st s) = vw.at s := by
  simp [lcEnter, *]

@[simp] theorem lcLeave_view (hx_regs : vw.free .regs) (hx_chans : vw.free .chans) (hx_lgroups : vw.free .lgroups) (hx_journal : vw.free .journal) (hx_links : vw.free .links) (hx_hot : vw.free .hot) (c : Nat) (endCode : Nat) (s : State)  : vw.at (lcLeave c endCode s) = vw.at s := by
  unfold lcLeave
  split <;> simp [*]

@[simp] theorem lcWait_view (hx_regs : vw.free .regs) (hx_chans : vw.free .chans) (hx_lgroups : vw.free .lgroups) (c : Nat) (head : Bool) (s : State)  : vw.at (lcWait c head s) = vw.at s := by
  simp [lcWait, *]

@[simp] theorem kickCut_view (hx_tenants : vw.free .tenants) (hx_chans : vw.free .chans) (hx_group : vw.free .group) (c : Nat) (s : State)  : vw.at (kickCut c s) = vw.at s := by
  simp only [kickCut]
  repeat' split
  all_goals simp [*]

@[simp] theorem lcTrip_view (hx_regs : vw.free .regs) (hx_tenants : vw.free .tenants) (hx_pads : vw.free .pads) (hx_chans : vw.free .chans) (hx_lgroups : vw.free .lgroups) (hx_journal : vw.free .journal) (hx_clusters : vw.free .clusters) (hx_links : vw.free .links) (hx_group : vw.free .group) (hx_power : vw.free .power) (hx_hot : vw.free .hot) (c : Nat) (cause : Nat) (s : State)  : vw.at (lcTrip c cause s) = vw.at s := by
  simp only [lcTrip]
  repeat' split
  all_goals simp [*]

@[simp] theorem lcToOff_view (hx_regs : vw.free .regs) (hx_chans : vw.free .chans) (hx_lgroups : vw.free .lgroups) (hx_journal : vw.free .journal) (hx_links : vw.free .links) (hx_hot : vw.free .hot) (c : Nat) (s : State)  : vw.at (lcToOff c s) = vw.at s := by
  simp [lcToOff, *]

@[simp] theorem lcReject_view (hx_regs : vw.free .regs) (hx_hot : vw.free .hot) (c : Nat) (s : State)  : vw.at (lcReject c s) = vw.at s := by
  simp [lcReject, *]

@[simp] theorem lcReplace_view (hx_regs : vw.free .regs) (hx_tenants : vw.free .tenants) (hx_chans : vw.free .chans) (hx_journal : vw.free .journal) (hx_links : vw.free .links) (hx_group : vw.free .group) (hx_host : vw.free .host) (hx_admin : vw.free .admin) (hx_hot : vw.free .hot) (hx_fresh : vw.free .fresh) (c : Nat) (s : State)  : vw.at (lcReplace c s) = vw.at s := by
  unfold lcReplace
  repeat' split
  all_goals simp [*]

@[simp] theorem lcStage_view (hx_regs : vw.free .regs) (hx_tenants : vw.free .tenants) (hx_chans : vw.free .chans) (hx_journal : vw.free .journal) (hx_links : vw.free .links) (hx_group : vw.free .group) (hx_host : vw.free .host) (hx_admin : vw.free .admin) (hx_hot : vw.free .hot) (hx_fresh : vw.free .fresh) (c : Nat) (x : LcStaged) (s : State)  : vw.at (lcStage c x s) = vw.at s := by
  simp [lcStage, *]

@[simp] theorem lcStageCp_view (hx_regs : vw.free .regs) (hx_tenants : vw.free .tenants) (hx_chans : vw.free .chans) (hx_journal : vw.free .journal) (hx_links : vw.free .links) (hx_group : vw.free .group) (hx_host : vw.free .host) (hx_admin : vw.free .admin) (hx_hot : vw.free .hot) (hx_fresh : vw.free .fresh) (c : Nat) (v : Word) (admin : Bool) (s : State)  : vw.at (lcStageCp c v admin s) = vw.at s := by
  simp [lcStageCp, *]

@[simp] theorem lcStageTenant_view (hx_regs : vw.free .regs) (hx_tenants : vw.free .tenants) (hx_chans : vw.free .chans) (hx_journal : vw.free .journal) (hx_links : vw.free .links) (hx_group : vw.free .group) (hx_host : vw.free .host) (hx_admin : vw.free .admin) (hx_hot : vw.free .hot) (hx_fresh : vw.free .fresh) (c : Nat) (v : Word) (tag : Option Nat) (s : State)  : vw.at (lcStageTenant c v tag s) = vw.at s := by
  simp [lcStageTenant, *]

@[simp] theorem execLcCmdStage_view (hx_regs : vw.free .regs) (hx_tenants : vw.free .tenants) (hx_chans : vw.free .chans) (hx_journal : vw.free .journal) (hx_cores : vw.free .cores) (hx_links : vw.free .links) (hx_group : vw.free .group) (hx_guard : vw.free .guard) (hx_host : vw.free .host) (hx_admin : vw.free .admin) (hx_hot : vw.free .hot) (hx_fresh : vw.free .fresh) (c : CoreId) (ch : ChanId) (v : Word) (s : State)  : NextP (fun t => vw.at t = vw.at s) (execLcCmdStage c ch v s) := by
  unfold execLcCmdStage
  repeat' split
  all_goals simp [*]

@[simp] theorem lcBlinkAct_view (hx_regs : vw.free .regs) (hx_chans : vw.free .chans) (hx_lgroups : vw.free .lgroups) (hx_journal : vw.free .journal) (hx_links : vw.free .links) (hx_hot : vw.free .hot) (c : Nat) (a : Nat) (b : Nat) (s : State)  : vw.at (lcBlinkAct c a b s) = vw.at s := by
  simp only [lcBlinkAct]
  repeat' split
  all_goals simp [*]

theorem lcDo_view (hx_regs : vw.free .regs) (hx_tenants : vw.free .tenants) (hx_chans : vw.free .chans) (hx_lgroups : vw.free .lgroups) (hx_journal : vw.free .journal) (hx_links : vw.free .links) (hx_group : vw.free .group) (hx_hot : vw.free .hot) (c : Nat) (x : LcStaged) (s : State) : ∀ t, lcDo c x s = some t → vw.at t = vw.at s := by
  intro t h
  simp only [lcDo] at h
  repeat' split at h
  all_goals first
    | (cases h; done)
    | (simp only [Option.some.injEq] at h; subst h; simp [*]; done)

@[simp] theorem lcRefused_view (hx_regs : vw.free .regs) (hx_tenants : vw.free .tenants) (hx_journal : vw.free .journal) (hx_links : vw.free .links) (hx_group : vw.free .group) (hx_host : vw.free .host) (hx_admin : vw.free .admin) (hx_hot : vw.free .hot) (hx_fresh : vw.free .fresh) (c : Nat) (x : LcStaged) (s : State)  : vw.at (lcRefused c x s) = vw.at s := by
  simp [lcRefused, *]

@[simp] theorem lcAct_view (hx_regs : vw.free .regs) (hx_time : vw.free .time) (hx_tenants : vw.free .tenants) (hx_chans : vw.free .chans) (hx_lgroups : vw.free .lgroups) (hx_journal : vw.free .journal) (hx_links : vw.free .links) (hx_group : vw.free .group) (hx_host : vw.free .host) (hx_admin : vw.free .admin) (hx_hot : vw.free .hot) (hx_fresh : vw.free .fresh) (c : Nat) (f : Nat → Bool) (s : State) : NextP (fun t => vw.at t = vw.at s) (lcAct c f s) := by
  unfold lcAct
  split
  · simp [*]
  · split
    · refine atDue_view vw (by assumption) _ _ _ (fun s => ?_)
      dsimp only
      generalize (match (_ : Option (Nat × Nat)) with | some _ => _ | none => _ : Bool) = st
      repeat' split
      all_goals first
        | (simp [*]; done)
        | (rename_i h _; simp [*, lcDo_view vw (by assumption) (by assumption) (by assumption) (by assumption) (by assumption) (by assumption) (by assumption) (by assumption) _ _ _ _ h]; done)
        | (rename_i h; simp [*, lcDo_view vw (by assumption) (by assumption) (by assumption) (by assumption) (by assumption) (by assumption) (by assumption) (by assumption) _ _ _ _ h]; done)
    · simp [*]

@[simp] theorem execLcNop_view (hx_regs : vw.free .regs) (hx_time : vw.free .time) (hx_tenants : vw.free .tenants) (hx_chans : vw.free .chans) (hx_lgroups : vw.free .lgroups) (hx_journal : vw.free .journal) (hx_links : vw.free .links) (hx_group : vw.free .group) (hx_host : vw.free .host) (hx_admin : vw.free .admin) (hx_hot : vw.free .hot) (hx_fresh : vw.free .fresh) (ch : ChanId) (s : State)  : NextP (fun t => vw.at t = vw.at s) (execLcNop ch s) := by
  simp [execLcNop, *]

@[simp] theorem execLcOn_view (hx_regs : vw.free .regs) (hx_time : vw.free .time) (hx_tenants : vw.free .tenants) (hx_chans : vw.free .chans) (hx_lgroups : vw.free .lgroups) (hx_journal : vw.free .journal) (hx_links : vw.free .links) (hx_group : vw.free .group) (hx_host : vw.free .host) (hx_admin : vw.free .admin) (hx_hot : vw.free .hot) (hx_fresh : vw.free .fresh) (ch : ChanId) (s : State)  : NextP (fun t => vw.at t = vw.at s) (execLcOn ch s) := by
  simp [execLcOn, *]

@[simp] theorem execLcOff_view (hx_regs : vw.free .regs) (hx_time : vw.free .time) (hx_tenants : vw.free .tenants) (hx_chans : vw.free .chans) (hx_lgroups : vw.free .lgroups) (hx_journal : vw.free .journal) (hx_links : vw.free .links) (hx_group : vw.free .group) (hx_host : vw.free .host) (hx_admin : vw.free .admin) (hx_hot : vw.free .hot) (hx_fresh : vw.free .fresh) (ch : ChanId) (s : State)  : NextP (fun t => vw.at t = vw.at s) (execLcOff ch s) := by
  simp [execLcOff, *]

@[simp] theorem execLcKick_view (hx_regs : vw.free .regs) (hx_time : vw.free .time) (hx_tenants : vw.free .tenants) (hx_chans : vw.free .chans) (hx_lgroups : vw.free .lgroups) (hx_journal : vw.free .journal) (hx_links : vw.free .links) (hx_group : vw.free .group) (hx_host : vw.free .host) (hx_admin : vw.free .admin) (hx_hot : vw.free .hot) (hx_fresh : vw.free .fresh) (ch : ChanId) (s : State)  : NextP (fun t => vw.at t = vw.at s) (execLcKick ch s) := by
  simp [execLcKick, *]

@[simp] theorem execLcBlink_view (hx_regs : vw.free .regs) (hx_time : vw.free .time) (hx_tenants : vw.free .tenants) (hx_chans : vw.free .chans) (hx_lgroups : vw.free .lgroups) (hx_journal : vw.free .journal) (hx_links : vw.free .links) (hx_group : vw.free .group) (hx_host : vw.free .host) (hx_admin : vw.free .admin) (hx_hot : vw.free .hot) (hx_fresh : vw.free .fresh) (ch : ChanId) (s : State)  : NextP (fun t => vw.at t = vw.at s) (execLcBlink ch s) := by
  simp [execLcBlink, *]

@[simp] theorem execLcTest_view (hx_regs : vw.free .regs) (hx_time : vw.free .time) (hx_tenants : vw.free .tenants) (hx_chans : vw.free .chans) (hx_lgroups : vw.free .lgroups) (hx_journal : vw.free .journal) (hx_links : vw.free .links) (hx_group : vw.free .group) (hx_host : vw.free .host) (hx_admin : vw.free .admin) (hx_hot : vw.free .hot) (hx_fresh : vw.free .fresh) (ch : ChanId) (s : State)  : NextP (fun t => vw.at t = vw.at s) (execLcTest ch s) := by
  simp [execLcTest, *]

@[simp] theorem execLcClear_view (hx_regs : vw.free .regs) (hx_time : vw.free .time) (hx_tenants : vw.free .tenants) (hx_chans : vw.free .chans) (hx_lgroups : vw.free .lgroups) (hx_journal : vw.free .journal) (hx_links : vw.free .links) (hx_group : vw.free .group) (hx_host : vw.free .host) (hx_admin : vw.free .admin) (hx_hot : vw.free .hot) (hx_fresh : vw.free .fresh) (ch : ChanId) (s : State)  : NextP (fun t => vw.at t = vw.at s) (execLcClear ch s) := by
  simp [execLcClear, *]

@[simp] theorem execShortTrip_view (hx_regs : vw.free .regs) (hx_time : vw.free .time) (hx_tenants : vw.free .tenants) (hx_pads : vw.free .pads) (hx_chans : vw.free .chans) (hx_lgroups : vw.free .lgroups) (hx_journal : vw.free .journal) (hx_clusters : vw.free .clusters) (hx_links : vw.free .links) (hx_group : vw.free .group) (hx_power : vw.free .power) (hx_hot : vw.free .hot) (ch : ChanId) (s : State)  : NextP (fun t => vw.at t = vw.at s) (execShortTrip ch s) := by
  unfold execShortTrip
  split <;> simp [*]

@[simp] theorem execInrushOverTrip_view (hx_regs : vw.free .regs) (hx_time : vw.free .time) (hx_tenants : vw.free .tenants) (hx_pads : vw.free .pads) (hx_chans : vw.free .chans) (hx_lgroups : vw.free .lgroups) (hx_journal : vw.free .journal) (hx_clusters : vw.free .clusters) (hx_links : vw.free .links) (hx_group : vw.free .group) (hx_power : vw.free .power) (hx_hot : vw.free .hot) (ch : ChanId) (s : State)  : NextP (fun t => vw.at t = vw.at s) (execInrushOverTrip ch s) := by
  simp only [execInrushOverTrip]
  repeat' split
  all_goals simp [*]

@[simp] theorem execOverloadTrip_view (hx_regs : vw.free .regs) (hx_time : vw.free .time) (hx_tenants : vw.free .tenants) (hx_pads : vw.free .pads) (hx_chans : vw.free .chans) (hx_lgroups : vw.free .lgroups) (hx_journal : vw.free .journal) (hx_clusters : vw.free .clusters) (hx_links : vw.free .links) (hx_group : vw.free .group) (hx_power : vw.free .power) (hx_hot : vw.free .hot) (ch : ChanId) (s : State)  : NextP (fun t => vw.at t = vw.at s) (execOverloadTrip ch s) := by
  simp only [execOverloadTrip]
  repeat' split
  all_goals simp [*]

@[simp] theorem execStuckOnDetect_view (hx_regs : vw.free .regs) (hx_time : vw.free .time) (hx_tenants : vw.free .tenants) (hx_pads : vw.free .pads) (hx_chans : vw.free .chans) (hx_lgroups : vw.free .lgroups) (hx_journal : vw.free .journal) (hx_clusters : vw.free .clusters) (hx_links : vw.free .links) (hx_group : vw.free .group) (hx_power : vw.free .power) (hx_hot : vw.free .hot) (ch : ChanId) (s : State)  : NextP (fun t => vw.at t = vw.at s) (execStuckOnDetect ch s) := by
  simp only [execStuckOnDetect]
  repeat' split
  all_goals simp [*]

@[simp] theorem lcAbort_view (hx_regs : vw.free .regs) (hx_tenants : vw.free .tenants) (hx_pads : vw.free .pads) (hx_chans : vw.free .chans) (hx_lgroups : vw.free .lgroups) (hx_journal : vw.free .journal) (hx_clusters : vw.free .clusters) (hx_links : vw.free .links) (hx_group : vw.free .group) (hx_power : vw.free .power) (hx_hot : vw.free .hot) (c : Nat) (s : State)  : vw.at (lcAbort c s) = vw.at s := by
  simp only [lcAbort]
  repeat' split
  all_goals simp [*]

@[simp] theorem execSagAssert_view (hx_regs : vw.free .regs) (hx_time : vw.free .time) (hx_tenants : vw.free .tenants) (hx_pads : vw.free .pads) (hx_chans : vw.free .chans) (hx_lgroups : vw.free .lgroups) (hx_journal : vw.free .journal) (hx_clusters : vw.free .clusters) (hx_links : vw.free .links) (hx_group : vw.free .group) (hx_power : vw.free .power) (hx_hot : vw.free .hot) (g : GroupId) (s : State) : NextP (fun t => vw.at t = vw.at s) (execSagAssert g s) := by
  unfold execSagAssert
  dsimp only
  split
  · refine atDue_view vw (by assumption) _ _ _ (fun s => ?_)
    try dsimp only
    rw [each_view vw _ _ (fun c s => by simp [*])]
    simp [*]
  · rfl

@[simp] theorem execSagDeassert_view (hx_regs : vw.free .regs) (hx_time : vw.free .time) (hx_lgroups : vw.free .lgroups) (g : GroupId) (s : State)  : NextP (fun t => vw.at t = vw.at s) (execSagDeassert g s) := by
  simp only [execSagDeassert]
  repeat' split
  all_goals simp [*]

@[simp] theorem execDischargeEnd_view (hx_regs : vw.free .regs) (ch : ChanId) (s : State)  : NextP (fun t => vw.at t = vw.at s) (execDischargeEnd ch s) := by
  simp [execDischargeEnd, *]

@[simp] theorem lcGrant_view (hx_regs : vw.free .regs) (hx_tenants : vw.free .tenants) (hx_pads : vw.free .pads) (hx_chans : vw.free .chans) (hx_lgroups : vw.free .lgroups) (hx_journal : vw.free .journal) (hx_clusters : vw.free .clusters) (hx_links : vw.free .links) (hx_group : vw.free .group) (hx_power : vw.free .power) (hx_hot : vw.free .hot) (c : Nat) (s : State)  : vw.at (lcGrant c s) = vw.at s := by
  simp only [lcGrant]
  repeat' split
  all_goals simp [*]

@[simp] theorem execInrushGrant_view (hx_regs : vw.free .regs) (hx_time : vw.free .time) (hx_tenants : vw.free .tenants) (hx_pads : vw.free .pads) (hx_chans : vw.free .chans) (hx_lgroups : vw.free .lgroups) (hx_journal : vw.free .journal) (hx_clusters : vw.free .clusters) (hx_links : vw.free .links) (hx_group : vw.free .group) (hx_power : vw.free .power) (hx_hot : vw.free .hot) (g : GroupId) (s : State)  : NextP (fun t => vw.at t = vw.at s) (execInrushGrant g s) := by
  simp only [execInrushGrant]
  repeat' split
  all_goals simp [*]

@[simp] theorem execInrushEnd_view (hx_regs : vw.free .regs) (hx_time : vw.free .time) (hx_chans : vw.free .chans) (hx_lgroups : vw.free .lgroups) (hx_journal : vw.free .journal) (hx_links : vw.free .links) (hx_hot : vw.free .hot) (ch : ChanId) (s : State)  : NextP (fun t => vw.at t = vw.at s) (execInrushEnd ch s) := by
  simp only [execInrushEnd]
  repeat' split
  all_goals simp [*]

@[simp] theorem execTraceSample_view (hx_time : vw.free .time) (hx_chans : vw.free .chans) (ch : ChanId) (reading : BitVec 12) (s : State)  : NextP (fun t => vw.at t = vw.at s) (execTraceSample ch reading s) := by
  simp only [execTraceSample]
  repeat' split
  all_goals simp [*]

@[simp] theorem execKickEnd_view (hx_regs : vw.free .regs) (hx_time : vw.free .time) (hx_tenants : vw.free .tenants) (hx_pads : vw.free .pads) (hx_chans : vw.free .chans) (hx_lgroups : vw.free .lgroups) (hx_journal : vw.free .journal) (hx_clusters : vw.free .clusters) (hx_links : vw.free .links) (hx_group : vw.free .group) (hx_power : vw.free .power) (hx_hot : vw.free .hot) (ch : ChanId) (s : State)  : NextP (fun t => vw.at t = vw.at s) (execKickEnd ch s) := by
  simp only [execKickEnd]
  repeat' split
  all_goals simp [*]

@[simp] theorem execBlinkOnEnd_view (hx_regs : vw.free .regs) (hx_time : vw.free .time) (hx_chans : vw.free .chans) (hx_lgroups : vw.free .lgroups) (hx_journal : vw.free .journal) (hx_links : vw.free .links) (hx_hot : vw.free .hot) (ch : ChanId) (s : State)  : NextP (fun t => vw.at t = vw.at s) (execBlinkOnEnd ch s) := by
  simp only [execBlinkOnEnd]
  repeat' split
  all_goals simp [*]

@[simp] theorem execBlinkOffEnd_view (hx_regs : vw.free .regs) (hx_time : vw.free .time) (hx_chans : vw.free .chans) (hx_lgroups : vw.free .lgroups) (ch : ChanId) (s : State)  : NextP (fun t => vw.at t = vw.at s) (execBlinkOffEnd ch s) := by
  simp only [execBlinkOffEnd]
  repeat' split
  all_goals simp [*]

@[simp] theorem lcTestDone_view (hx_regs : vw.free .regs) (hx_chans : vw.free .chans) (hx_lgroups : vw.free .lgroups) (hx_journal : vw.free .journal) (hx_links : vw.free .links) (hx_hot : vw.free .hot) (c : Nat) (s : State)  : vw.at (lcTestDone c s) = vw.at s := by
  simp only [lcTestDone]
  repeat' split
  all_goals simp [*]

@[simp] theorem execTestOffEnd_view (hx_regs : vw.free .regs) (hx_time : vw.free .time) (hx_tenants : vw.free .tenants) (hx_pads : vw.free .pads) (hx_chans : vw.free .chans) (hx_lgroups : vw.free .lgroups) (hx_journal : vw.free .journal) (hx_clusters : vw.free .clusters) (hx_links : vw.free .links) (hx_group : vw.free .group) (hx_power : vw.free .power) (hx_hot : vw.free .hot) (ch : ChanId) (above : Bool) (s : State)  : NextP (fun t => vw.at t = vw.at s) (execTestOffEnd ch above s) := by
  simp only [execTestOffEnd]
  repeat' split
  all_goals simp [*]

@[simp] theorem execTestWindowEnd_view (hx_regs : vw.free .regs) (hx_time : vw.free .time) (hx_tenants : vw.free .tenants) (hx_pads : vw.free .pads) (hx_chans : vw.free .chans) (hx_lgroups : vw.free .lgroups) (hx_journal : vw.free .journal) (hx_clusters : vw.free .clusters) (hx_links : vw.free .links) (hx_group : vw.free .group) (hx_power : vw.free .power) (hx_hot : vw.free .hot) (ch : ChanId) (first : Option (Fin 48000)) (s : State)  : NextP (fun t => vw.at t = vw.at s) (execTestWindowEnd ch first s) := by
  simp only [execTestWindowEnd]
  repeat' split
  all_goals simp [*]

@[simp] theorem execAutoRetry_view (hx_regs : vw.free .regs) (hx_time : vw.free .time) (hx_tenants : vw.free .tenants) (hx_chans : vw.free .chans) (hx_lgroups : vw.free .lgroups) (hx_group : vw.free .group) (ch : ChanId) (s : State)  : NextP (fun t => vw.at t = vw.at s) (execAutoRetry ch s) := by
  simp only [execAutoRetry]
  repeat' split
  all_goals simp [*]

@[simp] theorem lcSyncAttach_view (hx_devices : vw.free .devices) (c : Nat) (s : State)  : vw.at (lcSyncAttach c s) = vw.at s := by
  simp only [lcSyncAttach]
  repeat' split
  all_goals simp [*]

@[simp] theorem lcDisable_view (hx_regs : vw.free .regs) (hx_tenants : vw.free .tenants) (hx_chans : vw.free .chans) (hx_lgroups : vw.free .lgroups) (hx_journal : vw.free .journal) (hx_links : vw.free .links) (hx_group : vw.free .group) (hx_hot : vw.free .hot) (c : Nat) (s : State)  : vw.at (lcDisable c s) = vw.at s := by
  simp only [lcDisable]
  repeat' split
  all_goals simp [*]

@[simp] theorem lcReattach_view (hx_regs : vw.free .regs) (hx_devices : vw.free .devices) (c : Nat) (old : State) (s : State)  : vw.at (lcReattach c old s) = vw.at s := by
  simp [lcReattach, *]

@[simp] theorem lcCfgWrite_view (hx_regs : vw.free .regs) (hx_tenants : vw.free .tenants) (hx_devices : vw.free .devices) (hx_chans : vw.free .chans) (hx_lgroups : vw.free .lgroups) (hx_journal : vw.free .journal) (hx_links : vw.free .links) (hx_group : vw.free .group) (hx_host : vw.free .host) (hx_admin : vw.free .admin) (hx_hot : vw.free .hot) (hx_fresh : vw.free .fresh) (c : Nat) (w : Nat) (v : Word) (s : State)  : vw.at (lcCfgWrite c w v s) = vw.at s := by
  simp only [lcCfgWrite]
  repeat' split
  all_goals simp [*]

@[simp] theorem execLcConfigWrite_view (hx_regs : vw.free .regs) (hx_tenants : vw.free .tenants) (hx_devices : vw.free .devices) (hx_chans : vw.free .chans) (hx_lgroups : vw.free .lgroups) (hx_journal : vw.free .journal) (hx_cores : vw.free .cores) (hx_links : vw.free .links) (hx_group : vw.free .group) (hx_guard : vw.free .guard) (hx_host : vw.free .host) (hx_admin : vw.free .admin) (hx_hot : vw.free .hot) (hx_fresh : vw.free .fresh) (c : CoreId) (ch : ChanId) (off : Fin 32) (v : Word) (s : State)  : NextP (fun t => vw.at t = vw.at s) (execLcConfigWrite c ch off v s) := by
  unfold execLcConfigWrite
  split <;> simp [*]

@[simp] theorem execLcCtrlDisable_view (hx_regs : vw.free .regs) (hx_tenants : vw.free .tenants) (hx_devices : vw.free .devices) (hx_chans : vw.free .chans) (hx_lgroups : vw.free .lgroups) (hx_journal : vw.free .journal) (hx_cores : vw.free .cores) (hx_links : vw.free .links) (hx_group : vw.free .group) (hx_guard : vw.free .guard) (hx_host : vw.free .host) (hx_admin : vw.free .admin) (hx_hot : vw.free .hot) (hx_fresh : vw.free .fresh) (c : CoreId) (ch : ChanId) (s : State)  : NextP (fun t => vw.at t = vw.at s) (execLcCtrlDisable c ch s) := by
  unfold execLcCtrlDisable
  split <;> simp [*]

@[simp] theorem lcGcfgWrite_view (hx_regs : vw.free .regs) (hx_lgroups : vw.free .lgroups) (hx_hot : vw.free .hot) (g : Nat) (v : Word) (s : State)  : vw.at (lcGcfgWrite g v s) = vw.at s := by
  simp only [lcGcfgWrite]
  repeat' split
  all_goals simp [*]

@[simp] theorem execLcGcfgWrite_view (hx_regs : vw.free .regs) (hx_lgroups : vw.free .lgroups) (hx_journal : vw.free .journal) (hx_cores : vw.free .cores) (hx_links : vw.free .links) (hx_guard : vw.free .guard) (hx_hot : vw.free .hot) (c : CoreId) (g : GroupId) (v : Word) (s : State)  : NextP (fun t => vw.at t = vw.at s) (execLcGcfgWrite c g v s) := by
  simp [execLcGcfgWrite, *]

@[simp] theorem resyncDevs_view (hx_devices : vw.free .devices) (t : Nat) (s : State)  : vw.at (resyncDevs t s) = vw.at s := by
  unfold resyncDevs
  try dsimp only
  repeat' split
  all_goals first | (simp [*]; done) | (split_ifs <;> simp [*]; done) | (simp [apply_ite (View.at vw), *]; done) | (simp; split_ifs <;> simp [*]; done)

@[simp] theorem tenantEnable_view (hx_regs : vw.free .regs) (hx_devices : vw.free .devices) (t : Nat) (s : State)  : vw.at (tenantEnable t s) = vw.at s := by
  unfold tenantEnable
  repeat' split
  all_goals simp [*]

@[simp] theorem stageSlot_view (hx_mem : vw.free .mem) (hx_tenants : vw.free .tenants) (t : Nat) (sl : Slot) (s : State)  : vw.at (stageSlot t sl s) = vw.at s := by
  simp only [stageSlot]
  repeat' split
  all_goals simp [*]

@[simp] theorem stageSlots_view (hx_mem : vw.free .mem) (hx_tenants : vw.free .tenants) (t : Nat) (sls : List Slot) (s : State)  : vw.at (stageSlots t sls s) = vw.at s := by
  simp [stageSlots, *]

@[simp] theorem refill_view (hx_mem : vw.free .mem) (hx_tenants : vw.free .tenants) (t : Nat) (s : State)  : vw.at (refill t s) = vw.at s := by
  simp [refill, *]

@[simp] theorem jDiscard_view (hx_regs : vw.free .regs) (hx_journal : vw.free .journal) (hx_links : vw.free .links) (hx_hot : vw.free .hot) (t : Nat) (d : Nat) (tag : Nat) (s : State)  : vw.at (jDiscard t d tag s) = vw.at s := by
  simp [jDiscard, *]

@[simp] theorem flushTenantPort_view (hx_regs : vw.free .regs) (hx_ports : vw.free .ports) (hx_pads : vw.free .pads) (hx_fifos : vw.free .fifos) (hx_journal : vw.free .journal) (hx_links : vw.free .links) (hx_group : vw.free .group) (hx_hot : vw.free .hot) (t : Nat) (p : Nat) (s : State)  : vw.at (flushTenantPort t p s) = vw.at s := by
  simp [flushTenantPort, *]

@[simp] theorem abandon_view (hx_regs : vw.free .regs) (hx_tenants : vw.free .tenants) (hx_devices : vw.free .devices) (hx_ports : vw.free .ports) (hx_pads : vw.free .pads) (hx_fifos : vw.free .fifos) (hx_chans : vw.free .chans) (hx_journal : vw.free .journal) (hx_remote : vw.free .remote) (hx_delayed : vw.free .delayed) (hx_links : vw.free .links) (hx_group : vw.free .group) (hx_hot : vw.free .hot) (t : Nat) (s : State)  : vw.at (abandon t s) = vw.at s := by
  unfold abandon
  try dsimp only
  repeat' split
  all_goals first | (simp [*]; done) | (split_ifs <;> simp [*]; done) | (simp [apply_ite (View.at vw), *]; done) | (simp; split_ifs <;> simp [*]; done)

@[simp] theorem clearOwned_view (hx_regs : vw.free .regs) (t : Nat) (s : State) : vw.at (clearOwned t s) = vw.at s := by
  simp (maxDischargeDepth := 8) [clearOwned, *]

@[simp] theorem resetStart_view (hx_regs : vw.free .regs) (hx_tenants : vw.free .tenants) (hx_devices : vw.free .devices) (hx_ports : vw.free .ports) (hx_pads : vw.free .pads) (hx_fifos : vw.free .fifos) (hx_chans : vw.free .chans) (hx_journal : vw.free .journal) (hx_remote : vw.free .remote) (hx_delayed : vw.free .delayed) (hx_links : vw.free .links) (hx_group : vw.free .group) (hx_hot : vw.free .hot) (t : Nat) (s : State)  : vw.at (resetStart t s) = vw.at s := by
  unfold resetStart
  split <;> simp [*]

@[simp] theorem pageReset_view (hx_regs : vw.free .regs) (p : Nat) (s : State)  : vw.at (pageReset p s) = vw.at s := by
  simp [pageReset, *]

@[simp] theorem rebuild_view (hx_regs : vw.free .regs) (hx_tenants : vw.free .tenants) (hx_devices : vw.free .devices) (t : Nat) (s : State)  : vw.at (rebuild t s) = vw.at s := by
  unfold rebuild
  try dsimp only
  repeat' split
  all_goals first | (simp [*]; done) | (split_ifs <;> simp [*]; done) | (simp [apply_ite (View.at vw), *]; done) | (simp; split_ifs <;> simp [*]; done)

@[simp] theorem resetComplete_view (hx_regs : vw.free .regs) (hx_tenants : vw.free .tenants) (hx_devices : vw.free .devices) (hx_journal : vw.free .journal) (hx_links : vw.free .links) (hx_group : vw.free .group) (hx_host : vw.free .host) (hx_admin : vw.free .admin) (hx_hot : vw.free .hot) (hx_fresh : vw.free .fresh) (t : Nat) (s : State)  : vw.at (resetComplete t s) = vw.at s := by
  simp [resetComplete, *]

@[simp] theorem execTenantResetComplete_view (hx_regs : vw.free .regs) (hx_tenants : vw.free .tenants) (hx_devices : vw.free .devices) (hx_journal : vw.free .journal) (hx_links : vw.free .links) (hx_group : vw.free .group) (hx_host : vw.free .host) (hx_admin : vw.free .admin) (hx_hot : vw.free .hot) (hx_fresh : vw.free .fresh) (t : TenantId) (s : State)  : NextP (fun t => vw.at t = vw.at s) (execTenantResetComplete t s) := by
  unfold execTenantResetComplete
  split <;> simp [*]

@[simp] theorem tenantResetWrite_view (hx_regs : vw.free .regs) (hx_tenants : vw.free .tenants) (hx_devices : vw.free .devices) (hx_ports : vw.free .ports) (hx_pads : vw.free .pads) (hx_fifos : vw.free .fifos) (hx_chans : vw.free .chans) (hx_journal : vw.free .journal) (hx_remote : vw.free .remote) (hx_delayed : vw.free .delayed) (hx_links : vw.free .links) (hx_group : vw.free .group) (hx_hot : vw.free .hot) (v : Word) (s : State)  : vw.at (tenantResetWrite v s) = vw.at s := by
  unfold tenantResetWrite
  split <;> simp [*]

@[simp] theorem execTenantResetGo_view (hx_regs : vw.free .regs) (hx_tenants : vw.free .tenants) (hx_devices : vw.free .devices) (hx_ports : vw.free .ports) (hx_pads : vw.free .pads) (hx_fifos : vw.free .fifos) (hx_chans : vw.free .chans) (hx_journal : vw.free .journal) (hx_cores : vw.free .cores) (hx_remote : vw.free .remote) (hx_delayed : vw.free .delayed) (hx_links : vw.free .links) (hx_group : vw.free .group) (hx_guard : vw.free .guard) (hx_hot : vw.free .hot) (c : CoreId) (v : Word) (s : State)  : NextP (fun t => vw.at t = vw.at s) (execTenantResetGo c v s) := by
  unfold execTenantResetGo
  split <;> simp [*]

@[simp] theorem markActed_view (hx_journal : vw.free .journal) (t : Nat) (d : Nat) (s : State)  : vw.at (markActed t d s) = vw.at s := by
  simp [markActed, *]

@[simp] theorem respond_view (hx_mem : vw.free .mem) (hx_tenants : vw.free .tenants) (hx_journal : vw.free .journal) (t : Nat) (op : Nat) (tag : Nat) (dv : Nat) (status : Nat) (state : Nat) (payload : List Byte) (s : State)  : vw.at (respond t op tag dv status state payload s) = vw.at s := by
  unfold respond
  split <;> simp [*]

@[simp] theorem notice_view (hx_mem : vw.free .mem) (hx_tenants : vw.free .tenants) (t : Nat) (d : Nat) (code : Nat) (tag : Nat) (payload : List Byte) (s : State)  : vw.at (notice t d code tag payload s) = vw.at s := by
  simp [notice, *]

@[simp] theorem xSlot_view (hx_mem : vw.free .mem) (hx_tenants : vw.free .tenants) (hx_journal : vw.free .journal) (t : Nat) (d : Nat) (bs : List Byte) (s : State)  : vw.at (xSlot t d bs s) = vw.at s := by
  simp [xSlot, *]

@[simp] theorem xForm_view (hx_regs : vw.free .regs) (hx_mem : vw.free .mem) (hx_tenants : vw.free .tenants) (hx_journal : vw.free .journal) (hx_links : vw.free .links) (hx_hot : vw.free .hot) (t : Nat) (d : Nat) (fmt : Nat) (s : State)  : vw.at (xForm t d fmt s) = vw.at s := by
  simp only [xForm]
  repeat' split
  all_goals simp [*]

@[simp] theorem seqFinish_view (hx_regs : vw.free .regs) (hx_mem : vw.free .mem) (hx_tenants : vw.free .tenants) (hx_devices : vw.free .devices) (hx_journal : vw.free .journal) (hx_links : vw.free .links) (hx_hot : vw.free .hot) (t : Nat) (d : Nat) (how : SeqEnd) (s : State)  : vw.at (seqFinish t d how s) = vw.at s := by
  simp only [seqFinish]
  repeat' split
  all_goals simp [*]

@[simp] theorem seqStart_view (hx_devices : vw.free .devices) (t : Nat) (d : Nat) (tag : Nat) (code : Nat) (us : Nat) (sent : Bool) (s : State)  : vw.at (seqStart t d tag code us sent s) = vw.at s := by
  simp [seqStart, *]

@[simp] theorem seqSent_view (hx_devices : vw.free .devices) (t : Nat) (d : Nat) (s : State)  : vw.at (seqSent t d s) = vw.at s := by
  simp [seqSent, *]

@[simp] theorem dropNotice_view (hx_regs : vw.free .regs) (hx_mem : vw.free .mem) (hx_tenants : vw.free .tenants) (hx_devices : vw.free .devices) (hx_journal : vw.free .journal) (hx_links : vw.free .links) (hx_hot : vw.free .hot) (t : Nat) (d : Nat) (tag : Nat) (sent : Nat) (s : State)  : vw.at (dropNotice t d tag sent s) = vw.at s := by
  simp only [dropNotice]
  repeat' split
  all_goals simp [*]

@[simp] theorem stagePort_view (hx_regs : vw.free .regs) (hx_mem : vw.free .mem) (hx_tenants : vw.free .tenants) (hx_devices : vw.free .devices) (hx_journal : vw.free .journal) (hx_links : vw.free .links) (hx_hot : vw.free .hot) (t : Nat) (d : Nat) (tag : Option Nat) (fin : Bool) (bytes : List Byte) (s : State)  : vw.at (stagePort t d tag fin bytes s).2 = vw.at s := by
  simp only [stagePort]
  repeat' split
  all_goals simp [*]

theorem lcOp_view (hx_regs : vw.free .regs) (hx_tenants : vw.free .tenants) (hx_chans : vw.free .chans) (hx_journal : vw.free .journal) (hx_links : vw.free .links) (hx_group : vw.free .group) (hx_host : vw.free .host) (hx_admin : vw.free .admin) (hx_hot : vw.free .hot) (hx_fresh : vw.free .fresh) (t d code : Nat) (p : List Byte) (tag : Option Nat) (s : State) : ∀ u, lcOp t d code p tag s = some u → vw.at u = vw.at s := by
  intro u h
  simp only [lcOp] at h
  split at h
  · cases h
  · cases hw : lcWord (dev s t d).cls code p <;> simp [*, hw] at h
    subst h; simp [*]

@[simp] theorem updMach_view (hx_devices : vw.free .devices) (t : Nat) (d : Nat) (side : Nat) (f : MachSt → MachSt) (s : State)  : vw.at (updMach t d side f s) = vw.at s := by
  simp [updMach, *]

@[simp] theorem loadOp_view (hx_devices : vw.free .devices) (t : Nat) (d : Nat) (side : Nat) (code : Nat) (p : List Byte) (s : State)  : vw.at (loadOp t d side code p s) = vw.at s := by
  simp [loadOp, *]

@[simp] theorem actSend_view (hx_regs : vw.free .regs) (hx_mem : vw.free .mem) (hx_tenants : vw.free .tenants) (hx_devices : vw.free .devices) (hx_journal : vw.free .journal) (hx_links : vw.free .links) (hx_hot : vw.free .hot) (c : FCtx) (fmt : Nat) (a : FAcc) : vw.at (actSend c fmt a).s = vw.at a.s := by
  unfold actSend
  try dsimp only
  repeat' split
  all_goals simp [*]

@[simp] theorem actEmit_view (hx_mem : vw.free .mem) (hx_tenants : vw.free .tenants) (hx_devices : vw.free .devices) (hx_fresh : vw.free .fresh) (c : FCtx) (code : Nat) (a : FAcc) : vw.at (actEmit c code a).s = vw.at a.s := by
  unfold actEmit
  try dsimp only
  repeat' split
  all_goals simp [*]

@[simp] theorem actDstate_view (hx_regs : vw.free .regs) (hx_mem : vw.free .mem) (hx_tenants : vw.free .tenants) (hx_devices : vw.free .devices) (hx_journal : vw.free .journal) (hx_links : vw.free .links) (hx_hot : vw.free .hot) (c : FCtx) (code : Nat) (s : State)  : vw.at (actDstate c code s) = vw.at s := by
  simp only [actDstate]
  repeat' split
  all_goals simp [*]

@[simp] theorem act_view (hx_regs : vw.free .regs) (hx_mem : vw.free .mem) (hx_tenants : vw.free .tenants) (hx_devices : vw.free .devices) (hx_journal : vw.free .journal) (hx_links : vw.free .links) (hx_hot : vw.free .hot) (hx_fresh : vw.free .fresh) (c : FCtx) (a : FAcc) (w : Word) : vw.at (act c a w).s = vw.at a.s := by
  unfold act
  try dsimp only
  repeat' split
  all_goals simp [*]

@[simp] theorem actFold_view (hx_regs : vw.free .regs) (hx_mem : vw.free .mem) (hx_tenants : vw.free .tenants) (hx_devices : vw.free .devices) (hx_journal : vw.free .journal) (hx_links : vw.free .links) (hx_hot : vw.free .hot) (hx_fresh : vw.free .fresh) (c : FCtx) (ws : List Word) (a : FAcc) : vw.at (ws.foldl (act c) a).s = vw.at a.s := by
  induction ws generalizing a with
  | nil => rfl
  | cons w ws ih => rw [List.foldl_cons, ih]; simp [*]

@[simp] theorem fireNo_view (hx_regs : vw.free .regs) (hx_mem : vw.free .mem) (hx_tenants : vw.free .tenants) (hx_devices : vw.free .devices) (hx_journal : vw.free .journal) (hx_links : vw.free .links) (hx_hot : vw.free .hot) (hx_fresh : vw.free .fresh) (c : FCtx) (m : Mach) (i : Nat) (s : State) : vw.at (fireNo c m i s).2.s = vw.at s := by
  unfold fireNo
  dsimp only
  split
  · rfl
  · dsimp only
    rw [updDev_view vw _ _ _ (by assumption), updMach_view vw (by assumption)]
    exact actFold_view vw (by assumption) (by assumption) (by assumption) (by assumption) (by assumption) (by assumption) (by assumption) (by assumption) _ _ _

theorem fireSrc_view (hx_regs : vw.free .regs) (hx_mem : vw.free .mem) (hx_tenants : vw.free .tenants) (hx_devices : vw.free .devices) (hx_journal : vw.free .journal) (hx_links : vw.free .links) (hx_hot : vw.free .hot) (hx_fresh : vw.free .fresh) (t d side src arg : Nat) (tag : Option Nat) (s : State) : ∀ r, fireSrc t d side src arg tag s = some r → vw.at r.2.s = vw.at s := by
  intro r h
  unfold fireSrc at h
  split at h
  · cases h
  · split at h
    · cases h
    · simp only [Option.map_eq_some_iff] at h
      obtain ⟨i, _, rfl⟩ := h
      simp [*]

@[simp] theorem jIgnored_view (hx_regs : vw.free .regs) (hx_journal : vw.free .journal) (hx_links : vw.free .links) (hx_hot : vw.free .hot) (t : Nat) (d : Nat) (side : Nat) (src : Nat) (arg : Nat) (s : State)  : vw.at (jIgnored t d side src arg s) = vw.at s := by
  simp [jIgnored, *]

@[simp] theorem fireJ_view (hx_regs : vw.free .regs) (hx_mem : vw.free .mem) (hx_tenants : vw.free .tenants) (hx_devices : vw.free .devices) (hx_journal : vw.free .journal) (hx_links : vw.free .links) (hx_hot : vw.free .hot) (hx_fresh : vw.free .fresh) (t d side src arg : Nat) (tag : Option Nat) (s : State) : vw.at (fireJ t d side src arg tag s).1 = vw.at s := by
  unfold fireJ
  repeat' split
  · rename_i g; simpa [*] using fireSrc_view vw (by assumption) (by assumption) (by assumption) (by assumption) (by assumption) (by assumption) (by assumption) (by assumption) _ _ _ _ _ _ _ _ g
  · simp [*]
  · simp [*]

theorem runOp_view (hx_regs : vw.free .regs) (hx_mem : vw.free .mem) (hx_tenants : vw.free .tenants) (hx_devices : vw.free .devices) (hx_chans : vw.free .chans) (hx_journal : vw.free .journal) (hx_links : vw.free .links) (hx_group : vw.free .group) (hx_host : vw.free .host) (hx_admin : vw.free .admin) (hx_hot : vw.free .hot) (hx_fresh : vw.free .fresh) (t d code kind tag : Nat) (p : List Byte) (s : State) : ∀ a, runOp t d code kind tag p s = some a → vw.at a.s = vw.at s := by
  intro a h
  unfold runOp at h
  dsimp only at h
  repeat' split at h
  all_goals first
    | (cases h; done)
    | (cases h; rename_i g; exact lcOp_view vw (by assumption) (by assumption) (by assumption) (by assumption) (by assumption) (by assumption) (by assumption) (by assumption) (by assumption) (by assumption) _ _ _ _ _ _ _ g)
    | (cases h; rename_i g; simpa [*] using fireSrc_view vw (by assumption) (by assumption) (by assumption) (by assumption) (by assumption) (by assumption) (by assumption) (by assumption) _ _ _ _ _ _ _ _ g)
    | (cases h; rfl)

@[simp] theorem afterOp_view (hx_devices : vw.free .devices) (t d code kind tag us : Nat) (p : List Byte) (a : FAcc) : vw.at (afterOp t d code kind tag us p a) = vw.at a.s := by
  unfold afterOp
  repeat' split
  all_goals simp [*, seqStart]

@[simp] theorem jConflict_view (hx_regs : vw.free .regs) (hx_journal : vw.free .journal) (hx_links : vw.free .links) (hx_hot : vw.free .hot) (t : Nat) (d : Nat) (tag : Nat) (op : Nat) (st : Nat) (s : State)  : vw.at (jConflict t d tag op st s) = vw.at s := by
  simp [jConflict, *]

@[simp] theorem judgeX_view (hx_regs : vw.free .regs) (hx_mem : vw.free .mem) (hx_tenants : vw.free .tenants) (hx_devices : vw.free .devices) (hx_chans : vw.free .chans) (hx_journal : vw.free .journal) (hx_links : vw.free .links) (hx_group : vw.free .group) (hx_host : vw.free .host) (hx_admin : vw.free .admin) (hx_hot : vw.free .hot) (hx_fresh : vw.free .fresh) (t d code : Nat) (p : List Byte) (tag : Option Nat) (s : State) : vw.at (judgeX t d code p tag s).1 = vw.at s := by
  unfold judgeX
  dsimp only
  split
  · split_ifs <;> simp [*]
  · split
    · rename_i g; simp [*, runOp_view vw (by assumption) (by assumption) (by assumption) (by assumption) (by assumption) (by assumption) (by assumption) (by assumption) (by assumption) (by assumption) (by assumption) (by assumption) _ _ _ _ _ _ _ _ g]
    · dsimp only; split_ifs <;> simp [*]

@[simp] theorem classOp_view (hx_regs : vw.free .regs) (hx_mem : vw.free .mem) (hx_tenants : vw.free .tenants) (hx_devices : vw.free .devices) (hx_chans : vw.free .chans) (hx_journal : vw.free .journal) (hx_links : vw.free .links) (hx_group : vw.free .group) (hx_host : vw.free .host) (hx_admin : vw.free .admin) (hx_hot : vw.free .hot) (hx_fresh : vw.free .fresh) (t d code tag : Nat) (p : List Byte) (s : State) : vw.at (classOp t d code tag p s).2.1 = vw.at s := by
  unfold classOp
  dsimp only
  repeat' split
  all_goals first
    | (simp [*]; done)
    | (split_ifs <;> simp [*]; done)
    | (rename_i g; simp [*, runOp_view vw (by assumption) (by assumption) (by assumption) (by assumption) (by assumption) (by assumption) (by assumption) (by assumption) (by assumption) (by assumption) (by assumption) (by assumption) _ _ _ _ _ _ _ _ g])

@[simp] theorem addReading_view (hx_journal : vw.free .journal) (t : Nat) (d : Nat) (k : Packet) (body : List Byte) (s : State)  : vw.at (addReading t d k body s).2 = vw.at s := by
  simp only [addReading]
  repeat' split
  all_goals simp [*]

@[simp] theorem settleCheck_view (hx_regs : vw.free .regs) (hx_journal : vw.free .journal) (hx_links : vw.free .links) (hx_hot : vw.free .hot) (t : Nat) (d : Nat) (s : State)  : vw.at (settleCheck t d s) = vw.at s := by
  unfold settleCheck
  repeat' split
  all_goals simp [*]

@[simp] theorem packetFire_view (hx_regs : vw.free .regs) (hx_mem : vw.free .mem) (hx_tenants : vw.free .tenants) (hx_devices : vw.free .devices) (hx_journal : vw.free .journal) (hx_links : vw.free .links) (hx_hot : vw.free .hot) (hx_fresh : vw.free .fresh) (t d pk : Nat) (img : List Byte) (ps : Parsed) (s : State) : vw.at (packetFire t d pk img ps s).2.s = vw.at s := by
  have h : ∀ (p : Prop) [Decidable p] (x : State), vw.at x = vw.at s → vw.at (if p then x else s) = vw.at s := by
    intro p _ x hx; split
    · exact hx
    · rfl
  unfold packetFire
  dsimp only
  split
  · split
    · rw [fireNo_view vw (by assumption) (by assumption) (by assumption) (by assumption) (by assumption) (by assumption) (by assumption) (by assumption)]; exact h _ _ (by simp [*])
    · exact h _ _ (by simp [*])
  · exact h _ _ (by simp [*])

@[simp] theorem packetTrace_view (hx_journal : vw.free .journal) (t : Nat) (d : Nat) (k : Packet) (wt : Option (List Byte)) (s : State)  : vw.at (packetTrace t d k wt s).2 = vw.at s := by
  unfold packetTrace
  repeat' split
  all_goals simp [*]

@[simp] theorem packetShow_view (hx_regs : vw.free .regs) (hx_mem : vw.free .mem) (hx_tenants : vw.free .tenants) (hx_journal : vw.free .journal) (hx_links : vw.free .links) (hx_hot : vw.free .hot) (t : Nat) (d : Nat) (k : Packet) (x : DeviceSt) (s : State)  : vw.at (packetShow t d k x s) = vw.at s := by
  simp only [packetShow]
  repeat' split
  all_goals simp [*]

@[simp] theorem packetItem_view (hx_regs : vw.free .regs) (hx_mem : vw.free .mem) (hx_tenants : vw.free .tenants) (hx_devices : vw.free .devices) (hx_journal : vw.free .journal) (hx_links : vw.free .links) (hx_hot : vw.free .hot) (hx_fresh : vw.free .fresh) (t : Nat) (d : Nat) (k : Packet) (s : State)  : vw.at (packetItem t d k s).1 = vw.at s := by
  simp only [packetItem]
  repeat' split
  all_goals simp [*]

@[simp] theorem becameActive_view (hx_devices : vw.free .devices) (t : Nat) (d : Nat) (s : State)  : vw.at (becameActive t d s).1 = vw.at s := by
  simp [becameActive, *]

@[simp] theorem portItem_view (hx_regs : vw.free .regs) (hx_mem : vw.free .mem) (hx_tenants : vw.free .tenants) (hx_devices : vw.free .devices) (hx_journal : vw.free .journal) (hx_links : vw.free .links) (hx_hot : vw.free .hot) (t : Nat) (d : Nat) (code : Nat) (arg : Nat) (s : State)  : vw.at (portItem t d code arg s).1 = vw.at s := by
  unfold portItem
  repeat' split
  all_goals simp [*]

@[simp] theorem loadItem_view (hx_regs : vw.free .regs) (hx_mem : vw.free .mem) (hx_tenants : vw.free .tenants) (hx_devices : vw.free .devices) (hx_journal : vw.free .journal) (hx_links : vw.free .links) (hx_hot : vw.free .hot) (t : Nat) (d : Nat) (kind : Nat) (s : State)  : vw.at (loadItem t d kind s) = vw.at s := by
  simp only [loadItem]
  repeat' split
  all_goals simp [*]

@[simp] theorem timerItem_view (hx_regs : vw.free .regs) (hx_mem : vw.free .mem) (hx_tenants : vw.free .tenants) (hx_devices : vw.free .devices) (hx_journal : vw.free .journal) (hx_links : vw.free .links) (hx_hot : vw.free .hot) (hx_fresh : vw.free .fresh) (t : Nat) (d : Nat) (side : Nat) (i : Nat) (s : State)  : vw.at (timerItem t d side i s).1 = vw.at s := by
  unfold timerItem
  split <;> simp [*]

@[simp] theorem itemWork_view (hx_regs : vw.free .regs) (hx_mem : vw.free .mem) (hx_tenants : vw.free .tenants) (hx_devices : vw.free .devices) (hx_journal : vw.free .journal) (hx_links : vw.free .links) (hx_hot : vw.free .hot) (hx_fresh : vw.free .fresh) (t : Nat) (d : Nat) (h : HItem) (s : State)  : vw.at (itemWork t d h s).1 = vw.at s := by
  simp only [itemWork]
  repeat' split
  all_goals simp [*]

@[simp] theorem afterWork_view (hx_regs : vw.free .regs) (hx_mem : vw.free .mem) (hx_tenants : vw.free .tenants) (hx_devices : vw.free .devices) (hx_journal : vw.free .journal) (hx_links : vw.free .links) (hx_hot : vw.free .hot) (t : Nat) (d : Nat) (s : State)  : vw.at (afterWork t d s).1 = vw.at s := by
  simp only [afterWork]
  repeat' split
  all_goals simp [*]

@[simp] theorem levelWork_view (hx_regs : vw.free .regs) (hx_mem : vw.free .mem) (hx_tenants : vw.free .tenants) (hx_devices : vw.free .devices) (hx_chans : vw.free .chans) (hx_journal : vw.free .journal) (hx_links : vw.free .links) (hx_group : vw.free .group) (hx_host : vw.free .host) (hx_admin : vw.free .admin) (hx_hot : vw.free .hot) (hx_fresh : vw.free .fresh) (t d : Nat) (ls : List (Nat × List Byte)) (s : State) : vw.at (levelWork t d ls s).1 = vw.at s := by
  cases ls with
  | nil => rfl
  | cons q ls =>
    obtain ⟨k, p⟩ := q
    unfold levelWork
    dsimp only
    split
    · rename_i g; exact lcOp_view vw (by assumption) (by assumption) (by assumption) (by assumption) (by assumption) (by assumption) (by assumption) (by assumption) (by assumption) (by assumption) _ _ _ _ _ _ _ g
    · split <;> simp [*]

@[simp] theorem streamRecord_view (hx_regs : vw.free .regs) (hx_mem : vw.free .mem) (hx_tenants : vw.free .tenants) (hx_devices : vw.free .devices) (hx_journal : vw.free .journal) (hx_links : vw.free .links) (hx_hot : vw.free .hot) (hx_fresh : vw.free .fresh) (t d : Nat) (img cut rest : List Byte) (fl : Nat) (last : Bool) (tag : Nat) (s : State) :
    vw.at (streamRecord t d img cut rest fl last tag s).1 = vw.at s := by
  unfold streamRecord
  generalize parsePkt (formats img) cut = ps
  dsimp only
  split
  · split_ifs <;> simp [*]
  · split
    · split_ifs <;> simp [*]
    · split
      · split_ifs <;> simp [*]
      · split_ifs <;> simp [*]

@[simp] theorem streamWork_view (hx_regs : vw.free .regs) (hx_mem : vw.free .mem) (hx_tenants : vw.free .tenants) (hx_devices : vw.free .devices) (hx_journal : vw.free .journal) (hx_links : vw.free .links) (hx_hot : vw.free .hot) (hx_fresh : vw.free .fresh) (t : Nat) (d : Nat) (bytes : List Byte) (last : Bool) (tag : Nat) (s : State)  : vw.at (streamWork t d bytes last tag s).1 = vw.at s := by
  simp only [streamWork]
  repeat' split
  all_goals simp [*]

@[simp] theorem machWork_view (hx_regs : vw.free .regs) (hx_mem : vw.free .mem) (hx_tenants : vw.free .tenants) (hx_devices : vw.free .devices) (hx_chans : vw.free .chans) (hx_journal : vw.free .journal) (hx_links : vw.free .links) (hx_group : vw.free .group) (hx_host : vw.free .host) (hx_admin : vw.free .admin) (hx_hot : vw.free .hot) (hx_fresh : vw.free .fresh) (t d : Nat) (m : MachIn) (s : State) : vw.at (machWork t d m s).1 = vw.at s := by
  unfold machWork
  split
  · simp [*]
  · split
    · split
      · rename_i g; simpa [*] using fireSrc_view vw (by assumption) (by assumption) (by assumption) (by assumption) (by assumption) (by assumption) (by assumption) (by assumption) _ _ _ _ _ _ _ _ g
      · simp [*]
      · dsimp only; split_ifs <;> simp [*]
    · split_ifs <;> simp [*]

@[simp] theorem tellFar_view (hx_links : vw.free .links) (kind : Nat) (t : Nat) (d : Nat) (p : Nat) (s : State)  : vw.at (tellFar kind t d p s) = vw.at s := by
  simp [tellFar, *]

@[simp] theorem bindNow_view (hx_regs : vw.free .regs) (hx_devices : vw.free .devices) (hx_ports : vw.free .ports) (hx_links : vw.free .links) (hx_fresh : vw.free .fresh) (t : Nat) (d : Nat) (r : List Byte) (s : State)  : vw.at (bindNow t d r s) = vw.at s := by
  simp only [bindNow]
  repeat' split
  all_goals simp [*]

@[simp] theorem takeOneshots_view (hx_tenants : vw.free .tenants) (hx_remote : vw.free .remote) (hx_delayed : vw.free .delayed) (hx_group : vw.free .group) (t : Nat) (d : Nat) (s : State)  : vw.at (takeOneshots t d s) = vw.at s := by
  simp [takeOneshots, *]

@[simp] theorem unbindDev_view (hx_regs : vw.free .regs) (hx_mem : vw.free .mem) (hx_tenants : vw.free .tenants) (hx_devices : vw.free .devices) (hx_ports : vw.free .ports) (hx_journal : vw.free .journal) (hx_remote : vw.free .remote) (hx_delayed : vw.free .delayed) (hx_links : vw.free .links) (hx_group : vw.free .group) (hx_hot : vw.free .hot) (t : Nat) (d : Nat) (report : Bool) (s : State)  : vw.at (unbindDev t d report s) = vw.at s := by
  simp only [unbindDev]
  repeat' split
  all_goals simp [*]

@[simp] theorem loadClear_view (hx_regs : vw.free .regs) (hx_tenants : vw.free .tenants) (hx_chans : vw.free .chans) (hx_journal : vw.free .journal) (hx_links : vw.free .links) (hx_group : vw.free .group) (hx_host : vw.free .host) (hx_admin : vw.free .admin) (hx_hot : vw.free .hot) (hx_fresh : vw.free .fresh) (t : Nat) (d : Nat) (tag : Nat) (s : State)  : vw.at (loadClear t d tag s).2.2 = vw.at s := by
  simp only [loadClear]
  repeat' split
  all_goals simp [*]

@[simp] theorem rawSend_view (hx_regs : vw.free .regs) (hx_mem : vw.free .mem) (hx_tenants : vw.free .tenants) (hx_devices : vw.free .devices) (hx_journal : vw.free .journal) (hx_links : vw.free .links) (hx_hot : vw.free .hot) (t : Nat) (d : Nat) (tag : Nat) (last : Bool) (p : List Byte) (s : State)  : vw.at (rawSend t d tag last p s) = vw.at s := by
  unfold rawSend
  split <;> simp [*]

@[simp] theorem dataSendOp_view (hx_regs : vw.free .regs) (hx_mem : vw.free .mem) (hx_tenants : vw.free .tenants) (hx_devices : vw.free .devices) (hx_journal : vw.free .journal) (hx_links : vw.free .links) (hx_hot : vw.free .hot) (t : Nat) (d : Nat) (tag : Nat) (last : Bool) (p : List Byte) (s : State)  : vw.at (dataSendOp t d tag last p s).2.1 = vw.at s := by
  simp only [dataSendOp]
  repeat' split
  all_goals simp [*]

@[simp] theorem devCommand_view (hx_regs : vw.free .regs) (hx_mem : vw.free .mem) (hx_tenants : vw.free .tenants) (hx_devices : vw.free .devices) (hx_ports : vw.free .ports) (hx_chans : vw.free .chans) (hx_journal : vw.free .journal) (hx_remote : vw.free .remote) (hx_delayed : vw.free .delayed) (hx_links : vw.free .links) (hx_group : vw.free .group) (hx_host : vw.free .host) (hx_admin : vw.free .admin) (hx_hot : vw.free .hot) (hx_fresh : vw.free .fresh) (t : Nat) (d : Nat) (sl : Slot) (s : State)  : vw.at (devCommand t d sl s).1 = vw.at s := by
  simp only [devCommand]
  repeat' split
  all_goals simp [*]

@[simp] theorem workStep_view (hx_regs : vw.free .regs) (hx_mem : vw.free .mem) (hx_tenants : vw.free .tenants) (hx_devices : vw.free .devices) (hx_ports : vw.free .ports) (hx_chans : vw.free .chans) (hx_journal : vw.free .journal) (hx_remote : vw.free .remote) (hx_delayed : vw.free .delayed) (hx_links : vw.free .links) (hx_group : vw.free .group) (hx_host : vw.free .host) (hx_admin : vw.free .admin) (hx_hot : vw.free .hot) (hx_fresh : vw.free .fresh) (t : Nat) (d : Nat) (w : Work) (s : State)  : vw.at (workStep t d w s).1 = vw.at s := by
  unfold workStep
  split <;> simp [*]

@[simp] theorem carry_view (hx_regs : vw.free .regs) (hx_devices : vw.free .devices) (hx_journal : vw.free .journal) (hx_links : vw.free .links) (hx_hot : vw.free .hot) (t : Nat) (d : Nat) (ws : List Work) (s : State)  : vw.at (carry t d ws s) = vw.at s := by
  unfold carry
  split <;> simp [*]

@[simp] theorem runWork_view (hx_regs : vw.free .regs) (hx_mem : vw.free .mem) (hx_tenants : vw.free .tenants) (hx_devices : vw.free .devices) (hx_ports : vw.free .ports) (hx_chans : vw.free .chans) (hx_journal : vw.free .journal) (hx_remote : vw.free .remote) (hx_delayed : vw.free .delayed) (hx_links : vw.free .links) (hx_group : vw.free .group) (hx_host : vw.free .host) (hx_admin : vw.free .admin) (hx_hot : vw.free .hot) (hx_fresh : vw.free .fresh) (k t d : Nat) (ws : List Work) (s : State) : vw.at (runWork k t d ws s) = vw.at s := by
  induction k generalizing ws s with
  | zero => simp [*, runWork]
  | succ k ih =>
    unfold runWork
    split
    · rfl
    · split <;> simp [*, ih]

@[simp] theorem giveWork_view (hx_regs : vw.free .regs) (hx_mem : vw.free .mem) (hx_tenants : vw.free .tenants) (hx_devices : vw.free .devices) (hx_ports : vw.free .ports) (hx_chans : vw.free .chans) (hx_journal : vw.free .journal) (hx_remote : vw.free .remote) (hx_delayed : vw.free .delayed) (hx_links : vw.free .links) (hx_group : vw.free .group) (hx_host : vw.free .host) (hx_admin : vw.free .admin) (hx_hot : vw.free .hot) (hx_fresh : vw.free .fresh) (t : Nat) (d : Nat) (w : Work) (s : State)  : vw.at (giveWork t d w s) = vw.at s := by
  unfold giveWork
  split <;> simp [*]

@[simp] theorem tenantCommand_view (hx_regs : vw.free .regs) (hx_mem : vw.free .mem) (hx_tenants : vw.free .tenants) (hx_devices : vw.free .devices) (hx_ports : vw.free .ports) (hx_pads : vw.free .pads) (hx_fifos : vw.free .fifos) (hx_chans : vw.free .chans) (hx_journal : vw.free .journal) (hx_remote : vw.free .remote) (hx_delayed : vw.free .delayed) (hx_links : vw.free .links) (hx_group : vw.free .group) (hx_hot : vw.free .hot) (t : Nat) (sl : Slot) (s : State)  : vw.at (tenantCommand t sl s) = vw.at s := by
  unfold tenantCommand
  repeat' split
  all_goals simp [*]

@[simp] theorem processSlot_view (hx_regs : vw.free .regs) (hx_mem : vw.free .mem) (hx_tenants : vw.free .tenants) (hx_devices : vw.free .devices) (hx_ports : vw.free .ports) (hx_pads : vw.free .pads) (hx_fifos : vw.free .fifos) (hx_chans : vw.free .chans) (hx_journal : vw.free .journal) (hx_remote : vw.free .remote) (hx_delayed : vw.free .delayed) (hx_links : vw.free .links) (hx_group : vw.free .group) (hx_host : vw.free .host) (hx_admin : vw.free .admin) (hx_hot : vw.free .hot) (hx_fresh : vw.free .fresh) (t : Nat) (sl : Slot) (s : State)  : vw.at (processSlot t sl s) = vw.at s := by
  simp only [processSlot]
  repeat' split
  all_goals simp [*]

@[simp] theorem reapplyDev_view (hx_regs : vw.free .regs) (hx_mem : vw.free .mem) (hx_tenants : vw.free .tenants) (hx_devices : vw.free .devices) (hx_ports : vw.free .ports) (hx_chans : vw.free .chans) (hx_journal : vw.free .journal) (hx_remote : vw.free .remote) (hx_delayed : vw.free .delayed) (hx_links : vw.free .links) (hx_group : vw.free .group) (hx_host : vw.free .host) (hx_admin : vw.free .admin) (hx_hot : vw.free .hot) (hx_fresh : vw.free .fresh) (t : Nat) (d : Nat) (s : State)  : vw.at (reapplyDev t d s) = vw.at s := by
  unfold reapplyDev
  split <;> simp [*]

@[simp] theorem whileActive_view (t : Nat) (f : State → State) (s : State) (hf : ∀ y0, vw.at (f y0) = vw.at y0)  : vw.at (whileActive t f s) = vw.at s := by
  unfold whileActive
  split <;> simp [*]

@[simp] theorem processSet_view (hx_regs : vw.free .regs) (hx_mem : vw.free .mem) (hx_tenants : vw.free .tenants) (hx_devices : vw.free .devices) (hx_ports : vw.free .ports) (hx_pads : vw.free .pads) (hx_fifos : vw.free .fifos) (hx_chans : vw.free .chans) (hx_journal : vw.free .journal) (hx_remote : vw.free .remote) (hx_delayed : vw.free .delayed) (hx_links : vw.free .links) (hx_group : vw.free .group) (hx_host : vw.free .host) (hx_admin : vw.free .admin) (hx_hot : vw.free .hot) (hx_fresh : vw.free .fresh) (t : Nat) (h : HandSet) (s : State) : vw.at (processSet t h s) = vw.at s := by
  unfold processSet
  dsimp only
  simp (maxDischargeDepth := 8) [*]

@[simp] theorem execHandoffProcess_view (hx_regs : vw.free .regs) (hx_mem : vw.free .mem) (hx_time : vw.free .time) (hx_tenants : vw.free .tenants) (hx_devices : vw.free .devices) (hx_ports : vw.free .ports) (hx_pads : vw.free .pads) (hx_fifos : vw.free .fifos) (hx_chans : vw.free .chans) (hx_journal : vw.free .journal) (hx_remote : vw.free .remote) (hx_delayed : vw.free .delayed) (hx_links : vw.free .links) (hx_group : vw.free .group) (hx_host : vw.free .host) (hx_admin : vw.free .admin) (hx_hot : vw.free .hot) (hx_fresh : vw.free .fresh) (t : TenantId) (s : State)  : NextP (fun t => vw.at t = vw.at s) (execHandoffProcess t s) := by
  unfold execHandoffProcess
  repeat' split
  all_goals simp [*]

@[simp] theorem execSeqTimeout_view (hx_time : vw.free .time) (hx_tenants : vw.free .tenants) (hx_devices : vw.free .devices) (hx_group : vw.free .group) (t : TenantId) (d : DevId) (s : State)  : NextP (fun t => vw.at t = vw.at s) (execSeqTimeout t d s) := by
  unfold execSeqTimeout
  split <;> simp [*]

@[simp] theorem execMachineTimerExpiry_view (hx_time : vw.free .time) (hx_tenants : vw.free .tenants) (hx_devices : vw.free .devices) (hx_group : vw.free .group) (t : TenantId) (d : DevId) (side : Fin 2) (timer : Fin 4) (s : State)  : NextP (fun t => vw.at t = vw.at s) (execMachineTimerExpiry t d side timer s) := by
  unfold execMachineTimerExpiry
  split <;> simp [*]

@[simp] theorem tenantOp_view (hx_regs : vw.free .regs) (hx_mem : vw.free .mem) (hx_tenants : vw.free .tenants) (hx_devices : vw.free .devices) (hx_ports : vw.free .ports) (hx_pads : vw.free .pads) (hx_fifos : vw.free .fifos) (hx_chans : vw.free .chans) (hx_journal : vw.free .journal) (hx_remote : vw.free .remote) (hx_delayed : vw.free .delayed) (hx_links : vw.free .links) (hx_group : vw.free .group) (hx_host : vw.free .host) (hx_admin : vw.free .admin) (hx_hot : vw.free .hot) (hx_fresh : vw.free .fresh) (op : Nat) (x : TCmd) (s : State)  : NextP (fun t => vw.at t = vw.at s) (tenantOp op x s) := by
  simp [tenantOp, *]

@[simp] theorem execKysanNop_view (hx_regs : vw.free .regs) (hx_mem : vw.free .mem) (hx_tenants : vw.free .tenants) (hx_devices : vw.free .devices) (hx_ports : vw.free .ports) (hx_pads : vw.free .pads) (hx_fifos : vw.free .fifos) (hx_chans : vw.free .chans) (hx_journal : vw.free .journal) (hx_remote : vw.free .remote) (hx_delayed : vw.free .delayed) (hx_links : vw.free .links) (hx_group : vw.free .group) (hx_host : vw.free .host) (hx_admin : vw.free .admin) (hx_hot : vw.free .hot) (hx_fresh : vw.free .fresh) (x : TCmd) (s : State)  : NextP (fun t => vw.at t = vw.at s) (execKysanNop x s) := by
  simp [execKysanNop, *]

@[simp] theorem execIdentify_view (hx_regs : vw.free .regs) (hx_mem : vw.free .mem) (hx_tenants : vw.free .tenants) (hx_devices : vw.free .devices) (hx_ports : vw.free .ports) (hx_pads : vw.free .pads) (hx_fifos : vw.free .fifos) (hx_chans : vw.free .chans) (hx_journal : vw.free .journal) (hx_remote : vw.free .remote) (hx_delayed : vw.free .delayed) (hx_links : vw.free .links) (hx_group : vw.free .group) (hx_host : vw.free .host) (hx_admin : vw.free .admin) (hx_hot : vw.free .hot) (hx_fresh : vw.free .fresh) (x : TCmd) (s : State)  : NextP (fun t => vw.at t = vw.at s) (execIdentify x s) := by
  simp [execIdentify, *]

@[simp] theorem execTenantStatus_view (hx_regs : vw.free .regs) (hx_mem : vw.free .mem) (hx_tenants : vw.free .tenants) (hx_devices : vw.free .devices) (hx_ports : vw.free .ports) (hx_pads : vw.free .pads) (hx_fifos : vw.free .fifos) (hx_chans : vw.free .chans) (hx_journal : vw.free .journal) (hx_remote : vw.free .remote) (hx_delayed : vw.free .delayed) (hx_links : vw.free .links) (hx_group : vw.free .group) (hx_host : vw.free .host) (hx_admin : vw.free .admin) (hx_hot : vw.free .hot) (hx_fresh : vw.free .fresh) (x : TCmd) (s : State)  : NextP (fun t => vw.at t = vw.at s) (execTenantStatus x s) := by
  simp [execTenantStatus, *]

@[simp] theorem execDeviceQuery_view (hx_regs : vw.free .regs) (hx_mem : vw.free .mem) (hx_tenants : vw.free .tenants) (hx_devices : vw.free .devices) (hx_ports : vw.free .ports) (hx_pads : vw.free .pads) (hx_fifos : vw.free .fifos) (hx_chans : vw.free .chans) (hx_journal : vw.free .journal) (hx_remote : vw.free .remote) (hx_delayed : vw.free .delayed) (hx_links : vw.free .links) (hx_group : vw.free .group) (hx_host : vw.free .host) (hx_admin : vw.free .admin) (hx_hot : vw.free .hot) (hx_fresh : vw.free .fresh) (x : TCmd) (s : State)  : NextP (fun t => vw.at t = vw.at s) (execDeviceQuery x s) := by
  simp [execDeviceQuery, *]

@[simp] theorem execBind_view (hx_regs : vw.free .regs) (hx_mem : vw.free .mem) (hx_tenants : vw.free .tenants) (hx_devices : vw.free .devices) (hx_ports : vw.free .ports) (hx_pads : vw.free .pads) (hx_fifos : vw.free .fifos) (hx_chans : vw.free .chans) (hx_journal : vw.free .journal) (hx_remote : vw.free .remote) (hx_delayed : vw.free .delayed) (hx_links : vw.free .links) (hx_group : vw.free .group) (hx_host : vw.free .host) (hx_admin : vw.free .admin) (hx_hot : vw.free .hot) (hx_fresh : vw.free .fresh) (x : TCmd) (s : State)  : NextP (fun t => vw.at t = vw.at s) (execBind x s) := by
  simp [execBind, *]

@[simp] theorem execUnbind_view (hx_regs : vw.free .regs) (hx_mem : vw.free .mem) (hx_tenants : vw.free .tenants) (hx_devices : vw.free .devices) (hx_ports : vw.free .ports) (hx_pads : vw.free .pads) (hx_fifos : vw.free .fifos) (hx_chans : vw.free .chans) (hx_journal : vw.free .journal) (hx_remote : vw.free .remote) (hx_delayed : vw.free .delayed) (hx_links : vw.free .links) (hx_group : vw.free .group) (hx_host : vw.free .host) (hx_admin : vw.free .admin) (hx_hot : vw.free .hot) (hx_fresh : vw.free .fresh) (x : TCmd) (s : State)  : NextP (fun t => vw.at t = vw.at s) (execUnbind x s) := by
  simp [execUnbind, *]

@[simp] theorem execDataSend_view (hx_regs : vw.free .regs) (hx_mem : vw.free .mem) (hx_tenants : vw.free .tenants) (hx_devices : vw.free .devices) (hx_ports : vw.free .ports) (hx_pads : vw.free .pads) (hx_fifos : vw.free .fifos) (hx_chans : vw.free .chans) (hx_journal : vw.free .journal) (hx_remote : vw.free .remote) (hx_delayed : vw.free .delayed) (hx_links : vw.free .links) (hx_group : vw.free .group) (hx_host : vw.free .host) (hx_admin : vw.free .admin) (hx_hot : vw.free .hot) (hx_fresh : vw.free .fresh) (x : TCmd) (s : State)  : NextP (fun t => vw.at t = vw.at s) (execDataSend x s) := by
  simp [execDataSend, *]

@[simp] theorem execTenantReset_view (hx_regs : vw.free .regs) (hx_mem : vw.free .mem) (hx_tenants : vw.free .tenants) (hx_devices : vw.free .devices) (hx_ports : vw.free .ports) (hx_pads : vw.free .pads) (hx_fifos : vw.free .fifos) (hx_chans : vw.free .chans) (hx_journal : vw.free .journal) (hx_remote : vw.free .remote) (hx_delayed : vw.free .delayed) (hx_links : vw.free .links) (hx_group : vw.free .group) (hx_host : vw.free .host) (hx_admin : vw.free .admin) (hx_hot : vw.free .hot) (hx_fresh : vw.free .fresh) (x : TCmd) (s : State)  : NextP (fun t => vw.at t = vw.at s) (execTenantReset x s) := by
  simp [execTenantReset, *]

@[simp] theorem execClearDegraded_view (hx_regs : vw.free .regs) (hx_mem : vw.free .mem) (hx_tenants : vw.free .tenants) (hx_devices : vw.free .devices) (hx_ports : vw.free .ports) (hx_pads : vw.free .pads) (hx_fifos : vw.free .fifos) (hx_chans : vw.free .chans) (hx_journal : vw.free .journal) (hx_remote : vw.free .remote) (hx_delayed : vw.free .delayed) (hx_links : vw.free .links) (hx_group : vw.free .group) (hx_host : vw.free .host) (hx_admin : vw.free .admin) (hx_hot : vw.free .hot) (hx_fresh : vw.free .fresh) (x : TCmd) (s : State)  : NextP (fun t => vw.at t = vw.at s) (execClearDegraded x s) := by
  simp [execClearDegraded, *]

@[simp] theorem execLoadClear_view (hx_regs : vw.free .regs) (hx_mem : vw.free .mem) (hx_tenants : vw.free .tenants) (hx_devices : vw.free .devices) (hx_ports : vw.free .ports) (hx_pads : vw.free .pads) (hx_fifos : vw.free .fifos) (hx_chans : vw.free .chans) (hx_journal : vw.free .journal) (hx_remote : vw.free .remote) (hx_delayed : vw.free .delayed) (hx_links : vw.free .links) (hx_group : vw.free .group) (hx_host : vw.free .host) (hx_admin : vw.free .admin) (hx_hot : vw.free .hot) (hx_fresh : vw.free .fresh) (x : TCmd) (s : State)  : NextP (fun t => vw.at t = vw.at s) (execLoadClear x s) := by
  simp [execLoadClear, *]

@[simp] theorem execScannerEnable_view (hx_regs : vw.free .regs) (hx_mem : vw.free .mem) (hx_tenants : vw.free .tenants) (hx_devices : vw.free .devices) (hx_ports : vw.free .ports) (hx_pads : vw.free .pads) (hx_fifos : vw.free .fifos) (hx_chans : vw.free .chans) (hx_journal : vw.free .journal) (hx_remote : vw.free .remote) (hx_delayed : vw.free .delayed) (hx_links : vw.free .links) (hx_group : vw.free .group) (hx_host : vw.free .host) (hx_admin : vw.free .admin) (hx_hot : vw.free .hot) (hx_fresh : vw.free .fresh) (x : TCmd) (s : State)  : NextP (fun t => vw.at t = vw.at s) (execScannerEnable x s) := by
  simp [execScannerEnable, *]

@[simp] theorem execScannerDisable_view (hx_regs : vw.free .regs) (hx_mem : vw.free .mem) (hx_tenants : vw.free .tenants) (hx_devices : vw.free .devices) (hx_ports : vw.free .ports) (hx_pads : vw.free .pads) (hx_fifos : vw.free .fifos) (hx_chans : vw.free .chans) (hx_journal : vw.free .journal) (hx_remote : vw.free .remote) (hx_delayed : vw.free .delayed) (hx_links : vw.free .links) (hx_group : vw.free .group) (hx_host : vw.free .host) (hx_admin : vw.free .admin) (hx_hot : vw.free .hot) (hx_fresh : vw.free .fresh) (x : TCmd) (s : State)  : NextP (fun t => vw.at t = vw.at s) (execScannerDisable x s) := by
  simp [execScannerDisable, *]

@[simp] theorem execScannerBeep_view (hx_regs : vw.free .regs) (hx_mem : vw.free .mem) (hx_tenants : vw.free .tenants) (hx_devices : vw.free .devices) (hx_ports : vw.free .ports) (hx_pads : vw.free .pads) (hx_fifos : vw.free .fifos) (hx_chans : vw.free .chans) (hx_journal : vw.free .journal) (hx_remote : vw.free .remote) (hx_delayed : vw.free .delayed) (hx_links : vw.free .links) (hx_group : vw.free .group) (hx_host : vw.free .host) (hx_admin : vw.free .admin) (hx_hot : vw.free .hot) (hx_fresh : vw.free .fresh) (x : TCmd) (s : State)  : NextP (fun t => vw.at t = vw.at s) (execScannerBeep x s) := by
  simp [execScannerBeep, *]

@[simp] theorem execUnits_view (hx_regs : vw.free .regs) (hx_mem : vw.free .mem) (hx_tenants : vw.free .tenants) (hx_devices : vw.free .devices) (hx_ports : vw.free .ports) (hx_pads : vw.free .pads) (hx_fifos : vw.free .fifos) (hx_chans : vw.free .chans) (hx_journal : vw.free .journal) (hx_remote : vw.free .remote) (hx_delayed : vw.free .delayed) (hx_links : vw.free .links) (hx_group : vw.free .group) (hx_host : vw.free .host) (hx_admin : vw.free .admin) (hx_hot : vw.free .hot) (hx_fresh : vw.free .fresh) (x : TCmd) (s : State)  : NextP (fun t => vw.at t = vw.at s) (execUnits x s) := by
  simp [execUnits, *]

@[simp] theorem execTare_view (hx_regs : vw.free .regs) (hx_mem : vw.free .mem) (hx_tenants : vw.free .tenants) (hx_devices : vw.free .devices) (hx_ports : vw.free .ports) (hx_pads : vw.free .pads) (hx_fifos : vw.free .fifos) (hx_chans : vw.free .chans) (hx_journal : vw.free .journal) (hx_remote : vw.free .remote) (hx_delayed : vw.free .delayed) (hx_links : vw.free .links) (hx_group : vw.free .group) (hx_host : vw.free .host) (hx_admin : vw.free .admin) (hx_hot : vw.free .hot) (hx_fresh : vw.free .fresh) (x : TCmd) (s : State)  : NextP (fun t => vw.at t = vw.at s) (execTare x s) := by
  simp [execTare, *]

@[simp] theorem execZero_view (hx_regs : vw.free .regs) (hx_mem : vw.free .mem) (hx_tenants : vw.free .tenants) (hx_devices : vw.free .devices) (hx_ports : vw.free .ports) (hx_pads : vw.free .pads) (hx_fifos : vw.free .fifos) (hx_chans : vw.free .chans) (hx_journal : vw.free .journal) (hx_remote : vw.free .remote) (hx_delayed : vw.free .delayed) (hx_links : vw.free .links) (hx_group : vw.free .group) (hx_host : vw.free .host) (hx_admin : vw.free .admin) (hx_hot : vw.free .hot) (hx_fresh : vw.free .fresh) (x : TCmd) (s : State)  : NextP (fun t => vw.at t = vw.at s) (execZero x s) := by
  simp [execZero, *]

@[simp] theorem execWeigh_view (hx_regs : vw.free .regs) (hx_mem : vw.free .mem) (hx_tenants : vw.free .tenants) (hx_devices : vw.free .devices) (hx_ports : vw.free .ports) (hx_pads : vw.free .pads) (hx_fifos : vw.free .fifos) (hx_chans : vw.free .chans) (hx_journal : vw.free .journal) (hx_remote : vw.free .remote) (hx_delayed : vw.free .delayed) (hx_links : vw.free .links) (hx_group : vw.free .group) (hx_host : vw.free .host) (hx_admin : vw.free .admin) (hx_hot : vw.free .hot) (hx_fresh : vw.free .fresh) (x : TCmd) (s : State)  : NextP (fun t => vw.at t = vw.at s) (execWeigh x s) := by
  simp [execWeigh, *]

@[simp] theorem execText_view (hx_regs : vw.free .regs) (hx_mem : vw.free .mem) (hx_tenants : vw.free .tenants) (hx_devices : vw.free .devices) (hx_ports : vw.free .ports) (hx_pads : vw.free .pads) (hx_fifos : vw.free .fifos) (hx_chans : vw.free .chans) (hx_journal : vw.free .journal) (hx_remote : vw.free .remote) (hx_delayed : vw.free .delayed) (hx_links : vw.free .links) (hx_group : vw.free .group) (hx_host : vw.free .host) (hx_admin : vw.free .admin) (hx_hot : vw.free .hot) (hx_fresh : vw.free .fresh) (x : TCmd) (s : State)  : NextP (fun t => vw.at t = vw.at s) (execText x s) := by
  simp [execText, *]

@[simp] theorem execBrightness_view (hx_regs : vw.free .regs) (hx_mem : vw.free .mem) (hx_tenants : vw.free .tenants) (hx_devices : vw.free .devices) (hx_ports : vw.free .ports) (hx_pads : vw.free .pads) (hx_fifos : vw.free .fifos) (hx_chans : vw.free .chans) (hx_journal : vw.free .journal) (hx_remote : vw.free .remote) (hx_delayed : vw.free .delayed) (hx_links : vw.free .links) (hx_group : vw.free .group) (hx_host : vw.free .host) (hx_admin : vw.free .admin) (hx_hot : vw.free .hot) (hx_fresh : vw.free .fresh) (x : TCmd) (s : State)  : NextP (fun t => vw.at t = vw.at s) (execBrightness x s) := by
  simp [execBrightness, *]

@[simp] theorem execCursor_view (hx_regs : vw.free .regs) (hx_mem : vw.free .mem) (hx_tenants : vw.free .tenants) (hx_devices : vw.free .devices) (hx_ports : vw.free .ports) (hx_pads : vw.free .pads) (hx_fifos : vw.free .fifos) (hx_chans : vw.free .chans) (hx_journal : vw.free .journal) (hx_remote : vw.free .remote) (hx_delayed : vw.free .delayed) (hx_links : vw.free .links) (hx_group : vw.free .group) (hx_host : vw.free .host) (hx_admin : vw.free .admin) (hx_hot : vw.free .hot) (hx_fresh : vw.free .fresh) (x : TCmd) (s : State)  : NextP (fun t => vw.at t = vw.at s) (execCursor x s) := by
  simp [execCursor, *]

@[simp] theorem execAttention_view (hx_regs : vw.free .regs) (hx_mem : vw.free .mem) (hx_tenants : vw.free .tenants) (hx_devices : vw.free .devices) (hx_ports : vw.free .ports) (hx_pads : vw.free .pads) (hx_fifos : vw.free .fifos) (hx_chans : vw.free .chans) (hx_journal : vw.free .journal) (hx_remote : vw.free .remote) (hx_delayed : vw.free .delayed) (hx_links : vw.free .links) (hx_group : vw.free .group) (hx_host : vw.free .host) (hx_admin : vw.free .admin) (hx_hot : vw.free .hot) (hx_fresh : vw.free .fresh) (x : TCmd) (s : State)  : NextP (fun t => vw.at t = vw.at s) (execAttention x s) := by
  simp [execAttention, *]

@[simp] theorem execDrawerKick_view (hx_regs : vw.free .regs) (hx_mem : vw.free .mem) (hx_tenants : vw.free .tenants) (hx_devices : vw.free .devices) (hx_ports : vw.free .ports) (hx_pads : vw.free .pads) (hx_fifos : vw.free .fifos) (hx_chans : vw.free .chans) (hx_journal : vw.free .journal) (hx_remote : vw.free .remote) (hx_delayed : vw.free .delayed) (hx_links : vw.free .links) (hx_group : vw.free .group) (hx_host : vw.free .host) (hx_admin : vw.free .admin) (hx_hot : vw.free .hot) (hx_fresh : vw.free .fresh) (x : TCmd) (s : State)  : NextP (fun t => vw.at t = vw.at s) (execDrawerKick x s) := by
  simp [execDrawerKick, *]

@[simp] theorem execCodepage_view (hx_regs : vw.free .regs) (hx_mem : vw.free .mem) (hx_tenants : vw.free .tenants) (hx_devices : vw.free .devices) (hx_ports : vw.free .ports) (hx_pads : vw.free .pads) (hx_fifos : vw.free .fifos) (hx_chans : vw.free .chans) (hx_journal : vw.free .journal) (hx_remote : vw.free .remote) (hx_delayed : vw.free .delayed) (hx_links : vw.free .links) (hx_group : vw.free .group) (hx_host : vw.free .host) (hx_admin : vw.free .admin) (hx_hot : vw.free .hot) (hx_fresh : vw.free .fresh) (x : TCmd) (s : State)  : NextP (fun t => vw.at t = vw.at s) (execCodepage x s) := by
  simp [execCodepage, *]

@[simp] theorem execDensity_view (hx_regs : vw.free .regs) (hx_mem : vw.free .mem) (hx_tenants : vw.free .tenants) (hx_devices : vw.free .devices) (hx_ports : vw.free .ports) (hx_pads : vw.free .pads) (hx_fifos : vw.free .fifos) (hx_chans : vw.free .chans) (hx_journal : vw.free .journal) (hx_remote : vw.free .remote) (hx_delayed : vw.free .delayed) (hx_links : vw.free .links) (hx_group : vw.free .group) (hx_host : vw.free .host) (hx_admin : vw.free .admin) (hx_hot : vw.free .hot) (hx_fresh : vw.free .fresh) (x : TCmd) (s : State)  : NextP (fun t => vw.at t = vw.at s) (execDensity x s) := by
  simp [execDensity, *]

@[simp] theorem execPrintSeg_view (hx_regs : vw.free .regs) (hx_mem : vw.free .mem) (hx_tenants : vw.free .tenants) (hx_devices : vw.free .devices) (hx_ports : vw.free .ports) (hx_pads : vw.free .pads) (hx_fifos : vw.free .fifos) (hx_chans : vw.free .chans) (hx_journal : vw.free .journal) (hx_remote : vw.free .remote) (hx_delayed : vw.free .delayed) (hx_links : vw.free .links) (hx_group : vw.free .group) (hx_host : vw.free .host) (hx_admin : vw.free .admin) (hx_hot : vw.free .hot) (hx_fresh : vw.free .fresh) (x : TCmd) (s : State)  : NextP (fun t => vw.at t = vw.at s) (execPrintSeg x s) := by
  simp [execPrintSeg, *]

@[simp] theorem execCut_view (hx_regs : vw.free .regs) (hx_mem : vw.free .mem) (hx_tenants : vw.free .tenants) (hx_devices : vw.free .devices) (hx_ports : vw.free .ports) (hx_pads : vw.free .pads) (hx_fifos : vw.free .fifos) (hx_chans : vw.free .chans) (hx_journal : vw.free .journal) (hx_remote : vw.free .remote) (hx_delayed : vw.free .delayed) (hx_links : vw.free .links) (hx_group : vw.free .group) (hx_host : vw.free .host) (hx_admin : vw.free .admin) (hx_hot : vw.free .hot) (hx_fresh : vw.free .fresh) (x : TCmd) (s : State)  : NextP (fun t => vw.at t = vw.at s) (execCut x s) := by
  simp [execCut, *]

@[simp] theorem execLogo_view (hx_regs : vw.free .regs) (hx_mem : vw.free .mem) (hx_tenants : vw.free .tenants) (hx_devices : vw.free .devices) (hx_ports : vw.free .ports) (hx_pads : vw.free .pads) (hx_fifos : vw.free .fifos) (hx_chans : vw.free .chans) (hx_journal : vw.free .journal) (hx_remote : vw.free .remote) (hx_delayed : vw.free .delayed) (hx_links : vw.free .links) (hx_group : vw.free .group) (hx_host : vw.free .host) (hx_admin : vw.free .admin) (hx_hot : vw.free .hot) (hx_fresh : vw.free .fresh) (x : TCmd) (s : State)  : NextP (fun t => vw.at t = vw.at s) (execLogo x s) := by
  simp [execLogo, *]

@[simp] theorem execPattern_view (hx_regs : vw.free .regs) (hx_mem : vw.free .mem) (hx_tenants : vw.free .tenants) (hx_devices : vw.free .devices) (hx_ports : vw.free .ports) (hx_pads : vw.free .pads) (hx_fifos : vw.free .fifos) (hx_chans : vw.free .chans) (hx_journal : vw.free .journal) (hx_remote : vw.free .remote) (hx_delayed : vw.free .delayed) (hx_links : vw.free .links) (hx_group : vw.free .group) (hx_host : vw.free .host) (hx_admin : vw.free .admin) (hx_hot : vw.free .hot) (hx_fresh : vw.free .fresh) (x : TCmd) (s : State)  : NextP (fun t => vw.at t = vw.at s) (execPattern x s) := by
  simp [execPattern, *]

@[simp] theorem execKeyLeds_view (hx_regs : vw.free .regs) (hx_mem : vw.free .mem) (hx_tenants : vw.free .tenants) (hx_devices : vw.free .devices) (hx_ports : vw.free .ports) (hx_pads : vw.free .pads) (hx_fifos : vw.free .fifos) (hx_chans : vw.free .chans) (hx_journal : vw.free .journal) (hx_remote : vw.free .remote) (hx_delayed : vw.free .delayed) (hx_links : vw.free .links) (hx_group : vw.free .group) (hx_host : vw.free .host) (hx_admin : vw.free .admin) (hx_hot : vw.free .hot) (hx_fresh : vw.free .fresh) (x : TCmd) (s : State)  : NextP (fun t => vw.at t = vw.at s) (execKeyLeds x s) := by
  simp [execKeyLeds, *]

@[simp] theorem execKeyLock_view (hx_regs : vw.free .regs) (hx_mem : vw.free .mem) (hx_tenants : vw.free .tenants) (hx_devices : vw.free .devices) (hx_ports : vw.free .ports) (hx_pads : vw.free .pads) (hx_fifos : vw.free .fifos) (hx_chans : vw.free .chans) (hx_journal : vw.free .journal) (hx_remote : vw.free .remote) (hx_delayed : vw.free .delayed) (hx_links : vw.free .links) (hx_group : vw.free .group) (hx_host : vw.free .host) (hx_admin : vw.free .admin) (hx_hot : vw.free .hot) (hx_fresh : vw.free .fresh) (x : TCmd) (s : State)  : NextP (fun t => vw.at t = vw.at s) (execKeyLock x s) := by
  simp [execKeyLock, *]

@[simp] theorem execKeypadBeep_view (hx_regs : vw.free .regs) (hx_mem : vw.free .mem) (hx_tenants : vw.free .tenants) (hx_devices : vw.free .devices) (hx_ports : vw.free .ports) (hx_pads : vw.free .pads) (hx_fifos : vw.free .fifos) (hx_chans : vw.free .chans) (hx_journal : vw.free .journal) (hx_remote : vw.free .remote) (hx_delayed : vw.free .delayed) (hx_links : vw.free .links) (hx_group : vw.free .group) (hx_host : vw.free .host) (hx_admin : vw.free .admin) (hx_hot : vw.free .hot) (hx_fresh : vw.free .fresh) (x : TCmd) (s : State)  : NextP (fun t => vw.at t = vw.at s) (execKeypadBeep x s) := by
  simp [execKeypadBeep, *]

@[simp] theorem execSegmentTimeClose_view (hx_regs : vw.free .regs) (hx_time : vw.free .time) (hx_journal : vw.free .journal) (hx_links : vw.free .links) (hx_hot : vw.free .hot) (s : State)  : NextP (fun t => vw.at t = vw.at s) (execSegmentTimeClose s) := by
  unfold execSegmentTimeClose
  repeat' split
  all_goals simp [*]

@[simp] theorem jnlCloseNow_view (hx_regs : vw.free .regs) (hx_journal : vw.free .journal) (hx_links : vw.free .links) (hx_hot : vw.free .hot) (s : State)  : vw.at (jnlCloseNow s) = vw.at s := by
  unfold jnlCloseNow
  split <;> simp [*]

@[simp] theorem execJnlCtrlClose_view (hx_regs : vw.free .regs) (hx_journal : vw.free .journal) (hx_cores : vw.free .cores) (hx_links : vw.free .links) (hx_guard : vw.free .guard) (hx_hot : vw.free .hot) (c : CoreId) (s : State)  : NextP (fun t => vw.at t = vw.at s) (execJnlCtrlClose c s) := by
  simp [execJnlCtrlClose, *]

@[simp] theorem execSegmentSign_view (hx_regs : vw.free .regs) (hx_journal : vw.free .journal) (s : State)  : NextP (fun t => vw.at t = vw.at s) (execSegmentSign s) := by
  unfold execSegmentSign
  split <;> simp [*]

@[simp] theorem execSegmentCommit_view (hx_regs : vw.free .regs) (hx_journal : vw.free .journal) (hx_fresh : vw.free .fresh) (s : State)  : NextP (fun t => vw.at t = vw.at s) (execSegmentCommit s) := by
  unfold execSegmentCommit
  split <;> simp [*]

@[simp] theorem jnlCfgerr_view (hx_regs : vw.free .regs) (hx_hot : vw.free .hot) (s : State)  : vw.at (jnlCfgerr s) = vw.at s := by
  unfold jnlCfgerr
  split <;> simp [*]

@[simp] theorem jnlEnableNow_view (hx_regs : vw.free .regs) (hx_hot : vw.free .hot) (identified : Bool) (s : State)  : vw.at (jnlEnableNow identified s) = vw.at s := by
  unfold jnlEnableNow
  repeat' split
  all_goals simp [*]

@[simp] theorem execJnlEnable_view (hx_regs : vw.free .regs) (hx_journal : vw.free .journal) (hx_cores : vw.free .cores) (hx_links : vw.free .links) (hx_guard : vw.free .guard) (hx_hot : vw.free .hot) (c : CoreId) (identified : Bool) (s : State)  : NextP (fun t => vw.at t = vw.at s) (execJnlEnable c identified s) := by
  simp [execJnlEnable, *]

@[simp] theorem resumeChains_view (hx_journal : vw.free .journal) (h : Option (List Byte × Walk)) (s : State)  : vw.at (resumeChains h s) = vw.at s := by
  unfold resumeChains
  split <;> simp [*]

@[simp] theorem lbaShow_view (hx_regs : vw.free .regs) (s : State)  : vw.at (lbaShow s) = vw.at s := by
  simp [lbaShow, *]

@[simp] theorem headFound_view (hx_regs : vw.free .regs) (hx_tenants : vw.free .tenants) (hx_journal : vw.free .journal) (hx_links : vw.free .links) (hx_group : vw.free .group) (hx_host : vw.free .host) (hx_admin : vw.free .admin) (hx_hot : vw.free .hot) (hx_fresh : vw.free .fresh) (s : State)  : vw.at (headFound s) = vw.at s := by
  simp only [headFound]
  repeat' split
  all_goals simp [*]

@[simp] theorem execChainHeadFound_view (hx_regs : vw.free .regs) (hx_tenants : vw.free .tenants) (hx_journal : vw.free .journal) (hx_links : vw.free .links) (hx_group : vw.free .group) (hx_host : vw.free .host) (hx_admin : vw.free .admin) (hx_hot : vw.free .hot) (hx_fresh : vw.free .fresh) (head : Option Nat) (s : State)  : NextP (fun t => vw.at t = vw.at s) (execChainHeadFound head s) := by
  unfold execChainHeadFound
  split <;> simp [*]

@[simp] theorem jnlDisableNow_view (hx_regs : vw.free .regs) (hx_journal : vw.free .journal) (hx_links : vw.free .links) (hx_hot : vw.free .hot) (hx_fresh : vw.free .fresh) (s : State)  : vw.at (jnlDisableNow s) = vw.at s := by
  unfold jnlDisableNow
  split <;> simp [*]

@[simp] theorem execJnlDisable_view (hx_regs : vw.free .regs) (hx_journal : vw.free .journal) (hx_cores : vw.free .cores) (hx_links : vw.free .links) (hx_guard : vw.free .guard) (hx_hot : vw.free .hot) (hx_fresh : vw.free .fresh) (c : CoreId) (s : State)  : NextP (fun t => vw.at t = vw.at s) (execJnlDisable c s) := by
  simp [execJnlDisable, *]

@[simp] theorem jnlCtrlWrite_view (hx_regs : vw.free .regs) (hx_journal : vw.free .journal) (hx_links : vw.free .links) (hx_hot : vw.free .hot) (hx_fresh : vw.free .fresh) (identified : Bool) (v : Word) (s : State)  : vw.at (jnlCtrlWrite identified v s) = vw.at s := by
  simp only [jnlCtrlWrite]
  repeat' split
  all_goals simp [*]

@[simp] theorem execDriveFail_view (hx_regs : vw.free .regs) (hx_journal : vw.free .journal) (hx_links : vw.free .links) (hx_hot : vw.free .hot) (e : Fin 16) (s : State)  : NextP (fun t => vw.at t = vw.at s) (execDriveFail e s) := by
  simp [execDriveFail, *]

@[simp] theorem rebuilt_view (hx_journal : vw.free .journal) (e : Nat) (s : State)  : vw.at (rebuilt e s) = vw.at s := by
  simp [rebuilt, *]

@[simp] theorem execRebuildComplete_view (hx_regs : vw.free .regs) (hx_journal : vw.free .journal) (hx_links : vw.free .links) (hx_hot : vw.free .hot) (e : Fin 16) (s : State)  : NextP (fun t => vw.at t = vw.at s) (execRebuildComplete e s) := by
  unfold execRebuildComplete
  split <;> simp [*]

@[simp] theorem newDrive_view (hx_journal : vw.free .journal) (e : Nat) (s : State)  : vw.at (newDrive e s) = vw.at s := by
  simp [newDrive, *]

@[simp] theorem jnlEntrySet_view (hx_regs : vw.free .regs) (hx_journal : vw.free .journal) (hx_links : vw.free .links) (hx_hot : vw.free .hot) (e : Nat) (r : Nat) (v : Word) (s : State)  : vw.at (jnlEntrySet e r v s) = vw.at s := by
  unfold jnlEntrySet
  repeat' split
  all_goals simp [*]

@[simp] theorem execJnlEntryWrite_view (hx_regs : vw.free .regs) (hx_journal : vw.free .journal) (hx_cores : vw.free .cores) (hx_links : vw.free .links) (hx_guard : vw.free .guard) (hx_hot : vw.free .hot) (c : CoreId) (e : Fin 16) (reg : Fin 3) (v : Word) (s : State)  : NextP (fun t => vw.at t = vw.at s) (execJnlEntryWrite c e reg v s) := by
  simp [execJnlEntryWrite, *]

@[simp] theorem archMove_view (hx_regs : vw.free .regs) (hx_journal : vw.free .journal) (hx_links : vw.free .links) (hx_hot : vw.free .hot) (v : Nat) (s : State)  : vw.at (archMove v s) = vw.at s := by
  simp only [archMove]
  repeat' split
  all_goals simp [*]

@[simp] theorem archHiWrite_view (hx_regs : vw.free .regs) (hx_journal : vw.free .journal) (hx_links : vw.free .links) (hx_hot : vw.free .hot) (v : Word) (s : State)  : vw.at (archHiWrite v s) = vw.at s := by
  simp [archHiWrite, *]

@[simp] theorem archLoWrite_view (hx_journal : vw.free .journal) (v : Word) (s : State)  : vw.at (archLoWrite v s) = vw.at s := by
  simp [archLoWrite, *]

@[simp] theorem execJnlArchWrite_view (hx_regs : vw.free .regs) (hx_journal : vw.free .journal) (hx_cores : vw.free .cores) (hx_links : vw.free .links) (hx_guard : vw.free .guard) (hx_hot : vw.free .hot) (c : CoreId) (v : Word) (s : State)  : NextP (fun t => vw.at t = vw.at s) (execJnlArchWrite c v s) := by
  simp [execJnlArchWrite, *]

@[simp] theorem wptrRead_view (hx_journal : vw.free .journal) (r : Nat) (s : State)  : vw.at (wptrRead r s) = vw.at s := by
  simp [wptrRead, *]

@[simp] theorem seqRead_view (hx_journal : vw.free .journal) (r : Nat) (s : State)  : vw.at (seqRead r s) = vw.at s := by
  simp [seqRead, *]

@[simp] theorem execJnlWptrLoRead_view (hx_journal : vw.free .journal) (r : Requester) (s : State)  : NextP (fun t => vw.at t = vw.at s) (execJnlWptrLoRead r s) := by
  simp [execJnlWptrLoRead, *]

@[simp] theorem execJnlSeqLoRead_view (hx_journal : vw.free .journal) (r : Requester) (s : State)  : NextP (fun t => vw.at t = vw.at s) (execJnlSeqLoRead r s) := by
  simp [execJnlSeqLoRead, *]

@[simp] theorem execPllLock_view (hx_regs : vw.free .regs) (hx_time : vw.free .time) (s : State)  : NextP (fun t => vw.at t = vw.at s) (execPllLock s) := by
  unfold execPllLock
  split <;> simp [*]

@[simp] theorem execRefLost_view (hx_regs : vw.free .regs) (hx_journal : vw.free .journal) (hx_links : vw.free .links) (hx_hot : vw.free .hot) (s : State)  : NextP (fun t => vw.at t = vw.at s) (execRefLost s) := by
  unfold execRefLost
  split <;> simp [*]

@[simp] theorem execPllRelock_view (hx_regs : vw.free .regs) (hx_journal : vw.free .journal) (hx_links : vw.free .links) (hx_hot : vw.free .hot) (s : State)  : NextP (fun t => vw.at t = vw.at s) (execPllRelock s) := by
  unfold execPllRelock
  split <;> simp [*]

@[simp] theorem frameCtrl_view (hx_regs : vw.free .regs) (hx_time : vw.free .time) (hx_hot : vw.free .hot) (tick : Nat) (v : Word) (s : State)  : vw.at (frameCtrl tick v s) = vw.at s := by
  simp only [frameCtrl]
  repeat' split
  all_goals simp [*]

@[simp] theorem timeWriter_view (hx_regs : vw.free .regs) (hx_journal : vw.free .journal) (hx_cores : vw.free .cores) (hx_links : vw.free .links) (hx_guard : vw.free .guard) (hx_hot : vw.free .hot) (c : CoreId) (a : Nat) (k : State → State) (s : State) (hk : ∀ y0, vw.at (k y0) = vw.at y0)  : vw.at (timeWriter c a k s) = vw.at s := by
  unfold timeWriter
  split <;> simp [*]

@[simp] theorem execFrameCtrlWrite_view (hx_regs : vw.free .regs) (hx_time : vw.free .time) (hx_journal : vw.free .journal) (hx_cores : vw.free .cores) (hx_links : vw.free .links) (hx_guard : vw.free .guard) (hx_hot : vw.free .hot) (c : CoreId) (v : Word) (s : State)  : NextP (fun t => vw.at t = vw.at s) (execFrameCtrlWrite c v s) := by
  simp [execFrameCtrlWrite, *]

@[simp] theorem frameCountRead_view (hx_time : vw.free .time) (r : Nat) (s : State)  : vw.at (frameCountRead r s) = vw.at s := by
  simp [frameCountRead, *]

@[simp] theorem turnAbsRead_view (hx_time : vw.free .time) (r : Nat) (s : State)  : vw.at (turnAbsRead r s) = vw.at s := by
  simp [turnAbsRead, *]

@[simp] theorem calPipRead_view (hx_cal : vw.free .cal) (r : Nat) (s : State)  : vw.at (calPipRead r s) = vw.at s := by
  simp [calPipRead, *]

@[simp] theorem execFrameCountLoRead_view (hx_time : vw.free .time) (r : Requester) (s : State)  : NextP (fun t => vw.at t = vw.at s) (execFrameCountLoRead r s) := by
  simp [execFrameCountLoRead, *]

@[simp] theorem execTurnAbsLoRead_view (hx_time : vw.free .time) (r : Requester) (s : State)  : NextP (fun t => vw.at t = vw.at s) (execTurnAbsLoRead r s) := by
  simp [execTurnAbsLoRead, *]

@[simp] theorem execCalPipRead_view (hx_cal : vw.free .cal) (r : Requester) (s : State)  : NextP (fun t => vw.at t = vw.at s) (execCalPipRead r s) := by
  simp [execCalPipRead, *]

@[simp] theorem stepReplaced_view (hx_regs : vw.free .regs) (hx_cal : vw.free .cal) (hx_tenants : vw.free .tenants) (hx_journal : vw.free .journal) (hx_links : vw.free .links) (hx_group : vw.free .group) (hx_host : vw.free .host) (hx_admin : vw.free .admin) (hx_hot : vw.free .hot) (hx_fresh : vw.free .fresh) (s : State)  : vw.at (stepReplaced s) = vw.at s := by
  unfold stepReplaced
  split <;> simp [*]

@[simp] theorem calStep_view (hx_regs : vw.free .regs) (hx_cal : vw.free .cal) (s : State)  : vw.at (calStep s) = vw.at s := by
  simp [calStep, *]

@[simp] theorem calCtrlWrite_view (hx_regs : vw.free .regs) (hx_cal : vw.free .cal) (hx_tenants : vw.free .tenants) (hx_journal : vw.free .journal) (hx_links : vw.free .links) (hx_group : vw.free .group) (hx_host : vw.free .host) (hx_admin : vw.free .admin) (hx_hot : vw.free .hot) (hx_fresh : vw.free .fresh) (v : Word) (s : State)  : vw.at (calCtrlWrite v s) = vw.at s := by
  unfold calCtrlWrite
  split <;> simp [*]

@[simp] theorem execCalStepRequest_view (hx_regs : vw.free .regs) (hx_cal : vw.free .cal) (hx_tenants : vw.free .tenants) (hx_journal : vw.free .journal) (hx_cores : vw.free .cores) (hx_links : vw.free .links) (hx_group : vw.free .group) (hx_guard : vw.free .guard) (hx_host : vw.free .host) (hx_admin : vw.free .admin) (hx_hot : vw.free .hot) (hx_fresh : vw.free .fresh) (c : CoreId) (v : Word) (s : State)  : NextP (fun t => vw.at t = vw.at s) (execCalStepRequest c v s) := by
  simp [execCalStepRequest, *]

@[simp] theorem execOscFail_view (hx_regs : vw.free .regs) (hx_hot : vw.free .hot) (s : State)  : NextP (fun t => vw.at t = vw.at s) (execOscFail s) := by
  unfold execOscFail
  split <;> simp [*]

@[simp] theorem execOscRestart_view (hx_regs : vw.free .regs) (s : State)  : NextP (fun t => vw.at t = vw.at s) (execOscRestart s) := by
  simp [execOscRestart, *]

@[simp] theorem calReset_view (hx_regs : vw.free .regs) (hx_cal : vw.free .cal) (s : State)  : vw.at (calReset s) = vw.at s := by
  simp [calReset, *]

@[simp] theorem execCalendarReset_view (hx_regs : vw.free .regs) (hx_cal : vw.free .cal) (s : State)  : NextP (fun t => vw.at t = vw.at s) (execCalendarReset s) := by
  simp [execCalendarReset, *]

@[simp] theorem undoAll_view (hx_mem : vw.free .mem) (us : List (Nat × Nat × Word)) (s : State)  : vw.at (undoAll us s) = vw.at s := by
  simp [undoAll, *]

@[simp] theorem rollbackCtx_view (hx_mem : vw.free .mem) (hx_cores : vw.free .cores) (hx_locks : vw.free .locks) (i : Nat) (s : State)  : vw.at (rollbackCtx i s) = vw.at s := by
  simp [rollbackCtx, *]

@[simp] theorem mismatch_view (hx_regs : vw.free .regs) (hx_mem : vw.free .mem) (hx_journal : vw.free .journal) (hx_cores : vw.free .cores) (hx_locks : vw.free .locks) (hx_links : vw.free .links) (hx_guard : vw.free .guard) (hx_hot : vw.free .hot) (i : Nat) (mech : Nat) (s : State)  : vw.at (mismatch i mech s) = vw.at s := by
  simp only [mismatch]
  repeat' split
  all_goals simp [*]

@[simp] theorem jCastling_view (hx_regs : vw.free .regs) (hx_journal : vw.free .journal) (hx_links : vw.free .links) (hx_hot : vw.free .hot) (unit : Nat) (reason : Nat) (lcl : Nat) (pos : Nat) (old : Nat) (new : Nat) (result : Nat) (seq : Nat) (len : Nat) (frame : Nat) (s : State)  : vw.at (jCastling unit reason lcl pos old new result seq len frame s) = vw.at s := by
  simp [jCastling, *]

@[simp] theorem castBegin_view (hx_regs : vw.free .regs) (s : State)  : vw.at (castBegin s) = vw.at s := by
  simp [castBegin, *]

@[simp] theorem laneCastle_view (hx_regs : vw.free .regs) (hx_mem : vw.free .mem) (hx_journal : vw.free .journal) (hx_cores : vw.free .cores) (hx_locks : vw.free .locks) (hx_links : vw.free .links) (hx_hot : vw.free .hot) (hx_fresh : vw.free .fresh) (n : Nat) (x : Nat) (reason : Nat) (s : State)  : vw.at (laneCastle n x reason s) = vw.at s := by
  simp [laneCastle, *]

@[simp] theorem laneFail_view (hx_regs : vw.free .regs) (hx_mem : vw.free .mem) (hx_journal : vw.free .journal) (hx_cores : vw.free .cores) (hx_locks : vw.free .locks) (hx_links : vw.free .links) (hx_guard : vw.free .guard) (hx_hot : vw.free .hot) (hx_fresh : vw.free .fresh) (n : Nat) (x : Nat) (mech : Nat) (detail : Nat) (s : State)  : vw.at (laneFail n x mech detail s) = vw.at s := by
  simp only [laneFail]
  repeat' split
  all_goals simp [*]

@[simp] theorem laneFault_view (hx_regs : vw.free .regs) (hx_mem : vw.free .mem) (hx_journal : vw.free .journal) (hx_cores : vw.free .cores) (hx_locks : vw.free .locks) (hx_links : vw.free .links) (hx_guard : vw.free .guard) (hx_hot : vw.free .hot) (hx_fresh : vw.free .fresh) (n : Nat) (x : Nat) (mech : Nat) (s : State)  : vw.at (laneFault n x mech s) = vw.at s := by
  simp [laneFault, *]

@[simp] theorem barrelFault_view (hx_regs : vw.free .regs) (hx_journal : vw.free .journal) (hx_cores : vw.free .cores) (hx_links : vw.free .links) (hx_guard : vw.free .guard) (hx_hot : vw.free .hot) (n : Nat) (mech : Nat) (s : State)  : vw.at (barrelFault n mech s) = vw.at s := by
  simp [barrelFault, *]

@[simp] theorem checkFault_view (hx_regs : vw.free .regs) (hx_mem : vw.free .mem) (hx_journal : vw.free .journal) (hx_cores : vw.free .cores) (hx_locks : vw.free .locks) (hx_links : vw.free .links) (hx_guard : vw.free .guard) (hx_hot : vw.free .hot) (hx_fresh : vw.free .fresh) (n : Nat) (x : Fin 5) (mech : Nat) (s : State)  : vw.at (checkFault n x mech s) = vw.at s := by
  simp [checkFault, *]

@[simp] theorem execCheckerError_view (hx_regs : vw.free .regs) (hx_mem : vw.free .mem) (hx_journal : vw.free .journal) (hx_cores : vw.free .cores) (hx_locks : vw.free .locks) (hx_links : vw.free .links) (hx_guard : vw.free .guard) (hx_hot : vw.free .hot) (hx_fresh : vw.free .fresh) (n : ClusterId) (x : Fin 5) (s : State)  : NextP (fun t => vw.at t = vw.at s) (execCheckerError n x s) := by
  simp [execCheckerError, *]

@[simp] theorem execStallSentinel_view (hx_regs : vw.free .regs) (hx_mem : vw.free .mem) (hx_journal : vw.free .journal) (hx_cores : vw.free .cores) (hx_locks : vw.free .locks) (hx_links : vw.free .links) (hx_guard : vw.free .guard) (hx_hot : vw.free .hot) (hx_fresh : vw.free .fresh) (n : ClusterId) (x : Fin 5) (s : State)  : NextP (fun t => vw.at t = vw.at s) (execStallSentinel n x s) := by
  simp [execStallSentinel, *]

@[simp] theorem execPairBistDone_view (hx_regs : vw.free .regs) (hx_mem : vw.free .mem) (hx_time : vw.free .time) (hx_journal : vw.free .journal) (hx_cores : vw.free .cores) (hx_locks : vw.free .locks) (hx_links : vw.free .links) (hx_guard : vw.free .guard) (hx_hot : vw.free .hot) (hx_fresh : vw.free .fresh) (n : ClusterId) (pair : Fin 2) (passA : Bool) (passB : Bool) (s : State)  : NextP (fun t => vw.at t = vw.at s) (execPairBistDone n pair passA passB s) := by
  unfold execPairBistDone
  try dsimp only
  repeat' split
  all_goals first | (simp [*]; done) | (split_ifs <;> simp [*]; done) | (simp [apply_ite (View.at vw), *]; done) | (simp; split_ifs <;> simp [*]; done)

@[simp] theorem execShadowMismatch_view (hx_regs : vw.free .regs) (hx_journal : vw.free .journal) (hx_cores : vw.free .cores) (hx_links : vw.free .links) (hx_guard : vw.free .guard) (hx_hot : vw.free .hot) (n : ClusterId) (t : ThreadNo) (s : State)  : NextP (fun t => vw.at t = vw.at s) (execShadowMismatch n t s) := by
  simp [execShadowMismatch, *]

@[simp] theorem execVoteDisagree_view (hx_regs : vw.free .regs) (hx_journal : vw.free .journal) (hx_links : vw.free .links) (hx_guard : vw.free .guard) (hx_hot : vw.free .hot) (block : Nat) (s : State)  : NextP (fun t => vw.at t = vw.at s) (execVoteDisagree block s) := by
  simp [execVoteDisagree, *]

@[simp] theorem cpCastle_view (hx_regs : vw.free .regs) (hx_mem : vw.free .mem) (hx_journal : vw.free .journal) (hx_cores : vw.free .cores) (hx_locks : vw.free .locks) (hx_links : vw.free .links) (hx_guard : vw.free .guard) (hx_hot : vw.free .hot) (hx_fresh : vw.free .fresh) (pos : Nat) (reason : Nat) (s : State)  : vw.at (cpCastle pos reason s) = vw.at s := by
  simp [cpCastle, *]

@[simp] theorem execCpCastling_view (hx_regs : vw.free .regs) (hx_mem : vw.free .mem) (hx_journal : vw.free .journal) (hx_cores : vw.free .cores) (hx_locks : vw.free .locks) (hx_links : vw.free .links) (hx_guard : vw.free .guard) (hx_hot : vw.free .hot) (hx_fresh : vw.free .fresh) (failA : Bool) (failB : Bool) (s : State)  : NextP (fun t => vw.at t = vw.at s) (execCpCastling failA failB s) := by
  unfold execCpCastling
  repeat' split
  all_goals simp [*]

@[simp] theorem imageRegs_view (hx_mem : vw.free .mem) (b : Nat) (n : Nat) (s : State)  : vw.at (imageRegs b n s) = vw.at s := by
  simp [imageRegs, *]

@[simp] theorem imageWrite_view (hx_mem : vw.free .mem) (r : CastRun) (s : State)  : vw.at (imageWrite r s) = vw.at s := by
  simp [imageWrite, *]

@[simp] theorem castStart_view (hx_regs : vw.free .regs) (hx_mem : vw.free .mem) (hx_guard : vw.free .guard) (r : CastReq) (new : Nat) (s : State)  : vw.at (castStart r new s) = vw.at s := by
  simp [castStart, *]

@[simp] theorem execClusterCastling_view (hx_regs : vw.free .regs) (hx_mem : vw.free .mem) (hx_guard : vw.free .guard) (n : ClusterId) (s : State)  : NextP (fun t => vw.at t = vw.at s) (execClusterCastling n s) := by
  unfold execClusterCastling
  repeat' split
  all_goals simp [*]

@[simp] theorem reserveAfter_view (hx_regs : vw.free .regs) (n : Nat) (old : Nat) (new : Nat) (s : State)  : vw.at (reserveAfter n old new s) = vw.at s := by
  simp [reserveAfter, *]

@[simp] theorem castResume_view (hx_mem : vw.free .mem) (hx_cores : vw.free .cores) (hx_locks : vw.free .locks) (n : Nat) (s : State)  : vw.at (castResume n s) = vw.at s := by
  unfold castResume
  try dsimp only
  repeat' split
  all_goals first | (simp [*]; done) | (split_ifs <;> simp [*]; done) | (simp [apply_ite (View.at vw), *]; done) | (simp; split_ifs <;> simp [*]; done)

@[simp] theorem castReplay_view (hx_regs : vw.free .regs) (hx_pads : vw.free .pads) (hx_clusters : vw.free .clusters) (hx_power : vw.free .power) (hx_hot : vw.free .hot) (n : Nat) (s : State) : vw.at (castReplay n s) = vw.at s := by
  unfold castReplay
  dsimp only
  rw [each_view vw _ _ (fun c s => by simp [*])]
  simp [*]

@[simp] theorem rotAfter_view (hx_guard : vw.free .guard) (r : CastReq) (ok : Bool) (s : State)  : vw.at (rotAfter r ok s) = vw.at s := by
  unfold rotAfter
  repeat' split
  all_goals simp [*]

@[simp] theorem castDone_view (hx_regs : vw.free .regs) (hx_mem : vw.free .mem) (hx_pads : vw.free .pads) (hx_journal : vw.free .journal) (hx_clusters : vw.free .clusters) (hx_cores : vw.free .cores) (hx_locks : vw.free .locks) (hx_links : vw.free .links) (hx_guard : vw.free .guard) (hx_power : vw.free .power) (hx_hot : vw.free .hot) (r : CastRun) (s : State)  : vw.at (castDone r s) = vw.at s := by
  simp [castDone, *]

@[simp] theorem castAborted_view (hx_regs : vw.free .regs) (hx_pads : vw.free .pads) (hx_journal : vw.free .journal) (hx_clusters : vw.free .clusters) (hx_links : vw.free .links) (hx_guard : vw.free .guard) (hx_power : vw.free .power) (hx_hot : vw.free .hot) (r : CastRun) (s : State)  : vw.at (castAborted r s) = vw.at s := by
  unfold castAborted
  split <;> simp [*]

theorem castServe_view (hx_regs : vw.free .regs) (hx_mem : vw.free .mem) (hx_journal : vw.free .journal) (hx_cores : vw.free .cores) (hx_locks : vw.free .locks) (hx_links : vw.free .links) (hx_guard : vw.free .guard) (hx_hot : vw.free .hot) (hx_fresh : vw.free .fresh) (unit n pos : Nat) (s : State) : ∀ t, castServe unit n pos s = some t → vw.at t = vw.at s := by
  intro t h
  unfold castServe at h
  split at h
  · simp only [Option.some.injEq] at h
    subst h
    split <;> simp [*]
  · cases h

@[simp] theorem castCores_view (hx_regs : vw.free .regs) (hx_mem : vw.free .mem) (hx_tenants : vw.free .tenants) (hx_journal : vw.free .journal) (hx_cores : vw.free .cores) (hx_locks : vw.free .locks) (hx_links : vw.free .links) (hx_group : vw.free .group) (hx_guard : vw.free .guard) (hx_host : vw.free .host) (hx_admin : vw.free .admin) (hx_hot : vw.free .hot) (hx_fresh : vw.free .fresh) (s : State)  : vw.at (castCores s) = vw.at s := by
  simp [castCores, *]

@[simp] theorem castleReqWrite_view (hx_regs : vw.free .regs) (hx_mem : vw.free .mem) (hx_journal : vw.free .journal) (hx_cores : vw.free .cores) (hx_locks : vw.free .locks) (hx_links : vw.free .links) (hx_guard : vw.free .guard) (hx_hot : vw.free .hot) (hx_fresh : vw.free .fresh) (v : Word) (s : State) : vw.at (castleReqWrite v s) = vw.at s := by
  unfold castleReqWrite
  split
  · split
    · rename_i g; exact castServe_view vw (by assumption) (by assumption) (by assumption) (by assumption) (by assumption) (by assumption) (by assumption) (by assumption) (by assumption) _ _ _ _ _ g
    · simp [*]
  · rfl

@[simp] theorem execCastleReqCluster_view (hx_regs : vw.free .regs) (hx_mem : vw.free .mem) (hx_journal : vw.free .journal) (hx_cores : vw.free .cores) (hx_locks : vw.free .locks) (hx_links : vw.free .links) (hx_guard : vw.free .guard) (hx_hot : vw.free .hot) (hx_fresh : vw.free .fresh) (c : CoreId) (n : ClusterId) (s : State)  : NextP (fun t => vw.at t = vw.at s) (execCastleReqCluster c n s) := by
  simp [execCastleReqCluster, *]

@[simp] theorem execCastleReqLaneCore_view (hx_regs : vw.free .regs) (hx_mem : vw.free .mem) (hx_journal : vw.free .journal) (hx_cores : vw.free .cores) (hx_locks : vw.free .locks) (hx_links : vw.free .links) (hx_guard : vw.free .guard) (hx_hot : vw.free .hot) (hx_fresh : vw.free .fresh) (c : CoreId) (n : ClusterId) (x : Fin 8) (s : State)  : NextP (fun t => vw.at t = vw.at s) (execCastleReqLaneCore c n x s) := by
  simp [execCastleReqLaneCore, *]

@[simp] theorem execCastleReqCp_view (hx_regs : vw.free .regs) (hx_mem : vw.free .mem) (hx_journal : vw.free .journal) (hx_cores : vw.free .cores) (hx_locks : vw.free .locks) (hx_links : vw.free .links) (hx_guard : vw.free .guard) (hx_hot : vw.free .hot) (hx_fresh : vw.free .fresh) (c : CoreId) (x : Fin 8) (s : State)  : NextP (fun t => vw.at t = vw.at s) (execCastleReqCp c x s) := by
  simp [execCastleReqCp, *]

@[simp] theorem clDoublesWrite_view (hx_regs : vw.free .regs) (n : Nat) (v : Word) (s : State)  : vw.at (clDoublesWrite n v s) = vw.at s := by
  simp [clDoublesWrite, *]

@[simp] theorem execClDoublesWrite_view (hx_regs : vw.free .regs) (hx_journal : vw.free .journal) (hx_clusters : vw.free .clusters) (hx_cores : vw.free .cores) (hx_links : vw.free .links) (hx_guard : vw.free .guard) (hx_hot : vw.free .hot) (c : CoreId) (n : ClusterId) (v : Word) (s : State)  : NextP (fun t => vw.at t = vw.at s) (execClDoublesWrite c n v s) := by
  unfold execClDoublesWrite
  (refine castWrite_view vw (by assumption) _ _ _ _ _ (fun s => ?_) _; (try dsimp only); (repeat' split); all_goals simp [*])

@[simp] theorem pairForm_view (hx_regs : vw.free .regs) (hx_cores : vw.free .cores) (n : Nat) (k : Nat) (s : State)  : vw.at (pairForm n k s) = vw.at s := by
  simp only [pairForm]
  repeat' split
  all_goals simp [*]

@[simp] theorem execPairForm_view (hx_regs : vw.free .regs) (hx_cores : vw.free .cores) (n : ClusterId) (s : State)  : NextP (fun t => vw.at t = vw.at s) (execPairForm n s) := by
  unfold execPairForm
  split <;> simp [*]

@[simp] theorem hardWord_view (hx_regs : vw.free .regs) (hx_journal : vw.free .journal) (hx_links : vw.free .links) (hx_guard : vw.free .guard) (hx_hot : vw.free .hot) (a : Word) (s : State)  : vw.at (hardWord a s) = vw.at s := by
  simp only [hardWord]
  repeat' split
  all_goals simp [*]

@[simp] theorem execScrubPassComplete_view (hx_regs : vw.free .regs) (hx_journal : vw.free .journal) (hx_links : vw.free .links) (hx_guard : vw.free .guard) (hx_hot : vw.free .hot) (hx_fresh : vw.free .fresh) (corrected : List Word) (uncorr : List Word) (s : State)  : NextP (fun t => vw.at t = vw.at s) (execScrubPassComplete corrected uncorr s) := by
  simp [execScrubPassComplete, *]

@[simp] theorem execScrubAgeLimit_view (hx_time : vw.free .time) (s : State)  : NextP (fun t => vw.at t = vw.at s) (execScrubAgeLimit s) := by
  simp [execScrubAgeLimit, *]

@[simp] theorem execRepairOverdue_view (hx_time : vw.free .time) (s : State)  : NextP (fun t => vw.at t = vw.at s) (execRepairOverdue s) := by
  simp [execRepairOverdue, *]

@[simp] theorem cpRetest_view (hx_regs : vw.free .regs) (ok : BitVec 3) (s : State) : vw.at (cpRetest ok s) = vw.at s := by
  unfold cpRetest
  refine each_view vw _ _ (fun x s => ?_) _
  dsimp only
  repeat' split
  all_goals simp [*]

@[simp] theorem rotationVisit_view (hx_regs : vw.free .regs) (hx_journal : vw.free .journal) (hx_links : vw.free .links) (hx_guard : vw.free .guard) (hx_hot : vw.free .hot) (cpOk : BitVec 3) (s : State)  : vw.at (rotationVisit cpOk s) = vw.at s := by
  simp only [rotationVisit]
  repeat' split
  all_goals simp [*]

@[simp] theorem execRotationVisit_view (hx_regs : vw.free .regs) (hx_time : vw.free .time) (hx_journal : vw.free .journal) (hx_links : vw.free .links) (hx_guard : vw.free .guard) (hx_hot : vw.free .hot) (cpOk : BitVec 3) (s : State)  : NextP (fun t => vw.at t = vw.at s) (execRotationVisit cpOk s) := by
  unfold execRotationVisit
  split <;> simp [*]

@[simp] theorem laneBist_view (hx_regs : vw.free .regs) (p : Nat) (ok : BitVec 5) (s : State) : vw.at (laneBist p ok s) = vw.at s := by
  unfold laneBist
  dsimp only
  rw [each_view vw _ _ (fun c s => by (repeat' split) <;> simp [*]), each_view vw _ _ (fun c s => by (repeat' split) <;> simp [*])]

@[simp] theorem bistDone_view (hx_regs : vw.free .regs) (hx_journal : vw.free .journal) (hx_links : vw.free .links) (hx_guard : vw.free .guard) (hx_hot : vw.free .hot) (pass : Bool) (ok : BitVec 5) (s : State)  : vw.at (bistDone pass ok s) = vw.at s := by
  simp only [bistDone]
  repeat' split
  all_goals simp [*]

@[simp] theorem execClusterBistDone_view (hx_regs : vw.free .regs) (hx_journal : vw.free .journal) (hx_links : vw.free .links) (hx_guard : vw.free .guard) (hx_hot : vw.free .hot) (pass : Bool) (coresOk : BitVec 5) (s : State)  : NextP (fun t => vw.at t = vw.at s) (execClusterBistDone pass coresOk s) := by
  unfold execClusterBistDone
  split <;> simp [*]

@[simp] theorem movCount_view (hx_regs : vw.free .regs) (m : Nat) (s : State)  : vw.at (movCount m s) = vw.at s := by
  simp [movCount, *]

@[simp] theorem setXfer_view (hx_regs : vw.free .regs) (hx_xfers : vw.free .xfers) (g : Nat) (x : Xfer) (s : State)  : vw.at (setXfer g x s) = vw.at s := by
  simp [setXfer, *]

@[simp] theorem delXfer_view (hx_regs : vw.free .regs) (hx_xfers : vw.free .xfers) (g : Nat) (s : State)  : vw.at (delXfer g s) = vw.at s := by
  simp [delXfer, *]

@[simp] theorem submitTag_view (hx_regs : vw.free .regs) (hx_xfers : vw.free .xfers) (hx_xferNext : vw.free .xferNext) (g : Nat) (s : State)  : vw.at (submitTag g s) = vw.at s := by
  simp [submitTag, *]

@[simp] theorem movDbWrite_view (hx_regs : vw.free .regs) (hx_journal : vw.free .journal) (hx_cores : vw.free .cores) (hx_xfers : vw.free .xfers) (hx_xferNext : vw.free .xferNext) (hx_links : vw.free .links) (hx_guard : vw.free .guard) (hx_hot : vw.free .hot) (c : CoreId) (m : Nat) (v : Word) (s : State)  : vw.at (movDbWrite c m v s) = vw.at s := by
  simp only [movDbWrite]
  repeat' split
  all_goals simp [*]

@[simp] theorem execMovDbWrite_view (hx_regs : vw.free .regs) (hx_journal : vw.free .journal) (hx_cores : vw.free .cores) (hx_xfers : vw.free .xfers) (hx_xferNext : vw.free .xferNext) (hx_links : vw.free .links) (hx_guard : vw.free .guard) (hx_hot : vw.free .hot) (c : CoreId) (m : Fin 4) (v : Word) (s : State)  : NextP (fun t => vw.at t = vw.at s) (execMovDbWrite c m v s) := by
  simp [execMovDbWrite, *]

@[simp] theorem xferEnd_view (hx_regs : vw.free .regs) (hx_xfers : vw.free .xfers) (g : Nat) (st : Nat) (x : Xfer) (s : State)  : vw.at (xferEnd g st x s) = vw.at s := by
  simp [xferEnd, *]

@[simp] theorem hostPut_view (hx_links : vw.free .links) (hx_group : vw.free .group) (fn : Nat) (addr : Nat) (data : List Byte) (s : State)  : vw.at (hostPut fn addr data s) = vw.at s := by
  simp [hostPut, *]

@[simp] theorem askHost_view (hx_links : vw.free .links) (x : Xfer) (s : State)  : vw.at (askHost x s) = vw.at s := by
  simp [askHost, *]

@[simp] theorem execTransferAccept_view (hx_regs : vw.free .regs) (hx_xfers : vw.free .xfers) (hx_links : vw.free .links) (g : TagId) (s : State)  : NextP (fun t => vw.at t = vw.at s) (execTransferAccept g s) := by
  simp only [execTransferAccept]
  repeat' split
  all_goals simp [*]

@[simp] theorem execTransferReadChunk_view (hx_regs : vw.free .regs) (hx_xfers : vw.free .xfers) (hx_links : vw.free .links) (g : TagId) (data : Option (List Byte)) (ecc : Bool) (s : State)  : NextP (fun t => vw.at t = vw.at s) (execTransferReadChunk g data ecc s) := by
  unfold execTransferReadChunk
  repeat' split
  all_goals simp [*]

@[simp] theorem execTransferWriteChunk_view (hx_regs : vw.free .regs) (hx_mem : vw.free .mem) (hx_xfers : vw.free .xfers) (hx_links : vw.free .links) (hx_group : vw.free .group) (g : TagId) (ok : Bool) (s : State)  : NextP (fun t => vw.at t = vw.at s) (execTransferWriteChunk g ok s) := by
  simp only [execTransferWriteChunk]
  repeat' split
  all_goals simp [*]

@[simp] theorem movNotify_view (hx_regs : vw.free .regs) (hx_pads : vw.free .pads) (hx_clusters : vw.free .clusters) (hx_power : vw.free .power) (hx_hot : vw.free .hot) (g : Nat) (st : Nat) (s : State)  : vw.at (movNotify g st s) = vw.at s := by
  unfold movNotify
  repeat' split
  all_goals simp [*]

@[simp] theorem movErr_view (hx_regs : vw.free .regs) (hx_hot : vw.free .hot) (m : Nat) (st : Nat) (s : State)  : vw.at (movErr m st s) = vw.at s := by
  unfold movErr
  split <;> simp [*]

@[simp] theorem execTransferComplete_view (hx_regs : vw.free .regs) (hx_mem : vw.free .mem) (hx_pads : vw.free .pads) (hx_clusters : vw.free .clusters) (hx_xfers : vw.free .xfers) (hx_xferNext : vw.free .xferNext) (hx_links : vw.free .links) (hx_power : vw.free .power) (hx_hot : vw.free .hot) (g : TagId) (s : State)  : NextP (fun t => vw.at t = vw.at s) (execTransferComplete g s) := by
  simp only [execTransferComplete]
  repeat' split
  all_goals simp [*]

@[simp] theorem execCompletionTimeout_view (hx_regs : vw.free .regs) (hx_time : vw.free .time) (hx_xfers : vw.free .xfers) (hx_host : vw.free .host) (g : TagId) (s : State)  : NextP (fun t => vw.at t = vw.at s) (execCompletionTimeout g s) := by
  unfold execCompletionTimeout
  repeat' split
  all_goals simp [*]

@[simp] theorem execArbitrationPeriod_view (hx_arbs : vw.free .arbs) (target : Fin 17) (tags : List (Nat × Nat)) (s : State)  : NextP (fun t => vw.at t = vw.at s) (execArbitrationPeriod target tags s) := by
  unfold execArbitrationPeriod
  split <;> simp [*]

@[simp] theorem drnBit_view (hx_regs : vw.free .regs) (hx_hot : vw.free .hot) (f : Fld) (s : State)  : vw.at (drnBit f s) = vw.at s := by
  unfold drnBit
  split <;> simp [*]

@[simp] theorem jGroup_view (hx_regs : vw.free .regs) (hx_journal : vw.free .journal) (hx_links : vw.free .links) (hx_hot : vw.free .hot) (ev : Nat) (seat : Nat) (serial : Nat) (presented : Nat) (detail : Nat) (s : State)  : vw.at (jGroup ev seat serial presented detail s) = vw.at s := by
  simp [jGroup, *]

@[simp] theorem sendAddress_view (hx_links : vw.free .links) (p : Nat) (s : State)  : vw.at (sendAddress p s) = vw.at s := by
  simp [sendAddress, *]

@[simp] theorem capsUpdate_view (hx_regs : vw.free .regs) (hx_links : vw.free .links) (hx_group : vw.free .group) (s : State)  : vw.at (capsUpdate s) = vw.at s := by
  simp only [capsUpdate]
  repeat' split
  all_goals simp [*]

@[simp] theorem drnDown_view (hx_regs : vw.free .regs) (hx_links : vw.free .links) (p : Nat) (s : State)  : vw.at (drnDown p s) = vw.at s := by
  simp [drnDown, *]

@[simp] theorem drnForget_view (hx_links : vw.free .links) (p : Nat) (s : State)  : vw.at (drnForget p s) = vw.at s := by
  simp [drnForget, *]

@[simp] theorem loseFar_view (hx_tenants : vw.free .tenants) (hx_group : vw.free .group) (seat : Nat) (s : State) : vw.at (loseFar seat s) = vw.at s := by
  unfold loseFar
  dsimp only
  rw [each_view vw _ _ (fun c s => by split <;> simp [*]), each_view vw _ _ (fun c s => by simp [*])]
  simp [*]

@[simp] theorem dropOut_view (hx_regs : vw.free .regs) (hx_tenants : vw.free .tenants) (hx_journal : vw.free .journal) (hx_links : vw.free .links) (hx_group : vw.free .group) (hx_hot : vw.free .hot) (seat : Nat) (s : State)  : vw.at (dropOut seat s) = vw.at s := by
  unfold dropOut
  split <;> simp [*]

@[simp] theorem regain_view (hx_group : vw.free .group) (l : List Nat) (s : State)  : vw.at (regain l s) = vw.at s := by
  simp [regain, *]

@[simp] theorem loseChild_view (hx_regs : vw.free .regs) (hx_tenants : vw.free .tenants) (hx_journal : vw.free .journal) (hx_links : vw.free .links) (hx_group : vw.free .group) (hx_hot : vw.free .hot) (p : Nat) (s : State)  : vw.at (loseChild p s) = vw.at s := by
  unfold loseChild
  split <;> simp [*]

@[simp] theorem loseStream_view (hx_regs : vw.free .regs) (hx_journal : vw.free .journal) (hx_hot : vw.free .hot) (s : State)  : vw.at (loseStream s) = vw.at s := by
  simp only [loseStream]
  repeat' split
  all_goals simp [*]

@[simp] theorem streamStart_view (hx_regs : vw.free .regs) (hx_journal : vw.free .journal) (hx_links : vw.free .links) (hx_hot : vw.free .hot) (s : State)  : vw.at (streamStart s) = vw.at s := by
  simp [streamStart, *]

@[simp] theorem leaveGroup_view (hx_regs : vw.free .regs) (hx_mem : vw.free .mem) (hx_tenants : vw.free .tenants) (hx_devices : vw.free .devices) (hx_ports : vw.free .ports) (hx_pads : vw.free .pads) (hx_fifos : vw.free .fifos) (hx_chans : vw.free .chans) (hx_journal : vw.free .journal) (hx_remote : vw.free .remote) (hx_delayed : vw.free .delayed) (hx_links : vw.free .links) (hx_group : vw.free .group) (hx_host : vw.free .host) (hx_hot : vw.free .hot) (s : State)  : vw.at (leaveGroup s) = vw.at s := by
  unfold leaveGroup
  try dsimp only
  repeat' split
  all_goals first | (simp [*]; done) | (split_ifs <;> simp [*]; done) | (simp [apply_ite (View.at vw), *]; done) | (simp; split_ifs <;> simp [*]; done)

@[simp] theorem linkUp_view (hx_regs : vw.free .regs) (hx_journal : vw.free .journal) (hx_links : vw.free .links) (hx_hot : vw.free .hot) (p : Nat) (rate : Nat) (width : Nat) (mask : Nat) (s : State)  : vw.at (linkUp p rate width mask s) = vw.at s := by
  unfold linkUp
  dsimp only
  repeat' split
  all_goals simp [*]

@[simp] theorem linkTrain_view (hx_regs : vw.free .regs) (hx_journal : vw.free .journal) (hx_links : vw.free .links) (hx_hot : vw.free .hot) (p : Nat) (i : TrainInfo) (s : State)  : vw.at (linkTrain p i s) = vw.at s := by
  simp only [linkTrain]
  repeat' split
  all_goals simp [*]

@[simp] theorem execLinkTrain_view (hx_regs : vw.free .regs) (hx_journal : vw.free .journal) (hx_links : vw.free .links) (hx_hot : vw.free .hot) (p : DrnPort) (info : TrainInfo) (s : State)  : NextP (fun t => vw.at t = vw.at s) (execLinkTrain p info s) := by
  unfold execLinkTrain
  split <;> simp [*]

@[simp] theorem execTrainRetry_view (hx_regs : vw.free .regs) (hx_time : vw.free .time) (hx_links : vw.free .links) (p : DrnPort) (s : State)  : NextP (fun t => vw.at t = vw.at s) (execTrainRetry p s) := by
  simp [execTrainRetry, *]

@[simp] theorem drnCtrlWrite_view (hx_regs : vw.free .regs) (hx_tenants : vw.free .tenants) (hx_journal : vw.free .journal) (hx_links : vw.free .links) (hx_group : vw.free .group) (hx_hot : vw.free .hot) (p : Nat) (v : Word) (s : State)  : vw.at (drnCtrlWrite p v s) = vw.at s := by
  simp only [drnCtrlWrite]
  repeat' split
  all_goals simp [*]

@[simp] theorem execDrnRetrain_view (hx_regs : vw.free .regs) (hx_tenants : vw.free .tenants) (hx_journal : vw.free .journal) (hx_cores : vw.free .cores) (hx_links : vw.free .links) (hx_group : vw.free .group) (hx_guard : vw.free .guard) (hx_hot : vw.free .hot) (c : CoreId) (p : DrnPort) (s : State)  : NextP (fun t => vw.at t = vw.at s) (execDrnRetrain c p s) := by
  simp [execDrnRetrain, *]

@[simp] theorem execDrnDisable_view (hx_regs : vw.free .regs) (hx_tenants : vw.free .tenants) (hx_journal : vw.free .journal) (hx_cores : vw.free .cores) (hx_links : vw.free .links) (hx_group : vw.free .group) (hx_guard : vw.free .guard) (hx_hot : vw.free .hot) (c : CoreId) (p : DrnPort) (s : State)  : NextP (fun t => vw.at t = vw.at s) (execDrnDisable c p s) := by
  simp [execDrnDisable, *]

@[simp] theorem execHeartbeatSend_view (hx_time : vw.free .time) (hx_links : vw.free .links) (p : DrnPort) (s : State)  : NextP (fun t => vw.at t = vw.at s) (execHeartbeatSend p s) := by
  unfold execHeartbeatSend
  split <;> simp [*]

@[simp] theorem drnAck_view (hx_links : vw.free .links) (p : Nat) (ack : Nat) (s : State)  : vw.at (drnAck p ack s) = vw.at s := by
  simp [drnAck, *]

@[simp] theorem drnRx_view (hx_regs : vw.free .regs) (hx_links : vw.free .links) (type : Nat) (f : Frame) (k : State → State) (s : State) (hk : ∀ y0, vw.at (k y0) = vw.at y0)  : vw.at (drnRx type f k s) = vw.at s := by
  simp only [drnRx]
  repeat' split
  all_goals simp [*]

@[simp] theorem execHeartbeat_view (hx_regs : vw.free .regs) (hx_links : vw.free .links) (f : Frame) (s : State)  : NextP (fun t => vw.at t = vw.at s) (execHeartbeat f s) := by
  simp [execHeartbeat, *]

@[simp] theorem takeAddress_view (hx_regs : vw.free .regs) (hx_links : vw.free .links) (hx_group : vw.free .group) (b : List Byte) (s : State)  : vw.at (takeAddress b s) = vw.at s := by
  simp [takeAddress, *]

@[simp] theorem execAddress_view (hx_regs : vw.free .regs) (hx_links : vw.free .links) (hx_group : vw.free .group) (f : Frame) (s : State)  : NextP (fun t => vw.at t = vw.at s) (execAddress f s) := by
  unfold execAddress
  try dsimp only
  repeat' split
  all_goals first | (simp [*]; done) | (split_ifs <;> simp [*]; done) | (simp [apply_ite (View.at vw), *]; done) | (simp; split_ifs <;> simp [*]; done)

@[simp] theorem takeAdmitReq_view (hx_regs : vw.free .regs) (hx_tenants : vw.free .tenants) (hx_journal : vw.free .journal) (hx_links : vw.free .links) (hx_group : vw.free .group) (hx_hot : vw.free .hot) (b : List Byte) (s : State)  : vw.at (takeAdmitReq b s) = vw.at s := by
  simp only [takeAdmitReq]
  repeat' split
  all_goals simp [*]

@[simp] theorem execAdmitReq_view (hx_regs : vw.free .regs) (hx_tenants : vw.free .tenants) (hx_journal : vw.free .journal) (hx_links : vw.free .links) (hx_group : vw.free .group) (hx_hot : vw.free .hot) (f : Frame) (s : State)  : NextP (fun t => vw.at t = vw.at s) (execAdmitReq f s) := by
  unfold execAdmitReq
  try dsimp only
  repeat' split
  all_goals first | (simp [*]; done) | (split_ifs <;> simp [*]; done) | (simp [apply_ite (View.at vw), *]; done) | (simp; split_ifs <;> simp [*]; done)

@[simp] theorem execAdmitFrame_view (hx_regs : vw.free .regs) (hx_links : vw.free .links) (hx_group : vw.free .group) (f : Frame) (s : State)  : NextP (fun t => vw.at t = vw.at s) (execAdmitFrame f s) := by
  unfold execAdmitFrame
  try dsimp only
  repeat' split
  all_goals first | (simp [*]; done) | (split_ifs <;> simp [*]; done) | (simp [apply_ite (View.at vw), *]; done) | (simp; split_ifs <;> simp [*]; done)

@[simp] theorem execDetach_view (hx_regs : vw.free .regs) (hx_mem : vw.free .mem) (hx_tenants : vw.free .tenants) (hx_devices : vw.free .devices) (hx_ports : vw.free .ports) (hx_pads : vw.free .pads) (hx_fifos : vw.free .fifos) (hx_chans : vw.free .chans) (hx_journal : vw.free .journal) (hx_remote : vw.free .remote) (hx_delayed : vw.free .delayed) (hx_links : vw.free .links) (hx_group : vw.free .group) (hx_host : vw.free .host) (hx_hot : vw.free .hot) (f : Frame) (s : State)  : NextP (fun t => vw.at t = vw.at s) (execDetach f s) := by
  unfold execDetach
  try dsimp only
  repeat' split
  all_goals first | (simp [*]; done) | (split_ifs <;> simp [*]; done) | (simp [apply_ite (View.at vw), *]; done) | (simp; split_ifs <;> simp [*]; done)

@[simp] theorem sendTicks_view (hx_links : vw.free .links) (hx_group : vw.free .group) (b : List Byte) (s : State)  : vw.at (sendTicks b s) = vw.at s := by
  unfold sendTicks
  try dsimp only
  repeat' split
  all_goals first | (simp [*]; done) | (split_ifs <;> simp [*]; done) | (simp [apply_ite (View.at vw), *]; done) | (simp; split_ifs <;> simp [*]; done)

@[simp] theorem tickCalendar_view (hx_time : vw.free .time) (k : Nat) (cal : Nat) (s : State)  : vw.at (tickCalendar k cal s) = vw.at s := by
  simp [tickCalendar, *]

@[simp] theorem tickFields_view (hx_regs : vw.free .regs) (hx_time : vw.free .time) (b : List Byte) (s : State)  : vw.at (tickFields b s) = vw.at s := by
  simp [tickFields, *]

@[simp] theorem passTick_view (hx_links : vw.free .links) (hx_group : vw.free .group) (hx_fresh : vw.free .fresh) (b : List Byte) (s : State)  : vw.at (passTick b s) = vw.at s := by
  simp [passTick, *]

@[simp] theorem takeTick_view (hx_regs : vw.free .regs) (hx_time : vw.free .time) (hx_journal : vw.free .journal) (hx_links : vw.free .links) (hx_group : vw.free .group) (hx_hot : vw.free .hot) (hx_fresh : vw.free .fresh) (b : List Byte) (s : State) : vw.at (takeTick b s) = vw.at s := by
  have h : ∀ (p : Prop) [Decidable p] (x y : State), vw.at x = vw.at s → vw.at y = vw.at s → vw.at (if p then x else y) = vw.at s := by
    intro p _ x y hx hy; split <;> assumption
  unfold takeTick
  extract_lets k pd new changed u v w
  have hv : vw.at v = vw.at s := by simp [v, u, *]
  have hw : vw.at w = vw.at s := h _ _ _ (by simp [*]) hv
  refine h _ _ _ (by simp [*]) (h _ _ _ (by simp [*]) hw)

@[simp] theorem heardFields_view (hx_regs : vw.free .regs) (hx_time : vw.free .time) (s : State)  : vw.at (heardFields s) = vw.at s := by
  simp [heardFields, *]

@[simp] theorem tickOut_view (hx_links : vw.free .links) (hx_group : vw.free .group) (hx_fresh : vw.free .fresh) (s : State)  : vw.at (tickOut s) = vw.at s := by
  simp [tickOut, *]

@[simp] theorem execTick_view (hx_regs : vw.free .regs) (hx_time : vw.free .time) (hx_journal : vw.free .journal) (hx_links : vw.free .links) (hx_group : vw.free .group) (hx_hot : vw.free .hot) (hx_fresh : vw.free .fresh) (f : Frame) (s : State)  : NextP (fun t => vw.at t = vw.at s) (execTick f s) := by
  unfold execTick
  try dsimp only
  repeat' split
  all_goals first | (simp [*]; done) | (split_ifs <;> simp [*]; done) | (simp [apply_ite (View.at vw), *]; done) | (simp; split_ifs <;> simp [*]; done)

@[simp] theorem chainTake_view (hx_regs : vw.free .regs) (hx_journal : vw.free .journal) (b : List Byte) (s : State)  : vw.at (chainTake b s) = vw.at s := by
  simp only [chainTake]
  repeat' split
  all_goals simp [*]

@[simp] theorem takeStream_view (hx_regs : vw.free .regs) (hx_journal : vw.free .journal) (hx_links : vw.free .links) (b : List Byte) (s : State)  : vw.at (takeStream b s) = vw.at s := by
  unfold takeStream
  split <;> simp [*]

@[simp] theorem execDrnJournal_view (hx_regs : vw.free .regs) (hx_journal : vw.free .journal) (hx_links : vw.free .links) (f : Frame) (s : State)  : NextP (fun t => vw.at t = vw.at s) (execDrnJournal f s) := by
  simp [execDrnJournal, *]

@[simp] theorem execCapacity_view (hx_regs : vw.free .regs) (hx_links : vw.free .links) (hx_group : vw.free .group) (f : Frame) (s : State)  : NextP (fun t => vw.at t = vw.at s) (execCapacity f s) := by
  unfold execCapacity
  split <;> simp [*]

@[simp] theorem laneFailed_view (hx_regs : vw.free .regs) (hx_journal : vw.free .journal) (hx_links : vw.free .links) (hx_guard : vw.free .guard) (hx_hot : vw.free .hot) (p : Nat) (l : Nat) (s : State)  : vw.at (laneFailed p l s) = vw.at s := by
  simp only [laneFailed]
  repeat' split
  all_goals simp [*]

@[simp] theorem execLaneFail_view (hx_regs : vw.free .regs) (hx_journal : vw.free .journal) (hx_links : vw.free .links) (hx_guard : vw.free .guard) (hx_hot : vw.free .hot) (p : DrnPort) (lane : Fin 5) (s : State)  : NextP (fun t => vw.at t = vw.at s) (execLaneFail p lane s) := by
  unfold execLaneFail
  split <;> simp [*]

@[simp] theorem execLaneSwapDone_view (hx_regs : vw.free .regs) (hx_links : vw.free .links) (p : DrnPort) (s : State)  : NextP (fun t => vw.at t = vw.at s) (execLaneSwapDone p s) := by
  unfold execLaneSwapDone
  repeat' split
  all_goals simp [*]

@[simp] theorem execLinkLoss_view (hx_regs : vw.free .regs) (hx_mem : vw.free .mem) (hx_time : vw.free .time) (hx_tenants : vw.free .tenants) (hx_devices : vw.free .devices) (hx_ports : vw.free .ports) (hx_pads : vw.free .pads) (hx_fifos : vw.free .fifos) (hx_chans : vw.free .chans) (hx_journal : vw.free .journal) (hx_remote : vw.free .remote) (hx_delayed : vw.free .delayed) (hx_links : vw.free .links) (hx_group : vw.free .group) (hx_host : vw.free .host) (hx_hot : vw.free .hot) (p : DrnPort) (s : State)  : NextP (fun t => vw.at t = vw.at s) (execLinkLoss p s) := by
  unfold execLinkLoss
  try dsimp only
  repeat' split
  all_goals first | (simp [*]; done) | (split_ifs <;> simp [*]; done) | (simp [apply_ite (View.at vw), *]; done) | (simp; split_ifs <;> simp [*]; done)

@[simp] theorem electHead_view (hx_regs : vw.free .regs) (hx_links : vw.free .links) (hx_group : vw.free .group) (s : State) : vw.at (electHead s) = vw.at s := by
  simp only [electHead]
  repeat' split
  all_goals simp [*]

@[simp] theorem execHeadElection_view (hx_regs : vw.free .regs) (hx_time : vw.free .time) (hx_links : vw.free .links) (hx_group : vw.free .group) (s : State)  : NextP (fun t => vw.at t = vw.at s) (execHeadElection s) := by
  unfold execHeadElection
  split <;> simp [*]

@[simp] theorem execStandaloneDecision_view (hx_regs : vw.free .regs) (hx_time : vw.free .time) (hx_group : vw.free .group) (s : State)  : NextP (fun t => vw.at t = vw.at s) (execStandaloneDecision s) := by
  simp [execStandaloneDecision, *]

@[simp] theorem execDelayMeasure_view (hx_regs : vw.free .regs) (p : DrnPort) (roundTrip : BitVec 24) (s : State)  : NextP (fun t => vw.at t = vw.at s) (execDelayMeasure p roundTrip s) := by
  unfold execDelayMeasure
  split <;> simp [*]

@[simp] theorem xcReset_view (hx_regs : vw.free .regs) (x : Nat) (drops : Nat) (s : State)  : vw.at (xcReset x drops s) = vw.at s := by
  simp [xcReset, *]

@[simp] theorem execCrossingResync_view (hx_regs : vw.free .regs) (hx_journal : vw.free .journal) (hx_links : vw.free .links) (hx_guard : vw.free .guard) (hx_hot : vw.free .hot) (x : Fin 24) (s : State)  : NextP (fun t => vw.at t = vw.at s) (execCrossingResync x s) := by
  unfold execCrossingResync
  split <;> simp [*]

@[simp] theorem darkAccept_view (hx_regs : vw.free .regs) (hx_mem : vw.free .mem) (hx_tenants : vw.free .tenants) (hx_devices : vw.free .devices) (hx_ports : vw.free .ports) (hx_pads : vw.free .pads) (hx_fifos : vw.free .fifos) (hx_chans : vw.free .chans) (hx_journal : vw.free .journal) (hx_locks : vw.free .locks) (hx_remote : vw.free .remote) (hx_delayed : vw.free .delayed) (hx_links : vw.free .links) (hx_group : vw.free .group) (hx_guard : vw.free .guard) (hx_power : vw.free .power) (hx_host : vw.free .host) (hx_admin : vw.free .admin) (hx_hot : vw.free .hot) (hx_fresh : vw.free .fresh) (n : Nat) (s : State)  : vw.at (darkAccept n s) = vw.at s := by
  simp [darkAccept, *]

@[simp] theorem darkChannels_view (hx_regs : vw.free .regs) (hx_tenants : vw.free .tenants) (hx_chans : vw.free .chans) (hx_journal : vw.free .journal) (hx_links : vw.free .links) (hx_group : vw.free .group) (hx_host : vw.free .host) (hx_admin : vw.free .admin) (hx_hot : vw.free .hot) (hx_fresh : vw.free .fresh) (n : Nat) (s : State)  : vw.at (darkChannels n s) = vw.at s := by
  simp [darkChannels, *]

@[simp] theorem darkTick_view (hx_regs : vw.free .regs) (hx_mem : vw.free .mem) (hx_tenants : vw.free .tenants) (hx_devices : vw.free .devices) (hx_ports : vw.free .ports) (hx_pads : vw.free .pads) (hx_fifos : vw.free .fifos) (hx_chans : vw.free .chans) (hx_journal : vw.free .journal) (hx_locks : vw.free .locks) (hx_remote : vw.free .remote) (hx_delayed : vw.free .delayed) (hx_links : vw.free .links) (hx_group : vw.free .group) (hx_guard : vw.free .guard) (hx_power : vw.free .power) (hx_host : vw.free .host) (hx_admin : vw.free .admin) (hx_hot : vw.free .hot) (hx_fresh : vw.free .fresh) (n : Nat) (s : State)  : vw.at (darkTick n s) = vw.at s := by
  simp [darkTick, *]

@[simp] theorem execClusterDarkEntry_view (hx_regs : vw.free .regs) (hx_mem : vw.free .mem) (hx_tenants : vw.free .tenants) (hx_devices : vw.free .devices) (hx_ports : vw.free .ports) (hx_pads : vw.free .pads) (hx_fifos : vw.free .fifos) (hx_chans : vw.free .chans) (hx_journal : vw.free .journal) (hx_locks : vw.free .locks) (hx_remote : vw.free .remote) (hx_delayed : vw.free .delayed) (hx_links : vw.free .links) (hx_group : vw.free .group) (hx_guard : vw.free .guard) (hx_power : vw.free .power) (hx_host : vw.free .host) (hx_admin : vw.free .admin) (hx_hot : vw.free .hot) (hx_fresh : vw.free .fresh) (n : ClusterId) (s : State)  : NextP (fun t => vw.at t = vw.at s) (execClusterDarkEntry n s) := by
  unfold execClusterDarkEntry
  split <;> simp [*]

@[simp] theorem saveConfig_view (hx_power : vw.free .power) (n : Nat) (s : State)  : vw.at (saveConfig n s) = vw.at s := by
  simp [saveConfig, *]

@[simp] theorem restoreConfig_view (hx_regs : vw.free .regs) (hx_mem : vw.free .mem) (hx_fifos : vw.free .fifos) (hx_clusters : vw.free .clusters) (hx_power : vw.free .power) (hx_hot : vw.free .hot) (n : Nat) (s : State)  : vw.at (restoreConfig n s) = vw.at s := by
  simp [restoreConfig, *]

@[simp] theorem clusterReset_view (hx_regs : vw.free .regs) (hx_mem : vw.free .mem) (hx_fifos : vw.free .fifos) (hx_clusters : vw.free .clusters) (hx_cores : vw.free .cores) (hx_locks : vw.free .locks) (hx_holds : vw.free .holds) (n : Nat) (s : State)  : vw.at (clusterReset n s) = vw.at s := by
  simp [clusterReset, *]

@[simp] theorem deepSteps_view (hx_regs : vw.free .regs) (hx_journal : vw.free .journal) (hx_links : vw.free .links) (hx_power : vw.free .power) (hx_hot : vw.free .hot) (hx_fresh : vw.free .fresh) (s : State)  : vw.at (deepSteps s) = vw.at s := by
  unfold deepSteps
  split <;> simp [*]

@[simp] theorem darkDone_view (hx_regs : vw.free .regs) (hx_mem : vw.free .mem) (hx_tenants : vw.free .tenants) (hx_devices : vw.free .devices) (hx_ports : vw.free .ports) (hx_pads : vw.free .pads) (hx_fifos : vw.free .fifos) (hx_chans : vw.free .chans) (hx_journal : vw.free .journal) (hx_clusters : vw.free .clusters) (hx_cores : vw.free .cores) (hx_locks : vw.free .locks) (hx_remote : vw.free .remote) (hx_delayed : vw.free .delayed) (hx_links : vw.free .links) (hx_group : vw.free .group) (hx_guard : vw.free .guard) (hx_holds : vw.free .holds) (hx_power : vw.free .power) (hx_host : vw.free .host) (hx_admin : vw.free .admin) (hx_hot : vw.free .hot) (hx_fresh : vw.free .fresh) (n : Nat) (s : State)  : vw.at (darkDone n s) = vw.at s := by
  simp only [darkDone]
  repeat' split
  all_goals simp [*]

@[simp] theorem execClusterDarkDone_view (hx_regs : vw.free .regs) (hx_mem : vw.free .mem) (hx_tenants : vw.free .tenants) (hx_devices : vw.free .devices) (hx_ports : vw.free .ports) (hx_pads : vw.free .pads) (hx_fifos : vw.free .fifos) (hx_chans : vw.free .chans) (hx_journal : vw.free .journal) (hx_clusters : vw.free .clusters) (hx_cores : vw.free .cores) (hx_locks : vw.free .locks) (hx_remote : vw.free .remote) (hx_delayed : vw.free .delayed) (hx_links : vw.free .links) (hx_group : vw.free .group) (hx_guard : vw.free .guard) (hx_holds : vw.free .holds) (hx_power : vw.free .power) (hx_host : vw.free .host) (hx_admin : vw.free .admin) (hx_hot : vw.free .hot) (hx_fresh : vw.free .fresh) (n : ClusterId) (s : State)  : NextP (fun t => vw.at t = vw.at s) (execClusterDarkDone n s) := by
  unfold execClusterDarkDone
  repeat' split
  all_goals simp [*]

@[simp] theorem execWakeRequest_view (hx_regs : vw.free .regs) (hx_power : vw.free .power) (n : ClusterId) (s : State)  : NextP (fun t => vw.at t = vw.at s) (execWakeRequest n s) := by
  unfold execWakeRequest
  split <;> simp [*]

@[simp] theorem execClusterResetRelease_view (hx_regs : vw.free .regs) (hx_mem : vw.free .mem) (hx_fifos : vw.free .fifos) (hx_clusters : vw.free .clusters) (hx_cores : vw.free .cores) (hx_locks : vw.free .locks) (hx_holds : vw.free .holds) (hx_power : vw.free .power) (n : ClusterId) (s : State)  : NextP (fun t => vw.at t = vw.at s) (execClusterResetRelease n s) := by
  unfold execClusterResetRelease
  split <;> simp [*]

@[simp] theorem takeBells_view (hx_regs : vw.free .regs) (hx_hot : vw.free .hot) (t : Nat) (s : State)  : vw.at (takeBells t s).2 = vw.at s := by
  simp [takeBells, *]

@[simp] theorem wakeTenant_view (hx_regs : vw.free .regs) (hx_tenants : vw.free .tenants) (hx_devices : vw.free .devices) (hx_links : vw.free .links) (hx_host : vw.free .host) (hx_hot : vw.free .hot) (t : Nat) (s : State)  : vw.at (wakeTenant t s) = vw.at s := by
  simp only [wakeTenant]
  repeat' split
  all_goals simp [*]

@[simp] theorem wakeTick_view (hx_regs : vw.free .regs) (hx_mem : vw.free .mem) (hx_tenants : vw.free .tenants) (hx_devices : vw.free .devices) (hx_ports : vw.free .ports) (hx_pads : vw.free .pads) (hx_fifos : vw.free .fifos) (hx_journal : vw.free .journal) (hx_clusters : vw.free .clusters) (hx_links : vw.free .links) (hx_group : vw.free .group) (hx_power : vw.free .power) (hx_host : vw.free .host) (hx_admin : vw.free .admin) (hx_hot : vw.free .hot) (hx_fresh : vw.free .fresh) (n : Nat) (s : State)  : vw.at (wakeTick n s) = vw.at s := by
  simp [wakeTick, *]

@[simp] theorem execClusterWakeTick_view (hx_regs : vw.free .regs) (hx_mem : vw.free .mem) (hx_tenants : vw.free .tenants) (hx_devices : vw.free .devices) (hx_ports : vw.free .ports) (hx_pads : vw.free .pads) (hx_fifos : vw.free .fifos) (hx_journal : vw.free .journal) (hx_clusters : vw.free .clusters) (hx_links : vw.free .links) (hx_group : vw.free .group) (hx_power : vw.free .power) (hx_host : vw.free .host) (hx_admin : vw.free .admin) (hx_hot : vw.free .hot) (hx_fresh : vw.free .fresh) (n : ClusterId) (s : State)  : NextP (fun t => vw.at t = vw.at s) (execClusterWakeTick n s) := by
  unfold execClusterWakeTick
  split <;> simp [*]

@[simp] theorem railRaise_view (hx_regs : vw.free .regs) (n : Nat) (k : Nat) (s : State)  : vw.at (railRaise n k s) = vw.at s := by
  unfold railRaise
  split <;> simp [*]

@[simp] theorem govern_view (hx_regs : vw.free .regs) (n : Nat) (s : State)  : vw.at (govern n s) = vw.at s := by
  simp only [govern]
  repeat' split
  all_goals simp [*]

@[simp] theorem execGovernorDecision_view (hx_regs : vw.free .regs) (n : ClusterId) (s : State)  : NextP (fun t => vw.at t = vw.at s) (execGovernorDecision n s) := by
  unfold execGovernorDecision
  split <;> simp [*]

@[simp] theorem govWrite_view (hx_regs : vw.free .regs) (a : Nat) (v : Word) (s : State)  : vw.at (govWrite a v s) = vw.at s := by
  simp [govWrite, *]

@[simp] theorem resetTo_view (hx_regs : vw.free .regs) (hx_mem : vw.free .mem) (hx_time : vw.free .time) (hx_cal : vw.free .cal) (hx_tenants : vw.free .tenants) (hx_devices : vw.free .devices) (hx_ports : vw.free .ports) (hx_images : vw.free .images) (hx_pads : vw.free .pads) (hx_pgOn : vw.free .pgOn) (hx_fifos : vw.free .fifos) (hx_chans : vw.free .chans) (hx_lgroups : vw.free .lgroups) (hx_journal : vw.free .journal) (hx_clusters : vw.free .clusters) (hx_cores : vw.free .cores) (hx_locks : vw.free .locks) (hx_remote : vw.free .remote) (hx_delayed : vw.free .delayed) (hx_xfers : vw.free .xfers) (hx_xferNext : vw.free .xferNext) (hx_arbs : vw.free .arbs) (hx_links : vw.free .links) (hx_group : vw.free .group) (hx_guard : vw.free .guard) (hx_holds : vw.free .holds) (hx_power : vw.free .power) (hx_host : vw.free .host) (hx_admin : vw.free .admin) (hx_hot : vw.free .hot) (hx_fresh : vw.free .fresh) (keep : Nat → Bool) (s : State) : vw.at (resetTo keep s) = vw.at s := by
  refine view_all vw (fun p => ?_) rfl
  cases p <;> assumption

@[simp] theorem fullReset_view (hx_regs : vw.free .regs) (hx_mem : vw.free .mem) (hx_time : vw.free .time) (hx_cal : vw.free .cal) (hx_tenants : vw.free .tenants) (hx_devices : vw.free .devices) (hx_ports : vw.free .ports) (hx_images : vw.free .images) (hx_pads : vw.free .pads) (hx_pgOn : vw.free .pgOn) (hx_fifos : vw.free .fifos) (hx_chans : vw.free .chans) (hx_lgroups : vw.free .lgroups) (hx_journal : vw.free .journal) (hx_clusters : vw.free .clusters) (hx_cores : vw.free .cores) (hx_locks : vw.free .locks) (hx_remote : vw.free .remote) (hx_delayed : vw.free .delayed) (hx_xfers : vw.free .xfers) (hx_xferNext : vw.free .xferNext) (hx_arbs : vw.free .arbs) (hx_links : vw.free .links) (hx_group : vw.free .group) (hx_guard : vw.free .guard) (hx_holds : vw.free .holds) (hx_power : vw.free .power) (hx_host : vw.free .host) (hx_admin : vw.free .admin) (hx_hot : vw.free .hot) (hx_fresh : vw.free .fresh) (cause : Nat) (s : State)  : vw.at (fullReset cause s) = vw.at s := by
  simp [fullReset, *]

@[simp] theorem execPowerOnReset_view (hx_regs : vw.free .regs) (hx_mem : vw.free .mem) (hx_time : vw.free .time) (hx_cal : vw.free .cal) (hx_tenants : vw.free .tenants) (hx_devices : vw.free .devices) (hx_ports : vw.free .ports) (hx_images : vw.free .images) (hx_pads : vw.free .pads) (hx_pgOn : vw.free .pgOn) (hx_fifos : vw.free .fifos) (hx_chans : vw.free .chans) (hx_lgroups : vw.free .lgroups) (hx_journal : vw.free .journal) (hx_clusters : vw.free .clusters) (hx_cores : vw.free .cores) (hx_locks : vw.free .locks) (hx_remote : vw.free .remote) (hx_delayed : vw.free .delayed) (hx_xfers : vw.free .xfers) (hx_xferNext : vw.free .xferNext) (hx_arbs : vw.free .arbs) (hx_links : vw.free .links) (hx_group : vw.free .group) (hx_guard : vw.free .guard) (hx_holds : vw.free .holds) (hx_power : vw.free .power) (hx_host : vw.free .host) (hx_admin : vw.free .admin) (hx_hot : vw.free .hot) (hx_fresh : vw.free .fresh) (_vaon : Bool) (s : State)  : NextP (fun t => vw.at t = vw.at s) (execPowerOnReset _vaon s) := by
  simp [execPowerOnReset, *]

@[simp] theorem execResetPin_view (hx_regs : vw.free .regs) (hx_mem : vw.free .mem) (hx_time : vw.free .time) (hx_cal : vw.free .cal) (hx_tenants : vw.free .tenants) (hx_devices : vw.free .devices) (hx_ports : vw.free .ports) (hx_images : vw.free .images) (hx_pads : vw.free .pads) (hx_pgOn : vw.free .pgOn) (hx_fifos : vw.free .fifos) (hx_chans : vw.free .chans) (hx_lgroups : vw.free .lgroups) (hx_journal : vw.free .journal) (hx_clusters : vw.free .clusters) (hx_cores : vw.free .cores) (hx_locks : vw.free .locks) (hx_remote : vw.free .remote) (hx_delayed : vw.free .delayed) (hx_xfers : vw.free .xfers) (hx_xferNext : vw.free .xferNext) (hx_arbs : vw.free .arbs) (hx_links : vw.free .links) (hx_group : vw.free .group) (hx_guard : vw.free .guard) (hx_holds : vw.free .holds) (hx_power : vw.free .power) (hx_host : vw.free .host) (hx_admin : vw.free .admin) (hx_hot : vw.free .hot) (hx_fresh : vw.free .fresh) (s : State)  : NextP (fun t => vw.at t = vw.at s) (execResetPin s) := by
  simp [execResetPin, *]

@[simp] theorem pwrRstWrite_view (hx_regs : vw.free .regs) (hx_mem : vw.free .mem) (hx_time : vw.free .time) (hx_cal : vw.free .cal) (hx_tenants : vw.free .tenants) (hx_devices : vw.free .devices) (hx_ports : vw.free .ports) (hx_images : vw.free .images) (hx_pads : vw.free .pads) (hx_pgOn : vw.free .pgOn) (hx_fifos : vw.free .fifos) (hx_chans : vw.free .chans) (hx_lgroups : vw.free .lgroups) (hx_journal : vw.free .journal) (hx_clusters : vw.free .clusters) (hx_cores : vw.free .cores) (hx_locks : vw.free .locks) (hx_remote : vw.free .remote) (hx_delayed : vw.free .delayed) (hx_xfers : vw.free .xfers) (hx_xferNext : vw.free .xferNext) (hx_arbs : vw.free .arbs) (hx_links : vw.free .links) (hx_group : vw.free .group) (hx_guard : vw.free .guard) (hx_holds : vw.free .holds) (hx_power : vw.free .power) (hx_host : vw.free .host) (hx_admin : vw.free .admin) (hx_hot : vw.free .hot) (hx_fresh : vw.free .fresh) (v : Word) (s : State)  : vw.at (pwrRstWrite v s) = vw.at s := by
  unfold pwrRstWrite
  split <;> simp [*]

@[simp] theorem execSoftReset_view (hx_regs : vw.free .regs) (hx_mem : vw.free .mem) (hx_time : vw.free .time) (hx_cal : vw.free .cal) (hx_tenants : vw.free .tenants) (hx_devices : vw.free .devices) (hx_ports : vw.free .ports) (hx_images : vw.free .images) (hx_pads : vw.free .pads) (hx_pgOn : vw.free .pgOn) (hx_fifos : vw.free .fifos) (hx_chans : vw.free .chans) (hx_lgroups : vw.free .lgroups) (hx_journal : vw.free .journal) (hx_clusters : vw.free .clusters) (hx_cores : vw.free .cores) (hx_locks : vw.free .locks) (hx_remote : vw.free .remote) (hx_delayed : vw.free .delayed) (hx_xfers : vw.free .xfers) (hx_xferNext : vw.free .xferNext) (hx_arbs : vw.free .arbs) (hx_links : vw.free .links) (hx_group : vw.free .group) (hx_guard : vw.free .guard) (hx_holds : vw.free .holds) (hx_power : vw.free .power) (hx_host : vw.free .host) (hx_admin : vw.free .admin) (hx_hot : vw.free .hot) (hx_fresh : vw.free .fresh) (c : CoreId) (v : Word) (s : State)  : NextP (fun t => vw.at t = vw.at s) (execSoftReset c v s) := by
  simp [execSoftReset, *]

@[simp] theorem execResetRelease_view (hx_regs : vw.free .regs) (hx_power : vw.free .power) (hx_host : vw.free .host) (bootsel : Bool) (head : Bool) (s : State)  : NextP (fun t => vw.at t = vw.at s) (execResetRelease bootsel head s) := by
  unfold execResetRelease
  split <;> simp [*]

@[simp] theorem execSupplyDip_view (hx_regs : vw.free .regs) (hx_hot : vw.free .hot) (i : Fin 4) (s : State)  : NextP (fun t => vw.at t = vw.at s) (execSupplyDip i s) := by
  unfold execSupplyDip
  split <;> simp [*]

@[simp] theorem swapWindows_view (hx_mem : vw.free .mem) (s : State)  : vw.at (swapWindows s) = vw.at s := by
  simp [swapWindows, *]

@[simp] theorem mapSlot_view (hx_mem : vw.free .mem) (hx_host : vw.free .host) (k : Nat) (s : State)  : vw.at (mapSlot k s) = vw.at s := by
  unfold mapSlot
  split <;> simp [*]

@[simp] theorem bootRelease_view (hx_regs : vw.free .regs) (hx_cores : vw.free .cores) (hx_host : vw.free .host) (k : Nat) (fb : Nat) (s : State)  : vw.at (bootRelease k fb s) = vw.at s := by
  simp [bootRelease, *]

theorem bootTry_view (hx_regs : vw.free .regs) (hx_mem : vw.free .mem) (hx_cores : vw.free .cores) (hx_host : vw.free .host) (k fb : Nat) (s : State) : ∀ t, bootTry k fb s = some t → vw.at t = vw.at s := by
  intro t h
  unfold bootTry at h
  dsimp only at h
  split at h
  · simp only [Option.some.injEq] at h; subst h; simp [*]
  · cases h

@[simp] theorem bootRun_view (hx_regs : vw.free .regs) (hx_mem : vw.free .mem) (hx_cores : vw.free .cores) (hx_host : vw.free .host) (s : State) : vw.at (bootRun s) = vw.at s := by
  simp only [bootRun]
  generalize hu : setF fKeyfail _ s = u
  have hp : vw.at u = vw.at s := by rw [← hu]; exact setF_view _ _ _ (by assumption) _
  rw [← hp]
  split
  · simp [*]
  · split
    · rename_i g; exact bootTry_view _ (by assumption) (by assumption) (by assumption) (by assumption) _ _ _ _ g
    · split
      · rename_i g; exact bootTry_view _ (by assumption) (by assumption) (by assumption) (by assumption) _ _ _ _ g
      · simp [*]

@[simp] theorem execBoot_view (hx_regs : vw.free .regs) (hx_mem : vw.free .mem) (hx_cores : vw.free .cores) (hx_host : vw.free .host) (s : State)  : NextP (fun t => vw.at t = vw.at s) (execBoot s) := by
  unfold execBoot
  split <;> simp [*]

@[simp] theorem disableAll_view (hx_regs : vw.free .regs) (hx_tenants : vw.free .tenants) (hx_devices : vw.free .devices) (hx_ports : vw.free .ports) (hx_pads : vw.free .pads) (hx_fifos : vw.free .fifos) (hx_chans : vw.free .chans) (hx_journal : vw.free .journal) (hx_remote : vw.free .remote) (hx_delayed : vw.free .delayed) (hx_links : vw.free .links) (hx_group : vw.free .group) (hx_hot : vw.free .hot) (s : State)  : vw.at (disableAll s) = vw.at s := by
  simp [disableAll, *]

@[simp] theorem tellVfs_view (hx_links : vw.free .links) (s : State)  : vw.at (tellVfs s) = vw.at s := by
  simp [tellVfs, *]

@[simp] theorem sriovOff_view (hx_regs : vw.free .regs) (hx_tenants : vw.free .tenants) (hx_devices : vw.free .devices) (hx_ports : vw.free .ports) (hx_pads : vw.free .pads) (hx_fifos : vw.free .fifos) (hx_chans : vw.free .chans) (hx_journal : vw.free .journal) (hx_remote : vw.free .remote) (hx_delayed : vw.free .delayed) (hx_links : vw.free .links) (hx_group : vw.free .group) (hx_host : vw.free .host) (hx_hot : vw.free .hot) (s : State)  : vw.at (sriovOff s) = vw.at s := by
  simp [sriovOff, *]

@[simp] theorem endpointReset_view (hx_regs : vw.free .regs) (hx_tenants : vw.free .tenants) (hx_devices : vw.free .devices) (hx_ports : vw.free .ports) (hx_pads : vw.free .pads) (hx_fifos : vw.free .fifos) (hx_chans : vw.free .chans) (hx_journal : vw.free .journal) (hx_remote : vw.free .remote) (hx_delayed : vw.free .delayed) (hx_xfers : vw.free .xfers) (hx_links : vw.free .links) (hx_group : vw.free .group) (hx_host : vw.free .host) (hx_hot : vw.free .hot) (s : State)  : vw.at (endpointReset s) = vw.at s := by
  simp [endpointReset, *]

@[simp] theorem execEndpointReset_view (hx_regs : vw.free .regs) (hx_tenants : vw.free .tenants) (hx_devices : vw.free .devices) (hx_ports : vw.free .ports) (hx_pads : vw.free .pads) (hx_fifos : vw.free .fifos) (hx_chans : vw.free .chans) (hx_journal : vw.free .journal) (hx_remote : vw.free .remote) (hx_delayed : vw.free .delayed) (hx_xfers : vw.free .xfers) (hx_links : vw.free .links) (hx_group : vw.free .group) (hx_host : vw.free .host) (hx_hot : vw.free .hot) (s : State)  : NextP (fun t => vw.at t = vw.at s) (execEndpointReset s) := by
  simp [execEndpointReset, *]

@[simp] theorem updRootPort_view (hx_host : vw.free .host) (i : Fin 4) (f : RootPort → RootPort) (s : State)  : vw.at (updRootPort i f s) = vw.at s := by
  simp [updRootPort, *]

@[simp] theorem failMembers_view (hx_regs : vw.free .regs) (hx_journal : vw.free .journal) (hx_links : vw.free .links) (hx_hot : vw.free .hot) (i : Nat) (s : State)  : vw.at (failMembers i s) = vw.at s := by
  simp [failMembers, *]

@[simp] theorem execDriveRemoved_view (hx_regs : vw.free .regs) (hx_journal : vw.free .journal) (hx_links : vw.free .links) (hx_host : vw.free .host) (hx_hot : vw.free .hot) (i : Fin 4) (s : State)  : NextP (fun t => vw.at t = vw.at s) (execDriveRemoved i s) := by
  unfold execDriveRemoved
  split <;> simp [*]

@[simp] theorem execDriveInserted_view (hx_host : vw.free .host) (i : Fin 4) (s : State)  : NextP (fun t => vw.at t = vw.at s) (execDriveInserted i s) := by
  unfold execDriveInserted
  split <;> simp [*]

@[simp] theorem execRootPortRetrain_view (hx_regs : vw.free .regs) (hx_time : vw.free .time) (hx_journal : vw.free .journal) (hx_links : vw.free .links) (hx_host : vw.free .host) (hx_hot : vw.free .hot) (i : Fin 4) (s : State)  : NextP (fun t => vw.at t = vw.at s) (execRootPortRetrain i s) := by
  simp only [execRootPortRetrain]
  repeat' split
  all_goals simp [*]

@[simp] theorem lowPowerBegin_view (hx_regs : vw.free .regs) (hx_mem : vw.free .mem) (hx_tenants : vw.free .tenants) (hx_devices : vw.free .devices) (hx_ports : vw.free .ports) (hx_pads : vw.free .pads) (hx_fifos : vw.free .fifos) (hx_chans : vw.free .chans) (hx_journal : vw.free .journal) (hx_locks : vw.free .locks) (hx_remote : vw.free .remote) (hx_delayed : vw.free .delayed) (hx_links : vw.free .links) (hx_group : vw.free .group) (hx_guard : vw.free .guard) (hx_power : vw.free .power) (hx_host : vw.free .host) (hx_admin : vw.free .admin) (hx_hot : vw.free .hot) (hx_fresh : vw.free .fresh) (deep : Bool) (s : State)  : vw.at (lowPowerBegin deep s) = vw.at s := by
  simp [lowPowerBegin, *]

@[simp] theorem atE1_view (hx_regs : vw.free .regs) (hx_power : vw.free .power) (s : State)  : vw.at (atE1 s) = vw.at s := by
  unfold atE1
  split <;> simp [*]

@[simp] theorem deepOff_view (hx_regs : vw.free .regs) (hx_mem : vw.free .mem) (hx_time : vw.free .time) (hx_cal : vw.free .cal) (hx_tenants : vw.free .tenants) (hx_devices : vw.free .devices) (hx_ports : vw.free .ports) (hx_images : vw.free .images) (hx_pads : vw.free .pads) (hx_pgOn : vw.free .pgOn) (hx_fifos : vw.free .fifos) (hx_chans : vw.free .chans) (hx_lgroups : vw.free .lgroups) (hx_journal : vw.free .journal) (hx_clusters : vw.free .clusters) (hx_cores : vw.free .cores) (hx_locks : vw.free .locks) (hx_remote : vw.free .remote) (hx_delayed : vw.free .delayed) (hx_xfers : vw.free .xfers) (hx_xferNext : vw.free .xferNext) (hx_arbs : vw.free .arbs) (hx_links : vw.free .links) (hx_group : vw.free .group) (hx_guard : vw.free .guard) (hx_holds : vw.free .holds) (hx_power : vw.free .power) (hx_host : vw.free .host) (hx_admin : vw.free .admin) (hx_hot : vw.free .hot) (hx_fresh : vw.free .fresh) (s : State)  : vw.at (deepOff s) = vw.at s := by
  simp [deepOff, *]

@[simp] theorem execLowPowerEntryEnd_view (hx_regs : vw.free .regs) (hx_mem : vw.free .mem) (hx_time : vw.free .time) (hx_cal : vw.free .cal) (hx_tenants : vw.free .tenants) (hx_devices : vw.free .devices) (hx_ports : vw.free .ports) (hx_images : vw.free .images) (hx_pads : vw.free .pads) (hx_pgOn : vw.free .pgOn) (hx_fifos : vw.free .fifos) (hx_chans : vw.free .chans) (hx_lgroups : vw.free .lgroups) (hx_journal : vw.free .journal) (hx_clusters : vw.free .clusters) (hx_cores : vw.free .cores) (hx_locks : vw.free .locks) (hx_remote : vw.free .remote) (hx_delayed : vw.free .delayed) (hx_xfers : vw.free .xfers) (hx_xferNext : vw.free .xferNext) (hx_arbs : vw.free .arbs) (hx_links : vw.free .links) (hx_group : vw.free .group) (hx_guard : vw.free .guard) (hx_holds : vw.free .holds) (hx_power : vw.free .power) (hx_host : vw.free .host) (hx_admin : vw.free .admin) (hx_hot : vw.free .hot) (hx_fresh : vw.free .fresh) (s : State)  : NextP (fun t => vw.at t = vw.at s) (execLowPowerEntryEnd s) := by
  unfold execLowPowerEntryEnd
  repeat' split
  all_goals simp [*]

@[simp] theorem execNvmeShutdownTimeout_view (hx_time : vw.free .time) (hx_power : vw.free .power) (i : Fin 4) (s : State)  : NextP (fun t => vw.at t = vw.at s) (execNvmeShutdownTimeout i s) := by
  unfold execNvmeShutdownTimeout
  split <;> simp [*]

@[simp] theorem execLowPowerExit_view (hx_regs : vw.free .regs) (hx_mem : vw.free .mem) (hx_time : vw.free .time) (hx_cal : vw.free .cal) (hx_tenants : vw.free .tenants) (hx_devices : vw.free .devices) (hx_ports : vw.free .ports) (hx_images : vw.free .images) (hx_pads : vw.free .pads) (hx_pgOn : vw.free .pgOn) (hx_fifos : vw.free .fifos) (hx_chans : vw.free .chans) (hx_lgroups : vw.free .lgroups) (hx_journal : vw.free .journal) (hx_clusters : vw.free .clusters) (hx_cores : vw.free .cores) (hx_locks : vw.free .locks) (hx_remote : vw.free .remote) (hx_delayed : vw.free .delayed) (hx_xfers : vw.free .xfers) (hx_xferNext : vw.free .xferNext) (hx_arbs : vw.free .arbs) (hx_links : vw.free .links) (hx_group : vw.free .group) (hx_guard : vw.free .guard) (hx_holds : vw.free .holds) (hx_power : vw.free .power) (hx_host : vw.free .host) (hx_admin : vw.free .admin) (hx_hot : vw.free .hot) (hx_fresh : vw.free .fresh) (s : State)  : NextP (fun t => vw.at t = vw.at s) (execLowPowerExit s) := by
  unfold execLowPowerExit
  repeat' split
  all_goals simp [*]

@[simp] theorem execSmbusAddressMatch_view (hx_regs : vw.free .regs) (hx_power : vw.free .power) (s : State)  : NextP (fun t => vw.at t = vw.at s) (execSmbusAddressMatch s) := by
  unfold execSmbusAddressMatch
  split <;> simp [*]

@[simp] theorem sentryFire_view (hx_regs : vw.free .regs) (hx_power : vw.free .power) (hx_hot : vw.free .hot) (k : Nat) (s : State)  : vw.at (sentryFire k s) = vw.at s := by
  simp only [sentryFire]
  repeat' split
  all_goals simp [*]

@[simp] theorem execSentryFire_view (hx_regs : vw.free .regs) (hx_power : vw.free .power) (hx_hot : vw.free .hot) (k : Fin 16) (level : Bool) (s : State)  : NextP (fun t => vw.at t = vw.at s) (execSentryFire k level s) := by
  unfold execSentryFire
  split <;> simp [*]

@[simp] theorem alarmFire_view (hx_regs : vw.free .regs) (hx_power : vw.free .power) (hx_hot : vw.free .hot) (s : State)  : vw.at (alarmFire s) = vw.at s := by
  simp [alarmFire, *]

@[simp] theorem alarmCheck_view (hx_regs : vw.free .regs) (hx_power : vw.free .power) (hx_hot : vw.free .hot) (s : State)  : vw.at (alarmCheck s) = vw.at s := by
  simp [alarmCheck, *]

@[simp] theorem calUpdate_view (hx_regs : vw.free .regs) (hx_cal : vw.free .cal) (hx_tenants : vw.free .tenants) (hx_journal : vw.free .journal) (hx_links : vw.free .links) (hx_group : vw.free .group) (hx_power : vw.free .power) (hx_host : vw.free .host) (hx_admin : vw.free .admin) (hx_hot : vw.free .hot) (hx_fresh : vw.free .fresh) (s : State)  : vw.at (calUpdate s) = vw.at s := by
  unfold calUpdate
  split <;> simp [*]

@[simp] theorem execCalCycle_view (hx_regs : vw.free .regs) (hx_cal : vw.free .cal) (hx_tenants : vw.free .tenants) (hx_journal : vw.free .journal) (hx_links : vw.free .links) (hx_group : vw.free .group) (hx_power : vw.free .power) (hx_host : vw.free .host) (hx_admin : vw.free .admin) (hx_hot : vw.free .hot) (hx_fresh : vw.free .fresh) (s : State)  : NextP (fun t => vw.at t = vw.at s) (execCalCycle s) := by
  simp only [execCalCycle]
  repeat' split
  all_goals simp [*]

@[simp] theorem execCalStepApply_view (hx_regs : vw.free .regs) (hx_cal : vw.free .cal) (hx_tenants : vw.free .tenants) (hx_journal : vw.free .journal) (hx_links : vw.free .links) (hx_group : vw.free .group) (hx_power : vw.free .power) (hx_host : vw.free .host) (hx_admin : vw.free .admin) (hx_hot : vw.free .hot) (hx_fresh : vw.free .fresh) (s : State)  : NextP (fun t => vw.at t = vw.at s) (execCalStepApply s) := by
  unfold execCalStepApply
  repeat' split
  all_goals simp [*]

@[simp] theorem execAlarmFire_view (hx_regs : vw.free .regs) (hx_cal : vw.free .cal) (hx_tenants : vw.free .tenants) (hx_journal : vw.free .journal) (hx_links : vw.free .links) (hx_group : vw.free .group) (hx_power : vw.free .power) (hx_host : vw.free .host) (hx_admin : vw.free .admin) (hx_hot : vw.free .hot) (hx_fresh : vw.free .fresh) (s : State)  : NextP (fun t => vw.at t = vw.at s) (execAlarmFire s) := by
  simp only [execAlarmFire]
  repeat' split
  all_goals simp [*]

@[simp] theorem vfEnable_view (hx_regs : vw.free .regs) (hx_devices : vw.free .devices) (hx_links : vw.free .links) (hx_host : vw.free .host) (num : Nat) (s : State)  : vw.at (vfEnable num s) = vw.at s := by
  unfold vfEnable
  split <;> simp [*]

@[simp] theorem execVfEnableSet_view (hx_regs : vw.free .regs) (hx_devices : vw.free .devices) (hx_links : vw.free .links) (hx_host : vw.free .host) (num : BitVec 16) (s : State)  : NextP (fun t => vw.at t = vw.at s) (execVfEnableSet num s) := by
  simp [execVfEnableSet, *]

@[simp] theorem execVfEnableClear_view (hx_regs : vw.free .regs) (hx_tenants : vw.free .tenants) (hx_devices : vw.free .devices) (hx_ports : vw.free .ports) (hx_pads : vw.free .pads) (hx_fifos : vw.free .fifos) (hx_chans : vw.free .chans) (hx_journal : vw.free .journal) (hx_remote : vw.free .remote) (hx_delayed : vw.free .delayed) (hx_links : vw.free .links) (hx_group : vw.free .group) (hx_host : vw.free .host) (hx_hot : vw.free .hot) (s : State)  : NextP (fun t => vw.at t = vw.at s) (execVfEnableClear s) := by
  simp [execVfEnableClear, *]

@[simp] theorem execVfFlr_view (hx_regs : vw.free .regs) (hx_tenants : vw.free .tenants) (hx_devices : vw.free .devices) (hx_ports : vw.free .ports) (hx_pads : vw.free .pads) (hx_fifos : vw.free .fifos) (hx_chans : vw.free .chans) (hx_journal : vw.free .journal) (hx_remote : vw.free .remote) (hx_delayed : vw.free .delayed) (hx_links : vw.free .links) (hx_group : vw.free .group) (hx_hot : vw.free .hot) (t : TenantId) (s : State)  : NextP (fun t => vw.at t = vw.at s) (execVfFlr t s) := by
  unfold execVfFlr
  split <;> simp [*]

@[simp] theorem execPfFlr_view (hx_regs : vw.free .regs) (hx_tenants : vw.free .tenants) (hx_devices : vw.free .devices) (hx_ports : vw.free .ports) (hx_pads : vw.free .pads) (hx_fifos : vw.free .fifos) (hx_chans : vw.free .chans) (hx_journal : vw.free .journal) (hx_remote : vw.free .remote) (hx_delayed : vw.free .delayed) (hx_links : vw.free .links) (hx_group : vw.free .group) (hx_host : vw.free .host) (hx_admin : vw.free .admin) (hx_hot : vw.free .hot) (s : State)  : NextP (fun t => vw.at t = vw.at s) (execPfFlr s) := by
  simp [execPfFlr, *]

@[simp] theorem codePut_view (hx_mem : vw.free .mem) (off : Nat) (bs : List Byte) (s : State)  : vw.at (codePut off bs s).2 = vw.at s := by
  unfold codePut
  split <;> simp [*]

@[simp] theorem codeCommitNow_view (hx_regs : vw.free .regs) (hx_mem : vw.free .mem) (hx_host : vw.free .host) (s : State)  : vw.at (codeCommitNow s).2 = vw.at s := by
  unfold codeCommitNow
  repeat' split
  all_goals simp [*]

@[simp] theorem mgmt_view (hx_regs : vw.free .regs) (hx_host : vw.free .host) (hx_hot : vw.free .hot) (code : Nat) (m : MCmd) (k : List Byte → State → List Byte × State) (hk : ∀ b s, vw.at (k b s).2 = vw.at s) (s : State) : vw.at (mgmt code m k s) = vw.at s := by
  unfold mgmt
  split <;> simp [*, hk]

@[simp] theorem execGetId_view (hx_regs : vw.free .regs) (hx_host : vw.free .host) (hx_hot : vw.free .hot) (m : MCmd) (s : State)  : NextP (fun t => vw.at t = vw.at s) (execGetId m s) := by
  simp [execGetId, *]

@[simp] theorem execGetStatus_view (hx_regs : vw.free .regs) (hx_host : vw.free .host) (hx_hot : vw.free .hot) (m : MCmd) (s : State)  : NextP (fun t => vw.at t = vw.at s) (execGetStatus m s) := by
  simp [execGetStatus, *]

@[simp] theorem execMgmtReset_view (hx_regs : vw.free .regs) (hx_mem : vw.free .mem) (hx_time : vw.free .time) (hx_cal : vw.free .cal) (hx_tenants : vw.free .tenants) (hx_devices : vw.free .devices) (hx_ports : vw.free .ports) (hx_images : vw.free .images) (hx_pads : vw.free .pads) (hx_pgOn : vw.free .pgOn) (hx_fifos : vw.free .fifos) (hx_chans : vw.free .chans) (hx_lgroups : vw.free .lgroups) (hx_journal : vw.free .journal) (hx_clusters : vw.free .clusters) (hx_cores : vw.free .cores) (hx_locks : vw.free .locks) (hx_remote : vw.free .remote) (hx_delayed : vw.free .delayed) (hx_xfers : vw.free .xfers) (hx_xferNext : vw.free .xferNext) (hx_arbs : vw.free .arbs) (hx_links : vw.free .links) (hx_group : vw.free .group) (hx_guard : vw.free .guard) (hx_holds : vw.free .holds) (hx_power : vw.free .power) (hx_host : vw.free .host) (hx_admin : vw.free .admin) (hx_hot : vw.free .hot) (hx_fresh : vw.free .fresh) (m : MCmd) (s : State)  : NextP (fun t => vw.at t = vw.at s) (execMgmtReset m s) := by
  unfold execMgmtReset
  split <;> simp [*]

@[simp] theorem execMgmtCodeWrite_view (hx_regs : vw.free .regs) (hx_mem : vw.free .mem) (hx_host : vw.free .host) (hx_hot : vw.free .hot) (m : MCmd) (s : State)  : NextP (fun t => vw.at t = vw.at s) (execMgmtCodeWrite m s) := by
  unfold execMgmtCodeWrite
  (simp only [nextP_done]; refine mgmt_view vw (by assumption) (by assumption) (by assumption) _ _ _ (fun b s => ?_) _; (try dsimp only); (repeat' split); all_goals simp [*])

@[simp] theorem execMgmtCodeCommit_view (hx_regs : vw.free .regs) (hx_mem : vw.free .mem) (hx_host : vw.free .host) (hx_hot : vw.free .hot) (m : MCmd) (s : State)  : NextP (fun t => vw.at t = vw.at s) (execMgmtCodeCommit m s) := by
  simp [execMgmtCodeCommit, *]

@[simp] theorem execCodeRead_view (hx_regs : vw.free .regs) (hx_host : vw.free .host) (hx_hot : vw.free .hot) (m : MCmd) (s : State)  : NextP (fun t => vw.at t = vw.at s) (execCodeRead m s) := by
  unfold execCodeRead
  (simp only [nextP_done]; refine mgmt_view vw (by assumption) (by assumption) (by assumption) _ _ _ (fun b s => ?_) _; (try dsimp only); (repeat' split); all_goals simp [*])

@[simp] theorem execAdminSubmit_view (hx_regs : vw.free .regs) (hx_tenants : vw.free .tenants) (hx_journal : vw.free .journal) (hx_links : vw.free .links) (hx_group : vw.free .group) (hx_host : vw.free .host) (hx_hot : vw.free .hot) (hx_fresh : vw.free .fresh) (m : MCmd) (s : State)  : NextP (fun t => vw.at t = vw.at s) (execAdminSubmit m s) := by
  unfold execAdminSubmit
  (simp only [nextP_done]; refine mgmt_view vw (by assumption) (by assumption) (by assumption) _ _ _ (fun b s => ?_) _; (try dsimp only); (repeat' split); all_goals simp [*])

@[simp] theorem execAdminFetch_view (hx_regs : vw.free .regs) (hx_host : vw.free .host) (hx_hot : vw.free .hot) (m : MCmd) (s : State)  : NextP (fun t => vw.at t = vw.at s) (execAdminFetch m s) := by
  unfold execAdminFetch
  (simp only [nextP_done]; refine mgmt_view vw (by assumption) (by assumption) (by assumption) _ _ _ (fun b s => ?_) _; (try dsimp only); (repeat' split); all_goals simp [*])

@[simp] theorem execMgmtReplyRead_view (hx_regs : vw.free .regs) (hx_hot : vw.free .hot) (s : State)  : NextP (fun t => vw.at t = vw.at s) (execMgmtReplyRead s) := by
  unfold execMgmtReplyRead
  split <;> simp [*]

@[simp] theorem tapLoad_view (hx_host : vw.free .host) (code : Nat) (s : State)  : vw.at (tapLoad code s) = vw.at s := by
  simp [tapLoad, *]

@[simp] theorem tapTake_view (hx_regs : vw.free .regs) (hx_mem : vw.free .mem) (hx_tenants : vw.free .tenants) (hx_ports : vw.free .ports) (hx_pads : vw.free .pads) (hx_pgOn : vw.free .pgOn) (hx_fifos : vw.free .fifos) (hx_chans : vw.free .chans) (hx_lgroups : vw.free .lgroups) (hx_journal : vw.free .journal) (hx_links : vw.free .links) (hx_group : vw.free .group) (hx_guard : vw.free .guard) (hx_host : vw.free .host) (hx_hot : vw.free .hot) (code : Nat) (s : State)  : vw.at (tapTake code s) = vw.at s := by
  simp [tapTake, *]

@[simp] theorem execTapReset_view (hx_pads : vw.free .pads) (hx_host : vw.free .host) (s : State)  : NextP (fun t => vw.at t = vw.at s) (execTapReset s) := by
  simp [execTapReset, *]

@[simp] theorem execJtagBypass_view (hx_host : vw.free .host) (s : State)  : NextP (fun t => vw.at t = vw.at s) (execJtagBypass s) := by
  simp [execJtagBypass, *]

@[simp] theorem execIdcode_view (hx_host : vw.free .host) (s : State)  : NextP (fun t => vw.at t = vw.at s) (execIdcode s) := by
  simp [execIdcode, *]

@[simp] theorem execSamplePreload_view (hx_host : vw.free .host) (s : State)  : NextP (fun t => vw.at t = vw.at s) (execSamplePreload s) := by
  simp [execSamplePreload, *]

@[simp] theorem execExtest_view (hx_regs : vw.free .regs) (hx_mem : vw.free .mem) (hx_tenants : vw.free .tenants) (hx_ports : vw.free .ports) (hx_pads : vw.free .pads) (hx_pgOn : vw.free .pgOn) (hx_fifos : vw.free .fifos) (hx_chans : vw.free .chans) (hx_lgroups : vw.free .lgroups) (hx_journal : vw.free .journal) (hx_links : vw.free .links) (hx_group : vw.free .group) (hx_guard : vw.free .guard) (hx_host : vw.free .host) (hx_hot : vw.free .hot) (s : State)  : NextP (fun t => vw.at t = vw.at s) (execExtest s) := by
  simp [execExtest, *]

@[simp] theorem execClamp_view (hx_regs : vw.free .regs) (hx_mem : vw.free .mem) (hx_tenants : vw.free .tenants) (hx_ports : vw.free .ports) (hx_pads : vw.free .pads) (hx_pgOn : vw.free .pgOn) (hx_fifos : vw.free .fifos) (hx_chans : vw.free .chans) (hx_lgroups : vw.free .lgroups) (hx_journal : vw.free .journal) (hx_links : vw.free .links) (hx_group : vw.free .group) (hx_guard : vw.free .guard) (hx_host : vw.free .host) (hx_hot : vw.free .hot) (s : State)  : NextP (fun t => vw.at t = vw.at s) (execClamp s) := by
  simp [execClamp, *]

@[simp] theorem execHighz_view (hx_regs : vw.free .regs) (hx_mem : vw.free .mem) (hx_tenants : vw.free .tenants) (hx_ports : vw.free .ports) (hx_pads : vw.free .pads) (hx_pgOn : vw.free .pgOn) (hx_fifos : vw.free .fifos) (hx_chans : vw.free .chans) (hx_lgroups : vw.free .lgroups) (hx_journal : vw.free .journal) (hx_links : vw.free .links) (hx_group : vw.free .group) (hx_guard : vw.free .guard) (hx_host : vw.free .host) (hx_hot : vw.free .hot) (s : State)  : NextP (fun t => vw.at t = vw.at s) (execHighz s) := by
  simp [execHighz, *]

@[simp] theorem readEffect_view (hx_regs : vw.free .regs) (hx_time : vw.free .time) (hx_cal : vw.free .cal) (hx_pads : vw.free .pads) (hx_fifos : vw.free .fifos) (hx_journal : vw.free .journal) (hx_cores : vw.free .cores) (hx_locks : vw.free .locks) (hx_hot : vw.free .hot) (c : CoreId) (a : Nat) (s : State)  : vw.at (readEffect c a s) = vw.at s := by
  simp only [readEffect]
  repeat' split
  all_goals simp [*]

@[simp] theorem wordOffset_view (hx_regs : vw.free .regs) (key : Nat) (v : Word) (s : State)  : vw.at (wordOffset key v s) = vw.at s := by
  unfold wordOffset
  split <;> simp [*]

@[simp] theorem pgCtrlWrite_view (hx_regs : vw.free .regs) (hx_ports : vw.free .ports) (hx_pads : vw.free .pads) (hx_pgOn : vw.free .pgOn) (hx_fifos : vw.free .fifos) (hx_journal : vw.free .journal) (hx_links : vw.free .links) (hx_group : vw.free .group) (hx_hot : vw.free .hot) (n : Nat) (v : Word) (s : State) : vw.at (pgCtrlWrite n v s) = vw.at s := by
  simp only [pgCtrlWrite]
  repeat' split
  all_goals simp [*]

@[simp] theorem padDo_view (hx_regs : vw.free .regs) (hx_ports : vw.free .ports) (hx_pads : vw.free .pads) (hx_fifos : vw.free .fifos) (hx_journal : vw.free .journal) (hx_links : vw.free .links) (hx_group : vw.free .group) (hx_hot : vw.free .hot) (c : CoreId) (p : Nat) (o : Nat) (v : Word) (s : State)  : vw.at (padDo c p o v s) = vw.at s := by
  unfold padDo
  split <;> simp [*]

@[simp] theorem icDo_view (hx_regs : vw.free .regs) (hx_clusters : vw.free .clusters) (hx_hot : vw.free .hot) (n : Nat) (o : Nat) (v : Word) (s : State)  : vw.at (icDo n o v s) = vw.at s := by
  unfold icDo
  repeat' split
  all_goals simp [*]

@[simp] theorem doneMark_view (hx_tenants : vw.free .tenants) (hx_clusters : vw.free .clusters) (n : Nat) (v : Word) (s : State)  : vw.at (doneMark n v s) = vw.at s := by
  simp only [doneMark]
  repeat' split
  all_goals simp [*]

@[simp] theorem winDo_view (hx_regs : vw.free .regs) (hx_tenants : vw.free .tenants) (hx_ports : vw.free .ports) (hx_pads : vw.free .pads) (hx_pgOn : vw.free .pgOn) (hx_fifos : vw.free .fifos) (hx_journal : vw.free .journal) (hx_clusters : vw.free .clusters) (hx_cores : vw.free .cores) (hx_locks : vw.free .locks) (hx_links : vw.free .links) (hx_group : vw.free .group) (hx_power : vw.free .power) (hx_hot : vw.free .hot) (c : CoreId) (n : Nat) (o : Nat) (v : Word) (s : State) : vw.at (winDo c n o v s) = vw.at s := by
  have hi : ∀ (p : Prop) [Decidable p] (x y : State), vw.at x = vw.at s → vw.at y = vw.at s → vw.at (if p then x else y) = vw.at s := by
    intro p _ x y hx hy; split <;> assumption
  unfold winDo
  repeat' (with_reducible refine hi _ _ _ ?_ ?_)
  all_goals simp [*]

@[simp] theorem selfDo_view (hx_regs : vw.free .regs) (hx_mem : vw.free .mem) (hx_tenants : vw.free .tenants) (hx_ports : vw.free .ports) (hx_pads : vw.free .pads) (hx_fifos : vw.free .fifos) (hx_journal : vw.free .journal) (hx_cores : vw.free .cores) (hx_links : vw.free .links) (hx_group : vw.free .group) (hx_guard : vw.free .guard) (hx_hot : vw.free .hot) (n : Nat) (t : Nat) (o : Nat) (v : Word) (s : State)  : vw.at (selfDo n t o v s) = vw.at s := by
  unfold selfDo
  split <;> simp [*]

@[simp] theorem calTrimWrite_view (hx_regs : vw.free .regs) (v : Word) (s : State)  : vw.at (calTrimWrite v s) = vw.at s := by
  simp only [calTrimWrite]
  repeat' split
  all_goals simp [*]

@[simp] theorem lcRegDo_view (hx_regs : vw.free .regs) (hx_tenants : vw.free .tenants) (hx_devices : vw.free .devices) (hx_chans : vw.free .chans) (hx_lgroups : vw.free .lgroups) (hx_journal : vw.free .journal) (hx_links : vw.free .links) (hx_group : vw.free .group) (hx_host : vw.free .host) (hx_admin : vw.free .admin) (hx_hot : vw.free .hot) (hx_fresh : vw.free .fresh) (c : CoreId) (a : Nat) (v : Word) (s : State)  : vw.at (lcRegDo c a v s) = vw.at s := by
  unfold lcRegDo
  repeat' split
  all_goals simp [*]

@[simp] theorem chipDo_view (hx_regs : vw.free .regs) (hx_mem : vw.free .mem) (hx_time : vw.free .time) (hx_cal : vw.free .cal) (hx_tenants : vw.free .tenants) (hx_devices : vw.free .devices) (hx_ports : vw.free .ports) (hx_images : vw.free .images) (hx_pads : vw.free .pads) (hx_pgOn : vw.free .pgOn) (hx_fifos : vw.free .fifos) (hx_chans : vw.free .chans) (hx_lgroups : vw.free .lgroups) (hx_journal : vw.free .journal) (hx_clusters : vw.free .clusters) (hx_cores : vw.free .cores) (hx_locks : vw.free .locks) (hx_remote : vw.free .remote) (hx_delayed : vw.free .delayed) (hx_xfers : vw.free .xfers) (hx_xferNext : vw.free .xferNext) (hx_arbs : vw.free .arbs) (hx_links : vw.free .links) (hx_group : vw.free .group) (hx_guard : vw.free .guard) (hx_holds : vw.free .holds) (hx_power : vw.free .power) (hx_host : vw.free .host) (hx_admin : vw.free .admin) (hx_hot : vw.free .hot) (hx_fresh : vw.free .fresh) (c : CoreId) (a : Nat) (v : Word) (s : State)  : vw.at (chipDo c a v s) = vw.at s := by
  unfold chipDo
  repeat' split
  all_goals simp [*]

@[simp] theorem msixWrite_view (hx_regs : vw.free .regs) (hx_links : vw.free .links) (hx_host : vw.free .host) (p : Nat) (o : Nat) (v : Word) (s : State)  : vw.at (msixWrite p o v s) = vw.at s := by
  simp only [msixWrite]
  repeat' split
  all_goals simp [*]

@[simp] theorem pageDo_view (hx_regs : vw.free .regs) (hx_tenants : vw.free .tenants) (hx_journal : vw.free .journal) (hx_cores : vw.free .cores) (hx_links : vw.free .links) (hx_group : vw.free .group) (hx_guard : vw.free .guard) (hx_host : vw.free .host) (hx_hot : vw.free .hot) (hx_fresh : vw.free .fresh) (r : Requester) (p : Nat) (o : Nat) (v : Word) (s : State)  : vw.at (pageDo r p o v s) = vw.at s := by
  unfold pageDo
  repeat' split
  all_goals simp [*]

@[simp] theorem privDo_view (hx_regs : vw.free .regs) (hx_cores : vw.free .cores) (hx_hot : vw.free .hot) (i : Nat) (o : Nat) (v : Word) (s : State)  : vw.at (privDo i o v s) = vw.at s := by
  unfold privDo
  split <;> simp [*]

@[simp] theorem regDo_view (hx_regs : vw.free .regs) (hx_mem : vw.free .mem) (hx_time : vw.free .time) (hx_cal : vw.free .cal) (hx_tenants : vw.free .tenants) (hx_devices : vw.free .devices) (hx_ports : vw.free .ports) (hx_images : vw.free .images) (hx_pads : vw.free .pads) (hx_pgOn : vw.free .pgOn) (hx_fifos : vw.free .fifos) (hx_chans : vw.free .chans) (hx_lgroups : vw.free .lgroups) (hx_journal : vw.free .journal) (hx_clusters : vw.free .clusters) (hx_cores : vw.free .cores) (hx_locks : vw.free .locks) (hx_remote : vw.free .remote) (hx_delayed : vw.free .delayed) (hx_xfers : vw.free .xfers) (hx_xferNext : vw.free .xferNext) (hx_arbs : vw.free .arbs) (hx_links : vw.free .links) (hx_group : vw.free .group) (hx_guard : vw.free .guard) (hx_holds : vw.free .holds) (hx_power : vw.free .power) (hx_host : vw.free .host) (hx_admin : vw.free .admin) (hx_hot : vw.free .hot) (hx_fresh : vw.free .fresh) (c : CoreId) (a : Nat) (v : Word) (s : State)  : vw.at (regDo c a v s) = vw.at s := by
  unfold regDo
  repeat' split
  all_goals simp [*]

@[simp] theorem memStore_view (hx_mem : vw.free .mem) (a : Nat) (bs : List Byte) (s : State)  : vw.at (memStore a bs s) = vw.at s := by
  unfold memStore
  split <;> simp [*]

@[simp] theorem perform_view (hx_regs : vw.free .regs) (hx_mem : vw.free .mem) (hx_time : vw.free .time) (hx_cal : vw.free .cal) (hx_tenants : vw.free .tenants) (hx_devices : vw.free .devices) (hx_ports : vw.free .ports) (hx_images : vw.free .images) (hx_pads : vw.free .pads) (hx_pgOn : vw.free .pgOn) (hx_fifos : vw.free .fifos) (hx_chans : vw.free .chans) (hx_lgroups : vw.free .lgroups) (hx_journal : vw.free .journal) (hx_clusters : vw.free .clusters) (hx_cores : vw.free .cores) (hx_locks : vw.free .locks) (hx_remote : vw.free .remote) (hx_delayed : vw.free .delayed) (hx_xfers : vw.free .xfers) (hx_xferNext : vw.free .xferNext) (hx_arbs : vw.free .arbs) (hx_links : vw.free .links) (hx_group : vw.free .group) (hx_guard : vw.free .guard) (hx_holds : vw.free .holds) (hx_power : vw.free .power) (hx_host : vw.free .host) (hx_admin : vw.free .admin) (hx_hot : vw.free .hot) (hx_fresh : vw.free .fresh) (c : CoreId) (w : SideWrite) (s : State)  : vw.at (perform c w s) = vw.at s := by
  simp only [perform]
  repeat' split
  all_goals simp [*]

@[simp] theorem performSide_view (hx_regs : vw.free .regs) (hx_mem : vw.free .mem) (hx_time : vw.free .time) (hx_cal : vw.free .cal) (hx_tenants : vw.free .tenants) (hx_devices : vw.free .devices) (hx_ports : vw.free .ports) (hx_images : vw.free .images) (hx_pads : vw.free .pads) (hx_pgOn : vw.free .pgOn) (hx_fifos : vw.free .fifos) (hx_chans : vw.free .chans) (hx_lgroups : vw.free .lgroups) (hx_journal : vw.free .journal) (hx_clusters : vw.free .clusters) (hx_cores : vw.free .cores) (hx_locks : vw.free .locks) (hx_remote : vw.free .remote) (hx_delayed : vw.free .delayed) (hx_xfers : vw.free .xfers) (hx_xferNext : vw.free .xferNext) (hx_arbs : vw.free .arbs) (hx_links : vw.free .links) (hx_group : vw.free .group) (hx_guard : vw.free .guard) (hx_holds : vw.free .holds) (hx_power : vw.free .power) (hx_host : vw.free .host) (hx_admin : vw.free .admin) (hx_hot : vw.free .hot) (hx_fresh : vw.free .fresh) (i : Nat) (s : State) : vw.at (performSide i s) = vw.at s := by
  unfold performSide
  dsimp only
  rw [each_view vw _ _ (fun c s => by split <;> simp [*])]
  simp [*]

@[simp] theorem takeCkpt_view (hx_regs : vw.free .regs) (hx_mem : vw.free .mem) (hx_time : vw.free .time) (hx_cal : vw.free .cal) (hx_tenants : vw.free .tenants) (hx_devices : vw.free .devices) (hx_ports : vw.free .ports) (hx_images : vw.free .images) (hx_pads : vw.free .pads) (hx_pgOn : vw.free .pgOn) (hx_fifos : vw.free .fifos) (hx_chans : vw.free .chans) (hx_lgroups : vw.free .lgroups) (hx_journal : vw.free .journal) (hx_clusters : vw.free .clusters) (hx_cores : vw.free .cores) (hx_locks : vw.free .locks) (hx_remote : vw.free .remote) (hx_delayed : vw.free .delayed) (hx_xfers : vw.free .xfers) (hx_xferNext : vw.free .xferNext) (hx_arbs : vw.free .arbs) (hx_links : vw.free .links) (hx_group : vw.free .group) (hx_guard : vw.free .guard) (hx_holds : vw.free .holds) (hx_power : vw.free .power) (hx_host : vw.free .host) (hx_admin : vw.free .admin) (hx_hot : vw.free .hot) (hx_fresh : vw.free .fresh) (i : Nat) (work : Option Nat) (s : State)  : vw.at (takeCkpt i work s) = vw.at s := by
  unfold takeCkpt
  repeat' split
  all_goals simp [*]

@[simp] theorem autoCkpt_view (hx_regs : vw.free .regs) (hx_mem : vw.free .mem) (hx_time : vw.free .time) (hx_cal : vw.free .cal) (hx_tenants : vw.free .tenants) (hx_devices : vw.free .devices) (hx_ports : vw.free .ports) (hx_images : vw.free .images) (hx_pads : vw.free .pads) (hx_pgOn : vw.free .pgOn) (hx_fifos : vw.free .fifos) (hx_chans : vw.free .chans) (hx_lgroups : vw.free .lgroups) (hx_journal : vw.free .journal) (hx_clusters : vw.free .clusters) (hx_cores : vw.free .cores) (hx_locks : vw.free .locks) (hx_remote : vw.free .remote) (hx_delayed : vw.free .delayed) (hx_xfers : vw.free .xfers) (hx_xferNext : vw.free .xferNext) (hx_arbs : vw.free .arbs) (hx_links : vw.free .links) (hx_group : vw.free .group) (hx_guard : vw.free .guard) (hx_holds : vw.free .holds) (hx_power : vw.free .power) (hx_host : vw.free .host) (hx_admin : vw.free .admin) (hx_hot : vw.free .hot) (hx_fresh : vw.free .fresh) (i : Nat) (s : State)  : vw.at (autoCkpt i s) = vw.at s := by
  unfold autoCkpt
  split <;> simp [*]

@[simp] theorem makeRoom_view (hx_regs : vw.free .regs) (hx_mem : vw.free .mem) (hx_time : vw.free .time) (hx_cal : vw.free .cal) (hx_tenants : vw.free .tenants) (hx_devices : vw.free .devices) (hx_ports : vw.free .ports) (hx_images : vw.free .images) (hx_pads : vw.free .pads) (hx_pgOn : vw.free .pgOn) (hx_fifos : vw.free .fifos) (hx_chans : vw.free .chans) (hx_lgroups : vw.free .lgroups) (hx_journal : vw.free .journal) (hx_clusters : vw.free .clusters) (hx_cores : vw.free .cores) (hx_locks : vw.free .locks) (hx_remote : vw.free .remote) (hx_delayed : vw.free .delayed) (hx_xfers : vw.free .xfers) (hx_xferNext : vw.free .xferNext) (hx_arbs : vw.free .arbs) (hx_links : vw.free .links) (hx_group : vw.free .group) (hx_guard : vw.free .guard) (hx_holds : vw.free .holds) (hx_power : vw.free .power) (hx_host : vw.free .host) (hx_admin : vw.free .admin) (hx_hot : vw.free .hot) (hx_fresh : vw.free .fresh) (c : CoreId) (a : Nat) (parts : Nat) (s : State)  : vw.at (makeRoom c a parts s) = vw.at s := by
  simp only [makeRoom]
  repeat' split
  all_goals simp [*]

@[simp] theorem coreWrite_view (hx_regs : vw.free .regs) (hx_mem : vw.free .mem) (hx_time : vw.free .time) (hx_cal : vw.free .cal) (hx_tenants : vw.free .tenants) (hx_devices : vw.free .devices) (hx_ports : vw.free .ports) (hx_images : vw.free .images) (hx_pads : vw.free .pads) (hx_pgOn : vw.free .pgOn) (hx_fifos : vw.free .fifos) (hx_chans : vw.free .chans) (hx_lgroups : vw.free .lgroups) (hx_journal : vw.free .journal) (hx_clusters : vw.free .clusters) (hx_cores : vw.free .cores) (hx_locks : vw.free .locks) (hx_remote : vw.free .remote) (hx_delayed : vw.free .delayed) (hx_xfers : vw.free .xfers) (hx_xferNext : vw.free .xferNext) (hx_arbs : vw.free .arbs) (hx_links : vw.free .links) (hx_group : vw.free .group) (hx_guard : vw.free .guard) (hx_holds : vw.free .holds) (hx_power : vw.free .power) (hx_host : vw.free .host) (hx_admin : vw.free .admin) (hx_hot : vw.free .hot) (hx_fresh : vw.free .fresh) (c : CoreId) (a : Nat) (size : Nat) (data : Word) (s : State)  : vw.at (coreWrite c a size data s) = vw.at s := by
  simp only [coreWrite]
  repeat' split
  all_goals simp [*]

@[simp] theorem regWrite_view (hx_regs : vw.free .regs) (hx_mem : vw.free .mem) (hx_time : vw.free .time) (hx_cal : vw.free .cal) (hx_tenants : vw.free .tenants) (hx_devices : vw.free .devices) (hx_ports : vw.free .ports) (hx_images : vw.free .images) (hx_pads : vw.free .pads) (hx_pgOn : vw.free .pgOn) (hx_fifos : vw.free .fifos) (hx_chans : vw.free .chans) (hx_lgroups : vw.free .lgroups) (hx_journal : vw.free .journal) (hx_clusters : vw.free .clusters) (hx_cores : vw.free .cores) (hx_locks : vw.free .locks) (hx_remote : vw.free .remote) (hx_delayed : vw.free .delayed) (hx_xfers : vw.free .xfers) (hx_xferNext : vw.free .xferNext) (hx_arbs : vw.free .arbs) (hx_links : vw.free .links) (hx_group : vw.free .group) (hx_guard : vw.free .guard) (hx_holds : vw.free .holds) (hx_power : vw.free .power) (hx_host : vw.free .host) (hx_admin : vw.free .admin) (hx_hot : vw.free .hot) (hx_fresh : vw.free .fresh) (c : CoreId) (a : Nat) (v : Word) (s : State)  : vw.at (regWrite c a v s) = vw.at s := by
  unfold regWrite
  repeat' split
  all_goals simp [*]

@[simp] theorem execRegisterWrite_view (hx_regs : vw.free .regs) (hx_mem : vw.free .mem) (hx_time : vw.free .time) (hx_cal : vw.free .cal) (hx_tenants : vw.free .tenants) (hx_devices : vw.free .devices) (hx_ports : vw.free .ports) (hx_images : vw.free .images) (hx_pads : vw.free .pads) (hx_pgOn : vw.free .pgOn) (hx_fifos : vw.free .fifos) (hx_chans : vw.free .chans) (hx_lgroups : vw.free .lgroups) (hx_journal : vw.free .journal) (hx_clusters : vw.free .clusters) (hx_cores : vw.free .cores) (hx_locks : vw.free .locks) (hx_remote : vw.free .remote) (hx_delayed : vw.free .delayed) (hx_xfers : vw.free .xfers) (hx_xferNext : vw.free .xferNext) (hx_arbs : vw.free .arbs) (hx_links : vw.free .links) (hx_group : vw.free .group) (hx_guard : vw.free .guard) (hx_holds : vw.free .holds) (hx_power : vw.free .power) (hx_host : vw.free .host) (hx_admin : vw.free .admin) (hx_hot : vw.free .hot) (hx_fresh : vw.free .fresh) (r : Requester) (a : Target) (v : Word) (s : State)  : NextP (fun t => vw.at t = vw.at s) (execRegisterWrite r a v s) := by
  unfold execRegisterWrite
  repeat' split
  all_goals simp [*]

@[simp] theorem execClFrameDone_view (hx_regs : vw.free .regs) (hx_mem : vw.free .mem) (hx_time : vw.free .time) (hx_cal : vw.free .cal) (hx_tenants : vw.free .tenants) (hx_devices : vw.free .devices) (hx_ports : vw.free .ports) (hx_images : vw.free .images) (hx_pads : vw.free .pads) (hx_pgOn : vw.free .pgOn) (hx_fifos : vw.free .fifos) (hx_chans : vw.free .chans) (hx_lgroups : vw.free .lgroups) (hx_journal : vw.free .journal) (hx_clusters : vw.free .clusters) (hx_cores : vw.free .cores) (hx_locks : vw.free .locks) (hx_remote : vw.free .remote) (hx_delayed : vw.free .delayed) (hx_xfers : vw.free .xfers) (hx_xferNext : vw.free .xferNext) (hx_arbs : vw.free .arbs) (hx_links : vw.free .links) (hx_group : vw.free .group) (hx_guard : vw.free .guard) (hx_holds : vw.free .holds) (hx_power : vw.free .power) (hx_host : vw.free .host) (hx_admin : vw.free .admin) (hx_hot : vw.free .hot) (hx_fresh : vw.free .fresh) (c : CoreId) (n : ClusterId) (v : Word) (agree : Bool) (s : State)  : NextP (fun t => vw.at t = vw.at s) (execClFrameDone c n v agree s) := by
  simp only [execClFrameDone]
  repeat' split
  all_goals simp [*]

@[simp] theorem execClCkptWrite_view (hx_regs : vw.free .regs) (hx_mem : vw.free .mem) (hx_time : vw.free .time) (hx_cal : vw.free .cal) (hx_tenants : vw.free .tenants) (hx_devices : vw.free .devices) (hx_ports : vw.free .ports) (hx_images : vw.free .images) (hx_pads : vw.free .pads) (hx_pgOn : vw.free .pgOn) (hx_fifos : vw.free .fifos) (hx_chans : vw.free .chans) (hx_lgroups : vw.free .lgroups) (hx_journal : vw.free .journal) (hx_clusters : vw.free .clusters) (hx_cores : vw.free .cores) (hx_locks : vw.free .locks) (hx_remote : vw.free .remote) (hx_delayed : vw.free .delayed) (hx_xfers : vw.free .xfers) (hx_xferNext : vw.free .xferNext) (hx_arbs : vw.free .arbs) (hx_links : vw.free .links) (hx_group : vw.free .group) (hx_guard : vw.free .guard) (hx_holds : vw.free .holds) (hx_power : vw.free .power) (hx_host : vw.free .host) (hx_admin : vw.free .admin) (hx_hot : vw.free .hot) (hx_fresh : vw.free .fresh) (c : CoreId) (n : ClusterId) (v : Word) (agree : Bool) (s : State)  : NextP (fun t => vw.at t = vw.at s) (execClCkptWrite c n v agree s) := by
  simp only [execClCkptWrite]
  repeat' split
  all_goals simp [*]

@[simp] theorem execCpCheckpoint_view (hx_regs : vw.free .regs) (hx_mem : vw.free .mem) (hx_time : vw.free .time) (hx_cal : vw.free .cal) (hx_tenants : vw.free .tenants) (hx_devices : vw.free .devices) (hx_ports : vw.free .ports) (hx_images : vw.free .images) (hx_pads : vw.free .pads) (hx_pgOn : vw.free .pgOn) (hx_fifos : vw.free .fifos) (hx_chans : vw.free .chans) (hx_lgroups : vw.free .lgroups) (hx_journal : vw.free .journal) (hx_clusters : vw.free .clusters) (hx_cores : vw.free .cores) (hx_locks : vw.free .locks) (hx_remote : vw.free .remote) (hx_delayed : vw.free .delayed) (hx_xfers : vw.free .xfers) (hx_xferNext : vw.free .xferNext) (hx_arbs : vw.free .arbs) (hx_links : vw.free .links) (hx_group : vw.free .group) (hx_guard : vw.free .guard) (hx_holds : vw.free .holds) (hx_power : vw.free .power) (hx_host : vw.free .host) (hx_admin : vw.free .admin) (hx_hot : vw.free .hot) (hx_fresh : vw.free .fresh) (agree : Bool) (s : State)  : NextP (fun t => vw.at t = vw.at s) (execCpCheckpoint agree s) := by
  unfold execCpCheckpoint
  split <;> simp [*]

@[simp] theorem heldEnd_view (hx_regs : vw.free .regs) (hx_mem : vw.free .mem) (hx_time : vw.free .time) (hx_cal : vw.free .cal) (hx_tenants : vw.free .tenants) (hx_devices : vw.free .devices) (hx_ports : vw.free .ports) (hx_images : vw.free .images) (hx_pads : vw.free .pads) (hx_pgOn : vw.free .pgOn) (hx_fifos : vw.free .fifos) (hx_chans : vw.free .chans) (hx_lgroups : vw.free .lgroups) (hx_journal : vw.free .journal) (hx_clusters : vw.free .clusters) (hx_cores : vw.free .cores) (hx_locks : vw.free .locks) (hx_remote : vw.free .remote) (hx_delayed : vw.free .delayed) (hx_xfers : vw.free .xfers) (hx_xferNext : vw.free .xferNext) (hx_arbs : vw.free .arbs) (hx_links : vw.free .links) (hx_group : vw.free .group) (hx_guard : vw.free .guard) (hx_holds : vw.free .holds) (hx_power : vw.free .power) (hx_host : vw.free .host) (hx_admin : vw.free .admin) (hx_hot : vw.free .hot) (hx_fresh : vw.free .fresh) (h : HeldAcc) (s : State)  : vw.at (heldEnd h s) = vw.at s := by
  simp only [heldEnd]
  repeat' split
  all_goals simp [*]

@[simp] theorem performHeld_view (hx_regs : vw.free .regs) (hx_mem : vw.free .mem) (hx_time : vw.free .time) (hx_cal : vw.free .cal) (hx_tenants : vw.free .tenants) (hx_devices : vw.free .devices) (hx_ports : vw.free .ports) (hx_images : vw.free .images) (hx_pads : vw.free .pads) (hx_pgOn : vw.free .pgOn) (hx_fifos : vw.free .fifos) (hx_chans : vw.free .chans) (hx_lgroups : vw.free .lgroups) (hx_journal : vw.free .journal) (hx_clusters : vw.free .clusters) (hx_cores : vw.free .cores) (hx_locks : vw.free .locks) (hx_remote : vw.free .remote) (hx_delayed : vw.free .delayed) (hx_xfers : vw.free .xfers) (hx_xferNext : vw.free .xferNext) (hx_arbs : vw.free .arbs) (hx_links : vw.free .links) (hx_group : vw.free .group) (hx_guard : vw.free .guard) (hx_holds : vw.free .holds) (hx_power : vw.free .power) (hx_host : vw.free .host) (hx_admin : vw.free .admin) (hx_hot : vw.free .hot) (hx_fresh : vw.free .fresh) (n : Nat) (s : State)  : vw.at (performHeld n s) = vw.at s := by
  simp [performHeld, *]

@[simp] theorem regReadAns_view (hx_regs : vw.free .regs) (hx_time : vw.free .time) (hx_cal : vw.free .cal) (hx_pads : vw.free .pads) (hx_fifos : vw.free .fifos) (hx_journal : vw.free .journal) (hx_cores : vw.free .cores) (hx_locks : vw.free .locks) (hx_hot : vw.free .hot) (a : Nat) (s : State)  : vw.at (regReadAns a s).2.2 = vw.at s := by
  unfold regReadAns
  repeat' split
  all_goals simp [*]

@[simp] theorem regReadEnd_view (hx_regs : vw.free .regs) (hx_time : vw.free .time) (hx_cal : vw.free .cal) (hx_tenants : vw.free .tenants) (hx_pads : vw.free .pads) (hx_fifos : vw.free .fifos) (hx_journal : vw.free .journal) (hx_cores : vw.free .cores) (hx_locks : vw.free .locks) (hx_links : vw.free .links) (hx_group : vw.free .group) (hx_host : vw.free .host) (hx_admin : vw.free .admin) (hx_hot : vw.free .hot) (hx_fresh : vw.free .fresh) (s : State)  : vw.at (regReadEnd s) = vw.at s := by
  unfold regReadEnd
  split <;> simp [*]

@[simp] theorem execHandoverEnd_view (hx_regs : vw.free .regs) (hx_mem : vw.free .mem) (hx_time : vw.free .time) (hx_cal : vw.free .cal) (hx_tenants : vw.free .tenants) (hx_devices : vw.free .devices) (hx_ports : vw.free .ports) (hx_images : vw.free .images) (hx_pads : vw.free .pads) (hx_pgOn : vw.free .pgOn) (hx_fifos : vw.free .fifos) (hx_chans : vw.free .chans) (hx_lgroups : vw.free .lgroups) (hx_journal : vw.free .journal) (hx_clusters : vw.free .clusters) (hx_cores : vw.free .cores) (hx_locks : vw.free .locks) (hx_remote : vw.free .remote) (hx_delayed : vw.free .delayed) (hx_xfers : vw.free .xfers) (hx_xferNext : vw.free .xferNext) (hx_arbs : vw.free .arbs) (hx_links : vw.free .links) (hx_group : vw.free .group) (hx_guard : vw.free .guard) (hx_holds : vw.free .holds) (hx_power : vw.free .power) (hx_host : vw.free .host) (hx_admin : vw.free .admin) (hx_hot : vw.free .hot) (hx_fresh : vw.free .fresh) (imageOk : Bool) (s : State)  : NextP (fun t => vw.at t = vw.at s) (execHandoverEnd imageOk s) := by
  unfold execHandoverEnd
  repeat' split
  all_goals simp [*]

@[simp] theorem admOk_view (payload : List Byte) (s : State)  : vw.at (admOk payload s).st = vw.at s := by
  simp [admOk, *]

@[simp] theorem badArg_view (s : State)  : vw.at (badArg s).st = vw.at s := by
  simp [badArg, *]

@[simp] theorem conflict_view (state : Nat) (s : State)  : vw.at (conflict state s).st = vw.at s := by
  simp [conflict, *]

@[simp] theorem noResource_view (s : State)  : vw.at (noResource s).st = vw.at s := by
  simp [noResource, *]

@[simp] theorem badImage_view (reason : Nat) (s : State)  : vw.at (badImage reason s).st = vw.at s := by
  simp [badImage, *]

@[simp] theorem mediaError_view (s : State)  : vw.at (mediaError s).st = vw.at s := by
  simp [mediaError, *]

@[simp] theorem admTake_view (hx_regs : vw.free .regs) (hx_journal : vw.free .journal) (hx_links : vw.free .links) (hx_group : vw.free .group) (hx_host : vw.free .host) (hx_hot : vw.free .hot) (op : Nat) (x : ACmd) (s : State)  : vw.at (admTake op x s) = vw.at s := by
  simp only [admTake]
  repeat' split
  all_goals simp [*]

@[simp] theorem admEnd_view (hx_regs : vw.free .regs) (hx_tenants : vw.free .tenants) (hx_journal : vw.free .journal) (hx_links : vw.free .links) (hx_group : vw.free .group) (hx_host : vw.free .host) (hx_admin : vw.free .admin) (hx_hot : vw.free .hot) (hx_fresh : vw.free .fresh) (op : Nat) (x : ACmd) (a : Adm) : vw.at (admEnd op x a) = vw.at a.st := by
  cases a <;> simp [*, admEnd]

@[simp] theorem admRun_view (hx_regs : vw.free .regs) (hx_tenants : vw.free .tenants) (hx_journal : vw.free .journal) (hx_links : vw.free .links) (hx_group : vw.free .group) (hx_host : vw.free .host) (hx_admin : vw.free .admin) (hx_hot : vw.free .hot) (hx_fresh : vw.free .fresh) (op : Nat) (x : ACmd) (need : Nat) (k : List Byte → State → Adm) (hk : ∀ b s, vw.at (k b s).st = vw.at s) (s : State) : NextP (fun t => vw.at t = vw.at s) (admRun op x need k s) := by
  unfold admRun
  simp only [nextP_done]
  split
  · rfl
  · rw [admEnd_view vw (by assumption) (by assumption) (by assumption) (by assumption) (by assumption) (by assumption) (by assumption) (by assumption) (by assumption)]
    split
    · rw [hk]; simp [*]
    · simp [*]

@[simp] theorem admGroup_view (hx_links : vw.free .links) (hx_group : vw.free .group) (op : Nat) (x : ACmd) (unit : Nat) (k : List Byte → State → Adm) (b : List Byte) (s : State) (hk : ∀ y0 y1, vw.at (k y0 y1).st = vw.at y1)  : vw.at (admGroup op x unit k b s).st = vw.at s := by
  simp only [admGroup]
  repeat' split
  all_goals simp [*]

@[simp] theorem tenantDisable_view (hx_regs : vw.free .regs) (hx_mem : vw.free .mem) (hx_tenants : vw.free .tenants) (hx_devices : vw.free .devices) (hx_ports : vw.free .ports) (hx_pads : vw.free .pads) (hx_fifos : vw.free .fifos) (hx_chans : vw.free .chans) (hx_journal : vw.free .journal) (hx_remote : vw.free .remote) (hx_delayed : vw.free .delayed) (hx_links : vw.free .links) (hx_group : vw.free .group) (hx_hot : vw.free .hot) (t : Nat) (s : State)  : vw.at (tenantDisable t s) = vw.at s := by
  simp [tenantDisable, *]

@[simp] theorem tenantConfig_view (hx_regs : vw.free .regs) (hx_mem : vw.free .mem) (hx_tenants : vw.free .tenants) (hx_devices : vw.free .devices) (hx_ports : vw.free .ports) (hx_pads : vw.free .pads) (hx_fifos : vw.free .fifos) (hx_chans : vw.free .chans) (hx_journal : vw.free .journal) (hx_remote : vw.free .remote) (hx_delayed : vw.free .delayed) (hx_links : vw.free .links) (hx_group : vw.free .group) (hx_hot : vw.free .hot) (b : List Byte) (s : State)  : vw.at (tenantConfig b s).st = vw.at s := by
  simp only [tenantConfig]
  repeat' split
  all_goals simp [*]

@[simp] theorem execTenantConfig_view (hx_regs : vw.free .regs) (hx_mem : vw.free .mem) (hx_tenants : vw.free .tenants) (hx_devices : vw.free .devices) (hx_ports : vw.free .ports) (hx_pads : vw.free .pads) (hx_fifos : vw.free .fifos) (hx_chans : vw.free .chans) (hx_journal : vw.free .journal) (hx_remote : vw.free .remote) (hx_delayed : vw.free .delayed) (hx_links : vw.free .links) (hx_group : vw.free .group) (hx_host : vw.free .host) (hx_admin : vw.free .admin) (hx_hot : vw.free .hot) (hx_fresh : vw.free .fresh) (x : ACmd) (s : State)  : NextP (fun t => vw.at t = vw.at s) (execTenantConfig x s) := by
  unfold execTenantConfig
  (refine admRun_view vw (by assumption) (by assumption) (by assumption) (by assumption) (by assumption) (by assumption) (by assumption) (by assumption) (by assumption) _ _ _ _ (fun b s => ?_) _; (try dsimp only); (repeat' split); all_goals simp (maxDischargeDepth := 6) [*])

@[simp] theorem adminReset_view (hx_regs : vw.free .regs) (hx_tenants : vw.free .tenants) (hx_devices : vw.free .devices) (hx_ports : vw.free .ports) (hx_pads : vw.free .pads) (hx_fifos : vw.free .fifos) (hx_chans : vw.free .chans) (hx_journal : vw.free .journal) (hx_remote : vw.free .remote) (hx_delayed : vw.free .delayed) (hx_links : vw.free .links) (hx_group : vw.free .group) (hx_hot : vw.free .hot) (b : List Byte) (s : State)  : vw.at (adminReset b s).st = vw.at s := by
  simp only [adminReset]
  repeat' split
  all_goals simp [*]

@[simp] theorem execAdminTenantReset_view (hx_regs : vw.free .regs) (hx_tenants : vw.free .tenants) (hx_devices : vw.free .devices) (hx_ports : vw.free .ports) (hx_pads : vw.free .pads) (hx_fifos : vw.free .fifos) (hx_chans : vw.free .chans) (hx_journal : vw.free .journal) (hx_remote : vw.free .remote) (hx_delayed : vw.free .delayed) (hx_links : vw.free .links) (hx_group : vw.free .group) (hx_host : vw.free .host) (hx_admin : vw.free .admin) (hx_hot : vw.free .hot) (hx_fresh : vw.free .fresh) (x : ACmd) (s : State)  : NextP (fun t => vw.at t = vw.at s) (execAdminTenantReset x s) := by
  unfold execAdminTenantReset
  (refine admRun_view vw (by assumption) (by assumption) (by assumption) (by assumption) (by assumption) (by assumption) (by assumption) (by assumption) (by assumption) _ _ _ _ (fun b s => ?_) _; (try dsimp only); (repeat' split); all_goals simp (maxDischargeDepth := 6) [*])

@[simp] theorem withPort_view (k : Nat → State → Adm) (b : List Byte) (s : State) (hk : ∀ y0 y1, vw.at (k y0 y1).st = vw.at y1)  : vw.at (withPort k b s).st = vw.at s := by
  simp only [withPort]
  repeat' split
  all_goals simp [*]

@[simp] theorem portDefine_view (hx_regs : vw.free .regs) (hx_mem : vw.free .mem) (hx_ports : vw.free .ports) (hx_fifos : vw.free .fifos) (hx_journal : vw.free .journal) (hx_links : vw.free .links) (hx_group : vw.free .group) (hx_hot : vw.free .hot) (b : List Byte) (s : State)  : vw.at (portDefine b s).st = vw.at s := by
  simp only [portDefine]
  repeat' split
  all_goals simp [*]

@[simp] theorem execPortDefine_view (hx_regs : vw.free .regs) (hx_mem : vw.free .mem) (hx_tenants : vw.free .tenants) (hx_ports : vw.free .ports) (hx_fifos : vw.free .fifos) (hx_journal : vw.free .journal) (hx_links : vw.free .links) (hx_group : vw.free .group) (hx_host : vw.free .host) (hx_admin : vw.free .admin) (hx_hot : vw.free .hot) (hx_fresh : vw.free .fresh) (x : ACmd) (s : State)  : NextP (fun t => vw.at t = vw.at s) (execPortDefine x s) := by
  simp [execPortDefine, *]

@[simp] theorem portDrop_view (hx_regs : vw.free .regs) (hx_ports : vw.free .ports) (hx_images : vw.free .images) (hx_pads : vw.free .pads) (hx_fifos : vw.free .fifos) (hx_journal : vw.free .journal) (hx_links : vw.free .links) (hx_group : vw.free .group) (hx_hot : vw.free .hot) (p : Nat) (s : State)  : vw.at (portDrop p s) = vw.at s := by
  simp [portDrop, *]

@[simp] theorem portRemove_view (hx_regs : vw.free .regs) (hx_ports : vw.free .ports) (hx_images : vw.free .images) (hx_pads : vw.free .pads) (hx_fifos : vw.free .fifos) (hx_journal : vw.free .journal) (hx_links : vw.free .links) (hx_group : vw.free .group) (hx_hot : vw.free .hot) (p : Nat) (s : State)  : vw.at (portRemove p s).st = vw.at s := by
  unfold portRemove
  split <;> simp [*]

@[simp] theorem execPortRemove_view (hx_regs : vw.free .regs) (hx_tenants : vw.free .tenants) (hx_ports : vw.free .ports) (hx_images : vw.free .images) (hx_pads : vw.free .pads) (hx_fifos : vw.free .fifos) (hx_journal : vw.free .journal) (hx_links : vw.free .links) (hx_group : vw.free .group) (hx_host : vw.free .host) (hx_admin : vw.free .admin) (hx_hot : vw.free .hot) (hx_fresh : vw.free .fresh) (x : ACmd) (s : State)  : NextP (fun t => vw.at t = vw.at s) (execPortRemove x s) := by
  unfold execPortRemove
  (refine admRun_view vw (by assumption) (by assumption) (by assumption) (by assumption) (by assumption) (by assumption) (by assumption) (by assumption) (by assumption) _ _ _ _ (fun b s => ?_) _; (try dsimp only); (repeat' split); all_goals simp (maxDischargeDepth := 6) [*])

@[simp] theorem portGrant_view (hx_ports : vw.free .ports) (b : List Byte) (p : Nat) (s : State)  : vw.at (portGrant b p s).st = vw.at s := by
  simp only [portGrant]
  repeat' split
  all_goals simp [*]

@[simp] theorem execPortGrant_view (hx_regs : vw.free .regs) (hx_tenants : vw.free .tenants) (hx_ports : vw.free .ports) (hx_journal : vw.free .journal) (hx_links : vw.free .links) (hx_group : vw.free .group) (hx_host : vw.free .host) (hx_admin : vw.free .admin) (hx_hot : vw.free .hot) (hx_fresh : vw.free .fresh) (x : ACmd) (s : State)  : NextP (fun t => vw.at t = vw.at s) (execPortGrant x s) := by
  unfold execPortGrant
  (refine admRun_view vw (by assumption) (by assumption) (by assumption) (by assumption) (by assumption) (by assumption) (by assumption) (by assumption) (by assumption) _ _ _ _ (fun b s => ?_) _; (try dsimp only); (repeat' split); all_goals simp (maxDischargeDepth := 6) [*])

@[simp] theorem portSuspend_view (hx_regs : vw.free .regs) (hx_tenants : vw.free .tenants) (hx_ports : vw.free .ports) (hx_journal : vw.free .journal) (hx_links : vw.free .links) (hx_group : vw.free .group) (hx_hot : vw.free .hot) (p : Nat) (s : State)  : vw.at (portSuspend p s).st = vw.at s := by
  unfold portSuspend
  split <;> simp [*]

@[simp] theorem execPortSuspend_view (hx_regs : vw.free .regs) (hx_tenants : vw.free .tenants) (hx_ports : vw.free .ports) (hx_journal : vw.free .journal) (hx_links : vw.free .links) (hx_group : vw.free .group) (hx_host : vw.free .host) (hx_admin : vw.free .admin) (hx_hot : vw.free .hot) (hx_fresh : vw.free .fresh) (x : ACmd) (s : State)  : NextP (fun t => vw.at t = vw.at s) (execPortSuspend x s) := by
  unfold execPortSuspend
  (refine admRun_view vw (by assumption) (by assumption) (by assumption) (by assumption) (by assumption) (by assumption) (by assumption) (by assumption) (by assumption) _ _ _ _ (fun b s => ?_) _; (try dsimp only); (repeat' split); all_goals simp (maxDischargeDepth := 6) [*])

@[simp] theorem portResume_view (hx_tenants : vw.free .tenants) (hx_ports : vw.free .ports) (hx_group : vw.free .group) (p : Nat) (s : State)  : vw.at (portResume p s).st = vw.at s := by
  simp only [portResume]
  repeat' split
  all_goals simp [*]

@[simp] theorem execPortResume_view (hx_regs : vw.free .regs) (hx_tenants : vw.free .tenants) (hx_ports : vw.free .ports) (hx_journal : vw.free .journal) (hx_links : vw.free .links) (hx_group : vw.free .group) (hx_host : vw.free .host) (hx_admin : vw.free .admin) (hx_hot : vw.free .hot) (hx_fresh : vw.free .fresh) (x : ACmd) (s : State)  : NextP (fun t => vw.at t = vw.at s) (execPortResume x s) := by
  unfold execPortResume
  (refine admRun_view vw (by assumption) (by assumption) (by assumption) (by assumption) (by assumption) (by assumption) (by assumption) (by assumption) (by assumption) _ _ _ _ (fun b s => ?_) _; (try dsimp only); (repeat' split); all_goals simp (maxDischargeDepth := 6) [*])

@[simp] theorem portBypass_view (hx_ports : vw.free .ports) (p : Nat) (s : State)  : vw.at (portBypass p s).st = vw.at s := by
  simp [portBypass, *]

@[simp] theorem execPortBypass_view (hx_regs : vw.free .regs) (hx_tenants : vw.free .tenants) (hx_ports : vw.free .ports) (hx_journal : vw.free .journal) (hx_links : vw.free .links) (hx_group : vw.free .group) (hx_host : vw.free .host) (hx_admin : vw.free .admin) (hx_hot : vw.free .hot) (hx_fresh : vw.free .fresh) (x : ACmd) (s : State)  : NextP (fun t => vw.at t = vw.at s) (execPortBypass x s) := by
  unfold execPortBypass
  (refine admRun_view vw (by assumption) (by assumption) (by assumption) (by assumption) (by assumption) (by assumption) (by assumption) (by assumption) (by assumption) _ _ _ _ (fun b s => ?_) _; (try dsimp only); (repeat' split); all_goals simp (maxDischargeDepth := 6) [*])

@[simp] theorem portRelease_view (hx_ports : vw.free .ports) (p : Nat) (s : State)  : vw.at (portRelease p s).st = vw.at s := by
  unfold portRelease
  split <;> simp [*]

@[simp] theorem execPortRelease_view (hx_regs : vw.free .regs) (hx_tenants : vw.free .tenants) (hx_ports : vw.free .ports) (hx_journal : vw.free .journal) (hx_links : vw.free .links) (hx_group : vw.free .group) (hx_host : vw.free .host) (hx_admin : vw.free .admin) (hx_hot : vw.free .hot) (hx_fresh : vw.free .fresh) (x : ACmd) (s : State)  : NextP (fun t => vw.at t = vw.at s) (execPortRelease x s) := by
  unfold execPortRelease
  (refine admRun_view vw (by assumption) (by assumption) (by assumption) (by assumption) (by assumption) (by assumption) (by assumption) (by assumption) (by assumption) _ _ _ _ (fun b s => ?_) _; (try dsimp only); (repeat' split); all_goals simp (maxDischargeDepth := 6) [*])

@[simp] theorem discardPort_view (hx_regs : vw.free .regs) (hx_mem : vw.free .mem) (hx_tenants : vw.free .tenants) (hx_ports : vw.free .ports) (hx_pads : vw.free .pads) (hx_fifos : vw.free .fifos) (hx_journal : vw.free .journal) (hx_links : vw.free .links) (hx_group : vw.free .group) (hx_hot : vw.free .hot) (p : Nat) (s : State)  : vw.at (discardPort p s) = vw.at s := by
  simp only [discardPort]
  repeat' split
  all_goals simp [*]

@[simp] theorem execSettleDiscard_view (hx_regs : vw.free .regs) (hx_mem : vw.free .mem) (hx_tenants : vw.free .tenants) (hx_ports : vw.free .ports) (hx_pads : vw.free .pads) (hx_fifos : vw.free .fifos) (hx_journal : vw.free .journal) (hx_links : vw.free .links) (hx_group : vw.free .group) (hx_host : vw.free .host) (hx_admin : vw.free .admin) (hx_hot : vw.free .hot) (hx_fresh : vw.free .fresh) (x : ACmd) (s : State)  : NextP (fun t => vw.at t = vw.at s) (execSettleDiscard x s) := by
  unfold execSettleDiscard
  (refine admRun_view vw (by assumption) (by assumption) (by assumption) (by assumption) (by assumption) (by assumption) (by assumption) (by assumption) (by assumption) _ _ _ _ (fun b s => ?_) _; (try dsimp only); (repeat' split); all_goals simp (maxDischargeDepth := 6) [*])

@[simp] theorem settleRead_view (p : Nat) (s : State)  : vw.at (settleRead p s).st = vw.at s := by
  simp [settleRead, *]

@[simp] theorem execSettleRead_view (hx_regs : vw.free .regs) (hx_tenants : vw.free .tenants) (hx_journal : vw.free .journal) (hx_links : vw.free .links) (hx_group : vw.free .group) (hx_host : vw.free .host) (hx_admin : vw.free .admin) (hx_hot : vw.free .hot) (hx_fresh : vw.free .fresh) (x : ACmd) (s : State)  : NextP (fun t => vw.at t = vw.at s) (execSettleRead x s) := by
  unfold execSettleRead
  (refine admRun_view vw (by assumption) (by assumption) (by assumption) (by assumption) (by assumption) (by assumption) (by assumption) (by assumption) (by assumption) _ _ _ _ (fun b s => ?_) _; (try dsimp only); (repeat' split); all_goals simp (maxDischargeDepth := 6) [*])

@[simp] theorem aptStage_view (hx_regs : vw.free .regs) (hx_images : vw.free .images) (hx_journal : vw.free .journal) (hx_links : vw.free .links) (hx_hot : vw.free .hot) (x : ACmd) (b : List Byte) (s : State)  : vw.at (aptStage x b s).st = vw.at s := by
  simp only [aptStage]
  repeat' split
  all_goals simp [*]

@[simp] theorem execAptStage_view (hx_regs : vw.free .regs) (hx_tenants : vw.free .tenants) (hx_images : vw.free .images) (hx_journal : vw.free .journal) (hx_links : vw.free .links) (hx_group : vw.free .group) (hx_host : vw.free .host) (hx_admin : vw.free .admin) (hx_hot : vw.free .hot) (hx_fresh : vw.free .fresh) (x : ACmd) (s : State)  : NextP (fun t => vw.at t = vw.at s) (execAptStage x s) := by
  simp [execAptStage, *]

@[simp] theorem discardOthers_view (hx_regs : vw.free .regs) (hx_mem : vw.free .mem) (hx_journal : vw.free .journal) (hx_links : vw.free .links) (hx_hot : vw.free .hot) (id : Nat) (mj : Nat) (s : State)  : vw.at (discardOthers id mj s) = vw.at s := by
  simp [discardOthers, *]

@[simp] theorem aptActivate_view (hx_regs : vw.free .regs) (hx_mem : vw.free .mem) (hx_images : vw.free .images) (hx_fifos : vw.free .fifos) (hx_journal : vw.free .journal) (hx_links : vw.free .links) (hx_hot : vw.free .hot) (b : List Byte) (s : State)  : vw.at (aptActivate b s).st = vw.at s := by
  simp only [aptActivate]
  repeat' split
  all_goals simp [*]

@[simp] theorem execAptActivate_view (hx_regs : vw.free .regs) (hx_mem : vw.free .mem) (hx_tenants : vw.free .tenants) (hx_images : vw.free .images) (hx_fifos : vw.free .fifos) (hx_journal : vw.free .journal) (hx_links : vw.free .links) (hx_group : vw.free .group) (hx_host : vw.free .host) (hx_admin : vw.free .admin) (hx_hot : vw.free .hot) (hx_fresh : vw.free .fresh) (x : ACmd) (s : State)  : NextP (fun t => vw.at t = vw.at s) (execAptActivate x s) := by
  simp [execAptActivate, *]

@[simp] theorem aptRemove_view (hx_regs : vw.free .regs) (hx_images : vw.free .images) (hx_journal : vw.free .journal) (hx_links : vw.free .links) (hx_hot : vw.free .hot) (b : List Byte) (s : State)  : vw.at (aptRemove b s).st = vw.at s := by
  unfold aptRemove
  repeat' split
  all_goals simp [*]

@[simp] theorem execAptRemove_view (hx_regs : vw.free .regs) (hx_tenants : vw.free .tenants) (hx_images : vw.free .images) (hx_journal : vw.free .journal) (hx_links : vw.free .links) (hx_group : vw.free .group) (hx_host : vw.free .host) (hx_admin : vw.free .admin) (hx_hot : vw.free .hot) (hx_fresh : vw.free .fresh) (x : ACmd) (s : State)  : NextP (fun t => vw.at t = vw.at s) (execAptRemove x s) := by
  simp [execAptRemove, *]

@[simp] theorem aptList_view (b : List Byte) (s : State)  : vw.at (aptList b s).st = vw.at s := by
  simp [aptList, *]

@[simp] theorem execAptList_view (hx_regs : vw.free .regs) (hx_tenants : vw.free .tenants) (hx_journal : vw.free .journal) (hx_links : vw.free .links) (hx_group : vw.free .group) (hx_host : vw.free .host) (hx_admin : vw.free .admin) (hx_hot : vw.free .hot) (hx_fresh : vw.free .fresh) (x : ACmd) (s : State)  : NextP (fun t => vw.at t = vw.at s) (execAptList x s) := by
  simp [execAptList, *]

@[simp] theorem portApt_view (hx_regs : vw.free .regs) (hx_mem : vw.free .mem) (hx_tenants : vw.free .tenants) (hx_ports : vw.free .ports) (hx_images : vw.free .images) (hx_pads : vw.free .pads) (hx_fifos : vw.free .fifos) (hx_journal : vw.free .journal) (hx_links : vw.free .links) (hx_group : vw.free .group) (hx_hot : vw.free .hot) (b : List Byte) (p : Nat) (s : State)  : vw.at (portApt b p s).st = vw.at s := by
  simp only [portApt]
  repeat' split
  all_goals simp [*]

@[simp] theorem execPortApt_view (hx_regs : vw.free .regs) (hx_mem : vw.free .mem) (hx_tenants : vw.free .tenants) (hx_ports : vw.free .ports) (hx_images : vw.free .images) (hx_pads : vw.free .pads) (hx_fifos : vw.free .fifos) (hx_journal : vw.free .journal) (hx_links : vw.free .links) (hx_group : vw.free .group) (hx_host : vw.free .host) (hx_admin : vw.free .admin) (hx_hot : vw.free .hot) (hx_fresh : vw.free .fresh) (x : ACmd) (s : State)  : NextP (fun t => vw.at t = vw.at s) (execPortApt x s) := by
  unfold execPortApt
  (refine admRun_view vw (by assumption) (by assumption) (by assumption) (by assumption) (by assumption) (by assumption) (by assumption) (by assumption) (by assumption) _ _ _ _ (fun b s => ?_) _; (try dsimp only); (repeat' split); all_goals simp (maxDischargeDepth := 6) [*])

@[simp] theorem frameSet_view (hx_regs : vw.free .regs) (hx_time : vw.free .time) (hx_hot : vw.free .hot) (hx_fresh : vw.free .fresh) (b : List Byte) (s : State)  : vw.at (frameSet b s).st = vw.at s := by
  simp only [frameSet]
  repeat' split
  all_goals simp [*]

@[simp] theorem execFrameSet_view (hx_regs : vw.free .regs) (hx_time : vw.free .time) (hx_tenants : vw.free .tenants) (hx_journal : vw.free .journal) (hx_links : vw.free .links) (hx_group : vw.free .group) (hx_host : vw.free .host) (hx_admin : vw.free .admin) (hx_hot : vw.free .hot) (hx_fresh : vw.free .fresh) (x : ACmd) (s : State)  : NextP (fun t => vw.at t = vw.at s) (execFrameSet x s) := by
  simp [execFrameSet, *]

@[simp] theorem timeGet_view (_b : List Byte) (s : State)  : vw.at (timeGet _b s).st = vw.at s := by
  simp [timeGet, *]

@[simp] theorem execTimeGet_view (hx_regs : vw.free .regs) (hx_tenants : vw.free .tenants) (hx_journal : vw.free .journal) (hx_links : vw.free .links) (hx_group : vw.free .group) (hx_host : vw.free .host) (hx_admin : vw.free .admin) (hx_hot : vw.free .hot) (hx_fresh : vw.free .fresh) (x : ACmd) (s : State)  : NextP (fun t => vw.at t = vw.at s) (execTimeGet x s) := by
  simp [execTimeGet, *]

@[simp] theorem timeTrim_view (hx_regs : vw.free .regs) (b : List Byte) (s : State)  : vw.at (timeTrim b s).st = vw.at s := by
  simp only [timeTrim]
  repeat' split
  all_goals simp [*]

@[simp] theorem execTimeTrim_view (hx_regs : vw.free .regs) (hx_tenants : vw.free .tenants) (hx_journal : vw.free .journal) (hx_links : vw.free .links) (hx_group : vw.free .group) (hx_host : vw.free .host) (hx_admin : vw.free .admin) (hx_hot : vw.free .hot) (hx_fresh : vw.free .fresh) (x : ACmd) (s : State)  : NextP (fun t => vw.at t = vw.at s) (execTimeTrim x s) := by
  simp [execTimeTrim, *]

@[simp] theorem calRegs_view (hx_regs : vw.free .regs) (a : Nat) (b : List Byte) (s : State)  : vw.at (calRegs a b s) = vw.at s := by
  simp [calRegs, *]

@[simp] theorem timeStep_view (hx_regs : vw.free .regs) (hx_cal : vw.free .cal) (hx_tenants : vw.free .tenants) (hx_journal : vw.free .journal) (hx_links : vw.free .links) (hx_group : vw.free .group) (hx_host : vw.free .host) (hx_admin : vw.free .admin) (hx_hot : vw.free .hot) (hx_fresh : vw.free .fresh) (tag : BitVec 16) (b : List Byte) (s : State)  : vw.at (timeStep tag b s).st = vw.at s := by
  simp [timeStep, *]

@[simp] theorem execTimeStep_view (hx_regs : vw.free .regs) (hx_cal : vw.free .cal) (hx_tenants : vw.free .tenants) (hx_journal : vw.free .journal) (hx_links : vw.free .links) (hx_group : vw.free .group) (hx_host : vw.free .host) (hx_admin : vw.free .admin) (hx_hot : vw.free .hot) (hx_fresh : vw.free .fresh) (x : ACmd) (s : State)  : NextP (fun t => vw.at t = vw.at s) (execTimeStep x s) := by
  simp [execTimeStep, *]

@[simp] theorem timeAlarm_view (hx_regs : vw.free .regs) (b : List Byte) (s : State)  : vw.at (timeAlarm b s).st = vw.at s := by
  unfold timeAlarm
  split <;> simp [*]

@[simp] theorem execTimeAlarm_view (hx_regs : vw.free .regs) (hx_tenants : vw.free .tenants) (hx_journal : vw.free .journal) (hx_links : vw.free .links) (hx_group : vw.free .group) (hx_host : vw.free .host) (hx_admin : vw.free .admin) (hx_hot : vw.free .hot) (hx_fresh : vw.free .fresh) (x : ACmd) (s : State)  : NextP (fun t => vw.at t = vw.at s) (execTimeAlarm x s) := by
  simp [execTimeAlarm, *]

@[simp] theorem lcConfig_view (hx_regs : vw.free .regs) (hx_tenants : vw.free .tenants) (hx_devices : vw.free .devices) (hx_chans : vw.free .chans) (hx_lgroups : vw.free .lgroups) (hx_journal : vw.free .journal) (hx_links : vw.free .links) (hx_group : vw.free .group) (hx_host : vw.free .host) (hx_admin : vw.free .admin) (hx_hot : vw.free .hot) (hx_fresh : vw.free .fresh) (b : List Byte) (s : State)  : vw.at (lcConfig b s).st = vw.at s := by
  simp only [lcConfig]
  repeat' split
  all_goals simp [*]

@[simp] theorem execLcConfig_view (hx_regs : vw.free .regs) (hx_tenants : vw.free .tenants) (hx_devices : vw.free .devices) (hx_chans : vw.free .chans) (hx_lgroups : vw.free .lgroups) (hx_journal : vw.free .journal) (hx_links : vw.free .links) (hx_group : vw.free .group) (hx_host : vw.free .host) (hx_admin : vw.free .admin) (hx_hot : vw.free .hot) (hx_fresh : vw.free .fresh) (x : ACmd) (s : State)  : NextP (fun t => vw.at t = vw.at s) (execLcConfig x s) := by
  simp [execLcConfig, *]

@[simp] theorem lcProfileSet_view (hx_regs : vw.free .regs) (c : Nat) (e : List Byte) (s : State)  : vw.at (lcProfileSet c e s) = vw.at s := by
  simp [lcProfileSet, *]

theorem profileEntry_view (x : ACmd) (b : List Byte) (s : State) : ∀ a, profileEntry x b s = .inl a → vw.at a.st = vw.at s := by
  intro a h
  unfold profileEntry at h
  repeat' split at h
  all_goals first | (cases h; done) | (cases h; simp [*])

@[simp] theorem lcProfileCmd_view (hx_regs : vw.free .regs) (x : ACmd) (b : List Byte) (s : State) : vw.at (lcProfileCmd x b s).st = vw.at s := by
  unfold lcProfileCmd
  dsimp only
  split
  · simp [*]
  · split
    · rename_i g; exact profileEntry_view vw _ _ _ _ g
    · split
      · simp [*]
      · split <;> simp [*]

@[simp] theorem execLcProfile_view (hx_regs : vw.free .regs) (hx_tenants : vw.free .tenants) (hx_journal : vw.free .journal) (hx_links : vw.free .links) (hx_group : vw.free .group) (hx_host : vw.free .host) (hx_admin : vw.free .admin) (hx_hot : vw.free .hot) (hx_fresh : vw.free .fresh) (x : ACmd) (s : State)  : NextP (fun t => vw.at t = vw.at s) (execLcProfile x s) := by
  simp [execLcProfile, *]

@[simp] theorem lcAttach_view (hx_regs : vw.free .regs) (hx_devices : vw.free .devices) (b : List Byte) (s : State)  : vw.at (lcAttach b s).st = vw.at s := by
  simp only [lcAttach]
  repeat' split
  all_goals simp [*]

@[simp] theorem execLcAttach_view (hx_regs : vw.free .regs) (hx_tenants : vw.free .tenants) (hx_devices : vw.free .devices) (hx_journal : vw.free .journal) (hx_links : vw.free .links) (hx_group : vw.free .group) (hx_host : vw.free .host) (hx_admin : vw.free .admin) (hx_hot : vw.free .hot) (hx_fresh : vw.free .fresh) (x : ACmd) (s : State)  : NextP (fun t => vw.at t = vw.at s) (execLcAttach x s) := by
  simp [execLcAttach, *]

@[simp] theorem lcDetach_view (hx_regs : vw.free .regs) (hx_devices : vw.free .devices) (b : List Byte) (s : State)  : vw.at (lcDetach b s).st = vw.at s := by
  simp only [lcDetach]
  repeat' split
  all_goals simp [*]

@[simp] theorem execLcDetach_view (hx_regs : vw.free .regs) (hx_tenants : vw.free .tenants) (hx_devices : vw.free .devices) (hx_journal : vw.free .journal) (hx_links : vw.free .links) (hx_group : vw.free .group) (hx_host : vw.free .host) (hx_admin : vw.free .admin) (hx_hot : vw.free .hot) (hx_fresh : vw.free .fresh) (x : ACmd) (s : State)  : NextP (fun t => vw.at t = vw.at s) (execLcDetach x s) := by
  simp [execLcDetach, *]

@[simp] theorem lcCommand_view (hx_regs : vw.free .regs) (hx_tenants : vw.free .tenants) (hx_chans : vw.free .chans) (hx_journal : vw.free .journal) (hx_links : vw.free .links) (hx_group : vw.free .group) (hx_host : vw.free .host) (hx_admin : vw.free .admin) (hx_hot : vw.free .hot) (hx_fresh : vw.free .fresh) (b : List Byte) (s : State)  : vw.at (lcCommand b s).st = vw.at s := by
  simp only [lcCommand]
  repeat' split
  all_goals simp [*]

@[simp] theorem execLcCommand_view (hx_regs : vw.free .regs) (hx_tenants : vw.free .tenants) (hx_chans : vw.free .chans) (hx_journal : vw.free .journal) (hx_links : vw.free .links) (hx_group : vw.free .group) (hx_host : vw.free .host) (hx_admin : vw.free .admin) (hx_hot : vw.free .hot) (hx_fresh : vw.free .fresh) (x : ACmd) (s : State)  : NextP (fun t => vw.at t = vw.at s) (execLcCommand x s) := by
  simp [execLcCommand, *]

@[simp] theorem jnlEntry_view (hx_regs : vw.free .regs) (hx_journal : vw.free .journal) (hx_links : vw.free .links) (hx_hot : vw.free .hot) (b : List Byte) (s : State)  : vw.at (jnlEntry b s).st = vw.at s := by
  simp only [jnlEntry]
  repeat' split
  all_goals simp [*]

@[simp] theorem execJnlEntry_view (hx_regs : vw.free .regs) (hx_tenants : vw.free .tenants) (hx_journal : vw.free .journal) (hx_links : vw.free .links) (hx_group : vw.free .group) (hx_host : vw.free .host) (hx_admin : vw.free .admin) (hx_hot : vw.free .hot) (hx_fresh : vw.free .fresh) (x : ACmd) (s : State)  : NextP (fun t => vw.at t = vw.at s) (execJnlEntry x s) := by
  simp [execJnlEntry, *]

@[simp] theorem jnlControl_view (hx_regs : vw.free .regs) (hx_journal : vw.free .journal) (hx_links : vw.free .links) (hx_hot : vw.free .hot) (hx_fresh : vw.free .fresh) (tag : BitVec 16) (b : List Byte) (s : State)  : vw.at (jnlControl tag b s).st = vw.at s := by
  simp only [jnlControl]
  repeat' split
  all_goals simp [*]

@[simp] theorem execJnlControl_view (hx_regs : vw.free .regs) (hx_tenants : vw.free .tenants) (hx_journal : vw.free .journal) (hx_links : vw.free .links) (hx_group : vw.free .group) (hx_host : vw.free .host) (hx_admin : vw.free .admin) (hx_hot : vw.free .hot) (hx_fresh : vw.free .fresh) (x : ACmd) (s : State)  : NextP (fun t => vw.at t = vw.at s) (execJnlControl x s) := by
  simp [execJnlControl, *]

@[simp] theorem execJnlClose_view (hx_regs : vw.free .regs) (hx_tenants : vw.free .tenants) (hx_journal : vw.free .journal) (hx_links : vw.free .links) (hx_group : vw.free .group) (hx_host : vw.free .host) (hx_admin : vw.free .admin) (hx_hot : vw.free .hot) (hx_fresh : vw.free .fresh) (x : ACmd) (s : State)  : NextP (fun t => vw.at t = vw.at s) (execJnlClose x s) := by
  simp [execJnlClose, *]

@[simp] theorem jnlRead_view (hx_links : vw.free .links) (hx_group : vw.free .group) (hx_fresh : vw.free .fresh) (b : List Byte) (s : State)  : vw.at (jnlRead b s).st = vw.at s := by
  simp only [jnlRead]
  repeat' split
  all_goals simp [*]

@[simp] theorem execJnlRead_view (hx_regs : vw.free .regs) (hx_tenants : vw.free .tenants) (hx_journal : vw.free .journal) (hx_links : vw.free .links) (hx_group : vw.free .group) (hx_host : vw.free .host) (hx_admin : vw.free .admin) (hx_hot : vw.free .hot) (hx_fresh : vw.free .fresh) (x : ACmd) (s : State)  : NextP (fun t => vw.at t = vw.at s) (execJnlRead x s) := by
  simp [execJnlRead, *]

@[simp] theorem jnlArchive_view (hx_regs : vw.free .regs) (hx_journal : vw.free .journal) (hx_links : vw.free .links) (hx_hot : vw.free .hot) (b : List Byte) (s : State)  : vw.at (jnlArchive b s).st = vw.at s := by
  simp only [jnlArchive]
  repeat' split
  all_goals simp [*]

@[simp] theorem execJnlArchive_view (hx_regs : vw.free .regs) (hx_tenants : vw.free .tenants) (hx_journal : vw.free .journal) (hx_links : vw.free .links) (hx_group : vw.free .group) (hx_host : vw.free .host) (hx_admin : vw.free .admin) (hx_hot : vw.free .hot) (hx_fresh : vw.free .fresh) (x : ACmd) (s : State)  : NextP (fun t => vw.at t = vw.at s) (execJnlArchive x s) := by
  simp [execJnlArchive, *]

@[simp] theorem jnlStatus_view (_b : List Byte) (s : State)  : vw.at (jnlStatus _b s).st = vw.at s := by
  simp [jnlStatus, *]

@[simp] theorem execJnlStatus_view (hx_regs : vw.free .regs) (hx_tenants : vw.free .tenants) (hx_journal : vw.free .journal) (hx_links : vw.free .links) (hx_group : vw.free .group) (hx_host : vw.free .host) (hx_admin : vw.free .admin) (hx_hot : vw.free .hot) (hx_fresh : vw.free .fresh) (x : ACmd) (s : State)  : NextP (fun t => vw.at t = vw.at s) (execJnlStatus x s) := by
  simp [execJnlStatus, *]

@[simp] theorem codeAns_view (r : CodeRes) (s : State)  : vw.at (codeAns r s).st = vw.at s := by
  unfold codeAns
  split <;> simp [*]

@[simp] theorem codeWrite_view (hx_mem : vw.free .mem) (x : ACmd) (b : List Byte) (s : State)  : vw.at (codeWrite x b s).st = vw.at s := by
  simp only [codeWrite]
  repeat' split
  all_goals simp [*]

@[simp] theorem execCodeWrite_view (hx_regs : vw.free .regs) (hx_mem : vw.free .mem) (hx_tenants : vw.free .tenants) (hx_journal : vw.free .journal) (hx_links : vw.free .links) (hx_group : vw.free .group) (hx_host : vw.free .host) (hx_admin : vw.free .admin) (hx_hot : vw.free .hot) (hx_fresh : vw.free .fresh) (x : ACmd) (s : State)  : NextP (fun t => vw.at t = vw.at s) (execCodeWrite x s) := by
  simp [execCodeWrite, *]

@[simp] theorem execCodeCommit_view (hx_regs : vw.free .regs) (hx_mem : vw.free .mem) (hx_tenants : vw.free .tenants) (hx_journal : vw.free .journal) (hx_links : vw.free .links) (hx_group : vw.free .group) (hx_host : vw.free .host) (hx_admin : vw.free .admin) (hx_hot : vw.free .hot) (hx_fresh : vw.free .fresh) (x : ACmd) (s : State)  : NextP (fun t => vw.at t = vw.at s) (execCodeCommit x s) := by
  simp [execCodeCommit, *]

@[simp] theorem keyInstall_view (hx_regs : vw.free .regs) (hx_mem : vw.free .mem) (hx_journal : vw.free .journal) (hx_links : vw.free .links) (hx_hot : vw.free .hot) (hx_fresh : vw.free .fresh) (x : ACmd) (b : List Byte) (s : State)  : vw.at (keyInstall x b s).st = vw.at s := by
  simp only [keyInstall]
  repeat' split
  all_goals simp [*]

@[simp] theorem execKeyInstall_view (hx_regs : vw.free .regs) (hx_mem : vw.free .mem) (hx_tenants : vw.free .tenants) (hx_journal : vw.free .journal) (hx_links : vw.free .links) (hx_group : vw.free .group) (hx_host : vw.free .host) (hx_admin : vw.free .admin) (hx_hot : vw.free .hot) (hx_fresh : vw.free .fresh) (x : ACmd) (s : State)  : NextP (fun t => vw.at t = vw.at s) (execKeyInstall x s) := by
  simp [execKeyInstall, *]

@[simp] theorem castle_view (hx_regs : vw.free .regs) (hx_mem : vw.free .mem) (hx_journal : vw.free .journal) (hx_cores : vw.free .cores) (hx_locks : vw.free .locks) (hx_links : vw.free .links) (hx_guard : vw.free .guard) (hx_hot : vw.free .hot) (hx_fresh : vw.free .fresh) (b : List Byte) (s : State) : vw.at (castle b s).st = vw.at s := by
  unfold castle
  dsimp only
  split
  · simp [*]
  · split
    · simp [*]
    · rename_i g
      have := castServe_view vw (by assumption) (by assumption) (by assumption) (by assumption) (by assumption) (by assumption) (by assumption) (by assumption) (by assumption) _ _ _ _ _ g
      split_ifs <;> simp [*, this]

@[simp] theorem execCastle_view (hx_regs : vw.free .regs) (hx_mem : vw.free .mem) (hx_tenants : vw.free .tenants) (hx_journal : vw.free .journal) (hx_cores : vw.free .cores) (hx_locks : vw.free .locks) (hx_links : vw.free .links) (hx_group : vw.free .group) (hx_guard : vw.free .guard) (hx_host : vw.free .host) (hx_admin : vw.free .admin) (hx_hot : vw.free .hot) (hx_fresh : vw.free .fresh) (x : ACmd) (s : State)  : NextP (fun t => vw.at t = vw.at s) (execCastle x s) := by
  simp [execCastle, *]

@[simp] theorem faultRead_view (b : List Byte) (s : State)  : vw.at (faultRead b s).st = vw.at s := by
  unfold faultRead
  split <;> simp [*]

@[simp] theorem execFaultRead_view (hx_regs : vw.free .regs) (hx_tenants : vw.free .tenants) (hx_journal : vw.free .journal) (hx_links : vw.free .links) (hx_group : vw.free .group) (hx_host : vw.free .host) (hx_admin : vw.free .admin) (hx_hot : vw.free .hot) (hx_fresh : vw.free .fresh) (x : ACmd) (s : State)  : NextP (fun t => vw.at t = vw.at s) (execFaultRead x s) := by
  simp [execFaultRead, *]

@[simp] theorem powerCmd_view (k : Nat) (f : Nat → State → Adm) (b : List Byte) (s : State) (hf : ∀ y0 y1, vw.at (f y0 y1).st = vw.at y1)  : vw.at (powerCmd k f b s).st = vw.at s := by
  unfold powerCmd
  split <;> simp [*]

@[simp] theorem powerDark_view (hx_regs : vw.free .regs) (hx_mem : vw.free .mem) (hx_tenants : vw.free .tenants) (hx_devices : vw.free .devices) (hx_ports : vw.free .ports) (hx_pads : vw.free .pads) (hx_fifos : vw.free .fifos) (hx_chans : vw.free .chans) (hx_journal : vw.free .journal) (hx_locks : vw.free .locks) (hx_remote : vw.free .remote) (hx_delayed : vw.free .delayed) (hx_links : vw.free .links) (hx_group : vw.free .group) (hx_guard : vw.free .guard) (hx_power : vw.free .power) (hx_host : vw.free .host) (hx_admin : vw.free .admin) (hx_hot : vw.free .hot) (hx_fresh : vw.free .fresh) (n : Nat) (s : State)  : vw.at (powerDark n s).st = vw.at s := by
  unfold powerDark
  split <;> simp [*]

@[simp] theorem execPowerDark_view (hx_regs : vw.free .regs) (hx_mem : vw.free .mem) (hx_tenants : vw.free .tenants) (hx_devices : vw.free .devices) (hx_ports : vw.free .ports) (hx_pads : vw.free .pads) (hx_fifos : vw.free .fifos) (hx_chans : vw.free .chans) (hx_journal : vw.free .journal) (hx_locks : vw.free .locks) (hx_remote : vw.free .remote) (hx_delayed : vw.free .delayed) (hx_links : vw.free .links) (hx_group : vw.free .group) (hx_guard : vw.free .guard) (hx_power : vw.free .power) (hx_host : vw.free .host) (hx_admin : vw.free .admin) (hx_hot : vw.free .hot) (hx_fresh : vw.free .fresh) (x : ACmd) (s : State)  : NextP (fun t => vw.at t = vw.at s) (execPowerDark x s) := by
  unfold execPowerDark
  (refine admRun_view vw (by assumption) (by assumption) (by assumption) (by assumption) (by assumption) (by assumption) (by assumption) (by assumption) (by assumption) _ _ _ _ (fun b s => ?_) _; (try dsimp only); (repeat' split); all_goals simp (maxDischargeDepth := 6) [*])

@[simp] theorem powerWake_view (hx_regs : vw.free .regs) (hx_power : vw.free .power) (n : Nat) (s : State)  : vw.at (powerWake n s).st = vw.at s := by
  unfold powerWake
  split <;> simp [*]

@[simp] theorem execPowerWake_view (hx_regs : vw.free .regs) (hx_tenants : vw.free .tenants) (hx_journal : vw.free .journal) (hx_links : vw.free .links) (hx_group : vw.free .group) (hx_power : vw.free .power) (hx_host : vw.free .host) (hx_admin : vw.free .admin) (hx_hot : vw.free .hot) (hx_fresh : vw.free .fresh) (x : ACmd) (s : State)  : NextP (fun t => vw.at t = vw.at s) (execPowerWake x s) := by
  unfold execPowerWake
  (refine admRun_view vw (by assumption) (by assumption) (by assumption) (by assumption) (by assumption) (by assumption) (by assumption) (by assumption) (by assumption) _ _ _ _ (fun b s => ?_) _; (try dsimp only); (repeat' split); all_goals simp (maxDischargeDepth := 6) [*])

@[simp] theorem lowPowerCmd_view (hx_regs : vw.free .regs) (hx_mem : vw.free .mem) (hx_tenants : vw.free .tenants) (hx_devices : vw.free .devices) (hx_ports : vw.free .ports) (hx_pads : vw.free .pads) (hx_fifos : vw.free .fifos) (hx_chans : vw.free .chans) (hx_journal : vw.free .journal) (hx_locks : vw.free .locks) (hx_remote : vw.free .remote) (hx_delayed : vw.free .delayed) (hx_links : vw.free .links) (hx_group : vw.free .group) (hx_guard : vw.free .guard) (hx_power : vw.free .power) (hx_host : vw.free .host) (hx_admin : vw.free .admin) (hx_hot : vw.free .hot) (hx_fresh : vw.free .fresh) (k : Nat) (x : ACmd) (s : State) : NextP (fun t => vw.at t = vw.at s) (lowPowerCmd k x s) := by
  unfold lowPowerCmd
  simp only [nextP_done]
  repeat' split
  all_goals simp [*]

@[simp] theorem execPowerStandby_view (hx_regs : vw.free .regs) (hx_mem : vw.free .mem) (hx_tenants : vw.free .tenants) (hx_devices : vw.free .devices) (hx_ports : vw.free .ports) (hx_pads : vw.free .pads) (hx_fifos : vw.free .fifos) (hx_chans : vw.free .chans) (hx_journal : vw.free .journal) (hx_locks : vw.free .locks) (hx_remote : vw.free .remote) (hx_delayed : vw.free .delayed) (hx_links : vw.free .links) (hx_group : vw.free .group) (hx_guard : vw.free .guard) (hx_power : vw.free .power) (hx_host : vw.free .host) (hx_admin : vw.free .admin) (hx_hot : vw.free .hot) (hx_fresh : vw.free .fresh) (x : ACmd) (s : State)  : NextP (fun t => vw.at t = vw.at s) (execPowerStandby x s) := by
  simp [execPowerStandby, *]

@[simp] theorem execPowerDeep_view (hx_regs : vw.free .regs) (hx_mem : vw.free .mem) (hx_tenants : vw.free .tenants) (hx_devices : vw.free .devices) (hx_ports : vw.free .ports) (hx_pads : vw.free .pads) (hx_fifos : vw.free .fifos) (hx_chans : vw.free .chans) (hx_journal : vw.free .journal) (hx_locks : vw.free .locks) (hx_remote : vw.free .remote) (hx_delayed : vw.free .delayed) (hx_links : vw.free .links) (hx_group : vw.free .group) (hx_guard : vw.free .guard) (hx_power : vw.free .power) (hx_host : vw.free .host) (hx_admin : vw.free .admin) (hx_hot : vw.free .hot) (hx_fresh : vw.free .fresh) (x : ACmd) (s : State)  : NextP (fun t => vw.at t = vw.at s) (execPowerDeep x s) := by
  simp [execPowerDeep, *]

@[simp] theorem regReadCmd_view (hx_regs : vw.free .regs) (hx_time : vw.free .time) (hx_cal : vw.free .cal) (hx_pads : vw.free .pads) (hx_fifos : vw.free .fifos) (hx_journal : vw.free .journal) (hx_cores : vw.free .cores) (hx_locks : vw.free .locks) (hx_hot : vw.free .hot) (b : List Byte) (s : State)  : vw.at (regReadCmd b s).st = vw.at s := by
  simp only [regReadCmd]
  repeat' split
  all_goals simp [*]

@[simp] theorem execRegRead_view (hx_regs : vw.free .regs) (hx_time : vw.free .time) (hx_cal : vw.free .cal) (hx_tenants : vw.free .tenants) (hx_pads : vw.free .pads) (hx_fifos : vw.free .fifos) (hx_journal : vw.free .journal) (hx_cores : vw.free .cores) (hx_locks : vw.free .locks) (hx_links : vw.free .links) (hx_group : vw.free .group) (hx_host : vw.free .host) (hx_admin : vw.free .admin) (hx_hot : vw.free .hot) (hx_fresh : vw.free .fresh) (x : ACmd) (s : State)  : NextP (fun t => vw.at t = vw.at s) (execRegRead x s) := by
  simp [execRegRead, *]

@[simp] theorem confTake_view (hx_regs : vw.free .regs) (hx_mem : vw.free .mem) (hx_tenants : vw.free .tenants) (hx_devices : vw.free .devices) (hx_ports : vw.free .ports) (hx_images : vw.free .images) (hx_pads : vw.free .pads) (hx_fifos : vw.free .fifos) (hx_chans : vw.free .chans) (hx_lgroups : vw.free .lgroups) (hx_journal : vw.free .journal) (hx_remote : vw.free .remote) (hx_delayed : vw.free .delayed) (hx_links : vw.free .links) (hx_group : vw.free .group) (hx_host : vw.free .host) (hx_admin : vw.free .admin) (hx_hot : vw.free .hot) (hx_fresh : vw.free .fresh) (e : Nat × List Byte) (s : State) : vw.at (confTake e s) = vw.at s := by
  unfold confTake
  dsimp only
  repeat' split
  all_goals simp [*]

@[simp] theorem dropBlocks_view (hx_regs : vw.free .regs) (hx_mem : vw.free .mem) (hx_tenants : vw.free .tenants) (hx_devices : vw.free .devices) (hx_ports : vw.free .ports) (hx_images : vw.free .images) (hx_pads : vw.free .pads) (hx_fifos : vw.free .fifos) (hx_chans : vw.free .chans) (hx_journal : vw.free .journal) (hx_remote : vw.free .remote) (hx_delayed : vw.free .delayed) (hx_links : vw.free .links) (hx_group : vw.free .group) (hx_hot : vw.free .hot) (s : State)  : vw.at (dropBlocks s) = vw.at s := by
  simp [dropBlocks, *]

@[simp] theorem takeVfs_view (hx_regs : vw.free .regs) (hx_tenants : vw.free .tenants) (hx_devices : vw.free .devices) (hx_ports : vw.free .ports) (hx_pads : vw.free .pads) (hx_fifos : vw.free .fifos) (hx_chans : vw.free .chans) (hx_journal : vw.free .journal) (hx_remote : vw.free .remote) (hx_delayed : vw.free .delayed) (hx_links : vw.free .links) (hx_group : vw.free .group) (hx_host : vw.free .host) (hx_hot : vw.free .hot) (en : Nat) (num : Nat) (s : State)  : vw.at (takeVfs en num s) = vw.at s := by
  simp [takeVfs, *]

@[simp] theorem admitNow_view (hx_regs : vw.free .regs) (hx_mem : vw.free .mem) (hx_time : vw.free .time) (hx_tenants : vw.free .tenants) (hx_devices : vw.free .devices) (hx_ports : vw.free .ports) (hx_images : vw.free .images) (hx_pads : vw.free .pads) (hx_fifos : vw.free .fifos) (hx_chans : vw.free .chans) (hx_lgroups : vw.free .lgroups) (hx_journal : vw.free .journal) (hx_remote : vw.free .remote) (hx_delayed : vw.free .delayed) (hx_links : vw.free .links) (hx_group : vw.free .group) (hx_host : vw.free .host) (hx_admin : vw.free .admin) (hx_hot : vw.free .hot) (hx_fresh : vw.free .fresh) (a : Nat) (s : State)  : vw.at (admitNow a s) = vw.at s := by
  unfold admitNow
  try dsimp only
  repeat' split
  all_goals first | (simp [*]; done) | (split_ifs <;> simp [*]; done) | (simp [apply_ite (View.at vw), *]; done) | (simp; split_ifs <;> simp [*]; done)

@[simp] theorem execAdmissionTick_view (hx_regs : vw.free .regs) (hx_mem : vw.free .mem) (hx_time : vw.free .time) (hx_tenants : vw.free .tenants) (hx_devices : vw.free .devices) (hx_ports : vw.free .ports) (hx_images : vw.free .images) (hx_pads : vw.free .pads) (hx_fifos : vw.free .fifos) (hx_chans : vw.free .chans) (hx_lgroups : vw.free .lgroups) (hx_journal : vw.free .journal) (hx_remote : vw.free .remote) (hx_delayed : vw.free .delayed) (hx_links : vw.free .links) (hx_group : vw.free .group) (hx_host : vw.free .host) (hx_admin : vw.free .admin) (hx_hot : vw.free .hot) (hx_fresh : vw.free .fresh) (s : State)  : NextP (fun t => vw.at t = vw.at s) (execAdmissionTick s) := by
  unfold execAdmissionTick
  repeat' split
  all_goals simp [*]

@[simp] theorem takeMmio_view (hx_regs : vw.free .regs) (hx_tenants : vw.free .tenants) (hx_devices : vw.free .devices) (hx_ports : vw.free .ports) (hx_pads : vw.free .pads) (hx_fifos : vw.free .fifos) (hx_chans : vw.free .chans) (hx_journal : vw.free .journal) (hx_cores : vw.free .cores) (hx_remote : vw.free .remote) (hx_delayed : vw.free .delayed) (hx_links : vw.free .links) (hx_group : vw.free .group) (hx_guard : vw.free .guard) (hx_power : vw.free .power) (hx_host : vw.free .host) (hx_hot : vw.free .hot) (hx_fresh : vw.free .fresh) (b : List Byte) (s : State)  : vw.at (takeMmio b s) = vw.at s := by
  simp only [takeMmio]
  repeat' split
  all_goals simp [*]

@[simp] theorem execMmio_view (hx_regs : vw.free .regs) (hx_tenants : vw.free .tenants) (hx_devices : vw.free .devices) (hx_ports : vw.free .ports) (hx_pads : vw.free .pads) (hx_fifos : vw.free .fifos) (hx_chans : vw.free .chans) (hx_journal : vw.free .journal) (hx_cores : vw.free .cores) (hx_remote : vw.free .remote) (hx_delayed : vw.free .delayed) (hx_links : vw.free .links) (hx_group : vw.free .group) (hx_guard : vw.free .guard) (hx_power : vw.free .power) (hx_host : vw.free .host) (hx_hot : vw.free .hot) (hx_fresh : vw.free .fresh) (f : Frame) (s : State)  : NextP (fun t => vw.at t = vw.at s) (execMmio f s) := by
  simp [execMmio, *]

@[simp] theorem takeHostDma_view (hx_regs : vw.free .regs) (hx_xfers : vw.free .xfers) (hx_links : vw.free .links) (hx_group : vw.free .group) (hx_host : vw.free .host) (hx_fresh : vw.free .fresh) (b : List Byte) (s : State)  : vw.at (takeHostDma b s) = vw.at s := by
  unfold takeHostDma
  repeat' split
  all_goals simp [*]

@[simp] theorem execHostdma_view (hx_regs : vw.free .regs) (hx_xfers : vw.free .xfers) (hx_links : vw.free .links) (hx_group : vw.free .group) (hx_host : vw.free .host) (hx_fresh : vw.free .fresh) (f : Frame) (s : State)  : NextP (fun t => vw.at t = vw.at s) (execHostdma f s) := by
  simp [execHostdma, *]

@[simp] theorem farBind_view (hx_ports : vw.free .ports) (hx_group : vw.free .group) (b : List Byte) (s : State)  : vw.at (farBind b s) = vw.at s := by
  simp [farBind, *]

@[simp] theorem farReported_view (hx_group : vw.free .group) (b : List Byte) (s : State)  : vw.at (farReported b s) = vw.at s := by
  simp [farReported, *]

@[simp] theorem takeQueue_view (hx_regs : vw.free .regs) (hx_ports : vw.free .ports) (hx_journal : vw.free .journal) (hx_links : vw.free .links) (hx_group : vw.free .group) (hx_hot : vw.free .hot) (b : List Byte) (s : State)  : vw.at (takeQueue b s) = vw.at s := by
  unfold takeQueue
  repeat' split
  all_goals simp [*]

@[simp] theorem execQueue_view (hx_regs : vw.free .regs) (hx_ports : vw.free .ports) (hx_journal : vw.free .journal) (hx_links : vw.free .links) (hx_group : vw.free .group) (hx_hot : vw.free .hot) (f : Frame) (s : State)  : NextP (fun t => vw.at t = vw.at s) (execQueue f s) := by
  simp [execQueue, *]

@[simp] theorem confKeep_view (hx_group : vw.free .group) (ok : Bool) (s : State)  : vw.at (confKeep ok s) = vw.at s := by
  unfold confKeep
  split <;> simp [*]

@[simp] theorem takeAdmin_view (hx_regs : vw.free .regs) (hx_tenants : vw.free .tenants) (hx_journal : vw.free .journal) (hx_links : vw.free .links) (hx_group : vw.free .group) (hx_host : vw.free .host) (hx_admin : vw.free .admin) (hx_hot : vw.free .hot) (hx_fresh : vw.free .fresh) (b : List Byte) (s : State)  : vw.at (takeAdmin b s) = vw.at s := by
  unfold takeAdmin
  repeat' split
  all_goals simp [*]

@[simp] theorem execDrnAdmin_view (hx_regs : vw.free .regs) (hx_tenants : vw.free .tenants) (hx_journal : vw.free .journal) (hx_links : vw.free .links) (hx_group : vw.free .group) (hx_host : vw.free .host) (hx_admin : vw.free .admin) (hx_hot : vw.free .hot) (hx_fresh : vw.free .fresh) (f : Frame) (s : State)  : NextP (fun t => vw.at t = vw.at s) (execDrnAdmin f s) := by
  simp [execDrnAdmin, *]

@[simp] theorem newFrame_view (hx_regs : vw.free .regs) (hx_time : vw.free .time) (hx_journal : vw.free .journal) (hx_links : vw.free .links) (hx_hot : vw.free .hot) (s : State)  : vw.at (newFrame s) = vw.at s := by
  simp only [newFrame]
  repeat' split
  all_goals simp [*]

@[simp] theorem activate_view (hx_regs : vw.free .regs) (hx_ports : vw.free .ports) (hx_journal : vw.free .journal) (hx_links : vw.free .links) (hx_hot : vw.free .hot) (p : Nat) (s : State)  : vw.at (activate p s) = vw.at s := by
  simp only [activate]
  repeat' split
  all_goals simp [*]

@[simp] theorem countFrame_view (hx_regs : vw.free .regs) (hx_tenants : vw.free .tenants) (hx_journal : vw.free .journal) (hx_links : vw.free .links) (hx_host : vw.free .host) (hx_hot : vw.free .hot) (f : Nat) (t : Nat) (s : State)  : vw.at (countFrame f t s) = vw.at s := by
  simp only [countFrame]
  repeat' split
  all_goals simp [*]

@[simp] theorem clearMark_view (hx_tenants : vw.free .tenants) (t : Nat) (s : State)  : vw.at (clearMark t s) = vw.at s := by
  simp [clearMark, *]

@[simp] theorem countCluster_view (hx_regs : vw.free .regs) (hx_clusters : vw.free .clusters) (hx_power : vw.free .power) (turns n : Nat) (s : State) : vw.at (countCluster turns n s) = vw.at s := by
  simp only [countCluster]
  repeat' split
  all_goals simp [*]

@[simp] theorem enterPort_view (hx_mem : vw.free .mem) (hx_tenants : vw.free .tenants) (hx_fifos : vw.free .fifos) (hx_group : vw.free .group) (o : OutMsg) (s : State)  : vw.at (enterPort o s) = vw.at s := by
  simp only [enterPort]
  repeat' split
  all_goals simp [*]

@[simp] theorem startTimers_view (hx_devices : vw.free .devices) (t : Nat) (s : State)  : vw.at (startTimers t s) = vw.at s := by
  simp [startTimers, *]

@[simp] theorem releaseChans_view (hx_chans : vw.free .chans) (t : Nat) (s : State)  : vw.at (releaseChans t s) = vw.at s := by
  simp [releaseChans, *]

@[simp] theorem sendAway_view (hx_links : vw.free .links) (hx_group : vw.free .group) (o : OutMsg) (s : State)  : vw.at (sendAway o s) = vw.at s := by
  simp [sendAway, *]

@[simp] theorem release_view (hx_regs : vw.free .regs) (hx_mem : vw.free .mem) (hx_tenants : vw.free .tenants) (hx_devices : vw.free .devices) (hx_fifos : vw.free .fifos) (hx_chans : vw.free .chans) (hx_journal : vw.free .journal) (hx_links : vw.free .links) (hx_group : vw.free .group) (hx_hot : vw.free .hot) (t : Nat) (s : State)  : vw.at (release t s).2 = vw.at s := by
  simp only [release]
  repeat' split
  all_goals simp [*]

@[simp] theorem releaseAll_view (hx_regs : vw.free .regs) (hx_mem : vw.free .mem) (hx_tenants : vw.free .tenants) (hx_devices : vw.free .devices) (hx_fifos : vw.free .fifos) (hx_chans : vw.free .chans) (hx_journal : vw.free .journal) (hx_links : vw.free .links) (hx_group : vw.free .group) (hx_hot : vw.free .hot) (ts : List Nat) (s : State) : vw.at (releaseAll ts s).2 = vw.at s := by
  induction ts generalizing s with
  | nil => rfl
  | cons t ts ih => simp [*, releaseAll, ih]

@[simp] theorem writeInbox_view (hx_mem : vw.free .mem) (t : Nat) (sls : List Slot) (bells : Word) (s : State)  : vw.at (writeInbox t sls bells s) = vw.at s := by
  simp [writeInbox, *]

@[simp] theorem reapplyAll_view (hx_tenants : vw.free .tenants) (hx_devices : vw.free .devices) (t : Nat) (s : State)  : vw.at (reapplyAll t s) = vw.at s := by
  unfold reapplyAll
  try dsimp only
  repeat' split
  all_goals first | (simp [*]; done) | (split_ifs <;> simp [*]; done) | (simp [apply_ite (View.at vw), *]; done) | (simp; split_ifs <;> simp [*]; done)

@[simp] theorem handTenant_view (hx_regs : vw.free .regs) (hx_mem : vw.free .mem) (hx_tenants : vw.free .tenants) (hx_devices : vw.free .devices) (hx_journal : vw.free .journal) (hx_links : vw.free .links) (hx_hot : vw.free .hot) (t : Nat) (late : Bool) (items : List HItem) (s : State)  : vw.at (handTenant t late items s) = vw.at s := by
  simp only [handTenant]
  repeat' split
  all_goals simp [*]

@[simp] theorem delay_view (hx_regs : vw.free .regs) (hx_journal : vw.free .journal) (hx_delayed : vw.free .delayed) (hx_links : vw.free .links) (hx_hot : vw.free .hot) (c : Cross) (s : State)  : vw.at (delay c s) = vw.at s := by
  unfold delay
  try dsimp only
  repeat' split
  all_goals first | (simp [*]; done) | (split_ifs <;> simp [*]; done) | (simp [apply_ite (View.at vw), *]; done) | (simp; split_ifs <;> simp [*]; done)

@[simp] theorem sendCross_view (hx_regs : vw.free .regs) (hx_mem : vw.free .mem) (hx_journal : vw.free .journal) (hx_remote : vw.free .remote) (hx_delayed : vw.free .delayed) (hx_links : vw.free .links) (hx_hot : vw.free .hot) (cs : List Cross) (u : Used) (s : State) : vw.at (sendCross cs u s) = vw.at s := by
  induction cs generalizing u s with
  | nil => rfl
  | cons c cs ih =>
    unfold sendCross
    dsimp only
    split
    · split <;> simp [*, ih]
    · simp [*, ih]

@[simp] theorem sendEntry_view (hx_links : vw.free .links) (t : Nat) (h : HItem) (s : State)  : vw.at (sendEntry t h s) = vw.at s := by
  unfold sendEntry
  split <;> simp [*]

@[simp] theorem farEnter_view (hx_tenants : vw.free .tenants) (hx_group : vw.free .group) (s : State) : vw.at (farEnter s) = vw.at s := by
  unfold farEnter
  dsimp only
  rw [each_view vw _ _ (fun c s => by split <;> simp [*])]
  simp [*]

@[simp] theorem queueOutput_view (hx_mem : vw.free .mem) (hx_tenants : vw.free .tenants) (hx_fifos : vw.free .fifos) (hx_group : vw.free .group) (b : List Byte) (s : State)  : vw.at (queueOutput b s) = vw.at s := by
  simp only [queueOutput]
  repeat' split
  all_goals simp [*]

@[simp] theorem swapImage_view (hx_regs : vw.free .regs) (hx_tenants : vw.free .tenants) (hx_ports : vw.free .ports) (hx_images : vw.free .images) (hx_fifos : vw.free .fifos) (hx_journal : vw.free .journal) (hx_links : vw.free .links) (hx_group : vw.free .group) (hx_host : vw.free .host) (hx_admin : vw.free .admin) (hx_hot : vw.free .hot) (hx_fresh : vw.free .fresh) (j : Nat) (s : State)  : vw.at (swapImage j s) = vw.at s := by
  unfold swapImage
  repeat' split
  all_goals simp [*]

@[simp] theorem tickCluster_view (hx_regs : vw.free .regs) (hx_pads : vw.free .pads) (hx_clusters : vw.free .clusters) (hx_power : vw.free .power) (hx_hot : vw.free .hot) (n : Nat) (s : State)  : vw.at (tickCluster n s) = vw.at s := by
  unfold tickCluster
  split <;> simp [*]

@[simp] theorem frameTick_view (hx_regs : vw.free .regs) (hx_mem : vw.free .mem) (hx_time : vw.free .time) (hx_tenants : vw.free .tenants) (hx_devices : vw.free .devices) (hx_ports : vw.free .ports) (hx_images : vw.free .images) (hx_pads : vw.free .pads) (hx_fifos : vw.free .fifos) (hx_chans : vw.free .chans) (hx_journal : vw.free .journal) (hx_clusters : vw.free .clusters) (hx_cores : vw.free .cores) (hx_locks : vw.free .locks) (hx_remote : vw.free .remote) (hx_delayed : vw.free .delayed) (hx_links : vw.free .links) (hx_group : vw.free .group) (hx_guard : vw.free .guard) (hx_power : vw.free .power) (hx_host : vw.free .host) (hx_admin : vw.free .admin) (hx_hot : vw.free .hot) (hx_fresh : vw.free .fresh) (s : State) : vw.at (frameTick s) = vw.at s := by
  have hf : ∀ (c : Crossing) (s : State), vw.at (each (crossItem c) (fun q => freeCopied q.2) s) = vw.at s :=
    fun c s => each_view vw _ _ (fun q s => freeCopied_view vw (by assumption) (by assumption) _ _) _
  unfold frameTick
  dsimp only
  simp [hf, *]

@[simp] theorem execFrameTick_view (hx_regs : vw.free .regs) (hx_mem : vw.free .mem) (hx_time : vw.free .time) (hx_tenants : vw.free .tenants) (hx_devices : vw.free .devices) (hx_ports : vw.free .ports) (hx_images : vw.free .images) (hx_pads : vw.free .pads) (hx_fifos : vw.free .fifos) (hx_chans : vw.free .chans) (hx_journal : vw.free .journal) (hx_clusters : vw.free .clusters) (hx_cores : vw.free .cores) (hx_locks : vw.free .locks) (hx_remote : vw.free .remote) (hx_delayed : vw.free .delayed) (hx_links : vw.free .links) (hx_group : vw.free .group) (hx_guard : vw.free .guard) (hx_power : vw.free .power) (hx_host : vw.free .host) (hx_admin : vw.free .admin) (hx_hot : vw.free .hot) (hx_fresh : vw.free .fresh) (s : State)  : NextP (fun t => vw.at t = vw.at s) (execFrameTick s) := by
  unfold execFrameTick
  split <;> simp [*]

@[simp] theorem startIssue_view (hx_regs : vw.free .regs) (hx_time : vw.free .time) (hx_cores : vw.free .cores) (i : Issue) (k : Nat) (long : Option Ctx) (s : State)  : vw.at (startIssue i k long s) = vw.at s := by
  simp only [startIssue]
  repeat' split
  all_goals simp [*]

@[simp] theorem setCtx_view (hx_cores : vw.free .cores) (k : Nat) (c : Ctx) (s : State)  : vw.at (setCtx k c s) = vw.at s := by
  simp [setCtx, *]

@[simp] theorem touchLine_view (hx_clusters : vw.free .clusters) (c : CoreId) (pc : Word) (s : State)  : vw.at (touchLine c pc s) = vw.at s := by
  simp only [touchLine]
  repeat' split
  all_goals simp [*]

@[simp] theorem btbResolve_view (hx_cores : vw.free .cores) (c : CoreId) (k : Nat) (pc : Word) (target : Option Word) (s : State)  : vw.at (btbResolve c k pc target s) = vw.at s := by
  unfold btbResolve
  split <;> simp [*]

@[simp] theorem notePrev_view (hx_cores : vw.free .cores) (c : CoreId) (k : Nat) (w : Word) (s : State)  : vw.at (notePrev c k w s) = vw.at s := by
  unfold notePrev
  split <;> simp [*]

@[simp] theorem coreFail_view (hx_regs : vw.free .regs) (hx_mem : vw.free .mem) (hx_journal : vw.free .journal) (hx_cores : vw.free .cores) (hx_locks : vw.free .locks) (hx_links : vw.free .links) (hx_guard : vw.free .guard) (hx_hot : vw.free .hot) (hx_fresh : vw.free .fresh) (c : CoreId) (cause : Nat) (s : State)  : vw.at (coreFail c cause s) = vw.at s := by
  unfold coreFail
  split <;> simp [*]

@[simp] theorem reportEcc_view (hx_regs : vw.free .regs) (hx_journal : vw.free .journal) (hx_links : vw.free .links) (hx_guard : vw.free .guard) (hx_hot : vw.free .hot) (hx_fresh : vw.free .fresh) (c : CoreId) (cause : Nat) (bad : Word) (s : State)  : vw.at (reportEcc c cause bad s) = vw.at s := by
  unfold reportEcc
  split <;> simp [*]

@[simp] theorem trapIn_view (hx_regs : vw.free .regs) (hx_mem : vw.free .mem) (hx_journal : vw.free .journal) (hx_cores : vw.free .cores) (hx_locks : vw.free .locks) (hx_links : vw.free .links) (hx_guard : vw.free .guard) (hx_hot : vw.free .hot) (hx_fresh : vw.free .fresh) (i : Issue) (x : Isi) (cause : Nat) (detail : Nat) (bad : Word) (s : State)  : vw.at (trapIn i x cause detail bad s) = vw.at s := by
  simp only [trapIn]
  repeat' split
  all_goals simp [*]

@[simp] theorem fetchFail_view (hx_regs : vw.free .regs) (hx_mem : vw.free .mem) (hx_journal : vw.free .journal) (hx_cores : vw.free .cores) (hx_locks : vw.free .locks) (hx_links : vw.free .links) (hx_guard : vw.free .guard) (hx_hot : vw.free .hot) (hx_fresh : vw.free .fresh) (i : Issue) (x : Isi) (cause : Nat) (bad : Word) (s : State)  : vw.at (fetchFail i x cause bad s) = vw.at s := by
  unfold fetchFail
  split <;> simp [*]

@[simp] theorem fetched_view (hx_clusters : vw.free .clusters) (hx_cores : vw.free .cores) (i : Issue) (x : Isi) (s : State)  : vw.at (fetched i x s) = vw.at s := by
  simp [fetched, *]

/-- What an instruction's effect does beside its core's context leaves the queue. -/
def Result.okView {α : Type} (vw : View α) : Result → Prop
  | .fin _ post => ∀ s, vw.at (post s) = vw.at s
  | .store _ pre post => (∀ s, vw.at (pre s) = vw.at s) ∧ ∀ s, vw.at (post s) = vw.at s
  | .trap _ _ _ pre => ∀ s, vw.at (pre s) = vw.at s
  | .jump _ _ | .place _ _ _ _ | .held => True

@[simp] theorem okView_fin (c : Ctx) (f : State → State) : (Result.fin c f).okView vw = ∀ s, vw.at (f s) = vw.at s := (rfl)
@[simp] theorem okView_store (c : Ctx) (f g : State → State) :
    (Result.store c f g).okView vw = ((∀ s, vw.at (f s) = vw.at s) ∧ ∀ s, vw.at (g s) = vw.at s) := (rfl)
@[simp] theorem okView_trap (a b : Nat) (w : Word) (f : State → State) :
    (Result.trap a b w f).okView vw = ∀ s, vw.at (f s) = vw.at s := (rfl)
@[simp] theorem okView_jump (c : Ctx) (t : Word) : (Result.jump c t).okView vw = True := (rfl)
@[simp] theorem okView_place (r : Bool) (c : Ctx) (p q : Word) : (Result.place r c p q).okView vw = True := (rfl)
@[simp] theorem okView_held : Result.held.okView vw = True := (rfl)

@[simp] theorem finish_view (hx_regs : vw.free .regs) (hx_mem : vw.free .mem) (hx_journal : vw.free .journal) (hx_clusters : vw.free .clusters) (hx_cores : vw.free .cores) (hx_locks : vw.free .locks) (hx_links : vw.free .links) (hx_guard : vw.free .guard) (hx_hot : vw.free .hot) (hx_fresh : vw.free .fresh) (i : Issue) (x : Isi) (r : Result) (hr : r.okView vw) (s : State) :
    vw.at (finish i x r s) = vw.at s := by
  cases r <;> simp only [finish] <;> repeat' split
  all_goals simp_all

@[simp] theorem skip_view (hx_regs : vw.free .regs) (hx_mem : vw.free .mem) (hx_journal : vw.free .journal) (hx_clusters : vw.free .clusters) (hx_cores : vw.free .cores) (hx_locks : vw.free .locks) (hx_links : vw.free .links) (hx_guard : vw.free .guard) (hx_hot : vw.free .hot) (i : Issue) (x : Isi) (s : State)  : vw.at (skip i x s) = vw.at s := by
  unfold skip
  repeat' split
  all_goals simp [*]

@[simp] theorem unpark_view (hx_regs : vw.free .regs) (k : CoreId) (s : State)  : vw.at (unpark k s) = vw.at s := by
  unfold unpark
  repeat' split
  all_goals simp [*]

@[simp] theorem iterEnd_view (hx_regs : vw.free .regs) (i : Issue) (s : State)  : vw.at (iterEnd i s) = vw.at s := by
  unfold iterEnd
  split <;> simp [*]

@[simp] theorem iterate_view (hx_regs : vw.free .regs) (hx_mem : vw.free .mem) (hx_journal : vw.free .journal) (hx_cores : vw.free .cores) (hx_locks : vw.free .locks) (hx_links : vw.free .links) (hx_guard : vw.free .guard) (hx_hot : vw.free .hot) (hx_fresh : vw.free .fresh) (i : Issue) (x : Isi) (u : RepUnit) (r : Result) (hr : r.okView vw) (s : State) :
    vw.at (iterate i x u r s) = vw.at s := by
  cases r <;> simp only [iterate] <;> repeat' split
  all_goals simp_all

@[simp] theorem issue_view (hx_regs : vw.free .regs) (hx_mem : vw.free .mem) (hx_time : vw.free .time) (hx_journal : vw.free .journal) (hx_clusters : vw.free .clusters) (hx_cores : vw.free .cores) (hx_locks : vw.free .locks) (hx_links : vw.free .links) (hx_guard : vw.free .guard) (hx_hot : vw.free .hot) (hx_fresh : vw.free .fresh) (i : Issue) (x : Isi) (run : Ctx → State → Result) (hr : ∀ c s, (run c s).okView vw) (s : State) :
    NextP (fun t => vw.at t = vw.at s) (issue i x run s) := by
  unfold issue
  simp only [nextP_done]
  repeat' split
  all_goals simp [*, hr]

@[simp] theorem coreRow_view (hx_regs : vw.free .regs) (hx_mem : vw.free .mem) (hx_time : vw.free .time) (hx_journal : vw.free .journal) (hx_clusters : vw.free .clusters) (hx_cores : vw.free .cores) (hx_locks : vw.free .locks) (hx_links : vw.free .links) (hx_guard : vw.free .guard) (hx_hot : vw.free .hot) (hx_fresh : vw.free .fresh) (i : Issue) (x : Isi) (f : Ctx → Ctx) (s : State)  : NextP (fun t => vw.at t = vw.at s) (coreRow i x f s) := by
  simp [coreRow, *]

@[simp] theorem rRow_view (hx_regs : vw.free .regs) (hx_mem : vw.free .mem) (hx_time : vw.free .time) (hx_journal : vw.free .journal) (hx_clusters : vw.free .clusters) (hx_cores : vw.free .cores) (hx_locks : vw.free .locks) (hx_links : vw.free .links) (hx_guard : vw.free .guard) (hx_hot : vw.free .hot) (hx_fresh : vw.free .fresh) (i : Issue) (fn : RFn) (sf : Bool) (rd : Reg) (ra : Reg) (rb : Reg) (f : Bool → Word → Word → Alu) (s : State)  : NextP (fun t => vw.at t = vw.at s) (rRow i fn sf rd ra rb f s) := by
  simp [rRow, *]

@[simp] theorem iRow_view (hx_regs : vw.free .regs) (hx_mem : vw.free .mem) (hx_time : vw.free .time) (hx_journal : vw.free .journal) (hx_clusters : vw.free .clusters) (hx_cores : vw.free .cores) (hx_locks : vw.free .locks) (hx_links : vw.free .links) (hx_guard : vw.free .guard) (hx_hot : vw.free .hot) (hx_fresh : vw.free .fresh) (i : Issue) (fn : IFn) (sf : Bool) (rd : Reg) (ra : Reg) (imm : BitVec 11) (f : Word → Alu) (s : State)  : NextP (fun t => vw.at t = vw.at s) (iRow i fn sf rd ra imm f s) := by
  simp [iRow, *]

@[simp] theorem execAdd_view (hx_regs : vw.free .regs) (hx_mem : vw.free .mem) (hx_time : vw.free .time) (hx_journal : vw.free .journal) (hx_clusters : vw.free .clusters) (hx_cores : vw.free .cores) (hx_locks : vw.free .locks) (hx_links : vw.free .links) (hx_guard : vw.free .guard) (hx_hot : vw.free .hot) (hx_fresh : vw.free .fresh) (i : Issue) (sf : Bool) (rd : Reg) (ra : Reg) (rb : Reg) (s : State)  : NextP (fun t => vw.at t = vw.at s) (execAdd i sf rd ra rb s) := by
  simp [execAdd, *]

@[simp] theorem execAdc_view (hx_regs : vw.free .regs) (hx_mem : vw.free .mem) (hx_time : vw.free .time) (hx_journal : vw.free .journal) (hx_clusters : vw.free .clusters) (hx_cores : vw.free .cores) (hx_locks : vw.free .locks) (hx_links : vw.free .links) (hx_guard : vw.free .guard) (hx_hot : vw.free .hot) (hx_fresh : vw.free .fresh) (i : Issue) (sf : Bool) (rd : Reg) (ra : Reg) (rb : Reg) (s : State)  : NextP (fun t => vw.at t = vw.at s) (execAdc i sf rd ra rb s) := by
  simp [execAdc, *]

@[simp] theorem execSub_view (hx_regs : vw.free .regs) (hx_mem : vw.free .mem) (hx_time : vw.free .time) (hx_journal : vw.free .journal) (hx_clusters : vw.free .clusters) (hx_cores : vw.free .cores) (hx_locks : vw.free .locks) (hx_links : vw.free .links) (hx_guard : vw.free .guard) (hx_hot : vw.free .hot) (hx_fresh : vw.free .fresh) (i : Issue) (sf : Bool) (rd : Reg) (ra : Reg) (rb : Reg) (s : State)  : NextP (fun t => vw.at t = vw.at s) (execSub i sf rd ra rb s) := by
  simp [execSub, *]

@[simp] theorem execSbc_view (hx_regs : vw.free .regs) (hx_mem : vw.free .mem) (hx_time : vw.free .time) (hx_journal : vw.free .journal) (hx_clusters : vw.free .clusters) (hx_cores : vw.free .cores) (hx_locks : vw.free .locks) (hx_links : vw.free .links) (hx_guard : vw.free .guard) (hx_hot : vw.free .hot) (hx_fresh : vw.free .fresh) (i : Issue) (sf : Bool) (rd : Reg) (ra : Reg) (rb : Reg) (s : State)  : NextP (fun t => vw.at t = vw.at s) (execSbc i sf rd ra rb s) := by
  simp [execSbc, *]

@[simp] theorem execAndR_view (hx_regs : vw.free .regs) (hx_mem : vw.free .mem) (hx_time : vw.free .time) (hx_journal : vw.free .journal) (hx_clusters : vw.free .clusters) (hx_cores : vw.free .cores) (hx_locks : vw.free .locks) (hx_links : vw.free .links) (hx_guard : vw.free .guard) (hx_hot : vw.free .hot) (hx_fresh : vw.free .fresh) (i : Issue) (sf : Bool) (rd : Reg) (ra : Reg) (rb : Reg) (s : State)  : NextP (fun t => vw.at t = vw.at s) (execAndR i sf rd ra rb s) := by
  simp [execAndR, *]

@[simp] theorem execOrR_view (hx_regs : vw.free .regs) (hx_mem : vw.free .mem) (hx_time : vw.free .time) (hx_journal : vw.free .journal) (hx_clusters : vw.free .clusters) (hx_cores : vw.free .cores) (hx_locks : vw.free .locks) (hx_links : vw.free .links) (hx_guard : vw.free .guard) (hx_hot : vw.free .hot) (hx_fresh : vw.free .fresh) (i : Issue) (sf : Bool) (rd : Reg) (ra : Reg) (rb : Reg) (s : State)  : NextP (fun t => vw.at t = vw.at s) (execOrR i sf rd ra rb s) := by
  simp [execOrR, *]

@[simp] theorem execXorR_view (hx_regs : vw.free .regs) (hx_mem : vw.free .mem) (hx_time : vw.free .time) (hx_journal : vw.free .journal) (hx_clusters : vw.free .clusters) (hx_cores : vw.free .cores) (hx_locks : vw.free .locks) (hx_links : vw.free .links) (hx_guard : vw.free .guard) (hx_hot : vw.free .hot) (hx_fresh : vw.free .fresh) (i : Issue) (sf : Bool) (rd : Reg) (ra : Reg) (rb : Reg) (s : State)  : NextP (fun t => vw.at t = vw.at s) (execXorR i sf rd ra rb s) := by
  simp [execXorR, *]

@[simp] theorem execAndn_view (hx_regs : vw.free .regs) (hx_mem : vw.free .mem) (hx_time : vw.free .time) (hx_journal : vw.free .journal) (hx_clusters : vw.free .clusters) (hx_cores : vw.free .cores) (hx_locks : vw.free .locks) (hx_links : vw.free .links) (hx_guard : vw.free .guard) (hx_hot : vw.free .hot) (hx_fresh : vw.free .fresh) (i : Issue) (sf : Bool) (rd : Reg) (ra : Reg) (rb : Reg) (s : State)  : NextP (fun t => vw.at t = vw.at s) (execAndn i sf rd ra rb s) := by
  simp [execAndn, *]

@[simp] theorem execLsl_view (hx_regs : vw.free .regs) (hx_mem : vw.free .mem) (hx_time : vw.free .time) (hx_journal : vw.free .journal) (hx_clusters : vw.free .clusters) (hx_cores : vw.free .cores) (hx_locks : vw.free .locks) (hx_links : vw.free .links) (hx_guard : vw.free .guard) (hx_hot : vw.free .hot) (hx_fresh : vw.free .fresh) (i : Issue) (sf : Bool) (rd : Reg) (ra : Reg) (rb : Reg) (s : State)  : NextP (fun t => vw.at t = vw.at s) (execLsl i sf rd ra rb s) := by
  simp [execLsl, *]

@[simp] theorem execLsr_view (hx_regs : vw.free .regs) (hx_mem : vw.free .mem) (hx_time : vw.free .time) (hx_journal : vw.free .journal) (hx_clusters : vw.free .clusters) (hx_cores : vw.free .cores) (hx_locks : vw.free .locks) (hx_links : vw.free .links) (hx_guard : vw.free .guard) (hx_hot : vw.free .hot) (hx_fresh : vw.free .fresh) (i : Issue) (sf : Bool) (rd : Reg) (ra : Reg) (rb : Reg) (s : State)  : NextP (fun t => vw.at t = vw.at s) (execLsr i sf rd ra rb s) := by
  simp [execLsr, *]

@[simp] theorem execAsr_view (hx_regs : vw.free .regs) (hx_mem : vw.free .mem) (hx_time : vw.free .time) (hx_journal : vw.free .journal) (hx_clusters : vw.free .clusters) (hx_cores : vw.free .cores) (hx_locks : vw.free .locks) (hx_links : vw.free .links) (hx_guard : vw.free .guard) (hx_hot : vw.free .hot) (hx_fresh : vw.free .fresh) (i : Issue) (sf : Bool) (rd : Reg) (ra : Reg) (rb : Reg) (s : State)  : NextP (fun t => vw.at t = vw.at s) (execAsr i sf rd ra rb s) := by
  simp [execAsr, *]

@[simp] theorem execRor_view (hx_regs : vw.free .regs) (hx_mem : vw.free .mem) (hx_time : vw.free .time) (hx_journal : vw.free .journal) (hx_clusters : vw.free .clusters) (hx_cores : vw.free .cores) (hx_locks : vw.free .locks) (hx_links : vw.free .links) (hx_guard : vw.free .guard) (hx_hot : vw.free .hot) (hx_fresh : vw.free .fresh) (i : Issue) (sf : Bool) (rd : Reg) (ra : Reg) (rb : Reg) (s : State)  : NextP (fun t => vw.at t = vw.at s) (execRor i sf rd ra rb s) := by
  simp [execRor, *]

@[simp] theorem execMul_view (hx_regs : vw.free .regs) (hx_mem : vw.free .mem) (hx_time : vw.free .time) (hx_journal : vw.free .journal) (hx_clusters : vw.free .clusters) (hx_cores : vw.free .cores) (hx_locks : vw.free .locks) (hx_links : vw.free .links) (hx_guard : vw.free .guard) (hx_hot : vw.free .hot) (hx_fresh : vw.free .fresh) (i : Issue) (sf : Bool) (rd : Reg) (ra : Reg) (rb : Reg) (s : State)  : NextP (fun t => vw.at t = vw.at s) (execMul i sf rd ra rb s) := by
  simp [execMul, *]

@[simp] theorem execMov_view (hx_regs : vw.free .regs) (hx_mem : vw.free .mem) (hx_time : vw.free .time) (hx_journal : vw.free .journal) (hx_clusters : vw.free .clusters) (hx_cores : vw.free .cores) (hx_locks : vw.free .locks) (hx_links : vw.free .links) (hx_guard : vw.free .guard) (hx_hot : vw.free .hot) (hx_fresh : vw.free .fresh) (i : Issue) (sf : Bool) (rd : Reg) (rb : Reg) (s : State)  : NextP (fun t => vw.at t = vw.at s) (execMov i sf rd rb s) := by
  simp [execMov, *]

@[simp] theorem execMvn_view (hx_regs : vw.free .regs) (hx_mem : vw.free .mem) (hx_time : vw.free .time) (hx_journal : vw.free .journal) (hx_clusters : vw.free .clusters) (hx_cores : vw.free .cores) (hx_locks : vw.free .locks) (hx_links : vw.free .links) (hx_guard : vw.free .guard) (hx_hot : vw.free .hot) (hx_fresh : vw.free .fresh) (i : Issue) (sf : Bool) (rd : Reg) (rb : Reg) (s : State)  : NextP (fun t => vw.at t = vw.at s) (execMvn i sf rd rb s) := by
  simp [execMvn, *]

@[simp] theorem execNeg_view (hx_regs : vw.free .regs) (hx_mem : vw.free .mem) (hx_time : vw.free .time) (hx_journal : vw.free .journal) (hx_clusters : vw.free .clusters) (hx_cores : vw.free .cores) (hx_locks : vw.free .locks) (hx_links : vw.free .links) (hx_guard : vw.free .guard) (hx_hot : vw.free .hot) (hx_fresh : vw.free .fresh) (i : Issue) (sf : Bool) (rd : Reg) (rb : Reg) (s : State)  : NextP (fun t => vw.at t = vw.at s) (execNeg i sf rd rb s) := by
  simp [execNeg, *]

@[simp] theorem execCmp_view (hx_regs : vw.free .regs) (hx_mem : vw.free .mem) (hx_time : vw.free .time) (hx_journal : vw.free .journal) (hx_clusters : vw.free .clusters) (hx_cores : vw.free .cores) (hx_locks : vw.free .locks) (hx_links : vw.free .links) (hx_guard : vw.free .guard) (hx_hot : vw.free .hot) (hx_fresh : vw.free .fresh) (i : Issue) (ra : Reg) (rb : Reg) (s : State)  : NextP (fun t => vw.at t = vw.at s) (execCmp i ra rb s) := by
  simp [execCmp, *]

@[simp] theorem execTst_view (hx_regs : vw.free .regs) (hx_mem : vw.free .mem) (hx_time : vw.free .time) (hx_journal : vw.free .journal) (hx_clusters : vw.free .clusters) (hx_cores : vw.free .cores) (hx_locks : vw.free .locks) (hx_links : vw.free .links) (hx_guard : vw.free .guard) (hx_hot : vw.free .hot) (hx_fresh : vw.free .fresh) (i : Issue) (ra : Reg) (rb : Reg) (s : State)  : NextP (fun t => vw.at t = vw.at s) (execTst i ra rb s) := by
  simp [execTst, *]

@[simp] theorem execMull_view (hx_regs : vw.free .regs) (hx_mem : vw.free .mem) (hx_time : vw.free .time) (hx_journal : vw.free .journal) (hx_clusters : vw.free .clusters) (hx_cores : vw.free .cores) (hx_locks : vw.free .locks) (hx_links : vw.free .links) (hx_guard : vw.free .guard) (hx_hot : vw.free .hot) (hx_fresh : vw.free .fresh) (i : Issue) (sf : Bool) (rd : Reg) (ra : Reg) (rb : Reg) (s : State)  : NextP (fun t => vw.at t = vw.at s) (execMull i sf rd ra rb s) := by
  simp [execMull, *]

@[simp] theorem execMullu_view (hx_regs : vw.free .regs) (hx_mem : vw.free .mem) (hx_time : vw.free .time) (hx_journal : vw.free .journal) (hx_clusters : vw.free .clusters) (hx_cores : vw.free .cores) (hx_locks : vw.free .locks) (hx_links : vw.free .links) (hx_guard : vw.free .guard) (hx_hot : vw.free .hot) (hx_fresh : vw.free .fresh) (i : Issue) (sf : Bool) (rd : Reg) (ra : Reg) (rb : Reg) (s : State)  : NextP (fun t => vw.at t = vw.at s) (execMullu i sf rd ra rb s) := by
  simp [execMullu, *]

@[simp] theorem divRow_view (hx_regs : vw.free .regs) (hx_mem : vw.free .mem) (hx_time : vw.free .time) (hx_journal : vw.free .journal) (hx_clusters : vw.free .clusters) (hx_cores : vw.free .cores) (hx_locks : vw.free .locks) (hx_links : vw.free .links) (hx_guard : vw.free .guard) (hx_hot : vw.free .hot) (hx_fresh : vw.free .fresh) (i : Issue) (x : Isi) (rb : Reg) (f : Ctx → Ctx) (s : State)  : NextP (fun t => vw.at t = vw.at s) (divRow i x rb f s) := by
  unfold divRow
  (refine issue_view vw (by assumption) (by assumption) (by assumption) (by assumption) (by assumption) (by assumption) (by assumption) (by assumption) (by assumption) (by assumption) (by assumption) _ _ _ (fun c s => ?_) _; (try dsimp only); (repeat' split); all_goals simp (maxDischargeDepth := 8) [*])

@[simp] theorem execDiv_view (hx_regs : vw.free .regs) (hx_mem : vw.free .mem) (hx_time : vw.free .time) (hx_journal : vw.free .journal) (hx_clusters : vw.free .clusters) (hx_cores : vw.free .cores) (hx_locks : vw.free .locks) (hx_links : vw.free .links) (hx_guard : vw.free .guard) (hx_hot : vw.free .hot) (hx_fresh : vw.free .fresh) (i : Issue) (sf : Bool) (rd : Reg) (ra : Reg) (rb : Reg) (s : State)  : NextP (fun t => vw.at t = vw.at s) (execDiv i sf rd ra rb s) := by
  simp [execDiv, *]

@[simp] theorem execDivu_view (hx_regs : vw.free .regs) (hx_mem : vw.free .mem) (hx_time : vw.free .time) (hx_journal : vw.free .journal) (hx_clusters : vw.free .clusters) (hx_cores : vw.free .cores) (hx_locks : vw.free .locks) (hx_links : vw.free .links) (hx_guard : vw.free .guard) (hx_hot : vw.free .hot) (hx_fresh : vw.free .fresh) (i : Issue) (sf : Bool) (rd : Reg) (ra : Reg) (rb : Reg) (s : State)  : NextP (fun t => vw.at t = vw.at s) (execDivu i sf rd ra rb s) := by
  simp [execDivu, *]

@[simp] theorem execClz_view (hx_regs : vw.free .regs) (hx_mem : vw.free .mem) (hx_time : vw.free .time) (hx_journal : vw.free .journal) (hx_clusters : vw.free .clusters) (hx_cores : vw.free .cores) (hx_locks : vw.free .locks) (hx_links : vw.free .links) (hx_guard : vw.free .guard) (hx_hot : vw.free .hot) (hx_fresh : vw.free .fresh) (i : Issue) (sf : Bool) (rd : Reg) (ra : Reg) (s : State)  : NextP (fun t => vw.at t = vw.at s) (execClz i sf rd ra s) := by
  simp [execClz, *]

@[simp] theorem execRev_view (hx_regs : vw.free .regs) (hx_mem : vw.free .mem) (hx_time : vw.free .time) (hx_journal : vw.free .journal) (hx_clusters : vw.free .clusters) (hx_cores : vw.free .cores) (hx_locks : vw.free .locks) (hx_links : vw.free .links) (hx_guard : vw.free .guard) (hx_hot : vw.free .hot) (hx_fresh : vw.free .fresh) (i : Issue) (sf : Bool) (rd : Reg) (ra : Reg) (s : State)  : NextP (fun t => vw.at t = vw.at s) (execRev i sf rd ra s) := by
  simp [execRev, *]

@[simp] theorem execSxb_view (hx_regs : vw.free .regs) (hx_mem : vw.free .mem) (hx_time : vw.free .time) (hx_journal : vw.free .journal) (hx_clusters : vw.free .clusters) (hx_cores : vw.free .cores) (hx_locks : vw.free .locks) (hx_links : vw.free .links) (hx_guard : vw.free .guard) (hx_hot : vw.free .hot) (hx_fresh : vw.free .fresh) (i : Issue) (sf : Bool) (rd : Reg) (ra : Reg) (s : State)  : NextP (fun t => vw.at t = vw.at s) (execSxb i sf rd ra s) := by
  simp [execSxb, *]

@[simp] theorem execSxh_view (hx_regs : vw.free .regs) (hx_mem : vw.free .mem) (hx_time : vw.free .time) (hx_journal : vw.free .journal) (hx_clusters : vw.free .clusters) (hx_cores : vw.free .cores) (hx_locks : vw.free .locks) (hx_links : vw.free .links) (hx_guard : vw.free .guard) (hx_hot : vw.free .hot) (hx_fresh : vw.free .fresh) (i : Issue) (sf : Bool) (rd : Reg) (ra : Reg) (s : State)  : NextP (fun t => vw.at t = vw.at s) (execSxh i sf rd ra s) := by
  simp [execSxh, *]

@[simp] theorem execAddi_view (hx_regs : vw.free .regs) (hx_mem : vw.free .mem) (hx_time : vw.free .time) (hx_journal : vw.free .journal) (hx_clusters : vw.free .clusters) (hx_cores : vw.free .cores) (hx_locks : vw.free .locks) (hx_links : vw.free .links) (hx_guard : vw.free .guard) (hx_hot : vw.free .hot) (hx_fresh : vw.free .fresh) (i : Issue) (sf : Bool) (rd : Reg) (ra : Reg) (imm : BitVec 11) (s : State)  : NextP (fun t => vw.at t = vw.at s) (execAddi i sf rd ra imm s) := by
  simp [execAddi, *]

@[simp] theorem execSubi_view (hx_regs : vw.free .regs) (hx_mem : vw.free .mem) (hx_time : vw.free .time) (hx_journal : vw.free .journal) (hx_clusters : vw.free .clusters) (hx_cores : vw.free .cores) (hx_locks : vw.free .locks) (hx_links : vw.free .links) (hx_guard : vw.free .guard) (hx_hot : vw.free .hot) (hx_fresh : vw.free .fresh) (i : Issue) (sf : Bool) (rd : Reg) (ra : Reg) (imm : BitVec 11) (s : State)  : NextP (fun t => vw.at t = vw.at s) (execSubi i sf rd ra imm s) := by
  simp [execSubi, *]

@[simp] theorem execAndi_view (hx_regs : vw.free .regs) (hx_mem : vw.free .mem) (hx_time : vw.free .time) (hx_journal : vw.free .journal) (hx_clusters : vw.free .clusters) (hx_cores : vw.free .cores) (hx_locks : vw.free .locks) (hx_links : vw.free .links) (hx_guard : vw.free .guard) (hx_hot : vw.free .hot) (hx_fresh : vw.free .fresh) (i : Issue) (sf : Bool) (rd : Reg) (ra : Reg) (imm : BitVec 11) (s : State)  : NextP (fun t => vw.at t = vw.at s) (execAndi i sf rd ra imm s) := by
  simp [execAndi, *]

@[simp] theorem execOri_view (hx_regs : vw.free .regs) (hx_mem : vw.free .mem) (hx_time : vw.free .time) (hx_journal : vw.free .journal) (hx_clusters : vw.free .clusters) (hx_cores : vw.free .cores) (hx_locks : vw.free .locks) (hx_links : vw.free .links) (hx_guard : vw.free .guard) (hx_hot : vw.free .hot) (hx_fresh : vw.free .fresh) (i : Issue) (sf : Bool) (rd : Reg) (ra : Reg) (imm : BitVec 11) (s : State)  : NextP (fun t => vw.at t = vw.at s) (execOri i sf rd ra imm s) := by
  simp [execOri, *]

@[simp] theorem execXori_view (hx_regs : vw.free .regs) (hx_mem : vw.free .mem) (hx_time : vw.free .time) (hx_journal : vw.free .journal) (hx_clusters : vw.free .clusters) (hx_cores : vw.free .cores) (hx_locks : vw.free .locks) (hx_links : vw.free .links) (hx_guard : vw.free .guard) (hx_hot : vw.free .hot) (hx_fresh : vw.free .fresh) (i : Issue) (sf : Bool) (rd : Reg) (ra : Reg) (imm : BitVec 11) (s : State)  : NextP (fun t => vw.at t = vw.at s) (execXori i sf rd ra imm s) := by
  simp [execXori, *]

@[simp] theorem execLsli_view (hx_regs : vw.free .regs) (hx_mem : vw.free .mem) (hx_time : vw.free .time) (hx_journal : vw.free .journal) (hx_clusters : vw.free .clusters) (hx_cores : vw.free .cores) (hx_locks : vw.free .locks) (hx_links : vw.free .links) (hx_guard : vw.free .guard) (hx_hot : vw.free .hot) (hx_fresh : vw.free .fresh) (i : Issue) (sf : Bool) (rd : Reg) (ra : Reg) (imm : BitVec 11) (s : State)  : NextP (fun t => vw.at t = vw.at s) (execLsli i sf rd ra imm s) := by
  simp [execLsli, *]

@[simp] theorem execLsri_view (hx_regs : vw.free .regs) (hx_mem : vw.free .mem) (hx_time : vw.free .time) (hx_journal : vw.free .journal) (hx_clusters : vw.free .clusters) (hx_cores : vw.free .cores) (hx_locks : vw.free .locks) (hx_links : vw.free .links) (hx_guard : vw.free .guard) (hx_hot : vw.free .hot) (hx_fresh : vw.free .fresh) (i : Issue) (sf : Bool) (rd : Reg) (ra : Reg) (imm : BitVec 11) (s : State)  : NextP (fun t => vw.at t = vw.at s) (execLsri i sf rd ra imm s) := by
  simp [execLsri, *]

@[simp] theorem execAsri_view (hx_regs : vw.free .regs) (hx_mem : vw.free .mem) (hx_time : vw.free .time) (hx_journal : vw.free .journal) (hx_clusters : vw.free .clusters) (hx_cores : vw.free .cores) (hx_locks : vw.free .locks) (hx_links : vw.free .links) (hx_guard : vw.free .guard) (hx_hot : vw.free .hot) (hx_fresh : vw.free .fresh) (i : Issue) (sf : Bool) (rd : Reg) (ra : Reg) (imm : BitVec 11) (s : State)  : NextP (fun t => vw.at t = vw.at s) (execAsri i sf rd ra imm s) := by
  simp [execAsri, *]

@[simp] theorem execRori_view (hx_regs : vw.free .regs) (hx_mem : vw.free .mem) (hx_time : vw.free .time) (hx_journal : vw.free .journal) (hx_clusters : vw.free .clusters) (hx_cores : vw.free .cores) (hx_locks : vw.free .locks) (hx_links : vw.free .links) (hx_guard : vw.free .guard) (hx_hot : vw.free .hot) (hx_fresh : vw.free .fresh) (i : Issue) (sf : Bool) (rd : Reg) (ra : Reg) (imm : BitVec 11) (s : State)  : NextP (fun t => vw.at t = vw.at s) (execRori i sf rd ra imm s) := by
  simp [execRori, *]

@[simp] theorem execCmpi_view (hx_regs : vw.free .regs) (hx_mem : vw.free .mem) (hx_time : vw.free .time) (hx_journal : vw.free .journal) (hx_clusters : vw.free .clusters) (hx_cores : vw.free .cores) (hx_locks : vw.free .locks) (hx_links : vw.free .links) (hx_guard : vw.free .guard) (hx_hot : vw.free .hot) (hx_fresh : vw.free .fresh) (i : Issue) (ra : Reg) (imm : BitVec 11) (s : State)  : NextP (fun t => vw.at t = vw.at s) (execCmpi i ra imm s) := by
  simp [execCmpi, *]

@[simp] theorem execTsti_view (hx_regs : vw.free .regs) (hx_mem : vw.free .mem) (hx_time : vw.free .time) (hx_journal : vw.free .journal) (hx_clusters : vw.free .clusters) (hx_cores : vw.free .cores) (hx_locks : vw.free .locks) (hx_links : vw.free .links) (hx_guard : vw.free .guard) (hx_hot : vw.free .hot) (hx_fresh : vw.free .fresh) (i : Issue) (ra : Reg) (imm : BitVec 11) (s : State)  : NextP (fun t => vw.at t = vw.at s) (execTsti i ra imm s) := by
  simp [execTsti, *]

@[simp] theorem execMovi_view (hx_regs : vw.free .regs) (hx_mem : vw.free .mem) (hx_time : vw.free .time) (hx_journal : vw.free .journal) (hx_clusters : vw.free .clusters) (hx_cores : vw.free .cores) (hx_locks : vw.free .locks) (hx_links : vw.free .links) (hx_guard : vw.free .guard) (hx_hot : vw.free .hot) (hx_fresh : vw.free .fresh) (i : Issue) (rd : Reg) (imm : BitVec 16) (s : State)  : NextP (fun t => vw.at t = vw.at s) (execMovi i rd imm s) := by
  simp [execMovi, *]

@[simp] theorem execMovn_view (hx_regs : vw.free .regs) (hx_mem : vw.free .mem) (hx_time : vw.free .time) (hx_journal : vw.free .journal) (hx_clusters : vw.free .clusters) (hx_cores : vw.free .cores) (hx_locks : vw.free .locks) (hx_links : vw.free .links) (hx_guard : vw.free .guard) (hx_hot : vw.free .hot) (hx_fresh : vw.free .fresh) (i : Issue) (rd : Reg) (imm : BitVec 16) (s : State)  : NextP (fun t => vw.at t = vw.at s) (execMovn i rd imm s) := by
  simp [execMovn, *]

@[simp] theorem execMovhi_view (hx_regs : vw.free .regs) (hx_mem : vw.free .mem) (hx_time : vw.free .time) (hx_journal : vw.free .journal) (hx_clusters : vw.free .clusters) (hx_cores : vw.free .cores) (hx_locks : vw.free .locks) (hx_links : vw.free .links) (hx_guard : vw.free .guard) (hx_hot : vw.free .hot) (hx_fresh : vw.free .fresh) (i : Issue) (rd : Reg) (imm : BitVec 16) (s : State)  : NextP (fun t => vw.at t = vw.at s) (execMovhi i rd imm s) := by
  simp [execMovhi, *]

@[simp] theorem loadFx_view (hx_regs : vw.free .regs) (hx_time : vw.free .time) (hx_cal : vw.free .cal) (hx_pads : vw.free .pads) (hx_fifos : vw.free .fifos) (hx_journal : vw.free .journal) (hx_cores : vw.free .cores) (hx_locks : vw.free .locks) (hx_hot : vw.free .hot) (k : CoreId) (a : Nat) (s : State)  : vw.at (loadFx k a s) = vw.at s := by
  unfold loadFx
  split <;> simp [*]

@[simp] theorem storePart_view (hx_regs : vw.free .regs) (hx_mem : vw.free .mem) (hx_time : vw.free .time) (hx_cal : vw.free .cal) (hx_tenants : vw.free .tenants) (hx_devices : vw.free .devices) (hx_ports : vw.free .ports) (hx_images : vw.free .images) (hx_pads : vw.free .pads) (hx_pgOn : vw.free .pgOn) (hx_fifos : vw.free .fifos) (hx_chans : vw.free .chans) (hx_lgroups : vw.free .lgroups) (hx_journal : vw.free .journal) (hx_clusters : vw.free .clusters) (hx_cores : vw.free .cores) (hx_locks : vw.free .locks) (hx_remote : vw.free .remote) (hx_delayed : vw.free .delayed) (hx_xfers : vw.free .xfers) (hx_xferNext : vw.free .xferNext) (hx_arbs : vw.free .arbs) (hx_links : vw.free .links) (hx_group : vw.free .group) (hx_guard : vw.free .guard) (hx_holds : vw.free .holds) (hx_power : vw.free .power) (hx_host : vw.free .host) (hx_admin : vw.free .admin) (hx_hot : vw.free .hot) (hx_fresh : vw.free .fresh) (k : CoreId) (a : Nat) (d : Word) (p : Nat × Nat) (s : State)  : vw.at (storePart k a d p s) = vw.at s := by
  simp [storePart, *]

@[simp] theorem storeFx_view (hx_regs : vw.free .regs) (hx_mem : vw.free .mem) (hx_time : vw.free .time) (hx_cal : vw.free .cal) (hx_tenants : vw.free .tenants) (hx_devices : vw.free .devices) (hx_ports : vw.free .ports) (hx_images : vw.free .images) (hx_pads : vw.free .pads) (hx_pgOn : vw.free .pgOn) (hx_fifos : vw.free .fifos) (hx_chans : vw.free .chans) (hx_lgroups : vw.free .lgroups) (hx_journal : vw.free .journal) (hx_clusters : vw.free .clusters) (hx_cores : vw.free .cores) (hx_locks : vw.free .locks) (hx_remote : vw.free .remote) (hx_delayed : vw.free .delayed) (hx_xfers : vw.free .xfers) (hx_xferNext : vw.free .xferNext) (hx_arbs : vw.free .arbs) (hx_links : vw.free .links) (hx_group : vw.free .group) (hx_guard : vw.free .guard) (hx_holds : vw.free .holds) (hx_power : vw.free .power) (hx_host : vw.free .host) (hx_admin : vw.free .admin) (hx_hot : vw.free .hot) (hx_fresh : vw.free .fresh) (k : CoreId) (a : Nat) (size : Nat) (d : Word) (s : State)  : vw.at (storeFx k a size d s) = vw.at s := by
  unfold storeFx
  split <;> simp [*]

@[simp] theorem storeRoom_view (hx_regs : vw.free .regs) (hx_mem : vw.free .mem) (hx_time : vw.free .time) (hx_cal : vw.free .cal) (hx_tenants : vw.free .tenants) (hx_devices : vw.free .devices) (hx_ports : vw.free .ports) (hx_images : vw.free .images) (hx_pads : vw.free .pads) (hx_pgOn : vw.free .pgOn) (hx_fifos : vw.free .fifos) (hx_chans : vw.free .chans) (hx_lgroups : vw.free .lgroups) (hx_journal : vw.free .journal) (hx_clusters : vw.free .clusters) (hx_cores : vw.free .cores) (hx_locks : vw.free .locks) (hx_remote : vw.free .remote) (hx_delayed : vw.free .delayed) (hx_xfers : vw.free .xfers) (hx_xferNext : vw.free .xferNext) (hx_arbs : vw.free .arbs) (hx_links : vw.free .links) (hx_group : vw.free .group) (hx_guard : vw.free .guard) (hx_holds : vw.free .holds) (hx_power : vw.free .power) (hx_host : vw.free .host) (hx_admin : vw.free .admin) (hx_hot : vw.free .hot) (hx_fresh : vw.free .fresh) (k : CoreId) (a : Nat) (size : Nat) (s : State)  : vw.at (storeRoom k a size s) = vw.at s := by
  simp [storeRoom, *]

theorem writeEcc_view (hx_regs : vw.free .regs) (hx_mem : vw.free .mem) (hx_time : vw.free .time) (hx_cal : vw.free .cal) (hx_tenants : vw.free .tenants) (hx_devices : vw.free .devices) (hx_ports : vw.free .ports) (hx_images : vw.free .images) (hx_pads : vw.free .pads) (hx_pgOn : vw.free .pgOn) (hx_fifos : vw.free .fifos) (hx_chans : vw.free .chans) (hx_lgroups : vw.free .lgroups) (hx_journal : vw.free .journal) (hx_clusters : vw.free .clusters) (hx_cores : vw.free .cores) (hx_locks : vw.free .locks) (hx_remote : vw.free .remote) (hx_delayed : vw.free .delayed) (hx_xfers : vw.free .xfers) (hx_xferNext : vw.free .xferNext) (hx_arbs : vw.free .arbs) (hx_links : vw.free .links) (hx_group : vw.free .group) (hx_guard : vw.free .guard) (hx_holds : vw.free .holds) (hx_power : vw.free .power) (hx_host : vw.free .host) (hx_admin : vw.free .admin) (hx_hot : vw.free .hot) (hx_fresh : vw.free .fresh) (i : Issue) (s : State) (a size : Nat) (d : Word) : ∀ r, writeEcc i s a size d = some r → r.okView vw := by
  intro r h
  unfold writeEcc at h
  split at h
  · simp only [Option.some.injEq] at h
    subst h
    simp only [okView_trap]
    intro s
    split <;> simp [*]
  · cases h

@[simp] theorem reading_view (hx_fresh : vw.free .fresh) (i : Issue) (s : State) (al : Bool) (a size : Nat) (k : Nat → Result)
    (hk : ∀ n, (k n).okView vw) : (reading i s al a size k).okView vw := by
  unfold reading
  repeat' split
  all_goals simp [*, hk]

@[simp] theorem writing_view (hx_regs : vw.free .regs) (hx_mem : vw.free .mem) (hx_time : vw.free .time) (hx_cal : vw.free .cal) (hx_tenants : vw.free .tenants) (hx_devices : vw.free .devices) (hx_ports : vw.free .ports) (hx_images : vw.free .images) (hx_pads : vw.free .pads) (hx_pgOn : vw.free .pgOn) (hx_fifos : vw.free .fifos) (hx_chans : vw.free .chans) (hx_lgroups : vw.free .lgroups) (hx_journal : vw.free .journal) (hx_clusters : vw.free .clusters) (hx_cores : vw.free .cores) (hx_locks : vw.free .locks) (hx_remote : vw.free .remote) (hx_delayed : vw.free .delayed) (hx_xfers : vw.free .xfers) (hx_xferNext : vw.free .xferNext) (hx_arbs : vw.free .arbs) (hx_links : vw.free .links) (hx_group : vw.free .group) (hx_guard : vw.free .guard) (hx_holds : vw.free .holds) (hx_power : vw.free .power) (hx_host : vw.free .host) (hx_admin : vw.free .admin) (hx_hot : vw.free .hot) (hx_fresh : vw.free .fresh) (i : Issue) (s : State) (a size : Nat) (d : Word) (c : Ctx) (fx : State → State)
    (hf : ∀ s, vw.at (fx s) = vw.at s) : (writing i s a size d c fx).okView vw := by
  unfold writing
  split
  · simp [*]
  · split
    · rename_i g; exact writeEcc_view vw (by assumption) (by assumption) (by assumption) (by assumption) (by assumption) (by assumption) (by assumption) (by assumption) (by assumption) (by assumption) (by assumption) (by assumption) (by assumption) (by assumption) (by assumption) (by assumption) (by assumption) (by assumption) (by assumption) (by assumption) (by assumption) (by assumption) (by assumption) (by assumption) (by assumption) (by assumption) (by assumption) (by assumption) (by assumption) (by assumption) (by assumption) _ _ _ _ _ _ g
    · simp [*, hf]

@[simp] theorem execLd_view (hx_regs : vw.free .regs) (hx_mem : vw.free .mem) (hx_time : vw.free .time) (hx_cal : vw.free .cal) (hx_pads : vw.free .pads) (hx_fifos : vw.free .fifos) (hx_journal : vw.free .journal) (hx_clusters : vw.free .clusters) (hx_cores : vw.free .cores) (hx_locks : vw.free .locks) (hx_links : vw.free .links) (hx_guard : vw.free .guard) (hx_hot : vw.free .hot) (hx_fresh : vw.free .fresh) (i : Issue) (sz : BitVec 2) (sx : Bool) (rd : Reg) (ra : Reg) (off : BitVec 12) (s : State)  : NextP (fun t => vw.at t = vw.at s) (execLd i sz sx rd ra off s) := by
  unfold execLd
  (refine issue_view vw (by assumption) (by assumption) (by assumption) (by assumption) (by assumption) (by assumption) (by assumption) (by assumption) (by assumption) (by assumption) (by assumption) _ _ _ (fun c s => ?_) _; (try dsimp only); (repeat' split); all_goals simp (maxDischargeDepth := 8) [*])

@[simp] theorem execSt_view (hx_regs : vw.free .regs) (hx_mem : vw.free .mem) (hx_time : vw.free .time) (hx_cal : vw.free .cal) (hx_tenants : vw.free .tenants) (hx_devices : vw.free .devices) (hx_ports : vw.free .ports) (hx_images : vw.free .images) (hx_pads : vw.free .pads) (hx_pgOn : vw.free .pgOn) (hx_fifos : vw.free .fifos) (hx_chans : vw.free .chans) (hx_lgroups : vw.free .lgroups) (hx_journal : vw.free .journal) (hx_clusters : vw.free .clusters) (hx_cores : vw.free .cores) (hx_locks : vw.free .locks) (hx_remote : vw.free .remote) (hx_delayed : vw.free .delayed) (hx_xfers : vw.free .xfers) (hx_xferNext : vw.free .xferNext) (hx_arbs : vw.free .arbs) (hx_links : vw.free .links) (hx_group : vw.free .group) (hx_guard : vw.free .guard) (hx_holds : vw.free .holds) (hx_power : vw.free .power) (hx_host : vw.free .host) (hx_admin : vw.free .admin) (hx_hot : vw.free .hot) (hx_fresh : vw.free .fresh) (i : Issue) (sz : BitVec 2) (rd : Reg) (ra : Reg) (off : BitVec 12) (s : State)  : NextP (fun t => vw.at t = vw.at s) (execSt i sz rd ra off s) := by
  simp [execSt, *]

@[simp] theorem cmpRow_view (hx_regs : vw.free .regs) (hx_mem : vw.free .mem) (hx_time : vw.free .time) (hx_cal : vw.free .cal) (hx_pads : vw.free .pads) (hx_fifos : vw.free .fifos) (hx_journal : vw.free .journal) (hx_clusters : vw.free .clusters) (hx_cores : vw.free .cores) (hx_locks : vw.free .locks) (hx_links : vw.free .links) (hx_guard : vw.free .guard) (hx_hot : vw.free .hot) (hx_fresh : vw.free .fresh) (i : Issue) (t : Bool) (ra : Reg) (rb : Reg) (off : BitVec 12) (f : Word → Word → Alu) (s : State)  : NextP (fun t => vw.at t = vw.at s) (cmpRow i t ra rb off f s) := by
  unfold cmpRow
  (refine issue_view vw (by assumption) (by assumption) (by assumption) (by assumption) (by assumption) (by assumption) (by assumption) (by assumption) (by assumption) (by assumption) (by assumption) _ _ _ (fun c s => ?_) _; (try dsimp only); (repeat' split); all_goals simp (maxDischargeDepth := 8) [*])

@[simp] theorem execCmpm_view (hx_regs : vw.free .regs) (hx_mem : vw.free .mem) (hx_time : vw.free .time) (hx_cal : vw.free .cal) (hx_pads : vw.free .pads) (hx_fifos : vw.free .fifos) (hx_journal : vw.free .journal) (hx_clusters : vw.free .clusters) (hx_cores : vw.free .cores) (hx_locks : vw.free .locks) (hx_links : vw.free .links) (hx_guard : vw.free .guard) (hx_hot : vw.free .hot) (hx_fresh : vw.free .fresh) (i : Issue) (ra : Reg) (rb : Reg) (off : BitVec 12) (s : State)  : NextP (fun t => vw.at t = vw.at s) (execCmpm i ra rb off s) := by
  simp [execCmpm, *]

@[simp] theorem execTstm_view (hx_regs : vw.free .regs) (hx_mem : vw.free .mem) (hx_time : vw.free .time) (hx_cal : vw.free .cal) (hx_pads : vw.free .pads) (hx_fifos : vw.free .fifos) (hx_journal : vw.free .journal) (hx_clusters : vw.free .clusters) (hx_cores : vw.free .cores) (hx_locks : vw.free .locks) (hx_links : vw.free .links) (hx_guard : vw.free .guard) (hx_hot : vw.free .hot) (hx_fresh : vw.free .fresh) (i : Issue) (ra : Reg) (rb : Reg) (off : BitVec 12) (s : State)  : NextP (fun t => vw.at t = vw.at s) (execTstm i ra rb off s) := by
  simp [execTstm, *]

@[simp] theorem execBcopy_view (hx_regs : vw.free .regs) (hx_mem : vw.free .mem) (hx_time : vw.free .time) (hx_cal : vw.free .cal) (hx_tenants : vw.free .tenants) (hx_devices : vw.free .devices) (hx_ports : vw.free .ports) (hx_images : vw.free .images) (hx_pads : vw.free .pads) (hx_pgOn : vw.free .pgOn) (hx_fifos : vw.free .fifos) (hx_chans : vw.free .chans) (hx_lgroups : vw.free .lgroups) (hx_journal : vw.free .journal) (hx_clusters : vw.free .clusters) (hx_cores : vw.free .cores) (hx_locks : vw.free .locks) (hx_remote : vw.free .remote) (hx_delayed : vw.free .delayed) (hx_xfers : vw.free .xfers) (hx_xferNext : vw.free .xferNext) (hx_arbs : vw.free .arbs) (hx_links : vw.free .links) (hx_group : vw.free .group) (hx_guard : vw.free .guard) (hx_holds : vw.free .holds) (hx_power : vw.free .power) (hx_host : vw.free .host) (hx_admin : vw.free .admin) (hx_hot : vw.free .hot) (hx_fresh : vw.free .fresh) (i : Issue) (sz : BitVec 2) (rd : Reg) (ra : Reg) (s : State)  : NextP (fun t => vw.at t = vw.at s) (execBcopy i sz rd ra s) := by
  unfold execBcopy
  (refine issue_view vw (by assumption) (by assumption) (by assumption) (by assumption) (by assumption) (by assumption) (by assumption) (by assumption) (by assumption) (by assumption) (by assumption) _ _ _ (fun c s => ?_) _; (try dsimp only); (repeat' split); all_goals simp (maxDischargeDepth := 8) [*])

@[simp] theorem execBfill_view (hx_regs : vw.free .regs) (hx_mem : vw.free .mem) (hx_time : vw.free .time) (hx_cal : vw.free .cal) (hx_tenants : vw.free .tenants) (hx_devices : vw.free .devices) (hx_ports : vw.free .ports) (hx_images : vw.free .images) (hx_pads : vw.free .pads) (hx_pgOn : vw.free .pgOn) (hx_fifos : vw.free .fifos) (hx_chans : vw.free .chans) (hx_lgroups : vw.free .lgroups) (hx_journal : vw.free .journal) (hx_clusters : vw.free .clusters) (hx_cores : vw.free .cores) (hx_locks : vw.free .locks) (hx_remote : vw.free .remote) (hx_delayed : vw.free .delayed) (hx_xfers : vw.free .xfers) (hx_xferNext : vw.free .xferNext) (hx_arbs : vw.free .arbs) (hx_links : vw.free .links) (hx_group : vw.free .group) (hx_guard : vw.free .guard) (hx_holds : vw.free .holds) (hx_power : vw.free .power) (hx_host : vw.free .host) (hx_admin : vw.free .admin) (hx_hot : vw.free .hot) (hx_fresh : vw.free .fresh) (i : Issue) (sz : BitVec 2) (rd : Reg) (rb : Reg) (s : State)  : NextP (fun t => vw.at t = vw.at s) (execBfill i sz rd rb s) := by
  simp [execBfill, *]

@[simp] theorem execCrcb_view (hx_regs : vw.free .regs) (hx_mem : vw.free .mem) (hx_time : vw.free .time) (hx_cal : vw.free .cal) (hx_pads : vw.free .pads) (hx_fifos : vw.free .fifos) (hx_journal : vw.free .journal) (hx_clusters : vw.free .clusters) (hx_cores : vw.free .cores) (hx_locks : vw.free .locks) (hx_links : vw.free .links) (hx_guard : vw.free .guard) (hx_hot : vw.free .hot) (hx_fresh : vw.free .fresh) (i : Issue) (k : BitVec 4) (rd : Reg) (ra : Reg) (s : State)  : NextP (fun t => vw.at t = vw.at s) (execCrcb i k rd ra s) := by
  unfold execCrcb
  (refine issue_view vw (by assumption) (by assumption) (by assumption) (by assumption) (by assumption) (by assumption) (by assumption) (by assumption) (by assumption) (by assumption) (by assumption) _ _ _ (fun c s => ?_) _; (try dsimp only); (repeat' split); all_goals simp (maxDischargeDepth := 8) [*])

@[simp] theorem execTstep_view (hx_regs : vw.free .regs) (hx_mem : vw.free .mem) (hx_time : vw.free .time) (hx_cal : vw.free .cal) (hx_pads : vw.free .pads) (hx_fifos : vw.free .fifos) (hx_journal : vw.free .journal) (hx_clusters : vw.free .clusters) (hx_cores : vw.free .cores) (hx_locks : vw.free .locks) (hx_links : vw.free .links) (hx_guard : vw.free .guard) (hx_hot : vw.free .hot) (hx_fresh : vw.free .fresh) (i : Issue) (rd : Reg) (ra : Reg) (rb : Reg) (s : State)  : NextP (fun t => vw.at t = vw.at s) (execTstep i rd ra rb s) := by
  unfold execTstep
  (refine issue_view vw (by assumption) (by assumption) (by assumption) (by assumption) (by assumption) (by assumption) (by assumption) (by assumption) (by assumption) (by assumption) (by assumption) _ _ _ (fun c s => ?_) _; (try dsimp only); (repeat' split); all_goals simp (maxDischargeDepth := 8) [*])

@[simp] theorem execB_view (hx_regs : vw.free .regs) (hx_mem : vw.free .mem) (hx_time : vw.free .time) (hx_journal : vw.free .journal) (hx_clusters : vw.free .clusters) (hx_cores : vw.free .cores) (hx_locks : vw.free .locks) (hx_links : vw.free .links) (hx_guard : vw.free .guard) (hx_hot : vw.free .hot) (hx_fresh : vw.free .fresh) (i : Issue) (off : BitVec 24) (s : State)  : NextP (fun t => vw.at t = vw.at s) (execB i off s) := by
  simp [execB, *]

@[simp] theorem execBl_view (hx_regs : vw.free .regs) (hx_mem : vw.free .mem) (hx_time : vw.free .time) (hx_journal : vw.free .journal) (hx_clusters : vw.free .clusters) (hx_cores : vw.free .cores) (hx_locks : vw.free .locks) (hx_links : vw.free .links) (hx_guard : vw.free .guard) (hx_hot : vw.free .hot) (hx_fresh : vw.free .fresh) (i : Issue) (off : BitVec 24) (s : State)  : NextP (fun t => vw.at t = vw.at s) (execBl i off s) := by
  simp [execBl, *]

@[simp] theorem jumpTo_view (t : Word) (c : Ctx) : (jumpTo t c).okView vw := by
  unfold jumpTo
  split <;> simp [*]

@[simp] theorem execJr_view (hx_regs : vw.free .regs) (hx_mem : vw.free .mem) (hx_time : vw.free .time) (hx_journal : vw.free .journal) (hx_clusters : vw.free .clusters) (hx_cores : vw.free .cores) (hx_locks : vw.free .locks) (hx_links : vw.free .links) (hx_guard : vw.free .guard) (hx_hot : vw.free .hot) (hx_fresh : vw.free .fresh) (i : Issue) (ra : Reg) (s : State)  : NextP (fun t => vw.at t = vw.at s) (execJr i ra s) := by
  simp [execJr, *]

@[simp] theorem execJlr_view (hx_regs : vw.free .regs) (hx_mem : vw.free .mem) (hx_time : vw.free .time) (hx_journal : vw.free .journal) (hx_clusters : vw.free .clusters) (hx_cores : vw.free .cores) (hx_locks : vw.free .locks) (hx_links : vw.free .links) (hx_guard : vw.free .guard) (hx_hot : vw.free .hot) (hx_fresh : vw.free .fresh) (i : Issue) (rd : Reg) (ra : Reg) (s : State)  : NextP (fun t => vw.at t = vw.at s) (execJlr i rd ra s) := by
  simp [execJlr, *]

@[simp] theorem execNop_view (hx_regs : vw.free .regs) (hx_mem : vw.free .mem) (hx_time : vw.free .time) (hx_journal : vw.free .journal) (hx_clusters : vw.free .clusters) (hx_cores : vw.free .cores) (hx_locks : vw.free .locks) (hx_links : vw.free .links) (hx_guard : vw.free .guard) (hx_hot : vw.free .hot) (hx_fresh : vw.free .fresh) (i : Issue) (bits : BitVec 28) (s : State)  : NextP (fun t => vw.at t = vw.at s) (execNop i bits s) := by
  simp only [execNop]
  repeat' split
  all_goals simp [*]

@[simp] theorem execMfs_view (hx_regs : vw.free .regs) (hx_mem : vw.free .mem) (hx_time : vw.free .time) (hx_journal : vw.free .journal) (hx_clusters : vw.free .clusters) (hx_cores : vw.free .cores) (hx_locks : vw.free .locks) (hx_links : vw.free .links) (hx_guard : vw.free .guard) (hx_hot : vw.free .hot) (hx_fresh : vw.free .fresh) (i : Issue) (rd : Reg) (spr : BitVec 4) (s : State)  : NextP (fun t => vw.at t = vw.at s) (execMfs i rd spr s) := by
  unfold execMfs
  (refine issue_view vw (by assumption) (by assumption) (by assumption) (by assumption) (by assumption) (by assumption) (by assumption) (by assumption) (by assumption) (by assumption) (by assumption) _ _ _ (fun c s => ?_) _; (try dsimp only); (repeat' split); all_goals simp (maxDischargeDepth := 8) [*])

@[simp] theorem execMts_view (hx_regs : vw.free .regs) (hx_mem : vw.free .mem) (hx_time : vw.free .time) (hx_journal : vw.free .journal) (hx_clusters : vw.free .clusters) (hx_cores : vw.free .cores) (hx_locks : vw.free .locks) (hx_links : vw.free .links) (hx_guard : vw.free .guard) (hx_hot : vw.free .hot) (hx_fresh : vw.free .fresh) (i : Issue) (spr : BitVec 4) (ra : Reg) (s : State)  : NextP (fun t => vw.at t = vw.at s) (execMts i spr ra s) := by
  unfold execMts
  (refine issue_view vw (by assumption) (by assumption) (by assumption) (by assumption) (by assumption) (by assumption) (by assumption) (by assumption) (by assumption) (by assumption) (by assumption) _ _ _ (fun c s => ?_) _; (try dsimp only); (repeat' split); all_goals simp (maxDischargeDepth := 8) [*])

@[simp] theorem execRete_view (hx_regs : vw.free .regs) (hx_mem : vw.free .mem) (hx_time : vw.free .time) (hx_journal : vw.free .journal) (hx_clusters : vw.free .clusters) (hx_cores : vw.free .cores) (hx_locks : vw.free .locks) (hx_links : vw.free .links) (hx_guard : vw.free .guard) (hx_hot : vw.free .hot) (hx_fresh : vw.free .fresh) (i : Issue) (s : State) : NextP (fun t => vw.at t = vw.at s) (execRete i s) := by
  unfold execRete
  refine issue_view vw (by assumption) (by assumption) (by assumption) (by assumption) (by assumption) (by assumption) (by assumption) (by assumption) (by assumption) (by assumption) (by assumption) _ _ _ (fun c s => ?_) _
  split <;> simp [Result.okView]

@[simp] theorem flushLine_view (hx_clusters : vw.free .clusters) (hx_cores : vw.free .cores) (k : CoreId) (a : Word) (s : State)  : vw.at (flushLine k a s) = vw.at s := by
  simp only [flushLine]
  repeat' split
  all_goals simp [*]

@[simp] theorem execFli_view (hx_regs : vw.free .regs) (hx_mem : vw.free .mem) (hx_time : vw.free .time) (hx_journal : vw.free .journal) (hx_clusters : vw.free .clusters) (hx_cores : vw.free .cores) (hx_locks : vw.free .locks) (hx_links : vw.free .links) (hx_guard : vw.free .guard) (hx_hot : vw.free .hot) (hx_fresh : vw.free .fresh) (i : Issue) (ra : Reg) (s : State)  : NextP (fun t => vw.at t = vw.at s) (execFli i ra s) := by
  simp [execFli, *]

@[simp] theorem execFence_view (hx_regs : vw.free .regs) (hx_mem : vw.free .mem) (hx_time : vw.free .time) (hx_journal : vw.free .journal) (hx_clusters : vw.free .clusters) (hx_cores : vw.free .cores) (hx_locks : vw.free .locks) (hx_links : vw.free .links) (hx_guard : vw.free .guard) (hx_hot : vw.free .hot) (hx_fresh : vw.free .fresh) (i : Issue) (s : State)  : NextP (fun t => vw.at t = vw.at s) (execFence i s) := by
  unfold execFence
  (refine issue_view vw (by assumption) (by assumption) (by assumption) (by assumption) (by assumption) (by assumption) (by assumption) (by assumption) (by assumption) (by assumption) (by assumption) _ _ _ (fun c s => ?_) _; (try dsimp only); (repeat' split); all_goals simp (maxDischargeDepth := 8) [*])

@[simp] theorem execWait_view (hx_regs : vw.free .regs) (hx_mem : vw.free .mem) (hx_time : vw.free .time) (hx_journal : vw.free .journal) (hx_clusters : vw.free .clusters) (hx_cores : vw.free .cores) (hx_locks : vw.free .locks) (hx_links : vw.free .links) (hx_guard : vw.free .guard) (hx_hot : vw.free .hot) (hx_fresh : vw.free .fresh) (i : Issue) (s : State)  : NextP (fun t => vw.at t = vw.at s) (execWait i s) := by
  unfold execWait
  (refine issue_view vw (by assumption) (by assumption) (by assumption) (by assumption) (by assumption) (by assumption) (by assumption) (by assumption) (by assumption) (by assumption) (by assumption) _ _ _ (fun c s => ?_) _; (try dsimp only); (repeat' split); all_goals simp (maxDischargeDepth := 8) [*])

@[simp] theorem execSvc_view (hx_regs : vw.free .regs) (hx_mem : vw.free .mem) (hx_time : vw.free .time) (hx_journal : vw.free .journal) (hx_clusters : vw.free .clusters) (hx_cores : vw.free .cores) (hx_locks : vw.free .locks) (hx_links : vw.free .links) (hx_guard : vw.free .guard) (hx_hot : vw.free .hot) (hx_fresh : vw.free .fresh) (i : Issue) (imm : BitVec 8) (s : State)  : NextP (fun t => vw.at t = vw.at s) (execSvc i imm s) := by
  simp [execSvc, *]

@[simp] theorem repBegin_view (hx_regs : vw.free .regs) (hx_clusters : vw.free .clusters) (hx_cores : vw.free .cores) (i : Issue) (l : Bool) (rc : Reg) (next : Word) (s : State)  : vw.at (repBegin i l rc next s) = vw.at s := by
  simp only [repBegin]
  repeat' split
  all_goals simp [*]

@[simp] theorem repRow_view (hx_regs : vw.free .regs) (hx_mem : vw.free .mem) (hx_time : vw.free .time) (hx_journal : vw.free .journal) (hx_clusters : vw.free .clusters) (hx_cores : vw.free .cores) (hx_locks : vw.free .locks) (hx_links : vw.free .links) (hx_guard : vw.free .guard) (hx_hot : vw.free .hot) (hx_fresh : vw.free .fresh) (i : Issue) (l : Bool) (rc : Reg) (next : Word) (s : State)  : NextP (fun t => vw.at t = vw.at s) (repRow i l rc next s) := by
  simp only [repRow]
  repeat' split
  all_goals simp [*]

@[simp] theorem execRep_view (hx_regs : vw.free .regs) (hx_mem : vw.free .mem) (hx_time : vw.free .time) (hx_journal : vw.free .journal) (hx_clusters : vw.free .clusters) (hx_cores : vw.free .cores) (hx_locks : vw.free .locks) (hx_links : vw.free .links) (hx_guard : vw.free .guard) (hx_hot : vw.free .hot) (hx_fresh : vw.free .fresh) (i : Issue) (rc : Reg) (next : Word) (s : State)  : NextP (fun t => vw.at t = vw.at s) (execRep i rc next s) := by
  simp [execRep, *]

@[simp] theorem execRepl_view (hx_regs : vw.free .regs) (hx_mem : vw.free .mem) (hx_time : vw.free .time) (hx_journal : vw.free .journal) (hx_clusters : vw.free .clusters) (hx_cores : vw.free .cores) (hx_locks : vw.free .locks) (hx_links : vw.free .links) (hx_guard : vw.free .guard) (hx_hot : vw.free .hot) (hx_fresh : vw.free .fresh) (i : Issue) (rc : Reg) (next : Word) (s : State)  : NextP (fun t => vw.at t = vw.at s) (execRepl i rc next s) := by
  simp [execRepl, *]

@[simp] theorem execLoop_view (hx_regs : vw.free .regs) (hx_mem : vw.free .mem) (hx_time : vw.free .time) (hx_journal : vw.free .journal) (hx_clusters : vw.free .clusters) (hx_cores : vw.free .cores) (hx_locks : vw.free .locks) (hx_links : vw.free .links) (hx_guard : vw.free .guard) (hx_hot : vw.free .hot) (hx_fresh : vw.free .fresh) (i : Issue) (rc : Reg) (off : BitVec 12) (s : State) : NextP (fun t => vw.at t = vw.at s) (execLoop i rc off s) := by
  unfold execLoop
  refine issue_view vw (by assumption) (by assumption) (by assumption) (by assumption) (by assumption) (by assumption) (by assumption) (by assumption) (by assumption) (by assumption) (by assumption) _ _ _ (fun c s => ?_) _
  dsimp only
  split <;> simp [Result.okView]

@[simp] theorem intEntry_view (hx_regs : vw.free .regs) (hx_cores : vw.free .cores) (k : CoreId) (s : State)  : vw.at (intEntry k s) = vw.at s := by
  unfold intEntry
  split <;> simp [*]

@[simp] theorem threadRecog_view (hx_time : vw.free .time) (hx_cores : vw.free .cores) (k : CoreId) (src : Nat) (s : State)  : vw.at (threadRecog k src s) = vw.at s := by
  unfold threadRecog
  repeat' split
  all_goals simp [*]

@[simp] theorem deliver_view (hx_regs : vw.free .regs) (hx_mem : vw.free .mem) (hx_time : vw.free .time) (hx_journal : vw.free .journal) (hx_clusters : vw.free .clusters) (hx_cores : vw.free .cores) (hx_locks : vw.free .locks) (hx_links : vw.free .links) (hx_guard : vw.free .guard) (hx_holds : vw.free .holds) (hx_hot : vw.free .hot) (hx_fresh : vw.free .fresh) (k : CoreId) (lv : Nat) (src : Nat) (vecEcc : Bool) (s : State)  : vw.at (deliver k lv src vecEcc s) = vw.at s := by
  unfold deliver
  repeat' split
  all_goals simp [*]

@[simp] theorem execInterruptDelivery_view (hx_regs : vw.free .regs) (hx_mem : vw.free .mem) (hx_time : vw.free .time) (hx_journal : vw.free .journal) (hx_clusters : vw.free .clusters) (hx_cores : vw.free .cores) (hx_locks : vw.free .locks) (hx_links : vw.free .links) (hx_guard : vw.free .guard) (hx_holds : vw.free .holds) (hx_hot : vw.free .hot) (hx_fresh : vw.free .fresh) (k : CoreId) (agree : Bool) (vecEcc : Bool) (s : State)  : NextP (fun t => vw.at t = vw.at s) (execInterruptDelivery k agree vecEcc s) := by
  simp only [execInterruptDelivery]
  repeat' split
  all_goals simp [*]

@[simp] theorem execWaitWake_view (hx_regs : vw.free .regs) (hx_mem : vw.free .mem) (hx_time : vw.free .time) (hx_journal : vw.free .journal) (hx_clusters : vw.free .clusters) (hx_cores : vw.free .cores) (hx_locks : vw.free .locks) (hx_links : vw.free .links) (hx_guard : vw.free .guard) (hx_holds : vw.free .holds) (hx_hot : vw.free .hot) (hx_fresh : vw.free .fresh) (k : CoreId) (s : State)  : NextP (fun t => vw.at t = vw.at s) (execWaitWake k s) := by
  simp only [execWaitWake]
  repeat' split
  all_goals simp [*]

@[simp] theorem execLineFill_view (hx_regs : vw.free .regs) (hx_clusters : vw.free .clusters) (k : CoreId) (a : Word) (wrongPath : Bool) (s : State)  : NextP (fun t => vw.at t = vw.at s) (execLineFill k a wrongPath s) := by
  simp only [execLineFill]
  repeat' split
  all_goals simp [*]

theorem nth0 (p0 : Part) (l : List Part) : p0 ∈ p0 :: l := .head _
theorem nth1 (p0 p1 : Part) (l : List Part) : p1 ∈ p0 :: p1 :: l := .tail _ (nth0 ..)
theorem nth2 (p0 p1 p2 : Part) (l : List Part) : p2 ∈ p0 :: p1 :: p2 :: l := .tail _ (nth1 ..)
theorem nth3 (p0 p1 p2 p3 : Part) (l : List Part) : p3 ∈ p0 :: p1 :: p2 :: p3 :: l := .tail _ (nth2 ..)
theorem nth4 (p0 p1 p2 p3 p4 : Part) (l : List Part) : p4 ∈ p0 :: p1 :: p2 :: p3 :: p4 :: l := .tail _ (nth3 ..)
theorem nth5 (p0 p1 p2 p3 p4 p5 : Part) (l : List Part) : p5 ∈ p0 :: p1 :: p2 :: p3 :: p4 :: p5 :: l := .tail _ (nth4 ..)
theorem nth6 (p0 p1 p2 p3 p4 p5 p6 : Part) (l : List Part) : p6 ∈ p0 :: p1 :: p2 :: p3 :: p4 :: p5 :: p6 :: l := .tail _ (nth5 ..)
theorem nth7 (p0 p1 p2 p3 p4 p5 p6 p7 : Part) (l : List Part) : p7 ∈ p0 :: p1 :: p2 :: p3 :: p4 :: p5 :: p6 :: p7 :: l := .tail _ (nth6 ..)
theorem nth8 (p0 p1 p2 p3 p4 p5 p6 p7 p8 : Part) (l : List Part) : p8 ∈ p0 :: p1 :: p2 :: p3 :: p4 :: p5 :: p6 :: p7 :: p8 :: l := .tail _ (nth7 ..)
theorem nth9 (p0 p1 p2 p3 p4 p5 p6 p7 p8 p9 : Part) (l : List Part) : p9 ∈ p0 :: p1 :: p2 :: p3 :: p4 :: p5 :: p6 :: p7 :: p8 :: p9 :: l := .tail _ (nth8 ..)
theorem nth10 (p0 p1 p2 p3 p4 p5 p6 p7 p8 p9 p10 : Part) (l : List Part) : p10 ∈ p0 :: p1 :: p2 :: p3 :: p4 :: p5 :: p6 :: p7 :: p8 :: p9 :: p10 :: l := .tail _ (nth9 ..)
theorem nth11 (p0 p1 p2 p3 p4 p5 p6 p7 p8 p9 p10 p11 : Part) (l : List Part) : p11 ∈ p0 :: p1 :: p2 :: p3 :: p4 :: p5 :: p6 :: p7 :: p8 :: p9 :: p10 :: p11 :: l := .tail _ (nth10 ..)
theorem nth12 (p0 p1 p2 p3 p4 p5 p6 p7 p8 p9 p10 p11 p12 : Part) (l : List Part) : p12 ∈ p0 :: p1 :: p2 :: p3 :: p4 :: p5 :: p6 :: p7 :: p8 :: p9 :: p10 :: p11 :: p12 :: l := .tail _ (nth11 ..)
theorem nth13 (p0 p1 p2 p3 p4 p5 p6 p7 p8 p9 p10 p11 p12 p13 : Part) (l : List Part) : p13 ∈ p0 :: p1 :: p2 :: p3 :: p4 :: p5 :: p6 :: p7 :: p8 :: p9 :: p10 :: p11 :: p12 :: p13 :: l := .tail _ (nth12 ..)
theorem nth14 (p0 p1 p2 p3 p4 p5 p6 p7 p8 p9 p10 p11 p12 p13 p14 : Part) (l : List Part) : p14 ∈ p0 :: p1 :: p2 :: p3 :: p4 :: p5 :: p6 :: p7 :: p8 :: p9 :: p10 :: p11 :: p12 :: p13 :: p14 :: l := .tail _ (nth13 ..)
theorem nth15 (p0 p1 p2 p3 p4 p5 p6 p7 p8 p9 p10 p11 p12 p13 p14 p15 : Part) (l : List Part) : p15 ∈ p0 :: p1 :: p2 :: p3 :: p4 :: p5 :: p6 :: p7 :: p8 :: p9 :: p10 :: p11 :: p12 :: p13 :: p14 :: p15 :: l := .tail _ (nth14 ..)
theorem nth16 (p0 p1 p2 p3 p4 p5 p6 p7 p8 p9 p10 p11 p12 p13 p14 p15 p16 : Part) (l : List Part) : p16 ∈ p0 :: p1 :: p2 :: p3 :: p4 :: p5 :: p6 :: p7 :: p8 :: p9 :: p10 :: p11 :: p12 :: p13 :: p14 :: p15 :: p16 :: l := .tail _ (nth15 ..)
theorem nth17 (p0 p1 p2 p3 p4 p5 p6 p7 p8 p9 p10 p11 p12 p13 p14 p15 p16 p17 : Part) (l : List Part) : p17 ∈ p0 :: p1 :: p2 :: p3 :: p4 :: p5 :: p6 :: p7 :: p8 :: p9 :: p10 :: p11 :: p12 :: p13 :: p14 :: p15 :: p16 :: p17 :: l := .tail _ (nth16 ..)
theorem nth18 (p0 p1 p2 p3 p4 p5 p6 p7 p8 p9 p10 p11 p12 p13 p14 p15 p16 p17 p18 : Part) (l : List Part) : p18 ∈ p0 :: p1 :: p2 :: p3 :: p4 :: p5 :: p6 :: p7 :: p8 :: p9 :: p10 :: p11 :: p12 :: p13 :: p14 :: p15 :: p16 :: p17 :: p18 :: l := .tail _ (nth17 ..)
theorem nth19 (p0 p1 p2 p3 p4 p5 p6 p7 p8 p9 p10 p11 p12 p13 p14 p15 p16 p17 p18 p19 : Part) (l : List Part) : p19 ∈ p0 :: p1 :: p2 :: p3 :: p4 :: p5 :: p6 :: p7 :: p8 :: p9 :: p10 :: p11 :: p12 :: p13 :: p14 :: p15 :: p16 :: p17 :: p18 :: p19 :: l := .tail _ (nth18 ..)
theorem nth20 (p0 p1 p2 p3 p4 p5 p6 p7 p8 p9 p10 p11 p12 p13 p14 p15 p16 p17 p18 p19 p20 : Part) (l : List Part) : p20 ∈ p0 :: p1 :: p2 :: p3 :: p4 :: p5 :: p6 :: p7 :: p8 :: p9 :: p10 :: p11 :: p12 :: p13 :: p14 :: p15 :: p16 :: p17 :: p18 :: p19 :: p20 :: l := .tail _ (nth19 ..)
theorem nth21 (p0 p1 p2 p3 p4 p5 p6 p7 p8 p9 p10 p11 p12 p13 p14 p15 p16 p17 p18 p19 p20 p21 : Part) (l : List Part) : p21 ∈ p0 :: p1 :: p2 :: p3 :: p4 :: p5 :: p6 :: p7 :: p8 :: p9 :: p10 :: p11 :: p12 :: p13 :: p14 :: p15 :: p16 :: p17 :: p18 :: p19 :: p20 :: p21 :: l := .tail _ (nth20 ..)
theorem nth22 (p0 p1 p2 p3 p4 p5 p6 p7 p8 p9 p10 p11 p12 p13 p14 p15 p16 p17 p18 p19 p20 p21 p22 : Part) (l : List Part) : p22 ∈ p0 :: p1 :: p2 :: p3 :: p4 :: p5 :: p6 :: p7 :: p8 :: p9 :: p10 :: p11 :: p12 :: p13 :: p14 :: p15 :: p16 :: p17 :: p18 :: p19 :: p20 :: p21 :: p22 :: l := .tail _ (nth21 ..)
theorem nth23 (p0 p1 p2 p3 p4 p5 p6 p7 p8 p9 p10 p11 p12 p13 p14 p15 p16 p17 p18 p19 p20 p21 p22 p23 : Part) (l : List Part) : p23 ∈ p0 :: p1 :: p2 :: p3 :: p4 :: p5 :: p6 :: p7 :: p8 :: p9 :: p10 :: p11 :: p12 :: p13 :: p14 :: p15 :: p16 :: p17 :: p18 :: p19 :: p20 :: p21 :: p22 :: p23 :: l := .tail _ (nth22 ..)
theorem nth24 (p0 p1 p2 p3 p4 p5 p6 p7 p8 p9 p10 p11 p12 p13 p14 p15 p16 p17 p18 p19 p20 p21 p22 p23 p24 : Part) (l : List Part) : p24 ∈ p0 :: p1 :: p2 :: p3 :: p4 :: p5 :: p6 :: p7 :: p8 :: p9 :: p10 :: p11 :: p12 :: p13 :: p14 :: p15 :: p16 :: p17 :: p18 :: p19 :: p20 :: p21 :: p22 :: p23 :: p24 :: l := .tail _ (nth23 ..)
theorem nth25 (p0 p1 p2 p3 p4 p5 p6 p7 p8 p9 p10 p11 p12 p13 p14 p15 p16 p17 p18 p19 p20 p21 p22 p23 p24 p25 : Part) (l : List Part) : p25 ∈ p0 :: p1 :: p2 :: p3 :: p4 :: p5 :: p6 :: p7 :: p8 :: p9 :: p10 :: p11 :: p12 :: p13 :: p14 :: p15 :: p16 :: p17 :: p18 :: p19 :: p20 :: p21 :: p22 :: p23 :: p24 :: p25 :: l := .tail _ (nth24 ..)
theorem nth26 (p0 p1 p2 p3 p4 p5 p6 p7 p8 p9 p10 p11 p12 p13 p14 p15 p16 p17 p18 p19 p20 p21 p22 p23 p24 p25 p26 : Part) (l : List Part) : p26 ∈ p0 :: p1 :: p2 :: p3 :: p4 :: p5 :: p6 :: p7 :: p8 :: p9 :: p10 :: p11 :: p12 :: p13 :: p14 :: p15 :: p16 :: p17 :: p18 :: p19 :: p20 :: p21 :: p22 :: p23 :: p24 :: p25 :: p26 :: l := .tail _ (nth25 ..)
theorem nth27 (p0 p1 p2 p3 p4 p5 p6 p7 p8 p9 p10 p11 p12 p13 p14 p15 p16 p17 p18 p19 p20 p21 p22 p23 p24 p25 p26 p27 : Part) (l : List Part) : p27 ∈ p0 :: p1 :: p2 :: p3 :: p4 :: p5 :: p6 :: p7 :: p8 :: p9 :: p10 :: p11 :: p12 :: p13 :: p14 :: p15 :: p16 :: p17 :: p18 :: p19 :: p20 :: p21 :: p22 :: p23 :: p24 :: p25 :: p26 :: p27 :: l := .tail _ (nth26 ..)
theorem nth28 (p0 p1 p2 p3 p4 p5 p6 p7 p8 p9 p10 p11 p12 p13 p14 p15 p16 p17 p18 p19 p20 p21 p22 p23 p24 p25 p26 p27 p28 : Part) (l : List Part) : p28 ∈ p0 :: p1 :: p2 :: p3 :: p4 :: p5 :: p6 :: p7 :: p8 :: p9 :: p10 :: p11 :: p12 :: p13 :: p14 :: p15 :: p16 :: p17 :: p18 :: p19 :: p20 :: p21 :: p22 :: p23 :: p24 :: p25 :: p26 :: p27 :: p28 :: l := .tail _ (nth27 ..)
theorem nth29 (p0 p1 p2 p3 p4 p5 p6 p7 p8 p9 p10 p11 p12 p13 p14 p15 p16 p17 p18 p19 p20 p21 p22 p23 p24 p25 p26 p27 p28 p29 : Part) (l : List Part) : p29 ∈ p0 :: p1 :: p2 :: p3 :: p4 :: p5 :: p6 :: p7 :: p8 :: p9 :: p10 :: p11 :: p12 :: p13 :: p14 :: p15 :: p16 :: p17 :: p18 :: p19 :: p20 :: p21 :: p22 :: p23 :: p24 :: p25 :: p26 :: p27 :: p28 :: p29 :: l := .tail _ (nth28 ..)
theorem nth30 (p0 p1 p2 p3 p4 p5 p6 p7 p8 p9 p10 p11 p12 p13 p14 p15 p16 p17 p18 p19 p20 p21 p22 p23 p24 p25 p26 p27 p28 p29 p30 : Part) (l : List Part) : p30 ∈ p0 :: p1 :: p2 :: p3 :: p4 :: p5 :: p6 :: p7 :: p8 :: p9 :: p10 :: p11 :: p12 :: p13 :: p14 :: p15 :: p16 :: p17 :: p18 :: p19 :: p20 :: p21 :: p22 :: p23 :: p24 :: p25 :: p26 :: p27 :: p28 :: p29 :: p30 :: l := .tail _ (nth29 ..)

/-- Every command answers a next state, and changes no view that does not depend on the parts in its footprint. -/
theorem exec_view (c : Instr) (h : ∀ p ∈ footprint c, vw.free p) (s : State) :
    NextP (fun t => vw.at t = vw.at s) (exec c s) := by
  cases c with
  | pllLock => exact execPllLock_view vw (h _ (nth0 ..)) (h _ (nth1 ..)) s
  | refLost => exact execRefLost_view vw (h _ (nth0 ..)) (h _ (nth1 ..)) (h _ (nth2 ..)) (h _ (nth3 ..)) s
  | pllRelock => exact execPllRelock_view vw (h _ (nth0 ..)) (h _ (nth1 ..)) (h _ (nth2 ..)) (h _ (nth3 ..)) s
  | frameTick => exact execFrameTick_view vw (h _ (nth0 ..)) (h _ (nth1 ..)) (h _ (nth2 ..)) (h _ (nth3 ..)) (h _ (nth4 ..)) (h _ (nth5 ..)) (h _ (nth6 ..)) (h _ (nth7 ..)) (h _ (nth8 ..)) (h _ (nth9 ..)) (h _ (nth10 ..)) (h _ (nth11 ..)) (h _ (nth12 ..)) (h _ (nth13 ..)) (h _ (nth14 ..)) (h _ (nth15 ..)) (h _ (nth16 ..)) (h _ (nth17 ..)) (h _ (nth18 ..)) (h _ (nth19 ..)) (h _ (nth20 ..)) (h _ (nth21 ..)) (h _ (nth22 ..)) (h _ (nth23 ..)) s
  | frameCtrlWrite a0 a1 => exact execFrameCtrlWrite_view vw (h _ (nth0 ..)) (h _ (nth1 ..)) (h _ (nth2 ..)) (h _ (nth3 ..)) (h _ (nth4 ..)) (h _ (nth5 ..)) (h _ (nth6 ..)) a0 a1 s
  | frameCountLoRead a0 => exact execFrameCountLoRead_view vw (h _ (nth0 ..)) a0 s
  | turnAbsLoRead a0 => exact execTurnAbsLoRead_view vw (h _ (nth0 ..)) a0 s
  | clFrameDone a0 a1 a2 a3 => exact execClFrameDone_view vw (h _ (nth0 ..)) (h _ (nth1 ..)) (h _ (nth2 ..)) (h _ (nth3 ..)) (h _ (nth4 ..)) (h _ (nth5 ..)) (h _ (nth6 ..)) (h _ (nth7 ..)) (h _ (nth8 ..)) (h _ (nth9 ..)) (h _ (nth10 ..)) (h _ (nth11 ..)) (h _ (nth12 ..)) (h _ (nth13 ..)) (h _ (nth14 ..)) (h _ (nth15 ..)) (h _ (nth16 ..)) (h _ (nth17 ..)) (h _ (nth18 ..)) (h _ (nth19 ..)) (h _ (nth20 ..)) (h _ (nth21 ..)) (h _ (nth22 ..)) (h _ (nth23 ..)) (h _ (nth24 ..)) (h _ (nth25 ..)) (h _ (nth26 ..)) (h _ (nth27 ..)) (h _ (nth28 ..)) (h _ (nth29 ..)) (h _ (nth30 ..)) a0 a1 a2 a3 s
  | calCycle => exact execCalCycle_view vw (h _ (nth0 ..)) (h _ (nth1 ..)) (h _ (nth2 ..)) (h _ (nth3 ..)) (h _ (nth4 ..)) (h _ (nth5 ..)) (h _ (nth6 ..)) (h _ (nth7 ..)) (h _ (nth8 ..)) (h _ (nth9 ..)) (h _ (nth10 ..)) s
  | calStepRequest a0 a1 => exact execCalStepRequest_view vw (h _ (nth0 ..)) (h _ (nth1 ..)) (h _ (nth2 ..)) (h _ (nth3 ..)) (h _ (nth4 ..)) (h _ (nth5 ..)) (h _ (nth6 ..)) (h _ (nth7 ..)) (h _ (nth8 ..)) (h _ (nth9 ..)) (h _ (nth10 ..)) (h _ (nth11 ..)) a0 a1 s
  | calStepApply => exact execCalStepApply_view vw (h _ (nth0 ..)) (h _ (nth1 ..)) (h _ (nth2 ..)) (h _ (nth3 ..)) (h _ (nth4 ..)) (h _ (nth5 ..)) (h _ (nth6 ..)) (h _ (nth7 ..)) (h _ (nth8 ..)) (h _ (nth9 ..)) (h _ (nth10 ..)) s
  | alarmFire => exact execAlarmFire_view vw (h _ (nth0 ..)) (h _ (nth1 ..)) (h _ (nth2 ..)) (h _ (nth3 ..)) (h _ (nth4 ..)) (h _ (nth5 ..)) (h _ (nth6 ..)) (h _ (nth7 ..)) (h _ (nth8 ..)) (h _ (nth9 ..)) (h _ (nth10 ..)) s
  | oscFail => exact execOscFail_view vw (h _ (nth0 ..)) (h _ (nth1 ..)) s
  | oscRestart => exact execOscRestart_view vw (h _ (nth0 ..)) s
  | calendarReset => exact execCalendarReset_view vw (h _ (nth0 ..)) (h _ (nth1 ..)) s
  | calPipRead a0 => exact execCalPipRead_view vw (h _ (nth0 ..)) a0 s
  | mailboxPlace a0 => exact execMailboxPlace_view vw (h _ (nth0 ..)) (h _ (nth1 ..)) (h _ (nth2 ..)) (h _ (nth3 ..)) (h _ (nth4 ..)) (h _ (nth5 ..)) (h _ (nth6 ..)) (h _ (nth7 ..)) a0 s
  | backlogMove a0 => exact execBacklogMove_view vw (h _ (nth0 ..)) (h _ (nth1 ..)) (h _ (nth2 ..)) (h _ (nth3 ..)) (h _ (nth4 ..)) (h _ (nth5 ..)) a0 s
  | handoffProcess a0 => exact execHandoffProcess_view vw (h _ (nth0 ..)) (h _ (nth1 ..)) (h _ (nth2 ..)) (h _ (nth3 ..)) (h _ (nth4 ..)) (h _ (nth5 ..)) (h _ (nth6 ..)) (h _ (nth7 ..)) (h _ (nth8 ..)) (h _ (nth9 ..)) (h _ (nth10 ..)) (h _ (nth11 ..)) (h _ (nth12 ..)) (h _ (nth13 ..)) (h _ (nth14 ..)) (h _ (nth15 ..)) (h _ (nth16 ..)) (h _ (nth17 ..)) a0 s
  | seqTimeout a0 a1 => exact execSeqTimeout_view vw (h _ (nth0 ..)) (h _ (nth1 ..)) (h _ (nth2 ..)) (h _ (nth3 ..)) a0 a1 s
  | machineTimerExpiry a0 a1 a2 a3 => exact execMachineTimerExpiry_view vw (h _ (nth0 ..)) (h _ (nth1 ..)) (h _ (nth2 ..)) (h _ (nth3 ..)) a0 a1 a2 a3 s
  | attachWindowEnd a0 => exact execAttachWindowEnd_view vw (h _ (nth0 ..)) (h _ (nth1 ..)) (h _ (nth2 ..)) (h _ (nth3 ..)) (h _ (nth4 ..)) (h _ (nth5 ..)) (h _ (nth6 ..)) (h _ (nth7 ..)) (h _ (nth8 ..)) (h _ (nth9 ..)) a0 s
  | attachTry a0 => exact execAttachTry_view vw (h _ (nth0 ..)) (h _ (nth1 ..)) (h _ (nth2 ..)) (h _ (nth3 ..)) (h _ (nth4 ..)) (h _ (nth5 ..)) (h _ (nth6 ..)) (h _ (nth7 ..)) (h _ (nth8 ..)) (h _ (nth9 ..)) a0 s
  | probeWindowEnd a0 => exact execProbeWindowEnd_view vw (h _ (nth0 ..)) (h _ (nth1 ..)) (h _ (nth2 ..)) (h _ (nth3 ..)) (h _ (nth4 ..)) (h _ (nth5 ..)) (h _ (nth6 ..)) (h _ (nth7 ..)) (h _ (nth8 ..)) (h _ (nth9 ..)) a0 s
  | switchGuardEnd a0 => exact execSwitchGuardEnd_view vw (h _ (nth0 ..)) (h _ (nth1 ..)) (h _ (nth2 ..)) (h _ (nth3 ..)) (h _ (nth4 ..)) (h _ (nth5 ..)) (h _ (nth6 ..)) (h _ (nth7 ..)) (h _ (nth8 ..)) (h _ (nth9 ..)) a0 s
  | pollDue a0 => exact execPollDue_view vw (h _ (nth0 ..)) (h _ (nth1 ..)) (h _ (nth2 ..)) (h _ (nth3 ..)) (h _ (nth4 ..)) (h _ (nth5 ..)) a0 s
  | replyWindowEnd a0 => exact execReplyWindowEnd_view vw (h _ (nth0 ..)) (h _ (nth1 ..)) (h _ (nth2 ..)) (h _ (nth3 ..)) (h _ (nth4 ..)) (h _ (nth5 ..)) (h _ (nth6 ..)) (h _ (nth7 ..)) (h _ (nth8 ..)) (h _ (nth9 ..)) (h _ (nth10 ..)) a0 s
  | lossPadWindowEnd a0 => exact execLossPadWindowEnd_view vw (h _ (nth0 ..)) (h _ (nth1 ..)) (h _ (nth2 ..)) (h _ (nth3 ..)) (h _ (nth4 ..)) (h _ (nth5 ..)) (h _ (nth6 ..)) (h _ (nth7 ..)) (h _ (nth8 ..)) (h _ (nth9 ..)) (h _ (nth10 ..)) a0 s
  | gapWindowEnd a0 => exact execGapWindowEnd_view vw (h _ (nth0 ..)) (h _ (nth1 ..)) (h _ (nth2 ..)) (h _ (nth3 ..)) (h _ (nth4 ..)) (h _ (nth5 ..)) (h _ (nth6 ..)) (h _ (nth7 ..)) (h _ (nth8 ..)) (h _ (nth9 ..)) (h _ (nth10 ..)) a0 s
  | portProgramChange a0 => exact execPortProgramChange_view vw (h _ (nth0 ..)) (h _ (nth1 ..)) (h _ (nth2 ..)) (h _ (nth3 ..)) (h _ (nth4 ..)) (h _ (nth5 ..)) (h _ (nth6 ..)) a0 s
  | pgRelease a0 => exact execPgRelease_view vw (h _ (nth0 ..)) a0 s
  | vioFail a0 => exact execVioFail_view vw (h _ (nth0 ..)) (h _ (nth1 ..)) (h _ (nth2 ..)) (h _ (nth3 ..)) (h _ (nth4 ..)) (h _ (nth5 ..)) (h _ (nth6 ..)) (h _ (nth7 ..)) (h _ (nth8 ..)) (h _ (nth9 ..)) (h _ (nth10 ..)) a0 s
  | pgSupplyMismatch a0 a1 => exact execPgSupplyMismatch_view vw (h _ (nth0 ..)) (h _ (nth1 ..)) (h _ (nth2 ..)) (h _ (nth3 ..)) (h _ (nth4 ..)) (h _ (nth5 ..)) (h _ (nth6 ..)) (h _ (nth7 ..)) (h _ (nth8 ..)) a0 a1 s
  | padIoWrite a0 a1 a2 => exact execPadIoWrite_view vw (h _ (nth0 ..)) (h _ (nth1 ..)) (h _ (nth2 ..)) (h _ (nth3 ..)) (h _ (nth4 ..)) (h _ (nth5 ..)) (h _ (nth6 ..)) (h _ (nth7 ..)) a0 a1 a2 s
  | rxStartEdge a0 a1 => exact execRxStartEdge_view vw (h _ (nth0 ..)) (h _ (nth1 ..)) (h _ (nth2 ..)) (h _ (nth3 ..)) (h _ (nth4 ..)) (h _ (nth5 ..)) (h _ (nth6 ..)) (h _ (nth7 ..)) (h _ (nth8 ..)) (h _ (nth9 ..)) a0 a1 s
  | startBitCheck a0 b0 => exact execStartBitCheck_view vw (h _ (nth0 ..)) (h _ (nth1 ..)) (h _ (nth2 ..)) (h _ (nth3 ..)) a0 b0 s
  | rxWordComplete a0 b0 => exact execRxWordComplete_view vw (h _ (nth0 ..)) (h _ (nth1 ..)) (h _ (nth2 ..)) (h _ (nth3 ..)) a0 b0 s
  | syncRxWordComplete a0 b0 b1 => exact execSyncRxWordComplete_view vw (h _ (nth0 ..)) (h _ (nth1 ..)) (h _ (nth2 ..)) (h _ (nth3 ..)) a0 b0 b1 s
  | edgeEntry a0 a1 => exact execEdgeEntry_view vw (h _ (nth0 ..)) (h _ (nth1 ..)) (h _ (nth2 ..)) (h _ (nth3 ..)) (h _ (nth4 ..)) (h _ (nth5 ..)) (h _ (nth6 ..)) (h _ (nth7 ..)) (h _ (nth8 ..)) (h _ (nth9 ..)) a0 a1 s
  | saTxdataWrite a0 a1 a2 => exact execSaTxdataWrite_view vw (h _ (nth0 ..)) (h _ (nth1 ..)) (h _ (nth2 ..)) (h _ (nth3 ..)) (h _ (nth4 ..)) (h _ (nth5 ..)) (h _ (nth6 ..)) (h _ (nth7 ..)) (h _ (nth8 ..)) (h _ (nth9 ..)) (h _ (nth10 ..)) a0 a1 a2 s
  | txWordLaunch a0 => exact execTxWordLaunch_view vw (h _ (nth0 ..)) (h _ (nth1 ..)) (h _ (nth2 ..)) (h _ (nth3 ..)) (h _ (nth4 ..)) (h _ (nth5 ..)) (h _ (nth6 ..)) (h _ (nth7 ..)) (h _ (nth8 ..)) a0 s
  | txWordEnd a0 => exact execTxWordEnd_view vw (h _ (nth0 ..)) (h _ (nth1 ..)) (h _ (nth2 ..)) a0 s
  | deRelease a0 => exact execDeRelease_view vw (h _ (nth0 ..)) (h _ (nth1 ..)) a0 s
  | saRxdataRead a0 a1 => exact execSaRxdataRead_view vw (h _ (nth0 ..)) (h _ (nth1 ..)) (h _ (nth2 ..)) (h _ (nth3 ..)) (h _ (nth4 ..)) (h _ (nth5 ..)) (h _ (nth6 ..)) (h _ (nth7 ..)) a0 a1 s
  | saCtrlWrite a0 a1 a2 => exact execSaCtrlWrite_view vw (h _ (nth0 ..)) (h _ (nth1 ..)) (h _ (nth2 ..)) (h _ (nth3 ..)) (h _ (nth4 ..)) (h _ (nth5 ..)) (h _ (nth6 ..)) (h _ (nth7 ..)) (h _ (nth8 ..)) (h _ (nth9 ..)) (h _ (nth10 ..)) a0 a1 a2 s
  | saStatWrite a0 a1 a2 => exact execSaStatWrite_view vw (h _ (nth0 ..)) (h _ (nth1 ..)) (h _ (nth2 ..)) (h _ (nth3 ..)) (h _ (nth4 ..)) (h _ (nth5 ..)) (h _ (nth6 ..)) a0 a1 a2 s
  | bypassApply a0 => exact execBypassApply_view vw (h _ (nth0 ..)) (h _ (nth1 ..)) (h _ (nth2 ..)) (h _ (nth3 ..)) (h _ (nth4 ..)) (h _ (nth5 ..)) (h _ (nth6 ..)) (h _ (nth7 ..)) (h _ (nth8 ..)) (h _ (nth9 ..)) (h _ (nth10 ..)) (h _ (nth11 ..)) (h _ (nth12 ..)) a0 s
  | bypassReleaseApply a0 => exact execBypassReleaseApply_view vw (h _ (nth0 ..)) (h _ (nth1 ..)) (h _ (nth2 ..)) (h _ (nth3 ..)) (h _ (nth4 ..)) (h _ (nth5 ..)) (h _ (nth6 ..)) (h _ (nth7 ..)) (h _ (nth8 ..)) (h _ (nth9 ..)) (h _ (nth10 ..)) a0 s
  | lcCmdStage a0 a1 a2 => exact execLcCmdStage_view vw (h _ (nth0 ..)) (h _ (nth1 ..)) (h _ (nth2 ..)) (h _ (nth3 ..)) (h _ (nth4 ..)) (h _ (nth5 ..)) (h _ (nth6 ..)) (h _ (nth7 ..)) (h _ (nth8 ..)) (h _ (nth9 ..)) (h _ (nth10 ..)) (h _ (nth11 ..)) a0 a1 a2 s
  | lcNop a0 => exact execLcNop_view vw (h _ (nth0 ..)) (h _ (nth1 ..)) (h _ (nth2 ..)) (h _ (nth3 ..)) (h _ (nth4 ..)) (h _ (nth5 ..)) (h _ (nth6 ..)) (h _ (nth7 ..)) (h _ (nth8 ..)) (h _ (nth9 ..)) (h _ (nth10 ..)) (h _ (nth11 ..)) a0 s
  | lcOn a0 => exact execLcOn_view vw (h _ (nth0 ..)) (h _ (nth1 ..)) (h _ (nth2 ..)) (h _ (nth3 ..)) (h _ (nth4 ..)) (h _ (nth5 ..)) (h _ (nth6 ..)) (h _ (nth7 ..)) (h _ (nth8 ..)) (h _ (nth9 ..)) (h _ (nth10 ..)) (h _ (nth11 ..)) a0 s
  | lcOff a0 => exact execLcOff_view vw (h _ (nth0 ..)) (h _ (nth1 ..)) (h _ (nth2 ..)) (h _ (nth3 ..)) (h _ (nth4 ..)) (h _ (nth5 ..)) (h _ (nth6 ..)) (h _ (nth7 ..)) (h _ (nth8 ..)) (h _ (nth9 ..)) (h _ (nth10 ..)) (h _ (nth11 ..)) a0 s
  | lcKick a0 => exact execLcKick_view vw (h _ (nth0 ..)) (h _ (nth1 ..)) (h _ (nth2 ..)) (h _ (nth3 ..)) (h _ (nth4 ..)) (h _ (nth5 ..)) (h _ (nth6 ..)) (h _ (nth7 ..)) (h _ (nth8 ..)) (h _ (nth9 ..)) (h _ (nth10 ..)) (h _ (nth11 ..)) a0 s
  | lcBlink a0 => exact execLcBlink_view vw (h _ (nth0 ..)) (h _ (nth1 ..)) (h _ (nth2 ..)) (h _ (nth3 ..)) (h _ (nth4 ..)) (h _ (nth5 ..)) (h _ (nth6 ..)) (h _ (nth7 ..)) (h _ (nth8 ..)) (h _ (nth9 ..)) (h _ (nth10 ..)) (h _ (nth11 ..)) a0 s
  | lcTest a0 => exact execLcTest_view vw (h _ (nth0 ..)) (h _ (nth1 ..)) (h _ (nth2 ..)) (h _ (nth3 ..)) (h _ (nth4 ..)) (h _ (nth5 ..)) (h _ (nth6 ..)) (h _ (nth7 ..)) (h _ (nth8 ..)) (h _ (nth9 ..)) (h _ (nth10 ..)) (h _ (nth11 ..)) a0 s
  | lcClear a0 => exact execLcClear_view vw (h _ (nth0 ..)) (h _ (nth1 ..)) (h _ (nth2 ..)) (h _ (nth3 ..)) (h _ (nth4 ..)) (h _ (nth5 ..)) (h _ (nth6 ..)) (h _ (nth7 ..)) (h _ (nth8 ..)) (h _ (nth9 ..)) (h _ (nth10 ..)) (h _ (nth11 ..)) a0 s
  | shortTrip a0 => exact execShortTrip_view vw (h _ (nth0 ..)) (h _ (nth1 ..)) (h _ (nth2 ..)) (h _ (nth3 ..)) (h _ (nth4 ..)) (h _ (nth5 ..)) (h _ (nth6 ..)) (h _ (nth7 ..)) (h _ (nth8 ..)) (h _ (nth9 ..)) (h _ (nth10 ..)) (h _ (nth11 ..)) a0 s
  | inrushOverTrip a0 => exact execInrushOverTrip_view vw (h _ (nth0 ..)) (h _ (nth1 ..)) (h _ (nth2 ..)) (h _ (nth3 ..)) (h _ (nth4 ..)) (h _ (nth5 ..)) (h _ (nth6 ..)) (h _ (nth7 ..)) (h _ (nth8 ..)) (h _ (nth9 ..)) (h _ (nth10 ..)) (h _ (nth11 ..)) a0 s
  | overloadTrip a0 => exact execOverloadTrip_view vw (h _ (nth0 ..)) (h _ (nth1 ..)) (h _ (nth2 ..)) (h _ (nth3 ..)) (h _ (nth4 ..)) (h _ (nth5 ..)) (h _ (nth6 ..)) (h _ (nth7 ..)) (h _ (nth8 ..)) (h _ (nth9 ..)) (h _ (nth10 ..)) (h _ (nth11 ..)) a0 s
  | stuckOnDetect a0 => exact execStuckOnDetect_view vw (h _ (nth0 ..)) (h _ (nth1 ..)) (h _ (nth2 ..)) (h _ (nth3 ..)) (h _ (nth4 ..)) (h _ (nth5 ..)) (h _ (nth6 ..)) (h _ (nth7 ..)) (h _ (nth8 ..)) (h _ (nth9 ..)) (h _ (nth10 ..)) (h _ (nth11 ..)) a0 s
  | inrushGrant a0 => exact execInrushGrant_view vw (h _ (nth0 ..)) (h _ (nth1 ..)) (h _ (nth2 ..)) (h _ (nth3 ..)) (h _ (nth4 ..)) (h _ (nth5 ..)) (h _ (nth6 ..)) (h _ (nth7 ..)) (h _ (nth8 ..)) (h _ (nth9 ..)) (h _ (nth10 ..)) (h _ (nth11 ..)) a0 s
  | inrushEnd a0 => exact execInrushEnd_view vw (h _ (nth0 ..)) (h _ (nth1 ..)) (h _ (nth2 ..)) (h _ (nth3 ..)) (h _ (nth4 ..)) (h _ (nth5 ..)) (h _ (nth6 ..)) a0 s
  | sagAssert a0 => exact execSagAssert_view vw (h _ (nth0 ..)) (h _ (nth1 ..)) (h _ (nth2 ..)) (h _ (nth3 ..)) (h _ (nth4 ..)) (h _ (nth5 ..)) (h _ (nth6 ..)) (h _ (nth7 ..)) (h _ (nth8 ..)) (h _ (nth9 ..)) (h _ (nth10 ..)) (h _ (nth11 ..)) a0 s
  | sagDeassert a0 => exact execSagDeassert_view vw (h _ (nth0 ..)) (h _ (nth1 ..)) (h _ (nth2 ..)) a0 s
  | dischargeEnd a0 => exact execDischargeEnd_view vw (h _ (nth0 ..)) a0 s
  | kickEnd a0 => exact execKickEnd_view vw (h _ (nth0 ..)) (h _ (nth1 ..)) (h _ (nth2 ..)) (h _ (nth3 ..)) (h _ (nth4 ..)) (h _ (nth5 ..)) (h _ (nth6 ..)) (h _ (nth7 ..)) (h _ (nth8 ..)) (h _ (nth9 ..)) (h _ (nth10 ..)) (h _ (nth11 ..)) a0 s
  | blinkOnEnd a0 => exact execBlinkOnEnd_view vw (h _ (nth0 ..)) (h _ (nth1 ..)) (h _ (nth2 ..)) (h _ (nth3 ..)) (h _ (nth4 ..)) (h _ (nth5 ..)) (h _ (nth6 ..)) a0 s
  | blinkOffEnd a0 => exact execBlinkOffEnd_view vw (h _ (nth0 ..)) (h _ (nth1 ..)) (h _ (nth2 ..)) (h _ (nth3 ..)) a0 s
  | testOffEnd a0 a1 => exact execTestOffEnd_view vw (h _ (nth0 ..)) (h _ (nth1 ..)) (h _ (nth2 ..)) (h _ (nth3 ..)) (h _ (nth4 ..)) (h _ (nth5 ..)) (h _ (nth6 ..)) (h _ (nth7 ..)) (h _ (nth8 ..)) (h _ (nth9 ..)) (h _ (nth10 ..)) (h _ (nth11 ..)) a0 a1 s
  | testWindowEnd a0 a1 => exact execTestWindowEnd_view vw (h _ (nth0 ..)) (h _ (nth1 ..)) (h _ (nth2 ..)) (h _ (nth3 ..)) (h _ (nth4 ..)) (h _ (nth5 ..)) (h _ (nth6 ..)) (h _ (nth7 ..)) (h _ (nth8 ..)) (h _ (nth9 ..)) (h _ (nth10 ..)) (h _ (nth11 ..)) a0 a1 s
  | autoRetry a0 => exact execAutoRetry_view vw (h _ (nth0 ..)) (h _ (nth1 ..)) (h _ (nth2 ..)) (h _ (nth3 ..)) (h _ (nth4 ..)) (h _ (nth5 ..)) a0 s
  | lcConfigWrite a0 a1 a2 a3 => exact execLcConfigWrite_view vw (h _ (nth0 ..)) (h _ (nth1 ..)) (h _ (nth2 ..)) (h _ (nth3 ..)) (h _ (nth4 ..)) (h _ (nth5 ..)) (h _ (nth6 ..)) (h _ (nth7 ..)) (h _ (nth8 ..)) (h _ (nth9 ..)) (h _ (nth10 ..)) (h _ (nth11 ..)) (h _ (nth12 ..)) (h _ (nth13 ..)) a0 a1 a2 a3 s
  | lcGcfgWrite a0 a1 a2 => exact execLcGcfgWrite_view vw (h _ (nth0 ..)) (h _ (nth1 ..)) (h _ (nth2 ..)) (h _ (nth3 ..)) (h _ (nth4 ..)) (h _ (nth5 ..)) (h _ (nth6 ..)) a0 a1 a2 s
  | lcCtrlDisable a0 a1 => exact execLcCtrlDisable_view vw (h _ (nth0 ..)) (h _ (nth1 ..)) (h _ (nth2 ..)) (h _ (nth3 ..)) (h _ (nth4 ..)) (h _ (nth5 ..)) (h _ (nth6 ..)) (h _ (nth7 ..)) (h _ (nth8 ..)) (h _ (nth9 ..)) (h _ (nth10 ..)) (h _ (nth11 ..)) (h _ (nth12 ..)) (h _ (nth13 ..)) a0 a1 s
  | traceSample a0 a1 => exact execTraceSample_view vw (h _ (nth0 ..)) (h _ (nth1 ..)) a0 a1 s
  | segmentTimeClose => exact execSegmentTimeClose_view vw (h _ (nth0 ..)) (h _ (nth1 ..)) (h _ (nth2 ..)) (h _ (nth3 ..)) (h _ (nth4 ..)) s
  | jnlCtrlClose a0 => exact execJnlCtrlClose_view vw (h _ (nth0 ..)) (h _ (nth1 ..)) (h _ (nth2 ..)) (h _ (nth3 ..)) (h _ (nth4 ..)) (h _ (nth5 ..)) a0 s
  | segmentSign => exact execSegmentSign_view vw (h _ (nth0 ..)) (h _ (nth1 ..)) s
  | segmentCommit => exact execSegmentCommit_view vw (h _ (nth0 ..)) (h _ (nth1 ..)) (h _ (nth2 ..)) s
  | jnlEnable a0 a1 => exact execJnlEnable_view vw (h _ (nth0 ..)) (h _ (nth1 ..)) (h _ (nth2 ..)) (h _ (nth3 ..)) (h _ (nth4 ..)) (h _ (nth5 ..)) a0 a1 s
  | chainHeadFound b0 => exact execChainHeadFound_view vw (h _ (nth0 ..)) (h _ (nth1 ..)) (h _ (nth2 ..)) (h _ (nth3 ..)) (h _ (nth4 ..)) (h _ (nth5 ..)) (h _ (nth6 ..)) (h _ (nth7 ..)) (h _ (nth8 ..)) b0 s
  | jnlDisable a0 => exact execJnlDisable_view vw (h _ (nth0 ..)) (h _ (nth1 ..)) (h _ (nth2 ..)) (h _ (nth3 ..)) (h _ (nth4 ..)) (h _ (nth5 ..)) (h _ (nth6 ..)) a0 s
  | driveFail a0 => exact execDriveFail_view vw (h _ (nth0 ..)) (h _ (nth1 ..)) (h _ (nth2 ..)) (h _ (nth3 ..)) a0 s
  | rebuildComplete a0 => exact execRebuildComplete_view vw (h _ (nth0 ..)) (h _ (nth1 ..)) (h _ (nth2 ..)) (h _ (nth3 ..)) a0 s
  | jnlEntryWrite a0 a1 a2 a3 => exact execJnlEntryWrite_view vw (h _ (nth0 ..)) (h _ (nth1 ..)) (h _ (nth2 ..)) (h _ (nth3 ..)) (h _ (nth4 ..)) (h _ (nth5 ..)) a0 a1 a2 a3 s
  | jnlArchWrite a0 a1 => exact execJnlArchWrite_view vw (h _ (nth0 ..)) (h _ (nth1 ..)) (h _ (nth2 ..)) (h _ (nth3 ..)) (h _ (nth4 ..)) (h _ (nth5 ..)) a0 a1 s
  | jnlWptrLoRead a0 => exact execJnlWptrLoRead_view vw (h _ (nth0 ..)) a0 s
  | jnlSeqLoRead a0 => exact execJnlSeqLoRead_view vw (h _ (nth0 ..)) a0 s
  | slotApplyRequest a0 a1 a2 => exact execSlotApplyRequest_view vw (h _ (nth0 ..)) (h _ (nth1 ..)) (h _ (nth2 ..)) (h _ (nth3 ..)) (h _ (nth4 ..)) (h _ (nth5 ..)) (h _ (nth6 ..)) a0 a1 a2 s
  | slotTableApply a0 => exact execSlotTableApply_view vw (h _ (nth0 ..)) (h _ (nth1 ..)) (h _ (nth2 ..)) a0 s
  | greedyOn a0 a1 a2 => exact execGreedyOn_view vw (h _ (nth0 ..)) (h _ (nth1 ..)) (h _ (nth2 ..)) (h _ (nth3 ..)) (h _ (nth4 ..)) (h _ (nth5 ..)) (h _ (nth6 ..)) a0 a1 a2 s
  | greedyOff a0 a1 a2 => exact execGreedyOff_view vw (h _ (nth0 ..)) (h _ (nth1 ..)) (h _ (nth2 ..)) (h _ (nth3 ..)) (h _ (nth4 ..)) (h _ (nth5 ..)) (h _ (nth6 ..)) a0 a1 a2 s
  | threadStart a0 a1 a2 => exact execThreadStart_view vw (h _ (nth0 ..)) (h _ (nth1 ..)) (h _ (nth2 ..)) (h _ (nth3 ..)) (h _ (nth4 ..)) (h _ (nth5 ..)) (h _ (nth6 ..)) a0 a1 a2 s
  | threadStop a0 a1 a2 => exact execThreadStop_view vw (h _ (nth0 ..)) (h _ (nth1 ..)) (h _ (nth2 ..)) (h _ (nth3 ..)) (h _ (nth4 ..)) (h _ (nth5 ..)) (h _ (nth6 ..)) a0 a1 a2 s
  | threadResume a0 a1 a2 => exact execThreadResume_view vw (h _ (nth0 ..)) (h _ (nth1 ..)) (h _ (nth2 ..)) (h _ (nth3 ..)) (h _ (nth4 ..)) (h _ (nth5 ..)) (h _ (nth6 ..)) a0 a1 a2 s
  | faultPortLoss a0 a1 => exact execFaultPortLoss_view vw (h _ (nth0 ..)) (h _ (nth1 ..)) (h _ (nth2 ..)) (h _ (nth3 ..)) (h _ (nth4 ..)) (h _ (nth5 ..)) (h _ (nth6 ..)) (h _ (nth7 ..)) (h _ (nth8 ..)) (h _ (nth9 ..)) (h _ (nth10 ..)) a0 a1 s
  | lockAcquire a0 a1 a2 => exact execLockAcquire_view vw (h _ (nth0 ..)) (h _ (nth1 ..)) (h _ (nth2 ..)) (h _ (nth3 ..)) (h _ (nth4 ..)) (h _ (nth5 ..)) (h _ (nth6 ..)) (h _ (nth7 ..)) a0 a1 a2 s
  | lockRelease a0 a1 a2 => exact execLockRelease_view vw (h _ (nth0 ..)) (h _ (nth1 ..)) (h _ (nth2 ..)) (h _ (nth3 ..)) (h _ (nth4 ..)) (h _ (nth5 ..)) (h _ (nth6 ..)) (h _ (nth7 ..)) a0 a1 a2 s
  | lockForce a0 a1 a2 => exact execLockForce_view vw (h _ (nth0 ..)) (h _ (nth1 ..)) (h _ (nth2 ..)) (h _ (nth3 ..)) (h _ (nth4 ..)) (h _ (nth5 ..)) (h _ (nth6 ..)) (h _ (nth7 ..)) a0 a1 a2 s
  | chipLockAcquire a0 a1 => exact execChipLockAcquire_view vw (h _ (nth0 ..)) (h _ (nth1 ..)) a0 a1 s
  | chipLockRelease a0 a1 => exact execChipLockRelease_view vw (h _ (nth0 ..)) (h _ (nth1 ..)) (h _ (nth2 ..)) (h _ (nth3 ..)) (h _ (nth4 ..)) (h _ (nth5 ..)) (h _ (nth6 ..)) a0 a1 s
  | chipLockForce a0 a1 => exact execChipLockForce_view vw (h _ (nth0 ..)) (h _ (nth1 ..)) (h _ (nth2 ..)) (h _ (nth3 ..)) (h _ (nth4 ..)) (h _ (nth5 ..)) (h _ (nth6 ..)) a0 a1 s
  | thrAlarmArm a0 a1 => exact execThrAlarmArm_view vw (h _ (nth0 ..)) (h _ (nth1 ..)) (h _ (nth2 ..)) (h _ (nth3 ..)) (h _ (nth4 ..)) (h _ (nth5 ..)) (h _ (nth6 ..)) a0 a1 s
  | threadAlarm a0 a1 => exact execThreadAlarm_view vw (h _ (nth0 ..)) (h _ (nth1 ..)) (h _ (nth2 ..)) (h _ (nth3 ..)) a0 a1 s
  | rxfPush a0 a1 => exact execRxfPush_view vw (h _ (nth0 ..)) (h _ (nth1 ..)) (h _ (nth2 ..)) (h _ (nth3 ..)) (h _ (nth4 ..)) (h _ (nth5 ..)) (h _ (nth6 ..)) (h _ (nth7 ..)) (h _ (nth8 ..)) (h _ (nth9 ..)) (h _ (nth10 ..)) (h _ (nth11 ..)) (h _ (nth12 ..)) a0 a1 s
  | rxfEnd a0 a1 => exact execRxfEnd_view vw (h _ (nth0 ..)) (h _ (nth1 ..)) (h _ (nth2 ..)) (h _ (nth3 ..)) (h _ (nth4 ..)) (h _ (nth5 ..)) (h _ (nth6 ..)) (h _ (nth7 ..)) (h _ (nth8 ..)) (h _ (nth9 ..)) (h _ (nth10 ..)) (h _ (nth11 ..)) (h _ (nth12 ..)) a0 a1 s
  | rxfEvent a0 a1 => exact execRxfEvent_view vw (h _ (nth0 ..)) (h _ (nth1 ..)) (h _ (nth2 ..)) (h _ (nth3 ..)) (h _ (nth4 ..)) (h _ (nth5 ..)) (h _ (nth6 ..)) (h _ (nth7 ..)) (h _ (nth8 ..)) (h _ (nth9 ..)) (h _ (nth10 ..)) (h _ (nth11 ..)) (h _ (nth12 ..)) a0 a1 s
  | rxfFree a0 a1 => exact execRxfFree_view vw (h _ (nth0 ..)) (h _ (nth1 ..)) (h _ (nth2 ..)) (h _ (nth3 ..)) (h _ (nth4 ..)) (h _ (nth5 ..)) (h _ (nth6 ..)) (h _ (nth7 ..)) a0 a1 s
  | txfStage a0 a1 => exact execTxfStage_view vw (h _ (nth0 ..)) (h _ (nth1 ..)) (h _ (nth2 ..)) (h _ (nth3 ..)) (h _ (nth4 ..)) (h _ (nth5 ..)) (h _ (nth6 ..)) (h _ (nth7 ..)) (h _ (nth8 ..)) (h _ (nth9 ..)) a0 a1 s
  | txfPop a0 a1 => exact execTxfPop_view vw (h _ (nth0 ..)) (h _ (nth1 ..)) (h _ (nth2 ..)) (h _ (nth3 ..)) (h _ (nth4 ..)) (h _ (nth5 ..)) (h _ (nth6 ..)) (h _ (nth7 ..)) a0 a1 s
  | txfNote a0 a1 => exact execTxfNote_view vw (h _ (nth0 ..)) (h _ (nth1 ..)) (h _ (nth2 ..)) (h _ (nth3 ..)) (h _ (nth4 ..)) (h _ (nth5 ..)) (h _ (nth6 ..)) (h _ (nth7 ..)) a0 a1 s
  | add a0 a1 a2 a3 a4 => exact execAdd_view vw (h _ (nth0 ..)) (h _ (nth1 ..)) (h _ (nth2 ..)) (h _ (nth3 ..)) (h _ (nth4 ..)) (h _ (nth5 ..)) (h _ (nth6 ..)) (h _ (nth7 ..)) (h _ (nth8 ..)) (h _ (nth9 ..)) (h _ (nth10 ..)) a0 a1 a2 a3 a4 s
  | adc a0 a1 a2 a3 a4 => exact execAdc_view vw (h _ (nth0 ..)) (h _ (nth1 ..)) (h _ (nth2 ..)) (h _ (nth3 ..)) (h _ (nth4 ..)) (h _ (nth5 ..)) (h _ (nth6 ..)) (h _ (nth7 ..)) (h _ (nth8 ..)) (h _ (nth9 ..)) (h _ (nth10 ..)) a0 a1 a2 a3 a4 s
  | sub a0 a1 a2 a3 a4 => exact execSub_view vw (h _ (nth0 ..)) (h _ (nth1 ..)) (h _ (nth2 ..)) (h _ (nth3 ..)) (h _ (nth4 ..)) (h _ (nth5 ..)) (h _ (nth6 ..)) (h _ (nth7 ..)) (h _ (nth8 ..)) (h _ (nth9 ..)) (h _ (nth10 ..)) a0 a1 a2 a3 a4 s
  | sbc a0 a1 a2 a3 a4 => exact execSbc_view vw (h _ (nth0 ..)) (h _ (nth1 ..)) (h _ (nth2 ..)) (h _ (nth3 ..)) (h _ (nth4 ..)) (h _ (nth5 ..)) (h _ (nth6 ..)) (h _ (nth7 ..)) (h _ (nth8 ..)) (h _ (nth9 ..)) (h _ (nth10 ..)) a0 a1 a2 a3 a4 s
  | andR a0 a1 a2 a3 a4 => exact execAndR_view vw (h _ (nth0 ..)) (h _ (nth1 ..)) (h _ (nth2 ..)) (h _ (nth3 ..)) (h _ (nth4 ..)) (h _ (nth5 ..)) (h _ (nth6 ..)) (h _ (nth7 ..)) (h _ (nth8 ..)) (h _ (nth9 ..)) (h _ (nth10 ..)) a0 a1 a2 a3 a4 s
  | orR a0 a1 a2 a3 a4 => exact execOrR_view vw (h _ (nth0 ..)) (h _ (nth1 ..)) (h _ (nth2 ..)) (h _ (nth3 ..)) (h _ (nth4 ..)) (h _ (nth5 ..)) (h _ (nth6 ..)) (h _ (nth7 ..)) (h _ (nth8 ..)) (h _ (nth9 ..)) (h _ (nth10 ..)) a0 a1 a2 a3 a4 s
  | xorR a0 a1 a2 a3 a4 => exact execXorR_view vw (h _ (nth0 ..)) (h _ (nth1 ..)) (h _ (nth2 ..)) (h _ (nth3 ..)) (h _ (nth4 ..)) (h _ (nth5 ..)) (h _ (nth6 ..)) (h _ (nth7 ..)) (h _ (nth8 ..)) (h _ (nth9 ..)) (h _ (nth10 ..)) a0 a1 a2 a3 a4 s
  | andn a0 a1 a2 a3 a4 => exact execAndn_view vw (h _ (nth0 ..)) (h _ (nth1 ..)) (h _ (nth2 ..)) (h _ (nth3 ..)) (h _ (nth4 ..)) (h _ (nth5 ..)) (h _ (nth6 ..)) (h _ (nth7 ..)) (h _ (nth8 ..)) (h _ (nth9 ..)) (h _ (nth10 ..)) a0 a1 a2 a3 a4 s
  | lsl a0 a1 a2 a3 a4 => exact execLsl_view vw (h _ (nth0 ..)) (h _ (nth1 ..)) (h _ (nth2 ..)) (h _ (nth3 ..)) (h _ (nth4 ..)) (h _ (nth5 ..)) (h _ (nth6 ..)) (h _ (nth7 ..)) (h _ (nth8 ..)) (h _ (nth9 ..)) (h _ (nth10 ..)) a0 a1 a2 a3 a4 s
  | lsr a0 a1 a2 a3 a4 => exact execLsr_view vw (h _ (nth0 ..)) (h _ (nth1 ..)) (h _ (nth2 ..)) (h _ (nth3 ..)) (h _ (nth4 ..)) (h _ (nth5 ..)) (h _ (nth6 ..)) (h _ (nth7 ..)) (h _ (nth8 ..)) (h _ (nth9 ..)) (h _ (nth10 ..)) a0 a1 a2 a3 a4 s
  | asr a0 a1 a2 a3 a4 => exact execAsr_view vw (h _ (nth0 ..)) (h _ (nth1 ..)) (h _ (nth2 ..)) (h _ (nth3 ..)) (h _ (nth4 ..)) (h _ (nth5 ..)) (h _ (nth6 ..)) (h _ (nth7 ..)) (h _ (nth8 ..)) (h _ (nth9 ..)) (h _ (nth10 ..)) a0 a1 a2 a3 a4 s
  | ror a0 a1 a2 a3 a4 => exact execRor_view vw (h _ (nth0 ..)) (h _ (nth1 ..)) (h _ (nth2 ..)) (h _ (nth3 ..)) (h _ (nth4 ..)) (h _ (nth5 ..)) (h _ (nth6 ..)) (h _ (nth7 ..)) (h _ (nth8 ..)) (h _ (nth9 ..)) (h _ (nth10 ..)) a0 a1 a2 a3 a4 s
  | mov a0 a1 a2 a3 => exact execMov_view vw (h _ (nth0 ..)) (h _ (nth1 ..)) (h _ (nth2 ..)) (h _ (nth3 ..)) (h _ (nth4 ..)) (h _ (nth5 ..)) (h _ (nth6 ..)) (h _ (nth7 ..)) (h _ (nth8 ..)) (h _ (nth9 ..)) (h _ (nth10 ..)) a0 a1 a2 a3 s
  | mvn a0 a1 a2 a3 => exact execMvn_view vw (h _ (nth0 ..)) (h _ (nth1 ..)) (h _ (nth2 ..)) (h _ (nth3 ..)) (h _ (nth4 ..)) (h _ (nth5 ..)) (h _ (nth6 ..)) (h _ (nth7 ..)) (h _ (nth8 ..)) (h _ (nth9 ..)) (h _ (nth10 ..)) a0 a1 a2 a3 s
  | neg a0 a1 a2 a3 => exact execNeg_view vw (h _ (nth0 ..)) (h _ (nth1 ..)) (h _ (nth2 ..)) (h _ (nth3 ..)) (h _ (nth4 ..)) (h _ (nth5 ..)) (h _ (nth6 ..)) (h _ (nth7 ..)) (h _ (nth8 ..)) (h _ (nth9 ..)) (h _ (nth10 ..)) a0 a1 a2 a3 s
  | cmp a0 a1 a2 => exact execCmp_view vw (h _ (nth0 ..)) (h _ (nth1 ..)) (h _ (nth2 ..)) (h _ (nth3 ..)) (h _ (nth4 ..)) (h _ (nth5 ..)) (h _ (nth6 ..)) (h _ (nth7 ..)) (h _ (nth8 ..)) (h _ (nth9 ..)) (h _ (nth10 ..)) a0 a1 a2 s
  | tst a0 a1 a2 => exact execTst_view vw (h _ (nth0 ..)) (h _ (nth1 ..)) (h _ (nth2 ..)) (h _ (nth3 ..)) (h _ (nth4 ..)) (h _ (nth5 ..)) (h _ (nth6 ..)) (h _ (nth7 ..)) (h _ (nth8 ..)) (h _ (nth9 ..)) (h _ (nth10 ..)) a0 a1 a2 s
  | mul a0 a1 a2 a3 a4 => exact execMul_view vw (h _ (nth0 ..)) (h _ (nth1 ..)) (h _ (nth2 ..)) (h _ (nth3 ..)) (h _ (nth4 ..)) (h _ (nth5 ..)) (h _ (nth6 ..)) (h _ (nth7 ..)) (h _ (nth8 ..)) (h _ (nth9 ..)) (h _ (nth10 ..)) a0 a1 a2 a3 a4 s
  | mull a0 a1 a2 a3 a4 => exact execMull_view vw (h _ (nth0 ..)) (h _ (nth1 ..)) (h _ (nth2 ..)) (h _ (nth3 ..)) (h _ (nth4 ..)) (h _ (nth5 ..)) (h _ (nth6 ..)) (h _ (nth7 ..)) (h _ (nth8 ..)) (h _ (nth9 ..)) (h _ (nth10 ..)) a0 a1 a2 a3 a4 s
  | mullu a0 a1 a2 a3 a4 => exact execMullu_view vw (h _ (nth0 ..)) (h _ (nth1 ..)) (h _ (nth2 ..)) (h _ (nth3 ..)) (h _ (nth4 ..)) (h _ (nth5 ..)) (h _ (nth6 ..)) (h _ (nth7 ..)) (h _ (nth8 ..)) (h _ (nth9 ..)) (h _ (nth10 ..)) a0 a1 a2 a3 a4 s
  | div a0 a1 a2 a3 a4 => exact execDiv_view vw (h _ (nth0 ..)) (h _ (nth1 ..)) (h _ (nth2 ..)) (h _ (nth3 ..)) (h _ (nth4 ..)) (h _ (nth5 ..)) (h _ (nth6 ..)) (h _ (nth7 ..)) (h _ (nth8 ..)) (h _ (nth9 ..)) (h _ (nth10 ..)) a0 a1 a2 a3 a4 s
  | divu a0 a1 a2 a3 a4 => exact execDivu_view vw (h _ (nth0 ..)) (h _ (nth1 ..)) (h _ (nth2 ..)) (h _ (nth3 ..)) (h _ (nth4 ..)) (h _ (nth5 ..)) (h _ (nth6 ..)) (h _ (nth7 ..)) (h _ (nth8 ..)) (h _ (nth9 ..)) (h _ (nth10 ..)) a0 a1 a2 a3 a4 s
  | clz a0 a1 a2 a3 => exact execClz_view vw (h _ (nth0 ..)) (h _ (nth1 ..)) (h _ (nth2 ..)) (h _ (nth3 ..)) (h _ (nth4 ..)) (h _ (nth5 ..)) (h _ (nth6 ..)) (h _ (nth7 ..)) (h _ (nth8 ..)) (h _ (nth9 ..)) (h _ (nth10 ..)) a0 a1 a2 a3 s
  | rev a0 a1 a2 a3 => exact execRev_view vw (h _ (nth0 ..)) (h _ (nth1 ..)) (h _ (nth2 ..)) (h _ (nth3 ..)) (h _ (nth4 ..)) (h _ (nth5 ..)) (h _ (nth6 ..)) (h _ (nth7 ..)) (h _ (nth8 ..)) (h _ (nth9 ..)) (h _ (nth10 ..)) a0 a1 a2 a3 s
  | sxb a0 a1 a2 a3 => exact execSxb_view vw (h _ (nth0 ..)) (h _ (nth1 ..)) (h _ (nth2 ..)) (h _ (nth3 ..)) (h _ (nth4 ..)) (h _ (nth5 ..)) (h _ (nth6 ..)) (h _ (nth7 ..)) (h _ (nth8 ..)) (h _ (nth9 ..)) (h _ (nth10 ..)) a0 a1 a2 a3 s
  | sxh a0 a1 a2 a3 => exact execSxh_view vw (h _ (nth0 ..)) (h _ (nth1 ..)) (h _ (nth2 ..)) (h _ (nth3 ..)) (h _ (nth4 ..)) (h _ (nth5 ..)) (h _ (nth6 ..)) (h _ (nth7 ..)) (h _ (nth8 ..)) (h _ (nth9 ..)) (h _ (nth10 ..)) a0 a1 a2 a3 s
  | addi a0 a1 a2 a3 a4 => exact execAddi_view vw (h _ (nth0 ..)) (h _ (nth1 ..)) (h _ (nth2 ..)) (h _ (nth3 ..)) (h _ (nth4 ..)) (h _ (nth5 ..)) (h _ (nth6 ..)) (h _ (nth7 ..)) (h _ (nth8 ..)) (h _ (nth9 ..)) (h _ (nth10 ..)) a0 a1 a2 a3 a4 s
  | subi a0 a1 a2 a3 a4 => exact execSubi_view vw (h _ (nth0 ..)) (h _ (nth1 ..)) (h _ (nth2 ..)) (h _ (nth3 ..)) (h _ (nth4 ..)) (h _ (nth5 ..)) (h _ (nth6 ..)) (h _ (nth7 ..)) (h _ (nth8 ..)) (h _ (nth9 ..)) (h _ (nth10 ..)) a0 a1 a2 a3 a4 s
  | andi a0 a1 a2 a3 a4 => exact execAndi_view vw (h _ (nth0 ..)) (h _ (nth1 ..)) (h _ (nth2 ..)) (h _ (nth3 ..)) (h _ (nth4 ..)) (h _ (nth5 ..)) (h _ (nth6 ..)) (h _ (nth7 ..)) (h _ (nth8 ..)) (h _ (nth9 ..)) (h _ (nth10 ..)) a0 a1 a2 a3 a4 s
  | ori a0 a1 a2 a3 a4 => exact execOri_view vw (h _ (nth0 ..)) (h _ (nth1 ..)) (h _ (nth2 ..)) (h _ (nth3 ..)) (h _ (nth4 ..)) (h _ (nth5 ..)) (h _ (nth6 ..)) (h _ (nth7 ..)) (h _ (nth8 ..)) (h _ (nth9 ..)) (h _ (nth10 ..)) a0 a1 a2 a3 a4 s
  | xori a0 a1 a2 a3 a4 => exact execXori_view vw (h _ (nth0 ..)) (h _ (nth1 ..)) (h _ (nth2 ..)) (h _ (nth3 ..)) (h _ (nth4 ..)) (h _ (nth5 ..)) (h _ (nth6 ..)) (h _ (nth7 ..)) (h _ (nth8 ..)) (h _ (nth9 ..)) (h _ (nth10 ..)) a0 a1 a2 a3 a4 s
  | lsli a0 a1 a2 a3 a4 => exact execLsli_view vw (h _ (nth0 ..)) (h _ (nth1 ..)) (h _ (nth2 ..)) (h _ (nth3 ..)) (h _ (nth4 ..)) (h _ (nth5 ..)) (h _ (nth6 ..)) (h _ (nth7 ..)) (h _ (nth8 ..)) (h _ (nth9 ..)) (h _ (nth10 ..)) a0 a1 a2 a3 a4 s
  | lsri a0 a1 a2 a3 a4 => exact execLsri_view vw (h _ (nth0 ..)) (h _ (nth1 ..)) (h _ (nth2 ..)) (h _ (nth3 ..)) (h _ (nth4 ..)) (h _ (nth5 ..)) (h _ (nth6 ..)) (h _ (nth7 ..)) (h _ (nth8 ..)) (h _ (nth9 ..)) (h _ (nth10 ..)) a0 a1 a2 a3 a4 s
  | asri a0 a1 a2 a3 a4 => exact execAsri_view vw (h _ (nth0 ..)) (h _ (nth1 ..)) (h _ (nth2 ..)) (h _ (nth3 ..)) (h _ (nth4 ..)) (h _ (nth5 ..)) (h _ (nth6 ..)) (h _ (nth7 ..)) (h _ (nth8 ..)) (h _ (nth9 ..)) (h _ (nth10 ..)) a0 a1 a2 a3 a4 s
  | rori a0 a1 a2 a3 a4 => exact execRori_view vw (h _ (nth0 ..)) (h _ (nth1 ..)) (h _ (nth2 ..)) (h _ (nth3 ..)) (h _ (nth4 ..)) (h _ (nth5 ..)) (h _ (nth6 ..)) (h _ (nth7 ..)) (h _ (nth8 ..)) (h _ (nth9 ..)) (h _ (nth10 ..)) a0 a1 a2 a3 a4 s
  | cmpi a0 a1 a2 => exact execCmpi_view vw (h _ (nth0 ..)) (h _ (nth1 ..)) (h _ (nth2 ..)) (h _ (nth3 ..)) (h _ (nth4 ..)) (h _ (nth5 ..)) (h _ (nth6 ..)) (h _ (nth7 ..)) (h _ (nth8 ..)) (h _ (nth9 ..)) (h _ (nth10 ..)) a0 a1 a2 s
  | tsti a0 a1 a2 => exact execTsti_view vw (h _ (nth0 ..)) (h _ (nth1 ..)) (h _ (nth2 ..)) (h _ (nth3 ..)) (h _ (nth4 ..)) (h _ (nth5 ..)) (h _ (nth6 ..)) (h _ (nth7 ..)) (h _ (nth8 ..)) (h _ (nth9 ..)) (h _ (nth10 ..)) a0 a1 a2 s
  | movi a0 a1 a2 => exact execMovi_view vw (h _ (nth0 ..)) (h _ (nth1 ..)) (h _ (nth2 ..)) (h _ (nth3 ..)) (h _ (nth4 ..)) (h _ (nth5 ..)) (h _ (nth6 ..)) (h _ (nth7 ..)) (h _ (nth8 ..)) (h _ (nth9 ..)) (h _ (nth10 ..)) a0 a1 a2 s
  | movn a0 a1 a2 => exact execMovn_view vw (h _ (nth0 ..)) (h _ (nth1 ..)) (h _ (nth2 ..)) (h _ (nth3 ..)) (h _ (nth4 ..)) (h _ (nth5 ..)) (h _ (nth6 ..)) (h _ (nth7 ..)) (h _ (nth8 ..)) (h _ (nth9 ..)) (h _ (nth10 ..)) a0 a1 a2 s
  | movhi a0 a1 a2 => exact execMovhi_view vw (h _ (nth0 ..)) (h _ (nth1 ..)) (h _ (nth2 ..)) (h _ (nth3 ..)) (h _ (nth4 ..)) (h _ (nth5 ..)) (h _ (nth6 ..)) (h _ (nth7 ..)) (h _ (nth8 ..)) (h _ (nth9 ..)) (h _ (nth10 ..)) a0 a1 a2 s
  | ld a0 a1 a2 a3 a4 a5 => exact execLd_view vw (h _ (nth0 ..)) (h _ (nth1 ..)) (h _ (nth2 ..)) (h _ (nth3 ..)) (h _ (nth4 ..)) (h _ (nth5 ..)) (h _ (nth6 ..)) (h _ (nth7 ..)) (h _ (nth8 ..)) (h _ (nth9 ..)) (h _ (nth10 ..)) (h _ (nth11 ..)) (h _ (nth12 ..)) (h _ (nth13 ..)) a0 a1 a2 a3 a4 a5 s
  | st a0 a1 a2 a3 a4 => exact execSt_view vw (h _ (nth0 ..)) (h _ (nth1 ..)) (h _ (nth2 ..)) (h _ (nth3 ..)) (h _ (nth4 ..)) (h _ (nth5 ..)) (h _ (nth6 ..)) (h _ (nth7 ..)) (h _ (nth8 ..)) (h _ (nth9 ..)) (h _ (nth10 ..)) (h _ (nth11 ..)) (h _ (nth12 ..)) (h _ (nth13 ..)) (h _ (nth14 ..)) (h _ (nth15 ..)) (h _ (nth16 ..)) (h _ (nth17 ..)) (h _ (nth18 ..)) (h _ (nth19 ..)) (h _ (nth20 ..)) (h _ (nth21 ..)) (h _ (nth22 ..)) (h _ (nth23 ..)) (h _ (nth24 ..)) (h _ (nth25 ..)) (h _ (nth26 ..)) (h _ (nth27 ..)) (h _ (nth28 ..)) (h _ (nth29 ..)) (h _ (nth30 ..)) a0 a1 a2 a3 a4 s
  | cmpm a0 a1 a2 a3 => exact execCmpm_view vw (h _ (nth0 ..)) (h _ (nth1 ..)) (h _ (nth2 ..)) (h _ (nth3 ..)) (h _ (nth4 ..)) (h _ (nth5 ..)) (h _ (nth6 ..)) (h _ (nth7 ..)) (h _ (nth8 ..)) (h _ (nth9 ..)) (h _ (nth10 ..)) (h _ (nth11 ..)) (h _ (nth12 ..)) (h _ (nth13 ..)) a0 a1 a2 a3 s
  | tstm a0 a1 a2 a3 => exact execTstm_view vw (h _ (nth0 ..)) (h _ (nth1 ..)) (h _ (nth2 ..)) (h _ (nth3 ..)) (h _ (nth4 ..)) (h _ (nth5 ..)) (h _ (nth6 ..)) (h _ (nth7 ..)) (h _ (nth8 ..)) (h _ (nth9 ..)) (h _ (nth10 ..)) (h _ (nth11 ..)) (h _ (nth12 ..)) (h _ (nth13 ..)) a0 a1 a2 a3 s
  | b a0 a1 => exact execB_view vw (h _ (nth0 ..)) (h _ (nth1 ..)) (h _ (nth2 ..)) (h _ (nth3 ..)) (h _ (nth4 ..)) (h _ (nth5 ..)) (h _ (nth6 ..)) (h _ (nth7 ..)) (h _ (nth8 ..)) (h _ (nth9 ..)) (h _ (nth10 ..)) a0 a1 s
  | bl a0 a1 => exact execBl_view vw (h _ (nth0 ..)) (h _ (nth1 ..)) (h _ (nth2 ..)) (h _ (nth3 ..)) (h _ (nth4 ..)) (h _ (nth5 ..)) (h _ (nth6 ..)) (h _ (nth7 ..)) (h _ (nth8 ..)) (h _ (nth9 ..)) (h _ (nth10 ..)) a0 a1 s
  | nop a0 a1 => exact execNop_view vw (h _ (nth0 ..)) (h _ (nth1 ..)) (h _ (nth2 ..)) (h _ (nth3 ..)) (h _ (nth4 ..)) (h _ (nth5 ..)) (h _ (nth6 ..)) (h _ (nth7 ..)) (h _ (nth8 ..)) (h _ (nth9 ..)) (h _ (nth10 ..)) a0 a1 s
  | jr a0 a1 => exact execJr_view vw (h _ (nth0 ..)) (h _ (nth1 ..)) (h _ (nth2 ..)) (h _ (nth3 ..)) (h _ (nth4 ..)) (h _ (nth5 ..)) (h _ (nth6 ..)) (h _ (nth7 ..)) (h _ (nth8 ..)) (h _ (nth9 ..)) (h _ (nth10 ..)) a0 a1 s
  | jlr a0 a1 a2 => exact execJlr_view vw (h _ (nth0 ..)) (h _ (nth1 ..)) (h _ (nth2 ..)) (h _ (nth3 ..)) (h _ (nth4 ..)) (h _ (nth5 ..)) (h _ (nth6 ..)) (h _ (nth7 ..)) (h _ (nth8 ..)) (h _ (nth9 ..)) (h _ (nth10 ..)) a0 a1 a2 s
  | mfs a0 a1 a2 => exact execMfs_view vw (h _ (nth0 ..)) (h _ (nth1 ..)) (h _ (nth2 ..)) (h _ (nth3 ..)) (h _ (nth4 ..)) (h _ (nth5 ..)) (h _ (nth6 ..)) (h _ (nth7 ..)) (h _ (nth8 ..)) (h _ (nth9 ..)) (h _ (nth10 ..)) a0 a1 a2 s
  | mts a0 a1 a2 => exact execMts_view vw (h _ (nth0 ..)) (h _ (nth1 ..)) (h _ (nth2 ..)) (h _ (nth3 ..)) (h _ (nth4 ..)) (h _ (nth5 ..)) (h _ (nth6 ..)) (h _ (nth7 ..)) (h _ (nth8 ..)) (h _ (nth9 ..)) (h _ (nth10 ..)) a0 a1 a2 s
  | rete a0 => exact execRete_view vw (h _ (nth0 ..)) (h _ (nth1 ..)) (h _ (nth2 ..)) (h _ (nth3 ..)) (h _ (nth4 ..)) (h _ (nth5 ..)) (h _ (nth6 ..)) (h _ (nth7 ..)) (h _ (nth8 ..)) (h _ (nth9 ..)) (h _ (nth10 ..)) a0 s
  | fli a0 a1 => exact execFli_view vw (h _ (nth0 ..)) (h _ (nth1 ..)) (h _ (nth2 ..)) (h _ (nth3 ..)) (h _ (nth4 ..)) (h _ (nth5 ..)) (h _ (nth6 ..)) (h _ (nth7 ..)) (h _ (nth8 ..)) (h _ (nth9 ..)) (h _ (nth10 ..)) a0 a1 s
  | fence a0 => exact execFence_view vw (h _ (nth0 ..)) (h _ (nth1 ..)) (h _ (nth2 ..)) (h _ (nth3 ..)) (h _ (nth4 ..)) (h _ (nth5 ..)) (h _ (nth6 ..)) (h _ (nth7 ..)) (h _ (nth8 ..)) (h _ (nth9 ..)) (h _ (nth10 ..)) a0 s
  | wait a0 => exact execWait_view vw (h _ (nth0 ..)) (h _ (nth1 ..)) (h _ (nth2 ..)) (h _ (nth3 ..)) (h _ (nth4 ..)) (h _ (nth5 ..)) (h _ (nth6 ..)) (h _ (nth7 ..)) (h _ (nth8 ..)) (h _ (nth9 ..)) (h _ (nth10 ..)) a0 s
  | waitWake a0 => exact execWaitWake_view vw (h _ (nth0 ..)) (h _ (nth1 ..)) (h _ (nth2 ..)) (h _ (nth3 ..)) (h _ (nth4 ..)) (h _ (nth5 ..)) (h _ (nth6 ..)) (h _ (nth7 ..)) (h _ (nth8 ..)) (h _ (nth9 ..)) (h _ (nth10 ..)) (h _ (nth11 ..)) a0 s
  | svc a0 a1 => exact execSvc_view vw (h _ (nth0 ..)) (h _ (nth1 ..)) (h _ (nth2 ..)) (h _ (nth3 ..)) (h _ (nth4 ..)) (h _ (nth5 ..)) (h _ (nth6 ..)) (h _ (nth7 ..)) (h _ (nth8 ..)) (h _ (nth9 ..)) (h _ (nth10 ..)) a0 a1 s
  | rep a0 a1 a2 => exact execRep_view vw (h _ (nth0 ..)) (h _ (nth1 ..)) (h _ (nth2 ..)) (h _ (nth3 ..)) (h _ (nth4 ..)) (h _ (nth5 ..)) (h _ (nth6 ..)) (h _ (nth7 ..)) (h _ (nth8 ..)) (h _ (nth9 ..)) (h _ (nth10 ..)) a0 a1 a2 s
  | repl a0 a1 a2 => exact execRepl_view vw (h _ (nth0 ..)) (h _ (nth1 ..)) (h _ (nth2 ..)) (h _ (nth3 ..)) (h _ (nth4 ..)) (h _ (nth5 ..)) (h _ (nth6 ..)) (h _ (nth7 ..)) (h _ (nth8 ..)) (h _ (nth9 ..)) (h _ (nth10 ..)) a0 a1 a2 s
  | loop a0 a1 a2 => exact execLoop_view vw (h _ (nth0 ..)) (h _ (nth1 ..)) (h _ (nth2 ..)) (h _ (nth3 ..)) (h _ (nth4 ..)) (h _ (nth5 ..)) (h _ (nth6 ..)) (h _ (nth7 ..)) (h _ (nth8 ..)) (h _ (nth9 ..)) (h _ (nth10 ..)) a0 a1 a2 s
  | bcopy a0 a1 a2 a3 => exact execBcopy_view vw (h _ (nth0 ..)) (h _ (nth1 ..)) (h _ (nth2 ..)) (h _ (nth3 ..)) (h _ (nth4 ..)) (h _ (nth5 ..)) (h _ (nth6 ..)) (h _ (nth7 ..)) (h _ (nth8 ..)) (h _ (nth9 ..)) (h _ (nth10 ..)) (h _ (nth11 ..)) (h _ (nth12 ..)) (h _ (nth13 ..)) (h _ (nth14 ..)) (h _ (nth15 ..)) (h _ (nth16 ..)) (h _ (nth17 ..)) (h _ (nth18 ..)) (h _ (nth19 ..)) (h _ (nth20 ..)) (h _ (nth21 ..)) (h _ (nth22 ..)) (h _ (nth23 ..)) (h _ (nth24 ..)) (h _ (nth25 ..)) (h _ (nth26 ..)) (h _ (nth27 ..)) (h _ (nth28 ..)) (h _ (nth29 ..)) (h _ (nth30 ..)) a0 a1 a2 a3 s
  | bfill a0 a1 a2 a3 => exact execBfill_view vw (h _ (nth0 ..)) (h _ (nth1 ..)) (h _ (nth2 ..)) (h _ (nth3 ..)) (h _ (nth4 ..)) (h _ (nth5 ..)) (h _ (nth6 ..)) (h _ (nth7 ..)) (h _ (nth8 ..)) (h _ (nth9 ..)) (h _ (nth10 ..)) (h _ (nth11 ..)) (h _ (nth12 ..)) (h _ (nth13 ..)) (h _ (nth14 ..)) (h _ (nth15 ..)) (h _ (nth16 ..)) (h _ (nth17 ..)) (h _ (nth18 ..)) (h _ (nth19 ..)) (h _ (nth20 ..)) (h _ (nth21 ..)) (h _ (nth22 ..)) (h _ (nth23 ..)) (h _ (nth24 ..)) (h _ (nth25 ..)) (h _ (nth26 ..)) (h _ (nth27 ..)) (h _ (nth28 ..)) (h _ (nth29 ..)) (h _ (nth30 ..)) a0 a1 a2 a3 s
  | crcb a0 a1 a2 a3 => exact execCrcb_view vw (h _ (nth0 ..)) (h _ (nth1 ..)) (h _ (nth2 ..)) (h _ (nth3 ..)) (h _ (nth4 ..)) (h _ (nth5 ..)) (h _ (nth6 ..)) (h _ (nth7 ..)) (h _ (nth8 ..)) (h _ (nth9 ..)) (h _ (nth10 ..)) (h _ (nth11 ..)) (h _ (nth12 ..)) (h _ (nth13 ..)) a0 a1 a2 a3 s
  | tstep a0 a1 a2 a3 => exact execTstep_view vw (h _ (nth0 ..)) (h _ (nth1 ..)) (h _ (nth2 ..)) (h _ (nth3 ..)) (h _ (nth4 ..)) (h _ (nth5 ..)) (h _ (nth6 ..)) (h _ (nth7 ..)) (h _ (nth8 ..)) (h _ (nth9 ..)) (h _ (nth10 ..)) (h _ (nth11 ..)) (h _ (nth12 ..)) (h _ (nth13 ..)) a0 a1 a2 a3 s
  | interruptDelivery a0 a1 a2 => exact execInterruptDelivery_view vw (h _ (nth0 ..)) (h _ (nth1 ..)) (h _ (nth2 ..)) (h _ (nth3 ..)) (h _ (nth4 ..)) (h _ (nth5 ..)) (h _ (nth6 ..)) (h _ (nth7 ..)) (h _ (nth8 ..)) (h _ (nth9 ..)) (h _ (nth10 ..)) (h _ (nth11 ..)) a0 a1 a2 s
  | coreVbaseWrite a0 a1 => exact execCoreVbaseWrite_view vw (h _ (nth0 ..)) (h _ (nth1 ..)) (h _ (nth2 ..)) (h _ (nth3 ..)) (h _ (nth4 ..)) (h _ (nth5 ..)) (h _ (nth6 ..)) a0 a1 s
  | lineFill a0 a1 a2 => exact execLineFill_view vw (h _ (nth0 ..)) (h _ (nth1 ..)) a0 a1 a2 s
  | thrCtxWrite a0 a1 a2 a3 a4 => exact execThrCtxWrite_view vw (h _ (nth0 ..)) (h _ (nth1 ..)) (h _ (nth2 ..)) (h _ (nth3 ..)) (h _ (nth4 ..)) (h _ (nth5 ..)) (h _ (nth6 ..)) a0 a1 a2 a3 a4 s
  | submitCommit a0 a1 a2 => exact execSubmitCommit_view vw (h _ (nth0 ..)) (h _ (nth1 ..)) (h _ (nth2 ..)) (h _ (nth3 ..)) (h _ (nth4 ..)) (h _ (nth5 ..)) (h _ (nth6 ..)) (h _ (nth7 ..)) (h _ (nth8 ..)) (h _ (nth9 ..)) a0 a1 a2 s
  | outHeadWrite a0 a1 a2 => exact execOutHeadWrite_view vw (h _ (nth0 ..)) (h _ (nth1 ..)) (h _ (nth2 ..)) (h _ (nth3 ..)) (h _ (nth4 ..)) (h _ (nth5 ..)) a0 a1 a2 s
  | doorbellInWrite a0 a1 a2 => exact execDoorbellInWrite_view vw (h _ (nth0 ..)) (h _ (nth1 ..)) (h _ (nth2 ..)) (h _ (nth3 ..)) (h _ (nth4 ..)) (h _ (nth5 ..)) (h _ (nth6 ..)) a0 a1 a2 s
  | outMaskWrite a0 a1 a2 => exact execOutMaskWrite_view vw (h _ (nth0 ..)) (h _ (nth1 ..)) (h _ (nth2 ..)) (h _ (nth3 ..)) (h _ (nth4 ..)) (h _ (nth5 ..)) (h _ (nth6 ..)) a0 a1 a2 s
  | clOutboxWrite a0 a1 a2 => exact execClOutboxWrite_view vw (h _ (nth0 ..)) (h _ (nth1 ..)) (h _ (nth2 ..)) (h _ (nth3 ..)) (h _ (nth4 ..)) (h _ (nth5 ..)) (h _ (nth6 ..)) (h _ (nth7 ..)) a0 a1 a2 s
  | kysanNop a0 => exact execKysanNop_view vw (h _ (nth0 ..)) (h _ (nth1 ..)) (h _ (nth2 ..)) (h _ (nth3 ..)) (h _ (nth4 ..)) (h _ (nth5 ..)) (h _ (nth6 ..)) (h _ (nth7 ..)) (h _ (nth8 ..)) (h _ (nth9 ..)) (h _ (nth10 ..)) (h _ (nth11 ..)) (h _ (nth12 ..)) (h _ (nth13 ..)) (h _ (nth14 ..)) (h _ (nth15 ..)) (h _ (nth16 ..)) a0 s
  | identify a0 => exact execIdentify_view vw (h _ (nth0 ..)) (h _ (nth1 ..)) (h _ (nth2 ..)) (h _ (nth3 ..)) (h _ (nth4 ..)) (h _ (nth5 ..)) (h _ (nth6 ..)) (h _ (nth7 ..)) (h _ (nth8 ..)) (h _ (nth9 ..)) (h _ (nth10 ..)) (h _ (nth11 ..)) (h _ (nth12 ..)) (h _ (nth13 ..)) (h _ (nth14 ..)) (h _ (nth15 ..)) (h _ (nth16 ..)) a0 s
  | tenantStatus a0 => exact execTenantStatus_view vw (h _ (nth0 ..)) (h _ (nth1 ..)) (h _ (nth2 ..)) (h _ (nth3 ..)) (h _ (nth4 ..)) (h _ (nth5 ..)) (h _ (nth6 ..)) (h _ (nth7 ..)) (h _ (nth8 ..)) (h _ (nth9 ..)) (h _ (nth10 ..)) (h _ (nth11 ..)) (h _ (nth12 ..)) (h _ (nth13 ..)) (h _ (nth14 ..)) (h _ (nth15 ..)) (h _ (nth16 ..)) a0 s
  | deviceQuery a0 => exact execDeviceQuery_view vw (h _ (nth0 ..)) (h _ (nth1 ..)) (h _ (nth2 ..)) (h _ (nth3 ..)) (h _ (nth4 ..)) (h _ (nth5 ..)) (h _ (nth6 ..)) (h _ (nth7 ..)) (h _ (nth8 ..)) (h _ (nth9 ..)) (h _ (nth10 ..)) (h _ (nth11 ..)) (h _ (nth12 ..)) (h _ (nth13 ..)) (h _ (nth14 ..)) (h _ (nth15 ..)) (h _ (nth16 ..)) a0 s
  | bind a0 => exact execBind_view vw (h _ (nth0 ..)) (h _ (nth1 ..)) (h _ (nth2 ..)) (h _ (nth3 ..)) (h _ (nth4 ..)) (h _ (nth5 ..)) (h _ (nth6 ..)) (h _ (nth7 ..)) (h _ (nth8 ..)) (h _ (nth9 ..)) (h _ (nth10 ..)) (h _ (nth11 ..)) (h _ (nth12 ..)) (h _ (nth13 ..)) (h _ (nth14 ..)) (h _ (nth15 ..)) (h _ (nth16 ..)) a0 s
  | unbind a0 => exact execUnbind_view vw (h _ (nth0 ..)) (h _ (nth1 ..)) (h _ (nth2 ..)) (h _ (nth3 ..)) (h _ (nth4 ..)) (h _ (nth5 ..)) (h _ (nth6 ..)) (h _ (nth7 ..)) (h _ (nth8 ..)) (h _ (nth9 ..)) (h _ (nth10 ..)) (h _ (nth11 ..)) (h _ (nth12 ..)) (h _ (nth13 ..)) (h _ (nth14 ..)) (h _ (nth15 ..)) (h _ (nth16 ..)) a0 s
  | dataSend a0 => exact execDataSend_view vw (h _ (nth0 ..)) (h _ (nth1 ..)) (h _ (nth2 ..)) (h _ (nth3 ..)) (h _ (nth4 ..)) (h _ (nth5 ..)) (h _ (nth6 ..)) (h _ (nth7 ..)) (h _ (nth8 ..)) (h _ (nth9 ..)) (h _ (nth10 ..)) (h _ (nth11 ..)) (h _ (nth12 ..)) (h _ (nth13 ..)) (h _ (nth14 ..)) (h _ (nth15 ..)) (h _ (nth16 ..)) a0 s
  | tenantReset a0 => exact execTenantReset_view vw (h _ (nth0 ..)) (h _ (nth1 ..)) (h _ (nth2 ..)) (h _ (nth3 ..)) (h _ (nth4 ..)) (h _ (nth5 ..)) (h _ (nth6 ..)) (h _ (nth7 ..)) (h _ (nth8 ..)) (h _ (nth9 ..)) (h _ (nth10 ..)) (h _ (nth11 ..)) (h _ (nth12 ..)) (h _ (nth13 ..)) (h _ (nth14 ..)) (h _ (nth15 ..)) (h _ (nth16 ..)) a0 s
  | clearDegraded a0 => exact execClearDegraded_view vw (h _ (nth0 ..)) (h _ (nth1 ..)) (h _ (nth2 ..)) (h _ (nth3 ..)) (h _ (nth4 ..)) (h _ (nth5 ..)) (h _ (nth6 ..)) (h _ (nth7 ..)) (h _ (nth8 ..)) (h _ (nth9 ..)) (h _ (nth10 ..)) (h _ (nth11 ..)) (h _ (nth12 ..)) (h _ (nth13 ..)) (h _ (nth14 ..)) (h _ (nth15 ..)) (h _ (nth16 ..)) a0 s
  | loadClear a0 => exact execLoadClear_view vw (h _ (nth0 ..)) (h _ (nth1 ..)) (h _ (nth2 ..)) (h _ (nth3 ..)) (h _ (nth4 ..)) (h _ (nth5 ..)) (h _ (nth6 ..)) (h _ (nth7 ..)) (h _ (nth8 ..)) (h _ (nth9 ..)) (h _ (nth10 ..)) (h _ (nth11 ..)) (h _ (nth12 ..)) (h _ (nth13 ..)) (h _ (nth14 ..)) (h _ (nth15 ..)) (h _ (nth16 ..)) a0 s
  | scannerEnable a0 => exact execScannerEnable_view vw (h _ (nth0 ..)) (h _ (nth1 ..)) (h _ (nth2 ..)) (h _ (nth3 ..)) (h _ (nth4 ..)) (h _ (nth5 ..)) (h _ (nth6 ..)) (h _ (nth7 ..)) (h _ (nth8 ..)) (h _ (nth9 ..)) (h _ (nth10 ..)) (h _ (nth11 ..)) (h _ (nth12 ..)) (h _ (nth13 ..)) (h _ (nth14 ..)) (h _ (nth15 ..)) (h _ (nth16 ..)) a0 s
  | scannerDisable a0 => exact execScannerDisable_view vw (h _ (nth0 ..)) (h _ (nth1 ..)) (h _ (nth2 ..)) (h _ (nth3 ..)) (h _ (nth4 ..)) (h _ (nth5 ..)) (h _ (nth6 ..)) (h _ (nth7 ..)) (h _ (nth8 ..)) (h _ (nth9 ..)) (h _ (nth10 ..)) (h _ (nth11 ..)) (h _ (nth12 ..)) (h _ (nth13 ..)) (h _ (nth14 ..)) (h _ (nth15 ..)) (h _ (nth16 ..)) a0 s
  | scannerBeep a0 => exact execScannerBeep_view vw (h _ (nth0 ..)) (h _ (nth1 ..)) (h _ (nth2 ..)) (h _ (nth3 ..)) (h _ (nth4 ..)) (h _ (nth5 ..)) (h _ (nth6 ..)) (h _ (nth7 ..)) (h _ (nth8 ..)) (h _ (nth9 ..)) (h _ (nth10 ..)) (h _ (nth11 ..)) (h _ (nth12 ..)) (h _ (nth13 ..)) (h _ (nth14 ..)) (h _ (nth15 ..)) (h _ (nth16 ..)) a0 s
  | units a0 => exact execUnits_view vw (h _ (nth0 ..)) (h _ (nth1 ..)) (h _ (nth2 ..)) (h _ (nth3 ..)) (h _ (nth4 ..)) (h _ (nth5 ..)) (h _ (nth6 ..)) (h _ (nth7 ..)) (h _ (nth8 ..)) (h _ (nth9 ..)) (h _ (nth10 ..)) (h _ (nth11 ..)) (h _ (nth12 ..)) (h _ (nth13 ..)) (h _ (nth14 ..)) (h _ (nth15 ..)) (h _ (nth16 ..)) a0 s
  | tare a0 => exact execTare_view vw (h _ (nth0 ..)) (h _ (nth1 ..)) (h _ (nth2 ..)) (h _ (nth3 ..)) (h _ (nth4 ..)) (h _ (nth5 ..)) (h _ (nth6 ..)) (h _ (nth7 ..)) (h _ (nth8 ..)) (h _ (nth9 ..)) (h _ (nth10 ..)) (h _ (nth11 ..)) (h _ (nth12 ..)) (h _ (nth13 ..)) (h _ (nth14 ..)) (h _ (nth15 ..)) (h _ (nth16 ..)) a0 s
  | zero a0 => exact execZero_view vw (h _ (nth0 ..)) (h _ (nth1 ..)) (h _ (nth2 ..)) (h _ (nth3 ..)) (h _ (nth4 ..)) (h _ (nth5 ..)) (h _ (nth6 ..)) (h _ (nth7 ..)) (h _ (nth8 ..)) (h _ (nth9 ..)) (h _ (nth10 ..)) (h _ (nth11 ..)) (h _ (nth12 ..)) (h _ (nth13 ..)) (h _ (nth14 ..)) (h _ (nth15 ..)) (h _ (nth16 ..)) a0 s
  | weigh a0 => exact execWeigh_view vw (h _ (nth0 ..)) (h _ (nth1 ..)) (h _ (nth2 ..)) (h _ (nth3 ..)) (h _ (nth4 ..)) (h _ (nth5 ..)) (h _ (nth6 ..)) (h _ (nth7 ..)) (h _ (nth8 ..)) (h _ (nth9 ..)) (h _ (nth10 ..)) (h _ (nth11 ..)) (h _ (nth12 ..)) (h _ (nth13 ..)) (h _ (nth14 ..)) (h _ (nth15 ..)) (h _ (nth16 ..)) a0 s
  | text a0 => exact execText_view vw (h _ (nth0 ..)) (h _ (nth1 ..)) (h _ (nth2 ..)) (h _ (nth3 ..)) (h _ (nth4 ..)) (h _ (nth5 ..)) (h _ (nth6 ..)) (h _ (nth7 ..)) (h _ (nth8 ..)) (h _ (nth9 ..)) (h _ (nth10 ..)) (h _ (nth11 ..)) (h _ (nth12 ..)) (h _ (nth13 ..)) (h _ (nth14 ..)) (h _ (nth15 ..)) (h _ (nth16 ..)) a0 s
  | brightness a0 => exact execBrightness_view vw (h _ (nth0 ..)) (h _ (nth1 ..)) (h _ (nth2 ..)) (h _ (nth3 ..)) (h _ (nth4 ..)) (h _ (nth5 ..)) (h _ (nth6 ..)) (h _ (nth7 ..)) (h _ (nth8 ..)) (h _ (nth9 ..)) (h _ (nth10 ..)) (h _ (nth11 ..)) (h _ (nth12 ..)) (h _ (nth13 ..)) (h _ (nth14 ..)) (h _ (nth15 ..)) (h _ (nth16 ..)) a0 s
  | cursor a0 => exact execCursor_view vw (h _ (nth0 ..)) (h _ (nth1 ..)) (h _ (nth2 ..)) (h _ (nth3 ..)) (h _ (nth4 ..)) (h _ (nth5 ..)) (h _ (nth6 ..)) (h _ (nth7 ..)) (h _ (nth8 ..)) (h _ (nth9 ..)) (h _ (nth10 ..)) (h _ (nth11 ..)) (h _ (nth12 ..)) (h _ (nth13 ..)) (h _ (nth14 ..)) (h _ (nth15 ..)) (h _ (nth16 ..)) a0 s
  | attention a0 => exact execAttention_view vw (h _ (nth0 ..)) (h _ (nth1 ..)) (h _ (nth2 ..)) (h _ (nth3 ..)) (h _ (nth4 ..)) (h _ (nth5 ..)) (h _ (nth6 ..)) (h _ (nth7 ..)) (h _ (nth8 ..)) (h _ (nth9 ..)) (h _ (nth10 ..)) (h _ (nth11 ..)) (h _ (nth12 ..)) (h _ (nth13 ..)) (h _ (nth14 ..)) (h _ (nth15 ..)) (h _ (nth16 ..)) a0 s
  | drawerKick a0 => exact execDrawerKick_view vw (h _ (nth0 ..)) (h _ (nth1 ..)) (h _ (nth2 ..)) (h _ (nth3 ..)) (h _ (nth4 ..)) (h _ (nth5 ..)) (h _ (nth6 ..)) (h _ (nth7 ..)) (h _ (nth8 ..)) (h _ (nth9 ..)) (h _ (nth10 ..)) (h _ (nth11 ..)) (h _ (nth12 ..)) (h _ (nth13 ..)) (h _ (nth14 ..)) (h _ (nth15 ..)) (h _ (nth16 ..)) a0 s
  | codepage a0 => exact execCodepage_view vw (h _ (nth0 ..)) (h _ (nth1 ..)) (h _ (nth2 ..)) (h _ (nth3 ..)) (h _ (nth4 ..)) (h _ (nth5 ..)) (h _ (nth6 ..)) (h _ (nth7 ..)) (h _ (nth8 ..)) (h _ (nth9 ..)) (h _ (nth10 ..)) (h _ (nth11 ..)) (h _ (nth12 ..)) (h _ (nth13 ..)) (h _ (nth14 ..)) (h _ (nth15 ..)) (h _ (nth16 ..)) a0 s
  | density a0 => exact execDensity_view vw (h _ (nth0 ..)) (h _ (nth1 ..)) (h _ (nth2 ..)) (h _ (nth3 ..)) (h _ (nth4 ..)) (h _ (nth5 ..)) (h _ (nth6 ..)) (h _ (nth7 ..)) (h _ (nth8 ..)) (h _ (nth9 ..)) (h _ (nth10 ..)) (h _ (nth11 ..)) (h _ (nth12 ..)) (h _ (nth13 ..)) (h _ (nth14 ..)) (h _ (nth15 ..)) (h _ (nth16 ..)) a0 s
  | printSeg a0 => exact execPrintSeg_view vw (h _ (nth0 ..)) (h _ (nth1 ..)) (h _ (nth2 ..)) (h _ (nth3 ..)) (h _ (nth4 ..)) (h _ (nth5 ..)) (h _ (nth6 ..)) (h _ (nth7 ..)) (h _ (nth8 ..)) (h _ (nth9 ..)) (h _ (nth10 ..)) (h _ (nth11 ..)) (h _ (nth12 ..)) (h _ (nth13 ..)) (h _ (nth14 ..)) (h _ (nth15 ..)) (h _ (nth16 ..)) a0 s
  | cut a0 => exact execCut_view vw (h _ (nth0 ..)) (h _ (nth1 ..)) (h _ (nth2 ..)) (h _ (nth3 ..)) (h _ (nth4 ..)) (h _ (nth5 ..)) (h _ (nth6 ..)) (h _ (nth7 ..)) (h _ (nth8 ..)) (h _ (nth9 ..)) (h _ (nth10 ..)) (h _ (nth11 ..)) (h _ (nth12 ..)) (h _ (nth13 ..)) (h _ (nth14 ..)) (h _ (nth15 ..)) (h _ (nth16 ..)) a0 s
  | logo a0 => exact execLogo_view vw (h _ (nth0 ..)) (h _ (nth1 ..)) (h _ (nth2 ..)) (h _ (nth3 ..)) (h _ (nth4 ..)) (h _ (nth5 ..)) (h _ (nth6 ..)) (h _ (nth7 ..)) (h _ (nth8 ..)) (h _ (nth9 ..)) (h _ (nth10 ..)) (h _ (nth11 ..)) (h _ (nth12 ..)) (h _ (nth13 ..)) (h _ (nth14 ..)) (h _ (nth15 ..)) (h _ (nth16 ..)) a0 s
  | pattern a0 => exact execPattern_view vw (h _ (nth0 ..)) (h _ (nth1 ..)) (h _ (nth2 ..)) (h _ (nth3 ..)) (h _ (nth4 ..)) (h _ (nth5 ..)) (h _ (nth6 ..)) (h _ (nth7 ..)) (h _ (nth8 ..)) (h _ (nth9 ..)) (h _ (nth10 ..)) (h _ (nth11 ..)) (h _ (nth12 ..)) (h _ (nth13 ..)) (h _ (nth14 ..)) (h _ (nth15 ..)) (h _ (nth16 ..)) a0 s
  | keyLeds a0 => exact execKeyLeds_view vw (h _ (nth0 ..)) (h _ (nth1 ..)) (h _ (nth2 ..)) (h _ (nth3 ..)) (h _ (nth4 ..)) (h _ (nth5 ..)) (h _ (nth6 ..)) (h _ (nth7 ..)) (h _ (nth8 ..)) (h _ (nth9 ..)) (h _ (nth10 ..)) (h _ (nth11 ..)) (h _ (nth12 ..)) (h _ (nth13 ..)) (h _ (nth14 ..)) (h _ (nth15 ..)) (h _ (nth16 ..)) a0 s
  | keyLock a0 => exact execKeyLock_view vw (h _ (nth0 ..)) (h _ (nth1 ..)) (h _ (nth2 ..)) (h _ (nth3 ..)) (h _ (nth4 ..)) (h _ (nth5 ..)) (h _ (nth6 ..)) (h _ (nth7 ..)) (h _ (nth8 ..)) (h _ (nth9 ..)) (h _ (nth10 ..)) (h _ (nth11 ..)) (h _ (nth12 ..)) (h _ (nth13 ..)) (h _ (nth14 ..)) (h _ (nth15 ..)) (h _ (nth16 ..)) a0 s
  | keypadBeep a0 => exact execKeypadBeep_view vw (h _ (nth0 ..)) (h _ (nth1 ..)) (h _ (nth2 ..)) (h _ (nth3 ..)) (h _ (nth4 ..)) (h _ (nth5 ..)) (h _ (nth6 ..)) (h _ (nth7 ..)) (h _ (nth8 ..)) (h _ (nth9 ..)) (h _ (nth10 ..)) (h _ (nth11 ..)) (h _ (nth12 ..)) (h _ (nth13 ..)) (h _ (nth14 ..)) (h _ (nth15 ..)) (h _ (nth16 ..)) a0 s
  | tenantConfig a0 => exact execTenantConfig_view vw (h _ (nth0 ..)) (h _ (nth1 ..)) (h _ (nth2 ..)) (h _ (nth3 ..)) (h _ (nth4 ..)) (h _ (nth5 ..)) (h _ (nth6 ..)) (h _ (nth7 ..)) (h _ (nth8 ..)) (h _ (nth9 ..)) (h _ (nth10 ..)) (h _ (nth11 ..)) (h _ (nth12 ..)) (h _ (nth13 ..)) (h _ (nth14 ..)) (h _ (nth15 ..)) (h _ (nth16 ..)) a0 s
  | adminTenantReset a0 => exact execAdminTenantReset_view vw (h _ (nth0 ..)) (h _ (nth1 ..)) (h _ (nth2 ..)) (h _ (nth3 ..)) (h _ (nth4 ..)) (h _ (nth5 ..)) (h _ (nth6 ..)) (h _ (nth7 ..)) (h _ (nth8 ..)) (h _ (nth9 ..)) (h _ (nth10 ..)) (h _ (nth11 ..)) (h _ (nth12 ..)) (h _ (nth13 ..)) (h _ (nth14 ..)) (h _ (nth15 ..)) a0 s
  | tenantResetGo a0 a1 => exact execTenantResetGo_view vw (h _ (nth0 ..)) (h _ (nth1 ..)) (h _ (nth2 ..)) (h _ (nth3 ..)) (h _ (nth4 ..)) (h _ (nth5 ..)) (h _ (nth6 ..)) (h _ (nth7 ..)) (h _ (nth8 ..)) (h _ (nth9 ..)) (h _ (nth10 ..)) (h _ (nth11 ..)) (h _ (nth12 ..)) (h _ (nth13 ..)) (h _ (nth14 ..)) a0 a1 s
  | tenantResetComplete a0 => exact execTenantResetComplete_view vw (h _ (nth0 ..)) (h _ (nth1 ..)) (h _ (nth2 ..)) (h _ (nth3 ..)) (h _ (nth4 ..)) (h _ (nth5 ..)) (h _ (nth6 ..)) (h _ (nth7 ..)) (h _ (nth8 ..)) (h _ (nth9 ..)) a0 s
  | portDefine a0 => exact execPortDefine_view vw (h _ (nth0 ..)) (h _ (nth1 ..)) (h _ (nth2 ..)) (h _ (nth3 ..)) (h _ (nth4 ..)) (h _ (nth5 ..)) (h _ (nth6 ..)) (h _ (nth7 ..)) (h _ (nth8 ..)) (h _ (nth9 ..)) (h _ (nth10 ..)) (h _ (nth11 ..)) a0 s
  | portRemove a0 => exact execPortRemove_view vw (h _ (nth0 ..)) (h _ (nth1 ..)) (h _ (nth2 ..)) (h _ (nth3 ..)) (h _ (nth4 ..)) (h _ (nth5 ..)) (h _ (nth6 ..)) (h _ (nth7 ..)) (h _ (nth8 ..)) (h _ (nth9 ..)) (h _ (nth10 ..)) (h _ (nth11 ..)) (h _ (nth12 ..)) a0 s
  | portGrant a0 => exact execPortGrant_view vw (h _ (nth0 ..)) (h _ (nth1 ..)) (h _ (nth2 ..)) (h _ (nth3 ..)) (h _ (nth4 ..)) (h _ (nth5 ..)) (h _ (nth6 ..)) (h _ (nth7 ..)) (h _ (nth8 ..)) (h _ (nth9 ..)) a0 s
  | portSuspend a0 => exact execPortSuspend_view vw (h _ (nth0 ..)) (h _ (nth1 ..)) (h _ (nth2 ..)) (h _ (nth3 ..)) (h _ (nth4 ..)) (h _ (nth5 ..)) (h _ (nth6 ..)) (h _ (nth7 ..)) (h _ (nth8 ..)) (h _ (nth9 ..)) a0 s
  | portResume a0 => exact execPortResume_view vw (h _ (nth0 ..)) (h _ (nth1 ..)) (h _ (nth2 ..)) (h _ (nth3 ..)) (h _ (nth4 ..)) (h _ (nth5 ..)) (h _ (nth6 ..)) (h _ (nth7 ..)) (h _ (nth8 ..)) (h _ (nth9 ..)) a0 s
  | portBypass a0 => exact execPortBypass_view vw (h _ (nth0 ..)) (h _ (nth1 ..)) (h _ (nth2 ..)) (h _ (nth3 ..)) (h _ (nth4 ..)) (h _ (nth5 ..)) (h _ (nth6 ..)) (h _ (nth7 ..)) (h _ (nth8 ..)) (h _ (nth9 ..)) a0 s
  | portRelease a0 => exact execPortRelease_view vw (h _ (nth0 ..)) (h _ (nth1 ..)) (h _ (nth2 ..)) (h _ (nth3 ..)) (h _ (nth4 ..)) (h _ (nth5 ..)) (h _ (nth6 ..)) (h _ (nth7 ..)) (h _ (nth8 ..)) (h _ (nth9 ..)) a0 s
  | settleDiscard a0 => exact execSettleDiscard_view vw (h _ (nth0 ..)) (h _ (nth1 ..)) (h _ (nth2 ..)) (h _ (nth3 ..)) (h _ (nth4 ..)) (h _ (nth5 ..)) (h _ (nth6 ..)) (h _ (nth7 ..)) (h _ (nth8 ..)) (h _ (nth9 ..)) (h _ (nth10 ..)) (h _ (nth11 ..)) (h _ (nth12 ..)) a0 s
  | settleRead a0 => exact execSettleRead_view vw (h _ (nth0 ..)) (h _ (nth1 ..)) (h _ (nth2 ..)) (h _ (nth3 ..)) (h _ (nth4 ..)) (h _ (nth5 ..)) (h _ (nth6 ..)) (h _ (nth7 ..)) (h _ (nth8 ..)) a0 s
  | aptStage a0 => exact execAptStage_view vw (h _ (nth0 ..)) (h _ (nth1 ..)) (h _ (nth2 ..)) (h _ (nth3 ..)) (h _ (nth4 ..)) (h _ (nth5 ..)) (h _ (nth6 ..)) (h _ (nth7 ..)) (h _ (nth8 ..)) (h _ (nth9 ..)) a0 s
  | aptActivate a0 => exact execAptActivate_view vw (h _ (nth0 ..)) (h _ (nth1 ..)) (h _ (nth2 ..)) (h _ (nth3 ..)) (h _ (nth4 ..)) (h _ (nth5 ..)) (h _ (nth6 ..)) (h _ (nth7 ..)) (h _ (nth8 ..)) (h _ (nth9 ..)) (h _ (nth10 ..)) (h _ (nth11 ..)) a0 s
  | aptRemove a0 => exact execAptRemove_view vw (h _ (nth0 ..)) (h _ (nth1 ..)) (h _ (nth2 ..)) (h _ (nth3 ..)) (h _ (nth4 ..)) (h _ (nth5 ..)) (h _ (nth6 ..)) (h _ (nth7 ..)) (h _ (nth8 ..)) (h _ (nth9 ..)) a0 s
  | aptList a0 => exact execAptList_view vw (h _ (nth0 ..)) (h _ (nth1 ..)) (h _ (nth2 ..)) (h _ (nth3 ..)) (h _ (nth4 ..)) (h _ (nth5 ..)) (h _ (nth6 ..)) (h _ (nth7 ..)) (h _ (nth8 ..)) a0 s
  | portApt a0 => exact execPortApt_view vw (h _ (nth0 ..)) (h _ (nth1 ..)) (h _ (nth2 ..)) (h _ (nth3 ..)) (h _ (nth4 ..)) (h _ (nth5 ..)) (h _ (nth6 ..)) (h _ (nth7 ..)) (h _ (nth8 ..)) (h _ (nth9 ..)) (h _ (nth10 ..)) (h _ (nth11 ..)) (h _ (nth12 ..)) (h _ (nth13 ..)) a0 s
  | frameSet a0 => exact execFrameSet_view vw (h _ (nth0 ..)) (h _ (nth1 ..)) (h _ (nth2 ..)) (h _ (nth3 ..)) (h _ (nth4 ..)) (h _ (nth5 ..)) (h _ (nth6 ..)) (h _ (nth7 ..)) (h _ (nth8 ..)) (h _ (nth9 ..)) a0 s
  | timeGet a0 => exact execTimeGet_view vw (h _ (nth0 ..)) (h _ (nth1 ..)) (h _ (nth2 ..)) (h _ (nth3 ..)) (h _ (nth4 ..)) (h _ (nth5 ..)) (h _ (nth6 ..)) (h _ (nth7 ..)) (h _ (nth8 ..)) a0 s
  | timeTrim a0 => exact execTimeTrim_view vw (h _ (nth0 ..)) (h _ (nth1 ..)) (h _ (nth2 ..)) (h _ (nth3 ..)) (h _ (nth4 ..)) (h _ (nth5 ..)) (h _ (nth6 ..)) (h _ (nth7 ..)) (h _ (nth8 ..)) a0 s
  | timeStep a0 => exact execTimeStep_view vw (h _ (nth0 ..)) (h _ (nth1 ..)) (h _ (nth2 ..)) (h _ (nth3 ..)) (h _ (nth4 ..)) (h _ (nth5 ..)) (h _ (nth6 ..)) (h _ (nth7 ..)) (h _ (nth8 ..)) (h _ (nth9 ..)) a0 s
  | timeAlarm a0 => exact execTimeAlarm_view vw (h _ (nth0 ..)) (h _ (nth1 ..)) (h _ (nth2 ..)) (h _ (nth3 ..)) (h _ (nth4 ..)) (h _ (nth5 ..)) (h _ (nth6 ..)) (h _ (nth7 ..)) (h _ (nth8 ..)) a0 s
  | lcConfig a0 => exact execLcConfig_view vw (h _ (nth0 ..)) (h _ (nth1 ..)) (h _ (nth2 ..)) (h _ (nth3 ..)) (h _ (nth4 ..)) (h _ (nth5 ..)) (h _ (nth6 ..)) (h _ (nth7 ..)) (h _ (nth8 ..)) (h _ (nth9 ..)) (h _ (nth10 ..)) (h _ (nth11 ..)) a0 s
  | lcProfile a0 => exact execLcProfile_view vw (h _ (nth0 ..)) (h _ (nth1 ..)) (h _ (nth2 ..)) (h _ (nth3 ..)) (h _ (nth4 ..)) (h _ (nth5 ..)) (h _ (nth6 ..)) (h _ (nth7 ..)) (h _ (nth8 ..)) a0 s
  | lcAttach a0 => exact execLcAttach_view vw (h _ (nth0 ..)) (h _ (nth1 ..)) (h _ (nth2 ..)) (h _ (nth3 ..)) (h _ (nth4 ..)) (h _ (nth5 ..)) (h _ (nth6 ..)) (h _ (nth7 ..)) (h _ (nth8 ..)) (h _ (nth9 ..)) a0 s
  | lcDetach a0 => exact execLcDetach_view vw (h _ (nth0 ..)) (h _ (nth1 ..)) (h _ (nth2 ..)) (h _ (nth3 ..)) (h _ (nth4 ..)) (h _ (nth5 ..)) (h _ (nth6 ..)) (h _ (nth7 ..)) (h _ (nth8 ..)) (h _ (nth9 ..)) a0 s
  | lcCommand a0 => exact execLcCommand_view vw (h _ (nth0 ..)) (h _ (nth1 ..)) (h _ (nth2 ..)) (h _ (nth3 ..)) (h _ (nth4 ..)) (h _ (nth5 ..)) (h _ (nth6 ..)) (h _ (nth7 ..)) (h _ (nth8 ..)) (h _ (nth9 ..)) a0 s
  | jnlEntry a0 => exact execJnlEntry_view vw (h _ (nth0 ..)) (h _ (nth1 ..)) (h _ (nth2 ..)) (h _ (nth3 ..)) (h _ (nth4 ..)) (h _ (nth5 ..)) (h _ (nth6 ..)) (h _ (nth7 ..)) (h _ (nth8 ..)) a0 s
  | jnlControl a0 => exact execJnlControl_view vw (h _ (nth0 ..)) (h _ (nth1 ..)) (h _ (nth2 ..)) (h _ (nth3 ..)) (h _ (nth4 ..)) (h _ (nth5 ..)) (h _ (nth6 ..)) (h _ (nth7 ..)) (h _ (nth8 ..)) a0 s
  | jnlClose a0 => exact execJnlClose_view vw (h _ (nth0 ..)) (h _ (nth1 ..)) (h _ (nth2 ..)) (h _ (nth3 ..)) (h _ (nth4 ..)) (h _ (nth5 ..)) (h _ (nth6 ..)) (h _ (nth7 ..)) (h _ (nth8 ..)) a0 s
  | jnlRead a0 => exact execJnlRead_view vw (h _ (nth0 ..)) (h _ (nth1 ..)) (h _ (nth2 ..)) (h _ (nth3 ..)) (h _ (nth4 ..)) (h _ (nth5 ..)) (h _ (nth6 ..)) (h _ (nth7 ..)) (h _ (nth8 ..)) a0 s
  | jnlArchive a0 => exact execJnlArchive_view vw (h _ (nth0 ..)) (h _ (nth1 ..)) (h _ (nth2 ..)) (h _ (nth3 ..)) (h _ (nth4 ..)) (h _ (nth5 ..)) (h _ (nth6 ..)) (h _ (nth7 ..)) (h _ (nth8 ..)) a0 s
  | jnlStatus a0 => exact execJnlStatus_view vw (h _ (nth0 ..)) (h _ (nth1 ..)) (h _ (nth2 ..)) (h _ (nth3 ..)) (h _ (nth4 ..)) (h _ (nth5 ..)) (h _ (nth6 ..)) (h _ (nth7 ..)) (h _ (nth8 ..)) a0 s
  | codeWrite a0 => exact execCodeWrite_view vw (h _ (nth0 ..)) (h _ (nth1 ..)) (h _ (nth2 ..)) (h _ (nth3 ..)) (h _ (nth4 ..)) (h _ (nth5 ..)) (h _ (nth6 ..)) (h _ (nth7 ..)) (h _ (nth8 ..)) (h _ (nth9 ..)) a0 s
  | codeCommit a0 => exact execCodeCommit_view vw (h _ (nth0 ..)) (h _ (nth1 ..)) (h _ (nth2 ..)) (h _ (nth3 ..)) (h _ (nth4 ..)) (h _ (nth5 ..)) (h _ (nth6 ..)) (h _ (nth7 ..)) (h _ (nth8 ..)) (h _ (nth9 ..)) a0 s
  | keyInstall a0 => exact execKeyInstall_view vw (h _ (nth0 ..)) (h _ (nth1 ..)) (h _ (nth2 ..)) (h _ (nth3 ..)) (h _ (nth4 ..)) (h _ (nth5 ..)) (h _ (nth6 ..)) (h _ (nth7 ..)) (h _ (nth8 ..)) (h _ (nth9 ..)) a0 s
  | castle a0 => exact execCastle_view vw (h _ (nth0 ..)) (h _ (nth1 ..)) (h _ (nth2 ..)) (h _ (nth3 ..)) (h _ (nth4 ..)) (h _ (nth5 ..)) (h _ (nth6 ..)) (h _ (nth7 ..)) (h _ (nth8 ..)) (h _ (nth9 ..)) (h _ (nth10 ..)) (h _ (nth11 ..)) (h _ (nth12 ..)) a0 s
  | faultRead a0 => exact execFaultRead_view vw (h _ (nth0 ..)) (h _ (nth1 ..)) (h _ (nth2 ..)) (h _ (nth3 ..)) (h _ (nth4 ..)) (h _ (nth5 ..)) (h _ (nth6 ..)) (h _ (nth7 ..)) (h _ (nth8 ..)) a0 s
  | powerDark a0 => exact execPowerDark_view vw (h _ (nth0 ..)) (h _ (nth1 ..)) (h _ (nth2 ..)) (h _ (nth3 ..)) (h _ (nth4 ..)) (h _ (nth5 ..)) (h _ (nth6 ..)) (h _ (nth7 ..)) (h _ (nth8 ..)) (h _ (nth9 ..)) (h _ (nth10 ..)) (h _ (nth11 ..)) (h _ (nth12 ..)) (h _ (nth13 ..)) (h _ (nth14 ..)) (h _ (nth15 ..)) (h _ (nth16 ..)) (h _ (nth17 ..)) (h _ (nth18 ..)) (h _ (nth19 ..)) a0 s
  | powerWake a0 => exact execPowerWake_view vw (h _ (nth0 ..)) (h _ (nth1 ..)) (h _ (nth2 ..)) (h _ (nth3 ..)) (h _ (nth4 ..)) (h _ (nth5 ..)) (h _ (nth6 ..)) (h _ (nth7 ..)) (h _ (nth8 ..)) (h _ (nth9 ..)) a0 s
  | powerStandby a0 => exact execPowerStandby_view vw (h _ (nth0 ..)) (h _ (nth1 ..)) (h _ (nth2 ..)) (h _ (nth3 ..)) (h _ (nth4 ..)) (h _ (nth5 ..)) (h _ (nth6 ..)) (h _ (nth7 ..)) (h _ (nth8 ..)) (h _ (nth9 ..)) (h _ (nth10 ..)) (h _ (nth11 ..)) (h _ (nth12 ..)) (h _ (nth13 ..)) (h _ (nth14 ..)) (h _ (nth15 ..)) (h _ (nth16 ..)) (h _ (nth17 ..)) (h _ (nth18 ..)) (h _ (nth19 ..)) a0 s
  | powerDeep a0 => exact execPowerDeep_view vw (h _ (nth0 ..)) (h _ (nth1 ..)) (h _ (nth2 ..)) (h _ (nth3 ..)) (h _ (nth4 ..)) (h _ (nth5 ..)) (h _ (nth6 ..)) (h _ (nth7 ..)) (h _ (nth8 ..)) (h _ (nth9 ..)) (h _ (nth10 ..)) (h _ (nth11 ..)) (h _ (nth12 ..)) (h _ (nth13 ..)) (h _ (nth14 ..)) (h _ (nth15 ..)) (h _ (nth16 ..)) (h _ (nth17 ..)) (h _ (nth18 ..)) (h _ (nth19 ..)) a0 s
  | regRead a0 => exact execRegRead_view vw (h _ (nth0 ..)) (h _ (nth1 ..)) (h _ (nth2 ..)) (h _ (nth3 ..)) (h _ (nth4 ..)) (h _ (nth5 ..)) (h _ (nth6 ..)) (h _ (nth7 ..)) (h _ (nth8 ..)) (h _ (nth9 ..)) (h _ (nth10 ..)) (h _ (nth11 ..)) (h _ (nth12 ..)) (h _ (nth13 ..)) (h _ (nth14 ..)) a0 s
  | movDbWrite a0 a1 a2 => exact execMovDbWrite_view vw (h _ (nth0 ..)) (h _ (nth1 ..)) (h _ (nth2 ..)) (h _ (nth3 ..)) (h _ (nth4 ..)) (h _ (nth5 ..)) (h _ (nth6 ..)) (h _ (nth7 ..)) a0 a1 a2 s
  | transferAccept a0 => exact execTransferAccept_view vw (h _ (nth0 ..)) (h _ (nth1 ..)) (h _ (nth2 ..)) a0 s
  | transferReadChunk a0 a1 a2 => exact execTransferReadChunk_view vw (h _ (nth0 ..)) (h _ (nth1 ..)) (h _ (nth2 ..)) a0 a1 a2 s
  | transferWriteChunk a0 a1 => exact execTransferWriteChunk_view vw (h _ (nth0 ..)) (h _ (nth1 ..)) (h _ (nth2 ..)) (h _ (nth3 ..)) (h _ (nth4 ..)) a0 a1 s
  | transferComplete a0 => exact execTransferComplete_view vw (h _ (nth0 ..)) (h _ (nth1 ..)) (h _ (nth2 ..)) (h _ (nth3 ..)) (h _ (nth4 ..)) (h _ (nth5 ..)) (h _ (nth6 ..)) (h _ (nth7 ..)) (h _ (nth8 ..)) a0 s
  | completionTimeout a0 => exact execCompletionTimeout_view vw (h _ (nth0 ..)) (h _ (nth1 ..)) (h _ (nth2 ..)) (h _ (nth3 ..)) a0 s
  | arbitrationPeriod a0 a1 => exact execArbitrationPeriod_view vw (h _ (nth0 ..)) a0 a1 s
  | linkTrain a0 a1 => exact execLinkTrain_view vw (h _ (nth0 ..)) (h _ (nth1 ..)) (h _ (nth2 ..)) (h _ (nth3 ..)) a0 a1 s
  | trainRetry a0 => exact execTrainRetry_view vw (h _ (nth0 ..)) (h _ (nth1 ..)) (h _ (nth2 ..)) a0 s
  | drnRetrain a0 a1 => exact execDrnRetrain_view vw (h _ (nth0 ..)) (h _ (nth1 ..)) (h _ (nth2 ..)) (h _ (nth3 ..)) (h _ (nth4 ..)) (h _ (nth5 ..)) (h _ (nth6 ..)) (h _ (nth7 ..)) a0 a1 s
  | drnDisable a0 a1 => exact execDrnDisable_view vw (h _ (nth0 ..)) (h _ (nth1 ..)) (h _ (nth2 ..)) (h _ (nth3 ..)) (h _ (nth4 ..)) (h _ (nth5 ..)) (h _ (nth6 ..)) (h _ (nth7 ..)) a0 a1 s
  | heartbeatSend a0 => exact execHeartbeatSend_view vw (h _ (nth0 ..)) (h _ (nth1 ..)) a0 s
  | heartbeat a0 => exact execHeartbeat_view vw (h _ (nth0 ..)) (h _ (nth1 ..)) a0 s
  | address a0 => exact execAddress_view vw (h _ (nth0 ..)) (h _ (nth1 ..)) (h _ (nth2 ..)) a0 s
  | admitReq a0 => exact execAdmitReq_view vw (h _ (nth0 ..)) (h _ (nth1 ..)) (h _ (nth2 ..)) (h _ (nth3 ..)) (h _ (nth4 ..)) (h _ (nth5 ..)) a0 s
  | admitFrame a0 => exact execAdmitFrame_view vw (h _ (nth0 ..)) (h _ (nth1 ..)) (h _ (nth2 ..)) a0 s
  | admissionTick => exact execAdmissionTick_view vw (h _ (nth0 ..)) (h _ (nth1 ..)) (h _ (nth2 ..)) (h _ (nth3 ..)) (h _ (nth4 ..)) (h _ (nth5 ..)) (h _ (nth6 ..)) (h _ (nth7 ..)) (h _ (nth8 ..)) (h _ (nth9 ..)) (h _ (nth10 ..)) (h _ (nth11 ..)) (h _ (nth12 ..)) (h _ (nth13 ..)) (h _ (nth14 ..)) (h _ (nth15 ..)) (h _ (nth16 ..)) (h _ (nth17 ..)) (h _ (nth18 ..)) (h _ (nth19 ..)) s
  | detach a0 => exact execDetach_view vw (h _ (nth0 ..)) (h _ (nth1 ..)) (h _ (nth2 ..)) (h _ (nth3 ..)) (h _ (nth4 ..)) (h _ (nth5 ..)) (h _ (nth6 ..)) (h _ (nth7 ..)) (h _ (nth8 ..)) (h _ (nth9 ..)) (h _ (nth10 ..)) (h _ (nth11 ..)) (h _ (nth12 ..)) (h _ (nth13 ..)) (h _ (nth14 ..)) a0 s
  | tick a0 => exact execTick_view vw (h _ (nth0 ..)) (h _ (nth1 ..)) (h _ (nth2 ..)) (h _ (nth3 ..)) (h _ (nth4 ..)) (h _ (nth5 ..)) (h _ (nth6 ..)) a0 s
  | mmio a0 => exact execMmio_view vw (h _ (nth0 ..)) (h _ (nth1 ..)) (h _ (nth2 ..)) (h _ (nth3 ..)) (h _ (nth4 ..)) (h _ (nth5 ..)) (h _ (nth6 ..)) (h _ (nth7 ..)) (h _ (nth8 ..)) (h _ (nth9 ..)) (h _ (nth10 ..)) (h _ (nth11 ..)) (h _ (nth12 ..)) (h _ (nth13 ..)) (h _ (nth14 ..)) (h _ (nth15 ..)) (h _ (nth16 ..)) (h _ (nth17 ..)) a0 s
  | hostdma a0 => exact execHostdma_view vw (h _ (nth0 ..)) (h _ (nth1 ..)) (h _ (nth2 ..)) (h _ (nth3 ..)) (h _ (nth4 ..)) (h _ (nth5 ..)) a0 s
  | queue a0 => exact execQueue_view vw (h _ (nth0 ..)) (h _ (nth1 ..)) (h _ (nth2 ..)) (h _ (nth3 ..)) (h _ (nth4 ..)) (h _ (nth5 ..)) a0 s
  | drnAdmin a0 => exact execDrnAdmin_view vw (h _ (nth0 ..)) (h _ (nth1 ..)) (h _ (nth2 ..)) (h _ (nth3 ..)) (h _ (nth4 ..)) (h _ (nth5 ..)) (h _ (nth6 ..)) (h _ (nth7 ..)) (h _ (nth8 ..)) a0 s
  | drnJournal a0 => exact execDrnJournal_view vw (h _ (nth0 ..)) (h _ (nth1 ..)) (h _ (nth2 ..)) a0 s
  | capacity a0 => exact execCapacity_view vw (h _ (nth0 ..)) (h _ (nth1 ..)) (h _ (nth2 ..)) a0 s
  | laneFail a0 a1 => exact execLaneFail_view vw (h _ (nth0 ..)) (h _ (nth1 ..)) (h _ (nth2 ..)) (h _ (nth3 ..)) (h _ (nth4 ..)) a0 a1 s
  | laneSwapDone a0 => exact execLaneSwapDone_view vw (h _ (nth0 ..)) (h _ (nth1 ..)) a0 s
  | linkLoss a0 => exact execLinkLoss_view vw (h _ (nth0 ..)) (h _ (nth1 ..)) (h _ (nth2 ..)) (h _ (nth3 ..)) (h _ (nth4 ..)) (h _ (nth5 ..)) (h _ (nth6 ..)) (h _ (nth7 ..)) (h _ (nth8 ..)) (h _ (nth9 ..)) (h _ (nth10 ..)) (h _ (nth11 ..)) (h _ (nth12 ..)) (h _ (nth13 ..)) (h _ (nth14 ..)) (h _ (nth15 ..)) a0 s
  | headElection => exact execHeadElection_view vw (h _ (nth0 ..)) (h _ (nth1 ..)) (h _ (nth2 ..)) (h _ (nth3 ..)) s
  | delayMeasure a0 a1 => exact execDelayMeasure_view vw (h _ (nth0 ..)) a0 a1 s
  | clCkptWrite a0 a1 a2 a3 => exact execClCkptWrite_view vw (h _ (nth0 ..)) (h _ (nth1 ..)) (h _ (nth2 ..)) (h _ (nth3 ..)) (h _ (nth4 ..)) (h _ (nth5 ..)) (h _ (nth6 ..)) (h _ (nth7 ..)) (h _ (nth8 ..)) (h _ (nth9 ..)) (h _ (nth10 ..)) (h _ (nth11 ..)) (h _ (nth12 ..)) (h _ (nth13 ..)) (h _ (nth14 ..)) (h _ (nth15 ..)) (h _ (nth16 ..)) (h _ (nth17 ..)) (h _ (nth18 ..)) (h _ (nth19 ..)) (h _ (nth20 ..)) (h _ (nth21 ..)) (h _ (nth22 ..)) (h _ (nth23 ..)) (h _ (nth24 ..)) (h _ (nth25 ..)) (h _ (nth26 ..)) (h _ (nth27 ..)) (h _ (nth28 ..)) (h _ (nth29 ..)) (h _ (nth30 ..)) a0 a1 a2 a3 s
  | pairBistDone a0 a1 a2 a3 => exact execPairBistDone_view vw (h _ (nth0 ..)) (h _ (nth1 ..)) (h _ (nth2 ..)) (h _ (nth3 ..)) (h _ (nth4 ..)) (h _ (nth5 ..)) (h _ (nth6 ..)) (h _ (nth7 ..)) (h _ (nth8 ..)) (h _ (nth9 ..)) a0 a1 a2 a3 s
  | checkerError a0 a1 => exact execCheckerError_view vw (h _ (nth0 ..)) (h _ (nth1 ..)) (h _ (nth2 ..)) (h _ (nth3 ..)) (h _ (nth4 ..)) (h _ (nth5 ..)) (h _ (nth6 ..)) (h _ (nth7 ..)) (h _ (nth8 ..)) a0 a1 s
  | stallSentinel a0 a1 => exact execStallSentinel_view vw (h _ (nth0 ..)) (h _ (nth1 ..)) (h _ (nth2 ..)) (h _ (nth3 ..)) (h _ (nth4 ..)) (h _ (nth5 ..)) (h _ (nth6 ..)) (h _ (nth7 ..)) (h _ (nth8 ..)) a0 a1 s
  | shadowMismatch a0 a1 => exact execShadowMismatch_view vw (h _ (nth0 ..)) (h _ (nth1 ..)) (h _ (nth2 ..)) (h _ (nth3 ..)) (h _ (nth4 ..)) (h _ (nth5 ..)) a0 a1 s
  | voteDisagree a0 => exact execVoteDisagree_view vw (h _ (nth0 ..)) (h _ (nth1 ..)) (h _ (nth2 ..)) (h _ (nth3 ..)) (h _ (nth4 ..)) a0 s
  | clusterCastling a0 => exact execClusterCastling_view vw (h _ (nth0 ..)) (h _ (nth1 ..)) (h _ (nth2 ..)) a0 s
  | handoverEnd a0 => exact execHandoverEnd_view vw (h _ (nth0 ..)) (h _ (nth1 ..)) (h _ (nth2 ..)) (h _ (nth3 ..)) (h _ (nth4 ..)) (h _ (nth5 ..)) (h _ (nth6 ..)) (h _ (nth7 ..)) (h _ (nth8 ..)) (h _ (nth9 ..)) (h _ (nth10 ..)) (h _ (nth11 ..)) (h _ (nth12 ..)) (h _ (nth13 ..)) (h _ (nth14 ..)) (h _ (nth15 ..)) (h _ (nth16 ..)) (h _ (nth17 ..)) (h _ (nth18 ..)) (h _ (nth19 ..)) (h _ (nth20 ..)) (h _ (nth21 ..)) (h _ (nth22 ..)) (h _ (nth23 ..)) (h _ (nth24 ..)) (h _ (nth25 ..)) (h _ (nth26 ..)) (h _ (nth27 ..)) (h _ (nth28 ..)) (h _ (nth29 ..)) (h _ (nth30 ..)) a0 s
  | castleReqCluster a0 a1 => exact execCastleReqCluster_view vw (h _ (nth0 ..)) (h _ (nth1 ..)) (h _ (nth2 ..)) (h _ (nth3 ..)) (h _ (nth4 ..)) (h _ (nth5 ..)) (h _ (nth6 ..)) (h _ (nth7 ..)) (h _ (nth8 ..)) a0 a1 s
  | castleReqLaneCore a0 a1 a2 => exact execCastleReqLaneCore_view vw (h _ (nth0 ..)) (h _ (nth1 ..)) (h _ (nth2 ..)) (h _ (nth3 ..)) (h _ (nth4 ..)) (h _ (nth5 ..)) (h _ (nth6 ..)) (h _ (nth7 ..)) (h _ (nth8 ..)) a0 a1 a2 s
  | castleReqCp a0 a1 => exact execCastleReqCp_view vw (h _ (nth0 ..)) (h _ (nth1 ..)) (h _ (nth2 ..)) (h _ (nth3 ..)) (h _ (nth4 ..)) (h _ (nth5 ..)) (h _ (nth6 ..)) (h _ (nth7 ..)) (h _ (nth8 ..)) a0 a1 s
  | clDoublesWrite a0 a1 a2 => exact execClDoublesWrite_view vw (h _ (nth0 ..)) (h _ (nth1 ..)) (h _ (nth2 ..)) (h _ (nth3 ..)) (h _ (nth4 ..)) (h _ (nth5 ..)) (h _ (nth6 ..)) a0 a1 a2 s
  | pairForm a0 => exact execPairForm_view vw (h _ (nth0 ..)) (h _ (nth1 ..)) a0 s
  | cpCheckpoint a0 => exact execCpCheckpoint_view vw (h _ (nth0 ..)) (h _ (nth1 ..)) (h _ (nth2 ..)) (h _ (nth3 ..)) (h _ (nth4 ..)) (h _ (nth5 ..)) (h _ (nth6 ..)) (h _ (nth7 ..)) (h _ (nth8 ..)) (h _ (nth9 ..)) (h _ (nth10 ..)) (h _ (nth11 ..)) (h _ (nth12 ..)) (h _ (nth13 ..)) (h _ (nth14 ..)) (h _ (nth15 ..)) (h _ (nth16 ..)) (h _ (nth17 ..)) (h _ (nth18 ..)) (h _ (nth19 ..)) (h _ (nth20 ..)) (h _ (nth21 ..)) (h _ (nth22 ..)) (h _ (nth23 ..)) (h _ (nth24 ..)) (h _ (nth25 ..)) (h _ (nth26 ..)) (h _ (nth27 ..)) (h _ (nth28 ..)) (h _ (nth29 ..)) (h _ (nth30 ..)) a0 s
  | cpCastling a0 a1 => exact execCpCastling_view vw (h _ (nth0 ..)) (h _ (nth1 ..)) (h _ (nth2 ..)) (h _ (nth3 ..)) (h _ (nth4 ..)) (h _ (nth5 ..)) (h _ (nth6 ..)) (h _ (nth7 ..)) (h _ (nth8 ..)) a0 a1 s
  | scrubPassComplete a0 a1 => exact execScrubPassComplete_view vw (h _ (nth0 ..)) (h _ (nth1 ..)) (h _ (nth2 ..)) (h _ (nth3 ..)) (h _ (nth4 ..)) (h _ (nth5 ..)) a0 a1 s
  | rotationVisit a0 => exact execRotationVisit_view vw (h _ (nth0 ..)) (h _ (nth1 ..)) (h _ (nth2 ..)) (h _ (nth3 ..)) (h _ (nth4 ..)) (h _ (nth5 ..)) a0 s
  | clusterBistDone a0 a1 => exact execClusterBistDone_view vw (h _ (nth0 ..)) (h _ (nth1 ..)) (h _ (nth2 ..)) (h _ (nth3 ..)) (h _ (nth4 ..)) a0 a1 s
  | repairOverdue => exact execRepairOverdue_view vw (h _ (nth0 ..)) s
  | icEoi a0 => exact execIcEoi_view vw (h _ (nth0 ..)) (h _ (nth1 ..)) (h _ (nth2 ..)) (h _ (nth3 ..)) (h _ (nth4 ..)) (h _ (nth5 ..)) (h _ (nth6 ..)) a0 s
  | icRaise a0 a1 => exact execIcRaise_view vw (h _ (nth0 ..)) (h _ (nth1 ..)) (h _ (nth2 ..)) (h _ (nth3 ..)) (h _ (nth4 ..)) (h _ (nth5 ..)) (h _ (nth6 ..)) a0 a1 s
  | icSet a0 a1 a2 a3 => exact execIcSet_view vw (h _ (nth0 ..)) (h _ (nth1 ..)) (h _ (nth2 ..)) (h _ (nth3 ..)) (h _ (nth4 ..)) (h _ (nth5 ..)) (h _ (nth6 ..)) a0 a1 a2 a3 s
  | icSrcWrite a0 a1 a2 a3 => exact execIcSrcWrite_view vw (h _ (nth0 ..)) (h _ (nth1 ..)) (h _ (nth2 ..)) (h _ (nth3 ..)) (h _ (nth4 ..)) (h _ (nth5 ..)) (h _ (nth6 ..)) a0 a1 a2 a3 s
  | holdoffEnd a0 a1 => exact execHoldoffEnd_view vw (h _ (nth0 ..)) (h _ (nth1 ..)) a0 a1 s
  | coreTimerArm a0 a1 => exact execCoreTimerArm_view vw (h _ (nth0 ..)) (h _ (nth1 ..)) (h _ (nth2 ..)) (h _ (nth3 ..)) (h _ (nth4 ..)) (h _ (nth5 ..)) (h _ (nth6 ..)) a0 a1 s
  | coreTimerDue a0 => exact execCoreTimerDue_view vw (h _ (nth0 ..)) (h _ (nth1 ..)) (h _ (nth2 ..)) (h _ (nth3 ..)) a0 s
  | routerEvent a0 a1 => exact execRouterEvent_view vw (h _ (nth0 ..)) (h _ (nth1 ..)) (h _ (nth2 ..)) (h _ (nth3 ..)) (h _ (nth4 ..)) a0 a1 s
  | eventTrigger a0 a1 a2 => exact execEventTrigger_view vw (h _ (nth0 ..)) (h _ (nth1 ..)) (h _ (nth2 ..)) (h _ (nth3 ..)) (h _ (nth4 ..)) (h _ (nth5 ..)) (h _ (nth6 ..)) (h _ (nth7 ..)) (h _ (nth8 ..)) a0 a1 a2 s
  | evrCfgWrite a0 a1 a2 a3 => exact execEvrCfgWrite_view vw (h _ (nth0 ..)) (h _ (nth1 ..)) (h _ (nth2 ..)) (h _ (nth3 ..)) (h _ (nth4 ..)) (h _ (nth5 ..)) (h _ (nth6 ..)) a0 a1 a2 a3 s
  | evrLock a0 a1 a2 a3 => exact execEvrLock_view vw (h _ (nth0 ..)) (h _ (nth1 ..)) (h _ (nth2 ..)) (h _ (nth3 ..)) (h _ (nth4 ..)) (h _ (nth5 ..)) (h _ (nth6 ..)) a0 a1 a2 a3 s
  | sentryFire a0 a1 => exact execSentryFire_view vw (h _ (nth0 ..)) (h _ (nth1 ..)) (h _ (nth2 ..)) a0 a1 s
  | clusterDarkEntry a0 => exact execClusterDarkEntry_view vw (h _ (nth0 ..)) (h _ (nth1 ..)) (h _ (nth2 ..)) (h _ (nth3 ..)) (h _ (nth4 ..)) (h _ (nth5 ..)) (h _ (nth6 ..)) (h _ (nth7 ..)) (h _ (nth8 ..)) (h _ (nth9 ..)) (h _ (nth10 ..)) (h _ (nth11 ..)) (h _ (nth12 ..)) (h _ (nth13 ..)) (h _ (nth14 ..)) (h _ (nth15 ..)) (h _ (nth16 ..)) (h _ (nth17 ..)) (h _ (nth18 ..)) (h _ (nth19 ..)) a0 s
  | clusterDarkDone a0 => exact execClusterDarkDone_view vw (h _ (nth0 ..)) (h _ (nth1 ..)) (h _ (nth2 ..)) (h _ (nth3 ..)) (h _ (nth4 ..)) (h _ (nth5 ..)) (h _ (nth6 ..)) (h _ (nth7 ..)) (h _ (nth8 ..)) (h _ (nth9 ..)) (h _ (nth10 ..)) (h _ (nth11 ..)) (h _ (nth12 ..)) (h _ (nth13 ..)) (h _ (nth14 ..)) (h _ (nth15 ..)) (h _ (nth16 ..)) (h _ (nth17 ..)) (h _ (nth18 ..)) (h _ (nth19 ..)) (h _ (nth20 ..)) (h _ (nth21 ..)) (h _ (nth22 ..)) a0 s
  | wakeRequest a0 => exact execWakeRequest_view vw (h _ (nth0 ..)) (h _ (nth1 ..)) a0 s
  | clusterWakeTick a0 => exact execClusterWakeTick_view vw (h _ (nth0 ..)) (h _ (nth1 ..)) (h _ (nth2 ..)) (h _ (nth3 ..)) (h _ (nth4 ..)) (h _ (nth5 ..)) (h _ (nth6 ..)) (h _ (nth7 ..)) (h _ (nth8 ..)) (h _ (nth9 ..)) (h _ (nth10 ..)) (h _ (nth11 ..)) (h _ (nth12 ..)) (h _ (nth13 ..)) (h _ (nth14 ..)) (h _ (nth15 ..)) a0 s
  | governorDecision a0 => exact execGovernorDecision_view vw (h _ (nth0 ..)) a0 s
  | lowPowerEntryEnd => exact execLowPowerEntryEnd_view vw (h _ (nth0 ..)) (h _ (nth1 ..)) (h _ (nth2 ..)) (h _ (nth3 ..)) (h _ (nth4 ..)) (h _ (nth5 ..)) (h _ (nth6 ..)) (h _ (nth7 ..)) (h _ (nth8 ..)) (h _ (nth9 ..)) (h _ (nth10 ..)) (h _ (nth11 ..)) (h _ (nth12 ..)) (h _ (nth13 ..)) (h _ (nth14 ..)) (h _ (nth15 ..)) (h _ (nth16 ..)) (h _ (nth17 ..)) (h _ (nth18 ..)) (h _ (nth19 ..)) (h _ (nth20 ..)) (h _ (nth21 ..)) (h _ (nth22 ..)) (h _ (nth23 ..)) (h _ (nth24 ..)) (h _ (nth25 ..)) (h _ (nth26 ..)) (h _ (nth27 ..)) (h _ (nth28 ..)) (h _ (nth29 ..)) (h _ (nth30 ..)) s
  | nvmeShutdownTimeout a0 => exact execNvmeShutdownTimeout_view vw (h _ (nth0 ..)) (h _ (nth1 ..)) a0 s
  | lowPowerExit => exact execLowPowerExit_view vw (h _ (nth0 ..)) (h _ (nth1 ..)) (h _ (nth2 ..)) (h _ (nth3 ..)) (h _ (nth4 ..)) (h _ (nth5 ..)) (h _ (nth6 ..)) (h _ (nth7 ..)) (h _ (nth8 ..)) (h _ (nth9 ..)) (h _ (nth10 ..)) (h _ (nth11 ..)) (h _ (nth12 ..)) (h _ (nth13 ..)) (h _ (nth14 ..)) (h _ (nth15 ..)) (h _ (nth16 ..)) (h _ (nth17 ..)) (h _ (nth18 ..)) (h _ (nth19 ..)) (h _ (nth20 ..)) (h _ (nth21 ..)) (h _ (nth22 ..)) (h _ (nth23 ..)) (h _ (nth24 ..)) (h _ (nth25 ..)) (h _ (nth26 ..)) (h _ (nth27 ..)) (h _ (nth28 ..)) (h _ (nth29 ..)) (h _ (nth30 ..)) s
  | smbusAddressMatch => exact execSmbusAddressMatch_view vw (h _ (nth0 ..)) (h _ (nth1 ..)) s
  | powerOnReset a0 => exact execPowerOnReset_view vw (h _ (nth0 ..)) (h _ (nth1 ..)) (h _ (nth2 ..)) (h _ (nth3 ..)) (h _ (nth4 ..)) (h _ (nth5 ..)) (h _ (nth6 ..)) (h _ (nth7 ..)) (h _ (nth8 ..)) (h _ (nth9 ..)) (h _ (nth10 ..)) (h _ (nth11 ..)) (h _ (nth12 ..)) (h _ (nth13 ..)) (h _ (nth14 ..)) (h _ (nth15 ..)) (h _ (nth16 ..)) (h _ (nth17 ..)) (h _ (nth18 ..)) (h _ (nth19 ..)) (h _ (nth20 ..)) (h _ (nth21 ..)) (h _ (nth22 ..)) (h _ (nth23 ..)) (h _ (nth24 ..)) (h _ (nth25 ..)) (h _ (nth26 ..)) (h _ (nth27 ..)) (h _ (nth28 ..)) (h _ (nth29 ..)) (h _ (nth30 ..)) a0 s
  | resetPin => exact execResetPin_view vw (h _ (nth0 ..)) (h _ (nth1 ..)) (h _ (nth2 ..)) (h _ (nth3 ..)) (h _ (nth4 ..)) (h _ (nth5 ..)) (h _ (nth6 ..)) (h _ (nth7 ..)) (h _ (nth8 ..)) (h _ (nth9 ..)) (h _ (nth10 ..)) (h _ (nth11 ..)) (h _ (nth12 ..)) (h _ (nth13 ..)) (h _ (nth14 ..)) (h _ (nth15 ..)) (h _ (nth16 ..)) (h _ (nth17 ..)) (h _ (nth18 ..)) (h _ (nth19 ..)) (h _ (nth20 ..)) (h _ (nth21 ..)) (h _ (nth22 ..)) (h _ (nth23 ..)) (h _ (nth24 ..)) (h _ (nth25 ..)) (h _ (nth26 ..)) (h _ (nth27 ..)) (h _ (nth28 ..)) (h _ (nth29 ..)) (h _ (nth30 ..)) s
  | softReset a0 a1 => exact execSoftReset_view vw (h _ (nth0 ..)) (h _ (nth1 ..)) (h _ (nth2 ..)) (h _ (nth3 ..)) (h _ (nth4 ..)) (h _ (nth5 ..)) (h _ (nth6 ..)) (h _ (nth7 ..)) (h _ (nth8 ..)) (h _ (nth9 ..)) (h _ (nth10 ..)) (h _ (nth11 ..)) (h _ (nth12 ..)) (h _ (nth13 ..)) (h _ (nth14 ..)) (h _ (nth15 ..)) (h _ (nth16 ..)) (h _ (nth17 ..)) (h _ (nth18 ..)) (h _ (nth19 ..)) (h _ (nth20 ..)) (h _ (nth21 ..)) (h _ (nth22 ..)) (h _ (nth23 ..)) (h _ (nth24 ..)) (h _ (nth25 ..)) (h _ (nth26 ..)) (h _ (nth27 ..)) (h _ (nth28 ..)) (h _ (nth29 ..)) (h _ (nth30 ..)) a0 a1 s
  | endpointReset => exact execEndpointReset_view vw (h _ (nth0 ..)) (h _ (nth1 ..)) (h _ (nth2 ..)) (h _ (nth3 ..)) (h _ (nth4 ..)) (h _ (nth5 ..)) (h _ (nth6 ..)) (h _ (nth7 ..)) (h _ (nth8 ..)) (h _ (nth9 ..)) (h _ (nth10 ..)) (h _ (nth11 ..)) (h _ (nth12 ..)) (h _ (nth13 ..)) (h _ (nth14 ..)) s
  | resetRelease a0 a1 => exact execResetRelease_view vw (h _ (nth0 ..)) (h _ (nth1 ..)) (h _ (nth2 ..)) a0 a1 s
  | crossingResync a0 => exact execCrossingResync_view vw (h _ (nth0 ..)) (h _ (nth1 ..)) (h _ (nth2 ..)) (h _ (nth3 ..)) (h _ (nth4 ..)) a0 s
  | supplyDip a0 => exact execSupplyDip_view vw (h _ (nth0 ..)) (h _ (nth1 ..)) a0 s
  | boot => exact execBoot_view vw (h _ (nth0 ..)) (h _ (nth1 ..)) (h _ (nth2 ..)) (h _ (nth3 ..)) s
  | vfFlr a0 => exact execVfFlr_view vw (h _ (nth0 ..)) (h _ (nth1 ..)) (h _ (nth2 ..)) (h _ (nth3 ..)) (h _ (nth4 ..)) (h _ (nth5 ..)) (h _ (nth6 ..)) (h _ (nth7 ..)) (h _ (nth8 ..)) (h _ (nth9 ..)) (h _ (nth10 ..)) (h _ (nth11 ..)) (h _ (nth12 ..)) a0 s
  | pfFlr => exact execPfFlr_view vw (h _ (nth0 ..)) (h _ (nth1 ..)) (h _ (nth2 ..)) (h _ (nth3 ..)) (h _ (nth4 ..)) (h _ (nth5 ..)) (h _ (nth6 ..)) (h _ (nth7 ..)) (h _ (nth8 ..)) (h _ (nth9 ..)) (h _ (nth10 ..)) (h _ (nth11 ..)) (h _ (nth12 ..)) (h _ (nth13 ..)) (h _ (nth14 ..)) s
  | vfEnableClear => exact execVfEnableClear_view vw (h _ (nth0 ..)) (h _ (nth1 ..)) (h _ (nth2 ..)) (h _ (nth3 ..)) (h _ (nth4 ..)) (h _ (nth5 ..)) (h _ (nth6 ..)) (h _ (nth7 ..)) (h _ (nth8 ..)) (h _ (nth9 ..)) (h _ (nth10 ..)) (h _ (nth11 ..)) (h _ (nth12 ..)) (h _ (nth13 ..)) s
  | driveRemoved a0 => exact execDriveRemoved_view vw (h _ (nth0 ..)) (h _ (nth1 ..)) (h _ (nth2 ..)) (h _ (nth3 ..)) (h _ (nth4 ..)) a0 s
  | driveInserted a0 => exact execDriveInserted_view vw (h _ (nth0 ..)) a0 s
  | rootPortRetrain a0 => exact execRootPortRetrain_view vw (h _ (nth0 ..)) (h _ (nth1 ..)) (h _ (nth2 ..)) (h _ (nth3 ..)) (h _ (nth4 ..)) (h _ (nth5 ..)) a0 s
  | getId a0 => exact execGetId_view vw (h _ (nth0 ..)) (h _ (nth1 ..)) (h _ (nth2 ..)) a0 s
  | getStatus a0 => exact execGetStatus_view vw (h _ (nth0 ..)) (h _ (nth1 ..)) (h _ (nth2 ..)) a0 s
  | mgmtReset a0 => exact execMgmtReset_view vw (h _ (nth0 ..)) (h _ (nth1 ..)) (h _ (nth2 ..)) (h _ (nth3 ..)) (h _ (nth4 ..)) (h _ (nth5 ..)) (h _ (nth6 ..)) (h _ (nth7 ..)) (h _ (nth8 ..)) (h _ (nth9 ..)) (h _ (nth10 ..)) (h _ (nth11 ..)) (h _ (nth12 ..)) (h _ (nth13 ..)) (h _ (nth14 ..)) (h _ (nth15 ..)) (h _ (nth16 ..)) (h _ (nth17 ..)) (h _ (nth18 ..)) (h _ (nth19 ..)) (h _ (nth20 ..)) (h _ (nth21 ..)) (h _ (nth22 ..)) (h _ (nth23 ..)) (h _ (nth24 ..)) (h _ (nth25 ..)) (h _ (nth26 ..)) (h _ (nth27 ..)) (h _ (nth28 ..)) (h _ (nth29 ..)) (h _ (nth30 ..)) a0 s
  | mgmtCodeWrite a0 => exact execMgmtCodeWrite_view vw (h _ (nth0 ..)) (h _ (nth1 ..)) (h _ (nth2 ..)) (h _ (nth3 ..)) a0 s
  | mgmtCodeCommit a0 => exact execMgmtCodeCommit_view vw (h _ (nth0 ..)) (h _ (nth1 ..)) (h _ (nth2 ..)) (h _ (nth3 ..)) a0 s
  | codeRead a0 => exact execCodeRead_view vw (h _ (nth0 ..)) (h _ (nth1 ..)) (h _ (nth2 ..)) a0 s
  | adminSubmit a0 => exact execAdminSubmit_view vw (h _ (nth0 ..)) (h _ (nth1 ..)) (h _ (nth2 ..)) (h _ (nth3 ..)) (h _ (nth4 ..)) (h _ (nth5 ..)) (h _ (nth6 ..)) (h _ (nth7 ..)) a0 s
  | adminFetch a0 => exact execAdminFetch_view vw (h _ (nth0 ..)) (h _ (nth1 ..)) (h _ (nth2 ..)) a0 s
  | mgmtReplyRead => exact execMgmtReplyRead_view vw (h _ (nth0 ..)) (h _ (nth1 ..)) s
  | tapReset => exact execTapReset_view vw (h _ (nth0 ..)) (h _ (nth1 ..)) s
  | jtagBypass => exact execJtagBypass_view vw (h _ (nth0 ..)) s
  | idcode => exact execIdcode_view vw (h _ (nth0 ..)) s
  | samplePreload => exact execSamplePreload_view vw (h _ (nth0 ..)) s
  | extest => exact execExtest_view vw (h _ (nth0 ..)) (h _ (nth1 ..)) (h _ (nth2 ..)) (h _ (nth3 ..)) (h _ (nth4 ..)) (h _ (nth5 ..)) (h _ (nth6 ..)) (h _ (nth7 ..)) (h _ (nth8 ..)) (h _ (nth9 ..)) (h _ (nth10 ..)) (h _ (nth11 ..)) (h _ (nth12 ..)) (h _ (nth13 ..)) (h _ (nth14 ..)) s
  | clamp => exact execClamp_view vw (h _ (nth0 ..)) (h _ (nth1 ..)) (h _ (nth2 ..)) (h _ (nth3 ..)) (h _ (nth4 ..)) (h _ (nth5 ..)) (h _ (nth6 ..)) (h _ (nth7 ..)) (h _ (nth8 ..)) (h _ (nth9 ..)) (h _ (nth10 ..)) (h _ (nth11 ..)) (h _ (nth12 ..)) (h _ (nth13 ..)) (h _ (nth14 ..)) s
  | highz => exact execHighz_view vw (h _ (nth0 ..)) (h _ (nth1 ..)) (h _ (nth2 ..)) (h _ (nth3 ..)) (h _ (nth4 ..)) (h _ (nth5 ..)) (h _ (nth6 ..)) (h _ (nth7 ..)) (h _ (nth8 ..)) (h _ (nth9 ..)) (h _ (nth10 ..)) (h _ (nth11 ..)) (h _ (nth12 ..)) (h _ (nth13 ..)) (h _ (nth14 ..)) s
  | registerWrite a0 a1 a2 => exact execRegisterWrite_view vw (h _ (nth0 ..)) (h _ (nth1 ..)) (h _ (nth2 ..)) (h _ (nth3 ..)) (h _ (nth4 ..)) (h _ (nth5 ..)) (h _ (nth6 ..)) (h _ (nth7 ..)) (h _ (nth8 ..)) (h _ (nth9 ..)) (h _ (nth10 ..)) (h _ (nth11 ..)) (h _ (nth12 ..)) (h _ (nth13 ..)) (h _ (nth14 ..)) (h _ (nth15 ..)) (h _ (nth16 ..)) (h _ (nth17 ..)) (h _ (nth18 ..)) (h _ (nth19 ..)) (h _ (nth20 ..)) (h _ (nth21 ..)) (h _ (nth22 ..)) (h _ (nth23 ..)) (h _ (nth24 ..)) (h _ (nth25 ..)) (h _ (nth26 ..)) (h _ (nth27 ..)) (h _ (nth28 ..)) (h _ (nth29 ..)) (h _ (nth30 ..)) a0 a1 a2 s
  | vfEnableSet a0 => exact execVfEnableSet_view vw (h _ (nth0 ..)) (h _ (nth1 ..)) (h _ (nth2 ..)) (h _ (nth3 ..)) a0 s
  | clusterResetRelease a0 => exact execClusterResetRelease_view vw (h _ (nth0 ..)) (h _ (nth1 ..)) (h _ (nth2 ..)) (h _ (nth3 ..)) (h _ (nth4 ..)) (h _ (nth5 ..)) (h _ (nth6 ..)) (h _ (nth7 ..)) a0 s
  | scrubAgeLimit => exact execScrubAgeLimit_view vw (h _ (nth0 ..)) s
  | standaloneDecision => exact execStandaloneDecision_view vw (h _ (nth0 ..)) (h _ (nth1 ..)) (h _ (nth2 ..)) s

end Sys2Proof.Machine
end

