-- ==== Sys2Proof/Laws/Canonical.lean ====
section
/-! SUPPORT. Every command keeps the canonical form of memory and of the register bank: one lemma for each operation of
the machine. -/

set_option linter.unusedTactic false
set_option linter.unreachableTactic false
set_option linter.unusedSimpArgs false
set_option linter.unusedVariables false

namespace Sys2Proof.Machine

/-- The canonical form of both tables. -/
def Canon (s : State) : Prop := State.canonical s

theorem Canon.of_eq {s t : State} (hs : Canon s) (hm : t.mem = s.mem) (hr : t.regs = s.regs) : Canon t := by
  unfold Canon State.canonical at *
  rw [hm, hr]; exact hs

theorem canon_iff (s : State) : Canon s = State.canonical s := (rfl)

@[simp] theorem canon_mk (a b c d e f g h i j k l m n o p q r u v w x y z a1 b1 c1 d1 e1 f1 g1 h1) :
    Canon (State.mk a b c d e f g h i j k l m n o p q r u v w x y z a1 b1 c1 d1 e1 f1 g1 h1) =
      (Tab.wf (fun _ => 0#8) c = true ∧ Tab.wf regReset b = true) := (rfl)

@[simp] theorem wf_mem {s : State} (hs : Canon s) : Tab.wf (fun _ => 0#8) s.mem = true := hs.1
@[simp] theorem wf_regs {s : State} (hs : Canon s) : Tab.wf regReset s.regs = true := hs.2

@[simp] theorem canon_ite (p : Prop) [Decidable p] (x y : State) (hx : Canon x) (hy : Canon y) :
    Canon (if p then x else y) := by split <;> assumption

@[simp] theorem setReg_canon (k : Nat) (w : Word) (s : State) (hs : Canon s) : Canon (setReg k w s) :=
  ⟨hs.1, Tab.wf_store k w hs.2⟩
@[simp] theorem setF_canon (f : Fld) (v : Nat) (s : State) (hs : Canon s) : Canon (setF f v s) := setReg_canon _ _ s hs
@[simp] theorem addF_canon (f : Fld) (v : Nat) (s : State) (hs : Canon s) : Canon (addF f v s) := setF_canon _ _ s hs
@[simp] theorem writeB_canon (a : Nat) (b : Byte) (s : State) (hs : Canon s) : Canon (writeB a b s) :=
  ⟨Tab.wf_store (d := fun _ => 0#8) a b hs.1, hs.2⟩
@[simp] theorem clearMem_canon (f : Nat → Bool) (s : State) (hs : Canon s) : Canon (clearMem f s) :=
  ⟨Tab.wf_clear f hs.1, hs.2⟩
@[simp] theorem clearRegs_canon (f : Nat → Bool) (s : State) (hs : Canon s) : Canon (clearRegs f s) :=
  ⟨hs.1, Tab.wf_clear f hs.2⟩
@[simp] theorem filter_mem (f : Nat × Byte → Bool) (s : State) (hs : Canon s) :
    Tab.wf (fun _ => 0#8) (s.mem.filter f) = true := Tab.wf_filter f hs.1
@[simp] theorem filter_regs (f : Nat × Word → Bool) (s : State) (hs : Canon s) :
    Tab.wf regReset (s.regs.filter f) = true := Tab.wf_filter f hs.2

@[simp] theorem each_canon {α : Type} (xs : List α) (f : α → State → State) (h : ∀ x s, Canon s → Canon (f x s))
    (s : State) (hs : Canon s) : Canon (each xs f s) := by
  induction xs generalizing s with
  | nil => exact hs
  | cons x xs ih => exact ih (f x s) (h x s hs)

@[simp] theorem mark_canon (f : Fld) (s : State) (hs : Canon s) : Canon (mark f s) := by
  exact Canon.of_eq hs rfl rfl

@[simp] theorem flag_canon (f : Fld) (s : State) (hs : Canon s) : Canon (flag f s) := by
  simp (maxDischargeDepth := 60) +contextual [flag, *]

@[simp] theorem clearFlag_canon (f : Fld) (s : State) (hs : Canon s) : Canon (clearFlag f s) := by
  simp (maxDischargeDepth := 60) +contextual [clearFlag, *]

@[simp] theorem softWrite_canon (key : Nat) (v : Word) (s : State) (hs : Canon s) : Canon (softWrite key v s) := by
  unfold softWrite
  split <;> simp (maxDischargeDepth := 60) +contextual [*]

@[simp] theorem writeBytes_canon (a : Nat) (bs : List Byte) (s : State) (hs : Canon s) : Canon (writeBytes a bs s) := by
  induction bs generalizing a s with
  | nil => simp (maxDischargeDepth := 60) +contextual [*, writeBytes, *]
  | cons b bs ih => simp (maxDischargeDepth := 60) +contextual [*, writeBytes, *]

@[simp] theorem updTime_canon (f : TimeSt → TimeSt) (s : State) (hs : Canon s) : Canon (updTime f s) := by
  exact Canon.of_eq hs rfl rfl

@[simp] theorem updCal_canon (f : CalSt → CalSt) (s : State) (hs : Canon s) : Canon (updCal f s) := by
  exact Canon.of_eq hs rfl rfl

@[simp] theorem mapPorts_canon (f : Tab PortSt → Tab PortSt) (s : State) (hs : Canon s) : Canon (mapPorts f s) := by
  exact Canon.of_eq hs rfl rfl

@[simp] theorem mapDevices_canon (f : Tab DeviceSt → Tab DeviceSt) (s : State) (hs : Canon s) : Canon (mapDevices f s) := by
  exact Canon.of_eq hs rfl rfl

@[simp] theorem mapImages_canon (f : Tab ImageSt → Tab ImageSt) (s : State) (hs : Canon s) : Canon (mapImages f s) := by
  exact Canon.of_eq hs rfl rfl

@[simp] theorem mapPads_canon (f : Tab PadSt → Tab PadSt) (s : State) (hs : Canon s) : Canon (mapPads f s) := by
  exact Canon.of_eq hs rfl rfl

@[simp] theorem mapPgOn_canon (f : Tab Bool → Tab Bool) (s : State) (hs : Canon s) : Canon (mapPgOn f s) := by
  exact Canon.of_eq hs rfl rfl

@[simp] theorem mapFifos_canon (f : Tab FifoSt → Tab FifoSt) (s : State) (hs : Canon s) : Canon (mapFifos f s) := by
  exact Canon.of_eq hs rfl rfl

@[simp] theorem mapChans_canon (f : Tab ChanSt → Tab ChanSt) (s : State) (hs : Canon s) : Canon (mapChans f s) := by
  exact Canon.of_eq hs rfl rfl

@[simp] theorem mapClusters_canon (f : Tab ClusterSt → Tab ClusterSt) (s : State) (hs : Canon s) : Canon (mapClusters f s) := by
  exact Canon.of_eq hs rfl rfl

@[simp] theorem mapCores_canon (f : Tab CoreSt → Tab CoreSt) (s : State) (hs : Canon s) : Canon (mapCores f s) := by
  exact Canon.of_eq hs rfl rfl

@[simp] theorem mapLocks_canon (f : Tab LockSt → Tab LockSt) (s : State) (hs : Canon s) : Canon (mapLocks f s) := by
  exact Canon.of_eq hs rfl rfl

@[simp] theorem mapRemote_canon (f : List (Nat × Nat × Nat × Crossing) → List (Nat × Nat × Nat × Crossing)) (s : State) (hs : Canon s) : Canon (mapRemote f s) := by
  exact Canon.of_eq hs rfl rfl

@[simp] theorem mapDelayed_canon (f : List (Nat × Nat × Crossing) → List (Nat × Nat × Crossing)) (s : State) (hs : Canon s) : Canon (mapDelayed f s) := by
  exact Canon.of_eq hs rfl rfl

@[simp] theorem mapXfers_canon (f : Tab Xfer → Tab Xfer) (s : State) (hs : Canon s) : Canon (mapXfers f s) := by
  exact Canon.of_eq hs rfl rfl

@[simp] theorem setXferNext_canon (n : Nat) (s : State) (hs : Canon s) : Canon (setXferNext n s) := by
  exact Canon.of_eq hs rfl rfl

@[simp] theorem mapArbs_canon (f : Tab ArbSt → Tab ArbSt) (s : State) (hs : Canon s) : Canon (mapArbs f s) := by
  exact Canon.of_eq hs rfl rfl

@[simp] theorem mapHolds_canon (f : Tab Nat → Tab Nat) (s : State) (hs : Canon s) : Canon (mapHolds f s) := by
  exact Canon.of_eq hs rfl rfl

@[simp] theorem mapHot_canon (f : Tab (Nat × Word) → Tab (Nat × Word)) (s : State) (hs : Canon s) : Canon (mapHot f s) := by
  exact Canon.of_eq hs rfl rfl

@[simp] theorem setAdmin_canon (a : Option AdmPend) (s : State) (hs : Canon s) : Canon (setAdmin a s) := by
  exact Canon.of_eq hs rfl rfl

@[simp] theorem goTo_canon (t : Nat) (s : State) (hs : Canon s) : Canon (goTo t s) := by
  exact Canon.of_eq hs rfl rfl

@[simp] theorem useFresh_canon (s : State) (hs : Canon s) : Canon (useFresh s) := by
  exact Canon.of_eq hs rfl rfl

@[simp] theorem setCore_canon (i : Nat) (c : CoreSt) (s : State) (hs : Canon s) : Canon (setCore i c s) := by
  exact Canon.of_eq hs rfl rfl

@[simp] theorem updCore_canon (i : Nat) (f : CoreSt → CoreSt) (s : State) (hs : Canon s) : Canon (updCore i f s) := by
  exact Canon.of_eq hs rfl rfl

@[simp] theorem updClus_canon (n : Nat) (f : ClusterSt → ClusterSt) (s : State) (hs : Canon s) : Canon (updClus n f s) := by
  exact Canon.of_eq hs rfl rfl

@[simp] theorem updTen_canon (t : Nat) (f : TenantSt → TenantSt) (s : State) (hs : Canon s) : Canon (updTen t f s) := by
  exact Canon.of_eq hs rfl rfl

@[simp] theorem updDev_canon (t : Nat) (d : Nat) (f : DeviceSt → DeviceSt) (s : State) (hs : Canon s) : Canon (updDev t d f s) := by
  exact Canon.of_eq hs rfl rfl

@[simp] theorem updPort_canon (p : Nat) (f : PortSt → PortSt) (s : State) (hs : Canon s) : Canon (updPort p f s) := by
  exact Canon.of_eq hs rfl rfl

@[simp] theorem updPad_canon (p : Nat) (f : PadSt → PadSt) (s : State) (hs : Canon s) : Canon (updPad p f s) := by
  exact Canon.of_eq hs rfl rfl

@[simp] theorem updFifo_canon (i : Nat) (f : FifoSt → FifoSt) (s : State) (hs : Canon s) : Canon (updFifo i f s) := by
  exact Canon.of_eq hs rfl rfl

@[simp] theorem updChan_canon (c : Nat) (f : ChanSt → ChanSt) (s : State) (hs : Canon s) : Canon (updChan c f s) := by
  exact Canon.of_eq hs rfl rfl

@[simp] theorem updLGroup_canon (g : Nat) (f : LGroupSt → LGroupSt) (s : State) (hs : Canon s) : Canon (updLGroup g f s) := by
  exact Canon.of_eq hs rfl rfl

@[simp] theorem updDrn_canon (p : Nat) (f : DrnSt → DrnSt) (s : State) (hs : Canon s) : Canon (updDrn p f s) := by
  exact Canon.of_eq hs rfl rfl

@[simp] theorem updPwrCl_canon (n : Nat) (f : PwrCl → PwrCl) (s : State) (hs : Canon s) : Canon (updPwrCl n f s) := by
  exact Canon.of_eq hs rfl rfl

@[simp] theorem updHost_canon (f : HostSt → HostSt) (s : State) (hs : Canon s) : Canon (updHost f s) := by
  exact Canon.of_eq hs rfl rfl

@[simp] theorem updGuard_canon (f : GuardSt → GuardSt) (s : State) (hs : Canon s) : Canon (updGuard f s) := by
  exact Canon.of_eq hs rfl rfl

@[simp] theorem updGroup_canon (f : GroupSt → GroupSt) (s : State) (hs : Canon s) : Canon (updGroup f s) := by
  exact Canon.of_eq hs rfl rfl

@[simp] theorem updJnl_canon (f : JournalSt → JournalSt) (s : State) (hs : Canon s) : Canon (updJnl f s) := by
  exact Canon.of_eq hs rfl rfl

@[simp] theorem updPower_canon (f : PowerSt → PowerSt) (s : State) (hs : Canon s) : Canon (updPower f s) := by
  exact Canon.of_eq hs rfl rfl

@[simp] theorem castHold_canon (n : Nat) (c : CoreId) (read : Bool) (w : SideWrite) (s : State) (hs : Canon s) : Canon (castHold n c read w s) := by
  exact Canon.of_eq hs rfl rfl

@[simp] theorem castWrite_canon (c : CoreId) (n a : Nat) (v : Word) (k : State → Outcome) (hk : ∀ s, Canon s → NextP (fun t => Canon t) (k s)) (s : State) (hs : Canon s) : NextP (fun t => Canon t) (castWrite c n a v k s) := by
  unfold castWrite
  split
  · simp (maxDischargeDepth := 60) +contextual [*]
  · exact hk s hs

@[simp] theorem castRead_canon (c : CoreId) (n a : Nat) (k : State → Outcome) (hk : ∀ s, Canon s → NextP (fun t => Canon t) (k s)) (s : State) (hs : Canon s) : NextP (fun t => Canon t) (castRead c n a k s) := by
  unfold castRead
  split
  · simp (maxDischargeDepth := 60) +contextual [*]
  · exact hk s hs

@[simp] theorem sendFar_canon (t : Nat) (d : Nat) (turn : Nat) (it : Item) (s : State) (hs : Canon s) : Canon (sendFar t d turn it s) := by
  exact Canon.of_eq hs rfl rfl

@[simp] theorem drnSend_canon (p : Nat) (type : Nat) (routed : Bool) (dst : Nat) (payload : List Byte) (s : State) (hs : Canon s) : Canon (drnSend p type routed dst payload s) := by
  exact Canon.of_eq hs rfl rfl

@[simp] theorem drnRoute_canon (type : Nat) (dst : Nat) (payload : List Byte) (s : State) (hs : Canon s) : Canon (drnRoute type dst payload s) := by
  exact Canon.of_eq hs rfl rfl

@[simp] theorem icLatchSet_canon (t : Nat) (c : Nat) (k : Nat) (s : State) (hs : Canon s) : Canon (icLatchSet t c k s) := by
  unfold icLatchSet
  split <;> simp (maxDischargeDepth := 60) +contextual [*]

@[simp] theorem occurAt_canon (t : Nat) (c : Nat) (k : Nat) (s : State) (hs : Canon s) : Canon (occurAt t c k s) := by
  simp (maxDischargeDepth := 60) +contextual [occurAt, *]

@[simp] theorem occur_canon (c : Nat) (k : Nat) (s : State) (hs : Canon s) : Canon (occur c k s) := by
  simp (maxDischargeDepth := 60) +contextual [occur, *]

@[simp] theorem icSettle_canon (c : Nat) (s : State) (hs : Canon s) : Canon (icSettle c s) := by
  simp (maxDischargeDepth := 60) +contextual [icSettle, *]

@[simp] theorem occurCp_canon (k : Nat) (s : State) (hs : Canon s) : Canon (occurCp k s) := by
  simp (maxDischargeDepth := 60) +contextual [occurCp, *]

@[simp] theorem icCommit_canon (c : CoreId) (lv : Nat) (k : Nat) (s : State) (hs : Canon s) : Canon (icCommit c lv k s) := by
  unfold icCommit
  repeat' split
  all_goals simp (maxDischargeDepth := 60) +contextual [*]

@[simp] theorem wakeRecord_canon (e : WakeEv) (replay : Bool) (s : State) (hs : Canon s) : Canon (wakeRecord e replay s) := by
  simp (maxDischargeDepth := 60) +contextual [wakeRecord, *]

@[simp] theorem wakeEvent_canon (source : Nat) (index : Nat) (s : State) (hs : Canon s) : Canon (wakeEvent source index s) := by
  simp (maxDischargeDepth := 60) +contextual [wakeEvent, *]

@[simp] theorem wakeStart_canon (n : Nat) (src : Nat) (s : State) (hs : Canon s) : Canon (wakeStart n src s) := by
  simp (maxDischargeDepth := 60) +contextual [wakeStart, *]

@[simp] theorem wakeRequest_canon (n : Nat) (src : Nat) (s : State) (hs : Canon s) : Canon (wakeRequest n src s) := by
  simp (maxDischargeDepth := 60) +contextual [wakeRequest, *]

@[simp] theorem icPop_canon (i : Nat) (s : State) (hs : Canon s) : Canon (icPop i s) := by
  unfold icPop
  split <;> simp (maxDischargeDepth := 60) +contextual [*]

@[simp] theorem icRaise_canon (i : Nat) (v : Word) (s : State) (hs : Canon s) : Canon (icRaise i v s) := by
  simp (maxDischargeDepth := 60) +contextual [icRaise, *]

@[simp] theorem icSet_canon (n : Nat) (hi : Bool) (v : Word) (s : State) (hs : Canon s) : Canon (icSet n hi v s) := by
  unfold icSet
  repeat' split
  all_goals simp (maxDischargeDepth := 60) +contextual [*]

@[simp] theorem icSrcWrite_canon (n : Nat) (k : Nat) (v : Word) (s : State) (hs : Canon s) : Canon (icSrcWrite n k v s) := by
  simp (maxDischargeDepth := 60) +contextual [icSrcWrite, *]

@[simp] theorem execHoldoffEnd_canon (n : ClusterId) (g : Fin 8) (s : State) (hs : Canon s) : NextP (fun t => Canon t) (execHoldoffEnd n g s) := by
  unfold execHoldoffEnd
  repeat' split
  all_goals simp (maxDischargeDepth := 60) +contextual [*]

@[simp] theorem timerArm_canon (i : Nat) (v : Word) (s : State) (hs : Canon s) : Canon (timerArm i v s) := by
  simp (maxDischargeDepth := 60) +contextual [timerArm, *]

@[simp] theorem execCoreTimerDue_canon (c : CoreId) (s : State) (hs : Canon s) : NextP (fun t => Canon t) (execCoreTimerDue c s) := by
  unfold execCoreTimerDue
  repeat' split
  all_goals simp (maxDischargeDepth := 60) +contextual [*]

@[simp] theorem execThreadAlarm_canon (n : ClusterId) (th : ThreadNo) (s : State) (hs : Canon s) : NextP (fun t => Canon t) (execThreadAlarm n th s) := by
  simp only [execThreadAlarm]
  repeat' split
  all_goals simp (maxDischargeDepth := 60) +contextual [*]

@[simp] theorem alarmArm_canon (n : Nat) (t : Nat) (v : Word) (s : State) (hs : Canon s) : Canon (alarmArm n t v s) := by
  simp (maxDischargeDepth := 60) +contextual [alarmArm, *]

@[simp] theorem streamOut_canon (kind : Nat) (data : List Byte) (s : State) (hs : Canon s) : Canon (streamOut kind data s) := by
  simp (maxDischargeDepth := 60) +contextual [streamOut, *]

@[simp] theorem loseRec_canon (st : Stamp) (s : State) (hs : Canon s) : Canon (loseRec st s) := by
  simp (maxDischargeDepth := 60) +contextual [loseRec, *]

@[simp] theorem appendRec_canon (r : JRec) (s : State) (hs : Canon s) : Canon (appendRec r s) := by
  unfold appendRec
  split <;> simp (maxDischargeDepth := 60) +contextual [*]

@[simp] theorem openNew_canon (t : Nat) (s : State) (hs : Canon s) : Canon (openNew t s) := by
  simp only [openNew]
  repeat' split
  all_goals simp (maxDischargeDepth := 60) +contextual [*]

@[simp] theorem jnlFull_canon (s : State) (hs : Canon s) : Canon (jnlFull s) := by
  simp (maxDischargeDepth := 60) +contextual [jnlFull, *]

@[simp] theorem closeSeg_canon (code : Nat) (t : Nat) (s : State) (hs : Canon s) : Canon (closeSeg code t s) := by
  simp only [closeSeg]
  repeat' split
  all_goals simp (maxDischargeDepth := 60) +contextual [*]

@[simp] theorem timeClose_canon (k : Nat) (s : State) (hs : Canon s) : Canon (timeClose k s) := by
  induction k generalizing s with
  | zero => simpa [timeClose] using hs
  | succ k ih =>
    simp only [timeClose]
    split
    · split
      · exact ih _ (by simp (maxDischargeDepth := 60) +contextual [*])
      · exact hs
    · exact hs

@[simp] theorem accept_canon (r : Nat → JRec) (s : State) (hs : Canon s) : Canon (accept r s) := by
  simp only [accept]
  repeat' split
  all_goals simp (maxDischargeDepth := 60) +contextual [*]

@[simp] theorem jnlBy_canon (type : Nat) (turn : Nat) (exact : List Byte) (log : List Byte) (s : State) (hs : Canon s) : Canon (jnlBy type turn exact log s) := by
  simp (maxDischargeDepth := 60) +contextual [jnlBy, *]

@[simp] theorem jnlAt_canon (type : Nat) (turn : Nat) (payload : List Byte) (s : State) (hs : Canon s) : Canon (jnlAt type turn payload s) := by
  simp (maxDischargeDepth := 60) +contextual [jnlAt, *]

@[simp] theorem jnl_canon (type : Nat) (payload : List Byte) (s : State) (hs : Canon s) : Canon (jnl type payload s) := by
  simp (maxDischargeDepth := 60) +contextual [jnl, *]

@[simp] theorem jnlFlush_canon (s : State) (hs : Canon s) : Canon (jnlFlush s) := by
  simp (maxDischargeDepth := 60) +contextual [jnlFlush, *]

@[simp] theorem jPacket_canon (turn : Nat) (port : Nat) (pk : Nat) (len : Nat) (s : State) (hs : Canon s) : Canon (jPacket turn port pk len s) := by
  simp (maxDischargeDepth := 60) +contextual [jPacket, *]

@[simp] theorem jSlotIn_canon (slot : Slot) (s : State) (hs : Canon s) : Canon (jSlotIn slot s) := by
  simp (maxDischargeDepth := 60) +contextual [jSlotIn, *]

@[simp] theorem jSlotOut_canon (turn : Nat) (slot : Slot) (s : State) (hs : Canon s) : Canon (jSlotOut turn slot s) := by
  simp (maxDischargeDepth := 60) +contextual [jSlotOut, *]

@[simp] theorem jTenant_canon (ev : Nat) (t : Nat) (frame : Nat) (s : State) (hs : Canon s) : Canon (jTenant ev t frame s) := by
  simp (maxDischargeDepth := 60) +contextual [jTenant, *]

@[simp] theorem jDevice_canon (ev : Nat) (t : Nat) (d : Nat) (tag : Nat) (data : List Byte) (s : State) (hs : Canon s) : Canon (jDevice ev t d tag data s) := by
  simp (maxDischargeDepth := 60) +contextual [jDevice, *]

@[simp] theorem jPort_canon (ev : Nat) (p : Nat) (data : List Byte) (s : State) (hs : Canon s) : Canon (jPort ev p data s) := by
  simp (maxDischargeDepth := 60) +contextual [jPort, *]

@[simp] theorem jSettle_canon (p : Nat) (discarded : Bool) (data : List Byte) (s : State) (hs : Canon s) : Canon (jSettle p discarded data s) := by
  simp (maxDischargeDepth := 60) +contextual [jSettle, *]

@[simp] theorem jLoad_canon (ch : Nat) (ev : Nat) (data : List Byte) (s : State) (hs : Canon s) : Canon (jLoad ch ev data s) := by
  simp (maxDischargeDepth := 60) +contextual [jLoad, *]

@[simp] theorem jTime_canon (ev : Nat) (data : List Byte) (s : State) (hs : Canon s) : Canon (jTime ev data s) := by
  simp (maxDischargeDepth := 60) +contextual [jTime, *]

@[simp] theorem jPers_canon (ev : Nat) (data : List Byte) (s : State) (hs : Canon s) : Canon (jPers ev data s) := by
  simp (maxDischargeDepth := 60) +contextual [jPers, *]

@[simp] theorem jAdmin_canon (slot : Slot) (s : State) (hs : Canon s) : Canon (jAdmin slot s) := by
  simp (maxDischargeDepth := 60) +contextual [jAdmin, *]

@[simp] theorem jJournal_canon (code : Nat) (data : List Byte) (s : State) (hs : Canon s) : Canon (jJournal code data s) := by
  simp (maxDischargeDepth := 60) +contextual [jJournal, *]

@[simp] theorem acceptAll_canon (rs : List JRec) (s : State) (hs : Canon s) : Canon (acceptAll rs s) := by
  simp (maxDischargeDepth := 60) +contextual [acceptAll, *]

@[simp] theorem runClose_canon (tx : Bool) (p : Nat) (s : State) (hs : Canon s) : Canon (runClose tx p s) := by
  unfold runClose
  repeat' split
  all_goals simp (maxDischargeDepth := 60) +contextual [*]

@[simp] theorem runByte_canon (tx : Bool) (p : Nat) (b : RxByte) (s : State) (hs : Canon s) : Canon (runByte tx p b s) := by
  simp (maxDischargeDepth := 60) +contextual [runByte, *]

@[simp] theorem settleClose_canon (tn : Nat) (dv : Nat) (s : State) (hs : Canon s) : Canon (settleClose tn dv s) := by
  unfold settleClose
  repeat' split
  all_goals simp (maxDischargeDepth := 60) +contextual [*]

@[simp] theorem traceEnd_canon (ch : Nat) (endCode : Nat) (s : State) (hs : Canon s) : Canon (traceEnd ch endCode s) := by
  unfold traceEnd
  split <;> simp (maxDischargeDepth := 60) +contextual [*]

@[simp] theorem jFrameLen_canon (rounds : Nat) (frame : Nat) (s : State) (hs : Canon s) : Canon (jFrameLen rounds frame s) := by
  simp (maxDischargeDepth := 60) +contextual [jFrameLen, *]

@[simp] theorem chainNext_canon (c : Option Nat) (seq : Nat) (digest : List Byte) (s : State) (hs : Canon s) : Canon (chainNext c seq digest s) := by
  exact Canon.of_eq hs rfl rfl

@[simp] theorem signFirst_canon (s : State) (hs : Canon s) : Canon (signFirst s) := by
  unfold signFirst
  repeat' split
  all_goals simp (maxDischargeDepth := 60) +contextual [*]

@[simp] theorem writeAnchor_canon (s : State) (hs : Canon s) : Canon (writeAnchor s) := by
  unfold writeAnchor
  split <;> simp (maxDischargeDepth := 60) +contextual [*]

@[simp] theorem commitFirst_canon (s : State) (hs : Canon s) : Canon (commitFirst s) := by
  unfold commitFirst
  split <;> simp (maxDischargeDepth := 60) +contextual [*]

@[simp] theorem commitAll_canon (s : State) (hs : Canon s) : Canon (commitAll s) := by
  unfold commitAll
  repeat' split
  all_goals simp (maxDischargeDepth := 60) +contextual [*]

@[simp] theorem jnlHealth_canon (s : State) (hs : Canon s) : Canon (jnlHealth s) := by
  simp (maxDischargeDepth := 60) +contextual [jnlHealth, *]

@[simp] theorem markFailed_canon (n : Nat) (s : State) (hs : Canon s) : Canon (markFailed n s) := by
  simp (maxDischargeDepth := 60) +contextual [markFailed, *]

@[simp] theorem faultRec_canon (mech : Nat) (outcome : Nat) (unit : Nat) (lcl : Nat) (phys : Nat) (pos : Nat) (tenant : Nat) (addr : Nat) (detail : Nat) (cast : Nat) (s : State) (hs : Canon s) : Canon (faultRec mech outcome unit lcl phys pos tenant addr detail cast s) := by
  simp (maxDischargeDepth := 60) +contextual [faultRec, *]

@[simp] theorem eccRec_canon (lcl : Nat) (phys : Nat) (addr : Nat) (s : State) (hs : Canon s) : Canon (eccRec lcl phys addr s) := by
  simp (maxDischargeDepth := 60) +contextual [eccRec, *]

@[simp] theorem threadFault_canon (n : Nat) (t : Nat) (cause : Nat) (bad : Word) (s : State) (hs : Canon s) : Canon (threadFault n t cause bad s) := by
  simp (maxDischargeDepth := 60) +contextual [threadFault, *]

@[simp] theorem coreEntry_canon (i : Nat) (cause : Nat) (detail : Nat) (bad : Word) (s : State) (hs : Canon s) : Canon (coreEntry i cause detail bad s) := by
  simp (maxDischargeDepth := 60) +contextual [coreEntry, *]

@[simp] theorem raiseExc_canon (c : CoreId) (cause : Nat) (detail : Nat) (bad : Word) (s : State) (hs : Canon s) : Canon (raiseExc c cause detail bad s) := by
  unfold raiseExc
  split <;> simp (maxDischargeDepth := 60) +contextual [*]

@[simp] theorem busErr_canon (c : CoreId) (a : Nat) (s : State) (hs : Canon s) : Canon (busErr c a s) := by
  simp (maxDischargeDepth := 60) +contextual [busErr, *]

@[simp] theorem privErr_canon (c : CoreId) (s : State) (hs : Canon s) : Canon (privErr c s) := by
  simp (maxDischargeDepth := 60) +contextual [privErr, *]

@[simp] theorem cpOnly_canon (c : CoreId) (a : Nat) (k : State → State) (s : State) (hk : ∀ y0, Canon y0 → Canon (k y0)) (hs : Canon s) : Canon (cpOnly c a k s) := by
  simp (maxDischargeDepth := 60) +contextual [cpOnly, *]

@[simp] theorem t0OrCp_canon (n : Nat) (c : CoreId) (a : Nat) (k : State → State) (s : State) (hk : ∀ y0, Canon y0 → Canon (k y0)) (hs : Canon s) : Canon (t0OrCp n c a k s) := by
  simp (maxDischargeDepth := 60) +contextual [t0OrCp, *]

@[simp] theorem supOnly_canon (c : CoreId) (k : State → State) (s : State) (hk : ∀ y0, Canon y0 → Canon (k y0)) (hs : Canon s) : Canon (supOnly c k s) := by
  simp (maxDischargeDepth := 60) +contextual [supOnly, *]

@[simp] theorem castReq_canon (r : CastReq) (s : State) (hs : Canon s) : Canon (castReq r s) := by
  simp (maxDischargeDepth := 60) +contextual [castReq, *]

@[simp] theorem execIcEoi_canon (c : CoreId) (s : State) (hs : Canon s) : NextP (fun t => Canon t) (execIcEoi c s) := by
  unfold execIcEoi
  repeat' split
  all_goals simp (maxDischargeDepth := 60) +contextual [*]

@[simp] theorem execIcRaise_canon (c : CoreId) (v : Word) (s : State) (hs : Canon s) : NextP (fun t => Canon t) (execIcRaise c v s) := by
  unfold execIcRaise
  repeat' split
  all_goals simp (maxDischargeDepth := 60) +contextual [*]

@[simp] theorem execIcSet_canon (c : CoreId) (n : ClusterId) (hi : Bool) (v : Word) (s : State) (hs : Canon s) : NextP (fun t => Canon t) (execIcSet c n hi v s) := by
  unfold execIcSet
  repeat' split
  all_goals simp (maxDischargeDepth := 60) +contextual [*]

@[simp] theorem execIcSrcWrite_canon (c : CoreId) (n : ClusterId) (k : Fin 64) (v : Word) (s : State) (hs : Canon s) : NextP (fun t => Canon t) (execIcSrcWrite c n k v s) := by
  unfold execIcSrcWrite
  repeat' split
  all_goals simp (maxDischargeDepth := 60) +contextual [*]

@[simp] theorem execCoreTimerArm_canon (c : CoreId) (v : Word) (s : State) (hs : Canon s) : NextP (fun t => Canon t) (execCoreTimerArm c v s) := by
  unfold execCoreTimerArm
  repeat' split
  all_goals simp (maxDischargeDepth := 60) +contextual [*]

@[simp] theorem execThrAlarmArm_canon (c : CoreId) (v : Word) (s : State) (hs : Canon s) : NextP (fun t => Canon t) (execThrAlarmArm c v s) := by
  unfold execThrAlarmArm
  split <;> simp (maxDischargeDepth := 60) +contextual [*]

@[simp] theorem vbaseWrite_canon (i : Nat) (v : Word) (s : State) (hs : Canon s) : Canon (vbaseWrite i v s) := by
  simp (maxDischargeDepth := 60) +contextual [vbaseWrite, *]

@[simp] theorem execCoreVbaseWrite_canon (c : CoreId) (v : Word) (s : State) (hs : Canon s) : NextP (fun t => Canon t) (execCoreVbaseWrite c v s) := by
  unfold execCoreVbaseWrite
  repeat' split
  all_goals simp (maxDischargeDepth := 60) +contextual [*]

@[simp] theorem ringPut_canon (p : Nat) (off : Nat) (i : Nat) (sl : Slot) (s : State) (hs : Canon s) : Canon (ringPut p off i sl s) := by
  unfold ringPut
  repeat' split
  all_goals simp (maxDischargeDepth := 60) +contextual [*]

@[simp] theorem issueVector_canon (p : Nat) (v : Nat) (s : State) (hs : Canon s) : Canon (issueVector p v s) := by
  simp (maxDischargeDepth := 60) +contextual [issueVector, *]

@[simp] theorem bellAgain_canon (p : Nat) (b : Nat) (s : State) (hs : Canon s) : Canon (bellAgain p b s) := by
  exact Canon.of_eq hs rfl rfl

@[simp] theorem bellSet_canon (p : Nat) (b : Nat) (s : State) (hs : Canon s) : Canon (bellSet p b s).2 := by
  simp (maxDischargeDepth := 60) +contextual [bellSet, *]

@[simp] theorem ringBell_canon (p : Nat) (b : Nat) (s : State) (hs : Canon s) : Canon (ringBell p b s) := by
  simp (maxDischargeDepth := 60) +contextual [ringBell, *]

@[simp] theorem placeRing_canon (p : Nat) (rel : Nat) (sl : Slot) (s : State) (hs : Canon s) : Canon (placeRing p rel sl s).2 := by
  simp (maxDischargeDepth := 60) +contextual [placeRing, *]

@[simp] theorem placeSlot_canon (p : Nat) (rel : Nat) (sl : Slot) (s : State) (hs : Canon s) : Canon (placeSlot p rel sl s).2 := by
  simp only [placeSlot]
  repeat' split
  all_goals simp (maxDischargeDepth := 60) +contextual [*]

@[simp] theorem placeSlots_canon (p rel : Nat) (sls : List Slot) (s : State) (hs : Canon s) : Canon (placeSlots p rel sls s).2 := by
  induction sls generalizing s with
  | nil => simp (maxDischargeDepth := 60) +contextual [*, placeSlots, *]
  | cons b bs ih => simp (maxDischargeDepth := 60) +contextual [*, placeSlots, *]

@[simp] theorem placeMsgs_canon (p rel n : Nat) (sls : List Slot) (s : State) (hs : Canon s) : Canon (placeMsgs p rel n sls s).2 := by
  induction n generalizing sls s with
  | zero => simp (maxDischargeDepth := 60) +contextual [*, placeMsgs, *]
  | succ n ih =>
    simp only [placeMsgs]
    split
    · simp (maxDischargeDepth := 60) +contextual [*]
    · simp only []
      split_ifs <;> simp (maxDischargeDepth := 60) +contextual [*]

@[simp] theorem placeBatch_canon (p : Nat) (rel : Nat) (sls : List Slot) (s : State) (hs : Canon s) : Canon (placeBatch p rel sls s) := by
  unfold placeBatch
  repeat' split
  all_goals simp (maxDischargeDepth := 60) +contextual [*]

@[simp] theorem backlogStore_canon (t : Nat) (k : Nat) (s : State) (hs : Canon s) : Canon (backlogStore t k s) := by
  simp (maxDischargeDepth := 60) +contextual [backlogStore, *]

@[simp] theorem execMailboxPlace_canon (t : TenantId) (s : State) (hs : Canon s) : NextP (fun t => Canon t) (execMailboxPlace t s) := by
  simp (maxDischargeDepth := 60) +contextual [execMailboxPlace, *]

@[simp] theorem backlogRun_canon (p n : Nat) (s : State) (hs : Canon s) : Canon (backlogRun p n s).2 := by
  induction n generalizing s with
  | zero => simp (maxDischargeDepth := 60) +contextual [*, backlogRun, *]
  | succ n ih =>
    simp only [backlogRun]
    split
    · simp (maxDischargeDepth := 60) +contextual [*]
    · split_ifs <;> simp (maxDischargeDepth := 60) +contextual [*]

@[simp] theorem execBacklogMove_canon (p : PageId) (s : State) (hs : Canon s) : NextP (fun t => Canon t) (execBacklogMove p s) := by
  unfold execBacklogMove
  repeat' split
  all_goals simp (maxDischargeDepth := 60) +contextual [*]

@[simp] theorem pageState_canon (p : Nat) (act : State → State) (dormant : State → State) (s : State) (hact : ∀ y0, Canon y0 → Canon (act y0)) (hdormant : ∀ y0, Canon y0 → Canon (dormant y0)) (hs : Canon s) : Canon (pageState p act dormant s) := by
  unfold pageState
  split <;> simp (maxDischargeDepth := 60) +contextual [*]

@[simp] theorem pageWrite_canon (r : Requester) (p : Nat) (off : Nat) (act : State → State) (dormant : State → State) (s : State) (hact : ∀ y0, Canon y0 → Canon (act y0)) (hdormant : ∀ y0, Canon y0 → Canon (dormant y0)) (hs : Canon s) : Canon (pageWrite r p off act dormant s) := by
  unfold pageWrite
  repeat' split
  all_goals simp (maxDischargeDepth := 60) +contextual [*]

@[simp] theorem mgmtKeep_canon (sls : List Slot) (s : State) (hs : Canon s) : Canon (mgmtKeep sls s) := by
  exact Canon.of_eq hs rfl rfl

@[simp] theorem fwdBack_canon (sls : List Slot) (s : State) (hs : Canon s) : Canon (fwdBack sls s) := by
  unfold fwdBack
  repeat' split
  all_goals simp (maxDischargeDepth := 60) +contextual [*]

@[simp] theorem admAnswer_canon (op : Nat) (tag : Nat) (status : Nat) (state : Nat) (payload : List Byte) (s : State) (hs : Canon s) : Canon (admAnswer op tag status state payload s) := by
  simp (maxDischargeDepth := 60) +contextual [admAnswer, *]

@[simp] theorem admTakeHead_canon (s : State) (hs : Canon s) : Canon (admTakeHead s) := by
  simp (maxDischargeDepth := 60) +contextual [admTakeHead, *]

@[simp] theorem admSkip_canon (k : Nat) (s : State) (hs : Canon s) : Canon (admSkip k s) := by
  induction k generalizing s with
  | zero => simpa [admSkip] using hs
  | succ k ih =>
    simp only [admSkip]
    split
    · exact hs
    · split
      · exact ih _ (by simp (maxDischargeDepth := 60) +contextual [*])
      · exact hs

@[simp] theorem admRespond_canon (op : Nat) (tag : Nat) (status : Nat) (state : Nat) (payload : List Byte) (s : State) (hs : Canon s) : Canon (admRespond op tag status state payload s) := by
  unfold admRespond
  repeat' split
  all_goals simp (maxDischargeDepth := 60) +contextual [*]

@[simp] theorem admDone_canon (op : Nat) (key : Nat) (status : Nat) (state : Nat) (payload : List Byte) (s : State) (hs : Canon s) : Canon (admDone op key status state payload s) := by
  unfold admDone
  repeat' split
  all_goals simp (maxDischargeDepth := 60) +contextual [*]

@[simp] theorem commitSlot_canon (p : Nat) (s : State) (hs : Canon s) : Canon (commitSlot p s) := by
  simp (maxDischargeDepth := 60) +contextual [commitSlot, *]

@[simp] theorem submitCommit_canon (r : Requester) (p : Nat) (bytes : List Byte) (s : State) (hs : Canon s) : Canon (submitCommit r p bytes s) := by
  unfold submitCommit
  split <;> simp (maxDischargeDepth := 60) +contextual [*]

@[simp] theorem execSubmitCommit_canon (r : Requester) (p : PageId) (bytes : List Byte) (s : State) (hs : Canon s) : NextP (fun t => Canon t) (execSubmitCommit r p bytes s) := by
  unfold execSubmitCommit
  repeat' split
  all_goals simp (maxDischargeDepth := 60) +contextual [*]

@[simp] theorem outHeadWrite_canon (p : Nat) (v : Word) (s : State) (hs : Canon s) : Canon (outHeadWrite p v s) := by
  simp (maxDischargeDepth := 60) +contextual [outHeadWrite, *]

@[simp] theorem execOutHeadWrite_canon (r : Requester) (p : PageId) (v : Word) (s : State) (hs : Canon s) : NextP (fun t => Canon t) (execOutHeadWrite r p v s) := by
  unfold execOutHeadWrite
  repeat' split
  all_goals simp (maxDischargeDepth := 60) +contextual [*]

@[simp] theorem bellInDormant_canon (p : Nat) (v : Word) (s : State) (hs : Canon s) : Canon (bellInDormant p v s) := by
  simp (maxDischargeDepth := 60) +contextual [bellInDormant, *]

@[simp] theorem execDoorbellInWrite_canon (r : Requester) (p : PageId) (v : Word) (s : State) (hs : Canon s) : NextP (fun t => Canon t) (execDoorbellInWrite r p v s) := by
  unfold execDoorbellInWrite
  repeat' split
  all_goals simp (maxDischargeDepth := 60) +contextual [*]

@[simp] theorem bellOutWrite_canon (p : Nat) (v : Word) (s : State) (hs : Canon s) : Canon (bellOutWrite p v s) := by
  simp (maxDischargeDepth := 60) +contextual [bellOutWrite, *]

@[simp] theorem outMaskWrite_canon (p : Nat) (v : Word) (s : State) (hs : Canon s) : Canon (outMaskWrite p v s) := by
  unfold outMaskWrite
  repeat' split
  all_goals simp (maxDischargeDepth := 60) +contextual [*]

@[simp] theorem execOutMaskWrite_canon (r : Requester) (p : PageId) (v : Word) (s : State) (hs : Canon s) : NextP (fun t => Canon t) (execOutMaskWrite r p v s) := by
  unfold execOutMaskWrite
  repeat' split
  all_goals simp (maxDischargeDepth := 60) +contextual [*]

@[simp] theorem execClOutboxWrite_canon (c : CoreId) (n : ClusterId) (v : Word) (s : State) (hs : Canon s) : NextP (fun t => Canon t) (execClOutboxWrite c n v s) := by
  simp (maxDischargeDepth := 60) +contextual [execClOutboxWrite, *]

@[simp] theorem outWriteAt_canon (t : Nat) (p : Nat) (v : Bool) (s : State) (hs : Canon s) : Canon (outWriteAt t p v s) := by
  simp (maxDischargeDepth := 60) +contextual [outWriteAt, *]

@[simp] theorem outWrite_canon (p : Nat) (v : Bool) (s : State) (hs : Canon s) : Canon (outWrite p v s) := by
  simp (maxDischargeDepth := 60) +contextual [outWrite, *]

@[simp] theorem rxQueue_canon (p : Nat) (e : QEntry) (s : State) (hs : Canon s) : Canon (rxQueue p e s) := by
  simp (maxDischargeDepth := 60) +contextual [rxQueue, *]

@[simp] theorem deRelease_canon (p : Nat) (t : Nat) (s : State) (hs : Canon s) : Canon (deRelease p t s) := by
  unfold deRelease
  split <;> simp (maxDischargeDepth := 60) +contextual [*]

@[simp] theorem countByte_canon (i : Nat) (m : Nat) (s : State) (hs : Canon s) : Canon (countByte i m s) := by
  simp only [countByte]
  repeat' split
  all_goals simp (maxDischargeDepth := 60) +contextual [*]

@[simp] theorem countLaunch_canon (p : Nat) (w : TxWord) (s : State) (hs : Canon s) : Canon (countLaunch p w s) := by
  unfold countLaunch
  split <;> simp (maxDischargeDepth := 60) +contextual [*]

@[simp] theorem txJournal_canon (p : Nat) (q : Nat) (w : TxWord) (e : Nat) (s : State) (hs : Canon s) : Canon (txJournal p q w e s) := by
  simp only [txJournal]
  repeat' split
  all_goals simp (maxDischargeDepth := 60) +contextual [*]

@[simp] theorem txLaunch_canon (p : Nat) (e : Nat) (s : State) (hs : Canon s) : Canon (txLaunch p e s) := by
  unfold txLaunch
  repeat' split
  all_goals simp (maxDischargeDepth := 60) +contextual [*]

@[simp] theorem sendEnd_canon (w : TxWord) (e : Nat) (s : State) (hs : Canon s) : Canon (sendEnd w e s) := by
  unfold sendEnd
  split <;> simp (maxDischargeDepth := 60) +contextual [*]

@[simp] theorem txEnd_canon (p : Nat) (e : Nat) (w : TxWord) (s : State) (hs : Canon s) : Canon (txEnd p e w s) := by
  simp (maxDischargeDepth := 60) +contextual [txEnd, *]

theorem txNext_canon (p t : Nat) (s u : State) (hs : Canon s) (h : txNext p t s = some u) : Canon u := by
  unfold txNext at h
  dsimp only at h
  (repeat' split at h) <;> simp only [Option.some.injEq, reduceCtorEq] at h <;> subst h <;> simp (maxDischargeDepth := 60) +contextual [*]

@[simp] theorem txCatchGo_canon (p t k : Nat) (s : State) (hs : Canon s) : Canon (txCatch.go p t k s) := by
  induction k generalizing s with
  | zero => simpa [txCatch.go] using hs
  | succ k ih =>
    simp only [txCatch.go]
    split
    · rename_i h; exact ih _ (txNext_canon p t s _ hs h)
    · exact hs

@[simp] theorem txCatch_canon (p t : Nat) (s : State) (hs : Canon s) : Canon (txCatch p t s) := by
  simp [txCatch, *]

@[simp] theorem saFlush_canon (p : Nat) (s : State) (hs : Canon s) : Canon (saFlush p s) := by
  simp (maxDischargeDepth := 60) +contextual [saFlush, *]

@[simp] theorem saEmpty_canon (p : Nat) (s : State) (hs : Canon s) : Canon (saEmpty p s) := by
  simp (maxDischargeDepth := 60) +contextual [saEmpty, *]

@[simp] theorem padSafe_canon (why : Nat) (p : Nat) (s : State) (hs : Canon s) : Canon (padSafe why p s) := by
  simp (maxDischargeDepth := 60) +contextual [padSafe, *]

@[simp] theorem padUnsafe_canon (why : Nat) (p : Nat) (s : State) (hs : Canon s) : Canon (padUnsafe why p s) := by
  exact Canon.of_eq hs rfl rfl

@[simp] theorem padReset_canon (p : Nat) (s : State) (hs : Canon s) : Canon (padReset p s) := by
  simp (maxDischargeDepth := 60) +contextual [padReset, *]

@[simp] theorem pgHold_canon (n : Nat) (s : State) (hs : Canon s) : Canon (pgHold n s) := by
  unfold pgHold
  repeat' split
  all_goals simp (maxDischargeDepth := 60) +contextual [*]

@[simp] theorem padCfgWrite_canon (p : Nat) (v : Word) (s : State) (hs : Canon s) : Canon (padCfgWrite p v s) := by
  simp (maxDischargeDepth := 60) +contextual [padCfgWrite, *]

@[simp] theorem evIntr_canon (n : Nat) (t : Nat) (c : Nat) (s : State) (hs : Canon s) : Canon (evIntr n t c s) := by
  simp (maxDischargeDepth := 60) +contextual [evIntr, *]

@[simp] theorem evOut_canon (n : Nat) (t : Nat) (c : Nat) (s : State) (hs : Canon s) : Canon (evOut n t c s) := by
  simp (maxDischargeDepth := 60) +contextual [evOut, *]

@[simp] theorem evWake_canon (n : Nat) (c : Nat) (s : State) (hs : Canon s) : Canon (evWake n c s) := by
  simp (maxDischargeDepth := 60) +contextual [evWake, *]

@[simp] theorem evGroups_canon (n : Nat) (t : Nat) (cs : List Nat) (s : State) (hs : Canon s) : Canon (evGroups n t cs s) := by
  unfold evGroups
  repeat' split
  all_goals simp (maxDischargeDepth := 60) +contextual [*]

@[simp] theorem grpWrite_canon (n : Nat) (v : Word) (s : State) (hs : Canon s) : Canon (grpWrite n v s) := by
  simp (maxDischargeDepth := 60) +contextual [grpWrite, *]

@[simp] theorem evFire_canon (k n u : Nat) (cs : List Nat) (s : State) (hs : Canon s) : Canon (evFire k n u cs s) := by
  induction k generalizing u cs s with
  | zero => simpa [evFire] using hs
  | succ k ih =>
    simp only [evFire]
    split
    · exact hs
    · exact ih _ _ _ (by simp (maxDischargeDepth := 60) +contextual [*])

@[simp] theorem evHold_canon (n : Nat) (c : Nat) (s : State) (hs : Canon s) : Canon (evHold n c s) := by
  simp (maxDischargeDepth := 60) +contextual [evHold, *]

@[simp] theorem evStart_canon (n : Nat) (cs : List Nat) (s : State) (hs : Canon s) : Canon (evStart n cs s) := by
  unfold evStart
  repeat' split
  all_goals simp (maxDischargeDepth := 60) +contextual [*]

@[simp] theorem evProduce_canon (n : Nat) (k : Nat) (f : Nat → Bool) (s : State) (hs : Canon s) : Canon (evProduce n k f s) := by
  simp (maxDischargeDepth := 60) +contextual [evProduce, *]

@[simp] theorem padEdgeEvent_canon (p : Nat) (level : Bool) (s : State) (hs : Canon s) : Canon (padEdgeEvent p level s) := by
  simp (maxDischargeDepth := 60) +contextual [padEdgeEvent, *]

@[simp] theorem execRouterEvent_canon (n : ClusterId) (k : Fin 32) (s : State) (hs : Canon s) : NextP (fun t => Canon t) (execRouterEvent n k s) := by
  simp (maxDischargeDepth := 60) +contextual [execRouterEvent, *]

@[simp] theorem evrCfgWrite_canon (n : Nat) (k : Nat) (v : Word) (s : State) (hs : Canon s) : Canon (evrCfgWrite n k v s) := by
  simp (maxDischargeDepth := 60) +contextual [evrCfgWrite, *]

@[simp] theorem execEvrCfgWrite_canon (c : CoreId) (n : ClusterId) (k : Fin 32) (v : Word) (s : State) (hs : Canon s) : NextP (fun t => Canon t) (execEvrCfgWrite c n k v s) := by
  simp (maxDischargeDepth := 60) +contextual [execEvrCfgWrite, *]

@[simp] theorem evrOwnWrite_canon (n : Nat) (k : Nat) (v : Word) (s : State) (hs : Canon s) : Canon (evrOwnWrite n k v s) := by
  simp (maxDischargeDepth := 60) +contextual [evrOwnWrite, *]

@[simp] theorem execEvrLock_canon (c : CoreId) (n : ClusterId) (k : Fin 32) (v : Word) (s : State) (hs : Canon s) : NextP (fun t => Canon t) (execEvrLock c n k v s) := by
  simp (maxDischargeDepth := 60) +contextual [execEvrLock, *]

@[simp] theorem execEventTrigger_canon (c : CoreId) (n : ClusterId) (v : Word) (s : State) (hs : Canon s) : NextP (fun t => Canon t) (execEventTrigger c n v s) := by
  simp (maxDischargeDepth := 60) +contextual [execEventTrigger, *]

@[simp] theorem echoAbandon_canon (n l a : Nat) (s : State) (hs : Canon s) : Canon (echoAbandon n l a s) := by
  unfold echoAbandon
  refine each_canon _ _ (fun x s hs => ?_) _ hs
  split
  all_goals first | exact hs | simp (maxDischargeDepth := 60) +contextual [*] | (split_ifs <;> simp (maxDischargeDepth := 60) +contextual [*])

@[simp] theorem rxCheck_canon (p : Nat) (e : Nat) (s : State) (hs : Canon s) : Canon (rxCheck p e s) := by
  simp (maxDischargeDepth := 60) +contextual [rxCheck, *]

@[simp] theorem rxComplete_canon (p : Nat) (e : Nat) (s : State) (hs : Canon s) : Canon (rxComplete p e s) := by
  simp (maxDischargeDepth := 60) +contextual [rxComplete, *]

@[simp] theorem rxCatch_canon (p : Nat) (t : Nat) (s : State) (hs : Canon s) : Canon (rxCatch p t s) := by
  unfold rxCatch
  split <;> simp (maxDischargeDepth := 60) +contextual [*]

@[simp] theorem rxBefore_canon (p : Nat) (e : Nat) (s : State) (hs : Canon s) : Canon (rxBefore p e s) := by
  unfold rxBefore
  split <;> simp (maxDischargeDepth := 60) +contextual [*]

@[simp] theorem clkEdge_canon (g : Nat) (level : Bool) (e : Nat) (s : State) (hs : Canon s) : Canon (clkEdge g level e s) := by
  simp (maxDischargeDepth := 60) +contextual [clkEdge, *]

@[simp] theorem filteredEdge_canon (p : Nat) (level : Bool) (s : State) (hs : Canon s) : Canon (filteredEdge p level s) := by
  unfold filteredEdge
  split <;> simp (maxDischargeDepth := 60) +contextual [*]

@[simp] theorem execPadIoWrite_canon (c : CoreId) (p : PadId) (v : Word) (s : State) (hs : Canon s) : NextP (fun t => Canon t) (execPadIoWrite c p v s) := by
  simp (maxDischargeDepth := 60) +contextual [execPadIoWrite, *]

@[simp] theorem execStartBitCheck_canon (p : PadId) (level : Bool) (s : State) (hs : Canon s) : NextP (fun t => Canon t) (execStartBitCheck p level s) := by
  simp only [execStartBitCheck]
  repeat' split
  all_goals simp (maxDischargeDepth := 60) +contextual [*]

@[simp] theorem execRxWordComplete_canon (p : PadId) (w : Word) (s : State) (hs : Canon s) : NextP (fun t => Canon t) (execRxWordComplete p w s) := by
  simp only [execRxWordComplete]
  repeat' split
  all_goals simp (maxDischargeDepth := 60) +contextual [*]

@[simp] theorem execSyncRxWordComplete_canon (p : PadId) (w : Word) (span : Nat) (s : State) (hs : Canon s) : NextP (fun t => Canon t) (execSyncRxWordComplete p w span s) := by
  simp only [execSyncRxWordComplete]
  repeat' split
  all_goals simp (maxDischargeDepth := 60) +contextual [*]

@[simp] theorem bindTx_canon (c : CoreId) (p : Nat) (v : Word) (s : State) (hs : Canon s) : Canon (bindTx c p v s).2 := by
  simp only [bindTx]
  repeat' split
  all_goals simp (maxDischargeDepth := 60) +contextual [*]

@[simp] theorem txWrite_canon (c : CoreId) (p : Nat) (v : Word) (s : State) (hs : Canon s) : Canon (txWrite c p v s) := by
  simp (maxDischargeDepth := 60) +contextual [txWrite, *]

@[simp] theorem execSaTxdataWrite_canon (c : CoreId) (p : PadId) (v : Word) (s : State) (hs : Canon s) : NextP (fun t => Canon t) (execSaTxdataWrite c p v s) := by
  simp (maxDischargeDepth := 60) +contextual [execSaTxdataWrite, *]

@[simp] theorem execTxWordLaunch_canon (p : PadId) (s : State) (hs : Canon s) : NextP (fun t => Canon t) (execTxWordLaunch p s) := by
  simp only [execTxWordLaunch]
  repeat' split
  all_goals simp (maxDischargeDepth := 60) +contextual [*]

@[simp] theorem execTxWordEnd_canon (p : PadId) (s : State) (hs : Canon s) : NextP (fun t => Canon t) (execTxWordEnd p s) := by
  simp only [execTxWordEnd]
  repeat' split
  all_goals simp (maxDischargeDepth := 60) +contextual [*]

@[simp] theorem execDeRelease_canon (p : PadId) (s : State) (hs : Canon s) : NextP (fun t => Canon t) (execDeRelease p s) := by
  unfold execDeRelease
  repeat' split
  all_goals simp (maxDischargeDepth := 60) +contextual [*]

@[simp] theorem rxPop_canon (c : CoreId) (p : Nat) (s : State) (hs : Canon s) : Canon (rxPop c p s) := by
  simp only [rxPop]
  repeat' split
  all_goals simp (maxDischargeDepth := 60) +contextual [*]

@[simp] theorem execSaRxdataRead_canon (c : CoreId) (p : PadId) (s : State) (hs : Canon s) : NextP (fun t => Canon t) (execSaRxdataRead c p s) := by
  unfold execSaRxdataRead
  repeat' split
  all_goals simp (maxDischargeDepth := 60) +contextual [*]

@[simp] theorem saCtrlWrite_canon (p : Nat) (v : Word) (s : State) (hs : Canon s) : Canon (saCtrlWrite p v s) := by
  simp (maxDischargeDepth := 60) +contextual [saCtrlWrite, *]

@[simp] theorem execSaCtrlWrite_canon (c : CoreId) (p : PadId) (v : Word) (s : State) (hs : Canon s) : NextP (fun t => Canon t) (execSaCtrlWrite c p v s) := by
  simp (maxDischargeDepth := 60) +contextual [execSaCtrlWrite, *]

@[simp] theorem saStatWrite_canon (p : Nat) (v : Word) (s : State) (hs : Canon s) : Canon (saStatWrite p v s) := by
  unfold saStatWrite
  repeat' split
  all_goals simp (maxDischargeDepth := 60) +contextual [*]

@[simp] theorem execSaStatWrite_canon (c : CoreId) (p : PadId) (v : Word) (s : State) (hs : Canon s) : NextP (fun t => Canon t) (execSaStatWrite c p v s) := by
  simp (maxDischargeDepth := 60) +contextual [execSaStatWrite, *]

@[simp] theorem greedySet_canon (n : Nat) (on : Bool) (s : State) (hs : Canon s) : Canon (greedySet n on s) := by
  simp (maxDischargeDepth := 60) +contextual [greedySet, *]

@[simp] theorem barrelCtrlWrite_canon (n : Nat) (v : Word) (s : State) (hs : Canon s) : Canon (barrelCtrlWrite n v s) := by
  unfold barrelCtrlWrite
  extract_lets a b c d
  have ha : Canon a := canon_ite _ _ _ hs (setF_canon _ _ _ hs)
  have hb : Canon b := canon_ite _ _ _ (clearFlag_canon _ _ ha) ha
  have hc : Canon c := canon_ite _ _ _ (clearFlag_canon _ _ hb) hb
  have he : Canon (if isSet c (fGreedy n) then greedySet n false (setF (fGreedy n) 0 c) else c) :=
    canon_ite _ _ _ (greedySet_canon _ _ _ (setF_canon _ _ _ hc)) hc
  have hd : Canon d :=
    canon_ite _ _ _ (canon_ite _ _ _ (canon_ite _ _ _ hc (greedySet_canon _ _ _ (setF_canon _ _ _ hc))) (flag_canon _ _ he)) he
  exact canon_ite _ _ _ (updClus_canon _ _ _ hd) hd

@[simp] theorem execSlotApplyRequest_canon (c : CoreId) (n : ClusterId) (v : Word) (s : State) (hs : Canon s) : NextP (fun t => Canon t) (execSlotApplyRequest c n v s) := by
  unfold execSlotApplyRequest
  repeat' split
  all_goals simp (maxDischargeDepth := 60) +contextual [*]

@[simp] theorem execGreedyOn_canon (c : CoreId) (n : ClusterId) (v : Word) (s : State) (hs : Canon s) : NextP (fun t => Canon t) (execGreedyOn c n v s) := by
  unfold execGreedyOn
  repeat' split
  all_goals simp (maxDischargeDepth := 60) +contextual [*]

@[simp] theorem execGreedyOff_canon (c : CoreId) (n : ClusterId) (v : Word) (s : State) (hs : Canon s) : NextP (fun t => Canon t) (execGreedyOff c n v s) := by
  unfold execGreedyOff
  repeat' split
  all_goals simp (maxDischargeDepth := 60) +contextual [*]

@[simp] theorem nextWrite_canon (key : Nat) (v : Word) (s : State) (hs : Canon s) : Canon (nextWrite key v s) := by
  simp (maxDischargeDepth := 60) +contextual [nextWrite, *]

@[simp] theorem execSlotTableApply_canon (n : ClusterId) (s : State) (hs : Canon s) : NextP (fun t => Canon t) (execSlotTableApply n s) := by
  simp only [execSlotTableApply]
  repeat' split
  all_goals simp (maxDischargeDepth := 60) +contextual [*]

@[simp] theorem thrStart_canon (n : Nat) (t : Nat) (s : State) (hs : Canon s) : Canon (thrStart n t s) := by
  simp (maxDischargeDepth := 60) +contextual [thrStart, *]

@[simp] theorem thrResume_canon (n : Nat) (t : Nat) (s : State) (hs : Canon s) : Canon (thrResume n t s) := by
  simp (maxDischargeDepth := 60) +contextual [thrResume, *]

@[simp] theorem longCut_canon (n : Nat) (t : Nat) (u : Nat) (s : State) (hs : Canon s) : Canon (longCut n t u s) := by
  unfold longCut
  split <;> simp (maxDischargeDepth := 60) +contextual [*]

@[simp] theorem thrStop_canon (n : Nat) (t : Nat) (s : State) (hs : Canon s) : Canon (thrStop n t s) := by
  simp (maxDischargeDepth := 60) +contextual [thrStop, *]

@[simp] theorem thrCtrlWrite_canon (n : Nat) (t : Nat) (v : Word) (s : State) (hs : Canon s) : Canon (thrCtrlWrite n t v s) := by
  simp (maxDischargeDepth := 60) +contextual [thrCtrlWrite, *]

@[simp] theorem execThreadStart_canon (c : CoreId) (n : ClusterId) (th : ThreadNo) (s : State) (hs : Canon s) : NextP (fun t => Canon t) (execThreadStart c n th s) := by
  simp (maxDischargeDepth := 60) +contextual [execThreadStart, *]

@[simp] theorem execThreadStop_canon (c : CoreId) (n : ClusterId) (th : ThreadNo) (s : State) (hs : Canon s) : NextP (fun t => Canon t) (execThreadStop c n th s) := by
  simp (maxDischargeDepth := 60) +contextual [execThreadStop, *]

@[simp] theorem execThreadResume_canon (c : CoreId) (n : ClusterId) (th : ThreadNo) (s : State) (hs : Canon s) : NextP (fun t => Canon t) (execThreadResume c n th s) := by
  simp (maxDischargeDepth := 60) +contextual [execThreadResume, *]

@[simp] theorem lockFree_canon (k : Nat) (s : State) (hs : Canon s) : Canon (lockFree k s) := by
  exact Canon.of_eq hs rfl rfl

@[simp] theorem lockRead_canon (c : CoreId) (k : Nat) (o : Nat) (s : State) (hs : Canon s) : Canon (lockRead c k o s) := by
  unfold lockRead
  repeat' split
  all_goals simp (maxDischargeDepth := 60) +contextual [*]

@[simp] theorem lockWrite_canon (c : CoreId) (a : Nat) (k : Nat) (o : Nat) (s : State) (hs : Canon s) : Canon (lockWrite c a k o s) := by
  unfold lockWrite
  repeat' split
  all_goals simp (maxDischargeDepth := 60) +contextual [*]

@[simp] theorem execLockAcquire_canon (c : CoreId) (n : ClusterId) (l : LockId) (s : State) (hs : Canon s) : NextP (fun t => Canon t) (execLockAcquire c n l s) := by
  simp (maxDischargeDepth := 60) +contextual [execLockAcquire, *]

@[simp] theorem execLockRelease_canon (c : CoreId) (n : ClusterId) (l : LockId) (s : State) (hs : Canon s) : NextP (fun t => Canon t) (execLockRelease c n l s) := by
  simp (maxDischargeDepth := 60) +contextual [execLockRelease, *]

@[simp] theorem lockForce_canon (n : Nat) (v : Word) (s : State) (hs : Canon s) : Canon (lockForce n v s) := by
  unfold lockForce
  repeat' split
  all_goals simp (maxDischargeDepth := 60) +contextual [*]

@[simp] theorem execLockForce_canon (c : CoreId) (n : ClusterId) (v : Word) (s : State) (hs : Canon s) : NextP (fun t => Canon t) (execLockForce c n v s) := by
  unfold execLockForce
  repeat' split
  all_goals simp (maxDischargeDepth := 60) +contextual [*]

@[simp] theorem execChipLockAcquire_canon (c : CoreId) (l : Fin 256) (s : State) (hs : Canon s) : NextP (fun t => Canon t) (execChipLockAcquire c l s) := by
  simp (maxDischargeDepth := 60) +contextual [execChipLockAcquire, *]

@[simp] theorem execChipLockRelease_canon (c : CoreId) (l : Fin 256) (s : State) (hs : Canon s) : NextP (fun t => Canon t) (execChipLockRelease c l s) := by
  simp (maxDischargeDepth := 60) +contextual [execChipLockRelease, *]

@[simp] theorem chipForce_canon (v : Word) (s : State) (hs : Canon s) : Canon (chipForce v s) := by
  unfold chipForce
  repeat' split
  all_goals simp (maxDischargeDepth := 60) +contextual [*]

@[simp] theorem execChipLockForce_canon (c : CoreId) (v : Word) (s : State) (hs : Canon s) : NextP (fun t => Canon t) (execChipLockForce c v s) := by
  unfold execChipLockForce
  repeat' split
  all_goals simp (maxDischargeDepth := 60) +contextual [*]

@[simp] theorem freeChipLocks_canon (n : Nat) (s : State) (hs : Canon s) : Canon (freeChipLocks n s) := by
  unfold freeChipLocks
  repeat' split
  all_goals simp (maxDischargeDepth := 60) +contextual [*]

@[simp] theorem ctxSet_canon (i : Nat) (w : Nat) (v : Word) (s : State) (hs : Canon s) : Canon (ctxSet i w v s) := by
  unfold ctxSet
  repeat' split
  all_goals simp (maxDischargeDepth := 60) +contextual [*]

@[simp] theorem thrCtxWrite_canon (n : Nat) (t : Nat) (w : Nat) (v : Word) (s : State) (hs : Canon s) : Canon (thrCtxWrite n t w v s) := by
  simp (maxDischargeDepth := 60) +contextual [thrCtxWrite, *]

@[simp] theorem execThrCtxWrite_canon (c : CoreId) (n : ClusterId) (th : ThreadNo) (w : Fin 32) (v : Word) (s : State) (hs : Canon s) : NextP (fun t => Canon t) (execThrCtxWrite c n th w v s) := by
  simp (maxDischargeDepth := 60) +contextual [execThrCtxWrite, *]

@[simp] theorem sendItem_canon (t : Nat) (d : Nat) (turn : Nat) (key : Nat) (remote : Bool) (it : Item) (s : State) (hs : Canon s) : Canon (sendItem t d turn key remote it s) := by
  simp (maxDischargeDepth := 60) +contextual [sendItem, *]

@[simp] theorem sendPort_canon (p : Nat) (turn : Nat) (it : Item) (s : State) (hs : Canon s) : Canon (sendPort p turn it s) := by
  unfold sendPort
  split <;> simp (maxDischargeDepth := 60) +contextual [*]

@[simp] theorem fifoStat_canon (n : Nat) (t : Nat) (s : State) (hs : Canon s) : Canon (fifoStat n t s) := by
  simp (maxDischargeDepth := 60) +contextual [fifoStat, *]

@[simp] theorem putNotice_canon (n : Nat) (t : Nat) (x : Notice) (s : State) (hs : Canon s) : Canon (putNotice n t x s).2 := by
  unfold putNotice
  split <;> simp (maxDischargeDepth := 60) +contextual [*]

@[simp] theorem pushByte_canon (n : Nat) (t : Nat) (j : Nat) (p : Nat) (b : RxByte) (ends : Nat) (gapEnd : Bool) (jr : Bool) (s : State) (hs : Canon s) : Canon (pushByte n t j p b ends gapEnd jr s) := by
  simp only [pushByte]
  repeat' split
  all_goals simp (maxDischargeDepth := 60) +contextual [*]

@[simp] theorem jHeld_canon (p : Nat) (bs : List RxByte) (s : State) (hs : Canon s) : Canon (jHeld p bs s) := by
  unfold jHeld
  repeat' split
  all_goals simp (maxDischargeDepth := 60) +contextual [*]

@[simp] theorem freeNoticeAt_canon (n : Nat) (t : Nat) (k : Nat) (s : State) (hs : Canon s) : Canon (freeNoticeAt n t k s) := by
  simp (maxDischargeDepth := 60) +contextual [freeNoticeAt, *]

@[simp] theorem takeOpen_canon (n : Nat) (t : Nat) (j : Nat) (s : State) (hs : Canon s) : Canon (takeOpen n t j s) := by
  exact Canon.of_eq hs rfl rfl

@[simp] theorem jUndelivered_canon (p : Nat) (k : Packet) (mark : Nat) (s : State) (hs : Canon s) : Canon (jUndelivered p k mark s) := by
  simp (maxDischargeDepth := 60) +contextual [jUndelivered, *]

@[simp] theorem itemUnheard_canon (mark : Nat) (h : HItem) (s : State) (hs : Canon s) : Canon (itemUnheard mark h s) := by
  unfold itemUnheard
  split <;> simp (maxDischargeDepth := 60) +contextual [*]

@[simp] theorem routePacket_canon (p : Nat) (k : Packet) (s : State) (hs : Canon s) : Canon (routePacket p k s) := by
  simp (maxDischargeDepth := 60) +contextual [routePacket, *]

@[simp] theorem pktEnd_canon (n : Nat) (t : Nat) (j : Nat) (p : Nat) (turn : Nat) (pk : Nat) (s : State) (hs : Canon s) : Canon (pktEnd n t j p turn pk s).2 := by
  simp only [pktEnd]
  repeat' split
  all_goals simp (maxDischargeDepth := 60) +contextual [*]

@[simp] theorem freeCopied_canon (h : HItem) (s : State) (hs : Canon s) : Canon (freeCopied h s) := by
  simp only [freeCopied]
  repeat' split
  all_goals simp (maxDischargeDepth := 60) +contextual [*]

@[simp] theorem txPut_canon (n : Nat) (t : Nat) (j : Nat) (b : TxByte) (s : State) (hs : Canon s) : Canon (txPut n t j b s) := by
  simp only [txPut]
  repeat' split
  all_goals simp (maxDischargeDepth := 60) +contextual [*]

@[simp] theorem enterFifo_canon (o : OutMsg) (s : State) (hs : Canon s) : Canon (enterFifo o s) := by
  simp (maxDischargeDepth := 60) +contextual [enterFifo, *]

@[simp] theorem flushPort_canon (p : Nat) (s : State) (hs : Canon s) : Canon (flushPort p s) := by
  unfold flushPort
  repeat' split
  all_goals simp (maxDischargeDepth := 60) +contextual [*]

@[simp] theorem dropOneshots_canon (p turn : Nat) (s : State) (hs : Canon s) : Canon (dropOneshots p turn s) := by
  unfold dropOneshots
  refine each_canon _ _ (fun x s hs => ?_) _ hs
  dsimp only
  split <;> simp (maxDischargeDepth := 60) +contextual [*]

@[simp] theorem rxfFree_canon (n : Nat) (v : Word) (s : State) (hs : Canon s) : Canon (rxfFree n v s) := by
  simp (maxDischargeDepth := 60) +contextual [rxfFree, *]

@[simp] theorem execRxfFree_canon (c : CoreId) (v : Word) (s : State) (hs : Canon s) : NextP (fun t => Canon t) (execRxfFree c v s) := by
  simp (maxDischargeDepth := 60) +contextual [execRxfFree, *]

@[simp] theorem stageMsg_canon (o : OutMsg) (s : State) (hs : Canon s) : Canon (stageMsg o s).2 := by
  unfold stageMsg
  split <;> simp (maxDischargeDepth := 60) +contextual [*]

@[simp] theorem stageOut_canon (t : Nat) (d : Nat) (p : Nat) (tag : Option Nat) (fin : Bool) (bytes : List (BitVec 9)) (s : State) (hs : Canon s) : Canon (stageOut t d p tag fin bytes s).2 := by
  unfold stageOut
  repeat' split
  all_goals simp (maxDischargeDepth := 60) +contextual [*]

@[simp] theorem stageRaw_canon (p : Nat) (tag : Option Nat) (fin : Bool) (bytes : List (BitVec 9)) (s : State) (hs : Canon s) : Canon (stageRaw p tag fin bytes s) := by
  unfold stageRaw
  repeat' split
  all_goals simp (maxDischargeDepth := 60) +contextual [*]

@[simp] theorem txfStage_canon (n : Nat) (v : Word) (s : State) (hs : Canon s) : Canon (txfStage n v s) := by
  simp only [txfStage]
  repeat' split
  all_goals simp (maxDischargeDepth := 60) +contextual [*]

@[simp] theorem cutPart_canon (p : Nat) (s : State) (hs : Canon s) : Canon (cutPart p s) := by
  simp only [cutPart]
  repeat' split
  all_goals simp (maxDischargeDepth := 60) +contextual [*]

@[simp] theorem execTxfStage_canon (c : CoreId) (v : Word) (s : State) (hs : Canon s) : NextP (fun t => Canon t) (execTxfStage c v s) := by
  simp (maxDischargeDepth := 60) +contextual [execTxfStage, *]

@[simp] theorem txfPop_canon (n : Nat) (t : Nat) (j : Nat) (s : State) (hs : Canon s) : Canon (txfPop n t j s) := by
  unfold txfPop
  split <;> simp (maxDischargeDepth := 60) +contextual [*]

@[simp] theorem execTxfPop_canon (c : CoreId) (j : Fin 8) (s : State) (hs : Canon s) : NextP (fun t => Canon t) (execTxfPop c j s) := by
  unfold execTxfPop
  split <;> simp (maxDischargeDepth := 60) +contextual [*]

@[simp] theorem txfNote_canon (n : Nat) (t : Nat) (v : Word) (s : State) (hs : Canon s) : Canon (txfNote n t v s) := by
  exact Canon.of_eq hs rfl rfl

@[simp] theorem execTxfNote_canon (c : CoreId) (v : Word) (s : State) (hs : Canon s) : NextP (fun t => Canon t) (execTxfNote c v s) := by
  unfold execTxfNote
  split <;> simp (maxDischargeDepth := 60) +contextual [*]

@[simp] theorem pslotGap_canon (p : Nat) (s : State) (hs : Canon s) : Canon (pslotGap p s) := by
  simp (maxDischargeDepth := 60) +contextual [pslotGap, *]

@[simp] theorem pslotSet_canon (p : Nat) (s : State) (hs : Canon s) : Canon (pslotSet p s) := by
  simp (maxDischargeDepth := 60) +contextual [pslotSet, *]

@[simp] theorem portState_canon (p : Nat) (st : Nat) (s : State) (hs : Canon s) : Canon (portState p st s) := by
  simp (maxDischargeDepth := 60) +contextual [portState, *]

@[simp] theorem portEvent_canon (p : Nat) (code : Nat) (arg : Nat) (turn : Nat) (s : State) (hs : Canon s) : Canon (portEvent p code arg turn s) := by
  simp (maxDischargeDepth := 60) +contextual [portEvent, *]

@[simp] theorem settleDiscard_canon (p : Nat) (s : State) (hs : Canon s) : Canon (settleDiscard p s) := by
  simp (maxDischargeDepth := 60) +contextual [settleDiscard, *]

@[simp] theorem openWindow_canon (p : Nat) (e : Nat) (img : List Byte) (s : State) (hs : Canon s) : Canon (openWindow p e img s) := by
  exact Canon.of_eq hs rfl rfl

@[simp] theorem attachOpen_canon (p : Nat) (delay : Nat) (s : State) (hs : Canon s) : Canon (attachOpen p delay s) := by
  unfold attachOpen
  split <;> simp (maxDischargeDepth := 60) +contextual [*]

@[simp] theorem attachAgain_canon (p : Nat) (s : State) (hs : Canon s) : Canon (attachAgain p s) := by
  unfold attachAgain
  repeat' split
  all_goals simp (maxDischargeDepth := 60) +contextual [*]

@[simp] theorem lossOpen_canon (p : Nat) (s : State) (hs : Canon s) : Canon (lossOpen p s) := by
  unfold lossOpen
  split <;> simp (maxDischargeDepth := 60) +contextual [*]

@[simp] theorem truncateOpen_canon (p : Nat) (turn : Nat) (s : State) (hs : Canon s) : Canon (truncateOpen p turn s) := by
  simp only [truncateOpen]
  repeat' split
  all_goals simp (maxDischargeDepth := 60) +contextual [*]

@[simp] theorem portQuiet_canon (p : Nat) (s : State) (hs : Canon s) : Canon (portQuiet p s) := by
  exact Canon.of_eq hs rfl rfl

@[simp] theorem clearPending_canon (p : Nat) (t : Option Nat) (s : State) (hs : Canon s) : Canon (clearPending p t s) := by
  simp (maxDischargeDepth := 60) +contextual [clearPending, *]

@[simp] theorem lossEffects_canon (p : Nat) (turn : Nat) (s : State) (hs : Canon s) : Canon (lossEffects p turn s) := by
  simp (maxDischargeDepth := 60) +contextual [lossEffects, *]

@[simp] theorem overtake_canon (p : Nat) (s : State) (hs : Canon s) : Canon (overtake p s) := by
  unfold overtake
  split <;> simp (maxDischargeDepth := 60) +contextual [*]

@[simp] theorem lossRecorded_canon (p : Nat) (s : State) (hs : Canon s) : Canon (lossRecorded p s) := by
  simp (maxDischargeDepth := 60) +contextual [lossRecorded, *]

@[simp] theorem updProbe_canon (p : Nat) (f : Probing → Probing) (s : State) (hs : Canon s) : Canon (updProbe p f s) := by
  exact Canon.of_eq hs rfl rfl

theorem sendReq_canon (p : Nat) (probe : Nat) (v0 : Nat) (img : List Byte) (s : State) (hs : Canon s) : ∀ t, (sendReq p probe v0 img s) = some t → Canon t := by
  intro t h
  unfold sendReq at h
  (repeat' split at h) <;> simp_all <;> (try subst h) <;> simp_all

@[simp] theorem settleNow_canon (p : Nat) (img : List Byte) (s : State) (hs : Canon s) : Canon (settleNow p img s) := by
  simp (maxDischargeDepth := 60) +contextual [settleNow, *]

@[simp] theorem attachRecorded_canon (p : Nat) (img : List Byte) (s : State) (hs : Canon s) : Canon (attachRecorded p img s).2 := by
  simp only [attachRecorded]
  repeat' split
  all_goals simp (maxDischargeDepth := 60) +contextual [*]

@[simp] theorem verified_canon (p : Nat) (s : State) (hs : Canon s) : Canon (verified p s) := by
  simp (maxDischargeDepth := 60) +contextual [verified, *]

@[simp] theorem probeRun_canon (k p : Nat) (img : List Byte) (st : PStep) (s : State) (hs : Canon s) : Canon (probeRun k p img st s) := by
  induction k generalizing st s with
  | zero => simp (maxDischargeDepth := 60) +contextual [*, probeRun]
  | succ k ih =>
    unfold probeRun
    dsimp only
    repeat' split
    all_goals first
      | (simp (maxDischargeDepth := 60) +contextual [hs, ih]; done)
      | (rename_i h; simp (maxDischargeDepth := 60) +contextual [hs, ih, sendReq_canon _ _ _ _ _ (by simp (maxDischargeDepth := 60) +contextual [hs]) _ h]; done)

@[simp] theorem deliverPacket_canon (p : Nat) (k : Packet) (s : State) (hs : Canon s) : Canon (deliverPacket p k s) := by
  unfold deliverPacket
  repeat' split
  all_goals simp (maxDischargeDepth := 60) +contextual [*]

@[simp] theorem atDue_canon (e : Option Nat) (k : State → State) (s : State) (hk : ∀ y0, Canon y0 → Canon (k y0)) (hs : Canon s) : NextP (fun t => Canon t) (atDue e k s) := by
  unfold atDue
  split <;> simp (maxDischargeDepth := 60) +contextual [*]

@[simp] theorem execAttachWindowEnd_canon (p : PortId) (s : State) (hs : Canon s) : NextP (fun t => Canon t) (execAttachWindowEnd p s) := by
  unfold execAttachWindowEnd
  dsimp only
  repeat' split
  all_goals first
    | (simp (maxDischargeDepth := 60) +contextual [*]; done)
    | (refine atDue_canon _ _ _ (fun s hs => ?_) hs
       try dsimp only
       repeat' split
       all_goals simp (maxDischargeDepth := 60) +contextual [*])

@[simp] theorem execAttachTry_canon (p : PortId) (s : State) (hs : Canon s) : NextP (fun t => Canon t) (execAttachTry p s) := by
  unfold execAttachTry
  dsimp only
  repeat' split
  all_goals first
    | (simp (maxDischargeDepth := 60) +contextual [*]; done)
    | (refine atDue_canon _ _ _ (fun s hs => ?_) hs
       try dsimp only
       repeat' split
       all_goals simp (maxDischargeDepth := 60) +contextual [*])

@[simp] theorem execProbeWindowEnd_canon (p : PortId) (s : State) (hs : Canon s) : NextP (fun t => Canon t) (execProbeWindowEnd p s) := by
  unfold execProbeWindowEnd
  split
  · split
    · refine atDue_canon _ _ _ (fun s hs => ?_) hs
      dsimp only
      split
      · simp (maxDischargeDepth := 60) +contextual [*]
      · split
        · rename_i h; simp (maxDischargeDepth := 60) +contextual [*, sendReq_canon _ _ _ _ _ (by simp (maxDischargeDepth := 60) +contextual [*]) _ h]
        · simp (maxDischargeDepth := 60) +contextual [*]
    · simp (maxDischargeDepth := 60) +contextual [*]
  · simp (maxDischargeDepth := 60) +contextual [*]

@[simp] theorem execSwitchGuardEnd_canon (p : PortId) (s : State) (hs : Canon s) : NextP (fun t => Canon t) (execSwitchGuardEnd p s) := by
  unfold execSwitchGuardEnd
  repeat' split
  all_goals simp (maxDischargeDepth := 60) +contextual [*]

@[simp] theorem execPollDue_canon (p : PortId) (s : State) (hs : Canon s) : NextP (fun t => Canon t) (execPollDue p s) := by
  simp only [execPollDue]
  repeat' split
  all_goals simp (maxDischargeDepth := 60) +contextual [*]

@[simp] theorem execReplyWindowEnd_canon (p : PortId) (s : State) (hs : Canon s) : NextP (fun t => Canon t) (execReplyWindowEnd p s) := by
  unfold execReplyWindowEnd
  repeat' split
  all_goals simp (maxDischargeDepth := 60) +contextual [*]

@[simp] theorem execLossPadWindowEnd_canon (p : PortId) (s : State) (hs : Canon s) : NextP (fun t => Canon t) (execLossPadWindowEnd p s) := by
  unfold execLossPadWindowEnd
  repeat' split
  all_goals simp (maxDischargeDepth := 60) +contextual [*]

@[simp] theorem gapComplete_canon (n : Nat) (t : Nat) (j : Nat) (p : Nat) (turn : Nat) (o : OpenPkt) (s : State) (hs : Canon s) : Canon (gapComplete n t j p turn o s) := by
  simp only [gapComplete]
  repeat' split
  all_goals simp (maxDischargeDepth := 60) +contextual [*]

@[simp] theorem execGapWindowEnd_canon (p : PortId) (s : State) (hs : Canon s) : NextP (fun t => Canon t) (execGapWindowEnd p s) := by
  unfold execGapWindowEnd
  dsimp only
  split
  · exact hs
  · have h : ∀ xs : List Nat, Canon (each xs (fun i => rxCatch (64 * (port s p.val).group + i) (now s)) s) :=
      fun xs => each_canon _ _ (fun i s hs => by simp (maxDischargeDepth := 60) +contextual [*]) _ hs
    split
    · exact h _
    · exact atDue_canon _ _ _ (fun s hs => by simp (maxDischargeDepth := 60) +contextual [*]) (h _)

@[simp] theorem endOpen_canon (n : Nat) (t : Nat) (j : Nat) (p : Nat) (pk : Nat) (s : State) (hs : Canon s) : Canon (endOpen n t j p pk s) := by
  simp only [endOpen]
  repeat' split
  all_goals simp (maxDischargeDepth := 60) +contextual [*]

@[simp] theorem closeBefore_canon (n : Nat) (t : Nat) (j : Nat) (p : Nat) (e : Nat) (s : State) (hs : Canon s) : Canon (closeBefore n t j p e s) := by
  unfold closeBefore
  split <;> simp (maxDischargeDepth := 60) +contextual [*]

@[simp] theorem splitOpen_canon (n : Nat) (t : Nat) (j : Nat) (p : Nat) (s : State) (hs : Canon s) : Canon (splitOpen n t j p s) := by
  unfold splitOpen
  repeat' split
  all_goals simp (maxDischargeDepth := 60) +contextual [*]

@[simp] theorem rxfPush_canon (n : Nat) (t : Nat) (v : Word) (s : State) (hs : Canon s) : Canon (rxfPush n t v s) := by
  simp only [rxfPush]
  repeat' split
  all_goals simp (maxDischargeDepth := 60) +contextual [*]

@[simp] theorem execRxfPush_canon (c : CoreId) (v : Word) (s : State) (hs : Canon s) : NextP (fun t => Canon t) (execRxfPush c v s) := by
  unfold execRxfPush
  split <;> simp (maxDischargeDepth := 60) +contextual [*]

@[simp] theorem rxfEnd_canon (n : Nat) (t : Nat) (v : Word) (s : State) (hs : Canon s) : Canon (rxfEnd n t v s) := by
  simp only [rxfEnd]
  repeat' split
  all_goals simp (maxDischargeDepth := 60) +contextual [*]

@[simp] theorem execRxfEnd_canon (c : CoreId) (v : Word) (s : State) (hs : Canon s) : NextP (fun t => Canon t) (execRxfEnd c v s) := by
  unfold execRxfEnd
  split <;> simp (maxDischargeDepth := 60) +contextual [*]

@[simp] theorem rxfEventAct_canon (p : Nat) (code : Nat) (s : State) (hs : Canon s) : Canon (rxfEventAct p code s) := by
  unfold rxfEventAct
  repeat' split
  all_goals simp (maxDischargeDepth := 60) +contextual [*]

@[simp] theorem rxfEvent_canon (n : Nat) (t : Nat) (v : Word) (s : State) (hs : Canon s) : Canon (rxfEvent n t v s) := by
  unfold rxfEvent
  split <;> simp (maxDischargeDepth := 60) +contextual [*]

@[simp] theorem execRxfEvent_canon (c : CoreId) (v : Word) (s : State) (hs : Canon s) : NextP (fun t => Canon t) (execRxfEvent c v s) := by
  unfold execRxfEvent
  split <;> simp (maxDischargeDepth := 60) +contextual [*]

@[simp] theorem portEdge_canon (g : Nat) (level : Bool) (e : Nat) (s : State) (hs : Canon s) : Canon (portEdge g level e s) := by
  unfold portEdge
  refine each_canon _ _ (fun x s hs => ?_) _ hs
  dsimp only
  split
  all_goals first | exact hs | simp (maxDischargeDepth := 60) +contextual [*] | (split_ifs <;> simp (maxDischargeDepth := 60) +contextual [*])

@[simp] theorem padInput_canon (p : Nat) (level : Bool) (s : State) (hs : Canon s) : Canon (padInput p level s) := by
  simp (maxDischargeDepth := 60) +contextual [padInput, *]

@[simp] theorem execRxStartEdge_canon (p : PadId) (level : Bool) (s : State) (hs : Canon s) : NextP (fun t => Canon t) (execRxStartEdge p level s) := by
  simp only [execRxStartEdge]
  repeat' split
  all_goals simp (maxDischargeDepth := 60) +contextual [*]

@[simp] theorem execEdgeEntry_canon (p : PadId) (level : Bool) (s : State) (hs : Canon s) : NextP (fun t => Canon t) (execEdgeEntry p level s) := by
  simp only [execEdgeEntry]
  repeat' split
  all_goals simp (maxDischargeDepth := 60) +contextual [*]

@[simp] theorem execVioFail_canon (n : ClusterId) (s : State) (hs : Canon s) : NextP (fun t => Canon t) (execVioFail n s) := by
  unfold execVioFail
  repeat' split
  all_goals simp (maxDischargeDepth := 60) +contextual [*]

@[simp] theorem pgSense_canon (n : Nat) (s : State) (hs : Canon s) : Canon (pgSense n s) := by
  simp (maxDischargeDepth := 60) +contextual [pgSense, *]

@[simp] theorem execPgSupplyMismatch_canon (n : ClusterId) (high : Bool) (s : State) (hs : Canon s) : NextP (fun t => Canon t) (execPgSupplyMismatch n high s) := by
  unfold execPgSupplyMismatch
  repeat' split
  all_goals simp (maxDischargeDepth := 60) +contextual [*]

@[simp] theorem execPgRelease_canon (n : ClusterId) (s : State) (hs : Canon s) : NextP (fun t => Canon t) (execPgRelease n s) := by
  unfold execPgRelease
  repeat' split
  all_goals simp (maxDischargeDepth := 60) +contextual [*]

@[simp] theorem execFaultPortLoss_canon (n : ClusterId) (th : ThreadNo) (s : State) (hs : Canon s) : NextP (fun t => Canon t) (execFaultPortLoss n th s) := by
  unfold execFaultPortLoss
  repeat' split
  all_goals simp (maxDischargeDepth := 60) +contextual [*]

@[simp] theorem areaPack_canon (n t : Nat) (s : State) (hs : Canon s) : Canon (areaPack n t s) := by
  have h : ∀ (rs : List ((Nat × Nat × Nat) × List Byte)) (q : Nat × List (Nat × Nat × Nat) × State), Canon q.2.2 →
      Canon (rs.foldl (fun (q : Nat × List (Nat × Nat × Nat) × State) r =>
        (q.1 + r.1.2.1, q.2.1 ++ [(q.1, r.1.2)], writeBytes (sliceBase n t + q.1) r.2 q.2.2)) q).2.2 := by
    intro rs
    induction rs with
    | nil => intro q hq; exact hq
    | cons r rs ih => intro q hq; rw [List.foldl_cons]; exact ih _ (by simp (maxDischargeDepth := 60) +contextual [*])
  unfold areaPack
  dsimp only
  exact updFifo_canon _ _ _ (h _ _ hs)

@[simp] theorem areaPut_canon (n : Nat) (t : Nat) (key : Nat) (len : Nat) (bytes : List Byte) (s : State) (hs : Canon s) : Canon (areaPut n t key len bytes s) := by
  simp only [areaPut]
  repeat' split
  all_goals simp (maxDischargeDepth := 60) +contextual [*]

@[simp] theorem areaDrop_canon (n : Nat) (t : Nat) (gone : Nat → Bool) (s : State) (hs : Canon s) : Canon (areaDrop n t gone s) := by
  exact Canon.of_eq hs rfl rfl

@[simp] theorem areaGrow_canon (n : Nat) (t : Nat) (p : Nat) (len : Nat) (s : State) (hs : Canon s) : Canon (areaGrow n t p len s) := by
  unfold areaGrow
  split <;> simp (maxDischargeDepth := 60) +contextual [*]

@[simp] theorem areaLoad_canon (n : Nat) (t : Nat) (j : Nat) (p : Nat) (s : State) (hs : Canon s) : Canon (areaLoad n t j p s) := by
  simp (maxDischargeDepth := 60) +contextual [areaLoad, *]

@[simp] theorem areaSweep_canon (n : Nat) (t : Nat) (s : State) (hs : Canon s) : Canon (areaSweep n t s) := by
  exact Canon.of_eq hs rfl rfl

@[simp] theorem eraseOld_canon (s : State) (hs : Canon s) : Canon (eraseOld s) := by
  simp (maxDischargeDepth := 60) +contextual [eraseOld, *]

@[simp] theorem execPortProgramChange_canon (p : PortId) (s : State) (hs : Canon s) : NextP (fun t => Canon t) (execPortProgramChange p s) := by
  unfold execPortProgramChange
  repeat' split
  all_goals simp (maxDischargeDepth := 60) +contextual [*]

@[simp] theorem bypassNow_canon (p : Nat) (s : State) (hs : Canon s) : Canon (bypassNow p s) := by
  unfold bypassNow
  repeat' split
  all_goals simp (maxDischargeDepth := 60) +contextual [*]

@[simp] theorem releaseNow_canon (p : Nat) (s : State) (hs : Canon s) : Canon (releaseNow p s) := by
  unfold releaseNow
  repeat' split
  all_goals simp (maxDischargeDepth := 60) +contextual [*]

@[simp] theorem execBypassApply_canon (p : PortId) (s : State) (hs : Canon s) : NextP (fun t => Canon t) (execBypassApply p s) := by
  unfold execBypassApply
  split <;> simp (maxDischargeDepth := 60) +contextual [*]

@[simp] theorem execBypassReleaseApply_canon (p : PortId) (s : State) (hs : Canon s) : NextP (fun t => Canon t) (execBypassReleaseApply p s) := by
  unfold execBypassReleaseApply
  split <;> simp (maxDischargeDepth := 60) +contextual [*]

@[simp] theorem loadHand_canon (c : Nat) (kind : Nat) (arg : Nat) (s : State) (hs : Canon s) : Canon (loadHand c kind arg s) := by
  simp (maxDischargeDepth := 60) +contextual [loadHand, *]

@[simp] theorem loadEvent_canon (c : Nat) (kind : Nat) (arg : Nat) (s : State) (hs : Canon s) : Canon (loadEvent c kind arg s) := by
  simp (maxDischargeDepth := 60) +contextual [loadEvent, *]

@[simp] theorem loadReport_canon (c : Nat) (tag : Option Nat) (sent : Nat) (s : State) (hs : Canon s) : Canon (loadReport c tag sent s) := by
  unfold loadReport
  split <;> simp (maxDischargeDepth := 60) +contextual [*]

@[simp] theorem lcWaiting_canon (g : Nat) (s : State) (hs : Canon s) : Canon (lcWaiting g s) := by
  simp (maxDischargeDepth := 60) +contextual [lcWaiting, *]

@[simp] theorem lcEnter_canon (c : Nat) (st : Nat) (s : State) (hs : Canon s) : Canon (lcEnter c st s) := by
  simp (maxDischargeDepth := 60) +contextual [lcEnter, *]

@[simp] theorem lcLeave_canon (c : Nat) (endCode : Nat) (s : State) (hs : Canon s) : Canon (lcLeave c endCode s) := by
  simp (maxDischargeDepth := 60) +contextual [lcLeave, *]

@[simp] theorem lcWait_canon (c : Nat) (head : Bool) (s : State) (hs : Canon s) : Canon (lcWait c head s) := by
  simp (maxDischargeDepth := 60) +contextual [lcWait, *]

@[simp] theorem kickCut_canon (c : Nat) (s : State) (hs : Canon s) : Canon (kickCut c s) := by
  simp only [kickCut]
  repeat' split
  all_goals simp (maxDischargeDepth := 60) +contextual [*]

@[simp] theorem lcTrip_canon (c : Nat) (cause : Nat) (s : State) (hs : Canon s) : Canon (lcTrip c cause s) := by
  simp (maxDischargeDepth := 60) +contextual [lcTrip, *]

@[simp] theorem lcToOff_canon (c : Nat) (s : State) (hs : Canon s) : Canon (lcToOff c s) := by
  simp (maxDischargeDepth := 60) +contextual [lcToOff, *]

@[simp] theorem lcReject_canon (c : Nat) (s : State) (hs : Canon s) : Canon (lcReject c s) := by
  simp (maxDischargeDepth := 60) +contextual [lcReject, *]

@[simp] theorem lcReplace_canon (c : Nat) (s : State) (hs : Canon s) : Canon (lcReplace c s) := by
  unfold lcReplace
  split <;> simp (maxDischargeDepth := 60) +contextual [*]

@[simp] theorem lcStage_canon (c : Nat) (x : LcStaged) (s : State) (hs : Canon s) : Canon (lcStage c x s) := by
  simp (maxDischargeDepth := 60) +contextual [lcStage, *]

@[simp] theorem lcStageCp_canon (c : Nat) (v : Word) (admin : Bool) (s : State) (hs : Canon s) : Canon (lcStageCp c v admin s) := by
  simp (maxDischargeDepth := 60) +contextual [lcStageCp, *]

@[simp] theorem lcStageTenant_canon (c : Nat) (v : Word) (tag : Option Nat) (s : State) (hs : Canon s) : Canon (lcStageTenant c v tag s) := by
  simp (maxDischargeDepth := 60) +contextual [lcStageTenant, *]

@[simp] theorem execLcCmdStage_canon (c : CoreId) (ch : ChanId) (v : Word) (s : State) (hs : Canon s) : NextP (fun t => Canon t) (execLcCmdStage c ch v s) := by
  unfold execLcCmdStage
  split <;> simp (maxDischargeDepth := 60) +contextual [*]

@[simp] theorem lcBlinkAct_canon (c : Nat) (a : Nat) (b : Nat) (s : State) (hs : Canon s) : Canon (lcBlinkAct c a b s) := by
  simp only [lcBlinkAct]
  repeat' split
  all_goals simp (maxDischargeDepth := 60) +contextual [*]

theorem lcDo_canon (c : Nat) (x : LcStaged) (s : State) (hs : Canon s) : ∀ t, lcDo c x s = some t → Canon t := by
  intro t h
  simp only [lcDo] at h
  repeat' split at h
  all_goals first
    | (cases h; done)
    | (simp only [Option.some.injEq] at h; subst h; simp (maxDischargeDepth := 60) +contextual [*]; done)

@[simp] theorem lcRefused_canon (c : Nat) (x : LcStaged) (s : State) (hs : Canon s) : Canon (lcRefused c x s) := by
  simp (maxDischargeDepth := 60) +contextual [lcRefused, *]

@[simp] theorem lcAct_canon (c : Nat) (f : Nat → Bool) (s : State) (hs : Canon s) : NextP (fun t => Canon t) (lcAct c f s) := by
  unfold lcAct
  split
  · simp (maxDischargeDepth := 60) +contextual [*]
  · split
    · refine atDue_canon _ _ _ (fun s hs => ?_) hs
      dsimp only
      generalize (match (_ : Option (Nat × Nat)) with | some _ => _ | none => _ : Bool) = st
      repeat' split
      all_goals first
        | (simp (maxDischargeDepth := 60) +contextual [*]; done)
        | (rename_i h _; simp (maxDischargeDepth := 60) +contextual [*, lcDo_canon _ _ _ (by simp (maxDischargeDepth := 60) +contextual [*]) _ h]; done)
        | (rename_i h; simp (maxDischargeDepth := 60) +contextual [*, lcDo_canon _ _ _ (by simp (maxDischargeDepth := 60) +contextual [*]) _ h]; done)
    · simp (maxDischargeDepth := 60) +contextual [*]

@[simp] theorem execLcNop_canon (ch : ChanId) (s : State) (hs : Canon s) : NextP (fun t => Canon t) (execLcNop ch s) := by
  simp (maxDischargeDepth := 60) +contextual [execLcNop, *]

@[simp] theorem execLcOn_canon (ch : ChanId) (s : State) (hs : Canon s) : NextP (fun t => Canon t) (execLcOn ch s) := by
  simp (maxDischargeDepth := 60) +contextual [execLcOn, *]

@[simp] theorem execLcOff_canon (ch : ChanId) (s : State) (hs : Canon s) : NextP (fun t => Canon t) (execLcOff ch s) := by
  simp (maxDischargeDepth := 60) +contextual [execLcOff, *]

@[simp] theorem execLcKick_canon (ch : ChanId) (s : State) (hs : Canon s) : NextP (fun t => Canon t) (execLcKick ch s) := by
  simp (maxDischargeDepth := 60) +contextual [execLcKick, *]

@[simp] theorem execLcBlink_canon (ch : ChanId) (s : State) (hs : Canon s) : NextP (fun t => Canon t) (execLcBlink ch s) := by
  simp (maxDischargeDepth := 60) +contextual [execLcBlink, *]

@[simp] theorem execLcTest_canon (ch : ChanId) (s : State) (hs : Canon s) : NextP (fun t => Canon t) (execLcTest ch s) := by
  simp (maxDischargeDepth := 60) +contextual [execLcTest, *]

@[simp] theorem execLcClear_canon (ch : ChanId) (s : State) (hs : Canon s) : NextP (fun t => Canon t) (execLcClear ch s) := by
  simp (maxDischargeDepth := 60) +contextual [execLcClear, *]

@[simp] theorem execShortTrip_canon (ch : ChanId) (s : State) (hs : Canon s) : NextP (fun t => Canon t) (execShortTrip ch s) := by
  unfold execShortTrip
  split <;> simp (maxDischargeDepth := 60) +contextual [*]

@[simp] theorem execInrushOverTrip_canon (ch : ChanId) (s : State) (hs : Canon s) : NextP (fun t => Canon t) (execInrushOverTrip ch s) := by
  simp only [execInrushOverTrip]
  repeat' split
  all_goals simp (maxDischargeDepth := 60) +contextual [*]

@[simp] theorem execOverloadTrip_canon (ch : ChanId) (s : State) (hs : Canon s) : NextP (fun t => Canon t) (execOverloadTrip ch s) := by
  simp only [execOverloadTrip]
  repeat' split
  all_goals simp (maxDischargeDepth := 60) +contextual [*]

@[simp] theorem execStuckOnDetect_canon (ch : ChanId) (s : State) (hs : Canon s) : NextP (fun t => Canon t) (execStuckOnDetect ch s) := by
  simp only [execStuckOnDetect]
  repeat' split
  all_goals simp (maxDischargeDepth := 60) +contextual [*]

@[simp] theorem lcAbort_canon (c : Nat) (s : State) (hs : Canon s) : Canon (lcAbort c s) := by
  simp (maxDischargeDepth := 60) +contextual [lcAbort, *]

@[simp] theorem execSagAssert_canon (g : GroupId) (s : State) (hs : Canon s) : NextP (fun t => Canon t) (execSagAssert g s) := by
  unfold execSagAssert
  dsimp only
  split
  · refine atDue_canon _ _ _ (fun s hs => ?_) hs
    try dsimp only
    exact each_canon _ _ (fun c s hs => by simp (maxDischargeDepth := 60) +contextual [*]) _ (by simp (maxDischargeDepth := 60) +contextual [*])
  · exact hs

@[simp] theorem execSagDeassert_canon (g : GroupId) (s : State) (hs : Canon s) : NextP (fun t => Canon t) (execSagDeassert g s) := by
  simp only [execSagDeassert]
  repeat' split
  all_goals simp (maxDischargeDepth := 60) +contextual [*]

@[simp] theorem execDischargeEnd_canon (ch : ChanId) (s : State) (hs : Canon s) : NextP (fun t => Canon t) (execDischargeEnd ch s) := by
  simp (maxDischargeDepth := 60) +contextual [execDischargeEnd, *]

@[simp] theorem lcGrant_canon (c : Nat) (s : State) (hs : Canon s) : Canon (lcGrant c s) := by
  simp (maxDischargeDepth := 60) +contextual [lcGrant, *]

@[simp] theorem execInrushGrant_canon (g : GroupId) (s : State) (hs : Canon s) : NextP (fun t => Canon t) (execInrushGrant g s) := by
  simp only [execInrushGrant]
  repeat' split
  all_goals simp (maxDischargeDepth := 60) +contextual [*]

@[simp] theorem execInrushEnd_canon (ch : ChanId) (s : State) (hs : Canon s) : NextP (fun t => Canon t) (execInrushEnd ch s) := by
  simp only [execInrushEnd]
  repeat' split
  all_goals simp (maxDischargeDepth := 60) +contextual [*]

@[simp] theorem execTraceSample_canon (ch : ChanId) (reading : BitVec 12) (s : State) (hs : Canon s) : NextP (fun t => Canon t) (execTraceSample ch reading s) := by
  simp only [execTraceSample]
  repeat' split
  all_goals simp (maxDischargeDepth := 60) +contextual [*]

@[simp] theorem execKickEnd_canon (ch : ChanId) (s : State) (hs : Canon s) : NextP (fun t => Canon t) (execKickEnd ch s) := by
  simp only [execKickEnd]
  repeat' split
  all_goals simp (maxDischargeDepth := 60) +contextual [*]

@[simp] theorem execBlinkOnEnd_canon (ch : ChanId) (s : State) (hs : Canon s) : NextP (fun t => Canon t) (execBlinkOnEnd ch s) := by
  simp only [execBlinkOnEnd]
  repeat' split
  all_goals simp (maxDischargeDepth := 60) +contextual [*]

@[simp] theorem execBlinkOffEnd_canon (ch : ChanId) (s : State) (hs : Canon s) : NextP (fun t => Canon t) (execBlinkOffEnd ch s) := by
  simp only [execBlinkOffEnd]
  repeat' split
  all_goals simp (maxDischargeDepth := 60) +contextual [*]

@[simp] theorem lcTestDone_canon (c : Nat) (s : State) (hs : Canon s) : Canon (lcTestDone c s) := by
  simp only [lcTestDone]
  repeat' split
  all_goals simp (maxDischargeDepth := 60) +contextual [*]

@[simp] theorem execTestOffEnd_canon (ch : ChanId) (above : Bool) (s : State) (hs : Canon s) : NextP (fun t => Canon t) (execTestOffEnd ch above s) := by
  simp only [execTestOffEnd]
  repeat' split
  all_goals simp (maxDischargeDepth := 60) +contextual [*]

@[simp] theorem execTestWindowEnd_canon (ch : ChanId) (first : Option (Fin 48000)) (s : State) (hs : Canon s) : NextP (fun t => Canon t) (execTestWindowEnd ch first s) := by
  simp only [execTestWindowEnd]
  repeat' split
  all_goals simp (maxDischargeDepth := 60) +contextual [*]

@[simp] theorem execAutoRetry_canon (ch : ChanId) (s : State) (hs : Canon s) : NextP (fun t => Canon t) (execAutoRetry ch s) := by
  simp only [execAutoRetry]
  repeat' split
  all_goals simp (maxDischargeDepth := 60) +contextual [*]

@[simp] theorem lcSyncAttach_canon (c : Nat) (s : State) (hs : Canon s) : Canon (lcSyncAttach c s) := by
  simp only [lcSyncAttach]
  repeat' split
  all_goals simp (maxDischargeDepth := 60) +contextual [*]

@[simp] theorem lcDisable_canon (c : Nat) (s : State) (hs : Canon s) : Canon (lcDisable c s) := by
  simp (maxDischargeDepth := 60) +contextual [lcDisable, *]

@[simp] theorem lcReattach_canon (c : Nat) (old : State) (s : State) (hs : Canon s) : Canon (lcReattach c old s) := by
  simp (maxDischargeDepth := 60) +contextual [lcReattach, *]

@[simp] theorem lcCfgWrite_canon (c : Nat) (w : Nat) (v : Word) (s : State) (hs : Canon s) : Canon (lcCfgWrite c w v s) := by
  simp only [lcCfgWrite]
  repeat' split
  all_goals simp (maxDischargeDepth := 60) +contextual [*]

@[simp] theorem execLcConfigWrite_canon (c : CoreId) (ch : ChanId) (off : Fin 32) (v : Word) (s : State) (hs : Canon s) : NextP (fun t => Canon t) (execLcConfigWrite c ch off v s) := by
  simp (maxDischargeDepth := 60) +contextual [execLcConfigWrite, *]

@[simp] theorem execLcCtrlDisable_canon (c : CoreId) (ch : ChanId) (s : State) (hs : Canon s) : NextP (fun t => Canon t) (execLcCtrlDisable c ch s) := by
  simp (maxDischargeDepth := 60) +contextual [execLcCtrlDisable, *]

@[simp] theorem lcGcfgWrite_canon (g : Nat) (v : Word) (s : State) (hs : Canon s) : Canon (lcGcfgWrite g v s) := by
  unfold lcGcfgWrite
  repeat' split
  all_goals simp (maxDischargeDepth := 60) +contextual [*]

@[simp] theorem execLcGcfgWrite_canon (c : CoreId) (g : GroupId) (v : Word) (s : State) (hs : Canon s) : NextP (fun t => Canon t) (execLcGcfgWrite c g v s) := by
  unfold execLcGcfgWrite
  repeat' split
  all_goals simp (maxDischargeDepth := 60) +contextual [*]

@[simp] theorem resyncDevs_canon (t : Nat) (s : State) (hs : Canon s) : Canon (resyncDevs t s) := by
  unfold resyncDevs
  repeat' split
  all_goals simp (maxDischargeDepth := 60) +contextual [*]

@[simp] theorem tenantEnable_canon (t : Nat) (s : State) (hs : Canon s) : Canon (tenantEnable t s) := by
  simp (maxDischargeDepth := 60) +contextual [tenantEnable, *]

@[simp] theorem stageSlot_canon (t : Nat) (sl : Slot) (s : State) (hs : Canon s) : Canon (stageSlot t sl s) := by
  simp (maxDischargeDepth := 60) +contextual [stageSlot, *]

@[simp] theorem stageSlots_canon (t : Nat) (sls : List Slot) (s : State) (hs : Canon s) : Canon (stageSlots t sls s) := by
  unfold stageSlots
  repeat' split
  all_goals simp (maxDischargeDepth := 60) +contextual [*]

@[simp] theorem refill_canon (t : Nat) (s : State) (hs : Canon s) : Canon (refill t s) := by
  simp (maxDischargeDepth := 60) +contextual [refill, *]

@[simp] theorem jDiscard_canon (t : Nat) (d : Nat) (tag : Nat) (s : State) (hs : Canon s) : Canon (jDiscard t d tag s) := by
  simp (maxDischargeDepth := 60) +contextual [jDiscard, *]

@[simp] theorem flushTenantPort_canon (t : Nat) (p : Nat) (s : State) (hs : Canon s) : Canon (flushTenantPort t p s) := by
  unfold flushTenantPort
  repeat' split
  all_goals simp (maxDischargeDepth := 60) +contextual [*]

@[simp] theorem abandon_canon (t : Nat) (s : State) (hs : Canon s) : Canon (abandon t s) := by
  unfold abandon
  repeat' split
  all_goals simp (maxDischargeDepth := 60) +contextual [*]

@[simp] theorem clearOwned_canon (t : Nat) (s : State) (hs : Canon s) : Canon (clearOwned t s) := by
  unfold clearOwned
  repeat' split
  all_goals simp (maxDischargeDepth := 60) +contextual [*]

@[simp] theorem resetStart_canon (t : Nat) (s : State) (hs : Canon s) : Canon (resetStart t s) := by
  simp (maxDischargeDepth := 60) +contextual [resetStart, *]

@[simp] theorem pageReset_canon (p : Nat) (s : State) (hs : Canon s) : Canon (pageReset p s) := by
  simp (maxDischargeDepth := 60) +contextual [pageReset, *]

@[simp] theorem rebuild_canon (t : Nat) (s : State) (hs : Canon s) : Canon (rebuild t s) := by
  unfold rebuild
  repeat' split
  all_goals simp (maxDischargeDepth := 60) +contextual [*]

@[simp] theorem resetComplete_canon (t : Nat) (s : State) (hs : Canon s) : Canon (resetComplete t s) := by
  simp (maxDischargeDepth := 60) +contextual [resetComplete, *]

@[simp] theorem execTenantResetComplete_canon (t : TenantId) (s : State) (hs : Canon s) : NextP (fun t => Canon t) (execTenantResetComplete t s) := by
  simp (maxDischargeDepth := 60) +contextual [execTenantResetComplete, *]

@[simp] theorem tenantResetWrite_canon (v : Word) (s : State) (hs : Canon s) : Canon (tenantResetWrite v s) := by
  unfold tenantResetWrite
  split <;> simp (maxDischargeDepth := 60) +contextual [*]

@[simp] theorem execTenantResetGo_canon (c : CoreId) (v : Word) (s : State) (hs : Canon s) : NextP (fun t => Canon t) (execTenantResetGo c v s) := by
  simp (maxDischargeDepth := 60) +contextual [execTenantResetGo, *]

@[simp] theorem markActed_canon (t : Nat) (d : Nat) (s : State) (hs : Canon s) : Canon (markActed t d s) := by
  exact Canon.of_eq hs rfl rfl

@[simp] theorem respond_canon (t : Nat) (op : Nat) (tag : Nat) (dv : Nat) (status : Nat) (state : Nat) (payload : List Byte) (s : State) (hs : Canon s) : Canon (respond t op tag dv status state payload s) := by
  simp (maxDischargeDepth := 60) +contextual [respond, *]

@[simp] theorem notice_canon (t : Nat) (d : Nat) (code : Nat) (tag : Nat) (payload : List Byte) (s : State) (hs : Canon s) : Canon (notice t d code tag payload s) := by
  simp (maxDischargeDepth := 60) +contextual [notice, *]

@[simp] theorem xSlot_canon (t : Nat) (d : Nat) (bs : List Byte) (s : State) (hs : Canon s) : Canon (xSlot t d bs s) := by
  simp (maxDischargeDepth := 60) +contextual [xSlot, *]

@[simp] theorem xForm_canon (t : Nat) (d : Nat) (fmt : Nat) (s : State) (hs : Canon s) : Canon (xForm t d fmt s) := by
  simp only [xForm]
  repeat' split
  all_goals simp (maxDischargeDepth := 60) +contextual [*]

@[simp] theorem seqFinish_canon (t : Nat) (d : Nat) (how : SeqEnd) (s : State) (hs : Canon s) : Canon (seqFinish t d how s) := by
  simp only [seqFinish]
  repeat' split
  all_goals simp (maxDischargeDepth := 60) +contextual [*]

@[simp] theorem seqStart_canon (t : Nat) (d : Nat) (tag : Nat) (code : Nat) (us : Nat) (sent : Bool) (s : State) (hs : Canon s) : Canon (seqStart t d tag code us sent s) := by
  exact Canon.of_eq hs rfl rfl

@[simp] theorem seqSent_canon (t : Nat) (d : Nat) (s : State) (hs : Canon s) : Canon (seqSent t d s) := by
  exact Canon.of_eq hs rfl rfl

@[simp] theorem dropNotice_canon (t : Nat) (d : Nat) (tag : Nat) (sent : Nat) (s : State) (hs : Canon s) : Canon (dropNotice t d tag sent s) := by
  simp only [dropNotice]
  repeat' split
  all_goals simp (maxDischargeDepth := 60) +contextual [*]

@[simp] theorem stagePort_canon (t : Nat) (d : Nat) (tag : Option Nat) (fin : Bool) (bytes : List Byte) (s : State) (hs : Canon s) : Canon (stagePort t d tag fin bytes s).2 := by
  simp only [stagePort]
  repeat' split
  all_goals simp (maxDischargeDepth := 60) +contextual [*]

theorem lcOp_canon (t d code : Nat) (p : List Byte) (tag : Option Nat) (s : State) (hs : Canon s) : ∀ u, lcOp t d code p tag s = some u → Canon u := by
  intro u h
  simp only [lcOp] at h
  split at h
  · cases h
  · cases hw : lcWord (dev s t d).cls code p <;> simp (maxDischargeDepth := 60) +contextual [*, hw] at h
    subst h; simp (maxDischargeDepth := 60) +contextual [*]

@[simp] theorem updMach_canon (t : Nat) (d : Nat) (side : Nat) (f : MachSt → MachSt) (s : State) (hs : Canon s) : Canon (updMach t d side f s) := by
  exact Canon.of_eq hs rfl rfl

@[simp] theorem loadOp_canon (t : Nat) (d : Nat) (side : Nat) (code : Nat) (p : List Byte) (s : State) (hs : Canon s) : Canon (loadOp t d side code p s) := by
  exact Canon.of_eq hs rfl rfl

@[simp] theorem actSend_canon (c : FCtx) (fmt : Nat) (a : FAcc) (hs : Canon a.s) : Canon (actSend c fmt a).s := by
  unfold actSend
  try dsimp only
  repeat' split
  all_goals simp (maxDischargeDepth := 60) +contextual [*]

@[simp] theorem actEmit_canon (c : FCtx) (code : Nat) (a : FAcc) (hs : Canon a.s) : Canon (actEmit c code a).s := by
  unfold actEmit
  try dsimp only
  repeat' split
  all_goals simp (maxDischargeDepth := 60) +contextual [*]

@[simp] theorem actDstate_canon (c : FCtx) (code : Nat) (s : State) (hs : Canon s) : Canon (actDstate c code s) := by
  simp (maxDischargeDepth := 60) +contextual [actDstate, *]

@[simp] theorem act_canon (c : FCtx) (a : FAcc) (w : Word) (hs : Canon a.s) : Canon (act c a w).s := by
  unfold act
  try dsimp only
  repeat' split
  all_goals simp (maxDischargeDepth := 60) +contextual [*]

@[simp] theorem actFold_canon (c : FCtx) (ws : List Word) (a : FAcc) (hs : Canon a.s) : Canon (ws.foldl (act c) a).s := by
  induction ws generalizing a with
  | nil => exact hs
  | cons w ws ih => rw [List.foldl_cons]; exact ih _ (by simp (maxDischargeDepth := 60) +contextual [*])

@[simp] theorem fireNo_canon (c : FCtx) (m : Mach) (i : Nat) (s : State) (hs : Canon s) : Canon (fireNo c m i s).2.s := by
  unfold fireNo
  dsimp only
  split
  · exact hs
  · exact updDev_canon _ _ _ _ (updMach_canon _ _ _ _ _ (actFold_canon _ _ _ hs))

theorem fireSrc_canon (t d side src arg : Nat) (tag : Option Nat) (s : State) (hs : Canon s) : ∀ r, fireSrc t d side src arg tag s = some r → Canon r.2.s := by
  intro r h
  unfold fireSrc at h
  split at h
  · cases h
  · split at h
    · cases h
    · simp only [Option.map_eq_some_iff] at h
      obtain ⟨i, _, rfl⟩ := h
      simp (maxDischargeDepth := 60) +contextual [*]

@[simp] theorem jIgnored_canon (t : Nat) (d : Nat) (side : Nat) (src : Nat) (arg : Nat) (s : State) (hs : Canon s) : Canon (jIgnored t d side src arg s) := by
  simp (maxDischargeDepth := 60) +contextual [jIgnored, *]

@[simp] theorem fireJ_canon (t d side src arg : Nat) (tag : Option Nat) (s : State) (hs : Canon s) : Canon (fireJ t d side src arg tag s).1 := by
  unfold fireJ
  repeat' split
  · rename_i g; simpa (maxDischargeDepth := 60) +contextual [*] using fireSrc_canon _ _ _ _ _ _ _ (by simp (maxDischargeDepth := 60) +contextual [*]) _ g
  · simp (maxDischargeDepth := 60) +contextual [*]
  · simp (maxDischargeDepth := 60) +contextual [*]

theorem runOp_canon (t d code kind tag : Nat) (p : List Byte) (s : State) (hs : Canon s) : ∀ a, runOp t d code kind tag p s = some a → Canon a.s := by
  intro a h
  unfold runOp at h
  dsimp only at h
  repeat' split at h
  all_goals first
    | (cases h; done)
    | (cases h; rename_i g; exact lcOp_canon _ _ _ _ _ _ (by simp (maxDischargeDepth := 60) +contextual [*]) _ g)
    | (cases h; rename_i g; simpa (maxDischargeDepth := 60) +contextual [*] using fireSrc_canon _ _ _ _ _ _ _ (by simp (maxDischargeDepth := 60) +contextual [*]) _ g)
    | (cases h; exact hs)

@[simp] theorem afterOp_canon (t d code kind tag us : Nat) (p : List Byte) (a : FAcc) (hs : Canon a.s) : Canon (afterOp t d code kind tag us p a) := by
  unfold afterOp
  repeat' split
  all_goals simp (maxDischargeDepth := 60) +contextual [*, seqStart]

@[simp] theorem jConflict_canon (t : Nat) (d : Nat) (tag : Nat) (op : Nat) (st : Nat) (s : State) (hs : Canon s) : Canon (jConflict t d tag op st s) := by
  simp (maxDischargeDepth := 60) +contextual [jConflict, *]

@[simp] theorem judgeX_canon (t d code : Nat) (p : List Byte) (tag : Option Nat) (s : State) (hs : Canon s) : Canon (judgeX t d code p tag s).1 := by
  unfold judgeX
  dsimp only
  split
  · split_ifs <;> simp (maxDischargeDepth := 60) +contextual [*]
  · split
    · rename_i g; simp (maxDischargeDepth := 60) +contextual [*, runOp_canon _ _ _ _ _ _ _ (by simp (maxDischargeDepth := 60) +contextual [*]) _ g]
    · dsimp only; split_ifs <;> simp (maxDischargeDepth := 60) +contextual [*]

@[simp] theorem classOp_canon (t d code tag : Nat) (p : List Byte) (s : State) (hs : Canon s) : Canon (classOp t d code tag p s).2.1 := by
  unfold classOp
  dsimp only
  repeat' split
  all_goals first
    | (simp (maxDischargeDepth := 60) +contextual [*]; done)
    | (split_ifs <;> simp (maxDischargeDepth := 60) +contextual [*]; done)
    | (rename_i g; simp (maxDischargeDepth := 60) +contextual [*, runOp_canon _ _ _ _ _ _ _ (by simp (maxDischargeDepth := 60) +contextual [*]) _ g])

@[simp] theorem addReading_canon (t : Nat) (d : Nat) (k : Packet) (body : List Byte) (s : State) (hs : Canon s) : Canon (addReading t d k body s).2 := by
  simp only [addReading]
  repeat' split
  all_goals simp (maxDischargeDepth := 60) +contextual [*]

@[simp] theorem settleCheck_canon (t : Nat) (d : Nat) (s : State) (hs : Canon s) : Canon (settleCheck t d s) := by
  unfold settleCheck
  repeat' split
  all_goals simp (maxDischargeDepth := 60) +contextual [*]

@[simp] theorem packetFire_canon (t d pk : Nat) (img : List Byte) (ps : Parsed) (s : State) (hs : Canon s) : Canon (packetFire t d pk img ps s).2.s := by
  have h : ∀ (p : Prop) [Decidable p] (x : State), Canon x → Canon (if p then x else s) := by
    intro p _ x hx; split
    · exact hx
    · exact hs
  unfold packetFire
  dsimp only
  split
  · split
    · exact fireNo_canon _ _ _ _ (h _ _ (by simp (maxDischargeDepth := 60) +contextual [*]))
    · exact h _ _ (by simp (maxDischargeDepth := 60) +contextual [*])
  · exact h _ _ (by simp (maxDischargeDepth := 60) +contextual [*])

@[simp] theorem packetTrace_canon (t : Nat) (d : Nat) (k : Packet) (wt : Option (List Byte)) (s : State) (hs : Canon s) : Canon (packetTrace t d k wt s).2 := by
  unfold packetTrace
  repeat' split
  all_goals simp (maxDischargeDepth := 60) +contextual [*]

@[simp] theorem packetShow_canon (t : Nat) (d : Nat) (k : Packet) (x : DeviceSt) (s : State) (hs : Canon s) : Canon (packetShow t d k x s) := by
  simp (maxDischargeDepth := 60) +contextual [packetShow, *]

@[simp] theorem packetItem_canon (t : Nat) (d : Nat) (k : Packet) (s : State) (hs : Canon s) : Canon (packetItem t d k s).1 := by
  simp only [packetItem]
  repeat' split
  all_goals simp (maxDischargeDepth := 60) +contextual [*]

@[simp] theorem becameActive_canon (t : Nat) (d : Nat) (s : State) (hs : Canon s) : Canon (becameActive t d s).1 := by
  exact Canon.of_eq hs rfl rfl

@[simp] theorem portItem_canon (t : Nat) (d : Nat) (code : Nat) (arg : Nat) (s : State) (hs : Canon s) : Canon (portItem t d code arg s).1 := by
  unfold portItem
  split <;> simp (maxDischargeDepth := 60) +contextual [*]

@[simp] theorem loadItem_canon (t : Nat) (d : Nat) (kind : Nat) (s : State) (hs : Canon s) : Canon (loadItem t d kind s) := by
  simp only [loadItem]
  repeat' split
  all_goals simp (maxDischargeDepth := 60) +contextual [*]

@[simp] theorem timerItem_canon (t : Nat) (d : Nat) (side : Nat) (i : Nat) (s : State) (hs : Canon s) : Canon (timerItem t d side i s).1 := by
  unfold timerItem
  split <;> simp (maxDischargeDepth := 60) +contextual [*]

@[simp] theorem itemWork_canon (t : Nat) (d : Nat) (h : HItem) (s : State) (hs : Canon s) : Canon (itemWork t d h s).1 := by
  simp only [itemWork]
  repeat' split
  all_goals simp (maxDischargeDepth := 60) +contextual [*]

@[simp] theorem afterWork_canon (t : Nat) (d : Nat) (s : State) (hs : Canon s) : Canon (afterWork t d s).1 := by
  simp only [afterWork]
  repeat' split
  all_goals simp (maxDischargeDepth := 60) +contextual [*]

@[simp] theorem levelWork_canon (t d : Nat) (ls : List (Nat × List Byte)) (s : State) (hs : Canon s) : Canon (levelWork t d ls s).1 := by
  cases ls with
  | nil => exact hs
  | cons q ls =>
    obtain ⟨k, p⟩ := q
    unfold levelWork
    dsimp only
    split
    · rename_i g; exact lcOp_canon _ _ _ _ _ _ (by simp (maxDischargeDepth := 60) +contextual [*]) _ g
    · split <;> simp (maxDischargeDepth := 60) +contextual [*]

@[simp] theorem streamRecord_canon (t d : Nat) (img cut rest : List Byte) (fl : Nat) (last : Bool) (tag : Nat) (s : State) (hs : Canon s) :
    Canon (streamRecord t d img cut rest fl last tag s).1 := by
  unfold streamRecord
  generalize parsePkt (formats img) cut = ps
  dsimp only
  split
  · simp (maxDischargeDepth := 60) +contextual [*]
  · split
    · simp (maxDischargeDepth := 60) +contextual [*]
    · split
      · split_ifs <;> simp (maxDischargeDepth := 60) +contextual [*]
      · split_ifs <;> simp (maxDischargeDepth := 60) +contextual [*]

@[simp] theorem streamWork_canon (t : Nat) (d : Nat) (bytes : List Byte) (last : Bool) (tag : Nat) (s : State) (hs : Canon s) : Canon (streamWork t d bytes last tag s).1 := by
  simp only [streamWork]
  repeat' split
  all_goals simp (maxDischargeDepth := 60) +contextual [*]

@[simp] theorem machWork_canon (t d : Nat) (m : MachIn) (s : State) (hs : Canon s) : Canon (machWork t d m s).1 := by
  unfold machWork
  split
  · simp (maxDischargeDepth := 60) +contextual [*]
  · split
    · split
      · rename_i g; simpa (maxDischargeDepth := 60) +contextual [*] using fireSrc_canon _ _ _ _ _ _ _ (by simp (maxDischargeDepth := 60) +contextual [*]) _ g
      · simp (maxDischargeDepth := 60) +contextual [*]
      · dsimp only; split_ifs <;> simp (maxDischargeDepth := 60) +contextual [*]
    · split_ifs <;> simp (maxDischargeDepth := 60) +contextual [*]

@[simp] theorem tellFar_canon (kind : Nat) (t : Nat) (d : Nat) (p : Nat) (s : State) (hs : Canon s) : Canon (tellFar kind t d p s) := by
  simp (maxDischargeDepth := 60) +contextual [tellFar, *]

@[simp] theorem bindNow_canon (t : Nat) (d : Nat) (r : List Byte) (s : State) (hs : Canon s) : Canon (bindNow t d r s) := by
  simp (maxDischargeDepth := 60) +contextual [bindNow, *]

@[simp] theorem takeOneshots_canon (t : Nat) (d : Nat) (s : State) (hs : Canon s) : Canon (takeOneshots t d s) := by
  exact Canon.of_eq hs rfl rfl

@[simp] theorem unbindDev_canon (t : Nat) (d : Nat) (report : Bool) (s : State) (hs : Canon s) : Canon (unbindDev t d report s) := by
  unfold unbindDev
  repeat' split
  all_goals simp (maxDischargeDepth := 60) +contextual [*]

@[simp] theorem loadClear_canon (t : Nat) (d : Nat) (tag : Nat) (s : State) (hs : Canon s) : Canon (loadClear t d tag s).2.2 := by
  simp only [loadClear]
  repeat' split
  all_goals simp (maxDischargeDepth := 60) +contextual [*]

@[simp] theorem rawSend_canon (t : Nat) (d : Nat) (tag : Nat) (last : Bool) (p : List Byte) (s : State) (hs : Canon s) : Canon (rawSend t d tag last p s) := by
  simp (maxDischargeDepth := 60) +contextual [rawSend, *]

@[simp] theorem dataSendOp_canon (t : Nat) (d : Nat) (tag : Nat) (last : Bool) (p : List Byte) (s : State) (hs : Canon s) : Canon (dataSendOp t d tag last p s).2.1 := by
  simp only [dataSendOp]
  repeat' split
  all_goals simp (maxDischargeDepth := 60) +contextual [*]

@[simp] theorem devCommand_canon (t : Nat) (d : Nat) (sl : Slot) (s : State) (hs : Canon s) : Canon (devCommand t d sl s).1 := by
  simp only [devCommand]
  repeat' split
  all_goals simp (maxDischargeDepth := 60) +contextual [*]

@[simp] theorem workStep_canon (t : Nat) (d : Nat) (w : Work) (s : State) (hs : Canon s) : Canon (workStep t d w s).1 := by
  unfold workStep
  split <;> simp (maxDischargeDepth := 60) +contextual [*]

@[simp] theorem carry_canon (t : Nat) (d : Nat) (ws : List Work) (s : State) (hs : Canon s) : Canon (carry t d ws s) := by
  unfold carry
  split <;> simp (maxDischargeDepth := 60) +contextual [*]

@[simp] theorem runWork_canon (k t d : Nat) (ws : List Work) (s : State) (hs : Canon s) : Canon (runWork k t d ws s) := by
  induction k generalizing ws s with
  | zero => simp (maxDischargeDepth := 60) +contextual [*, runWork]
  | succ k ih =>
    unfold runWork
    split
    · exact hs
    · split <;> simp (maxDischargeDepth := 60) +contextual [*, ih]

@[simp] theorem giveWork_canon (t : Nat) (d : Nat) (w : Work) (s : State) (hs : Canon s) : Canon (giveWork t d w s) := by
  simp (maxDischargeDepth := 60) +contextual [giveWork, *]

@[simp] theorem tenantCommand_canon (t : Nat) (sl : Slot) (s : State) (hs : Canon s) : Canon (tenantCommand t sl s) := by
  unfold tenantCommand
  repeat' split
  all_goals simp (maxDischargeDepth := 60) +contextual [*]

@[simp] theorem processSlot_canon (t : Nat) (sl : Slot) (s : State) (hs : Canon s) : Canon (processSlot t sl s) := by
  simp (maxDischargeDepth := 60) +contextual [processSlot, *]

@[simp] theorem reapplyDev_canon (t : Nat) (d : Nat) (s : State) (hs : Canon s) : Canon (reapplyDev t d s) := by
  simp (maxDischargeDepth := 60) +contextual [reapplyDev, *]

@[simp] theorem whileActive_canon (t : Nat) (f : State → State) (s : State) (hf : ∀ y0, Canon y0 → Canon (f y0)) (hs : Canon s) : Canon (whileActive t f s) := by
  simp (maxDischargeDepth := 60) +contextual [whileActive, *]

@[simp] theorem processSet_canon (t : Nat) (h : HandSet) (s : State) (hs : Canon s) : Canon (processSet t h s) := by
  unfold processSet
  repeat' split
  all_goals simp (maxDischargeDepth := 60) +contextual [*]

@[simp] theorem execHandoffProcess_canon (t : TenantId) (s : State) (hs : Canon s) : NextP (fun t => Canon t) (execHandoffProcess t s) := by
  unfold execHandoffProcess
  repeat' split
  all_goals simp (maxDischargeDepth := 60) +contextual [*]

@[simp] theorem execSeqTimeout_canon (t : TenantId) (d : DevId) (s : State) (hs : Canon s) : NextP (fun t => Canon t) (execSeqTimeout t d s) := by
  unfold execSeqTimeout
  repeat' split
  all_goals simp (maxDischargeDepth := 60) +contextual [*]

@[simp] theorem execMachineTimerExpiry_canon (t : TenantId) (d : DevId) (side : Fin 2) (timer : Fin 4) (s : State) (hs : Canon s) : NextP (fun t => Canon t) (execMachineTimerExpiry t d side timer s) := by
  unfold execMachineTimerExpiry
  repeat' split
  all_goals simp (maxDischargeDepth := 60) +contextual [*]

@[simp] theorem tenantOp_canon (op : Nat) (x : TCmd) (s : State) (hs : Canon s) : NextP (fun t => Canon t) (tenantOp op x s) := by
  unfold tenantOp
  repeat' split
  all_goals simp (maxDischargeDepth := 60) +contextual [*]

@[simp] theorem execKysanNop_canon (x : TCmd) (s : State) (hs : Canon s) : NextP (fun t => Canon t) (execKysanNop x s) := by
  simp (maxDischargeDepth := 60) +contextual [execKysanNop, *]

@[simp] theorem execIdentify_canon (x : TCmd) (s : State) (hs : Canon s) : NextP (fun t => Canon t) (execIdentify x s) := by
  simp (maxDischargeDepth := 60) +contextual [execIdentify, *]

@[simp] theorem execTenantStatus_canon (x : TCmd) (s : State) (hs : Canon s) : NextP (fun t => Canon t) (execTenantStatus x s) := by
  simp (maxDischargeDepth := 60) +contextual [execTenantStatus, *]

@[simp] theorem execDeviceQuery_canon (x : TCmd) (s : State) (hs : Canon s) : NextP (fun t => Canon t) (execDeviceQuery x s) := by
  simp (maxDischargeDepth := 60) +contextual [execDeviceQuery, *]

@[simp] theorem execBind_canon (x : TCmd) (s : State) (hs : Canon s) : NextP (fun t => Canon t) (execBind x s) := by
  simp (maxDischargeDepth := 60) +contextual [execBind, *]

@[simp] theorem execUnbind_canon (x : TCmd) (s : State) (hs : Canon s) : NextP (fun t => Canon t) (execUnbind x s) := by
  simp (maxDischargeDepth := 60) +contextual [execUnbind, *]

@[simp] theorem execDataSend_canon (x : TCmd) (s : State) (hs : Canon s) : NextP (fun t => Canon t) (execDataSend x s) := by
  simp (maxDischargeDepth := 60) +contextual [execDataSend, *]

@[simp] theorem execTenantReset_canon (x : TCmd) (s : State) (hs : Canon s) : NextP (fun t => Canon t) (execTenantReset x s) := by
  simp (maxDischargeDepth := 60) +contextual [execTenantReset, *]

@[simp] theorem execClearDegraded_canon (x : TCmd) (s : State) (hs : Canon s) : NextP (fun t => Canon t) (execClearDegraded x s) := by
  simp (maxDischargeDepth := 60) +contextual [execClearDegraded, *]

@[simp] theorem execLoadClear_canon (x : TCmd) (s : State) (hs : Canon s) : NextP (fun t => Canon t) (execLoadClear x s) := by
  simp (maxDischargeDepth := 60) +contextual [execLoadClear, *]

@[simp] theorem execScannerEnable_canon (x : TCmd) (s : State) (hs : Canon s) : NextP (fun t => Canon t) (execScannerEnable x s) := by
  simp (maxDischargeDepth := 60) +contextual [execScannerEnable, *]

@[simp] theorem execScannerDisable_canon (x : TCmd) (s : State) (hs : Canon s) : NextP (fun t => Canon t) (execScannerDisable x s) := by
  simp (maxDischargeDepth := 60) +contextual [execScannerDisable, *]

@[simp] theorem execScannerBeep_canon (x : TCmd) (s : State) (hs : Canon s) : NextP (fun t => Canon t) (execScannerBeep x s) := by
  simp (maxDischargeDepth := 60) +contextual [execScannerBeep, *]

@[simp] theorem execUnits_canon (x : TCmd) (s : State) (hs : Canon s) : NextP (fun t => Canon t) (execUnits x s) := by
  simp (maxDischargeDepth := 60) +contextual [execUnits, *]

@[simp] theorem execTare_canon (x : TCmd) (s : State) (hs : Canon s) : NextP (fun t => Canon t) (execTare x s) := by
  simp (maxDischargeDepth := 60) +contextual [execTare, *]

@[simp] theorem execZero_canon (x : TCmd) (s : State) (hs : Canon s) : NextP (fun t => Canon t) (execZero x s) := by
  simp (maxDischargeDepth := 60) +contextual [execZero, *]

@[simp] theorem execWeigh_canon (x : TCmd) (s : State) (hs : Canon s) : NextP (fun t => Canon t) (execWeigh x s) := by
  simp (maxDischargeDepth := 60) +contextual [execWeigh, *]

@[simp] theorem execText_canon (x : TCmd) (s : State) (hs : Canon s) : NextP (fun t => Canon t) (execText x s) := by
  simp (maxDischargeDepth := 60) +contextual [execText, *]

@[simp] theorem execBrightness_canon (x : TCmd) (s : State) (hs : Canon s) : NextP (fun t => Canon t) (execBrightness x s) := by
  simp (maxDischargeDepth := 60) +contextual [execBrightness, *]

@[simp] theorem execCursor_canon (x : TCmd) (s : State) (hs : Canon s) : NextP (fun t => Canon t) (execCursor x s) := by
  simp (maxDischargeDepth := 60) +contextual [execCursor, *]

@[simp] theorem execAttention_canon (x : TCmd) (s : State) (hs : Canon s) : NextP (fun t => Canon t) (execAttention x s) := by
  simp (maxDischargeDepth := 60) +contextual [execAttention, *]

@[simp] theorem execDrawerKick_canon (x : TCmd) (s : State) (hs : Canon s) : NextP (fun t => Canon t) (execDrawerKick x s) := by
  simp (maxDischargeDepth := 60) +contextual [execDrawerKick, *]

@[simp] theorem execCodepage_canon (x : TCmd) (s : State) (hs : Canon s) : NextP (fun t => Canon t) (execCodepage x s) := by
  simp (maxDischargeDepth := 60) +contextual [execCodepage, *]

@[simp] theorem execDensity_canon (x : TCmd) (s : State) (hs : Canon s) : NextP (fun t => Canon t) (execDensity x s) := by
  simp (maxDischargeDepth := 60) +contextual [execDensity, *]

@[simp] theorem execPrintSeg_canon (x : TCmd) (s : State) (hs : Canon s) : NextP (fun t => Canon t) (execPrintSeg x s) := by
  simp (maxDischargeDepth := 60) +contextual [execPrintSeg, *]

@[simp] theorem execCut_canon (x : TCmd) (s : State) (hs : Canon s) : NextP (fun t => Canon t) (execCut x s) := by
  simp (maxDischargeDepth := 60) +contextual [execCut, *]

@[simp] theorem execLogo_canon (x : TCmd) (s : State) (hs : Canon s) : NextP (fun t => Canon t) (execLogo x s) := by
  simp (maxDischargeDepth := 60) +contextual [execLogo, *]

@[simp] theorem execPattern_canon (x : TCmd) (s : State) (hs : Canon s) : NextP (fun t => Canon t) (execPattern x s) := by
  simp (maxDischargeDepth := 60) +contextual [execPattern, *]

@[simp] theorem execKeyLeds_canon (x : TCmd) (s : State) (hs : Canon s) : NextP (fun t => Canon t) (execKeyLeds x s) := by
  simp (maxDischargeDepth := 60) +contextual [execKeyLeds, *]

@[simp] theorem execKeyLock_canon (x : TCmd) (s : State) (hs : Canon s) : NextP (fun t => Canon t) (execKeyLock x s) := by
  simp (maxDischargeDepth := 60) +contextual [execKeyLock, *]

@[simp] theorem execKeypadBeep_canon (x : TCmd) (s : State) (hs : Canon s) : NextP (fun t => Canon t) (execKeypadBeep x s) := by
  simp (maxDischargeDepth := 60) +contextual [execKeypadBeep, *]

@[simp] theorem execSegmentTimeClose_canon (s : State) (hs : Canon s) : NextP (fun t => Canon t) (execSegmentTimeClose s) := by
  unfold execSegmentTimeClose
  repeat' split
  all_goals simp (maxDischargeDepth := 60) +contextual [*]

@[simp] theorem jnlCloseNow_canon (s : State) (hs : Canon s) : Canon (jnlCloseNow s) := by
  simp (maxDischargeDepth := 60) +contextual [jnlCloseNow, *]

@[simp] theorem execJnlCtrlClose_canon (c : CoreId) (s : State) (hs : Canon s) : NextP (fun t => Canon t) (execJnlCtrlClose c s) := by
  unfold execJnlCtrlClose
  repeat' split
  all_goals simp (maxDischargeDepth := 60) +contextual [*]

@[simp] theorem execSegmentSign_canon (s : State) (hs : Canon s) : NextP (fun t => Canon t) (execSegmentSign s) := by
  simp (maxDischargeDepth := 60) +contextual [execSegmentSign, *]

@[simp] theorem execSegmentCommit_canon (s : State) (hs : Canon s) : NextP (fun t => Canon t) (execSegmentCommit s) := by
  simp (maxDischargeDepth := 60) +contextual [execSegmentCommit, *]

@[simp] theorem jnlCfgerr_canon (s : State) (hs : Canon s) : Canon (jnlCfgerr s) := by
  simp (maxDischargeDepth := 60) +contextual [jnlCfgerr, *]

@[simp] theorem jnlEnableNow_canon (identified : Bool) (s : State) (hs : Canon s) : Canon (jnlEnableNow identified s) := by
  simp (maxDischargeDepth := 60) +contextual [jnlEnableNow, *]

@[simp] theorem execJnlEnable_canon (c : CoreId) (identified : Bool) (s : State) (hs : Canon s) : NextP (fun t => Canon t) (execJnlEnable c identified s) := by
  unfold execJnlEnable
  repeat' split
  all_goals simp (maxDischargeDepth := 60) +contextual [*]

@[simp] theorem resumeChains_canon (h : Option (List Byte × Walk)) (s : State) (hs : Canon s) : Canon (resumeChains h s) := by
  unfold resumeChains
  split <;> simp (maxDischargeDepth := 60) +contextual [*]

@[simp] theorem lbaShow_canon (s : State) (hs : Canon s) : Canon (lbaShow s) := by
  simp (maxDischargeDepth := 60) +contextual [lbaShow, *]

@[simp] theorem headFound_canon (s : State) (hs : Canon s) : Canon (headFound s) := by
  simp only [headFound]
  repeat' split
  all_goals simp (maxDischargeDepth := 60) +contextual [*]

@[simp] theorem execChainHeadFound_canon (head : Option Nat) (s : State) (hs : Canon s) : NextP (fun t => Canon t) (execChainHeadFound head s) := by
  simp (maxDischargeDepth := 60) +contextual [execChainHeadFound, *]

@[simp] theorem jnlDisableNow_canon (s : State) (hs : Canon s) : Canon (jnlDisableNow s) := by
  simp (maxDischargeDepth := 60) +contextual [jnlDisableNow, *]

@[simp] theorem execJnlDisable_canon (c : CoreId) (s : State) (hs : Canon s) : NextP (fun t => Canon t) (execJnlDisable c s) := by
  unfold execJnlDisable
  repeat' split
  all_goals simp (maxDischargeDepth := 60) +contextual [*]

@[simp] theorem jnlCtrlWrite_canon (identified : Bool) (v : Word) (s : State) (hs : Canon s) : Canon (jnlCtrlWrite identified v s) := by
  unfold jnlCtrlWrite
  repeat' split
  all_goals simp (maxDischargeDepth := 60) +contextual [*]

@[simp] theorem execDriveFail_canon (e : Fin 16) (s : State) (hs : Canon s) : NextP (fun t => Canon t) (execDriveFail e s) := by
  simp (maxDischargeDepth := 60) +contextual [execDriveFail, *]

@[simp] theorem rebuilt_canon (e : Nat) (s : State) (hs : Canon s) : Canon (rebuilt e s) := by
  exact Canon.of_eq hs rfl rfl

@[simp] theorem execRebuildComplete_canon (e : Fin 16) (s : State) (hs : Canon s) : NextP (fun t => Canon t) (execRebuildComplete e s) := by
  simp (maxDischargeDepth := 60) +contextual [execRebuildComplete, *]

@[simp] theorem newDrive_canon (e : Nat) (s : State) (hs : Canon s) : Canon (newDrive e s) := by
  exact Canon.of_eq hs rfl rfl

@[simp] theorem jnlEntrySet_canon (e : Nat) (r : Nat) (v : Word) (s : State) (hs : Canon s) : Canon (jnlEntrySet e r v s) := by
  simp (maxDischargeDepth := 60) +contextual [jnlEntrySet, *]

@[simp] theorem execJnlEntryWrite_canon (c : CoreId) (e : Fin 16) (reg : Fin 3) (v : Word) (s : State) (hs : Canon s) : NextP (fun t => Canon t) (execJnlEntryWrite c e reg v s) := by
  unfold execJnlEntryWrite
  repeat' split
  all_goals simp (maxDischargeDepth := 60) +contextual [*]

@[simp] theorem archMove_canon (v : Nat) (s : State) (hs : Canon s) : Canon (archMove v s) := by
  simp (maxDischargeDepth := 60) +contextual [archMove, *]

@[simp] theorem archHiWrite_canon (v : Word) (s : State) (hs : Canon s) : Canon (archHiWrite v s) := by
  simp (maxDischargeDepth := 60) +contextual [archHiWrite, *]

@[simp] theorem archLoWrite_canon (v : Word) (s : State) (hs : Canon s) : Canon (archLoWrite v s) := by
  exact Canon.of_eq hs rfl rfl

@[simp] theorem execJnlArchWrite_canon (c : CoreId) (v : Word) (s : State) (hs : Canon s) : NextP (fun t => Canon t) (execJnlArchWrite c v s) := by
  unfold execJnlArchWrite
  repeat' split
  all_goals simp (maxDischargeDepth := 60) +contextual [*]

@[simp] theorem wptrRead_canon (r : Nat) (s : State) (hs : Canon s) : Canon (wptrRead r s) := by
  exact Canon.of_eq hs rfl rfl

@[simp] theorem seqRead_canon (r : Nat) (s : State) (hs : Canon s) : Canon (seqRead r s) := by
  exact Canon.of_eq hs rfl rfl

@[simp] theorem execJnlWptrLoRead_canon (r : Requester) (s : State) (hs : Canon s) : NextP (fun t => Canon t) (execJnlWptrLoRead r s) := by
  exact Canon.of_eq hs rfl rfl

@[simp] theorem execJnlSeqLoRead_canon (r : Requester) (s : State) (hs : Canon s) : NextP (fun t => Canon t) (execJnlSeqLoRead r s) := by
  exact Canon.of_eq hs rfl rfl

@[simp] theorem execPllLock_canon (s : State) (hs : Canon s) : NextP (fun t => Canon t) (execPllLock s) := by
  unfold execPllLock
  repeat' split
  all_goals simp (maxDischargeDepth := 60) +contextual [*]

@[simp] theorem execRefLost_canon (s : State) (hs : Canon s) : NextP (fun t => Canon t) (execRefLost s) := by
  simp (maxDischargeDepth := 60) +contextual [execRefLost, *]

@[simp] theorem execPllRelock_canon (s : State) (hs : Canon s) : NextP (fun t => Canon t) (execPllRelock s) := by
  simp (maxDischargeDepth := 60) +contextual [execPllRelock, *]

@[simp] theorem frameCtrl_canon (tick : Nat) (v : Word) (s : State) (hs : Canon s) : Canon (frameCtrl tick v s) := by
  unfold frameCtrl
  repeat' split
  all_goals simp (maxDischargeDepth := 60) +contextual [*]

@[simp] theorem timeWriter_canon (c : CoreId) (a : Nat) (k : State → State) (s : State) (hk : ∀ y0, Canon y0 → Canon (k y0)) (hs : Canon s) : Canon (timeWriter c a k s) := by
  simp (maxDischargeDepth := 60) +contextual [timeWriter, *]

@[simp] theorem execFrameCtrlWrite_canon (c : CoreId) (v : Word) (s : State) (hs : Canon s) : NextP (fun t => Canon t) (execFrameCtrlWrite c v s) := by
  unfold execFrameCtrlWrite
  repeat' split
  all_goals simp (maxDischargeDepth := 60) +contextual [*]

@[simp] theorem frameCountRead_canon (r : Nat) (s : State) (hs : Canon s) : Canon (frameCountRead r s) := by
  exact Canon.of_eq hs rfl rfl

@[simp] theorem turnAbsRead_canon (r : Nat) (s : State) (hs : Canon s) : Canon (turnAbsRead r s) := by
  exact Canon.of_eq hs rfl rfl

@[simp] theorem calPipRead_canon (r : Nat) (s : State) (hs : Canon s) : Canon (calPipRead r s) := by
  exact Canon.of_eq hs rfl rfl

@[simp] theorem execFrameCountLoRead_canon (r : Requester) (s : State) (hs : Canon s) : NextP (fun t => Canon t) (execFrameCountLoRead r s) := by
  exact Canon.of_eq hs rfl rfl

@[simp] theorem execTurnAbsLoRead_canon (r : Requester) (s : State) (hs : Canon s) : NextP (fun t => Canon t) (execTurnAbsLoRead r s) := by
  exact Canon.of_eq hs rfl rfl

@[simp] theorem execCalPipRead_canon (r : Requester) (s : State) (hs : Canon s) : NextP (fun t => Canon t) (execCalPipRead r s) := by
  exact Canon.of_eq hs rfl rfl

@[simp] theorem stepReplaced_canon (s : State) (hs : Canon s) : Canon (stepReplaced s) := by
  unfold stepReplaced
  repeat' split
  all_goals simp (maxDischargeDepth := 60) +contextual [*]

@[simp] theorem calStep_canon (s : State) (hs : Canon s) : Canon (calStep s) := by
  unfold calStep
  repeat' split
  all_goals simp (maxDischargeDepth := 60) +contextual [*]

@[simp] theorem calCtrlWrite_canon (v : Word) (s : State) (hs : Canon s) : Canon (calCtrlWrite v s) := by
  unfold calCtrlWrite
  split <;> simp (maxDischargeDepth := 60) +contextual [*]

@[simp] theorem execCalStepRequest_canon (c : CoreId) (v : Word) (s : State) (hs : Canon s) : NextP (fun t => Canon t) (execCalStepRequest c v s) := by
  unfold execCalStepRequest
  repeat' split
  all_goals simp (maxDischargeDepth := 60) +contextual [*]

@[simp] theorem execOscFail_canon (s : State) (hs : Canon s) : NextP (fun t => Canon t) (execOscFail s) := by
  simp (maxDischargeDepth := 60) +contextual [execOscFail, *]

@[simp] theorem execOscRestart_canon (s : State) (hs : Canon s) : NextP (fun t => Canon t) (execOscRestart s) := by
  simp (maxDischargeDepth := 60) +contextual [execOscRestart, *]

@[simp] theorem calReset_canon (s : State) (hs : Canon s) : Canon (calReset s) := by
  unfold calReset
  repeat' split
  all_goals simp (maxDischargeDepth := 60) +contextual [*]

@[simp] theorem execCalendarReset_canon (s : State) (hs : Canon s) : NextP (fun t => Canon t) (execCalendarReset s) := by
  simp (maxDischargeDepth := 60) +contextual [execCalendarReset, *]

@[simp] theorem undoAll_canon (us : List (Nat × Nat × Word)) (s : State) (hs : Canon s) : Canon (undoAll us s) := by
  unfold undoAll
  repeat' split
  all_goals simp (maxDischargeDepth := 60) +contextual [*]

@[simp] theorem rollbackCtx_canon (i : Nat) (s : State) (hs : Canon s) : Canon (rollbackCtx i s) := by
  unfold rollbackCtx
  repeat' split
  all_goals simp (maxDischargeDepth := 60) +contextual [*]

@[simp] theorem mismatch_canon (i : Nat) (mech : Nat) (s : State) (hs : Canon s) : Canon (mismatch i mech s) := by
  simp (maxDischargeDepth := 60) +contextual [mismatch, *]

@[simp] theorem jCastling_canon (unit : Nat) (reason : Nat) (lcl : Nat) (pos : Nat) (old : Nat) (new : Nat) (result : Nat) (seq : Nat) (len : Nat) (frame : Nat) (s : State) (hs : Canon s) : Canon (jCastling unit reason lcl pos old new result seq len frame s) := by
  simp (maxDischargeDepth := 60) +contextual [jCastling, *]

@[simp] theorem castBegin_canon (s : State) (hs : Canon s) : Canon (castBegin s) := by
  simp (maxDischargeDepth := 60) +contextual [castBegin, *]

@[simp] theorem laneCastle_canon (n : Nat) (x : Nat) (reason : Nat) (s : State) (hs : Canon s) : Canon (laneCastle n x reason s) := by
  simp (maxDischargeDepth := 60) +contextual [laneCastle, *]

@[simp] theorem laneFail_canon (n : Nat) (x : Nat) (mech : Nat) (detail : Nat) (s : State) (hs : Canon s) : Canon (laneFail n x mech detail s) := by
  simp (maxDischargeDepth := 60) +contextual [laneFail, *]

@[simp] theorem laneFault_canon (n : Nat) (x : Nat) (mech : Nat) (s : State) (hs : Canon s) : Canon (laneFault n x mech s) := by
  simp (maxDischargeDepth := 60) +contextual [laneFault, *]

@[simp] theorem barrelFault_canon (n : Nat) (mech : Nat) (s : State) (hs : Canon s) : Canon (barrelFault n mech s) := by
  simp (maxDischargeDepth := 60) +contextual [barrelFault, *]

@[simp] theorem checkFault_canon (n : Nat) (x : Fin 5) (mech : Nat) (s : State) (hs : Canon s) : Canon (checkFault n x mech s) := by
  simp (maxDischargeDepth := 60) +contextual [checkFault, *]

@[simp] theorem execCheckerError_canon (n : ClusterId) (x : Fin 5) (s : State) (hs : Canon s) : NextP (fun t => Canon t) (execCheckerError n x s) := by
  simp (maxDischargeDepth := 60) +contextual [execCheckerError, *]

@[simp] theorem execStallSentinel_canon (n : ClusterId) (x : Fin 5) (s : State) (hs : Canon s) : NextP (fun t => Canon t) (execStallSentinel n x s) := by
  simp (maxDischargeDepth := 60) +contextual [execStallSentinel, *]

@[simp] theorem execPairBistDone_canon (n : ClusterId) (pair : Fin 2) (passA : Bool) (passB : Bool) (s : State) (hs : Canon s) : NextP (fun t => Canon t) (execPairBistDone n pair passA passB s) := by
  unfold execPairBistDone
  repeat' split
  all_goals simp (maxDischargeDepth := 60) +contextual [*]

@[simp] theorem execShadowMismatch_canon (n : ClusterId) (t : ThreadNo) (s : State) (hs : Canon s) : NextP (fun t => Canon t) (execShadowMismatch n t s) := by
  simp (maxDischargeDepth := 60) +contextual [execShadowMismatch, *]

@[simp] theorem execVoteDisagree_canon (block : Nat) (s : State) (hs : Canon s) : NextP (fun t => Canon t) (execVoteDisagree block s) := by
  simp (maxDischargeDepth := 60) +contextual [execVoteDisagree, *]

@[simp] theorem cpCastle_canon (pos : Nat) (reason : Nat) (s : State) (hs : Canon s) : Canon (cpCastle pos reason s) := by
  simp (maxDischargeDepth := 60) +contextual [cpCastle, *]

@[simp] theorem execCpCastling_canon (failA : Bool) (failB : Bool) (s : State) (hs : Canon s) : NextP (fun t => Canon t) (execCpCastling failA failB s) := by
  unfold execCpCastling
  repeat' split
  all_goals simp (maxDischargeDepth := 60) +contextual [*]

@[simp] theorem imageRegs_canon (b : Nat) (n : Nat) (s : State) (hs : Canon s) : Canon (imageRegs b n s) := by
  simp (maxDischargeDepth := 60) +contextual [imageRegs, *]

@[simp] theorem imageWrite_canon (r : CastRun) (s : State) (hs : Canon s) : Canon (imageWrite r s) := by
  unfold imageWrite
  repeat' split
  all_goals simp (maxDischargeDepth := 60) +contextual [*]

@[simp] theorem castStart_canon (r : CastReq) (new : Nat) (s : State) (hs : Canon s) : Canon (castStart r new s) := by
  simp (maxDischargeDepth := 60) +contextual [castStart, *]

@[simp] theorem execClusterCastling_canon (n : ClusterId) (s : State) (hs : Canon s) : NextP (fun t => Canon t) (execClusterCastling n s) := by
  unfold execClusterCastling
  repeat' split
  all_goals simp (maxDischargeDepth := 60) +contextual [*]

@[simp] theorem reserveAfter_canon (n : Nat) (old : Nat) (new : Nat) (s : State) (hs : Canon s) : Canon (reserveAfter n old new s) := by
  simp (maxDischargeDepth := 60) +contextual [reserveAfter, *]

@[simp] theorem castResume_canon (n : Nat) (s : State) (hs : Canon s) : Canon (castResume n s) := by
  unfold castResume
  repeat' split
  all_goals simp (maxDischargeDepth := 60) +contextual [*]

@[simp] theorem castReplay_canon (n : Nat) (s : State) (hs : Canon s) : Canon (castReplay n s) := by
  unfold castReplay
  dsimp only
  exact each_canon _ _ (fun c s hs => by simp (maxDischargeDepth := 60) +contextual [*]) _ (by simp (maxDischargeDepth := 60) +contextual [*])

@[simp] theorem rotAfter_canon (r : CastReq) (ok : Bool) (s : State) (hs : Canon s) : Canon (rotAfter r ok s) := by
  simp (maxDischargeDepth := 60) +contextual [rotAfter, *]

@[simp] theorem castDone_canon (r : CastRun) (s : State) (hs : Canon s) : Canon (castDone r s) := by
  simp (maxDischargeDepth := 60) +contextual [castDone, *]

@[simp] theorem castAborted_canon (r : CastRun) (s : State) (hs : Canon s) : Canon (castAborted r s) := by
  simp (maxDischargeDepth := 60) +contextual [castAborted, *]

theorem castServe_canon (unit n pos : Nat) (s : State) (hs : Canon s) : ∀ t, castServe unit n pos s = some t → Canon t := by
  intro t h
  unfold castServe at h
  split at h
  · simp only [Option.some.injEq] at h
    subst h
    split <;> simp (maxDischargeDepth := 60) +contextual [*]
  · cases h

@[simp] theorem castCores_canon (s : State) (hs : Canon s) : Canon (castCores s) := by
  simp (maxDischargeDepth := 60) +contextual [castCores, *]

@[simp] theorem castleReqWrite_canon (v : Word) (s : State) (hs : Canon s) : Canon (castleReqWrite v s) := by
  unfold castleReqWrite
  split
  · split
    · rename_i g; exact castServe_canon _ _ _ _ (by simp (maxDischargeDepth := 60) +contextual [*]) _ g
    · simp (maxDischargeDepth := 60) +contextual [*]
  · exact hs

@[simp] theorem execCastleReqCluster_canon (c : CoreId) (n : ClusterId) (s : State) (hs : Canon s) : NextP (fun t => Canon t) (execCastleReqCluster c n s) := by
  unfold execCastleReqCluster
  repeat' split
  all_goals simp (maxDischargeDepth := 60) +contextual [*]

@[simp] theorem execCastleReqLaneCore_canon (c : CoreId) (n : ClusterId) (x : Fin 8) (s : State) (hs : Canon s) : NextP (fun t => Canon t) (execCastleReqLaneCore c n x s) := by
  unfold execCastleReqLaneCore
  repeat' split
  all_goals simp (maxDischargeDepth := 60) +contextual [*]

@[simp] theorem execCastleReqCp_canon (c : CoreId) (x : Fin 8) (s : State) (hs : Canon s) : NextP (fun t => Canon t) (execCastleReqCp c x s) := by
  unfold execCastleReqCp
  repeat' split
  all_goals simp (maxDischargeDepth := 60) +contextual [*]

@[simp] theorem clDoublesWrite_canon (n : Nat) (v : Word) (s : State) (hs : Canon s) : Canon (clDoublesWrite n v s) := by
  simp (maxDischargeDepth := 60) +contextual [clDoublesWrite, *]

@[simp] theorem execClDoublesWrite_canon (c : CoreId) (n : ClusterId) (v : Word) (s : State) (hs : Canon s) : NextP (fun t => Canon t) (execClDoublesWrite c n v s) := by
  unfold execClDoublesWrite
  repeat' split
  all_goals simp (maxDischargeDepth := 60) +contextual [*]

@[simp] theorem pairForm_canon (n : Nat) (k : Nat) (s : State) (hs : Canon s) : Canon (pairForm n k s) := by
  simp (maxDischargeDepth := 60) +contextual [pairForm, *]

@[simp] theorem execPairForm_canon (n : ClusterId) (s : State) (hs : Canon s) : NextP (fun t => Canon t) (execPairForm n s) := by
  simp (maxDischargeDepth := 60) +contextual [execPairForm, *]

@[simp] theorem hardWord_canon (a : Word) (s : State) (hs : Canon s) : Canon (hardWord a s) := by
  simp (maxDischargeDepth := 60) +contextual [hardWord, *]

@[simp] theorem execScrubPassComplete_canon (corrected : List Word) (uncorr : List Word) (s : State) (hs : Canon s) : NextP (fun t => Canon t) (execScrubPassComplete corrected uncorr s) := by
  unfold execScrubPassComplete
  repeat' split
  all_goals simp (maxDischargeDepth := 60) +contextual [*]

@[simp] theorem execScrubAgeLimit_canon (s : State) (hs : Canon s) : NextP (fun t => Canon t) (execScrubAgeLimit s) := by
  simp (maxDischargeDepth := 60) +contextual [execScrubAgeLimit, *]

@[simp] theorem execRepairOverdue_canon (s : State) (hs : Canon s) : NextP (fun t => Canon t) (execRepairOverdue s) := by
  simp (maxDischargeDepth := 60) +contextual [execRepairOverdue, *]

@[simp] theorem cpRetest_canon (ok : BitVec 3) (s : State) (hs : Canon s) : Canon (cpRetest ok s) := by
  unfold cpRetest
  refine each_canon _ _ (fun x s hs => ?_) _ hs
  dsimp only
  repeat' split
  all_goals simp (maxDischargeDepth := 60) +contextual [*]

@[simp] theorem rotationVisit_canon (cpOk : BitVec 3) (s : State) (hs : Canon s) : Canon (rotationVisit cpOk s) := by
  simp (maxDischargeDepth := 60) +contextual [rotationVisit, *]

@[simp] theorem execRotationVisit_canon (cpOk : BitVec 3) (s : State) (hs : Canon s) : NextP (fun t => Canon t) (execRotationVisit cpOk s) := by
  unfold execRotationVisit
  repeat' split
  all_goals simp (maxDischargeDepth := 60) +contextual [*]

@[simp] theorem laneBist_canon (p : Nat) (ok : BitVec 5) (s : State) (hs : Canon s) : Canon (laneBist p ok s) := by
  unfold laneBist
  dsimp only
  exact each_canon _ _ (fun c s hs => by (repeat' split) <;> simp (maxDischargeDepth := 60) +contextual [*]) _ (each_canon _ _ (fun c s hs => by (repeat' split) <;> simp (maxDischargeDepth := 60) +contextual [*]) _ hs)

@[simp] theorem bistDone_canon (pass : Bool) (ok : BitVec 5) (s : State) (hs : Canon s) : Canon (bistDone pass ok s) := by
  simp (maxDischargeDepth := 60) +contextual [bistDone, *]

@[simp] theorem execClusterBistDone_canon (pass : Bool) (coresOk : BitVec 5) (s : State) (hs : Canon s) : NextP (fun t => Canon t) (execClusterBistDone pass coresOk s) := by
  simp (maxDischargeDepth := 60) +contextual [execClusterBistDone, *]

@[simp] theorem movCount_canon (m : Nat) (s : State) (hs : Canon s) : Canon (movCount m s) := by
  simp (maxDischargeDepth := 60) +contextual [movCount, *]

@[simp] theorem setXfer_canon (g : Nat) (x : Xfer) (s : State) (hs : Canon s) : Canon (setXfer g x s) := by
  unfold setXfer
  repeat' split
  all_goals simp (maxDischargeDepth := 60) +contextual [*]

@[simp] theorem delXfer_canon (g : Nat) (s : State) (hs : Canon s) : Canon (delXfer g s) := by
  unfold delXfer
  repeat' split
  all_goals simp (maxDischargeDepth := 60) +contextual [*]

@[simp] theorem submitTag_canon (g : Nat) (s : State) (hs : Canon s) : Canon (submitTag g s) := by
  unfold submitTag
  repeat' split
  all_goals simp (maxDischargeDepth := 60) +contextual [*]

@[simp] theorem movDbWrite_canon (c : CoreId) (m : Nat) (v : Word) (s : State) (hs : Canon s) : Canon (movDbWrite c m v s) := by
  simp (maxDischargeDepth := 60) +contextual [movDbWrite, *]

@[simp] theorem execMovDbWrite_canon (c : CoreId) (m : Fin 4) (v : Word) (s : State) (hs : Canon s) : NextP (fun t => Canon t) (execMovDbWrite c m v s) := by
  simp (maxDischargeDepth := 60) +contextual [execMovDbWrite, *]

@[simp] theorem xferEnd_canon (g : Nat) (st : Nat) (x : Xfer) (s : State) (hs : Canon s) : Canon (xferEnd g st x s) := by
  simp (maxDischargeDepth := 60) +contextual [xferEnd, *]

@[simp] theorem hostPut_canon (fn : Nat) (addr : Nat) (data : List Byte) (s : State) (hs : Canon s) : Canon (hostPut fn addr data s) := by
  simp (maxDischargeDepth := 60) +contextual [hostPut, *]

@[simp] theorem askHost_canon (x : Xfer) (s : State) (hs : Canon s) : Canon (askHost x s) := by
  simp (maxDischargeDepth := 60) +contextual [askHost, *]

@[simp] theorem execTransferAccept_canon (g : TagId) (s : State) (hs : Canon s) : NextP (fun t => Canon t) (execTransferAccept g s) := by
  simp only [execTransferAccept]
  repeat' split
  all_goals simp (maxDischargeDepth := 60) +contextual [*]

@[simp] theorem execTransferReadChunk_canon (g : TagId) (data : Option (List Byte)) (ecc : Bool) (s : State) (hs : Canon s) : NextP (fun t => Canon t) (execTransferReadChunk g data ecc s) := by
  unfold execTransferReadChunk
  repeat' split
  all_goals simp (maxDischargeDepth := 60) +contextual [*]

@[simp] theorem execTransferWriteChunk_canon (g : TagId) (ok : Bool) (s : State) (hs : Canon s) : NextP (fun t => Canon t) (execTransferWriteChunk g ok s) := by
  simp only [execTransferWriteChunk]
  repeat' split
  all_goals simp (maxDischargeDepth := 60) +contextual [*]

@[simp] theorem movNotify_canon (g : Nat) (st : Nat) (s : State) (hs : Canon s) : Canon (movNotify g st s) := by
  unfold movNotify
  split <;> simp (maxDischargeDepth := 60) +contextual [*]

@[simp] theorem movErr_canon (m : Nat) (st : Nat) (s : State) (hs : Canon s) : Canon (movErr m st s) := by
  unfold movErr
  split <;> simp (maxDischargeDepth := 60) +contextual [*]

@[simp] theorem execTransferComplete_canon (g : TagId) (s : State) (hs : Canon s) : NextP (fun t => Canon t) (execTransferComplete g s) := by
  unfold execTransferComplete
  repeat' split
  all_goals simp (maxDischargeDepth := 60) +contextual [*]

@[simp] theorem execCompletionTimeout_canon (g : TagId) (s : State) (hs : Canon s) : NextP (fun t => Canon t) (execCompletionTimeout g s) := by
  unfold execCompletionTimeout
  repeat' split
  all_goals simp (maxDischargeDepth := 60) +contextual [*]

@[simp] theorem execArbitrationPeriod_canon (target : Fin 17) (tags : List (Nat × Nat)) (s : State) (hs : Canon s) : NextP (fun t => Canon t) (execArbitrationPeriod target tags s) := by
  unfold execArbitrationPeriod
  repeat' split
  all_goals simp (maxDischargeDepth := 60) +contextual [*]

@[simp] theorem drnBit_canon (f : Fld) (s : State) (hs : Canon s) : Canon (drnBit f s) := by
  simp (maxDischargeDepth := 60) +contextual [drnBit, *]

@[simp] theorem jGroup_canon (ev : Nat) (seat : Nat) (serial : Nat) (presented : Nat) (detail : Nat) (s : State) (hs : Canon s) : Canon (jGroup ev seat serial presented detail s) := by
  simp (maxDischargeDepth := 60) +contextual [jGroup, *]

@[simp] theorem sendAddress_canon (p : Nat) (s : State) (hs : Canon s) : Canon (sendAddress p s) := by
  exact Canon.of_eq hs rfl rfl

@[simp] theorem capsUpdate_canon (s : State) (hs : Canon s) : Canon (capsUpdate s) := by
  simp (maxDischargeDepth := 60) +contextual [capsUpdate, *]

@[simp] theorem drnDown_canon (p : Nat) (s : State) (hs : Canon s) : Canon (drnDown p s) := by
  simp (maxDischargeDepth := 60) +contextual [drnDown, *]

@[simp] theorem drnForget_canon (p : Nat) (s : State) (hs : Canon s) : Canon (drnForget p s) := by
  exact Canon.of_eq hs rfl rfl

@[simp] theorem loseFar_canon (seat : Nat) (s : State) (hs : Canon s) : Canon (loseFar seat s) := by
  unfold loseFar
  dsimp only
  exact each_canon _ _ (fun c s hs => by split <;> simp (maxDischargeDepth := 60) +contextual [*]) _ (each_canon _ _ (fun c s hs => by simp (maxDischargeDepth := 60) +contextual [*]) _ (by simp (maxDischargeDepth := 60) +contextual [*]))

@[simp] theorem dropOut_canon (seat : Nat) (s : State) (hs : Canon s) : Canon (dropOut seat s) := by
  simp (maxDischargeDepth := 60) +contextual [dropOut, *]

@[simp] theorem regain_canon (l : List Nat) (s : State) (hs : Canon s) : Canon (regain l s) := by
  exact Canon.of_eq hs rfl rfl

@[simp] theorem loseChild_canon (p : Nat) (s : State) (hs : Canon s) : Canon (loseChild p s) := by
  simp (maxDischargeDepth := 60) +contextual [loseChild, *]

@[simp] theorem loseStream_canon (s : State) (hs : Canon s) : Canon (loseStream s) := by
  simp only [loseStream]
  repeat' split
  all_goals simp (maxDischargeDepth := 60) +contextual [*]

@[simp] theorem streamStart_canon (s : State) (hs : Canon s) : Canon (streamStart s) := by
  simp (maxDischargeDepth := 60) +contextual [streamStart, *]

@[simp] theorem leaveGroup_canon (s : State) (hs : Canon s) : Canon (leaveGroup s) := by
  unfold leaveGroup
  repeat' split
  all_goals simp (maxDischargeDepth := 60) +contextual [*]

@[simp] theorem linkUp_canon (p : Nat) (rate : Nat) (width : Nat) (mask : Nat) (s : State) (hs : Canon s) : Canon (linkUp p rate width mask s) := by
  simp (maxDischargeDepth := 60) +contextual [linkUp, *]

@[simp] theorem linkTrain_canon (p : Nat) (i : TrainInfo) (s : State) (hs : Canon s) : Canon (linkTrain p i s) := by
  unfold linkTrain
  try dsimp only
  repeat' split
  all_goals first | (simp; done) | (simp (maxDischargeDepth := 60) +contextual [*]; done) | (split_ifs <;> simp (maxDischargeDepth := 60) +contextual [*]; done) | (simp; split_ifs <;> simp (maxDischargeDepth := 60) +contextual [*]; done) | (simp (maxDischargeDepth := 60) +contextual [apply_ite State.pending]; done)

@[simp] theorem execLinkTrain_canon (p : DrnPort) (info : TrainInfo) (s : State) (hs : Canon s) : NextP (fun t => Canon t) (execLinkTrain p info s) := by
  simp (maxDischargeDepth := 60) +contextual [execLinkTrain, *]

@[simp] theorem execTrainRetry_canon (p : DrnPort) (s : State) (hs : Canon s) : NextP (fun t => Canon t) (execTrainRetry p s) := by
  unfold execTrainRetry
  repeat' split
  all_goals simp (maxDischargeDepth := 60) +contextual [*]

@[simp] theorem drnCtrlWrite_canon (p : Nat) (v : Word) (s : State) (hs : Canon s) : Canon (drnCtrlWrite p v s) := by
  unfold drnCtrlWrite
  repeat' split
  all_goals simp (maxDischargeDepth := 60) +contextual [*]

@[simp] theorem execDrnRetrain_canon (c : CoreId) (p : DrnPort) (s : State) (hs : Canon s) : NextP (fun t => Canon t) (execDrnRetrain c p s) := by
  unfold execDrnRetrain
  repeat' split
  all_goals simp (maxDischargeDepth := 60) +contextual [*]

@[simp] theorem execDrnDisable_canon (c : CoreId) (p : DrnPort) (s : State) (hs : Canon s) : NextP (fun t => Canon t) (execDrnDisable c p s) := by
  unfold execDrnDisable
  repeat' split
  all_goals simp (maxDischargeDepth := 60) +contextual [*]

@[simp] theorem execHeartbeatSend_canon (p : DrnPort) (s : State) (hs : Canon s) : NextP (fun t => Canon t) (execHeartbeatSend p s) := by
  unfold execHeartbeatSend
  repeat' split
  all_goals simp (maxDischargeDepth := 60) +contextual [*]

@[simp] theorem drnAck_canon (p : Nat) (ack : Nat) (s : State) (hs : Canon s) : Canon (drnAck p ack s) := by
  exact Canon.of_eq hs rfl rfl

@[simp] theorem drnRx_canon (type : Nat) (f : Frame) (k : State → State) (s : State) (hk : ∀ y0, Canon y0 → Canon (k y0)) (hs : Canon s) : Canon (drnRx type f k s) := by
  simp (maxDischargeDepth := 60) +contextual [drnRx, *]

@[simp] theorem execHeartbeat_canon (f : Frame) (s : State) (hs : Canon s) : NextP (fun t => Canon t) (execHeartbeat f s) := by
  simp (maxDischargeDepth := 60) +contextual [execHeartbeat, *]

@[simp] theorem takeAddress_canon (b : List Byte) (s : State) (hs : Canon s) : Canon (takeAddress b s) := by
  simp (maxDischargeDepth := 60) +contextual [takeAddress, *]

@[simp] theorem execAddress_canon (f : Frame) (s : State) (hs : Canon s) : NextP (fun t => Canon t) (execAddress f s) := by
  unfold execAddress
  repeat' split
  all_goals simp (maxDischargeDepth := 60) +contextual [*]

@[simp] theorem takeAdmitReq_canon (b : List Byte) (s : State) (hs : Canon s) : Canon (takeAdmitReq b s) := by
  simp (maxDischargeDepth := 60) +contextual [takeAdmitReq, *]

@[simp] theorem execAdmitReq_canon (f : Frame) (s : State) (hs : Canon s) : NextP (fun t => Canon t) (execAdmitReq f s) := by
  unfold execAdmitReq
  repeat' split
  all_goals simp (maxDischargeDepth := 60) +contextual [*]

@[simp] theorem execAdmitFrame_canon (f : Frame) (s : State) (hs : Canon s) : NextP (fun t => Canon t) (execAdmitFrame f s) := by
  unfold execAdmitFrame
  repeat' split
  all_goals simp (maxDischargeDepth := 60) +contextual [*]

@[simp] theorem execDetach_canon (f : Frame) (s : State) (hs : Canon s) : NextP (fun t => Canon t) (execDetach f s) := by
  unfold execDetach
  repeat' split
  all_goals simp (maxDischargeDepth := 60) +contextual [*]

@[simp] theorem sendTicks_canon (b : List Byte) (s : State) (hs : Canon s) : Canon (sendTicks b s) := by
  unfold sendTicks
  repeat' split
  all_goals simp (maxDischargeDepth := 60) +contextual [*]

@[simp] theorem tickCalendar_canon (k : Nat) (cal : Nat) (s : State) (hs : Canon s) : Canon (tickCalendar k cal s) := by
  exact Canon.of_eq hs rfl rfl

@[simp] theorem tickFields_canon (b : List Byte) (s : State) (hs : Canon s) : Canon (tickFields b s) := by
  unfold tickFields
  extract_lets k len u
  have hu : Canon u := tickCalendar_canon _ _ _ hs
  exact canon_ite _ _ _ (canon_ite _ _ _ (setF_canon _ _ _ (updTime_canon _ _ hu)) hu) hs

@[simp] theorem passTick_canon (b : List Byte) (s : State) (hs : Canon s) : Canon (passTick b s) := by
  simp (maxDischargeDepth := 60) +contextual [passTick, *]

@[simp] theorem takeTick_canon (b : List Byte) (s : State) (hs : Canon s) : Canon (takeTick b s) := by
  have h : ∀ (p : Prop) [Decidable p] (x y : State), Canon x → Canon y → Canon (if p then x else y) := by
    intro p _ x y hx hy; split <;> assumption
  unfold takeTick
  extract_lets k pd new changed u v w
  have hv : Canon v := by simp (maxDischargeDepth := 60) +contextual [v, u, *]
  have hw : Canon w := h _ _ _ (by simp (maxDischargeDepth := 60) +contextual [*]) hv
  exact h _ _ _ (by simp (maxDischargeDepth := 60) +contextual [*]) (h _ _ _ (by simp (maxDischargeDepth := 60) +contextual [*]) hw)

@[simp] theorem heardFields_canon (s : State) (hs : Canon s) : Canon (heardFields s) := by
  simp (maxDischargeDepth := 60) +contextual [heardFields, *]

@[simp] theorem tickOut_canon (s : State) (hs : Canon s) : Canon (tickOut s) := by
  simp (maxDischargeDepth := 60) +contextual [tickOut, *]

@[simp] theorem execTick_canon (f : Frame) (s : State) (hs : Canon s) : NextP (fun t => Canon t) (execTick f s) := by
  unfold execTick
  repeat' split
  all_goals simp (maxDischargeDepth := 60) +contextual [*]

@[simp] theorem chainTake_canon (b : List Byte) (s : State) (hs : Canon s) : Canon (chainTake b s) := by
  simp only [chainTake]
  repeat' split
  all_goals simp (maxDischargeDepth := 60) +contextual [*]

@[simp] theorem takeStream_canon (b : List Byte) (s : State) (hs : Canon s) : Canon (takeStream b s) := by
  simp (maxDischargeDepth := 60) +contextual [takeStream, *]

@[simp] theorem execDrnJournal_canon (f : Frame) (s : State) (hs : Canon s) : NextP (fun t => Canon t) (execDrnJournal f s) := by
  unfold execDrnJournal
  repeat' split
  all_goals simp (maxDischargeDepth := 60) +contextual [*]

@[simp] theorem execCapacity_canon (f : Frame) (s : State) (hs : Canon s) : NextP (fun t => Canon t) (execCapacity f s) := by
  unfold execCapacity
  repeat' split
  all_goals simp (maxDischargeDepth := 60) +contextual [*]

@[simp] theorem laneFailed_canon (p : Nat) (l : Nat) (s : State) (hs : Canon s) : Canon (laneFailed p l s) := by
  simp (maxDischargeDepth := 60) +contextual [laneFailed, *]

@[simp] theorem execLaneFail_canon (p : DrnPort) (lane : Fin 5) (s : State) (hs : Canon s) : NextP (fun t => Canon t) (execLaneFail p lane s) := by
  simp (maxDischargeDepth := 60) +contextual [execLaneFail, *]

@[simp] theorem execLaneSwapDone_canon (p : DrnPort) (s : State) (hs : Canon s) : NextP (fun t => Canon t) (execLaneSwapDone p s) := by
  unfold execLaneSwapDone
  split <;> simp (maxDischargeDepth := 60) +contextual [*]

@[simp] theorem execLinkLoss_canon (p : DrnPort) (s : State) (hs : Canon s) : NextP (fun t => Canon t) (execLinkLoss p s) := by
  unfold execLinkLoss
  repeat' split
  all_goals simp (maxDischargeDepth := 60) +contextual [*]

@[simp] theorem electHead_canon (s : State) (hs : Canon s) : Canon (electHead s) := by
  simp only [electHead]
  repeat' split
  all_goals simp (maxDischargeDepth := 60) +contextual [*]

@[simp] theorem execHeadElection_canon (s : State) (hs : Canon s) : NextP (fun t => Canon t) (execHeadElection s) := by
  unfold execHeadElection
  repeat' split
  all_goals simp (maxDischargeDepth := 60) +contextual [*]

@[simp] theorem execStandaloneDecision_canon (s : State) (hs : Canon s) : NextP (fun t => Canon t) (execStandaloneDecision s) := by
  unfold execStandaloneDecision
  repeat' split
  all_goals simp (maxDischargeDepth := 60) +contextual [*]

@[simp] theorem execDelayMeasure_canon (p : DrnPort) (roundTrip : BitVec 24) (s : State) (hs : Canon s) : NextP (fun t => Canon t) (execDelayMeasure p roundTrip s) := by
  simp (maxDischargeDepth := 60) +contextual [execDelayMeasure, *]

@[simp] theorem xcReset_canon (x : Nat) (drops : Nat) (s : State) (hs : Canon s) : Canon (xcReset x drops s) := by
  simp (maxDischargeDepth := 60) +contextual [xcReset, *]

@[simp] theorem execCrossingResync_canon (x : Fin 24) (s : State) (hs : Canon s) : NextP (fun t => Canon t) (execCrossingResync x s) := by
  simp (maxDischargeDepth := 60) +contextual [execCrossingResync, *]

@[simp] theorem darkAccept_canon (n : Nat) (s : State) (hs : Canon s) : Canon (darkAccept n s) := by
  simp (maxDischargeDepth := 60) +contextual [darkAccept, *]

@[simp] theorem darkChannels_canon (n : Nat) (s : State) (hs : Canon s) : Canon (darkChannels n s) := by
  unfold darkChannels
  repeat' split
  all_goals simp (maxDischargeDepth := 60) +contextual [*]

@[simp] theorem darkTick_canon (n : Nat) (s : State) (hs : Canon s) : Canon (darkTick n s) := by
  unfold darkTick
  repeat' split
  all_goals simp (maxDischargeDepth := 60) +contextual [*]

@[simp] theorem execClusterDarkEntry_canon (n : ClusterId) (s : State) (hs : Canon s) : NextP (fun t => Canon t) (execClusterDarkEntry n s) := by
  simp (maxDischargeDepth := 60) +contextual [execClusterDarkEntry, *]

@[simp] theorem saveConfig_canon (n : Nat) (s : State) (hs : Canon s) : Canon (saveConfig n s) := by
  exact Canon.of_eq hs rfl rfl

@[simp] theorem restoreConfig_canon (n : Nat) (s : State) (hs : Canon s) : Canon (restoreConfig n s) := by
  simp (maxDischargeDepth := 60) +contextual [restoreConfig, *]

@[simp] theorem clusterReset_canon (n : Nat) (s : State) (hs : Canon s) : Canon (clusterReset n s) := by
  unfold clusterReset
  repeat' split
  all_goals simp (maxDischargeDepth := 60) +contextual [*]

@[simp] theorem deepSteps_canon (s : State) (hs : Canon s) : Canon (deepSteps s) := by
  simp (maxDischargeDepth := 60) +contextual [deepSteps, *]

@[simp] theorem darkDone_canon (n : Nat) (s : State) (hs : Canon s) : Canon (darkDone n s) := by
  simp only [darkDone]
  repeat' split
  all_goals simp (maxDischargeDepth := 60) +contextual [*]

@[simp] theorem execClusterDarkDone_canon (n : ClusterId) (s : State) (hs : Canon s) : NextP (fun t => Canon t) (execClusterDarkDone n s) := by
  unfold execClusterDarkDone
  split <;> simp (maxDischargeDepth := 60) +contextual [*]

@[simp] theorem execWakeRequest_canon (n : ClusterId) (s : State) (hs : Canon s) : NextP (fun t => Canon t) (execWakeRequest n s) := by
  simp (maxDischargeDepth := 60) +contextual [execWakeRequest, *]

@[simp] theorem execClusterResetRelease_canon (n : ClusterId) (s : State) (hs : Canon s) : NextP (fun t => Canon t) (execClusterResetRelease n s) := by
  simp (maxDischargeDepth := 60) +contextual [execClusterResetRelease, *]

@[simp] theorem takeBells_canon (t : Nat) (s : State) (hs : Canon s) : Canon (takeBells t s).2 := by
  simp (maxDischargeDepth := 60) +contextual [takeBells, *]

@[simp] theorem wakeTenant_canon (t : Nat) (s : State) (hs : Canon s) : Canon (wakeTenant t s) := by
  simp (maxDischargeDepth := 60) +contextual [wakeTenant, *]

@[simp] theorem wakeTick_canon (n : Nat) (s : State) (hs : Canon s) : Canon (wakeTick n s) := by
  unfold wakeTick
  repeat' split
  all_goals simp (maxDischargeDepth := 60) +contextual [*]

@[simp] theorem execClusterWakeTick_canon (n : ClusterId) (s : State) (hs : Canon s) : NextP (fun t => Canon t) (execClusterWakeTick n s) := by
  simp (maxDischargeDepth := 60) +contextual [execClusterWakeTick, *]

@[simp] theorem railRaise_canon (n : Nat) (k : Nat) (s : State) (hs : Canon s) : Canon (railRaise n k s) := by
  simp (maxDischargeDepth := 60) +contextual [railRaise, *]

@[simp] theorem govern_canon (n : Nat) (s : State) (hs : Canon s) : Canon (govern n s) := by
  simp (maxDischargeDepth := 60) +contextual [govern, *]

@[simp] theorem execGovernorDecision_canon (n : ClusterId) (s : State) (hs : Canon s) : NextP (fun t => Canon t) (execGovernorDecision n s) := by
  simp (maxDischargeDepth := 60) +contextual [execGovernorDecision, *]

@[simp] theorem govWrite_canon (a : Nat) (v : Word) (s : State) (hs : Canon s) : Canon (govWrite a v s) := by
  simp (maxDischargeDepth := 60) +contextual [govWrite, *]

@[simp] theorem resetTo_canon (keep : Nat → Bool) (s : State) (hs : Canon s) : Canon (resetTo keep s) := by
  unfold resetTo
  repeat' split
  all_goals simp (maxDischargeDepth := 60) +contextual [*]

@[simp] theorem fullReset_canon (cause : Nat) (s : State) (hs : Canon s) : Canon (fullReset cause s) := by
  simp (maxDischargeDepth := 60) +contextual [fullReset, *]

@[simp] theorem execPowerOnReset_canon (_vaon : Bool) (s : State) (hs : Canon s) : NextP (fun t => Canon t) (execPowerOnReset _vaon s) := by
  simp (maxDischargeDepth := 60) +contextual [execPowerOnReset, *]

@[simp] theorem execResetPin_canon (s : State) (hs : Canon s) : NextP (fun t => Canon t) (execResetPin s) := by
  simp (maxDischargeDepth := 60) +contextual [execResetPin, *]

@[simp] theorem pwrRstWrite_canon (v : Word) (s : State) (hs : Canon s) : Canon (pwrRstWrite v s) := by
  unfold pwrRstWrite
  split <;> simp (maxDischargeDepth := 60) +contextual [*]

@[simp] theorem execSoftReset_canon (c : CoreId) (v : Word) (s : State) (hs : Canon s) : NextP (fun t => Canon t) (execSoftReset c v s) := by
  unfold execSoftReset
  repeat' split
  all_goals simp (maxDischargeDepth := 60) +contextual [*]

@[simp] theorem execResetRelease_canon (bootsel : Bool) (head : Bool) (s : State) (hs : Canon s) : NextP (fun t => Canon t) (execResetRelease bootsel head s) := by
  simp (maxDischargeDepth := 60) +contextual [execResetRelease, *]

@[simp] theorem execSupplyDip_canon (i : Fin 4) (s : State) (hs : Canon s) : NextP (fun t => Canon t) (execSupplyDip i s) := by
  simp (maxDischargeDepth := 60) +contextual [execSupplyDip, *]

@[simp] theorem swapWindows_canon (s : State) (hs : Canon s) : Canon (swapWindows s) := by
  unfold swapWindows
  repeat' split
  all_goals simp (maxDischargeDepth := 60) +contextual [*]

@[simp] theorem mapSlot_canon (k : Nat) (s : State) (hs : Canon s) : Canon (mapSlot k s) := by
  simp (maxDischargeDepth := 60) +contextual [mapSlot, *]

@[simp] theorem bootRelease_canon (k : Nat) (fb : Nat) (s : State) (hs : Canon s) : Canon (bootRelease k fb s) := by
  simp (maxDischargeDepth := 60) +contextual [bootRelease, *]

theorem bootTry_canon (k fb : Nat) (s : State) (hs : Canon s) : ∀ t, bootTry k fb s = some t → Canon t := by
  intro t h
  unfold bootTry at h
  dsimp only at h
  split at h
  · simp only [Option.some.injEq] at h; subst h; simp (maxDischargeDepth := 60) +contextual [*]
  · cases h

@[simp] theorem bootRun_canon (s : State) (hs : Canon s) : Canon (bootRun s) := by
  simp only [bootRun]
  generalize hu : setF fKeyfail _ s = u
  have hp : Canon u := by rw [← hu]; exact setF_canon _ _ _ hs
  split
  · simp (maxDischargeDepth := 60) +contextual [*]
  · split
    · rename_i g; simp (maxDischargeDepth := 60) +contextual [*, bootTry_canon _ _ _ hp _ g]
    · split
      · rename_i g; simp (maxDischargeDepth := 60) +contextual [*, bootTry_canon _ _ _ hp _ g]
      · simp (maxDischargeDepth := 60) +contextual [*]

@[simp] theorem execBoot_canon (s : State) (hs : Canon s) : NextP (fun t => Canon t) (execBoot s) := by
  simp (maxDischargeDepth := 60) +contextual [execBoot, *]

@[simp] theorem disableAll_canon (s : State) (hs : Canon s) : Canon (disableAll s) := by
  unfold disableAll
  repeat' split
  all_goals simp (maxDischargeDepth := 60) +contextual [*]

@[simp] theorem tellVfs_canon (s : State) (hs : Canon s) : Canon (tellVfs s) := by
  simp (maxDischargeDepth := 60) +contextual [tellVfs, *]

@[simp] theorem sriovOff_canon (s : State) (hs : Canon s) : Canon (sriovOff s) := by
  simp (maxDischargeDepth := 60) +contextual [sriovOff, *]

@[simp] theorem endpointReset_canon (s : State) (hs : Canon s) : Canon (endpointReset s) := by
  unfold endpointReset
  repeat' split
  all_goals simp (maxDischargeDepth := 60) +contextual [*]

@[simp] theorem execEndpointReset_canon (s : State) (hs : Canon s) : NextP (fun t => Canon t) (execEndpointReset s) := by
  simp (maxDischargeDepth := 60) +contextual [execEndpointReset, *]

@[simp] theorem updRootPort_canon (i : Fin 4) (f : RootPort → RootPort) (s : State) (hs : Canon s) : Canon (updRootPort i f s) := by
  exact Canon.of_eq hs rfl rfl

@[simp] theorem failMembers_canon (i : Nat) (s : State) (hs : Canon s) : Canon (failMembers i s) := by
  unfold failMembers
  repeat' split
  all_goals simp (maxDischargeDepth := 60) +contextual [*]

@[simp] theorem execDriveRemoved_canon (i : Fin 4) (s : State) (hs : Canon s) : NextP (fun t => Canon t) (execDriveRemoved i s) := by
  simp (maxDischargeDepth := 60) +contextual [execDriveRemoved, *]

@[simp] theorem execDriveInserted_canon (i : Fin 4) (s : State) (hs : Canon s) : NextP (fun t => Canon t) (execDriveInserted i s) := by
  simp (maxDischargeDepth := 60) +contextual [execDriveInserted, *]

@[simp] theorem execRootPortRetrain_canon (i : Fin 4) (s : State) (hs : Canon s) : NextP (fun t => Canon t) (execRootPortRetrain i s) := by
  simp only [execRootPortRetrain]
  repeat' split
  all_goals simp (maxDischargeDepth := 60) +contextual [*]

@[simp] theorem lowPowerBegin_canon (deep : Bool) (s : State) (hs : Canon s) : Canon (lowPowerBegin deep s) := by
  unfold lowPowerBegin
  repeat' split
  all_goals simp (maxDischargeDepth := 60) +contextual [*]

@[simp] theorem atE1_canon (s : State) (hs : Canon s) : Canon (atE1 s) := by
  unfold atE1
  split <;> simp (maxDischargeDepth := 60) +contextual [*]

@[simp] theorem deepOff_canon (s : State) (hs : Canon s) : Canon (deepOff s) := by
  simp (maxDischargeDepth := 60) +contextual [deepOff, *]

@[simp] theorem execLowPowerEntryEnd_canon (s : State) (hs : Canon s) : NextP (fun t => Canon t) (execLowPowerEntryEnd s) := by
  simp (maxDischargeDepth := 60) +contextual [execLowPowerEntryEnd, *]

@[simp] theorem execNvmeShutdownTimeout_canon (i : Fin 4) (s : State) (hs : Canon s) : NextP (fun t => Canon t) (execNvmeShutdownTimeout i s) := by
  unfold execNvmeShutdownTimeout
  repeat' split
  all_goals simp (maxDischargeDepth := 60) +contextual [*]

@[simp] theorem execLowPowerExit_canon (s : State) (hs : Canon s) : NextP (fun t => Canon t) (execLowPowerExit s) := by
  unfold execLowPowerExit
  repeat' split
  all_goals simp (maxDischargeDepth := 60) +contextual [*]

@[simp] theorem execSmbusAddressMatch_canon (s : State) (hs : Canon s) : NextP (fun t => Canon t) (execSmbusAddressMatch s) := by
  simp (maxDischargeDepth := 60) +contextual [execSmbusAddressMatch, *]

@[simp] theorem sentryFire_canon (k : Nat) (s : State) (hs : Canon s) : Canon (sentryFire k s) := by
  simp (maxDischargeDepth := 60) +contextual [sentryFire, *]

@[simp] theorem execSentryFire_canon (k : Fin 16) (level : Bool) (s : State) (hs : Canon s) : NextP (fun t => Canon t) (execSentryFire k level s) := by
  simp (maxDischargeDepth := 60) +contextual [execSentryFire, *]

@[simp] theorem alarmFire_canon (s : State) (hs : Canon s) : Canon (alarmFire s) := by
  simp (maxDischargeDepth := 60) +contextual [alarmFire, *]

@[simp] theorem alarmCheck_canon (s : State) (hs : Canon s) : Canon (alarmCheck s) := by
  simp (maxDischargeDepth := 60) +contextual [alarmCheck, *]

@[simp] theorem calUpdate_canon (s : State) (hs : Canon s) : Canon (calUpdate s) := by
  unfold calUpdate
  split <;> simp (maxDischargeDepth := 60) +contextual [*]

@[simp] theorem execCalCycle_canon (s : State) (hs : Canon s) : NextP (fun t => Canon t) (execCalCycle s) := by
  unfold execCalCycle
  repeat' split
  all_goals simp (maxDischargeDepth := 60) +contextual [*]

@[simp] theorem execCalStepApply_canon (s : State) (hs : Canon s) : NextP (fun t => Canon t) (execCalStepApply s) := by
  unfold execCalStepApply
  repeat' split
  all_goals simp (maxDischargeDepth := 60) +contextual [*]

@[simp] theorem execAlarmFire_canon (s : State) (hs : Canon s) : NextP (fun t => Canon t) (execAlarmFire s) := by
  simp (maxDischargeDepth := 60) +contextual [execAlarmFire, *]

@[simp] theorem vfEnable_canon (num : Nat) (s : State) (hs : Canon s) : Canon (vfEnable num s) := by
  unfold vfEnable
  repeat' split
  all_goals simp (maxDischargeDepth := 60) +contextual [*]

@[simp] theorem execVfEnableSet_canon (num : BitVec 16) (s : State) (hs : Canon s) : NextP (fun t => Canon t) (execVfEnableSet num s) := by
  simp (maxDischargeDepth := 60) +contextual [execVfEnableSet, *]

@[simp] theorem execVfEnableClear_canon (s : State) (hs : Canon s) : NextP (fun t => Canon t) (execVfEnableClear s) := by
  simp (maxDischargeDepth := 60) +contextual [execVfEnableClear, *]

@[simp] theorem execVfFlr_canon (t : TenantId) (s : State) (hs : Canon s) : NextP (fun t => Canon t) (execVfFlr t s) := by
  simp (maxDischargeDepth := 60) +contextual [execVfFlr, *]

@[simp] theorem execPfFlr_canon (s : State) (hs : Canon s) : NextP (fun t => Canon t) (execPfFlr s) := by
  unfold execPfFlr
  repeat' split
  all_goals simp (maxDischargeDepth := 60) +contextual [*]

@[simp] theorem codePut_canon (off : Nat) (bs : List Byte) (s : State) (hs : Canon s) : Canon (codePut off bs s).2 := by
  unfold codePut
  split <;> simp (maxDischargeDepth := 60) +contextual [*]

@[simp] theorem codeCommitNow_canon (s : State) (hs : Canon s) : Canon (codeCommitNow s).2 := by
  unfold codeCommitNow
  repeat' split
  all_goals simp (maxDischargeDepth := 60) +contextual [*]

@[simp] theorem mgmt_canon (code : Nat) (m : MCmd) (k : List Byte → State → List Byte × State) (hk : ∀ b s, Canon s → Canon (k b s).2) (s : State) (hs : Canon s) : Canon (mgmt code m k s) := by
  unfold mgmt
  split <;> simp (maxDischargeDepth := 60) +contextual [*, hk]

@[simp] theorem execGetId_canon (m : MCmd) (s : State) (hs : Canon s) : NextP (fun t => Canon t) (execGetId m s) := by
  simp (maxDischargeDepth := 60) +contextual [execGetId, *]

@[simp] theorem execGetStatus_canon (m : MCmd) (s : State) (hs : Canon s) : NextP (fun t => Canon t) (execGetStatus m s) := by
  simp (maxDischargeDepth := 60) +contextual [execGetStatus, *]

@[simp] theorem execMgmtReset_canon (m : MCmd) (s : State) (hs : Canon s) : NextP (fun t => Canon t) (execMgmtReset m s) := by
  unfold execMgmtReset
  split <;> simp (maxDischargeDepth := 60) +contextual [*]

@[simp] theorem execMgmtCodeWrite_canon (m : MCmd) (s : State) (hs : Canon s) : NextP (fun t => Canon t) (execMgmtCodeWrite m s) := by
  unfold execMgmtCodeWrite
  (simp only [nextP_done]; refine mgmt_canon _ _ _ (fun b s hs => ?_) _ hs; (try dsimp only); (repeat' split); all_goals simp (maxDischargeDepth := 60) +contextual [*])

@[simp] theorem execMgmtCodeCommit_canon (m : MCmd) (s : State) (hs : Canon s) : NextP (fun t => Canon t) (execMgmtCodeCommit m s) := by
  unfold execMgmtCodeCommit
  repeat' split
  all_goals simp (maxDischargeDepth := 60) +contextual [*]

@[simp] theorem execCodeRead_canon (m : MCmd) (s : State) (hs : Canon s) : NextP (fun t => Canon t) (execCodeRead m s) := by
  unfold execCodeRead
  (simp only [nextP_done]; refine mgmt_canon _ _ _ (fun b s hs => ?_) _ hs; (try dsimp only); (repeat' split); all_goals simp (maxDischargeDepth := 60) +contextual [*])

@[simp] theorem execAdminSubmit_canon (m : MCmd) (s : State) (hs : Canon s) : NextP (fun t => Canon t) (execAdminSubmit m s) := by
  unfold execAdminSubmit
  (simp only [nextP_done]; refine mgmt_canon _ _ _ (fun b s hs => ?_) _ hs; (try dsimp only); (repeat' split); all_goals simp (maxDischargeDepth := 60) +contextual [*])

@[simp] theorem execAdminFetch_canon (m : MCmd) (s : State) (hs : Canon s) : NextP (fun t => Canon t) (execAdminFetch m s) := by
  unfold execAdminFetch
  (simp only [nextP_done]; refine mgmt_canon _ _ _ (fun b s hs => ?_) _ hs; (try dsimp only); (repeat' split); all_goals simp (maxDischargeDepth := 60) +contextual [*])

@[simp] theorem execMgmtReplyRead_canon (s : State) (hs : Canon s) : NextP (fun t => Canon t) (execMgmtReplyRead s) := by
  simp (maxDischargeDepth := 60) +contextual [execMgmtReplyRead, *]

@[simp] theorem tapLoad_canon (code : Nat) (s : State) (hs : Canon s) : Canon (tapLoad code s) := by
  exact Canon.of_eq hs rfl rfl

@[simp] theorem tapTake_canon (code : Nat) (s : State) (hs : Canon s) : Canon (tapTake code s) := by
  unfold tapTake
  repeat' split
  all_goals simp (maxDischargeDepth := 60) +contextual [*]

@[simp] theorem execTapReset_canon (s : State) (hs : Canon s) : NextP (fun t => Canon t) (execTapReset s) := by
  exact Canon.of_eq hs rfl rfl

@[simp] theorem execJtagBypass_canon (s : State) (hs : Canon s) : NextP (fun t => Canon t) (execJtagBypass s) := by
  exact Canon.of_eq hs rfl rfl

@[simp] theorem execIdcode_canon (s : State) (hs : Canon s) : NextP (fun t => Canon t) (execIdcode s) := by
  exact Canon.of_eq hs rfl rfl

@[simp] theorem execSamplePreload_canon (s : State) (hs : Canon s) : NextP (fun t => Canon t) (execSamplePreload s) := by
  exact Canon.of_eq hs rfl rfl

@[simp] theorem execExtest_canon (s : State) (hs : Canon s) : NextP (fun t => Canon t) (execExtest s) := by
  simp (maxDischargeDepth := 60) +contextual [execExtest, *]

@[simp] theorem execClamp_canon (s : State) (hs : Canon s) : NextP (fun t => Canon t) (execClamp s) := by
  simp (maxDischargeDepth := 60) +contextual [execClamp, *]

@[simp] theorem execHighz_canon (s : State) (hs : Canon s) : NextP (fun t => Canon t) (execHighz s) := by
  simp (maxDischargeDepth := 60) +contextual [execHighz, *]

@[simp] theorem readEffect_canon (c : CoreId) (a : Nat) (s : State) (hs : Canon s) : Canon (readEffect c a s) := by
  unfold readEffect
  repeat' split
  all_goals simp (maxDischargeDepth := 60) +contextual [*]

@[simp] theorem wordOffset_canon (key : Nat) (v : Word) (s : State) (hs : Canon s) : Canon (wordOffset key v s) := by
  simp (maxDischargeDepth := 60) +contextual [wordOffset, *]

@[simp] theorem pgCtrlWrite_canon (n : Nat) (v : Word) (s : State) (hs : Canon s) : Canon (pgCtrlWrite n v s) := by
  simp (maxDischargeDepth := 60) +contextual [pgCtrlWrite, *]

@[simp] theorem padDo_canon (c : CoreId) (p : Nat) (o : Nat) (v : Word) (s : State) (hs : Canon s) : Canon (padDo c p o v s) := by
  unfold padDo
  split <;> simp (maxDischargeDepth := 60) +contextual [*]

@[simp] theorem icDo_canon (n : Nat) (o : Nat) (v : Word) (s : State) (hs : Canon s) : Canon (icDo n o v s) := by
  simp (maxDischargeDepth := 60) +contextual [icDo, *]

@[simp] theorem doneMark_canon (n : Nat) (v : Word) (s : State) (hs : Canon s) : Canon (doneMark n v s) := by
  simp (maxDischargeDepth := 60) +contextual [doneMark, *]

@[simp] theorem winDo_canon (c : CoreId) (n : Nat) (o : Nat) (v : Word) (s : State) (hs : Canon s) : Canon (winDo c n o v s) := by
  unfold winDo
  repeat' (with_reducible refine canon_ite _ _ _ ?_ ?_)
  all_goals simp (maxDischargeDepth := 60) [hs]

@[simp] theorem selfDo_canon (n : Nat) (t : Nat) (o : Nat) (v : Word) (s : State) (hs : Canon s) : Canon (selfDo n t o v s) := by
  unfold selfDo
  split <;> simp (maxDischargeDepth := 60) +contextual [*]

@[simp] theorem calTrimWrite_canon (v : Word) (s : State) (hs : Canon s) : Canon (calTrimWrite v s) := by
  simp (maxDischargeDepth := 60) +contextual [calTrimWrite, *]

@[simp] theorem lcRegDo_canon (c : CoreId) (a : Nat) (v : Word) (s : State) (hs : Canon s) : Canon (lcRegDo c a v s) := by
  simp (maxDischargeDepth := 60) +contextual [lcRegDo, *]

@[simp] theorem chipDo_canon (c : CoreId) (a : Nat) (v : Word) (s : State) (hs : Canon s) : Canon (chipDo c a v s) := by
  unfold chipDo
  split <;> simp (maxDischargeDepth := 60) +contextual [*]

@[simp] theorem msixWrite_canon (p : Nat) (o : Nat) (v : Word) (s : State) (hs : Canon s) : Canon (msixWrite p o v s) := by
  simp (maxDischargeDepth := 60) +contextual [msixWrite, *]

@[simp] theorem pageDo_canon (r : Requester) (p : Nat) (o : Nat) (v : Word) (s : State) (hs : Canon s) : Canon (pageDo r p o v s) := by
  simp (maxDischargeDepth := 60) +contextual [pageDo, *]

@[simp] theorem privDo_canon (i : Nat) (o : Nat) (v : Word) (s : State) (hs : Canon s) : Canon (privDo i o v s) := by
  unfold privDo
  split <;> simp (maxDischargeDepth := 60) +contextual [*]

@[simp] theorem regDo_canon (c : CoreId) (a : Nat) (v : Word) (s : State) (hs : Canon s) : Canon (regDo c a v s) := by
  unfold regDo
  repeat' split
  all_goals simp (maxDischargeDepth := 60) +contextual [*]

@[simp] theorem memStore_canon (a : Nat) (bs : List Byte) (s : State) (hs : Canon s) : Canon (memStore a bs s) := by
  simp (maxDischargeDepth := 60) +contextual [memStore, *]

@[simp] theorem perform_canon (c : CoreId) (w : SideWrite) (s : State) (hs : Canon s) : Canon (perform c w s) := by
  simp only [perform]
  repeat' split
  all_goals simp (maxDischargeDepth := 60) +contextual [*]

@[simp] theorem performSide_canon (i : Nat) (s : State) (hs : Canon s) : Canon (performSide i s) := by
  unfold performSide
  dsimp only
  exact each_canon _ _ (fun c s hs => by split <;> simp (maxDischargeDepth := 60) +contextual [*]) _ (by simp (maxDischargeDepth := 60) +contextual [*])

@[simp] theorem takeCkpt_canon (i : Nat) (work : Option Nat) (s : State) (hs : Canon s) : Canon (takeCkpt i work s) := by
  simp (maxDischargeDepth := 60) +contextual [takeCkpt, *]

@[simp] theorem autoCkpt_canon (i : Nat) (s : State) (hs : Canon s) : Canon (autoCkpt i s) := by
  simp (maxDischargeDepth := 60) +contextual [autoCkpt, *]

@[simp] theorem makeRoom_canon (c : CoreId) (a : Nat) (parts : Nat) (s : State) (hs : Canon s) : Canon (makeRoom c a parts s) := by
  simp (maxDischargeDepth := 60) +contextual [makeRoom, *]

@[simp] theorem coreWrite_canon (c : CoreId) (a : Nat) (size : Nat) (data : Word) (s : State) (hs : Canon s) : Canon (coreWrite c a size data s) := by
  simp (maxDischargeDepth := 60) +contextual [coreWrite, *]

@[simp] theorem regWrite_canon (c : CoreId) (a : Nat) (v : Word) (s : State) (hs : Canon s) : Canon (regWrite c a v s) := by
  unfold regWrite
  repeat' split
  all_goals simp (maxDischargeDepth := 60) +contextual [*]

@[simp] theorem execRegisterWrite_canon (r : Requester) (a : Target) (v : Word) (s : State) (hs : Canon s) : NextP (fun t => Canon t) (execRegisterWrite r a v s) := by
  unfold execRegisterWrite
  repeat' split
  all_goals simp (maxDischargeDepth := 60) +contextual [*]

@[simp] theorem execClFrameDone_canon (c : CoreId) (n : ClusterId) (v : Word) (agree : Bool) (s : State) (hs : Canon s) : NextP (fun t => Canon t) (execClFrameDone c n v agree s) := by
  simp (maxDischargeDepth := 60) +contextual [execClFrameDone, *]

@[simp] theorem execClCkptWrite_canon (c : CoreId) (n : ClusterId) (v : Word) (agree : Bool) (s : State) (hs : Canon s) : NextP (fun t => Canon t) (execClCkptWrite c n v agree s) := by
  simp (maxDischargeDepth := 60) +contextual [execClCkptWrite, *]

@[simp] theorem execCpCheckpoint_canon (agree : Bool) (s : State) (hs : Canon s) : NextP (fun t => Canon t) (execCpCheckpoint agree s) := by
  simp (maxDischargeDepth := 60) +contextual [execCpCheckpoint, *]

@[simp] theorem heldEnd_canon (h : HeldAcc) (s : State) (hs : Canon s) : Canon (heldEnd h s) := by
  simp only [heldEnd]
  repeat' split
  all_goals simp (maxDischargeDepth := 60) +contextual [*]

@[simp] theorem performHeld_canon (n : Nat) (s : State) (hs : Canon s) : Canon (performHeld n s) := by
  unfold performHeld
  repeat' split
  all_goals simp (maxDischargeDepth := 60) +contextual [*]

@[simp] theorem regReadAns_canon (a : Nat) (s : State) (hs : Canon s) : Canon (regReadAns a s).2.2 := by
  unfold regReadAns
  repeat' split
  all_goals simp (maxDischargeDepth := 60) +contextual [*]

@[simp] theorem regReadEnd_canon (s : State) (hs : Canon s) : Canon (regReadEnd s) := by
  unfold regReadEnd
  split <;> simp (maxDischargeDepth := 60) +contextual [*]

@[simp] theorem execHandoverEnd_canon (imageOk : Bool) (s : State) (hs : Canon s) : NextP (fun t => Canon t) (execHandoverEnd imageOk s) := by
  unfold execHandoverEnd
  repeat' split
  all_goals simp (maxDischargeDepth := 60) +contextual [*]

@[simp] theorem admOk_canon (payload : List Byte) (s : State) (hs : Canon s) : Canon (admOk payload s).st := by
  exact Canon.of_eq hs rfl rfl

@[simp] theorem badArg_canon (s : State) (hs : Canon s) : Canon (badArg s).st := by
  exact Canon.of_eq hs rfl rfl

@[simp] theorem conflict_canon (state : Nat) (s : State) (hs : Canon s) : Canon (conflict state s).st := by
  exact Canon.of_eq hs rfl rfl

@[simp] theorem noResource_canon (s : State) (hs : Canon s) : Canon (noResource s).st := by
  exact Canon.of_eq hs rfl rfl

@[simp] theorem badImage_canon (reason : Nat) (s : State) (hs : Canon s) : Canon (badImage reason s).st := by
  exact Canon.of_eq hs rfl rfl

@[simp] theorem mediaError_canon (s : State) (hs : Canon s) : Canon (mediaError s).st := by
  exact Canon.of_eq hs rfl rfl

@[simp] theorem admTake_canon (op : Nat) (x : ACmd) (s : State) (hs : Canon s) : Canon (admTake op x s) := by
  simp (maxDischargeDepth := 60) +contextual [admTake, *]

@[simp] theorem admEnd_canon (op : Nat) (x : ACmd) (a : Adm) (hs : Canon a.st) : Canon (admEnd op x a) := by
  cases a <;> simp only [Adm.st_ans, Adm.st_wait] at hs <;> simp (maxDischargeDepth := 60) +contextual [*, admEnd]

@[simp] theorem admRun_canon (op : Nat) (x : ACmd) (need : Nat) (k : List Byte → State → Adm) (hk : ∀ b s, Canon s → Canon (k b s).st) (s : State) (hs : Canon s) : NextP (fun t => Canon t) (admRun op x need k s) := by
  unfold admRun
  simp only [nextP_done]
  split
  · exact hs
  · refine admEnd_canon _ _ _ ?_
    split
    · exact hk _ _ (by simp (maxDischargeDepth := 60) +contextual [*])
    · simp (maxDischargeDepth := 60) +contextual [*]

@[simp] theorem admGroup_canon (op : Nat) (x : ACmd) (unit : Nat) (k : List Byte → State → Adm) (b : List Byte) (s : State) (hk : ∀ y0 y1, Canon y1 → Canon (k y0 y1).st) (hs : Canon s) : Canon (admGroup op x unit k b s).st := by
  simp only [admGroup]
  repeat' split
  all_goals simp (maxDischargeDepth := 60) +contextual [*]

@[simp] theorem tenantDisable_canon (t : Nat) (s : State) (hs : Canon s) : Canon (tenantDisable t s) := by
  unfold tenantDisable
  repeat' split
  all_goals simp (maxDischargeDepth := 60) +contextual [*]

@[simp] theorem tenantConfig_canon (b : List Byte) (s : State) (hs : Canon s) : Canon (tenantConfig b s).st := by
  simp only [tenantConfig]
  repeat' split
  all_goals simp (maxDischargeDepth := 60) +contextual [*]

@[simp] theorem execTenantConfig_canon (x : ACmd) (s : State) (hs : Canon s) : NextP (fun t => Canon t) (execTenantConfig x s) := by
  unfold execTenantConfig
  repeat' split
  all_goals simp (maxDischargeDepth := 60) +contextual [*]

@[simp] theorem adminReset_canon (b : List Byte) (s : State) (hs : Canon s) : Canon (adminReset b s).st := by
  simp only [adminReset]
  repeat' split
  all_goals simp (maxDischargeDepth := 60) +contextual [*]

@[simp] theorem execAdminTenantReset_canon (x : ACmd) (s : State) (hs : Canon s) : NextP (fun t => Canon t) (execAdminTenantReset x s) := by
  unfold execAdminTenantReset
  repeat' split
  all_goals simp (maxDischargeDepth := 60) +contextual [*]

@[simp] theorem withPort_canon (k : Nat → State → Adm) (b : List Byte) (s : State) (hk : ∀ y0 y1, Canon y1 → Canon (k y0 y1).st) (hs : Canon s) : Canon (withPort k b s).st := by
  simp only [withPort]
  repeat' split
  all_goals simp (maxDischargeDepth := 60) +contextual [*]

@[simp] theorem portDefine_canon (b : List Byte) (s : State) (hs : Canon s) : Canon (portDefine b s).st := by
  simp only [portDefine]
  repeat' split
  all_goals simp (maxDischargeDepth := 60) +contextual [*]

@[simp] theorem execPortDefine_canon (x : ACmd) (s : State) (hs : Canon s) : NextP (fun t => Canon t) (execPortDefine x s) := by
  unfold execPortDefine
  repeat' split
  all_goals simp (maxDischargeDepth := 60) +contextual [*]

@[simp] theorem portDrop_canon (p : Nat) (s : State) (hs : Canon s) : Canon (portDrop p s) := by
  unfold portDrop
  repeat' split
  all_goals simp (maxDischargeDepth := 60) +contextual [*]

@[simp] theorem portRemove_canon (p : Nat) (s : State) (hs : Canon s) : Canon (portRemove p s).st := by
  unfold portRemove
  split <;> simp (maxDischargeDepth := 60) +contextual [*]

@[simp] theorem execPortRemove_canon (x : ACmd) (s : State) (hs : Canon s) : NextP (fun t => Canon t) (execPortRemove x s) := by
  unfold execPortRemove
  repeat' split
  all_goals simp (maxDischargeDepth := 60) +contextual [*]

@[simp] theorem portGrant_canon (b : List Byte) (p : Nat) (s : State) (hs : Canon s) : Canon (portGrant b p s).st := by
  simp only [portGrant]
  repeat' split
  all_goals simp (maxDischargeDepth := 60) +contextual [*]

@[simp] theorem execPortGrant_canon (x : ACmd) (s : State) (hs : Canon s) : NextP (fun t => Canon t) (execPortGrant x s) := by
  unfold execPortGrant
  repeat' split
  all_goals simp (maxDischargeDepth := 60) +contextual [*]

@[simp] theorem portSuspend_canon (p : Nat) (s : State) (hs : Canon s) : Canon (portSuspend p s).st := by
  unfold portSuspend
  split <;> simp (maxDischargeDepth := 60) +contextual [*]

@[simp] theorem execPortSuspend_canon (x : ACmd) (s : State) (hs : Canon s) : NextP (fun t => Canon t) (execPortSuspend x s) := by
  unfold execPortSuspend
  repeat' split
  all_goals simp (maxDischargeDepth := 60) +contextual [*]

@[simp] theorem portResume_canon (p : Nat) (s : State) (hs : Canon s) : Canon (portResume p s).st := by
  simp only [portResume]
  repeat' split
  all_goals simp (maxDischargeDepth := 60) +contextual [*]

@[simp] theorem execPortResume_canon (x : ACmd) (s : State) (hs : Canon s) : NextP (fun t => Canon t) (execPortResume x s) := by
  unfold execPortResume
  repeat' split
  all_goals simp (maxDischargeDepth := 60) +contextual [*]

@[simp] theorem portBypass_canon (p : Nat) (s : State) (hs : Canon s) : Canon (portBypass p s).st := by
  exact Canon.of_eq hs rfl rfl

@[simp] theorem execPortBypass_canon (x : ACmd) (s : State) (hs : Canon s) : NextP (fun t => Canon t) (execPortBypass x s) := by
  unfold execPortBypass
  repeat' split
  all_goals simp (maxDischargeDepth := 60) +contextual [*]

@[simp] theorem portRelease_canon (p : Nat) (s : State) (hs : Canon s) : Canon (portRelease p s).st := by
  unfold portRelease
  split <;> simp (maxDischargeDepth := 60) +contextual [*]

@[simp] theorem execPortRelease_canon (x : ACmd) (s : State) (hs : Canon s) : NextP (fun t => Canon t) (execPortRelease x s) := by
  unfold execPortRelease
  repeat' split
  all_goals simp (maxDischargeDepth := 60) +contextual [*]

@[simp] theorem discardPort_canon (p : Nat) (s : State) (hs : Canon s) : Canon (discardPort p s) := by
  simp (maxDischargeDepth := 60) +contextual [discardPort, *]

@[simp] theorem execSettleDiscard_canon (x : ACmd) (s : State) (hs : Canon s) : NextP (fun t => Canon t) (execSettleDiscard x s) := by
  unfold execSettleDiscard
  repeat' split
  all_goals simp (maxDischargeDepth := 60) +contextual [*]

@[simp] theorem settleRead_canon (p : Nat) (s : State) (hs : Canon s) : Canon (settleRead p s).st := by
  exact Canon.of_eq hs rfl rfl

@[simp] theorem execSettleRead_canon (x : ACmd) (s : State) (hs : Canon s) : NextP (fun t => Canon t) (execSettleRead x s) := by
  unfold execSettleRead
  repeat' split
  all_goals simp (maxDischargeDepth := 60) +contextual [*]

@[simp] theorem aptStage_canon (x : ACmd) (b : List Byte) (s : State) (hs : Canon s) : Canon (aptStage x b s).st := by
  simp only [aptStage]
  repeat' split
  all_goals simp (maxDischargeDepth := 60) +contextual [*]

@[simp] theorem execAptStage_canon (x : ACmd) (s : State) (hs : Canon s) : NextP (fun t => Canon t) (execAptStage x s) := by
  unfold execAptStage
  repeat' split
  all_goals simp (maxDischargeDepth := 60) +contextual [*]

@[simp] theorem discardOthers_canon (id : Nat) (mj : Nat) (s : State) (hs : Canon s) : Canon (discardOthers id mj s) := by
  unfold discardOthers
  repeat' split
  all_goals simp (maxDischargeDepth := 60) +contextual [*]

@[simp] theorem aptActivate_canon (b : List Byte) (s : State) (hs : Canon s) : Canon (aptActivate b s).st := by
  simp only [aptActivate]
  repeat' split
  all_goals simp (maxDischargeDepth := 60) +contextual [*]

@[simp] theorem execAptActivate_canon (x : ACmd) (s : State) (hs : Canon s) : NextP (fun t => Canon t) (execAptActivate x s) := by
  unfold execAptActivate
  repeat' split
  all_goals simp (maxDischargeDepth := 60) +contextual [*]

@[simp] theorem aptRemove_canon (b : List Byte) (s : State) (hs : Canon s) : Canon (aptRemove b s).st := by
  unfold aptRemove
  repeat' split
  all_goals simp (maxDischargeDepth := 60) +contextual [*]

@[simp] theorem execAptRemove_canon (x : ACmd) (s : State) (hs : Canon s) : NextP (fun t => Canon t) (execAptRemove x s) := by
  unfold execAptRemove
  repeat' split
  all_goals simp (maxDischargeDepth := 60) +contextual [*]

@[simp] theorem aptList_canon (b : List Byte) (s : State) (hs : Canon s) : Canon (aptList b s).st := by
  exact Canon.of_eq hs rfl rfl

@[simp] theorem execAptList_canon (x : ACmd) (s : State) (hs : Canon s) : NextP (fun t => Canon t) (execAptList x s) := by
  unfold execAptList
  repeat' split
  all_goals simp (maxDischargeDepth := 60) +contextual [*]

@[simp] theorem portApt_canon (b : List Byte) (p : Nat) (s : State) (hs : Canon s) : Canon (portApt b p s).st := by
  simp only [portApt]
  repeat' split
  all_goals simp (maxDischargeDepth := 60) +contextual [*]

@[simp] theorem execPortApt_canon (x : ACmd) (s : State) (hs : Canon s) : NextP (fun t => Canon t) (execPortApt x s) := by
  unfold execPortApt
  repeat' split
  all_goals simp (maxDischargeDepth := 60) +contextual [*]

@[simp] theorem frameSet_canon (b : List Byte) (s : State) (hs : Canon s) : Canon (frameSet b s).st := by
  simp only [frameSet]
  repeat' split
  all_goals simp (maxDischargeDepth := 60) +contextual [*]

@[simp] theorem execFrameSet_canon (x : ACmd) (s : State) (hs : Canon s) : NextP (fun t => Canon t) (execFrameSet x s) := by
  unfold execFrameSet
  repeat' split
  all_goals simp (maxDischargeDepth := 60) +contextual [*]

@[simp] theorem timeGet_canon (_b : List Byte) (s : State) (hs : Canon s) : Canon (timeGet _b s).st := by
  exact Canon.of_eq hs rfl rfl

@[simp] theorem execTimeGet_canon (x : ACmd) (s : State) (hs : Canon s) : NextP (fun t => Canon t) (execTimeGet x s) := by
  unfold execTimeGet
  repeat' split
  all_goals simp (maxDischargeDepth := 60) +contextual [*]

@[simp] theorem timeTrim_canon (b : List Byte) (s : State) (hs : Canon s) : Canon (timeTrim b s).st := by
  simp only [timeTrim]
  repeat' split
  all_goals simp (maxDischargeDepth := 60) +contextual [*]

@[simp] theorem execTimeTrim_canon (x : ACmd) (s : State) (hs : Canon s) : NextP (fun t => Canon t) (execTimeTrim x s) := by
  unfold execTimeTrim
  repeat' split
  all_goals simp (maxDischargeDepth := 60) +contextual [*]

@[simp] theorem calRegs_canon (a : Nat) (b : List Byte) (s : State) (hs : Canon s) : Canon (calRegs a b s) := by
  simp (maxDischargeDepth := 60) +contextual [calRegs, *]

@[simp] theorem timeStep_canon (tag : BitVec 16) (b : List Byte) (s : State) (hs : Canon s) : Canon (timeStep tag b s).st := by
  unfold timeStep
  repeat' split
  all_goals simp (maxDischargeDepth := 60) +contextual [*]

@[simp] theorem execTimeStep_canon (x : ACmd) (s : State) (hs : Canon s) : NextP (fun t => Canon t) (execTimeStep x s) := by
  unfold execTimeStep
  repeat' split
  all_goals simp (maxDischargeDepth := 60) +contextual [*]

@[simp] theorem timeAlarm_canon (b : List Byte) (s : State) (hs : Canon s) : Canon (timeAlarm b s).st := by
  unfold timeAlarm
  split <;> simp (maxDischargeDepth := 60) +contextual [*]

@[simp] theorem execTimeAlarm_canon (x : ACmd) (s : State) (hs : Canon s) : NextP (fun t => Canon t) (execTimeAlarm x s) := by
  unfold execTimeAlarm
  repeat' split
  all_goals simp (maxDischargeDepth := 60) +contextual [*]

@[simp] theorem lcConfig_canon (b : List Byte) (s : State) (hs : Canon s) : Canon (lcConfig b s).st := by
  simp only [lcConfig]
  repeat' split
  all_goals simp (maxDischargeDepth := 60) +contextual [*]

@[simp] theorem execLcConfig_canon (x : ACmd) (s : State) (hs : Canon s) : NextP (fun t => Canon t) (execLcConfig x s) := by
  unfold execLcConfig
  repeat' split
  all_goals simp (maxDischargeDepth := 60) +contextual [*]

@[simp] theorem lcProfileSet_canon (c : Nat) (e : List Byte) (s : State) (hs : Canon s) : Canon (lcProfileSet c e s) := by
  unfold lcProfileSet
  repeat' split
  all_goals simp (maxDischargeDepth := 60) +contextual [*]

theorem profileEntry_canon (x : ACmd) (b : List Byte) (s : State) (hs : Canon s) : ∀ a, profileEntry x b s = .inl a → Canon a.st := by
  intro a h
  unfold profileEntry at h
  repeat' split at h
  all_goals first | (cases h; done) | (cases h; simp (maxDischargeDepth := 60) +contextual [*])

@[simp] theorem lcProfileCmd_canon (x : ACmd) (b : List Byte) (s : State) (hs : Canon s) : Canon (lcProfileCmd x b s).st := by
  unfold lcProfileCmd
  dsimp only
  split
  · simp (maxDischargeDepth := 60) +contextual [*]
  · split
    · rename_i g; exact profileEntry_canon _ _ _ (by simp (maxDischargeDepth := 60) +contextual [*]) _ g
    · split
      · simp (maxDischargeDepth := 60) +contextual [*]
      · split <;> simp (maxDischargeDepth := 60) +contextual [*]

@[simp] theorem execLcProfile_canon (x : ACmd) (s : State) (hs : Canon s) : NextP (fun t => Canon t) (execLcProfile x s) := by
  unfold execLcProfile
  repeat' split
  all_goals simp (maxDischargeDepth := 60) +contextual [*]

@[simp] theorem lcAttach_canon (b : List Byte) (s : State) (hs : Canon s) : Canon (lcAttach b s).st := by
  simp only [lcAttach]
  repeat' split
  all_goals simp (maxDischargeDepth := 60) +contextual [*]

@[simp] theorem execLcAttach_canon (x : ACmd) (s : State) (hs : Canon s) : NextP (fun t => Canon t) (execLcAttach x s) := by
  unfold execLcAttach
  repeat' split
  all_goals simp (maxDischargeDepth := 60) +contextual [*]

@[simp] theorem lcDetach_canon (b : List Byte) (s : State) (hs : Canon s) : Canon (lcDetach b s).st := by
  simp only [lcDetach]
  repeat' split
  all_goals simp (maxDischargeDepth := 60) +contextual [*]

@[simp] theorem execLcDetach_canon (x : ACmd) (s : State) (hs : Canon s) : NextP (fun t => Canon t) (execLcDetach x s) := by
  unfold execLcDetach
  repeat' split
  all_goals simp (maxDischargeDepth := 60) +contextual [*]

@[simp] theorem lcCommand_canon (b : List Byte) (s : State) (hs : Canon s) : Canon (lcCommand b s).st := by
  simp only [lcCommand]
  repeat' split
  all_goals simp (maxDischargeDepth := 60) +contextual [*]

@[simp] theorem execLcCommand_canon (x : ACmd) (s : State) (hs : Canon s) : NextP (fun t => Canon t) (execLcCommand x s) := by
  unfold execLcCommand
  repeat' split
  all_goals simp (maxDischargeDepth := 60) +contextual [*]

@[simp] theorem jnlEntry_canon (b : List Byte) (s : State) (hs : Canon s) : Canon (jnlEntry b s).st := by
  simp only [jnlEntry]
  repeat' split
  all_goals simp (maxDischargeDepth := 60) +contextual [*]

@[simp] theorem execJnlEntry_canon (x : ACmd) (s : State) (hs : Canon s) : NextP (fun t => Canon t) (execJnlEntry x s) := by
  unfold execJnlEntry
  repeat' split
  all_goals simp (maxDischargeDepth := 60) +contextual [*]

@[simp] theorem jnlControl_canon (tag : BitVec 16) (b : List Byte) (s : State) (hs : Canon s) : Canon (jnlControl tag b s).st := by
  simp only [jnlControl]
  repeat' split
  all_goals simp (maxDischargeDepth := 60) +contextual [*]

@[simp] theorem execJnlControl_canon (x : ACmd) (s : State) (hs : Canon s) : NextP (fun t => Canon t) (execJnlControl x s) := by
  unfold execJnlControl
  repeat' split
  all_goals simp (maxDischargeDepth := 60) +contextual [*]

@[simp] theorem execJnlClose_canon (x : ACmd) (s : State) (hs : Canon s) : NextP (fun t => Canon t) (execJnlClose x s) := by
  unfold execJnlClose
  repeat' split
  all_goals simp (maxDischargeDepth := 60) +contextual [*]

@[simp] theorem jnlRead_canon (b : List Byte) (s : State) (hs : Canon s) : Canon (jnlRead b s).st := by
  simp only [jnlRead]
  repeat' split
  all_goals simp (maxDischargeDepth := 60) +contextual [*]

@[simp] theorem execJnlRead_canon (x : ACmd) (s : State) (hs : Canon s) : NextP (fun t => Canon t) (execJnlRead x s) := by
  unfold execJnlRead
  repeat' split
  all_goals simp (maxDischargeDepth := 60) +contextual [*]

@[simp] theorem jnlArchive_canon (b : List Byte) (s : State) (hs : Canon s) : Canon (jnlArchive b s).st := by
  simp only [jnlArchive]
  repeat' split
  all_goals simp (maxDischargeDepth := 60) +contextual [*]

@[simp] theorem execJnlArchive_canon (x : ACmd) (s : State) (hs : Canon s) : NextP (fun t => Canon t) (execJnlArchive x s) := by
  unfold execJnlArchive
  repeat' split
  all_goals simp (maxDischargeDepth := 60) +contextual [*]

@[simp] theorem jnlStatus_canon (_b : List Byte) (s : State) (hs : Canon s) : Canon (jnlStatus _b s).st := by
  exact Canon.of_eq hs rfl rfl

@[simp] theorem execJnlStatus_canon (x : ACmd) (s : State) (hs : Canon s) : NextP (fun t => Canon t) (execJnlStatus x s) := by
  unfold execJnlStatus
  repeat' split
  all_goals simp (maxDischargeDepth := 60) +contextual [*]

@[simp] theorem codeAns_canon (r : CodeRes) (s : State) (hs : Canon s) : Canon (codeAns r s).st := by
  unfold codeAns
  split <;> simp (maxDischargeDepth := 60) +contextual [*]

@[simp] theorem codeWrite_canon (x : ACmd) (b : List Byte) (s : State) (hs : Canon s) : Canon (codeWrite x b s).st := by
  simp only [codeWrite]
  repeat' split
  all_goals simp (maxDischargeDepth := 60) +contextual [*]

@[simp] theorem execCodeWrite_canon (x : ACmd) (s : State) (hs : Canon s) : NextP (fun t => Canon t) (execCodeWrite x s) := by
  unfold execCodeWrite
  repeat' split
  all_goals simp (maxDischargeDepth := 60) +contextual [*]

@[simp] theorem execCodeCommit_canon (x : ACmd) (s : State) (hs : Canon s) : NextP (fun t => Canon t) (execCodeCommit x s) := by
  unfold execCodeCommit
  repeat' split
  all_goals simp (maxDischargeDepth := 60) +contextual [*]

@[simp] theorem keyInstall_canon (x : ACmd) (b : List Byte) (s : State) (hs : Canon s) : Canon (keyInstall x b s).st := by
  simp only [keyInstall]
  repeat' split
  all_goals simp (maxDischargeDepth := 60) +contextual [*]

@[simp] theorem execKeyInstall_canon (x : ACmd) (s : State) (hs : Canon s) : NextP (fun t => Canon t) (execKeyInstall x s) := by
  unfold execKeyInstall
  repeat' split
  all_goals simp (maxDischargeDepth := 60) +contextual [*]

@[simp] theorem castle_canon (b : List Byte) (s : State) (hs : Canon s) : Canon (castle b s).st := by
  unfold castle
  dsimp only
  split
  · simp (maxDischargeDepth := 60) +contextual [*]
  · split
    · simp (maxDischargeDepth := 60) +contextual [*]
    · rename_i g
      have := castServe_canon _ _ _ _ (by simp (maxDischargeDepth := 60) +contextual [*]) _ g
      split_ifs <;> simp (maxDischargeDepth := 60) +contextual [*, this]

@[simp] theorem execCastle_canon (x : ACmd) (s : State) (hs : Canon s) : NextP (fun t => Canon t) (execCastle x s) := by
  unfold execCastle
  repeat' split
  all_goals simp (maxDischargeDepth := 60) +contextual [*]

@[simp] theorem faultRead_canon (b : List Byte) (s : State) (hs : Canon s) : Canon (faultRead b s).st := by
  unfold faultRead
  split <;> simp (maxDischargeDepth := 60) +contextual [*]

@[simp] theorem execFaultRead_canon (x : ACmd) (s : State) (hs : Canon s) : NextP (fun t => Canon t) (execFaultRead x s) := by
  unfold execFaultRead
  repeat' split
  all_goals simp (maxDischargeDepth := 60) +contextual [*]

@[simp] theorem powerCmd_canon (k : Nat) (f : Nat → State → Adm) (b : List Byte) (s : State) (hf : ∀ y0 y1, Canon y1 → Canon (f y0 y1).st) (hs : Canon s) : Canon (powerCmd k f b s).st := by
  unfold powerCmd
  split <;> simp (maxDischargeDepth := 60) +contextual [*]

@[simp] theorem powerDark_canon (n : Nat) (s : State) (hs : Canon s) : Canon (powerDark n s).st := by
  unfold powerDark
  split <;> simp (maxDischargeDepth := 60) +contextual [*]

@[simp] theorem execPowerDark_canon (x : ACmd) (s : State) (hs : Canon s) : NextP (fun t => Canon t) (execPowerDark x s) := by
  unfold execPowerDark
  repeat' split
  all_goals simp (maxDischargeDepth := 60) +contextual [*]

@[simp] theorem powerWake_canon (n : Nat) (s : State) (hs : Canon s) : Canon (powerWake n s).st := by
  unfold powerWake
  split <;> simp (maxDischargeDepth := 60) +contextual [*]

@[simp] theorem execPowerWake_canon (x : ACmd) (s : State) (hs : Canon s) : NextP (fun t => Canon t) (execPowerWake x s) := by
  unfold execPowerWake
  repeat' split
  all_goals simp (maxDischargeDepth := 60) +contextual [*]

@[simp] theorem lowPowerCmd_canon (k : Nat) (x : ACmd) (s : State) (hs : Canon s) : NextP (fun t => Canon t) (lowPowerCmd k x s) := by
  unfold lowPowerCmd
  simp only [nextP_done]
  repeat' split
  all_goals simp (maxDischargeDepth := 60) +contextual [*]

@[simp] theorem execPowerStandby_canon (x : ACmd) (s : State) (hs : Canon s) : NextP (fun t => Canon t) (execPowerStandby x s) := by
  simp (maxDischargeDepth := 60) +contextual [execPowerStandby, *]

@[simp] theorem execPowerDeep_canon (x : ACmd) (s : State) (hs : Canon s) : NextP (fun t => Canon t) (execPowerDeep x s) := by
  simp (maxDischargeDepth := 60) +contextual [execPowerDeep, *]

@[simp] theorem regReadCmd_canon (b : List Byte) (s : State) (hs : Canon s) : Canon (regReadCmd b s).st := by
  simp only [regReadCmd]
  repeat' split
  all_goals simp (maxDischargeDepth := 60) +contextual [*]

@[simp] theorem execRegRead_canon (x : ACmd) (s : State) (hs : Canon s) : NextP (fun t => Canon t) (execRegRead x s) := by
  unfold execRegRead
  repeat' split
  all_goals simp (maxDischargeDepth := 60) +contextual [*]

@[simp] theorem confTake_canon (e : Nat × List Byte) (s : State) (hs : Canon s) : Canon (confTake e s) := by
  unfold confTake
  dsimp only
  repeat' split
  all_goals simp (maxDischargeDepth := 60) +contextual [*]

@[simp] theorem dropBlocks_canon (s : State) (hs : Canon s) : Canon (dropBlocks s) := by
  simp (maxDischargeDepth := 60) +contextual [dropBlocks, *]

@[simp] theorem takeVfs_canon (en : Nat) (num : Nat) (s : State) (hs : Canon s) : Canon (takeVfs en num s) := by
  simp (maxDischargeDepth := 60) +contextual [takeVfs, *]

@[simp] theorem admitNow_canon (a : Nat) (s : State) (hs : Canon s) : Canon (admitNow a s) := by
  unfold admitNow
  repeat' split
  all_goals simp (maxDischargeDepth := 60) +contextual [*]

@[simp] theorem execAdmissionTick_canon (s : State) (hs : Canon s) : NextP (fun t => Canon t) (execAdmissionTick s) := by
  unfold execAdmissionTick
  split <;> simp (maxDischargeDepth := 60) +contextual [*]

@[simp] theorem takeMmio_canon (b : List Byte) (s : State) (hs : Canon s) : Canon (takeMmio b s) := by
  simp only [takeMmio]
  repeat' split
  all_goals simp (maxDischargeDepth := 60) +contextual [*]

@[simp] theorem execMmio_canon (f : Frame) (s : State) (hs : Canon s) : NextP (fun t => Canon t) (execMmio f s) := by
  unfold execMmio
  repeat' split
  all_goals simp (maxDischargeDepth := 60) +contextual [*]

@[simp] theorem takeHostDma_canon (b : List Byte) (s : State) (hs : Canon s) : Canon (takeHostDma b s) := by
  unfold takeHostDma
  repeat' split
  all_goals simp (maxDischargeDepth := 60) +contextual [*]

@[simp] theorem execHostdma_canon (f : Frame) (s : State) (hs : Canon s) : NextP (fun t => Canon t) (execHostdma f s) := by
  unfold execHostdma
  repeat' split
  all_goals simp (maxDischargeDepth := 60) +contextual [*]

@[simp] theorem farBind_canon (b : List Byte) (s : State) (hs : Canon s) : Canon (farBind b s) := by
  simp (maxDischargeDepth := 60) +contextual [farBind, *]

@[simp] theorem farReported_canon (b : List Byte) (s : State) (hs : Canon s) : Canon (farReported b s) := by
  exact Canon.of_eq hs rfl rfl

@[simp] theorem takeQueue_canon (b : List Byte) (s : State) (hs : Canon s) : Canon (takeQueue b s) := by
  simp (maxDischargeDepth := 60) +contextual [takeQueue, *]

@[simp] theorem execQueue_canon (f : Frame) (s : State) (hs : Canon s) : NextP (fun t => Canon t) (execQueue f s) := by
  unfold execQueue
  repeat' split
  all_goals simp (maxDischargeDepth := 60) +contextual [*]

@[simp] theorem confKeep_canon (ok : Bool) (s : State) (hs : Canon s) : Canon (confKeep ok s) := by
  unfold confKeep
  split <;> simp (maxDischargeDepth := 60) +contextual [*]

@[simp] theorem takeAdmin_canon (b : List Byte) (s : State) (hs : Canon s) : Canon (takeAdmin b s) := by
  simp (maxDischargeDepth := 60) +contextual [takeAdmin, *]

@[simp] theorem execDrnAdmin_canon (f : Frame) (s : State) (hs : Canon s) : NextP (fun t => Canon t) (execDrnAdmin f s) := by
  unfold execDrnAdmin
  repeat' split
  all_goals simp (maxDischargeDepth := 60) +contextual [*]

@[simp] theorem newFrame_canon (s : State) (hs : Canon s) : Canon (newFrame s) := by
  unfold newFrame
  repeat' split
  all_goals simp (maxDischargeDepth := 60) +contextual [*]

@[simp] theorem activate_canon (p : Nat) (s : State) (hs : Canon s) : Canon (activate p s) := by
  simp (maxDischargeDepth := 60) +contextual [activate, *]

@[simp] theorem countFrame_canon (f : Nat) (t : Nat) (s : State) (hs : Canon s) : Canon (countFrame f t s) := by
  simp (maxDischargeDepth := 60) +contextual [countFrame, *]

@[simp] theorem clearMark_canon (t : Nat) (s : State) (hs : Canon s) : Canon (clearMark t s) := by
  simp (maxDischargeDepth := 60) +contextual [clearMark, *]

@[simp] theorem countCluster_canon (turns n : Nat) (s : State) (hs : Canon s) : Canon (countCluster turns n s) := by
  simp only [countCluster]
  repeat' split
  all_goals simp (maxDischargeDepth := 60) +contextual [*]

@[simp] theorem enterPort_canon (o : OutMsg) (s : State) (hs : Canon s) : Canon (enterPort o s) := by
  unfold enterPort
  repeat' split
  all_goals simp (maxDischargeDepth := 60) +contextual [*]

@[simp] theorem startTimers_canon (t : Nat) (s : State) (hs : Canon s) : Canon (startTimers t s) := by
  unfold startTimers
  repeat' split
  all_goals simp (maxDischargeDepth := 60) +contextual [*]

@[simp] theorem releaseChans_canon (t : Nat) (s : State) (hs : Canon s) : Canon (releaseChans t s) := by
  exact Canon.of_eq hs rfl rfl

@[simp] theorem sendAway_canon (o : OutMsg) (s : State) (hs : Canon s) : Canon (sendAway o s) := by
  simp (maxDischargeDepth := 60) +contextual [sendAway, *]

@[simp] theorem release_canon (t : Nat) (s : State) (hs : Canon s) : Canon (release t s).2 := by
  unfold release
  repeat' split
  all_goals simp (maxDischargeDepth := 60) +contextual [*]

@[simp] theorem releaseAll_canon (ts : List Nat) (s : State) (hs : Canon s) : Canon (releaseAll ts s).2 := by
  induction ts generalizing s with
  | nil => exact hs
  | cons t ts ih => simp (maxDischargeDepth := 60) +contextual [*, releaseAll, ih]

@[simp] theorem writeInbox_canon (t : Nat) (sls : List Slot) (bells : Word) (s : State) (hs : Canon s) : Canon (writeInbox t sls bells s) := by
  simp (maxDischargeDepth := 60) +contextual [writeInbox, *]

@[simp] theorem reapplyAll_canon (t : Nat) (s : State) (hs : Canon s) : Canon (reapplyAll t s) := by
  unfold reapplyAll
  repeat' split
  all_goals simp (maxDischargeDepth := 60) +contextual [*]

@[simp] theorem handTenant_canon (t : Nat) (late : Bool) (items : List HItem) (s : State) (hs : Canon s) : Canon (handTenant t late items s) := by
  unfold handTenant
  repeat' split
  all_goals simp (maxDischargeDepth := 60) +contextual [*]

@[simp] theorem delay_canon (c : Cross) (s : State) (hs : Canon s) : Canon (delay c s) := by
  unfold delay
  repeat' split
  all_goals simp (maxDischargeDepth := 60) +contextual [*]

@[simp] theorem sendCross_canon (cs : List Cross) (u : Used) (s : State) (hs : Canon s) : Canon (sendCross cs u s) := by
  induction cs generalizing u s with
  | nil => exact hs
  | cons c cs ih =>
    unfold sendCross
    dsimp only
    split
    · split <;> simp (maxDischargeDepth := 60) +contextual [*, ih]
    · simp (maxDischargeDepth := 60) +contextual [*, ih]

@[simp] theorem sendEntry_canon (t : Nat) (h : HItem) (s : State) (hs : Canon s) : Canon (sendEntry t h s) := by
  unfold sendEntry
  split <;> simp (maxDischargeDepth := 60) +contextual [*]

@[simp] theorem farEnter_canon (s : State) (hs : Canon s) : Canon (farEnter s) := by
  unfold farEnter
  dsimp only
  exact each_canon _ _ (fun c s hs => by split <;> simp (maxDischargeDepth := 60) +contextual [*]) _ (by simp (maxDischargeDepth := 60) +contextual [*])

@[simp] theorem queueOutput_canon (b : List Byte) (s : State) (hs : Canon s) : Canon (queueOutput b s) := by
  simp (maxDischargeDepth := 60) +contextual [queueOutput, *]

@[simp] theorem swapImage_canon (j : Nat) (s : State) (hs : Canon s) : Canon (swapImage j s) := by
  unfold swapImage
  repeat' split
  all_goals simp (maxDischargeDepth := 60) +contextual [*]

@[simp] theorem tickCluster_canon (n : Nat) (s : State) (hs : Canon s) : Canon (tickCluster n s) := by
  simp (maxDischargeDepth := 60) +contextual [tickCluster, *]

@[simp] theorem frameTick_canon (s : State) (hs : Canon s) : Canon (frameTick s) := by
  have hf : ∀ (c : Crossing) (s : State), Canon s → Canon (each (crossItem c) (fun q => freeCopied q.2) s) :=
    fun c s hs => each_canon _ _ (fun q s hs => freeCopied_canon _ _ hs) _ hs
  unfold frameTick
  dsimp only
  simp (maxDischargeDepth := 60) +contextual [hf, *]

@[simp] theorem execFrameTick_canon (s : State) (hs : Canon s) : NextP (fun t => Canon t) (execFrameTick s) := by
  simp (maxDischargeDepth := 60) +contextual [execFrameTick, *]

@[simp] theorem startIssue_canon (i : Issue) (k : Nat) (long : Option Ctx) (s : State) (hs : Canon s) : Canon (startIssue i k long s) := by
  simp only [startIssue]
  repeat' split
  all_goals simp (maxDischargeDepth := 60) +contextual [*]

@[simp] theorem setCtx_canon (k : Nat) (c : Ctx) (s : State) (hs : Canon s) : Canon (setCtx k c s) := by
  exact Canon.of_eq hs rfl rfl

@[simp] theorem touchLine_canon (c : CoreId) (pc : Word) (s : State) (hs : Canon s) : Canon (touchLine c pc s) := by
  simp only [touchLine]
  repeat' split
  all_goals simp (maxDischargeDepth := 60) +contextual [*]

@[simp] theorem btbResolve_canon (c : CoreId) (k : Nat) (pc : Word) (target : Option Word) (s : State) (hs : Canon s) : Canon (btbResolve c k pc target s) := by
  simp (maxDischargeDepth := 60) +contextual [btbResolve, *]

@[simp] theorem notePrev_canon (c : CoreId) (k : Nat) (w : Word) (s : State) (hs : Canon s) : Canon (notePrev c k w s) := by
  simp (maxDischargeDepth := 60) +contextual [notePrev, *]

@[simp] theorem coreFail_canon (c : CoreId) (cause : Nat) (s : State) (hs : Canon s) : Canon (coreFail c cause s) := by
  unfold coreFail
  split <;> simp (maxDischargeDepth := 60) +contextual [*]

@[simp] theorem reportEcc_canon (c : CoreId) (cause : Nat) (bad : Word) (s : State) (hs : Canon s) : Canon (reportEcc c cause bad s) := by
  simp (maxDischargeDepth := 60) +contextual [reportEcc, *]

@[simp] theorem trapIn_canon (i : Issue) (x : Isi) (cause : Nat) (detail : Nat) (bad : Word) (s : State) (hs : Canon s) : Canon (trapIn i x cause detail bad s) := by
  simp (maxDischargeDepth := 60) +contextual [trapIn, *]

@[simp] theorem fetchFail_canon (i : Issue) (x : Isi) (cause : Nat) (bad : Word) (s : State) (hs : Canon s) : Canon (fetchFail i x cause bad s) := by
  simp (maxDischargeDepth := 60) +contextual [fetchFail, *]

@[simp] theorem fetched_canon (i : Issue) (x : Isi) (s : State) (hs : Canon s) : Canon (fetched i x s) := by
  simp (maxDischargeDepth := 60) +contextual [fetched, *]

/-- What an instruction's effect does beside its core's context keeps the canonical form. -/
def Result.okCanon : Result → Prop
  | .fin _ post => ∀ s, Canon s → Canon (post s)
  | .store _ pre post => (∀ s, Canon s → Canon (pre s)) ∧ ∀ s, Canon s → Canon (post s)
  | .trap _ _ _ pre => ∀ s, Canon s → Canon (pre s)
  | .jump _ _ | .place _ _ _ _ | .held => True

@[simp] theorem okCanon_fin (c : Ctx) (f : State → State) : (Result.fin c f).okCanon = ∀ s, Canon s → Canon (f s) := (rfl)
@[simp] theorem okCanon_store (c : Ctx) (f g : State → State) :
    (Result.store c f g).okCanon = ((∀ s, Canon s → Canon (f s)) ∧ ∀ s, Canon s → Canon (g s)) := (rfl)
@[simp] theorem okCanon_trap (a b : Nat) (w : Word) (f : State → State) :
    (Result.trap a b w f).okCanon = ∀ s, Canon s → Canon (f s) := (rfl)
@[simp] theorem okCanon_jump (c : Ctx) (t : Word) : (Result.jump c t).okCanon = True := (rfl)
@[simp] theorem okCanon_place (r : Bool) (c : Ctx) (p q : Word) : (Result.place r c p q).okCanon = True := (rfl)
@[simp] theorem okCanon_held : Result.held.okCanon = True := (rfl)

@[simp] theorem finish_canon (i : Issue) (x : Isi) (r : Result) (hr : r.okCanon) (s : State) (hs : Canon s) :
    Canon (finish i x r s) := by
  cases r <;> (try simp only [okCanon_fin, okCanon_store, okCanon_trap] at hr) <;> simp only [finish] <;> repeat' split
  all_goals simp (maxDischargeDepth := 60) +contextual [*]

@[simp] theorem skip_canon (i : Issue) (x : Isi) (s : State) (hs : Canon s) : Canon (skip i x s) := by
  simp (maxDischargeDepth := 60) +contextual [skip, *]

@[simp] theorem unpark_canon (k : CoreId) (s : State) (hs : Canon s) : Canon (unpark k s) := by
  unfold unpark
  split <;> simp (maxDischargeDepth := 60) +contextual [*]

@[simp] theorem iterEnd_canon (i : Issue) (s : State) (hs : Canon s) : Canon (iterEnd i s) := by
  simp (maxDischargeDepth := 60) +contextual [iterEnd, *]

@[simp] theorem iterate_canon (i : Issue) (x : Isi) (u : RepUnit) (r : Result) (hr : r.okCanon) (s : State) (hs : Canon s) :
    Canon (iterate i x u r s) := by
  cases r <;> (try simp only [okCanon_fin, okCanon_store, okCanon_trap] at hr) <;> simp only [iterate] <;> repeat' split
  all_goals simp (maxDischargeDepth := 60) +contextual [*]

@[simp] theorem issue_canon (i : Issue) (x : Isi) (run : Ctx → State → Result) (hr : ∀ c s, (run c s).okCanon) (s : State) (hs : Canon s) :
    NextP (fun t => Canon t) (issue i x run s) := by
  unfold issue
  simp only [nextP_done]
  repeat' split
  all_goals simp (maxDischargeDepth := 60) +contextual [*]

@[simp] theorem coreRow_canon (i : Issue) (x : Isi) (f : Ctx → Ctx) (s : State) (hs : Canon s) : NextP (fun t => Canon t) (coreRow i x f s) := by
  simp (maxDischargeDepth := 60) +contextual [coreRow, *]

@[simp] theorem rRow_canon (i : Issue) (fn : RFn) (sf : Bool) (rd : Reg) (ra : Reg) (rb : Reg) (f : Bool → Word → Word → Alu) (s : State) (hs : Canon s) : NextP (fun t => Canon t) (rRow i fn sf rd ra rb f s) := by
  simp (maxDischargeDepth := 60) +contextual [rRow, *]

@[simp] theorem iRow_canon (i : Issue) (fn : IFn) (sf : Bool) (rd : Reg) (ra : Reg) (imm : BitVec 11) (f : Word → Alu) (s : State) (hs : Canon s) : NextP (fun t => Canon t) (iRow i fn sf rd ra imm f s) := by
  simp (maxDischargeDepth := 60) +contextual [iRow, *]

@[simp] theorem execAdd_canon (i : Issue) (sf : Bool) (rd : Reg) (ra : Reg) (rb : Reg) (s : State) (hs : Canon s) : NextP (fun t => Canon t) (execAdd i sf rd ra rb s) := by
  simp (maxDischargeDepth := 60) +contextual [execAdd, *]

@[simp] theorem execAdc_canon (i : Issue) (sf : Bool) (rd : Reg) (ra : Reg) (rb : Reg) (s : State) (hs : Canon s) : NextP (fun t => Canon t) (execAdc i sf rd ra rb s) := by
  simp (maxDischargeDepth := 60) +contextual [execAdc, *]

@[simp] theorem execSub_canon (i : Issue) (sf : Bool) (rd : Reg) (ra : Reg) (rb : Reg) (s : State) (hs : Canon s) : NextP (fun t => Canon t) (execSub i sf rd ra rb s) := by
  simp (maxDischargeDepth := 60) +contextual [execSub, *]

@[simp] theorem execSbc_canon (i : Issue) (sf : Bool) (rd : Reg) (ra : Reg) (rb : Reg) (s : State) (hs : Canon s) : NextP (fun t => Canon t) (execSbc i sf rd ra rb s) := by
  simp (maxDischargeDepth := 60) +contextual [execSbc, *]

@[simp] theorem execAndR_canon (i : Issue) (sf : Bool) (rd : Reg) (ra : Reg) (rb : Reg) (s : State) (hs : Canon s) : NextP (fun t => Canon t) (execAndR i sf rd ra rb s) := by
  simp (maxDischargeDepth := 60) +contextual [execAndR, *]

@[simp] theorem execOrR_canon (i : Issue) (sf : Bool) (rd : Reg) (ra : Reg) (rb : Reg) (s : State) (hs : Canon s) : NextP (fun t => Canon t) (execOrR i sf rd ra rb s) := by
  simp (maxDischargeDepth := 60) +contextual [execOrR, *]

@[simp] theorem execXorR_canon (i : Issue) (sf : Bool) (rd : Reg) (ra : Reg) (rb : Reg) (s : State) (hs : Canon s) : NextP (fun t => Canon t) (execXorR i sf rd ra rb s) := by
  simp (maxDischargeDepth := 60) +contextual [execXorR, *]

@[simp] theorem execAndn_canon (i : Issue) (sf : Bool) (rd : Reg) (ra : Reg) (rb : Reg) (s : State) (hs : Canon s) : NextP (fun t => Canon t) (execAndn i sf rd ra rb s) := by
  simp (maxDischargeDepth := 60) +contextual [execAndn, *]

@[simp] theorem execLsl_canon (i : Issue) (sf : Bool) (rd : Reg) (ra : Reg) (rb : Reg) (s : State) (hs : Canon s) : NextP (fun t => Canon t) (execLsl i sf rd ra rb s) := by
  simp (maxDischargeDepth := 60) +contextual [execLsl, *]

@[simp] theorem execLsr_canon (i : Issue) (sf : Bool) (rd : Reg) (ra : Reg) (rb : Reg) (s : State) (hs : Canon s) : NextP (fun t => Canon t) (execLsr i sf rd ra rb s) := by
  simp (maxDischargeDepth := 60) +contextual [execLsr, *]

@[simp] theorem execAsr_canon (i : Issue) (sf : Bool) (rd : Reg) (ra : Reg) (rb : Reg) (s : State) (hs : Canon s) : NextP (fun t => Canon t) (execAsr i sf rd ra rb s) := by
  simp (maxDischargeDepth := 60) +contextual [execAsr, *]

@[simp] theorem execRor_canon (i : Issue) (sf : Bool) (rd : Reg) (ra : Reg) (rb : Reg) (s : State) (hs : Canon s) : NextP (fun t => Canon t) (execRor i sf rd ra rb s) := by
  simp (maxDischargeDepth := 60) +contextual [execRor, *]

@[simp] theorem execMul_canon (i : Issue) (sf : Bool) (rd : Reg) (ra : Reg) (rb : Reg) (s : State) (hs : Canon s) : NextP (fun t => Canon t) (execMul i sf rd ra rb s) := by
  simp (maxDischargeDepth := 60) +contextual [execMul, *]

@[simp] theorem execMov_canon (i : Issue) (sf : Bool) (rd : Reg) (rb : Reg) (s : State) (hs : Canon s) : NextP (fun t => Canon t) (execMov i sf rd rb s) := by
  simp (maxDischargeDepth := 60) +contextual [execMov, *]

@[simp] theorem execMvn_canon (i : Issue) (sf : Bool) (rd : Reg) (rb : Reg) (s : State) (hs : Canon s) : NextP (fun t => Canon t) (execMvn i sf rd rb s) := by
  simp (maxDischargeDepth := 60) +contextual [execMvn, *]

@[simp] theorem execNeg_canon (i : Issue) (sf : Bool) (rd : Reg) (rb : Reg) (s : State) (hs : Canon s) : NextP (fun t => Canon t) (execNeg i sf rd rb s) := by
  simp (maxDischargeDepth := 60) +contextual [execNeg, *]

@[simp] theorem execCmp_canon (i : Issue) (ra : Reg) (rb : Reg) (s : State) (hs : Canon s) : NextP (fun t => Canon t) (execCmp i ra rb s) := by
  simp (maxDischargeDepth := 60) +contextual [execCmp, *]

@[simp] theorem execTst_canon (i : Issue) (ra : Reg) (rb : Reg) (s : State) (hs : Canon s) : NextP (fun t => Canon t) (execTst i ra rb s) := by
  simp (maxDischargeDepth := 60) +contextual [execTst, *]

@[simp] theorem execMull_canon (i : Issue) (sf : Bool) (rd : Reg) (ra : Reg) (rb : Reg) (s : State) (hs : Canon s) : NextP (fun t => Canon t) (execMull i sf rd ra rb s) := by
  simp (maxDischargeDepth := 60) +contextual [execMull, *]

@[simp] theorem execMullu_canon (i : Issue) (sf : Bool) (rd : Reg) (ra : Reg) (rb : Reg) (s : State) (hs : Canon s) : NextP (fun t => Canon t) (execMullu i sf rd ra rb s) := by
  simp (maxDischargeDepth := 60) +contextual [execMullu, *]

@[simp] theorem divRow_canon (i : Issue) (x : Isi) (rb : Reg) (f : Ctx → Ctx) (s : State) (hs : Canon s) : NextP (fun t => Canon t) (divRow i x rb f s) := by
  unfold divRow
  (refine issue_canon _ _ _ (fun c s => ?_) _ hs; (try dsimp only); (repeat' split); all_goals simp (maxDischargeDepth := 60) +contextual [*])

@[simp] theorem execDiv_canon (i : Issue) (sf : Bool) (rd : Reg) (ra : Reg) (rb : Reg) (s : State) (hs : Canon s) : NextP (fun t => Canon t) (execDiv i sf rd ra rb s) := by
  simp (maxDischargeDepth := 60) +contextual [execDiv, *]

@[simp] theorem execDivu_canon (i : Issue) (sf : Bool) (rd : Reg) (ra : Reg) (rb : Reg) (s : State) (hs : Canon s) : NextP (fun t => Canon t) (execDivu i sf rd ra rb s) := by
  simp (maxDischargeDepth := 60) +contextual [execDivu, *]

@[simp] theorem execClz_canon (i : Issue) (sf : Bool) (rd : Reg) (ra : Reg) (s : State) (hs : Canon s) : NextP (fun t => Canon t) (execClz i sf rd ra s) := by
  simp (maxDischargeDepth := 60) +contextual [execClz, *]

@[simp] theorem execRev_canon (i : Issue) (sf : Bool) (rd : Reg) (ra : Reg) (s : State) (hs : Canon s) : NextP (fun t => Canon t) (execRev i sf rd ra s) := by
  simp (maxDischargeDepth := 60) +contextual [execRev, *]

@[simp] theorem execSxb_canon (i : Issue) (sf : Bool) (rd : Reg) (ra : Reg) (s : State) (hs : Canon s) : NextP (fun t => Canon t) (execSxb i sf rd ra s) := by
  simp (maxDischargeDepth := 60) +contextual [execSxb, *]

@[simp] theorem execSxh_canon (i : Issue) (sf : Bool) (rd : Reg) (ra : Reg) (s : State) (hs : Canon s) : NextP (fun t => Canon t) (execSxh i sf rd ra s) := by
  simp (maxDischargeDepth := 60) +contextual [execSxh, *]

@[simp] theorem execAddi_canon (i : Issue) (sf : Bool) (rd : Reg) (ra : Reg) (imm : BitVec 11) (s : State) (hs : Canon s) : NextP (fun t => Canon t) (execAddi i sf rd ra imm s) := by
  simp (maxDischargeDepth := 60) +contextual [execAddi, *]

@[simp] theorem execSubi_canon (i : Issue) (sf : Bool) (rd : Reg) (ra : Reg) (imm : BitVec 11) (s : State) (hs : Canon s) : NextP (fun t => Canon t) (execSubi i sf rd ra imm s) := by
  simp (maxDischargeDepth := 60) +contextual [execSubi, *]

@[simp] theorem execAndi_canon (i : Issue) (sf : Bool) (rd : Reg) (ra : Reg) (imm : BitVec 11) (s : State) (hs : Canon s) : NextP (fun t => Canon t) (execAndi i sf rd ra imm s) := by
  simp (maxDischargeDepth := 60) +contextual [execAndi, *]

@[simp] theorem execOri_canon (i : Issue) (sf : Bool) (rd : Reg) (ra : Reg) (imm : BitVec 11) (s : State) (hs : Canon s) : NextP (fun t => Canon t) (execOri i sf rd ra imm s) := by
  simp (maxDischargeDepth := 60) +contextual [execOri, *]

@[simp] theorem execXori_canon (i : Issue) (sf : Bool) (rd : Reg) (ra : Reg) (imm : BitVec 11) (s : State) (hs : Canon s) : NextP (fun t => Canon t) (execXori i sf rd ra imm s) := by
  simp (maxDischargeDepth := 60) +contextual [execXori, *]

@[simp] theorem execLsli_canon (i : Issue) (sf : Bool) (rd : Reg) (ra : Reg) (imm : BitVec 11) (s : State) (hs : Canon s) : NextP (fun t => Canon t) (execLsli i sf rd ra imm s) := by
  simp (maxDischargeDepth := 60) +contextual [execLsli, *]

@[simp] theorem execLsri_canon (i : Issue) (sf : Bool) (rd : Reg) (ra : Reg) (imm : BitVec 11) (s : State) (hs : Canon s) : NextP (fun t => Canon t) (execLsri i sf rd ra imm s) := by
  simp (maxDischargeDepth := 60) +contextual [execLsri, *]

@[simp] theorem execAsri_canon (i : Issue) (sf : Bool) (rd : Reg) (ra : Reg) (imm : BitVec 11) (s : State) (hs : Canon s) : NextP (fun t => Canon t) (execAsri i sf rd ra imm s) := by
  simp (maxDischargeDepth := 60) +contextual [execAsri, *]

@[simp] theorem execRori_canon (i : Issue) (sf : Bool) (rd : Reg) (ra : Reg) (imm : BitVec 11) (s : State) (hs : Canon s) : NextP (fun t => Canon t) (execRori i sf rd ra imm s) := by
  simp (maxDischargeDepth := 60) +contextual [execRori, *]

@[simp] theorem execCmpi_canon (i : Issue) (ra : Reg) (imm : BitVec 11) (s : State) (hs : Canon s) : NextP (fun t => Canon t) (execCmpi i ra imm s) := by
  simp (maxDischargeDepth := 60) +contextual [execCmpi, *]

@[simp] theorem execTsti_canon (i : Issue) (ra : Reg) (imm : BitVec 11) (s : State) (hs : Canon s) : NextP (fun t => Canon t) (execTsti i ra imm s) := by
  simp (maxDischargeDepth := 60) +contextual [execTsti, *]

@[simp] theorem execMovi_canon (i : Issue) (rd : Reg) (imm : BitVec 16) (s : State) (hs : Canon s) : NextP (fun t => Canon t) (execMovi i rd imm s) := by
  simp (maxDischargeDepth := 60) +contextual [execMovi, *]

@[simp] theorem execMovn_canon (i : Issue) (rd : Reg) (imm : BitVec 16) (s : State) (hs : Canon s) : NextP (fun t => Canon t) (execMovn i rd imm s) := by
  simp (maxDischargeDepth := 60) +contextual [execMovn, *]

@[simp] theorem execMovhi_canon (i : Issue) (rd : Reg) (imm : BitVec 16) (s : State) (hs : Canon s) : NextP (fun t => Canon t) (execMovhi i rd imm s) := by
  simp (maxDischargeDepth := 60) +contextual [execMovhi, *]

@[simp] theorem loadFx_canon (k : CoreId) (a : Nat) (s : State) (hs : Canon s) : Canon (loadFx k a s) := by
  simp (maxDischargeDepth := 60) +contextual [loadFx, *]

@[simp] theorem storePart_canon (k : CoreId) (a : Nat) (d : Word) (p : Nat × Nat) (s : State) (hs : Canon s) : Canon (storePart k a d p s) := by
  simp (maxDischargeDepth := 60) +contextual [storePart, *]

@[simp] theorem storeFx_canon (k : CoreId) (a : Nat) (size : Nat) (d : Word) (s : State) (hs : Canon s) : Canon (storeFx k a size d s) := by
  unfold storeFx
  repeat' split
  all_goals simp (maxDischargeDepth := 60) +contextual [*]

@[simp] theorem storeRoom_canon (k : CoreId) (a : Nat) (size : Nat) (s : State) (hs : Canon s) : Canon (storeRoom k a size s) := by
  simp (maxDischargeDepth := 60) +contextual [storeRoom, *]

theorem writeEcc_canon (i : Issue) (s : State) (a size : Nat) (d : Word) : ∀ r, writeEcc i s a size d = some r → r.okCanon := by
  intro r h
  unfold writeEcc at h
  split at h
  · simp only [Option.some.injEq] at h
    subst h
    simp only [okCanon_trap]
    intro s hs
    split <;> simp (maxDischargeDepth := 60) +contextual [*]
  · cases h

@[simp] theorem reading_canon (i : Issue) (s : State) (al : Bool) (a size : Nat) (k : Nat → Result)
    (hk : ∀ n, (k n).okCanon) : (reading i s al a size k).okCanon := by
  unfold reading
  repeat' split
  all_goals simp (maxDischargeDepth := 60) +contextual [*, hk]

@[simp] theorem writing_canon (i : Issue) (s : State) (a size : Nat) (d : Word) (c : Ctx) (fx : State → State)
    (hf : ∀ s, Canon s → Canon (fx s)) : (writing i s a size d c fx).okCanon := by
  unfold writing
  split
  · simp (maxDischargeDepth := 60) +contextual [*]
  · split
    · rename_i g; exact writeEcc_canon _ _ _ _ _ _ g
    · simp (maxDischargeDepth := 60) +contextual [*, hf]

@[simp] theorem execLd_canon (i : Issue) (sz : BitVec 2) (sx : Bool) (rd : Reg) (ra : Reg) (off : BitVec 12) (s : State) (hs : Canon s) : NextP (fun t => Canon t) (execLd i sz sx rd ra off s) := by
  unfold execLd
  repeat' split
  all_goals simp (maxDischargeDepth := 60) +contextual [*]

@[simp] theorem execSt_canon (i : Issue) (sz : BitVec 2) (rd : Reg) (ra : Reg) (off : BitVec 12) (s : State) (hs : Canon s) : NextP (fun t => Canon t) (execSt i sz rd ra off s) := by
  simp (maxDischargeDepth := 60) +contextual [execSt, *]

@[simp] theorem cmpRow_canon (i : Issue) (t : Bool) (ra : Reg) (rb : Reg) (off : BitVec 12) (f : Word → Word → Alu) (s : State) (hs : Canon s) : NextP (fun t => Canon t) (cmpRow i t ra rb off f s) := by
  unfold cmpRow
  repeat' split
  all_goals simp (maxDischargeDepth := 60) +contextual [*]

@[simp] theorem execCmpm_canon (i : Issue) (ra : Reg) (rb : Reg) (off : BitVec 12) (s : State) (hs : Canon s) : NextP (fun t => Canon t) (execCmpm i ra rb off s) := by
  simp (maxDischargeDepth := 60) +contextual [execCmpm, *]

@[simp] theorem execTstm_canon (i : Issue) (ra : Reg) (rb : Reg) (off : BitVec 12) (s : State) (hs : Canon s) : NextP (fun t => Canon t) (execTstm i ra rb off s) := by
  simp (maxDischargeDepth := 60) +contextual [execTstm, *]

@[simp] theorem execBcopy_canon (i : Issue) (sz : BitVec 2) (rd : Reg) (ra : Reg) (s : State) (hs : Canon s) : NextP (fun t => Canon t) (execBcopy i sz rd ra s) := by
  unfold execBcopy
  (refine issue_canon _ _ _ (fun c s => ?_) _ hs; (try dsimp only); (repeat' split); all_goals simp (maxDischargeDepth := 60) +contextual [*])

@[simp] theorem execBfill_canon (i : Issue) (sz : BitVec 2) (rd : Reg) (rb : Reg) (s : State) (hs : Canon s) : NextP (fun t => Canon t) (execBfill i sz rd rb s) := by
  simp (maxDischargeDepth := 60) +contextual [execBfill, *]

@[simp] theorem execCrcb_canon (i : Issue) (k : BitVec 4) (rd : Reg) (ra : Reg) (s : State) (hs : Canon s) : NextP (fun t => Canon t) (execCrcb i k rd ra s) := by
  unfold execCrcb
  repeat' split
  all_goals simp (maxDischargeDepth := 60) +contextual [*]

@[simp] theorem execTstep_canon (i : Issue) (rd : Reg) (ra : Reg) (rb : Reg) (s : State) (hs : Canon s) : NextP (fun t => Canon t) (execTstep i rd ra rb s) := by
  unfold execTstep
  repeat' split
  all_goals simp (maxDischargeDepth := 60) +contextual [*]

@[simp] theorem execB_canon (i : Issue) (off : BitVec 24) (s : State) (hs : Canon s) : NextP (fun t => Canon t) (execB i off s) := by
  simp (maxDischargeDepth := 60) +contextual [execB, *]

@[simp] theorem execBl_canon (i : Issue) (off : BitVec 24) (s : State) (hs : Canon s) : NextP (fun t => Canon t) (execBl i off s) := by
  simp (maxDischargeDepth := 60) +contextual [execBl, *]

@[simp] theorem jumpTo_canon (t : Word) (c : Ctx) : (jumpTo t c).okCanon := by
  unfold jumpTo
  split <;> simp (maxDischargeDepth := 60) +contextual [*]

@[simp] theorem execJr_canon (i : Issue) (ra : Reg) (s : State) (hs : Canon s) : NextP (fun t => Canon t) (execJr i ra s) := by
  simp (maxDischargeDepth := 60) +contextual [execJr, *]

@[simp] theorem execJlr_canon (i : Issue) (rd : Reg) (ra : Reg) (s : State) (hs : Canon s) : NextP (fun t => Canon t) (execJlr i rd ra s) := by
  simp (maxDischargeDepth := 60) +contextual [execJlr, *]

@[simp] theorem execNop_canon (i : Issue) (bits : BitVec 28) (s : State) (hs : Canon s) : NextP (fun t => Canon t) (execNop i bits s) := by
  simp only [execNop]
  repeat' split
  all_goals simp (maxDischargeDepth := 60) +contextual [*]

@[simp] theorem execMfs_canon (i : Issue) (rd : Reg) (spr : BitVec 4) (s : State) (hs : Canon s) : NextP (fun t => Canon t) (execMfs i rd spr s) := by
  unfold execMfs
  (refine issue_canon _ _ _ (fun c s => ?_) _ hs; (try dsimp only); (repeat' split); all_goals simp (maxDischargeDepth := 60) +contextual [*])

@[simp] theorem execMts_canon (i : Issue) (spr : BitVec 4) (ra : Reg) (s : State) (hs : Canon s) : NextP (fun t => Canon t) (execMts i spr ra s) := by
  unfold execMts
  (refine issue_canon _ _ _ (fun c s => ?_) _ hs; (try dsimp only); (repeat' split); all_goals simp (maxDischargeDepth := 60) +contextual [*])

@[simp] theorem execRete_canon (i : Issue) (s : State) (hs : Canon s) : NextP (fun t => Canon t) (execRete i s) := by
  unfold execRete
  refine issue_canon _ _ _ (fun c s => ?_) _ hs
  split <;> simp [Result.okCanon]

@[simp] theorem flushLine_canon (k : CoreId) (a : Word) (s : State) (hs : Canon s) : Canon (flushLine k a s) := by
  unfold flushLine
  repeat' split
  all_goals simp (maxDischargeDepth := 60) +contextual [*]

@[simp] theorem execFli_canon (i : Issue) (ra : Reg) (s : State) (hs : Canon s) : NextP (fun t => Canon t) (execFli i ra s) := by
  unfold execFli
  repeat' split
  all_goals simp (maxDischargeDepth := 60) +contextual [*]

@[simp] theorem execFence_canon (i : Issue) (s : State) (hs : Canon s) : NextP (fun t => Canon t) (execFence i s) := by
  unfold execFence
  (refine issue_canon _ _ _ (fun c s => ?_) _ hs; (try dsimp only); (repeat' split); all_goals simp (maxDischargeDepth := 60) +contextual [*])

@[simp] theorem execWait_canon (i : Issue) (s : State) (hs : Canon s) : NextP (fun t => Canon t) (execWait i s) := by
  unfold execWait
  (refine issue_canon _ _ _ (fun c s => ?_) _ hs; (try dsimp only); (repeat' split); all_goals simp (maxDischargeDepth := 60) +contextual [*])

@[simp] theorem execSvc_canon (i : Issue) (imm : BitVec 8) (s : State) (hs : Canon s) : NextP (fun t => Canon t) (execSvc i imm s) := by
  simp (maxDischargeDepth := 60) +contextual [execSvc, *]

@[simp] theorem repBegin_canon (i : Issue) (l : Bool) (rc : Reg) (next : Word) (s : State) (hs : Canon s) : Canon (repBegin i l rc next s) := by
  simp (maxDischargeDepth := 60) +contextual [repBegin, *]

@[simp] theorem repRow_canon (i : Issue) (l : Bool) (rc : Reg) (next : Word) (s : State) (hs : Canon s) : NextP (fun t => Canon t) (repRow i l rc next s) := by
  simp only [repRow]
  repeat' split
  all_goals simp (maxDischargeDepth := 60) +contextual [*]

@[simp] theorem execRep_canon (i : Issue) (rc : Reg) (next : Word) (s : State) (hs : Canon s) : NextP (fun t => Canon t) (execRep i rc next s) := by
  simp (maxDischargeDepth := 60) +contextual [execRep, *]

@[simp] theorem execRepl_canon (i : Issue) (rc : Reg) (next : Word) (s : State) (hs : Canon s) : NextP (fun t => Canon t) (execRepl i rc next s) := by
  simp (maxDischargeDepth := 60) +contextual [execRepl, *]

@[simp] theorem execLoop_canon (i : Issue) (rc : Reg) (off : BitVec 12) (s : State) (hs : Canon s) : NextP (fun t => Canon t) (execLoop i rc off s) := by
  unfold execLoop
  refine issue_canon _ _ _ (fun c s => ?_) _ hs
  dsimp only
  split <;> simp [Result.okCanon]

@[simp] theorem intEntry_canon (k : CoreId) (s : State) (hs : Canon s) : Canon (intEntry k s) := by
  simp (maxDischargeDepth := 60) +contextual [intEntry, *]

@[simp] theorem threadRecog_canon (k : CoreId) (src : Nat) (s : State) (hs : Canon s) : Canon (threadRecog k src s) := by
  unfold threadRecog
  repeat' split
  all_goals simp (maxDischargeDepth := 60) +contextual [*]

@[simp] theorem deliver_canon (k : CoreId) (lv : Nat) (src : Nat) (vecEcc : Bool) (s : State) (hs : Canon s) : Canon (deliver k lv src vecEcc s) := by
  simp (maxDischargeDepth := 60) +contextual [deliver, *]

@[simp] theorem execInterruptDelivery_canon (k : CoreId) (agree : Bool) (vecEcc : Bool) (s : State) (hs : Canon s) : NextP (fun t => Canon t) (execInterruptDelivery k agree vecEcc s) := by
  simp only [execInterruptDelivery]
  repeat' split
  all_goals simp (maxDischargeDepth := 60) +contextual [*]

@[simp] theorem execWaitWake_canon (k : CoreId) (s : State) (hs : Canon s) : NextP (fun t => Canon t) (execWaitWake k s) := by
  simp only [execWaitWake]
  repeat' split
  all_goals simp (maxDischargeDepth := 60) +contextual [*]

@[simp] theorem execLineFill_canon (k : CoreId) (a : Word) (wrongPath : Bool) (s : State) (hs : Canon s) : NextP (fun t => Canon t) (execLineFill k a wrongPath s) := by
  simp (maxDischargeDepth := 60) +contextual [execLineFill, *]

/-- Every command keeps the canonical form. -/
theorem exec_canon (c : Instr) (s : State) (hs : Canon s) : NextP (fun t => Canon t) (exec c s) := by
  cases c with
  | pllLock => exact execPllLock_canon s hs
  | refLost => exact execRefLost_canon s hs
  | pllRelock => exact execPllRelock_canon s hs
  | frameTick => exact execFrameTick_canon s hs
  | frameCtrlWrite a0 a1 => exact execFrameCtrlWrite_canon a0 a1 s hs
  | frameCountLoRead a0 => exact execFrameCountLoRead_canon a0 s hs
  | turnAbsLoRead a0 => exact execTurnAbsLoRead_canon a0 s hs
  | clFrameDone a0 a1 a2 a3 => exact execClFrameDone_canon a0 a1 a2 a3 s hs
  | calCycle => exact execCalCycle_canon s hs
  | calStepRequest a0 a1 => exact execCalStepRequest_canon a0 a1 s hs
  | calStepApply => exact execCalStepApply_canon s hs
  | alarmFire => exact execAlarmFire_canon s hs
  | oscFail => exact execOscFail_canon s hs
  | oscRestart => exact execOscRestart_canon s hs
  | calendarReset => exact execCalendarReset_canon s hs
  | calPipRead a0 => exact execCalPipRead_canon a0 s hs
  | mailboxPlace a0 => exact execMailboxPlace_canon a0 s hs
  | backlogMove a0 => exact execBacklogMove_canon a0 s hs
  | handoffProcess a0 => exact execHandoffProcess_canon a0 s hs
  | seqTimeout a0 a1 => exact execSeqTimeout_canon a0 a1 s hs
  | machineTimerExpiry a0 a1 a2 a3 => exact execMachineTimerExpiry_canon a0 a1 a2 a3 s hs
  | attachWindowEnd a0 => exact execAttachWindowEnd_canon a0 s hs
  | attachTry a0 => exact execAttachTry_canon a0 s hs
  | probeWindowEnd a0 => exact execProbeWindowEnd_canon a0 s hs
  | switchGuardEnd a0 => exact execSwitchGuardEnd_canon a0 s hs
  | pollDue a0 => exact execPollDue_canon a0 s hs
  | replyWindowEnd a0 => exact execReplyWindowEnd_canon a0 s hs
  | lossPadWindowEnd a0 => exact execLossPadWindowEnd_canon a0 s hs
  | gapWindowEnd a0 => exact execGapWindowEnd_canon a0 s hs
  | portProgramChange a0 => exact execPortProgramChange_canon a0 s hs
  | pgRelease a0 => exact execPgRelease_canon a0 s hs
  | vioFail a0 => exact execVioFail_canon a0 s hs
  | pgSupplyMismatch a0 a1 => exact execPgSupplyMismatch_canon a0 a1 s hs
  | padIoWrite a0 a1 a2 => exact execPadIoWrite_canon a0 a1 a2 s hs
  | rxStartEdge a0 a1 => exact execRxStartEdge_canon a0 a1 s hs
  | startBitCheck a0 b0 => exact execStartBitCheck_canon a0 b0 s hs
  | rxWordComplete a0 b0 => exact execRxWordComplete_canon a0 b0 s hs
  | syncRxWordComplete a0 b0 b1 => exact execSyncRxWordComplete_canon a0 b0 b1 s hs
  | edgeEntry a0 a1 => exact execEdgeEntry_canon a0 a1 s hs
  | saTxdataWrite a0 a1 a2 => exact execSaTxdataWrite_canon a0 a1 a2 s hs
  | txWordLaunch a0 => exact execTxWordLaunch_canon a0 s hs
  | txWordEnd a0 => exact execTxWordEnd_canon a0 s hs
  | deRelease a0 => exact execDeRelease_canon a0 s hs
  | saRxdataRead a0 a1 => exact execSaRxdataRead_canon a0 a1 s hs
  | saCtrlWrite a0 a1 a2 => exact execSaCtrlWrite_canon a0 a1 a2 s hs
  | saStatWrite a0 a1 a2 => exact execSaStatWrite_canon a0 a1 a2 s hs
  | bypassApply a0 => exact execBypassApply_canon a0 s hs
  | bypassReleaseApply a0 => exact execBypassReleaseApply_canon a0 s hs
  | lcCmdStage a0 a1 a2 => exact execLcCmdStage_canon a0 a1 a2 s hs
  | lcNop a0 => exact execLcNop_canon a0 s hs
  | lcOn a0 => exact execLcOn_canon a0 s hs
  | lcOff a0 => exact execLcOff_canon a0 s hs
  | lcKick a0 => exact execLcKick_canon a0 s hs
  | lcBlink a0 => exact execLcBlink_canon a0 s hs
  | lcTest a0 => exact execLcTest_canon a0 s hs
  | lcClear a0 => exact execLcClear_canon a0 s hs
  | shortTrip a0 => exact execShortTrip_canon a0 s hs
  | inrushOverTrip a0 => exact execInrushOverTrip_canon a0 s hs
  | overloadTrip a0 => exact execOverloadTrip_canon a0 s hs
  | stuckOnDetect a0 => exact execStuckOnDetect_canon a0 s hs
  | inrushGrant a0 => exact execInrushGrant_canon a0 s hs
  | inrushEnd a0 => exact execInrushEnd_canon a0 s hs
  | sagAssert a0 => exact execSagAssert_canon a0 s hs
  | sagDeassert a0 => exact execSagDeassert_canon a0 s hs
  | dischargeEnd a0 => exact execDischargeEnd_canon a0 s hs
  | kickEnd a0 => exact execKickEnd_canon a0 s hs
  | blinkOnEnd a0 => exact execBlinkOnEnd_canon a0 s hs
  | blinkOffEnd a0 => exact execBlinkOffEnd_canon a0 s hs
  | testOffEnd a0 a1 => exact execTestOffEnd_canon a0 a1 s hs
  | testWindowEnd a0 a1 => exact execTestWindowEnd_canon a0 a1 s hs
  | autoRetry a0 => exact execAutoRetry_canon a0 s hs
  | lcConfigWrite a0 a1 a2 a3 => exact execLcConfigWrite_canon a0 a1 a2 a3 s hs
  | lcGcfgWrite a0 a1 a2 => exact execLcGcfgWrite_canon a0 a1 a2 s hs
  | lcCtrlDisable a0 a1 => exact execLcCtrlDisable_canon a0 a1 s hs
  | traceSample a0 a1 => exact execTraceSample_canon a0 a1 s hs
  | segmentTimeClose => exact execSegmentTimeClose_canon s hs
  | jnlCtrlClose a0 => exact execJnlCtrlClose_canon a0 s hs
  | segmentSign => exact execSegmentSign_canon s hs
  | segmentCommit => exact execSegmentCommit_canon s hs
  | jnlEnable a0 a1 => exact execJnlEnable_canon a0 a1 s hs
  | chainHeadFound b0 => exact execChainHeadFound_canon b0 s hs
  | jnlDisable a0 => exact execJnlDisable_canon a0 s hs
  | driveFail a0 => exact execDriveFail_canon a0 s hs
  | rebuildComplete a0 => exact execRebuildComplete_canon a0 s hs
  | jnlEntryWrite a0 a1 a2 a3 => exact execJnlEntryWrite_canon a0 a1 a2 a3 s hs
  | jnlArchWrite a0 a1 => exact execJnlArchWrite_canon a0 a1 s hs
  | jnlWptrLoRead a0 => exact execJnlWptrLoRead_canon a0 s hs
  | jnlSeqLoRead a0 => exact execJnlSeqLoRead_canon a0 s hs
  | slotApplyRequest a0 a1 a2 => exact execSlotApplyRequest_canon a0 a1 a2 s hs
  | slotTableApply a0 => exact execSlotTableApply_canon a0 s hs
  | greedyOn a0 a1 a2 => exact execGreedyOn_canon a0 a1 a2 s hs
  | greedyOff a0 a1 a2 => exact execGreedyOff_canon a0 a1 a2 s hs
  | threadStart a0 a1 a2 => exact execThreadStart_canon a0 a1 a2 s hs
  | threadStop a0 a1 a2 => exact execThreadStop_canon a0 a1 a2 s hs
  | threadResume a0 a1 a2 => exact execThreadResume_canon a0 a1 a2 s hs
  | faultPortLoss a0 a1 => exact execFaultPortLoss_canon a0 a1 s hs
  | lockAcquire a0 a1 a2 => exact execLockAcquire_canon a0 a1 a2 s hs
  | lockRelease a0 a1 a2 => exact execLockRelease_canon a0 a1 a2 s hs
  | lockForce a0 a1 a2 => exact execLockForce_canon a0 a1 a2 s hs
  | chipLockAcquire a0 a1 => exact execChipLockAcquire_canon a0 a1 s hs
  | chipLockRelease a0 a1 => exact execChipLockRelease_canon a0 a1 s hs
  | chipLockForce a0 a1 => exact execChipLockForce_canon a0 a1 s hs
  | thrAlarmArm a0 a1 => exact execThrAlarmArm_canon a0 a1 s hs
  | threadAlarm a0 a1 => exact execThreadAlarm_canon a0 a1 s hs
  | rxfPush a0 a1 => exact execRxfPush_canon a0 a1 s hs
  | rxfEnd a0 a1 => exact execRxfEnd_canon a0 a1 s hs
  | rxfEvent a0 a1 => exact execRxfEvent_canon a0 a1 s hs
  | rxfFree a0 a1 => exact execRxfFree_canon a0 a1 s hs
  | txfStage a0 a1 => exact execTxfStage_canon a0 a1 s hs
  | txfPop a0 a1 => exact execTxfPop_canon a0 a1 s hs
  | txfNote a0 a1 => exact execTxfNote_canon a0 a1 s hs
  | add a0 a1 a2 a3 a4 => exact execAdd_canon a0 a1 a2 a3 a4 s hs
  | adc a0 a1 a2 a3 a4 => exact execAdc_canon a0 a1 a2 a3 a4 s hs
  | sub a0 a1 a2 a3 a4 => exact execSub_canon a0 a1 a2 a3 a4 s hs
  | sbc a0 a1 a2 a3 a4 => exact execSbc_canon a0 a1 a2 a3 a4 s hs
  | andR a0 a1 a2 a3 a4 => exact execAndR_canon a0 a1 a2 a3 a4 s hs
  | orR a0 a1 a2 a3 a4 => exact execOrR_canon a0 a1 a2 a3 a4 s hs
  | xorR a0 a1 a2 a3 a4 => exact execXorR_canon a0 a1 a2 a3 a4 s hs
  | andn a0 a1 a2 a3 a4 => exact execAndn_canon a0 a1 a2 a3 a4 s hs
  | lsl a0 a1 a2 a3 a4 => exact execLsl_canon a0 a1 a2 a3 a4 s hs
  | lsr a0 a1 a2 a3 a4 => exact execLsr_canon a0 a1 a2 a3 a4 s hs
  | asr a0 a1 a2 a3 a4 => exact execAsr_canon a0 a1 a2 a3 a4 s hs
  | ror a0 a1 a2 a3 a4 => exact execRor_canon a0 a1 a2 a3 a4 s hs
  | mov a0 a1 a2 a3 => exact execMov_canon a0 a1 a2 a3 s hs
  | mvn a0 a1 a2 a3 => exact execMvn_canon a0 a1 a2 a3 s hs
  | neg a0 a1 a2 a3 => exact execNeg_canon a0 a1 a2 a3 s hs
  | cmp a0 a1 a2 => exact execCmp_canon a0 a1 a2 s hs
  | tst a0 a1 a2 => exact execTst_canon a0 a1 a2 s hs
  | mul a0 a1 a2 a3 a4 => exact execMul_canon a0 a1 a2 a3 a4 s hs
  | mull a0 a1 a2 a3 a4 => exact execMull_canon a0 a1 a2 a3 a4 s hs
  | mullu a0 a1 a2 a3 a4 => exact execMullu_canon a0 a1 a2 a3 a4 s hs
  | div a0 a1 a2 a3 a4 => exact execDiv_canon a0 a1 a2 a3 a4 s hs
  | divu a0 a1 a2 a3 a4 => exact execDivu_canon a0 a1 a2 a3 a4 s hs
  | clz a0 a1 a2 a3 => exact execClz_canon a0 a1 a2 a3 s hs
  | rev a0 a1 a2 a3 => exact execRev_canon a0 a1 a2 a3 s hs
  | sxb a0 a1 a2 a3 => exact execSxb_canon a0 a1 a2 a3 s hs
  | sxh a0 a1 a2 a3 => exact execSxh_canon a0 a1 a2 a3 s hs
  | addi a0 a1 a2 a3 a4 => exact execAddi_canon a0 a1 a2 a3 a4 s hs
  | subi a0 a1 a2 a3 a4 => exact execSubi_canon a0 a1 a2 a3 a4 s hs
  | andi a0 a1 a2 a3 a4 => exact execAndi_canon a0 a1 a2 a3 a4 s hs
  | ori a0 a1 a2 a3 a4 => exact execOri_canon a0 a1 a2 a3 a4 s hs
  | xori a0 a1 a2 a3 a4 => exact execXori_canon a0 a1 a2 a3 a4 s hs
  | lsli a0 a1 a2 a3 a4 => exact execLsli_canon a0 a1 a2 a3 a4 s hs
  | lsri a0 a1 a2 a3 a4 => exact execLsri_canon a0 a1 a2 a3 a4 s hs
  | asri a0 a1 a2 a3 a4 => exact execAsri_canon a0 a1 a2 a3 a4 s hs
  | rori a0 a1 a2 a3 a4 => exact execRori_canon a0 a1 a2 a3 a4 s hs
  | cmpi a0 a1 a2 => exact execCmpi_canon a0 a1 a2 s hs
  | tsti a0 a1 a2 => exact execTsti_canon a0 a1 a2 s hs
  | movi a0 a1 a2 => exact execMovi_canon a0 a1 a2 s hs
  | movn a0 a1 a2 => exact execMovn_canon a0 a1 a2 s hs
  | movhi a0 a1 a2 => exact execMovhi_canon a0 a1 a2 s hs
  | ld a0 a1 a2 a3 a4 a5 => exact execLd_canon a0 a1 a2 a3 a4 a5 s hs
  | st a0 a1 a2 a3 a4 => exact execSt_canon a0 a1 a2 a3 a4 s hs
  | cmpm a0 a1 a2 a3 => exact execCmpm_canon a0 a1 a2 a3 s hs
  | tstm a0 a1 a2 a3 => exact execTstm_canon a0 a1 a2 a3 s hs
  | b a0 a1 => exact execB_canon a0 a1 s hs
  | bl a0 a1 => exact execBl_canon a0 a1 s hs
  | nop a0 a1 => exact execNop_canon a0 a1 s hs
  | jr a0 a1 => exact execJr_canon a0 a1 s hs
  | jlr a0 a1 a2 => exact execJlr_canon a0 a1 a2 s hs
  | mfs a0 a1 a2 => exact execMfs_canon a0 a1 a2 s hs
  | mts a0 a1 a2 => exact execMts_canon a0 a1 a2 s hs
  | rete a0 => exact execRete_canon a0 s hs
  | fli a0 a1 => exact execFli_canon a0 a1 s hs
  | fence a0 => exact execFence_canon a0 s hs
  | wait a0 => exact execWait_canon a0 s hs
  | waitWake a0 => exact execWaitWake_canon a0 s hs
  | svc a0 a1 => exact execSvc_canon a0 a1 s hs
  | rep a0 a1 a2 => exact execRep_canon a0 a1 a2 s hs
  | repl a0 a1 a2 => exact execRepl_canon a0 a1 a2 s hs
  | loop a0 a1 a2 => exact execLoop_canon a0 a1 a2 s hs
  | bcopy a0 a1 a2 a3 => exact execBcopy_canon a0 a1 a2 a3 s hs
  | bfill a0 a1 a2 a3 => exact execBfill_canon a0 a1 a2 a3 s hs
  | crcb a0 a1 a2 a3 => exact execCrcb_canon a0 a1 a2 a3 s hs
  | tstep a0 a1 a2 a3 => exact execTstep_canon a0 a1 a2 a3 s hs
  | interruptDelivery a0 a1 a2 => exact execInterruptDelivery_canon a0 a1 a2 s hs
  | coreVbaseWrite a0 a1 => exact execCoreVbaseWrite_canon a0 a1 s hs
  | lineFill a0 a1 a2 => exact execLineFill_canon a0 a1 a2 s hs
  | thrCtxWrite a0 a1 a2 a3 a4 => exact execThrCtxWrite_canon a0 a1 a2 a3 a4 s hs
  | submitCommit a0 a1 a2 => exact execSubmitCommit_canon a0 a1 a2 s hs
  | outHeadWrite a0 a1 a2 => exact execOutHeadWrite_canon a0 a1 a2 s hs
  | doorbellInWrite a0 a1 a2 => exact execDoorbellInWrite_canon a0 a1 a2 s hs
  | outMaskWrite a0 a1 a2 => exact execOutMaskWrite_canon a0 a1 a2 s hs
  | clOutboxWrite a0 a1 a2 => exact execClOutboxWrite_canon a0 a1 a2 s hs
  | kysanNop a0 => exact execKysanNop_canon a0 s hs
  | identify a0 => exact execIdentify_canon a0 s hs
  | tenantStatus a0 => exact execTenantStatus_canon a0 s hs
  | deviceQuery a0 => exact execDeviceQuery_canon a0 s hs
  | bind a0 => exact execBind_canon a0 s hs
  | unbind a0 => exact execUnbind_canon a0 s hs
  | dataSend a0 => exact execDataSend_canon a0 s hs
  | tenantReset a0 => exact execTenantReset_canon a0 s hs
  | clearDegraded a0 => exact execClearDegraded_canon a0 s hs
  | loadClear a0 => exact execLoadClear_canon a0 s hs
  | scannerEnable a0 => exact execScannerEnable_canon a0 s hs
  | scannerDisable a0 => exact execScannerDisable_canon a0 s hs
  | scannerBeep a0 => exact execScannerBeep_canon a0 s hs
  | units a0 => exact execUnits_canon a0 s hs
  | tare a0 => exact execTare_canon a0 s hs
  | zero a0 => exact execZero_canon a0 s hs
  | weigh a0 => exact execWeigh_canon a0 s hs
  | text a0 => exact execText_canon a0 s hs
  | brightness a0 => exact execBrightness_canon a0 s hs
  | cursor a0 => exact execCursor_canon a0 s hs
  | attention a0 => exact execAttention_canon a0 s hs
  | drawerKick a0 => exact execDrawerKick_canon a0 s hs
  | codepage a0 => exact execCodepage_canon a0 s hs
  | density a0 => exact execDensity_canon a0 s hs
  | printSeg a0 => exact execPrintSeg_canon a0 s hs
  | cut a0 => exact execCut_canon a0 s hs
  | logo a0 => exact execLogo_canon a0 s hs
  | pattern a0 => exact execPattern_canon a0 s hs
  | keyLeds a0 => exact execKeyLeds_canon a0 s hs
  | keyLock a0 => exact execKeyLock_canon a0 s hs
  | keypadBeep a0 => exact execKeypadBeep_canon a0 s hs
  | tenantConfig a0 => exact execTenantConfig_canon a0 s hs
  | adminTenantReset a0 => exact execAdminTenantReset_canon a0 s hs
  | tenantResetGo a0 a1 => exact execTenantResetGo_canon a0 a1 s hs
  | tenantResetComplete a0 => exact execTenantResetComplete_canon a0 s hs
  | portDefine a0 => exact execPortDefine_canon a0 s hs
  | portRemove a0 => exact execPortRemove_canon a0 s hs
  | portGrant a0 => exact execPortGrant_canon a0 s hs
  | portSuspend a0 => exact execPortSuspend_canon a0 s hs
  | portResume a0 => exact execPortResume_canon a0 s hs
  | portBypass a0 => exact execPortBypass_canon a0 s hs
  | portRelease a0 => exact execPortRelease_canon a0 s hs
  | settleDiscard a0 => exact execSettleDiscard_canon a0 s hs
  | settleRead a0 => exact execSettleRead_canon a0 s hs
  | aptStage a0 => exact execAptStage_canon a0 s hs
  | aptActivate a0 => exact execAptActivate_canon a0 s hs
  | aptRemove a0 => exact execAptRemove_canon a0 s hs
  | aptList a0 => exact execAptList_canon a0 s hs
  | portApt a0 => exact execPortApt_canon a0 s hs
  | frameSet a0 => exact execFrameSet_canon a0 s hs
  | timeGet a0 => exact execTimeGet_canon a0 s hs
  | timeTrim a0 => exact execTimeTrim_canon a0 s hs
  | timeStep a0 => exact execTimeStep_canon a0 s hs
  | timeAlarm a0 => exact execTimeAlarm_canon a0 s hs
  | lcConfig a0 => exact execLcConfig_canon a0 s hs
  | lcProfile a0 => exact execLcProfile_canon a0 s hs
  | lcAttach a0 => exact execLcAttach_canon a0 s hs
  | lcDetach a0 => exact execLcDetach_canon a0 s hs
  | lcCommand a0 => exact execLcCommand_canon a0 s hs
  | jnlEntry a0 => exact execJnlEntry_canon a0 s hs
  | jnlControl a0 => exact execJnlControl_canon a0 s hs
  | jnlClose a0 => exact execJnlClose_canon a0 s hs
  | jnlRead a0 => exact execJnlRead_canon a0 s hs
  | jnlArchive a0 => exact execJnlArchive_canon a0 s hs
  | jnlStatus a0 => exact execJnlStatus_canon a0 s hs
  | codeWrite a0 => exact execCodeWrite_canon a0 s hs
  | codeCommit a0 => exact execCodeCommit_canon a0 s hs
  | keyInstall a0 => exact execKeyInstall_canon a0 s hs
  | castle a0 => exact execCastle_canon a0 s hs
  | faultRead a0 => exact execFaultRead_canon a0 s hs
  | powerDark a0 => exact execPowerDark_canon a0 s hs
  | powerWake a0 => exact execPowerWake_canon a0 s hs
  | powerStandby a0 => exact execPowerStandby_canon a0 s hs
  | powerDeep a0 => exact execPowerDeep_canon a0 s hs
  | regRead a0 => exact execRegRead_canon a0 s hs
  | movDbWrite a0 a1 a2 => exact execMovDbWrite_canon a0 a1 a2 s hs
  | transferAccept a0 => exact execTransferAccept_canon a0 s hs
  | transferReadChunk a0 a1 a2 => exact execTransferReadChunk_canon a0 a1 a2 s hs
  | transferWriteChunk a0 a1 => exact execTransferWriteChunk_canon a0 a1 s hs
  | transferComplete a0 => exact execTransferComplete_canon a0 s hs
  | completionTimeout a0 => exact execCompletionTimeout_canon a0 s hs
  | arbitrationPeriod a0 a1 => exact execArbitrationPeriod_canon a0 a1 s hs
  | linkTrain a0 a1 => exact execLinkTrain_canon a0 a1 s hs
  | trainRetry a0 => exact execTrainRetry_canon a0 s hs
  | drnRetrain a0 a1 => exact execDrnRetrain_canon a0 a1 s hs
  | drnDisable a0 a1 => exact execDrnDisable_canon a0 a1 s hs
  | heartbeatSend a0 => exact execHeartbeatSend_canon a0 s hs
  | heartbeat a0 => exact execHeartbeat_canon a0 s hs
  | address a0 => exact execAddress_canon a0 s hs
  | admitReq a0 => exact execAdmitReq_canon a0 s hs
  | admitFrame a0 => exact execAdmitFrame_canon a0 s hs
  | admissionTick => exact execAdmissionTick_canon s hs
  | detach a0 => exact execDetach_canon a0 s hs
  | tick a0 => exact execTick_canon a0 s hs
  | mmio a0 => exact execMmio_canon a0 s hs
  | hostdma a0 => exact execHostdma_canon a0 s hs
  | queue a0 => exact execQueue_canon a0 s hs
  | drnAdmin a0 => exact execDrnAdmin_canon a0 s hs
  | drnJournal a0 => exact execDrnJournal_canon a0 s hs
  | capacity a0 => exact execCapacity_canon a0 s hs
  | laneFail a0 a1 => exact execLaneFail_canon a0 a1 s hs
  | laneSwapDone a0 => exact execLaneSwapDone_canon a0 s hs
  | linkLoss a0 => exact execLinkLoss_canon a0 s hs
  | headElection => exact execHeadElection_canon s hs
  | delayMeasure a0 a1 => exact execDelayMeasure_canon a0 a1 s hs
  | clCkptWrite a0 a1 a2 a3 => exact execClCkptWrite_canon a0 a1 a2 a3 s hs
  | pairBistDone a0 a1 a2 a3 => exact execPairBistDone_canon a0 a1 a2 a3 s hs
  | checkerError a0 a1 => exact execCheckerError_canon a0 a1 s hs
  | stallSentinel a0 a1 => exact execStallSentinel_canon a0 a1 s hs
  | shadowMismatch a0 a1 => exact execShadowMismatch_canon a0 a1 s hs
  | voteDisagree a0 => exact execVoteDisagree_canon a0 s hs
  | clusterCastling a0 => exact execClusterCastling_canon a0 s hs
  | handoverEnd a0 => exact execHandoverEnd_canon a0 s hs
  | castleReqCluster a0 a1 => exact execCastleReqCluster_canon a0 a1 s hs
  | castleReqLaneCore a0 a1 a2 => exact execCastleReqLaneCore_canon a0 a1 a2 s hs
  | castleReqCp a0 a1 => exact execCastleReqCp_canon a0 a1 s hs
  | clDoublesWrite a0 a1 a2 => exact execClDoublesWrite_canon a0 a1 a2 s hs
  | pairForm a0 => exact execPairForm_canon a0 s hs
  | cpCheckpoint a0 => exact execCpCheckpoint_canon a0 s hs
  | cpCastling a0 a1 => exact execCpCastling_canon a0 a1 s hs
  | scrubPassComplete a0 a1 => exact execScrubPassComplete_canon a0 a1 s hs
  | rotationVisit a0 => exact execRotationVisit_canon a0 s hs
  | clusterBistDone a0 a1 => exact execClusterBistDone_canon a0 a1 s hs
  | repairOverdue => exact execRepairOverdue_canon s hs
  | icEoi a0 => exact execIcEoi_canon a0 s hs
  | icRaise a0 a1 => exact execIcRaise_canon a0 a1 s hs
  | icSet a0 a1 a2 a3 => exact execIcSet_canon a0 a1 a2 a3 s hs
  | icSrcWrite a0 a1 a2 a3 => exact execIcSrcWrite_canon a0 a1 a2 a3 s hs
  | holdoffEnd a0 a1 => exact execHoldoffEnd_canon a0 a1 s hs
  | coreTimerArm a0 a1 => exact execCoreTimerArm_canon a0 a1 s hs
  | coreTimerDue a0 => exact execCoreTimerDue_canon a0 s hs
  | routerEvent a0 a1 => exact execRouterEvent_canon a0 a1 s hs
  | eventTrigger a0 a1 a2 => exact execEventTrigger_canon a0 a1 a2 s hs
  | evrCfgWrite a0 a1 a2 a3 => exact execEvrCfgWrite_canon a0 a1 a2 a3 s hs
  | evrLock a0 a1 a2 a3 => exact execEvrLock_canon a0 a1 a2 a3 s hs
  | sentryFire a0 a1 => exact execSentryFire_canon a0 a1 s hs
  | clusterDarkEntry a0 => exact execClusterDarkEntry_canon a0 s hs
  | clusterDarkDone a0 => exact execClusterDarkDone_canon a0 s hs
  | wakeRequest a0 => exact execWakeRequest_canon a0 s hs
  | clusterWakeTick a0 => exact execClusterWakeTick_canon a0 s hs
  | governorDecision a0 => exact execGovernorDecision_canon a0 s hs
  | lowPowerEntryEnd => exact execLowPowerEntryEnd_canon s hs
  | nvmeShutdownTimeout a0 => exact execNvmeShutdownTimeout_canon a0 s hs
  | lowPowerExit => exact execLowPowerExit_canon s hs
  | smbusAddressMatch => exact execSmbusAddressMatch_canon s hs
  | powerOnReset a0 => exact execPowerOnReset_canon a0 s hs
  | resetPin => exact execResetPin_canon s hs
  | softReset a0 a1 => exact execSoftReset_canon a0 a1 s hs
  | endpointReset => exact execEndpointReset_canon s hs
  | resetRelease a0 a1 => exact execResetRelease_canon a0 a1 s hs
  | crossingResync a0 => exact execCrossingResync_canon a0 s hs
  | supplyDip a0 => exact execSupplyDip_canon a0 s hs
  | boot => exact execBoot_canon s hs
  | vfFlr a0 => exact execVfFlr_canon a0 s hs
  | pfFlr => exact execPfFlr_canon s hs
  | vfEnableClear => exact execVfEnableClear_canon s hs
  | driveRemoved a0 => exact execDriveRemoved_canon a0 s hs
  | driveInserted a0 => exact execDriveInserted_canon a0 s hs
  | rootPortRetrain a0 => exact execRootPortRetrain_canon a0 s hs
  | getId a0 => exact execGetId_canon a0 s hs
  | getStatus a0 => exact execGetStatus_canon a0 s hs
  | mgmtReset a0 => exact execMgmtReset_canon a0 s hs
  | mgmtCodeWrite a0 => exact execMgmtCodeWrite_canon a0 s hs
  | mgmtCodeCommit a0 => exact execMgmtCodeCommit_canon a0 s hs
  | codeRead a0 => exact execCodeRead_canon a0 s hs
  | adminSubmit a0 => exact execAdminSubmit_canon a0 s hs
  | adminFetch a0 => exact execAdminFetch_canon a0 s hs
  | mgmtReplyRead => exact execMgmtReplyRead_canon s hs
  | tapReset => exact execTapReset_canon s hs
  | jtagBypass => exact execJtagBypass_canon s hs
  | idcode => exact execIdcode_canon s hs
  | samplePreload => exact execSamplePreload_canon s hs
  | extest => exact execExtest_canon s hs
  | clamp => exact execClamp_canon s hs
  | highz => exact execHighz_canon s hs
  | registerWrite a0 a1 a2 => exact execRegisterWrite_canon a0 a1 a2 s hs
  | vfEnableSet a0 => exact execVfEnableSet_canon a0 s hs
  | clusterResetRelease a0 => exact execClusterResetRelease_canon a0 s hs
  | scrubAgeLimit => exact execScrubAgeLimit_canon s hs
  | standaloneDecision => exact execStandaloneDecision_canon s hs

end Sys2Proof.Machine
end

