-- ==== Sys2Proof/Laws/Log.lean ====
section
/-! SUPPORT. Which registers an interrupt occurrence and a journal record can change: those of the interrupt controller
and of the journal's counters. The other parts of the state are Laws/View.lean's. -/

namespace Sys2Proof.Machine

/-- Keys of a controller's PEND, LATCH and LATCH_TURN registers. -/
def icKeys (c k : Nat) : Bool := decide (icK c 0x180 ≤ k ∧ k < icK c 0x1A0)

/-- Keys of the registers a journal record can change: JNL_STAT, JNL_DROPS, and the control processor's controller. -/
def logKeys (k : Nat) : Bool := decide (k = 0x40000004) || decide (k = 0x40000020) || icKeys 16 k

/-- Every register of `t` but those under `K` reads as in `s`. -/
structure RegsOnly (K : Nat → Bool) (s t : State) : Prop where
  reg : ∀ k, K k = false → reg t k = reg s k

namespace RegsOnly

theorem refl (K : Nat → Bool) (s : State) : RegsOnly K s s := ⟨fun _ _ => rfl⟩

theorem trans {K : Nat → Bool} {s t u : State} (h : RegsOnly K s t) (g : RegsOnly K t u) : RegsOnly K s u :=
  ⟨fun k hk => (g.reg k hk).trans (h.reg k hk)⟩

theorem mono {K L : Nat → Bool} {s t : State} (h : RegsOnly K s t) (hs : ∀ k, L k = false → K k = false) :
    RegsOnly L s t := ⟨fun k hk => h.reg k (hs k hk)⟩

theorem setReg {K : Nat → Bool} {k : Nat} (w : Word) (s : State) (hk : K k = true) :
    RegsOnly K s (Machine.setReg k w s) :=
  ⟨fun j hj => reg_setReg_ne w s (fun e => by subst e; simp [hk] at hj)⟩

theorem setF {K : Nat → Bool} {f : Fld} (v : Nat) (s : State) (hk : K f.key = true) :
    RegsOnly K s (Machine.setF f v s) := setReg _ s hk

theorem addF {K : Nat → Bool} {f : Fld} (v : Nat) (s : State) (hk : K f.key = true) :
    RegsOnly K s (Machine.addF f v s) := setReg _ s hk

theorem flag {K : Nat → Bool} {f : Fld} (s : State) (hk : K f.key = true) : RegsOnly K s (Machine.flag f s) :=
  ⟨(setF 1 s hk).reg⟩

theorem updJnl {K : Nat → Bool} (f : JournalSt → JournalSt) (s : State) : RegsOnly K s (Machine.updJnl f s) :=
  ⟨fun _ _ => rfl⟩

theorem each {K : Nat → Bool} {α : Type} (f : α → State → State) (h : ∀ x s, RegsOnly K s (f x s)) (xs : List α) (s : State) :
    RegsOnly K s (Machine.each xs f s) := by
  induction xs generalizing s with
  | nil => exact refl _ _
  | cons x xs ih => exact (h x s).trans (ih _)

theorem streamOut {K : Nat → Bool} (kind : Nat) (data : List Byte) (s : State) :
    RegsOnly K s (Machine.streamOut kind data s) :=
  ⟨fun k _ => streamOut_view (⟨fun s => Machine.reg s k⟩ : View Word) (fun _ _ => rfl) kind data s⟩

end RegsOnly

theorem icLatchSet_log (t c k : Nat) (s : State) (hk : k < 64) : RegsOnly (icKeys c) s (icLatchSet t c k s) := by
  have e : icKeys c (fLatch c k).key = true := by
    apply decide_eq_true; simp only [fLatch, bit, icK, winK]; by_cases h : c = 16 <;> simp only [h, if_true, if_false] <;> omega
  have e1 : icKeys c (icK c 0x19C) = true := by
    apply decide_eq_true; simp only [icK, winK]; by_cases h : c = 16 <;> simp only [h, if_true, if_false] <;> omega
  have e2 : icKeys c (icK c 0x198) = true := by
    apply decide_eq_true; simp only [icK, winK]; by_cases h : c = 16 <;> simp only [h, if_true, if_false] <;> omega
  have h : ∀ u, RegsOnly (icKeys c) u (if t = now u then flag (fLatch c k) u else setF (fLatch c k) 1 u) := by
    intro u; split
    · exact RegsOnly.flag _ e
    · exact RegsOnly.setF _ _ e
  simp only [icLatchSet]
  split
  · exact ((RegsOnly.setReg _ s e2).trans (RegsOnly.setReg _ _ e1)).trans (h _)
  · exact h _

/-- An occurrence changes only its controller's pending and latch registers. -/
theorem occurAt_log (t c k : Nat) (s : State) (hk : k < 64) : RegsOnly (icKeys c) s (occurAt t c k s) := by
  have e : icKeys c (fPend c k).key = true := by
    apply decide_eq_true; simp only [fPend, bit, icK, winK]; by_cases h : c = 16 <;> simp only [h, if_true, if_false] <;> omega
  simp only [occurAt]
  split
  · exact RegsOnly.refl _ _
  · split
    · split
      · exact RegsOnly.refl _ _
      · split
        · exact RegsOnly.flag _ e
        · exact RegsOnly.setF _ _ e
    · split
      · exact icLatchSet_log t c k s hk
      · exact RegsOnly.refl _ _

theorem occur_log (c k : Nat) (s : State) (hk : k < 64) : RegsOnly (icKeys c) s (occur c k s) := occurAt_log _ c k s hk

theorem icKeys_log {k : Nat} (h : logKeys k = false) : icKeys 16 k = false := by
  simp only [logKeys, Bool.or_eq_false_iff] at h; exact h.2

theorem occurCp_log (k : Nat) (s : State) (hk : k < 64) : RegsOnly logKeys s (occurCp k s) :=
  (occur_log 16 k s hk).mono fun _ => icKeys_log

theorem loseRec_log (st : Stamp) (s : State) : RegsOnly logKeys s (loseRec st s) := by
  simp only [loseRec]
  refine RegsOnly.trans ?_ (RegsOnly.updJnl _ _)
  refine RegsOnly.trans ?_ (RegsOnly.flag _ rfl)
  refine RegsOnly.trans ?_ (RegsOnly.setF _ _ rfl)
  refine RegsOnly.trans ?_ (RegsOnly.addF _ _ rfl)
  split
  · exact RegsOnly.refl _ _
  · exact occurCp_log 4 s (by omega)

theorem appendRec_log (r : JRec) (s : State) : RegsOnly logKeys s (appendRec r s) := by
  simp only [appendRec]
  split
  · exact loseRec_log _ _
  · split
    · exact loseRec_log _ _
    · split
      · exact ((RegsOnly.updJnl _ _).trans (RegsOnly.updJnl _ _)).trans (RegsOnly.streamOut _ _ _)
      · exact RegsOnly.updJnl _ _

theorem openNew_log (t : Nat) (s : State) : RegsOnly logKeys s (openNew t s) := by
  have h : ∀ g d, RegsOnly logKeys s (streamOut 0 d (updJnl g s)) := fun g d =>
    (RegsOnly.updJnl _ _).trans (RegsOnly.streamOut _ _ _)
  simp only [openNew]
  split
  · split
    · exact (((h _ _).trans (RegsOnly.setF _ _ rfl)).trans (RegsOnly.updJnl _ _)).trans (appendRec_log _ _)
    · exact h _ _
  · exact h _ _

theorem closeSeg_log (code t : Nat) (s : State) : RegsOnly logKeys s (closeSeg code t s) := by
  have ha : ∀ (rs : List JRec) u, RegsOnly logKeys u (each rs appendRec u) := fun rs u => RegsOnly.each _ appendRec_log rs u
  have ho : ∀ u, RegsOnly logKeys u (openNew t (jnlFull (updJnl (fun j => { j with openSeg := none }) u))) := fun u =>
    ((RegsOnly.updJnl _ _).trans (RegsOnly.setF _ _ rfl)).trans (openNew_log _ _)
  simp only [closeSeg]
  split
  · exact ((RegsOnly.updJnl _ _).trans (ha _ _)).trans (ha _ _)
  · refine RegsOnly.trans ?_ (ha _ _)
    refine RegsOnly.trans ?_ (ho _)
    split
    · exact ((RegsOnly.updJnl _ _).trans (ha _ _)).trans (RegsOnly.streamOut _ _ _)
    · exact ((RegsOnly.updJnl _ _).trans (ha _ _)).trans (RegsOnly.updJnl _ _)

theorem timeClose_log (n : Nat) (s : State) : RegsOnly logKeys s (timeClose n s) := by
  induction n generalizing s with
  | zero => exact RegsOnly.refl _ _
  | succ n ih =>
    simp only [timeClose]
    split
    · split
      · exact (closeSeg_log _ _ _).trans (ih _)
      · exact RegsOnly.refl _ _
    · exact RegsOnly.refl _ _

theorem accept_log (r : Nat → JRec) (s : State) : RegsOnly logKeys s (accept r s) := by
  simp only [accept]
  refine RegsOnly.trans (timeClose_log (segAge s) s) ?_
  split
  · exact loseRec_log _ _
  · split
    · exact (closeSeg_log _ _ _).trans (appendRec_log _ _)
    · exact appendRec_log _ _

theorem jnlBy_log (ty t : Nat) (p q : List Byte) (s : State) : RegsOnly logKeys s (jnlBy ty t p q s) := by
  simp only [jnlBy]
  split
  · exact RegsOnly.refl _ _
  · split
    · exact RegsOnly.updJnl _ _
    · exact accept_log _ _

/-- A record changes only the journal and its registers. -/
theorem jnlAt_log (ty t : Nat) (p : List Byte) (s : State) : RegsOnly logKeys s (jnlAt ty t p s) := jnlBy_log _ _ _ _ _

theorem jnl_log (ty : Nat) (p : List Byte) (s : State) : RegsOnly logKeys s (jnl ty p s) := jnlAt_log _ _ _ _

end Sys2Proof.Machine
end

