-- ==== Sys2Proof/Laws/Field.lean ====
section
/-! SUPPORT. The parts of the state as views: with them a lemma `op_view` says of one part that `op` leaves it. -/

namespace Sys2Proof.Machine

def regsV : View (Tab Word) := ⟨State.regs⟩
@[simp] theorem regsV_free {p : Part} (h : p ≠ .regs) : regsV.free p := by cases p <;> first | exact (h rfl).elim | exact fun _ _ => rfl
theorem regs_of {s t : State} (h : regsV.at t = regsV.at s) : t.regs = s.regs := h

def memV : View (List Host.Cell) := ⟨State.mem⟩
@[simp] theorem memV_free {p : Part} (h : p ≠ .mem) : memV.free p := by cases p <;> first | exact (h rfl).elim | exact fun _ _ => rfl
theorem mem_of {s t : State} (h : memV.at t = memV.at s) : t.mem = s.mem := h

def timeV : View (TimeSt) := ⟨State.time⟩
@[simp] theorem timeV_free {p : Part} (h : p ≠ .time) : timeV.free p := by cases p <;> first | exact (h rfl).elim | exact fun _ _ => rfl
theorem time_of {s t : State} (h : timeV.at t = timeV.at s) : t.time = s.time := h

def calV : View (CalSt) := ⟨State.cal⟩
@[simp] theorem calV_free {p : Part} (h : p ≠ .cal) : calV.free p := by cases p <;> first | exact (h rfl).elim | exact fun _ _ => rfl
theorem cal_of {s t : State} (h : calV.at t = calV.at s) : t.cal = s.cal := h

def tenantsV : View (Tab TenantSt) := ⟨State.tenants⟩
@[simp] theorem tenantsV_free {p : Part} (h : p ≠ .tenants) : tenantsV.free p := by cases p <;> first | exact (h rfl).elim | exact fun _ _ => rfl
theorem tenants_of {s t : State} (h : tenantsV.at t = tenantsV.at s) : t.tenants = s.tenants := h

def devicesV : View (Tab DeviceSt) := ⟨State.devices⟩
@[simp] theorem devicesV_free {p : Part} (h : p ≠ .devices) : devicesV.free p := by cases p <;> first | exact (h rfl).elim | exact fun _ _ => rfl
theorem devices_of {s t : State} (h : devicesV.at t = devicesV.at s) : t.devices = s.devices := h

def portsV : View (Tab PortSt) := ⟨State.ports⟩
@[simp] theorem portsV_free {p : Part} (h : p ≠ .ports) : portsV.free p := by cases p <;> first | exact (h rfl).elim | exact fun _ _ => rfl
theorem ports_of {s t : State} (h : portsV.at t = portsV.at s) : t.ports = s.ports := h

def imagesV : View (Tab ImageSt) := ⟨State.images⟩
@[simp] theorem imagesV_free {p : Part} (h : p ≠ .images) : imagesV.free p := by cases p <;> first | exact (h rfl).elim | exact fun _ _ => rfl
theorem images_of {s t : State} (h : imagesV.at t = imagesV.at s) : t.images = s.images := h

def padsV : View (Tab PadSt) := ⟨State.pads⟩
@[simp] theorem padsV_free {p : Part} (h : p ≠ .pads) : padsV.free p := by cases p <;> first | exact (h rfl).elim | exact fun _ _ => rfl
theorem pads_of {s t : State} (h : padsV.at t = padsV.at s) : t.pads = s.pads := h

def pgOnV : View (Tab Bool) := ⟨State.pgOn⟩
@[simp] theorem pgOnV_free {p : Part} (h : p ≠ .pgOn) : pgOnV.free p := by cases p <;> first | exact (h rfl).elim | exact fun _ _ => rfl
theorem pgOn_of {s t : State} (h : pgOnV.at t = pgOnV.at s) : t.pgOn = s.pgOn := h

def fifosV : View (Tab FifoSt) := ⟨State.fifos⟩
@[simp] theorem fifosV_free {p : Part} (h : p ≠ .fifos) : fifosV.free p := by cases p <;> first | exact (h rfl).elim | exact fun _ _ => rfl
theorem fifos_of {s t : State} (h : fifosV.at t = fifosV.at s) : t.fifos = s.fifos := h

def chansV : View (Tab ChanSt) := ⟨State.chans⟩
@[simp] theorem chansV_free {p : Part} (h : p ≠ .chans) : chansV.free p := by cases p <;> first | exact (h rfl).elim | exact fun _ _ => rfl
theorem chans_of {s t : State} (h : chansV.at t = chansV.at s) : t.chans = s.chans := h

def lgroupsV : View (Tab LGroupSt) := ⟨State.lgroups⟩
@[simp] theorem lgroupsV_free {p : Part} (h : p ≠ .lgroups) : lgroupsV.free p := by cases p <;> first | exact (h rfl).elim | exact fun _ _ => rfl
theorem lgroups_of {s t : State} (h : lgroupsV.at t = lgroupsV.at s) : t.lgroups = s.lgroups := h

def journalV : View (JournalSt) := ⟨State.journal⟩
@[simp] theorem journalV_free {p : Part} (h : p ≠ .journal) : journalV.free p := by cases p <;> first | exact (h rfl).elim | exact fun _ _ => rfl
theorem journal_of {s t : State} (h : journalV.at t = journalV.at s) : t.journal = s.journal := h

def clustersV : View (Tab ClusterSt) := ⟨State.clusters⟩
@[simp] theorem clustersV_free {p : Part} (h : p ≠ .clusters) : clustersV.free p := by cases p <;> first | exact (h rfl).elim | exact fun _ _ => rfl
theorem clusters_of {s t : State} (h : clustersV.at t = clustersV.at s) : t.clusters = s.clusters := h

def coresV : View (Tab CoreSt) := ⟨State.cores⟩
@[simp] theorem coresV_free {p : Part} (h : p ≠ .cores) : coresV.free p := by cases p <;> first | exact (h rfl).elim | exact fun _ _ => rfl
theorem cores_of {s t : State} (h : coresV.at t = coresV.at s) : t.cores = s.cores := h

def locksV : View (Tab LockSt) := ⟨State.locks⟩
@[simp] theorem locksV_free {p : Part} (h : p ≠ .locks) : locksV.free p := by cases p <;> first | exact (h rfl).elim | exact fun _ _ => rfl
theorem locks_of {s t : State} (h : locksV.at t = locksV.at s) : t.locks = s.locks := h

def remoteV : View (List (Nat × Nat × Nat × Crossing)) := ⟨State.remote⟩
@[simp] theorem remoteV_free {p : Part} (h : p ≠ .remote) : remoteV.free p := by cases p <;> first | exact (h rfl).elim | exact fun _ _ => rfl
theorem remote_of {s t : State} (h : remoteV.at t = remoteV.at s) : t.remote = s.remote := h

def delayedV : View (List (Nat × Nat × Crossing)) := ⟨State.delayed⟩
@[simp] theorem delayedV_free {p : Part} (h : p ≠ .delayed) : delayedV.free p := by cases p <;> first | exact (h rfl).elim | exact fun _ _ => rfl
theorem delayed_of {s t : State} (h : delayedV.at t = delayedV.at s) : t.delayed = s.delayed := h

def xfersV : View (Tab Xfer) := ⟨State.xfers⟩
@[simp] theorem xfersV_free {p : Part} (h : p ≠ .xfers) : xfersV.free p := by cases p <;> first | exact (h rfl).elim | exact fun _ _ => rfl
theorem xfers_of {s t : State} (h : xfersV.at t = xfersV.at s) : t.xfers = s.xfers := h

def xferNextV : View (Nat) := ⟨State.xferNext⟩
@[simp] theorem xferNextV_free {p : Part} (h : p ≠ .xferNext) : xferNextV.free p := by cases p <;> first | exact (h rfl).elim | exact fun _ _ => rfl
theorem xferNext_of {s t : State} (h : xferNextV.at t = xferNextV.at s) : t.xferNext = s.xferNext := h

def arbsV : View (Tab ArbSt) := ⟨State.arbs⟩
@[simp] theorem arbsV_free {p : Part} (h : p ≠ .arbs) : arbsV.free p := by cases p <;> first | exact (h rfl).elim | exact fun _ _ => rfl
theorem arbs_of {s t : State} (h : arbsV.at t = arbsV.at s) : t.arbs = s.arbs := h

def linksV : View (Tab DrnSt) := ⟨State.links⟩
@[simp] theorem linksV_free {p : Part} (h : p ≠ .links) : linksV.free p := by cases p <;> first | exact (h rfl).elim | exact fun _ _ => rfl
theorem links_of {s t : State} (h : linksV.at t = linksV.at s) : t.links = s.links := h

def groupV : View (GroupSt) := ⟨State.group⟩
@[simp] theorem groupV_free {p : Part} (h : p ≠ .group) : groupV.free p := by cases p <;> first | exact (h rfl).elim | exact fun _ _ => rfl
theorem group_of {s t : State} (h : groupV.at t = groupV.at s) : t.group = s.group := h

def guardV : View (GuardSt) := ⟨State.guard⟩
@[simp] theorem guardV_free {p : Part} (h : p ≠ .guard) : guardV.free p := by cases p <;> first | exact (h rfl).elim | exact fun _ _ => rfl
theorem guard_of {s t : State} (h : guardV.at t = guardV.at s) : t.guard = s.guard := h

def holdsV : View (Tab Nat) := ⟨State.holds⟩
@[simp] theorem holdsV_free {p : Part} (h : p ≠ .holds) : holdsV.free p := by cases p <;> first | exact (h rfl).elim | exact fun _ _ => rfl
theorem holds_of {s t : State} (h : holdsV.at t = holdsV.at s) : t.holds = s.holds := h

def powerV : View (PowerSt) := ⟨State.power⟩
@[simp] theorem powerV_free {p : Part} (h : p ≠ .power) : powerV.free p := by cases p <;> first | exact (h rfl).elim | exact fun _ _ => rfl
theorem power_of {s t : State} (h : powerV.at t = powerV.at s) : t.power = s.power := h

def hostV : View (HostSt) := ⟨State.host⟩
@[simp] theorem hostV_free {p : Part} (h : p ≠ .host) : hostV.free p := by cases p <;> first | exact (h rfl).elim | exact fun _ _ => rfl
theorem host_of {s t : State} (h : hostV.at t = hostV.at s) : t.host = s.host := h

def adminV : View (Option AdmPend) := ⟨State.admin⟩
@[simp] theorem adminV_free {p : Part} (h : p ≠ .admin) : adminV.free p := by cases p <;> first | exact (h rfl).elim | exact fun _ _ => rfl
theorem admin_of {s t : State} (h : adminV.at t = adminV.at s) : t.admin = s.admin := h

def hotV : View (Tab (Nat × Word)) := ⟨State.hot⟩
@[simp] theorem hotV_free {p : Part} (h : p ≠ .hot) : hotV.free p := by cases p <;> first | exact (h rfl).elim | exact fun _ _ => rfl
theorem hot_of {s t : State} (h : hotV.at t = hotV.at s) : t.hot = s.hot := h

def freshV : View (Nat) := ⟨State.fresh⟩
@[simp] theorem freshV_free {p : Part} (h : p ≠ .fresh) : freshV.free p := by cases p <;> first | exact (h rfl).elim | exact fun _ _ => rfl
theorem fresh_of {s t : State} (h : freshV.at t = freshV.at s) : t.fresh = s.fresh := h

/-! ### Registers that a journal record or an occurrence leaves -/

theorem RegsOnly.getF {K : Nat → Bool} {s t : State} (h : RegsOnly K s t) (f : Fld) (hk : K f.key = false) :
    Machine.getF t f = Machine.getF s f := by simp [Machine.getF, h.reg _ hk]

theorem RegsOnly.isSet {K : Nat → Bool} {s t : State} (h : RegsOnly K s t) (f : Fld) (hk : K f.key = false) :
    Machine.isSet t f = Machine.isSet s f := by simp [Machine.isSet, h.getF f hk]

theorem jPacket_log (turn : Nat) (port : Nat) (pk : Nat) (len : Nat) (s : State) : RegsOnly logKeys s (jPacket turn port pk len s) := by
  unfold jPacket
  exact jnlAt_log ..

@[simp] theorem getF_jPacket (turn : Nat) (port : Nat) (pk : Nat) (len : Nat) (s : State) (g : Fld) (h : logKeys g.key = false) : getF (jPacket turn port pk len s) g = getF s g := (jPacket_log ..).getF g h
@[simp] theorem isSet_jPacket (turn : Nat) (port : Nat) (pk : Nat) (len : Nat) (s : State) (g : Fld) (h : logKeys g.key = false) : isSet (jPacket turn port pk len s) g = isSet s g := (jPacket_log ..).isSet g h
@[simp] theorem reg_jPacket (turn : Nat) (port : Nat) (pk : Nat) (len : Nat) (s : State) (q : Nat) (h : logKeys q = false) : reg (jPacket turn port pk len s) q = reg s q := (jPacket_log ..).reg q h

theorem jSlotIn_log (slot : Slot) (s : State) : RegsOnly logKeys s (jSlotIn slot s) := by
  unfold jSlotIn
  exact jnl_log ..

@[simp] theorem getF_jSlotIn (slot : Slot) (s : State) (g : Fld) (h : logKeys g.key = false) : getF (jSlotIn slot s) g = getF s g := (jSlotIn_log ..).getF g h
@[simp] theorem isSet_jSlotIn (slot : Slot) (s : State) (g : Fld) (h : logKeys g.key = false) : isSet (jSlotIn slot s) g = isSet s g := (jSlotIn_log ..).isSet g h
@[simp] theorem reg_jSlotIn (slot : Slot) (s : State) (q : Nat) (h : logKeys q = false) : reg (jSlotIn slot s) q = reg s q := (jSlotIn_log ..).reg q h

theorem jSlotOut_log (turn : Nat) (slot : Slot) (s : State) : RegsOnly logKeys s (jSlotOut turn slot s) := by
  unfold jSlotOut
  exact jnlAt_log ..

@[simp] theorem getF_jSlotOut (turn : Nat) (slot : Slot) (s : State) (g : Fld) (h : logKeys g.key = false) : getF (jSlotOut turn slot s) g = getF s g := (jSlotOut_log ..).getF g h
@[simp] theorem isSet_jSlotOut (turn : Nat) (slot : Slot) (s : State) (g : Fld) (h : logKeys g.key = false) : isSet (jSlotOut turn slot s) g = isSet s g := (jSlotOut_log ..).isSet g h
@[simp] theorem reg_jSlotOut (turn : Nat) (slot : Slot) (s : State) (q : Nat) (h : logKeys q = false) : reg (jSlotOut turn slot s) q = reg s q := (jSlotOut_log ..).reg q h

theorem jTenant_log (ev : Nat) (t : Nat) (frame : Nat) (s : State) : RegsOnly logKeys s (jTenant ev t frame s) := by
  unfold jTenant
  exact jnl_log ..

@[simp] theorem getF_jTenant (ev : Nat) (t : Nat) (frame : Nat) (s : State) (g : Fld) (h : logKeys g.key = false) : getF (jTenant ev t frame s) g = getF s g := (jTenant_log ..).getF g h
@[simp] theorem isSet_jTenant (ev : Nat) (t : Nat) (frame : Nat) (s : State) (g : Fld) (h : logKeys g.key = false) : isSet (jTenant ev t frame s) g = isSet s g := (jTenant_log ..).isSet g h
@[simp] theorem reg_jTenant (ev : Nat) (t : Nat) (frame : Nat) (s : State) (q : Nat) (h : logKeys q = false) : reg (jTenant ev t frame s) q = reg s q := (jTenant_log ..).reg q h

theorem jDevice_log (ev : Nat) (t : Nat) (d : Nat) (tag : Nat) (data : List Byte) (s : State) : RegsOnly logKeys s (jDevice ev t d tag data s) := by
  unfold jDevice
  exact jnl_log ..

@[simp] theorem getF_jDevice (ev : Nat) (t : Nat) (d : Nat) (tag : Nat) (data : List Byte) (s : State) (g : Fld) (h : logKeys g.key = false) : getF (jDevice ev t d tag data s) g = getF s g := (jDevice_log ..).getF g h
@[simp] theorem isSet_jDevice (ev : Nat) (t : Nat) (d : Nat) (tag : Nat) (data : List Byte) (s : State) (g : Fld) (h : logKeys g.key = false) : isSet (jDevice ev t d tag data s) g = isSet s g := (jDevice_log ..).isSet g h
@[simp] theorem reg_jDevice (ev : Nat) (t : Nat) (d : Nat) (tag : Nat) (data : List Byte) (s : State) (q : Nat) (h : logKeys q = false) : reg (jDevice ev t d tag data s) q = reg s q := (jDevice_log ..).reg q h

theorem jPort_log (ev : Nat) (p : Nat) (data : List Byte) (s : State) : RegsOnly logKeys s (jPort ev p data s) := by
  unfold jPort
  exact jnl_log ..

@[simp] theorem getF_jPort (ev : Nat) (p : Nat) (data : List Byte) (s : State) (g : Fld) (h : logKeys g.key = false) : getF (jPort ev p data s) g = getF s g := (jPort_log ..).getF g h
@[simp] theorem isSet_jPort (ev : Nat) (p : Nat) (data : List Byte) (s : State) (g : Fld) (h : logKeys g.key = false) : isSet (jPort ev p data s) g = isSet s g := (jPort_log ..).isSet g h
@[simp] theorem reg_jPort (ev : Nat) (p : Nat) (data : List Byte) (s : State) (q : Nat) (h : logKeys q = false) : reg (jPort ev p data s) q = reg s q := (jPort_log ..).reg q h

theorem jSettle_log (p : Nat) (discarded : Bool) (data : List Byte) (s : State) : RegsOnly logKeys s (jSettle p discarded data s) := by
  unfold jSettle
  exact jnl_log ..

@[simp] theorem getF_jSettle (p : Nat) (discarded : Bool) (data : List Byte) (s : State) (g : Fld) (h : logKeys g.key = false) : getF (jSettle p discarded data s) g = getF s g := (jSettle_log ..).getF g h
@[simp] theorem isSet_jSettle (p : Nat) (discarded : Bool) (data : List Byte) (s : State) (g : Fld) (h : logKeys g.key = false) : isSet (jSettle p discarded data s) g = isSet s g := (jSettle_log ..).isSet g h
@[simp] theorem reg_jSettle (p : Nat) (discarded : Bool) (data : List Byte) (s : State) (q : Nat) (h : logKeys q = false) : reg (jSettle p discarded data s) q = reg s q := (jSettle_log ..).reg q h

theorem jLoad_log (ch : Nat) (ev : Nat) (data : List Byte) (s : State) : RegsOnly logKeys s (jLoad ch ev data s) := by
  unfold jLoad
  exact jnl_log ..

@[simp] theorem getF_jLoad (ch : Nat) (ev : Nat) (data : List Byte) (s : State) (g : Fld) (h : logKeys g.key = false) : getF (jLoad ch ev data s) g = getF s g := (jLoad_log ..).getF g h
@[simp] theorem isSet_jLoad (ch : Nat) (ev : Nat) (data : List Byte) (s : State) (g : Fld) (h : logKeys g.key = false) : isSet (jLoad ch ev data s) g = isSet s g := (jLoad_log ..).isSet g h
@[simp] theorem reg_jLoad (ch : Nat) (ev : Nat) (data : List Byte) (s : State) (q : Nat) (h : logKeys q = false) : reg (jLoad ch ev data s) q = reg s q := (jLoad_log ..).reg q h

theorem jTime_log (ev : Nat) (data : List Byte) (s : State) : RegsOnly logKeys s (jTime ev data s) := by
  unfold jTime
  exact jnl_log ..

@[simp] theorem getF_jTime (ev : Nat) (data : List Byte) (s : State) (g : Fld) (h : logKeys g.key = false) : getF (jTime ev data s) g = getF s g := (jTime_log ..).getF g h
@[simp] theorem isSet_jTime (ev : Nat) (data : List Byte) (s : State) (g : Fld) (h : logKeys g.key = false) : isSet (jTime ev data s) g = isSet s g := (jTime_log ..).isSet g h
@[simp] theorem reg_jTime (ev : Nat) (data : List Byte) (s : State) (q : Nat) (h : logKeys q = false) : reg (jTime ev data s) q = reg s q := (jTime_log ..).reg q h

theorem jPers_log (ev : Nat) (data : List Byte) (s : State) : RegsOnly logKeys s (jPers ev data s) := by
  unfold jPers
  exact jnl_log ..

@[simp] theorem getF_jPers (ev : Nat) (data : List Byte) (s : State) (g : Fld) (h : logKeys g.key = false) : getF (jPers ev data s) g = getF s g := (jPers_log ..).getF g h
@[simp] theorem isSet_jPers (ev : Nat) (data : List Byte) (s : State) (g : Fld) (h : logKeys g.key = false) : isSet (jPers ev data s) g = isSet s g := (jPers_log ..).isSet g h
@[simp] theorem reg_jPers (ev : Nat) (data : List Byte) (s : State) (q : Nat) (h : logKeys q = false) : reg (jPers ev data s) q = reg s q := (jPers_log ..).reg q h

theorem jAdmin_log (slot : Slot) (s : State) : RegsOnly logKeys s (jAdmin slot s) := by
  unfold jAdmin
  exact jnl_log ..

@[simp] theorem getF_jAdmin (slot : Slot) (s : State) (g : Fld) (h : logKeys g.key = false) : getF (jAdmin slot s) g = getF s g := (jAdmin_log ..).getF g h
@[simp] theorem isSet_jAdmin (slot : Slot) (s : State) (g : Fld) (h : logKeys g.key = false) : isSet (jAdmin slot s) g = isSet s g := (jAdmin_log ..).isSet g h
@[simp] theorem reg_jAdmin (slot : Slot) (s : State) (q : Nat) (h : logKeys q = false) : reg (jAdmin slot s) q = reg s q := (jAdmin_log ..).reg q h

theorem jJournal_log (code : Nat) (data : List Byte) (s : State) : RegsOnly logKeys s (jJournal code data s) := by
  unfold jJournal
  exact jnl_log ..

@[simp] theorem getF_jJournal (code : Nat) (data : List Byte) (s : State) (g : Fld) (h : logKeys g.key = false) : getF (jJournal code data s) g = getF s g := (jJournal_log ..).getF g h
@[simp] theorem isSet_jJournal (code : Nat) (data : List Byte) (s : State) (g : Fld) (h : logKeys g.key = false) : isSet (jJournal code data s) g = isSet s g := (jJournal_log ..).isSet g h
@[simp] theorem reg_jJournal (code : Nat) (data : List Byte) (s : State) (q : Nat) (h : logKeys q = false) : reg (jJournal code data s) q = reg s q := (jJournal_log ..).reg q h

theorem jFrameLen_log (rounds : Nat) (frame : Nat) (s : State) : RegsOnly logKeys s (jFrameLen rounds frame s) := by
  unfold jFrameLen
  exact jTime_log ..

@[simp] theorem getF_jFrameLen (rounds : Nat) (frame : Nat) (s : State) (g : Fld) (h : logKeys g.key = false) : getF (jFrameLen rounds frame s) g = getF s g := (jFrameLen_log ..).getF g h
@[simp] theorem isSet_jFrameLen (rounds : Nat) (frame : Nat) (s : State) (g : Fld) (h : logKeys g.key = false) : isSet (jFrameLen rounds frame s) g = isSet s g := (jFrameLen_log ..).isSet g h
@[simp] theorem reg_jFrameLen (rounds : Nat) (frame : Nat) (s : State) (q : Nat) (h : logKeys q = false) : reg (jFrameLen rounds frame s) q = reg s q := (jFrameLen_log ..).reg q h

theorem jDiscard_log (t : Nat) (d : Nat) (tag : Nat) (s : State) : RegsOnly logKeys s (jDiscard t d tag s) := by
  unfold jDiscard
  exact jDevice_log ..

@[simp] theorem getF_jDiscard (t : Nat) (d : Nat) (tag : Nat) (s : State) (g : Fld) (h : logKeys g.key = false) : getF (jDiscard t d tag s) g = getF s g := (jDiscard_log ..).getF g h
@[simp] theorem isSet_jDiscard (t : Nat) (d : Nat) (tag : Nat) (s : State) (g : Fld) (h : logKeys g.key = false) : isSet (jDiscard t d tag s) g = isSet s g := (jDiscard_log ..).isSet g h
@[simp] theorem reg_jDiscard (t : Nat) (d : Nat) (tag : Nat) (s : State) (q : Nat) (h : logKeys q = false) : reg (jDiscard t d tag s) q = reg s q := (jDiscard_log ..).reg q h

theorem jIgnored_log (t : Nat) (d : Nat) (side : Nat) (src : Nat) (arg : Nat) (s : State) : RegsOnly logKeys s (jIgnored t d side src arg s) := by
  unfold jIgnored
  exact jDevice_log ..

@[simp] theorem getF_jIgnored (t : Nat) (d : Nat) (side : Nat) (src : Nat) (arg : Nat) (s : State) (g : Fld) (h : logKeys g.key = false) : getF (jIgnored t d side src arg s) g = getF s g := (jIgnored_log ..).getF g h
@[simp] theorem isSet_jIgnored (t : Nat) (d : Nat) (side : Nat) (src : Nat) (arg : Nat) (s : State) (g : Fld) (h : logKeys g.key = false) : isSet (jIgnored t d side src arg s) g = isSet s g := (jIgnored_log ..).isSet g h
@[simp] theorem reg_jIgnored (t : Nat) (d : Nat) (side : Nat) (src : Nat) (arg : Nat) (s : State) (q : Nat) (h : logKeys q = false) : reg (jIgnored t d side src arg s) q = reg s q := (jIgnored_log ..).reg q h

theorem jConflict_log (t : Nat) (d : Nat) (tag : Nat) (op : Nat) (st : Nat) (s : State) : RegsOnly logKeys s (jConflict t d tag op st s) := by
  unfold jConflict
  exact jDevice_log ..

@[simp] theorem getF_jConflict (t : Nat) (d : Nat) (tag : Nat) (op : Nat) (st : Nat) (s : State) (g : Fld) (h : logKeys g.key = false) : getF (jConflict t d tag op st s) g = getF s g := (jConflict_log ..).getF g h
@[simp] theorem isSet_jConflict (t : Nat) (d : Nat) (tag : Nat) (op : Nat) (st : Nat) (s : State) (g : Fld) (h : logKeys g.key = false) : isSet (jConflict t d tag op st s) g = isSet s g := (jConflict_log ..).isSet g h
@[simp] theorem reg_jConflict (t : Nat) (d : Nat) (tag : Nat) (op : Nat) (st : Nat) (s : State) (q : Nat) (h : logKeys q = false) : reg (jConflict t d tag op st s) q = reg s q := (jConflict_log ..).reg q h

theorem jCastling_log (unit : Nat) (reason : Nat) (lcl : Nat) (pos : Nat) (old : Nat) (new : Nat) (result : Nat) (seq : Nat) (len : Nat) (frame : Nat) (s : State) : RegsOnly logKeys s (jCastling unit reason lcl pos old new result seq len frame s) := by
  unfold jCastling
  exact jnl_log ..

@[simp] theorem getF_jCastling (unit : Nat) (reason : Nat) (lcl : Nat) (pos : Nat) (old : Nat) (new : Nat) (result : Nat) (seq : Nat) (len : Nat) (frame : Nat) (s : State) (g : Fld) (h : logKeys g.key = false) : getF (jCastling unit reason lcl pos old new result seq len frame s) g = getF s g := (jCastling_log ..).getF g h
@[simp] theorem isSet_jCastling (unit : Nat) (reason : Nat) (lcl : Nat) (pos : Nat) (old : Nat) (new : Nat) (result : Nat) (seq : Nat) (len : Nat) (frame : Nat) (s : State) (g : Fld) (h : logKeys g.key = false) : isSet (jCastling unit reason lcl pos old new result seq len frame s) g = isSet s g := (jCastling_log ..).isSet g h
@[simp] theorem reg_jCastling (unit : Nat) (reason : Nat) (lcl : Nat) (pos : Nat) (old : Nat) (new : Nat) (result : Nat) (seq : Nat) (len : Nat) (frame : Nat) (s : State) (q : Nat) (h : logKeys q = false) : reg (jCastling unit reason lcl pos old new result seq len frame s) q = reg s q := (jCastling_log ..).reg q h

theorem jGroup_log (ev : Nat) (seat : Nat) (serial : Nat) (presented : Nat) (detail : Nat) (s : State) : RegsOnly logKeys s (jGroup ev seat serial presented detail s) := by
  unfold jGroup
  exact (jnl_log ..).trans (occurCp_log _ _ (by decide))

@[simp] theorem getF_jGroup (ev : Nat) (seat : Nat) (serial : Nat) (presented : Nat) (detail : Nat) (s : State) (g : Fld) (h : logKeys g.key = false) : getF (jGroup ev seat serial presented detail s) g = getF s g := (jGroup_log ..).getF g h
@[simp] theorem isSet_jGroup (ev : Nat) (seat : Nat) (serial : Nat) (presented : Nat) (detail : Nat) (s : State) (g : Fld) (h : logKeys g.key = false) : isSet (jGroup ev seat serial presented detail s) g = isSet s g := (jGroup_log ..).isSet g h
@[simp] theorem reg_jGroup (ev : Nat) (seat : Nat) (serial : Nat) (presented : Nat) (detail : Nat) (s : State) (q : Nat) (h : logKeys q = false) : reg (jGroup ev seat serial presented detail s) q = reg s q := (jGroup_log ..).reg q h

@[simp] theorem getF_occurCp (k : Nat) (s : State) (g : Fld) (hk : k < 64) (h : logKeys g.key = false) :
    getF (occurCp k s) g = getF s g := (occurCp_log k s hk).getF g h
@[simp] theorem isSet_occurCp (k : Nat) (s : State) (g : Fld) (hk : k < 64) (h : logKeys g.key = false) :
    isSet (occurCp k s) g = isSet s g := (occurCp_log k s hk).isSet g h
@[simp] theorem reg_occurCp (k : Nat) (s : State) (q : Nat) (hk : k < 64) (h : logKeys q = false) :
    reg (occurCp k s) q = reg s q := (occurCp_log k s hk).reg q h

end Sys2Proof.Machine
end

