-- ==== Sys2Proof/Tests/Slice0.lean ====
section
/-! SUPPORT. Tests: witnesses that the hypotheses of the statements can be met, clause by clause, ill-formed terms that
WellFormed refuses, and worked cases of the spec. -/

set_option maxRecDepth 20000

open Sys2Proof Sys2Proof.Machine

namespace Sys2Proof.Tests

/-- Turns are counted: the PLL reports lock. -/
def sLock : State := setF fLock 1 State.reset

/-- Registers set one after the other. -/
def withF (xs : List (Fld × Nat)) (s : State) : State := xs.foldl (fun s x => setF x.1 x.2 s) s

theorem w_front : (({ State.reset with pending := [.pllLock, .refLost] } : State)).pending = .pllLock :: [.refLost] := by decide
theorem w_idle : State.reset.pending = [] ∧ isSet State.reset fLock = false ∧ isSet sLock fLock = true ∧ sLock.pending = [] ∧
    now sLock + 1 < nextTick sLock ∧ nextTick (updTime (fun x => { x with turn := 9599 }) sLock) ≤ 9599 + 1 := by decide
theorem w_canonical : State.reset.canonical := by unfold State.canonical; decide
theorem w_relock : isSet sLock fHold = false ∧ isSet (setF fHold 1 sLock) fHold = true := by decide
theorem w_length : supCore sLock .cp = true ∧ isSet sLock fGroupLock = false ∧ isSet (setF fGroupLock 1 sLock) fGroupLock = true ∧
    supCore (setF fGroupLock 1 sLock) .cp = true ∧ bitsOf 199 11 0 < 200 ∧ 4000 < bitsOf 4001 11 0 ∧ bitsOf 4000 11 0 = 4000 := by decide
theorem w_calendar : isSet sLock fOscFail = false ∧ sLock.cal.step = none ∧
    10000000 ≤ (updCal (fun c => { c with acc := 10000000 }) sLock).cal.acc + 2 * calTrim sLock ∧
    (updCal (fun c => { c with acc := -10000000 }) sLock).cal.acc + 2 * calTrim sLock ≤ -10000000 ∧
    (updCal (fun c => { c with step := some 5 }) sLock).cal.step = some 5 := by decide

theorem w_frame : (∃ t, exec .refLost sLock = .next t) ∧ Part.mem ∉ footprint .refLost := ⟨⟨_, rfl⟩, by decide⟩
theorem w_tick : isSet sLock fLock = true ∧ now sLock ≤ nextTick sLock ∧ sLock.time.pendLen = none ∧ isSet State.reset fLock = false := by decide
theorem w_tickLen : (updTime (fun x => { x with pendLen := some (200, 1) }) sLock).time.pendLen = some (200, 1) ∧ 1 ≤ frameNo sLock + 1 ∧
    frameNo sLock + 1 < 2 ∧ isMember sLock = false := by decide
/-- A member that has heard TICK 1. -/
def sHeard : State := updGroup (fun g => { g with heard := le 8 1 ++ List.replicate 26 0 })
  (withF [(fGrpValid, 1), (fGrpAdmitted, 1), (fGrpIndex, 1)] sLock)
theorem w_tickMember : isSet sHeard fLock = true ∧ isMember sHeard = true ∧ isSet sHeard fGrpAdmitted = true ∧
    sHeard.group.heard ≠ [] ∧ leAt sHeard.group.heard 0 8 = frameNo sHeard + 1 := by decide

/-- A host page that acts: tenant 1 is ACTIVE. -/
def sPage : State := withF [(fTState 1, 1), (fInTail 1, 65535), (fInHead 1, 65530)] sLock

theorem w_submit : pageUser .host 1 = true ∧ pageUser (.core .cp) 1 = true ∧ pageSt sPage 1 = .acts ∧
    [0xAB] ≠ ([] : List Byte) ∧ inFull sPage 1 = false := by decide
theorem w_submit_admin : pageUser .host 256 = true ∧ pageSt sPage 256 = .acts ∧ inFull sPage 256 = false := by decide
theorem w_submit_full : pageSt sPage 1 = .acts ∧ inFull (setF (fInHead 1) 65519 sPage) 1 = true := by decide
theorem w_page_closed : pageSt sLock 7 = .discard ∧ pageSt (setF (fTState 7) 3 sLock) 7 = .dormant ∧
    CoreId.thread 0 0 ≠ .cp := by decide
theorem w_mask : isSet (setF (fBellOut 1 0) 1 sPage) (fBellOut 1 0) = true ∧ isMember sPage = false ∧
    isSet sPage (bit (pageK 1 0xF00C) 0) = true ∧
    isSet (setF (bit (pageK 1 0xF00C) 0) 0 sPage) (bit (pageK 1 0xF00C) 0) = false := by decide

/-- Tenant 1 has two slots to place; its ring has two positions. -/
def sRel : State := updTen 1 (fun x => { x with released := [[1], [2]] }) (withF [(fOutTail 1, 65534), (fOutHead 1, 65520)] sPage)
theorem w_place : (ten sRel 1).released ≠ [] ∧ (ten sRel 1).gapNext = false ∧
    (ten sRel 1).released.length ≤ ringRoom sRel 1 + (240 - (ten sRel 1).backlog.length) := by decide
/-- One position of the ring is free for two slots. -/
def sRelBack : State := setF (fOutHead 1) 65519 sRel
theorem w_place_back : ringRoom sRelBack 1 = 1 ∧
    (ten sRelBack 1).released.length ≤ ringRoom sRelBack 1 + (240 - (ten sRelBack 1).backlog.length) := by decide
def sGap : State := updTen 1 (fun x => { x with released := [[1]], gapNext := true }) sRel
theorem w_place_gap : (ten sGap 1).released = [[1]] ∧ (ten sGap 1).gapNext = true ∧ 0 < ringRoom sGap 1 := by decide
def sLost : State := updTen 1 (fun x => { x with released := [[1]], backlog := List.replicate 240 (0, []) }) sRel
theorem w_place_lost : (ten sLost 1).released ≠ [] ∧ headMsg (ten sLost 1).released = ((ten sLost 1).released, []) ∧
    ringRoom sLost 1 + (240 - (ten sLost 1).backlog.length) < (ten sLost 1).released.length := by decide
theorem w_place_none : (ten sPage 1).released = [] := by decide
theorem w_outbox : castHolds (.thread 3 0) 3 sLock = none ∧ inWindow 3 (.thread 3 0) = true ∧
    supCore sLock (.thread 3 0) = true ∧ inWindow 4 (.thread 3 0) = false ∧
    supCore (updCore 60 (fun k => { k with ctx := { k.ctx with mode := 0 } }) sLock) (.lane 3 0) = false := by decide
def sBack : State := updTen 1 (fun x => { x with backlog := [(3, [7])] }) sPage
theorem w_backlog : min (ten sBack 1).backlog.length (ringFree sBack 1) = 1 := by decide

/-- A state whose tenant 1 is ACTIVE. -/
def sTen : State := withF [(fTState 1, 1)] sLock

/-- A tenant command of tenant 1. -/
def tcmd (d : Byte) (pl : List Byte) : TCmd := { tenant := 1, tag := 7, device := d, flags := 0, payload := pl }

/-- Device 0 of tenant 1 in a class and presentation, at port 4 in a state (5 lost, 3 active). -/
def sDev (c pr p : Nat) : State :=
  updDev 1 0 (fun x => { x with bound := true, cls := c, present := pr, port := 4, pst := p }) sTen

/-- A partner-side table: one machine with one input, for the operation with the code given, and one transition. -/
def imgOp (code : Byte) : List Byte :=
  List.replicate 8 0 ++ [0x34, 0x12, 0, 0, 0, 0, 2, 0] ++ List.replicate 16 0 ++ [4, 0, 1, 0, 128, 0, 0, 0, 28, 0, 0, 0] ++
  List.replicate 84 0 ++ [0, 2, 1, 0, 1, 0, 0, 0] ++ List.replicate 8 0 ++ [3, 0, code, 0] ++ [0, 0, 1, 0, 0, 0, 0, 0]

/-- The device's port has that table. -/
def sShot (c : Nat) (code : Byte) : State :=
  updPort 4 (fun x => { x with apt := 0x1234, major := 2 })
    (mapImages (fun _ => [(0, { bytes := imgOp code, active := true, old := false, swapAt := none })]) (sDev c 1 3))

theorem w_cmdOk : CmdOk sTen (tcmd 0xFF [2]) 1 ∧ (identify sTen 1 2).isSome = true ∧ CmdOk sTen (tcmd 0 [3]) 1 ∧
    2 < imgB [3] 0 := by decide
theorem w_devFree : CmdOk (sDev 1 1 3) (tcmd 0 [0]) 1 ∧ DevFree (sDev 1 1 3) (tcmd 0 [0]) ∧ imgB [0] 0 = 0 := by decide
theorem w_badArg : tActive sTen 1 = true ∧ tActive sTen 2 = false ∧ ((tcmd 0 [1]).payload.length < 32) ∧
    isDevOp 5 = true ∧ 16 ≤ (tcmd 16 []).device.toNat ∧ 16 ≤ (16 : Byte).toNat ∧
    52 < (List.replicate 53 (0 : Byte)).length := by decide

/-- The record of a device of class 3 without a port, and of a scanner at port 4. -/
def recDrawer : List Byte := [3, 1, 0xFF, 0xFF] ++ List.replicate 28 0
def recScanner : List Byte := [0, 0, 4, 0, 0, 0, 0, 0, 0, 0, 0, 0, 1] ++ List.replicate 19 0

/-- Port 4 is defined and granted to tenant 1. -/
def sBind : State := updPort 4 (fun x => { x with defined := true, grant := some 1 }) sTen
theorem w_bind : CmdOk sBind (tcmd 15 recScanner) 32 ∧ DevFree sBind (tcmd 15 recScanner) ∧
    stateCode (cmdDev sBind (tcmd 15 recScanner)) = 0 ∧ bindOk sBind 1 (padTo 32 recScanner) = true ∧
    portOf sBind (leAt recScanner 2 2) < 0xFFFF ∧ bindOk sTen 1 (padTo 32 recScanner) = false ∧
    CmdOk sTen (tcmd 15 recScanner) 32 ∧ CmdOk (sDev 1 1 5) (tcmd 0 recScanner) 32 := by decide
theorem w_unbind : CmdOk (sDev 1 1 5) (tcmd 0 []) 0 ∧ DevFree (sDev 1 1 5) (tcmd 0 []) ∧
    stateCode (cmdDev (sDev 1 1 5) (tcmd 0 [])) ≠ 0 ∧ pendingOneshots (sDev 1 1 5) 1 0 = [] ∧
    stateCode (cmdDev sTen (tcmd 0 [])) = 0 ∧ DevFree sTen (tcmd 0 []) := by decide
theorem w_raw : CmdOk (sDev 7 0 3) (tcmd 0 [1]) 0 ∧ DevFree (sDev 7 0 3) (tcmd 0 [1]) ∧
    isReady (stateCode (cmdDev (sDev 7 0 3) (tcmd 0 [1]))) = true ∧ (cmdDev (sDev 7 0 3) (tcmd 0 [1])).port ≠ 0xFFFF ∧
    txRoom (sDev 7 0 3) 4 1 = true ∧ isReady (stateCode (cmdDev (sDev 7 0 5) (tcmd 0 [1]))) = false ∧
    (cmdDev (sDev 1 1 3) (tcmd 0 [1])).present = 1 ∧ stateCode (cmdDev (sDev 1 1 3) (tcmd 0 [1])) ≠ 0 := by decide

/-- An emulated device whose tenant-side image names no format: its stream stays open. -/
def sEmu : State :=
  updDev 1 0 (fun x => { x with tapt := 0x1234, tmajor := 2 })
    (mapImages (fun _ => [(0, { bytes := imgOp 0, active := true, old := false, swapAt := none })]) (sDev 1 2 3))
theorem w_stream : CmdOk sEmu (tcmd 0 [1]) 0 ∧ DevFree sEmu (tcmd 0 [1]) ∧ (cmdDev sEmu (tcmd 0 [1])).present = 2 ∧
    stateCode (cmdDev sEmu (tcmd 0 [1])) ≠ 0 ∧ tenantSide sEmu (cmdDev sEmu (tcmd 0 [1])) = some (imgOp 0) ∧
    firstEnd (inFormats (imgOp 0)) ((cmdDev sEmu (tcmd 0 [1])).xbuf ++ [1]) = none := by decide
theorem w_resetGo : supCore sTen .cp = true ∧ (0x101 : Word).getLsbD 8 = true ∧ tActive sTen (bitsOf 0x101 7 0) = true ∧
    (0x1 : Word).getLsbD 8 = false ∧ tActive sTen (bitsOf 0x102 7 0) = false := by decide

/-- Tenant 1 is RESETTING and configured, and its function is enabled. -/
def sResetting : State :=
  updHost (fun h => { h with vfEnable := true, numVfs := 2 }) (updTen 1 (fun x => { x with configured := true })
    (withF [(fTState 1, 2), (fInTail 1, 5), (fGen 1, 65535), (fPwr 0, 0)] sLock))
theorem w_resetComplete : getF sResetting (fTState 1) = 2 ∧ (ten sResetting 1).configured = true ∧ vfOn sResetting 1 = true ∧
    fencedAll sResetting 1 = true ∧ getF sTen (fTState 1) ≠ 2 := by decide
theorem w_levelKept : ∀ p ∈ [((1 : Nat), 0x20), (5, 0x60), (4, 0x53)], ∀ m, msgInfo p.2 = some m →
    ClassOk (sDev p.1 1 5) (tcmd 0 [0, 0, 0]) p.2 m ∧ stateCode (cmdDev (sDev p.1 1 5) (tcmd 0 [])) = 5 := by decide
theorem w_shotTaken_setVars (vs : List (Nat × FVal)) (m : MachSt) : (setVars vs m).state = m.state := by
  induction vs generalizing m with
  | nil => rfl
  | cons v vs ih => rw [setVars, List.foldl_cons]; exact (ih _).trans (by unfold setVar; split <;> split <;> rfl)
theorem w_shotTaken : DevFree (sShot 4 0x53) (tcmd 0 [1]) ∧ stateCode (dev (sShot 4 0x53) 1 0) = 2 ∧
    ∃ a, opFire (sShot 4 0x53) (tcmd 0 [1]) 0x53 2 = some (true, a) ∧ a.out = [] ∧ a.lost = false := by
  refine ⟨by decide, by decide, ?_⟩
  unfold opFire loadOp
  generalize List.map _ _ ++ List.map _ _ = vs
  show ∃ a, fireSrc 1 0 0 3 0x53 (some 7) (updMach 1 0 0 (fun m => setVars vs m) (sShot 4 0x53)) = some (true, a) ∧ _
  have hs : sideImg (updMach 1 0 0 (fun m => setVars vs m) (sShot 4 0x53))
    (dev (updMach 1 0 0 (fun m => setVars vs m) (sShot 4 0x53)) 1 0) 0 = some (imgOp 0x53) := rfl
  have hi : machOf (imgOp 0x53) 0 = some (machAt (sec (imgOp 0x53) 4) 0) := rfl
  have hst : (machSt (dev (updMach 1 0 0 (fun m => setVars vs m) (sShot 4 0x53)) 1 0) 0).state = 0 :=
    w_shotTaken_setVars vs initMach
  have ht : (machAt (sec (imgOp 0x53) 4) 0).transFor 0 0 = some { src := 0, input := 0, dst := 1, nact := 0, rsv := 0, act := 0 } := rfl
  have hn : (machAt (sec (imgOp 0x53) 4) 0).inputNo 3 0x53 = some 0 := rfl
  simp only [fireSrc, hs, hi, hn, Option.map_some, fireNo, ctxOf, hst, ht]
  exact ⟨_, rfl, rfl, rfl⟩
/-- No partner-side image: nothing takes the operation. -/
theorem w_shotIgnored : ∀ a, opFire (sDev 4 1 3) (tcmd 0 [1]) 0x53 2 ≠ some (true, a) := by
  intro a
  rw [show opFire (sDev 4 1 3) (tcmd 0 [1]) 0x53 2 = none from rfl]
  simp

/-- A device that a sequence keeps BUSY. -/
def sBusy : State := updDev 1 0 (fun x => { x with seq := some { tag := 1, code := 0x21, timeoutUs := 5, sent := true, ends := none } }) (sDev 1 1 3)
theorem w_busy : CmdOk sBusy (tcmd 0 []) 0 ∧ DevFree sBusy (tcmd 0 []) ∧ stateCode (cmdDev sBusy (tcmd 0 [])) = 3 ∧
    (cmdDev (sDev 1 2 3) (tcmd 0 [])).present ≠ 1 := by decide

/-- A drawer with load channel 9, TRIPPED for a short. -/
def sDrawer : State := setF (fLcCause 9) 2 (updDev 1 0 (fun x => { x with bound := true, cls := 3, present := 1, chan := some 9 }) sTen)
theorem w_loadClear : CmdOk sDrawer (tcmd 0 []) 0 ∧ DevFree sDrawer (tcmd 0 []) ∧ (cmdDev sDrawer (tcmd 0 [])).chan = some 9 ∧
    lcState sDrawer 9 ≠ 5 ∧ stateCode (cmdDev sDrawer (tcmd 0 [])) = 2 ∧ (cmdDev sTen (tcmd 0 [])).chan = none ∧
    lcState (withF [(fLcState 9, 5), (fLcCause 9, 1)] sDrawer) 9 = 5 ∧
    getF (withF [(fLcState 9, 5), (fLcCause 9, 1)] sDrawer) (fLcCause 9) = 1 := by decide

/-- The cores of cluster 3 run in supervisor mode. -/
def sSup3 : State :=
  each [60, 61, 62, 63] (fun i => updCore i (fun k => { k with ctx := { k.ctx with mode := 1 } })) sTen

/-- Cores 0 and 1 of cluster 3 are a pair. -/
def sPairC : State := setF (fUp01 3) 1 sSup3

/-- Tenant 1 has an empty hand-off set; its device 0 has a sequence and a timer that end at turn 900. -/
def sHand : State :=
  updDev 1 0 (fun x => { x with seq := some { tag := 1, code := 0x21, timeoutUs := 5, sent := true, ends := some 900 },
                                pm := { x.pm with timers := [.off, .off, .off, .run 900] } })
    (updTen 1 (fun x => { x with handed := [{ frame := 0, items := [], slots := [], bells := 0 }] }) (sDev 1 1 3))
theorem w_handoff : (ten sHand 1).handed ≠ [] ∧ tActive sHand 1 = true ∧
    (∀ h ∈ (ten sHand 1).handed, h.items = [] ∧ h.slots = []) ∧
    (∀ d, d < 16 → (dev sHand 1 d).carried = [] ∧ (dev sHand 1 d).reapply = false) ∧ (ten sTen 1).handed = [] := by decide
theorem w_handoff_slot :
    let s := updTen 1 (fun x => { x with handed := [{ frame := 0, items := [], slots := [cmdSlot 1 (tcmd 0 [])], bells := 0 }] }) sTen
    (ten s 1).handed = [{ frame := 0, items := [], slots := [cmdSlot 1 (tcmd 0 [])], bells := 0 }] := by decide
theorem w_seqTimeout : ((dev sHand 1 0).seq.elim none (fun q => q.ends)) = some 900 ∧ dueNow sHand 900 = true := by decide
theorem w_machTimer : (machSt (dev sHand 1 0) 0).timers[3]? = some (.run 900) := by decide
theorem w_frameDone : castHolds (.thread 3 0) 3 sTen = none ∧ inWindow 3 (.thread 3 0) = true ∧
    supCore sTen (.thread 3 0) = true ∧ inWindow 3 (.lane 3 1) = true ∧ supCore sSup3 (.lane 3 1) = true ∧
    isPair sSup3 (runIx sSup3 (.lane 3 1)) = false ∧ inWindow 4 (.thread 3 0) = false := by decide
theorem w_frameDone_pair : isPair sPairC (runIx sPairC (.lane 3 0)) = true ∧ supCore sPairC (.lane 3 0) = true := by decide

/-- A table with one mode and one CONTACT probe without a request, attach by pad level, and loss after two misses. -/
def imgProbe : List Byte :=
  List.replicate 8 0 ++ [0x34, 0x12, 0, 0, 5, 0, 2, 0] ++ List.replicate 16 0 ++ [2, 0, 1, 0, 128, 0, 0, 0, 64, 0, 0, 0] ++
  List.replicate 84 0 ++ [1, 1, 0, 0, 9, 0, 0, 0, 2, 0xFF] ++ List.replicate 22 0 ++
  [0, 0, 0, 0, 8, 0, 0, 0xFF, 1, 0xFF, 0, 0, 0, 0, 0, 0] ++ [1, 0xFF, 0, 0, 0xFE, 3, 0, 0, 100, 0, 0, 0, 0, 0, 0, 0]

/-- The same with a format, which the link poll renders as one byte. -/
def imgPoll : List Byte :=
  List.replicate 8 0 ++ [0x34, 0x12, 0, 0, 5, 0, 2, 0] ++ List.replicate 16 0 ++
  [2, 0, 1, 0, 128, 0, 0, 0, 64, 0, 0, 0] ++ [3, 0, 1, 0, 192, 0, 0, 0, 48, 0, 0, 0] ++
  List.replicate 72 0 ++ [1, 1, 0, 0, 9, 0, 0, 0, 2, 0xFF] ++ List.replicate 22 0 ++
  [0, 0, 0, 0, 8, 0, 0, 0xFF, 1, 0xFF, 0, 0, 0, 0, 0, 0] ++ [1, 0xFF, 0, 0, 0xFE, 3, 0, 0, 100, 0, 0, 0, 0, 0, 0, 0] ++
  List.replicate 8 0 ++ [2, 0, 1, 0, 1, 0, 0, 0, 0, 1] ++ List.replicate 22 0 ++ [0, 1, 0, 0, 0, 0, 0x05, 0]

/-- Port 4 of pad group 0, served by a table, with changes of its record. -/
def sPort (img : List Byte) (f : PortSt → PortSt) : State :=
  updPort 4 (fun x => f { x with defined := true, pads := [2], thread := 1, apt := 0x1234, major := 2 })
    (mapImages (fun _ => [(0, { bytes := img, active := true, old := false, swapAt := none })]) sLock)

theorem w_attach : ∃ s, Served s 4 imgProbe ∧ (port s 4).state = 0 ∧ (port s 4).attachEnd = some 500 ∧ dueNow s 500 = true ∧
    Known s 4 imgProbe = false ∧ firstContact imgProbe = some 0 ∧
    Sendable imgProbe 0 (modeCmdset imgProbe (modeOf imgProbe 0 (nmodes imgProbe - 1))) :=
  ⟨sPort imgProbe (fun x => { x with attachEnd := some 500 }), by decide⟩
theorem w_attachLost : ∃ s, Served s 4 imgProbe ∧ (port s 4).state = 5 ∧ (port s 4).attachEnd = some 500 ∧ dueNow s 500 = true ∧
    Known s 4 imgProbe = true ∧
    Sendable imgProbe (verifyProbe imgProbe) (modeCmdset imgProbe (modeOf imgProbe (verifyProbe imgProbe) (settleOf s 4).mode)) :=
  ⟨writeBytes (portRecAt 4) (settleBytes { (settleOf State.reset 4) with apt := aptId imgProbe, major := aptMajor imgProbe, valid := true })
    (sPort imgProbe (fun x => { x with state := 5, attachEnd := some 500 })), by decide⟩
theorem w_attachNone : (port sLock 4).attachEnd = none ∧ (port sLock 4).tryAt = none ∧ (port sLock 4).probing = none := by decide
theorem w_attachTry : ∃ s, Served s 4 imgProbe ∧ (port s 4).state = 0 ∧ (port s 4).probing = none ∧
    (port s 4).tryAt = some 500 ∧ dueNow s 500 = true := ⟨sPort imgProbe (fun x => { x with tryAt := some 500 }), by decide⟩

/-- A probing that waits in a phase until turn 500, with retries left. -/
def bWait (ph : Phase) (n : Nat) : Probing :=
  { noProbing with phase := ph, win := some 500, left := n }
def sProbe (ph : Phase) (n : Nat) : State := sPort imgProbe (fun x => { x with state := 1, probing := some (bWait ph n) })
theorem w_probeWindow : portImg (sProbe (.contact 0) 1) 4 = some imgProbe ∧
    (port (sProbe (.contact 0) 1) 4).probing = some (bWait (.contact 0) 1) ∧ inExchange (bWait (.contact 0) 1) = true ∧
    dueNow (sProbe (.contact 0) 1) 500 = true ∧ Sendable imgProbe 0 0 := by decide
theorem w_switchGuard : (port (sProbe (.guardOk 0) 1) 4).probing = some (bWait (.guardOk 0) 1) ∧
    Sendable imgPoll 0 (modeCmdset imgPoll 0) ∧
    (port (sProbe (.guardBack 0) 1) 4).probing = some (bWait (.guardBack 0) 1) ∧
    Sendable imgProbe (bWait (.guardBack 0) 1).contact (modeCmdset imgProbe (bWait (.guardBack 0) 1).cur) ∧
    (port (sProbe .vGuard 1) 4).probing = some (bWait .vGuard 1) ∧
    Sendable imgProbe (modeConfirm imgProbe (settleOf (sProbe .vGuard 1) 4).mode)
      (modeCmdset imgProbe (settleOf (sProbe .vGuard 1) 4).mode) := by decide
theorem w_probeEnds : (bWait (.tryAttach 0) 0).left = 0 ∧ inExchange (bWait (.tryAttach 0) 0) = true ∧
    inExchange (bWait (.contact 0) 0) = true ∧ (∀ r, 0 < r → r ∈ probes imgProbe → probeContact imgProbe r = false) := by
  refine ⟨by decide, by decide, by decide, ?_⟩
  have h : probes imgProbe = [0] := by decide
  simp only [h, List.mem_singleton]
  omega

/-- A poll whose format the table lacks. -/
theorem w_pollFails : renderNo imgProbe (pollFmt imgProbe) (varsV0 0) (List.replicate 8 []) = none := by decide

/-- Port 4 is ACTIVE, with a poll period that began at turn 0, an open reply window and a low LOSS_PAD. -/
def sLive (missed : Nat) : State := sPort imgPoll (fun x =>
  { x with state := 3, pollBase := some 0, replyEnd := some 500, missed := missed, lossPadEnd := some 500 })
theorem w_poll : Served (sLive 0) 4 imgPoll ∧ (port (sLive 0) 4).pollBase = some 0 ∧ lossMisses imgPoll ≠ 0 ∧
    (port (sLive 0) 4).state = 3 ∧ dueNow (sLive 0) (0 + ((port (sLive 0) 4).pollK + 1) * usTurns (pollUs imgPoll)) = true ∧
    (renderNo imgPoll (pollFmt imgPoll) (varsV0 0) (List.replicate 8 [])).isSome = true := by decide
theorem w_reply : (port (sLive 0) 4).replyEnd = some 500 ∧ dueNow (sLive 0) 500 = true ∧
    (port (sLive 0) 4).missed + 1 < lossMisses imgPoll ∧ lossMisses imgPoll ≤ (port (sLive 1) 4).missed + 1 := by decide
theorem w_lossPad : (port (sLive 0) 4).lossPadEnd = some 500 := by decide

/-- Thread T1 of cluster 0, which serves port 4, is FAULTED since frame 0; frame 2 begins. -/
def sThrLoss : State :=
  updTime (fun x => { x with turn := 19200, cur := { x.cur with frame := 2, start := 19200 },
                             past := [{ x.cur with frame := 1, start := 9600 }, x.cur] })
    (updCore 1 (fun c => { c with faultTurn := some 700 }) (setF (fThrState 0 1) 3 (sLive 0)))
theorem w_thrLoss : (Machine.core sThrLoss 1).faultTurn = some 700 ∧ getF sThrLoss (fThrState 0 1) = 3 ∧ atTick sThrLoss = true ∧
    (frameAt sThrLoss 700).frame + 2 ≤ frameNo sThrLoss ∧
    (groupPorts sThrLoss 0).filter (fun q => (port sThrLoss q).thread = 1) = [4] := by decide

/-- Port 4 has an open packet of one byte, and a gap limit of one frame. -/
def oPkt : OpenPkt := { bytes := [{ val := 7, ninth := false, err := false, stamp := 0 }], lastEnd := 0, gapEnd := false, bad := false, chunks := [3], orphan := false, held := false, raw := [] }
def sGapPort : State := goTo 30000 (updTime (fun x => { x with cur := { x.cur with start := 28800, frame := 3 }, past := [x.cur] })
  (setF (fSlotGap 0 1 0) 2 (updFifo (fifoIx 0 1) (fun f => { f with open_ := [(0, oPkt)] }) (sLive 0))))
theorem w_gap : Tab.find (fifo sGapPort (fifoIx 0 1)).open_ 0 = some oPkt ∧ getF sGapPort (fSlotGap 0 1 0) ≠ 0 ∧
    charPending (caughtUp sGapPort 4) 4 oPkt.lastEnd (gapEndAt sGapPort 0 1 0 oPkt) = false ∧
    dueNow sGapPort (gapEndAt sGapPort 0 1 0 oPkt + portFilt sGapPort 4) = true := by decide
theorem w_program : (port (sPort imgProbe (fun x => { x with newProg := some 0 })) 4).newProg = some 0 ∧
    portIdle (sPort imgProbe (fun x => { x with newProg := some 0 })) 4 = true := by decide
/-- Pad group 15 is enabled, with its supply within range. -/
def sPgOk : State := withF [(fPgEnable 15, 1), (fVioOk 15, 1)] sLock
theorem w_noProgram : (port sLock 4).newProg = none ∧ Tab.find (fifo sLock (fifoIx 0 0)).open_ 0 = none := by decide
theorem w_pgRelease : atTick sPgOk = true ∧ holdCond sPgOk 15 = false ∧ holdCond sLock 15 = true := by decide
theorem w_vioFail : isSet (setF (fVioOk 15) 1 sLock) (fVioOk 15) = true ∧ isSet sLock (fVioOk 15) = false := by decide
def sBypass : State := sPort imgProbe (fun x => { x with state := 3, bypassReq := true, releaseReq := true, before := 6 })
theorem w_bypass : atTick sBypass = true ∧ (port sBypass 4).bypassReq = true ∧ (port sBypass 4).releaseReq = true := by decide

/-- Pad 3 of group 0 with its group released, in a mode, with changes of its state. -/
def sPad (mode : Nat) (f : PadSt → PadSt) : State :=
  updPad 3 f (mapPgOn (fun _ => [(0, true)]) (withF [(fPgEnable 0, 1), (fVioOk 0, 1), (fMode 3, mode), (fStartPol 3, 1)] sLock))

theorem w_rxStart : filterPass (sPad 1 id) 3 true = true ∧ saMode (sPad 1 id) 3 = 1 ∧ true = isSet (sPad 1 id) (fStartPol 3) ∧
    (pad (sPad 1 id) 3).cand = none ∧ (pad (sPad 1 id) 3).noStart ≤ now (sPad 1 id) - getF (sPad 1 id) (fFilt 3) ∧
    echoHit (sPad 1 id) 3 (now (sPad 1 id) - getF (sPad 1 id) (fFilt 3)) (getF (sPad 1 id) (fCount 3), bitClk (sPad 1 id) 3) = false ∧
    filterPass (sPad 1 id) 3 false = false := by decide
theorem w_edge : filterPass (sPad 5 (fun x => { x with level := true })) 3 false = true ∧
    saMode (sPad 5 (fun x => { x with level := true })) 3 = 5 := by decide

/-- A candidate word that began at turn 100, of 9 bits at 50 turns each, on a line whose level has been high since. -/
def sCand (ok : Bool) (lvl : Bool) : State :=
  sPad 1 (fun x => { x with level := lvl, hist := [(100, 100, lvl)], cand := some 100, candOk := ok, candCfg := (8, 50 * 256) })
theorem w_startBit : (pad (sCand false true) 3).cand = some 100 ∧ (pad (sCand false true) 3).candOk = false ∧
    dueNow (sCand false true) (rxCheckAt (sCand false true) 3 100) = true ∧
    bitAt (sCand false true) 3 (startCheck 100 (8, 50 * 256)) = isSet (sCand false true) (fStartPol 3) ∧
    bitAt (sCand false false) 3 (startCheck 100 (8, 50 * 256)) ≠ isSet (sCand false false) (fStartPol 3) := by decide
theorem w_rxWord : (pad (sCand true true) 3).candOk = true ∧
    dueNow (sCand true true) (rxCompleteAt (sCand true true) 3 100) = true := by decide
/-- Two clock edges have sampled the pad for a word of 2 bits. -/
def sSync : State := sPad 3 (fun x => { x with sync := [40, 60], candCfg := (1, 0), hist := [(50, 50, true)] })
theorem w_syncRx : saMode sSync 3 = 3 ∧ (pad sSync 3).sync[(pad sSync 3).candCfg.1]? = some 60 ∧
    dueNow sSync (60 + getF sSync (fFilt 3)) = true ∧ (pad sSync 3).rxq.length < 4 := by decide
theorem w_rxNone : (pad (sPad 1 id) 3).cand = none ∧ (pad (sPad 3 id) 3).sync[(pad (sPad 3 id) 3).candCfg.1]? = none := by decide
theorem w_padWriter : castHolds (.thread 0 0) (3 / 64) sLock = none ∧ padWriter sLock (.thread 0 0) 3 = true ∧
    castHolds (.thread 1 0) (3 / 64) sLock = none ∧ padWriter sLock (.thread 1 0) 3 = false ∧ padWriter sLock .cp 3 = false ∧
    isThread (.lane 0 1) = false ∧ coreCl (.thread 1 0) ≠ 3 / 64 := by decide
theorem w_rxRead : rxReader (sPad 1 (fun x => { x with rxq := [(5, 1, 2), (6, 3, 4)] })) (.thread 0 0) 3 = true ∧
    (pad (rxCatch 3 (now sLock) (sPad 1 (fun x => { x with rxq := [(5, 1, 2), (6, 3, 4)] }))) 3).rxq = [(5, 1, 2), (6, 3, 4)] ∧
    rxReader (sPad 1 id) (.thread 0 1) 3 = false := by decide
theorem w_saCtrl : sameOwner (sPad 1 id) 3 (bitsOf 5 29 24) = true ∧ sameOwner (sPad 1 id) 3 (bitsOf 5 21 16) = true ∧
    bitsOf 5 2 0 ≤ 5 ∧ bitsOf 5 2 0 ≠ getF (sPad 1 id) (fMode 3) ∧ bitsOf 1 2 0 = getF (sPad 1 id) (fMode 3) ∧
    sameOwner (setF (fOwner 4) 5 (sPad 1 id)) 3 (bitsOf 0x04000000 29 24) = false := by decide

/-- A transmit word, and a pad that shifts one out with driver-enable asserted since turn 90. -/
def txw (v : Word) : TxWord := { word := v, port := none, byte := { val := 0, last := false, msg := 0, rel := 0 }, err := false, own := false }
def sTx (q : List TxWord) (cur : Option TxWord) : State := sPad 2 (fun x =>
  { x with txq := q, cur := cur, launch := some 100, deAt := some 90, deEnd := some 300, streamS := 100, streamClk := 2560, curBits := 10 })
theorem w_txWrite : saMode (txCatch 3 (now (sPad 2 id)) (sPad 2 id)) 3 = 2 ∧
    (pad (txCatch 3 (now (sPad 2 id)) (sPad 2 id)) 3).txq.length < 4 ∧
    (pad (txCatch 3 (now (sPad 2 id)) (sPad 2 id)) 3).cur = none ∧ (pad (txCatch 3 (now (sPad 2 id)) (sPad 2 id)) 3).launch = none ∧
    saMode (txCatch 3 (now (sPad 0 id)) (sPad 0 id)) 3 ≠ 2 ∧ saMode (txCatch 3 (now (sPad 0 id)) (sPad 0 id)) 3 ≠ 4 := by decide
theorem w_txFull : 4 ≤ (pad (txCatch 3 0 (sTx [txw 1, txw 2, txw 3, txw 4] none)) 3).txq.length := by decide
theorem w_txLaunch : (pad (sTx [txw 1] none) 3).launch = some 100 ∧ (pad (sTx [txw 1] none) 3).txq = [txw 1] ∧
    dueNow (sTx [txw 1] none) 100 = true := by decide
theorem w_txEnd : (pad (sTx [] (some (txw 1))) 3).cur = some (txw 1) ∧ shiftEnd (sTx [] (some (txw 1))) 3 = some 200 ∧
    dueNow (sTx [] (some (txw 1))) 200 = true ∧ (pad (sTx [] (some (txw 1))) 3).deAt ≠ none := by decide
theorem w_deRelease : (pad (sTx [] none) 3).deEnd = some 300 ∧ (pad (sTx [] none) 3).deAt ≠ none ∧
    dueNow (sTx [] none) 300 = true := by decide
theorem w_txNone : (pad (sPad 2 id) 3).launch = none ∧ (pad (sPad 2 id) 3).cur = none ∧ (pad (sPad 2 id) 3).deEnd = none := by decide

/-- Channel 9 in a state, enabled, with changes of its record. -/
def sChan (st : Nat) (f : ChanSt → ChanSt) : State := updChan 9 f (withF [(fLcEnable 9, 1), (fLcState 9, st)] sLock)

/-- A command of the control processor staged at channel 9 for turn 700. -/
def stg (w : Word) : LcStaged := { word := w, tenant := none, tag := none, admin := false, due := some 700 }
def sStg (st : Nat) (w : Word) : State := sChan st (fun x => { x with staged := some (stg w) })

theorem w_acts : ∀ k : Fin 16, ActsAt (sStg 3 (BitVec.ofNat 32 k.val)) 9 (stg (BitVec.ofNat 32 k.val)) 700 k.val := by decide
theorem w_actForms : ∀ k : Fin 16, ∃ p ∈ actForms, p.2 k.val = true := by decide
/-- Channel 9 belongs to tenant 0, and the core at position 0 of cluster 0 is in supervisor mode. -/
def sLane : State := updCore (runIx sLock (.lane 0 0)) (fun x => { x with ctx := { x.ctx with mode := 1 } }) (setF (fLcOwnCp 9) 0 (sChan 0 id))
theorem w_lcLane : supCore sLane (.lane 0 0) = true ∧ supCore sLock (.lane 0 0) = false ∧ lcAttached sLane 9 = true ∧
    getF sLane (fLcTenant 9) / 16 = 0 := by decide
theorem w_noStaged : (chan (sChan 3 id) 9).staged = none ∧ dueNow (sStg 3 1) 700 = true ∧ dueNow (sStg 3 1) 9600 = false := by decide
theorem w_lcEnable : isSet (sStg 0 1) (fLcEnable 9) = true ∧ (∀ k : Fin 7, lcState (sStg k.val 1) 9 = k.val) := by decide
theorem w_lcTest : ActsAt (sStg 3 0x645) 9 (stg 0x645) 700 5 ∧ (chan (sStg 3 0x645) 9).mode = .steady ∧
    10 ≤ bitsOf 0x645 15 4 ∧ bitsOf 0x645 15 4 ≤ 100 ∧ isSet (sStg 3 0x645) (fLgSag 1) = false := by decide
theorem w_lcBlink : ActsAt (sStg 0 0x10014) 9 (stg 0x10014) 700 4 ∧ bitsOf 0x10014 15 4 ≠ 0 ∧ bitsOf 0x10014 27 16 ≠ 0 := by decide
theorem w_rejected : Rejected (setF (fLcEnable 9) 0 (sStg 0 3)) 9 (stg 3) 3 ∧ Rejected (sStg 3 9) 9 (stg 9) 9 ∧
    Rejected (sStg 5 2) 9 (stg 2) 2 ∧ Rejected (sStg 1 3) 9 (stg 3) 3 :=
  ⟨.inl (by decide), .inr (.inl (by decide)), .inr (.inr (.inl (by decide))), .inr (.inr (.inr (.inl (by decide))))⟩
theorem w_rejectedMore : Rejected (sStg 0 0x14) 9 (stg 0x14) 4 ∧ Rejected (sStg 3 0x655) 9 (stg 0x655) 5 ∧
    Rejected (setF (fLcCause 9) 4 (sStg 5 6)) 9 { stg 6 with tenant := some (0, 0) } 6 :=
  ⟨.inr (.inr (.inr (.inr (.inl ⟨rfl, .inr (by decide)⟩)))),
   .inr (.inr (.inr (.inr (.inr (.inl ⟨rfl, .inr (.inr (.inr (.inl (by decide))))⟩))))),
   .inr (.inr (.inr (.inr (.inr (.inr (by decide))))))⟩
theorem w_outrank : outranked (goTo 700 { sStg 3 1 with pending := [.shortTrip 9] }) 9 5 = true ∧
    (chan (sChan 3 (fun x => { x with staged := some (stg 1), outAt := some 700 })) 9).outAt = some 700 := by decide
/-- Channel 9, whose over run began at turn 0, as an OVER_FILT of 1 has it, with more changes. -/
def sOver (st : Nat) (xs : List (Fld × Nat)) : State :=
  withF ((fLcOverFilt 9, 1) :: (fld (lcK 9 0x44) 15 0, 5) :: (fLcNptsm1 9, 1) :: xs) (sChan st (fun x => { x with overAt := 0 }))
theorem w_trip : lcState (sOver 2 []) 9 = 2 ∧ max (now (sOver 2 [])) (overDue (sOver 2 []) 9) < inrushEnds (sOver 2 []) 9 ∧
    dueNow (sOver 2 []) (overDue (sOver 2 []) 9) = true ∧
    outranked (goTo (overDue (sOver 2 []) 9) (sOver 2 [])) 9 3 = false ∧
    outranked (goTo (overDue (sOver 2 []) 9) { sOver 2 [] with pending := [.shortTrip 9] }) 9 3 = true ∧
    lcDrive (sOver 3 []) 9 = true ∧ dueNow (sOver 3 []) (shortAt (sOver 3 []) 9) = true ∧
    dueNow (sOver 3 []) (overDue (sOver 3 []) 9) = true := by decide
theorem w_noTrip : lcState (sOver 3 []) 9 ≠ 2 ∧ lcState (sOver 2 []) 9 ≠ 3 ∧ lcDrive (sOver 1 []) 9 = false ∧
    lcState (sOver 2 []) 9 ∉ [0, 1, 5, 6] ∧ isSet (setF (fLcEnable 9) 0 (sOver 0 [])) (fLcEnable 9) = false := by decide

/-- The group of channel 9 has a sag code. -/
def sSag (st : Nat) (m : Nat) : State := withF [(fLgSagCode 1, 5), (fLgAbortMax 1, m)] (sOver st [])
theorem w_sag : getF (sSag 0 3) (fLgSagCode 1) ≠ 0 ∧ isSet (sSag 0 3) (fLgSag 1) = false ∧
    dueNow (sSag 0 3) (sagAt (sSag 0 3) 1) = true ∧
    (groupChans 1).filter (fun c => lcState (sSag 0 3) c = 2 && decide (max (now (sSag 0 3)) (sagAt (sSag 0 3) 1) <
      inrushEnds (sSag 0 3) c) && !outranked (goTo (sagAt (sSag 0 3) 1) (sSag 0 3)) c 2) = [] ∧
    (groupChans 1).filter (fun c => lcState (sSag 2 3) c = 2 && decide (max (now (sSag 2 3)) (sagAt (sSag 2 3) 1) <
      inrushEnds (sSag 2 3) c) && !outranked (goTo (sagAt (sSag 2 3) 1) (sSag 2 3)) c 2) = [9] := by decide
theorem w_sagMax : satAdd 15 (getF (sSag 2 3) (fLcAborts 9)) 1 < getF (sSag 2 3) (fLgAbortMax 1) ∧
    getF (sSag 2 1) (fLgAbortMax 1) ≤ satAdd 15 (getF (sSag 2 1) (fLcAborts 9)) 1 ∧
    isSet (setF (fLgSag 1) 1 (sSag 2 3)) (fLgSag 1) = true ∧ dueNow (setF (fLgSag 1) 1 (sSag 2 3)) (sagAt (sSag 2 3) 1) = true := by decide

/-- Channel 9 heads the queue of its group, with a profile of two points, or none. -/
def sQueue (ok : Bool) (e : Option Nat) : State :=
  updLGroup 1 (fun x => { x with queue := [9, 10], lastEnd := e })
    (withF (if ok then [(fLcNptsm1 9, 1), (fld (lcK 9 0x44) 15 0, 5)] else []) (sChan 1 id))
theorem w_grant : (lgroup (sQueue true none) 1).queue = [9, 10] ∧
    (∀ d ∈ groupChans 1, lcState (sQueue true none) d ≠ 2 ∧ isSet (sQueue true none) (fLcDischarging d) = false) ∧
    isSet (sQueue true none) (fLgSag 1) = false ∧ ptsOk 0 0 (lcProfile (sQueue true none) 9) = true ∧
    ptsOk 0 0 (lcProfile (sQueue false none) 9) = false := by decide
theorem w_grantGap : (lgroup (sQueue true (some 30)) 1).lastEnd = some 30 ∧
    dueNow (setF (fLgGap 1) 1 (sQueue true (some 30))) (30 + 4800 * getF (setF (fLgGap 1) 1 (sQueue true (some 30))) (fLgGap 1)) = true ∧
    dueNow (setF (fLgGap 1) 2 (sQueue true (some 30))) (30 + 4800 * getF (setF (fLgGap 1) 2 (sQueue true (some 30))) (fLgGap 1)) = false := by decide
theorem w_inrushEnd : lcState (sChan 2 id) 9 = 2 ∧ (chan (sChan 2 id) 9).phaseEnd = none ∧
    dueNow (sChan 2 id) (inrushEnds (sChan 2 id) 9) = true ∧
    outranked (goTo (inrushEnds (sChan 2 id) 9) (sChan 2 id)) 9 4 = false ∧
    outranked (goTo (inrushEnds (sChan 2 id) 9) { sChan 2 id with pending := [.shortTrip 9] }) 9 4 = true := by decide
theorem w_kickEnd : (chan (sChan 3 (fun x => { x with mode := .kick, phaseEnd := some 700 })) 9).mode = .kick ∧
    dueNow (sChan 3 (fun x => { x with mode := .kick, phaseEnd := some 700 })) 700 = true := by decide
theorem w_blinkOff : lcState (sChan 6 (fun x => { x with mode := .blink 1 2, phaseEnd := some 700 })) 9 = 6 ∧
    (chan (sChan 2 (fun x => { x with mode := .blink 1 2, phaseEnd := some 700 })) 9).phaseEnd = some 700 := by decide

/-- Channel 9 in TEST since turn 0, with the pattern commanded meanwhile. -/
def sTest (on : Bool) (m : Option LcMode) : State :=
  updTime (fun x => { x with cur := { x.cur with rounds := 4000 } }) (sChan 4 (fun x => { x with test := some (0, 10, on), next := m }))
theorem w_test : (chan (sTest false none) 9).test = some (0, 10, false) ∧ dueNow (sTest false none) (0 + 480 * 10) = true ∧
    (chan (sTest true (some (.blink 1 2))) 9).test = some (0, 10, true) ∧
    (chan (sTest true (some (.blink 1 2))) 9).next = some (.blink 1 2) ∧
    dueNow (sTest true none) (0 + 480 * 10 + 48000) = true := by decide

/-- Channel 9 tripped at turn 0 for INRUSH_OVER, with AUTO_RETRY; the frame in progress is that of the retry. -/
def sRetry (k : Bool) : State := updTime (fun x => { x with turn := 479999000, cur := { x.cur with start := 479999000 } })
  (withF [(fLcRetry 9, 1), (fLcCause 9, 2), (fLcRetries 9, 2)] (sChan 5 (fun x => { x with tripKick := k })))
theorem w_retry : lcState (sRetry true) 9 = 5 ∧ isSet (sRetry true) (fLcRetry 9) = true ∧ getF (sRetry true) (fLcCause 9) = 2 ∧
    getF (sRetry true) (fLcRetries 9) < 3 ∧ dueNow (sRetry true) ((chan (sRetry true) 9).tripAt + msTurns 1000) = true ∧
    (chan (sRetry false) 9).tripKick = false := by decide
theorem w_trace : (chan (sChan 2 (fun x => { x with trace := some [3] })) 9).trace = some [3] ∧
    dueNow (sChan 2 (fun x => { x with trace := some [3] })) (0 + 4800 * [3].length) = true := by decide
theorem w_gcfg : ∀ c ∈ groupChans 1, lcCfgOk (sChan 5 id) c = true := by decide
theorem w_lcCfg : lcCfgOk (sChan 5 id) 9 = true ∧ lcCfgOk (sChan 3 id) 9 = false ∧ 9 ∈ groupChans 1 ∧
    lcAttached (sChan 5 id) 9 = false ∧ lcDecoded 5 = false ∧ lcDecoded 31 = true := by decide
/-- Device 1 of tenant 2 is a bound generic device without a channel, and channel 9 is in use by a device. -/
def sAttach (st : Nat) : State := setF (fLcOwnCp 9) 0 (updDev 2 1 (fun x => { x with bound := true, cls := 8 }) (sChan st id))
theorem w_chanAttach : lcAttached (sAttach 5) 9 = true ∧ (dev (sAttach 5) (bitsOf 0x1020000 23 16) (bitsOf 0x1020000 27 24)).bound = true ∧
    lcClass (dev (sAttach 5) (bitsOf 0x1020000 23 16) (bitsOf 0x1020000 27 24)).cls = true ∧
    (dev (sAttach 5) (bitsOf 0x1020000 23 16) (bitsOf 0x1020000 27 24)).chan = none := by decide

/-- The engine is enabled and runs, over entry 0 of 2^21 blocks; the open segment began at turn 0. -/
def sJnl : State :=
  updTime (fun x => { x with turn := 480000000, cur := { x.cur with start := 479999000 } })
    (setReg 0x40000104 0x200000 (withF [(fJnlEnable, 1), (fJnlRunning, 1), (fNsValid 0, 1)] sLock))

/-- A closed segment, signed or not. -/
def gClosed (h : Option (List Byte)) : Seg := { Seg.first with seq := 7, header := h }
def sClosed (h : Option (List Byte)) : State := updJnl (fun j => { j with closed := [gClosed h], wptr := 0x10000 }) sJnl

theorem w_segClose : sJnl.journal.openSeg.map (fun g => g.openTurn) = some 0 ∧ isSet sJnl fJnlRunning = true ∧
    dueNow sJnl (0 + segTurns) = true ∧ limited sJnl = true ∧ streams sJnl = false := by decide
theorem w_segSign : (sClosed none).journal.closed = [] ++ gClosed none :: [] ∧ (gClosed none).header = none ∧
    isSet (sClosed none) fJnlRunning = true ∧ canPlace (sClosed none) 256 = true ∧
    canPlace (sClosed none) (2 ^ 48) = false := by decide
theorem w_segCommit : (sClosed (some [])).journal.closed = [gClosed (some [])] ∧ (gClosed (some [])).header.isSome = true ∧
    isSet (sClosed (some [])) fJnlRunning = true ∧ takers (sClosed (some [])) 0 ≠ [] ∧ 
    takers (setF (fNsState 0) 1 (sClosed (some []))) 0 = [] ∧ 0 < (primaries sJnl).length := by decide
theorem w_segNone : isSet sLock fJnlRunning = false ∧ limited sLock = false ∧ dueNow sJnl (1000000 + segTurns) = false := by decide
theorem w_jnlEnable : isSet sLock fJnlEnable = false ∧ isSet sLock fKeyfail = false ∧ (∀ n, n < 16 → mirrorOk sLock n = true) := by decide
theorem w_entryLocked : getF sJnl (fNsState 15) ≠ 1 ∧ isSet sJnl fJnlEnable = true ∧ isSet sLock fJnlEnable = false ∧
    isSet (setF fKeyfail 1 sLock) fKeyfail = true := by decide
theorem w_chainHead : isSet (setF fJnlRunning 0 sJnl) fJnlEnable = true ∧ isSet (setF fJnlRunning 0 sJnl) fJnlRunning = false := by decide
theorem w_driveFail : isSet sJnl (fNsValid 0) = true ∧ getF sJnl (fNsState 0) ≠ 1 ∧ getF (setF (fNsState 15) 2 sJnl) (fNsState 15) = 2 ∧
    getF (setF (fNsState 15) 1 sJnl) (fNsState 15) = 1 := by decide
theorem w_archMove : (updJnl (fun j => { j with archLo := 0x10000, wptr := 0x20000 }) sJnl).journal.archLo.toNat + 2 ^ 32 * bitsOf 0 15 0 < jnlSpace sJnl := by decide

/-- An apply is requested; the NEXT table gives every entry to thread 1, or one to T0. -/
def sApply (v : Word) : State :=
  setReg (winK 2 0x18) 0x11111111 (setReg (winK 2 0x14) 0x11111111 (setReg (winK 2 0x10) v
    (updClus 2 (fun c => { c with applyAt := some 0 }) sLock)))
theorem w_apply : (clus (sApply 0x10111111) 2).applyAt = some 0 ∧ atTick (sApply 0x10111111) = true ∧
    nextHasT0 (sApply 0x10111111) 2 = true ∧ nextHasT0 (sApply 0x11111111) 2 = false := by decide
theorem w_isT0OrCp : isT0OrCp 2 .cp = true ∧ isT0OrCp 2 (.thread 2 0) = true ∧ castHolds (.thread 2 0) 2 sLock = none ∧
    isT0OrCp 2 (.thread 2 1) = false ∧ castHolds (.thread 2 1) 2 sLock = none := by decide
theorem w_noApply : (clus sLock 2).applyAt = none ∧ atTick sLock = true ∧
    (clus (updClus 2 (fun c => { c with applyAt := some 1 }) sLock) 2).applyAt = some 1 ∧ frameNo sLock < 1 := by decide
theorem w_greedyOn : greedyAct sLock 2 = false ∧ bitsOf 0xB000 15 12 ≤ 11 ∧ getF sLock (fGreedy 2) = 0 ∧
    othersStopped (setF (fThrState 2 11) 1 sLock) 2 (bitsOf 0xB000 15 12) = true ∧
    othersStopped (setF (fThrState 2 10) 1 sLock) 2 (bitsOf 0xB000 15 12) = false := by decide
theorem w_greedyOff : isSet (setF (fGreedy 2) 1 sLock) (fGreedy 2) = true := by decide
theorem w_thread : thrWriter 2 11 (.thread 2 0) = true ∧ thrWriter 2 0 .cp = true ∧
    thrState sLock 2 11 = 0 ∧ thrState (setF (fThrState 2 11) 3 sLock) 2 11 = 3 ∧
    thrState (setF (fThrState 2 11) 2 sLock) 2 11 = 2 ∧ thrState (setF (fThrState 2 11) 1 sLock) 2 11 = 1 ∧
    longLast (setF (fThrState 2 11) 1 sLock) 2 11 = none ∧ thrWriter 2 0 (.thread 2 0) = false := by decide
theorem w_greedyAct : greedyAct (setF (fGreedyAct 2) 1 sLock) 2 = true ∧
    getF (setF (fGreedyAct 2) 1 sLock) (fGthread 2) ≠ 11 ∧ getF (setF (fGreedyAct 2) 1 sLock) (fGthread 2) = 0 := by decide
theorem w_noAlarm : (Machine.core sLock 43).alarm = none ∧ (Machine.core (updCore 43 (fun c => { c with risen := true }) sLock) 43).risen = true ∧
    dueNow sLock 9600 = false := by decide
/-- Source 12 of cluster 2, which has power, is enabled. -/
def sSrc : State := withF [(fSrcEn 2 12, 1), (fPwr 2, 0)] sLock
theorem w_alarmArm : (Machine.core sSrc 43).alarm = none ∧ isSet sSrc (fSrcEn 2 (1 + 11)) = true ∧ icDark sSrc 2 = false ∧
    Unserved sSrc 2 12 (now sSrc) := by decide
theorem w_alarm : ∃ s, (Machine.core s (16 * 2 + 11)).alarm = some 500 ∧ dueNow s 500 = true ∧
    (Machine.core s (16 * 2 + 11)).risen = false ∧ isSet s (fSrcEn 2 (1 + 11)) = true ∧ icDark s 2 = false ∧ Unserved s 2 12 500 :=
  ⟨updCore 43 (fun c => { c with alarm := some 500 }) sSrc, by decide⟩
theorem w_vbase : supCore sLock (.lane 0 0) = false ∧ castHolds .cp (coreCl .cp) sLock = none ∧ isThread .cp = false ∧ supCore sLock .cp = true ∧
    supCore (updCore 12 (fun c => { c with ctx := { c.ctx with mode := 1 } }) sLock) (.lane 0 0) = true := by decide
/-- A lock of the table with an owner. -/
def sOwned (k o : Nat) : State := mapLocks (fun t => Tab.put t k { owner := o, freed := none }) sLock
theorem w_lock : castHolds (.thread 15 3) 15 sLock = none ∧ inWindow 15 (.thread 15 3) = true ∧ inWindow 15 (.thread 14 3) = false ∧
    lockYields sLock (.thread 15 3) 15 63 = false ∧ lockOwner sLock (lockK 15 63) = none ∧
    lockYields { sLock with pending := [.lockAcquire (.thread 15 3) 15 63] } (.lane 15 3) 15 63 = true ∧
    (lockOwner (sOwned (lockK 15 63) 3) (lockK 15 63)).isSome = true ∧
    ownsLock (sOwned (lockK 15 63) 3) (lockK 15 63) (ownerCode sLock (.thread 15 3)) = true ∧
    ownsLock (sOwned (lockK 15 63) 4) (lockK 15 63) (ownerCode sLock (.thread 15 3)) = false := by decide
theorem w_chipLock : lockOwner sLock (chipK 255) = none ∧ (lockOwner (sOwned (chipK 255) 0x20) (chipK 255)).isSome = true ∧
    ownsLock (sOwned (chipK 255) 0x20) (chipK 255) (chipOwner sLock .cp) = true ∧
    ownsLock (sOwned (chipK 255) 4) (chipK 255) (chipOwner sLock .cp) = false := by decide

/-- Slot 7 of thread T11 of cluster 0 serves port 4 with pad 2; changes of the FIFO and of the port. -/
def sSlot (f : FifoSt → FifoSt) (g : PortSt → PortSt) : State :=
  withF [(fSlotValid 0 11 7, 1), (fSlotPort 0 11 7, 4)]
    (updFifo (fifoIx 0 11) f (updPort 4 (fun x => g { x with defined := true, pads := [2], thread := 11, slot := 7 }) sLock))
theorem w_push : slotOfPad (sSlot id id) 0 11 (bitsOf 0x20141 21 16) = some (7, 4) ∧
    Tab.find (fifo (sSlot id id) (fifoIx 0 11)).open_ 7 = none ∧ freeChunk (fifo (sSlot id id) (fifoIx 0 11)) = some 0 ∧
    castHolds (.thread 0 11) 0 (sSlot id id) = none ∧ slotOfPad sLock 0 11 (bitsOf 0x20141 21 16) = none := by decide
def oOne : OpenPkt := { bytes := [{ val := 0x41, ninth := false, err := false, stamp := 0 }], lastEnd := 0, gapEnd := false, bad := false, orphan := false, held := false, raw := [], chunks := [3] }
theorem w_rxfEnd : ∃ s, slotOfPad s 0 11 (bitsOf 0x20000 21 16) = some (7, 4) ∧
    Tab.find (fifo s (fifoIx 0 11)).open_ 7 = some oOne ∧ freeNotice (fifo s (fifoIx 0 11)) = some 0 ∧
    (port s 4).probing = none := ⟨sSlot (fun f => { f with open_ := [(7, oOne)] }) id, by decide⟩
theorem w_rxfEvent : slotOfPad (sSlot id id) 0 11 (bitsOf 0x20002 21 16) = some (7, 4) ∧ bitsOf 0x20002 3 0 = 2 ∧
    (port (sSlot id (fun x => { x with state := 1 })) 4).state = 1 ∧
    (port (sSlot id (fun x => { x with state := 6 })) 4).state = 6 ∧
    (port (sSlot id (fun x => { x with state := 6 })) 4).bypassed = false ∧
    (freeNotice (fifo (sSlot id id) (fifoIx 0 11))).isNone = false ∧
    (freeNotice { fifo sLock 11 with notices := (List.range 96).map (fun k =>
                                       (k, { slot := 0, kind := 0, code := 0, len := 0, pk := 0, turn := 0, chunks := [] })) }).isNone = true := by decide
/-- Position 1 of cluster 0 is in supervisor mode. -/
def sSup (s : State) : State := updCore 13 (fun c => { c with ctx := { c.ctx with mode := 1 } }) s
theorem w_supLane : supLane (sSup sLock) 0 (.lane 0 1) = true ∧ bitsOf 0xB5F 6 0 < 96 ∧ bitsOf 0xB5F 11 8 < 12 := by decide
theorem w_txfStage : supLane (sSup (sSlot id (fun x => { x with bound := some 18 }))) 0 (.lane 0 1) = true ∧
    bitsOf 0x7B010141 27 24 < 12 ∧ bitsOf 0x7B010141 16 16 = 1 ∧ bitsOf 0x7B000141 16 16 = 0 ∧
    (port (sSup (sSlot id (fun x => { x with bound := some 18 }))) (getF (sSlot id id) (fSlotPort 0 11 7))).bound = some 18 ∧
    txRoom (sSup (sSlot id (fun x => { x with bound := some 18 }))) 4 1 = true := by decide
def txb : TxByte := { val := 5, last := true, msg := 0, rel := 0 }
theorem w_txfEarly : now sLock < sLock.time.cur.start + 24 ∧ sLock.time.cur.start ≤ txb.rel := by decide
theorem w_slotOff : isSet (sSup sLock) (fSlotValid 0 11 7) = false ∧ supLane sLock 0 (.lane 0 1) = false ∧
    isSet (sSup (sSlot id id)) (fSlotValid 0 11 7) = true := by decide
theorem w_txfPop : txb.rel < (goTo 24 sLock).time.cur.start ∨ (goTo 24 sLock).time.cur.start + 24 ≤ now (goTo 24 sLock) := by decide
theorem w_txfPop2 : Tab.getD (fifo (sSlot (fun f => { f with tx := [(7, [txb, txb])] }) id) (fifoIx 0 11)).tx 7 [] = [txb, txb] := by decide

theorem w_sup : supCore sLock .cp = true ∧ supCore sLock (.thread 3 0) = true ∧ isT0OrCp 3 (.thread 3 0) = true ∧
    castHolds (.thread 3 0) 3 sLock = none ∧ isThread .cp = false ∧ supCore sLock (.lane 3 0) = false ∧
    isT0OrCp 3 (.lane 3 0) = false ∧ icReserved 3 25 = true := by decide
def sStack : State := updCore 256 (fun c => { c with stack := [(5, 7)], alarm := some 500 }) sLock
theorem w_raise : bitsOf 4 2 0 < runPri sStack 256 ∧ runPri sStack 256 ≤ bitsOf 5 2 0 := by decide
theorem w_icSet : (0x80 : Word).getLsbD 7 = true ∧ icLevel 3 7 = false ∧ icReserved 3 7 = false ∧
    Rises (withF [(fSrcEn 3 7, 1), (fPwr 3, 0)] sLock) 3 7 0 ∧ icReserved 3 63 = false ∧ icLevel 3 63 = false := by decide
theorem w_icSrc : getF (setF (fLatch 3 63) 1 sLock) (fSrcEn 3 63) = 0 ∧ isSet (setF (fLatch 3 63) 1 sLock) (fLatch 3 63) = true := by decide
theorem w_holdoff : Tab.find (mapHolds (fun t => Tab.put t 31 500) sLock).holds (8 * 3 + 7) = some 500 ∧ dueNow sLock 500 = true := by decide
theorem w_timer : (Machine.core sStack (coreIx .cp)).alarm = some 500 ∧ Rises (setF (fSrcEn 16 9) 1 sStack) 16 9 500 ∧
    (Machine.core sLock (coreIx .cp)).alarm = none ∧ Tab.find sLock.holds 31 = none := by decide
/-- Channel 31 of cluster 3 is enabled with its group and its interrupt; it takes software events. -/
def sEvr : State := withF [(fEvrEn 3 31, 1), (fEvrGrp 3 3, 1), (fEvrProd 3 31 24, 1), (fSrcEn 3 63, 1), (fPwr 3, 0)] sLock
theorem w_event : evExists sEvr 3 (now sEvr) 31 = true ∧ inHandover sEvr 3 = false ∧ Rises sEvr 3 (32 + 31) 1 ∧
    (clus sEvr 3).fired.contains (now sEvr, 31) = false ∧ isSet (setF (fPend 3 63) 1 sEvr) (fPend 3 (32 + 31)) = true ∧
    evExists sLock 3 (now sLock) 31 = false := by decide
theorem w_trigger : castHolds .cp 3 sEvr = none ∧ isSet sEvr (fEvrProd 3 31 24) = true ∧ bitsOf 0x11F 4 0 = 31 ∧
    bitsOf 0x11F 8 8 = 1 ∧ evrMayWrite sEvr .cp 3 31 = true ∧ bitsOf 0x1F 8 8 = 0 ∧ evrMayWrite sEvr (.thread 4 0) 3 31 = false := by decide
theorem w_evOut : (∀ c, c < 32 → isSet sEvr (fEvrProd 3 c 29) = true → getF sEvr (fEvrChsrc 3 c) ≠ 31) ∧
    pgHeld { withF [(fPgEnable 3, 1), (fVioOk 3, 1)] sEvr with pgOn := [(3, true)] } 3 = false ∧
    padIsSafe sEvr 192 = false ∧ saDrives sEvr 192 = false := by decide
/-- Cluster 3 is being castled. -/
def runCl3 : CastRun := { req := { unit := 0, reason := 2, cluster := 3, pos := 0 }, old := 3, new := 16, seq := 1, turn := 0, frame := 0, epoch := 0 }
theorem w_eventHeld : inHandover (updGuard (fun g => { g with run := some runCl3 }) sEvr) 3 = true := by decide
theorem w_evrCfg : isSet sEvr (fEvrLock 3 31) = false ∧ bitsOf 0x1E00 12 8 < 31 ∧ 31 ≤ bitsOf 0x1F00 12 8 ∧
    isSet (setF (fEvrLock 3 31) 1 sEvr) (fEvrLock 3 31) = true ∧ evrOwnMay sEvr .cp 3 31 0x80000000 = true ∧
    evrOwnMay sEvr (.thread 3 0) 3 31 0x80000000 = false ∧ bitsOf (hotBits sEvr (evrOwnK 3 31)) 29 29 = 0 := by decide

/-- Who issues what under AL, with no error: a thread, a lane core, the control processor. -/
def iOf (c : CoreId) : Issue := { core := c, cond := 0, agree := true, eccFetch := false, eccData := false }
/-- Thread T0 of cluster 3 is RUNNING, lane core 1 of cluster 3 and the control processor too, with changes of their
contexts. -/
def sRun (f : Ctx → Ctx) : State :=
  updHost (fun h => { h with cpRun := true }) (updCore 256 (fun c => { c with ctx := f c.ctx })
    (updCore 61 (fun c => { c with ctx := f c.ctx }) (updCore 48 (fun c => { c with ctx := f c.ctx })
      (withF [(fPwr 3, 0), (fThrState 3 0, 1)] sLock))))
theorem w_add : Ready (sRun id) (iOf (.thread 3 0)) (.r .add true 15 3 4) ∧ Ready (sRun id) (iOf .cp) (.r .adc true 15 3 4) ∧
    Ready (sRun id) (iOf (.lane 3 1)) (.r .sub true 15 3 4) ∧ Ready (sRun id) (iOf .cp) (.r .sbc true 15 3 4) := by decide
theorem w_logic : Ready (sRun id) (iOf .cp) (.r .and true 15 3 4) ∧ Ready (sRun id) (iOf .cp) (.r .or true 15 3 4) ∧
    Ready (sRun id) (iOf .cp) (.r .xor true 15 3 4) ∧ Ready (sRun id) (iOf .cp) (.r .andn true 15 3 4) ∧
    Ready (sRun id) (iOf .cp) (.r .mul true 15 3 4) ∧ Ready (sRun id) (iOf .cp) (.r .mov true 15 0 4) ∧
    Ready (sRun id) (iOf .cp) (.r .mvn true 15 0 4) := by decide
theorem w_compare : Ready (sRun id) (iOf .cp) (.r .cmp true 0 3 4) ∧ Ready (sRun id) (iOf .cp) (.r .tst true 0 3 4) ∧
    Ready (sRun id) (iOf .cp) (.r .clz true 15 3 0) ∧ Ready (sRun id) (iOf .cp) (.r .rev true 15 3 0) ∧
    Ready (sRun id) (iOf .cp) (.r .sxb true 15 3 0) ∧ Ready (sRun id) (iOf .cp) (.r .sxh true 15 3 0) := by decide
theorem w_shift : ∀ x ∈ ([.r .lsl true 15 3 4, .r .lsr true 15 3 4, .r .asr true 15 3 4, .r .ror true 15 3 4,
      .i .lsl true 15 3 33, .i .lsr true 15 3 33, .i .asr true 15 3 33, .i .ror true 15 3 33] : List Isi),
    Ready (sRun id) (iOf .cp) x := by decide
theorem w_immediate : ∀ x ∈ ([.i .add true 15 3 4, .i .sub true 15 3 4, .i .and true 15 3 4, .i .or true 15 3 4,
      .i .xor true 15 3 4, .i .cmp true 0 3 4, .i .tst true 0 3 4, .w .movi 15 0xFFFF, .w .movn 15 0xFFFF,
      .w .movhi 15 0xFFFF] : List Isi),
    Ready (sRun id) (iOf .cp) x := by decide
/-- g4 holds −1, or the trap on division by zero is set. -/
def cDiv (c : Ctx) : Ctx := setG 4 0xFFFFFFFF c
def cDzt (c : Ctx) : Ctx := { c with psw := 0x80 }
theorem w_divide : Ready (sRun cDiv) (iOf .cp) (.r .neg true 15 0 4) ∧ Ready (sRun cDiv) (iOf .cp) (.r .div true 14 3 4) ∧
    Ready (sRun cDiv) (iOf .cp) (.r .divu true 14 3 4) ∧ gr (runCtx (sRun cDiv) .cp) 4 ≠ 0 := by decide
theorem w_product : Ready (sRun cDiv) (iOf .cp) (.r .mull true 14 3 4) ∧ Ready (sRun cDiv) (iOf .cp) (.r .mullu true 14 3 4) ∧
    (15 : Reg).getLsbD 0 = true := by decide
theorem w_longOdd : Free (sRun id) (iOf .cp) ∧ (15 : Reg).getLsbD 0 = true ∧ Agreed (sRun id) (iOf .cp) ∧
    fetchTrap (iOf .cp) (runCtx (sRun id) .cp) true = none := by decide
/-- A STOP takes effect while a divide of T0 of cluster 3 runs. -/
def sStop : State := updCore 48 (fun c => { c with stopAt := some 200 }) (sRun id)
theorem w_longStopped : Free sStop (iOf (.thread 3 0)) ∧
    stopsWithin (.thread 3 0) (wordTurns (.thread 3 0) (runCtx sStop (.thread 3 0)) (.r .div true 14 3 4)) sStop = true := by decide
theorem w_divZero : gr (runCtx (sRun id) .cp) 4 = 0 ∧ (runCtx (sRun id) .cp).psw.getLsbD 7 = false ∧
    Ready (sRun id) (iOf .cp) (.r .div true 14 3 4) ∧ Ready (sRun id) (iOf .cp) (.r .divu true 14 3 4) ∧
    Ready (sRun cDzt) (iOf .cp) (.r .div true 14 3 4) ∧ Ready (sRun cDzt) (iOf .cp) (.r .divu true 14 3 4) ∧
    Agreed (sRun cDzt) (iOf .cp) ∧ (runCtx (sRun cDzt) .cp).psw.getLsbD 7 = true := by decide

/-- g3 points into the slice of T0 of cluster 3, g4 to the next word, g5 counts two iterations. -/
def cMem (c : Ctx) : Ctx := setG 3 0x23000100 (setG 4 0x23000200 (setG 5 2 (setG 6 0x23000300 c)))
def th30 : CoreId := .thread 3 0
theorem w_load : Ready (sRun cMem) (iOf th30) (.ld 0 true 15 3 0xFFF) ∧
    Readable (sRun cMem) (iOf th30) false (gr (runCtx (sRun cMem) th30) 3 + BitVec.ofInt 32 (0xFFF : BitVec 12).toInt).toNat 1 := by
  decide
theorem w_loadHigh : Readable (sRun cMem) (iOf th30) false 0x230FFFFC 4 := by decide
theorem w_loadReg : Ready (sRun (setG 3 0x23800600)) (iOf th30) (.ld 2 false 15 3 0) ∧ memAddr 0x23800600 = false ∧
    heldAt (sRun (setG 3 0x23800600)) 0x23800600 = false ∧
    readTrap (sRun (setG 3 0x23800600)) th30 false 0x23800600 4 = none := by decide
theorem w_loadTrap : readTrap (sRun cMem) th30 false 0x24000000 4 = some (2, 0x24000000) ∧
    readTrap (sRun cMem) th30 true 0x23000102 4 = some (3, 0x23000102) ∧ Agreed (sRun cMem) (iOf th30) := by decide
theorem w_store : Ready (sRun cMem) (iOf th30) (.st 2 5 3 1) ∧ Storable (sRun cMem) (iOf th30) 0x23000101 4 2 ∧
    Storable (sRun cMem) (iOf th30) 0x23000100 1 2 := by decide
theorem w_memCompare : Ready (sRun cMem) (iOf th30) (.cmpx false 3 4 4) ∧ Ready (sRun cMem) (iOf th30) (.cmpx true 3 4 4) ∧
    Readable (sRun cMem) (iOf th30) true 0x23000204 4 := by decide
/-- A unit that repeats `x` under NV, counted by g5. -/
def unitOf (x : Isi) : RepUnit := { word := encode 0x1 x, rc := 5, left := 0 }
def iNv : Issue := { iOf th30 with cond := 0x1 }
def sUnit (x : Isi) : State := sRun (fun c => { cMem c with unit := some (unitOf x), begun := true })
theorem w_bcopy : Armed (sUnit (.blk .copy 2 0 4 3 0)) iNv (.blk .copy 2 0 4 3 0) (unitOf (.blk .copy 2 0 4 3 0)) ∧
    Readable (sUnit (.blk .copy 2 0 4 3 0)) iNv false 0x23000100 4 ∧
    Storable (sUnit (.blk .copy 2 0 4 3 0)) iNv 0x23000200 4 0 := by decide
theorem w_bfill : Armed (sUnit (.blk .fill 1 0 4 0 3)) iNv (.blk .fill 1 0 4 0 3) (unitOf (.blk .fill 1 0 4 0 3)) ∧
    Storable (sUnit (.blk .fill 1 0 4 0 3)) iNv 0x23000200 2 0x23000100 := by decide
theorem w_crcb : Armed (sUnit (.blk .crc 0 9 4 3 0)) iNv (.blk .crc 0 9 4 3 0) (unitOf (.blk .crc 0 9 4 3 0)) ∧
    Readable (sUnit (.blk .crc 0 9 4 3 0)) iNv false 0x23000100 1 := by decide
theorem w_tstep : Armed (sUnit (.blk .step 0 0 4 3 6)) iNv (.blk .step 0 0 4 3 6) (unitOf (.blk .step 0 0 4 3 6)) ∧
    Readable (sUnit (.blk .step 0 0 4 3 6)) iNv false 0x23000100 1 ∧
    Readable (sUnit (.blk .step 0 0 4 3 6)) iNv false 0x23000300 1 := by decide
theorem w_legal : (Isi.ld 0 true 15 3 0xFFF).legal = true ∧
    decodeWord 0x0031F10A = none ∧ decodeWord 0x00021340 = some (0, .r .add true 1 3 4) := by decide

def cSup (c : Ctx) : Ctx := { cMem c with mode := 1, epc := 0x8000, enpc := 0x9000, epsw := 0xA0000040 }
theorem w_branch : Ready (sRun cMem) (iOf .cp) (.br false 0xFFFFFF) ∧ Ready (sRun cMem) (iOf th30) (.br true 2) ∧
    Ready (sRun cMem) (iOf .cp) (.jr 3) ∧ Ready (sRun cMem) (iOf .cp) (.jlr 3 3) ∧
    (gr (runCtx (sRun cMem) .cp) 3).toNat % 4 = 0 ∧ (gr (runCtx (sRun cMem) .cp) 5).toNat % 4 ≠ 0 ∧
    Ready (sRun cMem) (iOf .cp) (.jr 5) ∧ Ready (sRun cMem) (iOf .cp) (.jlr 4 5) := by decide
theorem w_branchNot : Free (sRun cMem) iNv ∧
    fetchTrap iNv (runCtx (sRun cMem) th30) (legalHere th30 (runCtx (sRun cMem) th30) (.br true 2)) = none ∧
    condHolds (runCtx (sRun cMem) th30).psw iNv.cond = false := by decide
theorem w_nop : Ready (sRun cMem) (iOf .cp) .nop ∧ decodeWord ((iOf .cp).cond ++ (0xC000000 : BitVec 28)) = none ∧
    decodeWord ((iOf .cp).cond ++ (0x8000000 : BitVec 28)) = some (0, .nop) ∧
    fetchTrap (iOf .cp) (runCtx (sRun cMem) .cp) true = none := by decide
theorem w_special : Ready (sRun cSup) (iOf .cp) (.mfs 7 1) ∧ Ready (sRun cSup) (iOf .cp) (.mts 4 3) ∧
    (runCtx (sRun cSup) .cp).mode.getLsbD 0 = true ∧ (runCtx (sRun cSup) .cp).pc ≠ (runCtx (sRun cSup) .cp).lend ∧
    Ready (sRun cSup) (iOf .cp) .rete ∧ Ready (sRun cSup) (iOf .cp) (.fli 3) ∧ Ready (sRun cSup) (iOf .cp) .fence ∧
    Ready (sRun cSup) (iOf .cp) .wait ∧ Ready (sRun cSup) (iOf .cp) (.svc 0xFF) ∧ Agreed (sRun cSup) (iOf .cp) := by decide
theorem w_userMfs : Ready (sRun (fun c => { c with mode := 0 })) (iOf .cp) (.mfs 7 3) ∧
    (runCtx (sRun (fun c => { c with mode := 0 })) .cp).mode.getLsbD 0 = false := by decide
theorem w_userTraps : Ready (sRun (fun c => { c with mode := 0 })) (iOf .cp) .wait ∧
    Ready (sRun (fun c => { c with mode := 0 })) (iOf .cp) .rete ∧ Ready (sRun (fun c => { c with mode := 0 })) (iOf .cp) (.mts 4 3) ∧
    Agreed (sRun (fun c => { c with mode := 0 })) (iOf .cp) := by decide
/-- A handover holds a store of the control processor toward cluster 5. -/
def sHeld : State := castHold 5 .cp false { addr := 0x25000000, size := 4, data := 1 } (sRun cSup)
theorem w_fence : (∀ n, n < 16 → (clus (sRun cSup) n).held = []) ∧ Ready sHeld (iOf .cp) .fence ∧
    (∃ h ∈ (clus sHeld 5).held, h.read = false ∧ h.core = coreIx .cp) := by decide
theorem w_repeat : Free (sRun cMem) (iOf th30) ∧ fetchOk th30 (runCtx (sRun cMem) th30).pc.toNat = true ∧
    fetchOk th30 ((runCtx (sRun cMem) th30).pc + 4).toNat = true ∧
    (runCtx (sRun cMem) th30).pc ≠ (runCtx (sRun cMem) th30).lend ∧ repOk 5 (encode 1 (.blk .copy 2 0 4 3 0)) = true ∧
    (runCtx (sRun cMem) th30).begun = false ∧ gr (runCtx (sRun cMem) th30) 5 ≠ 0 ∧ gr (runCtx (sRun cMem) th30) 7 = 0 ∧
    repOk 7 (encode 1 (.blk .copy 2 0 4 3 0)) = true := by decide
theorem w_loop : Ready (sRun cMem) (iOf .cp) (.loop 5 0xFFF) ∧ gr (runCtx (sRun cMem) .cp) 5 ≠ 0 ∧
    gr (runCtx (sRun cMem) .cp) 7 = 0 := by decide
/-- The control processor's timer source is pending and presented. -/
def sInt (f : Ctx → Ctx) : State := withF [(fSrcEn 16 9, 1), (fPend 16 9, 1)] (sRun f)
theorem w_interrupt : presented (sInt id) .cp = some (0, 9) ∧ canRecognise (sInt id) .cp 9 = true ∧
    (runCtx (sInt id) .cp).psw.getLsbD 6 = true ∧ recognition (sInt id) .cp (runCtx (sInt id) .cp) = true ∧
    (compared (sInt id) .cp && !true) = false ∧ presented (sRun id) .cp = none := by decide
theorem w_wake : presented (sInt (fun c => { c with waiting := true })) .cp = some (0, 9) ∧
    canRecognise (sInt (fun c => { c with waiting := true })) .cp 9 = true ∧
    presented (sInt (fun c => { c with waiting := true, psw := 0x10 })) .cp = some (0, 9) ∧
    canRecognise (sInt (fun c => { c with waiting := true, psw := 0x10 })) .cp 9 = true := by decide
theorem w_lineFill : isThread (.lane 15 3) = false ∧ (0x00FFFFE4 : Word).toNat < 0x01000000 ∧
    (clus sLock (coreCl (.lane 15 3))).lines.any (fun l => l.1 = lineOf 0x00FFFFE4) = false := by decide

/-- A slot of the administration page with this payload. -/
def adm (b : List Byte) : ACmd := { tag := 7, payload := b, hostBytes := none }
/-- The head of a group of two, whose second chip is in seat 0x11. -/
def sTwo : State :=
  updGroup (fun g => { g with seats := [{ seat := 0x11, serial := 1, epoch := 1, occupied := true, admitAt := none }] })
    (setF (fDrnState 1) 2 (setF (fDrnState 2) 2 (setF fGrpHead 1 (setF fGrpValid 1 sLock))))
theorem w_admTurned : (setAdmin (some { op := 0x41, tag := 1, key := 0, drop := false }) sLock).admin.isSome = true ∧
    sLock.admin = none ∧ (adm [0]).payload.length < 2 ∧ 52 < (adm (List.replicate 53 0)).payload.length := by decide
theorem w_admForward : isHead sTwo = true ∧ seatOfIndex sTwo (leAt [0, 2, 1, 1] 0 2 / 256) = some 0x11 ∧
    256 ≤ leAt [0, 2, 1, 1] 0 2 ∧ AdmOk sTwo (adm [0, 2, 1, 1]) 4 ∧ drnUp sTwo (routePort sTwo 0x11) = true ∧
    seatOfIndex sTwo (leAt [0, 8, 1, 1] 0 2 / 1024) = some 0x11 ∧ 1024 ≤ leAt [0, 8, 1, 1] 0 2 := by decide
theorem w_tenantConfig : AdmOk sLock (adm [0xFF, 0, 1, 1]) 4 ∧ Local sLock (adm [0xFF, 0, 1, 1]) 256 ∧
    Local sTwo (adm [0xFF, 0, 1, 1]) 256 ∧ getF sLock (fTState 255) = 0 ∧
    getF (setF (fTState 255) 1 sLock) (fTState 255) = 1 ∧ 2 ≤ getF (setF (fTState 255) 3 sLock) (fTState 255) ∧
    imgB [0xFF, 0, 1, 1] 3 ≠ getF (setF (fTState 255) 1 sLock) (fGuarded 255) ∧
    imgB [0xFF, 0, 1, 0] 3 = getF (setF (fTState 255) 1 sLock) (fGuarded 255) ∧ 256 ≤ leAt [0, 1, 1, 1] 0 2 ∧
    getF (setF (fTState 255) 2 sLock) (fTState 255) = 2 ∧ AdmRoom sLock := by decide
/-- Port 4 of pad group 0 on thread 1 takes pad 2 of a table with a partner side. -/
def imgPartner : List Byte := patch imgPoll 6 [1]
def sAdm (f : PortSt → PortSt) : State := sPort imgPartner f
def bDef : List Byte := [1, 1, 5, 0xFF, 0xFF, 0xFF, 0xFF, 0xFF, 0xFF, 0xFF, 3, 0, 2, 0, 0, 0] ++ [0x34, 0x12, 0, 0, 2, 0]
theorem w_portDefine : AdmOk (sAdm id) (adm bDef) 22 ∧
    activeImg (sAdm id) (leAt bDef 16 4) (leAt bDef 20 2) = some imgPartner ∧
    defOk bDef = true ∧ aptPartner imgPartner = true ∧ padsCover imgPartner 1 = true ∧
    (groupPorts (sAdm id) 1).any (fun p => (port (sAdm id) p).pads.any (fun i => [5].contains i)) = false ∧
    freeSlot (sAdm id) 1 2 = some 0 ∧ areaFits (sAdm id) 1 2 (activeIx (sAdm id) 0x1234 2) 69 = true := by decide
/-- Thread 2 of cluster 1 has no slot left, and its area is full. -/
def sFull : State := updFifo (fifoIx 1 2) (fun f => { f with area := [(0, 32769, 200)] }) (sAdm id)
theorem w_portRefuse : activeImg sLock (leAt bDef 16 4) (leAt bDef 20 2) = none ∧ defOk (bDef.set 12 (12 : Byte)) = false ∧
    areaFits sFull 1 2 (activeIx sFull 0x1234 2) 69 = false ∧
    freeSlot ((List.range 8).foldl (fun s j => setF (fSlotValid 1 2 j) 1 s) (sAdm id)) 1 2 = none := by decide
theorem w_portAgain : (port (updPort 69 (fun x => { x with pads := [5, 6] }) (sAdm id)) 69).pads ≠ [] := by decide
theorem w_port : AdmOk (sAdm id) (adm [4, 0, 2, 0]) 4 ∧ Local (sAdm id) (adm [4, 0, 2, 0]) 1024 ∧
    (admPort (sAdm id) (adm [4, 0, 2, 0])).defined = true ∧ (admPort (sAdm id) (adm [4, 0, 2, 0])).bound = none ∧
    (admPort (sAdm id) (adm [5, 0, 2, 0])).defined = false ∧ 1024 ≤ leAt [0, 4] 0 2 ∧
    (admPort (sAdm (fun x => { x with bound := some 17 })) (adm [4, 0, 2, 0])).bound ≠ none ∧
    (admPort (sAdm (fun x => { x with state := 3 })) (adm [4, 0])).state = 3 ∧
    (admPort (sAdm (fun x => { x with state := 4 })) (adm [4, 0])).state = 4 ∧
    (admPort (sAdm (fun x => { x with bypassed := true })) (adm [4, 0])).bypassed = true ∧
    leAt [4, 0, 0, 2] 2 2 = 512 ∧ isSet sTwo fGrpValid = true ∧ isSet (sAdm id) fGrpValid = false := by decide
theorem w_portApt : activeImg (sAdm id) 0x1234 2 = some imgPartner ∧ activeImg (sAdm id) 0x1234 3 = none ∧
    aptPartner imgPartner = true ∧ aptPartner imgPoll = false ∧ padsCover imgPartner 1 = true ∧
    Rebinds (sAdm (fun x => { x with major := 1 })) 4 2 imgPartner ∧
    ¬ Rebinds (updFifo (fifoIx 0 1) (fun f => { f with area := [(0, 32769, 300)] }) (sAdm (fun x => { x with major := 1 }))) 4 2 imgPartner := by
  decide
/-- A staged image beside the active one. -/
def sImg (im : ImageSt) (act : Bool) : State :=
  mapImages (fun _ => (if act then [(0, { bytes := imgPoll, active := true, old := false, swapAt := none })] else []) ++ [(1, im)]) sLock
def imNew : ImageSt := { bytes := patch imgPoll 12 [9], active := false, old := false, swapAt := none }
def bNew : List Byte := [0x34, 0x12, 0, 0, 2, 0, 9, 0]
theorem w_aptStage : AdmOk sLock { adm (List.replicate 12 0) with hostBytes := some [] } 12 ∧
    leAt (List.replicate 12 (0 : Byte)) 8 4 ≤ ([] : List Byte).length ∧
    ([] : List Byte).length < leAt (List.replicate 12 (1 : Byte)) 8 4 := by decide
theorem w_aptActivate : namedImg (sImg imNew false) bNew = some (1, imNew) ∧ namedImg sLock bNew = none ∧
    activeImg (sImg imNew false) (aptId imNew.bytes) (aptMajor imNew.bytes) = none ∧ imNew.active = false := by decide
theorem w_aptOthers : ∃ s, namedImg s bNew = some (1, imNew) ∧ 4 ∈ portIds s ∧
    (port s 4).apt = aptId imNew.bytes ∧ (port s 4).major ≠ aptMajor imNew.bytes :=
  ⟨mapImages (fun _ => [(1, imNew)]) (sAdm (fun x => { x with major := 1 })), by decide⟩
theorem w_aptMinor : ∃ old, namedImg (sImg imNew true) bNew = some (1, imNew) ∧
    activeImg (sImg imNew true) (aptId imNew.bytes) (aptMajor imNew.bytes) = some old ∧ minorOk old imNew.bytes = true ∧
    Replaceable (sImg imNew true) imNew.bytes = true := ⟨imgPoll, by decide⟩
/-- The image of the witness asks for a format more than the active one. -/
def imBad : ImageSt := { imNew with bytes := patch imNew.bytes 6 [1] }
theorem w_aptWorse : minorOk imgPoll imBad.bytes = false ∧ namedImg (sImg imBad true) bNew = some (1, imBad) := by
  decide
theorem w_aptFull : ∃ s, namedImg s bNew = some (1, imNew) ∧ Replaceable s imNew.bytes = false :=
  ⟨mapImages (fun _ => [(0, { bytes := imgPartner, active := true, old := false, swapAt := none }), (1, imNew)])
    (updFifo (fifoIx 0 1) (fun f => { f with area := [(0, 32769, 200)] }) (sAdm id)), by decide⟩
theorem w_aptKept : ∃ s, namedImg s bNew = some (0, { imNew with active := true }) ∧
    tableUsed s (aptId imNew.bytes) (aptMajor imNew.bytes) = true :=
  ⟨mapImages (fun _ => [(0, { imNew with active := true })]) (sAdm id), by decide⟩
theorem w_time : AdmOk sLock (adm [200, 0, 0, 1]) 4 ∧ isSet sLock fGroupLock = false ∧ 200 ≤ leAt [200, 0, 0, 1] 0 2 ∧
    leAt [160, 15, 0, 1] 0 2 ≤ 4000 ∧ imgB [160, 15, 7, 3] 3 = 3 ∧ imgB [0, 0, 7, 2] 3 = 2 ∧ 3 < imgB [0, 0, 0, 4] 3 ∧
    isSet (setF fGroupLock 1 sLock) fGroupLock = true ∧ leAt [199, 0, 0, 1] 0 2 < 200 ∧ 4000 < leAt [161, 15, 0, 1] 0 2 ∧
    -2000 ≤ signedOf 16 (leAt [0x30, 0xF8] 0 2) ∧ signedOf 16 (leAt [0xD0, 7] 0 2) ≤ 2000 ∧
    signedOf 16 (leAt [0x2F, 0xF8] 0 2) < -2000 ∧ 2000 < signedOf 16 (leAt [0xD1, 7] 0 2) ∧
    imgB [0, 0, 0, 0, 0, 0, 0, 0, 1] 8 ≤ 1 ∧ 1 < imgB [0, 0, 0, 0, 0, 0, 0, 0, 2] 8 := by decide

def bCurve : List Byte := [2, 0, 0, 0] ++ [0, 0, 255, 0, 100, 0, 0, 0] ++ List.replicate 56 0
theorem w_lcConfig : AdmOk sLock (adm (127 :: 0 :: List.replicate 18 0)) 20 ∧ lcCfgOk sLock 127 = true ∧ imgB (128 :: 0 :: List.replicate 18 0) 0 = 128 ∧
    (∀ d ∈ groupChans 15, lcCfgOk sLock d = true) ∧ lcCfgOk (setF (fLcState 127) 3 sLock) 127 = false ∧
    (groupChans 15).find? (fun d => !lcCfgOk (setF (fLcState 126) 3 sLock) d) = some 126 := by decide
theorem w_lcProfile : bCurve.length = 68 ∧ curveOk bCurve = true ∧ imgB bCurve 1 = 0 ∧
    AdmOk sLock { adm (127 :: List.replicate 11 0) with hostBytes := some bCurve } 12 := by decide
theorem w_lcProfileRefuse : activeImg sLock 0x1234 2 = none ∧ activeImg (sAdm id) 0x1234 2 = some imgPartner ∧
    secCount imgPartner 6 ≤ 0 ∧ curveOk (1 :: bCurve.drop 1) = false ∧ imgB (bCurve.set 2 (1 : Byte)) 2 ≠ 0 := by decide
theorem w_lcAttach : ∃ s, AdmOk s (adm [127, 255, 0, 15]) 4 ∧ (dev s 255 15).bound = true ∧ lcClass (dev s 255 15).cls = true ∧
    (dev s 255 15).chan = none ∧ lcAttached s 127 = false ∧ lcState s 127 = 0 :=
  ⟨updDev 255 15 (fun d => { d with bound := true, cls := 5 }) sLock, by decide⟩
theorem w_lcAttachRefuse : ∃ s, (dev s 255 15).bound = true ∧ lcClass (dev s 255 15).cls = true ∧ (dev s 255 15).chan = some 3 ∧
    lcAttached s 127 = false ∧ lcCfgOk s 127 = true ∧ lcAttached (setF (fLcOwnCp 127) 0 s) 127 = true ∧ (dev s 255 14).bound = false :=
  ⟨updDev 255 15 (fun d => { d with bound := true, cls := 5, chan := some 3 }) sLock, by decide⟩
theorem w_lcCommand : AdmOk sLock (adm [127, 15, 0xFF, 0x0F, 0xFF, 0x0F]) 6 ∧ leAt [127, 15, 0xFF, 0x0F, 0xFF, 0x0F] 4 2 < 4096 ∧
    16 ≤ imgB [127, 16, 0, 0, 0, 0] 1 := by decide
/-- The engine runs over one entry. -/
def sJrn : State := setReg 0x40000104 0x200000 (withF [(fJnlEnable, 1), (fJnlRunning, 1), (fNsValid 0, 1)] sLock)
theorem w_jnlAdm : AdmOk sLock (adm (15 :: List.replicate 19 0)) 20 ∧ isSet sLock fJnlEnable = false ∧
    isSet sLock fJnlRunning = false ∧ isSet sJrn fJnlEnable = true ∧ isSet sJrn fJnlRunning = true ∧
    sJrn.journal.openSeg.isSome = true := by decide
theorem w_jnlFailed : ∃ s, isSet s fJnlEnable = true ∧ getF s (fNsState 15) = 1 ∧
    wordAt (List.replicate 16 0) 8 = reg s (0x40000104 + 16 * 15) ∧
    (wordAt (List.replicate 16 0) 12 &&& 0x8FF) = (reg s (0x40000108 + 16 * 15) &&& 0x8FF) ∧
    (wordAt (List.replicate 16 1) 12 &&& 0x8FF) ≠ (reg s (0x40000108 + 16 * 15) &&& 0x8FF) :=
  ⟨setF (fNsState 15) 1 sJrn, by decide⟩
theorem w_jnlRead : ∃ b, AdmOk sJrn (adm b) 20 ∧ leAt b 8 4 = 4 ∧ leAt b 0 6 + leAt b 8 4 ≤ jnlSpace sJrn ∧
    journalLost sJrn (leAt b 0 6) (leAt b 8 4) = false :=
  ⟨[0, 0, 0, 0, 0, 0, 0, 0, 4, 0, 0, 0] ++ List.replicate 8 0, by decide⟩
theorem w_jnlLost : journalLost (setF (fNsState 0) 1 sJrn) 0 4 = true ∧ jnlSpace sLock < 0 + 4 ∧ isMember sJrn = false := by decide
theorem w_jnlArch : ∃ s, leAt [0, 1, 0, 0, 0, 0] 0 6 ≠ s.journal.arch ∧ leAt [0, 1, 0, 0, 0, 0] 0 6 < jnlSpace s ∧
    placeDist s s.journal.arch (leAt [0, 1, 0, 0, 0, 0] 0 6) ≤ placeDist s s.journal.arch s.journal.wptr :=
  ⟨updJnl (fun j => { j with wptr := 0x10000 }) sJrn, by decide⟩
theorem w_jnlArchBad : jnlSpace sLock ≤ 256 ∧ (256 : Nat) ≠ sLock.journal.arch ∧
    placeDist sJrn sJrn.journal.arch sJrn.journal.wptr < placeDist sJrn sJrn.journal.arch 0x20000 ∧ 0x20000 < jnlSpace sJrn := by
  decide
def bCode : List Byte := le 4 inactiveWin ++ le 4 32 ++ List.replicate 8 0
theorem w_codeWrite : AdmOk sLock { adm bCode with hostBytes := some (List.replicate 32 9) } 16 ∧
    inactiveWin ≤ leAt bCode 0 4 ∧ leAt bCode 0 4 + leAt bCode 4 4 ≤ 0x00BF0000 ∧ leAt bCode 0 4 % 32 = 0 ∧
    leAt bCode 4 4 % 32 = 0 ∧ leAt bCode 4 4 ≠ 0 ∧ leAt bCode 4 4 ≤ 1048576 ∧
    ¬ (inactiveWin ≤ 0x00BF0000 - 32 ∧ 0x00BF0000 - 32 + 64 ≤ 0x00BF0000) := by decide
theorem w_codeCommit : isSet sLock fCommitBusy = false ∧ isSet sLock fNextSet = false ∧
    isSet (setF fCommitBusy 1 sLock) fCommitBusy = true ∧ isSet (setF fNextSet 1 sLock) fNextSet = true := by decide
theorem w_keyInstall : AdmOk sLock { adm (7 :: List.replicate 11 0) with hostBytes := some (7 :: List.replicate 159 0) } 12 ∧
    8 ≤ imgB (8 :: List.replicate 11 0) 0 ∧ 160 ≤ (7 :: List.replicate 159 (0 : Byte)).length ∧
    ([] : List Byte).length < 160 := by decide
theorem w_castle : AdmOk sLock (adm [0, 15, 0, 0, 0, 0, 0, 0]) 8 ∧ castServable sLock 0 15 0 = true ∧
    castServable (setF fResState 2 sLock) 0 15 0 = false ∧ castServable sLock 1 15 3 = true ∧ castServable sLock 2 0 1 = true ∧
    sLock.guard.run = none := by decide
theorem w_castleRun : ∃ s, s.guard.run ≠ none ∧ castServable s 1 15 3 = true :=
  ⟨updGuard (fun g => { g with run := some { req := { unit := 0, reason := 3, cluster := 2, pos := 0 }, old := 0, new := 0, seq := 0, turn := 0, frame := 0, epoch := 0 } }) sLock, by decide⟩
theorem w_faultRead : ∃ s r, AdmOk s (adm [0, 0, 0, 0]) 4 ∧ s.guard.faults.find? (fun y => leAt y 24 4 = 0) = some r ∧
    s.guard.faults.find? (fun y => leAt y 24 4 = 1) = none :=
  ⟨updGuard (fun g => { g with faults := [List.replicate 32 0] }) sLock, List.replicate 32 0, by decide⟩
theorem w_power : getF (setF (fPwr 15) 0 sLock) (fPwr 15) = 0 ∧ getF sLock (fPwr 15) = 2 ∧ getF (setF (fPwr 15) 3 sLock) (fPwr 15) = 3 ∧
    getF (setF (fPwr 15) 1 sLock) (fPwr 15) = 1 ∧ lowPowerOk sLock false = true ∧ lowPowerOk sLock true = false ∧
    lowPowerOk (setF fChip 1 sLock) false = false ∧
    lowPowerOk (setF fWakeSmbus 1 sLock) true = true := by decide
theorem w_regRead : AdmOk sLock (adm [0, 0, 0, 0x45]) 4 ∧ regReadOk (leAt [0, 0, 0, 0x45] 0 4) = true ∧
    loadCause (admTake 0x66 (adm [0, 0, 0, 0x45]) sLock) .cp (leAt [0, 0, 0, 0x45] 0 4) = none ∧
    inHandover sLock (winOf 0x45000000) = false ∧ regReadOk 0x45000002 = false ∧ regReadOk 0x40F00000 = true ∧
    loadCause (admTake 0x66 (adm [0, 0, 0xF0, 0x40]) sLock) .cp 0x40F00000 ≠ none := by decide
theorem w_regReadHeld : ∃ s, inHandover s (winOf 0x22800000) = true ∧ regReadOk 0x22800000 = true :=
  ⟨updGuard (fun g => { g with run := some { req := { unit := 0, reason := 3, cluster := 2, pos := 0 }, old := 0, new := 0, seq := 0, turn := 0, frame := 0, epoch := 0 } }) sLock, by decide⟩

/-- A descriptor of the control processor's tag 4095 of mover 3: 5 bytes from 0x30 to its own commons region. -/
def dMov (op sp next len : Nat) : List Byte :=
  le 2 0x100 ++ le 2 0 ++ [BitVec.ofNat 8 op, 0] ++ le 2 next ++ le 8 0x30 ++ le 8 0x10500010 ++ le 4 len ++
    [BitVec.ofNat 8 sp, 0, 0, 0]
def xMov (stage : Nat) (s : State) : Xfer :=
  { stage := stage, desc := descOf s 16383, order := 0, data := if stage = 2 then [1, 2, 3, 4, 5] else [], read := if stage = 2 then 5 else 0,
    moved := 0, reads := 0, readAt := none, flush := 0, status := if stage = 3 then some 0 else none, held := false }
def sDesc (op sp next len : Nat) : State := writeBytes (descAt 16383) (dMov op sp next len) sLock
/-- The transfer stands in a stage. -/
def sMov (stage op sp next len : Nat) : State := setXfer 16383 (xMov stage (sDesc op sp next len)) (sDesc op sp next len)
theorem w_movDb : maySubmit (sDesc 0 0 0xFFFF 5) .cp (4096 * (3 : Fin 4).val + bitsOf 0xFFF 11 0) = true ∧
    xfer (sDesc 0 0 0xFFFF 5) (4096 * (3 : Fin 4).val + bitsOf 0xFFF 11 0) = none ∧
    maySubmit (sDesc 0 0 0xFFFF 5) .cp (4096 * (3 : Fin 4).val + bitsOf 0xBFF 11 0) = false := by decide
theorem w_movAccept : (xfer (sMov 0 0 0 0xFFFF 5) 16383).map (fun x => (x.stage, x.status)) = some (0, none) ∧
    staleDesc (sMov 0 0 0 0xFFFF 5) (descOf (sMov 0 0 0 0xFFFF 5) 16383) = false ∧
    descOk (sMov 0 0 0 0xFFFF 5) 16383 (descOf (sMov 0 0 0 0xFFFF 5) 16383) = true ∧
    descOk (sMov 0 0 0 0xFFFF 0) 16383 (descOf (sMov 0 0 0 0xFFFF 0) 16383) = false := by decide
theorem w_movRead : ∃ x, xfer (sMov 1 0 0 0xFFFF 5) 16383 = some x ∧ x.held = false ∧ x.status = none ∧ x.stage = 1 ∧
    x.desc.op = 0 ∧ x.read < x.desc.len ∧ x.desc.srcSpace = 0 := ⟨_, rfl, by decide⟩
theorem w_movWrite : ∃ x, xfer (sMov 2 0 0 0xFFFF 5) 16383 = some x ∧ x.status = none ∧ x.stage = 2 ∧
    orderOk (sMov 2 0 0 0xFFFF 5) 16383 x = true ∧ writeData x ≠ [] ∧ x.desc.dstSpace = 0 := ⟨_, rfl, by decide⟩
theorem w_movIdle : xfer (sDesc 0 0 0xFFFF 5) 16383 = none ∧ (xMov 1 sLock).stage ≠ 0 ∧
    orderOk (setXfer 16382 (xMov 1 (sDesc 0 0 0xFFFF 5)) (sMov 2 0 0 0xFFFF 5)) 16383
      { xMov 2 sLock with order := 1, desc := { (xMov 2 sLock).desc with flags := 2 } } = false := by decide
theorem w_movHeld : ∃ s x, xfer s 16383 = some x ∧ x.held = true ∧ x.status = some 1 :=
  ⟨setXfer 16383 { xMov 1 sLock with held := true, status := some 1 } sLock, _, rfl, by decide⟩
theorem w_movHost : ∃ x, xfer (sMov 1 0 1 0xFFFF 5) 16383 = some x ∧ x.desc.srcSpace = 1 ∧
    hostUp (sMov 1 0 1 0xFFFF 5) x.desc = true ∧ isMember (sMov 1 0 1 0xFFFF 5) = false := ⟨_, rfl, by decide⟩
theorem w_movHostOff : ∃ s x, xfer s 16383 = some x ∧ x.desc.srcSpace = 1 ∧ hostUp s x.desc = false ∧
    staleDesc s x.desc = false :=
  ⟨setXfer 16383 { xMov 1 (sDesc 0 1 0xFFFF 5) with desc := { descOf (sDesc 0 1 0xFFFF 5) 16383 with tenant := 255 } } sLock,
    _, rfl, by decide⟩
theorem w_movJournal : ∃ x, xfer (sMov 2 0 8 0xFFFF 5) 16383 = some x ∧ x.desc.dstSpace = 2 ∧ writeData x ≠ [] := ⟨_, rfl, by decide⟩
theorem w_movFlush : ∃ s x, xfer s 16383 = some x ∧ x.status = some 0 ∧ unflushed s x = true ∧ x.flush = 0 ∧
    drnUp s (routePort s 0) = true :=
  ⟨setF (fDrnState 0) 2 (setF fGrpSeat 0x11 (setF fGrpValid 1 (setXfer 16383 { xMov 3 (sDesc 0 4 0xFFFF 5) with moved := 5 } sLock))),
    _, rfl, by decide⟩
theorem w_movEnd : ∃ x, xfer (sMov 3 0 0 0xFFE 5) 16383 = some x ∧ x.status = some 0 ∧ x.held = false ∧
    x.desc.next < 4096 ∧ issuerOf 16382 = issuerOf 16383 ∧ xfer (sMov 3 0 0 0xFFE 5) 16382 = none := ⟨_, rfl, by decide⟩
theorem w_movTimeout : ∃ s x, xfer s 16383 = some x ∧ x.readAt = some 0 ∧ dueNow s (0 + msTurns 50) = true :=
  ⟨updTime (fun t => { t with turn := 24000000, cur := { t.cur with start := 23999500 } })
    (setXfer 16383 { xMov 1 sLock with reads := 1, readAt := some 0 } sLock), _, rfl, by decide⟩
/-- The worked case after R325: ports 2, 9, 16 and 18 with tags 4, 1, 1 and 2 (FAB_WEIGHT.CP is 1). -/
theorem t_bankPeriod : (Tab.find (mapArbs (fun t => Tab.put t 3 (arbPeriod [(2, 4), (9, 1), (16, 1), (18, 2)] initArb)) sLock).arbs 3).map
    (fun a => a.grants) = some [2, 18, 2, 9, 16, 2, 18, 2] := by decide

def tiFull : TrainInfo := { partnerU := false, maxRate := 3, maxWidth := 15, good1 := 31, good2 := 31, good3 := 31 }
def tiNone : TrainInfo := { tiFull with good1 := 0, good2 := 0, good3 := 0 }
def frm (p : DrnPort) (routed : Bool) (dst : BitVec 16) (b : List Byte) : Frame :=
  { port := p, seq := 0, crcOk := true, ack := 0, dst := dst, routed := routed, reservedBit := false, payload := b }
/-- Every port is up; the chip is a member with a seat at depth 1, or the head. -/
def sUp (head : Bool) : State :=
  withF [(fDrnState 0, 2), (fDrnState 1, 2), (fDrnState 2, 2), (fDrnSpare 1, 4), (fGrpValid, 1), (fGrpSeat, if head then 0 else 1),
    (fGrpHead, head.toNat), (fGrpAdmitted, 1)] sLock
/-- Time has moved on by `t` turns. -/
def later (t : Nat) (s : State) : State := updTime (fun x => { x with turn := t, cur := { x.cur with start := t } }) s
theorem w_train : mayTrain sLock 0 = true ∧ getF sLock (fDrnState 0) = 0 ∧ mayTrain (setF (fDrnState 0) 2 sLock) 0 = false ∧
    tiFull.partnerU ≠ decide ((0 : Nat) = 0) ∧ ({ tiFull with partnerU := true } : TrainInfo).partnerU = decide ((0 : Nat) = 0) ∧
    (trainMode sLock 0 tiNone).2.1 = 0 ∧ (trainMode sLock 0 tiFull).2.1 ≠ 0 ∧ 4 ≤ laneCount tiFull.good3.toNat ∧
    getF sLock (fDrnMaxRate 0) = 3 ∧ 8 ≤ getF sLock (fDrnMaxWidth 0) ∧
    mayTrain (setF (fDrnState 2) 0 (sUp true)) 2 = true ∧ mayAddress (setF (fDrnState 2) 0 (sUp true)) = true := by decide
theorem w_retryTrain : (drn (updDrn 2 (fun x => { x with retryAt := some 9599 }) sLock) 2).retryAt = some 9599 ∧
    dueNow sLock 9599 = true ∧ dueNow sLock 0xFFFFFF = false ∧ (drn sLock 2).retryAt = none ∧
    getF sLock (fDrnEnable 2) = 1 := by decide
theorem w_laneFail : drnUp (sUp true) 1 = true ∧ getF (sUp true) (fDrnSpare 1) = 4 ∧
    (drn (updDrn 1 (fun x => { x with order := [0, 1, 2, 3] }) (sUp true)) 1).order.contains 3 = true ∧
    (drn (sUp true) 1).order.contains 3 = false ∧ getF (setF (fDrnSpare 1) 15 (sUp true)) (fDrnSpare 1) = 15 ∧
    drnUp sLock 1 = false := by decide
theorem w_swapDone : ∃ s, (drn s 1).swapEnd = some 0 ∧ getF s (fDrnState 1) = 3 ∧ now s ≤ 0 :=
  ⟨setF (fDrnState 1) 3 (updDrn 1 (fun x => { x with swapEnd := some 0 }) sLock), by decide⟩
theorem w_linkLoss : ∃ s, (drn s 0).lastValid = some 0 ∧ dueNow s (0 + 19200) = true ∧ isSet s fGrpValid = true ∧ isHead s = false :=
  ⟨later 19200 (updDrn 0 (fun x => { x with lastValid := some 0 }) (sUp false)), by decide⟩
theorem w_beat : ∃ s, drnUp s 2 = true ∧ (drn s 2).beat = some 0 ∧ dueNow s (0 + 960) = true :=
  ⟨later 960 (updDrn 2 (fun x => { x with beat := some 0 }) (sUp true)), by decide⟩
theorem w_rx : (∀ k ∈ List.range 12, RxOk (sUp false) k (frm 0 false 0 [])) ∧ RxOk (sUp false) 3 (frm 0 true 1 []) ∧
    RxOk (sUp true) 2 (frm 2 true 0 []) ∧ RxOk (setF (fDrnState 0) 2 sLock) 1 (frm 0 false 0 []) ∧
    isSet (setF (fDrnState 0) 2 sLock) fGrpValid = false ∧ isMember (sUp false) = true ∧ isMember (sUp true) = false ∧
    drnUp sLock 0 = false ∧ (frm 0 true 0 []).dst.toNat ≠ ownSeat (sUp false) := by decide
theorem w_election : ∃ s, isSet s fGrpValid = false ∧ (drn s 0).trained = false ∧ isSet s fHeadStrap = false ∧
    dueNow s (msTurns 100) = true := ⟨later 48000000 sLock, by decide⟩
theorem w_rxAll : RxOk (sUp true) 1 (frm 0 false 0 []) ∧ isHead (sUp true) = true ∧ leAt [0, 0, 1] 2 1 = 1 ∧
    RxOk (sUp true) 4 (frm 2 false 0 []) ∧ leAt (List.replicate 12 (0 : Byte)) 0 4 = 0 ∧
    (sUp true).group.seats.any (fun x => x.seat = 0x11 && x.occupied) = false ∧
    (updGroup (fun g => { g with seats := [⟨0x11, 5, 1, true, none⟩] }) (sUp true)).group.seats.any
      (fun x => x.seat = 0x11 && x.occupied) = true := by decide
theorem w_chain : ∃ s x g, RxOk s 0x0A (frm 2 false 0 [1, 0, 2]) ∧ isSet s fJnlRunning = true ∧
    s.journal.chains.find? (fun x => x.seat = 1) = some x ∧ x.seg = some g :=
  ⟨updJnl (fun j => { j with chains := [{ seat := 1, seq := 3, digest := [], seg := some (newSeg sLock 0) }] })
    (setF fJnlRunning 1 (sUp true)), _, _, by decide, by decide, rfl, rfl⟩
theorem w_standalone : ∃ s, s.group.electedAt = some 0 ∧ dueNow s (0 + msTurns 100) = true :=
  ⟨later 48000000 (updGroup (fun g => { g with electedAt := some 0 }) sLock), by decide⟩
theorem w_admission : ∃ s, s.group.admitTick = some 8 ∧ s.group.tickFrame = some 7 ∧ atTick s = true :=
  ⟨updGroup (fun g => { g with admitTick := some 8, tickFrame := some 7 }) sLock, by decide⟩
theorem w_mmio : pageSt (sUp true) 256 = .acts ∧ pageSt (sUp true) 255 = .discard ∧
    pageSt (setF (fTState 255) 3 (sUp true)) 255 = .dormant ∧
    RxOk (sUp true) 6 (frm 0 false 0 [0, 0, 1, 0x18, 0, 0, 0, 0, 0xFF]) := by decide
theorem w_flush : ∃ s x, RxOk s 7 (frm 0 false 0 [3, 0, 0, 9, 0]) ∧ isHead s = false ∧ xfer s (leAt [3, 0, 0, 9, 0] 3 2) = some x :=
  ⟨setXfer 9 { stage := 2, desc := descOf sLock 9, order := 0, data := [], read := 0, moved := 0, reads := 0, readAt := none,
               flush := 1, status := none, held := false } (sUp false), _, by decide, by decide, rfl⟩
/-- Port 4 here is granted to tenant 7 of the chip in seat 0x11. -/
def sFar (b : Option Nat) : State :=
  updPort 4 (fun x => { x with defined := true, grant := some (farTenant 0x11 7), bound := b }) (sUp true)
theorem w_farBind : RxOk (sFar none) 8 (frm 2 false 0 (padTo 32 [5, 3, 7, 0])) ∧ portOf (sFar none) 4 = 4 ∧ isFar 4 = false ∧
    (port (sFar none) 4).defined = true ∧ (port (sFar none) 4).bound = none ∧
    (port (sFar none) 4).grant = some (farTenant 0x11 7) ∧
    (port (sFar (some (16 * farTenant 0x11 7 + 3))) 4).bound = some (16 * farTenant 0x11 7 + 3) := by decide
theorem w_admPend : (setAdmin (some { op := 0x40, tag := 5, key := fwdKey, drop := false }) (sUp true)).admin.isSome = true ∧
    imgB (padTo 64 ([1, 0x40].drop 1)) 0 = 0x40 ∧ imgB (padTo 64 ([1, 0x41].drop 1)) 0 ≠ 0x40 := by decide
theorem w_drnAdmin : ∃ s, inFull s 256 = true ∧ inFull sLock 256 = false ∧ RxOk s 9 (frm 0 false 0 [0]) :=
  ⟨setF (fInTail 256) 16 (sUp false), by decide⟩

/-- Cluster 15 runs its reserve core no more. -/
def sNoSpare : State := setF (fLmSpare 15) 7 sLock
theorem w_castleCore : spareCore sLock 15 = true ∧ inHandover sLock 15 = false ∧ spareCore sNoSpare 15 = false ∧
    getF sLock fCpSpare ≠ 3 ∧ getF (setF fCpSpare 3 sLock) fCpSpare = 3 ∧ (castDest sLock 15).isSome = true ∧
    castDest (setF fResState 2 sLock) 15 = none ∧ isCp (.lane 15 3) = false := by decide
theorem w_pairBist : ∃ s, (Machine.core s 254).bistEnd = some 3840 ∧ dueNow s 3840 = true ∧ spareCore s 15 = true ∧ inHandover s 15 = false :=
  ⟨updCore 254 (fun c => { c with bistEnd := some 3840 }) sLock, by decide⟩
theorem w_pairBistNot : (Machine.core sLock 254).bistEnd = none ∧ dueNow sLock 0xFFFFFF = false ∧ sLock.guard.cpMism < 2 := by decide
theorem w_cpCastling : 2 ≤ (updGuard (fun g => { g with cpMism := 2 }) sLock).guard.cpMism := by decide
def rq (reason n : Nat) : CastReq := { unit := 0, reason := reason, cluster := n, pos := 0 }
def sCast : State := updGuard (fun g => { g with reqs := [rq 3 15] }) (writeB 0x2F000000 7 sLock)
theorem w_castBegin : Memory.wf sCast.mem ∧ atTick sCast = true ∧ sCast.guard.run = none ∧ nextCast sCast = some (rq 3 15) ∧
    castDest sCast 15 = some 16 := by decide
def sCastRun : State := updGuard (fun g => { g with run := some { req := rq 2 15, old := 15, new := 16, seq := 0, turn := 0, frame := 0, epoch := 0 } }) sLock
theorem w_castBusy : inHandover sCastRun 15 = true ∧ castHolds .cp 15 sCastRun = some 15 ∧ castHolds (.lane 15 3) 2 sCastRun = some 15 ∧
    castHolds .cp (winOf 0x2F800000) sCastRun = some 15 ∧ spareCore sCastRun 15 = true ∧ sCastRun.guard.run ≠ none ∧
    castHolds .cp 15 sLock = none := by decide
/-- The control processor's read of lock 63 is held. -/
def sCastLock : State := castHold 15 .cp true { addr := BitVec.ofNat 32 (winK 15 (0x400 + 4 * 63)), size := 4, data := 0 } sCastRun
theorem w_castLock : (clus sCastLock 15).held =
    [{ core := 256, read := true, acc := { addr := BitVec.ofNat 32 (winK 15 (0x400 + 4 * 63)), size := 4, data := 0 } }] ∧ (clus sCastLock 15).frameHold = [] ∧
    lockValue sCastLock (lockK 15 63) = 0 := by decide
theorem w_castLate : ∃ s r, s.guard.run = some r ∧ r.turn + 4800 < now s :=
  ⟨updTime (fun x => { x with turn := 4801, cur := { x.cur with start := 4801 } }) sCastRun, _, rfl, by decide⟩
theorem w_imageBad : ∃ s r, s.guard.run = some r ∧ imageOkNow s r = false :=
  ⟨updGuard (fun g => { g with run := some { req := rq 2 15, old := 15, new := 16, seq := 1, turn := 0, frame := 0, epoch := 0 } })
    (setF fCastSeq 1 sLock), _, rfl, by decide⟩
theorem w_handover : sCastRun.guard.run.map (fun r => (r.turn, r.new)) = some (0, 16) ∧ (clus sCastRun 15).held = [] ∧ (clus sCastRun 15).frameHold = [] ∧
    sCastRun.guard.run.map (imageOkNow sCastRun) = some true := by decide
theorem w_pairForm : ∃ s, atTick s = true ∧ working s 15 2 = false ∧ working s 15 3 = false ∧ getF s (fPairReq 15 1) = 1 ∧ getF s (fPairUp 15 1) = 0 :=
  ⟨setF (fPairReq 15 1) 1 sLock, by decide⟩
theorem w_pairSplit : ∃ s, atTick s = true ∧ getF s (fPairReq 15 1) = 0 ∧ getF s (fPairUp 15 1) = 1 ∧ working s 15 2 = false ∧
    working (updCore 254 (fun c => { c with work := some 3 }) s) 15 2 = true := ⟨setF (fPairUp 15 1) 1 sLock, by decide⟩
/-- Position 3 of cluster 15, alone or as a pair with position 2, runs in supervisor mode. -/
def sLaneSup (pair : Bool) : State :=
  setF (fUp23 15) pair.toNat (updCore (if pair then 254 else 255) (fun c => { c with ctx := { c.ctx with mode := 1 }, mism := 1 }) sLock)
theorem w_ckpt : inWindow 15 (.lane 15 3) = true ∧ supCore (sLaneSup false) (.lane 15 3) = true ∧ supCore (sLaneSup true) (.lane 15 3) = true ∧
    isPair (sLaneSup false) (runIx (sLaneSup false) (.lane 15 3)) = false ∧ isPair (sLaneSup true) (runIx (sLaneSup true) (.lane 15 3)) = true ∧
    1 ≤ (Machine.core (sLaneSup true) (runIx (sLaneSup true) (.lane 15 3))).mism ∧ inWindow 14 (.lane 15 3) = false ∧
    supCore sLock (.lane 15 3) = false ∧ inWindow 15 (.thread 15 0) = true ∧ supCore sLock (.thread 15 0) = true := by decide
theorem w_ckptSide : ∃ s, (Machine.core s (runIx s (.lane 15 3))).side = [{ addr := 0x45000000, size := 4, data := 7 }] ∧
    castHolds (coreOf (runIx s (.lane 15 3))) (winOf 0x45000000) s = none ∧ winOf 0x45000000 = 17 :=
  ⟨updCore 255 (fun c => { c with side := [{ addr := 0x45000000, size := 4, data := 7 }] }) sLock, by decide⟩
theorem w_cpRoll : (Machine.core (updCore 256 (fun x => { x with undo := [(0x10000000, 4, 0xFFFFFFFF)] }) sLock) 256).undo = [(0x10000000, 4, 0xFFFFFFFF)] ∧
    (Machine.core sLock 256).side = [] := by decide
theorem w_scrub : ∃ s : State, (0x10FFFFF8 : Word) ∈ s.guard.passCorr ∧ (0x10FFFFF8 : Word).toNat / 0x1000000 = 0x10 ∧ s.guard.spareCommons = 255 :=
  ⟨updGuard (fun g => { g with passCorr := [0x10FFFFF8], spareCommons := 255 }) sLock, by decide⟩
theorem w_scrubCluster : ∃ s : State, (0x2FFFFFF8 : Word) ∈ s.guard.passCorr ∧ (0x2FFFFFF8 : Word).toNat / 0x1000000 = 0x2F ∧
    Tab.getD s.guard.spareCluster (physOf s 15) 0 = 32 ∧ Tab.getD sLock.guard.spareCluster (physOf sLock 15) 0 < 32 :=
  ⟨updGuard (fun g => { g with passCorr := [0x2FFFFFF8], spareCluster := [(15, 32)] }) sLock, by decide⟩
theorem w_scrubAge : ∃ s, dueNow s (s.guard.scrubAt.elim 0 (fun t => t) + secTurns 14400) = true :=
  ⟨updTime (fun x => { x with turn := 6912000000000, cur := { x.cur with start := 6912000000000 } }) sLock, by decide⟩
theorem w_overdue : ∃ s, s.guard.outAt = some 0 ∧ dueNow s (0 + secTurns 259201) = true :=
  ⟨updGuard (fun g => { g with outAt := some 0 }) (updTime (fun x => { x with turn := secTurns 259201, cur := { x.cur with start := secTurns 259201 } }) sLock), by decide⟩
/-- A visit falls due: PERIOD is 0. -/
def sVisit : State := withF [(fRotEn, 1), (fRotPeriod, 0), (fRotNext, 15)] sLock
theorem w_visit : isSet sVisit fRotEn = true ∧ sVisit.guard.rotStep = 0 ∧ sVisit.guard.run = none ∧ dueNow sVisit (visitDue sVisit) = true ∧
    getF sVisit fResState = 0 ∧ getF sVisit fResPhys = 16 ∧ getF sVisit fOffhome = 31 ∧ getF sVisit (fPwr 15) = 2 ∧
    getF (setF fOffhome 3 sVisit) fOffhome ≠ 31 ∧ isSet (setF fRotEn 0 sLock) fRotEn = false := by decide
theorem w_retest : ∃ s, getF s fResState = 2 ∧ s.guard.retest ≠ none ∧ s.guard.outAt = some 0 :=
  ⟨updGuard (fun g => { g with retest := some 16, outAt := some 0 }) (setF fResState 2 sLock), by decide⟩
theorem w_bistDone : getF (setF fResState 1 sLock) fResState = 1 ∧ ((List.range 5).filter (fun c => (0x1E : BitVec 5).getLsbD c)).length = 4 := by decide

/-- Cluster 15 is lit; its tenant 255 is configured and its function enabled. -/
def sLit : State :=
  withF [(fPwr 15, 0), (fTState 255, 1)]
    (updHost (fun h => { h with vfEnable := true, numVfs := 256 }) (updTen 255 (fun t => { t with configured := true }) sLock))
theorem w_darkEntry : ∃ s, getF s (fPwr 15) = 1 ∧ (pwrCl s 15).darkReq = true ∧ atTick s = true ∧ darkBlocked s 15 = false ∧
    tActive s 255 = true := ⟨updPwrCl 15 (fun p => { p with darkReq := true }) (setF (fPwr 15) 1 sLit), by decide⟩
def sDarkTick : State := updPwrCl 15 (fun p => { p with darkTick := some 0 }) (setF (fPwr 15) 1 sLit)
theorem w_darkDone : (pwrCl sDarkTick 15).darkTick = some 0 ∧ getF sDarkTick (fPwr 15) = 1 ∧ now sDarkTick ≤ 0 + usTurns 10 ∧
    getF sDarkTick fChip ≠ 3 ∧ (pwrCl sDarkTick 15).latched = none := by decide
/-- Cluster 15 wakes from a doorbell. -/
def sWaking (released : Bool) : State :=
  updPwrCl 15 (fun p => { p with wake := some 2, reset := released }) (withF [(fPwr 15, 3), (fTState 255, 3)] sLit)
theorem w_wakeCl : getF sLock (fPwr 15) = 2 ∧ getF (sWaking false) (fPwr 15) = 3 ∧ (pwrCl (sWaking false) 15).reset = false ∧
    (pwrCl (sWaking true) 15).reset = true ∧ (pwrCl (sWaking false) 15).wake = some 2 ∧ atTick (sWaking true) = true ∧
    (ten (sWaking true) 255).configured = true ∧ vfOn (sWaking true) 255 = true := by decide
def sGov (m : Nat) : State :=
  updPwrCl 15 (fun p => { p with hist := [(m, false), (90, false)] }) (withF [(fGovEn, 1), (fGovTarget, 20), (fGovBand, 10), (fRail 15, 80)] sLit)
theorem w_noPower : getF sLock (fPwr 15) ≠ 1 ∧ getF sLock (fPwr 15) ≠ 3 ∧ getF sLit (fPwr 15) ≠ 2 ∧ isSet (setF fGovEn 0 sLock) fGovEn = false ∧
    (pwrCl sLock 15).darkTick = none := by decide
/-- Cluster 15 wakes with a saved configuration. -/
def sSaved : State := updPwrCl 15 (fun p => { p with saved := (savedKeys 15).map (fun k => (k, BitVec.ofNat 32 (k % 64))) ++ [] }) (sWaking true)
theorem w_govern : isSet (sGov 5) fGovEn = true ∧ getF (sGov 5) (fPwr 15) = 0 ∧ atTick (sGov 5) = true ∧ frameNo (sGov 5) % 64 = 0 ∧
    ((pwrCl (sGov 5) 15).hist.take 128).any (fun x => x.2) = false ∧ getF (sGov 5) fGovTarget = 20 ∧ getF (sGov 5) (fRail 15) = 80 := by decide
theorem w_entryEnd : allDark sLock = true ∧ getF (setF fChip 1 sLock) fChip = 1 ∧ allDark (setF fChip 1 sLock) = true ∧
    getF (setF fChip 3 sLock) fChip = 3 ∧ allDark (updPower (fun p => { p with shutAt := some 0 }) (setF fChip 3 sLock)) = true := by decide
theorem w_nvmeOff : ∃ s, s.power.shutdown.contains 3 = true ∧ s.power.shutAt = some 0 ∧ dueNow s (0 + secTurns 1) = true :=
  ⟨updPower (fun p => { p with shutdown := [1, 3], shutAt := some 0 })
    (updTime (fun x => { x with turn := 480000000, cur := { x.cur with start := 480000000 } }) sLock), by decide⟩
/-- STANDBY, with sentry entry 15 and the alarm armed. -/
def sStandby : State :=
  setReg (senK 15) 0xA00303FF (withF [(fChip, 2), (fWakeSmbus, 1), (bit 0x47000840 0, 1), (fAlarmEn, 1)] sLock)
theorem w_standby : getF sStandby fChip = 2 ∧ sStandby.power.exiting = false ∧ sStandby.power.deep = false ∧ isSet sStandby fWakeSmbus = true ∧
    sentryTakes sStandby 15 true = true ∧ sentryTakes sStandby 15 false = true ∧ isSet sStandby fAlarmEn = true ∧
    calAlarmVal sStandby ≤ (calNext sStandby).val ∧ isSet sStandby fOscFail = false ∧ isSet sLock fAlarmEn = false ∧ chipRun (setF fChip 0 sStandby) = true ∧
    getF (setF fChip 0 sStandby) (fld (senK 15) 9 0) / 64 = 15 ∧ isSet (setF fChip 0 sStandby) (bit (senK 15) 29) = true := by decide
/-- Clusters 15 and 14 woke from a latched doorbell of tenant 240 while the chip entered STANDBY. -/
def sBell : State := updPwrCl 15 (fun p => { p with wake := some 2, wokeBell := some 240 }) (setF (fPwr 15) 3 sStandby)
theorem w_standbyWake : standbyWake sBell = some (4, 240) ∧ standbyWake sStandby = none ∧ getF sBell fChip = 2 ∧
    sBell.power.exiting = false := by decide
theorem w_smbus : getF (setF fChip 1 sStandby) fChip = 1 ∧ getF (setF fChip 3 sStandby) fChip = 3 ∧ isSet sLock fWakeSmbus = false ∧
    sentryTakes sLock 15 true = false ∧ sLock.power.shutdown.contains 3 = false := by decide
theorem w_exit : ∃ s : State, s.power.deep = true ∧ s.power.exiting = true :=
  ⟨updPower (fun p => { p with deep := true, exiting := true }) sLock, by decide⟩
theorem w_softReset : (0x5A01 : Word).getLsbD 0 = true ∧ bitsOf 0x5A01 15 8 = 0x5A ∧ bitsOf 0x5B01 15 8 ≠ 0x5A := by decide
theorem w_release : sLock.power.released = false ∧ sLock.power.deep = false ∧
    (updPower (fun p => { p with released := true }) sLock).power.released = true := by decide
theorem w_boot : ∃ s, s.power.released = true ∧ s.host.cpRun = false ∧ isSet s fRecovery = false ∧ isSet s fBootsel = false ∧
    fwReason (mapSlot 0 s) activeWin ≠ none := ⟨updPower (fun p => { p with released := true }) sLock, by decide⟩
def xHost : Xfer :=
  { stage := 1, desc := { tenant := 0, gen := 0, op := 0, flags := 0, next := 0, src := 0, dst := 0, len := 1, spaces := 1, pad := 0 },
    order := 0, data := [], read := 0, moved := 0, reads := 0, readAt := none, flush := 0, status := none, held := false }
theorem w_hostXfer : ∃ s x, xfer s 0 = some x ∧ hostXfer x = true ∧ x.status = none ∧ 1 ≤ x.stage :=
  ⟨setXfer 0 xHost sLock, _, rfl, by decide⟩
theorem w_quiesced : isSet (setF (fXcQuiesced 23) 1 sLock) (fXcQuiesced 23) = true ∧ isSet sLock (fXcQuiesced 23) = false := by decide
theorem w_resyncReady : xcReady sLock 23 = true ∧ xcReady sLock 17 = false ∧ xcReady sLock 15 = false := by decide
theorem w_driveUp : ∃ s, (rootPort s 3).present = true ∧ (rootPort s 3).up = true ∧ isSet s (fNsValid 15) = true ∧ getF s (fNsPort 15) = 3 :=
  ⟨updRootPort 3 (fun r => { r with up := true }) (withF [(fNsValid 15, 1), (fNsPort 15, 3)] sLock), by decide⟩
theorem w_drive : (rootPort sLock 3).present = true ∧ (rootPort sLock 3).up = false ∧ (rootPort sLock 3).perst = true ∧
    (rootPort (updRootPort 3 (fun r => { r with present := false }) sLock) 3).present = false ∧
    dueNow (updTime (fun x => { x with turn := 48000000, cur := { x.cur with start := 48000000 } }) sLock) (0 + msTurns 100) = true := by decide

/-- The chip is released and its control processor runs. -/
def sOn : State := updHost (fun h => { h with cpRun := true }) (updPower (fun p => { p with released := true }) sLock)
def mc (b : List Byte) : MCmd := { data := b, pec := some true }
theorem w_vfEnable : ∃ s, endpointOn s = true ∧ isSet s fRecovery = false ∧ s.host.vfEnable = false ∧
    (ten s 255).configured = true ∧ getF s (fTState 255) = 0 ∧ s.group.totalVfs = 256 ∧ awaitsGroup s = false :=
  ⟨updTen 255 (fun t => { t with configured := true }) (withF [(fGrpHead, 1), (fGrpValid, 1), (fGrpAdmitted, 1)] sLock), by decide⟩
theorem w_vfFlr : ∃ s, vfOn s 255 = true ∧ getF s (fTState 255) = 1 ∧ vfOn sLock 255 = false :=
  ⟨setF (fTState 255) 1 (updHost (fun h => { h with vfEnable := true, numVfs := 256 }) sLock), by decide⟩
theorem w_mgmt : sOn.power.released = true ∧ sOn.power.deep = false ∧ sOn.host.cpRun = true ∧ mgmtTakes sOn (mc []) = true ∧ mgmtTakes sOn { data := [], pec := some false } = false ∧
    mgmtTakes sOn { data := [], pec := none } = true ∧ mgmtTakes (setF fPecReq 1 sOn) { data := [], pec := none } = false ∧
    inFull sOn 256 = false ∧ inFull (setF (fInTail 256) 16 sOn) 256 = true ∧ sOn.host.mgmtResp = [] ∧
    isSet sOn fCommitBusy = false ∧ isSet sOn fNextSet = false := by decide
theorem w_mgmtWrite : ∃ b : List Byte, b.length = 36 ∧ codeRefuse (leAt b 0 4) (b.length - 4) sOn = none :=
  ⟨[0, 0, 0x60, 0] ++ List.replicate 32 9, by decide⟩
theorem w_codeRead : ∃ b : List Byte, b.length = 5 ∧ leAt b 4 1 = 240 ∧ leAt b 0 4 + leAt b 4 1 ≤ 0x01000000 :=
  ⟨[0x10, 0xFF, 0xFF, 0, 240], by decide⟩
theorem w_fetchReply : ∃ s : State, s.host.cpRun = true ∧ s.host.mgmtResp = [List.replicate 64 1] :=
  ⟨updHost (fun h => { h with mgmtResp := [List.replicate 64 1] }) sOn, by decide⟩
theorem w_vfMember : ∃ s, isMember s = true ∧ s.admin = none := ⟨withF [(fGrpValid, 1), (fGrpHead, 0)] sLock, by decide⟩
/-- A command slot of the administration page: NOP, and one with a reserved opcode. -/
def slotNop (op : Nat) : List Byte := mkSlot op 0 7 0xFF 0 0 0 []
theorem w_submitSelf : admSelf sOn (slotNop 1) = some (0, []) ∧ admSelf sOn (slotNop 0x67) = some (1, []) ∧ slotOp (slotNop 1) ≠ 2 ∧
    getF sOn (fInHead 256) = getF sOn (fInTail 256) ∧ (slotNop 1).length = 64 ∧ admSelf sOn (slotNop 0x54) = none := by decide
theorem w_codeRefuse : codeRefuse 0x600010 32 sOn = some .badArg ∧ codeRefuse 0x600020 32 (setF fNextSet 1 sOn) = some .conflict := by decide
/-- A castling of cluster 15 runs. -/
def sCastRun2 : State :=
  updGuard (fun g => { g with run := some { req := { unit := 0, reason := 2, cluster := 15, pos := 0 }, old := 15, new := 16, seq := 0, turn := 0, frame := 0, epoch := 0 } }) sLock
theorem w_held : ∃ s, castHolds .cp (winOf 0x2F800000) s = some 15 ∧ castHolds (.lane 15 0) (winOf 0x41002000) s = some 15 ∧
    castHolds .cp (winOf 0x41002000) s = none := ⟨sCastRun2, by decide⟩
theorem w_ckptAddr : memAddr 0x2F800154 = false ∧ isCkptAddr 0x2F800154 = true ∧ storeCause sLock .cp 0x2F800154 5 = none ∧
    castHolds .cp (winOf 0x2F800154) sLock = none := by decide
theorem w_dormant : pageSt (setF (fTState 255) 3 sLock) 255 = .dormant ∧ (pwrCl (setF (fTState 255) 3 sLock) 15).wokeBell = none ∧
    getF (setF fChip 2 (setF (fTState 255) 3 sLock)) fChip = 2 := by decide
theorem w_regWrite : memAddr 0x10000000 = true ∧ memAddr 0x41002002 = false ∧ (0x41002002 : Nat) % 4 ≠ 0 ∧
    storeCause sLock .cp 0x41002000 5 = none ∧ storeCause sLock (.thread 0 0) 0x41002000 5 = some 2 ∧ isCkptAddr 0x41002000 = false := by decide
theorem w_pageWrite : pageSt sLock 256 = .acts ∧ pageSt sLock 255 = .discard ∧ pageSt (setF (fTState 255) 3 sLock) 255 = .dormant ∧
    getF (setF (fTState 255) 3 sLock) (fPwr (255 / 16)) = 2 ∧
    (0x80000000 : Word) &&& 0xFF000000 &&& ~~~ reg (setF (fTState 255) 3 sLock) (pageK 255 0x18) ≠ 0 := by decide

/-! ### WellFormed: one ill-formed term for each check -/

/-- A payload of 53 bytes. -/
def long : List Byte := List.replicate 53 0
theorem test_wf_tenant_length : Instr.wf (.kysanNop { tenant := 1, tag := 0, device := 0, flags := 0, payload := long }) = false := by decide
theorem test_wf_tenant_flags : Instr.wf (.kysanNop { tenant := 1, tag := 0, device := 0, flags := 16, payload := [] }) = false := by decide
theorem test_wf_admin : Instr.wf (.timeGet (adm long)) = false := by decide
theorem test_wf_frame : Frame.wf (frm 0 false 0 []) = true ∧ Instr.wf (.heartbeat (frm 0 false 0 [])) = true := by decide
theorem test_wf_frame_length : Instr.wf (.heartbeat (frm 0 false 0 (List.replicate 4097 0))) = false := by
  simp [Instr.wf, Frame.wf, frm]
theorem test_wf_block : Instr.wf (.getId (mc (List.replicate 256 0))) = false := by
  simp [Instr.wf, MCmd.wf, mc]
theorem test_wf_submit : Instr.wf (.submitCommit .host 1 []) = false := by decide
theorem test_wf_host_address : Instr.wf (.registerWrite .host (.addr 0) 0) = false := by decide

/-! ### The worked case after R243: edge results with S = 1 and DZT = 0 -/

def after (o : Machine.Outcome) (P : Ctx → Prop) [∀ x, Decidable (P x)] : Bool :=
  match o with
  | .next u => decide (P (runCtx u .cp))
  | _ => false
/-- The control processor with g3 and g4. -/
def sAlu (a b : Word) : State := sRun (fun c => setG 4 b (setG 3 a c))
def nzcv (x : Ctx) : Bool × Bool × Bool × Bool := (pswN x.psw, pswZ x.psw, pswC x.psw, pswV x.psw)
theorem test_neg_minimum : after (execNeg (iOf .cp) true 14 4 (sAlu 0 0x80000000))
    (fun x => gr x 14 = 0x80000000 ∧ nzcv x = (true, false, false, true)) = true := by decide
theorem test_div_overflow : after (execDiv (iOf .cp) true 14 3 4 (sAlu 0x80000000 0xFFFFFFFF))
    (fun x => gr x 14 = 0x80000000 ∧ gr x 15 = 0 ∧ nzcv x = (true, false, false, true)) = true := by decide
theorem test_div_truncates : after (execDiv (iOf .cp) true 14 3 4 (sAlu 0xFFFFFFF9 2))
    (fun x => gr x 14 = 0xFFFFFFFD ∧ gr x 15 = 0xFFFFFFFF ∧ nzcv x = (true, false, false, false)) = true := by decide
theorem test_div_by_zero : after (execDiv (iOf .cp) true 14 3 4 (sAlu 0xFFFFFFF9 0))
    (fun x => gr x 14 = 0x80000000 ∧ gr x 15 = 0xFFFFFFF9 ∧ nzcv x = (true, false, false, false) ∧ x.psw.getLsbD 8 = true) = true := by
  decide
theorem test_divu_by_zero : after (execDivu (iOf .cp) true 14 3 4 (sAlu 5 0))
    (fun x => gr x 14 = 0xFFFFFFFF ∧ gr x 15 = 5 ∧ x.psw.getLsbD 8 = true) = true := by decide
theorem test_lsl_32 : after (execLsl (iOf .cp) true 14 3 4 (sAlu 1 32))
    (fun x => gr x 14 = 0 ∧ nzcv x = (false, true, true, false)) = true := by decide
theorem test_lsl_33 : after (execLsl (iOf .cp) true 14 3 4 (sAlu 1 33))
    (fun x => gr x 14 = 0 ∧ nzcv x = (false, true, false, false)) = true := by decide
theorem test_lsr_120 : after (execLsr (iOf .cp) true 14 3 4 (sAlu 0x80000000 0x120))
    (fun x => gr x 14 = 0 ∧ nzcv x = (false, true, true, false)) = true := by decide
theorem test_asr_200 : after (execAsr (iOf .cp) true 14 3 4 (sAlu 0x80000000 200))
    (fun x => gr x 14 = 0xFFFFFFFF ∧ nzcv x = (true, false, true, false)) = true := by decide
theorem test_ror_36 : after (execRor (iOf .cp) true 14 3 4 (sAlu 0xF1 36))
    (fun x => gr x 14 = 0x1000000F ∧ nzcv x = (false, false, false, false)) = true := by decide
theorem test_ror_100 : after (execRor (iOf .cp) true 14 3 4 (sAlu 0xF1 0x100))
    (fun x => gr x 14 = 0xF1 ∧ pswC x.psw = false) = true := by decide

end Sys2Proof.Tests
end

section
namespace Sys2Proof.Machine

/-- Two fields that share no bit: a write of `f` leaves what `g` reads. -/
def Fld.apart (f g : Fld) : Bool :=
  decide (g.key ≠ f.key) || (f.ok && (decide (f.hi < g.lo) || decide (g.hi < f.lo)))

theorem getF_setF_apart {f g : Fld} (v : Nat) (s : State) (h : f.apart g = true) : getF (setF f v s) g = getF s g := by
  simp only [Fld.apart, Bool.or_eq_true, Bool.and_eq_true, decide_eq_true_eq] at h
  rcases h with h | ⟨hf, h⟩
  · exact getF_setF_key f g v s h
  · exact getF_setF_bits f g v s hf h

theorem isSet_iff (s : State) (f : Fld) : isSet s f = true ↔ getF s f ≠ 0 := by simp [isSet]

theorem isSet_setF_apart {f g : Fld} (v : Nat) (s : State) (h : f.apart g = true) : isSet (setF f v s) g = isSet s g := by
  simp [isSet, getF_setF_apart v s h]

/-- A one-bit field that is set reads 1. -/
theorem getF_bit_of_isSet {s : State} {f : Fld} (h : isSet s f = true) (hb : f.hi = f.lo) : getF s f = 1 := by
  have hlt := getF_lt s f
  rw [isSet_iff] at h
  rw [hb, Nat.add_sub_cancel_left] at hlt
  omega

@[simp] theorem execPllLock_locked {s : State} (h : isSet s fLock = true) : execPllLock s = .next s := by
  simp [execPllLock, h, done]

theorem execPllLock_first {s : State} (h : isSet s fLock = false) : execPllLock s = .next
    (updTime (fun x => { x with turn := 0, past := [],
                                cur := { frame := 0, start := 0, rounds := getF s fLenActive, cal := s.cal.val,
                                         hold := isSet s fHold, stale := reg s 0x45000074 &&& 3 ≠ 1 } })
      (setF fLock 1 s)) := by
  rw [execPllLock, h, if_neg Bool.false_ne_true]
  simp (disch := decide) only [done, getF_setF_apart, isSet_setF_apart, reg_setF_ne, setF_cal]

theorem pllLock_completes (s : State) (h : isSet s fLock = false) : Completes .pllLock s (fun t =>
    getF t fLock = 1 ∧ getF t fHold = getF s fHold ∧ getF t fRefLost = getF s fRefLost ∧ now t = 0 ∧ frameNo t = 0 ∧
    t.time.cur.start = 0 ∧ t.time.cur.rounds = getF s fLenActive ∧ t.cal = s.cal) := by
  refine ⟨_, execPllLock_first h, ?_, ?_, ?_, rfl, rfl, rfl, rfl, rfl⟩
  all_goals simp (disch := decide) [getF_setF_apart, getF_setF_self]

theorem execRefLost_locked {s : State} (h : isSet s fLock = true) :
    execRefLost s = .next (occurCp 6 (jTime 2 [] (flag fRefLost (setF fHold 1 s)))) := by simp [execRefLost, h, done]

theorem refLost_completes (s : State) (h : isSet s fLock = true) : Completes .refLost s (fun t =>
    getF t fHold = 1 ∧ getF t fRefLost = 1 ∧ getF t fLock = 1 ∧ t.time = s.time ∧ t.cal = s.cal) := by
  refine ⟨_, execRefLost_locked h, ?_, ?_, ?_, time_of (by simp), cal_of (by simp)⟩
  all_goals simp (disch := decide) [getF_setF_apart, getF_setF_self]
  exact getF_bit_of_isSet h rfl

theorem execPllRelock_held {s : State} (h : isSet s fHold = true) :
    execPllRelock s = .next (jTime 3 [] (setF fHold 0 s)) := by simp [execPllRelock, h, done]

theorem pllRelock_completes (s : State) (h : isSet s fHold = true) : Completes .pllRelock s (fun t =>
    getF t fHold = 0 ∧ getF t fRefLost = getF s fRefLost ∧ getF t fLock = getF s fLock ∧ t.time = s.time ∧
    t.cal = s.cal) := by
  refine ⟨_, execPllRelock_held h, ?_, ?_, ?_, time_of (by simp), cal_of (by simp)⟩
  all_goals simp (disch := decide) [getF_setF_apart, getF_setF_self]

/-- A write of a register takes part of a word: the field that receives it holds it whole. -/
theorem getF_setF_bitsOf (f : Fld) (v : Word) (hi lo : Nat) (s : State) (h : f.ok = true) (hw : hi + 1 - lo ≤ f.hi + 1 - f.lo) :
    getF (setF f (bitsOf v hi lo) s) f = bitsOf v hi lo := by
  rw [getF_setF_self _ _ _ h]
  exact Nat.mod_eq_of_lt ((bitsOf_lt v hi lo).trans_le (Nat.pow_le_pow_right (by decide) hw))

theorem frameCtrl_taken {s : State} {v : Word} (tick : Nat) (hg : isSet s fGroupLock = false) (hl : 200 ≤ bitsOf v 11 0)
    (hh : bitsOf v 11 0 ≤ 4000) : frameCtrl tick v s =
      setF fLenPending 1 (setF fLenRounds (bitsOf v 11 0)
        (updTime (fun x => { x with pendLen := some (bitsOf v 11 0, tick) }) (setF fOvrLimit (bitsOf v 23 16) s))) := by
  have hr : ¬ (bitsOf v 11 0 < 200 ∨ 4000 < bitsOf v 11 0) := by omega
  simp (disch := decide) [frameCtrl, isSet_setF_apart, hg, hr]

theorem frameCtrl_ofGroup {s : State} (tick : Nat) (v : Word) (hg : isSet s fGroupLock = true) :
    frameCtrl tick v s = setF fOvrLimit (bitsOf v 23 16) s := by
  simp (disch := decide) [frameCtrl, isSet_setF_apart, hg]

theorem execFrameCtrlWrite_sup {s : State} {c : CoreId} (v : Word) (h : supCore s c = true) :
    execFrameCtrlWrite c v s = .next (frameCtrl (lenTickAt s) v s) := by simp [execFrameCtrlWrite, timeWriter, h, done]

theorem execFrameCtrlWrite_user {s : State} {c : CoreId} (v : Word) (h : supCore s c = false) :
    execFrameCtrlWrite c v s = .next (busErr c 0x45000010 s) := by simp [execFrameCtrlWrite, timeWriter, h, done]

theorem lenTickAt_alone {s : State} (h : getF s fGrpChips ≤ 1) : lenTickAt s = frameNo s + 2 := by
  simp [lenTickAt, h, lenTick]

theorem lenTickAt_ge (s : State) : frameNo s + 2 ≤ lenTickAt s := by
  simp only [lenTickAt, lenTick]; split <;> omega

theorem frameCtrlWrite_completes (s : State) (c : CoreId) (v : Word) (hs : supCore s c = true)
    (hg : isSet s fGroupLock = false) (hl : 200 ≤ bitsOf v 11 0) (hh : bitsOf v 11 0 ≤ 4000) :
    Completes (.frameCtrlWrite c v) s (fun t =>
      (getF s fGrpChips ≤ 1 → t.time.pendLen = some (bitsOf v 11 0, frameNo s + 2)) ∧
      t.time.pendLen = some (bitsOf v 11 0, lenTickAt s) ∧ frameNo s + 2 ≤ lenTickAt s ∧
      getF t fLenPending = 1 ∧ getF t fLenRounds = bitsOf v 11 0 ∧ getF t fLenRej = getF s fLenRej ∧
      getF t fOvrLimit = bitsOf v 23 16 ∧ t.time.cur = s.time.cur ∧ now t = now s) := by
  refine ⟨_, (execFrameCtrlWrite_sup v hs).trans (congrArg _ (frameCtrl_taken _ hg hl hh)), ?_⟩
  refine ⟨fun h1 => by simp [updTime, lenTickAt_alone h1], by simp [updTime], lenTickAt_ge s,
    getF_setF_self _ _ _ rfl, ?_, ?_, ?_, by simp [updTime], by simp [updTime, now]⟩
  all_goals simp (disch := decide) [getF_setF_apart, getF_setF_bitsOf]

theorem frameCtrlWrite_ofGroup_completes (s : State) (c : CoreId) (v : Word) (hs : supCore s c = true)
    (hg : isSet s fGroupLock = true) : Completes (.frameCtrlWrite c v) s (fun t =>
      t.time = s.time ∧ getF t fLenRounds = getF s fLenRounds ∧ getF t fLenPending = getF s fLenPending ∧
      getF t fLenRej = getF s fLenRej ∧ getF t fOvrLimit = bitsOf v 23 16) := by
  refine ⟨_, (execFrameCtrlWrite_sup v hs).trans (congrArg _ (frameCtrl_ofGroup _ v hg)), ?_⟩
  simp (disch := decide) [getF_setF_apart, getF_setF_bitsOf]

theorem time_busErr (c : CoreId) (a : Nat) (s : State) : (busErr c a s).time = s.time := time_of (by simp)

end Sys2Proof.Machine

open Sys2Proof Sys2Proof.Machine

/-- Settles O8: one lemma for each row of the metronome, and one for each branch of the FRAME_CTRL write. -/
theorem frameLengthAndMetronome : Obligations.FrameLengthAndMetronome := by
  unfold Obligations.FrameLengthAndMetronome
  refine ⟨⟨pllLock_completes, fun s h => ⟨s, execPllLock_locked h, rfl⟩, refLost_completes, fun s h => ⟨s, ?_, rfl⟩,
    pllRelock_completes, fun s h => ⟨s, ?_, rfl⟩⟩, frameCtrlWrite_completes, frameCtrlWrite_ofGroup_completes,
    fun s c v h => ⟨execFrameCtrlWrite_user v h, time_busErr c _ s⟩⟩
  · show execRefLost s = .next s
    simp [execRefLost, h, done]
  · show execPllRelock s = .next s
    simp [execPllRelock, h, done]
end
section
open Sys2Proof Sys2Proof.Machine

namespace Sys2Proof.Machine

/-- A command that answers a state and completes with a property answers a state with the property. -/
theorem Completes.of_exec {c : Instr} {s t : State} {P : State → Prop} (h : Completes c s P) (e : exec c s = .next t) :
    P t := by
  obtain ⟨u, hu, hp⟩ := h
  rw [e] at hu
  cases hu
  exact hp

/-- A NOP slot of the administration page (R290, R303). -/
def nopSlot : Slot := mkSlot 1 0 7 0xFF 0 0 0 []

/-- Two slots wait in the administration page's inbound ring: the second, all zero, is no administration command. -/
def twoSlots : State := setF (fInTail 256) 2 State.reset

/-- LC_DETACH of a channel that does not exist. -/
def detachNone : ACmd := { tag := 0, payload := [128], hostBytes := none }

/-- The control processor's source 10 is enabled, and a delivery of it has committed in this turn (R379). -/
def served10 : State :=
  updClus 16 (fun x => { x with commits := (0, [10]) })
    (setF (fSrcEn 16 10) 1 (updPower (fun p => { p with released := true }) State.reset))

end Sys2Proof.Machine

/-- Refutes O11: on the administration page (a `PageId` that the first clause does not leave out) the control processor
answers a committed NOP slot at once (R307), so that IN_HEAD advances, where the clause has it stay. -/
theorem not_mailboxPages : ¬ Obligations.MailboxPages := by
  unfold Obligations.MailboxPages
  rintro ⟨⟨hSubmit, -⟩, -⟩
  have hAdmin := (hSubmit State.reset .host 256 nopSlot (by decide) (by decide) (by decide) (by decide)).of_exec rfl
  obtain ⟨-, hHead, -⟩ := hAdmin
  exact absurd hHead (by decide +kernel)

/-- Refutes O46: the answer to a command is followed by the answers to the slots behind it that need no command of their own
(R291, R307). With one such slot in the ring, a refused LC_DETACH advances OUT_TAIL by 2, where the clause has it advance
by 1 whenever the ring has room for one response. -/
theorem not_loadAndJournalAdministration : ¬ Obligations.LoadAndJournalAdministration := by
  unfold Obligations.LoadAndJournalAdministration
  rintro ⟨⟨-, -, -, hDetach, -⟩, -⟩
  obtain ⟨hRange, -⟩ := hDetach twoSlots detachNone 128 (by decide) (by decide)
  obtain ⟨-, hReplied⟩ := (hRange (by decide)).of_exec rfl
  obtain ⟨-, hTail⟩ := hReplied (by decide)
  exact absurd hTail (by decide)

/-- Refutes O60: an occurrence of a source whose delivery committed in the same turn is part of that delivery and sets no PEND
bit (R379). So a read of the management port's reply leaves source 10 without PEND there, where the clause has it set
whenever the source is enabled. -/
theorem not_managementAndRegisterWrites : ¬ Obligations.ManagementAndRegisterWrites := by
  unfold Obligations.ManagementAndRegisterWrites
  rintro ⟨⟨-, -, -, hRead⟩, -⟩
  obtain ⟨-, hPend⟩ := ((hRead served10).1 (by decide) (by decide)).of_exec rfl
  exact absurd (hPend (by decide)) (by decide)
end

section
namespace Sys2Proof.Machine

/-! ### Bits of a word -/

theorem bitsOf_bit (w : Word) (b : Nat) : bitsOf w b b = (w.getLsbD b).toNat := by
  rw [bitsOf, Nat.add_sub_cancel_left, Nat.pow_one, BitVec.getLsbD, Nat.toNat_testBit]

theorem getLsbD_of_bitsOf {x y : Word} {b : Nat} (h : bitsOf x b b = bitsOf y b b) : x.getLsbD b = y.getLsbD b := by
  rw [bitsOf_bit, bitsOf_bit] at h
  revert h
  cases x.getLsbD b <;> cases y.getLsbD b <;> decide

/-- A field takes the bits of a field of its width whole. -/
theorem bitsOf_withBits_bitsOf (w x : Word) {hi lo : Nat} (hl : lo ≤ hi) (hh : hi < 32) :
    bitsOf (withBits w hi lo (bitsOf x hi lo)) hi lo = bitsOf x hi lo := by
  rw [bitsOf_withBits_self _ _ hl hh, Nat.mod_eq_of_lt (bitsOf_lt ..)]

theorem testBit_bitsOf (w : Word) (hi lo j : Nat) :
    (bitsOf w hi lo).testBit j = (decide (j < hi + 1 - lo) && w.getLsbD (j + lo)) := by
  rw [bitsOf, Nat.testBit_mod_two_pow, Nat.testBit_div_two_pow, BitVec.getLsbD]

/-- A field of a conjunction depends on that field of its words alone. -/
theorem bitsOf_and_congr {x y : Word} (m : Word) {hi lo : Nat} (h : bitsOf x hi lo = bitsOf y hi lo) :
    bitsOf (x &&& m) hi lo = bitsOf (y &&& m) hi lo := by
  refine Nat.eq_of_testBit_eq fun j => ?_
  have hj := congrArg (fun n => n.testBit j) h
  simp only [testBit_bitsOf, BitVec.getLsbD_and] at hj ⊢
  rw [← Bool.and_assoc, ← Bool.and_assoc, hj]

/-! ### Fields of a register row (R14, R15, R17) -/

/-- A field of a row lies in a word, and outside bits [hi:lo]. -/
def Fd.clear (g : Fd) (hi lo : Nat) : Bool := decide (g.lo ≤ g.hi ∧ g.hi < 32 ∧ (g.hi < lo ∨ hi < g.lo))

/-- A change of a word field by field: the step of each field leaves the bits outside it. -/
def FieldStep (step : Word → Fd → Word) : Prop :=
  ∀ (g : Fd) (w : Word) (hi lo : Nat), g.clear hi lo = true → bitsOf (step w g) hi lo = bitsOf w hi lo

theorem bitsOf_foldl_clear {step : Word → Fd → Word} (hs : FieldStep step) {hi lo : Nat} :
    ∀ (fs : List Fd) (w : Word), fs.all (fun g => g.clear hi lo) = true → bitsOf (fs.foldl step w) hi lo = bitsOf w hi lo
  | [], _, _ => rfl
  | g :: fs, w, h => by
    simp only [List.all_cons, Bool.and_eq_true] at h
    rw [List.foldl_cons, bitsOf_foldl_clear hs fs _ h.2, hs g w hi lo h.1]

/-- Where the other fields of a row lie outside field i, the row's change shows there what field i's step does. -/
theorem bitsOf_foldl_field {step : Word → Fd → Word} (hs : FieldStep step) {fs : List Fd} {i : Nat} {f : Fd}
    (hi : fs[i]? = some f) (hd : (fs.eraseIdx i).all (fun g => g.clear f.hi f.lo) = true) (w : Word) :
    ∃ w', bitsOf w' f.hi f.lo = bitsOf w f.hi f.lo ∧ bitsOf (fs.foldl step w) f.hi f.lo = bitsOf (step w' f) f.hi f.lo := by
  obtain ⟨hlt, hget⟩ := List.getElem?_eq_some_iff.mp hi
  rw [List.eraseIdx_eq_take_drop_succ, List.all_append, Bool.and_eq_true] at hd
  have hsplit : fs = fs.take i ++ f :: fs.drop (i + 1) := by
    rw [← hget, List.getElem_cons_drop, List.take_append_drop]
  refine ⟨(fs.take i).foldl step w, bitsOf_foldl_clear hs _ _ hd.1, ?_⟩
  conv_lhs => rw [hsplit, List.foldl_append, List.foldl_cons]
  exact bitsOf_foldl_clear hs _ _ hd.2

theorem bitsOf_withBits_clear {g : Fd} {hi lo : Nat} (h : g.clear hi lo = true) (w : Word) (v : Nat) :
    bitsOf (withBits w g.hi g.lo v) hi lo = bitsOf w hi lo := by
  simp only [Fd.clear, decide_eq_true_eq] at h
  exact bitsOf_withBits_ne w v h.1 h.2.1 h.2.2

theorem writeField_step (new : Word) : FieldStep (fun w f => writeField f new w) := by
  intro g w hi lo h
  dsimp only [writeField]
  cases g.acc <;> dsimp only
  case rw =>
    split
    · exact bitsOf_withBits_clear h _ _
    · rfl
  case w1c => exact bitsOf_withBits_clear h _ _
  case w1s => exact bitsOf_withBits_clear h _ _

/-- What a write of software presents to one field (R15): the step of `coolWrite`. -/
def coolField (hot : Word) (w : Word) (f : Fd) : Word :=
  match f.acc with
  | .w1c | .w1s => withBits w f.hi f.lo (bitsOf (w &&& ~~~hot) f.hi f.lo)
  | .rw | .ro | .wo => w

theorem coolWrite_eq (fs : List Fd) (hot v : Word) : coolWrite fs hot v = fs.foldl (coolField hot) v := rfl

theorem coolField_step (hot : Word) : FieldStep (coolField hot) := by
  intro g w hi lo h
  dsimp only [coolField]
  cases g.acc <;> dsimp only
  case w1c => exact bitsOf_withBits_clear h _ _
  case w1s => exact bitsOf_withBits_clear h _ _

/-- The fields of the register under a key. -/
def rowFields (key : Nat) : List Fd := (regRow key).elim [] (fun r => r.1.fields)

/-- The word that a write of software leaves in its register (R14, R15, R17). -/
theorem reg_softWrite_self (key : Nat) (v : Word) (s : State) : reg (softWrite key v s) key =
    writeFields (rowFields key) (coolWrite (rowFields key) (hotBits s key) v) (reg s key) := by
  unfold softWrite rowFields
  cases regRow key with
  | none => rfl
  | some r => simp

theorem reg_softWrite_ne {key k : Nat} (v : Word) (s : State) (h : k ≠ key) : reg (softWrite key v s) k = reg s k := by
  unfold softWrite
  split
  · exact reg_setReg_ne _ _ h
  · rfl

/-- Field i of the register under a key, which the register's other fields leave alone. -/
structure FieldAt (key i : Nat) (f : Fd) : Prop where
  get : (rowFields key)[i]? = some f
  inWord : f.lo ≤ f.hi ∧ f.hi < 32
  others : ((rowFields key).eraseIdx i).all (fun g => g.clear f.hi f.lo) = true

section
variable {key i : Nat} {f : Fd} (hf : FieldAt key i f) (v : Word) (s : State)
include hf

/-- What one field reads after a write of software: what its own step makes of the field and of the bits presented to it. -/
theorem bitsOf_softWrite : ∃ new old : Word, bitsOf old f.hi f.lo = bitsOf (reg s key) f.hi f.lo ∧
    (∃ w, bitsOf w f.hi f.lo = bitsOf v f.hi f.lo ∧
      bitsOf new f.hi f.lo = bitsOf (coolField (hotBits s key) w f) f.hi f.lo) ∧
    bitsOf (reg (softWrite key v s) key) f.hi f.lo = bitsOf (writeField f new old) f.hi f.lo := by
  obtain ⟨w, hw, hnew⟩ := bitsOf_foldl_field (coolField_step (hotBits s key)) hf.get hf.others v
  rw [reg_softWrite_self]
  obtain ⟨old, hold, hres⟩ := bitsOf_foldl_field (writeField_step (coolWrite (rowFields key) (hotBits s key) v))
    hf.get hf.others (reg s key)
  exact ⟨_, old, hold, ⟨w, hw, hnew⟩, hres⟩

/-- A field with access RW takes a value that it may hold (R14, R17). -/
theorem getF_softWrite_rw (ha : f.acc = .rw) (hv : f.vmin ≤ bitsOf v f.hi f.lo ∧ bitsOf v f.hi f.lo ≤ f.vmax) :
    getF (softWrite key v s) (fld key f.hi f.lo) = bitsOf v f.hi f.lo := by
  obtain ⟨new, old, -, ⟨w, hw, hnew⟩, hres⟩ := bitsOf_softWrite hf v s
  simp only [coolField, ha] at hnew
  rw [hw] at hnew
  simp only [writeField, ha, hnew, if_pos hv] at hres
  exact hres.trans (bitsOf_withBits_bitsOf _ _ hf.inWord.1 hf.inWord.2)

/-- A field with access RO keeps its value (R14). -/
theorem getF_softWrite_ro (ha : f.acc = .ro) : getF (softWrite key v s) (fld key f.hi f.lo) = getF s (fld key f.hi f.lo) := by
  obtain ⟨new, old, hold, -, hres⟩ := bitsOf_softWrite hf v s
  simp only [writeField, ha] at hres
  exact hres.trans hold

/-- A one-bit flag is cleared by writing 1, unless a hardware event has set it in this turn (R14, R15). -/
theorem getF_softWrite_flag (ha : f.acc = .w1c) {b : Nat} (hb : f.hi = b ∧ f.lo = b) :
    getF (softWrite key v s) (bit key b) =
      if v.getLsbD b = true ∧ (hotBits s key).getLsbD b = false then 0 else getF s (bit key b) := by
  obtain ⟨rfl, hlo⟩ := hb
  have h32 : f.hi < 32 := hf.inWord.2
  obtain ⟨new, old, hold, ⟨w, hw, hnew⟩, hres⟩ := bitsOf_softWrite hf v s
  simp only [coolField, writeField, ha, hlo, bitsOf_withBits_bitsOf _ _ (Nat.le_refl _) h32] at hold hw hnew hres
  have hbits := hres.trans (bitsOf_and_congr (~~~new) hold)
  have hcool := getLsbD_of_bitsOf (hnew.trans (bitsOf_and_congr (~~~hotBits s key) hw))
  show bitsOf (reg (softWrite key v s) key) f.hi f.hi = if _ then 0 else bitsOf (reg s key) f.hi f.hi
  rw [hbits, bitsOf_bit, bitsOf_bit]
  simp only [BitVec.getLsbD_and, BitVec.getLsbD_not, h32, decide_true, Bool.true_and, hcool]
  cases v.getLsbD f.hi <;> cases (hotBits s key).getLsbD f.hi <;> simp
end

end Sys2Proof.Machine
end

section
namespace Sys2Proof.Machine

/-! ### The registers of a pad (R136) -/

theorem regRow_winK {n off : Nat} (hn : n < 16) (ho : off < 0x10000) : regRow (winK n off) = findRow rowsWin off := by
  have h1 : winK n off < 0x100000000 := by unfold winK; omega
  have h2 : 0x20 ≤ winK n off / 0x1000000 ∧ winK n off / 0x1000000 < 0x30 := by unfold winK; omega
  have h3 : winK n off % 0x1000000 / 0x10000 = 0x80 := by unfold winK; omega
  have h4 : winK n off % 0x10000 = off := by unfold winK; omega
  simp only [regRow, h1, h2, h3, h4, and_self, if_true]

theorem rowFields_padK {p : Nat} (hp : p < 1024) {off : Nat} (ho : off < 0x40) :
    rowFields (padK p off) = (findRow rowsWin (0x2000 + 0x40 * (p % 64) + off)).elim [] (fun r => r.1.fields) := by
  rw [rowFields, padK, regRow_winK (by omega) (by omega)]

/-- Every pad of a group has the fields of SA_CTRL, and those of SA_STAT. -/
theorem padRows : ∀ i : Fin 64,
    (findRow rowsWin (0x2000 + 0x40 * i.val + 8)).elim [] (fun r => r.1.fields) = rowFields (padK 0 8) ∧
    (findRow rowsWin (0x2000 + 0x40 * i.val + 0x14)).elim [] (fun r => r.1.fields) = rowFields (padK 0 0x14) := by
  decide +kernel

theorem rowFields_saCtrl {p : Nat} (hp : p < 1024) : rowFields (padK p 8) = rowFields (padK 0 8) :=
  (rowFields_padK hp (by decide)).trans (padRows ⟨p % 64, Nat.mod_lt _ (by decide)⟩).1

theorem rowFields_saStat {p : Nat} (hp : p < 1024) : rowFields (padK p 0x14) = rowFields (padK 0 0x14) :=
  (rowFields_padK hp (by decide)).trans (padRows ⟨p % 64, Nat.mod_lt _ (by decide)⟩).2

/-- A field of the row that two registers share. -/
theorem FieldAt.of_rowFields {k key i : Nat} {f : Fd} (h : FieldAt k i f) (e : rowFields key = rowFields k) :
    FieldAt key i f := ⟨e ▸ h.get, h.inWord, e ▸ h.others⟩

section
variable {p : Nat} (hp : p < 1024)
include hp

theorem mode_fieldAt : FieldAt (padK p 8) 10 (rwR 2 0 0 5) :=
  FieldAt.of_rowFields ⟨by decide, by decide, by decide⟩ (rowFields_saCtrl hp)
theorem linkpad_fieldAt : FieldAt (padK p 8) 0 (rw 29 24) :=
  FieldAt.of_rowFields ⟨by decide, by decide, by decide⟩ (rowFields_saCtrl hp)
theorem txabort_fieldAt : FieldAt (padK p 0x14) 0 (ro 31 24) :=
  FieldAt.of_rowFields ⟨by decide, by decide, by decide⟩ (rowFields_saStat hp)
theorem drops_fieldAt : FieldAt (padK p 0x14) 1 (ro 23 16) :=
  FieldAt.of_rowFields ⟨by decide, by decide, by decide⟩ (rowFields_saStat hp)
theorem txovr_fieldAt : FieldAt (padK p 0x14) 5 (w1c 9 9) :=
  FieldAt.of_rowFields ⟨by decide, by decide, by decide⟩ (rowFields_saStat hp)
theorem rxovr_fieldAt : FieldAt (padK p 0x14) 6 (w1c 8 8) :=
  FieldAt.of_rowFields ⟨by decide, by decide, by decide⟩ (rowFields_saStat hp)

end

/-! ### What an exception leaves of the registers (R219, R272) -/

/-- Keys of the registers that an exception of a core can change: FAULT_COUNT, those of a journal record, the thread registers
and doorbells of the cluster windows, and the registers that a core sees as its own. -/
def excKeys (k : Nat) : Bool :=
  logKeys k || decide (k = 0x46000010 ∨ (0x20000000 ≤ k ∧ k < 0x30000000 ∧ k % 0x1000000 < 0x801000) ∨
    (0x100000000 ≤ k ∧ k < 0x200000000))

theorem excKeys_of_log {k : Nat} (h : excKeys k = false) : logKeys k = false := by
  simp only [excKeys, Bool.or_eq_false_iff] at h
  exact h.1

theorem excKeys_window {n off : Nat} (hn : n < 16) (ho : off < 0x1000) : excKeys (winK n off) = true := by
  rw [excKeys, Bool.or_eq_true, decide_eq_true_eq]
  unfold winK
  omega

theorem excKeys_priv {i off : Nat} (hi : i < 0x1000) (ho : off < 0x1000) : excKeys (privK i off) = true := by
  rw [excKeys, Bool.or_eq_true, decide_eq_true_eq]
  unfold privK
  omega

theorem logKeys_padK {p off : Nat} (hp : p < 1024) (ho : off < 0x40) : logKeys (padK p off) = false := by
  simp only [logKeys, icKeys, icK, Bool.or_eq_false_iff, decide_eq_false_iff_not, if_true]
  unfold padK winK
  omega

theorem excKeys_padK {p off : Nat} (hp : p < 1024) (ho : off < 0x40) : excKeys (padK p off) = false := by
  rw [excKeys, logKeys_padK hp ho, Bool.false_or, decide_eq_false_iff_not]
  unfold padK winK
  omega

theorem RegsOnly.of_regs {K : Nat → Bool} {s t : State} (h : t.regs = s.regs) : RegsOnly K s t :=
  ⟨fun k _ => by rw [Machine.reg, Machine.reg, h]⟩

theorem faultRec_regs (mech outcome unit lcl phys pos tenant addr detail cast : Nat) (s : State) :
    RegsOnly excKeys s (faultRec mech outcome unit lcl phys pos tenant addr detail cast s) := by
  unfold faultRec
  have hLog : ∀ p u, RegsOnly excKeys u (occurCp 1 (jnl 0x0D p u)) := fun p u =>
    ((jnl_log _ p u).trans (occurCp_log 1 _ (by decide))).mono fun _ => excKeys_of_log
  refine RegsOnly.trans ?_ (hLog _ _)
  refine RegsOnly.trans ?_ (RegsOnly.addF _ _ (by decide))
  exact RegsOnly.of_regs rfl

theorem threadFault_regs (n : ClusterId) (t : ThreadNo) (cause : Nat) (bad : Word) (s : State) :
    RegsOnly excKeys s (threadFault n.val t.val cause bad s) := by
  have hn := n.isLt
  have ht := t.isLt
  have hrec : ∀ k, k < 4 → excKeys (winK n.val (0x210 + 0x20 * t.val + 4 * k)) = true := fun k hk =>
    excKeys_window hn (by omega)
  have hset : ∀ (k hi lo v : Nat) (u : State), k < 4 → RegsOnly excKeys u (setF (fFaultRec n.val t.val k hi lo) v u) :=
    fun k hi lo v u hk => RegsOnly.setF _ _ (hrec k hk)
  unfold threadFault
  refine RegsOnly.trans ?_ (faultRec_regs ..)
  have hstate : ∀ u, RegsOnly excKeys u (setF (fThrState n.val t.val) 3 u) := fun u =>
    RegsOnly.setF _ _ (excKeys_window hn (by omega))
  have hbell : ∀ u, RegsOnly excKeys u (if t.val = 0 then u else flag (fT0Bell n.val t.val) u) := fun u => by
    split
    · exact RegsOnly.refl _ _
    · exact RegsOnly.flag _ (excKeys_window hn (by decide))
  refine RegsOnly.trans ?_ (hbell _)
  refine RegsOnly.trans ?_ (hstate _)
  refine RegsOnly.trans ?_ (hset 3 _ _ _ _ (by decide))
  refine RegsOnly.trans ?_ (hset 2 _ _ _ _ (by decide))
  refine RegsOnly.trans ?_ (hset 1 _ _ _ _ (by decide))
  refine RegsOnly.trans ?_ (RegsOnly.addF _ _ (hrec 0 (by decide)))
  refine RegsOnly.trans ?_ (hset 0 _ _ _ _ (by decide))
  refine RegsOnly.trans ?_ (hset 0 _ _ _ _ (by decide))
  refine RegsOnly.trans ?_ (hset 0 _ _ _ _ (by decide))
  exact RegsOnly.of_regs rfl

theorem coreEntry_regs {i : Nat} (hi : i < 0x1000) (cause detail : Nat) (bad : Word) (s : State) :
    RegsOnly excKeys s (coreEntry i cause detail bad s) := by
  unfold coreEntry
  have h808 : excKeys (privK i 0x808) = true := excKeys_priv hi (by decide)
  have h804 : excKeys (privK i 0x804) = true := excKeys_priv hi (by decide)
  have hUpd : ∀ f u, RegsOnly excKeys u (updCore i f u) := fun f u => RegsOnly.of_regs rfl
  exact ((RegsOnly.setReg _ s h808).trans (RegsOnly.setReg _ _ h804)).trans (hUpd _ _)

theorem firstPos_le (s : State) (n x : Nat) : firstPos s n x ≤ x := by
  unfold firstPos
  split <;> omega

theorem runIx_lt (s : State) (c : CoreId) : runIx s c < 0x1000 := by
  cases c with
  | thread n t => simp only [runIx]; omega
  | lane n x => have := firstPos_le s n.val x.val; simp only [runIx]; omega
  | cp => simp [runIx]

/-- An exception changes only the registers under `excKeys`. -/
theorem raiseExc_regs (c : CoreId) (cause detail : Nat) (bad : Word) (s : State) :
    RegsOnly excKeys s (raiseExc c cause detail bad s) := by
  cases c with
  | thread n t => exact threadFault_regs n t cause bad s
  | lane n x => exact coreEntry_regs (runIx_lt s (.lane n x)) cause detail bad s
  | cp => exact coreEntry_regs (by decide) cause detail bad s

theorem busErr_regs (c : CoreId) (a : Nat) (s : State) : RegsOnly excKeys s (busErr c a s) := raiseExc_regs ..

end Sys2Proof.Machine
end

section
namespace Sys2Proof.Machine

/-! ### What a shift assist's transmission leaves of the registers (R143–R145, R227) -/

/-- Keys of the registers that a transmission of pad p can change: SA_TXSTAMP, and those of a journal record. -/
def txKeys (p k : Nat) : Bool := logKeys k || decide (k = padK p 0x20 ∨ k = padK p 0x24)

theorem txKeys_of_log {p k : Nat} (h : txKeys p k = false) : logKeys k = false := by
  rw [txKeys, Bool.or_eq_false_iff] at h
  exact h.1

theorem txKeys_padK {p off : Nat} (hp : p < 1024) (ho : off < 0x20) : txKeys p (padK p off) = false := by
  rw [txKeys, logKeys_padK hp (by omega), Bool.false_or, decide_eq_false_iff_not]
  unfold padK winK
  omega

theorem RegsOnly.ite {K : Nat → Bool} {c : Prop} [Decidable c] {s t u : State} (ht : RegsOnly K s t)
    (hu : RegsOnly K s u) : RegsOnly K s (if c then t else u) := by
  split <;> assumption

theorem runClose_log (tx : Bool) (p : Nat) (s : State) : RegsOnly logKeys s (runClose tx p s) := by
  unfold runClose
  split
  · exact RegsOnly.refl _ _
  · dsimp only
    split
    · exact RegsOnly.updJnl _ _
    · exact (RegsOnly.updJnl _ s).trans (jnlAt_log ..)

theorem runByte_log (tx : Bool) (p : Nat) (b : RxByte) (s : State) : RegsOnly logKeys s (runByte tx p b s) := by
  have hJnl : ∀ f, RegsOnly logKeys s (updJnl f s) := fun f => RegsOnly.updJnl f s
  have hClose : ∀ f, RegsOnly logKeys s (runClose tx p (updJnl f s)) := fun f => (hJnl f).trans (runClose_log ..)
  exact RegsOnly.ite (hClose _) (hJnl _)

theorem txJournal_log (p q : Nat) (w : TxWord) (e : Nat) (s : State) : RegsOnly logKeys s (txJournal p q w e s) := by
  have hByte : ∀ b, RegsOnly logKeys s (runByte true q b s) := fun b => runByte_log ..
  have hClose : ∀ b, RegsOnly logKeys s (runClose true q (runByte true q b s)) := fun b =>
    (hByte b).trans (runClose_log ..)
  unfold txJournal
  refine RegsOnly.ite (hByte _) ?_
  split
  · exact RegsOnly.ite (hByte _) (hClose _)
  · exact hClose _

theorem txLaunch_regs (p e : Nat) (s : State) : RegsOnly (txKeys p) s (txLaunch p e s) := by
  have hUpd : ∀ f u, RegsOnly (txKeys p) u (updPad p f u) := fun f u => RegsOnly.of_regs rfl
  have hStamp : ∀ off w u, off = 0x20 ∨ off = 0x24 → RegsOnly (txKeys p) u (setReg (padK p off) w u) := fun off w u h =>
    RegsOnly.setReg w u (by rcases h with rfl | rfl <;> simp [txKeys])
  have hCount : ∀ w u, RegsOnly (txKeys p) u (countLaunch p w u) := fun w u => RegsOnly.of_regs (regs_of (by simp))
  unfold txLaunch
  split
  · exact hUpd _ _
  · next w ws _ =>
    dsimp only
    have hHead : ∀ f a b u, RegsOnly (txKeys p) u
        (countLaunch p w (setReg (padK p 0x20) a (setReg (padK p 0x24) b (updPad p f u)))) := fun f a b u =>
      (((hUpd f u).trans (hStamp 0x24 b _ (.inr rfl))).trans (hStamp 0x20 a _ (.inl rfl))).trans (hCount w _)
    split
    · exact (hHead _ _ _ _).trans ((txJournal_log ..).mono fun _ => txKeys_of_log)
    · exact hHead _ _ _ _

theorem txNext_regs {p t : Nat} {s u : State} (h : txNext p t s = some u) : RegsOnly (txKeys p) s u := by
  unfold txNext at h
  dsimp only at h
  split at h
  · split at h
    · cases h; exact txLaunch_regs ..
    · cases h
  · split at h
    · split at h
      · split at h
        · cases h; exact RegsOnly.of_regs (regs_of (by simp))
        · cases h
      · cases h
    · split at h
      · split at h
        · cases h; exact RegsOnly.of_regs (regs_of (by simp))
        · cases h
      · cases h

theorem txCatch_go_regs (p t : Nat) : ∀ (n : Nat) (s : State), RegsOnly (txKeys p) s (txCatch.go p t n s)
  | 0, s => RegsOnly.refl _ s
  | n + 1, s => by
    unfold txCatch.go
    split
    · next u h => exact (txNext_regs h).trans (txCatch_go_regs p t n u)
    · exact RegsOnly.refl _ s

theorem txCatch_regs (p t : Nat) (s : State) : RegsOnly (txKeys p) s (txCatch p t s) := txCatch_go_regs p t 11 s

/-! ### Emptying a shift assist (R144, R149) -/

theorem regs_deRelease (p t : Nat) (s : State) : (deRelease p t s).regs = s.regs := regs_of (by simp)

theorem getF_deRelease (p t : Nat) (s : State) (g : Fld) : getF (deRelease p t s) g = getF s g := by
  rw [getF, getF, reg, reg, regs_deRelease]

/-- A release of driver-enable leaves it released, and the queues as they were. -/
theorem pad_deRelease (p t : Nat) (s : State) :
    (pad (deRelease p t s) p).deAt = none ∧ (pad (deRelease p t s) p).rxq = (pad s p).rxq ∧
    (pad (deRelease p t s) p).txq = (pad s p).txq ∧ (pad (deRelease p t s) p).cur = (pad s p).cur ∧
    (pad (deRelease p t s) p).cand = (pad s p).cand := by
  unfold deRelease
  split
  · simp
  · next h => exact ⟨h, rfl, rfl, rfl, rfl⟩

/-- Emptying a shift assist counts in TXABORT, and else leaves the pad's registers but SA_TXSTAMP. -/
theorem getF_saFlush {p : Nat} {g : Fld} (s : State) (hk : txKeys p g.key = false) (ha : (fTxabort p).apart g = true) :
    getF (saFlush p s) g = getF s g := by
  show getF (deRelease p _ (addF (fTxabort p) _ (txCatch p (now s) s))) g = getF s g
  rw [getF_deRelease, addF, getF_setF_apart _ _ ha, (txCatch_regs p (now s) s).getF g hk]

theorem pad_saFlush (p : Nat) (s : State) :
    (pad (saFlush p s) p).rxq = [] ∧ (pad (saFlush p s) p).txq = [] ∧ (pad (saFlush p s) p).cur = none ∧
    (pad (saFlush p s) p).cand = none ∧ (pad (saFlush p s) p).deAt = none := by
  unfold saFlush
  dsimp only
  rw [pad_updPad_self]
  exact ⟨rfl, rfl, rfl, rfl, (pad_deRelease p _ _).1⟩

/-! ### Reception up to the present turn (R142) -/

theorem pad_congr {s t : State} {p : Nat} (h : t.pads = s.pads) : pad t p = pad s p := by rw [pad, pad, h]

theorem txq_rxQueue (p : Nat) (e : QEntry) (s : State) : (pad (rxQueue p e s) p).txq = (pad s p).txq := by
  unfold rxQueue
  split
  · simp
  · rw [pad_addF, pad_congr (flag_pads ..)]

theorem txq_rxCheck (p e : Nat) (s : State) : (pad (rxCheck p e s) p).txq = (pad s p).txq := by
  unfold rxCheck
  dsimp only
  split
  · simp
  · rw [pad_congr (flag_pads ..), pad_updPad_self]

theorem txq_rxComplete (p e : Nat) (s : State) : (pad (rxComplete p e s) p).txq = (pad s p).txq := by
  unfold rxComplete
  rw [txq_rxQueue, pad_updPad_self]

theorem txq_rxCatch (p t : Nat) (s : State) : (pad (rxCatch p t s) p).txq = (pad s p).txq := by
  unfold rxCatch
  split
  · rfl
  · next e _ =>
    have hCheck : ∀ (c : Prop) [Decidable c], (pad (if c then rxCheck p e s else s) p).txq = (pad s p).txq :=
      fun c _ => by
        split
        · exact txq_rxCheck ..
        · rfl
    have hComplete : ∀ (c : Prop) [Decidable c] (u : State),
        (pad (if c then rxComplete p e u else u) p).txq = (pad u p).txq := fun c _ u => by
      split
      · exact txq_rxComplete ..
      · rfl
    exact (hComplete _ _).trans (hCheck _)

theorem next_of_true {b : Bool} (h : b = true) (x y : State) : (.next (if b then x else y) : Outcome) = .next x := by
  simp [h]

theorem next_of_false {b : Bool} (h : b = false) (x y : State) : (.next (if b then x else y) : Outcome) = .next y := by
  simp [h]

/-! ### The commands of a pad's registers (R134, R137, R144, R147) -/

theorem castWrite_free {c : CoreId} {n : Nat} {s : State} (h : castHolds c n s = none) (a : Nat) (v : Word)
    (k : State → Outcome) : castWrite c n a v k s = k s := by simp [castWrite, h]

theorem castRead_free {c : CoreId} {n : Nat} {s : State} (h : castHolds c n s = none) (a : Nat) (k : State → Outcome) :
    castRead c n a k s = k s := by simp [castRead, h]

section
variable {s : State} {c : CoreId} {p : PadId} (h : castHolds c (p.val / 64) s = none)
include h

theorem execPadIoWrite_free (v : Word) : execPadIoWrite c p v s =
    .next (if padWriter s c p.val then outWrite p.val (v.getLsbD 0) s else busErr c (padK p.val 4) s) :=
  castWrite_free h ..

theorem execSaCtrlWrite_free (v : Word) : execSaCtrlWrite c p v s =
    .next (if padWriter s c p.val then saCtrlWrite p.val v s else busErr c (padK p.val 8) s) :=
  castWrite_free h ..

theorem execSaTxdataWrite_free (v : Word) : execSaTxdataWrite c p v s =
    .next (if padWriter s c p.val then txWrite c p.val v s else busErr c (padK p.val 0x18) s) :=
  castWrite_free h ..

theorem execSaStatWrite_free (v : Word) : execSaStatWrite c p v s =
    .next (if padWriter s c p.val then saStatWrite p.val v s else busErr c (padK p.val 0x14) s) :=
  castWrite_free h ..

theorem execSaRxdataRead_reader (hr : rxReader s c p.val = true) :
    execSaRxdataRead c p s = .next (rxPop c p.val s) := by
  rw [execSaRxdataRead, castRead_free h]
  cases c with
  | thread n t =>
    have hn : n.val = p.val / 64 := by
      simp only [rxReader, padWriter, isCp, Bool.false_or, Bool.and_eq_true, decide_eq_true_eq] at hr
      exact hr.1
    simp [hn, hr, done]
  | lane n x => simp [rxReader, padWriter, isCp] at hr
  | cp => rfl

end

/-- The oldest entry leaves the receive queue; the thread that reads it has removed it last (R144, R224). -/
theorem pad_rxPop {c : CoreId} {p : Nat} {s : State} {e : QEntry} {es : List QEntry}
    (hq : (pad (rxCatch p (now s) s) p).rxq = e :: es) :
    (pad (rxPop c p s) p).rxq = es ∧ (pad (rxPop c p s) p).txq = (pad s p).txq ∧
    ∀ n t, c = .thread n t → Tab.find (pad (rxPop c p s) p).removed t.val = some (e, true) := by
  unfold rxPop
  simp only [hq, pad_updPad_self]
  refine ⟨trivial, txq_rxCatch .., ?_⟩
  rintro n t rfl
  have ht : coreIx (.thread n t) % 16 = t.val := by
    have := t.isLt
    simp only [coreIx]
    omega
  rw [ht]
  exact Tab.find_put_self ..

theorem getF_outWrite (p : Nat) (v : Bool) (s : State) :
    getF (outWrite p v s) (fOut p) = v.toNat ∧ (pad (outWrite p v s) p).outPend.head? = some (now s + 2, v) := by
  refine ⟨?_, by simp [outWrite, outWriteAt]⟩
  rw [outWrite, outWriteAt, getF_updPad, getF_setF_self _ _ _ rfl]
  exact Nat.mod_eq_of_lt v.toNat_lt

/-! ### A write of SA_CTRL (R140, R144, R147, R149) -/

/-- The value that a write of SA_CTRL stores: a field that names another owner's pad keeps its value (R147). -/
def saCtrlTaken (p : Nat) (v : Word) (s : State) : Word :=
  let w := if sameOwner s p (bitsOf v 29 24) then v else withBits v 29 24 (getF s (fLinkpad p))
  if sameOwner s p (bitsOf v 21 16) then w else withBits w 21 16 (getF s (fClkpad p))

/-- The register is written, and a refused field sets CFGERR. -/
def saCtrlStored (p : Nat) (v : Word) (s : State) : State :=
  let u := softWrite (padK p 8) (saCtrlTaken p v s) s
  if sameOwner s p (bitsOf v 29 24) && sameOwner s p (bitsOf v 21 16) then u else flag (fCfgerr p) u

/-- What follows the write: a MODE other than `m` empties the shift assist, and DE_EN that is cleared releases
driver-enable. -/
def saCtrlSettle (p m : Nat) (d : Bool) (s : State) : State :=
  let s := if getF s (fMode p) = m then s else saFlush p s
  if d && !isSet s (fDeEn p) then deRelease p (now s) s else s

theorem saCtrlWrite_eq (p : Nat) (v : Word) (s : State) : saCtrlWrite p v s =
    saCtrlSettle p (getF s (fMode p)) (isSet s (fDeEn p)) (saCtrlStored p v s) := by
  unfold saCtrlWrite saCtrlSettle saCtrlStored saCtrlTaken
  dsimp only

theorem bitsOf_mode_saCtrlTaken (p : Nat) (v : Word) (s : State) :
    bitsOf (saCtrlTaken p v s) 2 0 = bitsOf v 2 0 := by
  have hOut : ∀ (c : Prop) [Decidable c] (w : Word) (hi lo x : Nat), 2 < lo → lo ≤ hi → hi < 32 →
      bitsOf (if c then w else withBits w hi lo x) 2 0 = bitsOf w 2 0 := fun c _ w hi lo x h1 h2 h3 => by
    split
    · rfl
    · exact bitsOf_withBits_ne w x h2 h3 (.inr h1)
  exact (hOut _ _ 21 16 _ (by decide) (by decide) (by decide)).trans
    (hOut _ _ 29 24 _ (by decide) (by decide) (by decide))

theorem bitsOf_linkpad_saCtrlTaken (p : Nat) (v : Word) (s : State) : bitsOf (saCtrlTaken p v s) 29 24 =
    if sameOwner s p (bitsOf v 29 24) then bitsOf v 29 24 else getF s (fLinkpad p) := by
  have hClk : ∀ (c : Prop) [Decidable c] (w : Word) (x : Nat),
      bitsOf (if c then w else withBits w 21 16 x) 29 24 = bitsOf w 29 24 := fun c _ w x => by
    split
    · rfl
    · exact bitsOf_withBits_ne w x (by decide) (by decide) (.inl (by decide))
  refine (hClk _ _ _).trans ?_
  split
  · rfl
  · exact bitsOf_withBits_bitsOf v (reg s (padK p 8)) (by decide) (by decide)

theorem pads_saCtrlStored (p : Nat) (v : Word) (s : State) : (saCtrlStored p v s).pads = s.pads :=
  pads_of (by simp [saCtrlStored])

theorem getF_saCtrlStored {p : Nat} (v : Word) (s : State) {g : Fld} (hg : (fCfgerr p).apart g = true) :
    getF (saCtrlStored p v s) g = getF (softWrite (padK p 8) (saCtrlTaken p v s) s) g := by
  unfold saCtrlStored
  dsimp only
  split
  · rfl
  · rw [getF_flag, getF_setF_apart _ _ hg]

theorem getF_saCtrlSettle {p : Nat} {g : Fld} (m : Nat) (d : Bool) (s : State) (hk : txKeys p g.key = false)
    (ha : (fTxabort p).apart g = true) : getF (saCtrlSettle p m d s) g = getF s g := by
  have hFlush : getF (if getF s (fMode p) = m then s else saFlush p s) g = getF s g := by
    split
    · rfl
    · exact getF_saFlush s hk ha
  have hRel : ∀ (c : Prop) [Decidable c] (t : Nat) (u : State),
      getF (if c then deRelease p t u else u) g = getF u g := fun c _ t u => by
    split
    · exact getF_deRelease ..
    · rfl
  exact (hRel _ _ _).trans hFlush

/-- The shift assist after a write that leaves another MODE, and after one that leaves the same. -/
theorem pad_saCtrlSettle (p m : Nat) (d : Bool) (s : State) :
    (getF s (fMode p) ≠ m → (pad (saCtrlSettle p m d s) p).rxq = [] ∧ (pad (saCtrlSettle p m d s) p).txq = [] ∧
      (pad (saCtrlSettle p m d s) p).cur = none ∧ (pad (saCtrlSettle p m d s) p).cand = none ∧
      (pad (saCtrlSettle p m d s) p).deAt = none) ∧
    (getF s (fMode p) = m → (pad (saCtrlSettle p m d s) p).rxq = (pad s p).rxq ∧
      (pad (saCtrlSettle p m d s) p).txq = (pad s p).txq) := by
  have hRel : ∀ (c : Prop) [Decidable c] (t : Nat) (u : State), let x := pad (if c then deRelease p t u else u) p
      (x.deAt = none ∨ x.deAt = (pad u p).deAt) ∧ x.rxq = (pad u p).rxq ∧ x.txq = (pad u p).txq ∧
      x.cur = (pad u p).cur ∧ x.cand = (pad u p).cand := fun c _ t u => by
    split
    · exact ⟨.inl (pad_deRelease p t u).1, (pad_deRelease p t u).2⟩
    · exact ⟨.inr rfl, rfl, rfl, rfl, rfl⟩
  unfold saCtrlSettle
  constructor
  · intro hm
    obtain ⟨fr, ft, fc, fd, fa⟩ := pad_saFlush p s
    obtain ⟨ha, hr, ht, hc, hd⟩ := hRel (d && !isSet (saFlush p s) (fDeEn p)) (now (saFlush p s)) (saFlush p s)
    rw [if_neg hm]
    exact ⟨hr.trans fr, ht.trans ft, hc.trans fc, hd.trans fd, ha.elim id fun h => h.trans fa⟩
  · intro hm
    obtain ⟨-, hr, ht, -⟩ := hRel (d && !isSet s (fDeEn p)) (now s) s
    rw [if_pos hm]
    exact ⟨hr, ht⟩

section
variable {p : Nat} (hp : p < 1024) (v : Word) (s : State)
include hp

theorem getF_saCtrlWrite_mode (hv : bitsOf v 2 0 ≤ 5) : getF (saCtrlStored p v s) (fMode p) = bitsOf v 2 0 ∧
    getF (saCtrlWrite p v s) (fMode p) = bitsOf v 2 0 := by
  have hStored : getF (saCtrlStored p v s) (fMode p) = bitsOf v 2 0 := by
    rw [getF_saCtrlStored v s (by simp [Fld.apart, fCfgerr, fMode, fld, bit, padK, winK])]
    have hTaken := bitsOf_mode_saCtrlTaken p v s
    exact (getF_softWrite_rw (mode_fieldAt hp) _ s rfl ⟨Nat.zero_le _, hTaken.trans_le hv⟩).trans hTaken
  refine ⟨hStored, ?_⟩
  rw [saCtrlWrite_eq, getF_saCtrlSettle _ _ _ (txKeys_padK hp (by decide)), hStored]
  simp [Fld.apart, fTxabort, fMode, fld, padK, winK]

theorem getF_saCtrlWrite_linkpad : getF (saCtrlWrite p v s) (fLinkpad p) =
    if sameOwner s p (bitsOf v 29 24) then bitsOf v 29 24 else getF s (fLinkpad p) := by
  rw [saCtrlWrite_eq, getF_saCtrlSettle _ _ _ (txKeys_padK hp (by decide)), getF_saCtrlStored v s,
    ← bitsOf_linkpad_saCtrlTaken]
  · exact getF_softWrite_rw (linkpad_fieldAt hp) _ s rfl
      ⟨Nat.zero_le _, (Nat.le_of_lt (bitsOf_lt ..)).trans (by decide)⟩
  · simp [Fld.apart, fCfgerr, fLinkpad, fld, bit, padK, winK]
  · simp [Fld.apart, fTxabort, fLinkpad, fld, padK, winK]

theorem getF_saCtrlWrite_cfgerr (ho : sameOwner s p (bitsOf v 29 24) = false) :
    getF (saCtrlWrite p v s) (fCfgerr p) = 1 := by
  rw [saCtrlWrite_eq, getF_saCtrlSettle _ _ _ (txKeys_padK hp (by decide))]
  · simp [saCtrlStored, ho, getF_setF_self, Fld.ok, fCfgerr, bit]
  · simp [Fld.apart, fTxabort, fCfgerr, fld, bit, Fld.ok]

end

/-! ### A write of SA_STAT (R147) -/

section
variable {p : Nat} (hp : p < 1024) (v : Word) (s : State)

/-- A counter that a written bit clears. -/
theorem getF_clearIf_self (b : Bool) {f : Fld} (u : State) (h : f.ok = true) :
    getF (if b then setF f 0 u else u) f = if b then 0 else getF u f := by
  split
  · rw [getF_setF_self _ _ _ h, Nat.zero_mod]
  · rfl

theorem getF_clearIf_apart (b : Bool) {f g : Fld} (u : State) (h : f.apart g = true) :
    getF (if b then setF f 0 u else u) g = getF u g := by
  split
  · exact getF_setF_apart _ _ h
  · rfl

/-- A flag of SA_STAT reads as the write of its bits leaves it: the counters lie outside it. -/
theorem getF_saStatWrite_of_apart {g : Fld} (hd : (fDrops p).apart g = true) (ha : (fTxabort p).apart g = true) :
    getF (saStatWrite p v s) g = getF (softWrite (padK p 0x14) v s) g := by
  rw [saStatWrite, getF_clearIf_apart _ _ hd, getF_clearIf_apart _ _ ha]

include hp

theorem getF_saStatWrite_drops :
    getF (saStatWrite p v s) (fDrops p) = if v.getLsbD 8 then 0 else getF s (fDrops p) := by
  have hStay : getF (softWrite (padK p 0x14) v s) (fDrops p) = getF s (fDrops p) :=
    getF_softWrite_ro (drops_fieldAt hp) v s rfl
  have hBeside : (fTxabort p).apart (fDrops p) = true := by simp [Fld.apart, Fld.ok, fTxabort, fDrops, fld]
  rw [saStatWrite, getF_clearIf_self _ _ (by simp [Fld.ok, fDrops, fld]), getF_clearIf_apart _ _ hBeside, hStay]

theorem getF_saStatWrite_txabort :
    getF (saStatWrite p v s) (fTxabort p) = if v.getLsbD 9 then 0 else getF s (fTxabort p) := by
  have hStay : getF (softWrite (padK p 0x14) v s) (fTxabort p) = getF s (fTxabort p) :=
    getF_softWrite_ro (txabort_fieldAt hp) v s rfl
  have hBeside : (fDrops p).apart (fTxabort p) = true := by simp [Fld.apart, Fld.ok, fTxabort, fDrops, fld]
  rw [saStatWrite, getF_clearIf_apart _ _ hBeside, getF_clearIf_self _ _ (by simp [Fld.ok, fTxabort, fld]), hStay]

theorem getF_saStatWrite_rxovr : getF (saStatWrite p v s) (fRxovr p) =
    if v.getLsbD 8 = true ∧ (hotBits s (padK p 0x14)).getLsbD 8 = false then 0 else getF s (fRxovr p) := by
  rw [getF_saStatWrite_of_apart]
  · exact getF_softWrite_flag (rxovr_fieldAt hp) v s rfl ⟨rfl, rfl⟩
  · simp [Fld.apart, Fld.ok, fDrops, fRxovr, fld, bit]
  · simp [Fld.apart, Fld.ok, fTxabort, fRxovr, fld, bit]

theorem getF_saStatWrite_txovr : getF (saStatWrite p v s) (fTxovr p) =
    if v.getLsbD 9 = true ∧ (hotBits s (padK p 0x14)).getLsbD 9 = false then 0 else getF s (fTxovr p) := by
  rw [getF_saStatWrite_of_apart]
  · exact getF_softWrite_flag (txovr_fieldAt hp) v s rfl ⟨rfl, rfl⟩
  · simp [Fld.apart, Fld.ok, fDrops, fTxovr, fld, bit]
  · simp [Fld.apart, Fld.ok, fTxabort, fTxovr, fld, bit]

end

/-! ### Who may write and read (R19, R134) -/

theorem pads_busErr (c : CoreId) (a : Nat) (s : State) : (busErr c a s).pads = s.pads := pads_of (by simp)

theorem getF_busErr_padK {p off : Nat} (hp : p < 1024) (ho : off < 0x40) (hi lo : Nat) (c : CoreId) (a : Nat) (s : State) :
    getF (busErr c a s) (fld (padK p off) hi lo) = getF s (fld (padK p off) hi lo) :=
  (busErr_regs c a s).getF _ (excKeys_padK hp ho)

theorem execSaRxdataRead_refused {s : State} {c : CoreId} {p : PadId} (h : castHolds c (p.val / 64) s = none)
    (hc : isCp c = false) (hr : isThread c = false ∨ coreCl c ≠ p.val / 64) :
    execSaRxdataRead c p s = .next (busErr c (padK p.val 0x28) s) := by
  rw [execSaRxdataRead, castRead_free h]
  cases c with
  | thread n t =>
    have hn : n.val ≠ p.val / 64 := hr.resolve_left (by simp [isThread])
    simp [hn, done]
  | lane n x => rfl
  | cp => simp [isCp] at hc

theorem execSaRxdataRead_other {s : State} {n : ClusterId} {t : ThreadNo} {p : PadId}
    (h : castHolds (.thread n t) (p.val / 64) s = none) (hn : n.val = p.val / 64)
    (hr : rxReader s (.thread n t) p.val = false) : execSaRxdataRead (.thread n t) p s = .next s := by
  rw [execSaRxdataRead, castRead_free h]
  simp [hn, hr, done]

end Sys2Proof.Machine

open Sys2Proof Sys2Proof.Machine

/-- Settles O22: one lemma for each register's write or read, and the frame of a bus error for those who may not. -/
theorem padRegisters : Obligations.PadRegisters := by
  unfold Obligations.PadRegisters
  refine ⟨⟨?out, ?rxdata, ?other, ?ctrl, ?owner, ?stat⟩, ?refused, ?rxRefused, ?frame⟩
  case out =>
    intro s c p v h hw
    exact ⟨_, (execPadIoWrite_free h v).trans (next_of_true hw ..), getF_outWrite p.val (v.getLsbD 0) s⟩
  case rxdata =>
    intro s c p e es h hr hq
    exact ⟨_, execSaRxdataRead_reader h hr, pad_rxPop hq⟩
  case other =>
    intro s n t p h hn hr
    exact execSaRxdataRead_other h hn hr
  case ctrl =>
    intro s c p v h hw hl hc hm
    refine ⟨_, (execSaCtrlWrite_free h v).trans (next_of_true hw ..), ?_⟩
    obtain ⟨hStored, hMode⟩ := getF_saCtrlWrite_mode p.isLt v s hm
    obtain ⟨hNew, hSame⟩ := pad_saCtrlSettle p.val (getF s (fMode p.val)) (isSet s (fDeEn p.val)) (saCtrlStored p.val v s)
    rw [← saCtrlWrite_eq, hStored] at hNew hSame
    rw [pad_congr (pads_saCtrlStored p.val v s)] at hSame
    exact ⟨hMode, (getF_saCtrlWrite_linkpad p.isLt v s).trans (if_pos hl), hNew, hSame⟩
  case owner =>
    intro s c p v h hw ho
    refine ⟨_, (execSaCtrlWrite_free h v).trans (next_of_true hw ..), getF_saCtrlWrite_cfgerr p.isLt v s ho, ?_⟩
    rw [getF_saCtrlWrite_linkpad p.isLt, ho]
    rfl
  case stat =>
    intro s c p v h hw
    refine ⟨_, (execSaStatWrite_free h v).trans (next_of_true hw ..), ?_⟩
    beta_reduce
    rw [getF_saStatWrite_drops p.isLt, getF_saStatWrite_txabort p.isLt, getF_saStatWrite_rxovr p.isLt,
      getF_saStatWrite_txovr p.isLt]
    simp +contextual
  case refused =>
    intro s c p v h hw
    exact ⟨(execPadIoWrite_free h v).trans (next_of_false hw ..), (execSaCtrlWrite_free h v).trans (next_of_false hw ..),
      (execSaTxdataWrite_free h v).trans (next_of_false hw ..), (execSaStatWrite_free h v).trans (next_of_false hw ..)⟩
  case rxRefused =>
    intro s c p h hc hr
    exact execSaRxdataRead_refused h hc hr
  case frame =>
    intro s c p a
    exact ⟨pads_busErr c a s, getF_busErr_padK p.isLt (by decide) .., getF_busErr_padK p.isLt (by decide) ..,
      getF_busErr_padK p.isLt (by decide) ..⟩
end

section
open Sys2Proof Sys2Proof.Machine

namespace Sys2Proof.Machine

/-- FAULT_READ of record 0. -/
def readFault : ACmd := { tag := 0, payload := [0, 0, 0, 0], hostBytes := none }

/-- The castling of cluster 0 to the reserve, begun at turn 0. -/
def castRunning : CastRun :=
  { req := { unit := 0, reason := 3, cluster := 0, pos := 0 }, old := 0, new := 16, seq := 0, turn := 0, frame := 0, epoch := 0 }

/-- Lock 0 of cluster 0 is owned under the code 2^31, beyond every owner code of R214. With the owned bit it makes 2^32, so
that a read of the lock returns 0. -/
def lockOfBigOwner : State := mapLocks (fun t => Tab.put t (lockK 0 0) { owner := 0x80000000, freed := none }) State.reset

/-- The control processor's read of that lock is held by the handover of its cluster (R34). -/
def heldLockRead : State :=
  castHold 0 .cp true { addr := BitVec.ofNat 32 (winK 0 0x400), size := 4, data := 0 }
    (updGuard (fun g => { g with run := some castRunning }) lockOfBigOwner)

end Sys2Proof.Machine

/-- Refutes O47 as O46 is refuted: the answer to a command is followed by the answers to the slots behind it that need no
command of their own (R291, R307). With one such slot in the ring, a FAULT_READ of a record that does not stand advances
OUT_TAIL by 2, where the clause has it advance by 1 whenever the ring has room for one response. -/
theorem not_codeAndHardwareAdministration : ¬ Obligations.CodeAndHardwareAdministration := by
  unfold Obligations.CodeAndHardwareAdministration
  rintro ⟨-, -, hFaultRead, -⟩
  obtain ⟨-, hUnknown⟩ := hFaultRead twoSlots readFault (by decide)
  obtain ⟨-, hReplied⟩ := (hUnknown (by decide)).of_exec rfl
  obtain ⟨-, hTail⟩ := hReplied (by decide)
  exact absurd hTail (by decide)

/-- Refutes O54: the last clause takes a lock that reads 0 for a free one. A lock owned under the code 2^31 reads 0 too, its
value being 2^31 plus the code in 32 bits (R214). The read of it that a handover held finds an owner and takes nothing, so
that the lock reads 0 after the handover. The clause lacks the bound on the owner's code; no core has this one. -/
theorem not_clusterCastling : ¬ Obligations.ClusterCastling := by
  unfold Obligations.ClusterCastling
  rintro ⟨-, -, -, -, -, -, -, -, hLock⟩
  have hEnd := hLock heldLockRead castRunning false 0 0 rfl (by decide) rfl (by decide) (by decide) (by decide)
  obtain ⟨-, -, hTaken⟩ := hEnd.of_exec rfl
  exact hTaken (by decide)
end

section
namespace Sys2Proof.Machine

/-- APT_ACTIVATE with a name that no image has. -/
def activateNone : ACmd := { tag := 0, payload := List.replicate 8 0, hostBytes := none }

/-- Sentry entry 0 takes rising edges and raises the control processor's source 8 (R396, R397). The source is enabled, and a
delivery of it has committed in this turn (R379). -/
def served8 : State :=
  updClus 16 (fun x => { x with commits := (0, [8]) })
    (setF (fSrcEn 16 8) 1 (setReg (senK 0) 0xC0010000 (updPower (fun p => { p with released := true }) State.reset)))

end Sys2Proof.Machine

open Sys2Proof Sys2Proof.Machine

/-- Refutes O45 as O46 and O47 are refuted: the answer to a command is followed by the answers to the slots behind it that need
no command of their own (R291, R307). With one such slot in the ring, an APT_ACTIVATE of no image advances OUT_TAIL by 2, where
the clause has it advance by 1 whenever the ring has room for one response. -/
theorem not_imageAndTimeAdministration : ¬ Obligations.ImageAndTimeAdministration := by
  unfold Obligations.ImageAndTimeAdministration
  rintro ⟨⟨-, hUnnamed, -⟩, -⟩
  obtain ⟨hActivate, -⟩ := hUnnamed twoSlots activateNone (by decide) (by decide)
  obtain ⟨-, hReplied⟩ := hActivate.of_exec rfl
  obtain ⟨-, hTail⟩ := hReplied (by decide)
  exact absurd hTail (by decide)

/-- Refutes O57 as O60 is refuted: an occurrence of a source whose delivery committed in the same turn is part of that delivery
and sets no PEND bit (R379). So a firing of a sentry entry leaves source 8 without PEND there, where the clause has it set
whenever the entry raises the source and the source is enabled. -/
theorem not_standbyAndDeep : ¬ Obligations.StandbyAndDeep := by
  unfold Obligations.StandbyAndDeep
  rintro ⟨-, -, -, -, -, -, -, -, -, -, -, hFire, -⟩
  obtain ⟨-, -, -, hPend⟩ := (hFire served8 0 true (by decide)).of_exec rfl
  exact absurd (hPend (by decide) (by decide) (by decide)) (by decide)

/-- Settles O4: every value is read off the state at reset; a tenant's STATE is read from the register map, whose reset value
is 0 for each of the 256 tenants. -/
theorem resetValues : Obligations.ResetValues := by
  unfold Obligations.ResetValues
  refine ⟨⟨rfl, rfl⟩, rfl, rfl, rfl, by decide, by decide, by decide, by decide, by decide, by decide, rfl, ?_, fun _ => rfl⟩
  decide +kernel
end

section
namespace Sys2Proof.Machine

/-! ### A frame length out of range (R45) -/

theorem frameCtrl_rejected {s : State} {v : Word} (tick : Nat) (hg : isSet s fGroupLock = false)
    (h : bitsOf v 11 0 < 200 ∨ 4000 < bitsOf v 11 0) :
    frameCtrl tick v s = flag fLenRej (setF fOvrLimit (bitsOf v 23 16) s) := by
  simp (disch := decide) [frameCtrl, isSet_setF_apart, hg, h]

theorem frameCtrlWrite_rejected_completes (s : State) (c : CoreId) (v : Word) (hs : supCore s c = true)
    (hg : isSet s fGroupLock = false) (h : bitsOf v 11 0 < 200 ∨ 4000 < bitsOf v 11 0) :
    Completes (.frameCtrlWrite c v) s (fun t =>
      getF t fLenRounds = getF s fLenRounds ∧ t.time = s.time ∧ getF t fLenPending = getF s fLenPending ∧
      getF t fLenRej = 1 ∧ getF t fOvrLimit = bitsOf v 23 16) := by
  refine ⟨_, (execFrameCtrlWrite_sup v hs).trans (congrArg _ (frameCtrl_rejected _ hg h)), ?_, time_of (by simp), ?_, ?_, ?_⟩
  all_goals simp (disch := decide) [getF_setF_apart, getF_setF_bitsOf, getF_setF_self fLenRej]

/-! ### What an administration response leaves of the registers (R297, R301, R307) -/

/-- Keys of the registers that a response of the administration page can change: those of the page, and those of a journal
record. -/
def admKeys (k : Nat) : Bool := logKeys k || decide (pageK 256 0 ≤ k ∧ k < pageK 257 0)

theorem logKeys_of_admKeys {k : Nat} (h : admKeys k = false) : logKeys k = false := by
  rw [admKeys, Bool.or_eq_false_iff] at h
  exact h.1

theorem admKeys_page {off : Nat} (ho : off < 0x10000) : admKeys (pageK 256 off) = true := by
  rw [admKeys, Bool.or_eq_true, decide_eq_true_eq]
  unfold pageK
  omega

theorem RegsOnly.of_log {s t : State} (h : RegsOnly logKeys s t) : RegsOnly admKeys s t :=
  h.mono fun _ => logKeys_of_admKeys

namespace RegsOnly

theorem updTen {K : Nat → Bool} (t : Nat) (f : TenantSt → TenantSt) (s : State) :
    RegsOnly K s (Machine.updTen t f s) := ⟨fun _ _ => rfl⟩

theorem updHost {K : Nat → Bool} (f : HostSt → HostSt) (s : State) : RegsOnly K s (Machine.updHost f s) :=
  ⟨fun _ _ => rfl⟩

theorem updGroup {K : Nat → Bool} (f : GroupSt → GroupSt) (s : State) : RegsOnly K s (Machine.updGroup f s) :=
  ⟨fun _ _ => rfl⟩

theorem updPower {K : Nat → Bool} (f : PowerSt → PowerSt) (s : State) : RegsOnly K s (Machine.updPower f s) :=
  ⟨fun _ _ => rfl⟩

theorem setAdmin {K : Nat → Bool} (a : Option AdmPend) (s : State) : RegsOnly K s (Machine.setAdmin a s) :=
  ⟨fun _ _ => rfl⟩

theorem useFresh {K : Nat → Bool} (s : State) : RegsOnly K s (Machine.useFresh s) := ⟨fun _ _ => rfl⟩

end RegsOnly

/-- A field of the administration page, by its register's offset. -/
theorem setF_adm {off : Nat} (ho : off < 0x10000) {f : Fld} (hf : f.key = pageK 256 off) (v : Nat) (s : State) :
    RegsOnly admKeys s (setF f v s) := RegsOnly.setF v s (hf ▸ admKeys_page ho)

/-- A page's ring lies in the first 0xC00 bytes of the page. -/
theorem ringPut_adm {off : Nat} (ho : off ≤ 0x800) (i : Nat) (sl : Slot) (s : State) :
    RegsOnly admKeys s (ringPut 256 off i sl s) := by
  have hset : ∀ (xs : List Nat), (∀ w ∈ xs, w < 16) → ∀ u, RegsOnly admKeys u (each xs (fun w s =>
      setReg (pageK 256 (off + 64 * (i % 16) + 4 * w)) (BitVec.ofNat 32 (leAt sl (4 * w) 4)) s) u) := by
    intro xs
    induction xs with
    | nil => exact fun _ u => RegsOnly.refl _ u
    | cons w ws ih =>
      intro hw u
      have hlt := hw w (by simp)
      exact (RegsOnly.setReg _ u (admKeys_page (by omega))).trans (ih (fun x hx => hw x (by simp [hx])) _)
  exact hset _ (fun w hw => List.mem_range.mp hw) s

theorem issueVector_adm (v : Nat) (s : State) : RegsOnly admKeys s (issueVector 256 v s) := by
  unfold issueVector
  refine RegsOnly.ite (setF_adm (off := 0xF800) (by decide) rfl _ _) (RegsOnly.ite ?_ (RegsOnly.updHost _ _))
  exact RegsOnly.of_regs (regs_of (by simp))

theorem bellSet_adm (b : Nat) (s : State) : RegsOnly admKeys s (bellSet 256 b s).2 := by
  have hAgain : RegsOnly admKeys s (if isSet s (fBellOut 256 b) then bellAgain 256 b s else s) :=
    RegsOnly.ite (by unfold bellAgain; exact RegsOnly.updTen ..) (RegsOnly.refl _ _)
  exact hAgain.trans (RegsOnly.flag _ (admKeys_page (off := 0x1C) (by decide)))

theorem ringBell_adm (b : Nat) (s : State) : RegsOnly admKeys s (ringBell 256 b s) :=
  RegsOnly.ite ((bellSet_adm b s).trans (issueVector_adm _ _)) (bellSet_adm b s)

theorem placeRing_adm (rel : Nat) (sl : Slot) (s : State) : RegsOnly admKeys s (placeRing 256 rel sl s).2 := by
  simp only [placeRing, if_true]
  refine RegsOnly.trans ?_ (bellSet_adm _ _)
  refine RegsOnly.trans ?_ (RegsOnly.of_log (jAdmin_log ..))
  exact (ringPut_adm (by decide) _ _ s).trans (setF_adm (off := 0x0C) (by decide) rfl _ _)

theorem placeSlot_adm (rel : Nat) (sl : Slot) (s : State) : RegsOnly admKeys s (placeSlot 256 rel sl s).2 := by
  have hPlace : ∀ sl u, RegsOnly admKeys u
      (if (ten u 256).backlog.isEmpty && decide (0 < ringFree u 256) then placeRing 256 rel sl u
       else (none, setF (fBacklog 256) ((ten u 256).backlog.length + 1)
         (updTen 256 (fun x => { x with backlog := x.backlog ++ [(rel, sl)] }) u))).2 := by
    intro sl u
    split
    · exact placeRing_adm ..
    · exact (RegsOnly.updTen ..).trans (setF_adm (off := 0x30) (by decide) rfl _ _)
  exact (RegsOnly.ite (RegsOnly.updTen ..) (RegsOnly.refl _ _)).trans (hPlace _ _)

theorem placeSlots_adm (rel : Nat) (sls : List Slot) (s : State) : RegsOnly admKeys s (placeSlots 256 rel sls s).2 := by
  induction sls generalizing s with
  | nil => exact RegsOnly.refl _ s
  | cons sl sls ih => exact (placeSlot_adm rel sl s).trans (ih _)

theorem placeMsgs_adm (rel n : Nat) (sls : List Slot) (s : State) : RegsOnly admKeys s (placeMsgs 256 rel n sls s).2 := by
  have hLost : ∀ k u, RegsOnly admKeys u (ringBell 256 4 (jTenant 6 256 (frameNo u) (addF (fOutLost 256) k
      (updTen 256 (fun x => { x with gapNext := true }) u)))) := fun k u =>
    (((RegsOnly.updTen ..).trans (setF_adm (off := 0x28) (by decide) rfl _ _)).trans
      (RegsOnly.of_log (jTenant_log ..))).trans (ringBell_adm _ _)
  induction n generalizing sls s with
  | zero => exact RegsOnly.refl _ s
  | succ n ih =>
    unfold placeMsgs
    split
    · exact RegsOnly.refl _ s
    · next m rest _ _ =>
      have hMsg : ∀ (p : Prop) [Decidable p], RegsOnly admKeys s (if p then placeSlots 256 rel m s
          else ([], ringBell 256 4 (jTenant 6 256 (frameNo s) (addF (fOutLost 256) m.length
            (updTen 256 (fun x => { x with gapNext := true }) s))))).2 := by
        intro p _
        split
        · exact placeSlots_adm ..
        · exact hLost _ _
      exact (hMsg _).trans (ih _ _)

theorem placeBatch_adm (rel : Nat) (sls : List Slot) (s : State) : RegsOnly admKeys s (placeBatch 256 rel sls s) :=
  (placeMsgs_adm ..).trans (RegsOnly.each _ issueVector_adm _ _)

theorem admAnswer_adm (op tag status state : Nat) (p : List Byte) (s : State) :
    RegsOnly admKeys s (admAnswer op tag status state p s) := by
  have hLog : ∀ sls u, RegsOnly admKeys u (each sls jAdmin u) := fun sls u =>
    RegsOnly.of_log (RegsOnly.each _ jAdmin_log sls u)
  have hBack : ∀ sls u, RegsOnly admKeys u (fwdBack sls u) := fun sls u => RegsOnly.of_regs (regs_of (by simp))
  exact RegsOnly.ite ((hLog _ s).trans (RegsOnly.updHost _ _))
    (RegsOnly.ite ((hLog _ s).trans (hBack _ _)) (placeBatch_adm ..))

theorem admTakeHead_adm (s : State) : RegsOnly admKeys s (admTakeHead s) := by
  unfold admTakeHead
  exact ((RegsOnly.updGroup _ s).trans (setF_adm (off := 0x08) (by decide) rfl _ _)).trans (RegsOnly.updHost _ _)

theorem admSkip_adm (n : Nat) (s : State) : RegsOnly admKeys s (admSkip n s) := by
  induction n generalizing s with
  | zero => exact RegsOnly.refl _ s
  | succ n ih =>
    unfold admSkip
    dsimp only
    split
    · exact RegsOnly.refl _ s
    · split
      · exact (((RegsOnly.useFresh s).trans (admTakeHead_adm _)).trans (admAnswer_adm ..)).trans (ih _)
      · exact RegsOnly.refl _ s

/-- A response of the administration page changes only the registers under `admKeys`. -/
theorem admDone_adm (op key status state : Nat) (p : List Byte) (s : State) :
    RegsOnly admKeys s (admDone op key status state p s) := by
  unfold admDone
  split
  · refine RegsOnly.ite ((RegsOnly.setAdmin none s).trans (RegsOnly.ite ?_ ?_)) (RegsOnly.refl _ _)
    · exact (RegsOnly.of_log (jAdmin_log ..)).trans (admSkip_adm ..)
    · exact (admAnswer_adm ..).trans (admSkip_adm ..)
  · exact RegsOnly.refl _ _

end Sys2Proof.Machine

open Sys2Proof Sys2Proof.Machine

/-- Settles O7: the write takes the branch of `frameCtrl` that rejects a length. -/
theorem frameLengthRejected : Obligations.FrameLengthRejected := by
  unfold Obligations.FrameLengthRejected
  exact frameCtrlWrite_rejected_completes
end

section
namespace Sys2Proof.Machine

/-! ### One crystal cycle (R60–R63) -/

theorem cal_alarmCheck (s : State) : (alarmCheck s).cal = s.cal := cal_of (by simp)

theorem cal_stepReplaced (s : State) : (stepReplaced s).cal.val = s.cal.val ∧ (stepReplaced s).cal.acc = s.cal.acc := by
  have h : ∀ u : State, (admDone 0x53 0 3 0 [] u).cal = u.cal := fun u => cal_of (by simp)
  unfold stepReplaced
  split
  · rw [h]; exact ⟨rfl, rfl⟩
  · exact ⟨rfl, rfl⟩

theorem execCalCycle_running {s : State} (ho : isSet s fOscFail = false) (hs : s.cal.step = none) :
    execCalCycle s = .next (alarmCheck (updCal (fun _ => calCycle s.cal (calTrim s)) s)) := by
  simp [execCalCycle, calUpdate, calNext, ho, hs, done]

theorem execCalCycle_stopped {s : State} (ho : isSet s fOscFail = true) : execCalCycle s = .next s := by
  simp [execCalCycle, ho, done]

theorem calCycle_acc_high {c : CalSt} {trim : Int} (h : 10000000 ≤ c.acc + 2 * trim) : calCycle c trim =
    { c with val := calMask (c.val + 3), acc := c.acc + 2 * trim - 10000000 } := by
  rw [calCycle, if_pos h]

theorem calCycle_acc_low {c : CalSt} {trim : Int} (h : c.acc + 2 * trim ≤ -10000000) : calCycle c trim =
    { c with val := calMask (c.val + 1), acc := c.acc + 2 * trim + 10000000 } := by
  rw [calCycle, if_neg (by omega), if_pos h]

theorem calCycle_acc_mid {c : CalSt} {trim : Int} (hl : -10000000 < c.acc + 2 * trim) (hh : c.acc + 2 * trim < 10000000) :
    calCycle c trim = { c with val := calMask (c.val + 2), acc := c.acc + 2 * trim } := by
  rw [calCycle, if_neg (by omega), if_neg (by omega)]

theorem calCycle_completes (s : State) (ho : isSet s fOscFail = false) (hs : s.cal.step = none) :
    Completes .calCycle s (fun t =>
      (10000000 ≤ s.cal.acc + 2 * calTrim s →
        t.cal.val = (s.cal.val + 3) % 2 ^ 64 ∧ t.cal.acc = s.cal.acc + 2 * calTrim s - 10000000) ∧
      (s.cal.acc + 2 * calTrim s ≤ -10000000 →
        t.cal.val = (s.cal.val + 1) % 2 ^ 64 ∧ t.cal.acc = s.cal.acc + 2 * calTrim s + 10000000) ∧
      (-10000000 < s.cal.acc + 2 * calTrim s → s.cal.acc + 2 * calTrim s < 10000000 →
        t.cal.val = (s.cal.val + 2) % 2 ^ 64 ∧ t.cal.acc = s.cal.acc + 2 * calTrim s)) := by
  refine ⟨_, execCalCycle_running ho hs, fun h => ?_, fun h => ?_, fun hl hh => ?_⟩
  all_goals rw [cal_alarmCheck]; dsimp only [updCal]
  · rw [calCycle_acc_high h]; exact ⟨rfl, rfl⟩
  · rw [calCycle_acc_low h]; exact ⟨rfl, rfl⟩
  · rw [calCycle_acc_mid hl hh]; exact ⟨rfl, rfl⟩

/-! ### A step (R61) -/

/-- Keys of the wake record's registers (R409). -/
def wakeKeys (k : Nat) : Bool := decide (0x47000030 ≤ k ∧ k < 0x47000040)

theorem wakeEvent_regs (src ix : Nat) (s : State) : RegsOnly wakeKeys s (wakeEvent src ix s) := by
  have hRec : ∀ e b, RegsOnly wakeKeys s (wakeRecord e b s) := fun e b =>
    ((((((RegsOnly.setF _ s rfl).trans (RegsOnly.setF _ _ rfl)).trans (RegsOnly.setF _ _ rfl)).trans
      (RegsOnly.setF _ _ rfl)).trans (RegsOnly.setReg _ _ rfl)).trans (RegsOnly.setReg _ _ rfl)).trans
      (RegsOnly.setReg _ _ rfl)
  exact RegsOnly.ite (RegsOnly.setF _ _ rfl) (RegsOnly.ite (RegsOnly.updPower ..)
    (RegsOnly.ite ((hRec _ _).trans (RegsOnly.updPower ..)) (RegsOnly.refl _ _)))

/-- What an alarm that fires leaves of a field: the flags of the alarm and the sentry's, the wake record and the journal's
registers apart. -/
theorem getF_alarmCheck {g : Fld} (s : State) (hEn : fAlarmEn.apart g = true) (hFired : fAlarmFired.apart g = true)
    (hHit : (fSentryHit 16).apart g = true) (hLog : logKeys g.key = false) (hWake : wakeKeys g.key = false) :
    getF (alarmCheck s) g = getF s g := by
  have hFlags : getF (mark fAlarmEn (setF fAlarmEn 0 (flag fAlarmFired s))) g = getF s g := by
    simp [getF_setF_apart, hEn, hFired]
  have hOccur : ∀ u, getF (occurCp 6 u) g = getF u g := fun u => getF_occurCp 6 u g (by decide) hLog
  unfold alarmCheck alarmFire
  split
  · dsimp only
    split
    · have hHitF : ∀ u, getF (flag (fSentryHit 16) u) g = getF u g := fun u => by simp [getF_setF_apart, hHit]
      split
      · rw [hOccur, hHitF, hFlags]
      · rw [(wakeEvent_regs 3 0 _).getF g hWake, hHitF, hFlags]
    · rw [hOccur, hFlags]
  · rfl

theorem execCalStepApply_taken {s : State} {v : Nat} (hs : s.cal.step = some v) (ho : isSet s fOscFail = false) :
    execCalStepApply s = .next (calUpdate s) := by simp [execCalStepApply, hs, ho, done]

theorem execCalStepApply_idle {s : State} (h : isSet s fOscFail = true ∨ s.cal.step = none) :
    execCalStepApply s = .next s := by
  rcases h with h | h <;> simp [execCalStepApply, h, done]

/-- The cycle that takes a step: the calendar, then the record and the answer, then the alarm. -/
theorem calUpdate_step {s : State} {v : Nat} (hs : s.cal.step = some v) : calUpdate s =
    alarmCheck (admDone 0x53 0 0 0 (stepBytes s.cal.val v (frameNo s + 1))
      (occurCp 6 (jTime 0 (stepBytes s.cal.val v (frameNo s + 1))
        (setF fCalValid 1 (setF fStepPending 0 (updCal (fun _ => calStepped s.cal (calTrim s) v) s)))))) := by
  simp only [calUpdate, calNext, hs]
  rfl

theorem calStepApply_completes (s : State) (v : Nat) (hs : s.cal.step = some v) (ho : isSet s fOscFail = false) :
    Completes .calStepApply s (fun t =>
      t.cal.val = v % 2 ^ 64 ∧ t.cal.acc = s.cal.acc + 2 * calTrim s ∧ t.cal.step = none ∧ t.time = s.time ∧
      getF t fStepPending = 0 ∧ getF t fCalValid = 1) := by
  have hCal : (calUpdate s).cal = calStepped s.cal (calTrim s) v := by
    have hTold : ∀ b u, (admDone 0x53 0 0 0 b (occurCp 6 (jTime 0 b u))).cal = u.cal := fun _ _ => cal_of (by simp)
    rw [calUpdate_step hs, cal_alarmCheck, hTold]
    rfl
  refine ⟨_, execCalStepApply_taken hs ho, by rw [hCal]; rfl, by rw [hCal]; rfl, by rw [hCal]; rfl, ?_, ?_, ?_⟩
  · rw [calUpdate_step hs]
    exact (time_of (by simp)).trans rfl
  all_goals
    rw [calUpdate_step hs, getF_alarmCheck _ (by decide) (by decide) (by decide) (by decide) (by decide),
      (admDone_adm ..).getF _ (by decide)]
    simp (disch := decide) [getF_setF_apart, getF_setF_self]

theorem getF_bit_lt {f : Fld} (s : State) (hb : f.hi = f.lo) : getF s f < 2 := by
  have h := getF_lt s f
  rwa [hb, Nat.add_sub_cancel_left, Nat.pow_one] at h

/-- A write of CAL_CTRL with STEP requests the step to CAL_SET (R61); one that waited completes unapplied. -/
theorem execCalStepRequest_sup {s : State} {c : CoreId} (v : Word) (h : supCore s c = true) :
    execCalStepRequest c v s =
      .next (calStep (stepReplaced (softWrite 0x45000070 (alarmCool s (v ||| 1)) s))) := by
  have hBit : (v ||| 1).getLsbD 0 = true := by simp
  simp only [execCalStepRequest, timeWriter, h, if_true, calCtrlWrite, hBit, done]

theorem calSetVal_calStep (s : State) : calSetVal (calStep s) = calSetVal s := by
  have h : ∀ k, k ≠ 0x45000074 → reg (calStep s) k = reg s k := fun k hk => reg_setF_ne _ _ _ hk
  rw [calSetVal, calSetVal, h _ (by decide), h _ (by decide), h _ (by decide)]

theorem calStepRequest_completes (s : State) (c : CoreId) (v : Word) (h : supCore s c = true) :
    Completes (.calStepRequest c v) s (fun t =>
      t.cal.step = some (calSetVal t) ∧ getF t fStepPending = 1 ∧ t.cal.val = s.cal.val ∧ t.cal.acc = s.cal.acc ∧
      t.time = s.time) := by
  have hWrite : (softWrite 0x45000070 (alarmCool s (v ||| 1)) s).cal = s.cal := cal_of (by simp)
  have hReplaced := cal_stepReplaced (softWrite 0x45000070 (alarmCool s (v ||| 1)) s)
  rw [hWrite] at hReplaced
  obtain ⟨hVal, hAcc⟩ := hReplaced
  refine ⟨_, execCalStepRequest_sup v h, ?_, getF_setF_self _ _ _ rfl, hVal, hAcc, time_of (by simp)⟩
  rw [calSetVal_calStep]
  rfl

theorem execCalStepRequest_user {s : State} {c : CoreId} (v : Word) (h : supCore s c = false) :
    execCalStepRequest c v s = .next (busErr c 0x45000070 s) := by simp [execCalStepRequest, timeWriter, h, done]

/-! ### The oscillator and the calendar's reset (R63, R64) -/

theorem oscFail_completes (s : State) :
    Completes .oscFail s (fun t => getF t fOscFail = 1 ∧ t.cal = s.cal ∧ t.time = s.time) := by
  cases h : isSet s fOscFail
  case false =>
    refine ⟨occurCp 6 (setF fOscFail 1 s), by show execOscFail s = _; simp [execOscFail, h, done], ?_,
      cal_of (by simp), time_of (by simp)⟩
    simp (disch := decide) [getF_setF_self]
  case true =>
    exact ⟨s, by show execOscFail s = _; simp [execOscFail, h, done], getF_bit_of_isSet h rfl, rfl, rfl⟩

theorem Tab.find_clear {α : Type} (t : Tab α) (f : Nat → Bool) (k : Nat) :
    Tab.find (Tab.clear t f) k = if f k then none else Tab.find t k := by
  induction t with
  | nil => simp [Tab.clear, Tab.find]
  | cons p t ih =>
    obtain ⟨j, v⟩ := p
    rw [Tab.clear] at ih ⊢
    by_cases hk : k = j
    · subst hk
      by_cases hf : f k <;> simp_all [Tab.find]
    · by_cases hf : f j <;> simp_all [Tab.find, Ne.symm hk]

theorem reg_clearRegs (f : Nat → Bool) (s : State) (k : Nat) :
    reg (clearRegs f s) k = if f k then regReset k else reg s k := by
  simp only [reg, clearRegs, Tab.getD, Tab.find_clear]
  cases f k <;> rfl

theorem calendarReset_completes (s : State) : Completes .calendarReset s (fun t =>
    t.cal.val = 0 ∧ t.cal.acc = 0 ∧ t.cal.step = none ∧ (∀ r, Tab.getD t.cal.latch r 0 = 0) ∧ getF t fCalValid = 0 ∧
    getF t fCalTrim = 0 ∧ getF t fAlarmEn = 0 ∧ t.time = s.time) := by
  have hReg : ∀ k, 0x45000040 ≤ k → k < 0x45000078 → reg (calReset s) k = regReset k := fun k hl hh => by
    rw [calReset, reg_updCal, reg_clearRegs, if_pos (decide_eq_true ⟨hl, hh⟩)]
  refine ⟨calReset s, rfl, rfl, rfl, rfl, fun _ => rfl, ?_, ?_, ?_, rfl⟩
  all_goals
    rw [getF, hReg _ (by decide) (by decide)]
    decide

end Sys2Proof.Machine

open Sys2Proof Sys2Proof.Machine

/-- Settles O9: the three cases of `calCycle`; the alarm that follows leaves the calendar. -/
theorem calendarCycle : Obligations.CalendarCycle := by
  unfold Obligations.CalendarCycle
  exact ⟨rfl, calCycle_completes⟩

/-- Settles O10: one lemma for each command of the calendar; a latched read puts the requester's own entry. -/
theorem calendarAndLatches : Obligations.CalendarAndLatches := by
  unfold Obligations.CalendarAndLatches
  refine ⟨⟨calStepRequest_completes, fun s c v h => ⟨execCalStepRequest_user v h, cal_of (by simp)⟩,
    calStepApply_completes, fun s h => ⟨s, execCalStepApply_idle h, rfl⟩, oscFail_completes,
    fun s h => ⟨s, execCalCycle_stopped h, rfl⟩, fun s => ⟨_, rfl, getF_setF_self _ _ _ rfl, rfl, rfl⟩,
    calendarReset_completes⟩, fun s r => ⟨_, rfl, Tab.getD_put_self .., fun _ h => Tab.getD_put_ne _ _ _ h⟩,
    fun s r => ⟨_, rfl, Tab.getD_put_self .., fun _ h => Tab.getD_put_ne _ _ _ h⟩,
    fun s r => ⟨_, rfl, Tab.getD_put_self .., rfl, fun _ h => Tab.getD_put_ne _ _ _ h⟩⟩
end

section
namespace Sys2Proof.Machine

/-! ### The tick's clock (R44, R55, R65) -/

/-- All of the tick after its new frame and the fields heard for it leaves the clock. -/
theorem time_frameTick (s : State) : (frameTick s).time = (heardFields (newFrame s)).time := by
  have hFreed : ∀ (c : Crossing) (u : State),
      timeV.at (each (crossItem c) (fun q => freeCopied q.2) u) = timeV.at u := fun c u =>
    each_view timeV _ _ (fun (q : Nat × HItem) v => freeCopied_view timeV (by simp) (by simp) q.2 v) u
  apply time_of
  unfold frameTick
  dsimp only
  simp (maxDischargeDepth := 10) [hFreed]

theorem cal_frameTick (s : State) : (frameTick s).cal = s.cal := cal_of (by simp)

/-- The frame that a tick begins, as this chip knows it. -/
def nextFrame (s : State) : FrameRec :=
  { frame := frameNo s + 1, start := nextTick s, rounds := nextLen s, cal := s.cal.val, hold := isSet s fHold,
    stale := reg s 0x45000074 &&& 3 ≠ 1 }

/-- The length that is pending after a tick (R44). -/
def nextPend (s : State) : Option (Nat × Nat) :=
  if s.time.pendLen.elim false (fun p => decide (p.2 ≤ frameNo s + 1)) then none else s.time.pendLen

theorem time_newFrame (s : State) : (newFrame s).time =
    { s.time with turn := max s.time.turn (nextTick s), past := s.time.cur :: s.time.past, cur := nextFrame s,
                  pendLen := nextPend s } := by
  have hLen : ∀ len k u, (jFrameLen len k u).time = u.time := fun _ _ _ => time_of (by simp)
  have hDue : ∀ (p : Prop) [Decidable p] (u : State), (if p then setF fLenPending 0 u else u).time = u.time := by
    intro p _ u
    split <;> rfl
  simp only [newFrame]
  split
  · rw [hLen, setF_time, hDue]; rfl
  · rw [setF_time, hDue]; rfl

/-- Keys of the registers that a new frame can change: FRAME_STATUS, and those of a journal record. -/
def frameKeys (k : Nat) : Bool := logKeys k || decide (k = 0x45000014)

theorem newFrame_regs (s : State) : RegsOnly frameKeys s (newFrame s) := by
  have hLog : ∀ len k u, RegsOnly frameKeys u (jFrameLen len k u) := fun len k u =>
    (jFrameLen_log len k u).mono fun _ h => (Bool.or_eq_false_iff.mp h).1
  have hDue : ∀ (p : Prop) [Decidable p] (u : State), RegsOnly frameKeys u (if p then setF fLenPending 0 u else u) :=
    fun p _ u => RegsOnly.ite (RegsOnly.setF _ _ rfl) (RegsOnly.refl _ _)
  have hTime : ∀ f u, RegsOnly frameKeys u (updTime f u) := fun _ _ => RegsOnly.of_regs rfl
  simp only [newFrame]
  split
  · exact (((hTime _ s).trans (hDue _ _)).trans (RegsOnly.setF _ _ rfl)).trans (hLog _ _ _)
  · exact ((hTime _ s).trans (hDue _ _)).trans (RegsOnly.setF _ _ rfl)

theorem isMember_newFrame (s : State) : isMember (newFrame s) = isMember s := by
  unfold isMember isHead
  rw [(newFrame_regs s).isSet fGrpValid rfl, (newFrame_regs s).isSet fGrpHead rfl]

theorem group_newFrame (s : State) : (newFrame s).group = s.group := group_of (by simp)

theorem heardFields_own {s : State} (h : isMember s = false ∨ s.group.heard = []) : heardFields s = s := by
  rcases h with h | h <;> simp [heardFields, h]

/-- What a TICK frame's fields leave of the clock: where it stands, and which frame it is. -/
theorem time_tickFields (b : List Byte) (s : State) :
    now (tickFields b s) = now s ∧ frameNo (tickFields b s) = frameNo s ∧
    (tickFields b s).time.cur.start = s.time.cur.start ∧ (tickFields b s).time.cur.hold = s.time.cur.hold ∧
    (tickFields b s).time.cur.stale = s.time.cur.stale := by
  have hCal : ∀ (p : Prop) [Decidable p] (r : FrameRec) (c : Nat), (if p then { r with cal := c } else r) =
      { r with cal := if p then c else r.cal } := by
    intro p _ r c
    split <;> rfl
  simp only [tickFields, tickCalendar, hCal]
  split
  · split <;> exact ⟨rfl, rfl, rfl, rfl, rfl⟩
  · exact ⟨rfl, rfl, rfl, rfl, rfl⟩

theorem time_heardFields (s : State) :
    now (heardFields s) = now s ∧ frameNo (heardFields s) = frameNo s ∧
    (heardFields s).time.cur.start = s.time.cur.start ∧ (heardFields s).time.cur.hold = s.time.cur.hold ∧
    (heardFields s).time.cur.stale = s.time.cur.stale := by
  unfold heardFields
  split
  · exact time_tickFields _ s
  · exact ⟨rfl, rfl, rfl, rfl, rfl⟩

/-- An admitted member latches the head's calendar from the TICK frame of the frame in progress (R65, R345). -/
theorem cal_tickFields {b : List Byte} {s : State} (ha : isSet s fGrpAdmitted = true) (hk : leAt b 0 8 = frameNo s) :
    (tickFields b s).time.cur.cal = leAt b 24 6 * 65536 + leAt b 30 2 := by
  have hCur : ∀ c, (tickCalendar (frameNo s) c s).time.cur.cal = c := fun c => by
    simp [tickCalendar, updTime, frameNo]
  simp only [tickFields, ha, hk, if_true]
  split <;> exact hCur _

theorem heardFields_of_heard {s : State} (hm : isMember s = true) (hn : s.group.heard ≠ [])
    (hk : leAt s.group.heard 0 8 = frameNo s) : heardFields s = tickFields s.group.heard s := by
  simp [heardFields, hm, hn, hk]

theorem execFrameTick_locked {s : State} (h : isSet s fLock = true) : execFrameTick s = .next (frameTick s) := by
  simp [execFrameTick, h, done]

/-- At a chip that has heard no TICK frame the new frame is its own. -/
theorem time_frameTick_own {s : State} (h : isMember s = false ∨ s.group.heard = []) :
    (frameTick s).time = (newFrame s).time := by
  rw [time_frameTick, heardFields_own]
  rwa [isMember_newFrame, group_newFrame]

theorem cal_frameTick_heard {s : State} (hm : isMember s = true) (ha : isSet s fGrpAdmitted = true)
    (hn : s.group.heard ≠ []) (hk : leAt s.group.heard 0 8 = frameNo s + 1) :
    (frameTick s).time.cur.cal = leAt s.group.heard 24 6 * 65536 + leAt s.group.heard 30 2 := by
  have hFrame : frameNo (newFrame s) = frameNo s + 1 := by rw [frameNo, time_newFrame]; rfl
  have hAdmitted : isSet (newFrame s) fGrpAdmitted = true := by rw [(newFrame_regs s).isSet _ rfl, ha]
  rw [time_frameTick, heardFields_of_heard (by rw [isMember_newFrame, hm]) (by rwa [group_newFrame])
    (by rw [group_newFrame, hFrame, hk]), group_newFrame]
  exact cal_tickFields hAdmitted (by rw [hFrame, hk])

theorem frameTick_completes (s : State) (hl : isSet s fLock = true) (hn : now s ≤ nextTick s) :
    Completes .frameTick s (fun t =>
      now t = nextTick s ∧ t.time.cur.start = nextTick s ∧ frameNo t = frameNo s + 1 ∧ t.time.cur.hold = isSet s fHold ∧
      t.time.cur.stale = decide (reg s 0x45000074 &&& 3 ≠ 1) ∧ t.cal = s.cal ∧
      (isMember s = false ∨ s.group.heard = [] →
        t.time.cur.cal = s.cal.val ∧
        (s.time.pendLen = none → t.time.cur.rounds = s.time.cur.rounds) ∧
        (∀ len k, s.time.pendLen = some (len, k) → k ≤ frameNo s + 1 → t.time.cur.rounds = len ∧ t.time.pendLen = none) ∧
        (∀ len k, s.time.pendLen = some (len, k) → frameNo s + 1 < k →
          t.time.cur.rounds = s.time.cur.rounds ∧ t.time.pendLen = some (len, k))) ∧
      (isMember s = true → isSet s fGrpAdmitted = true → s.group.heard ≠ [] → leAt s.group.heard 0 8 = frameNo s + 1 →
        t.time.cur.cal = leAt s.group.heard 24 6 * 65536 + leAt s.group.heard 30 2)) := by
  obtain ⟨hNow, hFrame, hStart, hHold, hStale⟩ := time_heardFields (newFrame s)
  refine ⟨_, execFrameTick_locked hl, ?_, ?_, ?_, ?_, ?_, cal_frameTick s, fun hOwn => ?_, cal_frameTick_heard⟩
  case refine_1 =>
    rw [now, time_frameTick]
    exact hNow.trans ((congrArg TimeSt.turn (time_newFrame s)).trans (max_eq_right hn))
  case refine_2 => rw [time_frameTick, hStart, time_newFrame]; rfl
  case refine_3 =>
    rw [frameNo, time_frameTick]
    exact hFrame.trans (congrArg (fun x => x.cur.frame) (time_newFrame s))
  case refine_4 => rw [time_frameTick, hHold, time_newFrame]; rfl
  case refine_5 => rw [time_frameTick, hStale, time_newFrame]; rfl
  case refine_6 =>
    rw [time_frameTick_own hOwn, time_newFrame]
    dsimp only [nextFrame, nextPend, nextLen]
    refine ⟨rfl, fun h => ?_, fun len k h hk => ?_, fun len k h hk => ?_⟩
    · simp [h]
    · simp [h, hk]
    · simp [h, Nat.not_le.mpr hk]

/-! ### The block on an empty queue (log entry 2) -/

theorem step_idle {s : State} (h : s.pending = []) : step s = idle s := by rw [step, h]

end Sys2Proof.Machine

open Sys2Proof Sys2Proof.Machine

/-- Settles O6: the branches of `idle`, and the tick's clock, which all of the tick after its new frame leaves alone. -/
theorem timePasses : Obligations.TimePasses := by
  unfold Obligations.TimePasses
  refine ⟨fun s hq => ⟨fun hl => ?_, fun hl hn => ?_, fun hl hn => ?_⟩, frameTick_completes, fun s hl => ⟨s, ?_, rfl⟩⟩
  · rw [step_idle hq, idle, hl, if_neg Bool.false_ne_true]
  · rw [step_idle hq, idle, if_pos hl, if_neg (Nat.not_le.mpr hn)]
  · rw [step_idle hq, idle, if_pos hl, if_pos hn]
  · show execFrameTick s = .next s
    rw [execFrameTick, hl, if_neg Bool.false_ne_true, done]
end

section
namespace Sys2Proof.Machine

/-! ### Hand-off sets (R76) -/

theorem each_fixed {β : Type} {xs : List β} {f : β → State → State} {s : State} (h : ∀ x ∈ xs, f x s = s) :
    each xs f s = s := by
  induction xs with
  | nil => rfl
  | cons x xs ih =>
    obtain ⟨hx, hxs⟩ := List.forall_mem_cons.mp h
    show each xs f (f x s) = s
    rw [hx, ih hxs]

/-- No device of tenant t has work left from an earlier frame, nor desired levels to apply again. -/
def Settled (s : State) (t : Nat) : Prop := ∀ d, d < 16 → (dev s t d).carried = [] ∧ (dev s t d).reapply = false

/-- Of a set without items only the slots are left to process. -/
theorem processSet_slots {s : State} {t : Nat} {h : HandSet} (hd : Settled s t) (hi : h.items = []) :
    processSet t h s = each h.slots (fun sl => whileActive t (processSlot t sl)) s := by
  have hCarried : each devIds (fun d s =>
      let ws := (dev s t d).carried
      if ws.isEmpty || decide (64 ≤ transNow (frameNo s) (dev s t d)) then s
      else runWork workFuel t d ws (updDev t d (fun x => { x with carried := [] }) s)) s = s :=
    each_fixed fun d h => by simp [(hd d (List.mem_range.mp h)).1]
  have hReapply : each devIds (fun d => whileActive t (reapplyDev t d)) s = s :=
    each_fixed fun d h => by simp [whileActive, reapplyDev, (hd d (List.mem_range.mp h)).2]
  have hItems : each (sortItems h.items) (fun i => whileActive t (giveWork t i.dev (.item i))) s = s := by rw [hi]; rfl
  unfold processSet
  dsimp only at hCarried ⊢
  rw [hCarried, hItems, hReapply]

/-- The hand-off of tenant t begins: at turn 24 of the frame, with the sets taken. -/
def takeHanded (t : Nat) (s : State) : State :=
  updTen t (fun x => { x with handed := [], hadWork := true }) (goTo (s.time.cur.start + 24) s)

theorem execHandoffProcess_active {s : State} {t : TenantId} (hh : (ten s t.val).handed ≠ []) (ha : tActive s t.val = true) :
    execHandoffProcess t s = .next (each (ten s t.val).handed (processSet t.val) (takeHanded t.val s)) := by
  unfold execHandoffProcess
  split
  case h_1 h => exact absurd h hh
  case h_2 => rw [if_pos ha]; rfl

theorem execHandoffProcess_idle {s : State} {t : TenantId} (h : (ten s t.val).handed = [] ∨ tActive s t.val = false) :
    execHandoffProcess t s = .next s := by
  unfold execHandoffProcess
  split
  case h_1 => rfl
  case h_2 hh =>
    rw [h.resolve_left hh, if_neg Bool.false_ne_true]
    rfl

theorem settled_takeHanded {s : State} {t : Nat} (h : Settled s t) : Settled (takeHanded t s) t := h

theorem now_handoff (t : Nat) (hs : List HandSet) (s : State) : now (each hs (processSet t) s) = now s := by
  have h : (each hs (processSet t) s).time = s.time :=
    time_of (each_view _ _ _ (fun h u => by simp (maxDischargeDepth := 8)) _)
  rw [now, h, now]

/-- Sets without items and slots leave the state as the hand-off begins. -/
theorem handoff_empty {s : State} {t : Nat} {hs : List HandSet} (hd : Settled s t)
    (he : ∀ h ∈ hs, h.items = [] ∧ h.slots = []) : each hs (processSet t) s = s :=
  each_fixed fun h hh => by
    obtain ⟨hi, hsl⟩ := he h hh
    rw [processSet_slots hd hi, hsl]
    rfl

/-- A set of one command slot acts as the tenant's command. -/
theorem handoff_slot {s : State} {t : TenantId} {x : TCmd} {f op : Nat} {b : Word} (hx : x.tenant = t)
    (hh : (ten s t.val).handed = [{ frame := f, items := [], slots := [cmdSlot op x], bells := b }])
    (ha : tActive s t.val = true) (hd : Settled s t.val) :
    execHandoffProcess t s = tenantOp op x (takeHanded t.val s) := by
  rw [execHandoffProcess_active (by simp [hh]) ha, hh]
  show Host.Outcome.next (processSet t.val _ _) = _
  rw [processSet_slots (settled_takeHanded hd) rfl, tenantOp, hx]
  rfl

/-! ### Turns that end (R85, R111) -/

theorem atDue_dueNow {s : State} {e : Nat} (h : dueNow s e = true) (k : State → State) :
    atDue (some e) k s = .next (k (goTo e s)) := by simp [atDue, h, done]

theorem now_goTo (e : Nat) (s : State) : now (goTo e s) = max (now s) e := rfl

/-- An item for a device of this chip waits behind those of its tenant (R23, R92). -/
theorem sendItem_near {t : Nat} (h : t < 0x10000) (d turn key : Nat) (remote : Bool) (it : Item) (s : State) :
    sendItem t d turn key remote it s = updTen t (fun x => { x with incoming := x.incoming ++
      [{ turn := turn, key := key, dev := d, remote := remote, gen := getF s (fGen t), item := it }] }) s := by
  simp [sendItem, isFar, h]

/-- What a tenant gains by an item that is sent for one of its devices. -/
theorem incoming_sendItem {t : Nat} (h : t < 0x10000) (d turn key : Nat) (remote : Bool) (it : Item) (s : State) :
    ∃ i : HItem, (ten (sendItem t d turn key remote it s) t).incoming = (ten s t).incoming ++ [i] ∧ i.item = it ∧ i.dev = d ∧
      i.turn = turn := by
  rw [sendItem_near h, ten_updTen_self]
  exact ⟨_, rfl, rfl, rfl, rfl⟩

theorem dev_sendItem {t : Nat} (h : t < 0x10000) (d turn key : Nat) (remote : Bool) (it : Item) (s : State) (u e : Nat) :
    dev (sendItem t d turn key remote it s) u e = dev s u e := by rw [sendItem_near h, dev_updTen]

theorem now_sendItem {t : Nat} (h : t < 0x10000) (d turn key : Nat) (remote : Bool) (it : Item) (s : State) :
    now (sendItem t d turn key remote it s) = now s := by rw [sendItem_near h, now_updTen]

theorem tenant_near (t : TenantId) : t.val < 0x10000 := t.isLt.trans (by decide)

theorem execSeqTimeout_due {s : State} {t : TenantId} {d : DevId} {q : SeqSt} {e : Nat}
    (hq : (dev s t.val d.val).seq = some q) (he : q.ends = some e) (hd : dueNow s e = true) :
    execSeqTimeout t d s = .next (sendItem t.val d.val (now (goTo e s)) (portKey (goTo e s) (dev s t.val d.val).port) false
      .seqEnd (updDev t.val d.val (fun x => { x with seq := some { q with timeoutUs := 0, ends := none } }) (goTo e s))) := by
  rw [execSeqTimeout, hq]
  dsimp only
  rw [he, atDue_dueNow hd, dev_goTo]

theorem seqTimeout_completes {s : State} {t : TenantId} {d : DevId} {q : SeqSt} {e : Nat}
    (hq : (dev s t.val d.val).seq = some q) (he : q.ends = some e) (hd : dueNow s e = true) :
    Completes (.seqTimeout t d) s (fun u =>
      now u = max (now s) e ∧ (dev u t.val d.val).seq = some { q with timeoutUs := 0, ends := none } ∧
      ∃ h : HItem, (ten u t.val).incoming = (ten s t.val).incoming ++ [h] ∧ h.item = .seqEnd ∧ h.dev = d.val ∧
        h.turn = max (now s) e) := by
  refine ⟨_, execSeqTimeout_due hq he hd, ?_, ?_, ?_⟩
  · rw [now_sendItem (tenant_near t), now_updDev, now_goTo]
  · rw [dev_sendItem (tenant_near t), dev_updDev_self]
  · exact incoming_sendItem (tenant_near t) ..

theorem setNth_getElem? {α : Type} {xs : List α} {k : Nat} {x : α} (v : α) (h : xs[k]? = some x) :
    (setNth xs k v)[k]? = some v := by
  induction xs generalizing k with
  | nil => simp at h
  | cons y ys ih => cases k with
    | zero => rfl
    | succ k => exact ih h

theorem machSt_updMach_self (t d side : Nat) (f : MachSt → MachSt) (s : State) :
    machSt (dev (updMach t d side f s) t d) side = f (machSt (dev s t d) side) := by
  unfold machSt updMach
  rw [dev_updDev_self]
  split <;> rfl

theorem execMachineTimerExpiry_due {s : State} {t : TenantId} {d : DevId} {side : Fin 2} {k : Fin 4} {e : Nat}
    (hk : (machSt (dev s t.val d.val) side.val).timers[k.val]? = some (.run e)) (hd : dueNow s e = true) :
    execMachineTimerExpiry t d side k s = .next (sendItem t.val d.val (now (goTo e s))
      (portKey (goTo e s) (dev s t.val d.val).port) false (.timer side.val k.val)
      (updMach t.val d.val side.val (fun m => { m with timers := setNth m.timers k.val .expired }) (goTo e s))) := by
  rw [execMachineTimerExpiry, hk]
  exact atDue_dueNow hd _

theorem machineTimerExpiry_completes {s : State} {t : TenantId} {d : DevId} {side : Fin 2} {k : Fin 4} {e : Nat}
    (hk : (machSt (dev s t.val d.val) side.val).timers[k.val]? = some (.run e)) (hd : dueNow s e = true) :
    Completes (.machineTimerExpiry t d side k) s (fun u =>
      now u = max (now s) e ∧ (machSt (dev u t.val d.val) side.val).timers[k.val]? = some .expired ∧
      ∃ h : HItem, (ten u t.val).incoming = (ten s t.val).incoming ++ [h] ∧ h.item = .timer side.val k.val ∧ h.dev = d.val ∧
        h.turn = max (now s) e) := by
  refine ⟨_, execMachineTimerExpiry_due hk hd, ?_, ?_, ?_⟩
  · rw [now_sendItem (tenant_near t), updMach, now_updDev, now_goTo]
  · rw [dev_sendItem (tenant_near t), machSt_updMach_self]
    exact setNth_getElem? _ hk
  · exact incoming_sendItem (tenant_near t) ..

/-! ### Done marks (R51) -/

theorem done_doneMark (n : Nat) (v : Word) (s : State) : (ten (doneMark n v s) (16 * n + bitsOf v 3 0)).done = true := by
  simp only [doneMark]
  split
  · assumption
  · simp

section
variable {s : State} {c : CoreId} {n : ClusterId} (hFree : castHolds c n.val s = none)
include hFree

theorem execClFrameDone_refused (h : inWindow n.val c = false ∨ supCore s c = false) (v : Word) (agree : Bool) :
    execClFrameDone c n v agree s = .next (busErr c (winK n.val 0x100) s) :=
  (castWrite_free hFree ..).trans (next_of_true (by rcases h with h | h <;> simp [h]) ..)

variable (hWin : inWindow n.val c = true) (hSup : supCore s c = true)
include hWin hSup

theorem execClFrameDone_differ (hThr : isThread c = false) (hPair : isPair s (runIx s c) = true) (v : Word) :
    execClFrameDone c n v false s = .next (mismatch (runIx s c) 2 s) := by
  rw [execClFrameDone, castWrite_free hFree]
  simp [hWin, hSup, hThr, hPair, done]

theorem execClFrameDone_marks {agree : Bool} (h : isThread c = true ∨ isPair s (runIx s c) = false ∨ agree = true) (v : Word) :
    ∃ u, execClFrameDone c n v agree s = .next (doneMark n.val v u) := by
  rw [execClFrameDone, castWrite_free hFree]
  cases hThr : isThread c
  case true => exact ⟨s, by simp [hWin, hSup, done]⟩
  case false =>
    have hAgree : (isPair s (runIx s c) && !agree) = false := by
      rcases h with h | h | h
      · exact absurd (hThr.symm.trans h) Bool.false_ne_true
      · simp [h]
      · simp [h]
    exact ⟨performSide (runIx s c) s, by simp [hWin, hSup, hAgree, done]⟩

end

end Sys2Proof.Machine

open Sys2Proof Sys2Proof.Machine

/-- Settles O17: a set without items leaves only its slots; an item that is sent waits behind the tenant's others. -/
theorem handoffAndTimers : Obligations.HandoffAndTimers := by
  unfold Obligations.HandoffAndTimers
  refine ⟨fun s t hh ha => ⟨_, execHandoffProcess_active hh ha, ?_⟩, fun s t hh ha he hd => ⟨_, execHandoffProcess_active hh ha, ?_⟩,
    fun q hq s t x f b hx hh ha hd => ?_, fun s t h => execHandoffProcess_idle h, fun s t d q e => seqTimeout_completes,
    fun s t d side k e => machineTimerExpiry_completes, fun s c n v agree hFree =>
      ⟨fun hWin hSup => ⟨fun h => ?_, fun hThr hPair hA => ?_⟩, fun h => execClFrameDone_refused hFree h v agree⟩⟩
  · exact now_handoff ..
  · rw [handoff_empty (settled_takeHanded hd) he]
    simp [takeHanded]
  · refine (handoff_slot hx hh ha hd).trans ?_
    show _ = exec (q.1 x) (takeHanded t.val s)
    fin_cases hq <;> rfl
  · obtain ⟨u, hu⟩ := execClFrameDone_marks hFree hWin hSup h v
    exact ⟨_, hu, done_doneMark n.val v u⟩
  · subst hA
    exact execClFrameDone_differ hFree hWin hSup hThr hPair v
end

section
namespace Sys2Proof.Machine

/-! ### One record of a part that is left alone -/

theorem fifo_of {s t : State} (h : t.fifos = s.fifos) (i : Nat) : fifo t i = fifo s i := by rw [fifo, h, fifo]

theorem port_of {s t : State} (h : t.ports = s.ports) (p : Nat) : port t p = port s p := by rw [port, h, port]

theorem ten_of {s t : State} (h : t.tenants = s.tenants) (i : Nat) : ten t i = ten s i := by rw [ten, h, ten]

/-! ### The rules of a thread's FIFO block (R224–R226) -/

theorem logKeys_privK (i off : Nat) : logKeys (privK i off) = false := by
  simp only [logKeys, icKeys, icK, Bool.or_eq_false_iff, decide_eq_false_iff_not, if_true]
  unfold privK
  omega

theorem slotOfPad_defined {s : State} {n t i j p : Nat} (h : slotOfPad s n t i = some (j, p)) : (port s p).defined = true := by
  obtain ⟨k, -, hk⟩ := List.exists_of_findSome?_eq_some h
  dsimp only at hk
  split at hk
  case isTrue hc =>
    obtain ⟨-, rfl⟩ := Prod.mk.inj (Option.some.inj hk)
    simp only [Bool.and_eq_true] at hc
    exact hc.1.1.2
  case isFalse => exact absurd hk (by simp)

theorem freeChunk_lt {f : FifoSt} {c : Nat} (h : freeChunk f = some c) : c < 96 :=
  List.mem_range.mp (List.mem_of_find?_eq_some h)

theorem getF_fifoStat {g : Fld} (n t : Nat) (s : State) (h : (fFreeNotices n t).apart g = true) (h' : (fFreeChunks n t).apart g = true) :
    getF (fifoStat n t s) g = getF s g := by
  dsimp only [fifoStat]
  rw [getF_setF_apart _ _ h, getF_setF_apart _ _ h']

theorem rxovr_fifoStat (n t : Nat) (s : State) : getF (fifoStat n t s) (fFifoRxovr n t) = getF s (fFifoRxovr n t) :=
  getF_fifoStat n t s (by simp [Fld.apart, Fld.ok, fFreeNotices, fFifoRxovr, fld, bit])
    (by simp [Fld.apart, Fld.ok, fFreeChunks, fFifoRxovr, fld, bit])

theorem rxovr_flag (n t : Nat) (s : State) : getF (flag (fFifoRxovr n t) s) (fFifoRxovr n t) = 1 :=
  (getF_flag ..).trans (getF_setF_self _ _ _ rfl)

theorem fifos_fifoStat (n t : Nat) (s : State) : (fifoStat n t s).fifos = s.fifos := fifos_of (by simp)

theorem readB_fifoStat (n t : Nat) (s : State) (a : Nat) : readB (fifoStat n t s) a = readB s a := by simp [fifoStat]

theorem fifos_writeBytes (a : Nat) (bs : List Byte) (s : State) : (writeBytes a bs s).fifos = s.fifos := fifos_of (by simp)

theorem putNotice_free {n t k : Nat} {s : State} (h : freeNotice (fifo s (fifoIx n t)) = some k) (x : Notice) :
    (putNotice n t x s).1 = true ∧
    fifo (putNotice n t x s).2 (fifoIx n t) = { fifo s (fifoIx n t) with notices := Tab.put (fifo s (fifoIx n t)).notices k x } := by
  rw [putNotice, h]
  refine ⟨rfl, ?_⟩
  dsimp only
  rw [fifo_of (fifos_fifoStat ..), fifo_of (fifos_writeBytes ..), fifo_updFifo_self]

theorem putNotice_full {n t : Nat} {s : State} (h : freeNotice (fifo s (fifoIx n t)) = none) (x : Notice) :
    putNotice n t x s = (false, fifoStat n t (flag (fFifoRxovr n t) s)) := by rw [putNotice, h]

/-! ### The first byte of a packet (R224, R225) -/

theorem firstEnd_pos {fs : List Fmt} {bs : List Byte} {k : Nat} {m : Bool} (h : firstEnd fs bs = some (k, m)) : 0 < k := by
  obtain ⟨n, -, hn⟩ := List.exists_of_findSome?_eq_some h
  split at hn
  · exact absurd hn (by simp)
  · obtain ⟨i, -, hi⟩ := List.exists_of_findSome?_eq_some hn
    split at hi
    · next hc => simp only [Option.some.injEq, Prod.mk.injEq] at hi; omega
    · exact absurd hi (by simp)
  · split at hn
    · next hc => simp only [Option.some.injEq, Prod.mk.injEq] at hn; omega
    · exact absurd hn (by simp)

/-- A packet of one byte ends with it at the earliest: nothing of it is left to open another. -/
theorem splitOpen_single {n t j p : Nat} {s : State} {o : OpenPkt} (ho : Tab.find (fifo s (fifoIx n t)).open_ j = some o)
    (hl : o.bytes.length = 1) : splitOpen n t j p s = s := by
  unfold splitOpen
  rw [ho]
  dsimp only
  split
  · rfl
  · next k m he =>
    rw [if_pos]
    have := firstEnd_pos he
    omega

theorem splitOpen_none {n t j p : Nat} {s : State} (ho : Tab.find (fifo s (fifoIx n t)).open_ j = none) :
    splitOpen n t j p s = s := by rw [splitOpen, ho]

theorem closeBefore_none {n t j p e : Nat} {s : State} (ho : Tab.find (fifo s (fifoIx n t)).open_ j = none) :
    closeBefore n t j p e s = s := by rw [closeBefore, ho]

/-- The packet of slot j that a first byte opens, with chunk c. -/
def firstPkt (s : State) (n t j p : Nat) (b : RxByte) (ends : Nat) (gapEnd : Bool) (c : Nat) : OpenPkt :=
  let o := newOpen s n t j p ends
  { o with bytes := [b], lastEnd := ends, gapEnd := gapEnd, raw := if o.held then o.raw ++ [b] else o.raw, chunks := [c] }

section
variable {n t j p : Nat} {s : State} (hOpen : Tab.find (fifo s (fifoIx n t)).open_ j = none) (b : RxByte) (ends : Nat) (gapEnd : Bool)
include hOpen

/-- The packet that a first byte opens, in a chunk of its own. -/
theorem pushByte_first {c : Nat} (hc : freeChunk (fifo s (fifoIx n t)) = some c) :
    ∃ o, Tab.find (fifo (pushByte n t j p b ends gapEnd true s) (fifoIx n t)).open_ j = some o ∧ o.bytes = [b] ∧ o.chunks = [c] ∧
      o.gapEnd = gapEnd ∧
      readB (pushByte n t j p b ends gapEnd true s) (fifoBase n t + 64 * c) = b.val ∧
      readB (pushByte n t j p b ends gapEnd true s) (fifoBase n t + 0x2E00 + c) = 0xFF := by
  have hNext : nextChunk (fifo s (fifoIx n t)) (newOpen s n t j p ends) = some c := by
    simp [nextChunk, newOpen, hc]
  have hlt := freeChunk_lt hc
  have hEff : pushByte n t j p b ends gapEnd true s = fifoStat n t (updFifo (fifoIx n t) (fun f => { f with
      open_ := Tab.put f.open_ j (firstPkt s n t j p b ends gapEnd c), cut := f.cut.filter (fun i => i ≠ j) })
      (writeB (fifoBase n t + 64 * c) b.val (writeB (fifoBase n t + 0x2E00 + c) 0xFF
        (if (newOpen s n t j p ends).held then s else runByte false p b s)))) := by
    unfold pushByte
    dsimp only
    rw [hOpen]
    dsimp only [Option.elim]
    rw [hNext]
    simp [newOpen, firstPkt]
  rw [hEff]
  refine ⟨_, by rw [fifo_of (fifos_fifoStat ..), fifo_updFifo_self]; exact Tab.find_put_self .., rfl, rfl, rfl, ?_, ?_⟩
  · rw [readB_fifoStat, readB_updFifo, readB_writeB_self]
  · rw [readB_fifoStat, readB_updFifo, readB_writeB_ne _ _ (by omega), readB_writeB_self]

/-- Without a free chunk a first byte opens no packet (R225). -/
theorem pushByte_full (hc : freeChunk (fifo s (fifoIx n t)) = none) :
    getF (pushByte n t j p b ends gapEnd true s) (fFifoRxovr n t) = 1 ∧
    Tab.find (fifo (pushByte n t j p b ends gapEnd true s) (fifoIx n t)).open_ j = none := by
  have hNext : nextChunk (fifo s (fifoIx n t)) (newOpen s n t j p ends) = none := by
    simp [nextChunk, newOpen, hc]
  have hEff : pushByte n t j p b ends gapEnd true s = flag (fFifoRxovr n t) (runByte false p b s) := by
    unfold pushByte
    dsimp only
    rw [hOpen]
    dsimp only [Option.elim]
    rw [hNext]
    simp
  rw [hEff]
  have hFifos : (flag (fFifoRxovr n t) (runByte false p b s)).fifos = s.fifos := fifos_of (by simp)
  exact ⟨rxovr_flag .., by rw [fifo_of hFifos, hOpen]⟩

end

theorem rxfPush_slot {n t j p : Nat} {v : Word} {s : State} (hs : slotOfPad s n t (bitsOf v 21 16) = some (j, p))
    (ho : Tab.find (fifo s (fifoIx n t)).open_ j = none) :
    ∃ (u : State) (st e : Nat), u.fifos = s.fifos ∧ rxfPush n t v s = splitOpen n t j p (pushByte n t j p
      { val := BitVec.ofNat 8 (bitsOf v 7 0), ninth := v.getLsbD 10, err := !v.getLsbD 8 || v.getLsbD 9, stamp := st }
      e (v.getLsbD 11) true u) := by
  unfold rxfPush
  dsimp only
  rw [hs]
  dsimp only
  rw [closeBefore_none ho]
  exact ⟨_, _, _, by simp, rfl⟩

section
variable {s : State} {n : ClusterId} {th : ThreadNo} (h : castHolds (.thread n th) n.val s = none) (v : Word)
include h

theorem execRxfPush_thread : execRxfPush (.thread n th) v s = .next (rxfPush n.val th.val v s) := castWrite_free h ..
theorem execRxfEnd_thread : execRxfEnd (.thread n th) v s = .next (rxfEnd n.val th.val v s) := castWrite_free h ..
theorem execRxfEvent_thread : execRxfEvent (.thread n th) v s = .next (rxfEvent n.val th.val v s) := castWrite_free h ..
theorem execTxfNote_thread : execTxfNote (.thread n th) v s = .next (txfNote n.val th.val v s) := castWrite_free h ..
theorem execTxfPop_thread (j : Fin 8) : execTxfPop (.thread n th) j s = .next (txfPop n.val th.val j.val s) :=
  castRead_free h ..

end

theorem rxfPush_completes {s : State} {n : ClusterId} {th : ThreadNo} {v : Word} {j p : Nat} (hFree : castHolds (.thread n th) n.val s = none)
    (hs : slotOfPad s n.val th.val (bitsOf v 21 16) = some (j, p)) (ho : Tab.find (fifo s (fifoIx n.val th.val)).open_ j = none) :
    Completes (.rxfPush (.thread n th) v) s (fun u =>
      (∀ c, freeChunk (fifo s (fifoIx n.val th.val)) = some c →
        (Tab.find (fifo u (fifoIx n.val th.val)).open_ j).map (fun o =>
            (o.bytes.map (fun b => (b.val, b.ninth, b.err)), o.chunks, o.gapEnd)) =
          some ([(BitVec.ofNat 8 (bitsOf v 7 0), v.getLsbD 10, !v.getLsbD 8 || v.getLsbD 9)], [c], v.getLsbD 11) ∧
        readB u (fifoBase n.val th.val + 64 * c) = BitVec.ofNat 8 (bitsOf v 7 0) ∧
        readB u (fifoBase n.val th.val + 0x2E00 + c) = 0xFF) ∧
      (freeChunk (fifo s (fifoIx n.val th.val)) = none → getF u (fFifoRxovr n.val th.val) = 1 ∧
        Tab.find (fifo u (fifoIx n.val th.val)).open_ j = none)) := by
  obtain ⟨w, st, e, hw, hPush⟩ := rxfPush_slot hs ho
  refine ⟨_, execRxfPush_thread hFree v, ?_⟩
  dsimp only
  rw [hPush]
  rw [← fifo_of hw] at ho ⊢
  refine ⟨fun c hc => ?_, fun hc => ?_⟩
  · obtain ⟨o, hFind, hBytes, hChunks, hGap, hByte, hLink⟩ := pushByte_first (p := p) ho _ e (v.getLsbD 11) hc
    rw [splitOpen_single hFind (by rw [hBytes]; rfl), hFind]
    refine ⟨?_, hByte, hLink⟩
    rw [Option.map_some, hBytes, hChunks, hGap]
    rfl
  · obtain ⟨hOvr, hNone⟩ := pushByte_full (p := p) ho _ e (v.getLsbD 11) hc
    rw [splitOpen_none hNone]
    exact ⟨hOvr, hNone⟩

end Sys2Proof.Machine
end

section
namespace Sys2Proof.Machine

/-! ### The end of a packet (R224, R225) -/

theorem jHeld_log (p : Nat) (bs : List RxByte) (s : State) : RegsOnly logKeys s (jHeld p bs s) :=
  (RegsOnly.each _ (fun b s => runByte_log false p b s) bs s).trans (runClose_log ..)

theorem jUndelivered_log (p : Nat) (k : Packet) (mark : Nat) (s : State) : RegsOnly logKeys s (jUndelivered p k mark s) :=
  (RegsOnly.ite (RegsOnly.refl _ _) (jHeld_log ..)).trans (jPacket_log ..)

/-- A packet that no exchange waits for leaves the FIFOs as it is routed (R463). -/
theorem fifos_deliverPacket {s : State} {p : Nat} (h : (port s p).probing = none) (k : Packet) :
    (deliverPacket p k s).fifos = s.fifos := by
  have hTakes : probeTakes s p k = false := by simp [probeTakes, h]
  rw [deliverPacket, hTakes, if_neg Bool.false_ne_true]
  exact fifos_of (by simp)

/-- The notice of a packet's end. -/
def EndNotice (j turn : Nat) (o : OpenPkt) (x : Notice) : Prop :=
  (x.slot, x.kind, x.len, x.turn, x.chunks) = (j, 0, o.bytes.length, turn, o.chunks)

section
variable {n t j p turn : Nat} {s : State} {o : OpenPkt} (ho : Tab.find (fifo s (fifoIx n t)).open_ j = some o) (pk : Nat)
include ho

/-- A packet that ends is taken out of the pool, and a notice of it is due. -/
theorem pktEnd_open : ∃ (u : State) (x : Notice) (k : Packet), EndNotice j turn o x ∧ u.ports = s.ports ∧
    fifo u (fifoIx n t) = { fifo s (fifoIx n t) with open_ := Tab.del (fifo s (fifoIx n t)).open_ j } ∧
    pktEnd n t j p turn pk s = if (putNotice n t x u).1 then (some k, (putNotice n t x u).2)
      else (none, jUndelivered p k 0x10 (putNotice n t x u).2) := by
  have hTake : fifo (takeOpen n t j s) (fifoIx n t) =
      { fifo s (fifoIx n t) with open_ := Tab.del (fifo s (fifoIx n t)).open_ j } := fifo_updFifo_self ..
  have hLog : ∀ (c : Bool) u, (if c then u else runClose false p u).fifos = u.fifos := fun c u => fifos_of (by simp)
  have hPorts : ∀ (c : Bool) u, (if c then u else runClose false p u).ports = u.ports := fun c u => ports_of (by simp)
  unfold pktEnd
  rw [ho]
  dsimp only
  exact ⟨if o.held then takeOpen n t j s else runClose false p (takeOpen n t j s),
    { slot := j, kind := 0, code := 0, len := o.bytes.length, pk := _, turn := turn, chunks := o.chunks }, _,
    rfl, (hPorts _ _).trans rfl, (fifo_of (hLog _ _) _).trans hTake, rfl⟩

theorem pktEnd_noticed {i : Nat} (hi : freeNotice (fifo s (fifoIx n t)) = some i) :
    ∃ (k : Packet) (x : Notice), EndNotice j turn o x ∧ (pktEnd n t j p turn pk s).1 = some k ∧
      (pktEnd n t j p turn pk s).2.ports = s.ports ∧
      fifo (pktEnd n t j p turn pk s).2 (fifoIx n t) = { fifo s (fifoIx n t) with
        open_ := Tab.del (fifo s (fifoIx n t)).open_ j, notices := Tab.put (fifo s (fifoIx n t)).notices i x } := by
  obtain ⟨u, x, k, hx, hPorts, hu, hEnd⟩ := pktEnd_open ho pk (p := p) (turn := turn)
  obtain ⟨hPut, hFifo⟩ := putNotice_free (s := u) (by rw [hu]; exact hi) x
  rw [hEnd, if_pos hPut]
  exact ⟨k, x, hx, rfl, (ports_of (by simp)).trans hPorts, by rw [hFifo, hu]⟩

theorem pktEnd_unnoticed (hi : freeNotice (fifo s (fifoIx n t)) = none) :
    (pktEnd n t j p turn pk s).1 = none ∧ getF (pktEnd n t j p turn pk s).2 (fFifoRxovr n t) = 1 ∧
      fifo (pktEnd n t j p turn pk s).2 (fifoIx n t) =
        { fifo s (fifoIx n t) with open_ := Tab.del (fifo s (fifoIx n t)).open_ j } := by
  obtain ⟨u, x, k, -, -, hu, hEnd⟩ := pktEnd_open ho pk (p := p) (turn := turn)
  have hFifos : (jUndelivered p k 0x10 (fifoStat n t (flag (fFifoRxovr n t) u))).fifos = u.fifos := fifos_of (by simp)
  rw [hEnd, putNotice_full (s := u) (by rw [hu]; exact hi)]
  dsimp only
  rw [if_neg Bool.false_ne_true]
  refine ⟨rfl, ?_, ?_⟩
  · rw [(jUndelivered_log ..).getF _ (logKeys_privK ..), rxovr_fifoStat, rxovr_flag]
  · rw [fifo_of hFifos, hu]

theorem endOpen_noticed {i : Nat} (hp : (port s p).probing = none) (hi : freeNotice (fifo s (fifoIx n t)) = some i) :
    ∃ x, EndNotice j (now s) o x ∧ fifo (endOpen n t j p pk s) (fifoIx n t) = { fifo s (fifoIx n t) with
      open_ := Tab.del (fifo s (fifoIx n t)).open_ j, notices := Tab.put (fifo s (fifoIx n t)).notices i x } := by
  obtain ⟨k, x, hx, hk, hPorts, hFifo⟩ := pktEnd_noticed ho pk (p := p) (turn := now s) hi
  refine ⟨x, hx, ?_⟩
  unfold endOpen
  dsimp only
  rw [hk]
  dsimp only
  rw [fifo_of (fifos_deliverPacket (by rw [port_of hPorts, hp]) k), hFifo]

theorem endOpen_unnoticed (hi : freeNotice (fifo s (fifoIx n t)) = none) :
    getF (endOpen n t j p pk s) (fFifoRxovr n t) = 1 ∧ fifo (endOpen n t j p pk s) (fifoIx n t) =
      { fifo s (fifoIx n t) with open_ := Tab.del (fifo s (fifoIx n t)).open_ j } := by
  obtain ⟨hk, hOvr, hFifo⟩ := pktEnd_unnoticed ho pk (p := p) (turn := now s) hi
  unfold endOpen
  dsimp only
  rw [hk]
  exact ⟨hOvr, hFifo⟩

end

theorem endOpen_none {n t j p : Nat} {s : State} (ho : Tab.find (fifo s (fifoIx n t)).open_ j = none) (pk : Nat) :
    endOpen n t j p pk s = s := by simp [endOpen, pktEnd, ho]

theorem fifos_clearPending (p : Nat) (t : Option Nat) (s : State) : (clearPending p t s).fifos = s.fifos := fifos_of (by simp)
theorem ports_clearPending (p : Nat) (t : Option Nat) (s : State) : (clearPending p t s).ports = s.ports := ports_of (by simp)
theorem mem_clearPending (p : Nat) (t : Option Nat) (s : State) : (clearPending p t s).mem = s.mem := mem_of (by simp)
theorem now_clearPending (p : Nat) (t : Option Nat) (s : State) : now (clearPending p t s) = now s :=
  congrArg TimeSt.turn (time_of (by simp))

theorem rxfEnd_slot {n t j p : Nat} {v : Word} {s : State} (hs : slotOfPad s n t (bitsOf v 21 16) = some (j, p)) :
    rxfEnd n t v s = endOpen n t j p (2 * bitsOf v 1 1 + 4 * bitsOf v 2 2) (clearPending p (some t) s) := by rw [rxfEnd, hs]

section
variable {s : State} {n : ClusterId} {th : ThreadNo} {v : Word} {j p : Nat} (hFree : castHolds (.thread n th) n.val s = none)
  (hs : slotOfPad s n.val th.val (bitsOf v 21 16) = some (j, p))
include hFree hs

theorem rxfEnd_completes {o : OpenPkt} (ho : Tab.find (fifo s (fifoIx n.val th.val)).open_ j = some o)
    (hp : (port s p).probing = none) :
    Completes (.rxfEnd (.thread n th) v) s (fun u =>
      Tab.find (fifo u (fifoIx n.val th.val)).open_ j = none ∧
      (∀ k, freeNotice (fifo s (fifoIx n.val th.val)) = some k →
        (Tab.find (fifo u (fifoIx n.val th.val)).notices k).map (fun x => (x.slot, x.kind, x.len, x.turn, x.chunks)) =
          some (j, 0, o.bytes.length, now s, o.chunks)) ∧
      (freeNotice (fifo s (fifoIx n.val th.val)) = none → getF u (fFifoRxovr n.val th.val) = 1 ∧
        (fifo u (fifoIx n.val th.val)).notices = (fifo s (fifoIx n.val th.val)).notices)) := by
  refine ⟨_, execRxfEnd_thread hFree v, ?_⟩
  dsimp only
  rw [rxfEnd_slot hs, ← now_clearPending p (some th.val) s]
  rw [← fifo_of (fifos_clearPending p (some th.val) s)] at ho ⊢
  rw [← port_of (ports_clearPending p (some th.val) s)] at hp
  cases hi : freeNotice (fifo (clearPending p (some th.val) s) (fifoIx n.val th.val)) with
  | none =>
    obtain ⟨hOvr, hFifo⟩ := endOpen_unnoticed ho _ hi
    rw [hFifo]
    exact ⟨Tab.find_del_self .., fun k h => absurd h (by simp), fun _ => ⟨hOvr, rfl⟩⟩
  | some i =>
    obtain ⟨x, hx, hFifo⟩ := endOpen_noticed ho (2 * bitsOf v 1 1 + 4 * bitsOf v 2 2) hp hi
    rw [hFifo]
    refine ⟨Tab.find_del_self .., fun k h => ?_, fun h => absurd h (by simp)⟩
    obtain rfl := Option.some.inj h
    rw [Tab.find_put_self]
    exact congrArg some hx

theorem rxfEnd_none_completes (ho : Tab.find (fifo s (fifoIx n.val th.val)).open_ j = none) :
    Completes (.rxfEnd (.thread n th) v) s (fun u =>
      fifo u (fifoIx n.val th.val) = fifo s (fifoIx n.val th.val) ∧ u.mem = s.mem) := by
  refine ⟨_, execRxfEnd_thread hFree v, ?_⟩
  dsimp only
  rw [rxfEnd_slot hs, endOpen_none (by rw [fifo_of (fifos_clearPending ..), ho])]
  exact ⟨fifo_of (fifos_clearPending ..) _, mem_clearPending ..⟩

end

end Sys2Proof.Machine
end

section
namespace Sys2Proof.Machine

/-! ### Port events recorded by a thread (R78, R226) -/

theorem port_portState (p st : Nat) (s : State) : port (portState p st s) p = { port s p with state := st } := by
  have hLog : ∀ u, (jPort 0 p [BitVec.ofNat 8 st] u).ports = u.ports := fun u => ports_of (by simp)
  rw [portState, port_of (hLog _), port_updPort_self]

theorem port_portEvent (p code arg turn : Nat) (s : State) (q : Nat) : port (portEvent p code arg turn s) q = port s q :=
  port_of (ports_of (by simp)) q

theorem lossAt_openWindow (p e : Nat) (img : List Byte) (s : State) :
    (port (openWindow p e img s) p).lossAt = (port s p).lossAt := by simp [openWindow]

theorem lossAt_attachOpen (p delay : Nat) (s : State) : (port (attachOpen p delay s) p).lossAt = (port s p).lossAt := by
  unfold attachOpen
  split
  · rfl
  · split
    · split
      · exact lossAt_openWindow ..
      · rfl
    · rw [port_updPort_self]

theorem lossAt_attachAgain (p : Nat) (s : State) : (port (attachAgain p s) p).lossAt = (port s p).lossAt := by
  unfold attachAgain
  split
  · rfl
  · split
    · split
      · split
        · rw [port_updPort_self]
        · rfl
      · rfl
    · rw [port_updPort_self]

theorem lossAt_lossEffects (p turn : Nat) (s : State) : (port (lossEffects p turn s) p).lossAt = some turn := by
  simp [lossEffects]

/-- A loss is recorded at the present turn (R88, R464). -/
theorem lossAt_lossRecorded {p : Nat} {s : State} (hDef : (port s p).defined = true) (hByp : (port s p).bypassed = false)
    (h0 : (port s p).state ≠ 0) (h5 : (port s p).state ≠ 5) : (port (lossRecorded p s) p).lossAt = some (now s) := by
  have hQuiet : ∀ u, (port (portQuiet p u) p).lossAt = (port u p).lossAt := fun u => by simp [portQuiet]
  unfold lossRecorded
  simp only [hDef, hByp, h0, h5, Bool.not_true, Bool.false_or, decide_false, Bool.false_eq_true, if_false]
  split
  all_goals
    simp only [lossAt_attachAgain, lossAt_attachOpen, port_portEvent, port_portState, port_updPort_self, hQuiet,
      lossAt_lossEffects]

section
variable {p : Nat} {s : State} (hByp : (port s p).bypassed = false)
include hByp

/-- SETTLED (code 2). -/
theorem state_eventSettled :
    (port (rxfEventAct p 2 s) p).state = if (port s p).state = 1 then 2 else (port s p).state := by
  simp only [rxfEventAct, hByp, Bool.false_eq_true, if_false, port_portEvent, port_updPort_self]
  split
  · rw [port_portState]
  · rfl

/-- PROBE_FAIL (code 3). -/
theorem state_eventFailed :
    (port (rxfEventAct p 3 s) p).state = if (port s p).state = 1 then 0 else (port s p).state := by
  simp only [rxfEventAct, hByp, Bool.false_eq_true, if_false, port_portEvent]
  split
  · rw [port_portState]
  · rfl

/-- LOSS (code 4). -/
theorem lossAt_eventLoss (hDef : (port s p).defined = true) (h0 : (port s p).state ≠ 0) (h5 : (port s p).state ≠ 5) :
    (port (rxfEventAct p 4 s) p).lossAt = some (now s) := by
  simp only [rxfEventAct, hByp, Bool.false_eq_true, if_false, h0, h5, or_self]
  exact lossAt_lossRecorded hDef hByp h0 h5

/-- VERIFIED (code 5). -/
theorem port_eventVerified :
    (port (rxfEventAct p 5 s) p).state = (port s p).state ∧ ((port s p).state = 6 →
      (port (rxfEventAct p 5 s) p).toActive = true ∧ (port (rxfEventAct p 5 s) p).probing = none) := by
  simp only [rxfEventAct, hByp, Bool.false_eq_true, if_false, port_portEvent]
  split
  · rw [port_updPort_self]
    exact ⟨rfl, fun _ => ⟨rfl, rfl⟩⟩
  · next h => exact ⟨rfl, fun h' => absurd h' h⟩

/-- CHANGED (code 6). -/
theorem state_eventChanged :
    (port (rxfEventAct p 6 s) p).state = if (port s p).state = 6 then 1 else (port s p).state := by
  simp only [rxfEventAct, hByp, Bool.false_eq_true, if_false, port_portEvent]
  split
  · rw [port_portState]
  · rfl

end

section
variable {n t j p : Nat} {v : Word} {s : State} (hs : slotOfPad s n t (bitsOf v 21 16) = some (j, p))
include hs

theorem rxfEvent_noCode (h : bitsOf v 3 0 = 0 ∨ 7 ≤ bitsOf v 3 0) :
    rxfEvent n t v s = threadFault n t 2 (BitVec.ofNat 32 (winK n 0x708)) s := by
  unfold rxfEvent
  dsimp only
  rw [hs]
  exact if_pos h

theorem rxfEvent_full (h1 : 1 ≤ bitsOf v 3 0) (h6 : bitsOf v 3 0 ≤ 6) (hFull : (freeNotice (fifo s (fifoIx n t))).isNone = true) :
    rxfEvent n t v s = fifoStat n t (flag (fFifoRxovr n t) (clearPending p (some t) s)) := by
  unfold rxfEvent
  dsimp only
  rw [hs]
  dsimp only
  rw [if_neg (by omega), if_pos hFull]

theorem rxfEvent_acts (h1 : 1 ≤ bitsOf v 3 0) (h6 : bitsOf v 3 0 ≤ 6)
    (hFree : (freeNotice (fifo s (fifoIx n t))).isNone = false) :
    rxfEvent n t v s = rxfEventAct p (bitsOf v 3 0) (clearPending p (some t) s) := by
  unfold rxfEvent
  dsimp only
  rw [hs]
  dsimp only
  rw [if_neg (by omega), hFree, if_neg Bool.false_ne_true]

end

section
variable {s : State} {n : ClusterId} {th : ThreadNo} {v : Word} {j p : Nat} (hFree : castHolds (.thread n th) n.val s = none)
  (hs : slotOfPad s n.val th.val (bitsOf v 21 16) = some (j, p))
include hFree hs

theorem rxfEvent_full_completes (h1 : 1 ≤ bitsOf v 3 0) (h6 : bitsOf v 3 0 ≤ 6)
    (hFull : (freeNotice (fifo s (fifoIx n.val th.val))).isNone = true) :
    Completes (.rxfEvent (.thread n th) v) s (fun u =>
      getF u (fFifoRxovr n.val th.val) = 1 ∧ u.ports = s.ports ∧
      (fifo u (fifoIx n.val th.val)).notices = (fifo s (fifoIx n.val th.val)).notices) := by
  have hFifos : (fifoStat n.val th.val (flag (fFifoRxovr n.val th.val) (clearPending p (some th.val) s))).fifos = s.fifos :=
    fifos_of (by simp)
  refine ⟨_, (execRxfEvent_thread hFree v).trans (congrArg _ (rxfEvent_full hs h1 h6 hFull)), ?_, ports_of (by simp), ?_⟩
  · rw [rxovr_fifoStat, rxovr_flag]
  · rw [fifo_of hFifos]

theorem rxfEvent_acts_completes (h2 : 2 ≤ bitsOf v 3 0) (h6 : bitsOf v 3 0 ≤ 6)
    (hNotice : (freeNotice (fifo s (fifoIx n.val th.val))).isNone = false) (hByp : (port s p).bypassed = false) :
    Completes (.rxfEvent (.thread n th) v) s (fun u =>
      (bitsOf v 3 0 = 2 → (port u p).state = (if (port s p).state = 1 then 2 else (port s p).state)) ∧
      (bitsOf v 3 0 = 3 → (port u p).state = (if (port s p).state = 1 then 0 else (port s p).state)) ∧
      (bitsOf v 3 0 = 4 → (port s p).state ≠ 0 → (port s p).state ≠ 5 → (port u p).lossAt = some (now s)) ∧
      (bitsOf v 3 0 = 5 → (port u p).state = (port s p).state ∧
        ((port s p).state = 6 → (port u p).toActive = true ∧ (port u p).probing = none)) ∧
      (bitsOf v 3 0 = 6 → (port u p).state = (if (port s p).state = 6 then 1 else (port s p).state))) := by
  have hDef := slotOfPad_defined hs
  refine ⟨_, (execRxfEvent_thread hFree v).trans (congrArg _ (rxfEvent_acts hs (by omega) h6 hNotice)), ?_⟩
  dsimp only
  rw [← now_clearPending p (some th.val) s]
  rw [← port_of (ports_clearPending p (some th.val) s)] at hByp hDef ⊢
  refine ⟨fun h => ?_, fun h => ?_, fun h => ?_, fun h => ?_, fun h => ?_⟩ <;> rw [h]
  · exact state_eventSettled hByp
  · exact state_eventFailed hByp
  · exact lossAt_eventLoss hByp hDef
  · exact port_eventVerified hByp
  · exact state_eventChanged hByp

end

/-! ### Freed notices (R225, R228) -/

theorem execRxfFree_sup {s : State} {c : CoreId} (hFree : castHolds c (coreCl c) s = none) (hSup : supLane s (coreCl c) c = true)
    (v : Word) : execRxfFree c v s = .next (rxfFree (coreCl c) v s) :=
  (castWrite_free hFree ..).trans (next_of_true hSup ..)

theorem fifo_freeNoticeAt (n t k : Nat) (s : State) : fifo (freeNoticeAt n t k s) (fifoIx n t) =
    { fifo s (fifoIx n t) with notices := Tab.del (fifo s (fifoIx n t)).notices k } := by
  rw [freeNoticeAt, fifo_of (fifos_fifoStat ..), fifo_updFifo_self]

theorem rxfFree_completes {s : State} {c : CoreId} {v : Word} (hFree : castHolds c (coreCl c) s = none)
    (hSup : supLane s (coreCl c) c = true) (hk : bitsOf v 6 0 < 96) (ht : bitsOf v 11 8 < 12) :
    Completes (.rxfFree c v) s (fun u =>
      Tab.find (fifo u (fifoIx (coreCl c) (bitsOf v 11 8))).notices (bitsOf v 6 0) = none ∧
      (fifo u (fifoIx (coreCl c) (bitsOf v 11 8))).open_ = (fifo s (fifoIx (coreCl c) (bitsOf v 11 8))).open_ ∧
      ∀ k, k ≠ bitsOf v 6 0 → Tab.find (fifo u (fifoIx (coreCl c) (bitsOf v 11 8))).notices k =
        Tab.find (fifo s (fifoIx (coreCl c) (bitsOf v 11 8))).notices k) := by
  refine ⟨_, (execRxfFree_sup hFree hSup v).trans (congrArg _ (if_pos ⟨hk, ht⟩)), ?_⟩
  dsimp only
  rw [fifo_freeNoticeAt]
  exact ⟨Tab.find_del_self .., rfl, fun k h => Tab.find_del_ne _ h⟩

end Sys2Proof.Machine
end

section
namespace Sys2Proof.Machine

/-! ### Messages staged by the supervisor runtime (R77, R227) -/

/-- What stays in the pool for a thread's released bytes decides the room, not what is staged in parts. -/
theorem txRoom_updFifo {i : Nat} {f : FifoSt → FifoSt} (hf : ∀ x, (f x).txc = x.txc) (s : State) (p len : Nat) :
    txRoom (updFifo i f s) p len = txRoom s p len := by
  have hChunks : ∀ k, txChunks (fifo (updFifo i f s) k) = txChunks (fifo s k) := fun k => by
    unfold txChunks
    by_cases h : k = i
    · rw [h, fifo_updFifo_self, hf]
    · rw [fifo_updFifo_ne _ i f h]
  unfold txRoom
  dsimp only
  rw [hChunks, port_updFifo]
  rfl

/-- Slot j's part of a message is taken. -/
def endPart (j : Nat) (f : FifoSt) : FifoSt := { f with part := Tab.del f.part j, cont := f.cont.filter (fun k => k ≠ j) }

/-- What an output says of a message: its port, its sender, and its bytes. -/
def OutMsg.shown (o : OutMsg) : Nat × Nat × Nat × List (BitVec 9) × Bool := (o.port, o.tenant, o.dev, o.bytes, o.fin)

theorem outs_sendItem (t d turn key : Nat) (remote : Bool) (it : Item) (s : State) (u : Nat) :
    (ten (sendItem t d turn key remote it s) u).outs = (ten s u).outs := by
  unfold sendItem
  split
  · exact congrArg _ (ten_of (tenants_of (by simp)) u)
  · by_cases h : u = t
    · rw [h, ten_updTen_self]
    · rw [ten_updTen_ne _ t _ h]

/-- A message of a bound port becomes an output of its tenant while the pool has room; without room none does. -/
theorem outs_stageRaw {p ix : Nat} {s : State} (hb : (port s p).bound = some ix) (tag : Option Nat) (fin : Bool)
    (bytes : List (BitVec 9)) :
    (ten (stageRaw p tag fin bytes s) (ix / 16)).outs.map OutMsg.shown = (ten s (ix / 16)).outs.map OutMsg.shown ++
      if txRoom s p bytes.length then [(p, ix / 16, ix % 16, bytes, fin)] else [] := by
  have hLog : ∀ u, ten (jDevice 5 (ix / 16) (ix % 16) 0 [] u) (ix / 16) = ten u (ix / 16) := fun u =>
    ten_of (tenants_of (by simp)) _
  unfold stageRaw stageMsg
  rw [hb]
  dsimp only
  cases hRoom : txRoom s p bytes.length
  case true => simp [OutMsg.shown]
  case false =>
    simp only [Bool.false_eq_true, if_false, List.append_nil]
    split
    · rw [outs_sendItem, hLog]
    · rw [hLog]

section
variable {s : State} {c : CoreId} (hFree : castHolds c (coreCl c) s = none) (v : Word)
include hFree

theorem execTxfStage_sup (hSup : supLane s (coreCl c) c = true) (ht : bitsOf v 27 24 < 12) :
    execTxfStage c v s = .next (txfStage (coreCl c) v s) :=
  (castWrite_free hFree ..).trans (next_of_true (by simp [hSup, ht]) ..)

theorem execTxfStage_refused (h : supLane s (coreCl c) c = false ∨ 12 ≤ bitsOf v 27 24) :
    execTxfStage c v s = .next (busErr c (winK (coreCl c) 0x740) s) :=
  (castWrite_free hFree ..).trans (next_of_false (by rcases h with h | h <;> simp [h]) ..)

theorem execRxfFree_refused (h : supLane s (coreCl c) c = false) :
    execRxfFree c v s = .next (busErr c (winK (coreCl c) 0x744) s) :=
  (castWrite_free hFree ..).trans (next_of_false h ..)

end

theorem txfStage_unused {s : State} {n : Nat} {v : Word} (h : isSet s (fSlotValid n (bitsOf v 27 24) (bitsOf v 30 28)) = false) :
    txfStage n v s = s := by simp [txfStage, h]

section
variable {s : State} {n : Nat} {v : Word} (h : isSet s (fSlotValid n (bitsOf v 27 24) (bitsOf v 30 28)) = true)
include h

theorem txfStage_part (hl : bitsOf v 16 16 = 0) : txfStage n v s = updFifo (fifoIx n (bitsOf v 27 24))
    (fun f => { f with part := Tab.put f.part (bitsOf v 30 28) (msgOf s n v) }) s := by
  simp [txfStage, h, hl, msgOf]

theorem txfStage_last (hl : bitsOf v 16 16 = 1) : ∃ tag, txfStage n v s = stageRaw (msgPort s n v) tag true (msgOf s n v)
    (updFifo (fifoIx n (bitsOf v 27 24)) (endPart (bitsOf v 30 28)) s) := by
  unfold txfStage
  simp only [h, hl, Bool.not_true, Bool.false_eq_true, if_false, one_ne_zero]
  exact ⟨_, rfl⟩

end

theorem txfStage_completes {s : State} {c : CoreId} {v : Word} (hFree : castHolds c (coreCl c) s = none)
    (hSup : supLane s (coreCl c) c = true) (ht : bitsOf v 27 24 < 12)
    (hUsed : isSet s (fSlotValid (coreCl c) (bitsOf v 27 24) (bitsOf v 30 28)) = true) :
    Completes (.txfStage c v) s (fun u =>
      (bitsOf v 16 16 = 0 →
        Tab.find (fifo u (fifoIx (coreCl c) (bitsOf v 27 24))).part (bitsOf v 30 28) = some (msgOf s (coreCl c) v) ∧
        u.tenants = s.tenants) ∧
      (bitsOf v 16 16 = 1 →
        Tab.find (fifo u (fifoIx (coreCl c) (bitsOf v 27 24))).part (bitsOf v 30 28) = none ∧
        ∀ ix, (port s (msgPort s (coreCl c) v)).bound = some ix →
          (ten u (ix / 16)).outs.map (fun o => (o.port, o.tenant, o.dev, o.bytes, o.fin)) =
            (ten s (ix / 16)).outs.map (fun o => (o.port, o.tenant, o.dev, o.bytes, o.fin)) ++
            (if txRoom s (msgPort s (coreCl c) v) (msgOf s (coreCl c) v).length
              then [(msgPort s (coreCl c) v, ix / 16, ix % 16, msgOf s (coreCl c) v, true)] else []))) := by
  refine ⟨_, execTxfStage_sup hFree v hSup ht, fun hl => ?_, fun hl => ?_⟩
  · rw [txfStage_part hUsed hl, fifo_updFifo_self]
    exact ⟨Tab.find_put_self .., rfl⟩
  · obtain ⟨tag, hStage⟩ := txfStage_last hUsed hl
    have hFifos : ∀ p b u, (stageRaw p tag true b u).fifos = u.fifos := fun p b u => fifos_of (by simp)
    rw [hStage]
    refine ⟨?_, fun ix hb => ?_⟩
    · rw [fifo_of (hFifos ..), fifo_updFifo_self]
      exact Tab.find_del_self ..
    · rw [← txRoom_updFifo (i := fifoIx (coreCl c) (bitsOf v 27 24)) (f := endPart (bitsOf v 30 28)) (fun _ => rfl) s]
      exact outs_stageRaw (s := updFifo (fifoIx (coreCl c) (bitsOf v 27 24)) (endPart (bitsOf v 30 28)) s) hb tag true _

/-! ### Bytes that a thread takes (R50, R227, R228) -/

theorem poppable_taken {s : State} {n t j : Nat} {b : TxByte} {bs : List TxByte}
    (hb : Tab.getD (fifo s (fifoIx n t)).tx j [] = b :: bs) (hr : b.rel < s.time.cur.start ∨ s.time.cur.start + 24 ≤ now s) :
    poppable s n t j = some b := by
  rw [poppable, poppableAt, hb]
  exact if_neg (by omega)

theorem poppable_none {s : State} {n t j : Nat} (h : Tab.getD (fifo s (fifoIx n t)).tx j [] = [] ∨
    (now s < s.time.cur.start + 24 ∧ ∃ b bs, Tab.getD (fifo s (fifoIx n t)).tx j [] = b :: bs ∧ s.time.cur.start ≤ b.rel)) :
    poppable s n t j = none := by
  rw [poppable, poppableAt]
  rcases h with h | ⟨hn, b, bs, h, hr⟩
  · rw [h]
  · rw [h]
    exact if_pos ⟨hr, hn⟩

theorem tx_txDrop (j : Nat) (f : FifoSt) : (txDrop j f).tx = Tab.put f.tx j ((Tab.getD f.tx j []).drop 1) := rfl

theorem popped_txDrop (j : Nat) (f : FifoSt) : (txDrop j f).popped = f.popped := rfl

theorem txfPop_taken_completes {s : State} {n : ClusterId} {th : ThreadNo} {j : Fin 8} {b : TxByte} {bs : List TxByte}
    (hFree : castHolds (.thread n th) n.val s = none) (hb : Tab.getD (fifo s (fifoIx n.val th.val)).tx j.val [] = b :: bs)
    (hr : b.rel < s.time.cur.start ∨ s.time.cur.start + 24 ≤ now s) :
    Completes (.txfPop (.thread n th) j) s (fun u =>
      txfPopValue s n.val th.val j.val = BitVec.ofNat 32 (b.val.toNat + (if b.last then 0x10000 else 0)) ∧
      Tab.getD (fifo u (fifoIx n.val th.val)).tx j.val [] = bs ∧
      Tab.getD (fifo u (fifoIx n.val th.val)).popped j.val [] = Tab.getD (fifo s (fifoIx n.val th.val)).popped j.val [] ++ [b] ∧
      ∀ k, k ≠ j.val → Tab.getD (fifo u (fifoIx n.val th.val)).tx k [] = Tab.getD (fifo s (fifoIx n.val th.val)).tx k []) := by
  have hPop := poppable_taken hb hr
  refine ⟨_, execTxfPop_thread hFree j, ?_⟩
  dsimp only
  rw [txfPopValue, txfPop, hPop]
  dsimp only
  rw [fifo_updFifo_self, tx_txDrop, popped_txDrop]
  refine ⟨rfl, ?_, Tab.getD_put_self .., fun k h => Tab.getD_put_ne _ _ _ h⟩
  rw [Tab.getD_put_self, hb]
  rfl

theorem txfPop_none {s : State} {n : ClusterId} {th : ThreadNo} {j : Fin 8} (hFree : castHolds (.thread n th) n.val s = none)
    (h : poppable s n.val th.val j.val = none) :
    txfPopValue s n.val th.val j.val = 0x80000000 ∧ exec (.txfPop (.thread n th) j) s = .next s := by
  refine ⟨by rw [txfPopValue, h], (execTxfPop_thread hFree j).trans ?_⟩
  rw [txfPop, h]

theorem txfNote_completes {s : State} {n : ClusterId} {th : ThreadNo} (hFree : castHolds (.thread n th) n.val s = none) (v : Word) :
    Completes (.txfNote (.thread n th) v) s (fun u =>
      (fifo u (fifoIx n.val th.val)).note = some (BitVec.ofNat 9 (bitsOf v 8 0)) ∧
      (fifo u (fifoIx n.val th.val)).tx = (fifo s (fifoIx n.val th.val)).tx) := by
  refine ⟨_, execTxfNote_thread hFree v, ?_⟩
  dsimp only
  rw [txfNote, fifo_updFifo_self]
  exact ⟨rfl, rfl⟩

/-! ### Accesses of another core to the registers of the threads -/

section
variable {s : State} {v : Word}

theorem rxf_lane {n : ClusterId} {x : Fin 4} (hFree : castHolds (.lane n x) n.val s = none) :
    execRxfPush (.lane n x) v s = .next (busErr (.lane n x) (winK n.val 0x700) s) ∧
    execRxfEnd (.lane n x) v s = .next (busErr (.lane n x) (winK n.val 0x704) s) ∧
    execRxfEvent (.lane n x) v s = .next (busErr (.lane n x) (winK n.val 0x708) s) :=
  ⟨castWrite_free hFree .., castWrite_free hFree .., castWrite_free hFree ..⟩

theorem rxf_cp (hFree : castHolds .cp (coreCl .cp) s = none) :
    execRxfPush .cp v s = .next (busErr .cp 0x20800700 s) ∧ execRxfEnd .cp v s = .next (busErr .cp 0x20800704 s) ∧
    execRxfEvent .cp v s = .next (busErr .cp 0x20800708 s) :=
  ⟨castWrite_free hFree .., castWrite_free hFree .., castWrite_free hFree ..⟩

theorem txf_lane {n : ClusterId} {x : Fin 4} (hFree : castHolds (.lane n x) n.val s = none) (j : Fin 8) :
    execTxfPop (.lane n x) j s = .next (busErr (.lane n x) (winK n.val (0x720 + 4 * j.val)) s) ∧
    execTxfNote (.lane n x) v s = .next (busErr (.lane n x) (winK n.val 0x710) s) :=
  ⟨castRead_free hFree .., castWrite_free hFree ..⟩

theorem txf_cp (hFree : castHolds .cp (coreCl .cp) s = none) (j : Fin 8) :
    execTxfPop .cp j s = .next (busErr .cp (0x20800720 + 4 * j.val) s) ∧
    execTxfNote .cp v s = .next (busErr .cp 0x20800710 s) :=
  ⟨castRead_free hFree .., castWrite_free hFree ..⟩

end

theorem rxf_unslotted {s : State} {n : ClusterId} {th : ThreadNo} {v : Word} (hFree : castHolds (.thread n th) n.val s = none)
    (hs : slotOfPad s n.val th.val (bitsOf v 21 16) = none) :
    exec (.rxfPush (.thread n th) v) s = .next (threadFault n.val th.val 2 (BitVec.ofNat 32 (winK n.val 0x700)) s) ∧
    exec (.rxfEnd (.thread n th) v) s = .next (threadFault n.val th.val 2 (BitVec.ofNat 32 (winK n.val 0x704)) s) ∧
    exec (.rxfEvent (.thread n th) v) s = .next (threadFault n.val th.val 2 (BitVec.ofNat 32 (winK n.val 0x708)) s) := by
  refine ⟨(execRxfPush_thread hFree v).trans (congrArg _ ?_), (execRxfEnd_thread hFree v).trans (congrArg _ ?_),
    (execRxfEvent_thread hFree v).trans (congrArg _ ?_)⟩
  · simp [rxfPush, hs]
  · simp [rxfEnd, hs]
  · simp [rxfEvent, hs]

end Sys2Proof.Machine

open Sys2Proof Sys2Proof.Machine

/-- Settles O31: the receive side through the rules of the FIFO block, a packet's end and the port events; the transmit side
through the staging of a message and the taking of a byte. -/
theorem threadFifos : Obligations.ThreadFifos := by
  unfold Obligations.ThreadFifos
  refine ⟨⟨fun s n th v j p => rxfPush_completes, fun s n th v => rxf_unslotted, fun s n th v j p hFree hs =>
      ⟨fun o => rxfEnd_completes hFree hs, rxfEnd_none_completes hFree hs⟩, fun s n th v j p hFree hs =>
      ⟨fun h => (execRxfEvent_thread hFree v).trans (congrArg _ (rxfEvent_noCode hs h)), rxfEvent_full_completes hFree hs,
        rxfEvent_acts_completes hFree hs⟩, fun s c v hFree hSup => ⟨rxfFree_completes hFree hSup, fun h => ?_⟩,
      fun s c v hFree => ⟨execRxfFree_refused hFree v, ?_, ?_⟩⟩,
    fun s c v hFree hSup ht => ⟨fun h => (execTxfStage_sup hFree v hSup ht).trans (congrArg _ (txfStage_unused h)),
      txfStage_completes hFree hSup ht⟩,
    fun s n th j hFree => ⟨fun b bs => txfPop_taken_completes hFree, fun h => txfPop_none hFree (poppable_none h)⟩,
    fun s n th v hFree => txfNote_completes hFree v, fun s c j v hFree => ⟨execTxfStage_refused hFree v, ?_, ?_⟩⟩
  · exact (execRxfFree_sup hFree hSup v).trans (congrArg _ (if_neg (by omega)))
  · rintro n x rfl
    exact rxf_lane hFree
  · rintro rfl
    exact rxf_cp hFree
  · rintro n x rfl
    exact txf_lane hFree j
  · rintro rfl
    exact txf_cp hFree j
end

section
open Sys2Proof Sys2Proof.Machine

namespace Sys2Proof.Machine

/-- TENANT_CONFIG with an empty payload. -/
def configShort : ACmd := { tag := 0, payload := [], hostBytes := none }

/-- A packet of no byte, open since turn 0. -/
def openedPkt : OpenPkt :=
  { bytes := [], lastEnd := 0, gapEnd := false, bad := false, orphan := false, held := false, raw := [], chunks := [] }

/-- Port 0 stands in slot 32, beyond the 8 slots of a thread (R223), with an open packet and a gap limit of one frame. -/
def openBeyondSlots : State :=
  setReg (pslotK 0 0 32) 0x80010000
    (updFifo 0 (fun f => { f with open_ := [(32, openedPkt)] })
      (updPort 0 (fun x => { x with defined := true, slot := 32 })
        (updTime (fun x => { x with turn := 4800, cur := { x.cur with frame := 1, start := 4800, rounds := 200 } })
          (setF fLock 1 State.reset))))

/-- FIFO_STAT has no CUT bit for a slot from 32 on. -/
theorem getF_fifoCut_beyond (u : State) (n t : Nat) {j : Nat} (h : 32 ≤ j) : getF u (fFifoCut n t j) = 0 := by
  have hlt := (reg u (privK (16 * n + t) 0x70C)).isLt
  have hpow : 2 ^ 32 ≤ 2 ^ j := Nat.pow_le_pow_right (by decide) h
  show (reg u (privK (16 * n + t) 0x70C)).toNat / 2 ^ j % 2 ^ (j + 1 - j) = 0
  rw [Nat.div_eq_of_lt (hlt.trans_le hpow), Nat.zero_mod]

end Sys2Proof.Machine

/-- Refutes O44 as O45 to O47 are refuted: the answer to a command is followed by the answers to the slots behind it that need
no command of their own (R291, R307). With one such slot in the ring, a TENANT_CONFIG that is too short advances OUT_TAIL by 2,
where the clause has it advance by 1 whenever the ring has room for one response. -/
theorem not_tenantAndPortAdministration : ¬ Obligations.TenantAndPortAdministration := by
  unfold Obligations.TenantAndPortAdministration
  rintro ⟨⟨hLength, -⟩, -⟩
  obtain ⟨-, hShort⟩ := hLength (.tenantConfig, 0x40, 4) (by simp) twoSlots configShort
  obtain ⟨-, hReplied⟩ := (hShort (by decide) (by decide)).of_exec rfl
  obtain ⟨-, hTail⟩ := hReplied (by decide)
  exact absurd hTail (by decide)

/-- Refutes O19: the gap clause has FIFO_STAT.CUT of the port's slot set after its gap, for a port with any slot number. The
register has a CUT bit for each of the 8 slots of a thread (R223, R228) and none for slot 32, so that it reads 0 there. The
clause lacks the bound on the slot; no port that administration defines has this one. -/
theorem not_lossAndPortTimers : ¬ Obligations.LossAndPortTimers := by
  unfold Obligations.LossAndPortTimers
  rintro ⟨-, hGap, -⟩
  obtain ⟨u, -, -, hCut, -⟩ := hGap openBeyondSlots 0 openedPkt (by decide) (by decide) (by decide) (by decide)
  exact absurd (hCut.symm.trans (getF_fifoCut_beyond u _ _ (by decide))) (by decide)
end

section
namespace Sys2Proof.Machine

/-! ### The slot of a tenant command (R290) -/

section
variable (op : Nat) (x : TCmd)

theorem slotOp_cmdSlot (h : op < 256) : slotOp (cmdSlot op x) = op := by
  show (BitVec.ofNat 8 op).toNat = op
  rw [BitVec.toNat_ofNat, Nat.mod_eq_of_lt h]

theorem slotKind_cmdSlot : slotKind (cmdSlot op x) = 0 := rfl

theorem slotDev_cmdSlot : slotDev (cmdSlot op x) = x.device.toNat := rfl

theorem slotFlags_cmdSlot : slotFlags (cmdSlot op x) = x.flags.toNat := rfl

theorem slotLen_cmdSlot : slotLen (cmdSlot op x) = min 255 x.payload.length := by
  show (BitVec.ofNat 8 (min 255 x.payload.length)).toNat = _
  rw [BitVec.toNat_ofNat, Nat.mod_eq_of_lt (by omega)]

theorem slotRsv_cmdSlot : slotRsv (cmdSlot op x) = decide (16 ≤ x.flags.toNat) := by
  rw [slotRsv, slotFlags_cmdSlot]
  rfl

theorem slotTag_cmdSlot : slotTag (cmdSlot op x) = x.tag.toNat := by
  have hlt := x.tag.isLt
  show (BitVec.ofNat 8 x.tag.toNat).toNat + 256 * ((BitVec.ofNat 8 (x.tag.toNat / 256)).toNat + 256 * 0) = x.tag.toNat
  rw [BitVec.toNat_ofNat, BitVec.toNat_ofNat]
  omega

theorem slotPayload_cmdSlot (h : x.payload.length ≤ 52) : slotPayload (cmdSlot op x) = x.payload := by
  rw [slotPayload, slotLen_cmdSlot]
  show (padTo 52 x.payload).take _ = x.payload
  rw [min_eq_right (by omega : x.payload.length ≤ 255), min_eq_right h, padTo, List.take_of_length_le h, List.take_left]

end

/-- A constructor of a tenant command with its opcode and its least payload (R303). -/
structure TForm (c : TCmd → Instr) (op need : Nat) : Prop where
  runs : ∀ x s, exec (c x) s = tenantOp op x s
  byte : op < 256
  isOp : isTenantOp op = true
  notAdm : ¬ (0x40 ≤ op ∧ op ≤ 0x66)
  least : needLen op = need
  fits : need ≤ 52

/-- The tenant commands: constructor, opcode, least payload (R303). -/
def tenantForms : List ((TCmd → Instr) × Nat × Nat) :=
  [(.kysanNop, 1, 0), (.identify, 2, 1), (.tenantStatus, 3, 0), (.deviceQuery, 4, 1), (.bind, 5, 32), (.unbind, 6, 0),
   (.dataSend, 7, 0), (.tenantReset, 8, 0), (.clearDegraded, 9, 0), (.loadClear, 0x0A, 0), (.scannerEnable, 0x90, 0),
   (.scannerDisable, 0x91, 0), (.scannerBeep, 0x92, 0), (.units, 0xA0, 1), (.tare, 0xA1, 0), (.zero, 0xA2, 0),
   (.weigh, 0xA3, 0), (.text, 0xB0, 3), (.brightness, 0xB1, 1), (.cursor, 0xB2, 3), (.attention, 0xB3, 0),
   (.drawerKick, 0xC0, 0), (.codepage, 0xD0, 2), (.density, 0xD1, 1), (.printSeg, 0xD2, 1), (.cut, 0xD3, 1),
   (.logo, 0xD4, 1), (.pattern, 0xE0, 3), (.keyLeds, 0xF0, 4), (.keyLock, 0xF1, 1), (.keypadBeep, 0xF2, 0)]

theorem tform_of_mem {q : (TCmd → Instr) × Nat × Nat} (h : q ∈ tenantForms) : TForm q.1 q.2.1 q.2.2 := by
  have hRuns : ∀ q ∈ tenantForms, ∀ x s, exec (q.1 x) s = tenantOp q.2.1 x s := by
    intro q hq
    fin_cases hq <;> exact fun _ _ => rfl
  have hCodes : ∀ r ∈ tenantForms.map Prod.snd,
      r.1 < 256 ∧ isTenantOp r.1 = true ∧ ¬ (0x40 ≤ r.1 ∧ r.1 ≤ 0x66) ∧ needLen r.1 = r.2 ∧ r.2 ≤ 52 := by decide
  obtain ⟨h1, h2, h3, h4, h5⟩ := hCodes q.2 (List.mem_map_of_mem h)
  exact ⟨hRuns q h, h1, h2, h3, h4, h5⟩

theorem tform_kysanNop : TForm .kysanNop 1 0 := tform_of_mem (q := (.kysanNop, 1, 0)) (by simp [tenantForms])
theorem tform_identify : TForm .identify 2 1 := tform_of_mem (q := (.identify, 2, 1)) (by simp [tenantForms])
theorem tform_tenantStatus : TForm .tenantStatus 3 0 := tform_of_mem (q := (.tenantStatus, 3, 0)) (by simp [tenantForms])
theorem tform_deviceQuery : TForm .deviceQuery 4 1 := tform_of_mem (q := (.deviceQuery, 4, 1)) (by simp [tenantForms])
theorem tform_bind : TForm .bind 5 32 := tform_of_mem (q := (.bind, 5, 32)) (by simp [tenantForms])
theorem tform_unbind : TForm .unbind 6 0 := tform_of_mem (q := (.unbind, 6, 0)) (by simp [tenantForms])
theorem tform_dataSend : TForm .dataSend 7 0 := tform_of_mem (q := (.dataSend, 7, 0)) (by simp [tenantForms])
theorem tform_tenantReset : TForm .tenantReset 8 0 := tform_of_mem (q := (.tenantReset, 8, 0)) (by simp [tenantForms])
theorem tform_clearDegraded : TForm .clearDegraded 9 0 := tform_of_mem (q := (.clearDegraded, 9, 0)) (by simp [tenantForms])

theorem cmdOk_max {s : State} {x : TCmd} {need : Nat} (hx : CmdOk s x need) : x.payload.length ≤ 52 := by
  obtain ⟨-, -, -, hMax⟩ := hx
  exact hMax

theorem judgeSlot_ok {c : TCmd → Instr} {s : State} {op need : Nat} {x : TCmd} (ho : TForm c op need) (hx : CmdOk s x need) :
    judgeSlot (cmdSlot op x) = 0 := by
  obtain ⟨-, hFlags, hMin, hMax⟩ := hx
  rw [judgeSlot, slotOp_cmdSlot op x ho.byte, slotKind_cmdSlot, slotRsv_cmdSlot, slotLen_cmdSlot, ho.least,
    if_neg (by simp [ho.isOp]), if_neg ho.notAdm, if_neg (by simp; omega)]

theorem judgeSlot_malformed {c : TCmd → Instr} {op need : Nat} {x : TCmd} (ho : TForm c op need)
    (h : 16 ≤ x.flags.toNat ∨ 52 < x.payload.length ∨ x.payload.length < need) : judgeSlot (cmdSlot op x) = 2 := by
  have hFits := ho.fits
  rw [judgeSlot, slotOp_cmdSlot op x ho.byte, slotKind_cmdSlot, slotRsv_cmdSlot, slotLen_cmdSlot, ho.least,
    if_neg (by simp [ho.isOp]), if_neg ho.notAdm, if_pos (by simp; omega)]

/-! ### A response is staged (R77, R290, R296) -/

theorem length_mkSlot (op kind tag dv flags status state : Nat) (pl : List Byte) :
    (mkSlot op kind tag dv flags status state pl).length = 64 := by
  simp [mkSlot, le, padTo]
  omega

theorem padTo_length {n : Nat} {bs : List Byte} (h : bs.length = n) : padTo n bs = bs := by
  rw [padTo, ← h, Nat.sub_self, List.take_length, List.replicate_zero, List.append_nil]

theorem readBytes_writeBytes (a : Nat) (bs : List Byte) (s : State) : readBytes (writeBytes a bs s) a bs.length = bs := by
  induction bs generalizing a s with
  | nil => rfl
  | cons b bs ih =>
    show readB (writeBytes (a + 1) bs (writeB a b s)) a :: _ = _
    rw [readB_writeBytes_ne _ _ _ _ (.inl (Nat.lt_succ_self a)), readB_writeB_self]
    exact congrArg _ (ih (a + 1) _)

/-- The tenant's outbox holds what it held. -/
def SameOutbox (s s' : State) (t : Nat) : Prop :=
  (ten s' t).outFill = (ten s t).outFill ∧ (ten s' t).staged = (ten s t).staged

theorem SameOutbox.of_ten {s s' : State} {t : Nat} (h : ten s' t = ten s t) : SameOutbox s s' t := by simp [SameOutbox, h]

theorem SameOutbox.of_tenants {s s' : State} (t : Nat) (h : s'.tenants = s.tenants) : SameOutbox s s' t :=
  .of_ten (ten_of h t)

theorem ten_writeBytes (a : Nat) (bs : List Byte) (s : State) (t : Nat) : ten (writeBytes a bs s) t = ten s t :=
  ten_of (tenants_of (by simp)) t

theorem staged_stageSlot {s s' : State} {t : Nat} (h : SameOutbox s s' t) {sl : Slot} (hl : sl.length = 64) :
    Staged s (stageSlot t sl s') t sl := by
  obtain ⟨hFill, hStaged⟩ := h
  have hRoom : Room s t ↔ (ten s' t).outFill < 32 ∧ (ten s' t).staged.isEmpty = true := by
    simp [Room, hFill, hStaged]
  rw [stageSlot]
  refine ⟨fun hr => ?_, fun hr => ?_⟩
  · rw [if_pos (hRoom.mp hr), padTo_length hl]
    refine ⟨?_, ?_, ?_⟩
    · rw [ten_writeBytes, ten_updTen_self, hFill]
    · rw [ten_writeBytes, ten_updTen_self, hStaged, hr.2]
    · rw [hFill, ← hl]
      exact readBytes_writeBytes ..
  · rw [if_neg (fun hc => hr (hRoom.mpr hc))]
    simp [hFill, hStaged]

/-- A response that carries the partner view's state marks the last reading as acted on (R189). -/
def acted (t dv state : Nat) (s : State) : State := if dv < 16 ∧ isReady state then markActed t dv s else s

@[simp] theorem tenants_acted (t dv state : Nat) (s : State) : (acted t dv state s).tenants = s.tenants := by
  unfold acted; split <;> rfl

/-- A payload of one slot makes a response of one slot. -/
theorem respond_single (t op tag dv status state : Nat) {pl : List Byte} (h : pl.length ≤ 52) (s : State) :
    respond t op tag dv status state pl s = stageSlot t (mkSlot op 1 tag dv 0 status state pl) (acted t dv state s) := by
  rw [respond, List.take_of_length_le h, List.drop_eq_nil_of_le h]
  rfl

theorem staged_respond {s s' : State} {t : Nat} (h : SameOutbox s s' t) (op tag dv status state : Nat) {pl : List Byte}
    (hl : pl.length ≤ 52) :
    Staged s (respond t op tag dv status state pl s') t (mkSlot op 1 tag dv 0 status state pl) := by
  rw [respond_single _ _ _ _ _ _ hl]
  refine staged_stageSlot ?_ (length_mkSlot ..)
  rwa [SameOutbox, ten_of (tenants_acted ..)]

theorem devices_respond (t op tag dv status state : Nat) (pl : List Byte) (s : State) :
    (respond t op tag dv status state pl s).devices = s.devices := devices_of (by simp)
theorem ports_respond (t op tag dv status state : Nat) (pl : List Byte) (s : State) :
    (respond t op tag dv status state pl s).ports = s.ports := ports_of (by simp)
theorem regs_respond (t op tag dv status state : Nat) (pl : List Byte) (s : State) :
    (respond t op tag dv status state pl s).regs = s.regs := regs_of (by simp)

/-! ### Tenant commands (R66, R291, R303) -/

section
variable {c : TCmd → Instr} {op need : Nat} (ho : TForm c op need) {s : State} {x : TCmd}
include ho

theorem exec_inactive (h : tActive s x.tenant.val = false) : exec (c x) s = .next s := by
  rw [ho.runs, tenantOp, whileActive, h, if_neg Bool.false_ne_true, done]

theorem exec_active (h : tActive s x.tenant.val = true) :
    exec (c x) s = .next (processSlot x.tenant.val (cmdSlot op x) s) := by
  rw [ho.runs, tenantOp, whileActive, if_pos h, done]

/-- A malformed slot, and one that names no device, is answered BAD_ARGUMENT (R291). -/
theorem exec_malformed (h : tActive s x.tenant.val = true)
    (hBad : 16 ≤ x.flags.toNat ∨ 52 < x.payload.length ∨ x.payload.length < need ∨ (isDevOp op = true ∧ 16 ≤ x.device.toNat)) :
    exec (c x) s = .next (respond x.tenant.val op x.tag.toNat x.device.toNat 2
      (failState s x.tenant.val x.device.toNat) [] s) := by
  rw [exec_active ho h, processSlot, slotDev_cmdSlot, slotTag_cmdSlot, slotOp_cmdSlot op x ho.byte]
  by_cases hSlot : 16 ≤ x.flags.toNat ∨ 52 < x.payload.length ∨ x.payload.length < need
  · rw [judgeSlot_malformed ho hSlot, if_pos (by decide)]
  · have hOk : CmdOk s x need := ⟨h, by omega, by omega, by omega⟩
    obtain ⟨hDev, hFar⟩ : isDevOp op = true ∧ 16 ≤ x.device.toNat := by
      rcases hBad with hb | hb | hb | hb
      · exact absurd (.inl hb) hSlot
      · exact absurd (.inr (.inl hb)) hSlot
      · exact absurd (.inr (.inr hb)) hSlot
      · exact hb
    rw [judgeSlot_ok ho hOk, if_neg (by decide), if_pos hDev, if_neg (by omega)]

theorem malformed_completes (h : tActive s x.tenant.val = true)
    (hBad : 16 ≤ x.flags.toNat ∨ 52 < x.payload.length ∨ x.payload.length < need ∨ (isDevOp op = true ∧ 16 ≤ x.device.toNat)) :
    Completes (c x) s (fun u =>
      Staged s u x.tenant.val (answer x op 2 (failState s x.tenant.val x.device.toNat) []) ∧
      u.devices = s.devices ∧ u.ports = s.ports ∧ u.regs = s.regs) :=
  ⟨_, exec_malformed ho h hBad, staged_respond (.of_ten rfl) _ _ _ _ _ (by decide), devices_respond .., ports_respond ..,
    regs_respond ..⟩

/-- A well formed command that acts on no device (R303). -/
theorem exec_tenantCommand (hx : CmdOk s x need) (hd : isDevOp op = false) :
    exec (c x) s = .next (tenantCommand x.tenant.val (cmdSlot op x) s) := by
  rw [exec_active ho hx.1, processSlot, judgeSlot_ok ho hx, if_neg (by decide), slotOp_cmdSlot op x ho.byte, hd,
    if_neg Bool.false_ne_true]

end

/-! ### The commands that act on no device (R303) -/

/-- STATE of a response that is OK (R290). -/
def okState (s : State) (x : TCmd) : Nat := if x.device.toNat < 16 then stateCode (cmdDev s x) else 0

section
variable (x : TCmd) (s : State)

theorem tenantCommand_nop : tenantCommand x.tenant.val (cmdSlot 1 x) s =
    respond x.tenant.val 1 x.tag.toNat x.device.toNat 0 (okState s x) [] s := by
  rw [tenantCommand, slotOp_cmdSlot 1 x (by decide), slotTag_cmdSlot]; rfl

theorem tenantCommand_identify (h : x.payload.length ≤ 52) : tenantCommand x.tenant.val (cmdSlot 2 x) s =
    (identify s x.tenant.val (imgB x.payload 0)).elim
      (respond x.tenant.val 2 x.tag.toNat x.device.toNat 2 (failState s x.tenant.val x.device.toNat) [] s)
      (fun pl => respond x.tenant.val 2 x.tag.toNat x.device.toNat 0 (okState s x) pl s) := by
  rw [tenantCommand, slotOp_cmdSlot 2 x (by decide), slotTag_cmdSlot, slotPayload_cmdSlot 2 x h]
  cases identify s x.tenant.val (imgB x.payload 0) <;> rfl

theorem tenantCommand_status : tenantCommand x.tenant.val (cmdSlot 3 x) s =
    respond x.tenant.val 3 x.tag.toNat x.device.toNat 0 (okState s x) (statusPayload s x.tenant.val) s := by
  rw [tenantCommand, slotOp_cmdSlot 3 x (by decide), slotTag_cmdSlot]; rfl

theorem tenantCommand_reset : tenantCommand x.tenant.val (cmdSlot 8 x) s = resetStart x.tenant.val s := by
  rw [tenantCommand, slotOp_cmdSlot 8 x (by decide)]; rfl

theorem tenantCommand_clear : tenantCommand x.tenant.val (cmdSlot 9 x) s =
    respond x.tenant.val 9 x.tag.toNat x.device.toNat 0 (okState s x) [] (setF (fDegraded x.tenant.val) 0 s) := by
  rw [tenantCommand, slotOp_cmdSlot 9 x (by decide), slotTag_cmdSlot, slotDev_cmdSlot]
  dsimp only
  rw [dev_setF]; rfl

end

/-- A part of IDENTIFY fits one slot. -/
theorem identify_length {s : State} {t part : Nat} {pl : List Byte} (h : identify s t part = some pl) : pl.length ≤ 52 := by
  unfold identify idPayload at h
  split at h
  · cases h; simp [le]
  · cases h; simp
  · cases h; simp
  · cases h

theorem identify_none {s : State} {t part : Nat} (h : 2 < part) : identify s t part = none := by
  unfold identify idPayload
  split
  all_goals first | omega | rfl

theorem statusPayload_length (s : State) (t : Nat) : (statusPayload s t).length ≤ 52 := by simp [statusPayload, le]

section
variable {s : State} {x : TCmd}

theorem kysanNop_completes (hx : CmdOk s x 0) :
    Completes (.kysanNop x) s (fun u => Staged s u x.tenant.val (answer x 1 0 (okState s x) [])) := by
  refine ⟨_, (exec_tenantCommand tform_kysanNop hx (by decide)).trans (congrArg _ (tenantCommand_nop x s)), ?_⟩
  exact staged_respond (.of_ten rfl) _ _ _ _ _ (by decide)

theorem identify_completes {pl : List Byte} (hx : CmdOk s x 1) (h : identify s x.tenant.val (imgB x.payload 0) = some pl) :
    Completes (.identify x) s (fun u => Staged s u x.tenant.val (answer x 2 0 (okState s x) pl)) := by
  refine ⟨_, (exec_tenantCommand tform_identify hx (by decide)).trans
    (congrArg _ (tenantCommand_identify x s (cmdOk_max hx))), ?_⟩
  rw [h]
  exact staged_respond (.of_ten rfl) _ _ _ _ _ (identify_length h)

theorem identify_noPart_completes (hx : CmdOk s x 1) (h : 2 < imgB x.payload 0) :
    Completes (.identify x) s (fun u =>
      Staged s u x.tenant.val (answer x 2 2 (failState s x.tenant.val x.device.toNat) [])) := by
  refine ⟨_, (exec_tenantCommand tform_identify hx (by decide)).trans
    (congrArg _ (tenantCommand_identify x s (cmdOk_max hx))), ?_⟩
  rw [identify_none h]
  exact staged_respond (.of_ten rfl) _ _ _ _ _ (by decide)

theorem tenantStatus_completes (hx : CmdOk s x 0) : Completes (.tenantStatus x) s (fun u =>
    Staged s u x.tenant.val (answer x 3 0 (okState s x) (statusPayload s x.tenant.val))) := by
  refine ⟨_, (exec_tenantCommand tform_tenantStatus hx (by decide)).trans (congrArg _ (tenantCommand_status x s)), ?_⟩
  exact staged_respond (.of_ten rfl) _ _ _ _ _ (statusPayload_length s _)

theorem clearDegraded_completes (hx : CmdOk s x 0) : Completes (.clearDegraded x) s (fun u =>
    getF u (fDegraded x.tenant.val) = 0 ∧ getF u (fTotal x.tenant.val) = getF s (fTotal x.tenant.val) ∧
    Staged s u x.tenant.val (answer x 9 0 (okState s x) [])) := by
  refine ⟨_, (exec_tenantCommand tform_clearDegraded hx (by decide)).trans (congrArg _ (tenantCommand_clear x s)), ?_, ?_,
    staged_respond (.of_tenants _ (setF_tenants ..)) _ _ _ _ _ (by decide)⟩
  all_goals rw [(RegsOnly.of_regs (K := fun _ => false) (regs_respond ..)).getF _ rfl]
  · rw [getF_setF_self _ _ _ rfl, Nat.zero_mod]
  · exact getF_setF_apart _ _ (by simp [Fld.apart, Fld.ok, fDegraded, fTotal, bit, fld])

end

/-! ### The commands that act on a device (R76, R111, R303) -/

theorem runWork_nil (n t d : Nat) (s : State) : runWork n t d [] s = s := by cases n <;> rfl

theorem runWork_step {n t d : Nat} {w : Work} {ws : List Work} {s : State} (h : transNow (frameNo s) (dev s t d) < 64) :
    runWork (n + 1) t d (w :: ws) s = runWork n t d ((workStep t d w s).2 ++ ws) (workStep t d w s).1 := by
  rw [runWork, if_neg (Nat.not_le.mpr h)]

section
variable {c : TCmd → Instr} {op need : Nat} (ho : TForm c op need) (hd : isDevOp op = true) {s : State} {x : TCmd}
include ho hd

/-- A well formed command at a device that is free: the device judges it, and what it leaves follows (R303). -/
theorem exec_devCommand (hx : CmdOk s x need) (hf : DevFree s x) :
    exec (c x) s = .next (runWork 4095 x.tenant.val x.device.toNat
      (devCommand x.tenant.val x.device.toNat (cmdSlot op x) s).2
      (devCommand x.tenant.val x.device.toNat (cmdSlot op x) s).1) := by
  obtain ⟨hDev, hCarried, hTrans⟩ := hf
  rw [exec_active ho hx.1, processSlot, judgeSlot_ok ho hx, if_neg (by decide), slotOp_cmdSlot op x ho.byte, if_pos hd,
    slotDev_cmdSlot, if_pos hDev, giveWork, hCarried, List.isEmpty_nil, if_pos rfl]
  show Host.Outcome.next (runWork (4095 + 1) _ _ _ _) = _
  rw [runWork_step hTrans, List.append_nil]
  rfl

theorem exec_devCommand_alone (hx : CmdOk s x need) (hf : DevFree s x) {u : State}
    (hu : devCommand x.tenant.val x.device.toNat (cmdSlot op x) s = (u, [])) : exec (c x) s = .next u := by
  rw [exec_devCommand ho hd hx hf, hu, runWork_nil]

end

/-- What DEVICE_QUERY returns of a device: its STATUS and its payload (R303). -/
def queryAnswer (s : State) (x : TCmd) : Nat × List Byte :=
  if imgB x.payload 0 = 0 then (0, devRecord s (cmdDev s x))
  else if imgB x.payload 0 = 1 then (0, (cmdDev s x).reading.elim [] (fun r => r.2))
  else (2, [])

theorem devCommand_query {s : State} {x : TCmd} (h : x.payload.length ≤ 52) :
    devCommand x.tenant.val x.device.toNat (cmdSlot 4 x) s = (respond x.tenant.val 4 x.tag.toNat x.device.toNat
      (queryAnswer s x).1 (stateCode (cmdDev s x)) (queryAnswer s x).2 s, []) := by
  rw [devCommand, slotOp_cmdSlot 4 x (by decide), slotTag_cmdSlot, slotPayload_cmdSlot 4 x h, if_neg (by decide)]
  dsimp only [queryAnswer]
  by_cases h0 : imgB x.payload 0 = 0
  · simp only [h0, if_true]; rfl
  · by_cases h1 : imgB x.payload 0 = 1
    · simp only [h1, if_true]; rfl
    · simp only [h0, h1, if_false]; rfl

theorem devRecord_length (s : State) (x : DeviceSt) : (devRecord s x).length ≤ 52 := by simp [devRecord, le]

theorem deviceQuery_completes {s : State} {x : TCmd} (hx : CmdOk s x 1) (hf : DevFree s x) :
    Completes (.deviceQuery x) s (fun u =>
      Staged s u x.tenant.val
        (if imgB x.payload 0 = 0 then answer x 4 0 (stateCode (cmdDev s x)) (devRecord s (cmdDev s x))
         else if imgB x.payload 0 = 1 then
          answer x 4 0 (stateCode (cmdDev s x)) (((cmdDev s x).reading.elim [] (fun r => r.2)).take 52)
         else answer x 4 2 (stateCode (cmdDev s x)) []) ∨ 52 < ((cmdDev s x).reading.elim [] (fun r => r.2)).length) := by
  refine ⟨_, exec_devCommand_alone tform_deviceQuery (by decide) hx hf (devCommand_query (cmdOk_max hx)), ?_⟩
  by_cases hLong : 52 < ((cmdDev s x).reading.elim [] (fun r => r.2)).length
  · exact .inr hLong
  refine .inl ?_
  have hRead := Nat.le_of_not_lt hLong
  dsimp only [queryAnswer]
  split
  · exact staged_respond (.of_ten rfl) _ _ _ _ _ (devRecord_length ..)
  · split
    · rw [List.take_of_length_le hRead]
      exact staged_respond (.of_ten rfl) _ _ _ _ _ hRead
    · exact staged_respond (.of_ten rfl) _ _ _ _ _ (Nat.zero_le _)

end Sys2Proof.Machine

open Sys2Proof Sys2Proof.Machine

/-- Settles O12: one lemma for each command that acts on no device and for DEVICE_QUERY, and one for a malformed slot of any
command. -/
theorem tenantCommands : Obligations.TenantCommands := by
  unfold Obligations.TenantCommands
  refine ⟨⟨fun s x => kysanNop_completes, fun s x pl => identify_completes, fun s x => identify_noPart_completes,
    fun s x => tenantStatus_completes, fun s x => deviceQuery_completes, fun s x => clearDegraded_completes⟩,
    fun q hq s x => ⟨malformed_completes (tform_of_mem hq), exec_inactive (tform_of_mem hq)⟩⟩
end

section
namespace Sys2Proof.Machine

/-! ### Class operations (R80, R81, R112, R304) -/

/-- The class operations: constructor, message code, kind (0 level, 1 one-shot, 2 exclusive; R304). -/
def classForms : List ((TCmd → Instr) × Nat × Nat) :=
  [(.scannerEnable, 0x10, 0), (.scannerDisable, 0x11, 0), (.units, 0x20, 0), (.text, 0x30, 0), (.brightness, 0x31, 0),
   (.cursor, 0x32, 0), (.codepage, 0x50, 0), (.density, 0x51, 0), (.pattern, 0x60, 0), (.keyLeds, 0x70, 0),
   (.keyLock, 0x71, 0), (.scannerBeep, 0x12, 1), (.weigh, 0x23, 1), (.attention, 0x33, 1), (.printSeg, 0x52, 1),
   (.logo, 0x54, 1), (.keypadBeep, 0x72, 1), (.tare, 0x21, 2), (.zero, 0x22, 2), (.drawerKick, 0x40, 2), (.cut, 0x53, 2)]

/-- A constructor of a class operation with its message code and its kind. -/
structure CForm (c : TCmd → Instr) (code kind : Nat) : Prop where
  form : TForm c (0x80 + code) (msgLen code)
  info : msgInfo code = some { cls := ((msgInfo code).elim none MsgInfo.cls), isOp := true, kind := kind }
  freely : bannedIn code 2 = false

theorem cform_of_mem {p : (TCmd → Instr) × Nat × Nat} (h : p ∈ classForms) : CForm p.1 p.2.1 p.2.2 := by
  have hForm : ∀ p ∈ classForms, (p.1, 0x80 + p.2.1, msgLen p.2.1) ∈ tenantForms := by
    intro p hp
    fin_cases hp <;> simp [tenantForms, msgLen]
  have hCodes : ∀ r ∈ classForms.map Prod.snd, bannedIn r.1 2 = false ∧
      msgInfo r.1 = some { cls := ((msgInfo r.1).elim none MsgInfo.cls), isOp := true, kind := r.2 } := by decide
  obtain ⟨h1, h2⟩ := hCodes p.2 (List.mem_map_of_mem h)
  exact ⟨tform_of_mem (hForm p h), h2, h1⟩

section
variable {c : TCmd → Instr} {code kind : Nat} (hc : CForm c code kind) {s : State} {x : TCmd}
include hc

theorem devCommand_class (h : x.payload.length ≤ 52) :
    devCommand x.tenant.val x.device.toNat (cmdSlot (0x80 + code) x) s =
      (respond x.tenant.val (0x80 + code) x.tag.toNat x.device.toNat
        (classOp x.tenant.val x.device.toNat code x.tag.toNat x.payload s).1 (stateCode (cmdDev s x)) []
        (classOp x.tenant.val x.device.toNat code x.tag.toNat x.payload s).2.1,
       (classOp x.tenant.val x.device.toNat code x.tag.toNat x.payload s).2.2) := by
  rw [devCommand, slotOp_cmdSlot _ x hc.form.byte, slotTag_cmdSlot, slotPayload_cmdSlot _ x h, if_pos (Nat.le_add_right ..),
    Nat.add_sub_cancel_left]
  rfl

/-- A class operation that leaves no further work to the device. -/
theorem exec_classOp (hx : CmdOk s x (msgLen code)) (hf : DevFree s x) {status : Nat} {u : State}
    (hu : classOp x.tenant.val x.device.toNat code x.tag.toNat x.payload s = (status, u, [])) :
    exec (c x) s = .next (respond x.tenant.val (0x80 + code) x.tag.toNat x.device.toNat status (stateCode (cmdDev s x)) [] u) := by
  refine exec_devCommand_alone hc.form (by simp [isDevOp]) hx hf ?_
  rw [devCommand_class hc (cmdOk_max hx), hu]

/-- A class operation that is answered with a conflict or as an error leaves the device. -/
theorem classOp_refused_completes (hx : CmdOk s x (msgLen code)) (hf : DevFree s x) {status : Nat} {u : State}
    (hu : classOp x.tenant.val x.device.toNat code x.tag.toNat x.payload s = (status, u, []))
    (hTen : u.tenants = s.tenants) (hDev : u.devices = s.devices) :
    Completes (c x) s (fun v =>
      Staged s v x.tenant.val (answer x (0x80 + code) status (stateCode (cmdDev s x)) []) ∧ v.devices = s.devices) :=
  ⟨_, exec_classOp hc hx hf hu, staged_respond (.of_tenants _ hTen) _ _ _ _ _ (Nat.zero_le _),
    (devices_respond ..).trans hDev⟩

end

theorem tenants_jConflict (t d tag op st : Nat) (s : State) : (jConflict t d tag op st s).tenants = s.tenants :=
  tenants_of (by simp)
theorem devices_jConflict (t d tag op st : Nat) (s : State) : (jConflict t d tag op st s).devices = s.devices :=
  devices_of (by simp)

theorem dev_of {s u : State} (h : u.devices = s.devices) (t d : Nat) : dev u t d = dev s t d := by rw [dev, h, dev]

/-! ### Which class operations are legal (R81) -/

theorem legalOp_unbound {s : State} {x : DeviceSt} (code : Nat) (h : stateCode x = 0) : legalOp s x code = 3 := by
  rw [legalOp, if_pos h]

section
variable {c : TCmd → Instr} {code kind : Nat} (hc : CForm c code kind) {s : State} {x : TCmd} {m : MsgInfo}
  (hx : ClassOk s x code m)
include hc hx

omit hc in
theorem classOk_present : (cmdDev s x).present = 1 := by
  obtain ⟨-, -, hPresent, -⟩ := hx
  exact hPresent

theorem kindOf_class : kindOf s (cmdDev s x) code = some kind := by
  obtain ⟨-, -, hPresent, hInfo, hCls, -⟩ := hx
  have hm : m = _ := Option.some.inj (hInfo.symm.trans hc.info)
  have hKind : m.kind = kind := by rw [hm]
  have hOp : m.isOp = true := by rw [hm]
  have hSide : tenantSide s (cmdDev s x) = none := by simp [tenantSide, hPresent]
  simp [kindOf, hInfo, hOp, hSide, hCls, hKind]

theorem legalOp_busy (h : stateCode (cmdDev s x) = 3) : legalOp s (cmdDev s x) code = 3 := by
  rw [legalOp, kindOf_class hc hx, h, (classOk_present hx)]
  rfl

theorem legalOp_away (h0 : stateCode (cmdDev s x) ≠ 0) (h3 : stateCode (cmdDev s x) ≠ 3)
    (hr : isReady (stateCode (cmdDev s x)) = false) : legalOp s (cmdDev s x) code = if kind = 0 then 0 else 3 := by
  rw [legalOp, kindOf_class hc hx, if_neg h0, (classOk_present hx), if_neg (by decide), hr]
  simp [h3]

theorem legalOp_ready (h : stateCode (cmdDev s x) = 2) : legalOp s (cmdDev s x) code = 0 := by
  rw [legalOp, kindOf_class hc hx, h, (classOk_present hx), hc.freely]
  simp [isReady]

/-! ### What a class operation comes to -/

omit hc in
theorem classOp_illegal (h : legalOp s (cmdDev s x) code = 3) :
    classOp x.tenant.val x.device.toNat code x.tag.toNat x.payload s =
      (3, jConflict x.tenant.val x.device.toNat x.tag.toNat (0x80 + code) (stateCode (cmdDev s x)) s, []) := by
  obtain ⟨-, -, hPresent, -, -, hArg⟩ := hx
  rw [cmdDev] at h hPresent
  simp [classOp, hPresent, hArg, h, cmdDev]

theorem classOp_legal (h : legalOp s (cmdDev s x) code = 0) :
    classOp x.tenant.val x.device.toNat code x.tag.toNat x.payload s =
      (runOp x.tenant.val x.device.toNat code kind x.tag.toNat x.payload s).elim
        (3, jConflict x.tenant.val x.device.toNat x.tag.toNat (0x80 + code) (stateCode (cmdDev s x)) s, [])
        (fun a => (0, updDev x.tenant.val x.device.toNat (fun y => { y with shown := stateCode y })
          (afterOp x.tenant.val x.device.toNat code kind x.tag.toNat 500000 x.payload a), a.out)) := by
  have hKind := kindOf_class hc hx
  obtain ⟨-, -, hPresent, -, -, hArg⟩ := hx
  rw [cmdDev] at h hPresent hKind
  simp only [classOp, hPresent, hArg, h, hKind, cmdDev, Option.elim_some]
  cases runOp x.tenant.val x.device.toNat code kind x.tag.toNat x.payload s <;> rfl

end

theorem classOp_unbound {code : Nat} {s : State} {x : TCmd} (hArg : msgArgOk code x.payload = true)
    (h : stateCode (cmdDev s x) = 0) : classOp x.tenant.val x.device.toNat code x.tag.toNat x.payload s =
      (3, jConflict x.tenant.val x.device.toNat x.tag.toNat (0x80 + code) (stateCode (cmdDev s x)) s, []) := by
  have hLegal := legalOp_unbound (s := s) code h
  rw [cmdDev] at h hLegal
  simp [classOp, hArg, h, hLegal, cmdDev]

theorem classOp_otherPresentation {s : State} {x : TCmd} (code : Nat) (hPresent : (cmdDev s x).present ≠ 1)
    (h : stateCode (cmdDev s x) ≠ 0) : classOp x.tenant.val x.device.toNat code x.tag.toNat x.payload s = (2, s, []) := by
  rw [classOp]
  exact if_pos ⟨hPresent, h⟩

theorem tenants_classTaken (t d code kind tag us : Nat) (p : List Byte) (f : DeviceSt → DeviceSt) (a : FAcc) :
    (updDev t d f (afterOp t d code kind tag us p a)).tenants = a.s.tenants := by
  rw [updDev_tenants]
  exact tenants_of (by simp)

/-- Tab.put lists the level that is kept. -/
theorem find_setLevel (code : Nat) (p : List Byte) (y : DeviceSt) :
    Tab.find (setLevel code p y).desired (levelKey code p) = some p := Tab.find_put_self ..

section
variable {c : TCmd → Instr} {code kind : Nat} (hc : CForm c code kind) {s : State} {x : TCmd} {m : MsgInfo}
  (hx : ClassOk s x code m)
include hc hx

/-- A class operation that is carried out, and passes no input on. -/
theorem exec_classOp_taken (hl : legalOp s (cmdDev s x) code = 0) {a : FAcc} (hOut : a.out = [])
    (ha : runOp x.tenant.val x.device.toNat code kind x.tag.toNat x.payload s = some a) :
    exec (c x) s = .next (respond x.tenant.val (0x80 + code) x.tag.toNat x.device.toNat 0 (stateCode (cmdDev s x)) []
      (updDev x.tenant.val x.device.toNat (fun y => { y with shown := stateCode y })
        (afterOp x.tenant.val x.device.toNat code kind x.tag.toNat 500000 x.payload a))) := by
  refine exec_classOp hc hx.1 hx.2.1 ?_
  rw [classOp_legal hc hx hl, ha, Option.elim_some, hOut]

/-- A level that is set while the port is away is kept alone (R80, R81). -/
theorem classOp_away_completes (h0 : stateCode (cmdDev s x) ≠ 0) (h3 : stateCode (cmdDev s x) ≠ 3)
    (hr : isReady (stateCode (cmdDev s x)) = false) :
    (kind = 0 → Completes (c x) s (fun u =>
      Tab.find (cmdDev u x).desired (levelKey code x.payload) = some x.payload ∧
      Staged s u x.tenant.val (answer x (0x80 + code) 0 (stateCode (cmdDev s x)) []))) ∧
    (kind ≠ 0 → Completes (c x) s (fun u =>
      Staged s u x.tenant.val (answer x (0x80 + code) 3 (stateCode (cmdDev s x)) []) ∧ u.devices = s.devices)) := by
  have hLegal := legalOp_away hc hx h0 h3 hr
  refine ⟨fun hk => ?_, fun hk => ?_⟩
  · subst hk
    have hRun : runOp x.tenant.val x.device.toNat code 0 x.tag.toNat x.payload s = some (FAcc.start s) := by
      rw [cmdDev] at hr
      simp [runOp, hr]
    refine ⟨_, exec_classOp_taken hc hx hLegal rfl hRun, ?_,
      staged_respond (s := s) (.of_tenants _ (tenants_classTaken _ _ _ _ _ _ _ _ (FAcc.start s))) _ _ _ _ _ (Nat.zero_le _)⟩
    rw [cmdDev, dev_of (devices_respond ..), dev_updDev_self, afterOp, if_pos rfl, dev_updDev_self]
    exact find_setLevel ..
  · rw [if_neg hk] at hLegal
    exact classOp_refused_completes hc hx.1 hx.2.1 (classOp_illegal hx hLegal) (tenants_jConflict ..) (devices_jConflict ..)

omit hc hx in
/-- At a device without a load channel the partner-side machine carries the operation out (R112). -/
theorem runOp_machine (h : stateCode (cmdDev s x) = 2) (hChan : (cmdDev s x).chan = none) :
    runOp x.tenant.val x.device.toNat code kind x.tag.toNat x.payload s =
      (opFire s x code kind).bind (fun r => if r.1 then some r.2 else none) := by
  rw [cmdDev] at h hChan
  have hLc : ∀ g, lcOp x.tenant.val x.device.toNat code x.payload g s = none := fun g => by simp [lcOp, hChan]
  rw [runOp, if_neg (by simp [h, isReady]), hLc]
  show (match opFire s x code kind with
    | some (true, a) => some a
    | some (false, _) | none => none) = _
  rcases opFire s x code kind with _ | ⟨b, a⟩
  · rfl
  · cases b <;> rfl

theorem classOp_taken_completes (h : stateCode (cmdDev s x) = 2) (hChan : (cmdDev s x).chan = none) {a : FAcc}
    (ha : opFire s x code kind = some (true, a)) (hOut : a.out = []) (hLost : a.lost = false) :
    Completes (c x) s (fun u =>
      Staged a.s u x.tenant.val (answer x (0x80 + code) 0 2 []) ∧
      (kind = 0 → Tab.find (cmdDev u x).desired (levelKey code x.payload) = some x.payload) ∧
      (kind = 2 → (cmdDev u x).seq =
        some { tag := x.tag.toNat, code := code, timeoutUs := 500000, sent := a.sent, ends := none }) ∧
      (kind ≠ 2 → (cmdDev u x).seq = (cmdDev a.s x).seq)) := by
  have hRun : runOp x.tenant.val x.device.toNat code kind x.tag.toNat x.payload s = some a := by
    rw [runOp_machine h hChan, ha]; rfl
  have hExec := exec_classOp_taken hc hx (legalOp_ready hc hx h) hOut hRun
  rw [h] at hExec
  refine ⟨_, hExec, staged_respond (.of_tenants _ (tenants_classTaken ..)) _ _ _ _ _ (Nat.zero_le _), fun hk => ?_,
    fun hk => ?_, fun hk => ?_⟩
  all_goals rw [cmdDev, dev_of (devices_respond ..), dev_updDev_self, afterOp]
  · rw [if_pos hk, dev_updDev_self]
    exact find_setLevel ..
  · rw [if_neg (by omega), if_pos ⟨hk, by rw [hLost]; rfl⟩, seqStart, dev_updDev_self]
  · by_cases h0 : kind = 0
    · rw [if_pos h0, dev_updDev_self]; rfl
    · rw [if_neg h0, if_neg (fun hc => hk hc.1)]; rfl

theorem classOp_untaken_completes (h : stateCode (cmdDev s x) = 2) (hChan : (cmdDev s x).chan = none)
    (hNone : ∀ a : FAcc, opFire s x code kind ≠ some (true, a)) :
    Completes (c x) s (fun u =>
      Staged s u x.tenant.val (answer x (0x80 + code) 3 2 []) ∧ (cmdDev u x).desired = (cmdDev s x).desired ∧
      (cmdDev u x).seq = (cmdDev s x).seq) := by
  have hRun : runOp x.tenant.val x.device.toNat code kind x.tag.toNat x.payload s = none := by
    rw [runOp_machine h hChan]
    rcases hFire : opFire s x code kind with _ | ⟨b, a⟩
    · rfl
    · cases b
      · rfl
      · exact absurd hFire (hNone a)
  have hu := classOp_legal hc hx (legalOp_ready hc hx h)
  rw [hRun] at hu
  obtain ⟨u, hExec, hStaged, hDev⟩ := classOp_refused_completes hc hx.1 hx.2.1 hu (tenants_jConflict ..) (devices_jConflict ..)
  rw [h] at hStaged
  exact ⟨u, hExec, hStaged, by rw [cmdDev, dev_of hDev]; rfl, by rw [cmdDev, dev_of hDev]; rfl⟩

theorem classOp_busy_completes (h : stateCode (cmdDev s x) = 3) :
    Completes (c x) s (fun u => Staged s u x.tenant.val (answer x (0x80 + code) 3 3 []) ∧ u.devices = s.devices) := by
  have hDone := classOp_refused_completes hc hx.1 hx.2.1 (classOp_illegal hx (legalOp_busy hc hx h)) (tenants_jConflict ..)
    (devices_jConflict ..)
  rwa [h] at hDone

end

section
variable {c : TCmd → Instr} {code kind : Nat} (hc : CForm c code kind) {s : State} {x : TCmd}
  (hx : CmdOk s x (msgLen code)) (hf : DevFree s x)
include hc hx hf

theorem classOp_unbound_completes (hArg : msgArgOk code x.payload = true) (h : stateCode (cmdDev s x) = 0) :
    Completes (c x) s (fun u => Staged s u x.tenant.val (answer x (0x80 + code) 3 0 []) ∧ u.devices = s.devices) := by
  have hDone := classOp_refused_completes hc hx hf (classOp_unbound hArg h) (tenants_jConflict ..) (devices_jConflict ..)
  rwa [h] at hDone

theorem classOp_otherPresentation_completes (hPresent : (cmdDev s x).present ≠ 1) (h : stateCode (cmdDev s x) ≠ 0) :
    Completes (c x) s (fun u =>
      Staged s u x.tenant.val (answer x (0x80 + code) 2 (stateCode (cmdDev s x)) []) ∧ u.devices = s.devices) :=
  classOp_refused_completes hc hx hf (classOp_otherPresentation code hPresent h) rfl rfl

end

end Sys2Proof.Machine

open Sys2Proof Sys2Proof.Machine

/-- Settles O15: legality gives each of the five cases; in the one that the machine decides, the operation is carried out as it
fires. -/
theorem classOperations : Obligations.ClassOperations := by
  unfold Obligations.ClassOperations
  refine ⟨fun p hp s x m hx => classOp_away_completes (cform_of_mem hp) hx, fun p hp s x m hx h hChan =>
    ⟨fun a => classOp_taken_completes (cform_of_mem hp) hx h hChan, classOp_untaken_completes (cform_of_mem hp) hx h hChan⟩,
    fun p hp s x m => ⟨classOp_busy_completes (cform_of_mem hp), classOp_unbound_completes (cform_of_mem hp),
      classOp_otherPresentation_completes (cform_of_mem hp)⟩⟩
end

section
namespace Sys2Proof.Machine

/-! ### Fields of a payload -/

theorem nth_eq_getD {α : Type} (d : α) (xs : List α) (i : Nat) : nth d xs i = xs[i]?.getD d := by
  induction xs generalizing i with
  | nil => rfl
  | cons x xs ih =>
    cases i with
    | zero => rfl
    | succ i => exact ih i

theorem imgB_padTo {n i : Nat} {bs : List Byte} (hi : i < n) (hl : n ≤ bs.length) : imgB (padTo n bs) i = imgB bs i := by
  have hTake : (padTo n bs)[i]? = bs[i]? := by
    rw [padTo, List.getElem?_append_left (by simp; omega), List.getElem?_take_of_lt hi]
  rw [imgB, imgB, nth_eq_getD, nth_eq_getD, hTake]

theorem leAt_padTo {n lo k : Nat} {bs : List Byte} (hi : lo + k ≤ n) (hl : n ≤ bs.length) :
    leAt (padTo n bs) lo k = leAt bs lo k := by
  have hTake : padTo n bs = bs.take n := by simp [padTo, Nat.sub_eq_zero_of_le hl]
  rw [leAt, leAt, slice, slice, hTake, List.drop_take, List.take_take, min_eq_left (by omega)]

/-! ### A device is bound (R69, R70) -/

theorem idleLevels_eq (x : DeviceSt) : idleLevels x = { x with desired := (idleLevels x).desired } := by
  unfold idleLevels
  split <;> rfl

section
variable (t d : Nat) (r : List Byte) (s : State)

/-- The record that a bind keeps. -/
theorem dev_bindNow :
    (dev (bindNow t d r s) t d).bound = true ∧ (dev (bindNow t d r s) t d).cls = imgB r 0 ∧
    (dev (bindNow t d r s) t d).present = imgB r 1 ∧ (dev (bindNow t d r s) t d).port = portOf s (leAt r 2 2) ∧
    (dev (bindNow t d r s) t d).tapt = leAt r 4 4 ∧ (dev (bindNow t d r s) t d).flags = imgB r 9 ∧
    (dev (bindNow t d r s) t d).windowUs = leAt r 12 4 := by
  have hTell : ∀ p u, dev (tellFar 5 t d p u) t d = dev u t d := fun p u => dev_of (devices_of (by simp)) ..
  have hGap : ∀ p u, dev (pslotGap p u) t d = dev u t d := fun p u => dev_of (devices_of (by simp)) ..
  simp only [bindNow]
  split_ifs <;> simp only [hTell, hGap, dev_updPort, dev_updDev_self] <;> rw [idleLevels_eq] <;> simp
theorem port_bindNow (h : portOf s (leAt r 2 2) < 0xFFFF) :
    (port (bindNow t d r s) (portOf s (leAt r 2 2))).bound = some (devIx t d) := by
  have hGap : ∀ p q u, port (pslotGap p u) q = port u q := fun p q u => port_of (ports_of (by simp)) ..
  simp only [bindNow]
  rw [if_neg (by omega), if_neg (by simp [isFar]; omega)]
  split <;> simp [hGap]

theorem tenants_bindNow : (bindNow t d r s).tenants = s.tenants := tenants_of (by simp)

end

/-- The farther chip's answer to a bind that asks for its port is a fresh value (log entry 80). -/
def askFar (s : State) (x : TCmd) (u : State) : State := if isFar (portOf s (leAt x.payload 2 2)) then useFresh u else u

section
variable (s : State) (x : TCmd) (u : State)

theorem tenants_askFar : (askFar s x u).tenants = u.tenants := by unfold askFar; split <;> rfl
theorem devices_askFar : (askFar s x u).devices = u.devices := by unfold askFar; split <;> rfl
theorem ports_askFar : (askFar s x u).ports = u.ports := by unfold askFar; split <;> rfl

end

section
variable {s : State} {x : TCmd}

theorem devCommand_bind (h : x.payload.length ≤ 52) :
    devCommand x.tenant.val x.device.toNat (cmdSlot 5 x) s =
      if stateCode (cmdDev s x) ≠ 0 then
        (respond x.tenant.val 5 x.tag.toNat x.device.toNat 3 (stateCode (cmdDev s x)) []
          (jConflict x.tenant.val x.device.toNat x.tag.toNat 5 (stateCode (cmdDev s x)) s), [])
      else if bindOk s x.tenant.val (padTo 32 x.payload) then
        (respond x.tenant.val 5 x.tag.toNat x.device.toNat 0 (stateCode (cmdDev s x)) []
          (askFar s x (bindNow x.tenant.val x.device.toNat (padTo 32 x.payload) s)), [])
      else (respond x.tenant.val 5 x.tag.toNat x.device.toNat 2 (stateCode (cmdDev s x)) [] (askFar s x s), []) := by
  rw [devCommand, slotOp_cmdSlot 5 x (by decide), slotTag_cmdSlot, slotPayload_cmdSlot 5 x h, if_neg (by decide)]
  rw [cmdDev]
  by_cases h0 : stateCode (dev s x.tenant.val x.device.toNat) ≠ 0
  · rw [if_pos h0, if_pos h0]
    rfl
  · rw [if_neg h0, if_neg h0]
    dsimp only [askFar]
    cases isFar (portOf s (leAt x.payload 2 2)) <;> rfl

theorem bind_taken_completes (hx : CmdOk s x 32) (hf : DevFree s x) (h : stateCode (cmdDev s x) = 0)
    (hOk : bindOk s x.tenant.val (padTo 32 x.payload) = true) :
    Completes (.bind x) s (fun u =>
      (cmdDev u x).bound = true ∧ (cmdDev u x).cls = imgB x.payload 0 ∧ (cmdDev u x).present = imgB x.payload 1 ∧
      (cmdDev u x).port = portOf s (leAt x.payload 2 2) ∧ (cmdDev u x).tapt = leAt x.payload 4 4 ∧
      (cmdDev u x).flags = imgB x.payload 9 ∧ (cmdDev u x).windowUs = leAt x.payload 12 4 ∧
      (portOf s (leAt x.payload 2 2) < 0xFFFF →
        (port u (portOf s (leAt x.payload 2 2))).bound = some (devIx x.tenant.val x.device.toNat)) ∧
      Staged s u x.tenant.val (answer x 5 0 0 [])) := by
  obtain ⟨-, -, hMin, hMax⟩ := id hx
  have hu := devCommand_bind (s := s) hMax
  rw [if_neg (not_not_intro h), if_pos hOk, h] at hu
  refine ⟨_, exec_devCommand_alone tform_bind (by decide) hx hf hu, ?_⟩
  have hPort : leAt (padTo 32 x.payload) 2 2 = leAt x.payload 2 2 := leAt_padTo (by decide) hMin
  obtain ⟨hBound, hCls, hPresent, hp, hTapt, hFlags, hWin⟩ := dev_bindNow x.tenant.val x.device.toNat (padTo 32 x.payload) s
  rw [imgB_padTo (by decide) hMin] at hCls hPresent hFlags
  rw [leAt_padTo (by decide) hMin] at hp hTapt hWin
  beta_reduce
  rw [cmdDev, dev_of ((devices_respond ..).trans (devices_askFar ..))]
  refine ⟨hBound, hCls, hPresent, hp, hTapt, hFlags, hWin, fun hNear => ?_,
    staged_respond (.of_tenants _ ((tenants_askFar ..).trans (tenants_bindNow ..))) _ _ _ _ _ (Nat.zero_le _)⟩
  rw [port_of ((ports_respond ..).trans (ports_askFar ..)), ← hPort]
  exact port_bindNow _ _ _ _ (hPort ▸ hNear)

theorem bind_bad_completes (hx : CmdOk s x 32) (hf : DevFree s x) (h : stateCode (cmdDev s x) = 0)
    (hOk : bindOk s x.tenant.val (padTo 32 x.payload) = false) :
    Completes (.bind x) s (fun u =>
      Staged s u x.tenant.val (answer x 5 2 0 []) ∧ u.devices = s.devices ∧ u.ports = s.ports) := by
  have hu := devCommand_bind (s := s) (cmdOk_max hx)
  rw [if_neg (not_not_intro h), if_neg (by simp [hOk]), h] at hu
  exact ⟨_, exec_devCommand_alone tform_bind (by decide) hx hf hu,
    staged_respond (.of_tenants _ (tenants_askFar ..)) _ _ _ _ _ (Nat.zero_le _),
    (devices_respond ..).trans (devices_askFar ..), (ports_respond ..).trans (ports_askFar ..)⟩

theorem ports_jConflict (t d tag op st : Nat) (s : State) : (jConflict t d tag op st s).ports = s.ports := ports_of (by simp)

theorem bind_bound_completes (hx : CmdOk s x 32) (hf : DevFree s x) (h : stateCode (cmdDev s x) ≠ 0) :
    Completes (.bind x) s (fun u =>
      Staged s u x.tenant.val (answer x 5 3 (stateCode (cmdDev s x)) []) ∧ u.devices = s.devices ∧ u.ports = s.ports) := by
  have hu := devCommand_bind (s := s) (cmdOk_max hx)
  rw [if_pos h] at hu
  exact ⟨_, exec_devCommand_alone tform_bind (by decide) hx hf hu,
    staged_respond (.of_tenants _ (tenants_jConflict ..)) _ _ _ _ _ (Nat.zero_le _),
    (devices_respond ..).trans (devices_jConflict ..), (ports_respond ..).trans (ports_jConflict ..)⟩

end

/-! ### A device is unbound (R81) -/

section
variable (t d : Nat) (s : State)

theorem chan_seqFinish_dropped : (dev (seqFinish t d .dropped s) t d).chan = (dev s t d).chan := by
  simp only [seqFinish]
  split
  · rfl
  · split <;> simp

theorem chan_dropNotice (tag sent : Nat) : (dev (dropNotice t d tag sent s) t d).chan = (dev s t d).chan := by
  have hNotice : dev (notice t d 3 tag (le 2 tag ++ le 2 sent) (jDevice 1 t d tag (le 2 sent) s)) t d = dev s t d :=
    dev_of (devices_of (by simp)) ..
  unfold dropNotice
  dsimp only
  split
  · split
    · rw [chan_seqFinish_dropped, hNotice]
    · rw [hNotice]
  · rw [hNotice]

/-- The state an unbind makes once the device's one-shots are reported. -/
def reportDrops (report : Bool) (os : List OutMsg) (s : State) : State :=
  each os (fun o s =>
    if report then dropNotice t d (o.tag.elim 0 (fun g => g)) 0 (jDevice 9 t d (o.tag.elim 0 (fun g => g)) [] s)
    else jDevice 9 t d (o.tag.elim 0 (fun g => g)) [] s) s

theorem chan_reportDrops (report : Bool) (os : List OutMsg) :
    (dev (reportDrops t d report os s) t d).chan = (dev s t d).chan := by
  have hJ : ∀ (u : State) g, dev (jDevice 9 t d g [] u) t d = dev u t d := fun u g => dev_of (devices_of (by simp)) ..
  induction os generalizing s with
  | nil => rfl
  | cons o os ih =>
    refine (ih _).trans ?_
    dsimp only
    split
    · rw [chan_dropNotice, hJ]
    · rw [hJ]

/-- The port of an unbound device is free for another. -/
def freePort (y : DeviceSt) (s : State) : State :=
  let s := if decide (y.port < 0xFFFF) then updPort y.port (fun y => { y with bound := none }) s else tellFar 6 t d y.port s
  if y.cls = 7 && decide (y.port < 0xFFFF) then pslotGap y.port s else s

theorem devices_freePort (y : DeviceSt) : (freePort t d y s).devices = s.devices := by
  refine devices_of ?_
  simp only [freePort]
  split_ifs <;> simp

theorem tenants_freePort (y : DeviceSt) : (freePort t d y s).tenants = s.tenants := by
  refine tenants_of ?_
  simp only [freePort]
  split_ifs <;> simp

theorem port_freePort (y : DeviceSt) (h : y.port < 0xFFFF) : (port (freePort t d y s) y.port).bound = none := by
  have hGap : ∀ p u, port (pslotGap p u) y.port = port u y.port := fun p u => port_of (ports_of (by simp)) ..
  simp only [freePort, h, decide_true, if_true]
  split <;> simp [hGap]

theorem unbindDev_eq (report : Bool) : unbindDev t d report s =
    updDev t d (fun x => { x with shown := stateCode x, pv := pvCode x })
      (updDev t d unboundDev (freePort t d (dev s t d)
        (reportDrops t d report (pendingOneshots s t d) (settleClose t d (takeOneshots t d s))))) := rfl

theorem dev_unbindDev (report : Bool) :
    (dev (unbindDev t d report s) t d).port = 0xFFFF ∧ (dev (unbindDev t d report s) t d).desired = [] ∧
    (dev (unbindDev t d report s) t d).seq = none ∧
    (dev (unbindDev t d report s) t d).bound = (dev s t d).chan.isSome := by
  have hTaken : dev (settleClose t d (takeOneshots t d s)) t d = dev s t d := dev_of (devices_of (by simp)) ..
  rw [unbindDev_eq, dev_updDev_self, dev_updDev_self, dev_of (devices_freePort ..)]
  refine ⟨rfl, rfl, rfl, ?_⟩
  show (dev (reportDrops ..) t d).chan.isSome = _
  rw [chan_reportDrops, hTaken]

theorem port_unbindDev (report : Bool) (h : (dev s t d).port < 0xFFFF) :
    (port (unbindDev t d report s) (dev s t d).port).bound = none := by
  rw [unbindDev_eq, port_updDev, port_updDev]
  exact port_freePort _ _ _ _ h

theorem sameOutbox_unbindDev (report : Bool) (h : pendingOneshots s t d = []) : SameOutbox s (unbindDev t d report s) t := by
  have hTen : ten (unbindDev t d report s) t = ten (takeOneshots t d s) t := by
    refine ten_of ?_ t
    rw [unbindDev_eq, updDev_tenants, updDev_tenants, tenants_freePort, h]
    show (settleClose t d (takeOneshots t d s)).tenants = _
    exact tenants_of (by simp)
  rw [SameOutbox, hTen, takeOneshots, ten_updTen_self]
  exact ⟨rfl, rfl⟩

end

section
variable {s : State} {x : TCmd}

theorem devCommand_unbind :
    devCommand x.tenant.val x.device.toNat (cmdSlot 6 x) s =
      if stateCode (cmdDev s x) = 0 then
        (respond x.tenant.val 6 x.tag.toNat x.device.toNat 3 (stateCode (cmdDev s x)) []
          (jConflict x.tenant.val x.device.toNat x.tag.toNat 6 (stateCode (cmdDev s x)) s), [])
      else
        (respond x.tenant.val 6 x.tag.toNat x.device.toNat 0 (stateCode (cmdDev s x))
          (le 2 (pendingOneshots s x.tenant.val x.device.toNat).length) (unbindDev x.tenant.val x.device.toNat true s), []) := by
  rw [devCommand, slotOp_cmdSlot 6 x (by decide), slotTag_cmdSlot, if_neg (by decide)]
  rfl

theorem unbind_completes (hx : CmdOk s x 0) (hf : DevFree s x) (h : stateCode (cmdDev s x) ≠ 0) :
    Completes (.unbind x) s (fun u =>
      (cmdDev u x).port = 0xFFFF ∧ (cmdDev u x).desired = [] ∧ (cmdDev u x).seq = none ∧
      (cmdDev u x).bound = (cmdDev s x).chan.isSome ∧
      ((cmdDev s x).port < 0xFFFF → (port u (cmdDev s x).port).bound = none) ∧
      (pendingOneshots s x.tenant.val x.device.toNat = [] →
        Staged s u x.tenant.val (answer x 6 0 (stateCode (cmdDev s x)) [0, 0]))) := by
  have hu := devCommand_unbind (s := s) (x := x)
  rw [if_neg h] at hu
  obtain ⟨hPort, hDesired, hSeq, hBound⟩ := dev_unbindDev x.tenant.val x.device.toNat s true
  refine ⟨_, exec_devCommand_alone tform_unbind (by decide) hx hf hu, ?_⟩
  beta_reduce
  rw [cmdDev, dev_of (devices_respond ..)]
  refine ⟨hPort, hDesired, hSeq, hBound, fun hNear => ?_, fun hNone => ?_⟩
  · rw [port_of (ports_respond ..)]
    exact port_unbindDev _ _ _ _ hNear
  · rw [hNone]
    exact staged_respond (sameOutbox_unbindDev _ _ _ _ hNone) _ _ _ _ _ (by decide)

theorem unbind_unbound_completes (hx : CmdOk s x 0) (hf : DevFree s x) (h : stateCode (cmdDev s x) = 0) :
    Completes (.unbind x) s (fun u => Staged s u x.tenant.val (answer x 6 3 0 []) ∧ u.devices = s.devices) := by
  have hu := devCommand_unbind (s := s) (x := x)
  rw [if_pos h, h] at hu
  exact ⟨_, exec_devCommand_alone tform_unbind (by decide) hx hf hu,
    staged_respond (.of_tenants _ (tenants_jConflict ..)) _ _ _ _ _ (Nat.zero_le _),
    (devices_respond ..).trans (devices_jConflict ..)⟩

end

/-! ### Raw bytes toward a port (R71, R72, R77) -/

section
variable (t : Nat)

theorem outs_stageSlot (sl : Slot) (s : State) : (ten (stageSlot t sl s) t).outs = (ten s t).outs := by
  rw [stageSlot]
  split
  · rw [ten_writeBytes, ten_updTen_self]
  · rw [ten_updTen_self]

theorem outs_respond (op tag dv status state : Nat) {pl : List Byte} (h : pl.length ≤ 52) (s : State) :
    (ten (respond t op tag dv status state pl s) t).outs = (ten s t).outs := by
  rw [respond_single _ _ _ _ _ _ h, outs_stageSlot, ten_of (tenants_acted ..)]

end

theorem tenants_seqSent (t d : Nat) (s : State) : (seqSent t d s).tenants = s.tenants := updDev_tenants ..

/-- The one-shot that raw bytes make (R72, R77). -/
def rawMsg (s : State) (x : TCmd) : OutMsg :=
  { port := (cmdDev s x).port, tenant := x.tenant.val, dev := x.device.toNat, gen := getF s (fGen x.tenant.val),
    tag := some x.tag.toNat, bytes := x.payload.map (fun b => BitVec.ofNat 9 b.toNat),
    fin := decide (x.flags.toNat / 2 % 2 = 1), near := false, late := false }

section
variable {s : State} {x : TCmd}

theorem stateCode_eq_ready {n : Nat} (h : isReady n = true) : n ≠ 0 := by
  rintro rfl
  exact absurd h (by decide)

theorem devCommand_dataSend (h : x.payload.length ≤ 52) :
    devCommand x.tenant.val x.device.toNat (cmdSlot 7 x) s =
      (respond x.tenant.val 7 x.tag.toNat x.device.toNat
        (dataSendOp x.tenant.val x.device.toNat x.tag.toNat (x.flags.toNat / 2 % 2 = 1) x.payload s).1 (stateCode (cmdDev s x)) []
        (dataSendOp x.tenant.val x.device.toNat x.tag.toNat (x.flags.toNat / 2 % 2 = 1) x.payload s).2.1,
       (dataSendOp x.tenant.val x.device.toNat x.tag.toNat (x.flags.toNat / 2 % 2 = 1) x.payload s).2.2) := by
  rw [devCommand, slotOp_cmdSlot 7 x (by decide), slotTag_cmdSlot, slotFlags_cmdSlot, slotPayload_cmdSlot 7 x h,
    if_neg (by decide)]
  rfl

/-- A DATA_SEND that leaves no further work to the device. -/
theorem exec_dataSend (hx : CmdOk s x 0) (hf : DevFree s x) {status : Nat} {u : State}
    (hu : dataSendOp x.tenant.val x.device.toNat x.tag.toNat (x.flags.toNat / 2 % 2 = 1) x.payload s = (status, u, [])) :
    exec (.dataSend x) s =
      .next (respond x.tenant.val 7 x.tag.toNat x.device.toNat status (stateCode (cmdDev s x)) [] u) := by
  refine exec_devCommand_alone tform_dataSend (by decide) hx hf ?_
  rw [devCommand_dataSend (cmdOk_max hx), hu]

theorem rawSend_room (hPort : (cmdDev s x).port ≠ 0xFFFF) (hSome : x.payload ≠ [])
    (hRoom : txRoom s (cmdDev s x).port x.payload.length = true) :
    rawSend x.tenant.val x.device.toNat x.tag.toNat (x.flags.toNat / 2 % 2 = 1) x.payload s =
      seqSent x.tenant.val x.device.toNat
        (updTen x.tenant.val (fun y => { y with outs := y.outs ++ [rawMsg s x] }) s) := by
  rw [cmdDev] at hPort hRoom
  simp [rawSend, hSome, stagePort, hPort, stageOut, stageMsg, hRoom, rawMsg, cmdDev]

theorem dataSend_raw_completes (hx : CmdOk s x 0) (hf : DevFree s x) (hRaw : (cmdDev s x).present = 0)
    (hReady : isReady (stateCode (cmdDev s x)) = true) (hPort : (cmdDev s x).port ≠ 0xFFFF) (hSome : x.payload ≠ [])
    (hRoom : txRoom s (cmdDev s x).port x.payload.length = true) :
    Completes (.dataSend x) s (fun u =>
      (ten u x.tenant.val).outs = (ten s x.tenant.val).outs ++ [rawMsg s x] ∧
      Staged s u x.tenant.val (answer x 7 0 (stateCode (cmdDev s x)) [])) := by
  have hOp : dataSendOp x.tenant.val x.device.toNat x.tag.toNat (x.flags.toNat / 2 % 2 = 1) x.payload s =
      (0, seqSent x.tenant.val x.device.toNat
        (updTen x.tenant.val (fun y => { y with outs := y.outs ++ [rawMsg s x] }) s), []) := by
    rw [← rawSend_room hPort hSome hRoom]
    have h0 := stateCode_eq_ready hReady
    rw [cmdDev] at hRaw hReady h0
    simp [dataSendOp, hRaw, hReady, h0]
  have hTen : ten (seqSent x.tenant.val x.device.toNat
      (updTen x.tenant.val (fun y => { y with outs := y.outs ++ [rawMsg s x] }) s)) x.tenant.val =
      { ten s x.tenant.val with outs := (ten s x.tenant.val).outs ++ [rawMsg s x] } := by
    rw [ten_of (tenants_seqSent ..), ten_updTen_self]
  refine ⟨_, exec_dataSend hx hf hOp, ?_, staged_respond ⟨?_, ?_⟩ _ _ _ _ _ (Nat.zero_le _)⟩
  · rw [outs_respond _ _ _ _ _ _ (Nat.zero_le _), hTen]
  · rw [hTen]
  · rw [hTen]

theorem dataSend_notReady_completes (hx : CmdOk s x 0) (hf : DevFree s x) (hRaw : (cmdDev s x).present = 0)
    (hReady : isReady (stateCode (cmdDev s x)) = false) :
    Completes (.dataSend x) s (fun u =>
      Staged s u x.tenant.val (answer x 7 3 (stateCode (cmdDev s x)) []) ∧ u.devices = s.devices) := by
  have hOp : dataSendOp x.tenant.val x.device.toNat x.tag.toNat (x.flags.toNat / 2 % 2 = 1) x.payload s =
      (3, jConflict x.tenant.val x.device.toNat x.tag.toNat 7 (stateCode (cmdDev s x)) s, []) := by
    rw [cmdDev] at hRaw hReady
    simp [dataSendOp, hRaw, hReady, cmdDev]
  exact ⟨_, exec_dataSend hx hf hOp, staged_respond (.of_tenants _ (tenants_jConflict ..)) _ _ _ _ _ (Nat.zero_le _),
    (devices_respond ..).trans (devices_jConflict ..)⟩

theorem dataSend_class_completes (hx : CmdOk s x 0) (hf : DevFree s x) (hClass : (cmdDev s x).present = 1)
    (h : stateCode (cmdDev s x) ≠ 0) :
    Completes (.dataSend x) s (fun u =>
      Staged s u x.tenant.val (answer x 7 2 (stateCode (cmdDev s x)) []) ∧ u.devices = s.devices) := by
  have hOp : dataSendOp x.tenant.val x.device.toNat x.tag.toNat (x.flags.toNat / 2 % 2 = 1) x.payload s = (2, s, []) := by
    rw [cmdDev] at hClass h
    simp [dataSendOp, hClass, h]
  exact ⟨_, exec_dataSend hx hf hOp, staged_respond (.of_ten rfl) _ _ _ _ _ (Nat.zero_le _), devices_respond ..⟩

/-- Bytes that end no packet of family X are kept (R74). -/
theorem streamWork_kept {t d tag : Nat} {bytes img : List Byte} {s : State} (hSide : tenantSide s (dev s t d) = some img)
    (hEnd : firstEnd (inFormats img) ((dev s t d).xbuf ++ bytes) = none) :
    streamWork t d bytes false tag s = (updDev t d (fun x => { x with xbuf := (dev s t d).xbuf ++ bytes }) s, []) := by
  simp [streamWork, hSide, hEnd]

theorem dataSend_stream_completes {img : List Byte} (hx : CmdOk s x 0) (hf : DevFree s x)
    (hX : (cmdDev s x).present = 2) (h : stateCode (cmdDev s x) ≠ 0) (hSide : tenantSide s (cmdDev s x) = some img)
    (hLast : x.flags.toNat / 2 % 2 = 0) (hEnd : firstEnd (inFormats img) ((cmdDev s x).xbuf ++ x.payload) = none) :
    Completes (.dataSend x) s (fun u =>
      (cmdDev u x).xbuf = (cmdDev s x).xbuf ++ x.payload ∧
      Staged s u x.tenant.val (answer x 7 0 (stateCode (cmdDev s x)) [])) := by
  have hOp : dataSendOp x.tenant.val x.device.toNat x.tag.toNat (x.flags.toNat / 2 % 2 = 1) x.payload s =
      (0, s, [.stream x.payload false x.tag.toNat]) := by
    rw [cmdDev] at hX h
    simp [dataSendOp, hX, h, hLast]
  obtain ⟨-, -, hTrans⟩ := id hf
  have hExec := exec_devCommand tform_dataSend (by decide) hx hf
  rw [devCommand_dataSend (cmdOk_max hx), hOp] at hExec
  generalize hv : respond x.tenant.val 7 x.tag.toNat x.device.toNat 0 (stateCode (cmdDev s x)) [] s = v at hExec
  have hDev : dev v x.tenant.val x.device.toNat = cmdDev s x := hv ▸ dev_of (devices_respond ..) ..
  have hTime : frameNo v = frameNo s := by rw [frameNo, time_of (t := v) (s := s) (by simp [← hv])]; rfl
  have hImages : v.images = s.images := images_of (by simp [← hv])
  have hKept := streamWork_kept (s := v) (t := x.tenant.val) (d := x.device.toNat) (tag := x.tag.toNat) (img := img)
    (bytes := x.payload) (by rw [hDev, ← hSide, tenantSide, activeImg, hImages]; rfl) (by rw [hDev]; exact hEnd)
  have hWork : workStep x.tenant.val x.device.toNat (.stream x.payload false x.tag.toNat) v = _ := hKept
  rw [runWork_step (n := 4094) (by rw [hTime, hDev]; exact hTrans), hWork, List.append_nil, runWork_nil] at hExec
  refine ⟨_, hExec, ?_, ?_⟩
  · rw [cmdDev, dev_updDev_self, hDev]
  · have hStaged := staged_respond (.of_ten rfl : SameOutbox s s x.tenant.val) 7 x.tag.toNat x.device.toNat 0
      (stateCode (cmdDev s x)) (pl := []) (Nat.zero_le _)
    rw [hv] at hStaged
    exact hStaged

end

end Sys2Proof.Machine

open Sys2Proof Sys2Proof.Machine

/-- Settles O13: a lemma for each outcome of BIND, UNBIND and DATA_SEND. -/
theorem deviceBinding : Obligations.DeviceBinding := by
  unfold Obligations.DeviceBinding
  exact ⟨fun s x => bind_taken_completes, fun s x => bind_bad_completes, fun s x => bind_bound_completes,
    fun s x => unbind_completes, fun s x => unbind_unbound_completes, fun s x => dataSend_raw_completes,
    fun s x => dataSend_notReady_completes, fun s x => dataSend_class_completes, fun s x img => dataSend_stream_completes⟩
end

section
namespace Sys2Proof.Machine

/-! ### What a load channel keeps while its tenant, or administration, is told (R162, R170) -/

/-- Registers of the load controllers: those of the channels and of their groups (R173, R174). -/
def loadKeys (k : Nat) : Bool := decide (0x49000000 ≤ k ∧ k < 0x49005000)

theorem admKeys_load {k : Nat} (h : loadKeys k = true) : admKeys k = false := by
  simp only [loadKeys, decide_eq_true_eq] at h
  simp [admKeys, logKeys, icKeys, icK, pageK]
  omega

/-- The channels, their groups with their registers, and the time are those of `s`. -/
structure LoadSame (s t : State) : Prop where
  chans : t.chans = s.chans
  lgroups : t.lgroups = s.lgroups
  time : t.time = s.time
  getF : ∀ f : Fld, loadKeys f.key = true → getF t f = getF s f

namespace LoadSame

theorem refl (s : State) : LoadSame s s := ⟨rfl, rfl, rfl, fun _ _ => rfl⟩

theorem trans {s t u : State} (h : LoadSame s t) (g : LoadSame t u) : LoadSame s u :=
  ⟨g.chans.trans h.chans, g.lgroups.trans h.lgroups, g.time.trans h.time, fun f hf => (g.getF f hf).trans (h.getF f hf)⟩

theorem chan {s t : State} (h : LoadSame s t) (c : Nat) : Machine.chan t c = Machine.chan s c := by
  rw [Machine.chan, h.chans, Machine.chan]

theorem lgroup {s t : State} (h : LoadSame s t) (g : Nat) : Machine.lgroup t g = Machine.lgroup s g := by
  rw [Machine.lgroup, h.lgroups, Machine.lgroup]

theorem now {s t : State} (h : LoadSame s t) : Machine.now t = Machine.now s := by rw [Machine.now, h.time, Machine.now]

theorem lcState {s t : State} {c : Nat} (hc : c < 128) (h : LoadSame s t) : Machine.lcState t c = Machine.lcState s c :=
  h.getF _ (by simp [loadKeys, fLcState, fld, lcK]; omega)

theorem lcDrive {s t : State} {c : Nat} (hc : c < 128) (h : LoadSame s t) : Machine.lcDrive t c = Machine.lcDrive s c := by
  rw [Machine.lcDrive, h.lcState hc, h.chan, Machine.lcDrive]

theorem of_regs {s t : State} (hC : t.chans = s.chans) (hG : t.lgroups = s.lgroups) (hT : t.time = s.time)
    (hR : t.regs = s.regs) : LoadSame s t :=
  ⟨hC, hG, hT, fun f _ => by rw [Machine.getF, Machine.reg, hR, Machine.getF, Machine.reg]⟩

theorem loadHand (c kind arg : Nat) (s : State) : LoadSame s (Machine.loadHand c kind arg s) :=
  .of_regs (chans_of (by simp)) (lgroups_of (by simp)) (time_of (by simp)) (regs_of (by simp))

theorem loadReport (c : Nat) (tag : Option Nat) (sent : Nat) (s : State) :
    LoadSame s (Machine.loadReport c tag sent s) :=
  .of_regs (chans_of (by simp)) (lgroups_of (by simp)) (time_of (by simp)) (regs_of (by simp))

theorem admDone (op key status state : Nat) (p : List Byte) (s : State) :
    LoadSame s (Machine.admDone op key status state p s) :=
  ⟨chans_of (by simp), lgroups_of (by simp), time_of (by simp), fun f hf => (admDone_adm ..).getF f (admKeys_load hf)⟩

theorem ite {s t u : State} {p : Prop} [Decidable p] (ht : LoadSame s t) (hu : LoadSame s u) :
    LoadSame s (if p then t else u) := by
  split
  · exact ht
  · exact hu

theorem lcRefused (c : Nat) (x : LcStaged) (s : State) : LoadSame s (Machine.lcRefused c x s) :=
  have hAdm : LoadSame s (if x.admin then Machine.admDone 0x59 c 3 (Machine.lcState s c) [] s else s) :=
    ite (admDone ..) (refl s)
  hAdm.trans (ite (loadReport ..) (refl _))

end LoadSame

/-! ### A staged command comes to act (R162, R92, R168) -/

/-- The channel's staged command has its turn, and is staged no more. -/
def acting (s : State) (c e : Nat) : State := updChan c (fun y => { y with staged := none }) (goTo e s)

section
variable (s : State) (c e : Nat)

theorem chan_acting : chan (acting s c e) c = { chan s c with staged := none } := chan_updChan_self ..

theorem chan_acting_ne {d : Nat} (h : d ≠ c) : chan (acting s c e) d = chan s d :=
  chan_updChan_ne _ _ _ h

theorem now_acting : now (acting s c e) = max (now s) e := rfl

theorem getF_acting (f : Fld) : getF (acting s c e) f = getF s f := rfl

theorem isSet_acting (f : Fld) : isSet (acting s c e) f = isSet s f := rfl

theorem lcState_acting (d : Nat) : lcState (acting s c e) d = lcState s d := rfl

theorem lgroup_acting (g : Nat) : lgroup (acting s c e) g = lgroup s g := rfl

/-- What is staged decides nothing of the outcomes of a turn. -/
theorem outranked_acting (r : Nat) : outranked (acting s c e) c r = outranked (goTo e s) c r := by
  have hChan : ∀ d, (chan (acting s c e) d).onAt = (chan s d).onAt ∧ (chan (acting s c e) d).overAt = (chan s d).overAt ∧
      (chan (acting s c e) d).test = (chan s d).test ∧ (chan (acting s c e) d).grant = (chan s d).grant := by
    intro d
    by_cases h : d = c
    · subst h; rw [chan_acting]; exact ⟨rfl, rfl, rfl, rfl⟩
    · rw [chan_acting_ne s c e h]; exact ⟨rfl, rfl, rfl, rfl⟩
  have hShort : ∀ d, shortAt (acting s c e) d = shortAt (goTo e s) d := fun d => by
    rw [shortAt, (hChan d).1]; rfl
  have hOver : ∀ d, overDue (acting s c e) d = overDue (goTo e s) d := fun d => by
    rw [overDue, (hChan d).2.1]; rfl
  have hDrive : ∀ d, lcDrive (acting s c e) d = lcDrive (goTo e s) d := fun d => by
    rw [lcDrive, (hChan d).2.2.1]; rfl
  have hEnds : ∀ d, inrushEnds (acting s c e) d = inrushEnds (goTo e s) d := fun d => by
    rw [inrushEnds, (hChan d).2.2.2]; rfl
  have hAt : ∀ i, outcomeAt (acting s c e) i = outcomeAt (goTo e s) i := by
    intro i
    unfold outcomeAt
    split
    · rw [hShort]
    · rfl
    · rw [hOver]
    · rw [hOver]
    · rfl
  have hRank : ∀ i, outcomeRank (acting s c e) c i = outcomeRank (goTo e s) c i := by
    intro i
    unfold outcomeRank
    split
    · rw [hDrive]
    · rw [hEnds]; rfl
    · rw [hEnds]; rfl
    · rfl
    · rfl
  simp only [outranked, hAt, hRank]
  rfl

end

/-- A staged command that acts, with what its effect makes of the channel. -/
def answered (c : Nat) (x : LcStaged) (s : State) : State := if x.admin then admDone 0x59 c 0 0 [] s else s

theorem LoadSame.answered (c : Nat) (x : LcStaged) (s : State) : LoadSame s (Machine.answered c x s) :=
  .ite (.admDone ..) (.refl s)

theorem acts_cmd {s : State} {c e cmd : Nat} {x : LcStaged} (h : ActsAt s c x e cmd) : bitsOf x.word 3 0 = cmd := by
  obtain ⟨-, -, -, hCmd, -⟩ := h
  exact hCmd

/-- The tenant whose command is staged has been reset since (R92). -/
def stale (s : State) (x : LcStaged) : Bool := !x.tenant.all (fun q => decide (getF s (fGen q.1) = q.2))

theorem stale_acting (s : State) (c e : Nat) (x : LcStaged) : stale (acting s c e) x = stale s x := rfl

theorem chan_lcReject (c : Nat) (s : State) (d : Nat) : chan (lcReject c s) d = chan s d := by
  rw [chan, chans_of (s := s) (by simp [lcReject]), ← chan]

theorem lgroups_lcReject (c : Nat) (s : State) : (lcReject c s).lgroups = s.lgroups := lgroups_of (by simp [lcReject])

/-- What the command of a channel leaves at its turn. -/
def actResult (c : Nat) (x : LcStaged) (s : State) : State :=
  if stale s x then s
  else if outranked s c 5 || (chan s c).outAt = some (now s) then lcRefused c x s
  else match lcDo c x s with
    | some s => answered c x s
    | none => lcRefused c x (lcReject c s)

section
variable {s : State} {c e : Nat} {x : LcStaged} {f : Nat → Bool}

theorem lcAct_unstaged (h : (chan s c).staged = none) : lcAct c f s = .next s := by rw [lcAct, h, done]

theorem lcAct_waits (h : (chan s c).staged = some x)
    (hNot : f (bitsOf x.word 3 0) = false ∨ x.due = none ∨ ∃ e, x.due = some e ∧ dueNow s e = false) :
    lcAct c f s = .next s := by
  rw [lcAct, h]
  dsimp only
  split
  · rename_i hf
    rcases hNot with hNot | hNot | ⟨e, hDue, hNot⟩
    · rw [hNot] at hf; cases hf
    · rw [hNot, atDue, done]
    · rw [hDue, atDue, hNot, if_neg Bool.false_ne_true, done]
  · rw [done]

theorem lcAct_due (h : (chan s c).staged = some x) (hDue : x.due = some e) (hNow : dueNow s e = true)
    (hf : f (bitsOf x.word 3 0) = true) : lcAct c f s = .next (actResult c x (acting s c e)) := by
  rw [lcAct, h]
  dsimp only
  rw [if_pos hf, hDue, atDue_dueNow hNow]
  congr 1
  rw [actResult]
  have hStale : (match x.tenant with
      | some (t, g) => decide (getF (acting s c e) (fGen t) ≠ g)
      | none => false) = stale (acting s c e) x := by
    rw [stale]
    cases x.tenant <;> simp
  simp only [← hStale]
  rfl

section
variable {cmd : Nat} (h : ActsAt s c x e cmd) (hf : f cmd = true)
include h hf

theorem lcAct_acts : lcAct c f s = .next (match lcDo c x (acting s c e) with
    | some u => answered c x u
    | none => lcRefused c x (lcReject c (acting s c e))) := by
  obtain ⟨hStaged, hDue, hNow, hCmd, hGen, hRank, hOut⟩ := h
  rw [lcAct_due hStaged hDue hNow (hCmd ▸ hf), actResult, if_neg, if_neg]
  · rw [outranked_acting, hRank, chan_acting, now_acting]
    simpa using hOut
  · rw [stale_acting, stale, hGen]
    decide

/-- A command that the channel carries out leaves what its effect makes of the channel. -/
theorem lcAct_taken {u : State} (hDo : lcDo c x (acting s c e) = some u) : ∃ v, lcAct c f s = .next v ∧ LoadSame u v := by
  rw [lcAct_acts h hf, hDo]
  exact ⟨_, rfl, .answered ..⟩

theorem lcAct_rejected (hDo : lcDo c x (acting s c e) = none) :
    ∃ v, lcAct c f s = .next v ∧ LoadSame (lcReject c (acting s c e)) v := by
  rw [lcAct_acts h hf, hDo]
  exact ⟨_, rfl, .lcRefused ..⟩

end

/-- A command whose tenant was reset, or whose turn another outcome has, leaves the channel as it is. -/
theorem lcAct_dropped (h : (chan s c).staged = some x) (hDue : x.due = some e) (hNow : dueNow s e = true)
    (hf : f (bitsOf x.word 3 0) = true)
    (hNot : x.tenant.all (fun q => decide (getF s (fGen q.1) = q.2)) = false ∨ outranked (goTo e s) c 5 = true ∨
      (chan s c).outAt = some (max (now s) e)) :
    ∃ v, lcAct c f s = .next v ∧ LoadSame (acting s c e) v := by
  refine ⟨_, lcAct_due h hDue hNow hf, ?_⟩
  rw [actResult]
  split
  · exact .refl _
  · rename_i hGen
    rw [if_pos]
    · exact .lcRefused ..
    · rw [outranked_acting, chan_acting, now_acting]
      rcases hNot with hNot | hNot | hNot
      · exact absurd (by rw [stale_acting, stale, hNot]; rfl) hGen
      · simp [hNot]
      · simp [hNot]

end

/-! ### LC_CMD is staged (R156, R162) -/

theorem chan_lcStage (c : Nat) (x : LcStaged) (s : State) : (chan (lcStage c x s) c).staged = some x := by
  rw [lcStage, chan_updChan_self]

theorem lcState_lcReplace {c : Nat} (hc : c < 128) (s : State) : lcState (lcReplace c s) c = lcState s c := by
  unfold lcReplace
  split
  · rfl
  · next x _ =>
    have hAdm := LoadSame.ite (p := x.admin = true)
      (.admDone 0x59 c 3 (lcState (updChan c (fun y => { y with staged := none }) s) c) []
        (updChan c (fun y => { y with staged := none }) s)) (.refl _)
    exact ((hAdm.trans (.ite (.loadReport ..) (.refl _))).lcState hc).trans rfl

theorem lcState_lcStage {c : Nat} (hc : c < 128) (x : LcStaged) (s : State) : lcState (lcStage c x s) c = lcState s c := by
  have hKey : logKeys (fLcState c).key = false :=
    logKeys_of_admKeys (admKeys_load (by simp [loadKeys, fLcState, fld, lcK]; omega))
  rw [lcStage, lcState, getF_updChan]
  exact (lcState_lcReplace hc _).trans ((jLoad_log ..).getF _ hKey)

theorem lcCmdStage_cp_completes (s : State) (ch : ChanId) (v : Word) : Completes (.lcCmdStage .cp ch v) s (fun u =>
    (chan u ch.val).staged.map (fun x => (x.word, x.tenant, x.due)) = some (v, none, some (nextTick s + 24)) ∧
    lcState u ch.val = lcState s ch.val) := by
  refine ⟨_, rfl, ?_, lcState_lcStage ch.isLt _ s⟩
  rw [lcStageCp, chan_lcStage, Option.map_some]

theorem exec_lcCmdStage_lane (s : State) (ch : ChanId) (n : ClusterId) (k : Fin 4) (v : Word) :
    exec (.lcCmdStage (.lane n k) ch v) s =
      .next (if supCore s (.lane n k) = true ∧ lcAttached s ch.val = true ∧ getF s (fLcTenant ch.val) / 16 = n.val then
        lcStageTenant ch.val v none s else busErr (.lane n k) (lcK ch.val 0xC) s) := by
  show done _ = _
  simp only [done, Bool.and_eq_true, decide_eq_true_eq, and_assoc]

theorem lcCmdStage_lane_completes {s : State} {ch : ChanId} {n : ClusterId} {c : CoreId} {v : Word} (hc : ∃ k, c = .lane n k)
    (hSup : supCore s c = true) (hAtt : lcAttached s ch.val = true) (hTen : getF s (fLcTenant ch.val) / 16 = n.val) :
    Completes (.lcCmdStage c ch v) s (fun u =>
      (chan u ch.val).staged.map (fun x => (x.word, x.tenant, x.due)) =
        some (v, some (getF s (fLcTenant ch.val), getF s (fGen (getF s (fLcTenant ch.val)))), none) ∧
      lcState u ch.val = lcState s ch.val) := by
  obtain ⟨k, rfl⟩ := hc
  refine ⟨_, exec_lcCmdStage_lane s ch n k v, ?_⟩
  rw [if_pos ⟨hSup, hAtt, hTen⟩]
  refine ⟨?_, lcState_lcStage ch.isLt _ s⟩
  rw [lcStageTenant, chan_lcStage, Option.map_some]

theorem lcCmdStage_lane_busErr {s : State} {ch : ChanId} {n : ClusterId} {c : CoreId} {v : Word} (hc : ∃ k, c = .lane n k)
    (hNot : ¬ (supCore s c = true ∧ lcAttached s ch.val = true ∧ getF s (fLcTenant ch.val) / 16 = n.val)) :
    exec (.lcCmdStage c ch v) s = .next (busErr c (lcK ch.val 0xC) s) := by
  obtain ⟨k, rfl⟩ := hc
  rw [exec_lcCmdStage_lane, if_neg hNot]

/-! ### The constructors that let a command act -/

theorem exec_actForm {p : (ChanId → Instr) × (Nat → Bool)} (hp : p ∈ actForms) (ch : ChanId) (s : State) :
    exec (p.1 ch) s = lcAct ch.val p.2 s := by
  fin_cases hp <;> rfl

/-! ### What the channel's state rejects (R163, R169, R171) -/

theorem lcDo_rejected {s : State} {c : Nat} {x : LcStaged} (h : Rejected s c x (bitsOf x.word 3 0)) : lcDo c x s = none := by
  unfold lcDo
  generalize bitsOf x.word 3 0 = cmd at h
  by_cases hEn : isSet s (fLcEnable c) = true
  · rcases h with ⟨-, h⟩ | h | ⟨h | h | h, h5⟩ | ⟨h, h0⟩ | ⟨h, hZero⟩ | ⟨h, hNot⟩ | ⟨h, h5, hTen, hCause⟩
    · rw [hEn] at h; cases h
    · obtain ⟨k, rfl⟩ := Nat.exists_eq_add_of_le' h
      simp [hEn]
    · simp [h, h5]
    · simp [h, h5]
    · simp [h, h5]
    · simp [h, h0]
    · simp [h, hZero]
    · rcases hNot with hNot | hNot | hNot | hNot | hNot
      · simp [h, hEn, hNot]
      · cases hm : (chan s c).mode with
        | steady => exact absurd hm hNot
        | kick => simp [h, hEn]
        | blink _ _ => simp [h, hEn]
      · simp [h, hEn, Nat.not_le.mpr hNot]
      · simp [h, hEn, Nat.not_le.mpr hNot]
      · simp [h, hEn, hNot]
    · simp only [List.mem_cons, List.not_mem_nil, or_false, not_or] at hCause
      simp [h, hEn, h5, fromTenant, hTen, hCause]
  · have h0 : cmd ≠ 0 := by
      rcases h with ⟨h, -⟩ | h | ⟨h, -⟩ | ⟨h, -⟩ | ⟨h, -⟩ | ⟨h, -⟩ | ⟨h, -⟩ <;> omega
    simp only [if_neg h0, hEn]
    rfl

theorem rejected_acting {s : State} {c e cmd : Nat} {x : LcStaged} (h : Rejected s c x cmd) :
    Rejected (acting s c e) c x cmd := by
  have hMode : (chan (acting s c e) c).mode = (chan s c).mode := by rw [chan_acting]
  rw [Rejected, hMode]
  exact h

/-! ### The steps of a channel between its states (R161, R163, R165) -/

section
variable {c : Nat} (s : State)

theorem fLcState_apart_waiting : (fLgWaiting (c / 8)).apart (fLcState c) = true := by
  simp [Fld.apart, fLgWaiting, fLcState, fld, lcK, lgK]; omega

theorem lcState_lcEnter {st : Nat} (h : st < 8) : lcState (lcEnter c st s) c = st := by
  rw [lcEnter, lcWaiting, lcState, getF_setF_apart _ _ fLcState_apart_waiting, getF_setF_self _ _ _ rfl]
  exact Nat.mod_eq_of_lt h

/-- The other fields of the channel's LC_STAT stay as they are when it enters a state. -/
theorem getF_lcEnter_stat (st : Nat) {f : Fld} (hf : f.key = lcK c 0x10) (hlo : 2 < f.lo) :
    getF (lcEnter c st s) f = getF s f := by
  rw [lcEnter, lcWaiting, getF_setF_apart _ _ (by rw [Fld.apart, hf]; simp [fLgWaiting, fld, lgK, lcK]; omega),
    getF_setF_apart _ _ (by rw [Fld.apart, hf]; simp [Fld.ok, fLcState, fld, hlo])]

theorem getF_lcEnter_inrush (st : Nat) : getF (lcEnter c st s) (fLgInrush (c / 8)) = getF s (fLgInrush (c / 8)) := by
  rw [lcEnter, lcWaiting, getF_setF_apart _ _ (by simp [Fld.apart, Fld.ok, fLgWaiting, fLgInrush, fld]),
    getF_setF_apart _ _ (by simp [Fld.apart, fLcState, fLgInrush, fld, lcK, lgK]; omega)]

theorem lcState_lcWait : lcState (lcWait c false s) c = 1 := lcState_lcEnter _ (by decide)

end

section
variable (c : Nat) (s : State)

theorem chan_lcEnter (st : Nat) : chan (lcEnter c st s) c = chan s c := rfl

theorem lgroup_lcEnter (st g : Nat) : lgroup (lcEnter c st s) g = lgroup s g := rfl

theorem chan_lcWait : chan (lcWait c false s) c = { chan s c with waitAt := some (now s) } := by
  rw [lcWait, chan_lcEnter, chan_updChan_self]
  rfl

theorem queue_lcWait : (lgroup (lcWait c false s) (c / 8)).queue = queueIn s c (now s) (lgroup s (c / 8)).queue := by
  rw [lcWait, lgroup_lcEnter, lgroup_updChan, lgroup_updLGroup_self]
  rfl

theorem chan_traceEnd (code : Nat) : ∃ tr, chan (traceEnd c code s) c = { chan s c with trace := tr } := by
  unfold traceEnd
  split
  · exact ⟨_, rfl⟩
  · refine ⟨none, ?_⟩
    dsimp only
    split
    · rw [chan_updChan_self]
    · have hJnl : ∀ a b p q (u : State), chan (jnlBy a b p q u) c = chan u c := fun a b p q u => by
        rw [chan, chans_of (s := u) (by simp), ← chan]
      rw [hJnl, chan_updChan_self]

theorem lgroup_traceEnd (code g : Nat) : lgroup (traceEnd c code s) g = lgroup s g := by
  rw [lgroup, lgroups_of (s := s) (by simp), ← lgroup]

/-- A channel that leaves what it is doing has no phase and no test, and waits for no inrush. -/
theorem chan_lcLeave (code : Nat) : ∃ o tr, chan (lcLeave c code s) c =
    { chan s c with phaseEnd := none, test := none, overAt := o, trace := tr } := by
  obtain ⟨tr, hTrace⟩ := chan_traceEnd c s code
  simp only [lcLeave]
  rw [chan_updChan_self, chan_updLGroup]
  split
  · rw [chan_setF, chan_updLGroup, hTrace]
    exact ⟨_, _, rfl⟩
  · exact ⟨_, _, rfl⟩

theorem queue_lcLeave (code : Nat) : c ∉ (lgroup (lcLeave c code s) (c / 8)).queue := by
  simp only [lcLeave]
  rw [lgroup_updChan, lgroup_updLGroup_self]
  simp

theorem inrush_lcLeave (code : Nat) (h : lcState s c = 2) :
    getF (lcLeave c code s) (fLgInrush (c / 8)) = 255 ∧ (lgroup (lcLeave c code s) (c / 8)).lastEnd = some (now s) := by
  simp only [lcLeave, if_pos h]
  rw [getF_updChan, getF_updLGroup, getF_setF_self _ _ _ rfl, lgroup_updChan, lgroup_updLGroup_self, lgroup_setF,
    lgroup_updLGroup_self]
  exact ⟨rfl, rfl⟩

end

/-- The place in the queue depends on when the others entered WAIT. -/
theorem queueIn_congr {s u : State} (h : ∀ d, (chan u d).waitAt = (chan s d).waitAt) (c t : Nat) (q : List Nat) :
    queueIn u c t q = queueIn s c t q := by
  induction q with
  | nil => rfl
  | cons d q ih => simp only [queueIn, h, ih]

@[simp] theorem lcState_updChan (c : Nat) (f : ChanSt → ChanSt) (s : State) (d : Nat) :
    lcState (updChan c f s) d = lcState s d := rfl

theorem waitAt_updChan {c : Nat} {f : ChanSt → ChanSt} (hf : ∀ y, (f y).waitAt = y.waitAt) (s : State) (d : Nat) :
    (chan (updChan c f s) d).waitAt = (chan s d).waitAt := by
  by_cases h : d = c
  · subst h; rw [chan_updChan_self, hf]
  · rw [chan_updChan_ne _ _ _ h]

/-- A channel that is set up and enters WAIT: its state, what is set up, and its place in the queue (R165). -/
theorem enters_wait {c : Nat} {f : ChanSt → ChanSt} (hf : ∀ y, (f y).waitAt = y.waitAt) (s : State) :
    lcState (lcWait c false (updChan c f s)) c = 1 ∧
    chan (lcWait c false (updChan c f s)) c = { f (chan s c) with waitAt := some (now s) } ∧
    (lgroup (lcWait c false (updChan c f s)) (c / 8)).queue = queueIn s c (now s) (lgroup s (c / 8)).queue := by
  refine ⟨lcState_lcWait _, ?_, ?_⟩
  · rw [chan_lcWait, chan_updChan_self]; rfl
  · rw [queue_lcWait, queueIn_congr (waitAt_updChan hf s)]; rfl

theorem queueIn_acting (s : State) (c e t : Nat) (q : List Nat) : queueIn (acting s c e) c t q = queueIn s c t q :=
  queueIn_congr (s := s) (fun d => (waitAt_updChan (c := c) (f := fun y => { y with staged := none }) (fun _ => rfl)
    (goTo e s) d).trans rfl) c t q

/-! ### What each command does on an enabled channel (R163, R169, R171) -/

section
variable {s : State} {c : Nat} {x : LcStaged}

theorem lcDo_nop (hCmd : bitsOf x.word 3 0 = 0) : lcDo c x s = some s := by simp [lcDo, hCmd]

variable (hEn : isSet s (fLcEnable c) = true)
include hEn

theorem lcDo_on (hCmd : bitsOf x.word 3 0 = 1) (h5 : lcState s c ≠ 5) : ∃ u, lcDo c x s = some u ∧
    (chan u c).staged = (chan s c).staged ∧
    (lcState s c = 4 → lcState u c = 4 ∧ (chan u c).next = some .steady ∧ (chan u c).mode = (chan s c).mode) ∧
    (lcState s c ≠ 4 → (chan u c).mode = .steady ∧ (chan u c).next = none) ∧
    (lcState s c = 0 ∨ lcState s c = 6 →
      lcState u c = 1 ∧ (lgroup u (c / 8)).queue = queueIn s c (now s) (lgroup s (c / 8)).queue) ∧
    (lcState s c = 1 ∨ lcState s c = 2 ∨ lcState s c = 3 →
      lcState u c = lcState s c ∧ (chan u c).phaseEnd = none ∧ u.lgroups = s.lgroups) := by
  by_cases h0 : lcState s c = 0
  · obtain ⟨hState, hChan, hQueue⟩ :=
      enters_wait (c := c) (f := fun x => { x with mode := .steady, next := none }) (fun _ => rfl) s
    refine ⟨_, by simp only [lcDo, hCmd, hEn, h0]; rfl, ?_⟩
    simp [hState, hChan, hQueue, h0]
  by_cases h6 : lcState s c = 6
  · obtain ⟨hState, hChan, hQueue⟩ :=
      enters_wait (c := c) (f := fun x => { x with mode := .steady, next := none, phaseEnd := none }) (fun _ => rfl) s
    refine ⟨_, by simp only [lcDo, hCmd, hEn, h6]; rfl, ?_⟩
    simp [hState, hChan, hQueue, h6]
  by_cases h4 : lcState s c = 4
  · refine ⟨_, by simp only [lcDo, hCmd, hEn, h4]; rfl, ?_⟩
    simp [h4]
  · refine ⟨_, by simp [lcDo, hCmd, hEn, h0, h4, h5, h6]; rfl, ?_⟩
    simp [h0, h4, h6]

theorem lcDo_kick (hc : c < 128) (hCmd : bitsOf x.word 3 0 = 3) (h0 : lcState s c = 0) : ∃ u, lcDo c x s = some u ∧
    lcState u c = 1 ∧ (chan u c).mode = .kick ∧ (chan u c).pulsed = false ∧ (chan u c).kickTag = x.tag ∧
    (chan u c).staged = (chan s c).staged ∧ (lgroup u (c / 8)).queue = queueIn s c (now s) (lgroup s (c / 8)).queue := by
  obtain ⟨hState, hChan, hQueue⟩ := enters_wait (c := c)
    (f := fun y => { y with mode := .kick, next := none, kickTag := x.tag, pulsed := false }) (fun _ => rfl) s
  refine ⟨_, by simp only [lcDo, hCmd, hEn, h0]; rfl, ?_⟩
  rw [(LoadSame.loadHand ..).lcState hc, (LoadSame.loadHand ..).chan, (LoadSame.loadHand ..).lgroup, hState, hChan, hQueue]
  exact ⟨rfl, rfl, rfl, rfl, rfl, rfl⟩

end

/-! ### A channel goes to OFF (R161, R163) -/

/-- A kick that is cut leaves the channel's other fields, its group and the registers as they are. -/
theorem kickCut_kept (c : Nat) (s : State) : lcState (kickCut c s) c = lcState s c ∧ now (kickCut c s) = now s ∧
    (chan (kickCut c s) c).staged = (chan s c).staged := by
  have hRegs : (kickCut c s).regs = s.regs := regs_of (by simp)
  have hTime : (kickCut c s).time = s.time := time_of (by simp)
  refine ⟨by rw [lcState, getF, reg, hRegs]; rfl, by rw [now, hTime]; rfl, ?_⟩
  simp only [kickCut]
  split
  · rw [chan_updChan_self]
    rw [((LoadSame.loadReport ..).trans (.loadHand ..)).chan c]
  · rfl
  · rfl

theorem lcToOff_leaves (c : Nat) (s : State) :
    lcState (lcToOff c s) c = 0 ∧ (chan (lcToOff c s) c).staged = (chan s c).staged ∧
    (chan (lcToOff c s) c).phaseEnd = none ∧ (chan (lcToOff c s) c).test = none ∧
    c ∉ (lgroup (lcToOff c s) (c / 8)).queue ∧
    (lcState s c = 2 → getF (lcToOff c s) (fLgInrush (c / 8)) = 255 ∧
      (lgroup (lcToOff c s) (c / 8)).lastEnd = some (now s)) := by
  obtain ⟨o, tr, hChan⟩ := chan_lcLeave c s 3
  refine ⟨lcState_lcEnter _ (by decide), ?_, ?_, ?_, queue_lcLeave c s 3, fun h2 => ?_⟩
  · rw [lcToOff, chan_lcEnter, hChan]
  · rw [lcToOff, chan_lcEnter, hChan]
  · rw [lcToOff, chan_lcEnter, hChan]
  · obtain ⟨hInrush, hEnd⟩ := inrush_lcLeave c s 3 h2
    exact ⟨(getF_lcEnter_inrush _ _).trans hInrush, hEnd⟩

section
variable {s : State} {c : Nat} {x : LcStaged} (hEn : isSet s (fLcEnable c) = true)
include hEn

theorem lcDo_off (hCmd : bitsOf x.word 3 0 = 2) (h5 : lcState s c ≠ 5) : ∃ u, lcDo c x s = some u ∧
    lcState u c = 0 ∧ (chan u c).staged = (chan s c).staged ∧
    (lcState s c ≠ 0 → (chan u c).mode = .steady ∧ (chan u c).next = none ∧ (chan u c).phaseEnd = none ∧
      (chan u c).test = none ∧ c ∉ (lgroup u (c / 8)).queue ∧
      (lcState s c = 2 → getF u (fLgInrush (c / 8)) = 255 ∧ (lgroup u (c / 8)).lastEnd = some (now s))) := by
  by_cases h0 : lcState s c = 0
  · exact ⟨s, by simp [lcDo, hCmd, hEn, h0], h0, rfl, fun h => absurd h0 h⟩
  obtain ⟨hState, hNow, hStaged⟩ := kickCut_kept c s
  obtain ⟨hOff, hKept, hPhase, hTest, hQueue, hInrush⟩ := lcToOff_leaves c (kickCut c s)
  refine ⟨_, by simp [lcDo, hCmd, hEn, h0, h5]; rfl, ?_⟩
  rw [lcState_updChan, chan_updChan_self, lgroup_updChan, getF_updChan]
  exact ⟨hOff, hKept.trans hStaged, fun _ =>
    ⟨rfl, rfl, hPhase, hTest, hQueue, fun h2 => hNow ▸ hInrush (hState.trans h2)⟩⟩

theorem lcDo_test (hCmd : bitsOf x.word 3 0 = 5) (h3 : lcState s c = 3) (hMode : (chan s c).mode = .steady)
    (hMin : 10 ≤ bitsOf x.word 15 4) (hMax : bitsOf x.word 15 4 ≤ 100) (hSag : isSet s (fLgSag (c / 8)) = false) :
    ∃ u, lcDo c x s = some u ∧ lcState u c = 4 ∧ lcDrive u c = false ∧ (chan u c).staged = (chan s c).staged ∧
      (chan u c).test = some (now s, bitsOf x.word 15 4, false) := by
  refine ⟨_, by simp [lcDo, hCmd, hEn, h3, hMode, hMin, hMax, hSag]; rfl, ?_⟩
  have hState : lcState (lcEnter c 4 s) c = 4 := lcState_lcEnter _ (by decide)
  rw [lcDrive, lcState_updChan, chan_updChan_self, hState]
  exact ⟨rfl, rfl, rfl, rfl⟩

theorem lcDo_clear (hc : c < 128) (hCmd : bitsOf x.word 3 0 = 6)
    (h : lcState s c = 5 → x.tenant = none ∨ getF s (fLcCause c) ∈ [2, 3, 5]) :
    ∃ u, lcDo c x s = some u ∧ (chan u c).staged = (chan s c).staged ∧
      (lcState s c = 5 → lcState u c = 0 ∧ getF u (fLcRetries c) = 0 ∧ getF u (fLcAborts c) = 0) ∧
      (lcState s c ≠ 5 → u = s) := by
  by_cases h5 : lcState s c = 5
  · have hNot : ¬ (fromTenant x = true ∧
        (!decide (getF s (fLcCause c) = 2 ∨ getF s (fLcCause c) = 3 ∨ getF s (fLcCause c) = 5)) = true) := by
      rcases h h5 with hCp | hCause
      · simp [fromTenant, hCp]
      · rintro ⟨-, hOther⟩
        simp at hCause hOther
        omega
    refine ⟨loadHand c 9 0 (setF (fLcRetries c) 0 (setF (fLcAborts c) 0 (lcEnter c 0 s))), ?_, ?_, fun _ => ⟨?_, ?_, ?_⟩,
      fun h => absurd h5 h⟩
    · simp only [lcDo, hCmd, hEn, h5]
      rw [if_neg hNot]
      rfl
    · rw [(LoadSame.loadHand ..).chan, chan_setF, chan_setF, chan_lcEnter]
    · rw [(LoadSame.loadHand ..).lcState hc, lcState,
        getF_setF_apart _ _ (by simp [Fld.apart, Fld.ok, fLcRetries, fLcState, fld]),
        getF_setF_apart _ _ (by simp [Fld.apart, Fld.ok, fLcAborts, fLcState, fld])]
      exact lcState_lcEnter _ (by decide)
    · rw [(LoadSame.loadHand ..).getF _ (by simp [loadKeys, fLcRetries, fld, lcK]; omega), getF_setF_self _ _ _ rfl]
      rfl
    · rw [(LoadSame.loadHand ..).getF _ (by simp [loadKeys, fLcAborts, fld, lcK]; omega),
        getF_setF_apart _ _ (by simp [Fld.apart, Fld.ok, fLcRetries, fLcAborts, fld]), getF_setF_self _ _ _ rfl]
      rfl
  · exact ⟨s, by simp [lcDo, hCmd, hEn, h5], rfl, fun h => absurd h h5, fun _ => rfl⟩

theorem lcDo_blink (hCmd : bitsOf x.word 3 0 = 4) (h5 : lcState s c ≠ 5) (hOn : bitsOf x.word 15 4 ≠ 0)
    (hOff : bitsOf x.word 27 16 ≠ 0) : lcDo c x s = some (lcBlinkAct c (bitsOf x.word 15 4) (bitsOf x.word 27 16) s) := by
  simp [lcDo, hCmd, hEn, h5, hOn, hOff]

end

section
variable {s : State} {c : Nat} (a b : Nat)

theorem lcBlinkAct_off (h : lcState s c = 0) :
    lcState (lcBlinkAct c a b s) c = 1 ∧ (chan (lcBlinkAct c a b s) c).mode = .blink a b ∧
    (chan (lcBlinkAct c a b s) c).staged = (chan s c).staged ∧
    (lgroup (lcBlinkAct c a b s) (c / 8)).queue = queueIn s c (now s) (lgroup s (c / 8)).queue := by
  obtain ⟨hState, hChan, hQueue⟩ :=
    enters_wait (c := c) (f := fun x => { x with mode := .blink a b, next := none }) (fun _ => rfl) s
  simp only [lcBlinkAct, h, if_true]
  exact ⟨hState, by rw [hChan], by rw [hChan], hQueue⟩

/-- During a test, and in another pattern, the blink waits for its turn. -/
theorem lcBlinkAct_next (h : lcState s c = 4 ∨ (lcState s c ≠ 0 ∧ (chan s c).mode ≠ .steady)) :
    lcBlinkAct c a b s = updChan c (fun x => { x with next := some (.blink a b) }) s := by
  rw [lcBlinkAct]
  rcases h with h | ⟨h0, hMode⟩
  · simp [h]
  · by_cases h4 : lcState s c = 4
    · simp [h4]
    · simp only [if_neg h0, if_neg h4]
      cases hm : (chan s c).mode with
      | steady => exact absurd hm hMode
      | kick => rfl
      | blink _ _ => rfl

theorem lcBlinkAct_wait (hMode : (chan s c).mode = .steady) (h : lcState s c = 1) :
    lcBlinkAct c a b s = updChan c (fun x => { x with mode := .blink a b }) s := by
  simp [lcBlinkAct, h, hMode]

theorem lcBlinkAct_inrush (hMode : (chan s c).mode = .steady) (h : lcState s c = 2) :
    lcBlinkAct c a b s =
      updChan c (fun x => { x with mode := .blink a b, phaseEnd := some (x.grant + msTurns a) }) s := by
  simp [lcBlinkAct, h, hMode]

/-- A running channel begins the pattern with its off-phase. -/
theorem lcBlinkAct_run (hMode : (chan s c).mode = .steady) (h0 : lcState s c ≠ 0) (h1 : lcState s c ≠ 1)
    (h2 : lcState s c ≠ 2) (h4 : lcState s c ≠ 4) :
    lcState (lcBlinkAct c a b s) c = 6 ∧ (chan (lcBlinkAct c a b s) c).mode = .blink a b ∧
    (chan (lcBlinkAct c a b s) c).phaseEnd = some (now s + msTurns b) ∧
    (chan (lcBlinkAct c a b s) c).staged = (chan s c).staged := by
  obtain ⟨o, tr, hChan⟩ := chan_lcLeave c s 3
  have hTime : now (lcEnter c 6 (lcLeave c 3 s)) = now s := by rw [now, time_of (s := s) (by simp [lcEnter, lcWaiting]), now]
  have hAct : lcBlinkAct c a b s = updChan c (fun x => { x with mode := .blink a b, phaseEnd := some (now s + msTurns b) })
      (lcEnter c 6 (lcLeave c 3 s)) := by
    simp [lcBlinkAct, h0, h1, h2, h4, hMode, hTime]
  rw [hAct, lcState_updChan, chan_updChan_self, chan_lcEnter, hChan]
  exact ⟨lcState_lcEnter _ (by decide), rfl, rfl, rfl⟩

theorem staged_lcBlinkAct : (chan (lcBlinkAct c a b s) c).staged = (chan s c).staged := by
  by_cases h0 : lcState s c = 0
  · obtain ⟨-, -, hStaged, -⟩ := lcBlinkAct_off a b h0
    exact hStaged
  by_cases hNext : lcState s c = 4 ∨ (lcState s c ≠ 0 ∧ (chan s c).mode ≠ .steady)
  · rw [lcBlinkAct_next a b hNext, chan_updChan_self]
  obtain ⟨h4, hSteady⟩ := not_or.mp hNext
  have hMode : (chan s c).mode = .steady := not_not.mp fun h => hSteady ⟨h0, h⟩
  by_cases h1 : lcState s c = 1
  · rw [lcBlinkAct_wait a b hMode h1, chan_updChan_self]
  by_cases h2 : lcState s c = 2
  · rw [lcBlinkAct_inrush a b hMode h2, chan_updChan_self]
  · obtain ⟨-, -, -, hStaged⟩ := lcBlinkAct_run a b hMode h0 h1 h2 h4
    exact hStaged

end

/-! ### The commands of a channel, at their turn (R162, R163, R169, R171) -/

section
variable {s : State} {ch : ChanId} {x : LcStaged} {e : Nat}

theorem lcNop_completes (h : ActsAt s ch.val x e 0) : Completes (.lcNop ch) s (fun u =>
    now u = max (now s) e ∧ (chan u ch.val).staged = none ∧ lcState u ch.val = lcState s ch.val ∧
    (chan u ch.val).mode = (chan s ch.val).mode ∧ u.lgroups = s.lgroups) := by
  obtain ⟨v, hExec, hv⟩ := lcAct_taken (f := fun k => k = 0 || decide (7 ≤ k)) h rfl (lcDo_nop (acts_cmd h))
  refine ⟨v, hExec, ?_⟩
  beta_reduce
  rw [hv.now, hv.chan, hv.lcState ch.isLt, hv.lgroups, chan_acting]
  exact ⟨rfl, rfl, rfl, rfl, rfl⟩

theorem lcOn_completes (h : ActsAt s ch.val x e 1) (hEn : isSet s (fLcEnable ch.val) = true) (h5 : lcState s ch.val ≠ 5) :
    Completes (.lcOn ch) s (fun u =>
      (chan u ch.val).staged = none ∧
      (lcState s ch.val = 4 → lcState u ch.val = 4 ∧ (chan u ch.val).next = some .steady ∧
        (chan u ch.val).mode = (chan s ch.val).mode) ∧
      (lcState s ch.val ≠ 4 → (chan u ch.val).mode = .steady ∧ (chan u ch.val).next = none) ∧
      (lcState s ch.val = 0 ∨ lcState s ch.val = 6 → lcState u ch.val = 1 ∧ (lgroup u (ch.val / 8)).queue =
        queueIn s ch.val (max (now s) e) (lgroup s (ch.val / 8)).queue) ∧
      (lcState s ch.val = 1 ∨ lcState s ch.val = 2 ∨ lcState s ch.val = 3 →
        lcState u ch.val = lcState s ch.val ∧ (chan u ch.val).phaseEnd = none ∧ u.lgroups = s.lgroups)) := by
  obtain ⟨u, hDo, hu⟩ := lcDo_on (s := acting s ch.val e) hEn (acts_cmd h) h5
  obtain ⟨v, hExec, hv⟩ := lcAct_taken (f := fun k => k = 1) h rfl hDo
  refine ⟨v, hExec, ?_⟩
  beta_reduce
  rw [chan_acting, queueIn_acting] at hu
  rw [hv.chan, hv.lcState ch.isLt, hv.lgroup, hv.lgroups]
  exact hu

theorem lcOff_completes (h : ActsAt s ch.val x e 2) (hEn : isSet s (fLcEnable ch.val) = true) (h5 : lcState s ch.val ≠ 5) :
    Completes (.lcOff ch) s (fun u =>
      lcState u ch.val = 0 ∧ (chan u ch.val).staged = none ∧
      (lcState s ch.val ≠ 0 → (chan u ch.val).mode = .steady ∧ (chan u ch.val).next = none ∧
        (chan u ch.val).phaseEnd = none ∧ (chan u ch.val).test = none ∧ ch.val ∉ (lgroup u (ch.val / 8)).queue ∧
        (lcState s ch.val = 2 → getF u (fLgInrush (ch.val / 8)) = 255 ∧
          (lgroup u (ch.val / 8)).lastEnd = some (max (now s) e)))) := by
  obtain ⟨u, hDo, hu⟩ := lcDo_off (s := acting s ch.val e) hEn (acts_cmd h) h5
  obtain ⟨v, hExec, hv⟩ := lcAct_taken (f := fun k => k = 2) h rfl hDo
  refine ⟨v, hExec, ?_⟩
  beta_reduce
  rw [chan_acting] at hu
  rw [hv.chan, hv.lcState ch.isLt, hv.lgroup, hv.getF _ (by simp [loadKeys, fLgInrush, fld, lgK]; omega)]
  exact hu

theorem lcKick_completes (h : ActsAt s ch.val x e 3) (hEn : isSet s (fLcEnable ch.val) = true) (h0 : lcState s ch.val = 0) :
    Completes (.lcKick ch) s (fun u =>
      lcState u ch.val = 1 ∧ (chan u ch.val).mode = .kick ∧ (chan u ch.val).pulsed = false ∧
      (chan u ch.val).kickTag = x.tag ∧ (chan u ch.val).staged = none ∧
      (lgroup u (ch.val / 8)).queue = queueIn s ch.val (max (now s) e) (lgroup s (ch.val / 8)).queue) := by
  obtain ⟨u, hDo, hu⟩ := lcDo_kick (s := acting s ch.val e) hEn ch.isLt (acts_cmd h) h0
  obtain ⟨v, hExec, hv⟩ := lcAct_taken (f := fun k => k = 3) h rfl hDo
  refine ⟨v, hExec, ?_⟩
  beta_reduce
  rw [chan_acting, queueIn_acting] at hu
  rw [hv.chan, hv.lcState ch.isLt, hv.lgroup]
  exact hu

theorem lcBlink_completes (h : ActsAt s ch.val x e 4) (hEn : isSet s (fLcEnable ch.val) = true) (h5 : lcState s ch.val ≠ 5)
    (hOn : bitsOf x.word 15 4 ≠ 0) (hOff : bitsOf x.word 27 16 ≠ 0) : Completes (.lcBlink ch) s (fun u =>
      (chan u ch.val).staged = none ∧
      (lcState s ch.val = 0 → lcState u ch.val = 1 ∧
        (chan u ch.val).mode = .blink (bitsOf x.word 15 4) (bitsOf x.word 27 16) ∧
        (lgroup u (ch.val / 8)).queue = queueIn s ch.val (max (now s) e) (lgroup s (ch.val / 8)).queue) ∧
      (lcState s ch.val = 4 ∨ (lcState s ch.val ≠ 0 ∧ (chan s ch.val).mode ≠ .steady) →
        lcState u ch.val = lcState s ch.val ∧ (chan u ch.val).mode = (chan s ch.val).mode ∧
        (chan u ch.val).next = some (.blink (bitsOf x.word 15 4) (bitsOf x.word 27 16))) ∧
      ((chan s ch.val).mode = .steady → lcState s ch.val = 1 ∨ lcState s ch.val = 2 →
        lcState u ch.val = lcState s ch.val ∧
        (chan u ch.val).mode = .blink (bitsOf x.word 15 4) (bitsOf x.word 27 16) ∧
        (lcState s ch.val = 2 →
          (chan u ch.val).phaseEnd = some ((chan s ch.val).grant + msTurns (bitsOf x.word 15 4)))) ∧
      ((chan s ch.val).mode = .steady → lcState s ch.val = 3 → lcState u ch.val = 6 ∧
        (chan u ch.val).mode = .blink (bitsOf x.word 15 4) (bitsOf x.word 27 16) ∧
        (chan u ch.val).phaseEnd = some (max (now s) e + msTurns (bitsOf x.word 27 16)))) := by
  obtain ⟨v, hExec, hv⟩ := lcAct_taken (f := fun k => k = 4) h rfl
    (lcDo_blink (s := acting s ch.val e) hEn (acts_cmd h) h5 hOn hOff)
  refine ⟨v, hExec, ?_⟩
  beta_reduce
  have hMode : (chan (acting s ch.val e) ch.val).mode = (chan s ch.val).mode := by rw [chan_acting]
  rw [hv.chan, hv.lcState ch.isLt, hv.lgroup]
  refine ⟨?_, fun h0 => ?_, fun hNext => ?_, fun hSteady h12 => ?_, fun hSteady h3 => ?_⟩
  · rw [staged_lcBlinkAct, chan_acting]
  · obtain ⟨hState, hBlink, -, hQueue⟩ :=
      lcBlinkAct_off (s := acting s ch.val e) (bitsOf x.word 15 4) (bitsOf x.word 27 16) h0
    rw [queueIn_acting] at hQueue
    exact ⟨hState, hBlink, hQueue⟩
  · rw [lcBlinkAct_next (s := acting s ch.val e) _ _ (by rw [hMode]; exact hNext), lcState_updChan, chan_updChan_self]
    exact ⟨rfl, hMode, rfl⟩
  · rcases h12 with h1 | h2
    · rw [lcBlinkAct_wait (s := acting s ch.val e) _ _ (hMode.trans hSteady) h1, lcState_updChan, chan_updChan_self]
      exact ⟨rfl, rfl, fun h2 => absurd (h1.symm.trans h2) (by decide)⟩
    · rw [lcBlinkAct_inrush (s := acting s ch.val e) _ _ (hMode.trans hSteady) h2, lcState_updChan, chan_updChan_self,
        chan_acting]
      exact ⟨rfl, rfl, fun _ => rfl⟩
  · obtain ⟨hState, hBlink, hPhase, -⟩ :=
      lcBlinkAct_run (s := acting s ch.val e) (bitsOf x.word 15 4) (bitsOf x.word 27 16)
      (hMode.trans hSteady) (by rw [lcState_acting, h3]; decide) (by rw [lcState_acting, h3]; decide)
      (by rw [lcState_acting, h3]; decide) (by rw [lcState_acting, h3]; decide)
    exact ⟨hState, hBlink, hPhase⟩

theorem lcTest_completes (h : ActsAt s ch.val x e 5) (hEn : isSet s (fLcEnable ch.val) = true) (h3 : lcState s ch.val = 3)
    (hMode : (chan s ch.val).mode = .steady) (hMin : 10 ≤ bitsOf x.word 15 4) (hMax : bitsOf x.word 15 4 ≤ 100)
    (hSag : isSet s (fLgSag (ch.val / 8)) = false) : Completes (.lcTest ch) s (fun u =>
      lcState u ch.val = 4 ∧ lcDrive u ch.val = false ∧ (chan u ch.val).staged = none ∧
      (chan u ch.val).test = some (max (now s) e, bitsOf x.word 15 4, false)) := by
  obtain ⟨u, hDo, hu⟩ :=
    lcDo_test (s := acting s ch.val e) hEn (acts_cmd h) h3 (by rw [chan_acting]; exact hMode) hMin hMax hSag
  obtain ⟨v, hExec, hv⟩ := lcAct_taken (f := fun k => k = 5) h rfl hDo
  refine ⟨v, hExec, ?_⟩
  beta_reduce
  rw [chan_acting] at hu
  rw [hv.chan, hv.lcState ch.isLt, hv.lcDrive ch.isLt]
  exact hu

theorem lcClear_completes (h : ActsAt s ch.val x e 6) (hEn : isSet s (fLcEnable ch.val) = true) :
    Completes (.lcClear ch) s (fun u =>
      (chan u ch.val).staged = none ∧
      (lcState s ch.val = 5 → x.tenant = none ∨ getF s (fLcCause ch.val) ∈ [2, 3, 5] →
        lcState u ch.val = 0 ∧ getF u (fLcRetries ch.val) = 0 ∧ getF u (fLcAborts ch.val) = 0) ∧
      (lcState s ch.val ≠ 5 → lcState u ch.val = lcState s ch.val ∧
        getF u (fLcRetries ch.val) = getF s (fLcRetries ch.val) ∧
        getF u (fLcAborts ch.val) = getF s (fLcAborts ch.val))) := by
  by_cases hOk : lcState s ch.val = 5 → x.tenant = none ∨ getF s (fLcCause ch.val) ∈ [2, 3, 5]
  · obtain ⟨u, hDo, hStaged, hCleared, hKept⟩ := lcDo_clear (s := acting s ch.val e) hEn ch.isLt (acts_cmd h) hOk
    obtain ⟨v, hExec, hv⟩ := lcAct_taken (f := fun k => k = 6) h rfl hDo
    refine ⟨v, hExec, ?_⟩
    beta_reduce
    rw [hv.chan, hv.lcState ch.isLt, hv.getF _ (by simp [loadKeys, fLcRetries, fld, lcK]; omega),
      hv.getF _ (by simp [loadKeys, fLcAborts, fld, lcK]; omega)]
    rw [chan_acting] at hStaged
    refine ⟨hStaged, fun h5 _ => hCleared h5, fun h5 => ?_⟩
    rw [hKept h5]
    exact ⟨rfl, rfl, rfl⟩
  · obtain ⟨h5, hNot⟩ := Classical.not_imp.mp hOk
    obtain ⟨hTen, hCause⟩ := not_or.mp hNot
    have hRej : Rejected s ch.val x 6 :=
      .inr (.inr (.inr (.inr (.inr (.inr ⟨rfl, h5, Option.isSome_iff_ne_none.mpr hTen, hCause⟩)))))
    obtain ⟨v, hExec, hv⟩ := lcAct_rejected (f := fun k => k = 6) h rfl
      (lcDo_rejected (rejected_acting (e := e) (acts_cmd h ▸ hRej)))
    refine ⟨v, hExec, ?_, fun _ hOk => absurd hOk hNot, fun h => absurd h5 h⟩
    rw [hv.chan, chan_lcReject, chan_acting]

end

theorem lcNotStaged_kept {p : (ChanId → Instr) × (Nat → Bool)} (hp : p ∈ actForms) (s : State) (ch : ChanId) :
    ((chan s ch.val).staged = none → exec (p.1 ch) s = .next s) ∧
    (∀ x, (chan s ch.val).staged = some x → p.2 (bitsOf x.word 3 0) = false ∨ x.due = none ∨
      (∃ e, x.due = some e ∧ dueNow s e = false) → exec (p.1 ch) s = .next s) := by
  rw [exec_actForm hp]
  exact ⟨lcAct_unstaged, fun x => lcAct_waits⟩

section
variable {p : (ChanId → Instr) × (Nat → Bool)} (hp : p ∈ actForms) {s : State} {ch : ChanId} {x : LcStaged} {e cmd : Nat}
  (hf : p.2 cmd = true)
include hp hf

theorem rejected_completes (h : ActsAt s ch.val x e cmd) (hRej : Rejected s ch.val x cmd) :
    Completes (p.1 ch) s (fun u =>
      getF u (fLcCmdrej ch.val) = 1 ∧ lcState u ch.val = lcState s ch.val ∧ (chan u ch.val).staged = none ∧
      (chan u ch.val).mode = (chan s ch.val).mode ∧ u.lgroups = s.lgroups) := by
  have hDo := lcDo_rejected (rejected_acting (e := e) (acts_cmd h ▸ hRej))
  obtain ⟨v, hExec, hv⟩ := lcAct_rejected h hf hDo
  refine ⟨v, (exec_actForm hp ch s).trans hExec, ?_⟩
  beta_reduce
  rw [hv.getF _ (by simp [loadKeys, fLcCmdrej, bit, lcK]; omega), hv.lcState ch.isLt, hv.chan, hv.lgroups, chan_lcReject,
    chan_acting, lgroups_lcReject]
  refine ⟨?_, ?_, rfl, rfl, rfl⟩
  · rw [lcReject, getF_flag, getF_setF_self _ _ _ rfl]
    simp [fLcCmdrej, bit]
  · rw [lcReject, lcState, getF_flag, getF_setF_apart _ _ (by simp [Fld.apart, Fld.ok, fLcCmdrej, fLcState, bit, fld])]
    rfl

theorem dropped_completes (h : (chan s ch.val).staged = some x) (hDue : x.due = some e) (hNow : dueNow s e = true)
    (hCmd : bitsOf x.word 3 0 = cmd)
    (hNot : x.tenant.all (fun q => decide (getF s (fGen q.1) = q.2)) = false ∨ outranked (goTo e s) ch.val 5 = true ∨
      (chan s ch.val).outAt = some (max (now s) e)) :
    Completes (p.1 ch) s (fun u =>
      getF u (fLcCmdrej ch.val) = getF s (fLcCmdrej ch.val) ∧ lcState u ch.val = lcState s ch.val ∧
      (chan u ch.val).staged = none ∧ (chan u ch.val).mode = (chan s ch.val).mode ∧ u.lgroups = s.lgroups) := by
  obtain ⟨v, hExec, hv⟩ := lcAct_dropped h hDue hNow (hCmd ▸ hf) hNot
  refine ⟨v, (exec_actForm hp ch s).trans hExec, ?_⟩
  beta_reduce
  rw [hv.getF _ (by simp [loadKeys, fLcCmdrej, bit, lcK]; omega), hv.lcState ch.isLt, hv.chan, hv.lgroups, chan_acting]
  exact ⟨rfl, rfl, rfl, rfl, rfl⟩

end

end Sys2Proof.Machine

open Sys2Proof Sys2Proof.Machine

/-- Settles O24: LC_CMD is staged, and at its turn the staged command is dropped, rejected or carried out, by the channel's
state. -/
theorem loadCommands : Obligations.LoadCommands := by
  unfold Obligations.LoadCommands
  refine ⟨⟨lcCmdStage_cp_completes, fun s ch n c v => lcCmdStage_lane_completes, fun s ch n c v => lcCmdStage_lane_busErr,
    fun s ch n t v => rfl, fun p hp s ch => lcNotStaged_kept hp s ch, fun s ch x e => lcNop_completes,
    fun s ch x e => lcOn_completes, fun s ch x e => lcOff_completes, fun s ch x e => lcKick_completes,
    fun s ch x e => lcBlink_completes, fun s ch x e => lcTest_completes, fun s ch x e => lcClear_completes⟩,
    fun p hp s ch x e cmd hf => ⟨rejected_completes hp hf, dropped_completes hp hf⟩⟩
end

section
namespace Sys2Proof.Machine

/-! ### The registers that a reset leaves as they are (R93) -/

/-- Keys of the registers that an abandoned tenant's work can change: those of a journal record, and those of the lane windows'
upper halves, which hold the pads and the routers. -/
def abandonKeys (k : Nat) : Bool := logKeys k || decide (0x800000 ≤ k % 0x1000000)

theorem logKeys_of_abandonKeys {k : Nat} (h : abandonKeys k = false) : logKeys k = false := by
  rw [abandonKeys, Bool.or_eq_false_iff] at h
  exact h.1

theorem abandonKeys_winK {n off : Nat} (ho : off < 0x800000) : abandonKeys (winK n off) = true := by
  rw [abandonKeys, Bool.or_eq_true]
  refine .inr (decide_eq_true ?_)
  unfold winK
  omega

theorem abandonKeys_padK {p off : Nat} (ho : off < 0x40) : abandonKeys (padK p off) = true := abandonKeys_winK (by omega)

theorem abandonKeys_tenant {t : Nat} (ht : t < 256) : abandonKeys (0x4800C000 + 4 * t) = false := by
  simp [abandonKeys, logKeys, icKeys, icK]
  omega

theorem RegsOnly.log_abandon {s u : State} (h : RegsOnly logKeys s u) : RegsOnly abandonKeys s u :=
  h.mono fun _ => logKeys_of_abandonKeys

theorem saEmpty_abandon (p : Nat) (s : State) : RegsOnly abandonKeys s (saEmpty p s) := by
  have hCatch : RegsOnly abandonKeys s (txCatch p (now s) s) := (txCatch_regs ..).mono fun k hk => by
    rw [txKeys, logKeys_of_abandonKeys hk, Bool.false_or, decide_eq_false_iff_not]
    rintro (rfl | rfl)
    · rw [abandonKeys_padK (by decide)] at hk; cases hk
    · rw [abandonKeys_padK (by decide)] at hk; cases hk
  have hCount := hCatch.trans (RegsOnly.addF (f := fTxabort p) (pad (txCatch p (now s) s) p).txq.length _
    (abandonKeys_padK (by decide)))
  unfold saEmpty
  dsimp only
  split
  · exact (hCount.trans (RegsOnly.of_regs (regs_deRelease ..))).trans (RegsOnly.of_regs rfl)
  · exact hCount.trans (RegsOnly.of_regs rfl)

theorem flushPort_abandon (p : Nat) (s : State) : RegsOnly abandonKeys s (flushPort p s) := by
  unfold flushPort
  dsimp only
  refine RegsOnly.trans ?_ (RegsOnly.each _ (fun i u => saEmpty_abandon _ u) _ _)
  exact RegsOnly.of_regs rfl

theorem flushTenantPort_abandon (t p : Nat) (s : State) : RegsOnly abandonKeys s (flushTenantPort t p s) := by
  unfold flushTenantPort
  refine RegsOnly.trans (RegsOnly.each _ (fun m u => ?_) _ _) (flushPort_abandon ..)
  refine RegsOnly.trans ?_ (jDiscard_log ..).log_abandon
  exact RegsOnly.of_regs rfl

theorem itemUnheard_log (mark : Nat) (h : HItem) (s : State) : RegsOnly logKeys s (itemUnheard mark h s) := by
  unfold itemUnheard
  split
  · exact jUndelivered_log ..
  all_goals exact RegsOnly.refl ..

theorem settleClose_log (tn dv : Nat) (s : State) : RegsOnly logKeys s (settleClose tn dv s) := by
  unfold settleClose
  split
  · exact RegsOnly.refl ..
  · dsimp only
    split
    · exact RegsOnly.updJnl ..
    · exact (RegsOnly.updJnl ..).trans (jnlAt_log ..)

theorem abandon_regs (t : Nat) (s : State) : RegsOnly abandonKeys s (abandon t s) := by
  have hRemote : ∀ f u, RegsOnly abandonKeys u (mapRemote f u) := fun _ _ => RegsOnly.of_regs rfl
  have hDelayed : ∀ f u, RegsOnly abandonKeys u (mapDelayed f u) := fun _ _ => RegsOnly.of_regs rfl
  unfold abandon
  dsimp only
  refine RegsOnly.trans (RegsOnly.trans (RegsOnly.trans (RegsOnly.trans ?_ (RegsOnly.updGroup ..)) (hDelayed ..)) (hRemote ..))
    (RegsOnly.updTen ..)
  refine RegsOnly.trans (RegsOnly.trans (RegsOnly.trans (RegsOnly.trans (RegsOnly.each _ (fun o u => ?_) _ _)
    (RegsOnly.each _ (flushTenantPort_abandon t) _ _)) (RegsOnly.each _ (fun c u => ?_) _ _))
    (RegsOnly.each _ (fun h u => ?_) _ _))
    (RegsOnly.each _ (fun d u => ?_) _ _)
  · exact (jDiscard_log ..).log_abandon
  · exact (RegsOnly.ite (jDiscard_log ..).log_abandon (RegsOnly.refl ..)).trans (RegsOnly.of_regs rfl)
  · exact (itemUnheard_log ..).log_abandon
  · exact (settleClose_log ..).log_abandon.trans (RegsOnly.of_regs rfl)

theorem RegsOnly.each_mem {K : Nat → Bool} {α : Type} {f : α → State → State} {xs : List α}
    (h : ∀ x ∈ xs, ∀ s, RegsOnly K s (f x s)) (s : State) : RegsOnly K s (Machine.each xs f s) := by
  induction xs generalizing s with
  | nil => exact refl ..
  | cons x xs ih => exact (h x List.mem_cons_self s).trans (ih (fun y hy => h y (List.mem_cons_of_mem _ hy)) _)

theorem clearOwned_regs (t : Nat) (s : State) : RegsOnly abandonKeys s (clearOwned t s) := by
  refine RegsOnly.each _ (fun n u => RegsOnly.each_mem (fun c hc v => ?_) u) _ s
  have hLt := List.mem_range.mp hc
  exact RegsOnly.ite ((RegsOnly.setF _ _ (abandonKeys_winK (by omega))).trans (RegsOnly.setF _ _ (abandonKeys_winK (by omega))))
    (RegsOnly.refl ..)

/-- What is abandoned is gone. -/
theorem ten_abandon (t : Nat) (s : State) :
    (ten (abandon t s) t).backlog = [] ∧ (ten (abandon t s) t).outs = [] ∧ (ten (abandon t s) t).handed = [] ∧
    (ten (abandon t s) t).released = [] ∧ (ten (abandon t s) t).outFill = 0 := by
  rw [abandon, ten_updTen_self]
  exact ⟨rfl, rfl, rfl, rfl, rfl⟩

/-- The state in which a reset abandons the tenant's work: GEN has advanced, and the tenant is RESETTING (R68, R93). -/
def resetting (t : Nat) (s : State) : State :=
  setF (fTState t) 2 (setF (fGen t) (getF s (fGen t) + 1) (jTenant 3 t (frameNo s) s))

theorem resetStart_active {t : Nat} (ht : t < 256) {s : State} (h : tActive s t = true) : resetStart t s =
    updTen t (fun x => { x with resetAt := some (now s), resetDisc := discardCount s t })
      (clearOwned t (abandon t (resetting t s))) := by
  have hKey : logKeys (fGen t).key = false := logKeys_of_abandonKeys (abandonKeys_tenant ht)
  have hNow : now (setF (fTState t) 2 (setF (fGen t) (getF s (fGen t) + 1) (jTenant 3 t (frameNo s) s))) = now s := by
    rw [now, time_of (s := s) (by simp), now]
  simp only [resetStart]
  rw [if_pos (by simpa [tActive] using h), getF_jTenant _ _ _ _ _ hKey, hNow]
  rfl

/-- A tenant reset that begins (R68, R93). -/
theorem resetStart_begins {t : Nat} (ht : t < 256) {s : State} (h : tActive s t = true) :
    getF (resetStart t s) (fTState t) = 2 ∧ getF (resetStart t s) (fGen t) = (getF s (fGen t) + 1) % 65536 ∧
    (ten (resetStart t s) t).resetAt = some (now s) ∧ (ten (resetStart t s) t).backlog = [] ∧
    (ten (resetStart t s) t).outs = [] ∧ (ten (resetStart t s) t).handed = [] ∧ (ten (resetStart t s) t).released = [] ∧
    (ten (resetStart t s) t).outFill = 0 := by
  have hTen : ten (clearOwned t (abandon t (resetting t s))) t = ten (abandon t (resetting t s)) t :=
    ten_of (tenants_of (clearOwned_view _ (by simp) ..)) t
  have hKeep := (abandon_regs t (resetting t s)).trans (clearOwned_regs t _)
  rw [resetStart_active ht h, ten_updTen_self, hTen, getF_updTen, getF_updTen, hKeep.getF _ (abandonKeys_tenant ht),
    hKeep.getF _ (abandonKeys_tenant ht)]
  have hGone := ten_abandon t (resetting t s)
  generalize ten (abandon t (resetting t s)) t = y at hGone ⊢
  refine ⟨?_, ?_, rfl, hGone⟩
  · rw [resetting, getF_setF_self _ _ _ rfl]
    rfl
  · rw [resetting, getF_setF_apart _ _ (by simp [Fld.apart, Fld.ok, fTState, fGen, fld]), getF_setF_self _ _ _ rfl]
    rfl

theorem resetStart_idle {t : Nat} {s : State} (h : tActive s t = false) : resetStart t s = s := by
  rw [resetStart, if_neg (by simpa [tActive] using h)]

theorem tenantReset_completes {s : State} {x : TCmd} (h : tActive s x.tenant.val = true) (hFlags : x.flags.toNat < 16)
    (hMax : x.payload.length ≤ 52) : Completes (.tenantReset x) s (fun u =>
      getF u (fTState x.tenant.val) = 2 ∧ getF u (fGen x.tenant.val) = (getF s (fGen x.tenant.val) + 1) % 65536 ∧
      (ten u x.tenant.val).resetAt = some (now s) ∧ (ten u x.tenant.val).backlog = [] ∧ (ten u x.tenant.val).outs = [] ∧
      (ten u x.tenant.val).handed = [] ∧ (ten u x.tenant.val).released = [] ∧ (ten u x.tenant.val).outFill = 0) :=
  ⟨_, (exec_tenantCommand tform_tenantReset ⟨h, hFlags, Nat.zero_le _, hMax⟩ (by decide)).trans
    (congrArg _ (tenantCommand_reset x s)), resetStart_begins x.tenant.isLt h⟩

theorem exec_tenantResetGo (s : State) (c : CoreId) (v : Word) : exec (.tenantResetGo c v) s =
    .next (if supCore s c then (if v.getLsbD 8 then resetStart (bitsOf v 7 0) s else s) else busErr c 0x4800C400 s) := rfl

theorem tenantResetGo_completes {s : State} {c : CoreId} {v : Word} (hSup : supCore s c = true) (hGo : v.getLsbD 8 = true)
    (h : tActive s (bitsOf v 7 0) = true) : Completes (.tenantResetGo c v) s (fun u =>
      getF u (fTState (bitsOf v 7 0)) = 2 ∧ getF u (fGen (bitsOf v 7 0)) = (getF s (fGen (bitsOf v 7 0)) + 1) % 65536 ∧
      (ten u (bitsOf v 7 0)).resetAt = some (now s) ∧ (ten u (bitsOf v 7 0)).outs = [] ∧
      (ten u (bitsOf v 7 0)).handed = []) := by
  obtain ⟨hState, hGen, hAt, -, hOuts, hHanded, -⟩ := resetStart_begins (bitsOf_lt v 7 0) h
  refine ⟨_, exec_tenantResetGo s c v, ?_⟩
  rw [if_pos hSup, if_pos hGo]
  exact ⟨hState, hGen, hAt, hOuts, hHanded⟩

theorem tenantResetGo_refused (s : State) (c : CoreId) (v : Word) :
    (supCore s c = true → v.getLsbD 8 = false ∨ tActive s (bitsOf v 7 0) = false → exec (.tenantResetGo c v) s = .next s) ∧
    (supCore s c = false → exec (.tenantResetGo c v) s = .next (busErr c 0x4800C400 s)) := by
  rw [exec_tenantResetGo]
  refine ⟨fun hSup hNot => ?_, fun hSup => by rw [hSup, if_neg Bool.false_ne_true]⟩
  rw [if_pos hSup]
  rcases hNot with hNot | hNot
  · rw [hNot, if_neg Bool.false_ne_true]
  · rw [resetStart_idle hNot, ite_self]

/-! ### Only the administration page's entry of the tenants' table changes (R307) -/

/-- Every entry of the tenants' table but the administration page's is that of `s`. -/
structure TenantsSame (s u : State) : Prop where
  ten : ∀ t, t ≠ 256 → ten u t = ten s t

namespace TenantsSame

theorem refl (s : State) : TenantsSame s s := ⟨fun _ _ => rfl⟩

theorem trans {s t u : State} (h : TenantsSame s t) (g : TenantsSame t u) : TenantsSame s u :=
  ⟨fun n hn => (g.ten n hn).trans (h.ten n hn)⟩

theorem of_tenants {s u : State} (h : u.tenants = s.tenants) : TenantsSame s u := ⟨fun n _ => ten_of h n⟩

theorem updTen (f : TenantSt → TenantSt) (s : State) : TenantsSame s (Machine.updTen 256 f s) :=
  ⟨fun _ hn => ten_updTen_ne _ _ _ hn⟩

theorem ite {s t u : State} {p : Prop} [Decidable p] (ht : TenantsSame s t) (hu : TenantsSame s u) :
    TenantsSame s (if p then t else u) := by
  split
  · exact ht
  · exact hu

theorem each {α : Type} {f : α → State → State} (h : ∀ x s, TenantsSame s (f x s)) (xs : List α) (s : State) :
    TenantsSame s (Machine.each xs f s) := by
  induction xs generalizing s with
  | nil => exact refl s
  | cons x xs ih => exact (h x s).trans (ih _)

theorem setF (f : Fld) (v : Nat) (s : State) : TenantsSame s (Machine.setF f v s) := of_tenants (setF_tenants ..)

theorem jAdmin (sl : Slot) (s : State) : TenantsSame s (Machine.jAdmin sl s) := of_tenants (tenants_of (by simp))

theorem issueVector (v : Nat) (s : State) : TenantsSame s (Machine.issueVector 256 v s) := of_tenants (tenants_of (by simp))

theorem bellSet (b : Nat) (s : State) : TenantsSame s (Machine.bellSet 256 b s).2 := by
  have hAgain : TenantsSame s (if isSet s (fBellOut 256 b) then bellAgain 256 b s else s) :=
    ite (by unfold bellAgain; exact updTen ..) (refl s)
  refine hAgain.trans ?_
  exact of_tenants (u := flag (fBellOut 256 b) _) rfl

theorem ringBell (b : Nat) (s : State) : TenantsSame s (Machine.ringBell 256 b s) :=
  ite ((bellSet b s).trans (issueVector ..)) (bellSet b s)

theorem placeRing (rel : Nat) (sl : Slot) (s : State) : TenantsSame s (Machine.placeRing 256 rel sl s).2 := by
  have hPut : ∀ i u, TenantsSame u (ringPut 256 0x800 i sl u) := fun i u => of_tenants (tenants_of (by simp))
  simp only [Machine.placeRing, if_true]
  exact (((hPut _ s).trans (setF ..)).trans (jAdmin ..)).trans (bellSet ..)

theorem placeSlot (rel : Nat) (sl : Slot) (s : State) : TenantsSame s (Machine.placeSlot 256 rel sl s).2 := by
  have hPlace : ∀ sl u, TenantsSame u
      (if (Machine.ten u 256).backlog.isEmpty && decide (0 < ringFree u 256) then Machine.placeRing 256 rel sl u
       else (none, Machine.setF (fBacklog 256) ((Machine.ten u 256).backlog.length + 1)
         (Machine.updTen 256 (fun x => { x with backlog := x.backlog ++ [(rel, sl)] }) u))).2 := by
    intro sl u
    split
    · exact placeRing ..
    · exact (updTen ..).trans (setF ..)
  exact (ite (updTen ..) (refl s)).trans (hPlace _ _)

theorem placeSlots (rel : Nat) (sls : List Slot) (s : State) : TenantsSame s (Machine.placeSlots 256 rel sls s).2 := by
  induction sls generalizing s with
  | nil => exact refl s
  | cons sl sls ih => exact (placeSlot rel sl s).trans (ih _)

theorem placeMsgs (rel n : Nat) (sls : List Slot) (s : State) : TenantsSame s (Machine.placeMsgs 256 rel n sls s).2 := by
  have hLog : ∀ f u, TenantsSame u (jTenant 6 256 f u) := fun f u => of_tenants (tenants_of (by simp))
  have hAdd : ∀ k u, TenantsSame u (addF (fOutLost 256) k u) := fun k u => of_tenants rfl
  have hLost : ∀ k u, TenantsSame u (Machine.ringBell 256 4 (jTenant 6 256 (frameNo u) (addF (fOutLost 256) k
      (Machine.updTen 256 (fun x => { x with gapNext := true }) u)))) := fun k u =>
    (((updTen ..).trans (hAdd ..)).trans (hLog ..)).trans (ringBell ..)
  induction n generalizing sls s with
  | zero => exact refl s
  | succ n ih =>
    unfold Machine.placeMsgs
    split
    · exact refl s
    · next m rest _ _ =>
      have hMsg : ∀ (p : Prop) [Decidable p], TenantsSame s (if p then Machine.placeSlots 256 rel m s
          else ([], Machine.ringBell 256 4 (jTenant 6 256 (frameNo s) (addF (fOutLost 256) m.length
            (Machine.updTen 256 (fun x => { x with gapNext := true }) s))))).2 := by
        intro p _
        split
        · exact placeSlots ..
        · exact hLost _ _
      exact (hMsg _).trans (ih _ _)

theorem admAnswer (op tag status state : Nat) (p : List Byte) (s : State) :
    TenantsSame s (Machine.admAnswer op tag status state p s) := by
  have hLog : ∀ sls u, TenantsSame u (Machine.each sls Machine.jAdmin u) := each jAdmin
  have hKeep : ∀ sls u, TenantsSame u (mgmtKeep sls u) := fun sls u => of_tenants (tenants_of (by simp))
  have hBack : ∀ sls u, TenantsSame u (fwdBack sls u) := fun sls u => of_tenants (tenants_of (by simp))
  exact ite ((hLog _ s).trans (hKeep ..)) (ite ((hLog _ s).trans (hBack ..))
    ((placeMsgs ..).trans (each issueVector _ _)))

theorem admSkip (n : Nat) (s : State) : TenantsSame s (Machine.admSkip n s) := by
  have hTake : ∀ u, TenantsSame u (admTakeHead (useFresh u)) := fun u => of_tenants (tenants_of (by simp))
  induction n generalizing s with
  | zero => exact refl s
  | succ n ih =>
    unfold Machine.admSkip
    dsimp only
    split
    · exact refl s
    · split
      · exact ((hTake s).trans (admAnswer ..)).trans (ih _)
      · exact refl s

theorem admDone (op key status state : Nat) (p : List Byte) (s : State) :
    TenantsSame s (Machine.admDone op key status state p s) := by
  have hNone : TenantsSame s (setAdmin none s) := of_tenants rfl
  unfold Machine.admDone
  split
  · refine ite (hNone.trans (ite ?_ ?_)) (refl s)
    · exact (jAdmin ..).trans (admSkip ..)
    · exact (admAnswer ..).trans (admSkip ..)
  · exact refl s

end TenantsSame

/-! ### The state block is rebuilt (R94, R289) -/

/-- The class idle levels of a tenant's devices (R94). -/
def idleDevs (t : Nat) (s : State) : State :=
  each devIds (fun d s => if (dev s t d).bound then updDev t d idleLevels s else s) s

theorem regs_idleDevs (t : Nat) (s : State) : (idleDevs t s).regs = s.regs :=
  regs_of (each_view _ _ _ (fun d u => by split <;> rfl) s)

theorem tenants_idleDevs (t : Nat) (s : State) : (idleDevs t s).tenants = s.tenants :=
  tenants_of (each_view _ _ _ (fun d u => by split <;> rfl) s)

theorem rebuild_eq (t : Nat) (s : State) : rebuild t s =
    updTen t (fun x => { x with resetAt := none, submit := [], cleared := true, backlog := [], gapNext := false })
      (idleDevs t (setReg (pageK t 0x2C)
        (BitVec.ofNat 32 (65536 * getF (setReg (0x45000400 + 4 * t) 0 (pageReset t s)) (fGen t) +
          min 65535 (ten (setReg (0x45000400 + 4 * t) 0 (pageReset t s)) t).resetDisc))
        (setReg (0x45000400 + 4 * t) 0 (pageReset t s)))) := rfl

/-- Every mailbox page's registers are reset to the same words. -/
theorem regReset_pageK (p : Nat) {off : Nat} (h : off < 0x10000) : regReset (pageK p off) = regReset (pageK 0 off) := by
  have hRow : ∀ q, regRow (pageK q off) = findRow rowsPage off := by
    intro q
    rw [regRow, if_neg (by unfold pageK; omega), if_neg (by unfold pageK; omega)]
    congr 1
    unfold pageK
    omega
  rw [regReset, regReset, hRow, hRow]

section
variable {t : Nat} (s : State)

/-- The registers of a page that its reset clears read as at reset. -/
theorem reg_pageReset {off : Nat} (hlo : 8 ≤ off) (hhi : off < 0xF000) (hInfo : off ≠ 0x2C) :
    reg (pageReset t s) (pageK t off) = regReset (pageK 0 off) := by
  rw [pageReset, reg_clearRegs, if_pos (by simp [pageK]; omega), regReset_pageK _ (by omega)]

/-- The registers below the pages are none of a page's. -/
theorem reg_pageReset_low {k : Nat} (hk : k < 0x200000000) : reg (pageReset t s) k = reg s k := by
  rw [pageReset, reg_clearRegs, if_neg]
  simp only [Bool.and_eq_true, decide_eq_true_eq]
  unfold pageK
  omega

variable (ht : t < 256)
include ht

theorem regs_rebuild : (rebuild t s).regs =
    (setReg (pageK t 0x2C) (BitVec.ofNat 32 (65536 * getF s (fGen t) + min 65535 (ten s t).resetDisc))
      (setReg (0x45000400 + 4 * t) 0 (pageReset t s))).regs := by
  have hGen : getF (setReg (0x45000400 + 4 * t) 0 (pageReset t s)) (fGen t) = getF s (fGen t) := by
    rw [getF_setReg_ne _ _ _ (by simp [fGen, fld]), getF, reg_pageReset_low s (by simp [fGen, fld]; omega)]
    rfl
  have hTen : ten (setReg (0x45000400 + 4 * t) 0 (pageReset t s)) t = ten s t := rfl
  rw [rebuild_eq, hGen, hTen, updTen_regs, regs_idleDevs]

omit ht in
theorem ten_rebuild : ten (rebuild t s) t =
    { ten s t with resetAt := none, submit := [], cleared := true, backlog := [], gapNext := false } := by
  rw [rebuild_eq, ten_updTen_self, ten_of (tenants_idleDevs ..)]
  rfl

/-- Every register below the pages but the tenant's TENANT_FRAME is kept. -/
theorem reg_rebuild_low {k : Nat} (hk : k < 0x200000000) (hne : k ≠ 0x45000400 + 4 * t) : reg (rebuild t s) k = reg s k := by
  rw [reg, regs_rebuild s ht, ← reg, reg_setReg_ne _ _ (by unfold pageK; omega), reg_setReg_ne _ _ hne,
    reg_pageReset_low s hk]

theorem getF_rebuild_low (f : Fld) (hk : f.key < 0x200000000) (hne : f.key ≠ 0x45000400 + 4 * t) :
    getF (rebuild t s) f = getF s f := by
  rw [getF, reg_rebuild_low s ht hk hne, getF]

theorem reg_rebuild_frame : reg (rebuild t s) (0x45000400 + 4 * t) = 0 := by
  rw [reg, regs_rebuild s ht, ← reg, reg_setReg_ne _ _ (by unfold pageK; omega), reg_setReg_self]

theorem reg_rebuild_info : reg (rebuild t s) (pageK t 0x2C) =
    BitVec.ofNat 32 (65536 * getF s (fGen t) + min 65535 (ten s t).resetDisc) := by
  rw [reg, regs_rebuild s ht, ← reg, reg_setReg_self]

theorem reg_rebuild_page {off : Nat} (hlo : 8 ≤ off) (hhi : off < 0xF000) (hInfo : off ≠ 0x2C) :
    reg (rebuild t s) (pageK t off) = regReset (pageK 0 off) := by
  rw [reg, regs_rebuild s ht, ← reg, reg_setReg_ne _ _ (by unfold pageK; omega), reg_setReg_ne _ _ (by unfold pageK; omega),
    reg_pageReset s hlo hhi hInfo]

theorem vfOn_rebuild : vfOn (rebuild t s) t = vfOn s t := by
  have hHost : (rebuild t s).host = s.host := host_of (by simp)
  have hGroup : ∀ f : Fld, f = fGrpValid ∨ f = fGrpAdmitted ∨ f = fHeadStrap → isSet (rebuild t s) f = isSet s f := by
    rintro f (rfl | rfl | rfl)
    all_goals rw [isSet, getF_rebuild_low s ht _ (by decide) (by simp [fGrpValid, fGrpAdmitted, fHeadStrap, bit]; omega), isSet]
  rw [vfOn, awaitsGroup, hHost, hGroup _ (.inl rfl), hGroup _ (.inr (.inl rfl)), hGroup _ (.inr (.inr rfl)), vfOn, awaitsGroup]

end

/-! ### The tenant is served again (R66, R95, R400) -/

/-- The state of a tenant that is served again: DISABLED, DORMANT or ACTIVE. -/
def servedState (t : Nat) (s : State) : Nat :=
  if ((ten s t).configured && vfOn s t) = false then 0 else if 2 ≤ getF s (fPwr (t / 16)) then 3 else 1

theorem servedState_lt (t : Nat) (s : State) : servedState t s < 8 := by
  unfold servedState
  split_ifs <;> decide

theorem servedState_rebuild {t : Nat} (ht : t < 256) (s : State) : servedState t (rebuild t s) = servedState t s := by
  rw [servedState, vfOn_rebuild s ht, ten_rebuild,
    getF_rebuild_low s ht _ (by simp [fPwr, fld]; omega) (by simp [fPwr, fld]; omega), servedState]

section
variable (t : Nat) (s : State)

theorem regs_tenantEnable : (tenantEnable t s).regs = (setF (fTState t) (servedState t s) s).regs := by
  unfold tenantEnable servedState
  cases hOn : (ten s t).configured && vfOn s t
  · rfl
  · by_cases hDark : 2 ≤ getF s (fPwr (t / 16))
    · simp [hDark]
    · simp only [hDark, if_false, if_true]
      exact regs_of (by simp)

theorem tenants_tenantEnable : (tenantEnable t s).tenants = s.tenants := tenants_of (by simp)

end

/-! ### The doorbell of a page (R289) -/

/-- Keys of the registers that a doorbell changes: DOORBELL_OUT, and the pending bits of the MSI-X table. -/
def bellKeys (t k : Nat) : Bool := decide (k = pageK t 0x1C ∨ k = pageK t 0xF800)

theorem issueVector_regs (t v : Nat) (s : State) :
    RegsOnly (fun k => decide (k = pageK t 0xF800)) s (issueVector t v s) := by
  refine RegsOnly.ite (RegsOnly.setF _ _ (decide_eq_true rfl)) (RegsOnly.ite ?_ (RegsOnly.of_regs rfl))
  exact RegsOnly.of_regs (regs_of (by simp))

theorem regs_bellSet (t b : Nat) (s : State) : (bellSet t b s).2.regs = (setF (fBellOut t b) 1 s).regs := by
  unfold bellSet
  cases isSet s (fBellOut t b) <;> rfl

theorem ringBell_regs (t b : Nat) (s : State) : RegsOnly (bellKeys t) s (ringBell t b s) := by
  have hSet : RegsOnly (bellKeys t) s (bellSet t b s).2 :=
    (RegsOnly.setF (f := fBellOut t b) 1 s (decide_eq_true (.inl rfl))).trans (RegsOnly.of_regs (regs_bellSet t b s))
  have hIssue : ∀ v u, RegsOnly (bellKeys t) u (issueVector t v u) := fun v u =>
    (issueVector_regs t v u).mono fun k hk => by
      simp only [bellKeys, decide_eq_false_iff_not, not_or] at hk ⊢
      exact hk.2
  exact RegsOnly.ite (hSet.trans (hIssue ..)) hSet

theorem isSet_ringBell (t : Nat) {b : Nat} (hb : b < 32) (s : State) : isSet (ringBell t b s) (fBellOut t b) = true := by
  have hSet : getF (bellSet t b s).2 (fBellOut t b) = 1 := by
    rw [(RegsOnly.of_regs (K := fun _ => false) (regs_bellSet t b s)).getF _ rfl,
      getF_setF_self _ _ _ (by simp [Fld.ok, fBellOut, bit]; omega)]
    simp [fBellOut, bit]
  have hIssue : ∀ v u, getF (issueVector t v u) (fBellOut t b) = getF u (fBellOut t b) := fun v u =>
    (issueVector_regs t v u).getF _ (by simp [fBellOut, bit, pageK])
  rw [isSet_iff]
  unfold ringBell
  dsimp only
  split
  · rw [hIssue, hSet]; decide
  · rw [hSet]; decide

theorem resetAt_ringBell (t b : Nat) (s : State) : (ten (ringBell t b s) t).resetAt = (ten s t).resetAt := by
  have hSet : (ten (bellSet t b s).2 t).resetAt = (ten s t).resetAt := by
    unfold bellSet
    dsimp only
    split
    · show (ten (bellAgain t b s) t).resetAt = _
      rw [bellAgain, ten_updTen_self]
    · rfl
  unfold ringBell
  dsimp only
  split
  · rw [ten_of (s := (bellSet t b s).2) (tenants_of (by simp)), hSet]
  · exact hSet

/-! ### A reset completes (R93–R95) -/

theorem admKeys_page_below {t off : Nat} (ht : t < 256) (ho : off < 0x10000) : admKeys (pageK t off) = false := by
  simp only [admKeys, logKeys, icKeys, icK, if_true, pageK, Bool.or_eq_false_iff]
  exact ⟨⟨⟨decide_eq_false (by omega), decide_eq_false (by omega)⟩, decide_eq_false (by omega)⟩, decide_eq_false (by omega)⟩

/-- The registers that the report of a completed reset leaves as they are (R93, R297). -/
def reportKeys (t k : Nat) : Bool := admKeys k || bellKeys t k

/-- The state that a completed reset reports: the tenant is served again. -/
def served (t : Nat) (s : State) : State := jTenant 4 t (frameNo s) (tenantEnable t (rebuild t s))

theorem resetComplete_eq (t : Nat) (s : State) : resetComplete t s =
    admDone 0x41 t 0 0 (le 2 (getF (ringBell t 6 (served t s)) (fGen t)) ++
      le 2 (min 65535 (ten (ringBell t 6 (served t s)) t).resetDisc)) (ringBell t 6 (served t s)) := by
  simp only [resetComplete, served]

theorem resetComplete_regs (t : Nat) (s : State) :
    RegsOnly (reportKeys t) (tenantEnable t (rebuild t s)) (resetComplete t s) := by
  have hAdm : ∀ k, reportKeys t k = false → admKeys k = false ∧ bellKeys t k = false := fun k hk => by
    rwa [reportKeys, Bool.or_eq_false_iff] at hk
  rw [resetComplete_eq]
  refine RegsOnly.trans (RegsOnly.trans ((jTenant_log ..).mono fun k hk => logKeys_of_admKeys (hAdm k hk).1)
    ((ringBell_regs ..).mono fun k hk => (hAdm k hk).2)) ((admDone_adm ..).mono fun k hk => (hAdm k hk).1)

theorem resetComplete_bell {t : Nat} (ht : t < 256) (s : State) : isSet (resetComplete t s) (fBellOut t 6) = true := by
  rw [resetComplete_eq, (admDone_adm ..).isSet _ (admKeys_page_below ht (by decide))]
  exact isSet_ringBell t (by decide) _

theorem resetComplete_resetAt {t : Nat} (ht : t < 256) (s : State) : (ten (resetComplete t s) t).resetAt = none := by
  have hServed : ten (served t s) t = ten (rebuild t s) t :=
    ten_of (tenants_of (by simp [served])) t
  rw [resetComplete_eq, (TenantsSame.admDone ..).ten t (by omega), resetAt_ringBell, hServed, ten_rebuild]

/-- Registers that a tenant's reset completes with: those of its page but the doorbell, and those below the pages. -/
theorem reportKeys_page {t off : Nat} (ht : t < 256) (ho : off < 0xF000) (hBell : off ≠ 0x1C) :
    reportKeys t (pageK t off) = false := by
  rw [reportKeys, admKeys_page_below ht (by omega), Bool.false_or]
  refine decide_eq_false ?_
  unfold pageK
  omega

theorem reportKeys_low {t k : Nat} (hk : k < 0x200000000) (hLog : logKeys k = false) : reportKeys t k = false := by
  simp only [reportKeys, admKeys, hLog, bellKeys, pageK, Bool.or_eq_false_iff]
  exact ⟨⟨trivial, decide_eq_false (by omega)⟩, decide_eq_false (by omega)⟩

/-- What a completed reset leaves of the registers: those of the rebuilt block, and the tenant's state. -/
theorem resetComplete_rebuilt {t : Nat} (ht : t < 256) (s : State) :
    RegsOnly (reportKeys t) (setF (fTState t) (servedState t s) (rebuild t s)) (resetComplete t s) := by
  have hServed := regs_tenantEnable t (rebuild t s)
  rw [servedState_rebuild ht] at hServed
  exact (RegsOnly.of_regs hServed).trans (resetComplete_regs t s)

/-- A ring index of the tenant's page reads 0 when the reset completes. -/
theorem getF_resetComplete_page {t off : Nat} (ht : t < 256) (s : State) {f : Fld} (hKey : f.key = pageK t off)
    (hlo : 8 ≤ off) (hhi : off < 0x1C) (hZero : regReset (pageK 0 off) = 0) : getF (resetComplete t s) f = 0 := by
  rw [getF, hKey, (resetComplete_rebuilt ht s).reg _ (reportKeys_page ht (by omega) (by omega)),
    reg_setF_ne _ _ _ (by simp [fTState, fld, pageK]; omega), reg_rebuild_page s ht hlo (by omega) (by omega), hZero]
  simp [bitsOf]

theorem tenantResetComplete_completes {s : State} {t : TenantId} (h : getF s (fTState t.val) = 2)
    (hFenced : fencedAll s t.val = true) : Completes (.tenantResetComplete t) s (fun u =>
      getF u (fTState t.val) = (if ((ten s t.val).configured && vfOn s t.val) = false then 0
        else if 2 ≤ getF s (fPwr (t.val / 16)) then 3 else 1) ∧
      getF u (fGen t.val) = getF s (fGen t.val) ∧ reg u (0x45000400 + 4 * t.val) = 0 ∧
      getF u (fInHead t.val) = 0 ∧ getF u (fInTail t.val) = 0 ∧ getF u (fOutHead t.val) = 0 ∧ getF u (fOutTail t.val) = 0 ∧
      reg u (pageK t.val 0x2C) =
        BitVec.ofNat 32 (65536 * getF s (fGen t.val) + min 65535 (ten s t.val).resetDisc) ∧
      isSet u (fBellOut t.val 6) = true ∧ (ten u t.val).resetAt = none) := by
  have hExec : exec (.tenantResetComplete t) s = .next (resetComplete t.val s) := by
    show done _ = _
    rw [if_pos ⟨h, hFenced⟩, done]
  have hKeep := resetComplete_rebuilt t.isLt s
  have hLow : logKeys (0x4800C000 + 4 * t.val) = false := logKeys_of_abandonKeys (abandonKeys_tenant t.isLt)
  have hFrame : logKeys (0x45000400 + 4 * t.val) = false := by
    simp [logKeys, icKeys, icK]
    omega
  refine ⟨_, hExec, ?_, ?_, ?_, getF_resetComplete_page (off := 8) t.isLt s rfl (by decide) (by decide) rfl,
    getF_resetComplete_page (off := 8) t.isLt s rfl (by decide) (by decide) rfl,
    getF_resetComplete_page (off := 0x10) t.isLt s rfl (by decide) (by decide) rfl,
    getF_resetComplete_page (off := 0xC) t.isLt s rfl (by decide) (by decide) rfl, ?_,
    resetComplete_bell t.isLt s, resetComplete_resetAt t.isLt s⟩
  · rw [hKeep.getF _ (reportKeys_low (by simp [fTState, fld]; omega) hLow), getF_setF_self _ _ _ rfl]
    exact Nat.mod_eq_of_lt (servedState_lt t.val s)
  · rw [hKeep.getF _ (reportKeys_low (by simp [fGen, fld]; omega) hLow),
      getF_setF_apart _ _ (by simp [Fld.apart, Fld.ok, fTState, fGen, fld]),
      getF_rebuild_low s t.isLt _ (by simp [fGen, fld]; omega) (by simp [fGen, fld])]
  · rw [hKeep.reg _ (reportKeys_low (by omega) hFrame), reg_setF_ne _ _ _ (by simp [fTState, fld]), reg_rebuild_frame s t.isLt]
  · rw [hKeep.reg _ (reportKeys_page t.isLt (by decide) (by decide)), reg_setF_ne _ _ _ (by simp [fTState, fld, pageK]; omega),
      reg_rebuild_info s t.isLt]

theorem tenantResetComplete_waits {s : State} {t : TenantId} (h : getF s (fTState t.val) ≠ 2 ∨ fencedAll s t.val = false) :
    exec (.tenantResetComplete t) s = .next s := by
  show done _ = _
  rw [if_neg, done]
  rintro ⟨hState, hFenced⟩
  rcases h with h | h
  · exact h hState
  · rw [h] at hFenced; cases hFenced

end Sys2Proof.Machine

open Sys2Proof Sys2Proof.Machine

/-- Settles O14: a reset begins by either command, and completes once its transfers are fenced. -/
theorem tenantResets : Obligations.TenantResets := by
  unfold Obligations.TenantResets
  exact ⟨fun s x => tenantReset_completes, fun s c v => tenantResetGo_completes, fun s c v => tenantResetGo_refused s c v,
    fun s t => tenantResetComplete_completes, fun s t => tenantResetComplete_waits⟩
end

section
namespace Sys2Proof.Machine

/-! ### The exchanges of a probing (R121, R122, R125, R126, R467) -/

theorem port_jPort (ev p : Nat) (data : List Byte) (s : State) (q : Nat) : port (jPort ev p data s) q = port s q :=
  port_of (ports_of (by simp)) q

theorem now_probeRun (n p : Nat) (img : List Byte) (st : PStep) (s : State) : now (probeRun n p img st s) = now s :=
  congrArg TimeSt.turn (time_of (by simp))

theorem now_attachRecorded (p : Nat) (img : List Byte) (s : State) : now (attachRecorded p img s).2 = now s :=
  congrArg TimeSt.turn (time_of (by simp))

theorem readBytes_of {s t : State} (h : t.mem = s.mem) (a n : Nat) : readBytes t a n = readBytes s a n := by
  induction n generalizing a with
  | zero => rfl
  | succ n ih => rw [readBytes, readBytes, ih, readB, readB, h]

theorem settleOf_of {s t : State} (h : t.mem = s.mem) (p : Nat) : settleOf t p = settleOf s p := by
  rw [settleOf, settleOf, readBytes_of h]

theorem settleOf_goTo (e : Nat) (s : State) (p : Nat) : settleOf (goTo e s) p = settleOf s p := settleOf_of rfl p

theorem settleOf_updProbe (i : Nat) (f : Probing → Probing) (s : State) (p : Nat) :
    settleOf (updProbe i f s) p = settleOf s p := settleOf_of rfl p

theorem settleOf_jPort (ev i : Nat) (data : List Byte) (s : State) (p : Nat) :
    settleOf (jPort ev i data s) p = settleOf s p := settleOf_of (mem_of (by simp)) p

theorem port_updProbe (p : Nat) (f : Probing → Probing) (s : State) :
    port (updProbe p f s) p = { port s p with probing := (port s p).probing.map f } := by rw [updProbe, port_updPort_self]

/-- From `s` to `u` port p has begun or repeated an exchange: it stays in its state, and its windows and tries stand. -/
structure Exchanges (s u : State) (p : Nat) (ph : Phase) (q m left : Nat) : Prop where
  state : (port u p).state = (port s p).state
  attachEnd : (port u p).attachEnd = (port s p).attachEnd
  tryAt : (port u p).tryAt = (port s p).tryAt
  probing : ∃ b, (port u p).probing = some b ∧ b.phase = ph ∧ b.probe = q ∧ b.inMode = m ∧ b.left = left

/-- An exchange counts from an earlier state too, where the port was in the same state with the same windows and tries. -/
theorem Exchanges.of_port {s t u : State} {p : Nat} {ph : Phase} {q m left : Nat} (h : Exchanges t u p ph q m left)
    (hState : (port t p).state = (port s p).state) (hEnd : (port t p).attachEnd = (port s p).attachEnd)
    (hTry : (port t p).tryAt = (port s p).tryAt) : Exchanges s u p ph q m left :=
  ⟨h.state.trans hState, h.attachEnd.trans hEnd, h.tryAt.trans hTry, h.probing⟩

section
variable {img : List Byte} {q v0 : Nat} (hSend : Sendable img q v0)
include hSend

/-- A request that can be sent is sent in the exchange that is under way (R121). -/
theorem sendReq_exchanges {s : State} {p : Nat} {b : Probing} (hb : (port s p).probing = some b) :
    ∃ u, sendReq p q v0 img s = some u ∧ Exchanges s u p b.phase b.probe b.inMode b.left := by
  unfold sendReq
  by_cases hReq : probeReq img q = 0xFF
  · rw [if_pos hReq]
    refine ⟨_, rfl, ?_, ?_, ?_, ?_⟩ <;> simp [port_updProbe, hb]
  · obtain ⟨bs, hRender⟩ := Option.isSome_iff_exists.mp (hSend.resolve_left hReq)
    rw [if_neg hReq, hRender]
    refine ⟨_, rfl, ?_, ?_, ?_, ?_⟩ <;> simp [hb]

/-- The step that begins an exchange ends with its request sent or its window open (R121): it has all its retries left. -/
theorem probeRun_exch (n p : Nat) (ph : Phase) (m : Nat) (s : State) :
    Exchanges s (probeRun (n + 1) p img (.exch ph q m v0) s) p ph q m (probeRetries img q) := by
  simp only [probeRun]
  generalize hBegun : jPort 1 p _ (updPort p _ s) = t
  have hPort := congrArg (fun u => port u p) hBegun.symm
  simp only [port_jPort, port_updPort_self] at hPort
  obtain ⟨u, hu, hx⟩ := sendReq_exchanges hSend (congrArg PortSt.probing hPort)
  simp only [hu]
  refine hx.of_port ?_ ?_ ?_ <;> rw [hPort]

end

/-- A probing begins with its first CONTACT probe, in the last mode of the table where the probe names none (R122). -/
theorem probeRun_pass {img : List Byte} {q : Nat} (hFirst : firstContact img = some q)
    (hSend : Sendable img q (modeCmdset img (modeOf img q (nmodes img - 1)))) (n p : Nat) (s : State) :
    Exchanges s (probeRun (n + 3) p img .pass s) p (.contact q) q (modeOf img q (nmodes img - 1)) (probeRetries img q) := by
  have hFind : (probes img).find? (fun r => decide (0 ≤ r) && probeContact img r) = some q := by
    simpa [firstContact] using hFirst
  rw [probeRun, probeRun, hFind]
  have hCur : ∀ b : Probing, probingOf (updPort p (fun x => { x with probing := some b }) s) p = b := fun b => by
    simp [probingOf]
  simp only [hCur]
  refine (probeRun_exch hSend n p (.contact q) _ _).of_port ?_ ?_ ?_ <;> rw [port_updPort_self]

/-! ### Attach is recorded (R125, R126) -/

/-- Attach at a port that knows its partner: the verify probe is to be exchanged. -/
theorem attachRecorded_known {p : Nat} {img : List Byte} {s : State} (h : Known s p img = true) :
    (attachRecorded p img s).1 = .exch .verify (verifyProbe img) (modeOf img (verifyProbe img) (settleOf s p).mode)
      (modeCmdset img (modeOf img (verifyProbe img) (settleOf s p).mode)) ∧
    (port (attachRecorded p img s).2 p).state = (if (port s p).state = 5 then 6 else 1) ∧
    (port (attachRecorded p img s).2 p).attachEnd = none := by
  unfold Known at h
  simp only [attachRecorded, h, if_true, port_portState, port_updPort_self, and_self]

/-- Attach at any other port: it is PROBING, from the beginning. -/
theorem attachRecorded_fresh {p : Nat} {img : List Byte} {s : State} (h : Known s p img = false) :
    (attachRecorded p img s).1 = .pass ∧ (port (attachRecorded p img s).2 p).state = 1 ∧
    (port (attachRecorded p img s).2 p).attachEnd = none := by
  unfold Known at h
  simp only [attachRecorded, h, Bool.false_eq_true, if_false, port_portState, port_updPort_self, and_self]

theorem known_goTo (e : Nat) (s : State) (p : Nat) (img : List Byte) : Known (goTo e s) p img = Known s p img := by
  rw [Known, settleOf_goTo, admEpoch, reg_goTo, ← admEpoch, ← Known]

theorem atDue_waits {o : Option Nat} {s : State} (h : ∀ e, o = some e → dueNow s e = false) (k : State → State) :
    atDue o k s = .next s := by
  cases o with
  | none => rfl
  | some e => rw [atDue, h e rfl, if_neg Bool.false_ne_true, done]

/-! ### ATTACH_WINDOW_END and ATTACH_TRY (R467) -/

theorem portImg_goTo (e : Nat) (s : State) (p : Nat) : portImg (goTo e s) p = portImg s p := rfl

section
variable {s : State} {p : PortId} {img : List Byte} {e q : Nat} (hServed : Served s p.val img)
  (hAbsent : (port s p.val).state = 0 ∨ (port s p.val).state = 5)
include hServed hAbsent

theorem execAttachWindowEnd_due (hEnd : (port s p.val).attachEnd = some e) (hDue : dueNow s e = true) :
    exec (.attachWindowEnd p) s = .next (probeRun probeFuel p.val img (attachRecorded p.val img (goTo e s)).1
      (attachRecorded p.val img (goTo e s)).2) := by
  obtain ⟨-, hByp, hImg⟩ := hServed
  show execAttachWindowEnd p s = _
  rw [execAttachWindowEnd, if_neg (by simpa [hByp] using or_iff_not_imp_left.mp hAbsent), hEnd, atDue_dueNow hDue,
    portImg_goTo, hImg]

theorem attachWindowEnd_fresh (hEnd : (port s p.val).attachEnd = some e) (hDue : dueNow s e = true)
    (hKnown : Known s p.val img = false) (hFirst : firstContact img = some q)
    (hSend : Sendable img q (modeCmdset img (modeOf img q (nmodes img - 1)))) :
    Completes (.attachWindowEnd p) s (fun u =>
      now u = max (now s) e ∧ (port u p.val).state = 1 ∧ (port u p.val).attachEnd = none ∧
      (port u p.val).probing.map (fun b => b.phase) = some (.contact q) ∧
      (port u p.val).probing.map (fun b => b.left) = some (probeRetries img q)) := by
  refine ⟨_, execAttachWindowEnd_due hServed hAbsent hEnd hDue, ?_⟩
  obtain ⟨hStep, hState, hNone⟩ := attachRecorded_fresh ((known_goTo e s p.val img).trans hKnown)
  rw [now_probeRun, now_attachRecorded, hStep]
  obtain ⟨hSt, hWin, -, b, hb, hPhase, -, -, hLeft⟩ :=
    probeRun_pass hFirst hSend 997 p.val (attachRecorded p.val img (goTo e s)).2
  refine ⟨rfl, hSt.trans hState, hWin.trans hNone, ?_, ?_⟩
  · exact (congrArg _ hb).trans (congrArg some hPhase)
  · exact (congrArg _ hb).trans (congrArg some hLeft)

theorem attachWindowEnd_known (hEnd : (port s p.val).attachEnd = some e) (hDue : dueNow s e = true)
    (hKnown : Known s p.val img = true)
    (hSend : Sendable img (verifyProbe img) (modeCmdset img (modeOf img (verifyProbe img) (settleOf s p.val).mode))) :
    Completes (.attachWindowEnd p) s (fun u =>
      (port u p.val).state = (if (port s p.val).state = 5 then 6 else 1) ∧ (port u p.val).attachEnd = none ∧
      (port u p.val).probing.map (fun b => (b.phase, b.probe, b.left)) =
        some (.verify, verifyProbe img, probeRetries img (verifyProbe img))) := by
  refine ⟨_, execAttachWindowEnd_due hServed hAbsent hEnd hDue, ?_⟩
  obtain ⟨hStep, hState, hNone⟩ := attachRecorded_known ((known_goTo e s p.val img).trans hKnown)
  rw [hStep, settleOf_goTo]
  obtain ⟨hSt, hWin, -, b, hb, hPhase, hProbe, -, hLeft⟩ :=
    probeRun_exch hSend 999 p.val .verify (modeOf img (verifyProbe img) (settleOf s p.val).mode)
      (attachRecorded p.val img (goTo e s)).2
  refine ⟨hSt.trans hState, hWin.trans hNone, (congrArg _ hb).trans ?_⟩
  rw [Option.map_some, hPhase, hProbe, hLeft]

theorem attachTry_completes (hIdle : (port s p.val).probing = none) (hTry : (port s p.val).tryAt = some e)
    (hDue : dueNow s e = true) (hFirst : firstContact img = some q)
    (hSend : Sendable img q (modeCmdset img (modeOf img q (nmodes img - 1)))) :
    Completes (.attachTry p) s (fun u =>
      (port u p.val).state = (port s p.val).state ∧ (port u p.val).tryAt = some (max (now s) e + usTurns (attachUs img)) ∧
      (port u p.val).probing.map (fun b => b.phase) = some (.tryAttach q)) := by
  obtain ⟨-, hByp, hImg⟩ := hServed
  have hExec : exec (.attachTry p) s = .next (probeRun probeFuel p.val img
      (.exch (.tryAttach q) q (modeOf img q (nmodes img - 1)) (modeCmdset img (modeOf img q (nmodes img - 1))))
      (updPort p.val (fun x => { x with tryAt := some (max (now s) e + usTurns (attachUs img)) }) (goTo e s))) := by
    show execAttachTry p s = _
    unfold firstContact at hFirst
    rw [execAttachTry, if_neg (by simpa [hByp, hIdle] using or_iff_not_imp_left.mp hAbsent), hTry, atDue_dueNow hDue,
      portImg_goTo, hImg]
    simp only [hFirst, now_goTo]
  obtain ⟨hSt, -, hAt, b, hb, hPhase, -⟩ := probeRun_exch hSend 999 p.val (.tryAttach q) (modeOf img q (nmodes img - 1))
    (updPort p.val (fun x => { x with tryAt := some (max (now s) e + usTurns (attachUs img)) }) (goTo e s))
  rw [port_updPort_self] at hSt hAt
  exact ⟨_, hExec, hSt, hAt, (congrArg _ hb).trans (congrArg some hPhase)⟩

end

section
variable {s : State} {p : PortId}

theorem attachWindowEnd_waits (h : (port s p.val).bypassed = true ∨
      ((port s p.val).state ≠ 0 ∧ (port s p.val).state ≠ 5) ∨ (∀ e, (port s p.val).attachEnd = some e → dueNow s e = false)) :
    exec (.attachWindowEnd p) s = .next s := by
  show execAttachWindowEnd p s = _
  rw [execAttachWindowEnd]
  rcases h with hByp | hState | hWait
  · rw [if_pos (by simp [hByp]), done]
  · rw [if_pos (by simp [hState]), done]
  · simp only [atDue_waits hWait, done, ite_self]

theorem attachTry_waits (h : (port s p.val).bypassed = true ∨
      ((port s p.val).state ≠ 0 ∧ (port s p.val).state ≠ 5) ∨ (port s p.val).probing ≠ none ∨
      (∀ e, (port s p.val).tryAt = some e → dueNow s e = false)) :
    exec (.attachTry p) s = .next s := by
  show execAttachTry p s = _
  rw [execAttachTry]
  rcases h with hByp | hState | hBusy | hWait
  · rw [if_pos (by simp [hByp]), done]
  · rw [if_pos (by simp [hState]), done]
  · rw [if_pos (by simp [Option.isSome_iff_ne_none.mpr hBusy]), done]
  · simp only [atDue_waits hWait, done, ite_self]

end

/-! ### PROBE_WINDOW_END (R121, R122) -/

theorem probingOf_some {s : State} {p : Nat} {b : Probing} (h : (port s p).probing = some b) : probingOf s p = b := by
  rw [probingOf, h]

/-- A failed attach try is over (R467). -/
theorem port_probeRun_fail_try {s : State} {p : Nat} {b : Probing} {q : Nat} (hb : (port s p).probing = some b)
    (hPhase : b.phase = .tryAttach q) (n : Nat) (img : List Byte) :
    (port (probeRun (n + 1) p img .fail s) p).probing = none ∧
    (port (probeRun (n + 1) p img .fail s) p).state = (port s p).state := by
  rw [probeRun]
  simp [probingOf_some hb, hPhase, port_jPort, port_updProbe]

/-- What R467 has happen after a probing changes the attach window and the next try alone. -/
theorem port_attachAgain (p : Nat) (s : State) :
    (port (attachAgain p s) p).probing = (port s p).probing ∧ (port (attachAgain p s) p).state = (port s p).state := by
  unfold attachAgain
  split
  · exact ⟨rfl, rfl⟩
  · split
    · split
      · split
        · rw [port_updPort_self]; exact ⟨rfl, rfl⟩
        · exact ⟨rfl, rfl⟩
      · exact ⟨rfl, rfl⟩
    · rw [port_updPort_self]; exact ⟨rfl, rfl⟩

/-- A probing that ends without a partner leaves the port ABSENT (R122). -/
theorem port_probeRun_absent (n p : Nat) (img : List Byte) (s : State) :
    (port (probeRun (n + 1) p img .absent s) p).probing = none ∧ (port (probeRun (n + 1) p img .absent s) p).state = 0 := by
  simp only [probeRun, port_attachAgain, port_portEvent, port_portState, port_updPort_self, and_self]

/-- The failure of the last CONTACT probe ends the probing (R122). -/
theorem port_probeRun_fail_contact {s : State} {p : Nat} {b : Probing} {q : Nat} {img : List Byte}
    (hb : (port s p).probing = some b) (hPhase : b.phase = .contact q)
    (hLast : ∀ r, q < r → r ∈ probes img → probeContact img r = false) (n : Nat) :
    (port (probeRun (n + 3) p img .fail s) p).probing = none ∧ (port (probeRun (n + 3) p img .fail s) p).state = 0 := by
  have hNone : (probes img).find? (fun r => decide (q + 1 ≤ r) && probeContact img r) = none := by
    rw [List.find?_eq_none]
    intro r hr
    by_cases hAfter : q < r
    · simp [hLast r hAfter hr]
    · simp; omega
  rw [probeRun]
  simp only [probingOf_some hb, hPhase]
  rw [probeRun, hNone]
  exact port_probeRun_absent n p img _

section
variable {s : State} {p : PortId} {img : List Byte} {b : Probing} {e : Nat} (hImg : portImg s p.val = some img)
  (hb : (port s p.val).probing = some b) (hWin : b.win = some e) (hDue : dueNow s e = true)
include hImg hb hWin hDue

theorem probeWindowEnd_retries {n : Nat} (hExch : inExchange b = true) (hLeft : b.left = n + 1)
    (hSend : Sendable img b.probe (phaseV0 img b (settleOf s p.val).mode)) :
    Completes (.probeWindowEnd p) s (fun u =>
      (port u p.val).probing.map (fun x => (x.phase, x.probe, x.left)) = some (b.phase, b.probe, n) ∧
      (port u p.val).state = (port s p.val).state) := by
  show ∃ u, execProbeWindowEnd p s = .next u ∧ _
  simp only [execProbeWindowEnd, hb, hImg, hExch, if_true, hWin, atDue_dueNow hDue, hLeft, Nat.add_one_ne_zero, if_false,
    settleOf_jPort, settleOf_updProbe, settleOf_goTo]
  generalize hLess : jPort 1 p.val _ (updProbe p.val _ (goTo e s)) = t
  have hPort := congrArg (fun u => port u p.val) hLess.symm
  simp only [port_jPort, port_updProbe, port_goTo, hb, Option.map_some, hLeft, Nat.add_sub_cancel] at hPort
  obtain ⟨u, hSent, hSt, -, -, x, hx, hPhase, hProbe, -, hRest⟩ := sendReq_exchanges hSend (congrArg PortSt.probing hPort)
  rw [hSent]
  refine ⟨u, rfl, ?_, hSt.trans (by rw [hPort])⟩
  rw [hx, Option.map_some, hPhase, hProbe, hRest]

theorem execProbeWindowEnd_over (hExch : inExchange b = true) (hLeft : b.left = 0) :
    exec (.probeWindowEnd p) s = .next (probeRun probeFuel p.val img .fail (goTo e s)) := by
  show execProbeWindowEnd p s = _
  unfold execProbeWindowEnd
  simp only [hb, hImg, hExch, if_true, hWin, atDue_dueNow hDue, hLeft]

theorem probeWindowEnd_over {q : Nat} (hExch : inExchange b = true) (hLeft : b.left = 0) :
    (b.phase = .tryAttach q →
      Completes (.probeWindowEnd p) s (fun u =>
        (port u p.val).probing = none ∧ (port u p.val).state = (port s p.val).state)) ∧
    (b.phase = .contact q → (∀ r, q < r → r ∈ probes img → probeContact img r = false) →
      Completes (.probeWindowEnd p) s (fun u => (port u p.val).probing = none ∧ (port u p.val).state = 0)) := by
  have hExec := execProbeWindowEnd_over hImg hb hWin hDue hExch hLeft
  refine ⟨fun hPhase => ⟨_, hExec, ?_⟩, fun hPhase hLast => ⟨_, hExec, ?_⟩⟩
  · exact port_probeRun_fail_try (s := goTo e s) hb hPhase 999 img
  · exact port_probeRun_fail_contact (s := goTo e s) hb hPhase hLast 997

/-! ### SWITCH_GUARD_END (R122, R126) -/

omit hImg hb in
/-- A guard that is over is followed by an exchange. -/
theorem guardEnd_exchanges {ph : Phase} {q m v0 : Nat} (hSend : Sendable img q v0)
    (hExec : execSwitchGuardEnd p s = atDue b.win (probeRun probeFuel p.val img (.exch ph q m v0)) s) :
    Completes (.switchGuardEnd p) s (fun u =>
      (port u p.val).probing.map (fun x => (x.phase, x.probe, x.inMode)) = some (ph, q, m) ∧
      (port u p.val).state = (port s p.val).state) := by
  obtain ⟨hSt, -, -, x, hx, hPhase, hProbe, hMode, -⟩ := probeRun_exch hSend 999 p.val ph m (goTo e s)
  rw [hWin, atDue_dueNow hDue] at hExec
  exact ⟨_, hExec, (congrArg _ hx).trans (by rw [Option.map_some, hPhase, hProbe, hMode]), hSt⟩

theorem switchGuardEnd_confirms {m : Nat} (hPhase : b.phase = .guardOk m)
    (hSend : Sendable img (modeConfirm img m) (modeCmdset img m)) :
    Completes (.switchGuardEnd p) s (fun u =>
      (port u p.val).probing.map (fun x => (x.phase, x.probe, x.inMode)) = some (.confirm m, modeConfirm img m, m) ∧
      (port u p.val).state = (port s p.val).state) :=
  guardEnd_exchanges hWin hDue hSend (by simp only [execSwitchGuardEnd, hb, hImg, hPhase])

theorem switchGuardEnd_fallsBack {m : Nat} (hPhase : b.phase = .guardBack m)
    (hSend : Sendable img b.contact (modeCmdset img b.cur)) :
    Completes (.switchGuardEnd p) s (fun u =>
      (port u p.val).probing.map (fun x => (x.phase, x.probe, x.inMode)) = some (.fallback m, b.contact, b.cur) ∧
      (port u p.val).state = (port s p.val).state) :=
  guardEnd_exchanges hWin hDue hSend (by simp only [execSwitchGuardEnd, hb, hImg, hPhase])

theorem switchGuardEnd_verifies (hPhase : b.phase = .vGuard)
    (hSend : Sendable img (modeConfirm img (settleOf s p.val).mode) (modeCmdset img (settleOf s p.val).mode)) :
    Completes (.switchGuardEnd p) s (fun u =>
      (port u p.val).probing.map (fun x => (x.phase, x.probe, x.inMode)) =
        some (.vConfirm, modeConfirm img (settleOf s p.val).mode, (settleOf s p.val).mode) ∧
      (port u p.val).state = (port s p.val).state) :=
  guardEnd_exchanges hWin hDue hSend (by simp only [execSwitchGuardEnd, hb, hImg, hPhase])

end

theorem noProbing_waits {s : State} {p : PortId} (h : (port s p.val).probing = none) :
    exec (.probeWindowEnd p) s = .next s ∧ exec (.switchGuardEnd p) s = .next s := by
  constructor
  · show execProbeWindowEnd p s = _
    simp only [execProbeWindowEnd, h, done]
  · show execSwitchGuardEnd p s = _
    simp only [execSwitchGuardEnd, h, done]

end Sys2Proof.Machine

open Sys2Proof Sys2Proof.Machine

/-- Settles O18: an attach and a guard end in an exchange, and a reply window in a retry or in the failure of its exchange. -/
theorem attachAndProbing : Obligations.AttachAndProbing := by
  unfold Obligations.AttachAndProbing
  refine ⟨⟨?_, ?_, fun s p => attachWindowEnd_waits, fun s p => attachTry_waits, ?_⟩, ?_, ?_, ?_, ?_, ?_,
    fun s p => noProbing_waits⟩
  · exact fun s p img e q => attachWindowEnd_fresh
  · exact fun s p img e => attachWindowEnd_known
  · exact fun s p img e q => attachTry_completes
  · exact fun s p img b e n hImg hb hExch hWin hDue => probeWindowEnd_retries hImg hb hWin hDue hExch
  · exact fun s p img b e m hImg hb hPhase hWin hDue => switchGuardEnd_confirms hImg hb hWin hDue hPhase
  · exact fun s p img b e m hImg hb hPhase hWin hDue => switchGuardEnd_fallsBack hImg hb hWin hDue hPhase
  · exact fun s p img b e hImg hb hPhase hWin hDue => switchGuardEnd_verifies hImg hb hWin hDue hPhase
  · exact fun s p img b e q hImg hb hExch hWin hDue => probeWindowEnd_over hImg hb hWin hDue hExch
end

section
open Sys2Proof Sys2Proof.Machine

namespace Sys2Proof.Machine

/-- Pad 5 shifts on pad 3's clock edges in SYNC_TX, with nothing to send. Its driver-enable is asserted since turn 10, and the
LAG interval has ended at turn 18. -/
def staleDriver : State :=
  updPad 5 (fun x => { x with deAt := some 10, deEnd := some 18 })
    (setF (fMode 5) 4 (setF (fClkpad 5) 3
      (mapPgOn (fun t => Tab.put t 0 true) (setF (fPgEnable 0) 1 (setF (fVioOk 0) 1 State.reset)))))

/-- At turn 20 pad 3 receives in ASYNC_RX with a filter of 5 turns, blanked by the echo of pad 5's driver-enable pad. -/
def edgeOnClock : State :=
  updTime (fun x => { x with turn := 20 })
    (setF (fFilt 3) 5 (setF (fMode 3) 1 (setF (fStartPol 3) 1 (setF (fEcho 3) 1 staleDriver))))

end Sys2Proof.Machine

/-- Refutes O21: the second clause judges the blanking of a start edge (R150) before the edge acts. The edge of pad 3, recorded
at turn 15, is also a clock edge of pad 5, which first does what was due by then (R13, R145): it releases the driver-enable
that it has had since turn 10 at turn 18. That interval, which did not count before since only ASYNC_TX drives the pad, is now
one that has ended, and it blanks the edge: no candidate begins. The clause lacks the hypothesis that a pad in SYNC_TX has no
driver-enable asserted; a write that changes MODE releases it (R149). -/
theorem not_padReceive : ¬ Obligations.PadReceive := by
  unfold Obligations.PadReceive
  rintro ⟨-, hStart, -⟩
  have hEdge := hStart edgeOnClock 3 true (by decide) (by decide) (by decide) (by decide) (by decide) (by decide)
  obtain ⟨hCand, -⟩ := hEdge.of_exec rfl
  exact absurd hCand (by decide +kernel)
end

section
namespace Sys2Proof.Machine

/-! ### A transmit word is queued (R143, R144, R149) -/

/-- Driver-enable rises for a word of pad p that is launched on an idle line (R149). -/
def deRises (s : State) (p : Nat) : Bool := saMode s p = 2 && isSet s (fDeEn p) && (pad s p).deAt.isNone

theorem deRises_iff (s : State) (p : Nat) :
    deRises s p = true ↔ saMode s p = 2 ∧ isSet s (fDeEn p) = true ∧ (pad s p).deAt = none := by
  simp [deRises, and_assoc]

/-- The launch turn of a word that is queued for an idle line (R143, R149). -/
def launchTurn (s : State) (p : Nat) : Nat := now s + 2 + (if deRises s p then getF s (fLead p) else 0)

/-- What a word that is queued for an idle line brings about (R143, R149, R150). -/
def txFirst (p : Nat) (w : TxWord) (s : State) : State :=
  let u := updPad p (fun x => { x with txq := x.txq ++ [w], launch := some (launchTurn s p), streamS := launchTurn s p,
                                       streamK := 0, streamClk := bitClk s p, deEnd := none,
                                       deAt := if deRises s p then some (now s + 2) else x.deAt }) s
  if deRises s p then echoAbandon (p / 64) (getF s (fLinkpad p)) (now s + 2) u else u

/-- A word is queued in a transmit queue that has room. -/
def txEnqueue (p : Nat) (w : TxWord) (s : State) : State :=
  if (pad s p).cur.isNone && (pad s p).launch.isNone then txFirst p w s
  else updPad p (fun x => { x with txq := x.txq ++ [w] }) s

section
variable {c : CoreId} {p : Nat} {v : Word} {s t : State} (ht : t = txCatch p (now s) s)
include ht

theorem txWrite_noTransmit (h2 : saMode t p ≠ 2) (h4 : saMode t p ≠ 4) : txWrite c p v s = flag (fCfgerr p) t := by
  simp [txWrite, ← ht, h2, h4]

variable (hMode : saMode t p = 2 ∨ saMode t p = 4)
include hMode

theorem txWrite_full (hFull : 4 ≤ (pad t p).txq.length) : txWrite c p v s = flag (fTxovr p) t := by
  rcases hMode with h | h <;> simp [txWrite, ← ht, h, hFull]

theorem txWrite_room (hRoom : (pad t p).txq.length < 4) :
    txWrite c p v s = txEnqueue p (bindTx c p v t).1 (bindTx c p v t).2 := by
  rcases hMode with h | h <;> simp only [txWrite, ← ht, h, Nat.not_le.mpr hRoom] <;> rfl

end

theorem word_bindTx (c : CoreId) (p : Nat) (v : Word) (s : State) : (bindTx c p v s).1.word = v := by
  simp only [bindTx]
  repeat' split
  all_goals rfl

/-- What a pad transmits: its queue, its next launch and driver-enable. -/
def txView (q : Nat) : View (List TxWord × Option Nat × Option Nat) :=
  ⟨fun s => ((pad s q).txq, (pad s q).launch, (pad s q).deAt)⟩

theorem pad_updPad (i j : Nat) (f : PadSt → PadSt) (s : State) :
    pad (updPad i f s) j = if j = i then f (pad s j) else pad s j := by
  split
  · next h => rw [h, pad_updPad_self]
  · next h => exact pad_updPad_ne _ _ _ h

/-- Abandoning received words leaves every transmission as it is (R150). -/
theorem txView_echoAbandon (n l a : Nat) (s : State) (q : Nat) :
    (txView q).at (echoAbandon n l a s) = (txView q).at s := by
  unfold echoAbandon
  refine each_view _ _ _ (fun r u => ?_) s
  have hDrop : (txView q).at (flag (fBlanked r) (updPad r (fun x => { x with cand := none, candOk := false }) u)) =
      (txView q).at u := by
    simp only [txView, View.at, pad_congr (flag_pads ..), pad_updPad]
    split <;> rfl
  split
  · split
    · exact hDrop
    · rfl
  · rfl

section
variable (p : Nat) (w : TxWord) (s : State)

/-- A word is queued for an idle line: its launch is set, and driver-enable is asserted where it rises. -/
theorem pad_txFirst : (pad (txFirst p w s) p).txq = (pad s p).txq ++ [w] ∧
    (pad (txFirst p w s) p).launch = some (launchTurn s p) ∧
    (pad (txFirst p w s) p).deAt = if deRises s p then some (now s + 2) else (pad s p).deAt := by
  suffices h : (txView p).at (txFirst p w s) = ((pad s p).txq ++ [w], some (launchTurn s p),
      if deRises s p then some (now s + 2) else (pad s p).deAt) by simpa only [txView, View.at, Prod.mk.injEq] using h
  unfold txFirst
  dsimp only
  generalize deRises s p = rise
  cases rise
  · simp [txView, View.at]
  · rw [if_pos rfl, txView_echoAbandon]
    simp [txView, View.at]

theorem txq_txEnqueue : (pad (txEnqueue p w s) p).txq = (pad s p).txq ++ [w] := by
  unfold txEnqueue
  split
  · exact (pad_txFirst p w s).1
  · rw [pad_updPad_self]

theorem txEnqueue_idle (hCur : (pad s p).cur = none) (hLaunch : (pad s p).launch = none) :
    txEnqueue p w s = txFirst p w s := by
  simp [txEnqueue, hCur, hLaunch]

end

/-- A one-bit flag that is set reads 1. -/
theorem getF_flag_bit (key : Nat) {i : Nat} (hi : i < 32) (s : State) : getF (flag (bit key i) s) (bit key i) = 1 := by
  rw [getF_flag, getF_setF_self _ _ _ (by simp [Fld.ok, bit, hi])]
  simp [bit]

/-- What the byte that a word is bound to leaves of the pad. -/
theorem bindTx_keeps (c : CoreId) (p : Nat) (v : Word) (s : State) :
    pad (bindTx c p v s).2 p = pad s p ∧ deRises (bindTx c p v s).2 p = deRises s p ∧
    now (bindTx c p v s).2 = now s ∧ launchTurn (bindTx c p v s).2 p = launchTurn s p :=
  ⟨bindTx_view ⟨fun u => pad u p⟩ (fun _ _ => rfl) .., bindTx_view ⟨fun u => deRises u p⟩ (fun _ _ => rfl) ..,
    bindTx_view ⟨now⟩ (fun _ _ => rfl) .., bindTx_view ⟨fun u => launchTurn u p⟩ (fun _ _ => rfl) ..⟩

section
variable {s t : State} {c : CoreId} {p : PadId} (v : Word) (hFree : castHolds c (p.val / 64) s = none)
  (hWriter : padWriter s c p.val = true) (ht : t = txCatch p.val (now s) s)
include hFree hWriter ht

theorem saTxdataWrite_transmits (hMode : saMode t p.val = 2 ∨ saMode t p.val = 4) :
    Completes (.saTxdataWrite c p v) s (fun u =>
      ((pad t p.val).txq.length < 4 →
        (pad u p.val).txq.map (fun w => w.word) = (pad t p.val).txq.map (fun w => w.word) ++ [v] ∧
        ((pad t p.val).cur = none → (pad t p.val).launch = none →
          (pad u p.val).launch = some (now t + 2 +
            (if saMode t p.val = 2 ∧ isSet t (fDeEn p.val) = true ∧ (pad t p.val).deAt = none
              then getF t (fLead p.val) else 0)) ∧
          (saMode t p.val = 2 → isSet t (fDeEn p.val) = true → (pad t p.val).deAt = none →
            (pad u p.val).deAt = some (now t + 2)))) ∧
      (4 ≤ (pad t p.val).txq.length → (pad u p.val).txq = (pad t p.val).txq ∧ getF u (fTxovr p.val) = 1)) := by
  refine ⟨_, (execSaTxdataWrite_free hFree v).trans (next_of_true hWriter ..), fun hRoom => ?_, fun hFull => ?_⟩
  · obtain ⟨hPad, hRises, hNow, hTurn⟩ := bindTx_keeps c p.val v t
    rw [txWrite_room ht hMode hRoom, txq_txEnqueue, List.map_append, hPad]
    refine ⟨by rw [List.map_singleton, word_bindTx], fun hCur hLaunch => ?_⟩
    rw [txEnqueue_idle _ _ _ (by rw [hPad, hCur]) (by rw [hPad, hLaunch])]
    obtain ⟨-, hAt, hDe⟩ := pad_txFirst p.val (bindTx c p.val v t).1 (bindTx c p.val v t).2
    rw [hAt, hDe, hTurn, hRises, hNow, launchTurn]
    simp only [deRises_iff]
    exact ⟨trivial, fun h2 hEn hOff => if_pos ⟨h2, hEn, hOff⟩⟩
  · rw [txWrite_full ht hMode hFull]
    exact ⟨by rw [pad_congr (flag_pads ..)], getF_flag_bit _ (by decide) t⟩

theorem saTxdataWrite_noTransmit (h2 : saMode t p.val ≠ 2) (h4 : saMode t p.val ≠ 4) :
    Completes (.saTxdataWrite c p v) s (fun u => u.pads = t.pads ∧ getF u (fCfgerr p.val) = 1) := by
  refine ⟨_, (execSaTxdataWrite_free hFree v).trans (next_of_true hWriter ..), ?_⟩
  rw [txWrite_noTransmit ht h2 h4]
  exact ⟨flag_pads .., getF_flag_bit _ (by decide) t⟩

end

/-! ### A word is launched, and ends (R143, R145, R149) -/

theorem now_of {s t : State} (h : t.time = s.time) : now t = now s := by rw [now, h, now]

/-- The first queued word begins: it is on the line, with COUNT + 1 bits. -/
theorem pad_txLaunch {p : Nat} {s : State} {w : TxWord} {ws : List TxWord} (hq : (pad s p).txq = w :: ws) (e : Nat) :
    (pad (txLaunch p e s) p).cur = some w ∧ (pad (txLaunch p e s) p).txq = ws ∧
    (pad (txLaunch p e s) p).launch = none ∧ (pad (txLaunch p e s) p).curBits = getF s (fCount p) + 1 := by
  have hCount : ∀ u, pad (countLaunch p w u) p = pad u p := fun u => pad_congr (pads_of (by simp))
  have hJournal : ∀ q u, pad (txJournal p q w e u) p = pad u p := fun q u => pad_congr (pads_of (by simp))
  unfold txLaunch
  simp only [hq]
  split
  · simp [hJournal, hCount]
  · simp [hCount]

theorem padK_stamp_ne (p : Nat) : padK p 0x24 ≠ padK p 0x20 := by
  unfold padK winK
  omega

/-- SA_TXSTAMP takes the turn of the launch (R143). -/
theorem reg_txLaunch {p : Nat} (hp : p < 1024) {s : State} {w : TxWord} {ws : List TxWord} (hq : (pad s p).txq = w :: ws)
    (e : Nat) : reg (txLaunch p e s) (padK p 0x20) = BitVec.ofNat 32 e ∧
      reg (txLaunch p e s) (padK p 0x24) = BitVec.ofNat 32 (e / 2 ^ 32) := by
  have hCount : ∀ u k, reg (countLaunch p w u) k = reg u k := fun u k => by
    rw [reg, reg, regs_of (t := countLaunch p w u) (s := u) (by simp)]
  have hJournal : ∀ q u off, off < 0x40 → reg (txJournal p q w e u) (padK p off) = reg u (padK p off) :=
    fun q u off ho => (txJournal_log ..).reg _ (logKeys_padK hp ho)
  unfold txLaunch
  simp only [hq]
  split
  · simp only [hJournal _ _ 0x20 (by decide), hJournal _ _ 0x24 (by decide), hCount, reg_setReg_self,
      reg_setReg_ne _ _ (padK_stamp_ne p), and_self]
  · simp only [hCount, reg_setReg_self, reg_setReg_ne _ _ (padK_stamp_ne p), and_self]

/-- The word on the line ends: the next queued one follows at once, or the LAG interval of driver-enable runs. -/
theorem pad_txEnd (p e : Nat) (w : TxWord) (s : State) : (pad (txEnd p e w s) p).cur = none ∧
    ((pad s p).txq ≠ [] → (pad (txEnd p e w s) p).launch = some e) ∧
    ((pad s p).txq = [] → (pad s p).deAt ≠ none → (pad (txEnd p e w s) p).deEnd = some (e + getF s (fLag p))) := by
  have hPad : pad (sendEnd w e s) p = pad s p := pad_congr (pads_of (by simp))
  have hLag : getF (sendEnd w e s) (fLag p) = getF s (fLag p) := by
    rw [getF, getF, reg, reg, regs_of (t := sendEnd w e s) (s := s) (by simp)]
  unfold txEnd
  dsimp only
  rw [hPad]
  split
  · next hEmpty =>
    rw [pad_updPad_self, hPad, hLag]
    refine ⟨rfl, fun h => absurd (List.isEmpty_iff.mp hEmpty) h, fun _ hDe => ?_⟩
    obtain ⟨a, ha⟩ := Option.ne_none_iff_exists'.mp hDe
    simp only [ha]
  · next hMore =>
    rw [pad_updPad_self]
    exact ⟨rfl, fun _ => rfl, fun h => absurd (List.isEmpty_iff.mpr h) hMore⟩

theorem deEnd_deRelease {p : Nat} {s : State} (h : (pad s p).deAt ≠ none) (t : Nat) :
    (pad (deRelease p t s) p).deEnd = none := by
  obtain ⟨a, ha⟩ := Option.ne_none_iff_exists'.mp h
  simp [deRelease, ha]

section
variable {s : State} {p : PadId} {e : Nat}

theorem txWordLaunch_completes {w : TxWord} {ws : List TxWord} (hLaunch : (pad s p.val).launch = some e)
    (hq : (pad s p.val).txq = w :: ws) (hDue : dueNow s e = true) :
    Completes (.txWordLaunch p) s (fun u =>
      now u = max (now s) e ∧ (pad u p.val).cur = some w ∧ (pad u p.val).txq = ws ∧ (pad u p.val).launch = none ∧
      reg u (padK p.val 0x20) = BitVec.ofNat 32 e ∧ reg u (padK p.val 0x24) = BitVec.ofNat 32 (e / 2 ^ 32) ∧
      (pad u p.val).curBits = getF s (fCount p.val) + 1) := by
  have hExec : exec (.txWordLaunch p) s = .next (txLaunch p.val e (goTo e s)) := by
    show execTxWordLaunch p s = _
    simp only [execTxWordLaunch, hLaunch, hDue, if_true, done]
  obtain ⟨hCur, hRest, hNone, hBits⟩ := pad_txLaunch (s := goTo e s) hq e
  obtain ⟨hLow, hHigh⟩ := reg_txLaunch p.isLt (s := goTo e s) hq e
  exact ⟨_, hExec, now_of (time_of (s := goTo e s) (by simp)), hCur, hRest, hNone, hLow, hHigh, hBits⟩

theorem txWordEnd_completes {w : TxWord} (hCur : (pad s p.val).cur = some w) (hEnd : shiftEnd s p.val = some e)
    (hDue : dueNow s e = true) :
    Completes (.txWordEnd p) s (fun u =>
      now u = max (now s) e ∧ (pad u p.val).cur = none ∧
      ((pad s p.val).txq ≠ [] → (pad u p.val).launch = some e) ∧
      ((pad s p.val).txq = [] → (pad s p.val).deAt ≠ none → (pad u p.val).deEnd = some (e + getF s (fLag p.val)))) := by
  have hExec : exec (.txWordEnd p) s = .next (txEnd p.val e w (goTo e s)) := by
    show execTxWordEnd p s = _
    simp only [execTxWordEnd, hCur, hEnd, hDue, if_true, done]
  exact ⟨_, hExec, now_of (time_of (s := goTo e s) (by simp)), pad_txEnd p.val e w (goTo e s)⟩

theorem deRelease_completes (hEnd : (pad s p.val).deEnd = some e) (hDe : (pad s p.val).deAt ≠ none)
    (hDue : dueNow s e = true) :
    Completes (.deRelease p) s (fun u =>
      now u = max (now s) e ∧ (pad u p.val).deAt = none ∧ (pad u p.val).deEnd = none) := by
  have hExec : exec (.deRelease p) s = .next (deRelease p.val e (goTo e s)) := by
    show execDeRelease p s = _
    simp only [execDeRelease, hEnd, hDue, if_true, done]
  exact ⟨_, hExec, now_of (time_of (s := goTo e s) (by simp)), (pad_deRelease ..).1,
    deEnd_deRelease (s := goTo e s) hDe e⟩

theorem txWordLaunch_waits (h : ∀ e, (pad s p.val).launch = some e → dueNow s e = false) :
    exec (.txWordLaunch p) s = .next s := by
  show execTxWordLaunch p s = _
  unfold execTxWordLaunch
  split
  · next e he => rw [h e he, if_neg Bool.false_ne_true, done]
  · rfl

theorem txWordEnd_waits (h : (pad s p.val).cur = none) : exec (.txWordEnd p) s = .next s := by
  show execTxWordEnd p s = _
  simp only [execTxWordEnd, h, done]

theorem deRelease_waits (h : ∀ e, (pad s p.val).deEnd = some e → dueNow s e = false) :
    exec (.deRelease p) s = .next s := by
  show execDeRelease p s = _
  unfold execDeRelease
  split
  · next e he => rw [h e he, if_neg Bool.false_ne_true, done]
  · rfl

end

end Sys2Proof.Machine

open Sys2Proof Sys2Proof.Machine

/-- Settles O23: one lemma for each of the launch, the end and the release of a transmission, and for the write that queues
it. -/
theorem padTransmit : Obligations.PadTransmit := by
  unfold Obligations.PadTransmit
  refine ⟨?_, ?_, ?_, ?_, ?_, ?_⟩
  · exact fun s t c p v hFree hWriter ht => saTxdataWrite_transmits v hFree hWriter ht
  · exact fun s t c p v hFree hWriter ht => saTxdataWrite_noTransmit v hFree hWriter ht
  · exact fun s p e w ws => txWordLaunch_completes
  · exact fun s p w e => txWordEnd_completes
  · exact fun s p e => deRelease_completes
  · exact fun s p => ⟨txWordLaunch_waits, txWordEnd_waits, deRelease_waits⟩
end

section
namespace Sys2Proof.Machine

/-! ### What holds along a list of changes -/

/-- What one of the changes establishes, and none takes away, holds in the end; `I` holds all along. -/
theorem each_establishes {α : Type} {I P : State → Prop} {f : α → State → State} {x : α}
    (hI : ∀ y s, I s → I (f y s)) (hDo : ∀ s, I s → P (f x s)) (hKeep : ∀ y s, I s → P s → P (f y s))
    {xs : List α} {s : State} (hs : I s) (h : P s ∨ x ∈ xs) : P (each xs f s) := by
  induction xs generalizing s with
  | nil => exact h.resolve_right (by simp)
  | cons y ys ih =>
    refine ih (hI y s hs) ?_
    rcases h with h | h
    · exact .inl (hKeep y s hs h)
    · rcases List.mem_cons.mp h with rfl | h
      · exact .inl (hDo s hs)
      · exact .inr h

/-- A view that a launch, a word's end and a release of driver-enable leave is left by all that a shift assist transmits. -/
theorem at_txCatch {α : Type} (vw : View α) {p : Nat} (hLaunch : ∀ e s, vw.at (txLaunch p e s) = vw.at s)
    (hEnd : ∀ e w s, vw.at (txEnd p e w s) = vw.at s) (hRelease : ∀ e s, vw.at (deRelease p e s) = vw.at s) (t : Nat)
    (s : State) : vw.at (txCatch p t s) = vw.at s := by
  have hNext : ∀ s u, txNext p t s = some u → vw.at u = vw.at s := by
    intro s u h
    unfold txNext at h
    dsimp only at h
    (repeat' split at h) <;> cases h
    · exact hLaunch ..
    · exact hEnd ..
    · exact hRelease ..
  have hGo : ∀ (n : Nat) (s : State), vw.at (txCatch.go p t n s) = vw.at s := by
    intro n
    induction n with
    | zero => exact fun s => rfl
    | succ n ih =>
      intro s
      unfold txCatch.go
      split
      · next u h => exact (ih u).trans (hNext s u h)
      · rfl
  exact hGo 11 s

/-! ### Why a pad is in its safe state (R152) -/

/-- The reasons for which pad q is in its safe state. -/
def safeV (q : Nat) : View (List Nat) := ⟨fun s => (pad s q).safe⟩

@[simp] theorem safeV_free (q : Nat) {x : Part} (h : x ≠ .pads) : (safeV q).free x := by
  cases x
  case pads => exact absurd rfl h
  all_goals exact fun _ _ => rfl

theorem safeV_at (q : Nat) (s : State) : (safeV q).at s = (pad s q).safe := rfl

theorem safeV_updPad (q i : Nat) {f : PadSt → PadSt} (h : ∀ x, (f x).safe = x.safe) (s : State) :
    (safeV q).at (updPad i f s) = (safeV q).at s := by
  rw [safeV_at, safeV_at, pad_updPad]
  split
  · exact h _
  · rfl

theorem safeV_saFlush (q p : Nat) (s : State) : (safeV q).at (saFlush p s) = (safeV q).at s := by
  have hRelease : ∀ e s, (safeV q).at (deRelease p e s) = (safeV q).at s := fun e s => by
    unfold deRelease
    split
    · exact safeV_updPad q p (by simp) s
    · rfl
  have hLaunch : ∀ e s, (safeV q).at (txLaunch p e s) = (safeV q).at s := fun e s => by
    unfold txLaunch
    split
    · exact safeV_updPad q p (by simp) s
    · dsimp only
      split <;> simp [safeV_updPad]
  have hEnd : ∀ e w s, (safeV q).at (txEnd p e w s) = (safeV q).at s := fun e w s => by
    simp [txEnd, safeV_updPad]
  simp [saFlush, safeV_updPad, hRelease, at_txCatch _ hLaunch hEnd hRelease]

/-- A pad is put in its safe state for a reason; its own other reasons, and every other pad's, stay. -/
theorem safe_padSafe (why p : Nat) (s : State) (q : Nat) : (pad (padSafe why p s) q).safe =
    if q = p ∧ why ∉ (pad s q).safe then why :: (pad s q).safe else (pad s q).safe := by
  have hStay : (pad (saFlush p s) q).safe = (pad s q).safe := safeV_saFlush q p s
  unfold padSafe
  rw [pad_updPad]
  by_cases h : q = p
  · subst h
    by_cases hw : why ∈ (pad s q).safe <;> simp [hStay, hw]
  · simp [h, hStay]

theorem safe_padUnsafe (why p : Nat) (s : State) (q : Nat) : (pad (padUnsafe why p s) q).safe =
    if q = p then (pad s q).safe.filter (fun w => w ≠ why) else (pad s q).safe := by
  rw [padUnsafe, pad_updPad]
  split <;> rfl

/-- Every pad of a list is put in its safe state. -/
theorem mem_safe_each (why g : Nat) {is : List Nat} {i : Nat} (hi : i ∈ is) (s : State) :
    why ∈ (pad (each is (fun i s => padSafe why (64 * g + i) s) s) (64 * g + i)).safe := by
  refine each_establishes (I := fun _ => True) (P := fun s => why ∈ (pad s (64 * g + i)).safe) (x := i)
    (fun _ _ _ => trivial) (fun s _ => ?_) (fun j s _ h => ?_) trivial (.inr hi)
  · rw [safe_padSafe]
    split
    · exact List.mem_cons_self
    · next h => exact not_not.mp fun hn => h ⟨rfl, hn⟩
  · rw [safe_padSafe]
    split
    · exact List.mem_cons_of_mem _ h
    · exact h

/-- Every pad of a list leaves its safe state as far as a reason goes. -/
theorem not_mem_safe_each (why g : Nat) {is : List Nat} {i : Nat} (hi : i ∈ is) (s : State) :
    why ∉ (pad (each is (fun i s => padUnsafe why (64 * g + i) s) s) (64 * g + i)).safe := by
  refine each_establishes (I := fun _ => True) (P := fun s => why ∉ (pad s (64 * g + i)).safe) (x := i)
    (fun _ _ _ => trivial) (fun s _ => ?_) (fun j s _ h => ?_) trivial (.inr hi)
  · simp [safe_padUnsafe]
  · rw [safe_padUnsafe]
    split
    · exact fun hm => h (List.mem_of_mem_filter hm)
    · exact h

end Sys2Proof.Machine
end

section
namespace Sys2Proof.Machine

/-! ### The life of the ports while one of them is lost (R78, R88) -/

/-- What a port's life consists of: it is defined, it is bypassed, its release is asked for, and its state. -/
def portLife (x : PortSt) : Bool × Bool × Bool × Nat := (x.defined, x.bypassed, x.releaseReq, x.state)

/-- The life of port q. -/
def lifeV (q : Nat) : View (Bool × Bool × Bool × Nat) := ⟨fun s => portLife (port s q)⟩

@[simp] theorem lifeV_free (q : Nat) {x : Part} (h : x ≠ .ports) : (lifeV q).free x := by
  cases x
  case ports => exact absurd rfl h
  all_goals exact fun _ _ => rfl

theorem lifeV_at (q : Nat) (s : State) : (lifeV q).at s = portLife (port s q) := rfl

section
variable (q : Nat)

theorem lifeV_updPort (i : Nat) {f : PortSt → PortSt} (hDef : ∀ x, (f x).defined = x.defined)
    (hByp : ∀ x, (f x).bypassed = x.bypassed) (hRel : ∀ x, (f x).releaseReq = x.releaseReq)
    (hState : ∀ x, (f x).state = x.state) (s : State) : (lifeV q).at (updPort i f s) = (lifeV q).at s := by
  rw [lifeV_at, lifeV_at]
  by_cases hi : q = i
  · rw [hi, port_updPort_self, portLife, hDef, hByp, hRel, hState, portLife]
  · rw [port_updPort_ne _ _ _ hi]

theorem lifeV_countLaunch (p : Nat) (w : TxWord) (s : State) : (lifeV q).at (countLaunch p w s) = (lifeV q).at s := by
  unfold countLaunch
  split
  · next i _ =>
    have hSent : ∀ (c : Prop) [Decidable c], (lifeV q).at
        (if c then updPort i (fun x => { x with sendLeft := x.sendLeft.drop 1 }) s else s) = (lifeV q).at s := fun c _ => by
      split
      · simp [lifeV_updPort]
      · rfl
    dsimp only
    split
    · exact hSent _
    · exact (countByte_view _ (by simp) (by simp) ..).trans (hSent _)
  · rfl

theorem lifeV_txLaunch (p e : Nat) (s : State) : (lifeV q).at (txLaunch p e s) = (lifeV q).at s := by
  unfold txLaunch
  split
  · simp
  · dsimp only
    split <;> simp [lifeV_countLaunch]

theorem lifeV_txEnd (p e : Nat) (w : TxWord) (s : State) : (lifeV q).at (txEnd p e w s) = (lifeV q).at s := by
  have hSend : (lifeV q).at (sendEnd w e s) = (lifeV q).at s := by
    unfold sendEnd
    dsimp only
    repeat' split
    all_goals simp [lifeV_updPort]
  unfold txEnd
  dsimp only
  split <;> simp [hSend]

theorem lifeV_txCatch (p t : Nat) (s : State) : (lifeV q).at (txCatch p t s) = (lifeV q).at s :=
  at_txCatch _ (lifeV_txLaunch q p) (lifeV_txEnd q p) (fun e s => by simp) t s

theorem lifeV_saFlush (p : Nat) (s : State) : (lifeV q).at (saFlush p s) = (lifeV q).at s := by
  simp [saFlush, lifeV_txCatch]

theorem lifeV_pgHold (n : Nat) (s : State) : (lifeV q).at (pgHold n s) = (lifeV q).at s := by
  unfold pgHold
  rw [each_view _ _ _ (lifeV_saFlush q)]
  simp

theorem lifeV_flushPort (p : Nat) (s : State) : (lifeV q).at (flushPort p s) = (lifeV q).at s := by
  have hEmpty : ∀ i s, (lifeV q).at (saEmpty i s) = (lifeV q).at s := fun i s => by
    unfold saEmpty
    dsimp only
    split <;> simp [lifeV_txCatch]
  unfold flushPort
  rw [each_view _ _ _ (fun i s => hEmpty _ s)]
  simp

theorem lifeV_truncateOpen (p t : Nat) (s : State) : (lifeV q).at (truncateOpen p t s) = (lifeV q).at s := by
  have hRoute : ∀ k s, (lifeV q).at (routePacket p k s) = (lifeV q).at s := fun k s => by
    unfold routePacket
    dsimp only
    split
    · simp
    · split
      · simp [lifeV_updPort]
      · simp
  unfold truncateOpen
  dsimp only
  split <;> simp [hRoute]

theorem lifeV_lossEffects (p t : Nat) (s : State) : (lifeV q).at (lossEffects p t s) = (lifeV q).at s := by
  simp [lossEffects, lifeV_updPort, lifeV_flushPort, lifeV_truncateOpen]

theorem lifeV_portQuiet (p : Nat) (s : State) : (lifeV q).at (portQuiet p s) = (lifeV q).at s := by
  simp [portQuiet, lifeV_updPort]

theorem lifeV_attachOpen (p delay : Nat) (s : State) : (lifeV q).at (attachOpen p delay s) = (lifeV q).at s := by
  unfold attachOpen
  split
  · rfl
  · split
    · split
      · simp [openWindow, lifeV_updPort]
      · rfl
    · simp [lifeV_updPort]

theorem lifeV_attachAgain (p : Nat) (s : State) : (lifeV q).at (attachAgain p s) = (lifeV q).at s := by
  unfold attachAgain
  split
  · rfl
  · split
    · split
      · split
        · simp [lifeV_updPort]
        · rfl
      · rfl
    · simp [lifeV_updPort]

theorem lifeV_lossOpen (p : Nat) (s : State) : (lifeV q).at (lossOpen p s) = (lifeV q).at s := by
  unfold lossOpen
  split
  · rfl
  · split
    · simp [lifeV_updPort]
    · rfl

end

/-- A port in service, which a loss takes to LOST: it is defined, not bypassed, and past PROBING (R88). -/
def inService (x : PortSt) : Prop := x.defined = true ∧ x.bypassed = false ∧ 2 ≤ x.state

theorem inService_congr {x y : PortSt} (h : portLife x = portLife y) : inService x ↔ inService y := by
  simp only [portLife, Prod.mk.injEq] at h
  obtain ⟨hDef, hByp, -, hState⟩ := h
  rw [inService, inService, hDef, hByp, hState]

theorem state_of_life {s t : State} {q : Nat} (h : (lifeV q).at t = (lifeV q).at s) :
    (port t q).state = (port s q).state := (congrArg (fun x => x.2.2.2) h :)

theorem inService_of_life {s t : State} {q : Nat} (h : (lifeV q).at t = (lifeV q).at s) :
    inService (port t q) ↔ inService (port s q) := inService_congr h

/-- A loss changes no other port's life. -/
theorem lifeV_lossRecorded_ne {p q : Nat} (h : q ≠ p) (s : State) : (lifeV q).at (lossRecorded p s) = (lifeV q).at s := by
  have hState : ∀ st u, (lifeV q).at (portState p st u) = (lifeV q).at u := fun st u => by
    rw [portState, jPort_view (lifeV q) (by simp) (by simp) (by simp) (by simp), lifeV_at, port_updPort_ne _ _ _ h,
      lifeV_at]
  unfold lossRecorded
  dsimp only
  split
  · rfl
  · split <;> simp [lifeV_attachAgain, lifeV_attachOpen, hState, lifeV_updPort, lifeV_portQuiet, lifeV_lossEffects]

/-- A port in service that is lost is LOST; the rest of its life is as it was. -/
theorem life_lossRecorded_self {p : Nat} {s : State} (h : inService (port s p)) :
    portLife (port (lossRecorded p s) p) = portLife { port s p with state := 5 } := by
  obtain ⟨hDef, hByp, hState⟩ := h
  unfold lossRecorded
  dsimp only
  split
  · next hNone =>
    have h5 : (port s p).state = 5 := by simpa [hDef, hByp, show (port s p).state ≠ 0 by omega] using hNone
    rw [portLife, portLife, h5]
  · have hQuiet : portLife (port (portQuiet p (lossEffects p (now s) (jPort 4 p [] (overtake p s)))) p) =
        portLife (port s p) := by
      rw [← lifeV_at, lifeV_portQuiet, lifeV_lossEffects, ← lifeV_at]
      simp
    rw [if_neg (by omega), if_neg (by omega), ← lifeV_at, lifeV_attachOpen, lifeV_at, port_portEvent, port_portState,
      port_updPort_self]
    simp only [portLife, Prod.mk.injEq] at hQuiet ⊢
    obtain ⟨hDef', hByp', hRel', -⟩ := hQuiet
    exact ⟨hDef', hByp', hRel', trivial⟩

theorem lossRecorded_self {p : Nat} {s : State} (h : inService (port s p)) :
    (port (lossRecorded p s) p).state = 5 ∧ inService (port (lossRecorded p s) p) := by
  have hLife := life_lossRecorded_self h
  obtain ⟨hDef, hByp, -⟩ := h
  exact ⟨congrArg (fun x => x.2.2.2) hLife, (inService_congr hLife).mpr ⟨hDef, hByp, Nat.le_of_ble_eq_true rfl⟩⟩

/-- Of the ports that are lost one after the other, each that is in service is LOST. -/
theorem state_each_lossRecorded {p : Nat} {ps : List Nat} (hp : p ∈ ps) {s : State} (h : inService (port s p)) :
    (port (each ps (fun q s => lossRecorded q (jPort 5 q [] s)) s) p).state = 5 := by
  have hLog : ∀ q u, (lifeV p).at (jPort 5 q [] u) = (lifeV p).at u := fun q u => by simp
  have hSelf : ∀ u, inService (port u p) → (port (lossRecorded p (jPort 5 p [] u)) p).state = 5 ∧
      inService (port (lossRecorded p (jPort 5 p [] u)) p) := fun u hu =>
    lossRecorded_self ((inService_of_life (hLog p u)).mpr hu)
  have hOther : ∀ q u, p ≠ q → (lifeV p).at (lossRecorded q (jPort 5 q [] u)) = (lifeV p).at u := fun q u hq =>
    (lifeV_lossRecorded_ne hq _).trans (hLog q u)
  refine each_establishes (I := fun u => inService (port u p)) (P := fun u => (port u p).state = 5) (x := p)
    (fun q u hu => ?_) (fun u hu => (hSelf u hu).1) (fun q u hu h5 => ?_) h (.inr hp)
  · by_cases hq : p = q
    · exact hq ▸ (hSelf u hu).2
    · exact (inService_of_life (hOther q u hq)).mpr hu
  · by_cases hq : p = q
    · exact hq ▸ (hSelf u hu).1
    · exact (state_of_life (hOther q u hq)).trans h5

end Sys2Proof.Machine
end

section
namespace Sys2Proof.Machine

/-! ### The registers that a loss, and the hold of a group, can change -/

/-- Keys of the registers that the loss of a port and the hold of a pad group can change: those of a journal record, the
pads' and the interrupt controller's in the lane windows, and those that a core sees as its own. -/
def lossKeys (k : Nat) : Bool :=
  logKeys k || decide (0x100000000 ≤ k ∨ k % 0x1000000 / 0x1000 = 0x802 ∨ k % 0x1000000 / 0x1000 = 0x804)

theorem logKeys_of_lossKeys {k : Nat} (h : lossKeys k = false) : logKeys k = false := by
  rw [lossKeys, Bool.or_eq_false_iff] at h
  exact h.1

theorem RegsOnly.log_loss {s u : State} (h : RegsOnly logKeys s u) : RegsOnly lossKeys s u :=
  h.mono fun _ => logKeys_of_lossKeys

theorem RegsOnly.congr_regs {K : Nat → Bool} {s t u : State} (h : RegsOnly K s t) (e : u.regs = t.regs) : RegsOnly K s u :=
  h.trans (RegsOnly.of_regs e)

theorem lossKeys_privK (i off : Nat) : lossKeys (privK i off) = true := by
  rw [lossKeys, Bool.or_eq_true]
  refine .inr (decide_eq_true ?_)
  unfold privK
  omega

theorem lossKeys_padK {p off : Nat} (ho : off < 0x40) : lossKeys (padK p off) = true := by
  rw [lossKeys, Bool.or_eq_true]
  refine .inr (decide_eq_true ?_)
  unfold padK winK
  omega

/-- The registers of a pad group (R136) are not among them. -/
theorem lossKeys_group {n off : Nat} (hn : n < 16) (hLow : 0x3000 ≤ off) (hHigh : off < 0x4000) :
    lossKeys (winK n off) = false := by
  simp only [lossKeys, logKeys, icKeys, icK, if_true, Bool.or_eq_false_iff, decide_eq_false_iff_not]
  unfold winK
  omega

theorem occur_loss {n : Nat} (hn : n < 16) (k : Nat) (hk : k < 64) (s : State) : RegsOnly lossKeys s (occur n k s) := by
  refine (occur_log n k s hk).mono fun j hj => ?_
  simp only [lossKeys, Bool.or_eq_false_iff, decide_eq_false_iff_not] at hj
  simp only [icKeys, icK, if_neg (Nat.ne_of_lt hn), decide_eq_false_iff_not]
  unfold winK
  omega

theorem txCatch_loss (p t : Nat) (s : State) : RegsOnly lossKeys s (txCatch p t s) :=
  (txCatch_regs p t s).mono fun k hk => by
    rw [txKeys, logKeys_of_lossKeys hk, Bool.false_or, decide_eq_false_iff_not]
    rintro (rfl | rfl)
    · rw [lossKeys_padK (by decide)] at hk; cases hk
    · rw [lossKeys_padK (by decide)] at hk; cases hk

/-- What is emptied counts in TXABORT. -/
theorem txAbort_loss (p k : Nat) (s : State) : RegsOnly lossKeys s (addF (fTxabort p) k (txCatch p (now s) s)) :=
  (txCatch_loss p (now s) s).trans (RegsOnly.addF _ _ (lossKeys_padK (by decide)))

theorem saFlush_loss (p : Nat) (s : State) : RegsOnly lossKeys s (saFlush p s) := by
  unfold saFlush
  dsimp only
  exact ((txAbort_loss p _ s).trans (RegsOnly.of_regs (regs_deRelease ..))).trans (RegsOnly.of_regs rfl)

theorem saEmpty_loss (p : Nat) (s : State) : RegsOnly lossKeys s (saEmpty p s) := by
  unfold saEmpty
  dsimp only
  split
  · exact ((txAbort_loss p _ s).trans (RegsOnly.of_regs (regs_deRelease ..))).trans (RegsOnly.of_regs rfl)
  · exact (txAbort_loss p _ s).trans (RegsOnly.of_regs rfl)

theorem pgHold_loss (n : Nat) (s : State) : RegsOnly lossKeys s (pgHold n s) := by
  unfold pgHold
  refine RegsOnly.trans ?_ (RegsOnly.each _ saFlush_loss _ _)
  exact RegsOnly.of_regs rfl

theorem flushPort_loss (p : Nat) (s : State) : RegsOnly lossKeys s (flushPort p s) := by
  unfold flushPort
  refine RegsOnly.trans ?_ (RegsOnly.each _ (fun _ u => saEmpty_loss _ u) _ _)
  exact RegsOnly.of_regs rfl

theorem fifoStat_loss (n t : Nat) (s : State) : RegsOnly lossKeys s (fifoStat n t s) :=
  (RegsOnly.setF _ _ (lossKeys_privK ..)).trans (RegsOnly.setF _ _ (lossKeys_privK ..))

theorem putNotice_loss (n t : Nat) (x : Notice) (s : State) : RegsOnly lossKeys s (putNotice n t x s).2 := by
  unfold putNotice
  split
  · exact (RegsOnly.of_regs (regs_of (by simp))).trans (fifoStat_loss ..)
  · exact (RegsOnly.flag _ (lossKeys_privK ..)).trans (fifoStat_loss ..)

theorem portEvent_loss (p code arg turn : Nat) (s : State) : RegsOnly lossKeys s (portEvent p code arg turn s) := by
  unfold portEvent
  dsimp only
  split
  · exact RegsOnly.congr_regs (putNotice_loss ..) (regs_of (sendPort_view _ (by simp) (by simp) ..))
  · exact putNotice_loss ..

theorem pktEnd_loss (n t j p turn pk : Nat) (s : State) : RegsOnly lossKeys s (pktEnd n t j p turn pk s).2 := by
  have hOpen : RegsOnly lossKeys s (takeOpen n t j s) := RegsOnly.of_regs rfl
  have hTake : ∀ c : Bool, RegsOnly lossKeys s (if c then takeOpen n t j s else runClose false p (takeOpen n t j s)) :=
    fun c => RegsOnly.ite (RegsOnly.of_regs rfl) (hOpen.trans (runClose_log ..).log_loss)
  have hNotice : ∀ u x k, RegsOnly lossKeys s u → RegsOnly lossKeys s (if (putNotice n t x u).1 then
      (some k, (putNotice n t x u).2) else ((none : Option Packet), jUndelivered p k 0x10 (putNotice n t x u).2)).2 :=
    fun u x k hu => by
      split
      · exact hu.trans (putNotice_loss ..)
      · exact (hu.trans (putNotice_loss ..)).trans (jUndelivered_log ..).log_loss
  unfold pktEnd
  split
  · exact RegsOnly.refl ..
  · exact hNotice _ _ _ (hTake _)

theorem routePacket_loss (p : Nat) (k : Packet) (s : State) : RegsOnly lossKeys s (routePacket p k s) := by
  have hDrop : ∀ m u, u.regs = s.regs → RegsOnly lossKeys s (jUndelivered p k m u) := fun m u hu =>
    (RegsOnly.of_regs hu).trans (jUndelivered_log ..).log_loss
  exact RegsOnly.ite (hDrop _ _ rfl) (RegsOnly.ite (hDrop _ _ rfl) (RegsOnly.of_regs (regs_of (by simp))))

theorem truncateOpen_loss (p turn : Nat) (s : State) : RegsOnly lossKeys s (truncateOpen p turn s) := by
  unfold truncateOpen
  dsimp only
  split
  · exact (pktEnd_loss ..).trans (routePacket_loss ..)
  · exact pktEnd_loss ..

theorem lossEffects_loss (p turn : Nat) (s : State) : RegsOnly lossKeys s (lossEffects p turn s) := by
  have hDrop : ∀ u, RegsOnly lossKeys u (dropOneshots p turn (clearPending p none u)) := fun u =>
    RegsOnly.of_regs (regs_of (by simp))
  unfold lossEffects
  dsimp only
  exact RegsOnly.congr_regs (((truncateOpen_loss p turn s).trans (hDrop _)).trans (flushPort_loss p _)) (updPort_regs ..)

theorem portState_loss (p st : Nat) (s : State) : RegsOnly lossKeys s (portState p st s) := by
  unfold portState
  refine RegsOnly.trans ?_ (jPort_log ..).log_loss
  exact RegsOnly.of_regs rfl

/-- The loss of a port leaves every other register. -/
theorem lossRecorded_loss (p : Nat) (s : State) : RegsOnly lossKeys s (lossRecorded p s) := by
  have hTake : RegsOnly lossKeys s (jPort 4 p [] (overtake p s)) :=
    (RegsOnly.of_regs (regs_of (by simp))).trans (jPort_log ..).log_loss
  have hQuiet : ∀ f u, RegsOnly lossKeys u (updPort p f (portQuiet p u)) := fun f u => RegsOnly.of_regs rfl
  have hEvent : ∀ st t f, RegsOnly lossKeys s (portEvent p 4 0 t (portState p st
      (updPort p f (portQuiet p (lossEffects p t (jPort 4 p [] (overtake p s))))))) := fun st t f =>
    (((hTake.trans (lossEffects_loss ..)).trans (hQuiet ..)).trans (portState_loss ..)).trans (portEvent_loss ..)
  unfold lossRecorded
  dsimp only
  split
  · exact RegsOnly.refl ..
  · split
    · exact RegsOnly.congr_regs (hEvent ..) (regs_of (attachAgain_view _ (by simp) ..))
    · exact RegsOnly.congr_regs (hEvent ..) (regs_of (attachOpen_view _ (by simp) ..))

/-! ### A group is held, released, and its supply sensed (R135, R136) -/

theorem pgOn_pgHold (n : Nat) (s : State) : (pgHold n s).pgOn = Tab.store s.pgOn n false false :=
  pgOn_of (each_view pgOnV _ saFlush (fun p u => by simp) _)

theorem released_pgHold (n : Nat) (s : State) : Tab.getD (pgHold n s).pgOn n false = false ∧
    ∀ k, k ≠ n → Tab.getD (pgHold n s).pgOn k false = Tab.getD s.pgOn k false := by
  rw [pgOn_pgHold]
  exact ⟨Tab.getD_store_self .., fun k hk => Tab.getD_store_ne _ _ _ _ hk⟩

/-- A loss or a hold leaves the fields of a pad group's own registers. -/
theorem getF_group {s u : State} (h : RegsOnly lossKeys s u) {n off : Nat} (hn : n < 16) (hLow : 0x3000 ≤ off)
    (hHigh : off < 0x4000) (hi lo : Nat) : getF u (fld (winK n off) hi lo) = getF s (fld (winK n off) hi lo) :=
  h.getF _ (lossKeys_group hn hLow hHigh)

section
variable {s : State} {n : ClusterId}

theorem pgRelease_completes (hTick : atTick s = true) (hCond : holdCond s n.val = false) :
    Completes (.pgRelease n) s (fun u =>
      Tab.getD u.pgOn n.val false = true ∧ pgHeld u n.val = false ∧
      ∀ k, k ≠ n.val → Tab.getD u.pgOn k false = Tab.getD s.pgOn k false) := by
  have hExec : exec (.pgRelease n) s = .next (mapPgOn (fun t => Tab.store t n.val false true) s) := by
    show execPgRelease n s = _
    simp [execPgRelease, hTick, hCond, done]
  have hOn : Tab.getD (mapPgOn (fun t => Tab.store t n.val false true) s).pgOn n.val false = true := by
    rw [mapPgOn_self, Tab.getD_store_self]
  have hHeld : holdCond (mapPgOn (fun t => Tab.store t n.val false true) s) n.val = false := hCond
  refine ⟨_, hExec, hOn, ?_, fun k hk => ?_⟩
  · rw [pgHeld, hHeld, hOn]
    rfl
  · rw [mapPgOn_self, Tab.getD_store_ne _ _ _ _ hk]

theorem pgRelease_waits (h : atTick s = false ∨ holdCond s n.val = true) : exec (.pgRelease n) s = .next s := by
  show execPgRelease n s = _
  rcases h with h | h <;> simp [execPgRelease, h, done]

theorem groupPorts_congr {s t : State} (h : t.ports = s.ports) (n : Nat) : groupPorts t n = groupPorts s n := by
  have hPort : port t = port s := funext (port_of h)
  rw [groupPorts, groupPorts, portIds, portIds, h, hPort]

/-- VIO_OK falls and VIO_FAIL is set. -/
def supplyFailed (n : Nat) (s : State) : State := flag (fVioFail n) (setF (fVioOk n) 0 s)

theorem getF_supplyFailed (n : Nat) (s : State) :
    getF (supplyFailed n s) (fVioOk n) = 0 ∧ getF (supplyFailed n s) (fVioFail n) = 1 := by
  refine ⟨?_, getF_flag_bit _ (by decide) _⟩
  rw [supplyFailed, getF_flag, getF_setF_apart _ _ (by simp [Fld.apart, Fld.ok, fVioFail, fVioOk, bit]),
    getF_setF_self _ _ _ (by simp [Fld.ok, fVioOk, bit]), Nat.zero_mod]

/-- The interrupt is raised, and every port of the group is lost, before the group is held. -/
def supplyLost (n : Nat) (s : State) : State :=
  each (groupPorts s n) (fun p s => lossRecorded p (jPort 5 p [] s)) (occur n 23 (supplyFailed n s))

theorem execVioFail_on (h : isSet s (fVioOk n.val) = true) :
    exec (.vioFail n) s = .next (pgHold n.val (supplyLost n.val s)) := by
  have hPorts : groupPorts (supplyFailed n.val s) n.val = groupPorts s n.val :=
    groupPorts_congr (by simp [supplyFailed]) _
  show execVioFail n s = _
  rw [supplyLost, execVioFail, if_pos h, ← hPorts]
  rfl

theorem supplyLost_loss : RegsOnly lossKeys (supplyFailed n.val s) (supplyLost n.val s) :=
  (occur_loss n.isLt 23 (by decide) _).trans
    (RegsOnly.each _ (fun q u => (jPort_log ..).log_loss.trans (lossRecorded_loss ..)) _ _)

theorem vioFail_completes (hOk : isSet s (fVioOk n.val) = true) :
    Completes (.vioFail n) s (fun u =>
      Tab.getD u.pgOn n.val false = false ∧ getF u (fVioOk n.val) = 0 ∧ getF u (fVioFail n.val) = 1 ∧
      ∀ p ∈ groupPorts s n.val, (port s p).defined = true → (port s p).bypassed = false → 2 ≤ (port s p).state →
        (port u p).state = 5) := by
  have hLoss : RegsOnly lossKeys (supplyFailed n.val s) (pgHold n.val (supplyLost n.val s)) :=
    supplyLost_loss.trans (pgHold_loss ..)
  obtain ⟨hOk', hFail⟩ := getF_supplyFailed n.val s
  refine ⟨_, execVioFail_on hOk, (released_pgHold ..).1, ?_, ?_, fun p hp hDef hByp hState => ?_⟩
  · exact (getF_group (off := 0x3004) hLoss n.isLt (by decide) (by decide) 0 0).trans hOk'
  · exact (getF_group (off := 0x3004) hLoss n.isLt (by decide) (by decide) 3 3).trans hFail
  · have hSame : (lifeV p).at (occur n.val 23 (supplyFailed n.val s)) = (lifeV p).at s := by simp [supplyFailed]
    rw [state_of_life (lifeV_pgHold p n.val _)]
    exact state_each_lossRecorded hp ((inService_of_life hSame).mpr ⟨hDef, hByp, hState⟩)

theorem vioFail_waits (h : isSet s (fVioOk n.val) = false) : exec (.vioFail n) s = .next s := by
  show execVioFail n s = _
  rw [execVioFail, if_neg (by simp [h]), done]

end

/-! ### The supply is sensed (R136) -/

/-- VIO_OK and VIO_HIGH tell what is found. -/
def supplySensed (n : Nat) (high : Bool) (s : State) : State := setF (fVioHigh n) high.toNat (setF (fVioOk n) 1 s)

/-- A new mismatch raises the interrupt. -/
def mismatchRaised (n : Nat) (bad : Bool) (s : State) : State :=
  if bad && !isSet s (fMismatch n) then occur n 23 s else s

section
variable {n : Nat} (hn : n < 16) (high : Bool) (s : State)

theorem getF_setF_bit (key : Nat) {i : Nat} (hi : i < 32) (b : Bool) (u : State) :
    getF (setF (bit key i) b.toNat u) (bit key i) = b.toNat := by
  rw [getF_setF_self _ _ _ (by simp [Fld.ok, bit, hi])]
  cases b <;> simp [bit]

theorem getF_supplySensed : getF (supplySensed n high s) (fVioOk n) = 1 ∧
    getF (supplySensed n high s) (fVioHigh n) = high.toNat ∧
    getF (supplySensed n high s) (fVio18 n) = getF s (fVio18 n) := by
  refine ⟨?_, getF_setF_bit _ (by decide) _ _, ?_⟩
  · rw [supplySensed, getF_setF_apart _ _ (by simp [Fld.apart, Fld.ok, fVioHigh, fVioOk, bit])]
    exact getF_setF_bit _ (by decide) true s
  · rw [supplySensed, getF_setF_apart _ _ (by simp [Fld.apart, fVioHigh, fVio18, bit, winK]),
      getF_setF_apart _ _ (by simp [Fld.apart, fVioOk, fVio18, bit, winK])]

theorem pgOn_supplySensed : (supplySensed n high s).pgOn = s.pgOn := by simp [supplySensed]

theorem pgOn_mismatchRaised (bad : Bool) : (mismatchRaised n bad s).pgOn = s.pgOn := pgOn_of (by simp [mismatchRaised])

include hn

theorem getF_mismatchRaised (bad : Bool) (i : Nat) :
    getF (mismatchRaised n bad s) (bit (winK n 0x3004) i) = getF s (bit (winK n 0x3004) i) :=
  getF_group (RegsOnly.ite (occur_loss hn 23 (by decide) s) (RegsOnly.refl _ s)) hn (by decide) (by decide) i i

/-- A supply that is sensed is compared with the declared one; a hold condition holds the group. -/
theorem pgSense_supplySensed {u : State} (hu : u = setF (fMismatch n) (decide (high = isSet s (fVio18 n))).toNat
      (mismatchRaised n (decide (high = isSet s (fVio18 n))) (supplySensed n high s))) :
    pgSense n (supplySensed n high s) = if holdCond u n then pgHold n u else u := by
  obtain ⟨hOk, hHigh, h18⟩ := getF_supplySensed (n := n) high s
  have hIsOk : isSet (supplySensed n high s) (fVioOk n) = true := by simp [isSet, hOk]
  have hIsHigh : isSet (supplySensed n high s) (fVioHigh n) = high := by cases high <;> simp [isSet, hHigh]
  have hIs18 : isSet (supplySensed n high s) (fVio18 n) = isSet s (fVio18 n) := by rw [isSet, isSet, h18]
  have hStill : isSet (mismatchRaised n (decide (high = isSet s (fVio18 n))) (supplySensed n high s)) (fVioOk n) = true := by
    rw [isSet, fVioOk, getF_mismatchRaised hn, ← fVioOk, hOk]
    rfl
  rw [mismatchRaised] at hu hStill
  simp only [pgSense, hIsOk, hIsHigh, hIs18, Bool.true_and, hStill, if_true, ← hu]

end

section
variable {n : ClusterId}

theorem pgSupplyMismatch_completes (s : State) (high : Bool) : Completes (.pgSupplyMismatch n high) s (fun u =>
    getF u (fVioOk n.val) = 1 ∧ getF u (fVioHigh n.val) = high.toNat ∧
    getF u (fMismatch n.val) = (if high = isSet s (fVio18 n.val) then 1 else 0) ∧
    (high = isSet s (fVio18 n.val) → Tab.getD u.pgOn n.val false = false) ∧
    ∀ k, k ≠ n.val → Tab.getD u.pgOn k false = Tab.getD s.pgOn k false) := by
  generalize hu : setF (fMismatch n.val) (decide (high = isSet s (fVio18 n.val))).toNat
      (mismatchRaised n.val (decide (high = isSet s (fVio18 n.val))) (supplySensed n.val high s)) = u
  have hExec : exec (.pgSupplyMismatch n high) s = .next (if holdCond u n.val then pgHold n.val u else u) :=
    congrArg Host.Outcome.next (pgSense_supplySensed n.isLt high s hu.symm)
  have hKeep : RegsOnly lossKeys u (if holdCond u n.val then pgHold n.val u else u) :=
    RegsOnly.ite (pgHold_loss ..) (RegsOnly.refl ..)
  have hField : ∀ i, i ≠ 2 →
      getF u (bit (winK n.val 0x3004) i) = getF (supplySensed n.val high s) (bit (winK n.val 0x3004) i) := fun i hi => by
    rw [← hu, getF_setF_bits _ _ _ _ (by simp [Fld.ok, fMismatch, bit]) (show 2 < i ∨ i < 2 by omega),
      getF_mismatchRaised n.isLt]
  have hMismatch : getF u (fMismatch n.val) = (decide (high = isSet s (fVio18 n.val))).toNat := by
    rw [← hu]
    exact getF_setF_bit _ (by decide) _ _
  have hOn : u.pgOn = s.pgOn := by
    rw [← hu, setF_pgOn, pgOn_mismatchRaised, pgOn_supplySensed]
  obtain ⟨hOk, hHigh, -⟩ := getF_supplySensed (n := n.val) high s
  have hEnd := fun i => getF_group (off := 0x3004) hKeep n.isLt (by decide) (by decide) i i
  refine ⟨_, hExec, (hEnd 0).trans ((hField 0 (by decide)).trans hOk), (hEnd 1).trans ((hField 1 (by decide)).trans hHigh),
    (hEnd 2).trans (hMismatch.trans ?_), fun hBad => ?_, fun k hk => ?_⟩
  · by_cases hBad : high = isSet s (fVio18 n.val) <;> simp [hBad]
  · have hHold : holdCond u n.val = true := by simp [holdCond, isSet, hMismatch, hBad]
    rw [if_pos hHold]
    exact (released_pgHold ..).1
  · split
    · exact ((released_pgHold ..).2 k hk).trans (by rw [hOn])
    · rw [hOn]

end

/-! ### A bypass is taken, and released (R152) -/

section
variable {s : State} {p : PortId}

theorem ports_admDone (op key status state : Nat) (b : List Byte) (s : State) :
    (admDone op key status state b s).ports = s.ports := ports_of (by simp)

theorem pads_admDone (op key status state : Nat) (b : List Byte) (s : State) :
    (admDone op key status state b s).pads = s.pads := pads_of (by simp)

theorem ports_sendPort (p t : Nat) (it : Item) (s : State) : (sendPort p t it s).ports = s.ports := ports_of (by simp)

/-- The port's bytes are flushed and its pads put in their safe state. -/
def bypassPads (p : Nat) (s : State) : State :=
  each (port s p).pads (fun i s' => padSafe 0 (64 * (port s p).group + i) s')
    (flushPort p (dropOneshots p (now s) (truncateOpen p (now s) s)))

/-- The port is bypassed. -/
def bypassPort (x : PortSt) (t : Nat) (y : PortSt) : PortSt :=
  { y with bypassed := true, bypassReq := false, before := if x.bypassed then x.before else x.state, lossAt := some t }

theorem bypassNow_eq (p : Nat) (s : State) : bypassNow p s = sendPort p (now s) (.port p 9 0)
    (portState p 4 (updPort p (bypassPort (port s p) (now s)) (portQuiet p (bypassPads p s)))) := by
  unfold bypassNow bypassPads
  rfl

theorem port_bypassNow (p : Nat) (s : State) : (port (bypassNow p s) p).bypassed = true ∧
    (port (bypassNow p s) p).bypassReq = false ∧ (port (bypassNow p s) p).state = 4 ∧
    (port (bypassNow p s) p).probing = none := by
  rw [bypassNow_eq, port_of (ports_sendPort ..), port_portState, port_updPort_self, portQuiet, port_updPort_self]
  exact ⟨rfl, rfl, rfl, rfl⟩

theorem safe_bypassNow {p i : Nat} {s : State} (hi : i ∈ (port s p).pads) :
    0 ∈ (pad (bypassNow p s) (64 * (port s p).group + i)).safe := by
  have hPads : (bypassNow p s).pads = (bypassPads p s).pads := by
    rw [bypassNow_eq]
    exact pads_of (by simp)
  rw [pad_congr hPads]
  exact mem_safe_each 0 _ hi _

theorem bypassApply_completes (hTick : atTick s = true) (hReq : (port s p.val).bypassReq = true) :
    Completes (.bypassApply p) s (fun u =>
      (port u p.val).bypassed = true ∧ (port u p.val).bypassReq = false ∧ (port u p.val).state = 4 ∧
      (port u p.val).probing = none ∧
      ∀ i ∈ (port s p.val).pads, 0 ∈ (pad u (64 * (port s p.val).group + i)).safe) := by
  have hExec : exec (.bypassApply p) s = .next (admDone 0x47 p.val 0 0 [] (bypassNow p.val s)) := by
    show execBypassApply p s = _
    rw [execBypassApply, hTick, hReq, Bool.true_and, if_pos rfl, done]
  refine ⟨_, hExec, ?_⟩
  obtain ⟨hByp, hAsked, hState, hProbing⟩ := port_bypassNow p.val s
  rw [port_of (ports_admDone ..)]
  refine ⟨hByp, hAsked, hState, hProbing, fun i hi => ?_⟩
  rw [pad_congr (pads_admDone ..)]
  exact safe_bypassNow hi

/-- The port's pads leave the safe state that its bypass put them in. -/
def releasePads (p : Nat) (s : State) : State :=
  each (port s p).pads (fun i s' => padUnsafe 0 (64 * (port s p).group + i) s') s

/-- The port is released: its polls begin afresh at turn t (R468). -/
def releasePort (t : Nat) (y : PortSt) : PortSt :=
  { y with bypassed := false, releaseReq := false, pollBase := some t, pollK := 0 }

/-- The port has the state that follows from the one it had, and its device is told. -/
def releaseTold (p : Nat) (s : State) : State :=
  let st := releaseState (port s p).before
  let u := portState p st (updPort p (releasePort (now (releasePads p s))) (releasePads p s))
  sendPort p (now u) (.port p 10 st) u

theorem releaseNow_eq (p : Nat) (s : State) : releaseNow p s =
    if releaseState (port s p).before = 4 then lossOpen p (releaseTold p s)
    else attachOpen p 1 (lossOpen p (releaseTold p s)) := by
  unfold releaseNow releaseTold releasePads
  rfl

theorem port_releaseNow (p : Nat) (s : State) : (port (releaseNow p s) p).bypassed = false ∧
    (port (releaseNow p s) p).releaseReq = false ∧ (port (releaseNow p s) p).state = releaseState (port s p).before := by
  have hOpen : portLife (port (releaseNow p s) p) = portLife (port (releaseTold p s) p) := by
    rw [releaseNow_eq, ← lifeV_at, ← lifeV_at]
    split
    · exact lifeV_lossOpen p p _
    · exact (lifeV_attachOpen p p 1 _).trans (lifeV_lossOpen p p _)
  rw [releaseTold, port_of (ports_sendPort ..), port_portState, port_updPort_self] at hOpen
  simp only [portLife, releasePort, Prod.mk.injEq] at hOpen
  obtain ⟨-, hByp, hRel, hState⟩ := hOpen
  exact ⟨hByp, hRel, hState⟩

theorem safe_releaseNow {p i : Nat} {s : State} (hi : i ∈ (port s p).pads) :
    0 ∉ (pad (releaseNow p s) (64 * (port s p).group + i)).safe := by
  have hTold : padsV.at (releaseTold p s) = padsV.at (releasePads p s) := by simp [releaseTold]
  have hPads : (releaseNow p s).pads = (releasePads p s).pads := by
    rw [releaseNow_eq]
    exact pads_of (by simp [hTold])
  rw [pad_congr hPads]
  exact not_mem_safe_each 0 _ hi _

theorem bypassReleaseApply_completes (hTick : atTick s = true) (hReq : (port s p.val).releaseReq = true) :
    Completes (.bypassReleaseApply p) s (fun u =>
      (port u p.val).bypassed = false ∧ (port u p.val).releaseReq = false ∧
      (port u p.val).state = releaseState (port s p.val).before ∧
      ∀ i ∈ (port s p.val).pads, 0 ∉ (pad u (64 * (port s p.val).group + i)).safe) := by
  have hExec : exec (.bypassReleaseApply p) s = .next (admDone 0x48 p.val 0 0 [] (releaseNow p.val s)) := by
    show execBypassReleaseApply p s = _
    rw [execBypassReleaseApply, hTick, hReq, Bool.true_and, if_pos rfl, done]
  refine ⟨_, hExec, ?_⟩
  obtain ⟨hByp, hAsked, hState⟩ := port_releaseNow p.val s
  rw [port_of (ports_admDone ..)]
  refine ⟨hByp, hAsked, hState, fun i hi => ?_⟩
  rw [pad_congr (pads_admDone ..)]
  exact safe_releaseNow hi

theorem bypassApply_waits (h : atTick s = false ∨ (port s p.val).bypassReq = false) :
    exec (.bypassApply p) s = .next s := by
  show execBypassApply p s = _
  rcases h with h | h <;> simp [execBypassApply, h, done]

theorem bypassReleaseApply_waits (h : atTick s = false ∨ (port s p.val).releaseReq = false) :
    exec (.bypassReleaseApply p) s = .next s := by
  show execBypassReleaseApply p s = _
  rcases h with h | h <;> simp [execBypassReleaseApply, h, done]

end

end Sys2Proof.Machine

open Sys2Proof Sys2Proof.Machine

/-- Settles O20: the group's own registers lie outside those that a loss or a hold can change, and what one loss, or one
pad's safe state, brings about is kept by those that follow. -/
theorem padGroupsAndBypass : Obligations.PadGroupsAndBypass := by
  unfold Obligations.PadGroupsAndBypass
  refine ⟨⟨?_, ?_, ?_, ?_, ?_⟩, ?_, ?_, ?_⟩
  · exact fun s n => pgRelease_completes
  · exact fun s n => pgRelease_waits
  · exact fun s n => vioFail_completes
  · exact fun s n => vioFail_waits
  · exact fun s n => pgSupplyMismatch_completes s
  · exact fun s p => bypassApply_completes
  · exact fun s p => bypassReleaseApply_completes
  · exact fun s p => ⟨bypassApply_waits, bypassReleaseApply_waits⟩
end

section
namespace Sys2Proof.Machine

/-! ### A device's load channel is commanded (R162, R171, R172) -/

namespace SameOutbox

theorem trans {s u v : State} {t : Nat} (h : SameOutbox s u t) (g : SameOutbox u v t) : SameOutbox s v t :=
  ⟨g.1.trans h.1, g.2.trans h.2⟩

theorem ite {s u v : State} {t : Nat} {p : Prop} [Decidable p] (hu : SameOutbox s u t) (hv : SameOutbox s v t) :
    SameOutbox s (if p then u else v) t := by
  split
  · exact hu
  · exact hv

/-- An item on its way to a tenant is no slot of the tenant's outbox. -/
theorem sendItem (n d turn key : Nat) (remote : Bool) (it : Item) (s : State) (t : Nat) :
    SameOutbox s (Machine.sendItem n d turn key remote it s) t := by
  unfold Machine.sendItem
  refine ite (.of_tenants t (tenants_of (by simp))) ?_
  by_cases h : t = n
  · subst h
    exact ⟨by rw [ten_updTen_self], by rw [ten_updTen_self]⟩
  · exact .of_ten (ten_updTen_ne _ _ _ h)

theorem loadReport (c : Nat) (tag : Option Nat) (sent : Nat) (s : State) (t : Nat) :
    SameOutbox s (Machine.loadReport c tag sent s) t := by
  unfold Machine.loadReport
  split
  · exact ite (sendItem ..) (.of_ten rfl)
  · exact .of_ten rfl

/-- The command that another replaces is answered to administration, and its kick reported as an item (R162). -/
theorem lcReplace (c : Nat) (s : State) {t : Nat} (ht : t ≠ 256) : SameOutbox s (Machine.lcReplace c s) t := by
  unfold Machine.lcReplace
  split
  · exact .of_ten rfl
  · next x _ =>
    have hAdm := ite (p := x.admin = true)
      (.of_ten ((TenantsSame.admDone 0x59 c 3 (lcState (updChan c (fun y => { y with staged := none }) s) c) []
        (updChan c (fun y => { y with staged := none }) s)).ten t ht)) (.of_ten rfl)
    have hUpd : SameOutbox s (updChan c (fun y => { y with staged := none }) s) t := .of_ten rfl
    exact (hUpd.trans hAdm).trans (ite (loadReport ..) (.of_ten rfl))

theorem lcStageTenant (c : Nat) (v : Word) (tag : Option Nat) (s : State) {t : Nat} (ht : t ≠ 256) :
    SameOutbox s (Machine.lcStageTenant c v tag s) t := by
  have hLog : ∀ ev data, SameOutbox s (jLoad c ev data s) t := fun ev data => .of_tenants t (tenants_of (by simp))
  exact ((hLog _ _).trans (lcReplace c _ ht)).trans (.of_ten rfl)

end SameOutbox

theorem chan_lcStageTenant (c : Nat) (v : Word) (tag : Option Nat) (s : State) :
    (chan (lcStageTenant c v tag s) c).staged.map (fun w => w.word) = some v := by
  rw [lcStageTenant, chan_lcStage]
  rfl

theorem chans_respond (t op tag dv status state : Nat) (pl : List Byte) (s : State) :
    (respond t op tag dv status state pl s).chans = s.chans := chans_of (by simp)

theorem chan_of {s u : State} (h : u.chans = s.chans) (c : Nat) : chan u c = chan s c := by rw [chan, h, chan]

theorem tenantId_ne_admin (t : TenantId) : t.val ≠ 256 := t.isLt.ne

/-! ### LOAD_CLEAR (R171, R303) -/

theorem tform_loadClear : TForm .loadClear 0x0A 0 := tform_of_mem (q := (.loadClear, 0x0A, 0)) (by simp [tenantForms])

section
variable {s : State} {x : TCmd}

theorem devCommand_loadClear :
    devCommand x.tenant.val x.device.toNat (cmdSlot 0x0A x) s =
      (respond x.tenant.val 0x0A x.tag.toNat x.device.toNat (loadClear x.tenant.val x.device.toNat x.tag.toNat s).1
        (loadClear x.tenant.val x.device.toNat x.tag.toNat s).2.1 []
        (loadClear x.tenant.val x.device.toNat x.tag.toNat s).2.2, []) := by
  rw [devCommand, slotOp_cmdSlot 0x0A x (by decide), slotTag_cmdSlot, if_neg (by decide)]
  rfl

variable (hx : CmdOk s x 0) (hf : DevFree s x)
include hx hf

theorem exec_loadClear {status state : Nat} {u : State}
    (hu : loadClear x.tenant.val x.device.toNat x.tag.toNat s = (status, state, u)) :
    exec (.loadClear x) s = .next (respond x.tenant.val 0x0A x.tag.toNat x.device.toNat status state [] u) := by
  refine exec_devCommand_alone tform_loadClear (by decide) hx hf ?_
  rw [devCommand_loadClear, hu]

theorem loadClear_staged_completes {c : Nat} (hChan : (cmdDev s x).chan = some c)
    (hMay : lcState s c ≠ 5 ∨ getF s (fLcCause c) = 2 ∨ getF s (fLcCause c) = 3 ∨ getF s (fLcCause c) = 5) :
    Completes (.loadClear x) s (fun u =>
      ((chan u c).staged.map (fun w => w.word)) = some 6 ∧
      Staged s u x.tenant.val (answer x 0x0A 0 (stateCode (cmdDev s x)) [])) := by
  have hTaken : loadClear x.tenant.val x.device.toNat x.tag.toNat s =
      (0, stateCode (cmdDev s x), lcStageTenant c 6 (some x.tag.toNat) s) := by
    rw [cmdDev] at hChan
    simp only [loadClear, hChan]
    rw [if_neg, cmdDev]
    rintro ⟨h5, hNot⟩
    rw [Bool.not_eq_true', decide_eq_false_iff_not] at hNot
    exact hMay.elim (fun h => h h5) hNot
  refine ⟨_, exec_loadClear hx hf hTaken, ?_,
    staged_respond (.lcStageTenant _ _ _ _ (tenantId_ne_admin _)) _ _ _ _ _ (Nat.zero_le _)⟩
  rw [chan_of (chans_respond ..), chan_lcStageTenant]

theorem loadClear_conflict_completes {c : Nat} (hChan : (cmdDev s x).chan = some c) (h5 : lcState s c = 5)
    (hNot : getF s (fLcCause c) ≠ 2 ∧ getF s (fLcCause c) ≠ 3 ∧ getF s (fLcCause c) ≠ 5) :
    Completes (.loadClear x) s (fun u =>
      Staged s u x.tenant.val (answer x 0x0A 3 6 []) ∧ u.chans = s.chans) := by
  obtain ⟨h2, h3, hSag⟩ := hNot
  have hRefused : loadClear x.tenant.val x.device.toNat x.tag.toNat s =
      (3, 6, jConflict x.tenant.val x.device.toNat x.tag.toNat 0x0A 6 s) := by
    rw [cmdDev] at hChan
    simp only [loadClear, hChan]
    exact if_pos ⟨h5, by simp [h2, h3, hSag]⟩
  exact ⟨_, exec_loadClear hx hf hRefused,
    staged_respond (.of_tenants _ (tenants_jConflict ..)) _ _ _ _ _ (Nat.zero_le _),
    (chans_respond ..).trans (chans_of (by simp))⟩

theorem loadClear_unattached_completes (hChan : (cmdDev s x).chan = none) :
    Completes (.loadClear x) s (fun u =>
      Staged s u x.tenant.val (answer x 0x0A 2 (stateCode (cmdDev s x)) []) ∧ u.chans = s.chans) := by
  have hRefused : loadClear x.tenant.val x.device.toNat x.tag.toNat s = (2, stateCode (cmdDev s x), s) := by
    rw [cmdDev] at hChan
    simp only [loadClear, hChan]
    rfl
  exact ⟨_, exec_loadClear hx hf hRefused, staged_respond (.of_ten rfl) _ _ _ _ _ (Nat.zero_le _), chans_respond ..⟩

end

/-! ### A drawer's kick (R172, R305) -/

theorem cform_drawerKick : CForm .drawerKick 0x40 2 := cform_of_mem (p := (.drawerKick, 0x40, 2)) (by simp [classForms])

section
variable {s : State} {x : TCmd} {c : Nat} (hCls : (cmdDev s x).cls = 3) (hChan : (cmdDev s x).chan = some c)
include hCls hChan

/-- The kick of a drawer with a load channel is the channel's, not the machine's (R172). -/
theorem runOp_drawerKick :
    runOp x.tenant.val x.device.toNat 0x40 2 x.tag.toNat x.payload s =
      some { FAcc.start (lcStageTenant c 3 (some x.tag.toNat) s) with sent := true } := by
  have hLc : lcOp x.tenant.val x.device.toNat 0x40 x.payload (some x.tag.toNat) s =
      some (lcStageTenant c 3 (some x.tag.toNat) s) := by
    rw [cmdDev] at hCls hChan
    simp [lcOp, lcWord, hChan, hCls]
  rw [runOp, if_neg (by simp)]
  dsimp only
  rw [if_neg (by decide), hLc]

theorem drawerKick_completes (hx : CmdOk s x 0) (hf : DevFree s x) (hPresent : (cmdDev s x).present = 1)
    (hReady : stateCode (cmdDev s x) = 2) :
    Completes (.drawerKick x) s (fun u =>
      ((chan u c).staged.map (fun w => w.word)) = some 3 ∧
      (cmdDev u x).seq = some { tag := x.tag.toNat, code := 0x40, timeoutUs := 500000, sent := true, ends := none } ∧
      Staged s u x.tenant.val (answer x 0xC0 0 2 [])) := by
  have hClass : ClassOk s x 0x40 { cls := some 3, isOp := true, kind := 2 } :=
    ⟨hx, hf, hPresent, rfl, congrArg some hCls.symm, rfl⟩
  have hExec := exec_classOp_taken cform_drawerKick hClass (legalOp_ready cform_drawerKick hClass hReady) rfl
    (runOp_drawerKick hCls hChan)
  rw [hReady] at hExec
  have hOutbox : SameOutbox s (lcStageTenant c 3 (some x.tag.toNat) s) x.tenant.val :=
    .lcStageTenant _ _ _ _ (tenantId_ne_admin _)
  refine ⟨_, hExec, ?_, ?_, staged_respond (hOutbox.trans (.of_tenants _ (tenants_classTaken ..))) _ _ _ _ _
    (Nat.zero_le _)⟩
  · rw [chan_of (chans_respond ..)]
    exact chan_lcStageTenant ..
  · rw [cmdDev, dev_of (devices_respond ..), dev_updDev_self, afterOp, if_neg (by decide), if_pos ⟨rfl, rfl⟩, seqStart,
      dev_updDev_self]

end

end Sys2Proof.Machine

open Sys2Proof Sys2Proof.Machine

/-- Settles O16: LOAD_CLEAR by the channel and the cause of its trip; a drawer's kick is a class operation that its load
channel takes. -/
theorem loadChannelDevices : Obligations.LoadChannelDevices := by
  unfold Obligations.LoadChannelDevices
  exact ⟨fun s x c hx hf => loadClear_staged_completes hx hf, fun s x c hx hf hChan h5 h2 h3 hSag =>
    loadClear_conflict_completes hx hf hChan h5 ⟨h2, h3, hSag⟩, fun s x hx hf => loadClear_unattached_completes hx hf,
    fun s x c hx hf hPresent hCls hChan hReady => drawerKick_completes hCls hChan hx hf hPresent hReady⟩
end

section
open Sys2Proof Sys2Proof.Machine

namespace Sys2Proof.Machine

/-- Channel 0 is in INRUSH until turn 100, and group 0's voltage sags. A second SAG_ASSERT of the group waits, and behind it
the SHORT_TRIP of the channel. -/
def sagTwice : State :=
  { updChan 0 (fun x => { x with grant := 100 })
      (setF (fLcState 0) 2 (setF (fLgSagCode 0) 1 (setF fLock 1 State.reset))) with
    pending := [.sagAssert 0, .shortTrip 0] }

end Sys2Proof.Machine

/-- Refutes O25: the sag clause judges whether SHORT ranks before the abort (R168) on the state in which SAG_ASSERT comes to
act. The command judges it after SAG is set and the sag filter has restarted (R166). A second SAG_ASSERT of the group that
waits first is then no outcome of this turn, and the SHORT_TRIP behind it is not seen: the channel is aborted, where the
clause leaves every channel as it was. -/
theorem not_loadTripsAndConfiguration : ¬ Obligations.LoadTripsAndConfiguration := by
  unfold Obligations.LoadTripsAndConfiguration
  rintro ⟨⟨-, -, -, -, -, -, hSag, -⟩, -⟩
  obtain ⟨-, -, -, hChans⟩ := (hSag sagTwice 0 (by decide) (by decide) (by decide) (by decide)).of_exec rfl
  have hAborted : (chan sagTwice 0).outAt = some 0 := by
    rw [← chan_of hChans 0]
    decide +kernel
  exact absurd hAborted (by decide)
end

section
namespace Sys2Proof.Machine

/-! ### The registers that an event of a load channel leaves (R170, R389–R392) -/

/-- Every register but those of the load controllers. -/
def restKeys (k : Nat) : Bool := !loadKeys k

theorem loadKeys_of_restKeys {k : Nat} (h : restKeys k = false) : loadKeys k = true := by simpa [restKeys] using h

theorem restKeys_below {k : Nat} (h : k < 0x49000000) : restKeys k = true := by
  rw [restKeys, loadKeys, Bool.not_eq_true', decide_eq_false_iff_not]
  omega

theorem restKeys_winK {n off : Nat} (hn : n < 16) (ho : off < 0x10000) : restKeys (winK n off) = true :=
  restKeys_below (by rw [winK]; omega)

theorem RegsOnly.log_rest {s t : State} (h : RegsOnly logKeys s t) : RegsOnly restKeys s t :=
  h.mono fun _ hk => logKeys_of_admKeys (admKeys_load (loadKeys_of_restKeys hk))

theorem icKeys_load (c : Nat) {k : Nat} (hk : loadKeys k = true) : icKeys c k = false := by
  simp only [loadKeys, decide_eq_true_eq] at hk
  rw [icKeys, decide_eq_false_iff_not, icK, icK, winK, winK]
  split <;> omega

theorem occurAt_rest (t c : Nat) {k : Nat} (hk : k < 64) (s : State) : RegsOnly restKeys s (occurAt t c k s) :=
  (occurAt_log t c k s hk).mono fun _ hj => icKeys_load c (loadKeys_of_restKeys hj)

section
variable {n c : Nat} (hn : n < 16) (s : State)
include hn

theorem evOvr_rest (hc : c < 32) : RegsOnly restKeys s (flag (fEvrOvr n c) s) :=
  RegsOnly.flag s (restKeys_winK hn (by omega))

theorem evOut_rest (t : Nat) (hc : c < 32) : RegsOnly restKeys s (evOut n t c s) := by
  have hPad : getF s (fEvrOutpad n c) < 64 := getF_lt s (fEvrOutpad n c)
  have hOut : restKeys (fOut (64 * n + getF s (fEvrOutpad n c))).key = true := restKeys_winK (by omega) (by omega)
  have hWrite : ∀ v, RegsOnly restKeys s (outWriteAt t (64 * n + getF s (fEvrOutpad n c)) v s) := fun v =>
    (RegsOnly.setF v.toNat s hOut).trans (.of_regs rfl)
  exact .ite (.refl ..) (.ite (evOvr_rest hn s hc) (hWrite _))

theorem evWake_rest : RegsOnly restKeys s (evWake n c s) := by
  have hPwr : restKeys (fPwr n).key = true := restKeys_below (k := 0x47000100 + 4 * n) (by omega)
  have hStart : RegsOnly restKeys s (wakeStart n 3 s) := RegsOnly.trans (t := updPwrCl n _ s) (.of_regs rfl) (.setF 3 _ hPwr)
  have hWake : RegsOnly restKeys s (wakeRequest n 3 s) := by
    unfold wakeRequest
    dsimp only
    rw [if_neg (by omega : ¬ (getF s fChip = 2 ∧ (3 = 1 ∨ 3 = 2)))]
    exact .ite hStart (.ite (.of_regs rfl) (.refl ..))
  exact .ite hWake (.refl ..)

variable (hc : c < 32)
include hc

theorem evIntr_rest (t : Nat) : RegsOnly restKeys s (evIntr n t c s) := by
  unfold evIntr
  exact .ite (evOvr_rest hn s hc) (.ite (occurAt_rest t n (by omega) s) (.of_regs rfl))

/-- The consumers of one event (R391). -/
theorem evConsumers_rest (t : Nat) : RegsOnly restKeys s (evWake n c (evOut n t c (evIntr n t c s))) :=
  ((evIntr_rest hn s hc t).trans (evOut_rest hn _ t hc)).trans (evWake_rest hn _)

theorem evHold_rest : RegsOnly restKeys s (evHold n c s) := .ite (evOvr_rest hn s hc) (.of_regs rfl)

end

theorem evGroups_rest (n t : Nat) (cs : List Nat) (s : State) : RegsOnly restKeys s (evGroups n t cs s) :=
  .ite (.refl ..) (.of_regs rfl)

section
variable {n : Nat} (hn : n < 16)
include hn

theorem evFire_rest {cs : List Nat} (hcs : ∀ c ∈ cs, c < 32) (fuel u : Nat) (s : State) :
    RegsOnly restKeys s (evFire fuel n u cs s) := by
  induction fuel generalizing cs u s with
  | zero => exact .refl ..
  | succ fuel ih =>
    unfold evFire
    refine .ite (.refl ..) ?_
    refine RegsOnly.trans ?_ (ih (fun c hc => List.mem_range.mp (List.mem_of_mem_filter hc)) _ _)
    refine RegsOnly.trans ?_ (evGroups_rest ..)
    refine RegsOnly.trans (t := updClus n _ s) (.of_regs rfl) (RegsOnly.each_mem (fun c hc v => ?_) _)
    exact evConsumers_rest hn v (hcs c (List.mem_of_mem_filter hc)) _

theorem evProduce_rest (k : Nat) (f : Nat → Bool) (s : State) : RegsOnly restKeys s (evProduce n k f s) := by
  have hLow : ∀ c ∈ (List.range 32).filter (fun c => isSet s (fEvrProd n c k) && f c), c < 32 := fun c hc =>
    List.mem_range.mp (List.mem_of_mem_filter hc)
  exact .ite (RegsOnly.each_mem (fun c hc v => evHold_rest hn v (hLow c (List.mem_of_mem_filter hc))) s)
    (evFire_rest hn hLow _ _ s)

end

theorem loadEvent_rest {c : Nat} (hc : c < 128) (kind arg : Nat) (s : State) :
    RegsOnly restKeys s (loadEvent c kind arg s) := by
  have hOccur : ∀ u, RegsOnly restKeys u (occurCp (12 + c / 8) u) := fun u => occurAt_rest _ _ (by omega) u
  have hTenant : ∀ u, RegsOnly restKeys u (occur (getF u (fLcTenant c) / 16) 24 u) := fun u =>
    occurAt_rest _ _ (by omega) u
  have hHand : ∀ u, RegsOnly restKeys u (loadHand c kind arg u) := fun u => .of_regs (regs_of (by simp))
  have hProduced := ((jLoad_log c kind [BitVec.ofNat 8 arg] s).log_rest.trans (hOccur _)).trans
    (evProduce_rest (n := c / 8) (by omega) 27 (fun _ => true) _)
  exact (hProduced.trans (.ite (hTenant _) (.refl ..))).trans (hHand _)

theorem LoadSame.of_rest {s t : State} (hC : t.chans = s.chans) (hG : t.lgroups = s.lgroups) (hT : t.time = s.time)
    (hR : RegsOnly restKeys s t) : LoadSame s t :=
  ⟨hC, hG, hT, fun f hf => hR.getF f (by rw [restKeys, hf]; rfl)⟩

theorem LoadSame.loadEvent {c : Nat} (hc : c < 128) (kind arg : Nat) (s : State) :
    LoadSame s (Machine.loadEvent c kind arg s) :=
  .of_rest (chans_of (by simp)) (lgroups_of (by simp)) (time_of (by simp)) (loadEvent_rest hc ..)

end Sys2Proof.Machine
end

section
namespace Sys2Proof.Machine

/-! ### What a channel's steps leave of its registers (R163, R165, R173, R174) -/

theorem loadKeys_lcK {c off : Nat} (hc : c < 128) (ho : off < 0x80) : loadKeys (lcK c off) = true := by
  rw [loadKeys, decide_eq_true_eq, lcK]
  omega

theorem loadKeys_lgK {g off : Nat} (hg : g < 16) (ho : off < 0x10) : loadKeys (lgK g off) = true := by
  rw [loadKeys, decide_eq_true_eq, lgK]
  omega

theorem goTo_now (s : State) : goTo (now s) s = s := by
  show { s with time := { s.time with turn := max s.time.turn s.time.turn } } = s
  rw [Nat.max_self]

theorem goTo_max (e : Nat) (s : State) : goTo (max (now s) e) s = goTo e s := by
  show { s with time := { s.time with turn := max s.time.turn (max s.time.turn e) } } = goTo e s
  rw [← Nat.max_assoc, Nat.max_self]
  rfl

theorem traceEnd_rest (c code : Nat) (s : State) : RegsOnly restKeys s (traceEnd c code s) := by
  unfold traceEnd
  split
  · exact .refl ..
  · exact .ite (.of_regs rfl) (RegsOnly.trans (t := updChan c _ s) (.of_regs rfl) (jnlBy_log ..).log_rest)

theorem trace_traceEnd (c code : Nat) (s : State) : (chan (traceEnd c code s) c).trace = none := by
  unfold traceEnd
  split
  · assumption
  · dsimp only
    split
    · rw [chan_updChan_self]
    · rw [chan_of (chans_of (s := updChan c (fun x => { x with trace := none }) s) (by simp)), chan_updChan_self]

section
variable {c : Nat} (s : State) {f : Fld} (hc : c < 128) (hf : f.key = lcK c 0x10)
include hc hf

theorem getF_traceEnd_stat (code : Nat) : getF (traceEnd c code s) f = getF s f :=
  (traceEnd_rest c code s).getF f (by rw [restKeys, hf, loadKeys_lcK hc (by decide)]; rfl)

omit hc in
theorem inrush_apart_stat : (fLgInrush (c / 8)).apart f = true := by
  rw [Fld.apart, hf]
  simp [fLgInrush, fld, lgK, lcK]
  omega

theorem getF_lcLeave_stat (code : Nat) : getF (lcLeave c code s) f = getF s f := by
  simp only [lcLeave]
  rw [getF_updChan, getF_updLGroup]
  split
  · rw [getF_setF_apart _ _ (inrush_apart_stat hf), getF_updLGroup, getF_traceEnd_stat s hc hf]
  · rfl

end

section
variable {c : Nat} (s : State) {f : Fld} (hf : f.key = lcK c 0x10) (hlo : 2 < f.lo)
include hf hlo

theorem getF_lcWait_stat : getF (lcWait c false s) f = getF s f := by
  rw [lcWait, getF_lcEnter_stat _ _ hf hlo]
  rfl

end

end Sys2Proof.Machine
end

section
namespace Sys2Proof.Machine

/-! ### INRUSH_GRANT (R164, R165) -/

/-- The end of the pulse or the on-phase that a drive begins at turn t (R163, R164). -/
def phaseFrom (s : State) (c t : Nat) : LcMode → Option Nat
  | .steady => none
  | .kick => some (t + msTurns (getF s (fLcPulse c)))
  | .blink a _ => some (t + msTurns a)

/-- A channel whose drive goes on at the present turn. -/
def drivenFrom (s : State) (c : Nat) (x : ChanSt) : ChanSt :=
  { x with grant := now s, onAt := now s, overAt := now s, pulsed := true, phaseEnd := phaseFrom s c (now s) x.mode,
           trace := if lcTraced s c then some [] else none }

/-- The channel waits in its group's queue no more. -/
def outOfQueue (c : Nat) (s : State) : State :=
  updLGroup (c / 8) (fun x => { x with queue := x.queue.filter (fun d => d ≠ c) }) s

section
variable {c : Nat} {s : State}

theorem lcGrant_good (h : ptsOk 0 0 (lcProfile s c) = true) :
    lcGrant c s = lcEnter c 2 (setF (fLgInrush (c / 8)) c (updChan c (drivenFrom s c) (outOfQueue c s))) := if_pos h

theorem lcGrant_bad (h : ptsOk 0 0 (lcProfile s c) = false) :
    lcGrant c s = loadEvent c 7 0 (loadReport c (chan s c).kickTag 0 (flag (fLcProferr c) (lcEnter c 0
      (updChan c (fun x => { x with mode := .steady, kickTag := none }) (outOfQueue c s))))) :=
  if_neg fun hGood => Bool.false_ne_true (h.symm.trans hGood)

theorem now_lcGrant : now (lcGrant c s) = now s := now_of (time_of (by simp))

theorem lcGrant_good_leaves (hc : c < 128) (h : ptsOk 0 0 (lcProfile s c) = true) :
    lcState (lcGrant c s) c = 2 ∧ chan (lcGrant c s) c = drivenFrom s c (chan s c) ∧
    getF (lcGrant c s) (fLgInrush (c / 8)) = c ∧ lgroup (lcGrant c s) (c / 8) = lgroup (outOfQueue c s) (c / 8) := by
  rw [lcGrant_good h]
  refine ⟨lcState_lcEnter _ (by decide), ?_, ?_, rfl⟩
  · rw [chan_lcEnter, chan_setF, chan_updChan_self]
    rfl
  · rw [getF_lcEnter_inrush, getF_setF_self _ _ _ rfl]
    exact Nat.mod_eq_of_lt (hc.trans (by decide : 128 < 2 ^ 8))

theorem lcGrant_bad_leaves (hc : c < 128) (h : ptsOk 0 0 (lcProfile s c) = false) :
    lcState (lcGrant c s) c = 0 ∧ getF (lcGrant c s) (fLcProferr c) = 1 ∧ (chan (lcGrant c s) c).mode = .steady ∧
    lgroup (lcGrant c s) (c / 8) = lgroup (outOfQueue c s) (c / 8) := by
  rw [lcGrant_bad h]
  have hTold : ∀ u, LoadSame u (loadEvent c 7 0 (loadReport c (chan s c).kickTag 0 u)) := fun u =>
    (LoadSame.loadReport ..).trans (.loadEvent hc ..)
  rw [(hTold _).lcState hc, (hTold _).getF _ (loadKeys_lcK (off := 0x10) hc (by decide)), (hTold _).chan, (hTold _).lgroup]
  refine ⟨?_, ?_, ?_, by rw [lgroup, flag_lgroups]; rfl⟩
  · rw [lcState, getF_flag, getF_setF_apart _ _ (by simp [Fld.apart, Fld.ok, fLcProferr, fLcState, bit, fld])]
    exact lcState_lcEnter _ (by decide)
  · rw [getF_flag, getF_setF_self _ _ _ rfl]
    rfl
  · rw [chan, flag_chans, ← chan, chan_lcEnter, chan_updChan_self]

theorem queue_lcGrant (hc : c < 128) :
    (lgroup (lcGrant c s) (c / 8)).queue = (lgroup s (c / 8)).queue.filter (fun d => d ≠ c) := by
  have hGroup : lgroup (lcGrant c s) (c / 8) = lgroup (outOfQueue c s) (c / 8) := by
    cases h : ptsOk 0 0 (lcProfile s c) with
    | true =>
      obtain ⟨-, -, -, hGroup⟩ := lcGrant_good_leaves hc h
      exact hGroup
    | false =>
      obtain ⟨-, -, -, hGroup⟩ := lcGrant_bad_leaves hc h
      exact hGroup
  rw [hGroup, outOfQueue, lgroup_updLGroup_self]

end

section
variable {s : State} {g : GroupId} {c t : Nat} {q : List Nat} (hQueue : (lgroup s g.val).queue = c :: q)
include hQueue

theorem exec_inrushGrant (hIdle : ∀ d ∈ groupChans g.val, lcState s d ≠ 2 ∧ isSet s (fLcDischarging d) = false)
    (hSag : isSet s (fLgSag g.val) = false)
    (hTurn : (lgroup s g.val).lastEnd = none ∧ t = now s ∨ ∃ e, (lgroup s g.val).lastEnd = some e ∧
      dueNow s (e + 4800 * getF s (fLgGap g.val)) = true ∧ t = max (now s) (e + 4800 * getF s (fLgGap g.val))) :
    exec (.inrushGrant g) s = .next (lcGrant c (goTo t s)) := by
  have hNone : ((groupChans g.val).any (fun d => decide (lcState s d = 2)) || isSet s (fLgSag g.val) ||
      (groupChans g.val).any (fun d => isSet s (fLcDischarging d))) = false := by
    rw [hSag, Bool.or_false, Bool.or_eq_false_iff, List.any_eq_false, List.any_eq_false]
    refine ⟨fun d hd => ?_, fun d hd => ?_⟩
    · simpa using (hIdle d hd).1
    · simpa using (hIdle d hd).2
  show execInrushGrant g s = _
  simp only [execInrushGrant, hQueue, hNone, if_neg Bool.false_ne_true]
  rcases hTurn with ⟨hEnd, rfl⟩ | ⟨e, hEnd, hDue, rfl⟩
  · rw [hEnd, goTo_now]
    rfl
  · rw [hEnd, goTo_max]
    exact atDue_dueNow hDue _

theorem inrushGrant_completes (hc : c / 8 = g.val)
    (hIdle : ∀ d ∈ groupChans g.val, lcState s d ≠ 2 ∧ isSet s (fLcDischarging d) = false)
    (hSag : isSet s (fLgSag g.val) = false)
    (hTurn : (lgroup s g.val).lastEnd = none ∧ t = now s ∨ ∃ e, (lgroup s g.val).lastEnd = some e ∧
      dueNow s (e + 4800 * getF s (fLgGap g.val)) = true ∧ t = max (now s) (e + 4800 * getF s (fLgGap g.val))) :
    Completes (.inrushGrant g) s (fun u =>
      now u = t ∧ (lgroup u g.val).queue = q.filter (fun d => d ≠ c) ∧
      (ptsOk 0 0 (lcProfile s c) = true → lcState u c = 2 ∧ (chan u c).grant = t ∧ getF u (fLgInrush g.val) = c ∧
        lcDrive u c = true ∧ (chan u c).phaseEnd = phaseFrom s c t (chan s c).mode ∧
        (chan u c).trace = (if lcTraced s c then some [] else none)) ∧
      (ptsOk 0 0 (lcProfile s c) = false →
        lcState u c = 0 ∧ getF u (fLcProferr c) = 1 ∧ (chan u c).mode = .steady)) := by
  have hLt : c < 128 := by omega
  have hNow : now (goTo t s) = t := by
    rw [now_goTo]
    rcases hTurn with ⟨-, rfl⟩ | ⟨e, -, -, rfl⟩
    · exact Nat.max_self _
    · rw [← Nat.max_assoc, Nat.max_self]
  refine ⟨_, exec_inrushGrant hQueue hIdle hSag hTurn, now_lcGrant.trans hNow, ?_, fun hGood => ?_, fun hBad => ?_⟩
  · rw [← hc, queue_lcGrant hLt, hc, lgroup_goTo, hQueue]
    simp
  · obtain ⟨hState, hChan, hInrush, -⟩ := lcGrant_good_leaves (s := goTo t s) hLt hGood
    rw [drivenFrom, hNow] at hChan
    rw [← hc, hInrush, lcDrive, hState, hChan]
    exact ⟨rfl, rfl, rfl, rfl, rfl, rfl⟩
  · obtain ⟨hState, hErr, hMode, -⟩ := lcGrant_bad_leaves (s := goTo t s) hLt hBad
    exact ⟨hState, hErr, hMode⟩

end

theorem inrushGrant_waits {s : State} {g : GroupId}
    (h : (lgroup s g.val).queue = [] ∨ (∃ d ∈ groupChans g.val, lcState s d = 2 ∨ isSet s (fLcDischarging d) = true) ∨
      isSet s (fLgSag g.val) = true ∨
      ∃ e, (lgroup s g.val).lastEnd = some e ∧ dueNow s (e + 4800 * getF s (fLgGap g.val)) = false) :
    exec (.inrushGrant g) s = .next s := by
  show execInrushGrant g s = _
  unfold execInrushGrant
  dsimp only
  split
  · rfl
  · next hQueue =>
    split
    · rfl
    · next hFree =>
      simp only [Bool.or_eq_true, List.any_eq_true, decide_eq_true_eq, not_or] at hFree
      obtain ⟨⟨hRush, hSag⟩, hDis⟩ := hFree
      rcases h with h | ⟨d, hd, h | h⟩ | h | ⟨e, hEnd, hDue⟩
      · rw [h] at hQueue; cases hQueue
      · exact absurd ⟨d, hd, h⟩ hRush
      · exact absurd ⟨d, hd, h⟩ hDis
      · exact absurd h hSag
      · rw [hEnd]
        exact atDue_waits (fun f hf => Option.some.inj hf ▸ hDue) _

end Sys2Proof.Machine
end

section
namespace Sys2Proof.Machine

/-! ### INRUSH_END (R164, R167) -/

/-- The window of a channel's inrush ends at the present turn. -/
def inrushDone (c : Nat) (s : State) : State :=
  lcEnter c 3 (setF (fLcAborts c) 0 (updChan c (fun x => { x with overAt := now s, outAt := some (now s) })
    (updLGroup (c / 8) (fun x => { x with lastEnd := some (now s) }) (setF (fLgInrush (c / 8)) 0xFF (traceEnd c 0 s)))))

theorem inrushDone_leaves (c : Nat) (s : State) :
    lcState (inrushDone c s) c = 3 ∧ getF (inrushDone c s) (fLcAborts c) = 0 ∧
    getF (inrushDone c s) (fLgInrush (c / 8)) = 255 ∧ (chan (inrushDone c s) c).mode = (chan s c).mode ∧
    (chan (inrushDone c s) c).trace = none ∧ (lgroup (inrushDone c s) (c / 8)).lastEnd = some (now s) := by
  have hChan : chan (inrushDone c s) c =
      { chan (traceEnd c 0 s) c with overAt := now s, outAt := some (now s) } := by
    rw [inrushDone, chan_lcEnter, chan_setF, chan_updChan_self, chan_updLGroup, chan_setF]
  refine ⟨lcState_lcEnter _ (by decide), ?_, ?_, ?_, ?_, ?_⟩
  · rw [inrushDone, getF_lcEnter_stat _ _ rfl (by decide : 2 < 12), getF_setF_self _ _ _ rfl]
    rfl
  · rw [inrushDone, getF_lcEnter_inrush,
      getF_setF_apart _ _ (by simp [Fld.apart, fLcAborts, fLgInrush, fld, lcK, lgK]; omega), getF_updChan, getF_updLGroup,
      getF_setF_self _ _ _ rfl]
    rfl
  · obtain ⟨tr, hTrace⟩ := chan_traceEnd c s 0
    rw [hChan, hTrace]
  · rw [hChan]
    exact trace_traceEnd c 0 s
  · rw [inrushDone, lgroup_lcEnter, lgroup_setF, lgroup_updChan, lgroup_updLGroup_self]

/-- A pulse or an on-phase of the channel ends before its inrush window. -/
def phaseFirst (s : State) (c : Nat) : Bool :=
  match (chan s c).phaseEnd with
  | some q => decide (q < inrushEnds s c)
  | none => false

theorem phaseFirst_eq_true {s : State} {c : Nat} : phaseFirst s c = true ↔
    ∃ q, (chan s c).phaseEnd = some q ∧ q < inrushEnds s c := by
  unfold phaseFirst
  cases (chan s c).phaseEnd <;> simp

section
variable {s : State} {ch : ChanId}

theorem exec_inrushEnd_eq : exec (.inrushEnd ch) s = if lcState s ch.val = 2 && !phaseFirst s ch.val then
    atDue (some (inrushEnds s ch.val)) (fun u => if outranked u ch.val 4 then u else inrushDone ch.val u) s
    else .next s := rfl

theorem inrushEnd_waits (h : lcState s ch.val ≠ 2 ∨ dueNow s (inrushEnds s ch.val) = false ∨
    ∃ q, (chan s ch.val).phaseEnd = some q ∧ q < inrushEnds s ch.val) : exec (.inrushEnd ch) s = .next s := by
  rw [exec_inrushEnd_eq]
  rcases h with h | h | h
  · exact if_neg (by simp [h])
  · rw [atDue_waits (fun e he => Option.some.inj he ▸ h), ite_self]
  · exact if_neg (by simp [phaseFirst_eq_true.mpr h])

variable (h2 : lcState s ch.val = 2) (hLast : ∀ q, (chan s ch.val).phaseEnd = some q → inrushEnds s ch.val ≤ q)
  (hDue : dueNow s (inrushEnds s ch.val) = true)
include h2 hLast hDue

theorem exec_inrushEnd : exec (.inrushEnd ch) s = .next
    (if outranked (goTo (inrushEnds s ch.val) s) ch.val 4 = true then goTo (inrushEnds s ch.val) s
     else inrushDone ch.val (goTo (inrushEnds s ch.val) s)) := by
  have hNotFirst : phaseFirst s ch.val ≠ true := fun h => by
    obtain ⟨q, hq, hLt⟩ := phaseFirst_eq_true.mp h
    exact absurd hLt (Nat.not_lt.mpr (hLast q hq))
  rw [exec_inrushEnd_eq, if_pos (by simp [h2, hNotFirst]), atDue_dueNow hDue]

theorem inrushEnd_completes (hFirst : outranked (goTo (inrushEnds s ch.val) s) ch.val 4 = false) :
    Completes (.inrushEnd ch) s (fun u =>
      lcState u ch.val = 3 ∧ getF u (fLcAborts ch.val) = 0 ∧ getF u (fLgInrush (ch.val / 8)) = 255 ∧
      (chan u ch.val).mode = (chan s ch.val).mode ∧ (chan u ch.val).trace = none ∧
      (lgroup u (ch.val / 8)).lastEnd = some (max (now s) (inrushEnds s ch.val))) := by
  refine ⟨_, exec_inrushEnd h2 hLast hDue, ?_⟩
  rw [if_neg (by rw [hFirst]; decide)]
  exact inrushDone_leaves ch.val (goTo (inrushEnds s ch.val) s)

theorem inrushEnd_outranked (hNot : outranked (goTo (inrushEnds s ch.val) s) ch.val 4 = true) :
    exec (.inrushEnd ch) s = .next (goTo (inrushEnds s ch.val) s) := by
  rw [exec_inrushEnd h2 hLast hDue, if_pos hNot]

end

/-! ### KICK_END, BLINK_ON_END, BLINK_OFF_END (R161, R163) -/

section
variable {s : State} {ch : ChanId}

theorem kickEnd_waits (h : (chan s ch.val).mode ≠ .kick ∨ (lcState s ch.val ≠ 2 ∧ lcState s ch.val ≠ 3) ∨
    ∀ e, (chan s ch.val).phaseEnd = some e → dueNow s e = false) : exec (.kickEnd ch) s = .next s := by
  show execKickEnd ch s = _
  unfold execKickEnd
  dsimp only
  split
  · next hMode =>
    split
    · next hOn =>
      rcases h with h | ⟨h2, h3⟩ | h
      · exact absurd hMode h
      · exact absurd hOn (not_or.mpr ⟨h2, h3⟩)
      · exact atDue_waits h _
    · rfl
  · rfl
  · rfl

theorem blinkOnEnd_waits (h : (chan s ch.val).mode = .steady ∨ (chan s ch.val).mode = .kick ∨
    (lcState s ch.val ≠ 2 ∧ lcState s ch.val ≠ 3) ∨ ∀ e, (chan s ch.val).phaseEnd = some e → dueNow s e = false) :
    exec (.blinkOnEnd ch) s = .next s := by
  show execBlinkOnEnd ch s = _
  unfold execBlinkOnEnd
  dsimp only
  split
  · next hMode =>
    split
    · next hOn =>
      rcases h with h | h | ⟨h2, h3⟩ | h
      · rw [h] at hMode; cases hMode
      · rw [h] at hMode; cases hMode
      · exact absurd hOn (not_or.mpr ⟨h2, h3⟩)
      · exact atDue_waits h _
    · rfl
  · rfl
  · rfl

theorem blinkOffEnd_waits (h : lcState s ch.val ≠ 6 ∨ ∀ e, (chan s ch.val).phaseEnd = some e → dueNow s e = false) :
    exec (.blinkOffEnd ch) s = .next s := by
  show execBlinkOffEnd ch s = _
  unfold execBlinkOffEnd
  dsimp only
  split
  · next h6 => exact atDue_waits (h.resolve_left (not_not.mpr h6)) _
  · rfl

theorem not_due_of {o : Option Nat} (h : o = none ∨ ∃ e, o = some e ∧ dueNow s e = false) :
    ∀ e, o = some e → dueNow s e = false := by
  rintro e rfl
  rcases h with h | ⟨f, hf, hDue⟩
  · cases h
  · exact Option.some.inj hf ▸ hDue

variable {e : Nat} (hEnd : (chan s ch.val).phaseEnd = some e) (hDue : dueNow s e = true)
include hEnd hDue

theorem exec_kickEnd (hMode : (chan s ch.val).mode = .kick) (hOn : lcState s ch.val = 2 ∨ lcState s ch.val = 3) :
    exec (.kickEnd ch) s = .next (loadEvent ch.val 6 0
      (updChan ch.val (fun x => { x with mode := .steady, next := none, kickTag := none, pulsed := false })
        (lcToOff ch.val (goTo e s)))) := by
  show execKickEnd ch s = _
  unfold execKickEnd
  dsimp only
  rw [hMode, hEnd]
  exact (if_pos hOn).trans (atDue_dueNow hDue _)

theorem kickEnd_completes (hMode : (chan s ch.val).mode = .kick) (hOn : lcState s ch.val = 2 ∨ lcState s ch.val = 3) :
    Completes (.kickEnd ch) s (fun u =>
      now u = max (now s) e ∧ lcState u ch.val = 0 ∧ (chan u ch.val).mode = .steady ∧ (chan u ch.val).phaseEnd = none ∧
      (lcState s ch.val = 2 → getF u (fLgInrush (ch.val / 8)) = 255 ∧
        (lgroup u (ch.val / 8)).lastEnd = some (max (now s) e))) := by
  refine ⟨_, exec_kickEnd hEnd hDue hMode hOn, ?_⟩
  beta_reduce
  obtain ⟨hOff, -, hPhase, -, -, hInrush⟩ := lcToOff_leaves ch.val (goTo e s)
  have hSame := fun u => LoadSame.loadEvent ch.isLt 6 0 u
  rw [(hSame _).now, (hSame _).lcState ch.isLt, (hSame _).chan, (hSame _).lgroup,
    (hSame _).getF _ (loadKeys_lgK (off := 4) (by omega) (by decide)), chan_updChan_self, lcState_updChan, lgroup_updChan,
    getF_updChan]
  exact ⟨now_of (time_of (s := goTo e s) (by simp)), hOff, rfl, hPhase, hInrush⟩

theorem exec_blinkOnEnd {a b : Nat} (hMode : (chan s ch.val).mode = .blink a b)
    (hOn : lcState s ch.val = 2 ∨ lcState s ch.val = 3) :
    exec (.blinkOnEnd ch) s = .next (updChan ch.val (fun x =>
      { x with mode := lcNext x, next := none,
               phaseEnd := some (now (lcEnter ch.val 6 (lcLeave ch.val 3 (goTo e s))) + msTurns (offMs (lcNext x))) })
      (lcEnter ch.val 6 (lcLeave ch.val 3 (goTo e s)))) := by
  show execBlinkOnEnd ch s = _
  unfold execBlinkOnEnd
  dsimp only
  rw [hMode, hEnd]
  exact (if_pos hOn).trans (atDue_dueNow hDue _)

theorem blinkOnEnd_completes {a b : Nat} (hMode : (chan s ch.val).mode = .blink a b)
    (hOn : lcState s ch.val = 2 ∨ lcState s ch.val = 3) :
    Completes (.blinkOnEnd ch) s (fun u =>
      lcState u ch.val = 6 ∧ (chan u ch.val).mode = lcNext (chan s ch.val) ∧ (chan u ch.val).next = none ∧
      (chan u ch.val).phaseEnd = some (max (now s) e + msTurns (offMs (lcNext (chan s ch.val)))) ∧
      (lcState s ch.val = 2 → getF u (fLgInrush (ch.val / 8)) = 255 ∧
        (lgroup u (ch.val / 8)).lastEnd = some (max (now s) e))) := by
  refine ⟨_, exec_blinkOnEnd hEnd hDue hMode hOn, ?_⟩
  beta_reduce
  obtain ⟨o, tr, hChan⟩ := chan_lcLeave ch.val (goTo e s) 3
  have hTime : now (lcEnter ch.val 6 (lcLeave ch.val 3 (goTo e s))) = max (now s) e :=
    now_of (time_of (s := goTo e s) (by simp))
  rw [lcState_updChan, chan_updChan_self, lgroup_updChan, getF_updChan, chan_lcEnter, hChan, hTime, getF_lcEnter_inrush,
    lgroup_lcEnter]
  exact ⟨lcState_lcEnter _ (by decide), rfl, rfl, rfl, fun h2 => inrush_lcLeave ch.val (goTo e s) 3 h2⟩

theorem blinkOffEnd_completes (h6 : lcState s ch.val = 6) :
    Completes (.blinkOffEnd ch) s (fun u =>
      lcState u ch.val = 1 ∧ (chan u ch.val).phaseEnd = none ∧ (chan u ch.val).mode = lcNext (chan s ch.val) ∧
      (lgroup u (ch.val / 8)).queue = queueIn s ch.val (max (now s) e) (lgroup s (ch.val / 8)).queue) := by
  have hExec : exec (.blinkOffEnd ch) s = .next (lcWait ch.val false
      (updChan ch.val (fun x => { x with mode := lcNext x, next := none, phaseEnd := none }) (goTo e s))) := by
    show execBlinkOffEnd ch s = _
    unfold execBlinkOffEnd
    dsimp only
    rw [hEnd]
    exact (if_pos h6).trans (atDue_dueNow hDue _)
  obtain ⟨hState, hChan, hQueue⟩ := enters_wait (c := ch.val)
    (f := fun x => { x with mode := lcNext x, next := none, phaseEnd := none }) (fun _ => rfl) (goTo e s)
  refine ⟨_, hExec, hState, by rw [hChan], by rw [hChan]; rfl, hQueue.trans ?_⟩
  exact queueIn_congr (s := s) (u := goTo e s) (fun _ => rfl) ..

end

end Sys2Proof.Machine
end

section
namespace Sys2Proof.Machine

/-! ### A test ends (R163, R169) -/

theorem chan_flag (f : Fld) (s : State) (c : Nat) : chan (flag f s) c = chan s c := chan_of (flag_chans ..) c

theorem now_flag (f : Fld) (s : State) : now (flag f s) = now s := now_of (flag_time ..)

/-- A channel that is back in RUN after a test, before a pattern commanded meanwhile begins. -/
def afterTest (c : Nat) (s : State) : State :=
  lcEnter c 3 (updChan c (fun x => { x with test := none, next := none, overAt := now s }) s)

section
variable {c : Nat} (s : State)

theorem lcState_afterTest : lcState (afterTest c s) c = 3 := lcState_lcEnter _ (by decide)

theorem chan_afterTest : chan (afterTest c s) c = { chan s c with test := none, next := none, overAt := now s } := by
  rw [afterTest, chan_lcEnter, chan_updChan_self]

theorem getF_afterTest_stat {f : Fld} (hf : f.key = lcK c 0x10) (hlo : 2 < f.lo) : getF (afterTest c s) f = getF s f :=
  getF_lcEnter_stat _ _ hf hlo

variable {s}

theorem lcTestDone_noBlink (h : ∀ a b, (chan s c).next ≠ some (.blink a b)) : lcTestDone c s = afterTest c s := by
  dsimp only [lcTestDone]
  split
  · next hNext => exact absurd hNext (h _ _)
  · rfl
  · rfl
  · rfl

theorem lcTestDone_blink {a b : Nat} (h : (chan s c).next = some (.blink a b)) :
    lcTestDone c s = lcBlinkAct c a b (afterTest c s) := by
  dsimp only [lcTestDone]
  rw [h]
  rfl

/-- A blink commanded to a channel in RUN waits for its turn behind a pattern, or begins with its off-phase. -/
theorem lcBlinkAct_inRun (a b : Nat) (h3 : lcState s c = 3) :
    lcBlinkAct c a b s = updChan c (fun x => { x with next := some (.blink a b) }) s ∨
    ∃ t, lcBlinkAct c a b s = updChan c (fun x => { x with mode := .blink a b, phaseEnd := some t })
      (lcEnter c 6 (lcLeave c 3 s)) := by
  by_cases hMode : (chan s c).mode = .steady
  · exact .inr ⟨_, by simp [lcBlinkAct, h3, hMode]; rfl⟩
  · exact .inl (lcBlinkAct_next a b (.inr ⟨by rw [h3]; decide, hMode⟩))

/-- A test that ends leaves the channel in RUN, but where a blink waits. -/
theorem lcTestDone_cases (s : State) (c : Nat) :
    lcTestDone c s = afterTest c s ∨
    (∃ m, lcTestDone c s = updChan c (fun x => { x with next := some m }) (afterTest c s)) ∨
    ∃ m t, lcTestDone c s = updChan c (fun x => { x with mode := m, phaseEnd := some t })
      (lcEnter c 6 (lcLeave c 3 (afterTest c s))) := by
  by_cases h : ∃ a b, (chan s c).next = some (.blink a b)
  · obtain ⟨a, b, h⟩ := h
    rw [lcTestDone_blink h]
    rcases lcBlinkAct_inRun a b (lcState_afterTest (c := c) s) with hWaits | ⟨t, hBegins⟩
    · exact .inr (.inl ⟨_, hWaits⟩)
    · exact .inr (.inr ⟨_, t, hBegins⟩)
  · exact .inl (lcTestDone_noBlink fun a b hNext => h ⟨a, b, hNext⟩)

theorem test_lcTestDone : (chan (lcTestDone c s) c).test = none := by
  rcases lcTestDone_cases s c with h | ⟨m, h⟩ | ⟨m, t, h⟩
  · rw [h, chan_afterTest]
  · rw [h, chan_updChan_self, chan_afterTest]
  · obtain ⟨o, tr, hChan⟩ := chan_lcLeave c (afterTest c s) 3
    rw [h, chan_updChan_self, chan_lcEnter, hChan]

theorem getF_lcTestDone_stat (hc : c < 128) {f : Fld} (hf : f.key = lcK c 0x10) (hlo : 2 < f.lo) :
    getF (lcTestDone c s) f = getF s f := by
  rcases lcTestDone_cases s c with h | ⟨m, h⟩ | ⟨m, t, h⟩
  · rw [h, getF_afterTest_stat s hf hlo]
  · rw [h, getF_updChan, getF_afterTest_stat s hf hlo]
  · rw [h, getF_updChan, getF_lcEnter_stat _ _ hf hlo, getF_lcLeave_stat _ hc hf, getF_afterTest_stat s hf hlo]

theorem now_lcTestDone : now (lcTestDone c s) = now s := now_of (time_of (by simp))

theorem lcTestDone_run (h : (chan s c).next = none ∨ (chan s c).next = some .steady) : lcState (lcTestDone c s) c = 3 := by
  rw [lcTestDone_noBlink, lcState_afterTest]
  intro a b hBlink
  rw [hBlink] at h
  rcases h with h | h <;> cases h

/-- A blink commanded during the test of a steady channel begins with its off-phase. -/
theorem lcTestDone_pause {a b : Nat} (hMode : (chan s c).mode = .steady) (h : (chan s c).next = some (.blink a b)) :
    lcState (lcTestDone c s) c = 6 ∧ (chan (lcTestDone c s) c).mode = .blink a b := by
  have h3 := lcState_afterTest (c := c) s
  obtain ⟨hState, hBlink, -, -⟩ := lcBlinkAct_run (s := afterTest c s) a b (by rw [chan_afterTest]; exact hMode)
    (by rw [h3]; decide) (by rw [h3]; decide) (by rw [h3]; decide) (by rw [h3]; decide)
  rw [lcTestDone_blink h]
  exact ⟨hState, hBlink⟩

end

/-! ### TEST_OFF_END (R169) -/

/-- The verdict that a sample over in the off-time gives: STUCK_ON, at the off-time's last turn. -/
def testStuck (c on : Nat) (s : State) : State :=
  loadEvent c 5 4 (flag (fLcTestfail c) (setF (fLcCause c) 4 (goTo (on - 1) s)))

theorem testStuck_leaves {c : Nat} (hc : c < 128) (on : Nat) (s : State) :
    chan (testStuck c on s) c = chan s c ∧ now (testStuck c on s) = max (now s) (on - 1) ∧
    getF (testStuck c on s) (fLcTestfail c) = 1 ∧ getF (testStuck c on s) (fLcCause c) = 4 := by
  have hSame := LoadSame.loadEvent hc 5 4 (flag (fLcTestfail c) (setF (fLcCause c) 4 (goTo (on - 1) s)))
  refine ⟨by rw [testStuck, hSame.chan, chan_flag, chan_setF, chan_goTo],
    by rw [testStuck, hSame.now, now_flag, now_setF, now_goTo], ?_, ?_⟩
  · rw [testStuck, hSame.getF _ (loadKeys_lcK (off := 0x10) hc (by decide)), getF_flag, getF_setF_self _ _ _ rfl]
    rfl
  · rw [testStuck, hSame.getF _ (loadKeys_lcK (off := 0x10) hc (by decide)), getF_flag,
      getF_setF_apart _ _ (by simp [Fld.apart, Fld.ok, fLcTestfail, fLcCause, bit, fld]), getF_setF_self _ _ _ rfl]
    rfl

/-- The drive of a channel under test goes on again at the present turn. -/
def testOn (c t0 a : Nat) (s : State) : State :=
  updChan c (fun x => { x with test := some (t0, a, true), onAt := now s }) s

section
variable {s : State} {ch : ChanId} {t0 a : Nat}

theorem testOffEnd_waits (above : Bool)
    (h : ∀ t0 a, (chan s ch.val).test = some (t0, a, false) → dueNow s (t0 + 480 * a) = false) :
    exec (.testOffEnd ch above) s = .next s := by
  show execTestOffEnd ch above s = _
  unfold execTestOffEnd
  dsimp only
  split
  · next hTest => exact if_neg (by rw [h _ _ hTest]; decide)
  · rfl
  · rfl

variable (hTest : (chan s ch.val).test = some (t0, a, false)) (hDue : dueNow s (t0 + 480 * a) = true)
include hTest hDue

theorem exec_testOffEnd_clear :
    exec (.testOffEnd ch false) s = .next (testOn ch.val t0 a (goTo (t0 + 480 * a) s)) := by
  show execTestOffEnd ch false s = _
  unfold execTestOffEnd
  dsimp only
  rw [hTest]
  exact if_pos hDue

theorem exec_testOffEnd_above : exec (.testOffEnd ch true) s = .next
    (lcTestDone ch.val (testOn ch.val t0 a (goTo (t0 + 480 * a) (testStuck ch.val (t0 + 480 * a) s)))) := by
  show execTestOffEnd ch true s = _
  unfold execTestOffEnd
  dsimp only
  rw [hTest]
  exact if_pos hDue

theorem testOffEnd_clear_completes : Completes (.testOffEnd ch false) s (fun u =>
    (chan u ch.val).test = some (t0, a, true) ∧ now u = max (now s) (t0 + 480 * a) ∧
    lcState u ch.val = lcState s ch.val) := by
  refine ⟨_, exec_testOffEnd_clear hTest hDue, ?_, rfl, rfl⟩
  rw [testOn, chan_updChan_self]

theorem testOffEnd_above_completes (hNext : (chan s ch.val).next = none ∨ (chan s ch.val).next = some .steady) :
    Completes (.testOffEnd ch true) s (fun u =>
      (chan u ch.val).test = none ∧ lcState u ch.val = 3 ∧ getF u (fLcTestfail ch.val) = 1 ∧
      getF u (fLcCause ch.val) = 4 ∧ now u = max (now s) (t0 + 480 * a)) := by
  obtain ⟨hChan, hNow, hFail, hCause⟩ := testStuck_leaves ch.isLt (t0 + 480 * a) s
  have hNext' : (chan (testOn ch.val t0 a (goTo (t0 + 480 * a) (testStuck ch.val (t0 + 480 * a) s))) ch.val).next =
      (chan s ch.val).next := by
    rw [testOn, chan_updChan_self, chan_goTo, hChan]
  refine ⟨_, exec_testOffEnd_above hTest hDue, test_lcTestDone, lcTestDone_run (by rwa [hNext']), ?_, ?_, ?_⟩
  · exact (getF_lcTestDone_stat ch.isLt rfl (by decide : 2 < 19)).trans hFail
  · exact (getF_lcTestDone_stat ch.isLt rfl (by decide : 2 < 8)).trans hCause
  · rw [now_lcTestDone, testOn, now_updChan, now_goTo, hNow, Nat.max_assoc]
    congr 1
    omega

end

/-! ### TEST_WINDOW_END (R169) -/

/-- The verdict of a test whose drive went on again at turn `on`, at the end of its window: passed at the first sample over, or
OPEN_LOAD. -/
def testVerdict (c on : Nat) (first : Option (Fin 48000)) (s : State) : State :=
  match first with
  | some k => goTo (on + 48000) (loadEvent c 4 0 (flag (fLcTestpass c) (goTo (on + k.val) s)))
  | none => loadEvent c 5 6 (flag (fLcTestfail c) (setF (fLcCause c) 6 (goTo (on + 48000) s)))

theorem testVerdict_passed {c : Nat} (hc : c < 128) (on : Nat) (k : Fin 48000) (s : State) :
    chan (testVerdict c on (some k) s) c = chan s c ∧ now (testVerdict c on (some k) s) = max (now s) (on + 48000) ∧
    getF (testVerdict c on (some k) s) (fLcTestpass c) = 1 := by
  have hSame := LoadSame.loadEvent hc 4 0 (flag (fLcTestpass c) (goTo (on + k.val) s))
  refine ⟨by rw [testVerdict, chan_goTo, hSame.chan, chan_flag, chan_goTo], ?_, ?_⟩
  · rw [testVerdict, now_goTo, hSame.now, now_flag, now_goTo, Nat.max_assoc,
      Nat.max_eq_right (Nat.add_le_add_left k.isLt.le on)]
  · rw [testVerdict, getF_goTo, hSame.getF _ (loadKeys_lcK (off := 0x10) hc (by decide)), getF_flag,
      getF_setF_self _ _ _ rfl]
    rfl

theorem testVerdict_open {c : Nat} (hc : c < 128) (on : Nat) (s : State) :
    chan (testVerdict c on none s) c = chan s c ∧ now (testVerdict c on none s) = max (now s) (on + 48000) ∧
    getF (testVerdict c on none s) (fLcTestfail c) = 1 ∧ getF (testVerdict c on none s) (fLcCause c) = 6 := by
  have hSame := LoadSame.loadEvent hc 5 6 (flag (fLcTestfail c) (setF (fLcCause c) 6 (goTo (on + 48000) s)))
  refine ⟨by rw [testVerdict, hSame.chan, chan_flag, chan_setF, chan_goTo],
    by rw [testVerdict, hSame.now, now_flag, now_setF, now_goTo], ?_, ?_⟩
  · rw [testVerdict, hSame.getF _ (loadKeys_lcK (off := 0x10) hc (by decide)), getF_flag, getF_setF_self _ _ _ rfl]
    rfl
  · rw [testVerdict, hSame.getF _ (loadKeys_lcK (off := 0x10) hc (by decide)), getF_flag,
      getF_setF_apart _ _ (by simp [Fld.apart, Fld.ok, fLcTestfail, fLcCause, bit, fld]), getF_setF_self _ _ _ rfl]
    rfl

theorem testVerdict_leaves {c : Nat} (hc : c < 128) (on : Nat) (first : Option (Fin 48000)) (s : State) :
    chan (testVerdict c on first s) c = chan s c ∧ now (testVerdict c on first s) = max (now s) (on + 48000) := by
  cases first with
  | some k =>
    obtain ⟨hChan, hNow, -⟩ := testVerdict_passed hc on k s
    exact ⟨hChan, hNow⟩
  | none =>
    obtain ⟨hChan, hNow, -⟩ := testVerdict_open hc on s
    exact ⟨hChan, hNow⟩

section
variable {s : State} {ch : ChanId} {first : Option (Fin 48000)} {t0 a : Nat}

theorem testWindowEnd_waits
    (h : ∀ t0 a, (chan s ch.val).test = some (t0, a, true) → dueNow s (t0 + 480 * a + 48000) = false) :
    exec (.testWindowEnd ch first) s = .next s := by
  show execTestWindowEnd ch first s = _
  unfold execTestWindowEnd
  dsimp only
  split
  · next hTest => exact if_neg (by rw [h _ _ hTest]; decide)
  · rfl
  · rfl

variable (hTest : (chan s ch.val).test = some (t0, a, true)) (hDue : dueNow s (t0 + 480 * a + 48000) = true)
include hTest hDue

theorem exec_testWindowEnd : exec (.testWindowEnd ch first) s =
    .next (lcTestDone ch.val (testVerdict ch.val (t0 + 480 * a) first s)) := by
  show execTestWindowEnd ch first s = _
  unfold execTestWindowEnd
  dsimp only
  rw [hTest]
  exact if_pos hDue

theorem testWindowEnd_completes : Completes (.testWindowEnd ch first) s (fun u =>
    (chan u ch.val).test = none ∧ now u = max (now s) (t0 + 480 * a + 48000) ∧
    ((chan s ch.val).next = none ∨ (chan s ch.val).next = some .steady → lcState u ch.val = 3) ∧
    (∀ x y, (chan s ch.val).mode = .steady → (chan s ch.val).next = some (.blink x y) →
      lcState u ch.val = 6 ∧ (chan u ch.val).mode = .blink x y) ∧
    (first.isSome = true → getF u (fLcTestpass ch.val) = 1) ∧
    (first = none → getF u (fLcTestfail ch.val) = 1 ∧ getF u (fLcCause ch.val) = 6)) := by
  obtain ⟨hChan, hNow⟩ := testVerdict_leaves ch.isLt (t0 + 480 * a) first s
  refine ⟨_, exec_testWindowEnd hTest hDue, test_lcTestDone, now_lcTestDone.trans hNow, fun hNext => ?_,
    fun x y hMode hNext => ?_, fun hSome => ?_, ?_⟩
  · exact lcTestDone_run (by rwa [hChan])
  · exact lcTestDone_pause (by rwa [hChan]) (by rwa [hChan])
  · obtain ⟨k, rfl⟩ := Option.isSome_iff_exists.mp hSome
    obtain ⟨-, -, hPass⟩ := testVerdict_passed ch.isLt (t0 + 480 * a) k s
    exact (getF_lcTestDone_stat ch.isLt rfl (by decide : 2 < 18)).trans hPass
  · rintro rfl
    obtain ⟨-, -, hFail, hCause⟩ := testVerdict_open ch.isLt (t0 + 480 * a) s
    exact ⟨(getF_lcTestDone_stat ch.isLt rfl (by decide : 2 < 19)).trans hFail,
      (getF_lcTestDone_stat ch.isLt rfl (by decide : 2 < 8)).trans hCause⟩

end

/-! ### AUTO_RETRY (R171) -/

/-- The state that an automatic retry leaves of a channel at the present turn. -/
def retried (c : Nat) (kick : Bool) (s : State) : State :=
  loadHand c 9 0 (if kick then lcEnter c 0 (addF (fLcRetries c) 1 s) else lcWait c false (addF (fLcRetries c) 1 s))

theorem satAdd_le (cap a b : Nat) : satAdd cap a b ≤ cap := by
  unfold satAdd
  split
  · assumption
  · exact Nat.le_refl _

theorem satAdd_below {cap a b : Nat} (h : a + b ≤ cap) : satAdd cap a b = a + b := if_pos h

/-- A field that is increased holds the sum, or its greatest value. -/
theorem getF_addF_self (f : Fld) (k : Nat) (s : State) (h : f.ok = true) :
    getF (addF f k s) f = satAdd (2 ^ (f.hi + 1 - f.lo) - 1) (getF s f) k := by
  rw [addF, getF_setF_self _ _ _ h]
  exact Nat.mod_eq_of_lt (Nat.lt_of_le_pred (Nat.two_pow_pos _) (satAdd_le ..))

theorem getF_addF_retries {c : Nat} {s : State} (h : getF s (fLcRetries c) < 3) :
    getF (addF (fLcRetries c) 1 s) (fLcRetries c) = getF s (fLcRetries c) + 1 :=
  (getF_addF_self _ _ _ rfl).trans (satAdd_below h)

theorem retried_leaves {c : Nat} (hc : c < 128) (kick : Bool) {s : State} (h : getF s (fLcRetries c) < 3) :
    getF (retried c kick s) (fLcRetries c) = getF s (fLcRetries c) + 1 ∧
    lcState (retried c kick s) c = (if kick then 0 else 1) ∧
    (kick = false →
      (lgroup (retried c kick s) (c / 8)).queue = queueIn s c (now s) (lgroup s (c / 8)).queue) := by
  rw [retried, (LoadSame.loadHand ..).getF _ (loadKeys_lcK (off := 0x10) hc (by decide)),
    (LoadSame.loadHand ..).lcState hc, (LoadSame.loadHand ..).lgroup]
  cases kick with
  | true =>
    rw [if_pos rfl, if_pos rfl, getF_lcEnter_stat _ _ rfl (by decide : 2 < 22)]
    exact ⟨getF_addF_retries h, lcState_lcEnter _ (by decide), fun hNot => by cases hNot⟩
  | false =>
    rw [if_neg Bool.false_ne_true, if_neg Bool.false_ne_true, getF_lcWait_stat _ rfl (by decide : 2 < 22), queue_lcWait,
      now_addF, lgroup_addF, queueIn_congr (u := addF (fLcRetries c) 1 s) (s := s) fun d => congrArg _ (chan_addF ..)]
    exact ⟨getF_addF_retries h, lcState_lcWait _, fun _ => rfl⟩

section
variable {s : State} {ch : ChanId}

theorem autoRetry_completes (h5 : lcState s ch.val = 5) (hRetry : isSet s (fLcRetry ch.val) = true)
    (hCause : getF s (fLcCause ch.val) = 2 ∨ getF s (fLcCause ch.val) = 3) (hLeft : getF s (fLcRetries ch.val) < 3)
    (hDue : dueNow s ((chan s ch.val).tripAt + msTurns 1000) = true) :
    Completes (.autoRetry ch) s (fun u =>
      getF u (fLcRetries ch.val) = getF s (fLcRetries ch.val) + 1 ∧
      lcState u ch.val = (if (chan s ch.val).tripKick then 0 else 1) ∧
      ((chan s ch.val).tripKick = false → (lgroup u (ch.val / 8)).queue = queueIn s ch.val
        (max (now s) ((chan s ch.val).tripAt + msTurns 1000)) (lgroup s (ch.val / 8)).queue)) := by
  have hExec : exec (.autoRetry ch) s = .next (retried ch.val (chan s ch.val).tripKick
      (goTo ((chan s ch.val).tripAt + msTurns 1000) s)) := by
    show execAutoRetry ch s = _
    unfold execAutoRetry
    dsimp only
    rw [if_pos (by simp [h5, hRetry, hCause, hLeft])]
    exact atDue_dueNow hDue _
  refine ⟨_, hExec, ?_⟩
  obtain ⟨hCount, hState, hQueue⟩ := retried_leaves ch.isLt (chan s ch.val).tripKick
    (s := goTo ((chan s ch.val).tripAt + msTurns 1000) s) hLeft
  exact ⟨hCount, hState, fun hKick => (hQueue hKick).trans (queueIn_congr (s := s) (u := goTo _ s) (fun _ => rfl) ..)⟩

theorem autoRetry_waits (h : lcState s ch.val ≠ 5 ∨ isSet s (fLcRetry ch.val) = false ∨
    getF s (fLcCause ch.val) ∉ [2, 3] ∨ 3 ≤ getF s (fLcRetries ch.val) ∨
    dueNow s ((chan s ch.val).tripAt + msTurns 1000) = false) : exec (.autoRetry ch) s = .next s := by
  show execAutoRetry ch s = _
  unfold execAutoRetry
  dsimp only
  split
  · next hMay =>
    simp only [Bool.and_eq_true, Bool.or_eq_true, decide_eq_true_eq] at hMay
    obtain ⟨⟨⟨h5, hRetry⟩, hCause⟩, hLeft⟩ := hMay
    rcases h with h | h | h | h | h
    · exact absurd h5 h
    · rw [h] at hRetry; cases hRetry
    · exact absurd (by simpa using hCause) h
    · exact absurd hLeft (Nat.not_lt.mpr h)
    · exact atDue_waits (fun e he => Option.some.inj he ▸ h) _
  · rfl

/-! ### TRACE_SAMPLE (R187) -/

theorem traceSample_completes {r : BitVec 12} {rs : List (BitVec 12)} (hTrace : (chan s ch.val).trace = some rs)
    (h2 : lcState s ch.val = 2) (hRoom : rs.length < 20000)
    (hDue : dueNow s ((chan s ch.val).grant + 4800 * rs.length) = true) :
    Completes (.traceSample ch r) s (fun u => (chan u ch.val).trace = some (r :: rs)) := by
  have hExec : exec (.traceSample ch r) s = .next (updChan ch.val (fun x => { x with trace := some (r :: rs) })
      (goTo ((chan s ch.val).grant + 4800 * rs.length) s)) := by
    show execTraceSample ch r s = _
    unfold execTraceSample
    dsimp only
    rw [hTrace]
    dsimp only
    rw [if_pos (by simp [h2, hRoom]), atDue_dueNow hDue]
  exact ⟨_, hExec, congrArg _ (chan_updChan_self ..)⟩

theorem traceSample_waits {r : BitVec 12} (h : (chan s ch.val).trace = none ∨ lcState s ch.val ≠ 2 ∨
    ∃ rs, (chan s ch.val).trace = some rs ∧
      (20000 ≤ rs.length ∨ dueNow s ((chan s ch.val).grant + 4800 * rs.length) = false)) :
    exec (.traceSample ch r) s = .next s := by
  show execTraceSample ch r s = _
  unfold execTraceSample
  dsimp only
  split
  · next rs hTrace =>
    split
    · next hMay =>
      rw [Bool.and_eq_true, decide_eq_true_eq, decide_eq_true_eq] at hMay
      rcases h with h | h | ⟨rs', hTrace', h⟩
      · rw [h] at hTrace; cases hTrace
      · exact absurd hMay.1 h
      · obtain rfl := Option.some.inj (hTrace.symm.trans hTrace')
        rcases h with h | h
        · exact absurd hMay.2 (Nat.not_lt.mpr h)
        · exact atDue_waits (fun e he => Option.some.inj he ▸ h) _
    · rfl
  · rfl

end

end Sys2Proof.Machine

open Sys2Proof Sys2Proof.Machine

/-- Settles O26: a grant by the profile of the channel at the head, the end of an inrush by R168, and one lemma for each phase
that ends, for the retry and for a sample. -/
theorem loadPhases : Obligations.LoadPhases := by
  unfold Obligations.LoadPhases
  refine ⟨?_, fun s g => inrushGrant_waits, ?_, ?_, ?_, ?_, ?_, ?_, ?_, ?_, ?_, ?_⟩
  · exact fun s g c t q hQueue hc hIdle hSag => inrushGrant_completes hQueue hc hIdle hSag
  · exact fun s ch h2 hLast hDue => ⟨inrushEnd_completes h2 hLast hDue, inrushEnd_outranked h2 hLast hDue⟩
  · exact fun s ch e hMode hOn hEnd hDue => kickEnd_completes hEnd hDue hMode hOn
  · exact fun s ch a b e hMode hOn hEnd hDue => blinkOnEnd_completes hEnd hDue hMode hOn
  · exact fun s ch e h6 hEnd hDue => blinkOffEnd_completes hEnd hDue h6
  · refine fun s ch => ⟨inrushEnd_waits, fun h => ?_, fun h2 h3 => ?_, fun h => kickEnd_waits (.inl h), fun h => ?_,
      fun h => blinkOffEnd_waits (.inl h)⟩
    · have hNot := not_due_of h
      exact ⟨kickEnd_waits (.inr (.inr hNot)), blinkOnEnd_waits (.inr (.inr (.inr hNot))), blinkOffEnd_waits (.inr hNot)⟩
    · exact ⟨kickEnd_waits (.inr (.inl ⟨h2, h3⟩)), blinkOnEnd_waits (.inr (.inr (.inl ⟨h2, h3⟩)))⟩
    · exact blinkOnEnd_waits (h.imp_right .inl)
  · exact fun s ch t0 a hTest hDue => ⟨testOffEnd_clear_completes hTest hDue, testOffEnd_above_completes hTest hDue⟩
  · exact fun s ch first t0 a hTest hDue => testWindowEnd_completes hTest hDue
  · exact fun s ch above first => ⟨testOffEnd_waits above, testWindowEnd_waits⟩
  · exact fun s ch => ⟨autoRetry_completes, autoRetry_waits⟩
  · exact fun s ch r => ⟨fun rs => traceSample_completes, traceSample_waits⟩
end

section
open Sys2Proof Sys2Proof.Machine

namespace Sys2Proof.Machine

/-- A configuration entry TENANT_CONFIG of tenant 0, as ADMIT carries it (log entry 33). -/
def configTenant0 (enable : Byte) : List Byte := [0x40] ++ le 2 4 ++ [0, 0, enable, 0]

/-- ADMIT at tick 1 in epoch 1, with OVR_LIMIT 0: tenant 0 is enabled, and disabled again. -/
def admitOnOff : List Byte :=
  le 4 1 ++ le 8 1 ++ le 2 0 ++ [0, 0] ++ le 2 0 ++ configTenant0 1 ++ configTenant0 0

/-- A member at its admission tick. Device 0 of tenant 0, of class 7, is bound to port 0, which is not defined. The port's record
names a slot beyond the 8 of a thread (R223), whose PSLOT register would stand at the address of FRAME_CTRL. -/
def admittedBeyondSlots : State :=
  updGroup (fun g => { g with admitTick := some 1, tickFrame := some 0, admitConf := admitOnOff })
    (updPort 0 (fun x => { x with slot := 0x91FFE04 })
      (updDev 0 0 (fun x => { x with bound := true, cls := 7, port := 0 }) (setF fLock 1 State.reset)))

end Sys2Proof.Machine

/-- Refutes O51: the admission clause has OVR_LIMIT as the head's ADMIT gives it, for every record of a port. The configuration
that follows in ADMIT is taken after it (R339). Where it disables a tenant, its devices are unbound, and one of class 7 has
the GAP field of its port's slot written anew (R223). A slot number beyond the 8 of a thread puts that field on OVR_LIMIT,
which then reads 2 and not 0. The clause lacks the bound on the slot; no port that administration defines has this one. -/
theorem not_groupMembership : ¬ Obligations.GroupMembership := by
  unfold Obligations.GroupMembership
  rintro ⟨-, -, -, -, -, hAdmission, -⟩
  obtain ⟨-, hAdmitted⟩ := hAdmission admittedBeyondSlots
  obtain ⟨-, -, -, -, -, hLimit, -⟩ := (hAdmitted 1 0 rfl rfl (by decide) (by decide)).of_exec rfl
  exact absurd hLimit (by decide +kernel)
end

section
namespace Sys2Proof.Machine

/-! ### The dictionary coder (R184, R185) -/

/-- A literal token, decoded, appends its bytes. -/
theorem decodeToks_literal (n : Nat) {tok : List Byte} (h0 : tok ≠ []) (h : tok.length ≤ 128) (rest out : List Byte) :
    decodeToks (n + 1) (BitVec.ofNat 8 (tok.length - 1) :: (tok ++ rest)) out = decodeToks n rest (tok.reverse ++ out) := by
  have hPos := List.length_pos_iff.mpr h0
  have hCode : (BitVec.ofNat 8 (tok.length - 1)).toNat = tok.length - 1 := by
    rw [BitVec.toNat_ofNat]
    omega
  conv_lhs => unfold decodeToks
  dsimp only
  rw [hCode, if_pos (by omega), Nat.sub_add_cancel hPos, if_neg (by simp), List.drop_left, List.take_left]

theorem literals_cons (n : Nat) {bs : List Byte} (h : bs ≠ []) : literals (n + 1) bs =
    BitVec.ofNat 8 ((bs.take 128).length - 1) :: (bs.take 128 ++ literals n (bs.drop 128)) := by
  simp [literals, h]

/-- Literal tokens decode to their bytes, with any fuel from the number of tokens on. -/
theorem decodeToks_literals {n fuel : Nat} {bs : List Byte} (out : List Byte) (hn : bs.length ≤ n)
    (hFuel : (literals n bs).length ≤ fuel) : decodeToks fuel (literals n bs) out = some (bs.reverse ++ out) := by
  induction n generalizing bs fuel out with
  | zero => rw [List.length_eq_zero_iff.mp (Nat.le_zero.mp hn), literals, decodeToks]; rfl
  | succ n ih =>
    by_cases hNil : bs = []
    · subst hNil
      simp [literals, decodeToks]
    have hPos := List.length_pos_iff.mpr hNil
    rw [literals_cons n hNil, List.length_cons, List.length_append] at hFuel
    obtain ⟨m, rfl⟩ : ∃ m, fuel = m + 1 := ⟨fuel - 1, by omega⟩
    rw [literals_cons n hNil, decodeToks_literal m (by simp [hNil]) (by simp) _ out,
      ih _ (by rw [List.length_drop]; omega) (by omega), ← List.append_assoc, ← List.reverse_append, List.take_append_drop]

theorem length_literals_le {n : Nat} {bs : List Byte} (hn : bs.length ≤ n) : (literals n bs).length ≤ bodyMax bs.length := by
  induction n generalizing bs with
  | zero => exact Nat.zero_le _
  | succ n ih =>
    by_cases hNil : bs = []
    · rw [literals, if_pos (List.isEmpty_iff.mpr hNil)]
      exact Nat.zero_le _
    have hPos := List.length_pos_iff.mpr hNil
    have hRest := ih (bs := bs.drop 128) (by rw [List.length_drop]; omega)
    rw [literals_cons n hNil, List.length_cons, List.length_append, List.length_take]
    rw [List.length_drop] at hRest
    unfold bodyMax at *
    omega

/-- A body decodes to its stream, and is not too long. -/
theorem encodeBody_sound (str : List Byte) : decodeBody (encodeBody str) = some str ∧
    (encodeBody str).length ≤ bodyMax str.length := by
  unfold encodeBody
  dsimp only
  split
  · assumption
  · refine ⟨?_, length_literals_le le_rfl⟩
    rw [decodeBody, decodeToks_literals [] le_rfl le_rfl, List.append_nil, Option.map_some, List.reverse_reverse]

/-! ### Records of the open segment (R175, R179, R196) -/

/-- Between `s` and `u` records came to the open segment, or were lost: no segment has closed or opened. -/
structure OpenOnly (s u : State) : Prop where
  closed : u.journal.closed = s.journal.closed
  runs : u.journal.runs = s.journal.runs
  traces : u.journal.traces = s.journal.traces
  opened : u.journal.openSeg.map Seg.openTurn = s.journal.openSeg.map Seg.openTurn

namespace OpenOnly

theorem of_journal {s u : State} (h : u.journal = s.journal) : OpenOnly s u :=
  ⟨by rw [h], by rw [h], by rw [h], by rw [h]⟩

theorem refl (s : State) : OpenOnly s s := of_journal rfl

theorem trans {s t u : State} (h : OpenOnly s t) (g : OpenOnly t u) : OpenOnly s u :=
  ⟨g.closed.trans h.closed, g.runs.trans h.runs, g.traces.trans h.traces, g.opened.trans h.opened⟩

theorem each {α : Type} {f : α → State → State} (h : ∀ x s, OpenOnly s (f x s)) (xs : List α) (s : State) :
    OpenOnly s (Machine.each xs f s) := by
  induction xs generalizing s with
  | nil => exact refl s
  | cons x xs ih => exact (h x s).trans (ih _)

theorem streamOut (kind : Nat) (data : List Byte) (s : State) : OpenOnly s (Machine.streamOut kind data s) :=
  of_journal (journal_of (by simp))

theorem occurCp (k : Nat) (s : State) : OpenOnly s (Machine.occurCp k s) := of_journal (journal_of (by simp))

end OpenOnly

theorem loseRec_openOnly (st : Stamp) (s : State) : OpenOnly s (loseRec st s) := by
  have hLost : ∀ gp u, OpenOnly u
      (updJnl (fun j => { j with gap := gp }) (flag fJnlGap (setF fJnlDropping 1 (addF fJnlDrops 1 u)))) := fun gp u =>
    ⟨rfl, rfl, rfl, rfl⟩
  refine OpenOnly.trans ?_ (hLost _ _)
  split
  · exact .refl s
  · exact .occurCp 4 s

theorem appendRec_openOnly (r : JRec) (s : State) : OpenOnly s (appendRec r s) := by
  unfold appendRec
  split
  · exact loseRec_openOnly ..
  · next g hOpen =>
    have hAdd : OpenOnly s (updJnl (fun j => { j with openSeg := some (segAdd r g) }) s) :=
      ⟨rfl, rfl, rfl, by rw [hOpen]; rfl⟩
    have hFlight : ∀ n u, OpenOnly u (updJnl (fun j => { j with flight := r.stamp :: j.flight.take n }) u) := fun n u =>
      ⟨rfl, rfl, rfl, rfl⟩
    dsimp only
    split
    · exact loseRec_openOnly ..
    · split
      · exact (hAdd.trans (hFlight _ _)).trans (.streamOut ..)
      · exact hAdd

theorem appendRecs_openOnly (rs : List JRec) (s : State) : OpenOnly s (each rs appendRec s) :=
  OpenOnly.each appendRec_openOnly rs s

/-! ### A segment closes, and the next one opens (R180, R181, R196) -/

/-- `u` is `s` with a segment that opens at turn t. -/
theorem openNew_openOnly (t : Nat) (s : State) :
    OpenOnly (updJnl (fun j => { j with openSeg := some (newSeg s t) }) s) (openNew t s) := by
  have hOut := OpenOnly.streamOut 0 (openInfo (newSeg s t)) (updJnl (fun j => { j with openSeg := some (newSeg s t) }) s)
  have hGap : ∀ u, OpenOnly u (updJnl (fun j => { j with gap := none }) (setF fJnlDropping 0 u)) := fun u =>
    ⟨rfl, rfl, rfl, rfl⟩
  simp only [openNew]
  split
  · split
    · exact (hOut.trans (hGap _)).trans (appendRec_openOnly ..)
    · exact hOut
  · exact hOut

/-- A segment that has closed is sent to an ancestor, or waits in staging (R180, R200). -/
def putAway (g : Seg) (s : State) : State :=
  if streams s then streamOut 2 ([BitVec.ofNat 8 g.close] ++ stampBytes g.closeStamp) s
  else updJnl (fun j => { j with closed := j.closed ++ [g], stage := j.stage + segSize g }) s

/-- The next segment opens at turn t, and takes records. -/
def openWith (t : Nat) (rs : List JRec) (s : State) : State :=
  each rs appendRec (openNew t (jnlFull (updJnl (fun j => { j with openSeg := none }) s)))

/-- The records that a closing segment is given: those of its runs and traces (R179, R189). -/
def endRecs (s : State) : List JRec :=
  (s.journal.traces.map (traceRec s)).flatten ++ (s.journal.runs.map (runRec s)).flatten

/-- A segment that closes has taken all records that fit. -/
def lastRecs (s : State) : State :=
  each ((endRecs s).take (s.journal.openSeg.elim 0 (fun g => fitCount g (endRecs s)))) appendRec
    (updJnl (fun j => { j with runs := [], traces := [] }) s)

/-- A segment closes where one is open once the last records are in it; else they are lost (R180, R196). -/
theorem closeSeg_elim (code t : Nat) (s : State) : closeSeg code t s = (lastRecs s).journal.openSeg.elim
    (each (endRecs s) appendRec (lastRecs s))
    (fun g => openWith t ((endRecs s).drop (s.journal.openSeg.elim 0 (fun g => fitCount g (endRecs s))))
      (putAway { g with close := code, closeTurn := t, closeStamp := stampAt (lastRecs s) t } (lastRecs s))) := by
  simp only [closeSeg]
  split
  · next h => rw [show (lastRecs s).journal.openSeg = none from h]; rfl
  · next g h => rw [show (lastRecs s).journal.openSeg = some g from h]; rfl

theorem closeSeg_some (code t : Nat) {s : State} {g : Seg} (h : (lastRecs s).journal.openSeg = some g) :
    ∃ rs, closeSeg code t s = openWith t rs
      (putAway { g with close := code, closeTurn := t, closeStamp := stampAt (lastRecs s) t } (lastRecs s)) :=
  ⟨_, by rw [closeSeg_elim, h, Option.elim_some]⟩

theorem closeSeg_none (code t : Nat) {s : State} (h : (lastRecs s).journal.openSeg = none) :
    closeSeg code t s = each (endRecs s) appendRec (lastRecs s) := by rw [closeSeg_elim, h, Option.elim_none]

theorem openWith_openOnly (t : Nat) (rs : List JRec) (s : State) : ∃ g : Seg, g.openTurn = t ∧
    OpenOnly (updJnl (fun j => { j with openSeg := some g }) s) (openWith t rs s) := by
  have hNew := openNew_openOnly t (jnlFull (updJnl (fun j => { j with openSeg := none }) s))
  have hSame : ∀ g, OpenOnly (updJnl (fun j => { j with openSeg := some g }) s)
      (updJnl (fun j => { j with openSeg := some g }) (jnlFull (updJnl (fun j => { j with openSeg := none }) s))) := fun g =>
    ⟨rfl, rfl, rfl, rfl⟩
  exact ⟨newSeg _ t, rfl, ((hSame _).trans hNew).trans (appendRecs_openOnly ..)⟩

/-- The registers of the journal's entries (R202) are none that a journal record changes. -/
theorem logKeys_entry {k : Nat} (hLow : 0x40000100 ≤ k) (hHigh : k < 0x40000200) : logKeys k = false := by
  simp only [logKeys, icKeys, icK, if_true, Bool.or_eq_false_iff, decide_eq_false_iff_not]
  omega

theorem logKeys_nsCfg {n : Nat} (hn : n < 16) (hi lo : Nat) : logKeys (fNsCfg n hi lo).key = false :=
  logKeys_entry (k := 0x40000108 + 16 * n) (by omega) (by omega)

theorem streams_of_log {s u : State} (h : RegsOnly logKeys s u) : streams u = streams s := by
  have hAll : (List.range 16).all (fun n => !isSet u (fNsValid n)) = (List.range 16).all (fun n => !isSet s (fNsValid n)) := by
    rw [Bool.eq_iff_iff, List.all_eq_true, List.all_eq_true]
    exact forall₂_congr fun n hn => by rw [h.isSet (fNsValid n) (logKeys_nsCfg (List.mem_range.mp hn) 0 0)]
  rw [streams, streams, hAll, isMember, isMember, isHead, isHead, h.isSet fGrpValid rfl, h.isSet fGrpHead rfl,
    h.isSet fGrpAdmitted rfl]

/-- A segment has closed with a code at turn t, unless it was sent away, and the next one is open from then on. -/
structure SegClosed (code t : Nat) (s u : State) : Prop where
  opened : u.journal.openSeg.map Seg.openTurn = some t
  last : streams s = false → u.journal.closed.getLast?.map (fun g => (g.close, g.closeTurn)) = some (code, t)
  runs : u.journal.runs = []
  traces : u.journal.traces = []

theorem putAway_keeps (g : Seg) (s : State) : (putAway g s).journal.runs = s.journal.runs ∧
    (putAway g s).journal.traces = s.journal.traces ∧ (streams s = false → (putAway g s).journal.closed.getLast? = some g) := by
  unfold putAway
  split
  · next h =>
    have hOut := OpenOnly.streamOut 2 ([BitVec.ofNat 8 g.close] ++ stampBytes g.closeStamp) s
    exact ⟨hOut.runs, hOut.traces, fun hNot => by rw [h] at hNot; cases hNot⟩
  · exact ⟨rfl, rfl, fun _ => List.getLast?_concat⟩

theorem closeSeg_closed {s : State} {g : Seg} (h : s.journal.openSeg = some g) (code t : Nat) :
    SegClosed code t s (closeSeg code t s) := by
  have hLast : OpenOnly (updJnl (fun j => { j with runs := [], traces := [] }) s) (lastRecs s) := appendRecs_openOnly ..
  have hStreams : streams (lastRecs s) = streams s :=
    streams_of_log ((RegsOnly.updJnl _ s).trans (RegsOnly.each _ appendRec_log _ _))
  have hSome : (lastRecs s).journal.openSeg.map Seg.openTurn = some g.openTurn := hLast.opened.trans (by rw [updJnl_self, h]; rfl)
  obtain ⟨g', hOpen, -⟩ := Option.map_eq_some_iff.mp hSome
  obtain ⟨rs, hEq⟩ := closeSeg_some code t hOpen
  obtain ⟨hRuns, hTraces, hClosed⟩ := putAway_keeps
    { g' with close := code, closeTurn := t, closeStamp := stampAt (lastRecs s) t } (lastRecs s)
  obtain ⟨n, hTurn, hNext⟩ := openWith_openOnly t rs
    (putAway { g' with close := code, closeTurn := t, closeStamp := stampAt (lastRecs s) t } (lastRecs s))
  rw [hEq]
  refine ⟨hNext.opened.trans (congrArg some hTurn), fun hNot => ?_, hNext.runs.trans (hRuns.trans hLast.runs),
    hNext.traces.trans (hTraces.trans hLast.traces)⟩
  rw [hNext.closed, updJnl_self, hClosed (hStreams.trans hNot)]
  rfl

end Sys2Proof.Machine
end

section
namespace Sys2Proof.Machine

/-! ### SEGMENT_TIME_CLOSE and JNL_CTRL_CLOSE (R180, R200) -/

theorem segmentTimeClose_completes {s : State} {g : Seg} (hOpen : s.journal.openSeg = some g) (hLimited : limited s = true)
    (hDue : dueNow s (g.openTurn + segTurns) = true) : Completes .segmentTimeClose s (fun u =>
      now u = max (now s) (g.openTurn + segTurns) ∧
      u.journal.openSeg.map (fun h => h.openTurn) = some (g.openTurn + segTurns) ∧
      (streams s = false → u.journal.closed.getLast?.map (fun h => (h.close, h.closeTurn)) = some (1, g.openTurn + segTurns)) ∧
      u.journal.runs = [] ∧ u.journal.traces = []) := by
  have hExec : exec .segmentTimeClose s =
      .next (closeSeg 1 (g.openTurn + segTurns) (goTo (g.openTurn + segTurns) s)) := by
    show execSegmentTimeClose s = _
    simp only [execSegmentTimeClose, hOpen, hLimited, atDue, hDue, if_true, done]
  have hNow : now (closeSeg 1 (g.openTurn + segTurns) (goTo (g.openTurn + segTurns) s)) = max (now s) (g.openTurn + segTurns) :=
    (now_of (time_of (by simp))).trans (now_goTo _ s)
  obtain ⟨hNext, hLast, hRuns, hTraces⟩ := closeSeg_closed (s := goTo (g.openTurn + segTurns) s) hOpen 1 (g.openTurn + segTurns)
  exact ⟨_, hExec, hNow, hNext, hLast, hRuns, hTraces⟩

theorem segmentTimeClose_waits {s : State} (h : s.journal.openSeg = none ∨ limited s = false ∨
    (∃ g, s.journal.openSeg = some g ∧ dueNow s (g.openTurn + segTurns) = false)) : exec .segmentTimeClose s = .next s := by
  show execSegmentTimeClose s = _
  unfold execSegmentTimeClose
  split
  · next g hOpen =>
    rcases h with h | h | ⟨g', h, hDue⟩
    · rw [hOpen] at h
      cases h
    · exact if_neg (by rw [h]; exact Bool.false_ne_true)
    · rw [hOpen] at h
      cases h
      simp only [atDue, hDue, Bool.false_eq_true, if_false, done, ite_self]
  · rfl

theorem exec_jnlCtrlClose (s : State) : exec (.jnlCtrlClose .cp) s = .next (jnlCloseNow s) := rfl

theorem jnlCtrlClose_completes {s : State} {g : Seg} (hOpen : s.journal.openSeg = some g) (hRun : isSet s fJnlRunning = true) :
    Completes (.jnlCtrlClose .cp) s (fun u =>
      u.journal.openSeg.map (fun h => h.openTurn) = some (now s) ∧
      (streams s = false → u.journal.closed.getLast?.map (fun h => (h.close, h.closeTurn)) = some (2, now s))) := by
  obtain ⟨hNext, hLast, -, -⟩ := closeSeg_closed hOpen 2 (now s)
  exact ⟨_, (exec_jnlCtrlClose s).trans (congrArg _ (if_pos hRun)), hNext, hLast⟩

theorem jnlCtrlClose_waits {s : State} (h : isSet s fJnlRunning = false) : exec (.jnlCtrlClose .cp) s = .next s :=
  (exec_jnlCtrlClose s).trans (congrArg _ (if_neg (by rw [h]; exact Bool.false_ne_true)))

/-- What the control processor alone may write is a bus error for any other core. -/
theorem cpOnly_other {c : CoreId} (h : isCp c = false) (a : Nat) (k : State → State) (s : State) :
    cpOnly c a k s = busErr c a s := if_neg (by rw [h]; exact Bool.false_ne_true)

/-! ### SEGMENT_SIGN (R182, R194, R195) -/

theorem setNth_middle {α : Type} (xs : List α) (x y : α) (ys : List α) :
    setNth (xs ++ x :: ys) xs.length y = xs ++ y :: ys := by
  induction xs with
  | nil => rfl
  | cons z xs ih => exact congrArg (z :: ·) ih

/-- A segment signed as the next of its chain, placed at the write pointer. -/
def signed (s : State) (g : Seg) : Seg :=
  { g with
    seq := (chainOf s g.chain).1, jaddr := s.journal.wptr,
    header := some (signedHead s { g with seq := (chainOf s g.chain).1, jaddr := s.journal.wptr } (chainOf s g.chain).2) }

/-- The first segment without a header is the one that is signed. -/
theorem signFirst_eq {s : State} {g : Seg} {ps gs : List Seg} (hClosed : s.journal.closed = ps ++ g :: gs)
    (hNone : g.header = none) (hSigned : ∀ p ∈ ps, p.header.isSome = true) : signFirst s =
      if canPlace s (segSize g) then
        jnlFull (chainNext g.chain ((signed s g).seq + 1) (sha256 ((signed s g).header.elim [] id)) (updJnl (fun j =>
          { j with closed := ps ++ signed s g :: gs, wptr := nextPlace s s.journal.wptr (segSize g) }) s))
      else jnlFull s := by
  have hFirst : s.journal.closed.findIdx? (fun g => g.header.isNone) = some ps.length := by
    rw [hClosed, List.findIdx?_append, List.findIdx?_eq_none_iff.mpr (fun p hp => by simpa using hSigned p hp),
      List.findIdx?_cons, hNone]
    simp
  have hAt : s.journal.closed[ps.length]? = some g := by rw [hClosed]; simp
  unfold signFirst
  simp only [hFirst, hAt]
  have hSet : setNth s.journal.closed ps.length (signed s g) = ps ++ signed s g :: gs := by rw [hClosed, setNth_middle]
  rw [← hSet]
  rfl

/-- Where a segment is signed, only the SEQ and the digest of its chain follow. -/
theorem chainNext_journal (c : Option Nat) (seq : Nat) (digest : List Byte) (s : State) :
    (chainNext c seq digest s).journal.closed = s.journal.closed ∧ (chainNext c seq digest s).journal.wptr = s.journal.wptr ∧
    (c = none → (chainNext c seq digest s).journal.seq = seq) := by
  cases c with
  | none => exact ⟨rfl, rfl, fun _ => rfl⟩
  | some seat => exact ⟨rfl, rfl, nofun⟩

theorem exec_segmentSign {s : State} (h : isSet s fJnlRunning = true) : exec .segmentSign s = .next (signFirst s) :=
  congrArg Host.Outcome.next (if_pos h)

theorem segmentSign_completes {s : State} {g : Seg} {ps gs : List Seg} (hClosed : s.journal.closed = ps ++ g :: gs)
    (hNone : g.header = none) (hSigned : ∀ p ∈ ps, p.header.isSome = true) (hRun : isSet s fJnlRunning = true) :
    Completes .segmentSign s (fun u =>
      (canPlace s (segSize g) = true → u.journal.closed = ps ++ signed s g :: gs ∧
        u.journal.wptr = nextPlace s s.journal.wptr (segSize g) ∧ (g.chain = none → u.journal.seq = s.journal.seq + 1)) ∧
      (canPlace s (segSize g) = false → getF u fJnlFull = 1 ∧ u.journal = s.journal)) := by
  refine ⟨_, exec_segmentSign hRun, ?_⟩
  rw [signFirst_eq hClosed hNone hSigned]
  constructor
  · intro hPlace
    rw [if_pos hPlace]
    obtain ⟨hC, hW, hS⟩ := chainNext_journal g.chain ((signed s g).seq + 1) (sha256 ((signed s g).header.elim [] id))
      (updJnl (fun j => { j with closed := ps ++ signed s g :: gs, wptr := nextPlace s s.journal.wptr (segSize g) }) s)
    exact ⟨hC, hW, fun hOwn => (hS hOwn).trans (by rw [signed, hOwn]; rfl)⟩
  · intro hPlace
    have hNext : s.journal.closed.find? (fun g => g.header.isNone) = some g := by
      rw [hClosed, List.find?_append,
        List.find?_eq_none.mpr (fun p hp => by simpa [Option.isSome_iff_ne_none] using hSigned p hp), Option.none_or,
        List.find?_cons_of_pos (by rw [hNone]; rfl)]
    rw [if_neg (by rw [hPlace]; exact Bool.false_ne_true)]
    refine ⟨?_, rfl⟩
    rw [jnlFull, getF_setF_self _ _ _ rfl, hNext]
    simp only [hPlace]
    rfl

theorem segmentSign_waits {s : State} (h : isSet s fJnlRunning = false ∨ ∀ g ∈ s.journal.closed, g.header.isSome = true) :
    exec .segmentSign s = .next s := by
  rcases h with h | h
  · exact congrArg Host.Outcome.next (if_neg (by rw [h]; exact Bool.false_ne_true))
  · have hNone : s.journal.closed.findIdx? (fun g => g.header.isNone) = none :=
      List.findIdx?_eq_none_iff.mpr (fun g hg => by simpa using h g hg)
    have hSame : signFirst s = s := by rw [signFirst, hNone]
    exact congrArg Host.Outcome.next (by rw [hSame, ite_self])

/-! ### SEGMENT_COMMIT (R194, R196, R197) -/

/-- The oldest segment is signed, and every entry that it touches has a member that takes it. -/
def canCommit (s : State) (g : Seg) : Bool := g.header.isSome && (segEntries s g).all (fun e => !(takers s e).isEmpty)

/-- The oldest segment has left staging, for the members that take it. -/
def committed (s : State) (g : Seg) (gs : List Seg) : State :=
  updJnl (fun j => { j with
    closed := gs, stage := j.stage - segSize g,
    committed := { g with members := ((segEntries s g).map (takers s)).flatten } :: j.committed.filter (fun h => !overlaps g h) }) s

theorem commitFirst_eq {s : State} {g : Seg} {gs : List Seg} (hClosed : s.journal.closed = g :: gs) : commitFirst s =
    if canCommit s g then
      (if g.chain.isNone ∧ (g.seq + 1) % 1024 = 0 then
        writeAnchor (if staged (committed s g gs) < stageMax then setF fJnlDropping 0 (committed s g gs) else committed s g gs)
      else if staged (committed s g gs) < stageMax then setF fJnlDropping 0 (committed s g gs) else committed s g gs)
    else s := by
  unfold commitFirst
  simp only [hClosed]
  rfl

theorem canCommit_iff {s : State} {g : Seg} :
    canCommit s g = true ↔ g.header.isSome = true ∧ ∀ e ∈ segEntries s g, takers s e ≠ [] := by
  simp [canCommit]

/-- An anchor leaves all of the journal but the anchor blocks. -/
theorem writeAnchor_journal (s : State) : (writeAnchor s).journal.closed = s.journal.closed ∧
    (writeAnchor s).journal.stage = s.journal.stage ∧ (writeAnchor s).journal.committed = s.journal.committed :=
  ⟨rfl, rfl, rfl⟩

theorem segmentCommit_completes {s : State} {g : Seg} {gs : List Seg} (hClosed : s.journal.closed = g :: gs)
    (hSigned : g.header.isSome = true) (hTakers : ∀ e ∈ segEntries s g, takers s e ≠ []) (hRun : isSet s fJnlRunning = true) :
    Completes .segmentCommit s (fun u =>
      u.journal.closed = gs ∧ u.journal.stage = s.journal.stage - segSize g ∧
      u.journal.committed = { g with members := ((segEntries s g).map (takers s)).flatten } ::
        s.journal.committed.filter (fun h => !overlaps g h) ∧
      (¬ (g.chain = none ∧ (g.seq + 1) % 1024 = 0) → u.journal.anchors = s.journal.anchors)) := by
  refine ⟨_, congrArg Host.Outcome.next (if_pos hRun), ?_⟩
  rw [commitFirst_eq hClosed, if_pos (canCommit_iff.mpr ⟨hSigned, hTakers⟩)]
  have hSame : (if staged (committed s g gs) < stageMax then setF fJnlDropping 0 (committed s g gs)
      else committed s g gs).journal = (committed s g gs).journal := by
    split
    · rfl
    · rfl
  split
  · next hAnchor =>
    obtain ⟨hC, hS, hM⟩ := writeAnchor_journal
      (if staged (committed s g gs) < stageMax then setF fJnlDropping 0 (committed s g gs) else committed s g gs)
    dsimp only
    rw [hC, hS, hM, hSame]
    exact ⟨rfl, rfl, rfl, fun hNot => absurd ⟨Option.isNone_iff_eq_none.mp hAnchor.1, hAnchor.2⟩ hNot⟩
  · dsimp only
    rw [hSame]
    exact ⟨rfl, rfl, rfl, fun _ => rfl⟩

theorem segmentCommit_waits {s : State} (h : isSet s fJnlRunning = false ∨ s.journal.closed = [] ∨
    (∃ g gs, s.journal.closed = g :: gs ∧ (g.header = none ∨ ∃ e ∈ segEntries s g, takers s e = []))) :
    exec .segmentCommit s = .next s := by
  have hSame : commitFirst s = s → exec .segmentCommit s = .next s := fun hEq =>
    congrArg Host.Outcome.next (by rw [hEq, ite_self])
  rcases h with h | h | ⟨g, gs, hClosed, hNot⟩
  · exact congrArg Host.Outcome.next (if_neg (by rw [h]; exact Bool.false_ne_true))
  · exact hSame (by rw [commitFirst, h])
  · refine hSame ?_
    rw [commitFirst_eq hClosed, if_neg]
    rw [canCommit_iff]
    rintro ⟨hSigned, hTakers⟩
    rcases hNot with hNot | ⟨e, he, hNot⟩
    · rw [hNot] at hSigned
      cases hSigned
    · exact hTakers e he hNot

end Sys2Proof.Machine

open Sys2Proof Sys2Proof.Machine

/-- Settles O27: the coder by its tokens, and one lemma for each command of a segment's life. -/
theorem segments : Obligations.Segments := by
  unfold Obligations.Segments
  refine ⟨encodeBody_sound, fun s g => segmentTimeClose_completes, fun s => segmentTimeClose_waits,
    fun s g => jnlCtrlClose_completes, fun s g ps gs => segmentSign_completes, fun s g gs => segmentCommit_completes,
    fun s => ⟨segmentSign_waits, segmentCommit_waits, jnlCtrlClose_waits, fun c hc => ?_⟩⟩
  exact congrArg Host.Outcome.next (cpOnly_other hc _ _ s)
end

section
namespace Sys2Proof.Machine

/-! ### What a record leaves of the engine's place and status (R175, R196, R199, R201) -/

/-- The bits of JNL_STAT that accepting a record leaves. -/
def jnlFlags : List Fld := [fJnlRunning, fJnlDegraded, fJnlDrive, fJnlCfgerr]

/-- The place of the own chain: SEQ, the last digest, the write pointer and the archive pointer. -/
def jnlPlace (s : State) : Nat × List Byte × Nat × Nat :=
  (s.journal.seq, s.journal.prevDigest, s.journal.wptr, s.journal.arch)

/-- Between `s` and `u` records were accepted or lost: the engine's place and status stay, and a segment stays open. -/
structure JnlKept (s u : State) : Prop where
  place : jnlPlace u = jnlPlace s
  opened : s.journal.openSeg.isSome = true → u.journal.openSeg.isSome = true
  flags : ∀ f ∈ jnlFlags, getF u f = getF s f

/-- A field of another register than JNL_STAT is none of its bits. -/
theorem jnlFlags_apart {f : Fld} (h : f.key ≠ 0x40000004) : jnlFlags.all f.apart = true := by
  simp [jnlFlags, Fld.apart, fJnlRunning, fJnlDegraded, fJnlDrive, fJnlCfgerr, bit, h.symm]

theorem pageK_ne_stat (p off : Nat) : pageK p off ≠ 0x40000004 := by
  unfold pageK
  omega

namespace JnlKept

theorem of_same {s u : State} (hJ : u.journal = s.journal) (hR : reg u 0x40000004 = reg s 0x40000004) : JnlKept s u where
  place := by rw [jnlPlace, jnlPlace, hJ]
  opened := by rw [hJ]; exact id
  flags := fun f hf => by
    have hKey : f.key = 0x40000004 := by
      simp only [jnlFlags, List.mem_cons, List.not_mem_nil, or_false] at hf
      rcases hf with rfl | rfl | rfl | rfl
      all_goals rfl
    rw [getF, getF, hKey, hR]

theorem of_views {s u : State} (hJ : u.journal = s.journal) (hR : u.regs = s.regs) : JnlKept s u :=
  of_same hJ (by rw [reg, reg, hR])

theorem refl (s : State) : JnlKept s s := of_same rfl rfl

theorem trans {s t u : State} (h : JnlKept s t) (g : JnlKept t u) : JnlKept s u :=
  ⟨g.place.trans h.place, g.opened ∘ h.opened, fun f hf => (g.flags f hf).trans (h.flags f hf)⟩

theorem ite {s t u : State} {p : Prop} [Decidable p] (ht : JnlKept s t) (hu : JnlKept s u) :
    JnlKept s (if p then t else u) := by
  split
  · exact ht
  · exact hu

theorem each {α : Type} {f : α → State → State} (h : ∀ x s, JnlKept s (f x s)) (xs : List α) (s : State) :
    JnlKept s (Machine.each xs f s) := by
  induction xs generalizing s with
  | nil => exact refl s
  | cons x xs ih => exact (h x s).trans (ih _)

theorem setF {f : Fld} (hf : jnlFlags.all f.apart = true) (v : Nat) (s : State) : JnlKept s (Machine.setF f v s) where
  place := rfl
  opened := id
  flags := fun _ hg => getF_setF_apart v s (List.all_eq_true.mp hf _ hg)

theorem flag {f : Fld} (hf : jnlFlags.all f.apart = true) (s : State) : JnlKept s (Machine.flag f s) :=
  (setF hf 1 s).trans (of_same rfl rfl)

theorem addF {f : Fld} (hf : jnlFlags.all f.apart = true) (k : Nat) (s : State) : JnlKept s (Machine.addF f k s) :=
  setF hf _ s

theorem setReg {k : Nat} (hk : k ≠ 0x40000004) (w : Word) (s : State) : JnlKept s (Machine.setReg k w s) :=
  of_same rfl (reg_setReg_ne w s hk.symm)

theorem updTen (t : Nat) (f : TenantSt → TenantSt) (s : State) : JnlKept s (Machine.updTen t f s) := of_same rfl rfl

/-! Records -/

theorem occurCp {k : Nat} (hk : k < 64) (s : State) : JnlKept s (Machine.occurCp k s) :=
  of_same (journal_of (by simp)) ((occur_log 16 k s hk).reg 0x40000004 (by decide))

theorem streamOut (kind : Nat) (data : List Byte) (s : State) : JnlKept s (Machine.streamOut kind data s) :=
  of_views (journal_of (by simp)) (regs_of (by simp))

theorem jnlFull (s : State) : JnlKept s (Machine.jnlFull s) := setF (f := fJnlFull) rfl _ s

theorem loseRec (st : Stamp) (s : State) : JnlKept s (Machine.loseRec st s) := by
  have hGap : ∀ gp u, JnlKept u (updJnl (fun j => { j with gap := gp }) u) := fun gp u => ⟨rfl, id, fun _ _ => rfl⟩
  have hLost : ∀ u, JnlKept u (Machine.flag fJnlGap (Machine.setF fJnlDropping 1 (Machine.addF fJnlDrops 1 u))) := fun u =>
    ((addF (f := fJnlDrops) rfl 1 u).trans (setF (f := fJnlDropping) rfl 1 _)).trans (flag (f := fJnlGap) rfl _)
  exact ((ite (refl s) (occurCp (by decide) s)).trans (hLost _)).trans (hGap _ _)

theorem appendRec (r : JRec) (s : State) : JnlKept s (Machine.appendRec r s) := by
  have hAdd : ∀ g, JnlKept s (updJnl (fun j => { j with openSeg := some g }) s) := fun g =>
    ⟨rfl, fun _ => rfl, fun _ _ => rfl⟩
  have hFlight : ∀ n u, JnlKept u (updJnl (fun j => { j with flight := r.stamp :: j.flight.take n }) u) := fun n u =>
    ⟨rfl, id, fun _ _ => rfl⟩
  unfold Machine.appendRec
  split
  · exact loseRec ..
  · exact ite (loseRec ..) (ite (((hAdd _).trans (hFlight _ _)).trans (streamOut ..)) (hAdd _))

theorem appendRecs (rs : List JRec) (s : State) : JnlKept s (Machine.each rs Machine.appendRec s) := each appendRec rs s

theorem openNew (t : Nat) (s : State) :
    JnlKept (updJnl (fun j => { j with openSeg := some (newSeg s t) }) s) (Machine.openNew t s) := by
  have hOut := streamOut 0 (openInfo (newSeg s t)) (updJnl (fun j => { j with openSeg := some (newSeg s t) }) s)
  have hGap : ∀ u, JnlKept u (updJnl (fun j => { j with gap := none }) (Machine.setF fJnlDropping 0 u)) := fun u =>
    (setF (f := fJnlDropping) rfl 0 u).trans ⟨rfl, id, fun _ _ => rfl⟩
  simp only [Machine.openNew]
  split
  · exact ite ((hOut.trans (hGap _)).trans (appendRec ..)) hOut
  · exact hOut

theorem openWith (t : Nat) (rs : List JRec) (s : State) : JnlKept s (Machine.openWith t rs s) := by
  have hNone : ∀ g, JnlKept s
      (updJnl (fun j => { j with openSeg := some g }) (Machine.jnlFull (updJnl (fun j => { j with openSeg := none }) s))) :=
    fun g => ⟨rfl, fun _ => rfl, (jnlFull (updJnl (fun j => { j with openSeg := none }) s)).flags⟩
  exact ((hNone _).trans (openNew t _)).trans (appendRecs rs _)

theorem putAway (g : Seg) (s : State) : JnlKept s (Machine.putAway g s) := ite (streamOut ..) ⟨rfl, id, fun _ _ => rfl⟩

theorem lastRecs (s : State) : JnlKept s (Machine.lastRecs s) := by
  have hEmpty : JnlKept s (updJnl (fun j => { j with runs := [], traces := [] }) s) := ⟨rfl, id, fun _ _ => rfl⟩
  exact hEmpty.trans (appendRecs ..)

theorem closeSeg (code t : Nat) (s : State) : JnlKept s (Machine.closeSeg code t s) := by
  rcases h : (Machine.lastRecs s).journal.openSeg with _ | g
  · rw [closeSeg_none code t h]
    exact (lastRecs s).trans (appendRecs ..)
  · obtain ⟨rs, hEq⟩ := closeSeg_some code t h
    rw [hEq]
    exact ((lastRecs s).trans (putAway ..)).trans (openWith ..)

theorem timeClose (n : Nat) (s : State) : JnlKept s (Machine.timeClose n s) := by
  induction n generalizing s with
  | zero => exact refl s
  | succ n ih =>
    unfold Machine.timeClose
    split
    · exact ite ((closeSeg ..).trans (ih _)) (refl s)
    · exact refl s

theorem accept (r : Nat → JRec) (s : State) : JnlKept s (Machine.accept r s) := by
  refine (timeClose (segAge s) s).trans ?_
  simp only [Machine.accept]
  split
  · exact loseRec ..
  · exact ite ((closeSeg ..).trans (appendRec ..)) (appendRec ..)

theorem acceptAll (rs : List JRec) (s : State) : JnlKept s (Machine.acceptAll rs s) := each (fun r => accept fun _ => r) rs s

theorem jnl (type : Nat) (payload : List Byte) (s : State) : JnlKept s (Machine.jnl type payload s) := by
  have hBy : ∀ turn exact log, JnlKept s (jnlBy type turn exact log s) := fun turn exact log =>
    ite (refl s) (ite ⟨rfl, id, fun _ _ => rfl⟩ (accept ..))
  exact hBy ..

/-! A response of the administration page (R301, R307) -/

theorem issueVector (p v : Nat) (s : State) : JnlKept s (Machine.issueVector p v s) :=
  ite (setF (jnlFlags_apart (pageK_ne_stat _ _)) 1 s)
    (ite (of_views (journal_of (by simp)) (regs_of (by simp))) (of_same rfl rfl))

theorem bellSet (b : Nat) (s : State) : JnlKept s (Machine.bellSet 256 b s).2 := by
  have hAgain : JnlKept s (if isSet s (fBellOut 256 b) then bellAgain 256 b s else s) :=
    ite (by unfold bellAgain; exact updTen ..) (refl s)
  exact hAgain.trans (flag (jnlFlags_apart (pageK_ne_stat 256 0x1C)) _)

theorem ringBell (b : Nat) (s : State) : JnlKept s (Machine.ringBell 256 b s) :=
  ite ((bellSet b s).trans (issueVector ..)) (bellSet b s)

theorem placeRing (rel : Nat) (sl : Slot) (s : State) : JnlKept s (Machine.placeRing 256 rel sl s).2 := by
  have hPut : ∀ i u, JnlKept u (ringPut 256 0x800 i sl u) := fun i u => each (fun w => setReg (pageK_ne_stat _ _) _) _ u
  simp only [Machine.placeRing, if_true]
  exact (((hPut _ s).trans (setF (jnlFlags_apart (pageK_ne_stat 256 0x0C)) _ _)).trans (jnl 0x11 sl _)).trans (bellSet ..)

theorem placeSlot (rel : Nat) (sl : Slot) (s : State) : JnlKept s (Machine.placeSlot 256 rel sl s).2 := by
  have hPlace : ∀ sl u, JnlKept u
      (if (ten u 256).backlog.isEmpty && decide (0 < ringFree u 256) then Machine.placeRing 256 rel sl u
       else (none, Machine.setF (fBacklog 256) ((ten u 256).backlog.length + 1)
         (Machine.updTen 256 (fun x => { x with backlog := x.backlog ++ [(rel, sl)] }) u))).2 := by
    intro sl u
    split
    · exact placeRing ..
    · exact (updTen ..).trans (setF (jnlFlags_apart (pageK_ne_stat 256 0x30)) _ _)
  exact (ite (updTen ..) (refl s)).trans (hPlace _ _)

theorem placeSlots (rel : Nat) (sls : List Slot) (s : State) : JnlKept s (Machine.placeSlots 256 rel sls s).2 := by
  induction sls generalizing s with
  | nil => exact refl s
  | cons sl sls ih => exact (placeSlot rel sl s).trans (ih _)

theorem placeMsgs (rel n : Nat) (sls : List Slot) (s : State) : JnlKept s (Machine.placeMsgs 256 rel n sls s).2 := by
  have hLost : ∀ k u, JnlKept u (Machine.ringBell 256 4 (jTenant 6 256 (frameNo u) (Machine.addF (fOutLost 256) k
      (Machine.updTen 256 (fun x => { x with gapNext := true }) u)))) := fun k u =>
    (((updTen ..).trans (addF (jnlFlags_apart (pageK_ne_stat 256 0x28)) k _)).trans (jnl 0x06 _ _)).trans (ringBell ..)
  induction n generalizing sls s with
  | zero => exact refl s
  | succ n ih =>
    unfold Machine.placeMsgs
    split
    · exact refl s
    · next m rest _ _ =>
      have hMsg : ∀ (p : Prop) [Decidable p], JnlKept s (if p then Machine.placeSlots 256 rel m s
          else ([], Machine.ringBell 256 4 (jTenant 6 256 (frameNo s) (Machine.addF (fOutLost 256) m.length
            (Machine.updTen 256 (fun x => { x with gapNext := true }) s))))).2 := by
        intro p _
        split
        · exact placeSlots ..
        · exact hLost _ _
      exact (hMsg _).trans (ih _ _)

theorem admAnswer (op tag status state : Nat) (p : List Byte) (s : State) :
    JnlKept s (Machine.admAnswer op tag status state p s) := by
  have hLog : ∀ sls u, JnlKept u (Machine.each sls jAdmin u) := each (jnl 0x11)
  have hKeep : ∀ sls u, JnlKept u (mgmtKeep sls u) := fun sls u => of_same rfl rfl
  have hBack : ∀ sls u, JnlKept u (fwdBack sls u) := fun sls u => of_views (journal_of (by simp)) (regs_of (by simp))
  exact ite ((hLog _ s).trans (hKeep ..)) (ite ((hLog _ s).trans (hBack ..))
    ((placeMsgs ..).trans (each (issueVector 256) _ _)))

theorem admSkip (n : Nat) (s : State) : JnlKept s (Machine.admSkip n s) := by
  have hTake : ∀ u, JnlKept u (admTakeHead (useFresh u)) := fun u =>
    (setF (jnlFlags_apart (pageK_ne_stat 256 0x08)) _ u).trans (of_same rfl rfl)
  induction n generalizing s with
  | zero => exact refl s
  | succ n ih =>
    unfold Machine.admSkip
    dsimp only
    split
    · exact refl s
    · split
      · exact ((hTake s).trans (admAnswer ..)).trans (ih _)
      · exact refl s

theorem admDone (op key status state : Nat) (p : List Byte) (s : State) :
    JnlKept s (Machine.admDone op key status state p s) := by
  have hNone : JnlKept s (setAdmin none s) := of_same rfl rfl
  unfold Machine.admDone
  split
  · refine ite (hNone.trans (ite ?_ ?_)) (refl s)
    · exact (jnl 0x11 _ _).trans (admSkip ..)
    · exact (admAnswer ..).trans (admSkip ..)
  · exact refl s

end JnlKept

end Sys2Proof.Machine
end

section
namespace Sys2Proof.Machine

/-! ### The entries' fields beside the engine's registers (R197, R202) -/

/-- The state of an entry lies apart from the other entries' states. -/
theorem fNsState_apart {e k : Nat} (h : k ≠ e) : (fNsState e).apart (fNsState k) = true := by
  simp [Fld.apart, fNsState, fNsCfg, fld, h]

theorem fNsState_apart_valid (e : Nat) : (fNsState e).apart (fNsValid e) = true := by
  simp [Fld.apart, Fld.ok, fNsState, fNsValid, fNsCfg, fld]

/-- The engine's summary bits change, and nothing else of the registers. -/
theorem jnlSummary_log (s : State) : RegsOnly logKeys s (jnlFull (jnlHealth s)) :=
  (RegsOnly.setF (f := fJnlDegraded) _ s rfl).trans (RegsOnly.setF (f := fJnlFull) _ _ rfl)

/-- A record of the engine's own doing, and its summary bits: the registers of the entries stay. -/
theorem jnlNote_log (code : Nat) (data : List Byte) (s : State) :
    RegsOnly logKeys s (jnlFull (jnlHealth (jJournal code data s))) :=
  (jJournal_log ..).trans (jnlSummary_log _)

theorem getF_nsState_jnlNote {e : Nat} (he : e < 16) (code : Nat) (data : List Byte) (s : State) :
    getF (jnlFull (jnlHealth (jJournal code data s))) (fNsState e) = getF s (fNsState e) :=
  (jnlNote_log code data s).getF (fNsState e) (logKeys_nsCfg he 9 8)

/-! ### JNL_ENABLE (R199, R201, R202) -/

theorem exec_jnlEnable (identified : Bool) (s : State) :
    exec (.jnlEnable .cp identified) s = .next (jnlEnableNow identified s) := rfl

/-- Every entry passes identification, the key check passed, and every mirrored primary has its mirror. -/
def canEnable (identified : Bool) (s : State) : Bool :=
  identified && !isSet s fKeyfail && (List.range 16).all (mirrorOk s)

theorem canEnable_iff {identified : Bool} {s : State} : canEnable identified s = true ↔
    identified = true ∧ isSet s fKeyfail = false ∧ ∀ n, n < 16 → mirrorOk s n = true := by
  simp [canEnable, and_assoc]

theorem canEnable_false {identified : Bool} {s : State}
    (h : identified = false ∨ isSet s fKeyfail = true ∨ (∃ n, n < 16 ∧ mirrorOk s n = false)) :
    canEnable identified s = false := by
  rw [← Bool.not_eq_true, canEnable_iff]
  rintro ⟨hId, hKey, hAll⟩
  rcases h with h | h | ⟨n, hn, h⟩
  · exact Bool.false_ne_true (h.symm.trans hId)
  · exact Bool.false_ne_true (hKey.symm.trans h)
  · exact Bool.false_ne_true (h.symm.trans (hAll n hn))

theorem jnlEnableNow_eq {identified : Bool} {s : State} (h : isSet s fJnlEnable = false) :
    jnlEnableNow identified s = if canEnable identified s then jnlHealth (setF fJnlEnable 1 s) else jnlCfgerr s := by
  rw [jnlEnableNow, if_neg (by rw [h]; exact Bool.false_ne_true)]
  rfl

/-- The occurrence of CFGERR leaves the engine's registers. -/
theorem jnlCfgerr_raised (s : State) : RegsOnly (icKeys 16) s (if isSet s fJnlCfgerr then s else occurCp 4 s) :=
  RegsOnly.ite (RegsOnly.refl _ s) (occur_log 16 4 s (by decide))

theorem getF_jnlCfgerr_self (s : State) : getF (jnlCfgerr s) fJnlCfgerr = 1 := by
  rw [jnlCfgerr, getF_flag, getF_setF_self _ _ _ rfl]
  rfl

theorem getF_jnlCfgerr {f : Fld} (hf : fJnlCfgerr.apart f = true) (hKey : icKeys 16 f.key = false) (s : State) :
    getF (jnlCfgerr s) f = getF s f := by
  rw [jnlCfgerr, getF_flag, getF_setF_apart _ _ hf, (jnlCfgerr_raised s).getF f hKey]

theorem getF_zero_of_not {s : State} {f : Fld} (h : isSet s f = false) : getF s f = 0 := by simpa [isSet] using h

theorem jnlEnable_completes {s : State} {identified : Bool} (h : isSet s fJnlEnable = false) :
    Completes (.jnlEnable .cp identified) s (fun u =>
      getF u fJnlRunning = getF s fJnlRunning ∧
      (identified = true → isSet s fKeyfail = false → (∀ n, n < 16 → mirrorOk s n = true) → getF u fJnlEnable = 1) ∧
      (identified = false ∨ isSet s fKeyfail = true ∨ (∃ n, n < 16 ∧ mirrorOk s n = false) →
        getF u fJnlEnable = 0 ∧ getF u fJnlCfgerr = 1)) := by
  refine ⟨_, exec_jnlEnable identified s, ?_⟩
  dsimp only
  rw [jnlEnableNow_eq h]
  refine ⟨?_, fun hId hKey hAll => ?_, fun hNot => ?_⟩
  · split
    · rw [jnlHealth, getF_setF_apart _ _ rfl, getF_setF_apart _ _ rfl]
    · exact getF_jnlCfgerr rfl (by decide) s
  · rw [if_pos (canEnable_iff.mpr ⟨hId, hKey, hAll⟩), jnlHealth, getF_setF_apart _ _ rfl, getF_setF_self _ _ _ rfl]
    rfl
  · rw [if_neg (by rw [canEnable_false hNot]; exact Bool.false_ne_true)]
    exact ⟨(getF_jnlCfgerr rfl (by decide) s).trans (getF_zero_of_not h), getF_jnlCfgerr_self s⟩

theorem jnlEnable_enabled {s : State} (identified : Bool) (h : isSet s fJnlEnable = true) :
    exec (.jnlEnable .cp identified) s = .next s :=
  (exec_jnlEnable identified s).trans (congrArg _ (if_pos h))

/-! ### CHAIN_HEAD_FOUND (R199) -/

/-- The engine runs, at the place that the search gave, with a segment open. -/
def resumed (s : State) : State :=
  lbaShow (setF fJnlRunning 1 (updJnl (fun j => { j with
    openSeg := some (newSeg (resumeChains (findHead s) s) (now (resumeChains (findHead s) s))) }) (resumeChains (findHead s) s)))

/-- The place that a search gives (R199). -/
def headPlace (s : State) (h : Option (List Byte × Walk)) : Nat × List Byte × Nat × Nat :=
  match h with
  | some (a, w) =>
    let own := (w.chains.find? (fun c => c.1.isNone)).elim (0, []) (fun c => c.2)
    (own.1, own.2, w.at_, leAt a 60 8)
  | none => (0, List.replicate 32 0, 0x10000, s.journal.arch)

theorem jnlPlace_resumeChains (h : Option (List Byte × Walk)) (s : State) : jnlPlace (resumeChains h s) = headPlace s h := by
  rcases h with _ | ⟨a, w⟩
  · rfl
  · rfl

theorem lbaShow_kept (s : State) : JnlKept s (lbaShow s) := by
  have hKey : ∀ n, (fNsCfg n 10 10).key ≠ 0x40000004 := fun n => by
    simp only [fNsCfg, fld]
    omega
  exact JnlKept.each (fun n u => JnlKept.ite (JnlKept.setF (jnlFlags_apart (hKey n)) _ u) (JnlKept.refl u)) _ s

/-- From then on only records follow, and the response to an administrator who waits. -/
theorem headFound_kept (s : State) : JnlKept (resumed s) (headFound s) := by
  have hRestart : ∀ h u, JnlKept u (match (h : Option (List Byte × Walk)) with
      | some (_, w) => appendRec (restartRec u w.last) u
      | none => u) := by
    intro h u
    split
    · exact JnlKept.appendRec ..
    · exact JnlKept.refl u
  have hSeek : ∀ u, JnlKept u (match u.journal.seekTag with
      | some _ => admDone 0x5B 0 0 0 [] (updJnl (fun j => { j with seekTag := none }) u)
      | none => u) := by
    intro u
    have hNone : JnlKept u (updJnl (fun j => { j with seekTag := none }) u) := ⟨rfl, id, fun _ _ => rfl⟩
    split
    · exact hNone.trans (JnlKept.admDone ..)
    · exact JnlKept.refl u
  exact ((hRestart (findHead s) _).trans (JnlKept.acceptAll _ _)).trans (hSeek _)

theorem chainHeadFound_completes {s : State} (head : Option Nat) (hEnable : isSet s fJnlEnable = true)
    (hRun : isSet s fJnlRunning = false) : Completes (.chainHeadFound head) s (fun u =>
      getF u fJnlRunning = 1 ∧ u.journal.openSeg.isSome = true ∧ jnlPlace u = headPlace s (findHead s)) := by
  have hExec : exec (.chainHeadFound head) s = .next (headFound s) :=
    congrArg Host.Outcome.next (if_pos (by rw [hEnable, hRun]; rfl))
  have hShow := lbaShow_kept (setF fJnlRunning 1 (updJnl (fun j => { j with
    openSeg := some (newSeg (resumeChains (findHead s) s) (now (resumeChains (findHead s) s))) }) (resumeChains (findHead s) s)))
  have hAll := hShow.trans (headFound_kept s)
  refine ⟨_, hExec, ?_, hAll.opened rfl, hAll.place.trans (jnlPlace_resumeChains _ s)⟩
  rw [hAll.flags fJnlRunning (by simp [jnlFlags]), getF_setF_self _ _ _ rfl]
  rfl

theorem chainHeadFound_waits {s : State} (head : Option Nat) (h : isSet s fJnlEnable = false ∨ isSet s fJnlRunning = true) :
    exec (.chainHeadFound head) s = .next s := by
  refine congrArg Host.Outcome.next (if_neg ?_)
  rcases h with h | h
  · rw [h]
    exact Bool.false_ne_true
  · rw [h, Bool.not_true, Bool.and_false]
    exact Bool.false_ne_true

/-! ### JNL_DISABLE (R194, R199, R201) -/

theorem exec_jnlDisable (s : State) : exec (.jnlDisable .cp) s = .next (jnlDisableNow s) := rfl

theorem le_length (n v : Nat) : (le n v).length = n := by
  induction n generalizing v with
  | zero => rfl
  | succ n ih => rw [le, List.length_cons, ih]

theorem length_padTo (n : Nat) (bs : List Byte) : (padTo n bs).length = n := by
  rw [padTo, List.length_append, List.length_take, List.length_replicate]
  omega

theorem anchorBody_layout (count seq jaddr : Nat) (digest : List Byte) (arch : Nat) :
    (anchorBody count seq jaddr digest arch).length = 68 ∧
    (anchorBody count seq jaddr digest arch).take 4 = [0x4A, 0x41, 0x4E, 0x31] := by
  constructor
  · simp [anchorBody, le_length, length_padTo]
  · simp [anchorBody]

/-- The last anchor written is one of the two, with its fields and their digest. -/
theorem writeAnchor_head (s : State) : ∃ i b, (writeAnchor s).journal.anchors.head? = some (i, b ++ sha256 b) ∧ i < 2 ∧
    b.length = 68 ∧ b.take 4 = [0x4A, 0x41, 0x4E, 0x31] := by
  have hBlock : (if anchorCount (anchorAt s 0) ≤ anchorCount (anchorAt s 1) then 0 else 1) < 2 := by split <;> decide
  refine ⟨_, _, rfl, hBlock, ?_⟩
  split
  · exact anchorBody_layout ..
  · exact anchorBody_layout ..

theorem jnlDisable_completes (s : State) : Completes (.jnlDisable .cp) s (fun u =>
    getF u fJnlEnable = 0 ∧ (isSet s fJnlRunning = true → getF u fJnlRunning = 0 ∧
      ∃ i b, u.journal.anchors.head? = some (i, b ++ sha256 b) ∧ i < 2 ∧ b.length = 68 ∧ b.take 4 = [0x4A, 0x41, 0x4E, 0x31]) ∧
    (isSet s fJnlRunning = false → u = setF fJnlEnable 0 s)) := by
  refine ⟨_, exec_jnlDisable s, ?_⟩
  dsimp only
  rw [jnlDisableNow]
  cases hRun : isSet s fJnlRunning
  · exact ⟨by rw [if_neg Bool.false_ne_true, getF_setF_self _ _ _ rfl]; rfl, nofun, fun _ => rfl⟩
  · rw [if_pos rfl]
    refine ⟨?_, fun _ => ⟨?_, writeAnchor_head _⟩, nofun⟩
    · rw [getF_setF_apart _ _ rfl, getF_setF_self _ _ _ rfl]
      rfl
    · rw [getF_setF_self _ _ _ rfl]
      rfl

/-! ### Members: failure, replacement and rebuild (R197, R203) -/

/-- An entry that is not healthy degrades the engine. -/
theorem jnlHealth_degraded {s : State} {e : Nat} (he : e < 16) (hValid : isSet s (fNsValid e) = true)
    (hState : getF s (fNsState e) ≠ 0) : getF (jnlHealth s) fJnlDegraded = 1 := by
  have hAny : (List.range 16).any (fun n => isSet s (fNsValid n) &&
      (getF s (fNsState n) ≠ 0 || (!isSet s (fNsIsMirror n) && !isSet s (fNsMirrored n)))) = true :=
    List.any_eq_true.mpr ⟨e, List.mem_range.mpr he, by simp [hValid, hState]⟩
  rw [jnlHealth, getF_setF_self _ _ _ rfl, if_pos hAny]
  rfl

/-- A member marked FAILED, with the drive flag set. -/
def failed (e : Nat) (s : State) : State :=
  flag fJnlDrive (if isSet (setF (fNsState e) 1 s) fJnlDrive then setF (fNsState e) 1 s else occurCp 4 (setF (fNsState e) 1 s))

theorem failed_log (e : Nat) (s : State) : RegsOnly logKeys (setF (fNsState e) 1 s) (failed e s) :=
  (RegsOnly.ite (RegsOnly.refl _ _) (occurCp_log 4 _ (by decide))).trans (RegsOnly.flag (f := fJnlDrive) _ rfl)

theorem exec_driveFail (e : Fin 16) (s : State) : exec (.driveFail e) s = .next
    (if isSet s (fNsValid e.val) && getF s (fNsState e.val) ≠ 1 then
      jnlFull (jnlHealth (jJournal 3 [BitVec.ofNat 8 e.val] (failed e.val s))) else s) := rfl

theorem driveFail_completes {s : State} {e : Fin 16} (hValid : isSet s (fNsValid e.val) = true)
    (hState : getF s (fNsState e.val) ≠ 1) : Completes (.driveFail e) s (fun u =>
      getF u (fNsState e.val) = 1 ∧ getF u fJnlDrive = 1 ∧ getF u fJnlDegraded = 1) := by
  have hKept := (failed_log e.val s).trans (jJournal_log 3 [BitVec.ofNat 8 e.val] _)
  have hFailed : getF (jJournal 3 [BitVec.ofNat 8 e.val] (failed e.val s)) (fNsState e.val) = 1 := by
    rw [hKept.getF (fNsState e.val) (logKeys_nsCfg e.isLt 9 8), getF_setF_self _ _ _ rfl]
    rfl
  have hStill : isSet (jJournal 3 [BitVec.ofNat 8 e.val] (failed e.val s)) (fNsValid e.val) = true := by
    rw [hKept.isSet (fNsValid e.val) (logKeys_nsCfg e.isLt 0 0), isSet_setF_apart _ _ (fNsState_apart_valid e.val), hValid]
  refine ⟨_, (exec_driveFail e s).trans (next_of_true (by simp [hValid, hState]) ..), ?_, ?_, ?_⟩
  · exact ((jnlSummary_log _).getF _ (logKeys_nsCfg e.isLt 9 8)).trans hFailed
  · have hDrive :=
      (JnlKept.jnl 0x12 ([BitVec.ofNat 8 3] ++ [BitVec.ofNat 8 e.val]) (failed e.val s)).flags fJnlDrive (by simp [jnlFlags])
    rw [jnlFull, jnlHealth, getF_setF_apart _ _ rfl, getF_setF_apart _ _ rfl, jJournal, hDrive, failed, getF_flag,
      getF_setF_self _ _ _ rfl]
    rfl
  · rw [jnlFull, getF_setF_apart _ _ rfl]
    exact jnlHealth_degraded e.isLt hStill (by rw [hFailed]; decide)

theorem driveFail_waits {s : State} {e : Fin 16} (h : isSet s (fNsValid e.val) = false ∨ getF s (fNsState e.val) = 1) :
    exec (.driveFail e) s = .next s := by
  rw [exec_driveFail]
  refine next_of_false ?_ ..
  rcases h with h | h
  · rw [h, Bool.false_and]
  · simp [h]

theorem getF_rebuilt (e : Nat) (s : State) (f : Fld) : getF (rebuilt e s) f = getF s f := rfl

theorem reg_newDrive (e k : Nat) (s : State) : reg (newDrive e s) k = reg s k := rfl

theorem getF_newDrive (e : Nat) (s : State) (f : Fld) : getF (newDrive e s) f = getF s f := rfl

theorem rebuildComplete_completes {s : State} {e : Fin 16} (h : getF s (fNsState e.val) = 2) :
    Completes (.rebuildComplete e) s (fun u =>
      getF u (fNsState e.val) = 0 ∧ ∀ k : Fin 16, k ≠ e → getF u (fNsState k.val) = getF s (fNsState k.val)) := by
  refine ⟨_, congrArg Host.Outcome.next (if_pos h), ?_, fun k hk => ?_⟩
  · exact ((getF_nsState_jnlNote e.isLt ..).trans (getF_rebuilt ..)).trans (getF_setF_self (fNsState e.val) 0 s rfl)
  · exact ((getF_nsState_jnlNote k.isLt ..).trans (getF_rebuilt ..)).trans
      (getF_setF_apart 0 s (fNsState_apart (Fin.val_ne_of_ne hk)))

theorem rebuildComplete_waits {s : State} {e : Fin 16} (h : getF s (fNsState e.val) ≠ 2) :
    exec (.rebuildComplete e) s = .next s := congrArg Host.Outcome.next (if_neg h)

theorem exec_jnlEntryWrite (e : Fin 16) (r : Fin 3) (v : Word) (s : State) :
    exec (.jnlEntryWrite .cp e r v) s = .next (jnlEntrySet e.val r.val v s) := rfl

/-- The words of an entry are none that a record changes. -/
theorem logKeys_entryWord (e : Fin 16) (r : Fin 3) : logKeys (0x40000100 + 16 * e.val + 4 * r.val) = false :=
  logKeys_entry (by omega) (by omega)

theorem jnlEntryWrite_replaced {s : State} {e : Fin 16} {r : Fin 3} (v : Word) (hr : r.val = 0)
    (h : getF s (fNsState e.val) = 1) : Completes (.jnlEntryWrite .cp e r v) s (fun u =>
      getF u (fNsState e.val) = 2 ∧ reg u (0x40000100 + 16 * e.val) = v) := by
  have hKey : 0x40000100 + 16 * e.val ≠ (fNsState e.val).key := by
    simp only [fNsState, fNsCfg, fld]
    omega
  refine ⟨_, (exec_jnlEntryWrite e r v s).trans (congrArg _ (if_pos ⟨hr, h⟩)), ?_, ?_⟩
  · exact ((getF_nsState_jnlNote e.isLt ..).trans (getF_newDrive ..)).trans (getF_setF_self (fNsState e.val) 2 _ rfl)
  · rw [hr]
    exact (((jnlNote_log ..).reg (0x40000100 + 16 * e.val) (logKeys_entryWord e 0)).trans (reg_newDrive ..)).trans
      ((reg_setReg_ne _ _ hKey).trans (reg_setReg_self ..))

theorem jnlEntryWrite_enabled {s : State} {e : Fin 16} {r : Fin 3} (v : Word) (h : r.val ≠ 0 ∨ getF s (fNsState e.val) ≠ 1)
    (hEnable : isSet s fJnlEnable = true) : Completes (.jnlEntryWrite .cp e r v) s (fun u =>
      getF u fJnlCfgerr = 1 ∧
      reg u (0x40000100 + 16 * e.val + 4 * r.val) = reg s (0x40000100 + 16 * e.val + 4 * r.val)) := by
  have hSet : jnlEntrySet e.val r.val v s = jnlCfgerr s := (if_neg (not_and_or.mpr h)).trans (if_pos hEnable)
  have hKept : RegsOnly logKeys s (jnlCfgerr s) :=
    ((jnlCfgerr_raised s).mono fun _ => icKeys_log).trans (RegsOnly.flag (f := fJnlCfgerr) _ rfl)
  exact ⟨_, (exec_jnlEntryWrite e r v s).trans (congrArg _ hSet), getF_jnlCfgerr_self s, hKept.reg _ (logKeys_entryWord e r)⟩

theorem jnlEntryWrite_disabled {s : State} {e : Fin 16} {r : Fin 3} (v : Word) (h : r.val ≠ 0 ∨ getF s (fNsState e.val) ≠ 1)
    (hEnable : isSet s fJnlEnable = false) :
    exec (.jnlEntryWrite .cp e r v) s = .next (softWrite (0x40000100 + 16 * e.val + 4 * r.val) v s) :=
  (exec_jnlEntryWrite e r v s).trans (congrArg _ ((if_neg (not_and_or.mpr h)).trans
    (if_neg (by rw [hEnable]; exact Bool.false_ne_true))))

/-! ### The pointers (R195, R202) -/

theorem jnlPlace_archMove (v : Nat) (s : State) : jnlPlace (archMove v s) =
    (s.journal.seq, s.journal.prevDigest, s.journal.wptr, if v < jnlSpace s ∧
      placeDist s s.journal.arch v ≤ placeDist s s.journal.arch s.journal.wptr then v else s.journal.arch) := by
  have hNote := (JnlKept.jnl 0x12 ([BitVec.ofNat 8 6] ++ (le 8 s.journal.arch ++ le 8 v))
    (updJnl (fun j => { j with arch := v }) s)).trans (JnlKept.jnlFull _)
  by_cases hOk : v < jnlSpace s ∧ placeDist s s.journal.arch v ≤ placeDist s s.journal.arch s.journal.wptr
  · rw [if_pos hOk]
    by_cases hSame : v = s.journal.arch
    · rw [archMove, if_neg (by rw [hSame]; simp), hSame]
      rfl
    · rw [archMove, if_pos ⟨hSame, hOk⟩]
      exact hNote.place
  · rw [if_neg hOk, archMove, if_neg (fun h => hOk h.2)]
    rfl

theorem jnlArchWrite_completes (s : State) (v : Word) : Completes (.jnlArchWrite .cp v) s (fun u =>
    u.journal.arch =
      (if s.journal.archLo.toNat + 2 ^ 32 * bitsOf v 15 0 < jnlSpace s ∧
          placeDist s s.journal.arch (s.journal.archLo.toNat + 2 ^ 32 * bitsOf v 15 0) ≤
            placeDist s s.journal.arch s.journal.wptr
        then s.journal.archLo.toNat + 2 ^ 32 * bitsOf v 15 0 else s.journal.arch) ∧
    u.journal.wptr = s.journal.wptr ∧ u.journal.seq = s.journal.seq) := by
  have hPlace := jnlPlace_archMove (s.journal.archLo.toNat + 2 ^ 32 * bitsOf v 15 0) s
  simp only [jnlPlace, Prod.mk.injEq] at hPlace
  obtain ⟨hSeq, -, hWptr, hArch⟩ := hPlace
  exact ⟨_, rfl, hArch, hWptr, hSeq⟩

theorem jnlWptrLoRead_completes (s : State) (r : Requester) : Completes (.jnlWptrLoRead r) s (fun u =>
    Tab.getD u.journal.latchW (reqIx r) 0 = BitVec.ofNat 32 (s.journal.wptr / 2 ^ 32) ∧ u.journal.wptr = s.journal.wptr ∧
    ∀ k, k ≠ reqIx r → Tab.getD u.journal.latchW k 0 = Tab.getD s.journal.latchW k 0) :=
  ⟨_, rfl, Tab.getD_put_self .., rfl, fun _ hk => Tab.getD_put_ne _ _ _ hk⟩

theorem jnlSeqLoRead_completes (s : State) (r : Requester) : Completes (.jnlSeqLoRead r) s (fun u =>
    Tab.getD u.journal.latchS (reqIx r) 0 = BitVec.ofNat 32 (openSeq s / 2 ^ 32) ∧ u.journal.seq = s.journal.seq ∧
    ∀ k, k ≠ reqIx r → Tab.getD u.journal.latchS k 0 = Tab.getD s.journal.latchS k 0) :=
  ⟨_, rfl, Tab.getD_put_self .., rfl, fun _ hk => Tab.getD_put_ne _ _ _ hk⟩

end Sys2Proof.Machine

open Sys2Proof Sys2Proof.Machine

/-- Settles O28: one lemma for each command of the engine; what a record leaves of the engine is `JnlKept`. -/
theorem journalEngine : Obligations.JournalEngine := by
  unfold Obligations.JournalEngine
  refine ⟨⟨fun s i => jnlEnable_completes, fun s i => jnlEnable_enabled i, fun s head => chainHeadFound_completes head,
    fun s head => chainHeadFound_waits head, jnlDisable_completes, fun s e => driveFail_completes, fun s e => driveFail_waits,
    fun s e => ⟨rebuildComplete_completes, rebuildComplete_waits⟩,
    fun s e r v => ⟨jnlEntryWrite_replaced v, jnlEntryWrite_enabled v, jnlEntryWrite_disabled v⟩,
    fun s c i e r v hc => ⟨?_, ?_, ?_⟩⟩,
    jnlArchWrite_completes, fun s c v hc => ?_, jnlWptrLoRead_completes, jnlSeqLoRead_completes⟩
  all_goals exact congrArg Host.Outcome.next (cpOnly_other hc _ _ s)
end

section
open Sys2Proof Sys2Proof.Machine

namespace Sys2Proof.Machine

/-- The control processor runs, with the address of SCRUB_CORR in register 1. -/
def scrubCorrAddressed : State :=
  updHost (fun h => { h with cpRun := true }) (setCtx 256 (setG 1 0x46000028 (initCore 256).ctx) State.reset)

/-- A word of the control processor whose fetch corrects one word of the code store. -/
def correctedFetch : Issue :=
  { core := .cp, cond := 0, agree := true, eccFetch := false, eccData := false, corrected := 1 }

end Sys2Proof.Machine

/-- Refutes O37: the clause on register loads has the value that the register reads before the word issues. The words that
the issue corrects are counted first (R213, R365), so that a load of SCRUB_CORR whose own fetch corrects a word returns the
count with that word, here 1, where the clause has the 0 of the state before. -/
theorem not_loadsStoresCompares : ¬ Obligations.LoadsStoresCompares := by
  unfold Obligations.LoadsStoresCompares
  intro h
  obtain ⟨-, hRegister, -⟩ := h scrubCorrAddressed correctedFetch 2 false 2 1 1 0 _ _ _ rfl rfl rfl
  have hLoad := hRegister (by decide) (by decide) (by decide) (by decide)
  obtain ⟨hValue, -⟩ := hLoad.of_exec rfl
  exact absurd hValue (by decide)
end

section
namespace Sys2Proof.Machine

/-! ### A write of BARREL_CTRL (R206, R207, R209) -/

/-- A one-bit field that a hardware event sets reads 1. -/
theorem getF_flag_self {f : Fld} (hf : f.ok = true) (hb : f.hi = f.lo) (s : State) : getF (flag f s) f = 1 := by
  rw [getF_flag, getF_setF_self _ _ _ hf, hb, Nat.add_sub_cancel_left]
  rfl

theorem clus_flag (f : Fld) (s : State) (m : Nat) : clus (flag f s) m = clus s m := by rw [clus, flag_clusters, clus]

/-- Every register but BARREL_CTRL of cluster n holds what it held, and so do the cores, the locks and the time. -/
structure BarrelOnly (n : Nat) (s u : State) : Prop where
  regs : RegsOnly (fun k => decide (k = winK n 0x1C)) s u
  cores : u.cores = s.cores
  time : u.time = s.time

namespace BarrelOnly

variable {n : Nat}

theorem refl (s : State) : BarrelOnly n s s := ⟨RegsOnly.refl _ s, rfl, rfl⟩

theorem trans {s t u : State} (h : BarrelOnly n s t) (g : BarrelOnly n t u) : BarrelOnly n s u :=
  ⟨h.regs.trans g.regs, g.cores.trans h.cores, g.time.trans h.time⟩

theorem setF {f : Fld} (v : Nat) (s : State) (hf : f.key = winK n 0x1C) : BarrelOnly n s (Machine.setF f v s) :=
  ⟨RegsOnly.setF v s (decide_eq_true hf), rfl, rfl⟩

theorem flag {f : Fld} (s : State) (hf : f.key = winK n 0x1C) : BarrelOnly n s (Machine.flag f s) :=
  ⟨RegsOnly.flag s (decide_eq_true hf), rfl, rfl⟩

theorem updClus (m : Nat) (f : ClusterSt → ClusterSt) (s : State) : BarrelOnly n s (Machine.updClus m f s) :=
  ⟨RegsOnly.of_regs rfl, rfl, rfl⟩

theorem ite {p : Prop} [Decidable p] {s t u : State} (ht : BarrelOnly n s t) (hu : BarrelOnly n s u) :
    BarrelOnly n s (if p then t else u) := by
  split
  · exact ht
  · exact hu

theorem clearFlag {f : Fld} (s : State) (hf : f.key = winK n 0x1C) : BarrelOnly n s (Machine.clearFlag f s) :=
  (setF 0 s hf).ite (refl s)

theorem greedySet (on : Bool) (s : State) : BarrelOnly n s (Machine.greedySet n on s) := by
  unfold Machine.greedySet
  exact (setF _ s rfl).trans (updClus ..)

variable {s u : State} (h : BarrelOnly n s u)
include h

theorem now : Machine.now u = Machine.now s := congrArg TimeSt.turn h.time

theorem frameNo : Machine.frameNo u = Machine.frameNo s := congrArg (fun t => t.cur.frame) h.time

theorem reg {off : Nat} (ho : off ≠ 0x1C) : Machine.reg u (winK n off) = Machine.reg s (winK n off) :=
  h.regs.reg _ (decide_eq_false (by unfold winK; omega))

theorem thrState (t : Nat) : Machine.thrState u n t = Machine.thrState s n t := by
  have hField : getF u (fThrState n t) = getF s (fThrState n t) := by
    show bitsOf (Machine.reg u (winK n _)) 10 8 = bitsOf (Machine.reg s (winK n _)) 10 8
    rw [h.reg (by omega)]
  have hCore : core u (16 * n + t) = core s (16 * n + t) := by rw [core, h.cores, core]
  rw [Machine.thrState, hField, h.now, hCore, Machine.thrState]

theorem othersStopped (t : Nat) : Machine.othersStopped u n t = Machine.othersStopped s n t := by
  simp only [Machine.othersStopped, h.thrState]

theorem nextRound : Machine.nextRound u = Machine.nextRound s := by rw [Machine.nextRound, h.now, Machine.nextRound]

end BarrelOnly

/-- GTHREAD takes its value, unless greedy mode is in effect or the value is no thread. -/
def gthreadTaken (n : Nat) (v : Word) (s : State) : State :=
  if greedyAct s n || decide (11 < bitsOf v 15 12) then s else setF (fGthread n) (bitsOf v 15 12) s

/-- The W1C bits that the write clears. -/
def rejectsCleared (n : Nat) (v : Word) (s : State) : State :=
  let s := if v.getLsbD 2 then clearFlag (fGrej n) s else s
  if v.getLsbD 1 then clearFlag (fSlotrej n) s else s

/-- Greedy mode is asked for, while the other threads are stopped or not. -/
def greedyAsked (n : Nat) (s : State) : State :=
  if othersStopped s n (getF s (fGthread n)) then
    (if isSet s (fGreedy n) then s else greedySet n true (setF (fGreedy n) 1 s))
  else flag (fGrej n) (if isSet s (fGreedy n) then greedySet n false (setF (fGreedy n) 0 s) else s)

/-- Greedy mode is given up. -/
def greedyLeft (n : Nat) (s : State) : State := if isSet s (fGreedy n) then greedySet n false (setF (fGreedy n) 0 s) else s

/-- An apply is requested for the next tick. -/
def applyAsked (n : Nat) (v : Word) (s : State) : State :=
  if v.getLsbD 0 then updClus n (fun c => { c with applyAt := some (frameNo s + 1) }) s else s

/-- The write in its steps. -/
theorem barrelCtrlWrite_eq (n : Nat) (v : Word) (s : State) : barrelCtrlWrite n v s =
    applyAsked n v (if v.getLsbD 8 then greedyAsked n (rejectsCleared n v (gthreadTaken n v s))
      else greedyLeft n (rejectsCleared n v (gthreadTaken n v s))) := rfl

theorem gthreadTaken_only (n : Nat) (v : Word) (s : State) : BarrelOnly n s (gthreadTaken n v s) :=
  (BarrelOnly.refl s).ite (.setF _ s rfl)

theorem rejectsCleared_only (n : Nat) (v : Word) (s : State) : BarrelOnly n s (rejectsCleared n v s) := by
  have hGrej : BarrelOnly n s (if v.getLsbD 2 then clearFlag (fGrej n) s else s) := (BarrelOnly.clearFlag s rfl).ite (.refl s)
  exact (hGrej.trans (.clearFlag _ rfl)).ite hGrej

theorem greedyLeft_only (n : Nat) (s : State) : BarrelOnly n s (greedyLeft n s) :=
  ((BarrelOnly.setF 0 s rfl).trans (.greedySet false _)).ite (.refl s)

theorem greedyAsked_only (n : Nat) (s : State) : BarrelOnly n s (greedyAsked n s) :=
  BarrelOnly.ite ((BarrelOnly.refl s).ite ((BarrelOnly.setF 1 s rfl).trans (.greedySet true _)))
    ((greedyLeft_only n s).trans (.flag _ rfl))

theorem applyAsked_only (n : Nat) (v : Word) (s : State) : BarrelOnly n s (applyAsked n v s) :=
  (BarrelOnly.updClus n _ s).ite (.refl s)

theorem barrelCtrlWrite_only (n : Nat) (v : Word) (s : State) : BarrelOnly n s (barrelCtrlWrite n v s) := by
  rw [barrelCtrlWrite_eq]
  have hFirst := (gthreadTaken_only n v s).trans (rejectsCleared_only n v _)
  exact (BarrelOnly.ite (hFirst.trans (greedyAsked_only n _)) (hFirst.trans (greedyLeft_only n _))).trans (applyAsked_only n v _)

/-! ### What the steps make of the fields and of the cluster -/

theorem getF_gthreadTaken (n : Nat) (v : Word) (s : State) : getF (gthreadTaken n v s) (fGthread n) =
    if greedyAct s n = false ∧ bitsOf v 15 12 ≤ 11 then bitsOf v 15 12 else getF s (fGthread n) := by
  unfold gthreadTaken
  cases greedyAct s n with
  | true => simp
  | false =>
    by_cases hv : bitsOf v 15 12 ≤ 11
    · rw [if_neg (by simpa using hv), if_pos ⟨rfl, hv⟩]
      exact getF_setF_bitsOf _ v 15 12 s rfl (Nat.le_refl 4)
    · rw [if_pos (by simpa using hv), if_neg (fun h => hv h.2)]

theorem getF_greedy_gthreadTaken (n : Nat) (v : Word) (s : State) :
    getF (gthreadTaken n v s) (fGreedy n) = getF s (fGreedy n) := by
  unfold gthreadTaken
  split
  · rfl
  · exact getF_setF_apart (f := fGthread n) (g := fGreedy n) _ s (by simp [Fld.apart, Fld.ok, fGthread, fGreedy, fld, bit])

theorem clus_gthreadTaken (n : Nat) (v : Word) (s : State) (m : Nat) : clus (gthreadTaken n v s) m = clus s m := by
  unfold gthreadTaken
  split
  · rfl
  · exact clus_setF ..

theorem clusters_clearFlag (f : Fld) (s : State) : (clearFlag f s).clusters = s.clusters :=
  clusters_of (clearFlag_view clustersV (clustersV_free (by decide)) f s)

theorem getF_clearFlag_apart {f g : Fld} (s : State) (h : f.apart g = true) : getF (clearFlag f s) g = getF s g := by
  unfold clearFlag
  split
  · exact getF_setF_apart 0 s h
  · rfl

theorem clus_rejectsCleared (n : Nat) (v : Word) (s : State) (m : Nat) : clus (rejectsCleared n v s) m = clus s m := by
  have hClear : ∀ (f : Fld) (b : Bool) (u : State), clus (if b then clearFlag f u else u) m = clus u m := fun f b u => by
    cases b
    · rfl
    · exact congrArg (Tab.getD · m initCluster) (clusters_clearFlag f u)
  exact (hClear ..).trans (hClear ..)

theorem getF_rejectsCleared {n : Nat} {g : Fld} (v : Word) (s : State) (hGrej : (fGrej n).apart g = true)
    (hSlotrej : (fSlotrej n).apart g = true) : getF (rejectsCleared n v s) g = getF s g := by
  have hClear : ∀ {f : Fld} (b : Bool) (u : State), f.apart g = true → getF (if b then clearFlag f u else u) g = getF u g :=
    fun b u h => by
      cases b
      · rfl
      · exact getF_clearFlag_apart u h
  exact (hClear _ _ hSlotrej).trans (hClear _ _ hGrej)

theorem clus_greedySet (n : Nat) (on : Bool) (v : Nat) (s : State) :
    (clus (greedySet n on (setF (fGreedy n) v s)) n).greedyAt = some (nextRound s, on) := by
  unfold greedySet
  rw [clus_updClus_self, nextRound, now_setF, nextRound]

/-- The fields of the write that greedy mode's own state leaves. -/
theorem getF_greedySet {n : Nat} {g : Fld} (on : Bool) (v : Nat) (s : State) (h : (fGreedyAct n).apart g = true) :
    getF (greedySet n on (setF (fGreedy n) v s)) g = getF (setF (fGreedy n) v s) g :=
  (getF_updClus ..).trans (getF_setF_apart _ _ h)

theorem greedy_greedySet (n : Nat) (on : Bool) (v : Nat) (s : State) (hv : v < 2) :
    getF (greedySet n on (setF (fGreedy n) v s)) (fGreedy n) = v := by
  rw [getF_greedySet on v s (by simp [Fld.apart, Fld.ok, fGreedyAct, fGreedy, bit]), getF_setF_self _ _ _ rfl]
  exact Nat.mod_eq_of_lt (by simpa [fGreedy, bit] using hv)

theorem gthread_greedySet (n : Nat) (on : Bool) (v : Nat) (s : State) :
    getF (greedySet n on (setF (fGreedy n) v s)) (fGthread n) = getF s (fGthread n) := by
  rw [getF_greedySet on v s (by simp [Fld.apart, Fld.ok, fGreedyAct, fGthread, bit, fld]),
    getF_setF_apart _ _ (by simp [Fld.apart, Fld.ok, fGreedy, fGthread, bit, fld])]

theorem greedyLeft_fields (n : Nat) (s : State) :
    getF (greedyLeft n s) (fGreedy n) = 0 ∧ getF (greedyLeft n s) (fGthread n) = getF s (fGthread n) ∧
    (clus (greedyLeft n s) n).greedyAt =
      (if isSet s (fGreedy n) then some (nextRound s, false) else (clus s n).greedyAt) := by
  unfold greedyLeft
  cases hGreedy : isSet s (fGreedy n) with
  | true => exact ⟨greedy_greedySet n false 0 s (by decide), gthread_greedySet .., clus_greedySet ..⟩
  | false => exact ⟨getF_zero_of_not hGreedy, rfl, rfl⟩

theorem greedyAsked_stopped {n : Nat} {s : State} (h : othersStopped s n (getF s (fGthread n)) = true) :
    getF (greedyAsked n s) (fGreedy n) = 1 ∧ getF (greedyAsked n s) (fGthread n) = getF s (fGthread n) ∧
    (clus (greedyAsked n s) n).greedyAt =
      (if isSet s (fGreedy n) then (clus s n).greedyAt else some (nextRound s, true)) := by
  unfold greedyAsked
  rw [if_pos h]
  cases hGreedy : isSet s (fGreedy n) with
  | true => exact ⟨getF_bit_of_isSet hGreedy rfl, rfl, rfl⟩
  | false => exact ⟨greedy_greedySet n true 1 s (by decide), gthread_greedySet .., clus_greedySet ..⟩

theorem greedyAsked_running {n : Nat} {s : State} (h : othersStopped s n (getF s (fGthread n)) = false) :
    getF (greedyAsked n s) (fGreedy n) = 0 ∧ getF (greedyAsked n s) (fGrej n) = 1 ∧
    getF (greedyAsked n s) (fGthread n) = getF s (fGthread n) ∧
    (clus (greedyAsked n s) n).greedyAt =
      (if isSet s (fGreedy n) then some (nextRound s, false) else (clus s n).greedyAt) := by
  have hStep : greedyAsked n s = flag (fGrej n) (greedyLeft n s) := if_neg (by rw [h]; exact Bool.false_ne_true)
  obtain ⟨hGreedy, hGthread, hAt⟩ := greedyLeft_fields n s
  rw [hStep]
  refine ⟨?_, getF_flag_self rfl rfl _, ?_, by rw [clus_flag, hAt]⟩
  · rw [getF_flag, getF_setF_apart _ _ (by simp [Fld.apart, Fld.ok, fGrej, fGreedy, bit]), hGreedy]
  · rw [getF_flag, getF_setF_apart _ _ (by simp [Fld.apart, Fld.ok, fGrej, fGthread, bit, fld]), hGthread]

/-! ### The commands of BARREL_CTRL -/

theorem getLsbD_withBits_bit (w : Word) {b : Nat} (hb : b < 32) (v : Nat) :
    (withBits w b b v).getLsbD b = decide (v % 2 = 1) := by
  have hBit := bitsOf_withBits_self w v (Nat.le_refl b) hb
  rw [bitsOf_bit, Nat.add_sub_cancel_left] at hBit
  cases h : (withBits w b b v).getLsbD b <;> simp [h] at hBit <;> simp [← hBit]

theorem t0OrCp_allowed {n : Nat} {c : CoreId} (h : isT0OrCp n c = true) (a : Nat) (k : State → State) (s : State) :
    t0OrCp n c a k s = k s := if_pos h

theorem t0OrCp_refused {n : Nat} {c : CoreId} (h : isT0OrCp n c = false) (a : Nat) (k : State → State) (s : State) :
    t0OrCp n c a k s = busErr c a s := if_neg (by rw [h]; exact Bool.false_ne_true)

/-- A command of T0 of the cluster or of the control processor, while no handover holds the access. -/
theorem castWrite_t0OrCp {c : CoreId} {n : Nat} {s : State} (hFree : castHolds c n s = none) (hMay : isT0OrCp n c = true)
    (a : Nat) (v : Word) (k : State → State) : castWrite c n a v (fun s => done (t0OrCp n c a k s)) s = .next (k s) := by
  rw [castWrite_free hFree, t0OrCp_allowed hMay]
  rfl

/-- Any other core's is a bus error. -/
theorem castWrite_notT0OrCp {c : CoreId} {n : Nat} {s : State} (hFree : castHolds c n s = none) (hMay : isT0OrCp n c = false)
    (a : Nat) (v : Word) (k : State → State) :
    castWrite c n a v (fun s => done (t0OrCp n c a k s)) s = .next (busErr c a s) := by
  rw [castWrite_free hFree, t0OrCp_refused hMay]
  rfl

theorem slotApplyRequest_completes {s : State} {c : CoreId} {n : ClusterId} (v : Word) (hFree : castHolds c n.val s = none)
    (hMay : isT0OrCp n.val c = true) : Completes (.slotApplyRequest c n v) s (fun u =>
      (clus u n.val).applyAt = some (frameNo s + 1) ∧
      ∀ k, k < 6 → reg u (winK n.val (4 * k)) = reg s (winK n.val (4 * k))) := by
  refine ⟨_, castWrite_t0OrCp hFree hMay .., ?_, fun k hk => (barrelCtrlWrite_only ..).reg (by omega)⟩
  have hApply : (withBits v 0 0 1).getLsbD 0 = true := getLsbD_withBits_bit v (by decide) 1
  have hFrame : ∀ u, applyAsked n.val (withBits v 0 0 1) u = updClus n.val (fun c => { c with applyAt := some (frameNo u + 1) }) u :=
    fun u => if_pos hApply
  have hOnly := barrelCtrlWrite_only n.val (withBits v 0 0 1) s
  rw [barrelCtrlWrite_eq, hFrame] at hOnly ⊢
  rw [clus_updClus_self]
  exact congrArg (fun f => some (f + 1)) hOnly.frameNo

/-- What the write leaves of a request to apply keeps GTHREAD, GREEDY, GREJ and greedy mode. -/
theorem applyAsked_keeps (n : Nat) (v : Word) (s : State) : (∀ f, getF (applyAsked n v s) f = getF s f) ∧
    (clus (applyAsked n v s) n).greedyAt = (clus s n).greedyAt := by
  unfold applyAsked
  split
  · exact ⟨fun f => getF_updClus .., by rw [clus_updClus_self]⟩
  · exact ⟨fun _ => rfl, rfl⟩

/-- GTHREAD and the W1C bits are written first: what the later steps find. -/
theorem ctrlFirst_fields (n : Nat) (v : Word) (s : State) :
    getF (rejectsCleared n v (gthreadTaken n v s)) (fGthread n) =
      (if greedyAct s n = false ∧ bitsOf v 15 12 ≤ 11 then bitsOf v 15 12 else getF s (fGthread n)) ∧
    isSet (rejectsCleared n v (gthreadTaken n v s)) (fGreedy n) = isSet s (fGreedy n) ∧
    clus (rejectsCleared n v (gthreadTaken n v s)) n = clus s n ∧
    BarrelOnly n s (rejectsCleared n v (gthreadTaken n v s)) := by
  refine ⟨?_, ?_, (clus_rejectsCleared ..).trans (clus_gthreadTaken ..),
    (gthreadTaken_only n v s).trans (rejectsCleared_only n v _)⟩
  · rw [getF_rejectsCleared v _ (by simp [Fld.apart, Fld.ok, fGrej, fGthread, bit, fld])
      (by simp [Fld.apart, Fld.ok, fSlotrej, fGthread, bit, fld])]
    exact getF_gthreadTaken n v s
  · rw [isSet, getF_rejectsCleared v _ (by simp [Fld.apart, Fld.ok, fGrej, fGreedy, bit])
      (by simp [Fld.apart, Fld.ok, fSlotrej, fGreedy, bit]), getF_greedy_gthreadTaken, isSet]

theorem greedyOn_completes {s : State} {c : CoreId} {n : ClusterId} (v : Word) (hFree : castHolds c n.val s = none)
    (hMay : isT0OrCp n.val c = true) : Completes (.greedyOn c n v) s (fun u =>
      getF u (fGthread n.val) =
        (if greedyAct s n.val = false ∧ bitsOf v 15 12 ≤ 11 then bitsOf v 15 12 else getF s (fGthread n.val)) ∧
      (othersStopped s n.val (getF u (fGthread n.val)) = true →
        getF u (fGreedy n.val) = 1 ∧
        (clus u n.val).greedyAt = (if isSet s (fGreedy n.val) then (clus s n.val).greedyAt else some (nextRound s, true))) ∧
      (othersStopped s n.val (getF u (fGthread n.val)) = false →
        getF u (fGreedy n.val) = 0 ∧ getF u (fGrej n.val) = 1 ∧
        (clus u n.val).greedyAt = (if isSet s (fGreedy n.val) then some (nextRound s, false) else (clus s n.val).greedyAt))) := by
  refine ⟨_, castWrite_t0OrCp hFree hMay .., ?_⟩
  have hGreedy : (withBits v 8 8 1).getLsbD 8 = true := getLsbD_withBits_bit v (by decide) 1
  have hThread : bitsOf (withBits v 8 8 1) 15 12 = bitsOf v 15 12 :=
    bitsOf_withBits_ne v 1 (by decide) (by decide) (.inl (by decide))
  obtain ⟨hGthread, hSet, hClus, hOnly⟩ := ctrlFirst_fields n.val (withBits v 8 8 1) s
  rw [barrelCtrlWrite_eq, if_pos hGreedy]
  generalize rejectsCleared n.val (withBits v 8 8 1) (gthreadTaken n.val (withBits v 8 8 1) s) = w at *
  obtain ⟨hField, hAt⟩ := applyAsked_keeps n.val (withBits v 8 8 1) (greedyAsked n.val w)
  rw [hThread] at hGthread
  simp only [hField, hAt, ← hOnly.othersStopped, ← hOnly.nextRound, ← hSet, ← hClus, ← hGthread]
  cases hStopped : othersStopped w n.val (getF w (fGthread n.val)) with
  | true =>
    obtain ⟨hOn, hSame, hGreedyAt⟩ := greedyAsked_stopped hStopped
    rw [hSame, hStopped]
    exact ⟨rfl, fun _ => ⟨hOn, hGreedyAt⟩, nofun⟩
  | false =>
    obtain ⟨hOff, hGrej, hSame, hGreedyAt⟩ := greedyAsked_running hStopped
    rw [hSame, hStopped]
    exact ⟨rfl, nofun, fun _ => ⟨hOff, hGrej, hGreedyAt⟩⟩

theorem greedyOff_completes {s : State} {c : CoreId} {n : ClusterId} (v : Word) (hFree : castHolds c n.val s = none)
    (hMay : isT0OrCp n.val c = true) : Completes (.greedyOff c n v) s (fun u =>
      getF u (fGreedy n.val) = 0 ∧
      (clus u n.val).greedyAt = (if isSet s (fGreedy n.val) then some (nextRound s, false) else (clus s n.val).greedyAt)) := by
  refine ⟨_, castWrite_t0OrCp hFree hMay .., ?_⟩
  have hGreedy : (withBits v 8 8 0).getLsbD 8 = false := getLsbD_withBits_bit v (by decide) 0
  obtain ⟨-, hSet, hClus, hOnly⟩ := ctrlFirst_fields n.val (withBits v 8 8 0) s
  have hSteps : barrelCtrlWrite n.val (withBits v 8 8 0) s = applyAsked n.val (withBits v 8 8 0)
      (greedyLeft n.val (rejectsCleared n.val (withBits v 8 8 0) (gthreadTaken n.val (withBits v 8 8 0) s))) := by
    rw [barrelCtrlWrite_eq, hGreedy]
    rfl
  rw [hSteps]
  generalize rejectsCleared n.val (withBits v 8 8 0) (gthreadTaken n.val (withBits v 8 8 0) s) = w at *
  obtain ⟨hField, hAt⟩ := applyAsked_keeps n.val (withBits v 8 8 0) (greedyLeft n.val w)
  obtain ⟨hOff, -, hGreedyAt⟩ := greedyLeft_fields n.val w
  rw [hSet, hClus, hOnly.nextRound] at hGreedyAt
  exact ⟨(hField _).trans hOff, hAt.trans hGreedyAt⟩

/-! ### SLOT_TABLE_APPLY (R206) -/

/-- The NEXT table becomes the active one. -/
def slotsTaken (n : Nat) (s : State) : State :=
  each (List.range 3) (fun i s => setReg (winK n (4 * i)) (reg s (winK n (0x10 + 4 * i))) s) s

theorem reg_slotsTaken (n : Nat) (s : State) {i : Nat} (hi : i < 3) :
    reg (slotsTaken n s) (winK n (4 * i)) = reg s (winK n (0x10 + 4 * i)) := by
  have hRead : ∀ (j k : Nat) (w : Word) (u : State), j < 12 → 0x10 ≤ k → reg (setReg (winK n j) w u) (winK n k) = reg u (winK n k) :=
    fun j k w u hj hk => reg_setReg_ne w u (by unfold winK; omega)
  have hApart : ∀ (j k : Nat) (w : Word) (u : State), j ≠ k → reg (setReg (winK n j) w u) (winK n k) = reg u (winK n k) :=
    fun j k w u h => reg_setReg_ne w u (by unfold winK; omega)
  show reg (setReg (winK n 8) _ (setReg (winK n 4) _ (setReg (winK n 0) _ s))) _ = _
  match i, hi with
  | 0, _ => rw [hApart 8 0 _ _ (by decide), hApart 4 0 _ _ (by decide), reg_setReg_self]
  | 1, _ => rw [hApart 8 4 _ _ (by decide), reg_setReg_self, hRead 0 0x14 _ _ (by decide) (by decide)]
  | 2, _ => rw [reg_setReg_self, hRead 4 0x18 _ _ (by decide) (by decide), hRead 0 0x18 _ _ (by decide) (by decide)]

theorem clus_slotsTaken (n : Nat) (s : State) (m : Nat) : clus (slotsTaken n s) m = clus s m :=
  each_view (⟨fun u => clus u m⟩ : View ClusterSt) _ _ (fun _ _ => clus_setReg ..) s

theorem slotTableApply_completes {s : State} {n : ClusterId} {k : Nat} (hAt : (clus s n.val).applyAt = some k)
    (hTick : atTick s = true) (hk : k ≤ frameNo s) : Completes (.slotTableApply n) s (fun u =>
      (clus u n.val).applyAt = none ∧
      (nextHasT0 s n.val = true → ∀ i, i < 3 → reg u (winK n.val (4 * i)) = reg s (winK n.val (0x10 + 4 * i))) ∧
      (nextHasT0 s n.val = false → getF u (fSlotrej n.val) = 1 ∧
        ∀ i, i < 3 → reg u (winK n.val (4 * i)) = reg s (winK n.val (4 * i)))) := by
  have hExec : exec (.slotTableApply n) s = .next (if nextHasT0 s n.val
      then slotsTaken n.val (updClus n.val (fun c => { c with applyAt := none }) s)
      else flag (fSlotrej n.val) (updClus n.val (fun c => { c with applyAt := none }) s)) := by
    show execSlotTableApply n s = _
    simp only [execSlotTableApply, hAt, hTick, hk, decide_true, Bool.and_self, if_true]
    rw [show nextHasT0 (updClus n.val (fun c => { c with applyAt := none }) s) n.val = nextHasT0 s n.val from rfl]
    split <;> rfl
  cases hT0 : nextHasT0 s n.val with
  | true =>
    rw [hT0, if_pos rfl] at hExec
    refine ⟨_, hExec, ?_, fun _ i hi => reg_slotsTaken n.val _ hi, nofun⟩
    rw [clus_slotsTaken, clus_updClus_self]
  | false =>
    rw [hT0, if_neg Bool.false_ne_true] at hExec
    refine ⟨_, hExec, ?_, nofun, fun _ => ⟨getF_flag_self rfl rfl _, fun i hi => ?_⟩⟩
    · rw [clus_flag, clus_updClus_self]
    · exact (BarrelOnly.flag (n := n.val) (f := fSlotrej n.val) _ rfl).reg (by omega)

theorem slotTableApply_waits {s : State} {n : ClusterId} (h : (clus s n.val).applyAt = none ∨ atTick s = false ∨
    (∃ k, (clus s n.val).applyAt = some k ∧ frameNo s < k)) : exec (.slotTableApply n) s = .next s := by
  show execSlotTableApply n s = _
  cases hAt : (clus s n.val).applyAt with
  | none => simp [execSlotTableApply, hAt, done]
  | some k =>
    have hNot : (atTick s && decide (k ≤ frameNo s)) = false := by
      rcases h with h | h | ⟨j, h, hj⟩
      · cases hAt.symm.trans h
      · rw [h, Bool.false_and]
      · cases hAt.symm.trans h
        rw [decide_eq_false (by omega), Bool.and_false]
    simp [execSlotTableApply, hAt, hNot, done]

end Sys2Proof.Machine
end

section
namespace Sys2Proof.Machine

/-! ### The locks (R214–R216, R326) -/

/-- An owned lock is freed in this turn; a lock that is free already, or that nobody has taken, stays. -/
theorem lockFree_released (k : Nat) (s : State) : Released s (lockFree k s) k (now s) := by
  have hFind : (lockFree k s).locks = (match Tab.find s.locks k with
      | some l => if l.freed.isNone then Tab.put s.locks k { l with freed := some (now s) } else s.locks
      | none => s.locks) := rfl
  rw [Released, hFind]
  match hLock : Tab.find s.locks k with
  | none => exact ⟨hLock, fun _ _ => rfl⟩
  | some ⟨o, none⟩ => exact ⟨Tab.find_put_self .., fun _ hj => Tab.find_put_ne _ _ hj⟩
  | some ⟨o, some t⟩ => exact ⟨hLock, fun _ _ => rfl⟩

/-- A free lock takes its reader as owner. -/
theorem locks_lockRead_free {s : State} {k : Nat} (h : lockOwner s k = none) (c : CoreId) (o : Nat) :
    (lockRead c k o s).locks = Tab.put s.locks k { owner := o, freed := none } := by
  unfold lockRead
  rw [h]
  cases c <;> rfl

/-- A lock that is taken stays its owner's. -/
theorem lockRead_taken {s : State} {k : Nat} (h : (lockOwner s k).isSome = true) (c : CoreId) (o : Nat) :
    lockRead c k o s = s := by
  obtain ⟨p, hp⟩ := Option.isSome_iff_exists.mp h
  rw [lockRead, hp]

theorem lockRead_takes {s : State} {k : Nat} (h : lockOwner s k = none) (c : CoreId) (o : Nat) :
    Tab.find (lockRead c k o s).locks k = some { owner := o, freed := none } ∧
    ∀ j, j ≠ k → Tab.find (lockRead c k o s).locks j = Tab.find s.locks j := by
  rw [locks_lockRead_free h]
  exact ⟨Tab.find_put_self .., fun _ hj => Tab.find_put_ne _ _ hj⟩

theorem lockWrite_owner {s : State} {k o : Nat} (h : ownsLock s k o = true) (c : CoreId) (a : Nat) :
    lockWrite c a k o s = lockFree k s := if_pos h

theorem lockWrite_other {s : State} {k o : Nat} (h : ownsLock s k o = false) (c : CoreId) (a : Nat) :
    lockWrite c a k o s = busErr c a s := if_neg (by rw [h]; exact Bool.false_ne_true)

section
variable {s : State} {c : CoreId} {n : ClusterId} (l : LockId) (hFree : castHolds c n.val s = none)
include hFree

theorem exec_lockAcquire : exec (.lockAcquire c n l) s = .next (if inWindow n.val c then
    (if lockYields s c n l then s else lockRead c (lockK n.val l.val) (ownerCode s c) s)
    else busErr c (winK n.val (0x400 + 4 * l.val)) s) := by
  show execLockAcquire c n l s = _
  rw [execLockAcquire, castRead_free hFree]
  rfl

theorem exec_lockRelease : exec (.lockRelease c n l) s = .next (if inWindow n.val c then
    lockWrite c (winK n.val (0x400 + 4 * l.val)) (lockK n.val l.val) (ownerCode s c) s
    else busErr c (winK n.val (0x400 + 4 * l.val)) s) := by
  show execLockRelease c n l s = _
  rw [execLockRelease, castWrite_free hFree]
  rfl

theorem lockAcquire_completes (hIn : inWindow n.val c = true) (hFirst : lockYields s c n l = false)
    (hOwner : lockOwner s (lockK n.val l.val) = none) : Completes (.lockAcquire c n l) s (fun u =>
      Tab.find u.locks (lockK n.val l.val) = some { owner := ownerCode s c, freed := none } ∧
      ∀ k, k ≠ lockK n.val l.val → Tab.find u.locks k = Tab.find s.locks k) := by
  refine ⟨_, (exec_lockAcquire l hFree).trans (next_of_true hIn ..), ?_⟩
  rw [hFirst]
  exact lockRead_takes hOwner c _

theorem lockAcquire_fails (hIn : inWindow n.val c = true)
    (h : lockYields s c n l = true ∨ (lockOwner s (lockK n.val l.val)).isSome = true) :
    exec (.lockAcquire c n l) s = .next s := by
  rw [exec_lockAcquire l hFree, next_of_true hIn]
  rcases h with h | h
  · rw [h, if_pos rfl]
  · rw [lockRead_taken h, ite_self]

theorem lockRelease_completes (hIn : inWindow n.val c = true)
    (hOwns : ownsLock s (lockK n.val l.val) (ownerCode s c) = true) :
    Completes (.lockRelease c n l) s (fun u => Released s u (lockK n.val l.val) (now s)) := by
  refine ⟨_, (exec_lockRelease l hFree).trans (next_of_true hIn ..), ?_⟩
  rw [lockWrite_owner hOwns]
  exact lockFree_released ..

theorem lockRelease_refused (hIn : inWindow n.val c = true)
    (hOwns : ownsLock s (lockK n.val l.val) (ownerCode s c) = false) :
    exec (.lockRelease c n l) s = .next (busErr c (winK n.val (0x400 + 4 * l.val)) s) := by
  rw [exec_lockRelease l hFree, next_of_true hIn, lockWrite_other hOwns]

theorem lock_outside (hOut : inWindow n.val c = false) :
    exec (.lockAcquire c n l) s = .next (busErr c (winK n.val (0x400 + 4 * l.val)) s) ∧
    exec (.lockRelease c n l) s = .next (busErr c (winK n.val (0x400 + 4 * l.val)) s) :=
  ⟨(exec_lockAcquire l hFree).trans (next_of_false hOut ..), (exec_lockRelease l hFree).trans (next_of_false hOut ..)⟩

end

theorem lockForce_frees {v : Word} (h : v.getLsbD 8 = true) (n : Nat) (s : State) :
    Released s (lockForce n v s) (lockK n (bitsOf v 5 0)) (now s) := by
  rw [lockForce, if_pos h]
  exact lockFree_released ..

theorem lockForce_none {v : Word} (h : v.getLsbD 8 = false) (n : Nat) (s : State) : lockForce n v s = s :=
  if_neg (by rw [h]; exact Bool.false_ne_true)

theorem chipForce_frees {v : Word} (h : v.getLsbD 8 = true) (s : State) :
    Released s (chipForce v s) (chipK (bitsOf v 7 0)) (now s) := by
  rw [chipForce, if_pos h]
  exact lockFree_released ..

theorem chipForce_none {v : Word} (h : v.getLsbD 8 = false) (s : State) : chipForce v s = s :=
  if_neg (by rw [h]; exact Bool.false_ne_true)

theorem exec_chipLockAcquire (c : CoreId) (l : Fin 256) (s : State) :
    exec (.chipLockAcquire c l) s = .next (lockRead c (chipK l.val) (chipOwner s c) s) := rfl

theorem exec_chipLockRelease (c : CoreId) (l : Fin 256) (s : State) :
    exec (.chipLockRelease c l) s = .next (lockWrite c (0x41001000 + 4 * l.val) (chipK l.val) (chipOwner s c) s) := rfl

theorem exec_chipLockForce (c : CoreId) (v : Word) (s : State) :
    exec (.chipLockForce c v) s = .next (cpOnly c 0x41001400 (chipForce v) s) := rfl

theorem chipLockRelease_completes {s : State} {c : CoreId} {l : Fin 256} (h : ownsLock s (chipK l.val) (chipOwner s c) = true) :
    Completes (.chipLockRelease c l) s (fun u => Released s u (chipK l.val) (now s)) := by
  refine ⟨_, exec_chipLockRelease c l s, ?_⟩
  rw [lockWrite_owner h]
  exact lockFree_released ..

end Sys2Proof.Machine

open Sys2Proof Sys2Proof.Machine

/-- Settles O29: a write of BARREL_CTRL by its steps, of which each leaves the fields of the others; a lock that is read is
taken or not, and one that is written is freed or the write refused. -/
theorem barrelControl : Obligations.BarrelControl := by
  unfold Obligations.BarrelControl
  refine ⟨⟨fun s c n v => slotApplyRequest_completes v, fun s n k => slotTableApply_completes, fun s n => slotTableApply_waits,
    fun s c n v => greedyOn_completes v, fun s c n v => greedyOff_completes v, fun s c n v hFree hMay => ⟨?_, ?_, ?_⟩⟩,
    fun s c n l hFree => ⟨lockAcquire_completes l hFree, lockAcquire_fails l hFree, lockRelease_completes l hFree,
      lockRelease_refused l hFree, lock_outside l hFree⟩,
    fun s c n v hFree => ⟨fun hMay hBit => ⟨_, castWrite_t0OrCp hFree hMay .., lockForce_frees hBit ..⟩,
      fun hMay hBit => (castWrite_t0OrCp hFree hMay ..).trans (congrArg Host.Outcome.next (lockForce_none hBit ..)),
      fun hMay => castWrite_notT0OrCp hFree hMay ..⟩,
    fun s c l => ⟨fun hOwner => ⟨_, exec_chipLockAcquire c l s, lockRead_takes hOwner ..⟩,
      fun hOwner => (exec_chipLockAcquire c l s).trans (congrArg Host.Outcome.next (lockRead_taken hOwner ..)),
      chipLockRelease_completes,
      fun hOwns => (exec_chipLockRelease c l s).trans (congrArg Host.Outcome.next (lockWrite_other hOwns ..))⟩,
    fun s c v => ⟨fun hBit => ⟨_, exec_chipLockForce .cp v s, chipForce_frees hBit s⟩,
      fun hBit => (exec_chipLockForce .cp v s).trans (congrArg Host.Outcome.next (chipForce_none hBit s)),
      fun hc => (exec_chipLockForce c v s).trans (congrArg Host.Outcome.next (cpOnly_other hc ..))⟩⟩
  all_goals exact castWrite_notT0OrCp hFree hMay ..
end

section
namespace Sys2Proof.Machine

/-! ### The state of a thread (R210, R211) -/

/-- A thread's state is what its register says, unless that is RUNNING and a STOP has taken effect. -/
theorem thrState_of_field {s : State} {n t v : Nat} (hField : getF s (fThrState n t) = v)
    (hStop : v = 1 → (core s (16 * n + t)).stopAt.elim false (fun u => decide (u ≤ now s)) = false) :
    thrState s n t = v := by
  unfold thrState
  rw [hField]
  exact if_neg (fun h => Bool.false_ne_true ((hStop h.1).symm.trans h.2))

/-- A thread that runs has no STOP that has taken effect. -/
theorem field_of_running {s : State} {n t : Nat} (h : thrState s n t = 1) : getF s (fThrState n t) = 1 ∧
    (core s (16 * n + t)).stopAt.elim false (fun u => decide (u ≤ now s)) = false := by
  unfold thrState at h
  split at h
  · cases h
  · next hNot =>
    refine ⟨h, ?_⟩
    rw [← Bool.not_eq_true]
    exact fun hStop => hNot ⟨h, hStop⟩

theorem getF_fThrState (n t : Nat) {v : Nat} (hv : v < 8) (s : State) :
    getF (setF (fThrState n t) v s) (fThrState n t) = v := by
  rw [getF_setF_self _ _ _ rfl]
  exact Nat.mod_eq_of_lt hv

/-- Greedy mode leaves the command of a thread alone, or the thread is its own. -/
theorem greedy_allows {s : State} {n t : Nat} (h : greedyAct s n = false ∨ getF s (fGthread n) = t) :
    ¬ (greedyAct s n && decide (getF s (fGthread n) ≠ t)) = true := by
  rcases h with h | h <;> simp [h]

theorem greedy_refuses {s : State} {n t : Nat} (hGreedy : greedyAct s n = true) (hThread : getF s (fGthread n) ≠ t) :
    (greedyAct s n && decide (getF s (fGthread n) ≠ t)) = true := by simp [hGreedy, hThread]

/-- RUNNING and PARKED are neither STOPPED nor FAULTED. -/
theorem not_stopped {v : Nat} (h : v = 1 ∨ v = 2) : ¬ (v = 0 ∨ v = 3) := by omega

/-! ### START, STOP and RESUME (R211, R286) -/

/-- The core that START begins at an address, with its general registers (R211, R212). -/
def startedCore (sup : Bool) (pc turn : Nat) (x : CoreSt) : CoreSt :=
  let r := initCtx sup pc
  { x with
    ctx := { x.ctx with pc := r.pc, npc := r.npc, psw := r.psw, mode := r.mode, lstart := 0, lend := 0, lcount := 0,
                        slot := false, begun := false, left := 0, unit := none, parked := false, entry := false,
                        taken := false, back := [] },
    faultTurn := none, stopAt := none, issueAt := turn + 2, owed := 0 }

theorem startedCore_fields (sup : Bool) (pc turn : Nat) (x : CoreSt) :
    (startedCore sup pc turn x).stopAt = none ∧ (startedCore sup pc turn x).issueAt = turn + 2 ∧
    (startedCore sup pc turn x).ctx.pc = BitVec.ofNat 32 pc ∧ (startedCore sup pc turn x).ctx.g = x.ctx.g ∧
    (startedCore sup pc turn x).ctx.lcount = 0 ∧ (startedCore sup pc turn x).ctx.parked = false :=
  ⟨rfl, rfl, rfl, rfl, rfl, rfl⟩

/-- The core that RESUME lets go on. -/
def resumedCore (s : State) (x : CoreSt) : CoreSt :=
  { x with faultTurn := none, stopAt := none, issueAt := max (now s) x.issueAt, owed := 0 }

/-- A STOP waits for the second turn after it, or for the one that an earlier STOP waits for. -/
def stoppingCore (s : State) (x : CoreSt) : CoreSt :=
  { x with stopAt := some (x.stopAt.elim (now s + 2) (fun v => v)) }

section
variable {s : State} {n t : Nat}

theorem thrStart_begins (hMay : greedyAct s n = false ∨ getF s (fGthread n) = t)
    (hState : thrState s n t = 0 ∨ thrState s n t = 3) :
    thrStart n t s = setF (fThrState n t) 1 (updCore (16 * n + t) (startedCore (t = 0)
      (sliceBase n t + bitsOf (reg s (winK n (0x204 + 0x20 * t))) 15 0) (now s)) s) := by
  unfold thrStart
  exact (if_neg (greedy_allows hMay)).trans (if_pos hState)

theorem thrResume_continues (hMay : greedyAct s n = false ∨ getF s (fGthread n) = t)
    (hState : thrState s n t = 0 ∨ thrState s n t = 3) :
    thrResume n t s = setF (fThrState n t) (if (core s (16 * n + t)).ctx.parked then 2 else 1)
      (updCore (16 * n + t) (resumedCore s) s) := by
  unfold thrResume
  exact (if_neg (greedy_allows hMay)).trans (if_pos hState)

theorem thrStart_active (hMay : greedyAct s n = false ∨ getF s (fGthread n) = t)
    (hState : thrState s n t = 1 ∨ thrState s n t = 2) : thrStart n t s = s ∧ thrResume n t s = s := by
  unfold thrStart thrResume
  exact ⟨(if_neg (greedy_allows hMay)).trans (if_neg (not_stopped hState)),
    (if_neg (greedy_allows hMay)).trans (if_neg (not_stopped hState))⟩

theorem thrStart_greedy (hGreedy : greedyAct s n = true) (hThread : getF s (fGthread n) ≠ t) :
    thrStart n t s = flag (fGrej n) s ∧ thrResume n t s = flag (fGrej n) s := by
  unfold thrStart thrResume
  exact ⟨if_pos (greedy_refuses hGreedy hThread), if_pos (greedy_refuses hGreedy hThread)⟩

theorem thrStop_parked (h : thrState s n t = 2) : thrStop n t s = setF (fThrState n t) 0 s := if_pos h

theorem thrStop_running (h : thrState s n t = 1) :
    thrStop n t s = longCut n t (now s + 2) (updCore (16 * n + t) (stoppingCore s) s) := by
  unfold thrStop
  exact (if_neg (by omega)).trans (if_pos h)

theorem thrStop_stopped (h : thrState s n t = 0 ∨ thrState s n t = 3) : thrStop n t s = s := by
  unfold thrStop
  exact (if_neg (by omega)).trans (if_neg (by omega))

end

/-- The cores that a state change of thread t leaves. -/
theorem core_thread_ne {n t : Nat} {v : Nat} {f : CoreSt → CoreSt} {s : State} {i : Nat} (h : i ≠ 16 * n + t) :
    core (setF (fThrState n t) v (updCore (16 * n + t) f s)) i = core s i := by
  rw [core_setF, core_updCore_ne _ _ _ h]

theorem core_thread_self (n t v : Nat) (f : CoreSt → CoreSt) (s : State) :
    core (setF (fThrState n t) v (updCore (16 * n + t) f s)) (16 * n + t) = f (core s (16 * n + t)) := by
  rw [core_setF, core_updCore_self]

theorem mem_thread (n t v : Nat) (f : CoreSt → CoreSt) (s : State) :
    (setF (fThrState n t) v (updCore (16 * n + t) f s)).mem = s.mem := by rw [setF_mem, updCore_mem]

/-- A core that no STOP waits for is in the state written. -/
theorem thrState_written {n t v : Nat} (hv : v < 8) {f : CoreSt → CoreSt} {s : State}
    (hStop : (f (core s (16 * n + t))).stopAt = none) :
    thrState (setF (fThrState n t) v (updCore (16 * n + t) f s)) n t = v :=
  thrState_of_field (getF_fThrState n t hv _) (fun _ => by rw [core_thread_self, hStop]; rfl)

/-! ### A multiply or divide that a STOP abandons -/

/-- What abandoning a multiply or divide leaves: its thread's context may go back to the one before it, and all else stays. -/
structure CutOnly (i : Nat) (s u : State) : Prop where
  regs : u.regs = s.regs
  mem : u.mem = s.mem
  time : u.time = s.time
  others : ∀ j, j ≠ i → core u j = core s j
  stopAt : (core u i).stopAt = (core s i).stopAt

theorem longCut_only (n t e : Nat) (s : State) : CutOnly (16 * n + t) s (longCut n t e s) := by
  unfold longCut
  split
  · split
    · exact ⟨rfl, rfl, rfl, fun j hj => core_updCore_ne _ _ _ hj, by rw [core_updCore_self]⟩
    · exact ⟨rfl, rfl, rfl, fun _ _ => rfl, rfl⟩
  · exact ⟨rfl, rfl, rfl, fun _ _ => rfl, rfl⟩

theorem longCut_none {n t : Nat} {s : State} (h : longLast s n t = none) (e : Nat) : longCut n t e s = s := by
  unfold longCut
  rw [h]

/-- The turns of a thread are given by the slot table and greedy mode, not by the cores. -/
theorem ownAfter_updCore (i : Nat) (f : CoreSt → CoreSt) (s : State) (n t k u : Nat) :
    ownAfter (updCore i f s) n t k u = ownAfter s n t k u := by
  induction k generalizing u with
  | zero => rfl
  | succ k ih =>
    have hNext : nextOwn (updCore i f s) n t u = nextOwn s n t u := rfl
    simp only [ownAfter, hNext, ih]

theorem longLast_stopping (n t : Nat) (s : State) :
    longLast (updCore (16 * n + t) (stoppingCore s) s) n t = longLast s n t := by
  simp only [longLast, core_updCore_self, ownAfter_updCore, stoppingCore]

/-! ### The commands -/

section
variable {s : State} {c : CoreId} {n : ClusterId} {th : ThreadNo} (hFree : castHolds c n.val s = none)
include hFree

theorem exec_threadStart : exec (.threadStart c n th) s =
    .next (if thrWriter n.val th.val c then thrStart n.val th.val s else busErr c (thrCtrlK n.val th.val) s) := by
  show execThreadStart c n th s = _
  rw [execThreadStart, castWrite_free hFree]
  rfl

theorem exec_threadStop : exec (.threadStop c n th) s =
    .next (if thrWriter n.val th.val c then thrStop n.val th.val s else busErr c (thrCtrlK n.val th.val) s) := by
  show execThreadStop c n th s = _
  rw [execThreadStop, castWrite_free hFree]
  rfl

theorem exec_threadResume : exec (.threadResume c n th) s =
    .next (if thrWriter n.val th.val c then thrResume n.val th.val s else busErr c (thrCtrlK n.val th.val) s) := by
  show execThreadResume c n th s = _
  rw [execThreadResume, castWrite_free hFree]
  rfl

theorem exec_thrCtxWrite (w : Fin 32) (v : Word) : exec (.thrCtxWrite c n th w v) s =
    .next (if thrWriter n.val th.val c then thrCtxWrite n.val th.val w.val v s
      else busErr c (winK n.val (0x1000 + 0x80 * th.val + 4 * w.val)) s) := by
  show execThrCtxWrite c n th w v s = _
  rw [execThrCtxWrite, castWrite_free hFree]
  rfl

theorem threadCommands_refused (hNot : thrWriter n.val th.val c = false) (w : Fin 32) (v : Word) :
    exec (.threadStart c n th) s = .next (busErr c (thrCtrlK n.val th.val) s) ∧
    exec (.threadStop c n th) s = .next (busErr c (thrCtrlK n.val th.val) s) ∧
    exec (.threadResume c n th) s = .next (busErr c (thrCtrlK n.val th.val) s) ∧
    exec (.thrCtxWrite c n th w v) s = .next (busErr c (winK n.val (0x1000 + 0x80 * th.val + 4 * w.val)) s) :=
  ⟨(exec_threadStart hFree).trans (next_of_false hNot ..), (exec_threadStop hFree).trans (next_of_false hNot ..),
    (exec_threadResume hFree).trans (next_of_false hNot ..), (exec_thrCtxWrite hFree w v).trans (next_of_false hNot ..)⟩

variable (hMay : thrWriter n.val th.val c = true)
include hMay

theorem threadStart_completes (hGreedy : greedyAct s n.val = false ∨ getF s (fGthread n.val) = th.val)
    (hState : thrState s n.val th.val = 0 ∨ thrState s n.val th.val = 3) : Completes (.threadStart c n th) s (fun u =>
      thrState u n.val th.val = 1 ∧ (core u (16 * n.val + th.val)).issueAt = now s + 2 ∧
      (core u (16 * n.val + th.val)).ctx.pc =
        BitVec.ofNat 32 (sliceBase n.val th.val + bitsOf (reg s (winK n.val (0x204 + 0x20 * th.val))) 15 0) ∧
      (core u (16 * n.val + th.val)).ctx.g = (core s (16 * n.val + th.val)).ctx.g ∧
      (core u (16 * n.val + th.val)).ctx.lcount = 0 ∧ (core u (16 * n.val + th.val)).ctx.parked = false ∧
      (∀ i, i ≠ 16 * n.val + th.val → core u i = core s i) ∧ u.mem = s.mem) := by
  refine ⟨_, (exec_threadStart hFree).trans (next_of_true hMay ..), ?_⟩
  rw [thrStart_begins hGreedy hState]
  generalize sliceBase n.val th.val + bitsOf (reg s (winK n.val (0x204 + 0x20 * th.val))) 15 0 = pc
  obtain ⟨hStop, hIssue, hPc, hG, hCount, hParked⟩ :=
    startedCore_fields (th.val = 0) pc (now s) (core s (16 * n.val + th.val))
  have hCore := core_thread_self n.val th.val 1 (startedCore (th.val = 0) pc (now s)) s
  refine ⟨thrState_written (by decide) hStop, ?_, ?_, ?_, ?_, ?_, fun i hi => core_thread_ne hi, mem_thread ..⟩ <;>
    rw [hCore]
  · exact hIssue
  · exact hPc
  · exact hG
  · exact hCount
  · exact hParked

theorem threadResume_completes (hGreedy : greedyAct s n.val = false ∨ getF s (fGthread n.val) = th.val)
    (hState : thrState s n.val th.val = 0 ∨ thrState s n.val th.val = 3) : Completes (.threadResume c n th) s (fun u =>
      thrState u n.val th.val = (if (core s (16 * n.val + th.val)).ctx.parked then 2 else 1) ∧
      (∀ i, (core u i).ctx = (core s i).ctx) ∧ u.mem = s.mem) := by
  refine ⟨_, (exec_threadResume hFree).trans (next_of_true hMay ..), ?_⟩
  rw [thrResume_continues hGreedy hState]
  refine ⟨thrState_written (by split <;> decide) rfl, fun i => ?_, mem_thread ..⟩
  by_cases hi : i = 16 * n.val + th.val
  · rw [hi, core_thread_self]
    rfl
  · rw [core_thread_ne hi]

theorem threadStop_parked_completes (hState : thrState s n.val th.val = 2) : Completes (.threadStop c n th) s (fun u =>
    thrState u n.val th.val = 0 ∧ (∀ i, core u i = core s i) ∧ u.mem = s.mem) := by
  refine ⟨_, (exec_threadStop hFree).trans (next_of_true hMay ..), ?_⟩
  rw [thrStop_parked hState]
  exact ⟨thrState_of_field (getF_fThrState _ _ (by decide) _) nofun, fun i => core_setF .., setF_mem ..⟩

theorem threadStop_running_completes (hState : thrState s n.val th.val = 1) : Completes (.threadStop c n th) s (fun u =>
    thrState u n.val th.val = 1 ∧
    (core u (16 * n.val + th.val)).stopAt = some ((core s (16 * n.val + th.val)).stopAt.getD (now s + 2)) ∧
    (longLast s n.val th.val = none → (core u (16 * n.val + th.val)).ctx = (core s (16 * n.val + th.val)).ctx) ∧
    (∀ i, i ≠ 16 * n.val + th.val → core u i = core s i) ∧ u.mem = s.mem) := by
  obtain ⟨hField, hStop⟩ := field_of_running hState
  refine ⟨_, (exec_threadStop hFree).trans (next_of_true hMay ..), ?_⟩
  rw [thrStop_running hState]
  have hCut := longCut_only n.val th.val (now s + 2) (updCore (16 * n.val + th.val) (stoppingCore s) s)
  have hAt : (core (longCut n.val th.val (now s + 2) (updCore (16 * n.val + th.val) (stoppingCore s) s))
      (16 * n.val + th.val)).stopAt = some ((core s (16 * n.val + th.val)).stopAt.getD (now s + 2)) := by
    rw [hCut.stopAt, core_updCore_self, stoppingCore]
    cases (core s (16 * n.val + th.val)).stopAt <;> rfl
  refine ⟨thrState_of_field ?_ (fun _ => ?_), hAt, fun hLong => ?_,
    fun i hi => (hCut.others i hi).trans (core_updCore_ne _ _ _ hi), hCut.mem⟩
  · rw [getF, reg, hCut.regs]
    exact hField
  · have hNow : now (longCut n.val th.val (now s + 2) (updCore (16 * n.val + th.val) (stoppingCore s) s)) = now s :=
      congrArg TimeSt.turn hCut.time
    rw [hAt, hNow]
    cases hWait : (core s (16 * n.val + th.val)).stopAt with
    | none => exact decide_eq_false (Nat.not_le.mpr (Nat.lt_add_of_pos_right (by decide)))
    | some e => rwa [hWait] at hStop
  · rw [longCut_none ((longLast_stopping ..).trans hLong), core_updCore_self]
    rfl

theorem threadStop_waits (hState : thrState s n.val th.val = 0 ∨ thrState s n.val th.val = 3) :
    exec (.threadStop c n th) s = .next s := by
  rw [exec_threadStop hFree, next_of_true hMay, thrStop_stopped hState]

theorem threadStart_waits (hGreedy : greedyAct s n.val = false ∨ getF s (fGthread n.val) = th.val)
    (hState : thrState s n.val th.val = 1 ∨ thrState s n.val th.val = 2) :
    exec (.threadStart c n th) s = .next s ∧ exec (.threadResume c n th) s = .next s := by
  obtain ⟨hStart, hResume⟩ := thrStart_active hGreedy hState
  rw [exec_threadStart hFree, exec_threadResume hFree, next_of_true hMay, next_of_true hMay, hStart, hResume]
  exact ⟨rfl, rfl⟩

theorem threadStart_greedy (hGreedy : greedyAct s n.val = true) (hThread : getF s (fGthread n.val) ≠ th.val) :
    exec (.threadStart c n th) s = .next (flag (fGrej n.val) s) ∧
    exec (.threadResume c n th) s = .next (flag (fGrej n.val) s) := by
  obtain ⟨hStart, hResume⟩ := thrStart_greedy hGreedy hThread
  rw [exec_threadStart hFree, exec_threadResume hFree, next_of_true hMay, next_of_true hMay, hStart, hResume]
  exact ⟨rfl, rfl⟩

end

end Sys2Proof.Machine
end

section
namespace Sys2Proof.Machine

/-! ### Words of a context record (R286, R287) -/

/-- A field written back as it reads leaves its register. -/
theorem withBits_bitsOf_self (w : Word) (hi lo : Nat) : withBits w hi lo (bitsOf w hi lo) = w := by
  have hMod : bitsOf w hi lo % 2 ^ (hi + 1 - lo) = bitsOf w hi lo := Nat.mod_eq_of_lt (bitsOf_lt w hi lo)
  have hLe : bitsOf w hi lo * 2 ^ lo ≤ w.toNat :=
    (Nat.mul_le_mul_right _ (Nat.mod_le _ _)).trans (Nat.div_mul_le_self _ _)
  rw [withBits, hMod, Nat.sub_add_cancel hLe, BitVec.ofNat_toNat, BitVec.setWidth_eq]

/-- The last write of a field counts. -/
theorem withBits_withBits (w : Word) {hi lo : Nat} (a b : Nat) (hl : lo ≤ hi) (hh : hi < 32) :
    withBits (withBits w hi lo a) hi lo b = withBits w hi lo b := by
  have hNum := withBits_toNat w a hl hh
  have hField := bitsOf_withBits_self w a hl hh
  have hOld : bitsOf w hi lo * 2 ^ lo ≤ w.toNat :=
    (Nat.mul_le_mul_right _ (Nat.mod_le _ _)).trans (Nat.div_mul_le_self _ _)
  have hNew : (withBits w hi lo a).toNat = w.toNat - bitsOf w hi lo * 2 ^ lo + a % 2 ^ (hi + 1 - lo) * 2 ^ lo := by
    have hSame := withBits_toNat w (bitsOf w hi lo) hl hh
    rw [withBits_bitsOf_self, Nat.mod_eq_of_lt (bitsOf_lt w hi lo)] at hSame
    omega
  rw [withBits, hField, hNew, Nat.add_sub_cancel, ← withBits]

theorem ofNat_bitsOf_zero (v : Word) : BitVec.ofNat 32 (bitsOf v 0 0) = v &&& 1 := by
  apply BitVec.eq_of_toNat_eq
  rw [BitVec.toNat_and, BitVec.toNat_ofNat, bitsOf, Nat.pow_zero, Nat.div_one]
  show v.toNat % 2 % 2 ^ 32 = v.toNat &&& 1
  rw [Nat.and_one_is_mod]
  omega

/-- A bit as the number of its place. -/
theorem getLsbD_place (v : Word) (b : Nat) : v.getLsbD b = decide (v.toNat / 2 ^ b % 2 = 1) := by
  rw [← BitVec.testBit_toNat, Nat.testBit_eq_decide_div_mod_eq]

/-- XSTATE's bits together are the word's ten low bits. -/
theorem xstate_bits (v : Word) : BitVec.ofNat 32 ((if v.getLsbD 0 then 1 else 0) + 2 * bitsOf v 7 1 +
    (if v.getLsbD 8 then 256 else 0) + (if v.getLsbD 9 then 512 else 0)) = v &&& 0x3FF := by
  apply BitVec.eq_of_toNat_eq
  have hMask : (v &&& 0x3FF).toNat = v.toNat % 2 ^ 10 := Nat.and_two_pow_sub_one_eq_mod v.toNat 10
  rw [hMask, BitVec.toNat_ofNat, bitsOf, getLsbD_place, getLsbD_place, getLsbD_place]
  simp only [decide_eq_true_eq]
  split <;> split <;> split <;> omega

/-- PSW.SUP is a copy of MODE.SUP in the word written (R231). -/
theorem pswView_written (v : Word) :
    withBits (v &&& 0xF00001F0) 4 4 (bitsOf (BitVec.ofNat 32 (bitsOf v 4 4)) 0 0) = v &&& 0xF00001F0 := by
  have hSup : bitsOf (BitVec.ofNat 32 (bitsOf v 4 4)) 0 0 = bitsOf (v &&& 0xF00001F0) 4 4 := by
    rw [bitsOf_bit v 4, bitsOf_bit (v &&& _) 4, BitVec.getLsbD_and]
    cases v.getLsbD 4 <;> rfl
  rw [hSup, withBits_bitsOf_self]

section
variable (i : Nat) (v : Word) (s : State)

theorem ctxSet_others {i w j : Nat} (hj : j ≠ i) (v : Word) (s : State) : core (ctxSet i w v s) j = core s j := by
  unfold ctxSet
  split
  · exact core_updCore_ne _ _ _ hj
  · split <;> simp only [core_updCore_ne _ _ _ hj, core_setReg]

/-- A general register holds the word written to it. -/
theorem ctxWord_ctxSet_general {w : Nat} (hw : w < 16) : ctxWord (ctxSet i w v s) i w = v := by
  simp [ctxSet, ctxWord, hw]

/-- The other general registers hold what they held. -/
theorem ctxWord_ctxSet_ne {w x : Nat} (hx : x < 16) (h : x ≠ w) : ctxWord (ctxSet i w v s) i x = ctxWord s i x := by
  unfold ctxSet
  split
  · simp [ctxWord, hx, Vector.getElem_set_ne _ hx (Ne.symm h)]
  · split <;> simp only [ctxWord, hx, if_true, core_updCore_self, core_setReg]

/-- PC, EPC, ENPC and the loop registers hold the word written. -/
theorem ctxWord_ctxSet_whole {w : Nat} (hw : w ∈ [16, 20, 21, 23, 24, 25]) : ctxWord (ctxSet i w v s) i w = v := by
  simp only [List.mem_cons, List.not_mem_nil, or_false] at hw
  rcases hw with rfl | rfl | rfl | rfl | rfl | rfl <;> simp [ctxSet, ctxWord]

/-- NPC: a value other than PC + 4 is a pending target. -/
theorem ctxWord_ctxSet_npc : ctxWord (ctxSet i 17 v s) i 17 = v := by
  by_cases hNext : v = (core s i).ctx.pc + 4
  · simp [ctxSet, ctxWord, enpcOf, hNext]
  · simp only [ctxSet, ctxWord, Nat.reduceLT, dite_false, if_false, core_updCore_self]
    exact if_pos (decide_eq_true hNext)

theorem ctxWord_ctxSet_psw : ctxWord (ctxSet i 18 v s) i 18 = v &&& 0xF00001F0 := by
  simp only [ctxSet, ctxWord, pswView, Nat.reduceLT, dite_false, if_false, core_updCore_self]
  exact pswView_written v

theorem ctxWord_ctxSet_epsw : ctxWord (ctxSet i 19 v s) i 19 = v &&& 0xF00001F0 := by
  simp [ctxSet, ctxWord]

theorem ctxWord_ctxSet_mode : ctxWord (ctxSet i 22 v s) i 22 = v &&& 1 := by
  simp only [ctxSet, ctxWord, Nat.reduceLT, dite_false, if_false, core_updCore_self]
  exact ofNat_bitsOf_zero v

theorem ctxWord_ctxSet_xstate (hLeft : bitsOf v 7 1 ≤ 64) : ctxWord (ctxSet i 26 v s) i 26 = v &&& 0x3FF := by
  simp only [ctxSet, ctxWord, xstate, unitLeft, Nat.reduceLT, dite_false, if_false, core_updCore_self,
    Nat.min_eq_right hLeft, Option.isSome_none, Option.elim_none, Bool.false_or]
  exact xstate_bits v

/-! Words 27 to 31 of a thread. -/

variable {i} (hi : (decide (i % 16 < 12) && decide (i ≠ 256)) = true)
include hi

theorem ctxWord_ctxSet_alarmLo : ctxWord (ctxSet i 27 v s) i 27 = v := by
  simp only [ctxSet, ctxWord, Nat.reduceLT, dite_false, if_false, hi, if_true]
  exact reg_setReg_self ..

theorem ctxWord_ctxSet_alarmHi : ctxWord (ctxSet i 28 v s) i 28 = v := by
  have hArmed : ∀ e : Nat, (if (if v.getLsbD 31 then some e else none).isSome = true then 1 else 0) = bitsOf v 31 31 := by
    intro e
    rw [bitsOf_bit]
    cases v.getLsbD 31 <;> rfl
  simp only [ctxSet, ctxWord, Nat.reduceLT, dite_false, if_false, hi, if_true, core_updCore_self, reg_updCore, hArmed]
  rw [reg_setReg_self, withBits_withBits _ _ _ (by decide) (by decide), withBits_bitsOf_self]

/-- The words beyond the record read 0. -/
theorem ctxWord_beyond {w : Nat} (hw : 29 ≤ w) : ctxWord s i w = 0 := by
  obtain ⟨k, rfl⟩ := Nat.exists_eq_add_of_le' hw
  unfold ctxWord
  rw [if_neg (by omega)]
  split <;> simp_all

end

/-- The index of a thread is not the control processor's, nor a lane core's. -/
theorem thread_index (n : ClusterId) (th : ThreadNo) :
    (decide ((16 * n.val + th.val) % 16 < 12) && decide (16 * n.val + th.val ≠ 256)) = true := by
  have hn := n.isLt
  have ht := th.isLt
  simp only [Bool.and_eq_true, decide_eq_true_eq]
  omega

/-- Putting away an armed repeat unit leaves the general registers. -/
theorem ctxWord_unarm (i : Nat) (s : State) {x : Nat} (hx : x < 16) :
    ctxWord (updCore i (fun y => { y with ctx := unarm y.ctx }) s) i x = ctxWord s i x := by
  simp only [ctxWord, hx, if_true, core_updCore_self, unarm]

/-- The word that a context record holds after a write of it, in the words that hold all bits. -/
theorem ctxWord_ctxSet_all {i w : Nat} (v : Word) (s : State) (hi : (decide (i % 16 < 12) && decide (i ≠ 256)) = true)
    (hw : w < 18 ∨ w = 20 ∨ w = 21 ∨ w = 23 ∨ w = 24 ∨ w = 25 ∨ w = 27 ∨ w = 28) : ctxWord (ctxSet i w v s) i w = v := by
  by_cases hG : w < 16
  · exact ctxWord_ctxSet_general i v s hG
  by_cases hNpc : w = 17
  · rw [hNpc, ctxWord_ctxSet_npc]
  by_cases hLo : w = 27
  · rw [hLo, ctxWord_ctxSet_alarmLo v s hi]
  by_cases hHi : w = 28
  · rw [hHi, ctxWord_ctxSet_alarmHi v s hi]
  · exact ctxWord_ctxSet_whole i v s (by simp; omega)

section
variable {s : State} {c : CoreId} {n : ClusterId} {th : ThreadNo} (hFree : castHolds c n.val s = none)
  (hMay : thrWriter n.val th.val c = true) (w : Fin 32) (v : Word)
include hFree hMay

theorem thrCtxWrite_completes (hState : thrState s n.val th.val = 0 ∨ thrState s n.val th.val = 3) :
    Completes (.thrCtxWrite c n th w v) s (fun u =>
      (w.val < 18 ∨ w.val = 20 ∨ w.val = 21 ∨ w.val = 23 ∨ w.val = 24 ∨ w.val = 25 ∨ w.val = 27 ∨ w.val = 28 →
        ctxWord u (16 * n.val + th.val) w.val = v) ∧
      (w.val = 18 ∨ w.val = 19 → ctxWord u (16 * n.val + th.val) w.val = v &&& 0xF00001F0) ∧
      (w.val = 22 → ctxWord u (16 * n.val + th.val) 22 = v &&& 1) ∧
      (w.val = 26 → bitsOf v 7 1 ≤ 64 → ctxWord u (16 * n.val + th.val) 26 = v &&& 0x3FF) ∧
      (29 ≤ w.val → ctxWord u (16 * n.val + th.val) w.val = 0) ∧
      (∀ i, i ≠ 16 * n.val + th.val → core u i = core s i) ∧
      ∀ x, x < 16 → x ≠ w.val → ctxWord u (16 * n.val + th.val) x = ctxWord s (16 * n.val + th.val) x) := by
  refine ⟨_, (exec_thrCtxWrite hFree w v).trans (next_of_true hMay ..), ?_⟩
  have hi := thread_index n th
  rw [thrCtxWrite, if_pos hState]
  generalize hIx : 16 * n.val + th.val = i at hi ⊢
  generalize hPut : updCore i (fun x => { x with ctx := unarm x.ctx }) s = s'
  refine ⟨fun hw => ctxWord_ctxSet_all v s' hi hw, fun hw => ?_, fun hw => ?_, fun hw hLeft => ?_,
    fun hw => ctxWord_beyond _ hi hw, fun j hj => ?_, fun x hx hNe => ?_⟩
  · rcases hw with hw | hw <;> rw [hw]
    · exact ctxWord_ctxSet_psw i v s'
    · exact ctxWord_ctxSet_epsw i v s'
  · rw [hw, ctxWord_ctxSet_mode]
  · rw [hw, ctxWord_ctxSet_xstate i v s' hLeft]
  · rw [ctxSet_others hj, ← hPut, core_updCore_ne _ _ _ hj]
  · rw [ctxWord_ctxSet_ne i v s' hx hNe, ← hPut, ctxWord_unarm i s hx]

theorem thrCtxWrite_waits (hState : thrState s n.val th.val = 1 ∨ thrState s n.val th.val = 2) :
    exec (.thrCtxWrite c n th w v) s = .next s := by
  rw [exec_thrCtxWrite hFree, next_of_true hMay, thrCtxWrite, if_neg (not_stopped hState)]

end

end Sys2Proof.Machine
end

section
namespace Sys2Proof.Machine

/-! ### Thread alarms (R218) -/

/-- An occurrence that its controller takes sets the source's PEND (R379). -/
theorem getF_occur_pend {n k : Nat} {s : State} (h : Rises s n k (now s)) : getF (occur n k s) (fPend n k) = 1 := by
  obtain ⟨hLevel, hReserved, hEn, hDark, hServed⟩ := h
  have hok : (fPend n k).ok = true := decide_eq_true ⟨Nat.le_refl _, Nat.mod_lt _ (by decide)⟩
  unfold occur occurAt
  rw [hLevel, hReserved, hEn, hDark]
  simp only [Bool.or_self, Bool.false_eq_true, if_false, Bool.not_false, Bool.and_self, if_true, if_neg hServed]
  exact getF_flag_self hok rfl s

theorem core_occur (n k : Nat) (s : State) (j : Nat) : core (occur n k s) j = core s j := by
  rw [core, core, cores_of (occur_view coresV (coresV_free (by decide)) (coresV_free (by decide)) n k s)]

theorem now_occur (n k : Nat) (s : State) : now (occur n k s) = now s :=
  occur_view ⟨now⟩ (fun _ _ => rfl) (fun _ _ => rfl) n k s

/-- The alarm source of a thread is an edge source. -/
theorem alarm_source (n : ClusterId) (th : ThreadNo) :
    icLevel n.val (1 + th.val) = false ∧ icReserved n.val (1 + th.val) = false := by
  have hn := n.isLt
  have ht := th.isLt
  constructor
  · rw [icLevel, if_neg (by omega), decide_eq_false_iff_not]
    omega
  · rw [icReserved, if_neg (by omega), decide_eq_false_iff_not]
    omega

theorem alarm_rises {s : State} {n : ClusterId} {th : ThreadNo} {t : Nat} (hEn : isSet s (fSrcEn n.val (1 + th.val)) = true)
    (hDark : icDark s n.val = false) (hServed : Unserved s n.val (1 + th.val) t) : Rises s n.val (1 + th.val) t :=
  ⟨(alarm_source n th).1, (alarm_source n th).2, hEn, hDark, hServed⟩

/-- A register of a core's own is none of its cluster's controller, and no power register. -/
theorem rises_setReg_priv {s : State} {n : ClusterId} {k t q : Nat} (hq : 0x100000000 ≤ q) (v : Word) (hk : k < 64)
    (h : Rises s n.val k t) : Rises (setReg q v s) n.val k t := by
  obtain ⟨hLevel, hReserved, hEn, hDark, hServed⟩ := h
  have hn := n.isLt
  have hEnKey : (fSrcEn n.val k).key ≠ q := by
    simp only [fSrcEn, bit, icK, winK]
    split <;> omega
  have hPwrKey : (fPwr n.val).key ≠ q := by
    simp only [fPwr, fld]
    omega
  refine ⟨hLevel, hReserved, ?_, ?_, hServed⟩
  · rwa [isSet, getF_setReg_ne _ _ _ hEnKey]
  · rwa [icDark, getF_setReg_ne _ _ _ hPwrKey]

theorem rises_updCore {s : State} {n k t : Nat} (i : Nat) (f : CoreSt → CoreSt) (h : Rises s n k t) :
    Rises (updCore i f s) n k t := h

/-- A thread whose alarm is armed for a turn. -/
def armedCore (s : State) (e : Nat) (x : CoreSt) : CoreSt := { x with alarm := some e, risen := decide (e ≤ now s) }

/-- The alarm that a write of the high word arms: the low word is the one last written. -/
def alarmTurn (s : State) (i : Nat) (v : Word) : Nat := (reg s (privK i 0x614)).toNat + 2 ^ 32 * v.toNat

/-- An alarm is armed whose turn has passed. -/
def alarmPast (s : State) (i : Nat) : Bool := (core s i).alarm.elim false (fun e => decide (e ≤ now s))

/-- The state with the high word written and the alarm armed, before its rise. -/
def alarmSet (n t : Nat) (v : Word) (s : State) : State :=
  updCore (16 * n + t) (armedCore s (alarmTurn s (16 * n + t) v)) (setReg (privK (16 * n + t) 0x618) v s)

theorem alarmArm_eq (n t : Nat) (v : Word) (s : State) :
    alarmArm n t v s = if (decide (alarmTurn s (16 * n + t) v ≤ now s) && !alarmPast s (16 * n + t)) then
      occur n (1 + t) (alarmSet n t v s) else alarmSet n t v s := by
  have hLo : privK (16 * n + t) 0x614 ≠ privK (16 * n + t) 0x618 := by
    simp only [privK]
    omega
  unfold alarmArm alarmSet alarmTurn armedCore alarmPast
  simp only [reg_setReg_ne _ _ hLo, core_setReg, now_setReg]
  cases (core s (16 * n + t)).alarm <;> rfl

theorem core_alarmArm (n t : Nat) (v : Word) (s : State) : core (alarmArm n t v s) (16 * n + t) =
    armedCore s (alarmTurn s (16 * n + t) v) (core s (16 * n + t)) := by
  have hSet : core (alarmSet n t v s) (16 * n + t) = armedCore s (alarmTurn s (16 * n + t) v) (core s (16 * n + t)) := by
    rw [alarmSet, core_updCore_self, core_setReg]
  rw [alarmArm_eq]
  split
  · rw [core_occur, hSet]
  · exact hSet

/-- An alarm for a turn that has passed occurs at once (R218). -/
theorem pend_alarmArm {s : State} {n : ClusterId} {th : ThreadNo} {v : Word}
    (hNone : (core s (16 * n.val + th.val)).alarm = none) (hRises : Rises s n.val (1 + th.val) (now s))
    (hPast : alarmTurn s (16 * n.val + th.val) v ≤ now s) :
    getF (alarmArm n.val th.val v s) (fPend n.val (1 + th.val)) = 1 := by
  have ht := th.isLt
  have hSet : Rises (alarmSet n.val th.val v s) n.val (1 + th.val) (now (alarmSet n.val th.val v s)) := by
    rw [alarmSet, now_updCore, now_setReg]
    exact rises_updCore _ _ (rises_setReg_priv (by simp only [privK]; omega) v (by omega) hRises)
  rw [alarmArm_eq, alarmPast, hNone, if_pos (by simp [hPast])]
  exact getF_occur_pend hSet

theorem thrAlarmArm_completes {s : State} {n : ClusterId} {th : ThreadNo} (v : Word)
    (hFree : castHolds (.thread n th) n.val s = none) : Completes (.thrAlarmArm (.thread n th) v) s (fun u =>
      (core u (16 * n.val + th.val)).alarm = some ((reg s (privK (16 * n.val + th.val) 0x614)).toNat + 2 ^ 32 * v.toNat) ∧
      (core u (16 * n.val + th.val)).risen =
        decide ((reg s (privK (16 * n.val + th.val) 0x614)).toNat + 2 ^ 32 * v.toNat ≤ now s) ∧
      (core u (16 * n.val + th.val)).ctx = (core s (16 * n.val + th.val)).ctx ∧
      ((core s (16 * n.val + th.val)).alarm = none → isSet s (fSrcEn n.val (1 + th.val)) = true →
        icDark s n.val = false → Unserved s n.val (1 + th.val) (now s) →
        (reg s (privK (16 * n.val + th.val) 0x614)).toNat + 2 ^ 32 * v.toNat ≤ now s →
        getF u (fPend n.val (1 + th.val)) = 1)) := by
  have hExec : exec (.thrAlarmArm (.thread n th) v) s = .next (alarmArm n.val th.val v s) := by
    show execThrAlarmArm (.thread n th) v s = _
    rw [execThrAlarmArm, castWrite_free (show castHolds _ (coreCl (.thread n th)) s = none from hFree)]
    rfl
  refine ⟨_, hExec, ?_⟩
  beta_reduce
  rw [core_alarmArm]
  exact ⟨rfl, rfl, rfl, fun hNone hEn hDark hServed hPast => pend_alarmArm hNone (alarm_rises hEn hDark hServed) hPast⟩

/-- An alarm is a barrel thread's: another core's access is a bus error. -/
theorem thrAlarmArm_refused {s : State} {c : CoreId} (v : Word) (hFree : castHolds c (coreCl c) s = none) :
    (∀ n x, c = .lane n x → exec (.thrAlarmArm c v) s = .next (busErr c (winK n.val 0x618) s)) ∧
    (c = .cp → exec (.thrAlarmArm c v) s = .next (busErr c 0x20800618 s)) := by
  constructor
  · rintro n x rfl
    show execThrAlarmArm _ v s = _
    rw [execThrAlarmArm, castWrite_free hFree]
    rfl
  · rintro rfl
    show execThrAlarmArm _ v s = _
    rw [execThrAlarmArm, castWrite_free hFree]
    rfl

/-- A thread whose alarm has risen. -/
def risenCore (x : CoreSt) : CoreSt := { x with risen := true }

theorem exec_threadAlarm {s : State} {n : ClusterId} {th : ThreadNo} {e : Nat}
    (hAlarm : (core s (16 * n.val + th.val)).alarm = some e) : exec (.threadAlarm n th) s =
      .next (if dueNow s e = true ∧ (!(core s (16 * n.val + th.val)).risen) = true then
        occur n.val (1 + th.val) (updCore (16 * n.val + th.val) risenCore (goTo e s)) else s) := by
  show execThreadAlarm n th s = _
  rw [execThreadAlarm, hAlarm]
  exact apply_ite Host.Outcome.next _ _ _ |>.symm

theorem threadAlarm_completes {s : State} {n : ClusterId} {th : ThreadNo} {e : Nat}
    (hAlarm : (core s (16 * n.val + th.val)).alarm = some e) (hDue : dueNow s e = true)
    (hRisen : (core s (16 * n.val + th.val)).risen = false) : Completes (.threadAlarm n th) s (fun u =>
      now u = max (now s) e ∧ (core u (16 * n.val + th.val)).risen = true ∧
      (isSet s (fSrcEn n.val (1 + th.val)) = true → icDark s n.val = false →
        Unserved s n.val (1 + th.val) (max (now s) e) →
        getF u (fPend n.val (1 + th.val)) = 1)) := by
  refine ⟨_, exec_threadAlarm hAlarm, ?_⟩
  rw [if_pos ⟨hDue, by rw [hRisen]; rfl⟩]
  refine ⟨?_, ?_, fun hEn hDark hServed => getF_occur_pend (alarm_rises hEn hDark hServed)⟩
  · rw [now_occur, now_updCore, now_goTo]
  · rw [core_occur, core_updCore_self]
    rfl

theorem threadAlarm_waits {s : State} {n : ClusterId} {th : ThreadNo} (h : (core s (16 * n.val + th.val)).alarm = none ∨
    (core s (16 * n.val + th.val)).risen = true ∨
    (∃ e, (core s (16 * n.val + th.val)).alarm = some e ∧ dueNow s e = false)) : exec (.threadAlarm n th) s = .next s := by
  cases hAlarm : (core s (16 * n.val + th.val)).alarm with
  | none =>
    show execThreadAlarm n th s = _
    rw [execThreadAlarm, hAlarm]
    rfl
  | some e =>
    rw [exec_threadAlarm hAlarm, if_neg]
    rintro ⟨hDue, hRisen⟩
    rcases h with h | h | ⟨e', h, hNot⟩
    · rw [h] at hAlarm
      cases hAlarm
    · rw [h] at hRisen
      cases hRisen
    · rw [h] at hAlarm
      cases hAlarm
      rw [hNot] at hDue
      cases hDue

/-! ### CORE_VBASE (R274) -/

/-- CORE_VBASE is one field of bits 31 to 8. -/
theorem vbase_fieldAt {i : Nat} (hi : i < 0x1000) : FieldAt (privK i 0x800) 0 (rw 31 8) := by
  have hRow : rowFields (privK i 0x800) = [rw 31 8] := by
    have hKey : regRow (privK i 0x800) = findRow rowsPriv 0x800 := by
      have hLow : ¬ privK i 0x800 < 0x100000000 := by simp only [privK]; omega
      have hHigh : privK i 0x800 < 0x200000000 := by simp only [privK]; omega
      have hOff : privK i 0x800 % 0x1000 = 0x800 := by simp only [privK]; omega
      generalize privK i 0x800 = k at hLow hHigh hOff
      rw [regRow, if_neg hLow, if_pos hHigh, hOff]
    rw [rowFields, hKey]
    rfl
  exact ⟨by rw [hRow]; rfl, by decide, by rw [hRow]; rfl⟩

/-- The registers after a write of CORE_VBASE: the base is taken below 0x0100_0000. -/
def vbaseTaken (i : Nat) (v : Word) (s : State) : State := if v.toNat < 0x01000000 then softWrite (privK i 0x800) v s else s

/-- A core whose vector line is loaded from its base. -/
def vlineCore (i : Nat) (s : State) (x : CoreSt) : CoreSt := { x with vline := readBytes s ((vbase s i).toNat + 0x40) 32 }

theorem vbaseWrite_eq (i : Nat) (v : Word) (s : State) :
    vbaseWrite i v s = updCore i (vlineCore i (vbaseTaken i v s)) (vbaseTaken i v s) := rfl

theorem core_vbaseTaken (i : Nat) (v : Word) (s : State) (j : Nat) : core (vbaseTaken i v s) j = core s j := by
  unfold vbaseTaken
  split
  · rw [core, core, cores_of (softWrite_view coresV (coresV_free (by decide)) _ _ s)]
  · rfl

theorem vbase_updCore (i : Nat) (f : CoreSt → CoreSt) (s : State) (j : Nat) : vbase (updCore i f s) j = vbase s j :=
  reg_updCore ..

theorem getF_vbaseTaken {i : Nat} (hi : i < 0x1000) (v : Word) (s : State) :
    getF (vbaseTaken i v s) (fld (privK i 0x800) 31 8) =
      if v.toNat < 0x01000000 then bitsOf v 31 8 else getF s (fld (privK i 0x800) 31 8) := by
  unfold vbaseTaken
  split
  · exact getF_softWrite_rw (vbase_fieldAt hi) v s rfl ⟨Nat.zero_le _, by have := bitsOf_lt v 31 8; simp only [rw]; omega⟩
  · rfl

section
variable {s : State} {c : CoreId} (hFree : castHolds c (coreCl c) s = none) (v : Word)
include hFree

theorem exec_coreVbaseWrite : exec (.coreVbaseWrite c v) s = .next (if isThread c then busErr c 0xF0000800 s
    else supOnly c (fun s => vbaseWrite (runIx s c) v s) s) := by
  show execCoreVbaseWrite c v s = _
  rw [execCoreVbaseWrite, castWrite_free hFree]
  exact apply_ite Host.Outcome.next _ _ _ |>.symm

theorem coreVbaseWrite_completes (hCore : isThread c = false) (hSup : supCore s c = true) :
    Completes (.coreVbaseWrite c v) s (fun u =>
      getF u (fld (privK (runIx s c) 0x800) 31 8) =
        (if v.toNat < 0x01000000 then bitsOf v 31 8 else getF s (fld (privK (runIx s c) 0x800) 31 8)) ∧
      (core u (runIx s c)).vline = readBytes u ((vbase u (runIx s c)).toNat + 0x40) 32 ∧
      (core u (runIx s c)).ctx = (core s (runIx s c)).ctx) := by
  refine ⟨_, (exec_coreVbaseWrite hFree v).trans (next_of_false hCore ..), ?_⟩
  rw [supOnly, if_pos hSup]
  have hi := runIx_lt s c
  generalize runIx s c = i at hi ⊢
  rw [vbaseWrite_eq]
  beta_reduce
  rw [getF_updCore, getF_vbaseTaken hi, core_updCore_self]
  refine ⟨rfl, ?_, ?_⟩
  · rw [vbase_updCore, readBytes_of (updCore_mem ..)]
    rfl
  · rw [vlineCore, core_vbaseTaken]

theorem coreVbaseWrite_refused : (isThread c = true → exec (.coreVbaseWrite c v) s = .next (busErr c 0xF0000800 s)) ∧
    (isThread c = false → supCore s c = false → exec (.coreVbaseWrite c v) s = .next (privErr c s)) := by
  refine ⟨fun hThread => (exec_coreVbaseWrite hFree v).trans (next_of_true hThread ..), fun hCore hUser => ?_⟩
  rw [exec_coreVbaseWrite hFree, next_of_false hCore, supOnly, hUser]
  rfl

end

end Sys2Proof.Machine
end

section
open Sys2Proof Sys2Proof.Machine

/-- Settles O30: a command is taken or refused by the thread's state and by greedy mode; a word of the context record
reads back what its field keeps; an alarm and the vector line follow their writes. -/
theorem threadControl : Obligations.ThreadControl := by
  unfold Obligations.ThreadControl
  refine ⟨⟨fun s c n th hFree hMay hGreedy hState => threadStart_completes hFree hMay hGreedy hState,
      fun s c n th hFree hMay => ⟨threadStop_parked_completes hFree hMay, threadStop_running_completes hFree hMay,
        threadStop_waits hFree hMay⟩,
      fun s c n th hFree hMay hGreedy hState => threadResume_completes hFree hMay hGreedy hState,
      fun s c n th hFree hMay => ⟨threadStart_waits hFree hMay, threadStart_greedy hFree hMay⟩,
      fun s c n th w v hFree hMay hState => thrCtxWrite_completes hFree hMay w v hState,
      fun s c n th w v hFree => ⟨fun hMay hState => thrCtxWrite_waits hFree hMay w v hState,
        fun hNot => threadCommands_refused hFree hNot w v⟩⟩,
    fun s n th v hFree => thrAlarmArm_completes v hFree,
    fun s n th e hAlarm hDue hRisen => threadAlarm_completes hAlarm hDue hRisen,
    fun s n th h => threadAlarm_waits h,
    fun s c v hFree hCore hSup => coreVbaseWrite_completes hFree v hCore hSup,
    fun s c v hFree => ?_⟩
  obtain ⟨hThread, hUser⟩ := coreVbaseWrite_refused hFree v
  obtain ⟨hLane, hCp⟩ := thrAlarmArm_refused v hFree
  exact ⟨hThread, hUser, hLane, hCp⟩

end

section
namespace Sys2Proof.Machine

/-! ### General registers and flags of a context (R230, R231) -/

@[simp] theorem gr_setG_self (g : Reg) (v : Word) (c : Ctx) : gr (setG g v c) g = v := by
  simp [gr, setG]

theorem gr_setG_ne {g h : Reg} (hNe : h ≠ g) (v : Word) (c : Ctx) : gr (setG g v c) h = gr c h := by
  have hNat : g.toNat ≠ h.toNat := fun e => hNe (BitVec.eq_of_toNat_eq e.symm)
  simp [gr, setG, Vector.getElem_set_ne, hNat]

/-- The two registers of a pair are not the same. -/
theorem pair_ne (rd : Reg) : rd ≠ rd + 1 := by
  intro h
  have hNat := congrArg BitVec.toNat h
  simp at hNat
  omega

/-- One bit of PSW is set, the others keep. -/
theorem getLsbD_pswSet {b : Nat} (hb : b < 32) (v : Bool) (p : Word) (j : Nat) :
    (pswSet b v p).getLsbD j = if j = b then v else p.getLsbD j := by
  unfold pswSet
  by_cases hj : j = b
  · subst hj
    cases v <;> simp [hb]
  · have hj' : ¬ b = j := fun e => hj e.symm
    cases v
    · by_cases hWord : j < 32
      · simp [hj, hWord]
      · simp [hj, BitVec.getLsbD_of_ge p j (Nat.not_lt.mp hWord)]
    · simp [hj, hj']

/-- The four flags are the bits that StatusKept leaves out. -/
theorem pswSet_status {b : Nat} (hb : 28 ≤ b) (hb' : b < 32) (v : Bool) (p : Word) :
    pswSet b v p &&& 0x0FFFFFFF = p &&& 0x0FFFFFFF := by
  apply BitVec.eq_of_getLsbD_eq
  intro j hj
  rw [BitVec.getLsbD_and, BitVec.getLsbD_and, getLsbD_pswSet hb']
  by_cases hjb : j = b
  · have hMask : (0x0FFFFFFF : Word).getLsbD j = false := by
      have hFlag : ∀ k : Fin 32, 28 ≤ k.val → (0x0FFFFFFF : Word).getLsbD k.val = false := by decide
      exact hFlag ⟨j, hj⟩ (hjb ▸ hb)
    rw [hMask, Bool.and_false, Bool.and_false]
  · rw [if_neg hjb]

/-- Two words into the register pair rd, rd + 1, and PSW. -/
def pairCtx (rd : Reg) (lo hi p : Word) (c : Ctx) : Ctx := setG (rd + 1) hi (setG rd lo { c with psw := p })

/-- PSW after a 64-bit product (R243). -/
def mulPsw (sf : Bool) (p : BitVec 64) (w : Word) : Word := if sf then pswSet 30 (p = 0) (pswSet 31 p.msb w) else w

/-- PSW after a quotient (R241, R242). -/
def divPsw (sf ovf dz : Bool) (q w : Word) : Word :=
  let p := if sf then pswSet 28 false (pswSet 30 (q = 0) (pswSet 31 q.msb w)) else w
  let p := if ovf then pswSet 28 true p else p
  if dz then pswSet 8 true p else p

theorem mulPair_eq (sf : Bool) (rd : Reg) (p : BitVec 64) (c : Ctx) :
    mulPair sf rd p c = pairCtx rd (p.extractLsb' 0 32) (p.extractLsb' 32 32) (mulPsw sf p c.psw) c := by
  cases sf <;> rfl

theorem divPair_eq (sf ovf dz : Bool) (rd : Reg) (q r : Word) (c : Ctx) :
    divPair sf ovf dz rd q r c = pairCtx rd q r (divPsw sf ovf dz q c.psw) c := rfl

/-- The halves of a product together. -/
theorem halves_append (p : BitVec 64) : p.extractLsb' 32 32 ++ p.extractLsb' 0 32 = p := by
  rw [BitVec.extractLsb'_append_extractLsb'_eq_extractLsb' (by decide)]
  simp

/-! ### The word after a word that is no branch (R257, R262) -/

/-- The end of the hardware loop moves PC, NPC and LCOUNT alone. -/
theorem loopEnd_keeps (taken : Bool) (last : Word) (c : Ctx) :
    (loopEnd taken last c).g = c.g ∧ (loopEnd taken last c).psw = c.psw ∧ SpecKept c (loopEnd taken last c) := by
  unfold loopEnd
  split
  · dsimp only
    split <;> exact ⟨rfl, rfl, rfl, rfl, rfl, rfl, rfl, rfl⟩
  · exact ⟨rfl, rfl, rfl, rfl, rfl, rfl, rfl, rfl⟩

theorem advance_keeps (branch : Option (Word × Bool)) (c : Ctx) :
    (advance branch c).g = c.g ∧ (advance branch c).psw = c.psw ∧ SpecKept c (advance branch c) :=
  loopEnd_keeps ..

theorem stepped_advance (c : Ctx) : Stepped c (advance none c) := by
  unfold advance loopEnd
  dsimp only
  constructor
  · intro hNo
    rw [if_neg (by rintro ⟨hEnd, hCount⟩; exact hNo.elim (absurd hEnd) (absurd · hCount))]
    exact ⟨rfl, rfl, rfl⟩
  · intro hEnd hCount
    rw [if_pos ⟨hEnd, hCount⟩]
    have hLast : c.lcount - 1 ≠ 0 ↔ c.lcount ≠ 1 := not_congr sub_eq_zero
    simp only [hLast, Bool.not_eq_true']
    split <;> exact ⟨rfl, rfl⟩

/-- The special registers and where the core goes on do not depend on the general registers and the flags. -/
theorem advance_pairCtx (rd : Reg) (lo hi p : Word) (c : Ctx) :
    SpecKept c (advance none (pairCtx rd lo hi p c)) ∧ Stepped c (advance none (pairCtx rd lo hi p c)) :=
  ⟨(advance_keeps none (pairCtx rd lo hi p c)).2.2, stepped_advance (pairCtx rd lo hi p c)⟩

theorem gr_advance (branch : Option (Word × Bool)) (c : Ctx) (g : Reg) : gr (advance branch c) g = gr c g := by
  obtain ⟨hG, -, -⟩ := advance_keeps branch c
  simp only [gr, hG]

theorem gr_pairCtx_low (rd : Reg) (lo hi p : Word) (c : Ctx) : gr (pairCtx rd lo hi p c) rd = lo := by
  rw [pairCtx, gr_setG_ne (pair_ne rd), gr_setG_self]

theorem gr_pairCtx_high (rd : Reg) (lo hi p : Word) (c : Ctx) : gr (pairCtx rd lo hi p c) (rd + 1) = hi :=
  gr_setG_self ..

theorem regsKept_pairCtx (rd : Reg) (lo hi p : Word) (c : Ctx) : RegsKept c (pairCtx rd lo hi p c) [rd, rd + 1] := by
  intro g hg
  rw [List.mem_pair, not_or] at hg
  rw [pairCtx, gr_setG_ne hg.2, gr_setG_ne hg.1]
  rfl

/-! ### The issue of a word (R205, R211, R213) -/

/-- Which positions run as pairs, and so where a core's instructions run, is read from one register of each cluster. -/
theorem paired_of_reg {s u : State} {n : Nat} (h : reg u (winK n 0x150) = reg s (winK n 0x150)) (x : Nat) :
    paired u n x = paired s n x := by
  have h01 : isSet u (fUp01 n) = isSet s (fUp01 n) := congrArg (fun w => decide (bitsOf w 8 8 ≠ 0)) h
  have h23 : isSet u (fUp23 n) = isSet s (fUp23 n) := congrArg (fun w => decide (bitsOf w 9 9 ≠ 0)) h
  rw [paired, paired, h01, h23]

theorem runIx_of_reg {s u : State} (h : ∀ n, n < 16 → reg u (winK n 0x150) = reg s (winK n 0x150)) (c : CoreId) :
    runIx u c = runIx s c := by
  cases c with
  | thread n t => rfl
  | lane n x => rw [runIx, runIx, firstPos, firstPos, paired_of_reg (h n.val n.isLt)]
  | cp => rfl

/-- What the begin of a word's issue leaves: all but SCRUB_CORR, the time, and the issue turns of the core. -/
structure Begun (k : Nat) (s u : State) : Prop where
  regs : ∀ q, q ≠ fScrubCorr.key → reg u q = reg s q
  mem : u.mem = s.mem
  others : ∀ j, j ≠ k → core u j = core s j
  ctx : ∀ j, (core u j).ctx = (core s j).ctx

theorem startIssue_begun (i : Issue) (k : Nat) (long : Option Ctx) (s : State) :
    Begun (runIx s i.core) s (startIssue i k long s) := by
  have hCount : Begun (runIx s i.core) s (addF fScrubCorr i.corrected s) :=
    ⟨fun q hq => reg_setF_ne _ _ _ hq, addF_mem .., fun j _ => core_addF .., fun j => congrArg CoreSt.ctx (core_addF ..)⟩
  unfold startIssue
  cases hCore : i.core with
  | thread n t =>
    rw [hCore] at hCount
    dsimp only
    split
    · next u _ =>
      refine ⟨fun q hq => ?_, ?_, fun j hj => ?_, fun j => ?_⟩
      · rw [reg_updCore, reg_goTo, hCount.regs q hq]
      · rw [updCore_mem, goTo_mem, hCount.mem]
      · rw [core_updCore_ne _ _ _ (show j ≠ 16 * n.val + t.val from hj), core_goTo, hCount.others j hj]
      · by_cases hj : j = 16 * n.val + t.val
        · rw [hj, core_updCore_self, core_goTo]
          exact hCount.ctx _
        · rw [core_updCore_ne _ _ _ hj, core_goTo, hCount.ctx]
    · exact hCount
  | lane n x => rwa [hCore] at hCount
  | cp => rwa [hCore] at hCount

section
variable {k : Nat} {s u : State} (h : Begun k s u)
include h

/-- Which positions run as pairs is no matter of SCRUB_CORR. -/
theorem Begun.pairing (n : Nat) : reg u (winK n 0x150) = reg s (winK n 0x150) :=
  h.regs _ (by simp only [winK, fScrubCorr, fld]; omega)

theorem Begun.paired (n x : Nat) : paired u n x = paired s n x := paired_of_reg (h.pairing n) x

theorem Begun.runIx (c : CoreId) : runIx u c = runIx s c := runIx_of_reg (fun n _ => h.pairing n) c

theorem Begun.compared (c : CoreId) : compared u c = compared s c := by
  rw [Machine.compared, Machine.compared, h.runIx, isPair, isPair, h.paired]

theorem Begun.vbase (i : Nat) : vbase u i = vbase s i :=
  h.regs _ (by simp only [privK, fScrubCorr, fld]; omega)

theorem Begun.runCtx (c : CoreId) : runCtx u c = runCtx s c := by rw [Machine.runCtx, Machine.runCtx, h.runIx, h.ctx]

end

/-- A word is fetched: only the line buffers of its cluster, and what its core notes of the word before. -/
theorem fetched_begun (i : Issue) (x : Isi) (s : State) : Begun (runIx s i.core) s (fetched i x s) := by
  have hReg : ∀ q, reg (fetched i x s) q = reg s q := fun q =>
    fetched_view ⟨fun s => reg s q⟩ (fun _ _ => rfl) (fun _ _ => rfl) i x s
  have hMem : (fetched i x s).mem = s.mem := mem_of (fetched_view memV (memV_free (by decide)) (memV_free (by decide)) i x s)
  have hLine : ∀ c pc j, core (touchLine c pc s) j = core s j := fun c pc j => by
    rw [core, core, cores_of (touchLine_view coresV (coresV_free (by decide)) c pc s)]
  refine ⟨fun q _ => hReg q, hMem, fun j hj => ?_, fun j => ?_⟩
  · unfold fetched notePrev
    split
    · rw [core_updCore_ne _ _ _ hj, hLine]
    · rw [hLine]
  · unfold fetched notePrev
    split
    · by_cases hj : j = runIx s i.core
      · rw [hj, core_updCore_self, hLine]
      · rw [core_updCore_ne _ _ _ hj, hLine]
    · rw [hLine]

theorem Begun.trans {k : Nat} {s u v : State} (h : Begun k s u) (g : Begun k u v) : Begun k s v :=
  ⟨fun q hq => (g.regs q hq).trans (h.regs q hq), g.mem.trans h.mem, fun j hj => (g.others j hj).trans (h.others j hj),
    fun j => (g.ctx j).trans (h.ctx j)⟩

section
variable {s : State} {i : Issue} {x : Isi} {run : Ctx → State → Result}

/-- The word at PC of a core that may issue, with no repeat unit there. -/
theorem issue_free (hFree : Free s i) : issue i x run s = .next
    ((fetchTrap i (runCtx s i.core) (legalHere i.core (runCtx s i.core) x && !x.isBlock)).elim
      (if condHolds (runCtx s i.core).psw i.cond then
        (if x.isLong && stopsWithin i.core (wordTurns i.core (runCtx s i.core) x) s then s
          else finish i x (run (runCtx s i.core) (startIssue i (wordTurns i.core (runCtx s i.core) x)
              (if x.isLong then some (runCtx s i.core) else none) s))
            (startIssue i (wordTurns i.core (runCtx s i.core) x) (if x.isLong then some (runCtx s i.core) else none) s))
      else skip i x (startIssue i 1 none s))
      (fun p => fetchFail i x p.1 p.2 (startIssue i 1 none s))) := by
  obtain ⟨hIssue, hUnit, hParked⟩ := hFree
  simp only [runCtx] at hUnit hParked
  unfold issue
  simp only [hIssue, hUnit, hParked, runCtx]
  cases fetchTrap i (core s (runIx s i.core)).ctx
    (legalHere i.core (core s (runIx s i.core)).ctx x && !x.isBlock) <;> rfl

/-- A word that is ready takes its effect. -/
theorem issue_ready (h : Ready s i x) (hBlock : x.isBlock = false) : ∃ t, Begun (runIx s i.core) s t ∧
    issue i x run s = .next (finish i x (run (runCtx s i.core) t) t) := by
  obtain ⟨hFree, hFetch, hCond, -, hStop⟩ := h
  refine ⟨_, startIssue_begun i (wordTurns i.core (runCtx s i.core) x) (if x.isLong then some (runCtx s i.core) else none) s, ?_⟩
  have hRuns : ¬ (x.isLong && stopsWithin i.core (wordTurns i.core (runCtx s i.core) x) s) = true := by
    rw [Bool.and_eq_true]
    rintro ⟨hLong, hCut⟩
    rw [hStop hLong] at hCut
    cases hCut
  rw [issue_free hFree, hBlock, Bool.not_false, Bool.and_true, hFetch]
  exact congrArg _ ((if_pos hCond).trans (if_neg hRuns))

/-- A multiply or divide that a STOP abandons has no effect (R211). -/
theorem issue_stopped (hFree : Free s i) (hBlock : x.isBlock = false) (hLong : x.isLong = true)
    (hFetch : fetchTrap i (runCtx s i.core) (legalHere i.core (runCtx s i.core) x) = none)
    (hCond : condHolds (runCtx s i.core).psw i.cond = true)
    (hStop : stopsWithin i.core (wordTurns i.core (runCtx s i.core) x) s = true) : issue i x run s = .next s := by
  rw [issue_free hFree, hBlock, Bool.not_false, Bool.and_true, hFetch]
  exact congrArg _ ((if_pos hCond).trans (if_pos (by rw [hLong, hStop]; rfl)))

/-- A word that may not stand where it is raises ILLEGAL (R271). -/
theorem issue_illegal (hFree : Free s i) (hFetch : fetchTrap i (runCtx s i.core) true = none)
    (hIllegal : legalHere i.core (runCtx s i.core) x = false) : ∃ t, Begun (runIx s i.core) s t ∧
    issue i x run s = .next (trapIn i x 1 0 0 t) := by
  refine ⟨_, startIssue_begun i 1 none s, ?_⟩
  have hTrap : fetchTrap i (runCtx s i.core) false = some (1, 0) := by
    unfold fetchTrap at hFetch ⊢
    split at hFetch
    · cases hFetch
    · split at hFetch
      · cases hFetch
      · next hPlace hEcc => rw [if_neg hPlace, if_neg hEcc]; rfl
  rw [issue_free hFree, hIllegal, Bool.false_and, hTrap]
  refine congrArg _ (if_neg ?_)
  rw [Bool.and_eq_true]
  exact fun h => absurd h.2 (by decide)

/-! ### A word whose effect is on the registers and flags of its core -/

theorem differs_begun {t : State} (hBegun : Begun (runIx s i.core) s t) : differs t i x = differs s i x := by
  rw [differs, differs, hBegun.compared]

/-- A new context of the core, and nothing else. -/
theorem setCtx_rest {f : State} (h : Begun (runIx s i.core) s f) (y : Ctx) :
    runCtx (setCtx (runIx s i.core) y f) i.core = y ∧ RestKept s (setCtx (runIx s i.core) y f) i.core := by
  have hIx : runIx (setCtx (runIx s i.core) y f) i.core = runIx s i.core :=
    runIx_of_reg (fun n _ => (reg_updCore ..).trans (h.pairing n)) i.core
  refine ⟨?_, ?_, fun q hq => ?_, fun j hj => ?_⟩
  · rw [runCtx, hIx, setCtx, core_updCore_self]
  · rw [setCtx, updCore_mem, h.mem]
  · rw [setCtx, reg_updCore, h.regs q hq]
  · rw [setCtx, core_updCore_ne _ _ _ hj, h.others j hj]

/-- A register pair and the flags are written, and the next word follows. -/
theorem pair_completes {rd : Reg} {lo hi p : Word} (h : Ready s i x) (hBlock : x.isBlock = false)
    (hRun : ∀ t, run (runCtx s i.core) t = .fin (pairCtx rd lo hi p (runCtx s i.core)) id) :
    ∃ u, issue i x run s = .next u ∧ gr (runCtx u i.core) rd = lo ∧ gr (runCtx u i.core) (rd + 1) = hi ∧
      (runCtx u i.core).psw = p ∧ Frame1 s u i.core [rd, rd + 1] := by
  obtain ⟨t, hBegun, hIssue⟩ := issue_ready (run := run) h hBlock
  obtain ⟨-, -, -, hAgree, -⟩ := h
  have hFetched : Begun (runIx s i.core) s (fetched i x t) := by
    have hNext := fetched_begun i x t
    rw [hBegun.runIx] at hNext
    exact hBegun.trans hNext
  have hFin : finish i x (run (runCtx s i.core) t) t =
      setCtx (runIx s i.core) (advance none (pairCtx rd lo hi p (runCtx s i.core))) (fetched i x t) := by
    rw [hRun, ← hBegun.runIx]
    exact if_neg (by rw [differs_begun hBegun, hAgree]; decide)
  rw [hFin] at hIssue
  obtain ⟨hSpec, hStep⟩ := advance_pairCtx rd lo hi p (runCtx s i.core)
  obtain ⟨hAt, hRest⟩ := setCtx_rest hFetched (advance none (pairCtx rd lo hi p (runCtx s i.core)))
  refine ⟨_, hIssue, ?_⟩
  generalize setCtx (runIx s i.core) (advance none (pairCtx rd lo hi p (runCtx s i.core))) (fetched i x t) = u at hAt hRest ⊢
  rw [Frame1, hAt]
  refine ⟨?_, ?_, (advance_keeps none _).2.1, fun g hg => ?_, hSpec, hStep, hRest⟩
  · rw [gr_advance, gr_pairCtx_low]
  · rw [gr_advance, gr_pairCtx_high]
  · rw [gr_advance, regsKept_pairCtx rd lo hi p _ g hg]

end

/-! ### An exception of a word (R219, R272) -/

/-- A core, not a thread, stands at its vector: its context is that of an entry, the cause is recorded, and only registers
that the core sees as its own have changed. -/
structure AtEntry (s u : State) (k cause : Nat) : Prop where
  ctx : (core u k).ctx = ctxEntry (core s k).ctx (core s k).ctx.pc (enpcOf (core s k).ctx)
    (vbase s k + (if cause = 8 then 0x20 else 0))
  cause : getF u (fld (privK k 0x804) 7 0) = cause
  regs : ∀ q, q < 0x100000000 → reg u q = reg s q
  mem : u.mem = s.mem

theorem coreEntry_atEntry {cause : Nat} (hCause : cause < 256) (k detail : Nat) (bad : Word) (s : State) :
    AtEntry s (coreEntry k cause detail bad s) k cause := by
  have h808 : ∀ q, q < 0x100000000 → q ≠ privK k 0x808 := fun q hq => by simp only [privK]; omega
  have h804 : ∀ q, q < 0x100000000 → q ≠ privK k 0x804 := fun q hq => by simp only [privK]; omega
  refine ⟨?_, ?_, fun q hq => ?_, mem_of (coreEntry_view memV (memV_free (by decide)) (memV_free (by decide)) ..)⟩ <;>
    unfold coreEntry
  · rw [core_updCore_self]
  · rw [getF_updCore]
    show bitsOf (reg (setReg (privK k 0x804) _ _) (privK k 0x804)) 7 0 = cause
    rw [reg_setReg_self, bitsOf, BitVec.toNat_ofNat]
    split <;> split <;> omega
  · rw [reg_updCore, reg_setReg_ne _ _ (h804 q hq), reg_setReg_ne _ _ (h808 q hq)]

theorem AtEntry.second {s u : State} {k cause : Nat} (h : AtEntry s u k cause) :
    AtEntry s (setF (bit (privK k 0x804) 18) 1 u) k cause := by
  refine ⟨?_, ?_, fun q hq => ?_, ?_⟩
  · rw [core_setF, h.ctx]
  · rw [getF_setF_apart _ _ (by simp [Fld.apart, Fld.ok, bit, fld]), h.cause]
  · rw [reg_setF_ne _ _ _ (by simp only [bit, privK]; omega), h.regs q hq]
  · rw [setF_mem, h.mem]

theorem AtEntry.noPrev {s u : State} {k cause : Nat} (h : AtEntry s u k cause) :
    AtEntry s (updCore k (fun y => { y with prev := none }) u) k cause := by
  refine ⟨?_, ?_, fun q hq => ?_, ?_⟩
  · rw [core_updCore_self, ← h.ctx]
  · rw [getF_updCore, h.cause]
  · rw [reg_updCore, h.regs q hq]
  · rw [updCore_mem, h.mem]

theorem AtEntry.entered {s u : State} {c : CoreId} {cause : Nat} (h : AtEntry s u (runIx s c) cause)
    (hCore : isThread c = false) : Entered s u c cause := by
  have hIx : runIx u c = runIx s c := runIx_of_reg (fun n hn => h.regs _ (by simp only [winK]; omega)) c
  refine ⟨fun n t hc => ?_, fun _ => ?_⟩
  · rw [hc] at hCore
    cases hCore
  · rw [runCtx, hIx, h.ctx, h.cause]
    exact ⟨rfl, rfl, rfl, rfl, rfl, bitsOf_withBits_self _ _ (by decide) (by decide), rfl, rfl⟩

/-- Keys of the registers that a fault record changes: FAULT_COUNT and those of a journal record. -/
def faultKeys (k : Nat) : Bool := logKeys k || decide (k = 0x46000010)

theorem faultRec_keys (mech outcome unit lcl phys pos tenant addr detail cast : Nat) (s : State) :
    RegsOnly faultKeys s (faultRec mech outcome unit lcl phys pos tenant addr detail cast s) := by
  have hLog : ∀ k, faultKeys k = false → logKeys k = false := fun k h => (Bool.or_eq_false_iff.mp h).1
  refine RegsOnly.trans ?_ (((jnl_log _ _ _).trans (occurCp_log 1 _ (by decide))).mono hLog)
  refine RegsOnly.trans ?_ (RegsOnly.addF _ _ (by decide))
  exact RegsOnly.of_regs rfl

theorem faultKeys_window {n off : Nat} (ho : off < 0x1000) : faultKeys (winK n off) = false := by
  simp only [faultKeys, logKeys, icKeys, icK, if_true, Bool.or_eq_false_iff, decide_eq_false_iff_not, winK]
  exact ⟨⟨⟨decide_eq_false (by omega), decide_eq_false (by omega)⟩, by omega⟩, decide_eq_false (by omega)⟩

/-- FAULT_REC of a thread after a fault (R219). -/
def faultWords (n t cause : Nat) (c : Ctx) (bad : Word) (s : State) : State :=
  setF (fFaultRec n t 3 31 0) bad.toNat (setF (fFaultRec n t 2 31 0) (enpcOf c).toNat (setF (fFaultRec n t 1 31 0) c.pc.toNat
    (addF (fFaultRec n t 0 31 16) 1 (setF (fFaultRec n t 0 9 9) (bitsOf c.mode 0 0)
      (setF (fFaultRec n t 0 8 8) (if c.slot then 1 else 0) (setF (fFaultRec n t 0 7 0) cause s))))))

theorem faultWords_cause {cause : Nat} (hCause : cause < 256) (n t : Nat) (c : Ctx) (bad : Word) (s : State) :
    getF (faultWords n t cause c bad s) (fFaultRec n t 0 7 0) = cause := by
  unfold faultWords addF
  iterate 6 rw [getF_setF_apart _ _ (by simp [Fld.apart, Fld.ok, fFaultRec, fld, winK])]
  rw [getF_setF_self _ _ _ rfl]
  exact Nat.mod_eq_of_lt hCause

/-- What a fault of a thread leaves in its core: the address of the word, and the general registers. -/
def faultedCore (turn : Nat) (keep : Bool) (x : CoreSt) : CoreSt :=
  { x with
    ctx := { x.ctx with epc := if keep then x.ctx.epc else x.ctx.pc, enpc := if keep then x.ctx.enpc else enpcOf x.ctx,
                        npc := enpcOf x.ctx, unit := none, begun := x.ctx.unit.isSome || x.ctx.begun,
                        left := unitLeft x.ctx, parked := false },
    faultTurn := some turn, stopAt := none }

/-- The doorbell of T0, which no fault of T0 itself rings. -/
def bellRung (n t : Nat) (s : State) : State := if t = 0 then s else flag (fT0Bell n t) s

/-- The core at which thread t faults, and its registers, before T0's doorbell rings. -/
def faultMarked (n t cause : Nat) (bad : Word) (s : State) : State :=
  setF (fThrState n t) 3 (faultWords n t cause (core s (16 * n + t)).ctx bad (updCore (16 * n + t)
    (faultedCore (now s) ((core s (16 * n + t)).ctx.entry && (decide (cause = 6) || decide (cause = 7)))) s))

/-- The state of a fault before it is recorded. -/
def faultSet (n t cause : Nat) (bad : Word) (s : State) : State := bellRung n t (faultMarked n t cause bad s)

theorem threadFault_eq (n t cause : Nat) (bad : Word) (s : State) : threadFault n t cause bad s =
    faultRec 0x0A 4 0 n (physOf (faultSet n t cause bad s) n) t 0xFFFF (core s (16 * n + t)).ctx.pc.toNat cause 0
      (faultSet n t cause bad s) := by
  unfold threadFault faultSet bellRung faultMarked faultWords
  rfl

/-- The doorbells' register is none of a thread's own. -/
theorem getF_bellRung (n t : Nat) {off hi lo : Nat} (s : State) (h : 0x20 < off) :
    getF (bellRung n t s) (fld (winK n off) hi lo) = getF s (fld (winK n off) hi lo) := by
  have hApart : (fT0Bell n t).apart (fld (winK n off) hi lo) = true := by
    have hKey : winK n off ≠ winK n 0x20 := by simp only [winK]; omega
    simp [Fld.apart, fT0Bell, fld, bit, hKey]
  unfold bellRung
  split
  · rfl
  · rw [getF_flag, getF_setF_apart _ _ hApart]

theorem core_faultSet (n t cause : Nat) (bad : Word) (s : State) : core (faultSet n t cause bad s) (16 * n + t) =
    faultedCore (now s) ((core s (16 * n + t)).ctx.entry && (decide (cause = 6) || decide (cause = 7)))
      (core s (16 * n + t)) := by
  have hBell : ∀ u j, core (bellRung n t u) j = core u j := by
    intro u j
    unfold bellRung
    split
    · rfl
    · rw [core, flag_cores, core]
  rw [faultSet, hBell]
  unfold faultMarked faultWords
  rw [core_setF, core_setF, core_setF, core_setF, core_addF, core_setF, core_setF, core_setF, core_updCore_self]

/-- A thread that faults is FAULTED, with the cause in its record, its word's address in EPC, and its registers. -/
theorem threadFault_entered {cause : Nat} (hCause : cause < 6) (n : ClusterId) (t : ThreadNo) (bad : Word) (s : State) :
    Entered s (threadFault n.val t.val cause bad s) (.thread n t) cause := by
  have ht := t.isLt
  rw [threadFault_eq]
  have hKeys := faultRec_keys 0x0A 4 0 n.val (physOf (faultSet n.val t.val cause bad s) n.val) t.val 0xFFFF
    (core s (16 * n.val + t.val)).ctx.pc.toNat cause 0 (faultSet n.val t.val cause bad s)
  have hCores := cores_of (faultRec_view coresV (coresV_free (by decide)) (coresV_free (by decide)) (coresV_free (by decide))
    (coresV_free (by decide)) (coresV_free (by decide)) 0x0A 4 0 n.val (physOf (faultSet n.val t.val cause bad s) n.val)
    t.val 0xFFFF (core s (16 * n.val + t.val)).ctx.pc.toNat cause 0 (faultSet n.val t.val cause bad s))
  generalize faultRec 0x0A 4 0 n.val (physOf (faultSet n.val t.val cause bad s) n.val) t.val 0xFFFF
    (core s (16 * n.val + t.val)).ctx.pc.toNat cause 0 (faultSet n.val t.val cause bad s) = u at hKeys hCores ⊢
  have hCore : core u (16 * n.val + t.val) = faultedCore (now s) false (core s (16 * n.val + t.val)) := by
    have hKeep : ((core s (16 * n.val + t.val)).ctx.entry && (decide (cause = 6) || decide (cause = 7))) = false := by
      rw [decide_eq_false (by omega), decide_eq_false (by omega), Bool.or_self, Bool.and_false]
    rw [core, hCores, ← core, core_faultSet, hKeep]
  have hWin : ∀ off hi lo, 0x20 < off → off < 0x1000 → getF u (fld (winK n.val off) hi lo) =
      getF (faultMarked n.val t.val cause bad s) (fld (winK n.val off) hi lo) := fun off hi lo hLow hHigh =>
    (congrArg (fun w => bitsOf w hi lo) (hKeys.reg (winK n.val off) (faultKeys_window hHigh))).trans
      (getF_bellRung n.val t.val _ hLow)
  refine ⟨fun n' t' hc => ?_, nofun⟩
  cases hc
  refine ⟨?_, ?_, ?_, ?_⟩
  · exact (hWin _ _ _ (by omega) (by omega)).trans (getF_fThrState _ _ (by decide) _)
  · refine (hWin _ _ _ (by omega) (by omega)).trans ?_
    rw [faultMarked, ← fFaultRec, getF_setF_apart _ _ (by simp [Fld.apart, Fld.ok, fFaultRec, fThrState, fld, winK])]
    exact faultWords_cause (by omega) ..
  · rw [runCtx, runIx, hCore]
    rfl
  · rw [runCtx, runIx, hCore]
    rfl

/-- What an exception of a word is, when the copies agree and the fetch is not its cause: the exception itself, and for a
lane core a note that its word was the second of a pair. -/
theorem trapIn_agreed {i : Issue} {x : Isi} {t : State} {cause detail : Nat} {bad : Word} (hAgreed : Agreed t i)
    (hCause : cause ≠ 7) : trapIn i x cause detail bad t =
      (let u := raiseExc i.core cause detail bad t
       let u := if second (core t (runIx t i.core)) i.cond x && isLane i.core then
         setF (bit (privK (runIx t i.core) 0x804) 18) 1 u else u
       if isLane i.core then updCore (runIx t i.core) (fun y => { y with prev := none }) u else u) := by
  have hReport : reportEcc i.core cause bad t = t := if_neg (fun h => hCause h.2)
  unfold trapIn
  rw [hReport]
  exact if_neg (by rw [hAgreed]; decide)

theorem trapIn_core_atEntry {i : Issue} {t : State} {cause : Nat} (x : Isi) (hAgreed : Agreed t i) (hCause : cause < 6)
    (hCore : isThread i.core = false) : AtEntry t (trapIn i x cause 0 0 t) (runIx t i.core) cause := by
  have hEntry : AtEntry t (raiseExc i.core cause 0 0 t) (runIx t i.core) cause := by
    cases hc : i.core with
    | thread n th =>
      rw [hc] at hCore
      cases hCore
    | lane n y => exact coreEntry_atEntry (by omega) ..
    | cp => exact coreEntry_atEntry (by omega) ..
  rw [trapIn_agreed hAgreed (by omega)]
  dsimp only
  split <;> split
  · exact hEntry.second.noPrev
  · exact hEntry.noPrev
  · exact hEntry.second
  · exact hEntry

theorem Entered.of_begun {s t u : State} {i : Issue} {cause : Nat} (hBegun : Begun (runIx s i.core) s t)
    (h : Entered t u i.core cause) : Entered s u i.core cause := by
  rw [Entered, hBegun.runCtx, hBegun.runIx, hBegun.vbase] at h
  exact h

/-- The exception of a word that issued: its core has taken it, and memory holds what it held. -/
theorem trapIn_entered {s t : State} {i : Issue} {cause : Nat} (x : Isi) (hBegun : Begun (runIx s i.core) s t)
    (hAgreed : Agreed s i) (hCause : cause < 6) :
    Entered s (trapIn i x cause 0 0 t) i.core cause ∧ (trapIn i x cause 0 0 t).mem = s.mem := by
  have hAgreed' : Agreed t i := by rw [Agreed, hBegun.compared, hAgreed]
  suffices h : Entered t (trapIn i x cause 0 0 t) i.core cause ∧ (trapIn i x cause 0 0 t).mem = t.mem from
    ⟨h.1.of_begun hBegun, h.2.trans hBegun.mem⟩
  cases hThread : isThread i.core with
  | false =>
    have hEntry := trapIn_core_atEntry x hAgreed' hCause hThread
    exact ⟨hEntry.entered hThread, hEntry.mem⟩
  | true =>
    rw [trapIn_agreed hAgreed' (by omega)]
    cases hc : i.core with
    | thread n th =>
      simp only [isLane, Bool.and_false, Bool.false_eq_true, if_false, raiseExc]
      exact ⟨threadFault_entered hCause n th 0 t, mem_of (threadFault_view memV (memV_free (by decide)) (memV_free (by decide))
        (memV_free (by decide)) (memV_free (by decide)) (memV_free (by decide)) (memV_free (by decide)) ..)⟩
    | lane n y =>
      rw [hc] at hThread
      cases hThread
    | cp =>
      rw [hc] at hThread
      cases hThread

/-! ### Products and quotients (R241–R243) -/

theorem finish_trap {s t : State} {i : Issue} {cause : Nat} (x : Isi) (hBegun : Begun (runIx s i.core) s t)
    (hAgreed : Agreed s i) : finish i x (.trap cause 0 0 id) t = trapIn i x cause 0 0 t := by
  have hAgree : (compared t i.core && !i.agree) = false := by rw [hBegun.compared, hAgreed]
  unfold finish
  rw [hAgree]
  rfl

theorem signedProduct (a b : Word) : a.signExtend 64 * b.signExtend 64 = BitVec.ofInt 64 (a.toInt * b.toInt) :=
  (BitVec.ofInt_mul ..).symm

/-- A signed product of two words fits 64 bits. -/
theorem toInt_signedProduct (a b : Word) : (BitVec.ofInt 64 (a.toInt * b.toInt)).toInt = a.toInt * b.toInt := by
  have hLow : ∀ w : Word, -2 ^ 31 ≤ w.toInt := fun w => BitVec.le_toInt w
  have hHigh : ∀ w : Word, w.toInt ≤ 2 ^ 31 := fun w => (BitVec.toInt_lt (x := w)).le
  have hMin : -(2 ^ 62) ≤ a.toInt * b.toInt := by nlinarith [hLow a, hLow b, hHigh a, hHigh b]
  have hMax : a.toInt * b.toInt ≤ 2 ^ 62 := by nlinarith [hLow a, hLow b, hHigh a, hHigh b]
  exact BitVec.toInt_ofInt_eq_self (by decide) (by omega) (by omega)

theorem msb_signedProduct (a b : Word) :
    (BitVec.ofInt 64 (a.toInt * b.toInt)).msb = decide (a.toInt * b.toInt < 0) := by
  rw [BitVec.msb_eq_toInt, toInt_signedProduct]

theorem signedProduct_zero (a b : Word) : BitVec.ofInt 64 (a.toInt * b.toInt) = 0 ↔ a.toInt * b.toInt = 0 := by
  rw [← BitVec.toInt_inj, toInt_signedProduct]
  rfl

theorem unsignedProduct (a b : Word) : a.setWidth 64 * b.setWidth 64 = BitVec.ofNat 64 (a.toNat * b.toNat) := by
  rw [BitVec.ofNat_mul, BitVec.ofNat_toNat, BitVec.ofNat_toNat]

theorem toNat_unsignedProduct (a b : Word) : (BitVec.ofNat 64 (a.toNat * b.toNat)).toNat = a.toNat * b.toNat := by
  rw [BitVec.toNat_ofNat]
  have hFits : a.toNat * b.toNat < 2 ^ 32 * 2 ^ 32 := Nat.mul_lt_mul'' a.isLt b.isLt
  omega

theorem msb_unsignedProduct (a b : Word) :
    (BitVec.ofNat 64 (a.toNat * b.toNat)).msb = decide (2 ^ 63 ≤ a.toNat * b.toNat) := by
  rw [BitVec.msb_eq_decide, toNat_unsignedProduct]

theorem unsignedProduct_zero (a b : Word) : BitVec.ofNat 64 (a.toNat * b.toNat) = 0 ↔ a.toNat * b.toNat = 0 := by
  rw [← BitVec.toNat_inj, toNat_unsignedProduct]
  rfl

/-- A product sets N and Z where its word writes flags, and no other bit of PSW. -/
theorem mulPsw_flags (sf : Bool) (p : BitVec 64) (w : Word) :
    mulPsw sf p w &&& 0x0FFFFFFF = w &&& 0x0FFFFFFF ∧ pswC (mulPsw sf p w) = pswC w ∧ pswV (mulPsw sf p w) = pswV w ∧
    pswN (mulPsw sf p w) = (if sf then p.msb else pswN w) ∧ pswZ (mulPsw sf p w) = if sf then decide (p = 0) else pswZ w := by
  cases sf with
  | false => exact ⟨rfl, rfl, rfl, rfl, rfl⟩
  | true =>
    simp only [mulPsw, if_true, pswC, pswV, pswN, pswZ, getLsbD_pswSet (show 30 < 32 by decide),
      getLsbD_pswSet (show 31 < 32 by decide), pswSet_status (show 28 ≤ 30 by decide) (by decide),
      pswSet_status (show 28 ≤ 31 by decide) (by decide), Nat.reduceEqDiff, if_false, and_self]

/-- A division by zero sets DZ, and N, Z and V where its word writes flags. -/
theorem divPsw_zero (sf : Bool) (q w : Word) : (divPsw sf false true q w).getLsbD 8 = true ∧
    (sf = true → pswV (divPsw sf false true q w) = false ∧ pswN (divPsw sf false true q w) = q.msb ∧
      pswZ (divPsw sf false true q w) = decide (q = 0)) := by
  constructor
  · simp only [divPsw, if_true, getLsbD_pswSet (show 8 < 32 by decide)]
  · rintro rfl
    simp only [divPsw, if_true, Bool.false_eq_true, if_false, pswV, pswN, pswZ, getLsbD_pswSet (show 8 < 32 by decide),
      getLsbD_pswSet (show 28 < 32 by decide), getLsbD_pswSet (show 30 < 32 by decide),
      getLsbD_pswSet (show 31 < 32 by decide), Nat.reduceEqDiff, and_self]

section
variable {s : State} {i : Issue} {sf : Bool} {rd ra rb : Reg}

theorem exec_mul : exec (.mul i sf rd ra rb) s = issue i (.r .mul sf rd ra rb)
    (fun c _ => .fin (wrAlu sf rd (logicAlu (gr c ra * gr c rb)) c) id) s := rfl

theorem exec_mull : exec (.mull i sf rd ra rb) s = issue i (.r .mull sf rd ra rb)
    (fun c _ => .fin (mulPair sf rd ((gr c ra).signExtend 64 * (gr c rb).signExtend 64) c) id) s := rfl

theorem exec_mullu : exec (.mullu i sf rd ra rb) s = issue i (.r .mullu sf rd ra rb)
    (fun c _ => .fin (mulPair sf rd ((gr c ra).setWidth 64 * (gr c rb).setWidth 64) c) id) s := rfl

theorem exec_div : exec (.div i sf rd ra rb) s = issue i (.r .div sf rd ra rb)
    (fun c _ => if gr c rb = 0 ∧ c.psw.getLsbD 7 then .trap 4 0 0 id
      else .fin (divS sf rd (gr c ra) (gr c rb) c) id) s := rfl

theorem exec_divu : exec (.divu i sf rd ra rb) s = issue i (.r .divu sf rd ra rb)
    (fun c _ => if gr c rb = 0 ∧ c.psw.getLsbD 7 then .trap 4 0 0 id
      else .fin (divU sf rd (gr c ra) (gr c rb) c) id) s := rfl

/-- The words of the products and quotients are multiplies and divides, and no block steps. -/
theorem longForms_issue (s : State) : ∀ p ∈ longForms i sf rd ra rb, p.2.isLong = true ∧ p.2.isBlock = false ∧
    ∃ run, exec p.1 s = issue i p.2 run s := by
  simp only [longForms, List.forall_mem_cons]
  exact ⟨⟨rfl, rfl, _, exec_mul⟩, ⟨rfl, rfl, _, exec_mull⟩, ⟨rfl, rfl, _, exec_mullu⟩, ⟨rfl, rfl, _, exec_div⟩,
    ⟨rfl, rfl, _, exec_divu⟩, List.forall_mem_nil _⟩

theorem legalHere_illegal {w : Isi} (k : CoreId) (c : Ctx) (h : w.legal = false) : legalHere k c w = false := by
  simp only [legalHere, h, Bool.false_and]

/-- A register pair begins with an even register (R243). -/
theorem longForms_odd (hOdd : rd.getLsbD 0 = true) :
    ∀ p ∈ (longForms i sf rd ra rb).drop 1, p.2.legal = false := by
  have hPair : (!rd.getLsbD 0) = false := by rw [hOdd]; rfl
  simp only [longForms, List.drop_succ_cons, List.drop_zero, List.forall_mem_cons]
  exact ⟨hPair, hPair, hPair, hPair, List.forall_mem_nil _⟩

theorem longForms_illegal (hFree : Free s i) (hOdd : rd.getLsbD 0 = true) (hAgreed : Agreed s i)
    (hFetch : fetchTrap i (runCtx s i.core) true = none) : ∀ p ∈ (longForms i sf rd ra rb).drop 1,
      Completes p.1 s (fun u => Entered s u i.core 1 ∧ u.mem = s.mem) := by
  intro p hp
  obtain ⟨-, -, run, hExec⟩ := longForms_issue s p (List.mem_of_mem_drop hp)
  obtain ⟨t, hBegun, hIssue⟩ := issue_illegal (run := run) hFree hFetch (legalHere_illegal _ _ (longForms_odd hOdd p hp))
  exact ⟨_, hExec.trans hIssue, trapIn_entered p.2 hBegun hAgreed (by decide)⟩

theorem longForms_stopped (hFree : Free s i) : ∀ p ∈ longForms i sf rd ra rb,
    fetchTrap i (runCtx s i.core) (legalHere i.core (runCtx s i.core) p.2) = none →
    condHolds (runCtx s i.core).psw i.cond = true →
    stopsWithin i.core (wordTurns i.core (runCtx s i.core) p.2) s = true → exec p.1 s = .next s := by
  intro p hp hFetch hCond hStop
  obtain ⟨hLong, hBlock, run, hExec⟩ := longForms_issue s p hp
  rw [hExec]
  exact issue_stopped hFree hBlock hLong hFetch hCond hStop

/-- A product completes: its halves are in the pair, and its flags in PSW. -/
theorem product_completes {fn : RFn} {p : BitVec 64} {run : Ctx → State → Result} (h : Ready s i (.r fn sf rd ra rb))
    (hRun : ∀ t, run (runCtx s i.core) t = .fin (mulPair sf rd p (runCtx s i.core)) id) :
    ∃ u, issue i (.r fn sf rd ra rb) run s = .next u ∧ gr (runCtx u i.core) (rd + 1) ++ gr (runCtx u i.core) rd = p ∧
      Frame1 s u i.core [rd, rd + 1] ∧ StatusKept (runCtx s i.core) (runCtx u i.core) ∧
      pswC (runCtx u i.core).psw = pswC (runCtx s i.core).psw ∧ pswV (runCtx u i.core).psw = pswV (runCtx s i.core).psw ∧
      pswN (runCtx u i.core).psw = (if sf then p.msb else pswN (runCtx s i.core).psw) ∧
      pswZ (runCtx u i.core).psw = (if sf then decide (p = 0) else pswZ (runCtx s i.core).psw) := by
  obtain ⟨u, hIssue, hLow, hHigh, hPsw, hFrame⟩ := pair_completes h rfl (fun t => (hRun t).trans (by rw [mulPair_eq]))
  refine ⟨u, hIssue, ?_, hFrame, ?_⟩
  · rw [hLow, hHigh, halves_append]
  · rw [StatusKept, hPsw]
    exact mulPsw_flags ..

/-- A division by zero completes, where DZT is 0: the table's quotient, the dividend as the remainder, and DZ. -/
theorem zeroDivision_completes {fn : RFn} {q r : Word} {run : Ctx → State → Result} (h : Ready s i (.r fn sf rd ra rb))
    (hRun : ∀ t, run (runCtx s i.core) t = .fin (divPair sf false true rd q r (runCtx s i.core)) id) :
    ∃ u, issue i (.r fn sf rd ra rb) run s = .next u ∧ gr (runCtx u i.core) rd = q ∧ gr (runCtx u i.core) (rd + 1) = r ∧
      (runCtx u i.core).psw.getLsbD 8 = true ∧ Frame1 s u i.core [rd, rd + 1] ∧
      (sf = true → pswV (runCtx u i.core).psw = false ∧ pswN (runCtx u i.core).psw = q.msb ∧
        pswZ (runCtx u i.core).psw = decide (q = 0)) := by
  obtain ⟨u, hIssue, hLow, hHigh, hPsw, hFrame⟩ := pair_completes h rfl (fun t => (hRun t).trans (by rw [divPair_eq]))
  obtain ⟨hZero, hFlags⟩ := divPsw_zero sf q (runCtx s i.core).psw
  refine ⟨u, hIssue, hLow, hHigh, ?_, hFrame, ?_⟩ <;> rw [hPsw]
  · exact hZero
  · exact hFlags

/-- A word that raises an exception of its own enters it. -/
theorem trap_completes {w : Isi} {cause : Nat} {run : Ctx → State → Result} (h : Ready s i w) (hBlock : w.isBlock = false)
    (hAgreed : Agreed s i) (hCause : cause < 6) (hRun : ∀ t, run (runCtx s i.core) t = .trap cause 0 0 id) :
    ∃ u, issue i w run s = .next u ∧ Entered s u i.core cause := by
  obtain ⟨t, hBegun, hIssue⟩ := issue_ready (run := run) h hBlock
  rw [hRun, finish_trap w hBegun hAgreed] at hIssue
  exact ⟨_, hIssue, (trapIn_entered w hBegun hAgreed hCause).1⟩

theorem mull_completes (h : Ready s i (.r .mull sf rd ra rb)) : Completes (.mull i sf rd ra rb) s (fun u =>
      gr (runCtx u i.core) (rd + 1) ++ gr (runCtx u i.core) rd =
        BitVec.ofInt 64 ((gr (runCtx s i.core) ra).toInt * (gr (runCtx s i.core) rb).toInt) ∧
      Frame1 s u i.core [rd, rd + 1] ∧ StatusKept (runCtx s i.core) (runCtx u i.core) ∧
      pswC (runCtx u i.core).psw = pswC (runCtx s i.core).psw ∧ pswV (runCtx u i.core).psw = pswV (runCtx s i.core).psw ∧
      pswN (runCtx u i.core).psw = (if sf then decide ((gr (runCtx s i.core) ra).toInt * (gr (runCtx s i.core) rb).toInt < 0)
        else pswN (runCtx s i.core).psw) ∧
      pswZ (runCtx u i.core).psw = (if sf then decide ((gr (runCtx s i.core) ra).toInt * (gr (runCtx s i.core) rb).toInt = 0)
        else pswZ (runCtx s i.core).psw)) := by
  rw [Completes, exec_mull]
  have hDone := product_completes h
    (run := fun c _ => .fin (mulPair sf rd ((gr c ra).signExtend 64 * (gr c rb).signExtend 64) c) id)
    (fun _ => congrArg (fun p => Result.fin (mulPair sf rd p (runCtx s i.core)) id) (signedProduct ..))
  simpa only [msb_signedProduct, signedProduct_zero] using hDone

theorem mullu_completes (h : Ready s i (.r .mullu sf rd ra rb)) : Completes (.mullu i sf rd ra rb) s (fun u =>
      gr (runCtx u i.core) (rd + 1) ++ gr (runCtx u i.core) rd =
        BitVec.ofNat 64 ((gr (runCtx s i.core) ra).toNat * (gr (runCtx s i.core) rb).toNat) ∧
      Frame1 s u i.core [rd, rd + 1] ∧ StatusKept (runCtx s i.core) (runCtx u i.core) ∧
      pswC (runCtx u i.core).psw = pswC (runCtx s i.core).psw ∧ pswV (runCtx u i.core).psw = pswV (runCtx s i.core).psw ∧
      pswN (runCtx u i.core).psw =
        (if sf then decide (2 ^ 63 ≤ (gr (runCtx s i.core) ra).toNat * (gr (runCtx s i.core) rb).toNat)
        else pswN (runCtx s i.core).psw) ∧
      pswZ (runCtx u i.core).psw = (if sf then decide ((gr (runCtx s i.core) ra).toNat * (gr (runCtx s i.core) rb).toNat = 0)
        else pswZ (runCtx s i.core).psw)) := by
  rw [Completes, exec_mullu]
  have hDone := product_completes h
    (run := fun c _ => .fin (mulPair sf rd ((gr c ra).setWidth 64 * (gr c rb).setWidth 64) c) id)
    (fun _ => congrArg (fun p => Result.fin (mulPair sf rd p (runCtx s i.core)) id) (unsignedProduct ..))
  simpa only [msb_unsignedProduct, unsignedProduct_zero] using hDone

/-! A division by zero (R242). -/

variable (hZero : gr (runCtx s i.core) rb = 0)
include hZero

/-- The quotient of a signed division by zero has the sign of its dividend. -/
theorem div_byZero (h : Ready s i (.r .div sf rd ra rb)) (hDzt : (runCtx s i.core).psw.getLsbD 7 = false) :
    Completes (.div i sf rd ra rb) s (fun u =>
      gr (runCtx u i.core) rd = (if 0 ≤ (gr (runCtx s i.core) ra).toInt then 0x7FFFFFFF else 0x80000000) ∧
      gr (runCtx u i.core) (rd + 1) = gr (runCtx s i.core) ra ∧
      (runCtx u i.core).psw.getLsbD 8 = true ∧ Frame1 s u i.core [rd, rd + 1] ∧
      (sf = true → pswV (runCtx u i.core).psw = false ∧ pswN (runCtx u i.core).psw = (gr (runCtx s i.core) ra).msb ∧
        pswZ (runCtx u i.core).psw = false)) := by
  have hQuot : divS sf rd (gr (runCtx s i.core) ra) (gr (runCtx s i.core) rb) (runCtx s i.core) =
      divPair sf false true rd (if (gr (runCtx s i.core) ra).msb then 0x80000000 else 0x7FFFFFFF)
        (gr (runCtx s i.core) ra) (runCtx s i.core) := if_pos hZero
  rw [Completes, exec_div]
  obtain ⟨u, hIssue, hLow, hHigh, hDz, hFrame, hFlags⟩ := zeroDivision_completes h (run := fun c _ =>
    if gr c rb = 0 ∧ c.psw.getLsbD 7 then .trap 4 0 0 id else .fin (divS sf rd (gr c ra) (gr c rb) c) id)
    (fun _ => (if_neg (fun hTrap => Bool.false_ne_true (hDzt.symm.trans hTrap.2))).trans (congrArg (Result.fin · id) hQuot))
  refine ⟨u, hIssue, ?_, hHigh, hDz, hFrame, fun hSf => ?_⟩
  · rw [hLow]
    have hSign := BitVec.msb_eq_toInt (x := gr (runCtx s i.core) ra)
    cases hMsb : (gr (runCtx s i.core) ra).msb <;> rw [hMsb] at hSign
    · exact (if_pos (not_lt.mp (of_decide_eq_false hSign.symm))).symm
    · exact (if_neg (not_le.mpr (of_decide_eq_true hSign.symm))).symm
  · obtain ⟨hV, hN, hZ⟩ := hFlags hSf
    rw [hV, hN, hZ]
    cases (gr (runCtx s i.core) ra).msb <;> exact ⟨rfl, rfl, rfl⟩

theorem divu_byZero (h : Ready s i (.r .divu sf rd ra rb)) (hDzt : (runCtx s i.core).psw.getLsbD 7 = false) :
    Completes (.divu i sf rd ra rb) s (fun u =>
      gr (runCtx u i.core) rd = 0xFFFFFFFF ∧ gr (runCtx u i.core) (rd + 1) = gr (runCtx s i.core) ra ∧
      (runCtx u i.core).psw.getLsbD 8 = true ∧ Frame1 s u i.core [rd, rd + 1] ∧
      (sf = true → pswV (runCtx u i.core).psw = false ∧ pswN (runCtx u i.core).psw = true ∧
        pswZ (runCtx u i.core).psw = false)) := by
  have hQuot : divU sf rd (gr (runCtx s i.core) ra) (gr (runCtx s i.core) rb) (runCtx s i.core) =
      divPair sf false true rd 0xFFFFFFFF (gr (runCtx s i.core) ra) (runCtx s i.core) := if_pos hZero
  rw [Completes, exec_divu]
  exact zeroDivision_completes h (run := fun c _ =>
    if gr c rb = 0 ∧ c.psw.getLsbD 7 then .trap 4 0 0 id else .fin (divU sf rd (gr c ra) (gr c rb) c) id)
    (fun _ => (if_neg (fun hTrap => Bool.false_ne_true (hDzt.symm.trans hTrap.2))).trans (congrArg (Result.fin · id) hQuot))

variable (hAgreed : Agreed s i) (hDzt : (runCtx s i.core).psw.getLsbD 7 = true)
include hAgreed hDzt

/-- With DZT it raises DIVZERO and writes nothing. -/
theorem divRow_trap {w : Isi} (f : Ctx → Ctx) (h : Ready s i w) (hBlock : w.isBlock = false) :
    ∃ u, divRow i w rb f s = .next u ∧ Entered s u i.core 4 :=
  trap_completes h hBlock hAgreed (by decide) (fun _ => if_pos ⟨hZero, hDzt⟩)

end

end Sys2Proof.Machine
end

section
open Sys2Proof Sys2Proof.Machine

/-- Settles O36: a product or a quotient is written to its register pair as one context, or its word is refused, abandoned
or trapped before it writes. -/
theorem productsAndDivisionByZero : Obligations.ProductsAndDivisionByZero := by
  unfold Obligations.ProductsAndDivisionByZero
  refine ⟨fun s i sf rd ra rb hFree hOdd hAgreed hFetch => longForms_illegal hFree hOdd hAgreed hFetch,
    fun s i sf rd ra rb hFree => longForms_stopped hFree, ?_⟩
  rintro s i sf rd ra rb x a b rfl rfl rfl
  exact ⟨mull_completes, mullu_completes, fun h hZero hDzt => div_byZero hZero h hDzt,
    fun h hZero hDzt => divu_byZero hZero h hDzt,
    fun h hAgreed hZero hDzt => divRow_trap hZero hAgreed hDzt _ h rfl,
    fun h hAgreed hZero hDzt => divRow_trap hZero hAgreed hDzt _ h rfl⟩

end

section
namespace Sys2Proof.Machine

/-! ### The words of the instructions (R234, R237, R260) -/

@[simp] theorem RFn.ofCode_code (f : RFn) : RFn.ofCode f.code = some f := by cases f <;> rfl

@[simp] theorem IFn.ofCode_code (f : IFn) : IFn.ofCode f.code = some f := by cases f <;> rfl

@[simp] theorem WFn.ofCode_code (f : WFn) : WFn.ofCode f.code = some f := by cases f <;> rfl

@[simp] theorem BFn.ofCode_code (f : BFn) : BFn.ofCode f.code = some f := by cases f <;> rfl

@[simp] theorem msb_b1 (v : Bool) : (b1 v).msb = v := by cases v <;> rfl

/-- A bit of a word as the field of its width. -/
theorem getLsbD_eq_field (w : Word) (k : Nat) : w.getLsbD k = (w.extractLsb' k 1).msb := by
  simp [BitVec.msb_eq_getLsbD_last]

/-- MAJ of a branch ends in its link bit. -/
theorem extractLsb'_majBr (cond : BitVec 4) (link : Bool) : (cond ++ 0x3#3 ++ b1 link).extractLsb' 0 4 = 0x3#3 ++ b1 link := by
  revert cond link
  decide

theorem cond_encode (cond : BitVec 4) (x : Isi) : (encode cond x).extractLsb' 28 4 = cond := by
  cases x <;> simp -decide [encode, sysWord, -Nat.reduceAdd, BitVec.extractLsb'_append_eq_of_le]

/-- The fields of a word, read where its form places them. -/
theorem fieldsOf_encode (cond : BitVec 4) (x : Isi) : fieldsOf (encode cond x) = some x := by
  cases x with
  | br link off =>
    have hMaj : (encode cond (.br link off)).extractLsb' 24 4 = 0x3#3 ++ b1 link := by
      rw [← extractLsb'_majBr cond link]
      exact BitVec.extractLsb'_append_eq_of_le (xhi := cond ++ 0x3#3 ++ b1 link) (xlo := off) (le_refl 24)
    have hOff : (encode cond (.br link off)).extractLsb' 0 24 = off :=
      (BitVec.extractLsb'_append_eq_of_add_le (xhi := cond ++ 0x3#3 ++ b1 link) (le_refl 24)).trans BitVec.extractLsb'_eq_self
    have hLink : (encode cond (.br link off)).getLsbD 24 = link := by
      rw [getLsbD_eq_field]
      simp -decide [encode, -Nat.reduceAdd, BitVec.extractLsb'_append_eq_of_le, BitVec.extractLsb'_append_eq_of_add_le]
    unfold fieldsOf
    simp only [hMaj, hOff, hLink]
    cases link <;> rfl
  | _ =>
    simp -decide [fieldsOf, sysOf, encode, sysWord, getLsbD_eq_field, BitVec.extractLsb'_append_eq_of_le,
      BitVec.extractLsb'_append_eq_of_add_le, BitVec.setWidth_append, -Nat.reduceAdd, -BitVec.getLsbD_eq_getElem]

theorem decodeWord_encode (cond : BitVec 4) {x : Isi} (h : x.legal = true) : decodeWord (encode cond x) = some (cond, x) := by
  unfold decodeWord
  rw [fieldsOf_encode, cond_encode]
  exact if_pos (by simp [h])

theorem encode_of_decodeWord {w : Word} {cond : BitVec 4} {x : Isi} (h : decodeWord w = some (cond, x)) :
    encode cond x = w ∧ x.legal = true := by
  unfold decodeWord at h
  split at h
  · split at h
    · next hWord =>
      obtain ⟨hLegal, hSame⟩ := Bool.and_eq_true .. ▸ hWord
      cases h
      exact ⟨of_decide_eq_true hSame, hLegal⟩
    · cases h
  · cases h

end Sys2Proof.Machine
end

section
open Sys2Proof Sys2Proof.Machine

/-- Settles O39: a word's form is read back from its fields, and the decoder takes no word but its instruction's own. -/
theorem wordsDecode : Obligations.WordsDecode := by
  unfold Obligations.WordsDecode
  exact ⟨fun cond _ => decodeWord_encode cond, fun _ _ _ => encode_of_decodeWord⟩

end

section
namespace Sys2Proof.Machine

/-! ### A word that takes its effect (R262) -/

section
variable {s : State} {i : Issue} {x : Isi} {run : Ctx → State → Result}

/-- The fetch of a word that has begun. -/
theorem begun_fetched {t : State} (h : Begun (runIx s i.core) s t) (x : Isi) : Begun (runIx s i.core) s (fetched i x t) :=
  h.trans (h.runIx i.core ▸ fetched_begun i x t)

/-- A word that is ready has begun: its core's turns are counted, and what an interrupt may abandon it to (R205, R254). -/
def wordBegun (i : Issue) (x : Isi) (s : State) : State :=
  startIssue i (wordTurns i.core (runCtx s i.core) x) (if x.isLong then some (runCtx s i.core) else none) s

theorem wordBegun_begun (i : Issue) (x : Isi) (s : State) : Begun (runIx s i.core) s (wordBegun i x s) := startIssue_begun ..

theorem issue_wordBegun (h : Ready s i x) (hBlock : x.isBlock = false) : issue i x run s =
    .next (finish i x (run (runCtx s i.core) (wordBegun i x s)) (wordBegun i x s)) := by
  obtain ⟨hFree, hFetch, hCond, -, hStop⟩ := h
  have hRuns : ¬ (x.isLong && stopsWithin i.core (wordTurns i.core (runCtx s i.core) x) s) = true := by
    rw [Bool.and_eq_true]
    rintro ⟨hLong, hCut⟩
    rw [hStop hLong] at hCut
    cases hCut
  rw [issue_free hFree, hBlock, Bool.not_false, Bool.and_true, hFetch]
  exact congrArg _ ((if_pos hCond).trans (if_neg hRuns))

theorem differs_wordBegun (h : Ready s i x) : differs (wordBegun i x s) i x = false := by
  obtain ⟨-, -, -, hAgree, -⟩ := h
  rw [differs_begun (wordBegun_begun i x s), hAgree]

/-- A word whose effect is a new context and what follows it. -/
theorem issue_fin {c : Ctx} {post : State → State} (h : Ready s i x) (hBlock : x.isBlock = false)
    (hRun : run (runCtx s i.core) (wordBegun i x s) = .fin c post) : issue i x run s =
    .next (post (setCtx (runIx s i.core) (advance none c) (fetched i x (wordBegun i x s)))) := by
  rw [issue_wordBegun h hBlock, hRun, ← (wordBegun_begun i x s).runIx]
  exact congrArg _ (if_neg (by rw [differs_wordBegun h]; decide))

theorem ctx_completes {w : Instr} {c : Ctx} (hExec : exec w s = issue i x run s) (h : Ready s i x) (hBlock : x.isBlock = false)
    (hRun : run (runCtx s i.core) (wordBegun i x s) = .fin c id) :
    Completes w s (fun u => runCtx u i.core = advance none c ∧ RestKept s u i.core) :=
  ⟨_, hExec.trans (issue_fin h hBlock hRun), setCtx_rest (begun_fetched (wordBegun_begun i x s) x) _⟩

/-- The special registers and where the core goes on do not depend on the general registers and PSW. -/
theorem advance_regs (g : Vector Word 16) (p : Word) (c : Ctx) :
    SpecKept c (advance none { c with g := g, psw := p }) ∧ Stepped c (advance none { c with g := g, psw := p }) :=
  ⟨(advance_keeps none _).2.2, stepped_advance { c with g := g, psw := p }⟩

theorem psw_advance (branch : Option (Word × Bool)) (c : Ctx) : (advance branch c).psw = c.psw := (advance_keeps branch c).2.1

/-! ### Results and their flags (R239) -/

theorem aluFlags_flags (r : Word) (c v : Option Bool) (p : Word) :
    aluFlags (aluOf r c v) p &&& 0x0FFFFFFF = p &&& 0x0FFFFFFF ∧ pswN (aluFlags (aluOf r c v) p) = r.msb ∧
    pswZ (aluFlags (aluOf r c v) p) = decide (r = 0) ∧ pswC (aluFlags (aluOf r c v) p) = c.getD (pswC p) ∧
    pswV (aluFlags (aluOf r c v) p) = v.getD (pswV p) := by
  cases c <;> cases v <;>
    simp only [aluFlags, aluOf, pswN, pswZ, pswC, pswV, pswSet_status, getLsbD_pswSet, Nat.reduceLT, Nat.reduceLeDiff, Nat.reduceEqDiff,
      if_true, if_false, Option.getD, and_self]

/-- A result `r` and the C and V that follow it, under a PSW whose flags stay where the result gives none. -/
def AluGives (p : Word) (a : Alu) (r : Word) (c v : Bool) : Prop :=
  ∃ co vo, a = aluOf r co vo ∧ co.getD (pswC p) = c ∧ vo.getD (pswV p) = v

/-- The flags that a word writes: those of its result where S = 1. -/
theorem AluGives.flags {x y : Ctx} {sf : Bool} {a : Alu} {r : Word} {c v : Bool} (h : AluGives x.psw a r c v)
    (hPsw : y.psw = if sf then aluFlags a x.psw else x.psw) : FlagsAre sf x y r c v := by
  obtain ⟨co, vo, rfl, rfl, rfl⟩ := h
  obtain ⟨hStatus, hN, hZ, hC, hV⟩ := aluFlags_flags r co vo x.psw
  cases sf with
  | false => exact ⟨congrArg (· &&& 0x0FFFFFFF) hPsw, hPsw⟩
  | true =>
    rw [if_pos rfl] at hPsw
    rw [FlagsAre, StatusKept, hPsw]
    exact ⟨hStatus, hN, hZ, hC, hV⟩

theorem AluGives.res {p : Word} {a : Alu} {r : Word} {c v : Bool} (h : AluGives p a r c v) : a.res = r := by
  obtain ⟨co, vo, rfl, -, -⟩ := h
  rfl

section
variable {w : Instr} {f : Ctx → Ctx} {sf : Bool} {rd ra rb : Reg} {a : Alu} {r : Word} {c v : Bool}

/-- A word that writes rd and PSW. -/
theorem reg_completes {p : Word} (hExec : exec w s = issue i x run s) (h : Ready s i x) (hBlock : x.isBlock = false)
    (hRun : run (runCtx s i.core) (wordBegun i x s) = .fin (setG rd r { runCtx s i.core with psw := p }) id) :
    Completes w s (fun u =>
      gr (runCtx u i.core) rd = r ∧ (runCtx u i.core).psw = p ∧ Frame1 s u i.core [rd]) := by
  obtain ⟨u, hNext, hCtx, hRest⟩ := ctx_completes hExec h hBlock hRun
  obtain ⟨hSpec, hStep⟩ := advance_regs (setG rd r (runCtx s i.core)).g p (runCtx s i.core)
  refine ⟨u, hNext, ?_, ?_, fun g hg => ?_, hCtx ▸ hSpec, hCtx ▸ hStep, hRest⟩
  · rw [hCtx, gr_advance, gr_setG_self]
  · rw [hCtx, psw_advance]
    rfl
  · rw [hCtx, gr_advance, gr_setG_ne (fun h => hg (List.mem_singleton.mpr h))]
    rfl

/-- A word that writes PSW alone. -/
theorem psw_completes {p : Word} (hExec : exec w s = issue i x run s) (h : Ready s i x) (hBlock : x.isBlock = false)
    (hRun : run (runCtx s i.core) (wordBegun i x s) = .fin { runCtx s i.core with psw := p } id) :
    Completes w s (fun u => (runCtx u i.core).psw = p ∧ Frame1 s u i.core []) := by
  obtain ⟨u, hNext, hCtx, hRest⟩ := ctx_completes hExec h hBlock hRun
  obtain ⟨hSpec, hStep⟩ := advance_regs (runCtx s i.core).g p (runCtx s i.core)
  refine ⟨u, hNext, ?_, fun g _ => ?_, hCtx ▸ hSpec, hCtx ▸ hStep, hRest⟩
  · rw [hCtx, psw_advance]
  · rw [hCtx, gr_advance]
    rfl

theorem wrAlu_completes (h : Ready s i x) (hBlock : x.isBlock = false) (hExec : exec w s = coreRow i x f s)
    (hf : f (runCtx s i.core) = wrAlu sf rd a (runCtx s i.core)) (hGives : AluGives (runCtx s i.core).psw a r c v) :
    Completes w s (fun u => Wrote s u i sf rd r c v) := by
  obtain ⟨u, hNext, hReg, hPsw, hFrame⟩ := reg_completes hExec h hBlock (congrArg (Result.fin · id) hf)
  exact ⟨u, hNext, hReg.trans hGives.res, hGives.flags hPsw, hFrame⟩

theorem wrFlags_completes (h : Ready s i x) (hBlock : x.isBlock = false) (hExec : exec w s = coreRow i x f s)
    (hf : f (runCtx s i.core) = wrFlags a (runCtx s i.core)) (hGives : AluGives (runCtx s i.core).psw a r c v) :
    Completes w s (fun u => Compared s u i r c v) := by
  obtain ⟨u, hNext, hPsw, hFrame⟩ := psw_completes hExec h hBlock (congrArg (Result.fin · id) hf)
  exact ⟨u, hNext, hGives.flags hPsw, hFrame⟩

theorem rRow_completes {fn : RFn} {f : Bool → Word → Word → Alu} (hExec : exec w s = rRow i fn sf rd ra rb f s)
    (h : Ready s i (.r fn sf rd ra rb)) (hGives : AluGives (runCtx s i.core).psw
      (f (pswC (runCtx s i.core).psw) (gr (runCtx s i.core) ra) (gr (runCtx s i.core) rb)) r c v) :
    Completes w s (fun u => Wrote s u i sf rd r c v) := wrAlu_completes h rfl hExec rfl hGives

theorem iRow_completes {fn : IFn} {imm : BitVec 11} {f : Word → Alu} (hExec : exec w s = iRow i fn sf rd ra imm f s)
    (h : Ready s i (.i fn sf rd ra imm)) (hGives : AluGives (runCtx s i.core).psw (f (gr (runCtx s i.core) ra)) r c v) :
    Completes w s (fun u => Wrote s u i sf rd r c v) := wrAlu_completes h rfl hExec rfl hGives

end

end

/-- A logical result or a move leaves C and V (R239). -/
theorem logicAlu_gives (p r : Word) : AluGives p (logicAlu r) r (pswC p) (pswV p) := ⟨none, none, rfl, rfl, rfl⟩

theorem logicAlu_gives_of {r' r : Word} (h : r' = r) (p : Word) : AluGives p (logicAlu r') r (pswC p) (pswV p) :=
  h ▸ logicAlu_gives p r'

/-! ### Sums and differences (R239) -/

theorem overflows_eq (t : Int) : overflows t = decide (¬Fits t) := by
  unfold overflows
  congr 1
  exact propext (by rw [not_and_or, not_le, not_le])

theorem addAlu_gives (p a b : Word) (ci : Bool) : AluGives p (addAlu a b ci) (a + b + BitVec.ofNat 32 ci.toNat)
    (decide (2 ^ 32 ≤ a.toNat + b.toNat + ci.toNat)) (decide (¬Fits (a.toInt + b.toInt + ci.toNat))) := by
  refine ⟨some _, some _, ?_, rfl, congrArg (fun o => (some o).getD (pswV p)) (overflows_eq _)⟩
  rw [addAlu, BitVec.ofNat_add, BitVec.ofNat_add, BitVec.ofNat_toNat, BitVec.ofNat_toNat, BitVec.setWidth_eq, BitVec.setWidth_eq]
  rfl

theorem addAlu_gives_noCarry (p a b : Word) : AluGives p (addAlu a b false) (a + b) (decide (2 ^ 32 ≤ a.toNat + b.toNat))
    (decide (¬Fits (a.toInt + b.toInt))) := by
  simpa using addAlu_gives p a b false

theorem subAlu_gives (p a b : Word) (bi : Bool) : AluGives p (subAlu a b bi) (a - b - BitVec.ofNat 32 bi.toNat)
    (decide (b.toNat + bi.toNat ≤ a.toNat)) (decide (¬Fits (a.toInt - b.toInt - bi.toNat))) :=
  ⟨_, _, rfl, rfl, congrArg (fun o => (some o).getD (pswV p)) (overflows_eq _)⟩

theorem subAlu_gives_noBorrow (p a b : Word) : AluGives p (subAlu a b false) (a - b) (decide (b.toNat ≤ a.toNat))
    (decide (¬Fits (a.toInt - b.toInt))) := by
  simpa using subAlu_gives p a b false

/-! ### Immediates (R238) -/

theorem toInt_simm (imm : BitVec 11) : (simm imm).toInt = imm.toInt := BitVec.toInt_signExtend_of_le (by decide)

theorem addAlu_gives_simm (p a : Word) (imm : BitVec 11) : AluGives p (addAlu a (simm imm) false)
    (a + BitVec.ofInt 32 imm.toInt) (decide (2 ^ 32 ≤ a.toNat + (BitVec.ofInt 32 imm.toInt).toNat))
    (decide (¬Fits (a.toInt + imm.toInt))) := by
  have hAdd := addAlu_gives_noCarry p a (simm imm)
  rw [toInt_simm] at hAdd
  exact hAdd

theorem subAlu_gives_simm (p a : Word) (imm : BitVec 11) : AluGives p (subAlu a (simm imm) false)
    (a - BitVec.ofInt 32 imm.toInt) (decide ((BitVec.ofInt 32 imm.toInt).toNat ≤ a.toNat))
    (decide (¬Fits (a.toInt - imm.toInt))) := by
  have hSub := subAlu_gives_noBorrow p a (simm imm)
  rw [toInt_simm] at hSub
  exact hSub

theorem uimm_eq (imm : BitVec 11) : uimm imm = BitVec.ofNat 32 imm.toNat := (BitVec.ofNat_toNat ..).symm

/-! ### Counts and orders of bits (R260) -/

/-- Below its highest one a word has no leading zeros. -/
theorem clzFrom_eq (a : Word) {k : Nat} (hk : a.toNat < 2 ^ k) :
    clzFrom a k = if a = 0 then k else k - 1 - a.toNat.log2 := by
  induction k with
  | zero =>
    have hZero : a = 0 := BitVec.eq_of_toNat_eq (by simpa using hk)
    rw [if_pos hZero, clzFrom]
  | succ k ih =>
    rw [clzFrom]
    by_cases hBit : a.toNat < 2 ^ k
    · have hClear : a.getLsbD k = false := Nat.testBit_lt_two_pow hBit
      rw [hClear, ih hBit]
      by_cases hZero : a = 0
      · simp only [hZero, if_true, Bool.false_eq_true, if_false, Nat.add_comm]
      · have hNat : a.toNat ≠ 0 := fun h => hZero (BitVec.eq_of_toNat_eq h)
        have hLog := (Nat.log2_lt hNat).mpr hBit
        simp only [hZero, Bool.false_eq_true, if_false]
        omega
    · have hNat : a.toNat ≠ 0 := fun h => hBit (h ▸ Nat.two_pow_pos k)
      have hLow := (Nat.le_log2 hNat).mpr (not_lt.mp hBit)
      have hHigh := (Nat.log2_lt hNat).mpr hk
      have hSet : a.getLsbD k = true := Nat.testBit_of_two_pow_le_and_two_pow_add_one_gt (not_lt.mp hBit) hk
      rw [hSet, if_pos rfl, if_neg (fun h => hNat (congrArg BitVec.toNat h))]
      omega

theorem clzOf_eq (a : Word) : clzOf a = BitVec.ofNat 32 (if a = 0 then 32 else 31 - a.toNat.log2) := by
  rw [clzOf, clzFrom_eq a a.isLt]

theorem toNat_append_add {m n : Nat} (x : BitVec m) (y : BitVec n) : (x ++ y).toNat = 2 ^ n * x.toNat + y.toNat := by
  rw [BitVec.toNat_append, Nat.shiftLeft_eq, Nat.mul_comm, Nat.two_pow_add_eq_or_of_lt y.isLt]

theorem revOf_eq (a : Word) : revOf a = BitVec.ofNat 32 (ofLe (le 4 a.toNat).reverse) := by
  have hBound := a.isLt
  apply BitVec.eq_of_toNat_eq
  simp only [revOf, toNat_append_add, BitVec.extractLsb'_toNat, Nat.shiftRight_eq_div_pow, le, List.reverse_cons, List.reverse_nil,
    List.nil_append, List.cons_append, ofLe, BitVec.toNat_ofNat, Nat.div_div_eq_div_mul, Nat.reduceMul, Nat.reducePow,
    Nat.div_one]
  omega

theorem movnWord (w : BitVec 16) : ~~~(w.setWidth 32) = BitVec.ofNat 32 (2 ^ 32 - 1 - w.toNat) := by
  have hBound := w.isLt
  apply BitVec.eq_of_toNat_eq
  rw [BitVec.toNat_not, BitVec.toNat_setWidth, BitVec.toNat_ofNat]
  omega

theorem movhiWord (w : BitVec 16) (d : Word) :
    w ++ d.extractLsb' 0 16 = BitVec.ofNat 32 (2 ^ 16 * w.toNat + d.toNat % 2 ^ 16) := by
  have hBound := w.isLt
  apply BitVec.eq_of_toNat_eq
  rw [toNat_append_add, BitVec.extractLsb'_toNat, BitVec.toNat_ofNat, Nat.shiftRight_zero]
  omega

/-! ### The rows of the words -/

section
variable {s : State} {i : Issue} {sf : Bool} {rd ra rb : Reg} {imm : BitVec 11} {w : BitVec 16}

theorem exec_add : exec (.add i sf rd ra rb) s = rRow i .add sf rd ra rb (fun _ a b => addAlu a b false) s := rfl

theorem exec_adc : exec (.adc i sf rd ra rb) s = rRow i .adc sf rd ra rb (fun ci a b => addAlu a b ci) s := rfl

theorem exec_sub : exec (.sub i sf rd ra rb) s = rRow i .sub sf rd ra rb (fun _ a b => subAlu a b false) s := rfl

theorem exec_sbc : exec (.sbc i sf rd ra rb) s = rRow i .sbc sf rd ra rb (fun ci a b => subAlu a b (!ci)) s := rfl

theorem exec_andR : exec (.andR i sf rd ra rb) s = rRow i .and sf rd ra rb (fun _ a b => logicAlu (a &&& b)) s := rfl

theorem exec_orR : exec (.orR i sf rd ra rb) s = rRow i .or sf rd ra rb (fun _ a b => logicAlu (a ||| b)) s := rfl

theorem exec_xorR : exec (.xorR i sf rd ra rb) s = rRow i .xor sf rd ra rb (fun _ a b => logicAlu (a ^^^ b)) s := rfl

theorem exec_andn : exec (.andn i sf rd ra rb) s = rRow i .andn sf rd ra rb (fun _ a b => logicAlu (a &&& ~~~b)) s := rfl

theorem exec_mov : exec (.mov i sf rd rb) s = rRow i .mov sf rd 0 rb (fun _ _ b => logicAlu b) s := rfl

theorem exec_mvn : exec (.mvn i sf rd rb) s = rRow i .mvn sf rd 0 rb (fun _ _ b => logicAlu (~~~b)) s := rfl

theorem exec_cmp : exec (.cmp i ra rb) s =
    coreRow i (.r .cmp true 0 ra rb) (fun c => wrFlags (subAlu (gr c ra) (gr c rb) false) c) s := rfl

theorem exec_tst : exec (.tst i ra rb) s =
    coreRow i (.r .tst true 0 ra rb) (fun c => wrFlags (logicAlu (gr c ra &&& gr c rb)) c) s := rfl

theorem exec_clz : exec (.clz i sf rd ra) s = rRow i .clz sf rd ra 0 (fun _ a _ => logicAlu (clzOf a)) s := rfl

theorem exec_rev : exec (.rev i sf rd ra) s = rRow i .rev sf rd ra 0 (fun _ a _ => logicAlu (revOf a)) s := rfl

theorem exec_sxb : exec (.sxb i sf rd ra) s =
    rRow i .sxb sf rd ra 0 (fun _ a _ => logicAlu ((a.setWidth 8).signExtend 32)) s := rfl

theorem exec_sxh : exec (.sxh i sf rd ra) s =
    rRow i .sxh sf rd ra 0 (fun _ a _ => logicAlu ((a.setWidth 16).signExtend 32)) s := rfl

theorem exec_addi : exec (.addi i sf rd ra imm) s = iRow i .add sf rd ra imm (fun a => addAlu a (simm imm) false) s := rfl

theorem exec_subi : exec (.subi i sf rd ra imm) s = iRow i .sub sf rd ra imm (fun a => subAlu a (simm imm) false) s := rfl

theorem exec_andi : exec (.andi i sf rd ra imm) s = iRow i .and sf rd ra imm (fun a => logicAlu (a &&& uimm imm)) s := rfl

theorem exec_ori : exec (.ori i sf rd ra imm) s = iRow i .or sf rd ra imm (fun a => logicAlu (a ||| uimm imm)) s := rfl

theorem exec_xori : exec (.xori i sf rd ra imm) s = iRow i .xor sf rd ra imm (fun a => logicAlu (a ^^^ uimm imm)) s := rfl

theorem exec_cmpi : exec (.cmpi i ra imm) s =
    coreRow i (.i .cmp true 0 ra imm) (fun c => wrFlags (subAlu (gr c ra) (simm imm) false) c) s := rfl

theorem exec_tsti : exec (.tsti i ra imm) s =
    coreRow i (.i .tst true 0 ra imm) (fun c => wrFlags (logicAlu (gr c ra &&& uimm imm)) c) s := rfl

theorem exec_movi : exec (.movi i rd w) s = coreRow i (.w .movi rd w) (setG rd (w.setWidth 32)) s := rfl

theorem exec_movn : exec (.movn i rd w) s = coreRow i (.w .movn rd w) (setG rd (~~~(w.setWidth 32))) s := rfl

theorem exec_movhi : exec (.movhi i rd w) s =
    coreRow i (.w .movhi rd w) (fun c => setG rd (w ++ (gr c rd).extractLsb' 0 16) c) s := rfl

theorem exec_lsl : exec (.lsl i sf rd ra rb) s = rRow i .lsl sf rd ra rb (fun _ a b => lslAlu a (bitsOf b 7 0)) s := rfl

theorem exec_lsr : exec (.lsr i sf rd ra rb) s = rRow i .lsr sf rd ra rb (fun _ a b => lsrAlu a (bitsOf b 7 0)) s := rfl

theorem exec_asr : exec (.asr i sf rd ra rb) s = rRow i .asr sf rd ra rb (fun _ a b => asrAlu a (bitsOf b 7 0)) s := rfl

theorem exec_ror : exec (.ror i sf rd ra rb) s = rRow i .ror sf rd ra rb (fun _ a b => rorAlu a (bitsOf b 7 0)) s := rfl

theorem exec_lsli : exec (.lsli i sf rd ra imm) s = iRow i .lsl sf rd ra imm (fun a => lslAlu a (shimm imm)) s := rfl

theorem exec_lsri : exec (.lsri i sf rd ra imm) s = iRow i .lsr sf rd ra imm (fun a => lsrAlu a (shimm imm)) s := rfl

theorem exec_asri : exec (.asri i sf rd ra imm) s = iRow i .asr sf rd ra imm (fun a => asrAlu a (shimm imm)) s := rfl

theorem exec_rori : exec (.rori i sf rd ra imm) s = iRow i .ror sf rd ra imm (fun a => rorAlu a (shimm imm)) s := rfl

theorem exec_neg : exec (.neg i sf rd rb) s = coreRow i (.r .neg sf rd 0 rb) (fun c => negCtx sf rd (gr c rb) c) s := rfl

end


end Sys2Proof.Machine
end

section
open Sys2Proof Sys2Proof.Machine

/-- Settles O33: each word takes its effect through the row of its format, and its result and flags are those of a sum, a
difference or a logical result. -/
theorem registerArithmetic : Obligations.RegisterArithmetic := by
  unfold Obligations.RegisterArithmetic
  constructor
  · rintro s i sf rd ra rb _ _ _ _ rfl rfl rfl rfl
    exact ⟨fun h => rRow_completes exec_add h (addAlu_gives_noCarry ..), fun h => rRow_completes exec_adc h (addAlu_gives ..),
      fun h => rRow_completes exec_sub h (subAlu_gives_noBorrow ..), fun h => rRow_completes exec_sbc h (subAlu_gives ..),
      fun h => rRow_completes exec_andR h (logicAlu_gives ..), fun h => rRow_completes exec_orR h (logicAlu_gives ..),
      fun h => rRow_completes exec_xorR h (logicAlu_gives ..), fun h => rRow_completes exec_andn h (logicAlu_gives ..),
      fun h => wrAlu_completes h rfl exec_mul rfl (logicAlu_gives ..), fun h => rRow_completes exec_mov h (logicAlu_gives ..),
      fun h => rRow_completes exec_mvn h (logicAlu_gives ..),
      fun h => wrFlags_completes h rfl exec_cmp rfl (subAlu_gives_noBorrow ..),
      fun h => wrFlags_completes h rfl exec_tst rfl (logicAlu_gives ..),
      fun h => rRow_completes exec_clz h (logicAlu_gives_of (clzOf_eq _) _),
      fun h => rRow_completes exec_rev h (logicAlu_gives_of (revOf_eq _) _),
      fun h => rRow_completes exec_sxb h (logicAlu_gives_of (congrArg (BitVec.signExtend 32) (BitVec.ofNat_toNat ..).symm) _),
      fun h => rRow_completes exec_sxh h (logicAlu_gives_of (congrArg (BitVec.signExtend 32) (BitVec.ofNat_toNat ..).symm) _)⟩
  · rintro s i sf rd ra imm w _ _ _ _ rfl rfl rfl rfl
    rw [← uimm_eq]
    exact ⟨fun h => iRow_completes exec_addi h (addAlu_gives_simm ..),
      fun h => iRow_completes exec_subi h (subAlu_gives_simm ..), fun h => iRow_completes exec_andi h (logicAlu_gives ..),
      fun h => iRow_completes exec_ori h (logicAlu_gives ..), fun h => iRow_completes exec_xori h (logicAlu_gives ..),
      fun h => wrFlags_completes h rfl exec_cmpi rfl (subAlu_gives_simm ..),
      fun h => wrFlags_completes h rfl exec_tsti rfl (logicAlu_gives ..),
      fun h => wrAlu_completes h rfl exec_movi rfl (logicAlu_gives_of (BitVec.ofNat_toNat ..).symm _),
      fun h => wrAlu_completes h rfl exec_movn rfl (logicAlu_gives_of (movnWord w) _),
      fun h => wrAlu_completes h rfl exec_movhi rfl (logicAlu_gives_of (movhiWord w _) _)⟩

end

section
namespace Sys2Proof.Machine

/-! ### Shifts and rotates (R240) -/

theorem lslAlu_gives (p a : Word) (n : Nat) : AluGives p (lslAlu a n) (a <<< n)
    (if n = 0 then pswC p else decide (n ≤ 32) && a.getLsbD (32 - n)) (pswV p) := by
  unfold lslAlu
  split
  · next hZero =>
    subst hZero
    exact ⟨none, none, by rw [BitVec.shiftLeft_zero], rfl, rfl⟩
  · split
    · next hLow => exact ⟨some _, none, rfl, by rw [decide_eq_true hLow, Bool.true_and]; rfl, rfl⟩
    · next hHigh =>
      exact ⟨some _, none, by rw [BitVec.shiftLeft_eq_zero (by omega)]; rfl, by rw [decide_eq_false hHigh, Bool.false_and]; rfl, rfl⟩

theorem lsrAlu_gives (p a : Word) (n : Nat) : AluGives p (lsrAlu a n) (a >>> n)
    (if n = 0 then pswC p else a.getLsbD (n - 1)) (pswV p) := by
  unfold lsrAlu
  split
  · next hZero =>
    subst hZero
    exact ⟨none, none, by rw [BitVec.ushiftRight_zero], rfl, rfl⟩
  · split
    · exact ⟨some _, none, rfl, rfl, rfl⟩
    · exact ⟨some _, none, by rw [BitVec.ushiftRight_eq_zero (by omega)]; rfl, (BitVec.getLsbD_of_ge _ _ (by omega)).symm, rfl⟩

/-- A word shifted out to the right holds its sign alone. -/
theorem sshiftRight_signs (a : Word) {n : Nat} (hn : 32 ≤ n) : a.sshiftRight n = if a.msb then 0xFFFFFFFF else 0 := by
  apply BitVec.eq_of_getLsbD_eq
  intro j hj
  rw [BitVec.getLsbD_sshiftRight, if_neg (by omega), decide_eq_false (by omega), Bool.not_false, Bool.true_and]
  cases a.msb with
  | false => simp
  | true => exact (by decide : ∀ j : Fin 32, true = (0xFFFFFFFF : Word).getLsbD j.val) ⟨j, hj⟩

theorem asrAlu_gives (p a : Word) (n : Nat) : AluGives p (asrAlu a n) (a.sshiftRight n)
    (if n = 0 then pswC p else a.getLsbD (min (n - 1) 31)) (pswV p) := by
  unfold asrAlu
  split
  · next hZero =>
    subst hZero
    exact ⟨none, none, by rw [BitVec.sshiftRight_zero], rfl, rfl⟩
  · split
    · exact ⟨some _, none, rfl, by rw [Nat.min_eq_left (by omega)]; rfl, rfl⟩
    · refine ⟨some _, none, by rw [sshiftRight_signs a (by omega)], ?_, rfl⟩
      rw [Nat.min_eq_right (by omega), Option.getD_some, BitVec.msb_eq_getLsbD_last]

theorem rorAlu_gives (p a : Word) (n : Nat) : AluGives p (rorAlu a n) (a.rotateRight (n % 32))
    (if n = 0 then pswC p else (a.rotateRight (n % 32)).msb) (pswV p) := by
  unfold rorAlu
  split
  · next hZero =>
    subst hZero
    have hSame : a.rotateRight (0 % 32) = a := by simp [BitVec.rotateRight_def]
    exact ⟨none, none, by rw [hSame], rfl, rfl⟩
  · exact ⟨some _, none, rfl, rfl, rfl⟩

/-- A shift count of an immediate (R240). -/
theorem shimm_eq (imm : BitVec 11) : shimm imm = imm.toNat % 256 := by
  have hBound := imm.isLt
  rw [shimm, bitsOf, uimm, BitVec.toNat_setWidth]
  omega

end Sys2Proof.Machine
end

section
open Sys2Proof Sys2Proof.Machine

/-- Settles O34: each shift takes its effect through the row of its format, with a count of 0, of up to 32 or of more. -/
theorem shiftsAndRotates : Obligations.ShiftsAndRotates := by
  unfold Obligations.ShiftsAndRotates
  rintro s i sf rd ra rb imm _ _ _ rfl rfl rfl
  constructor <;> rintro _ rfl
  · exact ⟨fun h => rRow_completes exec_lsl h (lslAlu_gives ..), fun h => rRow_completes exec_lsr h (lsrAlu_gives ..),
      fun h => rRow_completes exec_asr h (asrAlu_gives ..), fun h => rRow_completes exec_ror h (rorAlu_gives ..)⟩
  · rw [← shimm_eq]
    exact ⟨fun h => iRow_completes exec_lsli h (lslAlu_gives ..), fun h => iRow_completes exec_lsri h (lsrAlu_gives ..),
      fun h => iRow_completes exec_asri h (asrAlu_gives ..), fun h => iRow_completes exec_rori h (rorAlu_gives ..)⟩

end

section
namespace Sys2Proof.Machine

/-! ### NEG (R241) -/

/-- PSW after NEG: its overflow sets V whatever S holds. -/
def negPsw (sf : Bool) (b p : Word) : Word :=
  let q := if sf then aluFlags (subAlu 0 b false) p else p
  if b = 0x80000000 then pswSet 28 true q else q

theorem negCtx_eq (sf : Bool) (rd : Reg) (b : Word) (c : Ctx) :
    negCtx sf rd b c = setG rd (0 - b) { c with psw := negPsw sf b c.psw } := by
  have hRes : (subAlu 0 b false).res = 0 - b := (subAlu_gives_noBorrow c.psw 0 b).res
  unfold negCtx negPsw wrAlu
  rw [hRes]
  by_cases hMin : b = 0x80000000
  · simp only [if_pos hMin]
    rfl
  · simp only [if_neg hMin]

/-- Only the least value has no negative of 32 bits. -/
theorem neg_fits (b : Word) : Fits ((0 : Word).toInt - b.toInt) ↔ b ≠ 0x80000000 := by
  have hMin : b = 0x80000000 ↔ b.toInt = -2147483648 := BitVec.toInt_inj.symm
  have hLow : -2 ^ 31 ≤ b.toInt := BitVec.le_toInt b
  have hHigh : b.toInt < 2 ^ 31 := BitVec.toInt_lt
  have hZero : (0 : Word).toInt = 0 := rfl
  rw [ne_eq, hMin, hZero]
  omega

theorem zero_sub_eq_zero (b : Word) : (0 - b = 0) ↔ b = 0 := by
  rw [sub_eq_zero]
  exact eq_comm

theorem negPsw_flags (sf : Bool) (b p : Word) : negPsw sf b p &&& 0x0FFFFFFF = p &&& 0x0FFFFFFF ∧
    pswV (negPsw sf b p) = (if b = 0x80000000 then true else if sf then false else pswV p) ∧
    pswN (negPsw sf b p) = (if sf then (0 - b).msb else pswN p) ∧
    pswZ (negPsw sf b p) = (if sf then decide (b = 0) else pswZ p) ∧
    pswC (negPsw sf b p) = (if sf then decide (b = 0) else pswC p) := by
  have hKept : ∀ q : Word, pswSet 28 true q &&& 0x0FFFFFFF = q &&& 0x0FFFFFFF ∧ pswV (pswSet 28 true q) = true ∧
      pswN (pswSet 28 true q) = pswN q ∧ pswZ (pswSet 28 true q) = pswZ q ∧ pswC (pswSet 28 true q) = pswC q := fun q =>
    ⟨pswSet_status (by decide) (by decide) true q, getLsbD_pswSet (by decide) .., getLsbD_pswSet (by decide) ..,
      getLsbD_pswSet (by decide) .., getLsbD_pswSet (by decide) ..⟩
  obtain ⟨co, vo, hAlu, hC, hV⟩ := subAlu_gives_noBorrow p 0 b
  obtain ⟨hStatus, hN, hZ, hC', hV'⟩ := aluFlags_flags (0 - b) co vo p
  rw [← hAlu] at hStatus hN hZ hC' hV'
  have hBorrow : decide (b.toNat ≤ (0 : Word).toNat) = decide (b = 0) :=
    decide_eq_decide.mpr ⟨fun h => BitVec.eq_of_toNat_eq (Nat.le_zero.mp h), fun h => h ▸ le_refl _⟩
  rw [hC, hBorrow] at hC'
  rw [hV] at hV'
  simp only [zero_sub_eq_zero] at hZ
  unfold negPsw
  obtain ⟨hSet, hSetV, hSetN, hSetZ, hSetC⟩ := hKept (if sf then aluFlags (subAlu 0 b false) p else p)
  cases sf with
  | false =>
    by_cases hMin : b = 0x80000000
    · simp only [if_pos hMin]
      exact ⟨hSet, hSetV, hSetN, hSetZ, hSetC⟩
    · simp only [if_neg hMin]
      exact ⟨rfl, rfl, rfl, rfl, rfl⟩
  | true =>
    by_cases hMin : b = 0x80000000
    · simp only [if_pos hMin]
      exact ⟨hSet.trans hStatus, hSetV, hSetN.trans hN, hSetZ.trans hZ, hSetC.trans hC'⟩
    · simp only [if_neg hMin]
      exact ⟨hStatus, hV'.trans (decide_eq_false (not_not.mpr ((neg_fits b).mpr hMin))), hN, hZ, hC'⟩

theorem neg_completes {s : State} {i : Issue} {sf : Bool} {rd rb : Reg} (h : Ready s i (.r .neg sf rd 0 rb)) :
    Completes (.neg i sf rd rb) s (fun u =>
      gr (runCtx u i.core) rd = 0 - gr (runCtx s i.core) rb ∧
      (runCtx u i.core).psw = negPsw sf (gr (runCtx s i.core) rb) (runCtx s i.core).psw ∧ Frame1 s u i.core [rd]) :=
  reg_completes exec_neg h rfl (congrArg (Result.fin · id) (negCtx_eq ..))

/-! ### Quotients (R241, R242) -/

theorem divPsw_flags (sf ovf : Bool) (q p : Word) : divPsw sf ovf false q p &&& 0x0FFFFFFF = p &&& 0x0FFFFFFF ∧
    pswV (divPsw sf ovf false q p) = (if ovf then true else if sf then false else pswV p) ∧
    pswN (divPsw sf ovf false q p) = (if sf then q.msb else pswN p) ∧
    pswZ (divPsw sf ovf false q p) = (if sf then decide (q = 0) else pswZ p) ∧ pswC (divPsw sf ovf false q p) = pswC p := by
  cases sf <;> cases ovf <;>
    simp only [divPsw, pswN, pswZ, pswC, pswV, pswSet_status, getLsbD_pswSet, Nat.reduceLT, Nat.reduceLeDiff, Nat.reduceEqDiff, if_true,
      if_false, Bool.false_eq_true, and_self]

section
variable {s : State} {i : Issue} {sf : Bool} {rd ra rb : Reg}

/-- A division by a divisor that is not 0 completes: its quotient and its remainder are in the pair, and its flags in PSW. -/
theorem quotient_completes {fn : RFn} {ovf : Bool} {q r : Word} {w : Instr} {f : Ctx → Ctx} (h : Ready s i (.r fn sf rd ra rb))
    (hb : gr (runCtx s i.core) rb ≠ 0) (hExec : exec w s = divRow i (.r fn sf rd ra rb) rb f s)
    (hf : f (runCtx s i.core) = divPair sf ovf false rd q r (runCtx s i.core)) : Completes w s (fun u =>
      gr (runCtx u i.core) rd = q ∧ gr (runCtx u i.core) (rd + 1) = r ∧
      Frame1 s u i.core [rd, rd + 1] ∧ StatusKept (runCtx s i.core) (runCtx u i.core) ∧
      pswV (runCtx u i.core).psw = (if ovf then true else if sf then false else pswV (runCtx s i.core).psw) ∧
      pswN (runCtx u i.core).psw = (if sf then q.msb else pswN (runCtx s i.core).psw) ∧
      pswZ (runCtx u i.core).psw = (if sf then decide (q = 0) else pswZ (runCtx s i.core).psw) ∧
      pswC (runCtx u i.core).psw = pswC (runCtx s i.core).psw) := by
  have hRun : (if gr (runCtx s i.core) rb = 0 ∧ (runCtx s i.core).psw.getLsbD 7 then Result.trap 4 0 0 id
      else .fin (f (runCtx s i.core)) id) = .fin (pairCtx rd q r (divPsw sf ovf false q (runCtx s i.core).psw) (runCtx s i.core)) id := by
    rw [if_neg (fun hTrap => hb hTrap.1), hf, divPair_eq]
  obtain ⟨u, hIssue, hLow, hHigh, hPsw, hFrame⟩ := pair_completes (run := fun c _ => if gr c rb = 0 ∧ c.psw.getLsbD 7
    then .trap 4 0 0 id else .fin (f c) id) h rfl (fun _ => hRun)
  refine ⟨u, hExec.trans hIssue, hLow, hHigh, hFrame, ?_⟩
  rw [StatusKept, hPsw]
  exact divPsw_flags ..

end

/-- A quotient is not of 32 bits where the least value is divided by -1, and only there. -/
theorem sdiv_toInt {a b : Word} (h : ¬ (a = 0x80000000 ∧ b = 0xFFFFFFFF)) : (a.sdiv b).toInt = a.toInt.tdiv b.toInt :=
  BitVec.toInt_sdiv_of_ne_or_ne a b (not_and_or.mp h)

theorem fits_toInt (w : Word) : Fits w.toInt := by
  have hLow : -2 ^ 31 ≤ w.toInt := BitVec.le_toInt w
  have hHigh : w.toInt < 2 ^ 31 := BitVec.toInt_lt
  constructor <;> omega

theorem divS_eq (sf : Bool) (rd : Reg) (a : Word) {b : Word} (hb : b ≠ 0) (c : Ctx) : divS sf rd a b c =
    divPair sf (decide (¬Fits (a.toInt.tdiv b.toInt))) false rd (BitVec.ofInt 32 (a.toInt.tdiv b.toInt))
      (BitVec.ofInt 32 (a.toInt.tmod b.toInt)) c := by
  rw [divS, if_neg hb]
  split
  · next hMin =>
    obtain ⟨rfl, rfl⟩ := hMin
    rfl
  · next hMin =>
    rw [← sdiv_toInt hMin, ← BitVec.toInt_srem, BitVec.ofInt_toInt, BitVec.ofInt_toInt,
      decide_eq_false (not_not.mpr (fits_toInt _))]

theorem quotient_zero (a b : Word) : BitVec.ofInt 32 (a.toInt.tdiv b.toInt) = 0 ↔ a.toInt.tdiv b.toInt = 0 := by
  by_cases hMin : a = 0x80000000 ∧ b = 0xFFFFFFFF
  · obtain ⟨rfl, rfl⟩ := hMin
    decide
  · rw [← sdiv_toInt hMin, BitVec.ofInt_toInt, ← BitVec.toInt_inj]
    rfl

theorem divU_eq (sf : Bool) (rd : Reg) (a : Word) {b : Word} (hb : b ≠ 0) (c : Ctx) : divU sf rd a b c =
    divPair sf false false rd (BitVec.ofNat 32 (a.toNat / b.toNat)) (BitVec.ofNat 32 (a.toNat % b.toNat)) c := by
  rw [divU, if_neg hb, BitVec.udiv_def, BitVec.umod_def]

theorem uquotient_zero (a b : Word) : BitVec.ofNat 32 (a.toNat / b.toNat) = 0 ↔ a.toNat / b.toNat = 0 := by
  rw [← BitVec.udiv_def, ← BitVec.toNat_inj, BitVec.toNat_udiv]
  rfl

end Sys2Proof.Machine
end

section
open Sys2Proof Sys2Proof.Machine

/-- Settles O35: NEG writes a difference and its own V; a quotient is written to its register pair as one context. -/
theorem negateAndDivide : Obligations.NegateAndDivide := by
  unfold Obligations.NegateAndDivide
  rintro s i sf rd ra rb x a b rfl rfl rfl
  refine ⟨fun h => ?_, fun h hb => ?_, fun h hb => ?_⟩
  · obtain ⟨u, hNext, hReg, hPsw, hFrame⟩ := neg_completes h
    refine ⟨u, hNext, hReg, hFrame, ?_⟩
    rw [StatusKept, hPsw]
    exact negPsw_flags ..
  · have hDone := quotient_completes h hb exec_div (divS_eq sf rd _ hb _)
    simpa only [decide_eq_true_eq, quotient_zero] using hDone
  · have hDone := quotient_completes h hb exec_divu (divU_eq sf rd _ hb _)
    simpa only [Bool.false_eq_true, if_false, uquotient_zero] using hDone

end

section
namespace Sys2Proof.Machine

/-! ### Where a word may stand (R250, R258, R271) -/

theorem legal_of_fetch {i : Issue} {c : Ctx} {legal : Bool} (h : fetchTrap i c legal = none) : legal = true := by
  cases legal with
  | true => rfl
  | false =>
    unfold fetchTrap at h
    split at h
    · cases h
    · split at h <;> cases h

theorem legal_of_ready {s : State} {i : Issue} {x : Isi} (h : Ready s i x) : legalHere i.core (runCtx s i.core) x = true := by
  obtain ⟨-, hFetch, -⟩ := h
  exact legal_of_fetch hFetch

theorem isiLegal_of_legal {k : CoreId} {c : Ctx} {x : Isi} (h : legalHere k c x = true) : x.legal = true := by
  simp only [legalHere, Bool.and_eq_true] at h
  obtain ⟨⟨⟨hLegal, -⟩, -⟩, -⟩ := h
  exact hLegal

theorem slot_of_legal {k : CoreId} {c : Ctx} {x : Isi} (h : legalHere k c x = true) (hBanned : x.slotBanned = true) :
    c.slot = false := by
  simp only [legalHere, hBanned, Bool.and_true, Bool.and_eq_true, Bool.not_eq_true'] at h
  obtain ⟨⟨-, hSlot⟩, -⟩ := h
  exact hSlot

theorem lend_of_legal {k : CoreId} {c : Ctx} {x : Isi} (h : legalHere k c x = true) (hBanned : x.lendBanned = true) :
    ¬ (c.pc = c.lend ∧ c.lcount ≠ 0) := by
  rintro ⟨hEnd, hCount⟩
  simp only [legalHere, hBanned, hEnd, hCount, decide_true, Bool.and_self, Bool.not_true, Bool.and_false, ne_eq,
    not_false_eq_true, Bool.false_eq_true] at h

/-- The word after one that is no delay slot, and does not end a pass of the hardware loop. -/
theorem advance_straight {c : Ctx} (hSlot : c.slot = false) (hEnd : ¬ (c.pc = c.lend ∧ c.lcount ≠ 0))
    (branch : Option (Word × Bool)) : (advance branch c).pc = c.pc + 4 ∧
    (advance branch c).npc = branch.elim (c.pc + 8) (fun t => t.1) ∧ (advance branch c).slot = branch.isSome := by
  have hNext : enpcOf c = c.pc + 4 := if_neg (by rw [hSlot]; exact Bool.false_ne_true)
  unfold advance loopEnd
  dsimp only
  rw [hNext, if_neg hEnd]
  exact ⟨rfl, by rw [add_assoc]; rfl, rfl⟩

/-! ### Branches and jumps (R248, R249, R268) -/

/-- A branch that resolves changes the branch-target buffer of its own core alone. -/
theorem btbResolve_begun (c : CoreId) (k : Nat) (pc : Word) (target : Option Word) (s : State) :
    Begun k s (btbResolve c k pc target s) := by
  unfold btbResolve
  split
  · refine ⟨fun q _ => reg_updCore .., updCore_mem .., fun j hj => core_updCore_ne _ _ _ hj, fun j => ?_⟩
    by_cases hj : j = k
    · rw [hj, core_updCore_self]
      dsimp only
      split <;> rfl
    · rw [core_updCore_ne _ _ _ hj]
  · exact ⟨fun _ _ => rfl, rfl, fun _ _ => rfl, fun _ => rfl⟩

section
variable {s : State} {i : Issue} {x : Isi} {run : Ctx → State → Result}

/-- A new context of the core, and then no more than what a word's begin may change. -/
theorem setCtx_begun {f v : State} {y : Ctx} (h : Begun (runIx s i.core) s f)
    (hv : Begun (runIx s i.core) (setCtx (runIx s i.core) y f) v) : runCtx v i.core = y ∧ RestKept s v i.core := by
  have hSet := setCtx_rest h y
  have hIx : runIx (setCtx (runIx s i.core) y f) i.core = runIx s i.core :=
    runIx_of_reg (fun n _ => (reg_updCore ..).trans (h.pairing n)) i.core
  generalize setCtx (runIx s i.core) y f = u at hv hSet hIx
  obtain ⟨hCtx, hMem, hReg, hCore⟩ := hSet
  rw [← hIx] at hv
  exact ⟨(hv.runCtx i.core).trans hCtx, hv.mem.trans hMem, fun q hq => (hv.regs q hq).trans (hReg q hq),
    fun j hj => (hv.others j (fun hEq => hj (hEq.trans hIx))).trans (hCore j hj)⟩

/-- A branch or a jump whose condition holds: its slot follows, and then its target. -/
theorem jump_completes {w : Instr} {g : Vector Word 16} {target : Word} (hExec : exec w s = issue i x run s) (h : Ready s i x)
    (hBlock : x.isBlock = false) (hSlotBan : x.slotBanned = true) (hEndBan : x.lendBanned = true)
    (hRun : run (runCtx s i.core) (wordBegun i x s) = .jump { runCtx s i.core with g := g } target) :
    Completes w s (fun u => (runCtx u i.core).pc = (runCtx s i.core).pc + 4 ∧ (runCtx u i.core).npc = target ∧
      (runCtx u i.core).slot = true ∧ (runCtx u i.core).psw = (runCtx s i.core).psw ∧ (runCtx u i.core).g = g ∧
      SpecKept (runCtx s i.core) (runCtx u i.core) ∧ RestKept s u i.core) := by
  have hBegun := wordBegun_begun i x s
  have hLegal := legal_of_ready h
  obtain ⟨hPc, hNpc, hSlot⟩ := advance_straight (c := { runCtx s i.core with g := g }) (slot_of_legal hLegal hSlotBan)
    (lend_of_legal hLegal hEndBan) (some (target, true))
  obtain ⟨hG, hPsw, hSpec⟩ := advance_keeps (some (target, true)) { runCtx s i.core with g := g }
  have hIssue : issue i x run s = .next (btbResolve i.core (runIx s i.core) (core (wordBegun i x s) (runIx s i.core)).ctx.pc
      (some target) (setCtx (runIx s i.core) (advance (some (target, true)) { runCtx s i.core with g := g })
        (fetched i x (wordBegun i x s)))) := by
    rw [issue_wordBegun h hBlock, hRun, ← hBegun.runIx]
    exact congrArg _ (if_neg (by rw [differs_wordBegun h]; decide))
  obtain ⟨hCtx, hRest⟩ := setCtx_begun (begun_fetched hBegun x) (btbResolve_begun i.core _
    (core (wordBegun i x s) (runIx s i.core)).ctx.pc (some target) _)
  refine ⟨_, hExec.trans hIssue, ?_⟩
  beta_reduce
  rw [hCtx]
  exact ⟨hPc, hNpc, hSlot, hPsw, hG, hSpec, hRest⟩

/-- A branch whose condition does not hold: its slot follows, and then the word after it (R248). -/
theorem untaken_completes {w : Instr} (hExec : exec w s = issue i x run s) (hFree : Free s i)
    (hFetch : fetchTrap i (runCtx s i.core) (legalHere i.core (runCtx s i.core) x) = none)
    (hCond : condHolds (runCtx s i.core).psw i.cond = false) (hAgree : differs s i x = false) (hBlock : x.isBlock = false)
    (hBranch : x.isBranch = true) (hSlotBan : x.slotBanned = true) (hEndBan : x.lendBanned = true) :
    Completes w s (fun u => (runCtx u i.core).pc = (runCtx s i.core).pc + 4 ∧
      (runCtx u i.core).npc = (runCtx s i.core).pc + 8 ∧ (runCtx u i.core).slot = true ∧
      (runCtx u i.core).g = (runCtx s i.core).g) := by
  have hBegun := startIssue_begun i 1 none s
  have hLegal := legal_of_fetch hFetch
  obtain ⟨hPc, hNpc, hSlot⟩ := advance_straight (slot_of_legal hLegal hSlotBan) (lend_of_legal hLegal hEndBan)
    (some ((runCtx s i.core).pc + 8, false))
  obtain ⟨hG, -, -⟩ := advance_keeps (some ((runCtx s i.core).pc + 8, false)) (runCtx s i.core)
  have hIssue : issue i x run s = .next (skip i x (startIssue i 1 none s)) := by
    rw [issue_free hFree, hBlock, Bool.not_false, Bool.and_true, hFetch]
    exact congrArg _ (if_neg (by rw [hCond]; exact Bool.false_ne_true))
  have hSkip : skip i x (startIssue i 1 none s) = btbResolve i.core (runIx s i.core) (runCtx s i.core).pc none
      (setCtx (runIx s i.core) (advance (some ((runCtx s i.core).pc + 8, false)) (runCtx s i.core))
        (fetched i x (startIssue i 1 none s))) := by
    unfold skip
    dsimp only
    rw [if_pos hBranch, hBegun.runIx, hBegun.ctx]
    exact if_neg (by rw [differs_begun hBegun, hAgree]; decide)
  obtain ⟨hCtx, -⟩ := setCtx_begun (begun_fetched hBegun x) (btbResolve_begun i.core _ (runCtx s i.core).pc none _)
  refine ⟨_, hExec.trans (hIssue.trans (congrArg _ hSkip)), ?_⟩
  beta_reduce
  rw [hCtx]
  exact ⟨hPc, hNpc, hSlot, hG⟩

end

/-! ### The exception of a word, whatever it shows (R219, R272) -/

theorem trapIn_atEntry {i : Issue} {t : State} {cause : Nat} (x : Isi) (detail : Nat) (bad : Word) (hAgreed : Agreed t i)
    (hCause : cause < 256) (hEcc : cause ≠ 7) (hCore : isThread i.core = false) :
    AtEntry t (trapIn i x cause detail bad t) (runIx t i.core) cause := by
  have hEntry : AtEntry t (raiseExc i.core cause detail bad t) (runIx t i.core) cause := by
    cases hc : i.core with
    | thread n th =>
      rw [hc] at hCore
      cases hCore
    | lane n y => exact coreEntry_atEntry hCause ..
    | cp => exact coreEntry_atEntry hCause ..
  rw [trapIn_agreed hAgreed hEcc]
  dsimp only
  split <;> split
  · exact hEntry.second.noPrev
  · exact hEntry.noPrev
  · exact hEntry.second
  · exact hEntry

section
variable {s t : State} {i : Issue} {cause : Nat}

theorem trapIn_enters (x : Isi) (detail : Nat) (bad : Word) (hBegun : Begun (runIx s i.core) s t) (hAgreed : Agreed s i)
    (hCause : cause < 6) : Entered s (trapIn i x cause detail bad t) i.core cause := by
  have hAgreed' : Agreed t i := by rw [Agreed, hBegun.compared, hAgreed]
  refine Entered.of_begun hBegun ?_
  cases hCore : i.core with
  | thread n th =>
    rw [trapIn_agreed hAgreed' (by omega), hCore]
    simp only [isLane, Bool.and_false, Bool.false_eq_true, if_false]
    exact threadFault_entered hCause n th bad t
  | lane n y =>
    have hThread : isThread i.core = false := by rw [hCore]; rfl
    exact hCore ▸ (trapIn_atEntry x detail bad hAgreed' (by omega) (by omega) hThread).entered hThread
  | cp =>
    have hThread : isThread i.core = false := by rw [hCore]; rfl
    exact hCore ▸ (trapIn_atEntry x detail bad hAgreed' (by omega) (by omega) hThread).entered hThread

theorem finish_trapIn (x : Isi) (detail : Nat) (bad : Word) (hBegun : Begun (runIx s i.core) s t) (hAgreed : Agreed s i) :
    finish i x (.trap cause detail bad id) t = trapIn i x cause detail bad t := by
  have hAgree : (compared t i.core && !i.agree) = false := by rw [hBegun.compared, hAgreed]
  unfold finish
  rw [hAgree]
  rfl

/-- A word that raises an exception of its own, with what it shows of it. -/
theorem exception_completes {w : Instr} {x : Isi} {detail : Nat} {bad : Word} {run : Ctx → State → Result}
    (hExec : exec w s = issue i x run s) (h : Ready s i x) (hBlock : x.isBlock = false) (hAgreed : Agreed s i)
    (hCause : cause < 6) (hRun : run (runCtx s i.core) (wordBegun i x s) = .trap cause detail bad id) :
    Completes w s (fun u => Entered s u i.core cause) := by
  have hIssue := issue_wordBegun (run := run) h hBlock
  rw [hRun, finish_trapIn x detail bad (wordBegun_begun i x s) hAgreed] at hIssue
  exact ⟨_, hExec.trans hIssue, trapIn_enters x detail bad (wordBegun_begun i x s) hAgreed hCause⟩

end

/-! ### The branches of the instruction set -/

theorem branchOffset (off : BitVec 24) : off.signExtend 32 <<< 2 = BitVec.ofInt 32 (4 * off.toInt) := by
  rw [BitVec.ofInt_mul, BitVec.shiftLeft_eq_mul_twoPow, mul_comm]
  rfl

theorem jumpTo_aligned {t : Word} (h : t.toNat % 4 = 0) (c : Ctx) : jumpTo t c = .jump c t := if_neg (not_not.mpr h)

theorem jumpTo_unaligned {t : Word} (h : t.toNat % 4 ≠ 0) (c : Ctx) : jumpTo t c = .trap 3 0 t id := if_pos h

section
variable {s : State} {i : Issue} {off : BitVec 24} {rd ra : Reg}

theorem exec_b : exec (.b i off) s = issue i (.br false off) (fun c _ => .jump c (brTarget c off)) s := rfl

theorem exec_bl : exec (.bl i off) s =
    issue i (.br true off) (fun c _ => .jump (setG 15 (c.pc + 8) c) (brTarget c off)) s := rfl

theorem exec_jr : exec (.jr i ra) s = issue i (.jr ra) (fun c _ => jumpTo (gr c ra) c) s := rfl

theorem exec_jlr : exec (.jlr i rd ra) s =
    issue i (.jlr rd ra) (fun c _ => jumpTo (gr c ra) (setG rd (c.pc + 8) c)) s := rfl

theorem gr_of_g {x y : Ctx} (h : y.g = x.g) (g : Reg) : gr y g = gr x g := by rw [gr, gr, h]

/-- The link value, and the registers but the link register. -/
theorem linked {x y : Ctx} {rd : Reg} {v : Word} (h : y.g = (setG rd v x).g) : gr y rd = v ∧ RegsKept x y [rd] :=
  ⟨(gr_of_g h rd).trans (gr_setG_self ..), fun g hg =>
    (gr_of_g h g).trans (gr_setG_ne (fun hEq => hg (List.mem_singleton.mpr hEq)) ..)⟩

end

end Sys2Proof.Machine
end

section
open Sys2Proof Sys2Proof.Machine

/-- Settles O40: a branch that is taken, one that is not, and a jump to an address that is no word's. -/
theorem branches : Obligations.Branches := by
  unfold Obligations.Branches
  rintro s i off rd ra x rfl
  refine ⟨fun h => ?_, fun h => ?_, fun h hWord => ?_, fun h hWord => ?_, fun h hAgreed hOdd => ?_, fun h hAgreed hOdd => ?_,
    fun link hFree hFetch hCond hAgree => ?_⟩
  · rw [← branchOffset]
    obtain ⟨u, hNext, hPc, hNpc, hSlot, hPsw, hG, hSpec, hRest⟩ := jump_completes exec_b h rfl rfl rfl rfl
    exact ⟨u, hNext, hPc, hNpc, hSlot, hPsw, fun g _ => gr_of_g hG g, hSpec, hRest⟩
  · rw [← branchOffset]
    obtain ⟨u, hNext, hPc, hNpc, hSlot, hPsw, hG, hSpec, hRest⟩ := jump_completes exec_bl h rfl rfl rfl rfl
    obtain ⟨hLink, hRegs⟩ := linked hG
    exact ⟨u, hNext, hPc, hNpc, hSlot, hLink, hPsw, hRegs, hSpec, hRest⟩
  · obtain ⟨u, hNext, hPc, hNpc, hSlot, hPsw, hG, hSpec, hRest⟩ :=
      jump_completes exec_jr h rfl rfl rfl (jumpTo_aligned hWord _)
    exact ⟨u, hNext, hPc, hNpc, hSlot, hPsw, fun g _ => gr_of_g hG g, hSpec, hRest⟩
  · obtain ⟨u, hNext, hPc, hNpc, hSlot, hPsw, hG, hSpec, hRest⟩ :=
      jump_completes exec_jlr h rfl rfl rfl (jumpTo_aligned hWord _)
    obtain ⟨hLink, hRegs⟩ := linked hG
    exact ⟨u, hNext, hPc, hNpc, hSlot, hLink, hPsw, hRegs, hSpec, hRest⟩
  · exact exception_completes exec_jr h rfl hAgreed (by decide) (jumpTo_unaligned hOdd _)
  · exact exception_completes exec_jlr h rfl hAgreed (by decide) (jumpTo_unaligned hOdd _)
  · have hExec : exec (if link then .bl i off else .b i off) s = issue i (.br link off)
        (fun c _ => .jump (if link then setG 15 (c.pc + 8) c else c) (brTarget c off)) s := by
      cases link
      · exact exec_b
      · exact exec_bl
    obtain ⟨u, hNext, hPc, hNpc, hSlot, hG⟩ := untaken_completes hExec hFree hFetch hCond hAgree rfl rfl rfl rfl
    exact ⟨u, hNext, hPc, hNpc, hSlot, fun g _ => gr_of_g hG g⟩

end

section
namespace Sys2Proof.Machine

/-! ### PC and NPC set outright (R257, R276) -/

section
variable {s : State} {i : Issue} {x : Isi} {run : Ctx → State → Result}

theorem place_completes {w : Instr} {ret : Bool} {c : Ctx} {pc npc : Word} (hExec : exec w s = issue i x run s)
    (h : Ready s i x) (hBlock : x.isBlock = false)
    (hRun : run (runCtx s i.core) (wordBegun i x s) = .place ret c pc npc) :
    Completes w s (fun u => runCtx u i.core = placeCtx ret pc npc c ∧ RestKept s u i.core) := by
  have hIssue : issue i x run s = .next (setCtx (runIx s i.core) (placeCtx ret pc npc c) (fetched i x (wordBegun i x s))) := by
    rw [issue_wordBegun h hBlock, hRun, ← (wordBegun_begun i x s).runIx]
    exact congrArg _ (if_neg (by rw [differs_wordBegun h]; decide))
  exact ⟨_, hExec.trans hIssue, setCtx_rest (begun_fetched (wordBegun_begun i x s) x) _⟩

end

/-! ### The hardware loop (R257) -/

/-- The registers of the hardware loop after LOOP. -/
def loopCtx (rc : Reg) (off : BitVec 12) (c : Ctx) : Ctx :=
  { c with lstart := c.pc + 4, lend := c.pc + (off.setWidth 32 <<< 2), lcount := gr c rc }

theorem exec_loop {s : State} {i : Issue} {rc : Reg} {off : BitVec 12} : exec (.loop i rc off) s =
    issue i (.loop rc off) (fun c _ => if gr c rc = 0
      then .place false (loopCtx rc off c) ((loopCtx rc off c).lend + 4) ((loopCtx rc off c).lend + 8)
      else .fin (loopCtx rc off c) id) s := rfl

theorem loopOffset (off : BitVec 12) : off.setWidth 32 <<< 2 = BitVec.ofNat 32 (4 * off.toNat) := by
  have hBound := off.isLt
  apply BitVec.eq_of_toNat_eq
  rw [BitVec.toNat_shiftLeft, BitVec.toNat_setWidth, BitVec.toNat_ofNat, Nat.shiftLeft_eq]
  omega

/-- LOOP does not stand at the end of the loop that it begins. -/
theorem loopCtx_end (rc : Reg) {off : BitVec 12} (hOff : off ≠ 0) (c : Ctx) : (loopCtx rc off c).pc ≠ (loopCtx rc off c).lend := by
  have hBound := off.isLt
  have hNat : off.toNat ≠ 0 := fun h => hOff (BitVec.eq_of_toNat_eq h)
  show c.pc ≠ c.pc + (off.setWidth 32 <<< 2)
  rw [loopOffset, ne_eq, left_eq_add]
  intro hZero
  have hWrap : 4 * off.toNat % 2 ^ 32 = 0 := (BitVec.toNat_ofNat ..).symm.trans (congrArg BitVec.toNat hZero)
  omega

theorem loop_completes {s : State} {i : Issue} {rc : Reg} {off : BitVec 12} (h : Ready s i (.loop rc off)) :
    Completes (.loop i rc off) s (fun u =>
      (runCtx u i.core).lstart = (runCtx s i.core).pc + 4 ∧
      (runCtx u i.core).lend = (runCtx s i.core).pc + (off.setWidth 32 <<< 2) ∧
      (runCtx u i.core).lcount = gr (runCtx s i.core) rc ∧
      (runCtx u i.core).pc = (if gr (runCtx s i.core) rc = 0 then (runCtx s i.core).pc + (off.setWidth 32 <<< 2) + 4
        else (runCtx s i.core).pc + 4) ∧
      (runCtx u i.core).psw = (runCtx s i.core).psw ∧ RegsKept (runCtx s i.core) (runCtx u i.core) [] ∧ RestKept s u i.core) := by
  have hLegal := legal_of_ready h
  by_cases hCount : gr (runCtx s i.core) rc = 0
  · obtain ⟨u, hNext, hCtx, hRest⟩ := place_completes exec_loop h rfl (if_pos hCount)
    refine ⟨u, hNext, ?_⟩
    beta_reduce
    rw [hCtx, if_pos hCount]
    exact ⟨rfl, rfl, rfl, rfl, rfl, fun _ _ => rfl, hRest⟩
  · obtain ⟨u, hNext, hCtx, hRest⟩ := ctx_completes exec_loop h rfl (if_neg hCount)
    have hEnd := loopCtx_end rc (of_decide_eq_true (isiLegal_of_legal hLegal)) (runCtx s i.core)
    have hSlot : (loopCtx rc off (runCtx s i.core)).slot = false :=
      slot_of_legal (c := runCtx s i.core) hLegal rfl
    obtain ⟨hPc, -, -⟩ := advance_straight hSlot (hEnd ·.1) none
    obtain ⟨hG, hPsw, -, -, -, -, hStart, hLend⟩ := advance_keeps none (loopCtx rc off (runCtx s i.core))
    obtain ⟨hPass, -⟩ := stepped_advance (loopCtx rc off (runCtx s i.core))
    obtain ⟨-, -, hLcount⟩ := hPass (.inl hEnd)
    refine ⟨u, hNext, ?_⟩
    beta_reduce
    rw [hCtx, if_neg hCount]
    exact ⟨hStart, hLend, hLcount, hPc, hPsw, fun g _ => gr_of_g hG g, hRest⟩

/-! ### Repeat prefixes (R251–R253) -/

theorem touchLine_begun (k : Nat) (c : CoreId) (pc : Word) (s : State) : Begun k s (touchLine c pc s) := by
  unfold touchLine
  split
  · exact ⟨fun _ _ => rfl, rfl, fun _ _ => rfl, fun _ => rfl⟩
  · dsimp only
    split <;> exact ⟨fun _ _ => rfl, rfl, fun _ _ => rfl, fun _ => rfl⟩

/-- The state of a thread is none of what its instructions run in. -/
theorem runCtx_setF_thrState (n t v : Nat) (s : State) (c : CoreId) :
    runCtx (setF (fThrState n t) v s) c = runCtx s c := by
  have hIx : runIx (setF (fThrState n t) v s) c = runIx s c :=
    runIx_of_reg (fun m _ => reg_setF_ne _ _ _ (by simp only [fThrState, fld, winK]; omega)) c
  rw [runCtx, hIx, core_setF, runCtx]

theorem unpark_keeps (k c : CoreId) (s : State) : runCtx (unpark k s) c = runCtx s c ∧ (unpark k s).mem = s.mem := by
  unfold unpark
  cases k with
  | thread n t =>
    dsimp only
    split
    · exact ⟨runCtx_setF_thrState .., setF_mem ..⟩
    · exact ⟨rfl, rfl⟩
  | lane n x => exact ⟨rfl, rfl⟩
  | cp => exact ⟨rfl, rfl⟩

theorem loopEnd_unit (taken : Bool) (last : Word) (c : Ctx) : (loopEnd taken last c).unit = c.unit := by
  unfold loopEnd
  dsimp only
  split
  · split <;> rfl
  · rfl

/-- The context after a unit that ends: the word after it follows, unless the unit ends a pass of the hardware loop. -/
theorem unitDone_fields (c : Ctx) : (unitDone c).g = c.g ∧ (unitDone c).psw = c.psw ∧ (unitDone c).unit = none ∧
    (c.pc + 4 ≠ c.lend ∨ c.lcount = 0 → (unitDone c).pc = c.pc + 8) := by
  unfold unitDone
  obtain ⟨hG, hPsw, -⟩ := loopEnd_keeps false (c.pc + 4) { c with
    pc := c.pc + 8, npc := c.pc + 12, slot := false, begun := false, left := 0, unit := none, parked := false, entry := false }
  refine ⟨hG, hPsw, loopEnd_unit .., fun hNo => ?_⟩
  unfold loopEnd
  rw [if_neg (by rintro ⟨hEnd, hCount⟩; exact hNo.elim (absurd hEnd) (absurd · hCount))]

/-- The context of a unit that is armed at its REP or REPL. -/
def armedCtx (l park : Bool) (rc : Reg) (next : Word) (c : Ctx) : Ctx :=
  { c with unit := some { word := next, rc := rc, left := if l then 64 else 0 }, begun := true, left := 0, parked := park,
           entry := false }

section
variable {s t : State} {i : Issue} {rc : Reg} {next : Word}

/-- A REP or REPL whose condition holds, with a count: its unit is armed. -/
theorem repBegin_arms (hBegun : Begun (runIx s i.core) s t) (l : Bool) (hFirst : (runCtx s i.core).begun = false)
    (hCond : condHolds (runCtx s i.core).psw i.cond = true) (hCount : gr (runCtx s i.core) rc ≠ 0) :
    runCtx (repBegin i l rc next t) i.core = armedCtx l (parks i.core (runCtx s i.core) next) rc next (runCtx s i.core) ∧
    (repBegin i l rc next t).mem = s.mem := by
  have hLine := hBegun.trans (touchLine_begun (runIx s i.core) i.core (runCtx s i.core).pc t)
  obtain ⟨hCtx, hMem, -⟩ := setCtx_rest hLine
    (armedCtx l (parks i.core (runCtx s i.core) next) rc next (runCtx s i.core))
  have hNot : ¬ (!(runCtx s i.core).begun && !condHolds (runCtx s i.core).psw i.cond || decide (gr (runCtx s i.core) rc = 0)) = true := by
    simpa [hCond] using hCount
  have hSame : (core t (runIx s i.core)).ctx = runCtx s i.core := hBegun.ctx _
  have hUnit : repBegin i l rc next t = (if parks i.core (runCtx s i.core) next
      then setF (fThrState (coreCl i.core) (coreIx i.core % 16)) 2 (setCtx (runIx s i.core)
        (armedCtx l (parks i.core (runCtx s i.core) next) rc next (runCtx s i.core)) (touchLine i.core (runCtx s i.core).pc t))
      else unpark i.core (setCtx (runIx s i.core)
        (armedCtx l (parks i.core (runCtx s i.core) next) rc next (runCtx s i.core)) (touchLine i.core (runCtx s i.core).pc t))) := by
    unfold repBegin
    dsimp only
    rw [hBegun.runIx, hSame, if_neg hNot, hFirst]
    cases l <;> rfl
  rw [hUnit]
  split
  · rw [runCtx_setF_thrState]
    exact ⟨hCtx, hMem⟩
  · obtain ⟨hUnpark, hUnparkMem⟩ := unpark_keeps i.core i.core (setCtx (runIx s i.core)
      (armedCtx l (parks i.core (runCtx s i.core) next) rc next (runCtx s i.core)) (touchLine i.core (runCtx s i.core).pc t))
    exact ⟨hUnpark.trans hCtx, hUnparkMem.trans hMem⟩

/-- A REP or REPL whose condition does not hold, or whose count is 0: its unit is passed over. -/
theorem repBegin_passes (hBegun : Begun (runIx s i.core) s t) (l : Bool) (hFirst : (runCtx s i.core).begun = false)
    (hNone : condHolds (runCtx s i.core).psw i.cond = false ∨ gr (runCtx s i.core) rc = 0) :
    runCtx (repBegin i l rc next t) i.core = unitDone (runCtx s i.core) ∧ (repBegin i l rc next t).mem = s.mem := by
  have hLine := hBegun.trans (touchLine_begun (runIx s i.core) i.core (runCtx s i.core).pc t)
  obtain ⟨hCtx, hMem, -⟩ := setCtx_rest hLine (unitDone (runCtx s i.core))
  have hPass : (!(runCtx s i.core).begun && !condHolds (runCtx s i.core).psw i.cond || decide (gr (runCtx s i.core) rc = 0)) = true := by
    simpa [hFirst] using hNone
  have hSame : (core t (runIx s i.core)).ctx = runCtx s i.core := hBegun.ctx _
  have hDone : repBegin i l rc next t = unpark i.core (setCtx (runIx s i.core) (unitDone (runCtx s i.core))
      (touchLine i.core (runCtx s i.core).pc t)) := by
    unfold repBegin
    dsimp only
    rw [hBegun.runIx, hSame, if_pos hPass]
  obtain ⟨hUnpark, hUnparkMem⟩ := unpark_keeps i.core i.core (setCtx (runIx s i.core) (unitDone (runCtx s i.core))
    (touchLine i.core (runCtx s i.core).pc t))
  rw [hDone]
  exact ⟨hUnpark.trans hCtx, hUnparkMem.trans hMem⟩

theorem fetchTrap_none {i : Issue} {c : Ctx} (hFetch : fetchOk i.core c.pc.toNat = true) (hEcc : i.eccFetch = false) :
    fetchTrap i c true = none := by
  simp [fetchTrap, hFetch, hEcc]

/-- A REP or REPL that may stand where it is begins its unit. -/
theorem repRow_begins (l : Bool) (hFree : Free s i) (hFetch : fetchOk i.core (runCtx s i.core).pc.toNat = true)
    (hNext : fetchOk i.core ((runCtx s i.core).pc + 4).toNat = true) (hEcc : i.eccFetch = false)
    (hSlot : (runCtx s i.core).slot = false) (hEnd : (runCtx s i.core).pc ≠ (runCtx s i.core).lend)
    (hOk : repOk rc next = true) : repRow i l rc next s = .next (repBegin i l rc next (startIssue i 1 none s)) := by
  obtain ⟨hIssue, hUnit, -⟩ := hFree
  have hLegal : (legalHere i.core (runCtx s i.core) (.rep l rc) &&
      decide ((runCtx s i.core).pc ≠ (runCtx s i.core).lend) && repOk rc next) = true := by
    simp [legalHere, Isi.legal, hSlot, hEnd, hOk]
  have hTrap := fetchTrap_none hFetch hEcc
  unfold repRow
  dsimp only
  rw [← runCtx, hLegal, hTrap, hIssue, hUnit, hFetch, hNext]
  rfl

theorem exec_repeat (l : Bool) : exec (if l then .repl i rc next else .rep i rc next) s = repRow i l rc next s := by
  cases l <;> rfl

end

end Sys2Proof.Machine
end

section
open Sys2Proof Sys2Proof.Machine

/-- Settles O42: REP or REPL begins its unit or passes over it, by its condition and its count; LOOP sets the loop registers and,
with a count of 0, goes on after LEND. -/
theorem repeatsAndLoops : Obligations.RepeatsAndLoops := by
  unfold Obligations.RepeatsAndLoops
  rintro s i rc next off x rfl
  refine ⟨fun l hFree hFetch hNext hEcc hSlot hEnd hOk hFirst => ?_, fun h => ?_⟩
  · have hBegun := startIssue_begun i 1 none s
    refine ⟨_, (exec_repeat l).trans (repRow_begins l hFree hFetch hNext hEcc hSlot hEnd hOk), ?_⟩
    beta_reduce
    by_cases hRuns : condHolds (runCtx s i.core).psw i.cond = true ∧ gr (runCtx s i.core) rc ≠ 0
    · obtain ⟨hCond, hCount⟩ := hRuns
      obtain ⟨hCtx, hMem⟩ := repBegin_arms (next := next) hBegun l hFirst hCond hCount
      rw [hCtx, hMem, hCond]
      exact ⟨fun _ _ => ⟨rfl, rfl⟩, fun hNone => hNone.elim nofun (absurd · hCount), rfl, fun _ _ => rfl, rfl⟩
    · have hNone : condHolds (runCtx s i.core).psw i.cond = false ∨ gr (runCtx s i.core) rc = 0 :=
        (not_and_or.mp hRuns).imp Bool.eq_false_of_not_eq_true not_not.mp
      obtain ⟨hCtx, hMem⟩ := repBegin_passes (next := next) hBegun l hFirst hNone
      obtain ⟨hG, hPsw, hUnit, hPc⟩ := unitDone_fields (runCtx s i.core)
      rw [hCtx, hMem]
      exact ⟨fun hCond hCount => absurd ⟨hCond, hCount⟩ hRuns, fun _ => ⟨hUnit, hPc⟩, hPsw, fun g _ => gr_of_g hG g, rfl⟩
  · rw [← loopOffset]
    exact loop_completes h

end

section
namespace Sys2Proof.Machine

/-! ### What presents a request (R379, R380), beside the count of corrected words -/

/-- SCRUB_CORR, and the registers of controller c beyond PEND, which no request is read from: what an occurrence of a source
whose SRC register would be one of them can change is one of them too. -/
def unread (c q : Nat) : Bool := decide (q = fScrubCorr.key) || decide (icK c 0x188 ≤ q ∧ q ≤ icK c 0x2000000)

/-- Two states that agree on all that a request of controller c is read from. -/
structure Twins (c : Nat) (s u : State) : Prop where
  regs : ∀ q, unread c q = false → reg u q = reg s q
  clusters : u.clusters = s.clusters
  cores : u.cores = s.cores
  time : u.time = s.time
  holds : u.holds = s.holds

theorem icK_add (c off : Nat) : icK c off = icK c 0 + off := by
  unfold icK winK
  split <;> omega

theorem unread_iff (c q : Nat) : unread c q = true ↔ q = 0x46000028 ∨ (icK c 0 + 0x188 ≤ q ∧ q ≤ icK c 0 + 0x2000000) := by
  rw [unread, icK_add c 0x188, icK_add c 0x2000000, Bool.or_eq_true, decide_eq_true_eq, decide_eq_true_eq]
  rfl

/-- A register below those of the latches, or beyond them, may be one that a request is read from. -/
theorem not_unread {c q : Nat} (hCount : q ≠ 0x46000028) (h : q < icK c 0 + 0x188 ∨ icK c 0 + 0x2000000 < q) :
    unread c q = false := by
  rw [← Bool.not_eq_true, unread_iff]
  omega

theorem unread_of_icK {c off : Nat} (hLow : 0x188 ≤ off) (hHigh : off ≤ 0x2000000) : unread c (icK c off) = true := by
  rw [unread_iff, icK_add c off]
  omega

/-- Where the registers of a cluster's controller stand. -/
theorem icK_window {c : Nat} (hc : c ≠ 16) : icK c 0 = winK c 0x4000 := if_neg hc

theorem unread_high {c q : Nat} (hq : 0x100000000 ≤ q) (_ : c ≤ 16) : unread c q = false :=
  not_unread (by omega) (.inr (by unfold icK winK; split <;> omega))

theorem unread_window {c off : Nat} (hCp : c ≠ 16) (ho : off < 0x4000) : unread c (winK c off) = false := by
  apply not_unread
  · unfold winK
    omega
  · rw [icK_window hCp]
    unfold winK
    omega

/-- The SRC and PEND registers of the sources of a controller. -/
theorem unread_source {c off : Nat} (_ : c ≤ 16) (ho : off < 0x188) : unread c (icK c off) = false := by
  apply not_unread
  · unfold icK winK
    split <;> omega
  · rw [icK_add c off]
    omega

/-- A source whose SRC register no request is read from is none of a request's. -/
theorem source_of_unread {c k : Nat} (h : unread c (fSrcEn c k).key = true) : 64 ≤ k ∧ k ≤ 0xA000000 := by
  have hKey : (fSrcEn c k).key = icK c 0 + 4 * k := icK_add c (4 * k)
  rw [unread_iff, hKey] at h
  unfold icK winK at h
  split at h <;> omega

/-- An occurrence sets a bit of its turn (R15). -/
def occurrenceBit (f : Fld) (t : Nat) (s : State) : State := if t = now s then flag f s else setF f 1 s

/-- The turn of the first latched occurrence (R386). -/
def latchTurned (t c : Nat) (s : State) : State :=
  if reg s (icK c 0x190) = 0 ∧ reg s (icK c 0x194) = 0
    then setReg (icK c 0x19C) (BitVec.ofNat 32 (t / 2 ^ 32)) (setReg (icK c 0x198) (BitVec.ofNat 32 t) s) else s

namespace Twins

variable {c : Nat} {s t u : State}

theorem refl (s : State) : Twins c s s := ⟨fun _ _ => rfl, rfl, rfl, rfl, rfl⟩

theorem symm (h : Twins c s u) : Twins c u s :=
  ⟨fun q hq => (h.regs q hq).symm, h.clusters.symm, h.cores.symm, h.time.symm, h.holds.symm⟩

theorem trans (h : Twins c s t) (g : Twins c t u) : Twins c s u :=
  ⟨fun q hq => (g.regs q hq).trans (h.regs q hq), g.clusters.trans h.clusters, g.cores.trans h.cores, g.time.trans h.time,
    g.holds.trans h.holds⟩

/-- A register that no request is read from takes any value. -/
theorem unreadSet {k : Nat} (hk : unread c k = true) (w : Word) (s : State) : Twins c s (setReg k w s) :=
  ⟨fun _ hq => reg_setReg_ne w s (fun h => Bool.false_ne_true (hq.symm.trans (h ▸ hk))), rfl, rfl, rfl, rfl⟩

theorem flagged (f : Fld) (s : State) : Twins c (Machine.setF f 1 s) (Machine.flag f s) := ⟨fun _ _ => rfl, rfl, rfl, rfl, rfl⟩

theorem latchTurned (t : Nat) (s : State) : Twins c s (Machine.latchTurned t c s) := by
  unfold Machine.latchTurned
  split
  · exact (unreadSet (unread_of_icK (by decide) (by decide)) _ s).trans (unreadSet (unread_of_icK (by decide) (by decide)) _ _)
  · exact refl s

/-- An occurrence in a register that no request is read from. -/
theorem unreadBit {f : Fld} (hf : unread c f.key = true) (t : Nat) (s : State) : Twins c s (occurrenceBit f t s) := by
  unfold occurrenceBit
  split
  · exact (unreadSet hf _ s).trans (flagged f s)
  · exact unreadSet hf _ s

/-- An occurrence of a source whose SRC register no request is read from. -/
theorem unreadSource {k : Nat} (hk : unread c (fSrcEn c k).key = true) (t : Nat) (s : State) :
    Twins c s (Machine.occurAt t c k s) := by
  obtain ⟨hLow, hHigh⟩ := source_of_unread hk
  have hPend : unread c (fPend c k).key = true := unread_of_icK (by omega) (by omega)
  have hLatch : unread c (fLatch c k).key = true := unread_of_icK (by omega) (by omega)
  unfold Machine.occurAt
  split
  · exact refl s
  · split
    · split
      · exact refl s
      · exact unreadBit hPend t s
    · split
      · exact (latchTurned t s).trans (unreadBit hLatch t _)
      · exact refl s

variable (h : Twins c s u)
include h

theorem getF {f : Fld} (hf : unread c f.key = false) : Machine.getF u f = Machine.getF s f :=
  congrArg (fun w => bitsOf w f.hi f.lo) (h.regs _ hf)

theorem isSet {f : Fld} (hf : unread c f.key = false) : Machine.isSet u f = Machine.isSet s f := by
  rw [Machine.isSet, h.getF hf, Machine.isSet]

theorem now : Machine.now u = Machine.now s := congrArg TimeSt.turn h.time

theorem clus (n : Nat) : Machine.clus u n = Machine.clus s n := by rw [Machine.clus, h.clusters, Machine.clus]

theorem core (i : Nat) : Machine.core u i = Machine.core s i := by rw [Machine.core, h.cores, Machine.core]

theorem setReg (k : Nat) (w : Word) : Twins c (Machine.setReg k w s) (Machine.setReg k w u) := by
  refine ⟨fun q hq => ?_, h.clusters, h.cores, h.time, h.holds⟩
  by_cases hk : q = k
  · rw [hk, reg_setReg_self, reg_setReg_self]
  · rw [reg_setReg_ne _ _ hk, reg_setReg_ne _ _ hk, h.regs q hq]

theorem setF (f : Fld) (v : Nat) : Twins c (Machine.setF f v s) (Machine.setF f v u) := by
  cases hf : unread c f.key with
  | true => exact (unreadSet hf _ s).symm.trans (h.trans (unreadSet hf _ u))
  | false =>
    have hSame := h.setReg f.key (withBits (reg s f.key) f.hi f.lo v)
    rw [← h.regs _ hf] at hSame
    unfold Machine.setF
    rwa [← h.regs _ hf]

theorem flag (f : Fld) : Twins c (Machine.flag f s) (Machine.flag f u) := (flagged f s).symm.trans ((h.setF f 1).trans (flagged f u))

theorem occurrenceBit (f : Fld) (t : Nat) : Twins c (Machine.occurrenceBit f t s) (Machine.occurrenceBit f t u) := by
  unfold Machine.occurrenceBit
  rw [h.now]
  split
  · exact h.flag f
  · exact h.setF f 1

theorem icDark : Machine.icDark u c = Machine.icDark s c := by
  by_cases hc : c < 16
  · have hKey : (fPwr c).key = 0x47000100 + 4 * c := rfl
    have hPwr : unread c (fPwr c).key = false := by
      apply not_unread <;> rw [hKey]
      · omega
      · rw [icK_window (by omega), winK]
        omega
    rw [Machine.icDark, h.getF hPwr, Machine.icDark]
  · simp only [Machine.icDark, hc, false_and]

theorem occurAt (t k : Nat) : Twins c (Machine.occurAt t c k s) (Machine.occurAt t c k u) := by
  cases hk : unread c (fSrcEn c k).key with
  | true => exact (unreadSource hk t s).symm.trans (h.trans (unreadSource hk t u))
  | false =>
    have hLatch := (((latchTurned t s).symm.trans h).trans (latchTurned t u)).occurrenceBit (fLatch c k) t
    unfold Machine.occurAt
    rw [h.isSet hk, h.icDark, h.clus]
    split
    · exact h
    · split
      · split
        · exact h
        · exact h.occurrenceBit (fPend c k) t
      · split
        · exact hLatch
        · exact h

theorem settled : Twins c (icSettle c s) (icSettle c u) := by
  have hClus : ∀ f, Twins c (updClus c f s) (updClus c f u) := fun f =>
    ⟨h.regs, by simp only [updClus, h.clusters, h.clus], h.cores, h.time, h.holds⟩
  have hEach : ∀ (xs : List (Nat × Nat)) (v w : State), Twins c v w →
      Twins c (each xs (fun e => Machine.occurAt e.1 c e.2) v) (each xs (fun e => Machine.occurAt e.1 c e.2) w) := by
    intro xs
    induction xs with
    | nil => exact fun _ _ hv => hv
    | cons e xs ih => exact fun v w hv => ih _ _ (hv.occurAt e.1 e.2)
  unfold icSettle
  rw [h.clus, h.now]
  dsimp only
  split
  · exact h
  · exact hEach _ _ _ (hClus _)

theorem cond (hc : c ≤ 16) (k : Nat) : icCond u c k = icCond s c k := by
  unfold icCond
  split
  · rw [h.regs _ (unread_high (by unfold pageK; omega) hc)]
  · next hCp =>
    have hWin : ∀ off, off < 0x4000 → reg u (winK c off) = reg s (winK c off) := fun off ho =>
      h.regs _ (unread_window hCp ho)
    split
    · rw [hWin 0x20 (by decide)]
    · rw [Bool.eq_iff_iff, List.any_eq_true, List.any_eq_true]
      refine exists_congr (fun i => and_congr_right (fun hi => ?_))
      have hLt := List.mem_range.mp hi
      have hPad : padK (64 * c + i) 0x14 = winK c (0x2000 + 0x40 * i + 0x14) := by
        rw [padK, show (64 * c + i) / 64 = c by omega, show (64 * c + i) % 64 = i by omega]
      rw [padErr, padErr, hPad, hWin _ (by omega)]

theorem pend (hc : c ≤ 16) {k : Nat} (hk : k < 64) : icPend u c k = icPend s c k := by
  have hSrc : unread c (fSrcEn c k).key = false := unread_source hc (by omega)
  have hPend : unread c (fPend c k).key = false := unread_source hc (by omega)
  unfold icPend
  dsimp only
  rw [h.settled.isSet hSrc, h.settled.isSet hPend, h.settled.cond hc]

end Twins

section
variable {s u : State} {k : CoreId}

theorem icOf_le (k : CoreId) : icOf k ≤ 16 := by
  cases k with
  | thread n t => exact n.isLt.le
  | lane n x => exact n.isLt.le
  | cp => exact le_refl _

variable (h : Twins (icOf k) s u)
include h

theorem firstPos_twins {n : ClusterId} {x : Fin 4} (hk : k = .lane n x) (y : Nat) : firstPos u n.val y = firstPos s n.val y := by
  subst hk
  have hUp : reg u (winK n.val 0x150) = reg s (winK n.val 0x150) := h.regs _ (unread_window (c := n.val) n.isLt.ne (by decide))
  rw [firstPos, paired_of_reg hUp, firstPos]

theorem icCore_twins : icCore u k = icCore s k := by
  cases hk : k with
  | thread n t => rfl
  | lane n x => rw [icCore, icCore, firstPos_twins h hk]
  | cp => rfl

theorem eligible_twins {j : Nat} (hj : j < 64) : eligible u k j = eligible s k j := by
  have hc := icOf_le k
  have hSrc : ∀ hi lo, getF u (fld (icK (icOf k) (4 * j)) hi lo) = getF s (fld (icK (icOf k) (4 * j)) hi lo) := fun hi lo =>
    h.getF (unread_source hc (by omega))
  have hEn : isSet u (fSrcEn (icOf k) j) = isSet s (fSrcEn (icOf k) j) := h.isSet (unread_source hc (by omega))
  have hTargets : icTargets u j k = icTargets s j k := by
    have hTarget := hSrc 19 16
    cases hk : k with
    | thread n t =>
      rw [hk] at hTarget
      exact congrArg (fun v => decide (v = t.val)) hTarget
    | lane n x =>
      rw [hk] at hTarget
      simp only [icTargets, firstPos_twins h hk]
      exact congrArg (fun v => decide (12 ≤ v) && decide (firstPos s n.val (v - 12) = firstPos s n.val x.val)) hTarget
    | cp => rfl
  have hMask : icMasked u (icCore s k) j = icMasked s (icCore s k) j := h.isSet (unread_high (by simp only [bit, privK]; omega) hc)
  have hHeld : heldOff u (icOf k) (getF s (fSrcGroup (icOf k) j)) = heldOff s (icOf k) (getF s (fSrcGroup (icOf k) j)) := by
    rw [heldOff, h.now, h.holds, heldOff]
  have hGroup : getF u (fSrcGroup (icOf k) j) = getF s (fSrcGroup (icOf k) j) := hSrc 2 0
  unfold eligible
  dsimp only
  rw [hEn, hTargets, h.pend hc hj, icCore_twins h, hMask, hGroup, hHeld]

/-- The request of a core is read alike in both. -/
theorem presented_twins : presented u k = presented s k := by
  have hc := icOf_le k
  have hBest : ∀ best, ∀ j ∈ List.range 64, icBest u k best j = icBest s k best j := fun best j hj => by
    have hLt := List.mem_range.mp hj
    have hLevel : getF u (fSrcLevel (icOf k) j) = getF s (fSrcLevel (icOf k) j) := h.getF (unread_source hc (by omega))
    unfold icBest
    rw [eligible_twins h hLt, hLevel]
  have hCandidate : candidate u k = candidate s k := List.foldl_ext _ _ none hBest
  have hThr : getF u (fld (privK (icCore s k) 4) 3 0) = getF s (fld (privK (icCore s k) 4) 3 0) :=
    h.getF (unread_high (by simp only [fld, privK]; omega) hc)
  unfold presented
  dsimp only
  rw [hCandidate, icCore_twins h, runPri, h.core, ← runPri, hThr]

end

end Sys2Proof.Machine
end

section
namespace Sys2Proof.Machine

/-! ### NOP, and the words that decode to nothing (R234, R260) -/

theorem encode_nop (cond : BitVec 4) : encode cond .nop = cond ++ (0x8000000 : BitVec 28) := by
  revert cond
  decide

section
variable {s : State} {i : Issue} {x : Isi} {run : Ctx → State → Result}

theorem exec_nop : exec (.nop i 0x8000000) s = issue i .nop (fun c _ => .fin c id) s := by
  have hDecode : decodeWord (i.cond ++ (0x8000000 : BitVec 28)) = some (i.cond, .nop) :=
    (congrArg decodeWord (encode_nop i.cond)).symm.trans (decodeWord_encode i.cond rfl)
  show execNop i 0x8000000 s = _
  rw [execNop, hDecode]

theorem undefined_completes {bits : BitVec 28} (hWord : decodeWord (i.cond ++ bits) = none) (hFree : Free s i)
    (hAgreed : Agreed s i) (hFetch : fetchTrap i (runCtx s i.core) true = none) :
    Completes (.nop i bits) s (fun u => Entered s u i.core 1) := by
  obtain ⟨hIssue, hUnit, hParked⟩ := hFree
  have hTrap : fetchTrap i (runCtx s i.core) false = some (1, 0) := by
    unfold fetchTrap at hFetch ⊢
    split at hFetch
    · cases hFetch
    · split at hFetch
      · cases hFetch
      · next hPlace hEcc => rw [if_neg hPlace, if_neg hEcc]; rfl
  have hNotFirst : ¬ (keepsCkpt i.core && (core (startIssue i 1 none s) (runIx (startIssue i 1 none s) i.core)).ctx.entry &&
      decide (6 ≤ 1)) = true := by
    rw [Bool.and_eq_true]
    exact fun h => absurd h.2 (by decide)
  have hExec : exec (.nop i bits) s = .next (trapIn i .nop 1 0 0 (startIssue i 1 none s)) := by
    show execNop i bits s = _
    unfold execNop
    rw [hWord]
    dsimp only
    rw [← runCtx, hIssue, hUnit, hParked, hTrap]
    exact congrArg _ (if_neg hNotFirst)
  exact ⟨_, hExec, trapIn_enters .nop 0 0 (startIssue_begun i 1 none s) hAgreed (by decide)⟩

/-! ### The special registers (R231–R233) -/

theorem coreId_begun {t : State} (h : Begun (runIx s i.core) s t) : coreId t i.core = coreId s i.core := by
  cases hCore : i.core with
  | thread n th => rfl
  | lane n y => rw [coreId, coreId, firstPos, firstPos, h.paired]
  | cp => rfl

theorem sprRead_eq {spr : BitVec 4} (hSpr : spr.toNat ≤ 8) (k : CoreId) (c : Ctx) : sprRead s k c spr =
    nth 0 [pswView c, c.epc, c.enpc, c.epsw, c.mode, c.lstart, c.lend, c.lcount, coreId s k] spr.toNat := by
  unfold sprRead
  generalize spr.toNat = m at *
  interval_cases m <;> rfl

theorem sprReadPriv_iff (spr : BitVec 4) : sprReadPriv spr = true ↔ spr = 1 ∨ spr = 2 ∨ spr = 3 := by
  simp [sprReadPriv, or_assoc]

theorem sprWritePriv_iff (spr : BitVec 4) : sprWritePriv spr = true ↔ 1 ≤ spr.toNat ∧ spr.toNat ≤ 4 := by
  revert spr
  decide

theorem exec_mfs {rd : Reg} {spr : BitVec 4} : exec (.mfs i rd spr) s = issue i (.mfs rd spr) (fun c s =>
    if sprReadPriv spr && !c.mode.getLsbD 0 then .trap 5 0 0 id else .fin (setG rd (sprRead s i.core c spr) c) id) s := rfl

theorem exec_mts {ra : Reg} {spr : BitVec 4} : exec (.mts i spr ra) s = issue i (.mts spr ra) (fun c _ =>
    if sprWritePriv spr && !c.mode.getLsbD 0 then .trap 5 0 0 id else .fin (sprWrite spr (gr c ra) c) id) s := rfl

/-- A register that needs supervisor mode, in supervisor mode, or one that needs none. -/
theorem permitted {priv sup : Bool} (h : priv = true → sup = true) : ¬ (priv && !sup) = true := by
  cases priv with
  | false => exact Bool.false_ne_true
  | true => rw [h rfl]; exact Bool.false_ne_true

theorem mfs_completes {rd : Reg} {spr : BitVec 4} (h : Ready s i (.mfs rd spr))
    (hSup : spr = 1 ∨ spr = 2 ∨ spr = 3 → (runCtx s i.core).mode.getLsbD 0 = true) : Completes (.mfs i rd spr) s (fun u =>
      gr (runCtx u i.core) rd = nth 0 [pswView (runCtx s i.core), (runCtx s i.core).epc, (runCtx s i.core).enpc,
        (runCtx s i.core).epsw, (runCtx s i.core).mode, (runCtx s i.core).lstart, (runCtx s i.core).lend,
        (runCtx s i.core).lcount, coreId s i.core] spr.toNat ∧
      (runCtx u i.core).psw = (runCtx s i.core).psw ∧ Frame1 s u i.core [rd]) := by
  have hSpr : spr.toNat ≤ 8 := of_decide_eq_true (isiLegal_of_legal (legal_of_ready h))
  refine reg_completes exec_mfs h rfl ((if_neg (permitted (fun hPriv => hSup ((sprReadPriv_iff spr).mp hPriv)))).trans ?_)
  rw [sprRead_eq hSpr, coreId_begun (wordBegun_begun i _ s)]

/-- What MTS makes of a context. -/
theorem sprWrite_fields (spr : BitVec 4) (v : Word) (c : Ctx) :
    (sprWrite spr v c).psw = (if spr = 0 then (v &&& pswMask (c.mode.getLsbD 0)) ||| (c.psw &&& ~~~pswMask (c.mode.getLsbD 0))
      else c.psw) ∧
    (sprWrite spr v c).epc = (if spr = 1 then v else c.epc) ∧ (sprWrite spr v c).enpc = (if spr = 2 then v else c.enpc) ∧
    (sprWrite spr v c).epsw = (if spr = 3 then v &&& 0xF00001F0 else c.epsw) ∧
    (sprWrite spr v c).mode = (if spr = 4 then v &&& 1 else c.mode) ∧
    (sprWrite spr v c).lstart = (if spr = 5 then v &&& 0xFFFFFFFC else c.lstart) ∧
    (sprWrite spr v c).lend = (if spr = 6 then v &&& 0xFFFFFFFC else c.lend) ∧
    (sprWrite spr v c).lcount = (if spr = 7 then v else c.lcount) ∧
    (sprWrite spr v c).g = c.g ∧ (sprWrite spr v c).pc = c.pc := by
  rcases spr with ⟨⟨n, hn⟩⟩
  interval_cases n <;> exact ⟨rfl, rfl, rfl, rfl, rfl, rfl, rfl, rfl, rfl, rfl⟩

/-- The bits of PSW that MTS writes and those that it leaves, within a mask. -/
theorem masked_and (v p m k : Word) : ((v &&& m) ||| (p &&& ~~~m)) &&& k = (v &&& (m &&& k)) ||| (p &&& (~~~m &&& k)) := by
  apply BitVec.eq_of_getLsbD_eq
  intro j _
  simp only [BitVec.getLsbD_and, BitVec.getLsbD_or, Bool.and_or_distrib_right, Bool.and_assoc]

theorem mtsPsw_bits (sup : Bool) (v p : Word) :
    ((v &&& pswMask sup) ||| (p &&& ~~~pswMask sup)) &&& 0xF0000180 = v &&& 0xF0000180 ∧
    ((v &&& pswMask sup) ||| (p &&& ~~~pswMask sup)) &&& 0x0FFFFE3F = p &&& 0x0FFFFE3F ∧
    ((v &&& pswMask sup) ||| (p &&& ~~~pswMask sup)).getLsbD 6 = if sup then v.getLsbD 6 else p.getLsbD 6 := by
  rw [masked_and, masked_and]
  cases sup
  · simp [pswMask]
  · simp [pswMask]

theorem mts_completes {ra : Reg} {spr : BitVec 4} (h : Ready s i (.mts spr ra))
    (hSup : 1 ≤ spr.toNat ∧ spr.toNat ≤ 4 → (runCtx s i.core).mode.getLsbD 0 = true)
    (hEnd : (runCtx s i.core).pc ≠ (runCtx s i.core).lend) : Completes (.mts i spr ra) s (fun u =>
      (spr = 0 → (runCtx u i.core).psw &&& 0xF0000180 = gr (runCtx s i.core) ra &&& 0xF0000180 ∧
        (runCtx u i.core).psw &&& 0x0FFFFE3F = (runCtx s i.core).psw &&& 0x0FFFFE3F ∧
        (runCtx u i.core).psw.getLsbD 6 = (if (runCtx s i.core).mode.getLsbD 0 then (gr (runCtx s i.core) ra).getLsbD 6
          else (runCtx s i.core).psw.getLsbD 6)) ∧
      (spr ≠ 0 → (runCtx u i.core).psw = (runCtx s i.core).psw) ∧
      (runCtx u i.core).epc = (if spr = 1 then gr (runCtx s i.core) ra else (runCtx s i.core).epc) ∧
      (runCtx u i.core).enpc = (if spr = 2 then gr (runCtx s i.core) ra else (runCtx s i.core).enpc) ∧
      (runCtx u i.core).epsw = (if spr = 3 then gr (runCtx s i.core) ra &&& 0xF00001F0 else (runCtx s i.core).epsw) ∧
      (runCtx u i.core).mode = (if spr = 4 then gr (runCtx s i.core) ra &&& 1 else (runCtx s i.core).mode) ∧
      (runCtx u i.core).lstart = (if spr = 5 then gr (runCtx s i.core) ra &&& 0xFFFFFFFC else (runCtx s i.core).lstart) ∧
      (runCtx u i.core).lend = (if spr = 6 then gr (runCtx s i.core) ra &&& 0xFFFFFFFC else (runCtx s i.core).lend) ∧
      (spr = 7 → (runCtx u i.core).lcount = gr (runCtx s i.core) ra) ∧ RegsKept (runCtx s i.core) (runCtx u i.core) [] ∧
      RestKept s u i.core) := by
  obtain ⟨u, hNext, hCtx, hRest⟩ := ctx_completes exec_mts h rfl
    (if_neg (permitted (fun hPriv => hSup ((sprWritePriv_iff spr).mp hPriv))))
  obtain ⟨hPsw, hEpc, hEnpc, hEpsw, hMode, hStart, hLend, hCount, hG, hPc⟩ :=
    sprWrite_fields spr (gr (runCtx s i.core) ra) (runCtx s i.core)
  obtain ⟨hNextG, hNextPsw, hNextEpsw, hNextEpc, hNextEnpc, hNextMode, hNextStart, hNextLend⟩ :=
    advance_keeps none (sprWrite spr (gr (runCtx s i.core) ra) (runCtx s i.core))
  obtain ⟨hPass, -⟩ := stepped_advance (sprWrite spr (gr (runCtx s i.core) ra) (runCtx s i.core))
  refine ⟨u, hNext, ?_⟩
  beta_reduce
  rw [hCtx, hNextPsw, hPsw]
  refine ⟨fun hSpr => ?_, fun hSpr => if_neg hSpr, hNextEpc.trans hEpc, hNextEnpc.trans hEnpc, hNextEpsw.trans hEpsw,
    hNextMode.trans hMode, hNextStart.trans hStart, hNextLend.trans hLend, fun hSpr => ?_,
    fun g _ => gr_of_g (hNextG.trans hG) g, hRest⟩
  · rw [if_pos hSpr]
    exact mtsPsw_bits ..
  · subst hSpr
    obtain ⟨-, -, hLcount⟩ := hPass (.inl hEnd)
    exact hLcount

/-! ### RETE, FENCE, WAIT and SVC (R260, R270, R275, R285) -/

theorem exec_rete : exec (.rete i) s = issue i .rete (fun c _ =>
    if c.mode.getLsbD 0 then .place true (reteCtx c) c.epc c.enpc else .trap 5 0 0 id) s := rfl

theorem rete_completes (h : Ready s i .rete) (hSup : (runCtx s i.core).mode.getLsbD 0 = true) :
    Completes (.rete i) s (fun u =>
      (runCtx u i.core).pc = (runCtx s i.core).epc ∧ (runCtx u i.core).npc = (runCtx s i.core).enpc ∧
      (runCtx u i.core).slot = decide ((runCtx s i.core).enpc ≠ (runCtx s i.core).epc + 4) ∧
      (runCtx u i.core).psw = (runCtx s i.core).epsw &&& 0xF00001E0 ∧
      bitsOf (runCtx u i.core).mode 0 0 = bitsOf (runCtx s i.core).epsw 4 4 ∧
      RegsKept (runCtx s i.core) (runCtx u i.core) [] ∧ RestKept s u i.core) := by
  obtain ⟨u, hNext, hCtx, hRest⟩ := place_completes exec_rete h rfl (if_pos hSup)
  refine ⟨u, hNext, ?_⟩
  beta_reduce
  rw [hCtx]
  refine ⟨rfl, rfl, rfl, rfl, ?_, fun _ _ => rfl, hRest⟩
  show bitsOf (BitVec.ofNat 32 (bitsOf (runCtx s i.core).epsw 4 4)) 0 0 = _
  unfold bitsOf
  rw [BitVec.toNat_ofNat]
  omega

theorem clus_wordBegun (x : Isi) (n : Nat) : clus (wordBegun i x s) n = clus s n := by
  rw [clus, wordBegun, clusters_of (startIssue_view clustersV (clustersV_free (by decide)) (clustersV_free (by decide))
    (clustersV_free (by decide)) i _ _ s), clus]

theorem exec_fence : exec (.fence i) s = issue i .fence (fun c s =>
    if (List.range 16).any (fun n => (clus s n).held.any (fun h => !h.read && h.core = coreIx i.core)) then .held
    else .fin c id) s := rfl

/-- Whether the fabric holds a store of the core, as FENCE finds it. -/
theorem heldStores_iff : ((List.range 16).any (fun n => (clus (wordBegun i .fence s) n).held.any
      (fun h => !h.read && h.core = coreIx i.core))) = true ↔
    ∃ n, n < 16 ∧ ∃ h ∈ (clus s n).held, h.read = false ∧ h.core = coreIx i.core := by
  simp only [List.any_eq_true, List.mem_range, clus_wordBegun, Bool.and_eq_true, Bool.not_eq_true', decide_eq_true_eq]

theorem fence_completes (h : Ready s i .fence)
    (hNone : ∀ n, n < 16 → ∀ h ∈ (clus s n).held, h.read = true ∨ h.core ≠ coreIx i.core) :
    Completes (.fence i) s (fun u => (runCtx u i.core).psw = (runCtx s i.core).psw ∧ Frame1 s u i.core []) := by
  refine psw_completes exec_fence h rfl (if_neg ?_)
  rw [heldStores_iff]
  rintro ⟨n, hn, a, ha, hRead, hCore⟩
  rcases hNone n hn a ha with hOther | hOther
  · exact Bool.false_ne_true (hRead.symm.trans hOther)
  · exact hOther hCore

/-- A word whose access is held has only begun. -/
theorem held_completes {w : Instr} (hExec : exec w s = issue i x run s) (h : Ready s i x) (hBlock : x.isBlock = false)
    (hRun : run (runCtx s i.core) (wordBegun i x s) = .held) :
    Completes w s (fun u => runCtx u i.core = runCtx s i.core ∧ RestKept s u i.core) := by
  have hBegun := wordBegun_begun i x s
  refine ⟨wordBegun i x s, ?_, hBegun.runCtx i.core, hBegun.mem, hBegun.regs, hBegun.others⟩
  rw [hExec, issue_wordBegun h hBlock, hRun]
  rfl

theorem exec_wait : exec (.wait i) s = issue i .wait (fun c s =>
    if !c.mode.getLsbD 0 then .trap 5 0 0 id
    else .fin c (if (presented s i.core).isSome then id
      else updCore (runIx s i.core) (fun x => { x with ctx := { x.ctx with waiting := true } }))) s := rfl

/-- WAIT and SVC are no words of a thread (R229). -/
theorem notThread_of_legal {k : CoreId} {c : Ctx} (hWord : x = .wait ∨ ∃ imm, x = .svc imm) (h : legalHere k c x = true) :
    isThread k = false := by
  rcases hWord with rfl | ⟨imm, rfl⟩ <;>
  · simp only [legalHere, Bool.and_eq_true, Bool.not_eq_true'] at h
    obtain ⟨⟨⟨-, hThread⟩, -⟩, -⟩ := h
    exact hThread

theorem twins_wordBegun (x : Isi) (hCore : isThread i.core = false) (c : Nat) : Twins c s (wordBegun i x s) := by
  have hCount : Twins c s (addF fScrubCorr i.corrected s) := Twins.unreadSet ((unread_iff ..).mpr (.inl rfl)) _ s
  unfold wordBegun startIssue
  cases hk : i.core with
  | thread n t =>
    rw [hk] at hCore
    cases hCore
  | lane n y => exact hCount
  | cp => exact hCount

/-- A core that issues does not wait (R285). -/
theorem waiting_of_canIssue {k : CoreId} (hIssue : canIssue s k = true) (hCore : isThread k = false) :
    (runCtx s k).waiting = false := by
  cases k with
  | thread n t => cases hCore
  | lane n y =>
    simp only [canIssue, canRun, Bool.and_eq_true, Bool.not_eq_true'] at hIssue
    obtain ⟨⟨⟨⟨⟨-, hWait⟩, -⟩, -⟩, -⟩, -⟩ := hIssue
    exact hWait
  | cp =>
    simp only [canIssue, canRun, Bool.and_eq_true, Bool.not_eq_true'] at hIssue
    obtain ⟨⟨⟨-, hWait⟩, -⟩, -⟩ := hIssue
    exact hWait

theorem advance_waiting (c : Ctx) : (advance none c).waiting = c.waiting := by
  unfold advance loopEnd
  dsimp only
  split
  · split <;> rfl
  · rfl

/-- A change of the core's context, and nothing else. -/
theorem updCtx_rest {v : State} {y : Ctx} (g : Ctx → Ctx) (h : runCtx v i.core = y ∧ RestKept s v i.core) :
    runCtx (updCore (runIx s i.core) (fun x => { x with ctx := g x.ctx }) v) i.core = g y ∧
    RestKept s (updCore (runIx s i.core) (fun x => { x with ctx := g x.ctx }) v) i.core := by
  obtain ⟨hCtx, hMem, hReg, hCore⟩ := h
  have hPairing : ∀ n, n < 16 → reg v (winK n 0x150) = reg s (winK n 0x150) := fun n _ =>
    hReg _ (by simp only [winK, fScrubCorr, fld]; omega)
  have hIx := runIx_of_reg hPairing i.core
  refine ⟨?_, hMem, hReg, fun j hj => (core_updCore_ne _ _ _ hj).trans (hCore j hj)⟩
  rw [← hIx, ← hCtx, runCtx, runCtx, runIx_of_reg (fun n _ => reg_updCore ..) i.core, core_updCore_self]

theorem wait_completes (h : Ready s i .wait) (hSup : (runCtx s i.core).mode.getLsbD 0 = true) :
    Completes (.wait i) s (fun u => (runCtx u i.core).waiting = (presented s i.core).isNone ∧
      (runCtx u i.core).psw = (runCtx s i.core).psw ∧ Frame1 s u i.core []) := by
  have hCore : isThread i.core = false := notThread_of_legal (.inl rfl) (legal_of_ready h)
  have hRuns : canIssue s i.core = true := by
    obtain ⟨⟨hIssue, -, -⟩, -⟩ := h
    exact hIssue
  have hNext := issue_fin (run := fun c s => if !c.mode.getLsbD 0 then .trap 5 0 0 id
    else .fin c (if (presented s i.core).isSome then id
      else updCore (runIx s i.core) (fun x => { x with ctx := { x.ctx with waiting := true } }))) h rfl
    (if_neg (by rw [hSup]; decide))
  rw [presented_twins (twins_wordBegun .wait hCore _), (wordBegun_begun i .wait s).runIx] at hNext
  have hSet := setCtx_rest (begun_fetched (wordBegun_begun i .wait s) .wait) (advance none (runCtx s i.core))
  generalize setCtx (runIx s i.core) (advance none (runCtx s i.core)) (fetched i .wait (wordBegun i .wait s)) = v at hNext hSet
  obtain ⟨hSpec, hStep⟩ := advance_regs (runCtx s i.core).g (runCtx s i.core).psw (runCtx s i.core)
  refine ⟨_, exec_wait.trans hNext, ?_⟩
  beta_reduce
  cases hReq : presented s i.core with
  | some r =>
    obtain ⟨hCtx, hRest⟩ := hSet
    rw [Option.isSome_some, if_pos rfl, id, Frame1, hCtx, advance_waiting, psw_advance]
    exact ⟨waiting_of_canIssue hRuns hCore, rfl, fun g _ => gr_advance .., hSpec, hStep, hRest⟩
  | none =>
    obtain ⟨hCtx, hRest⟩ := updCtx_rest (fun c => { c with waiting := true }) hSet
    rw [Option.isSome_none, if_neg Bool.false_ne_true, Frame1, hCtx]
    exact ⟨rfl, psw_advance .., fun g _ => gr_advance none _ g, hSpec, hStep, hRest⟩

/-- CORE_ECAUSE shows the number of an SVC (R270). -/
theorem coreEntry_detail {k cause detail : Nat} (hCause : cause < 256) (hDetail : detail < 256) (bad : Word) (s : State) :
    getF (coreEntry k cause detail bad s) (fld (privK k 0x804) 15 8) = detail := by
  unfold coreEntry
  rw [getF_updCore]
  show bitsOf (reg (setReg (privK k 0x804) _ _) (privK k 0x804)) 15 8 = detail
  rw [reg_setReg_self, bitsOf, BitVec.toNat_ofNat]
  split <;> split <;> omega

theorem trapIn_detail {t : State} {cause detail : Nat} (x : Isi) (bad : Word) (hAgreed : Agreed t i)
    (hCause : cause < 256) (hEcc : cause ≠ 7) (hDetail : detail < 256) (hCore : isThread i.core = false) :
    getF (trapIn i x cause detail bad t) (fld (privK (runIx t i.core) 0x804) 15 8) = detail := by
  have hRaised : getF (raiseExc i.core cause detail bad t) (fld (privK (runIx t i.core) 0x804) 15 8) = detail := by
    cases hk : i.core with
    | thread n th =>
      rw [hk] at hCore
      cases hCore
    | lane n y => exact coreEntry_detail hCause hDetail ..
    | cp => exact coreEntry_detail hCause hDetail ..
  rw [trapIn_agreed hAgreed hEcc]
  dsimp only
  split <;> split
  · rw [getF_updCore, getF_setF_apart _ _ (by simp [Fld.apart, Fld.ok, bit, fld]), hRaised]
  · rw [getF_updCore, hRaised]
  · rw [getF_setF_apart _ _ (by simp [Fld.apart, Fld.ok, bit, fld]), hRaised]
  · exact hRaised

theorem exec_svc {imm : BitVec 8} : exec (.svc i imm) s = issue i (.svc imm) (fun _ _ => .trap 8 imm.toNat 0 id) s := rfl

theorem svc_completes {imm : BitVec 8} (h : Ready s i (.svc imm)) (hAgreed : Agreed s i) : Completes (.svc i imm) s (fun u =>
      Entered s u i.core 8 ∧ getF u (fld (privK (runIx s i.core) 0x804) 15 8) = imm.toNat) := by
  have hBegun := wordBegun_begun i (.svc imm) s
  have hCore : isThread i.core = false := notThread_of_legal (.inr ⟨imm, rfl⟩) (legal_of_ready h)
  have hAgreed' : Agreed (wordBegun i (.svc imm) s) i := by rw [Agreed, hBegun.compared, hAgreed]
  have hIssue := issue_wordBegun (run := fun _ _ => .trap 8 imm.toNat 0 id) h rfl
  rw [finish_trapIn _ _ _ hBegun hAgreed] at hIssue
  refine ⟨_, exec_svc.trans hIssue, ?_, ?_⟩
  · exact ((trapIn_atEntry _ _ _ hAgreed' (by decide) (by decide) hCore).entered hCore).of_begun hBegun
  · rw [← hBegun.runIx]
    exact trapIn_detail _ _ hAgreed' (by decide) (by decide) imm.isLt hCore

/-! ### FLI (R259, R268, R274) -/

theorem exec_fli {ra : Reg} : exec (.fli i ra) s =
    issue i (.fli ra) (fun c _ => .fin c (flushLine i.core (gr c ra))) s := rfl

end

/-- FLI's line leaves the branch-target buffers of the cluster. -/
def targetsDropped (k : CoreId) (a : Word) (s : State) : State :=
  if isLane k then each (List.range 4) (fun x => updCore (16 * coreCl k + 12 + x)
    (fun y => { y with btb := y.btb.filter (fun p => !btbInLine a p) })) s else s

/-- FLI in its steps. -/
theorem flushLine_eq (k : CoreId) (a : Word) (s : State) : flushLine k a s =
    if isThread k || decide (0x01000000 ≤ a.toNat) then s
    else
      let u := targetsDropped k a (updClus (coreCl k) (fun x => { x with lines := x.lines.filter (fun l => l.1 ≠ lineOf a) }) s)
      if ((vbase u (runIx u k)).toNat + 0x40) / 32 = a.toNat / 32 then
        updCore (runIx u k) (fun x => { x with vline := readBytes u ((vbase u (runIx u k)).toNat + 0x40) 32 }) u
      else u := rfl

theorem targetsDropped_clus (k : CoreId) (a : Word) (s : State) (n : Nat) : clus (targetsDropped k a s) n = clus s n := by
  unfold targetsDropped
  split
  · refine each_view (⟨fun u => clus u n⟩ : View ClusterSt) _ _ ?_ s
    exact fun _ _ => rfl
  · rfl

/-- The line leaves the line buffer of the core's cluster. -/
theorem flushLine_lines {k : CoreId} {a : Word} (hCore : isThread k = false) (ha : a.toNat < 0x01000000) (s : State) :
    (clus (flushLine k a s) (coreCl k)).lines.any (fun l => l.1 = lineOf a) = false := by
  have hDropped : ((clus (targetsDropped k a (updClus (coreCl k)
      (fun x => { x with lines := x.lines.filter (fun l => l.1 ≠ lineOf a) }) s)) (coreCl k)).lines.any
        (fun l => l.1 = lineOf a)) = false := by
    rw [targetsDropped_clus, clus_updClus_self, List.any_filter]
    simp
  rw [flushLine_eq, hCore, Bool.false_or, if_neg (by simpa using ha)]
  dsimp only
  split
  · exact hDropped
  · exact hDropped

/-- A change of a core that leaves its context. -/
theorem ctx_updCore {f : CoreSt → CoreSt} (hf : ∀ x, (f x).ctx = x.ctx) (k : Nat) (s : State) (j : Nat) :
    (core (updCore k f s) j).ctx = (core s j).ctx := by
  by_cases hj : j = k
  · rw [hj, core_updCore_self, hf]
  · rw [core_updCore_ne _ _ _ hj]

theorem flushLine_ctx (k : CoreId) (a : Word) (s : State) (j : Nat) : (core (flushLine k a s) j).ctx = (core s j).ctx := by
  have hDropped : (core (targetsDropped k a (updClus (coreCl k)
      (fun x => { x with lines := x.lines.filter (fun l => l.1 ≠ lineOf a) }) s)) j).ctx = (core s j).ctx := by
    unfold targetsDropped
    split
    · refine each_view (⟨fun u => (core u j).ctx⟩ : View Ctx) _ _ (fun x u => ctx_updCore ?_ (16 * coreCl k + 12 + x) u j) _
      exact fun _ => rfl
    · rfl
  rw [flushLine_eq]
  split
  · rfl
  · dsimp only
    split
    · refine (ctx_updCore ?_ _ _ j).trans hDropped
      exact fun _ => rfl
    · exact hDropped

theorem flushLine_reg (k : CoreId) (a : Word) (s : State) (q : Nat) : reg (flushLine k a s) q = reg s q :=
  flushLine_view ⟨fun u => reg u q⟩ (fun _ _ => rfl) (fun _ _ => rfl) k a s

theorem runCtx_flushLine (k : CoreId) (a : Word) (s : State) (c : CoreId) : runCtx (flushLine k a s) c = runCtx s c := by
  rw [runCtx, flushLine_ctx, runIx_of_reg (fun n _ => flushLine_reg k a s _) c, runCtx]

theorem fli_completes {s : State} {i : Issue} {ra : Reg} (h : Ready s i (.fli ra)) : Completes (.fli i ra) s (fun u =>
      (isThread i.core = false → (gr (runCtx s i.core) ra).toNat < 0x01000000 →
        (clus u (coreCl i.core)).lines.any (fun l => l.1 = lineOf (gr (runCtx s i.core) ra)) = false) ∧
      RegsKept (runCtx s i.core) (runCtx u i.core) [] ∧ (runCtx u i.core).psw = (runCtx s i.core).psw ∧ u.mem = s.mem ∧
      RegisterKept s u) := by
  have hNext := issue_fin (run := fun c _ => .fin c (flushLine i.core (gr c ra))) h rfl rfl
  obtain ⟨hCtx, hMem, hReg, -⟩ := setCtx_rest (begun_fetched (wordBegun_begun i (.fli ra) s) (.fli ra)) (advance none (runCtx s i.core))
  refine ⟨_, exec_fli.trans hNext, fun hCore ha => flushLine_lines hCore ha _, ?_⟩
  rw [runCtx_flushLine, hCtx]
  exact ⟨fun g _ => gr_advance .., psw_advance .., (mem_of (flushLine_view memV (memV_free (by decide)) (memV_free (by decide)) ..)).trans hMem,
    fun q hq => (flushLine_reg ..).trans (hReg q hq)⟩

theorem Entered.regs {s u : State} {k : CoreId} {cause : Nat} (h : Entered s u k cause) : (runCtx u k).g = (runCtx s k).g := by
  obtain ⟨hThread, hCore⟩ := h
  cases k with
  | thread n t =>
    obtain ⟨-, -, -, hG⟩ := hThread n t rfl
    exact hG
  | lane n x =>
    obtain ⟨-, -, -, -, -, -, -, hG⟩ := hCore rfl
    exact hG
  | cp =>
    obtain ⟨-, -, -, -, -, -, -, hG⟩ := hCore rfl
    exact hG

end Sys2Proof.Machine
end

section
open Sys2Proof Sys2Proof.Machine

/-- Settles O41: one lemma for each instruction in supervisor mode, and the exception of those that need it. -/
theorem systemInstructions : Obligations.SystemInstructions := by
  unfold Obligations.SystemInstructions
  rintro s i rd ra spr x rfl
  refine ⟨?_, fun bits hWord hFree hAgreed hFetch => undefined_completes hWord hFree hAgreed hFetch, mfs_completes,
    fun h hSup hEnd => mts_completes h hSup hEnd, ?_, rete_completes, fli_completes, fun h => ⟨fun hNone => ?_, fun hHeld => ?_⟩,
    wait_completes, fun hUser hAgreed => ⟨fun h => ?_, fun h => ?_, fun h hLow hHigh => ?_⟩, fun imm h => svc_completes h⟩
  · rintro _ rfl h
    obtain ⟨u, hNext, hPsw, hFrame⟩ := psw_completes exec_nop h rfl rfl
    exact ⟨u, hNext, hFrame, hPsw⟩
  · rintro _ rfl h hAgreed hPriv hUser
    refine exception_completes exec_mfs h rfl hAgreed (by decide) (if_pos ?_)
    rw [(sprReadPriv_iff spr).mpr hPriv, hUser]
    rfl
  · obtain ⟨u, hNext, hPsw, hFrame⟩ := fence_completes h hNone
    exact ⟨u, hNext, hFrame, hPsw⟩
  · obtain ⟨u, hNext, hCtx, hRest⟩ := held_completes exec_fence h rfl (if_pos (heldStores_iff.mpr hHeld))
    refine ⟨u, hNext, ?_⟩
    beta_reduce
    rw [hCtx]
    exact ⟨rfl, rfl, fun _ _ => rfl, hRest⟩
  · exact exception_completes exec_wait h rfl hAgreed (by decide) (if_pos (by rw [hUser]; rfl))
  · exact exception_completes exec_rete h rfl hAgreed (by decide) (if_neg (by rw [hUser]; exact Bool.false_ne_true))
  · obtain ⟨u, hNext, hEntered⟩ := exception_completes exec_mts h rfl hAgreed (by decide)
      (if_pos (by rw [(sprWritePriv_iff spr).mpr ⟨hLow, hHigh⟩, hUser]; rfl))
    exact ⟨u, hNext, hEntered, hEntered.regs⟩

end

section
open Sys2Proof Sys2Proof.Machine

namespace Sys2Proof.Machine

/-- The unit that repeats a fill of the reserved size code 3, under the condition that never holds. -/
def reservedFill : RepUnit := { word := encode 1 (.blk .fill 3 0 1 0 0), rc := 3, left := 0 }

/-- The control processor runs with that unit armed, and its pointer, register 1, stands at half a doubleword; the byte 4
further on holds 1. -/
def fillArmed : State :=
  writeB 0x20000008 1 (updHost (fun h => { h with cpRun := true })
    (setCtx 256 { setG 1 0x20000004 (initCore 256).ctx with unit := some reservedFill } State.reset))

/-- An iteration of the control processor's unit. -/
def fillIssue : Issue := { core := .cp, cond := 1, agree := true, eccFetch := false, eccData := false, corrected := 0 }

end Sys2Proof.Machine

/-- Refutes O38: the statement asks of the unit only that its word is armed, and so takes in the size code 3, which no legal
word has (R255). Its 8 bytes at an address that is no multiple of 8 are written in parts of 4 and of 0 bytes (R246), so that
the byte 4 further on, here 1, keeps its value, where the clause of BFILL has a byte of the register, here 0. -/
theorem not_blockOperations : ¬ Obligations.BlockOperations := by
  unfold Obligations.BlockOperations
  intro h
  obtain ⟨-, hFill, -⟩ := h fillArmed fillIssue reservedFill 3 0 1 2 0 _ _ _ _ rfl rfl rfl rfl (by decide) (by decide) (by decide)
  have hDone := hFill (by decide) (by decide)
  obtain ⟨⟨hBytes, -⟩, -⟩ := hDone.of_exec rfl
  exact absurd (hBytes 4 (by decide)) (by decide)

end
